-- ==== Sys2Proof/Word.lean ====
section
/-! DEFINITION. The words the part's registers, buffers and memories hold, and their plainest arithmetic. -/

namespace Sys2Proof

/-- A register, a payload word or a word of a bus beat: 32 bits, little-endian (R11). -/
abbrev Word := BitVec 32

/-- A byte of a buffer or a memory. -/
abbrev Byte := BitVec 8

/-- A Boolean as the value of a one-bit field. -/
def b2n (b : Bool) : Nat := if b then 1 else 0

/-- The value of a `w`-bit two's complement field. -/
def toSigned (w n : Nat) : Int :=
  if n % 2 ^ w < 2 ^ (w - 1) then (n % 2 ^ w : Nat) else (n % 2 ^ w : Nat) - (2 ^ w : Nat)

/-- The `w`-bit two's complement code of an integer. -/
def ofSigned (w : Nat) (i : Int) : Nat := (i % (2 ^ w : Nat)).toNat

/-- A saturating sum: a counter of `w` bits that stops at its largest value. -/
def satAdd (w a b : Nat) : Nat := min (a + b) (2 ^ w - 1)

/-- The bits `lo .. lo + w - 1` of a number. -/
def bits (n lo w : Nat) : Nat := n / 2 ^ lo % 2 ^ w

/-- Bit `i` of a number. -/
def bit (n i : Nat) : Bool := n / 2 ^ i % 2 == 1

/-- An integer kept within `lo .. hi`. -/
def clampI (lo hi x : Int) : Int := max lo (min hi x)

/-- The distance `(a - b) mod 2^32` of two 32-bit counts (R30, R163). -/
def sub32 (a b : Nat) : Nat := (a + 2 ^ 32 - b % 2 ^ 32) % 2 ^ 32

end Sys2Proof
end

