-- ==== Sys2Proof/Machine/Types.lean ====
section
/-! DEFINITION. The plain data that both the commands and the state hold: accepted changes, responses, the duplicate history, the audio
state, and the bodies of the twin messages. -/

namespace Sys2Proof.Machine

/-- The kinds of setting a change writes; a change of one kind and index replaces an earlier one (R35). -/
inductive Kind where
  | role | dom | mon | quiet | lnr | sticky | fwr | pin
  | cand | plane | rephase | recal | disagree | ptpCfg | ptpPort | relock
  | route | dest | gen | src | record | playback | dmc | dmcCfg
  | sdiRx | sdiTx | fabCfg | fabLink | fabLane | fabSlot | loop
  | netPort | gcl | join | leave | sender
  | shuf | embed | gain | mixin | mixout | engine | sap | sapGroup | sapMclk
  | head | vlayer | glayer | colour | flip
  | anchor | handover | twnCfg | twnLane | aperture | cancel | activate | confirm
  deriving DecidableEq, Repr

/-- One accepted change: its kind, the index of what it sets, and the words it carries. -/
structure Change where
  kind : Kind
  idx : Nat
  ws : List Nat
  deriving DecidableEq, Repr

/-- A change waiting in the take queue (R110, R175): the plane and epoch it takes at, and the request that made it. `host` is
false for the changes of configuration load (R83, R154). -/
structure Pend where
  plane : Nat
  epoch : Nat
  change : Change
  chan : Nat
  seq : Nat
  host : Bool
  deriving DecidableEq, Repr

/-- A response (R133, R134): status, flag bits 16 to 19 as a number from bit 0, header word 3 and the payload words. -/
structure Resp where
  status : Nat
  flags : Nat := 0
  epoch : Nat := 0
  payload : List Nat := []
  deriving DecidableEq, Repr

/-- An entry of a channel's duplicate history (R136), with whether a change of it has taken (R147) and whether it was VOLATILE. -/
structure Hist where
  chan : Nat
  seq : Nat
  opcode : Nat
  len : Nat
  resp : Resp
  taken : Bool := false
  volatile : Bool := false
  deriving DecidableEq, Repr

/-- A mix coefficient (R481, R489): the value it moves to and the one it moves from, the ramp samples done and the length of the ramp. -/
structure Coef where
  goal : Int := 0
  start : Int := 0
  done : Nat := 0
  len : Nat := 0
  deriving DecidableEq, Repr

/-- The filters of a mix input (R479): the last input and output of the offset filter, and the last two inputs and outputs of the
high-pass section. -/
structure Filt where
  x1 : Int := 0
  y1 : Int := 0
  hx1 : Int := 0
  hx2 : Int := 0
  hy1 : Int := 0
  hy2 : Int := 0
  deriving DecidableEq, Repr

/-- A mix output (R483, R490): the gain in 2^-24, the lookahead line, oldest first, the results on their way out, newest first; the
saturated samples of the last second as (instant, count) and when CLIP was posted; and the meters of the last 100 blocks, newest
first, as (peak, least gain). -/
structure Lim where
  g : Nat := 2 ^ 24
  line : List Int := List.replicate 32 0
  pipe : List Int := List.replicate 5 0
  clips : List (Nat × Nat) := []
  clipAt : Option Nat := none
  meters : List (Nat × Nat) := []
  deriving DecidableEq, Repr

/-- The decisions for a head frame that the active part forwarded (R527): the head frame; for each video layer with a tap on the other
plane 0 no new frame, 1 the frame being completed, 2 the one before; the late video layers; and the flips applied as (group, index). -/
structure HeadDec where
  frame : Nat
  taps : List (Nat × Nat)
  lates : List Nat
  flips : List (Bool × Nat)
  deriving DecidableEq, Repr

/-- The body of a COMMAND message (R556): FWD_SEQ, the channel and sequence number, the epochs of the planes current at acceptance, the
assigned epochs, and the header and payload words of the request. -/
structure TwinCommand where
  fwdSeq : Nat
  chan : Nat
  seq : Nat
  cur0 : Nat
  cur1 : Nat
  epoch0 : Nat
  epoch1 : Nat
  words : List Nat
  deriving DecidableEq, Repr

/-- The body of a DECISION message (R554): the state and the frames advanced of a synchroniser on its own plane or the other (R209), a
selection with its plane (R462), the bridge ratio of a block (R486), the decisions of a head frame (R527). -/
inductive TwinDecision where
  | sync (src : Nat) (cross promoted : Bool) (adv : Nat)
  | select (plane cand : Nat)
  | bridge (block : Nat) (ratio : Int)
  | head (h : Nat) (d : HeadDec)
  deriving DecidableEq, Repr

/-- A plane in the SYNC_CONFIG image (R575): its epoch counter with its wraps, the units of 1/3 ns to its next frame boundary, the
selected candidate, the build-out, the windows of its holdover model, and its anchor. -/
structure PlaneImage where
  epoch : Nat
  high : Nat
  toBoundary : Nat
  selected : Nat
  buildout : Int
  windows : List Int
  anchor : Option (List Nat)
  deriving DecidableEq, Repr

/-- The SYNC_CONFIG image (R575): every setting, of one setting the newest first, with the channel and sequence number of its request and
whether it is VOLATILE; the take queue, the duplicate histories, FWD_SEQ, and the planes. -/
structure ConfigImage where
  settings : List (Change × (Nat × Nat) × Bool)
  queue : List Pend
  hist : List Hist
  fwdSeq : Nat
  planes : List PlaneImage
  deriving DecidableEq, Repr

/-- The audio state of R497 as a state copy carries it (R576). -/
structure AudImage where
  coefs : List (Nat × Coef)
  filts : List (Nat × Filt)
  lims : List (Nat × Lim)
  ratio : Int
  phase : Int
  deriving DecidableEq, Repr

/-- A segment of a STATE message (R575): the configuration image, a buffer of a graphic layer, the audio state. -/
inductive TwinSegment where
  | config (image : ConfigImage)
  | graphic (h l buf : Nat) (pixels : List (Nat × Nat))
  | audio (image : AudImage)
  deriving DecidableEq, Repr

/-- An evidence record (R567): the source, the epoch, the lines with a CRC or EDH error, the invalid lines, and the aligner cause. -/
structure Evid where
  src : Nat
  epoch : Nat
  errs : Nat
  bads : Nat
  cause : Nat
  deriving DecidableEq, Repr

/-- An access a bus master makes (R587 to R590): the master port, the transaction ID, direction, user mode, address, beats, bytes in a
beat, the bytes it writes from the address up, and whether a DRAM burst it reads meets an uncorrectable error (R262). -/
structure BusAcc where
  m : Nat
  id : Nat
  write : Bool
  user : Bool
  addr : Nat
  beats : Nat
  size : Nat
  data : List Nat
  poison : Bool
  deriving DecidableEq, Repr

/-- A component of an Ixinest package (R616): its version and SVN, its digest as eight words, and whether the digest of its content equals
the one the manifest gives. -/
structure Comp where
  version : Nat
  svn : Nat
  digest : List Nat
  good : Bool
  deriving DecidableEq, Repr

/-- What the checks of a flash bank find (R614 to R616): whether the manifest is well formed, its IDCODE, whether the hash of its key equals
BOOT_KEY_HASH, whether the signature verifies, the firmware and settings schema versions, DP_LEVEL, the manifest digest as eight
words, and the six components in TYPE order. -/
structure Package where
  format : Bool
  idcode : Nat
  key : Bool
  sig : Bool
  version : Nat
  schema : Nat
  dp : Nat
  digest : List Nat
  comps : List Comp
  deriving DecidableEq, Repr

end Sys2Proof.Machine
end

