-- ==== Sys2Proof/Syntax.lean ====
section
/-! DEFINITION. The commands the part takes: host accesses, firmware service of requests, and the events on its pins, ports,
lanes and clocks, one constructor per row of the table of operations and events. -/

namespace Sys2Proof

/-- Who makes a register access (R15, R118): the host through BAR0 or BAR2, or the board controller over the service port. -/
inductive Port where
  | bar0 | bar2 | service
  deriving DecidableEq, Repr

/-- A write access: its port, offset, width in bytes and value (R11, R118, R636). -/
structure HostWrite where
  port : Port
  off : Nat
  width : Nat
  value : Nat
  deriving DecidableEq, Repr


/-- What the aligner of a lane or slot finds when line 1 of a source frame arrives (R201, R210, R216, R279): of the frame that
ended with it, the lines, the interface words of a line, whether it had two fields, and its period measured against the timing plane in units of
1/3 ns; the format its ST 352 payload ID names (0 without one) and the link number it gives (0 without one); whether it was complete, and whether its
last line was invalid; and of the frame that begins, whether it is 3G level B-DL. -/
structure FrameIn where
  lines : Nat
  words : Nat
  fields : Bool
  period : Nat
  pid : Nat
  link : Nat
  complete : Bool
  lastBad : Bool
  levelB : Bool
  deriving DecidableEq, Repr

/-- A DIMM as its serial presence data describes it: capacity in GiB, ranks, whether its devices are 64 Gb, and whether it meets
every row of R246 (R247). -/
structure Dimm where
  gib : Nat
  ranks : Nat
  dense : Bool
  supported : Bool
  deriving DecidableEq, Repr

/-- Capacity, ranks and density agree (R246). -/
def Dimm.fits (d : Dimm) : Bool :=
  d.gib == (if d.dense then 128 else 64) * d.ranks && (d.ranks == 1 || d.ranks == 2)

/-- An Ethernet frame as the MAC of a port receives it (R372 to R376): its length from the destination address through the FCS,
whether a codeword of it was uncorrectable or failed to decode, whether its FCS matched, its destination address (first byte in
[47:40]) and EtherType, for an IPv4 UDP frame its source and group addresses and its destination UDP port, and the codewords
corrected and uncorrectable since the frame before (R386). -/
structure NetFrame where
  len : Nat
  code : Bool
  fcsOk : Bool
  da : BitVec 48
  etype : BitVec 16
  udp : Option (Word × Word × BitVec 16)
  corrected : Nat
  uncorrectable : Nat
  deriving DecidableEq, Repr

/-- An RTP packet of a video or ancillary flow (R402, R405, R406): its extended sequence number and timestamp, whether it belongs
to field 2, the first frame line it carries, whether its payload passes every check, and for an ancillary flow the raster position
each packet in it names, with whether the format has that position. -/
structure MediaPacket where
  seq : Nat
  rtp : Word
  field2 : Bool
  line : Nat
  good : Bool
  anc : List (Bool × Nat)
  deriving DecidableEq, Repr

/-- An RTP packet of an audio flow (R400, R401, R408): its extended sequence number, the RTP timestamp of its first sample, whether
its payload passes every check, and whether its channel status signals non-audio. -/
structure AudioPacket where
  seq : Nat
  rtp : Word
  good : Bool
  nonPcm : Bool
  deriving DecidableEq, Repr

/-- What the monitor of a reference candidate measures (R448, R450, R458): its mean offset over the window in 0.001 ppm against LO_IN,
or SD_REFCLK while LO_IN is missing, before correction, and its offset now, which a plane locked to it has; whether it was active for the
whole window; and for each plane the offset in ns that a switch to it would measure, or for a plane in START the ns until the first frame boundary it gives. -/
structure RefMeas where
  offset : Int
  present : Int
  active : Bool
  phase0 : Int
  phase1 : Int
  deriving DecidableEq, Repr

/-- One block of the audio engine (R470, R485, R505 to R507): the words of its engine inputs that come from outside it, 48 each (an
input not listed, a channel not de-embedded, on an invalid line or not received, is silent); the inputs whose channel status is marked
non-audio; the bridge ratio measured, less 1, in 2^-36; how far the lead port's control loop asks the DCO to move, and the
rate offset of each slave port that is measured, both in 0.001 ppm. -/
structure AudioBlock where
  ins : List (Nat × List Int)
  nonAudio : List Nat
  ratio : Int
  move : Nat
  rates : List (Nat × Int)
  deriving DecidableEq, Repr


/-- The commands of the part: one constructor per row of the table of operations and events. `t` is the instant of the
command in units of 1/3 ns (log entry 2), so that every frame period of R160 is a whole number of units. -/
inductive Instr where
  /-- REGISTER_WRITE (R12): A write to a register, or to a BAR2 location, that has no row of its own stores, clears or sets its field bits by access type, or is ignored and counted. -/
  | registerWrite (t : Nat) (w : HostWrite)
  /-- RING (R130): A write of 1 to MBX_DB[n].RING sets BUSY, clears RESP_READY and places the channel in the doorbell order, or sets DB_WHILE_BUSY if the channel is already BUSY. -/
  | ring (t : Nat) (ch : Fin 16)
  /-- MSIX_UNMASK (R128): Unmasking an MSI-X vector sends one message if its TOP_IRQ_STATUS bit is still 1. -/
  | msixUnmask (t : Nat) (v : Option (Fin 32))
  /-- ENDPOINT_RESET (R120): PERST_N, a function-level reset, a hot reset or a link-down event resets only the PCIe endpoint, its configuration space and its MSI-X table. -/
  | endpointReset (t : Nat)
  /-- ECHO (R144): The query returns its payload unchanged. -/
  | echo (t : Nat) (ch : Fin 16)
  /-- GET_INFO (R145): The query returns identity, firmware version, role, twin state and protocol version. -/
  | getInfo (t : Nat) (ch : Fin 16)
  /-- GET_EPOCH (R145): The query returns the current epochs, boundary times and lock state of both timing planes. -/
  | getEpoch (t : Nat) (ch : Fin 16)
  /-- RESTART_FW (R146): The request answers OK and then performs an FWR. -/
  | restartFw (t : Nat) (ch : Fin 16)
  /-- DEVICE_RESET (R146): The request answers OK and then performs a PIN reset; it is refused on an active twin. -/
  | deviceReset (t : Nat) (ch : Fin 16)
  /-- SET_ROLE (R148): The request journals a pending role and updates TOP_ROLE.PENDING_ROLE and PENDING. -/
  | setRole (t : Nat) (ch : Fin 16)
  /-- CANCEL (R147): The request withdraws all or none of the still-pending changes of an earlier PENDING request and restores the journal. -/
  | cancel (t : Nat) (ch : Fin 16)
  /-- CLEAR_STICKY (R149): The request writes W1C masks to the named registers in entry order and returns the values read after each clear. -/
  | clearSticky (t : Nat) (ch : Fin 16)
  /-- LANE_RESET (R150): The request performs an LNR of one SDI, fabric, twin or network lane direction. -/
  | laneReset (t : Nat) (ch : Fin 16)
  /-- PEER_RELAY_TIMEOUT (R143): A TARGET_PEER request that the peer does not answer within 10 ms is refused with NO_RESOURCE. -/
  | peerRelayTimeout (t : Nat) (ch : Fin 16)
  /-- JOURNAL_HOLD_TIMEOUT (R90): A request waiting on held MRAM writes for 100 ms is refused with NO_RESOURCE. -/
  | journalHoldTimeout (t : Nat) (ch : Fin 16)
  /-- PWR_GET_STATUS (R113): The query returns the PWR status, monitor and domain registers. -/
  | pwrGetStatus (t : Nat) (ch : Fin 16)
  /-- PWR_SET_DOMAIN (R114): The request validates the entries and writes the requested power state of each named domain in entry order. -/
  | pwrSetDomain (t : Nat) (ch : Fin 16)
  /-- PWR_SET_DOMAIN_DONE (R114): Once every named domain reads CUR equal to its request, the part writes the response OK. -/
  | pwrSetDomainDone (t : Nat) (ch : Fin 16)
  /-- PWR_SET_MON (R115): The request sets the warning and reset levels of the named supply monitors. -/
  | pwrSetMon (t : Nat) (ch : Fin 16)
  /-- PWR_ENTER_QUIET (R116): The request answers OK and then enters QUIET. -/
  | pwrEnterQuiet (t : Nat) (ch : Fin 16)
  /-- REF_GET_STATUS (R464): The query returns the candidate, plane and oscillator registers of the reference selector. -/
  | refGetStatus (t : Nat) (ch : Fin 16)
  /-- REF_SET_CANDIDATE (R464): The request sets the kind, limits, ranks and phase compensation of one candidate. -/
  | refSetCandidate (t : Nat) (ch : Fin 16)
  /-- REF_SET_PLANE (R463): The request sets a plane's format, revertive mode, WTR and limits, or asks for a REPHASE or an LO recalibration. -/
  | refSetPlane (t : Nat) (ch : Fin 16)
  /-- PTP_GET_STATUS (R441): The query returns the servo, offset, configuration and port record state. -/
  | ptpGetStatus (t : Nat) (ch : Fin 16)
  /-- PTP_GET_RECORDS (R442): The query returns recent timestamp entries from the firmware's copy of removed record entries. -/
  | ptpGetRecords (t : Nat) (ch : Fin 16)
  /-- PTP_SET_PORT (R440): The request sets the PTP profile settings of a port and may request a relock. -/
  | ptpSetPort (t : Nat) (ch : Fin 16)
  /-- XPT_GET_ROUTES (R193): The query returns destination states and the pending route entries in epoch order. -/
  | xptGetRoutes (t : Nat) (ch : Fin 16)
  /-- XPT_GET_BUDGET (R190): The query returns the admitted load and capacity of the crosspoint, DRAM and tile budgets. -/
  | xptGetBudget (t : Nat) (ch : Fin 16)
  /-- XPT_TAKE (R173): The request admits and queues route entries on one timing plane for an epoch. -/
  | xptTake (t : Nat) (ch : Fin 16)
  /-- XPT_SALVO (R174): The request admits and queues route entries on either or both planes, with one epoch per plane. -/
  | xptSalvo (t : Nat) (ch : Fin 16)
  /-- XPT_SET_DEST (R187): The request sets the plane, loss action, slate, field take and audio fade of destinations for an epoch. -/
  | xptSetDest (t : Nat) (ch : Fin 16)
  /-- XPT_SET_GEN (R182): The request sets a generator's pattern, format, plane and enable for an epoch. -/
  | xptSetGen (t : Nat) (ch : Fin 16)
  /-- FSY_GET_STATUS (R219): The query returns the aligner status, offset, delay and counts of a range of sources. -/
  | fsyGetStatus (t : Nat) (ch : Fin 16)
  /-- FSY_SET_SOURCE (R218): The request sets the plane, frame-synchroniser permission and configured format of sources. -/
  | fsySetSource (t : Nat) (ch : Fin 16)
  /-- LBS_GET_STATUS (R243): The query returns the state of record or playback channels and the carafe space. -/
  | lbsGetStatus (t : Nat) (ch : Fin 16)
  /-- LBS_SET_RECORD (R230): The request enables or disables record channels with their carafe format and region for an epoch. -/
  | lbsSetRecord (t : Nat) (ch : Fin 16)
  /-- LBS_SET_PLAYBACK (R233): The request enables, disables or jumps playback channels for an epoch. -/
  | lbsSetPlayback (t : Nat) (ch : Fin 16)
  /-- DMC_GET_STATUS (R275): The query returns the memory controller status and per-channel registers. -/
  | dmcGetStatus (t : Nat) (ch : Fin 16)
  /-- DMC_SET_CHANNEL (R271): The request enables a channel, which starts its training, or disables it, and may set DMC_CFG. -/
  | dmcSetChannel (t : Nat) (ch : Fin 16)
  /-- SDI_GET_STATUS (R299): The query returns the status of a range of SDI lanes. -/
  | sdiGetStatus (t : Nat) (ch : Fin 16)
  /-- SDI_SET_RX (R297): The request sets the rate class, bonding and carrier gate of receive lanes. -/
  | sdiSetRx (t : Nat) (ch : Fin 16)
  /-- SDI_SET_TX (R297): The request sets the bonding, mute, amplitude and payload ID mode of transmit lanes. -/
  | sdiSetTx (t : Nat) (ch : Fin 16)
  /-- FAB_GET_STATUS (R365): The query returns lane, link, slot or merge status. -/
  | fabGetStatus (t : Nat) (ch : Fin 16)
  /-- FAB_SET_LINK (R363): The request sets the device identity, the spine plane, the link membership and widths, and the lane settings. -/
  | fabSetLink (t : Nat) (ch : Fin 16)
  /-- FAB_SET_SLOTS (R354): The request stores slot enables, rate classes and priorities in the shadow for an epoch. -/
  | fabSetSlots (t : Nat) (ch : Fin 16)
  /-- FAB_LOOPBACK (R327): The request sets the loopback mode and test patterns of a fabric lane, or ends the test. -/
  | fabLoopback (t : Nat) (ch : Fin 16)
  /-- NET_GET_STATS (R391): The query returns the port status, the gate list state and the statistics counters. -/
  | netGetStats (t : Nat) (ch : Fin 16)
  /-- NET_SET_PORT (R389): The request sets the PMD, auto-negotiation, classes, MAXLEN, unicast address and standby of a port. -/
  | netSetPort (t : Nat) (ch : Fin 16)
  /-- NET_SET_GCL (R383): The request computes the start instant S and loads a gate control list into the shadow as pending. -/
  | netSetGcl (t : Nat) (ch : Fin 16)
  /-- FLOW_GET_STATUS (R420): The query returns receive flow, sender or anchor state. -/
  | flowGetStatus (t : Nat) (ch : Fin 16)
  /-- FLOW_JOIN (R415): The request joins a receive flow on one or two legs. -/
  | flowJoin (t : Nat) (ch : Fin 16)
  /-- FLOW_LEAVE (R417): The request leaves a receive flow. -/
  | flowLeave (t : Nat) (ch : Fin 16)
  /-- FLOW_SET_SENDER (R418): The request sets, enables or disables transmit flows for an epoch. -/
  | flowSetSender (t : Nat) (ch : Fin 16)
  /-- AUD_GET_STATUS (R495): The query returns the audio summary, mix outputs, coefficients or shuffle entries. -/
  | audGetStatus (t : Nat) (ch : Fin 16)
  /-- AUD_SET_SHUFFLE (R491): The request sets shuffle entries and embed modes for per-plane epochs. -/
  | audSetShuffle (t : Nat) (ch : Fin 16)
  /-- AUD_SET_GAINS (R492): The request sets mix coefficients with a ramp for an epoch. -/
  | audSetGains (t : Nat) (ch : Fin 16)
  /-- AUD_SET_LIMITER (R493): The request sets input filters, limiter settings or the engine plane for an epoch. -/
  | audSetLimiter (t : Nat) (ch : Fin 16)
  /-- SAP_GET_STATUS (R515): The query returns the serial audio port configuration, state and counters. -/
  | sapGetStatus (t : Nat) (ch : Fin 16)
  /-- SAP_SET_PORT (R513): The request sets the port formats, clocking, groups, group latencies and MCLK, restarting changed ports at the next block. -/
  | sapSetPort (t : Nat) (ch : Fin 16)
  /-- MVC_GET_STATUS (R541): The query returns head, layer or tap state. -/
  | mvcGetStatus (t : Nat) (ch : Fin 16)
  /-- MVC_SET_HEAD (R539): The request enables or disables heads and sets their format, plane and graphic layers. -/
  | mvcSetHead (t : Nat) (ch : Fin 16)
  /-- MVC_SET_LAYERS (R540): The request sets video layers, taps, graphic layers and colours for an epoch. -/
  | mvcSetLayers (t : Nat) (ch : Fin 16)
  /-- MVC_LOAD_GRAPHIC (R533): The request starts writing a back-buffer rectangle from a bulk descriptor and sets LOADING. -/
  | mvcLoadGraphic (t : Nat) (ch : Fin 16)
  /-- GRAPHIC_LOAD_DONE (R533): At the end of a graphic load, once forwarded, the part writes the fence, clears LOADING and answers OK. -/
  | graphicLoadDone (t : Nat) (head : Fin 4) (layer : Fin 4) (data : Option (List Nat))
  /-- MVC_FLIP (R534): The request queues flips of layers or flip groups for an epoch with required fences. -/
  | mvcFlip (t : Nat) (ch : Fin 16)
  /-- TWN_GET_STATUS (R584): The query returns the twin registers or the Crema history of a plane. -/
  | twnGetStatus (t : Nat) (ch : Fin 16)
  /-- TWN_HANDOVER (R582): The request commits a handover to the in-step standby at the next eligible TP0 instant. -/
  | twnHandover (t : Nat) (ch : Fin 16)
  /-- TWN_SET_POLICY (R583): The request sets the twin enable, the brown-out policy and the twin lane settings. -/
  | twnSetPolicy (t : Nat) (ch : Fin 16)
  /-- BUS_GET_STATUS (R605): The query returns the bus matrix status and the per-master counters. -/
  | busGetStatus (t : Nat) (ch : Fin 16)
  /-- BUS_SET_APERTURE (R605): The request turns the Weagor configuration aperture on or off. -/
  | busSetAperture (t : Nat) (ch : Fin 16)
  /-- UPD_GET_STATUS (R635): The query returns the update, bank, boot and rollback state. -/
  | updGetStatus (t : Nat) (ch : Fin 16)
  /-- SEC_ATTEST (R631): The query returns a signed attestation report for a nonce, or the identity certificate. -/
  | secAttest (t : Nat) (ch : Fin 16)
  /-- UPD_DOWNLOAD (R621): The request erases the inactive bank if FIRST is set and writes a region of it from a bulk descriptor. -/
  | updDownload (t : Nat) (ch : Fin 16)
  /-- UPD_VERIFY (R622): The request checks the inactive bank and sets VERIFIED, or refuses with a reason. -/
  | updVerify (t : Nat) (ch : Fin 16)
  /-- UPD_ACTIVATE (R623): The request writes a TRIAL update record for the inactive bank, answers OK and performs an FWR. -/
  | updActivate (t : Nat) (ch : Fin 16)
  /-- UPD_CONFIRM (R625): The request writes the CONFIRMED record, raises the rollback counters and answers OK. -/
  | updConfirm (t : Nat) (ch : Fin 16)
  /-- RESET_N_LOW (R66): RESET_N sampled low at 8 consecutive AONCLK edges starts a PIN reset, or ends QUIET with a PIN reset. -/
  | resetNLow (t : Nat)
  /-- PORST_N_LOW (R66): PORST_N sampled low at 8 consecutive AONCLK edges starts a POR. -/
  | porstNLow (t : Nat)
  /-- RAIL_BELOW_RESET (R86): A rail below its reset level for 1 us starts a POR and records the rail in PWR_POR_SOURCE. -/
  | railBelowReset (t : Nat) (rail : Fin 8)
  /-- FIRST_POWER_UP (R107): A first power-up, or a return of VDD_AON, performs a POR with PWR_POR_SOURCE.COLD set. -/
  | firstPowerUp (t : Nat)
  /-- RESET_RELEASE (R80): At the later release of PORST_N and RESET_N, the part leaves reset and starts the PLLs and the boot ROM. -/
  | resetRelease (t : Nat)
  /-- STRAP_SAMPLE (R58): Sixteen AONCLK cycles after reset release, the part samples STRAP[0..7] into TOP_STRAP. -/
  | strapSample (t : Nat) (straps : BitVec 8)
  /-- WATCHDOG_EXPIRY (R108): A control-core watchdog left unserviced for 1 s starts a WDT. -/
  | watchdogExpiry (t : Nat)
  /-- BOOT_ROM_RUN (R612): After every FWR, WDT, PIN reset and POR, the boot ROM locks the firewall, checks the identity, chooses and checks the bank and starts the firmware. -/
  | bootRomRun (t : Nat) (idOk : Bool) (b0 b1 : Option Machine.Package)
  /-- FW_READY (R109): The restarted control firmware sets FW_READY, posts FW_STARTED, completes requests that stood, raises rollback counters and serves held doorbells. -/
  | fwReady (t : Nat) (conv : Bool)
  /-- CONFIGURATION_LOAD (R83): After DIMM training the firmware applies the journaled settings valid in the running role and sets the power domains. -/
  | configurationLoad (t : Nat)
  /-- MRAM_REFRESH_REWRITE (R78): The firmware rewrites every live MRAM record at least once every 365 days of powered time. -/
  | mramRefreshRewrite (t : Nat)
  /-- RAIL_BELOW_WARNING (R87): A rail below its warning level for 2 us sets BOD_WARN and MRAM_HOLD, counts the event and may start a handover. -/
  | railBelowWarning (t : Nat) (rail : Fin 8)
  /-- RAIL_ABOVE_WARNING (R86): A rail above its warning level plus 10 mV for 2 us is back above warning. -/
  | railAboveWarning (t : Nat) (rail : Fin 8)
  /-- MRAM_HOLD_RELEASE (R87): Once every rail has been above warning for 1 ms, MRAM_HOLD clears and held MRAM writes proceed. -/
  | mramHoldRelease (t : Nat)
  /-- MRAM_WRITE_DONE (R82): An MRAM word write in progress completes within 10 us. -/
  | mramWriteDone (t : Nat)
  /-- PWR_MON_CFG_WRITE (R93): A monitor-level write is applied, or ignored whole with MON_CFG_REJECT set if it breaks a limit. -/
  | pwrMonCfgWrite (t : Nat) (rail : Fin 8) (value : Word)
  /-- DOMAIN_REQ_WRITE (R103): A PWR_DOM_CTL.REQ write starts a state transition, is held while BUSY, or is ignored with DOM_ILLEGAL set. -/
  | domainReqWrite (t : Nat) (dom : Fin 248) (req : Fin 4)
  /-- DOMAIN_TRANSITION_DONE (R95): A domain reaches its requested state; CUR is updated and BUSY clears. -/
  | domainTransitionDone (t : Nat) (dom : Fin 248)
  /-- NET_WAKE (R101): The wake-pattern detector on NET_RX[4p] wakes a port in STANDBY and sets PWR_WAKE_CAUSE.NET_WAKE[p]. -/
  | netWake (t : Nat) (port : Fin 2)
  /-- ENTER (R104): A service-port write of PWR_QUIET_CTL.ENTER enters QUIET, or is ignored with QUIET_REFUSED set on an active twin. -/
  | enter (t : Nat)
  /-- WAKE (R106): A service-port write of PWR_QUIET_CTL.WAKE ends QUIET with a PIN reset. -/
  | wake (t : Nat)
  /-- THERMAL_READING (R76): Every 1 ms the part reads its temperature sensors and sets THERM_WARN or THERM_CRIT on reaching their levels. -/
  | thermalReading (t : Nat) (celsius : Int)
  /-- LO_IN_LOSS (R71): After 10 us without an LO_IN edge, AONCLK moves to the internal oscillator, holdover becomes unavailable and LO_MISSING is flagged. -/
  | loInLoss (t : Nat)
  /-- LO_IN_RETURN (R452): LO_IN returns, and monitor measurements and LO_CAL apply again from the next whole window. -/
  | loInReturn (t : Nat)
  /-- FAULT_SCAN_FRAME (R73): Every 100 us the part shifts in 144 fault-scan bits and acts on debounced output and carrier codes. -/
  | faultScanFrame (t : Nat) (scan : BitVec 144)
  /-- QUEUE_FAULT (R27): A real-time producer with no credit sets QUEUE_FAULT, counts it and repeats the last line until the next frame boundary. -/
  | queueFault (t : Nat) (dsts : List (Fin 384))
  /-- FRAME_BOUNDARY (R163): At a timing plane's frame boundary the take epoch counter increments and XPT_BOUNDARY_TIME is recorded. -/
  | frameBoundary (t : Nat) (plane : Fin 2)
  /-- SWITCHING_POINT (R168): At a destination's switching point, the accepted changes for the epoch take, and a loss action may begin or end. -/
  | switchingPoint (t : Nat) (dst : Fin 384) (field2 : Bool)
  /-- SOURCE_FRAME_ARRIVAL (R198): The aligner measures the offset of each source frame and detects its format, promoting the source if needed. -/
  | sourceFrameArrival (t : Nat) (src : Fin 332) (f : FrameIn)
  /-- SRC_DEMOTED (R205): After 64 consecutive frames inside the demotion window, a promoted source returns to the elastic stage. -/
  | srcDemoted (t : Nat) (src : Fin 332)
  /-- PRESENTATION_INSTANT (R202): At each presentation instant a source presents a frame, repeating or dropping frames when carried by a synchroniser. -/
  | presentationInstant (t : Nat) (src : Fin 332) (plane : Fin 2) (clean ue : Bool) (conceal : Nat)
  /-- SRC_INVALID (R213): A source becomes invalid on a cause or after 8 consecutive invalid lines, and its destinations start their loss actions. -/
  | srcInvalid (t : Nat) (src : Fin 332)
  /-- SRC_VALID (R213): After two complete matching frames, the source becomes valid at the next presentation instant. -/
  | srcValid (t : Nat) (src : Fin 332)
  /-- INVALID_LINE (R213): A structurally broken line is marked invalid and replaced by the co-sited loss-action line. -/
  | invalidLine (t : Nat) (src : Fin 332) (run : Bool)
  /-- PB_PAUSE_EXPIRED (R235): A PAUSE whose delay would exceed N - 1 changes to DELAY mode and posts PB_PAUSE_EXPIRED. -/
  | pbPauseExpired (t : Nat) (pb : Fin 48)
  /-- STORE_HALTED (R239): After a channel failure the store halts every channel at the next frame boundary, marks slots EMPTY and posts STORE_HALTED. -/
  | storeHalted (t : Nat) (plane : Fin 2)
  /-- CHANNEL_TRAINING (R255): The firmware trains an enabled memory channel through SPD read, calibration and delay training. -/
  | channelTraining (t : Nat) (chan : Fin 8) (dimm : Option Dimm)
  /-- CHANNEL_READY (R255): A channel whose training passes becomes ACTIVE with refresh running, and CHANNEL_READY is posted. -/
  | channelReady (t : Nat) (chan : Fin 8) (rd wr : List (BitVec 14))
  /-- TRAIN_FAILED (R256): A channel with no passing setting becomes DISABLED with its domain OFF, and TRAIN_FAILED is posted. -/
  | trainFailed (t : Nat) (chan : Fin 8)
  /-- REFRESH_BOUNDARY (R260): Every 32 ms each rank takes an all-bank refresh, reads DRAM mode register 4 and applies a due Percolator step. -/
  | refreshBoundary (t : Nat) (chan : Fin 8) (rank : Fin 2) (mr4 : Option Bool)
  /-- PERCOLATOR_SWEEP (R266): At least every 8 s per rank, the Percolator sweeps trial read delays and records the pass range. -/
  | percolatorSweep (t : Nat) (chan : Fin 8) (rank : Fin 2) (results : List (BitVec 33))
  /-- DRAM_READ_ECC (R261): A DRAM burst read corrects a single-device error or delivers an uncorrectable error poisoned, counting and capturing it. -/
  | dramReadEcc (t : Nat) (pa : BitVec 41) (dev : Option (Fin 10))
  /-- PATROL_SCRUB (R263): The patrol scrub reads bursts in unreserved positions and writes back corrected data. -/
  | patrolScrub (t : Nat) (chan : Fin 8) (found : Option (Option (Fin 10)))
  /-- PARITY_ALERT (R268): MC_ALERT_N reporting a command parity error is counted, and the commands are replayed up to three times. -/
  | parityAlert (t : Nat) (chan : Fin 8) (inReplay : Bool)
  /-- CHANNEL_FAILED (R270): A channel failing under R269 enters FAILED, poisons reads, discards writes and drops the DRAM budget to 0. -/
  | channelFailed (t : Nat) (chan : Fin 8)
  /-- HUNT_TRIAL_END (R281): An SDI receive trial that does not lock ends at 0.5 ms, or after TRS loss, and the next rate class is tried. -/
  | huntTrialEnd (t : Nat) (lane : Fin 48)
  /-- RX_LOCK (R281): A lane in CDR lock that receives 64 consecutive correct TRS sequences becomes LOCKED and posts RX_LOCK. -/
  | rxLock (t : Nat) (lane : Fin 48) (rate : Fin 10) (levelB : Bool)
  /-- RX_LOS (R282): A LOCKED lane losing CDR lock, TRS or gated carrier returns to HUNT and posts RX_LOS. -/
  | rxLos (t : Nat) (lane : Fin 48)
  /-- CDR_MARGIN_CHECK (R284): Every 1 s the Percolator reads each locked lane's CDR margin and sets CDR_MARGIN_LOW below 0.15 UI. -/
  | cdrMarginCheck (t : Nat) (low : BitVec 48)
  /-- SDI_LINE_CHECK (R285): Each received line or SD field is checked for CRC or EDH errors, which are counted. -/
  | sdiLineCheck (t : Nat) (lane : Fin 48) (error noEdh : Bool)
  /-- ANCILLARY_CAPTURE (R288): Each received frame's ST 352 payload ID and time code are captured into the lane registers. -/
  | ancillaryCapture (t : Nat) (lane : Fin 48) (pid : Option Word) (tcKind : Fin 3) (tc : Word) (badGroups : BitVec 8)
  /-- FAB_SIGNAL_LOST (R312): A fabric lane below 60 mV for 10 us goes to NO_SIGNAL and abandons its step. -/
  | fabSignalLost (t : Nat) (lane : Fin 50)
  /-- FAB_SIGNAL_PRESENT (R312): A lane in NO_SIGNAL with a signal present for 10 us starts training. -/
  | fabSignalPresent (t : Nat) (lane : Fin 50)
  /-- VERIFY_DONE (R314): Verification of the accepted setting ends, making the lane TRAINED or starting the sweep. -/
  | verifyDone (t : Nat) (lane : Fin 50) (cdr block crc polInv : Bool) (height : BitVec 8)
  /-- SWEEP_DONE (R315): The retrain sweep ends with an accepted setting and LANE_TRAINED, or with FAILED. -/
  | sweepDone (t : Nat) (lane : Fin 50) (heights : List (BitVec 8)) (clean : List Bool) (polInv : Bool)
  /-- LANE_RETRY (R318): After RETRY_S seconds in FAILED, the lane retries a full training. -/
  | laneRetry (t : Nat) (lane : Fin 50)
  /-- LANE_LOCK_LOST (R311): A TRAINED lane losing CDR or block lock posts LANE_LOCK_LOST and starts an LNR and training. -/
  | laneLockLost (t : Nat) (lane : Fin 50)
  /-- PERCOLATOR_VISIT (R319): At least every 2 s the Percolator measures a lane's eye and its PEAK neighbours on the shadow path. -/
  | percolatorVisit (t : Nat) (lane : Fin 50) (height width below above : BitVec 8) (belowCrc aboveCrc : Bool)
  /-- PERCOLATOR_STEP (R320): In the middle of the next alignment marker, the main path moves to the chosen neighbouring PEAK. -/
  | percolatorStep (t : Nat) (lane : Fin 50)
  /-- PERC_POST_ERR (R321): A CRC error within 2^20 blocks after a step sets PERC_POST_ERR and stops re-trimming. -/
  | percPostErr (t : Nat) (lane : Fin 50)
  /-- CHECKER_LOCK (R329): The test pattern checker locks after 1,024 error-free bits, or loses lock on more than 512 errors in 1,024 bits. -/
  | checkerLock (t : Nat) (lane : Fin 48) (locked : Bool) (errs units : Nat)
  /-- LANE_DOZE_WAKE (R332): A receive direction leaving DOZE returns to its previous state 2 us later, or trains if lock was lost. -/
  | laneDozeWake (t : Nat) (lane : Fin 50) (lostLock : Bool)
  /-- DATA_BLOCK (R337): A received data block is delivered to its slot, or discarded whole and counted on a CRC mismatch. -/
  | dataBlock (t : Nat) (lane : Fin 50) (block : BitVec 640)
  /-- ALIGNMENT_MARKER (R346): A received alignment marker is checked for identity and skew and aligns the lanes of the link. -/
  | alignmentMarker (t : Nat) (lane : Fin 50) (block : BitVec 640)
  /-- STATUS_BLOCK (R342): A received status block updates the partner RX_UP that drives forming and reforming. -/
  | statusBlock (t : Nat) (lane : Fin 50) (block : BitVec 640)
  /-- LINK_FORM_TIMEOUT (R348): Two ms after the first lane was reported usable, the transmitter forms the link at the width available. -/
  | linkFormTimeout (t : Nat) (link : Fin 48)
  /-- LANE_UNUSABLE (R350): A receive lane in use that stops being usable puts the direction into REFORMING within 1 us. -/
  | laneUnusable (t : Nat) (lane : Fin 48)
  /-- REFORM_MARKER (R350): A received reform marker returns the direction to up on the new lane set and posts LINK_REFORMED. -/
  | reformMarker (t : Nat) (lane : Fin 50) (block : BitVec 640)
  /-- LINK_WIDEN (R352): After a spare lane has been usable for 100 ms, the transmitter widens the link with a reform marker. -/
  | linkWiden (t : Nat) (link : Fin 48)
  /-- SLOT_MASK_COPY (R355): At the plane switching point of the epoch, the slot shadow is copied to FAB_SLOT_CTL. -/
  | slotMaskCopy (t : Nat) (plane : Fin 2)
  /-- MERGE_LINE (R357): At each line release the merge supplies the first correct plane copy, or marks the line invalid. -/
  | mergeLine (t : Nat) (slot : Fin 96) (aOk bOk differ run : Bool)
  /-- TRAINING_TIMEOUT (R370): A network training attempt exceeding its Clause timers restarts from AN or TRAINING. -/
  | trainingTimeout (t : Nat) (port : Fin 2)
  /-- NET_LINK_UP (R371): A port entering UP sets LINK_UP_SEEN and posts LINK_UP. -/
  | netLinkUp (t : Nat) (port : Fin 2) (remoteFault : Bool)
  /-- NET_LINK_DOWN (R371): A port leaving UP on signal, alignment, remote fault or command posts LINK_DOWN with the cause. -/
  | netLinkDown (t : Nat) (port : Fin 2) (cause : Fin 3) (lock : BitVec 4)
  /-- FRAME_RECEIVED (R373): A received Ethernet frame is checked in order and counted in exactly one receive counter, delivered or dropped. -/
  | frameReceived (t : Nat) (port : Fin 2) (f : NetFrame)
  /-- FRAME_TRANSMIT (R381): A frame at the head of an open class queue starts only if it ends before its gate closes. -/
  | frameTransmit (t : Nat) (port : Fin 2) (heads : List (Fin 8 × Nat)) (cut : Bool)
  /-- GCL_ENTRY_BOUNDARY (R380): At each gate control list entry boundary, the gates of the next entry take effect. -/
  | gclEntryBoundary (t : Nat) (port : Fin 2)
  /-- GCL_TAKEN (R385): At start instant S, the pending gate list replaces the running list and GCL_TAKEN is posted. -/
  | gclTaken (t : Nat) (port : Fin 2)
  /-- ANCHOR_SET (R403): After plane and PTP lock, the firmware sets a plane's RTP anchor at a frame boundary. -/
  | anchorSet (t : Nat) (plane : Fin 2)
  /-- MEDIA_PACKET_RECEIVED (R406): A received video or ancillary packet is mapped by RTP timestamp and written to the playout buffer, or dropped as late, early, duplicate or off grid. -/
  | mediaPacketReceived (t : Nat) (flow : Fin 112) (leg : Fin 2) (p : MediaPacket)
  /-- AUDIO_PACKET_RECEIVED (R408): A received audio packet is buffered for its sample index, or dropped as early. -/
  | audioPacketReceived (t : Nat) (flow : Fin 112) (leg : Fin 2) (p : AudioPacket)
  /-- AUDIO_PACKET_LATE (R408): An audio packet missing when its engine block starts is dropped and its samples are silence. -/
  | audioPacketLate (t : Nat) (flow : Fin 112) (seq : Nat)
  /-- LEG_LOST (R410): A leg with no packet for 10 ms is down, and LEG_LOST is posted. -/
  | legLost (t : Nat) (flow : Fin 112) (leg : Fin 2)
  /-- LEG_RESTORED (R410): A down leg is up again at its next packet, and LEG_RESTORED is posted. -/
  | legRestored (t : Nat) (flow : Fin 112) (leg : Fin 2)
  /-- PACKET_RELEASE (R412): A sender packet is released at its narrow-linear slot, or late when a gate is closed. -/
  | packetRelease (t : Nat) (sender : Fin 112) (leg : Fin 2) (slot : Nat)
  /-- ANCILLARY_FIELD_SEND (R402): One line after a field's last line, its ancillary packets leave, and overflow is counted. -/
  | ancillaryFieldSend (t : Nat) (sender : Fin 112) (sizes : List Nat)
  /-- SYNC_RECEIVED (R438): A Sync arrival is stamped and recorded in the receive event FIFO, or dropped on overflow. -/
  | syncReceived (t : Nat) (port : Fin 2) (seq : BitVec 16) (domain : BitVec 8) (id : BitVec 64) (num : BitVec 16) (err : Fin 9)
  /-- DELAY_REQ_SENT (R437): A Delay_Req departure gets its originTimestamp inserted and is recorded, unless recording is stopped. -/
  | delayReqSent (t : Nat) (port : Fin 2) (seq : BitVec 16) (err : Fin 9)
  /-- RXQ_POP (R438): A write of PTP_REC_CTL.RXQ_POP removes the head receive entry. -/
  | rxqPop (t : Nat) (port : Fin 2)
  /-- TXR_POP (R438): A write of PTP_REC_CTL.TXR_POP removes the head departure entry and may resume recording. -/
  | txrPop (t : Nat) (port : Fin 2)
  /-- SERVO_SAMPLE (R432): The servo processes a Sync sample: a first step, an acquire or lock decision, a refused jump or a relock step. -/
  | servoSample (t : Nat) (port : Fin 2) (offset filtered freq : Int) (mpd : Nat)
  /-- ANNOUNCE_RECEIVED (R433): A qualified Announce feeds the best master comparison and master selection. -/
  | announceReceived (t : Nat) (port : Fin 2) (domain : BitVec 8) (id : BitVec 64) (rank : Nat)
  /-- PREF_PORT_REVERT (R433): After the preferred port's master has been qualified and as good for 10 s, it is selected again. -/
  | prefPortRevert (t : Nat)
  /-- ANNOUNCE_TIMEOUT (R434): An expired announce receipt timeout loses the master, moving to the other port or to HOLDOVER. -/
  | announceTimeout (t : Nat) (port : Fin 2)
  /-- MONITOR_WINDOW_END (R450): At each 1 s window end, candidates are qualified or disqualified and planes select. -/
  | monitorWindowEnd (t : Nat) (meas : List RefMeas) (lo : Int)
  /-- CANDIDATE_INACTIVE (R449): A candidate becomes INACTIVE as MISSING or NOISY the instant its condition is met. -/
  | candidateInactive (t : Nat) (cand : Fin 5) (noisy : Bool) (meas : List RefMeas)
  /-- WTR_EXPIRY (R455): A better-ranked candidate QUALIFIED for WTR seconds makes a revertive plane switch to it. -/
  | wtrExpiry (t : Nat) (plane : Fin 2) (meas : List RefMeas)
  /-- PULLIN_DONE (R458): A plane within 0.01 ppm of its candidate enters LOCKED and posts PLANE_LOCKED. -/
  | pullinDone (t : Nat) (plane : Fin 2)
  /-- START_TIMEOUT (R454): A plane with no qualified candidate 12 s after entering START enters FREERUN. -/
  | startTimeout (t : Nat) (plane : Fin 2) (delay : Nat)
  /-- REF_PHASE_HIT (R459): Three consecutive displaced edges are absorbed into BUILDOUT and REF_PHASE_HIT is posted. -/
  | refPhaseHit (t : Nat) (cand : Fin 5)
  /-- REFERENCE_EDGE (R459): A reference edge is followed, held as a possible phase step, or released as spurious. -/
  | referenceEdge (t : Nat) (cand : Fin 5) (displaced : Int) (meas : List RefMeas)
  /-- LO_CALIBRATED (R451): LO_CAL is learned from PTP or the best-ranked reference, and LO_CALIBRATED is posted. -/
  | loCalibrated (t : Nat) (lo : Int)
  /-- AUDIO_BLOCK (R470): The engine processes a block of 48 samples through shuffle, filters, mix, limiter and bridge. -/
  | audioBlock (t : Nat) (b : AudioBlock)
  /-- PORT_LOCKED (R505): A slave or lead port after 64 good frames becomes LOCKED and posts PORT_LOCKED. -/
  | portLocked (t : Nat) (port : Fin 16) (rate : Int)
  /-- PORT_UNLOCKED (R505): A port with missing WS, framing errors or rate out of range leaves LOCKED. -/
  | portUnlocked (t : Nat) (port : Fin 16) (cause : Fin 3)
  /-- SLIPPED (R510): A buffer underrun or overrun repeats or discards a sample and enters SLIPPED. -/
  | slipped (t : Nat) (port : Fin 16) (kind : Fin 4)
  /-- REJOINED (R511): A SLIPPED port whose head stamp equals its target returns to RUNNING and posts REJOINED. -/
  | rejoined (t : Nat) (port : Fin 16)
  /-- HEAD_FRAME_DECISION (R527): At the frame boundary that begins a head frame, tap frames, late layers and flips are decided and forwarded. -/
  | headFrameDecision (t : Nat) (head : Fin 4)
  /-- AUTO_FLIP (R535): An AUTO_FLIP layer flips at the first head frame after its load ends. -/
  | autoFlip (t : Nat) (head : Fin 4) (layer : Fin 4)
  /-- LAYER_SLATED (R538): After LOSS_TIMEOUT head frames without a clean tap frame, the layer shows the slate colour. -/
  | layerSlated (t : Nat) (head : Fin 4) (layer : Fin 16)
  /-- TWIN_MODE_DECISION (R550): After configuration load and TP0 leaving START, a twin part becomes standby or active. -/
  | twinModeDecision (t : Nat) (peerIn : Bool)
  /-- UNIT1_WAIT_EXPIRY (R550): Unit 1 that still has no active peer after 2 s becomes active. -/
  | unit1WaitExpiry (t : Nat) (peerIn : Bool)
  /-- PEER_IN_CONFLICT (R551): TWN_PEER_IN high for 1 us while driving TWN_ACTIVE_OUT makes unit 1 drop to standby. -/
  | peerInConflict (t : Nat) 
  /-- HELLO (R554): A received HELLO reports the peer's role, unit, mode, phase and versions. -/
  | hello (t : Nat) (mseq : Nat) (role : BitVec 2) (unit : BitVec 1) (mode : BitVec 2) (phase : BitVec 3) (version : BitVec 8) (schema : Nat)
  /-- HELLO_SEND (R554): Every 1 ms each twin part sends HELLO. -/
  | helloSend (t : Nat) (peerIn : Bool)
  /-- COMMAND (R556): The standby executes a forwarded change in FWD_SEQ order, journals it and sends ACK. -/
  | command (t : Nat) (mseq : Nat) (m : Machine.TwinCommand)
  /-- ACK (R557): An ACK received by the active lets it write the response of the forwarded change. -/
  | ack (t : Nat) (mseq : Nat) (fwdSeq : Option Nat)
  /-- ACK_TIMEOUT (R557): No ACK within 2 ms puts the standby out of step as NO_ACK, and the response is written anyway. -/
  | ackTimeout (t : Nat) (fwdSeq : Nat)
  /-- DECISION (R554): The standby applies forwarded synchroniser, reference, bridge and head decisions. -/
  | decision (t : Nat) (mseq : Nat) (d : Machine.TwinDecision)
  /-- MASK (R564): A received MASK gives the destinations masked in the Crema word of a plane and epoch. -/
  | mask (t : Nat) (mseq : Nat) (plane : Fin 2) (epoch : Nat) (mask : List Nat)
  /-- CREMA_COMPUTE (R562): After a plane's windows close, a part computes its Crema word and sends CREMA. -/
  | cremaCompute (t : Nat) (plane : Fin 2) (crcs : List (Nat × Nat))
  /-- CREMA (R562): A received peer Crema word is compared with the own word, updating MATCH_RUN or starting divergence handling. -/
  | crema (t : Nat) (mseq : Nat) (plane : Fin 2) (epoch : Nat) (word : List Nat)
  /-- CREMA_MISSING (R562): A peer Crema word or mask not arrived 2 ms after the own was sent makes the epoch MISSING. -/
  | cremaMissing (t : Nat) (plane : Fin 2) (epoch : Nat)
  /-- CRC_LIST (R563): Received destination CRCs find the diverging set for classification. -/
  | crcList (t : Nat) (mseq : Nat) (plane : Fin 2) (epoch : Nat) (crcs : List (Nat × Nat))
  /-- EVIDENCE (R567): Received evidence records let each part classify the divergence and act by class. -/
  | evidence (t : Nat) (mseq : Nat) (plane : Fin 2) (epoch : Nat) (recs : List Machine.Evid) (diag : Nat)
  /-- MESSAGE_GAP (R553): A message sequence missing 1 ms after a later one puts the receiver out of step as GAP. -/
  | messageGap (t : Nat) (stream : Fin 3)
  /-- NO_MATCH_RESYNC (R569): After 64 epochs without a match on one plane, the standby sends RESYNC. -/
  | noMatchResync (t : Nat) (plane : Fin 2)
  /-- TWN_SELF_FAULT (R570): Self-diagnosis setting a fatal bit sets SELF_FAULT, posts TWN_SELF_FAULT and may relinquish. -/
  | twnSelfFault (t : Nat) (bit : Fin 5)
  /-- TWN_PEER_LOST (R555): TWN_PEER_IN low for 10 us after being high loses the peer, leading to handover or cold takeover. -/
  | twnPeerLost (t : Nat)
  /-- TWIN_LINK_LOST (R555): A standby with no correct twin block for 10 ms sets LINK_LOST and leaves step. -/
  | twinLinkLost (t : Nat)
  /-- HANDOVER (R572): A received HANDOVER message commits the standby to the handover at epoch H and is acknowledged. -/
  | handover (t : Nat) (mseq : Nat) (epoch : Nat) (cause : Nat)
  /-- HANDOVER_INSTANT (R571): At the TP0 handover instant the old active drops and the new active raises TWN_ACTIVE_OUT. -/
  | handoverInstant (t : Nat)
  /-- RESYNC (R574): A received RESYNC starts a state copy: carafe slots are marked EMPTY and MATCH_RUN is cleared. -/
  | resync (t : Nat) (mseq : Nat) (cause : Nat)
  /-- STATE (R575): The standby applies a received state copy segment of configuration, graphics or audio. -/
  | state (t : Nat) (mseq : Nat) (seg : Machine.TwinSegment)
  /-- SYNC_CONFIG_DONE (R575): At the end of SYNC_CONFIG the standby commits its staged journal and applies the image at the next boundary. -/
  | syncConfigDone (t : Nat) (conv : Bool)
  /-- SYNC_AUDIO_DONE (R576): The standby has recomputed audio from the captured state to the present sample. -/
  | syncAudioDone (t : Nat)
  /-- COLD_TAKEOVER (R578): A standby not in step when its peer is lost loads its journal and raises TWN_ACTIVE_OUT. -/
  | coldTakeover (t : Nat)
  /-- TWIN_RESTART_HOLD_EXPIRY (R580): A held change whose take epoch passes during a standby FWR or WDT puts the standby out of step as FW_RESTART. -/
  | twinRestartHoldExpiry (t : Nat)
  /-- BUS_ACCESS (R591): A bus access is checked against firewall, decode, target and lock and receives one response. -/
  | busAccess (t : Nat) (a : Machine.BusAcc)
  /-- BUS_TIMEOUT (R595): A transaction without response after 1 ms receives ERR_TIMEOUT and its master port is reset. -/
  | busTimeout (t : Nat) (m : Fin 10) (id : Fin 16)
  /-- LOCKED_SEQUENCE (R596): A locked read opens a sequence that blocks other masters until the closing write. -/
  | lockedSequence (t : Nat) (a : Machine.BusAcc)
  /-- BUS_LOCK_BREAK (R597): A lock held for 64 beats or 2 us is broken and its closing write gets ERR_LOCK. -/
  | busLockBreak (t : Nat) (target : Fin 2)
  /-- BUS_MASTER_ABORT (R598): A master port reset completes open bursts, releases locks and retires outstanding IDs. -/
  | busMasterAbort (t : Nat) (dma : Fin 2)
  /-- LOCKED (R592): A write of BUS_FW_LOCK.LOCKED locks the firewall and protection ranges until POR. -/
  | locked (t : Nat)
  /-- FREEZE (R601): A write of PMC_CTL.FREEZE stops or restarts all performance counters in one cycle. -/
  | freeze (t : Nat) (user freeze : Bool)
  /-- PMC_COUNTER_WRAP (R601): A performance counter that wraps sets its overflow bit and raises vector 31 if enabled. -/
  | pmcCounterWrap (t : Nat) (core : Fin 4) (k : Fin 9)
  /-- PMC_SAMPLE (R602): Precise sampling records one in PERIOD occurrences, or counts a lost sample when the buffer is full. -/
  | pmcSample (t : Nat) (core : Fin 4) (addr data : Word) (lat : Nat) (kind : Fin 3) (user err : Bool)
  /-- SMP_CLEAR (R602): A write of PMC_SMP_CTL.CLEAR empties the sample buffer and restarts recording. -/
  | smpClear (t : Nat) (core : Fin 4) (w : Word)
  /-- NME_TAG (R603): At each random tag time, an issuing micro-engine instruction is tagged and recorded, or counted lost. -/
  | nmeTag (t : Nat) (engine : Fin 16) (pc : BitVec 16) (lat wait : Nat) (flow : Option (Fin 112))
  /-- NME_CLEAR (R603): A write of PMC_NME_CTL.CLEAR empties the tag records. -/
  | nmeClear (t : Nat) (w : Word)
  /-- UPD_DOWNLOAD_DONE (R621): Erasing and writing the bank region end, and the download response is written. -/
  | updDownloadDone (t : Nat) (ch : Fin 16) (data : Option (List Nat))
  /-- UPD_VERIFY_DONE (R622): The bank checks end, setting VERIFIED and answering OK, or UPDATE_REFUSED with a reason. -/
  | updVerifyDone (t : Nat) (ch : Fin 16) (p : Machine.Package)
  /-- UPD_SELF_CHECK (R624): The trial firmware's self-checks end, passing and starting the health window or failing with an FWR. -/
  | updSelfCheck (t : Nat)
  /-- SELF_CHECK_TIMEOUT (R624): Self-checks not finished within 60 s fail, and the firmware performs an FWR. -/
  | selfCheckTimeout (t : Nat)
  /-- HEALTH_EXPIRED (R624): A health window ending without confirmation sets HEALTH_EXPIRED and performs an FWR. -/
  | healthExpired (t : Nat)
  /-- SERDES_LANE_RESTART (R629): During a SerDes roll-out, the next lane is restarted once the previous one is done. -/
  | serdesLaneRestart (t : Nat)
  /-- SERDES_DONE (R629): The last lane of the SerDes roll-out is done, and SERDES_DONE is posted. -/
  | serdesDone (t : Nat)
  /-- MICROCODE_SWITCH (R626): An engine switches to the new microcode at its switch point. -/
  | microcodeSwitch (t : Nat) (type : Fin 3)
  /-- NET_SIGNAL_DETECTED (R370): A network port in NO_SIGNAL whose receive lanes all show signal again leaves NO_SIGNAL and starts auto-negotiation or link training. -/
  | netSignalDetected (t : Nat) (port : Fin 2)
  /-- NET_SIGNAL_LOST (R370): A network port in AN, TRAINING or ALIGNING that loses signal on a receive lane enters NO_SIGNAL. -/
  | netSignalLost (t : Nat) (port : Fin 2) (lock : BitVec 4)
  /-- AUTO_NEGOTIATION_DONE (R370): Clause 73 auto-negotiation completes and the port moves from AN to TRAINING. -/
  | autoNegotiationDone (t : Nat) (port : Fin 2)
  /-- LINK_TRAINING_DONE (R370): Clause 136 or 137 link training completes and the port moves from TRAINING to ALIGNING with lane order and polarity found. -/
  | linkTrainingDone (t : Nat) (port : Fin 2) (pol : BitVec 4)
  /-- SAP_PORT_FRAME (R508): A serial audio port frame start crosses the balls, so a stamped sample enters the receive buffer and a sample leaves the transmit buffer. -/
  | sapPortFrame (t : Nat) (port : Fin 16) (bclk : Nat) (rx : List (Int × Int)) (tx : Nat)
  /-- ATTESTATION_REPORT_DONE (R631): The long SEC_ATTEST query completes its signed report within 50 ms and writes its response with RESP_READY. -/
  | attestationReportDone (t : Nat) (ch : Fin 16)
  /-- D3HOT_TRANSITION (R120): A configuration write of the power management capability moves the function into or out of D3hot, stopping or resuming MSI-X messages. -/
  | d3hotTransition (t : Nat) (d3 : Bool)
  /-- HELLO_TIMEOUT (R586): No HELLO arriving for 10 ms clears TWN_PEER.PRESENT. -/
  | helloTimeout (t : Nat)
  /-- IGMP_MEMBERSHIP_REPORT (R397): The control firmware sends an IGMPv3 membership report for the joined legs. -/
  | igmpMembershipReport (t : Nat) (port : Fin 2)
  /-- TRST_N_LOW (R107): TRST_N low resets the test access port only and starts no reset of the part. -/
  | trstNLow (t : Nat)
  deriving DecidableEq, Repr

end Sys2Proof
end

