-- ==== Sys2Proof/Config.lean ====
section
/-! DEFINITION. The values the spec leaves open: constants with no body, so that nothing in Lean can evaluate them or prove a value
of them (log entry 3). -/

namespace Sys2Proof.Config

/-- The n-th free value drawn. -/
opaque free : Nat → Nat

/-- The delay between acceptance + 1 ms and the start instant of a gate list, by BASE and the SYSTIME of acceptance, where R383 names
no instant: no list runs and CYCLE is 0. -/
opaque gclDelay : Nat → Nat → Nat

/-- The further multicast addresses the control firmware sets for its own network services on a port (R374); the first 16 count. -/
opaque netFilters : Nat → List Nat

/-- The phase of a candidate against a plane, in ns, as a switch outside a monitored instant measures it (R458), by the number of the
value drawn. -/
opaque phase : Nat → Int

/-- AUD_FILT_COEF[k], Q2.30: the fixed coefficients of the filters, which R479 does not state as numbers. -/
opaque filtCoef : Nat → Int

/-- Sample k of a period of the 1 kHz sine at -20.0 dBFS (R471), k = 0 to 47. -/
opaque sine : Nat → Int

/-- A peak magnitude in 0.1 dB below full scale, and a gain in 2^-24 as a reduction in 0.1 dB, as the meters round them (R500). -/
opaque decibels : Nat → Nat
opaque gainDecibels : Nat → Nat

/-- The 64-bit words in which the digest of R497 holds an offset filter's two values, and the ramp positions of a mix output as (input,
samples done, length). -/
opaque offsetWord : Int → Int → Nat
opaque rampWord : List (Nat × Nat × Nat) → Nat

/-- MVC_CSC_COEF[k], Q3.12: the fixed coefficients of the conversion matrices, which R529 does not state as numbers. -/
opaque cscCoef : Nat → Int

/-- Byte `pa` of the PRBS-15 pattern of the sweep rows (R255), whose start and order in the rows the spec does not give. -/
opaque sweepPattern : Nat → Nat

/-- Bar b, 0 to 7 from the left, of generator pattern p, 1 or 2, as its Y, Cb and Cr words (component 0 to 2), which R181 does not state as numbers. -/
opaque barWord (p b component : Nat) : Nat

/-- The bytes of a generated ST 352 packet for a format and level, its link number apart (R290), as one word. -/
opaque payloadId (format : Nat) (levelB : Bool) : Nat

/-- Byte k of a carafe slot that holds pictures, which are given by numbers (R226): the words of a picture are no part of the model. -/
opaque slotByte (pictures : List Nat) (k : Nat) : Nat

/-- A byte of the frame stores, rings and buffers that the engines keep in DRAM (R252), by the number of the value drawn and its address. -/
opaque mediaByte (n addr : Nat) : Nat

/-- The number of the first active line of a field of a format (R411), which the spec does not state. -/
opaque firstActive (format : Nat) (field2 : Bool) : Nat

/-- The word that a tile scaler gives pixel (x, y) of a layer of w by h pixels from frame `number` of a source, before clipping (R525), by its component,
0 luma, 1 and 2 the chroma of its pair: the coefficients of the filter are fixed and not stated, and the words of a picture are no part of the model. -/
opaque tileWord (source number w h x y component : Nat) : Int

/-- A payload identifier word of a bonded group signals the two-sample interleave division (R523), by ST 352. -/
opaque twoSample : Nat → Bool

/-- Symbol value k of a period of SSPRQ (R326), whose definition stands in IEEE 802.3 Clause 120. -/
opaque ssprq : Nat → Nat

/-- How often the event of a PMC selector occurs on a control core between two instants (R600): what the firmware runs is not the spec's. -/
opaque events (core sel from_ to_ : Nat) : Nat

/-- The identity certificate of OTP as its length in bytes and its words, DEVICE_SERIAL as four words, and word k of an ML-DSA-44 signature
of the identity key over a digest (R609, R632). -/
opaque certLength : Nat
opaque certWord : Nat → Nat
opaque serial : Nat → Nat
opaque signature : List Nat → Nat → Nat

end Sys2Proof.Config
end

