-- ==== Sys2Proof/Machine/State.lean ====
section
/-! DEFINITION. The state of the part as plain data: the register window, the buffers and memories, the firmware's queues and
records, and the working state of each engine; the two reasons a step can stop; and the state right after reset. -/

namespace Sys2Proof.Machine

/-- No command of this part ends in a fault: every row of the table has an effect the spec gives, and an access the part does
not accept is answered by a register or a response. Safe: nothing is stopped by it. -/
inductive Fault where
  deriving DecidableEq, Repr

/-- Raised by Dispatch for a row that has no meaning yet (safe: the run stops there). -/
inductive Refusal where
  /-- Raised by an arm of exec that has no meaning; safe, the run stops. -/
  | notModelled (mnemonic : String)
  deriving DecidableEq, Repr

/-- A register of the window: its offset and the value the field tables give it at reset (R12, R23). -/
structure Reg where
  off : Nat
  dflt : Nat
  deriving DecidableEq, Repr

/-- A field of a register: the register and the field's lowest bit and width. -/
structure Fld where
  off : Nat
  dflt : Nat
  lo : Nat
  w : Nat
  deriving DecidableEq, Repr

/-- The field of `w` bits from bit `lo` of a register. -/
def Reg.fld (r : Reg) (lo w : Nat) : Fld := ⟨r.off, r.dflt, lo, w⟩

/-- A row of the access and retention table: up to three (stride, count) pairs, the reset value, the masks of the RW, W1C and
W1S bits, the masks of the bits of class L, F, W, H and P (R20), and whether the host may write it (R15). -/
structure RegRow where
  base : Nat
  s1 : Nat
  c1 : Nat
  s2 : Nat
  c2 : Nat
  s3 : Nat
  c3 : Nat
  dflt : Nat
  rw : Nat
  w1c : Nat
  w1s : Nat
  cl : Nat
  cf : Nat
  cw : Nat
  ch : Nat
  cp : Nat
  host : Bool

/-- The register window: the registers that differ from their reset value, offsets strictly rising. -/
abbrev RegMap := List (Nat × Word)

/-- The addressed memory of the internal bus (R588): mailbox buffers, MRAM, SRAM, flash and DRAM as bytes, addresses strictly
rising, no byte listed that equals what an unlisted address reads as (0, log entry 4). -/
abbrev Memory := List Host.Cell

/-- A write the chip makes to addressed memory inside a command: words or bytes at an
address, a range returned to 0, the DRAM pieces of a channel (PA[10:8], R250) returned to 0, or the sweep rows of a channel filled with their pattern
(R252, R255): addressed memory holds there what a byte differs from the pattern by. -/
inductive MemOp where
  | words (addr : Nat) (ws : List Nat)
  | bytes (addr : Nat) (bs : List Nat)
  | clear (addr len : Nat)
  | clearChan (chan : Nat)
  | sweepRows (chan : Nat)
  deriving DecidableEq, Repr

/-- A setting of the MRAM settings journal (R139) and the request that wrote it; of one setting the newest stands first, and older
ones are kept while a CANCEL could bring them back (R147). -/
structure JEntry where
  change : Change
  chan : Nat
  seq : Nat
  deriving DecidableEq, Repr

/-- What follows an accepted request's response (R146, R116, R623). -/
inductive After where
  | none | fwr | pin | quiet
  deriving DecidableEq, Repr

/-- A request that is answered by a later row: a long one (R131), or one whose effect waits for a frame boundary or an audio block, where it is
answered (R144, R463, R513, R521). -/
inductive Long where
  | domains | graphic | download | verify | attest | boundary
  deriving DecidableEq, Repr

/-- What an accepted request does: the response it earns, the changes it queues for an epoch, the changes it makes at once,
whether it journals (R139), whether it is forwarded to the standby (R143), whether it is answered by a later row, and what
follows the response. -/
structure Plan where
  resp : Resp := ⟨0, 0, 0, []⟩
  pends : List Pend := []
  nows : List Change := []
  journal : Bool := true
  fwd : Bool := true
  long : Option Long := .none
  after : After := .none
  deriving DecidableEq, Repr

/-- The header and payload words of a request (R133). -/
structure Req where
  chan : Nat
  seq : Nat
  opcode : Nat
  flags : Nat
  len : Nat
  epoch : Nat
  payload : List Nat
  deriving DecidableEq, Repr

/-- A request that waits, since when, its plan, and what it waits for: held MRAM writes (R90), the standby's ACK of the
forwarded command (R557), the peer's response (R143), the end of a long operation (R131), the commitment of a handover (R582); and whether a change of it has taken. -/
structure Wait where
  req : Req
  plan : Plan
  since : Nat
  journal : Bool := false
  ack : Option Nat := none
  peer : Bool := false
  long : Option Long := none
  hand : Bool := false
  taken : Bool := false
  deriving DecidableEq, Repr

/-- One entry of the MSI-X table (R119, R121). -/
structure Msix where
  addr : Nat := 0
  data : Nat := 0
  masked : Bool := true
  deriving DecidableEq, Repr

/-- The PCI configuration space of the endpoint (R119): vendor, device, revision, class code and the subsystem vendor and device as the settings
journal gives them; the addresses of BAR0 and BAR2 and whether they are assigned; the largest payload and read request in bytes; the Interrupt Pin
register; and the capabilities, as bits 0 to 4 for PCI Express, MSI-X, power management, AER and function-level reset. -/
structure Pci where
  ids : List Nat := [0x1F6B, 0x0384, 0xA1, 0x048000, 0x1F6B, 0x0384]
  bar0 : Option Nat := none
  bar2 : Option Nat := none
  maxPayload : Nat := 256
  maxRead : Nat := 512
  intPin : Nat := 0
  caps : Nat := 31
  deriving DecidableEq, Repr

/-- The PCIe endpoint (R119, R120): its configuration space, D3hot, function-level masking, the MSI-X table and pending bits, and the messages sent by
the last command. -/
structure HostIf where
  pci : Pci := {}
  d3hot : Bool := false
  fnMasked : Bool := true
  table : List Msix := List.replicate 32 {}
  pba : Nat := 0
  sent : List (Nat × Nat) := []
  aborts : Nat := 0
  deriving DecidableEq, Repr

/-- The mailbox firmware (R130 to R147): channels in doorbell order with the instants of their doorbells, waiting requests, the duplicate history, the take queue,
the settings journal; the settings in force, VOLATILE ones too; whether configuration load is done (R83, R628, R637), and whether one has run
since the last PIN reset or POR. -/
structure Fw where
  order : List (Nat × Nat) := []
  waits : List Wait := []
  hist : List Hist := []
  queue : List Pend := []
  journal : List JEntry := []
  running : List JEntry := []
  cfgLoaded : Bool := false
  loaded : Bool := false
  deriving DecidableEq, Repr

/-- The SYSTIME counter N (R425): whole nanoseconds, and the remainder in units of 1/(3 * 10^12) ns. -/
structure Clock where
  n : Nat := 0
  frac : Nat := 0
  deriving DecidableEq, Repr

/-- A timing plane beside its registers: the instant of its next frame boundary, whether it has left START since the last PIN
reset or POR (R32), whether a boundary has been counted since (R29), when it entered START (R454), a format change or REPHASE
that waits for the next boundary (R463), the wraps of its epoch counter (R227), the windows of its holdover model, newest first, in 0.001 ppm (R460), the epochs whose
host changes are taking (R154), the frequency it moves to (R458), the candidate pairs that disagree (R457), the 64-bit
number of its anchor epoch (R403), whether its journaled senders still wait for an anchor (R424), its frequency in
1/(3 * 10^9) of 0.001 ppm with the instant it stood at, its build-out in 1/(18 * 10^18) ns, and when it last locked (R458, R460);
the destinations that have passed their switching point since the boundary (R154); the loads given up by changes that are taking, as
(epoch, holder, load) (R38); and since when a standby waits for the active part's selection (R462). -/
structure Plane where
  nextB : Nat := 0
  left : Bool := false
  counted : Bool := false
  startAt : Nat := 0
  again : Option Nat := none
  high : Nat := 0
  windows : List Int := []
  taking : List Nat := []
  target : Int := 0
  disagree : List (Nat × Nat) := []
  anchorAt : Nat := 0
  sendersDue : Bool := false
  freq : Int := 0
  freqAt : Nat := 0
  buildout : Int := 0
  lockAt : Nat := 0
  passed : List Nat := []
  freed : List (Nat × Nat × Nat) := []
  awaits : Option Nat := none
  deriving DecidableEq, Repr

/-- A frame of a frame synchroniser's ring (R201): its number, the instant of its line 1, whether it is complete or being written, and whether it
is clean. -/
structure RingFrame where
  n : Nat
  at_ : Nat
  whole : Bool := true
  clean : Bool := false
  deriving DecidableEq, Repr

/-- What a destination sends or records (R177, R183 to R185): nothing, black in its format, its last line again (R27), a frame of a source,
or a frame of a slate generator. -/
inductive Pic where
  | none | black | again
  | frame (source number : Nat)
  | slate (gen : Nat)
  deriving DecidableEq, Repr

/-- The working state of a source's aligner (R196 to R215): the frames in its ring, newest first, at most three;
the number of the next frame received, and the instant of line 1 of the newest one; the frame presented last on its own plane and on the other plane;
the frames in the cross-plane ring, which arrive as they are presented on its own plane (R180), and the newest frame presented, as (number, instant);
the complete matching frames since it became invalid (R213); whole frames presented
since it became valid (R186); the run of invalid lines; frames inside the demotion window (R205); whether the frame being received has an invalid
line (R201), and whether a lost promoted source still presents the frame cut short (R214); of the lane (R215, R216): whether line 1 of the
running frame has come, whether the frame before was complete and matched, the offset, and its ST 352 link number;
the structure of the last frame and how many frames had it (R210); the skew and order faults of its group (R216); when it became
valid or invalid; whether a run of 8 invalid lines ended in the frame (R213); and the active part's decision for the next
presentation on its own plane (promoted, frames advanced) and on the other plane (frames advanced) (R209); and whether it is invalid because a failed memory
channel poisons its ring (R638); whether a fabric stream is 3G level B-DL (R279); and for a network flow, whether a received frame
maps to the frame being presented (R407); and for tile scalers, whether the frame being presented is not clean, and the newest clean
frame presented whole, as (number, instant of its presentation) (R524); and the lines with a CRC or EDH error and the invalid lines of the
running epoch (R567). -/
structure Src where
  frames : List RingFrame := []
  next : Nat := 1
  arrAt : Option Nat := none
  shown : Nat := 0
  xframes : List RingFrame := []
  xshown : Nat := 0
  last : Option (Nat × Nat) := none
  good : Nat := 0
  whole : Nat := 0
  bad : Nat := 0
  calm : Nat := 0
  dirty : Bool := false
  cut : Bool := false
  here : Bool := false
  ended : Bool := false
  off : Int := 0
  link : Nat := 0
  struct : Nat := 0
  same : Nat := 0
  skew : Bool := false
  order : Bool := false
  lostAt : Nat := 0
  broke : Bool := false
  decision : Option (Bool × Nat) := none
  xdecision : Option Nat := none
  dram : Bool := false
  levelB : Bool := false
  mapped : Bool := false
  soiled : Bool := false
  tap : Option (Nat × Nat) := none
  errs : Nat := 0
  bads : Nat := 0
  deriving DecidableEq, Repr

/-- The working state of a destination: its present format (R162; 0 never carried), whether it was carried as a quad link (R293), and 3G level
(R279), and whether it repeats its last line until the next frame boundary (R27). -/
structure Dst where
  present : Nat := 0
  quad : Bool := false
  levelB : Bool := false
  repeats : Bool := false
  deriving DecidableEq, Repr


/-- Where the part stands between a reset and running firmware: in reset (R81), released (R80; also after an FWR or WDT until the
boot ROM has run), firmware started and not yet ready (R83), running, halted before firmware (R613), serving a recovery boot (R613), in QUIET (R105). -/
inductive Phase where
  | held | released | started | running | halted | recovery | quiet
  deriving DecidableEq, Repr

/-- The working state of power, resets and the pins they own: the phase; whether the straps are still to be sampled (R58); the
states the BUSY domains run to (R95, R103); whether the sensors have been read since reset, and whether each thermal flag may be set by the next
reading (R76); the start of the MRAM
write in progress (R82); the kinds of the resets requested since the part last ran, as bits of TOP_RESET_CAUSE (R18); and the
scan frames read since reset, and the 144 bits of the last one (R73). -/
structure Pwr where
  phase : Phase := .released
  strapDue : Bool := true
  goal : List (Nat × Nat) := []
  tempRead : Bool := false
  warnArmed : Bool := false
  critArmed : Bool := false
  mramWrite : Option Nat := none
  asked : Nat := 8
  scans : Nat := 0
  scan : Nat := 0
  deriving DecidableEq, Repr

/-- The working state of a memory channel beside its registers: the burst addresses of uncorrectable errors with their instants
(R269), the corrections with their devices and instants (R264), the reads of DRAM mode register 4 not answered in a row (R269),
the ranks that report the doubled refresh rate (R260), the replays running (R268), the steps due as (device, up) (R267), the
cause of a failure not yet acted on (R269; 0 none), and the next burst of the patrol scrub (R263). -/
structure DmcCh where
  ues : List (Nat × Nat) := []
  corr : List (Nat × Nat) := []
  silent : Nat := 0
  hot : List Nat := []
  replays : Nat := 0
  nudges : List (Nat × Bool) := []
  failing : Nat := 0
  scrub : Nat := 0
  deriving DecidableEq, Repr

/-- The kind of a carafe slot's tag (R227); a slot with no tag is EMPTY. -/
inductive Slot where
  | recorded | gap
  deriving DecidableEq, Repr

/-- The working state of a carafe: the tags of its slots as (slot, (low 32 bits of F, kind)), slots rising; the pictures whose words the slots hold,
as (slot, the pictures of the frame in order, a new one from each switching point on); the frame being
written, whether STORE_IN was routed and carried the carafe format during a part of it (R228), and its pictures so far. -/
structure Carafe where
  tags : List (Nat × (Nat × Slot)) := []
  slots : List (Nat × List Pic) := []
  frame : Option Nat := none
  seen : Bool := false
  pics : List Pic := []
  deriving DecidableEq, Repr

/-- What a playback channel presents (R232, R234, R236): the frames of the current presentation, as (carafe, F) or none for a gap frame, in
order: a jump adds the new position from its switching line on; and the frame number of its last presentation. -/
structure Play where
  shown : List (Option (Nat × Nat)) := []
  frame : Nat := 0
  deriving DecidableEq, Repr

/-- The working state of the store: its carafes and playback channels; a halt under way after a channel failure, as the failed channel and the planes
still to halt (R239); and whether the store engine is stopped, its domain having been OFF since the last frame boundary of TP0 (R98). -/
structure Lbs where
  carafes : List (Nat × Carafe) := []
  plays : List (Nat × Play) := []
  halt : Option (Nat × List Nat) := none
  stopped : Bool := false
  deriving DecidableEq, Repr

/-- The working state of an SDI lane beside its registers: of the receive lane the rate class on trial in HUNT (R281) and the audio groups
reported as unsupported (R289); of the transmit lane whether the transmitter is muted, its amplitude, the instant of the EAV at which a new
MUTE = 1 and AMPLITUDE act (R294), and that of the output frame start at which it starts or is no longer muted (R177, R294, R300). -/
structure SdiLane where
  trial : Nat := 0
  unsup : Nat := 0
  muted : Bool := false
  amp : Nat := 4
  eavAt : Option Nat := none
  frameAt : Option Nat := none
  deriving DecidableEq, Repr

/-- The working state of a fabric lane (0 to 47) or twin lane (48, 49) beside its registers: its state before DOZE and whether a
retry waits for its return (R332, R333); the PEAK of a step due and the instant of the last step (R320, R321); whether re-trimming
stopped (R321); whether acquisition has found its polarity since its last LNR (R305); the last level its transmitter sent and its receiver took in
(R304), and whether the receiver has still to discard its first symbol; and of its alignment markers since it became TRAINED (R345 to R347): whether one passed or failed the identity
checks, whether it came too late, its LLANE, MARKER_COUNT and instant, and the set (IN_USE, SLOT_MASK) it last announced, with
whether a reform marker announced it. -/
structure FabLane where
  before : Nat := 0
  retryDue : Bool := false
  step : Option Nat := none
  stepAt : Option Nat := none
  stopped : Bool := false
  polKnown : Bool := false
  txLevel : Nat := 0
  rxLevel : Nat := 0
  rxFresh : Bool := true
  seen : Bool := false
  bad : Bool := false
  skewed : Bool := false
  llane : Nat := 0
  count : Nat := 0
  at_ : Nat := 0
  set_ : Option (Nat × Nat × Bool) := none
  deriving DecidableEq, Repr

/-- The state of one direction of a link (R348, R350). -/
inductive Dir where
  | down | up | reforming
  deriving DecidableEq, Repr

/-- The working state of a Kloar link beside its registers (R348 to R353): its two directions with the lanes in use and the slots
carried, the slots dropped at the transmitter, whether LINK_UP stands, the instant the first lane was reported usable, the
instants since which lanes are reported usable, the sequence of each slot's data blocks (R338), the slots whose line in progress lacks a block or began before the direction came up (R352, R356), the
instants at which the block counter of its lanes and its present transmit stream began (R340, R344), and the instant of the last
correct block (R555). -/
structure Link where
  rx : Dir := .down
  tx : Dir := .down
  rxUse : Nat := 0
  txUse : Nat := 0
  rxMask : Nat := 0
  txMask : Nat := 0
  dropped : Nat := 0
  wasUp : Bool := false
  first : Option Nat := none
  since : List (Nat × Nat) := []
  sseq : List (Nat × Nat) := []
  faults : Nat := 0xFFFF
  bornAt : Nat := 0
  formAt : Nat := 0
  lastBlock : Nat := 0
  deriving DecidableEq, Repr

/-- The working state of a network port beside its registers: the gates open now (R380), SYSTIME at a cycle start of the running
list and at S of the pending list (R383), whether the journaled list waits for the first servo lock (R385), the bytes in the media
queue at an instant and the frames in the PTP and management queues (R376), and the remainders of the octet counters (R386), and the (group, source filter) pairs of the last membership report sent (R397). -/
structure NetPort where
  gates : Nat := 255
  cycleAt : Nat := 0
  startAt : Nat := 0
  due : Bool := true
  media : Nat := 0
  mediaAt : Nat := 0
  ptpQ : Nat := 0
  mgmtQ : Nat := 0
  rxRem : Nat := 0
  txRem : Nat := 0
  igmp : List (Nat × Nat) := []
  deriving DecidableEq, Repr

/-- The working state of a receive flow beside its registers: the extended sequence numbers in its playout buffer with the frame, or
for audio the engine sample index, they belong to (R409); the last sequence number accounted; the received frames mapped, as
(frame, offset, timestamp) (R405, R421); when each leg last received a packet and whether it has been lost (R410); when OFF_GRID was
posted; the taken positions of an ancillary flow by frame (R402); the least audio margin of the running second (R423); and when the flow was joined (R564). -/
structure Flow where
  seqs : List (Nat × Nat) := []
  upTo : Option Nat := none
  frames : List (Nat × Int × Nat) := []
  legAt : Nat × Nat := (0, 0)
  lost : Bool × Bool := (false, false)
  gridAt : Option Nat := none
  taken : List (Nat × Nat) := []
  marginAt : Nat := 0
  margin : Option Int := none
  joinedAt : Nat := 0
  deriving DecidableEq, Repr

/-- The next RTP sequence numbers of the two legs of a sender (R404). -/
structure Sender where
  seq0 : Nat := 0
  seq1 : Nat := 0
  deriving DecidableEq, Repr

/-- A foreign master of a PTP port (R429, R433): its clockIdentity (byte 0 lowest), the rank of its data set in the best master
comparison (lower is better), the instants of its last two Announce messages, newest first, and whether it is qualified. -/
structure Master where
  id : Nat
  rank : Nat
  heard : List Nat
  qualified : Bool
  deriving DecidableEq, Repr

/-- The working state of a PTP port: its receive event FIFO and departure record, oldest entry first (R438), the firmware's copies of
the entries it removed, newest first (R442), its foreign masters, and N as it was last inserted into a Delay_Req (R437). -/
structure PtpPort where
  rxq : List (List Nat) := []
  txr : List (List Nat) := []
  rxCopy : List (List Nat) := []
  txCopy : List (List Nat) := []
  masters : List Master := []
  origin : Nat := 0
  deriving DecidableEq, Repr

/-- The working state of PTP (R431 to R436): its ports, whether the servo has reported lock since the last PIN reset or POR, the
offsets of the first samples, newest first, the samples within 1 us in a row, the offsets refused in a row, newest first, a relock
awaited, the frequencies of the last second with their instants, newest first, and when the preferred port's master became at
least as good. -/
structure Ptp where
  ports : List PtpPort := [{}, {}]
  firstLock : Bool := false
  first : List Int := []
  inRange : Nat := 0
  refused : List Int := []
  relock : Bool := false
  freqs : List (Nat × Int) := []
  prefSince : Option Nat := none
  lockedAt : Nat := 0
  deriving DecidableEq, Repr

/-- The working state of a reference candidate (R449, R450, R459): since when it has been active, since when it has been QUALIFIED,
the displacements of the edges held as a possible phase step, newest first, and the consecutive edges absent and the stray edges of
the running window. -/
structure Cand where
  activeAt : Option Nat := none
  qualAt : Option Nat := none
  held : List Int := []
  absent : Nat := 0
  stray : Nat := 0
  deriving DecidableEq, Repr

/-- The working state of the selector (R71, R451, R452): its candidates, since when LO_IN has run, whether its loss has been flagged, and when LO_CAL
last moved. -/
structure Ref where
  cands : List Cand := [{}, {}, {}, {}, {}]
  loAt : Nat := 0
  loLost : Bool := false
  calAt : Nat := 0
  deriving DecidableEq, Repr

/-- A fade of the embedded audio of a destination (R178, R488): the engine sample of its switching point, and the old state: the destination's
XPT_DST_CTL, its EMBED mode and its shuffle entries. -/
structure Fade where
  at_ : Nat
  route : Nat
  embed : Nat
  shuf : List Nat
  deriving DecidableEq, Repr

/-- The working state of the audio engine (R468 to R490): coefficients by 512 o + i; filters by mix input; mix outputs; the samples of
each engine input that its delays read, newest first, with whether they are non-audio; the block in progress with the instant and index of its first
sample and the samples done; the ratios the active part forwarded, by block; the read phase of the bridge in 2^-36 sample; the fades of destinations; and the serial audio settings accepted for the next block (R513), as kind, index and word. -/
structure Aud where
  coefs : List (Nat × Coef) := []
  filts : List (Nat × Filt) := []
  lims : List (Nat × Lim) := []
  hist : List (Nat × List (Int × Bool)) := []
  block : Option AudioBlock := none
  blockAt : Nat := 0
  first : Nat := 0
  done : Nat := 48
  ratios : List (Nat × Int) := []
  phase : Int := 0
  fades : List (Nat × Fade) := []
  sapDue : List (Kind × Nat × Nat) := []
  deriving DecidableEq, Repr

/-- The working state of a serial audio port (R505 to R512): its two buffers as (stamp, left, right), oldest first; the stamps of its
last samples (none: the next is stamped from its arrival); the samples delivered and sent last; whether each direction has met its
target since its start, and has slipped; whether it waits for the next block to restart (R98); the samples repeated and discarded since the slip; LOCKED, and the frames of 64 periods and of
another length in a row; the instant of the last frame start; and the rate measured over the last block. -/
structure SapPort where
  rx : List (Nat × (Int × Int)) := []
  tx : List (Nat × (Int × Int)) := []
  rxStamp : Option Nat := none
  txStamp : Option Nat := none
  lastRx : Int × Int := (0, 0)
  lastTx : Int × Int := (0, 0)
  rxOn : Bool := false
  txOn : Bool := false
  slipRx : Bool := false
  slipTx : Bool := false
  waits : Bool := false
  moved : Nat := 0
  locked : Bool := false
  good : Nat := 0
  bad : Nat := 0
  frameAt : Nat := 0
  rate : Int := 0
  deriving DecidableEq, Repr

/-- The working state of a video layer (R524, R537, R538): its taken changes not shown yet as (epoch, instant, the three words of the
entry), oldest first; the instant its present tile, tap and size took effect; the tap frame shown; the head frame since which no clean
tap frame has come; and whether LAYER_LATE has been posted for its oldest change. -/
structure VLayer where
  waits : List (Nat × Nat × List Nat) := []
  since : Nat := 0
  shown : Option Nat := none
  lost : Option Nat := none
  posted : Bool := false
  deriving DecidableEq, Repr

/-- The working state of a graphic layer (R532 to R535): its two buffers, the pixels that are not 0 as (y * W + x, ARGB), pixels rising;
the load in progress as AUTO_FLIP, FENCE, X, Y, W, H; and the instant a load with AUTO_FLIP ended whose flip is to come. -/
structure GLayer where
  buf0 : List (Nat × Nat) := []
  buf1 : List (Nat × Nat) := []
  load : Option (List Nat) := none
  auto : Option Nat := none
  deriving DecidableEq, Repr

/-- A flip that waits (R534): the epoch it took at, whether its target is a group, the layer or group, the fence it needs, and whether
LAYER_LATE has been posted for it. -/
structure Flip where
  epoch : Nat
  group : Bool
  idx : Nat
  fence : Nat
  posted : Bool
  deriving DecidableEq, Repr

/-- The working state of a head (R520, R521): accepted settings that wait for the next frame boundary; its layers; graphic layer and
colour changes and flips that wait for a head frame; the decisions forwarded; and the head frame decided last. -/
structure Head where
  due : Option Nat := none
  vls : List (Nat × VLayer) := []
  gls : List (Nat × GLayer) := []
  later : List (Nat × Change) := []
  flips : List Flip := []
  named : List HeadDec := []
  decided : Option Nat := none
  deriving DecidableEq, Repr

/-- What a part holds of one compared epoch of a plane (R562 to R569): its own Crema word and when it was sent, the mask in use, its own
destination CRCs, the peer's word, CRCs and evidence with the peer's self-diagnosis, and the outcome once there is one. -/
structure TwnRec where
  plane : Nat
  epoch : Nat
  own : Option (List Nat) := none
  ownAt : Nat := 0
  mask : Option (List Nat) := none
  crcs : List (Nat × Nat) := []
  peer : Option (List Nat) := none
  peerCrcs : Option (List (Nat × Nat)) := none
  peerEv : Option (List Evid × Nat) := none
  outcome : Option Nat := none
  deriving DecidableEq, Repr

/-- A configuration image being applied (R575): the image, when it came, the planes whose frame boundary is still to come, and the settings of
planes that change. -/
structure TwnImage where
  config : ConfigImage
  at_ : Nat
  planes : List Nat
  todo : List Change
  deriving DecidableEq, Repr

/-- The working state of twin operation beside its registers: whether the mode was decided since the last PIN reset or POR, since when
unit 1 waits, and whether the part becomes active at the next handover instant (R550); a cold takeover that is due, and the epoch at
which its configuration took (R578); the instant of the last HELLO with the settings schema version it gave, whether the pair is formed, and whether the active part holds its standby to
be in step; the handover asked for or committed, as (H, cause, acknowledged), and whether the part becomes FAULTY by it (R572, R573); the MSEQ of the next
message sent in each stream, and of the next one received with the later ones that came first (R553); the instant of the last correct
block (R555); the compared epochs, their history as (plane, epoch, outcome, first two words), newest first (R584), and the epochs without a
match in a row (R569); the forwarded changes as (FWD_SEQ, TP0 epoch, TP1 epoch), newest first (R559); the epochs a change came late for
(R558), and those in which a decision could not be followed (R566); when evidence bits were last set; AUD_STATE_CRC by epoch, newest
first; when the last state copy began, its staged image with the instant it came, and the image being applied (R574, R575); the COMMANDs not executed yet, with whether hardware has acknowledged them (R575, R580); the evidence records (R567); the carafe slots marked DIVERGED as (carafe, F), and the playback channels that
presented one as (channel, epoch) (R568). -/
structure Twn where
  decided : Bool := false
  waitAt : Option Nat := none
  toActive : Bool := false
  coldDue : Bool := false
  cold : Option Nat := none
  helloAt : Nat := 0
  peerSchema : Nat := 0
  paired : Bool := false
  peerStep : Bool := false
  handover : Option (Nat × Nat × Bool) := none
  faulty : Bool := false
  tx : List Nat := [0, 0, 0]
  rx : List (Nat × List (Nat × Nat)) := [(0, []), (0, []), (0, [])]
  blockAt : Nat := 0
  recs : List TwnRec := []
  history : List (Nat × Nat × Nat × List Nat) := []
  noMatch : List Nat := [0, 0]
  accepted : List (Nat × Nat × Nat × Bool) := []
  lateFor : List (Nat × Nat) := []
  missed : List (Nat × Nat) := []
  ueAt : Option Nat := none
  concealAt : Option Nat := none
  audCrcs : List (Nat × Nat) := []
  copyAt : Nat := 0
  staged : Option (ConfigImage × Nat) := none
  image : Option TwnImage := none
  held : List (TwinCommand × Bool) := []
  evids : List Evid := []
  diverged : List (Nat × Nat) := []
  inherited : List (Nat × Nat) := []
  deriving DecidableEq, Repr

/-- A transaction a master port holds outstanding (R589): the access, whether it is a locked read, the instant the matrix accepted it, and
whether it hangs in the aperture (R594). -/
structure BusOut where
  acc : BusAcc
  lock : Bool
  at_ : Nat
  hung : Bool
  deriving DecidableEq, Repr

/-- An open locked sequence (R596): the target (region), the master, its ID, the 16-byte location, the beats since, and its start. -/
structure BusLock where
  target : Nat
  m : Nat
  id : Nat
  loc : Nat
  beats : Nat
  since : Nat
  deriving DecidableEq, Repr

/-- A burst in a bank queue of a memory channel (R257): its channel and queue, its rank, row and column, and whether it writes. -/
structure Burst where
  chan : Nat
  queue : Nat
  rank : Nat
  row : Nat
  column : Nat
  write : Bool
  deriving DecidableEq, Repr

/-- The working state of the bus matrix (R587 to R598): transactions outstanding, oldest first; open locks; broken locks whose closing
write has not come, as (master, ID, location); and the responses the last command gave, as (master, ID, KIND, bytes). `bursts` are those that the
last DRAM access of this command put into the bank queues, in order (R257): an access has at most one burst for each queue, so it never waits for a
credit, and each has left its queue when the access is answered. -/
structure Bus where
  outs : List BusOut := []
  locks : List BusLock := []
  broken : List (Nat × Nat × Nat) := []
  resps : List (Nat × Nat × Nat × List Nat) := []
  bursts : List Burst := []
  deriving DecidableEq, Repr

/-- A copy of the update record (R618). -/
structure UpdRec where
  seq : Nat := 0
  trial : Bool := false
  runBank : Nat := 0
  prevBank : Nat := 0
  trialCount : Nat := 0
  area : Nat := 0
  fellBack : Bool := false
  auto : Bool := false
  health : Nat := 0
  digest : List Nat := List.replicate 8 0
  deriving DecidableEq, Repr

/-- The working state of update and security: the two copies of the update record (none: not valid) and the last write of it, as the
instant and whether copy B was written second, with the copies before it (R617, R82); what the checks last found of each bank; the recorded TOTAL (R621); the
running bank and whether this boot runs a trial or has ended one (R620); the component types loaded, and those whose engines have not
switched yet (R626); the digests of the code that runs, by TYPE, and the types whose engines have no valid code (R622); the lanes still to restart as (kind, index), the one in
restart with its instant, and the lanes restarted (R629); when FW_READY was set, whether the self-checks ended, and the end of the health
window (R624); whether the firmware refuses the settings schema, the schema of each journal area, and the confirmed settings while
a trial runs (R624, R628). -/
structure Upd where
  recA : Option UpdRec := none
  recB : Option UpdRec := none
  last : Option (Nat × Bool) := none
  before : Option UpdRec × Option UpdRec := (none, none)
  pkgs : List (Option Package) := [none, none]
  total : Nat := 0
  bank : Nat := 0
  trialBoot : Bool := false
  fell : Bool := false
  loaded : List Nat := []
  toSwitch : List Nat := []
  codes : List (List Nat) := []
  dead : List Nat := []
  rollout : List (Nat × Nat) := []
  restart : Option (Nat × Nat × Nat) := none
  done : Nat := 0
  readyAt : Nat := 0
  checked : Bool := false
  healthEnd : Option Nat := none
  refused : Bool := false
  schemas : List Nat := [0, 0]
  kept : Option (List JEntry) := none
  deriving DecidableEq, Repr

/-- Everything but the command queue and the addressed memory. `now` is the instant in units of 1/3 ns; `free` counts the free
values drawn (log entry 3); `out` and `evts` are the chip's writes to memory and its ring entries inside a command, empty and 0
between commands; `sent` holds the twin messages the last command sent, as (type, payload words) (R554); `diffAt` the frame of each
merged slot in which PLANE_DIFFER was last posted (R358); `pmcAt` the instant the performance counters stand at (R600); `risen` the W1C bits
that hardware has set in an ACLK cycle, as the cycle and (offset, mask) (R14). -/
structure Chip where
  now : Nat := 0
  free : Nat := 0
  out : List MemOp := []
  evts : Nat := 0
  risen : Nat × List (Nat × Nat) := (0, [])
  clock : Clock := {}
  regs : RegMap := []
  host : HostIf := {}
  fw : Fw := {}
  planes : List Plane := [{}, {}]
  srcs : List (Nat × Src) := []
  dsts : List (Nat × Dst) := []
  sent : List (Nat × List Nat) := []
  pwr : Pwr := {}
  dmc : List (Nat × DmcCh) := []
  lbs : Lbs := {}
  sdi : List (Nat × SdiLane) := []
  lanes : List (Nat × FabLane) := []
  links : List (Nat × Link) := []
  diffAt : List (Nat × Nat) := []
  nets : List NetPort := [{}, {}]
  flows : List (Nat × Flow) := []
  senders : List (Nat × Sender) := []
  ptp : Ptp := {}
  ref : Ref := {}
  aud : Aud := {}
  sap : List (Nat × SapPort) := []
  heads : List (Nat × Head) := []
  twn : Twn := {}
  bus : Bus := {}
  pmcAt : Nat := 0
  upd : Upd := {}
  deriving DecidableEq, Repr

/-- The state: the commands that wait, first in first out, the addressed memory, and the chip. -/
structure State where
  pending : List Instr := []
  mem : Memory := []
  chip : Chip := {}
  deriving DecidableEq, Repr

/-- The part right after its first power-up, both reset pins released (R80, R92, R107): every register at its reset value but
PWR_POR_SOURCE, which reads COLD; nothing in memory; the straps not sampled yet. -/
def State.reset : State := { chip := { regs := [(0x20010, 0x200)] } }

end Sys2Proof.Machine
end

