-- ==== Sys2Proof/Machine/Regs.lean ====
section
/-! DEFINITION. The register window of BAR0: every register and field of the field tables of chapters 02 to 21, with its
offset, width, access type, reset value and retention class (R12, R20, R23), as the tables give them. -/

namespace Sys2Proof.Machine

/-- The rows of R85: the warning level and, above bit 16, the reset level of each rail in mV. -/
def monDefault (m : Nat) : Nat :=
  [43254460, 43254460, 45875940, 49152790, 69469280, 65537040, 104859280, 104859280].getD m 0

/-- TOP_STRAP (R59); class H. -/
def TOP_STRAP : Reg := ⟨0x40, 0x0⟩
def TOP_STRAP_BOOT_MODE : Fld := TOP_STRAP.fld 0 2
def TOP_STRAP_QSPI_MODE : Fld := TOP_STRAP.fld 2 1
def TOP_STRAP_TWIN_UNIT : Fld := TOP_STRAP.fld 3 1
def TOP_STRAP_SVC_ADDR : Fld := TOP_STRAP.fld 4 3
def TOP_STRAP_SPARE : Fld := TOP_STRAP.fld 7 1
def TOP_STRAP_INVALID : Fld := TOP_STRAP.fld 8 1
/-- TOP_IDCODE (R125); class N. -/
def TOP_IDCODE : Reg := ⟨0x0, 0x13840a6f⟩
def TOP_IDCODE_IDCODE : Fld := TOP_IDCODE.fld 0 32
/-- TOP_ROLE (R125); class H, N. -/
def TOP_ROLE : Reg := ⟨0x4, 0x0⟩
def TOP_ROLE_ROLE : Fld := TOP_ROLE.fld 0 2
def TOP_ROLE_PENDING_ROLE : Fld := TOP_ROLE.fld 2 2
def TOP_ROLE_PENDING : Fld := TOP_ROLE.fld 4 1
/-- TOP_STATUS (R125); class F, H. -/
def TOP_STATUS : Reg := ⟨0x8, 0x20⟩
def TOP_STATUS_FW_READY : Fld := TOP_STATUS.fld 0 1
def TOP_STATUS_QUEUE_FAULT : Fld := TOP_STATUS.fld 1 1
def TOP_STATUS_HOST_WRITE_IGNORED : Fld := TOP_STATUS.fld 2 1
def TOP_STATUS_TWIN_STATE : Fld := TOP_STATUS.fld 3 2
def TOP_STATUS_DEFAULTS_RESTORED : Fld := TOP_STATUS.fld 5 1
def TOP_STATUS_CFG_SKIPPED : Fld := TOP_STATUS.fld 6 1
/-- TOP_RESET_CAUSE (R125); class P. -/
def TOP_RESET_CAUSE : Reg := ⟨0xc, 0x8⟩
def TOP_RESET_CAUSE_FWR : Fld := TOP_RESET_CAUSE.fld 0 1
def TOP_RESET_CAUSE_WDT : Fld := TOP_RESET_CAUSE.fld 1 1
def TOP_RESET_CAUSE_PIN : Fld := TOP_RESET_CAUSE.fld 2 1
def TOP_RESET_CAUSE_POR : Fld := TOP_RESET_CAUSE.fld 3 1
/-- TOP_HOST_WRITE_IGNORED (R125); class H. -/
def TOP_HOST_WRITE_IGNORED : Reg := ⟨0x10, 0x0⟩
def TOP_HOST_WRITE_IGNORED_COUNT : Fld := TOP_HOST_WRITE_IGNORED.fld 0 32
/-- TOP_QUEUE_FAULT_COUNT (R125); class H. -/
def TOP_QUEUE_FAULT_COUNT : Reg := ⟨0x14, 0x0⟩
def TOP_QUEUE_FAULT_COUNT_COUNT : Fld := TOP_QUEUE_FAULT_COUNT.fld 0 32
/-- TOP_FW_VERSION (R125); class F. -/
def TOP_FW_VERSION : Reg := ⟨0x18, 0x0⟩
def TOP_FW_VERSION_BUILD : Fld := TOP_FW_VERSION.fld 0 16
def TOP_FW_VERSION_MINOR : Fld := TOP_FW_VERSION.fld 16 8
def TOP_FW_VERSION_MAJOR : Fld := TOP_FW_VERSION.fld 24 8
/-- TOP_IRQ_STATUS (R125); class H. -/
def TOP_IRQ_STATUS : Reg := ⟨0x20, 0x0⟩
def TOP_IRQ_STATUS_PENDING : Fld := TOP_IRQ_STATUS.fld 0 32
/-- TOP_IRQ_PIN_EN (R125); class H. -/
def TOP_IRQ_PIN_EN : Reg := ⟨0x24, 0x0⟩
def TOP_IRQ_PIN_EN_EN : Fld := TOP_IRQ_PIN_EN.fld 0 32
/-- MBX_STATUS (R126); class F. -/
def MBX_STATUS : Reg := ⟨0x10000, 0x2⟩
def MBX_STATUS_EVT_OVERFLOW : Fld := MBX_STATUS.fld 0 1
def MBX_STATUS_DEFAULTS_RESTORED : Fld := MBX_STATUS.fld 1 1
/-- MBX_INT_EN (R126); class H. -/
def MBX_INT_EN : Reg := ⟨0x10004, 0x3ffff⟩
def MBX_INT_EN_RESP : Fld := MBX_INT_EN.fld 0 16
def MBX_INT_EN_EVT : Fld := MBX_INT_EN.fld 16 1
def MBX_INT_EN_EVT_OVERFLOW : Fld := MBX_INT_EN.fld 17 1
/-- MBX_EVT_HEAD (R126); class F. -/
def MBX_EVT_HEAD : Reg := ⟨0x10008, 0x0⟩
def MBX_EVT_HEAD_HEAD : Fld := MBX_EVT_HEAD.fld 0 8
/-- MBX_EVT_TAIL (R126); class F. -/
def MBX_EVT_TAIL : Reg := ⟨0x1000c, 0x0⟩
def MBX_EVT_TAIL_TAIL : Fld := MBX_EVT_TAIL.fld 0 8
/-- MBX_EVT_LOST (R126); class F. -/
def MBX_EVT_LOST : Reg := ⟨0x10010, 0x0⟩
def MBX_EVT_LOST_COUNT : Fld := MBX_EVT_LOST.fld 0 32
/-- MBX_DB[0..15] (R126); class none. -/
def MBX_DB (n : Nat) : Reg := ⟨0x10100 + 8 * n, 0x0⟩
def MBX_DB_RING (n : Nat) : Fld := (MBX_DB n).fld 0 1
/-- MBX_CH_STAT[0..15] (R126); class F. -/
def MBX_CH_STAT (n : Nat) : Reg := ⟨0x10104 + 8 * n, 0x0⟩
def MBX_CH_STAT_BUSY (n : Nat) : Fld := (MBX_CH_STAT n).fld 0 1
def MBX_CH_STAT_RESP_READY (n : Nat) : Fld := (MBX_CH_STAT n).fld 1 1
def MBX_CH_STAT_DB_WHILE_BUSY (n : Nat) : Fld := (MBX_CH_STAT n).fld 2 1
def MBX_CH_STAT_BUF_WRITE_DROPPED (n : Nat) : Fld := (MBX_CH_STAT n).fld 3 1
def MBX_CH_STAT_LAST_SEQ (n : Nat) : Fld := (MBX_CH_STAT n).fld 16 16
/-- PWR_STATUS (R117); class H, P. -/
def PWR_STATUS : Reg := ⟨0x20000, 0x80⟩
def PWR_STATUS_BOD_WARN : Fld := PWR_STATUS.fld 0 1
def PWR_STATUS_MRAM_HOLD : Fld := PWR_STATUS.fld 1 1
def PWR_STATUS_THERM_WARN : Fld := PWR_STATUS.fld 2 1
def PWR_STATUS_THERM_CRIT : Fld := PWR_STATUS.fld 3 1
def PWR_STATUS_QUIET_REFUSED : Fld := PWR_STATUS.fld 4 1
def PWR_STATUS_MON_CFG_REJECT : Fld := PWR_STATUS.fld 5 1
def PWR_STATUS_DOM_ILLEGAL : Fld := PWR_STATUS.fld 6 1
def PWR_STATUS_DEFAULTS_RESTORED : Fld := PWR_STATUS.fld 7 1
def PWR_STATUS_RAIL_BELOW_WARN : Fld := PWR_STATUS.fld 8 8
/-- PWR_INT_EN (R117); class H. -/
def PWR_INT_EN : Reg := ⟨0x20004, 0x18d⟩
def PWR_INT_EN_BOD_WARN : Fld := PWR_INT_EN.fld 0 1
def PWR_INT_EN_THERM_WARN : Fld := PWR_INT_EN.fld 2 1
def PWR_INT_EN_THERM_CRIT : Fld := PWR_INT_EN.fld 3 1
def PWR_INT_EN_QUIET_REFUSED : Fld := PWR_INT_EN.fld 4 1
def PWR_INT_EN_MON_CFG_REJECT : Fld := PWR_INT_EN.fld 5 1
def PWR_INT_EN_DOM_ILLEGAL : Fld := PWR_INT_EN.fld 6 1
def PWR_INT_EN_NET_WAKE : Fld := PWR_INT_EN.fld 7 2
/-- PWR_BOD_EVENTS (R117); class P. -/
def PWR_BOD_EVENTS : Reg := ⟨0x20008, 0x0⟩
def PWR_BOD_EVENTS_COUNT : Fld := PWR_BOD_EVENTS.fld 0 32
/-- PWR_RAIL_HIST (R117); class P. -/
def PWR_RAIL_HIST : Reg := ⟨0x2000c, 0x0⟩
def PWR_RAIL_HIST_WARN_SEEN : Fld := PWR_RAIL_HIST.fld 0 8
/-- PWR_POR_SOURCE (R117); class P. -/
def PWR_POR_SOURCE : Reg := ⟨0x20010, 0x0⟩
def PWR_POR_SOURCE_RAIL : Fld := PWR_POR_SOURCE.fld 0 8
def PWR_POR_SOURCE_PORST_PIN : Fld := PWR_POR_SOURCE.fld 8 1
def PWR_POR_SOURCE_COLD : Fld := PWR_POR_SOURCE.fld 9 1
/-- PWR_QUIET_CTL (R117); class none. -/
def PWR_QUIET_CTL : Reg := ⟨0x20014, 0x0⟩
def PWR_QUIET_CTL_ENTER : Fld := PWR_QUIET_CTL.fld 0 1
def PWR_QUIET_CTL_WAKE : Fld := PWR_QUIET_CTL.fld 1 1
/-- PWR_WAKE_CAUSE (R117); class H, P. -/
def PWR_WAKE_CAUSE : Reg := ⟨0x20018, 0x0⟩
def PWR_WAKE_CAUSE_FROM_QUIET : Fld := PWR_WAKE_CAUSE.fld 0 1
def PWR_WAKE_CAUSE_BY_SVC : Fld := PWR_WAKE_CAUSE.fld 1 1
def PWR_WAKE_CAUSE_BY_PIN : Fld := PWR_WAKE_CAUSE.fld 2 1
def PWR_WAKE_CAUSE_NET_WAKE : Fld := PWR_WAKE_CAUSE.fld 3 2
/-- PWR_AVS_TARGET (R117); class N. -/
def PWR_AVS_TARGET : Reg := ⟨0x20020, 0x0⟩
def PWR_AVS_TARGET_STEP : Fld := PWR_AVS_TARGET.fld 0 5
/-- PWR_TEMP (R117); class H. -/
def PWR_TEMP : Reg := ⟨0x20024, 0x0⟩
def PWR_TEMP_TEMP : Fld := PWR_TEMP.fld 0 9
/-- PWR_THERM_WARN_LEVEL (R117); class H. -/
def PWR_THERM_WARN_LEVEL : Reg := ⟨0x20028, 0x64⟩
def PWR_THERM_WARN_LEVEL_LEVEL : Fld := PWR_THERM_WARN_LEVEL.fld 0 8
/-- PWR_THERM_CRIT_LEVEL (R117); class H. -/
def PWR_THERM_CRIT_LEVEL : Reg := ⟨0x2002c, 0x6e⟩
def PWR_THERM_CRIT_LEVEL_LEVEL : Fld := PWR_THERM_CRIT_LEVEL.fld 0 8
/-- PWR_MON_CFG[0..7] (R117); class P. -/
def PWR_MON_CFG (n : Nat) : Reg := ⟨0x20040 + 4 * n, monDefault n⟩
def PWR_MON_CFG_WARN_MV (n : Nat) : Fld := (PWR_MON_CFG n).fld 0 12
def PWR_MON_CFG_RESET_MV (n : Nat) : Fld := (PWR_MON_CFG n).fld 16 12
/-- PWR_DOM_CTL[0..247] (R117); class H. -/
def PWR_DOM_CTL (n : Nat) : Reg := ⟨0x20400 + 4 * n, 0xa⟩
def PWR_DOM_CTL_REQ (n : Nat) : Fld := (PWR_DOM_CTL n).fld 0 2
def PWR_DOM_CTL_CUR (n : Nat) : Fld := (PWR_DOM_CTL n).fld 2 2
def PWR_DOM_CTL_BUSY (n : Nat) : Fld := (PWR_DOM_CTL n).fld 4 1
/-- REF_STATUS (R467); class H. -/
def REF_STATUS : Reg := ⟨0x30000, 0x100⟩
def REF_STATUS_SWITCH : Fld := REF_STATUS.fld 0 1
def REF_STATUS_HOLDOVER : Fld := REF_STATUS.fld 1 1
def REF_STATUS_FREERUN : Fld := REF_STATUS.fld 2 1
def REF_STATUS_DISAGREE : Fld := REF_STATUS.fld 3 1
def REF_STATUS_DISQUALIFIED : Fld := REF_STATUS.fld 4 1
def REF_STATUS_PHASE_HIT : Fld := REF_STATUS.fld 5 1
def REF_STATUS_LO_MISSING : Fld := REF_STATUS.fld 6 1
def REF_STATUS_FOLLOW_MISS : Fld := REF_STATUS.fld 7 1
def REF_STATUS_DEFAULTS_RESTORED : Fld := REF_STATUS.fld 8 1
/-- REF_INT_EN (R467); class H. -/
def REF_INT_EN : Reg := ⟨0x30004, 0xff⟩
def REF_INT_EN_SWITCH : Fld := REF_INT_EN.fld 0 1
def REF_INT_EN_HOLDOVER : Fld := REF_INT_EN.fld 1 1
def REF_INT_EN_FREERUN : Fld := REF_INT_EN.fld 2 1
def REF_INT_EN_DISAGREE : Fld := REF_INT_EN.fld 3 1
def REF_INT_EN_DISQUALIFIED : Fld := REF_INT_EN.fld 4 1
def REF_INT_EN_PHASE_HIT : Fld := REF_INT_EN.fld 5 1
def REF_INT_EN_LO_MISSING : Fld := REF_INT_EN.fld 6 1
def REF_INT_EN_FOLLOW_MISS : Fld := REF_INT_EN.fld 7 1
/-- REF_CFG (R467); class H. -/
def REF_CFG : Reg := ⟨0x30008, 0xa0064⟩
def REF_CFG_DISAGREE_LIMIT : Fld := REF_CFG.fld 0 16
def REF_CFG_SLEW_MAX : Fld := REF_CFG.fld 16 10
/-- REF_LO (R467); class H, N. -/
def REF_LO : Reg := ⟨0x3000c, 0x0⟩
def REF_LO_PRESENT : Fld := REF_LO.fld 0 1
def REF_LO_CAL_VALID : Fld := REF_LO.fld 1 1
/-- REF_LO_CAL (R467); class N. -/
def REF_LO_CAL : Reg := ⟨0x30010, 0x0⟩
def REF_LO_CAL_LO_CAL : Fld := REF_LO_CAL.fld 0 32
/-- REF_CAND_CFG[0..4] (R467); class H. -/
def REF_CAND_CFG (n : Nat) : Reg := ⟨0x30100 + 4 * n, 0xc800⟩
def REF_CAND_CFG_KIND (n : Nat) : Fld := (REF_CAND_CFG n).fld 0 2
def REF_CAND_CFG_PERIOD_FMT (n : Nat) : Fld := (REF_CAND_CFG n).fld 2 5
def REF_CAND_CFG_ACCEPT (n : Nat) : Fld := (REF_CAND_CFG n).fld 8 12
/-- REF_CAND_RANK[0..4] (R467); class H. -/
def REF_CAND_RANK (n : Nat) : Reg := ⟨0x30120 + 4 * n, 0x1f40000⟩
def REF_CAND_RANK_RANK_TP0 (n : Nat) : Fld := (REF_CAND_RANK n).fld 0 3
def REF_CAND_RANK_RANK_TP1 (n : Nat) : Fld := (REF_CAND_RANK n).fld 4 3
def REF_CAND_RANK_REJECT (n : Nat) : Fld := (REF_CAND_RANK n).fld 16 13
/-- REF_CAND_STAT[0..4] (R467); class H. -/
def REF_CAND_STAT (n : Nat) : Reg := ⟨0x30140 + 4 * n, 0x0⟩
def REF_CAND_STAT_STATE (n : Nat) : Fld := (REF_CAND_STAT n).fld 0 3
def REF_CAND_STAT_CAUSE (n : Nat) : Fld := (REF_CAND_STAT n).fld 3 2
def REF_CAND_STAT_IN_ACCEPT (n : Nat) : Fld := (REF_CAND_STAT n).fld 5 1
def REF_CAND_STAT_GOOD_WINDOWS (n : Nat) : Fld := (REF_CAND_STAT n).fld 6 3
def REF_CAND_STAT_QUAL_SEEN (n : Nat) : Fld := (REF_CAND_STAT n).fld 16 1
def REF_CAND_STAT_DISQ_SEEN (n : Nat) : Fld := (REF_CAND_STAT n).fld 17 1
def REF_CAND_STAT_NOISY_SEEN (n : Nat) : Fld := (REF_CAND_STAT n).fld 18 1
/-- REF_CAND_OFFSET[0..4] (R467); class H. -/
def REF_CAND_OFFSET (n : Nat) : Reg := ⟨0x30160 + 4 * n, 0x0⟩
def REF_CAND_OFFSET_OFFSET (n : Nat) : Fld := (REF_CAND_OFFSET n).fld 0 32
/-- REF_CAND_PHASE[0..4][0..1] (R467); class H. -/
def REF_CAND_PHASE (n : Nat) (m : Nat) : Reg := ⟨0x30180 + 8 * n + 4 * m, 0x0⟩
def REF_CAND_PHASE_PHASE (n : Nat) (m : Nat) : Fld := (REF_CAND_PHASE n m).fld 0 32
/-- REF_PLANE_CFG[0..1] (R467); class H. -/
def REF_PLANE_CFG (n : Nat) : Reg := ⟨0x30200 + 32 * n, 0xa20⟩
def REF_PLANE_CFG_FORMAT (n : Nat) : Fld := (REF_PLANE_CFG n).fld 0 5
def REF_PLANE_CFG_REVERTIVE (n : Nat) : Fld := (REF_PLANE_CFG n).fld 5 1
def REF_PLANE_CFG_WTR (n : Nat) : Fld := (REF_PLANE_CFG n).fld 8 8
/-- REF_PLANE_STAT[0..1] (R467); class H. -/
def REF_PLANE_STAT (n : Nat) : Reg := ⟨0x30204 + 32 * n, 0x38⟩
def REF_PLANE_STAT_STATE (n : Nat) : Fld := (REF_PLANE_STAT n).fld 0 3
def REF_PLANE_STAT_SELECTED (n : Nat) : Fld := (REF_PLANE_STAT n).fld 3 3
def REF_PLANE_STAT_PHASE_FREE (n : Nat) : Fld := (REF_PLANE_STAT n).fld 6 1
def REF_PLANE_STAT_MODEL_VALID (n : Nat) : Fld := (REF_PLANE_STAT n).fld 7 1
def REF_PLANE_STAT_SWITCH_SEEN (n : Nat) : Fld := (REF_PLANE_STAT n).fld 16 1
def REF_PLANE_STAT_HOLDOVER_SEEN (n : Nat) : Fld := (REF_PLANE_STAT n).fld 17 1
def REF_PLANE_STAT_FREERUN_SEEN (n : Nat) : Fld := (REF_PLANE_STAT n).fld 18 1
def REF_PLANE_STAT_FOLLOW_MISS (n : Nat) : Fld := (REF_PLANE_STAT n).fld 19 1
def REF_PLANE_STAT_PHASE_HIT (n : Nat) : Fld := (REF_PLANE_STAT n).fld 20 1
/-- REF_PLANE_FREQ[0..1] (R467); class H. -/
def REF_PLANE_FREQ (n : Nat) : Reg := ⟨0x30208 + 32 * n, 0x0⟩
def REF_PLANE_FREQ_FREQ (n : Nat) : Fld := (REF_PLANE_FREQ n).fld 0 32
/-- REF_PLANE_MODEL[0..1] (R467); class H. -/
def REF_PLANE_MODEL (n : Nat) : Reg := ⟨0x3020c + 32 * n, 0x0⟩
def REF_PLANE_MODEL_MODEL (n : Nat) : Fld := (REF_PLANE_MODEL n).fld 0 32
/-- REF_PLANE_BUILDOUT[0..1] (R467); class H. -/
def REF_PLANE_BUILDOUT (n : Nat) : Reg := ⟨0x30210 + 32 * n, 0x0⟩
def REF_PLANE_BUILDOUT_BUILDOUT (n : Nat) : Fld := (REF_PLANE_BUILDOUT n).fld 0 32
/-- REF_PLANE_SWITCHES[0..1] (R467); class H. -/
def REF_PLANE_SWITCHES (n : Nat) : Reg := ⟨0x30214 + 32 * n, 0x0⟩
def REF_PLANE_SWITCHES_COUNT (n : Nat) : Fld := (REF_PLANE_SWITCHES n).fld 0 32
/-- PTP_STATUS (R445); class H. -/
def PTP_STATUS : Reg := ⟨0x40000, 0x40⟩
def PTP_STATUS_STEPPED : Fld := PTP_STATUS.fld 0 1
def PTP_STATUS_HOLDOVER_SEEN : Fld := PTP_STATUS.fld 1 1
def PTP_STATUS_MASTER_CHANGED : Fld := PTP_STATUS.fld 2 1
def PTP_STATUS_JUMP_REFUSED : Fld := PTP_STATUS.fld 3 1
def PTP_STATUS_RXQ_OVF : Fld := PTP_STATUS.fld 4 1
def PTP_STATUS_TXR_OVF : Fld := PTP_STATUS.fld 5 1
def PTP_STATUS_DEFAULTS_RESTORED : Fld := PTP_STATUS.fld 6 1
/-- PTP_INT_EN (R445); class H. -/
def PTP_INT_EN : Reg := ⟨0x40004, 0x3f⟩
def PTP_INT_EN_STEPPED : Fld := PTP_INT_EN.fld 0 1
def PTP_INT_EN_HOLDOVER_SEEN : Fld := PTP_INT_EN.fld 1 1
def PTP_INT_EN_MASTER_CHANGED : Fld := PTP_INT_EN.fld 2 1
def PTP_INT_EN_JUMP_REFUSED : Fld := PTP_INT_EN.fld 3 1
def PTP_INT_EN_RXQ_OVF : Fld := PTP_INT_EN.fld 4 1
def PTP_INT_EN_TXR_OVF : Fld := PTP_INT_EN.fld 5 1
/-- PTP_SYSTIME (R445); class H. -/
def PTP_SYSTIME : Reg := ⟨0x40008, 0x0⟩
def PTP_SYSTIME_NS : Fld := PTP_SYSTIME.fld 0 32
/-- PTP_WRAP (R445); class H. -/
def PTP_WRAP : Reg := ⟨0x4000c, 0x0⟩
def PTP_WRAP_WRAP : Fld := PTP_WRAP.fld 0 32
/-- PTP_SERVO (R445); class H. -/
def PTP_SERVO : Reg := ⟨0x40010, 0x0⟩
def PTP_SERVO_STATE : Fld := PTP_SERVO.fld 0 3
def PTP_SERVO_PORT : Fld := PTP_SERVO.fld 3 1
def PTP_SERVO_EVER_LOCKED : Fld := PTP_SERVO.fld 4 1
/-- PTP_OFFSET (R445); class H. -/
def PTP_OFFSET : Reg := ⟨0x40014, 0x0⟩
def PTP_OFFSET_OFFSET : Fld := PTP_OFFSET.fld 0 32
/-- PTP_FREQ (R445); class H. -/
def PTP_FREQ : Reg := ⟨0x40018, 0x0⟩
def PTP_FREQ_FREQ : Fld := PTP_FREQ.fld 0 32
/-- PTP_MPD (R445); class H. -/
def PTP_MPD : Reg := ⟨0x4001c, 0x0⟩
def PTP_MPD_MPD : Fld := PTP_MPD.fld 0 32
/-- PTP_CFG (R445); class H. -/
def PTP_CFG : Reg := ⟨0x40020, 0x13de7f⟩
def PTP_CFG_DOMAIN : Fld := PTP_CFG.fld 0 8
def PTP_CFG_ANNOUNCE_LOG : Fld := PTP_CFG.fld 8 4
def PTP_CFG_DELAY_REQ_LOG : Fld := PTP_CFG.fld 12 4
def PTP_CFG_ANNOUNCE_TIMEOUT : Fld := PTP_CFG.fld 16 4
def PTP_CFG_BW : Fld := PTP_CFG.fld 20 2
def PTP_CFG_PREF_PORT : Fld := PTP_CFG.fld 22 1
/-- PTP_JUMP_MAX (R445); class H. -/
def PTP_JUMP_MAX : Reg := ⟨0x40024, 0x2710⟩
def PTP_JUMP_MAX_JUMP_MAX : Fld := PTP_JUMP_MAX.fld 0 20
/-- PTP_GM_ID_LO (R445); class H. -/
def PTP_GM_ID_LO : Reg := ⟨0x40028, 0x0⟩
def PTP_GM_ID_LO_ID : Fld := PTP_GM_ID_LO.fld 0 32
/-- PTP_GM_ID_HI (R445); class H. -/
def PTP_GM_ID_HI : Reg := ⟨0x4002c, 0x0⟩
def PTP_GM_ID_HI_ID : Fld := PTP_GM_ID_HI.fld 0 32
/-- PTP_JUMPS (R445); class H. -/
def PTP_JUMPS : Reg := ⟨0x40030, 0x0⟩
def PTP_JUMPS_COUNT : Fld := PTP_JUMPS.fld 0 32
/-- PTP_PORT_CFG[0..1] (R445); class H. -/
def PTP_PORT_CFG (n : Nat) : Reg := ⟨0x40100 + 64 * n, 0x0⟩
def PTP_PORT_CFG_ENABLE (n : Nat) : Fld := (PTP_PORT_CFG n).fld 0 1
/-- PTP_PORT_STAT[0..1] (R445); class H. -/
def PTP_PORT_STAT (n : Nat) : Reg := ⟨0x40104 + 64 * n, 0x0⟩
def PTP_PORT_STAT_PSTATE (n : Nat) : Fld := (PTP_PORT_STAT n).fld 0 2
def PTP_PORT_STAT_RXQ_OVF (n : Nat) : Fld := (PTP_PORT_STAT n).fld 2 1
def PTP_PORT_STAT_TXR_OVF (n : Nat) : Fld := (PTP_PORT_STAT n).fld 3 1
def PTP_PORT_STAT_TXR_STOPPED (n : Nat) : Fld := (PTP_PORT_STAT n).fld 4 1
def PTP_PORT_STAT_RXQ_FILL (n : Nat) : Fld := (PTP_PORT_STAT n).fld 5 7
def PTP_PORT_STAT_TXR_FILL (n : Nat) : Fld := (PTP_PORT_STAT n).fld 12 7
/-- PTP_RXQ_LOST[0..1] (R445); class H. -/
def PTP_RXQ_LOST (n : Nat) : Reg := ⟨0x40108 + 64 * n, 0x0⟩
def PTP_RXQ_LOST_COUNT (n : Nat) : Fld := (PTP_RXQ_LOST n).fld 0 32
/-- PTP_TXR_LOST[0..1] (R445); class H. -/
def PTP_TXR_LOST (n : Nat) : Reg := ⟨0x4010c + 64 * n, 0x0⟩
def PTP_TXR_LOST_COUNT (n : Nat) : Fld := (PTP_TXR_LOST n).fld 0 32
/-- PTP_RXQ_HEAD[0..1][0..3] (R445); class H. -/
def PTP_RXQ_HEAD (n : Nat) (m : Nat) : Reg := ⟨0x40110 + 64 * n + 4 * m, 0x0⟩
def PTP_RXQ_HEAD_WORD (n : Nat) (m : Nat) : Fld := (PTP_RXQ_HEAD n m).fld 0 32
/-- PTP_TXR_HEAD[0..1][0..3] (R445); class H. -/
def PTP_TXR_HEAD (n : Nat) (m : Nat) : Reg := ⟨0x40120 + 64 * n + 4 * m, 0x0⟩
def PTP_TXR_HEAD_WORD (n : Nat) (m : Nat) : Fld := (PTP_TXR_HEAD n m).fld 0 32
/-- PTP_REC_CTL[0..1] (R445); class none. -/
def PTP_REC_CTL (n : Nat) : Reg := ⟨0x40130 + 64 * n, 0x0⟩
def PTP_REC_CTL_RXQ_POP (n : Nat) : Fld := (PTP_REC_CTL n).fld 0 1
def PTP_REC_CTL_TXR_POP (n : Nat) : Fld := (PTP_REC_CTL n).fld 1 1
/-- XPT_STATUS (R194); class H. -/
def XPT_STATUS : Reg := ⟨0x80000, 0x40⟩
def XPT_STATUS_TAKE_APPLIED_TP0 : Fld := XPT_STATUS.fld 0 1
def XPT_STATUS_TAKE_APPLIED_TP1 : Fld := XPT_STATUS.fld 1 1
def XPT_STATUS_LOSS : Fld := XPT_STATUS.fld 2 1
def XPT_STATUS_HOLD_UNAVAILABLE : Fld := XPT_STATUS.fld 3 1
def XPT_STATUS_SLATE_MISMATCH : Fld := XPT_STATUS.fld 4 1
def XPT_STATUS_QUEUE_FULL : Fld := XPT_STATUS.fld 5 1
def XPT_STATUS_DEFAULTS_RESTORED : Fld := XPT_STATUS.fld 6 1
def XPT_STATUS_TP_LOCKED : Fld := XPT_STATUS.fld 7 2
/-- XPT_INT_EN (R194); class H. -/
def XPT_INT_EN : Reg := ⟨0x80004, 0x3c⟩
def XPT_INT_EN_TAKE_APPLIED : Fld := XPT_INT_EN.fld 0 2
def XPT_INT_EN_LOSS : Fld := XPT_INT_EN.fld 2 1
def XPT_INT_EN_HOLD_UNAVAILABLE : Fld := XPT_INT_EN.fld 3 1
def XPT_INT_EN_SLATE_MISMATCH : Fld := XPT_INT_EN.fld 4 1
def XPT_INT_EN_QUEUE_FULL : Fld := XPT_INT_EN.fld 5 1
/-- XPT_EPOCH[0..1] (R194); class H. -/
def XPT_EPOCH (n : Nat) : Reg := ⟨0x80010 + 4 * n, 0x0⟩
def XPT_EPOCH_EPOCH (n : Nat) : Fld := (XPT_EPOCH n).fld 0 32
/-- XPT_BOUNDARY_TIME[0..1] (R194); class H. -/
def XPT_BOUNDARY_TIME (n : Nat) : Reg := ⟨0x80018 + 4 * n, 0x0⟩
def XPT_BOUNDARY_TIME_SYSTIME (n : Nat) : Fld := (XPT_BOUNDARY_TIME n).fld 0 32
/-- XPT_UNITS (R194); class H. -/
def XPT_UNITS : Reg := ⟨0x80020, 0x0⟩
def XPT_UNITS_ADMITTED : Fld := XPT_UNITS.fld 0 11
def XPT_UNITS_CAPACITY : Fld := XPT_UNITS.fld 16 11
/-- XPT_QUEUE (R194); class H. -/
def XPT_QUEUE : Reg := ⟨0x80024, 0x0⟩
def XPT_QUEUE_PENDING : Fld := XPT_QUEUE.fld 0 13
/-- XPT_GEN_CTL[0..7] (R194); class H. -/
def XPT_GEN_CTL (n : Nat) : Reg := ⟨0x80100 + 4 * n, 0x0⟩
def XPT_GEN_CTL_PATTERN (n : Nat) : Fld := (XPT_GEN_CTL n).fld 0 3
def XPT_GEN_CTL_PLANE (n : Nat) : Fld := (XPT_GEN_CTL n).fld 3 1
def XPT_GEN_CTL_ENABLE (n : Nat) : Fld := (XPT_GEN_CTL n).fld 4 1
def XPT_GEN_CTL_FORMAT (n : Nat) : Fld := (XPT_GEN_CTL n).fld 8 5
/-- XPT_GEN_COLOUR[0..7] (R194); class H. -/
def XPT_GEN_COLOUR (n : Nat) : Reg := ⟨0x80120 + 4 * n, 0x20080040⟩
def XPT_GEN_COLOUR_Y (n : Nat) : Fld := (XPT_GEN_COLOUR n).fld 0 10
def XPT_GEN_COLOUR_CB (n : Nat) : Fld := (XPT_GEN_COLOUR n).fld 10 10
def XPT_GEN_COLOUR_CR (n : Nat) : Fld := (XPT_GEN_COLOUR n).fld 20 10
/-- XPT_DST_CTL[0..383] (R194); class H. -/
def XPT_DST_CTL (n : Nat) : Reg := ⟨0x81000 + 4 * n, 0x0⟩
def XPT_DST_CTL_SOURCE (n : Nat) : Fld := (XPT_DST_CTL n).fld 0 9
def XPT_DST_CTL_ROUTED (n : Nat) : Fld := (XPT_DST_CTL n).fld 9 1
def XPT_DST_CTL_PLANE (n : Nat) : Fld := (XPT_DST_CTL n).fld 10 1
def XPT_DST_CTL_LOSS_ACTION (n : Nat) : Fld := (XPT_DST_CTL n).fld 11 2
def XPT_DST_CTL_SLATE_GEN (n : Nat) : Fld := (XPT_DST_CTL n).fld 13 3
def XPT_DST_CTL_FIELD_TAKE (n : Nat) : Fld := (XPT_DST_CTL n).fld 16 1
def XPT_DST_CTL_AUD_VFADE (n : Nat) : Fld := (XPT_DST_CTL n).fld 17 1
def XPT_DST_CTL_QUAD (n : Nat) : Fld := (XPT_DST_CTL n).fld 18 1
def XPT_DST_CTL_CROSS_PLANE (n : Nat) : Fld := (XPT_DST_CTL n).fld 19 1
def XPT_DST_CTL_RATE_CLASS (n : Nat) : Fld := (XPT_DST_CTL n).fld 20 3
def XPT_DST_CTL_FORMAT (n : Nat) : Fld := (XPT_DST_CTL n).fld 23 5
/-- XPT_DST_STAT[0..383] (R194); class H. -/
def XPT_DST_STAT (n : Nat) : Reg := ⟨0x82000 + 4 * n, 0x0⟩
def XPT_DST_STAT_SOURCE_LOST (n : Nat) : Fld := (XPT_DST_STAT n).fld 0 1
def XPT_DST_STAT_LOSS_ACTIVE (n : Nat) : Fld := (XPT_DST_STAT n).fld 1 1
def XPT_DST_STAT_ACTION_TAKEN (n : Nat) : Fld := (XPT_DST_STAT n).fld 2 2
def XPT_DST_STAT_HOLD_UNAVAILABLE (n : Nat) : Fld := (XPT_DST_STAT n).fld 4 1
def XPT_DST_STAT_SLATE_MISMATCH (n : Nat) : Fld := (XPT_DST_STAT n).fld 5 1
def XPT_DST_STAT_FORMAT_CHANGED (n : Nat) : Fld := (XPT_DST_STAT n).fld 6 1
def XPT_DST_STAT_LOSS_COUNT (n : Nat) : Fld := (XPT_DST_STAT n).fld 16 16
/-- FSY_STATUS (R221); class H. -/
def FSY_STATUS : Reg := ⟨0xc0000, 0x200⟩
def FSY_STATUS_PROMOTED : Fld := FSY_STATUS.fld 0 1
def FSY_STATUS_INVALID : Fld := FSY_STATUS.fld 1 1
def FSY_STATUS_FORMAT_MISMATCH : Fld := FSY_STATUS.fld 2 1
def FSY_STATUS_OUT_OF_WINDOW : Fld := FSY_STATUS.fld 3 1
def FSY_STATUS_QUAD_FAULT : Fld := FSY_STATUS.fld 4 1
def FSY_STATUS_SLIP : Fld := FSY_STATUS.fld 5 1
def FSY_STATUS_FOLLOW_MISS : Fld := FSY_STATUS.fld 6 1
def FSY_STATUS_ECC_CONCEAL : Fld := FSY_STATUS.fld 7 1
def FSY_STATUS_PID_DISAGREE : Fld := FSY_STATUS.fld 8 1
def FSY_STATUS_DEFAULTS_RESTORED : Fld := FSY_STATUS.fld 9 1
/-- FSY_INT_EN (R221); class H. -/
def FSY_INT_EN : Reg := ⟨0xc0004, 0xdf⟩
def FSY_INT_EN_PROMOTED : Fld := FSY_INT_EN.fld 0 1
def FSY_INT_EN_INVALID : Fld := FSY_INT_EN.fld 1 1
def FSY_INT_EN_FORMAT_MISMATCH : Fld := FSY_INT_EN.fld 2 1
def FSY_INT_EN_OUT_OF_WINDOW : Fld := FSY_INT_EN.fld 3 1
def FSY_INT_EN_QUAD_FAULT : Fld := FSY_INT_EN.fld 4 1
def FSY_INT_EN_SLIP : Fld := FSY_INT_EN.fld 5 1
def FSY_INT_EN_FOLLOW_MISS : Fld := FSY_INT_EN.fld 6 1
def FSY_INT_EN_ECC_CONCEAL : Fld := FSY_INT_EN.fld 7 1
def FSY_INT_EN_PID_DISAGREE : Fld := FSY_INT_EN.fld 8 1
/-- FSY_SRC_CTL[0..331] (R221); class H. -/
def FSY_SRC_CTL (n : Nat) : Reg := ⟨0xc1000 + 4 * n, 0x0⟩
def FSY_SRC_CTL_PLANE (n : Nat) : Fld := (FSY_SRC_CTL n).fld 0 1
def FSY_SRC_CTL_ALLOW_FS (n : Nat) : Fld := (FSY_SRC_CTL n).fld 1 1
def FSY_SRC_CTL_FORMAT (n : Nat) : Fld := (FSY_SRC_CTL n).fld 2 5
def FSY_SRC_CTL_RATE_CLASS (n : Nat) : Fld := (FSY_SRC_CTL n).fld 8 3
def FSY_SRC_CTL_QUAD (n : Nat) : Fld := (FSY_SRC_CTL n).fld 11 1
/-- FSY_SRC_STAT[0..331] (R221); class H. -/
def FSY_SRC_STAT (n : Nat) : Reg := ⟨0xc2000 + 4 * n, 0x100⟩
def FSY_SRC_STAT_VALID (n : Nat) : Fld := (FSY_SRC_STAT n).fld 0 1
def FSY_SRC_STAT_PROMOTED (n : Nat) : Fld := (FSY_SRC_STAT n).fld 1 1
def FSY_SRC_STAT_IN_WINDOW (n : Nat) : Fld := (FSY_SRC_STAT n).fld 2 1
def FSY_SRC_STAT_DET_FORMAT (n : Nat) : Fld := (FSY_SRC_STAT n).fld 3 5
def FSY_SRC_STAT_CAUSE (n : Nat) : Fld := (FSY_SRC_STAT n).fld 8 4
def FSY_SRC_STAT_INVALID_SEEN (n : Nat) : Fld := (FSY_SRC_STAT n).fld 16 1
def FSY_SRC_STAT_PROMOTE_SEEN (n : Nat) : Fld := (FSY_SRC_STAT n).fld 17 1
def FSY_SRC_STAT_REPEAT_SEEN (n : Nat) : Fld := (FSY_SRC_STAT n).fld 18 1
def FSY_SRC_STAT_DROP_SEEN (n : Nat) : Fld := (FSY_SRC_STAT n).fld 19 1
def FSY_SRC_STAT_MISMATCH_SEEN (n : Nat) : Fld := (FSY_SRC_STAT n).fld 20 1
def FSY_SRC_STAT_PID_DISAGREE (n : Nat) : Fld := (FSY_SRC_STAT n).fld 21 1
def FSY_SRC_STAT_FOLLOW_MISS (n : Nat) : Fld := (FSY_SRC_STAT n).fld 22 1
def FSY_SRC_STAT_ECC_CONCEAL (n : Nat) : Fld := (FSY_SRC_STAT n).fld 23 1
def FSY_SRC_STAT_BADLINE_SEEN (n : Nat) : Fld := (FSY_SRC_STAT n).fld 24 1
/-- FSY_SRC_OFFSET[0..331] (R221); class H. -/
def FSY_SRC_OFFSET (n : Nat) : Reg := ⟨0xc3000 + 4 * n, 0x0⟩
def FSY_SRC_OFFSET_OFFSET (n : Nat) : Fld := (FSY_SRC_OFFSET n).fld 0 20
/-- FSY_SRC_DELAY[0..331] (R221); class H. -/
def FSY_SRC_DELAY (n : Nat) : Reg := ⟨0xc4000 + 4 * n, 0x0⟩
def FSY_SRC_DELAY_DELAY_NS (n : Nat) : Fld := (FSY_SRC_DELAY n).fld 0 32
/-- FSY_SRC_CNT[0..331] (R221); class H. -/
def FSY_SRC_CNT (n : Nat) : Reg := ⟨0xc5000 + 4 * n, 0x0⟩
def FSY_SRC_CNT_REPEATS (n : Nat) : Fld := (FSY_SRC_CNT n).fld 0 16
def FSY_SRC_CNT_DROPS (n : Nat) : Fld := (FSY_SRC_CNT n).fld 16 16
/-- FSY_SRC_BADLINES[0..331] (R221); class H. -/
def FSY_SRC_BADLINES (n : Nat) : Reg := ⟨0xc6000 + 4 * n, 0x0⟩
def FSY_SRC_BADLINES_COUNT (n : Nat) : Fld := (FSY_SRC_BADLINES n).fld 0 32
/-- FSY_XPL_CNT[0..331] (R221); class H. -/
def FSY_XPL_CNT (n : Nat) : Reg := ⟨0xc7000 + 4 * n, 0x0⟩
def FSY_XPL_CNT_REPEATS (n : Nat) : Fld := (FSY_XPL_CNT n).fld 0 16
def FSY_XPL_CNT_DROPS (n : Nat) : Fld := (FSY_XPL_CNT n).fld 16 16
/-- LBS_STATUS (R245); class H. -/
def LBS_STATUS : Reg := ⟨0x100000, 0x40⟩
def LBS_STATUS_GAP_RECORDED : Fld := LBS_STATUS.fld 0 1
def LBS_STATUS_GAP_PLAYED : Fld := LBS_STATUS.fld 1 1
def LBS_STATUS_ECC_CONCEAL : Fld := LBS_STATUS.fld 2 1
def LBS_STATUS_PAUSE_EXPIRED : Fld := LBS_STATUS.fld 3 1
def LBS_STATUS_CFG_REFUSED : Fld := LBS_STATUS.fld 4 1
def LBS_STATUS_HALTED : Fld := LBS_STATUS.fld 5 1
def LBS_STATUS_DEFAULTS_RESTORED : Fld := LBS_STATUS.fld 6 1
/-- LBS_INT_EN (R245); class H. -/
def LBS_INT_EN : Reg := ⟨0x100004, 0x3c⟩
def LBS_INT_EN_GAP_RECORDED : Fld := LBS_INT_EN.fld 0 1
def LBS_INT_EN_GAP_PLAYED : Fld := LBS_INT_EN.fld 1 1
def LBS_INT_EN_ECC_CONCEAL : Fld := LBS_INT_EN.fld 2 1
def LBS_INT_EN_PAUSE_EXPIRED : Fld := LBS_INT_EN.fld 3 1
def LBS_INT_EN_CFG_REFUSED : Fld := LBS_INT_EN.fld 4 1
def LBS_INT_EN_HALTED : Fld := LBS_INT_EN.fld 5 1
/-- LBS_SPACE (R245); class H. -/
def LBS_SPACE : Reg := ⟨0x100008, 0x0⟩
def LBS_SPACE_TOTAL : Fld := LBS_SPACE.fld 0 16
def LBS_SPACE_FREE : Fld := LBS_SPACE.fld 16 16
/-- LBS_REC_CTL[0..47] (R245); class H. -/
def LBS_REC_CTL (n : Nat) : Reg := ⟨0x101000 + 4 * n, 0x0⟩
def LBS_REC_CTL_ENABLE (n : Nat) : Fld := (LBS_REC_CTL n).fld 0 1
def LBS_REC_CTL_PLANE (n : Nat) : Fld := (LBS_REC_CTL n).fld 1 1
def LBS_REC_CTL_FORMAT (n : Nat) : Fld := (LBS_REC_CTL n).fld 2 5
def LBS_REC_CTL_RATE_CLASS (n : Nat) : Fld := (LBS_REC_CTL n).fld 8 3
def LBS_REC_CTL_ROUTED (n : Nat) : Fld := (LBS_REC_CTL n).fld 11 1
/-- LBS_REC_REGION[0..47] (R245); class H. -/
def LBS_REC_REGION (n : Nat) : Reg := ⟨0x101100 + 4 * n, 0x0⟩
def LBS_REC_REGION_BASE (n : Nat) : Fld := (LBS_REC_REGION n).fld 0 16
def LBS_REC_REGION_SIZE (n : Nat) : Fld := (LBS_REC_REGION n).fld 16 16
/-- LBS_REC_DEPTH[0..47] (R245); class H. -/
def LBS_REC_DEPTH (n : Nat) : Reg := ⟨0x101200 + 4 * n, 0x0⟩
def LBS_REC_DEPTH_DEPTH (n : Nat) : Fld := (LBS_REC_DEPTH n).fld 0 24
/-- LBS_REC_HIST[0..47] (R245); class H. -/
def LBS_REC_HIST (n : Nat) : Reg := ⟨0x101300 + 4 * n, 0x0⟩
def LBS_REC_HIST_HISTORY (n : Nat) : Fld := (LBS_REC_HIST n).fld 0 24
def LBS_REC_HIST_FULL (n : Nat) : Fld := (LBS_REC_HIST n).fld 24 1
/-- LBS_REC_GAPS[0..47] (R245); class H. -/
def LBS_REC_GAPS (n : Nat) : Reg := ⟨0x101400 + 4 * n, 0x0⟩
def LBS_REC_GAPS_COUNT (n : Nat) : Fld := (LBS_REC_GAPS n).fld 0 32
/-- LBS_PB_CTL[0..47] (R245); class H. -/
def LBS_PB_CTL (n : Nat) : Reg := ⟨0x102000 + 4 * n, 0x0⟩
def LBS_PB_CTL_ENABLE (n : Nat) : Fld := (LBS_PB_CTL n).fld 0 1
def LBS_PB_CTL_MODE (n : Nat) : Fld := (LBS_PB_CTL n).fld 1 1
def LBS_PB_CTL_CARAFE (n : Nat) : Fld := (LBS_PB_CTL n).fld 2 6
def LBS_PB_CTL_DELAY (n : Nat) : Fld := (LBS_PB_CTL n).fld 8 24
/-- LBS_PB_STAT[0..47] (R245); class H. -/
def LBS_PB_STAT (n : Nat) : Reg := ⟨0x102100 + 4 * n, 0x0⟩
def LBS_PB_STAT_CUR_DELAY (n : Nat) : Fld := (LBS_PB_STAT n).fld 0 24
def LBS_PB_STAT_SHORT (n : Nat) : Fld := (LBS_PB_STAT n).fld 24 1
def LBS_PB_STAT_GAP_SEEN (n : Nat) : Fld := (LBS_PB_STAT n).fld 25 1
def LBS_PB_STAT_CONCEAL_SEEN (n : Nat) : Fld := (LBS_PB_STAT n).fld 26 1
def LBS_PB_STAT_PAUSE_EXPIRED (n : Nat) : Fld := (LBS_PB_STAT n).fld 27 1
/-- LBS_PB_CNT[0..47] (R245); class H. -/
def LBS_PB_CNT (n : Nat) : Reg := ⟨0x102200 + 4 * n, 0x0⟩
def LBS_PB_CNT_GAP_FRAMES (n : Nat) : Fld := (LBS_PB_CNT n).fld 0 16
def LBS_PB_CNT_CONCEAL_LINES (n : Nat) : Fld := (LBS_PB_CNT n).fld 16 16
/-- DMC_STATUS (R277); class H. -/
def DMC_STATUS : Reg := ⟨0x140000, 0x300⟩
def DMC_STATUS_CE : Fld := DMC_STATUS.fld 0 1
def DMC_STATUS_UE : Fld := DMC_STATUS.fld 1 1
def DMC_STATUS_ALERT : Fld := DMC_STATUS.fld 2 1
def DMC_STATUS_CH_FAILED : Fld := DMC_STATUS.fld 3 1
def DMC_STATUS_DEV_DEGRADED : Fld := DMC_STATUS.fld 4 1
def DMC_STATUS_EYE_NARROW : Fld := DMC_STATUS.fld 5 1
def DMC_STATUS_NOACC : Fld := DMC_STATUS.fld 6 1
def DMC_STATUS_TRAIN_FAILED : Fld := DMC_STATUS.fld 7 1
def DMC_STATUS_DEFAULTS_RESTORED : Fld := DMC_STATUS.fld 8 1
def DMC_STATUS_DRAM_DOWN : Fld := DMC_STATUS.fld 9 1
/-- DMC_INT_EN (R277); class H. -/
def DMC_INT_EN : Reg := ⟨0x140004, 0xbe⟩
def DMC_INT_EN_CE : Fld := DMC_INT_EN.fld 0 1
def DMC_INT_EN_UE : Fld := DMC_INT_EN.fld 1 1
def DMC_INT_EN_ALERT : Fld := DMC_INT_EN.fld 2 1
def DMC_INT_EN_CH_FAILED : Fld := DMC_INT_EN.fld 3 1
def DMC_INT_EN_DEV_DEGRADED : Fld := DMC_INT_EN.fld 4 1
def DMC_INT_EN_EYE_NARROW : Fld := DMC_INT_EN.fld 5 1
def DMC_INT_EN_NOACC : Fld := DMC_INT_EN.fld 6 1
def DMC_INT_EN_TRAIN_FAILED : Fld := DMC_INT_EN.fld 7 1
/-- DMC_LAYOUT (R277); class H. -/
def DMC_LAYOUT : Reg := ⟨0x140008, 0x0⟩
def DMC_LAYOUT_ENABLED : Fld := DMC_LAYOUT.fld 0 8
def DMC_LAYOUT_USABLE : Fld := DMC_LAYOUT.fld 8 8
def DMC_LAYOUT_S_GIB : Fld := DMC_LAYOUT.fld 16 10
/-- DMC_CFG (R277); class H. -/
def DMC_CFG : Reg := ⟨0x14000c, 0x181010⟩
def DMC_CFG_UE_LIMIT : Fld := DMC_CFG.fld 0 8
def DMC_CFG_EYE_MIN : Fld := DMC_CFG.fld 8 8
def DMC_CFG_SCRUB_HOURS : Fld := DMC_CFG.fld 16 8
/-- DMC_CH_STAT[0..7] (R277); class H. -/
def DMC_CH_STAT (n : Nat) : Reg := ⟨0x141000 + 4096 * n, 0x0⟩
def DMC_CH_STAT_STATE (n : Nat) : Fld := (DMC_CH_STAT n).fld 0 3
def DMC_CH_STAT_CAUSE (n : Nat) : Fld := (DMC_CH_STAT n).fld 4 4
def DMC_CH_STAT_TEMP_2X (n : Nat) : Fld := (DMC_CH_STAT n).fld 8 1
/-- DMC_CH_DIMM[0..7] (R277); class H. -/
def DMC_CH_DIMM (n : Nat) : Reg := ⟨0x141004 + 4096 * n, 0x0⟩
def DMC_CH_DIMM_SIZE_GIB (n : Nat) : Fld := (DMC_CH_DIMM n).fld 0 10
def DMC_CH_DIMM_RANKS (n : Nat) : Fld := (DMC_CH_DIMM n).fld 10 2
def DMC_CH_DIMM_DENSITY (n : Nat) : Fld := (DMC_CH_DIMM n).fld 12 1
/-- DMC_CE_COUNT[0..7] (R277); class H. -/
def DMC_CE_COUNT (n : Nat) : Reg := ⟨0x141008 + 4096 * n, 0x0⟩
def DMC_CE_COUNT_COUNT (n : Nat) : Fld := (DMC_CE_COUNT n).fld 0 32
/-- DMC_UE_COUNT[0..7] (R277); class H. -/
def DMC_UE_COUNT (n : Nat) : Reg := ⟨0x14100c + 4096 * n, 0x0⟩
def DMC_UE_COUNT_COUNT (n : Nat) : Fld := (DMC_UE_COUNT n).fld 0 32
/-- DMC_ERR_ADDR_LO[0..7] (R277); class H. -/
def DMC_ERR_ADDR_LO (n : Nat) : Reg := ⟨0x141010 + 4096 * n, 0x0⟩
def DMC_ERR_ADDR_LO_PA_LO (n : Nat) : Fld := (DMC_ERR_ADDR_LO n).fld 0 32
/-- DMC_ERR_ADDR_HI[0..7] (R277); class H. -/
def DMC_ERR_ADDR_HI (n : Nat) : Reg := ⟨0x141014 + 4096 * n, 0x0⟩
def DMC_ERR_ADDR_HI_PA_HI (n : Nat) : Fld := (DMC_ERR_ADDR_HI n).fld 0 9
/-- DMC_ERR_INFO[0..7] (R277); class H. -/
def DMC_ERR_INFO (n : Nat) : Reg := ⟨0x141018 + 4096 * n, 0x0⟩
def DMC_ERR_INFO_UE (n : Nat) : Fld := (DMC_ERR_INFO n).fld 0 1
def DMC_ERR_INFO_RANK (n : Nat) : Fld := (DMC_ERR_INFO n).fld 1 1
def DMC_ERR_INFO_SUBCH (n : Nat) : Fld := (DMC_ERR_INFO n).fld 2 1
def DMC_ERR_INFO_DEVICE (n : Nat) : Fld := (DMC_ERR_INFO n).fld 3 4
def DMC_ERR_INFO_VALID (n : Nat) : Fld := (DMC_ERR_INFO n).fld 7 1
def DMC_ERR_INFO_SCRUB (n : Nat) : Fld := (DMC_ERR_INFO n).fld 8 1
def DMC_ERR_INFO_SINCE (n : Nat) : Fld := (DMC_ERR_INFO n).fld 16 16
/-- DMC_ALERT_COUNT[0..7] (R277); class H. -/
def DMC_ALERT_COUNT (n : Nat) : Reg := ⟨0x14101c + 4096 * n, 0x0⟩
def DMC_ALERT_COUNT_COUNT (n : Nat) : Fld := (DMC_ALERT_COUNT n).fld 0 32
/-- DMC_NOACC_COUNT[0..7] (R277); class H. -/
def DMC_NOACC_COUNT (n : Nat) : Reg := ⟨0x141020 + 4096 * n, 0x0⟩
def DMC_NOACC_COUNT_COUNT (n : Nat) : Fld := (DMC_NOACC_COUNT n).fld 0 32
/-- DMC_DEV_DEGRADED[0..7][0..1] (R277); class H. -/
def DMC_DEV_DEGRADED (n : Nat) (m : Nat) : Reg := ⟨0x141028 + 4096 * n + 4 * m, 0x0⟩
def DMC_DEV_DEGRADED_DEGRADED (n : Nat) (m : Nat) : Fld := (DMC_DEV_DEGRADED n m).fld 0 20
/-- DMC_RD_DLY[0..7][0..39] (R277); class F, H. -/
def DMC_RD_DLY (n : Nat) (m : Nat) : Reg := ⟨0x141100 + 4096 * n + 4 * m, 0x0⟩
def DMC_RD_DLY_FINE (n : Nat) (m : Nat) : Fld := (DMC_RD_DLY n m).fld 0 8
def DMC_RD_DLY_COARSE (n : Nat) (m : Nat) : Fld := (DMC_RD_DLY n m).fld 8 6
def DMC_RD_DLY_TRIAL_OFFSET (n : Nat) (m : Nat) : Fld := (DMC_RD_DLY n m).fld 16 8
def DMC_RD_DLY_EYE_WIDTH (n : Nat) (m : Nat) : Fld := (DMC_RD_DLY n m).fld 24 8
/-- DMC_WR_DLY[0..7][0..39] (R277); class H. -/
def DMC_WR_DLY (n : Nat) (m : Nat) : Reg := ⟨0x141200 + 4096 * n + 4 * m, 0x0⟩
def DMC_WR_DLY_FINE (n : Nat) (m : Nat) : Fld := (DMC_WR_DLY n m).fld 0 8
def DMC_WR_DLY_COARSE (n : Nat) (m : Nat) : Fld := (DMC_WR_DLY n m).fld 8 6
/-- DMC_DEV_CE[0..7][0..39] (R277); class H. -/
def DMC_DEV_CE (n : Nat) (m : Nat) : Reg := ⟨0x141300 + 4096 * n + 4 * m, 0x0⟩
def DMC_DEV_CE_COUNT (n : Nat) (m : Nat) : Fld := (DMC_DEV_CE n m).fld 0 16
/-- SDI_STATUS (R302); class H. -/
def SDI_STATUS : Reg := ⟨0x200000, 0x80⟩
def SDI_STATUS_LOS : Fld := SDI_STATUS.fld 0 1
def SDI_STATUS_LOCK : Fld := SDI_STATUS.fld 1 1
def SDI_STATUS_CRC : Fld := SDI_STATUS.fld 2 1
def SDI_STATUS_TX_FAULT : Fld := SDI_STATUS.fld 3 1
def SDI_STATUS_NO_REPORT : Fld := SDI_STATUS.fld 4 1
def SDI_STATUS_CDR_MARGIN_LOW : Fld := SDI_STATUS.fld 5 1
def SDI_STATUS_AUD_UNSUPPORTED : Fld := SDI_STATUS.fld 6 1
def SDI_STATUS_DEFAULTS_RESTORED : Fld := SDI_STATUS.fld 7 1
/-- SDI_INT_EN (R302); class H. -/
def SDI_INT_EN : Reg := ⟨0x200004, 0x29⟩
def SDI_INT_EN_LOS : Fld := SDI_INT_EN.fld 0 1
def SDI_INT_EN_LOCK : Fld := SDI_INT_EN.fld 1 1
def SDI_INT_EN_CRC : Fld := SDI_INT_EN.fld 2 1
def SDI_INT_EN_TX_FAULT : Fld := SDI_INT_EN.fld 3 1
def SDI_INT_EN_NO_REPORT : Fld := SDI_INT_EN.fld 4 1
def SDI_INT_EN_CDR_MARGIN_LOW : Fld := SDI_INT_EN.fld 5 1
def SDI_INT_EN_AUD_UNSUPPORTED : Fld := SDI_INT_EN.fld 6 1
/-- SDI_RX_CTL[0..47] (R302); class H. -/
def SDI_RX_CTL (n : Nat) : Reg := ⟨0x201000 + 4 * n, 0x0⟩
def SDI_RX_CTL_MAX_CLASS (n : Nat) : Fld := (SDI_RX_CTL n).fld 0 3
def SDI_RX_CTL_BOND (n : Nat) : Fld := (SDI_RX_CTL n).fld 3 1
def SDI_RX_CTL_CARRIER_GATE (n : Nat) : Fld := (SDI_RX_CTL n).fld 4 1
/-- SDI_RX_STAT[0..47] (R302); class L, H. -/
def SDI_RX_STAT (n : Nat) : Reg := ⟨0x201100 + 4 * n, 0x0⟩
def SDI_RX_STAT_STATE (n : Nat) : Fld := (SDI_RX_STAT n).fld 0 2
def SDI_RX_STAT_RATE (n : Nat) : Fld := (SDI_RX_STAT n).fld 2 4
def SDI_RX_STAT_LEVEL_B (n : Nat) : Fld := (SDI_RX_STAT n).fld 6 1
def SDI_RX_STAT_CARRIER (n : Nat) : Fld := (SDI_RX_STAT n).fld 7 1
def SDI_RX_STAT_PID_VALID (n : Nat) : Fld := (SDI_RX_STAT n).fld 8 1
def SDI_RX_STAT_TC_KIND (n : Nat) : Fld := (SDI_RX_STAT n).fld 9 2
def SDI_RX_STAT_LOS_SEEN (n : Nat) : Fld := (SDI_RX_STAT n).fld 16 1
def SDI_RX_STAT_CRC_SEEN (n : Nat) : Fld := (SDI_RX_STAT n).fld 17 1
def SDI_RX_STAT_EDH_ABSENT (n : Nat) : Fld := (SDI_RX_STAT n).fld 18 1
def SDI_RX_STAT_CDR_MARGIN_LOW (n : Nat) : Fld := (SDI_RX_STAT n).fld 19 1
def SDI_RX_STAT_AUD_UNSUPPORTED (n : Nat) : Fld := (SDI_RX_STAT n).fld 20 1
/-- SDI_RX_CRC[0..47] (R302); class L. -/
def SDI_RX_CRC (n : Nat) : Reg := ⟨0x201200 + 4 * n, 0x0⟩
def SDI_RX_CRC_COUNT (n : Nat) : Fld := (SDI_RX_CRC n).fld 0 32
/-- SDI_RX_LOCKS[0..47] (R302); class H. -/
def SDI_RX_LOCKS (n : Nat) : Reg := ⟨0x201300 + 4 * n, 0x0⟩
def SDI_RX_LOCKS_LOCKS (n : Nat) : Fld := (SDI_RX_LOCKS n).fld 0 16
def SDI_RX_LOCKS_LOS (n : Nat) : Fld := (SDI_RX_LOCKS n).fld 16 16
/-- SDI_RX_PID[0..47] (R302); class L. -/
def SDI_RX_PID (n : Nat) : Reg := ⟨0x201400 + 4 * n, 0x0⟩
def SDI_RX_PID_PID (n : Nat) : Fld := (SDI_RX_PID n).fld 0 32
/-- SDI_RX_TC[0..47] (R302); class L. -/
def SDI_RX_TC (n : Nat) : Reg := ⟨0x201500 + 4 * n, 0x0⟩
def SDI_RX_TC_FRAMES (n : Nat) : Fld := (SDI_RX_TC n).fld 0 8
def SDI_RX_TC_SECONDS (n : Nat) : Fld := (SDI_RX_TC n).fld 8 8
def SDI_RX_TC_MINUTES (n : Nat) : Fld := (SDI_RX_TC n).fld 16 8
def SDI_RX_TC_HOURS (n : Nat) : Fld := (SDI_RX_TC n).fld 24 8
/-- SDI_TX_CTL[0..47] (R302); class H. -/
def SDI_TX_CTL (n : Nat) : Reg := ⟨0x202000 + 4 * n, 0x4⟩
def SDI_TX_CTL_AMPLITUDE (n : Nat) : Fld := (SDI_TX_CTL n).fld 0 4
def SDI_TX_CTL_MUTE (n : Nat) : Fld := (SDI_TX_CTL n).fld 4 1
def SDI_TX_CTL_BOND (n : Nat) : Fld := (SDI_TX_CTL n).fld 5 1
def SDI_TX_CTL_PID_MODE (n : Nat) : Fld := (SDI_TX_CTL n).fld 6 2
/-- SDI_TX_STAT[0..47] (R302); class L, H. -/
def SDI_TX_STAT (n : Nat) : Reg := ⟨0x202100 + 4 * n, 0xc0⟩
def SDI_TX_STAT_STATE (n : Nat) : Fld := (SDI_TX_STAT n).fld 0 2
def SDI_TX_STAT_RATE (n : Nat) : Fld := (SDI_TX_STAT n).fld 2 4
def SDI_TX_STAT_FAULT (n : Nat) : Fld := (SDI_TX_STAT n).fld 6 2
def SDI_TX_STAT_OPEN_SEEN (n : Nat) : Fld := (SDI_TX_STAT n).fld 16 1
def SDI_TX_STAT_SHORT_SEEN (n : Nat) : Fld := (SDI_TX_STAT n).fld 17 1
def SDI_TX_STAT_NO_REPORT_SEEN (n : Nat) : Fld := (SDI_TX_STAT n).fld 18 1
/-- FAB_LN_SUMMARY (R336); class H. -/
def FAB_LN_SUMMARY : Reg := ⟨0x300008, 0x0⟩
def FAB_LN_SUMMARY_LOCK_LOST : Fld := FAB_LN_SUMMARY.fld 0 1
def FAB_LN_SUMMARY_FAILED : Fld := FAB_LN_SUMMARY.fld 1 1
def FAB_LN_SUMMARY_VERIFY_FAIL : Fld := FAB_LN_SUMMARY.fld 2 1
def FAB_LN_SUMMARY_EYE_LOW : Fld := FAB_LN_SUMMARY.fld 3 1
def FAB_LN_SUMMARY_PERC_POST_ERR : Fld := FAB_LN_SUMMARY.fld 4 1
def FAB_LN_SUMMARY_POL_INV : Fld := FAB_LN_SUMMARY.fld 5 1
/-- FAB_LN_INT_EN (R336); class H. -/
def FAB_LN_INT_EN : Reg := ⟨0x30000c, 0x1b⟩
def FAB_LN_INT_EN_LOCK_LOST : Fld := FAB_LN_INT_EN.fld 0 1
def FAB_LN_INT_EN_FAILED : Fld := FAB_LN_INT_EN.fld 1 1
def FAB_LN_INT_EN_VERIFY_FAIL : Fld := FAB_LN_INT_EN.fld 2 1
def FAB_LN_INT_EN_EYE_LOW : Fld := FAB_LN_INT_EN.fld 3 1
def FAB_LN_INT_EN_PERC_POST_ERR : Fld := FAB_LN_INT_EN.fld 4 1
def FAB_LN_INT_EN_POL_INV : Fld := FAB_LN_INT_EN.fld 5 1
/-- FAB_LN_CFG[0..47] (R336); class H. -/
def FAB_LN_CFG (n : Nat) : Reg := ⟨0x301000 + 4 * n, 0x545228⟩
def FAB_LN_CFG_TX_SWING (n : Nat) : Fld := (FAB_LN_CFG n).fld 0 4
def FAB_LN_CFG_TX_PRE (n : Nat) : Fld := (FAB_LN_CFG n).fld 4 3
def FAB_LN_CFG_TX_POST (n : Nat) : Fld := (FAB_LN_CFG n).fld 7 4
def FAB_LN_CFG_EYE_MIN (n : Nat) : Fld := (FAB_LN_CFG n).fld 11 6
def FAB_LN_CFG_RETRY_S (n : Nat) : Fld := (FAB_LN_CFG n).fld 17 5
def FAB_LN_CFG_PERC_EN (n : Nat) : Fld := (FAB_LN_CFG n).fld 22 1
/-- FAB_LN_STAT[0..47] (R336); class L, H. -/
def FAB_LN_STAT (n : Nat) : Reg := ⟨0x301100 + 4 * n, 0x0⟩
def FAB_LN_STAT_STATE (n : Nat) : Fld := (FAB_LN_STAT n).fld 0 4
def FAB_LN_STAT_POL_INV (n : Nat) : Fld := (FAB_LN_STAT n).fld 4 1
def FAB_LN_STAT_SIGNAL (n : Nat) : Fld := (FAB_LN_STAT n).fld 5 1
def FAB_LN_STAT_ACCEPTED_VALID (n : Nat) : Fld := (FAB_LN_STAT n).fld 6 1
def FAB_LN_STAT_LOCK_LOST_SEEN (n : Nat) : Fld := (FAB_LN_STAT n).fld 16 1
def FAB_LN_STAT_FAILED_SEEN (n : Nat) : Fld := (FAB_LN_STAT n).fld 17 1
def FAB_LN_STAT_VERIFY_FAIL_SEEN (n : Nat) : Fld := (FAB_LN_STAT n).fld 18 1
def FAB_LN_STAT_EYE_LOW_SEEN (n : Nat) : Fld := (FAB_LN_STAT n).fld 19 1
def FAB_LN_STAT_PERC_POST_ERR (n : Nat) : Fld := (FAB_LN_STAT n).fld 20 1
def FAB_LN_STAT_POL_INV_SEEN (n : Nat) : Fld := (FAB_LN_STAT n).fld 21 1
/-- FAB_LN_EQ[0..47] (R336); class L, H. -/
def FAB_LN_EQ (n : Nat) : Reg := ⟨0x301200 + 4 * n, 0x0⟩
def FAB_LN_EQ_PEAK (n : Nat) : Fld := (FAB_LN_EQ n).fld 0 4
def FAB_LN_EQ_GAIN (n : Nat) : Fld := (FAB_LN_EQ n).fld 4 2
def FAB_LN_EQ_TRIAL_PEAK (n : Nat) : Fld := (FAB_LN_EQ n).fld 8 4
def FAB_LN_EQ_PERC_STEPS (n : Nat) : Fld := (FAB_LN_EQ n).fld 16 8
/-- FAB_LN_EYE[0..47] (R336); class L. -/
def FAB_LN_EYE (n : Nat) : Reg := ⟨0x301300 + 4 * n, 0x0⟩
def FAB_LN_EYE_HEIGHT (n : Nat) : Fld := (FAB_LN_EYE n).fld 0 8
def FAB_LN_EYE_WIDTH (n : Nat) : Fld := (FAB_LN_EYE n).fld 8 8
def FAB_LN_EYE_TRIAL_HEIGHT (n : Nat) : Fld := (FAB_LN_EYE n).fld 16 8
/-- FAB_LN_ERR[0..47] (R336); class L. -/
def FAB_LN_ERR (n : Nat) : Reg := ⟨0x301400 + 4 * n, 0x0⟩
def FAB_LN_ERR_BLOCKS (n : Nat) : Fld := (FAB_LN_ERR n).fld 0 32
/-- FAB_LN_TRAIN[0..47] (R336); class H. -/
def FAB_LN_TRAIN (n : Nat) : Reg := ⟨0x301500 + 4 * n, 0x0⟩
def FAB_LN_TRAIN_RETRAINS (n : Nat) : Fld := (FAB_LN_TRAIN n).fld 0 16
def FAB_LN_TRAIN_RETRIES (n : Nat) : Fld := (FAB_LN_TRAIN n).fld 16 8
def FAB_LN_TRAIN_FAILS (n : Nat) : Fld := (FAB_LN_TRAIN n).fld 24 8
/-- FAB_LN_TEST[0..47] (R336); class L, H. -/
def FAB_LN_TEST (n : Nat) : Reg := ⟨0x301600 + 4 * n, 0x0⟩
def FAB_LN_TEST_MODE (n : Nat) : Fld := (FAB_LN_TEST n).fld 0 2
def FAB_LN_TEST_TX_PATTERN (n : Nat) : Fld := (FAB_LN_TEST n).fld 2 4
def FAB_LN_TEST_CHK_PATTERN (n : Nat) : Fld := (FAB_LN_TEST n).fld 6 4
def FAB_LN_TEST_CHK_SYNC (n : Nat) : Fld := (FAB_LN_TEST n).fld 10 1
/-- FAB_LN_BERR[0..47] (R336); class H. -/
def FAB_LN_BERR (n : Nat) : Reg := ⟨0x301700 + 4 * n, 0x0⟩
def FAB_LN_BERR_COUNT (n : Nat) : Fld := (FAB_LN_BERR n).fld 0 32
/-- FAB_LN_BCOUNT[0..47] (R336); class H. -/
def FAB_LN_BCOUNT (n : Nat) : Reg := ⟨0x301800 + 4 * n, 0x0⟩
def FAB_LN_BCOUNT_COUNT (n : Nat) : Fld := (FAB_LN_BCOUNT n).fld 0 32
/-- FAB_STATUS (R367); class H. -/
def FAB_STATUS : Reg := ⟨0x300000, 0x80⟩
def FAB_STATUS_LINK_DOWN : Fld := FAB_STATUS.fld 0 1
def FAB_STATUS_LINK_REFORMED : Fld := FAB_STATUS.fld 1 1
def FAB_STATUS_MISWIRE : Fld := FAB_STATUS.fld 2 1
def FAB_STATUS_SKEW : Fld := FAB_STATUS.fld 3 1
def FAB_STATUS_SLOT_DROPPED : Fld := FAB_STATUS.fld 4 1
def FAB_STATUS_BOTH_LOST : Fld := FAB_STATUS.fld 5 1
def FAB_STATUS_PLANE_DIFFER : Fld := FAB_STATUS.fld 6 1
def FAB_STATUS_DEFAULTS_RESTORED : Fld := FAB_STATUS.fld 7 1
/-- FAB_INT_EN (R367); class H. -/
def FAB_INT_EN : Reg := ⟨0x300004, 0x7d⟩
def FAB_INT_EN_LINK_DOWN : Fld := FAB_INT_EN.fld 0 1
def FAB_INT_EN_LINK_REFORMED : Fld := FAB_INT_EN.fld 1 1
def FAB_INT_EN_MISWIRE : Fld := FAB_INT_EN.fld 2 1
def FAB_INT_EN_SKEW : Fld := FAB_INT_EN.fld 3 1
def FAB_INT_EN_SLOT_DROPPED : Fld := FAB_INT_EN.fld 4 1
def FAB_INT_EN_BOTH_LOST : Fld := FAB_INT_EN.fld 5 1
def FAB_INT_EN_PLANE_DIFFER : Fld := FAB_INT_EN.fld 6 1
/-- FAB_CFG (R367); class H. -/
def FAB_CFG : Reg := ⟨0x300010, 0x0⟩
def FAB_CFG_DEVICE_ID : Fld := FAB_CFG.fld 0 24
def FAB_CFG_SPINE_PLANE : Fld := FAB_CFG.fld 24 1
/-- FAB_LK_CFG[0..47] (R367); class H. -/
def FAB_LK_CFG (n : Nat) : Reg := ⟨0x302000 + 4 * n, 0x0⟩
def FAB_LK_CFG_WIDTH (n : Nat) : Fld := (FAB_LK_CFG n).fld 0 2
def FAB_LK_CFG_PARTNER_LINK (n : Nat) : Fld := (FAB_LK_CFG n).fld 2 6
def FAB_LK_CFG_PARTNER_ID (n : Nat) : Fld := (FAB_LK_CFG n).fld 8 24
/-- FAB_LK_STAT[0..47] (R367); class H. -/
def FAB_LK_STAT (n : Nat) : Reg := ⟨0x302100 + 4 * n, 0x0⟩
def FAB_LK_STAT_STATE (n : Nat) : Fld := (FAB_LK_STAT n).fld 0 3
def FAB_LK_STAT_RX_WIDTH (n : Nat) : Fld := (FAB_LK_STAT n).fld 3 2
def FAB_LK_STAT_TX_WIDTH (n : Nat) : Fld := (FAB_LK_STAT n).fld 5 2
def FAB_LK_STAT_RX_UP (n : Nat) : Fld := (FAB_LK_STAT n).fld 7 4
def FAB_LK_STAT_PEER_RX_UP (n : Nat) : Fld := (FAB_LK_STAT n).fld 11 4
def FAB_LK_STAT_REMAPPED (n : Nat) : Fld := (FAB_LK_STAT n).fld 15 1
def FAB_LK_STAT_MISWIRE_SEEN (n : Nat) : Fld := (FAB_LK_STAT n).fld 16 1
def FAB_LK_STAT_SKEW_SEEN (n : Nat) : Fld := (FAB_LK_STAT n).fld 17 1
def FAB_LK_STAT_REFORM_SEEN (n : Nat) : Fld := (FAB_LK_STAT n).fld 18 1
def FAB_LK_STAT_DOWN_SEEN (n : Nat) : Fld := (FAB_LK_STAT n).fld 19 1
def FAB_LK_STAT_MISWIRE_CAUSE (n : Nat) : Fld := (FAB_LK_STAT n).fld 20 3
/-- FAB_LK_PEER[0..47] (R367); class H. -/
def FAB_LK_PEER (n : Nat) : Reg := ⟨0x302200 + 4 * n, 0x0⟩
def FAB_LK_PEER_PEER_ID (n : Nat) : Fld := (FAB_LK_PEER n).fld 0 24
def FAB_LK_PEER_PEER_LINK (n : Nat) : Fld := (FAB_LK_PEER n).fld 24 6
def FAB_LK_PEER_PEER_PLANE (n : Nat) : Fld := (FAB_LK_PEER n).fld 30 1
def FAB_LK_PEER_PEER_TWIN_UNIT (n : Nat) : Fld := (FAB_LK_PEER n).fld 31 1
/-- FAB_LK_CNT[0..47] (R367); class H. -/
def FAB_LK_CNT (n : Nat) : Reg := ⟨0x302300 + 4 * n, 0x0⟩
def FAB_LK_CNT_REFORMS (n : Nat) : Fld := (FAB_LK_CNT n).fld 0 16
def FAB_LK_CNT_DOWNS (n : Nat) : Fld := (FAB_LK_CNT n).fld 16 16
/-- FAB_SLOT_CTL[0..191] (R367); class H. -/
def FAB_SLOT_CTL (n : Nat) : Reg := ⟨0x303000 + 4 * n, 0x100⟩
def FAB_SLOT_CTL_TX_EN (n : Nat) : Fld := (FAB_SLOT_CTL n).fld 0 1
def FAB_SLOT_CTL_RX_EN (n : Nat) : Fld := (FAB_SLOT_CTL n).fld 1 1
def FAB_SLOT_CTL_RATE_CLASS (n : Nat) : Fld := (FAB_SLOT_CTL n).fld 2 3
def FAB_SLOT_CTL_PRIO (n : Nat) : Fld := (FAB_SLOT_CTL n).fld 5 4
/-- FAB_SLOT_STAT[0..191] (R367); class H. -/
def FAB_SLOT_STAT (n : Nat) : Reg := ⟨0x303400 + 4 * n, 0x0⟩
def FAB_SLOT_STAT_CARRIED (n : Nat) : Fld := (FAB_SLOT_STAT n).fld 0 1
def FAB_SLOT_STAT_RX_PRESENT (n : Nat) : Fld := (FAB_SLOT_STAT n).fld 1 1
def FAB_SLOT_STAT_DROPPED_SEEN (n : Nat) : Fld := (FAB_SLOT_STAT n).fld 16 1
def FAB_SLOT_STAT_RX_LOST_SEEN (n : Nat) : Fld := (FAB_SLOT_STAT n).fld 17 1
/-- FAB_MRG_CNT[0..95] (R367); class H. -/
def FAB_MRG_CNT (n : Nat) : Reg := ⟨0x303800 + 4 * n, 0x0⟩
def FAB_MRG_CNT_A_MISS (n : Nat) : Fld := (FAB_MRG_CNT n).fld 0 16
def FAB_MRG_CNT_B_MISS (n : Nat) : Fld := (FAB_MRG_CNT n).fld 16 16
/-- FAB_MRG_DIFF[0..95] (R367); class H. -/
def FAB_MRG_DIFF (n : Nat) : Reg := ⟨0x303a00 + 4 * n, 0x0⟩
def FAB_MRG_DIFF_COUNT (n : Nat) : Fld := (FAB_MRG_DIFF n).fld 0 32
/-- NET_STATUS (R394); class H. -/
def NET_STATUS : Reg := ⟨0x400000, 0x1⟩
def NET_STATUS_DEFAULTS_RESTORED : Fld := NET_STATUS.fld 0 1
/-- NET_PORT_STATUS[0..1] (R394); class H. -/
def NET_PORT_STATUS (n : Nat) : Reg := ⟨0x401000 + 4096 * n, 0x0⟩
def NET_PORT_STATUS_LINK_DOWN_SEEN (n : Nat) : Fld := (NET_PORT_STATUS n).fld 0 1
def NET_PORT_STATUS_LINK_UP_SEEN (n : Nat) : Fld := (NET_PORT_STATUS n).fld 1 1
def NET_PORT_STATUS_RX_OVF_MEDIA (n : Nat) : Fld := (NET_PORT_STATUS n).fld 2 1
def NET_PORT_STATUS_RX_OVF_PTP (n : Nat) : Fld := (NET_PORT_STATUS n).fld 3 1
def NET_PORT_STATUS_RX_OVF_MGMT (n : Nat) : Fld := (NET_PORT_STATUS n).fld 4 1
def NET_PORT_STATUS_TX_NOFIT (n : Nat) : Fld := (NET_PORT_STATUS n).fld 5 1
def NET_PORT_STATUS_TX_DISC_LINK (n : Nat) : Fld := (NET_PORT_STATUS n).fld 6 1
def NET_PORT_STATUS_GCL_TAKEN (n : Nat) : Fld := (NET_PORT_STATUS n).fld 7 1
def NET_PORT_STATUS_CNT_HALF (n : Nat) : Fld := (NET_PORT_STATUS n).fld 8 1
/-- NET_PORT_INT_EN[0..1] (R394); class H. -/
def NET_PORT_INT_EN (n : Nat) : Reg := ⟨0x401004 + 4096 * n, 0x12d⟩
def NET_PORT_INT_EN_LINK_DOWN_SEEN (n : Nat) : Fld := (NET_PORT_INT_EN n).fld 0 1
def NET_PORT_INT_EN_LINK_UP_SEEN (n : Nat) : Fld := (NET_PORT_INT_EN n).fld 1 1
def NET_PORT_INT_EN_RX_OVF_MEDIA (n : Nat) : Fld := (NET_PORT_INT_EN n).fld 2 1
def NET_PORT_INT_EN_RX_OVF_PTP (n : Nat) : Fld := (NET_PORT_INT_EN n).fld 3 1
def NET_PORT_INT_EN_RX_OVF_MGMT (n : Nat) : Fld := (NET_PORT_INT_EN n).fld 4 1
def NET_PORT_INT_EN_TX_NOFIT (n : Nat) : Fld := (NET_PORT_INT_EN n).fld 5 1
def NET_PORT_INT_EN_TX_DISC_LINK (n : Nat) : Fld := (NET_PORT_INT_EN n).fld 6 1
def NET_PORT_INT_EN_GCL_TAKEN (n : Nat) : Fld := (NET_PORT_INT_EN n).fld 7 1
def NET_PORT_INT_EN_CNT_HALF (n : Nat) : Fld := (NET_PORT_INT_EN n).fld 8 1
/-- NET_PORT_CFG[0..1] (R394); class H. -/
def NET_PORT_CFG (n : Nat) : Reg := ⟨0x401008 + 4096 * n, 0xbe43d⟩
def NET_PORT_CFG_PMD (n : Nat) : Fld := (NET_PORT_CFG n).fld 0 2
def NET_PORT_CFG_AN_EN (n : Nat) : Fld := (NET_PORT_CFG n).fld 2 1
def NET_PORT_CFG_PTP_CLASS (n : Nat) : Fld := (NET_PORT_CFG n).fld 3 3
def NET_PORT_CFG_MGMT_CLASS (n : Nat) : Fld := (NET_PORT_CFG n).fld 6 3
def NET_PORT_CFG_MAXLEN (n : Nat) : Fld := (NET_PORT_CFG n).fld 9 14
/-- NET_PORT_STAT[0..1] (R394); class L. -/
def NET_PORT_STAT (n : Nat) : Reg := ⟨0x40100c + 4096 * n, 0x0⟩
def NET_PORT_STAT_STATE (n : Nat) : Fld := (NET_PORT_STAT n).fld 0 3
def NET_PORT_STAT_REMOTE_FAULT (n : Nat) : Fld := (NET_PORT_STAT n).fld 3 1
def NET_PORT_STAT_RX_POL (n : Nat) : Fld := (NET_PORT_STAT n).fld 4 4
def NET_PORT_STAT_LANE_LOCK (n : Nat) : Fld := (NET_PORT_STAT n).fld 8 4
/-- NET_MAC_LO[0..1] (R394); class H. -/
def NET_MAC_LO (n : Nat) : Reg := ⟨0x401010 + 4096 * n, 0x0⟩
def NET_MAC_LO_ADDR_LO (n : Nat) : Fld := (NET_MAC_LO n).fld 0 32
/-- NET_MAC_HI[0..1] (R394); class H. -/
def NET_MAC_HI (n : Nat) : Reg := ⟨0x401014 + 4096 * n, 0x0⟩
def NET_MAC_HI_ADDR_HI (n : Nat) : Fld := (NET_MAC_HI n).fld 0 16
/-- NET_CNT_HALF[0..1] (R394); class H. -/
def NET_CNT_HALF (n : Nat) : Reg := ⟨0x401020 + 4096 * n, 0x0⟩
def NET_CNT_HALF_HALF (n : Nat) : Fld := (NET_CNT_HALF n).fld 0 19
/-- NET_GCL_CTL[0..1] (R394); class H. -/
def NET_GCL_CTL (n : Nat) : Reg := ⟨0x401040 + 4096 * n, 0x0⟩
def NET_GCL_CTL_ENABLE (n : Nat) : Fld := (NET_GCL_CTL n).fld 0 1
def NET_GCL_CTL_ENTRIES (n : Nat) : Fld := (NET_GCL_CTL n).fld 1 9
def NET_GCL_CTL_PENDING (n : Nat) : Fld := (NET_GCL_CTL n).fld 10 1
def NET_GCL_CTL_SHADOW_ENABLE (n : Nat) : Fld := (NET_GCL_CTL n).fld 11 1
def NET_GCL_CTL_SHADOW_ENTRIES (n : Nat) : Fld := (NET_GCL_CTL n).fld 12 9
/-- NET_GCL_CYCLE[0..1] (R394); class H. -/
def NET_GCL_CYCLE (n : Nat) : Reg := ⟨0x401044 + 4096 * n, 0x0⟩
def NET_GCL_CYCLE_CYCLE (n : Nat) : Fld := (NET_GCL_CYCLE n).fld 0 30
/-- NET_GCL_BASE[0..1] (R394); class H. -/
def NET_GCL_BASE (n : Nat) : Reg := ⟨0x401048 + 4096 * n, 0x0⟩
def NET_GCL_BASE_SYSTIME (n : Nat) : Fld := (NET_GCL_BASE n).fld 0 32
/-- NET_GCL_START[0..1] (R394); class H. -/
def NET_GCL_START (n : Nat) : Reg := ⟨0x40104c + 4096 * n, 0x0⟩
def NET_GCL_START_SYSTIME (n : Nat) : Fld := (NET_GCL_START n).fld 0 32
/-- NET_GCL_SHADOW_CYCLE[0..1] (R394); class H. -/
def NET_GCL_SHADOW_CYCLE (n : Nat) : Reg := ⟨0x401050 + 4096 * n, 0x0⟩
def NET_GCL_SHADOW_CYCLE_CYCLE (n : Nat) : Fld := (NET_GCL_SHADOW_CYCLE n).fld 0 30
/-- NET_CNT[0..1][0..18] (R394); class H. -/
def NET_CNT (n : Nat) (m : Nat) : Reg := ⟨0x401100 + 4096 * n + 4 * m, 0x0⟩
def NET_CNT_COUNT (n : Nat) (m : Nat) : Fld := (NET_CNT n m).fld 0 32
/-- NET_GCL[0..1][0..255] (R394); class H. -/
def NET_GCL (n : Nat) (m : Nat) : Reg := ⟨0x401400 + 4096 * n + 4 * m, 0x0⟩
def NET_GCL_GATES (n : Nat) (m : Nat) : Fld := (NET_GCL n m).fld 0 8
def NET_GCL_INTERVAL (n : Nat) (m : Nat) : Fld := (NET_GCL n m).fld 8 24
/-- NET_GCL_SHADOW[0..1][0..255] (R394); class H. -/
def NET_GCL_SHADOW (n : Nat) (m : Nat) : Reg := ⟨0x401800 + 4096 * n + 4 * m, 0x0⟩
def NET_GCL_SHADOW_GATES (n : Nat) (m : Nat) : Fld := (NET_GCL_SHADOW n m).fld 0 8
def NET_GCL_SHADOW_INTERVAL (n : Nat) (m : Nat) : Fld := (NET_GCL_SHADOW n m).fld 8 24
/-- NET_FLOW_STATUS[0..1] (R423); class H. -/
def NET_FLOW_STATUS (n : Nat) : Reg := ⟨0x401030 + 4096 * n, 0x0⟩
def NET_FLOW_STATUS_LATE (n : Nat) : Fld := (NET_FLOW_STATUS n).fld 0 1
def NET_FLOW_STATUS_LEG_LOST (n : Nat) : Fld := (NET_FLOW_STATUS n).fld 1 1
def NET_FLOW_STATUS_FLOW_LOST (n : Nat) : Fld := (NET_FLOW_STATUS n).fld 2 1
def NET_FLOW_STATUS_OFF_GRID (n : Nat) : Fld := (NET_FLOW_STATUS n).fld 3 1
def NET_FLOW_STATUS_LATE_RELEASE (n : Nat) : Fld := (NET_FLOW_STATUS n).fld 4 1
def NET_FLOW_STATUS_CNT_HALF (n : Nat) : Fld := (NET_FLOW_STATUS n).fld 5 1
/-- NET_FLOW_INT_EN[0..1] (R423); class H. -/
def NET_FLOW_INT_EN (n : Nat) : Reg := ⟨0x401034 + 4096 * n, 0x2f⟩
def NET_FLOW_INT_EN_LATE (n : Nat) : Fld := (NET_FLOW_INT_EN n).fld 0 1
def NET_FLOW_INT_EN_LEG_LOST (n : Nat) : Fld := (NET_FLOW_INT_EN n).fld 1 1
def NET_FLOW_INT_EN_FLOW_LOST (n : Nat) : Fld := (NET_FLOW_INT_EN n).fld 2 1
def NET_FLOW_INT_EN_OFF_GRID (n : Nat) : Fld := (NET_FLOW_INT_EN n).fld 3 1
def NET_FLOW_INT_EN_LATE_RELEASE (n : Nat) : Fld := (NET_FLOW_INT_EN n).fld 4 1
def NET_FLOW_INT_EN_CNT_HALF (n : Nat) : Fld := (NET_FLOW_INT_EN n).fld 5 1
/-- NET_ANCHOR_EPOCH[0..1] (R423); class H. -/
def NET_ANCHOR_EPOCH (n : Nat) : Reg := ⟨0x400020 + 16 * n, 0x0⟩
def NET_ANCHOR_EPOCH_EA (n : Nat) : Fld := (NET_ANCHOR_EPOCH n).fld 0 32
/-- NET_ANCHOR_RTP90[0..1] (R423); class H. -/
def NET_ANCHOR_RTP90 (n : Nat) : Reg := ⟨0x400024 + 16 * n, 0x0⟩
def NET_ANCHOR_RTP90_R92 (n : Nat) : Fld := (NET_ANCHOR_RTP90 n).fld 0 32
/-- NET_ANCHOR_RTP48[0..1] (R423); class H. -/
def NET_ANCHOR_RTP48 (n : Nat) : Reg := ⟨0x400028 + 16 * n, 0x0⟩
def NET_ANCHOR_RTP48_R50 (n : Nat) : Fld := (NET_ANCHOR_RTP48 n).fld 0 32
/-- NET_ANCHOR_CTL[0..1] (R423); class H. -/
def NET_ANCHOR_CTL (n : Nat) : Reg := ⟨0x40002c + 16 * n, 0x0⟩
def NET_ANCHOR_CTL_VALID (n : Nat) : Fld := (NET_ANCHOR_CTL n).fld 0 1
/-- NET_RXF_CTL[0..111] (R423); class H. -/
def NET_RXF_CTL (n : Nat) : Reg := ⟨0x404000 + 128 * n, 0x0⟩
def NET_RXF_CTL_JOINED (n : Nat) : Fld := (NET_RXF_CTL n).fld 0 1
def NET_RXF_CTL_DUAL (n : Nat) : Fld := (NET_RXF_CTL n).fld 1 1
def NET_RXF_CTL_PORT (n : Nat) : Fld := (NET_RXF_CTL n).fld 2 1
def NET_RXF_CTL_SKEW_CLASS (n : Nat) : Fld := (NET_RXF_CTL n).fld 3 1
def NET_RXF_CTL_LAT (n : Nat) : Fld := (NET_RXF_CTL n).fld 4 4
def NET_RXF_CTL_FORMAT (n : Nat) : Fld := (NET_RXF_CTL n).fld 8 5
/-- NET_RXF_AUX[0..111] (R423); class H. -/
def NET_RXF_AUX (n : Nat) : Reg := ⟨0x404004 + 128 * n, 0x0⟩
def NET_RXF_AUX_CHANNELS_M1 (n : Nat) : Fld := (NET_RXF_AUX n).fld 0 6
def NET_RXF_AUX_PTIME (n : Nat) : Fld := (NET_RXF_AUX n).fld 6 1
def NET_RXF_AUX_AES3 (n : Nat) : Fld := (NET_RXF_AUX n).fld 7 1
def NET_RXF_AUX_L16 (n : Nat) : Fld := (NET_RXF_AUX n).fld 8 1
def NET_RXF_AUX_BOUND (n : Nat) : Fld := (NET_RXF_AUX n).fld 9 5
def NET_RXF_AUX_ALAT (n : Nat) : Fld := (NET_RXF_AUX n).fld 16 12
/-- NET_RXF_LEG_ADDR[0..111][0..1] (R423); class H. -/
def NET_RXF_LEG_ADDR (n : Nat) (m : Nat) : Reg := ⟨0x404008 + 128 * n + 12 * m, 0x0⟩
def NET_RXF_LEG_ADDR_ADDR (n : Nat) (m : Nat) : Fld := (NET_RXF_LEG_ADDR n m).fld 0 32
/-- NET_RXF_LEG_SRC[0..111][0..1] (R423); class H. -/
def NET_RXF_LEG_SRC (n : Nat) (m : Nat) : Reg := ⟨0x40400c + 128 * n + 12 * m, 0x0⟩
def NET_RXF_LEG_SRC_SRC (n : Nat) (m : Nat) : Fld := (NET_RXF_LEG_SRC n m).fld 0 32
/-- NET_RXF_LEG_PORT[0..111][0..1] (R423); class H. -/
def NET_RXF_LEG_PORT (n : Nat) (m : Nat) : Reg := ⟨0x404010 + 128 * n + 12 * m, 0x0⟩
def NET_RXF_LEG_PORT_UDP (n : Nat) (m : Nat) : Fld := (NET_RXF_LEG_PORT n m).fld 0 16
def NET_RXF_LEG_PORT_PT (n : Nat) (m : Nat) : Fld := (NET_RXF_LEG_PORT n m).fld 16 7
/-- NET_RXF_STAT[0..111] (R423); class H. -/
def NET_RXF_STAT (n : Nat) : Reg := ⟨0x404020 + 128 * n, 0x0⟩
def NET_RXF_STAT_STATE (n : Nat) : Fld := (NET_RXF_STAT n).fld 0 3
def NET_RXF_STAT_LEG0_UP (n : Nat) : Fld := (NET_RXF_STAT n).fld 3 1
def NET_RXF_STAT_LEG1_UP (n : Nat) : Fld := (NET_RXF_STAT n).fld 4 1
def NET_RXF_STAT_LATE_SEEN (n : Nat) : Fld := (NET_RXF_STAT n).fld 16 1
def NET_RXF_STAT_EARLY_SEEN (n : Nat) : Fld := (NET_RXF_STAT n).fld 17 1
def NET_RXF_STAT_MISSING_SEEN (n : Nat) : Fld := (NET_RXF_STAT n).fld 18 1
def NET_RXF_STAT_LEG_LOST_SEEN (n : Nat) : Fld := (NET_RXF_STAT n).fld 19 1
def NET_RXF_STAT_OFF_GRID_SEEN (n : Nat) : Fld := (NET_RXF_STAT n).fld 20 1
def NET_RXF_STAT_NON_PCM (n : Nat) : Fld := (NET_RXF_STAT n).fld 21 1
def NET_RXF_STAT_HALF (n : Nat) : Fld := (NET_RXF_STAT n).fld 22 7
/-- NET_RXF_OFFSET[0..111] (R423); class H. -/
def NET_RXF_OFFSET (n : Nat) : Reg := ⟨0x404024 + 128 * n, 0x0⟩
def NET_RXF_OFFSET_OFFSET (n : Nat) : Fld := (NET_RXF_OFFSET n).fld 0 32
/-- NET_RXF_CNT[0..111][0..6] (R423); class H. -/
def NET_RXF_CNT (n : Nat) (m : Nat) : Reg := ⟨0x404040 + 128 * n + 4 * m, 0x0⟩
def NET_RXF_CNT_COUNT (n : Nat) (m : Nat) : Fld := (NET_RXF_CNT n m).fld 0 32
/-- NET_TXF_CTL[0..111] (R423); class H. -/
def NET_TXF_CTL (n : Nat) : Reg := ⟨0x408000 + 64 * n, 0x0⟩
def NET_TXF_CTL_ENABLE (n : Nat) : Fld := (NET_TXF_CTL n).fld 0 1
def NET_TXF_CTL_DUAL (n : Nat) : Fld := (NET_TXF_CTL n).fld 1 1
def NET_TXF_CTL_PORT (n : Nat) : Fld := (NET_TXF_CTL n).fld 2 1
def NET_TXF_CTL_PACKING (n : Nat) : Fld := (NET_TXF_CTL n).fld 3 1
def NET_TXF_CTL_CLASS (n : Nat) : Fld := (NET_TXF_CTL n).fld 4 3
def NET_TXF_CTL_DSCP (n : Nat) : Fld := (NET_TXF_CTL n).fld 7 6
/-- NET_TXF_AUX[0..111] (R423); class H. -/
def NET_TXF_AUX (n : Nat) : Reg := ⟨0x408004 + 64 * n, 0x0⟩
def NET_TXF_AUX_CHANNELS_M1 (n : Nat) : Fld := (NET_TXF_AUX n).fld 0 6
def NET_TXF_AUX_PTIME (n : Nat) : Fld := (NET_TXF_AUX n).fld 6 1
def NET_TXF_AUX_AES3 (n : Nat) : Fld := (NET_TXF_AUX n).fld 7 1
def NET_TXF_AUX_L16 (n : Nat) : Fld := (NET_TXF_AUX n).fld 8 1
def NET_TXF_AUX_BOUND (n : Nat) : Fld := (NET_TXF_AUX n).fld 9 5
/-- NET_TXF_HDR[0..111] (R423); class H. -/
def NET_TXF_HDR (n : Nat) : Reg := ⟨0x408008 + 64 * n, 0x0⟩
def NET_TXF_HDR_PT (n : Nat) : Fld := (NET_TXF_HDR n).fld 0 7
def NET_TXF_HDR_VLAN_ID (n : Nat) : Fld := (NET_TXF_HDR n).fld 16 12
def NET_TXF_HDR_PCP (n : Nat) : Fld := (NET_TXF_HDR n).fld 28 3
def NET_TXF_HDR_VLAN_EN (n : Nat) : Fld := (NET_TXF_HDR n).fld 31 1
/-- NET_TXF_SSRC[0..111] (R423); class H. -/
def NET_TXF_SSRC (n : Nat) : Reg := ⟨0x40800c + 64 * n, 0x0⟩
def NET_TXF_SSRC_SSRC (n : Nat) : Fld := (NET_TXF_SSRC n).fld 0 32
/-- NET_TXF_LEG_DST[0..111][0..1] (R423); class H. -/
def NET_TXF_LEG_DST (n : Nat) (m : Nat) : Reg := ⟨0x408010 + 64 * n + 12 * m, 0x0⟩
def NET_TXF_LEG_DST_DST (n : Nat) (m : Nat) : Fld := (NET_TXF_LEG_DST n m).fld 0 32
/-- NET_TXF_LEG_SRC[0..111][0..1] (R423); class H. -/
def NET_TXF_LEG_SRC (n : Nat) (m : Nat) : Reg := ⟨0x408014 + 64 * n + 12 * m, 0x0⟩
def NET_TXF_LEG_SRC_SRC (n : Nat) (m : Nat) : Fld := (NET_TXF_LEG_SRC n m).fld 0 32
/-- NET_TXF_LEG_PORTS[0..111][0..1] (R423); class H. -/
def NET_TXF_LEG_PORTS (n : Nat) (m : Nat) : Reg := ⟨0x408018 + 64 * n + 12 * m, 0x0⟩
def NET_TXF_LEG_PORTS_DPORT (n : Nat) (m : Nat) : Fld := (NET_TXF_LEG_PORTS n m).fld 0 16
def NET_TXF_LEG_PORTS_SPORT (n : Nat) (m : Nat) : Fld := (NET_TXF_LEG_PORTS n m).fld 16 16
/-- NET_TXF_STAT[0..111] (R423); class H. -/
def NET_TXF_STAT (n : Nat) : Reg := ⟨0x408028 + 64 * n, 0x0⟩
def NET_TXF_STAT_STATE (n : Nat) : Fld := (NET_TXF_STAT n).fld 0 2
def NET_TXF_STAT_LATE_REL_SEEN (n : Nat) : Fld := (NET_TXF_STAT n).fld 16 1
def NET_TXF_STAT_ANC_OVER_SEEN (n : Nat) : Fld := (NET_TXF_STAT n).fld 17 1
def NET_TXF_STAT_HALF (n : Nat) : Fld := (NET_TXF_STAT n).fld 18 4
/-- NET_TXF_CNT[0..111][0..3] (R423); class H. -/
def NET_TXF_CNT (n : Nat) (m : Nat) : Reg := ⟨0x408030 + 64 * n + 4 * m, 0x0⟩
def NET_TXF_CNT_COUNT (n : Nat) (m : Nat) : Fld := (NET_TXF_CNT n m).fld 0 32
/-- AUD_STATUS (R500); class H. -/
def AUD_STATUS : Reg := ⟨0x500000, 0x10⟩
def AUD_STATUS_CLIP : Fld := AUD_STATUS.fld 0 1
def AUD_STATUS_LIMITING : Fld := AUD_STATUS.fld 1 1
def AUD_STATUS_NON_PCM_MIX : Fld := AUD_STATUS.fld 2 1
def AUD_STATUS_BRIDGE_MISS : Fld := AUD_STATUS.fld 3 1
def AUD_STATUS_DEFAULTS_RESTORED : Fld := AUD_STATUS.fld 4 1
/-- AUD_INT_EN (R500); class H. -/
def AUD_INT_EN : Reg := ⟨0x500004, 0xd⟩
def AUD_INT_EN_CLIP : Fld := AUD_INT_EN.fld 0 1
def AUD_INT_EN_LIMITING : Fld := AUD_INT_EN.fld 1 1
def AUD_INT_EN_NON_PCM_MIX : Fld := AUD_INT_EN.fld 2 1
def AUD_INT_EN_BRIDGE_MISS : Fld := AUD_INT_EN.fld 3 1
/-- AUD_CFG (R500); class H. -/
def AUD_CFG : Reg := ⟨0x500008, 0x0⟩
def AUD_CFG_ENGINE_PLANE : Fld := AUD_CFG.fld 0 1
def AUD_CFG_ANCHORED : Fld := AUD_CFG.fld 1 1
/-- AUD_STATE_CRC_LO (R500); class H. -/
def AUD_STATE_CRC_LO : Reg := ⟨0x500010, 0x0⟩
def AUD_STATE_CRC_LO_CRC : Fld := AUD_STATE_CRC_LO.fld 0 32
/-- AUD_STATE_CRC_HI (R500); class H. -/
def AUD_STATE_CRC_HI : Reg := ⟨0x500014, 0x0⟩
def AUD_STATE_CRC_HI_CRC : Fld := AUD_STATE_CRC_HI.fld 0 32
/-- AUD_BRIDGE_RATIO (R500); class H. -/
def AUD_BRIDGE_RATIO : Reg := ⟨0x500018, 0x0⟩
def AUD_BRIDGE_RATIO_RATIO : Fld := AUD_BRIDGE_RATIO.fld 0 32
/-- AUD_BRIDGE_USE (R500); class H. -/
def AUD_BRIDGE_USE : Reg := ⟨0x50001c, 0x0⟩
def AUD_BRIDGE_USE_IN_CH : Fld := AUD_BRIDGE_USE.fld 0 10
def AUD_BRIDGE_USE_OUT_CH : Fld := AUD_BRIDGE_USE.fld 16 10
/-- AUD_FILT_COEF[0..22] (R500); class N. -/
def AUD_FILT_COEF (n : Nat) : Reg := ⟨0x500100 + 4 * n, 0x0⟩
def AUD_FILT_COEF_COEF (n : Nat) : Fld := (AUD_FILT_COEF n).fld 0 32
/-- AUD_RXF_BASE[0..63] (R500); class H. -/
def AUD_RXF_BASE (n : Nat) : Reg := ⟨0x500200 + 4 * n, 0x0⟩
def AUD_RXF_BASE_BASE (n : Nat) : Fld := (AUD_RXF_BASE n).fld 0 10
def AUD_RXF_BASE_VALID (n : Nat) : Fld := (AUD_RXF_BASE n).fld 15 1
/-- AUD_TXF_BASE[0..63] (R500); class H. -/
def AUD_TXF_BASE (n : Nat) : Reg := ⟨0x500300 + 4 * n, 0x0⟩
def AUD_TXF_BASE_BASE (n : Nat) : Fld := (AUD_TXF_BASE n).fld 0 10
def AUD_TXF_BASE_VALID (n : Nat) : Fld := (AUD_TXF_BASE n).fld 15 1
/-- AUD_DST_CTL[0..319] (R500); class H. -/
def AUD_DST_CTL (n : Nat) : Reg := ⟨0x501000 + 4 * n, 0x0⟩
def AUD_DST_CTL_EMBED (n : Nat) : Fld := (AUD_DST_CTL n).fld 0 1
/-- AUD_MIXIN_CTL[0..511] (R500); class H. -/
def AUD_MIXIN_CTL (n : Nat) : Reg := ⟨0x502000 + 4 * n, 0x0⟩
def AUD_MIXIN_CTL_HPF (n : Nat) : Fld := (AUD_MIXIN_CTL n).fld 0 3
def AUD_MIXIN_CTL_NON_PCM (n : Nat) : Fld := (AUD_MIXIN_CTL n).fld 3 1
/-- AUD_MIXOUT_CTL[0..511] (R500); class H. -/
def AUD_MIXOUT_CTL (n : Nat) : Reg := ⟨0x503000 + 4 * n, 0x1829⟩
def AUD_MIXOUT_CTL_LIM_EN (n : Nat) : Fld := (AUD_MIXOUT_CTL n).fld 0 1
def AUD_MIXOUT_CTL_RISTRETTO (n : Nat) : Fld := (AUD_MIXOUT_CTL n).fld 1 1
def AUD_MIXOUT_CTL_THRESH (n : Nat) : Fld := (AUD_MIXOUT_CTL n).fld 2 8
def AUD_MIXOUT_CTL_RELEASE (n : Nat) : Fld := (AUD_MIXOUT_CTL n).fld 10 4
/-- AUD_MIXOUT_STAT[0..511] (R500); class H. -/
def AUD_MIXOUT_STAT (n : Nat) : Reg := ⟨0x504000 + 4 * n, 0x5a0⟩
def AUD_MIXOUT_STAT_PEAK (n : Nat) : Fld := (AUD_MIXOUT_STAT n).fld 0 12
def AUD_MIXOUT_STAT_GR (n : Nat) : Fld := (AUD_MIXOUT_STAT n).fld 12 8
def AUD_MIXOUT_STAT_LIMITING (n : Nat) : Fld := (AUD_MIXOUT_STAT n).fld 20 1
def AUD_MIXOUT_STAT_CLIP_SEEN (n : Nat) : Fld := (AUD_MIXOUT_STAT n).fld 21 1
/-- AUD_SHUF[0..8191] (R500); class H. -/
def AUD_SHUF (n : Nat) : Reg := ⟨0x508000 + 4 * n, 0x0⟩
def AUD_SHUF_SRC (n : Nat) : Fld := (AUD_SHUF n).fld 0 13
def AUD_SHUF_FOLLOW (n : Nat) : Fld := (AUD_SHUF n).fld 13 1
def AUD_SHUF_SET (n : Nat) : Fld := (AUD_SHUF n).fld 14 1
def AUD_SHUF_DELAY (n : Nat) : Fld := (AUD_SHUF n).fld 16 12
/-- SAP_STATUS (R518); class H. -/
def SAP_STATUS : Reg := ⟨0x580000, 0x20⟩
def SAP_STATUS_UNLOCKED : Fld := SAP_STATUS.fld 0 1
def SAP_STATUS_SLIP : Fld := SAP_STATUS.fld 1 1
def SAP_STATUS_SWAPPED : Fld := SAP_STATUS.fld 2 1
def SAP_STATUS_LEAD_LIMIT : Fld := SAP_STATUS.fld 3 1
def SAP_STATUS_FRAMING : Fld := SAP_STATUS.fld 4 1
def SAP_STATUS_DEFAULTS_RESTORED : Fld := SAP_STATUS.fld 5 1
/-- SAP_INT_EN (R518); class H. -/
def SAP_INT_EN : Reg := ⟨0x580004, 0xf⟩
def SAP_INT_EN_UNLOCKED : Fld := SAP_INT_EN.fld 0 1
def SAP_INT_EN_SLIP : Fld := SAP_INT_EN.fld 1 1
def SAP_INT_EN_SWAPPED : Fld := SAP_INT_EN.fld 2 1
def SAP_INT_EN_LEAD_LIMIT : Fld := SAP_INT_EN.fld 3 1
def SAP_INT_EN_FRAMING : Fld := SAP_INT_EN.fld 4 1
/-- SAP_CFG (R518); class H. -/
def SAP_CFG : Reg := ⟨0x580008, 0x0⟩
def SAP_CFG_MCLK_EN : Fld := SAP_CFG.fld 0 1
def SAP_CFG_LEAD_ACTIVE : Fld := SAP_CFG.fld 1 1
def SAP_CFG_LEAD_PORT : Fld := SAP_CFG.fld 2 4
/-- SAP_GROUP_LAT (R518); class H. -/
def SAP_GROUP_LAT : Reg := ⟨0x58000c, 0x18181818⟩
def SAP_GROUP_LAT_LAT0 : Fld := SAP_GROUP_LAT.fld 0 8
def SAP_GROUP_LAT_LAT1 : Fld := SAP_GROUP_LAT.fld 8 8
def SAP_GROUP_LAT_LAT2 : Fld := SAP_GROUP_LAT.fld 16 8
def SAP_GROUP_LAT_LAT3 : Fld := SAP_GROUP_LAT.fld 24 8
/-- SAP_MCLK_FREQ (R518); class H. -/
def SAP_MCLK_FREQ : Reg := ⟨0x580010, 0x0⟩
def SAP_MCLK_FREQ_OFFSET : Fld := SAP_MCLK_FREQ.fld 0 32
/-- SAP_PORT_CTL[0..15] (R518); class H. -/
def SAP_PORT_CTL (n : Nat) : Reg := ⟨0x581000 + 32 * n, 0x600⟩
def SAP_PORT_CTL_ENABLE (n : Nat) : Fld := (SAP_PORT_CTL n).fld 0 1
def SAP_PORT_CTL_FORMAT (n : Nat) : Fld := (SAP_PORT_CTL n).fld 1 1
def SAP_PORT_CTL_MASTER (n : Nat) : Fld := (SAP_PORT_CTL n).fld 2 1
def SAP_PORT_CTL_LEAD (n : Nat) : Fld := (SAP_PORT_CTL n).fld 3 1
def SAP_PORT_CTL_RATE (n : Nat) : Fld := (SAP_PORT_CTL n).fld 4 2
def SAP_PORT_CTL_WORD (n : Nat) : Fld := (SAP_PORT_CTL n).fld 6 5
def SAP_PORT_CTL_GROUP (n : Nat) : Fld := (SAP_PORT_CTL n).fld 11 2
def SAP_PORT_CTL_WEAGOR (n : Nat) : Fld := (SAP_PORT_CTL n).fld 13 1
/-- SAP_PORT_STAT[0..15] (R518); class H. -/
def SAP_PORT_STAT (n : Nat) : Reg := ⟨0x581004 + 32 * n, 0x0⟩
def SAP_PORT_STAT_STATE (n : Nat) : Fld := (SAP_PORT_STAT n).fld 0 3
def SAP_PORT_STAT_SWAPPED (n : Nat) : Fld := (SAP_PORT_STAT n).fld 3 1
def SAP_PORT_STAT_RX_FILL (n : Nat) : Fld := (SAP_PORT_STAT n).fld 4 7
def SAP_PORT_STAT_TX_FILL (n : Nat) : Fld := (SAP_PORT_STAT n).fld 11 7
def SAP_PORT_STAT_UNLOCK_SEEN (n : Nat) : Fld := (SAP_PORT_STAT n).fld 24 1
def SAP_PORT_STAT_SLIP_SEEN (n : Nat) : Fld := (SAP_PORT_STAT n).fld 25 1
def SAP_PORT_STAT_SWAP_SEEN (n : Nat) : Fld := (SAP_PORT_STAT n).fld 26 1
def SAP_PORT_STAT_FRAMING_SEEN (n : Nat) : Fld := (SAP_PORT_STAT n).fld 27 1
/-- SAP_PORT_RATIO[0..15] (R518); class H. -/
def SAP_PORT_RATIO (n : Nat) : Reg := ⟨0x581008 + 32 * n, 0x0⟩
def SAP_PORT_RATIO_RATIO (n : Nat) : Fld := (SAP_PORT_RATIO n).fld 0 32
/-- SAP_PORT_RX_REP[0..15] (R518); class H. -/
def SAP_PORT_RX_REP (n : Nat) : Reg := ⟨0x58100c + 32 * n, 0x0⟩
def SAP_PORT_RX_REP_COUNT (n : Nat) : Fld := (SAP_PORT_RX_REP n).fld 0 32
/-- SAP_PORT_RX_DISC[0..15] (R518); class H. -/
def SAP_PORT_RX_DISC (n : Nat) : Reg := ⟨0x581010 + 32 * n, 0x0⟩
def SAP_PORT_RX_DISC_COUNT (n : Nat) : Fld := (SAP_PORT_RX_DISC n).fld 0 32
/-- SAP_PORT_TX_REP[0..15] (R518); class H. -/
def SAP_PORT_TX_REP (n : Nat) : Reg := ⟨0x581014 + 32 * n, 0x0⟩
def SAP_PORT_TX_REP_COUNT (n : Nat) : Fld := (SAP_PORT_TX_REP n).fld 0 32
/-- SAP_PORT_TX_DISC[0..15] (R518); class H. -/
def SAP_PORT_TX_DISC (n : Nat) : Reg := ⟨0x581018 + 32 * n, 0x0⟩
def SAP_PORT_TX_DISC_COUNT (n : Nat) : Fld := (SAP_PORT_TX_DISC n).fld 0 32
/-- MVC_STATUS (R545); class H. -/
def MVC_STATUS : Reg := ⟨0x600000, 0x20⟩
def MVC_STATUS_LAYER_LATE : Fld := MVC_STATUS.fld 0 1
def MVC_STATUS_SLATED : Fld := MVC_STATUS.fld 1 1
def MVC_STATUS_RATIO_FAULT : Fld := MVC_STATUS.fld 2 1
def MVC_STATUS_FOLLOW_MISS : Fld := MVC_STATUS.fld 3 1
def MVC_STATUS_FLIP_APPLIED : Fld := MVC_STATUS.fld 4 1
def MVC_STATUS_DEFAULTS_RESTORED : Fld := MVC_STATUS.fld 5 1
/-- MVC_INT_EN (R545); class H. -/
def MVC_INT_EN : Reg := ⟨0x600004, 0xf⟩
def MVC_INT_EN_LAYER_LATE : Fld := MVC_INT_EN.fld 0 1
def MVC_INT_EN_SLATED : Fld := MVC_INT_EN.fld 1 1
def MVC_INT_EN_RATIO_FAULT : Fld := MVC_INT_EN.fld 2 1
def MVC_INT_EN_FOLLOW_MISS : Fld := MVC_INT_EN.fld 3 1
def MVC_INT_EN_FLIP_APPLIED : Fld := MVC_INT_EN.fld 4 1
/-- MVC_TILE_USE (R545); class H. -/
def MVC_TILE_USE : Reg := ⟨0x600008, 0x0⟩
def MVC_TILE_USE_UNITS : Fld := MVC_TILE_USE.fld 0 7
def MVC_TILE_USE_TILES : Fld := MVC_TILE_USE.fld 16 7
/-- MVC_CSC_COEF[0..17] (R545); class N. -/
def MVC_CSC_COEF (n : Nat) : Reg := ⟨0x600040 + 4 * n, 0x0⟩
def MVC_CSC_COEF_COEF (n : Nat) : Fld := (MVC_CSC_COEF n).fld 0 16
/-- MVC_TAP[0..63] (R545); class H. -/
def MVC_TAP (n : Nat) : Reg := ⟨0x600100 + 4 * n, 0x0⟩
def MVC_TAP_SOURCE (n : Nat) : Fld := (MVC_TAP n).fld 0 9
def MVC_TAP_ACTIVE (n : Nat) : Fld := (MVC_TAP n).fld 9 1
def MVC_TAP_HEAD (n : Nat) : Fld := (MVC_TAP n).fld 10 2
def MVC_TAP_LAYER (n : Nat) : Fld := (MVC_TAP n).fld 12 4
def MVC_TAP_UNITS (n : Nat) : Fld := (MVC_TAP n).fld 16 3
/-- MVC_HEAD_CTL[0..3] (R545); class H. -/
def MVC_HEAD_CTL (n : Nat) : Reg := ⟨0x601000 + 4096 * n, 0x32000⟩
def MVC_HEAD_CTL_ENABLE (n : Nat) : Fld := (MVC_HEAD_CTL n).fld 0 1
def MVC_HEAD_CTL_PLANE (n : Nat) : Fld := (MVC_HEAD_CTL n).fld 1 1
def MVC_HEAD_CTL_FORMAT (n : Nat) : Fld := (MVC_HEAD_CTL n).fld 2 5
def MVC_HEAD_CTL_GFX_COUNT (n : Nat) : Fld := (MVC_HEAD_CTL n).fld 7 3
def MVC_HEAD_CTL_MATRIX (n : Nat) : Fld := (MVC_HEAD_CTL n).fld 10 1
def MVC_HEAD_CTL_LOSS_TIMEOUT (n : Nat) : Fld := (MVC_HEAD_CTL n).fld 11 10
/-- MVC_HEAD_STAT[0..3] (R545); class H. -/
def MVC_HEAD_STAT (n : Nat) : Reg := ⟨0x601004 + 4096 * n, 0x0⟩
def MVC_HEAD_STAT_RUNNING (n : Nat) : Fld := (MVC_HEAD_STAT n).fld 0 1
def MVC_HEAD_STAT_LATE_SEEN (n : Nat) : Fld := (MVC_HEAD_STAT n).fld 16 1
def MVC_HEAD_STAT_SLATE_SEEN (n : Nat) : Fld := (MVC_HEAD_STAT n).fld 17 1
def MVC_HEAD_STAT_RATIO_SEEN (n : Nat) : Fld := (MVC_HEAD_STAT n).fld 18 1
def MVC_HEAD_STAT_FOLLOW_MISS (n : Nat) : Fld := (MVC_HEAD_STAT n).fld 19 1
/-- MVC_HEAD_BG[0..3] (R545); class H. -/
def MVC_HEAD_BG (n : Nat) : Reg := ⟨0x601008 + 4096 * n, 0x20080040⟩
def MVC_HEAD_BG_Y (n : Nat) : Fld := (MVC_HEAD_BG n).fld 0 10
def MVC_HEAD_BG_CB (n : Nat) : Fld := (MVC_HEAD_BG n).fld 10 10
def MVC_HEAD_BG_CR (n : Nat) : Fld := (MVC_HEAD_BG n).fld 20 10
/-- MVC_HEAD_SLATE[0..3] (R545); class H. -/
def MVC_HEAD_SLATE (n : Nat) : Reg := ⟨0x60100c + 4096 * n, 0x200801c0⟩
def MVC_HEAD_SLATE_Y (n : Nat) : Fld := (MVC_HEAD_SLATE n).fld 0 10
def MVC_HEAD_SLATE_CB (n : Nat) : Fld := (MVC_HEAD_SLATE n).fld 10 10
def MVC_HEAD_SLATE_CR (n : Nat) : Fld := (MVC_HEAD_SLATE n).fld 20 10
/-- MVC_HEAD_LATE[0..3] (R545); class H. -/
def MVC_HEAD_LATE (n : Nat) : Reg := ⟨0x601010 + 4096 * n, 0x0⟩
def MVC_HEAD_LATE_COUNT (n : Nat) : Fld := (MVC_HEAD_LATE n).fld 0 32
/-- MVC_VL_CTL[0..3][0..15] (R545); class H. -/
def MVC_VL_CTL (n : Nat) (m : Nat) : Reg := ⟨0x601100 + 4096 * n + 4 * m, 0x0⟩
def MVC_VL_CTL_ENABLE (n : Nat) (m : Nat) : Fld := (MVC_VL_CTL n m).fld 0 1
def MVC_VL_CTL_TILE (n : Nat) (m : Nat) : Fld := (MVC_VL_CTL n m).fld 1 6
def MVC_VL_CTL_Z (n : Nat) (m : Nat) : Fld := (MVC_VL_CTL n m).fld 7 4
/-- MVC_VL_POS[0..3][0..15] (R545); class H. -/
def MVC_VL_POS (n : Nat) (m : Nat) : Reg := ⟨0x601140 + 4096 * n + 4 * m, 0x0⟩
def MVC_VL_POS_X (n : Nat) (m : Nat) : Fld := (MVC_VL_POS n m).fld 0 13
def MVC_VL_POS_Y (n : Nat) (m : Nat) : Fld := (MVC_VL_POS n m).fld 16 13
/-- MVC_VL_SIZE[0..3][0..15] (R545); class H. -/
def MVC_VL_SIZE (n : Nat) (m : Nat) : Reg := ⟨0x601180 + 4096 * n + 4 * m, 0x0⟩
def MVC_VL_SIZE_W (n : Nat) (m : Nat) : Fld := (MVC_VL_SIZE n m).fld 0 13
def MVC_VL_SIZE_H (n : Nat) (m : Nat) : Fld := (MVC_VL_SIZE n m).fld 16 13
/-- MVC_VL_STAT[0..3][0..15] (R545); class H. -/
def MVC_VL_STAT (n : Nat) (m : Nat) : Reg := ⟨0x6011c0 + 4096 * n + 4 * m, 0x0⟩
def MVC_VL_STAT_SHOW (n : Nat) (m : Nat) : Fld := (MVC_VL_STAT n m).fld 0 2
def MVC_VL_STAT_RATIO_FAULT (n : Nat) (m : Nat) : Fld := (MVC_VL_STAT n m).fld 2 1
def MVC_VL_STAT_LATE (n : Nat) (m : Nat) : Fld := (MVC_VL_STAT n m).fld 3 1
/-- MVC_GL_CTL[0..3][0..3] (R545); class H. -/
def MVC_GL_CTL (n : Nat) (m : Nat) : Reg := ⟨0x601200 + 4096 * n + 4 * m, 0x0⟩
def MVC_GL_CTL_ENABLE (n : Nat) (m : Nat) : Fld := (MVC_GL_CTL n m).fld 0 1
def MVC_GL_CTL_GROUP (n : Nat) (m : Nat) : Fld := (MVC_GL_CTL n m).fld 1 3
def MVC_GL_CTL_FRONT (n : Nat) (m : Nat) : Fld := (MVC_GL_CTL n m).fld 4 1
def MVC_GL_CTL_FLIP_PENDING (n : Nat) (m : Nat) : Fld := (MVC_GL_CTL n m).fld 5 1
/-- MVC_GL_POS[0..3][0..3] (R545); class H. -/
def MVC_GL_POS (n : Nat) (m : Nat) : Reg := ⟨0x601210 + 4096 * n + 4 * m, 0x0⟩
def MVC_GL_POS_X (n : Nat) (m : Nat) : Fld := (MVC_GL_POS n m).fld 0 13
def MVC_GL_POS_Y (n : Nat) (m : Nat) : Fld := (MVC_GL_POS n m).fld 16 13
/-- MVC_GL_SIZE[0..3][0..3] (R545); class H. -/
def MVC_GL_SIZE (n : Nat) (m : Nat) : Reg := ⟨0x601220 + 4096 * n + 4 * m, 0x0⟩
def MVC_GL_SIZE_W (n : Nat) (m : Nat) : Fld := (MVC_GL_SIZE n m).fld 0 13
def MVC_GL_SIZE_H (n : Nat) (m : Nat) : Fld := (MVC_GL_SIZE n m).fld 16 13
/-- MVC_GL_FENCE[0..3][0..3] (R545); class H. -/
def MVC_GL_FENCE (n : Nat) (m : Nat) : Reg := ⟨0x601230 + 4096 * n + 4 * m, 0x0⟩
def MVC_GL_FENCE_FENCE (n : Nat) (m : Nat) : Fld := (MVC_GL_FENCE n m).fld 0 16
def MVC_GL_FENCE_LOADING (n : Nat) (m : Nat) : Fld := (MVC_GL_FENCE n m).fld 16 1
/-- TWN_STATUS (R586); class H. -/
def TWN_STATUS : Reg := ⟨0x700000, 0x800⟩
def TWN_STATUS_HANDOVER : Fld := TWN_STATUS.fld 0 1
def TWN_STATUS_COLD_TAKEOVER : Fld := TWN_STATUS.fld 1 1
def TWN_STATUS_LOST_STEP : Fld := TWN_STATUS.fld 2 1
def TWN_STATUS_DIVERGED : Fld := TWN_STATUS.fld 3 1
def TWN_STATUS_DEVICE_DIV : Fld := TWN_STATUS.fld 4 1
def TWN_STATUS_SELF_FAULT : Fld := TWN_STATUS.fld 5 1
def TWN_STATUS_PEER_LOST : Fld := TWN_STATUS.fld 6 1
def TWN_STATUS_LINK_LOST : Fld := TWN_STATUS.fld 7 1
def TWN_STATUS_NOT_READY : Fld := TWN_STATUS.fld 8 1
def TWN_STATUS_PEER_MISMATCH : Fld := TWN_STATUS.fld 9 1
def TWN_STATUS_LANE_FAILED : Fld := TWN_STATUS.fld 10 1
def TWN_STATUS_DEFAULTS_RESTORED : Fld := TWN_STATUS.fld 11 1
/-- TWN_INT_EN (R586); class H. -/
def TWN_INT_EN : Reg := ⟨0x700004, 0x7f7⟩
def TWN_INT_EN_HANDOVER : Fld := TWN_INT_EN.fld 0 1
def TWN_INT_EN_COLD_TAKEOVER : Fld := TWN_INT_EN.fld 1 1
def TWN_INT_EN_LOST_STEP : Fld := TWN_INT_EN.fld 2 1
def TWN_INT_EN_DIVERGED : Fld := TWN_INT_EN.fld 3 1
def TWN_INT_EN_DEVICE_DIV : Fld := TWN_INT_EN.fld 4 1
def TWN_INT_EN_SELF_FAULT : Fld := TWN_INT_EN.fld 5 1
def TWN_INT_EN_PEER_LOST : Fld := TWN_INT_EN.fld 6 1
def TWN_INT_EN_LINK_LOST : Fld := TWN_INT_EN.fld 7 1
def TWN_INT_EN_NOT_READY : Fld := TWN_INT_EN.fld 8 1
def TWN_INT_EN_PEER_MISMATCH : Fld := TWN_INT_EN.fld 9 1
def TWN_INT_EN_LANE_FAILED : Fld := TWN_INT_EN.fld 10 1
/-- TWN_CFG (R586); class H, N. -/
def TWN_CFG : Reg := ⟨0x700008, 0x0⟩
def TWN_CFG_ENABLE : Fld := TWN_CFG.fld 0 1
def TWN_CFG_PENDING_ENABLE : Fld := TWN_CFG.fld 1 1
def TWN_CFG_TWN_BOD_POLICY : Fld := TWN_CFG.fld 2 1
/-- TWN_STATE (R586); class H. -/
def TWN_STATE : Reg := ⟨0x70000c, 0x0⟩
def TWN_STATE_MODE : Fld := TWN_STATE.fld 0 2
def TWN_STATE_PHASE : Fld := TWN_STATE.fld 2 3
def TWN_STATE_TWN_NOT_READY : Fld := TWN_STATE.fld 5 1
def TWN_STATE_HANDOVER_PENDING : Fld := TWN_STATE.fld 6 1
def TWN_STATE_ACTIVE_OUT : Fld := TWN_STATE.fld 7 1
def TWN_STATE_PEER_IN : Fld := TWN_STATE.fld 8 1
def TWN_STATE_READY_OUT : Fld := TWN_STATE.fld 9 1
def TWN_STATE_LANES_UP : Fld := TWN_STATE.fld 10 2
def TWN_STATE_LOST_CAUSE : Fld := TWN_STATE.fld 16 4
/-- TWN_PEER (R586); class H. -/
def TWN_PEER : Reg := ⟨0x700010, 0x0⟩
def TWN_PEER_PRESENT : Fld := TWN_PEER.fld 0 1
def TWN_PEER_PEER_UNIT : Fld := TWN_PEER.fld 1 1
def TWN_PEER_PEER_ROLE : Fld := TWN_PEER.fld 2 2
def TWN_PEER_PEER_MODE : Fld := TWN_PEER.fld 4 2
def TWN_PEER_PEER_TWP : Fld := TWN_PEER.fld 8 8
/-- TWN_DIAG (R586); class H. -/
def TWN_DIAG : Reg := ⟨0x700014, 0x0⟩
def TWN_DIAG_CORE_LOCKSTEP : Fld := TWN_DIAG.fld 0 1
def TWN_DIAG_DP_PARITY : Fld := TWN_DIAG.fld 1 1
def TWN_DIAG_QUEUE_FAULT : Fld := TWN_DIAG.fld 2 1
def TWN_DIAG_DRAM_FAILED : Fld := TWN_DIAG.fld 3 1
def TWN_DIAG_SRAM_UE : Fld := TWN_DIAG.fld 4 1
def TWN_DIAG_DRAM_UE : Fld := TWN_DIAG.fld 8 1
def TWN_DIAG_CONCEAL : Fld := TWN_DIAG.fld 9 1
/-- TWN_FWD_SEQ (R586); class H. -/
def TWN_FWD_SEQ : Reg := ⟨0x700018, 0x0⟩
def TWN_FWD_SEQ_FWD_SEQ : Fld := TWN_FWD_SEQ.fld 0 32
/-- TWN_COUNTS (R586); class H. -/
def TWN_COUNTS : Reg := ⟨0x70001c, 0x0⟩
def TWN_COUNTS_HANDOVERS : Fld := TWN_COUNTS.fld 0 16
def TWN_COUNTS_RESYNCS : Fld := TWN_COUNTS.fld 16 16
/-- TWN_MATCH[0..1] (R586); class H. -/
def TWN_MATCH (n : Nat) : Reg := ⟨0x700020 + 4 * n, 0x0⟩
def TWN_MATCH_MATCH_RUN (n : Nat) : Fld := (TWN_MATCH n).fld 0 8
/-- TWN_CMP_EPOCH[0..1] (R586); class H. -/
def TWN_CMP_EPOCH (n : Nat) : Reg := ⟨0x700028 + 4 * n, 0x0⟩
def TWN_CMP_EPOCH_EPOCH (n : Nat) : Fld := (TWN_CMP_EPOCH n).fld 0 32
/-- TWN_CONFIG_SEQ[0..1] (R586); class H. -/
def TWN_CONFIG_SEQ (n : Nat) : Reg := ⟨0x700030 + 4 * n, 0x0⟩
def TWN_CONFIG_SEQ_SEQ (n : Nat) : Fld := (TWN_CONFIG_SEQ n).fld 0 32
/-- TWN_CREMA[0..1][0..7] (R586); class H. -/
def TWN_CREMA (n : Nat) (m : Nat) : Reg := ⟨0x700040 + 32 * n + 4 * m, 0x0⟩
def TWN_CREMA_BYTES (n : Nat) (m : Nat) : Fld := (TWN_CREMA n m).fld 0 32
/-- TWN_DIV_CNT[0..4] (R586); class H. -/
def TWN_DIV_CNT (n : Nat) : Reg := ⟨0x700080 + 4 * n, 0x0⟩
def TWN_DIV_CNT_COUNT (n : Nat) : Fld := (TWN_DIV_CNT n).fld 0 32
/-- TWN_DIV_EPOCH (R586); class H. -/
def TWN_DIV_EPOCH : Reg := ⟨0x7000a0, 0x0⟩
def TWN_DIV_EPOCH_EPOCH : Fld := TWN_DIV_EPOCH.fld 0 32
/-- TWN_DIV_INFO (R586); class H. -/
def TWN_DIV_INFO : Reg := ⟨0x7000a4, 0x0⟩
def TWN_DIV_INFO_PLANE : Fld := TWN_DIV_INFO.fld 0 1
def TWN_DIV_INFO_CLASS : Fld := TWN_DIV_INFO.fld 1 3
def TWN_DIV_INFO_FIRST : Fld := TWN_DIV_INFO.fld 4 9
def TWN_DIV_INFO_COUNT : Fld := TWN_DIV_INFO.fld 13 9
/-- TWN_LN_CFG[0..1] (R586); class H. -/
def TWN_LN_CFG (n : Nat) : Reg := ⟨0x701000 + 4 * n, 0x545228⟩
def TWN_LN_CFG_TX_SWING (n : Nat) : Fld := (TWN_LN_CFG n).fld 0 4
def TWN_LN_CFG_TX_PRE (n : Nat) : Fld := (TWN_LN_CFG n).fld 4 3
def TWN_LN_CFG_TX_POST (n : Nat) : Fld := (TWN_LN_CFG n).fld 7 4
def TWN_LN_CFG_EYE_MIN (n : Nat) : Fld := (TWN_LN_CFG n).fld 11 6
def TWN_LN_CFG_RETRY_S (n : Nat) : Fld := (TWN_LN_CFG n).fld 17 5
def TWN_LN_CFG_PERC_EN (n : Nat) : Fld := (TWN_LN_CFG n).fld 22 1
/-- TWN_LN_STAT[0..1] (R586); class L, H. -/
def TWN_LN_STAT (n : Nat) : Reg := ⟨0x701100 + 4 * n, 0x0⟩
def TWN_LN_STAT_STATE (n : Nat) : Fld := (TWN_LN_STAT n).fld 0 4
def TWN_LN_STAT_POL_INV (n : Nat) : Fld := (TWN_LN_STAT n).fld 4 1
def TWN_LN_STAT_SIGNAL (n : Nat) : Fld := (TWN_LN_STAT n).fld 5 1
def TWN_LN_STAT_ACCEPTED_VALID (n : Nat) : Fld := (TWN_LN_STAT n).fld 6 1
def TWN_LN_STAT_LOCK_LOST_SEEN (n : Nat) : Fld := (TWN_LN_STAT n).fld 16 1
def TWN_LN_STAT_FAILED_SEEN (n : Nat) : Fld := (TWN_LN_STAT n).fld 17 1
def TWN_LN_STAT_VERIFY_FAIL_SEEN (n : Nat) : Fld := (TWN_LN_STAT n).fld 18 1
def TWN_LN_STAT_EYE_LOW_SEEN (n : Nat) : Fld := (TWN_LN_STAT n).fld 19 1
def TWN_LN_STAT_PERC_POST_ERR (n : Nat) : Fld := (TWN_LN_STAT n).fld 20 1
def TWN_LN_STAT_POL_INV_SEEN (n : Nat) : Fld := (TWN_LN_STAT n).fld 21 1
/-- TWN_LN_EQ[0..1] (R586); class L, H. -/
def TWN_LN_EQ (n : Nat) : Reg := ⟨0x701200 + 4 * n, 0x0⟩
def TWN_LN_EQ_PEAK (n : Nat) : Fld := (TWN_LN_EQ n).fld 0 4
def TWN_LN_EQ_GAIN (n : Nat) : Fld := (TWN_LN_EQ n).fld 4 2
def TWN_LN_EQ_TRIAL_PEAK (n : Nat) : Fld := (TWN_LN_EQ n).fld 8 4
def TWN_LN_EQ_PERC_STEPS (n : Nat) : Fld := (TWN_LN_EQ n).fld 16 8
/-- TWN_LN_EYE[0..1] (R586); class L. -/
def TWN_LN_EYE (n : Nat) : Reg := ⟨0x701300 + 4 * n, 0x0⟩
def TWN_LN_EYE_HEIGHT (n : Nat) : Fld := (TWN_LN_EYE n).fld 0 8
def TWN_LN_EYE_WIDTH (n : Nat) : Fld := (TWN_LN_EYE n).fld 8 8
def TWN_LN_EYE_TRIAL_HEIGHT (n : Nat) : Fld := (TWN_LN_EYE n).fld 16 8
/-- TWN_LN_ERR[0..1] (R586); class L. -/
def TWN_LN_ERR (n : Nat) : Reg := ⟨0x701400 + 4 * n, 0x0⟩
def TWN_LN_ERR_BLOCKS (n : Nat) : Fld := (TWN_LN_ERR n).fld 0 32
/-- TWN_LN_TRAIN[0..1] (R586); class H. -/
def TWN_LN_TRAIN (n : Nat) : Reg := ⟨0x701500 + 4 * n, 0x0⟩
def TWN_LN_TRAIN_RETRAINS (n : Nat) : Fld := (TWN_LN_TRAIN n).fld 0 16
def TWN_LN_TRAIN_RETRIES (n : Nat) : Fld := (TWN_LN_TRAIN n).fld 16 8
def TWN_LN_TRAIN_FAILS (n : Nat) : Fld := (TWN_LN_TRAIN n).fld 24 8
/-- BUS_STATUS (R607); class W. -/
def BUS_STATUS : Reg := ⟨0x780000, 0x40⟩
def BUS_STATUS_ERR : Fld := BUS_STATUS.fld 0 1
def BUS_STATUS_FIREWALL : Fld := BUS_STATUS.fld 1 1
def BUS_STATUS_WDOG_TIMEOUT : Fld := BUS_STATUS.fld 2 1
def BUS_STATUS_LOCK_BREAK : Fld := BUS_STATUS.fld 3 1
def BUS_STATUS_MASTER_ABORT : Fld := BUS_STATUS.fld 4 1
def BUS_STATUS_APT_HANG : Fld := BUS_STATUS.fld 5 1
def BUS_STATUS_DEFAULTS_RESTORED : Fld := BUS_STATUS.fld 6 1
/-- BUS_INT_EN (R607); class H. -/
def BUS_INT_EN : Reg := ⟨0x780004, 0x2e⟩
def BUS_INT_EN_ERR : Fld := BUS_INT_EN.fld 0 1
def BUS_INT_EN_FIREWALL : Fld := BUS_INT_EN.fld 1 1
def BUS_INT_EN_WDOG_TIMEOUT : Fld := BUS_INT_EN.fld 2 1
def BUS_INT_EN_LOCK_BREAK : Fld := BUS_INT_EN.fld 3 1
def BUS_INT_EN_MASTER_ABORT : Fld := BUS_INT_EN.fld 4 1
def BUS_INT_EN_APT_HANG : Fld := BUS_INT_EN.fld 5 1
/-- BUS_APT_CTL (R607); class H. -/
def BUS_APT_CTL : Reg := ⟨0x780008, 0x0⟩
def BUS_APT_CTL_ENABLE : Fld := BUS_APT_CTL.fld 0 1
/-- BUS_ERR_ADDR_LO (R607); class W. -/
def BUS_ERR_ADDR_LO : Reg := ⟨0x78000c, 0x0⟩
def BUS_ERR_ADDR_LO_ADDR_LO : Fld := BUS_ERR_ADDR_LO.fld 0 32
/-- BUS_ERR_ADDR_HI (R607); class W. -/
def BUS_ERR_ADDR_HI : Reg := ⟨0x780010, 0x0⟩
def BUS_ERR_ADDR_HI_ADDR_HI : Fld := BUS_ERR_ADDR_HI.fld 0 12
/-- BUS_ERR_INFO (R607); class W. -/
def BUS_ERR_INFO : Reg := ⟨0x780014, 0x0⟩
def BUS_ERR_INFO_MASTER : Fld := BUS_ERR_INFO.fld 0 4
def BUS_ERR_INFO_KIND : Fld := BUS_ERR_INFO.fld 4 3
def BUS_ERR_INFO_WRITE : Fld := BUS_ERR_INFO.fld 7 1
def BUS_ERR_INFO_ID : Fld := BUS_ERR_INFO.fld 8 4
def BUS_ERR_INFO_USER : Fld := BUS_ERR_INFO.fld 12 1
def BUS_ERR_INFO_VALID : Fld := BUS_ERR_INFO.fld 13 1
/-- BUS_WDOG_COUNT (R607); class H. -/
def BUS_WDOG_COUNT : Reg := ⟨0x780018, 0x0⟩
def BUS_WDOG_COUNT_COUNT : Fld := BUS_WDOG_COUNT.fld 0 32
/-- BUS_LOCK_BREAKS (R607); class H. -/
def BUS_LOCK_BREAKS : Reg := ⟨0x78001c, 0x0⟩
def BUS_LOCK_BREAKS_COUNT : Fld := BUS_LOCK_BREAKS.fld 0 32
/-- BUS_MST_STAT[0..9] (R607); class W. -/
def BUS_MST_STAT (n : Nat) : Reg := ⟨0x780100 + 4 * n, 0x0⟩
def BUS_MST_STAT_OUTSTANDING (n : Nat) : Fld := (BUS_MST_STAT n).fld 0 5
def BUS_MST_STAT_LOCKED (n : Nat) : Fld := (BUS_MST_STAT n).fld 5 1
def BUS_MST_STAT_WAITING (n : Nat) : Fld := (BUS_MST_STAT n).fld 6 1
/-- BUS_MST_ERR[0..9] (R607); class H. -/
def BUS_MST_ERR (n : Nat) : Reg := ⟨0x780140 + 4 * n, 0x0⟩
def BUS_MST_ERR_COUNT (n : Nat) : Fld := (BUS_MST_ERR n).fld 0 32
/-- BUS_MASTER_ABORT[0..9] (R607); class H. -/
def BUS_MASTER_ABORT (n : Nat) : Reg := ⟨0x780180 + 4 * n, 0x0⟩
def BUS_MASTER_ABORT_COUNT (n : Nat) : Fld := (BUS_MASTER_ABORT n).fld 0 32
/-- BUS_FW[0..9] (R607); class P. -/
def BUS_FW (n : Nat) : Reg := ⟨0x780200 + 4 * n, 0x0⟩
def BUS_FW_READ (n : Nat) : Fld := (BUS_FW n).fld 0 8
def BUS_FW_WRITE (n : Nat) : Fld := (BUS_FW n).fld 8 8
/-- BUS_FW_LOCK (R607); class P. -/
def BUS_FW_LOCK : Reg := ⟨0x780240, 0x0⟩
def BUS_FW_LOCK_LOCKED : Fld := BUS_FW_LOCK.fld 0 1
/-- BUS_PROT[0..7] (R607); class P. -/
def BUS_PROT (n : Nat) : Reg := ⟨0x780280 + 4 * n, 0x0⟩
def BUS_PROT_FIRST (n : Nat) : Fld := (BUS_PROT n).fld 0 11
def BUS_PROT_LAST (n : Nat) : Fld := (BUS_PROT n).fld 11 11
def BUS_PROT_WMASK (n : Nat) : Fld := (BUS_PROT n).fld 22 10
/-- BUS_APT_MAP[0..4095] (R607); class H. -/
def BUS_APT_MAP (n : Nat) : Reg := ⟨0x784000 + 4 * n, 0x0⟩
def BUS_APT_MAP_TARGET (n : Nat) : Fld := (BUS_APT_MAP n).fld 0 24
def BUS_APT_MAP_VALID (n : Nat) : Fld := (BUS_APT_MAP n).fld 31 1
/-- PMC_STATUS (R608); class H. -/
def PMC_STATUS : Reg := ⟨0x7c0000, 0x8⟩
def PMC_STATUS_OVF : Fld := PMC_STATUS.fld 0 1
def PMC_STATUS_SMP_FULL : Fld := PMC_STATUS.fld 1 1
def PMC_STATUS_NME_FULL : Fld := PMC_STATUS.fld 2 1
def PMC_STATUS_DEFAULTS_RESTORED : Fld := PMC_STATUS.fld 3 1
/-- PMC_INT_EN (R608); class H. -/
def PMC_INT_EN : Reg := ⟨0x7c0004, 0x6⟩
def PMC_INT_EN_OVF : Fld := PMC_INT_EN.fld 0 1
def PMC_INT_EN_SMP_FULL : Fld := PMC_INT_EN.fld 1 1
def PMC_INT_EN_NME_FULL : Fld := PMC_INT_EN.fld 2 1
/-- PMC_CTL (R608); class H. -/
def PMC_CTL : Reg := ⟨0x7c0008, 0x0⟩
def PMC_CTL_USER_EN : Fld := PMC_CTL.fld 0 1
def PMC_CTL_FREEZE : Fld := PMC_CTL.fld 1 1
/-- PMC_NME_CTL (R608); class H. -/
def PMC_NME_CTL : Reg := ⟨0x7c2000, 0x40⟩
def PMC_NME_CTL_ENABLE : Fld := PMC_NME_CTL.fld 0 1
def PMC_NME_CTL_CLEAR : Fld := PMC_NME_CTL.fld 1 1
def PMC_NME_CTL_MEAN_LOG2 : Fld := PMC_NME_CTL.fld 2 6
/-- PMC_NME_STAT (R608); class H. -/
def PMC_NME_STAT : Reg := ⟨0x7c2004, 0x0⟩
def PMC_NME_STAT_FILL : Fld := PMC_NME_STAT.fld 0 7
/-- PMC_NME_LOST (R608); class H. -/
def PMC_NME_LOST : Reg := ⟨0x7c2008, 0x0⟩
def PMC_NME_LOST_COUNT : Fld := PMC_NME_LOST.fld 0 32
/-- PMC_NME_TAG[0..63][0..3] (R608); class H. -/
def PMC_NME_TAG (n : Nat) (m : Nat) : Reg := ⟨0x7c2100 + 16 * n + 4 * m, 0x0⟩
def PMC_NME_TAG_WORD (n : Nat) (m : Nat) : Fld := (PMC_NME_TAG n m).fld 0 32
/-- PMC_CYC_LO[0..3] (R608); class H. -/
def PMC_CYC_LO (n : Nat) : Reg := ⟨0x7c1000 + 256 * n, 0x0⟩
def PMC_CYC_LO_COUNT (n : Nat) : Fld := (PMC_CYC_LO n).fld 0 32
/-- PMC_CYC_HI[0..3] (R608); class H. -/
def PMC_CYC_HI (n : Nat) : Reg := ⟨0x7c1004 + 256 * n, 0x0⟩
def PMC_CYC_HI_COUNT (n : Nat) : Fld := (PMC_CYC_HI n).fld 0 32
/-- PMC_OVF[0..3] (R608); class H. -/
def PMC_OVF (n : Nat) : Reg := ⟨0x7c1008 + 256 * n, 0x0⟩
def PMC_OVF_OVF (n : Nat) : Fld := (PMC_OVF n).fld 0 9
/-- PMC_EVSEL[0..3][0..7] (R608); class H. -/
def PMC_EVSEL (n : Nat) (m : Nat) : Reg := ⟨0x7c1010 + 256 * n + 4 * m, 0x0⟩
def PMC_EVSEL_EVENT (n : Nat) (m : Nat) : Fld := (PMC_EVSEL n m).fld 0 8
def PMC_EVSEL_MODE (n : Nat) (m : Nat) : Fld := (PMC_EVSEL n m).fld 8 2
def PMC_EVSEL_PRIV (n : Nat) (m : Nat) : Fld := (PMC_EVSEL n m).fld 10 2
/-- PMC_CNT[0..3][0..7] (R608); class H. -/
def PMC_CNT (n : Nat) (m : Nat) : Reg := ⟨0x7c1030 + 256 * n + 4 * m, 0x0⟩
def PMC_CNT_COUNT (n : Nat) (m : Nat) : Fld := (PMC_CNT n m).fld 0 32
/-- PMC_SMP_CTL[0..3] (R608); class H. -/
def PMC_SMP_CTL (n : Nat) : Reg := ⟨0x7c1050 + 256 * n, 0x10000⟩
def PMC_SMP_CTL_ENABLE (n : Nat) : Fld := (PMC_SMP_CTL n).fld 0 1
def PMC_SMP_CTL_KIND (n : Nat) : Fld := (PMC_SMP_CTL n).fld 1 2
def PMC_SMP_CTL_CLEAR (n : Nat) : Fld := (PMC_SMP_CTL n).fld 3 1
def PMC_SMP_CTL_PERIOD (n : Nat) : Fld := (PMC_SMP_CTL n).fld 16 16
/-- PMC_SMP_STAT[0..3] (R608); class H. -/
def PMC_SMP_STAT (n : Nat) : Reg := ⟨0x7c1054 + 256 * n, 0x0⟩
def PMC_SMP_STAT_FILL (n : Nat) : Fld := (PMC_SMP_STAT n).fld 0 9
/-- PMC_SMP_LOST[0..3] (R608); class H. -/
def PMC_SMP_LOST (n : Nat) : Reg := ⟨0x7c1058 + 256 * n, 0x0⟩
def PMC_SMP_LOST_COUNT (n : Nat) : Fld := (PMC_SMP_LOST n).fld 0 32
/-- PMC_SMP_BUF[0..3][0..255][0..3] (R608); class H. -/
def PMC_SMP_BUF (n : Nat) (m : Nat) (k : Nat) : Reg := ⟨0x7c8000 + 4096 * n + 16 * m + 4 * k, 0x0⟩
def PMC_SMP_BUF_WORD (n : Nat) (m : Nat) (k : Nat) : Fld := (PMC_SMP_BUF n m k).fld 0 32
/-- SEC_STATUS (R635); class H, P. -/
def SEC_STATUS : Reg := ⟨0x800000, 0x80⟩
def SEC_STATUS_FELL_BACK : Fld := SEC_STATUS.fld 0 1
def SEC_STATUS_HEALTH_EXPIRED : Fld := SEC_STATUS.fld 1 1
def SEC_STATUS_SELF_CHECK_FAIL : Fld := SEC_STATUS.fld 2 1
def SEC_STATUS_SCHEMA_REFUSED : Fld := SEC_STATUS.fld 3 1
def SEC_STATUS_COMPONENT_BAD : Fld := SEC_STATUS.fld 4 1
def SEC_STATUS_IDENTITY_FAULT : Fld := SEC_STATUS.fld 5 1
def SEC_STATUS_NO_IMAGE : Fld := SEC_STATUS.fld 6 1
def SEC_STATUS_DEFAULTS_RESTORED : Fld := SEC_STATUS.fld 7 1
/-- SEC_INT_EN (R635); class H. -/
def SEC_INT_EN : Reg := ⟨0x800004, 0x1f⟩
def SEC_INT_EN_FELL_BACK : Fld := SEC_INT_EN.fld 0 1
def SEC_INT_EN_HEALTH_EXPIRED : Fld := SEC_INT_EN.fld 1 1
def SEC_INT_EN_SELF_CHECK_FAIL : Fld := SEC_INT_EN.fld 2 1
def SEC_INT_EN_SCHEMA_REFUSED : Fld := SEC_INT_EN.fld 3 1
def SEC_INT_EN_COMPONENT_BAD : Fld := SEC_INT_EN.fld 4 1
/-- UPD_STATE (R635); class F, H, N. -/
def UPD_STATE : Reg := ⟨0x800008, 0x0⟩
def UPD_STATE_RUN_BANK : Fld := UPD_STATE.fld 0 1
def UPD_STATE_TRIAL : Fld := UPD_STATE.fld 1 1
def UPD_STATE_TRIAL_COUNT : Fld := UPD_STATE.fld 2 1
def UPD_STATE_JOURNAL_AREA : Fld := UPD_STATE.fld 3 1
def UPD_STATE_SELF_CHECK_PASSED : Fld := UPD_STATE.fld 4 1
def UPD_STATE_SERDES_ROLLOUT : Fld := UPD_STATE.fld 5 1
def UPD_STATE_BUSY : Fld := UPD_STATE.fld 6 1
def UPD_STATE_REC_SEQ : Fld := UPD_STATE.fld 16 16
/-- UPD_HEALTH (R635); class F, N. -/
def UPD_HEALTH : Reg := ⟨0x80000c, 0x0⟩
def UPD_HEALTH_WINDOW_S : Fld := UPD_HEALTH.fld 0 12
def UPD_HEALTH_REMAIN_S : Fld := UPD_HEALTH.fld 16 12
/-- UPD_DL_BYTES (R635); class H. -/
def UPD_DL_BYTES : Reg := ⟨0x800010, 0x0⟩
def UPD_DL_BYTES_BYTES : Fld := UPD_DL_BYTES.fld 0 32
/-- UPD_SCHEMA (R635); class F. -/
def UPD_SCHEMA : Reg := ⟨0x800014, 0x0⟩
def UPD_SCHEMA_RUNNING : Fld := UPD_SCHEMA.fld 0 16
def UPD_SCHEMA_JOURNAL : Fld := UPD_SCHEMA.fld 16 16
/-- SEC_BOOT (R635); class H, P, N. -/
def SEC_BOOT : Reg := ⟨0x800018, 0x0⟩
def SEC_BOOT_BOOT_MODE : Fld := SEC_BOOT.fld 0 2
def SEC_BOOT_DEBUG_DISABLE : Fld := SEC_BOOT.fld 2 1
def SEC_BOOT_DEBUG_HOLD : Fld := SEC_BOOT.fld 3 1
/-- UPD_BANK_VER[0..1] (R635); class H. -/
def UPD_BANK_VER (n : Nat) : Reg := ⟨0x800020 + 16 * n, 0x0⟩
def UPD_BANK_VER_VERSION (n : Nat) : Fld := (UPD_BANK_VER n).fld 0 32
/-- UPD_BANK_STAT[0..1] (R635); class H. -/
def UPD_BANK_STAT (n : Nat) : Reg := ⟨0x800024 + 16 * n, 0x0⟩
def UPD_BANK_STAT_VALID (n : Nat) : Fld := (UPD_BANK_STAT n).fld 0 1
def UPD_BANK_STAT_VERIFIED (n : Nat) : Fld := (UPD_BANK_STAT n).fld 1 1
/-- SEC_BOOT_KEY_HASH[0..7] (R635); class N. -/
def SEC_BOOT_KEY_HASH (n : Nat) : Reg := ⟨0x800040 + 4 * n, 0x0⟩
def SEC_BOOT_KEY_HASH_HASH (n : Nat) : Fld := (SEC_BOOT_KEY_HASH n).fld 0 32
/-- SEC_OTP_CTR[0..63] (R635); class N. -/
def SEC_OTP_CTR (n : Nat) : Reg := ⟨0x800100 + 4 * n, 0x0⟩
def SEC_OTP_CTR_VALUE (n : Nat) : Fld := (SEC_OTP_CTR n).fld 0 6

/-- The access and retention table: base, up to three (stride, count) pairs, reset value, then the masks of the RW, W1C and
W1S bits, the masks of the bits of class L, F, W, H and P, and whether the host may write the register (R15). A live field of
class L shows the lane as it is, so it stands in the mask of class H here: FWR and WDT leave the lanes running (R100, R155). -/
def regRows0 : List RegRow := [
  ⟨0x40, 4, 1, 4, 1, 4, 1, 0x0, 0x0, 0x0, 0x0, 0x0, 0x0, 0x0, 0x1ff, 0x0, true⟩,
  ⟨0x0, 4, 1, 4, 1, 4, 1, 0x13840a6f, 0x0, 0x0, 0x0, 0x0, 0x0, 0x0, 0x0, 0x0, true⟩,
  ⟨0x4, 4, 1, 4, 1, 4, 1, 0x0, 0x0, 0x0, 0x0, 0x0, 0x0, 0x0, 0x3, 0x0, true⟩,
  ⟨0x8, 4, 1, 4, 1, 4, 1, 0x20, 0x0, 0x66, 0x0, 0x0, 0x21, 0x0, 0x5e, 0x0, true⟩,
  ⟨0xc, 4, 1, 4, 1, 4, 1, 0x8, 0x0, 0xf, 0x0, 0x0, 0x0, 0x0, 0x0, 0xf, true⟩,
  ⟨0x10, 4, 1, 4, 1, 4, 1, 0x0, 0x0, 0x0, 0x0, 0x0, 0x0, 0x0, 0xffffffff, 0x0, true⟩,
  ⟨0x14, 4, 1, 4, 1, 4, 1, 0x0, 0x0, 0x0, 0x0, 0x0, 0x0, 0x0, 0xffffffff, 0x0, true⟩,
  ⟨0x18, 4, 1, 4, 1, 4, 1, 0x0, 0x0, 0x0, 0x0, 0x0, 0xffffffff, 0x0, 0x0, 0x0, true⟩,
  ⟨0x20, 4, 1, 4, 1, 4, 1, 0x0, 0x0, 0x0, 0x0, 0x0, 0x0, 0x0, 0xffffffff, 0x0, true⟩,
  ⟨0x24, 4, 1, 4, 1, 4, 1, 0x0, 0xffffffff, 0x0, 0x0, 0x0, 0x0, 0x0, 0xffffffff, 0x0, true⟩,
  ⟨0x10000, 4, 1, 4, 1, 4, 1, 0x2, 0x0, 0x3, 0x0, 0x0, 0x3, 0x0, 0x0, 0x0, true⟩,
  ⟨0x10004, 4, 1, 4, 1, 4, 1, 0x3ffff, 0x3ffff, 0x0, 0x0, 0x0, 0x0, 0x0, 0x3ffff, 0x0, true⟩,
  ⟨0x10008, 4, 1, 4, 1, 4, 1, 0x0, 0x0, 0x0, 0x0, 0x0, 0xff, 0x0, 0x0, 0x0, true⟩,
  ⟨0x1000c, 4, 1, 4, 1, 4, 1, 0x0, 0xff, 0x0, 0x0, 0x0, 0xff, 0x0, 0x0, 0x0, true⟩,
  ⟨0x10010, 4, 1, 4, 1, 4, 1, 0x0, 0x0, 0x0, 0x0, 0x0, 0xffffffff, 0x0, 0x0, 0x0, true⟩,
  ⟨0x10100, 8, 16, 4, 1, 4, 1, 0x0, 0x0, 0x0, 0x0, 0x0, 0x0, 0x0, 0x0, 0x0, true⟩,
  ⟨0x10104, 8, 16, 4, 1, 4, 1, 0x0, 0x0, 0xe, 0x0, 0x0, 0xffff000f, 0x0, 0x0, 0x0, true⟩,
  ⟨0x20000, 4, 1, 4, 1, 4, 1, 0x80, 0x0, 0xfd, 0x0, 0x0, 0x0, 0x0, 0x5c, 0xffa3, false⟩,
  ⟨0x20004, 4, 1, 4, 1, 4, 1, 0x18d, 0x1fd, 0x0, 0x0, 0x0, 0x0, 0x0, 0x1fd, 0x0, true⟩,
  ⟨0x20008, 4, 1, 4, 1, 4, 1, 0x0, 0x0, 0x0, 0x0, 0x0, 0x0, 0x0, 0x0, 0xffffffff, false⟩,
  ⟨0x2000c, 4, 1, 4, 1, 4, 1, 0x0, 0x0, 0xff, 0x0, 0x0, 0x0, 0x0, 0x0, 0xff, false⟩,
  ⟨0x20010, 4, 1, 4, 1, 4, 1, 0x0, 0x0, 0x0, 0x0, 0x0, 0x0, 0x0, 0x0, 0x3ff, false⟩,
  ⟨0x20014, 4, 1, 4, 1, 4, 1, 0x0, 0x0, 0x0, 0x0, 0x0, 0x0, 0x0, 0x0, 0x0, false⟩,
  ⟨0x20018, 4, 1, 4, 1, 4, 1, 0x0, 0x0, 0x1f, 0x0, 0x0, 0x0, 0x0, 0x18, 0x7, false⟩,
  ⟨0x20020, 4, 1, 4, 1, 4, 1, 0x0, 0x0, 0x0, 0x0, 0x0, 0x0, 0x0, 0x0, 0x0, false⟩,
  ⟨0x20024, 4, 1, 4, 1, 4, 1, 0x0, 0x0, 0x0, 0x0, 0x0, 0x0, 0x0, 0x1ff, 0x0, false⟩,
  ⟨0x20028, 4, 1, 4, 1, 4, 1, 0x64, 0xff, 0x0, 0x0, 0x0, 0x0, 0x0, 0xff, 0x0, false⟩,
  ⟨0x2002c, 4, 1, 4, 1, 4, 1, 0x6e, 0xff, 0x0, 0x0, 0x0, 0x0, 0x0, 0xff, 0x0, false⟩,
  ⟨0x20040, 4, 1, 4, 1, 4, 1, 0x29402bc, 0xfff0fff, 0x0, 0x0, 0x0, 0x0, 0x0, 0x0, 0xfff0fff, false⟩,
  ⟨0x20044, 4, 1, 4, 1, 4, 1, 0x29402bc, 0xfff0fff, 0x0, 0x0, 0x0, 0x0, 0x0, 0x0, 0xfff0fff, false⟩,
  ⟨0x20048, 4, 1, 4, 1, 4, 1, 0x2bc02e4, 0xfff0fff, 0x0, 0x0, 0x0, 0x0, 0x0, 0x0, 0xfff0fff, false⟩,
  ⟨0x2004c, 4, 1, 4, 1, 4, 1, 0x2ee0316, 0xfff0fff, 0x0, 0x0, 0x0, 0x0, 0x0, 0x0, 0xfff0fff, false⟩,
  ⟨0x20050, 4, 1, 4, 1, 4, 1, 0x4240460, 0xfff0fff, 0x0, 0x0, 0x0, 0x0, 0x0, 0x0, 0xfff0fff, false⟩,
  ⟨0x20054, 4, 1, 4, 1, 4, 1, 0x3e80410, 0xfff0fff, 0x0, 0x0, 0x0, 0x0, 0x0, 0x0, 0xfff0fff, false⟩,
  ⟨0x20058, 4, 1, 4, 1, 4, 1, 0x6400690, 0xfff0fff, 0x0, 0x0, 0x0, 0x0, 0x0, 0x0, 0xfff0fff, false⟩,
  ⟨0x2005c, 4, 1, 4, 1, 4, 1, 0x6400690, 0xfff0fff, 0x0, 0x0, 0x0, 0x0, 0x0, 0x0, 0xfff0fff, false⟩,
  ⟨0x20400, 4, 248, 4, 1, 4, 1, 0xa, 0x3, 0x0, 0x0, 0x0, 0x0, 0x0, 0x1f, 0x0, false⟩,
  ⟨0x30000, 4, 1, 4, 1, 4, 1, 0x100, 0x0, 0x1ff, 0x0, 0x0, 0x0, 0x0, 0x1ff, 0x0, false⟩,
  ⟨0x30004, 4, 1, 4, 1, 4, 1, 0xff, 0xff, 0x0, 0x0, 0x0, 0x0, 0x0, 0xff, 0x0, true⟩,
  ⟨0x30008, 4, 1, 4, 1, 4, 1, 0xa0064, 0x3ffffff, 0x0, 0x0, 0x0, 0x0, 0x0, 0x3ffffff, 0x0, false⟩]
def regRows1 : List RegRow := [
  ⟨0x3000c, 4, 1, 4, 1, 4, 1, 0x0, 0x0, 0x0, 0x0, 0x0, 0x0, 0x0, 0x1, 0x0, false⟩,
  ⟨0x30010, 4, 1, 4, 1, 4, 1, 0x0, 0x0, 0x0, 0x0, 0x0, 0x0, 0x0, 0x0, 0x0, false⟩,
  ⟨0x30100, 4, 5, 4, 1, 4, 1, 0xc800, 0xfff7f, 0x0, 0x0, 0x0, 0x0, 0x0, 0xfff7f, 0x0, false⟩,
  ⟨0x30120, 4, 5, 4, 1, 4, 1, 0x1f40000, 0x1fff0077, 0x0, 0x0, 0x0, 0x0, 0x0, 0x1fff0077, 0x0, false⟩,
  ⟨0x30140, 4, 5, 4, 1, 4, 1, 0x0, 0x0, 0x70000, 0x0, 0x0, 0x0, 0x0, 0x701ff, 0x0, false⟩,
  ⟨0x30160, 4, 5, 4, 1, 4, 1, 0x0, 0x0, 0x0, 0x0, 0x0, 0x0, 0x0, 0xffffffff, 0x0, false⟩,
  ⟨0x30180, 8, 5, 4, 2, 4, 1, 0x0, 0xffffffff, 0x0, 0x0, 0x0, 0x0, 0x0, 0xffffffff, 0x0, false⟩,
  ⟨0x30200, 32, 2, 4, 1, 4, 1, 0xa20, 0xff3f, 0x0, 0x0, 0x0, 0x0, 0x0, 0xff3f, 0x0, false⟩,
  ⟨0x30204, 32, 2, 4, 1, 4, 1, 0x38, 0x0, 0x1f0000, 0x0, 0x0, 0x0, 0x0, 0x1f00ff, 0x0, false⟩,
  ⟨0x30208, 32, 2, 4, 1, 4, 1, 0x0, 0x0, 0x0, 0x0, 0x0, 0x0, 0x0, 0xffffffff, 0x0, false⟩,
  ⟨0x3020c, 32, 2, 4, 1, 4, 1, 0x0, 0x0, 0x0, 0x0, 0x0, 0x0, 0x0, 0xffffffff, 0x0, false⟩,
  ⟨0x30210, 32, 2, 4, 1, 4, 1, 0x0, 0x0, 0x0, 0x0, 0x0, 0x0, 0x0, 0xffffffff, 0x0, false⟩,
  ⟨0x30214, 32, 2, 4, 1, 4, 1, 0x0, 0x0, 0x0, 0x0, 0x0, 0x0, 0x0, 0xffffffff, 0x0, false⟩,
  ⟨0x40000, 4, 1, 4, 1, 4, 1, 0x40, 0x0, 0x7f, 0x0, 0x0, 0x0, 0x0, 0x7f, 0x0, false⟩,
  ⟨0x40004, 4, 1, 4, 1, 4, 1, 0x3f, 0x3f, 0x0, 0x0, 0x0, 0x0, 0x0, 0x3f, 0x0, true⟩,
  ⟨0x40008, 4, 1, 4, 1, 4, 1, 0x0, 0x0, 0x0, 0x0, 0x0, 0x0, 0x0, 0xffffffff, 0x0, false⟩,
  ⟨0x4000c, 4, 1, 4, 1, 4, 1, 0x0, 0x0, 0x0, 0x0, 0x0, 0x0, 0x0, 0xffffffff, 0x0, false⟩,
  ⟨0x40010, 4, 1, 4, 1, 4, 1, 0x0, 0x0, 0x0, 0x0, 0x0, 0x0, 0x0, 0x1f, 0x0, false⟩,
  ⟨0x40014, 4, 1, 4, 1, 4, 1, 0x0, 0x0, 0x0, 0x0, 0x0, 0x0, 0x0, 0xffffffff, 0x0, false⟩,
  ⟨0x40018, 4, 1, 4, 1, 4, 1, 0x0, 0xffffffff, 0x0, 0x0, 0x0, 0x0, 0x0, 0xffffffff, 0x0, false⟩,
  ⟨0x4001c, 4, 1, 4, 1, 4, 1, 0x0, 0x0, 0x0, 0x0, 0x0, 0x0, 0x0, 0xffffffff, 0x0, false⟩,
  ⟨0x40020, 4, 1, 4, 1, 4, 1, 0x13de7f, 0x7fffff, 0x0, 0x0, 0x0, 0x0, 0x0, 0x7fffff, 0x0, false⟩,
  ⟨0x40024, 4, 1, 4, 1, 4, 1, 0x2710, 0xfffff, 0x0, 0x0, 0x0, 0x0, 0x0, 0xfffff, 0x0, false⟩,
  ⟨0x40028, 4, 1, 4, 1, 4, 1, 0x0, 0x0, 0x0, 0x0, 0x0, 0x0, 0x0, 0xffffffff, 0x0, false⟩,
  ⟨0x4002c, 4, 1, 4, 1, 4, 1, 0x0, 0x0, 0x0, 0x0, 0x0, 0x0, 0x0, 0xffffffff, 0x0, false⟩,
  ⟨0x40030, 4, 1, 4, 1, 4, 1, 0x0, 0x0, 0x0, 0x0, 0x0, 0x0, 0x0, 0xffffffff, 0x0, false⟩,
  ⟨0x40100, 64, 2, 4, 1, 4, 1, 0x0, 0x1, 0x0, 0x0, 0x0, 0x0, 0x0, 0x1, 0x0, false⟩,
  ⟨0x40104, 64, 2, 4, 1, 4, 1, 0x0, 0x0, 0xc, 0x0, 0x0, 0x0, 0x0, 0x7ffff, 0x0, false⟩,
  ⟨0x40108, 64, 2, 4, 1, 4, 1, 0x0, 0x0, 0x0, 0x0, 0x0, 0x0, 0x0, 0xffffffff, 0x0, false⟩,
  ⟨0x4010c, 64, 2, 4, 1, 4, 1, 0x0, 0x0, 0x0, 0x0, 0x0, 0x0, 0x0, 0xffffffff, 0x0, false⟩,
  ⟨0x40110, 64, 2, 4, 4, 4, 1, 0x0, 0x0, 0x0, 0x0, 0x0, 0x0, 0x0, 0xffffffff, 0x0, false⟩,
  ⟨0x40120, 64, 2, 4, 4, 4, 1, 0x0, 0x0, 0x0, 0x0, 0x0, 0x0, 0x0, 0xffffffff, 0x0, false⟩,
  ⟨0x40130, 64, 2, 4, 1, 4, 1, 0x0, 0x0, 0x0, 0x0, 0x0, 0x0, 0x0, 0x0, 0x0, false⟩,
  ⟨0x80000, 4, 1, 4, 1, 4, 1, 0x40, 0x0, 0x7f, 0x0, 0x0, 0x0, 0x0, 0x1ff, 0x0, false⟩,
  ⟨0x80004, 4, 1, 4, 1, 4, 1, 0x3c, 0x3f, 0x0, 0x0, 0x0, 0x0, 0x0, 0x3f, 0x0, true⟩,
  ⟨0x80010, 4, 2, 4, 1, 4, 1, 0x0, 0x0, 0x0, 0x0, 0x0, 0x0, 0x0, 0xffffffff, 0x0, false⟩,
  ⟨0x80018, 4, 2, 4, 1, 4, 1, 0x0, 0x0, 0x0, 0x0, 0x0, 0x0, 0x0, 0xffffffff, 0x0, false⟩,
  ⟨0x80020, 4, 1, 4, 1, 4, 1, 0x0, 0x0, 0x0, 0x0, 0x0, 0x0, 0x0, 0x7ff07ff, 0x0, false⟩,
  ⟨0x80024, 4, 1, 4, 1, 4, 1, 0x0, 0x0, 0x0, 0x0, 0x0, 0x0, 0x0, 0x1fff, 0x0, false⟩,
  ⟨0x80100, 4, 8, 4, 1, 4, 1, 0x0, 0x1f1f, 0x0, 0x0, 0x0, 0x0, 0x0, 0x1f1f, 0x0, false⟩]
def regRows2 : List RegRow := [
  ⟨0x80120, 4, 8, 4, 1, 4, 1, 0x20080040, 0x3fffffff, 0x0, 0x0, 0x0, 0x0, 0x0, 0x3fffffff, 0x0, false⟩,
  ⟨0x81000, 4, 384, 4, 1, 4, 1, 0x0, 0x7ffff, 0x0, 0x0, 0x0, 0x0, 0x0, 0xfffffff, 0x0, false⟩,
  ⟨0x82000, 4, 384, 4, 1, 4, 1, 0x0, 0x0, 0x70, 0x0, 0x0, 0x0, 0x0, 0xffff007f, 0x0, false⟩,
  ⟨0xc0000, 4, 1, 4, 1, 4, 1, 0x200, 0x0, 0x3ff, 0x0, 0x0, 0x0, 0x0, 0x3ff, 0x0, false⟩,
  ⟨0xc0004, 4, 1, 4, 1, 4, 1, 0xdf, 0x1ff, 0x0, 0x0, 0x0, 0x0, 0x0, 0x1ff, 0x0, true⟩,
  ⟨0xc1000, 4, 332, 4, 1, 4, 1, 0x0, 0x7f, 0x0, 0x0, 0x0, 0x0, 0x0, 0xf7f, 0x0, false⟩,
  ⟨0xc2000, 4, 332, 4, 1, 4, 1, 0x100, 0x0, 0x1ff0000, 0x0, 0x0, 0x0, 0x0, 0x1ff0fff, 0x0, false⟩,
  ⟨0xc3000, 4, 332, 4, 1, 4, 1, 0x0, 0x0, 0x0, 0x0, 0x0, 0x0, 0x0, 0xfffff, 0x0, false⟩,
  ⟨0xc4000, 4, 332, 4, 1, 4, 1, 0x0, 0x0, 0x0, 0x0, 0x0, 0x0, 0x0, 0xffffffff, 0x0, false⟩,
  ⟨0xc5000, 4, 332, 4, 1, 4, 1, 0x0, 0x0, 0x0, 0x0, 0x0, 0x0, 0x0, 0xffffffff, 0x0, false⟩,
  ⟨0xc6000, 4, 332, 4, 1, 4, 1, 0x0, 0x0, 0x0, 0x0, 0x0, 0x0, 0x0, 0xffffffff, 0x0, false⟩,
  ⟨0xc7000, 4, 332, 4, 1, 4, 1, 0x0, 0x0, 0x0, 0x0, 0x0, 0x0, 0x0, 0xffffffff, 0x0, false⟩,
  ⟨0x100000, 4, 1, 4, 1, 4, 1, 0x40, 0x0, 0x7f, 0x0, 0x0, 0x0, 0x0, 0x7f, 0x0, false⟩,
  ⟨0x100004, 4, 1, 4, 1, 4, 1, 0x3c, 0x3f, 0x0, 0x0, 0x0, 0x0, 0x0, 0x3f, 0x0, true⟩,
  ⟨0x100008, 4, 1, 4, 1, 4, 1, 0x0, 0x0, 0x0, 0x0, 0x0, 0x0, 0x0, 0xffffffff, 0x0, false⟩,
  ⟨0x101000, 4, 48, 4, 1, 4, 1, 0x0, 0x7d, 0x0, 0x0, 0x0, 0x0, 0x0, 0xf7f, 0x0, false⟩,
  ⟨0x101100, 4, 48, 4, 1, 4, 1, 0x0, 0xffffffff, 0x0, 0x0, 0x0, 0x0, 0x0, 0xffffffff, 0x0, false⟩,
  ⟨0x101200, 4, 48, 4, 1, 4, 1, 0x0, 0x0, 0x0, 0x0, 0x0, 0x0, 0x0, 0xffffff, 0x0, false⟩,
  ⟨0x101300, 4, 48, 4, 1, 4, 1, 0x0, 0x0, 0x0, 0x0, 0x0, 0x0, 0x0, 0x1ffffff, 0x0, false⟩,
  ⟨0x101400, 4, 48, 4, 1, 4, 1, 0x0, 0x0, 0x0, 0x0, 0x0, 0x0, 0x0, 0xffffffff, 0x0, false⟩,
  ⟨0x102000, 4, 48, 4, 1, 4, 1, 0x0, 0xffffffff, 0x0, 0x0, 0x0, 0x0, 0x0, 0xffffffff, 0x0, false⟩,
  ⟨0x102100, 4, 48, 4, 1, 4, 1, 0x0, 0x0, 0xe000000, 0x0, 0x0, 0x0, 0x0, 0xfffffff, 0x0, false⟩,
  ⟨0x102200, 4, 48, 4, 1, 4, 1, 0x0, 0x0, 0x0, 0x0, 0x0, 0x0, 0x0, 0xffffffff, 0x0, false⟩,
  ⟨0x140000, 4, 1, 4, 1, 4, 1, 0x300, 0x0, 0x1ff, 0x0, 0x0, 0x0, 0x0, 0x3ff, 0x0, false⟩,
  ⟨0x140004, 4, 1, 4, 1, 4, 1, 0xbe, 0xff, 0x0, 0x0, 0x0, 0x0, 0x0, 0xff, 0x0, true⟩,
  ⟨0x140008, 4, 1, 4, 1, 4, 1, 0x0, 0x0, 0x0, 0x0, 0x0, 0x0, 0x0, 0x3ffffff, 0x0, false⟩,
  ⟨0x14000c, 4, 1, 4, 1, 4, 1, 0x181010, 0xffffff, 0x0, 0x0, 0x0, 0x0, 0x0, 0xffffff, 0x0, false⟩,
  ⟨0x141000, 4096, 8, 4, 1, 4, 1, 0x0, 0x0, 0x0, 0x0, 0x0, 0x0, 0x0, 0x1f7, 0x0, false⟩,
  ⟨0x141004, 4096, 8, 4, 1, 4, 1, 0x0, 0x0, 0x0, 0x0, 0x0, 0x0, 0x0, 0x1fff, 0x0, false⟩,
  ⟨0x141008, 4096, 8, 4, 1, 4, 1, 0x0, 0x0, 0x0, 0x0, 0x0, 0x0, 0x0, 0xffffffff, 0x0, false⟩,
  ⟨0x14100c, 4096, 8, 4, 1, 4, 1, 0x0, 0x0, 0x0, 0x0, 0x0, 0x0, 0x0, 0xffffffff, 0x0, false⟩,
  ⟨0x141010, 4096, 8, 4, 1, 4, 1, 0x0, 0x0, 0x0, 0x0, 0x0, 0x0, 0x0, 0xffffffff, 0x0, false⟩,
  ⟨0x141014, 4096, 8, 4, 1, 4, 1, 0x0, 0x0, 0x0, 0x0, 0x0, 0x0, 0x0, 0x1ff, 0x0, false⟩,
  ⟨0x141018, 4096, 8, 4, 1, 4, 1, 0x0, 0x0, 0x80, 0x0, 0x0, 0x0, 0x0, 0xffff01ff, 0x0, false⟩,
  ⟨0x14101c, 4096, 8, 4, 1, 4, 1, 0x0, 0x0, 0x0, 0x0, 0x0, 0x0, 0x0, 0xffffffff, 0x0, false⟩,
  ⟨0x141020, 4096, 8, 4, 1, 4, 1, 0x0, 0x0, 0x0, 0x0, 0x0, 0x0, 0x0, 0xffffffff, 0x0, false⟩,
  ⟨0x141028, 4096, 8, 4, 2, 4, 1, 0x0, 0x0, 0x0, 0x0, 0x0, 0x0, 0x0, 0xfffff, 0x0, false⟩,
  ⟨0x141100, 4096, 8, 4, 40, 4, 1, 0x0, 0x3fff, 0x0, 0x0, 0x0, 0xffff0000, 0x0, 0x3fff, 0x0, false⟩,
  ⟨0x141200, 4096, 8, 4, 40, 4, 1, 0x0, 0x3fff, 0x0, 0x0, 0x0, 0x0, 0x0, 0x3fff, 0x0, false⟩,
  ⟨0x141300, 4096, 8, 4, 40, 4, 1, 0x0, 0x0, 0x0, 0x0, 0x0, 0x0, 0x0, 0xffff, 0x0, false⟩]
def regRows3 : List RegRow := [
  ⟨0x200000, 4, 1, 4, 1, 4, 1, 0x80, 0x0, 0xff, 0x0, 0x0, 0x0, 0x0, 0xff, 0x0, false⟩,
  ⟨0x200004, 4, 1, 4, 1, 4, 1, 0x29, 0x7f, 0x0, 0x0, 0x0, 0x0, 0x0, 0x7f, 0x0, true⟩,
  ⟨0x201000, 4, 48, 4, 1, 4, 1, 0x0, 0x1f, 0x0, 0x0, 0x0, 0x0, 0x0, 0x1f, 0x0, false⟩,
  ⟨0x201100, 4, 48, 4, 1, 4, 1, 0x0, 0x0, 0x1f0000, 0x0, 0x700, 0x0, 0x0, 0x1f00ff, 0x0, false⟩,
  ⟨0x201200, 4, 48, 4, 1, 4, 1, 0x0, 0x0, 0x0, 0x0, 0xffffffff, 0x0, 0x0, 0x0, 0x0, false⟩,
  ⟨0x201300, 4, 48, 4, 1, 4, 1, 0x0, 0x0, 0x0, 0x0, 0x0, 0x0, 0x0, 0xffffffff, 0x0, false⟩,
  ⟨0x201400, 4, 48, 4, 1, 4, 1, 0x0, 0x0, 0x0, 0x0, 0xffffffff, 0x0, 0x0, 0x0, 0x0, false⟩,
  ⟨0x201500, 4, 48, 4, 1, 4, 1, 0x0, 0x0, 0x0, 0x0, 0xffffffff, 0x0, 0x0, 0x0, 0x0, false⟩,
  ⟨0x202000, 4, 48, 4, 1, 4, 1, 0x4, 0xff, 0x0, 0x0, 0x0, 0x0, 0x0, 0xff, 0x0, false⟩,
  ⟨0x202100, 4, 48, 4, 1, 4, 1, 0xc0, 0x0, 0x70000, 0x0, 0x0, 0x0, 0x0, 0x700ff, 0x0, false⟩,
  ⟨0x300008, 4, 1, 4, 1, 4, 1, 0x0, 0x0, 0x3f, 0x0, 0x0, 0x0, 0x0, 0x3f, 0x0, false⟩,
  ⟨0x30000c, 4, 1, 4, 1, 4, 1, 0x1b, 0x3f, 0x0, 0x0, 0x0, 0x0, 0x0, 0x3f, 0x0, true⟩,
  ⟨0x301000, 4, 48, 4, 1, 4, 1, 0x545228, 0x7fffff, 0x0, 0x0, 0x0, 0x0, 0x0, 0x7fffff, 0x0, false⟩,
  ⟨0x301100, 4, 48, 4, 1, 4, 1, 0x0, 0x0, 0x3f0000, 0x0, 0x0, 0x0, 0x0, 0x3f007f, 0x0, false⟩,
  ⟨0x301200, 4, 48, 4, 1, 4, 1, 0x0, 0x0, 0x0, 0x0, 0xf00, 0x0, 0x0, 0xff003f, 0x0, false⟩,
  ⟨0x301300, 4, 48, 4, 1, 4, 1, 0x0, 0x0, 0x0, 0x0, 0xffffff, 0x0, 0x0, 0x0, 0x0, false⟩,
  ⟨0x301400, 4, 48, 4, 1, 4, 1, 0x0, 0x0, 0x0, 0x0, 0xffffffff, 0x0, 0x0, 0x0, 0x0, false⟩,
  ⟨0x301500, 4, 48, 4, 1, 4, 1, 0x0, 0x0, 0x0, 0x0, 0x0, 0x0, 0x0, 0xffffffff, 0x0, false⟩,
  ⟨0x301600, 4, 48, 4, 1, 4, 1, 0x0, 0x3ff, 0x0, 0x0, 0x0, 0x0, 0x0, 0x7ff, 0x0, false⟩,
  ⟨0x301700, 4, 48, 4, 1, 4, 1, 0x0, 0x0, 0x0, 0x0, 0x0, 0x0, 0x0, 0xffffffff, 0x0, false⟩,
  ⟨0x301800, 4, 48, 4, 1, 4, 1, 0x0, 0x0, 0x0, 0x0, 0x0, 0x0, 0x0, 0xffffffff, 0x0, false⟩,
  ⟨0x300000, 4, 1, 4, 1, 4, 1, 0x80, 0x0, 0xff, 0x0, 0x0, 0x0, 0x0, 0xff, 0x0, false⟩,
  ⟨0x300004, 4, 1, 4, 1, 4, 1, 0x7d, 0x7f, 0x0, 0x0, 0x0, 0x0, 0x0, 0x7f, 0x0, true⟩,
  ⟨0x300010, 4, 1, 4, 1, 4, 1, 0x0, 0x1ffffff, 0x0, 0x0, 0x0, 0x0, 0x0, 0x1ffffff, 0x0, false⟩,
  ⟨0x302000, 4, 48, 4, 1, 4, 1, 0x0, 0xffffffff, 0x0, 0x0, 0x0, 0x0, 0x0, 0xffffffff, 0x0, false⟩,
  ⟨0x302100, 4, 48, 4, 1, 4, 1, 0x0, 0x0, 0xf0000, 0x0, 0x0, 0x0, 0x0, 0x7fffff, 0x0, false⟩,
  ⟨0x302200, 4, 48, 4, 1, 4, 1, 0x0, 0x0, 0x0, 0x0, 0x0, 0x0, 0x0, 0xffffffff, 0x0, false⟩,
  ⟨0x302300, 4, 48, 4, 1, 4, 1, 0x0, 0x0, 0x0, 0x0, 0x0, 0x0, 0x0, 0xffffffff, 0x0, false⟩,
  ⟨0x303000, 4, 192, 4, 1, 4, 1, 0x100, 0x1ff, 0x0, 0x0, 0x0, 0x0, 0x0, 0x1ff, 0x0, false⟩,
  ⟨0x303400, 4, 192, 4, 1, 4, 1, 0x0, 0x0, 0x30000, 0x0, 0x0, 0x0, 0x0, 0x30003, 0x0, false⟩,
  ⟨0x303800, 4, 96, 4, 1, 4, 1, 0x0, 0x0, 0x0, 0x0, 0x0, 0x0, 0x0, 0xffffffff, 0x0, false⟩,
  ⟨0x303a00, 4, 96, 4, 1, 4, 1, 0x0, 0x0, 0x0, 0x0, 0x0, 0x0, 0x0, 0xffffffff, 0x0, false⟩,
  ⟨0x400000, 4, 1, 4, 1, 4, 1, 0x1, 0x0, 0x1, 0x0, 0x0, 0x0, 0x0, 0x1, 0x0, false⟩,
  ⟨0x401000, 4096, 2, 4, 1, 4, 1, 0x0, 0x0, 0xff, 0x0, 0x0, 0x0, 0x0, 0x1ff, 0x0, false⟩,
  ⟨0x401004, 4096, 2, 4, 1, 4, 1, 0x12d, 0x1ff, 0x0, 0x0, 0x0, 0x0, 0x0, 0x1ff, 0x0, true⟩,
  ⟨0x401008, 4096, 2, 4, 1, 4, 1, 0xbe43d, 0x7fffff, 0x0, 0x0, 0x0, 0x0, 0x0, 0x7fffff, 0x0, false⟩,
  ⟨0x40100c, 4096, 2, 4, 1, 4, 1, 0x0, 0x0, 0x0, 0x0, 0xf0, 0x0, 0x0, 0xf0f, 0x0, false⟩,
  ⟨0x401010, 4096, 2, 4, 1, 4, 1, 0x0, 0xffffffff, 0x0, 0x0, 0x0, 0x0, 0x0, 0xffffffff, 0x0, false⟩,
  ⟨0x401014, 4096, 2, 4, 1, 4, 1, 0x0, 0xffff, 0x0, 0x0, 0x0, 0x0, 0x0, 0xffff, 0x0, false⟩,
  ⟨0x401020, 4096, 2, 4, 1, 4, 1, 0x0, 0x0, 0x7ffff, 0x0, 0x0, 0x0, 0x0, 0x7ffff, 0x0, false⟩]
def regRows4 : List RegRow := [
  ⟨0x401040, 4096, 2, 4, 1, 4, 1, 0x0, 0x1ffbff, 0x0, 0x0, 0x0, 0x0, 0x0, 0x1fffff, 0x0, false⟩,
  ⟨0x401044, 4096, 2, 4, 1, 4, 1, 0x0, 0x3fffffff, 0x0, 0x0, 0x0, 0x0, 0x0, 0x3fffffff, 0x0, false⟩,
  ⟨0x401048, 4096, 2, 4, 1, 4, 1, 0x0, 0x0, 0x0, 0x0, 0x0, 0x0, 0x0, 0xffffffff, 0x0, false⟩,
  ⟨0x40104c, 4096, 2, 4, 1, 4, 1, 0x0, 0xffffffff, 0x0, 0x0, 0x0, 0x0, 0x0, 0xffffffff, 0x0, false⟩,
  ⟨0x401050, 4096, 2, 4, 1, 4, 1, 0x0, 0x3fffffff, 0x0, 0x0, 0x0, 0x0, 0x0, 0x3fffffff, 0x0, false⟩,
  ⟨0x401100, 4096, 2, 4, 19, 4, 1, 0x0, 0x0, 0x0, 0x0, 0x0, 0x0, 0x0, 0xffffffff, 0x0, false⟩,
  ⟨0x401400, 4096, 2, 4, 256, 4, 1, 0x0, 0xffffffff, 0x0, 0x0, 0x0, 0x0, 0x0, 0xffffffff, 0x0, false⟩,
  ⟨0x401800, 4096, 2, 4, 256, 4, 1, 0x0, 0xffffffff, 0x0, 0x0, 0x0, 0x0, 0x0, 0xffffffff, 0x0, false⟩,
  ⟨0x401030, 4096, 2, 4, 1, 4, 1, 0x0, 0x0, 0x1f, 0x0, 0x0, 0x0, 0x0, 0x3f, 0x0, false⟩,
  ⟨0x401034, 4096, 2, 4, 1, 4, 1, 0x2f, 0x3f, 0x0, 0x0, 0x0, 0x0, 0x0, 0x3f, 0x0, true⟩,
  ⟨0x400020, 16, 2, 4, 1, 4, 1, 0x0, 0x0, 0x0, 0x0, 0x0, 0x0, 0x0, 0xffffffff, 0x0, false⟩,
  ⟨0x400024, 16, 2, 4, 1, 4, 1, 0x0, 0x0, 0x0, 0x0, 0x0, 0x0, 0x0, 0xffffffff, 0x0, false⟩,
  ⟨0x400028, 16, 2, 4, 1, 4, 1, 0x0, 0x0, 0x0, 0x0, 0x0, 0x0, 0x0, 0xffffffff, 0x0, false⟩,
  ⟨0x40002c, 16, 2, 4, 1, 4, 1, 0x0, 0x0, 0x0, 0x0, 0x0, 0x0, 0x0, 0x1, 0x0, false⟩,
  ⟨0x404000, 128, 112, 4, 1, 4, 1, 0x0, 0x1fff, 0x0, 0x0, 0x0, 0x0, 0x0, 0x1fff, 0x0, false⟩,
  ⟨0x404004, 128, 112, 4, 1, 4, 1, 0x0, 0xfff3fff, 0x0, 0x0, 0x0, 0x0, 0x0, 0xfff3fff, 0x0, false⟩,
  ⟨0x404008, 128, 112, 12, 2, 4, 1, 0x0, 0xffffffff, 0x0, 0x0, 0x0, 0x0, 0x0, 0xffffffff, 0x0, false⟩,
  ⟨0x40400c, 128, 112, 12, 2, 4, 1, 0x0, 0xffffffff, 0x0, 0x0, 0x0, 0x0, 0x0, 0xffffffff, 0x0, false⟩,
  ⟨0x404010, 128, 112, 12, 2, 4, 1, 0x0, 0x7fffff, 0x0, 0x0, 0x0, 0x0, 0x0, 0x7fffff, 0x0, false⟩,
  ⟨0x404020, 128, 112, 4, 1, 4, 1, 0x0, 0x0, 0x1fff0000, 0x0, 0x0, 0x0, 0x0, 0x1fff001f, 0x0, false⟩,
  ⟨0x404024, 128, 112, 4, 1, 4, 1, 0x0, 0x0, 0x0, 0x0, 0x0, 0x0, 0x0, 0xffffffff, 0x0, false⟩,
  ⟨0x404040, 128, 112, 4, 7, 4, 1, 0x0, 0x0, 0x0, 0x0, 0x0, 0x0, 0x0, 0xffffffff, 0x0, false⟩,
  ⟨0x408000, 64, 112, 4, 1, 4, 1, 0x0, 0x1fff, 0x0, 0x0, 0x0, 0x0, 0x0, 0x1fff, 0x0, false⟩,
  ⟨0x408004, 64, 112, 4, 1, 4, 1, 0x0, 0x3fff, 0x0, 0x0, 0x0, 0x0, 0x0, 0x3fff, 0x0, false⟩,
  ⟨0x408008, 64, 112, 4, 1, 4, 1, 0x0, 0xffff007f, 0x0, 0x0, 0x0, 0x0, 0x0, 0xffff007f, 0x0, false⟩,
  ⟨0x40800c, 64, 112, 4, 1, 4, 1, 0x0, 0xffffffff, 0x0, 0x0, 0x0, 0x0, 0x0, 0xffffffff, 0x0, false⟩,
  ⟨0x408010, 64, 112, 12, 2, 4, 1, 0x0, 0xffffffff, 0x0, 0x0, 0x0, 0x0, 0x0, 0xffffffff, 0x0, false⟩,
  ⟨0x408014, 64, 112, 12, 2, 4, 1, 0x0, 0xffffffff, 0x0, 0x0, 0x0, 0x0, 0x0, 0xffffffff, 0x0, false⟩,
  ⟨0x408018, 64, 112, 12, 2, 4, 1, 0x0, 0xffffffff, 0x0, 0x0, 0x0, 0x0, 0x0, 0xffffffff, 0x0, false⟩,
  ⟨0x408028, 64, 112, 4, 1, 4, 1, 0x0, 0x0, 0x3f0000, 0x0, 0x0, 0x0, 0x0, 0x3f0003, 0x0, false⟩,
  ⟨0x408030, 64, 112, 4, 4, 4, 1, 0x0, 0x0, 0x0, 0x0, 0x0, 0x0, 0x0, 0xffffffff, 0x0, false⟩,
  ⟨0x500000, 4, 1, 4, 1, 4, 1, 0x10, 0x0, 0x1f, 0x0, 0x0, 0x0, 0x0, 0x1f, 0x0, false⟩,
  ⟨0x500004, 4, 1, 4, 1, 4, 1, 0xd, 0xf, 0x0, 0x0, 0x0, 0x0, 0x0, 0xf, 0x0, true⟩,
  ⟨0x500008, 4, 1, 4, 1, 4, 1, 0x0, 0x1, 0x0, 0x0, 0x0, 0x0, 0x0, 0x3, 0x0, false⟩,
  ⟨0x500010, 4, 1, 4, 1, 4, 1, 0x0, 0x0, 0x0, 0x0, 0x0, 0x0, 0x0, 0xffffffff, 0x0, false⟩,
  ⟨0x500014, 4, 1, 4, 1, 4, 1, 0x0, 0x0, 0x0, 0x0, 0x0, 0x0, 0x0, 0xffffffff, 0x0, false⟩,
  ⟨0x500018, 4, 1, 4, 1, 4, 1, 0x0, 0x0, 0x0, 0x0, 0x0, 0x0, 0x0, 0xffffffff, 0x0, false⟩,
  ⟨0x50001c, 4, 1, 4, 1, 4, 1, 0x0, 0x0, 0x0, 0x0, 0x0, 0x0, 0x0, 0x3ff03ff, 0x0, false⟩,
  ⟨0x500100, 4, 23, 4, 1, 4, 1, 0x0, 0x0, 0x0, 0x0, 0x0, 0x0, 0x0, 0x0, 0x0, false⟩,
  ⟨0x500200, 4, 64, 4, 1, 4, 1, 0x0, 0x0, 0x0, 0x0, 0x0, 0x0, 0x0, 0x83ff, 0x0, false⟩]
def regRows5 : List RegRow := [
  ⟨0x500300, 4, 64, 4, 1, 4, 1, 0x0, 0x0, 0x0, 0x0, 0x0, 0x0, 0x0, 0x83ff, 0x0, false⟩,
  ⟨0x501000, 4, 320, 4, 1, 4, 1, 0x0, 0x1, 0x0, 0x0, 0x0, 0x0, 0x0, 0x1, 0x0, false⟩,
  ⟨0x502000, 4, 512, 4, 1, 4, 1, 0x0, 0x7, 0x0, 0x0, 0x0, 0x0, 0x0, 0xf, 0x0, false⟩,
  ⟨0x503000, 4, 512, 4, 1, 4, 1, 0x1829, 0x3fff, 0x0, 0x0, 0x0, 0x0, 0x0, 0x3fff, 0x0, false⟩,
  ⟨0x504000, 4, 512, 4, 1, 4, 1, 0x5a0, 0x0, 0x200000, 0x0, 0x0, 0x0, 0x0, 0x3fffff, 0x0, false⟩,
  ⟨0x508000, 4, 8192, 4, 1, 4, 1, 0x0, 0xfff7fff, 0x0, 0x0, 0x0, 0x0, 0x0, 0xfff7fff, 0x0, false⟩,
  ⟨0x580000, 4, 1, 4, 1, 4, 1, 0x20, 0x0, 0x3f, 0x0, 0x0, 0x0, 0x0, 0x3f, 0x0, false⟩,
  ⟨0x580004, 4, 1, 4, 1, 4, 1, 0xf, 0x1f, 0x0, 0x0, 0x0, 0x0, 0x0, 0x1f, 0x0, true⟩,
  ⟨0x580008, 4, 1, 4, 1, 4, 1, 0x0, 0x1, 0x0, 0x0, 0x0, 0x0, 0x0, 0x3f, 0x0, false⟩,
  ⟨0x58000c, 4, 1, 4, 1, 4, 1, 0x18181818, 0xffffffff, 0x0, 0x0, 0x0, 0x0, 0x0, 0xffffffff, 0x0, false⟩,
  ⟨0x580010, 4, 1, 4, 1, 4, 1, 0x0, 0x0, 0x0, 0x0, 0x0, 0x0, 0x0, 0xffffffff, 0x0, false⟩,
  ⟨0x581000, 32, 16, 4, 1, 4, 1, 0x600, 0x3fff, 0x0, 0x0, 0x0, 0x0, 0x0, 0x3fff, 0x0, false⟩,
  ⟨0x581004, 32, 16, 4, 1, 4, 1, 0x0, 0x0, 0xf000000, 0x0, 0x0, 0x0, 0x0, 0xf03ffff, 0x0, false⟩,
  ⟨0x581008, 32, 16, 4, 1, 4, 1, 0x0, 0x0, 0x0, 0x0, 0x0, 0x0, 0x0, 0xffffffff, 0x0, false⟩,
  ⟨0x58100c, 32, 16, 4, 1, 4, 1, 0x0, 0x0, 0x0, 0x0, 0x0, 0x0, 0x0, 0xffffffff, 0x0, false⟩,
  ⟨0x581010, 32, 16, 4, 1, 4, 1, 0x0, 0x0, 0x0, 0x0, 0x0, 0x0, 0x0, 0xffffffff, 0x0, false⟩,
  ⟨0x581014, 32, 16, 4, 1, 4, 1, 0x0, 0x0, 0x0, 0x0, 0x0, 0x0, 0x0, 0xffffffff, 0x0, false⟩,
  ⟨0x581018, 32, 16, 4, 1, 4, 1, 0x0, 0x0, 0x0, 0x0, 0x0, 0x0, 0x0, 0xffffffff, 0x0, false⟩,
  ⟨0x600000, 4, 1, 4, 1, 4, 1, 0x20, 0x0, 0x3f, 0x0, 0x0, 0x0, 0x0, 0x3f, 0x0, false⟩,
  ⟨0x600004, 4, 1, 4, 1, 4, 1, 0xf, 0x1f, 0x0, 0x0, 0x0, 0x0, 0x0, 0x1f, 0x0, true⟩,
  ⟨0x600008, 4, 1, 4, 1, 4, 1, 0x0, 0x0, 0x0, 0x0, 0x0, 0x0, 0x0, 0x7f007f, 0x0, false⟩,
  ⟨0x600040, 4, 18, 4, 1, 4, 1, 0x0, 0x0, 0x0, 0x0, 0x0, 0x0, 0x0, 0x0, 0x0, false⟩,
  ⟨0x600100, 4, 64, 4, 1, 4, 1, 0x0, 0xffff, 0x0, 0x0, 0x0, 0x0, 0x0, 0x7ffff, 0x0, false⟩,
  ⟨0x601000, 4096, 4, 4, 1, 4, 1, 0x32000, 0x1fffff, 0x0, 0x0, 0x0, 0x0, 0x0, 0x1fffff, 0x0, false⟩,
  ⟨0x601004, 4096, 4, 4, 1, 4, 1, 0x0, 0x0, 0xf0000, 0x0, 0x0, 0x0, 0x0, 0xf0001, 0x0, false⟩,
  ⟨0x601008, 4096, 4, 4, 1, 4, 1, 0x20080040, 0x3fffffff, 0x0, 0x0, 0x0, 0x0, 0x0, 0x3fffffff, 0x0, false⟩,
  ⟨0x60100c, 4096, 4, 4, 1, 4, 1, 0x200801c0, 0x3fffffff, 0x0, 0x0, 0x0, 0x0, 0x0, 0x3fffffff, 0x0, false⟩,
  ⟨0x601010, 4096, 4, 4, 1, 4, 1, 0x0, 0x0, 0x0, 0x0, 0x0, 0x0, 0x0, 0xffffffff, 0x0, false⟩,
  ⟨0x601100, 4096, 4, 4, 16, 4, 1, 0x0, 0x7ff, 0x0, 0x0, 0x0, 0x0, 0x0, 0x7ff, 0x0, false⟩,
  ⟨0x601140, 4096, 4, 4, 16, 4, 1, 0x0, 0x1fff1fff, 0x0, 0x0, 0x0, 0x0, 0x0, 0x1fff1fff, 0x0, false⟩,
  ⟨0x601180, 4096, 4, 4, 16, 4, 1, 0x0, 0x1fff1fff, 0x0, 0x0, 0x0, 0x0, 0x0, 0x1fff1fff, 0x0, false⟩,
  ⟨0x6011c0, 4096, 4, 4, 16, 4, 1, 0x0, 0x0, 0x0, 0x0, 0x0, 0x0, 0x0, 0xf, 0x0, false⟩,
  ⟨0x601200, 4096, 4, 4, 4, 4, 1, 0x0, 0xf, 0x0, 0x0, 0x0, 0x0, 0x0, 0x3f, 0x0, false⟩,
  ⟨0x601210, 4096, 4, 4, 4, 4, 1, 0x0, 0x1fff1fff, 0x0, 0x0, 0x0, 0x0, 0x0, 0x1fff1fff, 0x0, false⟩,
  ⟨0x601220, 4096, 4, 4, 4, 4, 1, 0x0, 0x1fff1fff, 0x0, 0x0, 0x0, 0x0, 0x0, 0x1fff1fff, 0x0, false⟩,
  ⟨0x601230, 4096, 4, 4, 4, 4, 1, 0x0, 0x0, 0x0, 0x0, 0x0, 0x0, 0x0, 0x1ffff, 0x0, false⟩,
  ⟨0x700000, 4, 1, 4, 1, 4, 1, 0x800, 0x0, 0xfff, 0x0, 0x0, 0x0, 0x0, 0xfff, 0x0, false⟩,
  ⟨0x700004, 4, 1, 4, 1, 4, 1, 0x7f7, 0x7ff, 0x0, 0x0, 0x0, 0x0, 0x0, 0x7ff, 0x0, true⟩,
  ⟨0x700008, 4, 1, 4, 1, 4, 1, 0x0, 0x5, 0x0, 0x0, 0x0, 0x0, 0x0, 0x5, 0x0, false⟩,
  ⟨0x70000c, 4, 1, 4, 1, 4, 1, 0x0, 0x0, 0x0, 0x0, 0x0, 0x0, 0x0, 0xf0fff, 0x0, false⟩]
def regRows6 : List RegRow := [
  ⟨0x700010, 4, 1, 4, 1, 4, 1, 0x0, 0x0, 0x0, 0x0, 0x0, 0x0, 0x0, 0xff3f, 0x0, false⟩,
  ⟨0x700014, 4, 1, 4, 1, 4, 1, 0x0, 0x0, 0x300, 0x0, 0x0, 0x0, 0x0, 0x31f, 0x0, false⟩,
  ⟨0x700018, 4, 1, 4, 1, 4, 1, 0x0, 0x0, 0x0, 0x0, 0x0, 0x0, 0x0, 0xffffffff, 0x0, false⟩,
  ⟨0x70001c, 4, 1, 4, 1, 4, 1, 0x0, 0x0, 0x0, 0x0, 0x0, 0x0, 0x0, 0xffffffff, 0x0, false⟩,
  ⟨0x700020, 4, 2, 4, 1, 4, 1, 0x0, 0x0, 0x0, 0x0, 0x0, 0x0, 0x0, 0xff, 0x0, false⟩,
  ⟨0x700028, 4, 2, 4, 1, 4, 1, 0x0, 0x0, 0x0, 0x0, 0x0, 0x0, 0x0, 0xffffffff, 0x0, false⟩,
  ⟨0x700030, 4, 2, 4, 1, 4, 1, 0x0, 0x0, 0x0, 0x0, 0x0, 0x0, 0x0, 0xffffffff, 0x0, false⟩,
  ⟨0x700040, 32, 2, 4, 8, 4, 1, 0x0, 0x0, 0x0, 0x0, 0x0, 0x0, 0x0, 0xffffffff, 0x0, false⟩,
  ⟨0x700080, 4, 5, 4, 1, 4, 1, 0x0, 0x0, 0x0, 0x0, 0x0, 0x0, 0x0, 0xffffffff, 0x0, false⟩,
  ⟨0x7000a0, 4, 1, 4, 1, 4, 1, 0x0, 0x0, 0x0, 0x0, 0x0, 0x0, 0x0, 0xffffffff, 0x0, false⟩,
  ⟨0x7000a4, 4, 1, 4, 1, 4, 1, 0x0, 0x0, 0x0, 0x0, 0x0, 0x0, 0x0, 0x3fffff, 0x0, false⟩,
  ⟨0x701000, 4, 2, 4, 1, 4, 1, 0x545228, 0x7fffff, 0x0, 0x0, 0x0, 0x0, 0x0, 0x7fffff, 0x0, false⟩,
  ⟨0x701100, 4, 2, 4, 1, 4, 1, 0x0, 0x0, 0x3f0000, 0x0, 0x0, 0x0, 0x0, 0x3f007f, 0x0, false⟩,
  ⟨0x701200, 4, 2, 4, 1, 4, 1, 0x0, 0x0, 0x0, 0x0, 0xf00, 0x0, 0x0, 0xff003f, 0x0, false⟩,
  ⟨0x701300, 4, 2, 4, 1, 4, 1, 0x0, 0x0, 0x0, 0x0, 0xffffff, 0x0, 0x0, 0x0, 0x0, false⟩,
  ⟨0x701400, 4, 2, 4, 1, 4, 1, 0x0, 0x0, 0x0, 0x0, 0xffffffff, 0x0, 0x0, 0x0, 0x0, false⟩,
  ⟨0x701500, 4, 2, 4, 1, 4, 1, 0x0, 0x0, 0x0, 0x0, 0x0, 0x0, 0x0, 0xffffffff, 0x0, false⟩,
  ⟨0x780000, 4, 1, 4, 1, 4, 1, 0x40, 0x0, 0x7f, 0x0, 0x0, 0x0, 0x7f, 0x0, 0x0, false⟩,
  ⟨0x780004, 4, 1, 4, 1, 4, 1, 0x2e, 0x3f, 0x0, 0x0, 0x0, 0x0, 0x0, 0x3f, 0x0, true⟩,
  ⟨0x780008, 4, 1, 4, 1, 4, 1, 0x0, 0x1, 0x0, 0x0, 0x0, 0x0, 0x0, 0x1, 0x0, false⟩,
  ⟨0x78000c, 4, 1, 4, 1, 4, 1, 0x0, 0x0, 0x0, 0x0, 0x0, 0x0, 0xffffffff, 0x0, 0x0, false⟩,
  ⟨0x780010, 4, 1, 4, 1, 4, 1, 0x0, 0x0, 0x0, 0x0, 0x0, 0x0, 0xfff, 0x0, 0x0, false⟩,
  ⟨0x780014, 4, 1, 4, 1, 4, 1, 0x0, 0x0, 0x2000, 0x0, 0x0, 0x0, 0x3fff, 0x0, 0x0, false⟩,
  ⟨0x780018, 4, 1, 4, 1, 4, 1, 0x0, 0x0, 0x0, 0x0, 0x0, 0x0, 0x0, 0xffffffff, 0x0, false⟩,
  ⟨0x78001c, 4, 1, 4, 1, 4, 1, 0x0, 0x0, 0x0, 0x0, 0x0, 0x0, 0x0, 0xffffffff, 0x0, false⟩,
  ⟨0x780100, 4, 10, 4, 1, 4, 1, 0x0, 0x0, 0x0, 0x0, 0x0, 0x0, 0x7f, 0x0, 0x0, false⟩,
  ⟨0x780140, 4, 10, 4, 1, 4, 1, 0x0, 0x0, 0x0, 0x0, 0x0, 0x0, 0x0, 0xffffffff, 0x0, false⟩,
  ⟨0x780180, 4, 10, 4, 1, 4, 1, 0x0, 0x0, 0x0, 0x0, 0x0, 0x0, 0x0, 0xffffffff, 0x0, false⟩,
  ⟨0x780200, 4, 10, 4, 1, 4, 1, 0x0, 0xffff, 0x0, 0x0, 0x0, 0x0, 0x0, 0x0, 0xffff, false⟩,
  ⟨0x780240, 4, 1, 4, 1, 4, 1, 0x0, 0x0, 0x0, 0x1, 0x0, 0x0, 0x0, 0x0, 0x1, false⟩,
  ⟨0x780280, 4, 8, 4, 1, 4, 1, 0x0, 0xffffffff, 0x0, 0x0, 0x0, 0x0, 0x0, 0x0, 0xffffffff, false⟩,
  ⟨0x784000, 4, 4096, 4, 1, 4, 1, 0x0, 0x80ffffff, 0x0, 0x0, 0x0, 0x0, 0x0, 0x80ffffff, 0x0, false⟩,
  ⟨0x7c0000, 4, 1, 4, 1, 4, 1, 0x8, 0x0, 0xf, 0x0, 0x0, 0x0, 0x0, 0xf, 0x0, true⟩,
  ⟨0x7c0004, 4, 1, 4, 1, 4, 1, 0x6, 0x7, 0x0, 0x0, 0x0, 0x0, 0x0, 0x7, 0x0, true⟩,
  ⟨0x7c0008, 4, 1, 4, 1, 4, 1, 0x0, 0x3, 0x0, 0x0, 0x0, 0x0, 0x0, 0x3, 0x0, true⟩,
  ⟨0x7c2000, 4, 1, 4, 1, 4, 1, 0x40, 0xfd, 0x0, 0x0, 0x0, 0x0, 0x0, 0xfd, 0x0, true⟩,
  ⟨0x7c2004, 4, 1, 4, 1, 4, 1, 0x0, 0x0, 0x0, 0x0, 0x0, 0x0, 0x0, 0x7f, 0x0, true⟩,
  ⟨0x7c2008, 4, 1, 4, 1, 4, 1, 0x0, 0x0, 0x0, 0x0, 0x0, 0x0, 0x0, 0xffffffff, 0x0, true⟩,
  ⟨0x7c2100, 16, 64, 4, 4, 4, 1, 0x0, 0x0, 0x0, 0x0, 0x0, 0x0, 0x0, 0xffffffff, 0x0, true⟩,
  ⟨0x7c1000, 256, 4, 4, 1, 4, 1, 0x0, 0xffffffff, 0x0, 0x0, 0x0, 0x0, 0x0, 0xffffffff, 0x0, true⟩]
def regRows7 : List RegRow := [
  ⟨0x7c1004, 256, 4, 4, 1, 4, 1, 0x0, 0xffffffff, 0x0, 0x0, 0x0, 0x0, 0x0, 0xffffffff, 0x0, true⟩,
  ⟨0x7c1008, 256, 4, 4, 1, 4, 1, 0x0, 0x0, 0x1ff, 0x0, 0x0, 0x0, 0x0, 0x1ff, 0x0, true⟩,
  ⟨0x7c1010, 256, 4, 4, 8, 4, 1, 0x0, 0xfff, 0x0, 0x0, 0x0, 0x0, 0x0, 0xfff, 0x0, true⟩,
  ⟨0x7c1030, 256, 4, 4, 8, 4, 1, 0x0, 0xffffffff, 0x0, 0x0, 0x0, 0x0, 0x0, 0xffffffff, 0x0, true⟩,
  ⟨0x7c1050, 256, 4, 4, 1, 4, 1, 0x10000, 0xffff0007, 0x0, 0x0, 0x0, 0x0, 0x0, 0xffff0007, 0x0, true⟩,
  ⟨0x7c1054, 256, 4, 4, 1, 4, 1, 0x0, 0x0, 0x0, 0x0, 0x0, 0x0, 0x0, 0x1ff, 0x0, true⟩,
  ⟨0x7c1058, 256, 4, 4, 1, 4, 1, 0x0, 0x0, 0x0, 0x0, 0x0, 0x0, 0x0, 0xffffffff, 0x0, true⟩,
  ⟨0x7c8000, 4096, 4, 16, 256, 4, 4, 0x0, 0x0, 0x0, 0x0, 0x0, 0x0, 0x0, 0xffffffff, 0x0, true⟩,
  ⟨0x800000, 4, 1, 4, 1, 4, 1, 0x80, 0x0, 0x9f, 0x0, 0x0, 0x0, 0x0, 0xdf, 0x20, false⟩,
  ⟨0x800004, 4, 1, 4, 1, 4, 1, 0x1f, 0x1f, 0x0, 0x0, 0x0, 0x0, 0x0, 0x1f, 0x0, true⟩,
  ⟨0x800008, 4, 1, 4, 1, 4, 1, 0x0, 0x0, 0x0, 0x0, 0x0, 0x50, 0x0, 0x20, 0x0, false⟩,
  ⟨0x80000c, 4, 1, 4, 1, 4, 1, 0x0, 0x0, 0x0, 0x0, 0x0, 0xfff0000, 0x0, 0x0, 0x0, false⟩,
  ⟨0x800010, 4, 1, 4, 1, 4, 1, 0x0, 0x0, 0x0, 0x0, 0x0, 0x0, 0x0, 0xffffffff, 0x0, false⟩,
  ⟨0x800014, 4, 1, 4, 1, 4, 1, 0x0, 0x0, 0x0, 0x0, 0x0, 0xffffffff, 0x0, 0x0, 0x0, false⟩,
  ⟨0x800018, 4, 1, 4, 1, 4, 1, 0x0, 0x0, 0x0, 0x0, 0x0, 0x0, 0x0, 0x3, 0x8, false⟩,
  ⟨0x800020, 16, 2, 4, 1, 4, 1, 0x0, 0x0, 0x0, 0x0, 0x0, 0x0, 0x0, 0xffffffff, 0x0, false⟩,
  ⟨0x800024, 16, 2, 4, 1, 4, 1, 0x0, 0x0, 0x0, 0x0, 0x0, 0x0, 0x0, 0x3, 0x0, false⟩,
  ⟨0x800040, 4, 8, 4, 1, 4, 1, 0x0, 0x0, 0x0, 0x0, 0x0, 0x0, 0x0, 0x0, 0x0, false⟩,
  ⟨0x800100, 4, 64, 4, 1, 4, 1, 0x0, 0x0, 0x0, 0x0, 0x0, 0x0, 0x0, 0x0, 0x0, false⟩]
def regRows : List RegRow := regRows0 ++ regRows1 ++ regRows2 ++ regRows3 ++ regRows4 ++ regRows5 ++ regRows6 ++ regRows7

/-- The blocks of R23: first offset, end, and the block's DEFAULTS_RESTORED bit (R22). -/
def blockRows : List (Nat × Nat × Fld) := [
  (0x0, 0x10000, TOP_STATUS_DEFAULTS_RESTORED),
  (0x10000, 0x20000, MBX_STATUS_DEFAULTS_RESTORED),
  (0x20000, 0x30000, PWR_STATUS_DEFAULTS_RESTORED),
  (0x30000, 0x40000, REF_STATUS_DEFAULTS_RESTORED),
  (0x40000, 0x80000, PTP_STATUS_DEFAULTS_RESTORED),
  (0x80000, 0xc0000, XPT_STATUS_DEFAULTS_RESTORED),
  (0xc0000, 0x100000, FSY_STATUS_DEFAULTS_RESTORED),
  (0x100000, 0x140000, LBS_STATUS_DEFAULTS_RESTORED),
  (0x140000, 0x200000, DMC_STATUS_DEFAULTS_RESTORED),
  (0x200000, 0x300000, SDI_STATUS_DEFAULTS_RESTORED),
  (0x300000, 0x400000, FAB_STATUS_DEFAULTS_RESTORED),
  (0x400000, 0x500000, NET_STATUS_DEFAULTS_RESTORED),
  (0x500000, 0x580000, AUD_STATUS_DEFAULTS_RESTORED),
  (0x580000, 0x600000, SAP_STATUS_DEFAULTS_RESTORED),
  (0x600000, 0x700000, MVC_STATUS_DEFAULTS_RESTORED),
  (0x700000, 0x780000, TWN_STATUS_DEFAULTS_RESTORED),
  (0x780000, 0x7c0000, BUS_STATUS_DEFAULTS_RESTORED),
  (0x7c0000, 0x800000, PMC_STATUS_DEFAULTS_RESTORED),
  (0x800000, 0x1000000, SEC_STATUS_DEFAULTS_RESTORED)]

end Sys2Proof.Machine
end

