-- ==== Sys2Proof/Machine/Ops.lean ====
section
/-! DEFINITION. The named operations every meaning is written with: reading and writing registers and fields, addressed
memory, the event ring, SYSTIME, the response buffers. -/

namespace Sys2Proof.Machine

/-! ### The register window -/

/-- An offset is that of a register of a row of the access and retention table. -/
def RegRow.holds (r : RegRow) (off : Nat) : Bool :=
  let d := off - r.base
  r.base ≤ off && d / r.s1 < r.c1 && d % r.s1 / r.s2 < r.c2 && d % r.s1 % r.s2 / r.s3 < r.c3 && d % r.s1 % r.s2 % r.s3 == 0

/-- The row of the access and retention table that holds an offset. -/
def rowOf (off : Nat) : Option RegRow := regRows.find? fun r => r.holds off

/-- The word listed at an offset. -/
def RegMap.find : RegMap → Nat → Option Word
  | [], _ => none
  | (o, v) :: m, a => if o = a then some v else RegMap.find m a

/-- The map with a word listed at an offset, kept in offset order. -/
def RegMap.insert : RegMap → Nat → Word → RegMap
  | [], a, v => [(a, v)]
  | (o, x) :: m, a, v =>
    if o = a then (a, v) :: m else if a < o then (a, v) :: (o, x) :: m else (o, x) :: RegMap.insert m a v

/-- The map with nothing listed at an offset. -/
def RegMap.erase : RegMap → Nat → RegMap
  | [], _ => []
  | (o, x) :: m, a => if o = a then RegMap.erase m a else (o, x) :: RegMap.erase m a

/-- The stored value of a register: its reset value while the map lists nothing. -/
def Chip.get (c : Chip) (r : Reg) : Nat :=
  match c.regs.find r.off with
  | some v => v.toNat
  | none => r.dflt

/-- The chip with a register set; a register at its reset value is not listed. -/
def Chip.put (c : Chip) (r : Reg) (v : Nat) : Chip :=
  if v % 2 ^ 32 = r.dflt then { c with regs := c.regs.erase r.off }
  else { c with regs := c.regs.insert r.off (BitVec.ofNat 32 v) }

/-- The register a field belongs to. -/
def Fld.reg (f : Fld) : Reg := ⟨f.off, f.dflt⟩

/-- The value of a field. -/
def Chip.rd (c : Chip) (f : Fld) : Nat := bits (c.get f.reg) f.lo f.w

/-- A one-bit field as a Boolean. -/
def Chip.on (c : Chip) (f : Fld) : Bool := c.rd f != 0

/-- The chip with a field written, every other field of the register kept. -/
def Chip.wr (c : Chip) (f : Fld) (v : Nat) : Chip :=
  let x := c.get f.reg
  c.put f.reg (x - bits x f.lo f.w * 2 ^ f.lo + v % 2 ^ f.w * 2 ^ f.lo)

/-- The chip with a bit set. -/
def Chip.set (c : Chip) (f : Fld) : Chip := c.wr f 1

/-- The chip with a bit cleared. -/
def Chip.clr (c : Chip) (f : Fld) : Chip := c.wr f 0

/-- A field written from a Boolean. -/
def Chip.wrB (c : Chip) (f : Fld) (b : Bool) : Chip := c.wr f (b2n b)

/-- A saturating counter advanced. -/
def Chip.add (c : Chip) (f : Fld) (k : Nat) : Chip := c.wr f (satAdd f.w (c.rd f) k)

/-- A saturating counter advanced by one. -/
def Chip.inc (c : Chip) (f : Fld) : Chip := c.add f 1

/-- A field read as two's complement. -/
def Chip.rdI (c : Chip) (f : Fld) : Int := toSigned f.w (c.rd f)

/-- A field written as two's complement, saturating at the field's range. -/
def Chip.wrI (c : Chip) (f : Fld) (i : Int) : Chip :=
  c.wr f (ofSigned f.w (clampI (-(2 ^ (f.w - 1) : Nat)) ((2 ^ (f.w - 1) : Nat) - 1) i))

/-- The bit `i` of a field of several bits set. -/
def Chip.setBit (c : Chip) (f : Fld) (i : Nat) : Chip :=
  if bit (c.rd f) i then c else c.wr f (c.rd f + 2 ^ i)

/-- The bit `i` of a field of several bits cleared. -/
def Chip.clrBit (c : Chip) (f : Fld) (i : Nat) : Chip :=
  if bit (c.rd f) i then c.wr f (c.rd f - 2 ^ i) else c

/-- A change made only where a condition holds. -/
def Chip.when (c : Chip) (b : Bool) (f : Chip → Chip) : Chip := if b then f c else c

/-- A change made for each element of a list in order. -/
def Chip.each {α : Type} (c : Chip) (l : List α) (f : Chip → α → Chip) : Chip := l.foldl f c

/-- The registers listed in `base .. base + 4 * n - 1`, as (index, value): those of an array that differ from reset. -/
def Chip.listed (c : Chip) (base n : Nat) : List (Nat × Nat) :=
  (c.regs.filter fun p => base ≤ p.1 && p.1 < base + 4 * n).map fun p => ((p.1 - base) / 4, p.2.toNat)

/-! ### Sparse tables of working state: an index not listed holds the default -/

/-- The entry of an index. -/
def tget {α : Type} (dflt : α) : List (Nat × α) → Nat → α
  | [], _ => dflt
  | (i, v) :: m, k => if i = k then v else tget dflt m k

/-- The table without an index. -/
def tdel {α : Type} : List (Nat × α) → Nat → List (Nat × α)
  | [], _ => []
  | (i, v) :: m, k => if i = k then tdel m k else (i, v) :: tdel m k

/-- The table with an entry listed, in index order. -/
def tins {α : Type} : List (Nat × α) → Nat → α → List (Nat × α)
  | [], k, x => [(k, x)]
  | (i, v) :: m, k, x => if i = k then (k, x) :: m else if k < i then (k, x) :: (i, v) :: m else (i, v) :: tins m k x

/-- The table with an entry set; an entry equal to the default is not listed. -/
def tput {α : Type} [DecidableEq α] (dflt : α) (m : List (Nat × α)) (k : Nat) (x : α) : List (Nat × α) :=
  if x = dflt then tdel m k else tins m k x

/-- A list of `n` entries with entry `i` replaced; an entry that is not there is the default. -/
def putAt {α : Type} (n : Nat) (dflt : α) (l : List α) (i : Nat) (x : α) : List α :=
  (List.range n).map fun k => if k = i then x else l.getD k dflt

/-- The working state of a source, a destination, a plane. -/
def Chip.src (c : Chip) (s : Nat) : Src := tget {} c.srcs s
def Chip.setSrc (c : Chip) (s : Nat) (x : Src) : Chip := { c with srcs := tput {} c.srcs s x }
def Chip.dst (c : Chip) (d : Nat) : Dst := tget {} c.dsts d
def Chip.setDst (c : Chip) (d : Nat) (x : Dst) : Chip := { c with dsts := tput {} c.dsts d x }
def Chip.plane (c : Chip) (p : Nat) : Plane := c.planes.getD p {}
def Chip.setPlane (c : Chip) (p : Nat) (x : Plane) : Chip := { c with planes := putAt 2 {} c.planes p x }

/-! ### Addressed memory -/

/-- The byte at an address: 0 where nothing is listed (log entry 4). -/
def Memory.read : Memory → Nat → Byte
  | [], _ => 0
  | (a, v) :: m, x => if a = x then v else if x < a then 0 else Memory.read m x

/-- The memory with a byte written, in canonical form. -/
def Memory.write : Memory → Nat → Byte → Memory
  | [], x, v => if v = 0 then [] else [(x, v)]
  | (a, w) :: m, x, v =>
    if a = x then (if v = 0 then m else (x, v) :: m)
    else if x < a then (if v = 0 then (a, w) :: m else (x, v) :: (a, w) :: m)
    else (a, w) :: Memory.write m x v

/-- The memory with a run of bytes written from an address up. -/
def Memory.writeBytes : Memory → Nat → List Byte → Memory
  | m, _, [] => m
  | m, x, b :: bs => Memory.writeBytes (m.write x b) (x + 1) bs

/-- The four bytes of a word, lowest first (R11). -/
def wordBytes (w : Nat) : List Byte :=
  [BitVec.ofNat 8 w, BitVec.ofNat 8 (w / 2 ^ 8), BitVec.ofNat 8 (w / 2 ^ 16), BitVec.ofNat 8 (w / 2 ^ 24)]

/-- The little-endian word at an address. -/
def Memory.word (m : Memory) (x : Nat) : Nat :=
  (m.read x).toNat + (m.read (x + 1)).toNat * 2 ^ 8 + (m.read (x + 2)).toNat * 2 ^ 16 + (m.read (x + 3)).toNat * 2 ^ 24

/-- `n` words from an address up. -/
def Memory.wordsAt (m : Memory) (x n : Nat) : List Nat := (List.range n).map fun i => m.word (x + 4 * i)

/-- The memory with every byte of a range returned to 0. -/
def Memory.clear (m : Memory) (x n : Nat) : Memory := m.filter fun p => !(x ≤ p.1 && p.1 < x + n)

/-- Region 7 of R588: the DRAM window. -/
def dramBase : Nat := 0x200_0000_0000

/-- One write of the chip to memory. -/
def Memory.apply (m : Memory) : MemOp → Memory
  | .words x ws => m.writeBytes x (ws.flatMap wordBytes)
  | .bytes x bs => m.writeBytes x (bs.map (BitVec.ofNat 8))
  | .clear x n => m.clear x n
  | .clearChan n => m.filter fun p => !(dramBase ≤ p.1 && bits p.1 8 3 == n)
  | .sweepRows n => m.filter fun p => !(dramBase ≤ p.1 && p.1 < dramBase + 0x40_0000 && bits p.1 8 3 == n)

/-- The canonical form: addresses strictly rising, and no byte listed that an unlisted address reads as. -/
def Memory.wf : Memory → Bool
  | [] => true
  | [(_, v)] => v != 0
  | (a, v) :: (b, w) :: m => v != 0 && a < b && Memory.wf ((b, w) :: m)

/-- Region 1 of R588: BAR2 on the internal bus. -/
def bar2Base : Nat := 0x100_0000

/-- The request buffer of a channel (R121). -/
def reqBuf (ch : Nat) : Nat := bar2Base + 0x2000 * ch

/-- The response buffer of a channel (R121). -/
def respBuf (ch : Nat) : Nat := bar2Base + 0x1000 + 0x2000 * ch

/-- The event ring (R121). -/
def ringBase : Nat := bar2Base + 0x2_0000

/-- A write of the chip to memory, carried out when the command ends. -/
def Chip.emit (c : Chip) (o : MemOp) : Chip := { c with out := c.out ++ [o] }

/-! ### Time -/

/-- SYSTIME: the low word of N (R425). -/
def Chip.systime (c : Chip) : Nat := c.clock.n % 2 ^ 32

/-- The units of `Chip.now` in a nanosecond, a microsecond, a millisecond and a second (log entry 2). -/
def ns (n : Nat) : Nat := 3 * n
def us (n : Nat) : Nat := 3000 * n
def ms (n : Nat) : Nat := 3000000 * n
def sec (n : Nat) : Nat := 3000000000 * n

/-- Time passes to the instant `t`: N advances at 1 + PTP_FREQ / 10^12 of the units passed, its remainder kept (R425, R431). -/
def Chip.advance (c : Chip) (t : Nat) : Chip :=
  let dt := t - c.now
  let total := c.clock.frac + dt * (1000000000000 + toSigned 32 (c.get PTP_FREQ)).toNat
  { c with
    now := max c.now t
    clock := ⟨(c.clock.n + total / 3000000000000) % 2 ^ 64, total % 3000000000000⟩ }

/-- A free value drawn: its number, and the counter advanced (log entry 3). -/
def Chip.draw (c : Chip) : Nat × Chip := (c.free, { c with free := c.free + 1 })

/-! ### Events -/

/-- The firmware is running and serves doorbells (R84). -/
def Chip.ready (c : Chip) : Bool := c.on TOP_STATUS_FW_READY

/-- An event is posted (R151, R152): a ring entry, or a lost event on a full ring. While the firmware is not running the ring
stays empty and the occurrence is kept by its sticky bit (R155). -/
def Chip.post (c : Chip) (block code inst arg : Nat) : Chip :=
  if !c.ready then c
  else
    let h := c.rd MBX_EVT_HEAD_HEAD
    if (h + 1) % 256 = c.rd MBX_EVT_TAIL_TAIL then (c.inc MBX_EVT_LOST_COUNT).set MBX_STATUS_EVT_OVERFLOW
    else
      let c := (c.wr MBX_EVT_HEAD_HEAD (h + 1)).emit
        (.words (ringBase + 16 * h) [code % 2 ^ 16 + block * 2 ^ 16, inst, c.systime, arg % 2 ^ 32])
      { c with evts := c.evts + 1 }

/-- The argument word of a two's complement quantity. -/
def argI (i : Int) : Nat := ofSigned 32 i

/-! ### Sticky bits set in the ACLK cycle of a write (R14) -/

/-- The number of the ACLK cycle of an instant: 1 ns (log entry 2). -/
def aclk (t : Nat) : Nat := t / 3

/-- The W1C bits of a register that hardware has set in this ACLK cycle: a write of 1 leaves them set. -/
def Chip.fresh (c : Chip) (off : Nat) : Nat :=
  if c.risen.1 = aclk c.now then (c.risen.2.filter fun e => e.1 == off).foldl (fun m e => m ||| e.2) 0 else 0

/-- The W1C bits that are 1 in a register map and were not in another, as (offset, mask). -/
def risenBits (old new : RegMap) : List (Nat × Nat) :=
  new.filterMap fun r =>
    if old.find r.1 = some r.2 then none
    else match rowOf r.1 with
      | none => none
      | some row =>
        let was := match old.find r.1 with | some v => v.toNat | none => row.dflt
        let m := r.2.toNat &&& row.w1c
        if m - (m &&& was) = 0 then none else some (r.1, m - (m &&& was))

/-- The bits set in the running ACLK cycle, after a command that leaves the chip `c1`. -/
def Chip.nowRisen (c0 c1 : Chip) : Nat × List (Nat × Nat) :=
  let new := risenBits c0.regs c1.regs
  (aclk c1.now, if c0.risen.1 = aclk c1.now then c0.risen.2 ++ new else new)

/-! ### Ignored host writes -/

/-- A host write that the part ignores is counted and flagged (R16, R122). -/
def Chip.ignored (c : Chip) : Chip := (c.inc TOP_HOST_WRITE_IGNORED_COUNT).set TOP_STATUS_HOST_WRITE_IGNORED

end Sys2Proof.Machine
end

