-- ==== Sys2Proof/Machine/Flags.lean ====
section
/-! DEFINITION. The status flags and the interrupts they raise: which cause of which vector is pending (R127), the messages and
pending bits that follow (R128), IRQ_N (R129), and the frame every command's effect stands in. -/

namespace Sys2Proof.Machine

/-- The status and enable registers of the block causes of R127, by vector; a cause is a bit set in both. -/
def blockCauses : List (Nat × Reg × Reg) := [
  (18, REF_STATUS, REF_INT_EN), (19, PTP_STATUS, PTP_INT_EN), (20, XPT_STATUS, XPT_INT_EN),
  (21, FSY_STATUS, FSY_INT_EN), (22, LBS_STATUS, LBS_INT_EN), (23, DMC_STATUS, DMC_INT_EN), (24, SDI_STATUS, SDI_INT_EN),
  (25, FAB_STATUS, FAB_INT_EN), (25, FAB_LN_SUMMARY, FAB_LN_INT_EN),
  (26, NET_PORT_STATUS 0, NET_PORT_INT_EN 0), (27, NET_PORT_STATUS 1, NET_PORT_INT_EN 1),
  (26, NET_FLOW_STATUS 0, NET_FLOW_INT_EN 0), (27, NET_FLOW_STATUS 1, NET_FLOW_INT_EN 1),
  (28, AUD_STATUS, AUD_INT_EN), (28, SAP_STATUS, SAP_INT_EN), (29, MVC_STATUS, MVC_INT_EN), (30, TWN_STATUS, TWN_INT_EN),
  (31, BUS_STATUS, BUS_INT_EN), (31, PMC_STATUS, PMC_INT_EN), (31, SEC_STATUS, SEC_INT_EN)]

/-- The port a flow or sender reports on: its own port, port 0 for a dual flow (R421, R423). -/
def flowPort (ctl : Nat) : Nat := if bit ctl 1 then 0 else bits ctl 2 1

/-- A flow or sender of the port has a half-range bit set (R387, R421). -/
def Chip.flowHalf (c : Chip) (p : Nat) : Bool :=
  (c.regs.any fun r => 0x404000 ≤ r.1 && r.1 < 0x407800 && (r.1 - 0x404000) % 0x80 = 0x20 && bits r.2.toNat 22 7 != 0
      && flowPort (c.get (NET_RXF_CTL ((r.1 - 0x404000) / 0x80))) = p)
  || (c.regs.any fun r => 0x408000 ≤ r.1 && r.1 < 0x409C00 && (r.1 - 0x408000) % 0x40 = 0x28 && bits r.2.toNat 18 4 != 0
      && flowPort (c.get (NET_TXF_CTL ((r.1 - 0x408000) / 0x40))) = p)

/-- A status register as its causes stand: the live half-range bits of R387 joined to the stored bits. -/
def Chip.status (c : Chip) (r : Reg) : Nat :=
  if r = NET_PORT_STATUS 0 then c.get r ||| (if c.get (NET_CNT_HALF 0) != 0 then 0x100 else 0)
  else if r = NET_PORT_STATUS 1 then c.get r ||| (if c.get (NET_CNT_HALF 1) != 0 then 0x100 else 0)
  else if r = NET_FLOW_STATUS 0 then c.get r ||| (if c.flowHalf 0 then 0x20 else 0)
  else if r = NET_FLOW_STATUS 1 then c.get r ||| (if c.flowHalf 1 then 0x20 else 0)
  else c.get r

/-- The pending enabled causes, vector by vector: the mailbox causes of vectors 0 to 16, the TOP causes, which are always
enabled, the wake cause of R101, and the block causes. -/
def Chip.causes (c : Chip) : List (Nat × Nat) :=
  ((List.range 16).map fun n => (n, b2n (c.on (MBX_CH_STAT_RESP_READY n) && bit (c.rd MBX_INT_EN_RESP) n)))
  ++ [(16, b2n (c.rd MBX_EVT_HEAD_HEAD != c.rd MBX_EVT_TAIL_TAIL && c.on MBX_INT_EN_EVT)),
      (16, b2n (c.on MBX_STATUS_EVT_OVERFLOW && c.on MBX_INT_EN_EVT_OVERFLOW)),
      (17, c.get TOP_STATUS &&& 0x46),
      (17, c.get PWR_STATUS &&& c.get PWR_INT_EN &&& 0x7D),
      (17, c.rd PWR_WAKE_CAUSE_NET_WAKE &&& c.rd PWR_INT_EN_NET_WAKE)]
  ++ blockCauses.map fun (v, s, e) => (v, c.status s &&& c.get e)

/-- TOP_IRQ_STATUS: bit v is 1 while an enabled cause of vector v is pending (R127). -/
def Chip.irqStatus (c : Chip) : Nat :=
  (c.causes.foldl (fun m (v, b) => if b = 0 then m else m ||| 2 ^ v) 0)

/-- IRQ_N is low (R129). -/
def Chip.irqLow (c : Chip) : Bool := c.irqStatus &&& c.get TOP_IRQ_PIN_EN != 0

/-- The set bits of a number below 2^32. -/
def bitCount (n : Nat) : Nat := ((List.range 32).filter (bit n)).length

/-- The vectors of the causes that became pending, one for each cause, and one for each event entry posted while the entry
interrupt is enabled (R128, log entry 6). -/
def newCauses (c0 c1 : Chip) : List Nat :=
  ((c0.causes.zip c1.causes).flatMap fun (a, b) =>
      if b.1 = 16 then [] else List.replicate (bitCount (b.2 &&& ((2 ^ 32 - 1) ^^^ a.2))) b.1)
  ++ (if c1.on MBX_INT_EN_EVT then List.replicate c1.evts 16 else [])
  ++ (if c1.on MBX_STATUS_EVT_OVERFLOW && c1.on MBX_INT_EN_EVT_OVERFLOW
        && !(c0.on MBX_STATUS_EVT_OVERFLOW && c0.on MBX_INT_EN_EVT_OVERFLOW) then [16] else [])

/-- The message of a vector is sent, or its pending bit set while the vector or the function is masked; in D3hot no message
leaves (R120, R128). -/
def HostIf.signal (h : HostIf) (v : Nat) : HostIf :=
  let e := h.table.getD v {}
  if h.fnMasked || e.masked then { h with pba := h.pba ||| 2 ^ v }
  else if h.d3hot then h
  else { h with sent := h.sent ++ [(e.addr, e.data)] }

/-- The frame of every command: messages for the causes that became pending, the chip's writes carried out in memory, and the sticky bits it
set noted with their ACLK cycle. -/
def State.commit (s : State) (c1 : Chip) : State :=
  let h := (newCauses s.chip c1).foldl HostIf.signal c1.host
  { s with
    mem := c1.out.foldl Memory.apply s.mem
    chip := { c1 with host := h, out := [], evts := 0, risen := s.chip.nowRisen c1 } }

end Sys2Proof.Machine
end

