-- ==== Sys2Proof/Machine/Operands.lean ====
section
/-! DEFINITION. What the words of a command mean: formats and rate classes (R160), index spaces (R157), roles, status codes
(R133), the opcode catalogue (R144), the request read from its buffer, and the assignment of epochs (R30 to R32). -/

namespace Sys2Proof.Machine

/-! ### Status codes (R133) -/

def stOK : Nat := 0x0000
def stPending : Nat := 0x0001
def stBadOpcode : Nat := 0x0010
def stBadLength : Nat := 0x0011
def stBadArg : Nat := 0x0012
def stNoCapacity : Nat := 0x0020
def stNoResource : Nat := 0x0021
def stEpochPast : Nat := 0x0030
def stEpochTooFar : Nat := 0x0031
def stNotActive : Nat := 0x0040
def stTwinBusy : Nat := 0x0041
def stDenied : Nat := 0x0050
def stUpdateRefused : Nat := 0x0060

/-- The outcome of the checks of a request: the status of the first check that fails, or its plan. -/
abbrev Check := Except Nat Plan

/-- A check: the status is answered where the condition fails. -/
def require (b : Bool) (st : Nat) (k : Except Nat α) : Except Nat α := if b then k else .error st

/-! ### The opcode catalogue (R144) -/

/-- The kinds of R141: a query, a change, a local change. -/
inductive OpKind where
  | query | change | loc
  deriving DecidableEq, Repr

/-- The opcodes of R144 with their kind and whether they bear an epoch. -/
def catalogue : List (Nat × OpKind × Bool) := [
  (0x0000, .query, false)  /- ECHO -/,
  (0x0001, .query, false)  /- GET_INFO -/,
  (0x0002, .query, false)  /- GET_EPOCH -/,
  (0x0080, .loc, false)  /- RESTART_FW -/,
  (0x0081, .loc, false)  /- DEVICE_RESET -/,
  (0x0082, .change, false)  /- SET_ROLE -/,
  (0x0083, .change, false)  /- CANCEL -/,
  (0x0084, .loc, false)  /- CLEAR_STICKY -/,
  (0x0085, .loc, false)  /- LANE_RESET -/,
  (0x0100, .query, false)  /- PWR_GET_STATUS -/,
  (0x0180, .change, false)  /- PWR_SET_DOMAIN -/,
  (0x0181, .change, false)  /- PWR_SET_MON -/,
  (0x0182, .loc, false)  /- PWR_ENTER_QUIET -/,
  (0x0200, .query, false)  /- REF_GET_STATUS -/,
  (0x0280, .change, false)  /- REF_SET_CANDIDATE -/,
  (0x0281, .change, false)  /- REF_SET_PLANE -/,
  (0x0300, .query, false)  /- PTP_GET_STATUS -/,
  (0x0301, .query, false)  /- PTP_GET_RECORDS -/,
  (0x0380, .change, false)  /- PTP_SET_PORT -/,
  (0x0400, .query, false)  /- XPT_GET_ROUTES -/,
  (0x0401, .query, false)  /- XPT_GET_BUDGET -/,
  (0x0480, .change, true)  /- XPT_TAKE -/,
  (0x0481, .change, true)  /- XPT_SALVO -/,
  (0x0482, .change, true)  /- XPT_SET_DEST -/,
  (0x0483, .change, true)  /- XPT_SET_GEN -/,
  (0x0500, .query, false)  /- FSY_GET_STATUS -/,
  (0x0580, .change, false)  /- FSY_SET_SOURCE -/,
  (0x0600, .query, false)  /- LBS_GET_STATUS -/,
  (0x0680, .change, true)  /- LBS_SET_RECORD -/,
  (0x0681, .change, true)  /- LBS_SET_PLAYBACK -/,
  (0x0700, .query, false)  /- DMC_GET_STATUS -/,
  (0x0780, .change, false)  /- DMC_SET_CHANNEL -/,
  (0x0800, .query, false)  /- SDI_GET_STATUS -/,
  (0x0880, .change, false)  /- SDI_SET_RX -/,
  (0x0881, .change, false)  /- SDI_SET_TX -/,
  (0x0900, .query, false)  /- FAB_GET_STATUS -/,
  (0x0980, .change, false)  /- FAB_SET_LINK -/,
  (0x0981, .change, true)  /- FAB_SET_SLOTS -/,
  (0x0982, .loc, false)  /- FAB_LOOPBACK -/,
  (0x0A00, .query, false)  /- NET_GET_STATS -/,
  (0x0A80, .change, false)  /- NET_SET_PORT -/,
  (0x0A81, .change, false)  /- NET_SET_GCL -/,
  (0x0B00, .query, false)  /- FLOW_GET_STATUS -/,
  (0x0B80, .change, false)  /- FLOW_JOIN -/,
  (0x0B81, .change, false)  /- FLOW_LEAVE -/,
  (0x0B82, .change, true)  /- FLOW_SET_SENDER -/,
  (0x0C00, .query, false)  /- AUD_GET_STATUS -/,
  (0x0C80, .change, true)  /- AUD_SET_SHUFFLE -/,
  (0x0C81, .change, true)  /- AUD_SET_GAINS -/,
  (0x0C82, .change, true)  /- AUD_SET_LIMITER -/,
  (0x0D00, .query, false)  /- SAP_GET_STATUS -/,
  (0x0D80, .change, false)  /- SAP_SET_PORT -/,
  (0x0E00, .query, false)  /- MVC_GET_STATUS -/,
  (0x0E80, .change, false)  /- MVC_SET_HEAD -/,
  (0x0E81, .change, true)  /- MVC_SET_LAYERS -/,
  (0x0E82, .change, false)  /- MVC_LOAD_GRAPHIC -/,
  (0x0E83, .change, true)  /- MVC_FLIP -/,
  (0x0F00, .query, false)  /- TWN_GET_STATUS -/,
  (0x0F80, .change, false)  /- TWN_HANDOVER -/,
  (0x0F81, .change, false)  /- TWN_SET_POLICY -/,
  (0x1000, .query, false)  /- BUS_GET_STATUS -/,
  (0x1080, .change, false)  /- BUS_SET_APERTURE -/,
  (0x1100, .query, false)  /- UPD_GET_STATUS -/,
  (0x1101, .query, false)  /- SEC_ATTEST -/,
  (0x1180, .loc, false)  /- UPD_DOWNLOAD -/,
  (0x1181, .loc, false)  /- UPD_VERIFY -/,
  (0x1182, .loc, false)  /- UPD_ACTIVATE -/,
  (0x1183, .loc, false)  /- UPD_CONFIRM -/]

/-- The catalogue row of an opcode. -/
def opRow (op : Nat) : Option (OpKind × Bool) := catalogue.lookup op

/-! ### Formats (R160) -/

/-- A row of R160: lines, family (0 F25, 1 F29.97, 2 F30, 3 F23.98, 4 F24), frame period in units of 1/3 ns, rate class (1 SD,
2 HD, 3 3G, 4 6G, 5 12G), and whether the format is interlaced. -/
structure FmtRow where
  lines : Nat
  family : Nat
  period : Nat
  cls : Nat
  interlaced : Bool

/-- The format table of R160 by code, code 0 first (no format). -/
def fmtRows : List FmtRow := [
  ⟨0, 9, 0, 0, false⟩,
  ⟨625, 0, 120000000, 1, true⟩, ⟨525, 1, 100100000, 1, true⟩, ⟨750, 0, 60000000, 2, false⟩, ⟨750, 1, 50050000, 2, false⟩,
  ⟨750, 2, 50000000, 2, false⟩, ⟨1125, 0, 120000000, 2, true⟩, ⟨1125, 1, 100100000, 2, true⟩, ⟨1125, 2, 100000000, 2, true⟩,
  ⟨1125, 3, 125125000, 2, false⟩, ⟨1125, 4, 125000000, 2, false⟩, ⟨1125, 0, 120000000, 2, false⟩,
  ⟨1125, 1, 100100000, 2, false⟩, ⟨1125, 2, 100000000, 2, false⟩, ⟨1125, 0, 60000000, 3, false⟩,
  ⟨1125, 1, 50050000, 3, false⟩, ⟨1125, 2, 50000000, 3, false⟩, ⟨1125, 3, 125125000, 4, false⟩,
  ⟨1125, 4, 125000000, 4, false⟩, ⟨1125, 0, 120000000, 4, false⟩, ⟨1125, 1, 100100000, 4, false⟩,
  ⟨1125, 2, 100000000, 4, false⟩, ⟨1125, 0, 60000000, 5, false⟩, ⟨1125, 1, 50050000, 5, false⟩, ⟨1125, 2, 50000000, 5, false⟩]

/-- The row of a format code; row 0 for a code not in R160. -/
def fmt (code : Nat) : FmtRow := fmtRows.getD code ⟨0, 9, 0, 0, false⟩

/-- A code of R160. -/
def fmtOk (code : Nat) : Bool := 1 ≤ code && code ≤ 0x18

/-- The rate class of a format. -/
def fmtClass (code : Nat) : Nat := (fmt code).cls

/-- The rate code of a format: the fractional families take the higher code of their class (R278). -/
def rateCode (f : Nat) (quad : Bool) : Nat :=
  let frac := (fmt f).family == 1 || (fmt f).family == 3
  let cls := if quad then 3 else fmtClass f
  if cls = 0 then 0 else if cls = 1 then 1 else 2 * (cls - 1) + b2n frac

/-- The bits of one frame by format code (R226). -/
def frameBits (f : Nat) : Nat :=
  [0, 10800000, 9009000, 29700000, 24750000, 24750000, 59400000, 49500000, 49500000, 61875000, 61875000, 59400000, 49500000,
   49500000, 59400000, 49500000, 49500000, 247500000, 247500000, 237600000, 198000000, 198000000, 237600000, 198000000,
   198000000].getD f 0

/-- The interface words of a line of a format, of 10 bits (R226). -/
def lineWords (f : Nat) : Nat := frameBits f / 10 / max 1 (fmt f).lines

/-- The format of a structure and a frame period (R210): the lines, the words of a line and the fields of R160, and a period within 200 ppm of
its own; 0 for none. -/
def formatOf (lines words : Nat) (fields : Bool) (period : Nat) : Nat :=
  (((List.range 0x19).drop 1).find? fun f => (fmt f).lines == lines && lineWords f == words && (fmt f).interlaced == fields
    && 1000000 * (period - (fmt f).period) ≤ 200 * (fmt f).period && 1000000 * ((fmt f).period - period) ≤ 200 * (fmt f).period).getD 0

/-- The admission weight of a rate class (R39, R44). -/
def classUnits (cls : Nat) : Nat := [0, 1, 1, 1, 2, 4].getD cls 0

/-- The reserved rate of one pass of a rate class in Mb/s (R41): SD 270, HD 1485, 3G 2970, 6G 5940, 12G 11880. -/
def classRate (cls : Nat) : Nat := [0, 270, 1485, 2970, 5940, 11880].getD cls 0

/-- A format may run on a plane whose plane format is `pf`: same family, frame period P/2, P or 2P (R164). -/
def fmtRuns (f pf : Nat) : Bool :=
  fmtOk f && fmtOk pf && (fmt f).family == (fmt pf).family
    && ((fmt f).period == (fmt pf).period || 2 * (fmt f).period == (fmt pf).period || (fmt f).period == 2 * (fmt pf).period)

/-- The format of a plane; 0 while the plane is UNSET. -/
def Chip.planeFmt (c : Chip) (p : Nat) : Nat := c.rd (REF_PLANE_CFG_FORMAT p)

/-- A format may run on a plane as far as R164 says; of a plane without a format R164 says nothing, and R32 refuses what lies on it. -/
def Chip.mayRun (c : Chip) (f p : Nat) : Bool := fmtOk f && (c.planeFmt p == 0 || fmtRuns f (c.planeFmt p))

/-- The epoch period of a plane in units of 1/3 ns. -/
def Chip.planePeriod (c : Chip) (p : Nat) : Nat := (fmt (c.planeFmt p)).period

/-- The state of a plane (R453). -/
def Chip.planeState (c : Chip) (p : Nat) : Nat := c.rd (REF_PLANE_STAT_STATE p)

/-- A plane is locked: LOCKED or PULLIN (R453). -/
def Chip.planeLocked (c : Chip) (p : Nat) : Bool := c.planeState p == 2 || c.planeState p == 3

/-! ### Roles and index spaces (R157, R158) -/

/-- The running role: 0 standalone, 1 leaf, 2 spine. -/
def Chip.role (c : Chip) : Nat := c.rd TOP_ROLE_ROLE

/-- A source of the running role. -/
def srcOffered (role s : Nat) : Bool :=
  if s < 48 then role != 2
  else if s < 144 then role == 1 || role == 2
  else if s < 240 then role == 2
  else if s < 324 then role != 2
  else s < 332

/-- A destination of the running role. -/
def dstOffered (role d : Nat) : Bool :=
  if d < 48 then role != 2
  else if d < 144 then role == 1 || role == 2
  else if d < 240 then role == 2
  else d < 320 && role != 2

/-- The kinds of source by index: 0 SDI_IN, 1 FAB_IN, 2 NET_IN, 3 STORE_OUT, 4 MV_OUT, 5 GEN. -/
def srcKind (s : Nat) : Nat :=
  if s < 48 then 0 else if s < 240 then 1 else if s < 272 then 2 else if s < 320 then 3 else if s < 324 then 4 else 5

/-! ### Requests (R133) -/

/-- The request standing in a channel's buffer. -/
def parseReq (m : Memory) (ch : Nat) : Req :=
  let w0 := m.word (reqBuf ch)
  let w1 := m.word (reqBuf ch + 4)
  let len := m.word (reqBuf ch + 8)
  { chan := bits w0 16 8, seq := bits w0 0 16, opcode := bits w1 0 16, flags := bits w1 16 16, len := len,
    epoch := m.word (reqBuf ch + 12), payload := m.wordsAt (reqBuf ch + 16) (min len 4080 / 4) }

/-- The protocol version of the request standing in a channel's buffer. -/
def reqVersion (m : Memory) (ch : Nat) : Nat := bits (m.word (reqBuf ch)) 24 8

/-- Payload word `i`; 0 where the payload is shorter. -/
def Req.w (r : Req) (i : Nat) : Nat := r.payload.getD i 0

/-- The payload words `i .. i + n - 1`. -/
def Req.ws (r : Req) (i n : Nat) : List Nat := (List.range n).map fun k => r.w (i + k)

/-- The request sets CHECK_ONLY, VOLATILE, TARGET_PEER (R134). -/
def Req.checkOnly (r : Req) : Bool := bit r.flags 0
def Req.volatile (r : Req) : Bool := bit r.flags 1
def Req.targetPeer (r : Req) : Bool := bit r.flags 2

/-- The length in bytes of a payload of `n` words. -/
def Req.lenIs (r : Req) (n : Nat) : Bool := r.len == 4 * n

/-- No element stands twice in a list. -/
def nodup (l : List Nat) : Bool :=
  match l with
  | [] => true
  | x :: xs => !xs.contains x && nodup xs

/-- An element put into a list ordered by a key, after those of an equal key. -/
def insertBy {α : Type} (key : α → Nat) (x : α) : List α → List α
  | [] => [x]
  | y :: ys => if key x < key y then x :: y :: ys else y :: insertBy key x ys

/-- A list in the order of a key, elements of an equal key in their first order. -/
def sortBy {α : Type} (key : α → Nat) (l : List α) : List α := l.foldl (fun acc x => insertBy key x acc) []

/-- The first status a list of entries is refused with, in entry order. -/
def firstFail {α : Type} (l : List α) (f : α → Option Nat) : Option Nat := l.findSome? f

/-- Go on unless an entry is refused. -/
def allOk {α β : Type} (l : List α) (f : α → Option Nat) (k : Except Nat β) : Except Nat β :=
  match firstFail l f with
  | some st => .error st
  | none => k

/-! ### Epochs (R29 to R32) -/

/-- The epoch a plane last reached; the count before 0 while no boundary has been counted since the last PIN reset or POR. -/
def Chip.epochNow (c : Chip) (p : Nat) : Nat :=
  if (c.plane p).counted then c.rd (XPT_EPOCH_EPOCH p) else 2 ^ 32 - 1

/-- The instant of the frame boundary at which the plane reaches epoch `e`, in units of 1/3 ns. -/
def Chip.epochAt (c : Chip) (p e : Nat) : Nat :=
  (c.plane p).nextB + (sub32 e (c.epochNow p) - 1) * c.planePeriod p

/-- Epoch 0 is never given: the next one is given instead (R31). -/
def skipZero (e : Nat) : Nat := if e % 2 ^ 32 = 0 then 1 else e % 2 ^ 32

/-- The epoch given to a request on a plane that asks for `want` (0 for next), or the status it is refused with
(R30, R31, R32). -/
def Chip.assignEpoch (c : Chip) (p want : Nat) : Except Nat Nat :=
  let cur := c.epochNow p
  let st := c.planeState p
  if st = 0 ∨ (st = 1 ∧ !(c.plane p).left) then .error stDenied
  else if want = 0 then
    if st = 1 then .ok (skipZero (cur + 1))
    else
      let first := (c.plane p).nextB
      let per := max 1 (c.planePeriod p)
      let k := (c.now + ms 1 - first + per - 1) / per
      .ok (skipZero (cur + 1 + k))
  else
    let d := sub32 want cur
    if d = 0 ∨ 2 ^ 31 ≤ d then .error stEpochPast
    else if 65536 < d then .error stEpochTooFar
    else if st ≠ 1 ∧ c.epochAt p want < c.now + ms 1 then .error stEpochPast
    else .ok want

/-- The plane has reached epoch `e`. -/
def Chip.reached (c : Chip) (p e : Nat) : Bool :=
  (c.plane p).counted && sub32 (c.rd (XPT_EPOCH_EPOCH p)) e < 2 ^ 31

/-- The rate class of a rate code (R278). -/
def rateClass (code : Nat) : Nat := [0, 1, 2, 2, 3, 3, 4, 4, 5, 5].getD code 0

end Sys2Proof.Machine
end

