-- ==== Sys2Proof/Machine/FsyOps.lean ====
section
/-! DEFINITION. Operations of the aligners and frame synchronisers (chapter 06): planes, formats and rate classes of sources,
validity and its causes, loss actions at destinations (chapter 05), promotion and frame selection. -/

namespace Sys2Proof.Machine

/-- The carafe a playback channel reads. -/
def Chip.carafeOf (c : Chip) (p : Nat) : Nat := c.rd (LBS_PB_CTL_CARAFE p)

/-- The plane of a source, set by the block R196 names. -/
def Chip.srcPlane (c : Chip) (s : Nat) : Nat :=
  match srcKind s with
  | 3 => c.rd (XPT_DST_CTL_PLANE (272 + c.carafeOf (s - 272)))
  | 4 => c.rd (MVC_HEAD_CTL_PLANE (s - 320))
  | 5 => c.rd (XPT_GEN_CTL_PLANE (s - 324))
  | _ => c.rd (FSY_SRC_CTL_PLANE s)

/-- The format fixed by configuration of a source: FSY FORMAT for SDI_IN and FAB_IN (0 for any), the joined flow's, the
carafe's, the head's or the generator's format (R161, R210). -/
def Chip.cfgFmt (c : Chip) (s : Nat) : Nat :=
  match srcKind s with
  | 2 => if c.on (NET_RXF_CTL_JOINED (s - 240)) then c.rd (NET_RXF_CTL_FORMAT (s - 240)) else 0
  | 3 => c.rd (LBS_REC_CTL_FORMAT (c.carafeOf (s - 272)))
  | 4 => c.rd (MVC_HEAD_CTL_FORMAT (s - 320))
  | 5 => c.rd (XPT_GEN_CTL_FORMAT (s - 324))
  | _ => c.rd (FSY_SRC_CTL_FORMAT s)

/-- The configured rate class of a source (R161). -/
def Chip.cfgClass (c : Chip) (s : Nat) : Nat :=
  match srcKind s with
  | 0 => c.rd (SDI_RX_CTL_MAX_CLASS s)
  | 1 => c.rd (FAB_SLOT_CTL_RATE_CLASS (s - 48))
  | _ => fmtClass (c.cfgFmt s)

/-- A bonded quad-link group (R215): the lead of the group of an SDI_IN, where the group is bonded. -/
def Chip.bondedRx (c : Chip) (s : Nat) : Bool := s < 48 && c.on (SDI_RX_CTL_BOND (s / 4 * 4))
def Chip.bondedTx (c : Chip) (d : Nat) : Bool := d < 48 && c.on (SDI_TX_CTL_BOND (d / 4 * 4))

/-- The source whose aligner serves a source: the lead of its bonded group (R215). -/
def Chip.leadOf (c : Chip) (s : Nat) : Nat := if c.bondedRx s then s / 4 * 4 else s

/-- The format the aligner has detected (R210). -/
def Chip.detFmt (c : Chip) (s : Nat) : Nat :=
  if srcKind s ≤ 1 then c.rd (FSY_SRC_STAT_DET_FORMAT s) else c.cfgFmt s

/-- The line period of a source's format in units of 1/3 ns, rounded down. -/
def Chip.linePeriod (c : Chip) (s : Nat) : Nat := (fmt (c.detFmt s)).period / max 1 (fmt (c.detFmt s)).lines

/-- The detected format matches (R211): it is the configured one, or runs on the plane; a bonded group carries 0x16 to 0x18 only (R291), and no
other source a rate class above the configured one (R161). -/
def Chip.fmtMatches (c : Chip) (s f : Nat) : Bool :=
  let cf := c.rd (FSY_SRC_CTL_FORMAT s)
  (if c.bondedRx s then decide (0x16 ≤ f) else decide (fmtClass f ≤ c.cfgClass s))
    && if cf != 0 then f == cf else fmtRuns f (c.planeFmt (c.srcPlane s))

/-- The elastic window of a source, in 1/256 line (R199), and its demotion window (R205). -/
def winLo (s : Nat) : Int := if s < 48 then -1024 else -2048
def winHi (s : Nat) : Int := if s < 48 then 1024 else 0
def calmLo (s : Nat) : Int := if s < 48 then -768 else -1792
def calmHi (s : Nat) : Int := if s < 48 then 768 else -256

/-- A source is valid (R213, R639). -/
def Chip.srcValid (c : Chip) (s : Nat) : Bool := c.on (FSY_SRC_STAT_VALID s)

/-- A memory channel is FAILED (R270). -/
def Chip.dramFailed (c : Chip) : Bool := (List.range 8).any fun n => c.rd (DMC_CH_STAT_STATE n) == 6

/-- The slot of a FAB_IN is lost: on its plane, or on both planes of the merge in leaf role (R356, R359). -/
def Chip.slotLost (c : Chip) (m : Nat) : Bool :=
  if c.role = 1 then !(c.on (FAB_SLOT_STAT_RX_PRESENT m)) && !(c.on (FAB_SLOT_STAT_RX_PRESENT (m + 96)))
  else !(c.on (FAB_SLOT_STAT_RX_PRESENT m))

/-- The cause that makes one source invalid now, by the codes of FSY_SRC_STAT.CAUSE, leaving the group causes 11 to 13 aside;
0 where none holds. A bonded group has one window, judged on its lead (R215). -/
def Chip.ownCause (c : Chip) (s : Nat) : Nat :=
  let x := c.src s
  match srcKind s with
  | 2 =>
    if !(c.on (NET_RXF_CTL_JOINED (s - 240))) then 1
    else if !(c.on (NET_ANCHOR_CTL_VALID (c.srcPlane s))) ∨ !x.mapped then 8
    else if 8 ≤ x.bad then 6 else 0
  | 3 => if c.on (LBS_PB_CTL_ENABLE (s - 272)) then 0 else 9
  | 4 => if c.on (MVC_HEAD_CTL_ENABLE (s - 320)) then 0 else 10
  | 5 => if c.on (XPT_GEN_CTL_ENABLE (s - 324)) then 0 else 1
  | k =>
    if k = 0 ∧ c.rd (SDI_RX_CTL_MAX_CLASS s) = 0 then 1
    else if k = 1 ∧ !(c.on (FAB_SLOT_CTL_RX_EN (s - 48))) then 1
    else if k = 0 ∧ c.rd (SDI_RX_STAT_STATE s) ≠ 2 then 2
    else if k = 1 ∧ c.slotLost (s - 48) then 7
    else if c.rd (FSY_SRC_STAT_DET_FORMAT s) = 0 then 3
    else if !(c.fmtMatches s (c.rd (FSY_SRC_STAT_DET_FORMAT s)))
        ∨ (c.bondedRx s ∧ c.rd (SDI_RX_STAT_LEVEL_B s) ≠ c.rd (SDI_RX_STAT_LEVEL_B (s / 4 * 4))) then 4
    else if c.leadOf s = s ∧ !(c.on (FSY_SRC_STAT_IN_WINDOW s)) ∧ !(c.on (FSY_SRC_CTL_ALLOW_FS s)) then 5
    else if 8 ≤ x.bad ∨ (x.dram ∧ c.dramFailed) then 6
    else 0

/-- The cause reported for a source, with the rule of R639 for bonded groups. -/
def Chip.srcCause (c : Chip) (s : Nat) : Nat :=
  if !(c.bondedRx s) then c.ownCause s
  else
    let k := s / 4 * 4
    let anyBad := (List.range 4).any fun i => c.ownCause (k + i) != 0
    if s = k then
      if (c.src k).skew then 11 else if (c.src k).order then 12
      else if c.ownCause k != 0 then c.ownCause k else if anyBad then 13 else 0
    else if c.ownCause s != 0 then c.ownCause s
    else if (c.src k).skew || (c.src k).order || anyBad then 13 else 0

/-! ### Destinations and loss actions (R183 to R186) -/

/-- The destinations whose running route comes from a source. -/
def Chip.destsOf (c : Chip) (s : Nat) : List Nat :=
  ((c.listed 0x81000 384).filter fun (_, v) => bit v 9 && bits v 0 9 == s).map Prod.fst

/-- Every routed destination. -/
def Chip.routed (c : Chip) : List Nat := ((c.listed 0x81000 384).filter fun (_, v) => bit v 9).map Prod.fst

/-- The last clean frame of a source's ring, which HOLD presents (R207): none without frame synchronisation, and none while a memory channel has
failed (R638). -/
def Chip.holdFrame (c : Chip) (s0 : Nat) : Option Nat :=
  let s := c.leadOf s0
  if srcKind s != 5 && c.on (FSY_SRC_CTL_ALLOW_FS s) && !c.dramFailed then ((c.src s).frames.find? fun f => f.whole && f.clean).map RingFrame.n
  else none

/-- The loss action a destination carries out now: (ACTION_TAKEN, event argument, HOLD_UNAVAILABLE, SLATE_MISMATCH). -/
def Chip.lossPlan (c : Chip) (d : Nat) : Nat × Nat × Bool × Bool :=
  let s := c.rd (XPT_DST_CTL_SOURCE d)
  match c.rd (XPT_DST_CTL_LOSS_ACTION d) with
  | 0 =>
    if (c.holdFrame s).isSome then (0, 0, false, false)
    else (1, 3, true, false)
  | 1 => (1, 1, false, false)
  | _ =>
    let g := c.rd (XPT_DST_CTL_SLATE_GEN d)
    if c.on (XPT_GEN_CTL_ENABLE g) && c.rd (XPT_GEN_CTL_FORMAT g) == (c.dst d).present
        && c.rd (XPT_GEN_CTL_PLANE g) == c.rd (XPT_DST_CTL_PLANE d) then (2, 2, false, false)
    else (1, 4, false, true)

/-- A change of a running loss action: the flags follow the action carried out (R186). -/
def Chip.clearLoss (c : Chip) (d : Nat) : Chip := (c.clr (XPT_DST_STAT_HOLD_UNAVAILABLE d)).clr (XPT_DST_STAT_SLATE_MISMATCH d)

/-- The action carried out and its flags are written (R185, R186). -/
def Chip.showLoss (c : Chip) (d : Nat) : Chip :=
  let (a, _, h, m) := c.lossPlan d
  ((((c.wr (XPT_DST_STAT_ACTION_TAKEN d) a).when h (·.set (XPT_DST_STAT_HOLD_UNAVAILABLE d))).when h
    (·.set XPT_STATUS_HOLD_UNAVAILABLE)).when m (·.set (XPT_DST_STAT_SLATE_MISMATCH d))).when m (·.set XPT_STATUS_SLATE_MISMATCH)

/-- A loss action starts at a destination: flags, count and the LOSS_ACTION event with the action carried out (R186). -/
def Chip.startLoss (c : Chip) (d : Nat) : Chip :=
  let (_, arg, _, _) := c.lossPlan d
  let c := ((c.set (XPT_DST_STAT_LOSS_ACTIVE d)).inc (XPT_DST_STAT_LOSS_COUNT d)).set XPT_STATUS_LOSS
  (c.showLoss d).post 0x04 0x0002 d arg

/-- A loss action ends: LOSS_CLEARED is posted (R186). -/
def Chip.endLoss (c : Chip) (d : Nat) : Chip := (c.clr (XPT_DST_STAT_LOSS_ACTIVE d)).post 0x04 0x0003 d 0

/-- The summary flag of a cause (FSY_STATUS). -/
def Chip.flagCause (c : Chip) (s cause : Nat) : Chip :=
  (((c.when (cause == 4) fun c => (c.set FSY_STATUS_FORMAT_MISMATCH).set (FSY_SRC_STAT_MISMATCH_SEEN s)).when (cause == 5)
    (·.set FSY_STATUS_OUT_OF_WINDOW)).when (cause == 11 || cause == 12) (·.set FSY_STATUS_QUAD_FAULT))

/-- The sources of a source's aligner: the four of a bonded group, or itself (R639). -/
def Chip.groupOf (c : Chip) (s : Nat) : List Nat :=
  if c.bondedRx s then (List.range 4).map (s / 4 * 4 + ·) else [s]

/-- A receive flow enters RECEIVING (R422). -/
def Chip.flowReceiving (c : Chip) (f : Nat) : Chip := (c.wr (NET_RXF_STAT_STATE f) 2).post 0x0B 0x0001 f 0

/-- A NET_IN became invalid: its flow, while joined, is LOST (R422, R423). -/
def Chip.flowLost (c : Chip) (f cause : Nat) : Chip :=
  ((c.when (c.on (NET_RXF_CTL_JOINED f)) (·.wr (NET_RXF_STAT_STATE f) 3)).set
    (NET_FLOW_STATUS_FLOW_LOST (flowPort (c.get (NET_RXF_CTL f))))).post 0x0B 0x0002 f cause

/-- A source without an aligner shows the format of its flow, carafe, head or generator while it is configured (R210). -/
def Chip.showDet (c : Chip) (s : Nat) : Chip :=
  if srcKind s ≤ 1 then c
  else
    let cause := c.ownCause s
    c.wr (FSY_SRC_STAT_DET_FORMAT s) (if cause = 1 ∨ 9 ≤ cause then 0 else c.cfgFmt s)

/-- The lines of the frame that a promoted source presents which are not written yet (R214). -/
def Chip.unwritten (c : Chip) (s : Nat) : Nat :=
  let x := c.src s
  match x.frames.head? with
  | some f => if f.n = x.shown ∧ f.n + 1 = x.next then (fmt (c.detFmt s)).lines - (c.now - f.at_) / max 1 (c.linePeriod s) else 0
  | none => 0

/-- The frame that a lost source's ring is receiving is cut short, and never complete (R201). -/
def Src.cutShort (x : Src) : Src :=
  { x with frames := match x.frames with | f :: l => if f.n + 1 = x.next then { f with whole := false } :: l else f :: l | [] => [] }

/-- The loss actions of the destinations of a lost source start (R183). -/
def Chip.lossStarts (c : Chip) (s : Nat) : Chip :=
  c.each ((c.groupOf s).flatMap c.destsOf) fun c d => c.when (!(c.on (XPT_DST_STAT_LOSS_ACTIVE d))) (·.startLoss d)

/-- A valid source becomes invalid with its cause: sticky bits and SRC_INVALID, on the lead only for a bonded group, and the
loss action of every destination routed from it (R183, R213, R214, R639). The frame that a promoted source presents is cut short: its lines not
yet written are invalid, and the loss actions start at the next presentation instant (R214). -/
def Chip.loseSrc (c : Chip) (s0 : Nat) : Chip :=
  let s := c.leadOf s0
  let cause := c.srcCause s
  let cut := c.on (FSY_SRC_STAT_PROMOTED s) && cause != 6
  let gone := if cut then c.unwritten s else 0
  let c := c.each (c.groupOf s) fun c i => (c.clr (FSY_SRC_STAT_VALID i)).wr (FSY_SRC_STAT_CAUSE i) (c.srcCause i)
  let x := (c.src s).cutShort
  let c := c.setSrc s { x with good := 0, whole := 0, calm := 0, shown := 0, lostAt := c.now, decision := none, soiled := true, cut := cut, xframes := [], xshown := 0 }
  let c := ((c.clr (FSY_SRC_STAT_PROMOTED s)).set (FSY_SRC_STAT_INVALID_SEEN s)).set FSY_STATUS_INVALID
  let c := c.when (gone != 0) fun c => (c.add (FSY_SRC_BADLINES_COUNT s) gone).set (FSY_SRC_STAT_BADLINE_SEEN s)
  let c := (c.flagCause s cause).post 0x05 0x0003 s cause
  let c := c.when (srcKind s == 2) fun c => c.flowLost (s - 240) cause
  let c := c.each ((c.groupOf s).flatMap c.destsOf) fun c d => c.set (XPT_DST_STAT_SOURCE_LOST d)
  c.when (!cut) (·.lossStarts s)

/-- A source is judged after something it depends on changed: a valid source with a cause is lost at once, and an invalid source
reports its present cause, whose flag is set when it comes (R214, R639). -/
def Chip.judgeSrc (c : Chip) (s0 : Nat) : Chip :=
  let s := c.leadOf s0
  let c := c.showDet s
  let cause := c.srcCause s
  if c.srcValid s && cause != 0 then c.loseSrc s
  else if !(c.srcValid s) && cause != 0 then
    let was := c.rd (FSY_SRC_STAT_CAUSE s)
    (c.when (was != cause) (·.flagCause s cause)).each (c.groupOf s) fun c i => c.wr (FSY_SRC_STAT_CAUSE i) (c.srcCause i)
  else c

/-- A source becomes valid at the presentation instant that follows two good frames; SRC_VALID is posted with the detected format (R213). -/
def Chip.gainSrc (c : Chip) (s0 : Nat) : Chip :=
  let s := c.leadOf s0
  let x := c.src s
  if c.srcValid s || c.srcCause s != 0 || (srcKind s ≤ 2 && x.good < 2) then c
  else
    let c := c.each (c.groupOf s) fun c i => (c.set (FSY_SRC_STAT_VALID i)).wr (FSY_SRC_STAT_CAUSE i) 0
    let c := c.setSrc s { c.src s with whole := 0, good := 0, lostAt := c.now, dram := false, cut := false }
    let c := c.when (srcKind s > 1) fun c => (c.set (FSY_SRC_STAT_IN_WINDOW s)).showDet s
    let c := c.post 0x05 0x0004 s (c.detFmt s)
    c.when (srcKind s == 2) fun c => c.flowReceiving (s - 240)

/-! ### Self-diagnosis and evidence (R567, R570) -/

/-- Lines were concealed after a memory error: CONCEAL (R570). -/
def Chip.diagConceal (c : Chip) : Chip := { c.set TWN_DIAG_CONCEAL with twn := { c.twn with concealAt := some c.now } }

/-- An uncorrectable memory error was delivered: DRAM_UE (R570). -/
def Chip.diagUe (c : Chip) : Chip := { c.set TWN_DIAG_DRAM_UE with twn := { c.twn with ueAt := some c.now } }

/-- A decision of the active part could not be followed on a plane (R566). -/
def Chip.noteMiss (c : Chip) (q : Nat) : Chip :=
  { c with twn := { c.twn with missed := ((q, c.epochNow q) :: c.twn.missed).take 16 } }

/-! ### Frame selection (R202) -/

/-- The newest frame, complete or being written, whose line 1 arrived at least one line before the instant `now`. -/
def newestReady (frames : List RingFrame) (line now : Nat) : Option RingFrame := frames.find? fun f => f.whole && f.at_ + line ≤ now

/-- One selection of a synchroniser: the frame to present with its instant, and how many source frames it advances (0 a repeat, 1 normal, 1 + k
for k drops), from the frame presented before. -/
def selectFrame (frames : List RingFrame) (shown line now : Nat) : Option (Nat × Nat × Nat) :=
  match newestReady frames line now with
  | none => none
  | some f => some (f.n, f.at_, if shown = 0 then 1 else f.n - shown)

/-- Repeats and drops are counted (R202): `adv` source frames advanced. -/
def Chip.countSlip (c : Chip) (rep drp : Fld) (s adv : Nat) : Chip :=
  (c.when (adv == 0) fun c => ((c.inc rep).set (FSY_SRC_STAT_REPEAT_SEEN s)).set FSY_STATUS_SLIP).when (1 < adv) fun c =>
    ((c.add drp (adv - 1)).set (FSY_SRC_STAT_DROP_SEEN s)).set FSY_STATUS_SLIP

/-- The elastic hold of a frame with offset `o` (1/256 line) in ns (R199). -/
def Chip.elasticNs (c : Chip) (s : Nat) (o : Int) : Nat :=
  let hold : Nat := if s < 48 then (1024 - o).toNat else (-o).toNat
  let f := fmt (c.detFmt s)
  hold * f.period / (max 1 f.lines * 256 * 3)

/-- The presentation instant of a source after its reference instant, in 1/1024 line of its format (R197): the alignment point is 4 lines after
the boundary; the slots of a leaf come 2 lines later, the sources of a spine 0.75 line. -/
def Chip.presentsAfter (c : Chip) (s : Nat) : Nat :=
  if c.role = 2 then 4864 else if c.role = 1 ∧ srcKind s = 1 then 6144 else 4096

/-- A time in lines of a format, as a part of `u` of a line, wrapped to more than −½ and up to +½ frame (R198). -/
def wrapOffset (f u : Nat) (time : Int) : Int :=
  let p : Int := ((fmt f).period : Nat)
  let r := time.emod p
  (if p < 2 * r then r - p else r) * (((fmt f).lines * u : Nat) : Int) / p

/-- The offset of a source frame whose line 1 arrives now, in 1/256 line (R196, R198): from the frame boundary of its plane for an SDI_IN, from the
presentation instant for a FAB_IN; a format of period 2P counts from the boundaries of even epochs. -/
def Chip.offsetNow (c : Chip) (s f : Nat) : Int :=
  let p := c.srcPlane s
  let odd := (fmt f).period == 2 * c.planePeriod p && c.epochNow p % 2 == 1
  let ref : Int := ((c.plane p).nextB : Nat) + (if odd then c.planePeriod p else 0 : Nat)
  let after : Int := if srcKind s = 1 then ((c.presentsAfter s * (fmt f).period / (1024 * max 1 (fmt f).lines) : Nat) : Int) else 0
  wrapOffset f 256 ((c.now : Int) - ref - after)

/-- Whether a source is routed cross-plane onto plane `p` (R179, R180). -/
def Chip.crossOn (c : Chip) (s p : Nat) : Bool :=
  (c.destsOf s).any fun d => c.on (XPT_DST_CTL_CROSS_PLANE d) && c.rd (XPT_DST_CTL_PLANE d) == p

end Sys2Proof.Machine
end

