-- ==== Sys2Proof/Machine/PowerOps.lean ====
section
/-! DEFINITION. Operations of power, supply monitors and domains (chapter 03): which states a domain may take, its transitions,
the brown-out rules, the thermal flags and the monitor levels. -/

namespace Sys2Proof.Machine

/-! ### Domains (R94, R95) -/

/-- The states of PWR_DOM_CTL.REQ and CUR. -/
def stActive : Nat := 0
def stDoze : Nat := 1
def stOff : Nat := 2
def stLow : Nat := 3

/-- The first domain of each kind (R94). -/
def domSdiRx (n : Nat) : Nat := n
def domSdiTx (n : Nat) : Nat := 48 + n
def domFabRx (n : Nat) : Nat := 96 + n
def domFabTx (n : Nat) : Nat := 144 + n
def domNetRx (n : Nat) : Nat := 192 + n
def domNetTx (n : Nat) : Nat := 200 + n
def domTwnRx (n : Nat) : Nat := 208 + n
def domTwnTx (n : Nat) : Nat := 210 + n
def domMem (c : Nat) : Nat := 212 + c
def domHead (h : Nat) : Nat := 220 + h
def domSap (p : Nat) : Nat := 224 + p
def domMac (p : Nat) : Nat := 240 + p
def domQuad (q : Nat) : Nat := 242 + q
def domAud : Nat := 246
def domStore : Nat := 247

/-- A lane direction; a memory channel; a MAC. -/
def isLane (n : Nat) : Bool := n < 212
def isMem (n : Nat) : Bool := 212 ≤ n && n < 220
def isMac (n : Nat) : Bool := n == 240 || n == 241

/-- A state valid for the kind of a domain (R95, R103). -/
def domValid (n v : Nat) : Bool := v == 0 || v == 2 || (v == 1 && isLane n) || (v == 3 && (isMem n || isMac n))

/-- A lane direction held OFF by the role or by TWN_CFG.ENABLE = 0 (R102). -/
def Chip.heldOff (c : Chip) (n : Nat) : Bool :=
  (n < 96 && c.role == 2) || (96 ≤ n && n < 192 && c.role == 0)
    || (208 ≤ n && n < 212 && (c.role == 2 || !(c.on TWN_CFG_ENABLE)))

/-- The present state of a domain. -/
def Chip.dom (c : Chip) (n : Nat) : Nat := c.rd (PWR_DOM_CTL_CUR n)

/-- A domain is ACTIVE. -/
def Chip.domOn (c : Chip) (n : Nat) : Bool := c.dom n == stActive

/-- The state a BUSY domain runs to; its present state otherwise. -/
def Chip.domGoal (c : Chip) (n : Nat) : Nat := if c.on (PWR_DOM_CTL_BUSY n) then tget 4 c.pwr.goal n else c.dom n

/-- The transition of a domain to a state starts (R95). -/
def Chip.domStart (c : Chip) (n v : Nat) : Chip :=
  let c := c.set (PWR_DOM_CTL_BUSY n)
  { c with pwr := { c.pwr with goal := tput 4 c.pwr.goal n v } }

/-- A write of PWR_DOM_CTL.REQ (R103): ignored with DOM_ILLEGAL where the value is not valid for the domain, held while BUSY,
otherwise the start of a transition. -/
def Chip.domReq (c : Chip) (n v : Nat) : Chip :=
  if !(domValid n v) then c.set PWR_STATUS_DOM_ILLEGAL
  else
    let busy := c.on (PWR_DOM_CTL_BUSY n)
    let c := c.wr (PWR_DOM_CTL_REQ n) v
    if busy || c.dom n == v then c else c.domStart n v

/-- A transition ends (R95, R103): CUR takes the state, and the last value written while BUSY starts the next transition. -/
def Chip.domEnd (c : Chip) (n : Nat) : Chip :=
  let v := c.domGoal n
  let c := (c.wr (PWR_DOM_CTL_CUR n) v).clr (PWR_DOM_CTL_BUSY n)
  let c := { c with pwr := { c.pwr with goal := tput 4 c.pwr.goal n 4 } }
  if c.rd (PWR_DOM_CTL_REQ n) == v then c else c.domStart n (c.rd (PWR_DOM_CTL_REQ n))

/-- A domain put into a state at once, by hardware (R101, R256). -/
def Chip.domForce (c : Chip) (n v : Nat) : Chip :=
  let c := ((c.wr (PWR_DOM_CTL_REQ n) v).wr (PWR_DOM_CTL_CUR n) v).clr (PWR_DOM_CTL_BUSY n)
  { c with pwr := { c.pwr with goal := tput 4 c.pwr.goal n 4 } }

/-! ### Supply monitors (R86 to R93) -/

/-- The operating minimum of each rail in mV (R61); VDD_CORE's is its AVS target less 2 %. -/
def railMin (avs m : Nat) : Nat :=
  if m = 0 then (720 + 5 * avs) * 98 / 100
  else [0, 728, 776, 825, 1164, 1067, 1710, 1710].getD m 0

/-- A PWR_MON_CFG value within the limits of R93, on the 5 mV steps of its fields. -/
def monOk (avs m v : Nat) : Bool :=
  let w := bits v 0 12
  let r := bits v 16 12
  w % 5 == 0 && r % 5 == 0 && bits (monDefault m) 16 12 ≤ r && r + 20 ≤ w
    && (if m = 0 then 100 * w ≤ 98 * (720 + 5 * avs) else w ≤ railMin avs m)

/-- The monitor levels of a rail are written, or the write is ignored whole with MON_CFG_REJECT (R93). -/
def Chip.monWrite (c : Chip) (m v : Nat) : Chip :=
  if monOk (c.rd PWR_AVS_TARGET_STEP) m v then c.put (PWR_MON_CFG m) (v &&& 0x0FFF0FFF)
  else c.set PWR_STATUS_MON_CFG_REJECT

/-- MRAM writes are held (R87). -/
def Chip.mramHeld (c : Chip) : Bool := c.on PWR_STATUS_MRAM_HOLD

/-- A rail goes below its warning level (R87, R88). -/
def Chip.railWarn (c : Chip) (m : Nat) : Chip :=
  let old := c.rd PWR_STATUS_RAIL_BELOW_WARN
  if bit old m then c
  else
    let c := c.setBit PWR_STATUS_RAIL_BELOW_WARN m
    let c := ((c.set PWR_STATUS_BOD_WARN).set PWR_STATUS_MRAM_HOLD).setBit PWR_RAIL_HIST_WARN_SEEN m
    c.when (old == 0) (·.inc PWR_BOD_EVENTS_COUNT)

/-- The row of a rail that goes below its warning level posts its event. -/
def Chip.railBelow (c : Chip) (m : Nat) : Chip :=
  if bit (c.rd PWR_STATUS_RAIL_BELOW_WARN) m then c
  else
    let c := c.railWarn m
    c.post 0x01 0x0001 m (c.rd PWR_BOD_EVENTS_COUNT)

/-! ### Temperature (R76) -/

/-- One thermal flag against its level: (whether the reading sets it, whether the next reading may). The first reading after a reset may; a
later one only after a reading below the level − 2 °C. -/
def thermStep (first armed : Bool) (temp level : Int) : Bool × Bool :=
  if level ≤ temp then (first || armed, false) else (false, (armed && !first) || temp < level - 2)

/-- A reading of the sensors: PWR_TEMP and the two flags. -/
def Chip.therm (c : Chip) (temp : Int) : Chip :=
  let (w, wa) := thermStep (!c.pwr.tempRead) c.pwr.warnArmed temp (c.rd PWR_THERM_WARN_LEVEL_LEVEL)
  let (k, ka) := thermStep (!c.pwr.tempRead) c.pwr.critArmed temp (c.rd PWR_THERM_CRIT_LEVEL_LEVEL)
  let c := ((c.wrI PWR_TEMP_TEMP temp).when w (·.set PWR_STATUS_THERM_WARN)).when k (·.set PWR_STATUS_THERM_CRIT)
  { c with pwr := { c.pwr with tempRead := true, warnArmed := wa, critArmed := ka } }

/-! ### Straps (R58, R59) -/

/-- TOP_STRAP as the eight sampled levels leave it. -/
def strapWord (v : Nat) : Nat :=
  v % 256 + (if v % 4 = 3 ∨ bit v 7 then 256 else 0)

end Sys2Proof.Machine
end

