-- ==== Sys2Proof/Machine/XptOps.lean ====
section
/-! DEFINITION. Operations of the stream crosspoint (chapter 05): what a taken route, destination or generator setting does, the
end of loss actions at switching points, and the checks of its requests. -/

namespace Sys2Proof.Machine

/-! ### Changes -/

/-- The format a destination takes from a source: the format fixed by configuration, or the detected one (R161, R162). -/
def Chip.srcFormat (c : Chip) (s : Nat) : Nat := if c.cfgFmt s != 0 then c.cfgFmt s else c.detFmt (c.leadOf s)

/-- A source is a 3G level B-DL stream (R279). -/
def Chip.srcLevelB (c : Chip) (s : Nat) : Bool :=
  if s < 48 then c.on (SDI_RX_STAT_LEVEL_B s) else (c.src s).levelB

/-- A routed destination follows the format of its source: FORMAT and its rate class (3G on each lane of a quad link), the present format with its level, and FORMAT_CHANGED where the
format it carried differs (R162, R177, R279). -/
def Chip.followFmt (c : Chip) (d : Nat) : Chip :=
  let s := c.rd (XPT_DST_CTL_SOURCE d)
  let f := c.srcFormat s
  let old := c.dst d
  let c := (c.wr (XPT_DST_CTL_FORMAT d) f).wr (XPT_DST_CTL_RATE_CLASS d) (if f != 0 && c.on (XPT_DST_CTL_QUAD d) then 3 else fmtClass f)
  let new : Dst := { old with present := f, quad := c.on (XPT_DST_CTL_QUAD d), levelB := c.srcLevelB s }
  if f = 0 ∨ new = old then c
  else (c.setDst d new).when (old.present != 0) (·.set (XPT_DST_STAT_FORMAT_CHANGED d))

/-- The time from the frame boundary of its plane to the output frame start of a destination that sends a format (R165, R166): 4 lines to the alignment
point, then 1 line and 1.8 us, in leaf role 3 lines, and half a line or 1 line to a FAB_OUT. -/
def Chip.outDelay (c : Chip) (d f : Nat) : Nat :=
  let half := if 48 ≤ d ∧ d < 240 then (if c.role = 1 then 9 else 10) else if c.role = 1 then 14 else 10
  half * (fmt f).period / (2 * max 1 (fmt f).lines) + (if 48 ≤ d ∧ d < 240 then 0 else 5400)

/-- The switching lines of a format, field 1 and field 2 (R167). -/
def switchLines (f : Nat) : Nat × Nat :=
  if (fmt f).lines = 625 then (6, 319) else if (fmt f).lines = 525 then (10, 273) else (7, 569)

/-- The time from the frame boundary of its plane to the switching point of a destination (R168). -/
def Chip.switchDelay (c : Chip) (d f : Nat) (field2 : Bool) : Nat :=
  let line := if field2 then (switchLines f).2 else (switchLines f).1
  c.outDelay d f + (line - 1) * (fmt f).period / max 1 (fmt f).lines

/-- The plane of a destination. -/
def Chip.dstPlane (c : Chip) (d : Nat) : Nat := c.rd (XPT_DST_CTL_PLANE d)

/-- The fields a route sets beside its source (R176, R179, R161). -/
def Chip.routeFields (c : Chip) (d s : Nat) (quad : Bool) : Chip :=
  let c := ((c.wr (XPT_DST_CTL_SOURCE d) s).set (XPT_DST_CTL_ROUTED d)).wrB (XPT_DST_CTL_QUAD d) quad
  c.wrB (XPT_DST_CTL_CROSS_PLANE d) (c.srcPlane s != c.dstPlane d)

/-- The source of a destination is lost: its aligner reports it invalid, or its cross-plane ring cannot be read (R183, R638). The frame that a lost
promoted source still presents goes on, its unwritten lines replaced (R214). -/
def Chip.dstLost (c : Chip) (d : Nat) : Bool :=
  let s := c.leadOf (c.rd (XPT_DST_CTL_SOURCE d))
  (!(c.srcValid s) && !(c.src s).cut) || (c.on (XPT_DST_CTL_CROSS_PLANE d) && c.dramFailed)

/-- The number of the frame of a source that a destination's plane presents: of a generator the epoch. -/
def Chip.frameOf (c : Chip) (d s0 : Nat) : Nat :=
  let s := c.leadOf s0
  if srcKind s = 5 then c.epochNow (c.srcPlane s)
  else if c.on (XPT_DST_CTL_CROSS_PLANE d) then (c.src s).xshown else (c.src s).shown

/-- What a destination sends now (R162, R177, R183 to R185, R27). -/
def Chip.picture (c : Chip) (d : Nat) : Pic :=
  let s := c.rd (XPT_DST_CTL_SOURCE d)
  if (c.dst d).present = 0 then .none
  else if (c.dst d).repeats then .again
  else if !(c.on (XPT_DST_CTL_ROUTED d)) then (if d < 48 ∨ 272 ≤ d then .black else .none)
  else if c.on (XPT_DST_STAT_LOSS_ACTIVE d) then
    match c.rd (XPT_DST_STAT_ACTION_TAKEN d) with
    | 0 => match c.holdFrame s with | some n => .frame s n | none => .black
    | 1 => .black
    | _ => .slate (c.rd (XPT_DST_CTL_SLATE_GEN d))
  else .frame s (c.frameOf d s)

/-- The last cross-plane route of a source onto a plane has ended: its second ring is given up (R180). -/
def Chip.crossEnd (c : Chip) (s0 : Nat) : Chip :=
  let s := c.leadOf s0
  if (c.groupOf s).any fun i => c.crossOn i (1 - c.srcPlane s) then c
  else c.setSrc s { c.src s with xframes := [], xshown := 0, xdecision := none }

/-- LBS_REC_CTL shows the plane and the route of STORE_IN (R245). -/
def Chip.syncRec (c : Chip) (d : Nat) : Chip :=
  if 272 ≤ d ∧ d < 320 then
    (c.wr (LBS_REC_CTL_PLANE (d - 272)) (c.dstPlane d)).wr (LBS_REC_CTL_ROUTED (d - 272)) (c.rd (XPT_DST_CTL_ROUTED d))
  else c

/-- A route entry takes effect on its destination's fields and loss action. -/
def Chip.routeTakes (c : Chip) (d w : Nat) : Chip :=
  if bit w 31 then
    let c := c.when (c.on (XPT_DST_STAT_LOSS_ACTIVE d)) (·.endLoss d)
    let c := ((c.clr (XPT_DST_CTL_ROUTED d)).clr (XPT_DST_CTL_QUAD d)).clr (XPT_DST_CTL_CROSS_PLANE d)
    ((((c.wr (XPT_DST_CTL_SOURCE d) 0).wr (XPT_DST_CTL_RATE_CLASS d) 0).wr (XPT_DST_CTL_FORMAT d) 0).clr
      (XPT_DST_STAT_SOURCE_LOST d)).syncRec d
  else
    let s := bits w 16 9
    let same := c.on (XPT_DST_CTL_ROUTED d) && c.rd (XPT_DST_CTL_SOURCE d) == s
    let c := c.when (!same && c.on (XPT_DST_STAT_LOSS_ACTIVE d)) (·.endLoss d)
    let c := c.routeFields d s (bit w 30)
    let c := (c.followFmt d).syncRec d
    let lost := c.dstLost d
    let c := c.wrB (XPT_DST_STAT_SOURCE_LOST d) lost
    c.when (lost && !(c.on (XPT_DST_STAT_LOSS_ACTIVE d))) (·.startLoss d)

/-- A route entry takes at its destination (R172, R177, R180, R186): a loss action of the old source ends, and one of a lost new source
begins. -/
def Chip.applyRoute (c : Chip) (d w : Nat) : Chip :=
  let old := c.rd (XPT_DST_CTL_SOURCE d)
  let was := c.on (XPT_DST_CTL_CROSS_PLANE d)
  (c.routeTakes d w).when was (·.crossEnd old)

/-- A destination setting takes (R187); a running loss action changes to the new action without a new event (R186). -/
def Chip.applyDest (c : Chip) (d w : Nat) : Chip :=
  let c := (((c.wr (XPT_DST_CTL_PLANE d) (bits w 9 1)).wr (XPT_DST_CTL_LOSS_ACTION d) (bits w 10 2)).wr
    (XPT_DST_CTL_SLATE_GEN d) (bits w 12 3))
  let c := ((c.wr (XPT_DST_CTL_FIELD_TAKE d) (bits w 15 1)).wr (XPT_DST_CTL_AUD_VFADE d) (bits w 16 1)).syncRec d
  c.when (c.on (XPT_DST_STAT_LOSS_ACTIVE d)) fun c => (c.clearLoss d).showLoss d

/-- A source shows a change of its configured rate class (R161). -/
def Chip.followClass (c : Chip) (s : Nat) : Chip :=
  (c.wr (FSY_SRC_CTL_RATE_CLASS s) (c.cfgClass s)).showDet s

/-- A generator setting takes (R182), and the source is valid while it is enabled (R183): the words are the request's word 0 and the colour, which
every setting carries, so that a reload brings it back (R195). -/
def Chip.applyGen (c : Chip) (g w colour : Nat) : Chip :=
  let c := ((((c.wr (XPT_GEN_CTL_PATTERN g) (bits w 24 3)).wr (XPT_GEN_CTL_PLANE g) (bits w 8 1)).wr (XPT_GEN_CTL_ENABLE g)
    (bits w 9 1)).wr (XPT_GEN_CTL_FORMAT g) (bits w 16 5))
  let c := c.when (bits w 24 3 == 4 || c.get (XPT_GEN_COLOUR g) == 0) (·.put (XPT_GEN_COLOUR g) (colour % 2 ^ 30))
  let s := 324 + g
  let c := if bit w 9 then (c.gainSrc s).wr (FSY_SRC_STAT_DET_FORMAT s) (bits w 16 5) else c.judgeSrc s
  c.followClass s

/-- What a destination shows changes at its switching point without a change of route: a format-change take of its source, the
action of a running loss, the start of one, and its end once the source has been valid for a whole frame (R162, R177, R186). -/
def Chip.switchDst (c : Chip) (d : Nat) : Chip :=
  if !(c.on (XPT_DST_CTL_ROUTED d)) then c
  else
    let s := c.leadOf (c.rd (XPT_DST_CTL_SOURCE d))
    if !(c.dstLost d) then
      let c := c.clr (XPT_DST_STAT_SOURCE_LOST d)
      if c.on (XPT_DST_STAT_LOSS_ACTIVE d) then
        if 1 ≤ (c.src s).whole ∨ srcKind s = 5 then (c.endLoss d).followFmt d else c
      else c.followFmt d
    else
      let c := c.set (XPT_DST_STAT_SOURCE_LOST d)
      if c.on (XPT_DST_STAT_LOSS_ACTIVE d) then c.showLoss d else c.startLoss d

/-! ### Requests -/

/-- What the checks of a request see: the chip now, the memory, and the chip as a plane's accepted changes leave it at an epoch
(R37); and whether a DRAM reservation exists, running or pending. -/
structure Ctx where
  c : Chip
  mem : Memory
  proj : Nat → Nat → Chip
  reserved : Bool

/-- A plan that answers OK with a payload and changes nothing: a query. -/
def okPlan (payload : List Nat) : Check := .ok { resp := ⟨stOK, 0, 0, payload⟩, journal := false, fwd := false }

/-- The entries of a change wait for an epoch of a plane. -/
def pendsAt (r : Req) (plane epoch : Nat) (cs : List Change) : List Pend :=
  cs.map fun x => { plane := plane, epoch := epoch, change := x, chan := r.chan, seq := r.seq, host := true }

/-- A plan that takes at one epoch of one plane (R138, R144). -/
def pendPlan (r : Req) (plane epoch : Nat) (cs : List Change) : Check :=
  .ok { resp := ⟨stPending, 0, epoch, []⟩, pends := pendsAt r plane epoch cs }

/-- A plan that takes effect at once and answers OK. -/
def nowPlan (cs : List Change) (payload : List Nat := []) : Check := .ok { resp := ⟨stOK, 0, 0, payload⟩, nows := cs }

/-- Epoch assignment inside a check (R135 step 9). -/
def withEpoch {α : Type} (c : Chip) (plane want : Nat) (k : Nat → Except Nat α) : Except Nat α :=
  match c.assignEpoch plane want with
  | .ok e => k e
  | .error st => .error st

/-- The chip as it will be at the epoch a request would get, or now where it would get none. -/
def Ctx.atEpoch (x : Ctx) (plane want : Nat) : Chip :=
  match x.c.assignEpoch plane want with
  | .ok e => x.proj plane e
  | .error _ => x.c

/-- A change of a kind and index waits in the take queue. -/
def Chip.waits (c : Chip) (k : Kind) (i : Nat) (p : Change → Bool := fun _ => true) : Bool :=
  c.fw.queue.any fun q => q.change.kind == k && q.change.idx == i && p q.change

/-- The entries of a routing request one by one, a QUAD entry as its four lanes (R176). -/
def routeEntries (ws : List Nat) : List (Nat × Nat) :=
  ws.flatMap fun w =>
    if bit w 30 then (List.range 4).map fun i => (bits w 0 9 + i, w + i + (if bit w 31 then 0 else i * 2 ^ 16))
    else [(bits w 0 9, w)]

/-- The argument checks of one route entry (R158, R164, R172, R176, R179, R229), on the chip its epoch finds. -/
def routeArgs (c at_ : Chip) (w : Nat) : Bool :=
  let d := bits w 0 9
  let s := bits w 16 9
  let off := bit w 31
  let quad := bit w 30
  let p := c.dstPlane d
  bits w 9 7 == 0 && bits w 25 5 == 0 && dstOffered c.role d && (off || srcOffered c.role s)
    && (if quad then
          d % 4 == 0 && ((List.range 4).all fun i => dstOffered c.role (d + i) && c.dstPlane (d + i) == p)
            && (c.bondedTx d || (48 ≤ d && d < 240)) && (off || (s % 4 == 0 && c.bondedRx s))
        else !(c.bondedTx d) && (off || !(c.bondedRx s)))
    && (off || !(272 ≤ d && d < 320) || !(at_.on (LBS_REC_CTL_ENABLE (d - 272)))
          || at_.cfgClass s == fmtClass (at_.rd (LBS_REC_CTL_FORMAT (d - 272))))
    && (off || ((at_.srcFormat s == 0 || c.mayRun (at_.srcFormat s) p)
          && (at_.srcPlane s == p || c.planeFmt p == 0 || (fmt (c.planeFmt 0)).family == (fmt (c.planeFmt 1)).family)))

/-- The state checks of one route entry (R179, R182, R229, R354, R419): a routed generator, a recorded STORE_IN, a sent NET_OUT
and a carried FAB_OUT are enabled at the epoch, and a cross-plane source allows frame synchronisation. -/
def routeState (at_ : Chip) (w : Nat) : Bool :=
  let d := bits w 0 9
  let s := bits w 16 9
  bit w 31
    || ((srcKind s != 5 || at_.on (XPT_GEN_CTL_ENABLE (s - 324)))
        && (!(272 ≤ d && d < 320) || at_.on (LBS_REC_CTL_ENABLE (d - 272)))
        && (!(240 ≤ d && d < 272) || at_.on (NET_TXF_CTL_ENABLE (d - 240)))
        && (!(48 ≤ d && d < 240) || ((List.range (if bit w 30 then 4 else 1)).all fun i => at_.on (FAB_SLOT_CTL_TX_EN (d - 48 + i))))
        && (at_.srcPlane s == at_.dstPlane d || at_.on (FSY_SRC_CTL_ALLOW_FS (at_.leadOf s))))

/-- The checks of a routing request on one plane (R173): the destinations distinct, on one plane, each entry good. -/
def chkTake (x : Ctx) (r : Req) : Check :=
  let n := r.w 0
  let ws := r.ws 1 n
  let es := routeEntries ws
  let p := x.c.dstPlane (bits (r.w 1) 0 9)
  let at_ := x.atEpoch p r.epoch
  require (r.lenIs (n + 1)) stBadLength <|
  require (1 ≤ n && n ≤ 384 && nodup (es.map Prod.fst) && es.all (fun e => x.c.dstPlane e.1 == p)
    && ws.all (routeArgs x.c at_)) stBadArg <|
  withEpoch x.c p r.epoch fun e =>
  require (ws.all (routeState at_)) stDenied <|
  pendPlan r p e (es.map fun (d, w) => ⟨.route, d, [w]⟩)

/-- The epoch of one plane of a request with changes on both planes; 0, unjudged, for a plane it does not change (R138). -/
def planeEpoch (c : Chip) (p want : Nat) (used : Bool) : Except Nat Nat := if used then c.assignEpoch p want else .ok 0

/-- The epochs of the two planes of such a request (R135): an epoch that fails on either plane (step 9) comes before the state of a plane that has
none to give (step 10, R32). -/
def planeEpochs (c : Chip) (w0 w1 : Nat) (on : Nat → Bool) : Except Nat (Nat × Nat) :=
  match planeEpoch c 0 w0 (on 0), planeEpoch c 1 w1 (on 1) with
  | .ok e0, .ok e1 => .ok (e0, e1)
  | .error st, .ok _ => .error st
  | .ok _, .error st => .error st
  | .error st, .error su => .error (if st = stDenied then su else st)

/-- The checks of a salvo (R174). -/
def chkSalvo (x : Ctx) (r : Req) : Check :=
  let n := r.w 2
  let ws := r.ws 3 n
  let es := routeEntries ws
  let on := fun p => es.any fun e => x.c.dstPlane e.1 == p
  let ats := fun p => x.atEpoch p (r.w p)
  let at_ := fun w => ats (x.c.dstPlane (bits w 0 9))
  require (r.lenIs (n + 3)) stBadLength <|
  require (1 ≤ n && n ≤ 384 && r.epoch == 0 && nodup (es.map Prod.fst) && ws.all (fun w => routeArgs x.c (at_ w) w)) stBadArg <|
  match planeEpochs x.c (r.w 0) (r.w 1) on with
  | .error st => .error st
  | .ok (e0, e1) =>
    require (ws.all fun w => routeState (at_ w) w) stDenied <|
    .ok { resp := ⟨stPending, 0, 0, [e0, e1]⟩
          pends := es.flatMap fun (d, w) =>
            let p := x.c.dstPlane d
            pendsAt r p (if p = 0 then e0 else e1) [⟨.route, d, [w]⟩] }

/-- The checks of destination settings (R187). In the take queue is a destination that a waiting route names; a waiting setting of its own does not
hold its plane (log entry 67). -/
def chkSetDest (x : Ctx) (r : Req) : Check :=
  let n := r.w 0
  let ws := r.ws 1 n
  let d := fun w => bits w 0 9
  let p := x.c.dstPlane (d (r.w 1))
  let used := fun w =>
    let d := d w
    x.c.on (XPT_DST_CTL_ROUTED d) || x.c.waits .route d
      || (272 ≤ d && d < 320 && (x.c.on (LBS_REC_CTL_ENABLE (d - 272)) || x.c.waits .record (d - 272) fun y => bit (y.ws.getD 0 0) 6))
      || (240 ≤ d && d < 272 && (x.c.on (NET_TXF_CTL_ENABLE (d - 240)) || x.c.waits .sender (d - 240) fun y => bit (y.ws.getD 0 0) 7))
  require (r.lenIs (n + 1)) stBadLength <|
  require (1 ≤ n && n ≤ 384 && nodup (ws.map d) && ws.all (fun w => dstOffered x.c.role (d w) && x.c.dstPlane (d w) == p
    && bits w 10 2 != 3 && bits w 17 15 == 0)) stBadArg <|
  withEpoch x.c p r.epoch fun e =>
  require (ws.all fun w => bits w 9 1 == p || !(used w)) stDenied <|
  pendPlan r p e (ws.map fun w => ⟨.dest, d w, [w]⟩)

/-- A generator is routed or named as a slate, running or pending (R182). -/
def Chip.genUsed (c : Chip) (g : Nat) : Bool :=
  !(c.destsOf (324 + g)).isEmpty
    || (c.listed 0x81000 384).any (fun (_, v) => bits v 11 2 == 2 && bits v 13 3 == g)
    || c.fw.queue.any (fun q =>
        (q.change.kind == .route && !(bit (q.change.ws.getD 0 0) 31) && bits (q.change.ws.getD 0 0) 16 9 == 324 + g)
        || (q.change.kind == .dest && bits (q.change.ws.getD 0 0) 10 2 == 2 && bits (q.change.ws.getD 0 0) 12 3 == g))

/-- The checks of a generator setting (R182). -/
def chkSetGen (x : Ctx) (r : Req) : Check :=
  let w := r.w 0
  let g := bits w 0 3
  let pat := bits w 24 3
  let f := bits w 16 5
  let p := x.c.rd (XPT_GEN_CTL_PLANE g)
  require (r.lenIs (if pat = 4 then 2 else 1)) stBadLength <|
  require (pat ≤ 4 && w &&& 0xF8E0FCF8 == 0 && (pat != 4 || r.w 1 < 2 ^ 30)
    && (x.c.mayRun f (bits w 8 1) || (f == 0 && !(bit w 9)))) stBadArg <|
  withEpoch x.c p r.epoch fun e =>
  require (x.c.planeFmt (bits w 8 1) != 0 || !(bit w 9)) stDenied <|
  require ((bits w 8 1 == p && bit w 9) || !(x.c.genUsed g)) stDenied <|
  pendPlan r p e [⟨.gen, g, [w, if pat = 4 then r.w 1 else (x.proj p e).get (XPT_GEN_COLOUR g)]⟩]

/-- The route entry a waiting route change belongs to, as its request gives it: the four lanes of a QUAD entry are one entry (R172, R176). -/
def Pend.entry (p : Pend) : Nat :=
  let w := p.change.ws.getD 0 0
  let i := p.change.idx % 4
  if bit w 30 then w - i - (if bit w 31 then 0 else i * 2 ^ 16) else w

/-- The waiting route entries, a QUAD entry once, as (plane, epoch, entry), in acceptance order. -/
def routesOf (l : List Pend) : List (Nat × Nat × Nat) :=
  ((l.filter fun q => q.change.kind == .route).map fun q => (q.plane, q.epoch, q.entry)).eraseDups

/-- The pending route entries of the destinations `d .. d + n - 1` as triples, in the order of R193. -/
def Chip.pendingRoutes (c : Chip) (d n : Nat) : List (List Nat) :=
  (List.range 2).flatMap fun p =>
    (sortBy (fun q => sub32 q.2.1 (c.epochNow p)) ((routesOf c.fw.queue).filter fun q =>
      q.1 == p && d ≤ bits q.2.2 0 9 && bits q.2.2 0 9 < d + n)).map fun q => [p, q.2.1, q.2.2]

/-- XPT_GET_ROUTES (R193). -/
def chkGetRoutes (x : Ctx) (r : Req) : Check :=
  let d := r.w 0
  let n := r.w 1
  let ts := x.c.pendingRoutes d n
  require (r.lenIs 2) stBadLength <|
  require (1 ≤ n && n ≤ 384 && (List.range n).all fun i => dstOffered x.c.role (d + i)) stBadArg <|
  okPlan ([n + (if 211 < ts.length then 2 ^ 31 else 0)] ++ ((List.range n).map fun i => x.c.get (XPT_DST_CTL (d + i)))
    ++ [min 211 ts.length] ++ (ts.take 211).flatten)

end Sys2Proof.Machine
end

