-- ==== Sys2Proof/Machine/AlignOps.lean ====
section
/-! DEFINITION. What the aligners and frame synchronisers do when a source frame arrives and when a frame is presented
(chapter 06), and the checks of the requests of the block. -/

namespace Sys2Proof.Machine

/-- The format of the structure a lane's frame had (R210): a lane carries what its rate code carries, level B-DL only 0x0E to 0x10 (R278), and one lane
of a bonded group a quarter of a 12G picture in 3G structure (R160, R291). -/
def Chip.measured (c : Chip) (s : Nat) (f : FrameIn) : Nat :=
  let k := formatOf f.lines f.words f.fields f.period
  let ok := (srcKind s != 0 || rateCode k false == c.rd (SDI_RX_STAT_RATE s)) && (!f.levelB || (0x0E ≤ k && k ≤ 0x10))
  if !ok then 0 else if !(c.bondedRx s) then k else if 0x0E ≤ k ∧ k ≤ 0x10 then k + 8 else 0

/-- The detected format follows two consecutive complete frames of one structure; a frame of another structure leaves it none
until a second one follows (R210, R212). A group's sticky bits are its lead's (R639). -/
def Chip.detect (c : Chip) (s : Nat) (f : FrameIn) : Chip :=
  if !f.complete then c.setSrc s { c.src s with same := 0 }
  else
    let x := c.src s
    let k := c.measured s f
    let same := if x.struct = k then x.same + 1 else 1
    let c := c.setSrc s { x with struct := k, same := min same 2 }
    let det := if k != 0 && 2 ≤ same then k else if c.rd (FSY_SRC_STAT_DET_FORMAT s) = k then k else 0
    let c := c.wr (FSY_SRC_STAT_DET_FORMAT s) det
    c.when (f.pid != 0 && f.pid != k && k != 0) fun c =>
      (c.set (FSY_SRC_STAT_PID_DISAGREE (c.leadOf s))).set FSY_STATUS_PID_DISAGREE

/-- The offset of a frame that begins (R198). -/
def Chip.measure (c : Chip) (s : Nat) (o : Int) : Chip :=
  (c.wrI (FSY_SRC_OFFSET_OFFSET s) o).wrB (FSY_SRC_STAT_IN_WINDOW s) (winLo s ≤ o && o ≤ winHi s)

/-- What one lane finds when line 1 of its frame arrives (R198, R210, R216): the structure of the frame before, and its own offset. -/
def Chip.laneFrame (c : Chip) (s : Nat) (f : FrameIn) : Chip :=
  let k := c.measured s f
  let c := c.detect s f
  let c := c.setSrc s { c.src s with
    here := true
    ended := f.complete && k != 0 && c.fmtMatches s k
    off := c.offsetNow s (if k != 0 then k else c.detFmt s)
    link := f.link
    levelB := f.levelB }
  c.measure s (c.src s).off

/-- The ring when line 1 of frame `next` arrives (R201): the frame before is complete or cut short, clean where none of its lines was invalid; the new
frame is written while the source is valid, or becomes so with it (R213; log entry 70). -/
def Src.ringNext (x : Src) (complete writes : Bool) (now : Nat) : List RingFrame :=
  let l := match x.frames with
    | f :: l => if f.n + 1 = x.next then { f with whole := complete, clean := complete && !x.dirty } :: l else f :: l
    | [] => []
  if writes then (⟨x.next, now, true, false⟩ :: l).take 3 else l

/-- Line 1 of a frame has arrived on every lane of an aligner (R198, R201, R204, R205, R213, R215, R216): the offset is that of the latest lane. A
frame that comes too early for the elastic stage makes the source invalid at its presentation instant, the first line that cannot be presented on
time (R206). -/
def Chip.groupFrame (c : Chip) (s : Nat) (lastBad : Bool) : Chip :=
  let g := c.groupOf s
  let offs := g.map fun i => (c.src i).off
  let hi := offs.foldl max (c.src s).off
  let lo := offs.foldl min (c.src s).off
  let complete := g.all fun i => (c.src i).ended
  let order := c.bondedRx s && g.any fun i => (c.src i).link != 0 && (c.src i).link != i % 4 + 1
  let x := c.src s
  let inWin := c.on (FSY_SRC_STAT_IN_WINDOW s)
  let fs := c.on (FSY_SRC_CTL_ALLOW_FS s)
  let begun := match x.arrAt with | some at_ => decide (x.lostAt < at_) | none => false
  let counts := complete && begun && x.bad < 8 && !x.broke && (inWin || fs)
  let valid := c.srcValid s
  let good := if valid then 0 else if counts then min 2 (x.good + 1) else 0
  let c := c.setSrc s { x with
    good := good
    bad := if lastBad then x.bad else 0
    broke := false
    skew := 512 < hi - lo
    order := order
    frames := x.ringNext complete (fs && (valid || good == 2)) c.now
    arrAt := some c.now
    dirty := false
    next := x.next + 1 }
  let c := c.each g fun c i => c.setSrc i { c.src i with here := false }
  let c := c.measure s hi
  let early := c.srcValid s && c.srcCause s == 5 && hi < winLo s
  let c := c.when (!early) (·.judgeSrc s)
  let calm := calmLo s ≤ hi && hi ≤ calmHi s
  c.when (c.srcValid s && c.on (FSY_SRC_STAT_PROMOTED s)) fun c =>
    c.setSrc s { c.src s with calm := if calm then (c.src s).calm + 1 else 0 }

/-- A source frame ends and the next begins at a lane or slot; the port follows its level (R283). A bonded group goes on with its latest lane
(R215). -/
def Chip.frameArrives (c : Chip) (s : Nat) (f : FrameIn) : Chip :=
  let c := c.when (s < 48 && c.rd (SDI_RX_STAT_STATE s) == 2 && rateClass (c.rd (SDI_RX_STAT_RATE s)) == 3) fun c =>
    c.wrB (SDI_RX_STAT_LEVEL_B s) f.levelB
  if srcKind s > 1 then c
  else
    let c := c.laneFrame s f
    let k := c.leadOf s
    if (c.groupOf k).all fun i => (c.src i).here then c.groupFrame k f.lastBad else c.judgeSrc s

/-- A promoted source returns to the elastic stage after 64 frames inside the demotion window (R205). -/
def Chip.demote (c : Chip) (s : Nat) : Chip :=
  if c.on (FSY_SRC_STAT_PROMOTED s) && 64 ≤ (c.src s).calm then
    ((c.clr (FSY_SRC_STAT_PROMOTED s)).setSrc s { c.src s with calm := 0 }).post 0x05 0x0002 s 0
  else c

/-- A structurally broken line (R213): counted once for a group, on its lead; `run` is set where the line before it was invalid
too. -/
def Chip.badLine (c : Chip) (s0 : Nat) (run : Bool) : Chip :=
  let s := c.leadOf s0
  let x := c.src s
  let c := (c.inc (FSY_SRC_BADLINES_COUNT s)).set (FSY_SRC_STAT_BADLINE_SEEN s)
  let c := c.setSrc s { x with bad := if run then min 8 (x.bad + 1) else 1, broke := x.broke || (!run && 8 ≤ x.bad), soiled := true, dirty := true, bads := x.bads + 1 }
  c.judgeSrc s

/-- The row SRC_INVALID: a valid source with a cause is lost; a source of an aligner without another cause has a line that does not fit
its structure, and the aligner detects anew (R212 to R214). -/
def Chip.sourceInvalid (c : Chip) (s0 : Nat) : Chip :=
  let s := c.leadOf s0
  let c := c.judgeSrc s
  if c.srcValid s && srcKind s ≤ 1 then
    ((c.setSrc s { c.src s with same := 0, struct := 0 }).wr (FSY_SRC_STAT_DET_FORMAT s) 0).judgeSrc s
  else c

/-- An uncorrectable memory error in a ring line that is read (R208). -/
def Chip.conceal (c : Chip) (s : Nat) : Chip := ((c.set (FSY_SRC_STAT_ECC_CONCEAL s)).set FSY_STATUS_ECC_CONCEAL).diagConceal

/-- Lines of a ring are read with an uncorrectable error for presentation: they are invalid lines (R208, R638); `run` where 8 in a row are. -/
def Chip.ringErrors (c : Chip) (s lines : Nat) (run : Bool) : Chip :=
  if lines = 0 then c
  else
    let c := ((c.add (FSY_SRC_BADLINES_COUNT s) lines).set (FSY_SRC_STAT_BADLINE_SEEN s)).conceal s
    let x := c.src s
    c.setSrc s { x with soiled := true, bads := x.bads + lines, bad := if run then 8 else x.bad }

/-- The decision of the active part cannot be followed (R209). -/
def Chip.followMiss (c : Chip) (s : Nat) : Chip :=
  (((c.set (FSY_SRC_STAT_FOLLOW_MISS s)).set FSY_STATUS_FOLLOW_MISS).noteMiss (c.srcPlane s)).post 0x05 0x0005 s 0

/-- The frame a synchroniser presents: the one the active part named, where this part follows it and holds that frame, or the
one R202 selects; the last component says that a named frame was missing. -/
def chooseFrame (frames : List RingFrame) (shown line now : Nat) (named : Option Nat) : Option (Nat × Nat × Nat) × Bool :=
  match named with
  | none => (selectFrame frames shown line now, false)
  | some adv =>
    match frames.find? fun f => f.whole && f.n == shown + adv with
    | some f => (some (f.n, f.at_, adv), false)
    | none => (selectFrame frames shown line now, true)

/-- The frame due at an elastic source has not begun: the newest frame is the one presented before (R204, the late side). -/
def Chip.frameLate (c : Chip) (s : Nat) : Bool := (c.src s).shown != 0 && (c.src s).next == (c.src s).shown + 1

/-- Whether the synchroniser carries an aligned source from this presentation instant on: as the active part decided, where this
part follows it, or by R204. -/
def Chip.syncCarries (c : Chip) (s : Nat) : Bool :=
  srcKind s ≤ 1 &&
    match (c.src s).decision with
    | some (p, _) => p
    | none => c.on (FSY_SRC_STAT_PROMOTED s)
        || (c.on (FSY_SRC_CTL_ALLOW_FS s) && (!(c.on (FSY_SRC_STAT_IN_WINDOW s)) || c.frameLate s))

/-- The synchroniser takes a source (R204), or gives it back where the active part decided so (R209), with the event. -/
def Chip.syncCarry (c : Chip) (s : Nat) (prom was : Bool) : Chip :=
  (c.when (prom && !was) fun c => c.post 0x05 0x0001 s (c.rd (FSY_SRC_DELAY_DELAY_NS s))).when (!prom && was && srcKind s ≤ 1)
    fun c => c.post 0x05 0x0002 s 0

/-- A frame due at a presentation instant has not come: its offset has left the elastic window on the late side, which makes a source without frame
synchronisation invalid (R206). -/
def Chip.lateFrame (c : Chip) (s : Nat) : Chip :=
  c.when (srcKind s ≤ 1 && c.srcValid s && !(c.on (FSY_SRC_CTL_ALLOW_FS s)) && c.frameLate s) (·.clr (FSY_SRC_STAT_IN_WINDOW s))

/-- A source without an aligner writes the frame it presents into its ring (R196, R201), clean where its lines are; the frame before is whole. -/
def Chip.ringOwn (c : Chip) (s : Nat) (clean : Bool) : Chip :=
  let x := c.src s
  c.setSrc s { x with
    frames := if c.on (FSY_SRC_CTL_ALLOW_FS s) then (⟨x.next, c.now, true, clean && !x.dirty⟩ :: x.frames).take 3 else []
    shown := x.next
    dirty := false
    next := x.next + 1 }

/-- A presented frame reaches the cross-plane ring while a route needs it (R180), and the tile scalers. -/
def Chip.presented (c : Chip) (s : Nat) (soiled : Bool) : Chip :=
  let y := c.src s
  let n := ((y.last.map Prod.fst).getD 0) + 1
  c.setSrc s { y with
    decision := none
    whole := if y.lostAt < c.now then y.whole + 1 else y.whole
    tap := match y.last with | some f => if !y.soiled && y.lostAt ≤ f.2 then some f else y.tap | none => y.tap
    soiled := soiled
    last := some (n, c.now)
    xframes := if c.crossOn s (1 - c.srcPlane s) then (⟨n, c.now, true, !soiled⟩ :: y.xframes).take 3 else [] }

/-- A source presents a frame on its own plane (R199, R202, R204, R197): the hold is reported, repeats and drops of a promoted
source are counted, and the frame reaches the cross-plane synchroniser. `lines` of a promoted source's ring are read in error, 8 of them in a row
where `run` (R208). A promoted source whose ring a FAILED memory channel holds becomes invalid (R638); a source lost while promoted now starts its
loss actions (R214). -/
def Chip.presentOwn (c : Chip) (s : Nat) (clean run : Bool) (lines : Nat) : Chip :=
  if c.leadOf s ≠ s then c
  else
  let c := c.when ((c.src s).cut) fun c => (c.setSrc s { c.src s with cut := false }).lossStarts s
  let c := c.when (srcKind s ≤ 1) fun c => (c.lateFrame s).judgeSrc s
  if !(c.srcValid s) then
    c.when (lines != 0 && ((c.groupOf s).flatMap c.destsOf).any fun d =>
      c.on (XPT_DST_STAT_LOSS_ACTIVE d) && c.rd (XPT_DST_STAT_ACTION_TAKEN d) == 0) (·.conceal s)
  else
    let prom := c.syncCarries s
    let was := c.on (FSY_SRC_STAT_PROMOTED s)
    let c := c.when (srcKind s ≤ 1) (·.wrB (FSY_SRC_STAT_PROMOTED s) prom)
    let c := c.when (prom != was) fun c => c.setSrc s { c.src s with calm := 0 }
    let c := c.when (prom && !was) fun c => (c.set (FSY_SRC_STAT_PROMOTE_SEEN s)).set FSY_STATUS_PROMOTED
    let x := c.src s
    if prom && c.dramFailed then
      (((c.syncCarry s prom was).setSrc s { c.src s with dram := true }).ringErrors s 8 true).judgeSrc s
    else
    let (pick, miss) := chooseFrame x.frames x.shown (c.linePeriod s) c.now (x.decision.map Prod.snd)
    let c :=
      if prom then
        let c := match pick with
          | none => c
          | some (n, at_, adv) =>
            ((c.countSlip (FSY_SRC_CNT_REPEATS s) (FSY_SRC_CNT_DROPS s) s adv).wr (FSY_SRC_DELAY_DELAY_NS s) ((c.now - at_) / 3)).setSrc s
              { x with shown := n }
        c.when miss (·.followMiss s)
      else if srcKind s ≤ 1 then
        (c.wr (FSY_SRC_DELAY_DELAY_NS s) (c.elasticNs s (c.rdI (FSY_SRC_OFFSET_OFFSET s)))).setSrc s { x with shown := x.next - 1 }
      else c.ringOwn s clean
    let c := (c.syncCarry s prom was).presented s false
    (c.when prom fun c => c.ringErrors s lines run).when (prom && lines != 0 && run) (·.judgeSrc s)

/-- A cross-plane synchroniser presents a frame on the other plane (R180, R202). While a memory channel has FAILED every line it reads is invalid, and
after 8 of them the source is (R638). -/
def Chip.presentCross (c : Chip) (s p : Nat) (run : Bool) (lines : Nat) : Chip :=
  if c.leadOf s ≠ s || !(c.crossOn s p) || !(c.srcValid s) then c
  else if c.dramFailed then ((c.setSrc s { c.src s with dram := true }).ringErrors s 8 true).judgeSrc s
  else
    let x := c.src s
    let (pick, miss) := chooseFrame x.xframes x.xshown (c.linePeriod s) c.now x.xdecision
    let c := c.setSrc s { x with xdecision := none }
    let c := match pick with
      | none => c
      | some (n, _, adv) =>
        let c := c.countSlip (FSY_XPL_CNT_REPEATS s) (FSY_XPL_CNT_DROPS s) s adv
        ((c.setSrc s { c.src s with xshown := n }).ringErrors s lines run).when (lines != 0 && run) (·.judgeSrc s)
    c.when miss (·.followMiss s)

/-- A source is tapped by a tile (chapter 18). -/
def Chip.tapped (c : Chip) (s : Nat) : Bool := (c.listed 0x600100 64).any fun (_, v) => bit v 9 && bits v 0 9 == s

/-- A video layer's words turn it on with a tap of a source. -/
def layerTaps (ws : List Nat) (s : Nat) : Bool := bit (ws.getD 0 0) 6 && bits (ws.getD 0 0) 17 9 == s

/-- A waiting change names a source: a route from it, or a layer that taps it (R218, R298). -/
def Chip.srcQueued (c : Chip) (s : Nat) : Bool :=
  c.fw.queue.any fun q =>
    (q.change.kind == .route && !(bit (q.change.ws.getD 0 0) 31) && bits (q.change.ws.getD 0 0) 16 9 == s)
      || (q.change.kind == .vlayer && layerTaps q.change.ws s)

/-- The settings of a source take effect (R218), on the four sources of a bonded group alike; the ring fills from the next frame on, and a HOLD that
loses it continues in BLACK (R217). -/
def Chip.applySrc (c : Chip) (s w : Nat) : Chip :=
  let was := c.on (FSY_SRC_CTL_ALLOW_FS s)
  let c := c.each (c.groupOf s) fun c i =>
    ((c.wr (FSY_SRC_CTL_PLANE i) (bits w 9 1)).wr (FSY_SRC_CTL_ALLOW_FS i) (bits w 10 1)).wr (FSY_SRC_CTL_FORMAT i) (bits w 11 5)
  let c := c.when (was != bit w 10) fun c =>
    (c.setSrc s { c.src s with frames := [] }).each ((c.groupOf s).flatMap c.destsOf) fun c d =>
      c.when (c.on (XPT_DST_STAT_LOSS_ACTIVE d)) fun c => (c.clearLoss d).showLoss d
  c.judgeSrc s

/-- The source carries a cross-plane route, running or accepted. -/
def Chip.carriedCross (c : Chip) (s : Nat) : Bool :=
  ((c.groupOf s).flatMap c.destsOf).any fun d => c.on (XPT_DST_CTL_CROSS_PLANE d)

/-- The checks of source settings (R218, R215, R217, R200). -/
def chkSetSource (x : Ctx) (r : Req) : Check :=
  let n := r.w 0
  let ws := r.ws 1 n
  let s := fun w => bits w 0 9
  let args := fun w =>
    bits w 16 16 == 0 && s w < 324 && srcOffered x.c.role (s w) && x.c.leadOf (s w) == s w
      && (srcKind (s w) ≤ 1 || bits w 11 5 == 0) && (srcKind (s w) ≤ 2 || bits w 9 1 == 0) && bits w 11 5 ≤ 0x18
  let busy := fun w =>
    !((x.c.groupOf (s w)).flatMap x.c.destsOf).isEmpty || (x.c.groupOf (s w)).any x.c.tapped
      || (x.c.groupOf (s w)).any x.c.srcQueued
  let state := fun w =>
    (bit w 10 || !(x.c.on (FSY_SRC_CTL_ALLOW_FS (s w)))
      || !(x.c.on (FSY_SRC_STAT_PROMOTED (s w)) || x.c.carriedCross (s w)))
    && (srcKind (s w) > 2 || bits w 9 1 == x.c.rd (FSY_SRC_CTL_PLANE (s w)) || !(busy w))
  require (r.lenIs (n + 1)) stBadLength <|
  require (1 ≤ n && n ≤ 332 && r.epoch == 0 && nodup (ws.map s) && ws.all args) stBadArg <|
  require (ws.all state) stDenied <|
  nowPlan (ws.map fun w => ⟨.src, s w, [w]⟩)

/-- FSY_GET_STATUS (R219). -/
def chkFsyStatus (x : Ctx) (r : Req) : Check :=
  let s := r.w 0
  let n := r.w 1
  require (r.lenIs 2) stBadLength <|
  require (1 ≤ n && n ≤ 254 && (List.range n).all fun i => srcOffered x.c.role (s + i)) stBadArg <|
  okPlan ((List.range n).flatMap fun i =>
    [x.c.get (FSY_SRC_STAT (s + i)), x.c.get (FSY_SRC_OFFSET (s + i)), x.c.get (FSY_SRC_DELAY (s + i)), x.c.get (FSY_SRC_CNT (s + i))])

end Sys2Proof.Machine
end

