-- ==== Sys2Proof/Machine/DmcOps.lean ====
section
/-! DEFINITION. Operations of the memory controller (chapter 08): population and training, the DRAM budget, error capture,
sweeps, failures, and the checks of its requests. -/

namespace Sys2Proof.Machine

/-- The values of DMC_CH_STAT.STATE. -/
def chAbsent : Nat := 0
def chDisabled : Nat := 1
def chTraining : Nat := 2
def chActive : Nat := 3
def chSelf : Nat := 4
def chOff : Nat := 5
def chFailed : Nat := 6

def Chip.chState (c : Chip) (n : Nat) : Nat := c.rd (DMC_CH_STAT_STATE n)
def Chip.dmcCh (c : Chip) (n : Nat) : DmcCh := tget {} c.dmc n
def Chip.setDmcCh (c : Chip) (n : Nat) (x : DmcCh) : Chip := { c with dmc := tput {} c.dmc n x }

/-- A channel is enabled: TRAINING, ACTIVE, SELF-REFRESH, OFF or FAILED. -/
def Chip.chEnabled (c : Chip) (n : Nat) : Bool := 2 ≤ c.chState n

/-- The enabled channels. -/
def Chip.enabledChans (c : Chip) : List Nat := (List.range 8).filter c.chEnabled

/-- The DRAM budget in Mb/s (R249). -/
def Chip.dramBudget (c : Chip) : Nat :=
  let act := ((List.range 8).filter fun n => c.chState n == chActive).length
  let en := c.enabledChans.length
  if act = 8 then 1760000 else if act = 7 ∧ en = 7 then 1540000 else 0

/-- S: the capacity in GiB of the smallest enabled DIMM (R248). -/
def Chip.sGib (c : Chip) : Nat :=
  match c.enabledChans.map fun n => c.rd (DMC_CH_DIMM_SIZE_GIB n) with
  | [] => 0
  | x :: xs => xs.foldl min x

/-- Granule g of the carafe space begins here with every channel enabled (R252). -/
def granulePa (g : Nat) : Nat := 0x10_0000_0000 + g * 0x400_0000

/-- What the PA ranges of the DRAM hold (R252). -/
inductive PaUse where
  | sweepRows | firmware | heads | mediaPool | carafe
  deriving DecidableEq, Repr

/-- The range a PA lies in. -/
def paUse (pa : Nat) : PaUse :=
  if pa < 0x40_0000 then .sweepRows
  else if pa < 0x1_0000_0000 then .firmware
  else if pa < 0x2_0000_0000 then .heads
  else if pa < 0x10_0000_0000 then .mediaPool
  else .carafe

/-- The carafe space in granules of 64 MiB (R224, R225). -/
def Chip.granules (c : Chip) : Nat := c.enabledChans.length * (c.sGib - 8) * 16

/-- DMC_LAYOUT and DRAM_DOWN follow the states of the channels (R248, R249); a step of the Percolator that is due while the budget is 0, or on a
channel that is not ACTIVE, is discarded (R267, R274). -/
def Chip.dmcRefresh (c : Chip) : Chip :=
  let down := c.dramBudget == 0
  let c : Chip := { c with dmc := c.dmc.map fun e => (e.1, if down || c.chState e.1 != chActive then { e.2 with nudges := [] } else e.2) }
  let mask := fun (p : Nat → Bool) => ((List.range 8).filter p).foldl (fun m n => m + 2 ^ n) 0
  let c := c.wr DMC_LAYOUT_ENABLED (mask c.chEnabled)
  let c := c.wr DMC_LAYOUT_USABLE (mask fun n => c.chState n == chActive)
  (c.wr DMC_LAYOUT_S_GIB c.sGib).wrB DMC_STATUS_DRAM_DOWN (c.dramBudget == 0)

/-- A channel enters a state with a cause. -/
def Chip.chEnter (c : Chip) (n st cause : Nat) : Chip :=
  ((c.wr (DMC_CH_STAT_STATE n) st).wr (DMC_CH_STAT_CAUSE n) cause).dmcRefresh

/-- Training of a channel starts (R255, R271, R272). -/
def Chip.trainStart (c : Chip) (n : Nat) : Chip := c.chEnter n chTraining 0

/-- The contents of the bytes of a channel are lost (R111): region 7 bytes whose PA[10:8] is the channel. -/
def Chip.dramLost (c : Chip) (n : Nat) : Chip := c.emit (.clearChan n)

/-- The SPD read of a channel in training, or of one outside the enabled set that holds no DIMM (R247, R271): `dimm` is capacity in GiB, ranks, density, or none without an answer. -/
def Chip.spdRead (c : Chip) (n : Nat) (dimm : Option Dimm) : Chip :=
  if c.chState n = chDisabled ∧ c.rd (DMC_CH_STAT_CAUSE n) = 4 ∧ dimm = none then (c.put (DMC_CH_DIMM n) 0).chEnter n chAbsent 1
  else if c.chState n ≠ chTraining then c
  else
    match dimm with
    | none => (((c.put (DMC_CH_DIMM n) 0).chEnter n chAbsent 1).domForce (domMem n) stOff)
    | some d =>
      let c := ((c.wr (DMC_CH_DIMM_SIZE_GIB n) d.gib).wr (DMC_CH_DIMM_RANKS n) d.ranks).wrB (DMC_CH_DIMM_DENSITY n) d.dense
      if d.supported && d.fits then c.dmcRefresh else (c.chEnter n chDisabled 2).domForce (domMem n) stOff

/-- A delay as training leaves it (R254, R255): FINE in bits 7 to 0 is held within 64 to 191, and whole UI of 64 steps are moved into COARSE in
bits 13 to 8. -/
def heldDelay (v : Nat) : Nat :=
  let f := bits v 0 8
  let k := bits v 8 6
  if f < 64 then (if k = 0 then 64 else f + 64 + (k - 1) * 256)
  else if 191 < f then (if k = 63 then 191 + k * 256 else f - 64 + (k + 1) * 256)
  else v % 2 ^ 14

/-- Training of a channel passes with the delays found (R255): each as FINE and COARSE in bits 13 to 0, for the 40 devices; the sweep pattern is
written to the sweep rows. A transition of its domain ends with it (R272), in SELF-REFRESH where that was requested (R95). -/
def Chip.trainPass (c : Chip) (n : Nat) (rd wr : List Nat) : Chip :=
  if c.chState n ≠ chTraining then c
  else
    let c := c.each (List.range 40) fun c i =>
      (c.put (DMC_RD_DLY n i) (heldDelay (rd.getD i 0))).put (DMC_WR_DLY n i) (heldDelay (wr.getD i 0))
    let c := ((c.put (DMC_DEV_DEGRADED n 0) 0).put (DMC_DEV_DEGRADED n 1) 0).emit (.sweepRows n)
    let c := (c.setDmcCh n { scrub := (c.dmcCh n).scrub }).chEnter n chActive 0
    let c := if c.on (PWR_DOM_CTL_BUSY (domMem n)) then c.domEnd (domMem n)
      else c.when (c.dom (domMem n) != stActive) (·.domForce (domMem n) stActive)
    let c := c.when (c.dom (domMem n) == stLow) (·.chEnter n chSelf 0)
    c.post 0x07 0x0004 n 0

/-- Training of a channel fails (R256). -/
def Chip.trainFail (c : Chip) (n : Nat) : Chip :=
  if c.chState n ≠ chTraining then c
  else (((c.chEnter n chDisabled 3).domForce (domMem n) stOff).set DMC_STATUS_TRAIN_FAILED).post 0x07 0x0005 n 3

/-- A channel is ACTIVE, or enters or leaves SELF-REFRESH (R274). -/
def Chip.chWorks (c : Chip) (n : Nat) : Bool :=
  c.chState n == chActive || (c.chState n == chSelf && (c.on (PWR_DOM_CTL_BUSY (domMem n)) || (c.dmcCh n).failing != 0))

/-- A channel has met a condition of R269; the first cause stands. -/
def Chip.chFailing (c : Chip) (n cause : Nat) : Chip :=
  if c.chWorks n && (c.dmcCh n).failing == 0 then c.setDmcCh n { c.dmcCh n with failing := cause } else c

/-- A channel fails (R270): the store halts at the next boundaries of its enabled carafes' planes, and every other carafe is EMPTY at once (R239;
log entry 68); a HOLD that reads a ring turns into BLACK (R638). -/
def Chip.chFail (c : Chip) (n : Nat) : Chip :=
  let cause := (c.dmcCh n).failing
  if cause = 0 ∨ !(c.chWorks n) then c
  else
    let planes := (List.range 2).filter fun p => (List.range 48).any fun r =>
      c.on (LBS_REC_CTL_ENABLE r) && c.dstPlane (272 + r) == p
    let c := c.setDmcCh n { c.dmcCh n with failing := 0, nudges := [] }
    let c := (c.chEnter n chFailed cause).set DMC_STATUS_CH_FAILED
    let idle := (List.range 48).filter fun r => !(c.on (LBS_REC_CTL_ENABLE r))
    let c := { c with lbs := { c.lbs with halt := some (n, planes), carafes := c.lbs.carafes.filter fun e => !(idle.contains e.1) } }
    let c := c.each idle fun c r => c.put (LBS_REC_HIST r) 0
    let c := c.each (c.routed.filter fun d => c.on (XPT_DST_STAT_LOSS_ACTIVE d) && c.rd (XPT_DST_STAT_ACTION_TAKEN d) == 0
      && c.rd (XPT_DST_CTL_LOSS_ACTION d) == 0) Chip.showLoss
    c.post 0x07 0x0001 n cause

/-- A device becomes degraded (R264); two in one rank and subchannel fail the channel (R269). -/
def Chip.degrade (c : Chip) (n i : Nat) : Chip :=
  let k := i / 20
  if bit (c.rd (DMC_DEV_DEGRADED_DEGRADED n k)) (i % 20) then c
  else
    let c := ((c.setBit (DMC_DEV_DEGRADED_DEGRADED n k) (i % 20)).set DMC_STATUS_DEV_DEGRADED).post 0x07 0x0003 n i
    let m := bits (c.rd (DMC_DEV_DEGRADED_DEGRADED n k)) (i % 20 / 10 * 10) 10
    c.when (2 ≤ bitCount m) (·.chFailing n 7)

/-! ### Addresses and errors (R250, R261, R265) -/

/-- The channel, channel-local address and subchannel of a PA (R250). -/
def paChan (pa : Nat) : Nat := bits pa 8 3
def paLocal (pa : Nat) : Nat := pa / 2 ^ 11 * 2 ^ 8 + pa % 2 ^ 8
def caToPa (n ca : Nat) : Nat := ca / 2 ^ 8 * 2 ^ 11 + n * 2 ^ 8 + ca % 2 ^ 8

/-- The fields of a channel-local address (R250): bank group, subchannel, bank, device column, and the row, of 18 bits for dense devices. -/
def caGroup (ca : Nat) : Nat := bits ca 6 3
def caSub (ca : Nat) : Nat := bits ca 9 1
def caBank (ca : Nat) : Nat := bits ca 10 2
def caColumn (ca : Nat) : Nat := bits ca 12 7 * 16
def caRow (dense : Bool) (ca : Nat) : Nat := bits ca 19 (if dense then 18 else 17)

/-- The bank queue of a burst, 0 to 63 (R257): 32 in each subchannel, one for each bank group and bank. -/
def caQueue (ca : Nat) : Nat := caSub ca * 32 + caGroup ca * 4 + caBank ca

/-- The rank a channel-local address selects: the bit above the row of a 2-rank DIMM. -/
def Chip.caRank (c : Chip) (n ca : Nat) : Nat :=
  if c.rd (DMC_CH_DIMM_RANKS n) = 2 then bits ca (if c.on (DMC_CH_DIMM_DENSITY n) then 37 else 36) 1 else 0

/-- The capture of an error (R265). -/
def Chip.errCapture (c : Chip) (n pa rank sub : Nat) (dev : Option Nat) (scrub : Bool) : Chip :=
  let info := b2n dev.isNone + rank * 2 + sub * 4 + dev.getD 15 * 8 + 128 + b2n scrub * 256
  if !(c.on (DMC_ERR_INFO_VALID n)) || (!(c.on (DMC_ERR_INFO_UE n)) && dev.isNone) then
    ((c.put (DMC_ERR_ADDR_LO n) (pa % 2 ^ 32)).put (DMC_ERR_ADDR_HI n) (pa / 2 ^ 32 % 2 ^ 9)).put (DMC_ERR_INFO n) info
  else c.inc (DMC_ERR_INFO_SINCE n)

/-- A burst read meets an error: corrected in a device 0 to 9, or uncorrectable (R261, R264, R265, R269). -/
def Chip.eccError (c : Chip) (pa0 : Nat) (dev : Option Nat) (scrub : Bool) : Chip :=
  let pa := pa0 / 64 * 64
  let n := paChan pa
  let ca := paLocal pa
  let sub := caSub ca
  let rank := c.caRank n ca
  let c := c.errCapture n pa rank sub dev scrub
  match dev with
  | some d =>
    let i := 20 * rank + 10 * sub + d
    let c := ((c.inc (DMC_CE_COUNT_COUNT n)).inc (DMC_DEV_CE_COUNT n i)).set DMC_STATUS_CE
    let x := c.dmcCh n
    let corr := (i, c.now) :: x.corr.filter fun e => c.now < e.2 + sec 3600
    let c := c.setDmcCh n { x with corr := corr }
    c.when (1024 < (corr.filter fun e => e.1 == i).length) (·.degrade n i)
  | none =>
    let c := ((c.inc (DMC_UE_COUNT_COUNT n)).set DMC_STATUS_UE).post 0x07 0x0002 n (c.get (DMC_ERR_INFO n))
    let x := c.dmcCh n
    let ues := (pa, c.now) :: x.ues.filter fun e => e.1 != pa && c.now < e.2 + sec 1
    let c := c.setDmcCh n { x with ues := ues }
    c.when (c.rd DMC_CFG_UE_LIMIT < ues.length) (·.chFailing n 6)

/-- A DRAM burst read with an error of a client other than the scrub. -/
def Chip.readEcc (c : Chip) (pa : Nat) (dev : Option Nat) : Chip :=
  if c.chState (paChan pa) = chActive then (c.eccError pa dev false).when dev.isNone (·.diagUe) else c

/-- The patrol scrub reads its next burst (R263): nothing found, or an error; it pauses while the channel is not ACTIVE. -/
def Chip.scrubRead (c : Chip) (n : Nat) (found : Option (Option Nat)) : Chip :=
  if c.chState n ≠ chActive then c
  else
    let x := c.dmcCh n
    let c := match found with
      | none => c
      | some dev => c.eccError (caToPa n x.scrub) dev true
    c.setDmcCh n { c.dmcCh n with scrub := (x.scrub + 64) % max 64 (c.sGib * 2 ^ 30) }

/-! ### Refresh boundaries and sweeps (R260, R266, R267) -/

/-- The Percolator of the memory channels runs (R97, R155, R267). -/
def Chip.percRuns (c : Chip) : Bool := c.ready && c.dramBudget != 0

/-- EYE_NARROW is set and posted (R267). -/
def Chip.eyeNarrow (c : Chip) (n i : Nat) : Chip := (c.set DMC_STATUS_EYE_NARROW).post 0x07 0x0006 n i

/-- One due step of FINE (R267). -/
def Chip.nudge (c : Chip) (n i : Nat) (up : Bool) : Chip :=
  let f := c.rd (DMC_RD_DLY_FINE n i)
  if up then (if f + 1 ≤ 239 then c.wr (DMC_RD_DLY_FINE n i) (f + 1) else c.eyeNarrow n i)
  else (if 17 ≤ f then c.wr (DMC_RD_DLY_FINE n i) (f - 1) else c.eyeNarrow n i)

/-- The refresh boundary of a rank: DRAM mode register 4 is read (none unanswered, or whether it reports the doubled rate), and a
due step of each device of the rank is taken (R260, R267, R269). -/
def Chip.refresh (c : Chip) (n k : Nat) (mr4 : Option Bool) : Chip :=
  if c.chState n ≠ chActive then c
  else
    let x := c.dmcCh n
    let due := x.nudges.filter fun e => e.1 / 20 == k
    let hot := match mr4 with
      | some true => k :: x.hot.filter (· != k)
      | some false => x.hot.filter (· != k)
      | none => x.hot
    let silent := if mr4.isNone then x.silent + 1 else 0
    let c := c.setDmcCh n { x with hot := hot, silent := silent, nudges := x.nudges.filter fun e => e.1 / 20 != k }
    let c := c.wrB (DMC_CH_STAT_TEMP_2X n) (!hot.isEmpty)
    let c := if c.percRuns then c.each due fun c e => c.nudge n e.1 e.2 else c
    c.when (4 ≤ silent) (·.chFailing n 8)

/-- The run of set bits that contains bit 16 of a sweep's 33 results (R266): its lowest and highest bit. -/
def passRange (m : Nat) : Option (Nat × Nat) :=
  if !(bit m 16) then none
  else
    let down := ((List.range 17).takeWhile fun i => bit m (16 - i)).length
    let up := ((List.range 17).takeWhile fun i => bit m (16 + i)).length
    some (17 - down, 15 + up)

/-- A sweep of one device ends with the results of its 33 trial delays, FINE − 16 first (R266, R267). -/
def Chip.sweepDev (c : Chip) (n i m : Nat) : Chip :=
  if m % 2 ^ 33 = 0 then (c.setDmcCh n { c.dmcCh n with nudges := (c.dmcCh n).nudges.filter fun e => e.1 != i }).degrade n i
  else
    let (off, width) : Int × Nat := match passRange m with
      | some (lo, hi) => ((((lo + hi) / 2 : Nat) : Int) - 16, hi - lo + 1)
      | none => (0, 0)
    let c := (c.wrI (DMC_RD_DLY_TRIAL_OFFSET n i) off).wr (DMC_RD_DLY_EYE_WIDTH n i) width
    let x := c.dmcCh n
    let others := x.nudges.filter fun e => e.1 != i
    let c := c.setDmcCh n { x with nudges := if off = 0 then others else (i, decide (0 < off)) :: others }
    c.when (width < c.rd DMC_CFG_EYE_MIN) (·.eyeNarrow n i)

/-- The Percolator sweeps a rank of a channel (R266). -/
def Chip.sweep (c : Chip) (n k : Nat) (ms : List Nat) : Chip :=
  if c.chState n ≠ chActive ∨ !c.percRuns then c
  else c.each (List.range 20) fun c d => c.sweepDev n (20 * k + d) (ms.getD d 0)

/-- MC_ALERT_N reports a command parity error, during a replay or not (R268, R269). -/
def Chip.parityAlert (c : Chip) (n : Nat) (inReplay : Bool) : Chip :=
  if !(c.chWorks n) then c
  else
    let x := c.dmcCh n
    let k := if inReplay then x.replays + 1 else 1
    let c := ((c.inc (DMC_ALERT_COUNT_COUNT n)).set DMC_STATUS_ALERT).setDmcCh n { x with replays := k }
    c.when (3 < k) (·.chFailing n 5)

/-! ### Requests -/

/-- A channel is enabled or disabled by command (R271). -/
def Chip.applyDmc (c : Chip) (n on : Nat) : Chip :=
  if on = 1 then c.trainStart n
  else ((c.chEnter n chDisabled 4).domForce (domMem n) stOff).dramLost n

/-- The checks of DMC_SET_CHANNEL (R271). -/
def chkDmcSet (x : Ctx) (r : Req) : Check :=
  let n := bits (r.w 0) 0 3
  let en := bit (r.w 0) 8
  let cfg := r.w 1
  let st := x.c.chState n
  require (r.lenIs 2) stBadLength <|
  require (r.epoch == 0 && r.w 0 &&& 0xFFFFFEF8 == 0 && (cfg == 0 || (1 ≤ bits cfg 0 8 && 4 ≤ bits cfg 8 8 && bits cfg 8 8 ≤ 64
    && 1 ≤ bits cfg 16 8 && bits cfg 16 8 ≤ 168 && cfg < 2 ^ 24))) stBadArg <|
  require (!en || !x.reserved) stDenied <|
  require (!en || !(st == chAbsent || (st == chDisabled && x.c.rd (DMC_CH_STAT_CAUSE n) == 2))) 0x0021 <|
  require (en || !x.reserved) stNoCapacity <|
  nowPlan ([⟨.dmc, n, [b2n en]⟩] ++ (if cfg = 0 then [] else [⟨.dmcCfg, 0, [cfg]⟩])
    ++ (if en then [] else [⟨.dom, domMem n, [stOff]⟩]))

/-- DMC_GET_STATUS (R275). -/
def chkDmcStatus (x : Ctx) (r : Req) : Check :=
  require (r.lenIs 0) stBadLength <|
  okPlan ([x.c.get DMC_STATUS, x.c.get DMC_LAYOUT] ++ (List.range 8).flatMap fun n =>
    [x.c.get (DMC_CH_STAT n), x.c.get (DMC_CH_DIMM n), x.c.get (DMC_CE_COUNT n), x.c.get (DMC_UE_COUNT n),
     x.c.get (DMC_ERR_ADDR_LO n), x.c.get (DMC_ERR_ADDR_HI n), x.c.get (DMC_ERR_INFO n), x.c.get (DMC_ALERT_COUNT n),
     x.c.get (DMC_NOACC_COUNT n)])

end Sys2Proof.Machine
end

