-- ==== Sys2Proof/Machine/LbsOps.lean ====
section
/-! DEFINITION. Operations of the look-back store (chapter 07): regions and depths, the tags a record channel writes, what a
playback channel presents, and the checks of its requests. -/

namespace Sys2Proof.Machine

/-! ### Regions and depths (R225, R226) -/

/-- The bytes of a slot: the frame's bits over 8, rounded up to a multiple of 2,048. -/
def slotBytes (f : Nat) : Nat := (frameBits f / 8 + 2047) / 2048 * 2048

/-- The depth of a region of `size` granules in a format. -/
def depthOf (size f : Nat) : Nat := size * 67108864 / max 1 (slotBytes f)

/-- The granules of a list of regions, as (base, size), one that several share counted once. -/
def unionSize (l : List (Nat × Nat)) : Nat :=
  ((sortBy Prod.fst l).foldl (fun (acc : Nat × Nat) e => (max acc.1 (e.1 + e.2), acc.2 + (e.1 + e.2 - max acc.1 e.1))) (0, 0)).2

/-- Two regions share a granule. -/
def overlap (b1 s1 b2 s2 : Nat) : Bool := decide (b1 < b2 + s2) && decide (b2 < b1 + s1)

def Chip.carafe (c : Chip) (r : Nat) : Carafe := tget {} c.lbs.carafes r
def Chip.setCarafe (c : Chip) (r : Nat) (x : Carafe) : Chip :=
  { c with lbs := { c.lbs with carafes := tput {} c.lbs.carafes r x } }

def Chip.play (c : Chip) (p : Nat) : Play := tget {} c.lbs.plays p
def Chip.setPlay (c : Chip) (p : Nat) (x : Play) : Chip := { c with lbs := { c.lbs with plays := tput {} c.lbs.plays p x } }

/-- The depth N of a carafe. -/
def Chip.depth (c : Chip) (r : Nat) : Nat := c.rd (LBS_REC_DEPTH_DEPTH r)

/-- The regions in use: (channel, base, size) of enabled carafes and of those pending enable (R225, LBS_SPACE). -/
def Chip.regions (c : Chip) : List (Nat × Nat × Nat) :=
  (((List.range 48).filter fun r => c.on (LBS_REC_CTL_ENABLE r)).map fun r =>
      (r, c.rd (LBS_REC_REGION_BASE r), c.rd (LBS_REC_REGION_SIZE r)))
  ++ (c.fw.queue.filter fun q => q.change.kind == .record && bit (q.change.ws.getD 0 0) 6).map fun q =>
      (q.change.idx, bits (q.change.ws.getD 1 0) 0 16, bits (q.change.ws.getD 1 0) 16 16)

/-! ### Frame numbers and tags (R227, R228, R236) -/

/-- The epoch of a plane extended to 64 bits. -/
def Chip.epoch64 (c : Chip) (p : Nat) : Nat := (c.plane p).high * 2 ^ 32 + c.rd (XPT_EPOCH_EPOCH p)

/-- The number of the first frame of a format that a plane begins at or after the boundary of an epoch. -/
def frameAt (f pf e : Nat) : Nat :=
  if (fmt f).period = 2 * (fmt pf).period then (e + 1) / 2 else if 2 * (fmt f).period = (fmt pf).period then 2 * e else e

/-- The number of the frame of a format that runs on a plane now. -/
def Chip.frameNow (c : Chip) (p f : Nat) : Nat :=
  let e := c.epoch64 p
  let per := c.planePeriod p
  if (fmt f).period = 2 * per then e / 2
  else if 2 * (fmt f).period = per then 2 * e + (if (c.plane p).nextB ≤ c.now + per / 2 then 1 else 0)
  else e

/-- The tag of a slot matches a frame number; the kind it has. -/
def Chip.tagOf (c : Chip) (r f : Nat) : Option Slot :=
  match (c.carafe r).tags.lookup (f % max 1 (c.depth r)) with
  | some (low, k) => if low = f % 2 ^ 32 then some k else none
  | none => none

/-- HISTORY of a carafe whose next frame is `f` (R236). -/
def Chip.history (c : Chip) (r f : Nat) : Nat :=
  ((List.range (min f (c.depth r - 1))).takeWhile fun h => (c.tagOf r (f - 1 - h)).isSome).length

/-- SHORT of a playback channel follows its delay and the history it reads (R236, R245). -/
def Chip.shortShow (c : Chip) (p : Nat) : Chip :=
  c.wrB (LBS_PB_STAT_SHORT p) (c.on (LBS_PB_CTL_ENABLE p) && c.rd (LBS_REC_HIST_HISTORY (c.carafeOf p)) < c.rd (LBS_PB_STAT_CUR_DELAY p))

/-- HISTORY and FULL are written, and SHORT of the channels that read the carafe follows. -/
def Chip.wrHist (c : Chip) (r h : Nat) : Chip :=
  let c := (c.wr (LBS_REC_HIST_HISTORY r) h).wrB (LBS_REC_HIST_FULL r) (h + 1 == c.depth r)
  c.each ((List.range 48).filter fun p => c.on (LBS_PB_CTL_ENABLE p) && c.carafeOf p == r) Chip.shortShow

/-- STORE_IN[r] is routed and carries the carafe format. -/
def Chip.carries (c : Chip) (r : Nat) : Bool :=
  c.on (XPT_DST_CTL_ROUTED (272 + r)) && (c.dst (272 + r)).present == c.rd (LBS_REC_CTL_FORMAT r)

/-- A table by slot with the entry of a slot set. -/
def putSlot {α : Type} : List (Nat × α) → Nat → α → List (Nat × α)
  | [], k, x => [(k, x)]
  | (i, v) :: m, k, x => if i = k then (k, x) :: m else if k < i then (k, x) :: (i, v) :: m else (i, v) :: putSlot m k x

/-- What STORE_IN[r] writes now: the lines that do not carry the carafe format from a route are black (R228). -/
def Chip.recPic (c : Chip) (r : Nat) : Pic := if c.carries r then c.picture (272 + r) else .black

/-- The slot of a whole frame is tagged, with the pictures it holds where it is recorded (R228); HISTORY grows where the frame before has its slot
(R236). -/
def Chip.writeSlot (c : Chip) (r f : Nat) (recorded : Bool) : Chip :=
  let x := c.carafe r
  let k := f % max 1 (c.depth r)
  let joins := f != 0 && (c.tagOf r (f - 1)).isSome
  let c := c.setCarafe r { x with
    tags := putSlot x.tags k (f % 2 ^ 32, if recorded then .recorded else .gap)
    slots := if recorded then putSlot x.slots k (x.pics ++ [c.recPic r]) else x.slots
    pics := [] }
  let c := c.wrHist r (if joins then min (c.rd (LBS_REC_HIST_HISTORY r) + 1) (c.depth r - 1) else min 1 (c.depth r - 1))
  c.when (!recorded) fun c => (c.inc (LBS_REC_GAPS_COUNT r)).set LBS_STATUS_GAP_RECORDED

/-- The first of two frames of half the period has ended at the midpoint of a boundary interval. -/
def Chip.recMid (c : Chip) (r p : Nat) : Chip :=
  let x := c.carafe r
  let f := c.rd (LBS_REC_CTL_FORMAT r)
  match x.frame with
  | none => c
  | some n =>
    if 2 * (fmt f).period = c.planePeriod p ∧ n % 2 = 0 ∧ c.frameNow p f = n + 1 then
      (c.setCarafe r { x with frame := some (n + 1), seen := c.carries r }).writeSlot r n x.seen
    else c

/-- The frames a carafe was writing end at a boundary of its plane (R228): one frame, or two of half the period. -/
def Chip.recEnd (c : Chip) (r p : Nat) : Chip :=
  let x := c.carafe r
  let f := c.rd (LBS_REC_CTL_FORMAT r)
  let per := c.planePeriod p
  match x.frame with
  | none => c
  | some n =>
    if (fmt f).period = 2 * per ∧ c.epoch64 p % 2 = 1 then c
    else
      let c := (c.setCarafe r { x with frame := none, seen := false }).writeSlot r n x.seen
      if 2 * (fmt f).period = per ∧ n % 2 = 0 then c.writeSlot r (n + 1) (c.carries r) else c

/-- The midpoints that have come by now: the first frames of half the period have ended (R228). -/
def Chip.storeRun (c : Chip) : Chip :=
  c.each ((c.lbs.carafes.filter fun e => e.2.frame.isSome).map Prod.fst) fun c r => c.recMid r (c.rd (XPT_DST_CTL_PLANE (272 + r)))

/-- The frame a carafe writes from a boundary of its plane on; the history of a carafe that is not enabled ends, and one whose frame before was not
written starts anew (R236). -/
def Chip.recBegin (c : Chip) (r p : Nat) : Chip :=
  let x := c.carafe r
  let f := c.rd (LBS_REC_CTL_FORMAT r)
  if !(c.on (LBS_REC_CTL_ENABLE r)) then
    if c.rd (LBS_REC_HIST_HISTORY r) != 0 then c.wrHist r (c.history r (c.frameNow p f)) else c
  else if c.lbs.stopped ∨ x.frame.isSome ∨ ((fmt f).period = 2 * c.planePeriod p ∧ c.epoch64 p % 2 = 1) then c
  else
    let n := c.frameNow p f
    let c := c.when (c.rd (LBS_REC_HIST_HISTORY r) != 0 && (n == 0 || (c.tagOf r (n - 1)).isNone)) (·.wrHist r 0)
    c.setCarafe r { x with frame := some n, seen := c.carries r, pics := [] }

/-- A switching point of STORE_IN[r] may have changed what the frame being written holds, which was `old` before it (R228). -/
def Chip.recSwitch (c : Chip) (r : Nat) (old : Pic) : Chip :=
  let x := c.carafe r
  if x.frame.isSome then
    c.setCarafe r { x with seen := x.seen || c.carries r, pics := if old = c.recPic r then x.pics else x.pics ++ [old] }
  else c

/-- The store engine loses its domain (R98): the frames being written end, and channels wait for it to restart. -/
def Chip.storeLost (c : Chip) : Chip :=
  { c with lbs := { c.lbs with
      stopped := true
      carafes := c.lbs.carafes.map fun e => (e.1, { e.2 with frame := none, seen := false, pics := [] })
      plays := [] } }

/-- The store engine restarts at a frame boundary of TP0 once its domain is ACTIVE (R98). -/
def Chip.storeBack (c : Chip) (on : Bool) : Chip := if c.lbs.stopped && on then { c with lbs := { c.lbs with stopped := false } } else c

/-! ### Changes -/

/-- A record change takes (R230, R231): words are the entry's words. A disabled carafe under the new region loses the tags of the slots that the
region covers when the change takes (log entry 68). -/
def Chip.applyRecord (c : Chip) (r w v : Nat) : Chip :=
  if !(bit w 6) then (c.clr (LBS_REC_CTL_ENABLE r)).setCarafe r { c.carafe r with frame := none, seen := false, pics := [] }
  else
    let f := bits w 8 5
    let same := c.rd (LBS_REC_CTL_FORMAT r) == f && c.get (LBS_REC_REGION r) == v
    let base := bits v 0 16
    let size := bits v 16 16
    let c := ((c.set (LBS_REC_CTL_ENABLE r)).wr (LBS_REC_CTL_FORMAT r) f).wr (LBS_REC_CTL_RATE_CLASS r) (fmtClass f)
    let c := (c.put (LBS_REC_REGION r) v).wr (LBS_REC_DEPTH_DEPTH r) (depthOf size f)
    let c := c.when (!same) fun c => c.setCarafe r {}
    let c := c.each ((List.range 48).filter fun q => q != r && !(c.on (LBS_REC_CTL_ENABLE q))) fun c q =>
      let b := c.rd (LBS_REC_REGION_BASE q) * 67108864
      let sb := slotBytes (c.rd (LBS_REC_CTL_FORMAT q))
      let x := c.carafe q
      c.setCarafe q { x with tags := x.tags.filter fun e => !(overlap (b + e.1 * sb) sb (base * 67108864) (size * 67108864)) }
    let c := c.wrHist r (c.history r (c.frameNow (c.dstPlane (272 + r)) f))
    c.each ((List.range 48).filter fun q => c.on (LBS_PB_CTL_ENABLE q) && c.carafeOf q == r) fun c q => c.followClass (272 + q)

/-- A PAUSE grows by one frame (R235): its expiry puts it into DELAY at N − 1 and posts PB_PAUSE_EXPIRED. -/
def Chip.pauseExpire (c : Chip) (p : Nat) : Chip :=
  let n := c.depth (c.carafeOf p)
  let c := (c.clr (LBS_PB_CTL_MODE p)).wr (LBS_PB_STAT_CUR_DELAY p) (n - 1)
  (((c.set (LBS_PB_STAT_PAUSE_EXPIRED p)).set LBS_STATUS_PAUSE_EXPIRED).post 0x06 0x0001 p n).shortShow p

/-- A paused channel whose next frame would pass the depth. -/
def Chip.pauseDue (c : Chip) (p : Nat) : Bool :=
  c.on (LBS_PB_CTL_ENABLE p) && c.on (LBS_PB_CTL_MODE p) && c.depth (c.carafeOf p) ≤ c.rd (LBS_PB_STAT_CUR_DELAY p) + 1

/-- A playback change of a channel takes at its next presentation on a plane. -/
def Chip.playDue (c : Chip) (p q : Nat) : Bool :=
  c.fw.queue.any fun e => e.plane == q && c.reached q e.epoch && e.change.kind == .playback && e.change.idx == p

/-- The delay of the next frame of a channel before any change of it takes; a jump in the same frame, and a disable too (log entry 68), leaves no
expiry (R242). -/
def Chip.pauseGrow (c : Chip) (p : Nat) (jump : Bool) : Chip :=
  if !(c.on (LBS_PB_CTL_ENABLE p) && c.on (LBS_PB_CTL_MODE p)) then c
  else if c.pauseDue p then (if jump then c else c.pauseExpire p)
  else (c.wr (LBS_PB_STAT_CUR_DELAY p) (c.rd (LBS_PB_STAT_CUR_DELAY p) + 1)).shortShow p

/-- The row PB_PAUSE_EXPIRED (R235, R242): not where a change of the channel takes in the same frame. -/
def Chip.pauseRow (c : Chip) (p : Nat) : Chip :=
  c.when (!c.lbs.stopped && c.pauseDue p && !(c.playDue p 0) && !(c.playDue p 1)) (·.pauseExpire p)

/-- A playback change takes (R234): the entry's words, the second holding the resolved delay, and whether it keeps the delay the
channel has at the take; an entry that disables leaves that delay set, with CARAFE and MODE 0 as the entry carries them (log entry 68). -/
def Chip.applyPlayback (c : Chip) (p w v keep : Nat) : Chip :=
  let s := 272 + p
  if !(bit w 6) then
    let c := ((c.put (LBS_PB_CTL p) 0).wr (LBS_PB_CTL_DELAY p) (c.rd (LBS_PB_STAT_CUR_DELAY p))).wr (LBS_PB_STAT_CUR_DELAY p) 0
    ((c.setPlay p {}).shortShow p).judgeSrc s
  else
    let d := if keep = 1 ∧ c.on (LBS_PB_CTL_ENABLE p) then c.rd (LBS_PB_STAT_CUR_DELAY p) else v
    let c := ((c.set (LBS_PB_CTL_ENABLE p)).wr (LBS_PB_CTL_MODE p) (bits w 7 1)).wr (LBS_PB_CTL_CARAFE p) (bits w 16 6)
    let c := (c.wr (LBS_PB_CTL_DELAY p) d).wr (LBS_PB_STAT_CUR_DELAY p) d
    ((c.shortShow p).followClass s).judgeSrc s

/-- The frame at a channel's position (R232, R236): the carafe and the number of a recorded frame; none for a gap frame. -/
def Chip.playAt (c : Chip) (p : Nat) (tagErr : Bool) : Option (Nat × Nat) :=
  let r := c.carafeOf p
  let f := c.frameNow (c.dstPlane (272 + r)) (c.rd (LBS_REC_CTL_FORMAT r))
  let d := c.rd (LBS_PB_STAT_CUR_DELAY p)
  if !tagErr && d ≤ f && c.tagOf r (f - d) == some .recorded then some (r, f - d) else none

/-- A channel presents the frame at its delay (R232, R236, R238): the recorded frame or a gap frame, after a jump the lines before the switching line
from `old`, with the lines concealed and whether the slot's tag could be read. -/
def Chip.playShow (c : Chip) (p : Nat) (old : List (Option (Nat × Nat))) (conceal : Nat) (tagErr : Bool) : Chip :=
  if !(c.on (LBS_PB_CTL_ENABLE p)) then c
  else
    let r := c.carafeOf p
    let shown := old ++ [c.playAt p tagErr]
    let c := c.setPlay p { shown := shown, frame := c.frameNow (c.dstPlane (272 + r)) (c.rd (LBS_REC_CTL_FORMAT r)) }
    let c := c.when (shown.any fun x => match x with | some y => c.twn.diverged.contains y | none => false) fun c => { c with twn := { c.twn with
      inherited := ((p, c.epochNow (c.dstPlane (272 + r))) :: c.twn.inherited).take 64 } }
    let c := c.when (conceal != 0 && shown.any Option.isSome) fun c =>
      (((c.add (LBS_PB_CNT_CONCEAL_LINES p) conceal).set (LBS_PB_STAT_CONCEAL_SEEN p)).set LBS_STATUS_ECC_CONCEAL).diagConceal
    c.when (shown.any Option.isNone) fun c =>
      ((c.inc (LBS_PB_CNT_GAP_FRAMES p)).set (LBS_PB_STAT_GAP_SEEN p)).set LBS_STATUS_GAP_PLAYED

/-- The store halts on a plane after a channel failure (R239); with no carafe enabled, at the first such row (log entry 68). -/
def Chip.storeHalt (c : Chip) (p : Nat) : Chip :=
  match c.lbs.halt with
  | none => c
  | some (ch, planes) =>
    let pbs := (List.range 48).filter fun q => c.on (LBS_PB_CTL_ENABLE q) && c.dstPlane (272 + c.carafeOf q) == p
    let rs := (List.range 48).filter fun r => c.dstPlane (272 + r) == p
    let c := c.each rs fun c r => ((c.clr (LBS_REC_CTL_ENABLE r)).setCarafe r {}).wrHist r 0
    let c := c.each pbs fun c q =>
      ((((c.clr (LBS_PB_CTL_ENABLE q)).wr (LBS_PB_STAT_CUR_DELAY q) 0).shortShow q).setPlay q {}).judgeSrc (272 + q)
    let left := planes.filter (· != p)
    if left.isEmpty then
      ({ c with lbs := { c.lbs with halt := none } }.set LBS_STATUS_HALTED).post 0x06 0x0003 0 ch
    else { c with lbs := { c.lbs with halt := some (ch, left) } }

/-! ### Requests -/

/-- The checks of record channels (R225, R226, R230, R231). -/
def chkSetRecord (x : Ctx) (r : Req) : Check :=
  let n := r.w 0
  let es := (List.range n).map fun i => (r.w (1 + 2 * i), r.w (2 + 2 * i))
  let ch := fun (e : Nat × Nat) => bits e.1 0 6
  let en := fun (e : Nat × Nat) => bit e.1 6
  let base := fun (e : Nat × Nat) => bits e.2 0 16
  let size := fun (e : Nat × Nat) => bits e.2 16 16
  let p := x.c.dstPlane (272 + ch (es.headD (0, 0)))
  let args := fun (e : Nat × Nat) => ch e < 48 && bits e.1 13 19 == 0 && !(bit e.1 7) && x.c.dstPlane (272 + ch e) == p
    && (if en e then x.c.mayRun (bits e.1 8 5) p && size e != 0 && 2 ≤ depthOf (size e) (bits e.1 8 5)
        else bits e.1 8 5 == 0 && e.2 == 0)
  let denied := fun (at_ : Chip) (e : Nat × Nat) =>
    if en e then
      !(x.c.domOn domStore)
        || (at_.on (LBS_REC_CTL_ENABLE (ch e))
            && !(at_.rd (LBS_REC_CTL_FORMAT (ch e)) == bits e.1 8 5 && at_.get (LBS_REC_REGION (ch e)) == e.2))
    else
      x.c.on (XPT_DST_CTL_ROUTED (272 + ch e)) || x.c.waits .route (272 + ch e)
        || (List.range 48).any fun q => at_.on (LBS_PB_CTL_ENABLE q) && at_.carafeOf q == ch e
  let clash := fun (e : Nat × Nat) => en e
    && ((x.c.regions.any fun (q, b, s) => q != ch e && overlap b s (base e) (size e))
        || es.any fun f => en f && ch f != ch e && overlap (base f) (size f) (base e) (size e))
  require (r.lenIs (1 + 2 * n)) stBadLength <|
  require (x.c.role != 2 && 1 ≤ n && n ≤ 48 && nodup (es.map ch) && es.all args) stBadArg <|
  withEpoch x.c p r.epoch fun e =>
  require (es.all fun f => !(denied (x.proj p e) f)) stDenied <|
  require (es.all fun f => !(clash f)) 0x0021 <|
  require (es.all fun f => !(en f) || base f + size f ≤ x.c.granules) stNoCapacity <|
  pendPlan r p e (es.map fun f => ⟨.record, ch f, [f.1, f.2]⟩)

/-- The delay a channel will have at the take of an epoch, with the changes accepted earlier and the growth and clamp of a PAUSE since the frame
it presented last (R233). -/
def Chip.delayAt (c : Chip) (p plane e : Nat) : Nat :=
  let step := fun (st : Bool × Nat × Nat × Nat) (e' : Nat) =>
    let (pause, d, r, f) := st
    let f' := frameAt (c.rd (LBS_REC_CTL_FORMAT r)) (c.planeFmt plane) (c.epoch64 plane + sub32 e' (c.epochNow plane))
    (pause, if pause then min (d + (f' - f)) (c.depth r - 1) else d, r, f')
  let r := c.carafeOf p
  let start : Bool × Nat × Nat × Nat :=
    (c.on (LBS_PB_CTL_MODE p), c.rd (LBS_PB_STAT_CUR_DELAY p), r, (c.play p).frame)
  let qs := c.fw.queue.filter fun q => q.plane == plane && q.change.kind == .playback && q.change.idx == p
    && sub32 q.epoch (c.epochNow plane) ≤ sub32 e (c.epochNow plane)
  let qs := sortBy (fun (q : Pend) => sub32 q.epoch (c.epochNow plane)) qs
  let st := qs.foldl (fun st q =>
    let (_, d, _, f) := step st q.epoch
    let w := q.change.ws.getD 0 0
    (bit w 7, if q.change.ws.getD 2 0 = 1 then d else q.change.ws.getD 1 0, bits w 16 6, f)) start
  (step st e).2.1

/-- The checks of playback channels (R233). -/
def chkSetPlayback (x : Ctx) (r : Req) : Check :=
  let n := r.w 0
  let es := (List.range n).map fun i => (r.w (1 + 2 * i), r.w (2 + 2 * i))
  let ch := fun (e : Nat × Nat) => bits e.1 0 6
  let en := fun (e : Nat × Nat) => bit e.1 6
  let car := fun (e : Nat × Nat) => if en e then bits e.1 16 6 else x.c.carafeOf (ch e)
  let p := x.c.dstPlane (272 + car (es.headD (0, 0)))
  let at_ := x.atEpoch p r.epoch
  let args := fun (e : Nat × Nat) => ch e < 48 && car e < 48 && bits e.1 8 8 == 0 && bits e.1 22 10 == 0 && e.2 < 2 ^ 24
    && x.c.dstPlane (272 + car e) == p
    && (if en e then (at_.depth (car e) == 0 || e.2 + 1 ≤ at_.depth (car e))
          && (e.2 != 0 || (at_.on (LBS_PB_CTL_ENABLE (ch e)) && at_.carafeOf (ch e) == car e))
        else e.1 == ch e && e.2 == 0)
  let used := fun q => !(x.c.destsOf (272 + q)).isEmpty || x.c.tapped (272 + q)
    || x.c.fw.queue.any fun y => y.change.kind == .route && !(bit (y.change.ws.getD 0 0) 31)
        && bits (y.change.ws.getD 0 0) 16 9 == 272 + q
  let state := fun (at_ : Chip) (e : Nat × Nat) => !(en e)
    || (at_.on (LBS_REC_CTL_ENABLE (car e)) && x.c.domOn domStore
        && (!(at_.on (LBS_PB_CTL_ENABLE (ch e))) || at_.carafeOf (ch e) == car e || !(used (ch e))
            || at_.rd (LBS_REC_CTL_FORMAT (at_.carafeOf (ch e))) == at_.rd (LBS_REC_CTL_FORMAT (car e))))
  require (r.lenIs (1 + 2 * n)) stBadLength <|
  require (x.c.role != 2 && 1 ≤ n && n ≤ 48 && nodup (es.map ch) && es.all args) stBadArg <|
  withEpoch x.c p r.epoch fun e =>
  require (es.all (state (x.proj p e))) stDenied <|
  pendPlan r p e (es.map fun f =>
    ⟨.playback, ch f, [f.1, if en f && f.2 == 0 then x.c.delayAt (ch f) p e else f.2, b2n (en f && f.2 == 0)]⟩)

/-- LBS_GET_STATUS (R243). -/
def chkLbsStatus (x : Ctx) (space : Nat) (r : Req) : Check :=
  let k := r.w 1
  let n := r.w 2
  let c := x.c
  require (r.lenIs 3) stBadLength <|
  require (r.w 0 ≤ 1 && 1 ≤ n && n ≤ 48 && k + n ≤ 48) stBadArg <|
  okPlan (((List.range n).flatMap fun i =>
    if r.w 0 = 0 then
      [c.get (LBS_REC_CTL (k + i)), c.get (LBS_REC_REGION (k + i)), c.get (LBS_REC_DEPTH (k + i)), c.get (LBS_REC_HIST (k + i)),
       c.get (LBS_REC_GAPS (k + i))]
    else [c.get (LBS_PB_CTL (k + i)), c.get (LBS_PB_STAT (k + i)), c.get (LBS_PB_CNT (k + i))]) ++ [space])

end Sys2Proof.Machine
end

