-- ==== Sys2Proof/Machine/SdiOps.lean ====
section
/-! DEFINITION. Operations of the SDI ports (chapter 09): the states of receive and transmit lanes, the fault scan, line checks and
ancillary capture, and the checks of its requests. -/

namespace Sys2Proof.Machine

def Chip.sdiLane (c : Chip) (n : Nat) : SdiLane := tget {} c.sdi n
def Chip.setSdiLane (c : Chip) (n : Nat) (x : SdiLane) : Chip := { c with sdi := tput {} c.sdi n x }

/-! ### Receive lanes (R280 to R282) -/

def Chip.rxState (c : Chip) (n : Nat) : Nat := c.rd (SDI_RX_STAT_STATE n)

/-- A receive lane hunts from MAX_CLASS, or is OFF where it is disabled or not powered. -/
def Chip.rxHunt (c : Chip) (n : Nat) : Chip :=
  let cls := c.rd (SDI_RX_CTL_MAX_CLASS n)
  let on := cls != 0 && c.domOn (domSdiRx n)
  let c := ((c.wr (SDI_RX_STAT_STATE n) (b2n on)).wr (SDI_RX_STAT_RATE n) 0).clr (SDI_RX_STAT_LEVEL_B n)
  let c := c.setSdiLane n { c.sdiLane n with trial := if on then cls else 0 }
  let c := (c.wr (FSY_SRC_STAT_DET_FORMAT n) 0).setSrc n { c.src n with struct := 0, same := 0 }
  c.judgeSrc n

/-- The next trial of a hunting lane (R281); a bonded lane tries only 3G. -/
def Chip.huntNext (c : Chip) (n : Nat) : Chip :=
  if c.rxState n ≠ 1 then c
  else
    let k := (c.sdiLane n).trial
    let next := if c.bondedRx n then 3 else if k ≤ 1 then c.rd (SDI_RX_CTL_MAX_CLASS n) else k - 1
    c.setSdiLane n { c.sdiLane n with trial := next }

/-- A hunting lane locks at a rate of the class on trial (R281); an absent carrier of a gated lane holds it in HUNT (R296). -/
def Chip.rxLock (c : Chip) (n rate : Nat) (levelB : Bool) : Chip :=
  if c.rxState n ≠ 1 ∨ rateClass rate ≠ (c.sdiLane n).trial
      ∨ (c.on (SDI_RX_CTL_CARRIER_GATE n) ∧ !(c.on (SDI_RX_STAT_CARRIER n))) then c
  else
    let c := ((c.wr (SDI_RX_STAT_STATE n) 2).wr (SDI_RX_STAT_RATE n) rate).wrB (SDI_RX_STAT_LEVEL_B n) (levelB && rateClass rate == 3)
    let c := (c.inc (SDI_RX_LOCKS_LOCKS n)).set SDI_STATUS_LOCK
    (c.post 0x08 0x0001 n rate).judgeSrc n

/-- A LOCKED lane returns to HUNT (R282). -/
def Chip.rxLos (c : Chip) (n : Nat) : Chip :=
  if c.rxState n ≠ 2 then c
  else
    let c := ((c.inc (SDI_RX_LOCKS_LOS n)).set (SDI_RX_STAT_LOS_SEEN n)).set SDI_STATUS_LOS
    let c := c.post 0x08 0x0002 n (c.rd (SDI_RX_LOCKS_LOS n))
    c.rxHunt n

/-- The Percolator's check of the LOCKED lanes' phase margins (R284). -/
def Chip.cdrMargins (c : Chip) (low : Nat) : Chip :=
  if !c.ready then c
  else c.each ((List.range 48).filter fun n => bit low n && c.rxState n == 2) fun c n =>
    (c.set (SDI_RX_STAT_CDR_MARGIN_LOW n)).set SDI_STATUS_CDR_MARGIN_LOW

/-- A line, or an SD field, is checked (R285, R286): in error, or an SD field without its EDH packet. -/
def Chip.lineCheck (c : Chip) (n : Nat) (error noEdh : Bool) : Chip :=
  let edh := noEdh && c.rd (SDI_RX_STAT_RATE n) == 1
  if c.rxState n ≠ 2 ∨ !(error || edh) then c
  else
    let c := ((c.inc (SDI_RX_CRC_COUNT n)).set (SDI_RX_STAT_CRC_SEEN n)).set SDI_STATUS_CRC
    let c := c.setSrc n { c.src n with errs := (c.src n).errs + 1 }
    c.when edh (·.set (SDI_RX_STAT_EDH_ABSENT n))

/-- The audio groups de-embedded from a lane (R289). -/
def Chip.audGroups (c : Chip) (n : Nat) : Nat :=
  if c.bondedRx n then (if n % 4 = 0 then 0xFF else 0)
  else match rateClass (c.rd (SDI_RX_STAT_RATE n)) with
    | 0 => 0
    | 1 => 0
    | 2 => 0xF
    | _ => 0xFF

/-- The ancillary data of a complete frame (R288, R289): the payload ID, the time code with its kind, and the groups with audio
that is not de-embedded, reported when a group becomes so. -/
def Chip.ancCapture (c : Chip) (n : Nat) (pid : Option Nat) (kind tc badGroups : Nat) : Chip :=
  if c.rxState n ≠ 2 then c
  else
    let c := match pid with
      | some v => (c.put (SDI_RX_PID n) v).set (SDI_RX_STAT_PID_VALID n)
      | none => c.clr (SDI_RX_STAT_PID_VALID n)
    let c := (c.wr (SDI_RX_STAT_TC_KIND n) kind).when (kind != 0) (·.put (SDI_RX_TC n) tc)
    let bad := badGroups &&& c.audGroups n
    let fresh := bad &&& (0xFF ^^^ (c.sdiLane n).unsup)
    let c := c.setSdiLane n { c.sdiLane n with unsup := bad }
    c.when (fresh != 0) fun c =>
      ((c.set (SDI_RX_STAT_AUD_UNSUPPORTED n)).set SDI_STATUS_AUD_UNSUPPORTED).post 0x08 0x0004 n bad

/-! ### Transmit lanes (R293, R294) -/

/-- The state a transmit lane is to have: OFF where nothing was routed since reset or its domain is not ACTIVE, MUTED, or RUNNING. -/
def Chip.txWant (c : Chip) (n : Nat) : Nat :=
  if (c.dst n).present = 0 ∨ !(c.domOn (domSdiTx n)) then 0 else if (c.sdiLane n).muted then 2 else 1

/-- The rate code of a lane's destination: that of its format, of one link of a bonded group as long as it carries a quad (R291, R293). -/
def Chip.laneRate (c : Chip) (n : Nat) : Nat := rateCode (c.dst n).present (c.dst n).quad

/-- A lane's MUTE = 0 acts at the next output frame start (R294). -/
def Chip.unmutes (c : Chip) (n : Nat) : Bool := (c.sdiLane n).muted && !(c.on (SDI_TX_CTL_MUTE n))

/-- The first output frame start of a lane after now (R166); none while its plane has no frame boundaries. -/
def Chip.nextFrame (c : Chip) (n : Nat) : Option Nat :=
  let q := c.dstPlane n
  let f := fmt (c.dst n).present
  let odd := f.period == 2 * c.planePeriod q && c.epochNow q % 2 == 1
  let first := (c.plane q).nextB + (if odd then c.planePeriod q else 0) + c.outDelay n (c.dst n).present
  if c.planeState q < 2 ∨ f.period = 0 then none else some (c.now + 1 + (first + 4 * f.period - c.now - 1) % f.period)

/-- What waits for an output frame start has its instant. -/
def Chip.txPlan (c : Chip) (n : Nat) : Chip :=
  let x := c.sdiLane n
  if x.frameAt.isNone && (c.rd (SDI_TX_STAT_STATE n) != c.txWant n || c.unmutes n) then c.setSdiLane n { x with frameAt := c.nextFrame n } else c

/-- The state and rate of a transmit lane follow its destination, its domain and its muting between frame starts: it stops at once, and it starts only
at an output frame start (R177, R294, R300). -/
def Chip.txRefresh (c : Chip) (n : Nat) : Chip :=
  let want := c.txWant n
  let was := c.rd (SDI_TX_STAT_STATE n)
  let st := if want = 1 ∧ was ≠ 1 then (if was = 2 then 2 else 0) else want
  ((c.wr (SDI_TX_STAT_STATE n) st).wr (SDI_TX_STAT_RATE n) (if st = 0 then 0 else c.laneRate n)).txPlan n

/-- An output frame starts on a lane: MUTE = 0 acts, and a transmitter that is to run runs (R177, R294, R300). -/
def Chip.txFrame (c : Chip) (n : Nat) : Chip :=
  let x := c.sdiLane n
  let c := c.setSdiLane n { x with muted := x.muted && c.on (SDI_TX_CTL_MUTE n), frameAt := none }
  let st := c.txWant n
  (c.wr (SDI_TX_STAT_STATE n) st).wr (SDI_TX_STAT_RATE n) (if st = 0 then 0 else c.laneRate n)

/-- The LNR of a transmit lane: its class L fields return to default, and it restarts at the next output frame start (R300, R302). -/
def Chip.txLnr (c : Chip) (n : Nat) : Chip :=
  (((c.wr (SDI_TX_STAT_STATE n) 0).wr (SDI_TX_STAT_RATE n) 0).set SDI_STATUS_DEFAULTS_RESTORED).txPlan n

/-- A transmitter is off until the second output frame start from now (R629). -/
def Chip.txPause (c : Chip) (n : Nat) : Chip :=
  let c := (c.wr (SDI_TX_STAT_STATE n) 0).wr (SDI_TX_STAT_RATE n) 0
  c.setSdiLane n { c.sdiLane n with frameAt := (c.nextFrame n).map (· + (fmt (c.dst n).present).period) }

/-- The first EAV of a lane's output after now: one ends each line of the output, counted from its frame start (R166). -/
def Chip.nextEav (c : Chip) (n : Nat) : Nat :=
  let line := max 1 ((fmt (c.dst n).present).period / max 1 (fmt (c.dst n).present).lines)
  match c.nextFrame n with
  | some t => t - (t - c.now - 1) / line * line
  | none => c.now

/-- The EAV comes at which MUTE = 1 and AMPLITUDE act. -/
def Chip.txEav (c : Chip) (n : Nat) : Chip :=
  let x := c.sdiLane n
  (c.setSdiLane n { x with muted := x.muted || c.on (SDI_TX_CTL_MUTE n), amp := c.rd (SDI_TX_CTL_AMPLITUDE n), eavAt := none }).txRefresh n

/-- An instant that a lane waits for has come. -/
def dueBy (now : Nat) (t : Option Nat) : Bool := match t with | some t => decide (t ≤ now) | none => false

/-- The output frame starts and EAVs that have come by now. -/
def Chip.txDue (c : Chip) : Chip :=
  let c := c.each ((c.sdi.filter fun e => dueBy c.now e.2.frameAt).map Prod.fst) Chip.txFrame
  c.each ((c.sdi.filter fun e => dueBy c.now e.2.eavAt).map Prod.fst) Chip.txEav

/-! ### Fault scan (R73, R295, R296) -/

/-- An output code that two scan frames have read (R295). -/
def Chip.faultCode (c : Chip) (n code : Nat) : Chip :=
  if c.rd (SDI_TX_STAT_FAULT n) = code then c
  else
    let c := c.wr (SDI_TX_STAT_FAULT n) code
    match code with
    | 1 => ((c.set (SDI_TX_STAT_OPEN_SEEN n)).set SDI_STATUS_TX_FAULT).post 0x08 0x0003 n 1
    | 2 => ((c.set (SDI_TX_STAT_SHORT_SEEN n)).set SDI_STATUS_TX_FAULT).post 0x08 0x0003 n 2
    | 3 => (c.set (SDI_TX_STAT_NO_REPORT_SEEN n)).set SDI_STATUS_NO_REPORT
    | _ => c

/-- A carrier bit that two scan frames have read (R296). -/
def Chip.carrierBit (c : Chip) (n : Nat) (present : Bool) : Chip :=
  let c := c.wrB (SDI_RX_STAT_CARRIER n) present
  if !present && c.on (SDI_RX_CTL_CARRIER_GATE n) then c.rxLos n else c

/-- A scan frame ends (R73): what two frames in a row agree on is acted on. Scanning begins after the straps are sampled, and a part whose role
is spine does not scan. -/
def Chip.scanFrame (c : Chip) (v : Nat) : Chip :=
  if c.role = 2 ∨ c.pwr.strapDue then c else
  let old := c.pwr.scan
  let was := c.pwr.scans
  let c := { c with pwr := { c.pwr with scan := v, scans := min 2 (was + 1) } }
  if was = 0 then c
  else
    let c := c.each ((List.range 48).filter fun n => bits old (2 * n) 2 == bits v (2 * n) 2) fun c n => c.faultCode n (bits v (2 * n) 2)
    c.each ((List.range 48).filter fun n => bit old (96 + n) == bit v (96 + n)) fun c n => c.carrierBit n (!(bit v (96 + n)))

/-! ### Changes and requests -/

/-- The receive settings of a lane take effect (R297), on the members of a bonded group with their lead, whose aligner settings the group has
(R200, R215). Of an entry for a member of a bonded group, which only a journal can hold, the group leaves the carrier gate (R291). -/
def Chip.applySdiRx (c : Chip) (n w : Nat) : Chip :=
  if n % 4 ≠ 0 ∧ c.bondedRx n then
    let c := c.wr (SDI_RX_CTL_CARRIER_GATE n) (bits w 10 1)
    if bit w 10 && !(c.on (SDI_RX_STAT_CARRIER n)) then c.rxLos n else c
  else
  let old := c.get (SDI_RX_CTL n)
  let c := c.put (SDI_RX_CTL n) (bits w 6 3 + bits w 9 1 * 8 + bits w 10 1 * 16)
  let lanes := if bit w 9 || bit old 3 then (List.range 4).map (n + ·) else [n]
  let c := c.each lanes fun c i =>
    let c := c.when (bit w 9) fun c => ((((c.wr (SDI_RX_CTL_MAX_CLASS i) 3).wr (FSY_SRC_CTL_ALLOW_FS i) (c.rd (FSY_SRC_CTL_ALLOW_FS n))).wr
      (FSY_SRC_CTL_FORMAT i) (c.rd (FSY_SRC_CTL_FORMAT n)))).wr (FSY_SRC_CTL_PLANE i) (c.rd (FSY_SRC_CTL_PLANE n))
    (c.wr (FSY_SRC_CTL_QUAD i) (bits w 9 1)).followClass i
  if bits old 0 4 = bits (c.get (SDI_RX_CTL n)) 0 4 then
    if bit w 10 && !(c.on (SDI_RX_STAT_CARRIER n)) then c.rxLos n else c
  else c.each lanes fun c i => c.rxHunt i

/-- The transmit settings of a lane take effect (R294, R297): MUTE = 1 and AMPLITUDE at the next EAV of a running transmitter, MUTE = 0 at the next
frame start; at a lane that sends nothing there is no EAV to wait for. -/
def Chip.applySdiTx (c : Chip) (n w : Nat) : Chip :=
  let c := c.put (SDI_TX_CTL n) (bits w 11 4 + bits w 10 1 * 16 + bits w 9 1 * 32 + bits w 15 2 * 64)
  if c.rd (SDI_TX_STAT_STATE n) = 0 then c.txEav n
  else (c.setSdiLane n { c.sdiLane n with eavAt := some (c.nextEav n) }).txPlan n

/-- A source is routed, tapped or in the take queue, with a route or a layer (R298). -/
def Chip.srcUsed (c : Chip) (s : Nat) : Bool := !(c.destsOf s).isEmpty || c.tapped s || c.srcQueued s

/-- A destination is routed or in the take queue. -/
def Chip.dstUsed (c : Chip) (d : Nat) : Bool := c.on (XPT_DST_CTL_ROUTED d) || c.waits .route d

/-- The lead of an entry's group is bonded once the entries have taken effect. -/
def leadBonds (ws : List Nat) (n : Nat) (now : Bool) : Bool :=
  match ws.find? fun w => bits w 0 6 == n / 4 * 4 with
  | some w => bit w 9
  | none => now

/-- The checks of receive settings (R297, R298). -/
def chkSdiRx (x : Ctx) (r : Req) : Check :=
  let n := r.w 0
  let ws := r.ws 1 n
  let ln := fun w => bits w 0 6
  let args := fun w => ln w < 48 && bits w 11 21 == 0 && bits w 6 3 ≤ 5
  let bond := fun w => (!(bit w 9) || (ln w % 4 == 0 && bits w 6 3 == 3))
    && (ln w % 4 == 0 || !(leadBonds ws (ln w) (x.c.bondedRx (ln w))))
  let group := fun w => if bit w 9 || x.c.on (SDI_RX_CTL_BOND (ln w)) then (List.range 4).map (ln w / 4 * 4 + ·) else [ln w]
  let denied := fun w => (bits w 6 4) != bits (x.c.get (SDI_RX_CTL (ln w))) 0 4 && (group w).any x.c.srcUsed
  require (r.lenIs (n + 1)) stBadLength <|
  require (x.c.role != 2 && r.epoch == 0 && 1 ≤ n && n ≤ 48 && nodup (ws.map ln) && ws.all args) stBadArg <|
  require (ws.all bond) stBadArg <|
  require (ws.all fun w => !(denied w)) stDenied <|
  nowPlan (ws.map fun w => ⟨.sdiRx, ln w, [w]⟩)

/-- The checks of transmit settings (R297, R298). -/
def chkSdiTx (x : Ctx) (r : Req) : Check :=
  let n := r.w 0
  let ws := r.ws 1 n
  let ln := fun w => bits w 0 6
  let args := fun w => ln w < 48 && bits w 17 15 == 0 && bits w 6 3 == 0 && bits w 11 4 ≤ 8 && bits w 15 2 != 3
  let bond := fun w => (!(bit w 9) || ln w % 4 == 0) && (ln w % 4 == 0 || !(leadBonds ws (ln w) (x.c.bondedTx (ln w))))
  let denied := fun w => bits w 9 1 != x.c.rd (SDI_TX_CTL_BOND (ln w)) && (List.range 4).any fun i => x.c.dstUsed (ln w / 4 * 4 + i)
  require (r.lenIs (n + 1)) stBadLength <|
  require (x.c.role != 2 && r.epoch == 0 && 1 ≤ n && n ≤ 48 && nodup (ws.map ln) && ws.all args) stBadArg <|
  require (ws.all bond) stBadArg <|
  require (ws.all fun w => !(denied w)) stDenied <|
  nowPlan (ws.map fun w => ⟨.sdiTx, ln w, [w]⟩)

/-- SDI_GET_STATUS (R299). -/
def chkSdiStatus (x : Ctx) (r : Req) : Check :=
  let k := r.w 0
  let n := r.w 1
  let c := x.c
  require (r.lenIs 2) stBadLength <|
  require (1 ≤ n && n ≤ 48 && k + n ≤ 48) stBadArg <|
  okPlan ([c.get SDI_STATUS] ++ (List.range n).flatMap fun i =>
    [c.get (SDI_RX_STAT (k + i)), c.get (SDI_RX_CRC (k + i)), c.get (SDI_RX_LOCKS (k + i)), c.get (SDI_RX_PID (k + i)),
     c.get (SDI_RX_TC (k + i)), c.get (SDI_TX_STAT (k + i))])

end Sys2Proof.Machine
end

