-- ==== Sys2Proof/Machine/FabOps.lean ====
section
/-! DEFINITION. Operations of the fabric lanes (chapter 10), which the twin lanes share: training, re-trimming, loopbacks, power
states. A lane index of 48 or 49 is twin lane 0 or 1 (R552). -/

namespace Sys2Proof.Machine

/-- The registers of a lane, of the FAB block or the TWN block; the field layouts are the same (R586). -/
def lnCfg (n : Nat) : Reg := if n < 48 then FAB_LN_CFG n else TWN_LN_CFG (n - 48)
def lnStat (n : Nat) : Reg := if n < 48 then FAB_LN_STAT n else TWN_LN_STAT (n - 48)
def lnEq (n : Nat) : Reg := if n < 48 then FAB_LN_EQ n else TWN_LN_EQ (n - 48)
def lnEye (n : Nat) : Reg := if n < 48 then FAB_LN_EYE n else TWN_LN_EYE (n - 48)
def lnErr (n : Nat) : Reg := if n < 48 then FAB_LN_ERR n else TWN_LN_ERR (n - 48)
def lnTrain (n : Nat) : Reg := if n < 48 then FAB_LN_TRAIN n else TWN_LN_TRAIN (n - 48)

def lnState (n : Nat) : Fld := (lnStat n).fld 0 4
def lnPolInv (n : Nat) : Fld := (lnStat n).fld 4 1
def lnSignal (n : Nat) : Fld := (lnStat n).fld 5 1
def lnAccepted (n : Nat) : Fld := (lnStat n).fld 6 1
def lnPeak (n : Nat) : Fld := (lnEq n).fld 0 4
def lnGain (n : Nat) : Fld := (lnEq n).fld 4 2

/-- The state codes of R310. -/
def lnOff : Nat := 0
def lnDoze : Nat := 1
def lnNoSignal : Nat := 2
def lnAcquire : Nat := 3
def lnVerify : Nat := 4
def lnSweep : Nat := 5
def lnTrained : Nat := 6
def lnFailed : Nat := 7
def lnTest : Nat := 8

def Chip.lane (c : Chip) (n : Nat) : FabLane := tget {} c.lanes n
def Chip.setLane (c : Chip) (n : Nat) (x : FabLane) : Chip := { c with lanes := tput {} c.lanes n x }
def Chip.lnSt (c : Chip) (n : Nat) : Nat := c.rd (lnState n)

/-- The power domains of a lane's receive and transmit directions. -/
def lnRxDom (n : Nat) : Nat := if n < 48 then domFabRx n else domTwnRx (n - 48)
def lnTxDom (n : Nat) : Nat := if n < 48 then domFabTx n else domTwnTx (n - 48)

/-- A summary flag of FAB_LN_SUMMARY; for a twin lane, LANE_FAILED of the TWN block where it lost lock or failed. -/
def Chip.lnSummary (c : Chip) (n i : Nat) : Chip :=
  if n < 48 then c.set (FAB_LN_SUMMARY.fld i 1) else if i ≤ 1 then c.set TWN_STATUS_LANE_FAILED else c

/-- A lane event of block 0x09; the twin lanes post none of their own (log entry 14). -/
def Chip.lnPost (c : Chip) (n code arg : Nat) : Chip := if n < 48 then c.post 0x09 code n arg else c

/-- The lane's markers no longer count: it is not usable until one passes again (R345). -/
def Chip.lnForget (c : Chip) (n : Nat) : Chip :=
  c.setLane n { c.lane n with seen := false, bad := false, skewed := false, set_ := none }

/-! ### Symbols (R303, R304) -/

/-- The symbol value of a pair of bits, the first the more significant; the pair of a symbol value; and the line level of a value. -/
def gray (pair : Nat) : Nat := [0, 1, 3, 2].getD pair 0
def ungray (g : Nat) : Nat := [0, 1, 3, 2].getD g 0
def lineLevel (p : Nat) : Int := 2 * p - 3

/-- The 320 symbol values of a block, in the order they are sent. -/
def symbols (b : Nat) : List Nat := (List.range 320).map fun i => gray (bits b (638 - 2 * i) 2)

/-- The precoder: the level of a symbol value after the level before it; and the decoder. -/
def precode (last g : Nat) : Nat := (g + 4 - last) % 4
def decodeSym (last p : Nat) : Nat := (p + last) % 4

/-- The levels sent for symbol values, from the level before them. -/
def precodeAll : Nat → List Nat → List Nat
  | _, [] => []
  | last, g :: gs => precode last g :: precodeAll (precode last g) gs

/-- The symbol values recovered from levels, from the level before them. -/
def decodeAll : Nat → List Nat → List Nat
  | _, [] => []
  | last, p :: ps => decodeSym last p :: decodeAll p ps

/-- A symbol value as a reversed pair gives it: every level k becomes 3 − k, so every value g becomes (2 − g) mod 4 (R305). -/
def reversed (g : Nat) : Nat := (6 - g) % 4

/-- The level after the levels of a block. -/
def levelAfter (last b : Nat) : Nat := (precodeAll last (symbols b)).getLast?.getD last

/-- A block has been received: the decoder goes on from its last level, and its first symbol has been discarded. -/
def Chip.lnHeard (c : Chip) (n b : Nat) : Chip :=
  c.setLane n { c.lane n with rxLevel := levelAfter (c.lane n).rxLevel b, rxFresh := false }

/-- The LNR of a receive direction (R20, R21, R107): its class L fields return to default, its inversion is sought anew (R305),
its trial state is discarded (R323), and the level before its next symbol is 0 (R304). -/
def Chip.lnLnr (c : Chip) (n : Nat) : Chip :=
  let c := ((c.clr (lnPolInv n)).wr ((lnEq n).fld 8 4) 0).put (lnEye n) 0
  let c := (c.put (lnErr n) 0).when (n < 48) (·.clr (FAB_LN_TEST_CHK_SYNC n))
  let c := c.set (if n < 48 then FAB_STATUS_DEFAULTS_RESTORED else TWN_STATUS_DEFAULTS_RESTORED)
  (c.setLane n { c.lane n with step := none, stepAt := none, polKnown := false, rxLevel := 0, rxFresh := true }).lnForget n

/-- The LNR of a transmit direction: no field of it is of class L; the level before its next symbol is 0 (R304). -/
def Chip.lnTxLnr (c : Chip) (n : Nat) : Chip :=
  (c.setLane n { c.lane n with txLevel := 0 }).set (if n < 48 then FAB_STATUS_DEFAULTS_RESTORED else TWN_STATUS_DEFAULTS_RESTORED)

/-- Training starts (R313): an LNR but for leaving NO_SIGNAL; it verifies the accepted setting or sweeps. -/
def Chip.lnTrainStart (c : Chip) (n : Nat) (lnr : Bool) : Chip :=
  let c := (c.when lnr (·.lnLnr n)).inc ((lnTrain n).fld 0 16)
  let c := (c.setLane n { c.lane n with step := none, stepAt := none, stopped := false, retryDue := false }).lnForget n
  c.wr (lnState n) (if c.on (lnAccepted n) then lnAcquire else lnSweep)

/-- The lane becomes TRAINED with the eye height found, and posts its setting (R314, R315, R318, R335). -/
def Chip.lnTrainedNow (c : Chip) (n height : Nat) : Chip :=
  (((c.wr (lnState n) lnTrained).wr ((lnTrain n).fld 16 8) 0).wr ((lnEye n).fld 0 8) height).lnPost n 0x0003
    (c.rd (lnPeak n) + c.rd (lnGain n) * 2 ^ 8)

/-- Polarity found in acquisition (R305): as found it stays until the next LNR. -/
def Chip.lnPolarity (c : Chip) (n : Nat) (inv : Bool) : Chip :=
  if (c.lane n).polKnown then c
  else
    let c := (c.setLane n { c.lane n with polKnown := true }).wrB (lnPolInv n) inv
    c.when inv fun c => (c.set ((lnStat n).fld 21 1)).lnSummary n 5

/-- The POLARITY pattern of a marker (R341), and the form a reversed pair gives it. -/
def polarity : Nat := 0x1E4BD2876C39A5F0
def polarityReversed : Nat := (List.range 32).foldl (fun a i => a * 4 + ungray (reversed (gray (bits polarity (62 - 2 * i) 2)))) 0

/-- A block reaches a lane whose acquisition seeks the pattern of the alignment marker (R305, R314): found in either form it gives the polarity, and
a lane in ACQUIRE goes on to VERIFY. -/
def Chip.lnSeek (c : Chip) (n b : Nat) : Chip :=
  let st := c.lnSt n
  let pat := bits b 560 64
  if (st = lnAcquire ∨ st = lnSweep) ∧ (pat = polarity ∨ pat = polarityReversed) then
    (c.lnPolarity n (pat == polarityReversed)).when (st == lnAcquire) (·.wr (lnState n) lnVerify)
  else c

/-- A block on a lane: a TRAINED lane decodes it, and an alignment marker ends the search of one in acquisition. -/
def Chip.lnIn (c : Chip) (n b : Nat) (marker : Bool) : Chip :=
  if c.lnSt n = lnTrained then c.lnHeard n b else c.when marker (·.lnSeek n b)

/-- Verification of the accepted setting ends (R314), with what each of its steps found. -/
def Chip.lnVerifyDone (c : Chip) (n : Nat) (cdr block crc polInv : Bool) (height : Nat) : Chip :=
  if c.lnSt n ≠ lnAcquire ∧ c.lnSt n ≠ lnVerify then c
  else
    let c := c.when (cdr && block) fun c => (c.set (lnSignal n)).lnPolarity n polInv
    if cdr && block && crc && 2 * c.rd ((lnCfg n).fld 11 6) ≤ height then c.lnTrainedNow n height
    else ((c.set ((lnStat n).fld 18 1)).lnSummary n 2).wr (lnState n) lnSweep

/-- The candidates of a sweep in the order of R315: descending height, then lower PEAK, then lower GAIN. A setting is
GAIN × 16 + PEAK. -/
def candidates (heights : List Nat) (least : Nat) : List Nat :=
  let ok := (List.range 64).filter fun i => least ≤ heights.getD i 0
  sortBy (fun i => (255 - heights.getD i 0) * 64 + i % 16 * 4 + i / 16) ok

/-- The lane becomes FAILED (R317). -/
def Chip.lnFail (c : Chip) (n : Nat) : Chip :=
  let c := ((c.wr (lnState n) lnFailed).set ((lnStat n).fld 17 1)).inc ((lnTrain n).fld 24 8)
  (c.lnSummary n 1).lnPost n 0x0001 (c.rd ((lnTrain n).fld 16 8))

/-- The sweep ends (R315 to R317): the eye height of every setting, and whether its candidate test found no error. -/
def Chip.lnSweepDone (c : Chip) (n : Nat) (heights : List Nat) (clean : List Bool) (polInv : Bool) : Chip :=
  if c.lnSt n ≠ lnSweep then c
  else
    match (candidates heights (2 * c.rd ((lnCfg n).fld 11 6))).find? fun i => clean.getD i false with
    | none => c.lnFail n
    | some i =>
      let c := ((c.wr (lnPeak n) (i % 16)).wr (lnGain n) (i / 16)).set (lnAccepted n)
      ((c.set (lnSignal n)).lnPolarity n polInv).lnTrainedNow n (heights.getD i 0)

/-- The signal of a lane is lost (R312, R336). -/
def Chip.lnSignalLost (c : Chip) (n : Nat) : Chip :=
  let c := c.clr (lnSignal n)
  if 3 ≤ c.lnSt n ∧ c.lnSt n ≤ 6 then
    (c.setLane n { c.lane n with step := none }).lnForget n |>.wr (lnState n) lnNoSignal
  else c

/-- A signal is present on a lane (R336); one in NO_SIGNAL trains (R312). -/
def Chip.lnSignalPresent (c : Chip) (n : Nat) : Chip :=
  let c := c.wrB (lnSignal n) (c.lnSt n != lnOff)
  if c.lnSt n = lnNoSignal then c.lnTrainStart n false else c

/-- The retry of a FAILED lane (R318); deferred while the direction is in DOZE or OFF (R333). -/
def Chip.lnRetry (c : Chip) (n : Nat) : Chip :=
  if c.lnSt n = lnFailed then (c.inc ((lnTrain n).fld 16 8)).lnTrainStart n true
  else if (c.lnSt n = lnDoze ∨ c.lnSt n = lnOff) ∧ (c.lane n).before = lnFailed then c.setLane n { c.lane n with retryDue := true }
  else c

/-- A TRAINED lane loses lock (R311). -/
def Chip.lnLockLost (c : Chip) (n : Nat) : Chip :=
  if c.lnSt n ≠ lnTrained then c
  else (((c.set ((lnStat n).fld 16 1)).lnSummary n 0).lnPost n 0x0004 0).lnTrainStart n true

/-! ### Percolator (R319 to R323) -/

/-- A Percolator visit: height and width at the accepted setting, and of the neighbours below and above the height and whether
their blocks showed a CRC error. -/
def Chip.lnVisit (c : Chip) (n height width below above : Nat) (belowErr aboveErr : Bool) : Chip :=
  if c.lnSt n ≠ lnTrained ∨ !(c.on ((lnCfg n).fld 22 1)) ∨ !c.ready then c
  else
    let pk := c.rd (lnPeak n)
    let c := (c.wr ((lnEye n).fld 0 8) height).wr ((lnEye n).fld 8 8) width
    let c := c.when (0 < pk) fun c => (c.wr ((lnEq n).fld 8 4) (pk - 1)).wr ((lnEye n).fld 16 8) below
    let c := c.when (pk < 15) fun c => (c.wr ((lnEq n).fld 8 4) (pk + 1)).wr ((lnEye n).fld 16 8) above
    let lo := 0 < pk && height + 4 ≤ below && !belowErr
    let hi := pk < 15 && height + 4 ≤ above && !aboveErr
    let step := if lo && (!hi || above ≤ below) then some (pk - 1) else if hi then some (pk + 1) else none
    let c := c.when (!(c.lane n).stopped) fun c => c.setLane n { c.lane n with step := step }
    c.when (height < 2 * c.rd ((lnCfg n).fld 11 6)) fun c =>
      ((c.set ((lnStat n).fld 19 1)).lnSummary n 3).lnPost n 0x0005 height

/-- A step is taken at an alignment marker (R320); one due on a lane that left TRAINED, or whose Percolator stopped, is
discarded (R323). -/
def Chip.lnStep (c : Chip) (n : Nat) : Chip :=
  match (c.lane n).step with
  | none => c
  | some pk =>
    let c := c.setLane n { c.lane n with step := none }
    if c.lnSt n ≠ lnTrained ∨ !(c.on ((lnCfg n).fld 22 1)) ∨ !c.ready then c
    else ((c.wr (lnPeak n) pk).inc ((lnEq n).fld 16 8)).setLane n { c.lane n with stepAt := some c.now }

/-- A step is being taken in the marker now received: the receiver does not check that marker (R320). -/
def Chip.lnStepping (c : Chip) (n : Nat) : Bool := (c.lane n).stepAt == some c.now

/-- A marker or block whose CRC does not match (R337). -/
def Chip.lnCrcErr (c : Chip) (n : Nat) : Chip := c.inc ((lnErr n).fld 0 32)

/-- 2^20 block periods of 640 bits at 53.125 Gb/s, in units of 1/3 ns. -/
def postWindow : Nat := 2 ^ 20 * 640 * 3 * 8 / 425

/-- A CRC error on the main path within 2^20 blocks after a step (R321). -/
def Chip.lnPostErr (c : Chip) (n : Nat) : Chip :=
  match (c.lane n).stepAt with
  | none => c
  | some t =>
    if t + postWindow < c.now then c
    else
      let c := c.setLane n { c.lane n with stepAt := none, step := none, stopped := true }
      ((c.set ((lnStat n).fld 20 1)).lnSummary n 4).lnPost n 0x0006 (c.rd (lnPeak n))

/-! ### Loopbacks and test patterns (R326 to R329) -/

/-- The pattern checker locks or loses lock, with the bit errors and the units of 2^20 bits it checked while locked (R329). -/
def Chip.lnChecker (c : Chip) (n : Nat) (locked : Bool) (errs units : Nat) : Chip :=
  if c.rd (FAB_LN_TEST_CHK_PATTERN n) = 0 then c
  else
    let c := c.when (c.on (FAB_LN_TEST_CHK_SYNC n)) fun c => (c.add (FAB_LN_BERR_COUNT n) errs).add (FAB_LN_BCOUNT_COUNT n) units
    c.wrB (FAB_LN_TEST_CHK_SYNC n) locked

/-- A loopback request takes effect (R327, R328). -/
def Chip.applyLoop (c : Chip) (n w : Nat) : Chip :=
  let mode := bits w 6 2
  let tx := bits w 8 4
  let chk := bits w 12 4
  let c := ((c.wr (FAB_LN_TEST_MODE n) mode).wr (FAB_LN_TEST_TX_PATTERN n) tx).wr (FAB_LN_TEST_CHK_PATTERN n) chk
  let c := c.when (bit w 16) fun c => (c.put (FAB_LN_BERR n) 0).put (FAB_LN_BCOUNT n) 0
  if mode != 0 || chk != 0 then ((c.wr (lnState n) lnTest).clr (FAB_LN_TEST_CHK_SYNC n)).lnForget n
  else if c.lnSt n = lnTest then (c.clr (FAB_LN_TEST_CHK_SYNC n)).lnTrainStart n true
  else c

/-! ### Power states (R330 to R332) -/

/-- A receive direction enters DOZE or OFF: a step in progress is abandoned (R333). -/
def Chip.lnSleep (c : Chip) (n st : Nat) : Chip :=
  let was := c.lnSt n
  let c := c.when (st == stOff) fun c => (c.lnForget n).clr (lnSignal n)
  let c := c.setLane n { c.lane n with before := if was ≤ 1 then (c.lane n).before else was, step := none }
  c.wr (lnState n) (if st = stOff then lnOff else lnDoze)

/-- A receive direction leaves OFF (R99, R107, R313, R332): an LNR, and training where it becomes ACTIVE; one that enters DOZE trains when it wakes. A
retry that fell due is counted with that training (R333). -/
def Chip.lnLeaveOff (c : Chip) (n : Nat) (active : Bool) : Chip :=
  if active then (c.when (c.lane n).retryDue (·.inc ((lnTrain n).fld 16 8))).lnTrainStart n true
  else
    let c := c.lnLnr n
    (c.setLane n { c.lane n with before := lnOff }).wr (lnState n) lnDoze

/-- A receive direction returns from DOZE to the state it left; with lock lost, a step abandoned or a retry due it trains. -/
def Chip.lnWake (c : Chip) (n : Nat) (lostLock : Bool) : Chip :=
  let x := c.lane n
  if c.lnSt n ≠ lnDoze then c
  else if x.retryDue then (c.inc ((lnTrain n).fld 16 8)).lnTrainStart n true
  else if x.before = lnNoSignal ∨ x.before = lnFailed ∨ x.before = lnTest ∨ (x.before = lnTrained ∧ !lostLock) then
    c.wr (lnState n) x.before
  else c.lnTrainStart n true

/-- The words of a lane's settings (R324) as FAB_LN_CFG holds them. -/
def laneCfgWord (w : Nat) : Nat := bits w 6 23

/-- The lane settings take effect (R325); PERC_EN written 0 discards a trial (R323). -/
def Chip.applyLane (c : Chip) (n w : Nat) : Chip :=
  let c := c.put (lnCfg n) (laneCfgWord w)
  c.when (!(bit w 28)) fun c => c.setLane n { c.lane n with step := none }

/-- A lane word is within R325's arguments. -/
def laneWordOk (w lane : Nat) : Bool :=
  bits w 0 6 == lane && bits w 6 4 ≤ 10 && 2 ≤ bits w 17 6 && bits w 23 5 != 0 && bits w 29 3 == 0

end Sys2Proof.Machine
end

