-- ==== Sys2Proof/Machine/LinkOps.lean ====
section
/-! DEFINITION. Operations of the Kloar links (chapter 11): blocks and markers, forming, narrowing and widening, slots, the plane
merge, and the checks of the requests of the FAB block. -/

namespace Sys2Proof.Machine

/-! ### Blocks (R337, R338, R341, R342) -/

/-- CRC-16, polynomial 0x8BB7, initial value 0, over the `n` bits of `v`, most significant first. -/
def crc16 (n v : Nat) : Nat :=
  (List.range n).foldl (fun r i =>
    let r2 := r * 2 % 2 ^ 16
    if bit r 15 != bit v (n - 1 - i) then r2 ^^^ 0x8BB7 else r2) 0

/-- The CRC of a block matches. -/
def blockOk (b : Nat) : Bool := crc16 624 (b / 2 ^ 16) == b % 2 ^ 16

/-- TYPE of a block: 0 data, 1 status, 2 alignment marker, 3 reform marker. -/
def blockType (b : Nat) : Nat := bits b 638 2

/-- Payload bits `lo .. lo + w - 1` of a block. -/
def payloadBits (b lo w : Nat) : Nat := bits b (16 + lo) w

/-- The fields of a marker (R341). -/
def mkCount (b : Nat) : Nat := payloadBits b 528 16
def mkDevice (b : Nat) : Nat := payloadBits b 504 24
def mkLink (b : Nat) : Nat := payloadBits b 498 6
def mkLlane (b : Nat) : Nat := payloadBits b 496 2
def mkCfgWidth (b : Nat) : Nat := payloadBits b 494 2
def mkInUse (b : Nat) : Nat := payloadBits b 488 4
def mkSlots (b : Nat) : Nat := payloadBits b 472 16
def mkRxUp (b : Nat) : Nat := payloadBits b 468 4
def mkPlane (b : Nat) : Nat := payloadBits b 467 1
def mkRole (b : Nat) : Nat := payloadBits b 465 2
def mkUnit (b : Nat) : Nat := payloadBits b 464 1

/-! ### Links (R343, R345) -/

/-- The lanes of a width code. -/
def widthOf (code : Nat) : Nat := [0, 1, 2, 4].getD code 0

/-- The code of a width. -/
def widthCode (w : Nat) : Nat := if w = 4 then 3 else w

def Chip.link (c : Chip) (l : Nat) : Link := tget {} c.links l
def Chip.setLink (c : Chip) (l : Nat) (x : Link) : Chip := { c with links := tput {} c.links l x }
def Chip.linkWidth (c : Chip) (l : Nat) : Nat := widthOf (c.rd (FAB_LK_CFG_WIDTH l))

/-- The link a lane belongs to. -/
def Chip.linkOf (c : Chip) (n : Nat) : Option Nat :=
  ((List.range 4).map fun i => n - i).find? fun l => decide (l ≤ n) && decide (n < l + c.linkWidth l)

/-- The lanes of a link. -/
def Chip.linkLanes (c : Chip) (l : Nat) : List Nat := (List.range (c.linkWidth l)).map (l + ·)

/-- A receive lane is usable (R345). -/
def Chip.lnUsable (c : Chip) (n : Nat) : Bool :=
  let x := c.lane n
  c.lnSt n == lnTrained && x.seen && !x.bad && !x.skewed

/-- The plane of a link: 0 A, 1 B (R343). -/
def Chip.linkPlane (c : Chip) (l : Nat) : Nat := if c.role = 1 then (if l < 24 then 0 else 1) else c.rd FAB_CFG_SPINE_PLANE

/-- The mask of the usable lanes of a link, by LLANE. -/
def Chip.rxUp (c : Chip) (l : Nat) : Nat :=
  ((c.linkLanes l).filter c.lnUsable).foldl (fun m n => m ||| 2 ^ (c.lane n).llane) 0

/-- A FAB index as a source or destination: in leaf role the two planes are one (R159). -/
def Chip.fabIdx (c : Chip) (s : Nat) : Nat := if c.role = 1 then s % 96 else s

/-- The presence of the slots of a link follows its receive direction (R356, R359); the sources of slots that changed are
judged. -/
def Chip.linkSlots (c : Chip) (l : Nat) : Chip :=
  let x := c.link l
  c.each (List.range (4 * c.linkWidth l)) fun c s =>
    let i := 4 * l + s
    let now := x.rx == .up && bit x.rxMask s
    let was := c.on (FAB_SLOT_STAT_RX_PRESENT i)
    if now == was then c
    else
      let c := (c.wrB (FAB_SLOT_STAT_RX_PRESENT i) now).when was (·.set (FAB_SLOT_STAT_RX_LOST_SEEN i))
      let m := c.fabIdx i
      let c := c.when (was && c.role == 1 && c.slotLost m) (·.set FAB_STATUS_BOTH_LOST)
      c.judgeSrc (48 + m)

/-- The live fields of FAB_LK_STAT, and LINK_UP where both directions have come up (R348). -/
def Chip.linkShow (c : Chip) (l : Nat) : Chip :=
  if c.linkWidth l = 0 then c.wr (FAB_LK_STAT_STATE l) 0
  else
    let x := c.link l
    let up := c.rxUp l
    let c := (c.wr (FAB_LK_STAT_RX_UP l) up).wrB (FAB_LK_STAT_REMAPPED l)
      ((c.linkLanes l).any fun n => c.lnUsable n && (c.lane n).llane != n - l)
    let c := c.wr (FAB_LK_STAT_RX_WIDTH l) (if x.rx = .up then widthCode (bitCount x.rxUse) else 0)
    let c := c.wr (FAB_LK_STAT_TX_WIDTH l) (if x.tx = .up then widthCode (bitCount x.txUse) else 0)
    let both := x.rx == .up && x.tx == .up
    let st := if c.rd (FAB_LK_STAT_STATE l) = 5 then 5 else if x.rx = .reforming then 4 else if both then 3
      else if x.tx = .up ∨ x.rx = .up ∨ up ≠ 0 then 2 else 1
    let c := c.wr (FAB_LK_STAT_STATE l) st
    c.when (both && !x.wasUp) fun c =>
      (c.setLink l { x with wasUp := true }).post 0x09 0x0007 l (bitCount x.rxUse)

/-- The CARRIED bits of a link's slots follow the mask sent. -/
def Chip.linkCarried (c : Chip) (l : Nat) : Chip :=
  c.each (List.range (4 * c.linkWidth l)) fun c s =>
    c.wrB (FAB_SLOT_STAT_CARRIED (4 * l + s)) ((c.link l).tx == .up && bit (c.link l).txMask s)

/-- A link goes down (R353). -/
def Chip.linkDown (c : Chip) (l cause : Nat) : Chip :=
  let x := c.link l
  let c := c.when x.wasUp fun c =>
    (((c.set (FAB_LK_STAT_DOWN_SEEN l)).inc (FAB_LK_CNT_DOWNS l)).set FAB_STATUS_LINK_DOWN).post 0x09 0x0008 l cause
  let c := c.setLink l { since := x.since, first := x.first, lastBlock := x.lastBlock, bornAt := x.bornAt }
  ((c.linkSlots l).linkCarried l).linkShow l

/-! ### The transmitter (R348, R349, R350, R352) -/

/-- The lowest `k` set bits of a mask of 4. -/
def lowest (m k : Nat) : Nat := (((List.range 4).filter (bit m)).take k).foldl (fun a i => a + 2 ^ i) 0

/-- The slots kept of the enabled link slots: dropped in ascending PRIO, the higher slot first on equal PRIO. -/
def Chip.keptSlots (c : Chip) (l width : Nat) : List Nat :=
  let en := (List.range (4 * c.linkWidth l)).filter fun s => c.on (FAB_SLOT_CTL_TX_EN (4 * l + s))
  (sortBy (fun s => (15 - c.rd (FAB_SLOT_CTL_PRIO (4 * l + s))) * 16 + s) en).take (4 * width)

/-- The transmitter chooses its lanes in use and slots from the eligible lanes (R349); a slot dropped anew is reported. -/
def Chip.txChoose (c : Chip) (l eligible : Nat) : Chip :=
  let n := min (bitCount eligible) (c.linkWidth l)
  let w := if 4 ≤ n then 4 else if 2 ≤ n then 2 else n
  let kept := c.keptSlots l w
  let mask := kept.foldl (fun a s => a + 2 ^ s) 0
  let drops := (List.range (4 * c.linkWidth l)).filter fun s => c.on (FAB_SLOT_CTL_TX_EN (4 * l + s)) && !(kept.contains s)
  let old := (c.link l).dropped
  let c := c.setLink l { c.link l with tx := .up, txUse := lowest eligible w, txMask := mask, formAt := c.now
                                       dropped := drops.foldl (fun a s => a + 2 ^ s) 0 }
  let c := c.each (drops.filter fun s => !(bit old s)) fun c s =>
    ((c.set (FAB_SLOT_STAT_DROPPED_SEEN (4 * l + s))).set FAB_STATUS_SLOT_DROPPED).post 0x09 0x000A (4 * l + s) l
  (c.linkCarried l).linkShow l

/-- The lanes a direction that is up may use: those in use and still reported, and those reported for 100 ms (R352, R362). -/
def Chip.eligible (c : Chip) (l up : Nat) : Nat :=
  let x := c.link l
  (List.range 4).foldl (fun m i =>
    if bit up i && (bit x.txUse i || (match x.since.lookup i with | some t => decide (t + ms 100 ≤ c.now) | none => false))
    then m + 2 ^ i else m) 0

/-- The partner reports its usable lanes (R348, R350). -/
def Chip.peerReport (c : Chip) (l up : Nat) : Chip :=
  let w := c.linkWidth l
  let up := up % 2 ^ w
  let x := c.link l
  let since := (List.range w).filterMap fun i => if bit up i then some (i, (x.since.lookup i).getD c.now) else none
  let first := if up = 0 then none else some (x.first.getD c.now)
  let c := (c.setLink l { x with since := since, first := first }).wr (FAB_LK_STAT_PEER_RX_UP l) up
  if c.rd (FAB_LK_STAT_STATE l) = 5 then c
  else if x.tx ≠ .up then (if up = 2 ^ w - 1 then c.txChoose l up else c.linkShow l)
  else if x.txUse &&& up = x.txUse then c
  else
    let e := c.eligible l up
    if e = 0 then c.linkDown l 1 else c.txChoose l e

/-- 2 ms after the first lane was reported usable the transmitter forms at the width available (R348). -/
def Chip.formTimeout (c : Chip) (l : Nat) : Chip :=
  let up := c.rd (FAB_LK_STAT_PEER_RX_UP l)
  match (c.link l).first with
  | some t =>
    if c.linkWidth l ≠ 0 ∧ (c.link l).tx ≠ .up ∧ t + ms 2 ≤ c.now ∧ up ≠ 0 ∧ c.rd (FAB_LK_STAT_STATE l) ≠ 5 then c.txChoose l up
    else c
  | none => c

/-- A direction that is up widens once a spare lane has been usable for 100 ms (R352). -/
def Chip.linkWiden (c : Chip) (l : Nat) : Chip :=
  let e := c.eligible l (c.rd (FAB_LK_STAT_PEER_RX_UP l))
  if (c.link l).tx = .up ∧ e ≠ (c.link l).txUse ∧ e &&& (c.link l).txUse = (c.link l).txUse then c.txChoose l e else c

/-! ### The receiver (R346, R347, R350, R351) -/

/-- The receive direction comes up on a set of lanes and slots; a link that was up has reformed (R350, R352). A slot is delivered from the first line
that begins after it came up, a slot that was already carried without a break. -/
def Chip.rxDirUp (c : Chip) (l use mask : Nat) : Chip :=
  let x := c.link l
  let kept := if x.rx = .up then x.rxMask &&& mask else 0
  let c := c.setLink l { x with
    rx := .up, rxUse := use, rxMask := mask
    faults := (x.faults &&& kept) ||| (0xFFFF ^^^ kept)
    sseq := x.sseq.filter fun e => bit kept e.1 }
  let c := c.when x.wasUp fun c =>
    (((c.set (FAB_LK_STAT_REFORM_SEEN l)).inc (FAB_LK_CNT_REFORMS l)).set FAB_STATUS_LINK_REFORMED).post 0x09 0x0002 l (bitCount use)
  (c.linkSlots l).linkShow l

/-- Every lane of the set `use` is usable and has announced it with one MARKER_COUNT, by reform markers or not. -/
def Chip.setReady (c : Chip) (l use mask : Nat) (reform : Bool) : Bool :=
  let lanes := (c.linkLanes l).filter fun n => c.lnUsable n && bit use (c.lane n).llane
  use != 0 && lanes.length == bitCount use
    && lanes.all (fun n => (c.lane n).set_ == some (use, mask, reform)
        && lanes.all fun k => (c.lane k).count == (c.lane n).count)

/-- A lane in use stops being usable (R350): the direction reforms; a link without a usable lane goes down (R353). -/
def Chip.laneUnusable (c : Chip) (n : Nat) : Chip :=
  match c.linkOf n with
  | none => c
  | some l =>
    let x := c.link l
    if c.lnUsable n then c
    else
      let c := if x.rx = .up ∧ bit x.rxUse (c.lane n).llane then
          (c.setLink l { x with rx := .reforming }).linkSlots l
        else c
      if c.rxUp l = 0 ∧ x.rx ≠ .down then c.linkDown l 1 else c.linkShow l

/-- The identity fields last received (R346). -/
def Chip.peerIdentity (c : Chip) (l b : Nat) : Chip :=
  (((c.wr (FAB_LK_PEER_PEER_ID l) (mkDevice b)).wr (FAB_LK_PEER_PEER_LINK l) (mkLink b)).wr (FAB_LK_PEER_PEER_PLANE l) (mkPlane b)).wr
    (FAB_LK_PEER_PEER_TWIN_UNIT l) (mkUnit b)

/-- The cause for which a marker received on a lane of a link fails the identity checks; 0 for none (R346). -/
def Chip.markerCause (c : Chip) (l n b : Nat) : Nat :=
  let own := if c.role = 1 then 1 else 2
  if c.rd (FAB_LK_CFG_PARTNER_ID l) ≠ 0 ∧ mkDevice b ≠ c.rd (FAB_LK_CFG_PARTNER_ID l) then 1
  else if mkLink b ≠ c.rd (FAB_LK_CFG_PARTNER_LINK l) ∨ mkCfgWidth b ≠ c.rd (FAB_LK_CFG_WIDTH l) then 2
  else if mkPlane b ≠ c.linkPlane l then 3
  else if mkRole b = own ∨ mkRole b = 0 ∨ mkRole b = 3 then 4
  else if c.linkWidth l ≤ mkLlane b
      ∨ (c.linkLanes l).any fun k => k != n && c.lnSt k == lnTrained && (c.lane k).seen && (c.lane k).llane == mkLlane b then 5
  else 0

/-- A link is held in MISWIRE (R346). -/
def Chip.miswire (c : Chip) (l cause : Nat) : Chip :=
  let was := c.rd (FAB_LK_STAT_STATE l) == 5 && c.rd (FAB_LK_STAT_MISWIRE_CAUSE l) == cause
  let c := ((c.linkDown l 2).wr (FAB_LK_STAT_STATE l) 5).wr (FAB_LK_STAT_MISWIRE_CAUSE l) cause
  if was then c else ((c.set (FAB_LK_STAT_MISWIRE_SEEN l)).set FAB_STATUS_MISWIRE).post 0x09 0x0009 l cause

/-- A link leaves MISWIRE once every lane of it that has a signal presents markers that pass. -/
def Chip.unMiswire (c : Chip) (l : Nat) : Chip :=
  if c.rd (FAB_LK_STAT_STATE l) = 5 ∧ (c.linkLanes l).all (fun n => !(c.on (lnSignal n)) || ((c.lane n).seen && !(c.lane n).bad)) then
    (c.wr (FAB_LK_STAT_STATE l) 1).linkShow l
  else c

/-- The skew limit of 64 block periods in units of 1/3 ns (R347). -/
def skewLimit : Nat := 64 * 640 * 3 * 8 / 425

/-- The skew of a lane against the earliest lane of its link with the same MARKER_COUNT. -/
def Chip.checkSkew (c : Chip) (l n : Nat) : Chip :=
  let x := c.lane n
  let late := (c.linkLanes l).any fun k => k != n && (c.lane k).seen && (c.lane k).count == x.count
    && decide ((c.lane k).at_ + skewLimit < x.at_)
  let c := c.setLane n { x with skewed := late }
  c.when (late && !x.skewed) fun c =>
    ((c.set (FAB_LK_STAT_SKEW_SEEN l)).set FAB_STATUS_SKEW).post 0x09 0x000C l n

/-- An alignment or reform marker arrives on a TRAINED fabric lane (R345 to R351). -/
def Chip.fabMarker (c : Chip) (n b : Nat) (reform : Bool) : Chip :=
  if c.lnSt n ≠ lnTrained then c
  else if !(blockOk b) then c.when (reform || !(c.lnStepping n)) (·.lnCrcErr n)
  else if blockType b ≠ (if reform then 3 else 2) then c
  else
    match c.linkOf n with
    | none => c
    | some l =>
      let c := c.peerIdentity l b
      let cause := c.markerCause l n b
      if cause ≠ 0 then (c.setLane n { c.lane n with bad := true, seen := false }).miswire l cause
      else
        let x := c.lane n
        let c := c.setLane n { x with
          seen := x.seen || !reform, bad := false, llane := mkLlane b, count := mkCount b
          at_ := if reform then x.at_ else c.now, set_ := some (mkInUse b, mkSlots b, reform) }
        let c := c.when (!reform) fun c => (c.checkSkew l n).unMiswire l
        let ready := c.setReady l (mkInUse b) (mkSlots b) reform
        let c := if c.rd (FAB_LK_STAT_STATE l) = 5 then c
          else if ready && (reform || (c.link l).rx != .up) then c.rxDirUp l (mkInUse b) (mkSlots b)
          else c.linkShow l
        c.peerReport l (mkRxUp b)

/-- A status block arrives (R342). -/
def Chip.fabStatus (c : Chip) (n b : Nat) : Chip :=
  if c.lnSt n ≠ lnTrained then c
  else if !(blockOk b) then c.lnCrcErr n
  else if blockType b ≠ 1 then c
  else match c.linkOf n with
    | none => c
    | some l => c.peerReport l (payloadBits b 604 4)

/-- A data block arrives (R337, R338, R344): delivered to its slot where its lane is in use and the slot carried, or discarded whole and counted. A
break of its slot's sequence shows that a block is missing (R356). -/
def Chip.fabData (c : Chip) (n b : Nat) : Chip :=
  if c.lnSt n ≠ lnTrained then c
  else if !(blockOk b) then c.lnCrcErr n
  else match c.linkOf n with
    | none => c
    | some l =>
      let x := c.link l
      let s := bits b 634 4
      let k := bits b 624 4
      let was := tget 16 x.sseq s
      if blockType b = 0 ∧ x.rx = .up ∧ bit x.rxUse (c.lane n).llane ∧ bit x.rxMask s then
        c.setLink l { x with
          sseq := tput 16 x.sseq s k
          faults := if was = 16 ∨ k = (was + 1) % 16 then x.faults else x.faults ||| 2 ^ s }
      else c

/-- A lane's state changed: the registers of its link follow. -/
def Chip.laneTouched (c : Chip) (n : Nat) : Chip :=
  if 48 ≤ n then c else match c.linkOf n with
    | none => c
    | some l => c.linkShow l

/-! ### Plane merge (R357, R358) -/

/-- The plane copy of a slot has a whole line as far as its link shows (R356): the slot was carried, the direction up, and no block missing, since the
line before. -/
def Chip.copyWhole (c : Chip) (i : Nat) : Bool :=
  match c.linkOf (i / 4) with
  | some l => (c.link l).rx == .up && bit (c.link l).rxMask (i - 4 * l) && !(bit (c.link l).faults (i - 4 * l))
  | none => false

/-- The next line of a slot begins: what the line before lacked is past, while the slot is carried. -/
def Chip.copyNext (c : Chip) (i : Nat) : Chip :=
  match c.linkOf (i / 4) with
  | some l =>
    let x := c.link l
    if x.rx = .up ∧ bit x.rxMask (i - 4 * l) ∧ bit x.faults (i - 4 * l) then c.setLink l { x with faults := x.faults ^^^ 2 ^ (i - 4 * l) } else c
  | none => c

/-- The merge releases a line of slot m (R357): for each copy whether its words came complete, whole and within the window; whether the copies differ;
and for an invalid line whether the line before it was invalid too. -/
def Chip.mergeLine (c : Chip) (m : Nat) (aWhole bWhole differ run : Bool) : Chip :=
  if c.role ≠ 1 then c
  else
    let aOk := aWhole && c.copyWhole m
    let bOk := bWhole && c.copyWhole (m + 96)
    let c := (c.copyNext m).copyNext (m + 96)
    if !aOk && !bOk then c.badLine (48 + m) run
    else if aOk && bOk then
      if !differ then c
      else
        let c := (c.inc (FAB_MRG_DIFF_COUNT m)).set FAB_STATUS_PLANE_DIFFER
        let f := (c.src (48 + m)).next
        if tget 0 c.diffAt m = f then c
        else { c with diffAt := tput 0 c.diffAt m f }.post 0x09 0x000B m (c.rd (FAB_MRG_DIFF_COUNT m))
    else if bOk then c.inc (FAB_MRG_CNT_A_MISS m)
    else c.inc (FAB_MRG_CNT_B_MISS m)

/-! ### Changes -/

/-- A slot setting takes (R354, R355); in leaf role the slot of plane B takes it too. -/
def Chip.applySlot (c : Chip) (s w : Nat) : Chip :=
  let put := fun (c : Chip) i =>
    (((c.wr (FAB_SLOT_CTL_TX_EN i) (bits w 8 1)).wr (FAB_SLOT_CTL_RX_EN i) (bits w 9 1)).wr (FAB_SLOT_CTL_RATE_CLASS i) (bits w 10 3)).wr
      (FAB_SLOT_CTL_PRIO i) (bits w 13 4)
  let c := (put c s).when (c.role == 1) fun c => put c (s + 96)
  ((c.followClass (48 + s)).judgeSrc (48 + s))

/-- The transmitters choose their slots again after a slot copy (R355). -/
def Chip.slotsTaken (c : Chip) : Chip :=
  c.each ((List.range 48).filter fun l => c.linkWidth l != 0 && (c.link l).tx == .up) fun c l =>
    let x := c.link l
    let kept := (c.keptSlots l (bitCount x.txUse)).foldl (fun a s => a + 2 ^ s) 0
    if kept = x.txMask then c else c.txChoose l x.txUse

/-- The identity and spine plane take effect (R363). -/
def Chip.applyFabCfg (c : Chip) (w : Nat) : Chip := c.put FAB_CFG (w % 2 ^ 25)

/-- A link entry takes effect (R363): a link whose settings changed goes down and forms again. -/
def Chip.applyLink (c : Chip) (l a b : Nat) : Chip :=
  let v := bits a 6 2 + bits b 24 6 * 2 ^ 2 + bits b 0 24 * 2 ^ 8
  let v := if bits a 6 2 = 0 then 0 else v
  if c.get (FAB_LK_CFG l) = v then c
  else
    let c := c.linkDown l 3
    let c := c.each (c.linkLanes l) fun c n => c.lnForget n
    let c := c.each (List.range (4 * c.linkWidth l)) fun c s =>
      (c.clr (FAB_SLOT_STAT_RX_PRESENT (4 * l + s))).clr (FAB_SLOT_STAT_CARRIED (4 * l + s))
    let c := (c.setLink l { bornAt := c.now }).put (FAB_LK_CFG l) v
    let c := c.each (c.linkLanes l) fun c n => c.lnForget n
    let c := if v = 0 then c.each [(0, 3), (3, 2), (5, 2), (7, 4), (11, 4), (15, 1)] fun c f => c.wr ((FAB_LK_STAT l).fld f.1 f.2) 0
      else ((c.wr (FAB_LK_STAT_PEER_RX_UP l) 0).wr (FAB_LK_STAT_STATE l) 1).linkShow l
    c

/-- A register of a link as it reads: 0 for a lane that is no first lane of a link (R365, R367). -/
def Chip.linkReg (c : Chip) (l : Nat) (r : Reg) : Nat := if c.linkWidth l = 0 then 0 else c.get r

/-! ### Requests -/

/-- The link is up: both its directions came up and it has not gone down. -/
def Chip.linkIsUp (c : Chip) (l : Nat) : Bool := (c.link l).wasUp

/-- A lane is a member of a link that is up. -/
def Chip.laneInUpLink (c : Chip) (n : Nat) : Bool :=
  match c.linkOf n with | some l => c.linkIsUp l | none => false

/-- The FAB indexes of the slots a lane carries: those of its link, or its own four. -/
def Chip.laneSlots (c : Chip) (n : Nat) : List Nat :=
  match c.linkOf n with
  | some l => (List.range (4 * c.linkWidth l)).map (4 * l + ·)
  | none => (List.range 4).map (4 * n + ·)

/-- A lane carries a slot: one of its slots is enabled. -/
def Chip.laneCarries (c : Chip) (n : Nat) : Bool :=
  (c.laneSlots n).any fun s => c.on (FAB_SLOT_CTL_TX_EN s) || c.on (FAB_SLOT_CTL_RX_EN s)

/-- A slot's FAB_OUT is routed or in the take queue, or its FAB_IN is routed, tapped or in the take queue. -/
def Chip.slotUsed (c : Chip) (s : Nat) : Bool := c.dstUsed (48 + c.fabIdx s) || c.srcUsed (48 + c.fabIdx s)

/-- A link entry of FAB_SET_LINK: words a and b and its lane words. -/
abbrev LinkEntry := Nat × Nat × List Nat

/-- The link entries of a payload; none where the payload ends early or late. -/
def parseLinks : Nat → List Nat → Option (List LinkEntry)
  | 0, [] => some []
  | 0, _ => none
  | n + 1, a :: b :: rest =>
    let w := widthOf (bits a 6 2)
    if rest.length < w then none
    else match parseLinks n (rest.drop w) with
      | some es => some ((a, b, rest.take w) :: es)
      | none => none
  | _ + 1, _ => none

/-- The checks of FAB_SET_LINK (R363, R364, R325). -/
def chkSetLink (x : Ctx) (r : Req) : Check :=
  let c := x.c
  let w0 := r.w 0
  match (if 2 ≤ r.payload.length ∧ r.w 1 ≤ 48 then parseLinks (r.w 1) (r.payload.drop 2) else
      if 2 ≤ r.payload.length ∧ r.payload.length = 2 then some [] else none) with
  | none => .error stBadLength
  | some es =>
    let l := fun (e : LinkEntry) => bits e.1 0 6
    let w := fun (e : LinkEntry) => widthOf (bits e.1 6 2)
    let after := ((List.range 48).filter fun k => !(es.any fun e => l e == k)).map (fun k => (k, c.linkWidth k))
      ++ es.map fun e => (l e, w e)
    let clash := after.any fun p => after.any fun q =>
      p.1 != q.1 && p.2 != 0 && q.2 != 0 && overlap p.1 p.2 q.1 q.2
    let args := fun (e : LinkEntry) =>
      bits e.1 8 24 == 0 && bits e.2.1 30 2 == 0 && l e + max 1 (w e) ≤ 48 && l e % max 1 (w e) == 0
        && bits e.2.1 24 6 % max 1 (w e) == 0
        && (e.2.2.zipIdx.all fun p => laneWordOk p.1 (l e + p.2))
    let changed := fun (e : LinkEntry) =>
      c.get (FAB_LK_CFG (l e)) != (if w e = 0 then 0 else bits e.1 6 2 + bits e.2.1 24 6 * 2 ^ 2 + bits e.2.1 0 24 * 2 ^ 8)
    let used := fun (e : LinkEntry) => (List.range (4 * max (w e) (c.linkWidth (l e)))).any fun s => c.slotUsed (4 * l e + s)
    let txDenied := fun (e : LinkEntry) => e.2.2.any fun v =>
      c.laneInUpLink (bits v 0 6) && bits (laneCfgWord v) 0 11 != bits (c.get (lnCfg (bits v 0 6))) 0 11
    require (c.role != 0 && r.epoch == 0 && r.w 1 ≤ 48 && bits w0 0 24 != 0 && !(bit w0 24 && c.role == 1) && bits w0 25 7 == 0
      && nodup (es.map l) && es.all args && !clash) stBadArg <|
    require (w0 == c.get FAB_CFG || (List.range 48).all fun k => !(c.linkIsUp k)) stDenied <|
    require (es.all fun e => !(changed e && used e)) stDenied <|
    require (es.all fun e => !(txDenied e)) stDenied <|
    nowPlan (⟨.fabCfg, 0, [w0]⟩ :: es.flatMap fun e =>
      (e.2.2.map fun v => (⟨.fabLane, bits v 0 6, [v]⟩ : Change)) ++ [⟨.fabLink, l e, [e.1, e.2.1]⟩])

/-- The checks of FAB_SET_SLOTS (R354). -/
def chkSetSlots (x : Ctx) (r : Req) : Check :=
  let c := x.c
  let n := r.w 0
  let ws := r.ws 1 n
  let s := fun w => bits w 0 8
  let p := c.dstPlane (48 + s (r.w 1))
  let at_ := x.atEpoch p r.epoch
  let args := fun w => s w < 192 && !(c.role == 1 && 96 ≤ s w) && bits w 10 3 ≤ 5 && !(bits w 10 3 == 0 && bit w 9) && bits w 17 15 == 0
    && c.dstPlane (48 + s w) == p && c.srcPlane (48 + s w) == p
  let denied := fun (at_ : Chip) w =>
    (bits w 8 1 != at_.rd (FAB_SLOT_CTL_TX_EN (s w)) && c.dstUsed (48 + s w))
      || ((bits w 9 1 != at_.rd (FAB_SLOT_CTL_RX_EN (s w)) || bits w 10 3 != at_.rd (FAB_SLOT_CTL_RATE_CLASS (s w)))
          && c.srcUsed (48 + s w))
  require (r.lenIs (n + 1)) stBadLength <|
  require (c.role != 0 && 1 ≤ n && n ≤ 192 && nodup (ws.map s) && ws.all args) stBadArg <|
  withEpoch c p r.epoch fun e =>
  require (ws.all fun w => !(denied at_ w)) stDenied <|
  pendPlan r p e (ws.map fun w => ⟨.fabSlot, s w, [w]⟩)

/-- The checks of FAB_LOOPBACK (R327, R328). -/
def chkLoopback (x : Ctx) (r : Req) : Check :=
  let c := x.c
  let w := r.w 0
  let n := bits w 0 6
  let mode := bits w 6 2
  require (r.lenIs 1) stBadLength <|
  require (c.role != 0 && r.epoch == 0 && n < 48 && bits w 8 4 ≤ 7 && bits w 12 4 ≤ 7 && bits w 17 15 == 0
    && !(mode == 3 && bits w 8 4 != 0)) stBadArg <|
  require (!(c.laneInUpLink n) && !(c.laneCarries n) && c.domOn (domFabRx n) && c.domOn (domFabTx n)
    && (mode != 3 || c.lnSt n == lnTrained || c.lnSt n == lnVerify || (c.lnSt n == lnTest && c.on (lnSignal n)))) stDenied <|
  .ok { resp := ⟨stOK, 0, 0, []⟩, nows := [⟨.loop, n, [w]⟩], journal := false, fwd := false }

/-- FAB_GET_STATUS (R334, R365). -/
def chkFabStatus (x : Ctx) (r : Req) : Check :=
  let c := x.c
  let k := r.w 1
  let n := r.w 2
  let is := (List.range n).map (k + ·)
  require (r.lenIs 3) stBadLength <|
  require (1 ≤ n && (match r.w 0 with
    | 0 => decide (k + n ≤ 48)
    | 1 => decide (k + n ≤ 48)
    | 2 => decide (k + n ≤ 192)
    | 3 => decide (k + n ≤ 96) && c.role == 1
    | _ => false)) stBadArg <|
  okPlan (match r.w 0 with
    | 0 => [c.get FAB_LN_SUMMARY] ++ is.flatMap fun i =>
        [c.get (FAB_LN_CFG i), c.get (FAB_LN_STAT i), c.get (FAB_LN_EQ i), c.get (FAB_LN_EYE i), c.get (FAB_LN_ERR i),
         c.get (FAB_LN_TRAIN i), c.get (FAB_LN_TEST i)]
    | 1 => [c.get FAB_STATUS, c.get FAB_CFG] ++ is.flatMap fun i =>
        [FAB_LK_CFG i, FAB_LK_STAT i, FAB_LK_PEER i, FAB_LK_CNT i].map (c.linkReg i)
    | 2 => is.flatMap fun i => [c.get (FAB_SLOT_CTL i), c.get (FAB_SLOT_STAT i)]
    | _ => is.flatMap fun i => [c.get (FAB_MRG_CNT i), c.get (FAB_MRG_DIFF i)])

end Sys2Proof.Machine
end

