-- ==== Sys2Proof/Machine/NetOps.lean ====
section
/-! DEFINITION. Operations of the media network ports (chapter 12): link states, receive acceptance and queues, gates and the gate
control list, the statistics counters, and the checks of the requests of the block. -/

namespace Sys2Proof.Machine

def Chip.net (c : Chip) (p : Nat) : NetPort := c.nets.getD p {}
def Chip.setNet (c : Chip) (p : Nat) (x : NetPort) : Chip := { c with nets := putAt 2 {} c.nets p x }

/-! ### Counters (R386, R387) -/

/-- A wrapping counter of a port advanced; its bit 31 becoming 1 sets the half-range bit and posts CNT_HALF. -/
def Chip.netCount (c : Chip) (p k n : Nat) : Chip :=
  let old := c.get (NET_CNT p k)
  let c := c.put (NET_CNT p k) ((old + n) % 2 ^ 32)
  c.when (!(bit old 31) && bit ((old + n) % 2 ^ 32) 31) fun c =>
    (c.setBit (NET_CNT_HALF_HALF p) k).post 0x0A 0x0006 p k

/-- A frame's octets counted in 128-byte units, the remainder carried. -/
def Chip.rxOctets (c : Chip) (p n : Nat) : Chip :=
  let t := (c.net p).rxRem + n
  (c.setNet p { c.net p with rxRem := t % 128 }).netCount p 1 (t / 128)
def Chip.txOctets (c : Chip) (p n : Nat) : Chip :=
  let t := (c.net p).txRem + n
  (c.setNet p { c.net p with txRem := t % 128 }).netCount p 12 (t / 128)

/-! ### Link states (R370, R371) -/

def npOff : Nat := 0
def npStandby : Nat := 1
def npNoSignal : Nat := 2
def npAn : Nat := 3
def npTraining : Nat := 4
def npAligning : Nat := 5
def npUp : Nat := 6
def npRemote : Nat := 7

def Chip.npState (c : Chip) (p : Nat) : Nat := c.rd (NET_PORT_STAT_STATE p)
def Chip.npTo (c : Chip) (p st : Nat) : Chip := c.wr (NET_PORT_STAT_STATE p) st

/-- The state a training attempt begins in. -/
def Chip.npStart (c : Chip) (p : Nat) : Nat := if c.on (NET_PORT_CFG_AN_EN p) then npAn else npTraining

/-- A port in UP leaves UP with a cause (R371). -/
def Chip.netDown (c : Chip) (p cause : Nat) : Chip :=
  if c.npState p = npUp then
    ((c.set (NET_PORT_STATUS_LINK_DOWN_SEEN p)).netCount p 18 1).post 0x0A 0x0002 p cause
  else c

/-- The lanes of a port and its MAC are ACTIVE. -/
def Chip.netActive (c : Chip) (p : Nat) : Bool :=
  c.domOn (domMac p) && (List.range 4).all fun i => c.domOn (domNetRx (4 * p + i)) && c.domOn (domNetTx (4 * p + i))

/-- The port's state follows its domains: OFF, STANDBY, or out of them (R370, R388). -/
def Chip.netRefresh (c : Chip) (p : Nat) : Chip :=
  let off := if c.dom (domMac p) = stLow then npStandby else npOff
  if c.netActive p then
    if c.npState p = npOff then c.npTo p npNoSignal else if c.npState p = npStandby then c.npTo p (c.npStart p) else c
  else if c.npState p = off then c
  else (((c.netDown p 4).clr (NET_PORT_STAT_REMOTE_FAULT p)).wr (NET_PORT_STAT_LANE_LOCK p) 0).npTo p off

/-- A port in AN, TRAINING, ALIGNING or REMOTE_FAULT loses signal on a receive lane. -/
def Chip.netSignalLost (c : Chip) (p lock : Nat) : Chip :=
  let st := c.npState p
  if st = npAn ∨ st = npTraining ∨ st = npAligning ∨ st = npRemote then
    ((c.wr (NET_PORT_STAT_LANE_LOCK p) lock).clr (NET_PORT_STAT_REMOTE_FAULT p)).npTo p npNoSignal
  else c

/-- All receive lanes of a port in NO_SIGNAL show a signal again. -/
def Chip.netSignal (c : Chip) (p : Nat) : Chip := if c.npState p = npNoSignal then c.npTo p (c.npStart p) else c

/-- Auto-negotiation completes. -/
def Chip.netAnDone (c : Chip) (p : Nat) : Chip := if c.npState p = npAn then c.npTo p npTraining else c

/-- Link training completes, with the inverted receive lanes (R369). -/
def Chip.netTrained (c : Chip) (p pol : Nat) : Chip :=
  if c.npState p = npTraining then
    ((c.wr (NET_PORT_STAT_RX_POL p) pol).wr (NET_PORT_STAT_LANE_LOCK p) 15).npTo p npAligning
  else c

/-- A training attempt exceeds its timers. -/
def Chip.netTimeout (c : Chip) (p : Nat) : Chip :=
  let st := c.npState p
  if st = npAn ∨ st = npTraining ∨ st = npAligning then c.npTo p (c.npStart p) else c

/-- The port is aligned: UP, or REMOTE_FAULT while the partner signals it. -/
def Chip.netAligned (c : Chip) (p : Nat) (remote : Bool) : Chip :=
  let st := c.npState p
  if st = npAligning ∨ st = npRemote then
    if remote then (c.set (NET_PORT_STAT_REMOTE_FAULT p)).npTo p npRemote
    else (((c.clr (NET_PORT_STAT_REMOTE_FAULT p)).npTo p npUp).set (NET_PORT_STATUS_LINK_UP_SEEN p)).post 0x0A 0x0001 p 0
  else c

/-- The port leaves UP on causes 1 to 3. -/
def Chip.netLost (c : Chip) (p cause lock : Nat) : Chip :=
  if c.npState p = npUp then
    let c := (c.netDown p cause).wr (NET_PORT_STAT_LANE_LOCK p) lock
    if cause = 1 then c.npTo p npNoSignal
    else if cause = 2 then c.npTo p npAligning
    else (c.set (NET_PORT_STAT_REMOTE_FAULT p)).npTo p npRemote
  else c

/-- An LNR of a lane of the port: class L fields return to default and the port trains again (R150, R394), unless it has no signal or is not on. -/
def Chip.netLnr (c : Chip) (p : Nat) : Chip :=
  let st := c.npState p
  let c := c.set NET_STATUS_DEFAULTS_RESTORED
  if st ≤ npNoSignal then c.put (NET_PORT_STAT p) (st % 8)
  else ((c.netDown p 4).put (NET_PORT_STAT p) 0).npTo p (c.npStart p)

/-! ### Receive (R372 to R377) -/

/-- NET_MAXLEN of a port. -/
def Chip.maxLen (c : Chip) (p : Nat) : Nat := c.rd (NET_PORT_CFG_MAXLEN p)

/-- The unicast address of a port as a 48-bit number, its first byte highest. -/
def Chip.netMac (c : Chip) (p : Nat) : Nat :=
  let lo := c.get (NET_MAC_LO p)
  let hi := c.get (NET_MAC_HI p)
  (((((bits lo 0 8 * 256 + bits lo 8 8) * 256 + bits lo 16 8) * 256 + bits lo 24 8) * 256) + bits hi 0 8) * 256 + bits hi 8 8

/-- The multicast address of an IPv4 group. -/
def groupMac (g : Nat) : Nat := 0x01005E000000 + g % 2 ^ 23

/-- The joined receive flows. -/
def Chip.joined (c : Chip) : List Nat := (List.range 112).filter fun f => c.on (NET_RXF_CTL_JOINED f)

/-- The legs of a receive flow as (leg, port) (R409). -/
def Chip.legsOf (c : Chip) (f : Nat) : List (Nat × Nat) :=
  if c.on (NET_RXF_CTL_DUAL f) then [(0, 0), (1, 1)] else [(0, c.rd (NET_RXF_CTL_PORT f))]

def Chip.legAddr (c : Chip) (f leg : Nat) : Nat := c.get (NET_RXF_LEG_ADDR f leg)
def Chip.legSrc (c : Chip) (f leg : Nat) : Nat := c.get (NET_RXF_LEG_SRC f leg)
def Chip.legUdp (c : Chip) (f leg : Nat) : Nat := c.rd (NET_RXF_LEG_PORT_UDP f leg)

/-- A frame belongs to a leg of a joined flow on the port. -/
def Chip.isMedia (c : Chip) (p : Nat) (f : NetFrame) : Bool :=
  match f.udp with
  | none => false
  | some (sip, dip, port) => c.joined.any fun x => (c.legsOf x).any fun (leg, q) =>
      q == p && c.legAddr x leg == dip.toNat && c.legUdp x leg == port.toNat
        && (c.legSrc x leg == 0 || c.legSrc x leg == sip.toNat)

/-- A PTP event or general message over UDP. -/
def isPtp (f : NetFrame) : Bool :=
  match f.udp with
  | none => false
  | some (_, _, port) => port == 319 || port == 320

/-- The MAC accepts a destination address (R374). -/
def Chip.accepts (c : Chip) (p da : Nat) : Bool :=
  (da == c.netMac p && c.netMac p != 0) || da == 0xFFFFFFFFFFFF || da == 0x01005E000181 || da == 0x01005E00006B
    || (c.joined.any fun x => (c.legsOf x).any fun (leg, q) => q == p && groupMac (c.legAddr x leg) == da)
    || ((Config.netFilters p).take 16).contains da

/-- The bytes in the media queue now: it drains at 200 Gb/s (R376). -/
def Chip.mediaLevel (c : Chip) (p : Nat) : Nat := (c.net p).media - (c.now - (c.net p).mediaAt) * 25 / 3

/-- The queue of a frame: 0 media, 1 PTP, 2 management; and whether it has room for NET_MAXLEN bytes (R376, R377). -/
def Chip.rxQueue (c : Chip) (p : Nat) (f : NetFrame) : Nat × Bool :=
  if c.isMedia p f then (0, c.mediaLevel p + c.maxLen p ≤ 2 ^ 20)
  else if isPtp f then (1, (c.net p).ptpQ < 64)
  else (2, (c.net p).mgmtQ < 256)

/-- A frame enters its queue; running firmware drains the PTP and management queues at once. -/
def Chip.enqueue (c : Chip) (p q len : Nat) : Chip :=
  let x := c.net p
  let k := if c.ready then 0 else 1
  if q = 0 then c.setNet p { x with media := c.mediaLevel p + len, mediaAt := c.now }
  else if q = 1 then c.setNet p { x with ptpQ := x.ptpQ + k }
  else c.setNet p { x with mgmtQ := x.mgmtQ + k }

/-- The receive counter of the first check of R373 that a frame fails before its queue, or none. -/
def Chip.rxCheck (c : Chip) (p : Nat) (f : NetFrame) : Option Nat :=
  if f.code then some 5
  else if f.len < 64 then some 2
  else if c.maxLen p < f.len then some 3
  else if !f.fcsOk then some 4
  else if f.etype = 0x8808 then some 7
  else if !(c.accepts p f.da.toNat) then some 6
  else none

/-- A frame is received: counted in exactly one counter, delivered or dropped (R373). -/
def Chip.frameReceived (c : Chip) (p : Nat) (f : NetFrame) : Chip :=
  if c.npState p ≠ npUp ∧ !f.code then c
  else
    let c := (c.netCount p 16 f.corrected).netCount p 17 f.uncorrectable
    match c.rxCheck p f with
    | some k => c.netCount p k 1
    | none =>
      let (q, room) := c.rxQueue p f
      if room then ((c.enqueue p q f.len).netCount p 0 1).rxOctets p f.len
      else
        let flag := (NET_PORT_STATUS p).fld (2 + q) 1
        let was := c.on flag
        ((c.netCount p (8 + q) 1).set flag).when (!was) (·.post 0x0A 0x0003 p q)

/-! ### Gates (R380 to R382) -/

/-- The entries of the running list. -/
def Chip.gcl (c : Chip) (p : Nat) : List Nat := (List.range (c.rd (NET_GCL_CTL_ENTRIES p))).map fun e => c.get (NET_GCL p e)

/-- The entries of the pending list. -/
def Chip.gclShadow (c : Chip) (p : Nat) : List Nat :=
  (List.range (c.rd (NET_GCL_CTL_SHADOW_ENTRIES p))).map fun e => c.get (NET_GCL_SHADOW p e)

/-- The interval of an entry in ns. -/
def entryNs (w : Nat) : Nat := 8 * bits w 8 24

/-- The entries of a list from a position in its cycle on, the first with the time left in it: the rest of the cycle. -/
def gclFrom : List Nat → Nat → List (Nat × Nat)
  | [], _ => []
  | w :: ws, pos =>
    if pos < entryNs w then (bits w 0 8, entryNs w - pos) :: ws.map fun v => (bits v 0 8, entryNs v)
    else gclFrom ws (pos - entryNs w)

/-- The position in the running cycle, in ns. -/
def Chip.gclPos (c : Chip) (p : Nat) : Nat := (c.clock.n - (c.net p).cycleAt) % max 1 (c.rd (NET_GCL_CYCLE_CYCLE p))

/-- The gates and durations from now on: the rest of the running cycle and one cycle more; one open entry with no list enabled. -/
def Chip.gclAhead (c : Chip) (p : Nat) : List (Nat × Nat) :=
  if c.on (NET_GCL_CTL_ENABLE p) then
    gclFrom (c.gcl p) (c.gclPos p) ++ (c.gcl p).map fun w => (bits w 0 8, entryNs w)
  else []

/-- The gates that are open now by the running list. -/
def Chip.gclGates (c : Chip) (p : Nat) : Nat :=
  if c.on (NET_GCL_CTL_ENABLE p) then ((gclFrom (c.gcl p) (c.gclPos p)).head?.map Prod.fst).getD 255 else 255

/-- The ns until the next boundary at which the gate of a class is closed; none where it stays open. -/
def closesIn (cls : Nat) : List (Nat × Nat) → Nat → Option Nat
  | [], _ => none
  | (g, d) :: rest, at_ => if bit g cls then closesIn cls rest (at_ + d) else some at_

/-- The ns until the gate of a class closes, a pending list's start included (R381). -/
def Chip.gateEnds (c : Chip) (p cls : Nat) : Option Nat :=
  let run := closesIn cls (c.gclAhead p) 0
  if c.on (NET_GCL_CTL_PENDING p) then
    let s := (c.net p).startAt - c.clock.n
    match run with
    | some d => if d < s then some d else if c.on (NET_GCL_CTL_SHADOW_ENABLE p) then
        closesIn cls ((c.gclShadow p).map fun w => (bits w 0 8, entryNs w)) s else none
    | none => if c.on (NET_GCL_CTL_SHADOW_ENABLE p) then
        closesIn cls ((c.gclShadow p).map fun w => (bits w 0 8, entryNs w)) s else none
  else run

/-- The wire time of a frame with preamble, SFD and gap, in units of 0.04 ns (R381). -/
def wireTime (len : Nat) : Nat := max 64 len + 20

/-- The longest run of open entries of a class in a list read twice around its wrap, in ns. -/
def longestOpen (cls : Nat) : List Nat → Nat → Nat → Nat
  | [], run, best => max run best
  | w :: ws, run, best => if bit w cls then longestOpen cls ws (run + entryNs w) best else longestOpen cls ws 0 (max run best)

/-- A head frame fits no open interval of its class (R382). -/
def Chip.noFit (c : Chip) (p cls len : Nat) : Bool :=
  c.on (NET_GCL_CTL_ENABLE p) && !((c.gcl p).all fun w => bit w cls)
    && decide (25 * longestOpen cls (c.gcl p ++ c.gcl p) 0 0 < wireTime len)

/-- A head frame may start now (R381). -/
def Chip.mayStart (c : Chip) (p cls len : Nat) : Bool :=
  bit (c.net p).gates cls &&
    match c.gateEnds p cls with
    | none => true
    | some d => decide (wireTime len ≤ 25 * d)

/-- A discarded frame of a port that is not UP. -/
def Chip.discLink (c : Chip) (p n : Nat) : Chip := (c.netCount p 13 n).when (n != 0) (·.set (NET_PORT_STATUS_TX_DISC_LINK p))

/-- The head frames of the class queues meet the transmit side (R371, R378 to R382, R392): a frame too long or fitting no
interval is discarded, and of the frames that may start the one of the highest class leaves; `cut` says the link left UP
within it. -/
def Chip.frameTransmit (c : Chip) (p : Nat) (heads : List (Nat × Nat)) (cut : Bool) : Chip :=
  if c.npState p ≠ npUp then c.discLink p heads.length
  else
    let long := heads.filter fun h => decide (c.maxLen p < h.2)
    let ok := heads.filter fun h => decide (h.2 ≤ c.maxLen p)
    let bad := ok.filter fun h => c.noFit p h.1 h.2
    let go := ok.filter fun h => !(c.noFit p h.1 h.2) && c.mayStart p h.1 h.2
    let c := c.netCount p 15 long.length
    let c := c.each bad fun c h =>
      let was := c.on (NET_PORT_STATUS_TX_NOFIT p)
      ((c.netCount p 14 1).set (NET_PORT_STATUS_TX_NOFIT p)).when (!was) (·.post 0x0A 0x0004 p h.1)
    match (sortBy (fun h => 7 - h.1) go).head? with
    | none => c
    | some h => if cut then c.discLink p 1 else (c.netCount p 11 1).txOctets p (max 64 h.2)

/-! ### Gate lists (R383 to R385) -/

/-- The gates follow the running list, and NET_GCL_BASE its last cycle start. -/
def Chip.gclBoundary (c : Chip) (p : Nat) : Chip :=
  let c := c.setNet p { c.net p with gates := c.gclGates p }
  if c.on (NET_GCL_CTL_ENABLE p) && (c.net p).cycleAt ≤ c.clock.n then
    c.wr (NET_GCL_BASE_SYSTIME p) ((c.clock.n - c.gclPos p) % 2 ^ 32)
  else c

/-- The first instant `a + k * cycle`, for integer k, at or after an instant. -/
def firstAfter (a cycle t : Nat) : Nat :=
  if t ≤ a then a - (a - t) / cycle * cycle else a + (t - a + cycle - 1) / cycle * cycle

/-- The start instant S of a list accepted now (R383). -/
def Chip.gclStart (c : Chip) (p base cycle : Nat) : Nat :=
  let soon := c.clock.n + 1000000
  if c.on (NET_GCL_CTL_ENABLE p) then firstAfter (c.net p).cycleAt (max 1 (c.rd (NET_GCL_CYCLE_CYCLE p))) (max base soon)
  else if cycle = 0 then (if soon ≤ base then base else soon + Config.gclDelay base c.clock.n % 1999000001)
  else firstAfter base cycle soon

/-- A gate list waits in the shadow: S in two words, then the request's words (R385). -/
def Chip.applyGcl (c : Chip) (p : Nat) (ws : List Nat) : Chip :=
  let s := ws.getD 0 0 + ws.getD 1 0 * 2 ^ 32
  let w := ws.getD 2 0
  let c := ((c.set (NET_GCL_CTL_PENDING p)).wr (NET_GCL_CTL_SHADOW_ENABLE p) (bits w 1 1)).wr (NET_GCL_CTL_SHADOW_ENTRIES p) (bits w 2 9)
  let c := (c.put (NET_GCL_START p) (s % 2 ^ 32)).put (NET_GCL_SHADOW_CYCLE p) (ws.getD 3 0)
  let c := c.each (List.range (bits w 2 9)) fun c e => c.put (NET_GCL_SHADOW p e) (ws.getD (6 + e) 0)
  c.setNet p { c.net p with startAt := s }

/-- At S the pending list replaces the running one (R385). -/
def Chip.gclTaken (c : Chip) (p : Nat) : Chip :=
  if c.on (NET_GCL_CTL_PENDING p) && (c.net p).startAt ≤ c.clock.n then
    let s := (c.net p).startAt
    let l := c.gclShadow p
    let c := ((c.wrB (NET_GCL_CTL_ENABLE p) (c.on (NET_GCL_CTL_SHADOW_ENABLE p))).wr (NET_GCL_CTL_ENTRIES p) l.length).clr
      (NET_GCL_CTL_PENDING p)
    let c := (c.put (NET_GCL_CYCLE p) (c.get (NET_GCL_SHADOW_CYCLE p))).each (List.range l.length) fun c e =>
      c.put (NET_GCL p e) (l.getD e 0)
    let c := (c.setNet p { c.net p with cycleAt := s }).gclBoundary p
    (c.set (NET_PORT_STATUS_GCL_TAKEN p)).post 0x0A 0x0005 p s
  else c

/-- The journaled lists load when the servo first reports lock (R385). -/
def Chip.gclReload (c : Chip) : Chip :=
  c.each [0, 1] fun c p =>
    if !(c.net p).due then c
    else
      let c := c.setNet p { c.net p with due := false }
      match c.fw.journal.find? fun j => j.change.kind == .gcl && j.change.idx == p with
      | none => c
      | some j =>
        let ws := j.change.ws.drop 2
        let s := c.gclStart p (ws.getD 2 0 + ws.getD 3 0 * 2 ^ 32) (ws.getD 1 0)
        c.applyGcl p ([s % 2 ^ 32, s / 2 ^ 32] ++ ws)

/-- The lane directions of a network port. -/
def netDoms (p : Nat) : List Nat := (List.range 4).map (fun i => domNetRx (4 * p + i)) ++ (List.range 4).map fun i => domNetTx (4 * p + i)

/-- A port's MAC enters STANDBY: its eight lane directions are off (R101), their REQ kept. -/
def Chip.netLanesOff (c : Chip) (p : Nat) : Chip :=
  c.each (netDoms p) fun c n =>
    let c := (c.wr (PWR_DOM_CTL_CUR n) stOff).clr (PWR_DOM_CTL_BUSY n)
    { c with pwr := { c.pwr with goal := tput 4 c.pwr.goal n 4 } }

/-- The port settings take effect (R389): a change of PMD or AN_EN trains again. STANDBY = 1 puts the MAC domain into STANDBY and
its lane directions off (R101, R388), within the request (log entry 83). -/
def Chip.applyNetPort (c : Chip) (p : Nat) (ws : List Nat) : Chip :=
  let w := ws.getD 0 0
  let cfg := bits w 2 3 + bits w 5 6 * 2 ^ 3 + bits w 11 14 * 2 ^ 9
  let retrain := bits cfg 0 3 != bits (c.get (NET_PORT_CFG p)) 0 3
  let c := ((c.put (NET_PORT_CFG p) cfg).put (NET_MAC_LO p) (ws.getD 1 0)).put (NET_MAC_HI p) (ws.getD 2 0 % 2 ^ 16)
  let c := c.when (retrain && 2 < c.npState p) fun c => (c.netDown p 4).npTo p (c.npStart p)
  if bit w 1 then
    (if c.dom (domMac p) = stActive then (c.domForce (domMac p) stLow).netLanesOff p else c).netRefresh p
  else if c.dom (domMac p) = stLow then c.domReq (domMac p) stActive
  else c

/-! ### Requests -/

/-- A flow is joined or sending on a port (R96, R388). -/
def Chip.flowOn (c : Chip) (p : Nat) : Bool :=
  (c.joined.any fun f => (c.legsOf f).any fun l => l.2 == p)
    || (List.range 112).any fun s => c.on (NET_TXF_CTL_ENABLE s) && (c.on (NET_TXF_CTL_DUAL s) || c.rd (NET_TXF_CTL_PORT s) == p)

/-- The checks of port settings (R390). A MAC in STANDBY, whose lanes are off for as long (R101), may be woken (R388, log entry 16). -/
def chkSetPort (x : Ctx) (r : Req) : Check :=
  let w := r.w 0
  let p := bits w 0 1
  let low := x.c.dom (domMac p) == stLow
  let on := fun d => if low then x.c.rd (PWR_DOM_CTL_REQ d) == stActive else x.c.domOn d
  let usable := (low || x.c.domOn (domMac p)) && (List.range 4).all fun i => on (domNetRx (4 * p + i)) && on (domNetTx (4 * p + i))
  require (r.lenIs 3) stBadLength <|
  require (r.epoch == 0 && (bits w 2 2 == 1 || bits w 2 2 == 2) && 1518 ≤ bits w 11 14 && bits w 11 14 ≤ 9216
    && bits w 25 7 == 0 && bits (r.w 2) 16 16 == 0 && !(bit (r.w 1) 0)) stBadArg <|
  require (!(bits w 2 3 != bits (x.c.get (NET_PORT_CFG p)) 0 3 || bit w 1) || !(x.c.flowOn p)) stDenied <|
  require (bit w 1 || usable) stDenied <|
  nowPlan [⟨.netPort, p, [w, r.w 1, r.w 2]⟩]

/-- The checks of a gate list (R383, R384). -/
def chkSetGcl (x : Ctx) (r : Req) : Check :=
  let w := r.w 0
  let p := bits w 0 1
  let en := bit w 1
  let n := bits w 2 9
  let cyc := r.w 1
  let es := r.ws 4 n
  let s := x.c.gclStart p (r.w 2 + r.w 3 * 2 ^ 32) cyc
  let soon := x.c.clock.n + 1000000
  require (r.lenIs (n + 4)) stBadLength <|
  require (r.epoch == 0 && bits w 11 21 == 0
    && (if en then 1 ≤ n && n ≤ 256 && cyc % 8 == 0 && 8 ≤ cyc && cyc ≤ 1000000000 else n == 0 && cyc == 0)
    && es.all (fun e => bits e 8 24 != 0) && (es.map entryNs).sum == cyc && s ≤ x.c.clock.n + 2000000000) stBadArg <|
  require (!(x.c.on (NET_GCL_CTL_PENDING p)) || soon ≤ (x.c.net p).startAt) stDenied <|
  nowPlan [⟨.gcl, p, [s % 2 ^ 32, s / 2 ^ 32] ++ r.ws 0 (n + 4)⟩] [s % 2 ^ 32, s / 2 ^ 32]

/-- NET_GET_STATS (R391). -/
def chkNetStats (x : Ctx) (r : Req) : Check :=
  let p := r.w 0
  require (r.lenIs 1) stBadLength <|
  require (p < 2) stBadArg <|
  okPlan ([x.c.get NET_STATUS, x.c.status (NET_PORT_STATUS p), x.c.get (NET_PORT_STAT p), x.c.get (NET_GCL_CTL p),
    x.c.get (NET_GCL_START p)] ++ (List.range 19).map fun k => x.c.get (NET_CNT p k))

end Sys2Proof.Machine
end

