-- ==== Sys2Proof/Machine/FlowOps.lean ====
section
/-! DEFINITION. Operations of the ST 2110 flows (chapter 13): anchors and RTP timestamps, receive mapping and playout, legs,
senders, and the checks of the requests of the block. -/

namespace Sys2Proof.Machine

def Chip.flow (c : Chip) (f : Nat) : Flow := tget {} c.flows f
def Chip.setFlow (c : Chip) (f : Nat) (x : Flow) : Chip := { c with flows := tput {} c.flows f x }
def Chip.sender (c : Chip) (s : Nat) : Sender := tget {} c.senders s
def Chip.setSender (c : Chip) (s : Nat) (x : Sender) : Chip := { c with senders := tput {} c.senders s x }

/-- The kinds of flow by index: 0 video, 1 audio, 2 ancillary (R396). -/
def flowKind (f : Nat) : Nat := if f < 32 then 0 else if f < 96 then 1 else 2

/-- A flow counter advanced: it wraps, and its bit 31 becoming 1 sets its half-range bit (R423). -/
def Chip.rxfCount (c : Chip) (f k n : Nat) : Chip :=
  let old := c.get (NET_RXF_CNT f k)
  (c.put (NET_RXF_CNT f k) ((old + n) % 2 ^ 32)).when (!(bit old 31) && bit ((old + n) % 2 ^ 32) 31)
    (·.setBit (NET_RXF_STAT_HALF f) k)
def Chip.txfCount (c : Chip) (s k n : Nat) : Chip :=
  let old := c.get (NET_TXF_CNT s k)
  (c.put (NET_TXF_CNT s k) ((old + n) % 2 ^ 32)).when (!(bit old 31) && bit ((old + n) % 2 ^ 32) 31)
    (·.setBit (NET_TXF_STAT_HALF s) k)

/-! ### Anchors and timestamps (R403, R404, R468) -/

/-- The plane of the audio engine (R469). -/
def Chip.enginePlane (c : Chip) : Nat := c.rd AUD_CFG_ENGINE_PLANE

/-- A plane has its anchor. -/
def Chip.anchored (c : Chip) (q : Nat) : Bool := c.on (NET_ANCHOR_CTL_VALID q)

/-- The anchor of a plane is set to an epoch and its two media clock values (R403). -/
def Chip.applyAnchor (c : Chip) (q : Nat) (ws : List Nat) : Chip :=
  let c := ((c.put (NET_ANCHOR_EPOCH q) (ws.getD 0 0)).put (NET_ANCHOR_RTP90 q) (ws.getD 1 0)).put (NET_ANCHOR_RTP48 q) (ws.getD 2 0)
  let e := (((c.epoch64 q : Nat) : Int) + toSigned 32 (sub32 (ws.getD 0 0) (c.epochNow q))).toNat
  let c := (c.set (NET_ANCHOR_CTL_VALID q)).setPlane q { c.plane q with anchorAt := e }
  (c.when (c.enginePlane == q) (·.set AUD_CFG_ANCHORED)).post 0x0B 0x0007 q (ws.getD 0 0)

/-- The anchor of a plane is lost (R403). -/
def Chip.dropAnchor (c : Chip) (q : Nat) : Chip :=
  (c.clr (NET_ANCHOR_CTL_VALID q)).when (c.enginePlane == q) (·.clr AUD_CFG_ANCHORED)

/-- The anchor words of the frame boundary that has just passed: the epoch, and the media clocks at its PTP time moved to the
nearest frame alignment point of the plane format. -/
def Chip.anchorWords (c : Chip) (q : Nat) : List Nat :=
  let per := max 1 (c.planePeriod q)
  let t := (3 * c.clock.n + per / 2) / per * per
  let clk := fun r => (2 * t * r + sec 1) / (2 * sec 1) % 2 ^ 32
  [c.epochNow q, clk 90000, clk 48000]

/-- A media clock of `r` Hz at an instant `u` units after the boundary of epoch 0 of a plane (R404). -/
def Chip.mediaClock (c : Chip) (q r base : Nat) (u : Int) : Nat :=
  ofSigned 32 ((base : Nat) + (u - ((c.plane q).anchorAt * c.planePeriod q : Nat)) * (r : Nat) / (sec 1 : Nat))

/-- RTP90 of frame F of a format on a plane. -/
def Chip.rtp90 (c : Chip) (q f fr : Nat) : Nat :=
  c.mediaClock q 90000 (c.get (NET_ANCHOR_RTP90 q)) (fr * (fmt f).period : Nat)

/-- The time since the boundary of epoch 0 of a plane, by its epochs, in units of 1/3 ns. -/
def Chip.planeClock (c : Chip) (q : Nat) : Nat :=
  c.epoch64 q * c.planePeriod q + (c.planePeriod q - ((c.plane q).nextB - c.now))

/-- The 48 kHz sample index of a plane now (R468). -/
def Chip.sampleNow (c : Chip) (q : Nat) : Nat :=
  if c.anchored q then c.mediaClock q 48000 (c.get (NET_ANCHOR_RTP48 q)) (c.planeClock q : Nat)
  else c.planeClock q * 48000 / sec 1 % 2 ^ 32

/-! ### Receiving (R405 to R410) -/

/-- The video flow that carries a flow's frames: itself, or the bound one of an ancillary flow. -/
def Chip.videoOf (c : Chip) (f : Nat) : Nat := if flowKind f = 2 then c.rd (NET_RXF_AUX_BOUND f) else f

/-- The frame a timestamp maps to, with T - RTP90(F): the nearest of the frames around it (R405). -/
def Chip.mapFrame (c : Chip) (q f : Nat) (t : Nat) (field2 : Bool) : Nat × Int :=
  let per := (fmt f).period
  let half : Int := if field2 then (per * 90000 / (2 * sec 1) : Nat) else 0
  let off := fun fr => toSigned 32 (ofSigned 32 ((t : Int) - half - (c.rtp90 q f fr : Nat)))
  let g := c.frameNow q f
  let k := ((g : Int) + off g * (sec 1 : Nat) / (90000 * max 1 per : Nat)).toNat
  let better := fun a b => if (off b).natAbs < (off a).natAbs then b else a
  let fr := better (better k (k + 1)) (k - 1)
  (fr, off fr)

/-- The instant a plane begins a frame of a format. -/
def Chip.frameStart (c : Chip) (q f fr : Nat) : Int :=
  ((c.plane q).nextB : Int) + (fr * (fmt f).period : Nat) - ((c.epoch64 q + 1) * c.planePeriod q : Nat)

/-- The instant after which a packet whose first line is `line` of frame F is late (R406): 1 line before that line is released,
LAT frames later, at the alignment point of 4 lines (R165). -/
def Chip.mediaDeadline (c : Chip) (q f lat fr line : Nat) : Int :=
  c.frameStart q f (fr + lat) + ((line + 2) * (fmt f).period / max 1 (fmt f).lines : Nat)

/-- The frame being presented on a NET_IN: that of its plane from its presentation instant on (R197, R406). -/
def Chip.framePresented (c : Chip) (s q f : Nat) : Nat :=
  let g := c.frameNow q f
  if (c.now : Int) < c.frameStart q f g + (c.presentsAfter s * (fmt f).period / (1024 * max 1 (fmt f).lines) : Nat) then g - 1 else g

/-- The leg of a flow runs. -/
def Chip.legRuns (c : Chip) (f leg : Nat) : Bool := c.on (NET_RXF_CTL_JOINED f) && (leg == 0 || c.on (NET_RXF_CTL_DUAL f))

def legUp (f leg : Nat) : Fld := (NET_RXF_STAT f).fld (3 + leg) 1

/-- The port a flow reports on. -/
def Chip.rxPort (c : Chip) (f : Nat) : Nat := flowPort (c.get (NET_RXF_CTL f))
def Chip.txPort (c : Chip) (s : Nat) : Nat := flowPort (c.get (NET_TXF_CTL s))

/-- A packet arrives on a leg: it is counted, and a leg that was down is up again (R410). -/
def Chip.legHeard (c : Chip) (f leg : Nat) : Chip :=
  let x := c.flow f
  let was := if leg = 0 then x.lost.1 else x.lost.2
  let c := ((c.rxfCount f leg 1).set (legUp f leg)).setFlow f { x with
    legAt := if leg = 0 then (c.now, x.legAt.2) else (x.legAt.1, c.now)
    lost := if leg = 0 then (false, x.lost.2) else (x.lost.1, false) }
  c.when was (·.post 0x0B 0x0004 f leg)

/-- A leg without a packet for 10 ms, counted from its join, is down (R410); an audio or ancillary flow with no leg up is lost. -/
def Chip.legLost (c : Chip) (f leg : Nat) : Chip :=
  let x := c.flow f
  let at_ := if leg = 0 then x.legAt.1 else x.legAt.2
  if c.legRuns f leg && !(if leg = 0 then x.lost.1 else x.lost.2) && decide (at_ + ms 10 ≤ c.now) then
    let c := (((c.clr (legUp f leg)).set (NET_RXF_STAT_LEG_LOST_SEEN f)).set (NET_FLOW_STATUS_LEG_LOST (c.rxPort f))).setFlow f
      { x with lost := if leg = 0 then (true, x.lost.2) else (x.lost.1, true) }
    let c := c.when (flowKind f != 0 && !(c.on (legUp f 0)) && !(c.on (legUp f 1))) (·.wr (NET_RXF_STAT_STATE f) 3)
    c.post 0x0B 0x0003 f leg
  else c

/-- A down leg is up again at its next packet (R410). -/
def Chip.legRestored (c : Chip) (f leg : Nat) : Chip :=
  let x := c.flow f
  if c.legRuns f leg && (if leg = 0 then x.lost.1 else x.lost.2) then
    let c := c.setFlow f { x with lost := if leg = 0 then (false, x.lost.2) else (x.lost.1, false)
                                  legAt := if leg = 0 then (c.now, x.legAt.2) else (x.legAt.1, c.now) }
    (c.set (legUp f leg)).post 0x0B 0x0004 f leg
  else c

def Chip.countBad (c : Chip) (f : Nat) : Chip := c.rxfCount f 6 1
def Chip.countLate (c : Chip) (f : Nat) : Chip :=
  ((c.rxfCount f 4 1).set (NET_RXF_STAT_LATE_SEEN f)).set (NET_FLOW_STATUS_LATE (c.rxPort f))
def Chip.countEarly (c : Chip) (f : Nat) : Chip := (c.rxfCount f 5 1).set (NET_RXF_STAT_EARLY_SEEN f)
def Chip.countMissing (c : Chip) (f n : Nat) : Chip := (c.rxfCount f 3 n).when (n != 0) (·.set (NET_RXF_STAT_MISSING_SEEN f))

/-- An off-grid packet: counted, flagged, and OFF_GRID posted at most once per second (R405). -/
def Chip.offGrid (c : Chip) (f : Nat) : Chip :=
  let x := c.flow f
  let c := ((c.countBad f).set (NET_RXF_STAT_OFF_GRID_SEEN f)).set (NET_FLOW_STATUS_OFF_GRID (c.rxPort f))
  let due := match x.gridAt with | none => true | some t => decide (t + sec 1 ≤ c.now)
  c.when due fun c => (c.setFlow f { x with gridAt := some c.now }).post 0x0B 0x0005 f (c.get (NET_RXF_OFFSET f))

/-- The frame stands in the list of mapped frames: kept, replaced by one of smaller difference (on a tie of smaller timestamp), or
the other one kept (R421). -/
def mapIn (l : List (Nat × Int × Nat)) (fr : Nat) (off : Int) (t : Nat) : List (Nat × Int × Nat) × Bool :=
  match l.find? fun e => e.1 == fr with
  | none => ((fr, off, t) :: l, true)
  | some (_, o, u) =>
    if u = t then (l, true)
    else if off.natAbs < o.natAbs ∨ (off.natAbs = o.natAbs ∧ t < u) then ((fr, off, t) :: l.filter fun e => e.1 != fr, true)
    else (l, false)

/-- The packets of an ancillary RTP packet are inserted, each at its position once (R402). -/
def Chip.insertAnc (c : Chip) (f fr : Nat) (l : List (Bool × Nat)) : Chip :=
  c.each l fun c (there, pos) =>
    let x := c.flow f
    if !there || x.taken.contains (fr, pos) then c.countBad f
    else c.setFlow f { x with taken := (fr, pos) :: x.taken }

/-- A video or ancillary packet arrives (R405, R406, R409). -/
def Chip.mediaPacket (c : Chip) (f leg : Nat) (p : MediaPacket) : Chip :=
  let v := c.videoOf f
  let q := c.srcPlane (240 + v)
  let fc := c.rd (NET_RXF_CTL_FORMAT v)
  let lat := c.rd (NET_RXF_CTL_LAT v)
  if !(c.legRuns f leg) || flowKind f == 1 then c
  else
    let c := c.legHeard f leg
    if !p.good then c.countBad f
    else if !(c.anchored q) then c
    else
      let (fr, off) := c.mapFrame q fc p.rtp.toNat p.field2
      if 4 * off.natAbs * sec 1 > 90000 * (fmt fc).period then c.offGrid f
      else
        let c := c.wrI (NET_RXF_OFFSET_OFFSET f) off
        if ((c.flow f).seqs.any fun e => e.1 == p.seq) then c.rxfCount f 2 1
        else if c.mediaDeadline q fc lat fr p.line < c.now then c.countLate f
        else if c.framePresented (240 + v) q fc + 1 < fr then c.countEarly f
        else
          let x := c.flow f
          let (frames, keep) := mapIn x.frames fr off p.rtp.toNat
          let c := c.setFlow f { x with frames := frames, seqs := if keep then (p.seq, fr) :: x.seqs else x.seqs }
          if flowKind f = 2 then
            (c.insertAnc f fr p.anc).when (c.rd (NET_RXF_STAT_STATE f) != 2) (·.flowReceiving f)
          else c

/-- The sequence numbers up to the highest that belongs to a frame or sample at or before `due` are accounted: those that never
arrived are missing (R409). -/
def Chip.account (c : Chip) (f : Nat) (due : Nat → Bool) : Chip :=
  let x := c.flow f
  let gone := (x.seqs.filter fun e => due e.2).map Prod.fst
  match gone with
  | [] => c
  | s :: rest =>
    let hi := rest.foldl max s
    let lo := match x.upTo with | some u => u + 1 | none => rest.foldl min s
    let missing := hi + 1 - lo - (x.seqs.filter fun e => lo ≤ e.1 && e.1 ≤ hi).length
    (c.setFlow f { x with seqs := x.seqs.filter (fun e => hi < e.1), upTo := some hi }).countMissing f missing

/-- The playout of a video flow presents a frame (R406, R407): the received frame that maps to it, if any; two complete frames in a
row make the source ready to become valid. -/
def Chip.flowPresent (c : Chip) (f : Nat) (clean : Bool) : Chip :=
  if !(c.on (NET_RXF_CTL_JOINED f)) || flowKind f != 0 then c
  else
    let s := 240 + f
    let g := c.frameNow (c.srcPlane s) (c.rd (NET_RXF_CTL_FORMAT f))
    let fr := g - c.rd (NET_RXF_CTL_LAT f)
    let x := c.flow f
    let there := c.anchored (c.srcPlane s) && x.frames.any fun e => e.1 == fr
    let c := (c.setFlow f { x with frames := x.frames.filter fun e => fr < e.1 }).account f (· ≤ fr)
    let c := c.each ((List.range 112).filter fun a => flowKind a == 2 && c.on (NET_RXF_CTL_JOINED a) && c.rd (NET_RXF_AUX_BOUND a) == f)
      fun c a => (c.setFlow a { c.flow a with
        taken := (c.flow a).taken.filter (fun e => fr < e.1), frames := (c.flow a).frames.filter fun e => fr < e.1 }).account a (· ≤ fr)
    let y := c.src s
    let c := c.setSrc s { y with
      mapped := there
      good := if there && clean && !(c.srcValid s) then min 2 (y.good + 1) else 0
      bad := if clean then 0 else y.bad }
    c.judgeSrc s

/-! ### Audio packets (R408) -/

/-- The samples a packet carries (R400). -/
def packetSamples (aux : Nat) : Nat := if bit aux 6 then 6 else 48

/-- The least arrival margin of a second (NET_RXF_OFFSET). -/
def Chip.marginSeen (c : Chip) (f : Nat) (m : Int) : Chip :=
  let x := c.flow f
  if x.marginAt + sec 1 ≤ c.now then
    (match x.margin with | some v => c.wrI (NET_RXF_OFFSET_OFFSET f) v | none => c).setFlow f
      { x with marginAt := c.now, margin := some m }
  else c.setFlow f { x with margin := some (match x.margin with | some v => min v m | none => m) }

/-- An audio packet arrives: buffered for its sample index, or dropped (R401, R408, R409). -/
def Chip.audioPacket (c : Chip) (f leg : Nat) (p : AudioPacket) : Chip :=
  let q := c.enginePlane
  if !(c.legRuns f leg) || flowKind f != 1 then c
  else
    let c := c.legHeard f leg
    if !p.good then c.countBad f
    else if !(c.anchored q) then c
    else if ((c.flow f).seqs.any fun e => e.1 == p.seq) then c.rxfCount f 2 1
    else
      let now := c.sampleNow q
      let at_ := (p.rtp.toNat + c.rd (NET_RXF_AUX_ALAT f)) % 2 ^ 32
      let m := toSigned 32 (sub32 at_ now)
      let c := c.when (p.nonPcm && c.on (NET_RXF_AUX_AES3 f)) (·.set (NET_RXF_STAT_NON_PCM f))
      let c := c.marginSeen f m
      if at_ / 48 * 48 ≤ now ∧ m < 48 then c
      else if (c.rd (NET_RXF_AUX_ALAT f) + 960 : Nat) < m then c.countEarly f
      else
        let x := c.flow f
        let c := (c.setFlow f { x with seqs := (p.seq, at_) :: x.seqs }).account f fun a => toSigned 32 (sub32 a now) < 0
        c.when (c.rd (NET_RXF_STAT_STATE f) != 2) (·.flowReceiving f)

/-- A packet that has not arrived when its engine block starts (R408): late, and its sequence number missing (R409). -/
def Chip.audioLate (c : Chip) (f seq : Nat) : Chip :=
  let x := c.flow f
  if c.on (NET_RXF_CTL_JOINED f) && flowKind f == 1 && !(x.seqs.any fun e => e.1 == seq)
      && (match x.upTo with | some u => decide (u < seq) | none => true) then
    let x' := { x with upTo := some seq, seqs := x.seqs.filter fun e => seq < e.1 }
    ((c.setFlow f x').countLate f).countMissing f 1
  else c

/-! ### Channel bases (R473) -/

/-- The lowest free run of `n` channels beside the runs taken. -/
def lowestRun (taken : List (Nat × Nat)) (n : Nat) : Option Nat :=
  (0 :: taken.map fun t => t.1 + t.2).foldl (fun best b =>
    if b + n ≤ 1024 && taken.all (fun t => t.1 + t.2 ≤ b || b + n ≤ t.1) then
      (match best with | some v => some (min v b) | none => some b)
    else best) none

/-- The channels of a flow's AUX word. -/
def channelsOf (aux : Nat) : Nat := bits aux 0 6 + 1

/-- The runs of channels assigned to receive flows and to senders. -/
def Chip.rxRuns (c : Chip) : List (Nat × Nat) :=
  ((List.range 64).filter fun i => c.on (AUD_RXF_BASE_VALID i)).map fun i => (c.rd (AUD_RXF_BASE_BASE i), channelsOf (c.get (NET_RXF_AUX (32 + i))))
def Chip.txRuns (c : Chip) : List (Nat × Nat) :=
  ((List.range 64).filter fun i => c.on (AUD_TXF_BASE_VALID i)).map fun i => (c.rd (AUD_TXF_BASE_BASE i), channelsOf (c.get (NET_TXF_AUX (32 + i))))

/-! ### Joins, leaves and senders -/

/-- A join takes effect (R415, R473). -/
def Chip.applyJoin (c : Chip) (f : Nat) (ws : List Nat) : Chip :=
  let w := ws.getD 0 0
  let aux := ws.getD 1 0
  let v := bits aux 9 5
  let lat := if flowKind f = 2 then c.rd (NET_RXF_CTL_LAT v) else bits w 10 4
  let run := lowestRun c.rxRuns (channelsOf aux)
  let c := c.put (NET_RXF_CTL f) (1 + bits w 7 1 * 2 + bits w 8 1 * 4 + bits w 9 1 * 8 + lat * 16 + bits w 14 5 * 256)
  let c := c.put (NET_RXF_AUX f) aux
  let c := c.each [0, 1] fun c leg =>
    ((c.put (NET_RXF_LEG_ADDR f leg) (ws.getD (2 + 3 * leg) 0)).put (NET_RXF_LEG_SRC f leg) (ws.getD (3 + 3 * leg) 0)).put
      (NET_RXF_LEG_PORT f leg) (ws.getD (4 + 3 * leg) 0)
  let c := ((c.wr (NET_RXF_STAT_STATE f) 1).clr (legUp f 0)).clr (legUp f 1)
  let c := c.setFlow f { legAt := (c.now, c.now), marginAt := c.now, joinedAt := c.now }
  let c := c.when (flowKind f == 1) fun c => match run with
    | some b => c.put (AUD_RXF_BASE (f - 32)) (b + 2 ^ 15)
    | none => c
  c.when (flowKind f == 0) fun c => (c.setSrc (240 + f) { c.src (240 + f) with mapped := false, good := 0, bad := 0 }).followClass (240 + f)
    |>.judgeSrc (240 + f)

/-- A leave takes effect (R417, R473). -/
def Chip.applyLeave (c : Chip) (f : Nat) : Chip :=
  let c := ((c.put (NET_RXF_CTL f) 0).put (NET_RXF_AUX f) 0).each [0, 1] fun c leg =>
    ((c.put (NET_RXF_LEG_ADDR f leg) 0).put (NET_RXF_LEG_SRC f leg) 0).put (NET_RXF_LEG_PORT f leg) 0
  let c := (((c.wr (NET_RXF_STAT_STATE f) 0).clr (legUp f 0)).clr (legUp f 1)).setFlow f {}
  let c := c.when (flowKind f == 1) (·.put (AUD_RXF_BASE (f - 32)) 0)
  c.when (flowKind f == 0) fun c => (c.followClass (240 + f)).judgeSrc (240 + f)

/-- The plane a sender counts epochs on (R418). -/
def Chip.senderPlane (c : Chip) (s aux : Nat) : Nat :=
  match flowKind s with
  | 0 => c.dstPlane (240 + s)
  | 1 => c.enginePlane
  | _ => c.dstPlane (240 + bits aux 9 5)

/-- A NET_OUT has words to send: it is routed, and has carried a format (R162). -/
def Chip.netOutSends (c : Chip) (s : Nat) : Bool := c.on (XPT_DST_CTL_ROUTED (240 + s)) && (c.dst (240 + s)).present != 0

/-- What a sender waits for is there (R413): its anchor, and for video and ancillary senders what their NET_OUT sends. -/
def Chip.senderReady (c : Chip) (s : Nat) : Bool :=
  let aux := c.get (NET_TXF_AUX s)
  c.anchored (c.senderPlane s aux) &&
    match flowKind s with
    | 0 => c.netOutSends s
    | 1 => true
    | _ => c.netOutSends (bits aux 9 5)

/-- A sender starts, or waits (R413). -/
def Chip.senderJudge (c : Chip) (s : Nat) : Chip :=
  if !(c.on (NET_TXF_CTL_ENABLE s)) then c
  else if c.senderReady s then
    if c.rd (NET_TXF_STAT_STATE s) = 2 then c
    else (c.wr (NET_TXF_STAT_STATE s) 2).post 0x0B 0x0006 s (c.epochNow (c.senderPlane s (c.get (NET_TXF_AUX s))))
  else c.wr (NET_TXF_STAT_STATE s) 1

/-- A sender setting takes (R413, R418, R473). -/
def Chip.applySender (c : Chip) (s : Nat) (ws : List Nat) : Chip :=
  let w := ws.getD 0 0
  let was := c.on (NET_TXF_CTL_ENABLE s)
  let run := lowestRun c.txRuns (channelsOf (ws.getD 1 0))
  let c := c.put (NET_TXF_CTL s) (bits w 7 13)
  let c := ((c.put (NET_TXF_AUX s) (ws.getD 1 0)).put (NET_TXF_HDR s) (ws.getD 2 0)).put (NET_TXF_SSRC s) (ws.getD 3 0)
  let c := c.each [0, 1] fun c leg =>
    ((c.put (NET_TXF_LEG_DST s leg) (ws.getD (4 + 3 * leg) 0)).put (NET_TXF_LEG_SRC s leg) (ws.getD (5 + 3 * leg) 0)).put
      (NET_TXF_LEG_PORTS s leg) (ws.getD (6 + 3 * leg) 0)
  if bit w 7 then
    let c := c.when (!was) fun c => (c.setSender s {}).wr (NET_TXF_STAT_STATE s) 1
    let c := c.when (flowKind s == 1 && !was) fun c => match run with
      | some b => c.put (AUD_TXF_BASE (s - 32)) (b + 2 ^ 15)
      | none => c
    c.when (flowKind s == 1) (·.senderJudge s)
  else
    ((c.wr (NET_TXF_STAT_STATE s) 0).setSender s {}).when (flowKind s == 1) (·.put (AUD_TXF_BASE (s - 32)) 0)

/-- The frame boundary of a plane: its senders begin to send (R413). -/
def Chip.sendersBegin (c : Chip) (q : Nat) : Chip :=
  c.each ((List.range 112).filter fun s => c.on (NET_TXF_CTL_ENABLE s) && c.senderPlane s (c.get (NET_TXF_AUX s)) == q)
    Chip.senderJudge

/-- The switching point of a NET_OUT: a sender whose route is gone stops (R413). -/
def Chip.senderSwitch (c : Chip) (d : Nat) : Chip :=
  if 240 ≤ d ∧ d < 272 ∧ !(c.on (XPT_DST_CTL_ROUTED d)) then
    c.each ((d - 240) :: ((List.range 112).filter fun s => flowKind s == 2 && c.rd (NET_TXF_AUX_BOUND s) == d - 240)) fun c s =>
      c.when (c.rd (NET_TXF_STAT_STATE s) == 2) (·.wr (NET_TXF_STAT_STATE s) 1)
  else c

/-- The active samples of a line and the active lines of a frame of a format. -/
def activeSize (f : Nat) : Nat × Nat :=
  if f = 1 then (720, 576) else if f = 2 then (720, 480) else if f ≤ 5 then (1280, 720) else if f ≤ 16 then (1920, 1080) else (3840, 2160)

/-- The packets and sample bytes of a field of a format (R399). -/
def fieldPackets (f : Nat) (bpm : Bool) : Nat × Nat :=
  let (w, h) := activeSize f
  let lines := if (fmt f).interlaced then h / 2 else h
  let line := w * 5 / 2
  if bpm then ((lines * line + 1259) / 1260, lines * line) else (lines * ((line + 1199) / 1200), lines * line)

/-- The spacing of a sender's packets in units of 1/3 ns (R411); an audio sender's packet time. -/
def Chip.trs (c : Chip) (s : Nat) : Nat :=
  match flowKind s with
  | 0 =>
    let f := c.rd (XPT_DST_CTL_FORMAT (240 + s))
    (fmt f).period / (if (fmt f).interlaced then 2 else 1) / max 1 (fieldPackets f (c.on (NET_TXF_CTL_PACKING s))).1
  | _ => if c.on (NET_TXF_AUX_PTIME s) then us 125 else ms 1

/-- A packet of a leg leaves (R404, R412, R413). -/
def Chip.packetRelease (c : Chip) (s leg slot : Nat) : Chip :=
  if c.rd (NET_TXF_STAT_STATE s) = 2 ∧ (leg = 0 ∨ c.on (NET_TXF_CTL_DUAL s)) ∧ slot ≤ c.now then
    let x := c.sender s
    let c := (c.setSender s (if leg = 0 then { x with seq0 := x.seq0 + 1 } else { x with seq1 := x.seq1 + 1 })).txfCount s leg 1
    if slot + c.trs s < c.now then
      ((c.txfCount s 2 1).set (NET_TXF_STAT_LATE_REL_SEEN s)).set (NET_FLOW_STATUS_LATE_RELEASE (c.txPort s))
    else c
  else c

/-- The ancillary packets of a field packed in order into at most 8 RTP packets of up to 1,400 bytes: the RTP packets used and the
packets dropped (R402). -/
def packAnc : List Nat → Nat → Nat → Nat → Nat × Nat
  | [], used, _, lost => (used, lost)
  | n :: rest, used, room, lost =>
    if n ≤ room then packAnc rest used (room - n) lost
    else if used < 8 ∧ n ≤ 1400 then packAnc rest (used + 1) (1400 - n) lost
    else packAnc rest used room (lost + 1)

/-- The ancillary packets of a field leave (R402). -/
def Chip.ancSend (c : Chip) (s : Nat) (sizes : List Nat) : Chip :=
  if flowKind s = 2 ∧ c.rd (NET_TXF_STAT_STATE s) = 2 then
    let (n, lost) := packAnc sizes 0 0 0
    let dual := c.on (NET_TXF_CTL_DUAL s)
    let x := c.sender s
    let c := (c.setSender s { seq0 := x.seq0 + n, seq1 := if dual then x.seq1 + n else x.seq1 }).txfCount s 0 n
    let c := c.when dual (·.txfCount s 1 n)
    (c.txfCount s 3 lost).when (lost != 0) (·.set (NET_TXF_STAT_ANC_OVER_SEEN s))
  else c

/-- The firmware sends a membership report for the joined legs of a port (R397). -/
def Chip.igmpReport (c : Chip) (p : Nat) : Chip :=
  if !c.ready then c
  else
    let groups := c.joined.flatMap fun f => ((c.legsOf f).filter fun l => l.2 == p).map fun l => (c.legAddr f l.1, c.legSrc f l.1)
    c.setNet p { c.net p with igmp := groups }

/-- The journaled senders of a plane enable at the first epoch at least 1 ms after its new anchor (R424). -/
def Chip.sendersResume (c : Chip) (q : Nat) : Chip :=
  if !(c.plane q).sendersDue then c
  else
    let c := c.setPlane q { c.plane q with sendersDue := false }
    match c.assignEpoch q 0 with
    | .error _ => c
    | .ok e =>
      let js := c.fw.journal.filter fun j => j.change.kind == .sender && bit (j.change.ws.getD 0 0) 7
        && c.senderPlane j.change.idx (j.change.ws.getD 1 0) == q && !(c.on (NET_TXF_CTL_ENABLE j.change.idx))
      { c with fw := { c.fw with queue := c.fw.queue ++ js.map fun j => ⟨q, e, j.change, j.chan, j.seq, false⟩ } }

/-! ### Admission (R414) -/

/-- A number of units of 1/3 ns that every frame period divides. -/
def periodLcm : Nat := 3003000000000

/-- The wire rate of a flow on each of its ports, in bits per `periodLcm` units: by its kind, format, AUX word and packing. -/
def wireRate (kind f aux : Nat) (bpm : Bool) : Nat :=
  match kind with
  | 0 =>
    let (n, b) := fieldPackets f bpm
    if (fmt f).period = 0 then 0
    else (b + 100 * n) * 8 * (if (fmt f).interlaced then 2 else 1) * (periodLcm / (fmt f).period)
  | 1 =>
    let n := packetSamples aux
    let bytes := if bit aux 7 then 4 else if bit aux 8 then 2 else 3
    (channelsOf aux * n * bytes + 100) * 8 * (48000 / n) * (periodLcm / sec 1)
  | _ => 20000000 * (periodLcm / sec 1)

/-- The capacity of a port and direction. -/
def wireCap : Nat := 190000000000 * (periodLcm / sec 1)

def onPort (dual : Bool) (port p : Nat) : Bool := dual || port == p

/-- The receive rate admitted on a port. -/
def Chip.rxRate (c : Chip) (p : Nat) : Nat :=
  (c.joined.map fun f => if onPort (c.on (NET_RXF_CTL_DUAL f)) (c.rd (NET_RXF_CTL_PORT f)) p then
    wireRate (flowKind f) (c.rd (NET_RXF_CTL_FORMAT f)) (c.get (NET_RXF_AUX f)) false else 0).sum

/-- The transmit rate of a port: a video sender at the format of its NET_OUT (log entry 17). -/
def Chip.txRate (c : Chip) (p : Nat) : Nat :=
  (((List.range 112).filter fun s => c.on (NET_TXF_CTL_ENABLE s)).map fun s =>
    if onPort (c.on (NET_TXF_CTL_DUAL s)) (c.rd (NET_TXF_CTL_PORT s)) p then
      wireRate (flowKind s) (c.rd (XPT_DST_CTL_FORMAT (240 + s))) (c.get (NET_TXF_AUX s)) (c.on (NET_TXF_CTL_PACKING s)) else 0).sum

/-- An IPv4 multicast group. -/
def isGroup (a : Nat) : Bool := bits a 28 4 == 14

/-- The audio fields of an AUX word are within R400. -/
def auxAudio (aux : Nat) : Bool := bit aux 6 || channelsOf aux ≤ 8

/-! ### Requests -/

/-- The checks of a join (R410, R415, R416). -/
def chkJoin (x : Ctx) (r : Req) : Check :=
  let c := x.c
  let w := r.w 0
  let aux := r.w 1
  let f := bits w 0 7
  let k := flowKind f
  let dual := bit w 7
  let fc := bits w 14 5
  let lat := bits w 10 4
  let v := bits aux 9 5
  let need := if bit w 9 then 51 else 11
  let covers := match k with
    | 0 => ms need ≤ lat * (fmt fc).period
    | 1 => 48 * need ≤ bits aux 16 12
    | _ => ms need ≤ c.rd (NET_RXF_CTL_LAT v) * (fmt (c.rd (NET_RXF_CTL_FORMAT v))).period
  let leg := fun i => isGroup (r.w (2 + 3 * i)) && bits (r.w (4 + 3 * i)) 23 9 == 0
  let ports := if dual then [0, 1] else [bits w 8 1]
  require (r.lenIs 8) stBadLength <|
  require (c.role != 2 && r.epoch == 0 && f < 112 && bits w 19 13 == 0 && bits aux 14 2 == 0 && bits aux 28 4 == 0
    && (if k = 0 then fmtOk fc && 1 ≤ lat && lat ≤ 8 else fc == 0 && lat == 0)
    && (k != 1 || (auxAudio aux && 96 ≤ bits aux 16 12 && bits aux 16 12 ≤ 2880))
    && (k != 2 || c.on (NET_RXF_CTL_JOINED v))
    && leg 0 && (if dual then leg 1 else (r.ws 5 3).all (· == 0)) && (!dual || covers)) stBadArg <|
  require (!(c.on (NET_RXF_CTL_JOINED f)) && ports.all c.netActive) stDenied <|
  require (ports.all (fun p => c.rxRate p + wireRate k fc aux false ≤ wireCap)
    && (k != 1 || (lowestRun c.rxRuns (channelsOf aux)).isSome)) stNoResource <|
  nowPlan [⟨.join, f, r.ws 0 8⟩]

/-- A shuffle entry, running or pending, names an engine input of a range. -/
def Chip.shufNames (c : Chip) (lo n : Nat) : Bool :=
  let names := fun v => bit v 14 && !(bit v 13) && lo ≤ bits v 0 13 && bits v 0 13 < lo + n
  (c.listed 0x508000 8192).any (fun e => names e.2)
    || c.fw.queue.any fun q => q.change.kind == .shuf && names (q.change.ws.getD 0 0)

/-- The checks of a leave (R417). -/
def chkLeave (x : Ctx) (r : Req) : Check :=
  let c := x.c
  let f := r.w 0
  let busy := match flowKind f with
    | 0 => c.srcUsed (240 + f)
        || (List.range 112).any fun a => flowKind a == 2 && c.on (NET_RXF_CTL_JOINED a) && c.rd (NET_RXF_AUX_BOUND a) == f
    | 1 => c.on (AUD_RXF_BASE_VALID (f - 32))
        && c.shufNames (6144 + c.rd (AUD_RXF_BASE_BASE (f - 32))) (channelsOf (c.get (NET_RXF_AUX f)))
    | _ => false
  require (r.lenIs 1) stBadLength <|
  require (c.role != 2 && r.epoch == 0 && f < 112) stBadArg <|
  require (!busy) stDenied <|
  nowPlan [⟨.leave, f, [f]⟩]

/-- The checks of sender settings (R418, R419), on the chip the epoch finds. -/
def chkSender (x : Ctx) (r : Req) : Check :=
  let c := x.c
  let n := r.w 0
  let es := (List.range n).map fun i => r.ws (1 + 10 * i) 10
  let s := fun (e : List Nat) => bits (e.getD 0 0) 0 7
  let en := fun (e : List Nat) => bit (e.getD 0 0) 7
  let aux := fun (e : List Nat) => if en e then e.getD 1 0 else c.get (NET_TXF_AUX (s e))
  let p := match es.head? with | some e => c.senderPlane (s e) (aux e) | none => 0
  let at_ := x.atEpoch p r.epoch
  let args := fun (e : List Nat) =>
    s e < 112 && bits (e.getD 0 0) 20 12 == 0 && c.senderPlane (s e) (aux e) == p
      && (if en e then
            bits (e.getD 1 0) 14 18 == 0 && bits (e.getD 2 0) 7 9 == 0 && (flowKind (s e) != 1 || auxAudio (e.getD 1 0))
              && isGroup (e.getD 4 0) && (!(bit (e.getD 0 0) 8) || isGroup (e.getD 7 0))
          else bits (e.getD 0 0) 8 12 == 0 && (e.drop 1).all (· == 0))
  let off := fun (e : List Nat) =>
    en e || flowKind (s e) != 0
      || (!(at_.on (XPT_DST_CTL_ROUTED (240 + s e)))
          && !((List.range 112).any fun a => flowKind a == 2 && at_.on (NET_TXF_CTL_ENABLE a) && at_.rd (NET_TXF_AUX_BOUND a) == s e
                && !(es.any fun b => s b == a && !(en b))))
  let later := fun e (b : List Nat) => !(en b) && flowKind (s b) == 0
    && c.fw.queue.any fun q => q.change.kind == .route && q.change.idx == 240 + s b && q.plane == p && c.epochAt p e < c.epochAt p q.epoch
  let after := es.foldl (fun (a : Chip) e => a.applySender (s e) e) at_
  require (r.lenIs (10 * n + 1)) stBadLength <|
  require (c.role != 2 && 1 ≤ n && n ≤ 16 && nodup (es.map s) && es.all args) stBadArg <|
  withEpoch c p r.epoch fun e =>
  require (es.all fun b => off b && !(later e b)) stDenied <|
  require ([0, 1].all (fun q => after.txRate q ≤ wireCap || after.txRate q ≤ at_.txRate q)
    && es.all (fun b => flowKind (s b) != 1 || !(en b) || after.on (AUD_TXF_BASE_VALID (s b - 32)))) stNoResource <|
  pendPlan r p e (es.map fun b => ⟨.sender, s b, b⟩)

/-- FLOW_GET_STATUS (R420). -/
def chkFlowStatus (x : Ctx) (r : Req) : Check :=
  let c := x.c
  let a := r.w 1
  let n := r.w 2
  require (r.lenIs 3) stBadLength <|
  match r.w 0 with
  | 0 =>
    require (1 ≤ n && n ≤ 64 && a + n ≤ 112) stBadArg <|
    okPlan ((List.range n).flatMap fun i =>
      [c.get (NET_RXF_CTL (a + i)), c.get (NET_RXF_STAT (a + i)), c.get (NET_RXF_OFFSET (a + i))]
        ++ (List.range 7).map fun k => c.get (NET_RXF_CNT (a + i) k))
  | 1 =>
    require (1 ≤ n && n ≤ 112 && a + n ≤ 112) stBadArg <|
    okPlan ((List.range n).flatMap fun i =>
      [c.get (NET_TXF_CTL (a + i)), c.get (NET_TXF_STAT (a + i))] ++ (List.range 4).map fun k => c.get (NET_TXF_CNT (a + i) k))
  | 2 =>
    require (n == 0 && a < 112) stBadArg <|
    okPlan ([0, 1].flatMap fun q => [c.get (NET_ANCHOR_EPOCH q), c.get (NET_ANCHOR_RTP90 q), c.get (NET_ANCHOR_RTP48 q), c.get (NET_ANCHOR_CTL q)])
  | _ => .error stBadArg

end Sys2Proof.Machine
end

