-- ==== Sys2Proof/Machine/PtpOps.lean ====
section
/-! DEFINITION. Operations of PTP (chapter 14): the event records, master selection and the servo, and the checks of the requests of
the block. -/

namespace Sys2Proof.Machine

def Chip.ptpPort (c : Chip) (p : Nat) : PtpPort := c.ptp.ports.getD p {}
def Chip.setPtpPort (c : Chip) (p : Nat) (x : PtpPort) : Chip := { c with ptp := { c.ptp with ports := putAt 2 {} c.ptp.ports p x } }

/-! ### Records (R437 to R439) -/

/-- The head and fill registers of a port's records. -/
def Chip.recShow (c : Chip) (p : Nat) : Chip :=
  let x := c.ptpPort p
  let c := c.each (List.range 4) fun c w =>
    (c.put (PTP_RXQ_HEAD p w) ((x.rxq.headD []).getD w 0)).put (PTP_TXR_HEAD p w) ((x.txr.headD []).getD w 0)
  (c.wr (PTP_PORT_STAT_RXQ_FILL p) x.rxq.length).wr (PTP_PORT_STAT_TXR_FILL p) x.txr.length

/-- A stamp: N at the timestamp point, within 4 ns (R430). -/
def Chip.stamp (c : Chip) (err : Nat) : Nat := c.clock.n + err - 4

/-- An entry of a record (R438). -/
def recEntry (stamp seq domain type id num : Nat) : List Nat :=
  [stamp % 2 ^ 32, seq + domain * 2 ^ 16 + type * 2 ^ 24, bits id 32 32, num + bits stamp 32 16 * 2 ^ 16]

/-- An overflow bit of a port is set with the bit of PTP_STATUS; PTP_REC_OVF is posted when it was clear (R439). -/
def Chip.recOvf (c : Chip) (p kind : Nat) (port all : Fld) : Chip :=
  let was := c.on port
  ((c.set port).set all).when (!was) (·.post 0x03 0x0006 p kind)

/-- A Sync arrives: recorded where the port runs PTP in its domain (R430, R438, R439). -/
def Chip.syncReceived (c : Chip) (p seq domain id num err : Nat) : Chip :=
  let x := c.ptpPort p
  if !(c.on (PTP_PORT_CFG_ENABLE p)) || domain != c.rd PTP_CFG_DOMAIN then c
  else if x.rxq.length < 64 then
    (c.setPtpPort p { x with rxq := x.rxq ++ [recEntry (c.stamp err) seq domain 0 id num] }).recShow p
  else (c.inc (PTP_RXQ_LOST_COUNT p)).recOvf p 0 (PTP_PORT_STAT_RXQ_OVF p) PTP_STATUS_RXQ_OVF

/-- A Delay_Req departs: its origin timestamp is inserted, and the departure recorded unless recording is stopped (R437, R439). -/
def Chip.delayReqSent (c : Chip) (p seq err : Nat) : Chip :=
  let x := { c.ptpPort p with origin := c.stamp err }
  if c.on (PTP_PORT_STAT_TXR_STOPPED p) then
    ((c.setPtpPort p x).inc (PTP_TXR_LOST_COUNT p)).recOvf p 1 (PTP_PORT_STAT_TXR_OVF p) PTP_STATUS_TXR_OVF
  else
    let x := { x with txr := x.txr ++ [recEntry (c.stamp err) seq (c.rd PTP_CFG_DOMAIN) 1 0 0] }
    let c := (c.setPtpPort p x).recShow p
    c.when (64 ≤ x.txr.length) (·.set (PTP_PORT_STAT_TXR_STOPPED p))

/-- The firmware removes the head receive entry and keeps a copy (R438, R442). -/
def Chip.rxqPop (c : Chip) (p : Nat) : Chip :=
  let x := c.ptpPort p
  match x.rxq with
  | [] => c
  | e :: rest => (c.setPtpPort p { x with rxq := rest, rxCopy := (e :: x.rxCopy).take 256 }).recShow p

/-- The firmware removes the head departure entry; an emptied record resumes recording (R439). -/
def Chip.txrPop (c : Chip) (p : Nat) : Chip :=
  let x := c.ptpPort p
  match x.txr with
  | [] => c
  | e :: rest =>
    let c := (c.setPtpPort p { x with txr := rest, txCopy := (e :: x.txCopy).take 256 }).recShow p
    c.when rest.isEmpty (·.clr (PTP_PORT_STAT_TXR_STOPPED p))

/-! ### The servo (R431, R432, R435, R436) -/

def svDisabled : Nat := 0
def svListening : Nat := 1
def svAcquiring : Nat := 2
def svLocked : Nat := 3
def svHoldover : Nat := 4
def svJump : Nat := 5

def Chip.servo (c : Chip) : Nat := c.rd PTP_SERVO_STATE
def Chip.setServo (c : Chip) (st : Nat) : Chip := c.wr PTP_SERVO_STATE st

/-- The clamp of PTP_FREQ. -/
def freqLimit : Int := 250000000

/-- PTP_FREQ is written, and remembered for a second. -/
def Chip.steer (c : Chip) (f : Int) : Chip :=
  let f := clampI (-freqLimit) freqLimit f
  let c := c.wrI PTP_FREQ_FREQ f
  let old := c.ptp.freqs
  let keep := old.takeWhile fun e => c.now < e.1 + sec 1
  { c with ptp := { c.ptp with freqs := (c.now, f) :: old.take (keep.length + 1) } }

/-- The average of PTP_FREQ over the last second, each value weighed by its time. -/
def meanFreq : List (Nat × Int) → Nat → Nat → Int
  | [], _, _ => 0
  | (t, f) :: rest, till, from_ => f * (till - max t from_ : Nat) + meanFreq rest (min till (max t from_)) from_

/-- The servo holds the average frequency of the last second (R432). -/
def Chip.holdFreq (c : Chip) : Chip :=
  c.steer ((meanFreq c.ptp.freqs c.now (c.now - sec 1)).tdiv (sec 1 : Nat))

/-- The median of a list of samples: the mean of the two middle ones of an even number (log entry 18). -/
def median (l : List Int) : Int :=
  let s := l.foldl (fun acc x => (acc.takeWhile (· ≤ x)) ++ x :: acc.dropWhile (· ≤ x)) []
  if l.length % 2 = 1 then s.getD (l.length / 2) 0 else (s.getD (l.length / 2 - 1) 0 + s.getD (l.length / 2) 0).tdiv 2

/-- N is stepped by a signed value, with STEPPED and its event (R426, R432). -/
def Chip.stepClock (c : Chip) (d : Int) : Chip :=
  let c := { c with clock := { c.clock with n := ofSigned 64 (c.clock.n + d) } }
  (c.set PTP_STATUS_STEPPED).post 0x03 0x0002 0 (argI (clampI (-2147483648) 2147483647 d))

/-- The servo reports lock; the first one since a PIN reset or POR releases the journaled gate lists (R385, R428). -/
def Chip.servoLocked (c : Chip) : Chip :=
  let c := (c.setServo svLocked).post 0x03 0x0001 (c.rd PTP_SERVO_PORT) 0
  let c := { c with ptp := { c.ptp with lockedAt := c.now } }
  if c.ptp.firstLock then c else { c with ptp := { c.ptp with firstLock := true } }.gclReload

/-- An accepted sample: the filtered offset, the frequency and the mean path delay are written, and the lock judged (R432). -/
def Chip.goodSample (c : Chip) (filtered freq : Int) (mpd : Nat) : Chip :=
  let c := ((c.wrI PTP_OFFSET_OFFSET filtered).wr PTP_MPD_MPD (min mpd (2 ^ 32 - 1))).steer freq
  let st := if c.servo = svJump then svAcquiring else c.servo
  let near := filtered.natAbs ≤ 1000
  let n := if near then min 16 (c.ptp.inRange + 1) else 0
  let c := { c.setServo st with ptp := { c.ptp with refused := [], inRange := n } }
  if st = svAcquiring ∧ n = 16 then c.servoLocked
  else if st = svLocked ∧ !near then c.setServo svAcquiring
  else c

/-- A sample beyond PTP_JUMP_MAX: discarded and counted; the eighth in a row moves the servo to JUMP_HELD (R435). -/
def Chip.refuseSample (c : Chip) (offset : Int) : Chip :=
  let r := (offset :: c.ptp.refused).take 8
  let c := { c.inc PTP_JUMPS_COUNT with ptp := { c.ptp with refused := r, inRange := 0 } }
  if r.length = 8 ∧ c.servo ≠ svJump then
    (((c.holdFreq).setServo svJump).set PTP_STATUS_JUMP_REFUSED).post 0x03 0x0005 (c.rd PTP_SERVO_PORT)
      (argI (clampI (-2147483648) 2147483647 (median r)))
  else c

/-- The servo processes a Sync sample of its selected port (R432, R435, R436); while no departure is recorded its mean path delay stays (R439). -/
def Chip.servoSample (c : Chip) (p : Nat) (offset filtered freq : Int) (mpd : Nat) : Chip :=
  let st := c.servo
  let mpd := if c.on (PTP_PORT_STAT_TXR_STOPPED p) then c.rd PTP_MPD_MPD else mpd
  if !c.ready || p != c.rd PTP_SERVO_PORT || !(st == svAcquiring || st == svLocked || st == svJump) then c
  else if !(c.on PTP_SERVO_EVER_LOCKED) then
    let l := offset :: c.ptp.first
    if l.length < 8 then { c with ptp := { c.ptp with first := l } }
    else ({ c with ptp := { c.ptp with first := [], inRange := 0 } }.set PTP_SERVO_EVER_LOCKED).stepClock (-(median l))
  else if c.ptp.relock then
    ({ c with ptp := { c.ptp with relock := false, refused := [], inRange := 0 } }.setServo svAcquiring).stepClock (-offset)
  else if (c.rd PTP_JUMP_MAX_JUMP_MAX) < offset.natAbs then c.refuseSample offset
  else c.goodSample filtered freq mpd

/-! ### Master selection (R433, R434) -/

/-- 2^log s, for a 4-bit two's complement log, in units of 1/3 ns. -/
def logInterval (code : Nat) : Nat :=
  let l := toSigned 4 code
  if 0 ≤ l then sec 1 * 2 ^ l.toNat else sec 1 / 2 ^ (-l).toNat

/-- The best qualified master of a port. -/
def Chip.bestMaster (c : Chip) (p : Nat) : Option Master :=
  ((c.ptpPort p).masters.filter (·.qualified)).foldl (fun b m => match b with
    | none => some m
    | some x => if m.rank < x.rank then some m else some x) none

/-- PTP_GM_ID. -/
def Chip.gmId (c : Chip) : Nat := c.get PTP_GM_ID_LO + c.get PTP_GM_ID_HI * 2 ^ 32

/-- The servo is moved to a port's best master. -/
def Chip.useMaster (c : Chip) (p : Nat) (m : Master) : Chip :=
  let changed := c.gmId != m.id || c.rd PTP_SERVO_PORT != p
  let newId := c.gmId != m.id
  let c := ((c.wr PTP_SERVO_PORT p).put PTP_GM_ID_LO (m.id % 2 ^ 32)).put PTP_GM_ID_HI (bits m.id 32 32)
  let c := c.when (c.servo == svListening || c.servo == svHoldover) (·.setServo svAcquiring)
  let c := if changed then
      { c with ptp := { c.ptp with refused := [], first := [], inRange := 0, prefSince := none } } else c
  c.when newId fun c => (c.set PTP_STATUS_MASTER_CHANGED).post 0x03 0x0004 p (bits m.id 32 32)

/-- The servo follows a master now. -/
def Chip.hasMaster (c : Chip) : Bool := c.servo == svAcquiring || c.servo == svLocked || c.servo == svJump

/-- The masters of the ports changed: the servo selects, or loses its master (R433, R434). -/
def Chip.selectMaster (c : Chip) : Chip :=
  let pref := c.rd PTP_CFG_PREF_PORT
  let other := 1 - pref
  let c := c.each [0, 1] fun c p =>
    c.wr (PTP_PORT_STAT_PSTATE p) (if c.on (PTP_PORT_CFG_ENABLE p) then (if (c.bestMaster p).isSome then 2 else 1) else 0)
  if c.servo = svDisabled then c
  else
    match c.bestMaster pref, c.bestMaster other with
    | none, none =>
      if !c.hasMaster then c
      else
        let c := { c with ptp := { c.ptp with refused := [], first := [], inRange := 0, prefSince := none, relock := false } }
        if c.on PTP_SERVO_EVER_LOCKED then
          ((c.holdFreq.setServo svHoldover).set PTP_STATUS_HOLDOVER_SEEN).post 0x03 0x0003 0 0
        else c.setServo svListening
    | some a, none => c.useMaster pref a
    | none, some b => c.useMaster other b
    | some a, some b =>
      if c.hasMaster && c.rd PTP_SERVO_PORT == other then
        let c := c.useMaster other b
        if a.id = b.id ∨ a.rank ≤ b.rank then
          { c with ptp := { c.ptp with prefSince := some (c.ptp.prefSince.getD c.now) } }
        else { c with ptp := { c.ptp with prefSince := none } }
      else if a.id = b.id ∨ a.rank ≤ b.rank then c.useMaster pref a
      else c.useMaster other b

/-- An Announce message of the configured domain (R429, R433): a master is qualified by two within four intervals. -/
def Chip.announce (c : Chip) (p domain id rank : Nat) : Chip :=
  if !c.ready || !(c.on (PTP_PORT_CFG_ENABLE p)) || domain != c.rd PTP_CFG_DOMAIN then c
  else
    let x := c.ptpPort p
    let heard := match x.masters.find? fun m => m.id == id with
      | some m => (c.now :: m.heard).take 2
      | none => [c.now]
    let was := x.masters.any fun m => m.id == id && m.qualified
    let span := match heard with | [a, b] => decide (a ≤ b + 4 * logInterval (c.rd PTP_CFG_ANNOUNCE_LOG)) | _ => false
    let m : Master := ⟨id, rank, heard, was || span⟩
    (c.setPtpPort p { x with masters := m :: x.masters.filter fun m => m.id != id }).selectMaster

/-- Masters whose announce receipt timeout has expired are lost (R434). -/
def Chip.announceTimeout (c : Chip) (p : Nat) : Chip :=
  let x := c.ptpPort p
  let limit := c.rd PTP_CFG_ANNOUNCE_TIMEOUT * logInterval (c.rd PTP_CFG_ANNOUNCE_LOG)
  if !c.ready then c
  else (c.setPtpPort p { x with masters := x.masters.filter fun m => c.now < m.heard.headD 0 + limit }).selectMaster

/-- The preferred port's master has been qualified and as good for 10 s (R433). -/
def Chip.prefRevert (c : Chip) : Chip :=
  let pref := c.rd PTP_CFG_PREF_PORT
  match c.ptp.prefSince, c.bestMaster pref with
  | some t, some m => if c.ready && decide (t + sec 10 ≤ c.now) then c.useMaster pref m else c
  | _, _ => c

/-! ### Changes and requests -/

/-- The servo runs while a port has PTP enabled (R432). -/
def Chip.servoEnable (c : Chip) : Chip :=
  let any := c.on (PTP_PORT_CFG_ENABLE 0) || c.on (PTP_PORT_CFG_ENABLE 1)
  if !any then { c.setServo svDisabled with ptp := { c.ptp with refused := [], first := [], inRange := 0, relock := false, prefSince := none } }
  else if c.servo = svDisabled then c.setServo svListening
  else c

/-- A port is enabled or disabled for PTP (R440): the masters this removes are lost first (R434). -/
def Chip.applyPtpPort (c : Chip) (p w : Nat) : Chip :=
  let c := c.wrB (PTP_PORT_CFG_ENABLE p) (bit w 1)
  let c := c.when (!(bit w 1)) fun c => c.setPtpPort p { c.ptpPort p with masters := [] }
  c.selectMaster.servoEnable.selectMaster

/-- The profile settings of both ports (R440): a change of domain drops every master. -/
def Chip.applyPtpCfg (c : Chip) (w jump : Nat) : Chip :=
  let drop := bits w 0 8 != c.rd PTP_CFG_DOMAIN
  let c := (c.put PTP_CFG (w % 2 ^ 23)).put PTP_JUMP_MAX (jump % 2 ^ 20)
  let c := c.when drop fun c => c.each [0, 1] fun c p => c.setPtpPort p { c.ptpPort p with masters := [] }
  c.selectMaster

/-- A relock may start: the servo is in JUMP_HELD and no gate list is enabled or pending (R436). -/
def Chip.mayRelock (c : Chip) : Bool :=
  c.servo == svJump && [0, 1].all fun p => !(c.on (NET_GCL_CTL_ENABLE p)) && !(c.on (NET_GCL_CTL_PENDING p))

/-- A relock is taken up, or ignored where this part may not (R436). -/
def Chip.applyRelock (c : Chip) : Chip := if c.mayRelock then { c with ptp := { c.ptp with relock := true } } else c

/-- The checks of PTP settings (R440, R436). -/
def chkPtpPort (x : Ctx) (r : Req) : Check :=
  let w := r.w 0
  let g := r.w 1
  let p := bits w 0 1
  let within := fun lo hi (i : Int) => lo ≤ i && i ≤ hi
  require (r.lenIs 3) stBadLength <|
  require (r.epoch == 0 && bits w 3 29 == 0 && bits g 23 9 == 0 && bits g 0 8 ≤ 127 && within (-3) 1 (toSigned 4 (bits g 8 4))
    && within (-7) (-1) (toSigned 4 (bits g 12 4)) && 2 ≤ bits g 16 4 && bits g 16 4 ≤ 10 && bits g 20 2 ≤ 2
    && 1000 ≤ r.w 2 && r.w 2 ≤ 1000000) stBadArg <|
  require (!(bit w 2) || x.c.mayRelock) stDenied <|
  nowPlan ([⟨.ptpCfg, 0, [g, r.w 2]⟩, ⟨.ptpPort, p, [w % 4]⟩] ++ if bit w 2 then [⟨.relock, 0, []⟩] else [])

/-- PTP_GET_STATUS (R441). -/
def chkPtpStatus (x : Ctx) (r : Req) : Check :=
  let c := x.c
  require (r.lenIs 0) stBadLength <|
  okPlan ([c.get PTP_STATUS, c.get PTP_SERVO, c.get PTP_OFFSET, c.get PTP_FREQ, c.get PTP_MPD, c.get PTP_CFG, c.get PTP_JUMP_MAX,
    c.get PTP_GM_ID_LO, c.get PTP_GM_ID_HI, c.get PTP_JUMPS, c.systime, c.clock.n / 2 ^ 32]
    ++ [0, 1].flatMap fun p => [c.get (PTP_PORT_CFG p), c.get (PTP_PORT_STAT p), c.get (PTP_RXQ_LOST p), c.get (PTP_TXR_LOST p)])

/-- PTP_GET_RECORDS (R442). -/
def chkPtpRecords (x : Ctx) (r : Req) : Check :=
  let y := x.c.ptpPort (bits (r.w 0) 0 1)
  let l := if bit (r.w 0) 1 then y.txCopy else y.rxCopy
  let n := r.w 1
  let es := l.take n
  require (r.lenIs 2) stBadLength <|
  require (1 ≤ n && n ≤ 63 && r.w 0 < 4) stBadArg <|
  okPlan (es.length :: es.reverse.flatten)

end Sys2Proof.Machine
end

