-- ==== Sys2Proof/Machine/RefOps.lean ====
section
/-! DEFINITION. Operations of the reference selector and the timing planes (chapter 15): candidate monitors, selection, slew and
build-out, holdover, START, and the checks of the requests of the block. -/

namespace Sys2Proof.Machine

def Chip.cand (c : Chip) (k : Nat) : Cand := c.ref.cands.getD k {}
def Chip.setCand (c : Chip) (k : Nat) (x : Cand) : Chip := { c with ref := { c.ref with cands := putAt 5 {} c.ref.cands k x } }

/-! ### Candidates (R446 to R450) -/

def caOff : Nat := 0
def caInactive : Nat := 1
def caMeasuring : Nat := 2
def caQualified : Nat := 3
def caDisqualified : Nat := 4

def Chip.caState (c : Chip) (k : Nat) : Nat := c.rd (REF_CAND_STAT_STATE k)
def Chip.caTo (c : Chip) (k st : Nat) : Chip := c.wr (REF_CAND_STAT_STATE k) st

/-- The rank of a candidate on a plane (R447). -/
def Chip.rank (c : Chip) (k q : Nat) : Nat := if q = 0 then c.rd (REF_CAND_RANK_RANK_TP0 k) else c.rd (REF_CAND_RANK_RANK_TP1 k)

/-- A candidate of a kind and pulse format is eligible for a plane format (R446). -/
def candEligible (kind pf f : Nat) : Bool :=
  kind != 1 || ((fmt pf).family == (fmt f).family && ((fmt pf).period == (fmt f).period || (fmt pf).period == 2 * (fmt f).period))

/-- The offset of a candidate in 0.001 ppm. -/
def Chip.caOffset (c : Chip) (k : Nat) : Int := c.rdI (REF_CAND_OFFSET_OFFSET k)

/-- The candidates QUALIFIED, ranked and eligible on a plane. -/
def Chip.qualified (c : Chip) (q : Nat) : List Nat :=
  (List.range 5).filter fun k => c.caState k == caQualified && c.rank k q != 0
    && candEligible (c.rd (REF_CAND_CFG_KIND k)) (c.rd (REF_CAND_CFG_PERIOD_FMT k)) (c.planeFmt q)

/-- The selected candidate of a plane; 7 none. -/
def Chip.selected (c : Chip) (q : Nat) : Nat := c.rd (REF_PLANE_STAT_SELECTED q)

/-- The best of a list of candidates on a plane (R456). -/
def Chip.bestCand (c : Chip) (q : Nat) (l : List Nat) : Option Nat :=
  let top := l.foldl (fun m k => min m (c.rank k q)) 8
  let eq := l.filter fun k => c.rank k q == top
  let ref := if c.on (REF_PLANE_STAT_MODEL_VALID q) then c.rdI (REF_PLANE_MODEL_MODEL q) else 0
  if eq.contains (c.selected q) then some (c.selected q)
  else eq.foldl (fun best k => match best with
    | none => some k
    | some b =>
      let d := fun j => (c.caOffset j - ref).natAbs
      let z := fun j => (c.caOffset j).natAbs
      if d k < d b ∨ (d k = d b ∧ z k < z b) then some k else some b) none

/-! ### The frequency and phase of a plane (R458) -/

/-- The units of a plane's frequency in 0.001 ppm, and of its build-out in a ns. -/
def freqUnit : Int := 3000000000
def phaseUnit : Int := 18000000000000000000

/-- The nearest integer of a quotient. -/
def roundDiv (a b : Int) : Int := (2 * a + b) / (2 * b)

/-- The frequency moves towards its target by at most SLEW_MAX, and in PULLIN the phase that accumulates is added to the
build-out. -/
def Chip.slew (c : Chip) (q : Nat) : Chip :=
  let x := c.plane q
  let dt : Int := (c.now - x.freqAt : Nat)
  let st := c.planeState q
  if st != 3 && st != 4 then c.setPlane q { x with freqAt := c.now }
  else
    let rate : Int := (max 1 (c.rd REF_CFG_SLEW_MAX) : Nat)
    let gap := x.target - x.freq
    let ramp := min dt ((gap.natAbs : Int) / rate)
    let f := if gap.natAbs ≤ (rate * dt).natAbs then x.target else if 0 < gap then x.freq + rate * dt else x.freq - rate * dt
    let d := x.freq - x.target + (f - x.target)
    c.setPlane q { x with freq := f, freqAt := c.now, buildout := if st = 3 then x.buildout + d * ramp else x.buildout }

/-- The registers of a plane's frequency and build-out. -/
def Chip.planeShow (c : Chip) (q : Nat) : Chip :=
  (c.wrI (REF_PLANE_FREQ_FREQ q) (roundDiv (c.plane q).freq freqUnit)).wrI (REF_PLANE_BUILDOUT_BUILDOUT q)
    (roundDiv (c.plane q).buildout phaseUnit)

/-- The mean of the usable windows of a plane's holdover model, and whether it is learned (R460). -/
def Chip.modelShow (c : Chip) (q : Nat) : Chip :=
  let l := (c.plane q).windows
  let c := c.wrB (REF_PLANE_STAT_MODEL_VALID q) (16 ≤ l.length)
  if l.isEmpty then c else c.wrI (REF_PLANE_MODEL_MODEL q) (roundDiv l.sum l.length)

/-- A plane's state, with its lock bits (R453). -/
def Chip.planeTo (c : Chip) (q st : Nat) : Chip := c.wr (REF_PLANE_STAT_STATE q) st

/-- A plane enters LOCKED (R454, R458). -/
def Chip.planeLock (c : Chip) (q : Nat) : Chip :=
  let c := c.setPlane q { c.plane q with lockAt := c.now }
  (c.planeTo q 2).post 0x02 0x0009 q (c.selected q)

/-- A plane switches to a candidate whose measured offset is `phase` ns (R458). -/
def Chip.switchTo (c : Chip) (q k : Nat) (phase : Int) : Chip :=
  let c := c.slew q
  let x := c.plane q
  let c := c.setPlane q { x with target := c.caOffset k * freqUnit, buildout := x.buildout + phase * phaseUnit }
  let c := ((c.wr (REF_PLANE_STAT_SELECTED q) k).planeTo q 3).planeShow q
  let c := ((c.set REF_STATUS_SWITCH).set (REF_PLANE_STAT_SWITCH_SEEN q)).inc (REF_PLANE_SWITCHES_COUNT q)
  c.post 0x02 0x0001 q k

/-- A plane enters FREERUN (R454, R461). -/
def Chip.freerun (c : Chip) (q : Nat) : Chip :=
  let c := (c.wr (REF_PLANE_STAT_SELECTED q) 7).planeTo q 5
  ((c.set REF_STATUS_FREERUN).set (REF_PLANE_STAT_FREERUN_SEEN q)).post 0x02 0x0001 q 0xFE

/-- A plane has no candidate left: HOLDOVER, or FREERUN while holdover is unavailable (R455, R460, R461). -/
def Chip.loseRef (c : Chip) (q : Nat) : Chip :=
  let c := c.slew q
  let c := (c.setPlane q { c.plane q with windows := (c.plane q).windows.drop 2 }).modelShow q
  if c.on REF_LO_PRESENT && c.on (REF_PLANE_STAT_MODEL_VALID q) then
    let c := c.setPlane q { c.plane q with target := c.rdI (REF_PLANE_MODEL_MODEL q) * freqUnit }
    let c := (c.wr (REF_PLANE_STAT_SELECTED q) 7).planeTo q 4
    let c := ((c.set REF_STATUS_HOLDOVER).set (REF_PLANE_STAT_HOLDOVER_SEEN q)).inc (REF_PLANE_SWITCHES_COUNT q)
    (c.post 0x02 0x0001 q 0xFF).planeShow q
  else (c.freerun q).planeShow q

/-- A plane leaves START (R29, R454): its first frame boundary falls `delay` ns later. -/
def Chip.leaveStart (c : Chip) (q : Nat) (delay : Nat) : Chip :=
  c.setPlane q { c.plane q with nextB := c.now + ns delay, left := true, freqAt := c.now }

/-- A plane enters START (R454, R463) with a format. -/
def Chip.planeStart (c : Chip) (q f : Nat) : Chip :=
  let c := (((c.wr (REF_PLANE_CFG_FORMAT q) f).wr (REF_PLANE_STAT_SELECTED q) 7).clr (REF_PLANE_STAT_PHASE_FREE q)).planeTo q 1
  ((c.setPlane q { c.plane q with startAt := c.now, again := none, buildout := 0, disagree := [] }).dropAnchor q).planeShow q

/-- The measured phase of a candidate on a plane. -/
def measPhase (ms : List RefMeas) (k q : Nat) : Int :=
  match ms[k]? with | some m => if q = 0 then m.phase0 else m.phase1 | none => 0

/-- In START the best qualified candidate is selected and the plane locks, without a switch (R454). -/
def Chip.startSelect (c : Chip) (q : Nat) (ph : Nat → Nat → Int) : Chip :=
  match c.bestCand q (c.qualified q) with
  | none => c
  | some k =>
    let free := c.rd (REF_CAND_CFG_KIND k) == 2 && c.servo != svLocked
    let c := ((c.wr (REF_PLANE_STAT_SELECTED q) k).wrB (REF_PLANE_STAT_PHASE_FREE q) free).leaveStart q (ph k q).toNat
    let c := c.setPlane q { c.plane q with freq := c.caOffset k * freqUnit, buildout := 0 }
    (c.planeLock q).planeShow q

/-- A standby that follows the active part's selections: paired, with the configuration copied (R462). -/
def Chip.followsRef (c : Chip) : Bool := c.rd TWN_STATE_MODE == 2 && c.twn.paired && 3 ≤ c.rd TWN_STATE_PHASE

/-- The candidate a plane outside START would switch to (R455); none where it stays or has none to switch to. -/
def Chip.wantsRef (c : Chip) (q : Nat) : Option Nat :=
  let st := c.planeState q
  let l := c.qualified q
  if st = 0 ∨ st = 1 then none
  else if st = 4 ∨ st = 5 ∨ !(l.contains (c.selected q)) then c.bestCand q l
  else if c.on (REF_PLANE_CFG_REVERTIVE q) then
    let better := l.filter fun k => c.rank k q < c.rank (c.selected q) q
      && (match (c.cand k).qualAt with | some t => decide (t + sec (c.rd (REF_PLANE_CFG_WTR q)) ≤ c.now) | none => false)
    c.bestCand q better
  else none

/-- Selection outside START (R455). A following standby leaves a switch to the active part's decision, and makes it itself where none has
come by a later instant of selection (R462). -/
def Chip.reselect (c : Chip) (q : Nat) (ph : Nat → Nat → Int) : Chip :=
  match c.wantsRef q with
  | some k =>
    let x := c.plane q
    if c.followsRef && x.awaits.getD c.now == c.now then c.setPlane q { x with awaits := some c.now }
    else (c.setPlane q { x with awaits := none }).switchTo q k (ph k q)
  | none =>
    let c := c.setPlane q { c.plane q with awaits := none }
    if (c.planeState q = 2 ∨ c.planeState q = 3) ∧ !((c.qualified q).contains (c.selected q)) then c.loseRef q else c

/-- The pairs of equally ranked QUALIFIED candidates that differ by more than the limit (R457). -/
def Chip.disagreements (c : Chip) (q : Nat) : List (Nat × Nat) :=
  let l := c.qualified q
  (l.flatMap fun a => l.map fun b => (a, b)).filter fun (a, b) =>
    a < b && c.rank a q == c.rank b q && 10 * c.rd REF_CFG_DISAGREE_LIMIT < (c.caOffset a - c.caOffset b).natAbs

/-- Pairs that come to disagree are flagged and reported. -/
def Chip.judgePairs (c : Chip) (q : Nat) : Chip :=
  let now := c.disagreements q
  let c := c.each (now.filter fun p => !((c.plane q).disagree.contains p)) fun c p =>
    (c.set REF_STATUS_DISAGREE).post 0x02 0x0002 q (p.1 + p.2 * 256)
  c.setPlane q { c.plane q with disagree := now }

/-- A candidate leaves QUALIFIED (R450). -/
def Chip.leftQual (c : Chip) (k cause : Nat) : Chip :=
  let c := c.setCand k { c.cand k with qualAt := none }
  ((c.set REF_STATUS_DISQUALIFIED).set (REF_CAND_STAT_DISQ_SEEN k)).post 0x02 0x0004 k cause

/-- A candidate becomes INACTIVE with its cause (R449): 1 MISSING, 2 NOISY. -/
def Chip.goInactive (c : Chip) (k cause : Nat) : Chip :=
  let was := c.caState k
  if was = caOff ∨ was = caInactive then c
  else
    let c := ((c.caTo k caInactive).wr (REF_CAND_STAT_CAUSE k) cause).wr (REF_CAND_STAT_GOOD_WINDOWS k) 0
    let c := (c.setCand k { c.cand k with activeAt := none, held := [], absent := 0 }).when (cause == 2)
      (·.set (REF_CAND_STAT_NOISY_SEEN k))
    c.when (was == caQualified) (·.leftQual k cause)

/-- Every plane outside START selects again (R455). -/
def Chip.reselectAll (c : Chip) (ph : Nat → Nat → Int) : Chip :=
  c.each [0, 1] fun c q => ((c.reselect q ph).judgePairs q)

/-- A candidate becomes INACTIVE: the planes select at that instant. -/
def Chip.candInactive (c : Chip) (k : Nat) (noisy : Bool) (ms : List RefMeas) : Chip :=
  (c.goInactive k (if noisy then 2 else 1)).reselectAll (measPhase ms)

/-- LO_IN has run for the whole window that ends now. -/
def Chip.loWhole (c : Chip) : Bool := c.on REF_LO_PRESENT && c.ref.loAt + sec 1 ≤ c.now

/-- A measured offset with the correction of LO_IN, where LO_IN ran for the whole window (R450, R451). -/
def Chip.corrected (c : Chip) (off : Int) : Int := if c.loWhole then off + c.rdI REF_LO_CAL_LO_CAL else off

/-- The window of a candidate ends (R450); PTP time is active only while its servo is LOCKED (R449). -/
def Chip.candWindow (c : Chip) (k : Nat) (m : RefMeas) : Chip :=
  let st := c.caState k
  if st = caOff then c
  else
    let off := c.corrected m.offset
    let c := c.wrI (REF_CAND_OFFSET_OFFSET k) off
    let x := c.cand k
    let active := m.active && (k != 4 || c.servo == svLocked)
    let c := c.setCand k { x with stray := 0, activeAt := if active then some (x.activeAt.getD (c.now - sec 1)) else x.activeAt }
    let inAcc := decide (off.natAbs ≤ 10 * c.rd (REF_CAND_CFG_ACCEPT k))
    let c := c.when active (·.wrB (REF_CAND_STAT_IN_ACCEPT k) inAcc)
    if st = caInactive then
      if active then (c.caTo k caMeasuring).wr (REF_CAND_STAT_GOOD_WINDOWS k) 0 else c
    else if st = caQualified then
      if 10 * c.rd (REF_CAND_RANK_REJECT k) < off.natAbs then
        (((c.caTo k caDisqualified).wr (REF_CAND_STAT_CAUSE k) 3).wr (REF_CAND_STAT_GOOD_WINDOWS k) 0).leftQual k 3
      else c
    else if !active || !inAcc then c.wr (REF_CAND_STAT_GOOD_WINDOWS k) 0
    else
      let n := c.rd (REF_CAND_STAT_GOOD_WINDOWS k) + 1
      if n < 8 then c.wr (REF_CAND_STAT_GOOD_WINDOWS k) n
      else
        let c := ((c.caTo k caQualified).wr (REF_CAND_STAT_GOOD_WINDOWS k) 0).set (REF_CAND_STAT_QUAL_SEEN k)
        (c.setCand k { c.cand k with qualAt := some c.now }).post 0x02 0x0003 k (argI off)

/-- The window of a plane ends: the plane follows its candidate, and the holdover model takes the window (R453, R458, R460). -/
def Chip.planeWindow (c : Chip) (q : Nat) (ms : List RefMeas) : Chip :=
  let c := c.slew q
  let k := c.selected q
  let x := c.plane q
  let f := match ms[k]? with | some m => c.corrected m.present | none => c.caOffset k
  let c := match c.planeState q with
    | 2 => c.setPlane q { x with freq := f * freqUnit, target := f * freqUnit }
    | 3 => c.setPlane q { x with target := f * freqUnit }
    | _ => c
  let takes := c.planeState q == 2 && x.lockAt + sec 1 ≤ c.now && c.ready && c.loWhole && c.on (REF_CAND_STAT_IN_ACCEPT k)
  let c := c.when takes fun c =>
    (c.setPlane q { c.plane q with windows := (c.caOffset k :: (c.plane q).windows).take 60 }).modelShow q
  c.planeShow q

/-- LO_CAL moves towards the offset measured against PTP time, by at most 0.01 ppm per hour (R451). -/
def Chip.loTrack (c : Chip) (lo : Int) : Chip :=
  if c.on REF_LO_CAL_VALID && c.servo == svLocked && c.on REF_LO_PRESENT && decide (c.ref.calAt + sec 360 ≤ c.now) then
    let v := c.rdI REF_LO_CAL_LO_CAL
    let c := { c with ref := { c.ref with calAt := c.now } }
    if v < lo then c.wrI REF_LO_CAL_LO_CAL (v + 1) else if lo < v then c.wrI REF_LO_CAL_LO_CAL (v - 1) else c
  else c

/-- A monitor window ends (R450, R454 to R457, R460). -/
def Chip.windowEnd (c : Chip) (ms : List RefMeas) (lo : Int) : Chip :=
  let c := c.each (List.range 5) fun c k => match ms[k]? with | some m => c.candWindow k m | none => c
  let c := c.each [0, 1] fun c q =>
    if c.planeState q = 0 then c
    else
      let c := c.planeWindow q ms
      let c := if c.planeState q = 1 then c.startSelect q (measPhase ms) else c.reselect q (measPhase ms)
      c.judgePairs q
  c.loTrack lo

/-- WTR expires for a better-ranked candidate (R455). -/
def Chip.wtrExpiry (c : Chip) (q : Nat) (ms : List RefMeas) : Chip := (c.reselect q (measPhase ms)).judgePairs q

/-- A plane within 0.01 ppm of its candidate enters LOCKED (R458). -/
def Chip.pullinDone (c : Chip) (q : Nat) : Chip :=
  let c := c.slew q
  if c.planeState q = 3 ∧ ((c.plane q).freq - (c.plane q).target).natAbs ≤ 10 * freqUnit.natAbs then
    (c.planeLock q).planeShow q
  else c.planeShow q

/-- No candidate has qualified within 12 s of START: FREERUN at nominal frequency (R454). -/
def Chip.startTimeout (c : Chip) (q delay : Nat) : Chip :=
  if c.planeState q = 1 ∧ (c.plane q).startAt + sec 12 ≤ c.now then
    let c := (c.leaveStart q delay).set (REF_PLANE_STAT_PHASE_FREE q)
    ((c.setPlane q { c.plane q with freq := 0 }).freerun q).planeShow q
  else c

/-! ### Edges and phase hits (R459) -/

/-- The planes that have selected a candidate. -/
def Chip.planesOf (c : Chip) (k : Nat) : List Nat :=
  [0, 1].filter fun q => c.selected q == k && (c.planeState q == 2 || c.planeState q == 3)

/-- Edges outside the window are judged (R449): two expected edges absent in a row, or more than two strays in a window. -/
def Chip.strayEdges (c : Chip) (k n : Nat) (ms : List RefMeas) : Chip :=
  let x := c.cand k
  let c := c.setCand k { x with stray := x.stray + n, absent := x.absent + n, held := [] }
  if 2 ≤ x.absent + n then c.candInactive k false ms
  else if 2 < x.stray + n then c.candInactive k true ms
  else c

/-- Two displacements agree within 100 ns. -/
def near100 (a b : Int) : Bool := (a - b).natAbs ≤ 100

/-- An edge of a candidate, displaced from its expected instant by some ns: followed, held as a possible phase step on a selected
candidate, or counted as a stray edge; held edges are released by an edge that does not agree with them. -/
def Chip.refEdge (c : Chip) (k : Nat) (d : Int) (ms : List RefMeas) : Chip :=
  if c.caState k = caOff then c
  else
    let out := 1000 < d.natAbs
    let agrees := out && (c.cand k).held.all (near100 d)
    let c := if (c.cand k).held.isEmpty || agrees then c else c.strayEdges k (c.cand k).held.length ms
    let x := c.cand k
    if !out then c.setCand k { x with absent := 0 }
    else if (c.planesOf k).isEmpty then c.strayEdges k 1 ms
    else if x.held.length < 3 then c.setCand k { x with held := d :: x.held }
    else c

/-- Three consecutive displaced edges that agree are absorbed into the build-out (R459). -/
def Chip.phaseHit (c : Chip) (k : Nat) : Chip :=
  let x := c.cand k
  match x.held with
  | [d3, _, _] =>
    let c := c.setCand k { x with held := [], absent := 0 }
    c.each (c.planesOf k) fun c q =>
      let y := c.plane q
      let c := (c.setPlane q { y with buildout := y.buildout + d3 * phaseUnit }).planeShow q
      ((c.set REF_STATUS_PHASE_HIT).set (REF_PLANE_STAT_PHASE_HIT q)).post 0x02 0x0005 q (argI d3)
  | _ => c

/-! ### LO_IN (R71, R451, R452, R461) -/

/-- LO_IN has shown no edge for 10 us: holdover becomes unavailable. A loss that is flagged already, by LO_MISSING with LO_IN not present, is
not flagged again; LO_IN that has shown no edge since a reset is lost too (R71). -/
def Chip.loLoss (c : Chip) : Chip :=
  if !(c.on REF_LO_PRESENT) && c.ref.loLost then c
  else
    let c := { c with ref := { c.ref with loLost := true } }
    let c := ((c.clr REF_LO_PRESENT).set REF_STATUS_LO_MISSING).post 0x02 0x0007 0 0
    c.each [0, 1] fun c q => if c.planeState q = 4 then ((c.slew q).freerun q).planeShow q else c

/-- LO_IN returns. -/
def Chip.loReturn (c : Chip) : Chip :=
  if c.on REF_LO_PRESENT then c else { c.set REF_LO_PRESENT with ref := { c.ref with loAt := c.now, loLost := false } }

/-- LO_CAL is learned (R451): from PTP once it has been LOCKED for 60 s, otherwise from the best-ranked active reference of TP0 after
8 s; `lo` is the offset measured against PTP time. -/
def Chip.loCalibrate (c : Chip) (lo : Int) : Chip :=
  let done := fun (c : Chip) (v : Int) =>
    let c := (c.wrI REF_LO_CAL_LO_CAL v).set REF_LO_CAL_VALID
    { c with ref := { c.ref with calAt := c.now } }.post 0x02 0x0008 0 (argI v)
  if c.on REF_LO_CAL_VALID || !(c.on REF_LO_PRESENT) then c
  else if c.servo = svLocked ∧ c.ptp.lockedAt + sec 60 ≤ c.now then done c lo
  else
    let l := (List.range 4).filter fun k =>
      (c.rd (REF_CAND_CFG_KIND k) == 1 || c.rd (REF_CAND_CFG_KIND k) == 2) && c.rank k 0 != 0
        && (match (c.cand k).activeAt with | some t => decide (t + sec 8 ≤ c.now) | none => false)
    match (sortBy (fun k => c.rank k 0) l).head? with
    | none => c
    | some k => done c (c.rdI REF_LO_CAL_LO_CAL - c.caOffset k)

/-! ### Changes -/

/-- The phases a switch measures outside a monitored instant: free values within half a period. -/
def freePhases (n : Nat) (k q : Nat) : Int := Config.phase (n + 2 * k + q)

/-- PTP time is MISSING from the instant its servo is not LOCKED (R449): the planes select. -/
def Chip.ptpCand (c : Chip) : Chip :=
  if c.servo = svLocked ∨ c.caState 4 < caMeasuring then c
  else
    let n := c.free
    ({ c with free := n + 10 }.goInactive 4 1).reselectAll (freePhases n)

/-- A candidate's settings take effect (R464). -/
def Chip.applyCand (c : Chip) (k : Nat) (ws : List Nat) : Chip :=
  let w := ws.getD 0 0
  let w1 := ws.getD 1 0
  let w2 := ws.getD 2 0
  let kind := bits w 3 2
  let changed := bits w 3 7 != bits (c.get (REF_CAND_CFG k)) 0 7
  let c := c.put (REF_CAND_CFG k) (kind + bits w 5 5 * 4 + bits w1 0 12 * 256)
  let c := c.put (REF_CAND_RANK k) (bits w2 0 3 + bits w2 4 3 * 16 + bits w1 16 13 * 2 ^ 16)
  let c := (c.put (REF_CAND_PHASE k 0) (ws.getD 3 0)).put (REF_CAND_PHASE k 1) (ws.getD 4 0)
  let c := c.when changed fun c =>
    let c := ((c.caTo k (if kind = 0 then caOff else caMeasuring)).wr (REF_CAND_STAT_GOOD_WINDOWS k) 0).clr (REF_CAND_STAT_IN_ACCEPT k)
    c.setCand k {}
  let n := c.free
  { c with free := n + 10 }.reselectAll (freePhases n)

/-- A plane's settings take effect (R463): a new format, or none (0). -/
def Chip.applyPlane (c : Chip) (q w w1 : Nat) : Chip :=
  let f := bits w 1 5
  let c := (c.wr (REF_PLANE_CFG_REVERTIVE q) (bits w 6 1)).wr (REF_PLANE_CFG_WTR q) (bits w 16 8)
  let c := c.put REF_CFG (w1 % 2 ^ 26)
  if f = 0 ∨ f = ((c.plane q).again.getD (c.planeFmt q)) then c
  else if c.planeState q ≤ 1 then c.planeStart q f
  else c.setPlane q { c.plane q with again := some f }

/-- REPHASE (R463). -/
def Chip.applyRephase (c : Chip) (q : Nat) : Chip :=
  if c.planeState q = 0 then c
  else if c.planeState q = 1 then c.planeStart q (c.planeFmt q)
  else c.setPlane q { c.plane q with again := some ((c.plane q).again.getD (c.planeFmt q)) }

/-- RECAL_LO (R451). -/
def Chip.applyRecal (c : Chip) : Chip := c.clr REF_LO_CAL_VALID

/-- The frame boundary of a plane (R29, R163): the epoch counter increments, or starts at 0. -/
def Chip.tick (c : Chip) (q : Nat) : Chip :=
  let x := c.plane q
  let e := c.rd (XPT_EPOCH_EPOCH q)
  let c := if x.counted then c.wr (XPT_EPOCH_EPOCH q) (e + 1) else c.wr (XPT_EPOCH_EPOCH q) 0
  let c := c.put (XPT_BOUNDARY_TIME q) c.systime
  c.setPlane q { x with counted := true, nextB := c.now + c.planePeriod q, high := if x.counted && e == 2 ^ 32 - 1 then x.high + 1 else x.high }

/-! ### Requests -/

/-- The magnitude of a stored phase compensation is below half a period (R463). -/
def phaseFits (v f : Nat) : Bool := 6 * (toSigned 32 v).natAbs < (fmt f).period

/-- Something on a plane is routed, tapped or enabled, running or in the take queue (R463). -/
def Chip.planeUsed (c : Chip) (q : Nat) : Bool :=
  (List.range 384).any (fun d => dstOffered c.role d && c.dstPlane d == q && c.dstUsed d)
    || (List.range 332).any (fun s => c.tapped s && c.srcPlane s == q)
    || (List.range 8).any (fun g => c.on (XPT_GEN_CTL_ENABLE g) && c.rd (XPT_GEN_CTL_PLANE g) == q)
    || (List.range 48).any (fun r => c.on (LBS_REC_CTL_ENABLE r) && c.dstPlane (272 + r) == q)
    || (List.range 48).any (fun p => c.on (LBS_PB_CTL_ENABLE p) && c.dstPlane (272 + c.carafeOf p) == q)
    || (List.range 112).any (fun s => c.on (NET_TXF_CTL_ENABLE s) && c.senderPlane s (c.get (NET_TXF_AUX s)) == q)

/-- The checks of plane settings (R463). -/
def chkSetPlane (x : Ctx) (r : Req) : Check :=
  let c := x.c
  let w := r.w 0
  let w1 := r.w 1
  let q := bits w 0 1
  let f := bits w 1 5
  let cur := (c.plane q).again.getD (c.planeFmt q)
  let new := f != 0 && f != cur
  let ok := (List.range 5).all fun k =>
    (c.rank k q == 0 || candEligible (c.rd (REF_CAND_CFG_KIND k)) (c.rd (REF_CAND_CFG_PERIOD_FMT k)) f)
      && phaseFits (c.get (REF_CAND_PHASE k q)) f
  require (r.lenIs 2) stBadLength <|
  require (r.epoch == 0 && bits w 9 7 == 0 && bits w1 26 6 == 0 && 1 ≤ bits w 16 8 && 1 ≤ bits w1 0 16 && bits w1 0 16 ≤ 1000
    && 1 ≤ bits w1 16 10 && bits w1 16 10 ≤ 1000 && (f == 0 || fmtOk f)) stBadArg <|
  require (!new || ok) stBadArg <|
  require (!(new || (bit w 8 && c.planeState q != 0)) || !(c.planeUsed q)) stDenied <|
  let nows := [⟨.plane, q, [(if f = 0 then cur else f) * 2 + bits w 0 1 + bits w 6 1 * 64 + bits w 16 8 * 2 ^ 16, w1]⟩]
    ++ (if bit w 8 then [⟨.rephase, q, []⟩] else []) ++ if bit w 7 then [⟨.recal, 0, []⟩] else []
  .ok { resp := ⟨stOK, 0, 0, []⟩, nows := nows, long := some .boundary }

/-- The checks of candidate settings (R464). -/
def chkSetCandidate (x : Ctx) (r : Req) : Check :=
  let c := x.c
  let w := r.w 0
  let w1 := r.w 1
  let w2 := r.w 2
  let k := bits w 0 3
  let kind := bits w 3 2
  let pf := bits w 5 5
  let rk := fun q => if q = 0 then bits w2 0 3 else bits w2 4 3
  let onPlane := fun q =>
    let f := c.planeFmt q
    f == 0 || ((rk q == 0 || candEligible kind pf f) && phaseFits (r.w (3 + q)) f)
  let differs := bits w 3 7 != bits (c.get (REF_CAND_CFG k)) 0 7 || r.w 3 != c.get (REF_CAND_PHASE k 0) || r.w 4 != c.get (REF_CAND_PHASE k 1)
  require (r.lenIs 5) stBadLength <|
  require (r.epoch == 0 && k ≤ 4 && bits w 10 22 == 0 && bits w1 12 4 == 0 && bits w1 29 3 == 0 && bit w2 3 == false && bits w2 7 25 == 0
    && (if k = 4 then kind != 1 && kind != 2 else kind != 3) && (if kind = 1 then fmtOk pf else pf == 0)
    && 1 ≤ bits w1 0 12 && bits w1 0 12 ≤ 2000 && bits w1 0 12 < bits w1 16 13 && bits w1 16 13 ≤ 5000
    && onPlane 0 && onPlane 1) stBadArg <|
  require (!(differs && (c.selected 0 == k || c.selected 1 == k))) stDenied <|
  nowPlan [⟨.cand, k, r.ws 0 5⟩]

/-- REF_GET_STATUS (R464). -/
def chkRefStatus (x : Ctx) (r : Req) : Check :=
  let g := x.c.get
  require (r.lenIs 0) stBadLength <|
  okPlan ([g REF_STATUS, g REF_CFG, g REF_LO, g REF_LO_CAL]
    ++ ((List.range 5).flatMap fun k => [g (REF_CAND_CFG k), g (REF_CAND_RANK k), g (REF_CAND_STAT k), g (REF_CAND_OFFSET k),
        g (REF_CAND_PHASE k 0), g (REF_CAND_PHASE k 1)])
    ++ [0, 1].flatMap fun q => [g (REF_PLANE_CFG q), g (REF_PLANE_STAT q), g (REF_PLANE_FREQ q), g (REF_PLANE_MODEL q),
        g (REF_PLANE_BUILDOUT q), g (REF_PLANE_SWITCHES q)])

end Sys2Proof.Machine
end

