-- ==== Sys2Proof/Machine/AudOps.lean ====
section
/-! DEFINITION. Operations of the audio engine (chapter 16): engine inputs and outputs, filters, mix matrix, limiter, coefficient
ramps, the bridge, the state digest, and the checks of the requests of the block. -/

namespace Sys2Proof.Machine

def Chip.coef (c : Chip) (k : Nat) : Coef := tget {} c.aud.coefs k
def Chip.setCoef (c : Chip) (k : Nat) (x : Coef) : Chip := { c with aud := { c.aud with coefs := tput {} c.aud.coefs k x } }
def Chip.filt (c : Chip) (i : Nat) : Filt := tget {} c.aud.filts i
def Chip.setFilt (c : Chip) (i : Nat) (x : Filt) : Chip := { c with aud := { c.aud with filts := tput {} c.aud.filts i x } }
def Chip.lim (c : Chip) (o : Nat) : Lim := tget {} c.aud.lims o
def Chip.setLim (c : Chip) (o : Nat) (x : Lim) : Chip := { c with aud := { c.aud with lims := tput {} c.aud.lims o x } }

/-! ### Channel spaces (R471, R472) -/

/-- The embedded source of an engine input below 6144. -/
def inSrc (i : Nat) : Nat := if i / 32 < 144 then i / 32 else i / 32 + 128

/-- The engine input of channel k of a source; none for a source without engine inputs. -/
def srcIn (s k : Nat) : Option Nat :=
  if s < 144 then some (32 * s + k) else if 272 ≤ s ∧ s < 320 then some (32 * (s - 128) + k) else none

/-- The destination of an engine output below 6144. -/
def outDst (j : Nat) : Nat := if j / 32 < 144 then j / 32 else j / 32 + 128

/-- A destination with embedding (R475). -/
def embeds (d : Nat) : Bool := d < 144 || (272 ≤ d && d < 320)

/-- An engine input that the role offers (R471, R478). -/
def inOffered (role i : Nat) : Bool := if i < 6144 then srcOffered role (inSrc i) else i ≤ 7713

/-- An engine output that the role offers (R472). -/
def outOffered (role j : Nat) : Bool := if j < 6144 then dstOffered role (outDst j) else j ≤ 7711

/-- An engine output in use: a SET entry, for a destination output with its destination in EMBED (R475, R478). -/
def Chip.outUsed (c : Chip) (j : Nat) : Bool :=
  c.on (AUD_SHUF_SET j) && (6144 ≤ j || c.on (AUD_DST_CTL_EMBED (outDst j)))

/-- The engine input an entry takes: SRC, or with FOLLOW the channel of the routed source (R477). -/
def Chip.outTakes (c : Chip) (j : Nat) : Option Nat :=
  if c.on (AUD_SHUF_FOLLOW j) then
    if c.on (XPT_DST_CTL_ROUTED (outDst j)) then srcIn (c.rd (XPT_DST_CTL_SOURCE (outDst j))) (j % 32) else none
  else some (c.rd (AUD_SHUF_SRC j))

/-- The entries in use. -/
def Chip.outs (c : Chip) : List Nat := ((c.listed 0x508000 8192).map Prod.fst).filter c.outUsed

/-! ### The plane bridge (R485) -/

/-- The engine inputs on the inbound converter and the engine outputs on the outbound converter. -/
def Chip.bridged (c : Chip) : List Nat × List Nat :=
  let ep := c.enginePlane
  let ins := (c.outs.filterMap c.outTakes).filter fun i => i < 6144 && c.srcPlane (c.leadOf (inSrc i)) != ep
  (ins.eraseDups, c.outs.filter fun j => j < 6144 && c.dstPlane (outDst j) != ep)

/-- AUD_BRIDGE_USE follows the settings. -/
def Chip.bridgeShow (c : Chip) : Chip :=
  let b := c.bridged
  (c.wr AUD_BRIDGE_USE_IN_CH (min 512 b.1.length)).wr AUD_BRIDGE_USE_OUT_CH (min 512 b.2.length)

/-- The part is the active or the standby of a pair. -/
def Chip.twnActive (c : Chip) : Bool := c.rd TWN_STATE_MODE == 1 && c.on TWN_PEER_PRESENT
def Chip.twnStandby (c : Chip) : Bool := c.rd TWN_STATE_MODE == 2

/-- The stream of a message (R554): 0 URGENT, 1 CONTROL, 2 BULK. -/
def streamOf (mtype : Nat) : Nat := if mtype = 4 then 0 else if mtype = 10 then 2 else 1

/-- A message leaves on the twin lanes while one is usable (R552 to R554): MSEQ and the epochs of the planes before its body. -/
def Chip.tell (c : Chip) (mtype : Nat) (body : List Nat) : Chip :=
  if c.rd TWN_STATE_LANES_UP = 0 then c
  else
    let k := streamOf mtype
    let m := c.twn.tx.getD k 0
    { c with
      sent := c.sent ++ [(mtype, [m, c.epochNow 0, c.epochNow 1] ++ body)]
      twn := { c.twn with tx := putAt 3 0 c.twn.tx k (m + 1) } }

/-- The ratio of a block: the active part forwards its own, the standby uses the forwarded one, or its own with BRIDGE_MISS (R486). -/
def Chip.bridgeRatio (c : Chip) (blk : Nat) (own : Int) : Chip :=
  let (r, c) :=
    if c.twnStandby then
      match c.aud.ratios.lookup blk with
      | some r => (r, c)
      | none => (own, ((c.set AUD_STATUS_BRIDGE_MISS).noteMiss c.enginePlane).post 0x0C 0x0003 blk 0)
    else (own, c.when c.twnActive (·.tell 4 [3, blk, ofSigned 32 own]))
  let c := c.wrI AUD_BRIDGE_RATIO_RATIO r
  { c with aud := { c.aud with phase := c.aud.phase + 48 * r, ratios := c.aud.ratios.filter (·.1 != blk) } }

/-! ### Samples -/

/-- A 24-bit word. -/
def sat24 (x : Int) : Int := clampI (-8388608) 8388607 x

/-- Sample `k` of an engine input as the block's operand holds it. -/
def blockWord (b : AudioBlock) (i k : Nat) : Int :=
  match b.ins.lookup i with | some l => sat24 (l.getD k 0) | none => 0

/-- Sample `k` of an embedded channel with its non-audio mark; silence where R474 says so. Of a bonded group only lane 4k is de-embedded (R289). -/
def Chip.embedded (c : Chip) (b : AudioBlock) (i k : Nat) : Int × Bool :=
  let s := inSrc i
  let cls := fmtClass (c.detFmt (c.leadOf s))
  if !(srcOffered c.role s) || c.leadOf s != s || !(c.srcValid s) || cls ≤ 1 || (cls == 2 && 16 ≤ i % 32)
      || (s < 48 && bit (tget {} c.sdi s).unsup (i % 32 / 4)) then (0, false)
  else (blockWord b i k, b.nonAudio.contains i)

/-- Sample `k` of a receive flow channel; silence for a channel of no receiving flow (R408). -/
def Chip.flowWord (c : Chip) (b : AudioBlock) (i k : Nat) : Int :=
  if (List.range 64).any fun f => c.on (AUD_RXF_BASE_VALID f) && c.rd (NET_RXF_STAT_STATE (32 + f)) == 2
      && 6144 + c.rd (AUD_RXF_BASE_BASE f) ≤ i
      && i < 6144 + c.rd (AUD_RXF_BASE_BASE f) + channelsOf (c.get (NET_RXF_AUX (32 + f)))
  then blockWord b i k else 0

/-- The result a mix output presents: the newest for a Ristretto output, the fifth for a normal one (R484, R490). -/
def Chip.mixOut (c : Chip) (o : Nat) : Int := (c.lim o).pipe.getD (if c.on (AUD_MIXOUT_CTL_RISTRETTO o) then 0 else 4) 0

/-- Sample `k` of the running block at an engine input (R471). -/
def Chip.engineIn (c : Chip) (b : AudioBlock) (k i : Nat) : Int × Bool :=
  if i < 6144 then c.embedded b i k
  else if i < 7168 then (c.flowWord b i k, false)
  else if i < 7200 then
    let x := (tget {} c.sap ((i - 7168) / 2)).lastRx
    (if i % 2 = 0 then x.1 else x.2, false)
  else if i < 7712 then (c.mixOut (i - 7200), false)
  else if i = 7713 then (Config.sine k, false)
  else (0, false)

/-- The sample an engine output carries now: its engine input DELAY samples ago (R478). -/
def Chip.engineOut (c : Chip) (b : AudioBlock) (k j : Nat) : Int × Bool :=
  if !(c.on (AUD_SHUF_SET j)) then (0, false)
  else
    match c.outTakes j with
    | none => (0, false)
    | some i =>
      match c.rd (AUD_SHUF_DELAY j) with
      | 0 => c.engineIn b k i
      | d + 1 =>
        if i = 7713 then (Config.sine ((k + 4096 + 32 - (d + 1)) % 48), false)
        else (tget ([] : List (Int × Bool)) c.aud.hist i).getD d (0, false)

/-! ### Embedding (R475 to R477, R488) -/

/-- Channel `ch` of a destination as the state embeds it at sample `k`: none where nothing is embedded (R475, R289), silence during a loss action
(R184, R477), the channel of the routed source in PASS (R192), the engine output in EMBED. -/
def Chip.embedNow (c : Chip) (b : AudioBlock) (k d ch : Nat) : Option (Int × Bool) :=
  let cls := fmtClass (c.dst d).present
  let s := c.rd (XPT_DST_CTL_SOURCE d)
  let j := 32 * (if d < 144 then d else d - 128) + ch
  if !(embeds d) || !(c.on (XPT_DST_CTL_ROUTED d)) || cls ≤ 1 || (cls == 2 && 16 ≤ ch) || (c.on (XPT_DST_CTL_QUAD d) && d % 4 != 0) then none
  else if c.on (AUD_DST_CTL_EMBED d) then
    if !((List.range 4).any fun i => c.on (AUD_SHUF_SET (j / 4 * 4 + i))) then none
    else some (if c.on (XPT_DST_STAT_LOSS_ACTIVE d) then (0, false) else c.engineOut b k j)
  else (srcIn s ch).map fun i => if c.on (XPT_DST_STAT_LOSS_ACTIVE d) then (0, false) else c.embedded b i k

/-- The chip with a destination's audio in the state before a fade. -/
def Chip.unfaded (c : Chip) (d : Nat) (f : Fade) : Chip :=
  let c := (c.put (XPT_DST_CTL d) f.route).wr (AUD_DST_CTL_EMBED d) f.embed
  let j := 32 * (if d < 144 then d else d - 128)
  c.each (List.range 32) fun c i => c.put (AUD_SHUF (j + i)) (f.shuf.getD i 0)

/-- A sample times n/64, truncated towards zero. -/
def fadeTerm (x : Option (Int × Bool)) (n : Int) : Option (Int × Bool) := x.map fun v => ((v.1 * n).tdiv 64, v.2)

/-- Channel `ch` of a destination at sample `k` of the running block: in a fade the old audio falls over 64 samples, then the new one rises over 64
(R178, R488). -/
def Chip.embedOut (c : Chip) (b : AudioBlock) (k d ch : Nat) : Option (Int × Bool) :=
  match c.aud.fades.lookup d with
  | none => c.embedNow b k d ch
  | some f =>
    let j := sub32 (c.aud.first + k) f.at_
    if j < 64 then fadeTerm ((c.unfaded d f).embedNow b k d ch) (64 - j)
    else if j < 128 then fadeTerm (c.embedNow b k d ch) ((j : Int) - 63)
    else c.embedNow b k d ch

/-- The engine input whose channel status, user and validity bits an embedded channel carries (R476): a channel that only the shuffle has passed keeps
its own; none is the fixed bits. -/
def Chip.statusFrom (c : Chip) (d ch : Nat) : Option Nat :=
  let j := 32 * (if d < 144 then d else d - 128) + ch
  if c.on (XPT_DST_STAT_LOSS_ACTIVE d) then none
  else ((if c.on (AUD_DST_CTL_EMBED d) then (if c.on (AUD_SHUF_SET j) then c.outTakes j else none)
    else srcIn (c.rd (XPT_DST_CTL_SOURCE d)) ch).filter fun i => i < 6144 && c.srcValid (inSrc i))

/-- The fade of a destination at the first engine sample whose output instant is at or after its switching point (R487), where its route, its EMBED
mode or its shuffle entries have changed since `old`; one fade for all of them. -/
def Chip.fadeFrom (c old : Chip) (d : Nat) : Chip :=
  let j := 32 * (if d < 144 then d else d - 128)
  let shuf := fun (c : Chip) => (List.range 32).map fun i => c.get (AUD_SHUF (j + i))
  let route := fun (c : Chip) => (c.rd (XPT_DST_CTL_SOURCE d), c.on (XPT_DST_CTL_ROUTED d))
  let changed := route c != route old || c.rd (AUD_DST_CTL_EMBED d) != old.rd (AUD_DST_CTL_EMBED d) || shuf c != shuf old
  if !(embeds d) || !(c.on (XPT_DST_CTL_AUD_VFADE d)) || !changed then c
  else
    let start := c.aud.blockAt + c.outDelay d (c.dst d).present
    let n : Int := ((c.now : Int) - start) * 48000 / (sec 1 : Nat)
    let k := (n + (if n * (sec 1 : Nat) < ((c.now : Int) - start) * 48000 then 1 else 0) + c.aud.first).emod (2 ^ 32)
    let f : Fade := ⟨k.toNat, old.get (XPT_DST_CTL d), old.rd (AUD_DST_CTL_EMBED d), shuf old⟩
    { c with aud := { c.aud with fades := (d, f) :: c.aud.fades.filter fun e => e.1 != d } }

/-- A list without the default elements at its end. -/
def trimEnd {α : Type} [DecidableEq α] (dflt : α) : List α → List α
  | [] => []
  | x :: xs =>
    match trimEnd dflt xs with
    | [] => if x = dflt then [] else [x]
    | ys => x :: ys

/-- The samples of every engine input enter the memory the delays read, 4095 samples deep; an input not listed has been silent. -/
def Chip.remember (c : Chip) (b : AudioBlock) (k : Nat) : Chip :=
  let is := (c.aud.hist.map Prod.fst ++ b.ins.map Prod.fst ++ ((c.sap.map Prod.fst).flatMap fun (p : Nat) => [7168 + 2 * p, 7169 + 2 * p])
    ++ (c.aud.lims.map Prod.fst).map (7200 + ·)).eraseDups
  let h := is.foldl (fun h i => tput [] h i (trimEnd (0, false) ((c.engineIn b k i :: tget ([] : List (Int × Bool)) h i).take 4095))) c.aud.hist
  { c with aud := { c.aud with hist := h } }

/-! ### Filters (R479) -/

/-- The rounding of a filter sum. -/
def filtRound (x : Int) : Int := sat24 ((x + 536870912) / 1073741824)

/-- One sample through the offset filter. -/
def offsetStep (f : Filt) (x : Int) : Filt :=
  let y := filtRound (Config.filtCoef 0 * x + Config.filtCoef 1 * f.x1 - Config.filtCoef 2 * f.y1)
  { f with x1 := x, y1 := y }

/-- One sample through the high-pass section `h`, 1 to 4. -/
def highStep (h : Nat) (f : Filt) (x : Int) : Filt :=
  let k := fun n => Config.filtCoef (5 * h - 2 + n)
  let y := filtRound (k 0 * x + k 1 * f.hx1 + k 2 * f.hx2 - k 3 * f.hy1 - k 4 * f.hy2)
  { f with hx1 := x, hx2 := f.hx1, hy1 := y, hy2 := f.hy1 }

/-- One sample through the filters of a mix input: its state after, and the filtered sample. -/
def filtStep (hpf : Nat) (f : Filt) (x : Int) : Filt × Int :=
  let f := offsetStep f x
  if hpf = 0 ∨ 4 < hpf then (f, f.y1)
  else
    let g := highStep hpf f f.y1
    (g, g.hy1)

/-! ### Coefficients and ramps (R481, R489) -/

/-- The length of a ramp in samples. -/
def rampLen (r : Nat) : Nat := [0, 64, 480, 4800].getD r 0

/-- The value of a coefficient after `n` samples of its ramp. -/
def Coef.value (x : Coef) (n : Nat) : Int :=
  if x.len ≤ n then x.goal else if n = 0 then x.start else x.start + ((x.goal - x.start) * n).tdiv x.len

/-- The value of a coefficient now. -/
def Coef.current (x : Coef) : Int := x.value x.done

/-- The coefficient after one more sample. -/
def Coef.next (x : Coef) : Coef := if x.len ≤ x.done + 1 then { goal := x.goal } else { x with done := x.done + 1 }

/-- A new value for a coefficient, with its ramp, from its present value. -/
def Coef.moveTo (x : Coef) (g : Int) (ramp : Nat) : Coef :=
  if rampLen ramp = 0 then { goal := g } else { goal := g, start := x.current, done := 0, len := rampLen ramp }

/-! ### Limiter (R483, R484) -/

/-- The thresholds T = round(2^23 * 10^(-THRESH/200)) of R483, THRESH 0 to 200. -/
def limT : List Nat :=
  [8388608, 8292584, 8197660, 8103822, 8011058, 7919357, 7828704, 7739090, 7650501, 7562927, 7476355, 7390774,
   7306172, 7222539, 7139863, 7058134, 6977340, 6897471, 6818517, 6740466, 6663308, 6587034, 6511633, 6437095,
   6363410, 6290569, 6218561, 6147378, 6077009, 6007446, 5938680, 5870700, 5803499, 5737067, 5671395, 5606475,
   5542298, 5478856, 5416140, 5354142, 5292854, 5232267, 5172374, 5113166, 5054636, 4996776, 4939579, 4883036,
   4827140, 4771884]
  ++ [4717261, 4663263, 4609883, 4557114, 4504949, 4453381, 4402404, 4352010, 4302193, 4252946, 4204263, 4156137,
   4108563, 4061532, 4015040, 3969080, 3923647, 3878733, 3834334, 3790442, 3747054, 3704161, 3661760, 3619844,
   3578408, 3537447, 3496954, 3456925, 3417353, 3378235, 3339565, 3301337, 3263547, 3226190, 3189260, 3152753,
   3116663, 3080987, 3045719, 3010855, 2976390, 2942320, 2908640, 2875345, 2842431, 2809894, 2777729, 2745933,
   2714500, 2683428]
  ++ [2652711, 2622345, 2592328, 2562654, 2533319, 2504320, 2475654, 2447315, 2419301, 2391607, 2364231, 2337168,
   2310414, 2283967, 2257823, 2231978, 2206429, 2181172, 2156204, 2131522, 2107123, 2083003, 2059159, 2035588,
   2012287, 1989252, 1966482, 1943972, 1921719, 1899721, 1877975, 1856478, 1835227, 1814220, 1793453, 1772923,
   1752629, 1732566, 1712734, 1693128, 1673747, 1654588, 1635648, 1616925, 1598416, 1580119, 1562032, 1544151,
   1526476, 1509002]
  ++ [1491729, 1474653, 1457773, 1441086, 1424590, 1408283, 1392162, 1376226, 1360473, 1344900, 1329505, 1314286,
   1299242, 1284369, 1269667, 1255133, 1240766, 1226563, 1212523, 1198643, 1184922, 1171359, 1157950, 1144695,
   1131592, 1118639, 1105834, 1093176, 1080662, 1068292, 1056063, 1043975, 1032024, 1020211, 1008533, 996988,
   985576, 974294, 963141, 952116, 941217, 930443, 919793, 909264, 898856, 888566, 878395, 868340,
   858400, 848574]
  ++ [838861]

/-- RLS[c] = round(2^32 * (1 - e^(-1/(48000 tau_c)))) of R483, by RELEASE code. -/
def limRls : List Nat :=
  [88552857, 44507033, 17858466, 8938534, 4471595, 1789197, 894692, 447369, 178953, 89478, 44739]

/-- The full gain. -/
def fullGain : Nat := 2 ^ 24

/-- The gain a line entry asks for. -/
def gainFor (T : Nat) (x : Int) : Nat := if T < x.natAbs then T * fullGain / x.natAbs else fullGain

/-- The gain after a sample entered the line: release, then the least of the approaches to the gains asked for. -/
def limGain (T rls g : Nat) (line : List Int) : Nat :=
  let gn := g + (fullGain - g) * rls / 2 ^ 32
  (List.range 32).foldl (fun gn k =>
    let r := gainFor T (line.getD k 0)
    if r < g then min gn (g - (g - r) / (k + 1)) else gn) gn

/-- One sample of a normal mix output: the line and gain after, the result, and whether it saturated. -/
def limStep (en : Bool) (T rls : Nat) (l : Lim) (acc : Int) : Lim × Bool :=
  let line := l.line.drop 1 ++ [acc]
  let g := limGain T rls l.g line
  let x := line.getD 0 0
  let y := if en then x * g / 16777216 else x
  ({ l with line := line, g := g, pipe := sat24 y :: l.pipe.take 4 }, sat24 y != y)

/-- One sample of a Ristretto output. -/
def risStep (en : Bool) (T : Nat) (l : Lim) (acc : Int) : Lim × Bool :=
  let y := if en then clampI (-(T : Int)) T acc else sat24 acc
  ({ l with pipe := y :: l.pipe.take 4 }, !en && sat24 acc != acc)

/-- One product of the matrix, rounded (R482). -/
def mixTerm (s g : Int) : Int := (s * g + 16384) / 32768

/-! ### One sample of the mix -/

/-- A mix input takes its sample: (input, unfiltered, filtered); a non-audio input is silent and flagged (R480). -/
def Chip.mixIn (c : Chip) (b : AudioBlock) (k i : Nat) : Chip × (Nat × Int × Int) :=
  let (x, non) := c.engineOut b k (7200 + i)
  let x := if non then 0 else x
  let was := c.on (AUD_MIXIN_CTL_NON_PCM i)
  let c := c.when (non != was) (·.wrB (AUD_MIXIN_CTL_NON_PCM i) non)
  let c := c.when (non && !was) fun c =>
    (c.set AUD_STATUS_NON_PCM_MIX).post 0x0C 0x0002 i (c.rd (AUD_SHUF_SRC (7200 + i)))
  let (f, y) := filtStep (c.rd (AUD_MIXIN_CTL_HPF i)) (c.filt i) x
  (c.setFilt i f, (i, x, y))

/-- A saturated sample: CLIP_SEEN, CLIP, and the event at most once a second (R483). -/
def Chip.clip (c : Chip) (o : Nat) : Chip :=
  let l := c.lim o
  let old := l.clips.filter fun e => c.now < e.1 + sec 1
  let clips := match old with
    | (t, n) :: rest => if t = c.aud.blockAt then (t, n + 1) :: rest else (c.aud.blockAt, 1) :: old
    | [] => [(c.aud.blockAt, 1)]
  let due := match l.clipAt with | some t => decide (t + sec 1 ≤ c.now) | none => true
  let c := ((c.set (AUD_MIXOUT_STAT_CLIP_SEEN o)).set AUD_STATUS_CLIP).setLim o
    { l with clips := clips, clipAt := if due then some c.now else l.clipAt }
  c.when due (·.post 0x0C 0x0001 o (clips.map Prod.snd).sum)

/-- A mix output takes its sum and presents its result. -/
def Chip.mixStep (c : Chip) (o k : Nat) (xs : List (Nat × Int × Int)) : Chip :=
  let ris := c.on (AUD_MIXOUT_CTL_RISTRETTO o)
  let en := c.on (AUD_MIXOUT_CTL_LIM_EN o)
  let T := limT.getD (c.rd (AUD_MIXOUT_CTL_THRESH o)) 8388608
  let acc := ((c.aud.coefs.filter fun e => e.1 / 512 = o).map fun e =>
    match xs.lookup (e.1 % 512) with
    | some (x, y) => mixTerm (if ris then x else y) (e.2.value (e.2.done + 1))
    | none => 0).sum
  let (l, sat) := if ris then risStep en T (c.lim o) acc
    else limStep en T (limRls.getD (c.rd (AUD_MIXOUT_CTL_RELEASE o)) 0) (c.lim o) acc
  let p := (l.pipe.getD 0 0).natAbs
  let meters := match k, l.meters with
    | 0, ms => (p, l.g) :: ms
    | _, [] => [(p, l.g)]
    | _, (q, g) :: ms => (max p q, min g l.g) :: ms
  let c := c.setLim o { l with meters := meters }
  let lim := l.g != fullGain
  let c := c.when (lim != c.on (AUD_MIXOUT_STAT_LIMITING o)) (·.wrB (AUD_MIXOUT_STAT_LIMITING o) lim)
  (c.when lim (·.set AUD_STATUS_LIMITING)).when sat (·.clip o)

/-- The mix inputs and outputs that a sample can change: the others hold 0 and the full gain. -/
def Chip.mixIns (c : Chip) : List Nat :=
  (((c.outs.filter fun j => 7200 ≤ j && j < 7712).map (· - 7200)) ++ c.aud.filts.map Prod.fst
    ++ (List.range 512).filter fun i => c.on (AUD_MIXIN_CTL_NON_PCM i)).eraseDups
def Chip.mixOuts (c : Chip) : List Nat := ((c.aud.coefs.map Prod.fst).map (· / 512) ++ c.aud.lims.map Prod.fst).eraseDups

/-- One sample of the mix: every input, every output, and the ramps (R482). -/
def Chip.mixSample (c : Chip) (b : AudioBlock) (k : Nat) : Chip :=
  let (c, xs) := c.mixIns.foldl (fun (a : Chip × List (Nat × Int × Int)) i =>
    let r := a.1.mixIn b k i
    (r.1, r.2 :: a.2)) (c, [])
  let c := c.each c.mixOuts fun c o => c.mixStep o k xs
  { c with aud := { c.aud with coefs := c.aud.coefs.map fun e => (e.1, e.2.next) } }

/-- The meters at the end of a block: the greatest peak and gain reduction of the last 100 (R500). -/
def Chip.meter (c : Chip) (o : Nat) : Chip :=
  let l := c.lim o
  let ms := trimEnd (0, fullGain) (l.meters.take 100)
  let p := (ms.map Prod.fst).foldl max 0
  let g := (ms.map Prod.snd).foldl min fullGain
  let c := c.setLim o { l with meters := ms }
  (c.wr (AUD_MIXOUT_STAT_PEAK o) (if p = 0 then 1440 else min 1440 (Config.decibels p))).wr (AUD_MIXOUT_STAT_GR o)
    (if g = fullGain then 0 else min 255 (Config.gainDecibels g))

/-! ### The state digest (R497) -/

/-- One bit step of CRC-64 with the ECMA-182 polynomial (R560). -/
def crcBit (r : BitVec 64) : BitVec 64 := if r.msb then (r <<< 1) ^^^ 0x42F0E1EBA9EA3693#64 else r <<< 1

/-- One byte enters at the most significant end. -/
def crcByte (r : BitVec 64) (b : Nat) : BitVec 64 :=
  (List.range 8).foldl (fun r _ => crcBit r) (r ^^^ BitVec.ofNat 64 (b % 256 * 2 ^ 56))

/-- A 64-bit word enters, lowest byte first. -/
def crcWord (r : BitVec 64) (w : Nat) : BitVec 64 := (List.range 8).foldl (fun r i => crcByte r (bits w (8 * i) 8)) r

/-- The 64-bit words of the audio state in the order of R497. -/
def Chip.audWords (c : Chip) : List Nat :=
  let s := ofSigned 64
  ((List.range 512).flatMap fun i =>
    let f := c.filt i
    [Config.offsetWord f.x1 f.y1, s f.hx1, s f.hx2, s f.hy1, s f.hy2])
  ++ ((List.range 512).flatMap fun o =>
    let l := c.lim o
    l.g :: l.line.map s ++ [Config.rampWord ((c.aud.coefs.filter fun e => e.1 / 512 = o ∧ e.2.len ≠ 0).map fun e => (e.1 % 512, e.2.done, e.2.len))])
  ++ [s (c.rdI AUD_BRIDGE_RATIO_RATIO), s c.aud.phase]

/-- AUD_STATE_CRC is computed at a frame boundary of the engine plane, while the engine runs. -/
def Chip.audDigest (c : Chip) : Chip :=
  if !(c.domOn domAud) || c.role == 2 then c
  else
    let r := (c.audWords.foldl crcWord 0#64).toNat
    (c.put AUD_STATE_CRC_LO (r % 2 ^ 32)).put AUD_STATE_CRC_HI (r / 2 ^ 32)

/-- The working state of the engine is lost with its domain (R498): coefficients keep the values they were moving to. -/
def Chip.audLost (c : Chip) : Chip :=
  let gone := c.each (c.aud.lims.map Prod.fst) fun c o => c.clr (AUD_MIXOUT_STAT_LIMITING o)
  { gone with aud := { coefs := c.aud.coefs.map fun e => (e.1, { goal := e.2.goal }), sapDue := c.aud.sapDue } }

/-! ### Changes -/

/-- A shuffle entry takes (R478). -/
def Chip.applyShuf (c : Chip) (j w : Nat) : Chip := (c.put (AUD_SHUF j) (w &&& 0x0FFF7FFF)).bridgeShow

/-- An embed mode takes (R475). -/
def Chip.applyEmbed (c : Chip) (d w : Nat) : Chip := (c.wr (AUD_DST_CTL_EMBED d) w).bridgeShow

/-- A coefficient takes (R489): the 20-bit value and the ramp. -/
def Chip.applyGain (c : Chip) (k g ramp : Nat) : Chip := c.setCoef k ((c.coef k).moveTo (toSigned 20 g) ramp)

/-- An input filter takes: a change resets the high-pass filter (R479). -/
def Chip.applyMixin (c : Chip) (i h : Nat) : Chip :=
  let f := c.filt i
  (c.wr (AUD_MIXIN_CTL_HPF i) h).when (c.rd (AUD_MIXIN_CTL_HPF i) != h) (·.setFilt i { x1 := f.x1, y1 := f.y1 })

/-- A limiter setting takes: a change of RISTRETTO discards the samples on their way (R496), and g of a Ristretto output is 2^24. -/
def Chip.applyMixout (c : Chip) (o w : Nat) : Chip :=
  let was := c.on (AUD_MIXOUT_CTL_RISTRETTO o)
  let c := c.put (AUD_MIXOUT_CTL o) (w % 2 ^ 14)
  c.when (was != bit w 1) fun c =>
    let l := c.lim o
    (c.setLim o { clips := l.clips, clipAt := l.clipAt, meters := l.meters }).clr (AUD_MIXOUT_STAT_LIMITING o)

/-! ### Requests (R491 to R495) -/

/-- The entries of a request as pairs of words. -/
def wordPairs (ws : List Nat) (n : Nat) : List (Nat × Nat) := (List.range n).map fun i => (ws.getD (2 * i) 0, ws.getD (2 * i + 1) 0)

/-- The argument check of one entry of AUD_SET_SHUFFLE. -/
def shufArgs (role : Nat) (e : Nat × Nat) : Bool :=
  let (a, b) := e
  let j := bits a 0 13
  bits a 13 2 == 0 && bits a 16 16 == 0 &&
    (if bit a 15 then embeds j && dstOffered role j && b ≤ 1
     else outOffered role j && !(bit b 15) && bits b 28 4 == 0 && (!(bit b 13) || j < 6144) && (bit b 13 || inOffered role (bits b 0 13)))

/-- The change of one entry. -/
def shufChange (e : Nat × Nat) : Change :=
  if bit e.1 15 then ⟨.embed, bits e.1 0 13, [e.2]⟩ else ⟨.shuf, bits e.1 0 13, [e.2]⟩

/-- The plane an entry counts on (R491). -/
def Chip.shufPlane (c : Chip) (e : Nat × Nat) : Nat :=
  let j := bits e.1 0 13
  if bit e.1 15 then c.dstPlane j else if j < 6144 then c.dstPlane (outDst j) else c.enginePlane

/-- The chip with shuffle and embed entries written, as the capacity check counts it (R485). -/
def Chip.withShuf (c : Chip) (es : List (Nat × Nat)) : Chip :=
  c.each es fun c e => if bit e.1 15 then c.wr (AUD_DST_CTL_EMBED (bits e.1 0 13)) e.2 else c.put (AUD_SHUF (bits e.1 0 13)) e.2

/-- The checks of AUD_SET_SHUFFLE. -/
def chkSetShuffle (x : Ctx) (r : Req) : Check :=
  let c := x.c
  let n := r.w 2
  let es := wordPairs (r.ws 3 (2 * n)) n
  let on := fun p => es.any fun e => c.shufPlane e == p
  let fits := fun (a : Chip) => let b := (a.withShuf es).bridged; b.1.length ≤ 512 && b.2.length ≤ 512
  require (r.lenIs (3 + 2 * n)) stBadLength <|
  require (c.role != 2 && r.epoch == 0 && 1 ≤ n && n ≤ 508 && nodup (es.map fun e => bits e.1 0 13 + 2 * (bits e.1 15 1 * 8192))
    && es.all (shufArgs c.role)) stBadArg <|
  match planeEpochs c (r.w 0) (r.w 1) on with
  | .error st => .error st
  | .ok (e0, e1) =>
    require (c.domOn domAud) stDenied <|
    require ([0, 1].all fun p => !(on p) || fits (x.atEpoch p (r.w p))) stNoResource <|
    .ok { resp := ⟨stPending, 0, 0, [e0, e1]⟩
          pends := es.flatMap fun e => pendsAt r (c.shufPlane e) (if c.shufPlane e = 0 then e0 else e1) [shufChange e] }

/-- The checks of AUD_SET_GAINS. -/
def chkSetGains (x : Ctx) (r : Req) : Check :=
  let c := x.c
  let n := r.w 0
  let es := wordPairs (r.ws 2 (2 * n)) n
  let key := fun (e : Nat × Nat) => bits e.1 16 9 * 512 + bits e.1 0 9
  require (r.lenIs (2 + 2 * n)) stBadLength <|
  require (c.role != 2 && 1 ≤ n && n ≤ 509 && r.w 1 ≤ 3 && nodup (es.map key) && es.all fun e =>
    e.1 &&& 0xFE00FE00 == 0 && e.2 < 2 ^ 20 && (toSigned 20 e.2).natAbs ≤ 519338) stBadArg <|
  withEpoch c c.enginePlane r.epoch fun e =>
  require (c.domOn domAud) stDenied <|
  pendPlan r c.enginePlane e (es.map fun b => ⟨.gain, key b, [b.2, r.w 1]⟩)

/-- The argument check of one word of AUD_SET_LIMITER. -/
def limArgs (w : Nat) : Bool :=
  match bits w 30 2 with
  | 0 => bits w 10 3 ≤ 4 && w &&& 0x3FFFE200 == 0
  | 1 => 1 ≤ bits w 11 8 && bits w 11 8 ≤ 200 && bits w 19 4 ≤ 10 && bits w 23 7 == 0
  | 2 => bits w 1 29 == 0
  | _ => false

/-- The change of one word of AUD_SET_LIMITER. -/
def limChange (w : Nat) : Change :=
  match bits w 30 2 with
  | 0 => ⟨.mixin, bits w 0 9, [bits w 10 3]⟩
  | 1 => ⟨.mixout, bits w 0 9, [bits w 9 14]⟩
  | _ => ⟨.engine, 0, [bits w 0 1]⟩

/-- Nothing uses the engine: its plane may change (R494). -/
def Chip.engineIdle (c : Chip) : Bool :=
  !((c.listed 0x508000 8192).any fun e => bit e.2 14) && c.aud.coefs.all (fun e => e.2.goal == 0 && e.2.current == 0)
    && !((c.listed 0x501000 320).any fun e => bit e.2 0)
    && (List.range 64).all fun i => !(c.on (NET_RXF_CTL_JOINED (32 + i))) && !(c.on (NET_TXF_CTL_ENABLE (32 + i)))

/-- The checks of AUD_SET_LIMITER. -/
def chkSetLimiter (x : Ctx) (r : Req) : Check :=
  let c := x.c
  let n := r.w 0
  let ws := r.ws 1 n
  let cs := ws.map limChange
  require (r.lenIs (1 + n)) stBadLength <|
  require (c.role != 2 && 1 ≤ n && n ≤ 1019 && ws.all limArgs
    && nodup (cs.map fun y => y.idx + 512 * (match y.kind with | .mixin => 0 | .mixout => 1 | _ => 2))) stBadArg <|
  withEpoch c c.enginePlane r.epoch fun e =>
  require (!(cs.any fun y => y.kind == .engine) || (x.atEpoch c.enginePlane r.epoch).engineIdle) stDenied <|
  require (c.domOn domAud) stDenied <|
  pendPlan r c.enginePlane e cs

/-- AUD_GET_STATUS (R495). -/
def chkAudStatus (x : Ctx) (r : Req) : Check :=
  let c := x.c
  match r.w 0 with
  | 0 =>
    require (r.lenIs 1) stBadLength <|
    okPlan [c.get AUD_STATUS, c.get AUD_CFG, c.get AUD_STATE_CRC_LO, c.get AUD_STATE_CRC_HI, c.get AUD_BRIDGE_RATIO, c.get AUD_BRIDGE_USE]
  | 1 =>
    require (r.lenIs 3) stBadLength <|
    require (1 ≤ r.w 2 && r.w 2 ≤ 510 && r.w 1 + r.w 2 ≤ 512) stBadArg <|
    okPlan ((List.range (r.w 2)).flatMap fun i => [c.get (AUD_MIXOUT_CTL (r.w 1 + i)), c.get (AUD_MIXOUT_STAT (r.w 1 + i))])
  | 2 =>
    require (r.lenIs 4) stBadLength <|
    require (r.w 1 < 512 && 1 ≤ r.w 3 && r.w 3 ≤ 512 && r.w 2 + r.w 3 ≤ 512) stBadArg <|
    okPlan ((List.range (r.w 3)).map fun i => argI (c.coef (r.w 1 * 512 + r.w 2 + i)).current)
  | 3 =>
    require (r.lenIs 3) stBadLength <|
    require (1 ≤ r.w 2 && r.w 2 ≤ 1000 && r.w 1 + r.w 2 ≤ 8192) stBadArg <|
    okPlan ((List.range (r.w 2)).map fun i => c.get (AUD_SHUF (r.w 1 + i)))
  | _ => .error stBadArg

end Sys2Proof.Machine
end

