-- ==== Sys2Proof/Machine/SapOps.lean ====
section
/-! DEFINITION. Operations of the serial audio ports (chapter 17): stamps, buffers, slips and rejoining, the lead port's DCO, the
samples of a block of the engine, and the checks of the requests of the block. -/

namespace Sys2Proof.Machine

def Chip.sapPort (c : Chip) (p : Nat) : SapPort := tget {} c.sap p
def Chip.setSap (c : Chip) (p : Nat) (x : SapPort) : Chip := { c with sap := tput {} c.sap p x }

/-! ### Modes and state (R504, R505) -/

/-- A port runs: enabled, its domain ACTIVE, in a role that has ports; one whose domain has returned to ACTIVE from the next audio block on (R98). -/
def Chip.sapRuns (c : Chip) (p : Nat) : Bool :=
  c.role != 2 && c.on (SAP_PORT_CTL_ENABLE p) && c.domOn (domSap p) && !(c.sapPort p).waits

/-- A port that locks: slave or lead. -/
def Chip.sapLocks (c : Chip) (p : Nat) : Bool := !(c.on (SAP_PORT_CTL_MASTER p))

/-- The port's clock is usable: a master port, or a locked one. -/
def Chip.sapClocked (c : Chip) (p : Nat) : Bool := !(c.sapLocks p) || (c.sapPort p).locked

/-- A converter ratio of exactly 1: a master or lead port at 48 kHz. -/
def Chip.sapUnity (c : Chip) (p : Nat) : Bool :=
  c.rd (SAP_PORT_CTL_RATE p) == 0 && (c.on (SAP_PORT_CTL_MASTER p) || c.on (SAP_PORT_CTL_LEAD p))

/-- The sample rate of a port in Hz (R503). -/
def sapRate (r : Nat) : Nat := [48000, 44100, 96000, 48000].getD r 48000

/-- SAP_PORT_STAT shows the state and the fills of a port. -/
def Chip.sapShow (c : Chip) (p : Nat) : Chip :=
  let x := c.sapPort p
  let st := if !(c.sapRuns p) then 0 else if x.slipRx || x.slipTx then 3
    else if !(c.sapClocked p) || !x.rxOn then 1 else 2
  ((c.wr (SAP_PORT_STAT_STATE p) st).wr (SAP_PORT_STAT_RX_FILL p) x.rx.length).wr (SAP_PORT_STAT_TX_FILL p) x.tx.length

/-- A port restarts (R508, R512): buffers, stamps and lock start anew, and the swap ends. -/
def Chip.sapRestart (c : Chip) (p : Nat) : Chip :=
  (((c.setSap p {}).clr (SAP_PORT_STAT_SWAPPED p)).put (SAP_PORT_RATIO p) 0).sapShow p

/-- A port whose domain has returned to ACTIVE waits for the next 1 ms audio block (R98). -/
def Chip.sapWait (c : Chip) (p : Nat) : Chip := c.setSap p { c.sapPort p with waits := true }

/-- The ports that wait for a block restart with it (R98). -/
def Chip.sapResume (c : Chip) : Chip :=
  c.each ((c.sap.filter fun e => e.2.waits).map Prod.fst) fun c p => c.sapRestart p

/-- The engine sample index at this instant (R508). -/
def Chip.stampNow (c : Chip) : Nat :=
  match c.aud.block with
  | some _ => (c.aud.first + (c.now - c.aud.blockAt) * 48000 / sec 1) % 2 ^ 32
  | none => c.sampleNow c.enginePlane

/-- The latency of a port's group in samples (R509). -/
def Chip.sapLat (c : Chip) (p : Nat) : Nat := bits (c.get SAP_GROUP_LAT) (8 * c.rd (SAP_PORT_CTL_GROUP p)) 8

/-! ### Slips (R510 to R512) -/

/-- A sample is repeated or discarded by a slip: counted, and a port that has not slipped in that direction slips (R510); with WEAGOR
the channels are exchanged from then on (R512). -/
def Chip.sapSlip (c : Chip) (p : Nat) (tx : Bool) (count : Fld) : Chip :=
  let c := c.inc count
  let x := c.sapPort p
  let already := if tx then x.slipTx else x.slipRx
  let c := c.setSap p { x with
    moved := if x.slipRx || x.slipTx then x.moved + 1 else 1
    slipRx := x.slipRx || !tx
    slipTx := x.slipTx || tx }
  if already then c
  else
    let c := ((c.set (SAP_PORT_STAT_SLIP_SEEN p)).set SAP_STATUS_SLIP).post 0x0D 0x0003 p (b2n tx)
    c.when (c.on (SAP_PORT_CTL_WEAGOR p) && !(c.on (SAP_PORT_STAT_SWAPPED p))) fun c =>
      (((c.set (SAP_PORT_STAT_SWAPPED p)).set (SAP_PORT_STAT_SWAP_SEEN p)).set SAP_STATUS_SWAPPED).post 0x0D 0x0005 p 0

/-- A direction meets its target: once neither is slipped, the port is RUNNING and REJOINED is posted (R511). -/
def Chip.sapMeet (c : Chip) (p : Nat) (tx : Bool) : Chip :=
  let x := c.sapPort p
  let was := x.slipRx || x.slipTx
  let y := if tx then { x with slipTx := false, txOn := true } else { x with slipRx := false, rxOn := true }
  let c := c.setSap p y
  c.when (was && !y.slipRx && !y.slipTx) fun c => (c.setSap p { y with moved := 0 }).post 0x0D 0x0004 p x.moved

/-- The entries of a buffer whose stamps lie below a target, and the rest. -/
def staleRun (target : Nat) (l : List (Nat × (Int × Int))) : List (Nat × (Int × Int)) × List (Nat × (Int × Int)) :=
  l.span fun e => toSigned 32 (sub32 e.1 target) < 0

/-- The stamp at the head of a buffer is the target. -/
def headIs (target : Nat) (l : List (Nat × (Int × Int))) : Bool := match l with | e :: _ => e.1 == target | [] => false

/-- A receive port delivers at engine sample `n` (R509 to R511). -/
def Chip.sapDeliver (c : Chip) (p n : Nat) : Chip :=
  let x := c.sapPort p
  let target := sub32 n (c.sapLat p)
  let rep := SAP_PORT_RX_REP_COUNT p
  let take := fun (c : Chip) =>
    match (c.sapPort p).rx with
    | e :: rest => c.setSap p { c.sapPort p with rx := rest, lastRx := e.2 }
    | [] => c
  if !x.rxOn && !x.slipRx then
    let c := c.setSap p { x with rx := (staleRun target x.rx).2 }
    if headIs target (c.sapPort p).rx then take (c.sapMeet p false) else c
  else if x.slipRx then
    let (old, new) := staleRun target x.rx
    let c := ((c.setSap p { x with rx := new, moved := x.moved + old.length }).add (SAP_PORT_RX_DISC_COUNT p) old.length)
    if headIs target new then take (c.sapMeet p false) else c.sapSlip p false rep
  else if headIs target x.rx then take c
  else c.sapSlip p false rep

/-- The engine writes a sample for transmission at engine sample `n` (R509, R510). -/
def Chip.sapWrite (c : Chip) (p n : Nat) (v : Int × Int) : Chip :=
  let x := c.sapPort p
  let disc := SAP_PORT_TX_DISC_COUNT p
  if !(c.sapClocked p) then c.inc disc
  else if 64 ≤ x.tx.length then c.sapSlip p true disc
  else
    let v := if c.on (SAP_PORT_STAT_SWAPPED p) then (v.2, v.1) else v
    c.setSap p { x with tx := x.tx ++ [((n + c.sapLat p) % 2 ^ 32, v)] }

/-- A sample arrives at the receive buffer (R508, R510). -/
def Chip.sapArrive (c : Chip) (p : Nat) (v : Int × Int) : Chip :=
  let x := c.sapPort p
  let stamp := match x.rxStamp with | some s => (s + 1) % 2 ^ 32 | none => c.stampNow
  let v := if c.on (SAP_PORT_STAT_SWAPPED p) then (v.2, v.1) else v
  let c := c.setSap p { x with rxStamp := some stamp }
  if 64 ≤ x.rx.length then c.sapSlip p false (SAP_PORT_RX_DISC_COUNT p)
  else c.setSap p { c.sapPort p with rx := x.rx ++ [(stamp, v)] }

/-- A sample leaves the transmit buffer at a frame start (R508 to R511). -/
def Chip.sapLeave (c : Chip) (p : Nat) : Chip :=
  let x := c.sapPort p
  let target := match x.txStamp with | some s => (s + 1) % 2 ^ 32 | none => c.stampNow
  let c := c.setSap p { x with txStamp := some target }
  let x := c.sapPort p
  let rep := SAP_PORT_TX_REP_COUNT p
  let send := fun (c : Chip) =>
    match (c.sapPort p).tx with
    | e :: rest => c.setSap p { c.sapPort p with tx := rest, lastTx := e.2 }
    | [] => c
  if !x.txOn && !x.slipTx then
    let c := c.setSap p { x with tx := (staleRun target x.tx).2 }
    if headIs target (c.sapPort p).tx then send (c.sapMeet p true) else c
  else if x.slipTx then
    let (old, new) := staleRun target x.tx
    let c := ((c.setSap p { x with tx := new, moved := x.moved + old.length }).add (SAP_PORT_TX_DISC_COUNT p) old.length)
    if headIs target new then send (c.sapMeet p true) else c.sapSlip p true rep
  else if x.tx.isEmpty then c.sapSlip p true rep
  else send c

/-- A received word of W bits as an engine sample (R502); a converted sample is one already. -/
def Chip.sapWord (c : Chip) (p : Nat) (v : Int) : Int :=
  if c.sapUnity p then
    let w := max 16 (min 24 (c.rd (SAP_PORT_CTL_WORD p)))
    toSigned w (ofSigned w v) * (2 ^ (24 - w) : Nat)
  else sat24 v

/-- A frame start crosses the balls (R508): `bclk` periods since the one before, the samples the converter gives the engine side, and
how many it takes from it. A port that is not clocked passes none (R510). -/
def Chip.sapFrame (c : Chip) (p bclk : Nat) (rx : List (Int × Int)) (tx : Nat) : Chip :=
  if !(c.sapRuns p) then c
  else
    let x := c.sapPort p
    let c := c.setSap p { x with
      frameAt := c.now
      good := if bclk = 64 then min 64 (x.good + 1) else 0
      bad := if bclk = 64 then 0 else min 2 (x.bad + 1) }
    if !(c.sapClocked p) then c.sapShow p
    else
      let rx := if c.sapUnity p then rx.take 1 else rx.take 2
      let tx := if c.sapUnity p then 1 else min 2 tx
      let c := c.each rx fun c v => c.sapArrive p (c.sapWord p v.1, c.sapWord p v.2)
      (c.each (List.range tx) fun c _ => c.sapLeave p).sapShow p

/-- A slave or lead port becomes LOCKED (R505). -/
def Chip.sapLock (c : Chip) (p : Nat) (rate : Int) : Chip :=
  let x := c.sapPort p
  if c.sapRuns p && c.sapLocks p && !x.locked && 64 ≤ x.good && -500000 ≤ rate && rate ≤ 500000 then
    ((c.setSap p { x with locked := true, rate := rate, rxStamp := none, txStamp := none }).post 0x0D 0x0001 p
      (c.rd (SAP_PORT_CTL_RATE p))).sapShow p
  else c

/-- A port leaves LOCKED (R505): cause 1 no WS change at four expected frame starts, 2 two frames of a wrong length, 3 the measured
rate out of range. Its transmit buffer is emptied (R510). -/
def Chip.sapUnlock (c : Chip) (p cause : Nat) : Chip :=
  let x := c.sapPort p
  let holds := match cause with
    | 1 => decide (4 * sec 1 ≤ (c.now - x.frameAt + ns 1) * sapRate (c.rd (SAP_PORT_CTL_RATE p)))
    | 2 => decide (2 ≤ x.bad)
    | _ => decide (x.rate < -500000 ∨ 500000 < x.rate)
  if c.sapRuns p && c.sapLocks p && x.locked && holds then
    let c := c.setSap p { x with locked := false, good := 0, tx := [], txOn := false }
    let c := (c.set (SAP_PORT_STAT_UNLOCK_SEEN p)).set SAP_STATUS_UNLOCKED
    let c := c.when (cause == 2) fun c => (c.set (SAP_PORT_STAT_FRAMING_SEEN p)).set SAP_STATUS_FRAMING
    (c.post 0x0D 0x0002 p cause).sapShow p
  else c

/-- The row SLIPPED: the condition of R510 holds at a port that has not slipped in that direction; 0 receive underrun, 1 receive overrun,
2 transmit underrun, 3 transmit overrun. -/
def Chip.sapSlipped (c : Chip) (p kind : Nat) : Chip :=
  let x := c.sapPort p
  if !(c.sapRuns p) then c
  else
    let c := match kind with
      | 0 => c.when (x.rxOn && !x.slipRx && !(headIs (sub32 (c.stampNow + 1) (c.sapLat p)) x.rx)) (·.sapSlip p false (SAP_PORT_RX_REP_COUNT p))
      | 1 => c.when (!x.slipRx && 64 ≤ x.rx.length) (·.sapSlip p false (SAP_PORT_RX_DISC_COUNT p))
      | 2 => c.when (x.txOn && !x.slipTx && x.tx.isEmpty) (·.sapSlip p true (SAP_PORT_TX_REP_COUNT p))
      | _ => c.when (!x.slipTx && 64 ≤ x.tx.length) (·.sapSlip p true (SAP_PORT_TX_DISC_COUNT p))
    c.sapShow p

/-- The row REJOINED: each slipped direction whose head stamp equals its target meets it (R511). -/
def Chip.sapRejoined (c : Chip) (p : Nat) : Chip :=
  let x := c.sapPort p
  if !(c.sapRuns p) then c
  else
    let c := c.when (x.slipRx && headIs (sub32 (c.stampNow + 1) (c.sapLat p)) x.rx) (·.sapMeet p false)
    let c := c.when (x.slipTx && headIs ((x.txStamp.getD c.stampNow + 1) % 2 ^ 32) x.tx) (·.sapMeet p true)
    c.sapShow p

/-! ### The lead port (R507) -/

/-- SAP_CFG shows the lead port; without one AUD_MCLK_OUT runs at its nominal rate. -/
def Chip.leadShow (c : Chip) : Chip :=
  match (List.range 16).find? fun p => c.on (SAP_PORT_CTL_ENABLE p) && c.on (SAP_PORT_CTL_LEAD p) with
  | some p => (c.set SAP_CFG_LEAD_ACTIVE).wr SAP_CFG_LEAD_PORT p
  | none => ((c.clr SAP_CFG_LEAD_ACTIVE).wr SAP_CFG_LEAD_PORT 0).put SAP_MCLK_FREQ 0

/-- The DCO moves once a block, by at most 0.1 ppm, towards a receive buffer of 32 samples, within 250 ppm. -/
def Chip.leadMove (c : Chip) (move : Nat) : Chip :=
  if !(c.on SAP_CFG_LEAD_ACTIVE) then c
  else
    let fill := (c.sapPort (c.rd SAP_CFG_LEAD_PORT)).rx.length
    let step : Int := (min move 100 : Nat)
    let old := c.rdI SAP_MCLK_FREQ_OFFSET
    let new := clampI (-250000) 250000 (if fill < 32 then old + step else if 32 < fill then old - step else old)
    let c := c.wrI SAP_MCLK_FREQ_OFFSET new
    c.when (new != old && (new == 250000 || new == -250000)) fun c =>
      (c.set SAP_STATUS_LEAD_LIMIT).post 0x0D 0x0006 (c.rd SAP_CFG_LEAD_PORT) (argI new)

/-! ### The engine's samples -/

/-- One sample of the engine: the ports deliver, the mix runs, the ports are written, and the delays remember (R470). -/
def Chip.engineSample (c : Chip) (b : AudioBlock) (k : Nat) : Chip :=
  let n := (c.aud.first + k) % 2 ^ 32
  let ports := (List.range 16).filter c.sapRuns
  let c := c.each ports fun c p => c.sapDeliver p n
  let vs := ports.map fun p => (p, (c.engineOut b k (7168 + 2 * p)).1, (c.engineOut b k (7169 + 2 * p)).1)
  let c := (c.mixSample b k).remember b k
  c.each vs fun c v => (c.sapWrite v.1 n v.2).sapShow v.1

/-- The samples of the running block up to sample `n`; its end closes the meters. -/
def Chip.engineTo (c : Chip) (n : Nat) : Chip :=
  match c.aud.block with
  | none => c
  | some b =>
    let m := min 48 n
    if m ≤ c.aud.done then c
    else
      let c := c.each ((List.range m).drop c.aud.done) fun c k => c.engineSample b k
      let c := { c with aud := { c.aud with done := m } }
      if m < 48 then c else c.each (c.aud.lims.map Prod.fst) fun c o => c.meter o

/-- The engine reaches this instant: every sample of the running block whose instant has come is processed (R468, R470). -/
def Chip.engineRun (c : Chip) : Chip :=
  if c.aud.done < 48 then c.engineTo ((c.now - c.aud.blockAt) * 48000 / sec 1 + 1) else c

/-- The engine works: its domain ACTIVE, a role with audio, and a sample clock (R468). -/
def Chip.engineOn (c : Chip) : Bool :=
  c.role != 2 && c.domOn domAud && c.planeFmt c.enginePlane != 0 && (c.plane c.enginePlane).counted

/-- Stamps move with the sample index where it is set anew: delay lines and buffers continue (R468). -/
def SapPort.shift (x : SapPort) (d : Nat) : SapPort :=
  let f := fun (l : List (Nat × (Int × Int))) => l.map fun e => ((e.1 + d) % 2 ^ 32, e.2)
  { x with rx := f x.rx, tx := f x.tx, rxStamp := x.rxStamp.map fun s => (s + d) % 2 ^ 32, txStamp := x.txStamp.map fun s => (s + d) % 2 ^ 32 }

/-- A block starts (R470): the samples left of the one before, the bridge ratio, the rates of the ports, the DCO, and its first sample. -/
def Chip.audioBlock (c : Chip) (b : AudioBlock) : Chip :=
  let c := (c.engineTo 48).sapResume
  if !c.engineOn then { c with aud := { c.aud with block := none } }
  else
    let first := (c.sampleNow c.enginePlane + 24) / 48 * 48 % 2 ^ 32
    let d := sub32 first ((c.aud.first + 48) % 2 ^ 32)
    let c := c.when (c.aud.block.isSome && d != 0) fun c => { c with sap := c.sap.map fun e => (e.1, e.2.shift d) }
    let c := { c with aud := { c.aud with
      block := some b, blockAt := c.now, first := first, done := 0
      fades := c.aud.fades.filter fun e => sub32 first e.2.at_ < 128 || 2 ^ 31 ≤ sub32 first e.2.at_ } }
    let c := c.bridgeRatio (first / 48) b.ratio
    let c := c.each b.rates fun c e =>
      if c.sapRuns e.1 && c.sapLocks e.1 && e.1 < 16 then
        (c.setSap e.1 { c.sapPort e.1 with rate := e.2 }).when (!(c.on (SAP_PORT_CTL_LEAD e.1))) (·.wrI (SAP_PORT_RATIO_RATIO e.1) e.2)
      else c
    (c.leadMove b.move).engineRun

/-! ### Changes -/

/-- The settings of an entry in the layout of SAP_PORT_CTL (R513, R518). -/
def sapCtl (w : Nat) : Nat :=
  bits w 4 1 + bits w 5 1 * 2 + bits w 6 1 * 4 + bits w 7 1 * 8 + bits w 8 2 * 16 + bits w 10 5 * 64 + bits w 15 2 * 2048 + bits w 17 1 * 8192

/-- A port entry takes (R513): a changed entry for an enabled port, or RESTART, restarts it. -/
def Chip.applySap (c : Chip) (p w : Nat) : Chip :=
  let old := c.get (SAP_PORT_CTL p)
  let c := c.put (SAP_PORT_CTL p) (sapCtl w)
  (c.when (old != sapCtl w || bit w 18) (·.sapRestart p)).leadShow

/-- The group latencies take: 0 keeps the present value. -/
def Chip.applySapGroup (c : Chip) (w : Nat) : Chip :=
  c.each (List.range 4) fun c g => c.when (bits w (8 * g) 8 != 0) (·.wr (SAP_GROUP_LAT.fld (8 * g) 8) (bits w (8 * g) 8))

/-- MCLK_EN takes. -/
def Chip.applySapMclk (c : Chip) (w : Nat) : Chip := c.wr SAP_CFG_MCLK_EN w

/-- A serial audio setting of a kind takes. -/
def Chip.sapApply (c : Chip) (k : Kind) (i w : Nat) : Chip :=
  match k with
  | .sap => c.applySap i w
  | .sapGroup => c.applySapGroup w
  | _ => c.applySapMclk w

/-- A serial audio setting takes at the first block start after its acceptance (R513); at once while no block runs (log entry 37). -/
def Chip.sapSet (c : Chip) (k : Kind) (i w : Nat) : Chip :=
  if c.engineOn then { c with aud := { c.aud with sapDue := c.aud.sapDue ++ [(k, i, w)] } } else c.sapApply k i w

/-- The settings that wait for a block take, in the order of their acceptance (R513). -/
def Chip.sapTake (c : Chip) : Chip :=
  let c' := c.each c.aud.sapDue fun c e => c.sapApply e.1 e.2.1 e.2.2
  { c' with aud := { c'.aud with sapDue := [] } }

/-- The engine plane takes (R469, R493): enabled master ports restart on its clock (R516). -/
def Chip.applyEngine (c : Chip) (q : Nat) : Chip :=
  let was := c.enginePlane
  let c := c.wr AUD_CFG_ENGINE_PLANE q
  let c := (c.wrB AUD_CFG_ANCHORED (c.anchored c.enginePlane)).bridgeShow
  c.when (was != c.enginePlane) fun c =>
    let c := { c with aud := { c.aud with block := none, done := 48 } }
    c.each ((List.range 16).filter fun p => c.on (SAP_PORT_CTL_ENABLE p) && c.on (SAP_PORT_CTL_MASTER p)) fun c p => c.sapRestart p

/-! ### Requests (R513 to R515) -/

/-- The least latency of a port with the given settings (R509). -/
def sapMin (ctl : Nat) : Nat := if bit ctl 2 && bits ctl 4 2 == 0 then 4 else 24

/-- The checks of SAP_SET_PORT. -/
def chkSetSap (x : Ctx) (r : Req) : Check :=
  let c := x.c
  let n := bits (r.w 0) 0 5
  let set_ := bit (r.w 0) 8
  let es := r.ws 3 n
  let next := c.sapTake
  let after := next.each es fun c w => c.put (SAP_PORT_CTL (bits w 0 4)) (sapCtl w)
  let mclk := if set_ then bit (r.w 2) 0 else next.on SAP_CFG_MCLK_EN
  let lead := (List.range 16).filter fun p => after.on (SAP_PORT_CTL_LEAD p)
  let args := fun w => bits w 19 13 == 0 && bits w 8 2 != 3 && 16 ≤ bits w 10 5 && bits w 10 5 ≤ 24
    && (!(bit w 7) || (!(bit w 6) && bits w 8 2 != 1))
  let lat := fun g => bits (r.w 1) (8 * g) 8
  let latOk := fun g => lat g == 0 || (4 ≤ lat g && lat g ≤ 64 && (List.range 16).all fun p =>
    !(after.on (SAP_PORT_CTL_ENABLE p)) || after.rd (SAP_PORT_CTL_GROUP p) != g || sapMin (after.get (SAP_PORT_CTL p)) ≤ lat g)
  let busy := fun p => c.shufNames (7168 + 2 * p) 2
    || [0, 1].any fun ch => c.on (AUD_SHUF_SET (7168 + 2 * p + ch))
        || c.waits .shuf (7168 + 2 * p + ch) fun y => bit (y.ws.getD 0 0) 14
  require (r.lenIs (3 + n)) stBadLength <|
  require (c.role != 2 && r.epoch == 0 && n ≤ 16 && r.w 0 &&& 0xFFFFFEE0 == 0 && bits (r.w 2) 1 31 == 0
    && nodup (es.map fun w => bits w 0 4) && es.all args && lead.length ≤ 1 && (lead.isEmpty || mclk)
    && (!set_ || [0, 1, 2, 3].all latOk)) stBadArg <|
  require (es.all fun w => !(bit w 4) || c.domOn (domSap (bits w 0 4))) stDenied <|
  require (es.all fun w => bit w 4 || !(busy (bits w 0 4))) stDenied <|
  .ok { resp := ⟨stOK, 0, 0, []⟩
        nows := (if set_ then [⟨.sapGroup, 0, [r.w 1]⟩, ⟨.sapMclk, 0, [r.w 2]⟩] else []) ++ es.map fun w => ⟨.sap, bits w 0 4, [w]⟩
        long := some .boundary }

/-- SAP_GET_STATUS (R515). -/
def chkSapStatus (x : Ctx) (r : Req) : Check :=
  let c := x.c
  require (r.lenIs 2) stBadLength <|
  require (1 ≤ r.w 1 && r.w 1 ≤ 16 && r.w 0 + r.w 1 ≤ 16) stBadArg <|
  okPlan ([c.get SAP_STATUS, c.get SAP_CFG, c.get SAP_GROUP_LAT, c.get SAP_MCLK_FREQ] ++ (List.range (r.w 1)).flatMap fun i =>
    let p := r.w 0 + i
    [c.get (SAP_PORT_CTL p), c.get (SAP_PORT_STAT p), c.get (SAP_PORT_RATIO p), c.get (SAP_PORT_RX_REP p), c.get (SAP_PORT_RX_DISC p),
      c.get (SAP_PORT_TX_REP p), c.get (SAP_PORT_TX_DISC p)])

end Sys2Proof.Machine
end

