-- ==== Sys2Proof/Machine/MvcOps.lean ====
section
/-! DEFINITION. Operations of the multiviewer heads (chapter 18): taps and tile scalers, layers, graphic buffers, fences and flips, the
decisions of a head frame, and the checks of the requests of the block. -/

namespace Sys2Proof.Machine

def Chip.head (c : Chip) (h : Nat) : Head := tget {} c.heads h
def Chip.setHead (c : Chip) (h : Nat) (x : Head) : Chip := { c with heads := tput {} c.heads h x }
def Head.vl (x : Head) (v : Nat) : VLayer := tget {} x.vls v
def Head.setVl (x : Head) (v : Nat) (y : VLayer) : Head := { x with vls := tput {} x.vls v y }
def Head.gl (x : Head) (l : Nat) : GLayer := tget {} x.gls l
def Head.setGl (x : Head) (l : Nat) (y : GLayer) : Head := { x with gls := tput {} x.gls l y }
def Chip.setVl (c : Chip) (h v : Nat) (y : VLayer) : Chip := c.setHead h ((c.head h).setVl v y)
def Chip.setGl (c : Chip) (h l : Nat) (y : GLayer) : Chip := c.setHead h ((c.head h).setGl l y)

/-! ### Pixels (R529) -/

/-- A graphic pixel as Y, CB, CR by the matrix `m`. -/
def toYCbCr (m argb : Nat) : Int × Int × Int :=
  let k := fun i => Config.cscCoef (9 * m + i)
  let r : Int := bits argb 16 8
  let g : Int := bits argb 8 8
  let b : Int := bits argb 0 8
  let f := fun i => (k i * r + k (i + 1) * g + k (i + 2) * b + 2048) / 4096
  (64 + f 0, 512 + f 3, 512 + f 6)

/-- One component of a graphic pixel of alpha `a` blended over the value beneath. -/
def blend (a : Nat) (g v : Int) : Int :=
  let w : Int := (a + a / 128 : Nat)
  (w * g + (256 - w) * v + 128) / 256

/-! ### Pictures and tiles (R522 to R525) -/

/-- The active picture of a format. -/
def activePic (f : Nat) : Nat × Nat :=
  if f = 1 then (720, 576) else if f = 2 then (720, 486)
  else if fmtClass f ≥ 4 then (3840, 2160) else if (fmt f).lines = 750 then (1280, 720) else (1920, 1080)

/-- The active picture a tap of a source has, of a given format; a bonded group is 2160p (R523). -/
def Chip.tapPic (c : Chip) (s f : Nat) : Nat × Nat := if c.bondedRx s then (3840, 2160) else activePic f

/-- A scaling ratio within R525. -/
def ratioOk (pic : Nat × Nat) (w h : Nat) : Bool :=
  pic.1 ≤ 16 * w && w ≤ 2 * pic.1 && pic.2 ≤ 16 * h && h ≤ 2 * pic.2

/-- The tile units of a tap (R44). -/
def Chip.tapUnits (c : Chip) (s : Nat) : Nat := if c.bondedRx s then 4 else classUnits (c.cfgClass s)

/-- A head runs a format of a plane (R519). -/
def Chip.headFmtOk (c : Chip) (f p : Nat) : Bool :=
  fmtOk f && 2 ≤ fmtClass f && !(fmt f).interlaced && fmtRuns f (c.planeFmt p) && (fmt f).period == c.planePeriod p

/-- The settings of a head as the next frame boundary leaves them, in the layout of MVC_HEAD_CTL. -/
def Chip.headCtl (c : Chip) (h : Nat) : Nat := ((c.head h).due).getD (c.get (MVC_HEAD_CTL h))

/-! ### Layers as entries (R540) -/

/-- A video layer as it is shown, in the three words of an entry. -/
def Chip.vlWords (c : Chip) (h v : Nat) : List Nat :=
  let t := c.rd (MVC_VL_CTL_TILE h v)
  if c.on (MVC_VL_CTL_ENABLE h v) then
    [h + 4 * v + 64 + 128 * t + 2 ^ 13 * c.rd (MVC_VL_CTL_Z h v) + 2 ^ 17 * c.rd (MVC_TAP_SOURCE t), c.get (MVC_VL_POS h v), c.get (MVC_VL_SIZE h v)]
  else [h + 4 * v, 0, 0]

/-- A video layer as its taken changes will leave it. -/
def Chip.vlTarget (c : Chip) (h v : Nat) : List Nat :=
  match ((c.head h).vl v).waits.getLast? with | some (_, _, ws) => ws | none => c.vlWords h v

def vlOn (ws : List Nat) : Bool := bit (ws.getD 0 0) 6
def vlTile (ws : List Nat) : Nat := bits (ws.getD 0 0) 7 6
def vlZ (ws : List Nat) : Nat := bits (ws.getD 0 0) 13 4
def vlSrc (ws : List Nat) : Nat := bits (ws.getD 0 0) 17 9
def xyX (w : Nat) : Nat := bits w 0 13
def xyY (w : Nat) : Nat := bits w 16 13

/-- The enabled video layers of the part as their taken changes leave them. -/
def Chip.vlTargets (c : Chip) : List (List Nat) :=
  ((List.range 4).flatMap fun h => (List.range 16).map fun v => c.vlTarget h v).filter vlOn

/-- The tile units and the tiles admitted. -/
def Chip.tileUse (c : Chip) : Nat × Nat := ((c.vlTargets.map fun w => c.tapUnits (vlSrc w)).sum, c.vlTargets.length)

/-! ### Tap frames (R524) -/

/-- The instant of the alignment point of the head frame that begins now. -/
def Chip.headAp (c : Chip) (h : Nat) : Nat :=
  let f := fmt (c.rd (MVC_HEAD_CTL_FORMAT h))
  c.now + 4 * f.period / max 1 f.lines

/-- The tap frame of a source for the head frame that begins now, for a tap since an instant: 1 the frame whose presentation ends by
the alignment point, 2 the clean one before it, with its number. On the head's plane the two instants coincide; a line is allowed. -/
def Chip.tapFrame (c : Chip) (h s0 since : Nat) : Option (Nat × Nat) :=
  let s := c.leadOf s0
  let f := fmt (c.detFmt s)
  let slack := if c.srcPlane s = c.rd (MVC_HEAD_CTL_PLANE h) then f.period / max 1 f.lines else 0
  let ap := c.headAp h + slack
  if srcKind s = 5 then
    if c.srcValid s && since + f.period ≤ ap then some (1, c.epochNow (c.srcPlane s)) else none
  else
    let x := c.src s
    match x.last, x.tap with
    | some (n, t), tap =>
      if c.srcValid s && !x.soiled && since ≤ t && t + f.period ≤ ap then some (1, n)
      else match tap with | some (n, t) => if since ≤ t then some (2, n) else none | none => none
    | none, some (n, t) => if since ≤ t then some (2, n) else none
    | none, none => none

/-- A source gives no clean tap frame because it is lost or broken (R538). -/
def Chip.tapBroken (c : Chip) (s0 : Nat) : Bool := !(c.srcValid (c.leadOf s0)) || (c.src (c.leadOf s0)).soiled

/-! ### Taken changes -/

/-- MVC_TAP shows a tile in use. -/
def Chip.tapSet (c : Chip) (h v : Nat) (ws : List Nat) : Chip :=
  c.put (MVC_TAP (vlTile ws)) (vlSrc ws + 2 ^ 9 + h * 2 ^ 10 + v * 2 ^ 12 + c.tapUnits (vlSrc ws) * 2 ^ 16)

/-- A tile is released unless another layer took it. -/
def Chip.tapFree (c : Chip) (h v t : Nat) : Chip :=
  if c.on (MVC_TAP_ACTIVE t) && c.rd (MVC_TAP_HEAD t) == h && c.rd (MVC_TAP_LAYER t) == v then c.put (MVC_TAP t) 0 else c

/-- A video layer change takes at its epoch: its tile starts on its tap, and the layer waits for its head frame (R520, R524). -/
def Chip.takeVl (c : Chip) (h v : Nat) (ws : List Nat) : Chip :=
  if !(c.on (MVC_HEAD_CTL_ENABLE h)) then c
  else
    let y := (c.head h).vl v
    let c := c.setVl h v { y with waits := y.waits ++ [(c.epochNow (c.rd (MVC_HEAD_CTL_PLANE h)), c.now, ws)] }
    c.when (vlOn ws) (·.tapSet h v ws)

/-- A graphic layer or colour change takes at its epoch and waits for its head frame (R520). -/
def Chip.takeLater (c : Chip) (h : Nat) (x : Change) : Chip :=
  if !(c.on (MVC_HEAD_CTL_ENABLE h)) then c
  else c.setHead h { c.head h with later := (c.head h).later ++ [(c.epochNow (c.rd (MVC_HEAD_CTL_PLANE h)), x)] }

/-- FLIP_PENDING of every graphic layer of a head follows the flips that wait. -/
def Chip.flipShow (c : Chip) (h : Nat) : Chip :=
  c.each (List.range 4) fun c l => c.wrB (MVC_GL_CTL_FLIP_PENDING h l) ((c.head h).flips.any fun f =>
    if f.group then f.idx == c.rd (MVC_GL_CTL_GROUP h l) else f.idx == l)

/-- A flip takes at its epoch: it replaces an earlier one of its target (R534). -/
def Chip.takeFlip (c : Chip) (h : Nat) (group : Bool) (idx fence : Nat) : Chip :=
  if !(c.on (MVC_HEAD_CTL_ENABLE h)) then c
  else
    let x := c.head h
    let f : Flip := ⟨c.epochNow (c.rd (MVC_HEAD_CTL_PLANE h)), group, idx, fence, false⟩
    (c.setHead h { x with flips := x.flips.filter (fun g => !(g.group == group && g.idx == idx)) ++ [f] }).flipShow h

/-! ### Heads -/

/-- The settings of a head wait for the next frame boundary of its plane (R521). -/
def Chip.applyHead (c : Chip) (h w : Nat) : Chip := c.setHead h { c.head h with due := some (bits w 2 21) }

/-- At a frame boundary a head is enabled, disabled, or takes its new timeout (R521). -/
def Chip.headBoundary (c : Chip) (h : Nat) : Chip :=
  match (c.head h).due with
  | none => c
  | some w =>
    let was := c.on (MVC_HEAD_CTL_ENABLE h)
    let c := (c.put (MVC_HEAD_CTL h) w).setHead h { c.head h with due := none }
    if was == bit w 0 then c
    else
      let c := c.each (List.range 16) fun c v =>
        let t := c.rd (MVC_VL_CTL_TILE h v)
        let c := (c.put (MVC_VL_CTL h v) 0).wr (MVC_VL_STAT_SHOW h v) 3
        (((c.clr (MVC_VL_STAT_LATE h v)).clr (MVC_VL_STAT_RATIO_FAULT h v)).tapFree h v t).each
          (((c.head h).vl v).waits.map fun e => vlTile e.2.2) fun c t => c.tapFree h v t
      let c := c.each (List.range 4) fun c l => c.put (MVC_GL_CTL h l) 0
      let c := c.when (bit w 0) fun c => c.each (List.range 4) fun c l => c.put (MVC_GL_FENCE h l) 0
      let c := c.when (!(bit w 0)) fun c => c.each (List.range 4) fun c l => c.clr (MVC_GL_FENCE_LOADING h l)
      let c := (c.setHead h {}).clr (MVC_HEAD_STAT_RUNNING h)
      (c.followClass (320 + h)).judgeSrc (320 + h)

/-- MV_OUT presents its head's frames (R521). -/
def Chip.headRuns (c : Chip) (s : Nat) : Chip :=
  if srcKind s = 4 then c.wrB (MVC_HEAD_STAT_RUNNING (s - 320)) (c.srcValid s) else c

/-! ### The decisions of a head frame (R527, R534, R536 to R538) -/

/-- A layer not ready is counted, and LAYER_LATE is posted the first time (R536). -/
def Chip.countLayer (c : Chip) (h arg : Nat) (post : Bool) : Chip :=
  let c := ((c.inc (MVC_HEAD_LATE_COUNT h)).set (MVC_HEAD_STAT_LATE_SEEN h)).set MVC_STATUS_LAYER_LATE
  c.when post (·.post 0x0E 0x0001 h arg)

/-- The standby lacks a frame or buffer the active part named (R527). -/
def Chip.headMiss (c : Chip) (h arg : Nat) : Chip :=
  (((c.set (MVC_HEAD_STAT_FOLLOW_MISS h)).set MVC_STATUS_FOLLOW_MISS).noteMiss (c.rd (MVC_HEAD_CTL_PLANE h))).post 0x0E 0x0006 h arg

/-- A layer shows the slate colour because its source gives no frame (R538). -/
def Chip.slateLayer (c : Chip) (h v : Nat) : Chip :=
  ((c.wr (MVC_VL_STAT_SHOW h v) 2).set (MVC_HEAD_STAT_SLATE_SEEN h)).set MVC_STATUS_SLATED |>.post 0x0E 0x0002 h v

/-- A video layer shows its new state: registers, tile and tap frame. `t` is the tap frame it starts with. -/
def Chip.showVl (c : Chip) (h v : Nat) (ws : List Nat) (at_ : Nat) (fresh : Bool) (t : Option Nat) : Chip :=
  let old := c.vlWords h v
  let y := (c.head h).vl v
  let c := if vlOn ws then
      ((c.put (MVC_VL_CTL h v) (1 + vlTile ws * 2 + vlZ ws * 2 ^ 7)).put (MVC_VL_POS h v) (ws.getD 1 0)).put (MVC_VL_SIZE h v) (ws.getD 2 0)
    else c.clr (MVC_VL_CTL_ENABLE h v)
  let c := c.clr (MVC_VL_STAT_LATE h v)
  let c := c.when (vlOn old && (!(vlOn ws) || vlTile old != vlTile ws)) (·.tapFree h v (vlTile old))
  if !(vlOn ws) then
    ((c.setVl h v { y with shown := none, lost := none, posted := false }).wr (MVC_VL_STAT_SHOW h v) 3).clr (MVC_VL_STAT_RATIO_FAULT h v)
  else if fresh then
    let c := c.setVl h v { y with shown := t, lost := none, since := at_, posted := false }
    if t.isSome then c.wr (MVC_VL_STAT_SHOW h v) 0 else c.slateLayer h v
  else c.setVl h v { y with posted := false }

/-- The taken change of a video layer is decided for the head frame `n` (R537). `late` is the active part's decision where it is known. -/
def Chip.decideVl (c : Chip) (h v n : Nat) (late : Option Bool) : Chip × Bool :=
  let y := (c.head h).vl v
  let ready := y.waits.filter fun e => e.1 != n
  match ready.getLast? with
  | none => (c, false)
  | some (e, at_, ws) =>
    let rest := y.waits.filter fun e => e.1 == n
    let old := c.vlWords h v
    let fresh := vlOn ws && (!(vlOn old) || vlTile old != vlTile ws || vlSrc old != vlSrc ws || old.getD 2 0 != ws.getD 2 0)
    let t := (c.tapFrame h (vlSrc ws) at_).map Prod.snd
    let own := fresh && t.isNone && !(c.tapBroken (vlSrc ws))
    let miss := late == some false && own
    let isLate := match late with | some l => (l && fresh) || miss | none => own
    let c := c.when miss (·.headMiss h (0x80 + v))
    if isLate then
      let c := c.setVl h v { y with waits := (e, at_, ws) :: rest, posted := true }
      ((c.set (MVC_VL_STAT_LATE h v)).countLayer h v (!y.posted), true)
    else
      let c := c.setVl h v { y with waits := rest }
      (c.showVl h v ws at_ fresh t, false)

/-- The format of a source that is not fixed by configuration breaks R525 at a layer (R526). -/
def Chip.ratioBad (c : Chip) (ws : List Nat) : Bool :=
  let s := vlSrc ws
  srcKind s ≤ 1 && c.cfgFmt (c.leadOf s) == 0 && c.detFmt (c.leadOf s) != 0
    && !(ratioOk (c.tapPic s (c.detFmt (c.leadOf s))) (xyX (ws.getD 2 0)) (xyY (ws.getD 2 0)))

/-- A layer whose format breaks R525, or no longer does, shows it (R526): while it does the slate colour stands in the layer's place. -/
def Chip.ratioShow (c : Chip) (h v : Nat) (fault : Bool) : Chip :=
  let c := c.when (fault && !(c.on (MVC_VL_STAT_RATIO_FAULT h v))) fun c =>
    (((c.set (MVC_HEAD_STAT_RATIO_SEEN h)).set MVC_STATUS_RATIO_FAULT).wr (MVC_VL_STAT_SHOW h v) 2).post 0x0E 0x0004 h v
  c.wrB (MVC_VL_STAT_RATIO_FAULT h v) fault

/-- The video layers that show a source, as (head, layer). -/
def Chip.layersOf (c : Chip) (s : Nat) : List (Nat × Nat) :=
  ((List.range 4).flatMap fun h => (List.range 16).map fun v => (h, v)).filter fun e =>
    vlOn (c.vlWords e.1 e.2) && c.leadOf (vlSrc (c.vlWords e.1 e.2)) == c.leadOf s

/-- The layers of a source whose format has been detected are checked against R525 (R526, R542). -/
def Chip.ratioCheck (c : Chip) (s : Nat) : Chip :=
  c.each (c.layersOf s) fun c e => c.ratioShow e.1 e.2 (c.ratioBad (c.vlWords e.1 e.2))

/-- A shown video layer takes its tap frame for the head frame `n`; what it takes, for the standby: 0 none new, 1 or 2 (R524, R538). -/
def Chip.stepVl (c : Chip) (h v n : Nat) (named : Option Nat) : Chip × Nat :=
  let ws := c.vlWords h v
  if !(vlOn ws) then (c, 0)
  else
    let fault := c.ratioBad ws
    let c := c.ratioShow h v fault
    let y := (c.head h).vl v
    let own := match c.tapFrame h (vlSrc ws) y.since with
      | some (k, m) => if y.shown = some m then none else some (k, m)
      | none => none
    let miss := match named with | some k => decide (k ≠ 0) && own.isNone | none => false
    let pick := if named = some 0 then none else own
    let c := c.when miss (·.headMiss h (vlTile ws))
    if fault then (c.wr (MVC_VL_STAT_SHOW h v) 2, (pick.map Prod.fst).getD 0)
    else
      match pick with
      | some (k, m) =>
        let c := c.when (c.rd (MVC_VL_STAT_SHOW h v) == 2 && (y.lost.isSome || y.shown.isNone)) (·.post 0x0E 0x0003 h v)
        ((c.setVl h v { y with shown := some m, lost := none }).wr (MVC_VL_STAT_SHOW h v) 0, k)
      | none =>
        if c.tapBroken (vlSrc ws) then
          (c.setVl h v { y with lost := some (y.lost.getD n) } |>.when (c.rd (MVC_VL_STAT_SHOW h v) == 0) (·.wr (MVC_VL_STAT_SHOW h v) 1), 0)
        else (c.when (y.lost.isNone && y.shown.isSome) (·.wr (MVC_VL_STAT_SHOW h v) 0), 0)

/-- The row LAYER_SLATED: LOSS_TIMEOUT head frames have passed since no clean tap frame came (R538). -/
def Chip.layerSlated (c : Chip) (h v : Nat) : Chip :=
  match ((c.head h).vl v).lost with
  | some n =>
    if c.on (MVC_HEAD_CTL_ENABLE h) && c.on (MVC_VL_CTL_ENABLE h v) && c.rd (MVC_VL_STAT_SHOW h v) != 2
        && c.rd (MVC_HEAD_CTL_LOSS_TIMEOUT h) ≤ sub32 (c.epochNow (c.rd (MVC_HEAD_CTL_PLANE h))) n then c.slateLayer h v
    else c
  | none => c

/-- A layer is ready for a flip (R534). -/
def Chip.glReady (c : Chip) (h l fence : Nat) : Bool :=
  !(c.on (MVC_GL_FENCE_LOADING h l)) && (c.rd (MVC_GL_FENCE_FENCE h l) + 65536 - fence % 65536) % 65536 < 32768

/-- The layers a flip exchanges. -/
def Chip.flipLayers (c : Chip) (h : Nat) (f : Flip) : List Nat :=
  (List.range (c.rd (MVC_HEAD_CTL_GFX_COUNT h))).filter fun l => if f.group then c.rd (MVC_GL_CTL_GROUP h l) == f.idx else l == f.idx

/-- The buffers of layers are exchanged, and FLIP_APPLIED is posted with their mask (R532, R534). -/
def Chip.flipNow (c : Chip) (h : Nat) (ls : List Nat) : Chip :=
  let c := c.each ls fun c l => c.wrB (MVC_GL_CTL_FRONT h l) (!(c.on (MVC_GL_CTL_FRONT h l)))
  (c.set MVC_STATUS_FLIP_APPLIED).post 0x0E 0x0005 h (ls.foldl (fun m l => m ||| 2 ^ l) 0)

/-- A flip is decided for the head frame `n` (R534, R536); the flip applied, if it is. -/
def Chip.decideFlip (c : Chip) (h : Nat) (f : Flip) (named : Option (List (Bool × Nat))) : Chip × Bool :=
  let ls := c.flipLayers h f
  let lag := ls.filter fun l => !(c.glReady h l f.fence)
  let want := match named with | some l => l.contains (f.group, f.idx) | none => lag.isEmpty
  let miss := named.isSome && want && !lag.isEmpty
  let c := c.when miss fun c => c.headMiss h (0x80 + lag.headD 0)
  if want && lag.isEmpty then (c.flipNow h ls, true)
  else
    let c := (c.each lag fun c l => c.countLayer h (16 + l) (!f.posted && lag.head? == some l))
    let x := c.head h
    (c.setHead h { x with flips := x.flips ++ [{ f with posted := true }] }, false)

/-- The flips due for the head frame `n`, each decided in turn; those that stay are kept. -/
def Chip.decideFlips (c : Chip) (h n : Nat) (named : Option (List (Bool × Nat))) : Chip × List (Bool × Nat) :=
  let x := c.head h
  let due := x.flips.filter fun f => f.epoch != n
  let c := c.setHead h { x with flips := [] }
  let (c, done) := due.foldl (fun (a : Chip × List (Bool × Nat)) f =>
    let (c, ok) := a.1.decideFlip h f named
    (c, if ok then a.2 ++ [(f.group, f.idx)] else a.2)) (c, [])
  let y := c.head h
  ((c.setHead h { y with flips := y.flips ++ x.flips.filter fun f => f.epoch == n }).flipShow h, done)

/-- A graphic layer or colour change appears (R520); a new size clears both buffers (R532); a disabled layer keeps its geometry. -/
def Chip.showLater (c : Chip) (h : Nat) (x : Change) : Chip :=
  match x.kind with
  | .glayer =>
    let l := x.idx % 4
    let a := x.ws.getD 0 0
    let size := if bit a 4 then x.ws.getD 2 0 else c.get (MVC_GL_SIZE h l)
    let c := c.when (size != c.get (MVC_GL_SIZE h l)) fun c => c.setGl h l { (c.head h).gl l with buf0 := [], buf1 := [] }
    let c := ((c.wr (MVC_GL_CTL_ENABLE h l) (bits a 4 1)).wr (MVC_GL_CTL_GROUP h l) (bits a 5 3))
    (c.when (bit a 4) (·.put (MVC_GL_POS h l) (x.ws.getD 1 0))).put (MVC_GL_SIZE h l) size
  | _ => if x.idx % 2 = 0 then c.put (MVC_HEAD_BG h) (x.ws.getD 0 0) else c.put (MVC_HEAD_SLATE h) (x.ws.getD 0 0)

/-- The row HEAD_FRAME_DECISION: at the frame boundary that begins a head frame, once for each, the changes that appear, the late layers,
the flips and the tap frames are decided; the standby follows the active part's decisions, which the active part forwards. -/
def Chip.headDecide (c : Chip) (h : Nat) : Chip :=
  let p := c.rd (MVC_HEAD_CTL_PLANE h)
  let n := c.epochNow p
  let x := c.head h
  if !(c.on (MVC_HEAD_CTL_ENABLE h)) || !(c.plane p).counted || x.decided == some n then c
  else
    let named := if c.twnStandby then x.named.find? (fun d => d.frame == n) else none
    let shows := x.later.filter fun e => e.1 != n
    let c := c.setHead h { x with decided := some n, later := x.later.filter (fun e => e.1 == n), named := [] }
    let c := c.each shows fun c e => c.showLater h e.2
    let (c, flips) := c.decideFlips h n (named.map (·.flips))
    let (c, lates) := (List.range 16).foldl (fun (a : Chip × List Nat) v =>
      let (c, late) := a.1.decideVl h v n (named.map fun d => d.lates.contains v)
      (c, if late then a.2 ++ [v] else a.2)) (c, [])
    let (c, taps) := (List.range 16).foldl (fun (a : Chip × List (Nat × Nat)) v =>
      let cross := a.1.on (MVC_VL_CTL_ENABLE h v) && a.1.srcPlane (a.1.leadOf (vlSrc (a.1.vlWords h v))) != p
      let (c, k) := a.1.stepVl h v n (if cross then named.bind fun d => d.taps.lookup v else none)
      (c, if cross then a.2 ++ [(v, k)] else a.2)) (c, [])
    c.when c.twnActive (·.tell 4 ([4, h, n, taps.length, lates.length, flips.length] ++ taps.flatMap (fun t => [t.1, t.2]) ++ lates
      ++ flips.map fun f => b2n f.1 * 8 + f.2))

/-- The row AUTO_FLIP: the layer flips at the first head frame whose boundary follows the end of its load (R535). -/
def Chip.autoFlip (c : Chip) (h l : Nat) : Chip :=
  let y := (c.head h).gl l
  match y.auto with
  | some t =>
    let p := c.rd (MVC_HEAD_CTL_PLANE h)
    if c.on (MVC_HEAD_CTL_ENABLE h) && !(c.on (MVC_GL_FENCE_LOADING h l)) && t + c.planePeriod p ≤ (c.plane p).nextB then
      (c.setGl h l { y with auto := none }).flipNow h [l]
    else c
  | none => c

/-! ### Graphic loads (R532, R533) -/

/-- The pixels of a row-major rectangle written into a buffer of width `w`. -/
def loadPixels (buf : List (Nat × Nat)) (w x y rw rh : Nat) (px : List Nat) : List (Nat × Nat) :=
  (List.range rh).foldl (fun b j =>
    (List.range rw).foldl (fun b i => tput 0 b ((y + j) * w + x + i) (px.getD (j * rw + i) 0 % 2 ^ 32)) b) buf

/-- A load starts. -/
def Chip.loadStart (c : Chip) (h l : Nat) (ws : List Nat) : Chip :=
  (c.set (MVC_GL_FENCE_LOADING h l)).setGl h l { (c.head h).gl l with load := some ws }

/-- A load ends (R533): the back buffer holds the rectangle, the fence is written and LOADING clears. Nothing is written where the
read of host memory failed, the head has been disabled, or the request was cut off (R542). -/
def Chip.loadEnd (c : Chip) (h l : Nat) (data : Option (List Nat)) (fence : Bool) : Chip :=
  let y := (c.head h).gl l
  match y.load with
  | none => c
  | some ws =>
    let c := c.clr (MVC_GL_FENCE_LOADING h l)
    match data with
    | none => c.setGl h l { y with load := none }
    | some px =>
      let w := xyX (c.get (MVC_GL_SIZE h l))
      let f := fun buf => loadPixels buf w (ws.getD 2 0) (ws.getD 3 0) (ws.getD 4 0) (ws.getD 5 0) px
      let y := if c.on (MVC_GL_CTL_FRONT h l) then { y with buf0 := f y.buf0 } else { y with buf1 := f y.buf1 }
      let c := c.setGl h l { y with load := none, auto := if fence && ws.getD 0 0 == 1 then some c.now else y.auto }
      c.when fence (·.wr (MVC_GL_FENCE_FENCE h l) (ws.getD 1 0))

/-! ### Requests (R533 to R541) -/

/-- A bulk descriptor of four words keeps R140; its length. -/
def descOk (ws : List Nat) : Bool :=
  ws.getD 0 0 % 64 == 0 && ws.getD 2 0 % 64 == 0 && ws.getD 2 0 ≤ 2 ^ 26 && ws.getD 3 0 == 0

/-- The checks of MVC_SET_HEAD up to its admission (R539). -/
def chkSetHead (x : Ctx) (r : Req) : Check :=
  let c := x.c
  let n := r.w 0
  let ws := r.ws 1 n
  let h := fun w => bits w 0 2
  let ctl := fun w => bits w 2 21
  let was := fun w => c.headCtl (h w)
  let kept := fun w => !(bit (was w) 0) || (was w &&& 0x7FE) == (ctl w &&& 0x7FE)
  let routed := fun k => !(c.destsOf (320 + k)).isEmpty || c.fw.queue.any fun q =>
    q.change.kind == .route && !(bit (q.change.ws.getD 0 0) 31) && bits (q.change.ws.getD 0 0) 16 9 == 320 + k
  require (r.lenIs (n + 1)) stBadLength <|
  require (c.role != 2 && r.epoch == 0 && 1 ≤ n && n ≤ 4 && nodup (ws.map h) && ws.all fun w =>
    bits w 23 9 == 0 && bits w 9 3 ≤ 4 && (!(bit w 2) && bits w 4 5 == 0 || c.headFmtOk (bits w 4 5) (bits w 3 1))) stBadArg <|
  require (ws.all kept) stDenied <|
  require (ws.all fun w => !(bit w 2) || c.domOn (domHead (h w))) stDenied <|
  require (ws.all fun w => bit w 2 || !(routed (h w))) stDenied <|
  .ok { resp := ⟨stOK, 0, 0, []⟩, nows := ws.map fun w => ⟨.head, h w, [w]⟩, long := some .boundary }

/-- The three words of the entries of MVC_SET_LAYERS. -/
def layerEntries (r : Req) (n : Nat) : List (List Nat) := (List.range n).map fun i => r.ws (1 + 3 * i) 3

/-- The kind of an entry, and the target it names. -/
def layerKind (e : List Nat) : Nat := bits (e.getD 0 0) 29 3
def layerHead (e : List Nat) : Nat := bits (e.getD 0 0) 0 2
def layerTarget (e : List Nat) : Nat :=
  match layerKind e with | 0 => bits (e.getD 0 0) 0 6 | 1 => 64 + bits (e.getD 0 0) 0 4 | _ => 128 + bits (e.getD 0 0) 0 3

/-- The change an entry makes. -/
def layerChange (e : List Nat) : Change :=
  let a := e.getD 0 0
  match layerKind e with
  | 0 => ⟨.vlayer, bits a 0 2 * 16 + bits a 2 4, [a % 2 ^ 29, e.getD 1 0, e.getD 2 0]⟩
  | 1 => ⟨.glayer, bits a 0 2 * 4 + bits a 2 2, [a % 2 ^ 29, e.getD 1 0, e.getD 2 0]⟩
  | _ => ⟨.colour, bits a 0 2 * 2 + bits a 2 1, [e.getD 1 0]⟩

/-- A rectangle lies within a head's active picture, with even X and W for a video layer (R528). -/
def rectOk (pic : Nat × Nat) (xy wh : Nat) (video : Bool) : Bool :=
  1 ≤ xyX wh && 1 ≤ xyY wh && xyX xy + xyX wh ≤ pic.1 && xyY xy + xyY wh ≤ pic.2 && (!video || (xyX xy % 2 == 0 && xyX wh % 2 == 0))

/-- The argument check of one entry by itself (R522, R523, R525, R528, R540). -/
def layerArgs (c : Chip) (e : List Nat) : Bool :=
  let a := e.getD 0 0
  let xy := e.getD 1 0
  let wh := e.getD 2 0
  let ctl := c.headCtl (layerHead e)
  let pic := activePic (bits ctl 2 5)
  let clean := xy &&& 0xE000E000 == 0 && wh &&& 0xE000E000 == 0
  match layerKind e with
  | 0 =>
    if bit a 6 then
      let s := vlSrc e
      bits a 26 3 == 0 && clean && srcOffered c.role s && srcKind s != 4 && c.leadOf s == s && rectOk pic xy wh true
        && (c.cfgFmt s == 0 || ratioOk (c.tapPic s (c.cfgFmt s)) (xyX wh) (xyY wh))
    else a < 64 && xy == 0 && wh == 0
  | 1 =>
    bits a 2 2 < bits ctl 7 3
      && (if bit a 4 then bits a 8 21 == 0 && bits a 5 3 ≤ 4 && clean && rectOk pic xy wh false else bits a 5 24 == 0 && xy == 0 && wh == 0)
  | 2 => bits a 3 26 == 0 && xy < 2 ^ 30 && wh == 0
  | _ => false

/-- The video layers of a head after a request keep R528: distinct Z, and twice the active area at most. -/
def Chip.layersOk (c : Chip) (h : Nat) : Bool :=
  let ws := ((List.range 16).map fun v => c.vlTarget h v).filter vlOn
  let pic := activePic (bits (c.headCtl h) 2 5)
  nodup (ws.map vlZ) && (ws.map fun w => xyX (w.getD 2 0) * xyY (w.getD 2 0)).sum ≤ 2 * pic.1 * pic.2

/-- The chip with a video layer entry counted as taken. -/
def Chip.withVl (c : Chip) (e : List Nat) : Chip :=
  if layerKind e = 0 then
    let h := layerHead e
    let v := bits (e.getD 0 0) 2 4
    let y := (c.head h).vl v
    c.setVl h v { y with waits := y.waits ++ [(0, 0, [e.getD 0 0 % 2 ^ 29, e.getD 1 0, e.getD 2 0])] }
  else c

/-- The checks of MVC_SET_LAYERS up to its admission (R540). -/
def chkSetLayers (x : Ctx) (r : Req) : Check :=
  let c := x.c
  let n := r.w 0
  let es := layerEntries r n
  let p := bits (c.headCtl (layerHead (es.headD []))) 1 1
  let at_ := x.atEpoch p r.epoch
  let after := es.foldl (fun a e => a.withVl e) at_
  require (r.lenIs (1 + 3 * n)) stBadLength <|
  require (c.role != 2 && 1 ≤ n && n ≤ 84 && nodup (es.map layerTarget) && es.all (fun e => bits (c.headCtl (layerHead e)) 1 1 == p)
    && es.all (layerArgs c) && nodup (after.vlTargets.map vlTile) && es.all fun e => after.layersOk (layerHead e)) stBadArg <|
  withEpoch c p r.epoch fun e =>
  require (es.all fun e => bit (c.headCtl (layerHead e)) 0) stDenied <|
  pendPlan r p e (es.map layerChange)

/-- The checks of MVC_FLIP (R534). -/
def chkFlip (x : Ctx) (r : Req) : Check :=
  let c := x.c
  let n := r.w 0
  let ws := r.ws 1 n
  let h := fun w => bits w 0 2
  let p := bits (c.headCtl (h (r.w 1))) 1 1
  require (r.lenIs (n + 1)) stBadLength <|
  require (c.role != 2 && 1 ≤ n && n ≤ 32 && ws.all fun w => bits (c.headCtl (h w)) 1 1 == p && bits w 6 10 == 0 &&
    (if bit w 2 then 1 ≤ bits w 3 3 && bits w 3 3 ≤ 4 else bits w 3 3 < bits (c.headCtl (h w)) 7 3)) stBadArg <|
  withEpoch c p r.epoch fun e =>
  require (ws.all fun w => bit (c.headCtl (h w)) 0) stDenied <|
  pendPlan r p e (ws.map fun w => ⟨.flip, h w * 16 + bits w 2 1 * 8 + bits w 3 3, [bits w 16 16]⟩)

/-- The checks of MVC_LOAD_GRAPHIC (R533). -/
def chkLoad (x : Ctx) (r : Req) : Check :=
  let c := x.c
  let h := bits (r.w 0) 0 2
  let l := bits (r.w 0) 2 2
  let xy := r.w 2
  let wh := r.w 3
  let size := c.get (MVC_GL_SIZE h l)
  let row := (xyX wh * 4 + 63) / 64 * 64
  require (r.lenIs 8) stBadLength <|
  require (c.role != 2 && r.epoch == 0 && bits (r.w 0) 5 27 == 0 && r.w 1 < 2 ^ 16 && xy &&& 0xE000E000 == 0 && wh &&& 0xE000E000 == 0
    && l < bits (c.headCtl h) 7 3 && 1 ≤ xyX wh && 1 ≤ xyY wh && xyX xy + xyX wh ≤ xyX size && xyY xy + xyY wh ≤ xyY size
    && descOk (r.ws 4 4) && xyY wh * row ≤ r.w 6 && (!(bit (r.w 0) 4) || c.rd (MVC_GL_CTL_GROUP h l) == 0)) stBadArg <|
  require (c.on (MVC_HEAD_CTL_ENABLE h) && !(c.on (MVC_GL_FENCE_LOADING h l))) stDenied <|
  .ok { resp := ⟨stOK, 0, 0, []⟩, journal := false, long := some .graphic }

/-- MVC_GET_STATUS (R541). -/
def chkMvcStatus (x : Ctx) (r : Req) : Check :=
  let c := x.c
  match r.w 0 with
  | 0 =>
    let u := c.tileUse
    require (r.lenIs 1) stBadLength <|
    okPlan ([c.get MVC_STATUS, min 64 u.1 + min 64 u.2 * 2 ^ 16] ++ (List.range 4).flatMap fun h =>
      [c.get (MVC_HEAD_CTL h), c.get (MVC_HEAD_STAT h), c.get (MVC_HEAD_BG h), c.get (MVC_HEAD_SLATE h), c.get (MVC_HEAD_LATE h)])
  | 1 =>
    let h := r.w 1
    require (r.lenIs 2) stBadLength <|
    require (h < 4) stBadArg <|
    okPlan (((List.range 16).flatMap fun v => [c.get (MVC_VL_CTL h v), c.get (MVC_VL_POS h v), c.get (MVC_VL_SIZE h v), c.get (MVC_VL_STAT h v)])
      ++ (List.range 4).flatMap fun l => [c.get (MVC_GL_CTL h l), c.get (MVC_GL_POS h l), c.get (MVC_GL_SIZE h l), c.get (MVC_GL_FENCE h l)])
  | 2 =>
    require (r.lenIs 3) stBadLength <|
    require (1 ≤ r.w 2 && r.w 2 ≤ 64 && r.w 1 + r.w 2 ≤ 64) stBadArg <|
    okPlan ((List.range (r.w 2)).map fun i => c.get (MVC_TAP (r.w 1 + i)))
  | _ => .error stBadArg

end Sys2Proof.Machine
end

