-- ==== Sys2Proof/Machine/TwnOps.lean ====
section
/-! DEFINITION. Operations of twin operation (chapter 19): pins and modes, messages and twin lanes, the Crema word with its digests, masks
and the in-step test, divergence, self-diagnosis, handover and state copies, and the checks of the requests of the block. -/

namespace Sys2Proof.Machine

def Chip.setTwn (c : Chip) (x : Twn) : Chip := { c with twn := x }

/-! ### Modes and pins (R546 to R551) -/

def Chip.twnMode (c : Chip) : Nat := c.rd TWN_STATE_MODE
def Chip.twnPhase (c : Chip) : Nat := c.rd TWN_STATE_PHASE

/-- TWIN_UNIT of the part (R59). -/
def Chip.twnUnit (c : Chip) : Nat := c.rd TOP_STRAP_TWIN_UNIT

/-- A fatal bit of TWN_DIAG is set (R570). -/
def Chip.twnFatal (c : Chip) : Bool := c.get TWN_DIAG % 32 != 0

/-- The peer present runs another role or another twin protocol version (R8, R548). -/
def Chip.peerWrong (c : Chip) : Bool :=
  c.on TWN_PEER_PRESENT && (c.rd TWN_PEER_PEER_ROLE != c.role || c.rd TWN_PEER_PEER_TWP != 1)

/-- The live fields of TWN_STATE and TOP_STATUS.TWIN_STATE follow the working state (R545, R548, R552). -/
def Chip.twnShow (c : Chip) : Chip :=
  let step := c.twnMode == 2 && c.twnPhase == 6
  let ready := c.on TWN_CFG_ENABLE && !c.peerWrong && !(c.on TWN_STATE_TWN_NOT_READY) && ((c.twnMode == 1 && !c.twnFatal) || step)
  let up := b2n (c.lnUsable 48) + 2 * b2n (c.lnUsable 49)
  let c := ((c.wrB TWN_STATE_READY_OUT ready).wr TWN_STATE_LANES_UP up).wrB TWN_STATE_HANDOVER_PENDING
    (match c.twn.handover with | some (_, _, ok) => ok | none => false)
  c.wr TOP_STATUS_TWIN_STATE (match c.twnMode with | 0 => 0 | 1 => 1 | _ => if step then 2 else 3)

/-- A mode and phase are entered. -/
def Chip.twnTo (c : Chip) (mode phase : Nat) : Chip := ((c.wr TWN_STATE_MODE mode).wr TWN_STATE_PHASE phase).twnShow

/-- The planes that have a format. -/
def Chip.twnPlanes (c : Chip) : List Nat := [0, 1].filter fun q => c.planeFmt q != 0

/-! ### The handover instant (R571, R572) -/

/-- The time from a TP0 frame boundary to its handover instant: the field-1 switching point of the plane format at SDI_OUT timing
(R166, R167). -/
def Chip.handoverDelay (c : Chip) : Nat :=
  let f := fmt (c.planeFmt 0)
  let line := if f.lines = 625 then 6 else if f.lines = 525 then 10 else 7
  ((if c.role = 1 then 7 else 5) + line - 1) * f.period / max 1 f.lines + 5400

/-- The first TP0 epoch whose handover instant lies at least `after` from now. -/
def Chip.nextHandover (c : Chip) (after : Nat) : Nat :=
  let per := max 1 (c.planePeriod 0)
  let first := (c.plane 0).nextB + c.handoverDelay
  let k := (c.now + after + per - 1 + per - first) / per
  (c.epochNow 0 + k) % 2 ^ 32

/-! ### Losing step and copying (R555, R565, R574) -/

/-- A standby leaves step with a cause (R565). -/
def Chip.twnLose (c : Chip) (cause : Nat) : Chip :=
  if c.twnMode ≠ 2 ∨ c.twnPhase = 7 then c
  else
    let was := c.twnPhase == 6
    let c := c.wr TWN_STATE_LOST_CAUSE cause
    c.when was fun c => ((c.twnTo 2 5).set TWN_STATUS_LOST_STEP).post 0x0F 0x0005 0 cause

/-- A carafe without its content; a head with its graphic buffers transparent. -/
def Carafe.forget (x : Carafe) : Carafe := { x with tags := [], slots := [] }
def GLayer.forget (x : GLayer) : GLayer := { x with buf0 := [], buf1 := [] }
def Head.forget (x : Head) : Head := { x with gls := x.gls.map fun (k, g) => (k, g.forget) }

/-- A state copy begins on the standby (R574): every carafe slot EMPTY, graphic buffers transparent, MATCH_RUN 0. -/
def Chip.twnCopy (c : Chip) (cause : Nat) : Chip :=
  if c.twnMode ≠ 2 ∨ c.twnPhase = 7 then c
  else
    let c := (c.twnTo 2 2).wr TWN_STATE_LOST_CAUSE cause
    let c := (c.add TWN_COUNTS_RESYNCS 1).each [0, 1] fun c q => c.put (TWN_MATCH q) 0
    let c : Chip := { c with lbs := { c.lbs with carafes := c.lbs.carafes.map fun (e : Nat × Carafe) => (e.1, e.2.forget) } }
    let c := c.each (List.range 48) fun c r => c.wr (LBS_REC_HIST_HISTORY r) 0
    let c : Chip := { c with heads := c.heads.map fun (e : Nat × Head) => (e.1, e.2.forget) }
    (c.setTwn { c.twn with copyAt := c.now, staged := none, image := none, noMatch := [0, 0], diverged := [], recs := [] }).tell 11 [cause]

/-- A loss of step that a state copy follows (R574). -/
def Chip.twnBreak (c : Chip) (cause : Nat) : Chip := (c.twnLose cause).twnCopy cause

/-- A standby in CATCH_UP whose matches suffice enters IN_STEP; one whose count has returned to 0 leaves it (R565). -/
def Chip.twnJudge (c : Chip) (cause : Nat) : Chip :=
  if c.twnMode ≠ 2 then c
  else
    let ok := !c.twnPlanes.isEmpty && c.twnPlanes.all fun q => 16 ≤ c.rd (TWN_MATCH_MATCH_RUN q)
    if c.twnPhase = 5 ∧ ok then (c.twnTo 2 6).post 0x0F 0x0004 0 (c.epochNow 0)
    else if c.twnPhase = 6 ∧ c.twnPlanes.any fun q => c.rd (TWN_MATCH_MATCH_RUN q) == 0 then c.twnLose cause
    else c

/-! ### Messages (R553, R554) -/

/-- A message of a stream has arrived whole: the first of its MSEQ is acted on (R553). -/
def Chip.twnTake (c : Chip) (k m : Nat) (f : Chip → Chip) : Chip :=
  if !(c.on TWN_CFG_ENABLE) then c
  else
    let (next, later) := c.twn.rx.getD k (0, [])
    if m < next ∨ later.any (fun e => e.1 == m) then c
    else
      let later := if m = next then later else (m, c.now) :: later
      let next := if m = next then next + 1 else next
      let (next, later) := (List.range later.length).foldl (fun (a : Nat × List (Nat × Nat)) _ =>
        if a.2.any (fun e => e.1 == a.1) then (a.1 + 1, a.2.filter fun e => e.1 != a.1) else a) (next, later)
      f (c.setTwn { c.twn with rx := putAt 3 (0, []) c.twn.rx k (next, later) })

/-- A message has not arrived 1 ms after a later one of its stream: the receiver is out of step (R553). -/
def Chip.twnGap (c : Chip) (k : Nat) : Chip :=
  let (_, later) := c.twn.rx.getD k (0, [])
  match later.find? fun e => e.2 + ms 1 ≤ c.now with
  | none => c
  | some (m, _) => (c.setTwn { c.twn with rx := putAt 3 (0, []) c.twn.rx k (m + 1, later.filter fun e => m < e.1) }).twnBreak 2

/-- The mode a HELLO reports: active from the start of a cold takeover on (R578). -/
def Chip.helloMode (c : Chip) : Nat := if c.on TWN_STATE_TWN_NOT_READY then 1 else c.twnMode

/-- Every 1 ms a HELLO leaves; TWN_PEER_IN reads its level. The settings schema version is that of the firmware (R554). -/
def Chip.helloSend (c : Chip) (peerIn : Bool) : Chip :=
  if !(c.on TWN_CFG_ENABLE) then c
  else
    let c := c.wrB TWN_STATE_PEER_IN peerIn
    c.tell 1 [c.role, c.twnUnit, c.helloMode, c.twnPhase, 1, c.rd UPD_SCHEMA_RUNNING]

/-- The part becomes standby: its copy begins once the pair is formed (R550, R574). -/
def Chip.beStandby (c : Chip) : Chip :=
  (c.setTwn { c.twn with decided := true, waitAt := none, toActive := false }).twnTo 2 1

/-- The pair is formed where the peer is the other unit with the same role and protocol (R8, R580): the standby of an active part begins
its state copy. -/
def Chip.twnPair (c : Chip) : Chip :=
  if c.peerWrong || !(c.on TWN_PEER_PRESENT) || c.rd TWN_PEER_PEER_UNIT == c.twnUnit then c
  else if (c.twnMode = 1 ∧ c.rd TWN_PEER_PEER_MODE = 2) ∨ (c.twnMode = 2 ∧ c.rd TWN_PEER_PEER_MODE = 1) then
    let c := c.when (!c.twn.paired) fun c => (c.setTwn { c.twn with paired := true }).post 0x0F 0x0003 0 (c.rd TWN_PEER_PEER_UNIT)
    c.when (c.twnMode == 2 && c.twnPhase ≤ 1) (·.twnCopy 8)
  else c

/-- A HELLO arrives (R550, R554). -/
def Chip.hello (c : Chip) (m role unit mode phase version schema : Nat) : Chip :=
  if !(c.on TWN_CFG_ENABLE) then c
  else
    let c := c.when (!(c.on TWN_PEER_PRESENT)) fun c =>
      c.setTwn { c.twn with tx := [0, 0, 0], rx := [(0, []), (m, []), (0, [])], paired := false }
    c.twnTake 1 m fun c =>
      let c := c.put TWN_PEER (1 + unit * 2 + role * 4 + mode * 16 + version * 256)
      let c := c.setTwn { c.twn with helloAt := c.now, peerSchema := schema, peerStep := mode == 2 && phase == 6 }
      let c := c.when c.peerWrong (·.set TWN_STATUS_PEER_MISMATCH)
      let c := c.when (c.twn.waitAt.isSome && mode == 1) (·.beStandby)
      c.twnPair.twnShow

/-- No HELLO for 10 ms: the peer is no longer present (R586). -/
def Chip.helloTimeout (c : Chip) : Chip :=
  if c.on TWN_PEER_PRESENT ∧ c.twn.helloAt + ms 10 ≤ c.now then
    ((c.clr TWN_PEER_PRESENT).setTwn { c.twn with peerStep := false, paired := false }).twnShow
  else c

/-- The mode is decided once configuration load has completed and TP0 has left START (R550). -/
def Chip.modeDecide (c : Chip) (peerIn : Bool) : Chip :=
  if !(c.on TWN_CFG_ENABLE) || c.twn.decided || c.twnMode != 0 || !c.fw.cfgLoaded || !(c.plane 0).left then c
  else
    let c := c.wrB TWN_STATE_PEER_IN peerIn
    if peerIn || (c.on TWN_PEER_PRESENT && c.rd TWN_PEER_PEER_MODE == 1) then c.beStandby.twnPair
    else if c.twnUnit = 0 then (c.setTwn { c.twn with decided := true, toActive := true }).twnTo 0 1
    else (c.setTwn { c.twn with decided := true, waitAt := some c.now }).twnTo 0 1

/-- Unit 1 has waited 2 s (R550). -/
def Chip.unit1Wait (c : Chip) (peerIn : Bool) : Chip :=
  match c.twn.waitAt with
  | some t =>
    if t + sec 2 ≤ c.now then
      let c := c.wrB TWN_STATE_PEER_IN peerIn
      if peerIn || (c.on TWN_PEER_PRESENT && c.rd TWN_PEER_PEER_MODE == 1) then c.beStandby.twnPair
      else c.setTwn { c.twn with waitAt := none, toActive := true }
    else c
  | none => c

/-- TWN_PEER_IN has been high for 1 us while the part drives TWN_ACTIVE_OUT, outside a committed handover (R551). -/
def Chip.peerConflict (c : Chip) : Chip :=
  let c' := c.set TWN_STATE_PEER_IN
  if !(c.on TWN_STATE_ACTIVE_OUT) || c.on TWN_STATE_HANDOVER_PENDING then c'
  else
    let c := c'.set TWN_STATUS_PEER_MISMATCH
    if c.twnUnit = 1 then ((c.clr TWN_STATE_ACTIVE_OUT).beStandby).twnPair else c

/-! ### Twin lanes (R552) -/

/-- A marker on twin lane i: one whose ROLE is not 0 or whose TWIN_UNIT is this part's, or of another lane, holds the lane down. -/
def Chip.twnMarker (c : Chip) (n b : Nat) (reform : Bool) : Chip :=
  if c.lnSt n ≠ lnTrained then c
  else if !(blockOk b) then c.when (reform || !(c.lnStepping n)) (·.lnCrcErr n)
  else if blockType b ≠ (if reform then 3 else 2) then c
  else
    let bad := mkRole b != 0 || mkUnit b == c.twnUnit || mkLink b != n - 48 || mkLlane b != 0 || mkCfgWidth b != 1
    let x := c.lane n
    (((c.setLane n { x with seen := x.seen || !bad, bad := bad, count := mkCount b, at_ := c.now }).setTwn { c.twn with blockAt := c.now })).twnShow

/-- A data or status block on a twin lane (R553, R555). -/
def Chip.twnBlock (c : Chip) (n b : Nat) : Chip :=
  if c.lnSt n ≠ lnTrained then c
  else if !(blockOk b) then c.lnCrcErr n
  else c.setTwn { c.twn with blockAt := c.now }

/-- A standby has had no correct block for 10 ms (R555). -/
def Chip.twnLinkLost (c : Chip) : Chip :=
  if c.twnMode = 2 ∧ c.twn.paired ∧ c.twn.blockAt + ms 10 ≤ c.now then
    let c := c.twnShow
    ((c.set TWN_STATUS_LINK_LOST).post 0x0F 0x0008 0 2).twnBreak 6 |>.setTwn { c.twn with paired := false }
  else c

/-! ### Feeds and masks (R564) -/

/-- The sources of mix output `o`. -/
def Chip.mixFeeds (c : Chip) (o : Nat) : List Nat :=
  (c.aud.coefs.filter fun e => e.1 / 512 = o).filterMap fun e =>
    if c.on (AUD_SHUF_SET (7200 + e.1 % 512)) then
      match c.outTakes (7200 + e.1 % 512) with | some i => if i < 6144 then some (inSrc i) else none | none => none
    else none

/-- The sources that feed a destination: its route, the taps of a routed MV_OUT, and the engine inputs of its EMBED entries. -/
def Chip.feeds (c : Chip) (d : Nat) : List Nat :=
  let s := c.rd (XPT_DST_CTL_SOURCE d)
  let route := if c.on (XPT_DST_CTL_ROUTED d) then [s] else []
  let taps := if c.on (XPT_DST_CTL_ROUTED d) && srcKind s == 4 then
      ((List.range 64).filter fun t => c.on (MVC_TAP_ACTIVE t) && c.rd (MVC_TAP_HEAD t) == s - 320).map fun t => c.rd (MVC_TAP_SOURCE t)
    else []
  let audio := if embeds d && c.on (AUD_DST_CTL_EMBED d) then
      (((List.range 32).filter fun k => c.on (AUD_SHUF_SET ((if d < 144 then d else d - 128) * 32 + k))).filterMap fun k =>
        c.outTakes ((if d < 144 then d else d - 128) * 32 + k)).flatMap fun i =>
          if i < 6144 then [inSrc i] else if 7200 ≤ i ∧ i < 7712 then c.mixFeeds (i - 7200) else []
    else []
  (route ++ taps ++ audio).eraseDups

/-- A feed that the standby does not hold as the active part does yet. -/
def Chip.feedYoung (c : Chip) (d s : Nat) : Bool :=
  let age := fun f => (c.now - c.twn.copyAt) / max 1 (fmt f).period
  match srcKind s with
  | 3 => c.on (LBS_PB_CTL_ENABLE (s - 272)) && age (c.rd (LBS_REC_CTL_FORMAT (c.carafeOf (s - 272)))) < c.rd (LBS_PB_STAT_CUR_DELAY (s - 272))
  | 2 => c.on (NET_RXF_CTL_JOINED (s - 240)) &&
      (c.now - max c.twn.copyAt (c.flow (s - 240)).joinedAt) / max 1 (fmt (c.cfgFmt s)).period < c.rd (NET_RXF_CTL_LAT (s - 240)) + 2
  | _ => !(c.srcValid (c.leadOf s)) && c.rd (XPT_DST_CTL_LOSS_ACTION d) == 0 && c.on (FSY_SRC_CTL_ALLOW_FS (c.leadOf s))
      && !((c.src (c.leadOf s)).frames.any fun f => f.whole && f.clean)

/-- The destinations of a plane that have a route. -/
def Chip.planeDests (c : Chip) (q : Nat) : List Nat := c.routed.filter fun d => c.dstPlane d == q

/-- The mask a standby gives: every destination before CATCH_UP. -/
def Chip.twnMask (c : Chip) (q : Nat) : List Nat :=
  if c.twnPhase = 5 ∨ c.twnPhase = 6 then (c.planeDests q).filter fun d => (c.feeds d).any (c.feedYoung d) else List.range 384

/-! ### The digests (R560, R561) -/

/-- The walk over the lanes of the permutation of SHA3 from (1, 0) by (x, y) to (y, 2 x + 3 y): the lane of step `t`, as 5 y + x. -/
def sha3Walk : Nat → Nat × Nat
  | 0 => (1, 0)
  | t + 1 => let p := sha3Walk t; (p.2, (2 * p.1 + 3 * p.2) % 5)

/-- The rotation of a lane: the lane of step t turns by (t + 1)(t + 2) / 2, lane (0, 0) not at all. -/
def sha3Turn (i : Nat) : Nat :=
  ((List.range 24).find? fun t => (sha3Walk t).1 + 5 * (sha3Walk t).2 == i).elim 0 fun t => (t + 1) * (t + 2) / 2 % 64

/-- The shift register of the round constants: eight bits, feedback x^8 + x^6 + x^5 + x^4 + 1. -/
def sha3Shift (r : Nat) : Nat := if r < 128 then 2 * r else (2 * r ^^^ 0x171) % 256

/-- The constants of `n` rounds: each takes seven outputs of the shift register, output j at bit 2^j - 1. -/
def sha3Consts : Nat → Nat → List (BitVec 64)
  | 0, _ => []
  | n + 1, r =>
    let e := (List.range 7).foldl (fun (a : Nat × Nat) j => (a.1 + a.2 % 2 * 2 ^ (2 ^ j - 1), sha3Shift a.2)) (0, r)
    BitVec.ofNat 64 e.1 :: sha3Consts n e.2

/-- One round on the 25 lanes, lane (x, y) at 5 y + x. -/
def keccakRound (turns : List Nat) (a : List (BitVec 64)) (rc : BitVec 64) : List (BitVec 64) :=
  let l := fun (a : List (BitVec 64)) i => a.getD i 0
  let col := (List.range 5).map fun x => l a x ^^^ l a (x + 5) ^^^ l a (x + 10) ^^^ l a (x + 15) ^^^ l a (x + 20)
  let d := (List.range 5).map fun x => l col ((x + 4) % 5) ^^^ (l col ((x + 1) % 5)).rotateLeft 1
  let t := (List.range 25).map fun i => l a i ^^^ l d (i % 5)
  let b := (List.range 25).map fun i =>
    let x := i % 5
    let y := i / 5
    let j := 5 * x + (x + 3 * y) % 5
    (l t j).rotateLeft (turns.getD j 0)
  let chi := (List.range 25).map fun i =>
    let x := i % 5
    let y := i / 5 * 5
    l b i ^^^ (~~~(l b (y + (x + 1) % 5)) &&& l b (y + (x + 2) % 5))
  chi.set 0 (l chi 0 ^^^ rc)

/-- The permutation. -/
def keccak (a : List (BitVec 64)) : List (BitVec 64) :=
  (sha3Consts 24 1).foldl (keccakRound ((List.range 25).map sha3Turn)) a

/-- Bytes as 64-bit lanes, lowest byte first. -/
def lanesOf : List Nat → Nat → List (BitVec 64)
  | _, 0 => []
  | bs, n + 1 => BitVec.ofNat 64 ((bs.take 8).zipIdx.map fun b => b.1 % 256 * 2 ^ (8 * b.2)).sum :: lanesOf (bs.drop 8) n

/-- SHA3-256 of `n` whole blocks of 136 bytes of padded input, as 8 words of 32 bits, byte 4w lowest. -/
def sha3Blocks : Nat → List Nat → List (BitVec 64) → List Nat
  | 0, _, a => (a.take 4).flatMap fun l => [l.toNat % 2 ^ 32, l.toNat / 2 ^ 32]
  | n + 1, bs, a =>
    let block := lanesOf (bs.take 136) 17
    sha3Blocks n (bs.drop 136) (keccak ((List.range 25).map fun i => a.getD i 0 ^^^ block.getD i 0))

/-- SHA3-256 of a byte string. -/
def sha3 (bs : List Nat) : List Nat :=
  let pad := 136 - bs.length % 136
  let tail := if pad = 1 then [0x86] else 0x06 :: List.replicate (pad - 2) 0 ++ [0x80]
  sha3Blocks (bs.length / 136 + 1) (bs ++ tail) (List.replicate 25 0)

/-- The bytes of a number, lowest first. -/
def leBytes (n w : Nat) : List Nat := (List.range n).map fun i => bits w (8 * i) 8

/-- CONFIG_SEQ of a plane at an epoch (R559). -/
def Chip.configSeq (c : Chip) (q e : Nat) : Nat :=
  match c.twn.accepted.find? fun a => sub32 e ((if q = 0 then a.2.1 else a.2.2.1) + 2) < 2 ^ 31 with
  | some a => a.1
  | none => c.get (TWN_CONFIG_SEQ q)

/-- The 3,144 bytes of R561: plane, epoch, CONFIG_SEQ, AUD_STATE_CRC, mask and destination CRCs. -/
def cremaBytes (q e cfg aud : Nat) (mask : List Nat) (crcs : List (Nat × Nat)) : List Nat :=
  [1, q, 0, 0] ++ leBytes 4 e ++ leBytes 4 cfg ++ leBytes 4 0 ++ leBytes 8 aud
    ++ ((List.range 48).map fun i => ((List.range 8).map fun b => if mask.contains (8 * i + b) then 2 ^ b else 0).sum)
    ++ (List.range 384).flatMap fun d => leBytes 8 (if mask.contains d then 0 else (crcs.lookup d).getD 0)

/-! ### Compared epochs (R562 to R569) -/

/-- The record of an epoch of a plane. -/
def Chip.twnRec (c : Chip) (q e : Nat) : TwnRec := (c.twn.recs.find? fun r => r.plane == q && r.epoch == e).getD { plane := q, epoch := e }

/-- The records with one replaced, the newest 32 kept. -/
def Chip.setRec (c : Chip) (r : TwnRec) : Chip :=
  c.setTwn { c.twn with recs := (r :: c.twn.recs.filter fun x => !(x.plane == r.plane && x.epoch == r.epoch)).take 32 }

/-- Words of a list put into TWN_CREMA. -/
def Chip.showCrema (c : Chip) (q : Nat) (w : List Nat) : Chip :=
  c.each (List.range 8) fun c i => c.put (TWN_CREMA q i) (w.getD i 0)

/-- MATCH_RUN after an outcome (R565): 0 match, 1 to 5 a class, 6 MISSING, 7 masked match; `keep` marks a class 5 attributed to the active
part or an epoch missing through peer loss. -/
def matchRun (run o : Nat) (keep : Bool) : Nat :=
  match o with
  | 0 => min 255 (run + 1)
  | 5 => if keep then run else 0
  | 6 => if keep then run else 0
  | _ => run

/-- An epoch has its outcome. -/
def Chip.twnOutcome (c : Chip) (r : TwnRec) (o : Nat) (keep : Bool) (cause : Nat) : Chip :=
  let q := r.plane
  let c := c.setRec { r with outcome := some o }
  let c := (c.put (TWN_CMP_EPOCH q) r.epoch).wr (TWN_MATCH_MATCH_RUN q) (matchRun (c.rd (TWN_MATCH_MATCH_RUN q)) o keep)
  let own := (r.own.getD []).take 2
  let h := (q, r.epoch, o, own) :: c.twn.history
  let no := if o = 0 ∨ o = 7 then 0 else c.twn.noMatch.getD q 0 + 1
  let c := c.setTwn { c.twn with
    history := (h.filter fun e => e.1 == 0).take 64 ++ (h.filter fun e => e.1 == 1).take 64
    noMatch := putAt 2 0 c.twn.noMatch q no }
  c.twnJudge cause

/-- The standby enters FAULTY (R569, R573). -/
def Chip.twnFaulty (c : Chip) : Chip := if c.twnMode = 2 then c.twnTo 2 7 else c

/-- The active part asks for a handover to its standby in step (R572). -/
def Chip.askHandover (c : Chip) (cause after : Nat) (faulty : Bool) : Chip :=
  if c.twnMode ≠ 1 ∨ !c.twn.peerStep ∨ c.twn.handover.isSome then c
  else
    let h := c.nextHandover after
    ((c.setTwn { c.twn with handover := some (h, cause, false), faulty := faulty }).tell 9 [h, cause]).twnShow

/-- Evidence that self-diagnosis gives of epochs E - 3 to E (R569): a fatal bit, or an evidence bit set in that window. -/
def Chip.ownFault (c : Chip) (q e : Nat) : Bool :=
  let from_ := (c.plane q).nextB - (sub32 (c.epochNow q) e + 4) * c.planePeriod q
  let recent := fun (t : Option Nat) => match t with | some t => decide (from_ ≤ t) | none => false
  c.twnFatal || recent c.twn.ueAt || recent c.twn.concealAt

/-- The evidence records of the sources that feed destinations, for epochs E - 3 to E of their planes. -/
def Chip.evidFor (c : Chip) (ds : List Nat) (q e : Nat) : List Evid :=
  let ss := (ds.flatMap c.feeds).eraseDups
  c.twn.evids.filter fun v => ss.contains v.src && (c.srcPlane v.src != q || sub32 e v.epoch ≤ 3)

/-- A follow miss of a plane in epochs E - 3 to E (R566). -/
def Chip.missIn (c : Chip) (q e : Nat) : Bool := c.twn.missed.any fun m => m.1 == q && sub32 e m.2 ≤ 3

/-- The self-diagnosis word EVIDENCE carries: TWN_DIAG's fatal bits, an evidence bit of the window, and a follow miss of it. -/
def Chip.diagWord (c : Chip) (q e : Nat) : Nat :=
  c.get TWN_DIAG % 32 + 2 ^ 8 * b2n (c.ownFault q e) + 2 ^ 16 * b2n (c.missIn q e)

/-- The destinations whose CRCs differ. -/
def crcDiff (a b : List (Nat × Nat)) : List Nat :=
  (List.range 384).filter fun d => (a.lookup d).getD 0 != (b.lookup d).getD 0

/-- The class of a destination that diverges (R566). -/
def Chip.divClass (c : Chip) (q e d : Nat) (peer : List Evid) (peerMiss : Bool) : Nat :=
  let settle := c.twn.accepted.any fun a => let x := if q = 0 then a.2.1 else a.2.2.1; a.2.2.2 && (e == x || e == (x + 1) % 2 ^ 32)
  let ss := c.feeds d
  let mine := c.twn.evids.filter fun v => ss.contains v.src && (c.srcPlane v.src != q || sub32 e v.epoch ≤ 3)
  let theirs := peer.filter fun v => ss.contains v.src && (c.srcPlane v.src != q || sub32 e v.epoch ≤ 3)
  if settle || c.twn.lateFor.contains (q, e) then 1
  else if c.missIn q e || peerMiss then 2
  else if !(mine.all theirs.contains && theirs.all mine.contains) then 3
  else if ss.any fun s => srcKind s == 3 && c.twn.inherited.contains (s - 272, e) then 4
  else 5

/-- The frames of STORE_IN destinations that diverged in an epoch are marked DIVERGED (R568). -/
def Chip.markDiverged (c : Chip) (q e : Nat) (ds : List Nat) : Chip :=
  let marks := (ds.filter fun d => 272 ≤ d && d < 320).flatMap fun d =>
    let f := c.rd (LBS_REC_CTL_FORMAT (d - 272))
    let per := max 1 (fmt f).period
    let ago := sub32 (c.epochNow q) e * c.planePeriod q
    (List.range (max 1 (c.planePeriod q / per))).map fun i => (d - 272, c.frameNow q f - ago / per + i)
  c.setTwn { c.twn with diverged := (marks ++ c.twn.diverged).take 256 }

/-- A mismatch whose CRC list and evidence are there is classified and acted on (R563, R566, R569). -/
def Chip.classify (c : Chip) (r : TwnRec) : Chip :=
  match r.outcome, r.own, r.peer, r.peerCrcs, r.peerEv with
  | none, some _, some _, some pc, some (ev, diag) =>
    let q := r.plane
    let e := r.epoch
    let ds := crcDiff r.crcs pc
    let cls := if ds.isEmpty then c.divClass q e 511 ev (bit diag 16) else (ds.map fun d => c.divClass q e d ev (bit diag 16)).foldl max 1
    let info := q + cls * 2 + ds.headD 0 * 2 ^ 4 + ds.length * 2 ^ 13
    let c := ((c.put TWN_DIV_EPOCH e).put TWN_DIV_INFO info).set TWN_STATUS_DIVERGED
    let c := (c.inc (TWN_DIV_CNT_COUNT (cls - 1))).post 0x0F 0x0006 q info
    let c := c.markDiverged q e ds
    if cls < 5 then c.twnOutcome r cls false 4
    else
      let c := c.set TWN_STATUS_DEVICE_DIV
      let mine := c.ownFault q e
      let theirs := diag % 2 ^ 16 != 0
      let onActive := if c.twnMode = 1 then mine else theirs
      let c := c.twnOutcome r 5 onActive 4
      let c := c.when (mine && c.twnMode == 1) (·.askHandover 2 (us 100) true)
      let c := c.when (mine && c.twnMode == 2) (·.twnFaulty)
      c.when (theirs && !mine && c.twnMode == 1 && c.twn.handover.isSome) fun c =>
        ((c.setTwn { c.twn with handover := none, faulty := false }).tell 9 [0, 0]).twnShow
  | _, _, _, _, _ => c

/-- Two words of an epoch are compared as soon as the part holds both (R562, R563). -/
def Chip.compare (c : Chip) (q e : Nat) : Chip :=
  let r := c.twnRec q e
  match r.outcome, r.own, r.peer with
  | none, some a, some b =>
    if a = b then c.twnOutcome r (if (r.mask.getD []).isEmpty then 0 else 7) false 4
    else c.tell 7 ([q, e] ++ r.crcs.flatMap fun x => [x.1, x.2 % 2 ^ 32, x.2 / 2 ^ 32])
  | _, _, _ => c

/-- The part compares its outputs with a peer (R546, R562). -/
def Chip.twnCompares (c : Chip) : Bool := c.on TWN_CFG_ENABLE && c.twn.paired && (c.twnMode == 1 || c.twnMode == 2)

/-- CREMA_COMPUTE: every window of the epoch before the present one has closed; the operand is the destination CRCs of R560. An active part
without the mask counts the epoch as MISSING (R564). -/
def Chip.cremaCompute (c : Chip) (q : Nat) (crcs : List (Nat × Nat)) : Chip :=
  let e := sub32 (c.epochNow q) 1
  let r := c.twnRec q e
  if !c.twnCompares || !(c.plane q).counted || r.own.isSome || r.outcome.isSome then c
  else
    let mask := if c.twnMode = 2 then some (r.mask.getD (c.twnMask q)) else r.mask
    let kept := (crcs.filter fun x => dstOffered c.role x.1 && c.dstPlane x.1 == q && !((mask.getD []).contains x.1)).map
      fun x => (x.1, x.2 % 2 ^ 64)
    let cfg := c.configSeq q e
    let aud := if q = c.enginePlane then (c.twn.audCrcs.lookup e).getD 0 else 0
    let c := c.put (TWN_CONFIG_SEQ q) cfg
    match mask with
    | none => c.twnOutcome { r with crcs := kept } 6 false 5
    | some m =>
      let w := sha3 (cremaBytes q e cfg aud m kept)
      let c := (c.showCrema q w).setRec { r with own := some w, ownAt := c.now, mask := some m, crcs := kept }
      (c.tell 6 ([q, e] ++ w)).compare q e

/-- A CREMA message arrives. -/
def Chip.crema (c : Chip) (q e : Nat) (w : List Nat) : Chip :=
  if !c.twnCompares then c else (c.setRec { c.twnRec q e with peer := some w }).compare q e

/-- 2 ms after the own word was sent the peer's has not arrived (R562); the loss of the peer is no reason to count (R572). -/
def Chip.cremaMissing (c : Chip) (q e : Nat) : Chip :=
  let r := c.twnRec q e
  if c.twnCompares && r.outcome.isNone && r.own.isSome && r.peer.isNone && r.ownAt + ms 2 ≤ c.now then
    let lost := if c.twnMode = 2 then !(c.on TWN_STATE_PEER_IN) else !(c.on TWN_PEER_PRESENT)
    c.twnOutcome r 6 lost 5
  else c

/-- MASK, CRC_LIST and EVIDENCE messages arrive (R563, R564, R567). -/
def Chip.maskIn (c : Chip) (q e : Nat) (m : List Nat) : Chip :=
  if c.twnMode = 1 then c.setRec { c.twnRec q e with mask := some m } else c
def Chip.crcListIn (c : Chip) (q e : Nat) (crcs : List (Nat × Nat)) : Chip :=
  if !c.twnCompares then c
  else
    let r := { c.twnRec q e with peerCrcs := some crcs }
    let ds := crcDiff r.crcs crcs
    let ev := (c.evidFor ds q e).flatMap fun v => [v.src, v.epoch, v.errs, v.bads, v.cause]
    ((c.setRec r).tell 8 ([q, e, c.diagWord q e] ++ ev)).classify r
def Chip.evidenceIn (c : Chip) (q e : Nat) (ev : List Evid) (diag : Nat) : Chip :=
  if !c.twnCompares then c
  else
    let r := { c.twnRec q e with peerEv := some (ev, diag) }
    (c.setRec r).classify r

/-- 64 epochs without a match on a plane: the standby starts a state copy (R569). -/
def Chip.noMatchResync (c : Chip) (q : Nat) : Chip :=
  if c.twnMode = 2 ∧ c.twnPhase ≠ 7 ∧ 64 ≤ c.twn.noMatch.getD q 0 then c.twnBreak 8 else c

/-- What twin operation does at a frame boundary of a plane: AUD_STATE_CRC and the evidence of the epoch that ended are kept, and the
standby sends its mask for that epoch (R561, R564, R567). -/
def Chip.twnBoundary (c : Chip) (q : Nat) : Chip :=
  if !(c.on TWN_CFG_ENABLE) then c
  else
    let e := c.epochNow q
    let last := sub32 e 1
    let c := c.when (q == c.enginePlane) fun c =>
      c.setTwn { c.twn with audCrcs := ((e, c.get AUD_STATE_CRC_LO + c.get AUD_STATE_CRC_HI * 2 ^ 32) :: c.twn.audCrcs).take 8 }
    let used := (c.routed.flatMap c.feeds).eraseDups
    let ss := (((c.srcs.filter fun s => s.2.errs + s.2.bads != 0).map Prod.fst) ++ used).eraseDups.filter fun s => c.srcPlane s == q
    let new := (ss.map fun s => (⟨s, last, (c.src s).errs, (c.src s).bads, c.rd (FSY_SRC_STAT_CAUSE s)⟩ : Evid)).filter fun v =>
      v.errs + v.bads + v.cause != 0
    let c := c.setTwn { c.twn with evids := new ++ c.twn.evids.filter fun v => c.srcPlane v.src != q || sub32 e v.epoch ≤ 8 }
    let c := c.each ss fun c s => c.setSrc s { c.src s with errs := 0, bads := 0 }
    if c.twnCompares && c.twnMode == 2 then
      let m := c.twnMask q
      (c.setRec { c.twnRec q last with mask := some m }).tell 5 ([q, last] ++ (List.range 12).map fun w =>
        ((List.range 32).map fun b => if m.contains (32 * w + b) then 2 ^ b else 0).sum)
    else c

/-! ### Self-diagnosis and handover (R570 to R573) -/

/-- A fatal finding of self-diagnosis: the active part with a standby in step relinquishes (R570, R572). -/
def Chip.selfFault (c : Chip) (b : Nat) : Chip :=
  if bit (c.get TWN_DIAG) b then c
  else
    let c := (c.set (TWN_DIAG.fld b 1)).set TWN_STATUS_SELF_FAULT
    ((c.post 0x0F 0x0007 0 (c.get TWN_DIAG)).askHandover 2 (us 100) true).twnShow

/-- A HANDOVER message arrives at the standby in step: it is committed, or cancelled by H = 0 (R572, R581). -/
def Chip.handoverIn (c : Chip) (h cause : Nat) : Chip :=
  if c.twnMode ≠ 2 then c
  else if h = 0 then ((c.setTwn { c.twn with handover := none }).twnFaulty).twnShow
  else if c.twnPhase = 6 then ((c.setTwn { c.twn with handover := some (h, cause, true) }).tell 3 [0]).twnShow
  else c

/-- The answer to a HANDOVER: the active part is committed (R572). -/
def Chip.handoverAck (c : Chip) : Chip :=
  match c.twn.handover with
  | some (h, cause, _) => if c.twnMode = 1 then (c.setTwn { c.twn with handover := some (h, cause, true) }).twnShow else c
  | none => c

/-- TWN_PEER_IN has been low for 10 us after it was high (R555): a standby in step takes over at the next handover instant, another makes
a cold takeover (R572, R578). -/
def Chip.peerLost (c : Chip) : Chip :=
  if !(c.on TWN_STATE_PEER_IN) || !(c.on TWN_CFG_ENABLE) then c
  else
    let c := ((c.clr TWN_STATE_PEER_IN).set TWN_STATUS_PEER_LOST).post 0x0F 0x0008 0 1
    if c.twnMode ≠ 2 ∨ c.twn.handover.isSome then c
    else if c.twnPhase = 6 then (c.setTwn { c.twn with handover := some (c.nextHandover 0, 4, true) }).twnShow
    else
      (((c.set TWN_STATUS_NOT_READY).set TWN_STATE_TWN_NOT_READY).setTwn { c.twn with
        coldDue := true, staged := none, image := none }).twnShow

/-- The TP0 handover instant (R550, R571, R573, R578). -/
def Chip.handoverInstant (c : Chip) : Chip :=
  let x := c.twn
  match x.handover with
  | some (h, _, _) =>
    if h ≠ c.epochNow 0 then c
    else
      let c := (c.inc TWN_COUNTS_HANDOVERS).set TWN_STATUS_HANDOVER
      let c := c.setTwn { x with handover := none, faulty := false, peerStep := false }
      let c := if c.twnMode = 1 then (c.clr TWN_STATE_ACTIVE_OUT).twnTo 2 (if x.faulty then 7 else 6)
        else (c.set TWN_STATE_ACTIVE_OUT).twnTo 1 0
      c.post 0x0F 0x0001 0 h
  | none =>
    if !x.toActive then c
    else
      let c := c.setTwn { x with toActive := false, cold := none, coldDue := false }
      let c := (((c.set TWN_STATE_ACTIVE_OUT).clr TWN_STATE_TWN_NOT_READY).twnTo 1 0)
      match x.cold with
      | some e => ((c.inc TWN_COUNTS_HANDOVERS).set TWN_STATUS_COLD_TAKEOVER).post 0x0F 0x0002 0 e
      | none => c.twnPair

/-- A RESYNC message arrives at the active part: a state copy of the standby begins (R574). -/
def Chip.resyncIn (c : Chip) : Chip :=
  if c.twnMode ≠ 1 then c
  else
    let c := (c.add TWN_COUNTS_RESYNCS 1).each [0, 1] fun c q => c.put (TWN_MATCH q) 0
    c.setTwn { c.twn with peerStep := false, recs := [], noMatch := [0, 0] }

/-! ### Decisions (R209, R462, R486, R527) -/

/-- The active part forwards what a synchroniser decided: the state and the frames advanced, from the chip before. -/
def Chip.tellSync (c c0 : Chip) (s : Nat) (cross : Bool) : Chip :=
  if !c.twnActive then c
  else
    let step := fun (was now : Nat) => if was = 0 ∧ now ≠ 0 then 1 else now - was
    let adv := if cross then step (c0.src s).xshown (c.src s).xshown else step (c0.src s).shown (c.src s).shown
    if cross || c.on (FSY_SRC_STAT_PROMOTED s) || c0.on (FSY_SRC_STAT_PROMOTED s) then
      c.tell 4 [1, s, b2n cross, b2n (c.on (FSY_SRC_STAT_PROMOTED s)), adv]
    else c

/-- The active part forwards the selections that a command made. -/
def Chip.tellSelect (c c0 : Chip) : Chip :=
  c.each [0, 1] fun c q => c.when (c.twnActive && c.selected q != c0.selected q && c.selected q != 7) (·.tell 4 [2, q, c.selected q])

/-- A DECISION message arrives at the standby. -/
def Chip.decisionIn (c : Chip) (d : TwinDecision) : Chip :=
  if !c.twnStandby then c
  else match d with
  | .sync s cross prom adv =>
    if cross then c.setSrc s { c.src s with xdecision := some adv } else c.setSrc s { c.src s with decision := some (prom, adv) }
  | .select q k =>
    let (n, c) := ((c.free, { c with free := c.free + 1 }) : Nat × Chip)
    let c := c.setPlane q { c.plane q with awaits := none }
    if c.selected q = k ∨ c.planeState q ≤ 1 then c
    else if (c.qualified q).contains k then c.switchTo q k (freePhases (10 * n) k q)
    else
      let c := (((c.set (REF_PLANE_STAT_FOLLOW_MISS q)).set REF_STATUS_FOLLOW_MISS).noteMiss q).post 0x02 0x0006 q k
      match c.wantsRef q with | some j => c.switchTo q j (freePhases (10 * n) j q) | none => c.reselect q (freePhases (10 * n))
  | .bridge b r => { c with aud := { c.aud with ratios := ((b, r) :: c.aud.ratios.filter (·.1 != b)).take 8 } }
  | .head h d => c.setHead h { c.head h with named := (d :: (c.head h).named).take 4 }

/-! ### State copies (R575, R576) -/

/-- A segment of a state copy arrives at the standby. -/
def Chip.stateIn (c : Chip) (seg : TwinSegment) : Chip :=
  if c.twnMode ≠ 2 then c
  else match seg with
  | .config i => 
    if c.twnPhase = 2 then
      let c := c.setTwn { c.twn with staged := some (i, c.now) }
      match c.upd.kept with | some j => { c with fw := { c.fw with journal := j } } | none => c
    else c
  | .graphic h l b px =>
    if h < 4 ∧ l < 4 ∧ 2 ≤ c.twnPhase ∧ c.twnPhase ≤ 6 then
      let y := (c.head h).gl l
      c.setGl h l (if b = 0 then { y with buf0 := px } else { y with buf1 := px })
    else c
  | .audio i =>
    if c.twnPhase = 3 ∨ c.twnPhase = 4 then
      let c := { c with aud := { c.aud with
        filts := i.filts, lims := i.lims, phase := i.phase
        coefs := c.aud.coefs.map fun (k, e) => (k, (i.coefs.lookup k).getD e) } }
      (c.wrI AUD_BRIDGE_RATIO_RATIO i.ratio).twnTo 2 4
    else c

/-- The audio stage has reached the present sample: CATCH_UP (R575, R576). -/
def Chip.audioDone (c : Chip) : Chip := if c.twnMode = 2 ∧ c.twnPhase = 4 then (c.twnTo 2 5).twnJudge 4 else c

/-! ### Changes -/

/-- The policy takes (R546, R583): ENABLE waits for the next PIN reset or POR. -/
def Chip.applyTwnCfg (c : Chip) (w : Nat) : Chip :=
  (c.wr TWN_CFG_PENDING_ENABLE (bits w 0 1)).wr TWN_CFG_TWN_BOD_POLICY (bits w 1 1)

/-- A commanded handover is asked for (R582). -/
def Chip.applyHandover (c : Chip) (h : Nat) : Chip :=
  ((c.setTwn { c.twn with handover := some (h, 1, false), faulty := false }).tell 9 [h, 1]).twnShow

/-! ### Requests (R582 to R584) -/

/-- The checks of TWN_HANDOVER. -/
def chkHandover (x : Ctx) (r : Req) : Check :=
  let c := x.c
  let h := c.nextHandover (ms 1)
  require (r.lenIs 0) stBadLength <|
  require (r.epoch == 0) stBadArg <|
  require (c.twnMode == 1 && c.twn.peerStep) stDenied <|
  .ok { resp := ⟨stOK, 0, 0, [h]⟩, nows := [⟨.handover, 0, [h]⟩], journal := false }

/-- The checks of TWN_SET_POLICY. -/
def chkSetPolicy (x : Ctx) (r : Req) : Check :=
  let c := x.c
  let ok := fun i => laneWordOk (r.w (1 + i)) i
  let changed := fun i => bits (laneCfgWord (r.w (1 + i))) 0 11 != bits (c.get (TWN_LN_CFG i)) 0 11
  require (r.lenIs 3) stBadLength <|
  require (r.epoch == 0 && r.w 0 < 4 && ok 0 && ok 1) stBadArg <|
  require (!c.twn.paired || !(changed 0 || changed 1)) stDenied <|
  nowPlan [⟨.twnCfg, 0, [r.w 0]⟩, ⟨.twnLane, 0, [r.w 1]⟩, ⟨.twnLane, 1, [r.w 2]⟩]

/-- TWN_GET_STATUS. -/
def chkTwnStatus (x : Ctx) (r : Req) : Check :=
  let c := x.c
  match r.w 0 with
  | 0 =>
    require (r.lenIs 1) stBadLength <|
    okPlan ([c.get TWN_STATUS, c.get TWN_INT_EN, c.get TWN_CFG, c.get TWN_STATE, c.get TWN_PEER, c.get TWN_DIAG, c.get TWN_FWD_SEQ, c.get TWN_COUNTS]
      ++ [c.get (TWN_MATCH 0), c.get (TWN_MATCH 1), c.get (TWN_CMP_EPOCH 0), c.get (TWN_CMP_EPOCH 1), c.get (TWN_CONFIG_SEQ 0), c.get (TWN_CONFIG_SEQ 1)]
      ++ ([0, 1].flatMap fun q => (List.range 8).map fun w => c.get (TWN_CREMA q w)) ++ ((List.range 5).map fun k => c.get (TWN_DIV_CNT k))
      ++ [c.get TWN_DIV_EPOCH, c.get TWN_DIV_INFO])
  | 1 =>
    require (r.lenIs 3) stBadLength <|
    require (r.w 1 < 2 && 1 ≤ r.w 2 && r.w 2 ≤ 64) stBadArg <|
    okPlan (((c.twn.history.filter fun e => e.1 == r.w 1).take (r.w 2)).flatMap fun e => [e.2.1, e.2.2.1, e.2.2.2.getD 0 0, e.2.2.2.getD 1 0])
  | _ => .error stBadArg

end Sys2Proof.Machine
end

