-- ==== Sys2Proof/Machine/BusOps.lean ====
section
/-! DEFINITION. Operations of the bus matrix and the performance counters (chapter 20): regions, the order of the error checks, errors and
their capture, locks and their break, master resets, the counters, samples and tags, and the checks of the requests of the block. -/

namespace Sys2Proof.Machine

def Chip.setBus (c : Chip) (x : Bus) : Chip := { c with bus := x }

/-! ### Address map and errors (R588 to R592) -/

/-- The region that decodes an address (R588). -/
def busRegion (a : Nat) : Option Nat :=
  if a < 0x100_0000 then some 0
  else if a < 0x104_0000 then some 1
  else if 0x1000_0000 ≤ a ∧ a < 0x1008_0000 then some 2
  else if 0x2000_0000 ≤ a ∧ a < 0x2080_0000 then some 3
  else if 0x3000_0000 ≤ a ∧ a < 0x3020_0000 then some 4
  else if 0x4000_0000 ≤ a ∧ a < 0x4000_4000 then some 5
  else if 0x5000_0000 ≤ a ∧ a < 0x5800_0000 then some 6
  else if dramBase ≤ a ∧ a < 0x400_0000_0000 then some 7
  else none

/-- The first address of MRAM and of the flash window. -/
def mramBase : Nat := 0x2000_0000
def flashBase : Nat := 0x5000_0000

/-- The bytes an access moves. -/
def BusAcc.len (a : BusAcc) : Nat := a.beats * a.size

/-- An access is one 4-byte beat, 4-byte aligned (R590). -/
def BusAcc.word (a : BusAcc) : Bool := a.beats == 1 && a.size == 4 && a.addr % 4 == 0

/-- The matrix accepts the shape of an access: 1 to 16 beats inside a 4 KiB block, and a free ID of the master (R587, R589). -/
def Chip.busAccepts (c : Chip) (a : BusAcc) : Bool :=
  a.m < 10 && a.id < 16 && 1 ≤ a.beats && a.beats ≤ 16 && [1, 2, 4, 8, 16].contains a.size
    && a.addr % 4096 + a.len ≤ 4096 && (c.bus.outs.filter fun o => o.acc.m == a.m).length < 16

/-- The firewall allows a master a region in a direction (R592). -/
def Chip.fwAllows (c : Chip) (m r : Nat) (write : Bool) : Bool :=
  bit (if write then c.rd (BUS_FW_WRITE m) else c.rd (BUS_FW_READ m)) r

/-- A protection range forbids a master the write of an MRAM page (R592, R611). -/
def Chip.protForbids (c : Chip) (m page : Nat) : Bool :=
  (List.range 8).any fun k =>
    c.rd (BUS_PROT_FIRST k) ≤ page && page ≤ c.rd (BUS_PROT_LAST k) && !(bit (c.rd (BUS_PROT_WMASK k)) m)

/-- A register access in user mode the counters forbid (R604). -/
def Chip.pmcForbids (c : Chip) (a : BusAcc) (off : Nat) : Bool :=
  a.user && 0x7C0000 ≤ off && off < 0x800000 && (a.write || !(c.on PMC_CTL_USER_EN))

/-- The memory channels a DRAM access touches. -/
def BusAcc.chans (a : BusAcc) : List Nat :=
  let pa := a.addr - dramBase
  if paChan pa = paChan (pa + a.len - 1) then [paChan pa] else [paChan pa, paChan (pa + a.len - 1)]

/-- The channels a DRAM access reaches that cannot be used (R251, R272). -/
def Chip.chansAbsent (c : Chip) (a : BusAcc) : List Nat := a.chans.filter fun n => c.chState n != chActive

/-- The burst of a PA as its bank queue holds it (R250, R257). -/
def Chip.burstOf (c : Chip) (write : Bool) (pa : Nat) : Burst :=
  let n := paChan pa
  let ca := paLocal pa
  { chan := n, queue := caQueue ca, rank := c.caRank n ca, row := caRow (c.on (DMC_CH_DIMM_DENSITY n)) ca, column := caColumn ca, write := write }

/-- The bursts a DRAM access enqueues, in address order. -/
def Chip.burstsOf (c : Chip) (a : BusAcc) : List Burst :=
  let pa := a.addr - dramBase
  (List.range ((pa + a.len - 1) / 64 - pa / 64 + 1)).map fun i => c.burstOf a.write ((pa / 64 + i) * 64)

/-- What a byte of DRAM differs by from what addressed memory holds for it: the sweep pattern in the sweep rows (R252, R255), whose PRBS-15 words
the spec does not give, nothing elsewhere. -/
def sweepByte (addr : Nat) : Nat :=
  if dramBase ≤ addr ∧ addr < dramBase + 0x40_0000 then Config.sweepPattern (addr - dramBase) % 256 else 0

/-- The response an access earns before any lock is looked at (R591): 0, or a KIND 1 to 3. -/
def Chip.busKind (c : Chip) (a : BusAcc) (lock : Bool) : Nat :=
  match busRegion a.addr with
  | none => 2
  | some r =>
    let mapped := r == 5 && c.on BUS_APT_CTL_ENABLE && a.word && c.on (BUS_APT_MAP_VALID (a.addr % 0x4000 / 4))
    let off := if r = 5 then c.rd (BUS_APT_MAP_TARGET (a.addr % 0x4000 / 4)) else a.addr
    if !(c.fwAllows a.m r a.write) ∨ (r = 3 ∧ a.write ∧ c.protForbids a.m ((a.addr - mramBase) / 4096))
        ∨ ((r = 0 ∨ mapped) ∧ c.pmcForbids a off) then 1
    else if (r ≤ 1 ∧ !a.word) ∨ (lock ∧ r ≠ 4 ∧ r ≠ 7) ∨ (r = 5 ∧ !(c.on BUS_APT_CTL_ENABLE))
        ∨ (r = 7 ∧ 8 * c.sGib * 2 ^ 30 < a.addr - dramBase + a.len) then 2
    else if (r = 7 ∧ (!(c.chansAbsent a).isEmpty ∨ (a.poison ∧ !a.write))) ∨ (r = 3 ∧ a.write ∧ c.mramHeld) then 3
    else 0

/-- An access of region 5 that the aperture does not map waits without a response (R594). -/
def Chip.aptHangs (c : Chip) (a : BusAcc) : Bool :=
  busRegion a.addr == some 5 && c.fwAllows a.m 5 a.write && c.on BUS_APT_CTL_ENABLE
    && !(a.word && c.on (BUS_APT_MAP_VALID (a.addr % 0x4000 / 4)))

/-- BUS_MST_STAT follows the ports (R607). -/
def Chip.busShow (c : Chip) : Chip :=
  c.each (List.range 10) fun c m =>
    let os := c.bus.outs.filter fun o => o.acc.m == m
    ((c.wr (BUS_MST_STAT_OUTSTANDING m) os.length).wrB (BUS_MST_STAT_LOCKED m) (c.bus.locks.any fun l => l.m == m)).wrB
      (BUS_MST_STAT_WAITING m) (os.any fun o => !o.hung)

/-- An error response: counted, flagged, and captured while no capture is held; poisoned data is not captured (R591). -/
def Chip.busError (c : Chip) (a : BusAcc) (kind : Nat) : Chip :=
  let c := ((c.inc (BUS_MST_ERR_COUNT a.m)).set BUS_STATUS_ERR).when (kind == 1) (·.set BUS_STATUS_FIREWALL)
  let poisoned := kind == 3 && a.poison && busRegion a.addr == some 7 && (c.chansAbsent a).isEmpty
  let c := c.when (!poisoned && !(c.on BUS_ERR_INFO_VALID)) fun c =>
    ((c.put BUS_ERR_ADDR_LO (a.addr % 2 ^ 32)).put BUS_ERR_ADDR_HI (a.addr / 2 ^ 32 % 2 ^ 12)).put BUS_ERR_INFO
      (a.m + kind * 2 ^ 4 + b2n a.write * 2 ^ 7 + a.id * 2 ^ 8 + b2n a.user * 2 ^ 12 + 2 ^ 13)
  { c with bus := { c.bus with resps := c.bus.resps ++ [(a.m, a.id, kind, [])] } }

/-- A DRAM access that reaches an unusable channel counts there (R251, R272); poisoned data is an error of the memory (R262). -/
def Chip.dramRefuse (c : Chip) (a : BusAcc) : Chip :=
  if busRegion a.addr ≠ some 7 then c
  else if (c.chansAbsent a).isEmpty then c.when (a.poison && !a.write) (·.readEcc (a.addr - dramBase) none)
  else (c.each (c.chansAbsent a) fun c n => c.inc (DMC_NOACC_COUNT_COUNT n)).set DMC_STATUS_NOACC

/-! ### Locks and master resets (R595 to R599) -/

/-- The bus watchdog breaks the lock of a target (R597). -/
def Chip.lockBreak (c : Chip) (target : Nat) : Chip :=
  match c.bus.locks.find? fun l => l.target == target with
  | none => c
  | some l =>
    let c := c.setBus { c.bus with
      locks := c.bus.locks.filter fun x => x.target != target
      broken := c.bus.broken ++ [(l.m, l.id, l.loc)] }
    ((c.inc BUS_LOCK_BREAKS_COUNT).set BUS_STATUS_LOCK_BREAK).post 0x10 0x0002 l.m (l.loc * 16 % 2 ^ 32)

/-- A master port is reset (R598). -/
def Chip.masterReset (c : Chip) (m : Nat) : Chip :=
  let n := (c.bus.outs.filter fun o => o.acc.m == m).length
  let c := c.setBus { c.bus with
    outs := c.bus.outs.filter fun o => o.acc.m != m
    locks := c.bus.locks.filter fun l => l.m != m
    broken := c.bus.broken.filter fun b => b.1 != m }
  (c.when (n != 0) fun c =>
    ((c.inc (BUS_MASTER_ABORT_COUNT m)).set BUS_STATUS_MASTER_ABORT).post 0x10 0x0003 m n).busShow

/-- A transaction without a response for 1 ms is answered by the watchdog, and its port is reset (R595). -/
def Chip.busTimeout (c : Chip) (m id : Nat) : Chip :=
  match c.bus.outs.find? fun o => o.acc.m == m && o.acc.id == id && o.at_ + us 999 ≤ c.now with
  | none => c
  | some o =>
    let c := c.setBus { c.bus with outs := c.bus.outs.erase o }
    let c := ((c.busError o.acc 5).inc BUS_WDOG_COUNT_COUNT).set BUS_STATUS_WDOG_TIMEOUT
    (c.post 0x10 0x0001 m (o.acc.addr % 2 ^ 32)).masterReset m

/-! ### Performance counters (R600 to R603) -/

/-- The counters of the control cores count: not frozen, and the cores not held in a reset (R600, R601). -/
def Chip.pmcRuns (c : Chip) : Bool :=
  !(c.on PMC_CTL_FREEZE) && (c.pwr.phase == .started || c.pwr.phase == .running || c.pwr.phase == .recovery)

/-- A selector that counts something (R600). -/
def selCounts (sel : Nat) : Bool :=
  (bits sel 8 2 == 1 || bits sel 8 2 == 2) && bits sel 10 2 != 3 && 1 ≤ bits sel 0 8 && bits sel 0 8 ≤ 0x0C

/-- A counter of a core has wrapped (R601): k = 8 is the cycle counter. -/
def Chip.pmcOver (c : Chip) (core k : Nat) : Chip := (c.setBit (PMC_OVF_OVF core) k).set PMC_STATUS_OVF

/-- The counters brought up to now: cycles of the 1 GHz ACLK, and the occurrences of the selected events. -/
def Chip.pmcSync (c : Chip) : Chip :=
  let c' := c.when c.pmcRuns fun c =>
    c.each (List.range 4) fun c k =>
      let n := c.get (PMC_CYC_HI k) * 2 ^ 32 + c.get (PMC_CYC_LO k) + (c.now / 3 - c.pmcAt / 3)
      let c := (c.put (PMC_CYC_LO k) n).put (PMC_CYC_HI k) (n / 2 ^ 32)
      let c := c.when (2 ^ 64 ≤ n) (·.pmcOver k 8)
      c.each (List.range 8) fun c i =>
        let sel := c.get (PMC_EVSEL k i)
        c.when (selCounts sel) fun c =>
          let n := c.get (PMC_CNT k i) + Config.events k sel c.pmcAt c.now
          (c.put (PMC_CNT k i) n).when (2 ^ 32 ≤ n) (·.pmcOver k i)
  { c' with pmcAt := c.now }

/-- Registers of a range returned to 0. -/
def Chip.zero (c : Chip) (base n : Nat) : Chip := { c with regs := c.regs.filter fun r => !(base ≤ r.1 && r.1 < base + n) }

/-- CLEAR empties a sample buffer, or the tag records (R602, R603). -/
def Chip.smpClear (c : Chip) (k : Nat) : Chip :=
  ((c.zero (0x7C8000 + 0x1000 * k) 0x1000).put (PMC_SMP_STAT k) 0).put (PMC_SMP_LOST k) 0
def Chip.nmeClear (c : Chip) : Chip := ((c.zero 0x7C2100 0x400).put PMC_NME_STAT 0).put PMC_NME_LOST 0

/-- A write of a PMC register: the counters stand still while it is made, WO bits act, and a MEAN_LOG2 outside 8 to 24 is ignored
(R600 to R603, R608). -/
def Chip.pmcWrite (c : Chip) (off v : Nat) : Chip :=
  let c := c.pmcSync
  if off = PMC_STATUS.off then c.put PMC_STATUS (c.get PMC_STATUS - (c.get PMC_STATUS &&& (v &&& 15)))
  else if off = PMC_INT_EN.off then c.put PMC_INT_EN (v &&& 7)
  else if off = PMC_CTL.off then c.put PMC_CTL (v &&& 3)
  else if off = PMC_NME_CTL.off then
    let mean := if 8 ≤ bits v 2 6 ∧ bits v 2 6 ≤ 24 then bits v 2 6 else c.rd PMC_NME_CTL_MEAN_LOG2
    ((c.wr PMC_NME_CTL_ENABLE (bits v 0 1)).wr PMC_NME_CTL_MEAN_LOG2 mean).when (bit v 1) (·.nmeClear)
  else if off < 0x7C1000 ∨ 0x7C1400 ≤ off then c
  else
    let k := (off - 0x7C1000) / 256
    let o := (off - 0x7C1000) % 256
    if o = 0 then c.put (PMC_CYC_LO k) v
    else if o = 4 then c.put (PMC_CYC_HI k) v
    else if o = 8 then c.put (PMC_OVF k) (c.get (PMC_OVF k) - (c.get (PMC_OVF k) &&& (v &&& 511)))
    else if 0x10 ≤ o ∧ o < 0x30 then c.put (PMC_EVSEL k ((o - 0x10) / 4)) (v &&& 0xFFF)
    else if 0x30 ≤ o ∧ o < 0x50 then c.put (PMC_CNT k ((o - 0x30) / 4)) v
    else if o = 0x50 then (c.put (PMC_SMP_CTL k) (v &&& 0xFFFF0007)).when (bit v 3) (·.smpClear k)
    else c

/-- A counter wraps (R601): k = 8 is the cycle counter. -/
def Chip.pmcWrap (c : Chip) (core k : Nat) : Chip :=
  let c := c.pmcSync
  if !c.pmcRuns ∨ (k < 8 ∧ !(selCounts (c.get (PMC_EVSEL core k)))) then c
  else (c.when (k < 8) (·.put (PMC_CNT core k) 0)).pmcOver core k

/-- The occurrence that a sample records (R602): address, data address, latency, kind, user mode, error response. -/
def Chip.pmcSample (c : Chip) (core addr data lat kind : Nat) (user err : Bool) : Chip :=
  if !(c.on (PMC_SMP_CTL_ENABLE core)) ∨ c.rd (PMC_SMP_CTL_KIND core) ≠ kind then c
  else
    let n := c.rd (PMC_SMP_STAT_FILL core)
    if 256 ≤ n then c.inc (PMC_SMP_LOST_COUNT core)
    else
      let c := (c.put (PMC_SMP_BUF core n 0) addr).put (PMC_SMP_BUF core n 1) (if kind = 0 then 0 else data)
      let c := c.put (PMC_SMP_BUF core n 2) (min lat 0xFFFF + kind * 2 ^ 16 + b2n user * 2 ^ 18 + b2n err * 2 ^ 19)
      let c := c.put (PMC_SMP_BUF core n 3) (c.pmcSync.get (PMC_CYC_LO core))
      (c.wr (PMC_SMP_STAT_FILL core) (n + 1)).when (n + 1 == 256) (·.set PMC_STATUS_SMP_FULL)

/-- The instruction that a tag falls on (R603): engine, program counter, cycles from issue to retirement and of memory wait, flow. -/
def Chip.nmeTag (c : Chip) (engine pc lat wait : Nat) (flow : Option Nat) : Chip :=
  if !(c.on PMC_NME_CTL_ENABLE) then c
  else
    let n := c.rd PMC_NME_STAT_FILL
    if 64 ≤ n then c.inc PMC_NME_LOST_COUNT
    else
      let c := (c.put (PMC_NME_TAG n 0) (engine + pc * 2 ^ 16)).put (PMC_NME_TAG n 1) (min lat 0xFFFF + min wait 0xFFFF * 2 ^ 16)
      let c := (c.put (PMC_NME_TAG n 2) (flow.getD 0x7F)).put (PMC_NME_TAG n 3) c.systime
      (c.wr PMC_NME_STAT_FILL (n + 1)).when (n + 1 == 64) (·.set PMC_STATUS_NME_FULL)

/-! ### Requests (R605) -/

/-- The aperture is turned on or off (R593). -/
def Chip.applyAperture (c : Chip) (w : Nat) : Chip := c.wr BUS_APT_CTL_ENABLE (bits w 0 1)

/-- The checks of BUS_SET_APERTURE. -/
def chkSetAperture (_ : Ctx) (r : Req) : Check :=
  require (r.lenIs 1) stBadLength <|
  require (r.w 0 < 2 && r.epoch == 0) stBadArg <|
  nowPlan [⟨.aperture, 0, [r.w 0]⟩]

/-- BUS_GET_STATUS. -/
def chkBusStatus (x : Ctx) (r : Req) : Check :=
  require (r.lenIs 0) stBadLength <|
  require (r.epoch == 0) stBadArg <|
  okPlan ([BUS_STATUS, BUS_APT_CTL, BUS_ERR_ADDR_LO, BUS_ERR_ADDR_HI, BUS_ERR_INFO, BUS_WDOG_COUNT, BUS_LOCK_BREAKS].map x.c.get
    ++ (List.range 10).flatMap fun m => [BUS_MST_STAT m, BUS_MST_ERR m, BUS_MASTER_ABORT m].map x.c.get)

end Sys2Proof.Machine
end

