-- ==== Sys2Proof/Machine/ResetOps.lean ====
section
/-! DEFINITION. Resets (chapters 00 and 03): the retention classes and what each reset kind returns to default, the reset kinds with their
recorded causes, lane resets, QUIET, and the end of a power domain's transition. -/

namespace Sys2Proof.Machine

/-! ### Retention classes (R20, R22, R111) -/

/-- The reset kinds of R17 above LNR. -/
def rkFwr : Nat := 0
def rkWdt : Nat := 1
def rkPin : Nat := 2
def rkPor : Nat := 3

/-- The bits of a register that a reset kind returns to default. -/
def RegRow.lost (r : RegRow) (kind : Nat) : Nat :=
  r.cl ||| r.cf ||| (if rkWdt ≤ kind then r.cw else 0) ||| (if rkPin ≤ kind then r.ch else 0) ||| (if rkPor ≤ kind then r.cp else 0)

/-- A stored value after a reset. -/
def regAfter (kind off v : Nat) : Nat :=
  match rowOf off with
  | none => v
  | some r => (v - (v &&& r.lost kind)) ||| (r.dflt &&& r.lost kind)

/-- The default of a listed register's offset. -/
def dfltOf (off : Nat) : Nat := ((rowOf off).map RegRow.dflt).getD 0

/-- An offset listed with a value, unless that is its default. -/
def relist (off v : Nat) : Option (Nat × Word) := if v == dfltOf off then none else some (off, BitVec.ofNat 32 v)

/-- Every register after a reset, DEFAULTS_RESTORED set in each block with a field of a class the reset returns (R22). -/
def Chip.regsReset (c : Chip) (kind : Nat) : Chip :=
  let c : Chip := { c with regs := c.regs.filterMap fun r => relist r.1 (regAfter kind r.1 r.2.toNat) }
  c.each (blockRows.filter fun b => regRows.any fun r => b.1 ≤ r.base && r.base < b.2.1 && r.lost kind != 0) fun c b => c.set b.2.2

/-! ### FWR and WDT (R17, R109, R110, R155, R156) -/

/-- A waiting request that stood when the reset began (R110): forwarded and not yet acknowledged, or a domain request that
runs, or one whose effect waits for a frame boundary or an audio block. -/
def Wait.stood (w : Wait) : Bool :=
  !w.journal && !w.peer && !w.hand && (w.ack.isSome || w.long == some .domains || w.long == some .boundary)

/-- A step of the Percolator that is due is discarded (R267, R323). -/
def FabLane.discard (x : FabLane) : FabLane := { x with step := none }
def DmcCh.discard (x : DmcCh) : DmcCh := { x with nudges := [] }
def PtpPort.forget (x : PtpPort) : PtpPort := { x with rxCopy := [], txCopy := [] }

/-- What the control cores and the mailbox lose (class F), and the trials that end with them. -/
def Chip.coresLost (c : Chip) : Chip :=
  let c := ((c.emit (.clear bar2Base 0x2_1000)).emit (.clear 0x3000_0000 0x20_0000))
  { c with
    fw := { c.fw with order := [], waits := c.fw.waits.filter Wait.stood }
    lanes := c.lanes.map fun e => (e.1, e.2.discard)
    dmc := c.dmc.map fun e => (e.1, e.2.discard)
    ptp := { c.ptp with ports := c.ptp.ports.map PtpPort.forget }
    upd := { c.upd with checked := false, healthEnd := none, refused := false }
    pwr := { c.pwr with phase := .released } }

/-- An FWR or a WDT: the cause is recorded, the ports of the control cores (of every master at a WDT) are reset, and the classes return
to default. The boot ROM runs next. -/
def Chip.fwReset (c : Chip) (wdt : Bool) : Chip :=
  let c := c.pmcSync
  let c := c.each (List.range (if wdt then 10 else 4)) Chip.masterReset
  let c := c.set (if wdt then TOP_RESET_CAUSE_WDT else TOP_RESET_CAUSE_FWR)
  let c := { c with pwr := { c.pwr with asked := c.pwr.asked ||| (if wdt then 2 else 1) } }
  (c.regsReset (if wdt then rkWdt else rkFwr)).coresLost

/-! ### PIN reset and POR (R19, R92, R107, R111) -/

/-- The copies of a record write cut short (R617): in step 1 the copy written first is not valid or unchanged and the other the old one; in step 3
the copy written second is not valid or the old one. `k` says which. -/
def Upd.cut (u : Upd) (aFirst : Bool) (k : Nat) : Upd :=
  let old := u.before
  let first := fun (x : Option UpdRec) => if aFirst then { u with recA := x, recB := old.2 } else { u with recA := old.1, recB := x }
  let second := fun (x : Option UpdRec) => if aFirst then { u with recB := x } else { u with recA := x }
  match k with
  | 0 => first none
  | 1 => { u with recA := old.1, recB := old.2 }
  | 2 => second none
  | _ => second (if aFirst then old.2 else old.1)

/-- Power fails within 10 us of the start of a record write: it is cut short, at a point that is a free value (R82, R617, R630; log entry 48). -/
def Chip.recordCut (c : Chip) : Chip :=
  match c.upd.last with
  | some (t, b) =>
    if c.now < t + us 10 ∧ c.pwr.mramWrite.isSome then { c with free := c.free + 1, upd := c.upd.cut b (Config.free c.free % 4) } else c
  | none => c

/-- The part with every class but P and N at its default, DRAM and the mailbox lost; MRAM and flash kept. -/
def Chip.wiped (c : Chip) (kind : Nat) : Chip :=
  let r := c.regsReset kind
  let r := r.wrB TOP_ROLE_PENDING (r.rd TOP_ROLE_PENDING_ROLE != r.rd TOP_ROLE_ROLE)
  { now := c.now, free := c.free, pmcAt := c.now, evts := c.evts, regs := r.regs
    host := { pci := { ids := c.host.pci.ids } }
    out := c.out ++ [.clear bar2Base 0x4_0000, .clear 0x3000_0000 0x20_0000, .clear dramBase (2 ^ 41)]
    fw := { journal := c.fw.journal }
    upd := { recA := c.upd.recA, recB := c.upd.recB, schemas := c.upd.schemas, kept := c.upd.kept } }

/-- The kinds of the resets still in progress, as bits of TOP_RESET_CAUSE (R18, R19). -/
def Chip.inProgress (c : Chip) : Nat :=
  match c.pwr.phase with
  | .held | .released | .started => c.pwr.asked
  | _ => 0

/-- A PIN reset. -/
def Chip.pinReset (c : Chip) (phase : Phase) : Chip :=
  let asked := c.inProgress ||| 4
  let c := (c.wiped rkPin).set TOP_RESET_CAUSE_PIN
  { c with pwr := { phase := phase, asked := asked } }

/-- A POR with the sources it records, as PWR_POR_SOURCE; narrower kinds in progress are recorded too. The rails below warning stay so, and
while there is one MRAM writes stay held (R87; log entry 50). -/
def Chip.por (c : Chip) (phase : Phase) (source : Nat) : Chip :=
  let asked := c.inProgress ||| 8
  let below := c.rd PWR_STATUS_RAIL_BELOW_WARN
  let c := ((c.wiped rkPor).put TOP_RESET_CAUSE asked).put PWR_POR_SOURCE source
  let c := (c.wr PWR_STATUS_RAIL_BELOW_WARN below).wrB PWR_STATUS_MRAM_HOLD (below != 0)
  { c with pwr := { phase := phase, asked := asked } }

/-- The wake bits of an end of QUIET (R106). -/
def Chip.wakeBits (c : Chip) (quiet svc pin : Bool) : Chip :=
  c.when quiet fun c => ((c.set PWR_WAKE_CAUSE_FROM_QUIET).when svc (·.set PWR_WAKE_CAUSE_BY_SVC)).when pin (·.set PWR_WAKE_CAUSE_BY_PIN)

/-- QUIET is entered (R105): the classes return to default as at a PIN reset, but the sampled straps stand until the next PIN reset or POR (R59). -/
def Chip.quiet (c : Chip) : Chip :=
  let c := (c.wiped rkPin).put TOP_STRAP (c.get TOP_STRAP)
  { c with pwr := { phase := .quiet, asked := 0 } }

/-- RESET_N low (R66, R106); while a wider reset holds the part only its kind is recorded (R18). -/
def Chip.resetNLow (c : Chip) : Chip :=
  if c.pwr.phase = .held then
    let c := c.set TOP_RESET_CAUSE_PIN
    { c with pwr := { c.pwr with asked := c.pwr.asked ||| 4 } }
  else (c.pinReset .held).wakeBits (c.pwr.phase == .quiet) false true

/-- A POR already holds the part. -/
def Chip.heldByPor (c : Chip) : Bool := c.pwr.phase == .held && bit c.pwr.asked 3

/-- PORST_N low (R66, R92, R106); a POR that holds the part goes on. -/
def Chip.porstLow (c : Chip) : Chip :=
  if c.heldByPor then c else (c.por .held 0x100).wakeBits (c.pwr.phase == .quiet) false true

/-- A rail below its reset level, which is below its warning level too (R86 to R88, R92): with VDD_AON the always-on domain loses power, and the next power-up reads COLD. -/
def Chip.railReset (c : Chip) (m : Nat) : Chip :=
  let c := c.recordCut
  if m = 1 then c.por .held 0x200
  else if c.heldByPor then c.railWarn m
  else ((c.por .held (2 ^ m)).railWarn m).wakeBits (c.pwr.phase == .quiet) false false

/-- A first power-up, or the return of VDD_AON (R92, R107). -/
def Chip.coldStart (c : Chip) : Chip :=
  let c := c.recordCut
  let c := { c with pwr := { c.pwr with phase := .running } }
  ((c.por .held 0x200).wr PWR_STATUS_RAIL_BELOW_WARN 0).clr PWR_STATUS_MRAM_HOLD

/-- Both reset pins are released: the part leaves reset (R58, R80). -/
def Chip.release (c : Chip) : Chip :=
  if c.pwr.phase = .held then { c with pwr := { c.pwr with phase := .released, strapDue := true } } else c

/-- The straps are sampled (R58, R59). -/
def Chip.strapSample (c : Chip) (v : Nat) : Chip :=
  if c.pwr.phase = .released ∧ c.pwr.strapDue then
    let c := c.put TOP_STRAP (strapWord v)
    { c with pwr := { c.pwr with strapDue := false } }
  else c

/-! ### Lane resets (R99, R107, R150, R300, R333) -/

/-- The class L fields of an SDI receive lane return to default, and it hunts anew. -/
def Chip.rxLnr (c : Chip) (n : Nat) : Chip :=
  let c := ((c.put (SDI_RX_CRC n) 0).put (SDI_RX_PID n) 0).put (SDI_RX_TC n) 0
  let c := ((c.clr (SDI_RX_STAT_PID_VALID n)).wr (SDI_RX_STAT_TC_KIND n) 0).set SDI_STATUS_DEFAULTS_RESTORED
  c.rxHunt n

/-- An LNR of a fabric or twin receive direction: in DOZE or OFF the lane stays there, otherwise it trains (R313); for a FAILED lane that counts as a
retry. A lane in TEST trains, and its test settings stand (log entry 64). -/
def Chip.lnReset (c : Chip) (n : Nat) : Chip :=
  let st := c.lnSt n
  if st ≤ lnDoze then (c.lnLnr n).laneTouched n
  else
    let c := c.when (st == lnFailed) (·.inc ((lnTrain n).fld 16 8))
    (c.lnTrainStart n true).laneTouched n

/-- LANE_RESET as accepted (R150): KIND, lane index, direction (1 transmit). R19 and R107 record it in the lane's status register, whose fields name no
reset: what shows there is the default of its class L fields (log entry 65). -/
def Chip.laneReset (c : Chip) (kind idx dir : Nat) : Chip :=
  match kind with
  | 0 => if dir = 1 then c.txLnr idx else c.rxLnr idx
  | 1 => if dir = 1 then c.lnTxLnr idx else c.lnReset idx
  | 2 => if dir = 1 then c.lnTxLnr (48 + idx) else (c.lnReset (48 + idx)).twnShow
  | _ => c.netLnr (idx / 4)

/-! ### Power domains (R95, R98, R99, R272) -/

/-- What follows a write of REQ at once: a channel leaving OFF trains from the write (R272); one that is not enabled is held OFF (R271), so a write
of another state that its kind has does nothing. -/
def Chip.domWrite (c : Chip) (n v : Nat) : Chip :=
  if isMem n && !(c.chEnabled (n - 212)) && domValid n v && v != stOff then c else
  let was := c.domGoal n
  let c := c.domReq n v
  c.when (isMem n && c.on (PWR_DOM_CTL_BUSY n) && c.dom n == stOff && c.domGoal n != stOff && was == stOff) (·.trainStart (n - 212))

/-- A port's MAC leaves STANDBY: its lane directions return to the state of their REQ, with the LNR of leaving OFF (R99, R111). -/
def Chip.netLanesBack (c : Chip) (p : Nat) : Chip :=
  (c.each (netDoms p) fun c n => c.wr (PWR_DOM_CTL_CUR n) (c.rd (PWR_DOM_CTL_REQ n))).netLnr p

/-- The MAC of a port has gone from one state to another. -/
def Chip.macAfter (c : Chip) (p old new : Nat) : Chip :=
  ((c.when (new == stLow && old != stLow) (·.netLanesOff p)).when (old == stLow && new != stLow) (·.netLanesBack p)).netRefresh p

/-- What a domain's arrival in a state does to its block. A lane direction that leaves OFF undergoes an LNR (R99). -/
def Chip.domAfter (c : Chip) (n old new : Nat) : Chip :=
  if n < 48 then (if old = stOff then c.rxLnr n else c.rxHunt n)
  else if n < 96 then (c.when (old == stOff) (·.txLnr (n - 48))).txRefresh (n - 48)
  else if (96 ≤ n ∧ n < 144) ∨ (208 ≤ n ∧ n < 210) then
    let l := if n < 144 then n - 96 else n - 160
    let c := if old = stOff then c.lnLeaveOff l (new == stActive) else if new = stActive then c else c.lnSleep l new
    (c.laneTouched l).when (48 ≤ l) (·.twnShow)
  else if 144 ≤ n ∧ n < 192 then c.when (old == stOff) (·.lnTxLnr (n - 144))
  else if 192 ≤ n ∧ n < 208 then
    let p := (n - 192) % 8 / 4
    (c.when (old == stOff) (·.netLnr p)).netRefresh p
  else if 210 ≤ n ∧ n < 212 then c.when (old == stOff) (·.lnTxLnr (n - 162))
  else if isMem n then
    let k := n - 212
    if new = stOff then (c.chEnter k chOff 0).dramLost k
    else if c.chState k = chFailed then c
    else if new = stLow then c.chEnter k chSelf 0
    else c.chEnter k chActive 0
  else if 220 ≤ n ∧ n < 224 then
    if new = stOff then c.setHead (n - 220) { gls := (c.head (n - 220)).gls } else c
  else if 224 ≤ n ∧ n < 240 then
    (if new = stActive then (c.sapRestart (n - 224)).sapWait (n - 224) else c.setSap (n - 224) {}).sapShow (n - 224)
  else if isMac n then c.macAfter (n - 240) old new
  else if n = domAud ∧ new = stOff then c.audLost
  else if n = domStore ∧ new = stOff then c.storeLost
  else c

/-- The engine of a domain has no valid code, so it stays OFF (R622). -/
def Chip.engineDead (c : Chip) (n : Nat) : Bool :=
  (isMac n && c.upd.dead.contains 2) || (n == domAud && c.upd.dead.contains 4) || (220 ≤ n && n < 224 && c.upd.dead.contains 5)

/-- DOMAIN_TRANSITION_DONE (R95): a channel in training ends its transition with its training instead (R272). -/
def Chip.domDone (c : Chip) (n : Nat) : Chip :=
  if !(c.on (PWR_DOM_CTL_BUSY n)) ∨ (isMem n ∧ c.chState (n - 212) = chTraining) then c
  else if c.engineDead n ∧ c.dom n = stOff ∧ c.domGoal n ≠ stOff then c.domForce n stOff
  else
    let old := c.dom n
    let c := c.domEnd n
    (c.when (c.dom n != old) (·.domAfter n old (c.dom n)))

end Sys2Proof.Machine
end

