-- ==== Sys2Proof/Machine/UpdOps.lean ====
section
/-! DEFINITION. Operations of update, boot and security (chapter 21): the update record, the boot ROM's choice of a bank, download and
verification, the trial and its end, microcode switches and lane restarts, attestation, and the checks of the requests of the block. -/

namespace Sys2Proof.Machine

def Chip.setUpd (c : Chip) (x : Upd) : Chip := { c with upd := x }

/-! ### The update record (R617, R618) -/

/-- The record a reader takes: the valid copy with the higher SEQ, copy A of two equal ones, or the default. -/
def Upd.newest (u : Upd) : UpdRec :=
  match u.recA, u.recB with
  | none, none => {}
  | some a, none => a
  | none, some b => b
  | some a, some b => if a.seq < b.seq then b else a

/-- A complete write: both copies hold the record with the next SEQ; the copy written first is the invalid one, or the older one, or A. -/
def Upd.write (u : Upd) (r : UpdRec) (now : Nat) : Upd :=
  let seq := match u.recA, u.recB with
    | none, none => 1
    | some a, none => a.seq + 1
    | none, some b => b.seq + 1
    | some a, some b => max a.seq b.seq + 1
  let aFirst := match u.recA, u.recB with
    | none, _ => true
    | some _, none => false
    | some a, some b => a.seq ≤ b.seq
  let r := { r with seq := seq % 2 ^ 32 }
  { u with recA := some r, recB := some r, last := some (now, aFirst), before := (u.recA, u.recB) }

/-- CRC-32 of IEEE 802.3 over bytes. -/
def crc32 (bs : List Nat) : Nat :=
  0xFFFFFFFF ^^^ bs.foldl (fun r b => (List.range 8).foldl (fun r i => if (r + b / 2 ^ i) % 2 = 1 then r / 2 ^^^ 0xEDB88320 else r / 2) r) 0xFFFFFFFF

/-- A copy of the record as its 64 bytes (R618). -/
def UpdRec.bytes (r : UpdRec) : List Nat :=
  let body := leBytes 4 0x52444355 ++ leBytes 4 r.seq
    ++ [if r.trial then 2 else 1, r.runBank, r.prevBank, r.trialCount, r.area, b2n r.fellBack + 2 * b2n r.auto]
    ++ leBytes 2 r.health ++ ((List.range 8).flatMap fun i => leBytes 4 (r.digest.getD i 0)) ++ List.replicate 12 0
  body ++ leBytes 4 (crc32 body)

/-- Bytes as a number, lowest first. -/
def leNat (bs : List Nat) : Nat := bs.foldr (fun b a => b % 256 + 256 * a) 0

/-- The copy that 64 bytes hold; none where MAGIC or CRC is wrong (R617, R618). -/
def recOf (bs : List Nat) : Option UpdRec :=
  let w := fun o n => leNat ((bs.drop o).take n)
  if bs.length = 64 ∧ w 0 4 = 0x52444355 ∧ w 60 4 = crc32 (bs.take 60) then
    some { seq := w 4 4, trial := w 8 1 == 2, runBank := bits (w 9 1) 0 1, prevBank := bits (w 10 1) 0 1, trialCount := bits (w 11 1) 0 1
           area := bits (w 12 1) 0 1, fellBack := bit (w 13 1) 0, auto := bit (w 13 1) 1, health := w 14 2
           digest := (List.range 8).map fun i => w (16 + 4 * i) 4 }
  else none

/-- The present record. -/
def Chip.updRec (c : Chip) : UpdRec := c.upd.newest

/-- UPD_STATE and UPD_HEALTH follow the record. -/
def Chip.updShow (c : Chip) : Chip :=
  let r := c.updRec
  let c := ((c.wr UPD_STATE_RUN_BANK r.runBank).wrB UPD_STATE_TRIAL r.trial).wr UPD_STATE_TRIAL_COUNT r.trialCount
  ((c.wr UPD_STATE_JOURNAL_AREA r.area).wr UPD_STATE_REC_SEQ (r.seq % 2 ^ 16)).wr UPD_HEALTH_WINDOW_S r.health

/-- The record is written to MRAM (R90 holds the write before it comes here). -/
def Chip.recWrite (c : Chip) (r : UpdRec) : Chip :=
  let c := c.setUpd (c.upd.write r c.now)
  Chip.updShow { c with pwr := { c.pwr with mramWrite := some c.now } }

/-! ### Packages (R614 to R616) -/

def Chip.pkg (c : Chip) (b : Nat) : Option Package := c.upd.pkgs.getD b none
def Package.comp (p : Package) (k : Nat) : Comp := p.comps.getD k ⟨0, 0, [], false⟩

/-- A manifest is well formed: six components, every SVN at most 32 (R610, R615, R616). -/
def Package.formed (p : Package) : Bool := p.format && p.comps.length == 6 && p.comps.all fun x => x.svn ≤ 32

/-- A component's SVN is at least its counter (R610). -/
def Chip.svnOk (c : Chip) (p : Package) (k : Nat) : Bool := c.rd (SEC_OTP_CTR_VALUE k) ≤ (p.comp k).svn

/-- The boot check (R614). -/
def Chip.bootOk (c : Chip) (b : Nat) : Bool :=
  match c.pkg b with
  | none => false
  | some p => p.formed && p.key && p.sig && p.idcode == 0x13840A6F && (p.comp 0).good && c.svnOk p 0

/-- UPD_BANK_VER and VALID show what the checks found of a bank. -/
def Chip.bankShow (c : Chip) (b : Nat) : Chip :=
  let v := match c.pkg b with | some p => if p.formed then p.version else 0 | none => 0
  (c.put (UPD_BANK_VER b) v).wrB (UPD_BANK_STAT_VALID b) (c.bootOk b)

/-- The first check of UPD_VERIFY that fails (R622): its reason, and the component TYPE for reason 5. -/
def Chip.verifyFails (c : Chip) (p : Package) : Option (List Nat) :=
  if c.get UPD_DL_BYTES ≠ c.upd.total then some [8]
  else if !p.formed then some [2]
  else if p.idcode ≠ 0x13840A6F then some [7]
  else if !p.key then some [3]
  else if !p.sig then some [4]
  else match (List.range 6).find? fun k => !(p.comp k).good with
    | some k => some [5, k + 1]
    | none => if (List.range 6).all (c.svnOk p) then none else some [6]

/-! ### Boot ROM (R592, R611 to R613, R620) -/

/-- The firewall and protection values of revision A1, then the lock. -/
def Chip.bootFirewall (c : Chip) : Chip :=
  if c.on BUS_FW_LOCK_LOCKED then c
  else
    let dbg := if c.on SEC_BOOT_DEBUG_DISABLE then 0 else 0xFF + 0x9B * 2 ^ 8
    let rw := [0xFF + 0xBB * 2 ^ 8, 0xFF + 0xBB * 2 ^ 8, 0xFF + 0xBB * 2 ^ 8, 0xFF + 0xBB * 2 ^ 8, 0x03 + 0x03 * 2 ^ 8, 0x92 + 0x90 * 2 ^ 8,
      0x92 + 0x90 * 2 ^ 8, 0x98 + 0x98 * 2 ^ 8, 0x90 + 0x90 * 2 ^ 8, dbg]
    let c := c.each (List.range 10) fun c m => c.put (BUS_FW m) (rw.getD m 0)
    let c := c.each (List.range 8) fun c k => c.put (BUS_PROT k) (if k = 0 then 0x03C07800 else if k = 1 then 0x23FFF810 else 1)
    c.set BUS_FW_LOCK_LOCKED

/-- A trial ends without confirmation: the bank before it is confirmed, and its settings stand again (R620, R628). -/
def Chip.fallBack (c : Chip) : Chip :=
  let r := c.updRec
  let c := c.recWrite { r with trial := false, runBank := r.prevBank, fellBack := true }
  let c := c.setUpd { c.upd with fell := true, kept := none, trialBoot := false }
  c

/-- The journal in use goes back to the confirmed area, and configuration load runs from it (R628). -/
def Chip.restoreArea (c : Chip) (kept : Option (List JEntry)) : Chip :=
  match kept with
  | none => c
  | some j => { c with fw := { c.fw with journal := j, cfgLoaded := false } }

/-- The choice of the bank (R620). -/
def Chip.bankChoice (c : Chip) : Chip × Nat :=
  let r := c.updRec
  let back := fun (c : Chip) => ((c.fallBack).restoreArea c.upd.kept, r.prevBank)
  if r.trial ∧ r.trialCount = 1 then
    let c := c.recWrite { r with trialCount := 0 }
    let c := c.setUpd { c.upd with trialBoot := true, kept := some c.fw.journal }
    if c.bootOk r.runBank then (c, r.runBank) else back c
  else if r.trial then back c
  else if !(c.bootOk r.runBank) ∧ c.bootOk (1 - r.runBank) then
    let c := c.recWrite { r with runBank := 1 - r.runBank, fellBack := true }
    (c.setUpd { c.upd with fell := true }, 1 - r.runBank)
  else (c, r.runBank)

def Chip.toPhase (c : Chip) (ph : Phase) : Chip := let c := c.pmcSync; { c with pwr := { c.pwr with phase := ph } }

/-- The boot ROM runs (R612) and finds the identity key matching or not, and the banks as given. -/
def Chip.bootRom (c : Chip) (idOk : Bool) (p0 p1 : Option Package) : Chip :=
  let cold := c.pwr.asked &&& 12 != 0
  if c.pwr.phase ≠ .released ∨ (cold ∧ c.pwr.strapDue) then c
  else
    let c := c.bootFirewall
    let c := c.when (cold && !idOk) (·.set SEC_STATUS_IDENTITY_FAULT)
    let strap := c.rd TOP_STRAP_BOOT_MODE
    let mode := if !cold ∨ strap = 3 ∨ (strap = 2 ∧ c.on SEC_BOOT_DEBUG_DISABLE) then 0 else strap
    let c := c.when cold (·.wr SEC_BOOT_BOOT_MODE mode)
    if mode = 1 then c.updShow.toPhase .recovery
    else if mode = 2 then (c.set SEC_BOOT_DEBUG_HOLD).toPhase .halted
    else
      let c := ((c.setUpd { c.upd with pkgs := [p0, p1], trialBoot := false, fell := false }).bankShow 0).bankShow 1
      let (c, b) := c.bankChoice
      let c := c.updShow.when c.updRec.fellBack (·.set SEC_STATUS_FELL_BACK)
      if c.bootOk b then (c.setUpd { c.upd with bank := b }).toPhase .started
      else (c.set SEC_STATUS_NO_IMAGE).toPhase .recovery

/-! ### The firmware comes up (R622, R624 to R629) -/

/-- The ROLLBACK counters rise to the SVNs of a package (R610, R625). -/
def Chip.raiseCounters (c : Chip) (p : Package) : Chip :=
  c.each (List.range 6) fun c k => c.wr (SEC_OTP_CTR_VALUE k) (max (c.rd (SEC_OTP_CTR_VALUE k)) (min 32 (p.comp k).svn))

/-- The lanes a SerDes roll-out restarts, in the order of R629, as (kind, index): 0 SDI transmit, 1 fabric, 2 twin, 3 network port. -/
def Chip.rolloutLanes (c : Chip) : List (Nat × Nat) :=
  (((List.range 48).filter fun n => c.domOn (domSdiTx n)).map fun n => (0, n))
    ++ (((List.range 48).filter fun n => c.domOn (domFabRx n)).map fun n => (1, n))
    ++ (((List.range 2).filter fun n => c.domOn (domTwnRx n)).map fun n => (2, n))
    ++ (((List.range 2).filter fun p => c.netActive p).map fun p => (3, p))

/-- The components are checked and loaded; a change of code waits for its switch points (R622, R626, R629). -/
def Chip.loadComponents (c : Chip) (p : Package) : Chip :=
  let ok := fun k => (p.comp k).good && c.svnOk p k
  let bad := (List.range 6).filter fun k => !(ok k)
  let old := c.upd.codes
  let codes := (List.range 6).map fun k => if ok k then (p.comp k).digest else old.getD k []
  let changed := fun k => old.getD k [] != [] && codes.getD k [] != old.getD k []
  let roll := changed 2
  let c := c.setUpd { c.upd with
    loaded := ((List.range 6).filter ok).map (· + 1)
    codes := codes
    dead := (bad.filter fun k => old.getD k [] == []).map (· + 1)
    toSwitch := ([1, 3, 4].filter changed).map (· + 1)
    rollout := if roll then c.rolloutLanes else c.upd.rollout
    done := if roll then 0 else c.upd.done }
  let c := c.when roll (·.set UPD_STATE_SERDES_ROLLOUT)
  c.each bad fun c k => (c.set SEC_STATUS_COMPONENT_BAD).post 0x11 0x0007 c.upd.bank (k + 1)

/-- The settings schema of the confirmed area is met (R628): newer than the firmware's, or not convertible, it is refused. -/
def Chip.meetSchema (c : Chip) (p : Package) (conv : Bool) : Chip :=
  let r := c.updRec
  let s := c.upd.schemas.getD r.area 0
  let c := (c.wr UPD_SCHEMA_RUNNING p.schema).wr UPD_SCHEMA_JOURNAL s
  if p.schema < s ∨ !conv then
    ((c.setUpd { c.upd with refused := true }).set SEC_STATUS_SCHEMA_REFUSED).post 0x11 0x0005 c.upd.bank s
  else if r.trial then c.setUpd { c.upd with schemas := putAt 2 0 c.upd.schemas (1 - r.area) p.schema }
  else (c.setUpd { c.upd with schemas := putAt 2 0 c.upd.schemas r.area p.schema }).wr UPD_SCHEMA_JOURNAL p.schema

/-- What the firmware does for update and security at FW_READY, after FW_STARTED. -/
def Chip.updReady (c : Chip) (conv : Bool) : Chip :=
  match c.pkg c.upd.bank with
  | none => c.setUpd { c.upd with readyAt := c.now }
  | some p =>
    let c := (c.setUpd { c.upd with readyAt := c.now }).put TOP_FW_VERSION p.version
    let c := (c.when c.upd.fell fun c => c.post 0x11 0x0001 c.upd.bank 0).when c.upd.trialBoot fun c => c.post 0x11 0x0002 c.upd.bank p.version
    let c := c.setUpd { c.upd with fell := false }
    let c := c.loadComponents p
    let c := c.when (!c.updRec.trial) fun c => c.raiseCounters p
    c.meetSchema p conv

/-! ### The trial (R623 to R625) -/

/-- The trial is confirmed. -/
def Chip.confirm (c : Chip) : Chip :=
  let r := c.updRec
  if !r.trial then c
  else
    let c := c.recWrite { r with trial := false, area := 1 - r.area, fellBack := false }
    let c := c.setUpd { c.upd with kept := none, trialBoot := false, healthEnd := none }
    match c.pkg c.upd.bank with
    | none => c
    | some p =>
      ((c.raiseCounters p).wr UPD_SCHEMA_JOURNAL (c.upd.schemas.getD (1 - r.area) 0)).post 0x11 0x0003 c.upd.bank p.version

/-- The self-checks fail (R624): the firmware restarts, and the boot ROM falls back. -/
def Chip.checksFail (c : Chip) : Chip :=
  ((c.set SEC_STATUS_SELF_CHECK_FAIL).post 0x11 0x0004 c.upd.bank 0).fwReset false

/-- The trial firmware runs its self-checks: none, or whether they passed. -/
def Chip.checks (c : Chip) : Option Bool :=
  if !c.ready ∨ !c.upd.trialBoot ∨ c.upd.checked then none
  else if c.upd.loaded.length ≠ 6 ∨ c.upd.refused then some false
  else if c.upd.toSwitch.isEmpty && !(c.on UPD_STATE_SERDES_ROLLOUT) then some true
  else none

/-- The self-checks end (R624). -/
def Chip.selfCheck (c : Chip) : Chip :=
  match c.checks with
  | none => c
  | some false => c.checksFail
  | some true =>
    let c := (c.set UPD_STATE_SELF_CHECK_PASSED).post 0x11 0x0004 c.upd.bank 1
    let c := c.setUpd { c.upd with checked := true, healthEnd := some (c.now + sec c.updRec.health) }
    c.when (c.updRec.auto && !c.mramHeld) (·.confirm)

/-- The self-checks have not ended 60 s after FW_READY. -/
def Chip.selfTimeout (c : Chip) : Chip :=
  if c.ready ∧ c.upd.trialBoot ∧ !c.upd.checked ∧ c.upd.readyAt + sec 60 ≤ c.now then c.checksFail else c

/-- The health window ends without a confirmation; one accepted and held by R90 counts (R624, R633). -/
def Chip.healthExpire (c : Chip) : Chip :=
  match c.upd.healthEnd with
  | none => c
  | some e =>
    if c.ready ∧ c.upd.trialBoot ∧ e ≤ c.now ∧ !(c.fw.waits.any fun w => w.req.opcode == 0x1183 && w.since < e) then
      (c.set SEC_STATUS_HEALTH_EXPIRED).fwReset false
    else c

/-- Seconds left of the health window. -/
def Chip.healthLeft (c : Chip) : Nat :=
  match c.upd.healthEnd with
  | none => 0
  | some e => min 4095 ((e - c.now + sec 1 - 1) / sec 1)

/-- An activation takes: the record of the trial is written (R623). -/
def Chip.activate (c : Chip) (w : Nat) : Chip :=
  let r := c.updRec
  let b := 1 - r.runBank
  c.recWrite { r with
    trial := true, runBank := b, prevBank := r.runBank, trialCount := 1, auto := bit w 12
    health := if bits w 0 12 = 0 then 120 else bits w 0 12
    digest := match c.pkg b with | some p => p.digest | none => List.replicate 8 0 }

/-! ### Microcode switches and lane restarts (R626, R629) -/

/-- An engine has switched to the new microcode: TYPE 2, 4 or 5. -/
def Chip.codeSwitch (c : Chip) (type : Nat) : Chip := c.setUpd { c.upd with toSwitch := c.upd.toSwitch.filter (· != type) }

/-- The restart of a lane has ended: an SDI output three frame starts after it went off, a fabric lane when its link is back at full width,
a twin lane when it is trained, a port when it is UP; a lane that has no signal to train on is done. -/
def Chip.restartDone (c : Chip) : Bool :=
  match c.upd.restart with
  | none => true
  | some (0, n, at_) => at_ + 3 * (fmt (c.dst n).present).period ≤ c.now
  | some (1, n, _) =>
    c.lnSt n ≤ lnNoSignal || c.lnSt n ≥ lnFailed
      || (match c.linkOf n with
          | none => c.lnSt n == lnTrained
          | some l => bitCount (c.link l).rxUse == c.linkWidth l)
  | some (2, n, _) => c.lnSt (48 + n) ≤ lnNoSignal || lnTrained ≤ c.lnSt (48 + n)
  | some (_, p, _) => c.npState p ≤ npNoSignal || c.npState p == npUp

/-- The next lane of a roll-out is restarted once the lane before is done. -/
def Chip.laneRestart (c : Chip) : Chip :=
  match c.upd.rollout with
  | [] => c
  | (k, n) :: rest =>
    if !c.restartDone ∨ !c.ready then c
    else
      let c := c.setUpd { c.upd with rollout := rest, restart := some (k, n, c.now), done := c.upd.done + 1 }
      match k with
      | 0 => c.txPause n
      | 1 => c.lnReset n
      | 2 => (c.lnReset (48 + n)).twnShow
      | _ => c.netLnr n

/-- The last lane of a roll-out is done (R629). -/
def Chip.serdesDone (c : Chip) : Chip :=
  if !(c.on UPD_STATE_SERDES_ROLLOUT) ∨ !c.upd.rollout.isEmpty ∨ !c.restartDone ∨ !c.ready then c
  else
    let c := (c.setUpd { c.upd with restart := none }).clr UPD_STATE_SERDES_ROLLOUT
    c.post 0x11 0x0006 c.upd.bank c.upd.done

/-! ### Downloads (R621, R622) -/

/-- The inactive bank, while STATE is CONFIRMED (R619). -/
def Chip.inactive (c : Chip) : Nat := 1 - c.updRec.runBank

/-- A download starts: with FIRST the bank is invalid and its sectors are erased; any download ends VERIFIED. -/
def Chip.downloadStart (c : Chip) (r : Req) : Chip :=
  let b := c.inactive
  let c := (c.clr (UPD_BANK_STAT_VERIFIED b)).set UPD_STATE_BUSY
  c.when (bit (r.w 0) 0) fun c =>
    let c := (c.setUpd { c.upd with pkgs := putAt 2 none c.upd.pkgs b none, total := r.w 2 }).bankShow b
    (c.put UPD_DL_BYTES 0).emit (.clear (flashBase + b * 2 ^ 26) ((r.w 2 + 0xFFFF) / 0x10000 * 0x10000))

/-- A download ends: the bytes read are in flash, or an error has left the bank invalid. -/
def Chip.downloadEnd (c : Chip) (r : Req) (data : Option (List Nat)) : Chip × Resp :=
  let c := c.clr UPD_STATE_BUSY
  match data with
  | none => (c.setUpd { c.upd with total := 0 }, ⟨0x007F, 0, 0, []⟩)
  | some bs =>
    (((c.emit (.bytes (flashBase + c.inactive * 2 ^ 26 + r.w 1) (bs.take (r.w 5)))).put UPD_DL_BYTES (r.w 1 + r.w 5)), ⟨stOK, 0, 0, []⟩)

/-- A verification ends with what the checks found of the bank. -/
def Chip.verifyEnd (c : Chip) (p : Package) : Chip × Resp :=
  let b := c.inactive
  let c := c.clr UPD_STATE_BUSY
  let c := (c.setUpd { c.upd with pkgs := putAt 2 none c.upd.pkgs b (some p) }).bankShow b
  match c.verifyFails p with
  | some why => (c, ⟨stUpdateRefused, 0, 0, why⟩)
  | none => (c.set (UPD_BANK_STAT_VERIFIED b), ⟨stOK, 0, 0, []⟩)

/-! ### Attestation (R631, R632) -/

/-- The body of a report for a nonce, as 104 words. -/
def Chip.reportBody (c : Chip) (nonce : List Nat) : List Nat :=
  let flags := c.rd SEC_BOOT_BOOT_MODE + c.rd SEC_BOOT_DEBUG_DISABLE * 4 + c.rd SEC_BOOT_DEBUG_HOLD * 8 + b2n c.updRec.trial * 16
    + b2n c.updRec.fellBack * 32
  let p := c.pkg c.upd.bank
  let comps := (List.range 6).flatMap fun k =>
    match p with
    | none => (k + 1) :: List.replicate 11 0
    | some p =>
      let on := c.upd.loaded.contains (k + 1)
      [k + 1, (p.comp k).version, (p.comp k).svn, b2n on] ++ (if on then (List.range 8).map fun i => (p.comp k).digest.getD i 0 else List.replicate 8 0)
  [1, c.get TOP_IDCODE] ++ (List.range 4).map (fun i => Config.serial i % 2 ^ 32) ++ nonce ++ [flags, c.upd.bank]
    ++ (List.range 6).map (fun k => c.rd (SEC_OTP_CTR_VALUE k))
    ++ (List.range 8).map (fun i => match p with | some p => p.digest.getD i 0 | none => 0) ++ [6, 0] ++ comps

/-- The attestation report: the body and its signature. -/
def Chip.report (c : Chip) (nonce : List Nat) : List Nat :=
  let body := c.reportBody nonce
  body ++ (List.range 605).map fun i => Config.signature (sha3 (body.flatMap (leBytes 4))) i % 2 ^ 32

/-! ### Requests -/

/-- A plan that answers UPDATE_REFUSED with a reason. -/
def updRefused (why : Nat) : Check := .ok { resp := ⟨stUpdateRefused, 0, 0, [why]⟩, journal := false, fwd := false }

/-- UPD_GET_STATUS (R635); `c` with its live fields. -/
def chkUpdStatus (x : Ctx) (r : Req) : Check :=
  let c := x.c.wr UPD_HEALTH_REMAIN_S x.c.healthLeft
  require (r.lenIs 0) stBadLength <|
  okPlan ([SEC_STATUS, UPD_STATE, UPD_HEALTH, UPD_DL_BYTES, UPD_SCHEMA, SEC_BOOT, UPD_BANK_VER 0, UPD_BANK_VER 1, UPD_BANK_STAT 0,
    UPD_BANK_STAT 1].map c.get ++ (List.range 6).map fun k => c.get (SEC_OTP_CTR k))

/-- SEC_ATTEST (R631). -/
def chkAttest (x : Ctx) (r : Req) : Check :=
  match r.payload.head? with
  | none => .error stBadLength
  | some 0 =>
    require (r.lenIs 9) stBadLength <|
    require (!(x.c.on SEC_STATUS_IDENTITY_FAULT)) stDenied <|
    .ok { resp := ⟨stOK, 0, 0, []⟩, journal := false, fwd := false, long := some .attest }
  | some 1 =>
    require (r.lenIs 1) stBadLength <|
    let n := min Config.certLength 4000
    okPlan (n :: (List.range ((n + 3) / 4)).map fun i => Config.certWord i % 2 ^ 32)
  | some _ => .error stBadArg

/-- A state copy runs on the standby, which then refuses UPD_DOWNLOAD and UPD_ACTIVATE (R575). -/
def Chip.twnCopying (c : Chip) : Bool := c.twnMode == 2 && 2 ≤ c.twnPhase && c.twnPhase ≤ 4

/-- UPD_DOWNLOAD (R621). -/
def chkDownload (x : Ctx) (r : Req) : Check :=
  let c := x.c
  let first := bit (r.w 0) 0
  let have_ := if first then 0 else c.get UPD_DL_BYTES
  require (r.lenIs 7) stBadLength <|
  require (r.w 0 < 2 && r.w 1 == have_ && r.w 2 ≤ 2 ^ 26 && (first || r.w 2 == c.upd.total) && r.w 1 + r.w 5 ≤ r.w 2
    && !r.targetPeer && descOk (r.ws 3 4)) stBadArg <|
  require (!c.updRec.trial && !(c.on UPD_STATE_BUSY) && !c.twnCopying) stDenied <|
  .ok { resp := ⟨stOK, 0, 0, []⟩, journal := false, fwd := false, long := some .download }

/-- UPD_VERIFY (R622); while STATE is TRIAL no bank is inactive. -/
def chkVerify (x : Ctx) (r : Req) : Check :=
  require (r.lenIs 0) stBadLength <|
  require (!x.c.updRec.trial && !(x.c.on UPD_STATE_BUSY)) stDenied <|
  .ok { resp := ⟨stOK, 0, 0, []⟩, journal := false, fwd := false, long := some .verify }

/-- UPD_ACTIVATE (R623). -/
def chkActivate (x : Ctx) (r : Req) : Check :=
  let c := x.c
  let h := bits (r.w 0) 0 12
  require (r.lenIs 1) stBadLength <|
  require (r.w 0 < 2 ^ 13 && (h == 0 || (10 ≤ h && h ≤ 3600))) stBadArg <|
  if c.twnCopying then .error stDenied
  else if c.updRec.trial then updRefused 11
  else if !(c.on (UPD_BANK_STAT_VERIFIED c.inactive)) then updRefused 1
  else .ok { resp := ⟨stOK, 0, 0, []⟩, nows := [⟨.activate, 0, [r.w 0]⟩], fwd := false, after := .fwr }

/-- UPD_CONFIRM (R625). -/
def chkConfirm (x : Ctx) (r : Req) : Check :=
  let c := x.c
  require (r.lenIs 0) stBadLength <|
  if !c.updRec.trial then .ok { resp := ⟨stOK, 0, 0, []⟩, journal := false, fwd := false }
  else if c.upd.refused then updRefused 9
  else if !(c.on UPD_STATE_SELF_CHECK_PASSED) then updRefused 10
  else .ok { resp := ⟨stOK, 0, 0, []⟩, nows := [⟨.confirm, 0, []⟩], fwd := false }

end Sys2Proof.Machine
end

