-- ==== Sys2Proof/Machine/Changes.lean ====
section
/-! DEFINITION. Accepted changes (chapters 01, 04 and 05): what a change of each kind does when it takes, the take queue with its
replacement rule, the settings journal, the points at which changes take, and the chip as the queue will leave it. -/

namespace Sys2Proof.Machine

/-! ### What a change does -/

/-- Word `i` of a change; 0 where it has fewer. -/
def Change.w (x : Change) (i : Nat) : Nat := x.ws.getD i 0

/-- W1C bits of a register are cleared by a mask, but for those set in the same ACLK cycle (R12, R14, R149). -/
def Chip.clearBits (c : Chip) (off mask : Nat) : Chip :=
  match rowOf off with
  | none => c
  | some row =>
    let r : Reg := ⟨off, row.dflt⟩
    let w1c := row.w1c - (row.w1c &&& c.fresh off)
    c.put r (c.get r - (c.get r &&& (mask &&& w1c)))

/-- A role is stored as pending (R148). -/
def Chip.applyRole (c : Chip) (v : Nat) : Chip := (c.wr TOP_ROLE_PENDING_ROLE v).wrB TOP_ROLE_PENDING (v != c.role)

/-- Entries that an earlier request of a number has left lose the number: no request has 65536 (R136, R137). -/
def Chip.renumber (c : Chip) (chan seq : Nat) : Chip :=
  let j := fun (x : JEntry) => if x.chan = chan ∧ x.seq = seq then { x with seq := 65536 } else x
  { c with fw := { c.fw with
      queue := c.fw.queue.map fun p => if p.chan = chan ∧ p.seq = seq then { p with seq := 65536 } else p
      journal := c.fw.journal.map j
      running := c.fw.running.map j } }

/-- A request's waiting changes are withdrawn, and its journal entries with them, so that the entries before them stand (R147). -/
def Chip.applyCancel (c : Chip) (chan seq : Nat) : Chip :=
  { c with fw := { c.fw with
      queue := c.fw.queue.filter fun q => !(q.chan == chan && q.seq == seq)
      journal := c.fw.journal.filter fun j => !(j.chan == chan && j.seq == seq)
      running := c.fw.running.filter fun j => !(j.chan == chan && j.seq == seq) } }

/-- A change takes effect. -/
def Chip.applyChange (c : Chip) (x : Change) : Chip :=
  let i := x.idx
  let w := x.w 0
  match x.kind with
  | .role => c.applyRole w
  | .dom => c.domWrite i w
  | .mon => c.monWrite i w
  | .quiet => c.quiet
  | .lnr => c.laneReset (bits w 0 2) (bits w 2 6) (bits w 8 1)
  | .sticky => c.clearBits i w
  | .fwr => c.fwReset false
  | .pin => c.pinReset .released
  | .cand => c.applyCand i x.ws
  | .plane => c.applyPlane i w (x.w 1)
  | .rephase => c.applyRephase i
  | .recal => c.applyRecal
  | .disagree => c
  | .ptpCfg => (c.applyPtpCfg w (x.w 1)).ptpCand
  | .ptpPort => (c.applyPtpPort i w).ptpCand
  | .relock => c.applyRelock
  | .route => (c.applyRoute i w).bridgeShow
  | .dest => (c.applyDest i w).bridgeShow
  | .gen => (c.applyGen i w (x.w 1)).bridgeShow
  | .src => (c.applySrc i w).bridgeShow
  | .record => c.applyRecord i w (x.w 1)
  | .playback => c.applyPlayback i w (x.w 1) (x.w 2)
  | .dmc => c.applyDmc i w
  | .dmcCfg => c.put DMC_CFG w
  | .sdiRx => c.applySdiRx i w
  | .sdiTx => c.applySdiTx i w
  | .fabCfg => c.applyFabCfg w
  | .fabLink => c.applyLink i w (x.w 1)
  | .fabLane => c.applyLane i w
  | .fabSlot => c.applySlot i w
  | .loop => c.applyLoop i w
  | .netPort => c.applyNetPort i x.ws
  | .gcl => c.applyGcl i x.ws
  | .join => c.applyJoin i x.ws
  | .leave => c.applyLeave i
  | .sender => c.applySender i x.ws
  | .shuf => c.applyShuf i w
  | .embed => c.applyEmbed i w
  | .gain => c.applyGain i w (x.w 1)
  | .mixin => c.applyMixin i w
  | .mixout => c.applyMixout i w
  | .engine => (c.applyEngine w).bridgeShow
  | .sap | .sapGroup | .sapMclk => c.sapSet x.kind i w
  | .head => c.applyHead i w
  | .vlayer => c.takeVl (i / 16) (i % 16) x.ws
  | .glayer => c.takeLater (i / 4) x
  | .colour => c.takeLater (i / 2) x
  | .flip => c.takeFlip (i / 16) (bit i 3) (i % 8) w
  | .anchor => c.applyAnchor i x.ws
  | .handover => c.applyHandover w
  | .twnCfg => c.applyTwnCfg w
  | .twnLane => (c.applyLane (48 + i) w).twnShow
  | .aperture => c.applyAperture w
  | .cancel => c.applyCancel w (x.w 1)
  | .activate => c.activate w
  | .confirm => c.confirm

/-! ### The take queue (R35, R175) -/

/-- How far ahead an epoch of a plane lies, epochs already reached first. -/
def Chip.epochKey (c : Chip) (q e : Nat) : Nat := sub32 (e + 2 ^ 31) (c.epochNow q)

/-- Two waiting changes that collide: one epoch, one setting (R35). -/
def Pend.collides (a b : Pend) : Bool :=
  a.plane == b.plane && a.epoch == b.epoch && a.change.kind == b.change.kind && a.change.idx == b.change.idx

/-- A change enters the queue in place of an earlier one for the same epoch and setting. -/
def Chip.queueChange (c : Chip) (p : Pend) : Chip :=
  { c with fw := { c.fw with queue := (c.fw.queue.filter fun q => !(q.collides p)) ++ [p] } }

/-- The route entries in the queue (R175). -/
def Chip.queueFill (c : Chip) : Nat := (routesOf c.fw.queue).length

/-- The waiting changes of a plane up to an epoch, in epoch order, then in acceptance order (R170). -/
def Chip.dueBy (c : Chip) (q e : Nat) : List Pend :=
  sortBy (fun p => c.epochKey q p.epoch) (c.fw.queue.filter fun p => p.plane == q && c.epochKey q p.epoch ≤ c.epochKey q e)

/-- The pending epochs of a plane, in order. -/
def Chip.epochsOf (c : Chip) (q : Nat) : List Nat :=
  sortBy (c.epochKey q) ((c.fw.queue.filter fun p => p.plane == q).map Pend.epoch).eraseDups

/-- The heads of a plane with accepted settings that take at its next frame boundary (R521). -/
def Chip.headsDue (c : Chip) (q : Nat) : List Nat :=
  (List.range 4).filter fun h => match (c.head h).due with | some w => bits w 1 1 == q | none => false

/-- The chip as the accepted changes of a plane leave it at an epoch (R37): the heads that wait for its next boundary have taken by then. -/
def Chip.project (c : Chip) (q e : Nat) : Chip :=
  (c.each (c.headsDue q) Chip.headBoundary).each (c.dueBy q e) fun c p => c.applyChange p.change

/-! ### The journal (R139, R147) -/

/-- The setting a change writes: a leave writes what a join does. -/
def Change.key (x : Change) : Kind × Nat := (if x.kind == .leave then .join else x.kind, x.idx)

/-- A change that a journal holds: actions are not settings. -/
def Change.journals (x : Change) : Bool :=
  match x.kind with
  | .quiet | .lnr | .sticky | .fwr | .pin | .rephase | .recal | .disagree | .relock | .loop | .flip | .anchor | .handover | .cancel
  | .activate | .confirm => false
  | _ => true

/-- The request still has a change in the queue, so that a CANCEL of it may succeed. -/
def Chip.queued (c : Chip) (chan seq : Nat) : Bool := c.fw.queue.any fun q => q.chan == chan && q.seq == seq

/-- A setting enters a list of settings: of the older entries of the setting the newest stays, and those a CANCEL could uncover. -/
def Chip.putEntry (c : Chip) (l : List JEntry) (x : Change) (chan seq : Nat) : List JEntry :=
  if !x.journals then l
  else
    let old := l.filter fun j => j.change.key == x.key && !(j.chan == chan && j.seq == seq)
    let rec keep : List JEntry → List JEntry
      | [] => []
      | j :: js => if c.queued j.chan j.seq then j :: keep js else [j]
    ⟨x, chan, seq⟩ :: (keep old ++ l.filter fun j => j.change.key != x.key)

/-- The value of a setting in a list of settings. -/
def settingIn (l : List JEntry) (k : Kind × Nat) : Option Change := (l.find? fun j => j.change.key == k).map JEntry.change

/-- A change as a journal holds it: a playback entry with its resolved delay, which a load restores (R233). -/
def Change.resolved (x : Change) : Change := if x.kind == .playback then { x with ws := x.ws.take 2 ++ [0] } else x

/-- A change becomes the setting in force, and is journaled unless it is VOLATILE. -/
def Chip.journalChange (c : Chip) (x0 : Change) (chan seq : Nat) (kept : Bool) : Chip :=
  let x := x0.resolved
  { c with fw := { c.fw with
      running := c.putEntry c.fw.running x chan seq
      journal := if kept then c.putEntry c.fw.journal x chan seq else c.fw.journal } }

/-! ### Taking (R34, R147, R154, R168 to R170) -/

/-- A change of a request has taken: CANCEL can no longer withdraw it, and a host change makes its epoch one that TAKE_APPLIED
reports. -/
def Chip.noteTake (c : Chip) (p : Pend) : Chip :=
  let c := { c with fw := { c.fw with
    hist := c.fw.hist.map fun h => if h.chan = p.chan ∧ h.seq = p.seq then { h with taken := true } else h
    waits := c.fw.waits.map fun w => if w.req.chan = p.chan ∧ w.req.seq = p.seq then { w with taken := true } else w } }
  let x := c.plane p.plane
  if p.host && !(x.taking.contains p.epoch) then c.setPlane p.plane { x with taking := x.taking ++ [p.epoch] } else c

/-- The waiting changes of a plane whose epoch has come, of a kind, take in order. -/
def Chip.takeDue (c : Chip) (q : Nat) (which : Change → Bool) : Chip :=
  let due := (sortBy (fun p => c.epochKey q p.epoch) (c.fw.queue.filter fun p => p.plane == q && c.reached q p.epoch && which p.change))
  let c := { c with fw := { c.fw with queue := c.fw.queue.filter fun p => !(due.contains p) } }
  c.each due fun c p => (c.applyChange p.change).noteTake p

/-- The destination at whose switching point a change takes; none for a change that takes elsewhere. -/
def Change.dest (x : Change) : Option Nat :=
  match x.kind with
  | .route | .dest | .embed => some x.idx
  | .sender => if x.idx < 32 then some (240 + x.idx) else none
  | .shuf => if x.idx < 6144 then some (outDst x.idx) else none
  | _ => none

/-- A change that takes at the frame boundary itself. -/
def Change.atBoundary (x : Change) : Bool := x.dest.isNone && x.kind != .playback && x.kind != .fabSlot

/-- A destination's switching point at which changes take (R168, R170): not the midpoint frame of a format of half the period, and field 2
only with FIELD_TAKE. -/
def Chip.takesHere (c : Chip) (d : Nat) (field2 : Bool) : Bool :=
  let q := c.dstPlane d
  let f := fmt (c.dst d).present
  let since := c.now + c.planePeriod q - (c.plane q).nextB
  (!field2 || (f.interlaced && c.on (XPT_DST_CTL_FIELD_TAKE d)))
    && !(2 * f.period == c.planePeriod q && f.period ≤ since)

/-- A host change of an epoch still waits for a destination of the plane. -/
def Chip.takeWaits (c : Chip) (q e : Nat) : Bool := c.fw.queue.any fun p => p.plane == q && p.epoch == e && p.host

/-- TAKE_APPLIED is posted for the epochs whose changes have all taken (R154); what they gave up is free (R38). -/
def Chip.takesApplied (c : Chip) (q : Nat) : Chip :=
  let x := c.plane q
  let done := x.taking.filter fun e => !(c.takeWaits q e)
  let c := c.setPlane q { x with
    taking := x.taking.filter fun e => !(done.contains e)
    freed := x.freed.filter fun f => !(done.contains f.1) }
  c.each done fun c e =>
    (c.set (if q = 0 then XPT_STATUS_TAKE_APPLIED_TP0 else XPT_STATUS_TAKE_APPLIED_TP1)).post 0x04 0x0001 q e

/-- The destinations of a plane that have a switching point to pass: the routed ones. -/
def Chip.toPass (c : Chip) (q : Nat) : List Nat := c.routed.filter fun d => c.dstPlane d == q && !((c.plane q).passed.contains d)

/-- A destination has passed its switching point; after the last one of the plane TAKE_APPLIED is posted. -/
def Chip.passedBy (c : Chip) (d : Nat) : Chip :=
  let q := c.dstPlane d
  let x := c.plane q
  let c := c.setPlane q { x with passed := if x.passed.contains d then x.passed else d :: x.passed }
  c.when ((c.toPass q).isEmpty) (·.takesApplied q)

/-- The boundary of a plane: every switching point of the epoch before has passed; with no destination routed the changes of this one
have none to wait for. -/
def Chip.takesBegin (c : Chip) (q : Nat) : Chip :=
  let c := c.takesApplied q
  c.setPlane q { c.plane q with passed := [] }

end Sys2Proof.Machine
end

