-- ==== Sys2Proof/Machine/Admit.lean ====
section
/-! DEFINITION. Admission (chapter 01): the loads of the three shared budgets by holder, the crosspoint and DRAM capacities, and the rule that a
request may not raise a load above its budget at any epoch. -/

namespace Sys2Proof.Machine

/-! ### Loads by holder: pairs of a holder's number and its load -/

/-- Slot units of the routed destinations (R39, R189): holder 2000 + d. -/
def Chip.xptLoads (c : Chip) : List (Nat × Nat) :=
  c.routed.map fun d => (2000 + d, classUnits (c.cfgClass (c.rd (XPT_DST_CTL_SOURCE d))))

/-- The cross-plane synchronisers as (source, plane) (R180). -/
def Chip.crosses (c : Chip) : List (Nat × Nat) :=
  ((c.routed.filter fun d => c.on (XPT_DST_CTL_CROSS_PLANE d)).map fun d => (c.rd (XPT_DST_CTL_SOURCE d), c.dstPlane d)).eraseDups

/-- The reservation of a head's settings (R531): 3 passes, and 1.6 for each graphic layer with buffers. -/
def headLoad (ctl : Nat) : Nat := if bit ctl 0 then (30 + 16 * bits ctl 7 3) * classRate (fmtClass (bits ctl 2 5)) / 10 else 0

/-- DRAM reservations in Mb/s (R41, R42, R180, R398, R531): record r, playback 100 + p, source 200 + s, flow 600 + f, head 800 + h, and
cross-plane synchroniser 1000 + 2 s + plane. -/
def Chip.dramLoads (c : Chip) : List (Nat × Nat) :=
  ((List.range 48).map fun r => (r, if c.on (LBS_REC_CTL_ENABLE r) then classRate (fmtClass (c.rd (LBS_REC_CTL_FORMAT r))) else 0))
  ++ ((List.range 48).map fun p =>
      (100 + p, if c.on (LBS_PB_CTL_ENABLE p) then classRate (fmtClass (c.rd (LBS_REC_CTL_FORMAT (c.carafeOf p)))) else 0))
  ++ ((List.range 332).map fun s => (200 + s, if c.on (FSY_SRC_CTL_ALLOW_FS s) then 2 * classRate (c.cfgClass s) else 0))
  ++ ((List.range 32).map fun f => (600 + f, if c.on (NET_RXF_CTL_JOINED f) then 2 * classRate (fmtClass (c.rd (NET_RXF_CTL_FORMAT f))) else 0))
  ++ ((List.range 4).map fun h => (800 + h, headLoad (c.get (MVC_HEAD_CTL h))))
  ++ (c.crosses.map fun (s, q) => (1000 + 2 * s + q, 2 * classRate (c.cfgClass s)))

/-- The holders that have buffers in the media pool (R253): the rings of sources that allow frame synchronisation and of cross-plane routes, and the
playout buffers of receive flows; each has its buffer from the admission of its reservation to its end, so none fails for want of room. -/
def Chip.poolBuffers (c : Chip) : List Nat :=
  (c.dramLoads.filter fun l => l.2 != 0 && 200 ≤ l.1 && !(800 ≤ l.1 && l.1 < 1000)).map Prod.fst

/-- Tile units of the video layers (R44): holder 16 h + v. -/
def Chip.tileLoads (c : Chip) : List (Nat × Nat) :=
  (List.range 64).filterMap fun k =>
    let w := c.vlTarget (k / 16) (k % 16)
    if vlOn w then some (k, c.tapUnits (vlSrc w)) else none

/-- The load of several states at once: every holder counts at its largest (R37). -/
def loadOf (ls : List (Nat × Nat)) : Nat :=
  let ls := ls.filter fun l => l.2 != 0
  ((ls.map Prod.fst).eraseDups.map fun k => (ls.filter fun l => l.1 == k).foldl (fun m l => max m l.2) 0).sum

/-- The loads of one state on the crosspoint, DRAM and tile budgets. -/
def Chip.load (c : Chip) : Nat × Nat × Nat := (loadOf c.xptLoads, loadOf c.dramLoads, loadOf c.tileLoads)

/-- The crosspoint capacity: 288 units for each quadrant in ACTIVE (R40). -/
def Chip.xptCap (c : Chip) : Nat := 288 * ((List.range 4).filter fun q => c.domOn (domQuad q)).length

/-- The tile capacity (R44). -/
def tileCap : Nat := 64

/-! ### Loads at an epoch (R37, R38) -/

/-- The epochs of a plane at which an accepted change takes (R37): those of the take queue, and the next one where a head waits for it. -/
def Chip.takeEpochs (c : Chip) (q : Nat) : List Nat :=
  ((if (c.headsDue q).isEmpty then [] else [(c.epochNow q + 1) % 2 ^ 32]) ++ c.epochsOf q).eraseDups

/-- The states the other plane may be in while plane `q` is at one of its epochs: now, and at each of its pending epochs. -/
def Chip.beside (c : Chip) (q : Nat) : List Chip := c :: (c.takeEpochs (1 - q)).map fun e => c.project (1 - q) e

/-- What the other plane's changes that are taking have given up: it counts until they all have taken (R38). -/
def Chip.unfreed (c : Chip) (q : Nat) : List (Nat × Nat) := ((c.plane (1 - q)).freed).map Prod.snd

/-- The loads at an epoch of a plane, or now. -/
def Chip.loadAt (c : Chip) (q : Nat) (e : Option Nat) : Nat × Nat × Nat :=
  let at_ := match e with | none => c | some e => c.project q e
  let cs := at_.beside q
  let old := c.unfreed q
  (loadOf (cs.flatMap Chip.xptLoads ++ old.filter fun l => 2000 ≤ l.1), loadOf (cs.flatMap Chip.dramLoads ++ old.filter fun l => l.1 < 2000),
    loadOf (cs.flatMap Chip.tileLoads))

/-- The highest loads, now and at any pending epoch. -/
def Chip.peak (c : Chip) : Nat × Nat × Nat :=
  ([0, 1].flatMap fun q => (none :: (c.takeEpochs q).map some).map (c.loadAt q)).foldl
    (fun a l => (max a.1 l.1, max a.2.1 l.2.1, max a.2.2 l.2.2)) (0, 0, 0)

/-- The highest crosspoint and DRAM loads at a pending epoch (R190); with no epoch pending, the loads now (log entry 20). -/
def Chip.pendingPeak (c : Chip) : Nat × Nat :=
  match [0, 1].flatMap fun q => (c.takeEpochs q).map fun e => c.loadAt q (some e) with
  | [] => (c.load.1, c.load.2.1)
  | l => l.foldl (fun a l => (max a.1 l.1, max a.2 l.2.1)) (0, 0)

/-- A DRAM reservation exists, running or pending. -/
def Chip.reserved (c : Chip) : Bool := c.peak.2.1 != 0

/-! ### The rule (R36) -/

/-- A load is admitted: within its budget, or no higher than without the request. -/
def within (with_ without cap : Nat) : Bool := with_ ≤ cap || with_ ≤ without

/-- The chip with a plan accepted: its changes made at once and the others in the queue. -/
def Chip.planned (c : Chip) (p : Plan) : Chip := c.each p.pends Chip.queueChange |>.each p.nows Chip.applyChange

/-- A change of a kind that can move a load (R39, R41, R44). -/
def Change.loads (x : Change) : Bool :=
  match x.kind with
  | .plane | .route | .dest | .gen | .src | .fabSlot | .record | .playback | .dmc | .dmcCfg | .sdiRx | .sdiTx | .join | .leave | .sender | .head | .vlayer
  | .dom | .cancel => true
  | _ => false

/-- A plan passes admission at its own epoch and every later one of its planes; changes without an epoch are checked at every epoch of both
planes, an epoch that a CANCEL empties too. -/
def Chip.admits (c : Chip) (p : Plan) : Bool :=
  let next := c.planned p
  !((p.pends.map Pend.change ++ p.nows).any Change.loads) || [0, 1].all fun q =>
    match (p.pends.find? fun x => x.plane == q), p.nows with
    | none, [] => true
    | own, nows =>
      let from_ := match own, nows with | some x, [] => c.epochKey q x.epoch | _, _ => 0
      let es := ((if nows.isEmpty then [] else [none]) ++ ((next.takeEpochs q ++ c.takeEpochs q).eraseDups).map some).filter fun e =>
        match e with | none => true | some e => from_ ≤ c.epochKey q e
      es.all fun e =>
        let a := next.loadAt q e
        let b := c.loadAt q e
        within a.1 b.1 c.xptCap && within a.2.1 b.2.1 c.dramBudget && within a.2.2 b.2.2 tileCap

/-- XPT_GET_BUDGET (R190). -/
def chkGetBudget (x : Ctx) (r : Req) : Check :=
  let n := x.c.load
  let k := x.c.pendingPeak
  require (r.lenIs 0) stBadLength <|
  okPlan [n.1, x.c.xptCap, k.1, n.2.1, x.c.dramBudget, k.2, n.2.2, tileCap]

/-- What the checks of a request see. -/
def Chip.ctx (c : Chip) (m : Memory) : Ctx := { c := c, mem := m, proj := c.project, reserved := c.reserved }

end Sys2Proof.Machine
end

