-- ==== Sys2Proof/Machine/Access.lean ====
section
/-! DEFINITION. Access to registers and memory (chapters 00, 04 and 20): what a register reads, what a write of it does, the host's accesses over
BAR0, BAR2 and the service port, MSI-X masking, and the accesses of the bus masters in their order. -/

namespace Sys2Proof.Machine

/-! ### Reading a register (R12, R23) -/

/-- LBS_SPACE: the carafe space and the granules no region uses (R245). -/
def Chip.space (c : Chip) : Nat :=
  let used := unionSize (c.regions.map Prod.snd)
  c.granules % 2 ^ 16 + (c.granules - used) % 2 ^ 16 * 2 ^ 16

/-- A register as it reads: its stored bits, the fields that are computed from the present state, and 0 for an offset without one. -/
def Chip.readReg (c : Chip) (off : Nat) : Nat :=
  match rowOf off with
  | none => 0
  | some row =>
    let r : Reg := ⟨off, row.dflt⟩
    if off = TOP_IRQ_STATUS.off then c.irqStatus
    else if off = PTP_SYSTIME.off then c.systime
    else if off = PTP_WRAP.off then c.clock.n / 2 ^ 32 % 2 ^ 32
    else if off = XPT_STATUS.off then
      c.get r % 128 + b2n (c.planeLocked 0) * 2 ^ 7 + b2n (c.planeLocked 1) * 2 ^ 8
    else if off = XPT_UNITS.off then (loadOf c.xptLoads) + c.xptCap * 2 ^ 16
    else if off = XPT_QUEUE.off then c.queueFill
    else if off = LBS_SPACE.off then c.space
    else if off = MVC_TILE_USE.off then c.tileUse.1 + c.tileUse.2 * 2 ^ 16
    else if off = UPD_HEALTH.off then (c.wr UPD_HEALTH_REMAIN_S c.healthLeft).get r
    else if (AUD_FILT_COEF 0).off ≤ off ∧ off < (AUD_FILT_COEF 0).off + 256 then
      ofSigned 32 (Config.filtCoef ((off - (AUD_FILT_COEF 0).off) / 4))
    else if (MVC_CSC_COEF 0).off ≤ off ∧ off < (MVC_CSC_COEF 0).off + 72 then
      ofSigned 16 (Config.cscCoef ((off - (MVC_CSC_COEF 0).off) / 4))
    else if (FAB_LK_STAT 0).off ≤ off ∧ off < (FAB_LK_CNT 47).off + 4 then c.linkReg (off % 256 / 4) r
    else if 0x7C0000 ≤ off ∧ off < 0x800000 then c.pmcSync.get r
    else c.status r

/-! ### Writing a register (R12 to R16, R592) -/

/-- A doorbell (R130, R131): the channel is BUSY and in the doorbell order, by ACLK cycle and then by channel, or it was already BUSY. -/
def Chip.ringBell (c : Chip) (n : Nat) : Chip :=
  if c.on (MBX_CH_STAT_BUSY n) then c.set (MBX_CH_STAT_DB_WHILE_BUSY n)
  else
    let c := (c.set (MBX_CH_STAT_BUSY n)).clr (MBX_CH_STAT_RESP_READY n)
    { c with fw := { c.fw with order := insertBy (fun o => o.2 / 3 * 16 + o.1) (n, c.now) c.fw.order } }

/-- The firewall and protection registers (R607). -/
def isFirewall (off : Nat) : Bool := (0x780200 ≤ off && off < 0x780228) || (0x780280 ≤ off && off < 0x7802A0)

/-- A stored register written by its access types; a W1C bit set in the same ACLK cycle stays (R14). -/
def Chip.store (c : Chip) (row : RegRow) (off v : Nat) : Chip :=
  let r : Reg := ⟨off, row.dflt⟩
  let old := c.get r
  let x := (old - (old &&& row.rw)) ||| (v &&& row.rw)
  let w1c := row.w1c - (row.w1c &&& c.fresh off)
  c.put r ((x - (x &&& (v &&& w1c))) ||| (v &&& row.w1s))

/-- A register is written over the bus; `host` where the host's write rules apply (R15, R16). -/
def Chip.regWrite (c : Chip) (host : Bool) (off v : Nat) : Chip :=
  match rowOf off with
  | none => c.when host Chip.ignored
  | some row =>
    if host && !row.host then c.ignored
    else if 0x10100 ≤ off ∧ off < 0x10180 ∧ off % 8 = 0 then c.when (bit v 0) (·.ringBell ((off - 0x10100) / 8))
    else if 0x20400 ≤ off ∧ off < 0x207E0 then c.domWrite ((off - 0x20400) / 4) (v % 4)
    else if 0x20040 ≤ off ∧ off < 0x20060 then c.monWrite ((off - 0x20040) / 4) v
    else if off = PWR_QUIET_CTL.off then c
    else if off = (PTP_REC_CTL 0).off ∨ off = (PTP_REC_CTL 1).off then
      let p := (off - (PTP_REC_CTL 0).off) / 64
      (c.when (bit v 0) (·.rxqPop p)).when (bit v 1) (·.txrPop p)
    else if 0x7C0000 ≤ off ∧ off < 0x800000 then c.pmcWrite off v
    else if isFirewall off && c.on BUS_FW_LOCK_LOCKED then c
    else c.store row off v

/-! ### The host (R11, R118, R121, R122, R128, R636) -/

/-- The endpoint answers memory requests: not in D3hot, and the part not held in reset or in QUIET. -/
def Chip.reachable (c : Chip) : Bool := !c.host.d3hot && c.pwr.phase != .held && c.pwr.phase != .quiet

/-- An access the endpoint aborts. -/
def Chip.abort (c : Chip) : Chip := { c with host := { c.host with aborts := c.host.aborts + 1 } }

/-- A vector that is not masked any more sends its message if its cause is still pending (R128). -/
def Chip.unmaskedVector (c : Chip) (v : Nat) : Chip :=
  let h := c.host
  let e := h.table.getD v {}
  if h.fnMasked || e.masked || !(bit h.pba v) then c
  else
    let h := { h with pba := h.pba - 2 ^ v }
    { c with host := if bit c.irqStatus v && !h.d3hot then { h with sent := h.sent ++ [(e.addr, e.data)] } else h }

/-- The row MSIX_UNMASK: a vector's mask bit clears, or the function's (none). -/
def Chip.msixUnmask (c : Chip) (v : Option Nat) : Chip :=
  match v with
  | some v =>
    let c := { c with host := { c.host with table := putAt 32 {} c.host.table v { c.host.table.getD v {} with masked := false } } }
    c.unmaskedVector v
  | none => ({ c with host := { c.host with fnMasked := false } }).each (List.range 32) Chip.unmaskedVector

/-- A word of the MSI-X table is written. -/
def Chip.msixWrite (c : Chip) (i word v : Nat) : Chip :=
  let e := c.host.table.getD i {}
  let put := fun (e : Msix) => ({ c with host := { c.host with table := putAt 32 {} c.host.table i e } } : Chip)
  match word with
  | 0 => put { e with addr := e.addr / 2 ^ 32 * 2 ^ 32 + v % 2 ^ 32 }
  | 1 => put { e with addr := e.addr % 2 ^ 32 + v % 2 ^ 32 * 2 ^ 32 }
  | 2 => put { e with data := v % 2 ^ 32 }
  | _ => (put { e with masked := bit v 0 }).when (!(bit v 0)) (·.unmaskedVector i)

/-- The location is in the MSI-X table or the pending bit array. -/
def inMsix (off : Nat) : Bool := (0x30000 ≤ off && off < 0x30200) || (0x31000 ≤ off && off < 0x31008)

/-- A write to a location of the mailbox buffers or ring, by the host or another master. -/
def Chip.bufWrite (c : Chip) (host : Bool) (off v : Nat) : Chip :=
  if 0x21000 ≤ off then c.when host Chip.ignored
  else if !host then c.emit (.words (bar2Base + off) [v])
  else if 0x20000 ≤ off ∨ 0x1000 ≤ off % 0x2000 then c.ignored
  else if c.on (MBX_CH_STAT_BUSY (off / 0x2000)) then c.ignored.set (MBX_CH_STAT_BUF_WRITE_DROPPED (off / 0x2000))
  else c.emit (.words (bar2Base + off) [v])

/-- A host write through BAR2. -/
def Chip.bar2Write (c : Chip) (w : HostWrite) : Chip :=
  if inMsix w.off then
    if !((w.width == 4 && w.off % 4 == 0) || (w.width == 8 && w.off % 8 == 0)) then c.abort
    else if 0x31000 ≤ w.off then c.ignored
    else
      let i := (w.off - 0x30000) / 16
      let k := w.off % 16 / 4
      (c.msixWrite i k w.value).when (w.width == 8) (·.msixWrite i (k + 1) (w.value / 2 ^ 32))
  else if w.width != 4 || w.off % 4 != 0 then c.abort
  else c.bufWrite true w.off (w.value % 2 ^ 32)

/-- QUIET is entered or left over the service port (R104, R106), judged by the state before the write. -/
def Chip.svcQuiet (c : Chip) (v : Nat) : Chip :=
  if c.pwr.phase = .quiet then
    if bit v 1 then ((c.pinReset .released).wakeBits true true false) else c
  else if !(bit v 0) ∨ c.pwr.phase = .held then c
  else if c.twnMode = 1 then c.set PWR_STATUS_QUIET_REFUSED
  else c.quiet

/-- A write over the service port (R118). -/
def Chip.serviceWrite (c : Chip) (off v : Nat) : Chip :=
  if off = PWR_QUIET_CTL.off then c.svcQuiet v
  else if off = PWR_STATUS.off ∨ off = PWR_RAIL_HIST.off ∨ off = PWR_WAKE_CAUSE.off then c.clearBits off v
  else c

/-- The firewall's answer to a host write in a region (R591): forbidden, it is an error of port 4. -/
def Chip.hostGate (c : Chip) (off : Nat) (region : Nat) (k : Chip → Chip) : Chip :=
  if c.fwAllows 4 region true then k c
  else c.busError { m := 4, id := 0, write := true, user := false, addr := region * 2 ^ 24 + off, beats := 1, size := 4, data := [], poison := false } 1

/-- The row REGISTER_WRITE. -/
def Chip.hostWrite (c : Chip) (w : HostWrite) : Chip :=
  match w.port with
  | .service => c.serviceWrite w.off w.value
  | .bar0 =>
    if !c.reachable then c
    else if w.width != 4 || w.off % 4 != 0 then c.abort
    else c.hostGate w.off 0 fun c => c.regWrite true w.off (w.value % 2 ^ 32)
  | .bar2 =>
    if !c.reachable then c
    else if inMsix w.off then c.bar2Write w
    else if w.width != 4 || w.off % 4 != 0 then c.abort
    else c.hostGate w.off 1 fun c => c.bar2Write w

/-! ### The bus (R589 to R597) -/

/-- Memory as the writes of this command leave it. -/
def Chip.memNow (c : Chip) (m : Memory) : Memory := c.out.foldl Memory.apply m

/-- An access of a window of words: a register, or a mailbox buffer. -/
def Chip.wordAccess (c : Chip) (mem : Memory) (a : BusAcc) (reg : Bool) (off : Nat) (host : Bool) : Chip × List Nat :=
  let v := a.data.getD 0 0 % 256 + a.data.getD 1 0 % 256 * 2 ^ 8 + a.data.getD 2 0 % 256 * 2 ^ 16 + a.data.getD 3 0 % 256 * 2 ^ 24
  let bytes := fun w => (wordBytes w).map BitVec.toNat
  if a.write then (if reg then c.regWrite host off v else c.bufWrite host off v, [])
  else if reg then (c, bytes (c.readReg off))
  else (c, bytes (if off < 0x21000 then (c.memNow mem).word (bar2Base + off) else 0))

/-- A picture by numbers. -/
def Pic.code : Pic → List Nat
  | .none => [0]
  | .black => [1]
  | .again => [2]
  | .frame s n => [3, s, n]
  | .slate g => [4, g]

/-- The byte of a recorded carafe slot at an address of the carafe space (R226, R252): what it differs by from what addressed memory holds there; 0
elsewhere. -/
def Chip.slotByte (c : Chip) (addr : Nat) : Nat :=
  let hit := c.lbs.carafes.findSome? fun e =>
    let base := dramBase + granulePa (c.rd (LBS_REC_REGION_BASE e.1))
    let size := slotBytes (c.rd (LBS_REC_CTL_FORMAT e.1))
    if addr < base ∨ size = 0 then none
    else (e.2.slots.lookup ((addr - base) / size)).map fun ps => (ps.flatMap Pic.code, (addr - base) % size)
  match hit with
  | some (ps, k) => Config.slotByte ps k % 256
  | none => 0

/-- A copy of the update record as MRAM holds it (R618): A on page 0, B on page 1; the bytes of memory where it is not valid. -/
def Chip.recView (c : Chip) (mem : Memory) (k : Nat) : List Nat :=
  match (if k = 0 then c.upd.recA else c.upd.recB) with
  | some r => r.bytes
  | none => (List.range 64).map fun i => (mem.read (mramBase + 4096 * k + i)).toNat

/-- The copy an access of MRAM touches. -/
def recHit (addr len : Nat) : Option Nat :=
  let k := (addr - mramBase) / 4096
  if mramBase ≤ addr ∧ k < 2 ∧ (addr - mramBase) % 4096 < 64 ∧ 0 < len then some k else none

/-- A write of MRAM reaches a copy of the update record: what its bytes then hold is the copy (R617). -/
def Chip.recStore (c : Chip) (mem : Memory) (a : BusAcc) : Chip :=
  match recHit a.addr a.len with
  | none => c
  | some k =>
    let base := mramBase + 4096 * k
    let bs := (c.recView mem k).mapIdx fun i v => if a.addr ≤ base + i ∧ base + i < a.addr + a.len then a.data.getD (base + i - a.addr) 0 % 256 else v
    let r := recOf bs
    ((c.setUpd (if k = 0 then { c.upd with recA := r } else { c.upd with recB := r })).emit (.bytes base bs)).updShow

/-- A byte that the bus reads of DRAM and memory: in the frame stores and the media pool, which the engines fill, a free value (R252). -/
def Chip.busByte (c : Chip) (mem : Memory) (addr : Nat) : Nat :=
  if dramBase + 0x1_0000_0000 ≤ addr ∧ addr < dramBase + 0x10_0000_0000 then Config.mediaByte c.free addr % 256
  else match recHit addr 1 with
  | some k => (c.recView mem k).getD ((addr - mramBase) % 4096) 0
  | none => (mem.read addr).toNat ^^^ sweepByte addr ^^^ c.slotByte addr

/-- The effect of an access that is answered OKAY, and the bytes it reads. -/
def Chip.busDo (c : Chip) (mem : Memory) (a : BusAcc) : Chip × List Nat :=
  match busRegion a.addr with
  | some 0 => c.wordAccess mem a true a.addr (a.m == 4)
  | some 1 => c.wordAccess mem a false (a.addr - bar2Base) (a.m == 4)
  | some 5 => c.wordAccess mem a true (c.rd (BUS_APT_MAP_TARGET (a.addr % 0x4000 / 4)) / 4 * 4) true
  | some r =>
    let c := if r = 7 then c.setBus { c.bus with bursts := c.burstsOf a } else c
    if !a.write then
      let m := c.memNow mem
      ({ c with free := c.free + 1 }, (List.range a.len).map fun i => c.busByte m (a.addr + i))
    else if r = 2 ∨ r = 6 then (c, [])
    else if r = 3 ∧ (recHit a.addr a.len).isSome then ((c.emit (.bytes a.addr ((a.data.take a.len).map (· % 256)))).recStore (c.memNow mem) a, [])
    else (c.emit (.bytes a.addr ((a.data.take a.len).mapIdx fun i v => v % 256 ^^^ sweepByte (a.addr + i) ^^^ c.slotByte (a.addr + i))), [])
  | none => (c, [])

/-- An access reaches its target (R591, R596, R597): its response, and the lock it opens, keeps or closes. -/
def Chip.busServe (c : Chip) (mem : Memory) (o : BusOut) : Chip :=
  let a := o.acc
  let r := (busRegion a.addr).getD 8
  let kind := c.busKind a o.lock
  let closing := a.write && c.bus.locks.any fun l => l.target == r && l.m == a.m && l.id == a.id && l.loc == a.addr / 16
  if kind ≠ 0 then (c.when (kind == 3) (·.dramRefuse a)).busError a kind
  else if a.write && c.bus.broken.contains (a.m, a.id, a.addr / 16) then
    (c.setBus { c.bus with broken := c.bus.broken.erase (a.m, a.id, a.addr / 16) }).busError a 4
  else
    let (c, bytes) := c.busDo mem a
    let locks := if o.lock then c.bus.locks ++ [⟨r, a.m, a.id, a.addr / 16, 0, c.now⟩]
      else if closing then c.bus.locks.filter fun l => l.target != r else c.bus.locks
    let locks := locks.map fun l => if l.target = r ∧ l.m = a.m then { l with beats := l.beats + a.beats } else l
    let c := c.setBus { c.bus with locks := locks, resps := c.bus.resps ++ [(a.m, a.id, 0, bytes)] }
    c.when (locks.any fun l => l.target == r && 64 ≤ l.beats) (·.lockBreak r)

/-- The first outstanding access that may reach its target: not hung, the oldest of its master, ID and target, and the target not locked by
another master, nor by its own for a second lock. -/
def nextOut (locks : List BusLock) : List BusOut → List BusOut → Option BusOut
  | _, [] => none
  | before, o :: rest =>
    let r := busRegion o.acc.addr
    if !o.hung && !(before.any fun b => b.acc.m == o.acc.m && b.acc.id == o.acc.id && busRegion b.acc.addr == r)
        && !(locks.any fun l => some l.target == r && (l.m != o.acc.m || o.lock)) then some o
    else nextOut locks (before ++ [o]) rest

/-- Every access that may reach its target does, in order; `n` bounds how many there are. -/
def Chip.busPump (c : Chip) (mem : Memory) : Nat → Chip
  | 0 => c
  | n + 1 =>
    match nextOut c.bus.locks [] c.bus.outs with
    | none => c
    | some o => Chip.busPump ((c.setBus { c.bus with outs := c.bus.outs.erase o }).busServe mem o) mem n

/-- The targets take what has been released, and the port registers follow. -/
def Chip.busRun (c : Chip) (mem : Memory) : Chip := (c.busPump mem c.bus.outs.length).busShow

/-- A master issues an access (R589). -/
def Chip.busIssue (c : Chip) (mem : Memory) (a : BusAcc) (lock : Bool) : Chip :=
  if !(c.busAccepts a) ∨ c.pwr.phase = .held ∨ c.pwr.phase = .quiet ∨ (lock ∧ a.write) then c
  else
    let hung := c.aptHangs a && !lock
    let c := c.setBus { c.bus with outs := c.bus.outs ++ [⟨a, lock, c.now, hung⟩] }
    (c.when hung (·.set BUS_STATUS_APT_HANG)).busRun mem

end Sys2Proof.Machine
end

