-- ==== Sys2Proof/Machine/MbxOps.lean ====
section
/-! DEFINITION. The checks of the requests of the TOP and PWR blocks (chapters 03 and 04). -/

namespace Sys2Proof.Machine

/-! ### TOP and MBX (R144 to R150) -/

/-- ECHO. -/
def chkEcho (_ : Ctx) (r : Req) : Check := okPlan r.payload

/-- GET_INFO (R145). -/
def chkGetInfo (x : Ctx) (r : Req) : Check :=
  let c := x.c
  require (r.lenIs 0) stBadLength <|
  okPlan [c.get TOP_IDCODE, c.get TOP_FW_VERSION, c.role + c.rd TOP_STATUS_TWIN_STATE * 4 + c.rd TOP_STRAP_TWIN_UNIT * 16, 1]

/-- GET_EPOCH (R145). -/
def chkGetEpoch (x : Ctx) (r : Req) : Check :=
  let c := x.c
  require (r.lenIs 0) stBadLength <|
  okPlan [c.get (XPT_EPOCH 0), c.get (XPT_BOUNDARY_TIME 0), c.get (XPT_EPOCH 1), c.get (XPT_BOUNDARY_TIME 1),
    b2n (c.planeLocked 0) + b2n (c.planeLocked 1) * 2]

/-- RESTART_FW (R146). -/
def chkRestartFw (_ : Ctx) (r : Req) : Check :=
  require (r.lenIs 0) stBadLength <|
  .ok { resp := ⟨stOK, 0, 0, []⟩, journal := false, fwd := false, after := .fwr }

/-- DEVICE_RESET (R146). -/
def chkDeviceReset (x : Ctx) (r : Req) : Check :=
  require (r.lenIs 0) stBadLength <|
  require (x.c.twnMode != 1) stDenied <|
  .ok { resp := ⟨stOK, 0, 0, []⟩, journal := false, fwd := false, after := .pin }

/-- SET_ROLE (R148). -/
def chkSetRole (x : Ctx) (r : Req) : Check :=
  require (r.lenIs 1) stBadLength <|
  require (r.w 0 < 3 && !r.volatile) stBadArg <|
  require (r.w 0 != 2 || !(x.c.on TWN_CFG_PENDING_ENABLE)) stDenied <|
  nowPlan [⟨.role, 0, [r.w 0]⟩]

/-- A waiting change is due less than 1 ms ahead, or its boundary has passed; on a plane in START none is scheduled (R147). -/
def Chip.dueSoon (c : Chip) (p : Pend) : Bool :=
  c.reached p.plane p.epoch || (1 < c.planeState p.plane && c.epochAt p.plane p.epoch < c.now + ms 1)

/-- The checks of CANCEL: one journal write of its own, but for a VOLATILE request (R147). -/
def Chip.cancelCheck (c : Chip) (r : Req) : Check :=
  let ch := bits (r.w 0) 16 16
  let sq := bits (r.w 0) 0 16
  require (r.lenIs 1) stBadLength <|
  match c.fw.hist.find? fun h => h.chan == ch && h.seq == sq with
  | none => .error stBadArg
  | some h =>
    let mine := c.fw.queue.filter fun p => p.chan == ch && p.seq == sq
    require (h.resp.status == stPending && !(bit h.resp.flags 2)) stBadArg <|
    require (r.epoch == 0) stBadArg <|
    require (!h.taken && !(mine.any c.dueSoon)) stEpochPast <|
    .ok { resp := ⟨stOK, 0, 0, [mine.length]⟩, nows := [⟨.cancel, 0, [ch, sq]⟩], journal := !h.volatile && mine.length != 0 }

/-- CANCEL (R147). -/
def chkCancel (x : Ctx) (r : Req) : Check := x.c.cancelCheck r

/-- The entries of CLEAR_STICKY as (offset word, mask). -/
def stickyEntries (r : Req) : List (Nat × Nat) := (List.range (r.w 0)).map fun i => (r.w (1 + 2 * i), r.w (2 + 2 * i))

/-- The values of the registers, each read right after its clear, and the chip after all of them. -/
def Chip.clearAll (c : Chip) : List (Nat × Nat) → List Nat
  | [] => []
  | (off, mask) :: es =>
    let c := c.clearBits off mask
    c.readReg off :: Chip.clearAll c es

/-- CLEAR_STICKY (R149). -/
def chkClearSticky (x : Ctx) (r : Req) : Check :=
  require (r.lenIs (1 + 2 * r.w 0) && r.payload.length != 0) stBadLength <|
  let es := stickyEntries r
  let ok := fun (e : Nat × Nat) => e.1 < 2 ^ 24 && e.1 % 4 == 0 &&
    match rowOf e.1 with
    | none => false
    | some row => e.2 &&& row.w1c == e.2
  require (1 ≤ r.w 0 && r.w 0 ≤ 509 && nodup (es.map Prod.fst) && es.all ok) stBadArg <|
  .ok { resp := ⟨stOK, 0, 0, x.c.clearAll es⟩, nows := es.map fun e => ⟨.sticky, e.1, [e.2]⟩, journal := false, fwd := false }

/-- The power domain of a lane direction as LANE_RESET names it. -/
def lnrDom (kind i dir : Nat) : Nat :=
  match kind with
  | 0 => if dir = 1 then domSdiTx i else domSdiRx i
  | 1 => if dir = 1 then domFabTx i else domFabRx i
  | 2 => if dir = 1 then domTwnTx i else domTwnRx i
  | _ => if dir = 1 then domNetTx i else domNetRx i

/-- LANE_RESET (R150). -/
def chkLaneReset (x : Ctx) (r : Req) : Check :=
  let w := r.w 0
  let kind := bits w 0 2
  let i := bits w 2 6
  require (r.lenIs 1) stBadLength <|
  require (w < 512 && i < [48, 48, 2, 8].getD kind 0 && !(x.c.heldOff (lnrDom kind i (bits w 8 1)))) stBadArg <|
  .ok { resp := ⟨stOK, 0, 0, []⟩, nows := [⟨.lnr, 0, [w]⟩], journal := false, fwd := false }

/-! ### PWR (R113 to R116) -/

/-- PWR_GET_STATUS (R113). -/
def chkPwrStatus (x : Ctx) (r : Req) : Check :=
  let c := x.c
  require (r.lenIs 0) stBadLength <|
  okPlan ([PWR_STATUS, PWR_INT_EN, PWR_BOD_EVENTS, PWR_RAIL_HIST, PWR_POR_SOURCE, PWR_WAKE_CAUSE, PWR_AVS_TARGET, PWR_TEMP,
      PWR_THERM_WARN_LEVEL, PWR_THERM_CRIT_LEVEL].map c.get
    ++ (List.range 8).map (fun m => c.get (PWR_MON_CFG m)) ++ (List.range 248).map fun n => c.get (PWR_DOM_CTL n))

/-- How high a state stands: OFF, a low-power state, ACTIVE. -/
def domRank (v : Nat) : Nat := if v = stActive then 2 else if v = stOff then 0 else 1

/-- A lane direction is in use: it carries a route or slot, or belongs to a link that is up (R96, R552); a network lane while a flow uses
its port. -/
def Chip.laneUsed (c : Chip) (n : Nat) : Bool :=
  if n < 48 then c.srcUsed n
  else if n < 96 then c.dstUsed (n - 48)
  else if n < 144 then c.laneCarries (n - 96) || c.laneInUpLink (n - 96)
  else if n < 192 then c.laneCarries (n - 144) || c.laneInUpLink (n - 144)
  else if n < 200 then c.flowOn ((n - 192) / 4)
  else if n < 208 then c.flowOn ((n - 200) / 4)
  else c.lnUsable (48 + n % 2)

/-- An audio route, mix or embedding is configured, running or pending (R96). -/
def Chip.audioSet (c : Chip) : Bool :=
  (c.aud.coefs.any fun e => e.2.goal != 0) || ((c.listed 0x508000 8192).any fun e => bit e.2 14) || ((c.listed 0x501000 320).any fun e => bit e.2 0)
    || c.fw.queue.any fun p => p.change.kind == .shuf || p.change.kind == .gain || p.change.kind == .embed

/-- A record or playback channel is enabled, running or pending. -/
def Chip.storeSet (c : Chip) : Bool :=
  (List.range 48).any fun r => c.on (LBS_REC_CTL_ENABLE r) || c.on (LBS_PB_CTL_ENABLE r) || c.waits .record r || c.waits .playback r

/-- The crosspoint quadrants left ACTIVE once the entries are carried out. -/
def Chip.quadsLeft (c : Chip) (es : List (Nat × Nat)) : Nat :=
  ((List.range 4).filter fun q => ((es.lookup (domQuad q)).getD (c.domGoal (domQuad q))) == stActive).length

/-- The status a domain entry (domain, state) is refused with under R96. -/
def Chip.domDeny (c : Chip) (reserved : Bool) (es : List (Nat × Nat)) (e : Nat × Nat) : Option Nat :=
  let n := e.1
  if domRank (c.domGoal n) ≤ domRank e.2 then none
  else
    let deny := fun (b : Bool) => if b then some stDenied else none
    if isLane n then deny (c.laneUsed n)
    else if isMem n then (if !reserved then none else if e.2 = stOff then some stNoCapacity else some stDenied)
    else if isMac n then deny (c.flowOn (n - 240))
    else if n < 224 then deny (bit (c.headCtl (n - 220)) 0)
    else if n < 240 then deny (c.on (SAP_PORT_CTL_ENABLE (n - 224)))
    else if n < 246 then (if 288 * c.quadsLeft es < c.peak.1 then some stNoCapacity else none)
    else if n = domAud then deny c.audioSet
    else deny c.storeSet

/-- PWR_SET_DOMAIN (R114). -/
def chkSetDomain (x : Ctx) (r : Req) : Check :=
  let c := x.c
  let ws := r.ws 1 (r.w 0)
  let es := ws.map fun w => (bits w 0 8, bits w 8 2)
  require (r.lenIs (1 + r.w 0) && r.payload.length != 0) stBadLength <|
  require (1 ≤ r.w 0 && r.w 0 ≤ 248 && ws.all (· < 1024) && r.epoch == 0
    && (es.all fun e => e.1 < 248 && domValid e.1 e.2 && (e.2 == stOff || !(c.heldOff e.1))) && nodup (es.map Prod.fst)) stBadArg <|
  require (es.all fun e => !(isMem e.1) || (c.chEnabled (e.1 - 212) && c.chState (e.1 - 212) != chTraining)) stDenied <|
  allOk es (c.domDeny x.reserved es) <|
  .ok { resp := ⟨stOK, 0, 0, []⟩, nows := es.map fun e => ⟨.dom, e.1, [e.2]⟩, long := some .domains }

/-- PWR_SET_MON (R115). -/
def chkSetMon (x : Ctx) (r : Req) : Check :=
  let es := (List.range (r.w 0)).map fun i => (r.w (1 + 2 * i), r.w (2 + 2 * i))
  require (r.lenIs (1 + 2 * r.w 0) && r.payload.length != 0) stBadLength <|
  require (1 ≤ r.w 0 && r.w 0 ≤ 8 && r.epoch == 0 && nodup (es.map Prod.fst)
    && es.all fun e => e.1 < 8 && e.2 &&& 0xF000F000 == 0 && monOk (x.c.rd PWR_AVS_TARGET_STEP) e.1 e.2) stBadArg <|
  nowPlan (es.map fun e => ⟨.mon, e.1, [e.2]⟩)

/-- PWR_ENTER_QUIET (R104, R116). -/
def chkEnterQuiet (x : Ctx) (r : Req) : Check :=
  require (r.lenIs 0) stBadLength <|
  require (x.c.twnMode != 1) stDenied <|
  .ok { resp := ⟨stOK, 0, 0, []⟩, journal := false, fwd := false, after := .quiet }

end Sys2Proof.Machine
end

