-- ==== Sys2Proof/Machine/Request.lean ====
section
/-! DEFINITION. How the firmware serves a request (R131 to R147): the checks of R135 in their order, waits, the journal, forwarding, the
response, the duplicate history, and what follows a response. -/

namespace Sys2Proof.Machine

/-! ### Who is served next (R84, R131, R613) -/

/-- A channel is served: by the running firmware, or channel 0 by the boot ROM in a recovery boot. -/
def Chip.serves (c : Chip) (ch : Nat) : Bool := c.ready || (c.pwr.phase == .recovery && ch == 0)

/-- A waiting request holds up the ones behind it: not a long one, even while it waits for MRAM or an ACK, nor one relayed to the peer, nor a
handover asked for (log entry 15). -/
def Wait.blocks (w : Wait) : Bool := w.plan.long.isNone && !w.peer && !w.hand

/-- The doorbell served next. -/
def Chip.nextBell (c : Chip) : Option (Nat × Nat) :=
  if c.fw.waits.any Wait.blocks then none else c.fw.order.find? fun o => c.serves o.1

/-! ### Responses (R130, R133, R136) -/

/-- Header word 0 of a request whose version and channel are right. -/
def Req.head (r : Req) : Nat := 2 ^ 24 + r.chan * 2 ^ 16 + r.seq

/-- The words of a request. -/
def Req.words (r : Req) : List Nat := [r.head, r.opcode + r.flags * 2 ^ 16, r.len, r.epoch] ++ r.payload

/-- A response is written: BUSY clears and RESP_READY is set. -/
def Chip.reply (c : Chip) (ch w0 : Nat) (x : Resp) : Chip :=
  let c := c.emit (.words (respBuf ch) ([w0, x.status + x.flags * 2 ^ 16, 4 * x.payload.length, x.epoch] ++ x.payload))
  let c := ((c.clr (MBX_CH_STAT_BUSY ch)).set (MBX_CH_STAT_RESP_READY ch)).wr (MBX_CH_STAT_LAST_SEQ ch) (bits w0 0 16)
  { c with fw := { c.fw with order := c.fw.order.filter fun o => o.1 != ch, waits := c.fw.waits.filter fun w => w.req.chan != ch } }

/-- The newest `n` entries of a channel's history, those of the others kept. -/
def keepHist (ch : Nat) : Nat → List Hist → List Hist
  | _, [] => []
  | n, h :: hs =>
    if h.chan != ch then h :: keepHist ch n hs
    else match n with
      | 0 => keepHist ch 0 hs
      | k + 1 => h :: keepHist ch k hs

/-- The entry of a response joins the history. -/
def Chip.record (c : Chip) (r : Req) (x : Resp) (taken : Bool) : Chip :=
  { c with fw := { c.fw with hist := ⟨r.chan, r.seq, r.opcode, r.len, x, taken, r.volatile⟩ :: c.fw.hist } }

/-- The messages of the causes that became pending since `c0` leave before a reset takes the causes away. -/
def Chip.signalled (c c0 : Chip) : Chip := { c with host := (newCauses c0 c).foldl HostIf.signal c.host }

/-- What follows a response (R146, R116, R623). -/
def Chip.follow (c c0 : Chip) (a : After) : Chip :=
  match a with
  | .none => c
  | .fwr => (c.signalled c0).fwReset false
  | .pin =>
    let c := c.signalled c0
    let r := c.pinReset .released
    { r with host := { r.host with sent := c.host.sent } }
  | .quiet =>
    let c := c.signalled c0
    let r := c.quiet
    { r with host := { r.host with sent := c.host.sent } }

/-- A request is answered and recorded. -/
def Chip.respond (c : Chip) (r : Req) (x : Resp) (taken : Bool) : Chip := (c.reply r.chan r.head x).record r x taken

/-! ### Steps 1 to 6 (R135) -/

/-- The opcodes the boot ROM serves (R613). -/
def recoveryOps : List Nat := [0x0000, 0x0001, 0x1100, 0x1180, 0x1181, 0x1182]

/-- Kind and epoch of an opcode. -/
def opKind (op : Nat) : OpKind := ((opRow op).map Prod.fst).getD .query
def opBears (op : Nat) : Bool := ((opRow op).map Prod.snd).getD false

/-- The refusal of steps 4 to 6. -/
def Chip.formFails (c : Chip) (r : Req) : Option Nat :=
  if 4080 < r.len ∨ r.len % 4 ≠ 0 then some stBadLength
  else if (opRow r.opcode).isNone ∨ (c.pwr.phase = .recovery ∧ !(recoveryOps.contains r.opcode)) then some stBadOpcode
  else if 8 ≤ r.flags ∨ (r.targetPeer ∧ opKind r.opcode = .change) then some stBadArg
  else none

/-! ### Steps 7 to 12 -/

/-- What the checks decide: a refusal, and whether it is for a full take queue (R175); a relay to the peer; or a plan. -/
inductive Verdict where
  | refuse (x : Resp) (full : Bool := false)
  | relay
  | accept (p : Plan)

/-- A status of steps 8 and 9. -/
def earlyStatus (st : Nat) : Bool := st == stBadLength || st == stBadArg || st == stEpochPast || st == stEpochTooFar

/-- The opcode's own checks, with word 3 of an opcode without epoch. -/
def Chip.checked (c : Chip) (m : Memory) (r : Req) (chk : Ctx → Req → Check) : Check :=
  let odd := !(opBears r.opcode) && r.epoch != 0
  match chk (c.ctx m) r with
  | .error st => if odd && st != stBadLength then .error stBadArg else .error st
  | .ok p => if odd then .error stBadArg else .ok p

/-- A peer can be reached: paired operation, and a usable twin lane (R143). -/
def Chip.peerReach (c : Chip) : Bool := c.on TWN_CFG_ENABLE && c.rd TWN_STATE_LANES_UP != 0

/-- Steps 7 to 12. -/
def Chip.verdict (c : Chip) (m : Memory) (r : Req) (chk : Ctx → Req → Check) : Verdict :=
  let no := fun st => Verdict.refuse ⟨st, 0, 0, []⟩
  let change := opKind r.opcode == .change
  if change && c.twnMode == 2 then no stNotActive
  else if change && c.twnMode == 1 && c.twn.handover.isSome then no stTwinBusy
  else
    let out := c.checked m r chk
    if r.targetPeer then
      match out with
      | .error st => if st == stBadLength || st == stBadArg then no st else if c.peerReach then .relay
          else if earlyStatus st || st == stDenied then no st else no stNoResource
      | .ok p => if c.peerReach then .relay else if p.resp.status = stUpdateRefused then .refuse p.resp else no stNoResource
    else if c.upd.refused && 128 ≤ r.opcode % 256 && r.opcode / 256 != 0x11 then
      match out with
      | .error st => if earlyStatus st then no st else .refuse ⟨stUpdateRefused, 0, 0, [9]⟩
      | .ok _ => .refuse ⟨stUpdateRefused, 0, 0, [9]⟩
    else
      match out with
      | .error st => no st
      | .ok p =>
        if p.resp.status = stUpdateRefused then .refuse p.resp
        else if 4096 < (c.each p.pends Chip.queueChange).queueFill && p.pends.any fun q => q.change.kind == .route then .refuse ⟨stNoResource, 0, 0, []⟩ true
        else if !(c.admits p) then no stNoCapacity
        else .accept p

/-! ### Steps 13 and 14 -/

/-- A plan writes MRAM: settings unless VOLATILE, and the writes that are the change itself (R147, R623, R625). -/
def Plan.writes (p : Plan) (r : Req) : Bool :=
  p.journal && (!r.volatile || p.nows.any fun x => x.kind == .cancel || x.kind == .activate || x.kind == .confirm)

/-- The settings of a plan become those in force, journaled unless VOLATILE is set (R139). What an earlier request of the same number has left is no
longer that number's, so that a CANCEL names this request only (R137, R147). -/
def Chip.journalPlan (c : Chip) (r : Req) (p : Plan) : Chip :=
  let c := (c.renumber r.chan r.seq).each (p.pends.map Pend.change ++ p.nows) fun c x => c.journalChange x r.chan r.seq (p.writes r && !r.volatile)
  if p.writes r then { c with pwr := { c.pwr with mramWrite := some c.now } } else c

/-- The epoch a plan has been given on a plane; 0 for none. -/
def Plan.epochOn (p : Plan) (q : Nat) : Nat :=
  match p.pends.find? fun x => x.plane == q with
  | some x => x.epoch
  | none => 0

/-- The entries of the acceptance record that CONFIG_SEQ can still need (R559): up to the first that has settled on both planes. -/
def Chip.settled (c : Chip) : List (Nat × Nat × Nat × Bool) → List (Nat × Nat × Nat × Bool)
  | [] => []
  | a :: as =>
    if sub32 (c.epochNow 0) (a.2.1 + 4) < 2 ^ 31 && sub32 (c.epochNow 1) (a.2.2.1 + 4) < 2 ^ 31 then [a] else a :: Chip.settled c as

/-- A change that the active part accepts gets its FWD_SEQ, and leaves for the standby while the pair is formed (R143, R556). -/
def Chip.forward (c : Chip) (words : List Nat) (chan seq e0 e1 : Nat) : Chip :=
  let n := (c.get TWN_FWD_SEQ + 1) % 2 ^ 32
  let c := c.put TWN_FWD_SEQ n
  let c := c.setTwn { c.twn with accepted := (n, c.epochNow 0, c.epochNow 1, e0 == 0 && e1 == 0) :: c.settled c.twn.accepted }
  c.when c.twn.paired (·.tell 2 ([n, chan * 2 ^ 16 + seq, c.epochNow 0, c.epochNow 1, e0, e1] ++ words))

/-- A plan of the active part is forwarded; the standby's ACK that its response waits for. -/
def Chip.forwardPlan (c : Chip) (r : Req) (p : Plan) (words : List Nat) : Chip × Option Nat :=
  if p.fwd && opKind r.opcode == .change && c.twnMode == 1 then
    let c := c.forward words r.chan r.seq (p.epochOn 0) (p.epochOn 1)
    (c, if c.twn.peerStep && c.peerReach then some (c.get TWN_FWD_SEQ) else none)
  else (c, none)

/-- A request waits, in place of its channel's doorbell. -/
def Chip.waitOn (c : Chip) (w : Wait) : Chip :=
  { c with fw := { c.fw with
      order := c.fw.order.filter fun o => o.1 != w.req.chan
      waits := (c.fw.waits.filter fun v => v.req.chan != w.req.chan) ++ [w] } }

/-- A change of no epoch that waits: a head's setting or the restart of a plane for a frame boundary (R463, R521), a serial audio setting for a block
(R513). -/
def Chip.awaits (c : Chip) (x : Change) : Bool :=
  match x.kind with
  | .head => (c.head x.idx).due.isSome
  | .plane | .rephase => (c.plane x.idx).again.isSome
  | .sap | .sapGroup | .sapMclk => c.aud.sapDue.any fun e => e.1 == x.kind && e.2.1 == x.idx
  | _ => false

/-- A waiting request is answered once nothing holds it any more. -/
def Chip.settle (c c0 : Chip) (w : Wait) : Chip :=
  if w.journal || w.ack.isSome || w.peer || w.long.isSome || w.hand then c.waitOn w
  else (c.respond w.req w.plan.resp w.taken).follow c0 w.plan.after

/-- What a long request does when it starts (R533, R621, R622). -/
def Chip.longStart (c : Chip) (r : Req) (l : Option Long) : Chip :=
  match l with
  | some .graphic =>
    c.loadStart (bits (r.w 0) 0 2) (bits (r.w 0) 2 2)
      [bits (r.w 0) 4 1, r.w 1, xyX (r.w 2), xyY (r.w 2), xyX (r.w 3), xyY (r.w 3)]
  | some .download => c.downloadStart r
  | some .verify => c.set UPD_STATE_BUSY
  | _ => c

/-- Steps 13 and 14: the journal is written, the change is queued or executed and forwarded, and the request is answered or waits. -/
def Chip.execute (c c0 : Chip) (r : Req) (p : Plan) (since : Nat) : Chip :=
  let c := c.journalPlan r p
  let c := (c.each p.pends Chip.queueChange).each p.nows Chip.applyChange
  let c := c.longStart r p.long
  let (c, ack) := if p.long = some .graphic then (c, none) else c.forwardPlan r p r.words
  let long := if p.long = some .boundary ∧ !(p.nows.any c.awaits) then none else p.long
  c.settle c0 { req := r, plan := p, since := since, ack := ack, long := long, hand := r.opcode == 0x0F80 }

/-- A request whose MRAM write is held waits, unless the hold has lasted 100 ms since it arrived (R90). -/
def Chip.proceed (c c0 : Chip) (r : Req) (p : Plan) (since : Nat) : Chip :=
  if p.writes r && c.mramHeld then
    if since + ms 100 ≤ c.now then c.respond r ⟨stNoResource, 0, 0, []⟩ false
    else c.waitOn { req := r, plan := p, since := since, journal := true }
  else c.execute c0 r p since

/-- The answer of a CHECK_ONLY request that passes (R135). -/
def Plan.checkedResp (p : Plan) : Resp :=
  if p.resp.status = stPending then { p.resp with flags := p.resp.flags ||| 4 } else ⟨p.resp.status, 4, 0, []⟩

/-- Steps 7 to 14 of a request. -/
def Chip.judge (c c0 : Chip) (m : Memory) (r : Req) (chk : Ctx → Req → Check) (since : Nat) : Chip :=
  match c.verdict m r chk with
  | .refuse x full => (c.when (full && !r.checkOnly) (·.set XPT_STATUS_QUEUE_FULL)).respond r x false
  | .relay => c.waitOn { req := r, plan := {}, since := c.now, peer := true }
  | .accept p => if r.checkOnly then c.respond r p.checkedResp false else c.proceed c0 r p since

/-- A request row: the firmware starts the request of a channel, whose turn it is, with the opcode of the row; a request that fails steps
1 to 6 is answered whatever its opcode (R131, R135). -/
def Chip.serve (c : Chip) (m : Memory) (ch op : Nat) (chk : Ctx → Req → Check) : Chip :=
  match c.nextBell with
  | none => c
  | some (n, since) =>
    if n ≠ ch ∨ !(c.on (MBX_CH_STAT_BUSY ch)) then c
    else
      let r := parseReq m ch
      let w0 := m.word (reqBuf ch)
      if reqVersion m ch ≠ 1 then c.reply ch w0 ⟨stBadOpcode, 0, 0, []⟩
      else if r.chan ≠ ch then c.reply ch w0 ⟨stBadArg, 0, 0, []⟩
      else match c.fw.hist.find? fun h => h.chan == ch && h.seq == r.seq with
      | some h =>
        let clash := h.opcode != r.opcode || h.len != r.len
        c.reply ch w0 { h.resp with flags := h.resp.flags ||| (if clash then 3 else 1) }
      | none =>
        match c.formFails r with
        | some st => ({ c with fw := { c.fw with hist := keepHist ch 63 c.fw.hist } } : Chip).respond r ⟨st, 0, 0, []⟩ false
        | none =>
          if r.opcode ≠ op then c
          else ({ c with fw := { c.fw with hist := keepHist ch 63 c.fw.hist } } : Chip).judge c m r chk since

/-! ### Waiting requests go on -/

/-- The waiting request of a channel. -/
def Chip.waiting (c : Chip) (ch : Nat) : Option Wait := c.fw.waits.find? fun w => w.req.chan == ch

/-- The hold of MRAM writes has lasted 100 ms since the request arrived (R90). -/
def Chip.journalTimeout (c : Chip) (ch : Nat) : Chip :=
  match c.waiting ch with
  | some w =>
    if w.journal && w.since + ms 100 ≤ c.now && c.serves ch then c.respond w.req ⟨stNoResource, 0, 0, []⟩ false else c
  | none => c

/-- The held writes proceed (R87, R90); a CANCEL is judged again, for what it would withdraw may have taken (R147). -/
def Chip.heldProceed (c : Chip) : Chip :=
  c.each (c.fw.waits.filter fun w => w.journal) fun c w =>
    match if w.req.opcode = 0x0083 then c.cancelCheck w.req else .ok w.plan with
    | .ok p => c.execute c w.req p w.since
    | .error st => c.respond w.req ⟨st, 0, 0, []⟩ false

/-- The peer has not answered a relayed request within 10 ms (R143). -/
def Chip.relayTimeout (c : Chip) (ch : Nat) : Chip :=
  match c.waiting ch with
  | some w =>
    if w.peer && w.since + ms 10 ≤ c.now && c.serves ch then c.respond w.req ⟨stNoResource, 0, 0, []⟩ false else c
  | none => c

/-- An ACK has arrived, or its 2 ms have passed (R557): the request that waits for it goes on. -/
def Chip.acked (c : Chip) (n : Nat) : Chip :=
  c.each (c.fw.waits.filter fun w => w.ack == some n) fun c w => c.settle c { w with ack := none }

/-- The handover asked for is committed, or has been made (R582). -/
def Chip.handDone (c : Chip) : Chip :=
  c.each (c.fw.waits.filter fun w => w.hand) fun c w => c.settle c { w with hand := false }

/-- A long request of a kind ends with a response. -/
def Chip.longEnd (c : Chip) (ch : Nat) (l : Long) (f : Chip → Wait → Chip × Resp) : Chip :=
  match c.waiting ch with
  | some w =>
    if w.long = some l && c.serves ch then
      let (c, x) := f c w
      c.settle c { w with long := none, plan := { w.plan with resp := x } }
    else c
  | none => c

/-- The frame boundary or audio block has come that requests wait for: each whose changes have all taken effect is answered (R144). -/
def Chip.boundaryDone (c : Chip) : Chip :=
  c.each (c.fw.waits.filter fun w => w.long == some .boundary && !(w.plan.nows.any c.awaits)) fun c w => c.settle c { w with long := none }

/-- PWR_SET_DOMAIN_DONE (R114): every named domain reads CUR equal to its request. -/
def Chip.domainsDone (c : Chip) (ch : Nat) : Chip :=
  match c.waiting ch with
  | some w =>
    let ns := w.plan.nows.map Change.idx
    if ns.all fun n => c.dom n == c.rd (PWR_DOM_CTL_REQ n) && !(c.on (PWR_DOM_CTL_BUSY n)) then
      c.longEnd ch .domains fun c _ => (c, ⟨stOK, 0, 0, ns.map fun n => c.get (PWR_DOM_CTL n)⟩)
    else c
  | none => c

end Sys2Proof.Machine
end

