-- ==== Sys2Proof/Machine/Boot.lean ====
section
/-! DEFINITION. Start-up (chapters 00, 03, 07, 08 and 21): what the firmware does when it is ready, and configuration load from the settings
journal. -/

namespace Sys2Proof.Machine

/-! ### Settings by kind -/

/-- The block of a setting, as CFG_SKIPPED names it (R153). -/
def Kind.block : Kind → Nat
  | .dom | .mon => 1
  | .cand | .plane => 2
  | .ptpCfg | .ptpPort => 3
  | .route | .dest | .gen => 4
  | .src => 5
  | .record | .playback => 6
  | .dmc | .dmcCfg => 7
  | .sdiRx | .sdiTx => 8
  | .fabCfg | .fabLink | .fabLane | .fabSlot => 9
  | .netPort | .gcl => 0xA
  | .join | .leave | .sender => 0xB
  | .shuf | .embed | .gain | .mixin | .mixout | .engine => 0xC
  | .sap | .sapGroup | .sapMclk => 0xD
  | .head | .vlayer | .glayer | .colour => 0xE
  | .twnCfg | .twnLane => 0xF
  | .aperture => 0x10
  | _ => 0

/-- The order in which settings are loaded: one that another depends on comes first. -/
def Kind.rank : Kind → Nat
  | .mon => 0 | .dmcCfg => 1 | .dom => 2 | .cand => 3 | .plane => 4 | .ptpCfg => 5 | .ptpPort => 6 | .gen => 7 | .sdiRx => 8 | .fabCfg => 9
  | .fabLink => 10 | .fabLane => 11 | .fabSlot => 12 | .netPort => 13 | .src => 14 | .join => 15 | .leave => 16 | .dest => 17 | .record => 18
  | .playback => 19 | .engine => 20 | .head => 21 | .route => 23
  | _ => 22

/-- A setting is valid in the running role: it names nothing the role does not offer (R9, R102, R157). -/
def Chip.validInRole (c : Chip) (x : Change) : Bool :=
  let i := x.idx
  let w := x.w 0
  let r := c.role
  match x.kind with
  | .dom => w == stOff || !(c.heldOff i)
  | .route => dstOffered r i && (bit w 31 || srcOffered r (bits w 16 9))
  | .dest => dstOffered r i
  | .embed => r != 2 && dstOffered r i
  | .src => srcOffered r i
  | .fabCfg | .fabLink | .fabLane => r != 0
  | .fabSlot => r == 2 || (r == 1 && i < 96)
  | .shuf => r != 2 && outOffered r i && (!(bit w 14) || bit w 13 || inOffered r (bits w 0 13))
  | .vlayer => r != 2 && (!(vlOn x.ws) || srcOffered r (vlSrc x.ws))
  | .record | .playback | .sdiRx | .sdiTx | .join | .leave | .sender | .gain | .mixin | .mixout | .engine | .sap | .sapGroup | .sapMclk
  | .head | .glayer | .colour | .twnCfg | .twnLane => r != 2
  | _ => true

/-- The value of a setting that no request has made: the reset values of its registers. -/
def defaultChange (k : Kind) (i : Nat) : Change :=
  let z : Chip := {}
  let lane := fun (n : Nat) => z.get (lnCfg n) * 64
  match k with
  | .dom => ⟨.dom, i, [stOff]⟩
  | .mon => ⟨.mon, i, [monDefault i]⟩
  | .cand =>
    let g := z.get (REF_CAND_CFG i)
    let r := z.get (REF_CAND_RANK i)
    ⟨.cand, i, [bits g 0 2 * 8 + bits g 2 5 * 32, bits g 8 12 + bits r 16 13 * 2 ^ 16, bits r 0 3 + bits r 4 3 * 16, 0, 0]⟩
  | .plane => ⟨.plane, i, [z.rd (REF_PLANE_CFG_REVERTIVE i) * 64 + z.rd (REF_PLANE_CFG_WTR i) * 2 ^ 16, z.get REF_CFG]⟩
  | .ptpCfg => ⟨.ptpCfg, i, [z.get PTP_CFG, z.get PTP_JUMP_MAX]⟩
  | .route => ⟨.route, i, [2 ^ 31 + i]⟩
  | .dest => ⟨.dest, i, [i + z.rd (XPT_DST_CTL_PLANE i) * 2 ^ 9 + z.rd (XPT_DST_CTL_LOSS_ACTION i) * 2 ^ 10 + z.rd (XPT_DST_CTL_SLATE_GEN i) * 2 ^ 12
      + z.rd (XPT_DST_CTL_FIELD_TAKE i) * 2 ^ 15 + z.rd (XPT_DST_CTL_AUD_VFADE i) * 2 ^ 16]⟩
  | .gen => ⟨.gen, i, [z.rd (XPT_GEN_CTL_PATTERN i) * 2 ^ 24 + z.rd (XPT_GEN_CTL_PLANE i) * 2 ^ 8 + z.rd (XPT_GEN_CTL_FORMAT i) * 2 ^ 16, 0]⟩
  | .src => ⟨.src, i, [z.rd (FSY_SRC_CTL_PLANE i) * 2 ^ 9 + z.rd (FSY_SRC_CTL_ALLOW_FS i) * 2 ^ 10 + z.rd (FSY_SRC_CTL_FORMAT i) * 2 ^ 11]⟩
  | .dmc => ⟨.dmc, i, [1]⟩
  | .dmcCfg => ⟨.dmcCfg, i, [z.get DMC_CFG]⟩
  | .sdiRx => let g := z.get (SDI_RX_CTL i); ⟨.sdiRx, i, [bits g 0 3 * 64 + bits g 3 1 * 2 ^ 9 + bits g 4 1 * 2 ^ 10]⟩
  | .sdiTx =>
    let g := z.get (SDI_TX_CTL i)
    ⟨.sdiTx, i, [bits g 0 4 * 2 ^ 11 + bits g 4 1 * 2 ^ 10 + bits g 5 1 * 2 ^ 9 + bits g 6 2 * 2 ^ 15]⟩
  | .fabCfg => ⟨.fabCfg, i, [z.get FAB_CFG]⟩
  | .fabLink => ⟨.fabLink, i, [i, 0]⟩
  | .fabLane => ⟨.fabLane, i, [lane i]⟩
  | .fabSlot => ⟨.fabSlot, i, [z.rd (FAB_SLOT_CTL_TX_EN i) * 2 ^ 8 + z.rd (FAB_SLOT_CTL_RX_EN i) * 2 ^ 9 + z.rd (FAB_SLOT_CTL_RATE_CLASS i) * 2 ^ 10
      + z.rd (FAB_SLOT_CTL_PRIO i) * 2 ^ 13]⟩
  | .netPort =>
    let g := z.get (NET_PORT_CFG i)
    ⟨.netPort, i, [bits g 0 3 * 4 + bits g 3 6 * 2 ^ 5 + bits g 9 14 * 2 ^ 11, z.get (NET_MAC_LO i), z.get (NET_MAC_HI i)]⟩
  | .join | .leave => ⟨.leave, i, []⟩
  | .mixout => ⟨.mixout, i, [z.get (AUD_MIXOUT_CTL i)]⟩
  | .mixin => ⟨.mixin, i, [z.rd (AUD_MIXIN_CTL_HPF i)]⟩
  | .embed => ⟨.embed, i, [z.rd (AUD_DST_CTL_EMBED i)]⟩
  | .sap =>
    let g := z.get (SAP_PORT_CTL i)
    ⟨.sap, i, [bits g 0 4 * 16 + bits g 4 2 * 2 ^ 8 + bits g 6 5 * 2 ^ 10 + bits g 11 2 * 2 ^ 15 + bits g 13 1 * 2 ^ 17]⟩
  | .sapGroup => ⟨.sapGroup, i, [z.get SAP_GROUP_LAT]⟩
  | .twnLane => ⟨.twnLane, i, [lane (48 + i)]⟩
  | .colour => ⟨.colour, i, [if i % 2 = 0 then z.get (MVC_HEAD_BG (i / 2)) else z.get (MVC_HEAD_SLATE (i / 2))]⟩
  | k => ⟨k, i, []⟩

/-! ### Configuration load (R83, R195, R241, R255, R628, R637) -/

/-- A kind whose load waits for a frame boundary: after a PIN reset or POR the routes, and the layers of heads, which wait for their head; later
every kind whose requests bear an epoch. -/
def Kind.loadsLater (full : Bool) : Kind → Bool
  | .route | .vlayer | .glayer | .colour => true
  | .dest | .gen | .record | .playback | .fabSlot | .sender | .shuf | .embed | .gain | .mixin | .mixout | .engine => !full
  | _ => false

/-- The plane at whose boundary a setting takes. -/
def Chip.changePlane (c : Chip) (x : Change) : Nat :=
  match x.kind with
  | .route | .dest | .embed => c.dstPlane x.idx
  | .gen => bits (x.w 0) 8 1
  | .record => c.dstPlane (272 + x.idx)
  | .playback => c.dstPlane (272 + (if bit (x.w 0) 6 then bits (x.w 0) 16 6 else c.carafeOf x.idx))
  | .sender => c.senderPlane x.idx (x.w 1)
  | .shuf => if x.idx < 6144 then c.dstPlane (outDst x.idx) else c.enginePlane
  | .vlayer => bits (c.headCtl (x.idx / 16)) 1 1
  | .glayer => bits (c.headCtl (x.idx / 4)) 1 1
  | .colour => bits (c.headCtl (x.idx / 2)) 1 1
  | .gain | .mixin | .mixout | .engine => c.enginePlane
  | _ => 0

/-- A journaled region ends within the carafe space and overlaps no carafe loaded before it (R225, R241). -/
def Chip.carafeFits (c : Chip) (r v : Nat) : Bool :=
  let base := bits v 0 16
  let size := bits v 16 16
  1 ≤ size && base + size ≤ c.granules
    && !((List.range 48).any fun k => k != r && c.on (LBS_REC_CTL_ENABLE k)
      && overlap base size (c.rd (LBS_REC_REGION_BASE k)) (c.rd (LBS_REC_REGION_SIZE k)))

/-- A setting whose load is refused: a carafe that does not fit, or a playback channel that names a carafe left disabled. -/
def Chip.loadRefused (c : Chip) (x : Change) : Bool :=
  match x.kind with
  | .record => bit (x.w 0) 6 && !(c.carafeFits x.idx (x.w 1))
  | .playback => bit (x.w 0) 6 && !(c.on (LBS_REC_CTL_ENABLE (bits (x.w 0) 16 6)))
      && !(c.fw.queue.any fun p => p.change.kind == .record && p.change.idx == bits (x.w 0) 16 6 && bit (p.change.w 0) 6)
  | _ => false

/-- A journaled domain state that is not applied: that of a memory channel not enabled (R271). -/
def Chip.domUnused (c : Chip) (x : Change) : Bool := x.kind == .dom && isMem x.idx && !(c.chEnabled (x.idx - 212))

/-- A gate list starts as it would if it were accepted now (R383). -/
def Chip.loadGcl (c : Chip) (p : Nat) (ws : List Nat) : Chip :=
  let ws := ws.drop 2
  let s := c.gclStart p (ws.getD 2 0 + ws.getD 3 0 * 2 ^ 32) (ws.getD 1 0)
  c.applyGcl p ([s % 2 ^ 32, s / 2 ^ 32] ++ ws)

/-- One setting is loaded: at once, or as a change of the next epoch of its plane. Senders wait for their plane's anchor, and gate lists for the
servo's lock, after a PIN reset or POR (R385, R424). -/
def Chip.loadSetting (c : Chip) (full : Bool) (x : Change) : Chip :=
  if c.loadRefused x then
    let c := c.set LBS_STATUS_CFG_REFUSED
    c.when (x.kind == .record) (·.post 0x06 0x0002 x.idx (x.w 1))
  else
    let c := { c with fw := { c.fw with running := c.putEntry c.fw.running x 0 65536 } }
    if x.kind = .role ∨ x.kind = .dmc ∨ (full ∧ (x.kind = .gcl ∨ x.kind = .sender)) ∨ c.domUnused x then c
    else if x.kind = .gcl then c.loadGcl x.idx x.ws
    else if x.kind.loadsLater full then
      let q := c.changePlane x
      c.queueChange ⟨q, (c.epochNow q + 1) % 2 ^ 32, x, 0, 65536, false⟩
    else c.applyChange x

/-- The settings that the running role does not offer are skipped, reported block by block (R9). -/
def Chip.reportSkipped (c : Chip) (skipped : List Change) : Chip :=
  c.each (List.range 0x12) fun c b =>
    let n := (skipped.filter fun x => x.kind.block == b).length
    c.when (n != 0) fun c => (c.set TOP_STATUS_CFG_SKIPPED).post 0x00 0x0002 b n

/-- The role and TWN_CFG.ENABLE that the journal holds take effect (R6, R546), and the twin lane directions are powered up (R102). -/
def Chip.loadRole (c : Chip) : Chip :=
  let role := match settingIn c.fw.journal (.role, 0) with | some x => x.w 0 | none => 0
  let en := match settingIn c.fw.journal (.twnCfg, 0) with | some x => bit (x.w 0) 0 | none => false
  let c := ((c.wr TOP_ROLE_ROLE role).wr TOP_ROLE_PENDING_ROLE role).clr TOP_ROLE_PENDING
  let c := c.wrB TWN_CFG_ENABLE (en && role != 2)
  c.when (en && role != 2) fun c => c.each (List.range 4) fun c i => c.domWrite (208 + i) stActive

/-- The settings of a load, in the order they are loaded. -/
def loadOrder (l : List Change) : List Change := sortBy (fun x => x.kind.rank) l

/-- A load after a PIN reset or POR: every journaled setting that the role offers. -/
def Chip.loadAll (c : Chip) : Chip :=
  let c := c.loadRole
  let all := (c.fw.journal.map fun j => j.change.key).eraseDups.filterMap fun k => settingIn c.fw.journal k
  let c := c.each [0, 1] fun c q => c.setPlane q { c.plane q with sendersDue := true }
  let c := c.each (loadOrder (all.filter c.validInRole)) fun c x => c.loadSetting true x
  c.reportSkipped (all.filter fun x => !(c.validInRole x))

/-- A load without a reset of the data plane (R578, R628): each setting that differs from the journal returns to the journaled value or its
default, and what waits of it is dropped. -/
def Chip.loadDiff (c : Chip) : Chip :=
  let keys := ((c.fw.running ++ c.fw.journal).map fun j => j.change.key).eraseDups
  let target := fun (k : Kind × Nat) => (settingIn c.fw.journal k).getD (defaultChange k.1 k.2)
  let changed := keys.filter fun k => k.1 != .role && settingIn c.fw.running k != some (target k)
  let new := changed.map target
  let c := { c with fw := { c.fw with queue := c.fw.queue.filter fun p => !(changed.contains p.change.key) } }
  let c := c.each (loadOrder (new.filter c.validInRole)) fun c x => c.loadSetting false x
  let c := { c with fw := { c.fw with running := c.fw.journal } }
  c.reportSkipped (new.filter fun x => !(c.validInRole x))

/-- Configuration load: DIMM training has ended, and the settings schema is accepted (R628). -/
def Chip.mayLoad (c : Chip) : Bool :=
  c.ready && !c.fw.cfgLoaded && !c.upd.refused && (List.range 8).all fun n => c.chState n != chTraining

/-- The live status of the sources of the role (R214, FSY_SRC_STAT): a source without an offset reads inside its window. -/
def Chip.judgeAll (c : Chip) : Chip :=
  c.each ((List.range 332).filter (srcOffered c.role)) fun c s =>
    (c.when (1 < srcKind s) (·.set (FSY_SRC_STAT_IN_WINDOW s))).judgeSrc s

/-- The row CONFIGURATION_LOAD. -/
def Chip.configLoad (c : Chip) : Chip :=
  if !c.mayLoad then c
  else
    let c := if c.fw.loaded then c.loadDiff else c.loadAll
    { c.judgeAll with fw := { c.fw with cfgLoaded := true, loaded := true } }

/-! ### The firmware is ready (R83, R84, R109, R110, R156, R637) -/

/-- The enabled channels train, unless a load has run since the last PIN reset or POR; a channel outside the journaled set is disabled
(R255, R271, R637). -/
def Chip.trainAll (c : Chip) : Chip :=
  if c.fw.loaded then c
  else c.each (List.range 8) fun c n =>
    let off := match settingIn c.fw.journal (.dmc, n) with | some x => x.w 0 == 0 | none => false
    if off then c.chEnter n chDisabled 4
    else if c.chState n = chAbsent ∨ c.chState n = chTraining then c.trainStart n
    else c

/-- The requests that stood are completed (R110): their responses are written, those of domain requests once their domains are there. -/
def Chip.completeStood (c : Chip) : Chip :=
  let c := c.each (c.fw.waits.filter fun w => w.ack.isSome) fun c w => c.settle c { w with ack := none }
  (c.each (c.fw.waits.map fun w => w.req.chan) Chip.domainsDone).boundaryDone

/-- The row FW_READY. -/
def Chip.fwReady (c : Chip) (conv : Bool) : Chip :=
  if c.pwr.phase ≠ .started then c
  else
    let c := c.pmcSync
    let c := { c with pwr := { c.pwr with phase := .running, asked := 0 } }
    let c := (c.set TOP_STATUS_FW_READY).post 0x00 0x0001 0 (c.get TOP_RESET_CAUSE)
    let c := c.completeStood
    let c := c.updReady conv
    let c := c.trainAll
    { c with fw := { c.fw with order := sortBy Prod.fst c.fw.order } }

end Sys2Proof.Machine
end

