-- ==== Sys2Proof/Machine/TwnRun.lean ====
section
/-! DEFINITION. What a twin part does with forwarded changes, configuration images and takeovers (chapter 19): commands executed by the
standby, their acknowledgement, the end of SYNC_CONFIG, and the cold takeover. -/

namespace Sys2Proof.Machine

/-! ### Forwarded changes (R556 to R559, R577, R580) -/

/-- The checks of the changes that are forwarded, by opcode (R144). -/
def chkOf (op : Nat) : Ctx → Req → Check :=
  match op with
  | 0x0082 => chkSetRole
  | 0x0083 => chkCancel
  | 0x0180 => chkSetDomain
  | 0x0181 => chkSetMon
  | 0x0280 => chkSetCandidate
  | 0x0281 => chkSetPlane
  | 0x0380 => chkPtpPort
  | 0x0480 => chkTake
  | 0x0481 => chkSalvo
  | 0x0482 => chkSetDest
  | 0x0483 => chkSetGen
  | 0x0580 => chkSetSource
  | 0x0680 => chkSetRecord
  | 0x0681 => chkSetPlayback
  | 0x0780 => chkDmcSet
  | 0x0880 => chkSdiRx
  | 0x0881 => chkSdiTx
  | 0x0980 => chkSetLink
  | 0x0981 => chkSetSlots
  | 0x0A80 => chkSetPort
  | 0x0A81 => chkSetGcl
  | 0x0B80 => chkJoin
  | 0x0B81 => chkLeave
  | 0x0B82 => chkSender
  | 0x0C80 => chkSetShuffle
  | 0x0C81 => chkSetGains
  | 0x0C82 => chkSetLimiter
  | 0x0D80 => chkSetSap
  | 0x0E80 => chkSetHead
  | 0x0E81 => chkSetLayers
  | 0x0E83 => chkFlip
  | 0x0F81 => chkSetPolicy
  | 0x1080 => chkSetAperture
  | _ => fun _ _ => .error stBadOpcode

/-- The request a COMMAND carries. -/
def TwinCommand.req (m : TwinCommand) : Req :=
  let w := fun i => m.words.getD i 0
  { chan := m.chan, seq := m.seq, opcode := bits (w 1) 0 16, flags := bits (w 1) 16 16, len := w 2, epoch := w 3, payload := m.words.drop 4 }

/-- The request with the epochs it was given in place of those it asked for. -/
def TwinCommand.named (m : TwinCommand) : Req :=
  let r := m.req
  if r.opcode = 0x0481 ∨ r.opcode = 0x0C80 then { r with payload := [m.epoch0, m.epoch1] ++ r.payload.drop 2 }
  else if opBears r.opcode then { r with epoch := max m.epoch0 m.epoch1 }
  else r

/-- The chip as a forwarded request is read on: an epoch given to it has not been reached, however late it comes (R558). -/
def Chip.before (c : Chip) (m : TwinCommand) : Chip :=
  let back := fun (c : Chip) (q e : Nat) =>
    if e = 0 ∨ !(c.reached q e) then c
    else (c.wr (XPT_EPOCH_EPOCH q) (sub32 e 1)).setPlane q { c.plane q with counted := true }
  back (back { c with now := c.now - ms 5 } 0 m.epoch0) 1 m.epoch1

/-- A change whose epoch has passed takes at the next frame boundary of its plane (R558). -/
def Chip.onTime (c : Chip) (p : Pend) : Pend :=
  if c.reached p.plane p.epoch then { p with epoch := skipZero (c.epochNow p.plane + 1) } else p

/-- The epochs of a plane that a late change spoils: from its own to the one it takes at. -/
def Chip.lateEpochs (c : Chip) (p : Pend) : List (Nat × Nat) :=
  (List.range (min 16 (sub32 (c.epochNow p.plane) p.epoch + 1))).map fun i => (p.plane, (p.epoch + i) % 2 ^ 32)

/-- A graphic load that the active part has forwarded ends: its segments are there (R533, R556). -/
def Chip.graphicMirror (c : Chip) (r : Req) : Chip :=
  let h := bits (r.w 0) 0 2
  let l := bits (r.w 0) 2 2
  let y := (c.head h).gl l
  let c := c.setGl h l { y with auto := if bit (r.w 0) 4 then some c.now else y.auto }
  c.wr (MVC_GL_FENCE_FENCE h l) (bits (r.w 1) 0 16)

/-- The opcode under which an anchor travels to the standby: the catalogue has none for it (R403). -/
def anchorOp : Nat := 0xFFFF

/-- The ACK of a command leaves, unless hardware has sent it. -/
def Chip.sendAck (c : Chip) (m : TwinCommand) (acked : Bool) : Chip := c.when (!acked) (·.tell 3 [m.fwdSeq])

/-- A forwarded change is executed: it is journaled, queued or made, recorded in the duplicate history, and acknowledged (R556). A handover is only
recorded: its instant has come with the HANDOVER message (R143, R571). -/
def Chip.command (c : Chip) (mem : Memory) (m : TwinCommand) (acked : Bool) : Chip :=
  let r := m.req
  let c := c.put TWN_FWD_SEQ m.fwdSeq
  let c := c.setTwn { c.twn with accepted := (m.fwdSeq, m.cur0, m.cur1, m.epoch0 == 0 && m.epoch1 == 0) :: c.settled c.twn.accepted }
  if r.opcode = anchorOp then ((c.applyAnchor (r.w 0) (r.payload.drop 1)).sendersResume (r.w 0)).sendAck m acked
  else
  let c : Chip := { c with fw := { c.fw with hist := keepHist r.chan 63 c.fw.hist } }
  if r.opcode = 0x0F80 then (c.record r ⟨stOK, 0, 0, [((c.twn.handover.map Prod.fst).getD 0)]⟩ false).sendAck m acked
  else if r.opcode = 0x0E82 then ((c.graphicMirror r).record r ⟨stOK, 0, 0, []⟩ false).sendAck m acked
  else match chkOf r.opcode ((c.before m).ctx mem) m.named with
    | .error st => (c.record r ⟨st, 0, 0, []⟩ false).sendAck m acked
    | .ok p =>
      let late := p.pends.filter fun x => c.reached x.plane x.epoch
      let p := { p with pends := p.pends.map c.onTime }
      let c := c.setTwn { c.twn with lateFor := ((late.flatMap c.lateEpochs).eraseDups ++ c.twn.lateFor).take 64 }
      let c := c.journalPlan r p
      let c := (c.each p.pends Chip.queueChange).each p.nows Chip.applyChange
      let c := (c.record r p.resp false).sendAck m acked
      c.when (!late.isEmpty) fun c => if acked then c.twnLose 7 else c.twnBreak 3

/-- Commands are not executed now: the firmware is not running, the image is awaited or being applied, or MRAM writes are held. -/
def Chip.commandsWait (c : Chip) : Bool :=
  !c.ready || c.twnPhase == 2 || c.mramHeld
    || (match c.twn.image with | some i => i.planes.any fun q => 2 ≤ c.planeState q | none => false)

/-- The commands that are next in FWD_SEQ order are executed; `n` bounds how many there are. -/
def Chip.commandsRun (c : Chip) (mem : Memory) : Nat → Chip
  | 0 => c
  | n + 1 =>
    if c.commandsWait then c
    else match c.twn.held.find? fun h => h.1.fwdSeq == (c.get TWN_FWD_SEQ + 1) % 2 ^ 32 with
      | none => c
      | some h => Chip.commandsRun ((c.setTwn { c.twn with held := c.twn.held.erase h }).command mem h.1 h.2) mem n

/-- Every command that may be executed is. -/
def Chip.commandsDue (c : Chip) (mem : Memory) : Chip := c.commandsRun mem c.twn.held.length

/-- A COMMAND arrives at the standby; while its firmware restarts, hardware holds up to 256 and acknowledges them (R580). -/
def Chip.commandIn (c : Chip) (mem : Memory) (m : TwinCommand) : Chip :=
  if c.twnMode ≠ 2 ∨ c.twnPhase < 2 then c
  else if !c.ready then
    if c.twn.held.length < 256 then (c.setTwn { c.twn with held := c.twn.held ++ [(m, true)] }).tell 3 [m.fwdSeq] else c
  else (c.setTwn { c.twn with held := c.twn.held ++ [(m, false)] }).commandsDue mem

/-- A held change's take epoch has passed during an FWR or WDT (R580). -/
def Chip.heldExpiry (c : Chip) : Chip :=
  let past := c.twn.held.any fun h => (h.1.epoch0 != 0 && c.reached 0 h.1.epoch0) || (h.1.epoch1 != 0 && c.reached 1 h.1.epoch1)
  if c.twnMode = 2 ∧ !c.ready ∧ past then c.twnLose 7 else c

/-- An ACK arrives: of a command, whose response is written, or of a HANDOVER, which is then committed (R557, R572, R582). -/
def Chip.ackIn (c : Chip) (n : Option Nat) : Chip :=
  match n with
  | some n => if c.ready then c.acked n else c
  | none =>
    let c := c.handoverAck
    c.when (c.ready && c.on TWN_STATE_HANDOVER_PENDING) (·.handDone)

/-- No ACK within 2 ms: the standby is out of step (R557). -/
def Chip.ackTimeout (c : Chip) (n : Nat) : Chip :=
  if !(c.ready && c.fw.waits.any fun w => w.ack == some n) then c
  else ((c.setTwn { c.twn with peerStep := false }).wr TWN_STATE_LOST_CAUSE 1).acked n

/-! ### The end of a graphic load (R533, R556) -/

/-- A load ends with what the bulk read gave; the change is then forwarded, its data first as segments. A read that failed is refused (R140),
and so is a load whose head has been disabled. -/
def Chip.graphicDone (c : Chip) (h l : Nat) (data : Option (List Nat)) : Chip :=
  match c.fw.waits.find? fun w => w.long == some .graphic && bits (w.req.w 0) 0 4 == h + 4 * l with
  | none => c.loadEnd h l data false
  | some w =>
    let gone := ((c.head h).gl l).load.isNone
    let ok := data.isSome && !gone
    let c1 := c.loadEnd h l data true
    let st := if gone then stDenied else if ok then stOK else stBadArg
    let w := { w with long := none, plan := { w.plan with resp := ⟨st, 0, 0, []⟩ } }
    if !ok then c1.settle c w
    else
      let y := (c1.head h).gl l
      let back := if c1.on (MVC_GL_CTL_FRONT h l) then (0, y.buf0) else (1, y.buf1)
      let c1 := c1.when (c1.twnMode == 1 && c1.twn.paired) (·.tell 10 ([1, h, l, back.1] ++ back.2.flatMap fun e => [e.1, e.2]))
      let words := [w.req.head, w.req.opcode + w.req.flags * 2 ^ 16, 16, w.req.epoch] ++ w.req.payload.take 4
      let (c1, ack) := c1.forwardPlan w.req w.plan words
      c1.settle c { w with ack := ack }

/-! ### Anchors (R403) -/

/-- The row ANCHOR_SET: at a frame boundary, with the plane and the servo locked, the firmware anchors a plane that has no anchor, and forwards
the anchor as a change. -/
def Chip.anchorSet (c : Chip) (q : Nat) : Chip :=
  if !(c.ready && c.planeLocked q && c.ptp.firstLock && !(c.anchored q) && (c.plane q).counted && c.twnMode != 2) then c
  else
    let ws := c.anchorWords q
    let c := (c.applyAnchor q ws).sendersResume q
    c.when (c.twnMode == 1) (·.forward ([2 ^ 24, anchorOp, 16, 0, q] ++ ws) 0 0 0 0)

/-! ### SYNC_CONFIG (R575) -/

/-- A setting as an image or a list of settings has it in force: the newest entry that does not wait in a queue. -/
def inForce (l : List JEntry) (queue : List Pend) (k : Kind × Nat) : Option Change :=
  (l.find? fun j => j.change.key == k && !(queue.any fun p => p.change == j.change && p.chan == j.chan && p.seq == j.seq)).map JEntry.change

/-- The entries of an image's settings. -/
def ConfigImage.entries (i : ConfigImage) : List JEntry := i.settings.map fun x => ⟨x.1, x.2.1.1, x.2.1.2⟩

/-- The settings that the image changes on this part. -/
def Chip.imageChanges (c : Chip) (i : ConfigImage) : List Change :=
  let keys := ((c.fw.running ++ i.entries).map fun j => j.change.key).eraseDups
  let new := fun (k : Kind × Nat) => (inForce i.entries i.queue k).getD (defaultChange k.1 k.2)
  loadOrder (((keys.filter fun k => k.1 != .role && inForce c.fw.running c.fw.queue k != some (new k)).map new).filter c.validInRole)

/-- The image is committed: it becomes the settings journal, VOLATILE settings apart, in the other journal area, by one write of the
update record, or on a trial in the trial area. -/
def Chip.imageJournal (c : Chip) (i : ConfigImage) : Chip :=
  let kept : ConfigImage := { i with settings := i.settings.filter fun x => !x.2.2 }
  let c : Chip := { c with fw := { c.fw with
    journal := kept.entries
    running := i.entries, hist := i.hist, queue := [] } }
  let r := c.updRec
  let c := c.setUpd { c.upd with schemas := putAt 2 0 c.upd.schemas (1 - r.area) (c.rd UPD_SCHEMA_RUNNING) }
  if r.trial then { c with pwr := { c.pwr with mramWrite := some c.now } }
  else (c.recWrite { r with area := 1 - r.area }).wr UPD_SCHEMA_JOURNAL (c.rd UPD_SCHEMA_RUNNING)

/-- The end of SYNC_CONFIG: the staged image is committed; the settings of no plane take effect, and those of a plane at its next frame
boundary. An image whose schema the firmware cannot migrate is refused (R580, R628). -/
def Chip.syncConfigDone (c : Chip) (conv : Bool) : Chip :=
  if c.twnMode ≠ 2 ∨ c.twnPhase ≠ 2 ∨ !c.ready ∨ c.mramHeld then c
  else match c.twn.staged with
    | none => c
    | some (i, at_) =>
      if !conv ∨ c.rd UPD_SCHEMA_RUNNING < c.twn.peerSchema then
        let c := (c.setUpd { c.upd with refused := true }).set SEC_STATUS_SCHEMA_REFUSED
        ((c.post 0x11 0x0005 c.upd.bank c.twn.peerSchema).setTwn { c.twn with staged := none }).twnTo 2 1
      else
        let todo := c.imageChanges i
        let planed := fun (x : Change) => x.kind.loadsLater false
        let c := (c.imageJournal i).put TWN_FWD_SEQ i.fwdSeq
        let c := c.each [0, 1] fun c q => c.put (TWN_CONFIG_SEQ q) i.fwdSeq
        let c := c.each (todo.filter fun x => !(planed x)) fun c x => if x.kind = .gcl then c.loadGcl x.idx x.ws else c.applyChange x
        let c := c.setTwn { c.twn with
          staged := none, accepted := []
          held := c.twn.held.filter fun h => h.1.fwdSeq != i.fwdSeq && sub32 h.1.fwdSeq i.fwdSeq < 2 ^ 31
          image := some ⟨i, at_, c.twnPlanes, todo.filter planed⟩ }
        c.twnTo 2 3

/-- A plane adopts the counters, the selection and the build-out of the active part's, with one phase step; boundaries since the image was
taken are counted. -/
def Chip.adoptPlane (c : Chip) (q at_ : Nat) (p : PlaneImage) : Chip :=
  let per := max 1 (c.planePeriod q)
  let k := (c.now + per / 2 + per - (at_ + p.toBoundary)) / per
  let e := p.epoch + k
  let x := c.plane q
  let c := (c.wr (XPT_EPOCH_EPOCH q) e).setPlane q { x with
    high := p.high + e / 2 ^ 32, nextB := at_ + p.toBoundary + k * per, windows := p.windows, buildout := p.buildout * phaseUnit }
  let c := c.modelShow q
  let c := if (c.qualified q).contains p.selected ∧ c.selected q ≠ p.selected then
      let c := (c.wr (REF_PLANE_STAT_SELECTED q) p.selected).setPlane q { c.plane q with freq := c.caOffset p.selected * freqUnit }
      if 4 ≤ c.planeState q then c.planeLock q else c
    else c
  let c := match p.anchor with | some ws => c.applyAnchor q ws | none => c.dropAnchor q
  c.planeShow q

/-- The image is applied on a plane at its frame boundary. -/
def Chip.imageBoundary (c : Chip) (q : Nat) : Chip :=
  match c.twn.image with
  | none => c
  | some i =>
    if !(i.planes.contains q) then c
    else
      let c := match i.config.planes[q]? with | some p => c.adoptPlane q i.at_ p | none => c
      let mine := i.todo.filter fun x => c.changePlane x == q
      let c := c.each mine Chip.applyChange
      let new := i.config.queue.filter fun p => p.plane == q && !(c.fw.queue.any p.collides)
      let c : Chip := { c with fw := { c.fw with queue := new ++ c.fw.queue } }
      let left := i.planes.filter (· != q)
      c.setTwn { c.twn with image := if left.isEmpty then none else some { i with planes := left, todo := i.todo.filter fun x => !(mine.contains x) } }

/-! ### The cold takeover (R578) -/

/-- The row COLD_TAKEOVER: the settings journal is applied without a reset of the data plane, and the part becomes active at the next
handover instant. -/
def Chip.coldTakeover (c : Chip) : Chip :=
  if !c.twn.coldDue ∨ !c.ready then c
  else
    let c := (c.setTwn { c.twn with staged := none, image := none, held := [] }).loadDiff
    (c.setTwn { c.twn with coldDue := false, toActive := true, cold := some ((c.epochNow 0 + 1) % 2 ^ 32) }).twnShow

end Sys2Proof.Machine
end

