-- ==== Sys2Proof/Machine/Run.lean ====
section
/-! DEFINITION. The frame every command stands in, and the composite events of the timing planes: the frame boundary, the switching point of
a destination, and the presentation of a source. -/

namespace Sys2Proof.Machine

/-! ### The frame of a command -/

/-- The part is out of reset and out of QUIET: everything but the always-on domain works (R81, R105). -/
def Chip.live (c : Chip) : Bool := c.pwr.phase != .held && c.pwr.phase != .quiet

/-- The chip as a command finds it: time has passed to its instant, the audio engine has reached it, and what the command before sent has
left. -/
def State.chipAt (s : State) (t : Nat) : Chip :=
  let c := s.chip.advance t
  let c : Chip := { c with host := { c.host with sent := [] }, sent := [], bus := { c.bus with resps := [], bursts := [] } }
  if c.live then (c.engineRun.storeRun).txDue else { c with clock := {} }

/-- A command at instant `t` that changes the chip by `f`: time passes to `t`, the change is made, and its interrupts and
writes follow. It always answers a next state. -/
def State.run (s : State) (t : Nat) (f : Chip → Chip) : Host.Outcome State Fault Refusal := .next (s.commit (f (s.chipAt t)))

/-- An event of a block outside the always-on domain. -/
def State.event (s : State) (t : Nat) (f : Chip → Chip) : Host.Outcome State Fault Refusal := s.run t fun c => c.when c.live f

/-- A step of the running firmware. -/
def State.fwStep (s : State) (t : Nat) (f : Chip → Chip) : Host.Outcome State Fault Refusal := s.run t fun c => c.when c.ready f

/-! ### Loads given up by changes that are taking (R38) -/

/-- The crosspoint and DRAM loads, before changes take. -/
def Chip.freeable (c : Chip) : List (Nat × Nat) := c.xptLoads ++ c.dramLoads

/-- What changes that took on a plane for an epoch gave up is not free for the other plane until all have taken. -/
def Chip.noteFreed (c c0 : Chip) (q e : Nat) : Chip :=
  let now := c.freeable
  let less := c0.freeable.filter fun l => (now.lookup l.1).getD 0 < l.2
  let x := c.plane q
  c.setPlane q { x with freed := x.freed ++ less.map fun l => (e, l.1, l.2) }

/-- The changes of a kind that are due on a plane take, and what changes of destinations give up is noted; a change with no destination has taken
when it takes effect. -/
def Chip.take (c : Chip) (q : Nat) (which : Change → Bool) : Chip :=
  let due := c.fw.queue.filter fun p => p.plane == q && c.reached q p.epoch && which p.change && p.host
  let c' := c.takeDue q which
  match due.getLast? with
  | none => c'
  | some p => if due.any fun p => p.change.loads && p.change.dest.isSome then c'.noteFreed c q p.epoch else c'

/-! ### The frame boundary of a plane (R163) -/

/-- Destinations that repeat a line after a queue fault stop at the frame boundary of their plane (R27). -/
def Chip.repeatsEnd (c : Chip) (q : Nat) : Chip :=
  c.each ((c.dsts.filter fun d => d.2.repeats).map Prod.fst) fun c d =>
    if c.dstPlane d == q then c.setDst d { c.dst d with repeats := false } else c

/-- The record channels of a plane. -/
def Chip.recsOn (c : Chip) (q : Nat) : List Nat := (List.range 48).filter fun r => c.dstPlane (272 + r) == q

/-- The row FRAME_BOUNDARY: the epoch counter increments; an image of a state copy is applied; recorded frames end; heads and then the
changes that take at the boundary take effect; recorded frames and senders begin; the digests of the ended epoch are kept; a plane whose format
changes enters START. -/
def Chip.frameBoundary (c : Chip) (mem : Memory) (q : Nat) : Chip :=
  if c.planeState q < 2 then c
  else
    let c := ((((c.tick q).takesBegin q).repeatsEnd q).imageBoundary q).when (q == 0) fun c => c.storeBack (c.domOn domStore)
    let c := c.each (c.recsOn q) fun c r => c.recEnd r q
    let c := c.each ((List.range 4).filter fun h => bits (c.headCtl h) 1 1 == q) Chip.headBoundary
    let c := c.take q Change.atBoundary
    let c := (c.each (c.recsOn q) fun c r => c.recBegin r q).sendersBegin q
    let c := c.when ((c.toPass q).isEmpty) (·.takesApplied q)
    let c := (c.when (q == c.enginePlane) Chip.audDigest).twnBoundary q
    let c := c.each ((List.range 48).filter fun n => c.dstPlane n == q) Chip.txPlan
    let c := match (c.plane q).again with | some f => c.planeStart q f | none => c
    let c := c.when c.ready (·.boundaryDone)
    c.commandsDue mem

/-! ### The switching point of a destination (R168) -/

/-- The row SWITCHING_POINT: the changes due at the destination take, then what it shows follows its source, and what hangs on it follows. At the
midpoint frame of a format of half the period nothing takes, but a loss action ends (R168, R186). -/
def Chip.switchingPoint (c : Chip) (d : Nat) (field2 : Bool) : Chip :=
  if c.planeState (c.dstPlane d) < 2 || !(dstOffered c.role d) then c
  else
    let q := c.dstPlane d
    let c0 := c
    let old := c.recPic (d - 272)
    let takes := c.takesHere d field2
    let c := if takes then (c.take q fun x => x.dest == some d).switchDst d else if field2 then c else c.switchDst d
    let c := c.when (272 ≤ d && d < 320) (·.recSwitch (d - 272) old)
    let c := (c.when (240 ≤ d && d < 272) (·.senderSwitch d)).bridgeShow
    let c := (c.when (d < 48) (·.txRefresh d)).when takes (·.fadeFrom c0 d)
    c.when takes (·.passedBy d)

/-! ### The presentation of a source (R202) -/

/-- A playback channel presents on a plane: its pause grows or its change takes, then its frame is shown; a jump goes on from the old position up to
the switching line (R234, R235). -/
def Chip.playPresent (c : Chip) (p q : Nat) (conceal : Nat) (tagErr : Bool) : Chip :=
  if c.lbs.stopped then c
  else
    let jump := c.playDue p q
    let c := c.pauseGrow p jump
    let old := if jump && c.on (LBS_PB_CTL_ENABLE p) then [c.playAt p tagErr] else []
    (c.take q fun x => x.kind == .playback && x.idx == p).playShow p old conceal tagErr

/-- A source presents on its own plane: a playback channel on the plane of the carafe that a change of it names (R234). -/
def Chip.presentsOn (c : Chip) (s p : Nat) : Bool := c.srcPlane s == p || (srcKind s == 3 && c.playDue (s - 272) p)

/-- The row PRESENTATION_INSTANT: a source presents a frame on its own plane, or through its cross-plane synchroniser on the other, and the active
part forwards what the synchroniser decided. Of a ring `conceal` lines are read in error, 8 in a row where `ue`; of a playback channel `conceal`
lines are concealed, and `ue` says that the slot's tag cannot be read. -/
def Chip.present (c : Chip) (s p : Nat) (clean ue : Bool) (conceal : Nat) : Chip :=
  if c.planeState p < 2 then c
  else if c.presentsOn s p then
    let c := c.when (srcKind s == 2) (·.flowPresent (s - 240) clean)
    let c := c.when (srcKind s == 3) (·.playPresent (s - 272) p conceal ue)
    let c1 := (c.presentOwn s clean ue conceal).headRuns s
    c1.tellSync c s false
  else (c.presentCross s p ue conceal).tellSync c s true

/-- The row SRC_VALID: two good frames have come, and the source becomes valid; a head that presents runs (R213, R521). -/
def Chip.sourceValid (c : Chip) (s : Nat) : Chip := (c.gainSrc s).headRuns s

end Sys2Proof.Machine
end

