-- ==== Sys2Proof/Machine/RowsRequest.lean ====
section
/-! DEFINITION. The rows of the requests (chapter 04): for each opcode of the catalogue of R144, the step in which the firmware serves a request of
a channel. -/

namespace Sys2Proof.Machine

/-- The firmware serves the request of a channel with the checks of the row's opcode; a selection of a reference that follows is forwarded, and
accesses that a reset of a master has released go on. -/
def State.request (s : State) (t : Nat) (ch : Fin 16) (op : Nat) (chk : Ctx → Req → Check) : Host.Outcome State Fault Refusal :=
  s.run t fun c => ((c.serve s.mem ch op chk).tellSelect c).busRun s.mem

/-- ECHO (R144). -/
def execEcho (t : Nat) (ch : Fin 16) (s : State) : Host.Outcome State Fault Refusal := s.request t ch 0x0000 chkEcho

/-- GET_INFO (R145). -/
def execGetInfo (t : Nat) (ch : Fin 16) (s : State) : Host.Outcome State Fault Refusal := s.request t ch 0x0001 chkGetInfo

/-- GET_EPOCH (R145). -/
def execGetEpoch (t : Nat) (ch : Fin 16) (s : State) : Host.Outcome State Fault Refusal := s.request t ch 0x0002 chkGetEpoch

/-- RESTART_FW (R146). -/
def execRestartFw (t : Nat) (ch : Fin 16) (s : State) : Host.Outcome State Fault Refusal := s.request t ch 0x0080 chkRestartFw

/-- DEVICE_RESET (R146). -/
def execDeviceReset (t : Nat) (ch : Fin 16) (s : State) : Host.Outcome State Fault Refusal := s.request t ch 0x0081 chkDeviceReset

/-- SET_ROLE (R148). -/
def execSetRole (t : Nat) (ch : Fin 16) (s : State) : Host.Outcome State Fault Refusal := s.request t ch 0x0082 chkSetRole

/-- CANCEL (R147). -/
def execCancel (t : Nat) (ch : Fin 16) (s : State) : Host.Outcome State Fault Refusal := s.request t ch 0x0083 chkCancel

/-- CLEAR_STICKY (R149). -/
def execClearSticky (t : Nat) (ch : Fin 16) (s : State) : Host.Outcome State Fault Refusal := s.request t ch 0x0084 chkClearSticky

/-- LANE_RESET (R150). -/
def execLaneReset (t : Nat) (ch : Fin 16) (s : State) : Host.Outcome State Fault Refusal := s.request t ch 0x0085 chkLaneReset

/-- PWR_GET_STATUS (R113). -/
def execPwrGetStatus (t : Nat) (ch : Fin 16) (s : State) : Host.Outcome State Fault Refusal := s.request t ch 0x0100 chkPwrStatus

/-- PWR_SET_DOMAIN (R114). -/
def execPwrSetDomain (t : Nat) (ch : Fin 16) (s : State) : Host.Outcome State Fault Refusal := s.request t ch 0x0180 chkSetDomain

/-- PWR_SET_MON (R115). -/
def execPwrSetMon (t : Nat) (ch : Fin 16) (s : State) : Host.Outcome State Fault Refusal := s.request t ch 0x0181 chkSetMon

/-- PWR_ENTER_QUIET (R116). -/
def execPwrEnterQuiet (t : Nat) (ch : Fin 16) (s : State) : Host.Outcome State Fault Refusal := s.request t ch 0x0182 chkEnterQuiet

/-- REF_GET_STATUS (R464). -/
def execRefGetStatus (t : Nat) (ch : Fin 16) (s : State) : Host.Outcome State Fault Refusal := s.request t ch 0x0200 chkRefStatus

/-- REF_SET_CANDIDATE (R464). -/
def execRefSetCandidate (t : Nat) (ch : Fin 16) (s : State) : Host.Outcome State Fault Refusal := s.request t ch 0x0280 chkSetCandidate

/-- REF_SET_PLANE (R463). -/
def execRefSetPlane (t : Nat) (ch : Fin 16) (s : State) : Host.Outcome State Fault Refusal := s.request t ch 0x0281 chkSetPlane

/-- PTP_GET_STATUS (R441). -/
def execPtpGetStatus (t : Nat) (ch : Fin 16) (s : State) : Host.Outcome State Fault Refusal := s.request t ch 0x0300 chkPtpStatus

/-- PTP_GET_RECORDS (R442). -/
def execPtpGetRecords (t : Nat) (ch : Fin 16) (s : State) : Host.Outcome State Fault Refusal := s.request t ch 0x0301 chkPtpRecords

/-- PTP_SET_PORT (R440). -/
def execPtpSetPort (t : Nat) (ch : Fin 16) (s : State) : Host.Outcome State Fault Refusal := s.request t ch 0x0380 chkPtpPort

/-- XPT_GET_ROUTES (R193). -/
def execXptGetRoutes (t : Nat) (ch : Fin 16) (s : State) : Host.Outcome State Fault Refusal := s.request t ch 0x0400 chkGetRoutes

/-- XPT_GET_BUDGET (R190). -/
def execXptGetBudget (t : Nat) (ch : Fin 16) (s : State) : Host.Outcome State Fault Refusal := s.request t ch 0x0401 chkGetBudget

/-- XPT_TAKE (R173). -/
def execXptTake (t : Nat) (ch : Fin 16) (s : State) : Host.Outcome State Fault Refusal := s.request t ch 0x0480 chkTake

/-- XPT_SALVO (R174). -/
def execXptSalvo (t : Nat) (ch : Fin 16) (s : State) : Host.Outcome State Fault Refusal := s.request t ch 0x0481 chkSalvo

/-- XPT_SET_DEST (R187). -/
def execXptSetDest (t : Nat) (ch : Fin 16) (s : State) : Host.Outcome State Fault Refusal := s.request t ch 0x0482 chkSetDest

/-- XPT_SET_GEN (R182). -/
def execXptSetGen (t : Nat) (ch : Fin 16) (s : State) : Host.Outcome State Fault Refusal := s.request t ch 0x0483 chkSetGen

/-- FSY_GET_STATUS (R219). -/
def execFsyGetStatus (t : Nat) (ch : Fin 16) (s : State) : Host.Outcome State Fault Refusal := s.request t ch 0x0500 chkFsyStatus

/-- FSY_SET_SOURCE (R218). -/
def execFsySetSource (t : Nat) (ch : Fin 16) (s : State) : Host.Outcome State Fault Refusal := s.request t ch 0x0580 chkSetSource

/-- LBS_GET_STATUS (R243). -/
def execLbsGetStatus (t : Nat) (ch : Fin 16) (s : State) : Host.Outcome State Fault Refusal := s.request t ch 0x0600 (fun x r => chkLbsStatus x x.c.space r)

/-- LBS_SET_RECORD (R230). -/
def execLbsSetRecord (t : Nat) (ch : Fin 16) (s : State) : Host.Outcome State Fault Refusal := s.request t ch 0x0680 chkSetRecord

/-- LBS_SET_PLAYBACK (R233). -/
def execLbsSetPlayback (t : Nat) (ch : Fin 16) (s : State) : Host.Outcome State Fault Refusal := s.request t ch 0x0681 chkSetPlayback

/-- DMC_GET_STATUS (R275). -/
def execDmcGetStatus (t : Nat) (ch : Fin 16) (s : State) : Host.Outcome State Fault Refusal := s.request t ch 0x0700 chkDmcStatus

/-- DMC_SET_CHANNEL (R271). -/
def execDmcSetChannel (t : Nat) (ch : Fin 16) (s : State) : Host.Outcome State Fault Refusal := s.request t ch 0x0780 chkDmcSet

/-- SDI_GET_STATUS (R299). -/
def execSdiGetStatus (t : Nat) (ch : Fin 16) (s : State) : Host.Outcome State Fault Refusal := s.request t ch 0x0800 chkSdiStatus

/-- SDI_SET_RX (R297). -/
def execSdiSetRx (t : Nat) (ch : Fin 16) (s : State) : Host.Outcome State Fault Refusal := s.request t ch 0x0880 chkSdiRx

/-- SDI_SET_TX (R297). -/
def execSdiSetTx (t : Nat) (ch : Fin 16) (s : State) : Host.Outcome State Fault Refusal := s.request t ch 0x0881 chkSdiTx

/-- FAB_GET_STATUS (R365). -/
def execFabGetStatus (t : Nat) (ch : Fin 16) (s : State) : Host.Outcome State Fault Refusal := s.request t ch 0x0900 chkFabStatus

/-- FAB_SET_LINK (R363). -/
def execFabSetLink (t : Nat) (ch : Fin 16) (s : State) : Host.Outcome State Fault Refusal := s.request t ch 0x0980 chkSetLink

/-- FAB_SET_SLOTS (R354). -/
def execFabSetSlots (t : Nat) (ch : Fin 16) (s : State) : Host.Outcome State Fault Refusal := s.request t ch 0x0981 chkSetSlots

/-- FAB_LOOPBACK (R327). -/
def execFabLoopback (t : Nat) (ch : Fin 16) (s : State) : Host.Outcome State Fault Refusal := s.request t ch 0x0982 chkLoopback

/-- NET_GET_STATS (R391). -/
def execNetGetStats (t : Nat) (ch : Fin 16) (s : State) : Host.Outcome State Fault Refusal := s.request t ch 0x0A00 chkNetStats

/-- NET_SET_PORT (R389). -/
def execNetSetPort (t : Nat) (ch : Fin 16) (s : State) : Host.Outcome State Fault Refusal := s.request t ch 0x0A80 chkSetPort

/-- NET_SET_GCL (R383). -/
def execNetSetGcl (t : Nat) (ch : Fin 16) (s : State) : Host.Outcome State Fault Refusal := s.request t ch 0x0A81 chkSetGcl

/-- FLOW_GET_STATUS (R420). -/
def execFlowGetStatus (t : Nat) (ch : Fin 16) (s : State) : Host.Outcome State Fault Refusal := s.request t ch 0x0B00 chkFlowStatus

/-- FLOW_JOIN (R415). -/
def execFlowJoin (t : Nat) (ch : Fin 16) (s : State) : Host.Outcome State Fault Refusal := s.request t ch 0x0B80 chkJoin

/-- FLOW_LEAVE (R417). -/
def execFlowLeave (t : Nat) (ch : Fin 16) (s : State) : Host.Outcome State Fault Refusal := s.request t ch 0x0B81 chkLeave

/-- FLOW_SET_SENDER (R418). -/
def execFlowSetSender (t : Nat) (ch : Fin 16) (s : State) : Host.Outcome State Fault Refusal := s.request t ch 0x0B82 chkSender

/-- AUD_GET_STATUS (R495). -/
def execAudGetStatus (t : Nat) (ch : Fin 16) (s : State) : Host.Outcome State Fault Refusal := s.request t ch 0x0C00 chkAudStatus

/-- AUD_SET_SHUFFLE (R491). -/
def execAudSetShuffle (t : Nat) (ch : Fin 16) (s : State) : Host.Outcome State Fault Refusal := s.request t ch 0x0C80 chkSetShuffle

/-- AUD_SET_GAINS (R492). -/
def execAudSetGains (t : Nat) (ch : Fin 16) (s : State) : Host.Outcome State Fault Refusal := s.request t ch 0x0C81 chkSetGains

/-- AUD_SET_LIMITER (R493). -/
def execAudSetLimiter (t : Nat) (ch : Fin 16) (s : State) : Host.Outcome State Fault Refusal := s.request t ch 0x0C82 chkSetLimiter

/-- SAP_GET_STATUS (R515). -/
def execSapGetStatus (t : Nat) (ch : Fin 16) (s : State) : Host.Outcome State Fault Refusal := s.request t ch 0x0D00 chkSapStatus

/-- SAP_SET_PORT (R513). -/
def execSapSetPort (t : Nat) (ch : Fin 16) (s : State) : Host.Outcome State Fault Refusal := s.request t ch 0x0D80 chkSetSap

/-- MVC_GET_STATUS (R541). -/
def execMvcGetStatus (t : Nat) (ch : Fin 16) (s : State) : Host.Outcome State Fault Refusal := s.request t ch 0x0E00 chkMvcStatus

/-- MVC_SET_HEAD (R539). -/
def execMvcSetHead (t : Nat) (ch : Fin 16) (s : State) : Host.Outcome State Fault Refusal := s.request t ch 0x0E80 chkSetHead

/-- MVC_SET_LAYERS (R540). -/
def execMvcSetLayers (t : Nat) (ch : Fin 16) (s : State) : Host.Outcome State Fault Refusal := s.request t ch 0x0E81 chkSetLayers

/-- MVC_LOAD_GRAPHIC (R533). -/
def execMvcLoadGraphic (t : Nat) (ch : Fin 16) (s : State) : Host.Outcome State Fault Refusal := s.request t ch 0x0E82 chkLoad

/-- MVC_FLIP (R534). -/
def execMvcFlip (t : Nat) (ch : Fin 16) (s : State) : Host.Outcome State Fault Refusal := s.request t ch 0x0E83 chkFlip

/-- TWN_GET_STATUS (R584). -/
def execTwnGetStatus (t : Nat) (ch : Fin 16) (s : State) : Host.Outcome State Fault Refusal := s.request t ch 0x0F00 chkTwnStatus

/-- TWN_HANDOVER (R582). -/
def execTwnHandover (t : Nat) (ch : Fin 16) (s : State) : Host.Outcome State Fault Refusal := s.request t ch 0x0F80 chkHandover

/-- TWN_SET_POLICY (R583). -/
def execTwnSetPolicy (t : Nat) (ch : Fin 16) (s : State) : Host.Outcome State Fault Refusal := s.request t ch 0x0F81 chkSetPolicy

/-- BUS_GET_STATUS (R605). -/
def execBusGetStatus (t : Nat) (ch : Fin 16) (s : State) : Host.Outcome State Fault Refusal := s.request t ch 0x1000 chkBusStatus

/-- BUS_SET_APERTURE (R605). -/
def execBusSetAperture (t : Nat) (ch : Fin 16) (s : State) : Host.Outcome State Fault Refusal := s.request t ch 0x1080 chkSetAperture

/-- UPD_GET_STATUS (R635). -/
def execUpdGetStatus (t : Nat) (ch : Fin 16) (s : State) : Host.Outcome State Fault Refusal := s.request t ch 0x1100 chkUpdStatus

/-- SEC_ATTEST (R631). -/
def execSecAttest (t : Nat) (ch : Fin 16) (s : State) : Host.Outcome State Fault Refusal := s.request t ch 0x1101 chkAttest

/-- UPD_DOWNLOAD (R621). -/
def execUpdDownload (t : Nat) (ch : Fin 16) (s : State) : Host.Outcome State Fault Refusal := s.request t ch 0x1180 chkDownload

/-- UPD_VERIFY (R622). -/
def execUpdVerify (t : Nat) (ch : Fin 16) (s : State) : Host.Outcome State Fault Refusal := s.request t ch 0x1181 chkVerify

/-- UPD_ACTIVATE (R623). -/
def execUpdActivate (t : Nat) (ch : Fin 16) (s : State) : Host.Outcome State Fault Refusal := s.request t ch 0x1182 chkActivate

/-- UPD_CONFIRM (R625). -/
def execUpdConfirm (t : Nat) (ch : Fin 16) (s : State) : Host.Outcome State Fault Refusal := s.request t ch 0x1183 chkConfirm

end Sys2Proof.Machine
end

