-- ==== Sys2Proof/Machine/RowsHost.lean ====
section
/-! DEFINITION. The rows of the host and of the mailbox's own events (chapters 00 and 04): register writes, doorbells, MSI-X, the endpoint, and
the time-outs of waiting requests. -/

namespace Sys2Proof.Machine

/-- REGISTER_WRITE (R12 to R16, R23, R118, R122). -/
def execRegisterWrite (t : Nat) (w : HostWrite) (s : State) : Host.Outcome State Fault Refusal :=
  s.run t fun c => (c.hostWrite w).busRun s.mem

/-- RING (R130, R84): the doorbell register of a channel, through the endpoint and the firewall. -/
def execRing (t : Nat) (ch : Fin 16) (s : State) : Host.Outcome State Fault Refusal :=
  s.run t fun c => c.when c.reachable fun c => c.hostGate (0x10100 + 8 * ch.val) 0 fun c => c.ringBell ch.val

/-- MSIX_UNMASK (R128): one vector, or the function. -/
def execMsixUnmask (t : Nat) (v : Option (Fin 32)) (s : State) : Host.Outcome State Fault Refusal :=
  s.run t fun c => c.msixUnmask (v.map Fin.val)

/-- ENDPOINT_RESET (R66, R120): only the endpoint with its configuration space and its MSI-X table; its port of the bus is reset (R598). -/
def execEndpointReset (t : Nat) (s : State) : Host.Outcome State Fault Refusal :=
  s.run t fun c => (({ c with host := { pci := { ids := c.host.pci.ids } } } : Chip).when c.live (·.masterReset 4)).busRun s.mem

/-- D3HOT_TRANSITION (R120): messages stop in D3hot; a cause left pending while in it raises no message afterwards by itself. -/
def execD3hotTransition (t : Nat) (d3 : Bool) (s : State) : Host.Outcome State Fault Refusal :=
  s.run t fun c => { c with host := { c.host with d3hot := d3 } }

/-- PEER_RELAY_TIMEOUT (R143). -/
def execPeerRelayTimeout (t : Nat) (ch : Fin 16) (s : State) : Host.Outcome State Fault Refusal := s.run t fun c => c.relayTimeout ch.val

/-- JOURNAL_HOLD_TIMEOUT (R90). -/
def execJournalHoldTimeout (t : Nat) (ch : Fin 16) (s : State) : Host.Outcome State Fault Refusal := s.run t fun c => c.journalTimeout ch.val

/-- PWR_SET_DOMAIN_DONE (R114). -/
def execPwrSetDomainDone (t : Nat) (ch : Fin 16) (s : State) : Host.Outcome State Fault Refusal := s.run t fun c => c.domainsDone ch.val

/-- GRAPHIC_LOAD_DONE (R533). -/
def execGraphicLoadDone (t : Nat) (head layer : Fin 4) (data : Option (List Nat)) (s : State) : Host.Outcome State Fault Refusal :=
  s.fwStep t fun c => c.graphicDone head.val layer.val data

end Sys2Proof.Machine
end

