-- ==== Sys2Proof/Machine/RowsPower.lean ====
section
/-! DEFINITION. The rows of resets, power and start-up (chapters 00, 03 and 21). -/

namespace Sys2Proof.Machine

/-- RESET_N_LOW (R66, R106, R107). -/
def execResetNLow (t : Nat) (s : State) : Host.Outcome State Fault Refusal := s.run t Chip.resetNLow

/-- PORST_N_LOW (R66, R82, R92). -/
def execPorstNLow (t : Nat) (s : State) : Host.Outcome State Fault Refusal := s.run t Chip.porstLow

/-- RAIL_BELOW_RESET (R81, R86, R92). -/
def execRailBelowReset (t : Nat) (rail : Fin 8) (s : State) : Host.Outcome State Fault Refusal := s.run t fun c => c.railReset rail.val

/-- FIRST_POWER_UP (R92, R107). -/
def execFirstPowerUp (t : Nat) (s : State) : Host.Outcome State Fault Refusal := s.run t Chip.coldStart

/-- RESET_RELEASE (R67, R80, R83). -/
def execResetRelease (t : Nat) (s : State) : Host.Outcome State Fault Refusal := s.run t Chip.release

/-- STRAP_SAMPLE (R58, R59). -/
def execStrapSample (t : Nat) (straps : BitVec 8) (s : State) : Host.Outcome State Fault Refusal := s.run t fun c => c.strapSample straps.toNat

/-- WATCHDOG_EXPIRY (R108 to R110, R155): the watchdogs run with the control firmware. -/
def execWatchdogExpiry (t : Nat) (s : State) : Host.Outcome State Fault Refusal :=
  s.run t fun c => c.when (c.pwr.phase == .started || c.pwr.phase == .running) fun c => (c.fwReset true).busRun s.mem

/-- BOOT_ROM_RUN (R612 to R614, R620). -/
def execBootRomRun (t : Nat) (idOk : Bool) (b0 b1 : Option Package) (s : State) : Host.Outcome State Fault Refusal :=
  s.run t fun c => c.bootRom idOk b0 b1

/-- FW_READY (R84, R109, R110, R156, R255, R622 to R628): then the commands that hardware held for the standby are executed (R580), and a
handover asked for that is made or committed is answered. -/
def execFwReady (t : Nat) (conv : Bool) (s : State) : Host.Outcome State Fault Refusal :=
  s.run t fun c =>
    let c := (c.fwReady conv).commandsDue s.mem
    c.when (c.ready && c.twn.handover.isNone) (·.handDone)

/-- CONFIGURATION_LOAD (R6, R9, R83, R241, R271, R424, R637). -/
def execConfigurationLoad (t : Nat) (s : State) : Host.Outcome State Fault Refusal := s.fwStep t Chip.configLoad

/-- MRAM_REFRESH_REWRITE (R78): every live record is written again as it is; held MRAM writes wait (R87). -/
def execMramRefreshRewrite (t : Nat) (s : State) : Host.Outcome State Fault Refusal :=
  s.fwStep t fun c => c.when (!c.mramHeld) fun c => { c with pwr := { c.pwr with mramWrite := some c.now } }

/-- RAIL_BELOW_WARNING (R86 to R88, R91): while the part runs it may start a handover. -/
def execRailBelowWarning (t : Nat) (rail : Fin 8) (s : State) : Host.Outcome State Fault Refusal :=
  s.run t fun c0 =>
    let c := c0.railBelow rail.val
    let newly := !(bit (c0.rd PWR_STATUS_RAIL_BELOW_WARN) rail.val)
    c.when (newly && c.live && c.on TWN_CFG_TWN_BOD_POLICY) (·.askHandover 3 (us 100) false)

/-- RAIL_ABOVE_WARNING (R86). -/
def execRailAboveWarning (t : Nat) (rail : Fin 8) (s : State) : Host.Outcome State Fault Refusal :=
  s.run t fun c =>
    let below := c.rd PWR_STATUS_RAIL_BELOW_WARN
    c.when (bit below rail.val) (·.wr PWR_STATUS_RAIL_BELOW_WARN (below - 2 ^ rail.val))

/-- MRAM_HOLD_RELEASE (R87, R90): the held writes proceed: requests, an automatic confirmation (R624), and the standby's commands. -/
def execMramHoldRelease (t : Nat) (s : State) : Host.Outcome State Fault Refusal :=
  s.run t fun c =>
    c.when (c.mramHeld && c.rd PWR_STATUS_RAIL_BELOW_WARN == 0) fun c =>
      (c.clr PWR_STATUS_MRAM_HOLD).when c.ready fun c =>
        let c := c.heldProceed
        let c := c.when (c.ready && c.upd.checked && c.updRec.trial && c.updRec.auto) (·.confirm)
        (c.commandsDue s.mem).busRun s.mem

/-- MRAM_WRITE_DONE (R82). -/
def execMramWriteDone (t : Nat) (s : State) : Host.Outcome State Fault Refusal :=
  s.run t fun c => { c with pwr := { c.pwr with mramWrite := none }, upd := { c.upd with last := none } }

/-- PWR_MON_CFG_WRITE (R93): by the control firmware, once it is ready. -/
def execPwrMonCfgWrite (t : Nat) (rail : Fin 8) (value : Word) (s : State) : Host.Outcome State Fault Refusal :=
  s.fwStep t fun c => c.monWrite rail.val value.toNat

/-- DOMAIN_REQ_WRITE (R95, R103, R272). -/
def execDomainReqWrite (t : Nat) (dom : Fin 248) (req : Fin 4) (s : State) : Host.Outcome State Fault Refusal :=
  s.event t fun c => c.domWrite dom.val req.val

/-- DOMAIN_TRANSITION_DONE (R95, R97 to R99, R103, R272). -/
def execDomainTransitionDone (t : Nat) (dom : Fin 248) (s : State) : Host.Outcome State Fault Refusal := s.event t fun c => c.domDone dom.val

/-- NET_WAKE (R101). -/
def execNetWake (t : Nat) (port : Fin 2) (s : State) : Host.Outcome State Fault Refusal :=
  s.event t fun c =>
    c.when (c.dom (domMac port.val) == stLow) fun c =>
      ((c.domForce (domMac port.val) stActive).setBit PWR_WAKE_CAUSE_NET_WAKE port.val).macAfter port.val stLow stActive

/-- ENTER (R104, R105). -/
def execEnter (t : Nat) (s : State) : Host.Outcome State Fault Refusal := s.run t fun c => c.svcQuiet 1

/-- WAKE (R106). -/
def execWake (t : Nat) (s : State) : Host.Outcome State Fault Refusal := s.run t fun c => c.svcQuiet 2

/-- THERMAL_READING (R76). -/
def execThermalReading (t : Nat) (celsius : Int) (s : State) : Host.Outcome State Fault Refusal := s.event t fun c => c.therm celsius

/-- LO_IN_LOSS (R71, R452). -/
def execLoInLoss (t : Nat) (s : State) : Host.Outcome State Fault Refusal := s.event t Chip.loLoss

/-- LO_IN_RETURN (R452). -/
def execLoInReturn (t : Nat) (s : State) : Host.Outcome State Fault Refusal := s.event t Chip.loReturn

/-- FAULT_SCAN_FRAME (R73, R74, R295, R296). -/
def execFaultScanFrame (t : Nat) (scan : BitVec 144) (s : State) : Host.Outcome State Fault Refusal := s.event t fun c => c.scanFrame scan.toNat

/-- QUEUE_FAULT (R27): the affected destinations repeat their last line, and self-diagnosis has a fatal finding (R570). -/
def execQueueFault (t : Nat) (dsts : List (Fin 384)) (s : State) : Host.Outcome State Fault Refusal :=
  s.event t fun c =>
    let c := (c.set TOP_STATUS_QUEUE_FAULT).inc TOP_QUEUE_FAULT_COUNT_COUNT
    (c.each dsts fun c d => c.setDst d.val { c.dst d.val with repeats := true }).selfFault 2

/-- TRST_N_LOW (R107): the test access port only, which holds no state of the part. -/
def execTrstNLow (t : Nat) (s : State) : Host.Outcome State Fault Refusal := s.run t fun c => c

end Sys2Proof.Machine
end

