-- ==== Sys2Proof/Machine/RowsPlane.lean ====
section
/-! DEFINITION. The rows of the timing planes, the crosspoint, the aligners, the store and the memory controller (chapters 05 to 08). -/

namespace Sys2Proof.Machine

/-- FRAME_BOUNDARY (R29, R32, R83, R98, R163, R227, R228, R497). -/
def execFrameBoundary (t : Nat) (plane : Fin 2) (s : State) : Host.Outcome State Fault Refusal :=
  s.event t fun c => c.frameBoundary s.mem plane.val

/-- SWITCHING_POINT (R168 to R171, R176 to R178, R183 to R188, R228, R279, R290, R293). -/
def execSwitchingPoint (t : Nat) (dst : Fin 384) (field2 : Bool) (s : State) : Host.Outcome State Fault Refusal :=
  s.event t fun c => c.switchingPoint dst.val field2

/-- SOURCE_FRAME_ARRIVAL (R161, R198, R201, R204, R210 to R212, R215 to R217, R526). -/
def execSourceFrameArrival (t : Nat) (src : Fin 332) (f : FrameIn) (s : State) : Host.Outcome State Fault Refusal :=
  s.event t fun c => c.when (srcOffered c.role src.val) fun c => (c.frameArrives src.val f).ratioCheck src.val

/-- SRC_DEMOTED (R205). -/
def execSrcDemoted (t : Nat) (src : Fin 332) (s : State) : Host.Outcome State Fault Refusal := s.event t fun c => c.demote src.val

/-- PRESENTATION_INSTANT (R197, R199, R202, R203, R207 to R209, R232 to R238). -/
def execPresentationInstant (t : Nat) (src : Fin 332) (plane : Fin 2) (clean ue : Bool) (conceal : Nat) (s : State) :
    Host.Outcome State Fault Refusal :=
  s.event t fun c => c.when (srcOffered c.role src.val) (·.present src.val plane.val clean ue conceal)

/-- SRC_INVALID (R183 to R186, R206, R212 to R216): a valid source that has a cause becomes invalid, or no longer fits its structure, and
the head of an MV_OUT shows it. -/
def execSrcInvalid (t : Nat) (src : Fin 332) (s : State) : Host.Outcome State Fault Refusal :=
  s.event t fun c => (c.sourceInvalid src.val).headRuns src.val

/-- SRC_VALID (R212, R213, R521). -/
def execSrcValid (t : Nat) (src : Fin 332) (s : State) : Host.Outcome State Fault Refusal :=
  s.event t fun c => c.when (srcOffered c.role src.val) (·.sourceValid src.val)

/-- INVALID_LINE (R184, R213, R215): of a source that an aligner receives. -/
def execInvalidLine (t : Nat) (src : Fin 332) (run : Bool) (s : State) : Host.Outcome State Fault Refusal :=
  s.event t fun c => c.when (srcOffered c.role src.val && srcKind src.val ≤ 2) (·.badLine src.val run)

/-- PB_PAUSE_EXPIRED (R235, R242). -/
def execPbPauseExpired (t : Nat) (pb : Fin 48) (s : State) : Host.Outcome State Fault Refusal :=
  s.event t fun c => c.pauseRow pb.val

/-- STORE_HALTED (R239). -/
def execStoreHalted (t : Nat) (plane : Fin 2) (s : State) : Host.Outcome State Fault Refusal := s.event t fun c => c.storeHalt plane.val

/-- CHANNEL_TRAINING (R65, R247, R254, R255, R273). -/
def execChannelTraining (t : Nat) (chan : Fin 8) (dimm : Option Dimm) (s : State) : Host.Outcome State Fault Refusal :=
  s.fwStep t fun c => c.spdRead chan.val dimm

/-- CHANNEL_READY (R248, R249, R255). -/
def execChannelReady (t : Nat) (chan : Fin 8) (rd wr : List (BitVec 14)) (s : State) : Host.Outcome State Fault Refusal :=
  s.fwStep t fun c => c.trainPass chan.val (rd.map BitVec.toNat) (wr.map BitVec.toNat)

/-- TRAIN_FAILED (R249, R256). -/
def execTrainFailed (t : Nat) (chan : Fin 8) (s : State) : Host.Outcome State Fault Refusal := s.fwStep t fun c => c.trainFail chan.val

/-- REFRESH_BOUNDARY (R260, R267, R269). -/
def execRefreshBoundary (t : Nat) (chan : Fin 8) (rank : Fin 2) (mr4 : Option Bool) (s : State) : Host.Outcome State Fault Refusal :=
  s.event t fun c => c.refresh chan.val rank.val mr4

/-- PERCOLATOR_SWEEP (R264, R266, R267, R269). -/
def execPercolatorSweep (t : Nat) (chan : Fin 8) (rank : Fin 2) (results : List (BitVec 33)) (s : State) : Host.Outcome State Fault Refusal :=
  s.fwStep t fun c => c.sweep chan.val rank.val (results.map BitVec.toNat)

/-- DRAM_READ_ECC (R208, R261, R262, R264, R265, R269, R274). -/
def execDramReadEcc (t : Nat) (pa : BitVec 41) (dev : Option (Fin 10)) (s : State) : Host.Outcome State Fault Refusal :=
  s.event t fun c => c.readEcc pa.toNat (dev.map Fin.val)

/-- PATROL_SCRUB (R263, R274). -/
def execPatrolScrub (t : Nat) (chan : Fin 8) (found : Option (Option (Fin 10))) (s : State) : Host.Outcome State Fault Refusal :=
  s.event t fun c => c.scrubRead chan.val (found.map fun d => d.map Fin.val)

/-- PARITY_ALERT (R268, R269). -/
def execParityAlert (t : Nat) (chan : Fin 8) (inReplay : Bool) (s : State) : Host.Outcome State Fault Refusal :=
  s.event t fun c => c.parityAlert chan.val inReplay

/-- CHANNEL_FAILED (R239, R249, R269, R270, R570). -/
def execChannelFailed (t : Nat) (chan : Fin 8) (s : State) : Host.Outcome State Fault Refusal :=
  s.event t fun c =>
    let was := c.chState chan.val
    let c := c.chFail chan.val
    c.when (was != chFailed && c.chState chan.val == chFailed) (·.selfFault 3)

end Sys2Proof.Machine
end

