-- ==== Sys2Proof/Machine/RowsLane.lean ====
section
/-! DEFINITION. The rows of the SDI lanes, the fabric and twin lanes and the Kloar links (chapters 09 and 10). -/

namespace Sys2Proof.Machine

/-- HUNT_TRIAL_END (R281). -/
def execHuntTrialEnd (t : Nat) (lane : Fin 48) (s : State) : Host.Outcome State Fault Refusal := s.event t fun c => c.huntNext lane.val

/-- RX_LOCK (R281). -/
def execRxLock (t : Nat) (lane : Fin 48) (rate : Fin 10) (levelB : Bool) (s : State) : Host.Outcome State Fault Refusal :=
  s.event t fun c => c.rxLock lane.val rate.val levelB

/-- RX_LOS (R282). -/
def execRxLos (t : Nat) (lane : Fin 48) (s : State) : Host.Outcome State Fault Refusal := s.event t fun c => c.rxLos lane.val

/-- CDR_MARGIN_CHECK (R284): by the Percolator of the running firmware. -/
def execCdrMarginCheck (t : Nat) (low : BitVec 48) (s : State) : Host.Outcome State Fault Refusal := s.fwStep t fun c => c.cdrMargins low.toNat

/-- SDI_LINE_CHECK (R285 to R287). -/
def execSdiLineCheck (t : Nat) (lane : Fin 48) (error noEdh : Bool) (s : State) : Host.Outcome State Fault Refusal :=
  s.event t fun c => c.lineCheck lane.val error noEdh

/-- ANCILLARY_CAPTURE (R288, R289). -/
def execAncillaryCapture (t : Nat) (lane : Fin 48) (pid : Option Word) (tcKind : Fin 3) (tc : Word) (badGroups : BitVec 8) (s : State) :
    Host.Outcome State Fault Refusal :=
  s.event t fun c => c.ancCapture lane.val (pid.map BitVec.toNat) tcKind.val tc.toNat badGroups.toNat

/-- What depends on a lane after its state changed: the link of a fabric lane, or the twin lanes in use. -/
def Chip.laneMoved (c : Chip) (n : Nat) : Chip := if n < 48 then c.laneTouched n else c.twnShow

/-- FAB_SIGNAL_LOST (R312). -/
def execFabSignalLost (t : Nat) (lane : Fin 50) (s : State) : Host.Outcome State Fault Refusal :=
  s.event t fun c => (c.lnSignalLost lane.val).laneMoved lane.val

/-- FAB_SIGNAL_PRESENT (R312, R313). -/
def execFabSignalPresent (t : Nat) (lane : Fin 50) (s : State) : Host.Outcome State Fault Refusal :=
  s.event t fun c => c.lnSignalPresent lane.val

/-- VERIFY_DONE (R308, R309, R314). -/
def execVerifyDone (t : Nat) (lane : Fin 50) (cdr block crc polInv : Bool) (height : BitVec 8) (s : State) : Host.Outcome State Fault Refusal :=
  s.event t fun c => (c.lnVerifyDone lane.val cdr block crc polInv height.toNat).laneMoved lane.val

/-- SWEEP_DONE (R308, R309, R315 to R317). -/
def execSweepDone (t : Nat) (lane : Fin 50) (heights : List (BitVec 8)) (clean : List Bool) (polInv : Bool) (s : State) :
    Host.Outcome State Fault Refusal :=
  s.event t fun c => (c.lnSweepDone lane.val (heights.map BitVec.toNat) clean polInv).laneMoved lane.val

/-- LANE_RETRY (R318). -/
def execLaneRetry (t : Nat) (lane : Fin 50) (s : State) : Host.Outcome State Fault Refusal := s.event t fun c => c.lnRetry lane.val

/-- LANE_LOCK_LOST (R311). -/
def execLaneLockLost (t : Nat) (lane : Fin 50) (s : State) : Host.Outcome State Fault Refusal :=
  s.event t fun c => (c.lnLockLost lane.val).laneMoved lane.val

/-- PERCOLATOR_VISIT (R308, R319 to R322). -/
def execPercolatorVisit (t : Nat) (lane : Fin 50) (height width below above : BitVec 8) (belowCrc aboveCrc : Bool) (s : State) :
    Host.Outcome State Fault Refusal :=
  s.fwStep t fun c => c.lnVisit lane.val height.toNat width.toNat below.toNat above.toNat belowCrc aboveCrc

/-- PERCOLATOR_STEP (R309, R320). -/
def execPercolatorStep (t : Nat) (lane : Fin 50) (s : State) : Host.Outcome State Fault Refusal := s.event t fun c => c.lnStep lane.val

/-- PERC_POST_ERR (R321). -/
def execPercPostErr (t : Nat) (lane : Fin 50) (s : State) : Host.Outcome State Fault Refusal := s.event t fun c => c.lnPostErr lane.val

/-- CHECKER_LOCK (R329). -/
def execCheckerLock (t : Nat) (lane : Fin 48) (locked : Bool) (errs units : Nat) (s : State) : Host.Outcome State Fault Refusal :=
  s.event t fun c => c.lnChecker lane.val locked errs units

/-- LANE_DOZE_WAKE (R332, R333). -/
def execLaneDozeWake (t : Nat) (lane : Fin 50) (lostLock : Bool) (s : State) : Host.Outcome State Fault Refusal :=
  s.event t fun c => (c.lnWake lane.val lostLock).laneMoved lane.val

/-- DATA_BLOCK (R303, R304, R337, R338, R344). -/
def execDataBlock (t : Nat) (lane : Fin 50) (block : BitVec 640) (s : State) : Host.Outcome State Fault Refusal :=
  s.event t fun c => let c := c.lnIn lane.val block.toNat false
    if lane.val < 48 then c.fabData lane.val block.toNat else c.twnBlock lane.val block.toNat

/-- ALIGNMENT_MARKER (R305, R345 to R347, R350, R553). -/
def execAlignmentMarker (t : Nat) (lane : Fin 50) (block : BitVec 640) (s : State) : Host.Outcome State Fault Refusal :=
  s.event t fun c => let c := c.lnIn lane.val block.toNat true
    if lane.val < 48 then c.fabMarker lane.val block.toNat false else c.twnMarker lane.val block.toNat false

/-- STATUS_BLOCK (R342, R348, R349). -/
def execStatusBlock (t : Nat) (lane : Fin 50) (block : BitVec 640) (s : State) : Host.Outcome State Fault Refusal :=
  s.event t fun c => let c := c.lnIn lane.val block.toNat false
    if lane.val < 48 then c.fabStatus lane.val block.toNat else c.twnBlock lane.val block.toNat

/-- LINK_FORM_TIMEOUT (R348, R349). -/
def execLinkFormTimeout (t : Nat) (link : Fin 48) (s : State) : Host.Outcome State Fault Refusal := s.event t fun c => c.formTimeout link.val

/-- LANE_UNUSABLE (R350, R353). -/
def execLaneUnusable (t : Nat) (lane : Fin 48) (s : State) : Host.Outcome State Fault Refusal := s.event t fun c => c.laneUnusable lane.val

/-- REFORM_MARKER (R350, R351). -/
def execReformMarker (t : Nat) (lane : Fin 50) (block : BitVec 640) (s : State) : Host.Outcome State Fault Refusal :=
  s.event t fun c => let c := c.lnIn lane.val block.toNat true
    if lane.val < 48 then c.fabMarker lane.val block.toNat true else c.twnMarker lane.val block.toNat true

/-- LINK_WIDEN (R349, R352). -/
def execLinkWiden (t : Nat) (link : Fin 48) (s : State) : Host.Outcome State Fault Refusal := s.event t fun c => c.linkWiden link.val

/-- SLOT_MASK_COPY (R349, R355): the slot settings due on a running plane take, and the transmitters choose their slots again. -/
def execSlotMaskCopy (t : Nat) (plane : Fin 2) (s : State) : Host.Outcome State Fault Refusal :=
  s.event t fun c => c.when (2 ≤ c.planeState plane.val) fun c => (c.take plane.val fun x => x.kind == .fabSlot).slotsTaken

/-- MERGE_LINE (R159, R214, R357, R358). -/
def execMergeLine (t : Nat) (slot : Fin 96) (aOk bOk differ run : Bool) (s : State) : Host.Outcome State Fault Refusal :=
  s.event t fun c => c.mergeLine slot.val aOk bOk differ run

end Sys2Proof.Machine
end

