-- ==== Sys2Proof/Machine/RowsNet.lean ====
section
/-! DEFINITION. The rows of the network ports, the media flows and PTP (chapters 11 to 13). -/

namespace Sys2Proof.Machine

/-- TRAINING_TIMEOUT (R370). -/
def execTrainingTimeout (t : Nat) (port : Fin 2) (s : State) : Host.Outcome State Fault Refusal := s.event t fun c => c.netTimeout port.val

/-- NET_LINK_UP (R370, R371). -/
def execNetLinkUp (t : Nat) (port : Fin 2) (remoteFault : Bool) (s : State) : Host.Outcome State Fault Refusal :=
  s.event t fun c => c.netAligned port.val remoteFault

/-- NET_LINK_DOWN (R370, R371): cause 1 signal, 2 alignment, 3 remote fault. -/
def execNetLinkDown (t : Nat) (port : Fin 2) (cause : Fin 3) (lock : BitVec 4) (s : State) : Host.Outcome State Fault Refusal :=
  s.event t fun c => c.netLost port.val (cause.val + 1) lock.toNat

/-- FRAME_RECEIVED (R372 to R377, R386, R387). -/
def execFrameReceived (t : Nat) (port : Fin 2) (f : NetFrame) (s : State) : Host.Outcome State Fault Refusal :=
  s.event t fun c => c.frameReceived port.val f

/-- FRAME_TRANSMIT (R378 to R382, R386, R387). -/
def execFrameTransmit (t : Nat) (port : Fin 2) (heads : List (Fin 8 × Nat)) (cut : Bool) (s : State) : Host.Outcome State Fault Refusal :=
  s.event t fun c => c.frameTransmit port.val (heads.map fun (h : Fin 8 × Nat) => (h.1.val, h.2)) cut

/-- GCL_ENTRY_BOUNDARY (R380). -/
def execGclEntryBoundary (t : Nat) (port : Fin 2) (s : State) : Host.Outcome State Fault Refusal := s.event t fun c => c.gclBoundary port.val

/-- GCL_TAKEN (R385). -/
def execGclTaken (t : Nat) (port : Fin 2) (s : State) : Host.Outcome State Fault Refusal := s.event t fun c => c.gclTaken port.val

/-- NET_SIGNAL_DETECTED (R370). -/
def execNetSignalDetected (t : Nat) (port : Fin 2) (s : State) : Host.Outcome State Fault Refusal := s.event t fun c => c.netSignal port.val

/-- NET_SIGNAL_LOST (R370). -/
def execNetSignalLost (t : Nat) (port : Fin 2) (lock : BitVec 4) (s : State) : Host.Outcome State Fault Refusal :=
  s.event t fun c => c.netSignalLost port.val lock.toNat

/-- AUTO_NEGOTIATION_DONE (R370). -/
def execAutoNegotiationDone (t : Nat) (port : Fin 2) (s : State) : Host.Outcome State Fault Refusal := s.event t fun c => c.netAnDone port.val

/-- LINK_TRAINING_DONE (R369, R370). -/
def execLinkTrainingDone (t : Nat) (port : Fin 2) (pol : BitVec 4) (s : State) : Host.Outcome State Fault Refusal :=
  s.event t fun c => c.netTrained port.val pol.toNat

/-- ANCHOR_SET (R403, R424). -/
def execAnchorSet (t : Nat) (plane : Fin 2) (s : State) : Host.Outcome State Fault Refusal := s.event t fun c => c.anchorSet plane.val

/-- MEDIA_PACKET_RECEIVED (R402, R405, R406, R409, R410). -/
def execMediaPacketReceived (t : Nat) (flow : Fin 112) (leg : Fin 2) (p : MediaPacket) (s : State) : Host.Outcome State Fault Refusal :=
  s.event t fun c => c.mediaPacket flow.val leg.val p

/-- AUDIO_PACKET_RECEIVED (R400, R408 to R410, R423). -/
def execAudioPacketReceived (t : Nat) (flow : Fin 112) (leg : Fin 2) (p : AudioPacket) (s : State) : Host.Outcome State Fault Refusal :=
  s.event t fun c => c.audioPacket flow.val leg.val p

/-- AUDIO_PACKET_LATE (R408). -/
def execAudioPacketLate (t : Nat) (flow : Fin 112) (seq : Nat) (s : State) : Host.Outcome State Fault Refusal :=
  s.event t fun c => c.audioLate flow.val seq

/-- LEG_LOST (R410). -/
def execLegLost (t : Nat) (flow : Fin 112) (leg : Fin 2) (s : State) : Host.Outcome State Fault Refusal :=
  s.event t fun c => c.legLost flow.val leg.val

/-- LEG_RESTORED (R410). -/
def execLegRestored (t : Nat) (flow : Fin 112) (leg : Fin 2) (s : State) : Host.Outcome State Fault Refusal :=
  s.event t fun c => c.legRestored flow.val leg.val

/-- PACKET_RELEASE (R411, R412). -/
def execPacketRelease (t : Nat) (sender : Fin 112) (leg : Fin 2) (slot : Nat) (s : State) : Host.Outcome State Fault Refusal :=
  s.event t fun c => c.packetRelease sender.val leg.val slot

/-- ANCILLARY_FIELD_SEND (R402). -/
def execAncillaryFieldSend (t : Nat) (sender : Fin 112) (sizes : List Nat) (s : State) : Host.Outcome State Fault Refusal :=
  s.event t fun c => c.ancSend sender.val sizes

/-- IGMP_MEMBERSHIP_REPORT (R397). -/
def execIgmpMembershipReport (t : Nat) (port : Fin 2) (s : State) : Host.Outcome State Fault Refusal := s.fwStep t fun c => c.igmpReport port.val

/-- SYNC_RECEIVED (R436, R438, R439). -/
def execSyncReceived (t : Nat) (port : Fin 2) (seq : BitVec 16) (domain : BitVec 8) (id : BitVec 64) (num : BitVec 16) (err : Fin 9) (s : State) :
    Host.Outcome State Fault Refusal :=
  s.event t fun c => c.syncReceived port.val seq.toNat domain.toNat id.toNat num.toNat err.val

/-- DELAY_REQ_SENT (R437, R439). -/
def execDelayReqSent (t : Nat) (port : Fin 2) (seq : BitVec 16) (err : Fin 9) (s : State) : Host.Outcome State Fault Refusal :=
  s.event t fun c => c.delayReqSent port.val seq.toNat err.val

/-- RXQ_POP (R438). -/
def execRxqPop (t : Nat) (port : Fin 2) (s : State) : Host.Outcome State Fault Refusal := s.fwStep t fun c => c.rxqPop port.val

/-- TXR_POP (R438, R439). -/
def execTxrPop (t : Nat) (port : Fin 2) (s : State) : Host.Outcome State Fault Refusal := s.fwStep t fun c => c.txrPop port.val

/-- A step of the PTP firmware; the active part forwards the reference selections that follow from it (R462). -/
def State.ptpStep (s : State) (t : Nat) (f : Chip → Chip) : Host.Outcome State Fault Refusal := s.fwStep t fun c => (f c).ptpCand.tellSelect c

/-- SERVO_SAMPLE (R385, R403, R431, R432, R435). -/
def execServoSample (t : Nat) (port : Fin 2) (offset filtered freq : Int) (mpd : Nat) (s : State) : Host.Outcome State Fault Refusal :=
  s.ptpStep t fun c => c.servoSample port.val offset filtered freq mpd

/-- ANNOUNCE_RECEIVED (R429, R433). -/
def execAnnounceReceived (t : Nat) (port : Fin 2) (domain : BitVec 8) (id : BitVec 64) (rank : Nat) (s : State) :
    Host.Outcome State Fault Refusal :=
  s.ptpStep t fun c => c.announce port.val domain.toNat id.toNat rank

/-- ANNOUNCE_TIMEOUT (R434). -/
def execAnnounceTimeout (t : Nat) (port : Fin 2) (s : State) : Host.Outcome State Fault Refusal := s.ptpStep t fun c => c.announceTimeout port.val

/-- PREF_PORT_REVERT (R433). -/
def execPrefPortRevert (t : Nat) (s : State) : Host.Outcome State Fault Refusal := s.ptpStep t Chip.prefRevert

end Sys2Proof.Machine
end

