-- ==== Sys2Proof/Machine/RowsTime.lean ====
section
/-! DEFINITION. The rows of reference selection, audio and the serial audio ports (chapters 14 to 16). -/

namespace Sys2Proof.Machine

/-- A step of the reference selector; the active part forwards the selections it made (R462). -/
def State.select (s : State) (t : Nat) (f : Chip → Chip) : Host.Outcome State Fault Refusal := s.event t fun c => (f c).tellSelect c

/-- MONITOR_WINDOW_END (R448, R450, R452, R454 to R458, R460). -/
def execMonitorWindowEnd (t : Nat) (meas : List RefMeas) (lo : Int) (s : State) : Host.Outcome State Fault Refusal :=
  s.select t fun c => c.windowEnd meas lo

/-- CANDIDATE_INACTIVE (R449, R453). -/
def execCandidateInactive (t : Nat) (cand : Fin 5) (noisy : Bool) (meas : List RefMeas) (s : State) : Host.Outcome State Fault Refusal :=
  s.select t fun c => c.candInactive cand.val noisy meas

/-- WTR_EXPIRY (R455). -/
def execWtrExpiry (t : Nat) (plane : Fin 2) (meas : List RefMeas) (s : State) : Host.Outcome State Fault Refusal :=
  s.select t fun c => c.wtrExpiry plane.val meas

/-- PULLIN_DONE (R458). -/
def execPullinDone (t : Nat) (plane : Fin 2) (s : State) : Host.Outcome State Fault Refusal := s.select t fun c => c.pullinDone plane.val

/-- START_TIMEOUT (R454). -/
def execStartTimeout (t : Nat) (plane : Fin 2) (delay : Nat) (s : State) : Host.Outcome State Fault Refusal :=
  s.select t fun c => c.startTimeout plane.val delay

/-- REF_PHASE_HIT (R459). -/
def execRefPhaseHit (t : Nat) (cand : Fin 5) (s : State) : Host.Outcome State Fault Refusal := s.event t fun c => c.phaseHit cand.val

/-- REFERENCE_EDGE (R449, R459). -/
def execReferenceEdge (t : Nat) (cand : Fin 5) (displaced : Int) (meas : List RefMeas) (s : State) : Host.Outcome State Fault Refusal :=
  s.select t fun c => c.refEdge cand.val displaced meas

/-- LO_CALIBRATED (R451). -/
def execLoCalibrated (t : Nat) (lo : Int) (s : State) : Host.Outcome State Fault Refusal := s.fwStep t fun c => c.loCalibrate lo

/-- AUDIO_BLOCK (R178, R289, R468 to R490, R505 to R511). -/
def execAudioBlock (t : Nat) (b : AudioBlock) (s : State) : Host.Outcome State Fault Refusal := s.event t fun c => (c.sapTake.audioBlock b).boundaryDone

/-- SAP_PORT_FRAME (R502, R505, R508 to R512). -/
def execSapPortFrame (t : Nat) (port : Fin 16) (bclk : Nat) (rx : List (Int × Int)) (tx : Nat) (s : State) : Host.Outcome State Fault Refusal :=
  s.event t fun c => c.sapFrame port.val bclk rx tx

/-- PORT_LOCKED (R505). -/
def execPortLocked (t : Nat) (port : Fin 16) (rate : Int) (s : State) : Host.Outcome State Fault Refusal :=
  s.event t fun c => c.sapLock port.val rate

/-- PORT_UNLOCKED (R505, R510). -/
def execPortUnlocked (t : Nat) (port : Fin 16) (cause : Fin 3) (s : State) : Host.Outcome State Fault Refusal :=
  s.event t fun c => c.sapUnlock port.val (cause.val + 1)

/-- SLIPPED (R510, R512). -/
def execSlipped (t : Nat) (port : Fin 16) (kind : Fin 4) (s : State) : Host.Outcome State Fault Refusal :=
  s.event t fun c => c.sapSlipped port.val kind.val

/-- REJOINED (R511). -/
def execRejoined (t : Nat) (port : Fin 16) (s : State) : Host.Outcome State Fault Refusal := s.event t fun c => c.sapRejoined port.val

end Sys2Proof.Machine
end

