-- ==== Sys2Proof/Machine/RowsTwin.lean ====
section
/-! DEFINITION. The rows of the multiviewer and of twin operation (chapters 17 to 19). -/

namespace Sys2Proof.Machine

/-! ### Multiviewer -/

/-- HEAD_FRAME_DECISION (R527, R534, R536 to R538). -/
def execHeadFrameDecision (t : Nat) (head : Fin 4) (s : State) : Host.Outcome State Fault Refusal := s.event t fun c => c.headDecide head.val

/-- AUTO_FLIP (R535). -/
def execAutoFlip (t : Nat) (head layer : Fin 4) (s : State) : Host.Outcome State Fault Refusal := s.event t fun c => c.autoFlip head.val layer.val

/-- LAYER_SLATED (R538). -/
def execLayerSlated (t : Nat) (head : Fin 4) (layer : Fin 16) (s : State) : Host.Outcome State Fault Refusal :=
  s.event t fun c => c.layerSlated head.val layer.val

/-! ### Mode and messages -/

/-- TWIN_MODE_DECISION (R8, R550). -/
def execTwinModeDecision (t : Nat) (peerIn : Bool) (s : State) : Host.Outcome State Fault Refusal := s.event t fun c => c.modeDecide peerIn

/-- UNIT1_WAIT_EXPIRY (R550). -/
def execUnit1WaitExpiry (t : Nat) (peerIn : Bool) (s : State) : Host.Outcome State Fault Refusal := s.event t fun c => c.unit1Wait peerIn

/-- PEER_IN_CONFLICT (R551). -/
def execPeerInConflict (t : Nat) (s : State) : Host.Outcome State Fault Refusal := s.event t Chip.peerConflict

/-- A message of the peer in a stream: it takes its turn by MSEQ (R553). -/
def State.message (s : State) (t stream mseq : Nat) (f : Chip → Chip) : Host.Outcome State Fault Refusal :=
  s.event t fun c => (c.twnTake stream mseq f).busRun s.mem

/-- HELLO (R8, R554). -/
def execHello (t : Nat) (mseq : Nat) (role : BitVec 2) (unit : BitVec 1) (mode : BitVec 2) (phase : BitVec 3) (version : BitVec 8) (schema : Nat)
    (s : State) : Host.Outcome State Fault Refusal :=
  s.event t fun c => c.hello mseq role.toNat unit.toNat mode.toNat phase.toNat version.toNat schema

/-- HELLO_SEND (R554). -/
def execHelloSend (t : Nat) (peerIn : Bool) (s : State) : Host.Outcome State Fault Refusal := s.event t fun c => c.helloSend peerIn

/-- HELLO_TIMEOUT (R586). -/
def execHelloTimeout (t : Nat) (s : State) : Host.Outcome State Fault Refusal := s.event t Chip.helloTimeout

/-- COMMAND (R143, R556 to R558, R580). -/
def execCommand (t : Nat) (mseq : Nat) (m : TwinCommand) (s : State) : Host.Outcome State Fault Refusal :=
  s.message t 1 mseq fun c => (c.commandIn s.mem m).tellSelect c

/-- ACK (R557, R572, R582). -/
def execAck (t : Nat) (mseq : Nat) (fwdSeq : Option Nat) (s : State) : Host.Outcome State Fault Refusal :=
  s.message t 1 mseq fun c => c.ackIn fwdSeq

/-- ACK_TIMEOUT (R557). -/
def execAckTimeout (t : Nat) (fwdSeq : Nat) (s : State) : Host.Outcome State Fault Refusal :=
  s.event t fun c => (c.ackTimeout fwdSeq).busRun s.mem

/-- DECISION (R46, R209, R462, R486, R527, R554). -/
def execDecision (t : Nat) (mseq : Nat) (d : TwinDecision) (s : State) : Host.Outcome State Fault Refusal :=
  s.message t 0 mseq fun c => c.decisionIn d

/-- MESSAGE_GAP (R553). -/
def execMessageGap (t : Nat) (stream : Fin 3) (s : State) : Host.Outcome State Fault Refusal := s.event t fun c => c.twnGap stream.val

/-! ### Crema -/

/-- MASK (R564). -/
def execMask (t : Nat) (mseq : Nat) (plane : Fin 2) (epoch : Nat) (mask : List Nat) (s : State) : Host.Outcome State Fault Refusal :=
  s.message t 1 mseq fun c => c.maskIn plane.val epoch mask

/-- CREMA_COMPUTE (R560 to R564). -/
def execCremaCompute (t : Nat) (plane : Fin 2) (crcs : List (Nat × Nat)) (s : State) : Host.Outcome State Fault Refusal :=
  s.event t fun c => c.cremaCompute plane.val crcs

/-- CREMA (R562, R563, R565). -/
def execCrema (t : Nat) (mseq : Nat) (plane : Fin 2) (epoch : Nat) (word : List Nat) (s : State) : Host.Outcome State Fault Refusal :=
  s.message t 1 mseq fun c => c.crema plane.val epoch word

/-- CREMA_MISSING (R562). -/
def execCremaMissing (t : Nat) (plane : Fin 2) (epoch : Nat) (s : State) : Host.Outcome State Fault Refusal :=
  s.event t fun c => c.cremaMissing plane.val epoch

/-- CRC_LIST (R563). -/
def execCrcList (t : Nat) (mseq : Nat) (plane : Fin 2) (epoch : Nat) (crcs : List (Nat × Nat)) (s : State) : Host.Outcome State Fault Refusal :=
  s.message t 1 mseq fun c => c.crcListIn plane.val epoch crcs

/-- EVIDENCE (R566 to R569). -/
def execEvidence (t : Nat) (mseq : Nat) (plane : Fin 2) (epoch : Nat) (recs : List Evid) (diag : Nat) (s : State) :
    Host.Outcome State Fault Refusal :=
  s.message t 1 mseq fun c => c.evidenceIn plane.val epoch recs diag

/-- NO_MATCH_RESYNC (R569). -/
def execNoMatchResync (t : Nat) (plane : Fin 2) (s : State) : Host.Outcome State Fault Refusal := s.event t fun c => c.noMatchResync plane.val

/-! ### Faults, losses and handovers -/

/-- TWN_SELF_FAULT (R570). -/
def execTwnSelfFault (t : Nat) (bit : Fin 5) (s : State) : Host.Outcome State Fault Refusal := s.event t fun c => c.selfFault bit.val

/-- TWN_PEER_LOST (R555, R572, R578). -/
def execTwnPeerLost (t : Nat) (s : State) : Host.Outcome State Fault Refusal := s.event t Chip.peerLost

/-- TWIN_LINK_LOST (R555). -/
def execTwinLinkLost (t : Nat) (s : State) : Host.Outcome State Fault Refusal := s.event t Chip.twnLinkLost

/-- HANDOVER (R572, R581). -/
def execHandover (t : Nat) (mseq : Nat) (epoch : Nat) (cause : Nat) (s : State) : Host.Outcome State Fault Refusal :=
  s.message t 1 mseq fun c => c.handoverIn epoch cause

/-- HANDOVER_INSTANT (R550, R571, R573, R578): a handover asked for that no ACK has committed is answered now (R582). -/
def execHandoverInstant (t : Nat) (s : State) : Host.Outcome State Fault Refusal :=
  s.event t fun c =>
    let c := c.handoverInstant
    c.when (c.ready && c.twn.handover.isNone) (·.handDone)

/-- RESYNC (R574): whatever cause it names, a state copy begins. -/
def execResync (t : Nat) (mseq : Nat) (_ : Nat) (s : State) : Host.Outcome State Fault Refusal :=
  s.message t 1 mseq Chip.resyncIn

/-- STATE (R29, R575). -/
def execState (t : Nat) (mseq : Nat) (seg : TwinSegment) (s : State) : Host.Outcome State Fault Refusal :=
  s.message t 2 mseq fun c => c.stateIn seg

/-- SYNC_CONFIG_DONE (R575, R580, R628). -/
def execSyncConfigDone (t : Nat) (conv : Bool) (s : State) : Host.Outcome State Fault Refusal := s.event t fun c => c.syncConfigDone conv

/-- SYNC_AUDIO_DONE (R575, R576). -/
def execSyncAudioDone (t : Nat) (s : State) : Host.Outcome State Fault Refusal := s.event t Chip.audioDone

/-- COLD_TAKEOVER (R578). -/
def execColdTakeover (t : Nat) (s : State) : Host.Outcome State Fault Refusal := s.event t Chip.coldTakeover

/-- TWIN_RESTART_HOLD_EXPIRY (R580). -/
def execTwinRestartHoldExpiry (t : Nat) (s : State) : Host.Outcome State Fault Refusal := s.event t Chip.heldExpiry

end Sys2Proof.Machine
end

