-- ==== Sys2Proof/Machine/RowsBus.lean ====
section
/-! DEFINITION. The rows of the internal bus, the performance monitor, update and security (chapters 20 and 21). -/

namespace Sys2Proof.Machine

/-- BUS_ACCESS (R250, R251, R257, R262, R272, R588 to R594, R599). -/
def execBusAccess (t : Nat) (a : BusAcc) (s : State) : Host.Outcome State Fault Refusal := s.run t fun c => c.busIssue s.mem a false

/-- LOCKED_SEQUENCE (R596). -/
def execLockedSequence (t : Nat) (a : BusAcc) (s : State) : Host.Outcome State Fault Refusal := s.run t fun c => c.busIssue s.mem a true

/-- BUS_TIMEOUT (R595, R598). -/
def execBusTimeout (t : Nat) (m : Fin 10) (id : Fin 16) (s : State) : Host.Outcome State Fault Refusal :=
  s.event t fun c => (c.busTimeout m.val id.val).busRun s.mem

/-- BUS_LOCK_BREAK (R597): the lock of a target, control-core SRAM (0) or DRAM (1), held for 2 us. -/
def execBusLockBreak (t : Nat) (target : Fin 2) (s : State) : Host.Outcome State Fault Refusal :=
  s.event t fun c =>
    let r := if target.val = 0 then 4 else 7
    (c.when (c.bus.locks.any fun l => l.target == r && l.since + us 2 ≤ c.now) (·.lockBreak r)).busRun s.mem

/-- BUS_MASTER_ABORT (R598): the reset of a bulk DMA engine's port. -/
def execBusMasterAbort (t : Nat) (dma : Fin 2) (s : State) : Host.Outcome State Fault Refusal :=
  s.event t fun c => (c.masterReset (5 + dma.val)).busRun s.mem

/-- LOCKED (R592). -/
def execLocked (t : Nat) (s : State) : Host.Outcome State Fault Refusal := s.event t fun c => c.set BUS_FW_LOCK_LOCKED

/-- FREEZE (R601): PMC_CTL with its USER_EN bit. -/
def execFreeze (t : Nat) (user freeze : Bool) (s : State) : Host.Outcome State Fault Refusal :=
  s.event t fun c => c.pmcWrite PMC_CTL.off (((c.wrB PMC_CTL_FREEZE freeze).wrB PMC_CTL_USER_EN user).get PMC_CTL)

/-- PMC_COUNTER_WRAP (R601). -/
def execPmcCounterWrap (t : Nat) (core : Fin 4) (k : Fin 9) (s : State) : Host.Outcome State Fault Refusal :=
  s.event t fun c => c.pmcWrap core.val k.val

/-- PMC_SAMPLE (R602). -/
def execPmcSample (t : Nat) (core : Fin 4) (addr data : Word) (lat : Nat) (kind : Fin 3) (user err : Bool) (s : State) :
    Host.Outcome State Fault Refusal :=
  s.event t fun c => c.pmcSample core.val addr.toNat data.toNat lat kind.val user err

/-- SMP_CLEAR (R602): a write of PMC_SMP_CTL with CLEAR set. -/
def execSmpClear (t : Nat) (core : Fin 4) (w : Word) (s : State) : Host.Outcome State Fault Refusal :=
  s.event t fun c => c.pmcWrite (PMC_SMP_CTL core.val).off (w.toNat ||| 8)

/-- NME_TAG (R603). -/
def execNmeTag (t : Nat) (engine : Fin 16) (pc : BitVec 16) (lat wait : Nat) (flow : Option (Fin 112)) (s : State) :
    Host.Outcome State Fault Refusal :=
  s.event t fun c => c.nmeTag engine.val pc.toNat lat wait (flow.map Fin.val)

/-- NME_CLEAR (R603): a write of PMC_NME_CTL with CLEAR set. -/
def execNmeClear (t : Nat) (w : Word) (s : State) : Host.Outcome State Fault Refusal :=
  s.event t fun c => c.pmcWrite PMC_NME_CTL.off (w.toNat ||| 2)

/-! ### Update and security -/

/-- UPD_DOWNLOAD_DONE (R140, R621). -/
def execUpdDownloadDone (t : Nat) (ch : Fin 16) (data : Option (List Nat)) (s : State) : Host.Outcome State Fault Refusal :=
  s.run t fun c => c.longEnd ch.val .download fun c w => c.downloadEnd w.req data

/-- UPD_VERIFY_DONE (R622). -/
def execUpdVerifyDone (t : Nat) (ch : Fin 16) (p : Package) (s : State) : Host.Outcome State Fault Refusal :=
  s.run t fun c => c.longEnd ch.val .verify fun c _ => c.verifyEnd p

/-- ATTESTATION_REPORT_DONE (R631, R632). -/
def execAttestationReportDone (t : Nat) (ch : Fin 16) (s : State) : Host.Outcome State Fault Refusal :=
  s.run t fun c => c.longEnd ch.val .attest fun c w => (c, ⟨stOK, 0, 0, c.report (w.req.ws 1 8)⟩)

/-- UPD_SELF_CHECK (R624). -/
def execUpdSelfCheck (t : Nat) (s : State) : Host.Outcome State Fault Refusal := s.run t fun c => c.selfCheck.busRun s.mem

/-- SELF_CHECK_TIMEOUT (R624). -/
def execSelfCheckTimeout (t : Nat) (s : State) : Host.Outcome State Fault Refusal := s.run t fun c => c.selfTimeout.busRun s.mem

/-- HEALTH_EXPIRED (R624, R633). -/
def execHealthExpired (t : Nat) (s : State) : Host.Outcome State Fault Refusal := s.run t fun c => c.healthExpire.busRun s.mem

/-- SERDES_LANE_RESTART (R629). -/
def execSerdesLaneRestart (t : Nat) (s : State) : Host.Outcome State Fault Refusal := s.fwStep t Chip.laneRestart

/-- SERDES_DONE (R629). -/
def execSerdesDone (t : Nat) (s : State) : Host.Outcome State Fault Refusal := s.fwStep t Chip.serdesDone

/-- MICROCODE_SWITCH (R626): TYPE 2, 4 or 5. -/
def execMicrocodeSwitch (t : Nat) (type : Fin 3) (s : State) : Host.Outcome State Fault Refusal :=
  s.event t fun c => c.codeSwitch ([2, 4, 5].getD type.val 2)

end Sys2Proof.Machine
end

