-- ==== Sys2Proof/Machine/Dispatch.lean ====
section
/-! DEFINITION. What each command does to everything but the queue: one arm per row of the table of operations and events. -/

namespace Sys2Proof.Machine

/-- The command's effect, by the meaning of its row. -/
def exec (i : Instr) (s : State) : Host.Outcome State Fault Refusal :=
  match i with
  | .registerWrite t w => Sys2Proof.Machine.execRegisterWrite t w s
  | .ring t ch => Sys2Proof.Machine.execRing t ch s
  | .msixUnmask t v => Sys2Proof.Machine.execMsixUnmask t v s
  | .endpointReset t => Sys2Proof.Machine.execEndpointReset t s
  | .echo t ch => Sys2Proof.Machine.execEcho t ch s
  | .getInfo t ch => Sys2Proof.Machine.execGetInfo t ch s
  | .getEpoch t ch => Sys2Proof.Machine.execGetEpoch t ch s
  | .restartFw t ch => Sys2Proof.Machine.execRestartFw t ch s
  | .deviceReset t ch => Sys2Proof.Machine.execDeviceReset t ch s
  | .setRole t ch => Sys2Proof.Machine.execSetRole t ch s
  | .cancel t ch => Sys2Proof.Machine.execCancel t ch s
  | .clearSticky t ch => Sys2Proof.Machine.execClearSticky t ch s
  | .laneReset t ch => Sys2Proof.Machine.execLaneReset t ch s
  | .peerRelayTimeout t ch => Sys2Proof.Machine.execPeerRelayTimeout t ch s
  | .journalHoldTimeout t ch => Sys2Proof.Machine.execJournalHoldTimeout t ch s
  | .pwrGetStatus t ch => Sys2Proof.Machine.execPwrGetStatus t ch s
  | .pwrSetDomain t ch => Sys2Proof.Machine.execPwrSetDomain t ch s
  | .pwrSetDomainDone t ch => Sys2Proof.Machine.execPwrSetDomainDone t ch s
  | .pwrSetMon t ch => Sys2Proof.Machine.execPwrSetMon t ch s
  | .pwrEnterQuiet t ch => Sys2Proof.Machine.execPwrEnterQuiet t ch s
  | .refGetStatus t ch => Sys2Proof.Machine.execRefGetStatus t ch s
  | .refSetCandidate t ch => Sys2Proof.Machine.execRefSetCandidate t ch s
  | .refSetPlane t ch => Sys2Proof.Machine.execRefSetPlane t ch s
  | .ptpGetStatus t ch => Sys2Proof.Machine.execPtpGetStatus t ch s
  | .ptpGetRecords t ch => Sys2Proof.Machine.execPtpGetRecords t ch s
  | .ptpSetPort t ch => Sys2Proof.Machine.execPtpSetPort t ch s
  | .xptGetRoutes t ch => Sys2Proof.Machine.execXptGetRoutes t ch s
  | .xptGetBudget t ch => Sys2Proof.Machine.execXptGetBudget t ch s
  | .xptTake t ch => Sys2Proof.Machine.execXptTake t ch s
  | .xptSalvo t ch => Sys2Proof.Machine.execXptSalvo t ch s
  | .xptSetDest t ch => Sys2Proof.Machine.execXptSetDest t ch s
  | .xptSetGen t ch => Sys2Proof.Machine.execXptSetGen t ch s
  | .fsyGetStatus t ch => Sys2Proof.Machine.execFsyGetStatus t ch s
  | .fsySetSource t ch => Sys2Proof.Machine.execFsySetSource t ch s
  | .lbsGetStatus t ch => Sys2Proof.Machine.execLbsGetStatus t ch s
  | .lbsSetRecord t ch => Sys2Proof.Machine.execLbsSetRecord t ch s
  | .lbsSetPlayback t ch => Sys2Proof.Machine.execLbsSetPlayback t ch s
  | .dmcGetStatus t ch => Sys2Proof.Machine.execDmcGetStatus t ch s
  | .dmcSetChannel t ch => Sys2Proof.Machine.execDmcSetChannel t ch s
  | .sdiGetStatus t ch => Sys2Proof.Machine.execSdiGetStatus t ch s
  | .sdiSetRx t ch => Sys2Proof.Machine.execSdiSetRx t ch s
  | .sdiSetTx t ch => Sys2Proof.Machine.execSdiSetTx t ch s
  | .fabGetStatus t ch => Sys2Proof.Machine.execFabGetStatus t ch s
  | .fabSetLink t ch => Sys2Proof.Machine.execFabSetLink t ch s
  | .fabSetSlots t ch => Sys2Proof.Machine.execFabSetSlots t ch s
  | .fabLoopback t ch => Sys2Proof.Machine.execFabLoopback t ch s
  | .netGetStats t ch => Sys2Proof.Machine.execNetGetStats t ch s
  | .netSetPort t ch => Sys2Proof.Machine.execNetSetPort t ch s
  | .netSetGcl t ch => Sys2Proof.Machine.execNetSetGcl t ch s
  | .flowGetStatus t ch => Sys2Proof.Machine.execFlowGetStatus t ch s
  | .flowJoin t ch => Sys2Proof.Machine.execFlowJoin t ch s
  | .flowLeave t ch => Sys2Proof.Machine.execFlowLeave t ch s
  | .flowSetSender t ch => Sys2Proof.Machine.execFlowSetSender t ch s
  | .audGetStatus t ch => Sys2Proof.Machine.execAudGetStatus t ch s
  | .audSetShuffle t ch => Sys2Proof.Machine.execAudSetShuffle t ch s
  | .audSetGains t ch => Sys2Proof.Machine.execAudSetGains t ch s
  | .audSetLimiter t ch => Sys2Proof.Machine.execAudSetLimiter t ch s
  | .sapGetStatus t ch => Sys2Proof.Machine.execSapGetStatus t ch s
  | .sapSetPort t ch => Sys2Proof.Machine.execSapSetPort t ch s
  | .mvcGetStatus t ch => Sys2Proof.Machine.execMvcGetStatus t ch s
  | .mvcSetHead t ch => Sys2Proof.Machine.execMvcSetHead t ch s
  | .mvcSetLayers t ch => Sys2Proof.Machine.execMvcSetLayers t ch s
  | .mvcLoadGraphic t ch => Sys2Proof.Machine.execMvcLoadGraphic t ch s
  | .graphicLoadDone t head layer data => Sys2Proof.Machine.execGraphicLoadDone t head layer data s
  | .mvcFlip t ch => Sys2Proof.Machine.execMvcFlip t ch s
  | .twnGetStatus t ch => Sys2Proof.Machine.execTwnGetStatus t ch s
  | .twnHandover t ch => Sys2Proof.Machine.execTwnHandover t ch s
  | .twnSetPolicy t ch => Sys2Proof.Machine.execTwnSetPolicy t ch s
  | .busGetStatus t ch => Sys2Proof.Machine.execBusGetStatus t ch s
  | .busSetAperture t ch => Sys2Proof.Machine.execBusSetAperture t ch s
  | .updGetStatus t ch => Sys2Proof.Machine.execUpdGetStatus t ch s
  | .secAttest t ch => Sys2Proof.Machine.execSecAttest t ch s
  | .updDownload t ch => Sys2Proof.Machine.execUpdDownload t ch s
  | .updVerify t ch => Sys2Proof.Machine.execUpdVerify t ch s
  | .updActivate t ch => Sys2Proof.Machine.execUpdActivate t ch s
  | .updConfirm t ch => Sys2Proof.Machine.execUpdConfirm t ch s
  | .resetNLow t => Sys2Proof.Machine.execResetNLow t s
  | .porstNLow t => Sys2Proof.Machine.execPorstNLow t s
  | .railBelowReset t rail => Sys2Proof.Machine.execRailBelowReset t rail s
  | .firstPowerUp t => Sys2Proof.Machine.execFirstPowerUp t s
  | .resetRelease t => Sys2Proof.Machine.execResetRelease t s
  | .strapSample t straps => Sys2Proof.Machine.execStrapSample t straps s
  | .watchdogExpiry t => Sys2Proof.Machine.execWatchdogExpiry t s
  | .bootRomRun t idOk b0 b1 => Sys2Proof.Machine.execBootRomRun t idOk b0 b1 s
  | .fwReady t conv => Sys2Proof.Machine.execFwReady t conv s
  | .configurationLoad t => Sys2Proof.Machine.execConfigurationLoad t s
  | .mramRefreshRewrite t => Sys2Proof.Machine.execMramRefreshRewrite t s
  | .railBelowWarning t rail => Sys2Proof.Machine.execRailBelowWarning t rail s
  | .railAboveWarning t rail => Sys2Proof.Machine.execRailAboveWarning t rail s
  | .mramHoldRelease t => Sys2Proof.Machine.execMramHoldRelease t s
  | .mramWriteDone t => Sys2Proof.Machine.execMramWriteDone t s
  | .pwrMonCfgWrite t rail value => Sys2Proof.Machine.execPwrMonCfgWrite t rail value s
  | .domainReqWrite t dom req => Sys2Proof.Machine.execDomainReqWrite t dom req s
  | .domainTransitionDone t dom => Sys2Proof.Machine.execDomainTransitionDone t dom s
  | .netWake t port => Sys2Proof.Machine.execNetWake t port s
  | .enter t => Sys2Proof.Machine.execEnter t s
  | .wake t => Sys2Proof.Machine.execWake t s
  | .thermalReading t celsius => Sys2Proof.Machine.execThermalReading t celsius s
  | .loInLoss t => Sys2Proof.Machine.execLoInLoss t s
  | .loInReturn t => Sys2Proof.Machine.execLoInReturn t s
  | .faultScanFrame t scan => Sys2Proof.Machine.execFaultScanFrame t scan s
  | .queueFault t dsts => Sys2Proof.Machine.execQueueFault t dsts s
  | .frameBoundary t plane => Sys2Proof.Machine.execFrameBoundary t plane s
  | .switchingPoint t dst field2 => Sys2Proof.Machine.execSwitchingPoint t dst field2 s
  | .sourceFrameArrival t src f => Sys2Proof.Machine.execSourceFrameArrival t src f s
  | .srcDemoted t src => Sys2Proof.Machine.execSrcDemoted t src s
  | .presentationInstant t src plane clean ue conceal => Sys2Proof.Machine.execPresentationInstant t src plane clean ue conceal s
  | .srcInvalid t src => Sys2Proof.Machine.execSrcInvalid t src s
  | .srcValid t src => Sys2Proof.Machine.execSrcValid t src s
  | .invalidLine t src run => Sys2Proof.Machine.execInvalidLine t src run s
  | .pbPauseExpired t pb => Sys2Proof.Machine.execPbPauseExpired t pb s
  | .storeHalted t plane => Sys2Proof.Machine.execStoreHalted t plane s
  | .channelTraining t chan dimm => Sys2Proof.Machine.execChannelTraining t chan dimm s
  | .channelReady t chan rd wr => Sys2Proof.Machine.execChannelReady t chan rd wr s
  | .trainFailed t chan => Sys2Proof.Machine.execTrainFailed t chan s
  | .refreshBoundary t chan rank mr4 => Sys2Proof.Machine.execRefreshBoundary t chan rank mr4 s
  | .percolatorSweep t chan rank results => Sys2Proof.Machine.execPercolatorSweep t chan rank results s
  | .dramReadEcc t pa dev => Sys2Proof.Machine.execDramReadEcc t pa dev s
  | .patrolScrub t chan found => Sys2Proof.Machine.execPatrolScrub t chan found s
  | .parityAlert t chan inReplay => Sys2Proof.Machine.execParityAlert t chan inReplay s
  | .channelFailed t chan => Sys2Proof.Machine.execChannelFailed t chan s
  | .huntTrialEnd t lane => Sys2Proof.Machine.execHuntTrialEnd t lane s
  | .rxLock t lane rate levelB => Sys2Proof.Machine.execRxLock t lane rate levelB s
  | .rxLos t lane => Sys2Proof.Machine.execRxLos t lane s
  | .cdrMarginCheck t low => Sys2Proof.Machine.execCdrMarginCheck t low s
  | .sdiLineCheck t lane error noEdh => Sys2Proof.Machine.execSdiLineCheck t lane error noEdh s
  | .ancillaryCapture t lane pid tcKind tc badGroups => Sys2Proof.Machine.execAncillaryCapture t lane pid tcKind tc badGroups s
  | .fabSignalLost t lane => Sys2Proof.Machine.execFabSignalLost t lane s
  | .fabSignalPresent t lane => Sys2Proof.Machine.execFabSignalPresent t lane s
  | .verifyDone t lane cdr block crc polInv height => Sys2Proof.Machine.execVerifyDone t lane cdr block crc polInv height s
  | .sweepDone t lane heights clean polInv => Sys2Proof.Machine.execSweepDone t lane heights clean polInv s
  | .laneRetry t lane => Sys2Proof.Machine.execLaneRetry t lane s
  | .laneLockLost t lane => Sys2Proof.Machine.execLaneLockLost t lane s
  | .percolatorVisit t lane height width below above belowCrc aboveCrc => Sys2Proof.Machine.execPercolatorVisit t lane height width below above belowCrc aboveCrc s
  | .percolatorStep t lane => Sys2Proof.Machine.execPercolatorStep t lane s
  | .percPostErr t lane => Sys2Proof.Machine.execPercPostErr t lane s
  | .checkerLock t lane locked errs units => Sys2Proof.Machine.execCheckerLock t lane locked errs units s
  | .laneDozeWake t lane lostLock => Sys2Proof.Machine.execLaneDozeWake t lane lostLock s
  | .dataBlock t lane block => Sys2Proof.Machine.execDataBlock t lane block s
  | .alignmentMarker t lane block => Sys2Proof.Machine.execAlignmentMarker t lane block s
  | .statusBlock t lane block => Sys2Proof.Machine.execStatusBlock t lane block s
  | .linkFormTimeout t link => Sys2Proof.Machine.execLinkFormTimeout t link s
  | .laneUnusable t lane => Sys2Proof.Machine.execLaneUnusable t lane s
  | .reformMarker t lane block => Sys2Proof.Machine.execReformMarker t lane block s
  | .linkWiden t link => Sys2Proof.Machine.execLinkWiden t link s
  | .slotMaskCopy t plane => Sys2Proof.Machine.execSlotMaskCopy t plane s
  | .mergeLine t slot aOk bOk differ run => Sys2Proof.Machine.execMergeLine t slot aOk bOk differ run s
  | .trainingTimeout t port => Sys2Proof.Machine.execTrainingTimeout t port s
  | .netLinkUp t port remoteFault => Sys2Proof.Machine.execNetLinkUp t port remoteFault s
  | .netLinkDown t port cause lock => Sys2Proof.Machine.execNetLinkDown t port cause lock s
  | .frameReceived t port f => Sys2Proof.Machine.execFrameReceived t port f s
  | .frameTransmit t port heads cut => Sys2Proof.Machine.execFrameTransmit t port heads cut s
  | .gclEntryBoundary t port => Sys2Proof.Machine.execGclEntryBoundary t port s
  | .gclTaken t port => Sys2Proof.Machine.execGclTaken t port s
  | .anchorSet t plane => Sys2Proof.Machine.execAnchorSet t plane s
  | .mediaPacketReceived t flow leg p => Sys2Proof.Machine.execMediaPacketReceived t flow leg p s
  | .audioPacketReceived t flow leg p => Sys2Proof.Machine.execAudioPacketReceived t flow leg p s
  | .audioPacketLate t flow seq => Sys2Proof.Machine.execAudioPacketLate t flow seq s
  | .legLost t flow leg => Sys2Proof.Machine.execLegLost t flow leg s
  | .legRestored t flow leg => Sys2Proof.Machine.execLegRestored t flow leg s
  | .packetRelease t sender leg slot => Sys2Proof.Machine.execPacketRelease t sender leg slot s
  | .ancillaryFieldSend t sender sizes => Sys2Proof.Machine.execAncillaryFieldSend t sender sizes s
  | .syncReceived t port seq domain id num err => Sys2Proof.Machine.execSyncReceived t port seq domain id num err s
  | .delayReqSent t port seq err => Sys2Proof.Machine.execDelayReqSent t port seq err s
  | .rxqPop t port => Sys2Proof.Machine.execRxqPop t port s
  | .txrPop t port => Sys2Proof.Machine.execTxrPop t port s
  | .servoSample t port offset filtered freq mpd => Sys2Proof.Machine.execServoSample t port offset filtered freq mpd s
  | .announceReceived t port domain id rank => Sys2Proof.Machine.execAnnounceReceived t port domain id rank s
  | .prefPortRevert t => Sys2Proof.Machine.execPrefPortRevert t s
  | .announceTimeout t port => Sys2Proof.Machine.execAnnounceTimeout t port s
  | .monitorWindowEnd t meas lo => Sys2Proof.Machine.execMonitorWindowEnd t meas lo s
  | .candidateInactive t cand noisy meas => Sys2Proof.Machine.execCandidateInactive t cand noisy meas s
  | .wtrExpiry t plane meas => Sys2Proof.Machine.execWtrExpiry t plane meas s
  | .pullinDone t plane => Sys2Proof.Machine.execPullinDone t plane s
  | .startTimeout t plane delay => Sys2Proof.Machine.execStartTimeout t plane delay s
  | .refPhaseHit t cand => Sys2Proof.Machine.execRefPhaseHit t cand s
  | .referenceEdge t cand displaced meas => Sys2Proof.Machine.execReferenceEdge t cand displaced meas s
  | .loCalibrated t lo => Sys2Proof.Machine.execLoCalibrated t lo s
  | .audioBlock t b => Sys2Proof.Machine.execAudioBlock t b s
  | .portLocked t port rate => Sys2Proof.Machine.execPortLocked t port rate s
  | .portUnlocked t port cause => Sys2Proof.Machine.execPortUnlocked t port cause s
  | .slipped t port kind => Sys2Proof.Machine.execSlipped t port kind s
  | .rejoined t port => Sys2Proof.Machine.execRejoined t port s
  | .headFrameDecision t head => Sys2Proof.Machine.execHeadFrameDecision t head s
  | .autoFlip t head layer => Sys2Proof.Machine.execAutoFlip t head layer s
  | .layerSlated t head layer => Sys2Proof.Machine.execLayerSlated t head layer s
  | .twinModeDecision t peerIn => Sys2Proof.Machine.execTwinModeDecision t peerIn s
  | .unit1WaitExpiry t peerIn => Sys2Proof.Machine.execUnit1WaitExpiry t peerIn s
  | .peerInConflict t => Sys2Proof.Machine.execPeerInConflict t s
  | .hello t mseq role unit mode phase version schema => Sys2Proof.Machine.execHello t mseq role unit mode phase version schema s
  | .helloSend t peerIn => Sys2Proof.Machine.execHelloSend t peerIn s
  | .command t mseq m => Sys2Proof.Machine.execCommand t mseq m s
  | .ack t mseq fwdSeq => Sys2Proof.Machine.execAck t mseq fwdSeq s
  | .ackTimeout t fwdSeq => Sys2Proof.Machine.execAckTimeout t fwdSeq s
  | .decision t mseq d => Sys2Proof.Machine.execDecision t mseq d s
  | .mask t mseq plane epoch mask => Sys2Proof.Machine.execMask t mseq plane epoch mask s
  | .cremaCompute t plane crcs => Sys2Proof.Machine.execCremaCompute t plane crcs s
  | .crema t mseq plane epoch word => Sys2Proof.Machine.execCrema t mseq plane epoch word s
  | .cremaMissing t plane epoch => Sys2Proof.Machine.execCremaMissing t plane epoch s
  | .crcList t mseq plane epoch crcs => Sys2Proof.Machine.execCrcList t mseq plane epoch crcs s
  | .evidence t mseq plane epoch recs diag => Sys2Proof.Machine.execEvidence t mseq plane epoch recs diag s
  | .messageGap t stream => Sys2Proof.Machine.execMessageGap t stream s
  | .noMatchResync t plane => Sys2Proof.Machine.execNoMatchResync t plane s
  | .twnSelfFault t bit => Sys2Proof.Machine.execTwnSelfFault t bit s
  | .twnPeerLost t => Sys2Proof.Machine.execTwnPeerLost t s
  | .twinLinkLost t => Sys2Proof.Machine.execTwinLinkLost t s
  | .handover t mseq epoch cause => Sys2Proof.Machine.execHandover t mseq epoch cause s
  | .handoverInstant t => Sys2Proof.Machine.execHandoverInstant t s
  | .resync t mseq cause => Sys2Proof.Machine.execResync t mseq cause s
  | .state t mseq seg => Sys2Proof.Machine.execState t mseq seg s
  | .syncConfigDone t conv => Sys2Proof.Machine.execSyncConfigDone t conv s
  | .syncAudioDone t => Sys2Proof.Machine.execSyncAudioDone t s
  | .coldTakeover t => Sys2Proof.Machine.execColdTakeover t s
  | .twinRestartHoldExpiry t => Sys2Proof.Machine.execTwinRestartHoldExpiry t s
  | .busAccess t a => Sys2Proof.Machine.execBusAccess t a s
  | .busTimeout t m id => Sys2Proof.Machine.execBusTimeout t m id s
  | .lockedSequence t a => Sys2Proof.Machine.execLockedSequence t a s
  | .busLockBreak t target => Sys2Proof.Machine.execBusLockBreak t target s
  | .busMasterAbort t dma => Sys2Proof.Machine.execBusMasterAbort t dma s
  | .locked t => Sys2Proof.Machine.execLocked t s
  | .freeze t user freeze => Sys2Proof.Machine.execFreeze t user freeze s
  | .pmcCounterWrap t core k => Sys2Proof.Machine.execPmcCounterWrap t core k s
  | .pmcSample t core addr data lat kind user err => Sys2Proof.Machine.execPmcSample t core addr data lat kind user err s
  | .smpClear t core w => Sys2Proof.Machine.execSmpClear t core w s
  | .nmeTag t engine pc lat wait flow => Sys2Proof.Machine.execNmeTag t engine pc lat wait flow s
  | .nmeClear t w => Sys2Proof.Machine.execNmeClear t w s
  | .updDownloadDone t ch data => Sys2Proof.Machine.execUpdDownloadDone t ch data s
  | .updVerifyDone t ch p => Sys2Proof.Machine.execUpdVerifyDone t ch p s
  | .updSelfCheck t => Sys2Proof.Machine.execUpdSelfCheck t s
  | .selfCheckTimeout t => Sys2Proof.Machine.execSelfCheckTimeout t s
  | .healthExpired t => Sys2Proof.Machine.execHealthExpired t s
  | .serdesLaneRestart t => Sys2Proof.Machine.execSerdesLaneRestart t s
  | .serdesDone t => Sys2Proof.Machine.execSerdesDone t s
  | .microcodeSwitch t type => Sys2Proof.Machine.execMicrocodeSwitch t type s
  | .netSignalDetected t port => Sys2Proof.Machine.execNetSignalDetected t port s
  | .netSignalLost t port lock => Sys2Proof.Machine.execNetSignalLost t port lock s
  | .autoNegotiationDone t port => Sys2Proof.Machine.execAutoNegotiationDone t port s
  | .linkTrainingDone t port pol => Sys2Proof.Machine.execLinkTrainingDone t port pol s
  | .sapPortFrame t port bclk rx tx => Sys2Proof.Machine.execSapPortFrame t port bclk rx tx s
  | .attestationReportDone t ch => Sys2Proof.Machine.execAttestationReportDone t ch s
  | .d3hotTransition t d3 => Sys2Proof.Machine.execD3hotTransition t d3 s
  | .helloTimeout t => Sys2Proof.Machine.execHelloTimeout t s
  | .igmpMembershipReport t port => Sys2Proof.Machine.execIgmpMembershipReport t port s
  | .trstNLow t => Sys2Proof.Machine.execTrstNLow t s

end Sys2Proof.Machine
end

