-- ==== Sys2Proof/Machine/Kloar.lean ====
section
/-! DEFINITION. What the fabric lanes send (chapters 10 and 11): the block counter of a link and what each position of it carries, the markers and
status blocks, the striping of the stream over lanes and slots, and the symbols and line levels of a block. All of it is a function of the state. -/

namespace Sys2Proof.Machine

/-! ### Positions (R337, R340, R344) -/

/-- The block position of a link's lanes at an instant: blocks of 640 bits at 53.125 Gb/s since the counter began. -/
def Chip.blockAt (c : Chip) (l t : Nat) : Nat := (t - (c.link l).bornAt) * 425 / 15360

/-- The positions up to `j` that markers and status blocks take. -/
def fixedBefore (j : Nat) : Nat := (j + 16383) / 16384 + (j + 127) / 256

/-- What position `j` of a lane's block counter carries. -/
inductive Slice where
  | marker | status
  /-- A position of the link's stream on this lane, the `k`-th free one. -/
  | free (k : Nat)
  deriving DecidableEq, Repr

/-- The kind of a block position (R340). -/
def sliceOf (j : Nat) : Slice :=
  if j % 16384 = 0 then .marker else if j % 256 = 128 then .status else .free (j - fixedBefore j)

/-- The rank of a lane among the lanes in use, ascending, and the lane in use of a rank. -/
def rankOf (use i : Nat) : Nat := ((List.range i).filter (bit use)).length
def laneOf (use r : Nat) : Nat := ((List.range 4).filter (bit use)).getD r 0

/-- The carried slots in ascending order. -/
def slotsOf (mask : Nat) : List Nat := (List.range 16).filter (bit mask)

/-- The stream position that free position `k` of a lane has, where the stream of a direction began at free position `k0` (R344). -/
def streamPos (use i k k0 : Nat) : Nat := (k - k0) * bitCount use + rankOf use i

/-- The lane, the slot and the SSEQ of a stream position (R338, R344). -/
def streamLane (use pos : Nat) : Nat := laneOf use (pos % max 1 (bitCount use))
def streamSlot (mask pos : Nat) : Nat := (slotsOf mask).getD (pos % max 1 (bitCount mask)) 0
def streamSeq (mask pos : Nat) : Nat := pos / max 1 (bitCount mask) % 16

/-! ### Blocks (R337 to R342) -/

/-- A block of a type with its other header bits and its payload, the CRC added. -/
def mkBlock (type header payload : Nat) : Nat :=
  let v := (type * 2 ^ 14 + header % 2 ^ 14) * 2 ^ 608 + payload % 2 ^ 608
  v * 2 ^ 16 + crc16 624 v

/-- The payload of a marker on link lane `i`, the `k`-th sent on the link (R341). -/
def Chip.markerPayload (c : Chip) (l i k : Nat) : Nat :=
  let x := c.link l
  let use := if x.tx = .up then x.txUse else 0
  let mask := if x.tx = .up then x.txMask else 0
  polarity * 2 ^ 544 + k % 65536 * 2 ^ 528 + c.rd (FAB_CFG.fld 0 24) * 2 ^ 504 + l * 2 ^ 498 + i * 2 ^ 496
    + c.rd (FAB_LK_CFG_WIDTH l) * 2 ^ 494 + widthCode (bitCount use) * 2 ^ 492 + use * 2 ^ 488 + mask * 2 ^ 472 + c.rxUp l * 2 ^ 468
    + c.linkPlane l * 2 ^ 467 + (if c.role = 1 then 1 else 2) * 2 ^ 465 + bits (c.get TOP_STRAP) 7 1 * 2 ^ 464

/-- The alignment marker at position `j` (R341). -/
def Chip.alignMarker (c : Chip) (l i j : Nat) : Nat := mkBlock 2 0 (c.markerPayload l i (j / 16384))

/-- The reform marker sent after `j` positions (R341, R348). -/
def Chip.reformMarker (c : Chip) (l i j : Nat) : Nat := mkBlock 3 0 (c.markerPayload l i (j / 16384 + 1))

/-- The status block of a link (R342). -/
def Chip.statusBlock (c : Chip) (l : Nat) : Nat :=
  let x := c.link l
  mkBlock 1 0 (c.rxUp l * 2 ^ 604 + (if x.tx = .up then x.txUse else 0) * 2 ^ 600)

/-- A data block of a link slot with its words (R338, R339). -/
def dataBlock (slot seq : Nat) (words : List Nat) : Nat :=
  let ws := words.take 60
  mkBlock 0 (slot * 2 ^ 10 + ws.length * 2 ^ 4 + seq) (ws.zipIdx.foldl (fun a e => a + e.1 % 1024 * 2 ^ (598 - 10 * e.2)) 0)

/-! ### Transmit directions (R307, R326, R327, R331) -/

/-- What a transmit direction sends. -/
inductive Sends where
  /-- Both pins at common mode, without transitions: DOZE or OFF, or a part without fabric. -/
  | nothing
  /-- A test pattern by its code, or the Kloar idle pattern as code 7. -/
  | pattern (code : Nat)
  /-- The received symbols, retransmitted. -/
  | farEnd
  /-- A marker or a status block. -/
  | block (b : Nat)
  /-- The next data block of a link slot, with its SSEQ. -/
  | data (slot seq : Nat)
  deriving DecidableEq, Repr

/-- What position `j` of a configured link lane carries: the stream on a lane in use of a direction that is up, a status block elsewhere (R340). -/
def Chip.linkSends (c : Chip) (l n j : Nat) : Sends :=
  let x := c.link l
  let i := n - l
  match sliceOf j with
  | .marker => .block (c.alignMarker l i j)
  | .status => .block (c.statusBlock l)
  | .free k =>
    if x.tx = .up ∧ bit x.txUse i ∧ x.txMask ≠ 0 then
      let j0 := c.blockAt l x.formAt + 1
      let pos := streamPos x.txUse i k (j0 - fixedBefore j0)
      .data (streamSlot x.txMask pos) (streamSeq x.txMask pos)
    else .block (c.statusBlock l)

/-- What a fabric transmit direction sends at an instant (R307). -/
def Chip.laneSends (c : Chip) (n t : Nat) : Sends :=
  if c.role = 0 ∨ !(c.domOn (domFabTx n)) then .nothing
  else if c.rd (FAB_LN_TEST_MODE n) = 3 then .farEnd
  else if c.rd (FAB_LN_TEST_TX_PATTERN n) ≠ 0 then .pattern (c.rd (FAB_LN_TEST_TX_PATTERN n))
  else match c.linkOf n with
    | some l => c.linkSends l n (c.blockAt l t)
    | none => .pattern 7

/-- The line levels of a block on a lane, from the level it sent last (R303, R304). -/
def Chip.blockLevels (c : Chip) (n b : Nat) : List Int := (precodeAll (c.lane n).txLevel (symbols b)).map lineLevel

/-- The symbol values a lane recovers from received levels: each level k as 3 − k where its pair is reversed, decoded from the level before (R304,
R305); the first after acquisition is discarded. -/
def Chip.received (c : Chip) (n : Nat) (levels : List Nat) : List Nat :=
  let ps := if c.on (lnPolInv n) then levels.map (3 - ·) else levels
  let gs := decodeAll (c.lane n).rxLevel ps
  if (c.lane n).rxFresh then gs.drop 1 else gs

/-! ### Test patterns (R326) -/

/-- The bits of a shift register of `w` bits whose next bit is the sum of its taps (bit i the bit sent i + 1 before), from a start value. -/
def prbsBits (w taps : Nat) : Nat → Nat → List Nat
  | 0, _ => []
  | n + 1, s =>
    let b := bitCount (s &&& taps) % 2
    b :: prbsBits w taps n ((2 * s + b) % 2 ^ w)

/-- Pairs of bits as symbol values, the first bit the more significant (R303). -/
def pairs : List Nat → List Nat
  | a :: b :: r => gray (2 * a + b) :: pairs r
  | _ => []

/-- The first `n` symbol values of a test pattern by its code, from a start value of its register: PRBS-7 is x^7 + x^6 + 1, PRBS-31 x^31 + x^28 + 1,
PRBS-13Q of Clause 120 x^13 + x^12 + x^2 + x + 1 (log entry 71). SSPRQ and code 7 are not formed of one register. -/
def patternSymbols (code n start : Nat) : List Nat :=
  match code with
  | 1 => pairs (prbsBits 7 0x60 (2 * n) start)
  | 2 => pairs (prbsBits 13 0x1803 (2 * n) start)
  | 3 => pairs (prbsBits 31 0x48000000 (2 * n) start)
  | 4 => pairs (prbsBits 31 0x48000000 (2 * n) start)
  | 6 => (List.range n).map fun k => if k % 32 < 16 then 0 else 3
  | _ => (List.range n).map fun k => Config.ssprq k

/-! ### Slots (R159, R343) -/

/-- The slots that a route to FAB_OUT[s] drives with its words: one of each plane in leaf role. -/
def Chip.slotsDriven (c : Chip) (s : Nat) : List Nat :=
  if c.role = 1 then (if s < 96 then [s, s + 96] else []) else [s]

/-- The destination whose words a link slot carries. -/
def Chip.slotDest (c : Chip) (l s : Nat) : Nat := 48 + c.fabIdx (4 * l + s)

end Sys2Proof.Machine
end

