-- ==== Sys2Proof/Safety.lean ====
section
/-! DEFINITION. What counts as a safe run of the part: the form its state keeps between commands; and how to say what a command may
change. -/

namespace Sys2Proof.Machine

/-- Between commands no write to memory and no ring entry is outstanding. -/
def Chip.quiescent (c : Chip) : Prop := c.out = [] ∧ c.evts = 0

/-- The form every step keeps: addressed memory is in its canonical form, and nothing of a command is left undone. -/
def State.Inv (s : State) : Prop := s.mem.wf = true ∧ s.chip.quiescent

/-- A run of the part from a state never stops. -/
def State.runsOn (s : State) (n : Nat) : Prop := ∃ s', Host.Core.run Sys2Proof.core n s = .next s'

/-! ### What a command may change -/

/-- The parts of the chip beside the register window; `mem` stands for writes to addressed memory other than entries of the event ring. -/
inductive Part where
  | now | free | mem | clock | host | fw | planes | srcs | dsts | sent | pwr | dmc | lbs | sdi | lanes | links | diffAt | nets | flows
  | senders | ptp | ref | aud | sap | heads | twn | bus | pmcAt | upd
  deriving DecidableEq, Repr

/-- The write puts one entry into the event ring (R121, R151). -/
def MemOp.inRing : MemOp → Bool
  | .words a ws => decide (ringBase ≤ a) && decide (a + 4 * ws.length ≤ ringBase + 4096)
  | _ => false

/-- Two chips agree on a part; on `mem`: the second has no write to memory outstanding that the first has not, but entries of the event
ring. -/
def Part.same : Part → Chip → Chip → Prop
  | .now, c, d => d.now = c.now
  | .free, c, d => d.free = c.free
  | .mem, c, d => ∃ ops, d.out = c.out ++ ops ∧ ops.all MemOp.inRing = true
  | .clock, c, d => d.clock = c.clock
  | .host, c, d => d.host = c.host
  | .fw, c, d => d.fw = c.fw
  | .planes, c, d => d.planes = c.planes
  | .srcs, c, d => d.srcs = c.srcs
  | .dsts, c, d => d.dsts = c.dsts
  | .sent, c, d => d.sent = c.sent
  | .pwr, c, d => d.pwr = c.pwr
  | .dmc, c, d => d.dmc = c.dmc
  | .lbs, c, d => d.lbs = c.lbs
  | .sdi, c, d => d.sdi = c.sdi
  | .lanes, c, d => d.lanes = c.lanes
  | .links, c, d => d.links = c.links
  | .diffAt, c, d => d.diffAt = c.diffAt
  | .nets, c, d => d.nets = c.nets
  | .flows, c, d => d.flows = c.flows
  | .senders, c, d => d.senders = c.senders
  | .ptp, c, d => d.ptp = c.ptp
  | .ref, c, d => d.ref = c.ref
  | .aud, c, d => d.aud = c.aud
  | .sap, c, d => d.sap = c.sap
  | .heads, c, d => d.heads = c.heads
  | .twn, c, d => d.twn = c.twn
  | .bus, c, d => d.bus = c.bus
  | .pmcAt, c, d => d.pmcAt = c.pmcAt
  | .upd, c, d => d.upd = c.upd

/-- From one chip to another, registers change only on the listed pages (a page is an offset divided by 2^16; every block's registers lie
on one page), and only the listed parts change. -/
structure Chip.Within (pages : List Nat) (parts : List Part) (c d : Chip) : Prop where
  cell : ∀ o, o / 65536 ∉ pages → d.regs.find o = c.regs.find o
  part : ∀ k, k ∉ parts → k.same c d

/-- What a command at instant `t` leaves as it was: from the chip as the command finds it, registers off the listed pages and parts not listed
(besides the writes to memory carried out and the interrupt messages sent); every byte of memory outside the event ring; and the queue. -/
structure State.Frame (pages : List Nat) (parts : List Part) (t : Nat) (s s' : State) : Prop where
  chip : Chip.Within pages (.mem :: .host :: parts) (s.chipAt t) s'.chip
  ring : ∀ a, a < ringBase ∨ ringBase + 4096 ≤ a → s'.mem.read a = s.mem.read a
  queue : s'.pending = s.pending

/-- A command at instant `t` answers a next state and leaves the rest as it was. -/
def State.keeps (s : State) (pages : List Nat) (parts : List Part) (t : Nat) (i : Instr) : Prop :=
  ∃ s', exec i s = .next s' ∧ State.Frame pages parts t s s'

/-- What a request row on a channel leaves as it was: from the chip as the command finds it, registers off the listed pages and parts not
listed; every byte of memory outside the response buffer of the channel and the event ring; and the queue. -/
structure State.ReqFrame (pages : List Nat) (parts : List Part) (t ch : Nat) (s s' : State) : Prop where
  chip : Chip.Within pages (.mem :: .host :: parts) (s.chipAt t) s'.chip
  bytes : ∀ a, (a < ringBase ∨ ringBase + 4096 ≤ a) → (a < respBuf ch ∨ respBuf ch + 4096 ≤ a) → s'.mem.read a = s.mem.read a
  queue : s'.pending = s.pending

/-- A request row answers a next state and leaves the rest as it was. -/
def State.asked (s : State) (pages : List Nat) (parts : List Part) (t ch : Nat) (i : Instr) : Prop :=
  ∃ s', exec i s = .next s' ∧ State.ReqFrame pages parts t ch s s'

/-- The responses in the history fit their buffer. -/
def Chip.histFits (c : Chip) : Bool := c.fw.hist.all fun h => h.resp.payload.length ≤ 1020

/-- A kind of change that the take queue holds (R35, R83): those of the requests that bear an epoch, and of a configuration load. -/
def Kind.bears : Kind → Bool
  | .route | .dest | .gen | .record | .playback | .fabSlot | .sender | .shuf | .embed | .gain | .mixin | .mixout | .engine | .vlayer | .glayer
  | .colour | .flip => true
  | _ => false

/-! ### Host writes -/

/-- A register written over the bus is stored by its access types and has no effect of its own: no doorbell (R130), domain request (R103), monitor
level (R93), QUIET control (R118), record control of a PTP port (R438), performance register (R608), status of a master port, which follows the port
(R607), nor, once locked, a register of the firewall (R592). -/
def Chip.storesOnly (c : Chip) (off : Nat) : Bool :=
  !(0x10100 ≤ off && off < 0x10180 && off % 8 == 0) && !(0x20400 ≤ off && off < 0x207E0) && !(0x20040 ≤ off && off < 0x20060)
    && off != PWR_QUIET_CTL.off && off != (PTP_REC_CTL 0).off && off != (PTP_REC_CTL 1).off && !(0x7C0000 ≤ off && off < 0x800000)
    && (List.range 10).all (fun m => off != (BUS_MST_STAT m).off) && !(isFirewall off && c.on BUS_FW_LOCK_LOCKED)

/-! ### Requests -/

/-- The request of a channel is next in the doorbell order and passes steps 1 to 6 of R135; it is `r`. -/
def State.asks (s : State) (t ch : Nat) (r : Req) : Prop :=
  let c := s.chipAt t
  (∃ since, c.nextBell = some (ch, since)) ∧ c.on (MBX_CH_STAT_BUSY ch) = true ∧ reqVersion s.mem ch = 1 ∧ parseReq s.mem ch = r
    ∧ r.chan = ch ∧ (c.fw.hist.find? fun h => h.chan == ch && h.seq == r.seq) = none ∧ c.formFails r = none

/-- Request `r` with an opcode is next on a channel, with no flags and with word 3 as given, and no access of the bus is outstanding. -/
def State.asksFor (s : State) (t ch op epoch : Nat) (r : Req) : Prop :=
  s.Inv ∧ s.asks t ch r ∧ r.opcode = op ∧ r.flags = 0 ∧ r.epoch = epoch ∧ (s.chipAt t).bus.outs = []

/-- Request `r` with an opcode is next on a channel and its turn has come (R131): it passes steps 1 to 6 of R135, is for this part and not CHECK_ONLY;
the part is not in paired operation (step 7), no schema refusal stands (R628), MRAM writes are not held (R87), and no access of the bus is
outstanding. -/
def State.mayAsk (s : State) (t ch op : Nat) (r : Req) : Prop :=
  let c := s.chipAt t
  s.Inv ∧ s.asks t ch r ∧ r.opcode = op ∧ r.checkOnly = false ∧ r.targetPeer = false ∧ c.twnMode = 0 ∧ c.upd.refused = false
    ∧ c.mramHeld = false ∧ c.bus.outs = []

/-- Changes for epochs and changes at once raise no load above its budget (R36, R37), and the take queue has room for them (R175). -/
def Chip.hasRoom (c : Chip) (pends : List Pend) (nows : List Change) : Bool :=
  c.admits { pends := pends, nows := nows }
    && ((c.each pends Chip.queueChange).queueFill ≤ 4096 || !(pends.any fun q => q.change.kind == .route))

/-- The changes of a request wait in the take queue for their epoch (R35, R138). -/
def State.queues (s : State) (r : Req) (xs : List (Nat × Nat × Change)) : Prop :=
  xs.all (fun x => s.chip.fw.queue.any fun q => q.plane == x.1 && q.epoch == x.2.1 && q.change == x.2.2 && q.chan == r.chan && q.seq == r.seq && q.host) = true

/-- The part takes message `m` of stream `k` from its peer: twin operation is enabled and the message is the first of its MSEQ (R553). -/
def Chip.hears (c : Chip) (k m : Nat) : Bool :=
  let r := c.twn.rx.getD k (0, [])
  c.on TWN_CFG_ENABLE && r.1 ≤ m && !(r.2.any fun e => e.1 == m)

/-- Request `r` waits for the end of a long operation of kind `l` (R131): its channel stays BUSY and is served no other request meanwhile. -/
def State.waits (s : State) (r : Req) (l : Long) : Prop :=
  (s.chip.waiting r.chan).any (fun w => w.long == some l && w.req == r) = true ∧ s.chip.on (MBX_CH_STAT_BUSY r.chan) = true

/-- Request `r` has been answered with response `x` (R130, R133, R136): it stands in the response buffer of its channel and in the history,
BUSY is 0 and RESP_READY is 1. -/
def State.answered (s : State) (r : Req) (x : Resp) : Prop :=
  s.mem.wordsAt (respBuf r.chan) (4 + x.payload.length)
      = ([r.head, x.status + x.flags * 2 ^ 16, 4 * x.payload.length, x.epoch] ++ x.payload).map (· % 2 ^ 32)
    ∧ s.chip.on (MBX_CH_STAT_BUSY r.chan) = false ∧ s.chip.on (MBX_CH_STAT_RESP_READY r.chan) = true
    ∧ (s.chip.fw.hist.head?.map fun h => (h.chan, h.seq, h.opcode, h.len, h.resp)) = some (r.chan, r.seq, r.opcode, r.len, x)
    ∧ s.chip.fw.waits.all (fun w => w.req.chan != r.chan) = true ∧ s.chip.fw.order.all (fun o => o.1 != r.chan) = true

end Sys2Proof.Machine
end

