-- ==== Sys2Proof/Certificates/Slice0/Obligations.lean ====
section
/-! DEFINITION. The statements about the part, in the order of the spec's chapters. `s.chipAt t` is the part as a command at instant `t`
finds it; a statement about a row says what the row answers there. Every row of the table completes under some statement. -/

section
open Sys2Proof Sys2Proof.Machine

/-- Log entry 5, and the block's form: a command at the front of the queue runs on the state with the rest of the queue. -/
def Obligations.StepRunsFront : Prop :=
  ∀ (i : Instr) (s : State), Sys2Proof.Machine.step { s with pending := i :: s.pending } = Sys2Proof.Machine.exec i s

/-- The model's choice (log entry 5): with no command waiting the part idles. -/
def Obligations.IdleStep : Prop := ∀ s : State, s.pending = [] → Sys2Proof.Machine.step s = .next s

/-- The part right after its first power-up: every register at its reset value but PWR_POR_SOURCE, which reads COLD (R92); nothing in memory; no
command waits. -/
def Obligations.ResetState : Prop :=
  State.reset.pending = [] ∧ State.reset.mem = [] ∧ State.reset.chip.get PWR_POR_SOURCE = 0x200
  ∧ ∀ r : Reg, r.off ≠ PWR_POR_SOURCE.off → State.reset.chip.get r = r.dflt

/-- Reset leaves memory in its canonical form and nothing of a command undone. -/
def Obligations.ResetInv : Prop := State.reset.Inv

/-- Every step keeps the invariant, and never stops: it answers a next state in which memory is in canonical form and nothing of the command is left
undone. -/
def Obligations.StepKeepsInv : Prop :=
  ∀ s : State, s.Inv → ∃ s', Sys2Proof.Machine.step s = .next s' ∧ s'.Inv

/-- A command changes the queue in no way of its own: every command answers a next state with the same commands waiting. -/
def Obligations.ExecKeepsQueue : Prop :=
  ∀ (i : Instr) (s : State), ∃ s', Sys2Proof.Machine.exec i s = .next s' ∧ s'.pending = s.pending

/-- A run of any length from any state goes on. -/
def Obligations.RunsOn : Prop := ∀ (n : Nat) (s : State), s.runsOn n

/-- The frame of the power, reset and monitor events: each command named answers a next state and leaves registers off its pages, the parts of the
working state not listed for it, every byte of memory outside the event ring, and the waiting commands as the command found them. -/
def Obligations.PowerFrame : Prop :=
  (∀ (s : State) (t : Nat) (v : Option (Fin 32)), s.Inv →
    s.keeps [] [] t (.msixUnmask t v)) ∧
  (∀ (s : State) (t : Nat) (d3 : Bool), s.Inv →
    s.keeps [] [] t (.d3hotTransition t d3)) ∧
  (∀ (s : State) (t : Nat), s.Inv →
    s.keeps [] [.pwr] t (.resetRelease t)) ∧
  (∀ (s : State) (t : Nat) (straps : BitVec 8), s.Inv →
    s.keeps [0] [.pwr] t (.strapSample t straps)) ∧
  (∀ (s : State) (t : Nat), s.Inv →
    s.keeps [] [.pwr] t (.mramRefreshRewrite t)) ∧
  (∀ (s : State) (t : Nat) (rail : Fin 8), s.Inv →
    s.keeps [0, 1, 2, 112] [.sent, .twn] t (.railBelowWarning t rail)) ∧
  (∀ (s : State) (t : Nat) (rail : Fin 8), s.Inv →
    s.keeps [2] [] t (.railAboveWarning t rail)) ∧
  (∀ (s : State) (t : Nat), s.Inv →
    s.keeps [] [.pwr, .upd] t (.mramWriteDone t)) ∧
  (∀ (s : State) (t : Nat) (rail : Fin 8) (value : Word), s.Inv →
    s.keeps [2] [] t (.pwrMonCfgWrite t rail value)) ∧
  (∀ (s : State) (t : Nat) (port : Fin 2), s.Inv →
    s.keeps [1, 2, 64] [.pwr] t (.netWake t port)) ∧
  (∀ (s : State) (t : Nat) (celsius : Int), s.Inv →
    s.keeps [2] [.pwr] t (.thermalReading t celsius)) ∧
  (∀ (s : State) (t : Nat), s.Inv →
    s.keeps [1, 3] [.planes, .ref] t (.loInLoss t)) ∧
  (∀ (s : State) (t : Nat), s.Inv →
    s.keeps [3] [.ref] t (.loInReturn t)) ∧
  (∀ (s : State) (t : Nat) (scan : BitVec 144), s.Inv →
    s.keeps [1, 8, 12, 32, 64] [.srcs, .pwr, .sdi] t (.faultScanFrame t scan)) ∧
  (∀ (s : State) (t : Nat) (dsts : List (Fin 384)), s.Inv →
    s.keeps [0, 1, 112] [.dsts, .sent, .twn] t (.queueFault t dsts)) ∧
  (∀ (s : State) (t : Nat), s.Inv →
    s.keeps [] [] t (.trstNLow t))

/-- The frame of the events of sources and playback: each command named answers a next state and leaves registers off its pages, the parts of the
working state not listed for it, every byte of memory outside the event ring, and the waiting commands as the command found them. The frame of
the events of the memory channels: each command named answers a next state and leaves registers off its pages, the parts of the working state not
listed for it, every byte of memory outside the event ring, and the waiting commands as the command found them. -/
def Obligations.FramesAndMemoryFrame : Prop :=
  ((∀ (s : State) (t : Nat) (src : Fin 332) (f : FrameIn), s.Inv →
    s.keeps [1, 8, 12, 32, 64, 96] [.srcs] t (.sourceFrameArrival t src f)) ∧
  (∀ (s : State) (t : Nat) (src : Fin 332), s.Inv →
    s.keeps [1, 12] [.srcs] t (.srcDemoted t src)) ∧
  (∀ (s : State) (t : Nat) (src : Fin 332), s.Inv →
    s.keeps [1, 8, 12, 64, 96] [.srcs] t (.srcInvalid t src)) ∧
  (∀ (s : State) (t : Nat) (src : Fin 332) (run : Bool), s.Inv →
    s.keeps [1, 8, 12, 64] [.srcs] t (.invalidLine t src run)) ∧
  (∀ (s : State) (t : Nat) (pb : Fin 48), s.Inv →
    s.keeps [1, 16] [] t (.pbPauseExpired t pb)) ∧
  (∀ (s : State) (t : Nat) (plane : Fin 2), s.Inv →
    s.keeps [1, 8, 12, 16, 64] [.srcs, .lbs] t (.storeHalted t plane)))
  ∧ ((∀ (s : State) (t : Nat) (chan : Fin 8) (dimm : Option Dimm), s.Inv →
    s.keeps [2, 20] [.pwr, .dmc] t (.channelTraining t chan dimm)) ∧
  (∀ (s : State) (t : Nat) (chan : Fin 8) (rd wr : List (BitVec 14)), s.Inv →
    s.keeps [1, 2, 20] [.pwr, .dmc] t (.channelReady t chan rd wr)) ∧
  (∀ (s : State) (t : Nat) (chan : Fin 8), s.Inv →
    s.keeps [1, 2, 20] [.pwr, .dmc] t (.trainFailed t chan)) ∧
  (∀ (s : State) (t : Nat) (chan : Fin 8) (rank : Fin 2) (mr4 : Option Bool), s.Inv →
    s.keeps [1, 20] [.dmc] t (.refreshBoundary t chan rank mr4)) ∧
  (∀ (s : State) (t : Nat) (chan : Fin 8) (rank : Fin 2) (results : List (BitVec 33)), s.Inv →
    s.keeps [1, 20] [.dmc] t (.percolatorSweep t chan rank results)) ∧
  (∀ (s : State) (t : Nat) (pa : BitVec 41) (dev : Option (Fin 10)), s.Inv →
    s.keeps [1, 20, 112] [.dmc, .twn] t (.dramReadEcc t pa dev)) ∧
  (∀ (s : State) (t : Nat) (chan : Fin 8) (found : Option (Option (Fin 10))), s.Inv →
    s.keeps [1, 20] [.dmc] t (.patrolScrub t chan found)) ∧
  (∀ (s : State) (t : Nat) (chan : Fin 8) (inReplay : Bool), s.Inv →
    s.keeps [20] [.dmc] t (.parityAlert t chan inReplay)) ∧
  (∀ (s : State) (t : Nat) (chan : Fin 8), s.Inv →
    s.keeps [0, 1, 8, 16, 20, 112] [.sent, .dmc, .lbs, .twn] t (.channelFailed t chan)))

/-- The frame of the SDI events: each command named answers a next state and leaves registers off its pages, the parts of the working state not
listed for it, every byte of memory outside the event ring, and the waiting commands as the command found them. The frame of the lane events:
each command named answers a next state and leaves registers off its pages, the parts of the working state not listed for it, every byte of
memory outside the event ring, and the waiting commands as the command found them. -/
def Obligations.SdiAndLaneFrame : Prop :=
  ((∀ (s : State) (t : Nat) (lane : Fin 48), s.Inv →
    s.keeps [] [.sdi] t (.huntTrialEnd t lane)) ∧
  (∀ (s : State) (t : Nat) (lane : Fin 48) (rate : Fin 10) (levelB : Bool), s.Inv →
    s.keeps [1, 8, 12, 32, 64] [.srcs] t (.rxLock t lane rate levelB)) ∧
  (∀ (s : State) (t : Nat) (lane : Fin 48), s.Inv →
    s.keeps [1, 8, 12, 32, 64] [.srcs, .sdi] t (.rxLos t lane)) ∧
  (∀ (s : State) (t : Nat) (low : BitVec 48), s.Inv →
    s.keeps [32] [] t (.cdrMarginCheck t low)) ∧
  (∀ (s : State) (t : Nat) (lane : Fin 48) (error noEdh : Bool), s.Inv →
    s.keeps [32] [.srcs] t (.sdiLineCheck t lane error noEdh)) ∧
  (∀ (s : State) (t : Nat) (lane : Fin 48) (pid : Option Word) (tcKind : Fin 3) (tc : Word) (badGroups : BitVec 8), s.Inv →
    s.keeps [1, 32] [.sdi] t (.ancillaryCapture t lane pid tcKind tc badGroups)))
  ∧ ((∀ (s : State) (t : Nat) (lane : Fin 50), s.Inv →
    s.keeps [0, 1, 48, 112] [.lanes, .links] t (.fabSignalLost t lane)) ∧
  (∀ (s : State) (t : Nat) (lane : Fin 50), s.Inv →
    s.keeps [48, 112] [.lanes] t (.fabSignalPresent t lane)) ∧
  (∀ (s : State) (t : Nat) (lane : Fin 50) (cdr block crc polInv : Bool) (height : BitVec 8), s.Inv →
    s.keeps [0, 1, 48, 112] [.lanes, .links] t (.verifyDone t lane cdr block crc polInv height)) ∧
  (∀ (s : State) (t : Nat) (lane : Fin 50) (heights : List (BitVec 8)) (clean : List Bool) (polInv : Bool), s.Inv →
    s.keeps [0, 1, 48, 112] [.lanes, .links] t (.sweepDone t lane heights clean polInv)) ∧
  (∀ (s : State) (t : Nat) (lane : Fin 50), s.Inv →
    s.keeps [48, 112] [.lanes] t (.laneRetry t lane)) ∧
  (∀ (s : State) (t : Nat) (lane : Fin 50), s.Inv →
    s.keeps [0, 1, 48, 112] [.lanes, .links] t (.laneLockLost t lane)) ∧
  (∀ (s : State) (t : Nat) (lane : Fin 50) (height width below above : BitVec 8) (belowCrc aboveCrc : Bool), s.Inv →
    s.keeps [1, 48, 112] [.lanes] t (.percolatorVisit t lane height width below above belowCrc aboveCrc)) ∧
  (∀ (s : State) (t : Nat) (lane : Fin 50), s.Inv →
    s.keeps [48, 112] [.lanes] t (.percolatorStep t lane)) ∧
  (∀ (s : State) (t : Nat) (lane : Fin 50), s.Inv →
    s.keeps [1, 48, 112] [.lanes] t (.percPostErr t lane)) ∧
  (∀ (s : State) (t : Nat) (lane : Fin 48) (locked : Bool) (errs units : Nat), s.Inv →
    s.keeps [48] [] t (.checkerLock t lane locked errs units)) ∧
  (∀ (s : State) (t : Nat) (lane : Fin 50) (lostLock : Bool), s.Inv →
    s.keeps [0, 1, 48, 112] [.lanes, .links] t (.laneDozeWake t lane lostLock)))

/-- The frame of the link events: each command named answers a next state and leaves registers off its pages, the parts of the working state not
listed for it, every byte of memory outside the event ring, and the waiting commands as the command found them. -/
def Obligations.LinkFrame : Prop :=
  (∀ (s : State) (t : Nat) (lane : Fin 50) (block : BitVec 640), s.Inv →
    s.keeps [48, 112] [.lanes, .links, .twn] t (.dataBlock t lane block)) ∧
  (∀ (s : State) (t : Nat) (lane : Fin 50) (block : BitVec 640), s.Inv →
    s.keeps [0, 1, 8, 12, 48, 64, 112] [.srcs, .lanes, .links, .twn] t (.alignmentMarker t lane block)) ∧
  (∀ (s : State) (t : Nat) (lane : Fin 50) (block : BitVec 640), s.Inv →
    s.keeps [1, 8, 12, 48, 64, 112] [.srcs, .lanes, .links, .twn] t (.statusBlock t lane block)) ∧
  (∀ (s : State) (t : Nat) (link : Fin 48), s.Inv →
    s.keeps [1, 48] [.links] t (.linkFormTimeout t link)) ∧
  (∀ (s : State) (t : Nat) (lane : Fin 48), s.Inv →
    s.keeps [1, 8, 12, 48, 64] [.srcs, .links] t (.laneUnusable t lane)) ∧
  (∀ (s : State) (t : Nat) (lane : Fin 50) (block : BitVec 640), s.Inv →
    s.keeps [0, 1, 8, 12, 48, 64, 112] [.srcs, .lanes, .links, .twn] t (.reformMarker t lane block)) ∧
  (∀ (s : State) (t : Nat) (link : Fin 48), s.Inv →
    s.keeps [1, 48] [.links] t (.linkWiden t link)) ∧
  (∀ (s : State) (t : Nat) (slot : Fin 96) (aOk bOk differ run : Bool), s.Inv →
    s.keeps [1, 8, 12, 48, 64] [.srcs, .links, .diffAt] t (.mergeLine t slot aOk bOk differ run))

/-- The frame of the port events of the network: each command named answers a next state and leaves registers off its pages, the parts of the working
state not listed for it, every byte of memory outside the event ring, and the waiting commands as the command found them. The frame of the flow
events: each command named answers a next state and leaves registers off its pages, the parts of the working state not listed for it, every byte
of memory outside the event ring, and the waiting commands as the command found them. -/
def Obligations.NetworkFrame : Prop :=
  ((∀ (s : State) (t : Nat) (port : Fin 2), s.Inv →
    s.keeps [64] [] t (.trainingTimeout t port)) ∧
  (∀ (s : State) (t : Nat) (port : Fin 2) (remoteFault : Bool), s.Inv →
    s.keeps [1, 64] [] t (.netLinkUp t port remoteFault)) ∧
  (∀ (s : State) (t : Nat) (port : Fin 2) (cause : Fin 3) (lock : BitVec 4), s.Inv →
    s.keeps [1, 64] [] t (.netLinkDown t port cause lock)) ∧
  (∀ (s : State) (t : Nat) (port : Fin 2) (f : NetFrame), s.Inv →
    s.keeps [1, 64] [.nets] t (.frameReceived t port f)) ∧
  (∀ (s : State) (t : Nat) (port : Fin 2) (heads : List (Fin 8 × Nat)) (cut : Bool), s.Inv →
    s.keeps [1, 64] [.nets] t (.frameTransmit t port heads cut)) ∧
  (∀ (s : State) (t : Nat) (port : Fin 2), s.Inv →
    s.keeps [64] [.nets] t (.gclEntryBoundary t port)) ∧
  (∀ (s : State) (t : Nat) (port : Fin 2), s.Inv →
    s.keeps [1, 64] [.nets] t (.gclTaken t port)) ∧
  (∀ (s : State) (t : Nat) (port : Fin 2), s.Inv →
    s.keeps [64] [] t (.netSignalDetected t port)) ∧
  (∀ (s : State) (t : Nat) (port : Fin 2) (lock : BitVec 4), s.Inv →
    s.keeps [64] [] t (.netSignalLost t port lock)) ∧
  (∀ (s : State) (t : Nat) (port : Fin 2), s.Inv →
    s.keeps [64] [] t (.autoNegotiationDone t port)) ∧
  (∀ (s : State) (t : Nat) (port : Fin 2) (pol : BitVec 4), s.Inv →
    s.keeps [64] [] t (.linkTrainingDone t port pol)))
  ∧ ((∀ (s : State) (t : Nat) (flow : Fin 112) (leg : Fin 2) (p : MediaPacket), s.Inv →
    s.keeps [1, 64] [.flows] t (.mediaPacketReceived t flow leg p)) ∧
  (∀ (s : State) (t : Nat) (flow : Fin 112) (leg : Fin 2) (p : AudioPacket), s.Inv →
    s.keeps [1, 64] [.flows] t (.audioPacketReceived t flow leg p)) ∧
  (∀ (s : State) (t : Nat) (flow : Fin 112) (seq : Nat), s.Inv →
    s.keeps [64] [.flows] t (.audioPacketLate t flow seq)) ∧
  (∀ (s : State) (t : Nat) (flow : Fin 112) (leg : Fin 2), s.Inv →
    s.keeps [1, 64] [.flows] t (.legLost t flow leg)) ∧
  (∀ (s : State) (t : Nat) (flow : Fin 112) (leg : Fin 2), s.Inv →
    s.keeps [1, 64] [.flows] t (.legRestored t flow leg)) ∧
  (∀ (s : State) (t : Nat) (sender : Fin 112) (leg : Fin 2) (slot : Nat), s.Inv →
    s.keeps [64] [.senders] t (.packetRelease t sender leg slot)) ∧
  (∀ (s : State) (t : Nat) (sender : Fin 112) (sizes : List Nat), s.Inv →
    s.keeps [64] [.senders] t (.ancillaryFieldSend t sender sizes)) ∧
  (∀ (s : State) (t : Nat) (port : Fin 2), s.Inv →
    s.keeps [] [.nets] t (.igmpMembershipReport t port)))

/-- The frame of the PTP events: each command named answers a next state and leaves registers off its pages, the parts of the working state not
listed for it, every byte of memory outside the event ring, and the waiting commands as the command found them. The frame of the reference
events: each command named answers a next state and leaves registers off its pages, the parts of the working state not listed for it, every byte
of memory outside the event ring, and the waiting commands as the command found them. -/
def Obligations.TimeFrame : Prop :=
  ((∀ (s : State) (t : Nat) (port : Fin 2) (seq : BitVec 16) (domain : BitVec 8) (id : BitVec 64) (num : BitVec 16) (err : Fin 9), s.Inv →
    s.keeps [1, 4] [.ptp] t (.syncReceived t port seq domain id num err)) ∧
  (∀ (s : State) (t : Nat) (port : Fin 2) (seq : BitVec 16) (err : Fin 9), s.Inv →
    s.keeps [1, 4] [.ptp] t (.delayReqSent t port seq err)) ∧
  (∀ (s : State) (t : Nat) (port : Fin 2), s.Inv →
    s.keeps [4] [.ptp] t (.rxqPop t port)) ∧
  (∀ (s : State) (t : Nat) (port : Fin 2), s.Inv →
    s.keeps [4] [.ptp] t (.txrPop t port)) ∧
  (∀ (s : State) (t : Nat) (port : Fin 2) (offset filtered freq : Int) (mpd : Nat), s.Inv →
    s.keeps [1, 3, 4, 64] [.free, .clock, .planes, .sent, .nets, .ptp, .ref, .twn] t (.servoSample t port offset filtered freq mpd)) ∧
  (∀ (s : State) (t : Nat) (port : Fin 2) (domain : BitVec 8) (id : BitVec 64) (rank : Nat), s.Inv →
    s.keeps [1, 3, 4] [.free, .planes, .sent, .ptp, .ref, .twn] t (.announceReceived t port domain id rank)) ∧
  (∀ (s : State) (t : Nat) (port : Fin 2), s.Inv →
    s.keeps [1, 3, 4] [.free, .planes, .sent, .ptp, .ref, .twn] t (.announceTimeout t port)) ∧
  (∀ (s : State) (t : Nat), s.Inv →
    s.keeps [1, 3, 4] [.free, .planes, .sent, .ptp, .ref, .twn] t (.prefPortRevert t)))
  ∧ ((∀ (s : State) (t : Nat) (meas : List RefMeas) (lo : Int), s.Inv →
    s.keeps [1, 3] [.planes, .sent, .ref, .twn] t (.monitorWindowEnd t meas lo)) ∧
  (∀ (s : State) (t : Nat) (cand : Fin 5) (noisy : Bool) (meas : List RefMeas), s.Inv →
    s.keeps [1, 3] [.planes, .sent, .ref, .twn] t (.candidateInactive t cand noisy meas)) ∧
  (∀ (s : State) (t : Nat) (plane : Fin 2) (meas : List RefMeas), s.Inv →
    s.keeps [1, 3] [.planes, .sent, .twn] t (.wtrExpiry t plane meas)) ∧
  (∀ (s : State) (t : Nat) (plane : Fin 2), s.Inv →
    s.keeps [1, 3] [.planes, .sent, .twn] t (.pullinDone t plane)) ∧
  (∀ (s : State) (t : Nat) (plane : Fin 2) (delay : Nat), s.Inv →
    s.keeps [1, 3] [.planes, .sent, .twn] t (.startTimeout t plane delay)) ∧
  (∀ (s : State) (t : Nat) (cand : Fin 5), s.Inv →
    s.keeps [1, 3] [.planes, .ref] t (.refPhaseHit t cand)) ∧
  (∀ (s : State) (t : Nat) (cand : Fin 5) (displaced : Int) (meas : List RefMeas), s.Inv →
    s.keeps [1, 3] [.planes, .sent, .ref, .twn] t (.referenceEdge t cand displaced meas)) ∧
  (∀ (s : State) (t : Nat) (lo : Int), s.Inv →
    s.keeps [1, 3] [.ref] t (.loCalibrated t lo)))

/-- The frame of the serial audio events: each command named answers a next state and leaves registers off its pages, the parts of the working state
not listed for it, every byte of memory outside the event ring, and the waiting commands as the command found them. The frame of the twin events:
each command named answers a next state and leaves registers off its pages, the parts of the working state not listed for it, every byte of
memory outside the event ring, and the waiting commands as the command found them. -/
def Obligations.AudioAndTwinFrame : Prop :=
  ((∀ (s : State) (t : Nat) (port : Fin 16) (bclk : Nat) (rx : List (Int × Int)) (tx : Nat), s.Inv →
    s.keeps [1, 88] [.sap] t (.sapPortFrame t port bclk rx tx)) ∧
  (∀ (s : State) (t : Nat) (port : Fin 16) (rate : Int), s.Inv →
    s.keeps [1, 88] [.sap] t (.portLocked t port rate)) ∧
  (∀ (s : State) (t : Nat) (port : Fin 16) (cause : Fin 3), s.Inv →
    s.keeps [1, 88] [.sap] t (.portUnlocked t port cause)) ∧
  (∀ (s : State) (t : Nat) (port : Fin 16) (kind : Fin 4), s.Inv →
    s.keeps [1, 88] [.sap] t (.slipped t port kind)) ∧
  (∀ (s : State) (t : Nat) (port : Fin 16), s.Inv →
    s.keeps [1, 88] [.sap] t (.rejoined t port)))
  ∧ ((∀ (s : State) (t : Nat) (peerIn : Bool), s.Inv →
    s.keeps [0, 1, 16, 112] [.sent, .lbs, .heads, .twn] t (.twinModeDecision t peerIn)) ∧
  (∀ (s : State) (t : Nat) (peerIn : Bool), s.Inv →
    s.keeps [0, 1, 16, 112] [.sent, .lbs, .heads, .twn] t (.unit1WaitExpiry t peerIn)) ∧
  (∀ (s : State) (t : Nat), s.Inv →
    s.keeps [0, 1, 16, 112] [.sent, .lbs, .heads, .twn] t (.peerInConflict t)) ∧
  (∀ (s : State) (t : Nat) (peerIn : Bool), s.Inv →
    s.keeps [112] [.sent, .twn] t (.helloSend t peerIn)) ∧
  (∀ (s : State) (t : Nat), s.Inv →
    s.keeps [0, 112] [.twn] t (.helloTimeout t)) ∧
  (∀ (s : State) (t : Nat) (stream : Fin 3), s.Inv →
    s.keeps [0, 1, 16, 112] [.sent, .lbs, .heads, .twn] t (.messageGap t stream)) ∧
  (∀ (s : State) (t : Nat) (plane : Fin 2), s.Inv →
    s.keeps [0, 1, 16, 112] [.sent, .lbs, .heads, .twn] t (.noMatchResync t plane)) ∧
  (∀ (s : State) (t : Nat) (bit : Fin 5), s.Inv →
    s.keeps [0, 1, 112] [.sent, .twn] t (.twnSelfFault t bit)) ∧
  (∀ (s : State) (t : Nat), s.Inv →
    s.keeps [0, 1, 112] [.twn] t (.twnPeerLost t)) ∧
  (∀ (s : State) (t : Nat), s.Inv →
    s.keeps [0, 1, 16, 112] [.sent, .lbs, .heads, .twn] t (.twinLinkLost t)) ∧
  (∀ (s : State) (t : Nat), s.Inv →
    s.keeps [0, 1, 112] [] t (.syncAudioDone t)) ∧
  (∀ (s : State) (t : Nat), s.Inv →
    s.keeps [0, 1, 112] [] t (.twinRestartHoldExpiry t)))

/-- The frame of the request rows, with no bus access outstanding and a history whose responses fit their buffer: each row named answers a next state
and leaves registers off its pages, the parts of the working state not listed for it, every byte of memory outside its channel's response buffer
and the event ring, and the waiting commands as the command found them. A query changes the mailbox and bus pages and what the firmware holds; a
request that bears an epoch, and CANCEL, besides the pages of the crosspoint and the twin, what the power control holds and what goes to the
peer; a request that sets something besides the pages and parts of the block it sets. -/
def Obligations.RequestsFrame : Prop :=
  (∀ (s : State) (t : Nat) (ch : Fin 16) (k : Nat → Fin 16 → Instr), s.Inv → (s.chipAt t).bus.outs = [] → (s.chipAt t).histFits = true →
    k ∈ ([.echo, .getInfo, .getEpoch, .pwrGetStatus, .refGetStatus, .ptpGetStatus, .ptpGetRecords, .xptGetRoutes, .xptGetBudget, .fsyGetStatus, .lbsGetStatus,
      .dmcGetStatus, .sdiGetStatus, .fabGetStatus, .netGetStats, .flowGetStatus, .audGetStatus, .sapGetStatus, .mvcGetStatus, .twnGetStatus,
      .busGetStatus, .updGetStatus, .secAttest] : List (Nat → Fin 16 → Instr)) →
    s.asked [1, 120] [.fw] t ch.val (k t ch))
  ∧ (∀ (s : State) (t : Nat) (ch : Fin 16) (k : Nat → Fin 16 → Instr), s.Inv → (s.chipAt t).bus.outs = [] → (s.chipAt t).histFits = true →
    k ∈ ([.xptTake, .xptSalvo, .xptSetDest, .xptSetGen, .lbsSetRecord, .lbsSetPlayback, .fabSetSlots, .flowSetSender, .audSetShuffle, .audSetGains,
      .audSetLimiter, .mvcSetLayers, .mvcFlip, .cancel] : List (Nat → Fin 16 → Instr)) →
    s.asked [1, 8, 112, 120] [.fw, .pwr, .sent, .twn] t ch.val (k t ch))
  ∧ ∀ (s : State) (t : Nat) (ch : Fin 16) (k : (Nat → Fin 16 → Instr) × List Nat × List Part), s.Inv → (s.chipAt t).bus.outs = [] →
      (s.chipAt t).histFits = true →
    k ∈ ([(.setRole, [0], []), (.pwrSetMon, [2], []), (.pwrSetDomain, [2, 20], [.dmc]), (.refSetCandidate, [3], [.free, .planes, .ref]),
      (.refSetPlane, [3, 64, 80], [.planes]), (.ptpSetPort, [3, 4], [.free, .planes, .ptp, .ref]), (.fsySetSource, [8, 12, 64, 80], [.srcs]), (.sdiSetRx, [8, 12, 32, 64], [.srcs, .sdi]),
      (.sdiSetTx, [32], [.sdi]), (.fabSetLink, [8, 12, 48, 64], [.srcs, .lanes, .links]), (.fabLoopback, [48], [.lanes]), (.netSetPort, [2, 64], []),
      (.netSetGcl, [64], [.nets]), (.flowJoin, [8, 12, 64, 80], [.srcs, .flows]), (.flowLeave, [8, 12, 64, 80], [.srcs, .flows]), (.sapSetPort, [88], [.aud, .sap]),
      (.mvcSetHead, [], [.heads]), (.mvcLoadGraphic, [96], [.heads]), (.twnSetPolicy, [0], [.lanes]), (.twnHandover, [0], []), (.busSetAperture, [], []), (.dmcSetChannel, [2, 20], [.dmc]), (.laneReset, [0, 8, 12, 32, 48, 64], [.srcs, .sdi, .lanes, .links]),
      (.clearSticky, [0, 2, 3, 4, 8, 12, 16, 20, 32, 48, 64, 80, 88, 96, 124, 128], []), (.updDownload, [128], [.upd]),
      (.updVerify, [128], []), (.updConfirm, [128], [.upd])] : List ((Nat → Fin 16 → Instr) × List Nat × List Part)) →
    s.asked (1 :: 112 :: 120 :: k.2.1) (.fw :: .pwr :: .sent :: .twn :: k.2.2) t ch.val (k.1 t ch)

/-- The frame of the counter, lock and switch events: each command named answers a next state and leaves registers off its pages, the parts of the
working state not listed for it, every byte of memory outside the event ring, and the waiting commands as the command found them. The frame of
further events: each command named answers a next state and leaves registers off its pages, the parts of the working state not listed for it,
every byte of memory outside the event ring (for the two timeouts of a channel also outside its response buffer), and the waiting commands as the
command found them; a message and the end of a lock with no bus access outstanding. -/
def Obligations.OtherEventsFrame : Prop :=
  ((∀ (s : State) (t : Nat) (head : Fin 4) (layer : Fin 16), s.Inv →
    s.keeps [1, 96] [] t (.layerSlated t head layer)) ∧
  (∀ (s : State) (t : Nat), s.Inv →
    s.keeps [120] [] t (.locked t)) ∧
  (∀ (s : State) (t : Nat) (core : Fin 4) (k : Fin 9), s.Inv →
    s.keeps [124] [.pmcAt] t (.pmcCounterWrap t core k)) ∧
  (∀ (s : State) (t : Nat) (core : Fin 4) (addr data : Word) (lat : Nat) (kind : Fin 3) (user err : Bool), s.Inv →
    s.keeps [124] [.pmcAt] t (.pmcSample t core addr data lat kind user err)) ∧
  (∀ (s : State) (t : Nat) (engine : Fin 16) (pc : BitVec 16) (lat wait : Nat) (flow : Option (Fin 112)), s.Inv →
    s.keeps [124] [] t (.nmeTag t engine pc lat wait flow)) ∧
  (∀ (s : State) (t : Nat) (type : Fin 3), s.Inv →
    s.keeps [] [.upd] t (.microcodeSwitch t type)))
  ∧ ((∀ (s : State) (t : Nat) (ch : Fin 16), s.Inv →
    s.keeps [1, 120] [.fw, .bus] t (.ring t ch)) ∧
  (∀ (s : State) (t : Nat) (ch : Fin 16), s.Inv →
    s.asked [1] [.fw] t ch.val (.peerRelayTimeout t ch)) ∧
  (∀ (s : State) (t : Nat) (ch : Fin 16), s.Inv →
    s.asked [1] [.fw] t ch.val (.journalHoldTimeout t ch)) ∧
  (∀ (s : State) (t : Nat) (n : Fin 248) (v : Fin 4), s.Inv →
    s.keeps [2, 20] [.pwr, .dmc] t (.domainReqWrite t n v)) ∧
  (∀ (s : State) (t : Nat) (src : Fin 332), s.Inv →
    s.keeps [1, 12, 64, 96] [.srcs, .heads] t (.srcValid t src)) ∧
  (∀ (s : State) (t : Nat) (p : Fin 2), s.Inv →
    s.keeps [1, 64, 80, 112] [.fw, .planes, .sent, .twn] t (.anchorSet t p)) ∧
  (∀ (s : State) (t : Nat) (h l : Fin 4), s.Inv →
    s.keeps [1, 96] [.heads] t (.autoFlip t h l)) ∧
  (∀ (s : State) (t m : Nat) (p : Fin 2) (e : Nat) (ds : List Nat), s.Inv → (s.chipAt t).bus.outs = [] →
    s.keeps [0, 1, 112, 120] [.sent, .twn] t (.mask t m p e ds)) ∧
  (∀ (s : State) (t m : Nat) (p : Fin 2) (e : Nat) (word : List Nat), s.Inv → (s.chipAt t).bus.outs = [] →
    s.keeps [0, 1, 112, 120] [.sent, .twn] t (.crema t m p e word)) ∧
  (∀ (s : State) (t m : Nat) (p : Fin 2) (e : Nat) (crcs : List (Nat × Nat)), s.Inv → (s.chipAt t).bus.outs = [] →
    s.keeps [0, 1, 112, 120] [.sent, .twn] t (.crcList t m p e crcs)) ∧
  (∀ (s : State) (t m : Nat) (p : Fin 2) (e : Nat) (recs : List Evid) (diag : Nat), s.Inv → (s.chipAt t).bus.outs = [] →
    s.keeps [0, 1, 112, 120] [.sent, .twn] t (.evidence t m p e recs diag)) ∧
  (∀ (s : State) (t m e cause : Nat), s.Inv → (s.chipAt t).bus.outs = [] →
    s.keeps [0, 1, 112, 120] [.sent, .twn] t (.handover t m e cause)) ∧
  (∀ (s : State) (t m cause : Nat), s.Inv → (s.chipAt t).bus.outs = [] →
    s.keeps [0, 1, 112, 120] [.sent, .twn] t (.resync t m cause)) ∧
  (∀ (s : State) (t : Nat) (g : Fin 2), s.Inv → (s.chipAt t).bus.outs = [] →
    s.keeps [1, 120] [.bus] t (.busLockBreak t g)) ∧
  (∀ (s : State) (t : Nat) (p : Fin 2) (crcs : List (Nat × Nat)), s.Inv →
    s.keeps [0, 1, 112] [.sent, .twn] t (.cremaCompute t p crcs)) ∧
  (∀ (s : State) (t : Nat) (p : Fin 2) (e : Nat), s.Inv →
    s.keeps [0, 1, 112] [.sent, .twn] t (.cremaMissing t p e)) ∧
  (∀ (s : State) (t : Nat) (user freeze : Bool), s.Inv →
    s.keeps [124] [.pmcAt] t (.freeze t user freeze)) ∧
  (∀ (s : State) (t : Nat) (core : Fin 4) (w : Word), s.Inv →
    s.keeps [124] [.pmcAt] t (.smpClear t core w)) ∧
  (∀ (s : State) (t : Nat) (w : Word), s.Inv →
    s.keeps [124] [.pmcAt] t (.nmeClear t w)) ∧
  (∀ (s : State) (t : Nat) (h : Fin 4), s.Inv →
    s.keeps [1, 96] [.sent, .heads, .twn] t (.headFrameDecision t h)) ∧
  (∀ (s : State) (t m : Nat) (role : BitVec 2) (unit : BitVec 1) (mode : BitVec 2) (phase : BitVec 3) (version : BitVec 8) (schema : Nat), s.Inv →
    s.keeps [0, 1, 16, 112] [.sent, .lbs, .heads, .twn] t (.hello t m role unit mode phase version schema)) ∧
  (∀ (s : State) (t m : Nat) (d : TwinDecision), s.Inv → (s.chipAt t).bus.outs = [] →
    s.keeps [1, 3, 120] [.free, .planes, .srcs, .sent, .aud, .heads, .twn] t (.decision t m d)) ∧
  (∀ (s : State) (t m : Nat) (seg : TwinSegment), s.Inv → (s.chipAt t).bus.outs = [] →
    s.keeps [0, 80, 112, 120] [.fw, .aud, .heads, .twn] t (.state t m seg)) ∧
  (∀ (s : State) (t : Nat) (n : Fin 248), s.Inv →
    s.keeps [0, 1, 2, 8, 12, 20, 32, 48, 64, 80, 88, 112] [.planes, .srcs, .pwr, .dmc, .lbs, .sdi, .lanes, .links, .aud, .sap, .heads] t
      (.domainTransitionDone t n)) ∧
  (∀ (s : State) (t : Nat), s.Inv → (s.chipAt t).bus.outs = [] →
    s.keeps [1, 120] [.bus] t (.endpointReset t)) ∧
  (∀ (s : State) (t : Nat), s.Inv → (s.chipAt t).bus.outs = [] →
    s.keeps [0, 1, 20, 32, 48, 64, 112, 120, 124, 128] [.fw, .pwr, .dmc, .lanes, .ptp, .bus, .pmcAt, .upd] t (.watchdogExpiry t)) ∧
  (∀ (s : State) (t : Nat), s.Inv →
    s.keeps [0, 1, 32, 48, 64, 112, 128] [.sdi, .lanes, .links, .upd] t (.serdesLaneRestart t)) ∧
  (∀ (s : State) (t : Nat), s.Inv →
    s.keeps [1, 128] [.upd] t (.serdesDone t)) ∧
  (∀ (s : State) (t : Nat) (m : Fin 10) (id : Fin 16) (o : BusOut), s.Inv → (s.chipAt t).bus.outs = [o] → o.hung = true →
    s.keeps [1, 120] [.bus] t (.busTimeout t m id)) ∧
  (∀ (s : State) (t : Nat) (g : Fin 2) (o : BusOut), s.Inv → (s.chipAt t).bus.outs = [o] → o.hung = true →
    s.keeps [1, 120] [.bus] t (.busMasterAbort t g)))

/-- RESET_N_LOW (R66, R106, R107): on a part not held in reset, a PIN reset begins: the part is held, TOP_RESET_CAUSE.PIN is set, the settings
journal is kept, the take queue is empty, DRAM reads 0 (log entry 4), and a QUIET that ends so is recorded as a wake by the pin; on a part held
in reset it sets its cause bit and changes no other register. PORST_N_LOW (R66, R92, R106) and RAIL_BELOW_RESET of a rail other than VDD_AON
(R86, R92): on a part that no POR holds, a POR begins with the same effects, TOP_RESET_CAUSE.POR set and PWR_POR_SOURCE naming the pin or the
rail; a rail below reset is below warning; PORST_N_LOW on a part that a POR holds changes nothing, and a further rail there is recorded as below
warning while the source stands. VDD_AON below reset (R92) and FIRST_POWER_UP (R92, R107): a POR begins and the source reads COLD. TRST_N_LOW
(R107): only the test access port is reset, which holds no state of the part. -/
def Obligations.ResetsBegin : Prop :=
  ((∀ (s : State) (t : Nat) (c : Chip), c = s.chipAt t → s.Inv → c.pwr.phase ≠ .held →
    ∃ s', Sys2Proof.Machine.exec (.resetNLow t) s = .next s' ∧ s'.chip.pwr.phase = .held ∧ s'.chip.on TOP_RESET_CAUSE_PIN = true
      ∧ s'.chip.fw.journal = c.fw.journal ∧ s'.chip.fw.queue = [] ∧ (∀ a, dramBase ≤ a → a < dramBase + 2 ^ 41 → s'.mem.read a = 0)
      ∧ (c.pwr.phase = .quiet → s'.chip.on PWR_WAKE_CAUSE_FROM_QUIET = true ∧ s'.chip.on PWR_WAKE_CAUSE_BY_PIN = true))
  ∧ (∀ (s : State) (t : Nat) (c : Chip), c = s.chipAt t → c.pwr.phase = .held →
    ∃ s', Sys2Proof.Machine.exec (.resetNLow t) s = .next s' ∧ s'.chip.pwr.phase = .held ∧ s'.chip.on TOP_RESET_CAUSE_PIN = true
      ∧ (∀ r : Reg, r.off ≠ TOP_RESET_CAUSE.off → s'.chip.get r = c.get r))
  ∧ (∀ (s : State) (t : Nat) (c : Chip), c = s.chipAt t → s.Inv → c.heldByPor = false →
    ∃ s', Sys2Proof.Machine.exec (.porstNLow t) s = .next s' ∧ s'.chip.pwr.phase = .held ∧ s'.chip.on TOP_RESET_CAUSE_POR = true
      ∧ s'.chip.get PWR_POR_SOURCE = 0x100 ∧ s'.chip.fw.journal = c.fw.journal ∧ s'.chip.fw.queue = []
      ∧ (∀ a, dramBase ≤ a → a < dramBase + 2 ^ 41 → s'.mem.read a = 0)
      ∧ (c.pwr.phase = .quiet → s'.chip.on PWR_WAKE_CAUSE_FROM_QUIET = true ∧ s'.chip.on PWR_WAKE_CAUSE_BY_PIN = true))
  ∧ (∀ (s : State) (t : Nat) (c : Chip), c = s.chipAt t → c.heldByPor = true →
    ∃ s', Sys2Proof.Machine.exec (.porstNLow t) s = .next s' ∧ s'.chip.regs = c.regs ∧ s'.chip.pwr = c.pwr ∧ s'.chip.fw = c.fw)
  ∧ (∀ (s : State) (t : Nat) (c : Chip) (m : Fin 8), c = s.chipAt t → s.Inv → c.heldByPor = false → m.val ≠ 1 →
    ∃ s', Sys2Proof.Machine.exec (.railBelowReset t m) s = .next s' ∧ s'.chip.pwr.phase = .held ∧ s'.chip.on TOP_RESET_CAUSE_POR = true
      ∧ s'.chip.get PWR_POR_SOURCE = 2 ^ m.val ∧ bit (s'.chip.rd PWR_STATUS_RAIL_BELOW_WARN) m.val = true
      ∧ s'.chip.fw.journal = c.fw.journal ∧ s'.chip.fw.queue = []
      ∧ (∀ a, dramBase ≤ a → a < dramBase + 2 ^ 41 → s'.mem.read a = 0)
      ∧ (c.pwr.phase = .quiet → s'.chip.on PWR_WAKE_CAUSE_FROM_QUIET = true))
  ∧ (∀ (s : State) (t : Nat) (c : Chip) (m : Fin 8), c = s.chipAt t → c.heldByPor = true → m.val ≠ 1 →
    ∃ s', Sys2Proof.Machine.exec (.railBelowReset t m) s = .next s' ∧ s'.chip.pwr.phase = .held
      ∧ s'.chip.get PWR_POR_SOURCE = c.get PWR_POR_SOURCE ∧ bit (s'.chip.rd PWR_STATUS_RAIL_BELOW_WARN) m.val = true)
  ∧ (∀ (s : State) (t : Nat), s.Inv →
    ∃ s', Sys2Proof.Machine.exec (.railBelowReset t 1) s = .next s' ∧ s'.chip.pwr.phase = .held ∧ s'.chip.on TOP_RESET_CAUSE_POR = true
      ∧ s'.chip.get PWR_POR_SOURCE = 0x200 ∧ (∀ a, dramBase ≤ a → a < dramBase + 2 ^ 41 → s'.mem.read a = 0))
  ∧ ∀ (s : State) (t : Nat), s.Inv →
    ∃ s', Sys2Proof.Machine.exec (.firstPowerUp t) s = .next s' ∧ s'.chip.pwr.phase = .held ∧ s'.chip.on TOP_RESET_CAUSE_POR = true
      ∧ s'.chip.get PWR_POR_SOURCE = 0x200 ∧ (∀ a, dramBase ≤ a → a < dramBase + 2 ^ 41 → s'.mem.read a = 0))
  ∧ (∀ (s : State) (t : Nat), ∃ s', Sys2Proof.Machine.exec (.trstNLow t) s = .next s' ∧ s'.chip.regs = (s.chipAt t).regs
    ∧ s'.chip.pwr = (s.chipAt t).pwr ∧ s'.chip.fw = (s.chipAt t).fw)

/-- RESET_RELEASE (R58, R80): a part held in reset leaves it, its straps are due, and no register changes. STRAP_SAMPLE (R58, R59): the straps are
sampled once, and INVALID says that a reserved combination was strapped. BOOT_ROM_RUN (R592, R612 to R614, R620), once the straps are sampled
where a PIN reset or a POR began: the firewall is locked; an identity key that does not match is recorded; a part strapped for recovery stays in
it, and one strapped to halt halts with its debug hold set unless debug is disabled; else, where the record holds no trial, the firmware of the
record's bank starts when that bank passes the boot check, else the other bank's when that one passes, else the part stays in recovery with
NO_IMAGE set. After a firmware or watchdog reset the strapped mode plays no part. WATCHDOG_EXPIRY (R108, R109, R155): on a part whose firmware
runs, a watchdog reset begins: the cause is recorded, FW_READY is 0, the doorbell order is empty and the journal is kept. FW_READY (R84, R109):
on a part whose firmware has started, with no command of the peer held (log entry 51) and no request standing that ends in a reset, FW_READY is
set and the part runs. CONFIGURATION_LOAD (R83): once DIMM training has ended on every channel, and while no schema refusal stands, the load is
done, and done once. -/
def Obligations.PartStarts : Prop :=
  ((∀ (s : State) (t : Nat) (c : Chip), c = s.chipAt t → c.pwr.phase = .held →
    ∃ s', Sys2Proof.Machine.exec (.resetRelease t) s = .next s' ∧ s'.chip.pwr.phase = .released ∧ s'.chip.pwr.strapDue = true
      ∧ s'.chip.regs = c.regs)
  ∧ (∀ (s : State) (t : Nat) (c : Chip) (v : BitVec 8), c = s.chipAt t → c.pwr.phase = .released → c.pwr.strapDue = true →
    ∃ s', Sys2Proof.Machine.exec (.strapSample t v) s = .next s'
      ∧ s'.chip.get TOP_STRAP = v.toNat + (if v.toNat % 4 = 3 ∨ bit v.toNat 7 then 256 else 0) ∧ s'.chip.pwr.strapDue = false)
  ∧ (∀ (s : State) (t : Nat) (c : Chip) (idOk : Bool) (b0 b1 : Option Package), c = s.chipAt t → c.pwr.phase = .released →
      (c.pwr.asked &&& 12 ≠ 0 → c.pwr.strapDue = false) →
    ∃ s', Sys2Proof.Machine.exec (.bootRomRun t idOk b0 b1) s = .next s' ∧ s'.chip.on BUS_FW_LOCK_LOCKED = true
      ∧ (s'.chip.pwr.phase = .started ∨ s'.chip.pwr.phase = .recovery ∨ s'.chip.pwr.phase = .halted)
      ∧ (c.pwr.asked &&& 12 ≠ 0 → idOk = false → s'.chip.on SEC_STATUS_IDENTITY_FAULT = true)
      ∧ (c.pwr.asked &&& 12 ≠ 0 → c.rd TOP_STRAP_BOOT_MODE = 1 → s'.chip.pwr.phase = .recovery)
      ∧ (c.pwr.asked &&& 12 ≠ 0 → c.rd TOP_STRAP_BOOT_MODE = 2 → c.on SEC_BOOT_DEBUG_DISABLE = false →
          s'.chip.pwr.phase = .halted ∧ s'.chip.on SEC_BOOT_DEBUG_HOLD = true))
  ∧ (∀ (s : State) (t : Nat) (c d : Chip) (idOk : Bool) (b0 b1 : Option Package), c = s.chipAt t → c.pwr.phase = .released →
      (c.pwr.asked &&& 12 ≠ 0 → c.pwr.strapDue = false ∧ (c.rd TOP_STRAP_BOOT_MODE = 0 ∨ c.rd TOP_STRAP_BOOT_MODE = 3)) →
      c.updRec.trial = false → c.updRec.runBank < 2 → d = { c with upd := { c.upd with pkgs := [b0, b1] } } →
    ∃ s', Sys2Proof.Machine.exec (.bootRomRun t idOk b0 b1) s = .next s'
      ∧ (d.bootOk c.updRec.runBank = true → s'.chip.pwr.phase = .started ∧ s'.chip.upd.bank = c.updRec.runBank ∧ s'.chip.updRec = c.updRec)
      ∧ (d.bootOk c.updRec.runBank = false → d.bootOk (1 - c.updRec.runBank) = true →
          s'.chip.pwr.phase = .started ∧ s'.chip.upd.bank = 1 - c.updRec.runBank ∧ s'.chip.updRec.runBank = 1 - c.updRec.runBank)
      ∧ (d.bootOk c.updRec.runBank = false → d.bootOk (1 - c.updRec.runBank) = false →
          s'.chip.pwr.phase = .recovery ∧ s'.chip.on SEC_STATUS_NO_IMAGE = true))
  ∧ ∀ (s : State) (t : Nat) (c : Chip), c = s.chipAt t → (c.pwr.phase = .started ∨ c.pwr.phase = .running) → c.bus.outs = [] →
    ∃ s', Sys2Proof.Machine.exec (.watchdogExpiry t) s = .next s' ∧ s'.chip.pwr.phase = .released ∧ s'.chip.on TOP_RESET_CAUSE_WDT = true
      ∧ s'.chip.ready = false ∧ s'.chip.fw.order = [] ∧ s'.chip.fw.journal = c.fw.journal)
  ∧ (∀ (s : State) (t : Nat) (conv : Bool) (c : Chip), c = s.chipAt t → c.pwr.phase = .started → (c.fw.waits.all fun w => w.plan.after == .none) = true →
      c.twn.held = [] →
    ∃ s', Sys2Proof.Machine.exec (.fwReady t conv) s = .next s' ∧ s'.chip.ready = true ∧ s'.chip.pwr.phase = .running)
  ∧ (∀ (s : State) (t : Nat) (c : Chip), c = s.chipAt t → c.ready = true → c.fw.cfgLoaded = false → c.upd.refused = false →
      (∀ n : Fin 8, c.chState n.val ≠ chTraining) →
    ∃ s', Sys2Proof.Machine.exec (.configurationLoad t) s = .next s' ∧ s'.chip.fw.cfgLoaded = true ∧ s'.chip.fw.loaded = true)

/-- R88: PWR_BOD_EVENTS increments by one each time the set of rails below warning changes from empty to non-empty, a dip on a second rail does not
count again, and the counter saturates at 0xFFFF_FFFF; a rail that rises above warning leaves it as it was. -/
def Obligations.BrownOutCount : Prop :=
  (∀ (s : State) (t : Nat) (m : Fin 8), (s.chipAt t).rd PWR_STATUS_RAIL_BELOW_WARN = 0 →
    ∃ s', Sys2Proof.Machine.exec (.railBelowWarning t m) s = .next s'
      ∧ s'.chip.get PWR_BOD_EVENTS = min 0xFFFFFFFF ((s.chipAt t).get PWR_BOD_EVENTS + 1))
  ∧ (∀ (s : State) (t : Nat) (m : Fin 8), (s.chipAt t).rd PWR_STATUS_RAIL_BELOW_WARN ≠ 0 →
    ∃ s', Sys2Proof.Machine.exec (.railBelowWarning t m) s = .next s' ∧ s'.chip.get PWR_BOD_EVENTS = (s.chipAt t).get PWR_BOD_EVENTS)
  ∧ ∀ (s : State) (t : Nat) (m : Fin 8),
    ∃ s', Sys2Proof.Machine.exec (.railAboveWarning t m) s = .next s' ∧ s'.chip.get PWR_BOD_EVENTS = (s.chipAt t).get PWR_BOD_EVENTS

/-- RAIL_BELOW_WARNING, RAIL_ABOVE_WARNING, MRAM_HOLD_RELEASE, MRAM_WRITE_DONE, MRAM_REFRESH_REWRITE (R78, R82, R86, R87): a rail that goes below
warning sets BOD_WARN, its WARN_SEEN bit and MRAM_HOLD and interrupts no MRAM write; a rail back above warning leaves MRAM_HOLD set; with every
rail above, the hold ends (on a running part stated where nothing waits on it); a write that is done leaves none in progress; a rewrite on a part
that does not hold writes is an MRAM write in progress that leaves the journal as it is. -/
def Obligations.BrownOutHold : Prop :=
  (∀ (s : State) (t : Nat) (m : Fin 8) (c : Chip), c = s.chipAt t → bit (c.rd PWR_STATUS_RAIL_BELOW_WARN) m.val = false →
    ∃ s', Sys2Proof.Machine.exec (.railBelowWarning t m) s = .next s' ∧ s'.chip.on PWR_STATUS_BOD_WARN = true
      ∧ s'.chip.on PWR_STATUS_MRAM_HOLD = true ∧ bit (s'.chip.rd PWR_RAIL_HIST_WARN_SEEN) m.val = true
      ∧ bit (s'.chip.rd PWR_STATUS_RAIL_BELOW_WARN) m.val = true ∧ s'.chip.pwr = c.pwr)
  ∧ (∀ (s : State) (t : Nat) (m : Fin 8) (c : Chip), c = s.chipAt t → bit (c.rd PWR_STATUS_RAIL_BELOW_WARN) m.val = true →
    ∃ s', Sys2Proof.Machine.exec (.railAboveWarning t m) s = .next s' ∧ bit (s'.chip.rd PWR_STATUS_RAIL_BELOW_WARN) m.val = false
      ∧ s'.chip.rd PWR_STATUS_MRAM_HOLD = c.rd PWR_STATUS_MRAM_HOLD)
  ∧ (∀ (s : State) (t : Nat) (c : Chip), c = s.chipAt t → c.on PWR_STATUS_MRAM_HOLD = true → c.rd PWR_STATUS_RAIL_BELOW_WARN = 0 →
      (c.ready = true → c.fw.waits = [] ∧ c.twn.held = [] ∧ c.bus.outs = [] ∧ c.upd.checked = false) →
    ∃ s', Sys2Proof.Machine.exec (.mramHoldRelease t) s = .next s' ∧ s'.chip.on PWR_STATUS_MRAM_HOLD = false)
  ∧ (∀ (s : State) (t : Nat), ∃ s', Sys2Proof.Machine.exec (.mramWriteDone t) s = .next s' ∧ s'.chip.pwr.mramWrite = none)
  ∧ ∀ (s : State) (t : Nat) (c : Chip), c = s.chipAt t → c.ready = true → c.on PWR_STATUS_MRAM_HOLD = false →
    ∃ s', Sys2Proof.Machine.exec (.mramRefreshRewrite t) s = .next s' ∧ s'.chip.pwr.mramWrite = some c.now ∧ s'.chip.fw.journal = c.fw.journal

/-- DOMAIN_REQ_WRITE (R95, R103): CUR stays; a value not valid for the kind of the domain leaves the control register and sets DOM_ILLEGAL; a valid
one stands in REQ, and where the domain is not BUSY and not in that state a transition to it starts, with BUSY. DOMAIN_TRANSITION_DONE (R95,
R103), of a domain that is BUSY, no memory channel in training and no engine without its clock: CUR reads the state it ran to; BUSY clears where
REQ reads that state, and else the transition to REQ starts. NET_WAKE (R101): a MAC in STANDBY is ACTIVE and its NET_WAKE bit is set. -/
def Obligations.DomainTransitions : Prop :=
  (∀ (s : State) (t : Nat) (n : Fin 248) (v : Fin 4) (c : Chip), c = s.chipAt t → c.live = true →
    ∃ s', Sys2Proof.Machine.exec (.domainReqWrite t n v) s = .next s' ∧ s'.chip.dom n.val = c.dom n.val
      ∧ (domValid n.val v.val = false → s'.chip.on PWR_STATUS_DOM_ILLEGAL = true ∧ s'.chip.get (PWR_DOM_CTL n.val) = c.get (PWR_DOM_CTL n.val))
      ∧ (domValid n.val v.val = true → s'.chip.rd (PWR_DOM_CTL_REQ n.val) = v.val)
      ∧ (domValid n.val v.val = true → c.on (PWR_DOM_CTL_BUSY n.val) = false → c.dom n.val ≠ v.val →
          s'.chip.on (PWR_DOM_CTL_BUSY n.val) = true ∧ s'.chip.domGoal n.val = v.val))
  ∧ (∀ (s : State) (t : Nat) (n : Fin 248) (c : Chip), c = s.chipAt t → c.live = true → c.on (PWR_DOM_CTL_BUSY n.val) = true → c.domGoal n.val < 4 →
      (isMem n.val = true → c.chState (n.val - 212) ≠ chTraining) → c.engineDead n.val = false →
    ∃ s', Sys2Proof.Machine.exec (.domainTransitionDone t n) s = .next s' ∧ s'.chip.dom n.val = c.domGoal n.val
      ∧ (c.rd (PWR_DOM_CTL_REQ n.val) = c.domGoal n.val → s'.chip.on (PWR_DOM_CTL_BUSY n.val) = false)
      ∧ (c.rd (PWR_DOM_CTL_REQ n.val) ≠ c.domGoal n.val →
          s'.chip.on (PWR_DOM_CTL_BUSY n.val) = true ∧ s'.chip.domGoal n.val = c.rd (PWR_DOM_CTL_REQ n.val)))
  ∧ ∀ (s : State) (t : Nat) (p : Fin 2) (c : Chip), c = s.chipAt t → c.live = true → c.dom (domMac p.val) = stLow →
    ∃ s', Sys2Proof.Machine.exec (.netWake t p) s = .next s' ∧ s'.chip.dom (domMac p.val) = stActive
      ∧ bit (s'.chip.rd PWR_WAKE_CAUSE_NET_WAKE) p.val = true

/-- ENTER (R104, R105): on a part neither in reset nor in QUIET, QUIET is entered with the settings journal kept, but on the active part of a pair
the phase stays and QUIET_REFUSED is set. WAKE (R106): a part in QUIET begins a PIN reset, with FROM_QUIET and BY_SVC set. -/
def Obligations.QuietEntryAndWake : Prop :=
  (∀ (s : State) (t : Nat) (c : Chip), c = s.chipAt t → c.pwr.phase ≠ .quiet → c.pwr.phase ≠ .held → c.twnMode ≠ 1 →
    ∃ s', Sys2Proof.Machine.exec (.enter t) s = .next s' ∧ s'.chip.pwr.phase = .quiet ∧ s'.chip.fw.journal = c.fw.journal)
  ∧ (∀ (s : State) (t : Nat) (c : Chip), c = s.chipAt t → c.pwr.phase ≠ .quiet → c.pwr.phase ≠ .held → c.twnMode = 1 →
    ∃ s', Sys2Proof.Machine.exec (.enter t) s = .next s' ∧ s'.chip.pwr.phase = c.pwr.phase ∧ s'.chip.on PWR_STATUS_QUIET_REFUSED = true)
  ∧ ∀ (s : State) (t : Nat) (c : Chip), c = s.chipAt t → c.pwr.phase = .quiet →
    ∃ s', Sys2Proof.Machine.exec (.wake t) s = .next s' ∧ s'.chip.pwr.phase = .released ∧ s'.chip.on TOP_RESET_CAUSE_PIN = true
      ∧ s'.chip.on PWR_WAKE_CAUSE_FROM_QUIET = true ∧ s'.chip.on PWR_WAKE_CAUSE_BY_SVC = true

/-- PWR_MON_CFG_WRITE (R93): levels within the limits are written; a write that breaks any limit is ignored whole and sets MON_CFG_REJECT.
THERMAL_READING (R76): the reading stands in PWR_TEMP, within the field's range; a reading at or above a level sets that level's flag where it is
the first since a PIN reset or POR or the level is armed, and else leaves the flag; a reading at or above the level disarms it, one below the
level less 2 °C arms it, and one between leaves a level that is not at its first reading as it was. LO_IN_LOSS (R71, R452): where LO_IN was
present or its loss has not been flagged, PRESENT reads 0, LO_MISSING is set, and a plane in HOLDOVER is in FREERUN; LO_IN_RETURN: PRESENT reads
1 and the instant is kept. FAULT_SCAN_FRAME (R73, R295): on a part that is no spine, once the straps are sampled, a fault code that two frames in
a row agree on is that output's FAULT, and the first frame changes no FAULT; a spine changes no register. QUEUE_FAULT (R27): the flag is set, the
event counted, the affected destinations repeat their last line, and self-diagnosis has the finding. -/
def Obligations.PartMonitors : Prop :=
  (∀ (s : State) (t : Nat) (m : Fin 8) (v : Word) (c : Chip), c = s.chipAt t → c.ready = true →
    ∃ s', Sys2Proof.Machine.exec (.pwrMonCfgWrite t m v) s = .next s'
      ∧ (bits v.toNat 0 12 % 5 = 0 → bits v.toNat 16 12 % 5 = 0 → bits (monDefault m.val) 16 12 ≤ bits v.toNat 16 12 →
          bits v.toNat 16 12 + 20 ≤ bits v.toNat 0 12 →
          (m.val = 0 → 100 * bits v.toNat 0 12 ≤ 98 * (720 + 5 * c.rd PWR_AVS_TARGET_STEP)) →
          (m.val ≠ 0 → bits v.toNat 0 12 ≤ railMin (c.rd PWR_AVS_TARGET_STEP) m.val) →
          bits (s'.chip.get (PWR_MON_CFG m.val)) 0 12 = bits v.toNat 0 12 ∧ bits (s'.chip.get (PWR_MON_CFG m.val)) 16 12 = bits v.toNat 16 12)
      ∧ (bits v.toNat 16 12 < bits (monDefault m.val) 16 12 ∨ bits v.toNat 0 12 < bits v.toNat 16 12 + 20
            ∨ (m.val = 0 ∧ 98 * (720 + 5 * c.rd PWR_AVS_TARGET_STEP) < 100 * bits v.toNat 0 12)
            ∨ (m.val ≠ 0 ∧ railMin (c.rd PWR_AVS_TARGET_STEP) m.val < bits v.toNat 0 12) →
          s'.chip.on PWR_STATUS_MON_CFG_REJECT = true ∧ s'.chip.get (PWR_MON_CFG m.val) = c.get (PWR_MON_CFG m.val)))
  ∧ ((∀ (s : State) (t : Nat) (x : Int) (c : Chip), c = s.chipAt t → c.live = true →
    ∃ s', Sys2Proof.Machine.exec (.thermalReading t x) s = .next s'
      ∧ s'.chip.rdI PWR_TEMP_TEMP = max (-(2 ^ (PWR_TEMP_TEMP.w - 1))) (min (2 ^ (PWR_TEMP_TEMP.w - 1) - 1) x)
      ∧ ((c.rd PWR_THERM_WARN_LEVEL_LEVEL : Int) ≤ x → (c.pwr.tempRead = false ∨ c.pwr.warnArmed = true) → s'.chip.on PWR_STATUS_THERM_WARN = true)
      ∧ ((x < (c.rd PWR_THERM_WARN_LEVEL_LEVEL : Int) ∨ (c.pwr.tempRead = true ∧ c.pwr.warnArmed = false)) →
          s'.chip.on PWR_STATUS_THERM_WARN = c.on PWR_STATUS_THERM_WARN)
      ∧ ((c.rd PWR_THERM_CRIT_LEVEL_LEVEL : Int) ≤ x → (c.pwr.tempRead = false ∨ c.pwr.critArmed = true) → s'.chip.on PWR_STATUS_THERM_CRIT = true)
      ∧ ((x < (c.rd PWR_THERM_CRIT_LEVEL_LEVEL : Int) ∨ (c.pwr.tempRead = true ∧ c.pwr.critArmed = false)) →
          s'.chip.on PWR_STATUS_THERM_CRIT = c.on PWR_STATUS_THERM_CRIT)
      ∧ ((c.rd PWR_THERM_WARN_LEVEL_LEVEL : Int) ≤ x → s'.chip.pwr.warnArmed = false)
      ∧ (x < (c.rd PWR_THERM_WARN_LEVEL_LEVEL : Int) - 2 → s'.chip.pwr.warnArmed = true)
      ∧ ((c.rd PWR_THERM_WARN_LEVEL_LEVEL : Int) - 2 ≤ x → x < (c.rd PWR_THERM_WARN_LEVEL_LEVEL : Int) → c.pwr.tempRead = true →
          s'.chip.pwr.warnArmed = c.pwr.warnArmed)
      ∧ ((c.rd PWR_THERM_CRIT_LEVEL_LEVEL : Int) ≤ x → s'.chip.pwr.critArmed = false)
      ∧ (x < (c.rd PWR_THERM_CRIT_LEVEL_LEVEL : Int) - 2 → s'.chip.pwr.critArmed = true)
      ∧ ((c.rd PWR_THERM_CRIT_LEVEL_LEVEL : Int) - 2 ≤ x → x < (c.rd PWR_THERM_CRIT_LEVEL_LEVEL : Int) → c.pwr.tempRead = true →
          s'.chip.pwr.critArmed = c.pwr.critArmed)
      ∧ s'.chip.pwr.tempRead = true)
  ∧ (∀ (s : State) (t : Nat) (c : Chip), c = s.chipAt t → c.live = true → (c.on REF_LO_PRESENT = true ∨ c.ref.loLost = false) →
    ∃ s', Sys2Proof.Machine.exec (.loInLoss t) s = .next s' ∧ s'.chip.on REF_LO_PRESENT = false ∧ s'.chip.on REF_STATUS_LO_MISSING = true
      ∧ (c.planeState 0 = 4 → s'.chip.planeState 0 = 5) ∧ (c.planeState 1 = 4 → s'.chip.planeState 1 = 5))
  ∧ (∀ (s : State) (t : Nat) (c : Chip), c = s.chipAt t → c.live = true → c.on REF_LO_PRESENT = false →
    ∃ s', Sys2Proof.Machine.exec (.loInReturn t) s = .next s' ∧ s'.chip.on REF_LO_PRESENT = true ∧ s'.chip.ref.loAt = c.now)
  ∧ (∀ (s : State) (t : Nat) (v : BitVec 144) (n : Fin 48) (c : Chip), c = s.chipAt t → c.live = true → c.role ≠ 2 → c.pwr.strapDue = false →
    ∃ s', Sys2Proof.Machine.exec (.faultScanFrame t v) s = .next s'
      ∧ (c.pwr.scans ≠ 0 → bits c.pwr.scan (2 * n.val) 2 = bits v.toNat (2 * n.val) 2 →
          s'.chip.rd (SDI_TX_STAT_FAULT n.val) = bits v.toNat (2 * n.val) 2)
      ∧ (c.pwr.scans ≠ 0 → bits c.pwr.scan (2 * n.val) 2 ≠ bits v.toNat (2 * n.val) 2 →
          s'.chip.rd (SDI_TX_STAT_FAULT n.val) = c.rd (SDI_TX_STAT_FAULT n.val))
      ∧ (c.pwr.scans = 0 → s'.chip.regs = c.regs))
  ∧ (∀ (s : State) (t : Nat) (v : BitVec 144) (c : Chip), c = s.chipAt t → c.live = true → c.role = 2 →
    ∃ s', Sys2Proof.Machine.exec (.faultScanFrame t v) s = .next s' ∧ s'.chip.regs = c.regs)
  ∧ ∀ (s : State) (t : Nat) (ds : List (Fin 384)) (c : Chip), c = s.chipAt t → c.live = true →
    ∃ s', Sys2Proof.Machine.exec (.queueFault t ds) s = .next s' ∧ s'.chip.on TOP_STATUS_QUEUE_FAULT = true
      ∧ s'.chip.rd TOP_QUEUE_FAULT_COUNT_COUNT = min (2 ^ TOP_QUEUE_FAULT_COUNT_COUNT.w - 1) (c.rd TOP_QUEUE_FAULT_COUNT_COUNT + 1)
      ∧ (∀ d ∈ ds, (s'.chip.dst d.val).repeats = true) ∧ bit (s'.chip.get TWN_DIAG) 2 = true)

/-- R130, through an endpoint that answers and a firewall that allows the host the registers: a RING of 1 while BUSY is 0 sets BUSY and clears
RESP_READY in one step, the channel stands in the doorbell order with the instant, every other channel's place stays, and no other register
changes; a RING while BUSY is 1 is ignored (no register but the channel's status changes, the order stays, BUSY and RESP_READY stay) and sets
DB_WHILE_BUSY. Whatever the response, the one operation by which the firmware writes it puts it into the channel's buffer, clears BUSY and sets
RESP_READY together; an ECHO that is served does so. -/
def Obligations.Doorbell : Prop :=
  (∀ (s : State) (t : Nat) (ch : Fin 16) (c : Chip), c = s.chipAt t → c.reachable = true → c.fwAllows 4 0 true = true →
      c.on (MBX_CH_STAT_BUSY ch.val) = false →
    ∃ s', Sys2Proof.Machine.exec (.ring t ch) s = .next s' ∧ s'.chip.on (MBX_CH_STAT_BUSY ch.val) = true
      ∧ s'.chip.on (MBX_CH_STAT_RESP_READY ch.val) = false ∧ (ch.val, c.now) ∈ s'.chip.fw.order
      ∧ s'.chip.fw.order.erase (ch.val, c.now) = c.fw.order.erase (ch.val, c.now) ∧ s'.chip.fw.order.length = c.fw.order.length + 1
      ∧ (∀ r : Reg, r.off ≠ (MBX_CH_STAT ch.val).off → s'.chip.get r = c.get r))
  ∧ (∀ (s : State) (t : Nat) (ch : Fin 16) (c : Chip), c = s.chipAt t → c.reachable = true → c.fwAllows 4 0 true = true →
      c.on (MBX_CH_STAT_BUSY ch.val) = true →
    ∃ s', Sys2Proof.Machine.exec (.ring t ch) s = .next s' ∧ s'.chip.on (MBX_CH_STAT_DB_WHILE_BUSY ch.val) = true ∧ s'.chip.fw = c.fw
      ∧ s'.chip.on (MBX_CH_STAT_BUSY ch.val) = true
      ∧ s'.chip.on (MBX_CH_STAT_RESP_READY ch.val) = c.on (MBX_CH_STAT_RESP_READY ch.val)
      ∧ (∀ r : Reg, r.off ≠ (MBX_CH_STAT ch.val).off → s'.chip.get r = c.get r))
  ∧ (∀ (c : Chip) (ch : Fin 16) (w0 : Nat) (x : Resp),
      (c.reply ch.val w0 x).on (MBX_CH_STAT_BUSY ch.val) = false ∧ (c.reply ch.val w0 x).on (MBX_CH_STAT_RESP_READY ch.val) = true
      ∧ (c.reply ch.val w0 x).out
          = c.out ++ [.words (respBuf ch.val) ([w0, x.status + x.flags * 2 ^ 16, 4 * x.payload.length, x.epoch] ++ x.payload)])
  ∧ ∀ (s : State) (t : Nat) (ch : Fin 16) (r : Req) (c : Chip), c = s.chipAt t → s.asksFor t ch.val 0x0000 0 r →
    ∃ s', Sys2Proof.Machine.exec (.echo t ch) s = .next s' ∧ s'.answered r ⟨0x0000, 0, 0, r.payload⟩

/-- REGISTER_WRITE. Through BAR0, four bytes on a multiple of four, no access of the bus outstanding, the firewall allowing port 4 the registers (R12
to R16, R591): a register the host may write, and whose row has no effect of its own, has the RW bits as written, a W1C bit written as 1 cleared
unless hardware set it in this ACLK cycle (R14), a W1S bit written as 1 set, every other bit as it was, and no other register off the bus page
changes; a register of the host's reading only, or an offset without a register, keeps its value, and the write is counted and flagged as
ignored. A write of another width or alignment is aborted and changes no register (R11). Where the firewall forbids it, ERR and FIREWALL are set
and the register off the bus page keeps its value (R591). In D3hot, reset or QUIET it changes nothing (R120). Through BAR2 a word of the request
buffer of a channel is written while BUSY is 0, and while BUSY is 1 it is counted as ignored and BUF_WRITE_DROPPED is set (R122). Over the
service port (R118) the W1C bits of PWR_STATUS, PWR_RAIL_HIST and PWR_WAKE_CAUSE clear as written, and a write of any register but those and
PWR_QUIET_CTL changes no register. MSIX_UNMASK (R128): of a vector, its mask clears; a vector whose pending bit is set, in a function neither
masked nor in D3hot, loses that bit, and sends its message if its cause is still pending; in a masked function, where no cause has just become
pending, nothing is sent and the pending bits stay. Of the function, its mask clears, and every vector that is not masked, is pending and has its
cause pending sends. ENDPOINT_RESET (R66, R120): the configuration space is at its reset state but for the journaled IDs, the MSI-X table and the
masks are at their defaults, no message leaves, the mailbox firmware is as it was, and with no access of the bus outstanding no register off the
bus page changes. D3HOT_TRANSITION (R120): the power state follows, no register changes, and in D3hot no message leaves. -/
def Obligations.HostInterface : Prop :=
  ((∀ (s : State) (t : Nat) (off : Nat) (v : Word) (row : RegRow) (c : Chip), c = s.chipAt t → c.reachable = true → c.fwAllows 4 0 true = true →
      off % 4 = 0 → rowOf off = some row → row.host = true → c.storesOnly off = true → c.bus.outs = [] →
    ∃ s', Sys2Proof.Machine.exec (.registerWrite t ⟨.bar0, off, 4, v.toNat⟩) s = .next s'
      ∧ (∀ i : Fin 32, bit (s'.chip.get ⟨off, row.dflt⟩) i.val =
          if bit row.rw i.val then bit v.toNat i.val
          else if bit row.w1c i.val && bit v.toNat i.val && !(bit (c.fresh off) i.val) then false
          else if bit row.w1s i.val && bit v.toNat i.val then true
          else bit (c.get ⟨off, row.dflt⟩) i.val)
      ∧ (∀ r : Reg, r.off ≠ off → r.off / 65536 ≠ 120 → s'.chip.get r = c.get r))
  ∧ (∀ (s : State) (t : Nat) (off : Nat) (v : Word) (row : Option RegRow) (c : Chip), c = s.chipAt t → c.reachable = true → c.fwAllows 4 0 true = true →
      off % 4 = 0 → rowOf off = row → (row.map RegRow.host).getD false = false → c.bus.outs = [] →
    ∃ s', Sys2Proof.Machine.exec (.registerWrite t ⟨.bar0, off, 4, v.toNat⟩) s = .next s' ∧ s'.chip.on TOP_STATUS_HOST_WRITE_IGNORED = true
      ∧ s'.chip.rd TOP_HOST_WRITE_IGNORED_COUNT
          = min (2 ^ TOP_HOST_WRITE_IGNORED_COUNT.w - 1) (c.rd TOP_HOST_WRITE_IGNORED_COUNT + 1)
      ∧ (∀ r : Reg, r.off ≠ TOP_STATUS.off → r.off ≠ TOP_HOST_WRITE_IGNORED.off → r.off / 65536 ≠ 120 → s'.chip.get r = c.get r))
  ∧ (∀ (s : State) (t : Nat) (off width : Nat) (v : Word) (c : Chip), c = s.chipAt t → c.reachable = true → (width ≠ 4 ∨ off % 4 ≠ 0) → c.bus.outs = [] →
    ∃ s', Sys2Proof.Machine.exec (.registerWrite t ⟨.bar0, off, width, v.toNat⟩) s = .next s' ∧ s'.chip.host.aborts = c.host.aborts + 1
      ∧ (∀ r : Reg, r.off / 65536 ≠ 120 → s'.chip.get r = c.get r))
  ∧ (∀ (s : State) (t : Nat) (off : Nat) (v : Word) (c : Chip), c = s.chipAt t → c.reachable = true → c.fwAllows 4 0 true = false →
      off % 4 = 0 → c.bus.outs = [] →
    ∃ s', Sys2Proof.Machine.exec (.registerWrite t ⟨.bar0, off, 4, v.toNat⟩) s = .next s' ∧ s'.chip.on BUS_STATUS_FIREWALL = true
      ∧ s'.chip.on BUS_STATUS_ERR = true ∧ (∀ r : Reg, r.off / 65536 ≠ 120 → s'.chip.get r = c.get r))
  ∧ (∀ (s : State) (t : Nat) (off width : Nat) (v : Word) (b2 : Bool) (c : Chip), c = s.chipAt t → c.reachable = false → c.bus.outs = [] →
    ∃ s', Sys2Proof.Machine.exec (.registerWrite t ⟨if b2 then .bar2 else .bar0, off, width, v.toNat⟩) s = .next s'
      ∧ (∀ r : Reg, r.off / 65536 ≠ 120 → s'.chip.get r = c.get r))
  ∧ (∀ (s : State) (t : Nat) (ch : Fin 16) (k : Fin 1024) (v : Word) (c : Chip), c = s.chipAt t → s.Inv → c.reachable = true → c.fwAllows 4 1 true = true →
      c.on (MBX_CH_STAT_BUSY ch.val) = false → c.bus.outs = [] →
    ∃ s', Sys2Proof.Machine.exec (.registerWrite t ⟨.bar2, ch.val * 0x2000 + 4 * k.val, 4, v.toNat⟩) s = .next s'
      ∧ s'.mem.word (reqBuf ch.val + 4 * k.val) = v.toNat ∧ (∀ r : Reg, r.off / 65536 ≠ 120 → s'.chip.get r = c.get r))
  ∧ (∀ (s : State) (t : Nat) (ch : Fin 16) (k : Fin 1024) (v : Word) (c : Chip), c = s.chipAt t → s.Inv → c.reachable = true → c.fwAllows 4 1 true = true →
      c.on (MBX_CH_STAT_BUSY ch.val) = true → c.bus.outs = [] →
    ∃ s', Sys2Proof.Machine.exec (.registerWrite t ⟨.bar2, ch.val * 0x2000 + 4 * k.val, 4, v.toNat⟩) s = .next s'
      ∧ s'.chip.on (MBX_CH_STAT_BUF_WRITE_DROPPED ch.val) = true ∧ s'.chip.on TOP_STATUS_HOST_WRITE_IGNORED = true
      ∧ s'.mem.word (reqBuf ch.val + 4 * k.val) = s.mem.word (reqBuf ch.val + 4 * k.val))
  ∧ (∀ (s : State) (t : Nat) (off : Nat) (v : Word) (row : RegRow) (c : Chip), c = s.chipAt t → rowOf off = some row →
      (off = PWR_STATUS.off ∨ off = PWR_RAIL_HIST.off ∨ off = PWR_WAKE_CAUSE.off) → c.bus.outs = [] →
    ∃ s', Sys2Proof.Machine.exec (.registerWrite t ⟨.service, off, 4, v.toNat⟩) s = .next s'
      ∧ (∀ i : Fin 32, bit (s'.chip.get ⟨off, row.dflt⟩) i.val =
          if bit row.w1c i.val && bit v.toNat i.val && !(bit (c.fresh off) i.val) then false else bit (c.get ⟨off, row.dflt⟩) i.val)
      ∧ (∀ r : Reg, r.off ≠ off → r.off / 65536 ≠ 120 → s'.chip.get r = c.get r))
  ∧ ∀ (s : State) (t : Nat) (off : Nat) (v : Word) (c : Chip), c = s.chipAt t → off ≠ PWR_STATUS.off → off ≠ PWR_RAIL_HIST.off →
      off ≠ PWR_WAKE_CAUSE.off → off ≠ PWR_QUIET_CTL.off → c.bus.outs = [] →
    ∃ s', Sys2Proof.Machine.exec (.registerWrite t ⟨.service, off, 4, v.toNat⟩) s = .next s'
      ∧ (∀ r : Reg, r.off / 65536 ≠ 120 → s'.chip.get r = c.get r))
  ∧ ((∀ (s : State) (t : Nat) (v : Fin 32) (c : Chip), c = s.chipAt t → c.host.fnMasked = false → c.host.d3hot = false →
      bit c.host.pba v.val = true →
    ∃ s', Sys2Proof.Machine.exec (.msixUnmask t (some v)) s = .next s'
      ∧ (bit c.irqStatus v.val = true →
          ((c.host.table.getD v.val {}).addr, (c.host.table.getD v.val {}).data) ∈ s'.chip.host.sent)
      ∧ bit s'.chip.host.pba v.val = false ∧ (s'.chip.host.table.getD v.val {}).masked = false)
  ∧ (∀ (s : State) (t : Nat) (v : Fin 32) (c : Chip), c = s.chipAt t → c.host.fnMasked = true → newCauses s.chip c = [] →
    ∃ s', Sys2Proof.Machine.exec (.msixUnmask t (some v)) s = .next s' ∧ s'.chip.host.sent = []
      ∧ s'.chip.host.pba = c.host.pba ∧ (s'.chip.host.table.getD v.val {}).masked = false)
  ∧ (∀ (s : State) (t : Nat) (v : Fin 32) (c : Chip), c = s.chipAt t →
    ∃ s', Sys2Proof.Machine.exec (.msixUnmask t none) s = .next s' ∧ s'.chip.host.fnMasked = false
      ∧ ((c.host.table.getD v.val {}).masked = false → bit c.host.pba v.val = true → bit c.irqStatus v.val = true → c.host.d3hot = false →
          ((c.host.table.getD v.val {}).addr, (c.host.table.getD v.val {}).data) ∈ s'.chip.host.sent ∧ bit s'.chip.host.pba v.val = false))
  ∧ (∀ (s : State) (t : Nat) (c : Chip), c = s.chipAt t →
    ∃ s', Sys2Proof.Machine.exec (.endpointReset t) s = .next s' ∧ s'.chip.host.pci = { ids := c.host.pci.ids } ∧ s'.chip.host.fnMasked = true
      ∧ s'.chip.host.table = List.replicate 32 {} ∧ s'.chip.host.d3hot = false ∧ s'.chip.host.sent = [] ∧ s'.chip.fw.order = c.fw.order
      ∧ (c.bus.outs = [] → ∀ r : Reg, r.off / 65536 ≠ 120 → s'.chip.get r = c.get r))
  ∧ ∀ (s : State) (t : Nat) (d3 : Bool), ∃ s', Sys2Proof.Machine.exec (.d3hotTransition t d3) s = .next s' ∧ s'.chip.host.d3hot = d3
      ∧ s'.chip.regs = (s.chipAt t).regs ∧ (d3 = true → s'.chip.host.sent = []))

/-- PEER_RELAY_TIMEOUT, JOURNAL_HOLD_TIMEOUT, PWR_SET_DOMAIN_DONE (R90, R114, R143): a relayed request that the peer has not answered within 10 ms
and one whose MRAM writes have been held for 100 ms are refused with NO_RESOURCE; a domain request is answered OK with the domain registers once
every domain named in it has arrived. The end of a request that the firmware holds, with nothing more to wait for or do after it.
UPD_DOWNLOAD_DONE (R621): OK, with the bytes in the inactive bank of flash, their end in DL_BYTES and BUSY over; or, where the bulk read failed,
INTERNAL, no download under way (R621; R140 gives its BAD_ARG for a descriptor, log 73). UPD_VERIFY_DONE (R622): OK, with the bank VERIFIED and
its package kept, or UPDATE_REFUSED with the check that failed and VERIFIED as it was. ATTESTATION_REPORT_DONE (R631): OK with the report over
the nonce. -/
def Obligations.WaitingRequestsEnd : Prop :=
  ((∀ (s : State) (t : Nat) (ch : Fin 16) (w : Wait) (c : Chip), c = s.chipAt t → s.Inv → c.ready = true → c.waiting ch.val = some w → w.peer = true →
      w.since + ms 10 ≤ c.now →
    ∃ s', Sys2Proof.Machine.exec (.peerRelayTimeout t ch) s = .next s' ∧ s'.answered w.req ⟨0x0021, 0, 0, []⟩)
  ∧ (∀ (s : State) (t : Nat) (ch : Fin 16) (w : Wait) (c : Chip), c = s.chipAt t → s.Inv → c.ready = true → c.waiting ch.val = some w → w.journal = true →
      w.since + ms 100 ≤ c.now →
    ∃ s', Sys2Proof.Machine.exec (.journalHoldTimeout t ch) s = .next s' ∧ s'.answered w.req ⟨0x0021, 0, 0, []⟩)
  ∧ ∀ (s : State) (t : Nat) (ch : Fin 16) (w : Wait) (ns : List Nat) (c : Chip), c = s.chipAt t → s.Inv → c.ready = true → c.waiting ch.val = some w →
      w.long = some .domains → w.journal = false → w.ack = none → w.peer = false → w.hand = false → w.plan.after = .none →
      w.plan.nows.map Change.idx = ns → ns.length ≤ 248 →
      (∀ n ∈ ns, c.dom n = c.rd (PWR_DOM_CTL_REQ n) ∧ c.on (PWR_DOM_CTL_BUSY n) = false) →
    ∃ s', Sys2Proof.Machine.exec (.pwrSetDomainDone t ch) s = .next s' ∧ s'.answered w.req ⟨0x0000, 0, 0, ns.map fun n => c.get (PWR_DOM_CTL n)⟩)
  ∧ ((∀ (s : State) (t : Nat) (ch : Fin 16) (bs : List Nat) (w : Wait) (c : Chip), c = s.chipAt t → s.Inv → c.ready = true → c.waiting ch.val = some w →
      w.long = some .download → w.journal = false → w.ack = none → w.peer = false → w.hand = false → w.plan.after = .none →
      w.req.w 1 + w.req.w 5 ≤ 2 ^ 26 → bs.length = w.req.w 5 →
    ∃ s', Sys2Proof.Machine.exec (.updDownloadDone t ch (some bs)) s = .next s' ∧ s'.answered w.req ⟨0, 0, 0, []⟩ ∧ s'.chip.on UPD_STATE_BUSY = false
      ∧ s'.chip.get UPD_DL_BYTES = w.req.w 1 + w.req.w 5
      ∧ (List.range bs.length).all (fun i => s'.mem.read (flashBase + c.inactive * 2 ^ 26 + w.req.w 1 + i) == BitVec.ofNat 8 (bs.getD i 0)) = true)
  ∧ (∀ (s : State) (t : Nat) (ch : Fin 16) (w : Wait) (c : Chip), c = s.chipAt t → s.Inv → c.ready = true → c.waiting ch.val = some w →
      w.long = some .download → w.journal = false → w.ack = none → w.peer = false → w.hand = false → w.plan.after = .none →
    ∃ s', Sys2Proof.Machine.exec (.updDownloadDone t ch none) s = .next s' ∧ s'.answered w.req ⟨0x007F, 0, 0, []⟩ ∧ s'.chip.on UPD_STATE_BUSY = false
      ∧ s'.chip.upd.total = 0)
  ∧ (∀ (s : State) (t : Nat) (ch : Fin 16) (p : Package) (w : Wait) (c : Chip), c = s.chipAt t → s.Inv → c.ready = true → c.waiting ch.val = some w →
      w.long = some .verify → w.journal = false → w.ack = none → w.peer = false → w.hand = false → w.plan.after = .none → c.inactive < 2 →
      c.verifyFails p = none →
    ∃ s', Sys2Proof.Machine.exec (.updVerifyDone t ch p) s = .next s' ∧ s'.answered w.req ⟨0, 0, 0, []⟩ ∧ s'.chip.on UPD_STATE_BUSY = false
      ∧ s'.chip.on (UPD_BANK_STAT_VERIFIED c.inactive) = true ∧ s'.chip.pkg c.inactive = some p)
  ∧ (∀ (s : State) (t : Nat) (ch : Fin 16) (p : Package) (w : Wait) (why : List Nat) (c : Chip), c = s.chipAt t → s.Inv → c.ready = true →
      c.waiting ch.val = some w → w.long = some .verify → w.journal = false → w.ack = none → w.peer = false → w.hand = false → w.plan.after = .none →
      c.verifyFails p = some why →
    ∃ s', Sys2Proof.Machine.exec (.updVerifyDone t ch p) s = .next s' ∧ s'.answered w.req ⟨stUpdateRefused, 0, 0, why⟩
      ∧ s'.chip.on UPD_STATE_BUSY = false
      ∧ s'.chip.on (UPD_BANK_STAT_VERIFIED c.inactive) = c.on (UPD_BANK_STAT_VERIFIED c.inactive))
  ∧ ∀ (s : State) (t : Nat) (ch : Fin 16) (w : Wait) (c : Chip), c = s.chipAt t → s.Inv → c.ready = true → c.waiting ch.val = some w →
      w.long = some .attest → w.journal = false → w.ack = none → w.peer = false → w.hand = false → w.plan.after = .none →
    ∃ s', Sys2Proof.Machine.exec (.attestationReportDone t ch) s = .next s' ∧ s'.answered w.req ⟨0, 0, 0, c.report (w.req.ws 1 8)⟩)

/-- R135 and R136 on XPT_TAKE. A request that a check refuses is answered with that check's status and leaves the journal, the settings in force and
the take queue; so does one with CHECK_ONLY that the checks accept, answered as checked; one whose number, opcode and length stand in the history
is answered with the recorded response and the duplicate flag, and changes none of them nor the history; one of another version is answered
BAD_OPCODE and not recorded. -/
def Obligations.RefusedRequests : Prop :=
  (∀ (s : State) (t : Nat) (ch : Fin 16) (r : Req) (x : Resp) (full : Bool) (c : Chip), c = s.chipAt t → s.asksFor t ch.val 0x0480 r.epoch r →
      c.verdict s.mem r chkTake = .refuse x full →
    ∃ s', Sys2Proof.Machine.exec (.xptTake t ch) s = .next s' ∧ s'.answered r x ∧ s'.chip.fw.journal = c.fw.journal
      ∧ s'.chip.fw.running = c.fw.running ∧ s'.chip.fw.queue = c.fw.queue)
  ∧ (∀ (s : State) (t : Nat) (ch : Fin 16) (r : Req) (p : Plan) (c : Chip), c = s.chipAt t → s.Inv → s.asks t ch r → r.opcode = 0x0480 →
      r.checkOnly = true → c.bus.outs = [] → c.verdict s.mem r chkTake = .accept p →
    ∃ s', Sys2Proof.Machine.exec (.xptTake t ch) s = .next s' ∧ s'.answered r p.checkedResp ∧ s'.chip.fw.journal = c.fw.journal
      ∧ s'.chip.fw.running = c.fw.running ∧ s'.chip.fw.queue = c.fw.queue)
  ∧ (∀ (s : State) (t : Nat) (ch : Fin 16) (r : Req) (h : Hist) (since : Nat) (c : Chip), c = s.chipAt t → s.Inv → c.nextBell = some (ch.val, since) →
      c.on (MBX_CH_STAT_BUSY ch.val) = true → reqVersion s.mem ch.val = 1 → parseReq s.mem ch.val = r → r.chan = ch.val →
      c.fw.hist.find? (fun h => h.chan == ch.val && h.seq == r.seq) = some h → h.opcode = r.opcode → h.len = r.len → h.resp.flags = 0 →
      h.resp.payload.length ≤ 1020 → c.bus.outs = [] →
    ∃ s', Sys2Proof.Machine.exec (.xptTake t ch) s = .next s'
      ∧ s'.mem.wordsAt (respBuf ch.val) (4 + h.resp.payload.length)
        = ([r.head, h.resp.status + 2 ^ 16, 4 * h.resp.payload.length, h.resp.epoch] ++ h.resp.payload).map (· % 2 ^ 32)
      ∧ s'.chip.on (MBX_CH_STAT_BUSY ch.val) = false ∧ s'.chip.on (MBX_CH_STAT_RESP_READY ch.val) = true
      ∧ s'.chip.fw.journal = c.fw.journal ∧ s'.chip.fw.running = c.fw.running ∧ s'.chip.fw.queue = c.fw.queue ∧ s'.chip.fw.hist = c.fw.hist)
  ∧ ∀ (s : State) (t : Nat) (ch : Fin 16) (since : Nat) (c : Chip), c = s.chipAt t → s.Inv → c.nextBell = some (ch.val, since) →
      c.on (MBX_CH_STAT_BUSY ch.val) = true → reqVersion s.mem ch.val ≠ 1 → c.bus.outs = [] →
    ∃ s', Sys2Proof.Machine.exec (.xptTake t ch) s = .next s'
      ∧ s'.mem.wordsAt (respBuf ch.val) 4 = [s.mem.word (reqBuf ch.val), stBadOpcode, 0, 0]
      ∧ s'.chip.on (MBX_CH_STAT_BUSY ch.val) = false ∧ s'.chip.on (MBX_CH_STAT_RESP_READY ch.val) = true ∧ s'.chip.fw.hist = c.fw.hist

/-- ECHO, GET_INFO, GET_EPOCH, PWR_GET_STATUS, REF_GET_STATUS, PTP_GET_STATUS, DMC_GET_STATUS, BUS_GET_STATUS, XPT_GET_BUDGET (R113, R144, R145,
R190, R275, R441, R464, R605): a request of no payload (ECHO: of any), with no flags and word 3 zero, that is next and passes the first steps of
R135, is answered OK with the registers and values its rule lists, in its order, as they read at that instant; with no epoch pending the budget's
peaks are the present loads (log entry 20). -/
def Obligations.PlainQueries : Prop :=
  (∀ (s : State) (t : Nat) (ch : Fin 16) (r : Req) (c : Chip), c = s.chipAt t → s.asksFor t ch.val 0x0000 0 r →
    ∃ s', Sys2Proof.Machine.exec (.echo t ch) s = .next s' ∧ s'.answered r ⟨0, 0, 0,
        r.payload⟩)
  ∧ (∀ (s : State) (t : Nat) (ch : Fin 16) (r : Req) (c : Chip), c = s.chipAt t → s.asksFor t ch.val 0x0001 0 r → r.len = 0 →
    ∃ s', Sys2Proof.Machine.exec (.getInfo t ch) s = .next s' ∧ s'.answered r ⟨0, 0, 0,
        [c.get TOP_IDCODE, c.get TOP_FW_VERSION, c.role + c.rd TOP_STATUS_TWIN_STATE * 4 + c.rd TOP_STRAP_TWIN_UNIT * 16, 1]⟩)
  ∧ (∀ (s : State) (t : Nat) (ch : Fin 16) (r : Req) (c : Chip), c = s.chipAt t → s.asksFor t ch.val 0x0002 0 r → r.len = 0 →
    ∃ s', Sys2Proof.Machine.exec (.getEpoch t ch) s = .next s' ∧ s'.answered r ⟨0, 0, 0,
        [c.get (XPT_EPOCH 0), c.get (XPT_BOUNDARY_TIME 0), c.get (XPT_EPOCH 1), c.get (XPT_BOUNDARY_TIME 1),
          b2n (c.planeLocked 0) + b2n (c.planeLocked 1) * 2]⟩)
  ∧ (∀ (s : State) (t : Nat) (ch : Fin 16) (r : Req) (c : Chip), c = s.chipAt t → s.asksFor t ch.val 0x0100 0 r → r.len = 0 →
    ∃ s', Sys2Proof.Machine.exec (.pwrGetStatus t ch) s = .next s' ∧ s'.answered r ⟨0, 0, 0,
        [PWR_STATUS, PWR_INT_EN, PWR_BOD_EVENTS, PWR_RAIL_HIST, PWR_POR_SOURCE, PWR_WAKE_CAUSE, PWR_AVS_TARGET, PWR_TEMP,
          PWR_THERM_WARN_LEVEL, PWR_THERM_CRIT_LEVEL].map c.get
          ++ (List.range 8).map (fun m => c.get (PWR_MON_CFG m)) ++ (List.range 248).map fun n => c.get (PWR_DOM_CTL n)⟩)
  ∧ (∀ (s : State) (t : Nat) (ch : Fin 16) (r : Req) (c : Chip), c = s.chipAt t → s.asksFor t ch.val 0x0200 0 r → r.len = 0 →
    ∃ s', Sys2Proof.Machine.exec (.refGetStatus t ch) s = .next s' ∧ s'.answered r ⟨0, 0, 0,
        [c.get REF_STATUS, c.get REF_CFG, c.get REF_LO, c.get REF_LO_CAL]
          ++ ((List.range 5).flatMap fun k => [c.get (REF_CAND_CFG k), c.get (REF_CAND_RANK k), c.get (REF_CAND_STAT k), c.get (REF_CAND_OFFSET k),
            c.get (REF_CAND_PHASE k 0), c.get (REF_CAND_PHASE k 1)])
          ++ [0, 1].flatMap fun q => [c.get (REF_PLANE_CFG q), c.get (REF_PLANE_STAT q), c.get (REF_PLANE_FREQ q), c.get (REF_PLANE_MODEL q),
            c.get (REF_PLANE_BUILDOUT q), c.get (REF_PLANE_SWITCHES q)]⟩)
  ∧ (∀ (s : State) (t : Nat) (ch : Fin 16) (r : Req) (c : Chip), c = s.chipAt t → s.asksFor t ch.val 0x0300 0 r → r.len = 0 →
    ∃ s', Sys2Proof.Machine.exec (.ptpGetStatus t ch) s = .next s' ∧ s'.answered r ⟨0, 0, 0,
        [c.get PTP_STATUS, c.get PTP_SERVO, c.get PTP_OFFSET, c.get PTP_FREQ, c.get PTP_MPD, c.get PTP_CFG, c.get PTP_JUMP_MAX,
          c.get PTP_GM_ID_LO, c.get PTP_GM_ID_HI, c.get PTP_JUMPS, c.clock.n % 2 ^ 32, c.clock.n / 2 ^ 32]
          ++ [0, 1].flatMap fun p => [c.get (PTP_PORT_CFG p), c.get (PTP_PORT_STAT p), c.get (PTP_RXQ_LOST p), c.get (PTP_TXR_LOST p)]⟩)
  ∧ (∀ (s : State) (t : Nat) (ch : Fin 16) (r : Req) (c : Chip), c = s.chipAt t → s.asksFor t ch.val 0x0700 0 r → r.len = 0 →
    ∃ s', Sys2Proof.Machine.exec (.dmcGetStatus t ch) s = .next s' ∧ s'.answered r ⟨0, 0, 0,
        [c.get DMC_STATUS, c.get DMC_LAYOUT] ++ (List.range 8).flatMap fun n =>
          [c.get (DMC_CH_STAT n), c.get (DMC_CH_DIMM n), c.get (DMC_CE_COUNT n), c.get (DMC_UE_COUNT n), c.get (DMC_ERR_ADDR_LO n),
            c.get (DMC_ERR_ADDR_HI n), c.get (DMC_ERR_INFO n), c.get (DMC_ALERT_COUNT n), c.get (DMC_NOACC_COUNT n)]⟩)
  ∧ (∀ (s : State) (t : Nat) (ch : Fin 16) (r : Req) (c : Chip), c = s.chipAt t → s.asksFor t ch.val 0x1000 0 r → r.len = 0 →
    ∃ s', Sys2Proof.Machine.exec (.busGetStatus t ch) s = .next s' ∧ s'.answered r ⟨0, 0, 0,
        [BUS_STATUS, BUS_APT_CTL, BUS_ERR_ADDR_LO, BUS_ERR_ADDR_HI, BUS_ERR_INFO, BUS_WDOG_COUNT, BUS_LOCK_BREAKS].map c.get
          ++ (List.range 10).flatMap fun m => [BUS_MST_STAT m, BUS_MST_ERR m, BUS_MASTER_ABORT m].map c.get⟩)
  ∧ ∀ (s : State) (t : Nat) (ch : Fin 16) (r : Req) (c : Chip), c = s.chipAt t → s.asksFor t ch.val 0x0401 0 r → r.len = 0 →
    ∃ s', Sys2Proof.Machine.exec (.xptGetBudget t ch) s = .next s' ∧ s'.answered r ⟨0, 0, 0,
        [loadOf c.xptLoads, c.xptCap, c.pendingPeak.1, loadOf c.dramLoads, c.dramBudget, c.pendingPeak.2, loadOf c.tileLoads, 64]⟩

/-- UPD_GET_STATUS; PTP_GET_RECORDS; XPT_GET_ROUTES; FSY_GET_STATUS; LBS_GET_STATUS of playback channels; SDI_GET_STATUS; FAB_GET_STATUS of links, of
which a lane that begins no link reads 0; NET_GET_STATS; FLOW_GET_STATUS of senders; AUD_GET_STATUS, MVC_GET_STATUS and TWN_GET_STATUS with
selectors 0, 2 and 1; SAP_GET_STATUS (R193, R219, R243, R299, R365, R391, R420, R442, R495, R515, R541, R584, R635): a request with no flags and
word 3 zero that is next, passes the first steps of R135, and names a range or an index that exists, is answered OK with the registers its rule
lists, in its order. The other selectors stand in SelectorQueries. -/
def Obligations.SelectedQueries : Prop :=
  (∀ (s : State) (t : Nat) (ch : Fin 16) (r : Req) (c : Chip), c = s.chipAt t → s.asksFor t ch.val 0x1100 0 r → r.len = 0 →
    ∃ s', Sys2Proof.Machine.exec (.updGetStatus t ch) s = .next s' ∧ s'.answered r ⟨0, 0, 0,
        [SEC_STATUS, UPD_STATE].map c.get ++ [(c.wr UPD_HEALTH_REMAIN_S c.healthLeft).get UPD_HEALTH]
          ++ [UPD_DL_BYTES, UPD_SCHEMA, SEC_BOOT, UPD_BANK_VER 0, UPD_BANK_VER 1, UPD_BANK_STAT 0, UPD_BANK_STAT 1].map c.get
          ++ (List.range 6).map fun k => c.get (SEC_OTP_CTR k)⟩)
  ∧ (∀ (s : State) (t : Nat) (ch : Fin 16) (r : Req) (es : List (List Nat)) (c : Chip), c = s.chipAt t → s.asksFor t ch.val 0x0301 0 r →
      r.len = 8 →
      r.w 0 < 4 →
      1 ≤ r.w 1 →
      r.w 1 ≤ 63 →
      es = ((if bit (r.w 0) 1 then (c.ptpPort (r.w 0 % 2)).txCopy else (c.ptpPort (r.w 0 % 2)).rxCopy).take (r.w 1)) →
    ∃ s', Sys2Proof.Machine.exec (.ptpGetRecords t ch) s = .next s' ∧ s'.answered r ⟨0, 0, 0,
        es.length :: es.reverse.flatten⟩)
  ∧ (∀ (s : State) (t : Nat) (ch : Fin 16) (r : Req) (c : Chip), c = s.chipAt t → s.asksFor t ch.val 0x0400 0 r →
      r.len = 8 →
      1 ≤ r.w 1 →
      r.w 1 ≤ 384 →
      ((List.range (r.w 1)).all fun i => dstOffered c.role (r.w 0 + i)) = true →
    ∃ s', Sys2Proof.Machine.exec (.xptGetRoutes t ch) s = .next s' ∧ s'.answered r ⟨0, 0, 0,
        [r.w 1 + (if 211 < (c.pendingRoutes (r.w 0) (r.w 1)).length then 2 ^ 31 else 0)]
          ++ ((List.range (r.w 1)).map fun i => c.get (XPT_DST_CTL (r.w 0 + i))) 
          ++ [min 211 (c.pendingRoutes (r.w 0) (r.w 1)).length] ++ ((c.pendingRoutes (r.w 0) (r.w 1)).take 211).flatten⟩)
  ∧ (∀ (s : State) (t : Nat) (ch : Fin 16) (r : Req) (c : Chip), c = s.chipAt t → s.asksFor t ch.val 0x0500 0 r →
      r.len = 8 →
      1 ≤ r.w 1 →
      r.w 1 ≤ 254 →
      ((List.range (r.w 1)).all fun i => srcOffered c.role (r.w 0 + i)) = true →
    ∃ s', Sys2Proof.Machine.exec (.fsyGetStatus t ch) s = .next s' ∧ s'.answered r ⟨0, 0, 0,
        (List.range (r.w 1)).flatMap fun i =>
          [c.get (FSY_SRC_STAT (r.w 0 + i)), c.get (FSY_SRC_OFFSET (r.w 0 + i)), c.get (FSY_SRC_DELAY (r.w 0 + i)), c.get (FSY_SRC_CNT (r.w 0 + i))]⟩)
  ∧ (∀ (s : State) (t : Nat) (ch : Fin 16) (r : Req) (c : Chip), c = s.chipAt t → s.asksFor t ch.val 0x0600 0 r →
      r.len = 12 →
      r.w 0 = 1 →
      1 ≤ r.w 2 →
      r.w 1 + r.w 2 ≤ 48 →
    ∃ s', Sys2Proof.Machine.exec (.lbsGetStatus t ch) s = .next s' ∧ s'.answered r ⟨0, 0, 0,
        ((List.range (r.w 2)).flatMap fun i =>
          [c.get (LBS_PB_CTL (r.w 1 + i)), c.get (LBS_PB_STAT (r.w 1 + i)), c.get (LBS_PB_CNT (r.w 1 + i))]) ++ [c.space]⟩)
  ∧ (∀ (s : State) (t : Nat) (ch : Fin 16) (r : Req) (c : Chip), c = s.chipAt t → s.asksFor t ch.val 0x0800 0 r →
      r.len = 8 →
      1 ≤ r.w 1 →
      r.w 0 + r.w 1 ≤ 48 →
    ∃ s', Sys2Proof.Machine.exec (.sdiGetStatus t ch) s = .next s' ∧ s'.answered r ⟨0, 0, 0,
        [c.get SDI_STATUS] ++ (List.range (r.w 1)).flatMap fun i =>
          [c.get (SDI_RX_STAT (r.w 0 + i)), c.get (SDI_RX_CRC (r.w 0 + i)), c.get (SDI_RX_LOCKS (r.w 0 + i)), c.get (SDI_RX_PID (r.w 0 + i)),
            c.get (SDI_RX_TC (r.w 0 + i)), c.get (SDI_TX_STAT (r.w 0 + i))]⟩)
  ∧ (∀ (s : State) (t : Nat) (ch : Fin 16) (r : Req) (c : Chip), c = s.chipAt t → s.asksFor t ch.val 0x0900 0 r →
      r.len = 12 →
      r.w 0 = 1 →
      1 ≤ r.w 2 →
      r.w 1 + r.w 2 ≤ 48 →
    ∃ s', Sys2Proof.Machine.exec (.fabGetStatus t ch) s = .next s' ∧ s'.answered r ⟨0, 0, 0,
        [c.get FAB_STATUS, c.get FAB_CFG] ++ (List.range (r.w 2)).flatMap fun i =>
          [FAB_LK_CFG (r.w 1 + i), FAB_LK_STAT (r.w 1 + i), FAB_LK_PEER (r.w 1 + i), FAB_LK_CNT (r.w 1 + i)].map fun x =>
            if c.linkWidth (r.w 1 + i) = 0 then 0 else c.get x⟩)
  ∧ (∀ (s : State) (t : Nat) (ch : Fin 16) (r : Req) (c : Chip), c = s.chipAt t → s.asksFor t ch.val 0x0A00 0 r → r.len = 4 → r.w 0 < 2 →
    ∃ s', Sys2Proof.Machine.exec (.netGetStats t ch) s = .next s' ∧ s'.answered r ⟨0, 0, 0,
        [c.get NET_STATUS, c.status (NET_PORT_STATUS (r.w 0)), c.get (NET_PORT_STAT (r.w 0)), c.get (NET_GCL_CTL (r.w 0)),
          c.get (NET_GCL_START (r.w 0))] ++ (List.range 19).map fun k => c.get (NET_CNT (r.w 0) k)⟩)
  ∧ (∀ (s : State) (t : Nat) (ch : Fin 16) (r : Req) (c : Chip), c = s.chipAt t → s.asksFor t ch.val 0x0B00 0 r →
      r.len = 12 →
      r.w 0 = 1 →
      1 ≤ r.w 2 →
      r.w 1 + r.w 2 ≤ 112 →
    ∃ s', Sys2Proof.Machine.exec (.flowGetStatus t ch) s = .next s' ∧ s'.answered r ⟨0, 0, 0,
        (List.range (r.w 2)).flatMap fun i =>
          [c.get (NET_TXF_CTL (r.w 1 + i)), c.get (NET_TXF_STAT (r.w 1 + i))] ++ (List.range 4).map fun k => c.get (NET_TXF_CNT (r.w 1 + i) k)⟩)
  ∧ (∀ (s : State) (t : Nat) (ch : Fin 16) (r : Req) (c : Chip), c = s.chipAt t → s.asksFor t ch.val 0x0C00 0 r → r.len = 4 → r.w 0 = 0 →
    ∃ s', Sys2Proof.Machine.exec (.audGetStatus t ch) s = .next s' ∧ s'.answered r ⟨0, 0, 0,
        [c.get AUD_STATUS, c.get AUD_CFG, c.get AUD_STATE_CRC_LO, c.get AUD_STATE_CRC_HI, c.get AUD_BRIDGE_RATIO, c.get AUD_BRIDGE_USE]⟩)
  ∧ (∀ (s : State) (t : Nat) (ch : Fin 16) (r : Req) (c : Chip), c = s.chipAt t → s.asksFor t ch.val 0x0D00 0 r →
      r.len = 8 →
      1 ≤ r.w 1 →
      r.w 0 + r.w 1 ≤ 16 →
    ∃ s', Sys2Proof.Machine.exec (.sapGetStatus t ch) s = .next s' ∧ s'.answered r ⟨0, 0, 0,
        [c.get SAP_STATUS, c.get SAP_CFG, c.get SAP_GROUP_LAT, c.get SAP_MCLK_FREQ] ++ (List.range (r.w 1)).flatMap fun i =>
          [c.get (SAP_PORT_CTL (r.w 0 + i)), c.get (SAP_PORT_STAT (r.w 0 + i)), c.get (SAP_PORT_RATIO (r.w 0 + i)), c.get (SAP_PORT_RX_REP (r.w 0 + i)),
            c.get (SAP_PORT_RX_DISC (r.w 0 + i)), c.get (SAP_PORT_TX_REP (r.w 0 + i)), c.get (SAP_PORT_TX_DISC (r.w 0 + i))]⟩)
  ∧ (∀ (s : State) (t : Nat) (ch : Fin 16) (r : Req) (c : Chip), c = s.chipAt t → s.asksFor t ch.val 0x0E00 0 r →
      r.len = 12 →
      r.w 0 = 2 →
      1 ≤ r.w 2 →
      r.w 1 + r.w 2 ≤ 64 →
    ∃ s', Sys2Proof.Machine.exec (.mvcGetStatus t ch) s = .next s' ∧ s'.answered r ⟨0, 0, 0,
        (List.range (r.w 2)).map fun i => c.get (MVC_TAP (r.w 1 + i))⟩)
  ∧ ∀ (s : State) (t : Nat) (ch : Fin 16) (r : Req) (c : Chip), c = s.chipAt t → s.asksFor t ch.val 0x0F00 0 r →
      r.len = 12 →
      r.w 0 = 1 →
      r.w 1 < 2 →
      1 ≤ r.w 2 →
      r.w 2 ≤ 64 →
    ∃ s', Sys2Proof.Machine.exec (.twnGetStatus t ch) s = .next s' ∧ s'.answered r ⟨0, 0, 0,
        ((c.twn.history.filter fun e => e.1 == r.w 1).take (r.w 2)).flatMap fun e => [e.2.1, e.2.2.1, e.2.2.2.getD 0 0, e.2.2.2.getD 1 0]⟩

/-- LBS_GET_STATUS of record channels; FAB_GET_STATUS of lanes, slots and merges; FLOW_GET_STATUS of receive flows and of the anchors; AUD_GET_STATUS
with selectors 1 to 3; MVC_GET_STATUS with selectors 0 and 1; TWN_GET_STATUS with selector 0 (R243, R365, R420, R495, R541, R584); and the
certificate that SEC_ATTEST returns (R631): a request with no flags and word 3 zero that is next, passes the first steps of R135, and names what
exists, is answered OK with the registers and values its rule lists, in its order. -/
def Obligations.SelectorQueries : Prop :=
  (∀ (s : State) (t : Nat) (ch : Fin 16) (r : Req) (c : Chip), c = s.chipAt t → s.asksFor t ch.val 0x0600 0 r →
      r.len = 12 →
      r.w 0 = 0 →
      1 ≤ r.w 2 →
      r.w 1 + r.w 2 ≤ 48 →
    ∃ s', Sys2Proof.Machine.exec (.lbsGetStatus t ch) s = .next s' ∧ s'.answered r ⟨0, 0, 0,
        ((List.range (r.w 2)).flatMap fun i =>
          [c.get (LBS_REC_CTL (r.w 1 + i)), c.get (LBS_REC_REGION (r.w 1 + i)), c.get (LBS_REC_DEPTH (r.w 1 + i)), c.get (LBS_REC_HIST (r.w 1 + i)),
            c.get (LBS_REC_GAPS (r.w 1 + i))]) ++ [c.space]⟩)
  ∧ (∀ (s : State) (t : Nat) (ch : Fin 16) (r : Req) (c : Chip), c = s.chipAt t → s.asksFor t ch.val 0x0900 0 r →
      r.len = 12 →
      r.w 0 = 0 →
      1 ≤ r.w 2 →
      r.w 1 + r.w 2 ≤ 48 →
    ∃ s', Sys2Proof.Machine.exec (.fabGetStatus t ch) s = .next s' ∧ s'.answered r ⟨0, 0, 0,
        [c.get FAB_LN_SUMMARY] ++ (List.range (r.w 2)).flatMap fun i =>
          [c.get (FAB_LN_CFG (r.w 1 + i)), c.get (FAB_LN_STAT (r.w 1 + i)), c.get (FAB_LN_EQ (r.w 1 + i)), c.get (FAB_LN_EYE (r.w 1 + i)),
            c.get (FAB_LN_ERR (r.w 1 + i)), c.get (FAB_LN_TRAIN (r.w 1 + i)), c.get (FAB_LN_TEST (r.w 1 + i))]⟩)
  ∧ (∀ (s : State) (t : Nat) (ch : Fin 16) (r : Req) (c : Chip), c = s.chipAt t → s.asksFor t ch.val 0x0900 0 r →
      r.len = 12 →
      r.w 0 = 2 →
      1 ≤ r.w 2 →
      r.w 1 + r.w 2 ≤ 192 →
    ∃ s', Sys2Proof.Machine.exec (.fabGetStatus t ch) s = .next s' ∧ s'.answered r ⟨0, 0, 0,
        (List.range (r.w 2)).flatMap fun i => [c.get (FAB_SLOT_CTL (r.w 1 + i)), c.get (FAB_SLOT_STAT (r.w 1 + i))]⟩)
  ∧ (∀ (s : State) (t : Nat) (ch : Fin 16) (r : Req) (c : Chip), c = s.chipAt t → s.asksFor t ch.val 0x0900 0 r →
      r.len = 12 →
      r.w 0 = 3 →
      1 ≤ r.w 2 →
      r.w 1 + r.w 2 ≤ 96 →
      c.role = 1 →
    ∃ s', Sys2Proof.Machine.exec (.fabGetStatus t ch) s = .next s' ∧ s'.answered r ⟨0, 0, 0,
        (List.range (r.w 2)).flatMap fun i => [c.get (FAB_MRG_CNT (r.w 1 + i)), c.get (FAB_MRG_DIFF (r.w 1 + i))]⟩)
  ∧ (∀ (s : State) (t : Nat) (ch : Fin 16) (r : Req) (c : Chip), c = s.chipAt t → s.asksFor t ch.val 0x0B00 0 r →
      r.len = 12 →
      r.w 0 = 0 →
      1 ≤ r.w 2 →
      r.w 2 ≤ 64 →
      r.w 1 + r.w 2 ≤ 112 →
    ∃ s', Sys2Proof.Machine.exec (.flowGetStatus t ch) s = .next s' ∧ s'.answered r ⟨0, 0, 0,
        (List.range (r.w 2)).flatMap fun i =>
          [c.get (NET_RXF_CTL (r.w 1 + i)), c.get (NET_RXF_STAT (r.w 1 + i)), c.get (NET_RXF_OFFSET (r.w 1 + i))]
            ++ (List.range 7).map fun k => c.get (NET_RXF_CNT (r.w 1 + i) k)⟩)
  ∧ (∀ (s : State) (t : Nat) (ch : Fin 16) (r : Req) (c : Chip), c = s.chipAt t → s.asksFor t ch.val 0x0B00 0 r →
      r.len = 12 →
      r.w 0 = 2 →
      r.w 1 < 112 →
      r.w 2 = 0 →
    ∃ s', Sys2Proof.Machine.exec (.flowGetStatus t ch) s = .next s' ∧ s'.answered r ⟨0, 0, 0,
        [0, 1].flatMap fun q => [c.get (NET_ANCHOR_EPOCH q), c.get (NET_ANCHOR_RTP90 q), c.get (NET_ANCHOR_RTP48 q), c.get (NET_ANCHOR_CTL q)]⟩)
  ∧ (∀ (s : State) (t : Nat) (ch : Fin 16) (r : Req) (c : Chip), c = s.chipAt t → s.asksFor t ch.val 0x0C00 0 r →
      r.len = 12 →
      r.w 0 = 1 →
      1 ≤ r.w 2 →
      r.w 2 ≤ 510 →
      r.w 1 + r.w 2 ≤ 512 →
    ∃ s', Sys2Proof.Machine.exec (.audGetStatus t ch) s = .next s' ∧ s'.answered r ⟨0, 0, 0,
        (List.range (r.w 2)).flatMap fun i => [c.get (AUD_MIXOUT_CTL (r.w 1 + i)), c.get (AUD_MIXOUT_STAT (r.w 1 + i))]⟩)
  ∧ (∀ (s : State) (t : Nat) (ch : Fin 16) (r : Req) (c : Chip), c = s.chipAt t → s.asksFor t ch.val 0x0C00 0 r →
      r.len = 16 →
      r.w 0 = 2 →
      r.w 1 < 512 →
      1 ≤ r.w 3 →
      r.w 2 + r.w 3 ≤ 512 →
    ∃ s', Sys2Proof.Machine.exec (.audGetStatus t ch) s = .next s' ∧ s'.answered r ⟨0, 0, 0,
        (List.range (r.w 3)).map fun i => argI (c.coef (r.w 1 * 512 + r.w 2 + i)).current⟩)
  ∧ (∀ (s : State) (t : Nat) (ch : Fin 16) (r : Req) (c : Chip), c = s.chipAt t → s.asksFor t ch.val 0x0C00 0 r →
      r.len = 12 →
      r.w 0 = 3 →
      1 ≤ r.w 2 →
      r.w 2 ≤ 1000 →
      r.w 1 + r.w 2 ≤ 8192 →
    ∃ s', Sys2Proof.Machine.exec (.audGetStatus t ch) s = .next s' ∧ s'.answered r ⟨0, 0, 0,
        (List.range (r.w 2)).map fun i => c.get (AUD_SHUF (r.w 1 + i))⟩)
  ∧ (∀ (s : State) (t : Nat) (ch : Fin 16) (r : Req) (c : Chip), c = s.chipAt t → s.asksFor t ch.val 0x0E00 0 r → r.len = 4 → r.w 0 = 0 →
    ∃ s', Sys2Proof.Machine.exec (.mvcGetStatus t ch) s = .next s' ∧ s'.answered r ⟨0, 0, 0,
        [c.get MVC_STATUS, min 64 c.tileUse.1 + min 64 c.tileUse.2 * 2 ^ 16] ++ (List.range 4).flatMap fun h =>
          [c.get (MVC_HEAD_CTL h), c.get (MVC_HEAD_STAT h), c.get (MVC_HEAD_BG h), c.get (MVC_HEAD_SLATE h), c.get (MVC_HEAD_LATE h)]⟩)
  ∧ (∀ (s : State) (t : Nat) (ch : Fin 16) (r : Req) (c : Chip), c = s.chipAt t → s.asksFor t ch.val 0x0E00 0 r →
      r.len = 8 →
      r.w 0 = 1 →
      r.w 1 < 4 →
    ∃ s', Sys2Proof.Machine.exec (.mvcGetStatus t ch) s = .next s' ∧ s'.answered r ⟨0, 0, 0,
        ((List.range 16).flatMap fun v =>
          [c.get (MVC_VL_CTL (r.w 1) v), c.get (MVC_VL_POS (r.w 1) v), c.get (MVC_VL_SIZE (r.w 1) v), c.get (MVC_VL_STAT (r.w 1) v)])
          ++ (List.range 4).flatMap fun l =>
          [c.get (MVC_GL_CTL (r.w 1) l), c.get (MVC_GL_POS (r.w 1) l), c.get (MVC_GL_SIZE (r.w 1) l), c.get (MVC_GL_FENCE (r.w 1) l)]⟩)
  ∧ (∀ (s : State) (t : Nat) (ch : Fin 16) (r : Req) (c : Chip), c = s.chipAt t → s.asksFor t ch.val 0x0F00 0 r → r.len = 4 → r.w 0 = 0 →
    ∃ s', Sys2Proof.Machine.exec (.twnGetStatus t ch) s = .next s' ∧ s'.answered r ⟨0, 0, 0,
        [TWN_STATUS, TWN_INT_EN, TWN_CFG, TWN_STATE, TWN_PEER, TWN_DIAG, TWN_FWD_SEQ, TWN_COUNTS, TWN_MATCH 0, TWN_MATCH 1,
          TWN_CMP_EPOCH 0, TWN_CMP_EPOCH 1, TWN_CONFIG_SEQ 0, TWN_CONFIG_SEQ 1].map c.get
          ++ ([0, 1].flatMap fun q => (List.range 8).map fun w => c.get (TWN_CREMA q w)) ++ ((List.range 5).map fun k => c.get (TWN_DIV_CNT k))
          ++ [c.get TWN_DIV_EPOCH, c.get TWN_DIV_INFO]⟩)
  ∧ ∀ (s : State) (t : Nat) (ch : Fin 16) (r : Req) (c : Chip), c = s.chipAt t → s.asksFor t ch.val 0x1101 0 r → r.len = 4 → r.w 0 = 1 →
    ∃ s', Sys2Proof.Machine.exec (.secAttest t ch) s = .next s' ∧ s'.answered r ⟨0, 0, 0,
        min Config.certLength 4000
          :: (List.range ((min Config.certLength 4000 + 3) / 4)).map fun i => Config.certWord i % 2 ^ 32⟩

/-- SET_ROLE, CANCEL, CLEAR_STICKY, LANE_RESET, PWR_SET_DOMAIN, PWR_SET_MON (R114, R115, R147 to R150, R300, R313, R333, R370), each on a request
whose words meet the conditions of its rule, given here one by one. SET_ROLE: PENDING_ROLE is the role, PENDING says whether it differs from the
running one, and the journal holds it. CANCEL: the changes of the request it names leave the take queue and the journal, and are counted in the
response. CLEAR_STICKY: every W1C bit named outside the mailbox block is 0, unless hardware set it in this ACLK cycle, and the response gives
each register right after its clear. LANE_RESET of an SDI receiver: CRC, PID and TC read 0; of a fabric or twin receive direction: EYE and ERR
read 0, a lane OFF, in DOZE or without signal keeps its state and any other trains, counted in RETRAINS; of a transmit direction of these: the
last level sent is 0; of a network port: a port past NO_SIGNAL trains again; each sets its block's DEFAULTS_RESTORED. PWR_SET_DOMAIN: REQ of each
domain is the state asked for and the request waits for PWR_SET_DOMAIN_DONE. PWR_SET_MON: the levels are written. All but the domain request are
answered OK. -/
def Obligations.TopAndPowerRequests : Prop :=
  (∀ (s : State) (t : Nat) (ch : Fin 16) (r : Req) (c : Chip), c = s.chipAt t → s.asksFor t ch.val 0x0082 0 r →
      r.len = 4 → r.w 0 < 3 → (r.w 0 = 2 → c.on TWN_CFG_PENDING_ENABLE = false) → c.twnMode = 0 → c.mramHeld = false → c.upd.refused = false →
    ∃ s', Sys2Proof.Machine.exec (.setRole t ch) s = .next s'
      ∧ s'.answered r ⟨0, 0, 0, []⟩
      ∧ s'.chip.rd TOP_ROLE_PENDING_ROLE = r.w 0
      ∧ s'.chip.on TOP_ROLE_PENDING = (r.w 0 != c.role)
      ∧ (settingIn s'.chip.fw.journal (.role, 0) = some ⟨.role, 0, [r.w 0]⟩))
  ∧ (∀ (s : State) (t : Nat) (ch : Fin 16) (r : Req) (h : Hist) (c : Chip), c = s.chipAt t → s.mayAsk t ch.val 0x0083 r →
      let chn := bits (r.w 0) 16 16;
      let sq := bits (r.w 0) 0 16;
      let mine := c.fw.queue.filter fun p => p.chan == chn && p.seq == sq;
      r.lenIs 1 = true → ((h.resp.status == stPending && !(bit h.resp.flags 2)) : Bool) = true → ((r.epoch == 0) : Bool) = true →
      ((!h.taken && !(mine.any c.dueSoon)) : Bool) = true → c.fw.hist.find? (fun h => h.chan == chn && h.seq == sq) = some h →
      c.hasRoom [] [⟨.cancel, 0, [chn, sq]⟩] = true →
    ∃ s', Sys2Proof.Machine.exec (.cancel t ch) s = .next s'
      ∧ s'.answered r ⟨0, 0, 0, [mine.length]⟩
      ∧ s'.chip.queued chn sq = false
      ∧ (s'.chip.fw.journal.all fun j => !(j.chan == chn && j.seq == sq)) = true)
  ∧ (∀ (s : State) (t : Nat) (ch : Fin 16) (r : Req) (c : Chip), c = s.chipAt t → s.mayAsk t ch.val 0x0084 r →
      let es := stickyEntries r;
      let ok := fun (e : Nat × Nat) => e.1 < 2 ^ 24 && e.1 % 4 == 0 &&
        match rowOf e.1 with
        | none => false
        | some row => e.2 &&& row.w1c == e.2;
      ((r.lenIs (1 + 2 * r.w 0) && r.payload.length != 0) : Bool) = true →
      ((1 ≤ r.w 0 && r.w 0 ≤ 509 && nodup (es.map Prod.fst) && es.all ok) : Bool) = true →
    ∃ s', Sys2Proof.Machine.exec (.clearSticky t ch) s = .next s'
      ∧ s'.answered r ⟨0, 0, 0, c.clearAll es⟩
      ∧ (es.all fun e => e.1 / 65536 == 1 || (List.range 32).all fun i =>
        !(bit e.2 i) || bit (c.fresh e.1) i || !(bit (s'.chip.get ⟨e.1, dfltOf e.1⟩) i)) = true)
  ∧ (∀ (s : State) (t : Nat) (ch : Fin 16) (r : Req) (c : Chip), c = s.chipAt t → s.mayAsk t ch.val 0x0085 r →
      let w := r.w 0;
      let kind := bits w 0 2;
      let i := bits w 2 6;
      bits (r.w 0) 0 2 = 0 → bits (r.w 0) 8 1 = 0 → r.lenIs 1 = true →
      ((w < 512 && i < [48, 48, 2, 8].getD kind 0 && !(c.heldOff (lnrDom kind i (bits w 8 1)))) : Bool) = true →
    ∃ s', Sys2Proof.Machine.exec (.laneReset t ch) s = .next s'
      ∧ s'.answered r ⟨0, 0, 0, []⟩
      ∧ s'.chip.get (SDI_RX_CRC (bits (r.w 0) 2 6)) = 0
      ∧ s'.chip.get (SDI_RX_PID (bits (r.w 0) 2 6)) = 0
      ∧ s'.chip.get (SDI_RX_TC (bits (r.w 0) 2 6)) = 0
      ∧ s'.chip.on SDI_STATUS_DEFAULTS_RESTORED = true)
  ∧ (∀ (s : State) (t : Nat) (ch : Fin 16) (r : Req) (c : Chip), c = s.chipAt t → s.mayAsk t ch.val 0x0085 r →
      let w := r.w 0;
      let kind := bits w 0 2;
      let i := bits w 2 6;
      bits (r.w 0) 0 2 = 0 → bits (r.w 0) 8 1 = 1 → r.lenIs 1 = true →
      ((w < 512 && i < [48, 48, 2, 8].getD kind 0 && !(c.heldOff (lnrDom kind i (bits w 8 1)))) : Bool) = true →
    ∃ s', Sys2Proof.Machine.exec (.laneReset t ch) s = .next s'
      ∧ s'.answered r ⟨0, 0, 0, []⟩
      ∧ s'.chip.on SDI_STATUS_DEFAULTS_RESTORED = true)
  ∧ (∀ (s : State) (t : Nat) (ch : Fin 16) (r : Req) (c : Chip), c = s.chipAt t → s.mayAsk t ch.val 0x0085 r →
      let w := r.w 0;
      let kind := bits w 0 2;
      let i := bits w 2 6;
      bits (r.w 0) 0 2 = 1 → bits (r.w 0) 8 1 = 0 → r.lenIs 1 = true →
      ((w < 512 && i < [48, 48, 2, 8].getD kind 0 && !(c.heldOff (lnrDom kind i (bits w 8 1)))) : Bool) = true →
    ∃ s', Sys2Proof.Machine.exec (.laneReset t ch) s = .next s'
      ∧ s'.answered r ⟨0, 0, 0, []⟩
      ∧ s'.chip.get (lnEye (bits (r.w 0) 2 6)) = 0
      ∧ s'.chip.get (lnErr (bits (r.w 0) 2 6)) = 0
      ∧ (c.lnSt (bits (r.w 0) 2 6) ≤ lnDoze → s'.chip.lnSt (bits (r.w 0) 2 6) = c.lnSt (bits (r.w 0) 2 6))
      ∧ (lnDoze < c.lnSt (bits (r.w 0) 2 6) → s'.chip.lnSt (bits (r.w 0) 2 6) = (if c.on (lnAccepted (bits (r.w 0) 2 6)) then lnAcquire else lnSweep)
        ∧ s'.chip.rd ((lnTrain (bits (r.w 0) 2 6)).fld 0 16) = min (2 ^ 16 - 1) (c.rd ((lnTrain (bits (r.w 0) 2 6)).fld 0 16) + 1))
      ∧ s'.chip.on FAB_STATUS_DEFAULTS_RESTORED = true)
  ∧ (∀ (s : State) (t : Nat) (ch : Fin 16) (r : Req) (c : Chip), c = s.chipAt t → s.mayAsk t ch.val 0x0085 r →
      let w := r.w 0;
      let kind := bits w 0 2;
      let i := bits w 2 6;
      bits (r.w 0) 0 2 = 1 → bits (r.w 0) 8 1 = 1 → r.lenIs 1 = true →
      ((w < 512 && i < [48, 48, 2, 8].getD kind 0 && !(c.heldOff (lnrDom kind i (bits w 8 1)))) : Bool) = true →
    ∃ s', Sys2Proof.Machine.exec (.laneReset t ch) s = .next s'
      ∧ s'.answered r ⟨0, 0, 0, []⟩
      ∧ (s'.chip.lane (bits (r.w 0) 2 6)).txLevel = 0
      ∧ s'.chip.on FAB_STATUS_DEFAULTS_RESTORED = true)
  ∧ (∀ (s : State) (t : Nat) (ch : Fin 16) (r : Req) (c : Chip), c = s.chipAt t → s.mayAsk t ch.val 0x0085 r →
      let w := r.w 0;
      let kind := bits w 0 2;
      let i := bits w 2 6;
      bits (r.w 0) 0 2 = 2 → bits (r.w 0) 8 1 = 0 → r.lenIs 1 = true →
      ((w < 512 && i < [48, 48, 2, 8].getD kind 0 && !(c.heldOff (lnrDom kind i (bits w 8 1)))) : Bool) = true →
    ∃ s', Sys2Proof.Machine.exec (.laneReset t ch) s = .next s'
      ∧ s'.answered r ⟨0, 0, 0, []⟩
      ∧ s'.chip.get (lnEye (48 + bits (r.w 0) 2 6)) = 0
      ∧ s'.chip.get (lnErr (48 + bits (r.w 0) 2 6)) = 0
      ∧ (c.lnSt (48 + bits (r.w 0) 2 6) ≤ lnDoze → s'.chip.lnSt (48 + bits (r.w 0) 2 6) = c.lnSt (48 + bits (r.w 0) 2 6))
      ∧ (lnDoze < c.lnSt (48 + bits (r.w 0) 2 6) → s'.chip.lnSt (48 + bits (r.w 0) 2 6) = (if c.on (lnAccepted (48 + bits (r.w 0) 2 6)) then lnAcquire else lnSweep)
        ∧ s'.chip.rd ((lnTrain (48 + bits (r.w 0) 2 6)).fld 0 16) = min (2 ^ 16 - 1) (c.rd ((lnTrain (48 + bits (r.w 0) 2 6)).fld 0 16) + 1))
      ∧ s'.chip.on TWN_STATUS_DEFAULTS_RESTORED = true)
  ∧ (∀ (s : State) (t : Nat) (ch : Fin 16) (r : Req) (c : Chip), c = s.chipAt t → s.mayAsk t ch.val 0x0085 r →
      let w := r.w 0;
      let kind := bits w 0 2;
      let i := bits w 2 6;
      bits (r.w 0) 0 2 = 2 → bits (r.w 0) 8 1 = 1 → r.lenIs 1 = true →
      ((w < 512 && i < [48, 48, 2, 8].getD kind 0 && !(c.heldOff (lnrDom kind i (bits w 8 1)))) : Bool) = true →
    ∃ s', Sys2Proof.Machine.exec (.laneReset t ch) s = .next s'
      ∧ s'.answered r ⟨0, 0, 0, []⟩
      ∧ (s'.chip.lane (48 + bits (r.w 0) 2 6)).txLevel = 0
      ∧ s'.chip.on TWN_STATUS_DEFAULTS_RESTORED = true)
  ∧ (∀ (s : State) (t : Nat) (ch : Fin 16) (r : Req) (c : Chip), c = s.chipAt t → s.mayAsk t ch.val 0x0085 r →
      let w := r.w 0;
      let kind := bits w 0 2;
      let i := bits w 2 6;
      bits (r.w 0) 0 2 = 3 → r.lenIs 1 = true →
      ((w < 512 && i < [48, 48, 2, 8].getD kind 0 && !(c.heldOff (lnrDom kind i (bits w 8 1)))) : Bool) = true →
    ∃ s', Sys2Proof.Machine.exec (.laneReset t ch) s = .next s'
      ∧ s'.answered r ⟨0, 0, 0, []⟩
      ∧ s'.chip.on NET_STATUS_DEFAULTS_RESTORED = true
      ∧ (npNoSignal < c.npState (bits (r.w 0) 2 6 / 4) → s'.chip.npState (bits (r.w 0) 2 6 / 4) = c.npStart (bits (r.w 0) 2 6 / 4)))
  ∧ (∀ (s : State) (t : Nat) (ch : Fin 16) (r : Req) (c : Chip), c = s.chipAt t → s.mayAsk t ch.val 0x0180 r →
      let ws := r.ws 1 (r.w 0);
      let es := ws.map fun w => (bits w 0 8, bits w 8 2);
      ((r.lenIs (1 + r.w 0) && r.payload.length != 0) : Bool) = true →
      ((1 ≤ r.w 0 && r.w 0 ≤ 248 && ws.all (· < 1024) && r.epoch == 0
        && (es.all fun e => e.1 < 248 && domValid e.1 e.2 && (e.2 == stOff || !(c.heldOff e.1))) && nodup (es.map Prod.fst)) : Bool) = true →
      ((es.all fun e => !(isMem e.1) || (c.chEnabled (e.1 - 212) && c.chState (e.1 - 212) != chTraining)) : Bool) = true →
      ((es.all fun e => (c.domDeny c.reserved es e).isNone) : Bool) = true → c.hasRoom [] (es.map fun e => ⟨.dom, e.1, [e.2]⟩) = true →
    ∃ s', Sys2Proof.Machine.exec (.pwrSetDomain t ch) s = .next s'
      ∧ ((List.range (r.w 0)).all fun i => s'.chip.rd (PWR_DOM_CTL_REQ (bits (r.w (1 + i)) 0 8)) == bits (r.w (1 + i)) 8 2) = true
      ∧ s'.waits r .domains)
  ∧ ∀ (s : State) (t : Nat) (ch : Fin 16) (r : Req) (c : Chip), c = s.chipAt t → s.mayAsk t ch.val 0x0181 r →
      let es := (List.range (r.w 0)).map fun i => (r.w (1 + 2 * i), r.w (2 + 2 * i));
      ((r.lenIs (1 + 2 * r.w 0) && r.payload.length != 0) : Bool) = true →
      ((1 ≤ r.w 0 && r.w 0 ≤ 8 && r.epoch == 0 && nodup (es.map Prod.fst)
        && es.all fun e => e.1 < 8 && e.2 &&& 0xF000F000 == 0 && monOk (c.rd PWR_AVS_TARGET_STEP) e.1 e.2) : Bool) = true →
    ∃ s', Sys2Proof.Machine.exec (.pwrSetMon t ch) s = .next s'
      ∧ s'.answered r ⟨0, 0, 0, []⟩
      ∧ ((List.range (r.w 0)).all fun i => s'.chip.get (PWR_MON_CFG (r.w (1 + 2 * i))) == r.w (2 + 2 * i)) = true

/-- RESTART_FW, DEVICE_RESET, PWR_ENTER_QUIET (R116, R146): a request of no payload, with no schema refusal standing and (the last two) not on the
active part of a pair, is followed by a firmware reset, a PIN reset, or QUIET: the phase and the cause say so, FW_READY is 0, and the settings
journal is kept. UPD_ACTIVATE (R623), on a verified inactive bank with no trial running and no copy of the peer's state: the record starts a
trial of the other bank with TRIAL_COUNT 1 and the request's AUTO, and a firmware reset follows. SEC_ATTEST of a report, UPD_DOWNLOAD,
UPD_VERIFY, MVC_LOAD_GRAPHIC (R533, R621, R622, R631), each on a request whose words and state meet the conditions of its rule, given here one by
one: the operation starts, as the busy or loading bit says, and the request waits for its end, its channel BUSY; a first block of a download
discards what the bank held. UPD_CONFIRM (R625): in a trial whose self-check has passed, the trial ends with the record on its other page, the
bank that runs stays and the health watch ends; without a trial the record stays; both are answered OK. TWN_HANDOVER (R582): on the active part
of a pair in step, with no handover asked for, the handover is asked for at the next eligible TP0 instant, and the request waits for it, its
channel BUSY. -/
def Obligations.RequestsThatResetOrLast : Prop :=
  ((∀ (s : State) (t : Nat) (ch : Fin 16) (r : Req) (c : Chip), c = s.chipAt t → s.asksFor t ch.val 0x0080 0 r → r.len = 0 → c.upd.refused = false →
    ∃ s', Sys2Proof.Machine.exec (.restartFw t ch) s = .next s'
      ∧ s'.chip.pwr.phase = .released
      ∧ s'.chip.on TOP_RESET_CAUSE_FWR = true
      ∧ s'.chip.ready = false
      ∧ s'.chip.fw.journal = c.fw.journal)
  ∧ (∀ (s : State) (t : Nat) (ch : Fin 16) (r : Req) (c : Chip), c = s.chipAt t → s.asksFor t ch.val 0x0081 0 r → r.len = 0 → c.twnMode ≠ 1 → c.upd.refused = false →
    ∃ s', Sys2Proof.Machine.exec (.deviceReset t ch) s = .next s'
      ∧ s'.chip.pwr.phase = .released
      ∧ s'.chip.on TOP_RESET_CAUSE_PIN = true
      ∧ s'.chip.ready = false
      ∧ s'.chip.fw.journal = c.fw.journal)
  ∧ (∀ (s : State) (t : Nat) (ch : Fin 16) (r : Req) (c : Chip), c = s.chipAt t → s.asksFor t ch.val 0x0182 0 r → r.len = 0 → c.twnMode ≠ 1 → c.upd.refused = false →
    ∃ s', Sys2Proof.Machine.exec (.pwrEnterQuiet t ch) s = .next s'
      ∧ s'.chip.pwr.phase = .quiet
      ∧ s'.chip.ready = false
      ∧ s'.chip.fw.journal = c.fw.journal)
  ∧ ∀ (s : State) (t : Nat) (ch : Fin 16) (r : Req) (c : Chip), c = s.chipAt t → s.mayAsk t ch.val 0x1182 r →
      let h := bits (r.w 0) 0 12;
      r.lenIs 1 = true → ((r.w 0 < 2 ^ 13 && (h == 0 || (10 ≤ h && h ≤ 3600))) : Bool) = true → c.twnCopying = false →
      c.updRec.trial = false → c.on (UPD_BANK_STAT_VERIFIED c.inactive) = true →
    ∃ s', Sys2Proof.Machine.exec (.updActivate t ch) s = .next s'
      ∧ s'.chip.updRec.trial = true
      ∧ s'.chip.updRec.runBank = 1 - c.updRec.runBank
      ∧ s'.chip.updRec.prevBank = c.updRec.runBank
      ∧ s'.chip.updRec.trialCount = 1
      ∧ s'.chip.updRec.auto = bit (r.w 0) 12
      ∧ s'.chip.pwr.phase = .released
      ∧ s'.chip.on TOP_RESET_CAUSE_FWR = true)
  ∧ ((∀ (s : State) (t : Nat) (ch : Fin 16) (r : Req) (c : Chip), c = s.chipAt t → s.mayAsk t ch.val 0x1101 r →
      r.w 0 = 0 → r.lenIs 9 = true → ((!(c.on SEC_STATUS_IDENTITY_FAULT)) : Bool) = true →
    ∃ s', Sys2Proof.Machine.exec (.secAttest t ch) s = .next s'
      ∧ s'.waits r .attest)
  ∧ (∀ (s : State) (t : Nat) (ch : Fin 16) (r : Req) (c : Chip), c = s.chipAt t → s.mayAsk t ch.val 0x1180 r →
      let first := bit (r.w 0) 0;
      let have_ := if first then 0 else c.get UPD_DL_BYTES;
      r.lenIs 7 = true →
      ((r.w 0 < 2 && r.w 1 == have_ && r.w 2 ≤ 2 ^ 26 && (first || r.w 2 == c.upd.total) && r.w 1 + r.w 5 ≤ r.w 2
        && !r.targetPeer && descOk (r.ws 3 4)) : Bool) = true →
      ((!c.updRec.trial && !(c.on UPD_STATE_BUSY) && !c.twnCopying) : Bool) = true →
    ∃ s', Sys2Proof.Machine.exec (.updDownload t ch) s = .next s'
      ∧ s'.waits r .download
      ∧ s'.chip.on UPD_STATE_BUSY = true
      ∧ s'.chip.on (UPD_BANK_STAT_VERIFIED c.inactive) = false
      ∧ (bit (r.w 0) 0 = true → s'.chip.get UPD_DL_BYTES = 0 ∧ s'.chip.upd.total = r.w 2 ∧ s'.chip.pkg c.inactive = none))
  ∧ (∀ (s : State) (t : Nat) (ch : Fin 16) (r : Req) (c : Chip), c = s.chipAt t → s.mayAsk t ch.val 0x1181 r →
      r.lenIs 0 = true → ((!c.updRec.trial && !(c.on UPD_STATE_BUSY)) : Bool) = true →
    ∃ s', Sys2Proof.Machine.exec (.updVerify t ch) s = .next s'
      ∧ s'.waits r .verify
      ∧ s'.chip.on UPD_STATE_BUSY = true)
  ∧ (∀ (s : State) (t : Nat) (ch : Fin 16) (r : Req) (c : Chip), c = s.chipAt t → s.mayAsk t ch.val 0x1183 r →
      c.updRec.trial = true → c.on UPD_STATE_SELF_CHECK_PASSED = true → r.lenIs 0 = true →
    ∃ s', Sys2Proof.Machine.exec (.updConfirm t ch) s = .next s'
      ∧ s'.answered r ⟨0, 0, 0, []⟩
      ∧ s'.chip.updRec.trial = false
      ∧ s'.chip.updRec.area = 1 - c.updRec.area
      ∧ s'.chip.updRec.runBank = c.updRec.runBank
      ∧ s'.chip.upd.healthEnd = none)
  ∧ (∀ (s : State) (t : Nat) (ch : Fin 16) (r : Req) (c : Chip), c = s.chipAt t → s.mayAsk t ch.val 0x1183 r →
      c.updRec.trial = false → r.lenIs 0 = true →
    ∃ s', Sys2Proof.Machine.exec (.updConfirm t ch) s = .next s'
      ∧ s'.answered r ⟨0, 0, 0, []⟩
      ∧ s'.chip.updRec = c.updRec)
  ∧ ∀ (s : State) (t : Nat) (ch : Fin 16) (r : Req) (c : Chip), c = s.chipAt t → s.mayAsk t ch.val 0x0E82 r →
      let h := bits (r.w 0) 0 2;
      let l := bits (r.w 0) 2 2;
      let xy := r.w 2;
      let wh := r.w 3;
      let size := c.get (MVC_GL_SIZE h l);
      let row := (xyX wh * 4 + 63) / 64 * 64;
      r.lenIs 8 = true →
      ((c.role != 2 && r.epoch == 0 && bits (r.w 0) 5 27 == 0 && r.w 1 < 2 ^ 16 && xy &&& 0xE000E000 == 0 && wh &&& 0xE000E000 == 0
        && l < bits (c.headCtl h) 7 3 && 1 ≤ xyX wh && 1 ≤ xyY wh && xyX xy + xyX wh ≤ xyX size && xyY xy + xyY wh ≤ xyY size
        && descOk (r.ws 4 4) && xyY wh * row ≤ r.w 6 && (!(bit (r.w 0) 4) || c.rd (MVC_GL_CTL_GROUP h l) == 0)) : Bool) = true →
      ((c.on (MVC_HEAD_CTL_ENABLE h) && !(c.on (MVC_GL_FENCE_LOADING h l))) : Bool) = true →
    ∃ s', Sys2Proof.Machine.exec (.mvcLoadGraphic t ch) s = .next s'
      ∧ s'.chip.on (MVC_GL_FENCE_LOADING h l) = true
      ∧ s'.waits r .graphic)
  ∧ (∀ (s : State) (t : Nat) (ch : Fin 16) (r : Req) (c : Chip), c = s.chipAt t → s.asksFor t ch.val 0x0F80 0 r →
      r.len = 0 → c.twnMode = 1 → c.twn.peerStep = true → c.twn.handover = none → c.upd.refused = false →
    ∃ s', Sys2Proof.Machine.exec (.twnHandover t ch) s = .next s'
      ∧ s'.chip.twn.handover = some (c.nextHandover (ms 1), 1, false)
      ∧ (s'.chip.waiting ch.val).any (fun w => w.hand && w.req == r) = true
      ∧ s'.chip.on (MBX_CH_STAT_BUSY ch.val) = true)

/-- REF_SET_CANDIDATE, REF_SET_PLANE, PTP_SET_PORT, FSY_SET_SOURCE, DMC_SET_CHANNEL, SDI_SET_RX, SDI_SET_TX, FAB_SET_LINK, FAB_LOOPBACK,
NET_SET_PORT, NET_SET_GCL, FLOW_JOIN, FLOW_LEAVE, SAP_SET_PORT, MVC_SET_HEAD, TWN_SET_POLICY, BUS_SET_APERTURE (R218, R271, R297, R327, R363,
R383, R389, R415, R417, R440, R463, R464, R513, R539, R583, R605), each on a request whose words and state meet the conditions of its rule, given
here one by one, and that raises no load above its budget: the register fields named here hold what the payload says. Each is answered OK,
NET_SET_GCL with S, but REF_SET_PLANE waits for the frame boundary where its plane is to restart there, MVC_SET_HEAD always waits for it, and
SAP_SET_PORT waits for the next audio block while the audio engine runs (R144). -/
def Obligations.SettingRequests : Prop :=
  (∀ (s : State) (t : Nat) (ch : Fin 16) (r : Req) (c : Chip), c = s.chipAt t → s.mayAsk t ch.val 0x0280 r →
      let w := r.w 0;
      let w1 := r.w 1;
      let w2 := r.w 2;
      let k := bits w 0 3;
      let kind := bits w 3 2;
      let pf := bits w 5 5;
      let rk := fun q => if q = 0 then bits w2 0 3 else bits w2 4 3;
      let onPlane := fun q =>
        let f := c.planeFmt q
        f == 0 || ((rk q == 0 || candEligible kind pf f) && phaseFits (r.w (3 + q)) f);
      let differs := bits w 3 7 != bits (c.get (REF_CAND_CFG k)) 0 7 || r.w 3 != c.get (REF_CAND_PHASE k 0) || r.w 4 != c.get (REF_CAND_PHASE k 1);
      r.lenIs 5 = true →
      ((r.epoch == 0 && k ≤ 4 && bits w 10 22 == 0 && bits w1 12 4 == 0 && bits w1 29 3 == 0 && bit w2 3 == false && bits w2 7 25 == 0
        && (if k = 4 then kind != 1 && kind != 2 else kind != 3) && (if kind = 1 then fmtOk pf else pf == 0)
        && 1 ≤ bits w1 0 12 && bits w1 0 12 ≤ 2000 && bits w1 0 12 < bits w1 16 13 && bits w1 16 13 ≤ 5000
        && onPlane 0 && onPlane 1) : Bool) = true →
      ((!(differs && (c.selected 0 == k || c.selected 1 == k))) : Bool) = true →
    ∃ s', Sys2Proof.Machine.exec (.refSetCandidate t ch) s = .next s'
      ∧ s'.answered r ⟨0, 0, 0, []⟩
      ∧ s'.chip.rd (REF_CAND_CFG_KIND (bits (r.w 0) 0 3)) = bits (r.w 0) 3 2
      ∧ s'.chip.rd (REF_CAND_CFG_PERIOD_FMT (bits (r.w 0) 0 3)) = bits (r.w 0) 5 5
      ∧ s'.chip.get (REF_CAND_PHASE (bits (r.w 0) 0 3) 0) = r.w 3 % 2 ^ 32
      ∧ s'.chip.get (REF_CAND_PHASE (bits (r.w 0) 0 3) 1) = r.w 4 % 2 ^ 32
      ∧ bits (s'.chip.get (REF_CAND_RANK (bits (r.w 0) 0 3))) 0 3 = bits (r.w 2) 0 3)
  ∧ (∀ (s : State) (t : Nat) (ch : Fin 16) (r : Req) (c : Chip), c = s.chipAt t → s.mayAsk t ch.val 0x0281 r →
      let w := r.w 0;
      let w1 := r.w 1;
      let q := bits w 0 1;
      let f := bits w 1 5;
      let cur := (c.plane q).again.getD (c.planeFmt q);
      let new := f != 0 && f != cur;
      let ok := (List.range 5).all fun k =>
        (c.rank k q == 0 || candEligible (c.rd (REF_CAND_CFG_KIND k)) (c.rd (REF_CAND_CFG_PERIOD_FMT k)) f)
          && phaseFits (c.get (REF_CAND_PHASE k q)) f;
      let nows := [⟨.plane, q, [(if f = 0 then cur else f) * 2 + bits w 0 1 + bits w 6 1 * 64 + bits w 16 8 * 2 ^ 16, w1]⟩]
        ++ (if bit w 8 then [⟨.rephase, q, []⟩] else []) ++ if bit w 7 then [⟨.recal, 0, []⟩] else [];
      r.lenIs 2 = true →
      ((r.epoch == 0 && bits w 9 7 == 0 && bits w1 26 6 == 0 && 1 ≤ bits w 16 8 && 1 ≤ bits w1 0 16 && bits w1 0 16 ≤ 1000
        && 1 ≤ bits w1 16 10 && bits w1 16 10 ≤ 1000 && (f == 0 || fmtOk f)) : Bool) = true →
      ((!new || ok) : Bool) = true → ((!(new || (bit w 8 && c.planeState q != 0)) || !(c.planeUsed q)) : Bool) = true →
      c.hasRoom [] nows = true →
    ∃ s', Sys2Proof.Machine.exec (.refSetPlane t ch) s = .next s'
      ∧ s'.chip.rd (REF_PLANE_CFG_REVERTIVE (bits (r.w 0) 0 1)) = bits (r.w 0) 6 1
      ∧ s'.chip.rd (REF_PLANE_CFG_WTR (bits (r.w 0) 0 1)) = bits (r.w 0) 16 8
      ∧ s'.chip.get REF_CFG = r.w 1 % 2 ^ 26
      ∧ ((s'.chip.plane (bits (r.w 0) 0 1)).again = none → s'.answered r ⟨0, 0, 0, []⟩)
      ∧ ((s'.chip.plane (bits (r.w 0) 0 1)).again ≠ none → s'.waits r .boundary)
      ∧ (new = true → 1 < c.planeState q → (s'.chip.plane q).again = some f)
      ∧ (new = true → c.planeState q ≤ 1 → s'.chip.planeFmt q = f))
  ∧ (∀ (s : State) (t : Nat) (ch : Fin 16) (r : Req) (c : Chip), c = s.chipAt t → s.mayAsk t ch.val 0x0380 r →
      let w := r.w 0;
      let g := r.w 1;
      let within := fun lo hi (i : Int) => lo ≤ i && i ≤ hi;
      r.lenIs 3 = true →
      ((r.epoch == 0 && bits w 3 29 == 0 && bits g 23 9 == 0 && bits g 0 8 ≤ 127 && within (-3) 1 (toSigned 4 (bits g 8 4))
        && within (-7) (-1) (toSigned 4 (bits g 12 4)) && 2 ≤ bits g 16 4 && bits g 16 4 ≤ 10 && bits g 20 2 ≤ 2
        && 1000 ≤ r.w 2 && r.w 2 ≤ 1000000) : Bool) = true →
      ((!(bit w 2) || c.mayRelock) : Bool) = true →
    ∃ s', Sys2Proof.Machine.exec (.ptpSetPort t ch) s = .next s'
      ∧ s'.answered r ⟨0, 0, 0, []⟩
      ∧ s'.chip.get PTP_CFG = r.w 1 % 2 ^ 23
      ∧ s'.chip.get PTP_JUMP_MAX = r.w 2 % 2 ^ 20
      ∧ s'.chip.on (PTP_PORT_CFG_ENABLE (bits (r.w 0) 0 1)) = bit (r.w 0) 1)
  ∧ (∀ (s : State) (t : Nat) (ch : Fin 16) (r : Req) (c : Chip), c = s.chipAt t → s.mayAsk t ch.val 0x0580 r →
      let n := r.w 0;
      let ws := r.ws 1 n;
      let sel := fun w => bits w 0 9;
      let args := fun w =>
        bits w 16 16 == 0 && sel w < 324 && srcOffered c.role (sel w) && c.leadOf (sel w) == sel w
          && (srcKind (sel w) ≤ 1 || bits w 11 5 == 0) && (srcKind (sel w) ≤ 2 || bits w 9 1 == 0) && bits w 11 5 ≤ 0x18;
      let busy := fun w =>
        !((c.groupOf (sel w)).flatMap c.destsOf).isEmpty || (c.groupOf (sel w)).any c.tapped
          || (c.groupOf (sel w)).any c.srcQueued;
      let state := fun w =>
        (bit w 10 || !(c.on (FSY_SRC_CTL_ALLOW_FS (sel w)))
          || !(c.on (FSY_SRC_STAT_PROMOTED (sel w)) || c.carriedCross (sel w)))
        && (srcKind (sel w) > 2 || bits w 9 1 == c.rd (FSY_SRC_CTL_PLANE (sel w)) || !(busy w));
      r.lenIs (n + 1) = true → ((1 ≤ n && n ≤ 332 && r.epoch == 0 && nodup (ws.map sel) && ws.all args) : Bool) = true →
      ((ws.all state) : Bool) = true → c.hasRoom [] (ws.map fun w => ⟨.src, sel w, [w]⟩) = true →
    ∃ s', Sys2Proof.Machine.exec (.fsySetSource t ch) s = .next s'
      ∧ s'.answered r ⟨0, 0, 0, []⟩
      ∧ ((List.range (r.w 0)).all fun i => s'.chip.rd (FSY_SRC_CTL_PLANE (bits (r.w (1 + i)) 0 9)) == bits (r.w (1 + i)) 9 1 && s'.chip.rd (FSY_SRC_CTL_ALLOW_FS (bits (r.w (1 + i)) 0 9)) == bits (r.w (1 + i)) 10 1
        && s'.chip.rd (FSY_SRC_CTL_FORMAT (bits (r.w (1 + i)) 0 9)) == bits (r.w (1 + i)) 11 5) = true)
  ∧ (∀ (s : State) (t : Nat) (ch : Fin 16) (r : Req) (c : Chip), c = s.chipAt t → s.mayAsk t ch.val 0x0780 r →
      let n := bits (r.w 0) 0 3;
      let en := bit (r.w 0) 8;
      let cfg := r.w 1;
      let st := c.chState n;
      bit (r.w 0) 8 = true → r.lenIs 2 = true →
      ((r.epoch == 0 && r.w 0 &&& 0xFFFFFEF8 == 0 && (cfg == 0 || (1 ≤ bits cfg 0 8 && 4 ≤ bits cfg 8 8 && bits cfg 8 8 ≤ 64
        && 1 ≤ bits cfg 16 8 && bits cfg 16 8 ≤ 168 && cfg < 2 ^ 24))) : Bool) = true →
      ((!en || !c.reserved) : Bool) = true →
      ((!en || !(st == chAbsent || (st == chDisabled && c.rd (DMC_CH_STAT_CAUSE n) == 2))) : Bool) = true →
      ((en || !c.reserved) : Bool) = true →
      c.hasRoom [] ([⟨.dmc, n, [b2n en]⟩] ++ (if cfg = 0 then [] else [⟨.dmcCfg, 0, [cfg]⟩])
        ++ (if en then [] else [⟨.dom, domMem n, [stOff]⟩])) = true →
    ∃ s', Sys2Proof.Machine.exec (.dmcSetChannel t ch) s = .next s'
      ∧ s'.answered r ⟨0, 0, 0, []⟩
      ∧ s'.chip.chState (bits (r.w 0) 0 3) = chTraining
      ∧ (r.w 1 ≠ 0 → s'.chip.get DMC_CFG = r.w 1))
  ∧ (∀ (s : State) (t : Nat) (ch : Fin 16) (r : Req) (c : Chip), c = s.chipAt t → s.mayAsk t ch.val 0x0780 r →
      let n := bits (r.w 0) 0 3;
      let en := bit (r.w 0) 8;
      let cfg := r.w 1;
      let st := c.chState n;
      bit (r.w 0) 8 = false → r.lenIs 2 = true →
      ((r.epoch == 0 && r.w 0 &&& 0xFFFFFEF8 == 0 && (cfg == 0 || (1 ≤ bits cfg 0 8 && 4 ≤ bits cfg 8 8 && bits cfg 8 8 ≤ 64
        && 1 ≤ bits cfg 16 8 && bits cfg 16 8 ≤ 168 && cfg < 2 ^ 24))) : Bool) = true →
      ((!en || !c.reserved) : Bool) = true →
      ((!en || !(st == chAbsent || (st == chDisabled && c.rd (DMC_CH_STAT_CAUSE n) == 2))) : Bool) = true →
      ((en || !c.reserved) : Bool) = true →
      c.hasRoom [] ([⟨.dmc, n, [b2n en]⟩] ++ (if cfg = 0 then [] else [⟨.dmcCfg, 0, [cfg]⟩])
        ++ (if en then [] else [⟨.dom, domMem n, [stOff]⟩])) = true →
    ∃ s', Sys2Proof.Machine.exec (.dmcSetChannel t ch) s = .next s'
      ∧ s'.answered r ⟨0, 0, 0, []⟩
      ∧ s'.chip.chState (bits (r.w 0) 0 3) = chDisabled
      ∧ s'.chip.dom (domMem (bits (r.w 0) 0 3)) = stOff
      ∧ (r.w 1 ≠ 0 → s'.chip.get DMC_CFG = r.w 1))
  ∧ (∀ (s : State) (t : Nat) (ch : Fin 16) (r : Req) (c : Chip), c = s.chipAt t → s.mayAsk t ch.val 0x0880 r →
      let n := r.w 0;
      let ws := r.ws 1 n;
      let ln := fun w => bits w 0 6;
      let args := fun w => ln w < 48 && bits w 11 21 == 0 && bits w 6 3 ≤ 5;
      let bond := fun w => (!(bit w 9) || (ln w % 4 == 0 && bits w 6 3 == 3))
        && (ln w % 4 == 0 || !(leadBonds ws (ln w) (c.bondedRx (ln w))));
      let group := fun w => if bit w 9 || c.on (SDI_RX_CTL_BOND (ln w)) then (List.range 4).map (ln w / 4 * 4 + ·) else [ln w];
      let denied := fun w => (bits w 6 4) != bits (c.get (SDI_RX_CTL (ln w))) 0 4 && (group w).any c.srcUsed;
      r.lenIs (n + 1) = true → ((c.role != 2 && r.epoch == 0 && 1 ≤ n && n ≤ 48 && nodup (ws.map ln) && ws.all args) : Bool) = true →
      ((ws.all bond) : Bool) = true → ((ws.all fun w => !(denied w)) : Bool) = true →
      c.hasRoom [] (ws.map fun w => ⟨.sdiRx, ln w, [w]⟩) = true →
    ∃ s', Sys2Proof.Machine.exec (.sdiSetRx t ch) s = .next s'
      ∧ s'.answered r ⟨0, 0, 0, []⟩
      ∧ ((List.range (r.w 0)).all fun i => s'.chip.get (SDI_RX_CTL (bits (r.w (1 + i)) 0 6))
        == bits (r.w (1 + i)) 6 3 + bits (r.w (1 + i)) 9 1 * 8 + bits (r.w (1 + i)) 10 1 * 16) = true)
  ∧ (∀ (s : State) (t : Nat) (ch : Fin 16) (r : Req) (c : Chip), c = s.chipAt t → s.mayAsk t ch.val 0x0881 r →
      let n := r.w 0;
      let ws := r.ws 1 n;
      let ln := fun w => bits w 0 6;
      let args := fun w => ln w < 48 && bits w 17 15 == 0 && bits w 6 3 == 0 && bits w 11 4 ≤ 8 && bits w 15 2 != 3;
      let bond := fun w => (!(bit w 9) || ln w % 4 == 0) && (ln w % 4 == 0 || !(leadBonds ws (ln w) (c.bondedTx (ln w))));
      let denied := fun w => bits w 9 1 != c.rd (SDI_TX_CTL_BOND (ln w)) && (List.range 4).any fun i => c.dstUsed (ln w / 4 * 4 + i);
      r.lenIs (n + 1) = true → ((c.role != 2 && r.epoch == 0 && 1 ≤ n && n ≤ 48 && nodup (ws.map ln) && ws.all args) : Bool) = true →
      ((ws.all bond) : Bool) = true → ((ws.all fun w => !(denied w)) : Bool) = true →
      c.hasRoom [] (ws.map fun w => ⟨.sdiTx, ln w, [w]⟩) = true →
    ∃ s', Sys2Proof.Machine.exec (.sdiSetTx t ch) s = .next s'
      ∧ s'.answered r ⟨0, 0, 0, []⟩
      ∧ ((List.range (r.w 0)).all fun i => s'.chip.get (SDI_TX_CTL (bits (r.w (1 + i)) 0 6))
        == bits (r.w (1 + i)) 11 4 + bits (r.w (1 + i)) 10 1 * 16 + bits (r.w (1 + i)) 9 1 * 32 + bits (r.w (1 + i)) 15 2 * 64) = true)
  ∧ (∀ (s : State) (t : Nat) (ch : Fin 16) (r : Req) (es : List LinkEntry) (c : Chip), c = s.chipAt t → s.mayAsk t ch.val 0x0980 r →
      let w0 := r.w 0;
      let l := fun (e : LinkEntry) => bits e.1 0 6;
      let w := fun (e : LinkEntry) => widthOf (bits e.1 6 2);
      let after := ((List.range 48).filter fun k => !(es.any fun e => l e == k)).map (fun k => (k, c.linkWidth k))
        ++ es.map fun e => (l e, w e);
      let clash := after.any fun p => after.any fun q =>
        p.1 != q.1 && p.2 != 0 && q.2 != 0 && overlap p.1 p.2 q.1 q.2;
      let args := fun (e : LinkEntry) =>
        bits e.1 8 24 == 0 && bits e.2.1 30 2 == 0 && l e + max 1 (w e) ≤ 48 && l e % max 1 (w e) == 0
          && bits e.2.1 24 6 % max 1 (w e) == 0
          && (e.2.2.zipIdx.all fun p => laneWordOk p.1 (l e + p.2));
      let changed := fun (e : LinkEntry) =>
        c.get (FAB_LK_CFG (l e)) != (if w e = 0 then 0 else bits e.1 6 2 + bits e.2.1 24 6 * 2 ^ 2 + bits e.2.1 0 24 * 2 ^ 8);
      let used := fun (e : LinkEntry) => (List.range (4 * max (w e) (c.linkWidth (l e)))).any fun s => c.slotUsed (4 * l e + s);
      let txDenied := fun (e : LinkEntry) => e.2.2.any fun v =>
        c.laneInUpLink (bits v 0 6) && bits (laneCfgWord v) 0 11 != bits (c.get (lnCfg (bits v 0 6))) 0 11;
      ((c.role != 0 && r.epoch == 0 && r.w 1 ≤ 48 && bits w0 0 24 != 0 && !(bit w0 24 && c.role == 1) && bits w0 25 7 == 0
        && nodup (es.map l) && es.all args && !clash) : Bool) = true →
      ((w0 == c.get FAB_CFG || (List.range 48).all fun k => !(c.linkIsUp k)) : Bool) = true →
      ((es.all fun e => !(changed e && used e)) : Bool) = true → ((es.all fun e => !(txDenied e)) : Bool) = true → 2 ≤ r.payload.length →
      r.w 1 ≤ 48 → parseLinks (r.w 1) (r.payload.drop 2) = some es →
    ∃ s', Sys2Proof.Machine.exec (.fabSetLink t ch) s = .next s'
      ∧ s'.answered r ⟨0, 0, 0, []⟩
      ∧ s'.chip.get FAB_CFG = r.w 0 % 2 ^ 25
      ∧ (es.all fun e => s'.chip.get (FAB_LK_CFG (bits e.1 0 6)) == if widthOf (bits e.1 6 2) = 0 then 0 else bits e.1 6 2 + bits e.2.1 24 6 * 2 ^ 2 + bits e.2.1 0 24 * 2 ^ 8) = true)
  ∧ (∀ (s : State) (t : Nat) (ch : Fin 16) (r : Req) (c : Chip), c = s.chipAt t → s.mayAsk t ch.val 0x0982 r →
      let w := r.w 0;
      let n := bits w 0 6;
      let mode := bits w 6 2;
      r.lenIs 1 = true →
      ((c.role != 0 && r.epoch == 0 && n < 48 && bits w 8 4 ≤ 7 && bits w 12 4 ≤ 7 && bits w 17 15 == 0
        && !(mode == 3 && bits w 8 4 != 0)) : Bool) = true →
      ((!(c.laneInUpLink n) && !(c.laneCarries n) && c.domOn (domFabRx n) && c.domOn (domFabTx n)
        && (mode != 3 || c.lnSt n == lnTrained || c.lnSt n == lnVerify || (c.lnSt n == lnTest && c.on (lnSignal n)))) : Bool) = true →
    ∃ s', Sys2Proof.Machine.exec (.fabLoopback t ch) s = .next s'
      ∧ s'.answered r ⟨0, 0, 0, []⟩
      ∧ s'.chip.rd (FAB_LN_TEST_MODE (bits (r.w 0) 0 6)) = bits (r.w 0) 6 2
      ∧ s'.chip.rd (FAB_LN_TEST_TX_PATTERN (bits (r.w 0) 0 6)) = bits (r.w 0) 8 4
      ∧ s'.chip.rd (FAB_LN_TEST_CHK_PATTERN (bits (r.w 0) 0 6)) = bits (r.w 0) 12 4
      ∧ (bits (r.w 0) 6 2 ≠ 0 → s'.chip.lnSt (bits (r.w 0) 0 6) = lnTest))
  ∧ (∀ (s : State) (t : Nat) (ch : Fin 16) (r : Req) (c : Chip), c = s.chipAt t → s.mayAsk t ch.val 0x0A80 r →
      let w := r.w 0;
      let p := bits w 0 1;
      let low := c.dom (domMac p) == stLow;
      let on := fun d => if low then c.rd (PWR_DOM_CTL_REQ d) == stActive else c.domOn d;
      let usable := (low || c.domOn (domMac p)) && (List.range 4).all fun i => on (domNetRx (4 * p + i)) && on (domNetTx (4 * p + i));
      r.lenIs 3 = true →
      ((r.epoch == 0 && (bits w 2 2 == 1 || bits w 2 2 == 2) && 1518 ≤ bits w 11 14 && bits w 11 14 ≤ 9216
        && bits w 25 7 == 0 && bits (r.w 2) 16 16 == 0 && !(bit (r.w 1) 0)) : Bool) = true →
      ((!(bits w 2 3 != bits (c.get (NET_PORT_CFG p)) 0 3 || bit w 1) || !(c.flowOn p)) : Bool) = true → ((bit w 1 || usable) : Bool) = true →
    ∃ s', Sys2Proof.Machine.exec (.netSetPort t ch) s = .next s'
      ∧ s'.answered r ⟨0, 0, 0, []⟩
      ∧ s'.chip.get (NET_PORT_CFG (bits (r.w 0) 0 1)) = bits (r.w 0) 2 3 + bits (r.w 0) 5 6 * 2 ^ 3 + bits (r.w 0) 11 14 * 2 ^ 9
      ∧ s'.chip.get (NET_MAC_LO (bits (r.w 0) 0 1)) = r.w 1
      ∧ s'.chip.get (NET_MAC_HI (bits (r.w 0) 0 1)) = r.w 2)
  ∧ (∀ (s : State) (t : Nat) (ch : Fin 16) (r : Req) (c : Chip), c = s.chipAt t → s.mayAsk t ch.val 0x0A81 r →
      let w := r.w 0;
      let p := bits w 0 1;
      let en := bit w 1;
      let n := bits w 2 9;
      let cyc := r.w 1;
      let es := r.ws 4 n;
      let sel := c.gclStart p (r.w 2 + r.w 3 * 2 ^ 32) cyc;
      let soon := c.clock.n + 1000000;
      r.lenIs (n + 4) = true →
      ((r.epoch == 0 && bits w 11 21 == 0
        && (if en then 1 ≤ n && n ≤ 256 && cyc % 8 == 0 && 8 ≤ cyc && cyc ≤ 1000000000 else n == 0 && cyc == 0)
        && es.all (fun e => bits e 8 24 != 0) && (es.map entryNs).sum == cyc && sel ≤ c.clock.n + 2000000000) : Bool) = true →
      ((!(c.on (NET_GCL_CTL_PENDING p)) || soon ≤ (c.net p).startAt) : Bool) = true →
    ∃ s', Sys2Proof.Machine.exec (.netSetGcl t ch) s = .next s'
      ∧ s'.answered r ⟨0, 0, 0, [sel % 2 ^ 32, sel / 2 ^ 32]⟩
      ∧ s'.chip.on (NET_GCL_CTL_PENDING p) = true
      ∧ (s'.chip.net p).startAt = sel % 2 ^ 32 + sel / 2 ^ 32 * 2 ^ 32
      ∧ s'.chip.get (NET_GCL_START p) = sel % 2 ^ 32
      ∧ s'.chip.get (NET_GCL_SHADOW_CYCLE p) = cyc
      ∧ s'.chip.rd (NET_GCL_CTL_SHADOW_ENTRIES p) = n
      ∧ s'.chip.on (NET_GCL_CTL_SHADOW_ENABLE p) = en
      ∧ ((List.range n).all fun i => s'.chip.get (NET_GCL_SHADOW p i) == r.w (4 + i)) = true)
  ∧ (∀ (s : State) (t : Nat) (ch : Fin 16) (r : Req) (c : Chip), c = s.chipAt t → s.mayAsk t ch.val 0x0B80 r →
      let w := r.w 0;
      let aux := r.w 1;
      let f := bits w 0 7;
      let k := flowKind f;
      let dual := bit w 7;
      let fc := bits w 14 5;
      let lat := bits w 10 4;
      let v := bits aux 9 5;
      let need := if bit w 9 then 51 else 11;
      let covers := match k with
        | 0 => ms need ≤ lat * (fmt fc).period
        | 1 => 48 * need ≤ bits aux 16 12
        | _ => ms need ≤ c.rd (NET_RXF_CTL_LAT v) * (fmt (c.rd (NET_RXF_CTL_FORMAT v))).period;
      let leg := fun i => isGroup (r.w (2 + 3 * i)) && bits (r.w (4 + 3 * i)) 23 9 == 0;
      let ports := if dual then [0, 1] else [bits w 8 1];
      r.lenIs 8 = true →
      ((c.role != 2 && r.epoch == 0 && f < 112 && bits w 19 13 == 0 && bits aux 14 2 == 0 && bits aux 28 4 == 0
        && (if k = 0 then fmtOk fc && 1 ≤ lat && lat ≤ 8 else fc == 0 && lat == 0)
        && (k != 1 || (auxAudio aux && 96 ≤ bits aux 16 12 && bits aux 16 12 ≤ 2880))
        && (k != 2 || c.on (NET_RXF_CTL_JOINED v))
        && leg 0 && (if dual then leg 1 else (r.ws 5 3).all (· == 0)) && (!dual || covers)) : Bool) = true →
      ((!(c.on (NET_RXF_CTL_JOINED f)) && ports.all c.netActive) : Bool) = true →
      ((ports.all (fun p => c.rxRate p + wireRate k fc aux false ≤ wireCap)
        && (k != 1 || (lowestRun c.rxRuns (channelsOf aux)).isSome)) : Bool) = true →
      c.hasRoom [] [⟨.join, f, r.ws 0 8⟩] = true →
    ∃ s', Sys2Proof.Machine.exec (.flowJoin t ch) s = .next s'
      ∧ s'.answered r ⟨0, 0, 0, []⟩
      ∧ s'.chip.on (NET_RXF_CTL_JOINED (bits (r.w 0) 0 7)) = true
      ∧ s'.chip.rd (NET_RXF_STAT_STATE (bits (r.w 0) 0 7)) = 1
      ∧ s'.chip.get (NET_RXF_LEG_ADDR (bits (r.w 0) 0 7) 0) = r.w 2 % 2 ^ 32
      ∧ s'.chip.get (NET_RXF_AUX (bits (r.w 0) 0 7)) = r.w 1 % 2 ^ 32)
  ∧ (∀ (s : State) (t : Nat) (ch : Fin 16) (r : Req) (c : Chip), c = s.chipAt t → s.mayAsk t ch.val 0x0B81 r →
      let f := r.w 0;
      let busy := match flowKind f with
        | 0 => c.srcUsed (240 + f)
            || (List.range 112).any fun a => flowKind a == 2 && c.on (NET_RXF_CTL_JOINED a) && c.rd (NET_RXF_AUX_BOUND a) == f
        | 1 => c.on (AUD_RXF_BASE_VALID (f - 32))
            && c.shufNames (6144 + c.rd (AUD_RXF_BASE_BASE (f - 32))) (channelsOf (c.get (NET_RXF_AUX f)))
        | _ => false;
      r.lenIs 1 = true → ((c.role != 2 && r.epoch == 0 && f < 112) : Bool) = true → ((!busy) : Bool) = true →
      c.hasRoom [] [⟨.leave, f, [f]⟩] = true →
    ∃ s', Sys2Proof.Machine.exec (.flowLeave t ch) s = .next s'
      ∧ s'.answered r ⟨0, 0, 0, []⟩
      ∧ s'.chip.get (NET_RXF_CTL (r.w 0)) = 0
      ∧ s'.chip.rd (NET_RXF_STAT_STATE (r.w 0)) = 0)
  ∧ (∀ (s : State) (t : Nat) (ch : Fin 16) (r : Req) (c : Chip), c = s.chipAt t → s.mayAsk t ch.val 0x0D80 r →
      let n := bits (r.w 0) 0 5;
      let set_ := bit (r.w 0) 8;
      let es := r.ws 3 n;
      let next := c.sapTake;
      let after := next.each es fun c w => c.put (SAP_PORT_CTL (bits w 0 4)) (sapCtl w);
      let mclk := if set_ then bit (r.w 2) 0 else next.on SAP_CFG_MCLK_EN;
      let lead := (List.range 16).filter fun p => after.on (SAP_PORT_CTL_LEAD p);
      let args := fun w => bits w 19 13 == 0 && bits w 8 2 != 3 && 16 ≤ bits w 10 5 && bits w 10 5 ≤ 24
        && (!(bit w 7) || (!(bit w 6) && bits w 8 2 != 1));
      let lat := fun g => bits (r.w 1) (8 * g) 8;
      let latOk := fun g => lat g == 0 || (4 ≤ lat g && lat g ≤ 64 && (List.range 16).all fun p =>
        !(after.on (SAP_PORT_CTL_ENABLE p)) || after.rd (SAP_PORT_CTL_GROUP p) != g || sapMin (after.get (SAP_PORT_CTL p)) ≤ lat g);
      let busy := fun p => c.shufNames (7168 + 2 * p) 2
        || [0, 1].any fun ch => c.on (AUD_SHUF_SET (7168 + 2 * p + ch))
            || c.waits .shuf (7168 + 2 * p + ch) fun y => bit (y.ws.getD 0 0) 14;
      c.engineOn = false → r.lenIs (3 + n) = true →
      ((c.role != 2 && r.epoch == 0 && n ≤ 16 && r.w 0 &&& 0xFFFFFEE0 == 0 && bits (r.w 2) 1 31 == 0
        && nodup (es.map fun w => bits w 0 4) && es.all args && lead.length ≤ 1 && (lead.isEmpty || mclk)
        && (!set_ || [0, 1, 2, 3].all latOk)) : Bool) = true →
      ((es.all fun w => !(bit w 4) || c.domOn (domSap (bits w 0 4))) : Bool) = true →
      ((es.all fun w => bit w 4 || !(busy (bits w 0 4))) : Bool) = true →
    ∃ s', Sys2Proof.Machine.exec (.sapSetPort t ch) s = .next s'
      ∧ s'.answered r ⟨0, 0, 0, []⟩
      ∧ ((List.range (bits (r.w 0) 0 5)).all fun i => s'.chip.get (SAP_PORT_CTL (bits (r.w (3 + i)) 0 4)) == sapCtl (r.w (3 + i))) = true
      ∧ (bit (r.w 0) 8 = true → s'.chip.on SAP_CFG_MCLK_EN = bit (r.w 2) 0))
  ∧ (∀ (s : State) (t : Nat) (ch : Fin 16) (r : Req) (c : Chip), c = s.chipAt t → s.mayAsk t ch.val 0x0D80 r →
      let n := bits (r.w 0) 0 5;
      let set_ := bit (r.w 0) 8;
      let es := r.ws 3 n;
      let next := c.sapTake;
      let after := next.each es fun c w => c.put (SAP_PORT_CTL (bits w 0 4)) (sapCtl w);
      let mclk := if set_ then bit (r.w 2) 0 else next.on SAP_CFG_MCLK_EN;
      let lead := (List.range 16).filter fun p => after.on (SAP_PORT_CTL_LEAD p);
      let args := fun w => bits w 19 13 == 0 && bits w 8 2 != 3 && 16 ≤ bits w 10 5 && bits w 10 5 ≤ 24
        && (!(bit w 7) || (!(bit w 6) && bits w 8 2 != 1));
      let lat := fun g => bits (r.w 1) (8 * g) 8;
      let latOk := fun g => lat g == 0 || (4 ≤ lat g && lat g ≤ 64 && (List.range 16).all fun p =>
        !(after.on (SAP_PORT_CTL_ENABLE p)) || after.rd (SAP_PORT_CTL_GROUP p) != g || sapMin (after.get (SAP_PORT_CTL p)) ≤ lat g);
      let busy := fun p => c.shufNames (7168 + 2 * p) 2
        || [0, 1].any fun ch => c.on (AUD_SHUF_SET (7168 + 2 * p + ch))
            || c.waits .shuf (7168 + 2 * p + ch) fun y => bit (y.ws.getD 0 0) 14;
      c.engineOn = true → (n ≠ 0 ∨ set_ = true) → r.lenIs (3 + n) = true →
      ((c.role != 2 && r.epoch == 0 && n ≤ 16 && r.w 0 &&& 0xFFFFFEE0 == 0 && bits (r.w 2) 1 31 == 0
        && nodup (es.map fun w => bits w 0 4) && es.all args && lead.length ≤ 1 && (lead.isEmpty || mclk)
        && (!set_ || [0, 1, 2, 3].all latOk)) : Bool) = true →
      ((es.all fun w => !(bit w 4) || c.domOn (domSap (bits w 0 4))) : Bool) = true →
      ((es.all fun w => bit w 4 || !(busy (bits w 0 4))) : Bool) = true →
    ∃ s', Sys2Proof.Machine.exec (.sapSetPort t ch) s = .next s'
      ∧ (es.all fun w => s'.chip.aud.sapDue.any fun e => e.1 == .sap && e.2.1 == bits w 0 4 && e.2.2 == w) = true
      ∧ (set_ = true → (s'.chip.aud.sapDue.any fun e => e.1 == .sapGroup && e.2.2 == r.w 1) = true ∧ (s'.chip.aud.sapDue.any fun e => e.1 == .sapMclk && e.2.2 == r.w 2) = true)
      ∧ s'.waits r .boundary)
  ∧ (∀ (s : State) (t : Nat) (ch : Fin 16) (r : Req) (c : Chip), c = s.chipAt t → s.mayAsk t ch.val 0x0E80 r →
      let n := r.w 0;
      let ws := r.ws 1 n;
      let h := fun w => bits w 0 2;
      let ctl := fun w => bits w 2 21;
      let was := fun w => c.headCtl (h w);
      let kept := fun w => !(bit (was w) 0) || (was w &&& 0x7FE) == (ctl w &&& 0x7FE);
      let routed := fun k => !(c.destsOf (320 + k)).isEmpty || c.fw.queue.any fun q =>
        q.change.kind == .route && !(bit (q.change.ws.getD 0 0) 31) && bits (q.change.ws.getD 0 0) 16 9 == 320 + k;
      r.lenIs (n + 1) = true →
      ((c.role != 2 && r.epoch == 0 && 1 ≤ n && n ≤ 4 && nodup (ws.map h) && ws.all fun w =>
        bits w 23 9 == 0 && bits w 9 3 ≤ 4 && (!(bit w 2) && bits w 4 5 == 0 || c.headFmtOk (bits w 4 5) (bits w 3 1))) : Bool) = true →
      ((ws.all kept) : Bool) = true → ((ws.all fun w => !(bit w 2) || c.domOn (domHead (h w))) : Bool) = true →
      ((ws.all fun w => bit w 2 || !(routed (h w))) : Bool) = true → c.hasRoom [] (ws.map fun w => ⟨.head, h w, [w]⟩) = true →
    ∃ s', Sys2Proof.Machine.exec (.mvcSetHead t ch) s = .next s'
      ∧ ((List.range (r.w 0)).all fun i => (s'.chip.head (bits (r.w (1 + i)) 0 2)).due == some (bits (r.w (1 + i)) 2 21)) = true
      ∧ s'.waits r .boundary)
  ∧ (∀ (s : State) (t : Nat) (ch : Fin 16) (r : Req) (c : Chip), c = s.chipAt t → s.mayAsk t ch.val 0x0F81 r →
      let ok := fun i => laneWordOk (r.w (1 + i)) i;
      let changed := fun i => bits (laneCfgWord (r.w (1 + i))) 0 11 != bits (c.get (TWN_LN_CFG i)) 0 11;
      r.lenIs 3 = true → ((r.epoch == 0 && r.w 0 < 4 && ok 0 && ok 1) : Bool) = true →
      ((!c.twn.paired || !(changed 0 || changed 1)) : Bool) = true →
    ∃ s', Sys2Proof.Machine.exec (.twnSetPolicy t ch) s = .next s'
      ∧ s'.answered r ⟨0, 0, 0, []⟩
      ∧ s'.chip.rd TWN_CFG_PENDING_ENABLE = bits (r.w 0) 0 1
      ∧ s'.chip.rd TWN_CFG_TWN_BOD_POLICY = bits (r.w 0) 1 1
      ∧ s'.chip.get (TWN_LN_CFG 0) = laneCfgWord (r.w 1)
      ∧ s'.chip.get (TWN_LN_CFG 1) = laneCfgWord (r.w 2))
  ∧ ∀ (s : State) (t : Nat) (ch : Fin 16) (r : Req) (c : Chip), c = s.chipAt t → s.mayAsk t ch.val 0x1080 r →
      r.lenIs 1 = true → ((r.w 0 < 2 && r.epoch == 0) : Bool) = true →
    ∃ s', Sys2Proof.Machine.exec (.busSetAperture t ch) s = .next s'
      ∧ s'.answered r ⟨0, 0, 0, []⟩
      ∧ s'.chip.rd BUS_APT_CTL_ENABLE = r.w 0

/-- XPT_TAKE, XPT_SALVO, XPT_SET_DEST, XPT_SET_GEN, LBS_SET_RECORD, LBS_SET_PLAYBACK, FAB_SET_SLOTS, FLOW_SET_SENDER, AUD_SET_SHUFFLE, AUD_SET_GAINS,
AUD_SET_LIMITER, MVC_SET_LAYERS, MVC_FLIP (R35, R138, R173, R174, R182, R187, R230, R233, R354, R418, R491 to R493, R534, R540), each on a
request whose words and state meet the conditions of its rule, given here one by one, whose epoch can be assigned (R30 to R32), and that finds
room (R36, R175): it is answered PENDING with the epoch assigned (of a salvo or shuffle, with the two epochs), and its entries stand in the take
queue for that epoch. -/
def Obligations.EpochRequests : Prop :=
  (∀ (s : State) (t : Nat) (ch : Fin 16) (r : Req) (e : Nat) (c : Chip), c = s.chipAt t → s.mayAsk t ch.val 0x0480 r →
      let n := r.w 0;
      let ws := r.ws 1 n;
      let es := routeEntries ws;
      let p := c.dstPlane (bits (r.w 1) 0 9);
      let at_ := c.project p e;
      r.lenIs (n + 1) = true →
      ((1 ≤ n && n ≤ 384 && nodup (es.map Prod.fst) && es.all (fun e => c.dstPlane e.1 == p)
        && ws.all (routeArgs c at_)) : Bool) = true →
      c.assignEpoch p r.epoch = .ok e → ((ws.all (routeState at_)) : Bool) = true →
      c.hasRoom (pendsAt r p e (es.map fun x => ⟨.route, x.1, [x.2]⟩)) [] = true →
    ∃ s', Sys2Proof.Machine.exec (.xptTake t ch) s = .next s'
      ∧ s'.answered r ⟨1, 0, e, []⟩
      ∧ s'.queues r ((routeEntries (r.ws 1 (r.w 0))).map fun x => (c.dstPlane x.1, e, ⟨.route, x.1, [x.2]⟩)))
  ∧ (∀ (s : State) (t : Nat) (ch : Fin 16) (r : Req) (e0 e1 : Nat) (c : Chip), c = s.chipAt t → s.mayAsk t ch.val 0x0481 r →
      let n := r.w 2;
      let ws := r.ws 3 n;
      let es := routeEntries ws;
      let on := fun p => es.any fun e => c.dstPlane e.1 == p;
      let ats := fun p => c.project p (if p = 0 then e0 else e1);
      let at_ := fun w => ats (c.dstPlane (bits w 0 9));
      r.lenIs (n + 3) = true →
      ((1 ≤ n && n ≤ 384 && r.epoch == 0 && nodup (es.map Prod.fst) && ws.all (fun w => routeArgs c (at_ w) w)) : Bool) = true →
      planeEpochs c (r.w 0) (r.w 1) on = .ok (e0, e1) → ((ws.all fun w => routeState (at_ w) w) : Bool) = true →
      c.hasRoom (es.flatMap fun x => pendsAt r (c.dstPlane x.1) (if c.dstPlane x.1 = 0 then e0 else e1) [⟨.route, x.1, [x.2]⟩]) [] = true →
    ∃ s', Sys2Proof.Machine.exec (.xptSalvo t ch) s = .next s'
      ∧ s'.answered r ⟨1, 0, 0, [e0, e1]⟩
      ∧ s'.queues r ((routeEntries (r.ws 3 (r.w 2))).map fun x =>
        (c.dstPlane x.1, (if c.dstPlane x.1 = 0 then e0 else e1), ⟨.route, x.1, [x.2]⟩)))
  ∧ (∀ (s : State) (t : Nat) (ch : Fin 16) (r : Req) (e : Nat) (c : Chip), c = s.chipAt t → s.mayAsk t ch.val 0x0482 r →
      let n := r.w 0;
      let ws := r.ws 1 n;
      let d := fun w => bits w 0 9;
      let p := c.dstPlane (d (r.w 1));
      let used := fun w =>
        let d := d w
        c.on (XPT_DST_CTL_ROUTED d) || c.waits .route d
          || (272 ≤ d && d < 320 && (c.on (LBS_REC_CTL_ENABLE (d - 272)) || c.waits .record (d - 272) fun y => bit (y.ws.getD 0 0) 6))
          || (240 ≤ d && d < 272 && (c.on (NET_TXF_CTL_ENABLE (d - 240)) || c.waits .sender (d - 240) fun y => bit (y.ws.getD 0 0) 7));
      r.lenIs (n + 1) = true →
      ((1 ≤ n && n ≤ 384 && nodup (ws.map d) && ws.all (fun w => dstOffered c.role (d w) && c.dstPlane (d w) == p
        && bits w 10 2 != 3 && bits w 17 15 == 0)) : Bool) = true →
      c.assignEpoch p r.epoch = .ok e → ((ws.all fun w => bits w 9 1 == p || !(used w)) : Bool) = true →
      c.hasRoom (pendsAt r p e (ws.map fun w => ⟨.dest, d w, [w]⟩)) [] = true →
    ∃ s', Sys2Proof.Machine.exec (.xptSetDest t ch) s = .next s'
      ∧ s'.answered r ⟨1, 0, e, []⟩
      ∧ s'.queues r ((r.ws 1 (r.w 0)).map fun w => (c.dstPlane (bits w 0 9), e, ⟨.dest, bits w 0 9, [w]⟩)))
  ∧ (∀ (s : State) (t : Nat) (ch : Fin 16) (r : Req) (e : Nat) (c : Chip), c = s.chipAt t → s.mayAsk t ch.val 0x0483 r →
      let w := r.w 0;
      let g := bits w 0 3;
      let pat := bits w 24 3;
      let f := bits w 16 5;
      let p := c.rd (XPT_GEN_CTL_PLANE g);
      r.lenIs (if pat = 4 then 2 else 1) = true →
      ((pat ≤ 4 && w &&& 0xF8E0FCF8 == 0 && (pat != 4 || r.w 1 < 2 ^ 30)
        && (c.mayRun f (bits w 8 1) || (f == 0 && !(bit w 9)))) : Bool) = true →
      c.assignEpoch p r.epoch = .ok e → ((c.planeFmt (bits w 8 1) != 0 || !(bit w 9)) : Bool) = true →
      (((bits w 8 1 == p && bit w 9) || !(c.genUsed g)) : Bool) = true →
      c.hasRoom (pendsAt r p e [⟨.gen, g, [w, if pat = 4 then r.w 1 else (c.project p e).get (XPT_GEN_COLOUR g)]⟩]) [] = true →
    ∃ s', Sys2Proof.Machine.exec (.xptSetGen t ch) s = .next s'
      ∧ s'.answered r ⟨1, 0, e, []⟩
      ∧ s'.queues r [(c.rd (XPT_GEN_CTL_PLANE (bits (r.w 0) 0 3)), e, ⟨.gen, bits (r.w 0) 0 3, [r.w 0, if pat = 4 then r.w 1 else (c.project p e).get (XPT_GEN_COLOUR g)]⟩)])
  ∧ (∀ (s : State) (t : Nat) (ch : Fin 16) (r : Req) (e : Nat) (c : Chip), c = s.chipAt t → s.mayAsk t ch.val 0x0680 r →
      let n := r.w 0;
      let es := (List.range n).map fun i => (r.w (1 + 2 * i), r.w (2 + 2 * i));
      let chn := fun (e : Nat × Nat) => bits e.1 0 6;
      let en := fun (e : Nat × Nat) => bit e.1 6;
      let base := fun (e : Nat × Nat) => bits e.2 0 16;
      let size := fun (e : Nat × Nat) => bits e.2 16 16;
      let p := c.dstPlane (272 + chn (es.headD (0, 0)));
      let args := fun (e : Nat × Nat) => chn e < 48 && bits e.1 13 19 == 0 && !(bit e.1 7) && c.dstPlane (272 + chn e) == p
        && (if en e then c.mayRun (bits e.1 8 5) p && size e != 0 && 2 ≤ depthOf (size e) (bits e.1 8 5)
            else bits e.1 8 5 == 0 && e.2 == 0);
      let denied := fun (at_ : Chip) (e : Nat × Nat) =>
        if en e then
          !(c.domOn domStore)
            || (at_.on (LBS_REC_CTL_ENABLE (chn e))
                && !(at_.rd (LBS_REC_CTL_FORMAT (chn e)) == bits e.1 8 5 && at_.get (LBS_REC_REGION (chn e)) == e.2))
        else
          c.on (XPT_DST_CTL_ROUTED (272 + chn e)) || c.waits .route (272 + chn e)
            || (List.range 48).any fun q => at_.on (LBS_PB_CTL_ENABLE q) && at_.carafeOf q == chn e;
      let clash := fun (e : Nat × Nat) => en e
        && ((c.regions.any fun (q, b, s) => q != chn e && overlap b s (base e) (size e))
            || es.any fun f => en f && chn f != chn e && overlap (base f) (size f) (base e) (size e));
      r.lenIs (1 + 2 * n) = true → ((c.role != 2 && 1 ≤ n && n ≤ 48 && nodup (es.map chn) && es.all args) : Bool) = true →
      c.assignEpoch p r.epoch = .ok e → ((es.all fun f => !(denied (c.project p e) f)) : Bool) = true →
      ((es.all fun f => !(clash f)) : Bool) = true → ((es.all fun f => !(en f) || base f + size f ≤ c.granules) : Bool) = true →
      c.hasRoom (pendsAt r p e (es.map fun f => ⟨.record, chn f, [f.1, f.2]⟩)) [] = true →
    ∃ s', Sys2Proof.Machine.exec (.lbsSetRecord t ch) s = .next s'
      ∧ s'.answered r ⟨1, 0, e, []⟩
      ∧ s'.queues r ((List.range (r.w 0)).map fun i =>
        (c.dstPlane (272 + bits (r.w (1 + 2 * i)) 0 6), e, ⟨.record, bits (r.w (1 + 2 * i)) 0 6, [r.w (1 + 2 * i), r.w (2 + 2 * i)]⟩)))
  ∧ (∀ (s : State) (t : Nat) (ch : Fin 16) (r : Req) (e : Nat) (c : Chip), c = s.chipAt t → s.mayAsk t ch.val 0x0681 r →
      let n := r.w 0;
      let es := (List.range n).map fun i => (r.w (1 + 2 * i), r.w (2 + 2 * i));
      let chn := fun (e : Nat × Nat) => bits e.1 0 6;
      let en := fun (e : Nat × Nat) => bit e.1 6;
      let car := fun (e : Nat × Nat) => if en e then bits e.1 16 6 else c.carafeOf (chn e);
      let p := c.dstPlane (272 + car (es.headD (0, 0)));
      let at_ := c.project p e;
      let args := fun (e : Nat × Nat) => chn e < 48 && car e < 48 && bits e.1 8 8 == 0 && bits e.1 22 10 == 0 && e.2 < 2 ^ 24
        && c.dstPlane (272 + car e) == p
        && (if en e then (at_.depth (car e) == 0 || e.2 + 1 ≤ at_.depth (car e))
              && (e.2 != 0 || (at_.on (LBS_PB_CTL_ENABLE (chn e)) && at_.carafeOf (chn e) == car e))
            else e.1 == chn e && e.2 == 0);
      let used := fun q => !(c.destsOf (272 + q)).isEmpty || c.tapped (272 + q)
        || c.fw.queue.any fun y => y.change.kind == .route && !(bit (y.change.ws.getD 0 0) 31)
            && bits (y.change.ws.getD 0 0) 16 9 == 272 + q;
      let state := fun (at_ : Chip) (e : Nat × Nat) => !(en e)
        || (at_.on (LBS_REC_CTL_ENABLE (car e)) && c.domOn domStore
            && (!(at_.on (LBS_PB_CTL_ENABLE (chn e))) || at_.carafeOf (chn e) == car e || !(used (chn e))
                || at_.rd (LBS_REC_CTL_FORMAT (at_.carafeOf (chn e))) == at_.rd (LBS_REC_CTL_FORMAT (car e))));
      r.lenIs (1 + 2 * n) = true → ((c.role != 2 && 1 ≤ n && n ≤ 48 && nodup (es.map chn) && es.all args) : Bool) = true →
      c.assignEpoch p r.epoch = .ok e → ((es.all (state (c.project p e))) : Bool) = true →
      c.hasRoom (pendsAt r p e (es.map fun f =>
        ⟨.playback, chn f, [f.1, if en f && f.2 == 0 then c.delayAt (chn f) p e else f.2, b2n (en f && f.2 == 0)]⟩)) [] = true →
    ∃ s', Sys2Proof.Machine.exec (.lbsSetPlayback t ch) s = .next s'
      ∧ s'.answered r ⟨1, 0, e, []⟩
      ∧ ((List.range (r.w 0)).all fun i => s'.chip.fw.queue.any fun q => q.epoch == e && q.change.kind == .playback && q.change.idx == bits (r.w (1 + 2 * i)) 0 6
        && q.change.ws.head? == some (r.w (1 + 2 * i))) = true)
  ∧ (∀ (s : State) (t : Nat) (ch : Fin 16) (r : Req) (e : Nat) (c : Chip), c = s.chipAt t → s.mayAsk t ch.val 0x0981 r →
      let n := r.w 0;
      let ws := r.ws 1 n;
      let sel := fun w => bits w 0 8;
      let p := c.dstPlane (48 + sel (r.w 1));
      let at_ := c.project p e;
      let args := fun w => sel w < 192 && !(c.role == 1 && 96 ≤ sel w) && bits w 10 3 ≤ 5 && !(bits w 10 3 == 0 && bit w 9) && bits w 17 15 == 0
        && c.dstPlane (48 + sel w) == p && c.srcPlane (48 + sel w) == p;
      let denied := fun (at_ : Chip) w =>
        (bits w 8 1 != at_.rd (FAB_SLOT_CTL_TX_EN (sel w)) && c.dstUsed (48 + sel w))
          || ((bits w 9 1 != at_.rd (FAB_SLOT_CTL_RX_EN (sel w)) || bits w 10 3 != at_.rd (FAB_SLOT_CTL_RATE_CLASS (sel w)))
              && c.srcUsed (48 + sel w));
      r.lenIs (n + 1) = true → ((c.role != 0 && 1 ≤ n && n ≤ 192 && nodup (ws.map sel) && ws.all args) : Bool) = true →
      c.assignEpoch p r.epoch = .ok e → ((ws.all fun w => !(denied at_ w)) : Bool) = true →
      c.hasRoom (pendsAt r p e (ws.map fun w => ⟨.fabSlot, sel w, [w]⟩)) [] = true →
    ∃ s', Sys2Proof.Machine.exec (.fabSetSlots t ch) s = .next s'
      ∧ s'.answered r ⟨1, 0, e, []⟩
      ∧ s'.queues r ((r.ws 1 (r.w 0)).map fun w => (c.dstPlane (48 + bits w 0 8), e, ⟨.fabSlot, bits w 0 8, [w]⟩)))
  ∧ (∀ (s : State) (t : Nat) (ch : Fin 16) (r : Req) (e : Nat) (c : Chip), c = s.chipAt t → s.mayAsk t ch.val 0x0B82 r →
      let n := r.w 0;
      let es := (List.range n).map fun i => r.ws (1 + 10 * i) 10;
      let sel := fun (e : List Nat) => bits (e.getD 0 0) 0 7;
      let en := fun (e : List Nat) => bit (e.getD 0 0) 7;
      let aux := fun (e : List Nat) => if en e then e.getD 1 0 else c.get (NET_TXF_AUX (sel e));
      let p := match es.head? with | some e => c.senderPlane (sel e) (aux e) | none => 0;
      let at_ := c.project p e;
      let args := fun (e : List Nat) =>
        sel e < 112 && bits (e.getD 0 0) 20 12 == 0 && c.senderPlane (sel e) (aux e) == p
          && (if en e then
                bits (e.getD 1 0) 14 18 == 0 && bits (e.getD 2 0) 7 9 == 0 && (flowKind (sel e) != 1 || auxAudio (e.getD 1 0))
                  && isGroup (e.getD 4 0) && (!(bit (e.getD 0 0) 8) || isGroup (e.getD 7 0))
              else bits (e.getD 0 0) 8 12 == 0 && (e.drop 1).all (· == 0));
      let off := fun (e : List Nat) =>
        en e || flowKind (sel e) != 0
          || (!(at_.on (XPT_DST_CTL_ROUTED (240 + sel e)))
              && !((List.range 112).any fun a => flowKind a == 2 && at_.on (NET_TXF_CTL_ENABLE a) && at_.rd (NET_TXF_AUX_BOUND a) == sel e
                    && !(es.any fun b => sel b == a && !(en b))));
      let later := fun e (b : List Nat) => !(en b) && flowKind (sel b) == 0
        && c.fw.queue.any fun q => q.change.kind == .route && q.change.idx == 240 + sel b && q.plane == p && c.epochAt p e < c.epochAt p q.epoch;
      let after := es.foldl (fun (a : Chip) e => a.applySender (sel e) e) at_;
      r.lenIs (10 * n + 1) = true → ((c.role != 2 && 1 ≤ n && n ≤ 16 && nodup (es.map sel) && es.all args) : Bool) = true →
      c.assignEpoch p r.epoch = .ok e → ((es.all fun b => off b && !(later e b)) : Bool) = true →
      (([0, 1].all (fun q => after.txRate q ≤ wireCap || after.txRate q ≤ at_.txRate q)
        && es.all (fun b => flowKind (sel b) != 1 || !(en b) || after.on (AUD_TXF_BASE_VALID (sel b - 32)))) : Bool) = true →
      c.hasRoom (pendsAt r p e (es.map fun b => ⟨.sender, sel b, b⟩)) [] = true →
    ∃ s', Sys2Proof.Machine.exec (.flowSetSender t ch) s = .next s'
      ∧ s'.answered r ⟨1, 0, e, []⟩
      ∧ ((List.range (r.w 0)).all fun i => s'.chip.fw.queue.any fun q => q.epoch == e && q.change == ⟨.sender, bits (r.w (1 + 10 * i)) 0 7, r.ws (1 + 10 * i) 10⟩
        && q.chan == r.chan && q.seq == r.seq) = true)
  ∧ (∀ (s : State) (t : Nat) (ch : Fin 16) (r : Req) (e0 e1 : Nat) (c : Chip), c = s.chipAt t → s.mayAsk t ch.val 0x0C80 r →
      let n := r.w 2;
      let es := wordPairs (r.ws 3 (2 * n)) n;
      let on := fun p => es.any fun e => c.shufPlane e == p;
      let fits := (fun (a : Chip) => let b := (a.withShuf es).bridged; b.1.length ≤ 512 && b.2.length ≤ 512);
      r.lenIs (3 + 2 * n) = true →
      ((c.role != 2 && r.epoch == 0 && 1 ≤ n && n ≤ 508 && nodup (es.map fun e => bits e.1 0 13 + 2 * (bits e.1 15 1 * 8192))
        && es.all (shufArgs c.role)) : Bool) = true →
      planeEpochs c (r.w 0) (r.w 1) on = .ok (e0, e1) → ((c.domOn domAud) : Bool) = true →
      (([0, 1].all fun p => !(on p) || fits (c.project p (if p = 0 then e0 else e1))) : Bool) = true →
    ∃ s', Sys2Proof.Machine.exec (.audSetShuffle t ch) s = .next s'
      ∧ s'.answered r ⟨1, 0, 0, [e0, e1]⟩
      ∧ s'.queues r ((wordPairs (r.ws 3 (2 * r.w 2)) (r.w 2)).map fun x => (c.shufPlane x, (if c.shufPlane x = 0 then e0 else e1), shufChange x)))
  ∧ (∀ (s : State) (t : Nat) (ch : Fin 16) (r : Req) (e : Nat) (c : Chip), c = s.chipAt t → s.mayAsk t ch.val 0x0C81 r →
      let n := r.w 0;
      let es := wordPairs (r.ws 2 (2 * n)) n;
      let key := fun (e : Nat × Nat) => bits e.1 16 9 * 512 + bits e.1 0 9;
      r.lenIs (2 + 2 * n) = true →
      ((c.role != 2 && 1 ≤ n && n ≤ 509 && r.w 1 ≤ 3 && nodup (es.map key) && es.all fun e =>
        e.1 &&& 0xFE00FE00 == 0 && e.2 < 2 ^ 20 && (toSigned 20 e.2).natAbs ≤ 519338) : Bool) = true →
      c.assignEpoch c.enginePlane r.epoch = .ok e → ((c.domOn domAud) : Bool) = true →
    ∃ s', Sys2Proof.Machine.exec (.audSetGains t ch) s = .next s'
      ∧ s'.answered r ⟨1, 0, e, []⟩
      ∧ s'.queues r ((wordPairs (r.ws 2 (2 * r.w 0)) (r.w 0)).map fun b => (c.enginePlane, e, ⟨.gain, bits b.1 16 9 * 512 + bits b.1 0 9, [b.2, r.w 1]⟩)))
  ∧ (∀ (s : State) (t : Nat) (ch : Fin 16) (r : Req) (e : Nat) (c : Chip), c = s.chipAt t → s.mayAsk t ch.val 0x0C82 r →
      let n := r.w 0;
      let ws := r.ws 1 n;
      let cs := ws.map limChange;
      r.lenIs (1 + n) = true →
      ((c.role != 2 && 1 ≤ n && n ≤ 1019 && ws.all limArgs
        && nodup (cs.map fun y => y.idx + 512 * (match y.kind with | .mixin => 0 | .mixout => 1 | _ => 2))) : Bool) = true →
      c.assignEpoch c.enginePlane r.epoch = .ok e →
      ((!(cs.any fun y => y.kind == .engine) || (c.project c.enginePlane e).engineIdle) : Bool) = true → ((c.domOn domAud) : Bool) = true →
    ∃ s', Sys2Proof.Machine.exec (.audSetLimiter t ch) s = .next s'
      ∧ s'.answered r ⟨1, 0, e, []⟩
      ∧ s'.queues r ((r.ws 1 (r.w 0)).map fun w => (c.enginePlane, e, limChange w)))
  ∧ (∀ (s : State) (t : Nat) (ch : Fin 16) (r : Req) (e : Nat) (c : Chip), c = s.chipAt t → s.mayAsk t ch.val 0x0E81 r →
      let n := r.w 0;
      let es := layerEntries r n;
      let p := bits (c.headCtl (layerHead (es.headD []))) 1 1;
      let at_ := c.project p e;
      let after := es.foldl (fun a e => a.withVl e) at_;
      r.lenIs (1 + 3 * n) = true →
      ((c.role != 2 && 1 ≤ n && n ≤ 84 && nodup (es.map layerTarget) && es.all (fun e => bits (c.headCtl (layerHead e)) 1 1 == p)
        && es.all (layerArgs c) && nodup (after.vlTargets.map vlTile) && es.all fun e => after.layersOk (layerHead e)) : Bool) = true →
      c.assignEpoch p r.epoch = .ok e → ((es.all fun e => bit (c.headCtl (layerHead e)) 0) : Bool) = true →
      c.hasRoom (pendsAt r p e (es.map layerChange)) [] = true →
    ∃ s', Sys2Proof.Machine.exec (.mvcSetLayers t ch) s = .next s'
      ∧ s'.answered r ⟨1, 0, e, []⟩
      ∧ ((layerEntries r (r.w 0)).all fun x => s'.chip.fw.queue.any fun q => q.epoch == e && q.change == layerChange x && q.chan == r.chan && q.seq == r.seq) = true)
  ∧ ∀ (s : State) (t : Nat) (ch : Fin 16) (r : Req) (e : Nat) (c : Chip), c = s.chipAt t → s.mayAsk t ch.val 0x0E83 r →
      let n := r.w 0;
      let ws := r.ws 1 n;
      let h := fun w => bits w 0 2;
      let p := bits (c.headCtl (h (r.w 1))) 1 1;
      r.lenIs (n + 1) = true →
      ((c.role != 2 && 1 ≤ n && n ≤ 32 && ws.all fun w => bits (c.headCtl (h w)) 1 1 == p && bits w 6 10 == 0 &&
        (if bit w 2 then 1 ≤ bits w 3 3 && bits w 3 3 ≤ 4 else bits w 3 3 < bits (c.headCtl (h w)) 7 3)) : Bool) = true →
      c.assignEpoch p r.epoch = .ok e → ((ws.all fun w => bit (c.headCtl (h w)) 0) : Bool) = true →
    ∃ s', Sys2Proof.Machine.exec (.mvcFlip t ch) s = .next s'
      ∧ s'.answered r ⟨1, 0, e, []⟩
      ∧ ((r.ws 1 (r.w 0)).all fun w => s'.chip.fw.queue.any fun q => q.epoch == e && q.change == ⟨.flip, bits w 0 2 * 16 + bits w 2 1 * 8 + bits w 3 3, [bits w 16 16]⟩
        && q.chan == r.chan && q.seq == r.seq) = true

/-- FRAME_BOUNDARY (R29, R163): at a frame boundary of a plane that runs, its take epoch counter increments modulo 2^32 (the first boundary after a
reset gives epoch 0), the boundary's SYSTIME is recorded, and the next boundary is one frame period ahead. Premises: no state copy and no
forwarded command is due, the plane's format is not changing, and the take queue holds only changes that bear an epoch. SWITCHING_POINT (R168 to
R170): the one change due at a destination, a route, takes at its switching point and leaves the queue: the destination is routed to the source
it names, or to none. -/
def Obligations.FrameBoundaryAndTakes : Prop :=
  (∀ (s : State) (t : Nat) (q : Fin 2) (c : Chip), c = s.chipAt t → c.live = true → 2 ≤ c.planeState q.val →
      c.twn.image = none → c.twn.held = [] → (c.plane q.val).again = none → (c.fw.queue.all fun p => p.change.kind.bears) = true →
    ∃ s', Sys2Proof.Machine.exec (.frameBoundary t q) s = .next s'
      ∧ s'.chip.rd (XPT_EPOCH_EPOCH q.val) = (if (c.plane q.val).counted then (c.rd (XPT_EPOCH_EPOCH q.val) + 1) % 2 ^ 32 else 0)
      ∧ s'.chip.get (XPT_BOUNDARY_TIME q.val) = c.clock.n % 2 ^ 32
      ∧ (s'.chip.plane q.val).counted = true ∧ (s'.chip.plane q.val).nextB = c.now + c.planePeriod q.val
      ∧ s'.chip.rd (XPT_EPOCH_EPOCH (1 - q.val)) = c.rd (XPT_EPOCH_EPOCH (1 - q.val)))
  ∧ (∀ (s : State) (t : Nat) (d : Fin 384) (field2 : Bool) (p : Pend) (w : Nat) (c : Chip), c = s.chipAt t → c.live = true →
      2 ≤ c.planeState (c.dstPlane d.val) → dstOffered c.role d.val = true → c.takesHere d.val field2 = true → p.change = ⟨.route, d.val, [w]⟩ →
      (c.fw.queue.filter fun y => y.plane == c.dstPlane d.val && c.reached (c.dstPlane d.val) y.epoch && y.change.dest == some d.val) = [p] →
    ∃ s', Sys2Proof.Machine.exec (.switchingPoint t d field2) s = .next s' ∧ (s'.chip.fw.queue.contains p) = false
      ∧ s'.chip.on (XPT_DST_CTL_ROUTED d.val) = !(bit w 31) ∧ s'.chip.rd (XPT_DST_CTL_SOURCE d.val) = (if bit w 31 then 0 else bits w 16 9))

/-- SOURCE_FRAME_ARRIVAL (R198, R201, R215) at an SDI_IN or FAB_IN: outside a bonded group a frame of a measured format takes its offset, saturated
to the field, and its place in the window from the boundary of its plane, and it is the newest frame of the source; in a bonded group the frame
is noted for its lane, and once every lane has one the group's frame has begun. SRC_DEMOTED (R205): a promoted source calm for 64 frames is
demoted. SRC_INVALID (R212 to R214): a valid source with a cause is invalid with that cause and the sticky flags, and one without a cause, of an
aligner, is invalid for want of a format. SRC_VALID (R213): an invalid source without a cause, after two good frames where it has an aligner or a
flow, is valid. INVALID_LINE (R213): the line is counted on the lead of the group and continues or starts a run; the count is stated where no
promoted frame is cut short by it. -/
def Obligations.SourceEvents : Prop :=
  (∀ (s : State) (t : Nat) (x : Fin 332) (f : FrameIn) (c : Chip), c = s.chipAt t → c.live = true → srcOffered c.role x.val = true →
      srcKind x.val ≤ 1 → c.bondedRx x.val = false → c.measured x.val f ≠ 0 →
    ∃ s', Sys2Proof.Machine.exec (.sourceFrameArrival t x f) s = .next s'
      ∧ s'.chip.rdI (FSY_SRC_OFFSET_OFFSET x.val) = max (-(2 ^ 19)) (min (2 ^ 19 - 1) (c.offsetNow x.val (c.measured x.val f)))
      ∧ s'.chip.on (FSY_SRC_STAT_IN_WINDOW x.val)
          = (decide (winLo x.val ≤ c.offsetNow x.val (c.measured x.val f)) && decide (c.offsetNow x.val (c.measured x.val f) ≤ winHi x.val))
      ∧ (s'.chip.src x.val).next = (c.src x.val).next + 1 ∧ (s'.chip.src x.val).arrAt = some c.now)
  ∧ (∀ (s : State) (t : Nat) (x : Fin 332) (f : FrameIn) (c : Chip), c = s.chipAt t → c.live = true → srcOffered c.role x.val = true →
      c.bondedRx x.val = true →
    ∃ s', Sys2Proof.Machine.exec (.sourceFrameArrival t x f) s = .next s'
      ∧ (if (c.groupOf (c.leadOf x.val)).all (fun i => i == x.val || (c.src i).here) = true
          then (s'.chip.src (c.leadOf x.val)).next = (c.src (c.leadOf x.val)).next + 1 ∧ (s'.chip.src (c.leadOf x.val)).arrAt = some c.now
            ∧ ((c.groupOf (c.leadOf x.val)).all fun i => !(s'.chip.src i).here) = true
          else (s'.chip.src x.val).here = true ∧ (s'.chip.src x.val).link = f.link ∧ (s'.chip.src (c.leadOf x.val)).next = (c.src (c.leadOf x.val)).next))
  ∧ (∀ (s : State) (t : Nat) (x : Fin 332) (c : Chip), c = s.chipAt t → c.live = true → c.on (FSY_SRC_STAT_PROMOTED x.val) = true →
      64 ≤ (c.src x.val).calm →
    ∃ s', Sys2Proof.Machine.exec (.srcDemoted t x) s = .next s' ∧ s'.chip.on (FSY_SRC_STAT_PROMOTED x.val) = false ∧ (s'.chip.src x.val).calm = 0)
  ∧ (∀ (s : State) (t : Nat) (x : Fin 332) (c : Chip), c = s.chipAt t → c.live = true →
      c.srcValid (c.leadOf x.val) = true → c.srcCause (c.leadOf x.val) ≠ 0 →
    ∃ s', Sys2Proof.Machine.exec (.srcInvalid t x) s = .next s' ∧ s'.chip.srcValid (c.leadOf x.val) = false
      ∧ s'.chip.rd (FSY_SRC_STAT_CAUSE (c.leadOf x.val)) = c.srcCause (c.leadOf x.val)
      ∧ s'.chip.on (FSY_SRC_STAT_INVALID_SEEN (c.leadOf x.val)) = true ∧ s'.chip.on FSY_STATUS_INVALID = true)
  ∧ (∀ (s : State) (t : Nat) (x : Fin 332) (c : Chip), c = s.chipAt t → c.live = true → srcKind x.val ≤ 1 →
      c.srcValid (c.leadOf x.val) = true → c.srcCause (c.leadOf x.val) = 0 →
    ∃ s', Sys2Proof.Machine.exec (.srcInvalid t x) s = .next s' ∧ s'.chip.srcValid (c.leadOf x.val) = false
      ∧ s'.chip.rd (FSY_SRC_STAT_CAUSE (c.leadOf x.val)) = 3 ∧ s'.chip.rd (FSY_SRC_STAT_DET_FORMAT (c.leadOf x.val)) = 0)
  ∧ (∀ (s : State) (t : Nat) (x : Fin 332) (c : Chip), c = s.chipAt t → c.live = true → srcOffered c.role x.val = true →
      c.srcValid (c.leadOf x.val) = false → c.srcCause (c.leadOf x.val) = 0 → (srcKind x.val ≤ 2 → 2 ≤ (c.src (c.leadOf x.val)).good) →
    ∃ s', Sys2Proof.Machine.exec (.srcValid t x) s = .next s' ∧ s'.chip.srcValid (c.leadOf x.val) = true
      ∧ s'.chip.rd (FSY_SRC_STAT_CAUSE (c.leadOf x.val)) = 0)
  ∧ ∀ (s : State) (t : Nat) (x : Fin 332) (run : Bool) (c : Chip), c = s.chipAt t → c.live = true → srcOffered c.role x.val = true →
      srcKind x.val ≤ 2 →
    ∃ s', Sys2Proof.Machine.exec (.invalidLine t x run) s = .next s' ∧ s'.chip.on (FSY_SRC_STAT_BADLINE_SEEN (c.leadOf x.val)) = true
      ∧ (s'.chip.src (c.leadOf x.val)).bad = (if run then min 8 ((c.src (c.leadOf x.val)).bad + 1) else 1)
      ∧ (c.srcCause (c.leadOf x.val) = 0 ∨ c.on (FSY_SRC_STAT_PROMOTED (c.leadOf x.val)) = false →
          s'.chip.rd (FSY_SRC_BADLINES_COUNT (c.leadOf x.val))
            = min (2 ^ (FSY_SRC_BADLINES_COUNT (c.leadOf x.val)).w - 1) (c.rd (FSY_SRC_BADLINES_COUNT (c.leadOf x.val)) + 1))

/-- PRESENTATION_INSTANT on a plane that runs. Own plane, a valid source that is no flow and no playback channel, without a cause and with no memory
channel FAILED (R202, R204, R208): where its frame is not late and no 8 ring lines in a row are in error it presents the next frame, whole where
it was valid before this instant, soiled where its synchroniser read lines in error. A late frame of a source without frame synchronisation makes
it invalid with cause 5 (R206); 8 ring lines in a row in error make a synchronised source invalid with cause 6 and are counted (R208, R638). The
other plane (R180, R202): a routed cross-plane synchroniser shows the newest frame of its ring that is ready. A playback channel (R232, R238),
while the store runs and no change of it takes: with a bad tag it shows a gap frame and counts it; with no pause and a recorded slot at its delay
it shows that slot and counts no gap. On a plane that does not run nothing changes. PB_PAUSE_EXPIRED (R235, R242), while the store runs and no
change of the channel takes: a pause whose next frame would pass the depth N of its carafe changes to DELAY mode at N - 1, with its flags; where
a change takes in the same frame or nothing is due the registers stay. STORE_HALTED (R239): no record channel of the plane is enabled any more,
their HISTORY is 0, no playback channel that read one is enabled, and once the last plane concerned has halted LBS_STATUS says so. -/
def Obligations.PresentationsAndStore : Prop :=
  ((∀ (s : State) (t : Nat) (x : Fin 332) (p : Fin 2) (clean ue : Bool) (conceal : Nat) (c : Chip), c = s.chipAt t → c.live = true →
      srcOffered c.role x.val = true → 2 ≤ c.planeState p.val → c.srcPlane x.val = p.val → c.leadOf x.val = x.val →
      srcKind x.val ≠ 2 → srcKind x.val ≠ 3 → c.srcValid x.val = true → c.srcCause x.val = 0 → c.dramFailed = false →
      (1 < srcKind x.val ∨ c.on (FSY_SRC_CTL_ALLOW_FS x.val) = true ∨ c.frameLate x.val = false) → (ue = false ∨ conceal = 0) →
    ∃ s', Sys2Proof.Machine.exec (.presentationInstant t x p clean ue conceal) s = .next s'
      ∧ (s'.chip.src x.val).last = some (((c.src x.val).last.map Prod.fst).getD 0 + 1, c.now)
      ∧ (s'.chip.src x.val).soiled = (c.syncCarries x.val && conceal != 0)
      ∧ (srcKind x.val ≤ 1 → s'.chip.on (FSY_SRC_STAT_PROMOTED x.val) = c.syncCarries x.val)
      ∧ (s'.chip.src x.val).whole = (if (c.src x.val).lostAt < c.now then (c.src x.val).whole + 1 else (c.src x.val).whole))
  ∧ (∀ (s : State) (t : Nat) (x : Fin 332) (p : Fin 2) (clean ue : Bool) (conceal : Nat) (c : Chip), c = s.chipAt t → c.live = true →
      srcOffered c.role x.val = true → 2 ≤ c.planeState p.val → c.srcPlane x.val = p.val → c.leadOf x.val = x.val → srcKind x.val ≤ 1 →
      c.srcValid x.val = true → c.srcCause x.val = 0 → c.on (FSY_SRC_CTL_ALLOW_FS x.val) = false → c.frameLate x.val = true →
    ∃ s', Sys2Proof.Machine.exec (.presentationInstant t x p clean ue conceal) s = .next s'
      ∧ s'.chip.srcValid x.val = false ∧ s'.chip.rd (FSY_SRC_STAT_CAUSE x.val) = 5)
  ∧ (∀ (s : State) (t : Nat) (x : Fin 332) (p : Fin 2) (clean : Bool) (conceal : Nat) (c : Chip), c = s.chipAt t → c.live = true →
      srcOffered c.role x.val = true → 2 ≤ c.planeState p.val → c.srcPlane x.val = p.val → c.leadOf x.val = x.val → srcKind x.val ≤ 1 →
      c.srcValid x.val = true → c.srcCause x.val = 0 → c.dramFailed = false → c.on (FSY_SRC_CTL_ALLOW_FS x.val) = true → c.syncCarries x.val = true → conceal ≠ 0 →
    ∃ s', Sys2Proof.Machine.exec (.presentationInstant t x p clean true conceal) s = .next s'
      ∧ s'.chip.srcValid x.val = false ∧ s'.chip.rd (FSY_SRC_STAT_CAUSE x.val) = 6
      ∧ s'.chip.rd (FSY_SRC_BADLINES_COUNT x.val) = min (2 ^ (FSY_SRC_BADLINES_COUNT x.val).w - 1) (c.rd (FSY_SRC_BADLINES_COUNT x.val) + conceal))
  ∧ (∀ (s : State) (t : Nat) (x : Fin 332) (p : Fin 2) (clean ue : Bool) (conceal : Nat) (c : Chip), c = s.chipAt t → c.live = true →
      srcOffered c.role x.val = true → 2 ≤ c.planeState p.val → c.presentsOn x.val p.val = false → c.leadOf x.val = x.val →
      c.crossOn x.val p.val = true → c.srcValid x.val = true → c.dramFailed = false → (c.src x.val).xdecision = none → (ue = false ∨ conceal = 0) →
    ∃ s', Sys2Proof.Machine.exec (.presentationInstant t x p clean ue conceal) s = .next s'
      ∧ (s'.chip.src x.val).xshown
          = ((newestReady (c.src x.val).xframes (c.linePeriod x.val) c.now).map RingFrame.n).getD (c.src x.val).xshown)
  ∧ (∀ (s : State) (t : Nat) (k : Fin 48) (x : Fin 332) (p : Fin 2) (clean : Bool) (conceal : Nat) (c : Chip), c = s.chipAt t → c.live = true → x.val = 272 + k.val →
      srcOffered c.role x.val = true → 2 ≤ c.planeState p.val → c.srcPlane x.val = p.val → c.on (LBS_PB_CTL_ENABLE k.val) = true →
      c.lbs.stopped = false → c.playDue k.val p.val = false →
    ∃ s', Sys2Proof.Machine.exec (.presentationInstant t x p clean true conceal) s = .next s' ∧ s'.chip.on (LBS_PB_STAT_GAP_SEEN k.val) = true
      ∧ (s'.chip.play k.val).shown = [none]
      ∧ s'.chip.rd (LBS_PB_CNT_GAP_FRAMES k.val) = min (2 ^ (LBS_PB_CNT_GAP_FRAMES k.val).w - 1) (c.rd (LBS_PB_CNT_GAP_FRAMES k.val) + 1))
  ∧ (∀ (s : State) (t : Nat) (k : Fin 48) (x : Fin 332) (p : Fin 2) (clean : Bool) (conceal n : Nat) (c : Chip), c = s.chipAt t → c.live = true → x.val = 272 + k.val →
      srcOffered c.role x.val = true → 2 ≤ c.planeState p.val → c.srcPlane x.val = p.val → c.on (LBS_PB_CTL_ENABLE k.val) = true →
      c.lbs.stopped = false → c.playDue k.val p.val = false → c.on (LBS_PB_CTL_MODE k.val) = false →
      n + c.rd (LBS_PB_STAT_CUR_DELAY k.val) = c.frameNow (c.dstPlane (272 + c.carafeOf k.val)) (c.rd (LBS_REC_CTL_FORMAT (c.carafeOf k.val))) →
      c.tagOf (c.carafeOf k.val) n = some .recorded →
    ∃ s', Sys2Proof.Machine.exec (.presentationInstant t x p clean false conceal) s = .next s'
      ∧ (s'.chip.play k.val).shown = [some (c.carafeOf k.val, n)]
      ∧ s'.chip.rd (LBS_PB_CNT_GAP_FRAMES k.val) = c.rd (LBS_PB_CNT_GAP_FRAMES k.val)
      ∧ s'.chip.rd (LBS_PB_CNT_CONCEAL_LINES k.val) = min (2 ^ (LBS_PB_CNT_CONCEAL_LINES k.val).w - 1) (c.rd (LBS_PB_CNT_CONCEAL_LINES k.val) + conceal))
  ∧ ∀ (s : State) (t : Nat) (x : Fin 332) (p : Fin 2) (clean ue : Bool) (conceal : Nat) (c : Chip), c = s.chipAt t → c.live = true →
      c.planeState p.val < 2 →
    ∃ s', Sys2Proof.Machine.exec (.presentationInstant t x p clean ue conceal) s = .next s' ∧ s'.chip.regs = c.regs ∧ s'.chip.srcs = c.srcs)
  ∧ ((∀ (s : State) (t : Nat) (k : Fin 48) (c : Chip), c = s.chipAt t → c.live = true → c.pauseDue k.val = true →
      c.lbs.stopped = false → c.playDue k.val 0 = false → c.playDue k.val 1 = false →
    ∃ s', Sys2Proof.Machine.exec (.pbPauseExpired t k) s = .next s' ∧ s'.chip.on (LBS_PB_CTL_MODE k.val) = false
      ∧ s'.chip.on (LBS_PB_STAT_PAUSE_EXPIRED k.val) = true ∧ s'.chip.on LBS_STATUS_PAUSE_EXPIRED = true
      ∧ s'.chip.rd (LBS_PB_STAT_CUR_DELAY k.val) = (c.depth (c.carafeOf k.val) - 1) % 2 ^ (LBS_PB_STAT_CUR_DELAY k.val).w)
  ∧ (∀ (s : State) (t : Nat) (k : Fin 48) (c : Chip), c = s.chipAt t →
      (c.pauseDue k.val = false ∨ c.lbs.stopped = true ∨ c.playDue k.val 0 = true ∨ c.playDue k.val 1 = true) →
    ∃ s', Sys2Proof.Machine.exec (.pbPauseExpired t k) s = .next s' ∧ s'.chip.regs = c.regs)
  ∧ ∀ (s : State) (t : Nat) (p : Fin 2) (n : Nat) (planes : List Nat) (c : Chip), c = s.chipAt t → c.live = true → c.lbs.halt = some (n, planes) →
    ∃ s', Sys2Proof.Machine.exec (.storeHalted t p) s = .next s'
      ∧ ((List.range 48).all fun r => c.dstPlane (272 + r) != p.val
          || (!(s'.chip.on (LBS_REC_CTL_ENABLE r)) && s'.chip.rd (LBS_REC_HIST_HISTORY r) == 0)) = true
      ∧ ((List.range 48).all fun q => c.dstPlane (272 + c.carafeOf q) != p.val || !(s'.chip.on (LBS_PB_CTL_ENABLE q))) = true
      ∧ (planes.all (· == p.val) = true → s'.chip.lbs.halt = none ∧ s'.chip.on LBS_STATUS_HALTED = true)
      ∧ (planes.all (· == p.val) = false → s'.chip.lbs.halt = some (n, planes.filter (· != p.val))))

/-- CHANNEL_TRAINING (R247, R248) of a channel in TRAINING: with no DIMM it is ABSENT and OFF; with an unsupported one, or one whose capacity does
not fit its ranks and density, DISABLED and OFF; with a supported one it goes on with the size recorded. CHANNEL_READY (R255, R272): ACTIVE, in
an ACTIVE domain, with the delays found, FINE held within 64 to 191; where a transition of its domain was running to SELF-REFRESH, asked for
still, in SELF-REFRESH (R95). TRAIN_FAILED (R256): DISABLED with cause 3, the flag and its domain OFF. CHANNEL_FAILED (R239, R270) of an ACTIVE
channel that has met a condition of R269: FAILED with that cause, the flag, the store halting for it, and a DRAM budget that has not grown. -/
def Obligations.ChannelStates : Prop :=
  (∀ (s : State) (t : Nat) (n : Fin 8) (dimm : Option Dimm) (c : Chip), c = s.chipAt t → c.ready = true → c.chState n.val = chTraining →
    ∃ s', Sys2Proof.Machine.exec (.channelTraining t n dimm) s = .next s'
      ∧ (dimm = none → s'.chip.chState n.val = chAbsent ∧ s'.chip.dom (domMem n.val) = stOff)
      ∧ (dimm.any (fun d => !(d.supported && d.fits)) = true → s'.chip.chState n.val = chDisabled ∧ s'.chip.dom (domMem n.val) = stOff)
      ∧ (dimm.any (fun d => d.supported && d.fits) = true → s'.chip.chState n.val = chTraining
          ∧ some (s'.chip.rd (DMC_CH_DIMM_SIZE_GIB n.val)) = dimm.map (fun d => d.gib % 2 ^ (DMC_CH_DIMM_SIZE_GIB n.val).w)))
  ∧ (∀ (s : State) (t : Nat) (n : Fin 8) (rd wr : List (BitVec 14)) (c : Chip), c = s.chipAt t → c.ready = true → c.chState n.val = chTraining →
      c.on (PWR_DOM_CTL_BUSY (domMem n.val)) = false →
    ∃ s', Sys2Proof.Machine.exec (.channelReady t n rd wr) s = .next s' ∧ s'.chip.chState n.val = chActive
      ∧ s'.chip.dom (domMem n.val) = stActive
      ∧ (∀ i : Fin 40, s'.chip.get (DMC_RD_DLY n.val i.val) = heldDelay (rd.getD i.val 0).toNat ∧ s'.chip.get (DMC_WR_DLY n.val i.val) = heldDelay (wr.getD i.val 0).toNat))
  ∧ (∀ (s : State) (t : Nat) (n : Fin 8) (rd wr : List (BitVec 14)) (c : Chip), c = s.chipAt t → c.ready = true → c.chState n.val = chTraining →
      c.on (PWR_DOM_CTL_BUSY (domMem n.val)) = true → c.domGoal (domMem n.val) = stLow → c.rd (PWR_DOM_CTL_REQ (domMem n.val)) = stLow →
    ∃ s', Sys2Proof.Machine.exec (.channelReady t n rd wr) s = .next s' ∧ s'.chip.chState n.val = chSelf ∧ s'.chip.dom (domMem n.val) = stLow
      ∧ s'.chip.on (PWR_DOM_CTL_BUSY (domMem n.val)) = false)
  ∧ (∀ (s : State) (t : Nat) (n : Fin 8) (c : Chip), c = s.chipAt t → c.ready = true → c.chState n.val = chTraining →
    ∃ s', Sys2Proof.Machine.exec (.trainFailed t n) s = .next s' ∧ s'.chip.chState n.val = chDisabled ∧ s'.chip.rd (DMC_CH_STAT_CAUSE n.val) = 3
      ∧ s'.chip.on DMC_STATUS_TRAIN_FAILED = true ∧ s'.chip.dom (domMem n.val) = stOff)
  ∧ ∀ (s : State) (t : Nat) (n : Fin 8) (c : Chip), c = s.chipAt t → c.live = true → c.chState n.val = chActive → (c.dmcCh n.val).failing ≠ 0 →
    ∃ s', Sys2Proof.Machine.exec (.channelFailed t n) s = .next s' ∧ s'.chip.chState n.val = chFailed
      ∧ s'.chip.rd (DMC_CH_STAT_CAUSE n.val) = (c.dmcCh n.val).failing % 2 ^ (DMC_CH_STAT_CAUSE n.val).w ∧ s'.chip.on DMC_STATUS_CH_FAILED = true
      ∧ s'.chip.lbs.halt.map Prod.fst = some n.val ∧ s'.chip.dramBudget ≤ c.dramBudget

/-- On a channel in ACTIVE. REFRESH_BOUNDARY (R260, R266): a boundary without a temperature report adds to the silent ones, one with a report ends
them, a hot report doubles the refresh, and no due step of the rank is left. PERCOLATOR_SWEEP (R266, R267), by the running firmware within a
budget that is not 0: the eye width of every device whose results are not all failures is the width of its passing range. DRAM_READ_ECC (R261,
R262): an error that the code cannot correct is flagged, counted and kept as self-diagnosis evidence; a corrected one is flagged and counted, and
no uncorrectable one is. PATROL_SCRUB (R263): the scrub address advances by 64 bytes and wraps at the end of the channel. PARITY_ALERT (R268):
flagged and counted, and the fourth replay fails the channel. -/
def Obligations.MemoryEvents : Prop :=
  (∀ (s : State) (t : Nat) (n : Fin 8) (k : Fin 2) (mr4 : Option Bool) (c : Chip), c = s.chipAt t → c.live = true → c.chState n.val = chActive →
    ∃ s', Sys2Proof.Machine.exec (.refreshBoundary t n k mr4) s = .next s'
      ∧ (s'.chip.dmcCh n.val).silent = (if mr4.isNone then (c.dmcCh n.val).silent + 1 else 0)
      ∧ (mr4 = some true → s'.chip.on (DMC_CH_STAT_TEMP_2X n.val) = true) ∧ ((s'.chip.dmcCh n.val).nudges.all fun e => e.1 / 20 != k.val) = true)
  ∧ (∀ (s : State) (t : Nat) (n : Fin 8) (k : Fin 2) (ms : List (BitVec 33)) (c : Chip), c = s.chipAt t → c.ready = true → c.chState n.val = chActive →
      c.dramBudget ≠ 0 →
    ∃ s', Sys2Proof.Machine.exec (.percolatorSweep t n k ms) s = .next s'
      ∧ ∀ d : Fin 20, ((ms.getD d.val 0).toNat == 0 || (passRange (ms.getD d.val 0).toNat).all fun e =>
          s'.chip.rd (DMC_RD_DLY_EYE_WIDTH n.val (20 * k.val + d.val)) == e.2 - e.1 + 1) = true)
  ∧ (∀ (s : State) (t : Nat) (pa : BitVec 41) (c : Chip), c = s.chipAt t → c.live = true → c.chState (paChan pa.toNat) = chActive →
    ∃ s', Sys2Proof.Machine.exec (.dramReadEcc t pa none) s = .next s' ∧ s'.chip.on DMC_STATUS_UE = true ∧ s'.chip.on TWN_DIAG_DRAM_UE = true
      ∧ s'.chip.rd (DMC_UE_COUNT_COUNT (paChan pa.toNat)) = min (2 ^ 32 - 1) (c.rd (DMC_UE_COUNT_COUNT (paChan pa.toNat)) + 1))
  ∧ (∀ (s : State) (t : Nat) (pa : BitVec 41) (dev : Fin 10) (c : Chip), c = s.chipAt t → c.live = true → c.chState (paChan pa.toNat) = chActive →
    ∃ s', Sys2Proof.Machine.exec (.dramReadEcc t pa (some dev)) s = .next s' ∧ s'.chip.on DMC_STATUS_CE = true
      ∧ s'.chip.rd (DMC_CE_COUNT_COUNT (paChan pa.toNat)) = min (2 ^ 32 - 1) (c.rd (DMC_CE_COUNT_COUNT (paChan pa.toNat)) + 1)
      ∧ s'.chip.rd (DMC_UE_COUNT_COUNT (paChan pa.toNat)) = c.rd (DMC_UE_COUNT_COUNT (paChan pa.toNat)))
  ∧ (∀ (s : State) (t : Nat) (n : Fin 8) (found : Option (Option (Fin 10))) (c : Chip), c = s.chipAt t → c.live = true → c.chState n.val = chActive →
    ∃ s', Sys2Proof.Machine.exec (.patrolScrub t n found) s = .next s'
      ∧ (s'.chip.dmcCh n.val).scrub = ((c.dmcCh n.val).scrub + 64) % max 64 (c.sGib * 2 ^ 30))
  ∧ ∀ (s : State) (t : Nat) (n : Fin 8) (inReplay : Bool) (c : Chip), c = s.chipAt t → c.live = true → c.chState n.val = chActive →
    ∃ s', Sys2Proof.Machine.exec (.parityAlert t n inReplay) s = .next s' ∧ s'.chip.on DMC_STATUS_ALERT = true
      ∧ s'.chip.rd (DMC_ALERT_COUNT_COUNT n.val) = min (2 ^ 32 - 1) (c.rd (DMC_ALERT_COUNT_COUNT n.val) + 1)
      ∧ (inReplay = true → 3 ≤ (c.dmcCh n.val).replays → (s'.chip.dmcCh n.val).failing ≠ 0)

/-- HUNT_TRIAL_END (R281) of a lane in HUNT: it stays there; a bonded lane tries 3G, another the next lower class, and after SD its MAX_CLASS.
RX_LOCK (R281, R296) of a lane in HUNT at a rate of the class on trial, with a carrier where its gate asks for one: LOCKED at that rate, LEVEL_B
as found at a 3G rate, the lock counted. RX_LOS (R282) of a LOCKED lane: HUNT, or OFF where it is disabled or its domain is not ACTIVE, the rate
code 0, and the loss counted with its sticky flags. CDR_MARGIN_CHECK (R284), by the running firmware: exactly the LOCKED lanes found low gain
CDR_MARGIN_LOW. SDI_LINE_CHECK (R285 to R287) of a LOCKED lane, a line in error or an SD field without its EDH packet: counted, with the sticky
flags, and EDH_ABSENT for the latter. ANCILLARY_CAPTURE (R288, R289) of a LOCKED lane: the payload ID with PID_VALID, or PID_VALID 0 and the ID
kept; the kind of time code, and the time code where there is one; the groups whose audio is not de-embedded among those the lane de-embeds. -/
def Obligations.SdiReceive : Prop :=
  ((∀ (s : State) (t : Nat) (lane : Fin 48) (c : Chip), c = s.chipAt t → c.live = true → c.rd (SDI_RX_STAT_STATE lane.val) = 1 →
    ∃ s', Sys2Proof.Machine.exec (.huntTrialEnd t lane) s = .next s' ∧ s'.chip.rd (SDI_RX_STAT_STATE lane.val) = 1
      ∧ (c.bondedRx lane.val = true → (s'.chip.sdiLane lane.val).trial = 3)
      ∧ (c.bondedRx lane.val = false → (s'.chip.sdiLane lane.val).trial
          = (if (c.sdiLane lane.val).trial ≤ 1 then c.rd (SDI_RX_CTL_MAX_CLASS lane.val) else (c.sdiLane lane.val).trial - 1)))
  ∧ (∀ (s : State) (t : Nat) (lane : Fin 48) (rate : Fin 10) (levelB : Bool) (c : Chip), c = s.chipAt t → c.live = true →
      c.rd (SDI_RX_STAT_STATE lane.val) = 1 → rateClass rate.val = (c.sdiLane lane.val).trial →
      (c.on (SDI_RX_CTL_CARRIER_GATE lane.val) = true → c.on (SDI_RX_STAT_CARRIER lane.val) = true) →
    ∃ s', Sys2Proof.Machine.exec (.rxLock t lane rate levelB) s = .next s' ∧ s'.chip.rd (SDI_RX_STAT_STATE lane.val) = 2
      ∧ s'.chip.rd (SDI_RX_STAT_RATE lane.val) = rate.val ∧ s'.chip.on (SDI_RX_STAT_LEVEL_B lane.val) = (levelB && rateClass rate.val == 3)
      ∧ s'.chip.rd (SDI_RX_LOCKS_LOCKS lane.val) = min (2 ^ (SDI_RX_LOCKS_LOCKS lane.val).w - 1) (c.rd (SDI_RX_LOCKS_LOCKS lane.val) + 1)
      ∧ s'.chip.on SDI_STATUS_LOCK = true)
  ∧ ∀ (s : State) (t : Nat) (lane : Fin 48) (c : Chip), c = s.chipAt t → c.live = true → c.rd (SDI_RX_STAT_STATE lane.val) = 2 →
    ∃ s', Sys2Proof.Machine.exec (.rxLos t lane) s = .next s'
      ∧ s'.chip.rd (SDI_RX_STAT_STATE lane.val) = (if c.rd (SDI_RX_CTL_MAX_CLASS lane.val) ≠ 0 ∧ c.domOn (domSdiRx lane.val) = true then 1 else 0)
      ∧ s'.chip.rd (SDI_RX_STAT_RATE lane.val) = 0 ∧ s'.chip.on (SDI_RX_STAT_LOS_SEEN lane.val) = true ∧ s'.chip.on SDI_STATUS_LOS = true
      ∧ s'.chip.rd (SDI_RX_LOCKS_LOS lane.val) = min (2 ^ (SDI_RX_LOCKS_LOS lane.val).w - 1) (c.rd (SDI_RX_LOCKS_LOS lane.val) + 1))
  ∧ ((∀ (s : State) (t : Nat) (low : BitVec 48) (c : Chip), c = s.chipAt t → c.ready = true →
    ∃ s', Sys2Proof.Machine.exec (.cdrMarginCheck t low) s = .next s'
      ∧ (∀ n : Fin 48, s'.chip.on (SDI_RX_STAT_CDR_MARGIN_LOW n.val) = (c.on (SDI_RX_STAT_CDR_MARGIN_LOW n.val)
          || (bit low.toNat n.val && c.rd (SDI_RX_STAT_STATE n.val) == 2))))
  ∧ (∀ (s : State) (t : Nat) (lane : Fin 48) (error noEdh : Bool) (c : Chip), c = s.chipAt t → c.live = true → c.rd (SDI_RX_STAT_STATE lane.val) = 2 →
      (error || (noEdh && c.rd (SDI_RX_STAT_RATE lane.val) == 1)) = true →
    ∃ s', Sys2Proof.Machine.exec (.sdiLineCheck t lane error noEdh) s = .next s' ∧ s'.chip.on (SDI_RX_STAT_CRC_SEEN lane.val) = true
      ∧ s'.chip.on SDI_STATUS_CRC = true
      ∧ s'.chip.rd (SDI_RX_CRC_COUNT lane.val) = min (2 ^ (SDI_RX_CRC_COUNT lane.val).w - 1) (c.rd (SDI_RX_CRC_COUNT lane.val) + 1)
      ∧ s'.chip.on (SDI_RX_STAT_EDH_ABSENT lane.val)
          = (c.on (SDI_RX_STAT_EDH_ABSENT lane.val) || (noEdh && c.rd (SDI_RX_STAT_RATE lane.val) == 1)))
  ∧ ∀ (s : State) (t : Nat) (lane : Fin 48) (pid : Option Word) (tcKind : Fin 3) (tc : Word) (badGroups : BitVec 8) (c : Chip), c = s.chipAt t →
      c.live = true → c.rd (SDI_RX_STAT_STATE lane.val) = 2 →
    ∃ s', Sys2Proof.Machine.exec (.ancillaryCapture t lane pid tcKind tc badGroups) s = .next s'
      ∧ s'.chip.on (SDI_RX_STAT_PID_VALID lane.val) = pid.isSome
      ∧ s'.chip.get (SDI_RX_PID lane.val) = (match pid with | some v => v.toNat | none => c.get (SDI_RX_PID lane.val))
      ∧ s'.chip.rd (SDI_RX_STAT_TC_KIND lane.val) = tcKind.val
      ∧ s'.chip.get (SDI_RX_TC lane.val) = (if tcKind.val = 0 then c.get (SDI_RX_TC lane.val) else tc.toNat)
      ∧ (s'.chip.sdiLane lane.val).unsup = (badGroups.toNat &&& c.audGroups lane.val))

/-- For the 48 fabric lanes and the two twin lanes. FAB_SIGNAL_LOST (R312, R336): SIGNAL clears, and a lane that trains or is TRAINED has NO_SIGNAL
and is not usable. FAB_SIGNAL_PRESENT (R312, R313, R336): SIGNAL is set but on an OFF lane, and a lane in NO_SIGNAL starts training, which is
counted. LANE_LOCK_LOST (R311, R313) of a TRAINED lane: training starts with an LNR and is counted, the loss flagged. LANE_RETRY (R318): a FAILED
lane starts training and the retry is counted; where a FAILED lane was put in DOZE or OFF the retry is deferred (R333). LANE_DOZE_WAKE (R332,
R333) of a lane in DOZE: it returns to NO_SIGNAL, FAILED or TEST, or to TRAINED with lock kept; else, or with a retry due, it starts training.
Training begins by verifying the accepted setting where there is one, else with a sweep (R313). -/
def Obligations.LaneStates : Prop :=
  (∀ (s : State) (t : Nat) (n : Fin 50) (c : Chip), c = s.chipAt t → c.live = true →
    ∃ s', Sys2Proof.Machine.exec (.fabSignalLost t n) s = .next s'
      ∧ s'.chip.rd (lnState n.val) = (if 3 ≤ c.rd (lnState n.val) ∧ c.rd (lnState n.val) ≤ 6 then lnNoSignal else c.rd (lnState n.val))
      ∧ s'.chip.on (lnSignal n.val) = false ∧ s'.chip.lnUsable n.val = false)
  ∧ (∀ (s : State) (t : Nat) (n : Fin 50) (c : Chip), c = s.chipAt t → c.live = true →
    ∃ s', Sys2Proof.Machine.exec (.fabSignalPresent t n) s = .next s' ∧ s'.chip.on (lnSignal n.val) = (c.rd (lnState n.val) != lnOff)
      ∧ s'.chip.rd (lnState n.val) = (if c.rd (lnState n.val) = lnNoSignal then (if c.on (lnAccepted n.val) then lnAcquire else lnSweep)
          else c.rd (lnState n.val))
      ∧ s'.chip.rd ((lnTrain n.val).fld 0 16) = (if c.rd (lnState n.val) = lnNoSignal then min (2 ^ 16 - 1) (c.rd ((lnTrain n.val).fld 0 16) + 1)
          else c.rd ((lnTrain n.val).fld 0 16)))
  ∧ (∀ (s : State) (t : Nat) (n : Fin 50) (c : Chip), c = s.chipAt t → c.live = true → c.rd (lnState n.val) = lnTrained →
    ∃ s', Sys2Proof.Machine.exec (.laneLockLost t n) s = .next s'
      ∧ s'.chip.rd (lnState n.val) = (if c.on (lnAccepted n.val) then lnAcquire else lnSweep)
      ∧ s'.chip.on ((lnStat n.val).fld 16 1) = true ∧ s'.chip.on (lnPolInv n.val) = false ∧ s'.chip.rd ((lnErr n.val).fld 0 32) = 0
      ∧ s'.chip.rd ((lnTrain n.val).fld 0 16) = min (2 ^ 16 - 1) (c.rd ((lnTrain n.val).fld 0 16) + 1))
  ∧ (∀ (s : State) (t : Nat) (n : Fin 50) (c : Chip), c = s.chipAt t → c.live = true → c.rd (lnState n.val) = lnFailed →
    ∃ s', Sys2Proof.Machine.exec (.laneRetry t n) s = .next s'
      ∧ s'.chip.rd (lnState n.val) = (if c.on (lnAccepted n.val) then lnAcquire else lnSweep)
      ∧ s'.chip.rd ((lnTrain n.val).fld 16 8) = min (2 ^ 8 - 1) (c.rd ((lnTrain n.val).fld 16 8) + 1))
  ∧ (∀ (s : State) (t : Nat) (n : Fin 50) (c : Chip), c = s.chipAt t → c.live = true →
      (c.rd (lnState n.val) = lnDoze ∨ c.rd (lnState n.val) = lnOff) → (c.lane n.val).before = lnFailed →
    ∃ s', Sys2Proof.Machine.exec (.laneRetry t n) s = .next s' ∧ (s'.chip.lane n.val).retryDue = true
      ∧ s'.chip.rd (lnState n.val) = c.rd (lnState n.val))
  ∧ ∀ (s : State) (t : Nat) (n : Fin 50) (lostLock : Bool) (c : Chip), c = s.chipAt t → c.live = true → c.rd (lnState n.val) = lnDoze →
    ∃ s', Sys2Proof.Machine.exec (.laneDozeWake t n lostLock) s = .next s'
      ∧ s'.chip.rd (lnState n.val)
          = (if (c.lane n.val).retryDue = false ∧ ((c.lane n.val).before = lnNoSignal ∨ (c.lane n.val).before = lnFailed
                ∨ (c.lane n.val).before = lnTest ∨ ((c.lane n.val).before = lnTrained ∧ lostLock = false))
            then (c.lane n.val).before else if c.on (lnAccepted n.val) then lnAcquire else lnSweep)

/-- VERIFY_DONE (R305, R309, R314) of a lane in ACQUIRE or VERIFY: with clock and blocks found SIGNAL is set and the polarity is as found, where it
was not known; a lane whose every step passed with an eye at least twice the margin high is TRAINED with that eye and no retries; else it sweeps,
flagged. SWEEP_DONE (R305, R309, R315 to R317) of a lane that sweeps: the first candidate of the order of R315 whose test was clean is accepted
and the lane is TRAINED, its polarity as found where it was not known; with none it is FAILED, flagged and counted. PERCOLATOR_VISIT (R319, R320,
R322) of a TRAINED lane with PERC_EN, by the running firmware: the eye is written and PEAK stays; a lane whose Percolator is not stopped has a
step due to a neighbour at least 4 higher without a CRC error exactly where there is one; an eye below twice the margin is flagged.
PERCOLATOR_STEP (R320) due on such a lane: PEAK takes the step, which is counted and no longer due. PERC_POST_ERR (R321) within 2^20 blocks after
a step: the lane's Percolator stops, flagged, and no step is due. CHECKER_LOCK (R329) of a lane whose checker has a pattern: CHK_SYNC follows,
and bit errors are counted while it was locked. -/
def Obligations.LaneTraining : Prop :=
  ((∀ (s : State) (t : Nat) (n : Fin 50) (cdr block crc polInv : Bool) (height : BitVec 8) (c : Chip), c = s.chipAt t → c.live = true →
      (c.rd (lnState n.val) = lnAcquire ∨ c.rd (lnState n.val) = lnVerify) →
    ∃ s', Sys2Proof.Machine.exec (.verifyDone t n cdr block crc polInv height) s = .next s'
      ∧ (cdr = true → block = true → s'.chip.on (lnSignal n.val) = true
          ∧ s'.chip.on (lnPolInv n.val) = (if (c.lane n.val).polKnown then c.on (lnPolInv n.val) else polInv))
      ∧ ((cdr && block && crc) = true → 2 * c.rd ((lnCfg n.val).fld 11 6) ≤ height.toNat → s'.chip.rd (lnState n.val) = lnTrained
          ∧ s'.chip.rd ((lnEye n.val).fld 0 8) = height.toNat ∧ s'.chip.rd ((lnTrain n.val).fld 16 8) = 0)
      ∧ (((cdr && block && crc) = false ∨ height.toNat < 2 * c.rd ((lnCfg n.val).fld 11 6)) → s'.chip.rd (lnState n.val) = lnSweep
          ∧ s'.chip.on ((lnStat n.val).fld 18 1) = true))
  ∧ ∀ (s : State) (t : Nat) (n : Fin 50) (heights : List (BitVec 8)) (clean : List Bool) (polInv : Bool) (c : Chip), c = s.chipAt t →
      c.live = true → c.rd (lnState n.val) = lnSweep →
    ∃ s', Sys2Proof.Machine.exec (.sweepDone t n heights clean polInv) s = .next s'
      ∧ (∀ i : Fin 64, ((candidates (heights.map BitVec.toNat) (2 * c.rd ((lnCfg n.val).fld 11 6))).find? fun j => clean.getD j false) = some i.val →
          s'.chip.rd (lnState n.val) = lnTrained ∧ s'.chip.rd (lnPeak n.val) = i.val % 16 ∧ s'.chip.rd (lnGain n.val) = i.val / 16
            ∧ s'.chip.on (lnAccepted n.val) = true
            ∧ s'.chip.on (lnPolInv n.val) = (if (c.lane n.val).polKnown then c.on (lnPolInv n.val) else polInv))
      ∧ (((candidates (heights.map BitVec.toNat) (2 * c.rd ((lnCfg n.val).fld 11 6))).find? fun j => clean.getD j false) = none →
          s'.chip.rd (lnState n.val) = lnFailed ∧ s'.chip.on ((lnStat n.val).fld 17 1) = true
            ∧ s'.chip.rd ((lnTrain n.val).fld 24 8) = min (2 ^ 8 - 1) (c.rd ((lnTrain n.val).fld 24 8) + 1)))
  ∧ ((∀ (s : State) (t : Nat) (n : Fin 50) (height width below above : BitVec 8) (belowCrc aboveCrc : Bool) (c : Chip), c = s.chipAt t →
      c.ready = true → c.rd (lnState n.val) = lnTrained → c.on ((lnCfg n.val).fld 22 1) = true →
    ∃ s', Sys2Proof.Machine.exec (.percolatorVisit t n height width below above belowCrc aboveCrc) s = .next s'
      ∧ s'.chip.rd ((lnEye n.val).fld 0 8) = height.toNat ∧ s'.chip.rd ((lnEye n.val).fld 8 8) = width.toNat
      ∧ s'.chip.rd (lnPeak n.val) = c.rd (lnPeak n.val)
      ∧ (∀ pk : Fin 16, (s'.chip.lane n.val).step = some pk.val → (c.lane n.val).stopped = false →
          (pk.val + 1 = c.rd (lnPeak n.val) ∧ height.toNat + 4 ≤ below.toNat ∧ belowCrc = false)
          ∨ (pk.val = c.rd (lnPeak n.val) + 1 ∧ height.toNat + 4 ≤ above.toNat ∧ aboveCrc = false))
      ∧ ((c.lane n.val).stopped = false → (0 < c.rd (lnPeak n.val) ∧ height.toNat + 4 ≤ below.toNat ∧ belowCrc = false)
            ∨ (c.rd (lnPeak n.val) < 15 ∧ height.toNat + 4 ≤ above.toNat ∧ aboveCrc = false) →
          (s'.chip.lane n.val).step.isSome = true)
      ∧ (height.toNat < 2 * c.rd ((lnCfg n.val).fld 11 6) → s'.chip.on ((lnStat n.val).fld 19 1) = true))
  ∧ (∀ (s : State) (t : Nat) (n : Fin 50) (pk : Nat) (c : Chip), c = s.chipAt t → c.live = true → c.rd (lnState n.val) = lnTrained →
      c.on ((lnCfg n.val).fld 22 1) = true → c.ready = true → (c.lane n.val).step = some pk → pk < 16 →
    ∃ s', Sys2Proof.Machine.exec (.percolatorStep t n) s = .next s' ∧ s'.chip.rd (lnPeak n.val) = pk
      ∧ s'.chip.rd ((lnEq n.val).fld 16 8) = min (2 ^ 8 - 1) (c.rd ((lnEq n.val).fld 16 8) + 1)
      ∧ (s'.chip.lane n.val).step = none ∧ (s'.chip.lane n.val).stepAt = some c.now)
  ∧ (∀ (s : State) (t : Nat) (n : Fin 50) (at_ : Nat) (c : Chip), c = s.chipAt t → c.live = true → (c.lane n.val).stepAt = some at_ →
      c.now ≤ at_ + postWindow →
    ∃ s', Sys2Proof.Machine.exec (.percPostErr t n) s = .next s' ∧ (s'.chip.lane n.val).stopped = true
      ∧ s'.chip.on ((lnStat n.val).fld 20 1) = true ∧ (s'.chip.lane n.val).step = none)
  ∧ ∀ (s : State) (t : Nat) (n : Fin 48) (locked : Bool) (errs units : Nat) (c : Chip), c = s.chipAt t → c.live = true →
      c.rd (FAB_LN_TEST_CHK_PATTERN n.val) ≠ 0 →
    ∃ s', Sys2Proof.Machine.exec (.checkerLock t n locked errs units) s = .next s' ∧ s'.chip.on (FAB_LN_TEST_CHK_SYNC n.val) = locked
      ∧ s'.chip.rd (FAB_LN_BERR_COUNT n.val) = (if c.on (FAB_LN_TEST_CHK_SYNC n.val)
          then min (2 ^ (FAB_LN_BERR_COUNT n.val).w - 1) (c.rd (FAB_LN_BERR_COUNT n.val) + errs) else c.rd (FAB_LN_BERR_COUNT n.val)))

/-- Blocks on a TRAINED lane. One whose CRC fails, data, status, or alignment marker without a step in progress, is counted and discarded: no link
changes, and of its lane only the decoder goes on (R304, R320, R337). A good data block goes to its slot where the receive direction is up with
its lane in use and the slot carried, its SSEQ kept (R338, R344), and changes no link where one of the three fails. A status block gives the
partner's usable lanes (R342). An alignment marker names the partner; one that passes the identity checks makes the lane's marker seen with its
count, one that fails holds the link in MISWIRE with the cause (R345, R346). A reform marker that passes, the link not in MISWIRE, announces its
lanes and slots, names the partner and gives its usable lanes (R350, R351). On a twin lane a good marker counts as heard, and is bad where it is
not one of the other unit's same lane (R552, R553). The line code of a lane (R303 to R305). Symbol values come back from their levels, from the
same level before the first. Levels of a reversed pair, each k as 3 − k, give each value g as (2 − g) mod 4. A lane that knows its polarity, past
its first symbol, recovers the 320 symbol values of a block from the levels that its partner sends for it, when both have the same level before
it. -/
def Obligations.LaneBlocks : Prop :=
  ((∀ (s : State) (t : Nat) (n : Fin 50) (b : BitVec 640) (c : Chip), c = s.chipAt t → c.live = true → c.rd (lnState n.val) = lnTrained →
      blockOk b.toNat = false →
    ∃ s', Sys2Proof.Machine.exec (.dataBlock t n b) s = .next s'
      ∧ s'.chip.rd ((lnErr n.val).fld 0 32) = min (2 ^ 32 - 1) (c.rd ((lnErr n.val).fld 0 32) + 1)
      ∧ s'.chip.links = c.links
      ∧ s'.chip.lane n.val = { c.lane n.val with rxLevel := levelAfter (c.lane n.val).rxLevel b.toNat, rxFresh := false })
  ∧ (∀ (s : State) (t : Nat) (n : Fin 50) (b : BitVec 640) (c : Chip), c = s.chipAt t → c.live = true → c.rd (lnState n.val) = lnTrained →
      blockOk b.toNat = false →
    ∃ s', Sys2Proof.Machine.exec (.statusBlock t n b) s = .next s'
      ∧ s'.chip.rd ((lnErr n.val).fld 0 32) = min (2 ^ 32 - 1) (c.rd ((lnErr n.val).fld 0 32) + 1)
      ∧ s'.chip.links = c.links
      ∧ s'.chip.lane n.val = { c.lane n.val with rxLevel := levelAfter (c.lane n.val).rxLevel b.toNat, rxFresh := false })
  ∧ (∀ (s : State) (t : Nat) (n : Fin 50) (b : BitVec 640) (c : Chip), c = s.chipAt t → c.live = true → c.rd (lnState n.val) = lnTrained →
      blockOk b.toNat = false → c.lnStepping n.val = false →
    ∃ s', Sys2Proof.Machine.exec (.alignmentMarker t n b) s = .next s'
      ∧ s'.chip.rd ((lnErr n.val).fld 0 32) = min (2 ^ 32 - 1) (c.rd ((lnErr n.val).fld 0 32) + 1)
      ∧ s'.chip.links = c.links
      ∧ s'.chip.lane n.val = { c.lane n.val with rxLevel := levelAfter (c.lane n.val).rxLevel b.toNat, rxFresh := false })
  ∧ (∀ (s : State) (t : Nat) (n : Fin 48) (l : Nat) (b : BitVec 640) (c : Chip), c = s.chipAt t → c.live = true →
      c.rd (lnState n.val) = lnTrained → blockOk b.toNat = true → c.linkOf n.val = some l → blockType b.toNat = 0 →
    ∃ s', Sys2Proof.Machine.exec (.dataBlock t (n.castLE (by decide)) b) s = .next s' ∧ s'.chip.regs = c.regs
      ∧ (if (c.link l).rx = .up ∧ bit (c.link l).rxUse (c.lane n.val).llane = true ∧ bit (c.link l).rxMask (bits b.toNat 634 4) = true
          then tget 16 (s'.chip.link l).sseq (bits b.toNat 634 4) = bits b.toNat 624 4 else s'.chip.links = c.links))
  ∧ (∀ (s : State) (t : Nat) (n : Fin 48) (l : Nat) (b : BitVec 640) (c : Chip), c = s.chipAt t → c.live = true →
      c.rd (lnState n.val) = lnTrained → blockOk b.toNat = true → c.linkOf n.val = some l → blockType b.toNat = 1 →
    ∃ s', Sys2Proof.Machine.exec (.statusBlock t (n.castLE (by decide)) b) s = .next s'
      ∧ s'.chip.rd (FAB_LK_STAT_PEER_RX_UP l) = payloadBits b.toNat 604 4 % 2 ^ c.linkWidth l)
  ∧ (∀ (s : State) (t : Nat) (n : Fin 48) (l : Nat) (b : BitVec 640) (c : Chip), c = s.chipAt t → c.live = true →
      c.rd (lnState n.val) = lnTrained → blockOk b.toNat = true → c.linkOf n.val = some l → blockType b.toNat = 2 →
    ∃ s', Sys2Proof.Machine.exec (.alignmentMarker t (n.castLE (by decide)) b) s = .next s'
      ∧ s'.chip.rd (FAB_LK_PEER_PEER_ID l) = mkDevice b.toNat ∧ s'.chip.rd (FAB_LK_PEER_PEER_LINK l) = mkLink b.toNat
      ∧ (c.markerCause l n.val b.toNat = 0 → (s'.chip.lane n.val).seen = true ∧ (s'.chip.lane n.val).count = mkCount b.toNat)
      ∧ (c.markerCause l n.val b.toNat ≠ 0 → s'.chip.rd (FAB_LK_STAT_STATE l) = 5
          ∧ s'.chip.rd (FAB_LK_STAT_MISWIRE_CAUSE l) = c.markerCause l n.val b.toNat))
  ∧ (∀ (s : State) (t : Nat) (n : Fin 48) (l : Nat) (b : BitVec 640) (c : Chip), c = s.chipAt t → c.live = true →
      c.rd (lnState n.val) = lnTrained → blockOk b.toNat = true → c.linkOf n.val = some l → blockType b.toNat = 3 →
      c.markerCause l n.val b.toNat = 0 → c.rd (FAB_LK_STAT_STATE l) ≠ 5 →
    ∃ s', Sys2Proof.Machine.exec (.reformMarker t (n.castLE (by decide)) b) s = .next s'
      ∧ (s'.chip.lane n.val).set_ = some (mkInUse b.toNat, mkSlots b.toNat, true)
      ∧ s'.chip.rd (FAB_LK_PEER_PEER_ID l) = mkDevice b.toNat
      ∧ s'.chip.rd (FAB_LK_STAT_PEER_RX_UP l) = mkRxUp b.toNat % 2 ^ c.linkWidth l)
  ∧ ∀ (s : State) (t : Nat) (n : Fin 50) (b : BitVec 640) (c : Chip), c = s.chipAt t → c.live = true → 48 ≤ n.val →
      c.rd (lnState n.val) = lnTrained → blockOk b.toNat = true → blockType b.toNat = 2 →
    ∃ s', Sys2Proof.Machine.exec (.alignmentMarker t n b) s = .next s' ∧ s'.chip.twn.blockAt = c.now
      ∧ (s'.chip.lane n.val).bad = (mkRole b.toNat != 0 || mkUnit b.toNat == c.twnUnit || mkLink b.toNat != n.val - 48
          || mkLlane b.toNat != 0 || mkCfgWidth b.toNat != 1))
  ∧ ((∀ (last : Nat) (gs : List Nat), last < 4 → gs.all (· < 4) = true → decodeAll last (precodeAll last gs) = gs)
  ∧ (∀ (last : Nat) (ps : List Nat), last < 4 → ps.all (· < 4) = true →
      decodeAll (3 - last) (ps.map (3 - ·)) = (decodeAll last ps).map reversed)
  ∧ ∀ (c d : Chip) (n m : Fin 48) (b : Nat), (d.lane m.val).rxLevel = (c.lane n.val).txLevel → (c.lane n.val).txLevel < 4 →
      (d.lane m.val).rxFresh = false → d.on (lnPolInv m.val) = false →
      d.received m.val (precodeAll (c.lane n.val).txLevel (symbols b)) = symbols b)

/-- LINK_FORM_TIMEOUT (R348, R349): 2 ms after the first usable lane was reported, a configured link not in MISWIRE whose transmitter is not up has
it up on reported lanes. LANE_UNUSABLE (R350, R353): a lane in use that is not usable sets the receive direction of a link with other usable
lanes reforming; a link that was up and has no usable lane goes down in both directions, flagged and counted. LINK_WIDEN (R349, R352): a
transmitter that is up takes in the lanes eligible beyond those in use, to a width of 1, 2 or 4. SLOT_MASK_COPY (R354, R355): the one slot
setting due on a plane that runs takes. MERGE_LINE (R357, R358) in leaf role: a copy is good where its words are whole and its link shows it
whole; one good copy counts the other's miss, two count a difference, and none is an invalid line of the slot's source. -/
def Obligations.LinkEvents : Prop :=
  (∀ (s : State) (t : Nat) (l : Fin 48) (at_ : Nat) (c : Chip), c = s.chipAt t → c.live = true → (c.link l.val).first = some at_ →
      at_ + ms 2 ≤ c.now → c.linkWidth l.val ≠ 0 → (c.link l.val).tx ≠ .up → c.rd (FAB_LK_STAT_PEER_RX_UP l.val) ≠ 0 →
      c.rd (FAB_LK_STAT_STATE l.val) ≠ 5 →
    ∃ s', Sys2Proof.Machine.exec (.linkFormTimeout t l) s = .next s' ∧ (s'.chip.link l.val).tx = .up
      ∧ (s'.chip.link l.val).txUse &&& c.rd (FAB_LK_STAT_PEER_RX_UP l.val) = (s'.chip.link l.val).txUse
      ∧ (s'.chip.link l.val).txUse ≠ 0)
  ∧ (∀ (s : State) (t : Nat) (n : Fin 48) (l : Nat) (c : Chip), c = s.chipAt t → c.live = true → c.linkOf n.val = some l →
      c.rxUp l ≠ 0 → c.lnUsable n.val = false → (c.link l).rx = .up → bit (c.link l).rxUse (c.lane n.val).llane = true → c.rd (FAB_LK_STAT_STATE l) ≠ 5 →
    ∃ s', Sys2Proof.Machine.exec (.laneUnusable t n) s = .next s' ∧ (s'.chip.link l).rx = .reforming ∧ s'.chip.rd (FAB_LK_STAT_STATE l) = 4
      ∧ (s'.chip.link l).tx = (c.link l).tx)
  ∧ (∀ (s : State) (t : Nat) (n : Fin 48) (l : Nat) (c : Chip), c = s.chipAt t → c.live = true → c.linkOf n.val = some l →
      c.rxUp l = 0 → c.lnUsable n.val = false → (c.link l).rx = .up → (c.link l).wasUp = true → c.rd (FAB_LK_STAT_STATE l) ≠ 5 →
    ∃ s', Sys2Proof.Machine.exec (.laneUnusable t n) s = .next s' ∧ (s'.chip.link l).rx = .down ∧ (s'.chip.link l).tx = .down
      ∧ s'.chip.on (FAB_LK_STAT_DOWN_SEEN l) = true ∧ s'.chip.on FAB_STATUS_LINK_DOWN = true
      ∧ s'.chip.rd (FAB_LK_CNT_DOWNS l) = min (2 ^ (FAB_LK_CNT_DOWNS l).w - 1) (c.rd (FAB_LK_CNT_DOWNS l) + 1))
  ∧ (∀ (s : State) (t : Nat) (l : Fin 48) (e n : Nat) (c : Chip), c = s.chipAt t → c.live = true → (c.link l.val).tx = .up →
      e = c.eligible l.val (c.rd (FAB_LK_STAT_PEER_RX_UP l.val)) → n = min (bitCount e) (c.linkWidth l.val) →
      e ≠ (c.link l.val).txUse → e &&& (c.link l.val).txUse = (c.link l.val).txUse →
    ∃ s', Sys2Proof.Machine.exec (.linkWiden t l) s = .next s' ∧ (s'.chip.link l.val).tx = .up
      ∧ (s'.chip.link l.val).txUse = lowest e (if 4 ≤ n then 4 else if 2 ≤ n then 2 else n))
  ∧ (∀ (s : State) (t : Nat) (q : Fin 2) (i : Fin 192) (p : Pend) (w : Nat) (c : Chip), c = s.chipAt t → c.live = true →
      2 ≤ c.planeState q.val → p.change = ⟨.fabSlot, i.val, [w]⟩ →
      (c.fw.queue.filter fun y => y.plane == q.val && c.reached q.val y.epoch && y.change.kind == .fabSlot) = [p] →
    ∃ s', Sys2Proof.Machine.exec (.slotMaskCopy t q) s = .next s' ∧ (s'.chip.fw.queue.contains p) = false
      ∧ s'.chip.on (FAB_SLOT_CTL_TX_EN i.val) = bit w 8 ∧ s'.chip.on (FAB_SLOT_CTL_RX_EN i.val) = bit w 9
      ∧ s'.chip.rd (FAB_SLOT_CTL_RATE_CLASS i.val) = bits w 10 3 ∧ s'.chip.rd (FAB_SLOT_CTL_PRIO i.val) = bits w 13 4)
  ∧ ∀ (s : State) (t : Nat) (m : Fin 96) (aWhole bWhole differ run : Bool) (c : Chip), c = s.chipAt t → c.live = true → c.role = 1 →
      let aOk := aWhole && c.copyWhole m.val; let bOk := bWhole && c.copyWhole (m.val + 96);
    ∃ s', Sys2Proof.Machine.exec (.mergeLine t m aWhole bWhole differ run) s = .next s'
      ∧ s'.chip.rd (FAB_MRG_CNT_A_MISS m.val) = (if aOk = false ∧ bOk = true
          then min (2 ^ (FAB_MRG_CNT_A_MISS m.val).w - 1) (c.rd (FAB_MRG_CNT_A_MISS m.val) + 1) else c.rd (FAB_MRG_CNT_A_MISS m.val))
      ∧ s'.chip.rd (FAB_MRG_CNT_B_MISS m.val) = (if aOk = true ∧ bOk = false
          then min (2 ^ (FAB_MRG_CNT_B_MISS m.val).w - 1) (c.rd (FAB_MRG_CNT_B_MISS m.val) + 1) else c.rd (FAB_MRG_CNT_B_MISS m.val))
      ∧ s'.chip.rd (FAB_MRG_DIFF_COUNT m.val) = (if aOk = true ∧ bOk = true ∧ differ = true
          then min (2 ^ (FAB_MRG_DIFF_COUNT m.val).w - 1) (c.rd (FAB_MRG_DIFF_COUNT m.val) + 1) else c.rd (FAB_MRG_DIFF_COUNT m.val))
      ∧ (aOk = false → bOk = false → s'.chip.on (FSY_SRC_STAT_BADLINE_SEEN (48 + m.val)) = true)

/-- The link states of a port (R369 to R371). NET_SIGNAL_DETECTED in NO_SIGNAL: AN, or TRAINING without AN_EN. NET_SIGNAL_LOST in AN, TRAINING,
ALIGNING or REMOTE_FAULT: NO_SIGNAL with the lanes locked and no remote fault. AUTO_NEGOTIATION_DONE in AN: TRAINING. LINK_TRAINING_DONE in
TRAINING: ALIGNING with the polarities found and every lane locked. TRAINING_TIMEOUT in AN, TRAINING or ALIGNING: the attempt begins again.
NET_LINK_UP in ALIGNING or REMOTE_FAULT: UP with its flag, or REMOTE_FAULT while the partner signals it. NET_LINK_DOWN in UP: NO_SIGNAL, ALIGNING
or REMOTE_FAULT by its cause, flagged, counted, with the lanes locked. GCL_ENTRY_BOUNDARY (R380): the gates of the port are those its running
list opens now. GCL_TAKEN (R385) with a pending list whose start has come: it is the running list, with its cycle, enabled as asked, from that
start on, flagged, and none is pending. IGMP_MEMBERSHIP_REPORT (R397), by the running firmware: the report names the group and source of every
leg on the port of a joined flow. -/
def Obligations.NetLinkStates : Prop :=
  ((∀ (s : State) (t : Nat) (p : Fin 2) (c : Chip), c = s.chipAt t → c.live = true → c.rd (NET_PORT_STAT_STATE p.val) = npNoSignal →
    ∃ s', Sys2Proof.Machine.exec (.netSignalDetected t p) s = .next s'
      ∧ s'.chip.rd (NET_PORT_STAT_STATE p.val) = (if c.on (NET_PORT_CFG_AN_EN p.val) then npAn else npTraining))
  ∧ (∀ (s : State) (t : Nat) (p : Fin 2) (lock : BitVec 4) (c : Chip), c = s.chipAt t → c.live = true →
      [npAn, npTraining, npAligning, npRemote].contains (c.rd (NET_PORT_STAT_STATE p.val)) = true →
    ∃ s', Sys2Proof.Machine.exec (.netSignalLost t p lock) s = .next s' ∧ s'.chip.rd (NET_PORT_STAT_STATE p.val) = npNoSignal
      ∧ s'.chip.rd (NET_PORT_STAT_LANE_LOCK p.val) = lock.toNat ∧ s'.chip.on (NET_PORT_STAT_REMOTE_FAULT p.val) = false)
  ∧ (∀ (s : State) (t : Nat) (p : Fin 2) (c : Chip), c = s.chipAt t → c.live = true → c.rd (NET_PORT_STAT_STATE p.val) = npAn →
    ∃ s', Sys2Proof.Machine.exec (.autoNegotiationDone t p) s = .next s' ∧ s'.chip.rd (NET_PORT_STAT_STATE p.val) = npTraining)
  ∧ (∀ (s : State) (t : Nat) (p : Fin 2) (pol : BitVec 4) (c : Chip), c = s.chipAt t → c.live = true →
      c.rd (NET_PORT_STAT_STATE p.val) = npTraining →
    ∃ s', Sys2Proof.Machine.exec (.linkTrainingDone t p pol) s = .next s' ∧ s'.chip.rd (NET_PORT_STAT_STATE p.val) = npAligning
      ∧ s'.chip.rd (NET_PORT_STAT_RX_POL p.val) = pol.toNat ∧ s'.chip.rd (NET_PORT_STAT_LANE_LOCK p.val) = 15)
  ∧ (∀ (s : State) (t : Nat) (p : Fin 2) (c : Chip), c = s.chipAt t → c.live = true →
      [npAn, npTraining, npAligning].contains (c.rd (NET_PORT_STAT_STATE p.val)) = true →
    ∃ s', Sys2Proof.Machine.exec (.trainingTimeout t p) s = .next s'
      ∧ s'.chip.rd (NET_PORT_STAT_STATE p.val) = (if c.on (NET_PORT_CFG_AN_EN p.val) then npAn else npTraining))
  ∧ (∀ (s : State) (t : Nat) (p : Fin 2) (remote : Bool) (c : Chip), c = s.chipAt t → c.live = true →
      (c.rd (NET_PORT_STAT_STATE p.val) = npAligning ∨ c.rd (NET_PORT_STAT_STATE p.val) = npRemote) →
    ∃ s', Sys2Proof.Machine.exec (.netLinkUp t p remote) s = .next s'
      ∧ s'.chip.rd (NET_PORT_STAT_STATE p.val) = (if remote then npRemote else npUp) ∧ s'.chip.on (NET_PORT_STAT_REMOTE_FAULT p.val) = remote
      ∧ (remote = false → s'.chip.on (NET_PORT_STATUS_LINK_UP_SEEN p.val) = true))
  ∧ ∀ (s : State) (t : Nat) (p : Fin 2) (cause : Fin 3) (lock : BitVec 4) (c : Chip), c = s.chipAt t → c.live = true →
      c.rd (NET_PORT_STAT_STATE p.val) = npUp →
    ∃ s', Sys2Proof.Machine.exec (.netLinkDown t p cause lock) s = .next s'
      ∧ s'.chip.rd (NET_PORT_STAT_STATE p.val) = [npNoSignal, npAligning, npRemote].getD cause.val 0
      ∧ s'.chip.on (NET_PORT_STATUS_LINK_DOWN_SEEN p.val) = true ∧ s'.chip.rd (NET_PORT_STAT_LANE_LOCK p.val) = lock.toNat
      ∧ s'.chip.get (NET_CNT p.val 18) = (c.get (NET_CNT p.val 18) + 1) % 2 ^ 32)
  ∧ ((∀ (s : State) (t : Nat) (p : Fin 2) (c : Chip), c = s.chipAt t → c.live = true →
    ∃ s', Sys2Proof.Machine.exec (.gclEntryBoundary t p) s = .next s' ∧ (s'.chip.net p.val).gates = c.gclGates p.val)
  ∧ (∀ (s : State) (t : Nat) (p : Fin 2) (c : Chip), c = s.chipAt t → c.live = true → c.on (NET_GCL_CTL_PENDING p.val) = true →
      (c.net p.val).startAt ≤ c.clock.n → c.rd (NET_GCL_CTL_SHADOW_ENTRIES p.val) ≤ 256 →
    ∃ s', Sys2Proof.Machine.exec (.gclTaken t p) s = .next s' ∧ s'.chip.on (NET_GCL_CTL_PENDING p.val) = false
      ∧ s'.chip.on (NET_GCL_CTL_ENABLE p.val) = c.on (NET_GCL_CTL_SHADOW_ENABLE p.val) ∧ s'.chip.gcl p.val = c.gclShadow p.val
      ∧ s'.chip.get (NET_GCL_CYCLE p.val) = c.get (NET_GCL_SHADOW_CYCLE p.val) ∧ (s'.chip.net p.val).cycleAt = (c.net p.val).startAt
      ∧ s'.chip.on (NET_PORT_STATUS_GCL_TAKEN p.val) = true)
  ∧ ∀ (s : State) (t : Nat) (p : Fin 2) (c : Chip), c = s.chipAt t → c.ready = true →
    ∃ s', Sys2Proof.Machine.exec (.igmpMembershipReport t p) s = .next s'
      ∧ (s'.chip.net p.val).igmp = c.joined.flatMap fun f => ((c.legsOf f).filter fun l => l.2 == p.val).map fun l => (c.legAddr f l.1, c.legSrc f l.1))

/-- FRAME_RECEIVED (R372 to R377, R386) on a port that is UP, or of a frame with a code error: a frame that fails a check is counted in the counter
of the first check it fails and not delivered; one that fails none is delivered and its octets counted, or on a full queue counted as dropped
there with the queue's flag; codewords are counted with the former. FRAME_TRANSMIT (R371, R378 to R382) on a port that is UP: every head frame
too long or fitting no interval is counted; of those that may start the one of the highest class is sent, its octets counted in 128-byte units,
or is counted as discarded where the link left UP within it. On a port that is not UP every head frame is counted as discarded. -/
def Obligations.NetFrames : Prop :=
  (∀ (s : State) (t : Nat) (p : Fin 2) (f : NetFrame) (k : Nat) (c : Chip), c = s.chipAt t → c.live = true →
      (c.rd (NET_PORT_STAT_STATE p.val) = npUp ∨ f.code = true) → c.rxCheck p.val f = some k →
    ∃ s', Sys2Proof.Machine.exec (.frameReceived t p f) s = .next s' ∧ s'.chip.get (NET_CNT p.val k) = (c.get (NET_CNT p.val k) + 1) % 2 ^ 32
      ∧ s'.chip.get (NET_CNT p.val 0) = c.get (NET_CNT p.val 0)
      ∧ s'.chip.get (NET_CNT p.val 16) = (c.get (NET_CNT p.val 16) + f.corrected) % 2 ^ 32
      ∧ s'.chip.get (NET_CNT p.val 17) = (c.get (NET_CNT p.val 17) + f.uncorrectable) % 2 ^ 32)
  ∧ (∀ (s : State) (t : Nat) (p : Fin 2) (f : NetFrame) (q : Fin 3) (c : Chip), c = s.chipAt t → c.live = true →
      c.rd (NET_PORT_STAT_STATE p.val) = npUp → c.rxCheck p.val f = none → c.rxQueue p.val f = (q.val, true) →
    ∃ s', Sys2Proof.Machine.exec (.frameReceived t p f) s = .next s' ∧ s'.chip.get (NET_CNT p.val 0) = (c.get (NET_CNT p.val 0) + 1) % 2 ^ 32
      ∧ s'.chip.get (NET_CNT p.val 1) = (c.get (NET_CNT p.val 1) + ((c.net p.val).rxRem + f.len) / 128) % 2 ^ 32
      ∧ s'.chip.get (NET_CNT p.val (8 + q.val)) = c.get (NET_CNT p.val (8 + q.val)))
  ∧ (∀ (s : State) (t : Nat) (p : Fin 2) (f : NetFrame) (q : Fin 3) (c : Chip), c = s.chipAt t → c.live = true →
      c.rd (NET_PORT_STAT_STATE p.val) = npUp → c.rxCheck p.val f = none → c.rxQueue p.val f = (q.val, false) →
    ∃ s', Sys2Proof.Machine.exec (.frameReceived t p f) s = .next s' ∧ s'.chip.get (NET_CNT p.val 0) = c.get (NET_CNT p.val 0)
      ∧ s'.chip.get (NET_CNT p.val (8 + q.val)) = (c.get (NET_CNT p.val (8 + q.val)) + 1) % 2 ^ 32
      ∧ s'.chip.on ((NET_PORT_STATUS p.val).fld (2 + q.val) 1) = true)
  ∧ (∀ (s : State) (t : Nat) (p : Fin 2) (cls : Fin 8) (len : Nat) (c : Chip), c = s.chipAt t → c.live = true →
      c.rd (NET_PORT_STAT_STATE p.val) = npUp → len ≤ c.maxLen p.val → c.noFit p.val cls.val len = false → c.mayStart p.val cls.val len = true →
    ∃ s', Sys2Proof.Machine.exec (.frameTransmit t p [(cls, len)] false) s = .next s'
      ∧ s'.chip.get (NET_CNT p.val 11) = (c.get (NET_CNT p.val 11) + 1) % 2 ^ 32
      ∧ s'.chip.get (NET_CNT p.val 12) = (c.get (NET_CNT p.val 12) + ((c.net p.val).txRem + max 64 len) / 128) % 2 ^ 32)
  ∧ (∀ (s : State) (t : Nat) (p : Fin 2) (cls : Fin 8) (len : Nat) (cut : Bool) (c : Chip), c = s.chipAt t → c.live = true →
      c.rd (NET_PORT_STAT_STATE p.val) = npUp → c.maxLen p.val < len →
    ∃ s', Sys2Proof.Machine.exec (.frameTransmit t p [(cls, len)] cut) s = .next s'
      ∧ s'.chip.get (NET_CNT p.val 15) = (c.get (NET_CNT p.val 15) + 1) % 2 ^ 32 ∧ s'.chip.get (NET_CNT p.val 11) = c.get (NET_CNT p.val 11))
  ∧ (∀ (s : State) (t : Nat) (p : Fin 2) (heads : List (Fin 8 × Nat)) (cut : Bool) (c : Chip), c = s.chipAt t → c.live = true →
      c.rd (NET_PORT_STAT_STATE p.val) = npUp →
      let ok := (heads.map fun h => (h.1.val, h.2)).filter fun h => decide (h.2 ≤ c.maxLen p.val);
      let go := ok.filter fun h => !(c.noFit p.val h.1 h.2) && c.mayStart p.val h.1 h.2;
    ∃ s', Sys2Proof.Machine.exec (.frameTransmit t p heads cut) s = .next s'
      ∧ s'.chip.get (NET_CNT p.val 15) = (c.get (NET_CNT p.val 15) + (heads.length - ok.length)) % 2 ^ 32
      ∧ s'.chip.get (NET_CNT p.val 14) = (c.get (NET_CNT p.val 14) + (ok.filter fun h => c.noFit p.val h.1 h.2).length) % 2 ^ 32
      ∧ s'.chip.get (NET_CNT p.val 11) = (c.get (NET_CNT p.val 11) + (if go.isEmpty || cut then 0 else 1)) % 2 ^ 32
      ∧ s'.chip.get (NET_CNT p.val 13) = (c.get (NET_CNT p.val 13) + (if go.isEmpty || !cut then 0 else 1)) % 2 ^ 32
      ∧ s'.chip.get (NET_CNT p.val 12) = (c.get (NET_CNT p.val 12) + (match (sortBy (fun h => 7 - h.1) go).head? with
          | some h => if cut then 0 else ((c.net p.val).txRem + max 64 h.2) / 128 | none => 0)) % 2 ^ 32)
  ∧ ∀ (s : State) (t : Nat) (p : Fin 2) (heads : List (Fin 8 × Nat)) (cut : Bool) (c : Chip), c = s.chipAt t → c.live = true →
      c.rd (NET_PORT_STAT_STATE p.val) ≠ npUp →
    ∃ s', Sys2Proof.Machine.exec (.frameTransmit t p heads cut) s = .next s'
      ∧ s'.chip.get (NET_CNT p.val 13) = (c.get (NET_CNT p.val 13) + heads.length) % 2 ^ 32
      ∧ s'.chip.on (NET_PORT_STATUS_TX_DISC_LINK p.val) = (c.on (NET_PORT_STATUS_TX_DISC_LINK p.val) || decide (heads.length ≠ 0))

/-- MEDIA_PACKET_RECEIVED (R405, R406, R409, R410) of a video or ancillary flow on a leg that runs: a packet that is not good is counted on its leg
and as bad, and the leg is up; one on the grid of an anchored plane, new, before its deadline and for a frame not beyond the next gives its
difference, and its frame is mapped. AUDIO_PACKET_RECEIVED (R408 to R410) on a leg that runs, of an anchored engine plane: a good, new packet at
least 48 samples and at most ALAT + 960 ahead is counted on its leg and the flow receives; one seen before is counted as a duplicate.
AUDIO_PACKET_LATE (R408, R409) of a joined audio flow, of a number not seen and beyond those accounted: late and missing, flagged and counted.
LEG_LOST (R410) of a leg that runs, heard from last 10 ms ago and not yet lost: down, flagged; an audio or ancillary flow with no other leg up is
LOST. LEG_RESTORED (R410) of a leg that runs and is lost: up again. PACKET_RELEASE (R404, R411 to R413) of a leg of a SENDING sender at or after
its slot: its sequence number advances, it is counted, and as late where a whole packet spacing has passed. ANCILLARY_FIELD_SEND (R402) of a
SENDING ancillary sender: the packets leave in at most 8 RTP packets, counted on each of its legs, and those that fit in none are counted.
ANCHOR_SET (R403), with the plane locked and counting, the servo locked once, no anchor yet, and on no standby, by the running firmware: the
plane is anchored at the boundary that has passed with its epoch and media clocks. -/
def Obligations.Flows : Prop :=
  ((∀ (s : State) (t : Nat) (f : Fin 112) (leg : Fin 2) (p : MediaPacket) (c : Chip), c = s.chipAt t → c.live = true →
      c.legRuns f.val leg.val = true → flowKind f.val ≠ 1 → p.good = false →
    ∃ s', Sys2Proof.Machine.exec (.mediaPacketReceived t f leg p) s = .next s'
      ∧ s'.chip.get (NET_RXF_CNT f.val leg.val) = (c.get (NET_RXF_CNT f.val leg.val) + 1) % 2 ^ 32
      ∧ s'.chip.get (NET_RXF_CNT f.val 6) = (c.get (NET_RXF_CNT f.val 6) + 1) % 2 ^ 32 ∧ s'.chip.on (legUp f.val leg.val) = true)
  ∧ (∀ (s : State) (t : Nat) (f : Fin 112) (leg : Fin 2) (p : MediaPacket) (q fc lat fr : Nat) (off : Int) (c : Chip), c = s.chipAt t →
      c.live = true → c.legRuns f.val leg.val = true → flowKind f.val ≠ 1 → p.good = true → q = c.srcPlane (240 + c.videoOf f.val) →
      fc = c.rd (NET_RXF_CTL_FORMAT (c.videoOf f.val)) → lat = c.rd (NET_RXF_CTL_LAT (c.videoOf f.val)) → c.anchored q = true →
      c.mapFrame q fc p.rtp.toNat p.field2 = (fr, off) → 4 * off.natAbs * sec 1 ≤ 90000 * (fmt fc).period →
      ((c.flow f.val).seqs.any fun e => e.1 == p.seq) = false → (c.now : Int) ≤ c.mediaDeadline q fc lat fr p.line →
      fr ≤ c.framePresented (240 + c.videoOf f.val) q fc + 1 →
    ∃ s', Sys2Proof.Machine.exec (.mediaPacketReceived t f leg p) s = .next s'
      ∧ s'.chip.get (NET_RXF_CNT f.val leg.val) = (c.get (NET_RXF_CNT f.val leg.val) + 1) % 2 ^ 32
      ∧ s'.chip.rdI (NET_RXF_OFFSET_OFFSET f.val) = max (-(2 ^ 31)) (min (2 ^ 31 - 1) off)
      ∧ ((s'.chip.flow f.val).frames.any fun e => e.1 == fr) = true)
  ∧ (∀ (s : State) (t : Nat) (f : Fin 112) (leg : Fin 2) (p : AudioPacket) (now : Nat) (m : Int) (c : Chip), c = s.chipAt t → c.live = true →
      c.legRuns f.val leg.val = true → flowKind f.val = 1 → p.good = true → c.anchored c.enginePlane = true →
      ((c.flow f.val).seqs.any fun e => e.1 == p.seq) = false → now = c.sampleNow c.enginePlane →
      m = toSigned 32 (sub32 ((p.rtp.toNat + c.rd (NET_RXF_AUX_ALAT f.val)) % 2 ^ 32) now) → 48 ≤ m →
      m ≤ (c.rd (NET_RXF_AUX_ALAT f.val) + 960 : Nat) →
    ∃ s', Sys2Proof.Machine.exec (.audioPacketReceived t f leg p) s = .next s' ∧ s'.chip.rd (NET_RXF_STAT_STATE f.val) = 2
      ∧ s'.chip.get (NET_RXF_CNT f.val leg.val) = (c.get (NET_RXF_CNT f.val leg.val) + 1) % 2 ^ 32 ∧ s'.chip.on (legUp f.val leg.val) = true)
  ∧ (∀ (s : State) (t : Nat) (f : Fin 112) (leg : Fin 2) (p : AudioPacket) (c : Chip), c = s.chipAt t → c.live = true →
      c.legRuns f.val leg.val = true → flowKind f.val = 1 → p.good = true → c.anchored c.enginePlane = true →
      ((c.flow f.val).seqs.any fun e => e.1 == p.seq) = true →
    ∃ s', Sys2Proof.Machine.exec (.audioPacketReceived t f leg p) s = .next s'
      ∧ s'.chip.get (NET_RXF_CNT f.val 2) = (c.get (NET_RXF_CNT f.val 2) + 1) % 2 ^ 32)
  ∧ (∀ (s : State) (t : Nat) (f : Fin 112) (q : Nat) (c : Chip), c = s.chipAt t → c.live = true → c.on (NET_RXF_CTL_JOINED f.val) = true →
      flowKind f.val = 1 → ((c.flow f.val).seqs.any fun e => e.1 == q) = false → ((c.flow f.val).upTo.all fun u => decide (u < q)) = true →
    ∃ s', Sys2Proof.Machine.exec (.audioPacketLate t f q) s = .next s' ∧ (s'.chip.flow f.val).upTo = some q
      ∧ s'.chip.get (NET_RXF_CNT f.val 4) = (c.get (NET_RXF_CNT f.val 4) + 1) % 2 ^ 32
      ∧ s'.chip.get (NET_RXF_CNT f.val 3) = (c.get (NET_RXF_CNT f.val 3) + 1) % 2 ^ 32
      ∧ s'.chip.on (NET_RXF_STAT_LATE_SEEN f.val) = true ∧ s'.chip.on (NET_RXF_STAT_MISSING_SEEN f.val) = true)
  ∧ (∀ (s : State) (t : Nat) (f : Fin 112) (leg : Fin 2) (c : Chip), c = s.chipAt t → c.live = true → c.legRuns f.val leg.val = true →
      (if leg.val = 0 then (c.flow f.val).lost.1 else (c.flow f.val).lost.2) = false →
      (if leg.val = 0 then (c.flow f.val).legAt.1 else (c.flow f.val).legAt.2) + ms 10 ≤ c.now →
    ∃ s', Sys2Proof.Machine.exec (.legLost t f leg) s = .next s' ∧ s'.chip.on (legUp f.val leg.val) = false
      ∧ s'.chip.on (NET_RXF_STAT_LEG_LOST_SEEN f.val) = true ∧ s'.chip.on (NET_FLOW_STATUS_LEG_LOST (c.rxPort f.val)) = true
      ∧ (flowKind f.val ≠ 0 → c.on (legUp f.val (1 - leg.val)) = false → s'.chip.rd (NET_RXF_STAT_STATE f.val) = 3))
  ∧ ∀ (s : State) (t : Nat) (f : Fin 112) (leg : Fin 2) (c : Chip), c = s.chipAt t → c.live = true → c.legRuns f.val leg.val = true →
      (if leg.val = 0 then (c.flow f.val).lost.1 else (c.flow f.val).lost.2) = true →
    ∃ s', Sys2Proof.Machine.exec (.legRestored t f leg) s = .next s' ∧ s'.chip.on (legUp f.val leg.val) = true
      ∧ (if leg.val = 0 then (s'.chip.flow f.val).lost.1 else (s'.chip.flow f.val).lost.2) = false)
  ∧ ((∀ (s : State) (t : Nat) (x : Fin 112) (leg : Fin 2) (slot : Nat) (c : Chip), c = s.chipAt t → c.live = true →
      c.rd (NET_TXF_STAT_STATE x.val) = 2 → (leg.val = 0 ∨ c.on (NET_TXF_CTL_DUAL x.val) = true) → slot ≤ c.now →
    ∃ s', Sys2Proof.Machine.exec (.packetRelease t x leg slot) s = .next s'
      ∧ s'.chip.get (NET_TXF_CNT x.val leg.val) = (c.get (NET_TXF_CNT x.val leg.val) + 1) % 2 ^ 32
      ∧ (s'.chip.sender x.val).seq0 = (c.sender x.val).seq0 + (1 - leg.val) ∧ (s'.chip.sender x.val).seq1 = (c.sender x.val).seq1 + leg.val
      ∧ s'.chip.get (NET_TXF_CNT x.val 2) = (c.get (NET_TXF_CNT x.val 2) + (if slot + c.trs x.val < c.now then 1 else 0)) % 2 ^ 32)
  ∧ (∀ (s : State) (t : Nat) (x : Fin 112) (sizes : List Nat) (c : Chip), c = s.chipAt t → c.live = true → flowKind x.val = 2 →
      c.rd (NET_TXF_STAT_STATE x.val) = 2 →
    ∃ s', Sys2Proof.Machine.exec (.ancillaryFieldSend t x sizes) s = .next s'
      ∧ s'.chip.get (NET_TXF_CNT x.val 0) = (c.get (NET_TXF_CNT x.val 0) + (packAnc sizes 0 0 0).1) % 2 ^ 32
      ∧ s'.chip.get (NET_TXF_CNT x.val 1)
          = (c.get (NET_TXF_CNT x.val 1) + (if c.on (NET_TXF_CTL_DUAL x.val) then (packAnc sizes 0 0 0).1 else 0)) % 2 ^ 32
      ∧ s'.chip.get (NET_TXF_CNT x.val 3) = (c.get (NET_TXF_CNT x.val 3) + (packAnc sizes 0 0 0).2) % 2 ^ 32
      ∧ (packAnc sizes 0 0 0).1 ≤ 8)
  ∧ ∀ (s : State) (t : Nat) (q : Fin 2) (c : Chip), c = s.chipAt t → c.ready = true → c.planeLocked q.val = true → c.ptp.firstLock = true →
      c.anchored q.val = false → (c.plane q.val).counted = true → c.rd TWN_STATE_MODE ≠ 2 →
    ∃ s', Sys2Proof.Machine.exec (.anchorSet t q) s = .next s' ∧ s'.chip.on (NET_ANCHOR_CTL_VALID q.val) = true
      ∧ s'.chip.get (NET_ANCHOR_EPOCH q.val) = c.epochNow q.val ∧ s'.chip.get (NET_ANCHOR_RTP90 q.val) = (c.anchorWords q.val).getD 1 0
      ∧ s'.chip.get (NET_ANCHOR_RTP48 q.val) = (c.anchorWords q.val).getD 2 0)

/-- SYNC_RECEIVED (R430, R438, R439) on a port that runs PTP, in its domain: with fewer than 64 waiting it enters the receive record with its stamp;
else it is counted as lost, flagged, and the record stays. DELAY_REQ_SENT (R437, R439): while recording is not stopped and fewer than 64 wait it
enters the departure record, and recording stops with the 64th; while recording is stopped it is counted as lost, flagged, and the record stays.
RXQ_POP and TXR_POP (R438, R439), by the running firmware: the oldest entry leaves its record and a copy is kept; an emptied departure record
records again. -/
def Obligations.PtpRecords : Prop :=
  (∀ (s : State) (t : Nat) (p : Fin 2) (seq : BitVec 16) (domain : BitVec 8) (id : BitVec 64) (num : BitVec 16) (err : Fin 9) (c : Chip),
      c = s.chipAt t → c.live = true → c.on (PTP_PORT_CFG_ENABLE p.val) = true → domain.toNat = c.rd PTP_CFG_DOMAIN →
      (c.ptpPort p.val).rxq.length < 64 →
    ∃ s', Sys2Proof.Machine.exec (.syncReceived t p seq domain id num err) s = .next s'
      ∧ (s'.chip.ptpPort p.val).rxq = (c.ptpPort p.val).rxq ++ [recEntry (c.stamp err.val) seq.toNat domain.toNat 0 id.toNat num.toNat]
      ∧ s'.chip.rd (PTP_PORT_STAT_RXQ_FILL p.val) = (c.ptpPort p.val).rxq.length + 1)
  ∧ (∀ (s : State) (t : Nat) (p : Fin 2) (seq : BitVec 16) (domain : BitVec 8) (id : BitVec 64) (num : BitVec 16) (err : Fin 9) (c : Chip),
      c = s.chipAt t → c.live = true → c.on (PTP_PORT_CFG_ENABLE p.val) = true → domain.toNat = c.rd PTP_CFG_DOMAIN →
      64 ≤ (c.ptpPort p.val).rxq.length →
    ∃ s', Sys2Proof.Machine.exec (.syncReceived t p seq domain id num err) s = .next s' ∧ (s'.chip.ptpPort p.val).rxq = (c.ptpPort p.val).rxq
      ∧ s'.chip.rd (PTP_RXQ_LOST_COUNT p.val) = min (2 ^ (PTP_RXQ_LOST_COUNT p.val).w - 1) (c.rd (PTP_RXQ_LOST_COUNT p.val) + 1)
      ∧ s'.chip.on (PTP_PORT_STAT_RXQ_OVF p.val) = true ∧ s'.chip.on PTP_STATUS_RXQ_OVF = true)
  ∧ (∀ (s : State) (t : Nat) (p : Fin 2) (seq : BitVec 16) (err : Fin 9) (c : Chip), c = s.chipAt t → c.live = true →
      c.on (PTP_PORT_STAT_TXR_STOPPED p.val) = false → (c.ptpPort p.val).txr.length < 64 →
    ∃ s', Sys2Proof.Machine.exec (.delayReqSent t p seq err) s = .next s'
      ∧ (s'.chip.ptpPort p.val).txr = (c.ptpPort p.val).txr ++ [recEntry (c.stamp err.val) seq.toNat (c.rd PTP_CFG_DOMAIN) 1 0 0]
      ∧ (s'.chip.ptpPort p.val).origin = c.stamp err.val
      ∧ s'.chip.on (PTP_PORT_STAT_TXR_STOPPED p.val) = decide ((c.ptpPort p.val).txr.length = 63))
  ∧ (∀ (s : State) (t : Nat) (p : Fin 2) (seq : BitVec 16) (err : Fin 9) (c : Chip), c = s.chipAt t → c.live = true →
      c.on (PTP_PORT_STAT_TXR_STOPPED p.val) = true →
    ∃ s', Sys2Proof.Machine.exec (.delayReqSent t p seq err) s = .next s' ∧ (s'.chip.ptpPort p.val).txr = (c.ptpPort p.val).txr
      ∧ s'.chip.rd (PTP_TXR_LOST_COUNT p.val) = min (2 ^ (PTP_TXR_LOST_COUNT p.val).w - 1) (c.rd (PTP_TXR_LOST_COUNT p.val) + 1)
      ∧ s'.chip.on (PTP_PORT_STAT_TXR_OVF p.val) = true ∧ s'.chip.on PTP_STATUS_TXR_OVF = true)
  ∧ (∀ (s : State) (t : Nat) (p : Fin 2) (e : List Nat) (rest : List (List Nat)) (c : Chip), c = s.chipAt t → c.ready = true →
      (c.ptpPort p.val).rxq = e :: rest →
    ∃ s', Sys2Proof.Machine.exec (.rxqPop t p) s = .next s' ∧ (s'.chip.ptpPort p.val).rxq = rest
      ∧ (s'.chip.ptpPort p.val).rxCopy.head? = some e
      ∧ s'.chip.get (PTP_RXQ_HEAD p.val 0) = (rest.headD []).getD 0 0 % 2 ^ 32)
  ∧ ∀ (s : State) (t : Nat) (p : Fin 2) (e : List Nat) (rest : List (List Nat)) (c : Chip), c = s.chipAt t → c.ready = true →
      (c.ptpPort p.val).txr = e :: rest →
    ∃ s', Sys2Proof.Machine.exec (.txrPop t p) s = .next s' ∧ (s'.chip.ptpPort p.val).txr = rest
      ∧ (s'.chip.ptpPort p.val).txCopy.head? = some e
      ∧ s'.chip.on (PTP_PORT_STAT_TXR_STOPPED p.val) = (c.on (PTP_PORT_STAT_TXR_STOPPED p.val) && !rest.isEmpty)

/-- SERVO_SAMPLE of the servo's port while it has a master, by the running firmware. Locked before and with no relock (R432): a sample within
PTP_JUMP_MAX writes the filtered offset and steers the clock within its limit, and 16 in a row within 1 us lock the servo; one beyond
PTP_JUMP_MAX is counted and changes neither, and the eighth in a row holds the servo in JUMP_HELD (R435). The eighth sample after a reset steps
the clock by the median of the eight (R432); a relock steps it by its sample (R436). ANNOUNCE_RECEIVED (R433) on a port that runs PTP, in its
domain: its master is listed first, heard now. ANNOUNCE_TIMEOUT (R434): the masters not heard within the timeout are dropped. PREF_PORT_REVERT
(R433), with the preferred port's master as good for 10 s: the servo follows it. -/
def Obligations.PtpServo : Prop :=
  (∀ (s : State) (t : Nat) (p : Fin 2) (offset filtered freq : Int) (mpd : Nat) (c : Chip), c = s.chipAt t → c.ready = true →
      p.val = c.rd PTP_SERVO_PORT → (c.servo = svAcquiring ∨ c.servo = svLocked ∨ c.servo = svJump) → c.on PTP_SERVO_EVER_LOCKED = true →
      c.ptp.relock = false → offset.natAbs ≤ c.rd PTP_JUMP_MAX_JUMP_MAX →
    ∃ s', Sys2Proof.Machine.exec (.servoSample t p offset filtered freq mpd) s = .next s'
      ∧ s'.chip.rdI PTP_OFFSET_OFFSET = max (-(2 ^ 31)) (min (2 ^ 31 - 1) filtered)
      ∧ s'.chip.rdI PTP_FREQ_FREQ = max (-freqLimit) (min freqLimit freq)
      ∧ s'.chip.ptp.inRange = (if filtered.natAbs ≤ 1000 then min 16 (c.ptp.inRange + 1) else 0)
      ∧ s'.chip.servo = (if filtered.natAbs ≤ 1000 then (if c.servo = svLocked ∨ 15 ≤ c.ptp.inRange then svLocked else svAcquiring) else svAcquiring))
  ∧ (∀ (s : State) (t : Nat) (p : Fin 2) (offset filtered freq : Int) (mpd : Nat) (c : Chip), c = s.chipAt t → c.ready = true →
      p.val = c.rd PTP_SERVO_PORT → (c.servo = svAcquiring ∨ c.servo = svLocked ∨ c.servo = svJump) → c.on PTP_SERVO_EVER_LOCKED = true →
      c.ptp.relock = false → c.rd PTP_JUMP_MAX_JUMP_MAX < offset.natAbs →
    ∃ s', Sys2Proof.Machine.exec (.servoSample t p offset filtered freq mpd) s = .next s'
      ∧ s'.chip.rd PTP_JUMPS_COUNT = min (2 ^ PTP_JUMPS_COUNT.w - 1) (c.rd PTP_JUMPS_COUNT + 1)
      ∧ s'.chip.get PTP_OFFSET = c.get PTP_OFFSET ∧ s'.chip.clock.n = c.clock.n
      ∧ (7 ≤ c.ptp.refused.length → s'.chip.servo = svJump))
  ∧ (∀ (s : State) (t : Nat) (p : Fin 2) (domain : BitVec 8) (id : BitVec 64) (rank : Nat) (c : Chip), c = s.chipAt t → c.ready = true →
      c.on (PTP_PORT_CFG_ENABLE p.val) = true → domain.toNat = c.rd PTP_CFG_DOMAIN →
    ∃ s', Sys2Proof.Machine.exec (.announceReceived t p domain id rank) s = .next s'
      ∧ ((s'.chip.ptpPort p.val).masters.head?.map fun m => (m.id, m.rank)) = some (id.toNat, rank)
      ∧ ((s'.chip.ptpPort p.val).masters.head?.bind fun m => m.heard.head?) = some c.now
      ∧ (s'.chip.ptpPort p.val).masters.tail = (c.ptpPort p.val).masters.filter (fun m => m.id != id.toNat))
  ∧ (∀ (s : State) (t : Nat) (p : Fin 2) (limit : Nat) (c : Chip), c = s.chipAt t → c.ready = true →
      limit = c.rd PTP_CFG_ANNOUNCE_TIMEOUT * logInterval (c.rd PTP_CFG_ANNOUNCE_LOG) →
    ∃ s', Sys2Proof.Machine.exec (.announceTimeout t p) s = .next s'
      ∧ (s'.chip.ptpPort p.val).masters = (c.ptpPort p.val).masters.filter fun m => decide (c.now < m.heard.headD 0 + limit))
  ∧ (∀ (s : State) (t : Nat) (since : Nat) (m : Master) (c : Chip), c = s.chipAt t → c.ready = true → c.ptp.prefSince = some since →
      since + sec 10 ≤ c.now → c.bestMaster (c.rd PTP_CFG_PREF_PORT) = some m → m.id < 2 ^ 64 →
    ∃ s', Sys2Proof.Machine.exec (.prefPortRevert t) s = .next s' ∧ s'.chip.rd PTP_SERVO_PORT = c.rd PTP_CFG_PREF_PORT
      ∧ s'.chip.gmId = m.id)
  ∧ (∀ (s : State) (t : Nat) (p : Fin 2) (offset filtered freq : Int) (mpd : Nat) (c : Chip), c = s.chipAt t → c.ready = true →
      p.val = c.rd PTP_SERVO_PORT → (c.servo = svAcquiring ∨ c.servo = svLocked ∨ c.servo = svJump) → c.on PTP_SERVO_EVER_LOCKED = false →
      c.ptp.first.length = 7 →
    ∃ s', Sys2Proof.Machine.exec (.servoSample t p offset filtered freq mpd) s = .next s'
      ∧ s'.chip.on PTP_SERVO_EVER_LOCKED = true ∧ s'.chip.clock.n = ofSigned 64 (c.clock.n - median (offset :: c.ptp.first))
      ∧ s'.chip.on PTP_STATUS_STEPPED = true)
  ∧ ∀ (s : State) (t : Nat) (p : Fin 2) (offset filtered freq : Int) (mpd : Nat) (c : Chip), c = s.chipAt t → c.ready = true →
      p.val = c.rd PTP_SERVO_PORT → (c.servo = svAcquiring ∨ c.servo = svLocked ∨ c.servo = svJump) → c.on PTP_SERVO_EVER_LOCKED = true →
      c.ptp.relock = true →
    ∃ s', Sys2Proof.Machine.exec (.servoSample t p offset filtered freq mpd) s = .next s'
      ∧ s'.chip.ptp.relock = false ∧ s'.chip.servo = svAcquiring ∧ s'.chip.clock.n = ofSigned 64 (c.clock.n - offset)

/-- MONITOR_WINDOW_END (R449, R450), of a candidate that is not OFF: its corrected offset is written, saturated to the field; an INACTIVE one that is
active measures; a QUALIFIED one beyond its reject limit is DISQUALIFIED; a measuring or disqualified one, active and within its accept limit,
has one more good window, and with the eighth it is QUALIFIED. CANDIDATE_INACTIVE (R449) of a candidate beyond INACTIVE: INACTIVE with its cause,
flagged where it was QUALIFIED. LO_CALIBRATED (R451), LO_IN there and not yet calibrated, 60 s after the servo locked: LO_CAL is learned,
saturated to its field. REFERENCE_EDGE (R449, R459) of a candidate that is not OFF: with none held, an edge in its place clears the absent ones;
one displaced, of a candidate that a plane follows, that agrees with fewer than three held ones is held. WTR_EXPIRY (R455, R458) of a plane that
does not follow the active part and has a candidate to switch to: it is selected, in PULLIN, flagged and counted. PULLIN_DONE (R458) of a plane
in PULLIN within 0.01 ppm of its target: LOCKED now. START_TIMEOUT (R454) of a plane in START for 12 s: FREERUN without a candidate at nominal
frequency, its first boundary `delay` later. REF_PHASE_HIT (R459) of a plane that follows a candidate with three held edges: the last
displacement is absorbed into the build-out, flagged, and none is held. -/
def Obligations.References : Prop :=
  ((∀ (s : State) (t : Nat) (ms : List RefMeas) (lo : Int) (k : Fin 5) (m : RefMeas) (c : Chip), c = s.chipAt t → c.live = true →
      c.rd (REF_CAND_STAT_STATE k.val) ≠ caOff → ms[k.val]? = some m →
    ∃ s', Sys2Proof.Machine.exec (.monitorWindowEnd t ms lo) s = .next s'
      ∧ s'.chip.rdI (REF_CAND_OFFSET_OFFSET k.val) = max (-(2 ^ ((REF_CAND_OFFSET_OFFSET k.val).w - 1))) (min (2 ^ ((REF_CAND_OFFSET_OFFSET k.val).w - 1) - 1) (c.corrected m.offset))
      ∧ (c.rd (REF_CAND_STAT_STATE k.val) = caInactive → s'.chip.rd (REF_CAND_STAT_STATE k.val) = (if m.active && (k.val != 4 || c.servo == svLocked) then caMeasuring else caInactive))
      ∧ (c.rd (REF_CAND_STAT_STATE k.val) = caQualified → s'.chip.rd (REF_CAND_STAT_STATE k.val)
          = (if 10 * c.rd (REF_CAND_RANK_REJECT k.val) < (c.corrected m.offset).natAbs then caDisqualified else caQualified))
      ∧ ((c.rd (REF_CAND_STAT_STATE k.val) = caMeasuring ∨ c.rd (REF_CAND_STAT_STATE k.val) = caDisqualified) → (m.active && (k.val != 4 || c.servo == svLocked)) = true →
          (c.corrected m.offset).natAbs ≤ 10 * c.rd (REF_CAND_CFG_ACCEPT k.val) →
          (c.rd (REF_CAND_STAT_GOOD_WINDOWS k.val) = 7 → s'.chip.rd (REF_CAND_STAT_STATE k.val) = caQualified)
          ∧ (c.rd (REF_CAND_STAT_GOOD_WINDOWS k.val) < 7 → s'.chip.rd (REF_CAND_STAT_GOOD_WINDOWS k.val) = c.rd (REF_CAND_STAT_GOOD_WINDOWS k.val) + 1)))
  ∧ (∀ (s : State) (t : Nat) (k : Fin 5) (noisy : Bool) (ms : List RefMeas) (c : Chip), c = s.chipAt t → c.live = true →
      caInactive < c.rd (REF_CAND_STAT_STATE k.val) →
    ∃ s', Sys2Proof.Machine.exec (.candidateInactive t k noisy ms) s = .next s' ∧ s'.chip.rd (REF_CAND_STAT_STATE k.val) = caInactive
      ∧ s'.chip.rd (REF_CAND_STAT_CAUSE k.val) = (if noisy then 2 else 1)
      ∧ (c.rd (REF_CAND_STAT_STATE k.val) = caQualified → s'.chip.on (REF_CAND_STAT_DISQ_SEEN k.val) = true))
  ∧ (∀ (s : State) (t : Nat) (lo : Int) (c : Chip), c = s.chipAt t → c.ready = true → c.on REF_LO_CAL_VALID = false → c.on REF_LO_PRESENT = true →
      c.servo = svLocked → c.ptp.lockedAt + sec 60 ≤ c.now →
    ∃ s', Sys2Proof.Machine.exec (.loCalibrated t lo) s = .next s' ∧ s'.chip.on REF_LO_CAL_VALID = true
      ∧ s'.chip.rdI REF_LO_CAL_LO_CAL = max (-(2 ^ (REF_LO_CAL_LO_CAL.w - 1))) (min (2 ^ (REF_LO_CAL_LO_CAL.w - 1) - 1) lo))
  ∧ (∀ (s : State) (t : Nat) (k : Fin 5) (d : Int) (ms : List RefMeas) (c : Chip), c = s.chipAt t → c.live = true →
      c.rd (REF_CAND_STAT_STATE k.val) ≠ caOff → d.natAbs ≤ 1000 → (c.cand k.val).held = [] →
    ∃ s', Sys2Proof.Machine.exec (.referenceEdge t k d ms) s = .next s' ∧ (s'.chip.cand k.val).absent = 0 ∧ s'.chip.regs = c.regs)
  ∧ ∀ (s : State) (t : Nat) (k : Fin 5) (d : Int) (ms : List RefMeas) (c : Chip), c = s.chipAt t → c.live = true →
      c.rd (REF_CAND_STAT_STATE k.val) ≠ caOff → 1000 < d.natAbs → (c.cand k.val).held.length < 3 → (c.cand k.val).held.all (near100 d) = true →
      (c.planesOf k.val).isEmpty = false →
    ∃ s', Sys2Proof.Machine.exec (.referenceEdge t k d ms) s = .next s' ∧ (s'.chip.cand k.val).held = d :: (c.cand k.val).held ∧ s'.chip.regs = c.regs)
  ∧ ((∀ (s : State) (t : Nat) (q : Fin 2) (ms : List RefMeas) (k : Nat) (c : Chip), c = s.chipAt t → c.live = true → c.wantsRef q.val = some k →
      c.followsRef = false →
    ∃ s', Sys2Proof.Machine.exec (.wtrExpiry t q ms) s = .next s' ∧ s'.chip.rd (REF_PLANE_STAT_SELECTED q.val) = k
      ∧ s'.chip.planeState q.val = 3 ∧ s'.chip.on (REF_PLANE_STAT_SWITCH_SEEN q.val) = true ∧ s'.chip.on REF_STATUS_SWITCH = true
      ∧ s'.chip.rd (REF_PLANE_SWITCHES_COUNT q.val) = min (2 ^ (REF_PLANE_SWITCHES_COUNT q.val).w - 1) (c.rd (REF_PLANE_SWITCHES_COUNT q.val) + 1))
  ∧ (∀ (s : State) (t : Nat) (q : Fin 2) (c : Chip), c = s.chipAt t → c.live = true → c.planeState q.val = 3 →
      ((c.plane q.val).freq - (c.plane q.val).target).natAbs ≤ 10 * freqUnit.natAbs →
    ∃ s', Sys2Proof.Machine.exec (.pullinDone t q) s = .next s' ∧ s'.chip.planeState q.val = 2 ∧ (s'.chip.plane q.val).lockAt = c.now)
  ∧ (∀ (s : State) (t : Nat) (q : Fin 2) (delay : Nat) (c : Chip), c = s.chipAt t → c.live = true → c.planeState q.val = 1 →
      (c.plane q.val).startAt + sec 12 ≤ c.now →
    ∃ s', Sys2Proof.Machine.exec (.startTimeout t q delay) s = .next s' ∧ s'.chip.planeState q.val = 5
      ∧ s'.chip.rd (REF_PLANE_STAT_SELECTED q.val) = 7 ∧ s'.chip.rdI (REF_PLANE_FREQ_FREQ q.val) = 0
      ∧ (s'.chip.plane q.val).nextB = c.now + ns delay ∧ s'.chip.on REF_STATUS_FREERUN = true)
  ∧ ∀ (s : State) (t : Nat) (k : Fin 5) (q : Fin 2) (d1 d2 d3 : Int) (c : Chip), c = s.chipAt t → c.live = true → (c.cand k.val).held = [d3, d2, d1] →
      c.selected q.val = k.val → (c.planeState q.val = 2 ∨ c.planeState q.val = 3) →
    ∃ s', Sys2Proof.Machine.exec (.refPhaseHit t k) s = .next s' ∧ (s'.chip.plane q.val).buildout = (c.plane q.val).buildout + d3 * phaseUnit
      ∧ s'.chip.on (REF_PLANE_STAT_PHASE_HIT q.val) = true ∧ s'.chip.on REF_STATUS_PHASE_HIT = true ∧ (s'.chip.cand k.val).held = [])

/-- AUDIO_BLOCK with no sample of a block before it left to process. While the engine runs, with no port setting that waits for the block and no port
that restarts with it, outside standby (R468, R470, R485): the block runs with its operands from this instant on, from the sample index that is
the nearest multiple of 48, its first sample is processed, and the bridge shows the ratio measured, within its range. With no engine clock (log
37) no block runs, and where no setting, port or request waits for one no register changes; the serial audio settings that waited take at it
whether or not the engine runs (R513). Rows of a serial audio port that runs. SAP_PORT_FRAME (R505): the frame start is timed, and a frame of 64
bit-clock periods adds to the good ones, up to 64, and ends the bad ones; another ends the good ones and adds to the bad ones, up to 2.
PORT_LOCKED (R505) of a slave or lead port, not locked, after 64 good frames at a rate within 500 ppm: locked, at that rate. PORT_UNLOCKED with
cause 2 (R505, R510) of a locked one after two bad frames: unlocked, its transmit buffer empty, flagged as unlocked and as framing. SLIPPED,
receive overrun (R510, R512), with the buffer full and no slip there yet: slipped, flagged, the sample counted as discarded, and swapped under
WEAGOR; transmit underrun, with the buffer of a running direction empty and no slip there yet: slipped, flagged, the sample counted as repeated.
REJOINED (R511) where only the receive direction has slipped and the stamp at the head of its buffer is the target: that direction runs, and
STATE is no longer 3. -/
def Obligations.Audio : Prop :=
  ((∀ (s : State) (t : Nat) (b : AudioBlock) (c : Chip), c = s.chipAt t → c.live = true → 48 ≤ c.aud.done → c.engineOn = true →
      c.aud.sapDue = [] → (∀ x ∈ c.sap, x.2.waits = false) → c.rd TWN_STATE_MODE ≠ 2 →
    ∃ s', Sys2Proof.Machine.exec (.audioBlock t b) s = .next s' ∧ s'.chip.aud.block = some b ∧ s'.chip.aud.blockAt = c.now
      ∧ s'.chip.aud.first = (c.sampleNow c.enginePlane + 24) / 48 * 48 % 2 ^ 32 ∧ s'.chip.aud.done = 1
      ∧ s'.chip.rdI AUD_BRIDGE_RATIO_RATIO = max (-(2 ^ (AUD_BRIDGE_RATIO_RATIO.w - 1))) (min (2 ^ (AUD_BRIDGE_RATIO_RATIO.w - 1) - 1) b.ratio))
  ∧ (∀ (s : State) (t : Nat) (b : AudioBlock) (c : Chip), c = s.chipAt t → c.live = true → 48 ≤ c.aud.done → c.engineOn = false →
      c.aud.sapDue = [] → (∀ x ∈ c.sap, x.2.waits = false) → c.fw.waits = [] →
    ∃ s', Sys2Proof.Machine.exec (.audioBlock t b) s = .next s' ∧ s'.chip.aud.block = none ∧ s'.chip.regs = c.regs)
  ∧ ∀ (s : State) (t : Nat) (b : AudioBlock) (c : Chip), c = s.chipAt t → c.live = true →
    ∃ s', Sys2Proof.Machine.exec (.audioBlock t b) s = .next s' ∧ s'.chip.aud.sapDue = [])
  ∧ ((∀ (s : State) (t : Nat) (p : Fin 16) (bclk : Nat) (rx : List (Int × Int)) (tx : Nat) (c : Chip), c = s.chipAt t → c.live = true →
      c.sapRuns p.val = true →
    ∃ s', Sys2Proof.Machine.exec (.sapPortFrame t p bclk rx tx) s = .next s' ∧ (s'.chip.sapPort p.val).frameAt = c.now
      ∧ (s'.chip.sapPort p.val).good = (if bclk = 64 then min 64 ((c.sapPort p.val).good + 1) else 0)
      ∧ (s'.chip.sapPort p.val).bad = (if bclk = 64 then 0 else min 2 ((c.sapPort p.val).bad + 1)))
  ∧ (∀ (s : State) (t : Nat) (p : Fin 16) (rate : Int) (c : Chip), c = s.chipAt t → c.live = true → c.sapRuns p.val = true →
      c.on (SAP_PORT_CTL_MASTER p.val) = false → (c.sapPort p.val).locked = false → 64 ≤ (c.sapPort p.val).good → rate.natAbs ≤ 500000 →
    ∃ s', Sys2Proof.Machine.exec (.portLocked t p rate) s = .next s' ∧ (s'.chip.sapPort p.val).locked = true
      ∧ (s'.chip.sapPort p.val).rate = rate)
  ∧ (∀ (s : State) (t : Nat) (p : Fin 16) (c : Chip), c = s.chipAt t → c.live = true → c.sapRuns p.val = true →
      c.on (SAP_PORT_CTL_MASTER p.val) = false → (c.sapPort p.val).locked = true → 2 ≤ (c.sapPort p.val).bad →
    ∃ s', Sys2Proof.Machine.exec (.portUnlocked t p 1) s = .next s' ∧ (s'.chip.sapPort p.val).locked = false ∧ (s'.chip.sapPort p.val).tx = []
      ∧ s'.chip.on (SAP_PORT_STAT_UNLOCK_SEEN p.val) = true ∧ s'.chip.on (SAP_PORT_STAT_FRAMING_SEEN p.val) = true
      ∧ s'.chip.on SAP_STATUS_UNLOCKED = true ∧ s'.chip.rd (SAP_PORT_STAT_TX_FILL p.val) = 0)
  ∧ (∀ (s : State) (t : Nat) (p : Fin 16) (c : Chip), c = s.chipAt t → c.live = true → c.sapRuns p.val = true →
      (c.sapPort p.val).slipRx = false → 64 ≤ (c.sapPort p.val).rx.length →
    ∃ s', Sys2Proof.Machine.exec (.slipped t p 1) s = .next s' ∧ (s'.chip.sapPort p.val).slipRx = true
      ∧ s'.chip.rd (SAP_PORT_STAT_STATE p.val) = 3 ∧ s'.chip.on (SAP_PORT_STAT_SLIP_SEEN p.val) = true ∧ s'.chip.on SAP_STATUS_SLIP = true
      ∧ s'.chip.rd (SAP_PORT_RX_DISC_COUNT p.val) = min (2 ^ (SAP_PORT_RX_DISC_COUNT p.val).w - 1) (c.rd (SAP_PORT_RX_DISC_COUNT p.val) + 1)
      ∧ (c.on (SAP_PORT_CTL_WEAGOR p.val) = true → s'.chip.on (SAP_PORT_STAT_SWAPPED p.val) = true))
  ∧ (∀ (s : State) (t : Nat) (p : Fin 16) (c : Chip), c = s.chipAt t → c.live = true → c.sapRuns p.val = true →
      (c.sapPort p.val).slipRx = true → (c.sapPort p.val).slipTx = false →
      headIs (sub32 (c.stampNow + 1) (c.sapLat p.val)) (c.sapPort p.val).rx = true →
    ∃ s', Sys2Proof.Machine.exec (.rejoined t p) s = .next s' ∧ (s'.chip.sapPort p.val).slipRx = false ∧ (s'.chip.sapPort p.val).rxOn = true
      ∧ (s'.chip.sapPort p.val).moved = 0 ∧ s'.chip.rd (SAP_PORT_STAT_STATE p.val) ≠ 3)
  ∧ ∀ (s : State) (t : Nat) (p : Fin 16) (c : Chip), c = s.chipAt t → c.live = true → c.sapRuns p.val = true →
      (c.sapPort p.val).slipTx = false → (c.sapPort p.val).txOn = true → (c.sapPort p.val).tx = [] →
    ∃ s', Sys2Proof.Machine.exec (.slipped t p 2) s = .next s' ∧ (s'.chip.sapPort p.val).slipTx = true
      ∧ s'.chip.on (SAP_PORT_STAT_SLIP_SEEN p.val) = true ∧ s'.chip.on SAP_STATUS_SLIP = true
      ∧ s'.chip.rd (SAP_PORT_TX_REP_COUNT p.val) = min (2 ^ (SAP_PORT_TX_REP_COUNT p.val).w - 1) (c.rd (SAP_PORT_TX_REP_COUNT p.val) + 1))

/-- HEAD_FRAME_DECISION (R527) of an enabled head whose plane counts, for a frame not yet decided: it is decided, of the changes that wait only those
of this epoch stay, and the active part's decisions are used up. AUTO_FLIP (R535) of a layer whose load has ended and whose plane has begun a
frame since: front and back are exchanged, flagged, and none is due. LAYER_SLATED (R538) of a layer without a tap frame for LOSS_TIMEOUT head
frames and not yet slated: it shows the slate, flagged. GRAPHIC_LOAD_DONE (R533) of a request that the firmware holds, with the pixels read and
nothing more to do after it: LOADING ends, the fence is written, and no load runs. -/
def Obligations.Multiviewer : Prop :=
  (∀ (s : State) (t : Nat) (h : Fin 4) (n : Nat) (c : Chip), c = s.chipAt t → c.live = true → c.on (MVC_HEAD_CTL_ENABLE h.val) = true →
      (c.plane (c.rd (MVC_HEAD_CTL_PLANE h.val))).counted = true → n = c.epochNow (c.rd (MVC_HEAD_CTL_PLANE h.val)) →
      (c.head h.val).decided ≠ some n →
    ∃ s', Sys2Proof.Machine.exec (.headFrameDecision t h) s = .next s' ∧ (s'.chip.head h.val).decided = some n
      ∧ (s'.chip.head h.val).later = (c.head h.val).later.filter (fun e => e.1 == n) ∧ (s'.chip.head h.val).named = [])
  ∧ (∀ (s : State) (t : Nat) (h l : Fin 4) (at_ : Nat) (c : Chip), c = s.chipAt t → c.live = true → c.on (MVC_HEAD_CTL_ENABLE h.val) = true →
      ((c.head h.val).gl l.val).auto = some at_ → c.on (MVC_GL_FENCE_LOADING h.val l.val) = false →
      at_ + c.planePeriod (c.rd (MVC_HEAD_CTL_PLANE h.val)) ≤ (c.plane (c.rd (MVC_HEAD_CTL_PLANE h.val))).nextB →
    ∃ s', Sys2Proof.Machine.exec (.autoFlip t h l) s = .next s'
      ∧ s'.chip.on (MVC_GL_CTL_FRONT h.val l.val) = !(c.on (MVC_GL_CTL_FRONT h.val l.val)) ∧ s'.chip.on MVC_STATUS_FLIP_APPLIED = true
      ∧ ((s'.chip.head h.val).gl l.val).auto = none)
  ∧ (∀ (s : State) (t : Nat) (h : Fin 4) (v : Fin 16) (n : Nat) (c : Chip), c = s.chipAt t → c.live = true →
      c.on (MVC_HEAD_CTL_ENABLE h.val) = true → c.on (MVC_VL_CTL_ENABLE h.val v.val) = true → ((c.head h.val).vl v.val).lost = some n →
      c.rd (MVC_VL_STAT_SHOW h.val v.val) ≠ 2 →
      c.rd (MVC_HEAD_CTL_LOSS_TIMEOUT h.val) ≤ sub32 (c.epochNow (c.rd (MVC_HEAD_CTL_PLANE h.val))) n →
    ∃ s', Sys2Proof.Machine.exec (.layerSlated t h v) s = .next s' ∧ s'.chip.rd (MVC_VL_STAT_SHOW h.val v.val) = 2
      ∧ s'.chip.on (MVC_HEAD_STAT_SLATE_SEEN h.val) = true ∧ s'.chip.on MVC_STATUS_SLATED = true)
  ∧ ∀ (s : State) (t : Nat) (h l : Fin 4) (px : List Nat) (w : Wait) (ws : List Nat) (c : Chip), c = s.chipAt t → c.ready = true →
      (c.fw.waits.find? fun w => w.long == some .graphic && bits (w.req.w 0) 0 4 == h.val + 4 * l.val) = some w →
      ((c.head h.val).gl l.val).load = some ws → w.plan.after = .none →
    ∃ s', Sys2Proof.Machine.exec (.graphicLoadDone t h l (some px)) s = .next s' ∧ s'.chip.on (MVC_GL_FENCE_LOADING h.val l.val) = false
      ∧ s'.chip.rd (MVC_GL_FENCE_FENCE h.val l.val) = ws.getD 1 0 % 2 ^ (MVC_GL_FENCE_FENCE h.val l.val).w
      ∧ ((s'.chip.head h.val).gl l.val).load = none

/-- TWIN_MODE_DECISION (R550) with the mode not decided, the configuration loaded and TP0 out of START: the pin is read; with an active peer, by the
pin or by its HELLO, the part is standby; else unit 0 becomes active at the next handover instant and unit 1 waits, both in phase 1 until then.
UNIT1_WAIT_EXPIRY (R550) 2 s after that: the same test, and unit 1 becomes active. PEER_IN_CONFLICT (R551) while the part drives ACTIVE_OUT,
outside a committed handover: flagged as a mismatch; unit 1 withdraws and is standby, unit 0 stays. HELLO_SEND (R554): the pin is read and one
HELLO leaves, or none while no twin lane is up. HELLO (R554, R548) of a peer not present, or in its turn: the peer is present with its role,
unit, mode and version, heard now; another role or version is a mismatch. HELLO_TIMEOUT (R586), 10 ms after the last: the peer is not present and
the pair not formed. -/
def Obligations.TwinModes : Prop :=
  (∀ (s : State) (t : Nat) (peerIn : Bool) (c : Chip), c = s.chipAt t → c.live = true → c.on TWN_CFG_ENABLE = true → c.twn.decided = false →
      c.rd TWN_STATE_MODE = 0 → c.fw.cfgLoaded = true → (c.plane 0).left = true →
    ∃ s', Sys2Proof.Machine.exec (.twinModeDecision t peerIn) s = .next s' ∧ s'.chip.twn.decided = true ∧ s'.chip.on TWN_STATE_PEER_IN = peerIn
      ∧ ((peerIn || (c.on TWN_PEER_PRESENT && c.rd TWN_PEER_PEER_MODE == 1)) = true → s'.chip.rd TWN_STATE_MODE = 2)
      ∧ ((peerIn || (c.on TWN_PEER_PRESENT && c.rd TWN_PEER_PEER_MODE == 1)) = false → s'.chip.rd TWN_STATE_MODE = 0
          ∧ s'.chip.rd TWN_STATE_PHASE = 1 ∧ (c.twnUnit = 0 → s'.chip.twn.toActive = true) ∧ (c.twnUnit ≠ 0 → s'.chip.twn.waitAt = some c.now)))
  ∧ (∀ (s : State) (t : Nat) (peerIn : Bool) (at_ : Nat) (c : Chip), c = s.chipAt t → c.live = true → c.twn.waitAt = some at_ →
      at_ + sec 2 ≤ c.now →
    ∃ s', Sys2Proof.Machine.exec (.unit1WaitExpiry t peerIn) s = .next s' ∧ s'.chip.twn.waitAt = none ∧ s'.chip.on TWN_STATE_PEER_IN = peerIn
      ∧ ((peerIn || (c.on TWN_PEER_PRESENT && c.rd TWN_PEER_PEER_MODE == 1)) = true → s'.chip.rd TWN_STATE_MODE = 2)
      ∧ ((peerIn || (c.on TWN_PEER_PRESENT && c.rd TWN_PEER_PEER_MODE == 1)) = false → s'.chip.twn.toActive = true))
  ∧ (∀ (s : State) (t : Nat) (c : Chip), c = s.chipAt t → c.live = true → c.on TWN_STATE_ACTIVE_OUT = true →
      c.on TWN_STATE_HANDOVER_PENDING = false →
    ∃ s', Sys2Proof.Machine.exec (.peerInConflict t) s = .next s' ∧ s'.chip.on TWN_STATE_PEER_IN = true ∧ s'.chip.on TWN_STATUS_PEER_MISMATCH = true
      ∧ (c.twnUnit = 1 → s'.chip.on TWN_STATE_ACTIVE_OUT = false ∧ s'.chip.rd TWN_STATE_MODE = 2)
      ∧ (c.twnUnit ≠ 1 → s'.chip.on TWN_STATE_ACTIVE_OUT = true ∧ s'.chip.rd TWN_STATE_MODE = c.rd TWN_STATE_MODE))
  ∧ (∀ (s : State) (t : Nat) (peerIn : Bool) (c : Chip), c = s.chipAt t → c.live = true → c.on TWN_CFG_ENABLE = true →
    ∃ s', Sys2Proof.Machine.exec (.helloSend t peerIn) s = .next s' ∧ s'.chip.on TWN_STATE_PEER_IN = peerIn
      ∧ s'.chip.sent = (if c.rd TWN_STATE_LANES_UP = 0 then []
          else [(1, [c.twn.tx.getD 1 0, c.epochNow 0, c.epochNow 1, c.role, c.twnUnit, c.helloMode, c.rd TWN_STATE_PHASE, 1, c.rd UPD_SCHEMA_RUNNING])]))
  ∧ (∀ (s : State) (t mseq : Nat) (role : BitVec 2) (unit : BitVec 1) (mode : BitVec 2) (phase : BitVec 3) (version : BitVec 8) (schema : Nat)
      (c : Chip), c = s.chipAt t → c.live = true → c.on TWN_CFG_ENABLE = true → (c.on TWN_PEER_PRESENT = false ∨ c.hears 1 mseq = true) →
    ∃ s', Sys2Proof.Machine.exec (.hello t mseq role unit mode phase version schema) s = .next s' ∧ s'.chip.on TWN_PEER_PRESENT = true
      ∧ s'.chip.rd TWN_PEER_PEER_ROLE = role.toNat ∧ s'.chip.rd TWN_PEER_PEER_UNIT = unit.toNat ∧ s'.chip.rd TWN_PEER_PEER_MODE = mode.toNat
      ∧ s'.chip.rd TWN_PEER_PEER_TWP = version.toNat ∧ s'.chip.twn.helloAt = c.now
      ∧ ((role.toNat ≠ c.role ∨ version.toNat ≠ 1) → s'.chip.on TWN_STATUS_PEER_MISMATCH = true))
  ∧ ∀ (s : State) (t : Nat) (c : Chip), c = s.chipAt t → c.live = true → c.on TWN_PEER_PRESENT = true → c.twn.helloAt + ms 10 ≤ c.now →
    ∃ s', Sys2Proof.Machine.exec (.helloTimeout t) s = .next s' ∧ s'.chip.on TWN_PEER_PRESENT = false ∧ s'.chip.twn.paired = false

/-- COMMAND in its turn on a standby in SYNC_CONFIG or beyond (R556, R580): while the firmware is not running, with room, it is held as acknowledged;
an anchor (R403) that is next in FWD_SEQ with nothing held and nothing awaited is executed, and its number recorded. ACK (R557) of the one
request that waits for it, with no step left to take: its response is written. ACK of a HANDOVER on an active part: it is committed. ACK_TIMEOUT
(R557): the peer is out of step, with cause 1, and no request waits for an ACK. DECISION in its turn on a standby: a synchroniser's decision is
kept (R209); a selection of a qualified reference is followed in PULLIN (R462); a bridge ratio is kept for its block (R486); a head's decisions
are kept (R527). MESSAGE_GAP (R553), 1 ms after a later message: the stream goes on behind that message, and a standby not faulty begins a state
copy with cause 2. -/
def Obligations.TwinForwards : Prop :=
  (∀ (s : State) (t mseq : Nat) (m : TwinCommand) (c : Chip), c = s.chipAt t → c.live = true → c.bus.outs = [] → c.hears 1 mseq = true →
      c.rd TWN_STATE_MODE = 2 → 2 ≤ c.rd TWN_STATE_PHASE → c.ready = false → c.twn.held.length < 256 →
    ∃ s', Sys2Proof.Machine.exec (.command t mseq m) s = .next s' ∧ s'.chip.twn.held = c.twn.held ++ [(m, true)])
  ∧ (∀ (s : State) (t mseq : Nat) (m : TwinCommand) (c : Chip), c = s.chipAt t → c.bus.outs = [] → c.hears 1 mseq = true →
      c.rd TWN_STATE_MODE = 2 → 3 ≤ c.rd TWN_STATE_PHASE → c.ready = true → c.mramHeld = false → c.twn.image = none → c.twn.held = [] →
      m.fwdSeq = (c.get TWN_FWD_SEQ + 1) % 2 ^ 32 → m.req.opcode = anchorOp → m.req.w 0 < 2 →
    ∃ s', Sys2Proof.Machine.exec (.command t mseq m) s = .next s' ∧ s'.chip.twn.held = [] ∧ s'.chip.get TWN_FWD_SEQ = m.fwdSeq
      ∧ s'.chip.anchored (m.req.w 0) = true)
  ∧ (∀ (s : State) (t mseq n : Nat) (w : Wait) (c : Chip), c = s.chipAt t → s.Inv → c.bus.outs = [] → c.hears 1 mseq = true → c.ready = true →
      c.fw.waits = [w] → w.ack = some n → w.journal = false → w.peer = false → w.long = none → w.hand = false → w.plan.after = .none →
      w.req.chan < 16 → w.plan.resp.payload.length ≤ 1020 → (c.fw.order.all fun o => o.1 != w.req.chan) = true →
    ∃ s', Sys2Proof.Machine.exec (.ack t mseq (some n)) s = .next s' ∧ s'.answered w.req w.plan.resp)
  ∧ (∀ (s : State) (t mseq h cause : Nat) (ok : Bool) (c : Chip), c = s.chipAt t → c.live = true → c.bus.outs = [] → c.hears 1 mseq = true →
      c.rd TWN_STATE_MODE = 1 → c.twn.handover = some (h, cause, ok) → c.fw.waits = [] →
    ∃ s', Sys2Proof.Machine.exec (.ack t mseq none) s = .next s' ∧ s'.chip.twn.handover = some (h, cause, true)
      ∧ s'.chip.on TWN_STATE_HANDOVER_PENDING = true)
  ∧ (∀ (s : State) (t n : Nat) (w : Wait) (c : Chip), c = s.chipAt t → c.bus.outs = [] → c.ready = true → c.fw.waits = [w] → w.ack = some n →
      w.plan.after = .none →
    ∃ s', Sys2Proof.Machine.exec (.ackTimeout t n) s = .next s' ∧ s'.chip.twn.peerStep = false ∧ s'.chip.rd TWN_STATE_LOST_CAUSE = 1
      ∧ s'.chip.fw.waits.all (fun w => w.ack.isNone) = true)
  ∧ (∀ (s : State) (t mseq : Nat) (x : Fin 332) (prom : Bool) (adv : Nat) (c : Chip), c = s.chipAt t → c.live = true → c.bus.outs = [] →
      c.hears 0 mseq = true → c.rd TWN_STATE_MODE = 2 →
    ∃ s', Sys2Proof.Machine.exec (.decision t mseq (.sync x.val false prom adv)) s = .next s' ∧ (s'.chip.src x.val).decision = some (prom, adv))
  ∧ (∀ (s : State) (t mseq : Nat) (q : Fin 2) (k : Fin 5) (c : Chip), c = s.chipAt t → c.live = true → c.bus.outs = [] →
      c.hears 0 mseq = true → c.rd TWN_STATE_MODE = 2 → 2 ≤ c.planeState q.val → c.selected q.val ≠ k.val →
      (c.qualified q.val).contains k.val = true →
    ∃ s', Sys2Proof.Machine.exec (.decision t mseq (.select q.val k.val)) s = .next s' ∧ s'.chip.selected q.val = k.val
      ∧ s'.chip.planeState q.val = 3)
  ∧ (∀ (s : State) (t mseq b : Nat) (r : Int) (c : Chip), c = s.chipAt t → c.live = true → c.bus.outs = [] → c.hears 0 mseq = true →
      c.rd TWN_STATE_MODE = 2 →
    ∃ s', Sys2Proof.Machine.exec (.decision t mseq (.bridge b r)) s = .next s' ∧ s'.chip.aud.ratios.lookup b = some r)
  ∧ (∀ (s : State) (t mseq : Nat) (h : Fin 4) (d : HeadDec) (c : Chip), c = s.chipAt t → c.live = true → c.bus.outs = [] →
      c.hears 0 mseq = true → c.rd TWN_STATE_MODE = 2 →
    ∃ s', Sys2Proof.Machine.exec (.decision t mseq (.head h.val d)) s = .next s' ∧ (s'.chip.head h.val).named.head? = some d)
  ∧ ∀ (s : State) (t : Nat) (k : Fin 3) (m at_ : Nat) (c : Chip), c = s.chipAt t → c.live = true →
      (((c.twn.rx.getD k.val (0, [])).2.find? fun e => e.2 + ms 1 ≤ c.now) = some (m, at_)) →
    ∃ s', Sys2Proof.Machine.exec (.messageGap t k) s = .next s' ∧ (s'.chip.twn.rx.getD k.val (0, [])).1 = m + 1
      ∧ (c.rd TWN_STATE_MODE = 2 → c.rd TWN_STATE_PHASE ≠ 7 → s'.chip.rd TWN_STATE_PHASE = 2 ∧ s'.chip.rd TWN_STATE_LOST_CAUSE = 2)

/-- Comparison of epochs by a part of a formed pair; messages in their turn. MASK on an active part (R564): kept with its epoch. CREMA_COMPUTE (R560,
R561) of the epoch before the present one, with its mask and no word yet: the word is SHA3-256 of the bytes of R561 over the CRCs of the
destinations that are offered, of this plane and not masked, and those CRCs are kept. CREMA (R562, R565) equal to the own word: the outcome is a
match, one more in MATCH_RUN, or with a mask a masked match that leaves it; unlike it: kept, with no outcome before the lists, and MATCH_RUN as
before. CREMA_MISSING (R562) 2 ms after the own word: the outcome is MISSING, and MATCH_RUN ends unless the peer is lost. CRC_LIST and EVIDENCE
(R563, R567): kept with their epoch. NO_MATCH_RESYNC (R569) on a standby not faulty after 64 epochs without a match: a state copy begins, with
cause 8, counted, and MATCH_RUN 0. -/
def Obligations.TwinCompares : Prop :=
  (∀ (s : State) (t mseq : Nat) (q : Fin 2) (e : Nat) (m : List Nat) (c : Chip), c = s.chipAt t → c.live = true → c.bus.outs = [] →
      c.hears 1 mseq = true → c.rd TWN_STATE_MODE = 1 →
    ∃ s', Sys2Proof.Machine.exec (.mask t mseq q e m) s = .next s' ∧ (s'.chip.twnRec q.val e).mask = some m)
  ∧ (∀ (s : State) (t : Nat) (q : Fin 2) (crcs : List (Nat × Nat)) (e : Nat) (m : List Nat) (aud : Nat) (kept : List (Nat × Nat)) (c : Chip),
      c = s.chipAt t → c.live = true → c.twnCompares = true → (c.plane q.val).counted = true → e = sub32 (c.epochNow q.val) 1 →
      (c.twnRec q.val e).own = none → (c.twnRec q.val e).outcome = none → (c.twnRec q.val e).mask = some m →
      aud = (if q.val = c.enginePlane then (c.twn.audCrcs.lookup e).getD 0 else 0) →
      kept = (crcs.filter fun x => dstOffered c.role x.1 && c.dstPlane x.1 == q.val && !(m.contains x.1)).map (fun x => (x.1, x.2 % 2 ^ 64)) →
    ∃ s', Sys2Proof.Machine.exec (.cremaCompute t q crcs) s = .next s'
      ∧ (s'.chip.twnRec q.val e).own = some (sha3 (cremaBytes q.val e (c.configSeq q.val e) aud m kept))
      ∧ (s'.chip.twnRec q.val e).crcs = kept)
  ∧ (∀ (s : State) (t mseq : Nat) (q : Fin 2) (e : Nat) (w m : List Nat) (c : Chip), c = s.chipAt t → c.live = true → c.bus.outs = [] →
      c.hears 1 mseq = true → c.twnCompares = true → (c.twnRec q.val e).own = some w → (c.twnRec q.val e).outcome = none →
      (c.twnRec q.val e).mask = some m →
    ∃ s', Sys2Proof.Machine.exec (.crema t mseq q e w) s = .next s' ∧ (s'.chip.twnRec q.val e).outcome = some (if m.isEmpty then 0 else 7)
      ∧ s'.chip.rd (TWN_MATCH_MATCH_RUN q.val) = (if m.isEmpty then min 255 (c.rd (TWN_MATCH_MATCH_RUN q.val) + 1) else c.rd (TWN_MATCH_MATCH_RUN q.val)))
  ∧ (∀ (s : State) (t : Nat) (q : Fin 2) (e : Nat) (w : List Nat) (c : Chip), c = s.chipAt t → c.live = true → c.twnCompares = true →
      (c.twnRec q.val e).own = some w → (c.twnRec q.val e).outcome = none → (c.twnRec q.val e).peer = none →
      (c.twnRec q.val e).ownAt + ms 2 ≤ c.now → (c.twnRec q.val e).plane = q.val → (c.twnRec q.val e).epoch = e →
    ∃ s', Sys2Proof.Machine.exec (.cremaMissing t q e) s = .next s' ∧ (s'.chip.twnRec q.val e).outcome = some 6
      ∧ s'.chip.rd (TWN_MATCH_MATCH_RUN q.val) = (if (if c.rd TWN_STATE_MODE = 2 then !(c.on TWN_STATE_PEER_IN) else !(c.on TWN_PEER_PRESENT))
          then c.rd (TWN_MATCH_MATCH_RUN q.val) else 0))
  ∧ (∀ (s : State) (t mseq : Nat) (q : Fin 2) (e : Nat) (crcs : List (Nat × Nat)) (c : Chip), c = s.chipAt t → c.live = true → c.bus.outs = [] →
      c.hears 1 mseq = true → c.twnCompares = true →
    ∃ s', Sys2Proof.Machine.exec (.crcList t mseq q e crcs) s = .next s' ∧ (s'.chip.twnRec q.val e).peerCrcs = some crcs)
  ∧ (∀ (s : State) (t mseq : Nat) (q : Fin 2) (e : Nat) (recs : List Evid) (diag : Nat) (c : Chip), c = s.chipAt t → c.live = true →
      c.bus.outs = [] → c.hears 1 mseq = true → c.twnCompares = true →
    ∃ s', Sys2Proof.Machine.exec (.evidence t mseq q e recs diag) s = .next s' ∧ (s'.chip.twnRec q.val e).peerEv = some (recs, diag))
  ∧ (∀ (s : State) (t : Nat) (q : Fin 2) (c : Chip), c = s.chipAt t → c.live = true → c.rd TWN_STATE_MODE = 2 → c.rd TWN_STATE_PHASE ≠ 7 →
      64 ≤ c.twn.noMatch.getD q.val 0 →
    ∃ s', Sys2Proof.Machine.exec (.noMatchResync t q) s = .next s' ∧ s'.chip.rd TWN_STATE_PHASE = 2 ∧ s'.chip.rd TWN_STATE_LOST_CAUSE = 8
      ∧ s'.chip.rd TWN_COUNTS_RESYNCS = min (2 ^ TWN_COUNTS_RESYNCS.w - 1) (c.rd TWN_COUNTS_RESYNCS + 1)
      ∧ s'.chip.rd (TWN_MATCH_MATCH_RUN q.val) = 0)
  ∧ ∀ (s : State) (t mseq : Nat) (q : Fin 2) (e : Nat) (w own : List Nat) (c : Chip), c = s.chipAt t → c.live = true → c.bus.outs = [] →
      c.hears 1 mseq = true → c.twnCompares = true → (c.twnRec q.val e).own = some own → own ≠ w → (c.twnRec q.val e).outcome = none →
    ∃ s', Sys2Proof.Machine.exec (.crema t mseq q e w) s = .next s' ∧ (s'.chip.twnRec q.val e).outcome = none
      ∧ (s'.chip.twnRec q.val e).peer = some w
      ∧ s'.chip.rd (TWN_MATCH_MATCH_RUN q.val) = c.rd (TWN_MATCH_MATCH_RUN q.val)

/-- TWN_SELF_FAULT (R570, R572), not yet found: its bit is set, flagged, and an active part whose peer is in step asks for a handover with cause 2,
to be FAULTY after it. TWN_PEER_LOST (R555, R572, R578) after the pin was high: it reads low, flagged; a standby with no handover under way takes
over at the next handover instant if in step, else begins a cold takeover, not ready. TWIN_LINK_LOST (R555) on a paired standby 10 ms after the
last correct block: flagged, the pair not formed, and unless faulty it begins a state copy with cause 6. HANDOVER (R572) on a standby in its
turn: an epoch commits one in step; epoch 0 cancels it and the part is FAULTY. HANDOVER_INSTANT (R571, R573) of the epoch handed over: counted,
flagged; the active part is standby, FAULTY where it relinquished for a fault, and drives no ACTIVE_OUT; the standby is active and drives it.
HANDOVER_INSTANT with a part due to be active (R550, R578): it is, flagged where it was a cold takeover. TWIN_RESTART_HOLD_EXPIRY (R580) on a
standby in step whose firmware is not running with a held change past its epoch: out of step with cause 7, flagged. COLD_TAKEOVER (R578), due, by
the running firmware: the part becomes active at the next handover instant. -/
def Obligations.TwinHandovers : Prop :=
  (∀ (s : State) (t : Nat) (b : Fin 5) (c : Chip), c = s.chipAt t → c.live = true → bit (c.get TWN_DIAG) b.val = false →
    ∃ s', Sys2Proof.Machine.exec (.twnSelfFault t b) s = .next s' ∧ bit (s'.chip.get TWN_DIAG) b.val = true ∧ s'.chip.on TWN_STATUS_SELF_FAULT = true
      ∧ (c.rd TWN_STATE_MODE = 1 → c.twn.peerStep = true → c.twn.handover = none →
          s'.chip.twn.handover = some (c.nextHandover (us 100), 2, false) ∧ s'.chip.twn.faulty = true))
  ∧ (∀ (s : State) (t : Nat) (c : Chip), c = s.chipAt t → c.live = true → c.on TWN_STATE_PEER_IN = true → c.on TWN_CFG_ENABLE = true →
    ∃ s', Sys2Proof.Machine.exec (.twnPeerLost t) s = .next s' ∧ s'.chip.on TWN_STATE_PEER_IN = false ∧ s'.chip.on TWN_STATUS_PEER_LOST = true
      ∧ (c.rd TWN_STATE_MODE = 2 → c.twn.handover = none → c.rd TWN_STATE_PHASE = 6 → s'.chip.twn.handover = some (c.nextHandover 0, 4, true))
      ∧ (c.rd TWN_STATE_MODE = 2 → c.twn.handover = none → c.rd TWN_STATE_PHASE ≠ 6 → s'.chip.twn.coldDue = true
          ∧ s'.chip.on TWN_STATUS_NOT_READY = true))
  ∧ (∀ (s : State) (t : Nat) (c : Chip), c = s.chipAt t → c.live = true → c.rd TWN_STATE_MODE = 2 → c.twn.paired = true →
      c.twn.blockAt + ms 10 ≤ c.now →
    ∃ s', Sys2Proof.Machine.exec (.twinLinkLost t) s = .next s' ∧ s'.chip.on TWN_STATUS_LINK_LOST = true ∧ s'.chip.twn.paired = false
      ∧ (c.rd TWN_STATE_PHASE ≠ 7 → s'.chip.rd TWN_STATE_PHASE = 2 ∧ s'.chip.rd TWN_STATE_LOST_CAUSE = 6))
  ∧ (∀ (s : State) (t mseq h cause : Nat) (c : Chip), c = s.chipAt t → c.live = true → c.bus.outs = [] → c.hears 1 mseq = true →
      c.rd TWN_STATE_MODE = 2 →
    ∃ s', Sys2Proof.Machine.exec (.handover t mseq h cause) s = .next s'
      ∧ (h = 0 → s'.chip.twn.handover = none ∧ s'.chip.rd TWN_STATE_PHASE = 7)
      ∧ (h ≠ 0 → c.rd TWN_STATE_PHASE = 6 → s'.chip.twn.handover = some (h, cause, true) ∧ s'.chip.on TWN_STATE_HANDOVER_PENDING = true))
  ∧ (∀ (s : State) (t cause : Nat) (ok : Bool) (c : Chip), c = s.chipAt t → c.live = true → c.fw.waits = [] →
      c.twn.handover = some (c.epochNow 0, cause, ok) →
    ∃ s', Sys2Proof.Machine.exec (.handoverInstant t) s = .next s' ∧ s'.chip.twn.handover = none ∧ s'.chip.on TWN_STATUS_HANDOVER = true
      ∧ s'.chip.rd TWN_COUNTS_HANDOVERS = min (2 ^ TWN_COUNTS_HANDOVERS.w - 1) (c.rd TWN_COUNTS_HANDOVERS + 1)
      ∧ (c.rd TWN_STATE_MODE = 1 → s'.chip.rd TWN_STATE_MODE = 2 ∧ s'.chip.on TWN_STATE_ACTIVE_OUT = false
          ∧ s'.chip.rd TWN_STATE_PHASE = (if c.twn.faulty then 7 else 6))
      ∧ (c.rd TWN_STATE_MODE ≠ 1 → s'.chip.rd TWN_STATE_MODE = 1 ∧ s'.chip.on TWN_STATE_ACTIVE_OUT = true))
  ∧ (∀ (s : State) (t : Nat) (c : Chip), c = s.chipAt t → c.live = true → c.fw.waits = [] → c.twn.handover = none → c.twn.toActive = true →
    ∃ s', Sys2Proof.Machine.exec (.handoverInstant t) s = .next s' ∧ s'.chip.rd TWN_STATE_MODE = 1 ∧ s'.chip.on TWN_STATE_ACTIVE_OUT = true
      ∧ s'.chip.twn.toActive = false ∧ (c.twn.cold.isSome = true → s'.chip.on TWN_STATUS_COLD_TAKEOVER = true))
  ∧ (∀ (s : State) (t : Nat) (c : Chip), c = s.chipAt t → c.live = true → c.rd TWN_STATE_MODE = 2 → c.rd TWN_STATE_PHASE = 6 → c.ready = false →
      (c.twn.held.any fun h => (h.1.epoch0 != 0 && c.reached 0 h.1.epoch0) || (h.1.epoch1 != 0 && c.reached 1 h.1.epoch1)) = true →
    ∃ s', Sys2Proof.Machine.exec (.twinRestartHoldExpiry t) s = .next s' ∧ s'.chip.rd TWN_STATE_PHASE = 5 ∧ s'.chip.rd TWN_STATE_LOST_CAUSE = 7
      ∧ s'.chip.on TWN_STATUS_LOST_STEP = true)
  ∧ ∀ (s : State) (t : Nat) (c : Chip), c = s.chipAt t → c.ready = true → c.twn.coldDue = true →
    ∃ s', Sys2Proof.Machine.exec (.coldTakeover t) s = .next s' ∧ s'.chip.twn.coldDue = false ∧ s'.chip.twn.toActive = true
      ∧ s'.chip.twn.cold.isSome = true

/-- RESYNC in its turn on an active part (R574): the peer is out of step, counted, and both MATCH registers are 0. STATE in its turn on a standby
(R575): in SYNC_CONFIG a configuration image is staged; in SYNC_CONFIG to IN_STEP a graphic buffer is taken whole; in SYNC_STATE or AUDIO an
audio image gives filters, limiters and phase, and the phase is AUDIO. SYNC_CONFIG_DONE (R575, R628) by the running firmware, no write of MRAM
held, of an image whose changes all wait for a plane's boundary: what was staged is used up; converted, and of a schema this firmware has, the
phase is SYNC_STATE with the image's FWD_SEQ, settings and history; else the phase is 1 again, flagged as refused. SYNC_AUDIO_DONE (R576) in
phase AUDIO: IN_STEP where every plane with a format has 16 matches, else CATCH_UP. -/
def Obligations.TwinCopies : Prop :=
  (∀ (s : State) (t mseq cause : Nat) (c : Chip), c = s.chipAt t → c.live = true → c.bus.outs = [] → c.hears 1 mseq = true →
      c.rd TWN_STATE_MODE = 1 →
    ∃ s', Sys2Proof.Machine.exec (.resync t mseq cause) s = .next s' ∧ s'.chip.twn.peerStep = false
      ∧ s'.chip.rd TWN_COUNTS_RESYNCS = min (2 ^ TWN_COUNTS_RESYNCS.w - 1) (c.rd TWN_COUNTS_RESYNCS + 1)
      ∧ s'.chip.get (TWN_MATCH 0) = 0 ∧ s'.chip.get (TWN_MATCH 1) = 0)
  ∧ (∀ (s : State) (t mseq : Nat) (i : ConfigImage) (c : Chip), c = s.chipAt t → c.live = true → c.bus.outs = [] → c.hears 2 mseq = true →
      c.rd TWN_STATE_MODE = 2 → c.rd TWN_STATE_PHASE = 2 →
    ∃ s', Sys2Proof.Machine.exec (.state t mseq (.config i)) s = .next s' ∧ s'.chip.twn.staged = some (i, c.now) ∧ s'.chip.rd TWN_STATE_PHASE = 2)
  ∧ (∀ (s : State) (t mseq : Nat) (h l : Fin 4) (b : Fin 2) (px : List (Nat × Nat)) (c : Chip), c = s.chipAt t → c.live = true → c.bus.outs = [] →
      c.hears 2 mseq = true → c.rd TWN_STATE_MODE = 2 → 2 ≤ c.rd TWN_STATE_PHASE → c.rd TWN_STATE_PHASE ≤ 6 →
    ∃ s', Sys2Proof.Machine.exec (.state t mseq (.graphic h.val l.val b.val px)) s = .next s'
      ∧ (if b.val = 0 then ((s'.chip.head h.val).gl l.val).buf0 else ((s'.chip.head h.val).gl l.val).buf1) = px)
  ∧ (∀ (s : State) (t mseq : Nat) (i : AudImage) (c : Chip), c = s.chipAt t → c.live = true → c.bus.outs = [] → c.hears 2 mseq = true →
      c.rd TWN_STATE_MODE = 2 → (c.rd TWN_STATE_PHASE = 3 ∨ c.rd TWN_STATE_PHASE = 4) →
    ∃ s', Sys2Proof.Machine.exec (.state t mseq (.audio i)) s = .next s' ∧ s'.chip.rd TWN_STATE_PHASE = 4 ∧ s'.chip.aud.filts = i.filts
      ∧ s'.chip.aud.lims = i.lims ∧ s'.chip.aud.phase = i.phase)
  ∧ (∀ (s : State) (t at_ : Nat) (conv : Bool) (i : ConfigImage) (c : Chip), c = s.chipAt t → c.ready = true → c.mramHeld = false →
      c.rd TWN_STATE_MODE = 2 → c.rd TWN_STATE_PHASE = 2 → c.twn.staged = some (i, at_) →
      ((c.imageChanges i).all fun x => x.kind.loadsLater false) = true →
    ∃ s', Sys2Proof.Machine.exec (.syncConfigDone t conv) s = .next s' ∧ s'.chip.twn.staged = none
      ∧ ((conv = true ∧ c.twn.peerSchema ≤ c.rd UPD_SCHEMA_RUNNING) → s'.chip.rd TWN_STATE_PHASE = 3
          ∧ s'.chip.get TWN_FWD_SEQ = i.fwdSeq % 2 ^ 32 ∧ s'.chip.fw.running = i.entries ∧ s'.chip.fw.hist = i.hist)
      ∧ ((conv = false ∨ c.rd UPD_SCHEMA_RUNNING < c.twn.peerSchema) → s'.chip.rd TWN_STATE_PHASE = 1
          ∧ s'.chip.on SEC_STATUS_SCHEMA_REFUSED = true))
  ∧ ∀ (s : State) (t : Nat) (c : Chip), c = s.chipAt t → c.live = true → c.rd TWN_STATE_MODE = 2 → c.rd TWN_STATE_PHASE = 4 →
    ∃ s', Sys2Proof.Machine.exec (.syncAudioDone t) s = .next s'
      ∧ s'.chip.rd TWN_STATE_PHASE = (if (!c.twnPlanes.isEmpty && c.twnPlanes.all fun q => 16 ≤ c.rd (TWN_MATCH_MATCH_RUN q)) then 6 else 5)

/-- BUS_ACCESS with no access outstanding and no lock, of an accepted shape. One that earns an error is answered with it, flagged, counted, and as a
firewall error flagged so (R591, R592). A read of boot ROM, MRAM, SRAM, flash or DRAM is answered with the bytes that stand there, in ROM, SRAM
and flash those of addressed memory, and leaves memory (R588, R589); a write of MRAM, SRAM or DRAM after no broken lock is answered, and, where
it touches no copy of the update record, its bytes stand there, held as what they differ by from the sweep pattern and a store slot (R252, R226),
and the rest of memory is as it was. A read of a register is answered with its value. An access of the aperture that it does not map waits
without a response, flagged (R594). LOCKED_SEQUENCE (R596): a locked read is answered with the bytes and opens the lock of its target. -/
def Obligations.BusAccesses : Prop :=
  (∀ (s : State) (t : Nat) (a : BusAcc) (kind : Nat) (c : Chip), c = s.chipAt t → c.live = true → c.bus.outs = [] → c.bus.locks = [] → c.busAccepts a = true →
      c.aptHangs a = false → c.busKind a false = kind → kind ≠ 0 →
    ∃ s', Sys2Proof.Machine.exec (.busAccess t a) s = .next s' ∧ s'.chip.bus.resps = [(a.m, a.id, kind, [])] ∧ s'.chip.bus.outs = []
      ∧ s'.chip.on BUS_STATUS_ERR = true ∧ (kind = 1 → s'.chip.on BUS_STATUS_FIREWALL = true)
      ∧ s'.chip.rd (BUS_MST_ERR_COUNT a.m) = min (2 ^ (BUS_MST_ERR_COUNT a.m).w - 1) (c.rd (BUS_MST_ERR_COUNT a.m) + 1))
  ∧ (∀ (s : State) (t : Nat) (a : BusAcc) (c : Chip), c = s.chipAt t → s.Inv → c.live = true → c.bus.outs = [] → c.bus.locks = [] → c.busAccepts a = true →
      c.busKind a false = 0 → c.aptHangs a = false → busRegion a.addr ∈ [some 2, some 3, some 4, some 6, some 7] → a.write = false →
    ∃ s', Sys2Proof.Machine.exec (.busAccess t a) s = .next s'
      ∧ s'.chip.bus.resps = [(a.m, a.id, 0, (List.range a.len).map fun i => c.busByte (c.memNow s.mem) (a.addr + i))] ∧ s'.chip.bus.outs = []
      ∧ (∀ x, s'.mem.read x = (c.memNow s.mem).read x)
      ∧ (busRegion a.addr ∈ [some 2, some 4, some 6] →
          s'.chip.bus.resps = [(a.m, a.id, 0, (List.range a.len).map fun i => (s'.mem.read (a.addr + i)).toNat)]))
  ∧ (∀ (s : State) (t : Nat) (a : BusAcc) (c : Chip), c = s.chipAt t → s.Inv → c.live = true → c.bus.outs = [] → c.bus.locks = [] → c.bus.broken = [] →
      c.busAccepts a = true → c.busKind a false = 0 → busRegion a.addr ∈ [some 3, some 4, some 7] → a.write = true → a.data.length = a.len →
    ∃ s', Sys2Proof.Machine.exec (.busAccess t a) s = .next s' ∧ s'.chip.bus.resps = [(a.m, a.id, 0, [])] ∧ s'.chip.bus.outs = []
      ∧ (recHit a.addr a.len = none → (List.range a.len).all (fun i => s'.mem.read (a.addr + i)
          == BitVec.ofNat 8 (a.data.getD i 0 % 256 ^^^ sweepByte (a.addr + i) ^^^ c.slotByte (a.addr + i))) = true)
      ∧ (busRegion a.addr = some 4 → (List.range a.len).all (fun i => s'.mem.read (a.addr + i) == BitVec.ofNat 8 (a.data.getD i 0)) = true)
      ∧ (recHit a.addr a.len = none → ∀ x, x < a.addr ∨ a.addr + a.len ≤ x → s'.mem.read x = (c.memNow s.mem).read x))
  ∧ (∀ (s : State) (t : Nat) (a : BusAcc) (c : Chip), c = s.chipAt t → c.live = true → c.bus.outs = [] → c.bus.locks = [] → c.busAccepts a = true →
      c.busKind a false = 0 → busRegion a.addr = some 0 → a.write = false →
    ∃ s', Sys2Proof.Machine.exec (.busAccess t a) s = .next s'
      ∧ s'.chip.bus.resps = [(a.m, a.id, 0, (wordBytes (c.readReg a.addr)).map BitVec.toNat)] ∧ s'.chip.bus.outs = [])
  ∧ (∀ (s : State) (t : Nat) (a : BusAcc) (c : Chip), c = s.chipAt t → c.live = true → c.busAccepts a = true → c.bus.outs = [] → c.aptHangs a = true →
    ∃ s', Sys2Proof.Machine.exec (.busAccess t a) s = .next s' ∧ s'.chip.bus.resps = [] ∧ s'.chip.bus.outs = [⟨a, false, c.now, true⟩]
      ∧ s'.chip.on BUS_STATUS_APT_HANG = true ∧ s'.chip.rd (BUS_MST_STAT_OUTSTANDING a.m) = 1)
  ∧ ∀ (s : State) (t : Nat) (a : BusAcc) (r : Nat) (c : Chip), c = s.chipAt t → s.Inv → c.live = true → c.bus.outs = [] → c.bus.locks = [] → c.busAccepts a = true →
      a.write = false → busRegion a.addr = some r → c.busKind a true = 0 →
    ∃ s', Sys2Proof.Machine.exec (.lockedSequence t a) s = .next s'
      ∧ s'.chip.bus.locks = [⟨r, a.m, a.id, a.addr / 16, a.beats, c.now⟩] ∧ s'.chip.on (BUS_MST_STAT_LOCKED a.m) = true
      ∧ s'.chip.bus.resps = [(a.m, a.id, 0, (List.range a.len).map fun i => c.busByte (c.memNow s.mem) (a.addr + i))] ∧ s'.chip.bus.outs = []

/-- BUS_TIMEOUT (R595, R598) of the one transaction outstanding, 1 ms after it: answered with the watchdog's error, flagged and counted, none
outstanding. BUS_LOCK_BREAK (R597) of the one lock, of SRAM or DRAM, 2 us old: broken, flagged and counted. BUS_MASTER_ABORT (R598) of the port
with the one transaction outstanding: none outstanding, no response, flagged and counted. LOCKED (R592): the firewall is locked and no other
register changes. FREEZE (R601): PMC_CTL reads as written, and frozen counters do not run. PMC_COUNTER_WRAP (R601) of the cycle counter or an
event counter that counts: its OVF bit and the OVF flag are set, and an event counter reads 0. PMC_SAMPLE (R602) of the kind selected: below 256
it is recorded in the next place, the 256th flagged as full; beyond, counted as lost. SMP_CLEAR (R602): fill, lost count and buffer read 0, and
SMP_CTL as written. NME_TAG (R603): below 64 it is recorded in the next place, the 64th flagged as full; beyond, counted as lost. NME_CLEAR
(R603): fill, lost count and tags read 0, and MEAN_LOG2 as written where it is 8 to 24. -/
def Obligations.BusAndCounters : Prop :=
  ((∀ (s : State) (t : Nat) (m : Fin 10) (id : Fin 16) (o : BusOut) (c : Chip), c = s.chipAt t → c.live = true → c.bus.outs = [o] → o.acc.m = m.val →
      o.acc.id = id.val → o.at_ + us 999 ≤ c.now →
    ∃ s', Sys2Proof.Machine.exec (.busTimeout t m id) s = .next s' ∧ s'.chip.bus.outs = [] ∧ s'.chip.bus.resps = [(m.val, id.val, 5, [])]
      ∧ s'.chip.on BUS_STATUS_WDOG_TIMEOUT = true ∧ s'.chip.on BUS_STATUS_ERR = true
      ∧ s'.chip.rd BUS_WDOG_COUNT_COUNT = min (2 ^ BUS_WDOG_COUNT_COUNT.w - 1) (c.rd BUS_WDOG_COUNT_COUNT + 1)
      ∧ s'.chip.rd (BUS_MST_ERR_COUNT m.val) = min (2 ^ (BUS_MST_ERR_COUNT m.val).w - 1) (c.rd (BUS_MST_ERR_COUNT m.val) + 1))
  ∧ (∀ (s : State) (t : Nat) (g : Fin 2) (l : BusLock) (c : Chip), c = s.chipAt t → c.live = true → c.bus.outs = [] → c.bus.locks = [l] →
      l.target = (if g.val = 0 then 4 else 7) → l.since + us 2 ≤ c.now →
    ∃ s', Sys2Proof.Machine.exec (.busLockBreak t g) s = .next s' ∧ s'.chip.bus.locks = []
      ∧ s'.chip.bus.broken = c.bus.broken ++ [(l.m, l.id, l.loc)] ∧ s'.chip.on BUS_STATUS_LOCK_BREAK = true
      ∧ s'.chip.rd BUS_LOCK_BREAKS_COUNT = min (2 ^ BUS_LOCK_BREAKS_COUNT.w - 1) (c.rd BUS_LOCK_BREAKS_COUNT + 1))
  ∧ (∀ (s : State) (t : Nat) (g : Fin 2) (o : BusOut) (c : Chip), c = s.chipAt t → c.live = true → c.bus.outs = [o] → o.acc.m = 5 + g.val →
    ∃ s', Sys2Proof.Machine.exec (.busMasterAbort t g) s = .next s' ∧ s'.chip.bus.outs = [] ∧ s'.chip.bus.resps = []
      ∧ s'.chip.on BUS_STATUS_MASTER_ABORT = true
      ∧ s'.chip.rd (BUS_MASTER_ABORT_COUNT (5 + g.val)) = min (2 ^ (BUS_MASTER_ABORT_COUNT (5 + g.val)).w - 1) (c.rd (BUS_MASTER_ABORT_COUNT (5 + g.val)) + 1))
  ∧ ∀ (s : State) (t : Nat) (c : Chip), c = s.chipAt t → c.live = true →
    ∃ s', Sys2Proof.Machine.exec (.locked t) s = .next s' ∧ s'.chip.on BUS_FW_LOCK_LOCKED = true
      ∧ (∀ r : Reg, r.off ≠ BUS_FW_LOCK.off → s'.chip.get r = c.get r))
  ∧ ((∀ (s : State) (t : Nat) (user freeze : Bool) (c : Chip), c = s.chipAt t → c.live = true →
    ∃ s', Sys2Proof.Machine.exec (.freeze t user freeze) s = .next s' ∧ s'.chip.on PMC_CTL_FREEZE = freeze ∧ s'.chip.on PMC_CTL_USER_EN = user
      ∧ (freeze = true → s'.chip.pmcRuns = false))
  ∧ (∀ (s : State) (t : Nat) (core : Fin 4) (k : Fin 9) (c : Chip), c = s.chipAt t → c.live = true → c.pmcRuns = true →
      (k.val = 8 ∨ selCounts (c.get (PMC_EVSEL core.val k.val)) = true) →
    ∃ s', Sys2Proof.Machine.exec (.pmcCounterWrap t core k) s = .next s' ∧ bit (s'.chip.rd (PMC_OVF_OVF core.val)) k.val = true
      ∧ s'.chip.on PMC_STATUS_OVF = true ∧ (k.val < 8 → s'.chip.get (PMC_CNT core.val k.val) = 0))
  ∧ (∀ (s : State) (t : Nat) (core : Fin 4) (addr data : Word) (lat n : Nat) (kind : Fin 3) (user err : Bool) (c : Chip), c = s.chipAt t → c.live = true →
      c.on (PMC_SMP_CTL_ENABLE core.val) = true → c.rd (PMC_SMP_CTL_KIND core.val) = kind.val → c.rd (PMC_SMP_STAT_FILL core.val) = n → n < 256 →
    ∃ s', Sys2Proof.Machine.exec (.pmcSample t core addr data lat kind user err) s = .next s' ∧ s'.chip.rd (PMC_SMP_STAT_FILL core.val) = n + 1
      ∧ s'.chip.get (PMC_SMP_BUF core.val n 0) = addr.toNat ∧ s'.chip.get (PMC_SMP_BUF core.val n 1) = (if kind.val = 0 then 0 else data.toNat)
      ∧ s'.chip.get (PMC_SMP_BUF core.val n 2) = min lat 0xFFFF + kind.val * 2 ^ 16 + b2n user * 2 ^ 18 + b2n err * 2 ^ 19
      ∧ (n = 255 → s'.chip.on PMC_STATUS_SMP_FULL = true))
  ∧ (∀ (s : State) (t : Nat) (core : Fin 4) (addr data : Word) (lat : Nat) (kind : Fin 3) (user err : Bool) (c : Chip), c = s.chipAt t → c.live = true →
      c.on (PMC_SMP_CTL_ENABLE core.val) = true → c.rd (PMC_SMP_CTL_KIND core.val) = kind.val → 256 ≤ c.rd (PMC_SMP_STAT_FILL core.val) →
    ∃ s', Sys2Proof.Machine.exec (.pmcSample t core addr data lat kind user err) s = .next s'
      ∧ s'.chip.rd (PMC_SMP_LOST_COUNT core.val) = min (2 ^ (PMC_SMP_LOST_COUNT core.val).w - 1) (c.rd (PMC_SMP_LOST_COUNT core.val) + 1)
      ∧ s'.chip.rd (PMC_SMP_STAT_FILL core.val) = c.rd (PMC_SMP_STAT_FILL core.val))
  ∧ (∀ (s : State) (t : Nat) (core : Fin 4) (w : Word) (n : Fin 256) (k : Fin 4) (c : Chip), c = s.chipAt t → c.live = true →
    ∃ s', Sys2Proof.Machine.exec (.smpClear t core w) s = .next s' ∧ s'.chip.get (PMC_SMP_STAT core.val) = 0 ∧ s'.chip.get (PMC_SMP_LOST core.val) = 0
      ∧ s'.chip.get (PMC_SMP_BUF core.val n.val k.val) = 0 ∧ s'.chip.get (PMC_SMP_CTL core.val) = w.toNat &&& 0xFFFF0007)
  ∧ (∀ (s : State) (t : Nat) (engine : Fin 16) (pc : BitVec 16) (lat wait n : Nat) (flow : Option (Fin 112)) (c : Chip), c = s.chipAt t → c.live = true →
      c.on PMC_NME_CTL_ENABLE = true → c.rd PMC_NME_STAT_FILL = n → n < 64 →
    ∃ s', Sys2Proof.Machine.exec (.nmeTag t engine pc lat wait flow) s = .next s' ∧ s'.chip.rd PMC_NME_STAT_FILL = n + 1
      ∧ s'.chip.get (PMC_NME_TAG n 0) = engine.val + pc.toNat * 2 ^ 16
      ∧ s'.chip.get (PMC_NME_TAG n 1) = min lat 0xFFFF + min wait 0xFFFF * 2 ^ 16
      ∧ s'.chip.get (PMC_NME_TAG n 2) = (flow.map Fin.val).getD 0x7F ∧ s'.chip.get (PMC_NME_TAG n 3) = c.systime
      ∧ (n = 63 → s'.chip.on PMC_STATUS_NME_FULL = true))
  ∧ (∀ (s : State) (t : Nat) (engine : Fin 16) (pc : BitVec 16) (lat wait : Nat) (flow : Option (Fin 112)) (c : Chip), c = s.chipAt t → c.live = true →
      c.on PMC_NME_CTL_ENABLE = true → 64 ≤ c.rd PMC_NME_STAT_FILL →
    ∃ s', Sys2Proof.Machine.exec (.nmeTag t engine pc lat wait flow) s = .next s'
      ∧ s'.chip.rd PMC_NME_LOST_COUNT = min (2 ^ PMC_NME_LOST_COUNT.w - 1) (c.rd PMC_NME_LOST_COUNT + 1)
      ∧ s'.chip.rd PMC_NME_STAT_FILL = c.rd PMC_NME_STAT_FILL)
  ∧ ∀ (s : State) (t : Nat) (w : Word) (n : Fin 64) (k : Fin 4) (c : Chip), c = s.chipAt t → c.live = true →
    ∃ s', Sys2Proof.Machine.exec (.nmeClear t w) s = .next s' ∧ s'.chip.get PMC_NME_STAT = 0 ∧ s'.chip.get PMC_NME_LOST = 0
      ∧ s'.chip.get (PMC_NME_TAG n.val k.val) = 0
      ∧ (8 ≤ bits w.toNat 2 6 → bits w.toNat 2 6 ≤ 24 → s'.chip.rd PMC_NME_CTL_MEAN_LOG2 = bits w.toNat 2 6))

/-- UPD_SELF_CHECK (R624) where the checks pass: without automatic confirmation, or with MRAM writes held, the health window starts and the record
stays; with it the trial ends in this bank, its journal area confirmed. Where they fail, SELF_CHECK_TIMEOUT (R624) after 60 s, and HEALTH_EXPIRED
(R624, R633) with no confirmation waiting from before it: the firmware restarts, with the cause and the flag of each. SERDES_LANE_RESTART (R629),
the lane before it done: the next lane of the roll-out restarts, an SDI transmitter OFF. SERDES_DONE, none left: the roll-out ends.
MICROCODE_SWITCH (R629): the engine has nothing left to switch to, and no register changes. -/
def Obligations.TrialAndRollout : Prop :=
  (∀ (s : State) (t : Nat) (c : Chip), c = s.chipAt t → c.checks = some true → c.bus.outs = [] → (c.updRec.auto = false ∨ c.mramHeld = true) →
    ∃ s', Sys2Proof.Machine.exec (.updSelfCheck t) s = .next s' ∧ s'.chip.on UPD_STATE_SELF_CHECK_PASSED = true ∧ s'.chip.upd.checked = true
      ∧ s'.chip.upd.healthEnd = some (c.now + sec c.updRec.health) ∧ s'.chip.updRec = c.updRec)
  ∧ (∀ (s : State) (t : Nat) (c : Chip), c = s.chipAt t → c.checks = some true → c.bus.outs = [] → c.updRec.auto = true → c.mramHeld = false →
      c.updRec.trial = true →
    ∃ s', Sys2Proof.Machine.exec (.updSelfCheck t) s = .next s' ∧ s'.chip.on UPD_STATE_SELF_CHECK_PASSED = true ∧ s'.chip.updRec.trial = false
      ∧ s'.chip.upd.healthEnd = none ∧ s'.chip.updRec.area = 1 - c.updRec.area)
  ∧ (∀ (s : State) (t : Nat) (c : Chip), c = s.chipAt t → c.checks = some false → c.bus.outs = [] →
    ∃ s', Sys2Proof.Machine.exec (.updSelfCheck t) s = .next s' ∧ s'.chip.on TOP_RESET_CAUSE_FWR = true ∧ s'.chip.ready = false
      ∧ s'.chip.on SEC_STATUS_SELF_CHECK_FAIL = true)
  ∧ (∀ (s : State) (t : Nat) (c : Chip), c = s.chipAt t → c.ready = true → c.upd.trialBoot = true → c.upd.checked = false →
      c.upd.readyAt + sec 60 ≤ c.now → c.bus.outs = [] →
    ∃ s', Sys2Proof.Machine.exec (.selfCheckTimeout t) s = .next s' ∧ s'.chip.on TOP_RESET_CAUSE_FWR = true ∧ s'.chip.ready = false
      ∧ s'.chip.on SEC_STATUS_SELF_CHECK_FAIL = true)
  ∧ (∀ (s : State) (t : Nat) (e : Nat) (c : Chip), c = s.chipAt t → c.ready = true → c.upd.trialBoot = true → c.upd.healthEnd = some e →
      e ≤ c.now → c.fw.waits.any (fun w => w.req.opcode == 0x1183 && w.since < e) = false → c.bus.outs = [] →
    ∃ s', Sys2Proof.Machine.exec (.healthExpired t) s = .next s' ∧ s'.chip.on TOP_RESET_CAUSE_FWR = true ∧ s'.chip.ready = false
      ∧ s'.chip.on SEC_STATUS_HEALTH_EXPIRED = true)
  ∧ (∀ (s : State) (t : Nat) (kind n : Nat) (rest : List (Nat × Nat)) (c : Chip), c = s.chipAt t → c.ready = true → c.upd.rollout = (kind, n) :: rest →
      c.restartDone = true →
    ∃ s', Sys2Proof.Machine.exec (.serdesLaneRestart t) s = .next s' ∧ s'.chip.upd.rollout = rest ∧ s'.chip.upd.restart = some (kind, n, c.now)
      ∧ s'.chip.upd.done = c.upd.done + 1 ∧ (kind = 0 → s'.chip.rd (SDI_TX_STAT_STATE n) = 0 ∧ s'.chip.rd (SDI_TX_STAT_RATE n) = 0))
  ∧ (∀ (s : State) (t : Nat) (c : Chip), c = s.chipAt t → c.ready = true → c.on UPD_STATE_SERDES_ROLLOUT = true → c.upd.rollout = [] →
      c.restartDone = true →
    ∃ s', Sys2Proof.Machine.exec (.serdesDone t) s = .next s' ∧ s'.chip.on UPD_STATE_SERDES_ROLLOUT = false ∧ s'.chip.upd.restart = none)
  ∧ ∀ (s : State) (t : Nat) (k : Fin 3) (c : Chip), c = s.chipAt t → c.live = true →
    ∃ s', Sys2Proof.Machine.exec (.microcodeSwitch t k) s = .next s'
      ∧ s'.chip.upd.toSwitch = c.upd.toSwitch.filter (fun x => x != [2, 4, 5].getD k.val 2) ∧ s'.chip.regs = c.regs

end
end

