-- ==== Sys2Proof/Laws/Memory.lean ====
section
/-! SUPPORT. The laws of addressed memory: a byte written reads back, every other byte is kept, and every operation keeps the canonical
form. -/

namespace Sys2Proof.Machine

/-- The canonical form said of the list as a whole. -/
theorem Memory.wf_iff (m : Memory) :
    Memory.wf m = true ↔ m.Pairwise (fun p q => p.1 < q.1) ∧ ∀ p ∈ m, p.2 ≠ 0 := by
  induction m with
  | nil => simp [Memory.wf]
  | cons p m ih =>
    obtain ⟨a, v⟩ := p
    cases m with
    | nil => simp [Memory.wf]
    | cons q m =>
      obtain ⟨b, w⟩ := q
      simp only [Memory.wf, Bool.and_eq_true, bne_iff_ne, ne_eq, decide_eq_true_eq, ih]
      constructor
      · rintro ⟨⟨hv, hab⟩, hp, hz⟩
        refine ⟨List.pairwise_cons.2 ⟨?_, hp⟩, ?_⟩
        · intro r hr
          rcases List.mem_cons.1 hr with rfl | hr
          · exact hab
          · exact lt_trans hab ((List.pairwise_cons.1 hp).1 r hr)
        · intro r hr
          rcases List.mem_cons.1 hr with rfl | hr
          · exact hv
          · exact hz r hr
      · rintro ⟨hp, hz⟩
        exact ⟨⟨hz (a, v) (by simp), (List.pairwise_cons.1 hp).1 (b, w) (by simp)⟩, (List.pairwise_cons.1 hp).2,
          fun r hr => hz r (List.mem_cons_of_mem _ hr)⟩

theorem Memory.wf_tail {p : Host.Cell} {m : Memory} (h : Memory.wf (p :: m) = true) : Memory.wf m = true := by
  rw [Memory.wf_iff] at h ⊢
  exact ⟨(List.pairwise_cons.1 h.1).2, fun q hq => h.2 q (List.mem_cons_of_mem _ hq)⟩

theorem Memory.wf_head_lt {p : Host.Cell} {m : Memory} (h : Memory.wf (p :: m) = true) : ∀ q ∈ m, p.1 < q.1 :=
  (List.pairwise_cons.1 ((Memory.wf_iff _).1 h).1).1

/-- A listed entry after a write is the entry written or one listed before. -/
theorem Memory.mem_write {m : Memory} {x : Nat} {v : Byte} {p : Host.Cell} (h : p ∈ m.write x v) : p = (x, v) ∧ v ≠ 0 ∨ p ∈ m := by
  induction m with
  | nil =>
    simp only [Memory.write] at h
    split at h
    · simp at h
    · left; simp_all
  | cons q m ih =>
    obtain ⟨a, w⟩ := q
    simp only [Memory.write] at h
    split at h
    · split at h
      · exact .inr (List.mem_cons_of_mem _ h)
      · rcases List.mem_cons.1 h with rfl | h
        · left; simp_all
        · exact .inr (List.mem_cons_of_mem _ h)
    · split at h
      · split at h
        · exact .inr h
        · rcases List.mem_cons.1 h with rfl | h
          · left; simp_all
          · exact .inr h
      · rcases List.mem_cons.1 h with rfl | h
        · exact .inr (by simp)
        · rcases ih h with h | h
          · exact .inl h
          · exact .inr (List.mem_cons_of_mem _ h)

/-- Writing a byte keeps the canonical form. -/
theorem Memory.write_wf (m : Memory) (x : Nat) (v : Byte) (h : m.wf = true) : (m.write x v).wf = true := by
  induction m with
  | nil =>
    simp only [Memory.write]
    split
    · rfl
    · simp_all [Memory.wf]
  | cons q m ih =>
    obtain ⟨a, w⟩ := q
    have ht := Memory.wf_tail h
    have hlt := Memory.wf_head_lt h
    have hz := ((Memory.wf_iff _).1 h).2
    simp only [Memory.write]
    split
    · rename_i hax
      subst hax
      split
      · exact ht
      · rw [Memory.wf_iff]
        refine ⟨List.pairwise_cons.2 ⟨hlt, ((Memory.wf_iff _).1 ht).1⟩, ?_⟩
        intro p hp
        rcases List.mem_cons.1 hp with rfl | hp
        · assumption
        · exact hz p (List.mem_cons_of_mem _ hp)
    · split
      · split
        · exact h
        · rw [Memory.wf_iff]
          refine ⟨List.pairwise_cons.2 ⟨?_, ((Memory.wf_iff _).1 h).1⟩, ?_⟩
          · intro p hp
            rcases List.mem_cons.1 hp with rfl | hp
            · assumption
            · exact lt_trans (by assumption) (hlt p hp)
          · intro p hp
            rcases List.mem_cons.1 hp with rfl | hp
            · assumption
            · exact hz p hp
      · have hi := ih ht
        rw [Memory.wf_iff]
        refine ⟨List.pairwise_cons.2 ⟨?_, ((Memory.wf_iff _).1 hi).1⟩, ?_⟩
        · intro p hp
          rcases Memory.mem_write hp with ⟨rfl, _⟩ | hp
          · change a < x
            omega
          · exact hlt p hp
        · intro p hp
          rcases List.mem_cons.1 hp with rfl | hp
          · exact hz _ (by simp)
          · exact ((Memory.wf_iff _).1 hi).2 p hp

theorem Memory.writeBytes_wf (m : Memory) (x : Nat) (bs : List Byte) (h : m.wf = true) : (m.writeBytes x bs).wf = true := by
  induction bs generalizing m x with
  | nil => exact h
  | cons b bs ih => exact ih _ _ (Memory.write_wf m x b h)

/-- Dropping entries keeps the canonical form. -/
theorem Memory.filter_wf (m : Memory) (p : Host.Cell → Bool) (h : m.wf = true) : Memory.wf (m.filter p) = true := by
  rw [Memory.wf_iff] at h ⊢
  exact ⟨h.1.filter p, fun q hq => h.2 q (List.mem_of_mem_filter hq)⟩

/-- Every write of the chip keeps the canonical form. -/
theorem Memory.apply_wf (m : Memory) (o : MemOp) (h : m.wf = true) : (m.apply o).wf = true := by
  cases o with
  | words x ws => exact Memory.writeBytes_wf _ _ _ h
  | bytes x bs => exact Memory.writeBytes_wf _ _ _ h
  | clear x n => exact Memory.filter_wf _ _ h
  | clearChan n => exact Memory.filter_wf _ _ h
  | sweepRows n => exact Memory.filter_wf _ _ h

theorem Memory.applyAll_wf (m : Memory) (os : List MemOp) (h : m.wf = true) : (os.foldl Memory.apply m).wf = true := by
  induction os generalizing m with
  | nil => exact h
  | cons o os ih => exact ih _ (Memory.apply_wf m o h)

/-! ### Reading -/

/-- Every listed address at or below which nothing lies reads as 0. -/
theorem Memory.read_below {m : Memory} {x : Nat} (h : ∀ q ∈ m, x < q.1) : m.read x = 0 := by
  cases m with
  | nil => rfl
  | cons q m =>
    obtain ⟨a, w⟩ := q
    have hx : x < a := h (a, w) (by simp)
    have hne : a ≠ x := by omega
    simp [Memory.read, hx, hne]

/-- A byte written reads back. -/
theorem Memory.read_write_same (m : Memory) (x : Nat) (v : Byte) (h : m.wf = true) : (m.write x v).read x = v := by
  induction m with
  | nil =>
    simp only [Memory.write]
    split <;> simp_all [Memory.read]
  | cons q m ih =>
    obtain ⟨a, w⟩ := q
    have hlt := Memory.wf_head_lt h
    simp only [Memory.write]
    split
    · rename_i hax
      subst hax
      split
      · rw [Memory.read_below hlt]; simp_all
      · simp [Memory.read]
    · split
      · split
        · rename_i hax hxa hv
          simp [Memory.read, hax, hxa, hv]
        · simp [Memory.read]
      · rename_i hax hxa
        simp only [Memory.read, hax, hxa, if_false]
        exact ih (Memory.wf_tail h)

/-- A byte written leaves every other address as it was. -/
theorem Memory.read_write_other (m : Memory) (x y : Nat) (v : Byte) (h : m.wf = true) (hxy : x ≠ y) :
    (m.write x v).read y = m.read y := by
  induction m with
  | nil =>
    simp only [Memory.write]
    split <;> simp [Memory.read, hxy]
  | cons q m ih =>
    obtain ⟨a, w⟩ := q
    have hlt := Memory.wf_head_lt h
    simp only [Memory.write]
    split
    · rename_i hax
      subst hax
      split
      · by_cases hy : y < a
        · have hall : ∀ q ∈ m, y < q.1 := fun q hq => lt_trans hy (hlt q hq)
          rw [Memory.read_below hall]
          simp [Memory.read, hxy, hy]
        · simp [Memory.read, hxy, hy]
      · simp [Memory.read, hxy]
    · split
      · split
        · rfl
        · by_cases hy : y < x
          · have : y < a := by omega
            have hne : a ≠ y := by omega
            simp [Memory.read, hxy, hy, this, hne]
          · simp [Memory.read, hxy, hy]
      · simp only [Memory.read]
        rw [ih (Memory.wf_tail h)]

theorem Memory.read_writeBytes_other (m : Memory) (x y : Nat) (bs : List Byte) (h : m.wf = true) (hy : y < x ∨ x + bs.length ≤ y) :
    (m.writeBytes x bs).read y = m.read y := by
  induction bs generalizing m x with
  | nil => rfl
  | cons b bs ih =>
    simp only [List.length_cons] at hy
    rw [Memory.writeBytes, ih (m.write x b) (x + 1) (Memory.write_wf m x b h) (by omega)]
    exact Memory.read_write_other m x y b h (by omega)

/-- A run of bytes written reads back. -/
theorem Memory.read_writeBytes_same (m : Memory) (x k : Nat) (bs : List Byte) (h : m.wf = true) (hk : k < bs.length) :
    (m.writeBytes x bs).read (x + k) = bs[k] := by
  induction bs generalizing m x k with
  | nil => simp at hk
  | cons b bs ih =>
    cases k with
    | zero =>
      rw [Memory.writeBytes, Nat.add_zero,
        Memory.read_writeBytes_other _ _ _ _ (Memory.write_wf m x b h) (by omega)]
      simpa using Memory.read_write_same m x b h
    | succ k =>
      have := ih (m.write x b) (x + 1) k (Memory.write_wf m x b h) (by simpa using hk)
      simpa [Memory.writeBytes, Nat.add_assoc, Nat.add_comm 1 k] using this

end Sys2Proof.Machine
end

