-- ==== Sys2Proof/Laws/Registers.lean ====
section
/-! SUPPORT. The laws of the register window: what a register and a field read after a write of the same one and of another one, and
that the named register operations change nothing but the register they name. -/

namespace Sys2Proof.Machine

/-! ### The window as a table -/

@[simp] theorem RegMap.find_insert_same (m : RegMap) (a : Nat) (v : Word) : (RegMap.insert m a v).find a = some v := by
  induction m with
  | nil => simp [RegMap.insert, RegMap.find]
  | cons p m ih =>
    obtain ⟨o, x⟩ := p
    simp only [RegMap.insert]
    split
    · simp [RegMap.find]
    · split
      · simp [RegMap.find]
      · simp_all [RegMap.find]

theorem RegMap.find_insert_other (m : RegMap) (a b : Nat) (v : Word) (h : a ≠ b) : (RegMap.insert m a v).find b = m.find b := by
  induction m with
  | nil => simp [RegMap.insert, RegMap.find, h]
  | cons p m ih =>
    obtain ⟨o, x⟩ := p
    simp only [RegMap.insert]
    split
    · simp_all [RegMap.find]
    · split <;> simp_all [RegMap.find]

@[simp] theorem RegMap.find_erase_same (m : RegMap) (a : Nat) : (RegMap.erase m a).find a = none := by
  induction m with
  | nil => simp [RegMap.erase, RegMap.find]
  | cons p m ih =>
    obtain ⟨o, x⟩ := p
    simp only [RegMap.erase]
    split
    · exact ih
    · simp_all [RegMap.find]

theorem RegMap.find_erase_other (m : RegMap) (a b : Nat) (h : a ≠ b) : (RegMap.erase m a).find b = m.find b := by
  induction m with
  | nil => simp [RegMap.erase, RegMap.find]
  | cons p m ih =>
    obtain ⟨o, x⟩ := p
    simp only [RegMap.erase]
    split
    · simp_all [RegMap.find]
    · by_cases hb : o = b <;> simp_all [RegMap.find]

/-! ### What is listed at an offset -/

/-- What the window lists at an offset. -/
def Chip.cell (c : Chip) (o : Nat) : Option Word := c.regs.find o

theorem Chip.cell_put_other (c : Chip) (r : Reg) (v o : Nat) (h : r.off ≠ o) : (c.put r v).cell o = c.cell o := by
  unfold Chip.put Chip.cell
  split
  · exact RegMap.find_erase_other _ _ _ h
  · exact RegMap.find_insert_other _ _ _ _ h

theorem Chip.cell_wr_other (c : Chip) (f : Fld) (v o : Nat) (h : f.off ≠ o) : (c.wr f v).cell o = c.cell o :=
  Chip.cell_put_other _ _ _ _ h

theorem Chip.get_of_cell {c c' : Chip} {r : Reg} (h : c'.cell r.off = c.cell r.off) : c'.get r = c.get r := by
  unfold Chip.cell at h
  simp only [Chip.get, h]

theorem Chip.rd_of_cell {c c' : Chip} {f : Fld} (h : c'.cell f.off = c.cell f.off) : c'.rd f = c.rd f := by
  have hg : c'.get f.reg = c.get f.reg := Chip.get_of_cell h
  simp only [Chip.rd, hg]

/-! ### Registers -/

@[simp] theorem Chip.get_put_same (c : Chip) (r : Reg) (v : Nat) : (c.put r v).get r = v % 2 ^ 32 := by
  unfold Chip.put
  by_cases h : v % 2 ^ 32 = r.dflt
  · rw [if_pos h]
    simp only [Chip.get, RegMap.find_erase_same]
    exact h.symm
  · rw [if_neg h]
    simp only [Chip.get, RegMap.find_insert_same, BitVec.toNat_ofNat]

theorem Chip.get_put_other (c : Chip) (r r' : Reg) (v : Nat) (h : r.off ≠ r'.off) : (c.put r v).get r' = c.get r' :=
  Chip.get_of_cell (Chip.cell_put_other c r v r'.off h)

/-! ### Fields -/

/-- A field written into a word reads back. -/
theorem bits_splice_same (x v lo w : Nat) (h : lo + w ≤ 32) :
    bits ((x - bits x lo w * 2 ^ lo + v % 2 ^ w * 2 ^ lo) % 2 ^ 32) lo w = v % 2 ^ w := by
  have hsplit : x = x % 2 ^ lo + 2 ^ lo * (bits x lo w + 2 ^ w * (x / 2 ^ lo / 2 ^ w)) := by
    unfold bits
    rw [Nat.mod_add_div, Nat.mod_add_div]
  have hkeep : x - bits x lo w * 2 ^ lo = x % 2 ^ lo + 2 ^ lo * (2 ^ w * (x / 2 ^ lo / 2 ^ w)) := by
    generalize hb : bits x lo w = b at hsplit ⊢
    generalize x / 2 ^ lo / 2 ^ w = t at hsplit ⊢
    generalize x % 2 ^ lo = l at hsplit ⊢
    rw [hsplit, Nat.mul_add, Nat.mul_comm b]
    omega
  rw [hkeep]
  unfold bits
  have hpow : (2 : Nat) ^ 32 = 2 ^ lo * (2 ^ w * 2 ^ (32 - lo - w)) := by
    rw [← Nat.pow_add, ← Nat.pow_add]
    congr 1
    omega
  rw [hpow, Nat.mod_mul_right_div_self]
  have hlow : (x % 2 ^ lo + 2 ^ lo * (2 ^ w * (x / 2 ^ lo / 2 ^ w)) + v % 2 ^ w * 2 ^ lo) / 2 ^ lo =
      2 ^ w * (x / 2 ^ lo / 2 ^ w) + v % 2 ^ w := by
    rw [Nat.mul_comm (v % 2 ^ w), Nat.add_assoc, ← Nat.mul_add, Nat.add_mul_div_left _ _ (Nat.two_pow_pos lo),
      Nat.div_eq_of_lt (Nat.mod_lt _ (Nat.two_pow_pos lo)), Nat.zero_add]
  rw [hlow, Nat.mod_mul_right_mod, Nat.mul_add_mod, Nat.mod_mod]

theorem Chip.rd_wr_same (c : Chip) (f : Fld) (v : Nat) (h : f.lo + f.w ≤ 32) : (c.wr f v).rd f = v % 2 ^ f.w := by
  unfold Chip.rd Chip.wr
  rw [Chip.get_put_same]
  exact bits_splice_same _ _ _ _ h

theorem Chip.rd_wr_other (c : Chip) (f g : Fld) (v : Nat) (h : f.off ≠ g.off) : (c.wr f v).rd g = c.rd g :=
  Chip.rd_of_cell (Chip.cell_wr_other c f v g.off h)

/-- Bits below or above the written ones keep their value. -/
theorem bits_splice_apart (x v lo w lo' w' : Nat) (h : lo + w ≤ 32) (h' : lo' + w' ≤ 32) (hd : lo + w ≤ lo' ∨ lo' + w' ≤ lo) :
    bits ((x - bits x lo w * 2 ^ lo + v % 2 ^ w * 2 ^ lo) % 2 ^ 32) lo' w' = bits x lo' w' := by
  have hv : v % 2 ^ w < 2 ^ w := Nat.mod_lt _ (Nat.two_pow_pos w)
  have hlow : x % 2 ^ lo < 2 ^ lo := Nat.mod_lt _ (Nat.two_pow_pos lo)
  have hsplit : x - bits x lo w * 2 ^ lo + v % 2 ^ w * 2 ^ lo = x % 2 ^ lo + 2 ^ lo * (v % 2 ^ w + 2 ^ w * (x / 2 ^ lo / 2 ^ w)) := by
    have h1 : x = x % 2 ^ lo + 2 ^ lo * (bits x lo w + 2 ^ w * (x / 2 ^ lo / 2 ^ w)) := by
      unfold bits
      rw [Nat.mod_add_div, Nat.mod_add_div]
    have h2 : bits x lo w * 2 ^ lo ≤ x := by
      unfold bits
      exact (Nat.mul_le_mul_right _ (Nat.mod_le _ _)).trans (Nat.div_mul_le_self x _)
    rw [Nat.mul_add] at h1 ⊢
    rw [Nat.mul_comm (bits x lo w)]
    rw [Nat.mul_comm (bits x lo w)] at h2
    rw [Nat.mul_comm (v % 2 ^ w)]
    omega
  apply Nat.eq_of_testBit_eq
  intro j
  rw [hsplit]
  unfold bits
  rw [Nat.testBit_mod_two_pow, Nat.testBit_mod_two_pow, Nat.testBit_div_two_pow, Nat.testBit_div_two_pow, Nat.testBit_mod_two_pow]
  by_cases hj : j < w'
  · have h32 : j + lo' < 32 := by omega
    simp only [hj, decide_true, Bool.true_and]
    simp only [h32, decide_true, Bool.true_and]
    rw [Nat.add_comm (x % 2 ^ lo), Nat.testBit_two_pow_mul_add _ hlow]
    rcases hd with hd | hd
    · have hn : ¬ (j + lo' < lo) := by omega
      rw [if_neg hn, Nat.add_comm (v % 2 ^ w), Nat.testBit_two_pow_mul_add _ hv]
      have hn2 : ¬ (j + lo' - lo < w) := by omega
      rw [if_neg hn2, Nat.testBit_div_two_pow, Nat.testBit_div_two_pow]
      congr 1
      omega
    · have hn : j + lo' < lo := by omega
      rw [if_pos hn, Nat.testBit_mod_two_pow]
      simp [hn]
  · simp [hj]

theorem Chip.rd_wr_apart (c : Chip) (f g : Fld) (v : Nat) (ho : f.off = g.off) (hd : f.dflt = g.dflt) (hf : f.lo + f.w ≤ 32)
    (hg : g.lo + g.w ≤ 32) (h : f.lo + f.w ≤ g.lo ∨ g.lo + g.w ≤ f.lo) : (c.wr f v).rd g = c.rd g := by
  have hr : f.reg = g.reg := by unfold Fld.reg; rw [ho, hd]
  unfold Chip.rd Chip.wr
  rw [hr, Chip.get_put_same]
  exact bits_splice_apart _ _ _ _ _ _ hf hg h

end Sys2Proof.Machine
end

