-- ==== Sys2Proof/Laws/State.lean ====
section
/-! SUPPORT. What each update of the chip's record changes, field by field, so that no later proof unfolds a record update. -/

namespace Sys2Proof.Machine

/-! ### The updates of the working state -/

@[simp] theorem Chip.setSrc_now (c : Chip) (s : Nat) (x : Src) : (c.setSrc s x).now = c.now := rfl
@[simp] theorem Chip.setSrc_free (c : Chip) (s : Nat) (x : Src) : (c.setSrc s x).free = c.free := rfl
@[simp] theorem Chip.setSrc_out (c : Chip) (s : Nat) (x : Src) : (c.setSrc s x).out = c.out := rfl
@[simp] theorem Chip.setSrc_evts (c : Chip) (s : Nat) (x : Src) : (c.setSrc s x).evts = c.evts := rfl
@[simp] theorem Chip.setSrc_risen (c : Chip) (s : Nat) (x : Src) : (c.setSrc s x).risen = c.risen := rfl
@[simp] theorem Chip.setSrc_clock (c : Chip) (s : Nat) (x : Src) : (c.setSrc s x).clock = c.clock := rfl
@[simp] theorem Chip.setSrc_regs (c : Chip) (s : Nat) (x : Src) : (c.setSrc s x).regs = c.regs := rfl
@[simp] theorem Chip.setSrc_host (c : Chip) (s : Nat) (x : Src) : (c.setSrc s x).host = c.host := rfl
@[simp] theorem Chip.setSrc_fw (c : Chip) (s : Nat) (x : Src) : (c.setSrc s x).fw = c.fw := rfl
@[simp] theorem Chip.setSrc_planes (c : Chip) (s : Nat) (x : Src) : (c.setSrc s x).planes = c.planes := rfl
@[simp] theorem Chip.setSrc_srcs (c : Chip) (s : Nat) (x : Src) : (c.setSrc s x).srcs = tput {} c.srcs s x := rfl
@[simp] theorem Chip.setSrc_dsts (c : Chip) (s : Nat) (x : Src) : (c.setSrc s x).dsts = c.dsts := rfl
@[simp] theorem Chip.setSrc_sent (c : Chip) (s : Nat) (x : Src) : (c.setSrc s x).sent = c.sent := rfl
@[simp] theorem Chip.setSrc_pwr (c : Chip) (s : Nat) (x : Src) : (c.setSrc s x).pwr = c.pwr := rfl
@[simp] theorem Chip.setSrc_dmc (c : Chip) (s : Nat) (x : Src) : (c.setSrc s x).dmc = c.dmc := rfl
@[simp] theorem Chip.setSrc_lbs (c : Chip) (s : Nat) (x : Src) : (c.setSrc s x).lbs = c.lbs := rfl
@[simp] theorem Chip.setSrc_sdi (c : Chip) (s : Nat) (x : Src) : (c.setSrc s x).sdi = c.sdi := rfl
@[simp] theorem Chip.setSrc_lanes (c : Chip) (s : Nat) (x : Src) : (c.setSrc s x).lanes = c.lanes := rfl
@[simp] theorem Chip.setSrc_links (c : Chip) (s : Nat) (x : Src) : (c.setSrc s x).links = c.links := rfl
@[simp] theorem Chip.setSrc_diffAt (c : Chip) (s : Nat) (x : Src) : (c.setSrc s x).diffAt = c.diffAt := rfl
@[simp] theorem Chip.setSrc_nets (c : Chip) (s : Nat) (x : Src) : (c.setSrc s x).nets = c.nets := rfl
@[simp] theorem Chip.setSrc_flows (c : Chip) (s : Nat) (x : Src) : (c.setSrc s x).flows = c.flows := rfl
@[simp] theorem Chip.setSrc_senders (c : Chip) (s : Nat) (x : Src) : (c.setSrc s x).senders = c.senders := rfl
@[simp] theorem Chip.setSrc_ptp (c : Chip) (s : Nat) (x : Src) : (c.setSrc s x).ptp = c.ptp := rfl
@[simp] theorem Chip.setSrc_ref (c : Chip) (s : Nat) (x : Src) : (c.setSrc s x).ref = c.ref := rfl
@[simp] theorem Chip.setSrc_aud (c : Chip) (s : Nat) (x : Src) : (c.setSrc s x).aud = c.aud := rfl
@[simp] theorem Chip.setSrc_sap (c : Chip) (s : Nat) (x : Src) : (c.setSrc s x).sap = c.sap := rfl
@[simp] theorem Chip.setSrc_heads (c : Chip) (s : Nat) (x : Src) : (c.setSrc s x).heads = c.heads := rfl
@[simp] theorem Chip.setSrc_twn (c : Chip) (s : Nat) (x : Src) : (c.setSrc s x).twn = c.twn := rfl
@[simp] theorem Chip.setSrc_bus (c : Chip) (s : Nat) (x : Src) : (c.setSrc s x).bus = c.bus := rfl
@[simp] theorem Chip.setSrc_pmcAt (c : Chip) (s : Nat) (x : Src) : (c.setSrc s x).pmcAt = c.pmcAt := rfl
@[simp] theorem Chip.setSrc_upd (c : Chip) (s : Nat) (x : Src) : (c.setSrc s x).upd = c.upd := rfl
@[simp] theorem Chip.setSrc_cell (c : Chip) (s : Nat) (x : Src) (j : Nat) : (c.setSrc s x).cell j = c.cell j := rfl
@[simp] theorem Chip.setSrc_get (c : Chip) (s : Nat) (x : Src) (j : Reg) : (c.setSrc s x).get j = c.get j := rfl
@[simp] theorem Chip.setSrc_rd (c : Chip) (s : Nat) (x : Src) (j : Fld) : (c.setSrc s x).rd j = c.rd j := rfl
@[simp] theorem Chip.setSrc_on (c : Chip) (s : Nat) (x : Src) (j : Fld) : (c.setSrc s x).on j = c.on j := rfl
@[simp] theorem Chip.setSrc_rdI (c : Chip) (s : Nat) (x : Src) (j : Fld) : (c.setSrc s x).rdI j = c.rdI j := rfl

@[simp] theorem Chip.setDst_now (c : Chip) (d : Nat) (x : Dst) : (c.setDst d x).now = c.now := rfl
@[simp] theorem Chip.setDst_free (c : Chip) (d : Nat) (x : Dst) : (c.setDst d x).free = c.free := rfl
@[simp] theorem Chip.setDst_out (c : Chip) (d : Nat) (x : Dst) : (c.setDst d x).out = c.out := rfl
@[simp] theorem Chip.setDst_evts (c : Chip) (d : Nat) (x : Dst) : (c.setDst d x).evts = c.evts := rfl
@[simp] theorem Chip.setDst_risen (c : Chip) (d : Nat) (x : Dst) : (c.setDst d x).risen = c.risen := rfl
@[simp] theorem Chip.setDst_clock (c : Chip) (d : Nat) (x : Dst) : (c.setDst d x).clock = c.clock := rfl
@[simp] theorem Chip.setDst_regs (c : Chip) (d : Nat) (x : Dst) : (c.setDst d x).regs = c.regs := rfl
@[simp] theorem Chip.setDst_host (c : Chip) (d : Nat) (x : Dst) : (c.setDst d x).host = c.host := rfl
@[simp] theorem Chip.setDst_fw (c : Chip) (d : Nat) (x : Dst) : (c.setDst d x).fw = c.fw := rfl
@[simp] theorem Chip.setDst_planes (c : Chip) (d : Nat) (x : Dst) : (c.setDst d x).planes = c.planes := rfl
@[simp] theorem Chip.setDst_srcs (c : Chip) (d : Nat) (x : Dst) : (c.setDst d x).srcs = c.srcs := rfl
@[simp] theorem Chip.setDst_dsts (c : Chip) (d : Nat) (x : Dst) : (c.setDst d x).dsts = tput {} c.dsts d x := rfl
@[simp] theorem Chip.setDst_sent (c : Chip) (d : Nat) (x : Dst) : (c.setDst d x).sent = c.sent := rfl
@[simp] theorem Chip.setDst_pwr (c : Chip) (d : Nat) (x : Dst) : (c.setDst d x).pwr = c.pwr := rfl
@[simp] theorem Chip.setDst_dmc (c : Chip) (d : Nat) (x : Dst) : (c.setDst d x).dmc = c.dmc := rfl
@[simp] theorem Chip.setDst_lbs (c : Chip) (d : Nat) (x : Dst) : (c.setDst d x).lbs = c.lbs := rfl
@[simp] theorem Chip.setDst_sdi (c : Chip) (d : Nat) (x : Dst) : (c.setDst d x).sdi = c.sdi := rfl
@[simp] theorem Chip.setDst_lanes (c : Chip) (d : Nat) (x : Dst) : (c.setDst d x).lanes = c.lanes := rfl
@[simp] theorem Chip.setDst_links (c : Chip) (d : Nat) (x : Dst) : (c.setDst d x).links = c.links := rfl
@[simp] theorem Chip.setDst_diffAt (c : Chip) (d : Nat) (x : Dst) : (c.setDst d x).diffAt = c.diffAt := rfl
@[simp] theorem Chip.setDst_nets (c : Chip) (d : Nat) (x : Dst) : (c.setDst d x).nets = c.nets := rfl
@[simp] theorem Chip.setDst_flows (c : Chip) (d : Nat) (x : Dst) : (c.setDst d x).flows = c.flows := rfl
@[simp] theorem Chip.setDst_senders (c : Chip) (d : Nat) (x : Dst) : (c.setDst d x).senders = c.senders := rfl
@[simp] theorem Chip.setDst_ptp (c : Chip) (d : Nat) (x : Dst) : (c.setDst d x).ptp = c.ptp := rfl
@[simp] theorem Chip.setDst_ref (c : Chip) (d : Nat) (x : Dst) : (c.setDst d x).ref = c.ref := rfl
@[simp] theorem Chip.setDst_aud (c : Chip) (d : Nat) (x : Dst) : (c.setDst d x).aud = c.aud := rfl
@[simp] theorem Chip.setDst_sap (c : Chip) (d : Nat) (x : Dst) : (c.setDst d x).sap = c.sap := rfl
@[simp] theorem Chip.setDst_heads (c : Chip) (d : Nat) (x : Dst) : (c.setDst d x).heads = c.heads := rfl
@[simp] theorem Chip.setDst_twn (c : Chip) (d : Nat) (x : Dst) : (c.setDst d x).twn = c.twn := rfl
@[simp] theorem Chip.setDst_bus (c : Chip) (d : Nat) (x : Dst) : (c.setDst d x).bus = c.bus := rfl
@[simp] theorem Chip.setDst_pmcAt (c : Chip) (d : Nat) (x : Dst) : (c.setDst d x).pmcAt = c.pmcAt := rfl
@[simp] theorem Chip.setDst_upd (c : Chip) (d : Nat) (x : Dst) : (c.setDst d x).upd = c.upd := rfl
@[simp] theorem Chip.setDst_cell (c : Chip) (d : Nat) (x : Dst) (j : Nat) : (c.setDst d x).cell j = c.cell j := rfl
@[simp] theorem Chip.setDst_get (c : Chip) (d : Nat) (x : Dst) (j : Reg) : (c.setDst d x).get j = c.get j := rfl
@[simp] theorem Chip.setDst_rd (c : Chip) (d : Nat) (x : Dst) (j : Fld) : (c.setDst d x).rd j = c.rd j := rfl
@[simp] theorem Chip.setDst_on (c : Chip) (d : Nat) (x : Dst) (j : Fld) : (c.setDst d x).on j = c.on j := rfl
@[simp] theorem Chip.setDst_rdI (c : Chip) (d : Nat) (x : Dst) (j : Fld) : (c.setDst d x).rdI j = c.rdI j := rfl

@[simp] theorem Chip.setPlane_now (c : Chip) (p : Nat) (x : Plane) : (c.setPlane p x).now = c.now := rfl
@[simp] theorem Chip.setPlane_free (c : Chip) (p : Nat) (x : Plane) : (c.setPlane p x).free = c.free := rfl
@[simp] theorem Chip.setPlane_out (c : Chip) (p : Nat) (x : Plane) : (c.setPlane p x).out = c.out := rfl
@[simp] theorem Chip.setPlane_evts (c : Chip) (p : Nat) (x : Plane) : (c.setPlane p x).evts = c.evts := rfl
@[simp] theorem Chip.setPlane_risen (c : Chip) (p : Nat) (x : Plane) : (c.setPlane p x).risen = c.risen := rfl
@[simp] theorem Chip.setPlane_clock (c : Chip) (p : Nat) (x : Plane) : (c.setPlane p x).clock = c.clock := rfl
@[simp] theorem Chip.setPlane_regs (c : Chip) (p : Nat) (x : Plane) : (c.setPlane p x).regs = c.regs := rfl
@[simp] theorem Chip.setPlane_host (c : Chip) (p : Nat) (x : Plane) : (c.setPlane p x).host = c.host := rfl
@[simp] theorem Chip.setPlane_fw (c : Chip) (p : Nat) (x : Plane) : (c.setPlane p x).fw = c.fw := rfl
@[simp] theorem Chip.setPlane_planes (c : Chip) (p : Nat) (x : Plane) : (c.setPlane p x).planes = putAt 2 {} c.planes p x := rfl
@[simp] theorem Chip.setPlane_srcs (c : Chip) (p : Nat) (x : Plane) : (c.setPlane p x).srcs = c.srcs := rfl
@[simp] theorem Chip.setPlane_dsts (c : Chip) (p : Nat) (x : Plane) : (c.setPlane p x).dsts = c.dsts := rfl
@[simp] theorem Chip.setPlane_sent (c : Chip) (p : Nat) (x : Plane) : (c.setPlane p x).sent = c.sent := rfl
@[simp] theorem Chip.setPlane_pwr (c : Chip) (p : Nat) (x : Plane) : (c.setPlane p x).pwr = c.pwr := rfl
@[simp] theorem Chip.setPlane_dmc (c : Chip) (p : Nat) (x : Plane) : (c.setPlane p x).dmc = c.dmc := rfl
@[simp] theorem Chip.setPlane_lbs (c : Chip) (p : Nat) (x : Plane) : (c.setPlane p x).lbs = c.lbs := rfl
@[simp] theorem Chip.setPlane_sdi (c : Chip) (p : Nat) (x : Plane) : (c.setPlane p x).sdi = c.sdi := rfl
@[simp] theorem Chip.setPlane_lanes (c : Chip) (p : Nat) (x : Plane) : (c.setPlane p x).lanes = c.lanes := rfl
@[simp] theorem Chip.setPlane_links (c : Chip) (p : Nat) (x : Plane) : (c.setPlane p x).links = c.links := rfl
@[simp] theorem Chip.setPlane_diffAt (c : Chip) (p : Nat) (x : Plane) : (c.setPlane p x).diffAt = c.diffAt := rfl
@[simp] theorem Chip.setPlane_nets (c : Chip) (p : Nat) (x : Plane) : (c.setPlane p x).nets = c.nets := rfl
@[simp] theorem Chip.setPlane_flows (c : Chip) (p : Nat) (x : Plane) : (c.setPlane p x).flows = c.flows := rfl
@[simp] theorem Chip.setPlane_senders (c : Chip) (p : Nat) (x : Plane) : (c.setPlane p x).senders = c.senders := rfl
@[simp] theorem Chip.setPlane_ptp (c : Chip) (p : Nat) (x : Plane) : (c.setPlane p x).ptp = c.ptp := rfl
@[simp] theorem Chip.setPlane_ref (c : Chip) (p : Nat) (x : Plane) : (c.setPlane p x).ref = c.ref := rfl
@[simp] theorem Chip.setPlane_aud (c : Chip) (p : Nat) (x : Plane) : (c.setPlane p x).aud = c.aud := rfl
@[simp] theorem Chip.setPlane_sap (c : Chip) (p : Nat) (x : Plane) : (c.setPlane p x).sap = c.sap := rfl
@[simp] theorem Chip.setPlane_heads (c : Chip) (p : Nat) (x : Plane) : (c.setPlane p x).heads = c.heads := rfl
@[simp] theorem Chip.setPlane_twn (c : Chip) (p : Nat) (x : Plane) : (c.setPlane p x).twn = c.twn := rfl
@[simp] theorem Chip.setPlane_bus (c : Chip) (p : Nat) (x : Plane) : (c.setPlane p x).bus = c.bus := rfl
@[simp] theorem Chip.setPlane_pmcAt (c : Chip) (p : Nat) (x : Plane) : (c.setPlane p x).pmcAt = c.pmcAt := rfl
@[simp] theorem Chip.setPlane_upd (c : Chip) (p : Nat) (x : Plane) : (c.setPlane p x).upd = c.upd := rfl
@[simp] theorem Chip.setPlane_cell (c : Chip) (p : Nat) (x : Plane) (j : Nat) : (c.setPlane p x).cell j = c.cell j := rfl
@[simp] theorem Chip.setPlane_get (c : Chip) (p : Nat) (x : Plane) (j : Reg) : (c.setPlane p x).get j = c.get j := rfl
@[simp] theorem Chip.setPlane_rd (c : Chip) (p : Nat) (x : Plane) (j : Fld) : (c.setPlane p x).rd j = c.rd j := rfl
@[simp] theorem Chip.setPlane_on (c : Chip) (p : Nat) (x : Plane) (j : Fld) : (c.setPlane p x).on j = c.on j := rfl
@[simp] theorem Chip.setPlane_rdI (c : Chip) (p : Nat) (x : Plane) (j : Fld) : (c.setPlane p x).rdI j = c.rdI j := rfl

@[simp] theorem Chip.setDmcCh_now (c : Chip) (n : Nat) (x : DmcCh) : (c.setDmcCh n x).now = c.now := rfl
@[simp] theorem Chip.setDmcCh_free (c : Chip) (n : Nat) (x : DmcCh) : (c.setDmcCh n x).free = c.free := rfl
@[simp] theorem Chip.setDmcCh_out (c : Chip) (n : Nat) (x : DmcCh) : (c.setDmcCh n x).out = c.out := rfl
@[simp] theorem Chip.setDmcCh_evts (c : Chip) (n : Nat) (x : DmcCh) : (c.setDmcCh n x).evts = c.evts := rfl
@[simp] theorem Chip.setDmcCh_risen (c : Chip) (n : Nat) (x : DmcCh) : (c.setDmcCh n x).risen = c.risen := rfl
@[simp] theorem Chip.setDmcCh_clock (c : Chip) (n : Nat) (x : DmcCh) : (c.setDmcCh n x).clock = c.clock := rfl
@[simp] theorem Chip.setDmcCh_regs (c : Chip) (n : Nat) (x : DmcCh) : (c.setDmcCh n x).regs = c.regs := rfl
@[simp] theorem Chip.setDmcCh_host (c : Chip) (n : Nat) (x : DmcCh) : (c.setDmcCh n x).host = c.host := rfl
@[simp] theorem Chip.setDmcCh_fw (c : Chip) (n : Nat) (x : DmcCh) : (c.setDmcCh n x).fw = c.fw := rfl
@[simp] theorem Chip.setDmcCh_planes (c : Chip) (n : Nat) (x : DmcCh) : (c.setDmcCh n x).planes = c.planes := rfl
@[simp] theorem Chip.setDmcCh_srcs (c : Chip) (n : Nat) (x : DmcCh) : (c.setDmcCh n x).srcs = c.srcs := rfl
@[simp] theorem Chip.setDmcCh_dsts (c : Chip) (n : Nat) (x : DmcCh) : (c.setDmcCh n x).dsts = c.dsts := rfl
@[simp] theorem Chip.setDmcCh_sent (c : Chip) (n : Nat) (x : DmcCh) : (c.setDmcCh n x).sent = c.sent := rfl
@[simp] theorem Chip.setDmcCh_pwr (c : Chip) (n : Nat) (x : DmcCh) : (c.setDmcCh n x).pwr = c.pwr := rfl
@[simp] theorem Chip.setDmcCh_dmc (c : Chip) (n : Nat) (x : DmcCh) : (c.setDmcCh n x).dmc = tput {} c.dmc n x := rfl
@[simp] theorem Chip.setDmcCh_lbs (c : Chip) (n : Nat) (x : DmcCh) : (c.setDmcCh n x).lbs = c.lbs := rfl
@[simp] theorem Chip.setDmcCh_sdi (c : Chip) (n : Nat) (x : DmcCh) : (c.setDmcCh n x).sdi = c.sdi := rfl
@[simp] theorem Chip.setDmcCh_lanes (c : Chip) (n : Nat) (x : DmcCh) : (c.setDmcCh n x).lanes = c.lanes := rfl
@[simp] theorem Chip.setDmcCh_links (c : Chip) (n : Nat) (x : DmcCh) : (c.setDmcCh n x).links = c.links := rfl
@[simp] theorem Chip.setDmcCh_diffAt (c : Chip) (n : Nat) (x : DmcCh) : (c.setDmcCh n x).diffAt = c.diffAt := rfl
@[simp] theorem Chip.setDmcCh_nets (c : Chip) (n : Nat) (x : DmcCh) : (c.setDmcCh n x).nets = c.nets := rfl
@[simp] theorem Chip.setDmcCh_flows (c : Chip) (n : Nat) (x : DmcCh) : (c.setDmcCh n x).flows = c.flows := rfl
@[simp] theorem Chip.setDmcCh_senders (c : Chip) (n : Nat) (x : DmcCh) : (c.setDmcCh n x).senders = c.senders := rfl
@[simp] theorem Chip.setDmcCh_ptp (c : Chip) (n : Nat) (x : DmcCh) : (c.setDmcCh n x).ptp = c.ptp := rfl
@[simp] theorem Chip.setDmcCh_ref (c : Chip) (n : Nat) (x : DmcCh) : (c.setDmcCh n x).ref = c.ref := rfl
@[simp] theorem Chip.setDmcCh_aud (c : Chip) (n : Nat) (x : DmcCh) : (c.setDmcCh n x).aud = c.aud := rfl
@[simp] theorem Chip.setDmcCh_sap (c : Chip) (n : Nat) (x : DmcCh) : (c.setDmcCh n x).sap = c.sap := rfl
@[simp] theorem Chip.setDmcCh_heads (c : Chip) (n : Nat) (x : DmcCh) : (c.setDmcCh n x).heads = c.heads := rfl
@[simp] theorem Chip.setDmcCh_twn (c : Chip) (n : Nat) (x : DmcCh) : (c.setDmcCh n x).twn = c.twn := rfl
@[simp] theorem Chip.setDmcCh_bus (c : Chip) (n : Nat) (x : DmcCh) : (c.setDmcCh n x).bus = c.bus := rfl
@[simp] theorem Chip.setDmcCh_pmcAt (c : Chip) (n : Nat) (x : DmcCh) : (c.setDmcCh n x).pmcAt = c.pmcAt := rfl
@[simp] theorem Chip.setDmcCh_upd (c : Chip) (n : Nat) (x : DmcCh) : (c.setDmcCh n x).upd = c.upd := rfl
@[simp] theorem Chip.setDmcCh_cell (c : Chip) (n : Nat) (x : DmcCh) (j : Nat) : (c.setDmcCh n x).cell j = c.cell j := rfl
@[simp] theorem Chip.setDmcCh_get (c : Chip) (n : Nat) (x : DmcCh) (j : Reg) : (c.setDmcCh n x).get j = c.get j := rfl
@[simp] theorem Chip.setDmcCh_rd (c : Chip) (n : Nat) (x : DmcCh) (j : Fld) : (c.setDmcCh n x).rd j = c.rd j := rfl
@[simp] theorem Chip.setDmcCh_on (c : Chip) (n : Nat) (x : DmcCh) (j : Fld) : (c.setDmcCh n x).on j = c.on j := rfl
@[simp] theorem Chip.setDmcCh_rdI (c : Chip) (n : Nat) (x : DmcCh) (j : Fld) : (c.setDmcCh n x).rdI j = c.rdI j := rfl

@[simp] theorem Chip.setSdiLane_now (c : Chip) (n : Nat) (x : SdiLane) : (c.setSdiLane n x).now = c.now := rfl
@[simp] theorem Chip.setSdiLane_free (c : Chip) (n : Nat) (x : SdiLane) : (c.setSdiLane n x).free = c.free := rfl
@[simp] theorem Chip.setSdiLane_out (c : Chip) (n : Nat) (x : SdiLane) : (c.setSdiLane n x).out = c.out := rfl
@[simp] theorem Chip.setSdiLane_evts (c : Chip) (n : Nat) (x : SdiLane) : (c.setSdiLane n x).evts = c.evts := rfl
@[simp] theorem Chip.setSdiLane_risen (c : Chip) (n : Nat) (x : SdiLane) : (c.setSdiLane n x).risen = c.risen := rfl
@[simp] theorem Chip.setSdiLane_clock (c : Chip) (n : Nat) (x : SdiLane) : (c.setSdiLane n x).clock = c.clock := rfl
@[simp] theorem Chip.setSdiLane_regs (c : Chip) (n : Nat) (x : SdiLane) : (c.setSdiLane n x).regs = c.regs := rfl
@[simp] theorem Chip.setSdiLane_host (c : Chip) (n : Nat) (x : SdiLane) : (c.setSdiLane n x).host = c.host := rfl
@[simp] theorem Chip.setSdiLane_fw (c : Chip) (n : Nat) (x : SdiLane) : (c.setSdiLane n x).fw = c.fw := rfl
@[simp] theorem Chip.setSdiLane_planes (c : Chip) (n : Nat) (x : SdiLane) : (c.setSdiLane n x).planes = c.planes := rfl
@[simp] theorem Chip.setSdiLane_srcs (c : Chip) (n : Nat) (x : SdiLane) : (c.setSdiLane n x).srcs = c.srcs := rfl
@[simp] theorem Chip.setSdiLane_dsts (c : Chip) (n : Nat) (x : SdiLane) : (c.setSdiLane n x).dsts = c.dsts := rfl
@[simp] theorem Chip.setSdiLane_sent (c : Chip) (n : Nat) (x : SdiLane) : (c.setSdiLane n x).sent = c.sent := rfl
@[simp] theorem Chip.setSdiLane_pwr (c : Chip) (n : Nat) (x : SdiLane) : (c.setSdiLane n x).pwr = c.pwr := rfl
@[simp] theorem Chip.setSdiLane_dmc (c : Chip) (n : Nat) (x : SdiLane) : (c.setSdiLane n x).dmc = c.dmc := rfl
@[simp] theorem Chip.setSdiLane_lbs (c : Chip) (n : Nat) (x : SdiLane) : (c.setSdiLane n x).lbs = c.lbs := rfl
@[simp] theorem Chip.setSdiLane_sdi (c : Chip) (n : Nat) (x : SdiLane) : (c.setSdiLane n x).sdi = tput {} c.sdi n x := rfl
@[simp] theorem Chip.setSdiLane_lanes (c : Chip) (n : Nat) (x : SdiLane) : (c.setSdiLane n x).lanes = c.lanes := rfl
@[simp] theorem Chip.setSdiLane_links (c : Chip) (n : Nat) (x : SdiLane) : (c.setSdiLane n x).links = c.links := rfl
@[simp] theorem Chip.setSdiLane_diffAt (c : Chip) (n : Nat) (x : SdiLane) : (c.setSdiLane n x).diffAt = c.diffAt := rfl
@[simp] theorem Chip.setSdiLane_nets (c : Chip) (n : Nat) (x : SdiLane) : (c.setSdiLane n x).nets = c.nets := rfl
@[simp] theorem Chip.setSdiLane_flows (c : Chip) (n : Nat) (x : SdiLane) : (c.setSdiLane n x).flows = c.flows := rfl
@[simp] theorem Chip.setSdiLane_senders (c : Chip) (n : Nat) (x : SdiLane) : (c.setSdiLane n x).senders = c.senders := rfl
@[simp] theorem Chip.setSdiLane_ptp (c : Chip) (n : Nat) (x : SdiLane) : (c.setSdiLane n x).ptp = c.ptp := rfl
@[simp] theorem Chip.setSdiLane_ref (c : Chip) (n : Nat) (x : SdiLane) : (c.setSdiLane n x).ref = c.ref := rfl
@[simp] theorem Chip.setSdiLane_aud (c : Chip) (n : Nat) (x : SdiLane) : (c.setSdiLane n x).aud = c.aud := rfl
@[simp] theorem Chip.setSdiLane_sap (c : Chip) (n : Nat) (x : SdiLane) : (c.setSdiLane n x).sap = c.sap := rfl
@[simp] theorem Chip.setSdiLane_heads (c : Chip) (n : Nat) (x : SdiLane) : (c.setSdiLane n x).heads = c.heads := rfl
@[simp] theorem Chip.setSdiLane_twn (c : Chip) (n : Nat) (x : SdiLane) : (c.setSdiLane n x).twn = c.twn := rfl
@[simp] theorem Chip.setSdiLane_bus (c : Chip) (n : Nat) (x : SdiLane) : (c.setSdiLane n x).bus = c.bus := rfl
@[simp] theorem Chip.setSdiLane_pmcAt (c : Chip) (n : Nat) (x : SdiLane) : (c.setSdiLane n x).pmcAt = c.pmcAt := rfl
@[simp] theorem Chip.setSdiLane_upd (c : Chip) (n : Nat) (x : SdiLane) : (c.setSdiLane n x).upd = c.upd := rfl
@[simp] theorem Chip.setSdiLane_cell (c : Chip) (n : Nat) (x : SdiLane) (j : Nat) : (c.setSdiLane n x).cell j = c.cell j := rfl
@[simp] theorem Chip.setSdiLane_get (c : Chip) (n : Nat) (x : SdiLane) (j : Reg) : (c.setSdiLane n x).get j = c.get j := rfl
@[simp] theorem Chip.setSdiLane_rd (c : Chip) (n : Nat) (x : SdiLane) (j : Fld) : (c.setSdiLane n x).rd j = c.rd j := rfl
@[simp] theorem Chip.setSdiLane_on (c : Chip) (n : Nat) (x : SdiLane) (j : Fld) : (c.setSdiLane n x).on j = c.on j := rfl
@[simp] theorem Chip.setSdiLane_rdI (c : Chip) (n : Nat) (x : SdiLane) (j : Fld) : (c.setSdiLane n x).rdI j = c.rdI j := rfl

@[simp] theorem Chip.setLane_now (c : Chip) (n : Nat) (x : FabLane) : (c.setLane n x).now = c.now := rfl
@[simp] theorem Chip.setLane_free (c : Chip) (n : Nat) (x : FabLane) : (c.setLane n x).free = c.free := rfl
@[simp] theorem Chip.setLane_out (c : Chip) (n : Nat) (x : FabLane) : (c.setLane n x).out = c.out := rfl
@[simp] theorem Chip.setLane_evts (c : Chip) (n : Nat) (x : FabLane) : (c.setLane n x).evts = c.evts := rfl
@[simp] theorem Chip.setLane_risen (c : Chip) (n : Nat) (x : FabLane) : (c.setLane n x).risen = c.risen := rfl
@[simp] theorem Chip.setLane_clock (c : Chip) (n : Nat) (x : FabLane) : (c.setLane n x).clock = c.clock := rfl
@[simp] theorem Chip.setLane_regs (c : Chip) (n : Nat) (x : FabLane) : (c.setLane n x).regs = c.regs := rfl
@[simp] theorem Chip.setLane_host (c : Chip) (n : Nat) (x : FabLane) : (c.setLane n x).host = c.host := rfl
@[simp] theorem Chip.setLane_fw (c : Chip) (n : Nat) (x : FabLane) : (c.setLane n x).fw = c.fw := rfl
@[simp] theorem Chip.setLane_planes (c : Chip) (n : Nat) (x : FabLane) : (c.setLane n x).planes = c.planes := rfl
@[simp] theorem Chip.setLane_srcs (c : Chip) (n : Nat) (x : FabLane) : (c.setLane n x).srcs = c.srcs := rfl
@[simp] theorem Chip.setLane_dsts (c : Chip) (n : Nat) (x : FabLane) : (c.setLane n x).dsts = c.dsts := rfl
@[simp] theorem Chip.setLane_sent (c : Chip) (n : Nat) (x : FabLane) : (c.setLane n x).sent = c.sent := rfl
@[simp] theorem Chip.setLane_pwr (c : Chip) (n : Nat) (x : FabLane) : (c.setLane n x).pwr = c.pwr := rfl
@[simp] theorem Chip.setLane_dmc (c : Chip) (n : Nat) (x : FabLane) : (c.setLane n x).dmc = c.dmc := rfl
@[simp] theorem Chip.setLane_lbs (c : Chip) (n : Nat) (x : FabLane) : (c.setLane n x).lbs = c.lbs := rfl
@[simp] theorem Chip.setLane_sdi (c : Chip) (n : Nat) (x : FabLane) : (c.setLane n x).sdi = c.sdi := rfl
@[simp] theorem Chip.setLane_lanes (c : Chip) (n : Nat) (x : FabLane) : (c.setLane n x).lanes = tput {} c.lanes n x := rfl
@[simp] theorem Chip.setLane_links (c : Chip) (n : Nat) (x : FabLane) : (c.setLane n x).links = c.links := rfl
@[simp] theorem Chip.setLane_diffAt (c : Chip) (n : Nat) (x : FabLane) : (c.setLane n x).diffAt = c.diffAt := rfl
@[simp] theorem Chip.setLane_nets (c : Chip) (n : Nat) (x : FabLane) : (c.setLane n x).nets = c.nets := rfl
@[simp] theorem Chip.setLane_flows (c : Chip) (n : Nat) (x : FabLane) : (c.setLane n x).flows = c.flows := rfl
@[simp] theorem Chip.setLane_senders (c : Chip) (n : Nat) (x : FabLane) : (c.setLane n x).senders = c.senders := rfl
@[simp] theorem Chip.setLane_ptp (c : Chip) (n : Nat) (x : FabLane) : (c.setLane n x).ptp = c.ptp := rfl
@[simp] theorem Chip.setLane_ref (c : Chip) (n : Nat) (x : FabLane) : (c.setLane n x).ref = c.ref := rfl
@[simp] theorem Chip.setLane_aud (c : Chip) (n : Nat) (x : FabLane) : (c.setLane n x).aud = c.aud := rfl
@[simp] theorem Chip.setLane_sap (c : Chip) (n : Nat) (x : FabLane) : (c.setLane n x).sap = c.sap := rfl
@[simp] theorem Chip.setLane_heads (c : Chip) (n : Nat) (x : FabLane) : (c.setLane n x).heads = c.heads := rfl
@[simp] theorem Chip.setLane_twn (c : Chip) (n : Nat) (x : FabLane) : (c.setLane n x).twn = c.twn := rfl
@[simp] theorem Chip.setLane_bus (c : Chip) (n : Nat) (x : FabLane) : (c.setLane n x).bus = c.bus := rfl
@[simp] theorem Chip.setLane_pmcAt (c : Chip) (n : Nat) (x : FabLane) : (c.setLane n x).pmcAt = c.pmcAt := rfl
@[simp] theorem Chip.setLane_upd (c : Chip) (n : Nat) (x : FabLane) : (c.setLane n x).upd = c.upd := rfl
@[simp] theorem Chip.setLane_cell (c : Chip) (n : Nat) (x : FabLane) (j : Nat) : (c.setLane n x).cell j = c.cell j := rfl
@[simp] theorem Chip.setLane_get (c : Chip) (n : Nat) (x : FabLane) (j : Reg) : (c.setLane n x).get j = c.get j := rfl
@[simp] theorem Chip.setLane_rd (c : Chip) (n : Nat) (x : FabLane) (j : Fld) : (c.setLane n x).rd j = c.rd j := rfl
@[simp] theorem Chip.setLane_on (c : Chip) (n : Nat) (x : FabLane) (j : Fld) : (c.setLane n x).on j = c.on j := rfl
@[simp] theorem Chip.setLane_rdI (c : Chip) (n : Nat) (x : FabLane) (j : Fld) : (c.setLane n x).rdI j = c.rdI j := rfl

@[simp] theorem Chip.setLink_now (c : Chip) (l : Nat) (x : Link) : (c.setLink l x).now = c.now := rfl
@[simp] theorem Chip.setLink_free (c : Chip) (l : Nat) (x : Link) : (c.setLink l x).free = c.free := rfl
@[simp] theorem Chip.setLink_out (c : Chip) (l : Nat) (x : Link) : (c.setLink l x).out = c.out := rfl
@[simp] theorem Chip.setLink_evts (c : Chip) (l : Nat) (x : Link) : (c.setLink l x).evts = c.evts := rfl
@[simp] theorem Chip.setLink_risen (c : Chip) (l : Nat) (x : Link) : (c.setLink l x).risen = c.risen := rfl
@[simp] theorem Chip.setLink_clock (c : Chip) (l : Nat) (x : Link) : (c.setLink l x).clock = c.clock := rfl
@[simp] theorem Chip.setLink_regs (c : Chip) (l : Nat) (x : Link) : (c.setLink l x).regs = c.regs := rfl
@[simp] theorem Chip.setLink_host (c : Chip) (l : Nat) (x : Link) : (c.setLink l x).host = c.host := rfl
@[simp] theorem Chip.setLink_fw (c : Chip) (l : Nat) (x : Link) : (c.setLink l x).fw = c.fw := rfl
@[simp] theorem Chip.setLink_planes (c : Chip) (l : Nat) (x : Link) : (c.setLink l x).planes = c.planes := rfl
@[simp] theorem Chip.setLink_srcs (c : Chip) (l : Nat) (x : Link) : (c.setLink l x).srcs = c.srcs := rfl
@[simp] theorem Chip.setLink_dsts (c : Chip) (l : Nat) (x : Link) : (c.setLink l x).dsts = c.dsts := rfl
@[simp] theorem Chip.setLink_sent (c : Chip) (l : Nat) (x : Link) : (c.setLink l x).sent = c.sent := rfl
@[simp] theorem Chip.setLink_pwr (c : Chip) (l : Nat) (x : Link) : (c.setLink l x).pwr = c.pwr := rfl
@[simp] theorem Chip.setLink_dmc (c : Chip) (l : Nat) (x : Link) : (c.setLink l x).dmc = c.dmc := rfl
@[simp] theorem Chip.setLink_lbs (c : Chip) (l : Nat) (x : Link) : (c.setLink l x).lbs = c.lbs := rfl
@[simp] theorem Chip.setLink_sdi (c : Chip) (l : Nat) (x : Link) : (c.setLink l x).sdi = c.sdi := rfl
@[simp] theorem Chip.setLink_lanes (c : Chip) (l : Nat) (x : Link) : (c.setLink l x).lanes = c.lanes := rfl
@[simp] theorem Chip.setLink_links (c : Chip) (l : Nat) (x : Link) : (c.setLink l x).links = tput {} c.links l x := rfl
@[simp] theorem Chip.setLink_diffAt (c : Chip) (l : Nat) (x : Link) : (c.setLink l x).diffAt = c.diffAt := rfl
@[simp] theorem Chip.setLink_nets (c : Chip) (l : Nat) (x : Link) : (c.setLink l x).nets = c.nets := rfl
@[simp] theorem Chip.setLink_flows (c : Chip) (l : Nat) (x : Link) : (c.setLink l x).flows = c.flows := rfl
@[simp] theorem Chip.setLink_senders (c : Chip) (l : Nat) (x : Link) : (c.setLink l x).senders = c.senders := rfl
@[simp] theorem Chip.setLink_ptp (c : Chip) (l : Nat) (x : Link) : (c.setLink l x).ptp = c.ptp := rfl
@[simp] theorem Chip.setLink_ref (c : Chip) (l : Nat) (x : Link) : (c.setLink l x).ref = c.ref := rfl
@[simp] theorem Chip.setLink_aud (c : Chip) (l : Nat) (x : Link) : (c.setLink l x).aud = c.aud := rfl
@[simp] theorem Chip.setLink_sap (c : Chip) (l : Nat) (x : Link) : (c.setLink l x).sap = c.sap := rfl
@[simp] theorem Chip.setLink_heads (c : Chip) (l : Nat) (x : Link) : (c.setLink l x).heads = c.heads := rfl
@[simp] theorem Chip.setLink_twn (c : Chip) (l : Nat) (x : Link) : (c.setLink l x).twn = c.twn := rfl
@[simp] theorem Chip.setLink_bus (c : Chip) (l : Nat) (x : Link) : (c.setLink l x).bus = c.bus := rfl
@[simp] theorem Chip.setLink_pmcAt (c : Chip) (l : Nat) (x : Link) : (c.setLink l x).pmcAt = c.pmcAt := rfl
@[simp] theorem Chip.setLink_upd (c : Chip) (l : Nat) (x : Link) : (c.setLink l x).upd = c.upd := rfl
@[simp] theorem Chip.setLink_cell (c : Chip) (l : Nat) (x : Link) (j : Nat) : (c.setLink l x).cell j = c.cell j := rfl
@[simp] theorem Chip.setLink_get (c : Chip) (l : Nat) (x : Link) (j : Reg) : (c.setLink l x).get j = c.get j := rfl
@[simp] theorem Chip.setLink_rd (c : Chip) (l : Nat) (x : Link) (j : Fld) : (c.setLink l x).rd j = c.rd j := rfl
@[simp] theorem Chip.setLink_on (c : Chip) (l : Nat) (x : Link) (j : Fld) : (c.setLink l x).on j = c.on j := rfl
@[simp] theorem Chip.setLink_rdI (c : Chip) (l : Nat) (x : Link) (j : Fld) : (c.setLink l x).rdI j = c.rdI j := rfl

@[simp] theorem Chip.setNet_now (c : Chip) (p : Nat) (x : NetPort) : (c.setNet p x).now = c.now := rfl
@[simp] theorem Chip.setNet_free (c : Chip) (p : Nat) (x : NetPort) : (c.setNet p x).free = c.free := rfl
@[simp] theorem Chip.setNet_out (c : Chip) (p : Nat) (x : NetPort) : (c.setNet p x).out = c.out := rfl
@[simp] theorem Chip.setNet_evts (c : Chip) (p : Nat) (x : NetPort) : (c.setNet p x).evts = c.evts := rfl
@[simp] theorem Chip.setNet_risen (c : Chip) (p : Nat) (x : NetPort) : (c.setNet p x).risen = c.risen := rfl
@[simp] theorem Chip.setNet_clock (c : Chip) (p : Nat) (x : NetPort) : (c.setNet p x).clock = c.clock := rfl
@[simp] theorem Chip.setNet_regs (c : Chip) (p : Nat) (x : NetPort) : (c.setNet p x).regs = c.regs := rfl
@[simp] theorem Chip.setNet_host (c : Chip) (p : Nat) (x : NetPort) : (c.setNet p x).host = c.host := rfl
@[simp] theorem Chip.setNet_fw (c : Chip) (p : Nat) (x : NetPort) : (c.setNet p x).fw = c.fw := rfl
@[simp] theorem Chip.setNet_planes (c : Chip) (p : Nat) (x : NetPort) : (c.setNet p x).planes = c.planes := rfl
@[simp] theorem Chip.setNet_srcs (c : Chip) (p : Nat) (x : NetPort) : (c.setNet p x).srcs = c.srcs := rfl
@[simp] theorem Chip.setNet_dsts (c : Chip) (p : Nat) (x : NetPort) : (c.setNet p x).dsts = c.dsts := rfl
@[simp] theorem Chip.setNet_sent (c : Chip) (p : Nat) (x : NetPort) : (c.setNet p x).sent = c.sent := rfl
@[simp] theorem Chip.setNet_pwr (c : Chip) (p : Nat) (x : NetPort) : (c.setNet p x).pwr = c.pwr := rfl
@[simp] theorem Chip.setNet_dmc (c : Chip) (p : Nat) (x : NetPort) : (c.setNet p x).dmc = c.dmc := rfl
@[simp] theorem Chip.setNet_lbs (c : Chip) (p : Nat) (x : NetPort) : (c.setNet p x).lbs = c.lbs := rfl
@[simp] theorem Chip.setNet_sdi (c : Chip) (p : Nat) (x : NetPort) : (c.setNet p x).sdi = c.sdi := rfl
@[simp] theorem Chip.setNet_lanes (c : Chip) (p : Nat) (x : NetPort) : (c.setNet p x).lanes = c.lanes := rfl
@[simp] theorem Chip.setNet_links (c : Chip) (p : Nat) (x : NetPort) : (c.setNet p x).links = c.links := rfl
@[simp] theorem Chip.setNet_diffAt (c : Chip) (p : Nat) (x : NetPort) : (c.setNet p x).diffAt = c.diffAt := rfl
@[simp] theorem Chip.setNet_nets (c : Chip) (p : Nat) (x : NetPort) : (c.setNet p x).nets = putAt 2 {} c.nets p x := rfl
@[simp] theorem Chip.setNet_flows (c : Chip) (p : Nat) (x : NetPort) : (c.setNet p x).flows = c.flows := rfl
@[simp] theorem Chip.setNet_senders (c : Chip) (p : Nat) (x : NetPort) : (c.setNet p x).senders = c.senders := rfl
@[simp] theorem Chip.setNet_ptp (c : Chip) (p : Nat) (x : NetPort) : (c.setNet p x).ptp = c.ptp := rfl
@[simp] theorem Chip.setNet_ref (c : Chip) (p : Nat) (x : NetPort) : (c.setNet p x).ref = c.ref := rfl
@[simp] theorem Chip.setNet_aud (c : Chip) (p : Nat) (x : NetPort) : (c.setNet p x).aud = c.aud := rfl
@[simp] theorem Chip.setNet_sap (c : Chip) (p : Nat) (x : NetPort) : (c.setNet p x).sap = c.sap := rfl
@[simp] theorem Chip.setNet_heads (c : Chip) (p : Nat) (x : NetPort) : (c.setNet p x).heads = c.heads := rfl
@[simp] theorem Chip.setNet_twn (c : Chip) (p : Nat) (x : NetPort) : (c.setNet p x).twn = c.twn := rfl
@[simp] theorem Chip.setNet_bus (c : Chip) (p : Nat) (x : NetPort) : (c.setNet p x).bus = c.bus := rfl
@[simp] theorem Chip.setNet_pmcAt (c : Chip) (p : Nat) (x : NetPort) : (c.setNet p x).pmcAt = c.pmcAt := rfl
@[simp] theorem Chip.setNet_upd (c : Chip) (p : Nat) (x : NetPort) : (c.setNet p x).upd = c.upd := rfl
@[simp] theorem Chip.setNet_cell (c : Chip) (p : Nat) (x : NetPort) (j : Nat) : (c.setNet p x).cell j = c.cell j := rfl
@[simp] theorem Chip.setNet_get (c : Chip) (p : Nat) (x : NetPort) (j : Reg) : (c.setNet p x).get j = c.get j := rfl
@[simp] theorem Chip.setNet_rd (c : Chip) (p : Nat) (x : NetPort) (j : Fld) : (c.setNet p x).rd j = c.rd j := rfl
@[simp] theorem Chip.setNet_on (c : Chip) (p : Nat) (x : NetPort) (j : Fld) : (c.setNet p x).on j = c.on j := rfl
@[simp] theorem Chip.setNet_rdI (c : Chip) (p : Nat) (x : NetPort) (j : Fld) : (c.setNet p x).rdI j = c.rdI j := rfl

@[simp] theorem Chip.setFlow_now (c : Chip) (f : Nat) (x : Flow) : (c.setFlow f x).now = c.now := rfl
@[simp] theorem Chip.setFlow_free (c : Chip) (f : Nat) (x : Flow) : (c.setFlow f x).free = c.free := rfl
@[simp] theorem Chip.setFlow_out (c : Chip) (f : Nat) (x : Flow) : (c.setFlow f x).out = c.out := rfl
@[simp] theorem Chip.setFlow_evts (c : Chip) (f : Nat) (x : Flow) : (c.setFlow f x).evts = c.evts := rfl
@[simp] theorem Chip.setFlow_risen (c : Chip) (f : Nat) (x : Flow) : (c.setFlow f x).risen = c.risen := rfl
@[simp] theorem Chip.setFlow_clock (c : Chip) (f : Nat) (x : Flow) : (c.setFlow f x).clock = c.clock := rfl
@[simp] theorem Chip.setFlow_regs (c : Chip) (f : Nat) (x : Flow) : (c.setFlow f x).regs = c.regs := rfl
@[simp] theorem Chip.setFlow_host (c : Chip) (f : Nat) (x : Flow) : (c.setFlow f x).host = c.host := rfl
@[simp] theorem Chip.setFlow_fw (c : Chip) (f : Nat) (x : Flow) : (c.setFlow f x).fw = c.fw := rfl
@[simp] theorem Chip.setFlow_planes (c : Chip) (f : Nat) (x : Flow) : (c.setFlow f x).planes = c.planes := rfl
@[simp] theorem Chip.setFlow_srcs (c : Chip) (f : Nat) (x : Flow) : (c.setFlow f x).srcs = c.srcs := rfl
@[simp] theorem Chip.setFlow_dsts (c : Chip) (f : Nat) (x : Flow) : (c.setFlow f x).dsts = c.dsts := rfl
@[simp] theorem Chip.setFlow_sent (c : Chip) (f : Nat) (x : Flow) : (c.setFlow f x).sent = c.sent := rfl
@[simp] theorem Chip.setFlow_pwr (c : Chip) (f : Nat) (x : Flow) : (c.setFlow f x).pwr = c.pwr := rfl
@[simp] theorem Chip.setFlow_dmc (c : Chip) (f : Nat) (x : Flow) : (c.setFlow f x).dmc = c.dmc := rfl
@[simp] theorem Chip.setFlow_lbs (c : Chip) (f : Nat) (x : Flow) : (c.setFlow f x).lbs = c.lbs := rfl
@[simp] theorem Chip.setFlow_sdi (c : Chip) (f : Nat) (x : Flow) : (c.setFlow f x).sdi = c.sdi := rfl
@[simp] theorem Chip.setFlow_lanes (c : Chip) (f : Nat) (x : Flow) : (c.setFlow f x).lanes = c.lanes := rfl
@[simp] theorem Chip.setFlow_links (c : Chip) (f : Nat) (x : Flow) : (c.setFlow f x).links = c.links := rfl
@[simp] theorem Chip.setFlow_diffAt (c : Chip) (f : Nat) (x : Flow) : (c.setFlow f x).diffAt = c.diffAt := rfl
@[simp] theorem Chip.setFlow_nets (c : Chip) (f : Nat) (x : Flow) : (c.setFlow f x).nets = c.nets := rfl
@[simp] theorem Chip.setFlow_flows (c : Chip) (f : Nat) (x : Flow) : (c.setFlow f x).flows = tput {} c.flows f x := rfl
@[simp] theorem Chip.setFlow_senders (c : Chip) (f : Nat) (x : Flow) : (c.setFlow f x).senders = c.senders := rfl
@[simp] theorem Chip.setFlow_ptp (c : Chip) (f : Nat) (x : Flow) : (c.setFlow f x).ptp = c.ptp := rfl
@[simp] theorem Chip.setFlow_ref (c : Chip) (f : Nat) (x : Flow) : (c.setFlow f x).ref = c.ref := rfl
@[simp] theorem Chip.setFlow_aud (c : Chip) (f : Nat) (x : Flow) : (c.setFlow f x).aud = c.aud := rfl
@[simp] theorem Chip.setFlow_sap (c : Chip) (f : Nat) (x : Flow) : (c.setFlow f x).sap = c.sap := rfl
@[simp] theorem Chip.setFlow_heads (c : Chip) (f : Nat) (x : Flow) : (c.setFlow f x).heads = c.heads := rfl
@[simp] theorem Chip.setFlow_twn (c : Chip) (f : Nat) (x : Flow) : (c.setFlow f x).twn = c.twn := rfl
@[simp] theorem Chip.setFlow_bus (c : Chip) (f : Nat) (x : Flow) : (c.setFlow f x).bus = c.bus := rfl
@[simp] theorem Chip.setFlow_pmcAt (c : Chip) (f : Nat) (x : Flow) : (c.setFlow f x).pmcAt = c.pmcAt := rfl
@[simp] theorem Chip.setFlow_upd (c : Chip) (f : Nat) (x : Flow) : (c.setFlow f x).upd = c.upd := rfl
@[simp] theorem Chip.setFlow_cell (c : Chip) (f : Nat) (x : Flow) (j : Nat) : (c.setFlow f x).cell j = c.cell j := rfl
@[simp] theorem Chip.setFlow_get (c : Chip) (f : Nat) (x : Flow) (j : Reg) : (c.setFlow f x).get j = c.get j := rfl
@[simp] theorem Chip.setFlow_rd (c : Chip) (f : Nat) (x : Flow) (j : Fld) : (c.setFlow f x).rd j = c.rd j := rfl
@[simp] theorem Chip.setFlow_on (c : Chip) (f : Nat) (x : Flow) (j : Fld) : (c.setFlow f x).on j = c.on j := rfl
@[simp] theorem Chip.setFlow_rdI (c : Chip) (f : Nat) (x : Flow) (j : Fld) : (c.setFlow f x).rdI j = c.rdI j := rfl

@[simp] theorem Chip.setSender_now (c : Chip) (s : Nat) (x : Sender) : (c.setSender s x).now = c.now := rfl
@[simp] theorem Chip.setSender_free (c : Chip) (s : Nat) (x : Sender) : (c.setSender s x).free = c.free := rfl
@[simp] theorem Chip.setSender_out (c : Chip) (s : Nat) (x : Sender) : (c.setSender s x).out = c.out := rfl
@[simp] theorem Chip.setSender_evts (c : Chip) (s : Nat) (x : Sender) : (c.setSender s x).evts = c.evts := rfl
@[simp] theorem Chip.setSender_risen (c : Chip) (s : Nat) (x : Sender) : (c.setSender s x).risen = c.risen := rfl
@[simp] theorem Chip.setSender_clock (c : Chip) (s : Nat) (x : Sender) : (c.setSender s x).clock = c.clock := rfl
@[simp] theorem Chip.setSender_regs (c : Chip) (s : Nat) (x : Sender) : (c.setSender s x).regs = c.regs := rfl
@[simp] theorem Chip.setSender_host (c : Chip) (s : Nat) (x : Sender) : (c.setSender s x).host = c.host := rfl
@[simp] theorem Chip.setSender_fw (c : Chip) (s : Nat) (x : Sender) : (c.setSender s x).fw = c.fw := rfl
@[simp] theorem Chip.setSender_planes (c : Chip) (s : Nat) (x : Sender) : (c.setSender s x).planes = c.planes := rfl
@[simp] theorem Chip.setSender_srcs (c : Chip) (s : Nat) (x : Sender) : (c.setSender s x).srcs = c.srcs := rfl
@[simp] theorem Chip.setSender_dsts (c : Chip) (s : Nat) (x : Sender) : (c.setSender s x).dsts = c.dsts := rfl
@[simp] theorem Chip.setSender_sent (c : Chip) (s : Nat) (x : Sender) : (c.setSender s x).sent = c.sent := rfl
@[simp] theorem Chip.setSender_pwr (c : Chip) (s : Nat) (x : Sender) : (c.setSender s x).pwr = c.pwr := rfl
@[simp] theorem Chip.setSender_dmc (c : Chip) (s : Nat) (x : Sender) : (c.setSender s x).dmc = c.dmc := rfl
@[simp] theorem Chip.setSender_lbs (c : Chip) (s : Nat) (x : Sender) : (c.setSender s x).lbs = c.lbs := rfl
@[simp] theorem Chip.setSender_sdi (c : Chip) (s : Nat) (x : Sender) : (c.setSender s x).sdi = c.sdi := rfl
@[simp] theorem Chip.setSender_lanes (c : Chip) (s : Nat) (x : Sender) : (c.setSender s x).lanes = c.lanes := rfl
@[simp] theorem Chip.setSender_links (c : Chip) (s : Nat) (x : Sender) : (c.setSender s x).links = c.links := rfl
@[simp] theorem Chip.setSender_diffAt (c : Chip) (s : Nat) (x : Sender) : (c.setSender s x).diffAt = c.diffAt := rfl
@[simp] theorem Chip.setSender_nets (c : Chip) (s : Nat) (x : Sender) : (c.setSender s x).nets = c.nets := rfl
@[simp] theorem Chip.setSender_flows (c : Chip) (s : Nat) (x : Sender) : (c.setSender s x).flows = c.flows := rfl
@[simp] theorem Chip.setSender_senders (c : Chip) (s : Nat) (x : Sender) : (c.setSender s x).senders = tput {} c.senders s x := rfl
@[simp] theorem Chip.setSender_ptp (c : Chip) (s : Nat) (x : Sender) : (c.setSender s x).ptp = c.ptp := rfl
@[simp] theorem Chip.setSender_ref (c : Chip) (s : Nat) (x : Sender) : (c.setSender s x).ref = c.ref := rfl
@[simp] theorem Chip.setSender_aud (c : Chip) (s : Nat) (x : Sender) : (c.setSender s x).aud = c.aud := rfl
@[simp] theorem Chip.setSender_sap (c : Chip) (s : Nat) (x : Sender) : (c.setSender s x).sap = c.sap := rfl
@[simp] theorem Chip.setSender_heads (c : Chip) (s : Nat) (x : Sender) : (c.setSender s x).heads = c.heads := rfl
@[simp] theorem Chip.setSender_twn (c : Chip) (s : Nat) (x : Sender) : (c.setSender s x).twn = c.twn := rfl
@[simp] theorem Chip.setSender_bus (c : Chip) (s : Nat) (x : Sender) : (c.setSender s x).bus = c.bus := rfl
@[simp] theorem Chip.setSender_pmcAt (c : Chip) (s : Nat) (x : Sender) : (c.setSender s x).pmcAt = c.pmcAt := rfl
@[simp] theorem Chip.setSender_upd (c : Chip) (s : Nat) (x : Sender) : (c.setSender s x).upd = c.upd := rfl
@[simp] theorem Chip.setSender_cell (c : Chip) (s : Nat) (x : Sender) (j : Nat) : (c.setSender s x).cell j = c.cell j := rfl
@[simp] theorem Chip.setSender_get (c : Chip) (s : Nat) (x : Sender) (j : Reg) : (c.setSender s x).get j = c.get j := rfl
@[simp] theorem Chip.setSender_rd (c : Chip) (s : Nat) (x : Sender) (j : Fld) : (c.setSender s x).rd j = c.rd j := rfl
@[simp] theorem Chip.setSender_on (c : Chip) (s : Nat) (x : Sender) (j : Fld) : (c.setSender s x).on j = c.on j := rfl
@[simp] theorem Chip.setSender_rdI (c : Chip) (s : Nat) (x : Sender) (j : Fld) : (c.setSender s x).rdI j = c.rdI j := rfl

@[simp] theorem Chip.setHead_now (c : Chip) (h : Nat) (x : Head) : (c.setHead h x).now = c.now := rfl
@[simp] theorem Chip.setHead_free (c : Chip) (h : Nat) (x : Head) : (c.setHead h x).free = c.free := rfl
@[simp] theorem Chip.setHead_out (c : Chip) (h : Nat) (x : Head) : (c.setHead h x).out = c.out := rfl
@[simp] theorem Chip.setHead_evts (c : Chip) (h : Nat) (x : Head) : (c.setHead h x).evts = c.evts := rfl
@[simp] theorem Chip.setHead_risen (c : Chip) (h : Nat) (x : Head) : (c.setHead h x).risen = c.risen := rfl
@[simp] theorem Chip.setHead_clock (c : Chip) (h : Nat) (x : Head) : (c.setHead h x).clock = c.clock := rfl
@[simp] theorem Chip.setHead_regs (c : Chip) (h : Nat) (x : Head) : (c.setHead h x).regs = c.regs := rfl
@[simp] theorem Chip.setHead_host (c : Chip) (h : Nat) (x : Head) : (c.setHead h x).host = c.host := rfl
@[simp] theorem Chip.setHead_fw (c : Chip) (h : Nat) (x : Head) : (c.setHead h x).fw = c.fw := rfl
@[simp] theorem Chip.setHead_planes (c : Chip) (h : Nat) (x : Head) : (c.setHead h x).planes = c.planes := rfl
@[simp] theorem Chip.setHead_srcs (c : Chip) (h : Nat) (x : Head) : (c.setHead h x).srcs = c.srcs := rfl
@[simp] theorem Chip.setHead_dsts (c : Chip) (h : Nat) (x : Head) : (c.setHead h x).dsts = c.dsts := rfl
@[simp] theorem Chip.setHead_sent (c : Chip) (h : Nat) (x : Head) : (c.setHead h x).sent = c.sent := rfl
@[simp] theorem Chip.setHead_pwr (c : Chip) (h : Nat) (x : Head) : (c.setHead h x).pwr = c.pwr := rfl
@[simp] theorem Chip.setHead_dmc (c : Chip) (h : Nat) (x : Head) : (c.setHead h x).dmc = c.dmc := rfl
@[simp] theorem Chip.setHead_lbs (c : Chip) (h : Nat) (x : Head) : (c.setHead h x).lbs = c.lbs := rfl
@[simp] theorem Chip.setHead_sdi (c : Chip) (h : Nat) (x : Head) : (c.setHead h x).sdi = c.sdi := rfl
@[simp] theorem Chip.setHead_lanes (c : Chip) (h : Nat) (x : Head) : (c.setHead h x).lanes = c.lanes := rfl
@[simp] theorem Chip.setHead_links (c : Chip) (h : Nat) (x : Head) : (c.setHead h x).links = c.links := rfl
@[simp] theorem Chip.setHead_diffAt (c : Chip) (h : Nat) (x : Head) : (c.setHead h x).diffAt = c.diffAt := rfl
@[simp] theorem Chip.setHead_nets (c : Chip) (h : Nat) (x : Head) : (c.setHead h x).nets = c.nets := rfl
@[simp] theorem Chip.setHead_flows (c : Chip) (h : Nat) (x : Head) : (c.setHead h x).flows = c.flows := rfl
@[simp] theorem Chip.setHead_senders (c : Chip) (h : Nat) (x : Head) : (c.setHead h x).senders = c.senders := rfl
@[simp] theorem Chip.setHead_ptp (c : Chip) (h : Nat) (x : Head) : (c.setHead h x).ptp = c.ptp := rfl
@[simp] theorem Chip.setHead_ref (c : Chip) (h : Nat) (x : Head) : (c.setHead h x).ref = c.ref := rfl
@[simp] theorem Chip.setHead_aud (c : Chip) (h : Nat) (x : Head) : (c.setHead h x).aud = c.aud := rfl
@[simp] theorem Chip.setHead_sap (c : Chip) (h : Nat) (x : Head) : (c.setHead h x).sap = c.sap := rfl
@[simp] theorem Chip.setHead_heads (c : Chip) (h : Nat) (x : Head) : (c.setHead h x).heads = tput {} c.heads h x := rfl
@[simp] theorem Chip.setHead_twn (c : Chip) (h : Nat) (x : Head) : (c.setHead h x).twn = c.twn := rfl
@[simp] theorem Chip.setHead_bus (c : Chip) (h : Nat) (x : Head) : (c.setHead h x).bus = c.bus := rfl
@[simp] theorem Chip.setHead_pmcAt (c : Chip) (h : Nat) (x : Head) : (c.setHead h x).pmcAt = c.pmcAt := rfl
@[simp] theorem Chip.setHead_upd (c : Chip) (h : Nat) (x : Head) : (c.setHead h x).upd = c.upd := rfl
@[simp] theorem Chip.setHead_cell (c : Chip) (h : Nat) (x : Head) (j : Nat) : (c.setHead h x).cell j = c.cell j := rfl
@[simp] theorem Chip.setHead_get (c : Chip) (h : Nat) (x : Head) (j : Reg) : (c.setHead h x).get j = c.get j := rfl
@[simp] theorem Chip.setHead_rd (c : Chip) (h : Nat) (x : Head) (j : Fld) : (c.setHead h x).rd j = c.rd j := rfl
@[simp] theorem Chip.setHead_on (c : Chip) (h : Nat) (x : Head) (j : Fld) : (c.setHead h x).on j = c.on j := rfl
@[simp] theorem Chip.setHead_rdI (c : Chip) (h : Nat) (x : Head) (j : Fld) : (c.setHead h x).rdI j = c.rdI j := rfl

@[simp] theorem Chip.setSap_now (c : Chip) (p : Nat) (x : SapPort) : (c.setSap p x).now = c.now := rfl
@[simp] theorem Chip.setSap_free (c : Chip) (p : Nat) (x : SapPort) : (c.setSap p x).free = c.free := rfl
@[simp] theorem Chip.setSap_out (c : Chip) (p : Nat) (x : SapPort) : (c.setSap p x).out = c.out := rfl
@[simp] theorem Chip.setSap_evts (c : Chip) (p : Nat) (x : SapPort) : (c.setSap p x).evts = c.evts := rfl
@[simp] theorem Chip.setSap_risen (c : Chip) (p : Nat) (x : SapPort) : (c.setSap p x).risen = c.risen := rfl
@[simp] theorem Chip.setSap_clock (c : Chip) (p : Nat) (x : SapPort) : (c.setSap p x).clock = c.clock := rfl
@[simp] theorem Chip.setSap_regs (c : Chip) (p : Nat) (x : SapPort) : (c.setSap p x).regs = c.regs := rfl
@[simp] theorem Chip.setSap_host (c : Chip) (p : Nat) (x : SapPort) : (c.setSap p x).host = c.host := rfl
@[simp] theorem Chip.setSap_fw (c : Chip) (p : Nat) (x : SapPort) : (c.setSap p x).fw = c.fw := rfl
@[simp] theorem Chip.setSap_planes (c : Chip) (p : Nat) (x : SapPort) : (c.setSap p x).planes = c.planes := rfl
@[simp] theorem Chip.setSap_srcs (c : Chip) (p : Nat) (x : SapPort) : (c.setSap p x).srcs = c.srcs := rfl
@[simp] theorem Chip.setSap_dsts (c : Chip) (p : Nat) (x : SapPort) : (c.setSap p x).dsts = c.dsts := rfl
@[simp] theorem Chip.setSap_sent (c : Chip) (p : Nat) (x : SapPort) : (c.setSap p x).sent = c.sent := rfl
@[simp] theorem Chip.setSap_pwr (c : Chip) (p : Nat) (x : SapPort) : (c.setSap p x).pwr = c.pwr := rfl
@[simp] theorem Chip.setSap_dmc (c : Chip) (p : Nat) (x : SapPort) : (c.setSap p x).dmc = c.dmc := rfl
@[simp] theorem Chip.setSap_lbs (c : Chip) (p : Nat) (x : SapPort) : (c.setSap p x).lbs = c.lbs := rfl
@[simp] theorem Chip.setSap_sdi (c : Chip) (p : Nat) (x : SapPort) : (c.setSap p x).sdi = c.sdi := rfl
@[simp] theorem Chip.setSap_lanes (c : Chip) (p : Nat) (x : SapPort) : (c.setSap p x).lanes = c.lanes := rfl
@[simp] theorem Chip.setSap_links (c : Chip) (p : Nat) (x : SapPort) : (c.setSap p x).links = c.links := rfl
@[simp] theorem Chip.setSap_diffAt (c : Chip) (p : Nat) (x : SapPort) : (c.setSap p x).diffAt = c.diffAt := rfl
@[simp] theorem Chip.setSap_nets (c : Chip) (p : Nat) (x : SapPort) : (c.setSap p x).nets = c.nets := rfl
@[simp] theorem Chip.setSap_flows (c : Chip) (p : Nat) (x : SapPort) : (c.setSap p x).flows = c.flows := rfl
@[simp] theorem Chip.setSap_senders (c : Chip) (p : Nat) (x : SapPort) : (c.setSap p x).senders = c.senders := rfl
@[simp] theorem Chip.setSap_ptp (c : Chip) (p : Nat) (x : SapPort) : (c.setSap p x).ptp = c.ptp := rfl
@[simp] theorem Chip.setSap_ref (c : Chip) (p : Nat) (x : SapPort) : (c.setSap p x).ref = c.ref := rfl
@[simp] theorem Chip.setSap_aud (c : Chip) (p : Nat) (x : SapPort) : (c.setSap p x).aud = c.aud := rfl
@[simp] theorem Chip.setSap_sap (c : Chip) (p : Nat) (x : SapPort) : (c.setSap p x).sap = tput {} c.sap p x := rfl
@[simp] theorem Chip.setSap_heads (c : Chip) (p : Nat) (x : SapPort) : (c.setSap p x).heads = c.heads := rfl
@[simp] theorem Chip.setSap_twn (c : Chip) (p : Nat) (x : SapPort) : (c.setSap p x).twn = c.twn := rfl
@[simp] theorem Chip.setSap_bus (c : Chip) (p : Nat) (x : SapPort) : (c.setSap p x).bus = c.bus := rfl
@[simp] theorem Chip.setSap_pmcAt (c : Chip) (p : Nat) (x : SapPort) : (c.setSap p x).pmcAt = c.pmcAt := rfl
@[simp] theorem Chip.setSap_upd (c : Chip) (p : Nat) (x : SapPort) : (c.setSap p x).upd = c.upd := rfl
@[simp] theorem Chip.setSap_cell (c : Chip) (p : Nat) (x : SapPort) (j : Nat) : (c.setSap p x).cell j = c.cell j := rfl
@[simp] theorem Chip.setSap_get (c : Chip) (p : Nat) (x : SapPort) (j : Reg) : (c.setSap p x).get j = c.get j := rfl
@[simp] theorem Chip.setSap_rd (c : Chip) (p : Nat) (x : SapPort) (j : Fld) : (c.setSap p x).rd j = c.rd j := rfl
@[simp] theorem Chip.setSap_on (c : Chip) (p : Nat) (x : SapPort) (j : Fld) : (c.setSap p x).on j = c.on j := rfl
@[simp] theorem Chip.setSap_rdI (c : Chip) (p : Nat) (x : SapPort) (j : Fld) : (c.setSap p x).rdI j = c.rdI j := rfl

@[simp] theorem Chip.setBus_now (c : Chip) (x : Bus) : (c.setBus x).now = c.now := rfl
@[simp] theorem Chip.setBus_free (c : Chip) (x : Bus) : (c.setBus x).free = c.free := rfl
@[simp] theorem Chip.setBus_out (c : Chip) (x : Bus) : (c.setBus x).out = c.out := rfl
@[simp] theorem Chip.setBus_evts (c : Chip) (x : Bus) : (c.setBus x).evts = c.evts := rfl
@[simp] theorem Chip.setBus_risen (c : Chip) (x : Bus) : (c.setBus x).risen = c.risen := rfl
@[simp] theorem Chip.setBus_clock (c : Chip) (x : Bus) : (c.setBus x).clock = c.clock := rfl
@[simp] theorem Chip.setBus_regs (c : Chip) (x : Bus) : (c.setBus x).regs = c.regs := rfl
@[simp] theorem Chip.setBus_host (c : Chip) (x : Bus) : (c.setBus x).host = c.host := rfl
@[simp] theorem Chip.setBus_fw (c : Chip) (x : Bus) : (c.setBus x).fw = c.fw := rfl
@[simp] theorem Chip.setBus_planes (c : Chip) (x : Bus) : (c.setBus x).planes = c.planes := rfl
@[simp] theorem Chip.setBus_srcs (c : Chip) (x : Bus) : (c.setBus x).srcs = c.srcs := rfl
@[simp] theorem Chip.setBus_dsts (c : Chip) (x : Bus) : (c.setBus x).dsts = c.dsts := rfl
@[simp] theorem Chip.setBus_sent (c : Chip) (x : Bus) : (c.setBus x).sent = c.sent := rfl
@[simp] theorem Chip.setBus_pwr (c : Chip) (x : Bus) : (c.setBus x).pwr = c.pwr := rfl
@[simp] theorem Chip.setBus_dmc (c : Chip) (x : Bus) : (c.setBus x).dmc = c.dmc := rfl
@[simp] theorem Chip.setBus_lbs (c : Chip) (x : Bus) : (c.setBus x).lbs = c.lbs := rfl
@[simp] theorem Chip.setBus_sdi (c : Chip) (x : Bus) : (c.setBus x).sdi = c.sdi := rfl
@[simp] theorem Chip.setBus_lanes (c : Chip) (x : Bus) : (c.setBus x).lanes = c.lanes := rfl
@[simp] theorem Chip.setBus_links (c : Chip) (x : Bus) : (c.setBus x).links = c.links := rfl
@[simp] theorem Chip.setBus_diffAt (c : Chip) (x : Bus) : (c.setBus x).diffAt = c.diffAt := rfl
@[simp] theorem Chip.setBus_nets (c : Chip) (x : Bus) : (c.setBus x).nets = c.nets := rfl
@[simp] theorem Chip.setBus_flows (c : Chip) (x : Bus) : (c.setBus x).flows = c.flows := rfl
@[simp] theorem Chip.setBus_senders (c : Chip) (x : Bus) : (c.setBus x).senders = c.senders := rfl
@[simp] theorem Chip.setBus_ptp (c : Chip) (x : Bus) : (c.setBus x).ptp = c.ptp := rfl
@[simp] theorem Chip.setBus_ref (c : Chip) (x : Bus) : (c.setBus x).ref = c.ref := rfl
@[simp] theorem Chip.setBus_aud (c : Chip) (x : Bus) : (c.setBus x).aud = c.aud := rfl
@[simp] theorem Chip.setBus_sap (c : Chip) (x : Bus) : (c.setBus x).sap = c.sap := rfl
@[simp] theorem Chip.setBus_heads (c : Chip) (x : Bus) : (c.setBus x).heads = c.heads := rfl
@[simp] theorem Chip.setBus_twn (c : Chip) (x : Bus) : (c.setBus x).twn = c.twn := rfl
@[simp] theorem Chip.setBus_bus (c : Chip) (x : Bus) : (c.setBus x).bus = x := rfl
@[simp] theorem Chip.setBus_pmcAt (c : Chip) (x : Bus) : (c.setBus x).pmcAt = c.pmcAt := rfl
@[simp] theorem Chip.setBus_upd (c : Chip) (x : Bus) : (c.setBus x).upd = c.upd := rfl
@[simp] theorem Chip.setBus_cell (c : Chip) (x : Bus) (j : Nat) : (c.setBus x).cell j = c.cell j := rfl
@[simp] theorem Chip.setBus_get (c : Chip) (x : Bus) (j : Reg) : (c.setBus x).get j = c.get j := rfl
@[simp] theorem Chip.setBus_rd (c : Chip) (x : Bus) (j : Fld) : (c.setBus x).rd j = c.rd j := rfl
@[simp] theorem Chip.setBus_on (c : Chip) (x : Bus) (j : Fld) : (c.setBus x).on j = c.on j := rfl
@[simp] theorem Chip.setBus_rdI (c : Chip) (x : Bus) (j : Fld) : (c.setBus x).rdI j = c.rdI j := rfl

@[simp] theorem Chip.setTwn_now (c : Chip) (x : Twn) : (c.setTwn x).now = c.now := rfl
@[simp] theorem Chip.setTwn_free (c : Chip) (x : Twn) : (c.setTwn x).free = c.free := rfl
@[simp] theorem Chip.setTwn_out (c : Chip) (x : Twn) : (c.setTwn x).out = c.out := rfl
@[simp] theorem Chip.setTwn_evts (c : Chip) (x : Twn) : (c.setTwn x).evts = c.evts := rfl
@[simp] theorem Chip.setTwn_risen (c : Chip) (x : Twn) : (c.setTwn x).risen = c.risen := rfl
@[simp] theorem Chip.setTwn_clock (c : Chip) (x : Twn) : (c.setTwn x).clock = c.clock := rfl
@[simp] theorem Chip.setTwn_regs (c : Chip) (x : Twn) : (c.setTwn x).regs = c.regs := rfl
@[simp] theorem Chip.setTwn_host (c : Chip) (x : Twn) : (c.setTwn x).host = c.host := rfl
@[simp] theorem Chip.setTwn_fw (c : Chip) (x : Twn) : (c.setTwn x).fw = c.fw := rfl
@[simp] theorem Chip.setTwn_planes (c : Chip) (x : Twn) : (c.setTwn x).planes = c.planes := rfl
@[simp] theorem Chip.setTwn_srcs (c : Chip) (x : Twn) : (c.setTwn x).srcs = c.srcs := rfl
@[simp] theorem Chip.setTwn_dsts (c : Chip) (x : Twn) : (c.setTwn x).dsts = c.dsts := rfl
@[simp] theorem Chip.setTwn_sent (c : Chip) (x : Twn) : (c.setTwn x).sent = c.sent := rfl
@[simp] theorem Chip.setTwn_pwr (c : Chip) (x : Twn) : (c.setTwn x).pwr = c.pwr := rfl
@[simp] theorem Chip.setTwn_dmc (c : Chip) (x : Twn) : (c.setTwn x).dmc = c.dmc := rfl
@[simp] theorem Chip.setTwn_lbs (c : Chip) (x : Twn) : (c.setTwn x).lbs = c.lbs := rfl
@[simp] theorem Chip.setTwn_sdi (c : Chip) (x : Twn) : (c.setTwn x).sdi = c.sdi := rfl
@[simp] theorem Chip.setTwn_lanes (c : Chip) (x : Twn) : (c.setTwn x).lanes = c.lanes := rfl
@[simp] theorem Chip.setTwn_links (c : Chip) (x : Twn) : (c.setTwn x).links = c.links := rfl
@[simp] theorem Chip.setTwn_diffAt (c : Chip) (x : Twn) : (c.setTwn x).diffAt = c.diffAt := rfl
@[simp] theorem Chip.setTwn_nets (c : Chip) (x : Twn) : (c.setTwn x).nets = c.nets := rfl
@[simp] theorem Chip.setTwn_flows (c : Chip) (x : Twn) : (c.setTwn x).flows = c.flows := rfl
@[simp] theorem Chip.setTwn_senders (c : Chip) (x : Twn) : (c.setTwn x).senders = c.senders := rfl
@[simp] theorem Chip.setTwn_ptp (c : Chip) (x : Twn) : (c.setTwn x).ptp = c.ptp := rfl
@[simp] theorem Chip.setTwn_ref (c : Chip) (x : Twn) : (c.setTwn x).ref = c.ref := rfl
@[simp] theorem Chip.setTwn_aud (c : Chip) (x : Twn) : (c.setTwn x).aud = c.aud := rfl
@[simp] theorem Chip.setTwn_sap (c : Chip) (x : Twn) : (c.setTwn x).sap = c.sap := rfl
@[simp] theorem Chip.setTwn_heads (c : Chip) (x : Twn) : (c.setTwn x).heads = c.heads := rfl
@[simp] theorem Chip.setTwn_twn (c : Chip) (x : Twn) : (c.setTwn x).twn = x := rfl
@[simp] theorem Chip.setTwn_bus (c : Chip) (x : Twn) : (c.setTwn x).bus = c.bus := rfl
@[simp] theorem Chip.setTwn_pmcAt (c : Chip) (x : Twn) : (c.setTwn x).pmcAt = c.pmcAt := rfl
@[simp] theorem Chip.setTwn_upd (c : Chip) (x : Twn) : (c.setTwn x).upd = c.upd := rfl
@[simp] theorem Chip.setTwn_cell (c : Chip) (x : Twn) (j : Nat) : (c.setTwn x).cell j = c.cell j := rfl
@[simp] theorem Chip.setTwn_get (c : Chip) (x : Twn) (j : Reg) : (c.setTwn x).get j = c.get j := rfl
@[simp] theorem Chip.setTwn_rd (c : Chip) (x : Twn) (j : Fld) : (c.setTwn x).rd j = c.rd j := rfl
@[simp] theorem Chip.setTwn_on (c : Chip) (x : Twn) (j : Fld) : (c.setTwn x).on j = c.on j := rfl
@[simp] theorem Chip.setTwn_rdI (c : Chip) (x : Twn) (j : Fld) : (c.setTwn x).rdI j = c.rdI j := rfl

@[simp] theorem Chip.setUpd_now (c : Chip) (x : Upd) : (c.setUpd x).now = c.now := rfl
@[simp] theorem Chip.setUpd_free (c : Chip) (x : Upd) : (c.setUpd x).free = c.free := rfl
@[simp] theorem Chip.setUpd_out (c : Chip) (x : Upd) : (c.setUpd x).out = c.out := rfl
@[simp] theorem Chip.setUpd_evts (c : Chip) (x : Upd) : (c.setUpd x).evts = c.evts := rfl
@[simp] theorem Chip.setUpd_risen (c : Chip) (x : Upd) : (c.setUpd x).risen = c.risen := rfl
@[simp] theorem Chip.setUpd_clock (c : Chip) (x : Upd) : (c.setUpd x).clock = c.clock := rfl
@[simp] theorem Chip.setUpd_regs (c : Chip) (x : Upd) : (c.setUpd x).regs = c.regs := rfl
@[simp] theorem Chip.setUpd_host (c : Chip) (x : Upd) : (c.setUpd x).host = c.host := rfl
@[simp] theorem Chip.setUpd_fw (c : Chip) (x : Upd) : (c.setUpd x).fw = c.fw := rfl
@[simp] theorem Chip.setUpd_planes (c : Chip) (x : Upd) : (c.setUpd x).planes = c.planes := rfl
@[simp] theorem Chip.setUpd_srcs (c : Chip) (x : Upd) : (c.setUpd x).srcs = c.srcs := rfl
@[simp] theorem Chip.setUpd_dsts (c : Chip) (x : Upd) : (c.setUpd x).dsts = c.dsts := rfl
@[simp] theorem Chip.setUpd_sent (c : Chip) (x : Upd) : (c.setUpd x).sent = c.sent := rfl
@[simp] theorem Chip.setUpd_pwr (c : Chip) (x : Upd) : (c.setUpd x).pwr = c.pwr := rfl
@[simp] theorem Chip.setUpd_dmc (c : Chip) (x : Upd) : (c.setUpd x).dmc = c.dmc := rfl
@[simp] theorem Chip.setUpd_lbs (c : Chip) (x : Upd) : (c.setUpd x).lbs = c.lbs := rfl
@[simp] theorem Chip.setUpd_sdi (c : Chip) (x : Upd) : (c.setUpd x).sdi = c.sdi := rfl
@[simp] theorem Chip.setUpd_lanes (c : Chip) (x : Upd) : (c.setUpd x).lanes = c.lanes := rfl
@[simp] theorem Chip.setUpd_links (c : Chip) (x : Upd) : (c.setUpd x).links = c.links := rfl
@[simp] theorem Chip.setUpd_diffAt (c : Chip) (x : Upd) : (c.setUpd x).diffAt = c.diffAt := rfl
@[simp] theorem Chip.setUpd_nets (c : Chip) (x : Upd) : (c.setUpd x).nets = c.nets := rfl
@[simp] theorem Chip.setUpd_flows (c : Chip) (x : Upd) : (c.setUpd x).flows = c.flows := rfl
@[simp] theorem Chip.setUpd_senders (c : Chip) (x : Upd) : (c.setUpd x).senders = c.senders := rfl
@[simp] theorem Chip.setUpd_ptp (c : Chip) (x : Upd) : (c.setUpd x).ptp = c.ptp := rfl
@[simp] theorem Chip.setUpd_ref (c : Chip) (x : Upd) : (c.setUpd x).ref = c.ref := rfl
@[simp] theorem Chip.setUpd_aud (c : Chip) (x : Upd) : (c.setUpd x).aud = c.aud := rfl
@[simp] theorem Chip.setUpd_sap (c : Chip) (x : Upd) : (c.setUpd x).sap = c.sap := rfl
@[simp] theorem Chip.setUpd_heads (c : Chip) (x : Upd) : (c.setUpd x).heads = c.heads := rfl
@[simp] theorem Chip.setUpd_twn (c : Chip) (x : Upd) : (c.setUpd x).twn = c.twn := rfl
@[simp] theorem Chip.setUpd_bus (c : Chip) (x : Upd) : (c.setUpd x).bus = c.bus := rfl
@[simp] theorem Chip.setUpd_pmcAt (c : Chip) (x : Upd) : (c.setUpd x).pmcAt = c.pmcAt := rfl
@[simp] theorem Chip.setUpd_upd (c : Chip) (x : Upd) : (c.setUpd x).upd = x := rfl
@[simp] theorem Chip.setUpd_cell (c : Chip) (x : Upd) (j : Nat) : (c.setUpd x).cell j = c.cell j := rfl
@[simp] theorem Chip.setUpd_get (c : Chip) (x : Upd) (j : Reg) : (c.setUpd x).get j = c.get j := rfl
@[simp] theorem Chip.setUpd_rd (c : Chip) (x : Upd) (j : Fld) : (c.setUpd x).rd j = c.rd j := rfl
@[simp] theorem Chip.setUpd_on (c : Chip) (x : Upd) (j : Fld) : (c.setUpd x).on j = c.on j := rfl
@[simp] theorem Chip.setUpd_rdI (c : Chip) (x : Upd) (j : Fld) : (c.setUpd x).rdI j = c.rdI j := rfl

@[simp] theorem Chip.emit_now (c : Chip) (o : MemOp) : (c.emit o).now = c.now := rfl
@[simp] theorem Chip.emit_free (c : Chip) (o : MemOp) : (c.emit o).free = c.free := rfl
@[simp] theorem Chip.emit_out (c : Chip) (o : MemOp) : (c.emit o).out = c.out ++ [o] := rfl
@[simp] theorem Chip.emit_evts (c : Chip) (o : MemOp) : (c.emit o).evts = c.evts := rfl
@[simp] theorem Chip.emit_risen (c : Chip) (o : MemOp) : (c.emit o).risen = c.risen := rfl
@[simp] theorem Chip.emit_clock (c : Chip) (o : MemOp) : (c.emit o).clock = c.clock := rfl
@[simp] theorem Chip.emit_regs (c : Chip) (o : MemOp) : (c.emit o).regs = c.regs := rfl
@[simp] theorem Chip.emit_host (c : Chip) (o : MemOp) : (c.emit o).host = c.host := rfl
@[simp] theorem Chip.emit_fw (c : Chip) (o : MemOp) : (c.emit o).fw = c.fw := rfl
@[simp] theorem Chip.emit_planes (c : Chip) (o : MemOp) : (c.emit o).planes = c.planes := rfl
@[simp] theorem Chip.emit_srcs (c : Chip) (o : MemOp) : (c.emit o).srcs = c.srcs := rfl
@[simp] theorem Chip.emit_dsts (c : Chip) (o : MemOp) : (c.emit o).dsts = c.dsts := rfl
@[simp] theorem Chip.emit_sent (c : Chip) (o : MemOp) : (c.emit o).sent = c.sent := rfl
@[simp] theorem Chip.emit_pwr (c : Chip) (o : MemOp) : (c.emit o).pwr = c.pwr := rfl
@[simp] theorem Chip.emit_dmc (c : Chip) (o : MemOp) : (c.emit o).dmc = c.dmc := rfl
@[simp] theorem Chip.emit_lbs (c : Chip) (o : MemOp) : (c.emit o).lbs = c.lbs := rfl
@[simp] theorem Chip.emit_sdi (c : Chip) (o : MemOp) : (c.emit o).sdi = c.sdi := rfl
@[simp] theorem Chip.emit_lanes (c : Chip) (o : MemOp) : (c.emit o).lanes = c.lanes := rfl
@[simp] theorem Chip.emit_links (c : Chip) (o : MemOp) : (c.emit o).links = c.links := rfl
@[simp] theorem Chip.emit_diffAt (c : Chip) (o : MemOp) : (c.emit o).diffAt = c.diffAt := rfl
@[simp] theorem Chip.emit_nets (c : Chip) (o : MemOp) : (c.emit o).nets = c.nets := rfl
@[simp] theorem Chip.emit_flows (c : Chip) (o : MemOp) : (c.emit o).flows = c.flows := rfl
@[simp] theorem Chip.emit_senders (c : Chip) (o : MemOp) : (c.emit o).senders = c.senders := rfl
@[simp] theorem Chip.emit_ptp (c : Chip) (o : MemOp) : (c.emit o).ptp = c.ptp := rfl
@[simp] theorem Chip.emit_ref (c : Chip) (o : MemOp) : (c.emit o).ref = c.ref := rfl
@[simp] theorem Chip.emit_aud (c : Chip) (o : MemOp) : (c.emit o).aud = c.aud := rfl
@[simp] theorem Chip.emit_sap (c : Chip) (o : MemOp) : (c.emit o).sap = c.sap := rfl
@[simp] theorem Chip.emit_heads (c : Chip) (o : MemOp) : (c.emit o).heads = c.heads := rfl
@[simp] theorem Chip.emit_twn (c : Chip) (o : MemOp) : (c.emit o).twn = c.twn := rfl
@[simp] theorem Chip.emit_bus (c : Chip) (o : MemOp) : (c.emit o).bus = c.bus := rfl
@[simp] theorem Chip.emit_pmcAt (c : Chip) (o : MemOp) : (c.emit o).pmcAt = c.pmcAt := rfl
@[simp] theorem Chip.emit_upd (c : Chip) (o : MemOp) : (c.emit o).upd = c.upd := rfl
@[simp] theorem Chip.emit_cell (c : Chip) (o : MemOp) (j : Nat) : (c.emit o).cell j = c.cell j := rfl
@[simp] theorem Chip.emit_get (c : Chip) (o : MemOp) (j : Reg) : (c.emit o).get j = c.get j := rfl
@[simp] theorem Chip.emit_rd (c : Chip) (o : MemOp) (j : Fld) : (c.emit o).rd j = c.rd j := rfl
@[simp] theorem Chip.emit_on (c : Chip) (o : MemOp) (j : Fld) : (c.emit o).on j = c.on j := rfl
@[simp] theorem Chip.emit_rdI (c : Chip) (o : MemOp) (j : Fld) : (c.emit o).rdI j = c.rdI j := rfl

@[simp] theorem Chip.setCarafe_now (c : Chip) (r : Nat) (x : Carafe) : (c.setCarafe r x).now = c.now := rfl
@[simp] theorem Chip.setCarafe_free (c : Chip) (r : Nat) (x : Carafe) : (c.setCarafe r x).free = c.free := rfl
@[simp] theorem Chip.setCarafe_out (c : Chip) (r : Nat) (x : Carafe) : (c.setCarafe r x).out = c.out := rfl
@[simp] theorem Chip.setCarafe_evts (c : Chip) (r : Nat) (x : Carafe) : (c.setCarafe r x).evts = c.evts := rfl
@[simp] theorem Chip.setCarafe_risen (c : Chip) (r : Nat) (x : Carafe) : (c.setCarafe r x).risen = c.risen := rfl
@[simp] theorem Chip.setCarafe_clock (c : Chip) (r : Nat) (x : Carafe) : (c.setCarafe r x).clock = c.clock := rfl
@[simp] theorem Chip.setCarafe_regs (c : Chip) (r : Nat) (x : Carafe) : (c.setCarafe r x).regs = c.regs := rfl
@[simp] theorem Chip.setCarafe_host (c : Chip) (r : Nat) (x : Carafe) : (c.setCarafe r x).host = c.host := rfl
@[simp] theorem Chip.setCarafe_fw (c : Chip) (r : Nat) (x : Carafe) : (c.setCarafe r x).fw = c.fw := rfl
@[simp] theorem Chip.setCarafe_planes (c : Chip) (r : Nat) (x : Carafe) : (c.setCarafe r x).planes = c.planes := rfl
@[simp] theorem Chip.setCarafe_srcs (c : Chip) (r : Nat) (x : Carafe) : (c.setCarafe r x).srcs = c.srcs := rfl
@[simp] theorem Chip.setCarafe_dsts (c : Chip) (r : Nat) (x : Carafe) : (c.setCarafe r x).dsts = c.dsts := rfl
@[simp] theorem Chip.setCarafe_sent (c : Chip) (r : Nat) (x : Carafe) : (c.setCarafe r x).sent = c.sent := rfl
@[simp] theorem Chip.setCarafe_pwr (c : Chip) (r : Nat) (x : Carafe) : (c.setCarafe r x).pwr = c.pwr := rfl
@[simp] theorem Chip.setCarafe_dmc (c : Chip) (r : Nat) (x : Carafe) : (c.setCarafe r x).dmc = c.dmc := rfl
@[simp] theorem Chip.setCarafe_lbs (c : Chip) (r : Nat) (x : Carafe) : (c.setCarafe r x).lbs = { c.lbs with carafes := tput {} c.lbs.carafes r x } := rfl
@[simp] theorem Chip.setCarafe_sdi (c : Chip) (r : Nat) (x : Carafe) : (c.setCarafe r x).sdi = c.sdi := rfl
@[simp] theorem Chip.setCarafe_lanes (c : Chip) (r : Nat) (x : Carafe) : (c.setCarafe r x).lanes = c.lanes := rfl
@[simp] theorem Chip.setCarafe_links (c : Chip) (r : Nat) (x : Carafe) : (c.setCarafe r x).links = c.links := rfl
@[simp] theorem Chip.setCarafe_diffAt (c : Chip) (r : Nat) (x : Carafe) : (c.setCarafe r x).diffAt = c.diffAt := rfl
@[simp] theorem Chip.setCarafe_nets (c : Chip) (r : Nat) (x : Carafe) : (c.setCarafe r x).nets = c.nets := rfl
@[simp] theorem Chip.setCarafe_flows (c : Chip) (r : Nat) (x : Carafe) : (c.setCarafe r x).flows = c.flows := rfl
@[simp] theorem Chip.setCarafe_senders (c : Chip) (r : Nat) (x : Carafe) : (c.setCarafe r x).senders = c.senders := rfl
@[simp] theorem Chip.setCarafe_ptp (c : Chip) (r : Nat) (x : Carafe) : (c.setCarafe r x).ptp = c.ptp := rfl
@[simp] theorem Chip.setCarafe_ref (c : Chip) (r : Nat) (x : Carafe) : (c.setCarafe r x).ref = c.ref := rfl
@[simp] theorem Chip.setCarafe_aud (c : Chip) (r : Nat) (x : Carafe) : (c.setCarafe r x).aud = c.aud := rfl
@[simp] theorem Chip.setCarafe_sap (c : Chip) (r : Nat) (x : Carafe) : (c.setCarafe r x).sap = c.sap := rfl
@[simp] theorem Chip.setCarafe_heads (c : Chip) (r : Nat) (x : Carafe) : (c.setCarafe r x).heads = c.heads := rfl
@[simp] theorem Chip.setCarafe_twn (c : Chip) (r : Nat) (x : Carafe) : (c.setCarafe r x).twn = c.twn := rfl
@[simp] theorem Chip.setCarafe_bus (c : Chip) (r : Nat) (x : Carafe) : (c.setCarafe r x).bus = c.bus := rfl
@[simp] theorem Chip.setCarafe_pmcAt (c : Chip) (r : Nat) (x : Carafe) : (c.setCarafe r x).pmcAt = c.pmcAt := rfl
@[simp] theorem Chip.setCarafe_upd (c : Chip) (r : Nat) (x : Carafe) : (c.setCarafe r x).upd = c.upd := rfl
@[simp] theorem Chip.setCarafe_cell (c : Chip) (r : Nat) (x : Carafe) (j : Nat) : (c.setCarafe r x).cell j = c.cell j := rfl
@[simp] theorem Chip.setCarafe_get (c : Chip) (r : Nat) (x : Carafe) (j : Reg) : (c.setCarafe r x).get j = c.get j := rfl
@[simp] theorem Chip.setCarafe_rd (c : Chip) (r : Nat) (x : Carafe) (j : Fld) : (c.setCarafe r x).rd j = c.rd j := rfl
@[simp] theorem Chip.setCarafe_on (c : Chip) (r : Nat) (x : Carafe) (j : Fld) : (c.setCarafe r x).on j = c.on j := rfl
@[simp] theorem Chip.setCarafe_rdI (c : Chip) (r : Nat) (x : Carafe) (j : Fld) : (c.setCarafe r x).rdI j = c.rdI j := rfl

@[simp] theorem Chip.setPtpPort_now (c : Chip) (p : Nat) (x : PtpPort) : (c.setPtpPort p x).now = c.now := rfl
@[simp] theorem Chip.setPtpPort_free (c : Chip) (p : Nat) (x : PtpPort) : (c.setPtpPort p x).free = c.free := rfl
@[simp] theorem Chip.setPtpPort_out (c : Chip) (p : Nat) (x : PtpPort) : (c.setPtpPort p x).out = c.out := rfl
@[simp] theorem Chip.setPtpPort_evts (c : Chip) (p : Nat) (x : PtpPort) : (c.setPtpPort p x).evts = c.evts := rfl
@[simp] theorem Chip.setPtpPort_risen (c : Chip) (p : Nat) (x : PtpPort) : (c.setPtpPort p x).risen = c.risen := rfl
@[simp] theorem Chip.setPtpPort_clock (c : Chip) (p : Nat) (x : PtpPort) : (c.setPtpPort p x).clock = c.clock := rfl
@[simp] theorem Chip.setPtpPort_regs (c : Chip) (p : Nat) (x : PtpPort) : (c.setPtpPort p x).regs = c.regs := rfl
@[simp] theorem Chip.setPtpPort_host (c : Chip) (p : Nat) (x : PtpPort) : (c.setPtpPort p x).host = c.host := rfl
@[simp] theorem Chip.setPtpPort_fw (c : Chip) (p : Nat) (x : PtpPort) : (c.setPtpPort p x).fw = c.fw := rfl
@[simp] theorem Chip.setPtpPort_planes (c : Chip) (p : Nat) (x : PtpPort) : (c.setPtpPort p x).planes = c.planes := rfl
@[simp] theorem Chip.setPtpPort_srcs (c : Chip) (p : Nat) (x : PtpPort) : (c.setPtpPort p x).srcs = c.srcs := rfl
@[simp] theorem Chip.setPtpPort_dsts (c : Chip) (p : Nat) (x : PtpPort) : (c.setPtpPort p x).dsts = c.dsts := rfl
@[simp] theorem Chip.setPtpPort_sent (c : Chip) (p : Nat) (x : PtpPort) : (c.setPtpPort p x).sent = c.sent := rfl
@[simp] theorem Chip.setPtpPort_pwr (c : Chip) (p : Nat) (x : PtpPort) : (c.setPtpPort p x).pwr = c.pwr := rfl
@[simp] theorem Chip.setPtpPort_dmc (c : Chip) (p : Nat) (x : PtpPort) : (c.setPtpPort p x).dmc = c.dmc := rfl
@[simp] theorem Chip.setPtpPort_lbs (c : Chip) (p : Nat) (x : PtpPort) : (c.setPtpPort p x).lbs = c.lbs := rfl
@[simp] theorem Chip.setPtpPort_sdi (c : Chip) (p : Nat) (x : PtpPort) : (c.setPtpPort p x).sdi = c.sdi := rfl
@[simp] theorem Chip.setPtpPort_lanes (c : Chip) (p : Nat) (x : PtpPort) : (c.setPtpPort p x).lanes = c.lanes := rfl
@[simp] theorem Chip.setPtpPort_links (c : Chip) (p : Nat) (x : PtpPort) : (c.setPtpPort p x).links = c.links := rfl
@[simp] theorem Chip.setPtpPort_diffAt (c : Chip) (p : Nat) (x : PtpPort) : (c.setPtpPort p x).diffAt = c.diffAt := rfl
@[simp] theorem Chip.setPtpPort_nets (c : Chip) (p : Nat) (x : PtpPort) : (c.setPtpPort p x).nets = c.nets := rfl
@[simp] theorem Chip.setPtpPort_flows (c : Chip) (p : Nat) (x : PtpPort) : (c.setPtpPort p x).flows = c.flows := rfl
@[simp] theorem Chip.setPtpPort_senders (c : Chip) (p : Nat) (x : PtpPort) : (c.setPtpPort p x).senders = c.senders := rfl
@[simp] theorem Chip.setPtpPort_ptp (c : Chip) (p : Nat) (x : PtpPort) : (c.setPtpPort p x).ptp = { c.ptp with ports := putAt 2 {} c.ptp.ports p x } := rfl
@[simp] theorem Chip.setPtpPort_ref (c : Chip) (p : Nat) (x : PtpPort) : (c.setPtpPort p x).ref = c.ref := rfl
@[simp] theorem Chip.setPtpPort_aud (c : Chip) (p : Nat) (x : PtpPort) : (c.setPtpPort p x).aud = c.aud := rfl
@[simp] theorem Chip.setPtpPort_sap (c : Chip) (p : Nat) (x : PtpPort) : (c.setPtpPort p x).sap = c.sap := rfl
@[simp] theorem Chip.setPtpPort_heads (c : Chip) (p : Nat) (x : PtpPort) : (c.setPtpPort p x).heads = c.heads := rfl
@[simp] theorem Chip.setPtpPort_twn (c : Chip) (p : Nat) (x : PtpPort) : (c.setPtpPort p x).twn = c.twn := rfl
@[simp] theorem Chip.setPtpPort_bus (c : Chip) (p : Nat) (x : PtpPort) : (c.setPtpPort p x).bus = c.bus := rfl
@[simp] theorem Chip.setPtpPort_pmcAt (c : Chip) (p : Nat) (x : PtpPort) : (c.setPtpPort p x).pmcAt = c.pmcAt := rfl
@[simp] theorem Chip.setPtpPort_upd (c : Chip) (p : Nat) (x : PtpPort) : (c.setPtpPort p x).upd = c.upd := rfl
@[simp] theorem Chip.setPtpPort_cell (c : Chip) (p : Nat) (x : PtpPort) (j : Nat) : (c.setPtpPort p x).cell j = c.cell j := rfl
@[simp] theorem Chip.setPtpPort_get (c : Chip) (p : Nat) (x : PtpPort) (j : Reg) : (c.setPtpPort p x).get j = c.get j := rfl
@[simp] theorem Chip.setPtpPort_rd (c : Chip) (p : Nat) (x : PtpPort) (j : Fld) : (c.setPtpPort p x).rd j = c.rd j := rfl
@[simp] theorem Chip.setPtpPort_on (c : Chip) (p : Nat) (x : PtpPort) (j : Fld) : (c.setPtpPort p x).on j = c.on j := rfl
@[simp] theorem Chip.setPtpPort_rdI (c : Chip) (p : Nat) (x : PtpPort) (j : Fld) : (c.setPtpPort p x).rdI j = c.rdI j := rfl

@[simp] theorem Chip.setCand_now (c : Chip) (k : Nat) (x : Cand) : (c.setCand k x).now = c.now := rfl
@[simp] theorem Chip.setCand_free (c : Chip) (k : Nat) (x : Cand) : (c.setCand k x).free = c.free := rfl
@[simp] theorem Chip.setCand_out (c : Chip) (k : Nat) (x : Cand) : (c.setCand k x).out = c.out := rfl
@[simp] theorem Chip.setCand_evts (c : Chip) (k : Nat) (x : Cand) : (c.setCand k x).evts = c.evts := rfl
@[simp] theorem Chip.setCand_risen (c : Chip) (k : Nat) (x : Cand) : (c.setCand k x).risen = c.risen := rfl
@[simp] theorem Chip.setCand_clock (c : Chip) (k : Nat) (x : Cand) : (c.setCand k x).clock = c.clock := rfl
@[simp] theorem Chip.setCand_regs (c : Chip) (k : Nat) (x : Cand) : (c.setCand k x).regs = c.regs := rfl
@[simp] theorem Chip.setCand_host (c : Chip) (k : Nat) (x : Cand) : (c.setCand k x).host = c.host := rfl
@[simp] theorem Chip.setCand_fw (c : Chip) (k : Nat) (x : Cand) : (c.setCand k x).fw = c.fw := rfl
@[simp] theorem Chip.setCand_planes (c : Chip) (k : Nat) (x : Cand) : (c.setCand k x).planes = c.planes := rfl
@[simp] theorem Chip.setCand_srcs (c : Chip) (k : Nat) (x : Cand) : (c.setCand k x).srcs = c.srcs := rfl
@[simp] theorem Chip.setCand_dsts (c : Chip) (k : Nat) (x : Cand) : (c.setCand k x).dsts = c.dsts := rfl
@[simp] theorem Chip.setCand_sent (c : Chip) (k : Nat) (x : Cand) : (c.setCand k x).sent = c.sent := rfl
@[simp] theorem Chip.setCand_pwr (c : Chip) (k : Nat) (x : Cand) : (c.setCand k x).pwr = c.pwr := rfl
@[simp] theorem Chip.setCand_dmc (c : Chip) (k : Nat) (x : Cand) : (c.setCand k x).dmc = c.dmc := rfl
@[simp] theorem Chip.setCand_lbs (c : Chip) (k : Nat) (x : Cand) : (c.setCand k x).lbs = c.lbs := rfl
@[simp] theorem Chip.setCand_sdi (c : Chip) (k : Nat) (x : Cand) : (c.setCand k x).sdi = c.sdi := rfl
@[simp] theorem Chip.setCand_lanes (c : Chip) (k : Nat) (x : Cand) : (c.setCand k x).lanes = c.lanes := rfl
@[simp] theorem Chip.setCand_links (c : Chip) (k : Nat) (x : Cand) : (c.setCand k x).links = c.links := rfl
@[simp] theorem Chip.setCand_diffAt (c : Chip) (k : Nat) (x : Cand) : (c.setCand k x).diffAt = c.diffAt := rfl
@[simp] theorem Chip.setCand_nets (c : Chip) (k : Nat) (x : Cand) : (c.setCand k x).nets = c.nets := rfl
@[simp] theorem Chip.setCand_flows (c : Chip) (k : Nat) (x : Cand) : (c.setCand k x).flows = c.flows := rfl
@[simp] theorem Chip.setCand_senders (c : Chip) (k : Nat) (x : Cand) : (c.setCand k x).senders = c.senders := rfl
@[simp] theorem Chip.setCand_ptp (c : Chip) (k : Nat) (x : Cand) : (c.setCand k x).ptp = c.ptp := rfl
@[simp] theorem Chip.setCand_ref (c : Chip) (k : Nat) (x : Cand) : (c.setCand k x).ref = { c.ref with cands := putAt 5 {} c.ref.cands k x } := rfl
@[simp] theorem Chip.setCand_aud (c : Chip) (k : Nat) (x : Cand) : (c.setCand k x).aud = c.aud := rfl
@[simp] theorem Chip.setCand_sap (c : Chip) (k : Nat) (x : Cand) : (c.setCand k x).sap = c.sap := rfl
@[simp] theorem Chip.setCand_heads (c : Chip) (k : Nat) (x : Cand) : (c.setCand k x).heads = c.heads := rfl
@[simp] theorem Chip.setCand_twn (c : Chip) (k : Nat) (x : Cand) : (c.setCand k x).twn = c.twn := rfl
@[simp] theorem Chip.setCand_bus (c : Chip) (k : Nat) (x : Cand) : (c.setCand k x).bus = c.bus := rfl
@[simp] theorem Chip.setCand_pmcAt (c : Chip) (k : Nat) (x : Cand) : (c.setCand k x).pmcAt = c.pmcAt := rfl
@[simp] theorem Chip.setCand_upd (c : Chip) (k : Nat) (x : Cand) : (c.setCand k x).upd = c.upd := rfl
@[simp] theorem Chip.setCand_cell (c : Chip) (k : Nat) (x : Cand) (j : Nat) : (c.setCand k x).cell j = c.cell j := rfl
@[simp] theorem Chip.setCand_get (c : Chip) (k : Nat) (x : Cand) (j : Reg) : (c.setCand k x).get j = c.get j := rfl
@[simp] theorem Chip.setCand_rd (c : Chip) (k : Nat) (x : Cand) (j : Fld) : (c.setCand k x).rd j = c.rd j := rfl
@[simp] theorem Chip.setCand_on (c : Chip) (k : Nat) (x : Cand) (j : Fld) : (c.setCand k x).on j = c.on j := rfl
@[simp] theorem Chip.setCand_rdI (c : Chip) (k : Nat) (x : Cand) (j : Fld) : (c.setCand k x).rdI j = c.rdI j := rfl

@[simp] theorem Chip.setCoef_now (c : Chip) (k : Nat) (x : Coef) : (c.setCoef k x).now = c.now := rfl
@[simp] theorem Chip.setCoef_free (c : Chip) (k : Nat) (x : Coef) : (c.setCoef k x).free = c.free := rfl
@[simp] theorem Chip.setCoef_out (c : Chip) (k : Nat) (x : Coef) : (c.setCoef k x).out = c.out := rfl
@[simp] theorem Chip.setCoef_evts (c : Chip) (k : Nat) (x : Coef) : (c.setCoef k x).evts = c.evts := rfl
@[simp] theorem Chip.setCoef_risen (c : Chip) (k : Nat) (x : Coef) : (c.setCoef k x).risen = c.risen := rfl
@[simp] theorem Chip.setCoef_clock (c : Chip) (k : Nat) (x : Coef) : (c.setCoef k x).clock = c.clock := rfl
@[simp] theorem Chip.setCoef_regs (c : Chip) (k : Nat) (x : Coef) : (c.setCoef k x).regs = c.regs := rfl
@[simp] theorem Chip.setCoef_host (c : Chip) (k : Nat) (x : Coef) : (c.setCoef k x).host = c.host := rfl
@[simp] theorem Chip.setCoef_fw (c : Chip) (k : Nat) (x : Coef) : (c.setCoef k x).fw = c.fw := rfl
@[simp] theorem Chip.setCoef_planes (c : Chip) (k : Nat) (x : Coef) : (c.setCoef k x).planes = c.planes := rfl
@[simp] theorem Chip.setCoef_srcs (c : Chip) (k : Nat) (x : Coef) : (c.setCoef k x).srcs = c.srcs := rfl
@[simp] theorem Chip.setCoef_dsts (c : Chip) (k : Nat) (x : Coef) : (c.setCoef k x).dsts = c.dsts := rfl
@[simp] theorem Chip.setCoef_sent (c : Chip) (k : Nat) (x : Coef) : (c.setCoef k x).sent = c.sent := rfl
@[simp] theorem Chip.setCoef_pwr (c : Chip) (k : Nat) (x : Coef) : (c.setCoef k x).pwr = c.pwr := rfl
@[simp] theorem Chip.setCoef_dmc (c : Chip) (k : Nat) (x : Coef) : (c.setCoef k x).dmc = c.dmc := rfl
@[simp] theorem Chip.setCoef_lbs (c : Chip) (k : Nat) (x : Coef) : (c.setCoef k x).lbs = c.lbs := rfl
@[simp] theorem Chip.setCoef_sdi (c : Chip) (k : Nat) (x : Coef) : (c.setCoef k x).sdi = c.sdi := rfl
@[simp] theorem Chip.setCoef_lanes (c : Chip) (k : Nat) (x : Coef) : (c.setCoef k x).lanes = c.lanes := rfl
@[simp] theorem Chip.setCoef_links (c : Chip) (k : Nat) (x : Coef) : (c.setCoef k x).links = c.links := rfl
@[simp] theorem Chip.setCoef_diffAt (c : Chip) (k : Nat) (x : Coef) : (c.setCoef k x).diffAt = c.diffAt := rfl
@[simp] theorem Chip.setCoef_nets (c : Chip) (k : Nat) (x : Coef) : (c.setCoef k x).nets = c.nets := rfl
@[simp] theorem Chip.setCoef_flows (c : Chip) (k : Nat) (x : Coef) : (c.setCoef k x).flows = c.flows := rfl
@[simp] theorem Chip.setCoef_senders (c : Chip) (k : Nat) (x : Coef) : (c.setCoef k x).senders = c.senders := rfl
@[simp] theorem Chip.setCoef_ptp (c : Chip) (k : Nat) (x : Coef) : (c.setCoef k x).ptp = c.ptp := rfl
@[simp] theorem Chip.setCoef_ref (c : Chip) (k : Nat) (x : Coef) : (c.setCoef k x).ref = c.ref := rfl
@[simp] theorem Chip.setCoef_aud (c : Chip) (k : Nat) (x : Coef) : (c.setCoef k x).aud = { c.aud with coefs := tput {} c.aud.coefs k x } := rfl
@[simp] theorem Chip.setCoef_sap (c : Chip) (k : Nat) (x : Coef) : (c.setCoef k x).sap = c.sap := rfl
@[simp] theorem Chip.setCoef_heads (c : Chip) (k : Nat) (x : Coef) : (c.setCoef k x).heads = c.heads := rfl
@[simp] theorem Chip.setCoef_twn (c : Chip) (k : Nat) (x : Coef) : (c.setCoef k x).twn = c.twn := rfl
@[simp] theorem Chip.setCoef_bus (c : Chip) (k : Nat) (x : Coef) : (c.setCoef k x).bus = c.bus := rfl
@[simp] theorem Chip.setCoef_pmcAt (c : Chip) (k : Nat) (x : Coef) : (c.setCoef k x).pmcAt = c.pmcAt := rfl
@[simp] theorem Chip.setCoef_upd (c : Chip) (k : Nat) (x : Coef) : (c.setCoef k x).upd = c.upd := rfl
@[simp] theorem Chip.setCoef_cell (c : Chip) (k : Nat) (x : Coef) (j : Nat) : (c.setCoef k x).cell j = c.cell j := rfl
@[simp] theorem Chip.setCoef_get (c : Chip) (k : Nat) (x : Coef) (j : Reg) : (c.setCoef k x).get j = c.get j := rfl
@[simp] theorem Chip.setCoef_rd (c : Chip) (k : Nat) (x : Coef) (j : Fld) : (c.setCoef k x).rd j = c.rd j := rfl
@[simp] theorem Chip.setCoef_on (c : Chip) (k : Nat) (x : Coef) (j : Fld) : (c.setCoef k x).on j = c.on j := rfl
@[simp] theorem Chip.setCoef_rdI (c : Chip) (k : Nat) (x : Coef) (j : Fld) : (c.setCoef k x).rdI j = c.rdI j := rfl

@[simp] theorem Chip.setFilt_now (c : Chip) (i : Nat) (x : Filt) : (c.setFilt i x).now = c.now := rfl
@[simp] theorem Chip.setFilt_free (c : Chip) (i : Nat) (x : Filt) : (c.setFilt i x).free = c.free := rfl
@[simp] theorem Chip.setFilt_out (c : Chip) (i : Nat) (x : Filt) : (c.setFilt i x).out = c.out := rfl
@[simp] theorem Chip.setFilt_evts (c : Chip) (i : Nat) (x : Filt) : (c.setFilt i x).evts = c.evts := rfl
@[simp] theorem Chip.setFilt_risen (c : Chip) (i : Nat) (x : Filt) : (c.setFilt i x).risen = c.risen := rfl
@[simp] theorem Chip.setFilt_clock (c : Chip) (i : Nat) (x : Filt) : (c.setFilt i x).clock = c.clock := rfl
@[simp] theorem Chip.setFilt_regs (c : Chip) (i : Nat) (x : Filt) : (c.setFilt i x).regs = c.regs := rfl
@[simp] theorem Chip.setFilt_host (c : Chip) (i : Nat) (x : Filt) : (c.setFilt i x).host = c.host := rfl
@[simp] theorem Chip.setFilt_fw (c : Chip) (i : Nat) (x : Filt) : (c.setFilt i x).fw = c.fw := rfl
@[simp] theorem Chip.setFilt_planes (c : Chip) (i : Nat) (x : Filt) : (c.setFilt i x).planes = c.planes := rfl
@[simp] theorem Chip.setFilt_srcs (c : Chip) (i : Nat) (x : Filt) : (c.setFilt i x).srcs = c.srcs := rfl
@[simp] theorem Chip.setFilt_dsts (c : Chip) (i : Nat) (x : Filt) : (c.setFilt i x).dsts = c.dsts := rfl
@[simp] theorem Chip.setFilt_sent (c : Chip) (i : Nat) (x : Filt) : (c.setFilt i x).sent = c.sent := rfl
@[simp] theorem Chip.setFilt_pwr (c : Chip) (i : Nat) (x : Filt) : (c.setFilt i x).pwr = c.pwr := rfl
@[simp] theorem Chip.setFilt_dmc (c : Chip) (i : Nat) (x : Filt) : (c.setFilt i x).dmc = c.dmc := rfl
@[simp] theorem Chip.setFilt_lbs (c : Chip) (i : Nat) (x : Filt) : (c.setFilt i x).lbs = c.lbs := rfl
@[simp] theorem Chip.setFilt_sdi (c : Chip) (i : Nat) (x : Filt) : (c.setFilt i x).sdi = c.sdi := rfl
@[simp] theorem Chip.setFilt_lanes (c : Chip) (i : Nat) (x : Filt) : (c.setFilt i x).lanes = c.lanes := rfl
@[simp] theorem Chip.setFilt_links (c : Chip) (i : Nat) (x : Filt) : (c.setFilt i x).links = c.links := rfl
@[simp] theorem Chip.setFilt_diffAt (c : Chip) (i : Nat) (x : Filt) : (c.setFilt i x).diffAt = c.diffAt := rfl
@[simp] theorem Chip.setFilt_nets (c : Chip) (i : Nat) (x : Filt) : (c.setFilt i x).nets = c.nets := rfl
@[simp] theorem Chip.setFilt_flows (c : Chip) (i : Nat) (x : Filt) : (c.setFilt i x).flows = c.flows := rfl
@[simp] theorem Chip.setFilt_senders (c : Chip) (i : Nat) (x : Filt) : (c.setFilt i x).senders = c.senders := rfl
@[simp] theorem Chip.setFilt_ptp (c : Chip) (i : Nat) (x : Filt) : (c.setFilt i x).ptp = c.ptp := rfl
@[simp] theorem Chip.setFilt_ref (c : Chip) (i : Nat) (x : Filt) : (c.setFilt i x).ref = c.ref := rfl
@[simp] theorem Chip.setFilt_aud (c : Chip) (i : Nat) (x : Filt) : (c.setFilt i x).aud = { c.aud with filts := tput {} c.aud.filts i x } := rfl
@[simp] theorem Chip.setFilt_sap (c : Chip) (i : Nat) (x : Filt) : (c.setFilt i x).sap = c.sap := rfl
@[simp] theorem Chip.setFilt_heads (c : Chip) (i : Nat) (x : Filt) : (c.setFilt i x).heads = c.heads := rfl
@[simp] theorem Chip.setFilt_twn (c : Chip) (i : Nat) (x : Filt) : (c.setFilt i x).twn = c.twn := rfl
@[simp] theorem Chip.setFilt_bus (c : Chip) (i : Nat) (x : Filt) : (c.setFilt i x).bus = c.bus := rfl
@[simp] theorem Chip.setFilt_pmcAt (c : Chip) (i : Nat) (x : Filt) : (c.setFilt i x).pmcAt = c.pmcAt := rfl
@[simp] theorem Chip.setFilt_upd (c : Chip) (i : Nat) (x : Filt) : (c.setFilt i x).upd = c.upd := rfl
@[simp] theorem Chip.setFilt_cell (c : Chip) (i : Nat) (x : Filt) (j : Nat) : (c.setFilt i x).cell j = c.cell j := rfl
@[simp] theorem Chip.setFilt_get (c : Chip) (i : Nat) (x : Filt) (j : Reg) : (c.setFilt i x).get j = c.get j := rfl
@[simp] theorem Chip.setFilt_rd (c : Chip) (i : Nat) (x : Filt) (j : Fld) : (c.setFilt i x).rd j = c.rd j := rfl
@[simp] theorem Chip.setFilt_on (c : Chip) (i : Nat) (x : Filt) (j : Fld) : (c.setFilt i x).on j = c.on j := rfl
@[simp] theorem Chip.setFilt_rdI (c : Chip) (i : Nat) (x : Filt) (j : Fld) : (c.setFilt i x).rdI j = c.rdI j := rfl

@[simp] theorem Chip.setLim_now (c : Chip) (o : Nat) (x : Lim) : (c.setLim o x).now = c.now := rfl
@[simp] theorem Chip.setLim_free (c : Chip) (o : Nat) (x : Lim) : (c.setLim o x).free = c.free := rfl
@[simp] theorem Chip.setLim_out (c : Chip) (o : Nat) (x : Lim) : (c.setLim o x).out = c.out := rfl
@[simp] theorem Chip.setLim_evts (c : Chip) (o : Nat) (x : Lim) : (c.setLim o x).evts = c.evts := rfl
@[simp] theorem Chip.setLim_risen (c : Chip) (o : Nat) (x : Lim) : (c.setLim o x).risen = c.risen := rfl
@[simp] theorem Chip.setLim_clock (c : Chip) (o : Nat) (x : Lim) : (c.setLim o x).clock = c.clock := rfl
@[simp] theorem Chip.setLim_regs (c : Chip) (o : Nat) (x : Lim) : (c.setLim o x).regs = c.regs := rfl
@[simp] theorem Chip.setLim_host (c : Chip) (o : Nat) (x : Lim) : (c.setLim o x).host = c.host := rfl
@[simp] theorem Chip.setLim_fw (c : Chip) (o : Nat) (x : Lim) : (c.setLim o x).fw = c.fw := rfl
@[simp] theorem Chip.setLim_planes (c : Chip) (o : Nat) (x : Lim) : (c.setLim o x).planes = c.planes := rfl
@[simp] theorem Chip.setLim_srcs (c : Chip) (o : Nat) (x : Lim) : (c.setLim o x).srcs = c.srcs := rfl
@[simp] theorem Chip.setLim_dsts (c : Chip) (o : Nat) (x : Lim) : (c.setLim o x).dsts = c.dsts := rfl
@[simp] theorem Chip.setLim_sent (c : Chip) (o : Nat) (x : Lim) : (c.setLim o x).sent = c.sent := rfl
@[simp] theorem Chip.setLim_pwr (c : Chip) (o : Nat) (x : Lim) : (c.setLim o x).pwr = c.pwr := rfl
@[simp] theorem Chip.setLim_dmc (c : Chip) (o : Nat) (x : Lim) : (c.setLim o x).dmc = c.dmc := rfl
@[simp] theorem Chip.setLim_lbs (c : Chip) (o : Nat) (x : Lim) : (c.setLim o x).lbs = c.lbs := rfl
@[simp] theorem Chip.setLim_sdi (c : Chip) (o : Nat) (x : Lim) : (c.setLim o x).sdi = c.sdi := rfl
@[simp] theorem Chip.setLim_lanes (c : Chip) (o : Nat) (x : Lim) : (c.setLim o x).lanes = c.lanes := rfl
@[simp] theorem Chip.setLim_links (c : Chip) (o : Nat) (x : Lim) : (c.setLim o x).links = c.links := rfl
@[simp] theorem Chip.setLim_diffAt (c : Chip) (o : Nat) (x : Lim) : (c.setLim o x).diffAt = c.diffAt := rfl
@[simp] theorem Chip.setLim_nets (c : Chip) (o : Nat) (x : Lim) : (c.setLim o x).nets = c.nets := rfl
@[simp] theorem Chip.setLim_flows (c : Chip) (o : Nat) (x : Lim) : (c.setLim o x).flows = c.flows := rfl
@[simp] theorem Chip.setLim_senders (c : Chip) (o : Nat) (x : Lim) : (c.setLim o x).senders = c.senders := rfl
@[simp] theorem Chip.setLim_ptp (c : Chip) (o : Nat) (x : Lim) : (c.setLim o x).ptp = c.ptp := rfl
@[simp] theorem Chip.setLim_ref (c : Chip) (o : Nat) (x : Lim) : (c.setLim o x).ref = c.ref := rfl
@[simp] theorem Chip.setLim_aud (c : Chip) (o : Nat) (x : Lim) : (c.setLim o x).aud = { c.aud with lims := tput {} c.aud.lims o x } := rfl
@[simp] theorem Chip.setLim_sap (c : Chip) (o : Nat) (x : Lim) : (c.setLim o x).sap = c.sap := rfl
@[simp] theorem Chip.setLim_heads (c : Chip) (o : Nat) (x : Lim) : (c.setLim o x).heads = c.heads := rfl
@[simp] theorem Chip.setLim_twn (c : Chip) (o : Nat) (x : Lim) : (c.setLim o x).twn = c.twn := rfl
@[simp] theorem Chip.setLim_bus (c : Chip) (o : Nat) (x : Lim) : (c.setLim o x).bus = c.bus := rfl
@[simp] theorem Chip.setLim_pmcAt (c : Chip) (o : Nat) (x : Lim) : (c.setLim o x).pmcAt = c.pmcAt := rfl
@[simp] theorem Chip.setLim_upd (c : Chip) (o : Nat) (x : Lim) : (c.setLim o x).upd = c.upd := rfl
@[simp] theorem Chip.setLim_cell (c : Chip) (o : Nat) (x : Lim) (j : Nat) : (c.setLim o x).cell j = c.cell j := rfl
@[simp] theorem Chip.setLim_get (c : Chip) (o : Nat) (x : Lim) (j : Reg) : (c.setLim o x).get j = c.get j := rfl
@[simp] theorem Chip.setLim_rd (c : Chip) (o : Nat) (x : Lim) (j : Fld) : (c.setLim o x).rd j = c.rd j := rfl
@[simp] theorem Chip.setLim_on (c : Chip) (o : Nat) (x : Lim) (j : Fld) : (c.setLim o x).on j = c.on j := rfl
@[simp] theorem Chip.setLim_rdI (c : Chip) (o : Nat) (x : Lim) (j : Fld) : (c.setLim o x).rdI j = c.rdI j := rfl

/-! ### Writes of registers and fields -/

@[simp] theorem Chip.put_now (c : Chip) (r : Reg) (v : Nat) : (c.put r v).now = c.now := by unfold Chip.put; split <;> rfl
@[simp] theorem Chip.put_free (c : Chip) (r : Reg) (v : Nat) : (c.put r v).free = c.free := by unfold Chip.put; split <;> rfl
@[simp] theorem Chip.put_out (c : Chip) (r : Reg) (v : Nat) : (c.put r v).out = c.out := by unfold Chip.put; split <;> rfl
@[simp] theorem Chip.put_evts (c : Chip) (r : Reg) (v : Nat) : (c.put r v).evts = c.evts := by unfold Chip.put; split <;> rfl
@[simp] theorem Chip.put_risen (c : Chip) (r : Reg) (v : Nat) : (c.put r v).risen = c.risen := by unfold Chip.put; split <;> rfl
@[simp] theorem Chip.put_clock (c : Chip) (r : Reg) (v : Nat) : (c.put r v).clock = c.clock := by unfold Chip.put; split <;> rfl
@[simp] theorem Chip.put_host (c : Chip) (r : Reg) (v : Nat) : (c.put r v).host = c.host := by unfold Chip.put; split <;> rfl
@[simp] theorem Chip.put_fw (c : Chip) (r : Reg) (v : Nat) : (c.put r v).fw = c.fw := by unfold Chip.put; split <;> rfl
@[simp] theorem Chip.put_planes (c : Chip) (r : Reg) (v : Nat) : (c.put r v).planes = c.planes := by unfold Chip.put; split <;> rfl
@[simp] theorem Chip.put_srcs (c : Chip) (r : Reg) (v : Nat) : (c.put r v).srcs = c.srcs := by unfold Chip.put; split <;> rfl
@[simp] theorem Chip.put_dsts (c : Chip) (r : Reg) (v : Nat) : (c.put r v).dsts = c.dsts := by unfold Chip.put; split <;> rfl
@[simp] theorem Chip.put_sent (c : Chip) (r : Reg) (v : Nat) : (c.put r v).sent = c.sent := by unfold Chip.put; split <;> rfl
@[simp] theorem Chip.put_pwr (c : Chip) (r : Reg) (v : Nat) : (c.put r v).pwr = c.pwr := by unfold Chip.put; split <;> rfl
@[simp] theorem Chip.put_dmc (c : Chip) (r : Reg) (v : Nat) : (c.put r v).dmc = c.dmc := by unfold Chip.put; split <;> rfl
@[simp] theorem Chip.put_lbs (c : Chip) (r : Reg) (v : Nat) : (c.put r v).lbs = c.lbs := by unfold Chip.put; split <;> rfl
@[simp] theorem Chip.put_sdi (c : Chip) (r : Reg) (v : Nat) : (c.put r v).sdi = c.sdi := by unfold Chip.put; split <;> rfl
@[simp] theorem Chip.put_lanes (c : Chip) (r : Reg) (v : Nat) : (c.put r v).lanes = c.lanes := by unfold Chip.put; split <;> rfl
@[simp] theorem Chip.put_links (c : Chip) (r : Reg) (v : Nat) : (c.put r v).links = c.links := by unfold Chip.put; split <;> rfl
@[simp] theorem Chip.put_diffAt (c : Chip) (r : Reg) (v : Nat) : (c.put r v).diffAt = c.diffAt := by unfold Chip.put; split <;> rfl
@[simp] theorem Chip.put_nets (c : Chip) (r : Reg) (v : Nat) : (c.put r v).nets = c.nets := by unfold Chip.put; split <;> rfl
@[simp] theorem Chip.put_flows (c : Chip) (r : Reg) (v : Nat) : (c.put r v).flows = c.flows := by unfold Chip.put; split <;> rfl
@[simp] theorem Chip.put_senders (c : Chip) (r : Reg) (v : Nat) : (c.put r v).senders = c.senders := by unfold Chip.put; split <;> rfl
@[simp] theorem Chip.put_ptp (c : Chip) (r : Reg) (v : Nat) : (c.put r v).ptp = c.ptp := by unfold Chip.put; split <;> rfl
@[simp] theorem Chip.put_ref (c : Chip) (r : Reg) (v : Nat) : (c.put r v).ref = c.ref := by unfold Chip.put; split <;> rfl
@[simp] theorem Chip.put_aud (c : Chip) (r : Reg) (v : Nat) : (c.put r v).aud = c.aud := by unfold Chip.put; split <;> rfl
@[simp] theorem Chip.put_sap (c : Chip) (r : Reg) (v : Nat) : (c.put r v).sap = c.sap := by unfold Chip.put; split <;> rfl
@[simp] theorem Chip.put_heads (c : Chip) (r : Reg) (v : Nat) : (c.put r v).heads = c.heads := by unfold Chip.put; split <;> rfl
@[simp] theorem Chip.put_twn (c : Chip) (r : Reg) (v : Nat) : (c.put r v).twn = c.twn := by unfold Chip.put; split <;> rfl
@[simp] theorem Chip.put_bus (c : Chip) (r : Reg) (v : Nat) : (c.put r v).bus = c.bus := by unfold Chip.put; split <;> rfl
@[simp] theorem Chip.put_pmcAt (c : Chip) (r : Reg) (v : Nat) : (c.put r v).pmcAt = c.pmcAt := by unfold Chip.put; split <;> rfl
@[simp] theorem Chip.put_upd (c : Chip) (r : Reg) (v : Nat) : (c.put r v).upd = c.upd := by unfold Chip.put; split <;> rfl
@[simp] theorem Chip.wr_now (c : Chip) (g : Fld) (v : Nat) : (c.wr g v).now = c.now := Chip.put_now _ _ _
@[simp] theorem Chip.wr_free (c : Chip) (g : Fld) (v : Nat) : (c.wr g v).free = c.free := Chip.put_free _ _ _
@[simp] theorem Chip.wr_out (c : Chip) (g : Fld) (v : Nat) : (c.wr g v).out = c.out := Chip.put_out _ _ _
@[simp] theorem Chip.wr_evts (c : Chip) (g : Fld) (v : Nat) : (c.wr g v).evts = c.evts := Chip.put_evts _ _ _
@[simp] theorem Chip.wr_risen (c : Chip) (g : Fld) (v : Nat) : (c.wr g v).risen = c.risen := Chip.put_risen _ _ _
@[simp] theorem Chip.wr_clock (c : Chip) (g : Fld) (v : Nat) : (c.wr g v).clock = c.clock := Chip.put_clock _ _ _
@[simp] theorem Chip.wr_host (c : Chip) (g : Fld) (v : Nat) : (c.wr g v).host = c.host := Chip.put_host _ _ _
@[simp] theorem Chip.wr_fw (c : Chip) (g : Fld) (v : Nat) : (c.wr g v).fw = c.fw := Chip.put_fw _ _ _
@[simp] theorem Chip.wr_planes (c : Chip) (g : Fld) (v : Nat) : (c.wr g v).planes = c.planes := Chip.put_planes _ _ _
@[simp] theorem Chip.wr_srcs (c : Chip) (g : Fld) (v : Nat) : (c.wr g v).srcs = c.srcs := Chip.put_srcs _ _ _
@[simp] theorem Chip.wr_dsts (c : Chip) (g : Fld) (v : Nat) : (c.wr g v).dsts = c.dsts := Chip.put_dsts _ _ _
@[simp] theorem Chip.wr_sent (c : Chip) (g : Fld) (v : Nat) : (c.wr g v).sent = c.sent := Chip.put_sent _ _ _
@[simp] theorem Chip.wr_pwr (c : Chip) (g : Fld) (v : Nat) : (c.wr g v).pwr = c.pwr := Chip.put_pwr _ _ _
@[simp] theorem Chip.wr_dmc (c : Chip) (g : Fld) (v : Nat) : (c.wr g v).dmc = c.dmc := Chip.put_dmc _ _ _
@[simp] theorem Chip.wr_lbs (c : Chip) (g : Fld) (v : Nat) : (c.wr g v).lbs = c.lbs := Chip.put_lbs _ _ _
@[simp] theorem Chip.wr_sdi (c : Chip) (g : Fld) (v : Nat) : (c.wr g v).sdi = c.sdi := Chip.put_sdi _ _ _
@[simp] theorem Chip.wr_lanes (c : Chip) (g : Fld) (v : Nat) : (c.wr g v).lanes = c.lanes := Chip.put_lanes _ _ _
@[simp] theorem Chip.wr_links (c : Chip) (g : Fld) (v : Nat) : (c.wr g v).links = c.links := Chip.put_links _ _ _
@[simp] theorem Chip.wr_diffAt (c : Chip) (g : Fld) (v : Nat) : (c.wr g v).diffAt = c.diffAt := Chip.put_diffAt _ _ _
@[simp] theorem Chip.wr_nets (c : Chip) (g : Fld) (v : Nat) : (c.wr g v).nets = c.nets := Chip.put_nets _ _ _
@[simp] theorem Chip.wr_flows (c : Chip) (g : Fld) (v : Nat) : (c.wr g v).flows = c.flows := Chip.put_flows _ _ _
@[simp] theorem Chip.wr_senders (c : Chip) (g : Fld) (v : Nat) : (c.wr g v).senders = c.senders := Chip.put_senders _ _ _
@[simp] theorem Chip.wr_ptp (c : Chip) (g : Fld) (v : Nat) : (c.wr g v).ptp = c.ptp := Chip.put_ptp _ _ _
@[simp] theorem Chip.wr_ref (c : Chip) (g : Fld) (v : Nat) : (c.wr g v).ref = c.ref := Chip.put_ref _ _ _
@[simp] theorem Chip.wr_aud (c : Chip) (g : Fld) (v : Nat) : (c.wr g v).aud = c.aud := Chip.put_aud _ _ _
@[simp] theorem Chip.wr_sap (c : Chip) (g : Fld) (v : Nat) : (c.wr g v).sap = c.sap := Chip.put_sap _ _ _
@[simp] theorem Chip.wr_heads (c : Chip) (g : Fld) (v : Nat) : (c.wr g v).heads = c.heads := Chip.put_heads _ _ _
@[simp] theorem Chip.wr_twn (c : Chip) (g : Fld) (v : Nat) : (c.wr g v).twn = c.twn := Chip.put_twn _ _ _
@[simp] theorem Chip.wr_bus (c : Chip) (g : Fld) (v : Nat) : (c.wr g v).bus = c.bus := Chip.put_bus _ _ _
@[simp] theorem Chip.wr_pmcAt (c : Chip) (g : Fld) (v : Nat) : (c.wr g v).pmcAt = c.pmcAt := Chip.put_pmcAt _ _ _
@[simp] theorem Chip.wr_upd (c : Chip) (g : Fld) (v : Nat) : (c.wr g v).upd = c.upd := Chip.put_upd _ _ _

/-! ### Changes made where a condition holds, and for the elements of a list -/

@[simp] theorem Chip.when_now (c : Chip) (b : Bool) (g : Chip → Chip) : (c.when b g).now = if b then (g c).now else c.now := by cases b <;> rfl
@[simp] theorem Chip.when_free (c : Chip) (b : Bool) (g : Chip → Chip) : (c.when b g).free = if b then (g c).free else c.free := by cases b <;> rfl
@[simp] theorem Chip.when_out (c : Chip) (b : Bool) (g : Chip → Chip) : (c.when b g).out = if b then (g c).out else c.out := by cases b <;> rfl
@[simp] theorem Chip.when_evts (c : Chip) (b : Bool) (g : Chip → Chip) : (c.when b g).evts = if b then (g c).evts else c.evts := by cases b <;> rfl
@[simp] theorem Chip.when_risen (c : Chip) (b : Bool) (g : Chip → Chip) : (c.when b g).risen = if b then (g c).risen else c.risen := by cases b <;> rfl
@[simp] theorem Chip.when_clock (c : Chip) (b : Bool) (g : Chip → Chip) : (c.when b g).clock = if b then (g c).clock else c.clock := by cases b <;> rfl
@[simp] theorem Chip.when_regs (c : Chip) (b : Bool) (g : Chip → Chip) : (c.when b g).regs = if b then (g c).regs else c.regs := by cases b <;> rfl
@[simp] theorem Chip.when_host (c : Chip) (b : Bool) (g : Chip → Chip) : (c.when b g).host = if b then (g c).host else c.host := by cases b <;> rfl
@[simp] theorem Chip.when_fw (c : Chip) (b : Bool) (g : Chip → Chip) : (c.when b g).fw = if b then (g c).fw else c.fw := by cases b <;> rfl
@[simp] theorem Chip.when_planes (c : Chip) (b : Bool) (g : Chip → Chip) : (c.when b g).planes = if b then (g c).planes else c.planes := by cases b <;> rfl
@[simp] theorem Chip.when_srcs (c : Chip) (b : Bool) (g : Chip → Chip) : (c.when b g).srcs = if b then (g c).srcs else c.srcs := by cases b <;> rfl
@[simp] theorem Chip.when_dsts (c : Chip) (b : Bool) (g : Chip → Chip) : (c.when b g).dsts = if b then (g c).dsts else c.dsts := by cases b <;> rfl
@[simp] theorem Chip.when_sent (c : Chip) (b : Bool) (g : Chip → Chip) : (c.when b g).sent = if b then (g c).sent else c.sent := by cases b <;> rfl
@[simp] theorem Chip.when_pwr (c : Chip) (b : Bool) (g : Chip → Chip) : (c.when b g).pwr = if b then (g c).pwr else c.pwr := by cases b <;> rfl
@[simp] theorem Chip.when_dmc (c : Chip) (b : Bool) (g : Chip → Chip) : (c.when b g).dmc = if b then (g c).dmc else c.dmc := by cases b <;> rfl
@[simp] theorem Chip.when_lbs (c : Chip) (b : Bool) (g : Chip → Chip) : (c.when b g).lbs = if b then (g c).lbs else c.lbs := by cases b <;> rfl
@[simp] theorem Chip.when_sdi (c : Chip) (b : Bool) (g : Chip → Chip) : (c.when b g).sdi = if b then (g c).sdi else c.sdi := by cases b <;> rfl
@[simp] theorem Chip.when_lanes (c : Chip) (b : Bool) (g : Chip → Chip) : (c.when b g).lanes = if b then (g c).lanes else c.lanes := by cases b <;> rfl
@[simp] theorem Chip.when_links (c : Chip) (b : Bool) (g : Chip → Chip) : (c.when b g).links = if b then (g c).links else c.links := by cases b <;> rfl
@[simp] theorem Chip.when_diffAt (c : Chip) (b : Bool) (g : Chip → Chip) : (c.when b g).diffAt = if b then (g c).diffAt else c.diffAt := by cases b <;> rfl
@[simp] theorem Chip.when_nets (c : Chip) (b : Bool) (g : Chip → Chip) : (c.when b g).nets = if b then (g c).nets else c.nets := by cases b <;> rfl
@[simp] theorem Chip.when_flows (c : Chip) (b : Bool) (g : Chip → Chip) : (c.when b g).flows = if b then (g c).flows else c.flows := by cases b <;> rfl
@[simp] theorem Chip.when_senders (c : Chip) (b : Bool) (g : Chip → Chip) : (c.when b g).senders = if b then (g c).senders else c.senders := by cases b <;> rfl
@[simp] theorem Chip.when_ptp (c : Chip) (b : Bool) (g : Chip → Chip) : (c.when b g).ptp = if b then (g c).ptp else c.ptp := by cases b <;> rfl
@[simp] theorem Chip.when_ref (c : Chip) (b : Bool) (g : Chip → Chip) : (c.when b g).ref = if b then (g c).ref else c.ref := by cases b <;> rfl
@[simp] theorem Chip.when_aud (c : Chip) (b : Bool) (g : Chip → Chip) : (c.when b g).aud = if b then (g c).aud else c.aud := by cases b <;> rfl
@[simp] theorem Chip.when_sap (c : Chip) (b : Bool) (g : Chip → Chip) : (c.when b g).sap = if b then (g c).sap else c.sap := by cases b <;> rfl
@[simp] theorem Chip.when_heads (c : Chip) (b : Bool) (g : Chip → Chip) : (c.when b g).heads = if b then (g c).heads else c.heads := by cases b <;> rfl
@[simp] theorem Chip.when_twn (c : Chip) (b : Bool) (g : Chip → Chip) : (c.when b g).twn = if b then (g c).twn else c.twn := by cases b <;> rfl
@[simp] theorem Chip.when_bus (c : Chip) (b : Bool) (g : Chip → Chip) : (c.when b g).bus = if b then (g c).bus else c.bus := by cases b <;> rfl
@[simp] theorem Chip.when_pmcAt (c : Chip) (b : Bool) (g : Chip → Chip) : (c.when b g).pmcAt = if b then (g c).pmcAt else c.pmcAt := by cases b <;> rfl
@[simp] theorem Chip.when_upd (c : Chip) (b : Bool) (g : Chip → Chip) : (c.when b g).upd = if b then (g c).upd else c.upd := by cases b <;> rfl

@[simp] theorem Chip.when_true (c : Chip) (g : Chip → Chip) : c.when true g = g c := rfl
@[simp] theorem Chip.when_false (c : Chip) (g : Chip → Chip) : c.when false g = c := rfl
@[simp] theorem Chip.each_nil {α : Type} (c : Chip) (g : Chip → α → Chip) : c.each [] g = c := rfl
@[simp] theorem Chip.each_cons {α : Type} (c : Chip) (a : α) (l : List α) (g : Chip → α → Chip) :
    c.each (a :: l) g = (g c a).each l g := rfl

/-- What every change of a list keeps, the whole list keeps. -/
theorem Chip.each_keeps {α β : Type} (view : Chip → β) (l : List α) (g : Chip → α → Chip)
    (h : ∀ c a, a ∈ l → view (g c a) = view c) (c : Chip) : view (c.each l g) = view c := by
  induction l generalizing c with
  | nil => rfl
  | cons a l ih =>
    rw [Chip.each_cons, ih fun c b hb => h c b (List.mem_cons_of_mem _ hb)]
    exact h c a (by simp)

/-- A property that every change of a list keeps holds after the list. -/
theorem Chip.each_invariant {α : Type} (P : Chip → Prop) (l : List α) (g : Chip → α → Chip)
    (h : ∀ c a, a ∈ l → P c → P (g c a)) (c : Chip) (hc : P c) : P (c.each l g) := by
  induction l generalizing c with
  | nil => exact hc
  | cons a l ih => exact ih (fun c b hb => h c b (List.mem_cons_of_mem _ hb)) (g c a) (h c a (by simp) hc)

/-- A change of one element of a list that the other changes keep stands after the list. -/
theorem Chip.each_establishes {α : Type} (P : Chip → Prop) (l : List α) (g : Chip → α → Chip) (a : α) (ha : a ∈ l)
    (hget : ∀ c, P (g c a)) (hkeep : ∀ c b, b ∈ l → P c → P (g c b)) (c : Chip) : P (c.each l g) := by
  induction l generalizing c with
  | nil => simp at ha
  | cons b l ih =>
    rw [Chip.each_cons]
    rcases List.mem_cons.1 ha with rfl | hl
    · exact Chip.each_invariant P l g (fun c d hd => hkeep c d (List.mem_cons_of_mem _ hd)) _ (hget c)
    · exact ih hl (fun c d hd => hkeep c d (List.mem_cons_of_mem _ hd)) _

/-! ### Lists with a fixed number of entries -/

theorem getD_putAt {α : Type} (n : Nat) (dflt : α) (l : List α) (i k : Nat) (x : α) :
    (putAt n dflt l i x).getD k dflt = if k < n then (if k = i then x else l.getD k dflt) else dflt := by
  unfold putAt
  rw [List.getD_eq_getElem?_getD, List.getElem?_map]
  by_cases h : k < n
  · rw [List.getElem?_range h, if_pos h]; rfl
  · rw [List.getElem?_eq_none (by simpa using h), if_neg h]; rfl

theorem Chip.plane_setPlane (c : Chip) (p q : Nat) (x : Plane) (hq : q < 2) : (c.setPlane p x).plane q = if q = p then x else c.plane q := by
  unfold Chip.plane Chip.setPlane; rw [getD_putAt, if_pos hq]
theorem Chip.net_setNet (c : Chip) (p q : Nat) (x : NetPort) (hq : q < 2) : (c.setNet p x).net q = if q = p then x else c.net q := by
  unfold Chip.net Chip.setNet; rw [getD_putAt, if_pos hq]
theorem Chip.ptpPort_setPtpPort (c : Chip) (p q : Nat) (x : PtpPort) (hq : q < 2) :
    (c.setPtpPort p x).ptpPort q = if q = p then x else c.ptpPort q := by
  unfold Chip.ptpPort Chip.setPtpPort; rw [getD_putAt, if_pos hq]
theorem Chip.cand_setCand (c : Chip) (k j : Nat) (x : Cand) (hj : j < 5) : (c.setCand k x).cand j = if j = k then x else c.cand j := by
  unfold Chip.cand Chip.setCand; rw [getD_putAt, if_pos hj]

/-! ### One spelling for the writes of a field -/

theorem Chip.set_def (c : Chip) (f : Fld) : c.set f = c.wr f 1 := rfl
theorem Chip.clr_def (c : Chip) (f : Fld) : c.clr f = c.wr f 0 := rfl
theorem Chip.wrB_def (c : Chip) (f : Fld) (b : Bool) : c.wrB f b = c.wr f (b2n b) := rfl
theorem Chip.add_def (c : Chip) (f : Fld) (k : Nat) : c.add f k = c.wr f (satAdd f.w (c.rd f) k) := rfl
theorem Chip.inc_def (c : Chip) (f : Fld) : c.inc f = c.wr f (satAdd f.w (c.rd f) 1) := rfl
theorem Chip.wrI_def (c : Chip) (f : Fld) (i : Int) :
    c.wrI f i = c.wr f (ofSigned f.w (clampI (-(2 ^ (f.w - 1) : Nat)) ((2 ^ (f.w - 1) : Nat) - 1) i)) := rfl

end Sys2Proof.Machine
end

