-- ==== Sys2Proof/Laws/Frame.lean ====
section
/-! SUPPORT. The frame of every command: what posting an event changes, what committing a command changes, and the outcome of a command
built with each of the named frames. A register's page is its offset divided by 2^16; every block's registers lie on one page of their own. -/

namespace Sys2Proof.Machine

/-! ### Registers off a page -/

theorem Chip.on_of_cell {c c' : Chip} {f : Fld} (h : c'.cell f.off = c.cell f.off) : c'.on f = c.on f := by
  unfold Chip.on
  rw [Chip.rd_of_cell h]

theorem Chip.cell_of_regs {c c' : Chip} (h : c'.regs = c.regs) (o : Nat) : c'.cell o = c.cell o := by
  unfold Chip.cell
  rw [h]

theorem Chip.cell_when (c : Chip) (b : Bool) (g : Chip → Chip) (o : Nat) (h : (g c).cell o = c.cell o) : (c.when b g).cell o = c.cell o := by
  cases b
  · rfl
  · exact h

/-- An event writes only the mailbox page (R151). -/
theorem Chip.cell_post (c : Chip) (b k i a o : Nat) (h : o / 65536 ≠ 1) : (c.post b k i a).cell o = c.cell o := by
  have hne : ∀ f : Fld, f.off / 65536 = 1 → f.off ≠ o := by
    intro f hf he
    exact h (he ▸ hf)
  unfold Chip.post
  split
  · rfl
  · dsimp only
    split
    · unfold Chip.set Chip.inc Chip.add
      rw [Chip.cell_wr_other _ _ _ _ (hne _ rfl), Chip.cell_wr_other _ _ _ _ (hne _ rfl)]
    · exact Chip.cell_wr_other c MBX_EVT_HEAD_HEAD _ o (hne _ rfl)

theorem Chip.rd_post (c : Chip) (b k i a : Nat) (f : Fld) (h : f.off / 65536 ≠ 1) : (c.post b k i a).rd f = c.rd f :=
  Chip.rd_of_cell (Chip.cell_post c b k i a f.off h)

theorem Chip.get_post (c : Chip) (b k i a : Nat) (r : Reg) (h : r.off / 65536 ≠ 1) : (c.post b k i a).get r = c.get r :=
  Chip.get_of_cell (Chip.cell_post c b k i a r.off h)

theorem Chip.on_post (c : Chip) (b k i a : Nat) (f : Fld) (h : f.off / 65536 ≠ 1) : (c.post b k i a).on f = c.on f :=
  Chip.on_of_cell (Chip.cell_post c b k i a f.off h)

/-- Posting an event changes the registers of the mailbox, the writes to memory and the entries counted, and nothing else. -/
theorem Chip.post_keeps {β : Type} (view : Chip → β) (hr : ∀ (c : Chip) f v, view (c.wr f v) = view c)
    (he : ∀ (c : Chip) o n, view { c.emit o with evts := n } = view c) (c : Chip) (b k i a : Nat) : view (c.post b k i a) = view c := by
  unfold Chip.post
  split
  · rfl
  · dsimp only
    split
    · unfold Chip.set Chip.inc Chip.add
      rw [hr, hr]
    · rw [he, hr]

@[simp] theorem Chip.post_now (c : Chip) (b k i a : Nat) : (c.post b k i a).now = c.now :=
  Chip.post_keeps Chip.now Chip.wr_now (fun _ _ _ => rfl) c b k i a
@[simp] theorem Chip.post_free (c : Chip) (b k i a : Nat) : (c.post b k i a).free = c.free :=
  Chip.post_keeps Chip.free Chip.wr_free (fun _ _ _ => rfl) c b k i a
@[simp] theorem Chip.post_clock (c : Chip) (b k i a : Nat) : (c.post b k i a).clock = c.clock :=
  Chip.post_keeps Chip.clock Chip.wr_clock (fun _ _ _ => rfl) c b k i a
@[simp] theorem Chip.post_host (c : Chip) (b k i a : Nat) : (c.post b k i a).host = c.host :=
  Chip.post_keeps Chip.host Chip.wr_host (fun _ _ _ => rfl) c b k i a
@[simp] theorem Chip.post_fw (c : Chip) (b k i a : Nat) : (c.post b k i a).fw = c.fw :=
  Chip.post_keeps Chip.fw Chip.wr_fw (fun _ _ _ => rfl) c b k i a
@[simp] theorem Chip.post_planes (c : Chip) (b k i a : Nat) : (c.post b k i a).planes = c.planes :=
  Chip.post_keeps Chip.planes Chip.wr_planes (fun _ _ _ => rfl) c b k i a
@[simp] theorem Chip.post_srcs (c : Chip) (b k i a : Nat) : (c.post b k i a).srcs = c.srcs :=
  Chip.post_keeps Chip.srcs Chip.wr_srcs (fun _ _ _ => rfl) c b k i a
@[simp] theorem Chip.post_dsts (c : Chip) (b k i a : Nat) : (c.post b k i a).dsts = c.dsts :=
  Chip.post_keeps Chip.dsts Chip.wr_dsts (fun _ _ _ => rfl) c b k i a
@[simp] theorem Chip.post_sent (c : Chip) (b k i a : Nat) : (c.post b k i a).sent = c.sent :=
  Chip.post_keeps Chip.sent Chip.wr_sent (fun _ _ _ => rfl) c b k i a
@[simp] theorem Chip.post_pwr (c : Chip) (b k i a : Nat) : (c.post b k i a).pwr = c.pwr :=
  Chip.post_keeps Chip.pwr Chip.wr_pwr (fun _ _ _ => rfl) c b k i a
@[simp] theorem Chip.post_dmc (c : Chip) (b k i a : Nat) : (c.post b k i a).dmc = c.dmc :=
  Chip.post_keeps Chip.dmc Chip.wr_dmc (fun _ _ _ => rfl) c b k i a
@[simp] theorem Chip.post_lbs (c : Chip) (b k i a : Nat) : (c.post b k i a).lbs = c.lbs :=
  Chip.post_keeps Chip.lbs Chip.wr_lbs (fun _ _ _ => rfl) c b k i a
@[simp] theorem Chip.post_sdi (c : Chip) (b k i a : Nat) : (c.post b k i a).sdi = c.sdi :=
  Chip.post_keeps Chip.sdi Chip.wr_sdi (fun _ _ _ => rfl) c b k i a
@[simp] theorem Chip.post_lanes (c : Chip) (b k i a : Nat) : (c.post b k i a).lanes = c.lanes :=
  Chip.post_keeps Chip.lanes Chip.wr_lanes (fun _ _ _ => rfl) c b k i a
@[simp] theorem Chip.post_links (c : Chip) (b k i a : Nat) : (c.post b k i a).links = c.links :=
  Chip.post_keeps Chip.links Chip.wr_links (fun _ _ _ => rfl) c b k i a
@[simp] theorem Chip.post_diffAt (c : Chip) (b k i a : Nat) : (c.post b k i a).diffAt = c.diffAt :=
  Chip.post_keeps Chip.diffAt Chip.wr_diffAt (fun _ _ _ => rfl) c b k i a
@[simp] theorem Chip.post_nets (c : Chip) (b k i a : Nat) : (c.post b k i a).nets = c.nets :=
  Chip.post_keeps Chip.nets Chip.wr_nets (fun _ _ _ => rfl) c b k i a
@[simp] theorem Chip.post_flows (c : Chip) (b k i a : Nat) : (c.post b k i a).flows = c.flows :=
  Chip.post_keeps Chip.flows Chip.wr_flows (fun _ _ _ => rfl) c b k i a
@[simp] theorem Chip.post_senders (c : Chip) (b k i a : Nat) : (c.post b k i a).senders = c.senders :=
  Chip.post_keeps Chip.senders Chip.wr_senders (fun _ _ _ => rfl) c b k i a
@[simp] theorem Chip.post_ptp (c : Chip) (b k i a : Nat) : (c.post b k i a).ptp = c.ptp :=
  Chip.post_keeps Chip.ptp Chip.wr_ptp (fun _ _ _ => rfl) c b k i a
@[simp] theorem Chip.post_ref (c : Chip) (b k i a : Nat) : (c.post b k i a).ref = c.ref :=
  Chip.post_keeps Chip.ref Chip.wr_ref (fun _ _ _ => rfl) c b k i a
@[simp] theorem Chip.post_aud (c : Chip) (b k i a : Nat) : (c.post b k i a).aud = c.aud :=
  Chip.post_keeps Chip.aud Chip.wr_aud (fun _ _ _ => rfl) c b k i a
@[simp] theorem Chip.post_sap (c : Chip) (b k i a : Nat) : (c.post b k i a).sap = c.sap :=
  Chip.post_keeps Chip.sap Chip.wr_sap (fun _ _ _ => rfl) c b k i a
@[simp] theorem Chip.post_heads (c : Chip) (b k i a : Nat) : (c.post b k i a).heads = c.heads :=
  Chip.post_keeps Chip.heads Chip.wr_heads (fun _ _ _ => rfl) c b k i a
@[simp] theorem Chip.post_twn (c : Chip) (b k i a : Nat) : (c.post b k i a).twn = c.twn :=
  Chip.post_keeps Chip.twn Chip.wr_twn (fun _ _ _ => rfl) c b k i a
@[simp] theorem Chip.post_bus (c : Chip) (b k i a : Nat) : (c.post b k i a).bus = c.bus :=
  Chip.post_keeps Chip.bus Chip.wr_bus (fun _ _ _ => rfl) c b k i a
@[simp] theorem Chip.post_pmcAt (c : Chip) (b k i a : Nat) : (c.post b k i a).pmcAt = c.pmcAt :=
  Chip.post_keeps Chip.pmcAt Chip.wr_pmcAt (fun _ _ _ => rfl) c b k i a
@[simp] theorem Chip.post_upd (c : Chip) (b k i a : Nat) : (c.post b k i a).upd = c.upd :=
  Chip.post_keeps Chip.upd Chip.wr_upd (fun _ _ _ => rfl) c b k i a

/-! ### The frame of a command -/

@[simp] theorem State.commit_pending (s : State) (c : Chip) : (s.commit c).pending = s.pending := rfl
@[simp] theorem State.commit_mem (s : State) (c : Chip) : (s.commit c).mem = c.out.foldl Memory.apply s.mem := rfl
@[simp] theorem State.commit_out (s : State) (c : Chip) : (s.commit c).chip.out = [] := rfl
@[simp] theorem State.commit_evts (s : State) (c : Chip) : (s.commit c).chip.evts = 0 := rfl
@[simp] theorem State.commit_cell (s : State) (c : Chip) (o : Nat) : (s.commit c).chip.cell o = c.cell o := rfl
@[simp] theorem State.commit_get (s : State) (c : Chip) (r : Reg) : (s.commit c).chip.get r = c.get r := rfl
@[simp] theorem State.commit_rd (s : State) (c : Chip) (f : Fld) : (s.commit c).chip.rd f = c.rd f := rfl
@[simp] theorem State.commit_on (s : State) (c : Chip) (f : Fld) : (s.commit c).chip.on f = c.on f := rfl
@[simp] theorem State.commit_rdI (s : State) (c : Chip) (f : Fld) : (s.commit c).chip.rdI f = c.rdI f := rfl
@[simp] theorem State.commit_now (s : State) (c : Chip) : (s.commit c).chip.now = c.now := rfl
@[simp] theorem State.commit_free (s : State) (c : Chip) : (s.commit c).chip.free = c.free := rfl
@[simp] theorem State.commit_clock (s : State) (c : Chip) : (s.commit c).chip.clock = c.clock := rfl
@[simp] theorem State.commit_fw (s : State) (c : Chip) : (s.commit c).chip.fw = c.fw := rfl
@[simp] theorem State.commit_planes (s : State) (c : Chip) : (s.commit c).chip.planes = c.planes := rfl
@[simp] theorem State.commit_srcs (s : State) (c : Chip) : (s.commit c).chip.srcs = c.srcs := rfl
@[simp] theorem State.commit_dsts (s : State) (c : Chip) : (s.commit c).chip.dsts = c.dsts := rfl
@[simp] theorem State.commit_sent (s : State) (c : Chip) : (s.commit c).chip.sent = c.sent := rfl
@[simp] theorem State.commit_pwr (s : State) (c : Chip) : (s.commit c).chip.pwr = c.pwr := rfl
@[simp] theorem State.commit_dmc (s : State) (c : Chip) : (s.commit c).chip.dmc = c.dmc := rfl
@[simp] theorem State.commit_lbs (s : State) (c : Chip) : (s.commit c).chip.lbs = c.lbs := rfl
@[simp] theorem State.commit_sdi (s : State) (c : Chip) : (s.commit c).chip.sdi = c.sdi := rfl
@[simp] theorem State.commit_lanes (s : State) (c : Chip) : (s.commit c).chip.lanes = c.lanes := rfl
@[simp] theorem State.commit_links (s : State) (c : Chip) : (s.commit c).chip.links = c.links := rfl
@[simp] theorem State.commit_diffAt (s : State) (c : Chip) : (s.commit c).chip.diffAt = c.diffAt := rfl
@[simp] theorem State.commit_nets (s : State) (c : Chip) : (s.commit c).chip.nets = c.nets := rfl
@[simp] theorem State.commit_flows (s : State) (c : Chip) : (s.commit c).chip.flows = c.flows := rfl
@[simp] theorem State.commit_senders (s : State) (c : Chip) : (s.commit c).chip.senders = c.senders := rfl
@[simp] theorem State.commit_ptp (s : State) (c : Chip) : (s.commit c).chip.ptp = c.ptp := rfl
@[simp] theorem State.commit_ref (s : State) (c : Chip) : (s.commit c).chip.ref = c.ref := rfl
@[simp] theorem State.commit_aud (s : State) (c : Chip) : (s.commit c).chip.aud = c.aud := rfl
@[simp] theorem State.commit_sap (s : State) (c : Chip) : (s.commit c).chip.sap = c.sap := rfl
@[simp] theorem State.commit_heads (s : State) (c : Chip) : (s.commit c).chip.heads = c.heads := rfl
@[simp] theorem State.commit_twn (s : State) (c : Chip) : (s.commit c).chip.twn = c.twn := rfl
@[simp] theorem State.commit_bus (s : State) (c : Chip) : (s.commit c).chip.bus = c.bus := rfl
@[simp] theorem State.commit_pmcAt (s : State) (c : Chip) : (s.commit c).chip.pmcAt = c.pmcAt := rfl
@[simp] theorem State.commit_upd (s : State) (c : Chip) : (s.commit c).chip.upd = c.upd := rfl

/-- What a command answers, whatever it does: a next state with the queue as it was, memory in canonical form, and nothing of the
command left undone. -/
theorem State.run_next (s : State) (t : Nat) (f : Chip → Chip) :
    ∃ s', s.run t f = .next s' ∧ s'.pending = s.pending ∧ s'.chip.out = [] ∧ s'.chip.evts = 0
      ∧ (s.mem.wf = true → s'.mem.wf = true) :=
  ⟨_, rfl, rfl, rfl, rfl, Memory.applyAll_wf _ _⟩

theorem State.event_live (s : State) (t : Nat) (f : Chip → Chip) (h : (s.chipAt t).live = true) :
    s.event t f = .next (s.commit (f (s.chipAt t))) := by
  simp [State.event, State.run, h]

theorem State.fwStep_ready (s : State) (t : Nat) (f : Chip → Chip) (h : (s.chipAt t).ready = true) :
    s.fwStep t f = .next (s.commit (f (s.chipAt t))) := by
  simp [State.fwStep, State.run, h]

end Sys2Proof.Machine
end

