-- ==== Sys2Proof/WellFormed.lean ====
section
/-! DEFINITION. Which commands are well formed: operands within what the spec lets them be, beyond what their types already say. -/

namespace Sys2Proof

/-- A 32-bit word, and a 32-bit two's complement quantity. -/
def isWord (n : Nat) : Bool := n < 2 ^ 32
def isInt32 (i : Int) : Bool := -2 ^ 31 ≤ i && i < 2 ^ 31

/-- An access of 1, 2, 4 or 8 bytes inside its window, with a value of its width (R11, R118, R121). -/
def HostWrite.wf (w : HostWrite) : Bool :=
  [1, 2, 4, 8].contains w.width && w.value < 256 ^ w.width
    && w.off + w.width ≤ (match w.port with | .bar0 => 2 ^ 24 | .bar2 => 2 ^ 18 | .service => 2 ^ 24)

/-- The counts a port can make, a format code of R160, and an ST 352 link number (R210, R216). -/
def FrameIn.wf (f : FrameIn) : Bool := f.lines < 65536 && f.words < 65536 && isWord f.period && f.pid < 64 && f.link < 16

/-- One or two ranks, and a capacity that is not 0 (R246). -/
def Dimm.wf (d : Dimm) : Bool := (d.ranks == 1 || d.ranks == 2) && 1 ≤ d.gib

/-- A length and codeword counts of one frame (R372, R386). -/
def NetFrame.wf (f : NetFrame) : Bool := f.len < 65536 && isWord f.corrected && isWord f.uncorrectable

/-- An extended sequence number, and a line (R405, R409). -/
def MediaPacket.wf (p : MediaPacket) : Bool := p.seq < 2 ^ 64 && p.line < 65536
def AudioPacket.wf (p : AudioPacket) : Bool := p.seq < 2 ^ 64

/-- 48 samples of 24 bits for each input listed, inputs of the engine and ports of the part (R468, R470). -/
def AudioBlock.wf (b : AudioBlock) : Bool :=
  (b.ins.all fun e => e.1 ≤ 7713 && e.2.length == 48 && e.2.all fun x => -8388608 ≤ x && x ≤ 8388607)
    && b.nonAudio.all (· ≤ 7713) && isInt32 b.move && b.rates.all fun e => e.1 < 16 && isInt32 e.2

/-- Destinations with their CRCs (R560, R563). -/
def crcsWf (l : List (Nat × Nat)) : Bool := l.all fun e => e.1 < 384 && isWord e.2

/-- A command of the peer: a channel, a sequence number, words (R556). -/
def Machine.TwinCommand.wf (m : TwinCommand) : Bool :=
  isWord m.fwdSeq && m.chan < 16 && m.seq < 65536 && isWord m.cur0 && isWord m.cur1 && isWord m.epoch0 && isWord m.epoch1
    && 4 ≤ m.words.length && m.words.all isWord

/-- A decision of the peer names sources, planes, candidates and heads of the part (R554). -/
def Machine.TwinDecision.wf : TwinDecision → Bool
  | .sync s _ _ _ => s < 332
  | .select q k => q < 2 && k < 5
  | .bridge b _ => isWord b
  | .head h d => h < 4 && isWord d.frame && d.taps.all (fun e => e.1 < 16 && e.2 ≤ 2) && d.lates.all (· < 16) && d.flips.all fun f => f.2 < 16

/-- A segment names a graphic layer and a buffer of the part; a configuration image has two planes (R575). -/
def Machine.TwinSegment.wf : TwinSegment → Bool
  | .config i => i.planes.length == 2 && isWord i.fwdSeq
  | .graphic h l b px => h < 4 && l < 4 && b < 2 && px.all fun e => isWord e.2
  | .audio i => i.coefs.all (fun e => e.1 < 512 * 512) && i.filts.all (fun e => e.1 < 512) && i.lims.all fun e => e.1 < 512

/-- An evidence record names a source and an epoch (R567). -/
def Machine.Evid.wf (e : Evid) : Bool := e.src < 332 && isWord e.epoch

/-- An access of a master port: a beat of 1 to 16 bytes, aligned to itself, and as many bytes as it writes (R589). -/
def Machine.BusAcc.wf (a : BusAcc) : Bool :=
  a.m < 10 && a.id < 16 && 1 ≤ a.beats && a.beats ≤ 16 && [1, 2, 4, 8, 16].contains a.size && a.addr % a.size == 0 && a.addr < 2 ^ 44
    && a.data.all (· < 256) && (!a.write || a.data.length == a.beats * a.size)

/-- Digests of eight words, and numbers of a word (R614, R616). -/
def Machine.Package.wf (p : Package) : Bool :=
  p.digest.length == 8 && p.digest.all isWord && isWord p.idcode && isWord p.version && isWord p.schema
    && p.comps.all fun x => x.digest.length == 8 && x.digest.all isWord && isWord x.version && isWord x.svn

/-- A command is well formed. -/
def Instr.wf : Instr → Bool
  | .registerWrite _ w => w.wf
  | .ring _ _ => true
  | .msixUnmask _ _ => true
  | .endpointReset _ => true
  | .echo _ _ => true
  | .getInfo _ _ => true
  | .getEpoch _ _ => true
  | .restartFw _ _ => true
  | .deviceReset _ _ => true
  | .setRole _ _ => true
  | .cancel _ _ => true
  | .clearSticky _ _ => true
  | .laneReset _ _ => true
  | .peerRelayTimeout _ _ => true
  | .journalHoldTimeout _ _ => true
  | .pwrGetStatus _ _ => true
  | .pwrSetDomain _ _ => true
  | .pwrSetDomainDone _ _ => true
  | .pwrSetMon _ _ => true
  | .pwrEnterQuiet _ _ => true
  | .refGetStatus _ _ => true
  | .refSetCandidate _ _ => true
  | .refSetPlane _ _ => true
  | .ptpGetStatus _ _ => true
  | .ptpGetRecords _ _ => true
  | .ptpSetPort _ _ => true
  | .xptGetRoutes _ _ => true
  | .xptGetBudget _ _ => true
  | .xptTake _ _ => true
  | .xptSalvo _ _ => true
  | .xptSetDest _ _ => true
  | .xptSetGen _ _ => true
  | .fsyGetStatus _ _ => true
  | .fsySetSource _ _ => true
  | .lbsGetStatus _ _ => true
  | .lbsSetRecord _ _ => true
  | .lbsSetPlayback _ _ => true
  | .dmcGetStatus _ _ => true
  | .dmcSetChannel _ _ => true
  | .sdiGetStatus _ _ => true
  | .sdiSetRx _ _ => true
  | .sdiSetTx _ _ => true
  | .fabGetStatus _ _ => true
  | .fabSetLink _ _ => true
  | .fabSetSlots _ _ => true
  | .fabLoopback _ _ => true
  | .netGetStats _ _ => true
  | .netSetPort _ _ => true
  | .netSetGcl _ _ => true
  | .flowGetStatus _ _ => true
  | .flowJoin _ _ => true
  | .flowLeave _ _ => true
  | .flowSetSender _ _ => true
  | .audGetStatus _ _ => true
  | .audSetShuffle _ _ => true
  | .audSetGains _ _ => true
  | .audSetLimiter _ _ => true
  | .sapGetStatus _ _ => true
  | .sapSetPort _ _ => true
  | .mvcGetStatus _ _ => true
  | .mvcSetHead _ _ => true
  | .mvcSetLayers _ _ => true
  | .mvcLoadGraphic _ _ => true
  | .graphicLoadDone _ _ _ data => data.all fun d => d.all isWord
  | .mvcFlip _ _ => true
  | .twnGetStatus _ _ => true
  | .twnHandover _ _ => true
  | .twnSetPolicy _ _ => true
  | .busGetStatus _ _ => true
  | .busSetAperture _ _ => true
  | .updGetStatus _ _ => true
  | .secAttest _ _ => true
  | .updDownload _ _ => true
  | .updVerify _ _ => true
  | .updActivate _ _ => true
  | .updConfirm _ _ => true
  | .resetNLow _ => true
  | .porstNLow _ => true
  | .railBelowReset _ _ => true
  | .firstPowerUp _ => true
  | .resetRelease _ => true
  | .strapSample _ _ => true
  | .watchdogExpiry _ => true
  | .bootRomRun _ _ b0 b1 => b0.all Machine.Package.wf && b1.all Machine.Package.wf
  | .fwReady _ _ => true
  | .configurationLoad _ => true
  | .mramRefreshRewrite _ => true
  | .railBelowWarning _ _ => true
  | .railAboveWarning _ _ => true
  | .mramHoldRelease _ => true
  | .mramWriteDone _ => true
  | .pwrMonCfgWrite _ _ _ => true
  | .domainReqWrite _ _ _ => true
  | .domainTransitionDone _ _ => true
  | .netWake _ _ => true
  | .enter _ => true
  | .wake _ => true
  | .thermalReading _ _ => true
  | .loInLoss _ => true
  | .loInReturn _ => true
  | .faultScanFrame _ _ => true
  | .queueFault _ _ => true
  | .frameBoundary _ _ => true
  | .switchingPoint _ _ _ => true
  | .sourceFrameArrival _ _ f => f.wf
  | .srcDemoted _ _ => true
  | .presentationInstant _ _ _ _ _ conceal => isWord conceal
  | .srcInvalid _ _ => true
  | .srcValid _ _ => true
  | .invalidLine _ _ _ => true
  | .pbPauseExpired _ _ => true
  | .storeHalted _ _ => true
  | .channelTraining _ _ dimm => dimm.all Dimm.wf
  | .channelReady _ _ rd wr => rd.length == 40 && wr.length == 40
  | .trainFailed _ _ => true
  | .refreshBoundary _ _ _ _ => true
  | .percolatorSweep _ _ _ results => results.length == 20
  | .dramReadEcc _ _ _ => true
  | .patrolScrub _ _ _ => true
  | .parityAlert _ _ _ => true
  | .channelFailed _ _ => true
  | .huntTrialEnd _ _ => true
  | .rxLock _ _ _ _ => true
  | .rxLos _ _ => true
  | .cdrMarginCheck _ _ => true
  | .sdiLineCheck _ _ _ _ => true
  | .ancillaryCapture _ _ _ _ _ _ => true
  | .fabSignalLost _ _ => true
  | .fabSignalPresent _ _ => true
  | .verifyDone _ _ _ _ _ _ _ => true
  | .sweepDone _ _ heights clean _ => heights.length == 64 && clean.length == 64
  | .laneRetry _ _ => true
  | .laneLockLost _ _ => true
  | .percolatorVisit _ _ _ _ _ _ _ _ => true
  | .percolatorStep _ _ => true
  | .percPostErr _ _ => true
  | .checkerLock _ _ _ _ _ => true
  | .laneDozeWake _ _ _ => true
  | .dataBlock _ _ _ => true
  | .alignmentMarker _ _ _ => true
  | .statusBlock _ _ _ => true
  | .linkFormTimeout _ _ => true
  | .laneUnusable _ _ => true
  | .reformMarker _ _ _ => true
  | .linkWiden _ _ => true
  | .slotMaskCopy _ _ => true
  | .mergeLine _ _ _ _ _ _ => true
  | .trainingTimeout _ _ => true
  | .netLinkUp _ _ _ => true
  | .netLinkDown _ _ _ _ => true
  | .frameReceived _ _ f => f.wf
  | .frameTransmit _ _ heads _ => heads.all fun (h : Fin 8 × Nat) => 1 ≤ h.2 && h.2 < 65536
  | .gclEntryBoundary _ _ => true
  | .gclTaken _ _ => true
  | .anchorSet _ _ => true
  | .mediaPacketReceived _ _ _ p => p.wf
  | .audioPacketReceived _ _ _ p => p.wf
  | .audioPacketLate _ _ seq => seq < 2 ^ 64
  | .legLost _ _ _ => true
  | .legRestored _ _ _ => true
  | .packetRelease _ _ _ slot => isWord slot
  | .ancillaryFieldSend _ _ sizes => sizes.all fun n => 1 ≤ n && n ≤ 1024
  | .syncReceived _ _ _ _ _ _ _ => true
  | .delayReqSent _ _ _ _ => true
  | .rxqPop _ _ => true
  | .txrPop _ _ => true
  | .servoSample _ _ _ _ freq mpd => isInt32 freq && isWord mpd
  | .announceReceived _ _ _ _ rank => isWord rank
  | .prefPortRevert _ => true
  | .announceTimeout _ _ => true
  | .monitorWindowEnd _ meas lo => meas.length == 5 && isInt32 lo
  | .candidateInactive _ _ _ meas => meas.length == 5
  | .wtrExpiry _ _ meas => meas.length == 5
  | .pullinDone _ _ => true
  | .startTimeout _ _ _ => true
  | .refPhaseHit _ _ => true
  | .referenceEdge _ _ _ meas => meas.length == 5
  | .loCalibrated _ lo => isInt32 lo
  | .audioBlock _ b => b.wf
  | .portLocked _ _ rate => isInt32 rate
  | .portUnlocked _ _ _ => true
  | .slipped _ _ _ => true
  | .rejoined _ _ => true
  | .headFrameDecision _ _ => true
  | .autoFlip _ _ _ => true
  | .layerSlated _ _ _ => true
  | .twinModeDecision _ _ => true
  | .unit1WaitExpiry _ _ => true
  | .peerInConflict _ => true
  | .hello _ mseq _ _ _ _ _ schema => isWord mseq && isWord schema
  | .helloSend _ _ => true
  | .command _ mseq m => isWord mseq && m.wf
  | .ack _ mseq fwdSeq => isWord mseq && fwdSeq.all isWord
  | .ackTimeout _ fwdSeq => isWord fwdSeq
  | .decision _ mseq d => isWord mseq && d.wf
  | .mask _ mseq _ epoch ds => isWord mseq && isWord epoch && ds.all (· < 384)
  | .cremaCompute _ _ crcs => crcsWf crcs
  | .crema _ mseq _ epoch word => isWord mseq && isWord epoch && word.length == 8 && word.all isWord
  | .cremaMissing _ _ epoch => isWord epoch
  | .crcList _ mseq _ epoch crcs => isWord mseq && isWord epoch && crcsWf crcs
  | .evidence _ mseq _ epoch recs diag => isWord mseq && isWord epoch && isWord diag && recs.all Machine.Evid.wf
  | .messageGap _ _ => true
  | .noMatchResync _ _ => true
  | .twnSelfFault _ _ => true
  | .twnPeerLost _ => true
  | .twinLinkLost _ => true
  | .handover _ mseq epoch cause => isWord mseq && isWord epoch && isWord cause
  | .handoverInstant _ => true
  | .resync _ mseq cause => isWord mseq && isWord cause
  | .state _ mseq seg => isWord mseq && seg.wf
  | .syncConfigDone _ _ => true
  | .syncAudioDone _ => true
  | .coldTakeover _ => true
  | .twinRestartHoldExpiry _ => true
  | .busAccess _ a => a.wf
  | .busTimeout _ _ _ => true
  | .lockedSequence _ a => a.wf && !a.write
  | .busLockBreak _ _ => true
  | .busMasterAbort _ _ => true
  | .locked _ => true
  | .freeze _ _ _ => true
  | .pmcCounterWrap _ _ _ => true
  | .pmcSample _ _ _ _ lat _ _ _ => lat < 2 ^ 64
  | .smpClear _ _ _ => true
  | .nmeTag _ _ _ lat wait _ => lat < 2 ^ 64 && wait ≤ lat
  | .nmeClear _ _ => true
  | .updDownloadDone _ _ data => data.all fun d => d.all (· < 256)
  | .updVerifyDone _ _ p => p.wf
  | .updSelfCheck _ => true
  | .selfCheckTimeout _ => true
  | .healthExpired _ => true
  | .serdesLaneRestart _ => true
  | .serdesDone _ => true
  | .microcodeSwitch _ _ => true
  | .netSignalDetected _ _ => true
  | .netSignalLost _ _ _ => true
  | .autoNegotiationDone _ _ => true
  | .linkTrainingDone _ _ _ => true
  | .sapPortFrame _ _ _ rx tx => rx.length ≤ 2 && tx ≤ 2
  | .attestationReportDone _ _ => true
  | .d3hotTransition _ _ => true
  | .helloTimeout _ => true
  | .igmpMembershipReport _ _ => true
  | .trstNLow _ => true

end Sys2Proof
end

