-- ==== Sys2Proof/Laws/PerInstr.lean ====
section
/-! SUPPORT. One lemma per command about it as syntax: a row that serves a request of a channel takes an instant and a channel, and is well formed
with any of them (R133, R135: what the request asks stands in the channel's buffer, not in the command). -/

namespace Sys2Proof.Laws.Request

/-- The opcode of the request that a row serves; none for the other rows. -/
def opcode : Instr → Option Nat
  | .echo _ _ => some 0x0000
  | .getInfo _ _ => some 0x0001
  | .getEpoch _ _ => some 0x0002
  | .restartFw _ _ => some 0x0080
  | .deviceReset _ _ => some 0x0081
  | .setRole _ _ => some 0x0082
  | .cancel _ _ => some 0x0083
  | .clearSticky _ _ => some 0x0084
  | .laneReset _ _ => some 0x0085
  | .pwrGetStatus _ _ => some 0x0100
  | .pwrSetDomain _ _ => some 0x0180
  | .pwrSetMon _ _ => some 0x0181
  | .pwrEnterQuiet _ _ => some 0x0182
  | .refGetStatus _ _ => some 0x0200
  | .refSetCandidate _ _ => some 0x0280
  | .refSetPlane _ _ => some 0x0281
  | .ptpGetStatus _ _ => some 0x0300
  | .ptpGetRecords _ _ => some 0x0301
  | .ptpSetPort _ _ => some 0x0380
  | .xptGetRoutes _ _ => some 0x0400
  | .xptGetBudget _ _ => some 0x0401
  | .xptTake _ _ => some 0x0480
  | .xptSalvo _ _ => some 0x0481
  | .xptSetDest _ _ => some 0x0482
  | .xptSetGen _ _ => some 0x0483
  | .fsyGetStatus _ _ => some 0x0500
  | .fsySetSource _ _ => some 0x0580
  | .lbsGetStatus _ _ => some 0x0600
  | .lbsSetRecord _ _ => some 0x0680
  | .lbsSetPlayback _ _ => some 0x0681
  | .dmcGetStatus _ _ => some 0x0700
  | .dmcSetChannel _ _ => some 0x0780
  | .sdiGetStatus _ _ => some 0x0800
  | .sdiSetRx _ _ => some 0x0880
  | .sdiSetTx _ _ => some 0x0881
  | .fabGetStatus _ _ => some 0x0900
  | .fabSetLink _ _ => some 0x0980
  | .fabSetSlots _ _ => some 0x0981
  | .fabLoopback _ _ => some 0x0982
  | .netGetStats _ _ => some 0x0A00
  | .netSetPort _ _ => some 0x0A80
  | .netSetGcl _ _ => some 0x0A81
  | .flowGetStatus _ _ => some 0x0B00
  | .flowJoin _ _ => some 0x0B80
  | .flowLeave _ _ => some 0x0B81
  | .flowSetSender _ _ => some 0x0B82
  | .audGetStatus _ _ => some 0x0C00
  | .audSetShuffle _ _ => some 0x0C80
  | .audSetGains _ _ => some 0x0C81
  | .audSetLimiter _ _ => some 0x0C82
  | .sapGetStatus _ _ => some 0x0D00
  | .sapSetPort _ _ => some 0x0D80
  | .mvcGetStatus _ _ => some 0x0E00
  | .mvcSetHead _ _ => some 0x0E80
  | .mvcSetLayers _ _ => some 0x0E81
  | .mvcLoadGraphic _ _ => some 0x0E82
  | .mvcFlip _ _ => some 0x0E83
  | .twnGetStatus _ _ => some 0x0F00
  | .twnHandover _ _ => some 0x0F80
  | .twnSetPolicy _ _ => some 0x0F81
  | .busGetStatus _ _ => some 0x1000
  | .busSetAperture _ _ => some 0x1080
  | .updGetStatus _ _ => some 0x1100
  | .secAttest _ _ => some 0x1101
  | .updDownload _ _ => some 0x1180
  | .updVerify _ _ => some 0x1181
  | .updActivate _ _ => some 0x1182
  | .updConfirm _ _ => some 0x1183
  | _ => none

/-- A row that serves a request is well formed with any instant and channel. -/
def Statement (i : Instr) : Prop := (opcode i).isSome = true → i.wf = true

theorem registerWrite (t : Nat) (w : HostWrite) :
    Statement (.registerWrite t w) := fun h => nomatch h
theorem ring (t : Nat) (ch : Fin 16) :
    Statement (.ring t ch) := fun h => nomatch h
theorem msixUnmask (t : Nat) (v : Option (Fin 32)) :
    Statement (.msixUnmask t v) := fun h => nomatch h
theorem endpointReset (t : Nat) :
    Statement (.endpointReset t) := fun h => nomatch h
theorem echo (t : Nat) (ch : Fin 16) :
    Statement (.echo t ch) := fun _ => rfl
theorem getInfo (t : Nat) (ch : Fin 16) :
    Statement (.getInfo t ch) := fun _ => rfl
theorem getEpoch (t : Nat) (ch : Fin 16) :
    Statement (.getEpoch t ch) := fun _ => rfl
theorem restartFw (t : Nat) (ch : Fin 16) :
    Statement (.restartFw t ch) := fun _ => rfl
theorem deviceReset (t : Nat) (ch : Fin 16) :
    Statement (.deviceReset t ch) := fun _ => rfl
theorem setRole (t : Nat) (ch : Fin 16) :
    Statement (.setRole t ch) := fun _ => rfl
theorem cancel (t : Nat) (ch : Fin 16) :
    Statement (.cancel t ch) := fun _ => rfl
theorem clearSticky (t : Nat) (ch : Fin 16) :
    Statement (.clearSticky t ch) := fun _ => rfl
theorem laneReset (t : Nat) (ch : Fin 16) :
    Statement (.laneReset t ch) := fun _ => rfl
theorem peerRelayTimeout (t : Nat) (ch : Fin 16) :
    Statement (.peerRelayTimeout t ch) := fun h => nomatch h
theorem journalHoldTimeout (t : Nat) (ch : Fin 16) :
    Statement (.journalHoldTimeout t ch) := fun h => nomatch h
theorem pwrGetStatus (t : Nat) (ch : Fin 16) :
    Statement (.pwrGetStatus t ch) := fun _ => rfl
theorem pwrSetDomain (t : Nat) (ch : Fin 16) :
    Statement (.pwrSetDomain t ch) := fun _ => rfl
theorem pwrSetDomainDone (t : Nat) (ch : Fin 16) :
    Statement (.pwrSetDomainDone t ch) := fun h => nomatch h
theorem pwrSetMon (t : Nat) (ch : Fin 16) :
    Statement (.pwrSetMon t ch) := fun _ => rfl
theorem pwrEnterQuiet (t : Nat) (ch : Fin 16) :
    Statement (.pwrEnterQuiet t ch) := fun _ => rfl
theorem refGetStatus (t : Nat) (ch : Fin 16) :
    Statement (.refGetStatus t ch) := fun _ => rfl
theorem refSetCandidate (t : Nat) (ch : Fin 16) :
    Statement (.refSetCandidate t ch) := fun _ => rfl
theorem refSetPlane (t : Nat) (ch : Fin 16) :
    Statement (.refSetPlane t ch) := fun _ => rfl
theorem ptpGetStatus (t : Nat) (ch : Fin 16) :
    Statement (.ptpGetStatus t ch) := fun _ => rfl
theorem ptpGetRecords (t : Nat) (ch : Fin 16) :
    Statement (.ptpGetRecords t ch) := fun _ => rfl
theorem ptpSetPort (t : Nat) (ch : Fin 16) :
    Statement (.ptpSetPort t ch) := fun _ => rfl
theorem xptGetRoutes (t : Nat) (ch : Fin 16) :
    Statement (.xptGetRoutes t ch) := fun _ => rfl
theorem xptGetBudget (t : Nat) (ch : Fin 16) :
    Statement (.xptGetBudget t ch) := fun _ => rfl
theorem xptTake (t : Nat) (ch : Fin 16) :
    Statement (.xptTake t ch) := fun _ => rfl
theorem xptSalvo (t : Nat) (ch : Fin 16) :
    Statement (.xptSalvo t ch) := fun _ => rfl
theorem xptSetDest (t : Nat) (ch : Fin 16) :
    Statement (.xptSetDest t ch) := fun _ => rfl
theorem xptSetGen (t : Nat) (ch : Fin 16) :
    Statement (.xptSetGen t ch) := fun _ => rfl
theorem fsyGetStatus (t : Nat) (ch : Fin 16) :
    Statement (.fsyGetStatus t ch) := fun _ => rfl
theorem fsySetSource (t : Nat) (ch : Fin 16) :
    Statement (.fsySetSource t ch) := fun _ => rfl
theorem lbsGetStatus (t : Nat) (ch : Fin 16) :
    Statement (.lbsGetStatus t ch) := fun _ => rfl
theorem lbsSetRecord (t : Nat) (ch : Fin 16) :
    Statement (.lbsSetRecord t ch) := fun _ => rfl
theorem lbsSetPlayback (t : Nat) (ch : Fin 16) :
    Statement (.lbsSetPlayback t ch) := fun _ => rfl
theorem dmcGetStatus (t : Nat) (ch : Fin 16) :
    Statement (.dmcGetStatus t ch) := fun _ => rfl
theorem dmcSetChannel (t : Nat) (ch : Fin 16) :
    Statement (.dmcSetChannel t ch) := fun _ => rfl
theorem sdiGetStatus (t : Nat) (ch : Fin 16) :
    Statement (.sdiGetStatus t ch) := fun _ => rfl
theorem sdiSetRx (t : Nat) (ch : Fin 16) :
    Statement (.sdiSetRx t ch) := fun _ => rfl
theorem sdiSetTx (t : Nat) (ch : Fin 16) :
    Statement (.sdiSetTx t ch) := fun _ => rfl
theorem fabGetStatus (t : Nat) (ch : Fin 16) :
    Statement (.fabGetStatus t ch) := fun _ => rfl
theorem fabSetLink (t : Nat) (ch : Fin 16) :
    Statement (.fabSetLink t ch) := fun _ => rfl
theorem fabSetSlots (t : Nat) (ch : Fin 16) :
    Statement (.fabSetSlots t ch) := fun _ => rfl
theorem fabLoopback (t : Nat) (ch : Fin 16) :
    Statement (.fabLoopback t ch) := fun _ => rfl
theorem netGetStats (t : Nat) (ch : Fin 16) :
    Statement (.netGetStats t ch) := fun _ => rfl
theorem netSetPort (t : Nat) (ch : Fin 16) :
    Statement (.netSetPort t ch) := fun _ => rfl
theorem netSetGcl (t : Nat) (ch : Fin 16) :
    Statement (.netSetGcl t ch) := fun _ => rfl
theorem flowGetStatus (t : Nat) (ch : Fin 16) :
    Statement (.flowGetStatus t ch) := fun _ => rfl
theorem flowJoin (t : Nat) (ch : Fin 16) :
    Statement (.flowJoin t ch) := fun _ => rfl
theorem flowLeave (t : Nat) (ch : Fin 16) :
    Statement (.flowLeave t ch) := fun _ => rfl
theorem flowSetSender (t : Nat) (ch : Fin 16) :
    Statement (.flowSetSender t ch) := fun _ => rfl
theorem audGetStatus (t : Nat) (ch : Fin 16) :
    Statement (.audGetStatus t ch) := fun _ => rfl
theorem audSetShuffle (t : Nat) (ch : Fin 16) :
    Statement (.audSetShuffle t ch) := fun _ => rfl
theorem audSetGains (t : Nat) (ch : Fin 16) :
    Statement (.audSetGains t ch) := fun _ => rfl
theorem audSetLimiter (t : Nat) (ch : Fin 16) :
    Statement (.audSetLimiter t ch) := fun _ => rfl
theorem sapGetStatus (t : Nat) (ch : Fin 16) :
    Statement (.sapGetStatus t ch) := fun _ => rfl
theorem sapSetPort (t : Nat) (ch : Fin 16) :
    Statement (.sapSetPort t ch) := fun _ => rfl
theorem mvcGetStatus (t : Nat) (ch : Fin 16) :
    Statement (.mvcGetStatus t ch) := fun _ => rfl
theorem mvcSetHead (t : Nat) (ch : Fin 16) :
    Statement (.mvcSetHead t ch) := fun _ => rfl
theorem mvcSetLayers (t : Nat) (ch : Fin 16) :
    Statement (.mvcSetLayers t ch) := fun _ => rfl
theorem mvcLoadGraphic (t : Nat) (ch : Fin 16) :
    Statement (.mvcLoadGraphic t ch) := fun _ => rfl
theorem graphicLoadDone (t : Nat) (head : Fin 4) (layer : Fin 4) (data : Option (List Nat)) :
    Statement (.graphicLoadDone t head layer data) := fun h => nomatch h
theorem mvcFlip (t : Nat) (ch : Fin 16) :
    Statement (.mvcFlip t ch) := fun _ => rfl
theorem twnGetStatus (t : Nat) (ch : Fin 16) :
    Statement (.twnGetStatus t ch) := fun _ => rfl
theorem twnHandover (t : Nat) (ch : Fin 16) :
    Statement (.twnHandover t ch) := fun _ => rfl
theorem twnSetPolicy (t : Nat) (ch : Fin 16) :
    Statement (.twnSetPolicy t ch) := fun _ => rfl
theorem busGetStatus (t : Nat) (ch : Fin 16) :
    Statement (.busGetStatus t ch) := fun _ => rfl
theorem busSetAperture (t : Nat) (ch : Fin 16) :
    Statement (.busSetAperture t ch) := fun _ => rfl
theorem updGetStatus (t : Nat) (ch : Fin 16) :
    Statement (.updGetStatus t ch) := fun _ => rfl
theorem secAttest (t : Nat) (ch : Fin 16) :
    Statement (.secAttest t ch) := fun _ => rfl
theorem updDownload (t : Nat) (ch : Fin 16) :
    Statement (.updDownload t ch) := fun _ => rfl
theorem updVerify (t : Nat) (ch : Fin 16) :
    Statement (.updVerify t ch) := fun _ => rfl
theorem updActivate (t : Nat) (ch : Fin 16) :
    Statement (.updActivate t ch) := fun _ => rfl
theorem updConfirm (t : Nat) (ch : Fin 16) :
    Statement (.updConfirm t ch) := fun _ => rfl
theorem resetNLow (t : Nat) :
    Statement (.resetNLow t) := fun h => nomatch h
theorem porstNLow (t : Nat) :
    Statement (.porstNLow t) := fun h => nomatch h
theorem railBelowReset (t : Nat) (rail : Fin 8) :
    Statement (.railBelowReset t rail) := fun h => nomatch h
theorem firstPowerUp (t : Nat) :
    Statement (.firstPowerUp t) := fun h => nomatch h
theorem resetRelease (t : Nat) :
    Statement (.resetRelease t) := fun h => nomatch h
theorem strapSample (t : Nat) (straps : BitVec 8) :
    Statement (.strapSample t straps) := fun h => nomatch h
theorem watchdogExpiry (t : Nat) :
    Statement (.watchdogExpiry t) := fun h => nomatch h
theorem bootRomRun (t : Nat) (idOk : Bool) (b0 b1 : Option Machine.Package) :
    Statement (.bootRomRun t idOk b0 b1) := fun h => nomatch h
theorem fwReady (t : Nat) (conv : Bool) :
    Statement (.fwReady t conv) := fun h => nomatch h
theorem configurationLoad (t : Nat) :
    Statement (.configurationLoad t) := fun h => nomatch h
theorem mramRefreshRewrite (t : Nat) :
    Statement (.mramRefreshRewrite t) := fun h => nomatch h
theorem railBelowWarning (t : Nat) (rail : Fin 8) :
    Statement (.railBelowWarning t rail) := fun h => nomatch h
theorem railAboveWarning (t : Nat) (rail : Fin 8) :
    Statement (.railAboveWarning t rail) := fun h => nomatch h
theorem mramHoldRelease (t : Nat) :
    Statement (.mramHoldRelease t) := fun h => nomatch h
theorem mramWriteDone (t : Nat) :
    Statement (.mramWriteDone t) := fun h => nomatch h
theorem pwrMonCfgWrite (t : Nat) (rail : Fin 8) (value : Word) :
    Statement (.pwrMonCfgWrite t rail value) := fun h => nomatch h
theorem domainReqWrite (t : Nat) (dom : Fin 248) (req : Fin 4) :
    Statement (.domainReqWrite t dom req) := fun h => nomatch h
theorem domainTransitionDone (t : Nat) (dom : Fin 248) :
    Statement (.domainTransitionDone t dom) := fun h => nomatch h
theorem netWake (t : Nat) (port : Fin 2) :
    Statement (.netWake t port) := fun h => nomatch h
theorem enter (t : Nat) :
    Statement (.enter t) := fun h => nomatch h
theorem wake (t : Nat) :
    Statement (.wake t) := fun h => nomatch h
theorem thermalReading (t : Nat) (celsius : Int) :
    Statement (.thermalReading t celsius) := fun h => nomatch h
theorem loInLoss (t : Nat) :
    Statement (.loInLoss t) := fun h => nomatch h
theorem loInReturn (t : Nat) :
    Statement (.loInReturn t) := fun h => nomatch h
theorem faultScanFrame (t : Nat) (scan : BitVec 144) :
    Statement (.faultScanFrame t scan) := fun h => nomatch h
theorem queueFault (t : Nat) (dsts : List (Fin 384)) :
    Statement (.queueFault t dsts) := fun h => nomatch h
theorem frameBoundary (t : Nat) (plane : Fin 2) :
    Statement (.frameBoundary t plane) := fun h => nomatch h
theorem switchingPoint (t : Nat) (dst : Fin 384) (field2 : Bool) :
    Statement (.switchingPoint t dst field2) := fun h => nomatch h
theorem sourceFrameArrival (t : Nat) (src : Fin 332) (f : FrameIn) :
    Statement (.sourceFrameArrival t src f) := fun h => nomatch h
theorem srcDemoted (t : Nat) (src : Fin 332) :
    Statement (.srcDemoted t src) := fun h => nomatch h
theorem presentationInstant (t : Nat) (src : Fin 332) (plane : Fin 2) (clean ue : Bool) (conceal : Nat) :
    Statement (.presentationInstant t src plane clean ue conceal) := fun h => nomatch h
theorem srcInvalid (t : Nat) (src : Fin 332) :
    Statement (.srcInvalid t src) := fun h => nomatch h
theorem srcValid (t : Nat) (src : Fin 332) :
    Statement (.srcValid t src) := fun h => nomatch h
theorem invalidLine (t : Nat) (src : Fin 332) (run : Bool) :
    Statement (.invalidLine t src run) := fun h => nomatch h
theorem pbPauseExpired (t : Nat) (pb : Fin 48) :
    Statement (.pbPauseExpired t pb) := fun h => nomatch h
theorem storeHalted (t : Nat) (plane : Fin 2) :
    Statement (.storeHalted t plane) := fun h => nomatch h
theorem channelTraining (t : Nat) (chan : Fin 8) (dimm : Option Dimm) :
    Statement (.channelTraining t chan dimm) := fun h => nomatch h
theorem channelReady (t : Nat) (chan : Fin 8) (rd wr : List (BitVec 14)) :
    Statement (.channelReady t chan rd wr) := fun h => nomatch h
theorem trainFailed (t : Nat) (chan : Fin 8) :
    Statement (.trainFailed t chan) := fun h => nomatch h
theorem refreshBoundary (t : Nat) (chan : Fin 8) (rank : Fin 2) (mr4 : Option Bool) :
    Statement (.refreshBoundary t chan rank mr4) := fun h => nomatch h
theorem percolatorSweep (t : Nat) (chan : Fin 8) (rank : Fin 2) (results : List (BitVec 33)) :
    Statement (.percolatorSweep t chan rank results) := fun h => nomatch h
theorem dramReadEcc (t : Nat) (pa : BitVec 41) (dev : Option (Fin 10)) :
    Statement (.dramReadEcc t pa dev) := fun h => nomatch h
theorem patrolScrub (t : Nat) (chan : Fin 8) (found : Option (Option (Fin 10))) :
    Statement (.patrolScrub t chan found) := fun h => nomatch h
theorem parityAlert (t : Nat) (chan : Fin 8) (inReplay : Bool) :
    Statement (.parityAlert t chan inReplay) := fun h => nomatch h
theorem channelFailed (t : Nat) (chan : Fin 8) :
    Statement (.channelFailed t chan) := fun h => nomatch h
theorem huntTrialEnd (t : Nat) (lane : Fin 48) :
    Statement (.huntTrialEnd t lane) := fun h => nomatch h
theorem rxLock (t : Nat) (lane : Fin 48) (rate : Fin 10) (levelB : Bool) :
    Statement (.rxLock t lane rate levelB) := fun h => nomatch h
theorem rxLos (t : Nat) (lane : Fin 48) :
    Statement (.rxLos t lane) := fun h => nomatch h
theorem cdrMarginCheck (t : Nat) (low : BitVec 48) :
    Statement (.cdrMarginCheck t low) := fun h => nomatch h
theorem sdiLineCheck (t : Nat) (lane : Fin 48) (error noEdh : Bool) :
    Statement (.sdiLineCheck t lane error noEdh) := fun h => nomatch h
theorem ancillaryCapture (t : Nat) (lane : Fin 48) (pid : Option Word) (tcKind : Fin 3) (tc : Word) (badGroups : BitVec 8) :
    Statement (.ancillaryCapture t lane pid tcKind tc badGroups) := fun h => nomatch h
theorem fabSignalLost (t : Nat) (lane : Fin 50) :
    Statement (.fabSignalLost t lane) := fun h => nomatch h
theorem fabSignalPresent (t : Nat) (lane : Fin 50) :
    Statement (.fabSignalPresent t lane) := fun h => nomatch h
theorem verifyDone (t : Nat) (lane : Fin 50) (cdr block crc polInv : Bool) (height : BitVec 8) :
    Statement (.verifyDone t lane cdr block crc polInv height) := fun h => nomatch h
theorem sweepDone (t : Nat) (lane : Fin 50) (heights : List (BitVec 8)) (clean : List Bool) (polInv : Bool) :
    Statement (.sweepDone t lane heights clean polInv) := fun h => nomatch h
theorem laneRetry (t : Nat) (lane : Fin 50) :
    Statement (.laneRetry t lane) := fun h => nomatch h
theorem laneLockLost (t : Nat) (lane : Fin 50) :
    Statement (.laneLockLost t lane) := fun h => nomatch h
theorem percolatorVisit (t : Nat) (lane : Fin 50) (height width below above : BitVec 8) (belowCrc aboveCrc : Bool) :
    Statement (.percolatorVisit t lane height width below above belowCrc aboveCrc) := fun h => nomatch h
theorem percolatorStep (t : Nat) (lane : Fin 50) :
    Statement (.percolatorStep t lane) := fun h => nomatch h
theorem percPostErr (t : Nat) (lane : Fin 50) :
    Statement (.percPostErr t lane) := fun h => nomatch h
theorem checkerLock (t : Nat) (lane : Fin 48) (locked : Bool) (errs units : Nat) :
    Statement (.checkerLock t lane locked errs units) := fun h => nomatch h
theorem laneDozeWake (t : Nat) (lane : Fin 50) (lostLock : Bool) :
    Statement (.laneDozeWake t lane lostLock) := fun h => nomatch h
theorem dataBlock (t : Nat) (lane : Fin 50) (block : BitVec 640) :
    Statement (.dataBlock t lane block) := fun h => nomatch h
theorem alignmentMarker (t : Nat) (lane : Fin 50) (block : BitVec 640) :
    Statement (.alignmentMarker t lane block) := fun h => nomatch h
theorem statusBlock (t : Nat) (lane : Fin 50) (block : BitVec 640) :
    Statement (.statusBlock t lane block) := fun h => nomatch h
theorem linkFormTimeout (t : Nat) (link : Fin 48) :
    Statement (.linkFormTimeout t link) := fun h => nomatch h
theorem laneUnusable (t : Nat) (lane : Fin 48) :
    Statement (.laneUnusable t lane) := fun h => nomatch h
theorem reformMarker (t : Nat) (lane : Fin 50) (block : BitVec 640) :
    Statement (.reformMarker t lane block) := fun h => nomatch h
theorem linkWiden (t : Nat) (link : Fin 48) :
    Statement (.linkWiden t link) := fun h => nomatch h
theorem slotMaskCopy (t : Nat) (plane : Fin 2) :
    Statement (.slotMaskCopy t plane) := fun h => nomatch h
theorem mergeLine (t : Nat) (slot : Fin 96) (aOk bOk differ run : Bool) :
    Statement (.mergeLine t slot aOk bOk differ run) := fun h => nomatch h
theorem trainingTimeout (t : Nat) (port : Fin 2) :
    Statement (.trainingTimeout t port) := fun h => nomatch h
theorem netLinkUp (t : Nat) (port : Fin 2) (remoteFault : Bool) :
    Statement (.netLinkUp t port remoteFault) := fun h => nomatch h
theorem netLinkDown (t : Nat) (port : Fin 2) (cause : Fin 3) (lock : BitVec 4) :
    Statement (.netLinkDown t port cause lock) := fun h => nomatch h
theorem frameReceived (t : Nat) (port : Fin 2) (f : NetFrame) :
    Statement (.frameReceived t port f) := fun h => nomatch h
theorem frameTransmit (t : Nat) (port : Fin 2) (heads : List (Fin 8 × Nat)) (cut : Bool) :
    Statement (.frameTransmit t port heads cut) := fun h => nomatch h
theorem gclEntryBoundary (t : Nat) (port : Fin 2) :
    Statement (.gclEntryBoundary t port) := fun h => nomatch h
theorem gclTaken (t : Nat) (port : Fin 2) :
    Statement (.gclTaken t port) := fun h => nomatch h
theorem anchorSet (t : Nat) (plane : Fin 2) :
    Statement (.anchorSet t plane) := fun h => nomatch h
theorem mediaPacketReceived (t : Nat) (flow : Fin 112) (leg : Fin 2) (p : MediaPacket) :
    Statement (.mediaPacketReceived t flow leg p) := fun h => nomatch h
theorem audioPacketReceived (t : Nat) (flow : Fin 112) (leg : Fin 2) (p : AudioPacket) :
    Statement (.audioPacketReceived t flow leg p) := fun h => nomatch h
theorem audioPacketLate (t : Nat) (flow : Fin 112) (seq : Nat) :
    Statement (.audioPacketLate t flow seq) := fun h => nomatch h
theorem legLost (t : Nat) (flow : Fin 112) (leg : Fin 2) :
    Statement (.legLost t flow leg) := fun h => nomatch h
theorem legRestored (t : Nat) (flow : Fin 112) (leg : Fin 2) :
    Statement (.legRestored t flow leg) := fun h => nomatch h
theorem packetRelease (t : Nat) (sender : Fin 112) (leg : Fin 2) (slot : Nat) :
    Statement (.packetRelease t sender leg slot) := fun h => nomatch h
theorem ancillaryFieldSend (t : Nat) (sender : Fin 112) (sizes : List Nat) :
    Statement (.ancillaryFieldSend t sender sizes) := fun h => nomatch h
theorem syncReceived (t : Nat) (port : Fin 2) (seq : BitVec 16) (domain : BitVec 8) (id : BitVec 64) (num : BitVec 16) (err : Fin 9) :
    Statement (.syncReceived t port seq domain id num err) := fun h => nomatch h
theorem delayReqSent (t : Nat) (port : Fin 2) (seq : BitVec 16) (err : Fin 9) :
    Statement (.delayReqSent t port seq err) := fun h => nomatch h
theorem rxqPop (t : Nat) (port : Fin 2) :
    Statement (.rxqPop t port) := fun h => nomatch h
theorem txrPop (t : Nat) (port : Fin 2) :
    Statement (.txrPop t port) := fun h => nomatch h
theorem servoSample (t : Nat) (port : Fin 2) (offset filtered freq : Int) (mpd : Nat) :
    Statement (.servoSample t port offset filtered freq mpd) := fun h => nomatch h
theorem announceReceived (t : Nat) (port : Fin 2) (domain : BitVec 8) (id : BitVec 64) (rank : Nat) :
    Statement (.announceReceived t port domain id rank) := fun h => nomatch h
theorem prefPortRevert (t : Nat) :
    Statement (.prefPortRevert t) := fun h => nomatch h
theorem announceTimeout (t : Nat) (port : Fin 2) :
    Statement (.announceTimeout t port) := fun h => nomatch h
theorem monitorWindowEnd (t : Nat) (meas : List RefMeas) (lo : Int) :
    Statement (.monitorWindowEnd t meas lo) := fun h => nomatch h
theorem candidateInactive (t : Nat) (cand : Fin 5) (noisy : Bool) (meas : List RefMeas) :
    Statement (.candidateInactive t cand noisy meas) := fun h => nomatch h
theorem wtrExpiry (t : Nat) (plane : Fin 2) (meas : List RefMeas) :
    Statement (.wtrExpiry t plane meas) := fun h => nomatch h
theorem pullinDone (t : Nat) (plane : Fin 2) :
    Statement (.pullinDone t plane) := fun h => nomatch h
theorem startTimeout (t : Nat) (plane : Fin 2) (delay : Nat) :
    Statement (.startTimeout t plane delay) := fun h => nomatch h
theorem refPhaseHit (t : Nat) (cand : Fin 5) :
    Statement (.refPhaseHit t cand) := fun h => nomatch h
theorem referenceEdge (t : Nat) (cand : Fin 5) (displaced : Int) (meas : List RefMeas) :
    Statement (.referenceEdge t cand displaced meas) := fun h => nomatch h
theorem loCalibrated (t : Nat) (lo : Int) :
    Statement (.loCalibrated t lo) := fun h => nomatch h
theorem audioBlock (t : Nat) (b : AudioBlock) :
    Statement (.audioBlock t b) := fun h => nomatch h
theorem portLocked (t : Nat) (port : Fin 16) (rate : Int) :
    Statement (.portLocked t port rate) := fun h => nomatch h
theorem portUnlocked (t : Nat) (port : Fin 16) (cause : Fin 3) :
    Statement (.portUnlocked t port cause) := fun h => nomatch h
theorem slipped (t : Nat) (port : Fin 16) (kind : Fin 4) :
    Statement (.slipped t port kind) := fun h => nomatch h
theorem rejoined (t : Nat) (port : Fin 16) :
    Statement (.rejoined t port) := fun h => nomatch h
theorem headFrameDecision (t : Nat) (head : Fin 4) :
    Statement (.headFrameDecision t head) := fun h => nomatch h
theorem autoFlip (t : Nat) (head : Fin 4) (layer : Fin 4) :
    Statement (.autoFlip t head layer) := fun h => nomatch h
theorem layerSlated (t : Nat) (head : Fin 4) (layer : Fin 16) :
    Statement (.layerSlated t head layer) := fun h => nomatch h
theorem twinModeDecision (t : Nat) (peerIn : Bool) :
    Statement (.twinModeDecision t peerIn) := fun h => nomatch h
theorem unit1WaitExpiry (t : Nat) (peerIn : Bool) :
    Statement (.unit1WaitExpiry t peerIn) := fun h => nomatch h
theorem peerInConflict (t : Nat) :
    Statement (.peerInConflict t) := fun h => nomatch h
theorem hello (t : Nat) (mseq : Nat) (role : BitVec 2) (unit : BitVec 1) (mode : BitVec 2) (phase : BitVec 3) (version : BitVec 8) (schema : Nat) :
    Statement (.hello t mseq role unit mode phase version schema) := fun h => nomatch h
theorem helloSend (t : Nat) (peerIn : Bool) :
    Statement (.helloSend t peerIn) := fun h => nomatch h
theorem command (t : Nat) (mseq : Nat) (m : Machine.TwinCommand) :
    Statement (.command t mseq m) := fun h => nomatch h
theorem ack (t : Nat) (mseq : Nat) (fwdSeq : Option Nat) :
    Statement (.ack t mseq fwdSeq) := fun h => nomatch h
theorem ackTimeout (t : Nat) (fwdSeq : Nat) :
    Statement (.ackTimeout t fwdSeq) := fun h => nomatch h
theorem decision (t : Nat) (mseq : Nat) (d : Machine.TwinDecision) :
    Statement (.decision t mseq d) := fun h => nomatch h
theorem mask (t : Nat) (mseq : Nat) (plane : Fin 2) (epoch : Nat) (mask : List Nat) :
    Statement (.mask t mseq plane epoch mask) := fun h => nomatch h
theorem cremaCompute (t : Nat) (plane : Fin 2) (crcs : List (Nat × Nat)) :
    Statement (.cremaCompute t plane crcs) := fun h => nomatch h
theorem crema (t : Nat) (mseq : Nat) (plane : Fin 2) (epoch : Nat) (word : List Nat) :
    Statement (.crema t mseq plane epoch word) := fun h => nomatch h
theorem cremaMissing (t : Nat) (plane : Fin 2) (epoch : Nat) :
    Statement (.cremaMissing t plane epoch) := fun h => nomatch h
theorem crcList (t : Nat) (mseq : Nat) (plane : Fin 2) (epoch : Nat) (crcs : List (Nat × Nat)) :
    Statement (.crcList t mseq plane epoch crcs) := fun h => nomatch h
theorem evidence (t : Nat) (mseq : Nat) (plane : Fin 2) (epoch : Nat) (recs : List Machine.Evid) (diag : Nat) :
    Statement (.evidence t mseq plane epoch recs diag) := fun h => nomatch h
theorem messageGap (t : Nat) (stream : Fin 3) :
    Statement (.messageGap t stream) := fun h => nomatch h
theorem noMatchResync (t : Nat) (plane : Fin 2) :
    Statement (.noMatchResync t plane) := fun h => nomatch h
theorem twnSelfFault (t : Nat) (bit : Fin 5) :
    Statement (.twnSelfFault t bit) := fun h => nomatch h
theorem twnPeerLost (t : Nat) :
    Statement (.twnPeerLost t) := fun h => nomatch h
theorem twinLinkLost (t : Nat) :
    Statement (.twinLinkLost t) := fun h => nomatch h
theorem handover (t : Nat) (mseq : Nat) (epoch : Nat) (cause : Nat) :
    Statement (.handover t mseq epoch cause) := fun h => nomatch h
theorem handoverInstant (t : Nat) :
    Statement (.handoverInstant t) := fun h => nomatch h
theorem resync (t : Nat) (mseq : Nat) (cause : Nat) :
    Statement (.resync t mseq cause) := fun h => nomatch h
theorem state (t : Nat) (mseq : Nat) (seg : Machine.TwinSegment) :
    Statement (.state t mseq seg) := fun h => nomatch h
theorem syncConfigDone (t : Nat) (conv : Bool) :
    Statement (.syncConfigDone t conv) := fun h => nomatch h
theorem syncAudioDone (t : Nat) :
    Statement (.syncAudioDone t) := fun h => nomatch h
theorem coldTakeover (t : Nat) :
    Statement (.coldTakeover t) := fun h => nomatch h
theorem twinRestartHoldExpiry (t : Nat) :
    Statement (.twinRestartHoldExpiry t) := fun h => nomatch h
theorem busAccess (t : Nat) (a : Machine.BusAcc) :
    Statement (.busAccess t a) := fun h => nomatch h
theorem busTimeout (t : Nat) (m : Fin 10) (id : Fin 16) :
    Statement (.busTimeout t m id) := fun h => nomatch h
theorem lockedSequence (t : Nat) (a : Machine.BusAcc) :
    Statement (.lockedSequence t a) := fun h => nomatch h
theorem busLockBreak (t : Nat) (target : Fin 2) :
    Statement (.busLockBreak t target) := fun h => nomatch h
theorem busMasterAbort (t : Nat) (dma : Fin 2) :
    Statement (.busMasterAbort t dma) := fun h => nomatch h
theorem locked (t : Nat) :
    Statement (.locked t) := fun h => nomatch h
theorem freeze (t : Nat) (user freeze : Bool) :
    Statement (.freeze t user freeze) := fun h => nomatch h
theorem pmcCounterWrap (t : Nat) (core : Fin 4) (k : Fin 9) :
    Statement (.pmcCounterWrap t core k) := fun h => nomatch h
theorem pmcSample (t : Nat) (core : Fin 4) (addr data : Word) (lat : Nat) (kind : Fin 3) (user err : Bool) :
    Statement (.pmcSample t core addr data lat kind user err) := fun h => nomatch h
theorem smpClear (t : Nat) (core : Fin 4) (w : Word) :
    Statement (.smpClear t core w) := fun h => nomatch h
theorem nmeTag (t : Nat) (engine : Fin 16) (pc : BitVec 16) (lat wait : Nat) (flow : Option (Fin 112)) :
    Statement (.nmeTag t engine pc lat wait flow) := fun h => nomatch h
theorem nmeClear (t : Nat) (w : Word) :
    Statement (.nmeClear t w) := fun h => nomatch h
theorem updDownloadDone (t : Nat) (ch : Fin 16) (data : Option (List Nat)) :
    Statement (.updDownloadDone t ch data) := fun h => nomatch h
theorem updVerifyDone (t : Nat) (ch : Fin 16) (p : Machine.Package) :
    Statement (.updVerifyDone t ch p) := fun h => nomatch h
theorem updSelfCheck (t : Nat) :
    Statement (.updSelfCheck t) := fun h => nomatch h
theorem selfCheckTimeout (t : Nat) :
    Statement (.selfCheckTimeout t) := fun h => nomatch h
theorem healthExpired (t : Nat) :
    Statement (.healthExpired t) := fun h => nomatch h
theorem serdesLaneRestart (t : Nat) :
    Statement (.serdesLaneRestart t) := fun h => nomatch h
theorem serdesDone (t : Nat) :
    Statement (.serdesDone t) := fun h => nomatch h
theorem microcodeSwitch (t : Nat) (type : Fin 3) :
    Statement (.microcodeSwitch t type) := fun h => nomatch h
theorem netSignalDetected (t : Nat) (port : Fin 2) :
    Statement (.netSignalDetected t port) := fun h => nomatch h
theorem netSignalLost (t : Nat) (port : Fin 2) (lock : BitVec 4) :
    Statement (.netSignalLost t port lock) := fun h => nomatch h
theorem autoNegotiationDone (t : Nat) (port : Fin 2) :
    Statement (.autoNegotiationDone t port) := fun h => nomatch h
theorem linkTrainingDone (t : Nat) (port : Fin 2) (pol : BitVec 4) :
    Statement (.linkTrainingDone t port pol) := fun h => nomatch h
theorem sapPortFrame (t : Nat) (port : Fin 16) (bclk : Nat) (rx : List (Int × Int)) (tx : Nat) :
    Statement (.sapPortFrame t port bclk rx tx) := fun h => nomatch h
theorem attestationReportDone (t : Nat) (ch : Fin 16) :
    Statement (.attestationReportDone t ch) := fun h => nomatch h
theorem d3hotTransition (t : Nat) (d3 : Bool) :
    Statement (.d3hotTransition t d3) := fun h => nomatch h
theorem helloTimeout (t : Nat) :
    Statement (.helloTimeout t) := fun h => nomatch h
theorem igmpMembershipReport (t : Nat) (port : Fin 2) :
    Statement (.igmpMembershipReport t port) := fun h => nomatch h
theorem trstNLow (t : Nat) :
    Statement (.trstNLow t) := fun h => nomatch h

end Sys2Proof.Laws.Request
end

