-- ==== Sys2Proof/Laws/Runs.lean ====
section
/-! SUPPORT. Every command is one run of the common frame: time passes to its instant, the chip is changed by a function, and what follows is
committed. -/

namespace Sys2Proof.Machine

theorem exec_run (i : Instr) (s : State) : ∃ t f, exec i s = s.run t f := by
  cases i with
  | registerWrite t w => exact ⟨_, _, by unfold exec execRegisterWrite; rfl⟩
  | ring t ch => exact ⟨_, _, by unfold exec execRing; rfl⟩
  | msixUnmask t v => exact ⟨_, _, by unfold exec execMsixUnmask; rfl⟩
  | endpointReset t => exact ⟨_, _, by unfold exec execEndpointReset; rfl⟩
  | echo t ch => exact ⟨_, _, by unfold exec execEcho State.request; rfl⟩
  | getInfo t ch => exact ⟨_, _, by unfold exec execGetInfo State.request; rfl⟩
  | getEpoch t ch => exact ⟨_, _, by unfold exec execGetEpoch State.request; rfl⟩
  | restartFw t ch => exact ⟨_, _, by unfold exec execRestartFw State.request; rfl⟩
  | deviceReset t ch => exact ⟨_, _, by unfold exec execDeviceReset State.request; rfl⟩
  | setRole t ch => exact ⟨_, _, by unfold exec execSetRole State.request; rfl⟩
  | cancel t ch => exact ⟨_, _, by unfold exec execCancel State.request; rfl⟩
  | clearSticky t ch => exact ⟨_, _, by unfold exec execClearSticky State.request; rfl⟩
  | laneReset t ch => exact ⟨_, _, by unfold exec execLaneReset State.request; rfl⟩
  | peerRelayTimeout t ch => exact ⟨_, _, by unfold exec execPeerRelayTimeout; rfl⟩
  | journalHoldTimeout t ch => exact ⟨_, _, by unfold exec execJournalHoldTimeout; rfl⟩
  | pwrGetStatus t ch => exact ⟨_, _, by unfold exec execPwrGetStatus State.request; rfl⟩
  | pwrSetDomain t ch => exact ⟨_, _, by unfold exec execPwrSetDomain State.request; rfl⟩
  | pwrSetDomainDone t ch => exact ⟨_, _, by unfold exec execPwrSetDomainDone; rfl⟩
  | pwrSetMon t ch => exact ⟨_, _, by unfold exec execPwrSetMon State.request; rfl⟩
  | pwrEnterQuiet t ch => exact ⟨_, _, by unfold exec execPwrEnterQuiet State.request; rfl⟩
  | refGetStatus t ch => exact ⟨_, _, by unfold exec execRefGetStatus State.request; rfl⟩
  | refSetCandidate t ch => exact ⟨_, _, by unfold exec execRefSetCandidate State.request; rfl⟩
  | refSetPlane t ch => exact ⟨_, _, by unfold exec execRefSetPlane State.request; rfl⟩
  | ptpGetStatus t ch => exact ⟨_, _, by unfold exec execPtpGetStatus State.request; rfl⟩
  | ptpGetRecords t ch => exact ⟨_, _, by unfold exec execPtpGetRecords State.request; rfl⟩
  | ptpSetPort t ch => exact ⟨_, _, by unfold exec execPtpSetPort State.request; rfl⟩
  | xptGetRoutes t ch => exact ⟨_, _, by unfold exec execXptGetRoutes State.request; rfl⟩
  | xptGetBudget t ch => exact ⟨_, _, by unfold exec execXptGetBudget State.request; rfl⟩
  | xptTake t ch => exact ⟨_, _, by unfold exec execXptTake State.request; rfl⟩
  | xptSalvo t ch => exact ⟨_, _, by unfold exec execXptSalvo State.request; rfl⟩
  | xptSetDest t ch => exact ⟨_, _, by unfold exec execXptSetDest State.request; rfl⟩
  | xptSetGen t ch => exact ⟨_, _, by unfold exec execXptSetGen State.request; rfl⟩
  | fsyGetStatus t ch => exact ⟨_, _, by unfold exec execFsyGetStatus State.request; rfl⟩
  | fsySetSource t ch => exact ⟨_, _, by unfold exec execFsySetSource State.request; rfl⟩
  | lbsGetStatus t ch => exact ⟨_, _, by unfold exec execLbsGetStatus State.request; rfl⟩
  | lbsSetRecord t ch => exact ⟨_, _, by unfold exec execLbsSetRecord State.request; rfl⟩
  | lbsSetPlayback t ch => exact ⟨_, _, by unfold exec execLbsSetPlayback State.request; rfl⟩
  | dmcGetStatus t ch => exact ⟨_, _, by unfold exec execDmcGetStatus State.request; rfl⟩
  | dmcSetChannel t ch => exact ⟨_, _, by unfold exec execDmcSetChannel State.request; rfl⟩
  | sdiGetStatus t ch => exact ⟨_, _, by unfold exec execSdiGetStatus State.request; rfl⟩
  | sdiSetRx t ch => exact ⟨_, _, by unfold exec execSdiSetRx State.request; rfl⟩
  | sdiSetTx t ch => exact ⟨_, _, by unfold exec execSdiSetTx State.request; rfl⟩
  | fabGetStatus t ch => exact ⟨_, _, by unfold exec execFabGetStatus State.request; rfl⟩
  | fabSetLink t ch => exact ⟨_, _, by unfold exec execFabSetLink State.request; rfl⟩
  | fabSetSlots t ch => exact ⟨_, _, by unfold exec execFabSetSlots State.request; rfl⟩
  | fabLoopback t ch => exact ⟨_, _, by unfold exec execFabLoopback State.request; rfl⟩
  | netGetStats t ch => exact ⟨_, _, by unfold exec execNetGetStats State.request; rfl⟩
  | netSetPort t ch => exact ⟨_, _, by unfold exec execNetSetPort State.request; rfl⟩
  | netSetGcl t ch => exact ⟨_, _, by unfold exec execNetSetGcl State.request; rfl⟩
  | flowGetStatus t ch => exact ⟨_, _, by unfold exec execFlowGetStatus State.request; rfl⟩
  | flowJoin t ch => exact ⟨_, _, by unfold exec execFlowJoin State.request; rfl⟩
  | flowLeave t ch => exact ⟨_, _, by unfold exec execFlowLeave State.request; rfl⟩
  | flowSetSender t ch => exact ⟨_, _, by unfold exec execFlowSetSender State.request; rfl⟩
  | audGetStatus t ch => exact ⟨_, _, by unfold exec execAudGetStatus State.request; rfl⟩
  | audSetShuffle t ch => exact ⟨_, _, by unfold exec execAudSetShuffle State.request; rfl⟩
  | audSetGains t ch => exact ⟨_, _, by unfold exec execAudSetGains State.request; rfl⟩
  | audSetLimiter t ch => exact ⟨_, _, by unfold exec execAudSetLimiter State.request; rfl⟩
  | sapGetStatus t ch => exact ⟨_, _, by unfold exec execSapGetStatus State.request; rfl⟩
  | sapSetPort t ch => exact ⟨_, _, by unfold exec execSapSetPort State.request; rfl⟩
  | mvcGetStatus t ch => exact ⟨_, _, by unfold exec execMvcGetStatus State.request; rfl⟩
  | mvcSetHead t ch => exact ⟨_, _, by unfold exec execMvcSetHead State.request; rfl⟩
  | mvcSetLayers t ch => exact ⟨_, _, by unfold exec execMvcSetLayers State.request; rfl⟩
  | mvcLoadGraphic t ch => exact ⟨_, _, by unfold exec execMvcLoadGraphic State.request; rfl⟩
  | graphicLoadDone t head layer data => exact ⟨_, _, by unfold exec execGraphicLoadDone State.fwStep; rfl⟩
  | mvcFlip t ch => exact ⟨_, _, by unfold exec execMvcFlip State.request; rfl⟩
  | twnGetStatus t ch => exact ⟨_, _, by unfold exec execTwnGetStatus State.request; rfl⟩
  | twnHandover t ch => exact ⟨_, _, by unfold exec execTwnHandover State.request; rfl⟩
  | twnSetPolicy t ch => exact ⟨_, _, by unfold exec execTwnSetPolicy State.request; rfl⟩
  | busGetStatus t ch => exact ⟨_, _, by unfold exec execBusGetStatus State.request; rfl⟩
  | busSetAperture t ch => exact ⟨_, _, by unfold exec execBusSetAperture State.request; rfl⟩
  | updGetStatus t ch => exact ⟨_, _, by unfold exec execUpdGetStatus State.request; rfl⟩
  | secAttest t ch => exact ⟨_, _, by unfold exec execSecAttest State.request; rfl⟩
  | updDownload t ch => exact ⟨_, _, by unfold exec execUpdDownload State.request; rfl⟩
  | updVerify t ch => exact ⟨_, _, by unfold exec execUpdVerify State.request; rfl⟩
  | updActivate t ch => exact ⟨_, _, by unfold exec execUpdActivate State.request; rfl⟩
  | updConfirm t ch => exact ⟨_, _, by unfold exec execUpdConfirm State.request; rfl⟩
  | resetNLow t => exact ⟨_, _, by unfold exec execResetNLow; rfl⟩
  | porstNLow t => exact ⟨_, _, by unfold exec execPorstNLow; rfl⟩
  | railBelowReset t rail => exact ⟨_, _, by unfold exec execRailBelowReset; rfl⟩
  | firstPowerUp t => exact ⟨_, _, by unfold exec execFirstPowerUp; rfl⟩
  | resetRelease t => exact ⟨_, _, by unfold exec execResetRelease; rfl⟩
  | strapSample t straps => exact ⟨_, _, by unfold exec execStrapSample; rfl⟩
  | watchdogExpiry t => exact ⟨_, _, by unfold exec execWatchdogExpiry; rfl⟩
  | bootRomRun t idOk b0 b1 => exact ⟨_, _, by unfold exec execBootRomRun; rfl⟩
  | fwReady t conv => exact ⟨_, _, by unfold exec execFwReady; rfl⟩
  | configurationLoad t => exact ⟨_, _, by unfold exec execConfigurationLoad State.fwStep; rfl⟩
  | mramRefreshRewrite t => exact ⟨_, _, by unfold exec execMramRefreshRewrite State.fwStep; rfl⟩
  | railBelowWarning t rail => exact ⟨_, _, by unfold exec execRailBelowWarning; rfl⟩
  | railAboveWarning t rail => exact ⟨_, _, by unfold exec execRailAboveWarning; rfl⟩
  | mramHoldRelease t => exact ⟨_, _, by unfold exec execMramHoldRelease; rfl⟩
  | mramWriteDone t => exact ⟨_, _, by unfold exec execMramWriteDone; rfl⟩
  | pwrMonCfgWrite t rail value => exact ⟨_, _, by unfold exec execPwrMonCfgWrite State.fwStep; rfl⟩
  | domainReqWrite t dom req => exact ⟨_, _, by unfold exec execDomainReqWrite State.event; rfl⟩
  | domainTransitionDone t dom => exact ⟨_, _, by unfold exec execDomainTransitionDone State.event; rfl⟩
  | netWake t port => exact ⟨_, _, by unfold exec execNetWake State.event; rfl⟩
  | enter t => exact ⟨_, _, by unfold exec execEnter; rfl⟩
  | wake t => exact ⟨_, _, by unfold exec execWake; rfl⟩
  | thermalReading t celsius => exact ⟨_, _, by unfold exec execThermalReading State.event; rfl⟩
  | loInLoss t => exact ⟨_, _, by unfold exec execLoInLoss State.event; rfl⟩
  | loInReturn t => exact ⟨_, _, by unfold exec execLoInReturn State.event; rfl⟩
  | faultScanFrame t scan => exact ⟨_, _, by unfold exec execFaultScanFrame State.event; rfl⟩
  | queueFault t dsts => exact ⟨_, _, by unfold exec execQueueFault State.event; rfl⟩
  | frameBoundary t plane => exact ⟨_, _, by unfold exec execFrameBoundary State.event; rfl⟩
  | switchingPoint t dst field2 => exact ⟨_, _, by unfold exec execSwitchingPoint State.event; rfl⟩
  | sourceFrameArrival t src f => exact ⟨_, _, by unfold exec execSourceFrameArrival State.event; rfl⟩
  | srcDemoted t src => exact ⟨_, _, by unfold exec execSrcDemoted State.event; rfl⟩
  | presentationInstant t src plane clean ue conceal => exact ⟨_, _, by unfold exec execPresentationInstant State.event; rfl⟩
  | srcInvalid t src => exact ⟨_, _, by unfold exec execSrcInvalid State.event; rfl⟩
  | srcValid t src => exact ⟨_, _, by unfold exec execSrcValid State.event; rfl⟩
  | invalidLine t src run => exact ⟨_, _, by unfold exec execInvalidLine State.event; rfl⟩
  | pbPauseExpired t pb => exact ⟨_, _, by unfold exec execPbPauseExpired State.event; rfl⟩
  | storeHalted t plane => exact ⟨_, _, by unfold exec execStoreHalted State.event; rfl⟩
  | channelTraining t chan dimm => exact ⟨_, _, by unfold exec execChannelTraining State.fwStep; rfl⟩
  | channelReady t chan rd wr => exact ⟨_, _, by unfold exec execChannelReady State.fwStep; rfl⟩
  | trainFailed t chan => exact ⟨_, _, by unfold exec execTrainFailed State.fwStep; rfl⟩
  | refreshBoundary t chan rank mr4 => exact ⟨_, _, by unfold exec execRefreshBoundary State.event; rfl⟩
  | percolatorSweep t chan rank results => exact ⟨_, _, by unfold exec execPercolatorSweep State.fwStep; rfl⟩
  | dramReadEcc t pa dev => exact ⟨_, _, by unfold exec execDramReadEcc State.event; rfl⟩
  | patrolScrub t chan found => exact ⟨_, _, by unfold exec execPatrolScrub State.event; rfl⟩
  | parityAlert t chan inReplay => exact ⟨_, _, by unfold exec execParityAlert State.event; rfl⟩
  | channelFailed t chan => exact ⟨_, _, by unfold exec execChannelFailed State.event; rfl⟩
  | huntTrialEnd t lane => exact ⟨_, _, by unfold exec execHuntTrialEnd State.event; rfl⟩
  | rxLock t lane rate levelB => exact ⟨_, _, by unfold exec execRxLock State.event; rfl⟩
  | rxLos t lane => exact ⟨_, _, by unfold exec execRxLos State.event; rfl⟩
  | cdrMarginCheck t low => exact ⟨_, _, by unfold exec execCdrMarginCheck State.fwStep; rfl⟩
  | sdiLineCheck t lane error noEdh => exact ⟨_, _, by unfold exec execSdiLineCheck State.event; rfl⟩
  | ancillaryCapture t lane pid tcKind tc badGroups => exact ⟨_, _, by unfold exec execAncillaryCapture State.event; rfl⟩
  | fabSignalLost t lane => exact ⟨_, _, by unfold exec execFabSignalLost State.event; rfl⟩
  | fabSignalPresent t lane => exact ⟨_, _, by unfold exec execFabSignalPresent State.event; rfl⟩
  | verifyDone t lane cdr block crc polInv height => exact ⟨_, _, by unfold exec execVerifyDone State.event; rfl⟩
  | sweepDone t lane heights clean polInv => exact ⟨_, _, by unfold exec execSweepDone State.event; rfl⟩
  | laneRetry t lane => exact ⟨_, _, by unfold exec execLaneRetry State.event; rfl⟩
  | laneLockLost t lane => exact ⟨_, _, by unfold exec execLaneLockLost State.event; rfl⟩
  | percolatorVisit t lane height width below above belowCrc aboveCrc => exact ⟨_, _, by unfold exec execPercolatorVisit State.fwStep; rfl⟩
  | percolatorStep t lane => exact ⟨_, _, by unfold exec execPercolatorStep State.event; rfl⟩
  | percPostErr t lane => exact ⟨_, _, by unfold exec execPercPostErr State.event; rfl⟩
  | checkerLock t lane locked errs units => exact ⟨_, _, by unfold exec execCheckerLock State.event; rfl⟩
  | laneDozeWake t lane lostLock => exact ⟨_, _, by unfold exec execLaneDozeWake State.event; rfl⟩
  | dataBlock t lane block => exact ⟨_, _, by unfold exec execDataBlock State.event; rfl⟩
  | alignmentMarker t lane block => exact ⟨_, _, by unfold exec execAlignmentMarker State.event; rfl⟩
  | statusBlock t lane block => exact ⟨_, _, by unfold exec execStatusBlock State.event; rfl⟩
  | linkFormTimeout t link => exact ⟨_, _, by unfold exec execLinkFormTimeout State.event; rfl⟩
  | laneUnusable t lane => exact ⟨_, _, by unfold exec execLaneUnusable State.event; rfl⟩
  | reformMarker t lane block => exact ⟨_, _, by unfold exec execReformMarker State.event; rfl⟩
  | linkWiden t link => exact ⟨_, _, by unfold exec execLinkWiden State.event; rfl⟩
  | slotMaskCopy t plane => exact ⟨_, _, by unfold exec execSlotMaskCopy State.event; rfl⟩
  | mergeLine t slot aOk bOk differ run => exact ⟨_, _, by unfold exec execMergeLine State.event; rfl⟩
  | trainingTimeout t port => exact ⟨_, _, by unfold exec execTrainingTimeout State.event; rfl⟩
  | netLinkUp t port remoteFault => exact ⟨_, _, by unfold exec execNetLinkUp State.event; rfl⟩
  | netLinkDown t port cause lock => exact ⟨_, _, by unfold exec execNetLinkDown State.event; rfl⟩
  | frameReceived t port f => exact ⟨_, _, by unfold exec execFrameReceived State.event; rfl⟩
  | frameTransmit t port heads cut => exact ⟨_, _, by unfold exec execFrameTransmit State.event; rfl⟩
  | gclEntryBoundary t port => exact ⟨_, _, by unfold exec execGclEntryBoundary State.event; rfl⟩
  | gclTaken t port => exact ⟨_, _, by unfold exec execGclTaken State.event; rfl⟩
  | anchorSet t plane => exact ⟨_, _, by unfold exec execAnchorSet State.event; rfl⟩
  | mediaPacketReceived t flow leg p => exact ⟨_, _, by unfold exec execMediaPacketReceived State.event; rfl⟩
  | audioPacketReceived t flow leg p => exact ⟨_, _, by unfold exec execAudioPacketReceived State.event; rfl⟩
  | audioPacketLate t flow seq => exact ⟨_, _, by unfold exec execAudioPacketLate State.event; rfl⟩
  | legLost t flow leg => exact ⟨_, _, by unfold exec execLegLost State.event; rfl⟩
  | legRestored t flow leg => exact ⟨_, _, by unfold exec execLegRestored State.event; rfl⟩
  | packetRelease t sender leg slot => exact ⟨_, _, by unfold exec execPacketRelease State.event; rfl⟩
  | ancillaryFieldSend t sender sizes => exact ⟨_, _, by unfold exec execAncillaryFieldSend State.event; rfl⟩
  | syncReceived t port seq domain id num err => exact ⟨_, _, by unfold exec execSyncReceived State.event; rfl⟩
  | delayReqSent t port seq err => exact ⟨_, _, by unfold exec execDelayReqSent State.event; rfl⟩
  | rxqPop t port => exact ⟨_, _, by unfold exec execRxqPop State.fwStep; rfl⟩
  | txrPop t port => exact ⟨_, _, by unfold exec execTxrPop State.fwStep; rfl⟩
  | servoSample t port offset filtered freq mpd => exact ⟨_, _, by unfold exec execServoSample State.ptpStep State.fwStep; rfl⟩
  | announceReceived t port domain id rank => exact ⟨_, _, by unfold exec execAnnounceReceived State.ptpStep State.fwStep; rfl⟩
  | prefPortRevert t => exact ⟨_, _, by unfold exec execPrefPortRevert State.ptpStep State.fwStep; rfl⟩
  | announceTimeout t port => exact ⟨_, _, by unfold exec execAnnounceTimeout State.ptpStep State.fwStep; rfl⟩
  | monitorWindowEnd t meas lo => exact ⟨_, _, by unfold exec execMonitorWindowEnd State.select State.event; rfl⟩
  | candidateInactive t cand noisy meas => exact ⟨_, _, by unfold exec execCandidateInactive State.select State.event; rfl⟩
  | wtrExpiry t plane meas => exact ⟨_, _, by unfold exec execWtrExpiry State.select State.event; rfl⟩
  | pullinDone t plane => exact ⟨_, _, by unfold exec execPullinDone State.select State.event; rfl⟩
  | startTimeout t plane delay => exact ⟨_, _, by unfold exec execStartTimeout State.select State.event; rfl⟩
  | refPhaseHit t cand => exact ⟨_, _, by unfold exec execRefPhaseHit State.event; rfl⟩
  | referenceEdge t cand displaced meas => exact ⟨_, _, by unfold exec execReferenceEdge State.select State.event; rfl⟩
  | loCalibrated t lo => exact ⟨_, _, by unfold exec execLoCalibrated State.fwStep; rfl⟩
  | audioBlock t b => exact ⟨_, _, by unfold exec execAudioBlock State.event; rfl⟩
  | portLocked t port rate => exact ⟨_, _, by unfold exec execPortLocked State.event; rfl⟩
  | portUnlocked t port cause => exact ⟨_, _, by unfold exec execPortUnlocked State.event; rfl⟩
  | slipped t port kind => exact ⟨_, _, by unfold exec execSlipped State.event; rfl⟩
  | rejoined t port => exact ⟨_, _, by unfold exec execRejoined State.event; rfl⟩
  | headFrameDecision t head => exact ⟨_, _, by unfold exec execHeadFrameDecision State.event; rfl⟩
  | autoFlip t head layer => exact ⟨_, _, by unfold exec execAutoFlip State.event; rfl⟩
  | layerSlated t head layer => exact ⟨_, _, by unfold exec execLayerSlated State.event; rfl⟩
  | twinModeDecision t peerIn => exact ⟨_, _, by unfold exec execTwinModeDecision State.event; rfl⟩
  | unit1WaitExpiry t peerIn => exact ⟨_, _, by unfold exec execUnit1WaitExpiry State.event; rfl⟩
  | peerInConflict t => exact ⟨_, _, by unfold exec execPeerInConflict State.event; rfl⟩
  | hello t mseq role unit mode phase version schema => exact ⟨_, _, by unfold exec execHello State.event; rfl⟩
  | helloSend t peerIn => exact ⟨_, _, by unfold exec execHelloSend State.event; rfl⟩
  | command t mseq m => exact ⟨_, _, by unfold exec execCommand State.message State.event; rfl⟩
  | ack t mseq fwdSeq => exact ⟨_, _, by unfold exec execAck State.message State.event; rfl⟩
  | ackTimeout t fwdSeq => exact ⟨_, _, by unfold exec execAckTimeout State.event; rfl⟩
  | decision t mseq d => exact ⟨_, _, by unfold exec execDecision State.message State.event; rfl⟩
  | mask t mseq plane epoch mask => exact ⟨_, _, by unfold exec execMask State.message State.event; rfl⟩
  | cremaCompute t plane crcs => exact ⟨_, _, by unfold exec execCremaCompute State.event; rfl⟩
  | crema t mseq plane epoch word => exact ⟨_, _, by unfold exec execCrema State.message State.event; rfl⟩
  | cremaMissing t plane epoch => exact ⟨_, _, by unfold exec execCremaMissing State.event; rfl⟩
  | crcList t mseq plane epoch crcs => exact ⟨_, _, by unfold exec execCrcList State.message State.event; rfl⟩
  | evidence t mseq plane epoch recs diag => exact ⟨_, _, by unfold exec execEvidence State.message State.event; rfl⟩
  | messageGap t stream => exact ⟨_, _, by unfold exec execMessageGap State.event; rfl⟩
  | noMatchResync t plane => exact ⟨_, _, by unfold exec execNoMatchResync State.event; rfl⟩
  | twnSelfFault t bit => exact ⟨_, _, by unfold exec execTwnSelfFault State.event; rfl⟩
  | twnPeerLost t => exact ⟨_, _, by unfold exec execTwnPeerLost State.event; rfl⟩
  | twinLinkLost t => exact ⟨_, _, by unfold exec execTwinLinkLost State.event; rfl⟩
  | handover t mseq epoch cause => exact ⟨_, _, by unfold exec execHandover State.message State.event; rfl⟩
  | handoverInstant t => exact ⟨_, _, by unfold exec execHandoverInstant State.event; rfl⟩
  | resync t mseq cause => exact ⟨_, _, by unfold exec execResync State.message State.event; rfl⟩
  | state t mseq seg => exact ⟨_, _, by unfold exec execState State.message State.event; rfl⟩
  | syncConfigDone t conv => exact ⟨_, _, by unfold exec execSyncConfigDone State.event; rfl⟩
  | syncAudioDone t => exact ⟨_, _, by unfold exec execSyncAudioDone State.event; rfl⟩
  | coldTakeover t => exact ⟨_, _, by unfold exec execColdTakeover State.event; rfl⟩
  | twinRestartHoldExpiry t => exact ⟨_, _, by unfold exec execTwinRestartHoldExpiry State.event; rfl⟩
  | busAccess t a => exact ⟨_, _, by unfold exec execBusAccess; rfl⟩
  | busTimeout t m id => exact ⟨_, _, by unfold exec execBusTimeout State.event; rfl⟩
  | lockedSequence t a => exact ⟨_, _, by unfold exec execLockedSequence; rfl⟩
  | busLockBreak t target => exact ⟨_, _, by unfold exec execBusLockBreak State.event; rfl⟩
  | busMasterAbort t dma => exact ⟨_, _, by unfold exec execBusMasterAbort State.event; rfl⟩
  | locked t => exact ⟨_, _, by unfold exec execLocked State.event; rfl⟩
  | freeze t user freeze => exact ⟨_, _, by unfold exec execFreeze State.event; rfl⟩
  | pmcCounterWrap t core k => exact ⟨_, _, by unfold exec execPmcCounterWrap State.event; rfl⟩
  | pmcSample t core addr data lat kind user err => exact ⟨_, _, by unfold exec execPmcSample State.event; rfl⟩
  | smpClear t core w => exact ⟨_, _, by unfold exec execSmpClear State.event; rfl⟩
  | nmeTag t engine pc lat wait flow => exact ⟨_, _, by unfold exec execNmeTag State.event; rfl⟩
  | nmeClear t w => exact ⟨_, _, by unfold exec execNmeClear State.event; rfl⟩
  | updDownloadDone t ch data => exact ⟨_, _, by unfold exec execUpdDownloadDone; rfl⟩
  | updVerifyDone t ch p => exact ⟨_, _, by unfold exec execUpdVerifyDone; rfl⟩
  | updSelfCheck t => exact ⟨_, _, by unfold exec execUpdSelfCheck; rfl⟩
  | selfCheckTimeout t => exact ⟨_, _, by unfold exec execSelfCheckTimeout; rfl⟩
  | healthExpired t => exact ⟨_, _, by unfold exec execHealthExpired; rfl⟩
  | serdesLaneRestart t => exact ⟨_, _, by unfold exec execSerdesLaneRestart State.fwStep; rfl⟩
  | serdesDone t => exact ⟨_, _, by unfold exec execSerdesDone State.fwStep; rfl⟩
  | microcodeSwitch t type => exact ⟨_, _, by unfold exec execMicrocodeSwitch State.event; rfl⟩
  | netSignalDetected t port => exact ⟨_, _, by unfold exec execNetSignalDetected State.event; rfl⟩
  | netSignalLost t port lock => exact ⟨_, _, by unfold exec execNetSignalLost State.event; rfl⟩
  | autoNegotiationDone t port => exact ⟨_, _, by unfold exec execAutoNegotiationDone State.event; rfl⟩
  | linkTrainingDone t port pol => exact ⟨_, _, by unfold exec execLinkTrainingDone State.event; rfl⟩
  | sapPortFrame t port bclk rx tx => exact ⟨_, _, by unfold exec execSapPortFrame State.event; rfl⟩
  | attestationReportDone t ch => exact ⟨_, _, by unfold exec execAttestationReportDone; rfl⟩
  | d3hotTransition t d3 => exact ⟨_, _, by unfold exec execD3hotTransition; rfl⟩
  | helloTimeout t => exact ⟨_, _, by unfold exec execHelloTimeout State.event; rfl⟩
  | igmpMembershipReport t port => exact ⟨_, _, by unfold exec execIgmpMembershipReport State.fwStep; rfl⟩
  | trstNLow t => exact ⟨_, _, by unfold exec execTrstNLow; rfl⟩
/-- Every command answers a next state with the queue as it was and nothing of the command left undone. -/
theorem exec_next (i : Instr) (s : State) :
    ∃ s', exec i s = .next s' ∧ s'.pending = s.pending ∧ s'.chip.out = [] ∧ s'.chip.evts = 0 ∧ (s.mem.wf = true → s'.mem.wf = true) := by
  obtain ⟨t, f, h⟩ := exec_run i s
  rw [h]
  exact State.run_next s t f

end Sys2Proof.Machine
end

