-- ==== Sys2Proof/Laws/Within.lean ====
section
/-! SUPPORT. How the named operations keep within registers pages and parts: the laws of Chip.Within, which says what a command may change. -/

namespace Sys2Proof.Machine

theorem Part.same_refl (k : Part) (c : Chip) : k.same c c := by
  cases k <;> first | rfl | exact ⟨[], by simp⟩

theorem Part.same_trans (k : Part) {c d e : Chip} (h : k.same c d) (h2 : k.same d e) : k.same c e := by
  cases k <;> first
    | exact Eq.trans h2 h
    | (obtain ⟨o1, a1, b1⟩ := h
       obtain ⟨o2, a2, b2⟩ := h2
       exact ⟨o1 ++ o2, by rw [a2, a1, List.append_assoc], by rw [List.all_append, b1, b2]; rfl⟩)

/-- A change of the register window alone. -/
theorem Part.same_regs (k : Part) (c : Chip) (m : RegMap) : k.same c { c with regs := m } := by
  cases k <;> first | rfl | exact ⟨[], by simp⟩

theorem Chip.put_shape (c : Chip) (r : Reg) (v : Nat) : ∃ m, c.put r v = { c with regs := m } := by
  unfold Chip.put
  split
  · exact ⟨_, rfl⟩
  · exact ⟨_, rfl⟩

theorem Part.same_put (k : Part) (c : Chip) (r : Reg) (v : Nat) : k.same c (c.put r v) := by
  obtain ⟨m, h⟩ := c.put_shape r v
  rw [h]
  exact k.same_regs c m

theorem Part.same_wr (k : Part) (c : Chip) (f : Fld) (v : Nat) : k.same c (c.wr f v) := k.same_put c f.reg _

theorem Chip.rd_lt (c : Chip) (f : Fld) : c.rd f < 2 ^ f.w := by
  unfold Chip.rd bits
  exact Nat.mod_lt _ (Nat.two_pow_pos _)

theorem Part.same_emit (c : Chip) (o : MemOp) (n : Nat) (h : o.inRing = true) : Part.mem.same c { c.emit o with evts := n } :=
  ⟨[o], rfl, by simp [h]⟩

theorem Part.same_entry (c : Chip) (h w0 w1 w2 w3 n : Nat) (hh : h < 2 ^ 8) :
    Part.mem.same c { c.emit (.words (ringBase + 16 * h) [w0, w1, w2, w3]) with evts := n } := by
  refine Part.same_emit c _ n ?_
  simp only [MemOp.inRing, List.length_cons, List.length_nil, Bool.and_eq_true, decide_eq_true_eq]
  omega

theorem Part.same_post (j : Part) (x : Chip) (b k i a : Nat) : j.same x (x.post b k i a) := by
  cases j
  case mem =>
    unfold Chip.post
    split
    · exact Part.mem.same_refl x
    · dsimp only
      split
      · exact Part.same_trans .mem (Part.same_wr .mem x MBX_EVT_LOST_COUNT _) (Part.same_wr .mem _ MBX_STATUS_EVT_OVERFLOW 1)
      · have hh : x.rd MBX_EVT_HEAD_HEAD < 2 ^ 8 := x.rd_lt MBX_EVT_HEAD_HEAD
        generalize x.rd MBX_EVT_HEAD_HEAD = h at hh ⊢
        exact Part.same_trans .mem (Part.same_wr .mem x MBX_EVT_HEAD_HEAD (h + 1)) (Part.same_entry _ h _ _ _ _ _ hh)
  all_goals simp [Part.same]

section
variable {P : List Nat} {T : List Part} {c x y : Chip}

theorem Chip.Within.refl : Chip.Within P T c c := ⟨fun _ _ => rfl, fun k _ => k.same_refl c⟩

theorem Chip.Within.trans (h : Chip.Within P T c x) (h2 : Chip.Within P T x y) : Chip.Within P T c y :=
  ⟨fun o ho => (h2.cell o ho).trans (h.cell o ho), fun k hk => Part.same_trans k (h.part k hk) (h2.part k hk)⟩

theorem Chip.Within.mono {P' : List Nat} {T' : List Part} (h : Chip.Within P' T' c x) (hp : ∀ p ∈ P', p ∈ P) (ht : ∀ k ∈ T', k ∈ T) :
    Chip.Within P T c x :=
  ⟨fun o ho => h.cell o fun hm => ho (hp _ hm), fun k hk => h.part k fun hm => hk (ht _ hm)⟩

theorem Chip.Within.cellTo {d : Chip} (h : Chip.Within P T c x) (hc : ∀ o, o / 65536 ∉ P → d.regs.find o = x.regs.find o)
    (hp : ∀ k : Part, k.same x d) : Chip.Within P T c d :=
  h.trans ⟨hc, fun k _ => hp k⟩

theorem Chip.Within.put {r : Reg} {v : Nat} (h : Chip.Within P T c x) (hr : r.off / 65536 ∈ P) : Chip.Within P T c (x.put r v) := by
  exact h.cellTo (fun o ho => Chip.cell_put_other x r v o fun he => ho (he ▸ hr)) fun k => k.same_put x r v

theorem Chip.Within.wr {f : Fld} {v : Nat} (h : Chip.Within P T c x) (hr : f.off / 65536 ∈ P) : Chip.Within P T c (x.wr f v) :=
  Chip.Within.put h hr
theorem Chip.Within.set {f : Fld} (h : Chip.Within P T c x) (hr : f.off / 65536 ∈ P) : Chip.Within P T c (x.set f) := h.wr hr
theorem Chip.Within.clr {f : Fld} (h : Chip.Within P T c x) (hr : f.off / 65536 ∈ P) : Chip.Within P T c (x.clr f) := h.wr hr
theorem Chip.Within.wrB {f : Fld} {b : Bool} (h : Chip.Within P T c x) (hr : f.off / 65536 ∈ P) : Chip.Within P T c (x.wrB f b) := h.wr hr
theorem Chip.Within.add {f : Fld} {k : Nat} (h : Chip.Within P T c x) (hr : f.off / 65536 ∈ P) : Chip.Within P T c (x.add f k) := h.wr hr
theorem Chip.Within.inc {f : Fld} (h : Chip.Within P T c x) (hr : f.off / 65536 ∈ P) : Chip.Within P T c (x.inc f) := h.wr hr
theorem Chip.Within.wrI {f : Fld} {i : Int} (h : Chip.Within P T c x) (hr : f.off / 65536 ∈ P) : Chip.Within P T c (x.wrI f i) := h.wr hr
theorem Chip.Within.setBit {f : Fld} {i : Nat} (h : Chip.Within P T c x) (hr : f.off / 65536 ∈ P) : Chip.Within P T c (x.setBit f i) := by
  unfold Chip.setBit
  split
  · exact h
  · exact h.wr hr
theorem Chip.Within.clrBit {f : Fld} {i : Nat} (h : Chip.Within P T c x) (hr : f.off / 65536 ∈ P) : Chip.Within P T c (x.clrBit f i) := by
  unfold Chip.clrBit
  split
  · exact h.wr hr
  · exact h

/-- A change of one part. -/
theorem Chip.Within.hold {d : Chip} {k : Part} (h : Chip.Within P T c x) (hk : k ∈ T) (hr : d.regs = x.regs)
    (hp : ∀ j : Part, j ≠ k → j.same x d) : Chip.Within P T c d :=
  h.trans ⟨fun o _ => by rw [hr], fun j hj => hp j fun he => hj (he ▸ hk)⟩

theorem Chip.Within.when' {b : Bool} {g : Chip → Chip} (h : Chip.Within P T c x) (hg : ∀ y, Chip.Within P T y (g y)) :
    Chip.Within P T c (x.when b g) := by
  cases b
  · exact h
  · exact h.trans (hg x)

theorem Chip.Within.each {α : Type} {l : List α} {g : Chip → α → Chip} (h : Chip.Within P T c x)
    (hg : ∀ y a, a ∈ l → Chip.Within P T y (g y a)) : Chip.Within P T c (x.each l g) :=
  Chip.each_invariant (Chip.Within P T c) l g (fun d a ha hd => hd.trans (hg d a ha)) x h

theorem Chip.Within.ite {p : Prop} [Decidable p] (h1 : p → Chip.Within P T c x) (h2 : ¬ p → Chip.Within P T c y) :
    Chip.Within P T c (if p then x else y) := by
  split
  · exact h1 ‹_›
  · exact h2 ‹_›

theorem Chip.Within.post {b k i a : Nat} (h : Chip.Within P T c x) (hm : 1 ∈ P) : Chip.Within P T c (x.post b k i a) := by
  exact h.trans ⟨fun o ho => Chip.cell_post x b k i a o fun he => ho (he ▸ hm), fun j _ => j.same_post x b k i a⟩

/-- What a command may change, from the chip it finds to the state it leaves. -/
theorem State.commit_within {s : State} {d : Chip} (h : Chip.Within P T c d) (hq : c.out = []) (hw : s.mem.wf = true) (hm : Part.mem ∉ T) :
    ∀ a, a < ringBase ∨ ringBase + 4096 ≤ a → (s.commit d).mem.read a = s.mem.read a := by
  intro a ha
  obtain ⟨ops, ho, hr⟩ := h.part .mem hm
  rw [State.commit_mem, ho, hq, List.nil_append]
  clear ho h
  generalize s.mem = m at hw
  induction ops generalizing m with
  | nil => rfl
  | cons o ops ih =>
    rw [List.all_cons, Bool.and_eq_true] at hr
    rw [List.foldl_cons, ih hr.2 _ (Memory.apply_wf _ _ hw)]
    cases o with
    | words x ws =>
      have h1 := hr.1
      simp only [MemOp.inRing, Bool.and_eq_true, decide_eq_true_eq] at h1
      have hl : (ws.flatMap wordBytes).length = 4 * ws.length := by
        induction ws with
        | nil => rfl
        | cons w ws ih => simp [wordBytes]; omega
      unfold Memory.apply
      exact Memory.read_writeBytes_other m x a _ hw (by rw [hl]; omega)
    | bytes x bs => exact absurd hr.1 (by simp [MemOp.inRing])
    | clear x n => exact absurd hr.1 (by simp [MemOp.inRing])
    | clearChan n => exact absurd hr.1 (by simp [MemOp.inRing])
    | sweepRows n => exact absurd hr.1 (by simp [MemOp.inRing])
end

end Sys2Proof.Machine
end

