-- ==== Sys2Proof/Laws/WithinMem.lean ====
section
/-! SUPPORT. The bounds of the indices that the operations run through, and a change of hidden parts alone. -/

namespace Sys2Proof.Machine

theorem Chip.Within.part_only {P : List Nat} {T : List Part} {c d : Chip} (hr : d.regs = c.regs) (hp : ∀ k, k ∉ T → Part.same k c d) :
    Chip.Within P T c d :=
  ⟨fun o _ => by rw [hr], hp⟩

theorem Chip.Within.to_now {P : List Nat} {T : List Part} {c x : Chip} {v : Nat} (h : Chip.Within P T c x) (hk : ([.now] : List Part).all T.contains = true) :
    Chip.Within P T c { x with now := v } :=
  h.trans (Chip.Within.part_only rfl fun k hn => by cases k <;> first | (exact absurd (by simpa using hk) hn) | rfl | exact ⟨[], (List.append_nil _).symm, rfl⟩)
theorem Chip.Within.to_free {P : List Nat} {T : List Part} {c x : Chip} {v : Nat} (h : Chip.Within P T c x) (hk : ([.free] : List Part).all T.contains = true) :
    Chip.Within P T c { x with free := v } :=
  h.trans (Chip.Within.part_only rfl fun k hn => by cases k <;> first | (exact absurd (by simpa using hk) hn) | rfl | exact ⟨[], (List.append_nil _).symm, rfl⟩)
theorem Chip.Within.to_clock {P : List Nat} {T : List Part} {c x : Chip} {v : Clock} (h : Chip.Within P T c x) (hk : ([.clock] : List Part).all T.contains = true) :
    Chip.Within P T c { x with clock := v } :=
  h.trans (Chip.Within.part_only rfl fun k hn => by cases k <;> first | (exact absurd (by simpa using hk) hn) | rfl | exact ⟨[], (List.append_nil _).symm, rfl⟩)
theorem Chip.Within.to_host {P : List Nat} {T : List Part} {c x : Chip} {v : HostIf} (h : Chip.Within P T c x) (hk : ([.host] : List Part).all T.contains = true) :
    Chip.Within P T c { x with host := v } :=
  h.trans (Chip.Within.part_only rfl fun k hn => by cases k <;> first | (exact absurd (by simpa using hk) hn) | rfl | exact ⟨[], (List.append_nil _).symm, rfl⟩)
theorem Chip.Within.to_fw {P : List Nat} {T : List Part} {c x : Chip} {v : Fw} (h : Chip.Within P T c x) (hk : ([.fw] : List Part).all T.contains = true) :
    Chip.Within P T c { x with fw := v } :=
  h.trans (Chip.Within.part_only rfl fun k hn => by cases k <;> first | (exact absurd (by simpa using hk) hn) | rfl | exact ⟨[], (List.append_nil _).symm, rfl⟩)
theorem Chip.Within.to_planes {P : List Nat} {T : List Part} {c x : Chip} {v : List Plane} (h : Chip.Within P T c x) (hk : ([.planes] : List Part).all T.contains = true) :
    Chip.Within P T c { x with planes := v } :=
  h.trans (Chip.Within.part_only rfl fun k hn => by cases k <;> first | (exact absurd (by simpa using hk) hn) | rfl | exact ⟨[], (List.append_nil _).symm, rfl⟩)
theorem Chip.Within.to_srcs {P : List Nat} {T : List Part} {c x : Chip} {v : List (Nat × Src)} (h : Chip.Within P T c x) (hk : ([.srcs] : List Part).all T.contains = true) :
    Chip.Within P T c { x with srcs := v } :=
  h.trans (Chip.Within.part_only rfl fun k hn => by cases k <;> first | (exact absurd (by simpa using hk) hn) | rfl | exact ⟨[], (List.append_nil _).symm, rfl⟩)
theorem Chip.Within.to_dsts {P : List Nat} {T : List Part} {c x : Chip} {v : List (Nat × Dst)} (h : Chip.Within P T c x) (hk : ([.dsts] : List Part).all T.contains = true) :
    Chip.Within P T c { x with dsts := v } :=
  h.trans (Chip.Within.part_only rfl fun k hn => by cases k <;> first | (exact absurd (by simpa using hk) hn) | rfl | exact ⟨[], (List.append_nil _).symm, rfl⟩)
theorem Chip.Within.to_sent {P : List Nat} {T : List Part} {c x : Chip} {v : List (Nat × List Nat)} (h : Chip.Within P T c x) (hk : ([.sent] : List Part).all T.contains = true) :
    Chip.Within P T c { x with sent := v } :=
  h.trans (Chip.Within.part_only rfl fun k hn => by cases k <;> first | (exact absurd (by simpa using hk) hn) | rfl | exact ⟨[], (List.append_nil _).symm, rfl⟩)
theorem Chip.Within.to_pwr {P : List Nat} {T : List Part} {c x : Chip} {v : Pwr} (h : Chip.Within P T c x) (hk : ([.pwr] : List Part).all T.contains = true) :
    Chip.Within P T c { x with pwr := v } :=
  h.trans (Chip.Within.part_only rfl fun k hn => by cases k <;> first | (exact absurd (by simpa using hk) hn) | rfl | exact ⟨[], (List.append_nil _).symm, rfl⟩)
theorem Chip.Within.to_dmc {P : List Nat} {T : List Part} {c x : Chip} {v : List (Nat × DmcCh)} (h : Chip.Within P T c x) (hk : ([.dmc] : List Part).all T.contains = true) :
    Chip.Within P T c { x with dmc := v } :=
  h.trans (Chip.Within.part_only rfl fun k hn => by cases k <;> first | (exact absurd (by simpa using hk) hn) | rfl | exact ⟨[], (List.append_nil _).symm, rfl⟩)
theorem Chip.Within.to_lbs {P : List Nat} {T : List Part} {c x : Chip} {v : Lbs} (h : Chip.Within P T c x) (hk : ([.lbs] : List Part).all T.contains = true) :
    Chip.Within P T c { x with lbs := v } :=
  h.trans (Chip.Within.part_only rfl fun k hn => by cases k <;> first | (exact absurd (by simpa using hk) hn) | rfl | exact ⟨[], (List.append_nil _).symm, rfl⟩)
theorem Chip.Within.to_sdi {P : List Nat} {T : List Part} {c x : Chip} {v : List (Nat × SdiLane)} (h : Chip.Within P T c x) (hk : ([.sdi] : List Part).all T.contains = true) :
    Chip.Within P T c { x with sdi := v } :=
  h.trans (Chip.Within.part_only rfl fun k hn => by cases k <;> first | (exact absurd (by simpa using hk) hn) | rfl | exact ⟨[], (List.append_nil _).symm, rfl⟩)
theorem Chip.Within.to_lanes {P : List Nat} {T : List Part} {c x : Chip} {v : List (Nat × FabLane)} (h : Chip.Within P T c x) (hk : ([.lanes] : List Part).all T.contains = true) :
    Chip.Within P T c { x with lanes := v } :=
  h.trans (Chip.Within.part_only rfl fun k hn => by cases k <;> first | (exact absurd (by simpa using hk) hn) | rfl | exact ⟨[], (List.append_nil _).symm, rfl⟩)
theorem Chip.Within.to_links {P : List Nat} {T : List Part} {c x : Chip} {v : List (Nat × Link)} (h : Chip.Within P T c x) (hk : ([.links] : List Part).all T.contains = true) :
    Chip.Within P T c { x with links := v } :=
  h.trans (Chip.Within.part_only rfl fun k hn => by cases k <;> first | (exact absurd (by simpa using hk) hn) | rfl | exact ⟨[], (List.append_nil _).symm, rfl⟩)
theorem Chip.Within.to_diffAt {P : List Nat} {T : List Part} {c x : Chip} {v : List (Nat × Nat)} (h : Chip.Within P T c x) (hk : ([.diffAt] : List Part).all T.contains = true) :
    Chip.Within P T c { x with diffAt := v } :=
  h.trans (Chip.Within.part_only rfl fun k hn => by cases k <;> first | (exact absurd (by simpa using hk) hn) | rfl | exact ⟨[], (List.append_nil _).symm, rfl⟩)
theorem Chip.Within.to_nets {P : List Nat} {T : List Part} {c x : Chip} {v : List NetPort} (h : Chip.Within P T c x) (hk : ([.nets] : List Part).all T.contains = true) :
    Chip.Within P T c { x with nets := v } :=
  h.trans (Chip.Within.part_only rfl fun k hn => by cases k <;> first | (exact absurd (by simpa using hk) hn) | rfl | exact ⟨[], (List.append_nil _).symm, rfl⟩)
theorem Chip.Within.to_flows {P : List Nat} {T : List Part} {c x : Chip} {v : List (Nat × Flow)} (h : Chip.Within P T c x) (hk : ([.flows] : List Part).all T.contains = true) :
    Chip.Within P T c { x with flows := v } :=
  h.trans (Chip.Within.part_only rfl fun k hn => by cases k <;> first | (exact absurd (by simpa using hk) hn) | rfl | exact ⟨[], (List.append_nil _).symm, rfl⟩)
theorem Chip.Within.to_senders {P : List Nat} {T : List Part} {c x : Chip} {v : List (Nat × Sender)} (h : Chip.Within P T c x) (hk : ([.senders] : List Part).all T.contains = true) :
    Chip.Within P T c { x with senders := v } :=
  h.trans (Chip.Within.part_only rfl fun k hn => by cases k <;> first | (exact absurd (by simpa using hk) hn) | rfl | exact ⟨[], (List.append_nil _).symm, rfl⟩)
theorem Chip.Within.to_ptp {P : List Nat} {T : List Part} {c x : Chip} {v : Ptp} (h : Chip.Within P T c x) (hk : ([.ptp] : List Part).all T.contains = true) :
    Chip.Within P T c { x with ptp := v } :=
  h.trans (Chip.Within.part_only rfl fun k hn => by cases k <;> first | (exact absurd (by simpa using hk) hn) | rfl | exact ⟨[], (List.append_nil _).symm, rfl⟩)
theorem Chip.Within.to_ref {P : List Nat} {T : List Part} {c x : Chip} {v : Ref} (h : Chip.Within P T c x) (hk : ([.ref] : List Part).all T.contains = true) :
    Chip.Within P T c { x with ref := v } :=
  h.trans (Chip.Within.part_only rfl fun k hn => by cases k <;> first | (exact absurd (by simpa using hk) hn) | rfl | exact ⟨[], (List.append_nil _).symm, rfl⟩)
theorem Chip.Within.to_aud {P : List Nat} {T : List Part} {c x : Chip} {v : Aud} (h : Chip.Within P T c x) (hk : ([.aud] : List Part).all T.contains = true) :
    Chip.Within P T c { x with aud := v } :=
  h.trans (Chip.Within.part_only rfl fun k hn => by cases k <;> first | (exact absurd (by simpa using hk) hn) | rfl | exact ⟨[], (List.append_nil _).symm, rfl⟩)
theorem Chip.Within.to_sap {P : List Nat} {T : List Part} {c x : Chip} {v : List (Nat × SapPort)} (h : Chip.Within P T c x) (hk : ([.sap] : List Part).all T.contains = true) :
    Chip.Within P T c { x with sap := v } :=
  h.trans (Chip.Within.part_only rfl fun k hn => by cases k <;> first | (exact absurd (by simpa using hk) hn) | rfl | exact ⟨[], (List.append_nil _).symm, rfl⟩)
theorem Chip.Within.to_heads {P : List Nat} {T : List Part} {c x : Chip} {v : List (Nat × Head)} (h : Chip.Within P T c x) (hk : ([.heads] : List Part).all T.contains = true) :
    Chip.Within P T c { x with heads := v } :=
  h.trans (Chip.Within.part_only rfl fun k hn => by cases k <;> first | (exact absurd (by simpa using hk) hn) | rfl | exact ⟨[], (List.append_nil _).symm, rfl⟩)
theorem Chip.Within.to_twn {P : List Nat} {T : List Part} {c x : Chip} {v : Twn} (h : Chip.Within P T c x) (hk : ([.twn] : List Part).all T.contains = true) :
    Chip.Within P T c { x with twn := v } :=
  h.trans (Chip.Within.part_only rfl fun k hn => by cases k <;> first | (exact absurd (by simpa using hk) hn) | rfl | exact ⟨[], (List.append_nil _).symm, rfl⟩)
theorem Chip.Within.to_bus {P : List Nat} {T : List Part} {c x : Chip} {v : Bus} (h : Chip.Within P T c x) (hk : ([.bus] : List Part).all T.contains = true) :
    Chip.Within P T c { x with bus := v } :=
  h.trans (Chip.Within.part_only rfl fun k hn => by cases k <;> first | (exact absurd (by simpa using hk) hn) | rfl | exact ⟨[], (List.append_nil _).symm, rfl⟩)
theorem Chip.Within.to_pmcAt {P : List Nat} {T : List Part} {c x : Chip} {v : Nat} (h : Chip.Within P T c x) (hk : ([.pmcAt] : List Part).all T.contains = true) :
    Chip.Within P T c { x with pmcAt := v } :=
  h.trans (Chip.Within.part_only rfl fun k hn => by cases k <;> first | (exact absurd (by simpa using hk) hn) | rfl | exact ⟨[], (List.append_nil _).symm, rfl⟩)
theorem Chip.Within.to_upd {P : List Nat} {T : List Part} {c x : Chip} {v : Upd} (h : Chip.Within P T c x) (hk : ([.upd] : List Part).all T.contains = true) :
    Chip.Within P T c { x with upd := v } :=
  h.trans (Chip.Within.part_only rfl fun k hn => by cases k <;> first | (exact absurd (by simpa using hk) hn) | rfl | exact ⟨[], (List.append_nil _).symm, rfl⟩)

theorem Chip.Within.within {P P' : List Nat} {T T' : List Part} {c x y : Chip} (h : Chip.Within P T c x) (hp : P'.all P.contains = true)
    (ht : T'.all T.contains = true) (h2 : Chip.Within P' T' x y) : Chip.Within P T c y := by
  refine h.trans (h2.mono (fun p hm => ?_) fun k hm => ?_)
  · simpa using List.all_eq_true.1 hp p hm
  · simpa using List.all_eq_true.1 ht k hm

theorem Chip.mem_groupOf {c : Chip} {s i : Nat} (hs : s < 332) (hi : i ∈ c.groupOf s) : i < 332 := by
  unfold Chip.groupOf at hi
  split at hi
  · rename_i hb
    simp only [List.mem_map, List.mem_range] at hi
    obtain ⟨k, hk, rfl⟩ := hi
    unfold Chip.bondedRx at hb
    simp at hb
    omega
  · simp at hi; omega

theorem Chip.mem_listed {c : Chip} {b n : Nat} {p : Nat × Nat} (h : p ∈ c.listed b n) : p.1 < n := by
  unfold Chip.listed at h
  simp only [List.mem_map, List.mem_filter] at h
  obtain ⟨q, ⟨_, hq⟩, rfl⟩ := h
  simp at hq
  change (q.1 - b) / 4 < n
  omega

theorem Chip.mem_destsOf {c : Chip} {s d : Nat} (h : d ∈ c.destsOf s) : d < 384 := by
  unfold Chip.destsOf at h
  simp only [List.mem_map, List.mem_filter] at h
  obtain ⟨q, ⟨hq, _⟩, rfl⟩ := h
  exact Chip.mem_listed hq

theorem Chip.mem_routed {c : Chip} {d : Nat} (h : d ∈ c.routed) : d < 384 := by
  unfold Chip.routed at h
  simp only [List.mem_map, List.mem_filter] at h
  obtain ⟨q, ⟨hq, _⟩, rfl⟩ := h
  exact Chip.mem_listed hq

theorem Chip.leadOf_lt {c : Chip} {s : Nat} (hs : s < 332) : c.leadOf s < 332 := by
  unfold Chip.leadOf
  split <;> omega

theorem Chip.flowPort_lt (x : Nat) : flowPort x < 2 := by
  unfold flowPort bits
  split <;> omega

theorem Chip.rd_lt_of {c : Chip} {f : Fld} {k : Nat} (h : 2 ^ f.w ≤ k) : c.rd f < k := Nat.lt_of_lt_of_le (c.rd_lt f) h

theorem Chip.bits_lt_of {v lo w k : Nat} (h : 2 ^ w ≤ k) : bits v lo w < k :=
  Nat.lt_of_lt_of_le (Nat.mod_lt _ (Nat.two_pow_pos _)) h

theorem Chip.Within.emit {P : List Nat} {T : List Part} {c x : Chip} {o : MemOp} (h : Chip.Within P T c x)
    (hk : ([.mem] : List Part).all T.contains = true) : Chip.Within P T c (x.emit o) :=
  h.trans (Chip.Within.part_only rfl fun k hn => by cases k <;> first | (exact absurd (by simpa using hk) hn) | rfl)

theorem Chip.rxPort_lt {c : Chip} {f : Nat} : c.rxPort f < 2 := Chip.flowPort_lt _
theorem Chip.txPort_lt {c : Chip} {f : Nat} : c.txPort f < 2 := Chip.flowPort_lt _

/-- The status register of a port's flows lies on the page of the network block. -/
theorem Chip.flow_pages {P : List Nat} {w o : Nat} (ho : o = (NET_FLOW_STATUS (flowPort w)).off) (hp : [64].all P.contains = true) :
    o / 65536 ∈ P := by
  have h64 : (64 : Nat) ∈ P := by simpa using List.all_eq_true.1 hp 64 (by decide)
  have key : o / 65536 = 64 := by
    have h := Chip.flowPort_lt w
    rw [ho, NET_FLOW_STATUS]
    dsimp only
    omega
  rw [key]
  exact h64

theorem Chip.paChan_lt {pa : Nat} : paChan pa < 8 := Nat.mod_lt _ (by decide)

theorem Chip.caRank_lt {c : Chip} {n ca : Nat} : c.caRank n ca < 2 := by
  unfold Chip.caRank
  split
  · exact Nat.mod_lt _ (by decide)
  · decide

theorem Chip.carafeOf_lt {c : Chip} {p : Nat} : c.carafeOf p < 64 := c.rd_lt _

theorem Chip.fabIdx_le {c : Chip} {s : Nat} : c.fabIdx s ≤ s := by
  unfold Chip.fabIdx
  split
  · exact Nat.mod_le _ _
  · exact Nat.le_refl _

theorem Chip.gclShadow_lt {c : Chip} {p : Nat} : (c.gclShadow p).length < 512 := by
  unfold Chip.gclShadow
  rw [List.length_map, List.length_range]
  exact c.rd_lt _

theorem Chip.rxCheck_lt {c : Chip} {p k : Nat} {f : NetFrame} (h : c.rxCheck p f = some k) : k < 8 := by
  unfold Chip.rxCheck at h
  repeat' split at h
  all_goals first | (cases h; decide) | cases h

theorem Chip.rxQueue_lt {c : Chip} {p : Nat} {f : NetFrame} : (c.rxQueue p f).1 < 3 := by
  unfold Chip.rxQueue
  repeat' split
  all_goals (dsimp only; omega)

/-- The lane registers lie on the page of the fabric block or of the twin block. -/
theorem Chip.ln_pages {P : List Nat} {n o : Nat} (hn : n < 50)
    (ho : o = (lnCfg n).off ∨ o = (lnStat n).off ∨ o = (lnEq n).off ∨ o = (lnEye n).off ∨ o = (lnErr n).off ∨ o = (lnTrain n).off)
    (hp : [48, 112].all P.contains = true) : o / 65536 ∈ P := by
  have h48 : (48 : Nat) ∈ P := by simpa using List.all_eq_true.1 hp 48 (by decide)
  have h112 : (112 : Nat) ∈ P := by simpa using List.all_eq_true.1 hp 112 (by decide)
  have key : o / 65536 = 48 ∨ o / 65536 = 112 := by
    by_cases h : n < 48
    · simp only [lnCfg, lnStat, lnEq, lnEye, lnErr, lnTrain, h, if_true, FAB_LN_CFG, FAB_LN_STAT, FAB_LN_EQ, FAB_LN_EYE, FAB_LN_ERR,
        FAB_LN_TRAIN] at ho
      omega
    · simp only [lnCfg, lnStat, lnEq, lnEye, lnErr, lnTrain, h, if_false, TWN_LN_CFG, TWN_LN_STAT, TWN_LN_EQ, TWN_LN_EYE, TWN_LN_ERR,
        TWN_LN_TRAIN] at ho
      omega
  rcases key with h | h <;> rw [h] <;> assumption

theorem Chip.linkWidth_le (c : Chip) (l : Nat) : c.linkWidth l ≤ 4 := by
  unfold Chip.linkWidth
  have h : c.rd (FAB_LK_CFG_WIDTH l) < 2 ^ 2 := c.rd_lt (FAB_LK_CFG_WIDTH l)
  generalize c.rd (FAB_LK_CFG_WIDTH l) = k at h
  interval_cases k <;> decide

theorem Chip.fabSrc_lt {c : Chip} {i : Nat} (h : i < 208) : 48 + c.fabIdx i < 332 := by
  unfold Chip.fabIdx
  split <;> omega

theorem Chip.linkOf_le {c : Chip} {n l : Nat} (h : c.linkOf n = some l) : l ≤ n := by
  unfold Chip.linkOf at h
  have := List.find?_some h
  simp at this
  omega

/-- A message to the peer. -/
theorem Chip.tell_within {P : List Nat} {T : List Part} {c₀ c : Chip} {mtype : Nat} {body : List Nat} (hw0 : Chip.Within P T c₀ c)
    (hp : [].all P.contains = true) (ht : ([.sent, .twn] : List Part).all T.contains = true) : Chip.Within P T c₀ (c.tell mtype body) := by
  unfold Chip.tell
  split
  · exact hw0
  · refine hw0.trans (Chip.Within.part_only rfl fun k hn => ?_)
    have hs : Part.sent ∈ T := by simpa using List.all_eq_true.1 ht .sent (by decide)
    have hk : Part.twn ∈ T := by simpa using List.all_eq_true.1 ht .twn (by decide)
    cases k <;> first | (exact absurd hs hn) | (exact absurd hk hn) | rfl | exact ⟨[], (List.append_nil _).symm, rfl⟩

end Sys2Proof.Machine
end

