-- ==== Sys2Proof/Laws/WithinPlanes.lean ====
section
/-! SUPPORT. What each operation over sources, power, memory and playback may change: it keeps within the listed pages and parts (Chip.Within), so that a frame of a
command is one lemma of the operations it calls. -/

set_option linter.all false
set_option maxRecDepth 4000

namespace Sys2Proof.Machine


theorem Chip.setSrc_within {P : List Nat} {T : List Part} {c₀ c : Chip} {s : Nat} {x : Src} (hw0 : Chip.Within P T c₀ c)
    (hp : [].all P.contains = true) (ht : ([.srcs] : List Part).all T.contains = true) : Chip.Within P T c₀ (c.setSrc s x) := by
  refine Chip.Within.within hw0 hp ht ?_
  clear hw0 hp ht
  unfold Chip.setSrc
  repeat' (first
    | with_reducible exact Chip.Within.refl
    | dsimp only
    | (fail_if_no_progress (with_reducible apply Chip.Within.to_srcs; (case hk => decide)))
    | assumption
    | omega
    | (simp only [Reg.fld, List.mem_cons, List.not_mem_nil, or_false, or_true, true_or] <;> omega))

theorem Chip.setDst_within {P : List Nat} {T : List Part} {c₀ c : Chip} {d : Nat} {x : Dst} (hw0 : Chip.Within P T c₀ c)
    (hp : [].all P.contains = true) (ht : ([.dsts] : List Part).all T.contains = true) : Chip.Within P T c₀ (c.setDst d x) := by
  refine Chip.Within.within hw0 hp ht ?_
  clear hw0 hp ht
  unfold Chip.setDst
  repeat' (first
    | with_reducible exact Chip.Within.refl
    | dsimp only
    | (fail_if_no_progress (with_reducible apply Chip.Within.to_dsts; (case hk => decide)))
    | assumption
    | omega
    | (simp only [Reg.fld, List.mem_cons, List.not_mem_nil, or_false, or_true, true_or] <;> omega))

theorem Chip.setPlane_within {P : List Nat} {T : List Part} {c₀ c : Chip} {p : Nat} {x : Plane} (hw0 : Chip.Within P T c₀ c)
    (hp : [].all P.contains = true) (ht : ([.planes] : List Part).all T.contains = true) : Chip.Within P T c₀ (c.setPlane p x) := by
  refine Chip.Within.within hw0 hp ht ?_
  clear hw0 hp ht
  unfold Chip.setPlane
  repeat' (first
    | with_reducible exact Chip.Within.refl
    | dsimp only
    | (with_reducible apply Chip.Within.set; (case hr => first | assumption | (simp only [Reg.fld, List.mem_cons, List.not_mem_nil, or_false, or_true, true_or] <;> omega)))
    | (fail_if_no_progress (with_reducible apply Chip.Within.to_planes; (case hk => decide)))
    | assumption
    | omega
    | (simp only [Reg.fld, List.mem_cons, List.not_mem_nil, or_false, or_true, true_or] <;> omega))


theorem Chip.showLoss_within {P : List Nat} {T : List Part} {c₀ c : Chip} {d : Nat} (hb_d : d < 384) (hw0 : Chip.Within P T c₀ c)
    (hp : [8].all P.contains = true) (ht : ([] : List Part).all T.contains = true) : Chip.Within P T c₀ (c.showLoss d) := by
  refine Chip.Within.within hw0 hp ht ?_
  clear hw0 hp ht
  unfold Chip.showLoss
  repeat' (first
    | with_reducible exact Chip.Within.refl
    | dsimp only
    | (with_reducible apply Chip.Within.set; (case hr => first | assumption | (simp only [XPT_DST_STAT, XPT_DST_STAT_ACTION_TAKEN, XPT_DST_STAT_HOLD_UNAVAILABLE, XPT_DST_STAT_SLATE_MISMATCH, XPT_STATUS, XPT_STATUS_HOLD_UNAVAILABLE, XPT_STATUS_SLATE_MISMATCH, Reg.fld, List.mem_cons, List.not_mem_nil, or_false, or_true, true_or] <;> omega)))
    | (with_reducible apply Chip.Within.wr; (case hr => first | assumption | (simp only [XPT_DST_STAT, XPT_DST_STAT_ACTION_TAKEN, XPT_DST_STAT_HOLD_UNAVAILABLE, XPT_DST_STAT_SLATE_MISMATCH, XPT_STATUS, XPT_STATUS_HOLD_UNAVAILABLE, XPT_STATUS_SLATE_MISMATCH, Reg.fld, List.mem_cons, List.not_mem_nil, or_false, or_true, true_or] <;> omega)))
    | with_reducible apply Chip.Within.when'
    | assumption
    | intro y
    | omega
    | split
    | (simp only [XPT_DST_STAT, XPT_DST_STAT_ACTION_TAKEN, XPT_DST_STAT_HOLD_UNAVAILABLE, XPT_DST_STAT_SLATE_MISMATCH, XPT_STATUS, XPT_STATUS_HOLD_UNAVAILABLE, XPT_STATUS_SLATE_MISMATCH, Reg.fld, List.mem_cons, List.not_mem_nil, or_false, or_true, true_or] <;> omega))

theorem Chip.startLoss_within {P : List Nat} {T : List Part} {c₀ c : Chip} {d : Nat} (hb_d : d < 384) (hw0 : Chip.Within P T c₀ c)
    (hp : [1, 8].all P.contains = true) (ht : ([] : List Part).all T.contains = true) : Chip.Within P T c₀ (c.startLoss d) := by
  refine Chip.Within.within hw0 hp ht ?_
  clear hw0 hp ht
  unfold Chip.startLoss
  repeat' (first
    | with_reducible exact Chip.Within.refl
    | dsimp only
    | (with_reducible apply Chip.Within.set; (case hr => first | assumption | (simp only [XPT_DST_STAT, XPT_DST_STAT_LOSS_ACTIVE, XPT_DST_STAT_LOSS_COUNT, XPT_STATUS, XPT_STATUS_LOSS, Reg.fld, List.mem_cons, List.not_mem_nil, or_false, or_true, true_or] <;> omega)))
    | (with_reducible apply Chip.Within.inc; (case hr => first | assumption | (simp only [XPT_DST_STAT, XPT_DST_STAT_LOSS_ACTIVE, XPT_DST_STAT_LOSS_COUNT, XPT_STATUS, XPT_STATUS_LOSS, Reg.fld, List.mem_cons, List.not_mem_nil, or_false, or_true, true_or] <;> omega)))
    | (with_reducible apply Chip.showLoss_within; (case hp => decide); (case ht => decide))
    | (with_reducible apply Chip.Within.post; (case hm => decide))
    | assumption
    | omega
    | split
    | (simp only [XPT_DST_STAT, XPT_DST_STAT_LOSS_ACTIVE, XPT_DST_STAT_LOSS_COUNT, XPT_STATUS, XPT_STATUS_LOSS, Reg.fld, List.mem_cons, List.not_mem_nil, or_false, or_true, true_or] <;> omega))

theorem Chip.flagCause_within {P : List Nat} {T : List Part} {c₀ c : Chip} {s cause : Nat} (hb_s : s < 332) (hw0 : Chip.Within P T c₀ c)
    (hp : [12].all P.contains = true) (ht : ([] : List Part).all T.contains = true) : Chip.Within P T c₀ (c.flagCause s cause) := by
  refine Chip.Within.within hw0 hp ht ?_
  clear hw0 hp ht
  unfold Chip.flagCause
  repeat' (first
    | with_reducible exact Chip.Within.refl
    | dsimp only
    | (with_reducible apply Chip.Within.set; (case hr => first | assumption | (simp only [FSY_SRC_STAT, FSY_SRC_STAT_MISMATCH_SEEN, FSY_STATUS, FSY_STATUS_FORMAT_MISMATCH, FSY_STATUS_OUT_OF_WINDOW, FSY_STATUS_QUAD_FAULT, Reg.fld, List.mem_cons, List.not_mem_nil, or_false, or_true, true_or] <;> omega)))
    | with_reducible apply Chip.Within.when'
    | assumption
    | intro y
    | omega
    | (simp only [FSY_SRC_STAT, FSY_SRC_STAT_MISMATCH_SEEN, FSY_STATUS, FSY_STATUS_FORMAT_MISMATCH, FSY_STATUS_OUT_OF_WINDOW, FSY_STATUS_QUAD_FAULT, Reg.fld, List.mem_cons, List.not_mem_nil, or_false, or_true, true_or] <;> omega))

theorem Chip.flowReceiving_within {P : List Nat} {T : List Part} {c₀ c : Chip} {f : Nat} (hb_f : f < 112) (hw0 : Chip.Within P T c₀ c)
    (hp : [1, 64].all P.contains = true) (ht : ([] : List Part).all T.contains = true) : Chip.Within P T c₀ (c.flowReceiving f) := by
  refine Chip.Within.within hw0 hp ht ?_
  clear hw0 hp ht
  unfold Chip.flowReceiving
  repeat' (first
    | with_reducible exact Chip.Within.refl
    | dsimp only
    | (with_reducible apply Chip.Within.wr; (case hr => first | assumption | (simp only [NET_RXF_STAT, NET_RXF_STAT_STATE, Reg.fld, List.mem_cons, List.not_mem_nil, or_false, or_true, true_or] <;> omega)))
    | (with_reducible apply Chip.Within.post; (case hm => decide))
    | assumption
    | omega
    | (simp only [NET_RXF_STAT, NET_RXF_STAT_STATE, Reg.fld, List.mem_cons, List.not_mem_nil, or_false, or_true, true_or] <;> omega))

theorem Chip.flowLost_within {P : List Nat} {T : List Part} {c₀ c : Chip} {f cause : Nat} (hb_f : f < 112) (hw0 : Chip.Within P T c₀ c)
    (hp : [1, 64].all P.contains = true) (ht : ([] : List Part).all T.contains = true) : Chip.Within P T c₀ (c.flowLost f cause) := by
  refine Chip.Within.within hw0 hp ht ?_
  clear hw0 hp ht
  unfold Chip.flowLost
  have h0 := Chip.flowPort_lt (c.get (NET_RXF_CTL f))
  generalize flowPort (c.get (NET_RXF_CTL f)) = k at h0 ⊢
  repeat' (first
    | with_reducible exact Chip.Within.refl
    | dsimp only
    | (with_reducible apply Chip.Within.set; (case hr => first | assumption | (simp only [NET_FLOW_STATUS, NET_FLOW_STATUS_FLOW_LOST, NET_RXF_CTL, NET_RXF_CTL_JOINED, NET_RXF_STAT, NET_RXF_STAT_STATE, Reg.fld, List.mem_cons, List.not_mem_nil, or_false, or_true, true_or] <;> omega)))
    | (with_reducible apply Chip.Within.wr; (case hr => first | assumption | (simp only [NET_FLOW_STATUS, NET_FLOW_STATUS_FLOW_LOST, NET_RXF_CTL, NET_RXF_CTL_JOINED, NET_RXF_STAT, NET_RXF_STAT_STATE, Reg.fld, List.mem_cons, List.not_mem_nil, or_false, or_true, true_or] <;> omega)))
    | with_reducible apply Chip.Within.when'
    | (with_reducible apply Chip.Within.post; (case hm => decide))
    | assumption
    | intro y
    | omega
    | with_reducible apply Chip.flowPort_lt
    | (simp only [NET_FLOW_STATUS, NET_FLOW_STATUS_FLOW_LOST, NET_RXF_CTL, NET_RXF_CTL_JOINED, NET_RXF_STAT, NET_RXF_STAT_STATE, Reg.fld, List.mem_cons, List.not_mem_nil, or_false, or_true, true_or] <;> omega))

theorem Chip.lossStarts_within {P : List Nat} {T : List Part} {c₀ c : Chip} {s : Nat} (hb_s : s < 332) (hw0 : Chip.Within P T c₀ c)
    (hp : [1, 8].all P.contains = true) (ht : ([] : List Part).all T.contains = true) : Chip.Within P T c₀ (c.lossStarts s) := by
  refine Chip.Within.within hw0 hp ht ?_
  clear hw0 hp ht
  unfold Chip.lossStarts
  repeat' (first
    | with_reducible exact Chip.Within.refl
    | dsimp only
    | (with_reducible apply Chip.startLoss_within; (case hp => decide); (case ht => decide))
    | with_reducible apply Chip.Within.when'
    | with_reducible apply Chip.Within.each
    | assumption
    | (intro y a ha; (try simp only [List.mem_range, List.mem_filter, List.mem_map, List.mem_flatMap, List.mem_cons, List.not_mem_nil, or_false, Bool.and_eq_true, decide_eq_true_eq, beq_iff_eq, Chip.planesOf] at ha); (first | (have hb := Nat.lt_of_lt_of_le ha (Nat.le_refl _)) | (have hb := Chip.mem_groupOf (by first | assumption | omega | (with_reducible apply Chip.leadOf_lt; first | assumption | omega)) ha) | (have hb := Chip.mem_destsOf ha) | (have hb := Chip.mem_routed ha) | (obtain ⟨i, hi, hd⟩ := ha; have hb := Chip.mem_destsOf hd) | (obtain ⟨hi, hj⟩ := ha; have hb : a ≤ 1 := by omega) | (obtain ⟨i, hi, rfl⟩ := ha) | (obtain ⟨hi, hj⟩ := ha; first | (have hb := Chip.mem_destsOf hi) | (have hb := Nat.lt_of_lt_of_le hi (Nat.le_refl _)) | skip) | skip))
    | intro y
    | omega
    | with_reducible apply Chip.leadOf_lt
    | (with_reducible apply Chip.rd_lt_of; simp only [XPT_DST_STAT, XPT_DST_STAT_LOSS_ACTIVE, Reg.fld, List.mem_cons, List.not_mem_nil, or_false, or_true, true_or] <;> decide)
    | split
    | (simp only [XPT_DST_STAT, XPT_DST_STAT_LOSS_ACTIVE, Reg.fld, List.mem_cons, List.not_mem_nil, or_false, or_true, true_or] <;> omega))

theorem Chip.loseSrc_within {P : List Nat} {T : List Part} {c₀ c : Chip} {s0 : Nat} (hb_s0 : s0 < 332) (hw0 : Chip.Within P T c₀ c)
    (hp : [1, 8, 12, 64].all P.contains = true) (ht : ([.srcs] : List Part).all T.contains = true) : Chip.Within P T c₀ (c.loseSrc s0) := by
  refine Chip.Within.within hw0 hp ht ?_
  clear hw0 hp ht
  unfold Chip.loseSrc
  have hl := @Chip.leadOf_lt c s0 hb_s0
  generalize c.leadOf s0 = s at hl ⊢
  repeat' (first
    | with_reducible exact Chip.Within.refl
    | dsimp only
    | (with_reducible apply Chip.Within.wr; (case hr => first | assumption | (simp only [FSY_SRC_BADLINES, FSY_SRC_BADLINES_COUNT, FSY_SRC_STAT, FSY_SRC_STAT_BADLINE_SEEN, FSY_SRC_STAT_CAUSE, FSY_SRC_STAT_INVALID_SEEN, FSY_SRC_STAT_PROMOTED, FSY_SRC_STAT_VALID, FSY_STATUS, FSY_STATUS_INVALID, XPT_DST_STAT, XPT_DST_STAT_SOURCE_LOST, Reg.fld, List.mem_cons, List.not_mem_nil, or_false, or_true, true_or] <;> omega)))
    | (with_reducible apply Chip.Within.set; (case hr => first | assumption | (simp only [FSY_SRC_BADLINES, FSY_SRC_BADLINES_COUNT, FSY_SRC_STAT, FSY_SRC_STAT_BADLINE_SEEN, FSY_SRC_STAT_CAUSE, FSY_SRC_STAT_INVALID_SEEN, FSY_SRC_STAT_PROMOTED, FSY_SRC_STAT_VALID, FSY_STATUS, FSY_STATUS_INVALID, XPT_DST_STAT, XPT_DST_STAT_SOURCE_LOST, Reg.fld, List.mem_cons, List.not_mem_nil, or_false, or_true, true_or] <;> omega)))
    | (with_reducible apply Chip.Within.clr; (case hr => first | assumption | (simp only [FSY_SRC_BADLINES, FSY_SRC_BADLINES_COUNT, FSY_SRC_STAT, FSY_SRC_STAT_BADLINE_SEEN, FSY_SRC_STAT_CAUSE, FSY_SRC_STAT_INVALID_SEEN, FSY_SRC_STAT_PROMOTED, FSY_SRC_STAT_VALID, FSY_STATUS, FSY_STATUS_INVALID, XPT_DST_STAT, XPT_DST_STAT_SOURCE_LOST, Reg.fld, List.mem_cons, List.not_mem_nil, or_false, or_true, true_or] <;> omega)))
    | (with_reducible apply Chip.Within.add; (case hr => first | assumption | (simp only [FSY_SRC_BADLINES, FSY_SRC_BADLINES_COUNT, FSY_SRC_STAT, FSY_SRC_STAT_BADLINE_SEEN, FSY_SRC_STAT_CAUSE, FSY_SRC_STAT_INVALID_SEEN, FSY_SRC_STAT_PROMOTED, FSY_SRC_STAT_VALID, FSY_STATUS, FSY_STATUS_INVALID, XPT_DST_STAT, XPT_DST_STAT_SOURCE_LOST, Reg.fld, List.mem_cons, List.not_mem_nil, or_false, or_true, true_or] <;> omega)))
    | (with_reducible apply Chip.flagCause_within; (case hp => decide); (case ht => decide))
    | (with_reducible apply Chip.flowLost_within; (case hp => decide); (case ht => decide))
    | (with_reducible apply Chip.lossStarts_within; (case hp => decide); (case ht => decide))
    | (with_reducible apply Chip.setSrc_within; (case hp => decide); (case ht => decide))
    | with_reducible apply Chip.Within.when'
    | with_reducible apply Chip.Within.each
    | (with_reducible apply Chip.Within.post; (case hm => decide))
    | assumption
    | (intro y a ha; (try simp only [List.mem_range, List.mem_filter, List.mem_map, List.mem_flatMap, List.mem_cons, List.not_mem_nil, or_false, Bool.and_eq_true, decide_eq_true_eq, beq_iff_eq, Chip.planesOf] at ha); (first | (have hb := Nat.lt_of_lt_of_le ha (Nat.le_refl _)) | (have hb := Chip.mem_groupOf (by first | assumption | omega | (with_reducible apply Chip.leadOf_lt; first | assumption | omega)) ha) | (have hb := Chip.mem_destsOf ha) | (have hb := Chip.mem_routed ha) | (obtain ⟨i, hi, hd⟩ := ha; have hb := Chip.mem_destsOf hd) | (obtain ⟨hi, hj⟩ := ha; have hb : a ≤ 1 := by omega) | (obtain ⟨i, hi, rfl⟩ := ha) | (obtain ⟨hi, hj⟩ := ha; first | (have hb := Chip.mem_destsOf hi) | (have hb := Chip.mem_routed hi) | (have hb := Nat.lt_of_lt_of_le hi (Nat.le_refl _)) | skip) | skip))
    | intro y
    | omega
    | with_reducible apply Chip.leadOf_lt
    | (with_reducible apply Chip.rd_lt_of; simp only [FSY_SRC_BADLINES, FSY_SRC_BADLINES_COUNT, FSY_SRC_STAT, FSY_SRC_STAT_BADLINE_SEEN, FSY_SRC_STAT_CAUSE, FSY_SRC_STAT_INVALID_SEEN, FSY_SRC_STAT_PROMOTED, FSY_SRC_STAT_VALID, FSY_STATUS, FSY_STATUS_INVALID, XPT_DST_STAT, XPT_DST_STAT_SOURCE_LOST, Reg.fld, List.mem_cons, List.not_mem_nil, or_false, or_true, true_or] <;> decide)
    | split
    | (simp only [FSY_SRC_BADLINES, FSY_SRC_BADLINES_COUNT, FSY_SRC_STAT, FSY_SRC_STAT_BADLINE_SEEN, FSY_SRC_STAT_CAUSE, FSY_SRC_STAT_INVALID_SEEN, FSY_SRC_STAT_PROMOTED, FSY_SRC_STAT_VALID, FSY_STATUS, FSY_STATUS_INVALID, XPT_DST_STAT, XPT_DST_STAT_SOURCE_LOST, Reg.fld, List.mem_cons, List.not_mem_nil, or_false, or_true, true_or] <;> omega)
    | (simp only [srcKind] <;> omega)
    | (simp only [srcKind, FSY_SRC_BADLINES, FSY_SRC_BADLINES_COUNT, FSY_SRC_STAT, FSY_SRC_STAT_BADLINE_SEEN, FSY_SRC_STAT_CAUSE, FSY_SRC_STAT_INVALID_SEEN, FSY_SRC_STAT_PROMOTED, FSY_SRC_STAT_VALID, FSY_STATUS, FSY_STATUS_INVALID, XPT_DST_STAT, XPT_DST_STAT_SOURCE_LOST, Reg.fld, List.mem_cons, List.not_mem_nil, or_false, or_true, true_or] <;> omega))

theorem Chip.showDet_within {P : List Nat} {T : List Part} {c₀ c : Chip} {s : Nat} (hb_s : s < 332) (hw0 : Chip.Within P T c₀ c)
    (hp : [12].all P.contains = true) (ht : ([] : List Part).all T.contains = true) : Chip.Within P T c₀ (c.showDet s) := by
  refine Chip.Within.within hw0 hp ht ?_
  clear hw0 hp ht
  unfold Chip.showDet
  repeat' (first
    | with_reducible exact Chip.Within.refl
    | dsimp only
    | (with_reducible apply Chip.Within.wr; (case hr => first | assumption | (simp only [FSY_SRC_STAT, FSY_SRC_STAT_DET_FORMAT, Reg.fld, List.mem_cons, List.not_mem_nil, or_false, or_true, true_or] <;> omega)))
    | assumption
    | omega
    | with_reducible apply Chip.leadOf_lt
    | (with_reducible apply Chip.rd_lt_of; simp only [FSY_SRC_STAT, FSY_SRC_STAT_DET_FORMAT, Reg.fld, List.mem_cons, List.not_mem_nil, or_false, or_true, true_or] <;> decide)
    | split
    | (simp only [FSY_SRC_STAT, FSY_SRC_STAT_DET_FORMAT, Reg.fld, List.mem_cons, List.not_mem_nil, or_false, or_true, true_or] <;> omega))

theorem Chip.judgeSrc_within {P : List Nat} {T : List Part} {c₀ c : Chip} {s0 : Nat} (hb_s0 : s0 < 332) (hw0 : Chip.Within P T c₀ c)
    (hp : [1, 8, 12, 64].all P.contains = true) (ht : ([.srcs] : List Part).all T.contains = true) : Chip.Within P T c₀ (c.judgeSrc s0) := by
  refine Chip.Within.within hw0 hp ht ?_
  clear hw0 hp ht
  unfold Chip.judgeSrc
  repeat' (first
    | with_reducible exact Chip.Within.refl
    | dsimp only
    | (with_reducible apply Chip.Within.wr; (case hr => first | assumption | (simp only [FSY_SRC_STAT, FSY_SRC_STAT_CAUSE, Reg.fld, List.mem_cons, List.not_mem_nil, or_false, or_true, true_or] <;> omega)))
    | (with_reducible apply Chip.flagCause_within; (case hp => decide); (case ht => decide))
    | (with_reducible apply Chip.loseSrc_within; (case hp => decide); (case ht => decide))
    | (with_reducible apply Chip.showDet_within; (case hp => decide); (case ht => decide))
    | with_reducible apply Chip.Within.when'
    | with_reducible apply Chip.Within.each
    | assumption
    | (intro y a ha; (try simp only [List.mem_range, List.mem_filter, List.mem_map, List.mem_flatMap, List.mem_cons, List.not_mem_nil, or_false, Bool.and_eq_true, decide_eq_true_eq, beq_iff_eq, Chip.planesOf] at ha); (first | (have hb := Nat.lt_of_lt_of_le ha (Nat.le_refl _)) | (have hb := Chip.mem_groupOf (by first | assumption | omega | (with_reducible apply Chip.leadOf_lt; first | assumption | omega)) ha) | (have hb := Chip.mem_destsOf ha) | (have hb := Chip.mem_routed ha) | (obtain ⟨i, hi, hd⟩ := ha; have hb := Chip.mem_destsOf hd) | (obtain ⟨hi, hj⟩ := ha; have hb : a ≤ 1 := by omega) | (obtain ⟨i, hi, rfl⟩ := ha) | (obtain ⟨hi, hj⟩ := ha; first | (have hb := Chip.mem_destsOf hi) | (have hb := Nat.lt_of_lt_of_le hi (Nat.le_refl _)) | skip) | skip))
    | intro y
    | omega
    | with_reducible apply Chip.leadOf_lt
    | (with_reducible apply Chip.rd_lt_of; simp only [FSY_SRC_STAT, FSY_SRC_STAT_CAUSE, Reg.fld, List.mem_cons, List.not_mem_nil, or_false, or_true, true_or] <;> decide)
    | split
    | (simp only [FSY_SRC_STAT, FSY_SRC_STAT_CAUSE, Reg.fld, List.mem_cons, List.not_mem_nil, or_false, or_true, true_or] <;> omega))

theorem Chip.diagUe_within {P : List Nat} {T : List Part} {c₀ c : Chip}  (hw0 : Chip.Within P T c₀ c)
    (hp : [112].all P.contains = true) (ht : ([.twn] : List Part).all T.contains = true) : Chip.Within P T c₀ (c.diagUe) := by
  refine Chip.Within.within hw0 hp ht ?_
  clear hw0 hp ht
  unfold Chip.diagUe
  repeat' (first
    | with_reducible exact Chip.Within.refl
    | dsimp only
    | (with_reducible apply Chip.Within.set; (case hr => first | assumption | (simp only [TWN_DIAG, TWN_DIAG_DRAM_UE, Reg.fld, List.mem_cons, List.not_mem_nil, or_false, or_true, true_or] <;> omega)))
    | (fail_if_no_progress (with_reducible apply Chip.Within.to_twn; (case hk => decide)))
    | assumption
    | omega
    | (simp only [TWN_DIAG, TWN_DIAG_DRAM_UE, Reg.fld, List.mem_cons, List.not_mem_nil, or_false, or_true, true_or] <;> omega))


theorem Chip.domStart_within {P : List Nat} {T : List Part} {c₀ c : Chip} {n v : Nat} (hb_n : n < 248) (hw0 : Chip.Within P T c₀ c)
    (hp : [2].all P.contains = true) (ht : ([.pwr] : List Part).all T.contains = true) : Chip.Within P T c₀ (c.domStart n v) := by
  refine Chip.Within.within hw0 hp ht ?_
  clear hw0 hp ht
  unfold Chip.domStart
  repeat' (first
    | with_reducible exact Chip.Within.refl
    | dsimp only
    | (with_reducible apply Chip.Within.set; (case hr => first | assumption | (simp only [PWR_DOM_CTL, PWR_DOM_CTL_BUSY, Reg.fld, List.mem_cons, List.not_mem_nil, or_false, or_true, true_or] <;> omega)))
    | (fail_if_no_progress (with_reducible apply Chip.Within.to_pwr; (case hk => decide)))
    | assumption
    | omega
    | (simp only [PWR_DOM_CTL, PWR_DOM_CTL_BUSY, Reg.fld, List.mem_cons, List.not_mem_nil, or_false, or_true, true_or] <;> omega))

theorem Chip.domEnd_within {P : List Nat} {T : List Part} {c₀ c : Chip} {n : Nat} (hb_n : n < 248) (hw0 : Chip.Within P T c₀ c)
    (hp : [2].all P.contains = true) (ht : ([.pwr] : List Part).all T.contains = true) : Chip.Within P T c₀ (c.domEnd n) := by
  refine Chip.Within.within hw0 hp ht ?_
  clear hw0 hp ht
  unfold Chip.domEnd
  repeat' (first
    | with_reducible exact Chip.Within.refl
    | dsimp only
    | (with_reducible apply Chip.Within.clr; (case hr => first | assumption | (simp only [PWR_DOM_CTL, PWR_DOM_CTL_BUSY, PWR_DOM_CTL_CUR, PWR_DOM_CTL_REQ, Reg.fld, List.mem_cons, List.not_mem_nil, or_false, or_true, true_or] <;> omega)))
    | (with_reducible apply Chip.Within.wr; (case hr => first | assumption | (simp only [PWR_DOM_CTL, PWR_DOM_CTL_BUSY, PWR_DOM_CTL_CUR, PWR_DOM_CTL_REQ, Reg.fld, List.mem_cons, List.not_mem_nil, or_false, or_true, true_or] <;> omega)))
    | (with_reducible apply Chip.domStart_within; (case hp => decide); (case ht => decide))
    | (fail_if_no_progress (with_reducible apply Chip.Within.to_pwr; (case hk => decide)))
    | assumption
    | omega
    | (with_reducible apply Chip.rd_lt_of; simp only [PWR_DOM_CTL, PWR_DOM_CTL_BUSY, PWR_DOM_CTL_CUR, PWR_DOM_CTL_REQ, Reg.fld, List.mem_cons, List.not_mem_nil, or_false, or_true, true_or] <;> decide)
    | split
    | (simp only [PWR_DOM_CTL, PWR_DOM_CTL_BUSY, PWR_DOM_CTL_CUR, PWR_DOM_CTL_REQ, Reg.fld, List.mem_cons, List.not_mem_nil, or_false, or_true, true_or] <;> omega))

theorem Chip.domForce_within {P : List Nat} {T : List Part} {c₀ c : Chip} {n v : Nat} (hb_n : n < 248) (hw0 : Chip.Within P T c₀ c)
    (hp : [2].all P.contains = true) (ht : ([.pwr] : List Part).all T.contains = true) : Chip.Within P T c₀ (c.domForce n v) := by
  refine Chip.Within.within hw0 hp ht ?_
  clear hw0 hp ht
  unfold Chip.domForce
  repeat' (first
    | with_reducible exact Chip.Within.refl
    | dsimp only
    | (with_reducible apply Chip.Within.clr; (case hr => first | assumption | (simp only [PWR_DOM_CTL, PWR_DOM_CTL_BUSY, PWR_DOM_CTL_CUR, PWR_DOM_CTL_REQ, Reg.fld, List.mem_cons, List.not_mem_nil, or_false, or_true, true_or] <;> omega)))
    | (with_reducible apply Chip.Within.wr; (case hr => first | assumption | (simp only [PWR_DOM_CTL, PWR_DOM_CTL_BUSY, PWR_DOM_CTL_CUR, PWR_DOM_CTL_REQ, Reg.fld, List.mem_cons, List.not_mem_nil, or_false, or_true, true_or] <;> omega)))
    | (fail_if_no_progress (with_reducible apply Chip.Within.to_pwr; (case hk => decide)))
    | assumption
    | omega
    | (simp only [PWR_DOM_CTL, PWR_DOM_CTL_BUSY, PWR_DOM_CTL_CUR, PWR_DOM_CTL_REQ, Reg.fld, List.mem_cons, List.not_mem_nil, or_false, or_true, true_or] <;> omega))

theorem Chip.monWrite_within {P : List Nat} {T : List Part} {c₀ c : Chip} {m v : Nat} (hb_m : m < 8) (hw0 : Chip.Within P T c₀ c)
    (hp : [2].all P.contains = true) (ht : ([] : List Part).all T.contains = true) : Chip.Within P T c₀ (c.monWrite m v) := by
  refine Chip.Within.within hw0 hp ht ?_
  clear hw0 hp ht
  unfold Chip.monWrite
  repeat' (first
    | with_reducible exact Chip.Within.refl
    | dsimp only
    | (with_reducible apply Chip.Within.set; (case hr => first | assumption | (simp only [PWR_AVS_TARGET, PWR_AVS_TARGET_STEP, PWR_MON_CFG, PWR_STATUS, PWR_STATUS_MON_CFG_REJECT, Reg.fld, List.mem_cons, List.not_mem_nil, or_false, or_true, true_or] <;> omega)))
    | (with_reducible apply Chip.Within.put; (case hr => first | assumption | (simp only [PWR_AVS_TARGET, PWR_AVS_TARGET_STEP, PWR_MON_CFG, PWR_STATUS, PWR_STATUS_MON_CFG_REJECT, Reg.fld, List.mem_cons, List.not_mem_nil, or_false, or_true, true_or] <;> omega)))
    | assumption
    | omega
    | (with_reducible apply Chip.rd_lt_of; simp only [PWR_AVS_TARGET, PWR_AVS_TARGET_STEP, PWR_MON_CFG, PWR_STATUS, PWR_STATUS_MON_CFG_REJECT, Reg.fld, List.mem_cons, List.not_mem_nil, or_false, or_true, true_or] <;> decide)
    | split
    | (simp only [PWR_AVS_TARGET, PWR_AVS_TARGET_STEP, PWR_MON_CFG, PWR_STATUS, PWR_STATUS_MON_CFG_REJECT, Reg.fld, List.mem_cons, List.not_mem_nil, or_false, or_true, true_or] <;> omega))

theorem Chip.railWarn_within {P : List Nat} {T : List Part} {c₀ c : Chip} {m : Nat} (hw0 : Chip.Within P T c₀ c)
    (hp : [2].all P.contains = true) (ht : ([] : List Part).all T.contains = true) : Chip.Within P T c₀ (c.railWarn m) := by
  refine Chip.Within.within hw0 hp ht ?_
  clear hw0 hp ht
  unfold Chip.railWarn
  repeat' (first
    | with_reducible exact Chip.Within.refl
    | dsimp only
    | (with_reducible apply Chip.Within.set; (case hr => first | assumption | (simp only [PWR_BOD_EVENTS, PWR_BOD_EVENTS_COUNT, PWR_RAIL_HIST, PWR_RAIL_HIST_WARN_SEEN, PWR_STATUS, PWR_STATUS_BOD_WARN, PWR_STATUS_MRAM_HOLD, PWR_STATUS_RAIL_BELOW_WARN, Reg.fld, List.mem_cons, List.not_mem_nil, or_false, or_true, true_or] <;> omega)))
    | (with_reducible apply Chip.Within.inc; (case hr => first | assumption | (simp only [PWR_BOD_EVENTS, PWR_BOD_EVENTS_COUNT, PWR_RAIL_HIST, PWR_RAIL_HIST_WARN_SEEN, PWR_STATUS, PWR_STATUS_BOD_WARN, PWR_STATUS_MRAM_HOLD, PWR_STATUS_RAIL_BELOW_WARN, Reg.fld, List.mem_cons, List.not_mem_nil, or_false, or_true, true_or] <;> omega)))
    | (with_reducible apply Chip.Within.setBit; (case hr => first | assumption | (simp only [PWR_BOD_EVENTS, PWR_BOD_EVENTS_COUNT, PWR_RAIL_HIST, PWR_RAIL_HIST_WARN_SEEN, PWR_STATUS, PWR_STATUS_BOD_WARN, PWR_STATUS_MRAM_HOLD, PWR_STATUS_RAIL_BELOW_WARN, Reg.fld, List.mem_cons, List.not_mem_nil, or_false, or_true, true_or] <;> omega)))
    | with_reducible apply Chip.Within.when'
    | assumption
    | intro y
    | omega
    | with_reducible apply Chip.leadOf_lt
    | (with_reducible apply Chip.rd_lt_of; simp only [PWR_BOD_EVENTS, PWR_BOD_EVENTS_COUNT, PWR_RAIL_HIST, PWR_RAIL_HIST_WARN_SEEN, PWR_STATUS, PWR_STATUS_BOD_WARN, PWR_STATUS_MRAM_HOLD, PWR_STATUS_RAIL_BELOW_WARN, Reg.fld, List.mem_cons, List.not_mem_nil, or_false, or_true, true_or] <;> decide)
    | split
    | (simp only [PWR_BOD_EVENTS, PWR_BOD_EVENTS_COUNT, PWR_RAIL_HIST, PWR_RAIL_HIST_WARN_SEEN, PWR_STATUS, PWR_STATUS_BOD_WARN, PWR_STATUS_MRAM_HOLD, PWR_STATUS_RAIL_BELOW_WARN, Reg.fld, List.mem_cons, List.not_mem_nil, or_false, or_true, true_or] <;> omega))

theorem Chip.railBelow_within {P : List Nat} {T : List Part} {c₀ c : Chip} {m : Nat} (hb_m : m < 8) (hw0 : Chip.Within P T c₀ c)
    (hp : [1, 2].all P.contains = true) (ht : ([] : List Part).all T.contains = true) : Chip.Within P T c₀ (c.railBelow m) := by
  refine Chip.Within.within hw0 hp ht ?_
  clear hw0 hp ht
  unfold Chip.railBelow
  repeat' (first
    | with_reducible exact Chip.Within.refl
    | dsimp only
    | (with_reducible apply Chip.railWarn_within; (case hp => decide); (case ht => decide))
    | (with_reducible apply Chip.Within.post; (case hm => decide))
    | assumption
    | omega
    | with_reducible apply Chip.leadOf_lt
    | (with_reducible apply Chip.rd_lt_of; simp only [PWR_BOD_EVENTS, PWR_BOD_EVENTS_COUNT, PWR_STATUS, PWR_STATUS_RAIL_BELOW_WARN, Reg.fld, List.mem_cons, List.not_mem_nil, or_false, or_true, true_or] <;> decide)
    | split
    | (simp only [PWR_BOD_EVENTS, PWR_BOD_EVENTS_COUNT, PWR_STATUS, PWR_STATUS_RAIL_BELOW_WARN, Reg.fld, List.mem_cons, List.not_mem_nil, or_false, or_true, true_or] <;> omega))

theorem Chip.therm_within {P : List Nat} {T : List Part} {c₀ c : Chip} {temp : Int} (hw0 : Chip.Within P T c₀ c)
    (hp : [2].all P.contains = true) (ht : ([.pwr] : List Part).all T.contains = true) : Chip.Within P T c₀ (c.therm temp) := by
  refine Chip.Within.within hw0 hp ht ?_
  clear hw0 hp ht
  unfold Chip.therm
  repeat' (first
    | with_reducible exact Chip.Within.refl
    | dsimp only
    | (with_reducible apply Chip.Within.set; (case hr => first | assumption | (simp only [PWR_STATUS, PWR_STATUS_THERM_CRIT, PWR_STATUS_THERM_WARN, PWR_TEMP, PWR_TEMP_TEMP, PWR_THERM_CRIT_LEVEL, PWR_THERM_CRIT_LEVEL_LEVEL, PWR_THERM_WARN_LEVEL, PWR_THERM_WARN_LEVEL_LEVEL, Reg.fld, List.mem_cons, List.not_mem_nil, or_false, or_true, true_or] <;> omega)))
    | (with_reducible apply Chip.Within.wrI; (case hr => first | assumption | (simp only [PWR_STATUS, PWR_STATUS_THERM_CRIT, PWR_STATUS_THERM_WARN, PWR_TEMP, PWR_TEMP_TEMP, PWR_THERM_CRIT_LEVEL, PWR_THERM_CRIT_LEVEL_LEVEL, PWR_THERM_WARN_LEVEL, PWR_THERM_WARN_LEVEL_LEVEL, Reg.fld, List.mem_cons, List.not_mem_nil, or_false, or_true, true_or] <;> omega)))
    | (fail_if_no_progress (with_reducible apply Chip.Within.to_pwr; (case hk => decide)))
    | with_reducible apply Chip.Within.when'
    | assumption
    | intro y
    | omega
    | (with_reducible apply Chip.rd_lt_of; simp only [PWR_STATUS, PWR_STATUS_THERM_CRIT, PWR_STATUS_THERM_WARN, PWR_TEMP, PWR_TEMP_TEMP, PWR_THERM_CRIT_LEVEL, PWR_THERM_CRIT_LEVEL_LEVEL, PWR_THERM_WARN_LEVEL, PWR_THERM_WARN_LEVEL_LEVEL, Reg.fld, List.mem_cons, List.not_mem_nil, or_false, or_true, true_or] <;> decide)
    | split
    | (simp only [PWR_STATUS, PWR_STATUS_THERM_CRIT, PWR_STATUS_THERM_WARN, PWR_TEMP, PWR_TEMP_TEMP, PWR_THERM_CRIT_LEVEL, PWR_THERM_CRIT_LEVEL_LEVEL, PWR_THERM_WARN_LEVEL, PWR_THERM_WARN_LEVEL_LEVEL, Reg.fld, List.mem_cons, List.not_mem_nil, or_false, or_true, true_or] <;> omega))


theorem Chip.detect_within {P : List Nat} {T : List Part} {c₀ c : Chip} {s : Nat} {f : FrameIn} (hb_s : s < 332) (hw0 : Chip.Within P T c₀ c)
    (hp : [12].all P.contains = true) (ht : ([.srcs] : List Part).all T.contains = true) : Chip.Within P T c₀ (c.detect s f) := by
  refine Chip.Within.within hw0 hp ht ?_
  clear hw0 hp ht
  unfold Chip.detect
  repeat' (first
    | with_reducible exact Chip.Within.refl
    | dsimp only
    | (with_reducible apply Chip.Within.wr; (case hr => first | assumption | (simp only [FSY_SRC_STAT, FSY_SRC_STAT_DET_FORMAT, FSY_SRC_STAT_PID_DISAGREE, FSY_STATUS, FSY_STATUS_PID_DISAGREE, Reg.fld, List.mem_cons, List.not_mem_nil, or_false, or_true, true_or] <;> omega)))
    | (with_reducible apply Chip.Within.set; (case hr => first | assumption | (simp only [FSY_SRC_STAT, FSY_SRC_STAT_DET_FORMAT, FSY_SRC_STAT_PID_DISAGREE, FSY_STATUS, FSY_STATUS_PID_DISAGREE, Reg.fld, List.mem_cons, List.not_mem_nil, or_false, or_true, true_or] <;> omega)))
    | (with_reducible apply Chip.setSrc_within; (case hp => decide); (case ht => decide))
    | (intro y; have hl := @Chip.leadOf_lt y s hb_s; generalize y.leadOf s = l at hl ⊢)
    | with_reducible apply Chip.Within.when'
    | assumption
    | intro y
    | omega
    | with_reducible apply Chip.leadOf_lt
    | (with_reducible apply Chip.rd_lt_of; simp only [FSY_SRC_STAT, FSY_SRC_STAT_DET_FORMAT, FSY_SRC_STAT_PID_DISAGREE, FSY_STATUS, FSY_STATUS_PID_DISAGREE, Reg.fld, List.mem_cons, List.not_mem_nil, or_false, or_true, true_or] <;> decide)
    | split
    | (simp only [FSY_SRC_STAT, FSY_SRC_STAT_DET_FORMAT, FSY_SRC_STAT_PID_DISAGREE, FSY_STATUS, FSY_STATUS_PID_DISAGREE, Reg.fld, List.mem_cons, List.not_mem_nil, or_false, or_true, true_or] <;> omega))

theorem Chip.measure_within {P : List Nat} {T : List Part} {c₀ c : Chip} {s : Nat} {o : Int} (hb_s : s < 332) (hw0 : Chip.Within P T c₀ c)
    (hp : [12].all P.contains = true) (ht : ([] : List Part).all T.contains = true) : Chip.Within P T c₀ (c.measure s o) := by
  refine Chip.Within.within hw0 hp ht ?_
  clear hw0 hp ht
  unfold Chip.measure
  repeat' (first
    | with_reducible exact Chip.Within.refl
    | dsimp only
    | (with_reducible apply Chip.Within.wrB; (case hr => first | assumption | (simp only [FSY_SRC_OFFSET, FSY_SRC_OFFSET_OFFSET, FSY_SRC_STAT, FSY_SRC_STAT_IN_WINDOW, Reg.fld, List.mem_cons, List.not_mem_nil, or_false, or_true, true_or] <;> omega)))
    | (with_reducible apply Chip.Within.wrI; (case hr => first | assumption | (simp only [FSY_SRC_OFFSET, FSY_SRC_OFFSET_OFFSET, FSY_SRC_STAT, FSY_SRC_STAT_IN_WINDOW, Reg.fld, List.mem_cons, List.not_mem_nil, or_false, or_true, true_or] <;> omega)))
    | assumption
    | omega
    | (simp only [FSY_SRC_OFFSET, FSY_SRC_OFFSET_OFFSET, FSY_SRC_STAT, FSY_SRC_STAT_IN_WINDOW, Reg.fld, List.mem_cons, List.not_mem_nil, or_false, or_true, true_or] <;> omega))

theorem Chip.groupFrame_within {P : List Nat} {T : List Part} {c₀ c : Chip} {s : Nat} {lastBad : Bool} (hb_s : s < 332) (hw0 : Chip.Within P T c₀ c)
    (hp : [1, 8, 12, 64].all P.contains = true) (ht : ([.srcs] : List Part).all T.contains = true) : Chip.Within P T c₀ (c.groupFrame s lastBad) := by
  refine Chip.Within.within hw0 hp ht ?_
  clear hw0 hp ht
  unfold Chip.groupFrame
  repeat' (first
    | with_reducible exact Chip.Within.refl
    | dsimp only
    | (with_reducible apply Chip.judgeSrc_within; (case hp => decide); (case ht => decide))
    | (with_reducible apply Chip.measure_within; (case hp => decide); (case ht => decide))
    | (with_reducible apply Chip.setSrc_within; (case hp => decide); (case ht => decide))
    | with_reducible apply Chip.Within.when'
    | with_reducible apply Chip.Within.each
    | assumption
    | (intro y a ha; (try simp only [List.mem_range, List.mem_filter, List.mem_map, List.mem_flatMap, List.mem_cons, List.not_mem_nil, or_false, Bool.and_eq_true, decide_eq_true_eq, beq_iff_eq, Chip.planesOf] at ha); (first | (have hb := Nat.lt_of_lt_of_le ha (Nat.le_refl _)) | (have hb := Chip.mem_groupOf (by first | assumption | omega | (with_reducible apply Chip.leadOf_lt; first | assumption | omega)) ha) | (have hb := Chip.mem_destsOf ha) | (have hb := Chip.mem_routed ha) | (obtain ⟨i, hi, hd⟩ := ha; have hb := Chip.mem_destsOf hd) | (obtain ⟨hi, hj⟩ := ha; have hb : a ≤ 1 := by omega) | (obtain ⟨i, hi, rfl⟩ := ha) | (obtain ⟨hi, hj⟩ := ha; first | (have hb := Chip.mem_destsOf hi) | (have hb := Nat.lt_of_lt_of_le hi (Nat.le_refl _)) | skip) | skip))
    | intro y
    | omega
    | with_reducible apply Chip.leadOf_lt
    | (with_reducible apply Chip.rd_lt_of; simp only [FSY_SRC_CTL, FSY_SRC_CTL_ALLOW_FS, FSY_SRC_STAT, FSY_SRC_STAT_IN_WINDOW, FSY_SRC_STAT_PROMOTED, Reg.fld, List.mem_cons, List.not_mem_nil, or_false, or_true, true_or] <;> decide)
    | split
    | (simp only [FSY_SRC_CTL, FSY_SRC_CTL_ALLOW_FS, FSY_SRC_STAT, FSY_SRC_STAT_IN_WINDOW, FSY_SRC_STAT_PROMOTED, Reg.fld, List.mem_cons, List.not_mem_nil, or_false, or_true, true_or] <;> omega))

theorem Chip.laneFrame_within {P : List Nat} {T : List Part} {c₀ c : Chip} {s : Nat} {f : FrameIn} (hb_s : s < 332) (hw0 : Chip.Within P T c₀ c)
    (hp : [12].all P.contains = true) (ht : ([.srcs] : List Part).all T.contains = true) : Chip.Within P T c₀ (c.laneFrame s f) := by
  refine Chip.Within.within hw0 hp ht ?_
  clear hw0 hp ht
  unfold Chip.laneFrame
  repeat' (first
    | with_reducible exact Chip.Within.refl
    | dsimp only
    | (with_reducible apply Chip.detect_within; (case hp => decide); (case ht => decide))
    | (with_reducible apply Chip.measure_within; (case hp => decide); (case ht => decide))
    | (with_reducible apply Chip.setSrc_within; (case hp => decide); (case ht => decide))
    | assumption
    | omega
    | with_reducible apply Chip.leadOf_lt
    | (with_reducible apply Chip.rd_lt_of; simp only [Reg.fld, List.mem_cons, List.not_mem_nil, or_false, or_true, true_or] <;> decide)
    | split
    | (simp only [Reg.fld, List.mem_cons, List.not_mem_nil, or_false, or_true, true_or] <;> omega))

theorem Chip.frameArrives_within {P : List Nat} {T : List Part} {c₀ c : Chip} {s : Nat} {f : FrameIn} (hb_s : s < 332) (hw0 : Chip.Within P T c₀ c)
    (hp : [1, 8, 12, 32, 64].all P.contains = true) (ht : ([.srcs] : List Part).all T.contains = true) : Chip.Within P T c₀ (c.frameArrives s f) := by
  refine Chip.Within.within hw0 hp ht ?_
  clear hw0 hp ht
  unfold Chip.frameArrives
  repeat' (first
    | with_reducible exact Chip.Within.refl
    | dsimp only
    | (with_reducible apply Chip.Within.wrB; (case hr => first | assumption | (simp only [SDI_RX_STAT, SDI_RX_STAT_LEVEL_B, SDI_RX_STAT_RATE, SDI_RX_STAT_STATE, Reg.fld, List.mem_cons, List.not_mem_nil, or_false, or_true, true_or] <;> omega)))
    | (with_reducible apply Chip.groupFrame_within; (case hp => decide); (case ht => decide))
    | (with_reducible apply Chip.judgeSrc_within; (case hp => decide); (case ht => decide))
    | (with_reducible apply Chip.laneFrame_within; (case hp => decide); (case ht => decide))
    | with_reducible apply Chip.Within.when'
    | assumption
    | intro y
    | omega
    | with_reducible apply Chip.leadOf_lt
    | (with_reducible apply Chip.rd_lt_of; simp only [SDI_RX_STAT, SDI_RX_STAT_LEVEL_B, SDI_RX_STAT_RATE, SDI_RX_STAT_STATE, Reg.fld, List.mem_cons, List.not_mem_nil, or_false, or_true, true_or] <;> decide)
    | split
    | (simp only [SDI_RX_STAT, SDI_RX_STAT_LEVEL_B, SDI_RX_STAT_RATE, SDI_RX_STAT_STATE, Reg.fld, List.mem_cons, List.not_mem_nil, or_false, or_true, true_or] <;> omega))

theorem Chip.demote_within {P : List Nat} {T : List Part} {c₀ c : Chip} {s : Nat} (hb_s : s < 332) (hw0 : Chip.Within P T c₀ c)
    (hp : [1, 12].all P.contains = true) (ht : ([.srcs] : List Part).all T.contains = true) : Chip.Within P T c₀ (c.demote s) := by
  refine Chip.Within.within hw0 hp ht ?_
  clear hw0 hp ht
  unfold Chip.demote
  repeat' (first
    | with_reducible exact Chip.Within.refl
    | dsimp only
    | (with_reducible apply Chip.Within.clr; (case hr => first | assumption | (simp only [FSY_SRC_STAT, FSY_SRC_STAT_PROMOTED, Reg.fld, List.mem_cons, List.not_mem_nil, or_false, or_true, true_or] <;> omega)))
    | (with_reducible apply Chip.setSrc_within; (case hp => decide); (case ht => decide))
    | (with_reducible apply Chip.Within.post; (case hm => decide))
    | assumption
    | omega
    | split
    | (simp only [FSY_SRC_STAT, FSY_SRC_STAT_PROMOTED, Reg.fld, List.mem_cons, List.not_mem_nil, or_false, or_true, true_or] <;> omega))

theorem Chip.badLine_within {P : List Nat} {T : List Part} {c₀ c : Chip} {s0 : Nat} {run : Bool} (hb_s0 : s0 < 332) (hw0 : Chip.Within P T c₀ c)
    (hp : [1, 8, 12, 64].all P.contains = true) (ht : ([.srcs] : List Part).all T.contains = true) : Chip.Within P T c₀ (c.badLine s0 run) := by
  refine Chip.Within.within hw0 hp ht ?_
  clear hw0 hp ht
  unfold Chip.badLine
  have hl := @Chip.leadOf_lt c s0 hb_s0
  generalize c.leadOf s0 = s at hl ⊢
  repeat' (first
    | with_reducible exact Chip.Within.refl
    | dsimp only
    | (with_reducible apply Chip.Within.set; (case hr => first | assumption | (simp only [FSY_SRC_BADLINES, FSY_SRC_BADLINES_COUNT, FSY_SRC_STAT, FSY_SRC_STAT_BADLINE_SEEN, Reg.fld, List.mem_cons, List.not_mem_nil, or_false, or_true, true_or] <;> omega)))
    | (with_reducible apply Chip.Within.inc; (case hr => first | assumption | (simp only [FSY_SRC_BADLINES, FSY_SRC_BADLINES_COUNT, FSY_SRC_STAT, FSY_SRC_STAT_BADLINE_SEEN, Reg.fld, List.mem_cons, List.not_mem_nil, or_false, or_true, true_or] <;> omega)))
    | (with_reducible apply Chip.judgeSrc_within; (case hp => decide); (case ht => decide))
    | (with_reducible apply Chip.setSrc_within; (case hp => decide); (case ht => decide))
    | assumption
    | omega
    | with_reducible apply Chip.leadOf_lt
    | split
    | (simp only [FSY_SRC_BADLINES, FSY_SRC_BADLINES_COUNT, FSY_SRC_STAT, FSY_SRC_STAT_BADLINE_SEEN, Reg.fld, List.mem_cons, List.not_mem_nil, or_false, or_true, true_or] <;> omega))

theorem Chip.sourceInvalid_within {P : List Nat} {T : List Part} {c₀ c : Chip} {s0 : Nat} (hb_s0 : s0 < 332) (hw0 : Chip.Within P T c₀ c)
    (hp : [1, 8, 12, 64].all P.contains = true) (ht : ([.srcs] : List Part).all T.contains = true) : Chip.Within P T c₀ (c.sourceInvalid s0) := by
  refine Chip.Within.within hw0 hp ht ?_
  clear hw0 hp ht
  unfold Chip.sourceInvalid
  have hl := @Chip.leadOf_lt c s0 hb_s0
  generalize c.leadOf s0 = s at hl ⊢
  repeat' (first
    | with_reducible exact Chip.Within.refl
    | dsimp only
    | (with_reducible apply Chip.Within.wr; (case hr => first | assumption | (simp only [FSY_SRC_STAT, FSY_SRC_STAT_DET_FORMAT, Reg.fld, List.mem_cons, List.not_mem_nil, or_false, or_true, true_or] <;> omega)))
    | (with_reducible apply Chip.judgeSrc_within; (case hp => decide); (case ht => decide))
    | (with_reducible apply Chip.setSrc_within; (case hp => decide); (case ht => decide))
    | assumption
    | omega
    | with_reducible apply Chip.leadOf_lt
    | split
    | (simp only [FSY_SRC_STAT, FSY_SRC_STAT_DET_FORMAT, Reg.fld, List.mem_cons, List.not_mem_nil, or_false, or_true, true_or] <;> omega))


theorem Chip.setDmcCh_within {P : List Nat} {T : List Part} {c₀ c : Chip} {n : Nat} {x : DmcCh} (hw0 : Chip.Within P T c₀ c)
    (hp : [].all P.contains = true) (ht : ([.dmc] : List Part).all T.contains = true) : Chip.Within P T c₀ (c.setDmcCh n x) := by
  refine Chip.Within.within hw0 hp ht ?_
  clear hw0 hp ht
  unfold Chip.setDmcCh
  repeat' (first
    | with_reducible exact Chip.Within.refl
    | dsimp only
    | (fail_if_no_progress (with_reducible apply Chip.Within.to_dmc; (case hk => decide)))
    | assumption
    | omega
    | (simp only [Reg.fld, List.mem_cons, List.not_mem_nil, or_false, or_true, true_or] <;> omega))

theorem Chip.dmcRefresh_within {P : List Nat} {T : List Part} {c₀ c : Chip} (hw0 : Chip.Within P T c₀ c)
    (hp : [20].all P.contains = true) (ht : ([.dmc] : List Part).all T.contains = true) : Chip.Within P T c₀ (c.dmcRefresh) := by
  refine Chip.Within.within hw0 hp ht ?_
  clear hw0 hp ht
  unfold Chip.dmcRefresh
  repeat' (first
    | with_reducible exact Chip.Within.refl
    | dsimp only
    | (with_reducible apply Chip.Within.wr; (case hr => first | assumption | (simp only [DMC_LAYOUT, DMC_LAYOUT_ENABLED, DMC_LAYOUT_S_GIB, DMC_LAYOUT_USABLE, DMC_STATUS, DMC_STATUS_DRAM_DOWN, Reg.fld, List.mem_cons, List.not_mem_nil, or_false, or_true, true_or] <;> omega)))
    | (with_reducible apply Chip.Within.wrB; (case hr => first | assumption | (simp only [DMC_LAYOUT, DMC_LAYOUT_ENABLED, DMC_LAYOUT_S_GIB, DMC_LAYOUT_USABLE, DMC_STATUS, DMC_STATUS_DRAM_DOWN, Reg.fld, List.mem_cons, List.not_mem_nil, or_false, or_true, true_or] <;> omega)))
    | (fail_if_no_progress (with_reducible apply Chip.Within.to_dmc; (case hk => decide)))
    | assumption
    | omega
    | with_reducible apply Chip.leadOf_lt
    | (with_reducible apply Chip.rd_lt_of; simp only [DMC_LAYOUT, DMC_LAYOUT_ENABLED, DMC_LAYOUT_S_GIB, DMC_LAYOUT_USABLE, DMC_STATUS, DMC_STATUS_DRAM_DOWN, Reg.fld, List.mem_cons, List.not_mem_nil, or_false, or_true, true_or] <;> decide)
    | split
    | (simp only [DMC_LAYOUT, DMC_LAYOUT_ENABLED, DMC_LAYOUT_S_GIB, DMC_LAYOUT_USABLE, DMC_STATUS, DMC_STATUS_DRAM_DOWN, Reg.fld, List.mem_cons, List.not_mem_nil, or_false, or_true, true_or] <;> omega))

theorem Chip.chEnter_within {P : List Nat} {T : List Part} {c₀ c : Chip} {n st cause : Nat} (hb_n : n < 8) (hw0 : Chip.Within P T c₀ c)
    (hp : [20].all P.contains = true) (ht : ([.dmc] : List Part).all T.contains = true) : Chip.Within P T c₀ (c.chEnter n st cause) := by
  refine Chip.Within.within hw0 hp ht ?_
  clear hw0 hp ht
  unfold Chip.chEnter
  repeat' (first
    | with_reducible exact Chip.Within.refl
    | dsimp only
    | (with_reducible apply Chip.Within.wr; (case hr => first | assumption | (simp only [DMC_CH_STAT, DMC_CH_STAT_CAUSE, DMC_CH_STAT_STATE, Reg.fld, List.mem_cons, List.not_mem_nil, or_false, or_true, true_or] <;> omega)))
    | (with_reducible apply Chip.dmcRefresh_within; (case hp => decide); (case ht => decide))
    | assumption
    | omega
    | with_reducible apply Chip.leadOf_lt
    | (with_reducible apply Chip.rd_lt_of; simp only [DMC_CH_STAT, DMC_CH_STAT_CAUSE, DMC_CH_STAT_STATE, Reg.fld, List.mem_cons, List.not_mem_nil, or_false, or_true, true_or] <;> decide)
    | split
    | (simp only [DMC_CH_STAT, DMC_CH_STAT_CAUSE, DMC_CH_STAT_STATE, Reg.fld, List.mem_cons, List.not_mem_nil, or_false, or_true, true_or] <;> omega))

theorem Chip.spdRead_within {P : List Nat} {T : List Part} {c₀ c : Chip} {n : Nat} {dimm : Option Dimm} (hb_n : n < 8) (hw0 : Chip.Within P T c₀ c)
    (hp : [2, 20].all P.contains = true) (ht : ([.dmc, .pwr] : List Part).all T.contains = true) : Chip.Within P T c₀ (c.spdRead n dimm) := by
  refine Chip.Within.within hw0 hp ht ?_
  clear hw0 hp ht
  unfold Chip.spdRead
  repeat' (first
    | with_reducible exact Chip.Within.refl
    | dsimp only
    | (with_reducible apply Chip.Within.wr; (case hr => first | assumption | (simp only [DMC_CH_DIMM, DMC_CH_DIMM_DENSITY, DMC_CH_DIMM_RANKS, DMC_CH_DIMM_SIZE_GIB, DMC_CH_STAT, DMC_CH_STAT_CAUSE, Reg.fld, List.mem_cons, List.not_mem_nil, or_false, or_true, true_or] <;> omega)))
    | (with_reducible apply Chip.Within.wrB; (case hr => first | assumption | (simp only [DMC_CH_DIMM, DMC_CH_DIMM_DENSITY, DMC_CH_DIMM_RANKS, DMC_CH_DIMM_SIZE_GIB, DMC_CH_STAT, DMC_CH_STAT_CAUSE, Reg.fld, List.mem_cons, List.not_mem_nil, or_false, or_true, true_or] <;> omega)))
    | (with_reducible apply Chip.Within.put; (case hr => first | assumption | (simp only [DMC_CH_DIMM, DMC_CH_DIMM_DENSITY, DMC_CH_DIMM_RANKS, DMC_CH_DIMM_SIZE_GIB, DMC_CH_STAT, DMC_CH_STAT_CAUSE, Reg.fld, List.mem_cons, List.not_mem_nil, or_false, or_true, true_or] <;> omega)))
    | (with_reducible apply Chip.chEnter_within; (case hp => decide); (case ht => decide))
    | (with_reducible apply Chip.dmcRefresh_within; (case hp => decide); (case ht => decide))
    | (with_reducible apply Chip.domForce_within; (case hp => decide); (case ht => decide))
    | assumption
    | omega
    | with_reducible apply Chip.leadOf_lt
    | (with_reducible apply Chip.rd_lt_of; simp only [DMC_CH_DIMM, DMC_CH_DIMM_DENSITY, DMC_CH_DIMM_RANKS, DMC_CH_DIMM_SIZE_GIB, DMC_CH_STAT, DMC_CH_STAT_CAUSE, Reg.fld, List.mem_cons, List.not_mem_nil, or_false, or_true, true_or] <;> decide)
    | split
    | (simp only [DMC_CH_DIMM, DMC_CH_DIMM_DENSITY, DMC_CH_DIMM_RANKS, DMC_CH_DIMM_SIZE_GIB, DMC_CH_STAT, DMC_CH_STAT_CAUSE, Reg.fld, List.mem_cons, List.not_mem_nil, or_false, or_true, true_or] <;> omega)
    | (simp only [chAbsent, chDisabled, chTraining, domMem, stOff] <;> omega)
    | (simp only [chAbsent, chDisabled, chTraining, domMem, stOff, DMC_CH_DIMM, DMC_CH_DIMM_DENSITY, DMC_CH_DIMM_RANKS, DMC_CH_DIMM_SIZE_GIB, DMC_CH_STAT, DMC_CH_STAT_CAUSE, Reg.fld, List.mem_cons, List.not_mem_nil, or_false, or_true, true_or] <;> omega))

theorem Chip.trainPass_within {P : List Nat} {T : List Part} {c₀ c : Chip} {n : Nat} {rd wr : List Nat} (hb_n : n < 8) (hw0 : Chip.Within P T c₀ c)
    (hp : [1, 2, 20].all P.contains = true) (ht : ([.dmc, .mem, .pwr] : List Part).all T.contains = true) : Chip.Within P T c₀ (c.trainPass n rd wr) := by
  refine Chip.Within.within hw0 hp ht ?_
  clear hw0 hp ht
  unfold Chip.trainPass
  repeat' (first
    | with_reducible exact Chip.Within.refl
    | dsimp only
    | (with_reducible apply Chip.Within.wr; (case hr => first | assumption | (simp only [DMC_DEV_DEGRADED, DMC_RD_DLY, DMC_WR_DLY, PWR_DOM_CTL, PWR_DOM_CTL_BUSY, Reg.fld, List.mem_cons, List.not_mem_nil, or_false, or_true, true_or] <;> omega)))
    | (with_reducible apply Chip.Within.put; (case hr => first | assumption | (simp only [DMC_DEV_DEGRADED, DMC_RD_DLY, DMC_WR_DLY, PWR_DOM_CTL, PWR_DOM_CTL_BUSY, Reg.fld, List.mem_cons, List.not_mem_nil, or_false, or_true, true_or] <;> omega)))
    | (with_reducible apply Chip.chEnter_within; (case hp => decide); (case ht => decide))
    | (with_reducible apply Chip.domEnd_within; (case hp => decide); (case ht => decide))
    | (with_reducible apply Chip.domForce_within; (case hp => decide); (case ht => decide))
    | (with_reducible apply Chip.setDmcCh_within; (case hp => decide); (case ht => decide))
    | (with_reducible apply Chip.Within.emit; (case hk => decide))
    | with_reducible apply Chip.Within.when'
    | with_reducible apply Chip.Within.each
    | (with_reducible apply Chip.Within.post; (case hm => decide))
    | assumption
    | (intro y a ha; (try simp only [List.mem_range, List.mem_filter, List.mem_map, List.mem_flatMap, List.mem_cons, List.not_mem_nil, or_false, Bool.and_eq_true, decide_eq_true_eq, beq_iff_eq, Chip.planesOf] at ha); (first | (have hb := Nat.lt_of_lt_of_le ha (Nat.le_refl _)) | (have hb := Chip.mem_groupOf (by first | assumption | omega | (with_reducible apply Chip.leadOf_lt; first | assumption | omega)) ha) | (have hb := Chip.mem_destsOf ha) | (have hb := Chip.mem_routed ha) | (obtain ⟨i, hi, hd⟩ := ha; have hb := Chip.mem_destsOf hd) | (obtain ⟨hi, hj⟩ := ha; have hb : a ≤ 1 := by omega) | (obtain ⟨i, hi, rfl⟩ := ha) | (obtain ⟨hi, hj⟩ := ha; first | (have hb := Chip.mem_destsOf hi) | (have hb := Nat.lt_of_lt_of_le hi (Nat.le_refl _)) | skip) | skip))
    | intro y
    | omega
    | with_reducible apply Chip.leadOf_lt
    | (with_reducible apply Chip.rd_lt_of; simp only [DMC_DEV_DEGRADED, DMC_RD_DLY, DMC_WR_DLY, PWR_DOM_CTL, PWR_DOM_CTL_BUSY, Reg.fld, List.mem_cons, List.not_mem_nil, or_false, or_true, true_or] <;> decide)
    | split
    | (simp only [DMC_DEV_DEGRADED, DMC_RD_DLY, DMC_WR_DLY, PWR_DOM_CTL, PWR_DOM_CTL_BUSY, Reg.fld, List.mem_cons, List.not_mem_nil, or_false, or_true, true_or] <;> omega)
    | (simp only [chActive, chSelf, chTraining, domMem, stActive, stLow] <;> omega)
    | (simp only [chActive, chSelf, chTraining, domMem, stActive, stLow, DMC_DEV_DEGRADED, DMC_RD_DLY, DMC_WR_DLY, PWR_DOM_CTL, PWR_DOM_CTL_BUSY, Reg.fld, List.mem_cons, List.not_mem_nil, or_false, or_true, true_or] <;> omega))

theorem Chip.trainFail_within {P : List Nat} {T : List Part} {c₀ c : Chip} {n : Nat} (hb_n : n < 8) (hw0 : Chip.Within P T c₀ c)
    (hp : [1, 2, 20].all P.contains = true) (ht : ([.dmc, .pwr] : List Part).all T.contains = true) : Chip.Within P T c₀ (c.trainFail n) := by
  refine Chip.Within.within hw0 hp ht ?_
  clear hw0 hp ht
  unfold Chip.trainFail
  repeat' (first
    | with_reducible exact Chip.Within.refl
    | dsimp only
    | (with_reducible apply Chip.Within.set; (case hr => first | assumption | (simp only [DMC_STATUS, DMC_STATUS_TRAIN_FAILED, Reg.fld, List.mem_cons, List.not_mem_nil, or_false, or_true, true_or] <;> omega)))
    | (with_reducible apply Chip.chEnter_within; (case hp => decide); (case ht => decide))
    | (with_reducible apply Chip.domForce_within; (case hp => decide); (case ht => decide))
    | (with_reducible apply Chip.Within.post; (case hm => decide))
    | assumption
    | omega
    | with_reducible apply Chip.leadOf_lt
    | (with_reducible apply Chip.rd_lt_of; simp only [DMC_STATUS, DMC_STATUS_TRAIN_FAILED, Reg.fld, List.mem_cons, List.not_mem_nil, or_false, or_true, true_or] <;> decide)
    | split
    | (simp only [DMC_STATUS, DMC_STATUS_TRAIN_FAILED, Reg.fld, List.mem_cons, List.not_mem_nil, or_false, or_true, true_or] <;> omega)
    | (simp only [chDisabled, chTraining, domMem, stOff] <;> omega)
    | (simp only [chDisabled, chTraining, domMem, stOff, DMC_STATUS, DMC_STATUS_TRAIN_FAILED, Reg.fld, List.mem_cons, List.not_mem_nil, or_false, or_true, true_or] <;> omega))

theorem Chip.chFailing_within {P : List Nat} {T : List Part} {c₀ c : Chip} {n cause : Nat} (hw0 : Chip.Within P T c₀ c)
    (hp : [].all P.contains = true) (ht : ([.dmc] : List Part).all T.contains = true) : Chip.Within P T c₀ (c.chFailing n cause) := by
  refine Chip.Within.within hw0 hp ht ?_
  clear hw0 hp ht
  unfold Chip.chFailing
  repeat' (first
    | with_reducible exact Chip.Within.refl
    | dsimp only
    | (with_reducible apply Chip.setDmcCh_within; (case hp => decide); (case ht => decide))
    | assumption
    | omega
    | split
    | (simp only [Reg.fld, List.mem_cons, List.not_mem_nil, or_false, or_true, true_or] <;> omega))

theorem Chip.chFail_within {P : List Nat} {T : List Part} {c₀ c : Chip} {n : Nat} (hb_n : n < 8) (hw0 : Chip.Within P T c₀ c)
    (hp : [1, 8, 16, 20].all P.contains = true) (ht : ([.dmc, .lbs, .planes] : List Part).all T.contains = true) : Chip.Within P T c₀ (c.chFail n) := by
  refine Chip.Within.within hw0 hp ht ?_
  clear hw0 hp ht
  unfold Chip.chFail
  repeat' (first
    | with_reducible exact Chip.Within.refl
    | dsimp only
    | (with_reducible apply Chip.Within.put; (case hr => first | assumption | (simp only [DMC_STATUS, DMC_STATUS_CH_FAILED, LBS_REC_CTL, LBS_REC_CTL_ENABLE, LBS_REC_HIST, XPT_DST_CTL, XPT_DST_CTL_LOSS_ACTION, XPT_DST_STAT, XPT_DST_STAT_ACTION_TAKEN, XPT_DST_STAT_LOSS_ACTIVE, Reg.fld, List.mem_cons, List.not_mem_nil, or_false, or_true, true_or] <;> omega)))
    | (with_reducible apply Chip.Within.set; (case hr => first | assumption | (simp only [DMC_STATUS, DMC_STATUS_CH_FAILED, LBS_REC_CTL, LBS_REC_CTL_ENABLE, LBS_REC_HIST, XPT_DST_CTL, XPT_DST_CTL_LOSS_ACTION, XPT_DST_STAT, XPT_DST_STAT_ACTION_TAKEN, XPT_DST_STAT_LOSS_ACTIVE, Reg.fld, List.mem_cons, List.not_mem_nil, or_false, or_true, true_or] <;> omega)))
    | (with_reducible apply Chip.chEnter_within; (case hp => decide); (case ht => decide))
    | (with_reducible apply Chip.setDmcCh_within; (case hp => decide); (case ht => decide))
    | (with_reducible apply Chip.showLoss_within; (case hp => decide); (case ht => decide))
    | (fail_if_no_progress (with_reducible apply Chip.Within.to_planes; (case hk => decide)))
    | (fail_if_no_progress (with_reducible apply Chip.Within.to_lbs; (case hk => decide)))
    | with_reducible apply Chip.Within.each
    | (with_reducible apply Chip.Within.post; (case hm => decide))
    | assumption
    | (intro y a ha; (try simp only [List.mem_range, List.mem_filter, List.mem_map, List.mem_flatMap, List.mem_cons, List.not_mem_nil, or_false, Bool.and_eq_true, decide_eq_true_eq, beq_iff_eq, Chip.planesOf] at ha); (first | (have hb := Nat.lt_of_lt_of_le ha (Nat.le_refl _)) | (have hb := Chip.mem_groupOf (by first | assumption | omega | (with_reducible apply Chip.leadOf_lt; first | assumption | omega)) ha) | (have hb := Chip.mem_destsOf ha) | (have hb := Chip.mem_routed ha) | (obtain ⟨i, hi, hd⟩ := ha; have hb := Chip.mem_destsOf hd) | (obtain ⟨hi, hj⟩ := ha; have hb : a ≤ 1 := by omega) | (obtain ⟨i, hi, rfl⟩ := ha) | (obtain ⟨hi, hj⟩ := ha; first | (have hb := Chip.mem_destsOf hi) | (have hb := Chip.mem_routed hi) | (have hb := Nat.lt_of_lt_of_le hi (Nat.le_refl _)) | skip) | skip))
    | omega
    | with_reducible apply Chip.leadOf_lt
    | (with_reducible apply Chip.rd_lt_of; simp only [DMC_STATUS, DMC_STATUS_CH_FAILED, LBS_REC_CTL, LBS_REC_CTL_ENABLE, LBS_REC_HIST, XPT_DST_CTL, XPT_DST_CTL_LOSS_ACTION, XPT_DST_STAT, XPT_DST_STAT_ACTION_TAKEN, XPT_DST_STAT_LOSS_ACTIVE, Reg.fld, List.mem_cons, List.not_mem_nil, or_false, or_true, true_or] <;> decide)
    | split
    | (simp only [DMC_STATUS, DMC_STATUS_CH_FAILED, LBS_REC_CTL, LBS_REC_CTL_ENABLE, LBS_REC_HIST, XPT_DST_CTL, XPT_DST_CTL_LOSS_ACTION, XPT_DST_STAT, XPT_DST_STAT_ACTION_TAKEN, XPT_DST_STAT_LOSS_ACTIVE, Reg.fld, List.mem_cons, List.not_mem_nil, or_false, or_true, true_or] <;> omega)
    | (simp only [chFailed] <;> omega)
    | (simp only [chFailed, DMC_STATUS, DMC_STATUS_CH_FAILED, LBS_REC_CTL, LBS_REC_CTL_ENABLE, LBS_REC_HIST, XPT_DST_CTL, XPT_DST_CTL_LOSS_ACTION, XPT_DST_STAT, XPT_DST_STAT_ACTION_TAKEN, XPT_DST_STAT_LOSS_ACTIVE, Reg.fld, List.mem_cons, List.not_mem_nil, or_false, or_true, true_or] <;> omega))

theorem Chip.degrade_within {P : List Nat} {T : List Part} {c₀ c : Chip} {n i : Nat} (hb_n : n < 8) (hb_i : i < 40) (hw0 : Chip.Within P T c₀ c)
    (hp : [1, 20].all P.contains = true) (ht : ([.dmc] : List Part).all T.contains = true) : Chip.Within P T c₀ (c.degrade n i) := by
  refine Chip.Within.within hw0 hp ht ?_
  clear hw0 hp ht
  unfold Chip.degrade
  repeat' (first
    | with_reducible exact Chip.Within.refl
    | dsimp only
    | (with_reducible apply Chip.Within.set; (case hr => first | assumption | (simp only [DMC_DEV_DEGRADED, DMC_DEV_DEGRADED_DEGRADED, DMC_STATUS, DMC_STATUS_DEV_DEGRADED, Reg.fld, List.mem_cons, List.not_mem_nil, or_false, or_true, true_or] <;> omega)))
    | (with_reducible apply Chip.Within.setBit; (case hr => first | assumption | (simp only [DMC_DEV_DEGRADED, DMC_DEV_DEGRADED_DEGRADED, DMC_STATUS, DMC_STATUS_DEV_DEGRADED, Reg.fld, List.mem_cons, List.not_mem_nil, or_false, or_true, true_or] <;> omega)))
    | (with_reducible apply Chip.chFailing_within; (case hp => decide); (case ht => decide))
    | with_reducible apply Chip.Within.when'
    | (with_reducible apply Chip.Within.post; (case hm => decide))
    | assumption
    | intro y
    | omega
    | (with_reducible apply Chip.rd_lt_of; simp only [DMC_DEV_DEGRADED, DMC_DEV_DEGRADED_DEGRADED, DMC_STATUS, DMC_STATUS_DEV_DEGRADED, Reg.fld, List.mem_cons, List.not_mem_nil, or_false, or_true, true_or] <;> decide)
    | (with_reducible apply Chip.bits_lt_of; decide)
    | split
    | (simp only [DMC_DEV_DEGRADED, DMC_DEV_DEGRADED_DEGRADED, DMC_STATUS, DMC_STATUS_DEV_DEGRADED, Reg.fld, List.mem_cons, List.not_mem_nil, or_false, or_true, true_or] <;> omega))

theorem Chip.errCapture_within {P : List Nat} {T : List Part} {c₀ c : Chip} {n pa rank sub : Nat} {dev : Option Nat} {scrub : Bool} (hb_n : n < 8) (hw0 : Chip.Within P T c₀ c)
    (hp : [20].all P.contains = true) (ht : ([] : List Part).all T.contains = true) : Chip.Within P T c₀ (c.errCapture n pa rank sub dev scrub) := by
  refine Chip.Within.within hw0 hp ht ?_
  clear hw0 hp ht
  unfold Chip.errCapture
  repeat' (first
    | with_reducible exact Chip.Within.refl
    | dsimp only
    | (with_reducible apply Chip.Within.inc; (case hr => first | assumption | (simp only [DMC_ERR_ADDR_HI, DMC_ERR_ADDR_LO, DMC_ERR_INFO, DMC_ERR_INFO_SINCE, DMC_ERR_INFO_UE, DMC_ERR_INFO_VALID, Reg.fld, List.mem_cons, List.not_mem_nil, or_false, or_true, true_or] <;> omega)))
    | (with_reducible apply Chip.Within.put; (case hr => first | assumption | (simp only [DMC_ERR_ADDR_HI, DMC_ERR_ADDR_LO, DMC_ERR_INFO, DMC_ERR_INFO_SINCE, DMC_ERR_INFO_UE, DMC_ERR_INFO_VALID, Reg.fld, List.mem_cons, List.not_mem_nil, or_false, or_true, true_or] <;> omega)))
    | assumption
    | omega
    | split
    | (simp only [DMC_ERR_ADDR_HI, DMC_ERR_ADDR_LO, DMC_ERR_INFO, DMC_ERR_INFO_SINCE, DMC_ERR_INFO_UE, DMC_ERR_INFO_VALID, Reg.fld, List.mem_cons, List.not_mem_nil, or_false, or_true, true_or] <;> omega))

theorem Chip.eccError_within {P : List Nat} {T : List Part} {c₀ c : Chip} {pa0 : Nat} {dev : Option Nat} {scrub : Bool} (hx_d : ∀ d, dev = some d → d < 10) (hw0 : Chip.Within P T c₀ c)
    (hp : [1, 20].all P.contains = true) (ht : ([.dmc] : List Part).all T.contains = true) : Chip.Within P T c₀ (c.eccError pa0 dev scrub) := by
  refine Chip.Within.within hw0 hp ht ?_
  clear hw0 hp ht
  unfold Chip.eccError
  dsimp only
  have hc := @Chip.caRank_lt c (paChan (pa0 / 64 * 64)) (paLocal (pa0 / 64 * 64))
  have hs : caSub (paLocal (pa0 / 64 * 64)) < 2 := Nat.mod_lt _ (by decide)
  have hpc := @Chip.paChan_lt (pa0 / 64 * 64)
  generalize paChan (pa0 / 64 * 64) = n at hc hpc ⊢
  generalize c.caRank n (paLocal (pa0 / 64 * 64)) = rk at hc ⊢
  generalize caSub (paLocal (pa0 / 64 * 64)) = sb at hs ⊢
  have hdd : ∀ d, dev = some d → d < 10 := hx_d
  rcases dev with _ | d <;> [skip; have hde := hdd d rfl]
  repeat' (first
    | with_reducible exact Chip.Within.refl
    | dsimp only
    | (with_reducible apply Chip.Within.set; (case hr => first | assumption | (simp only [DMC_CE_COUNT, DMC_CE_COUNT_COUNT, DMC_CFG, DMC_CFG_UE_LIMIT, DMC_DEV_CE, DMC_DEV_CE_COUNT, DMC_ERR_INFO, DMC_STATUS, DMC_STATUS_CE, DMC_STATUS_UE, DMC_UE_COUNT, DMC_UE_COUNT_COUNT, Reg.fld, List.mem_cons, List.not_mem_nil, or_false, or_true, true_or] <;> omega)))
    | (with_reducible apply Chip.Within.inc; (case hr => first | assumption | (simp only [DMC_CE_COUNT, DMC_CE_COUNT_COUNT, DMC_CFG, DMC_CFG_UE_LIMIT, DMC_DEV_CE, DMC_DEV_CE_COUNT, DMC_ERR_INFO, DMC_STATUS, DMC_STATUS_CE, DMC_STATUS_UE, DMC_UE_COUNT, DMC_UE_COUNT_COUNT, Reg.fld, List.mem_cons, List.not_mem_nil, or_false, or_true, true_or] <;> omega)))
    | (with_reducible apply Chip.chFailing_within; (case hp => decide); (case ht => decide))
    | (with_reducible apply Chip.degrade_within; (case hp => decide); (case ht => decide))
    | (with_reducible apply Chip.errCapture_within; (case hp => decide); (case ht => decide))
    | (with_reducible apply Chip.setDmcCh_within; (case hp => decide); (case ht => decide))
    | with_reducible apply Chip.Within.when'
    | (with_reducible apply Chip.Within.post; (case hm => decide))
    | assumption
    | intro y
    | omega
    | with_reducible apply Chip.leadOf_lt
    | (with_reducible apply Chip.rd_lt_of; simp only [DMC_CE_COUNT, DMC_CE_COUNT_COUNT, DMC_CFG, DMC_CFG_UE_LIMIT, DMC_DEV_CE, DMC_DEV_CE_COUNT, DMC_ERR_INFO, DMC_STATUS, DMC_STATUS_CE, DMC_STATUS_UE, DMC_UE_COUNT, DMC_UE_COUNT_COUNT, Reg.fld, List.mem_cons, List.not_mem_nil, or_false, or_true, true_or] <;> decide)
    | split
    | (simp only [DMC_CE_COUNT, DMC_CE_COUNT_COUNT, DMC_CFG, DMC_CFG_UE_LIMIT, DMC_DEV_CE, DMC_DEV_CE_COUNT, DMC_ERR_INFO, DMC_STATUS, DMC_STATUS_CE, DMC_STATUS_UE, DMC_UE_COUNT, DMC_UE_COUNT_COUNT, Reg.fld, List.mem_cons, List.not_mem_nil, or_false, or_true, true_or] <;> omega)
    | (simp only [caSub, paChan, paLocal, sec] <;> omega)
    | (simp only [caSub, paChan, paLocal, sec, DMC_CE_COUNT, DMC_CE_COUNT_COUNT, DMC_CFG, DMC_CFG_UE_LIMIT, DMC_DEV_CE, DMC_DEV_CE_COUNT, DMC_ERR_INFO, DMC_STATUS, DMC_STATUS_CE, DMC_STATUS_UE, DMC_UE_COUNT, DMC_UE_COUNT_COUNT, Reg.fld, List.mem_cons, List.not_mem_nil, or_false, or_true, true_or] <;> omega))

theorem Chip.readEcc_within {P : List Nat} {T : List Part} {c₀ c : Chip} {pa : Nat} {dev : Option Nat} (hx_d : ∀ d, dev = some d → d < 10) (hw0 : Chip.Within P T c₀ c)
    (hp : [1, 20, 112].all P.contains = true) (ht : ([.dmc, .twn] : List Part).all T.contains = true) : Chip.Within P T c₀ (c.readEcc pa dev) := by
  refine Chip.Within.within hw0 hp ht ?_
  clear hw0 hp ht
  unfold Chip.readEcc
  repeat' (first
    | with_reducible exact Chip.Within.refl
    | dsimp only
    | (with_reducible apply Chip.diagUe_within; (case hp => decide); (case ht => decide))
    | (with_reducible apply Chip.eccError_within; (case hp => decide); (case ht => decide))
    | with_reducible apply Chip.Within.when'
    | assumption
    | (intro d hd; exact hx_d d (by rw [hd]))
    | (intro d hd; subst hd; exact hx_d d (by assumption))
    | (intro d hd; cases hd)
    | intro y
    | omega
    | with_reducible apply Chip.paChan_lt
    | with_reducible apply Chip.caRank_lt
    | split
    | (simp only [Reg.fld, List.mem_cons, List.not_mem_nil, or_false, or_true, true_or] <;> omega))

theorem Chip.scrubRead_within {P : List Nat} {T : List Part} {c₀ c : Chip} {n : Nat} {found : Option (Option Nat)} (hx_d : ∀ d, found = some (some d) → d < 10) (hb_n : n < 8) (hw0 : Chip.Within P T c₀ c)
    (hp : [1, 20].all P.contains = true) (ht : ([.dmc] : List Part).all T.contains = true) : Chip.Within P T c₀ (c.scrubRead n found) := by
  refine Chip.Within.within hw0 hp ht ?_
  clear hw0 hp ht
  unfold Chip.scrubRead
  repeat' (first
    | with_reducible exact Chip.Within.refl
    | dsimp only
    | (with_reducible apply Chip.eccError_within; (case hp => decide); (case ht => decide))
    | (with_reducible apply Chip.setDmcCh_within; (case hp => decide); (case ht => decide))
    | assumption
    | (intro d hd; exact hx_d d (by rw [hd]))
    | (intro d hd; subst hd; exact hx_d d (by assumption))
    | (intro d hd; cases hd)
    | omega
    | split
    | (simp only [Reg.fld, List.mem_cons, List.not_mem_nil, or_false, or_true, true_or] <;> omega))

theorem Chip.eyeNarrow_within {P : List Nat} {T : List Part} {c₀ c : Chip} {n i : Nat} (hb_n : n < 8) (hb_i : i < 40) (hw0 : Chip.Within P T c₀ c)
    (hp : [1, 20].all P.contains = true) (ht : ([] : List Part).all T.contains = true) : Chip.Within P T c₀ (c.eyeNarrow n i) := by
  refine Chip.Within.within hw0 hp ht ?_
  clear hw0 hp ht
  unfold Chip.eyeNarrow
  repeat' (first
    | with_reducible exact Chip.Within.refl
    | dsimp only
    | (with_reducible apply Chip.Within.set; (case hr => first | assumption | (simp only [DMC_STATUS, DMC_STATUS_EYE_NARROW, Reg.fld, List.mem_cons, List.not_mem_nil, or_false, or_true, true_or] <;> omega)))
    | (with_reducible apply Chip.Within.post; (case hm => decide))
    | assumption
    | omega
    | (simp only [DMC_STATUS, DMC_STATUS_EYE_NARROW, Reg.fld, List.mem_cons, List.not_mem_nil, or_false, or_true, true_or] <;> omega))

theorem Chip.nudge_within {P : List Nat} {T : List Part} {c₀ c : Chip} {n i : Nat} {up : Bool} (hb_n : n < 8) (hb_i : i < 40) (hw0 : Chip.Within P T c₀ c)
    (hp : [1, 20].all P.contains = true) (ht : ([] : List Part).all T.contains = true) : Chip.Within P T c₀ (c.nudge n i up) := by
  refine Chip.Within.within hw0 hp ht ?_
  clear hw0 hp ht
  unfold Chip.nudge
  repeat' (first
    | with_reducible exact Chip.Within.refl
    | dsimp only
    | (with_reducible apply Chip.Within.wr; (case hr => first | assumption | (simp only [DMC_RD_DLY, DMC_RD_DLY_FINE, Reg.fld, List.mem_cons, List.not_mem_nil, or_false, or_true, true_or] <;> omega)))
    | (with_reducible apply Chip.eyeNarrow_within; (case hp => decide); (case ht => decide))
    | assumption
    | omega
    | (with_reducible apply Chip.rd_lt_of; simp only [DMC_RD_DLY, DMC_RD_DLY_FINE, Reg.fld, List.mem_cons, List.not_mem_nil, or_false, or_true, true_or] <;> decide)
    | split
    | (simp only [DMC_RD_DLY, DMC_RD_DLY_FINE, Reg.fld, List.mem_cons, List.not_mem_nil, or_false, or_true, true_or] <;> omega))

theorem Chip.refresh_within {P : List Nat} {T : List Part} {c₀ c : Chip} {n k : Nat} {mr4 : Option Bool} (hb_n : n < 8) (hb_k : k < 2) (hw0 : Chip.Within P T c₀ c)
    (hp : [1, 20].all P.contains = true) (ht : ([.dmc] : List Part).all T.contains = true) : Chip.Within P T c₀ (c.refresh n k mr4) := by
  refine Chip.Within.within hw0 hp ht ?_
  clear hw0 hp ht
  unfold Chip.refresh
  repeat' (first
    | with_reducible exact Chip.Within.refl
    | dsimp only
    | (with_reducible apply Chip.Within.wrB; (case hr => first | assumption | (simp only [DMC_CH_STAT, DMC_CH_STAT_TEMP_2X, Reg.fld, List.mem_cons, List.not_mem_nil, or_false, or_true, true_or] <;> omega)))
    | (with_reducible apply Chip.chFailing_within; (case hp => decide); (case ht => decide))
    | (with_reducible apply Chip.nudge_within; (case hp => decide); (case ht => decide))
    | (with_reducible apply Chip.setDmcCh_within; (case hp => decide); (case ht => decide))
    | with_reducible apply Chip.Within.when'
    | with_reducible apply Chip.Within.each
    | (intro y a ha; (try simp only [List.mem_range, List.mem_filter, List.mem_map, List.mem_flatMap, List.mem_cons, List.not_mem_nil, or_false, Bool.and_eq_true, decide_eq_true_eq, beq_iff_eq, Chip.planesOf] at ha); (first | (have hb := Nat.lt_of_lt_of_le ha (Nat.le_refl _)) | (have hb := Chip.mem_groupOf (by first | assumption | omega | (with_reducible apply Chip.leadOf_lt; first | assumption | omega)) ha) | (have hb := Chip.mem_destsOf ha) | (have hb := Chip.mem_routed ha) | (obtain ⟨i, hi, hd⟩ := ha; have hb := Chip.mem_destsOf hd) | (obtain ⟨hi, hj⟩ := ha; have hb : a ≤ 1 := by omega) | (obtain ⟨i, hi, rfl⟩ := ha) | (obtain ⟨hi, hj⟩ := ha; first | (have hb := Chip.mem_destsOf hi) | (have hb := Nat.lt_of_lt_of_le hi (Nat.le_refl _)) | skip) | skip))
    | assumption
    | intro y
    | omega
    | split
    | (simp only [DMC_CH_STAT, DMC_CH_STAT_TEMP_2X, Reg.fld, List.mem_cons, List.not_mem_nil, or_false, or_true, true_or] <;> omega))

theorem Chip.sweepDev_within {P : List Nat} {T : List Part} {c₀ c : Chip} {n i m : Nat} (hb_n : n < 8) (hb_i : i < 40) (hw0 : Chip.Within P T c₀ c)
    (hp : [1, 20].all P.contains = true) (ht : ([.dmc] : List Part).all T.contains = true) : Chip.Within P T c₀ (c.sweepDev n i m) := by
  refine Chip.Within.within hw0 hp ht ?_
  clear hw0 hp ht
  unfold Chip.sweepDev
  repeat' (first
    | with_reducible exact Chip.Within.refl
    | dsimp only
    | (with_reducible apply Chip.Within.wr; (case hr => first | assumption | (simp only [DMC_CFG, DMC_CFG_EYE_MIN, DMC_RD_DLY, DMC_RD_DLY_EYE_WIDTH, DMC_RD_DLY_TRIAL_OFFSET, Reg.fld, List.mem_cons, List.not_mem_nil, or_false, or_true, true_or] <;> omega)))
    | (with_reducible apply Chip.Within.wrI; (case hr => first | assumption | (simp only [DMC_CFG, DMC_CFG_EYE_MIN, DMC_RD_DLY, DMC_RD_DLY_EYE_WIDTH, DMC_RD_DLY_TRIAL_OFFSET, Reg.fld, List.mem_cons, List.not_mem_nil, or_false, or_true, true_or] <;> omega)))
    | (with_reducible apply Chip.degrade_within; (case hp => decide); (case ht => decide))
    | (with_reducible apply Chip.eyeNarrow_within; (case hp => decide); (case ht => decide))
    | (with_reducible apply Chip.setDmcCh_within; (case hp => decide); (case ht => decide))
    | with_reducible apply Chip.Within.when'
    | assumption
    | intro y
    | omega
    | (with_reducible apply Chip.rd_lt_of; simp only [DMC_CFG, DMC_CFG_EYE_MIN, DMC_RD_DLY, DMC_RD_DLY_EYE_WIDTH, DMC_RD_DLY_TRIAL_OFFSET, Reg.fld, List.mem_cons, List.not_mem_nil, or_false, or_true, true_or] <;> decide)
    | split
    | (simp only [DMC_CFG, DMC_CFG_EYE_MIN, DMC_RD_DLY, DMC_RD_DLY_EYE_WIDTH, DMC_RD_DLY_TRIAL_OFFSET, Reg.fld, List.mem_cons, List.not_mem_nil, or_false, or_true, true_or] <;> omega))

theorem Chip.sweep_within {P : List Nat} {T : List Part} {c₀ c : Chip} {n k : Nat} {ms : List Nat} (hb_n : n < 8) (hb_k : k < 2) (hw0 : Chip.Within P T c₀ c)
    (hp : [1, 20].all P.contains = true) (ht : ([.dmc] : List Part).all T.contains = true) : Chip.Within P T c₀ (c.sweep n k ms) := by
  refine Chip.Within.within hw0 hp ht ?_
  clear hw0 hp ht
  unfold Chip.sweep
  repeat' (first
    | with_reducible exact Chip.Within.refl
    | dsimp only
    | (with_reducible apply Chip.sweepDev_within; (case hp => decide); (case ht => decide))
    | with_reducible apply Chip.Within.each
    | (intro y a ha; (try simp only [List.mem_range, List.mem_filter, List.mem_map, List.mem_flatMap, List.mem_cons, List.not_mem_nil, or_false, Bool.and_eq_true, decide_eq_true_eq, beq_iff_eq, Chip.planesOf] at ha); (first | (have hb := Nat.lt_of_lt_of_le ha (Nat.le_refl _)) | (have hb := Chip.mem_groupOf (by first | assumption | omega | (with_reducible apply Chip.leadOf_lt; first | assumption | omega)) ha) | (have hb := Chip.mem_destsOf ha) | (have hb := Chip.mem_routed ha) | (obtain ⟨i, hi, hd⟩ := ha; have hb := Chip.mem_destsOf hd) | (obtain ⟨hi, hj⟩ := ha; have hb : a ≤ 1 := by omega) | (obtain ⟨i, hi, rfl⟩ := ha) | (obtain ⟨hi, hj⟩ := ha; first | (have hb := Chip.mem_destsOf hi) | (have hb := Nat.lt_of_lt_of_le hi (Nat.le_refl _)) | skip) | skip))
    | assumption
    | omega
    | split
    | (simp only [Reg.fld, List.mem_cons, List.not_mem_nil, or_false, or_true, true_or] <;> omega))

theorem Chip.parityAlert_within {P : List Nat} {T : List Part} {c₀ c : Chip} {n : Nat} {inReplay : Bool} (hb_n : n < 8) (hw0 : Chip.Within P T c₀ c)
    (hp : [20].all P.contains = true) (ht : ([.dmc] : List Part).all T.contains = true) : Chip.Within P T c₀ (c.parityAlert n inReplay) := by
  refine Chip.Within.within hw0 hp ht ?_
  clear hw0 hp ht
  unfold Chip.parityAlert
  repeat' (first
    | with_reducible exact Chip.Within.refl
    | dsimp only
    | (with_reducible apply Chip.Within.set; (case hr => first | assumption | (simp only [DMC_ALERT_COUNT, DMC_ALERT_COUNT_COUNT, DMC_STATUS, DMC_STATUS_ALERT, Reg.fld, List.mem_cons, List.not_mem_nil, or_false, or_true, true_or] <;> omega)))
    | (with_reducible apply Chip.Within.inc; (case hr => first | assumption | (simp only [DMC_ALERT_COUNT, DMC_ALERT_COUNT_COUNT, DMC_STATUS, DMC_STATUS_ALERT, Reg.fld, List.mem_cons, List.not_mem_nil, or_false, or_true, true_or] <;> omega)))
    | (with_reducible apply Chip.chFailing_within; (case hp => decide); (case ht => decide))
    | (with_reducible apply Chip.setDmcCh_within; (case hp => decide); (case ht => decide))
    | with_reducible apply Chip.Within.when'
    | assumption
    | intro y
    | omega
    | split
    | (simp only [DMC_ALERT_COUNT, DMC_ALERT_COUNT_COUNT, DMC_STATUS, DMC_STATUS_ALERT, Reg.fld, List.mem_cons, List.not_mem_nil, or_false, or_true, true_or] <;> omega))


theorem Chip.setCarafe_within {P : List Nat} {T : List Part} {c₀ c : Chip} {r : Nat} {x : Carafe} (hw0 : Chip.Within P T c₀ c)
    (hp : [].all P.contains = true) (ht : ([.lbs] : List Part).all T.contains = true) : Chip.Within P T c₀ (c.setCarafe r x) := by
  refine Chip.Within.within hw0 hp ht ?_
  clear hw0 hp ht
  unfold Chip.setCarafe
  repeat' (first
    | with_reducible exact Chip.Within.refl
    | dsimp only
    | (fail_if_no_progress (with_reducible apply Chip.Within.to_lbs; (case hk => decide)))
    | assumption
    | omega
    | (simp only [Reg.fld, List.mem_cons, List.not_mem_nil, or_false, or_true, true_or] <;> omega))

theorem Chip.shortShow_within {P : List Nat} {T : List Part} {c₀ c : Chip} {p : Nat} (hb_p : p < 48) (hw0 : Chip.Within P T c₀ c)
    (hp : [16].all P.contains = true) (ht : ([] : List Part).all T.contains = true) : Chip.Within P T c₀ (c.shortShow p) := by
  refine Chip.Within.within hw0 hp ht ?_
  clear hw0 hp ht
  unfold Chip.shortShow
  repeat' (first
    | with_reducible exact Chip.Within.refl
    | dsimp only
    | (with_reducible apply Chip.Within.wrB; (case hr => first | assumption | (simp only [LBS_PB_CTL, LBS_PB_CTL_ENABLE, LBS_PB_STAT, LBS_PB_STAT_CUR_DELAY, LBS_PB_STAT_SHORT, LBS_REC_HIST, LBS_REC_HIST_HISTORY, Reg.fld, List.mem_cons, List.not_mem_nil, or_false, or_true, true_or] <;> omega)))
    | assumption
    | omega
    | with_reducible apply Chip.leadOf_lt
    | (with_reducible apply Chip.rd_lt_of; simp only [LBS_PB_CTL, LBS_PB_CTL_ENABLE, LBS_PB_STAT, LBS_PB_STAT_CUR_DELAY, LBS_PB_STAT_SHORT, LBS_REC_HIST, LBS_REC_HIST_HISTORY, Reg.fld, List.mem_cons, List.not_mem_nil, or_false, or_true, true_or] <;> decide)
    | split
    | (simp only [LBS_PB_CTL, LBS_PB_CTL_ENABLE, LBS_PB_STAT, LBS_PB_STAT_CUR_DELAY, LBS_PB_STAT_SHORT, LBS_REC_HIST, LBS_REC_HIST_HISTORY, Reg.fld, List.mem_cons, List.not_mem_nil, or_false, or_true, true_or] <;> omega))

theorem Chip.wrHist_within {P : List Nat} {T : List Part} {c₀ c : Chip} {r h : Nat} (hb_r : r < 64) (hw0 : Chip.Within P T c₀ c)
    (hp : [16].all P.contains = true) (ht : ([] : List Part).all T.contains = true) : Chip.Within P T c₀ (c.wrHist r h) := by
  refine Chip.Within.within hw0 hp ht ?_
  clear hw0 hp ht
  unfold Chip.wrHist
  repeat' (first
    | with_reducible exact Chip.Within.refl
    | dsimp only
    | (with_reducible apply Chip.Within.wr; (case hr => first | assumption | (simp only [LBS_PB_CTL, LBS_PB_CTL_ENABLE, LBS_REC_HIST, LBS_REC_HIST_FULL, LBS_REC_HIST_HISTORY, Reg.fld, List.mem_cons, List.not_mem_nil, or_false, or_true, true_or] <;> omega)))
    | (with_reducible apply Chip.Within.wrB; (case hr => first | assumption | (simp only [LBS_PB_CTL, LBS_PB_CTL_ENABLE, LBS_REC_HIST, LBS_REC_HIST_FULL, LBS_REC_HIST_HISTORY, Reg.fld, List.mem_cons, List.not_mem_nil, or_false, or_true, true_or] <;> omega)))
    | (with_reducible apply Chip.shortShow_within; (case hp => decide); (case ht => decide))
    | with_reducible apply Chip.Within.each
    | assumption
    | (intro y a ha; (try simp only [List.mem_range, List.mem_filter, List.mem_map, List.mem_flatMap, List.mem_cons, List.not_mem_nil, or_false, Bool.and_eq_true, decide_eq_true_eq, beq_iff_eq, Chip.planesOf] at ha); (first | (have hb := Nat.lt_of_lt_of_le ha (Nat.le_refl _)) | (have hb := Chip.mem_groupOf (by first | assumption | omega | (with_reducible apply Chip.leadOf_lt; first | assumption | omega)) ha) | (have hb := Chip.mem_destsOf ha) | (have hb := Chip.mem_routed ha) | (obtain ⟨i, hi, hd⟩ := ha; have hb := Chip.mem_destsOf hd) | (obtain ⟨hi, hj⟩ := ha; have hb : a ≤ 1 := by omega) | (obtain ⟨i, hi, rfl⟩ := ha) | (obtain ⟨hi, hj⟩ := ha; first | (have hb := Chip.mem_destsOf hi) | (have hb := Chip.mem_routed hi) | (have hb := Nat.lt_of_lt_of_le hi (Nat.le_refl _)) | skip) | skip))
    | omega
    | with_reducible apply Chip.leadOf_lt
    | (with_reducible apply Chip.rd_lt_of; simp only [LBS_PB_CTL, LBS_PB_CTL_ENABLE, LBS_REC_HIST, LBS_REC_HIST_FULL, LBS_REC_HIST_HISTORY, Reg.fld, List.mem_cons, List.not_mem_nil, or_false, or_true, true_or] <;> decide)
    | split
    | (simp only [LBS_PB_CTL, LBS_PB_CTL_ENABLE, LBS_REC_HIST, LBS_REC_HIST_FULL, LBS_REC_HIST_HISTORY, Reg.fld, List.mem_cons, List.not_mem_nil, or_false, or_true, true_or] <;> omega))

theorem Chip.pauseExpire_within {P : List Nat} {T : List Part} {c₀ c : Chip} {p : Nat} (hb_p : p < 48) (hw0 : Chip.Within P T c₀ c)
    (hp : [1, 16].all P.contains = true) (ht : ([] : List Part).all T.contains = true) : Chip.Within P T c₀ (c.pauseExpire p) := by
  refine Chip.Within.within hw0 hp ht ?_
  clear hw0 hp ht
  unfold Chip.pauseExpire
  repeat' (first
    | with_reducible exact Chip.Within.refl
    | dsimp only
    | (with_reducible apply Chip.Within.wr; (case hr => first | assumption | (simp only [LBS_PB_CTL, LBS_PB_CTL_MODE, LBS_PB_STAT, LBS_PB_STAT_CUR_DELAY, LBS_PB_STAT_PAUSE_EXPIRED, LBS_STATUS, LBS_STATUS_PAUSE_EXPIRED, Reg.fld, List.mem_cons, List.not_mem_nil, or_false, or_true, true_or] <;> omega)))
    | (with_reducible apply Chip.Within.set; (case hr => first | assumption | (simp only [LBS_PB_CTL, LBS_PB_CTL_MODE, LBS_PB_STAT, LBS_PB_STAT_CUR_DELAY, LBS_PB_STAT_PAUSE_EXPIRED, LBS_STATUS, LBS_STATUS_PAUSE_EXPIRED, Reg.fld, List.mem_cons, List.not_mem_nil, or_false, or_true, true_or] <;> omega)))
    | (with_reducible apply Chip.Within.clr; (case hr => first | assumption | (simp only [LBS_PB_CTL, LBS_PB_CTL_MODE, LBS_PB_STAT, LBS_PB_STAT_CUR_DELAY, LBS_PB_STAT_PAUSE_EXPIRED, LBS_STATUS, LBS_STATUS_PAUSE_EXPIRED, Reg.fld, List.mem_cons, List.not_mem_nil, or_false, or_true, true_or] <;> omega)))
    | (with_reducible apply Chip.shortShow_within; (case hp => decide); (case ht => decide))
    | (with_reducible apply Chip.Within.post; (case hm => decide))
    | assumption
    | omega
    | with_reducible apply Chip.leadOf_lt
    | (with_reducible apply Chip.rd_lt_of; simp only [LBS_PB_CTL, LBS_PB_CTL_MODE, LBS_PB_STAT, LBS_PB_STAT_CUR_DELAY, LBS_PB_STAT_PAUSE_EXPIRED, LBS_STATUS, LBS_STATUS_PAUSE_EXPIRED, Reg.fld, List.mem_cons, List.not_mem_nil, or_false, or_true, true_or] <;> decide)
    | split
    | (simp only [LBS_PB_CTL, LBS_PB_CTL_MODE, LBS_PB_STAT, LBS_PB_STAT_CUR_DELAY, LBS_PB_STAT_PAUSE_EXPIRED, LBS_STATUS, LBS_STATUS_PAUSE_EXPIRED, Reg.fld, List.mem_cons, List.not_mem_nil, or_false, or_true, true_or] <;> omega))

theorem Chip.setPlay_within {P : List Nat} {T : List Part} {c₀ c : Chip} {p : Nat} {x : Play} (hw0 : Chip.Within P T c₀ c)
    (hp : [].all P.contains = true) (ht : ([.lbs] : List Part).all T.contains = true) : Chip.Within P T c₀ (c.setPlay p x) := by
  refine Chip.Within.within hw0 hp ht ?_
  clear hw0 hp ht
  unfold Chip.setPlay
  repeat' (first
    | with_reducible exact Chip.Within.refl
    | dsimp only
    | (fail_if_no_progress (with_reducible apply Chip.Within.to_lbs; (case hk => decide)))
    | assumption
    | omega
    | with_reducible apply Chip.leadOf_lt
    | (with_reducible apply Chip.rd_lt_of; simp only [Reg.fld, List.mem_cons, List.not_mem_nil, or_false, or_true, true_or] <;> decide)
    | split
    | (simp only [Reg.fld, List.mem_cons, List.not_mem_nil, or_false, or_true, true_or] <;> omega))

theorem Chip.storeHalt_within {P : List Nat} {T : List Part} {c₀ c : Chip} {p : Nat} (hw0 : Chip.Within P T c₀ c)
    (hp : [1, 8, 12, 16, 64].all P.contains = true) (ht : ([.lbs, .srcs] : List Part).all T.contains = true) : Chip.Within P T c₀ (c.storeHalt p) := by
  refine Chip.Within.within hw0 hp ht ?_
  clear hw0 hp ht
  unfold Chip.storeHalt
  repeat' (first
    | with_reducible exact Chip.Within.refl
    | dsimp only
    | (with_reducible apply Chip.Within.wr; (case hr => first | assumption | (simp only [LBS_PB_CTL, LBS_PB_CTL_ENABLE, LBS_PB_STAT, LBS_PB_STAT_CUR_DELAY, LBS_REC_CTL, LBS_REC_CTL_ENABLE, LBS_STATUS, LBS_STATUS_HALTED, Reg.fld, List.mem_cons, List.not_mem_nil, or_false, or_true, true_or] <;> omega)))
    | (with_reducible apply Chip.Within.set; (case hr => first | assumption | (simp only [LBS_PB_CTL, LBS_PB_CTL_ENABLE, LBS_PB_STAT, LBS_PB_STAT_CUR_DELAY, LBS_REC_CTL, LBS_REC_CTL_ENABLE, LBS_STATUS, LBS_STATUS_HALTED, Reg.fld, List.mem_cons, List.not_mem_nil, or_false, or_true, true_or] <;> omega)))
    | (with_reducible apply Chip.Within.clr; (case hr => first | assumption | (simp only [LBS_PB_CTL, LBS_PB_CTL_ENABLE, LBS_PB_STAT, LBS_PB_STAT_CUR_DELAY, LBS_REC_CTL, LBS_REC_CTL_ENABLE, LBS_STATUS, LBS_STATUS_HALTED, Reg.fld, List.mem_cons, List.not_mem_nil, or_false, or_true, true_or] <;> omega)))
    | (with_reducible apply Chip.judgeSrc_within; (case hp => decide); (case ht => decide))
    | (with_reducible apply Chip.setCarafe_within; (case hp => decide); (case ht => decide))
    | (with_reducible apply Chip.setPlay_within; (case hp => decide); (case ht => decide))
    | (with_reducible apply Chip.shortShow_within; (case hp => decide); (case ht => decide))
    | (with_reducible apply Chip.wrHist_within; (case hp => decide); (case ht => decide))
    | (fail_if_no_progress (with_reducible apply Chip.Within.to_lbs; (case hk => decide)))
    | with_reducible apply Chip.Within.each
    | (with_reducible apply Chip.Within.post; (case hm => decide))
    | assumption
    | (intro y a ha; (try simp only [List.mem_range, List.mem_filter, List.mem_map, List.mem_flatMap, List.mem_cons, List.not_mem_nil, or_false, Bool.and_eq_true, decide_eq_true_eq, beq_iff_eq, Chip.planesOf] at ha); (first | (have hb := Nat.lt_of_lt_of_le ha (Nat.le_refl _)) | (have hb := Chip.mem_groupOf (by first | assumption | omega | (with_reducible apply Chip.leadOf_lt; first | assumption | omega)) ha) | (have hb := Chip.mem_destsOf ha) | (have hb := Chip.mem_routed ha) | (obtain ⟨i, hi, hd⟩ := ha; have hb := Chip.mem_destsOf hd) | (obtain ⟨hi, hj⟩ := ha; have hb : a ≤ 1 := by omega) | (obtain ⟨i, hi, rfl⟩ := ha) | (obtain ⟨hi, hj⟩ := ha; first | (have hb := Chip.mem_destsOf hi) | (have hb := Chip.mem_routed hi) | (have hb := Nat.lt_of_lt_of_le hi (Nat.le_refl _)) | skip) | skip))
    | omega
    | with_reducible apply Chip.leadOf_lt
    | (with_reducible apply Chip.rd_lt_of; simp only [LBS_PB_CTL, LBS_PB_CTL_ENABLE, LBS_PB_STAT, LBS_PB_STAT_CUR_DELAY, LBS_REC_CTL, LBS_REC_CTL_ENABLE, LBS_STATUS, LBS_STATUS_HALTED, Reg.fld, List.mem_cons, List.not_mem_nil, or_false, or_true, true_or] <;> decide)
    | split
    | (simp only [LBS_PB_CTL, LBS_PB_CTL_ENABLE, LBS_PB_STAT, LBS_PB_STAT_CUR_DELAY, LBS_REC_CTL, LBS_REC_CTL_ENABLE, LBS_STATUS, LBS_STATUS_HALTED, Reg.fld, List.mem_cons, List.not_mem_nil, or_false, or_true, true_or] <;> omega))

end Sys2Proof.Machine
end

