-- ==== Sys2Proof/Laws/WithinLanes.lean ====
section
/-! SUPPORT. What each operation over the SDI lanes, the fabric lanes and the links may change: it keeps within the listed pages and parts (Chip.Within), so that a frame of a
command is one lemma of the operations it calls. -/

set_option linter.all false
set_option maxRecDepth 4000

namespace Sys2Proof.Machine


theorem Chip.setSdiLane_within {P : List Nat} {T : List Part} {c₀ c : Chip} {n : Nat} {x : SdiLane} (hw0 : Chip.Within P T c₀ c)
    (hp : [].all P.contains = true) (ht : ([.sdi] : List Part).all T.contains = true) : Chip.Within P T c₀ (c.setSdiLane n x) := by
  refine Chip.Within.within hw0 hp ht ?_
  clear hw0 hp ht
  unfold Chip.setSdiLane
  repeat' (first
    | with_reducible exact Chip.Within.refl
    | dsimp only
    | (fail_if_no_progress (with_reducible apply Chip.Within.to_sdi; (case hk => decide)))
    | assumption
    | omega
    | (simp only [Reg.fld, List.mem_cons, List.not_mem_nil, or_false, or_true, true_or] <;> omega))

theorem Chip.rxHunt_within {P : List Nat} {T : List Part} {c₀ c : Chip} {n : Nat} (hb_n : n < 48) (hw0 : Chip.Within P T c₀ c)
    (hp : [1, 8, 12, 32, 64].all P.contains = true) (ht : ([.sdi, .srcs] : List Part).all T.contains = true) : Chip.Within P T c₀ (c.rxHunt n) := by
  refine Chip.Within.within hw0 hp ht ?_
  clear hw0 hp ht
  unfold Chip.rxHunt
  repeat' (first
    | with_reducible exact Chip.Within.refl
    | dsimp only
    | (with_reducible apply Chip.Within.clr; (case hr => first | assumption | (simp only [FSY_SRC_STAT, FSY_SRC_STAT_DET_FORMAT, SDI_RX_CTL, SDI_RX_CTL_MAX_CLASS, SDI_RX_STAT, SDI_RX_STAT_LEVEL_B, SDI_RX_STAT_RATE, SDI_RX_STAT_STATE, Reg.fld, List.mem_cons, List.not_mem_nil, or_false, or_true, true_or] <;> omega)))
    | (with_reducible apply Chip.Within.wr; (case hr => first | assumption | (simp only [FSY_SRC_STAT, FSY_SRC_STAT_DET_FORMAT, SDI_RX_CTL, SDI_RX_CTL_MAX_CLASS, SDI_RX_STAT, SDI_RX_STAT_LEVEL_B, SDI_RX_STAT_RATE, SDI_RX_STAT_STATE, Reg.fld, List.mem_cons, List.not_mem_nil, or_false, or_true, true_or] <;> omega)))
    | (with_reducible apply Chip.judgeSrc_within; (case hp => decide); (case ht => decide))
    | (with_reducible apply Chip.setSdiLane_within; (case hp => decide); (case ht => decide))
    | (with_reducible apply Chip.setSrc_within; (case hp => decide); (case ht => decide))
    | assumption
    | omega
    | (simp only [domSdiRx]; omega)
    | (with_reducible apply Chip.rd_lt_of; simp only [FSY_SRC_STAT, FSY_SRC_STAT_DET_FORMAT, SDI_RX_CTL, SDI_RX_CTL_MAX_CLASS, SDI_RX_STAT, SDI_RX_STAT_LEVEL_B, SDI_RX_STAT_RATE, SDI_RX_STAT_STATE, Reg.fld, List.mem_cons, List.not_mem_nil, or_false, or_true, true_or] <;> decide)
    | split
    | (simp only [FSY_SRC_STAT, FSY_SRC_STAT_DET_FORMAT, SDI_RX_CTL, SDI_RX_CTL_MAX_CLASS, SDI_RX_STAT, SDI_RX_STAT_LEVEL_B, SDI_RX_STAT_RATE, SDI_RX_STAT_STATE, Reg.fld, List.mem_cons, List.not_mem_nil, or_false, or_true, true_or] <;> omega))

theorem Chip.huntNext_within {P : List Nat} {T : List Part} {c₀ c : Chip} {n : Nat} (hw0 : Chip.Within P T c₀ c)
    (hp : [].all P.contains = true) (ht : ([.sdi] : List Part).all T.contains = true) : Chip.Within P T c₀ (c.huntNext n) := by
  refine Chip.Within.within hw0 hp ht ?_
  clear hw0 hp ht
  unfold Chip.huntNext
  repeat' (first
    | with_reducible exact Chip.Within.refl
    | dsimp only
    | (with_reducible apply Chip.setSdiLane_within; (case hp => decide); (case ht => decide))
    | assumption
    | omega
    | (with_reducible apply Chip.rd_lt_of; simp only [SDI_RX_CTL, SDI_RX_CTL_MAX_CLASS, Reg.fld, List.mem_cons, List.not_mem_nil, or_false, or_true, true_or] <;> decide)
    | split
    | (simp only [SDI_RX_CTL, SDI_RX_CTL_MAX_CLASS, Reg.fld, List.mem_cons, List.not_mem_nil, or_false, or_true, true_or] <;> omega))

theorem Chip.rxLock_within {P : List Nat} {T : List Part} {c₀ c : Chip} {n rate : Nat} {levelB : Bool} (hb_n : n < 48) (hw0 : Chip.Within P T c₀ c)
    (hp : [1, 8, 12, 32, 64].all P.contains = true) (ht : ([.srcs] : List Part).all T.contains = true) : Chip.Within P T c₀ (c.rxLock n rate levelB) := by
  refine Chip.Within.within hw0 hp ht ?_
  clear hw0 hp ht
  unfold Chip.rxLock
  repeat' (first
    | with_reducible exact Chip.Within.refl
    | dsimp only
    | (with_reducible apply Chip.Within.set; (case hr => first | assumption | (simp only [SDI_RX_CTL, SDI_RX_CTL_CARRIER_GATE, SDI_RX_LOCKS, SDI_RX_LOCKS_LOCKS, SDI_RX_STAT, SDI_RX_STAT_CARRIER, SDI_RX_STAT_LEVEL_B, SDI_RX_STAT_RATE, SDI_RX_STAT_STATE, SDI_STATUS, SDI_STATUS_LOCK, Reg.fld, List.mem_cons, List.not_mem_nil, or_false, or_true, true_or] <;> omega)))
    | (with_reducible apply Chip.Within.wr; (case hr => first | assumption | (simp only [SDI_RX_CTL, SDI_RX_CTL_CARRIER_GATE, SDI_RX_LOCKS, SDI_RX_LOCKS_LOCKS, SDI_RX_STAT, SDI_RX_STAT_CARRIER, SDI_RX_STAT_LEVEL_B, SDI_RX_STAT_RATE, SDI_RX_STAT_STATE, SDI_STATUS, SDI_STATUS_LOCK, Reg.fld, List.mem_cons, List.not_mem_nil, or_false, or_true, true_or] <;> omega)))
    | (with_reducible apply Chip.Within.wrB; (case hr => first | assumption | (simp only [SDI_RX_CTL, SDI_RX_CTL_CARRIER_GATE, SDI_RX_LOCKS, SDI_RX_LOCKS_LOCKS, SDI_RX_STAT, SDI_RX_STAT_CARRIER, SDI_RX_STAT_LEVEL_B, SDI_RX_STAT_RATE, SDI_RX_STAT_STATE, SDI_STATUS, SDI_STATUS_LOCK, Reg.fld, List.mem_cons, List.not_mem_nil, or_false, or_true, true_or] <;> omega)))
    | (with_reducible apply Chip.Within.inc; (case hr => first | assumption | (simp only [SDI_RX_CTL, SDI_RX_CTL_CARRIER_GATE, SDI_RX_LOCKS, SDI_RX_LOCKS_LOCKS, SDI_RX_STAT, SDI_RX_STAT_CARRIER, SDI_RX_STAT_LEVEL_B, SDI_RX_STAT_RATE, SDI_RX_STAT_STATE, SDI_STATUS, SDI_STATUS_LOCK, Reg.fld, List.mem_cons, List.not_mem_nil, or_false, or_true, true_or] <;> omega)))
    | (with_reducible apply Chip.judgeSrc_within; (case hp => decide); (case ht => decide))
    | (with_reducible apply Chip.Within.post; (case hm => decide))
    | assumption
    | omega
    | split
    | (simp only [SDI_RX_CTL, SDI_RX_CTL_CARRIER_GATE, SDI_RX_LOCKS, SDI_RX_LOCKS_LOCKS, SDI_RX_STAT, SDI_RX_STAT_CARRIER, SDI_RX_STAT_LEVEL_B, SDI_RX_STAT_RATE, SDI_RX_STAT_STATE, SDI_STATUS, SDI_STATUS_LOCK, Reg.fld, List.mem_cons, List.not_mem_nil, or_false, or_true, true_or] <;> omega))

theorem Chip.rxLos_within {P : List Nat} {T : List Part} {c₀ c : Chip} {n : Nat} (hb_n : n < 48) (hw0 : Chip.Within P T c₀ c)
    (hp : [1, 8, 12, 32, 64].all P.contains = true) (ht : ([.sdi, .srcs] : List Part).all T.contains = true) : Chip.Within P T c₀ (c.rxLos n) := by
  refine Chip.Within.within hw0 hp ht ?_
  clear hw0 hp ht
  unfold Chip.rxLos
  repeat' (first
    | with_reducible exact Chip.Within.refl
    | dsimp only
    | (with_reducible apply Chip.Within.set; (case hr => first | assumption | (simp only [SDI_RX_LOCKS, SDI_RX_LOCKS_LOS, SDI_RX_STAT, SDI_RX_STAT_LOS_SEEN, SDI_STATUS, SDI_STATUS_LOS, Reg.fld, List.mem_cons, List.not_mem_nil, or_false, or_true, true_or] <;> omega)))
    | (with_reducible apply Chip.Within.inc; (case hr => first | assumption | (simp only [SDI_RX_LOCKS, SDI_RX_LOCKS_LOS, SDI_RX_STAT, SDI_RX_STAT_LOS_SEEN, SDI_STATUS, SDI_STATUS_LOS, Reg.fld, List.mem_cons, List.not_mem_nil, or_false, or_true, true_or] <;> omega)))
    | (with_reducible apply Chip.rxHunt_within; (case hp => decide); (case ht => decide))
    | (with_reducible apply Chip.Within.post; (case hm => decide))
    | assumption
    | omega
    | (with_reducible apply Chip.rd_lt_of; simp only [SDI_RX_LOCKS, SDI_RX_LOCKS_LOS, SDI_RX_STAT, SDI_RX_STAT_LOS_SEEN, SDI_STATUS, SDI_STATUS_LOS, Reg.fld, List.mem_cons, List.not_mem_nil, or_false, or_true, true_or] <;> decide)
    | split
    | (simp only [SDI_RX_LOCKS, SDI_RX_LOCKS_LOS, SDI_RX_STAT, SDI_RX_STAT_LOS_SEEN, SDI_STATUS, SDI_STATUS_LOS, Reg.fld, List.mem_cons, List.not_mem_nil, or_false, or_true, true_or] <;> omega))

theorem Chip.cdrMargins_within {P : List Nat} {T : List Part} {c₀ c : Chip} {low : Nat} (hw0 : Chip.Within P T c₀ c)
    (hp : [32].all P.contains = true) (ht : ([] : List Part).all T.contains = true) : Chip.Within P T c₀ (c.cdrMargins low) := by
  refine Chip.Within.within hw0 hp ht ?_
  clear hw0 hp ht
  unfold Chip.cdrMargins
  repeat' (first
    | with_reducible exact Chip.Within.refl
    | dsimp only
    | (with_reducible apply Chip.Within.set; (case hr => first | assumption | (simp only [SDI_RX_STAT, SDI_RX_STAT_CDR_MARGIN_LOW, SDI_STATUS, SDI_STATUS_CDR_MARGIN_LOW, Reg.fld, List.mem_cons, List.not_mem_nil, or_false, or_true, true_or] <;> omega)))
    | with_reducible apply Chip.Within.each
    | (intro y a ha; (try simp only [List.mem_range, List.mem_filter, List.mem_map, List.mem_flatMap, List.mem_cons, List.not_mem_nil, or_false, Bool.and_eq_true, decide_eq_true_eq, beq_iff_eq, Chip.planesOf] at ha); (first | (have hb := Nat.lt_of_lt_of_le ha (Nat.le_refl _)) | (have hb := Chip.mem_groupOf (by first | assumption | omega | (with_reducible apply Chip.leadOf_lt; first | assumption | omega)) ha) | (have hb := Chip.mem_destsOf ha) | (have hb := Chip.mem_routed ha) | (obtain ⟨i, hi, hd⟩ := ha; have hb := Chip.mem_destsOf hd) | (obtain ⟨hi, hj⟩ := ha; have hb : a ≤ 1 := by omega) | (obtain ⟨i, hi, rfl⟩ := ha) | (obtain ⟨hi, hj⟩ := ha; first | (have hb := Chip.mem_destsOf hi) | (have hb := Nat.lt_of_lt_of_le hi (Nat.le_refl _)) | skip) | skip))
    | assumption
    | omega
    | split
    | (simp only [SDI_RX_STAT, SDI_RX_STAT_CDR_MARGIN_LOW, SDI_STATUS, SDI_STATUS_CDR_MARGIN_LOW, Reg.fld, List.mem_cons, List.not_mem_nil, or_false, or_true, true_or] <;> omega))

theorem Chip.lineCheck_within {P : List Nat} {T : List Part} {c₀ c : Chip} {n : Nat} {error noEdh : Bool} (hb_n : n < 48) (hw0 : Chip.Within P T c₀ c)
    (hp : [32].all P.contains = true) (ht : ([.srcs] : List Part).all T.contains = true) : Chip.Within P T c₀ (c.lineCheck n error noEdh) := by
  refine Chip.Within.within hw0 hp ht ?_
  clear hw0 hp ht
  unfold Chip.lineCheck
  repeat' (first
    | with_reducible exact Chip.Within.refl
    | dsimp only
    | (with_reducible apply Chip.Within.set; (case hr => first | assumption | (simp only [SDI_RX_CRC, SDI_RX_CRC_COUNT, SDI_RX_STAT, SDI_RX_STAT_CRC_SEEN, SDI_RX_STAT_EDH_ABSENT, SDI_RX_STAT_RATE, SDI_STATUS, SDI_STATUS_CRC, Reg.fld, List.mem_cons, List.not_mem_nil, or_false, or_true, true_or] <;> omega)))
    | (with_reducible apply Chip.Within.inc; (case hr => first | assumption | (simp only [SDI_RX_CRC, SDI_RX_CRC_COUNT, SDI_RX_STAT, SDI_RX_STAT_CRC_SEEN, SDI_RX_STAT_EDH_ABSENT, SDI_RX_STAT_RATE, SDI_STATUS, SDI_STATUS_CRC, Reg.fld, List.mem_cons, List.not_mem_nil, or_false, or_true, true_or] <;> omega)))
    | (with_reducible apply Chip.setSrc_within; (case hp => decide); (case ht => decide))
    | with_reducible apply Chip.Within.when'
    | assumption
    | intro y
    | omega
    | (with_reducible apply Chip.rd_lt_of; simp only [SDI_RX_CRC, SDI_RX_CRC_COUNT, SDI_RX_STAT, SDI_RX_STAT_CRC_SEEN, SDI_RX_STAT_EDH_ABSENT, SDI_RX_STAT_RATE, SDI_STATUS, SDI_STATUS_CRC, Reg.fld, List.mem_cons, List.not_mem_nil, or_false, or_true, true_or] <;> decide)
    | split
    | (simp only [SDI_RX_CRC, SDI_RX_CRC_COUNT, SDI_RX_STAT, SDI_RX_STAT_CRC_SEEN, SDI_RX_STAT_EDH_ABSENT, SDI_RX_STAT_RATE, SDI_STATUS, SDI_STATUS_CRC, Reg.fld, List.mem_cons, List.not_mem_nil, or_false, or_true, true_or] <;> omega))

theorem Chip.ancCapture_within {P : List Nat} {T : List Part} {c₀ c : Chip} {n : Nat} {pid : Option Nat} {kind tc badGroups : Nat} (hb_n : n < 48) (hw0 : Chip.Within P T c₀ c)
    (hp : [1, 32].all P.contains = true) (ht : ([.sdi] : List Part).all T.contains = true) : Chip.Within P T c₀ (c.ancCapture n pid kind tc badGroups) := by
  refine Chip.Within.within hw0 hp ht ?_
  clear hw0 hp ht
  unfold Chip.ancCapture
  repeat' (first
    | with_reducible exact Chip.Within.refl
    | dsimp only
    | (with_reducible apply Chip.Within.set; (case hr => first | assumption | (simp only [SDI_RX_PID, SDI_RX_STAT, SDI_RX_STAT_AUD_UNSUPPORTED, SDI_RX_STAT_PID_VALID, SDI_RX_STAT_TC_KIND, SDI_RX_TC, SDI_STATUS, SDI_STATUS_AUD_UNSUPPORTED, Reg.fld, List.mem_cons, List.not_mem_nil, or_false, or_true, true_or] <;> omega)))
    | (with_reducible apply Chip.Within.clr; (case hr => first | assumption | (simp only [SDI_RX_PID, SDI_RX_STAT, SDI_RX_STAT_AUD_UNSUPPORTED, SDI_RX_STAT_PID_VALID, SDI_RX_STAT_TC_KIND, SDI_RX_TC, SDI_STATUS, SDI_STATUS_AUD_UNSUPPORTED, Reg.fld, List.mem_cons, List.not_mem_nil, or_false, or_true, true_or] <;> omega)))
    | (with_reducible apply Chip.Within.wr; (case hr => first | assumption | (simp only [SDI_RX_PID, SDI_RX_STAT, SDI_RX_STAT_AUD_UNSUPPORTED, SDI_RX_STAT_PID_VALID, SDI_RX_STAT_TC_KIND, SDI_RX_TC, SDI_STATUS, SDI_STATUS_AUD_UNSUPPORTED, Reg.fld, List.mem_cons, List.not_mem_nil, or_false, or_true, true_or] <;> omega)))
    | (with_reducible apply Chip.Within.put; (case hr => first | assumption | (simp only [SDI_RX_PID, SDI_RX_STAT, SDI_RX_STAT_AUD_UNSUPPORTED, SDI_RX_STAT_PID_VALID, SDI_RX_STAT_TC_KIND, SDI_RX_TC, SDI_STATUS, SDI_STATUS_AUD_UNSUPPORTED, Reg.fld, List.mem_cons, List.not_mem_nil, or_false, or_true, true_or] <;> omega)))
    | (with_reducible apply Chip.setSdiLane_within; (case hp => decide); (case ht => decide))
    | with_reducible apply Chip.Within.when'
    | (with_reducible apply Chip.Within.post; (case hm => decide))
    | assumption
    | intro y
    | omega
    | split
    | (simp only [SDI_RX_PID, SDI_RX_STAT, SDI_RX_STAT_AUD_UNSUPPORTED, SDI_RX_STAT_PID_VALID, SDI_RX_STAT_TC_KIND, SDI_RX_TC, SDI_STATUS, SDI_STATUS_AUD_UNSUPPORTED, Reg.fld, List.mem_cons, List.not_mem_nil, or_false, or_true, true_or] <;> omega))

theorem Chip.faultCode_within {P : List Nat} {T : List Part} {c₀ c : Chip} {n code : Nat} (hb_n : n < 48) (hw0 : Chip.Within P T c₀ c)
    (hp : [1, 32].all P.contains = true) (ht : ([] : List Part).all T.contains = true) : Chip.Within P T c₀ (c.faultCode n code) := by
  refine Chip.Within.within hw0 hp ht ?_
  clear hw0 hp ht
  unfold Chip.faultCode
  repeat' (first
    | with_reducible exact Chip.Within.refl
    | dsimp only
    | (with_reducible apply Chip.Within.set; (case hr => first | assumption | (simp only [SDI_STATUS, SDI_STATUS_NO_REPORT, SDI_STATUS_TX_FAULT, SDI_TX_STAT, SDI_TX_STAT_FAULT, SDI_TX_STAT_NO_REPORT_SEEN, SDI_TX_STAT_OPEN_SEEN, SDI_TX_STAT_SHORT_SEEN, Reg.fld, List.mem_cons, List.not_mem_nil, or_false, or_true, true_or] <;> omega)))
    | (with_reducible apply Chip.Within.wr; (case hr => first | assumption | (simp only [SDI_STATUS, SDI_STATUS_NO_REPORT, SDI_STATUS_TX_FAULT, SDI_TX_STAT, SDI_TX_STAT_FAULT, SDI_TX_STAT_NO_REPORT_SEEN, SDI_TX_STAT_OPEN_SEEN, SDI_TX_STAT_SHORT_SEEN, Reg.fld, List.mem_cons, List.not_mem_nil, or_false, or_true, true_or] <;> omega)))
    | (with_reducible apply Chip.Within.post; (case hm => decide))
    | assumption
    | omega
    | (with_reducible apply Chip.rd_lt_of; simp only [SDI_STATUS, SDI_STATUS_NO_REPORT, SDI_STATUS_TX_FAULT, SDI_TX_STAT, SDI_TX_STAT_FAULT, SDI_TX_STAT_NO_REPORT_SEEN, SDI_TX_STAT_OPEN_SEEN, SDI_TX_STAT_SHORT_SEEN, Reg.fld, List.mem_cons, List.not_mem_nil, or_false, or_true, true_or] <;> decide)
    | split
    | (simp only [SDI_STATUS, SDI_STATUS_NO_REPORT, SDI_STATUS_TX_FAULT, SDI_TX_STAT, SDI_TX_STAT_FAULT, SDI_TX_STAT_NO_REPORT_SEEN, SDI_TX_STAT_OPEN_SEEN, SDI_TX_STAT_SHORT_SEEN, Reg.fld, List.mem_cons, List.not_mem_nil, or_false, or_true, true_or] <;> omega))

theorem Chip.carrierBit_within {P : List Nat} {T : List Part} {c₀ c : Chip} {n : Nat} {present : Bool} (hb_n : n < 48) (hw0 : Chip.Within P T c₀ c)
    (hp : [1, 8, 12, 32, 64].all P.contains = true) (ht : ([.sdi, .srcs] : List Part).all T.contains = true) : Chip.Within P T c₀ (c.carrierBit n present) := by
  refine Chip.Within.within hw0 hp ht ?_
  clear hw0 hp ht
  unfold Chip.carrierBit
  repeat' (first
    | with_reducible exact Chip.Within.refl
    | dsimp only
    | (with_reducible apply Chip.Within.wrB; (case hr => first | assumption | (simp only [SDI_RX_CTL, SDI_RX_CTL_CARRIER_GATE, SDI_RX_STAT, SDI_RX_STAT_CARRIER, Reg.fld, List.mem_cons, List.not_mem_nil, or_false, or_true, true_or] <;> omega)))
    | (with_reducible apply Chip.rxLos_within; (case hp => decide); (case ht => decide))
    | assumption
    | omega
    | split
    | (simp only [SDI_RX_CTL, SDI_RX_CTL_CARRIER_GATE, SDI_RX_STAT, SDI_RX_STAT_CARRIER, Reg.fld, List.mem_cons, List.not_mem_nil, or_false, or_true, true_or] <;> omega))

theorem Chip.scanFrame_within {P : List Nat} {T : List Part} {c₀ c : Chip} {v : Nat} (hw0 : Chip.Within P T c₀ c)
    (hp : [1, 8, 12, 32, 64].all P.contains = true) (ht : ([.pwr, .sdi, .srcs] : List Part).all T.contains = true) : Chip.Within P T c₀ (c.scanFrame v) := by
  refine Chip.Within.within hw0 hp ht ?_
  clear hw0 hp ht
  unfold Chip.scanFrame
  repeat' (first
    | with_reducible exact Chip.Within.refl
    | dsimp only
    | (with_reducible apply Chip.carrierBit_within; (case hp => decide); (case ht => decide))
    | (with_reducible apply Chip.faultCode_within; (case hp => decide); (case ht => decide))
    | (fail_if_no_progress (with_reducible apply Chip.Within.to_pwr; (case hk => decide)))
    | with_reducible apply Chip.Within.each
    | (intro y a ha; (try simp only [List.mem_range, List.mem_filter, List.mem_map, List.mem_flatMap, List.mem_cons, List.not_mem_nil, or_false, Bool.and_eq_true, decide_eq_true_eq, beq_iff_eq, Chip.planesOf] at ha); (first | (have hb := Nat.lt_of_lt_of_le ha (Nat.le_refl _)) | (have hb := Chip.mem_groupOf (by first | assumption | omega | (with_reducible apply Chip.leadOf_lt; first | assumption | omega)) ha) | (have hb := Chip.mem_destsOf ha) | (have hb := Chip.mem_routed ha) | (obtain ⟨i, hi, hd⟩ := ha; have hb := Chip.mem_destsOf hd) | (obtain ⟨hi, hj⟩ := ha; have hb : a ≤ 1 := by omega) | (obtain ⟨i, hi, rfl⟩ := ha) | (obtain ⟨hi, hj⟩ := ha; first | (have hb := Chip.mem_destsOf hi) | (have hb := Nat.lt_of_lt_of_le hi (Nat.le_refl _)) | skip) | skip))
    | assumption
    | omega
    | (with_reducible apply Chip.bits_lt_of; decide)
    | split
    | (simp only [Reg.fld, List.mem_cons, List.not_mem_nil, or_false, or_true, true_or] <;> omega))


theorem Chip.setLane_within {P : List Nat} {T : List Part} {c₀ c : Chip} {n : Nat} {x : FabLane} (hw0 : Chip.Within P T c₀ c)
    (hp : [].all P.contains = true) (ht : ([.lanes] : List Part).all T.contains = true) : Chip.Within P T c₀ (c.setLane n x) := by
  refine Chip.Within.within hw0 hp ht ?_
  clear hw0 hp ht
  unfold Chip.setLane
  repeat' (first
    | with_reducible exact Chip.Within.refl
    | dsimp only
    | (fail_if_no_progress (with_reducible apply Chip.Within.to_lanes; (case hk => decide)))
    | assumption
    | omega
    | (simp only [Reg.fld, List.mem_cons, List.not_mem_nil, or_false, or_true, true_or] <;> omega))

theorem Chip.lnSummary_within {P : List Nat} {T : List Part} {c₀ c : Chip} {n i : Nat} (hb_n : n < 50) (hw0 : Chip.Within P T c₀ c)
    (hp : [48, 112].all P.contains = true) (ht : ([] : List Part).all T.contains = true) : Chip.Within P T c₀ (c.lnSummary n i) := by
  refine Chip.Within.within hw0 hp ht ?_
  clear hw0 hp ht
  unfold Chip.lnSummary
  repeat' (first
    | with_reducible exact Chip.Within.refl
    | dsimp only
    | (with_reducible apply Chip.Within.set; (case hr => first | assumption | (simp only [FAB_LN_SUMMARY, TWN_STATUS, TWN_STATUS_LANE_FAILED, Reg.fld, List.mem_cons, List.not_mem_nil, or_false, or_true, true_or] <;> omega)))
    | assumption
    | omega
    | split
    | (simp only [FAB_LN_SUMMARY, TWN_STATUS, TWN_STATUS_LANE_FAILED, Reg.fld, List.mem_cons, List.not_mem_nil, or_false, or_true, true_or] <;> omega))

theorem Chip.lnPost_within {P : List Nat} {T : List Part} {c₀ c : Chip} {n code arg : Nat} (hb_n : n < 50) (hw0 : Chip.Within P T c₀ c)
    (hp : [1].all P.contains = true) (ht : ([] : List Part).all T.contains = true) : Chip.Within P T c₀ (c.lnPost n code arg) := by
  refine Chip.Within.within hw0 hp ht ?_
  clear hw0 hp ht
  unfold Chip.lnPost
  repeat' (first
    | with_reducible exact Chip.Within.refl
    | dsimp only
    | (with_reducible apply Chip.Within.post; (case hm => decide))
    | assumption
    | omega
    | split
    | (simp only [Reg.fld, List.mem_cons, List.not_mem_nil, or_false, or_true, true_or] <;> omega))

theorem Chip.lnForget_within {P : List Nat} {T : List Part} {c₀ c : Chip} {n : Nat} (hw0 : Chip.Within P T c₀ c)
    (hp : [].all P.contains = true) (ht : ([.lanes] : List Part).all T.contains = true) : Chip.Within P T c₀ (c.lnForget n) := by
  refine Chip.Within.within hw0 hp ht ?_
  clear hw0 hp ht
  unfold Chip.lnForget
  repeat' (first
    | with_reducible exact Chip.Within.refl
    | dsimp only
    | (with_reducible apply Chip.setLane_within; (case hp => decide); (case ht => decide))
    | assumption
    | omega
    | (simp only [Reg.fld, List.mem_cons, List.not_mem_nil, or_false, or_true, true_or] <;> omega))

theorem Chip.lnLnr_within {P : List Nat} {T : List Part} {c₀ c : Chip} {n : Nat} (hb_n : n < 50) (hw0 : Chip.Within P T c₀ c)
    (hp : [48, 112].all P.contains = true) (ht : ([.lanes] : List Part).all T.contains = true) : Chip.Within P T c₀ (c.lnLnr n) := by
  refine Chip.Within.within hw0 hp ht ?_
  clear hw0 hp ht
  unfold Chip.lnLnr
  repeat' (first
    | with_reducible exact Chip.Within.refl
    | dsimp only
    | (with_reducible apply Chip.Within.set; (case hr => first | assumption | (simp only [FAB_LN_TEST, FAB_LN_TEST_CHK_SYNC, FAB_STATUS, FAB_STATUS_DEFAULTS_RESTORED, TWN_STATUS, TWN_STATUS_DEFAULTS_RESTORED, Reg.fld, List.mem_cons, List.not_mem_nil, or_false, or_true, true_or] <;> omega) | (refine Chip.ln_pages (n := n) (by omega) ?_ (by decide); simp [lnCfg, lnStat, lnEq, lnEye, lnErr, lnTrain, lnState, lnPolInv, lnSignal, lnAccepted, lnPeak, lnGain, Reg.fld]; done) | (refine Chip.ln_pages (n := a) (by omega) ?_ (by decide); simp [lnCfg, lnStat, lnEq, lnEye, lnErr, lnTrain, lnState, lnPolInv, lnSignal, lnAccepted, lnPeak, lnGain, Reg.fld]; done) | (split <;> (simp only [FAB_LN_TEST, FAB_LN_TEST_CHK_SYNC, FAB_STATUS, FAB_STATUS_DEFAULTS_RESTORED, TWN_STATUS, TWN_STATUS_DEFAULTS_RESTORED, Reg.fld, List.mem_cons, List.not_mem_nil, or_false, or_true, true_or] <;> omega))))
    | (with_reducible apply Chip.Within.clr; (case hr => first | assumption | (simp only [FAB_LN_TEST, FAB_LN_TEST_CHK_SYNC, FAB_STATUS, FAB_STATUS_DEFAULTS_RESTORED, TWN_STATUS, TWN_STATUS_DEFAULTS_RESTORED, Reg.fld, List.mem_cons, List.not_mem_nil, or_false, or_true, true_or] <;> omega) | (refine Chip.ln_pages (n := n) (by omega) ?_ (by decide); simp [lnCfg, lnStat, lnEq, lnEye, lnErr, lnTrain, lnState, lnPolInv, lnSignal, lnAccepted, lnPeak, lnGain, Reg.fld]; done) | (refine Chip.ln_pages (n := a) (by omega) ?_ (by decide); simp [lnCfg, lnStat, lnEq, lnEye, lnErr, lnTrain, lnState, lnPolInv, lnSignal, lnAccepted, lnPeak, lnGain, Reg.fld]; done) | (split <;> (simp only [FAB_LN_TEST, FAB_LN_TEST_CHK_SYNC, FAB_STATUS, FAB_STATUS_DEFAULTS_RESTORED, TWN_STATUS, TWN_STATUS_DEFAULTS_RESTORED, Reg.fld, List.mem_cons, List.not_mem_nil, or_false, or_true, true_or] <;> omega))))
    | (with_reducible apply Chip.Within.wr; (case hr => first | assumption | (simp only [FAB_LN_TEST, FAB_LN_TEST_CHK_SYNC, FAB_STATUS, FAB_STATUS_DEFAULTS_RESTORED, TWN_STATUS, TWN_STATUS_DEFAULTS_RESTORED, Reg.fld, List.mem_cons, List.not_mem_nil, or_false, or_true, true_or] <;> omega) | (refine Chip.ln_pages (n := n) (by omega) ?_ (by decide); simp [lnCfg, lnStat, lnEq, lnEye, lnErr, lnTrain, lnState, lnPolInv, lnSignal, lnAccepted, lnPeak, lnGain, Reg.fld]; done) | (refine Chip.ln_pages (n := a) (by omega) ?_ (by decide); simp [lnCfg, lnStat, lnEq, lnEye, lnErr, lnTrain, lnState, lnPolInv, lnSignal, lnAccepted, lnPeak, lnGain, Reg.fld]; done) | (split <;> (simp only [FAB_LN_TEST, FAB_LN_TEST_CHK_SYNC, FAB_STATUS, FAB_STATUS_DEFAULTS_RESTORED, TWN_STATUS, TWN_STATUS_DEFAULTS_RESTORED, Reg.fld, List.mem_cons, List.not_mem_nil, or_false, or_true, true_or] <;> omega))))
    | (with_reducible apply Chip.Within.put; (case hr => first | assumption | (simp only [FAB_LN_TEST, FAB_LN_TEST_CHK_SYNC, FAB_STATUS, FAB_STATUS_DEFAULTS_RESTORED, TWN_STATUS, TWN_STATUS_DEFAULTS_RESTORED, Reg.fld, List.mem_cons, List.not_mem_nil, or_false, or_true, true_or] <;> omega) | (refine Chip.ln_pages (n := n) (by omega) ?_ (by decide); simp [lnCfg, lnStat, lnEq, lnEye, lnErr, lnTrain, lnState, lnPolInv, lnSignal, lnAccepted, lnPeak, lnGain, Reg.fld]; done) | (refine Chip.ln_pages (n := a) (by omega) ?_ (by decide); simp [lnCfg, lnStat, lnEq, lnEye, lnErr, lnTrain, lnState, lnPolInv, lnSignal, lnAccepted, lnPeak, lnGain, Reg.fld]; done) | (split <;> (simp only [FAB_LN_TEST, FAB_LN_TEST_CHK_SYNC, FAB_STATUS, FAB_STATUS_DEFAULTS_RESTORED, TWN_STATUS, TWN_STATUS_DEFAULTS_RESTORED, Reg.fld, List.mem_cons, List.not_mem_nil, or_false, or_true, true_or] <;> omega))))
    | (with_reducible apply Chip.lnForget_within; (case hp => decide); (case ht => decide))
    | (with_reducible apply Chip.setLane_within; (case hp => decide); (case ht => decide))
    | with_reducible apply Chip.Within.when'
    | assumption
    | intro y
    | omega
    | split
    | (simp only [FAB_LN_TEST, FAB_LN_TEST_CHK_SYNC, FAB_STATUS, FAB_STATUS_DEFAULTS_RESTORED, TWN_STATUS, TWN_STATUS_DEFAULTS_RESTORED, Reg.fld, List.mem_cons, List.not_mem_nil, or_false, or_true, true_or] <;> omega))

theorem Chip.lnTrainStart_within {P : List Nat} {T : List Part} {c₀ c : Chip} {n : Nat} {lnr : Bool} (hb_n : n < 50) (hw0 : Chip.Within P T c₀ c)
    (hp : [48, 112].all P.contains = true) (ht : ([.lanes] : List Part).all T.contains = true) : Chip.Within P T c₀ (c.lnTrainStart n lnr) := by
  refine Chip.Within.within hw0 hp ht ?_
  clear hw0 hp ht
  unfold Chip.lnTrainStart
  repeat' (first
    | with_reducible exact Chip.Within.refl
    | dsimp only
    | (with_reducible apply Chip.Within.wr; (case hr => first | assumption | (simp only [Reg.fld, List.mem_cons, List.not_mem_nil, or_false, or_true, true_or] <;> omega) | (refine Chip.ln_pages (n := n) (by omega) ?_ (by decide); simp [lnCfg, lnStat, lnEq, lnEye, lnErr, lnTrain, lnState, lnPolInv, lnSignal, lnAccepted, lnPeak, lnGain, Reg.fld]; done) | (refine Chip.ln_pages (n := a) (by omega) ?_ (by decide); simp [lnCfg, lnStat, lnEq, lnEye, lnErr, lnTrain, lnState, lnPolInv, lnSignal, lnAccepted, lnPeak, lnGain, Reg.fld]; done)))
    | (with_reducible apply Chip.Within.inc; (case hr => first | assumption | (simp only [Reg.fld, List.mem_cons, List.not_mem_nil, or_false, or_true, true_or] <;> omega) | (refine Chip.ln_pages (n := n) (by omega) ?_ (by decide); simp [lnCfg, lnStat, lnEq, lnEye, lnErr, lnTrain, lnState, lnPolInv, lnSignal, lnAccepted, lnPeak, lnGain, Reg.fld]; done) | (refine Chip.ln_pages (n := a) (by omega) ?_ (by decide); simp [lnCfg, lnStat, lnEq, lnEye, lnErr, lnTrain, lnState, lnPolInv, lnSignal, lnAccepted, lnPeak, lnGain, Reg.fld]; done)))
    | (with_reducible apply Chip.lnForget_within; (case hp => decide); (case ht => decide))
    | (with_reducible apply Chip.lnLnr_within; (case hp => decide); (case ht => decide))
    | (with_reducible apply Chip.setLane_within; (case hp => decide); (case ht => decide))
    | with_reducible apply Chip.Within.when'
    | assumption
    | intro y
    | omega
    | split
    | (simp only [Reg.fld, List.mem_cons, List.not_mem_nil, or_false, or_true, true_or] <;> omega))

theorem Chip.lnTrainedNow_within {P : List Nat} {T : List Part} {c₀ c : Chip} {n height : Nat} (hb_n : n < 50) (hw0 : Chip.Within P T c₀ c)
    (hp : [1, 48, 112].all P.contains = true) (ht : ([] : List Part).all T.contains = true) : Chip.Within P T c₀ (c.lnTrainedNow n height) := by
  refine Chip.Within.within hw0 hp ht ?_
  clear hw0 hp ht
  unfold Chip.lnTrainedNow
  repeat' (first
    | with_reducible exact Chip.Within.refl
    | dsimp only
    | (with_reducible apply Chip.Within.wr; (case hr => first | assumption | (simp only [FAB_LN_EYE, FAB_LN_TRAIN, TWN_LN_EYE, TWN_LN_TRAIN, lnEye, lnGain, lnPeak, lnState, lnTrain, Reg.fld, List.mem_cons, List.not_mem_nil, or_false, or_true, true_or] <;> omega) | (refine Chip.ln_pages (n := n) (by omega) ?_ (by decide); simp [lnCfg, lnStat, lnEq, lnEye, lnErr, lnTrain, lnState, lnPolInv, lnSignal, lnAccepted, lnPeak, lnGain, Reg.fld]; done) | (refine Chip.ln_pages (n := a) (by omega) ?_ (by decide); simp [lnCfg, lnStat, lnEq, lnEye, lnErr, lnTrain, lnState, lnPolInv, lnSignal, lnAccepted, lnPeak, lnGain, Reg.fld]; done)))
    | (with_reducible apply Chip.lnPost_within; (case hp => decide); (case ht => decide))
    | assumption
    | omega
    | with_reducible apply Chip.leadOf_lt
    | (with_reducible apply Chip.rd_lt_of; simp only [FAB_LN_EYE, FAB_LN_TRAIN, TWN_LN_EYE, TWN_LN_TRAIN, lnEye, lnGain, lnPeak, lnState, lnTrain, Reg.fld, List.mem_cons, List.not_mem_nil, or_false, or_true, true_or] <;> decide)
    | split
    | (simp only [FAB_LN_EYE, FAB_LN_TRAIN, TWN_LN_EYE, TWN_LN_TRAIN, lnEye, lnGain, lnPeak, lnState, lnTrain, Reg.fld, List.mem_cons, List.not_mem_nil, or_false, or_true, true_or] <;> omega)
    | (simp only [lnTrained] <;> omega)
    | (simp only [lnTrained, FAB_LN_EYE, FAB_LN_TRAIN, TWN_LN_EYE, TWN_LN_TRAIN, lnEye, lnGain, lnPeak, lnState, lnTrain, Reg.fld, List.mem_cons, List.not_mem_nil, or_false, or_true, true_or] <;> omega))

theorem Chip.lnPolarity_within {P : List Nat} {T : List Part} {c₀ c : Chip} {n : Nat} {inv : Bool} (hb_n : n < 50) (hw0 : Chip.Within P T c₀ c)
    (hp : [48, 112].all P.contains = true) (ht : ([.lanes] : List Part).all T.contains = true) : Chip.Within P T c₀ (c.lnPolarity n inv) := by
  refine Chip.Within.within hw0 hp ht ?_
  clear hw0 hp ht
  unfold Chip.lnPolarity
  repeat' (first
    | with_reducible exact Chip.Within.refl
    | dsimp only
    | (with_reducible apply Chip.Within.wrB; (case hr => first | assumption | (simp only [FAB_LN_STAT, TWN_LN_STAT, lnPolInv, lnStat, Reg.fld, List.mem_cons, List.not_mem_nil, or_false, or_true, true_or] <;> omega) | (refine Chip.ln_pages (n := n) (by omega) ?_ (by decide); simp [lnCfg, lnStat, lnEq, lnEye, lnErr, lnTrain, lnState, lnPolInv, lnSignal, lnAccepted, lnPeak, lnGain, Reg.fld]; done) | (refine Chip.ln_pages (n := a) (by omega) ?_ (by decide); simp [lnCfg, lnStat, lnEq, lnEye, lnErr, lnTrain, lnState, lnPolInv, lnSignal, lnAccepted, lnPeak, lnGain, Reg.fld]; done)))
    | (with_reducible apply Chip.Within.set; (case hr => first | assumption | (simp only [FAB_LN_STAT, TWN_LN_STAT, lnPolInv, lnStat, Reg.fld, List.mem_cons, List.not_mem_nil, or_false, or_true, true_or] <;> omega) | (refine Chip.ln_pages (n := n) (by omega) ?_ (by decide); simp [lnCfg, lnStat, lnEq, lnEye, lnErr, lnTrain, lnState, lnPolInv, lnSignal, lnAccepted, lnPeak, lnGain, Reg.fld]; done) | (refine Chip.ln_pages (n := a) (by omega) ?_ (by decide); simp [lnCfg, lnStat, lnEq, lnEye, lnErr, lnTrain, lnState, lnPolInv, lnSignal, lnAccepted, lnPeak, lnGain, Reg.fld]; done)))
    | (with_reducible apply Chip.lnSummary_within; (case hp => decide); (case ht => decide))
    | (with_reducible apply Chip.setLane_within; (case hp => decide); (case ht => decide))
    | with_reducible apply Chip.Within.when'
    | assumption
    | intro y
    | omega
    | with_reducible apply Chip.leadOf_lt
    | (with_reducible apply Chip.rd_lt_of; simp only [FAB_LN_STAT, TWN_LN_STAT, lnPolInv, lnStat, Reg.fld, List.mem_cons, List.not_mem_nil, or_false, or_true, true_or] <;> decide)
    | split
    | (simp only [FAB_LN_STAT, TWN_LN_STAT, lnPolInv, lnStat, Reg.fld, List.mem_cons, List.not_mem_nil, or_false, or_true, true_or] <;> omega))

theorem Chip.lnVerifyDone_within {P : List Nat} {T : List Part} {c₀ c : Chip} {n : Nat} {cdr block crc polInv : Bool} {height : Nat} (hb_n : n < 50) (hw0 : Chip.Within P T c₀ c)
    (hp : [1, 48, 112].all P.contains = true) (ht : ([.lanes] : List Part).all T.contains = true) : Chip.Within P T c₀ (c.lnVerifyDone n cdr block crc polInv height) := by
  refine Chip.Within.within hw0 hp ht ?_
  clear hw0 hp ht
  unfold Chip.lnVerifyDone
  repeat' (first
    | with_reducible exact Chip.Within.refl
    | dsimp only
    | (with_reducible apply Chip.Within.wr; (case hr => first | assumption | (simp only [FAB_LN_CFG, FAB_LN_STAT, TWN_LN_CFG, TWN_LN_STAT, lnCfg, lnSignal, lnStat, lnState, Reg.fld, List.mem_cons, List.not_mem_nil, or_false, or_true, true_or] <;> omega) | (refine Chip.ln_pages (n := n) (by omega) ?_ (by decide); simp [lnCfg, lnStat, lnEq, lnEye, lnErr, lnTrain, lnState, lnPolInv, lnSignal, lnAccepted, lnPeak, lnGain, Reg.fld]; done) | (refine Chip.ln_pages (n := a) (by omega) ?_ (by decide); simp [lnCfg, lnStat, lnEq, lnEye, lnErr, lnTrain, lnState, lnPolInv, lnSignal, lnAccepted, lnPeak, lnGain, Reg.fld]; done)))
    | (with_reducible apply Chip.Within.set; (case hr => first | assumption | (simp only [FAB_LN_CFG, FAB_LN_STAT, TWN_LN_CFG, TWN_LN_STAT, lnCfg, lnSignal, lnStat, lnState, Reg.fld, List.mem_cons, List.not_mem_nil, or_false, or_true, true_or] <;> omega) | (refine Chip.ln_pages (n := n) (by omega) ?_ (by decide); simp [lnCfg, lnStat, lnEq, lnEye, lnErr, lnTrain, lnState, lnPolInv, lnSignal, lnAccepted, lnPeak, lnGain, Reg.fld]; done) | (refine Chip.ln_pages (n := a) (by omega) ?_ (by decide); simp [lnCfg, lnStat, lnEq, lnEye, lnErr, lnTrain, lnState, lnPolInv, lnSignal, lnAccepted, lnPeak, lnGain, Reg.fld]; done)))
    | (with_reducible apply Chip.lnPolarity_within; (case hp => decide); (case ht => decide))
    | (with_reducible apply Chip.lnSummary_within; (case hp => decide); (case ht => decide))
    | (with_reducible apply Chip.lnTrainedNow_within; (case hp => decide); (case ht => decide))
    | with_reducible apply Chip.Within.when'
    | assumption
    | intro y
    | omega
    | with_reducible apply Chip.leadOf_lt
    | (with_reducible apply Chip.rd_lt_of; simp only [FAB_LN_CFG, FAB_LN_STAT, TWN_LN_CFG, TWN_LN_STAT, lnCfg, lnSignal, lnStat, lnState, Reg.fld, List.mem_cons, List.not_mem_nil, or_false, or_true, true_or] <;> decide)
    | split
    | (simp only [FAB_LN_CFG, FAB_LN_STAT, TWN_LN_CFG, TWN_LN_STAT, lnCfg, lnSignal, lnStat, lnState, Reg.fld, List.mem_cons, List.not_mem_nil, or_false, or_true, true_or] <;> omega)
    | (simp only [lnAcquire, lnSweep, lnVerify] <;> omega)
    | (simp only [lnAcquire, lnSweep, lnVerify, FAB_LN_CFG, FAB_LN_STAT, TWN_LN_CFG, TWN_LN_STAT, lnCfg, lnSignal, lnStat, lnState, Reg.fld, List.mem_cons, List.not_mem_nil, or_false, or_true, true_or] <;> omega))

theorem Chip.lnFail_within {P : List Nat} {T : List Part} {c₀ c : Chip} {n : Nat} (hb_n : n < 50) (hw0 : Chip.Within P T c₀ c)
    (hp : [1, 48, 112].all P.contains = true) (ht : ([] : List Part).all T.contains = true) : Chip.Within P T c₀ (c.lnFail n) := by
  refine Chip.Within.within hw0 hp ht ?_
  clear hw0 hp ht
  unfold Chip.lnFail
  repeat' (first
    | with_reducible exact Chip.Within.refl
    | dsimp only
    | (with_reducible apply Chip.Within.set; (case hr => first | assumption | (simp only [Reg.fld, List.mem_cons, List.not_mem_nil, or_false, or_true, true_or] <;> omega) | (refine Chip.ln_pages (n := n) (by omega) ?_ (by decide); simp [lnCfg, lnStat, lnEq, lnEye, lnErr, lnTrain, lnState, lnPolInv, lnSignal, lnAccepted, lnPeak, lnGain, Reg.fld]; done) | (refine Chip.ln_pages (n := a) (by omega) ?_ (by decide); simp [lnCfg, lnStat, lnEq, lnEye, lnErr, lnTrain, lnState, lnPolInv, lnSignal, lnAccepted, lnPeak, lnGain, Reg.fld]; done)))
    | (with_reducible apply Chip.Within.wr; (case hr => first | assumption | (simp only [Reg.fld, List.mem_cons, List.not_mem_nil, or_false, or_true, true_or] <;> omega) | (refine Chip.ln_pages (n := n) (by omega) ?_ (by decide); simp [lnCfg, lnStat, lnEq, lnEye, lnErr, lnTrain, lnState, lnPolInv, lnSignal, lnAccepted, lnPeak, lnGain, Reg.fld]; done) | (refine Chip.ln_pages (n := a) (by omega) ?_ (by decide); simp [lnCfg, lnStat, lnEq, lnEye, lnErr, lnTrain, lnState, lnPolInv, lnSignal, lnAccepted, lnPeak, lnGain, Reg.fld]; done)))
    | (with_reducible apply Chip.Within.inc; (case hr => first | assumption | (simp only [Reg.fld, List.mem_cons, List.not_mem_nil, or_false, or_true, true_or] <;> omega) | (refine Chip.ln_pages (n := n) (by omega) ?_ (by decide); simp [lnCfg, lnStat, lnEq, lnEye, lnErr, lnTrain, lnState, lnPolInv, lnSignal, lnAccepted, lnPeak, lnGain, Reg.fld]; done) | (refine Chip.ln_pages (n := a) (by omega) ?_ (by decide); simp [lnCfg, lnStat, lnEq, lnEye, lnErr, lnTrain, lnState, lnPolInv, lnSignal, lnAccepted, lnPeak, lnGain, Reg.fld]; done)))
    | (with_reducible apply Chip.lnPost_within; (case hp => decide); (case ht => decide))
    | (with_reducible apply Chip.lnSummary_within; (case hp => decide); (case ht => decide))
    | assumption
    | omega
    | (with_reducible apply Chip.rd_lt_of; simp only [Reg.fld, List.mem_cons, List.not_mem_nil, or_false, or_true, true_or] <;> decide)
    | (simp only [Reg.fld, List.mem_cons, List.not_mem_nil, or_false, or_true, true_or] <;> omega))

theorem Chip.lnSweepDone_within {P : List Nat} {T : List Part} {c₀ c : Chip} {n : Nat} {heights : List Nat} {clean : List Bool} {polInv : Bool} (hb_n : n < 50) (hw0 : Chip.Within P T c₀ c)
    (hp : [1, 48, 112].all P.contains = true) (ht : ([.lanes] : List Part).all T.contains = true) : Chip.Within P T c₀ (c.lnSweepDone n heights clean polInv) := by
  refine Chip.Within.within hw0 hp ht ?_
  clear hw0 hp ht
  unfold Chip.lnSweepDone
  repeat' (first
    | with_reducible exact Chip.Within.refl
    | dsimp only
    | (with_reducible apply Chip.Within.wr; (case hr => first | assumption | (simp only [FAB_LN_CFG, TWN_LN_CFG, lnAccepted, lnCfg, lnGain, lnPeak, lnSignal, Reg.fld, List.mem_cons, List.not_mem_nil, or_false, or_true, true_or] <;> omega) | (refine Chip.ln_pages (n := n) (by omega) ?_ (by decide); simp [lnCfg, lnStat, lnEq, lnEye, lnErr, lnTrain, lnState, lnPolInv, lnSignal, lnAccepted, lnPeak, lnGain, Reg.fld]; done) | (refine Chip.ln_pages (n := a) (by omega) ?_ (by decide); simp [lnCfg, lnStat, lnEq, lnEye, lnErr, lnTrain, lnState, lnPolInv, lnSignal, lnAccepted, lnPeak, lnGain, Reg.fld]; done)))
    | (with_reducible apply Chip.Within.set; (case hr => first | assumption | (simp only [FAB_LN_CFG, TWN_LN_CFG, lnAccepted, lnCfg, lnGain, lnPeak, lnSignal, Reg.fld, List.mem_cons, List.not_mem_nil, or_false, or_true, true_or] <;> omega) | (refine Chip.ln_pages (n := n) (by omega) ?_ (by decide); simp [lnCfg, lnStat, lnEq, lnEye, lnErr, lnTrain, lnState, lnPolInv, lnSignal, lnAccepted, lnPeak, lnGain, Reg.fld]; done) | (refine Chip.ln_pages (n := a) (by omega) ?_ (by decide); simp [lnCfg, lnStat, lnEq, lnEye, lnErr, lnTrain, lnState, lnPolInv, lnSignal, lnAccepted, lnPeak, lnGain, Reg.fld]; done)))
    | (with_reducible apply Chip.lnFail_within; (case hp => decide); (case ht => decide))
    | (with_reducible apply Chip.lnPolarity_within; (case hp => decide); (case ht => decide))
    | (with_reducible apply Chip.lnTrainedNow_within; (case hp => decide); (case ht => decide))
    | assumption
    | omega
    | with_reducible apply Chip.leadOf_lt
    | (with_reducible apply Chip.rd_lt_of; simp only [FAB_LN_CFG, TWN_LN_CFG, lnAccepted, lnCfg, lnGain, lnPeak, lnSignal, Reg.fld, List.mem_cons, List.not_mem_nil, or_false, or_true, true_or] <;> decide)
    | split
    | (simp only [FAB_LN_CFG, TWN_LN_CFG, lnAccepted, lnCfg, lnGain, lnPeak, lnSignal, Reg.fld, List.mem_cons, List.not_mem_nil, or_false, or_true, true_or] <;> omega)
    | (simp only [lnSweep] <;> omega)
    | (simp only [lnSweep, FAB_LN_CFG, TWN_LN_CFG, lnAccepted, lnCfg, lnGain, lnPeak, lnSignal, Reg.fld, List.mem_cons, List.not_mem_nil, or_false, or_true, true_or] <;> omega))

theorem Chip.lnSignalLost_within {P : List Nat} {T : List Part} {c₀ c : Chip} {n : Nat} (hb_n : n < 50) (hw0 : Chip.Within P T c₀ c)
    (hp : [48, 112].all P.contains = true) (ht : ([.lanes] : List Part).all T.contains = true) : Chip.Within P T c₀ (c.lnSignalLost n) := by
  refine Chip.Within.within hw0 hp ht ?_
  clear hw0 hp ht
  unfold Chip.lnSignalLost
  repeat' (first
    | with_reducible exact Chip.Within.refl
    | dsimp only
    | (with_reducible apply Chip.Within.clr; (case hr => first | assumption | (simp only [Reg.fld, List.mem_cons, List.not_mem_nil, or_false, or_true, true_or] <;> omega) | (refine Chip.ln_pages (n := n) (by omega) ?_ (by decide); simp [lnCfg, lnStat, lnEq, lnEye, lnErr, lnTrain, lnState, lnPolInv, lnSignal, lnAccepted, lnPeak, lnGain, Reg.fld]; done) | (refine Chip.ln_pages (n := a) (by omega) ?_ (by decide); simp [lnCfg, lnStat, lnEq, lnEye, lnErr, lnTrain, lnState, lnPolInv, lnSignal, lnAccepted, lnPeak, lnGain, Reg.fld]; done)))
    | (with_reducible apply Chip.Within.wr; (case hr => first | assumption | (simp only [Reg.fld, List.mem_cons, List.not_mem_nil, or_false, or_true, true_or] <;> omega) | (refine Chip.ln_pages (n := n) (by omega) ?_ (by decide); simp [lnCfg, lnStat, lnEq, lnEye, lnErr, lnTrain, lnState, lnPolInv, lnSignal, lnAccepted, lnPeak, lnGain, Reg.fld]; done) | (refine Chip.ln_pages (n := a) (by omega) ?_ (by decide); simp [lnCfg, lnStat, lnEq, lnEye, lnErr, lnTrain, lnState, lnPolInv, lnSignal, lnAccepted, lnPeak, lnGain, Reg.fld]; done)))
    | (with_reducible apply Chip.lnForget_within; (case hp => decide); (case ht => decide))
    | (with_reducible apply Chip.setLane_within; (case hp => decide); (case ht => decide))
    | assumption
    | omega
    | split
    | (simp only [Reg.fld, List.mem_cons, List.not_mem_nil, or_false, or_true, true_or] <;> omega))

theorem Chip.lnSignalPresent_within {P : List Nat} {T : List Part} {c₀ c : Chip} {n : Nat} (hb_n : n < 50) (hw0 : Chip.Within P T c₀ c)
    (hp : [48, 112].all P.contains = true) (ht : ([.lanes] : List Part).all T.contains = true) : Chip.Within P T c₀ (c.lnSignalPresent n) := by
  refine Chip.Within.within hw0 hp ht ?_
  clear hw0 hp ht
  unfold Chip.lnSignalPresent
  repeat' (first
    | with_reducible exact Chip.Within.refl
    | dsimp only
    | (with_reducible apply Chip.Within.wrB; (case hr => first | assumption | (simp only [lnSignal, Reg.fld, List.mem_cons, List.not_mem_nil, or_false, or_true, true_or] <;> omega) | (refine Chip.ln_pages (n := n) (by omega) ?_ (by decide); simp [lnCfg, lnStat, lnEq, lnEye, lnErr, lnTrain, lnState, lnPolInv, lnSignal, lnAccepted, lnPeak, lnGain, Reg.fld]; done) | (refine Chip.ln_pages (n := a) (by omega) ?_ (by decide); simp [lnCfg, lnStat, lnEq, lnEye, lnErr, lnTrain, lnState, lnPolInv, lnSignal, lnAccepted, lnPeak, lnGain, Reg.fld]; done)))
    | (with_reducible apply Chip.lnTrainStart_within; (case hp => decide); (case ht => decide))
    | assumption
    | omega
    | with_reducible apply Chip.leadOf_lt
    | (with_reducible apply Chip.rd_lt_of; simp only [lnSignal, Reg.fld, List.mem_cons, List.not_mem_nil, or_false, or_true, true_or] <;> decide)
    | split
    | (simp only [lnSignal, Reg.fld, List.mem_cons, List.not_mem_nil, or_false, or_true, true_or] <;> omega)
    | (simp only [lnNoSignal, lnOff] <;> omega)
    | (simp only [lnNoSignal, lnOff, lnSignal, Reg.fld, List.mem_cons, List.not_mem_nil, or_false, or_true, true_or] <;> omega))

theorem Chip.lnRetry_within {P : List Nat} {T : List Part} {c₀ c : Chip} {n : Nat} (hb_n : n < 50) (hw0 : Chip.Within P T c₀ c)
    (hp : [48, 112].all P.contains = true) (ht : ([.lanes] : List Part).all T.contains = true) : Chip.Within P T c₀ (c.lnRetry n) := by
  refine Chip.Within.within hw0 hp ht ?_
  clear hw0 hp ht
  unfold Chip.lnRetry
  repeat' (first
    | with_reducible exact Chip.Within.refl
    | dsimp only
    | (with_reducible apply Chip.Within.inc; (case hr => first | assumption | (simp only [Reg.fld, List.mem_cons, List.not_mem_nil, or_false, or_true, true_or] <;> omega) | (refine Chip.ln_pages (n := n) (by omega) ?_ (by decide); simp [lnCfg, lnStat, lnEq, lnEye, lnErr, lnTrain, lnState, lnPolInv, lnSignal, lnAccepted, lnPeak, lnGain, Reg.fld]; done) | (refine Chip.ln_pages (n := a) (by omega) ?_ (by decide); simp [lnCfg, lnStat, lnEq, lnEye, lnErr, lnTrain, lnState, lnPolInv, lnSignal, lnAccepted, lnPeak, lnGain, Reg.fld]; done)))
    | (with_reducible apply Chip.lnTrainStart_within; (case hp => decide); (case ht => decide))
    | (with_reducible apply Chip.setLane_within; (case hp => decide); (case ht => decide))
    | assumption
    | omega
    | split
    | (simp only [Reg.fld, List.mem_cons, List.not_mem_nil, or_false, or_true, true_or] <;> omega))

theorem Chip.lnLockLost_within {P : List Nat} {T : List Part} {c₀ c : Chip} {n : Nat} (hb_n : n < 50) (hw0 : Chip.Within P T c₀ c)
    (hp : [1, 48, 112].all P.contains = true) (ht : ([.lanes] : List Part).all T.contains = true) : Chip.Within P T c₀ (c.lnLockLost n) := by
  refine Chip.Within.within hw0 hp ht ?_
  clear hw0 hp ht
  unfold Chip.lnLockLost
  repeat' (first
    | with_reducible exact Chip.Within.refl
    | dsimp only
    | (with_reducible apply Chip.Within.set; (case hr => first | assumption | (simp only [Reg.fld, List.mem_cons, List.not_mem_nil, or_false, or_true, true_or] <;> omega) | (refine Chip.ln_pages (n := n) (by omega) ?_ (by decide); simp [lnCfg, lnStat, lnEq, lnEye, lnErr, lnTrain, lnState, lnPolInv, lnSignal, lnAccepted, lnPeak, lnGain, Reg.fld]; done) | (refine Chip.ln_pages (n := a) (by omega) ?_ (by decide); simp [lnCfg, lnStat, lnEq, lnEye, lnErr, lnTrain, lnState, lnPolInv, lnSignal, lnAccepted, lnPeak, lnGain, Reg.fld]; done)))
    | (with_reducible apply Chip.lnPost_within; (case hp => decide); (case ht => decide))
    | (with_reducible apply Chip.lnSummary_within; (case hp => decide); (case ht => decide))
    | (with_reducible apply Chip.lnTrainStart_within; (case hp => decide); (case ht => decide))
    | assumption
    | omega
    | split
    | (simp only [Reg.fld, List.mem_cons, List.not_mem_nil, or_false, or_true, true_or] <;> omega))

theorem Chip.lnVisit_within {P : List Nat} {T : List Part} {c₀ c : Chip} {n height width below above : Nat} {belowErr aboveErr : Bool} (hb_n : n < 50) (hw0 : Chip.Within P T c₀ c)
    (hp : [1, 48, 112].all P.contains = true) (ht : ([.lanes] : List Part).all T.contains = true) : Chip.Within P T c₀ (c.lnVisit n height width below above belowErr aboveErr) := by
  refine Chip.Within.within hw0 hp ht ?_
  clear hw0 hp ht
  unfold Chip.lnVisit
  repeat' (first
    | with_reducible exact Chip.Within.refl
    | dsimp only
    | (with_reducible apply Chip.Within.set; (case hr => first | assumption | (simp only [Reg.fld, List.mem_cons, List.not_mem_nil, or_false, or_true, true_or] <;> omega) | (refine Chip.ln_pages (n := n) (by omega) ?_ (by decide); simp [lnCfg, lnStat, lnEq, lnEye, lnErr, lnTrain, lnState, lnPolInv, lnSignal, lnAccepted, lnPeak, lnGain, Reg.fld]; done) | (refine Chip.ln_pages (n := a) (by omega) ?_ (by decide); simp [lnCfg, lnStat, lnEq, lnEye, lnErr, lnTrain, lnState, lnPolInv, lnSignal, lnAccepted, lnPeak, lnGain, Reg.fld]; done)))
    | (with_reducible apply Chip.Within.wr; (case hr => first | assumption | (simp only [Reg.fld, List.mem_cons, List.not_mem_nil, or_false, or_true, true_or] <;> omega) | (refine Chip.ln_pages (n := n) (by omega) ?_ (by decide); simp [lnCfg, lnStat, lnEq, lnEye, lnErr, lnTrain, lnState, lnPolInv, lnSignal, lnAccepted, lnPeak, lnGain, Reg.fld]; done) | (refine Chip.ln_pages (n := a) (by omega) ?_ (by decide); simp [lnCfg, lnStat, lnEq, lnEye, lnErr, lnTrain, lnState, lnPolInv, lnSignal, lnAccepted, lnPeak, lnGain, Reg.fld]; done)))
    | (with_reducible apply Chip.lnPost_within; (case hp => decide); (case ht => decide))
    | (with_reducible apply Chip.lnSummary_within; (case hp => decide); (case ht => decide))
    | (with_reducible apply Chip.setLane_within; (case hp => decide); (case ht => decide))
    | with_reducible apply Chip.Within.when'
    | assumption
    | intro y
    | omega
    | (with_reducible apply Chip.rd_lt_of; simp only [Reg.fld, List.mem_cons, List.not_mem_nil, or_false, or_true, true_or] <;> decide)
    | split
    | (simp only [Reg.fld, List.mem_cons, List.not_mem_nil, or_false, or_true, true_or] <;> omega))

theorem Chip.lnStep_within {P : List Nat} {T : List Part} {c₀ c : Chip} {n : Nat} (hb_n : n < 50) (hw0 : Chip.Within P T c₀ c)
    (hp : [48, 112].all P.contains = true) (ht : ([.lanes] : List Part).all T.contains = true) : Chip.Within P T c₀ (c.lnStep n) := by
  refine Chip.Within.within hw0 hp ht ?_
  clear hw0 hp ht
  unfold Chip.lnStep
  repeat' (first
    | with_reducible exact Chip.Within.refl
    | dsimp only
    | (with_reducible apply Chip.Within.wr; (case hr => first | assumption | (simp only [Reg.fld, List.mem_cons, List.not_mem_nil, or_false, or_true, true_or] <;> omega) | (refine Chip.ln_pages (n := n) (by omega) ?_ (by decide); simp [lnCfg, lnStat, lnEq, lnEye, lnErr, lnTrain, lnState, lnPolInv, lnSignal, lnAccepted, lnPeak, lnGain, Reg.fld]; done) | (refine Chip.ln_pages (n := a) (by omega) ?_ (by decide); simp [lnCfg, lnStat, lnEq, lnEye, lnErr, lnTrain, lnState, lnPolInv, lnSignal, lnAccepted, lnPeak, lnGain, Reg.fld]; done)))
    | (with_reducible apply Chip.Within.inc; (case hr => first | assumption | (simp only [Reg.fld, List.mem_cons, List.not_mem_nil, or_false, or_true, true_or] <;> omega) | (refine Chip.ln_pages (n := n) (by omega) ?_ (by decide); simp [lnCfg, lnStat, lnEq, lnEye, lnErr, lnTrain, lnState, lnPolInv, lnSignal, lnAccepted, lnPeak, lnGain, Reg.fld]; done) | (refine Chip.ln_pages (n := a) (by omega) ?_ (by decide); simp [lnCfg, lnStat, lnEq, lnEye, lnErr, lnTrain, lnState, lnPolInv, lnSignal, lnAccepted, lnPeak, lnGain, Reg.fld]; done)))
    | (with_reducible apply Chip.setLane_within; (case hp => decide); (case ht => decide))
    | assumption
    | omega
    | split
    | (simp only [Reg.fld, List.mem_cons, List.not_mem_nil, or_false, or_true, true_or] <;> omega))

theorem Chip.lnPostErr_within {P : List Nat} {T : List Part} {c₀ c : Chip} {n : Nat} (hb_n : n < 50) (hw0 : Chip.Within P T c₀ c)
    (hp : [1, 48, 112].all P.contains = true) (ht : ([.lanes] : List Part).all T.contains = true) : Chip.Within P T c₀ (c.lnPostErr n) := by
  refine Chip.Within.within hw0 hp ht ?_
  clear hw0 hp ht
  unfold Chip.lnPostErr
  repeat' (first
    | with_reducible exact Chip.Within.refl
    | dsimp only
    | (with_reducible apply Chip.Within.set; (case hr => first | assumption | (simp only [Reg.fld, List.mem_cons, List.not_mem_nil, or_false, or_true, true_or] <;> omega) | (refine Chip.ln_pages (n := n) (by omega) ?_ (by decide); simp [lnCfg, lnStat, lnEq, lnEye, lnErr, lnTrain, lnState, lnPolInv, lnSignal, lnAccepted, lnPeak, lnGain, Reg.fld]; done) | (refine Chip.ln_pages (n := a) (by omega) ?_ (by decide); simp [lnCfg, lnStat, lnEq, lnEye, lnErr, lnTrain, lnState, lnPolInv, lnSignal, lnAccepted, lnPeak, lnGain, Reg.fld]; done)))
    | (with_reducible apply Chip.lnPost_within; (case hp => decide); (case ht => decide))
    | (with_reducible apply Chip.lnSummary_within; (case hp => decide); (case ht => decide))
    | (with_reducible apply Chip.setLane_within; (case hp => decide); (case ht => decide))
    | assumption
    | omega
    | (with_reducible apply Chip.rd_lt_of; simp only [Reg.fld, List.mem_cons, List.not_mem_nil, or_false, or_true, true_or] <;> decide)
    | split
    | (simp only [Reg.fld, List.mem_cons, List.not_mem_nil, or_false, or_true, true_or] <;> omega))

theorem Chip.lnChecker_within {P : List Nat} {T : List Part} {c₀ c : Chip} {n : Nat} {locked : Bool} {errs units : Nat} (hb_n : n < 48) (hw0 : Chip.Within P T c₀ c)
    (hp : [48].all P.contains = true) (ht : ([] : List Part).all T.contains = true) : Chip.Within P T c₀ (c.lnChecker n locked errs units) := by
  refine Chip.Within.within hw0 hp ht ?_
  clear hw0 hp ht
  unfold Chip.lnChecker
  repeat' (first
    | with_reducible exact Chip.Within.refl
    | dsimp only
    | (with_reducible apply Chip.Within.wrB; (case hr => first | assumption | (simp only [FAB_LN_BCOUNT, FAB_LN_BCOUNT_COUNT, FAB_LN_BERR, FAB_LN_BERR_COUNT, FAB_LN_TEST, FAB_LN_TEST_CHK_PATTERN, FAB_LN_TEST_CHK_SYNC, Reg.fld, List.mem_cons, List.not_mem_nil, or_false, or_true, true_or] <;> omega)))
    | (with_reducible apply Chip.Within.add; (case hr => first | assumption | (simp only [FAB_LN_BCOUNT, FAB_LN_BCOUNT_COUNT, FAB_LN_BERR, FAB_LN_BERR_COUNT, FAB_LN_TEST, FAB_LN_TEST_CHK_PATTERN, FAB_LN_TEST_CHK_SYNC, Reg.fld, List.mem_cons, List.not_mem_nil, or_false, or_true, true_or] <;> omega)))
    | with_reducible apply Chip.Within.when'
    | assumption
    | intro y
    | omega
    | (with_reducible apply Chip.rd_lt_of; simp only [FAB_LN_BCOUNT, FAB_LN_BCOUNT_COUNT, FAB_LN_BERR, FAB_LN_BERR_COUNT, FAB_LN_TEST, FAB_LN_TEST_CHK_PATTERN, FAB_LN_TEST_CHK_SYNC, Reg.fld, List.mem_cons, List.not_mem_nil, or_false, or_true, true_or] <;> decide)
    | split
    | (simp only [FAB_LN_BCOUNT, FAB_LN_BCOUNT_COUNT, FAB_LN_BERR, FAB_LN_BERR_COUNT, FAB_LN_TEST, FAB_LN_TEST_CHK_PATTERN, FAB_LN_TEST_CHK_SYNC, Reg.fld, List.mem_cons, List.not_mem_nil, or_false, or_true, true_or] <;> omega))

theorem Chip.lnWake_within {P : List Nat} {T : List Part} {c₀ c : Chip} {n : Nat} {lostLock : Bool} (hb_n : n < 50) (hw0 : Chip.Within P T c₀ c)
    (hp : [48, 112].all P.contains = true) (ht : ([.lanes] : List Part).all T.contains = true) : Chip.Within P T c₀ (c.lnWake n lostLock) := by
  refine Chip.Within.within hw0 hp ht ?_
  clear hw0 hp ht
  unfold Chip.lnWake
  repeat' (first
    | with_reducible exact Chip.Within.refl
    | dsimp only
    | (with_reducible apply Chip.Within.wr; (case hr => first | assumption | (simp only [Reg.fld, List.mem_cons, List.not_mem_nil, or_false, or_true, true_or] <;> omega) | (refine Chip.ln_pages (n := n) (by omega) ?_ (by decide); simp [lnCfg, lnStat, lnEq, lnEye, lnErr, lnTrain, lnState, lnPolInv, lnSignal, lnAccepted, lnPeak, lnGain, Reg.fld]; done) | (refine Chip.ln_pages (n := a) (by omega) ?_ (by decide); simp [lnCfg, lnStat, lnEq, lnEye, lnErr, lnTrain, lnState, lnPolInv, lnSignal, lnAccepted, lnPeak, lnGain, Reg.fld]; done)))
    | (with_reducible apply Chip.Within.inc; (case hr => first | assumption | (simp only [Reg.fld, List.mem_cons, List.not_mem_nil, or_false, or_true, true_or] <;> omega) | (refine Chip.ln_pages (n := n) (by omega) ?_ (by decide); simp [lnCfg, lnStat, lnEq, lnEye, lnErr, lnTrain, lnState, lnPolInv, lnSignal, lnAccepted, lnPeak, lnGain, Reg.fld]; done) | (refine Chip.ln_pages (n := a) (by omega) ?_ (by decide); simp [lnCfg, lnStat, lnEq, lnEye, lnErr, lnTrain, lnState, lnPolInv, lnSignal, lnAccepted, lnPeak, lnGain, Reg.fld]; done)))
    | (with_reducible apply Chip.lnTrainStart_within; (case hp => decide); (case ht => decide))
    | assumption
    | omega
    | split
    | (simp only [Reg.fld, List.mem_cons, List.not_mem_nil, or_false, or_true, true_or] <;> omega))


theorem Chip.setLink_within {P : List Nat} {T : List Part} {c₀ c : Chip} {l : Nat} {x : Link} (hw0 : Chip.Within P T c₀ c)
    (hp : [].all P.contains = true) (ht : ([.links] : List Part).all T.contains = true) : Chip.Within P T c₀ (c.setLink l x) := by
  refine Chip.Within.within hw0 hp ht ?_
  clear hw0 hp ht
  unfold Chip.setLink
  repeat' (first
    | with_reducible exact Chip.Within.refl
    | dsimp only
    | (fail_if_no_progress (with_reducible apply Chip.Within.to_links; (case hk => decide)))
    | assumption
    | omega
    | (simp only [Reg.fld, List.mem_cons, List.not_mem_nil, or_false, or_true, true_or] <;> omega))

theorem Chip.linkSlots_within {P : List Nat} {T : List Part} {c₀ c : Chip} {l : Nat} (hb_l : l < 48) (hw0 : Chip.Within P T c₀ c)
    (hp : [1, 8, 12, 48, 64].all P.contains = true) (ht : ([.srcs] : List Part).all T.contains = true) : Chip.Within P T c₀ (c.linkSlots l) := by
  refine Chip.Within.within hw0 hp ht ?_
  clear hw0 hp ht
  unfold Chip.linkSlots
  have hw := Chip.linkWidth_le c l
  repeat' (first
    | with_reducible exact Chip.Within.refl
    | dsimp only
    | (with_reducible apply Chip.Within.set; (case hr => first | assumption | (simp only [FAB_SLOT_STAT, FAB_SLOT_STAT_RX_LOST_SEEN, FAB_SLOT_STAT_RX_PRESENT, FAB_STATUS, FAB_STATUS_BOTH_LOST, Reg.fld, List.mem_cons, List.not_mem_nil, or_false, or_true, true_or] <;> omega)))
    | (with_reducible apply Chip.Within.wrB; (case hr => first | assumption | (simp only [FAB_SLOT_STAT, FAB_SLOT_STAT_RX_LOST_SEEN, FAB_SLOT_STAT_RX_PRESENT, FAB_STATUS, FAB_STATUS_BOTH_LOST, Reg.fld, List.mem_cons, List.not_mem_nil, or_false, or_true, true_or] <;> omega)))
    | (with_reducible apply Chip.judgeSrc_within; (case hp => decide); (case ht => decide))
    | with_reducible apply Chip.Within.when'
    | with_reducible apply Chip.Within.each
    | (intro y a ha; (try simp only [List.mem_range, List.mem_filter, List.mem_map, List.mem_flatMap, List.mem_cons, List.not_mem_nil, or_false, Bool.and_eq_true, decide_eq_true_eq, beq_iff_eq, Chip.planesOf] at ha); (first | (have hb := Nat.lt_of_lt_of_le ha (Nat.le_refl _)) | (have hb := Chip.mem_groupOf (by first | assumption | omega | (with_reducible apply Chip.leadOf_lt; first | assumption | omega)) ha) | (have hb := Chip.mem_destsOf ha) | (have hb := Chip.mem_routed ha) | (obtain ⟨i, hi, hd⟩ := ha; have hb := Chip.mem_destsOf hd) | (obtain ⟨hi, hj⟩ := ha; have hb : a ≤ 1 := by omega) | (obtain ⟨i, hi, rfl⟩ := ha) | (obtain ⟨hi, hj⟩ := ha; first | (have hb := Chip.mem_destsOf hi) | (have hb := Nat.lt_of_lt_of_le hi (Nat.le_refl _)) | skip) | skip))
    | assumption
    | intro y
    | omega
    | (with_reducible apply Chip.fabSrc_lt)
    | (refine Nat.lt_of_le_of_lt Chip.fabIdx_le ?_)
    | (refine Nat.lt_of_le_of_lt (Nat.add_le_add_left Chip.fabIdx_le _) ?_)
    | split
    | (simp only [FAB_SLOT_STAT, FAB_SLOT_STAT_RX_LOST_SEEN, FAB_SLOT_STAT_RX_PRESENT, FAB_STATUS, FAB_STATUS_BOTH_LOST, Reg.fld, List.mem_cons, List.not_mem_nil, or_false, or_true, true_or] <;> omega))

theorem Chip.linkShow_within {P : List Nat} {T : List Part} {c₀ c : Chip} {l : Nat} (hb_l : l < 48) (hw0 : Chip.Within P T c₀ c)
    (hp : [1, 48].all P.contains = true) (ht : ([.links] : List Part).all T.contains = true) : Chip.Within P T c₀ (c.linkShow l) := by
  refine Chip.Within.within hw0 hp ht ?_
  clear hw0 hp ht
  unfold Chip.linkShow
  have hw := Chip.linkWidth_le c l
  repeat' (first
    | with_reducible exact Chip.Within.refl
    | dsimp only
    | (with_reducible apply Chip.Within.wr; (case hr => first | assumption | (simp only [FAB_LK_STAT, FAB_LK_STAT_REMAPPED, FAB_LK_STAT_RX_UP, FAB_LK_STAT_RX_WIDTH, FAB_LK_STAT_STATE, FAB_LK_STAT_TX_WIDTH, Reg.fld, List.mem_cons, List.not_mem_nil, or_false, or_true, true_or] <;> omega) | (refine Chip.ln_pages (n := n) (by omega) ?_ (by decide); simp [lnCfg, lnStat, lnEq, lnEye, lnErr, lnTrain, lnState, lnPolInv, lnSignal, lnAccepted, lnPeak, lnGain, Reg.fld]; done) | (refine Chip.ln_pages (n := a) (by omega) ?_ (by decide); simp [lnCfg, lnStat, lnEq, lnEye, lnErr, lnTrain, lnState, lnPolInv, lnSignal, lnAccepted, lnPeak, lnGain, Reg.fld]; done)))
    | (with_reducible apply Chip.Within.wrB; (case hr => first | assumption | (simp only [FAB_LK_STAT, FAB_LK_STAT_REMAPPED, FAB_LK_STAT_RX_UP, FAB_LK_STAT_RX_WIDTH, FAB_LK_STAT_STATE, FAB_LK_STAT_TX_WIDTH, Reg.fld, List.mem_cons, List.not_mem_nil, or_false, or_true, true_or] <;> omega) | (refine Chip.ln_pages (n := n) (by omega) ?_ (by decide); simp [lnCfg, lnStat, lnEq, lnEye, lnErr, lnTrain, lnState, lnPolInv, lnSignal, lnAccepted, lnPeak, lnGain, Reg.fld]; done) | (refine Chip.ln_pages (n := a) (by omega) ?_ (by decide); simp [lnCfg, lnStat, lnEq, lnEye, lnErr, lnTrain, lnState, lnPolInv, lnSignal, lnAccepted, lnPeak, lnGain, Reg.fld]; done)))
    | (with_reducible apply Chip.setLink_within; (case hp => decide); (case ht => decide))
    | with_reducible apply Chip.Within.when'
    | (with_reducible apply Chip.Within.post; (case hm => decide))
    | assumption
    | intro y
    | omega
    | (with_reducible apply Chip.rd_lt_of; simp only [FAB_LK_STAT, FAB_LK_STAT_REMAPPED, FAB_LK_STAT_RX_UP, FAB_LK_STAT_RX_WIDTH, FAB_LK_STAT_STATE, FAB_LK_STAT_TX_WIDTH, Reg.fld, List.mem_cons, List.not_mem_nil, or_false, or_true, true_or] <;> decide)
    | split
    | (simp only [FAB_LK_STAT, FAB_LK_STAT_REMAPPED, FAB_LK_STAT_RX_UP, FAB_LK_STAT_RX_WIDTH, FAB_LK_STAT_STATE, FAB_LK_STAT_TX_WIDTH, Reg.fld, List.mem_cons, List.not_mem_nil, or_false, or_true, true_or] <;> omega))

theorem Chip.linkCarried_within {P : List Nat} {T : List Part} {c₀ c : Chip} {l : Nat} (hb_l : l < 48) (hw0 : Chip.Within P T c₀ c)
    (hp : [48].all P.contains = true) (ht : ([] : List Part).all T.contains = true) : Chip.Within P T c₀ (c.linkCarried l) := by
  refine Chip.Within.within hw0 hp ht ?_
  clear hw0 hp ht
  unfold Chip.linkCarried
  have hw := Chip.linkWidth_le c l
  repeat' (first
    | with_reducible exact Chip.Within.refl
    | dsimp only
    | (with_reducible apply Chip.Within.wrB; (case hr => first | assumption | (simp only [FAB_SLOT_STAT, FAB_SLOT_STAT_CARRIED, Reg.fld, List.mem_cons, List.not_mem_nil, or_false, or_true, true_or] <;> omega)))
    | with_reducible apply Chip.Within.each
    | (intro y a ha; (try simp only [List.mem_range, List.mem_filter, List.mem_map, List.mem_flatMap, List.mem_cons, List.not_mem_nil, or_false, Bool.and_eq_true, decide_eq_true_eq, beq_iff_eq, Chip.planesOf] at ha); (first | (have hb := Nat.lt_of_lt_of_le ha (Nat.le_refl _)) | (have hb := Chip.mem_groupOf (by first | assumption | omega | (with_reducible apply Chip.leadOf_lt; first | assumption | omega)) ha) | (have hb := Chip.mem_destsOf ha) | (have hb := Chip.mem_routed ha) | (obtain ⟨i, hi, hd⟩ := ha; have hb := Chip.mem_destsOf hd) | (obtain ⟨hi, hj⟩ := ha; have hb : a ≤ 1 := by omega) | (obtain ⟨i, hi, rfl⟩ := ha) | (obtain ⟨hi, hj⟩ := ha; first | (have hb := Chip.mem_destsOf hi) | (have hb := Nat.lt_of_lt_of_le hi (Nat.le_refl _)) | skip) | skip))
    | assumption
    | omega
    | (simp only [FAB_SLOT_STAT, FAB_SLOT_STAT_CARRIED, Reg.fld, List.mem_cons, List.not_mem_nil, or_false, or_true, true_or] <;> omega))

theorem Chip.linkDown_within {P : List Nat} {T : List Part} {c₀ c : Chip} {l cause : Nat} (hb_l : l < 48) (hw0 : Chip.Within P T c₀ c)
    (hp : [1, 8, 12, 48, 64].all P.contains = true) (ht : ([.links, .srcs] : List Part).all T.contains = true) : Chip.Within P T c₀ (c.linkDown l cause) := by
  refine Chip.Within.within hw0 hp ht ?_
  clear hw0 hp ht
  unfold Chip.linkDown
  repeat' (first
    | with_reducible exact Chip.Within.refl
    | dsimp only
    | (with_reducible apply Chip.Within.set; (case hr => first | assumption | (simp only [FAB_LK_CNT, FAB_LK_CNT_DOWNS, FAB_LK_STAT, FAB_LK_STAT_DOWN_SEEN, FAB_STATUS, FAB_STATUS_LINK_DOWN, Reg.fld, List.mem_cons, List.not_mem_nil, or_false, or_true, true_or] <;> omega)))
    | (with_reducible apply Chip.Within.inc; (case hr => first | assumption | (simp only [FAB_LK_CNT, FAB_LK_CNT_DOWNS, FAB_LK_STAT, FAB_LK_STAT_DOWN_SEEN, FAB_STATUS, FAB_STATUS_LINK_DOWN, Reg.fld, List.mem_cons, List.not_mem_nil, or_false, or_true, true_or] <;> omega)))
    | (with_reducible apply Chip.linkCarried_within; (case hp => decide); (case ht => decide))
    | (with_reducible apply Chip.linkShow_within; (case hp => decide); (case ht => decide))
    | (with_reducible apply Chip.linkSlots_within; (case hp => decide); (case ht => decide))
    | (with_reducible apply Chip.setLink_within; (case hp => decide); (case ht => decide))
    | with_reducible apply Chip.Within.when'
    | (with_reducible apply Chip.Within.post; (case hm => decide))
    | assumption
    | intro y
    | omega
    | (simp only [FAB_LK_CNT, FAB_LK_CNT_DOWNS, FAB_LK_STAT, FAB_LK_STAT_DOWN_SEEN, FAB_STATUS, FAB_STATUS_LINK_DOWN, Reg.fld, List.mem_cons, List.not_mem_nil, or_false, or_true, true_or] <;> omega))

theorem Chip.txChoose_within {P : List Nat} {T : List Part} {c₀ c : Chip} {l eligible : Nat} (hb_l : l < 48) (hw0 : Chip.Within P T c₀ c)
    (hp : [1, 48].all P.contains = true) (ht : ([.links] : List Part).all T.contains = true) : Chip.Within P T c₀ (c.txChoose l eligible) := by
  refine Chip.Within.within hw0 hp ht ?_
  clear hw0 hp ht
  unfold Chip.txChoose
  have hw := Chip.linkWidth_le c l
  repeat' (first
    | with_reducible exact Chip.Within.refl
    | dsimp only
    | (with_reducible apply Chip.Within.set; (case hr => first | assumption | (simp only [FAB_SLOT_CTL, FAB_SLOT_CTL_TX_EN, FAB_SLOT_STAT, FAB_SLOT_STAT_DROPPED_SEEN, FAB_STATUS, FAB_STATUS_SLOT_DROPPED, Reg.fld, List.mem_cons, List.not_mem_nil, or_false, or_true, true_or] <;> omega)))
    | (with_reducible apply Chip.linkCarried_within; (case hp => decide); (case ht => decide))
    | (with_reducible apply Chip.linkShow_within; (case hp => decide); (case ht => decide))
    | (with_reducible apply Chip.setLink_within; (case hp => decide); (case ht => decide))
    | with_reducible apply Chip.Within.each
    | (intro y a ha; (try simp only [List.mem_range, List.mem_filter, List.mem_map, List.mem_flatMap, List.mem_cons, List.not_mem_nil, or_false, Bool.and_eq_true, decide_eq_true_eq, beq_iff_eq, Chip.planesOf] at ha); (first | (have hb := Nat.lt_of_lt_of_le ha (Nat.le_refl _)) | (have hb := Chip.mem_groupOf (by first | assumption | omega | (with_reducible apply Chip.leadOf_lt; first | assumption | omega)) ha) | (have hb := Chip.mem_destsOf ha) | (have hb := Chip.mem_routed ha) | (obtain ⟨i, hi, hd⟩ := ha; have hb := Chip.mem_destsOf hd) | (obtain ⟨hi, hj⟩ := ha; have hb : a ≤ 1 := by omega) | (obtain ⟨i, hi, rfl⟩ := ha) | (obtain ⟨hi, hj⟩ := ha; first | (have hb := Chip.mem_destsOf hi) | (have hb := Nat.lt_of_lt_of_le hi (Nat.le_refl _)) | skip) | skip))
    | (with_reducible apply Chip.Within.post; (case hm => decide))
    | assumption
    | omega
    | split
    | (simp only [FAB_SLOT_CTL, FAB_SLOT_CTL_TX_EN, FAB_SLOT_STAT, FAB_SLOT_STAT_DROPPED_SEEN, FAB_STATUS, FAB_STATUS_SLOT_DROPPED, Reg.fld, List.mem_cons, List.not_mem_nil, or_false, or_true, true_or] <;> omega))

theorem Chip.peerReport_within {P : List Nat} {T : List Part} {c₀ c : Chip} {l up : Nat} (hb_l : l < 48) (hw0 : Chip.Within P T c₀ c)
    (hp : [1, 8, 12, 48, 64].all P.contains = true) (ht : ([.links, .srcs] : List Part).all T.contains = true) : Chip.Within P T c₀ (c.peerReport l up) := by
  refine Chip.Within.within hw0 hp ht ?_
  clear hw0 hp ht
  unfold Chip.peerReport
  repeat' (first
    | with_reducible exact Chip.Within.refl
    | dsimp only
    | (with_reducible apply Chip.Within.wr; (case hr => first | assumption | (simp only [FAB_LK_STAT, FAB_LK_STAT_PEER_RX_UP, FAB_LK_STAT_STATE, Reg.fld, List.mem_cons, List.not_mem_nil, or_false, or_true, true_or] <;> omega)))
    | (with_reducible apply Chip.linkDown_within; (case hp => decide); (case ht => decide))
    | (with_reducible apply Chip.linkShow_within; (case hp => decide); (case ht => decide))
    | (with_reducible apply Chip.setLink_within; (case hp => decide); (case ht => decide))
    | (with_reducible apply Chip.txChoose_within; (case hp => decide); (case ht => decide))
    | assumption
    | omega
    | (with_reducible apply Chip.rd_lt_of; simp only [FAB_LK_STAT, FAB_LK_STAT_PEER_RX_UP, FAB_LK_STAT_STATE, Reg.fld, List.mem_cons, List.not_mem_nil, or_false, or_true, true_or] <;> decide)
    | split
    | (simp only [FAB_LK_STAT, FAB_LK_STAT_PEER_RX_UP, FAB_LK_STAT_STATE, Reg.fld, List.mem_cons, List.not_mem_nil, or_false, or_true, true_or] <;> omega))

theorem Chip.formTimeout_within {P : List Nat} {T : List Part} {c₀ c : Chip} {l : Nat} (hb_l : l < 48) (hw0 : Chip.Within P T c₀ c)
    (hp : [1, 48].all P.contains = true) (ht : ([.links] : List Part).all T.contains = true) : Chip.Within P T c₀ (c.formTimeout l) := by
  refine Chip.Within.within hw0 hp ht ?_
  clear hw0 hp ht
  unfold Chip.formTimeout
  repeat' (first
    | with_reducible exact Chip.Within.refl
    | dsimp only
    | (with_reducible apply Chip.txChoose_within; (case hp => decide); (case ht => decide))
    | assumption
    | omega
    | (with_reducible apply Chip.rd_lt_of; simp only [FAB_LK_STAT, FAB_LK_STAT_PEER_RX_UP, FAB_LK_STAT_STATE, Reg.fld, List.mem_cons, List.not_mem_nil, or_false, or_true, true_or] <;> decide)
    | split
    | (simp only [FAB_LK_STAT, FAB_LK_STAT_PEER_RX_UP, FAB_LK_STAT_STATE, Reg.fld, List.mem_cons, List.not_mem_nil, or_false, or_true, true_or] <;> omega))

theorem Chip.linkWiden_within {P : List Nat} {T : List Part} {c₀ c : Chip} {l : Nat} (hb_l : l < 48) (hw0 : Chip.Within P T c₀ c)
    (hp : [1, 48].all P.contains = true) (ht : ([.links] : List Part).all T.contains = true) : Chip.Within P T c₀ (c.linkWiden l) := by
  refine Chip.Within.within hw0 hp ht ?_
  clear hw0 hp ht
  unfold Chip.linkWiden
  repeat' (first
    | with_reducible exact Chip.Within.refl
    | dsimp only
    | (with_reducible apply Chip.txChoose_within; (case hp => decide); (case ht => decide))
    | assumption
    | omega
    | (with_reducible apply Chip.rd_lt_of; simp only [FAB_LK_STAT, FAB_LK_STAT_PEER_RX_UP, Reg.fld, List.mem_cons, List.not_mem_nil, or_false, or_true, true_or] <;> decide)
    | split
    | (simp only [FAB_LK_STAT, FAB_LK_STAT_PEER_RX_UP, Reg.fld, List.mem_cons, List.not_mem_nil, or_false, or_true, true_or] <;> omega))

theorem Chip.rxDirUp_within {P : List Nat} {T : List Part} {c₀ c : Chip} {l use mask : Nat} (hb_l : l < 48) (hw0 : Chip.Within P T c₀ c)
    (hp : [1, 8, 12, 48, 64].all P.contains = true) (ht : ([.links, .srcs] : List Part).all T.contains = true) : Chip.Within P T c₀ (c.rxDirUp l use mask) := by
  refine Chip.Within.within hw0 hp ht ?_
  clear hw0 hp ht
  unfold Chip.rxDirUp
  repeat' (first
    | with_reducible exact Chip.Within.refl
    | dsimp only
    | (with_reducible apply Chip.Within.set; (case hr => first | assumption | (simp only [FAB_LK_CNT, FAB_LK_CNT_REFORMS, FAB_LK_STAT, FAB_LK_STAT_REFORM_SEEN, FAB_STATUS, FAB_STATUS_LINK_REFORMED, Reg.fld, List.mem_cons, List.not_mem_nil, or_false, or_true, true_or] <;> omega)))
    | (with_reducible apply Chip.Within.inc; (case hr => first | assumption | (simp only [FAB_LK_CNT, FAB_LK_CNT_REFORMS, FAB_LK_STAT, FAB_LK_STAT_REFORM_SEEN, FAB_STATUS, FAB_STATUS_LINK_REFORMED, Reg.fld, List.mem_cons, List.not_mem_nil, or_false, or_true, true_or] <;> omega)))
    | (with_reducible apply Chip.linkShow_within; (case hp => decide); (case ht => decide))
    | (with_reducible apply Chip.linkSlots_within; (case hp => decide); (case ht => decide))
    | (with_reducible apply Chip.setLink_within; (case hp => decide); (case ht => decide))
    | with_reducible apply Chip.Within.when'
    | (with_reducible apply Chip.Within.post; (case hm => decide))
    | assumption
    | intro y
    | omega
    | (simp only [FAB_LK_CNT, FAB_LK_CNT_REFORMS, FAB_LK_STAT, FAB_LK_STAT_REFORM_SEEN, FAB_STATUS, FAB_STATUS_LINK_REFORMED, Reg.fld, List.mem_cons, List.not_mem_nil, or_false, or_true, true_or] <;> omega))

theorem Chip.laneUnusable_within {P : List Nat} {T : List Part} {c₀ c : Chip} {n : Nat} (hb_n : n < 48) (hw0 : Chip.Within P T c₀ c)
    (hp : [1, 8, 12, 48, 64].all P.contains = true) (ht : ([.links, .srcs] : List Part).all T.contains = true) : Chip.Within P T c₀ (c.laneUnusable n) := by
  refine Chip.Within.within hw0 hp ht ?_
  clear hw0 hp ht
  unfold Chip.laneUnusable
  repeat' (first
    | with_reducible exact Chip.Within.refl
    | dsimp only
    | (with_reducible apply Chip.linkDown_within; (case hp => decide); (case ht => decide))
    | (with_reducible apply Chip.linkShow_within; (case hp => decide); (case ht => decide))
    | (with_reducible apply Chip.linkSlots_within; (case hp => decide); (case ht => decide))
    | (with_reducible apply Chip.setLink_within; (case hp => decide); (case ht => decide))
    | assumption
    | omega
    | (have hl := Chip.linkOf_le (by assumption); omega)
    | split
    | (simp only [Reg.fld, List.mem_cons, List.not_mem_nil, or_false, or_true, true_or] <;> omega))

theorem Chip.peerIdentity_within {P : List Nat} {T : List Part} {c₀ c : Chip} {l b : Nat} (hb_l : l < 48) (hw0 : Chip.Within P T c₀ c)
    (hp : [48].all P.contains = true) (ht : ([] : List Part).all T.contains = true) : Chip.Within P T c₀ (c.peerIdentity l b) := by
  refine Chip.Within.within hw0 hp ht ?_
  clear hw0 hp ht
  unfold Chip.peerIdentity
  repeat' (first
    | with_reducible exact Chip.Within.refl
    | dsimp only
    | (with_reducible apply Chip.Within.wr; (case hr => first | assumption | (simp only [FAB_LK_PEER, FAB_LK_PEER_PEER_ID, FAB_LK_PEER_PEER_LINK, FAB_LK_PEER_PEER_PLANE, FAB_LK_PEER_PEER_TWIN_UNIT, Reg.fld, List.mem_cons, List.not_mem_nil, or_false, or_true, true_or] <;> omega)))
    | assumption
    | omega
    | (simp only [FAB_LK_PEER, FAB_LK_PEER_PEER_ID, FAB_LK_PEER_PEER_LINK, FAB_LK_PEER_PEER_PLANE, FAB_LK_PEER_PEER_TWIN_UNIT, Reg.fld, List.mem_cons, List.not_mem_nil, or_false, or_true, true_or] <;> omega))

theorem Chip.miswire_within {P : List Nat} {T : List Part} {c₀ c : Chip} {l cause : Nat} (hb_l : l < 48) (hw0 : Chip.Within P T c₀ c)
    (hp : [1, 8, 12, 48, 64].all P.contains = true) (ht : ([.links, .srcs] : List Part).all T.contains = true) : Chip.Within P T c₀ (c.miswire l cause) := by
  refine Chip.Within.within hw0 hp ht ?_
  clear hw0 hp ht
  unfold Chip.miswire
  repeat' (first
    | with_reducible exact Chip.Within.refl
    | dsimp only
    | (with_reducible apply Chip.Within.set; (case hr => first | assumption | (simp only [FAB_LK_STAT, FAB_LK_STAT_MISWIRE_CAUSE, FAB_LK_STAT_MISWIRE_SEEN, FAB_LK_STAT_STATE, FAB_STATUS, FAB_STATUS_MISWIRE, Reg.fld, List.mem_cons, List.not_mem_nil, or_false, or_true, true_or] <;> omega)))
    | (with_reducible apply Chip.Within.wr; (case hr => first | assumption | (simp only [FAB_LK_STAT, FAB_LK_STAT_MISWIRE_CAUSE, FAB_LK_STAT_MISWIRE_SEEN, FAB_LK_STAT_STATE, FAB_STATUS, FAB_STATUS_MISWIRE, Reg.fld, List.mem_cons, List.not_mem_nil, or_false, or_true, true_or] <;> omega)))
    | (with_reducible apply Chip.linkDown_within; (case hp => decide); (case ht => decide))
    | (with_reducible apply Chip.Within.post; (case hm => decide))
    | assumption
    | omega
    | (with_reducible apply Chip.rd_lt_of; simp only [FAB_LK_STAT, FAB_LK_STAT_MISWIRE_CAUSE, FAB_LK_STAT_MISWIRE_SEEN, FAB_LK_STAT_STATE, FAB_STATUS, FAB_STATUS_MISWIRE, Reg.fld, List.mem_cons, List.not_mem_nil, or_false, or_true, true_or] <;> decide)
    | split
    | (simp only [FAB_LK_STAT, FAB_LK_STAT_MISWIRE_CAUSE, FAB_LK_STAT_MISWIRE_SEEN, FAB_LK_STAT_STATE, FAB_STATUS, FAB_STATUS_MISWIRE, Reg.fld, List.mem_cons, List.not_mem_nil, or_false, or_true, true_or] <;> omega))

theorem Chip.unMiswire_within {P : List Nat} {T : List Part} {c₀ c : Chip} {l : Nat} (hb_l : l < 48) (hw0 : Chip.Within P T c₀ c)
    (hp : [1, 48].all P.contains = true) (ht : ([.links] : List Part).all T.contains = true) : Chip.Within P T c₀ (c.unMiswire l) := by
  refine Chip.Within.within hw0 hp ht ?_
  clear hw0 hp ht
  unfold Chip.unMiswire
  repeat' (first
    | with_reducible exact Chip.Within.refl
    | dsimp only
    | (with_reducible apply Chip.Within.wr; (case hr => first | assumption | (simp only [FAB_LK_STAT, FAB_LK_STAT_STATE, Reg.fld, List.mem_cons, List.not_mem_nil, or_false, or_true, true_or] <;> omega) | (refine Chip.ln_pages (n := n) (by omega) ?_ (by decide); simp [lnCfg, lnStat, lnEq, lnEye, lnErr, lnTrain, lnState, lnPolInv, lnSignal, lnAccepted, lnPeak, lnGain, Reg.fld]; done) | (refine Chip.ln_pages (n := a) (by omega) ?_ (by decide); simp [lnCfg, lnStat, lnEq, lnEye, lnErr, lnTrain, lnState, lnPolInv, lnSignal, lnAccepted, lnPeak, lnGain, Reg.fld]; done)))
    | (with_reducible apply Chip.linkShow_within; (case hp => decide); (case ht => decide))
    | assumption
    | omega
    | (with_reducible apply Chip.rd_lt_of; simp only [FAB_LK_STAT, FAB_LK_STAT_STATE, Reg.fld, List.mem_cons, List.not_mem_nil, or_false, or_true, true_or] <;> decide)
    | split
    | (simp only [FAB_LK_STAT, FAB_LK_STAT_STATE, Reg.fld, List.mem_cons, List.not_mem_nil, or_false, or_true, true_or] <;> omega))

theorem Chip.checkSkew_within {P : List Nat} {T : List Part} {c₀ c : Chip} {l n : Nat} (hb_l : l < 48) (hb_n : n < 50) (hw0 : Chip.Within P T c₀ c)
    (hp : [1, 48].all P.contains = true) (ht : ([.lanes] : List Part).all T.contains = true) : Chip.Within P T c₀ (c.checkSkew l n) := by
  refine Chip.Within.within hw0 hp ht ?_
  clear hw0 hp ht
  unfold Chip.checkSkew
  repeat' (first
    | with_reducible exact Chip.Within.refl
    | dsimp only
    | (with_reducible apply Chip.Within.set; (case hr => first | assumption | (simp only [FAB_LK_STAT, FAB_LK_STAT_SKEW_SEEN, FAB_STATUS, FAB_STATUS_SKEW, Reg.fld, List.mem_cons, List.not_mem_nil, or_false, or_true, true_or] <;> omega)))
    | (with_reducible apply Chip.setLane_within; (case hp => decide); (case ht => decide))
    | with_reducible apply Chip.Within.when'
    | (with_reducible apply Chip.Within.post; (case hm => decide))
    | assumption
    | intro y
    | omega
    | (simp only [FAB_LK_STAT, FAB_LK_STAT_SKEW_SEEN, FAB_STATUS, FAB_STATUS_SKEW, Reg.fld, List.mem_cons, List.not_mem_nil, or_false, or_true, true_or] <;> omega))

theorem Chip.lnCrcErr_within {P : List Nat} {T : List Part} {c₀ c : Chip} {n : Nat} (hb_n : n < 50) (hw0 : Chip.Within P T c₀ c)
    (hp : [48, 112].all P.contains = true) (ht : ([] : List Part).all T.contains = true) : Chip.Within P T c₀ (c.lnCrcErr n) := by
  refine Chip.Within.within hw0 hp ht ?_
  clear hw0 hp ht
  unfold Chip.lnCrcErr
  repeat' (first
    | with_reducible exact Chip.Within.refl
    | dsimp only
    | (with_reducible apply Chip.Within.inc; (case hr => first | assumption | (simp only [FAB_LN_ERR, TWN_LN_ERR, lnErr, Reg.fld, List.mem_cons, List.not_mem_nil, or_false, or_true, true_or] <;> omega) | (refine Chip.ln_pages (n := n) (by omega) ?_ (by decide); simp [lnCfg, lnStat, lnEq, lnEye, lnErr, lnTrain, lnState, lnPolInv, lnSignal, lnAccepted, lnPeak, lnGain, Reg.fld]; done) | (refine Chip.ln_pages (n := a) (by omega) ?_ (by decide); simp [lnCfg, lnStat, lnEq, lnEye, lnErr, lnTrain, lnState, lnPolInv, lnSignal, lnAccepted, lnPeak, lnGain, Reg.fld]; done)))
    | assumption
    | omega
    | with_reducible apply Chip.leadOf_lt
    | (with_reducible apply Chip.rd_lt_of; simp only [FAB_LN_ERR, TWN_LN_ERR, lnErr, Reg.fld, List.mem_cons, List.not_mem_nil, or_false, or_true, true_or] <;> decide)
    | split
    | (simp only [FAB_LN_ERR, TWN_LN_ERR, lnErr, Reg.fld, List.mem_cons, List.not_mem_nil, or_false, or_true, true_or] <;> omega))

theorem Chip.fabMarker_within {P : List Nat} {T : List Part} {c₀ c : Chip} {n b : Nat} {reform : Bool} (hb_n : n < 48) (hw0 : Chip.Within P T c₀ c)
    (hp : [1, 8, 12, 48, 64, 112].all P.contains = true) (ht : ([.lanes, .links, .now, .srcs] : List Part).all T.contains = true) : Chip.Within P T c₀ (c.fabMarker n b reform) := by
  refine Chip.Within.within hw0 hp ht ?_
  clear hw0 hp ht
  unfold Chip.fabMarker
  repeat' (first
    | with_reducible exact Chip.Within.refl
    | dsimp only
    | (with_reducible apply Chip.checkSkew_within; (case hp => decide); (case ht => decide))
    | (with_reducible apply Chip.linkShow_within; (case hp => decide); (case ht => decide))
    | (with_reducible apply Chip.lnCrcErr_within; (case hp => decide); (case ht => decide))
    | (with_reducible apply Chip.miswire_within; (case hp => decide); (case ht => decide))
    | (with_reducible apply Chip.peerIdentity_within; (case hp => decide); (case ht => decide))
    | (with_reducible apply Chip.peerReport_within; (case hp => decide); (case ht => decide))
    | (with_reducible apply Chip.rxDirUp_within; (case hp => decide); (case ht => decide))
    | (with_reducible apply Chip.setLane_within; (case hp => decide); (case ht => decide))
    | (with_reducible apply Chip.unMiswire_within; (case hp => decide); (case ht => decide))
    | (have hl := Chip.linkOf_le (by assumption); omega)
    | with_reducible apply Chip.Within.when'
    | assumption
    | intro y
    | omega
    | with_reducible apply Chip.leadOf_lt
    | (with_reducible apply Chip.rd_lt_of; simp only [FAB_LK_STAT, FAB_LK_STAT_STATE, Reg.fld, List.mem_cons, List.not_mem_nil, or_false, or_true, true_or] <;> decide)
    | split
    | (simp only [FAB_LK_STAT, FAB_LK_STAT_STATE, Reg.fld, List.mem_cons, List.not_mem_nil, or_false, or_true, true_or] <;> omega)
    | (simp only [blockType, lnTrained, mkCount, mkInUse, mkLlane, mkRxUp, mkSlots] <;> omega)
    | (simp only [blockType, lnTrained, mkCount, mkInUse, mkLlane, mkRxUp, mkSlots, FAB_LK_STAT, FAB_LK_STAT_STATE, Reg.fld, List.mem_cons, List.not_mem_nil, or_false, or_true, true_or] <;> omega))

theorem Chip.fabStatus_within {P : List Nat} {T : List Part} {c₀ c : Chip} {n b : Nat} (hb_n : n < 48) (hw0 : Chip.Within P T c₀ c)
    (hp : [1, 8, 12, 48, 64, 112].all P.contains = true) (ht : ([.links, .now, .srcs] : List Part).all T.contains = true) : Chip.Within P T c₀ (c.fabStatus n b) := by
  refine Chip.Within.within hw0 hp ht ?_
  clear hw0 hp ht
  unfold Chip.fabStatus
  repeat' (first
    | with_reducible exact Chip.Within.refl
    | dsimp only
    | (with_reducible apply Chip.lnCrcErr_within; (case hp => decide); (case ht => decide))
    | (with_reducible apply Chip.peerReport_within; (case hp => decide); (case ht => decide))
    | (have hl := Chip.linkOf_le (by assumption); omega)
    | assumption
    | omega
    | with_reducible apply Chip.leadOf_lt
    | (with_reducible apply Chip.rd_lt_of; simp only [Reg.fld, List.mem_cons, List.not_mem_nil, or_false, or_true, true_or] <;> decide)
    | split
    | (simp only [Reg.fld, List.mem_cons, List.not_mem_nil, or_false, or_true, true_or] <;> omega)
    | (simp only [blockType, lnTrained, payloadBits] <;> omega)
    | (simp only [blockType, lnTrained, payloadBits, Reg.fld, List.mem_cons, List.not_mem_nil, or_false, or_true, true_or] <;> omega))

theorem Chip.fabData_within {P : List Nat} {T : List Part} {c₀ c : Chip} {n b : Nat} (hb_n : n < 48) (hw0 : Chip.Within P T c₀ c)
    (hp : [48, 112].all P.contains = true) (ht : ([.links] : List Part).all T.contains = true) : Chip.Within P T c₀ (c.fabData n b) := by
  refine Chip.Within.within hw0 hp ht ?_
  clear hw0 hp ht
  unfold Chip.fabData
  repeat' (first
    | with_reducible exact Chip.Within.refl
    | dsimp only
    | (with_reducible apply Chip.lnCrcErr_within; (case hp => decide); (case ht => decide))
    | (with_reducible apply Chip.setLink_within; (case hp => decide); (case ht => decide))
    | assumption
    | omega
    | with_reducible apply Chip.leadOf_lt
    | (with_reducible apply Chip.rd_lt_of; simp only [Reg.fld, List.mem_cons, List.not_mem_nil, or_false, or_true, true_or] <;> decide)
    | split
    | (simp only [Reg.fld, List.mem_cons, List.not_mem_nil, or_false, or_true, true_or] <;> omega)
    | (simp only [blockType, lnTrained] <;> omega)
    | (simp only [blockType, lnTrained, Reg.fld, List.mem_cons, List.not_mem_nil, or_false, or_true, true_or] <;> omega))

theorem Chip.laneTouched_within {P : List Nat} {T : List Part} {c₀ c : Chip} {n : Nat} (hb_n : n < 48) (hw0 : Chip.Within P T c₀ c)
    (hp : [1, 48].all P.contains = true) (ht : ([.links] : List Part).all T.contains = true) : Chip.Within P T c₀ (c.laneTouched n) := by
  refine Chip.Within.within hw0 hp ht ?_
  clear hw0 hp ht
  unfold Chip.laneTouched
  repeat' (first
    | with_reducible exact Chip.Within.refl
    | dsimp only
    | (with_reducible apply Chip.linkShow_within; (case hp => decide); (case ht => decide))
    | assumption
    | omega
    | (have hl := Chip.linkOf_le (by assumption); omega)
    | split
    | (simp only [Reg.fld, List.mem_cons, List.not_mem_nil, or_false, or_true, true_or] <;> omega))

theorem Chip.copyNext_within {P : List Nat} {T : List Part} {c₀ c : Chip} {i : Nat} (hw0 : Chip.Within P T c₀ c)
    (hp : [].all P.contains = true) (ht : ([.links] : List Part).all T.contains = true) : Chip.Within P T c₀ (c.copyNext i) := by
  refine Chip.Within.within hw0 hp ht ?_
  clear hw0 hp ht
  unfold Chip.copyNext
  repeat' (first
    | with_reducible exact Chip.Within.refl
    | dsimp only
    | (with_reducible apply Chip.setLink_within; (case hp => decide); (case ht => decide))
    | assumption
    | omega
    | with_reducible apply Chip.leadOf_lt
    | (with_reducible apply Chip.rd_lt_of; simp only [Reg.fld, List.mem_cons, List.not_mem_nil, or_false, or_true, true_or] <;> decide)
    | split
    | (simp only [Reg.fld, List.mem_cons, List.not_mem_nil, or_false, or_true, true_or] <;> omega))

theorem Chip.mergeLine_within {P : List Nat} {T : List Part} {c₀ c : Chip} {m : Nat} {aWhole bWhole differ run : Bool} (hb_m : m < 96) (hw0 : Chip.Within P T c₀ c)
    (hp : [1, 8, 12, 48, 64].all P.contains = true) (ht : ([.diffAt, .links, .srcs] : List Part).all T.contains = true) : Chip.Within P T c₀ (c.mergeLine m aWhole bWhole differ run) := by
  refine Chip.Within.within hw0 hp ht ?_
  clear hw0 hp ht
  unfold Chip.mergeLine
  repeat' (first
    | with_reducible exact Chip.Within.refl
    | dsimp only
    | (with_reducible apply Chip.Within.set; (case hr => first | assumption | (simp only [FAB_MRG_CNT, FAB_MRG_CNT_A_MISS, FAB_MRG_CNT_B_MISS, FAB_MRG_DIFF, FAB_MRG_DIFF_COUNT, FAB_STATUS, FAB_STATUS_PLANE_DIFFER, Reg.fld, List.mem_cons, List.not_mem_nil, or_false, or_true, true_or] <;> omega)))
    | (with_reducible apply Chip.Within.inc; (case hr => first | assumption | (simp only [FAB_MRG_CNT, FAB_MRG_CNT_A_MISS, FAB_MRG_CNT_B_MISS, FAB_MRG_DIFF, FAB_MRG_DIFF_COUNT, FAB_STATUS, FAB_STATUS_PLANE_DIFFER, Reg.fld, List.mem_cons, List.not_mem_nil, or_false, or_true, true_or] <;> omega)))
    | (with_reducible apply Chip.badLine_within; (case hp => decide); (case ht => decide))
    | (with_reducible apply Chip.copyNext_within; (case hp => decide); (case ht => decide))
    | (fail_if_no_progress (with_reducible apply Chip.Within.to_diffAt; (case hk => decide)))
    | (with_reducible apply Chip.Within.post; (case hm => decide))
    | assumption
    | omega
    | with_reducible apply Chip.leadOf_lt
    | (with_reducible apply Chip.rd_lt_of; simp only [FAB_MRG_CNT, FAB_MRG_CNT_A_MISS, FAB_MRG_CNT_B_MISS, FAB_MRG_DIFF, FAB_MRG_DIFF_COUNT, FAB_STATUS, FAB_STATUS_PLANE_DIFFER, Reg.fld, List.mem_cons, List.not_mem_nil, or_false, or_true, true_or] <;> decide)
    | split
    | (simp only [FAB_MRG_CNT, FAB_MRG_CNT_A_MISS, FAB_MRG_CNT_B_MISS, FAB_MRG_DIFF, FAB_MRG_DIFF_COUNT, FAB_STATUS, FAB_STATUS_PLANE_DIFFER, Reg.fld, List.mem_cons, List.not_mem_nil, or_false, or_true, true_or] <;> omega))

end Sys2Proof.Machine
end

