-- ==== Sys2Proof/Laws/WithinNet.lean ====
section
/-! SUPPORT. What each operation over the network ports, the flows and PTP may change: it keeps within the listed pages and parts (Chip.Within), so that a frame of a
command is one lemma of the operations it calls. -/

set_option linter.all false
set_option maxRecDepth 4000

namespace Sys2Proof.Machine


theorem Chip.setNet_within {P : List Nat} {T : List Part} {c₀ c : Chip} {p : Nat} {x : NetPort} (hw0 : Chip.Within P T c₀ c)
    (hp : [].all P.contains = true) (ht : ([.nets] : List Part).all T.contains = true) : Chip.Within P T c₀ (c.setNet p x) := by
  refine Chip.Within.within hw0 hp ht ?_
  clear hw0 hp ht
  unfold Chip.setNet
  repeat' (first
    | with_reducible exact Chip.Within.refl
    | dsimp only
    | (with_reducible apply Chip.Within.set; (case hr => first | assumption | (simp only [Reg.fld, List.mem_cons, List.not_mem_nil, or_false, or_true, true_or] <;> omega)))
    | (fail_if_no_progress (with_reducible apply Chip.Within.to_nets; (case hk => decide)))
    | assumption
    | omega
    | (simp only [Reg.fld, List.mem_cons, List.not_mem_nil, or_false, or_true, true_or] <;> omega))

theorem Chip.netCount_within {P : List Nat} {T : List Part} {c₀ c : Chip} {p k n : Nat} (hb_p : p < 2) (hb_k : k < 100) (hw0 : Chip.Within P T c₀ c)
    (hp : [1, 64].all P.contains = true) (ht : ([] : List Part).all T.contains = true) : Chip.Within P T c₀ (c.netCount p k n) := by
  refine Chip.Within.within hw0 hp ht ?_
  clear hw0 hp ht
  unfold Chip.netCount
  repeat' (first
    | with_reducible exact Chip.Within.refl
    | dsimp only
    | (with_reducible apply Chip.Within.put; (case hr => first | assumption | (simp only [NET_CNT, NET_CNT_HALF, NET_CNT_HALF_HALF, Reg.fld, List.mem_cons, List.not_mem_nil, or_false, or_true, true_or] <;> omega)))
    | (with_reducible apply Chip.Within.setBit; (case hr => first | assumption | (simp only [NET_CNT, NET_CNT_HALF, NET_CNT_HALF_HALF, Reg.fld, List.mem_cons, List.not_mem_nil, or_false, or_true, true_or] <;> omega)))
    | with_reducible apply Chip.Within.when'
    | (with_reducible apply Chip.Within.post; (case hm => decide))
    | assumption
    | intro y
    | omega
    | (simp only [NET_CNT, NET_CNT_HALF, NET_CNT_HALF_HALF, Reg.fld, List.mem_cons, List.not_mem_nil, or_false, or_true, true_or] <;> omega))

theorem Chip.rxOctets_within {P : List Nat} {T : List Part} {c₀ c : Chip} {p n : Nat} (hb_p : p < 2) (hw0 : Chip.Within P T c₀ c)
    (hp : [1, 64].all P.contains = true) (ht : ([.nets] : List Part).all T.contains = true) : Chip.Within P T c₀ (c.rxOctets p n) := by
  refine Chip.Within.within hw0 hp ht ?_
  clear hw0 hp ht
  unfold Chip.rxOctets
  repeat' (first
    | with_reducible exact Chip.Within.refl
    | dsimp only
    | (with_reducible apply Chip.netCount_within; (case hp => decide); (case ht => decide))
    | (with_reducible apply Chip.setNet_within; (case hp => decide); (case ht => decide))
    | assumption
    | omega
    | (simp only [Reg.fld, List.mem_cons, List.not_mem_nil, or_false, or_true, true_or] <;> omega))

theorem Chip.txOctets_within {P : List Nat} {T : List Part} {c₀ c : Chip} {p n : Nat} (hb_p : p < 2) (hw0 : Chip.Within P T c₀ c)
    (hp : [1, 64].all P.contains = true) (ht : ([.nets] : List Part).all T.contains = true) : Chip.Within P T c₀ (c.txOctets p n) := by
  refine Chip.Within.within hw0 hp ht ?_
  clear hw0 hp ht
  unfold Chip.txOctets
  repeat' (first
    | with_reducible exact Chip.Within.refl
    | dsimp only
    | (with_reducible apply Chip.netCount_within; (case hp => decide); (case ht => decide))
    | (with_reducible apply Chip.setNet_within; (case hp => decide); (case ht => decide))
    | assumption
    | omega
    | (simp only [Reg.fld, List.mem_cons, List.not_mem_nil, or_false, or_true, true_or] <;> omega))

theorem Chip.npTo_within {P : List Nat} {T : List Part} {c₀ c : Chip} {p st : Nat} (hb_p : p < 2) (hw0 : Chip.Within P T c₀ c)
    (hp : [64].all P.contains = true) (ht : ([] : List Part).all T.contains = true) : Chip.Within P T c₀ (c.npTo p st) := by
  refine Chip.Within.within hw0 hp ht ?_
  clear hw0 hp ht
  unfold Chip.npTo
  repeat' (first
    | with_reducible exact Chip.Within.refl
    | dsimp only
    | (with_reducible apply Chip.Within.wr; (case hr => first | assumption | (simp only [NET_PORT_STAT, NET_PORT_STAT_STATE, Reg.fld, List.mem_cons, List.not_mem_nil, or_false, or_true, true_or] <;> omega)))
    | assumption
    | omega
    | (simp only [NET_PORT_STAT, NET_PORT_STAT_STATE, Reg.fld, List.mem_cons, List.not_mem_nil, or_false, or_true, true_or] <;> omega))

theorem Chip.netDown_within {P : List Nat} {T : List Part} {c₀ c : Chip} {p cause : Nat} (hb_p : p < 2) (hw0 : Chip.Within P T c₀ c)
    (hp : [1, 64].all P.contains = true) (ht : ([] : List Part).all T.contains = true) : Chip.Within P T c₀ (c.netDown p cause) := by
  refine Chip.Within.within hw0 hp ht ?_
  clear hw0 hp ht
  unfold Chip.netDown
  repeat' (first
    | with_reducible exact Chip.Within.refl
    | dsimp only
    | (with_reducible apply Chip.Within.set; (case hr => first | assumption | (simp only [NET_PORT_STATUS, NET_PORT_STATUS_LINK_DOWN_SEEN, Reg.fld, List.mem_cons, List.not_mem_nil, or_false, or_true, true_or] <;> omega)))
    | (with_reducible apply Chip.netCount_within; (case hp => decide); (case ht => decide))
    | (with_reducible apply Chip.Within.post; (case hm => decide))
    | assumption
    | omega
    | split
    | (simp only [NET_PORT_STATUS, NET_PORT_STATUS_LINK_DOWN_SEEN, Reg.fld, List.mem_cons, List.not_mem_nil, or_false, or_true, true_or] <;> omega))

theorem Chip.netRefresh_within {P : List Nat} {T : List Part} {c₀ c : Chip} {p : Nat} (hb_p : p < 2) (hw0 : Chip.Within P T c₀ c)
    (hp : [1, 64].all P.contains = true) (ht : ([] : List Part).all T.contains = true) : Chip.Within P T c₀ (c.netRefresh p) := by
  refine Chip.Within.within hw0 hp ht ?_
  clear hw0 hp ht
  unfold Chip.netRefresh
  repeat' (first
    | with_reducible exact Chip.Within.refl
    | dsimp only
    | (with_reducible apply Chip.Within.clr; (case hr => first | assumption | (simp only [NET_PORT_STAT, NET_PORT_STAT_LANE_LOCK, NET_PORT_STAT_REMOTE_FAULT, Reg.fld, List.mem_cons, List.not_mem_nil, or_false, or_true, true_or] <;> omega)))
    | (with_reducible apply Chip.Within.wr; (case hr => first | assumption | (simp only [NET_PORT_STAT, NET_PORT_STAT_LANE_LOCK, NET_PORT_STAT_REMOTE_FAULT, Reg.fld, List.mem_cons, List.not_mem_nil, or_false, or_true, true_or] <;> omega)))
    | (with_reducible apply Chip.netDown_within; (case hp => decide); (case ht => decide))
    | (with_reducible apply Chip.npTo_within; (case hp => decide); (case ht => decide))
    | assumption
    | omega
    | (simp only [domMac]; omega)
    | split
    | (simp only [NET_PORT_STAT, NET_PORT_STAT_LANE_LOCK, NET_PORT_STAT_REMOTE_FAULT, Reg.fld, List.mem_cons, List.not_mem_nil, or_false, or_true, true_or] <;> omega))

theorem Chip.netSignalLost_within {P : List Nat} {T : List Part} {c₀ c : Chip} {p lock : Nat} (hb_p : p < 2) (hw0 : Chip.Within P T c₀ c)
    (hp : [64].all P.contains = true) (ht : ([] : List Part).all T.contains = true) : Chip.Within P T c₀ (c.netSignalLost p lock) := by
  refine Chip.Within.within hw0 hp ht ?_
  clear hw0 hp ht
  unfold Chip.netSignalLost
  repeat' (first
    | with_reducible exact Chip.Within.refl
    | dsimp only
    | (with_reducible apply Chip.Within.clr; (case hr => first | assumption | (simp only [NET_PORT_STAT, NET_PORT_STAT_LANE_LOCK, NET_PORT_STAT_REMOTE_FAULT, Reg.fld, List.mem_cons, List.not_mem_nil, or_false, or_true, true_or] <;> omega)))
    | (with_reducible apply Chip.Within.wr; (case hr => first | assumption | (simp only [NET_PORT_STAT, NET_PORT_STAT_LANE_LOCK, NET_PORT_STAT_REMOTE_FAULT, Reg.fld, List.mem_cons, List.not_mem_nil, or_false, or_true, true_or] <;> omega)))
    | (with_reducible apply Chip.npTo_within; (case hp => decide); (case ht => decide))
    | assumption
    | omega
    | split
    | (simp only [NET_PORT_STAT, NET_PORT_STAT_LANE_LOCK, NET_PORT_STAT_REMOTE_FAULT, Reg.fld, List.mem_cons, List.not_mem_nil, or_false, or_true, true_or] <;> omega))

theorem Chip.netSignal_within {P : List Nat} {T : List Part} {c₀ c : Chip} {p : Nat} (hb_p : p < 2) (hw0 : Chip.Within P T c₀ c)
    (hp : [64].all P.contains = true) (ht : ([] : List Part).all T.contains = true) : Chip.Within P T c₀ (c.netSignal p) := by
  refine Chip.Within.within hw0 hp ht ?_
  clear hw0 hp ht
  unfold Chip.netSignal
  repeat' (first
    | with_reducible exact Chip.Within.refl
    | dsimp only
    | (with_reducible apply Chip.npTo_within; (case hp => decide); (case ht => decide))
    | assumption
    | omega
    | split
    | (simp only [Reg.fld, List.mem_cons, List.not_mem_nil, or_false, or_true, true_or] <;> omega))

theorem Chip.netAnDone_within {P : List Nat} {T : List Part} {c₀ c : Chip} {p : Nat} (hb_p : p < 2) (hw0 : Chip.Within P T c₀ c)
    (hp : [64].all P.contains = true) (ht : ([] : List Part).all T.contains = true) : Chip.Within P T c₀ (c.netAnDone p) := by
  refine Chip.Within.within hw0 hp ht ?_
  clear hw0 hp ht
  unfold Chip.netAnDone
  repeat' (first
    | with_reducible exact Chip.Within.refl
    | dsimp only
    | (with_reducible apply Chip.npTo_within; (case hp => decide); (case ht => decide))
    | assumption
    | omega
    | split
    | (simp only [Reg.fld, List.mem_cons, List.not_mem_nil, or_false, or_true, true_or] <;> omega))

theorem Chip.netTrained_within {P : List Nat} {T : List Part} {c₀ c : Chip} {p pol : Nat} (hb_p : p < 2) (hw0 : Chip.Within P T c₀ c)
    (hp : [64].all P.contains = true) (ht : ([] : List Part).all T.contains = true) : Chip.Within P T c₀ (c.netTrained p pol) := by
  refine Chip.Within.within hw0 hp ht ?_
  clear hw0 hp ht
  unfold Chip.netTrained
  repeat' (first
    | with_reducible exact Chip.Within.refl
    | dsimp only
    | (with_reducible apply Chip.Within.wr; (case hr => first | assumption | (simp only [NET_PORT_STAT, NET_PORT_STAT_LANE_LOCK, NET_PORT_STAT_RX_POL, Reg.fld, List.mem_cons, List.not_mem_nil, or_false, or_true, true_or] <;> omega)))
    | (with_reducible apply Chip.npTo_within; (case hp => decide); (case ht => decide))
    | assumption
    | omega
    | split
    | (simp only [NET_PORT_STAT, NET_PORT_STAT_LANE_LOCK, NET_PORT_STAT_RX_POL, Reg.fld, List.mem_cons, List.not_mem_nil, or_false, or_true, true_or] <;> omega))

theorem Chip.netTimeout_within {P : List Nat} {T : List Part} {c₀ c : Chip} {p : Nat} (hb_p : p < 2) (hw0 : Chip.Within P T c₀ c)
    (hp : [64].all P.contains = true) (ht : ([] : List Part).all T.contains = true) : Chip.Within P T c₀ (c.netTimeout p) := by
  refine Chip.Within.within hw0 hp ht ?_
  clear hw0 hp ht
  unfold Chip.netTimeout
  repeat' (first
    | with_reducible exact Chip.Within.refl
    | dsimp only
    | (with_reducible apply Chip.npTo_within; (case hp => decide); (case ht => decide))
    | assumption
    | omega
    | split
    | (simp only [Reg.fld, List.mem_cons, List.not_mem_nil, or_false, or_true, true_or] <;> omega))

theorem Chip.netAligned_within {P : List Nat} {T : List Part} {c₀ c : Chip} {p : Nat} {remote : Bool} (hb_p : p < 2) (hw0 : Chip.Within P T c₀ c)
    (hp : [1, 64].all P.contains = true) (ht : ([] : List Part).all T.contains = true) : Chip.Within P T c₀ (c.netAligned p remote) := by
  refine Chip.Within.within hw0 hp ht ?_
  clear hw0 hp ht
  unfold Chip.netAligned
  repeat' (first
    | with_reducible exact Chip.Within.refl
    | dsimp only
    | (with_reducible apply Chip.Within.set; (case hr => first | assumption | (simp only [NET_PORT_STAT, NET_PORT_STATUS, NET_PORT_STATUS_LINK_UP_SEEN, NET_PORT_STAT_REMOTE_FAULT, Reg.fld, List.mem_cons, List.not_mem_nil, or_false, or_true, true_or] <;> omega)))
    | (with_reducible apply Chip.Within.clr; (case hr => first | assumption | (simp only [NET_PORT_STAT, NET_PORT_STATUS, NET_PORT_STATUS_LINK_UP_SEEN, NET_PORT_STAT_REMOTE_FAULT, Reg.fld, List.mem_cons, List.not_mem_nil, or_false, or_true, true_or] <;> omega)))
    | (with_reducible apply Chip.npTo_within; (case hp => decide); (case ht => decide))
    | (with_reducible apply Chip.Within.post; (case hm => decide))
    | assumption
    | omega
    | split
    | (simp only [NET_PORT_STAT, NET_PORT_STATUS, NET_PORT_STATUS_LINK_UP_SEEN, NET_PORT_STAT_REMOTE_FAULT, Reg.fld, List.mem_cons, List.not_mem_nil, or_false, or_true, true_or] <;> omega))

theorem Chip.netLost_within {P : List Nat} {T : List Part} {c₀ c : Chip} {p cause lock : Nat} (hb_p : p < 2) (hw0 : Chip.Within P T c₀ c)
    (hp : [1, 64].all P.contains = true) (ht : ([] : List Part).all T.contains = true) : Chip.Within P T c₀ (c.netLost p cause lock) := by
  refine Chip.Within.within hw0 hp ht ?_
  clear hw0 hp ht
  unfold Chip.netLost
  repeat' (first
    | with_reducible exact Chip.Within.refl
    | dsimp only
    | (with_reducible apply Chip.Within.set; (case hr => first | assumption | (simp only [NET_PORT_STAT, NET_PORT_STAT_LANE_LOCK, NET_PORT_STAT_REMOTE_FAULT, Reg.fld, List.mem_cons, List.not_mem_nil, or_false, or_true, true_or] <;> omega)))
    | (with_reducible apply Chip.Within.wr; (case hr => first | assumption | (simp only [NET_PORT_STAT, NET_PORT_STAT_LANE_LOCK, NET_PORT_STAT_REMOTE_FAULT, Reg.fld, List.mem_cons, List.not_mem_nil, or_false, or_true, true_or] <;> omega)))
    | (with_reducible apply Chip.netDown_within; (case hp => decide); (case ht => decide))
    | (with_reducible apply Chip.npTo_within; (case hp => decide); (case ht => decide))
    | assumption
    | omega
    | split
    | (simp only [NET_PORT_STAT, NET_PORT_STAT_LANE_LOCK, NET_PORT_STAT_REMOTE_FAULT, Reg.fld, List.mem_cons, List.not_mem_nil, or_false, or_true, true_or] <;> omega))

theorem Chip.enqueue_within {P : List Nat} {T : List Part} {c₀ c : Chip} {p q len : Nat} (hw0 : Chip.Within P T c₀ c)
    (hp : [].all P.contains = true) (ht : ([.nets] : List Part).all T.contains = true) : Chip.Within P T c₀ (c.enqueue p q len) := by
  refine Chip.Within.within hw0 hp ht ?_
  clear hw0 hp ht
  unfold Chip.enqueue
  repeat' (first
    | with_reducible exact Chip.Within.refl
    | dsimp only
    | (with_reducible apply Chip.setNet_within; (case hp => decide); (case ht => decide))
    | assumption
    | omega
    | split
    | (simp only [Reg.fld, List.mem_cons, List.not_mem_nil, or_false, or_true, true_or] <;> omega))

theorem Chip.frameReceived_within {P : List Nat} {T : List Part} {c₀ c : Chip} {p : Nat} {f : NetFrame} (hb_p : p < 2) (hw0 : Chip.Within P T c₀ c)
    (hp : [1, 64].all P.contains = true) (ht : ([.nets] : List Part).all T.contains = true) : Chip.Within P T c₀ (c.frameReceived p f) := by
  refine Chip.Within.within hw0 hp ht ?_
  clear hw0 hp ht
  unfold Chip.frameReceived
  repeat' (first
    | with_reducible exact Chip.Within.refl
    | dsimp only
    | (with_reducible apply Chip.Within.set; (case hr => first | assumption | (simp only [NET_PORT_STATUS, Reg.fld, List.mem_cons, List.not_mem_nil, or_false, or_true, true_or] <;> omega)))
    | (with_reducible apply Chip.enqueue_within; (case hp => decide); (case ht => decide))
    | (with_reducible apply Chip.netCount_within; (case hp => decide); (case ht => decide))
    | (with_reducible apply Chip.rxOctets_within; (case hp => decide); (case ht => decide))
    | with_reducible apply Chip.Within.when'
    | (with_reducible apply Chip.Within.post; (case hm => decide))
    | assumption
    | intro y
    | omega
    | (have hz := Chip.rxCheck_lt (by assumption); omega)
    | (refine Nat.lt_of_lt_of_le (Nat.add_lt_add_left Chip.rxQueue_lt _) ?_)
    | split
    | (simp only [NET_PORT_STATUS, Reg.fld, List.mem_cons, List.not_mem_nil, or_false, or_true, true_or] <;> omega))

theorem Chip.discLink_within {P : List Nat} {T : List Part} {c₀ c : Chip} {p n : Nat} (hb_p : p < 2) (hw0 : Chip.Within P T c₀ c)
    (hp : [1, 64].all P.contains = true) (ht : ([] : List Part).all T.contains = true) : Chip.Within P T c₀ (c.discLink p n) := by
  refine Chip.Within.within hw0 hp ht ?_
  clear hw0 hp ht
  unfold Chip.discLink
  repeat' (first
    | with_reducible exact Chip.Within.refl
    | dsimp only
    | (with_reducible apply Chip.Within.set; (case hr => first | assumption | (simp only [NET_PORT_STATUS, NET_PORT_STATUS_TX_DISC_LINK, Reg.fld, List.mem_cons, List.not_mem_nil, or_false, or_true, true_or] <;> omega)))
    | (with_reducible apply Chip.netCount_within; (case hp => decide); (case ht => decide))
    | with_reducible apply Chip.Within.when'
    | assumption
    | intro y
    | omega
    | (simp only [NET_PORT_STATUS, NET_PORT_STATUS_TX_DISC_LINK, Reg.fld, List.mem_cons, List.not_mem_nil, or_false, or_true, true_or] <;> omega))

theorem Chip.frameTransmit_within {P : List Nat} {T : List Part} {c₀ c : Chip} {p : Nat} {heads : List (Nat × Nat)} {cut : Bool} (hb_p : p < 2) (hw0 : Chip.Within P T c₀ c)
    (hp : [1, 64].all P.contains = true) (ht : ([.nets] : List Part).all T.contains = true) : Chip.Within P T c₀ (c.frameTransmit p heads cut) := by
  refine Chip.Within.within hw0 hp ht ?_
  clear hw0 hp ht
  unfold Chip.frameTransmit
  repeat' (first
    | with_reducible exact Chip.Within.refl
    | dsimp only
    | (with_reducible apply Chip.Within.set; (case hr => first | assumption | (simp only [NET_PORT_STATUS, NET_PORT_STATUS_TX_NOFIT, Reg.fld, List.mem_cons, List.not_mem_nil, or_false, or_true, true_or] <;> omega)))
    | (with_reducible apply Chip.discLink_within; (case hp => decide); (case ht => decide))
    | (with_reducible apply Chip.netCount_within; (case hp => decide); (case ht => decide))
    | (with_reducible apply Chip.txOctets_within; (case hp => decide); (case ht => decide))
    | with_reducible apply Chip.Within.when'
    | with_reducible apply Chip.Within.each
    | (intro y a ha; (try simp only [List.mem_range, List.mem_filter, List.mem_map, List.mem_flatMap, List.mem_cons, List.not_mem_nil, or_false, Bool.and_eq_true, decide_eq_true_eq, beq_iff_eq, Chip.planesOf] at ha); (first | (have hb := Nat.lt_of_lt_of_le ha (Nat.le_refl _)) | (have hb := Chip.mem_groupOf (by first | assumption | omega | (with_reducible apply Chip.leadOf_lt; first | assumption | omega)) ha) | (have hb := Chip.mem_destsOf ha) | (have hb := Chip.mem_routed ha) | (obtain ⟨i, hi, hd⟩ := ha; have hb := Chip.mem_destsOf hd) | (obtain ⟨hi, hj⟩ := ha; have hb : a ≤ 1 := by omega) | (obtain ⟨i, hi, rfl⟩ := ha) | (obtain ⟨hi, hj⟩ := ha; first | (have hb := Chip.mem_destsOf hi) | (have hb := Nat.lt_of_lt_of_le hi (Nat.le_refl _)) | skip) | skip))
    | (with_reducible apply Chip.Within.post; (case hm => decide))
    | assumption
    | intro y
    | omega
    | split
    | (simp only [NET_PORT_STATUS, NET_PORT_STATUS_TX_NOFIT, Reg.fld, List.mem_cons, List.not_mem_nil, or_false, or_true, true_or] <;> omega))

theorem Chip.gclBoundary_within {P : List Nat} {T : List Part} {c₀ c : Chip} {p : Nat} (hb_p : p < 2) (hw0 : Chip.Within P T c₀ c)
    (hp : [64].all P.contains = true) (ht : ([.nets] : List Part).all T.contains = true) : Chip.Within P T c₀ (c.gclBoundary p) := by
  refine Chip.Within.within hw0 hp ht ?_
  clear hw0 hp ht
  unfold Chip.gclBoundary
  repeat' (first
    | with_reducible exact Chip.Within.refl
    | dsimp only
    | (with_reducible apply Chip.Within.wr; (case hr => first | assumption | (simp only [NET_GCL_BASE, NET_GCL_BASE_SYSTIME, NET_GCL_CTL, NET_GCL_CTL_ENABLE, Reg.fld, List.mem_cons, List.not_mem_nil, or_false, or_true, true_or] <;> omega)))
    | (with_reducible apply Chip.setNet_within; (case hp => decide); (case ht => decide))
    | assumption
    | omega
    | split
    | (simp only [NET_GCL_BASE, NET_GCL_BASE_SYSTIME, NET_GCL_CTL, NET_GCL_CTL_ENABLE, Reg.fld, List.mem_cons, List.not_mem_nil, or_false, or_true, true_or] <;> omega))

theorem Chip.applyGcl_within {P : List Nat} {T : List Part} {c₀ c : Chip} {p : Nat} {ws : List Nat} (hb_p : p < 2) (hw0 : Chip.Within P T c₀ c)
    (hp : [64].all P.contains = true) (ht : ([.nets] : List Part).all T.contains = true) : Chip.Within P T c₀ (c.applyGcl p ws) := by
  refine Chip.Within.within hw0 hp ht ?_
  clear hw0 hp ht
  unfold Chip.applyGcl
  have hl : bits (ws.getD 2 0) 2 9 < 512 := Nat.mod_lt _ (by decide)
  repeat' (first
    | with_reducible exact Chip.Within.refl
    | dsimp only
    | (with_reducible apply Chip.Within.set; (case hr => first | assumption | (simp only [NET_GCL_CTL, NET_GCL_CTL_PENDING, NET_GCL_CTL_SHADOW_ENABLE, NET_GCL_CTL_SHADOW_ENTRIES, NET_GCL_SHADOW, NET_GCL_SHADOW_CYCLE, NET_GCL_START, Reg.fld, List.mem_cons, List.not_mem_nil, or_false, or_true, true_or] <;> omega)))
    | (with_reducible apply Chip.Within.wr; (case hr => first | assumption | (simp only [NET_GCL_CTL, NET_GCL_CTL_PENDING, NET_GCL_CTL_SHADOW_ENABLE, NET_GCL_CTL_SHADOW_ENTRIES, NET_GCL_SHADOW, NET_GCL_SHADOW_CYCLE, NET_GCL_START, Reg.fld, List.mem_cons, List.not_mem_nil, or_false, or_true, true_or] <;> omega)))
    | (with_reducible apply Chip.Within.put; (case hr => first | assumption | (simp only [NET_GCL_CTL, NET_GCL_CTL_PENDING, NET_GCL_CTL_SHADOW_ENABLE, NET_GCL_CTL_SHADOW_ENTRIES, NET_GCL_SHADOW, NET_GCL_SHADOW_CYCLE, NET_GCL_START, Reg.fld, List.mem_cons, List.not_mem_nil, or_false, or_true, true_or] <;> omega)))
    | (with_reducible apply Chip.setNet_within; (case hp => decide); (case ht => decide))
    | with_reducible apply Chip.Within.each
    | (intro y a ha; (try simp only [List.mem_range, List.mem_filter, List.mem_map, List.mem_flatMap, List.mem_cons, List.not_mem_nil, or_false, Bool.and_eq_true, decide_eq_true_eq, beq_iff_eq, Chip.planesOf] at ha); (first | (have hb := Nat.lt_of_lt_of_le ha (Nat.le_refl _)) | (have hb := Chip.mem_groupOf (by first | assumption | omega | (with_reducible apply Chip.leadOf_lt; first | assumption | omega)) ha) | (have hb := Chip.mem_destsOf ha) | (have hb := Chip.mem_routed ha) | (obtain ⟨i, hi, hd⟩ := ha; have hb := Chip.mem_destsOf hd) | (obtain ⟨hi, hj⟩ := ha; have hb : a ≤ 1 := by omega) | (obtain ⟨i, hi, rfl⟩ := ha) | (obtain ⟨hi, hj⟩ := ha; first | (have hb := Chip.mem_destsOf hi) | (have hb := Nat.lt_of_lt_of_le hi (Nat.le_refl _)) | skip) | skip))
    | assumption
    | omega
    | (with_reducible apply Chip.bits_lt_of; decide)
    | (simp only [NET_GCL_CTL, NET_GCL_CTL_PENDING, NET_GCL_CTL_SHADOW_ENABLE, NET_GCL_CTL_SHADOW_ENTRIES, NET_GCL_SHADOW, NET_GCL_SHADOW_CYCLE, NET_GCL_START, Reg.fld, List.mem_cons, List.not_mem_nil, or_false, or_true, true_or] <;> omega))

theorem Chip.gclTaken_within {P : List Nat} {T : List Part} {c₀ c : Chip} {p : Nat} (hb_p : p < 2) (hw0 : Chip.Within P T c₀ c)
    (hp : [1, 64].all P.contains = true) (ht : ([.nets] : List Part).all T.contains = true) : Chip.Within P T c₀ (c.gclTaken p) := by
  refine Chip.Within.within hw0 hp ht ?_
  clear hw0 hp ht
  unfold Chip.gclTaken
  have hl := @Chip.gclShadow_lt c p
  repeat' (first
    | with_reducible exact Chip.Within.refl
    | dsimp only
    | (with_reducible apply Chip.Within.set; (case hr => first | assumption | (simp only [NET_GCL, NET_GCL_CTL, NET_GCL_CTL_ENABLE, NET_GCL_CTL_ENTRIES, NET_GCL_CTL_PENDING, NET_GCL_CTL_SHADOW_ENABLE, NET_GCL_CYCLE, NET_GCL_SHADOW_CYCLE, NET_PORT_STATUS, NET_PORT_STATUS_GCL_TAKEN, Reg.fld, List.mem_cons, List.not_mem_nil, or_false, or_true, true_or] <;> omega)))
    | (with_reducible apply Chip.Within.clr; (case hr => first | assumption | (simp only [NET_GCL, NET_GCL_CTL, NET_GCL_CTL_ENABLE, NET_GCL_CTL_ENTRIES, NET_GCL_CTL_PENDING, NET_GCL_CTL_SHADOW_ENABLE, NET_GCL_CYCLE, NET_GCL_SHADOW_CYCLE, NET_PORT_STATUS, NET_PORT_STATUS_GCL_TAKEN, Reg.fld, List.mem_cons, List.not_mem_nil, or_false, or_true, true_or] <;> omega)))
    | (with_reducible apply Chip.Within.wr; (case hr => first | assumption | (simp only [NET_GCL, NET_GCL_CTL, NET_GCL_CTL_ENABLE, NET_GCL_CTL_ENTRIES, NET_GCL_CTL_PENDING, NET_GCL_CTL_SHADOW_ENABLE, NET_GCL_CYCLE, NET_GCL_SHADOW_CYCLE, NET_PORT_STATUS, NET_PORT_STATUS_GCL_TAKEN, Reg.fld, List.mem_cons, List.not_mem_nil, or_false, or_true, true_or] <;> omega)))
    | (with_reducible apply Chip.Within.wrB; (case hr => first | assumption | (simp only [NET_GCL, NET_GCL_CTL, NET_GCL_CTL_ENABLE, NET_GCL_CTL_ENTRIES, NET_GCL_CTL_PENDING, NET_GCL_CTL_SHADOW_ENABLE, NET_GCL_CYCLE, NET_GCL_SHADOW_CYCLE, NET_PORT_STATUS, NET_PORT_STATUS_GCL_TAKEN, Reg.fld, List.mem_cons, List.not_mem_nil, or_false, or_true, true_or] <;> omega)))
    | (with_reducible apply Chip.Within.put; (case hr => first | assumption | (simp only [NET_GCL, NET_GCL_CTL, NET_GCL_CTL_ENABLE, NET_GCL_CTL_ENTRIES, NET_GCL_CTL_PENDING, NET_GCL_CTL_SHADOW_ENABLE, NET_GCL_CYCLE, NET_GCL_SHADOW_CYCLE, NET_PORT_STATUS, NET_PORT_STATUS_GCL_TAKEN, Reg.fld, List.mem_cons, List.not_mem_nil, or_false, or_true, true_or] <;> omega)))
    | (with_reducible apply Chip.gclBoundary_within; (case hp => decide); (case ht => decide))
    | (with_reducible apply Chip.setNet_within; (case hp => decide); (case ht => decide))
    | with_reducible apply Chip.Within.each
    | (intro y a ha; (try simp only [List.mem_range, List.mem_filter, List.mem_map, List.mem_flatMap, List.mem_cons, List.not_mem_nil, or_false, Bool.and_eq_true, decide_eq_true_eq, beq_iff_eq, Chip.planesOf] at ha); (first | (have hb := Nat.lt_of_lt_of_le ha (Nat.le_refl _)) | (have hb := Chip.mem_groupOf (by first | assumption | omega | (with_reducible apply Chip.leadOf_lt; first | assumption | omega)) ha) | (have hb := Chip.mem_destsOf ha) | (have hb := Chip.mem_routed ha) | (obtain ⟨i, hi, hd⟩ := ha; have hb := Chip.mem_destsOf hd) | (obtain ⟨hi, hj⟩ := ha; have hb : a ≤ 1 := by omega) | (obtain ⟨i, hi, rfl⟩ := ha) | (obtain ⟨hi, hj⟩ := ha; first | (have hb := Chip.mem_destsOf hi) | (have hb := Nat.lt_of_lt_of_le hi (Nat.le_refl _)) | skip) | skip))
    | (with_reducible apply Chip.Within.post; (case hm => decide))
    | assumption
    | omega
    | split
    | (simp only [NET_GCL, NET_GCL_CTL, NET_GCL_CTL_ENABLE, NET_GCL_CTL_ENTRIES, NET_GCL_CTL_PENDING, NET_GCL_CTL_SHADOW_ENABLE, NET_GCL_CYCLE, NET_GCL_SHADOW_CYCLE, NET_PORT_STATUS, NET_PORT_STATUS_GCL_TAKEN, Reg.fld, List.mem_cons, List.not_mem_nil, or_false, or_true, true_or] <;> omega))

theorem Chip.gclReload_within {P : List Nat} {T : List Part} {c₀ c : Chip}  (hw0 : Chip.Within P T c₀ c)
    (hp : [64].all P.contains = true) (ht : ([.nets] : List Part).all T.contains = true) : Chip.Within P T c₀ (c.gclReload) := by
  refine Chip.Within.within hw0 hp ht ?_
  clear hw0 hp ht
  unfold Chip.gclReload
  repeat' (first
    | with_reducible exact Chip.Within.refl
    | dsimp only
    | (with_reducible apply Chip.applyGcl_within; (case hp => decide); (case ht => decide))
    | (with_reducible apply Chip.setNet_within; (case hp => decide); (case ht => decide))
    | with_reducible apply Chip.Within.each
    | (intro y a ha; (try simp only [List.mem_range, List.mem_filter, List.mem_map, List.mem_flatMap, List.mem_cons, List.not_mem_nil, or_false, Bool.and_eq_true, decide_eq_true_eq, beq_iff_eq, Chip.planesOf] at ha); (first | (have hb := Nat.lt_of_lt_of_le ha (Nat.le_refl _)) | (have hb := Chip.mem_groupOf (by first | assumption | omega | (with_reducible apply Chip.leadOf_lt; first | assumption | omega)) ha) | (have hb := Chip.mem_destsOf ha) | (have hb := Chip.mem_routed ha) | (obtain ⟨i, hi, hd⟩ := ha; have hb := Chip.mem_destsOf hd) | (obtain ⟨hi, hj⟩ := ha; have hb : a ≤ 1 := by omega) | (obtain ⟨i, hi, rfl⟩ := ha) | (obtain ⟨hi, hj⟩ := ha; first | (have hb := Chip.mem_destsOf hi) | (have hb := Nat.lt_of_lt_of_le hi (Nat.le_refl _)) | skip) | skip))
    | assumption
    | omega
    | split
    | (simp only [Reg.fld, List.mem_cons, List.not_mem_nil, or_false, or_true, true_or] <;> omega))


theorem Chip.setFlow_within {P : List Nat} {T : List Part} {c₀ c : Chip} {f : Nat} {x : Flow} (hw0 : Chip.Within P T c₀ c)
    (hp : [].all P.contains = true) (ht : ([.flows] : List Part).all T.contains = true) : Chip.Within P T c₀ (c.setFlow f x) := by
  refine Chip.Within.within hw0 hp ht ?_
  clear hw0 hp ht
  unfold Chip.setFlow
  repeat' (first
    | with_reducible exact Chip.Within.refl
    | dsimp only
    | (fail_if_no_progress (with_reducible apply Chip.Within.to_flows; (case hk => decide)))
    | assumption
    | omega
    | (simp only [Reg.fld, List.mem_cons, List.not_mem_nil, or_false, or_true, true_or] <;> omega))

theorem Chip.setSender_within {P : List Nat} {T : List Part} {c₀ c : Chip} {s : Nat} {x : Sender} (hw0 : Chip.Within P T c₀ c)
    (hp : [].all P.contains = true) (ht : ([.senders] : List Part).all T.contains = true) : Chip.Within P T c₀ (c.setSender s x) := by
  refine Chip.Within.within hw0 hp ht ?_
  clear hw0 hp ht
  unfold Chip.setSender
  repeat' (first
    | with_reducible exact Chip.Within.refl
    | dsimp only
    | (fail_if_no_progress (with_reducible apply Chip.Within.to_senders; (case hk => decide)))
    | assumption
    | omega
    | (simp only [Reg.fld, List.mem_cons, List.not_mem_nil, or_false, or_true, true_or] <;> omega))

theorem Chip.rxfCount_within {P : List Nat} {T : List Part} {c₀ c : Chip} {f k n : Nat} (hb_f : f < 112) (hb_k : k < 9) (hw0 : Chip.Within P T c₀ c)
    (hp : [64].all P.contains = true) (ht : ([] : List Part).all T.contains = true) : Chip.Within P T c₀ (c.rxfCount f k n) := by
  refine Chip.Within.within hw0 hp ht ?_
  clear hw0 hp ht
  unfold Chip.rxfCount
  repeat' (first
    | with_reducible exact Chip.Within.refl
    | dsimp only
    | (with_reducible apply Chip.Within.put; (case hr => first | assumption | (simp only [NET_RXF_CNT, NET_RXF_STAT, NET_RXF_STAT_HALF, Reg.fld, List.mem_cons, List.not_mem_nil, or_false, or_true, true_or] <;> omega)))
    | (with_reducible apply Chip.Within.setBit; (case hr => first | assumption | (simp only [NET_RXF_CNT, NET_RXF_STAT, NET_RXF_STAT_HALF, Reg.fld, List.mem_cons, List.not_mem_nil, or_false, or_true, true_or] <;> omega)))
    | with_reducible apply Chip.Within.when'
    | assumption
    | intro y
    | omega
    | (simp only [NET_RXF_CNT, NET_RXF_STAT, NET_RXF_STAT_HALF, Reg.fld, List.mem_cons, List.not_mem_nil, or_false, or_true, true_or] <;> omega))

theorem Chip.txfCount_within {P : List Nat} {T : List Part} {c₀ c : Chip} {s k n : Nat} (hb_s : s < 112) (hb_k : k < 4) (hw0 : Chip.Within P T c₀ c)
    (hp : [64].all P.contains = true) (ht : ([] : List Part).all T.contains = true) : Chip.Within P T c₀ (c.txfCount s k n) := by
  refine Chip.Within.within hw0 hp ht ?_
  clear hw0 hp ht
  unfold Chip.txfCount
  repeat' (first
    | with_reducible exact Chip.Within.refl
    | dsimp only
    | (with_reducible apply Chip.Within.put; (case hr => first | assumption | (simp only [NET_TXF_CNT, NET_TXF_STAT, NET_TXF_STAT_HALF, Reg.fld, List.mem_cons, List.not_mem_nil, or_false, or_true, true_or] <;> omega)))
    | (with_reducible apply Chip.Within.setBit; (case hr => first | assumption | (simp only [NET_TXF_CNT, NET_TXF_STAT, NET_TXF_STAT_HALF, Reg.fld, List.mem_cons, List.not_mem_nil, or_false, or_true, true_or] <;> omega)))
    | with_reducible apply Chip.Within.when'
    | assumption
    | intro y
    | omega
    | (simp only [NET_TXF_CNT, NET_TXF_STAT, NET_TXF_STAT_HALF, Reg.fld, List.mem_cons, List.not_mem_nil, or_false, or_true, true_or] <;> omega))

theorem Chip.legHeard_within {P : List Nat} {T : List Part} {c₀ c : Chip} {f leg : Nat} (hb_f : f < 112) (hb_leg : leg < 2) (hw0 : Chip.Within P T c₀ c)
    (hp : [1, 64].all P.contains = true) (ht : ([.flows] : List Part).all T.contains = true) : Chip.Within P T c₀ (c.legHeard f leg) := by
  refine Chip.Within.within hw0 hp ht ?_
  clear hw0 hp ht
  unfold Chip.legHeard
  repeat' (first
    | with_reducible exact Chip.Within.refl
    | dsimp only
    | (with_reducible apply Chip.Within.set; (case hr => first | assumption | (simp only [NET_RXF_STAT, legUp, Reg.fld, List.mem_cons, List.not_mem_nil, or_false, or_true, true_or] <;> omega)))
    | (with_reducible apply Chip.rxfCount_within; (case hp => decide); (case ht => decide))
    | (with_reducible apply Chip.setFlow_within; (case hp => decide); (case ht => decide))
    | with_reducible apply Chip.Within.when'
    | (with_reducible apply Chip.Within.post; (case hm => decide))
    | assumption
    | intro y
    | omega
    | split
    | (simp only [NET_RXF_STAT, legUp, Reg.fld, List.mem_cons, List.not_mem_nil, or_false, or_true, true_or] <;> omega))

theorem Chip.legLost_within {P : List Nat} {T : List Part} {c₀ c : Chip} {f leg : Nat} (hb_f : f < 112) (hb_leg : leg < 2) (hw0 : Chip.Within P T c₀ c)
    (hp : [1, 64].all P.contains = true) (ht : ([.flows] : List Part).all T.contains = true) : Chip.Within P T c₀ (c.legLost f leg) := by
  refine Chip.Within.within hw0 hp ht ?_
  clear hw0 hp ht
  unfold Chip.legLost
  repeat' (first
    | with_reducible exact Chip.Within.refl
    | dsimp only
    | (with_reducible apply Chip.Within.set; (case hr => first | assumption | (simp only [NET_FLOW_STATUS, NET_FLOW_STATUS_LEG_LOST, NET_RXF_STAT, NET_RXF_STAT_LEG_LOST_SEEN, NET_RXF_STAT_STATE, legUp, Reg.fld, List.mem_cons, List.not_mem_nil, or_false, or_true, true_or] <;> omega) | (exact Chip.flow_pages (by simp only [Chip.rxPort, Chip.txPort, Reg.fld, NET_FLOW_STATUS_LEG_LOST, NET_RXF_STAT_LEG_LOST_SEEN, NET_RXF_STAT_STATE] <;> rfl) (by decide))))
    | (with_reducible apply Chip.Within.clr; (case hr => first | assumption | (simp only [NET_FLOW_STATUS, NET_FLOW_STATUS_LEG_LOST, NET_RXF_STAT, NET_RXF_STAT_LEG_LOST_SEEN, NET_RXF_STAT_STATE, legUp, Reg.fld, List.mem_cons, List.not_mem_nil, or_false, or_true, true_or] <;> omega) | (exact Chip.flow_pages (by simp only [Chip.rxPort, Chip.txPort, Reg.fld, NET_FLOW_STATUS_LEG_LOST, NET_RXF_STAT_LEG_LOST_SEEN, NET_RXF_STAT_STATE] <;> rfl) (by decide))))
    | (with_reducible apply Chip.Within.wr; (case hr => first | assumption | (simp only [NET_FLOW_STATUS, NET_FLOW_STATUS_LEG_LOST, NET_RXF_STAT, NET_RXF_STAT_LEG_LOST_SEEN, NET_RXF_STAT_STATE, legUp, Reg.fld, List.mem_cons, List.not_mem_nil, or_false, or_true, true_or] <;> omega) | (exact Chip.flow_pages (by simp only [Chip.rxPort, Chip.txPort, Reg.fld, NET_FLOW_STATUS_LEG_LOST, NET_RXF_STAT_LEG_LOST_SEEN, NET_RXF_STAT_STATE] <;> rfl) (by decide))))
    | (with_reducible apply Chip.setFlow_within; (case hp => decide); (case ht => decide))
    | with_reducible apply Chip.Within.when'
    | (with_reducible apply Chip.Within.post; (case hm => decide))
    | assumption
    | intro y
    | omega
    | with_reducible apply Chip.rxPort_lt
    | split
    | (simp only [NET_FLOW_STATUS, NET_FLOW_STATUS_LEG_LOST, NET_RXF_STAT, NET_RXF_STAT_LEG_LOST_SEEN, NET_RXF_STAT_STATE, legUp, Reg.fld, List.mem_cons, List.not_mem_nil, or_false, or_true, true_or] <;> omega))

theorem Chip.legRestored_within {P : List Nat} {T : List Part} {c₀ c : Chip} {f leg : Nat} (hb_f : f < 112) (hb_leg : leg < 2) (hw0 : Chip.Within P T c₀ c)
    (hp : [1, 64].all P.contains = true) (ht : ([.flows] : List Part).all T.contains = true) : Chip.Within P T c₀ (c.legRestored f leg) := by
  refine Chip.Within.within hw0 hp ht ?_
  clear hw0 hp ht
  unfold Chip.legRestored
  repeat' (first
    | with_reducible exact Chip.Within.refl
    | dsimp only
    | (with_reducible apply Chip.Within.set; (case hr => first | assumption | (simp only [NET_RXF_STAT, legUp, Reg.fld, List.mem_cons, List.not_mem_nil, or_false, or_true, true_or] <;> omega)))
    | (with_reducible apply Chip.setFlow_within; (case hp => decide); (case ht => decide))
    | (with_reducible apply Chip.Within.post; (case hm => decide))
    | assumption
    | omega
    | split
    | (simp only [NET_RXF_STAT, legUp, Reg.fld, List.mem_cons, List.not_mem_nil, or_false, or_true, true_or] <;> omega))

theorem Chip.countBad_within {P : List Nat} {T : List Part} {c₀ c : Chip} {f : Nat} (hb_f : f < 112) (hw0 : Chip.Within P T c₀ c)
    (hp : [64].all P.contains = true) (ht : ([] : List Part).all T.contains = true) : Chip.Within P T c₀ (c.countBad f) := by
  refine Chip.Within.within hw0 hp ht ?_
  clear hw0 hp ht
  unfold Chip.countBad
  repeat' (first
    | with_reducible exact Chip.Within.refl
    | dsimp only
    | (with_reducible apply Chip.rxfCount_within; (case hp => decide); (case ht => decide))
    | assumption
    | omega
    | (simp only [Reg.fld, List.mem_cons, List.not_mem_nil, or_false, or_true, true_or] <;> omega))

theorem Chip.countLate_within {P : List Nat} {T : List Part} {c₀ c : Chip} {f : Nat} (hb_f : f < 112) (hw0 : Chip.Within P T c₀ c)
    (hp : [64].all P.contains = true) (ht : ([] : List Part).all T.contains = true) : Chip.Within P T c₀ (c.countLate f) := by
  refine Chip.Within.within hw0 hp ht ?_
  clear hw0 hp ht
  unfold Chip.countLate
  repeat' (first
    | with_reducible exact Chip.Within.refl
    | dsimp only
    | (with_reducible apply Chip.Within.set; (case hr => first | assumption | (simp only [NET_FLOW_STATUS, NET_FLOW_STATUS_LATE, NET_RXF_STAT, NET_RXF_STAT_LATE_SEEN, Reg.fld, List.mem_cons, List.not_mem_nil, or_false, or_true, true_or] <;> omega) | (exact Chip.flow_pages (by simp only [Chip.rxPort, Chip.txPort, Reg.fld, NET_FLOW_STATUS_LATE, NET_RXF_STAT_LATE_SEEN] <;> rfl) (by decide))))
    | (with_reducible apply Chip.rxfCount_within; (case hp => decide); (case ht => decide))
    | assumption
    | omega
    | with_reducible apply Chip.rxPort_lt
    | (simp only [NET_FLOW_STATUS, NET_FLOW_STATUS_LATE, NET_RXF_STAT, NET_RXF_STAT_LATE_SEEN, Reg.fld, List.mem_cons, List.not_mem_nil, or_false, or_true, true_or] <;> omega))

theorem Chip.countEarly_within {P : List Nat} {T : List Part} {c₀ c : Chip} {f : Nat} (hb_f : f < 112) (hw0 : Chip.Within P T c₀ c)
    (hp : [64].all P.contains = true) (ht : ([] : List Part).all T.contains = true) : Chip.Within P T c₀ (c.countEarly f) := by
  refine Chip.Within.within hw0 hp ht ?_
  clear hw0 hp ht
  unfold Chip.countEarly
  repeat' (first
    | with_reducible exact Chip.Within.refl
    | dsimp only
    | (with_reducible apply Chip.Within.set; (case hr => first | assumption | (simp only [NET_RXF_STAT, NET_RXF_STAT_EARLY_SEEN, Reg.fld, List.mem_cons, List.not_mem_nil, or_false, or_true, true_or] <;> omega)))
    | (with_reducible apply Chip.rxfCount_within; (case hp => decide); (case ht => decide))
    | assumption
    | omega
    | (simp only [NET_RXF_STAT, NET_RXF_STAT_EARLY_SEEN, Reg.fld, List.mem_cons, List.not_mem_nil, or_false, or_true, true_or] <;> omega))

theorem Chip.countMissing_within {P : List Nat} {T : List Part} {c₀ c : Chip} {f n : Nat} (hb_f : f < 112) (hw0 : Chip.Within P T c₀ c)
    (hp : [64].all P.contains = true) (ht : ([] : List Part).all T.contains = true) : Chip.Within P T c₀ (c.countMissing f n) := by
  refine Chip.Within.within hw0 hp ht ?_
  clear hw0 hp ht
  unfold Chip.countMissing
  repeat' (first
    | with_reducible exact Chip.Within.refl
    | dsimp only
    | (with_reducible apply Chip.Within.set; (case hr => first | assumption | (simp only [NET_RXF_STAT, NET_RXF_STAT_MISSING_SEEN, Reg.fld, List.mem_cons, List.not_mem_nil, or_false, or_true, true_or] <;> omega)))
    | (with_reducible apply Chip.rxfCount_within; (case hp => decide); (case ht => decide))
    | with_reducible apply Chip.Within.when'
    | assumption
    | intro y
    | omega
    | (simp only [NET_RXF_STAT, NET_RXF_STAT_MISSING_SEEN, Reg.fld, List.mem_cons, List.not_mem_nil, or_false, or_true, true_or] <;> omega))

theorem Chip.offGrid_within {P : List Nat} {T : List Part} {c₀ c : Chip} {f : Nat} (hb_f : f < 112) (hw0 : Chip.Within P T c₀ c)
    (hp : [1, 64].all P.contains = true) (ht : ([.flows] : List Part).all T.contains = true) : Chip.Within P T c₀ (c.offGrid f) := by
  refine Chip.Within.within hw0 hp ht ?_
  clear hw0 hp ht
  unfold Chip.offGrid
  repeat' (first
    | with_reducible exact Chip.Within.refl
    | dsimp only
    | (with_reducible apply Chip.Within.set; (case hr => first | assumption | (simp only [NET_FLOW_STATUS, NET_FLOW_STATUS_OFF_GRID, NET_RXF_OFFSET, NET_RXF_STAT, NET_RXF_STAT_OFF_GRID_SEEN, Reg.fld, List.mem_cons, List.not_mem_nil, or_false, or_true, true_or] <;> omega) | (exact Chip.flow_pages (by simp only [Chip.rxPort, Chip.txPort, Reg.fld, NET_FLOW_STATUS_OFF_GRID, NET_RXF_STAT_OFF_GRID_SEEN] <;> rfl) (by decide))))
    | (with_reducible apply Chip.countBad_within; (case hp => decide); (case ht => decide))
    | (with_reducible apply Chip.setFlow_within; (case hp => decide); (case ht => decide))
    | with_reducible apply Chip.Within.when'
    | (with_reducible apply Chip.Within.post; (case hm => decide))
    | assumption
    | intro y
    | omega
    | with_reducible apply Chip.rxPort_lt
    | split
    | (simp only [NET_FLOW_STATUS, NET_FLOW_STATUS_OFF_GRID, NET_RXF_OFFSET, NET_RXF_STAT, NET_RXF_STAT_OFF_GRID_SEEN, Reg.fld, List.mem_cons, List.not_mem_nil, or_false, or_true, true_or] <;> omega))

theorem Chip.insertAnc_within {P : List Nat} {T : List Part} {c₀ c : Chip} {f : Nat} {fr : Nat} {l : List (Bool × Nat)} (hb_f : f < 112) (hw0 : Chip.Within P T c₀ c)
    (hp : [64].all P.contains = true) (ht : ([.flows] : List Part).all T.contains = true) : Chip.Within P T c₀ (c.insertAnc f fr l) := by
  refine Chip.Within.within hw0 hp ht ?_
  clear hw0 hp ht
  unfold Chip.insertAnc
  repeat' (first
    | with_reducible exact Chip.Within.refl
    | dsimp only
    | (with_reducible apply Chip.countBad_within; (case hp => decide); (case ht => decide))
    | (with_reducible apply Chip.setFlow_within; (case hp => decide); (case ht => decide))
    | with_reducible apply Chip.Within.each
    | (intro y a ha; (try simp only [List.mem_range, List.mem_filter, List.mem_map, List.mem_flatMap, List.mem_cons, List.not_mem_nil, or_false, Bool.and_eq_true, decide_eq_true_eq, beq_iff_eq, Chip.planesOf] at ha); (first | (have hb := Nat.lt_of_lt_of_le ha (Nat.le_refl _)) | (have hb := Chip.mem_groupOf (by first | assumption | omega | (with_reducible apply Chip.leadOf_lt; first | assumption | omega)) ha) | (have hb := Chip.mem_destsOf ha) | (have hb := Chip.mem_routed ha) | (obtain ⟨i, hi, hd⟩ := ha; have hb := Chip.mem_destsOf hd) | (obtain ⟨hi, hj⟩ := ha; have hb : a ≤ 1 := by omega) | (obtain ⟨i, hi, rfl⟩ := ha) | (obtain ⟨hi, hj⟩ := ha; first | (have hb := Chip.mem_destsOf hi) | (have hb := Nat.lt_of_lt_of_le hi (Nat.le_refl _)) | skip) | skip))
    | assumption
    | omega
    | split
    | (simp only [Reg.fld, List.mem_cons, List.not_mem_nil, or_false, or_true, true_or] <;> omega))

theorem Chip.mediaPacket_within {P : List Nat} {T : List Part} {c₀ c : Chip} {f leg : Nat} {p : MediaPacket} (hb_f : f < 112) (hb_leg : leg < 2) (hw0 : Chip.Within P T c₀ c)
    (hp : [1, 64].all P.contains = true) (ht : ([.flows] : List Part).all T.contains = true) : Chip.Within P T c₀ (c.mediaPacket f leg p) := by
  refine Chip.Within.within hw0 hp ht ?_
  clear hw0 hp ht
  unfold Chip.mediaPacket
  repeat' (first
    | with_reducible exact Chip.Within.refl
    | dsimp only
    | (with_reducible apply Chip.Within.wrI; (case hr => first | assumption | (simp only [NET_RXF_CTL, NET_RXF_CTL_FORMAT, NET_RXF_CTL_LAT, NET_RXF_OFFSET, NET_RXF_OFFSET_OFFSET, NET_RXF_STAT, NET_RXF_STAT_STATE, Reg.fld, List.mem_cons, List.not_mem_nil, or_false, or_true, true_or] <;> omega)))
    | (with_reducible apply Chip.countBad_within; (case hp => decide); (case ht => decide))
    | (with_reducible apply Chip.countEarly_within; (case hp => decide); (case ht => decide))
    | (with_reducible apply Chip.countLate_within; (case hp => decide); (case ht => decide))
    | (with_reducible apply Chip.flowReceiving_within; (case hp => decide); (case ht => decide))
    | (with_reducible apply Chip.insertAnc_within; (case hp => decide); (case ht => decide))
    | (with_reducible apply Chip.legHeard_within; (case hp => decide); (case ht => decide))
    | (with_reducible apply Chip.offGrid_within; (case hp => decide); (case ht => decide))
    | (with_reducible apply Chip.rxfCount_within; (case hp => decide); (case ht => decide))
    | (with_reducible apply Chip.setFlow_within; (case hp => decide); (case ht => decide))
    | with_reducible apply Chip.Within.when'
    | assumption
    | intro y
    | omega
    | (with_reducible apply Chip.rd_lt_of; simp only [NET_RXF_CTL, NET_RXF_CTL_FORMAT, NET_RXF_CTL_LAT, NET_RXF_OFFSET, NET_RXF_OFFSET_OFFSET, NET_RXF_STAT, NET_RXF_STAT_STATE, Reg.fld, List.mem_cons, List.not_mem_nil, or_false, or_true, true_or] <;> decide)
    | split
    | (simp only [NET_RXF_CTL, NET_RXF_CTL_FORMAT, NET_RXF_CTL_LAT, NET_RXF_OFFSET, NET_RXF_OFFSET_OFFSET, NET_RXF_STAT, NET_RXF_STAT_STATE, Reg.fld, List.mem_cons, List.not_mem_nil, or_false, or_true, true_or] <;> omega))

theorem Chip.account_within {P : List Nat} {T : List Part} {c₀ c : Chip} {f : Nat} {due : Nat → Bool} (hb_f : f < 112) (hw0 : Chip.Within P T c₀ c)
    (hp : [64].all P.contains = true) (ht : ([.flows] : List Part).all T.contains = true) : Chip.Within P T c₀ (c.account f due) := by
  refine Chip.Within.within hw0 hp ht ?_
  clear hw0 hp ht
  unfold Chip.account
  repeat' (first
    | with_reducible exact Chip.Within.refl
    | dsimp only
    | (with_reducible apply Chip.countMissing_within; (case hp => decide); (case ht => decide))
    | (with_reducible apply Chip.setFlow_within; (case hp => decide); (case ht => decide))
    | assumption
    | omega
    | split
    | (simp only [Reg.fld, List.mem_cons, List.not_mem_nil, or_false, or_true, true_or] <;> omega))

theorem Chip.marginSeen_within {P : List Nat} {T : List Part} {c₀ c : Chip} {f : Nat} {m : Int} (hb_f : f < 112) (hw0 : Chip.Within P T c₀ c)
    (hp : [64].all P.contains = true) (ht : ([.flows] : List Part).all T.contains = true) : Chip.Within P T c₀ (c.marginSeen f m) := by
  refine Chip.Within.within hw0 hp ht ?_
  clear hw0 hp ht
  unfold Chip.marginSeen
  repeat' (first
    | with_reducible exact Chip.Within.refl
    | dsimp only
    | (with_reducible apply Chip.Within.wrI; (case hr => first | assumption | (simp only [NET_RXF_OFFSET, NET_RXF_OFFSET_OFFSET, Reg.fld, List.mem_cons, List.not_mem_nil, or_false, or_true, true_or] <;> omega)))
    | (with_reducible apply Chip.setFlow_within; (case hp => decide); (case ht => decide))
    | assumption
    | omega
    | split
    | (simp only [NET_RXF_OFFSET, NET_RXF_OFFSET_OFFSET, Reg.fld, List.mem_cons, List.not_mem_nil, or_false, or_true, true_or] <;> omega))

theorem Chip.audioPacket_within {P : List Nat} {T : List Part} {c₀ c : Chip} {f leg : Nat} {p : AudioPacket} (hb_f : f < 112) (hb_leg : leg < 2) (hw0 : Chip.Within P T c₀ c)
    (hp : [1, 64].all P.contains = true) (ht : ([.flows] : List Part).all T.contains = true) : Chip.Within P T c₀ (c.audioPacket f leg p) := by
  refine Chip.Within.within hw0 hp ht ?_
  clear hw0 hp ht
  unfold Chip.audioPacket
  repeat' (first
    | with_reducible exact Chip.Within.refl
    | dsimp only
    | (with_reducible apply Chip.Within.set; (case hr => first | assumption | (simp only [NET_RXF_AUX, NET_RXF_AUX_AES3, NET_RXF_AUX_ALAT, NET_RXF_STAT, NET_RXF_STAT_NON_PCM, NET_RXF_STAT_STATE, Reg.fld, List.mem_cons, List.not_mem_nil, or_false, or_true, true_or] <;> omega)))
    | (with_reducible apply Chip.account_within; (case hp => decide); (case ht => decide))
    | (with_reducible apply Chip.countBad_within; (case hp => decide); (case ht => decide))
    | (with_reducible apply Chip.countEarly_within; (case hp => decide); (case ht => decide))
    | (with_reducible apply Chip.flowReceiving_within; (case hp => decide); (case ht => decide))
    | (with_reducible apply Chip.legHeard_within; (case hp => decide); (case ht => decide))
    | (with_reducible apply Chip.marginSeen_within; (case hp => decide); (case ht => decide))
    | (with_reducible apply Chip.rxfCount_within; (case hp => decide); (case ht => decide))
    | (with_reducible apply Chip.setFlow_within; (case hp => decide); (case ht => decide))
    | with_reducible apply Chip.Within.when'
    | assumption
    | intro y
    | omega
    | (with_reducible apply Chip.rd_lt_of; simp only [NET_RXF_AUX, NET_RXF_AUX_AES3, NET_RXF_AUX_ALAT, NET_RXF_STAT, NET_RXF_STAT_NON_PCM, NET_RXF_STAT_STATE, Reg.fld, List.mem_cons, List.not_mem_nil, or_false, or_true, true_or] <;> decide)
    | split
    | (simp only [NET_RXF_AUX, NET_RXF_AUX_AES3, NET_RXF_AUX_ALAT, NET_RXF_STAT, NET_RXF_STAT_NON_PCM, NET_RXF_STAT_STATE, Reg.fld, List.mem_cons, List.not_mem_nil, or_false, or_true, true_or] <;> omega))

theorem Chip.audioLate_within {P : List Nat} {T : List Part} {c₀ c : Chip} {f seq : Nat} (hb_f : f < 112) (hw0 : Chip.Within P T c₀ c)
    (hp : [64].all P.contains = true) (ht : ([.flows] : List Part).all T.contains = true) : Chip.Within P T c₀ (c.audioLate f seq) := by
  refine Chip.Within.within hw0 hp ht ?_
  clear hw0 hp ht
  unfold Chip.audioLate
  repeat' (first
    | with_reducible exact Chip.Within.refl
    | dsimp only
    | (with_reducible apply Chip.countLate_within; (case hp => decide); (case ht => decide))
    | (with_reducible apply Chip.countMissing_within; (case hp => decide); (case ht => decide))
    | (with_reducible apply Chip.setFlow_within; (case hp => decide); (case ht => decide))
    | assumption
    | omega
    | split
    | (simp only [NET_RXF_CTL, NET_RXF_CTL_JOINED, Reg.fld, List.mem_cons, List.not_mem_nil, or_false, or_true, true_or] <;> omega))

theorem Chip.packetRelease_within {P : List Nat} {T : List Part} {c₀ c : Chip} {s leg slot : Nat} (hb_s : s < 112) (hb_leg : leg < 2) (hw0 : Chip.Within P T c₀ c)
    (hp : [64].all P.contains = true) (ht : ([.senders] : List Part).all T.contains = true) : Chip.Within P T c₀ (c.packetRelease s leg slot) := by
  refine Chip.Within.within hw0 hp ht ?_
  clear hw0 hp ht
  unfold Chip.packetRelease
  repeat' (first
    | with_reducible exact Chip.Within.refl
    | dsimp only
    | (with_reducible apply Chip.Within.set; (case hr => first | assumption | (simp only [NET_FLOW_STATUS, NET_FLOW_STATUS_LATE_RELEASE, NET_TXF_CTL, NET_TXF_CTL_DUAL, NET_TXF_STAT, NET_TXF_STAT_LATE_REL_SEEN, NET_TXF_STAT_STATE, Reg.fld, List.mem_cons, List.not_mem_nil, or_false, or_true, true_or] <;> omega) | (exact Chip.flow_pages (by simp only [Chip.rxPort, Chip.txPort, Reg.fld, NET_FLOW_STATUS_LATE_RELEASE, NET_TXF_CTL_DUAL, NET_TXF_STAT_LATE_REL_SEEN, NET_TXF_STAT_STATE] <;> rfl) (by decide))))
    | (with_reducible apply Chip.setSender_within; (case hp => decide); (case ht => decide))
    | (with_reducible apply Chip.txfCount_within; (case hp => decide); (case ht => decide))
    | assumption
    | omega
    | with_reducible apply Chip.txPort_lt
    | (with_reducible apply Chip.rd_lt_of; simp only [NET_FLOW_STATUS, NET_FLOW_STATUS_LATE_RELEASE, NET_TXF_CTL, NET_TXF_CTL_DUAL, NET_TXF_STAT, NET_TXF_STAT_LATE_REL_SEEN, NET_TXF_STAT_STATE, Reg.fld, List.mem_cons, List.not_mem_nil, or_false, or_true, true_or] <;> decide)
    | split
    | (simp only [NET_FLOW_STATUS, NET_FLOW_STATUS_LATE_RELEASE, NET_TXF_CTL, NET_TXF_CTL_DUAL, NET_TXF_STAT, NET_TXF_STAT_LATE_REL_SEEN, NET_TXF_STAT_STATE, Reg.fld, List.mem_cons, List.not_mem_nil, or_false, or_true, true_or] <;> omega))

theorem Chip.ancSend_within {P : List Nat} {T : List Part} {c₀ c : Chip} {s : Nat} {sizes : List Nat} (hb_s : s < 112) (hw0 : Chip.Within P T c₀ c)
    (hp : [64].all P.contains = true) (ht : ([.senders] : List Part).all T.contains = true) : Chip.Within P T c₀ (c.ancSend s sizes) := by
  refine Chip.Within.within hw0 hp ht ?_
  clear hw0 hp ht
  unfold Chip.ancSend
  repeat' (first
    | with_reducible exact Chip.Within.refl
    | dsimp only
    | (with_reducible apply Chip.Within.set; (case hr => first | assumption | (simp only [NET_TXF_CTL, NET_TXF_CTL_DUAL, NET_TXF_STAT, NET_TXF_STAT_ANC_OVER_SEEN, NET_TXF_STAT_STATE, Reg.fld, List.mem_cons, List.not_mem_nil, or_false, or_true, true_or] <;> omega)))
    | (with_reducible apply Chip.setSender_within; (case hp => decide); (case ht => decide))
    | (with_reducible apply Chip.txfCount_within; (case hp => decide); (case ht => decide))
    | with_reducible apply Chip.Within.when'
    | assumption
    | intro y
    | omega
    | (with_reducible apply Chip.rd_lt_of; simp only [NET_TXF_CTL, NET_TXF_CTL_DUAL, NET_TXF_STAT, NET_TXF_STAT_ANC_OVER_SEEN, NET_TXF_STAT_STATE, Reg.fld, List.mem_cons, List.not_mem_nil, or_false, or_true, true_or] <;> decide)
    | split
    | (simp only [NET_TXF_CTL, NET_TXF_CTL_DUAL, NET_TXF_STAT, NET_TXF_STAT_ANC_OVER_SEEN, NET_TXF_STAT_STATE, Reg.fld, List.mem_cons, List.not_mem_nil, or_false, or_true, true_or] <;> omega))

theorem Chip.igmpReport_within {P : List Nat} {T : List Part} {c₀ c : Chip} {p : Nat} (hw0 : Chip.Within P T c₀ c)
    (hp : [].all P.contains = true) (ht : ([.nets] : List Part).all T.contains = true) : Chip.Within P T c₀ (c.igmpReport p) := by
  refine Chip.Within.within hw0 hp ht ?_
  clear hw0 hp ht
  unfold Chip.igmpReport
  repeat' (first
    | with_reducible exact Chip.Within.refl
    | dsimp only
    | (with_reducible apply Chip.setNet_within; (case hp => decide); (case ht => decide))
    | assumption
    | omega
    | split
    | (simp only [Reg.fld, List.mem_cons, List.not_mem_nil, or_false, or_true, true_or] <;> omega))


theorem Chip.setPtpPort_within {P : List Nat} {T : List Part} {c₀ c : Chip} {p : Nat} {x : PtpPort} (hw0 : Chip.Within P T c₀ c)
    (hp : [].all P.contains = true) (ht : ([.ptp] : List Part).all T.contains = true) : Chip.Within P T c₀ (c.setPtpPort p x) := by
  refine Chip.Within.within hw0 hp ht ?_
  clear hw0 hp ht
  unfold Chip.setPtpPort
  repeat' (first
    | with_reducible exact Chip.Within.refl
    | dsimp only
    | (with_reducible apply Chip.Within.set; (case hr => first | assumption | (simp only [Reg.fld, List.mem_cons, List.not_mem_nil, or_false, or_true, true_or] <;> omega)))
    | (fail_if_no_progress (with_reducible apply Chip.Within.to_ptp; (case hk => decide)))
    | assumption
    | omega
    | (simp only [Reg.fld, List.mem_cons, List.not_mem_nil, or_false, or_true, true_or] <;> omega))

theorem Chip.recShow_within {P : List Nat} {T : List Part} {c₀ c : Chip} {p : Nat} (hb_p : p < 2) (hw0 : Chip.Within P T c₀ c)
    (hp : [4].all P.contains = true) (ht : ([] : List Part).all T.contains = true) : Chip.Within P T c₀ (c.recShow p) := by
  refine Chip.Within.within hw0 hp ht ?_
  clear hw0 hp ht
  unfold Chip.recShow
  repeat' (first
    | with_reducible exact Chip.Within.refl
    | dsimp only
    | (with_reducible apply Chip.Within.wr; (case hr => first | assumption | (simp only [PTP_PORT_STAT, PTP_PORT_STAT_RXQ_FILL, PTP_PORT_STAT_TXR_FILL, PTP_RXQ_HEAD, PTP_TXR_HEAD, Reg.fld, List.mem_cons, List.not_mem_nil, or_false, or_true, true_or] <;> omega)))
    | (with_reducible apply Chip.Within.put; (case hr => first | assumption | (simp only [PTP_PORT_STAT, PTP_PORT_STAT_RXQ_FILL, PTP_PORT_STAT_TXR_FILL, PTP_RXQ_HEAD, PTP_TXR_HEAD, Reg.fld, List.mem_cons, List.not_mem_nil, or_false, or_true, true_or] <;> omega)))
    | with_reducible apply Chip.Within.each
    | (intro y a ha; (try simp only [List.mem_range, List.mem_filter, List.mem_map, List.mem_flatMap, List.mem_cons, List.not_mem_nil, or_false, Bool.and_eq_true, decide_eq_true_eq, beq_iff_eq, Chip.planesOf] at ha); (first | (have hb := Nat.lt_of_lt_of_le ha (Nat.le_refl _)) | (have hb := Chip.mem_groupOf (by first | assumption | omega | (with_reducible apply Chip.leadOf_lt; first | assumption | omega)) ha) | (have hb := Chip.mem_destsOf ha) | (have hb := Chip.mem_routed ha) | (obtain ⟨i, hi, hd⟩ := ha; have hb := Chip.mem_destsOf hd) | (obtain ⟨hi, hj⟩ := ha; have hb : a ≤ 1 := by omega) | (obtain ⟨i, hi, rfl⟩ := ha) | (obtain ⟨hi, hj⟩ := ha; first | (have hb := Chip.mem_destsOf hi) | (have hb := Nat.lt_of_lt_of_le hi (Nat.le_refl _)) | skip) | skip))
    | assumption
    | omega
    | (simp only [PTP_PORT_STAT, PTP_PORT_STAT_RXQ_FILL, PTP_PORT_STAT_TXR_FILL, PTP_RXQ_HEAD, PTP_TXR_HEAD, Reg.fld, List.mem_cons, List.not_mem_nil, or_false, or_true, true_or] <;> omega))

theorem Chip.recOvf_within {P : List Nat} {T : List Part} {c₀ c : Chip} {p kind : Nat} {port all : Fld} (hx_r : port.off / 65536 ∈ [1, 4]) (hx_d : all.off / 65536 ∈ [1, 4]) (hb_p : p < 2) (hw0 : Chip.Within P T c₀ c)
    (hp : [1, 4].all P.contains = true) (ht : ([] : List Part).all T.contains = true) : Chip.Within P T c₀ (c.recOvf p kind port all) := by
  refine Chip.Within.within hw0 hp ht ?_
  clear hw0 hp ht
  unfold Chip.recOvf
  repeat' (first
    | with_reducible exact Chip.Within.refl
    | dsimp only
    | (with_reducible apply Chip.Within.set; (case hr => first | assumption | (simp only [Reg.fld, List.mem_cons, List.not_mem_nil, or_false, or_true, true_or] <;> omega)))
    | with_reducible apply Chip.Within.when'
    | (with_reducible apply Chip.Within.post; (case hm => decide))
    | assumption
    | (intro d hd; exact hx_d d (by rw [hd]))
    | (intro d hd; subst hd; exact hx_d d (by assumption))
    | (intro d hd; cases hd)
    | intro y
    | omega
    | (simp only [Reg.fld, List.mem_cons, List.not_mem_nil, or_false, or_true, true_or] <;> omega))

theorem Chip.syncReceived_within {P : List Nat} {T : List Part} {c₀ c : Chip} {p seq domain id num err : Nat} (hb_p : p < 2) (hw0 : Chip.Within P T c₀ c)
    (hp : [1, 4].all P.contains = true) (ht : ([.ptp] : List Part).all T.contains = true) : Chip.Within P T c₀ (c.syncReceived p seq domain id num err) := by
  refine Chip.Within.within hw0 hp ht ?_
  clear hw0 hp ht
  unfold Chip.syncReceived
  repeat' (first
    | with_reducible exact Chip.Within.refl
    | dsimp only
    | (with_reducible apply Chip.Within.inc; (case hr => first | assumption | (simp only [PTP_CFG, PTP_CFG_DOMAIN, PTP_PORT_CFG, PTP_PORT_CFG_ENABLE, PTP_PORT_STAT, PTP_PORT_STAT_RXQ_OVF, PTP_RXQ_LOST, PTP_RXQ_LOST_COUNT, PTP_STATUS, PTP_STATUS_RXQ_OVF, Reg.fld, List.mem_cons, List.not_mem_nil, or_false, or_true, true_or] <;> omega)))
    | (with_reducible apply Chip.recOvf_within; (case hp => decide); (case ht => decide))
    | (with_reducible apply Chip.recShow_within; (case hp => decide); (case ht => decide))
    | (with_reducible apply Chip.setPtpPort_within; (case hp => decide); (case ht => decide))
    | assumption
    | (intro d hd; cases hd)
    | omega
    | (with_reducible apply Chip.rd_lt_of; simp only [PTP_CFG, PTP_CFG_DOMAIN, PTP_PORT_CFG, PTP_PORT_CFG_ENABLE, PTP_PORT_STAT, PTP_PORT_STAT_RXQ_OVF, PTP_RXQ_LOST, PTP_RXQ_LOST_COUNT, PTP_STATUS, PTP_STATUS_RXQ_OVF, Reg.fld, List.mem_cons, List.not_mem_nil, or_false, or_true, true_or] <;> decide)
    | split
    | (simp only [PTP_CFG, PTP_CFG_DOMAIN, PTP_PORT_CFG, PTP_PORT_CFG_ENABLE, PTP_PORT_STAT, PTP_PORT_STAT_RXQ_OVF, PTP_RXQ_LOST, PTP_RXQ_LOST_COUNT, PTP_STATUS, PTP_STATUS_RXQ_OVF, Reg.fld, List.mem_cons, List.not_mem_nil, or_false, or_true, true_or] <;> omega))

theorem Chip.delayReqSent_within {P : List Nat} {T : List Part} {c₀ c : Chip} {p seq err : Nat} (hb_p : p < 2) (hw0 : Chip.Within P T c₀ c)
    (hp : [1, 4].all P.contains = true) (ht : ([.ptp] : List Part).all T.contains = true) : Chip.Within P T c₀ (c.delayReqSent p seq err) := by
  refine Chip.Within.within hw0 hp ht ?_
  clear hw0 hp ht
  unfold Chip.delayReqSent
  repeat' (first
    | with_reducible exact Chip.Within.refl
    | dsimp only
    | (with_reducible apply Chip.Within.set; (case hr => first | assumption | (simp only [PTP_CFG, PTP_CFG_DOMAIN, PTP_PORT_STAT, PTP_PORT_STAT_TXR_OVF, PTP_PORT_STAT_TXR_STOPPED, PTP_STATUS, PTP_STATUS_TXR_OVF, PTP_TXR_LOST, PTP_TXR_LOST_COUNT, Reg.fld, List.mem_cons, List.not_mem_nil, or_false, or_true, true_or] <;> omega)))
    | (with_reducible apply Chip.Within.inc; (case hr => first | assumption | (simp only [PTP_CFG, PTP_CFG_DOMAIN, PTP_PORT_STAT, PTP_PORT_STAT_TXR_OVF, PTP_PORT_STAT_TXR_STOPPED, PTP_STATUS, PTP_STATUS_TXR_OVF, PTP_TXR_LOST, PTP_TXR_LOST_COUNT, Reg.fld, List.mem_cons, List.not_mem_nil, or_false, or_true, true_or] <;> omega)))
    | (with_reducible apply Chip.recOvf_within; (case hp => decide); (case ht => decide))
    | (with_reducible apply Chip.recShow_within; (case hp => decide); (case ht => decide))
    | (with_reducible apply Chip.setPtpPort_within; (case hp => decide); (case ht => decide))
    | with_reducible apply Chip.Within.when'
    | assumption
    | (intro d hd; cases hd)
    | intro y
    | omega
    | (with_reducible apply Chip.rd_lt_of; simp only [PTP_CFG, PTP_CFG_DOMAIN, PTP_PORT_STAT, PTP_PORT_STAT_TXR_OVF, PTP_PORT_STAT_TXR_STOPPED, PTP_STATUS, PTP_STATUS_TXR_OVF, PTP_TXR_LOST, PTP_TXR_LOST_COUNT, Reg.fld, List.mem_cons, List.not_mem_nil, or_false, or_true, true_or] <;> decide)
    | split
    | (simp only [PTP_CFG, PTP_CFG_DOMAIN, PTP_PORT_STAT, PTP_PORT_STAT_TXR_OVF, PTP_PORT_STAT_TXR_STOPPED, PTP_STATUS, PTP_STATUS_TXR_OVF, PTP_TXR_LOST, PTP_TXR_LOST_COUNT, Reg.fld, List.mem_cons, List.not_mem_nil, or_false, or_true, true_or] <;> omega))

theorem Chip.rxqPop_within {P : List Nat} {T : List Part} {c₀ c : Chip} {p : Nat} (hb_p : p < 2) (hw0 : Chip.Within P T c₀ c)
    (hp : [4].all P.contains = true) (ht : ([.ptp] : List Part).all T.contains = true) : Chip.Within P T c₀ (c.rxqPop p) := by
  refine Chip.Within.within hw0 hp ht ?_
  clear hw0 hp ht
  unfold Chip.rxqPop
  repeat' (first
    | with_reducible exact Chip.Within.refl
    | dsimp only
    | (with_reducible apply Chip.recShow_within; (case hp => decide); (case ht => decide))
    | (with_reducible apply Chip.setPtpPort_within; (case hp => decide); (case ht => decide))
    | assumption
    | omega
    | split
    | (simp only [Reg.fld, List.mem_cons, List.not_mem_nil, or_false, or_true, true_or] <;> omega))

theorem Chip.txrPop_within {P : List Nat} {T : List Part} {c₀ c : Chip} {p : Nat} (hb_p : p < 2) (hw0 : Chip.Within P T c₀ c)
    (hp : [4].all P.contains = true) (ht : ([.ptp] : List Part).all T.contains = true) : Chip.Within P T c₀ (c.txrPop p) := by
  refine Chip.Within.within hw0 hp ht ?_
  clear hw0 hp ht
  unfold Chip.txrPop
  repeat' (first
    | with_reducible exact Chip.Within.refl
    | dsimp only
    | (with_reducible apply Chip.Within.clr; (case hr => first | assumption | (simp only [PTP_PORT_STAT, PTP_PORT_STAT_TXR_STOPPED, Reg.fld, List.mem_cons, List.not_mem_nil, or_false, or_true, true_or] <;> omega)))
    | (with_reducible apply Chip.recShow_within; (case hp => decide); (case ht => decide))
    | (with_reducible apply Chip.setPtpPort_within; (case hp => decide); (case ht => decide))
    | with_reducible apply Chip.Within.when'
    | assumption
    | intro y
    | omega
    | split
    | (simp only [PTP_PORT_STAT, PTP_PORT_STAT_TXR_STOPPED, Reg.fld, List.mem_cons, List.not_mem_nil, or_false, or_true, true_or] <;> omega))

theorem Chip.setServo_within {P : List Nat} {T : List Part} {c₀ c : Chip} {st : Nat} (hw0 : Chip.Within P T c₀ c)
    (hp : [4].all P.contains = true) (ht : ([] : List Part).all T.contains = true) : Chip.Within P T c₀ (c.setServo st) := by
  refine Chip.Within.within hw0 hp ht ?_
  clear hw0 hp ht
  unfold Chip.setServo
  repeat' (first
    | with_reducible exact Chip.Within.refl
    | dsimp only
    | (with_reducible apply Chip.Within.wr; (case hr => first | assumption | (simp only [PTP_SERVO, PTP_SERVO_STATE, Reg.fld, List.mem_cons, List.not_mem_nil, or_false, or_true, true_or] <;> omega)))
    | assumption
    | omega
    | (simp only [PTP_SERVO, PTP_SERVO_STATE, Reg.fld, List.mem_cons, List.not_mem_nil, or_false, or_true, true_or] <;> omega))

theorem Chip.steer_within {P : List Nat} {T : List Part} {c₀ c : Chip} {f : Int} (hw0 : Chip.Within P T c₀ c)
    (hp : [4].all P.contains = true) (ht : ([.ptp] : List Part).all T.contains = true) : Chip.Within P T c₀ (c.steer f) := by
  refine Chip.Within.within hw0 hp ht ?_
  clear hw0 hp ht
  unfold Chip.steer
  repeat' (first
    | with_reducible exact Chip.Within.refl
    | dsimp only
    | (with_reducible apply Chip.Within.wrI; (case hr => first | assumption | (simp only [PTP_FREQ, PTP_FREQ_FREQ, Reg.fld, List.mem_cons, List.not_mem_nil, or_false, or_true, true_or] <;> omega)))
    | (fail_if_no_progress (with_reducible apply Chip.Within.to_ptp; (case hk => decide)))
    | assumption
    | omega
    | (simp only [PTP_FREQ, PTP_FREQ_FREQ, Reg.fld, List.mem_cons, List.not_mem_nil, or_false, or_true, true_or] <;> omega))

theorem Chip.holdFreq_within {P : List Nat} {T : List Part} {c₀ c : Chip}  (hw0 : Chip.Within P T c₀ c)
    (hp : [4].all P.contains = true) (ht : ([.ptp] : List Part).all T.contains = true) : Chip.Within P T c₀ (c.holdFreq) := by
  refine Chip.Within.within hw0 hp ht ?_
  clear hw0 hp ht
  unfold Chip.holdFreq
  repeat' (first
    | with_reducible exact Chip.Within.refl
    | dsimp only
    | (with_reducible apply Chip.steer_within; (case hp => decide); (case ht => decide))
    | assumption
    | omega
    | (simp only [Reg.fld, List.mem_cons, List.not_mem_nil, or_false, or_true, true_or] <;> omega))

theorem Chip.stepClock_within {P : List Nat} {T : List Part} {c₀ c : Chip} {d : Int} (hw0 : Chip.Within P T c₀ c)
    (hp : [1, 4].all P.contains = true) (ht : ([.clock] : List Part).all T.contains = true) : Chip.Within P T c₀ (c.stepClock d) := by
  refine Chip.Within.within hw0 hp ht ?_
  clear hw0 hp ht
  unfold Chip.stepClock
  repeat' (first
    | with_reducible exact Chip.Within.refl
    | dsimp only
    | (with_reducible apply Chip.Within.set; (case hr => first | assumption | (simp only [PTP_STATUS, PTP_STATUS_STEPPED, Reg.fld, List.mem_cons, List.not_mem_nil, or_false, or_true, true_or] <;> omega)))
    | (fail_if_no_progress (with_reducible apply Chip.Within.to_clock; (case hk => decide)))
    | (with_reducible apply Chip.Within.post; (case hm => decide))
    | assumption
    | omega
    | (simp only [PTP_STATUS, PTP_STATUS_STEPPED, Reg.fld, List.mem_cons, List.not_mem_nil, or_false, or_true, true_or] <;> omega))

theorem Chip.servoLocked_within {P : List Nat} {T : List Part} {c₀ c : Chip}  (hw0 : Chip.Within P T c₀ c)
    (hp : [1, 4, 64].all P.contains = true) (ht : ([.nets, .ptp] : List Part).all T.contains = true) : Chip.Within P T c₀ (c.servoLocked) := by
  refine Chip.Within.within hw0 hp ht ?_
  clear hw0 hp ht
  unfold Chip.servoLocked
  repeat' (first
    | with_reducible exact Chip.Within.refl
    | dsimp only
    | (with_reducible apply Chip.gclReload_within; (case hp => decide); (case ht => decide))
    | (with_reducible apply Chip.setServo_within; (case hp => decide); (case ht => decide))
    | (fail_if_no_progress (with_reducible apply Chip.Within.to_ptp; (case hk => decide)))
    | (with_reducible apply Chip.Within.post; (case hm => decide))
    | assumption
    | omega
    | (with_reducible apply Chip.rd_lt_of; simp only [PTP_SERVO, PTP_SERVO_PORT, Reg.fld, List.mem_cons, List.not_mem_nil, or_false, or_true, true_or] <;> decide)
    | split
    | (simp only [PTP_SERVO, PTP_SERVO_PORT, Reg.fld, List.mem_cons, List.not_mem_nil, or_false, or_true, true_or] <;> omega))

theorem Chip.goodSample_within {P : List Nat} {T : List Part} {c₀ c : Chip} {filtered freq : Int} {mpd : Nat} (hw0 : Chip.Within P T c₀ c)
    (hp : [1, 4, 64].all P.contains = true) (ht : ([.nets, .ptp] : List Part).all T.contains = true) : Chip.Within P T c₀ (c.goodSample filtered freq mpd) := by
  refine Chip.Within.within hw0 hp ht ?_
  clear hw0 hp ht
  unfold Chip.goodSample
  repeat' (first
    | with_reducible exact Chip.Within.refl
    | dsimp only
    | (with_reducible apply Chip.Within.wr; (case hr => first | assumption | (simp only [PTP_MPD, PTP_MPD_MPD, PTP_OFFSET, PTP_OFFSET_OFFSET, Reg.fld, List.mem_cons, List.not_mem_nil, or_false, or_true, true_or] <;> omega)))
    | (with_reducible apply Chip.Within.wrI; (case hr => first | assumption | (simp only [PTP_MPD, PTP_MPD_MPD, PTP_OFFSET, PTP_OFFSET_OFFSET, Reg.fld, List.mem_cons, List.not_mem_nil, or_false, or_true, true_or] <;> omega)))
    | (with_reducible apply Chip.servoLocked_within; (case hp => decide); (case ht => decide))
    | (with_reducible apply Chip.setServo_within; (case hp => decide); (case ht => decide))
    | (with_reducible apply Chip.steer_within; (case hp => decide); (case ht => decide))
    | (fail_if_no_progress (with_reducible apply Chip.Within.to_ptp; (case hk => decide)))
    | assumption
    | omega
    | split
    | (simp only [PTP_MPD, PTP_MPD_MPD, PTP_OFFSET, PTP_OFFSET_OFFSET, Reg.fld, List.mem_cons, List.not_mem_nil, or_false, or_true, true_or] <;> omega))

theorem Chip.refuseSample_within {P : List Nat} {T : List Part} {c₀ c : Chip} {offset : Int} (hw0 : Chip.Within P T c₀ c)
    (hp : [1, 4].all P.contains = true) (ht : ([.ptp] : List Part).all T.contains = true) : Chip.Within P T c₀ (c.refuseSample offset) := by
  refine Chip.Within.within hw0 hp ht ?_
  clear hw0 hp ht
  unfold Chip.refuseSample
  repeat' (first
    | with_reducible exact Chip.Within.refl
    | dsimp only
    | (with_reducible apply Chip.Within.set; (case hr => first | assumption | (simp only [PTP_JUMPS, PTP_JUMPS_COUNT, PTP_SERVO, PTP_SERVO_PORT, PTP_STATUS, PTP_STATUS_JUMP_REFUSED, Reg.fld, List.mem_cons, List.not_mem_nil, or_false, or_true, true_or] <;> omega)))
    | (with_reducible apply Chip.Within.inc; (case hr => first | assumption | (simp only [PTP_JUMPS, PTP_JUMPS_COUNT, PTP_SERVO, PTP_SERVO_PORT, PTP_STATUS, PTP_STATUS_JUMP_REFUSED, Reg.fld, List.mem_cons, List.not_mem_nil, or_false, or_true, true_or] <;> omega)))
    | (with_reducible apply Chip.holdFreq_within; (case hp => decide); (case ht => decide))
    | (with_reducible apply Chip.setServo_within; (case hp => decide); (case ht => decide))
    | (fail_if_no_progress (with_reducible apply Chip.Within.to_ptp; (case hk => decide)))
    | (with_reducible apply Chip.Within.post; (case hm => decide))
    | assumption
    | omega
    | (with_reducible apply Chip.rd_lt_of; simp only [PTP_JUMPS, PTP_JUMPS_COUNT, PTP_SERVO, PTP_SERVO_PORT, PTP_STATUS, PTP_STATUS_JUMP_REFUSED, Reg.fld, List.mem_cons, List.not_mem_nil, or_false, or_true, true_or] <;> decide)
    | split
    | (simp only [PTP_JUMPS, PTP_JUMPS_COUNT, PTP_SERVO, PTP_SERVO_PORT, PTP_STATUS, PTP_STATUS_JUMP_REFUSED, Reg.fld, List.mem_cons, List.not_mem_nil, or_false, or_true, true_or] <;> omega))

theorem Chip.servoSample_within {P : List Nat} {T : List Part} {c₀ c : Chip} {p : Nat} {offset filtered freq : Int} {mpd : Nat} (hb_p : p < 2) (hw0 : Chip.Within P T c₀ c)
    (hp : [1, 4, 64].all P.contains = true) (ht : ([.clock, .nets, .ptp] : List Part).all T.contains = true) : Chip.Within P T c₀ (c.servoSample p offset filtered freq mpd) := by
  refine Chip.Within.within hw0 hp ht ?_
  clear hw0 hp ht
  unfold Chip.servoSample
  repeat' (first
    | with_reducible exact Chip.Within.refl
    | dsimp only
    | (with_reducible apply Chip.Within.set; (case hr => first | assumption | (simp only [PTP_JUMP_MAX, PTP_JUMP_MAX_JUMP_MAX, PTP_SERVO, PTP_SERVO_EVER_LOCKED, PTP_SERVO_PORT, Reg.fld, List.mem_cons, List.not_mem_nil, or_false, or_true, true_or] <;> omega)))
    | (with_reducible apply Chip.goodSample_within; (case hp => decide); (case ht => decide))
    | (with_reducible apply Chip.refuseSample_within; (case hp => decide); (case ht => decide))
    | (with_reducible apply Chip.setServo_within; (case hp => decide); (case ht => decide))
    | (with_reducible apply Chip.stepClock_within; (case hp => decide); (case ht => decide))
    | (fail_if_no_progress (with_reducible apply Chip.Within.to_ptp; (case hk => decide)))
    | assumption
    | omega
    | (with_reducible apply Chip.rd_lt_of; simp only [PTP_JUMP_MAX, PTP_JUMP_MAX_JUMP_MAX, PTP_SERVO, PTP_SERVO_EVER_LOCKED, PTP_SERVO_PORT, Reg.fld, List.mem_cons, List.not_mem_nil, or_false, or_true, true_or] <;> decide)
    | split
    | (simp only [PTP_JUMP_MAX, PTP_JUMP_MAX_JUMP_MAX, PTP_SERVO, PTP_SERVO_EVER_LOCKED, PTP_SERVO_PORT, Reg.fld, List.mem_cons, List.not_mem_nil, or_false, or_true, true_or] <;> omega))

theorem Chip.useMaster_within {P : List Nat} {T : List Part} {c₀ c : Chip} {p : Nat} {m : Master} (hb_p : p < 2) (hw0 : Chip.Within P T c₀ c)
    (hp : [1, 4].all P.contains = true) (ht : ([.ptp] : List Part).all T.contains = true) : Chip.Within P T c₀ (c.useMaster p m) := by
  refine Chip.Within.within hw0 hp ht ?_
  clear hw0 hp ht
  unfold Chip.useMaster
  repeat' (first
    | with_reducible exact Chip.Within.refl
    | dsimp only
    | (with_reducible apply Chip.Within.set; (case hr => first | assumption | (simp only [PTP_GM_ID_HI, PTP_GM_ID_LO, PTP_SERVO, PTP_SERVO_PORT, PTP_STATUS, PTP_STATUS_MASTER_CHANGED, Reg.fld, List.mem_cons, List.not_mem_nil, or_false, or_true, true_or] <;> omega)))
    | (with_reducible apply Chip.Within.wr; (case hr => first | assumption | (simp only [PTP_GM_ID_HI, PTP_GM_ID_LO, PTP_SERVO, PTP_SERVO_PORT, PTP_STATUS, PTP_STATUS_MASTER_CHANGED, Reg.fld, List.mem_cons, List.not_mem_nil, or_false, or_true, true_or] <;> omega)))
    | (with_reducible apply Chip.Within.put; (case hr => first | assumption | (simp only [PTP_GM_ID_HI, PTP_GM_ID_LO, PTP_SERVO, PTP_SERVO_PORT, PTP_STATUS, PTP_STATUS_MASTER_CHANGED, Reg.fld, List.mem_cons, List.not_mem_nil, or_false, or_true, true_or] <;> omega)))
    | (with_reducible apply Chip.setServo_within; (case hp => decide); (case ht => decide))
    | (fail_if_no_progress (with_reducible apply Chip.Within.to_ptp; (case hk => decide)))
    | with_reducible apply Chip.Within.when'
    | (with_reducible apply Chip.Within.post; (case hm => decide))
    | assumption
    | intro y
    | omega
    | (with_reducible apply Chip.rd_lt_of; simp only [PTP_GM_ID_HI, PTP_GM_ID_LO, PTP_SERVO, PTP_SERVO_PORT, PTP_STATUS, PTP_STATUS_MASTER_CHANGED, Reg.fld, List.mem_cons, List.not_mem_nil, or_false, or_true, true_or] <;> decide)
    | (with_reducible apply Chip.bits_lt_of; decide)
    | split
    | (simp only [PTP_GM_ID_HI, PTP_GM_ID_LO, PTP_SERVO, PTP_SERVO_PORT, PTP_STATUS, PTP_STATUS_MASTER_CHANGED, Reg.fld, List.mem_cons, List.not_mem_nil, or_false, or_true, true_or] <;> omega))

theorem Chip.selectMaster_within {P : List Nat} {T : List Part} {c₀ c : Chip}  (hw0 : Chip.Within P T c₀ c)
    (hp : [1, 4].all P.contains = true) (ht : ([.ptp] : List Part).all T.contains = true) : Chip.Within P T c₀ (c.selectMaster) := by
  refine Chip.Within.within hw0 hp ht ?_
  clear hw0 hp ht
  unfold Chip.selectMaster
  repeat' (first
    | with_reducible exact Chip.Within.refl
    | dsimp only
    | (with_reducible apply Chip.Within.set; (case hr => first | assumption | (simp only [PTP_CFG, PTP_CFG_PREF_PORT, PTP_PORT_CFG, PTP_PORT_CFG_ENABLE, PTP_PORT_STAT, PTP_PORT_STAT_PSTATE, PTP_SERVO, PTP_SERVO_EVER_LOCKED, PTP_SERVO_PORT, PTP_STATUS, PTP_STATUS_HOLDOVER_SEEN, Reg.fld, List.mem_cons, List.not_mem_nil, or_false, or_true, true_or] <;> omega)))
    | (with_reducible apply Chip.Within.wr; (case hr => first | assumption | (simp only [PTP_CFG, PTP_CFG_PREF_PORT, PTP_PORT_CFG, PTP_PORT_CFG_ENABLE, PTP_PORT_STAT, PTP_PORT_STAT_PSTATE, PTP_SERVO, PTP_SERVO_EVER_LOCKED, PTP_SERVO_PORT, PTP_STATUS, PTP_STATUS_HOLDOVER_SEEN, Reg.fld, List.mem_cons, List.not_mem_nil, or_false, or_true, true_or] <;> omega)))
    | (with_reducible apply Chip.holdFreq_within; (case hp => decide); (case ht => decide))
    | (with_reducible apply Chip.setServo_within; (case hp => decide); (case ht => decide))
    | (with_reducible apply Chip.useMaster_within; (case hp => decide); (case ht => decide))
    | (fail_if_no_progress (with_reducible apply Chip.Within.to_ptp; (case hk => decide)))
    | with_reducible apply Chip.Within.each
    | (intro y a ha; (try simp only [List.mem_range, List.mem_filter, List.mem_map, List.mem_flatMap, List.mem_cons, List.not_mem_nil, or_false, Bool.and_eq_true, decide_eq_true_eq, beq_iff_eq, Chip.planesOf] at ha); (first | (have hb := Nat.lt_of_lt_of_le ha (Nat.le_refl _)) | (have hb := Chip.mem_groupOf (by first | assumption | omega | (with_reducible apply Chip.leadOf_lt; first | assumption | omega)) ha) | (have hb := Chip.mem_destsOf ha) | (have hb := Chip.mem_routed ha) | (obtain ⟨i, hi, hd⟩ := ha; have hb := Chip.mem_destsOf hd) | (obtain ⟨hi, hj⟩ := ha; have hb : a ≤ 1 := by omega) | (obtain ⟨i, hi, rfl⟩ := ha) | (obtain ⟨hi, hj⟩ := ha; first | (have hb := Chip.mem_destsOf hi) | (have hb := Nat.lt_of_lt_of_le hi (Nat.le_refl _)) | skip) | skip))
    | (with_reducible apply Chip.Within.post; (case hm => decide))
    | assumption
    | omega
    | (with_reducible apply Chip.rd_lt_of; simp only [PTP_CFG, PTP_CFG_PREF_PORT, PTP_PORT_CFG, PTP_PORT_CFG_ENABLE, PTP_PORT_STAT, PTP_PORT_STAT_PSTATE, PTP_SERVO, PTP_SERVO_EVER_LOCKED, PTP_SERVO_PORT, PTP_STATUS, PTP_STATUS_HOLDOVER_SEEN, Reg.fld, List.mem_cons, List.not_mem_nil, or_false, or_true, true_or] <;> decide)
    | split
    | (simp only [PTP_CFG, PTP_CFG_PREF_PORT, PTP_PORT_CFG, PTP_PORT_CFG_ENABLE, PTP_PORT_STAT, PTP_PORT_STAT_PSTATE, PTP_SERVO, PTP_SERVO_EVER_LOCKED, PTP_SERVO_PORT, PTP_STATUS, PTP_STATUS_HOLDOVER_SEEN, Reg.fld, List.mem_cons, List.not_mem_nil, or_false, or_true, true_or] <;> omega))

theorem Chip.announce_within {P : List Nat} {T : List Part} {c₀ c : Chip} {p domain id rank : Nat} (hb_p : p < 2) (hw0 : Chip.Within P T c₀ c)
    (hp : [1, 4].all P.contains = true) (ht : ([.ptp] : List Part).all T.contains = true) : Chip.Within P T c₀ (c.announce p domain id rank) := by
  refine Chip.Within.within hw0 hp ht ?_
  clear hw0 hp ht
  unfold Chip.announce
  repeat' (first
    | with_reducible exact Chip.Within.refl
    | dsimp only
    | (with_reducible apply Chip.selectMaster_within; (case hp => decide); (case ht => decide))
    | (with_reducible apply Chip.setPtpPort_within; (case hp => decide); (case ht => decide))
    | assumption
    | omega
    | (with_reducible apply Chip.rd_lt_of; simp only [PTP_CFG, PTP_CFG_ANNOUNCE_LOG, PTP_CFG_DOMAIN, PTP_PORT_CFG, PTP_PORT_CFG_ENABLE, Reg.fld, List.mem_cons, List.not_mem_nil, or_false, or_true, true_or] <;> decide)
    | split
    | (simp only [PTP_CFG, PTP_CFG_ANNOUNCE_LOG, PTP_CFG_DOMAIN, PTP_PORT_CFG, PTP_PORT_CFG_ENABLE, Reg.fld, List.mem_cons, List.not_mem_nil, or_false, or_true, true_or] <;> omega))

theorem Chip.announceTimeout_within {P : List Nat} {T : List Part} {c₀ c : Chip} {p : Nat} (hb_p : p < 2) (hw0 : Chip.Within P T c₀ c)
    (hp : [1, 4].all P.contains = true) (ht : ([.ptp] : List Part).all T.contains = true) : Chip.Within P T c₀ (c.announceTimeout p) := by
  refine Chip.Within.within hw0 hp ht ?_
  clear hw0 hp ht
  unfold Chip.announceTimeout
  repeat' (first
    | with_reducible exact Chip.Within.refl
    | dsimp only
    | (with_reducible apply Chip.selectMaster_within; (case hp => decide); (case ht => decide))
    | (with_reducible apply Chip.setPtpPort_within; (case hp => decide); (case ht => decide))
    | assumption
    | omega
    | (with_reducible apply Chip.rd_lt_of; simp only [PTP_CFG, PTP_CFG_ANNOUNCE_LOG, PTP_CFG_ANNOUNCE_TIMEOUT, Reg.fld, List.mem_cons, List.not_mem_nil, or_false, or_true, true_or] <;> decide)
    | split
    | (simp only [PTP_CFG, PTP_CFG_ANNOUNCE_LOG, PTP_CFG_ANNOUNCE_TIMEOUT, Reg.fld, List.mem_cons, List.not_mem_nil, or_false, or_true, true_or] <;> omega))

theorem Chip.prefRevert_within {P : List Nat} {T : List Part} {c₀ c : Chip}  (hw0 : Chip.Within P T c₀ c)
    (hp : [1, 4].all P.contains = true) (ht : ([.ptp] : List Part).all T.contains = true) : Chip.Within P T c₀ (c.prefRevert) := by
  refine Chip.Within.within hw0 hp ht ?_
  clear hw0 hp ht
  unfold Chip.prefRevert
  repeat' (first
    | with_reducible exact Chip.Within.refl
    | dsimp only
    | (with_reducible apply Chip.useMaster_within; (case hp => decide); (case ht => decide))
    | assumption
    | omega
    | (with_reducible apply Chip.rd_lt_of; simp only [PTP_CFG, PTP_CFG_PREF_PORT, Reg.fld, List.mem_cons, List.not_mem_nil, or_false, or_true, true_or] <;> decide)
    | split
    | (simp only [PTP_CFG, PTP_CFG_PREF_PORT, Reg.fld, List.mem_cons, List.not_mem_nil, or_false, or_true, true_or] <;> omega))

end Sys2Proof.Machine
end

