-- ==== Sys2Proof/Laws/WithinTime.lean ====
section
/-! SUPPORT. What each operation over the references, the serial audio ports and the multiviewer may change: it keeps within the listed pages and parts (Chip.Within), so that a frame of a
command is one lemma of the operations it calls. -/

set_option linter.all false
set_option maxRecDepth 4000

namespace Sys2Proof.Machine


theorem Chip.setCand_within {P : List Nat} {T : List Part} {c₀ c : Chip} {k : Nat} {x : Cand} (hw0 : Chip.Within P T c₀ c)
    (hp : [].all P.contains = true) (ht : ([.ref] : List Part).all T.contains = true) : Chip.Within P T c₀ (c.setCand k x) := by
  refine Chip.Within.within hw0 hp ht ?_
  clear hw0 hp ht
  unfold Chip.setCand
  repeat' (first
    | with_reducible exact Chip.Within.refl
    | dsimp only
    | (with_reducible apply Chip.Within.set; (case hr => first | assumption | (simp only [Reg.fld, List.mem_cons, List.not_mem_nil, or_false, or_true, true_or] <;> omega)))
    | (fail_if_no_progress (with_reducible apply Chip.Within.to_ref; (case hk => decide)))
    | assumption
    | omega
    | (simp only [Reg.fld, List.mem_cons, List.not_mem_nil, or_false, or_true, true_or] <;> omega))

theorem Chip.caTo_within {P : List Nat} {T : List Part} {c₀ c : Chip} {k st : Nat} (hb_k : k < 5) (hw0 : Chip.Within P T c₀ c)
    (hp : [3].all P.contains = true) (ht : ([] : List Part).all T.contains = true) : Chip.Within P T c₀ (c.caTo k st) := by
  refine Chip.Within.within hw0 hp ht ?_
  clear hw0 hp ht
  unfold Chip.caTo
  repeat' (first
    | with_reducible exact Chip.Within.refl
    | dsimp only
    | (with_reducible apply Chip.Within.wr; (case hr => first | assumption | (simp only [REF_CAND_STAT, REF_CAND_STAT_STATE, Reg.fld, List.mem_cons, List.not_mem_nil, or_false, or_true, true_or] <;> omega)))
    | assumption
    | omega
    | (simp only [REF_CAND_STAT, REF_CAND_STAT_STATE, Reg.fld, List.mem_cons, List.not_mem_nil, or_false, or_true, true_or] <;> omega))

theorem Chip.slew_within {P : List Nat} {T : List Part} {c₀ c : Chip} {q : Nat} (hw0 : Chip.Within P T c₀ c)
    (hp : [].all P.contains = true) (ht : ([.planes] : List Part).all T.contains = true) : Chip.Within P T c₀ (c.slew q) := by
  refine Chip.Within.within hw0 hp ht ?_
  clear hw0 hp ht
  unfold Chip.slew
  repeat' (first
    | with_reducible exact Chip.Within.refl
    | dsimp only
    | (with_reducible apply Chip.setPlane_within; (case hp => decide); (case ht => decide))
    | assumption
    | omega
    | (with_reducible apply Chip.rd_lt_of; simp only [REF_CFG, REF_CFG_SLEW_MAX, Reg.fld, List.mem_cons, List.not_mem_nil, or_false, or_true, true_or] <;> decide)
    | split
    | (simp only [REF_CFG, REF_CFG_SLEW_MAX, Reg.fld, List.mem_cons, List.not_mem_nil, or_false, or_true, true_or] <;> omega))

theorem Chip.planeShow_within {P : List Nat} {T : List Part} {c₀ c : Chip} {q : Nat} (hb_q : q < 2) (hw0 : Chip.Within P T c₀ c)
    (hp : [3].all P.contains = true) (ht : ([] : List Part).all T.contains = true) : Chip.Within P T c₀ (c.planeShow q) := by
  refine Chip.Within.within hw0 hp ht ?_
  clear hw0 hp ht
  unfold Chip.planeShow
  repeat' (first
    | with_reducible exact Chip.Within.refl
    | dsimp only
    | (with_reducible apply Chip.Within.wrI; (case hr => first | assumption | (simp only [REF_PLANE_BUILDOUT, REF_PLANE_BUILDOUT_BUILDOUT, REF_PLANE_FREQ, REF_PLANE_FREQ_FREQ, Reg.fld, List.mem_cons, List.not_mem_nil, or_false, or_true, true_or] <;> omega)))
    | assumption
    | omega
    | (simp only [REF_PLANE_BUILDOUT, REF_PLANE_BUILDOUT_BUILDOUT, REF_PLANE_FREQ, REF_PLANE_FREQ_FREQ, Reg.fld, List.mem_cons, List.not_mem_nil, or_false, or_true, true_or] <;> omega))

theorem Chip.modelShow_within {P : List Nat} {T : List Part} {c₀ c : Chip} {q : Nat} (hb_q : q < 2) (hw0 : Chip.Within P T c₀ c)
    (hp : [3].all P.contains = true) (ht : ([] : List Part).all T.contains = true) : Chip.Within P T c₀ (c.modelShow q) := by
  refine Chip.Within.within hw0 hp ht ?_
  clear hw0 hp ht
  unfold Chip.modelShow
  repeat' (first
    | with_reducible exact Chip.Within.refl
    | dsimp only
    | (with_reducible apply Chip.Within.wrB; (case hr => first | assumption | (simp only [REF_PLANE_MODEL, REF_PLANE_MODEL_MODEL, REF_PLANE_STAT, REF_PLANE_STAT_MODEL_VALID, Reg.fld, List.mem_cons, List.not_mem_nil, or_false, or_true, true_or] <;> omega)))
    | (with_reducible apply Chip.Within.wrI; (case hr => first | assumption | (simp only [REF_PLANE_MODEL, REF_PLANE_MODEL_MODEL, REF_PLANE_STAT, REF_PLANE_STAT_MODEL_VALID, Reg.fld, List.mem_cons, List.not_mem_nil, or_false, or_true, true_or] <;> omega)))
    | assumption
    | omega
    | split
    | (simp only [REF_PLANE_MODEL, REF_PLANE_MODEL_MODEL, REF_PLANE_STAT, REF_PLANE_STAT_MODEL_VALID, Reg.fld, List.mem_cons, List.not_mem_nil, or_false, or_true, true_or] <;> omega))

theorem Chip.planeTo_within {P : List Nat} {T : List Part} {c₀ c : Chip} {q st : Nat} (hb_q : q < 2) (hw0 : Chip.Within P T c₀ c)
    (hp : [3].all P.contains = true) (ht : ([] : List Part).all T.contains = true) : Chip.Within P T c₀ (c.planeTo q st) := by
  refine Chip.Within.within hw0 hp ht ?_
  clear hw0 hp ht
  unfold Chip.planeTo
  repeat' (first
    | with_reducible exact Chip.Within.refl
    | dsimp only
    | (with_reducible apply Chip.Within.wr; (case hr => first | assumption | (simp only [REF_PLANE_STAT, REF_PLANE_STAT_STATE, Reg.fld, List.mem_cons, List.not_mem_nil, or_false, or_true, true_or] <;> omega)))
    | assumption
    | omega
    | (simp only [REF_PLANE_STAT, REF_PLANE_STAT_STATE, Reg.fld, List.mem_cons, List.not_mem_nil, or_false, or_true, true_or] <;> omega))

theorem Chip.planeLock_within {P : List Nat} {T : List Part} {c₀ c : Chip} {q : Nat} (hb_q : q < 2) (hw0 : Chip.Within P T c₀ c)
    (hp : [1, 3].all P.contains = true) (ht : ([.planes] : List Part).all T.contains = true) : Chip.Within P T c₀ (c.planeLock q) := by
  refine Chip.Within.within hw0 hp ht ?_
  clear hw0 hp ht
  unfold Chip.planeLock
  repeat' (first
    | with_reducible exact Chip.Within.refl
    | dsimp only
    | (with_reducible apply Chip.planeTo_within; (case hp => decide); (case ht => decide))
    | (with_reducible apply Chip.setPlane_within; (case hp => decide); (case ht => decide))
    | (with_reducible apply Chip.Within.post; (case hm => decide))
    | assumption
    | omega
    | (simp only [Reg.fld, List.mem_cons, List.not_mem_nil, or_false, or_true, true_or] <;> omega))

theorem Chip.switchTo_within {P : List Nat} {T : List Part} {c₀ c : Chip} {q k : Nat} {phase : Int} (hb_q : q < 2) (hw0 : Chip.Within P T c₀ c)
    (hp : [1, 3].all P.contains = true) (ht : ([.planes] : List Part).all T.contains = true) : Chip.Within P T c₀ (c.switchTo q k phase) := by
  refine Chip.Within.within hw0 hp ht ?_
  clear hw0 hp ht
  unfold Chip.switchTo
  repeat' (first
    | with_reducible exact Chip.Within.refl
    | dsimp only
    | (with_reducible apply Chip.Within.set; (case hr => first | assumption | (simp only [REF_PLANE_STAT, REF_PLANE_STAT_SELECTED, REF_PLANE_STAT_SWITCH_SEEN, REF_PLANE_SWITCHES, REF_PLANE_SWITCHES_COUNT, REF_STATUS, REF_STATUS_SWITCH, Reg.fld, List.mem_cons, List.not_mem_nil, or_false, or_true, true_or] <;> omega)))
    | (with_reducible apply Chip.Within.wr; (case hr => first | assumption | (simp only [REF_PLANE_STAT, REF_PLANE_STAT_SELECTED, REF_PLANE_STAT_SWITCH_SEEN, REF_PLANE_SWITCHES, REF_PLANE_SWITCHES_COUNT, REF_STATUS, REF_STATUS_SWITCH, Reg.fld, List.mem_cons, List.not_mem_nil, or_false, or_true, true_or] <;> omega)))
    | (with_reducible apply Chip.Within.inc; (case hr => first | assumption | (simp only [REF_PLANE_STAT, REF_PLANE_STAT_SELECTED, REF_PLANE_STAT_SWITCH_SEEN, REF_PLANE_SWITCHES, REF_PLANE_SWITCHES_COUNT, REF_STATUS, REF_STATUS_SWITCH, Reg.fld, List.mem_cons, List.not_mem_nil, or_false, or_true, true_or] <;> omega)))
    | (with_reducible apply Chip.planeShow_within; (case hp => decide); (case ht => decide))
    | (with_reducible apply Chip.planeTo_within; (case hp => decide); (case ht => decide))
    | (with_reducible apply Chip.setPlane_within; (case hp => decide); (case ht => decide))
    | (with_reducible apply Chip.slew_within; (case hp => decide); (case ht => decide))
    | (with_reducible apply Chip.Within.post; (case hm => decide))
    | assumption
    | omega
    | (simp only [REF_PLANE_STAT, REF_PLANE_STAT_SELECTED, REF_PLANE_STAT_SWITCH_SEEN, REF_PLANE_SWITCHES, REF_PLANE_SWITCHES_COUNT, REF_STATUS, REF_STATUS_SWITCH, Reg.fld, List.mem_cons, List.not_mem_nil, or_false, or_true, true_or] <;> omega))

theorem Chip.freerun_within {P : List Nat} {T : List Part} {c₀ c : Chip} {q : Nat} (hb_q : q < 2) (hw0 : Chip.Within P T c₀ c)
    (hp : [1, 3].all P.contains = true) (ht : ([] : List Part).all T.contains = true) : Chip.Within P T c₀ (c.freerun q) := by
  refine Chip.Within.within hw0 hp ht ?_
  clear hw0 hp ht
  unfold Chip.freerun
  repeat' (first
    | with_reducible exact Chip.Within.refl
    | dsimp only
    | (with_reducible apply Chip.Within.set; (case hr => first | assumption | (simp only [REF_PLANE_STAT, REF_PLANE_STAT_FREERUN_SEEN, REF_PLANE_STAT_SELECTED, REF_STATUS, REF_STATUS_FREERUN, Reg.fld, List.mem_cons, List.not_mem_nil, or_false, or_true, true_or] <;> omega)))
    | (with_reducible apply Chip.Within.wr; (case hr => first | assumption | (simp only [REF_PLANE_STAT, REF_PLANE_STAT_FREERUN_SEEN, REF_PLANE_STAT_SELECTED, REF_STATUS, REF_STATUS_FREERUN, Reg.fld, List.mem_cons, List.not_mem_nil, or_false, or_true, true_or] <;> omega)))
    | (with_reducible apply Chip.planeTo_within; (case hp => decide); (case ht => decide))
    | (with_reducible apply Chip.Within.post; (case hm => decide))
    | assumption
    | omega
    | (simp only [REF_PLANE_STAT, REF_PLANE_STAT_FREERUN_SEEN, REF_PLANE_STAT_SELECTED, REF_STATUS, REF_STATUS_FREERUN, Reg.fld, List.mem_cons, List.not_mem_nil, or_false, or_true, true_or] <;> omega))

theorem Chip.loseRef_within {P : List Nat} {T : List Part} {c₀ c : Chip} {q : Nat} (hb_q : q < 2) (hw0 : Chip.Within P T c₀ c)
    (hp : [1, 3].all P.contains = true) (ht : ([.planes] : List Part).all T.contains = true) : Chip.Within P T c₀ (c.loseRef q) := by
  refine Chip.Within.within hw0 hp ht ?_
  clear hw0 hp ht
  unfold Chip.loseRef
  repeat' (first
    | with_reducible exact Chip.Within.refl
    | dsimp only
    | (with_reducible apply Chip.Within.set; (case hr => first | assumption | (simp only [REF_LO, REF_LO_PRESENT, REF_PLANE_MODEL, REF_PLANE_MODEL_MODEL, REF_PLANE_STAT, REF_PLANE_STAT_HOLDOVER_SEEN, REF_PLANE_STAT_MODEL_VALID, REF_PLANE_STAT_SELECTED, REF_PLANE_SWITCHES, REF_PLANE_SWITCHES_COUNT, REF_STATUS, REF_STATUS_HOLDOVER, Reg.fld, List.mem_cons, List.not_mem_nil, or_false, or_true, true_or] <;> omega)))
    | (with_reducible apply Chip.Within.wr; (case hr => first | assumption | (simp only [REF_LO, REF_LO_PRESENT, REF_PLANE_MODEL, REF_PLANE_MODEL_MODEL, REF_PLANE_STAT, REF_PLANE_STAT_HOLDOVER_SEEN, REF_PLANE_STAT_MODEL_VALID, REF_PLANE_STAT_SELECTED, REF_PLANE_SWITCHES, REF_PLANE_SWITCHES_COUNT, REF_STATUS, REF_STATUS_HOLDOVER, Reg.fld, List.mem_cons, List.not_mem_nil, or_false, or_true, true_or] <;> omega)))
    | (with_reducible apply Chip.Within.inc; (case hr => first | assumption | (simp only [REF_LO, REF_LO_PRESENT, REF_PLANE_MODEL, REF_PLANE_MODEL_MODEL, REF_PLANE_STAT, REF_PLANE_STAT_HOLDOVER_SEEN, REF_PLANE_STAT_MODEL_VALID, REF_PLANE_STAT_SELECTED, REF_PLANE_SWITCHES, REF_PLANE_SWITCHES_COUNT, REF_STATUS, REF_STATUS_HOLDOVER, Reg.fld, List.mem_cons, List.not_mem_nil, or_false, or_true, true_or] <;> omega)))
    | (with_reducible apply Chip.freerun_within; (case hp => decide); (case ht => decide))
    | (with_reducible apply Chip.modelShow_within; (case hp => decide); (case ht => decide))
    | (with_reducible apply Chip.planeShow_within; (case hp => decide); (case ht => decide))
    | (with_reducible apply Chip.planeTo_within; (case hp => decide); (case ht => decide))
    | (with_reducible apply Chip.setPlane_within; (case hp => decide); (case ht => decide))
    | (with_reducible apply Chip.slew_within; (case hp => decide); (case ht => decide))
    | (with_reducible apply Chip.Within.post; (case hm => decide))
    | assumption
    | omega
    | split
    | (simp only [REF_LO, REF_LO_PRESENT, REF_PLANE_MODEL, REF_PLANE_MODEL_MODEL, REF_PLANE_STAT, REF_PLANE_STAT_HOLDOVER_SEEN, REF_PLANE_STAT_MODEL_VALID, REF_PLANE_STAT_SELECTED, REF_PLANE_SWITCHES, REF_PLANE_SWITCHES_COUNT, REF_STATUS, REF_STATUS_HOLDOVER, Reg.fld, List.mem_cons, List.not_mem_nil, or_false, or_true, true_or] <;> omega))

theorem Chip.leaveStart_within {P : List Nat} {T : List Part} {c₀ c : Chip} {q : Nat} {delay : Nat} (hw0 : Chip.Within P T c₀ c)
    (hp : [].all P.contains = true) (ht : ([.planes] : List Part).all T.contains = true) : Chip.Within P T c₀ (c.leaveStart q delay) := by
  refine Chip.Within.within hw0 hp ht ?_
  clear hw0 hp ht
  unfold Chip.leaveStart
  repeat' (first
    | with_reducible exact Chip.Within.refl
    | dsimp only
    | (with_reducible apply Chip.setPlane_within; (case hp => decide); (case ht => decide))
    | assumption
    | omega
    | (simp only [Reg.fld, List.mem_cons, List.not_mem_nil, or_false, or_true, true_or] <;> omega))

theorem Chip.startSelect_within {P : List Nat} {T : List Part} {c₀ c : Chip} {q : Nat} {ph : Nat → Nat → Int} (hb_q : q < 2) (hw0 : Chip.Within P T c₀ c)
    (hp : [1, 3].all P.contains = true) (ht : ([.planes] : List Part).all T.contains = true) : Chip.Within P T c₀ (c.startSelect q ph) := by
  refine Chip.Within.within hw0 hp ht ?_
  clear hw0 hp ht
  unfold Chip.startSelect
  repeat' (first
    | with_reducible exact Chip.Within.refl
    | dsimp only
    | (with_reducible apply Chip.Within.wr; (case hr => first | assumption | (simp only [REF_CAND_CFG, REF_CAND_CFG_KIND, REF_PLANE_STAT, REF_PLANE_STAT_PHASE_FREE, REF_PLANE_STAT_SELECTED, Reg.fld, List.mem_cons, List.not_mem_nil, or_false, or_true, true_or] <;> omega)))
    | (with_reducible apply Chip.Within.wrB; (case hr => first | assumption | (simp only [REF_CAND_CFG, REF_CAND_CFG_KIND, REF_PLANE_STAT, REF_PLANE_STAT_PHASE_FREE, REF_PLANE_STAT_SELECTED, Reg.fld, List.mem_cons, List.not_mem_nil, or_false, or_true, true_or] <;> omega)))
    | (with_reducible apply Chip.leaveStart_within; (case hp => decide); (case ht => decide))
    | (with_reducible apply Chip.planeLock_within; (case hp => decide); (case ht => decide))
    | (with_reducible apply Chip.planeShow_within; (case hp => decide); (case ht => decide))
    | (with_reducible apply Chip.setPlane_within; (case hp => decide); (case ht => decide))
    | assumption
    | omega
    | (with_reducible apply Chip.rd_lt_of; simp only [REF_CAND_CFG, REF_CAND_CFG_KIND, REF_PLANE_STAT, REF_PLANE_STAT_PHASE_FREE, REF_PLANE_STAT_SELECTED, Reg.fld, List.mem_cons, List.not_mem_nil, or_false, or_true, true_or] <;> decide)
    | split
    | (simp only [REF_CAND_CFG, REF_CAND_CFG_KIND, REF_PLANE_STAT, REF_PLANE_STAT_PHASE_FREE, REF_PLANE_STAT_SELECTED, Reg.fld, List.mem_cons, List.not_mem_nil, or_false, or_true, true_or] <;> omega))

theorem Chip.reselect_within {P : List Nat} {T : List Part} {c₀ c : Chip} {q : Nat} {ph : Nat → Nat → Int} (hb_q : q < 2) (hw0 : Chip.Within P T c₀ c)
    (hp : [1, 3].all P.contains = true) (ht : ([.planes] : List Part).all T.contains = true) : Chip.Within P T c₀ (c.reselect q ph) := by
  refine Chip.Within.within hw0 hp ht ?_
  clear hw0 hp ht
  unfold Chip.reselect
  repeat' (first
    | with_reducible exact Chip.Within.refl
    | dsimp only
    | (with_reducible apply Chip.loseRef_within; (case hp => decide); (case ht => decide))
    | (with_reducible apply Chip.setPlane_within; (case hp => decide); (case ht => decide))
    | (with_reducible apply Chip.switchTo_within; (case hp => decide); (case ht => decide))
    | assumption
    | omega
    | split
    | (simp only [Reg.fld, List.mem_cons, List.not_mem_nil, or_false, or_true, true_or] <;> omega))

theorem Chip.judgePairs_within {P : List Nat} {T : List Part} {c₀ c : Chip} {q : Nat} (hb_q : q < 2) (hw0 : Chip.Within P T c₀ c)
    (hp : [1, 3].all P.contains = true) (ht : ([.planes] : List Part).all T.contains = true) : Chip.Within P T c₀ (c.judgePairs q) := by
  refine Chip.Within.within hw0 hp ht ?_
  clear hw0 hp ht
  unfold Chip.judgePairs
  repeat' (first
    | with_reducible exact Chip.Within.refl
    | dsimp only
    | (with_reducible apply Chip.Within.set; (case hr => first | assumption | (simp only [REF_STATUS, REF_STATUS_DISAGREE, Reg.fld, List.mem_cons, List.not_mem_nil, or_false, or_true, true_or] <;> omega)))
    | (with_reducible apply Chip.setPlane_within; (case hp => decide); (case ht => decide))
    | with_reducible apply Chip.Within.each
    | (intro y a ha; (try simp only [List.mem_range, List.mem_filter, List.mem_map, List.mem_flatMap, List.mem_cons, List.not_mem_nil, or_false, Bool.and_eq_true, decide_eq_true_eq, beq_iff_eq, Chip.planesOf] at ha); (first | (have hb := Nat.lt_of_lt_of_le ha (Nat.le_refl _)) | (have hb := Chip.mem_groupOf (by first | assumption | omega | (with_reducible apply Chip.leadOf_lt; first | assumption | omega)) ha) | (have hb := Chip.mem_destsOf ha) | (have hb := Chip.mem_routed ha) | (obtain ⟨i, hi, hd⟩ := ha; have hb := Chip.mem_destsOf hd) | (obtain ⟨hi, hj⟩ := ha; have hb : a ≤ 1 := by omega) | (obtain ⟨i, hi, rfl⟩ := ha) | (obtain ⟨hi, hj⟩ := ha; first | (have hb := Chip.mem_destsOf hi) | (have hb := Nat.lt_of_lt_of_le hi (Nat.le_refl _)) | skip) | skip))
    | (with_reducible apply Chip.Within.post; (case hm => decide))
    | assumption
    | omega
    | (simp only [REF_STATUS, REF_STATUS_DISAGREE, Reg.fld, List.mem_cons, List.not_mem_nil, or_false, or_true, true_or] <;> omega))

theorem Chip.leftQual_within {P : List Nat} {T : List Part} {c₀ c : Chip} {k cause : Nat} (hb_k : k < 5) (hw0 : Chip.Within P T c₀ c)
    (hp : [1, 3].all P.contains = true) (ht : ([.ref] : List Part).all T.contains = true) : Chip.Within P T c₀ (c.leftQual k cause) := by
  refine Chip.Within.within hw0 hp ht ?_
  clear hw0 hp ht
  unfold Chip.leftQual
  repeat' (first
    | with_reducible exact Chip.Within.refl
    | dsimp only
    | (with_reducible apply Chip.Within.set; (case hr => first | assumption | (simp only [REF_CAND_STAT, REF_CAND_STAT_DISQ_SEEN, REF_STATUS, REF_STATUS_DISQUALIFIED, Reg.fld, List.mem_cons, List.not_mem_nil, or_false, or_true, true_or] <;> omega)))
    | (with_reducible apply Chip.setCand_within; (case hp => decide); (case ht => decide))
    | (with_reducible apply Chip.Within.post; (case hm => decide))
    | assumption
    | omega
    | (simp only [REF_CAND_STAT, REF_CAND_STAT_DISQ_SEEN, REF_STATUS, REF_STATUS_DISQUALIFIED, Reg.fld, List.mem_cons, List.not_mem_nil, or_false, or_true, true_or] <;> omega))

theorem Chip.goInactive_within {P : List Nat} {T : List Part} {c₀ c : Chip} {k cause : Nat} (hb_k : k < 5) (hw0 : Chip.Within P T c₀ c)
    (hp : [1, 3].all P.contains = true) (ht : ([.ref] : List Part).all T.contains = true) : Chip.Within P T c₀ (c.goInactive k cause) := by
  refine Chip.Within.within hw0 hp ht ?_
  clear hw0 hp ht
  unfold Chip.goInactive
  repeat' (first
    | with_reducible exact Chip.Within.refl
    | dsimp only
    | (with_reducible apply Chip.Within.set; (case hr => first | assumption | (simp only [REF_CAND_STAT, REF_CAND_STAT_CAUSE, REF_CAND_STAT_GOOD_WINDOWS, REF_CAND_STAT_NOISY_SEEN, Reg.fld, List.mem_cons, List.not_mem_nil, or_false, or_true, true_or] <;> omega)))
    | (with_reducible apply Chip.Within.wr; (case hr => first | assumption | (simp only [REF_CAND_STAT, REF_CAND_STAT_CAUSE, REF_CAND_STAT_GOOD_WINDOWS, REF_CAND_STAT_NOISY_SEEN, Reg.fld, List.mem_cons, List.not_mem_nil, or_false, or_true, true_or] <;> omega)))
    | (with_reducible apply Chip.caTo_within; (case hp => decide); (case ht => decide))
    | (with_reducible apply Chip.leftQual_within; (case hp => decide); (case ht => decide))
    | (with_reducible apply Chip.setCand_within; (case hp => decide); (case ht => decide))
    | with_reducible apply Chip.Within.when'
    | assumption
    | intro y
    | omega
    | split
    | (simp only [REF_CAND_STAT, REF_CAND_STAT_CAUSE, REF_CAND_STAT_GOOD_WINDOWS, REF_CAND_STAT_NOISY_SEEN, Reg.fld, List.mem_cons, List.not_mem_nil, or_false, or_true, true_or] <;> omega))

theorem Chip.reselectAll_within {P : List Nat} {T : List Part} {c₀ c : Chip} {ph : Nat → Nat → Int} (hw0 : Chip.Within P T c₀ c)
    (hp : [1, 3].all P.contains = true) (ht : ([.planes] : List Part).all T.contains = true) : Chip.Within P T c₀ (c.reselectAll ph) := by
  refine Chip.Within.within hw0 hp ht ?_
  clear hw0 hp ht
  unfold Chip.reselectAll
  repeat' (first
    | with_reducible exact Chip.Within.refl
    | dsimp only
    | (with_reducible apply Chip.judgePairs_within; (case hp => decide); (case ht => decide))
    | (with_reducible apply Chip.reselect_within; (case hp => decide); (case ht => decide))
    | with_reducible apply Chip.Within.each
    | (intro y a ha; (try simp only [List.mem_range, List.mem_filter, List.mem_map, List.mem_flatMap, List.mem_cons, List.not_mem_nil, or_false, Bool.and_eq_true, decide_eq_true_eq, beq_iff_eq, Chip.planesOf] at ha); (first | (have hb := Nat.lt_of_lt_of_le ha (Nat.le_refl _)) | (have hb := Chip.mem_groupOf (by first | assumption | omega | (with_reducible apply Chip.leadOf_lt; first | assumption | omega)) ha) | (have hb := Chip.mem_destsOf ha) | (have hb := Chip.mem_routed ha) | (obtain ⟨i, hi, hd⟩ := ha; have hb := Chip.mem_destsOf hd) | (obtain ⟨hi, hj⟩ := ha; have hb : a ≤ 1 := by omega) | (obtain ⟨i, hi, rfl⟩ := ha) | (obtain ⟨hi, hj⟩ := ha; first | (have hb := Chip.mem_destsOf hi) | (have hb := Nat.lt_of_lt_of_le hi (Nat.le_refl _)) | skip) | skip))
    | assumption
    | omega
    | (simp only [Reg.fld, List.mem_cons, List.not_mem_nil, or_false, or_true, true_or] <;> omega))

theorem Chip.candInactive_within {P : List Nat} {T : List Part} {c₀ c : Chip} {k : Nat} {noisy : Bool} {ms : List RefMeas} (hb_k : k < 5) (hw0 : Chip.Within P T c₀ c)
    (hp : [1, 3].all P.contains = true) (ht : ([.planes, .ref] : List Part).all T.contains = true) : Chip.Within P T c₀ (c.candInactive k noisy ms) := by
  refine Chip.Within.within hw0 hp ht ?_
  clear hw0 hp ht
  unfold Chip.candInactive
  repeat' (first
    | with_reducible exact Chip.Within.refl
    | dsimp only
    | (with_reducible apply Chip.goInactive_within; (case hp => decide); (case ht => decide))
    | (with_reducible apply Chip.reselectAll_within; (case hp => decide); (case ht => decide))
    | assumption
    | omega
    | split
    | (simp only [Reg.fld, List.mem_cons, List.not_mem_nil, or_false, or_true, true_or] <;> omega))

theorem Chip.candWindow_within {P : List Nat} {T : List Part} {c₀ c : Chip} {k : Nat} {m : RefMeas} (hb_k : k < 5) (hw0 : Chip.Within P T c₀ c)
    (hp : [1, 3].all P.contains = true) (ht : ([.ref] : List Part).all T.contains = true) : Chip.Within P T c₀ (c.candWindow k m) := by
  refine Chip.Within.within hw0 hp ht ?_
  clear hw0 hp ht
  unfold Chip.candWindow
  repeat' (first
    | with_reducible exact Chip.Within.refl
    | dsimp only
    | (with_reducible apply Chip.Within.set; (case hr => first | assumption | (simp only [REF_CAND_CFG, REF_CAND_CFG_ACCEPT, REF_CAND_OFFSET, REF_CAND_OFFSET_OFFSET, REF_CAND_RANK, REF_CAND_RANK_REJECT, REF_CAND_STAT, REF_CAND_STAT_CAUSE, REF_CAND_STAT_GOOD_WINDOWS, REF_CAND_STAT_IN_ACCEPT, REF_CAND_STAT_QUAL_SEEN, Reg.fld, List.mem_cons, List.not_mem_nil, or_false, or_true, true_or] <;> omega)))
    | (with_reducible apply Chip.Within.wr; (case hr => first | assumption | (simp only [REF_CAND_CFG, REF_CAND_CFG_ACCEPT, REF_CAND_OFFSET, REF_CAND_OFFSET_OFFSET, REF_CAND_RANK, REF_CAND_RANK_REJECT, REF_CAND_STAT, REF_CAND_STAT_CAUSE, REF_CAND_STAT_GOOD_WINDOWS, REF_CAND_STAT_IN_ACCEPT, REF_CAND_STAT_QUAL_SEEN, Reg.fld, List.mem_cons, List.not_mem_nil, or_false, or_true, true_or] <;> omega)))
    | (with_reducible apply Chip.Within.wrB; (case hr => first | assumption | (simp only [REF_CAND_CFG, REF_CAND_CFG_ACCEPT, REF_CAND_OFFSET, REF_CAND_OFFSET_OFFSET, REF_CAND_RANK, REF_CAND_RANK_REJECT, REF_CAND_STAT, REF_CAND_STAT_CAUSE, REF_CAND_STAT_GOOD_WINDOWS, REF_CAND_STAT_IN_ACCEPT, REF_CAND_STAT_QUAL_SEEN, Reg.fld, List.mem_cons, List.not_mem_nil, or_false, or_true, true_or] <;> omega)))
    | (with_reducible apply Chip.Within.wrI; (case hr => first | assumption | (simp only [REF_CAND_CFG, REF_CAND_CFG_ACCEPT, REF_CAND_OFFSET, REF_CAND_OFFSET_OFFSET, REF_CAND_RANK, REF_CAND_RANK_REJECT, REF_CAND_STAT, REF_CAND_STAT_CAUSE, REF_CAND_STAT_GOOD_WINDOWS, REF_CAND_STAT_IN_ACCEPT, REF_CAND_STAT_QUAL_SEEN, Reg.fld, List.mem_cons, List.not_mem_nil, or_false, or_true, true_or] <;> omega)))
    | (with_reducible apply Chip.caTo_within; (case hp => decide); (case ht => decide))
    | (with_reducible apply Chip.leftQual_within; (case hp => decide); (case ht => decide))
    | (with_reducible apply Chip.setCand_within; (case hp => decide); (case ht => decide))
    | with_reducible apply Chip.Within.when'
    | (with_reducible apply Chip.Within.post; (case hm => decide))
    | assumption
    | intro y
    | omega
    | (with_reducible apply Chip.rd_lt_of; simp only [REF_CAND_CFG, REF_CAND_CFG_ACCEPT, REF_CAND_OFFSET, REF_CAND_OFFSET_OFFSET, REF_CAND_RANK, REF_CAND_RANK_REJECT, REF_CAND_STAT, REF_CAND_STAT_CAUSE, REF_CAND_STAT_GOOD_WINDOWS, REF_CAND_STAT_IN_ACCEPT, REF_CAND_STAT_QUAL_SEEN, Reg.fld, List.mem_cons, List.not_mem_nil, or_false, or_true, true_or] <;> decide)
    | split
    | (simp only [REF_CAND_CFG, REF_CAND_CFG_ACCEPT, REF_CAND_OFFSET, REF_CAND_OFFSET_OFFSET, REF_CAND_RANK, REF_CAND_RANK_REJECT, REF_CAND_STAT, REF_CAND_STAT_CAUSE, REF_CAND_STAT_GOOD_WINDOWS, REF_CAND_STAT_IN_ACCEPT, REF_CAND_STAT_QUAL_SEEN, Reg.fld, List.mem_cons, List.not_mem_nil, or_false, or_true, true_or] <;> omega))

theorem Chip.planeWindow_within {P : List Nat} {T : List Part} {c₀ c : Chip} {q : Nat} {ms : List RefMeas} (hb_q : q < 2) (hw0 : Chip.Within P T c₀ c)
    (hp : [3].all P.contains = true) (ht : ([.planes] : List Part).all T.contains = true) : Chip.Within P T c₀ (c.planeWindow q ms) := by
  refine Chip.Within.within hw0 hp ht ?_
  clear hw0 hp ht
  unfold Chip.planeWindow
  repeat' (first
    | with_reducible exact Chip.Within.refl
    | dsimp only
    | (with_reducible apply Chip.modelShow_within; (case hp => decide); (case ht => decide))
    | (with_reducible apply Chip.planeShow_within; (case hp => decide); (case ht => decide))
    | (with_reducible apply Chip.setPlane_within; (case hp => decide); (case ht => decide))
    | (with_reducible apply Chip.slew_within; (case hp => decide); (case ht => decide))
    | with_reducible apply Chip.Within.when'
    | assumption
    | intro y
    | omega
    | split
    | (simp only [REF_CAND_STAT, REF_CAND_STAT_IN_ACCEPT, Reg.fld, List.mem_cons, List.not_mem_nil, or_false, or_true, true_or] <;> omega))

theorem Chip.loTrack_within {P : List Nat} {T : List Part} {c₀ c : Chip} {lo : Int} (hw0 : Chip.Within P T c₀ c)
    (hp : [3].all P.contains = true) (ht : ([.ref] : List Part).all T.contains = true) : Chip.Within P T c₀ (c.loTrack lo) := by
  refine Chip.Within.within hw0 hp ht ?_
  clear hw0 hp ht
  unfold Chip.loTrack
  repeat' (first
    | with_reducible exact Chip.Within.refl
    | dsimp only
    | (with_reducible apply Chip.Within.wrI; (case hr => first | assumption | (simp only [REF_LO, REF_LO_CAL, REF_LO_CAL_LO_CAL, REF_LO_CAL_VALID, REF_LO_PRESENT, Reg.fld, List.mem_cons, List.not_mem_nil, or_false, or_true, true_or] <;> omega)))
    | (fail_if_no_progress (with_reducible apply Chip.Within.to_ref; (case hk => decide)))
    | assumption
    | omega
    | split
    | (simp only [REF_LO, REF_LO_CAL, REF_LO_CAL_LO_CAL, REF_LO_CAL_VALID, REF_LO_PRESENT, Reg.fld, List.mem_cons, List.not_mem_nil, or_false, or_true, true_or] <;> omega))

theorem Chip.windowEnd_within {P : List Nat} {T : List Part} {c₀ c : Chip} {ms : List RefMeas} {lo : Int} (hw0 : Chip.Within P T c₀ c)
    (hp : [1, 3].all P.contains = true) (ht : ([.planes, .ref] : List Part).all T.contains = true) : Chip.Within P T c₀ (c.windowEnd ms lo) := by
  refine Chip.Within.within hw0 hp ht ?_
  clear hw0 hp ht
  unfold Chip.windowEnd
  repeat' (first
    | with_reducible exact Chip.Within.refl
    | dsimp only
    | (with_reducible apply Chip.candWindow_within; (case hp => decide); (case ht => decide))
    | (with_reducible apply Chip.judgePairs_within; (case hp => decide); (case ht => decide))
    | (with_reducible apply Chip.loTrack_within; (case hp => decide); (case ht => decide))
    | (with_reducible apply Chip.planeWindow_within; (case hp => decide); (case ht => decide))
    | (with_reducible apply Chip.reselect_within; (case hp => decide); (case ht => decide))
    | (with_reducible apply Chip.startSelect_within; (case hp => decide); (case ht => decide))
    | with_reducible apply Chip.Within.each
    | (intro y a ha; (try simp only [List.mem_range, List.mem_filter, List.mem_map, List.mem_flatMap, List.mem_cons, List.not_mem_nil, or_false, Bool.and_eq_true, decide_eq_true_eq, beq_iff_eq, Chip.planesOf] at ha); (first | (have hb := Nat.lt_of_lt_of_le ha (Nat.le_refl _)) | (have hb := Chip.mem_groupOf (by first | assumption | omega | (with_reducible apply Chip.leadOf_lt; first | assumption | omega)) ha) | (have hb := Chip.mem_destsOf ha) | (have hb := Chip.mem_routed ha) | (obtain ⟨i, hi, hd⟩ := ha; have hb := Chip.mem_destsOf hd) | (obtain ⟨hi, hj⟩ := ha; have hb : a ≤ 1 := by omega) | (obtain ⟨i, hi, rfl⟩ := ha) | (obtain ⟨hi, hj⟩ := ha; first | (have hb := Chip.mem_destsOf hi) | (have hb := Nat.lt_of_lt_of_le hi (Nat.le_refl _)) | skip) | skip))
    | assumption
    | omega
    | split
    | (simp only [Reg.fld, List.mem_cons, List.not_mem_nil, or_false, or_true, true_or] <;> omega))

theorem Chip.wtrExpiry_within {P : List Nat} {T : List Part} {c₀ c : Chip} {q : Nat} {ms : List RefMeas} (hb_q : q < 2) (hw0 : Chip.Within P T c₀ c)
    (hp : [1, 3].all P.contains = true) (ht : ([.planes] : List Part).all T.contains = true) : Chip.Within P T c₀ (c.wtrExpiry q ms) := by
  refine Chip.Within.within hw0 hp ht ?_
  clear hw0 hp ht
  unfold Chip.wtrExpiry
  repeat' (first
    | with_reducible exact Chip.Within.refl
    | dsimp only
    | (with_reducible apply Chip.judgePairs_within; (case hp => decide); (case ht => decide))
    | (with_reducible apply Chip.reselect_within; (case hp => decide); (case ht => decide))
    | assumption
    | omega
    | (simp only [Reg.fld, List.mem_cons, List.not_mem_nil, or_false, or_true, true_or] <;> omega))

theorem Chip.pullinDone_within {P : List Nat} {T : List Part} {c₀ c : Chip} {q : Nat} (hb_q : q < 2) (hw0 : Chip.Within P T c₀ c)
    (hp : [1, 3].all P.contains = true) (ht : ([.planes] : List Part).all T.contains = true) : Chip.Within P T c₀ (c.pullinDone q) := by
  refine Chip.Within.within hw0 hp ht ?_
  clear hw0 hp ht
  unfold Chip.pullinDone
  repeat' (first
    | with_reducible exact Chip.Within.refl
    | dsimp only
    | (with_reducible apply Chip.planeLock_within; (case hp => decide); (case ht => decide))
    | (with_reducible apply Chip.planeShow_within; (case hp => decide); (case ht => decide))
    | (with_reducible apply Chip.slew_within; (case hp => decide); (case ht => decide))
    | assumption
    | omega
    | split
    | (simp only [Reg.fld, List.mem_cons, List.not_mem_nil, or_false, or_true, true_or] <;> omega))

theorem Chip.startTimeout_within {P : List Nat} {T : List Part} {c₀ c : Chip} {q delay : Nat} (hb_q : q < 2) (hw0 : Chip.Within P T c₀ c)
    (hp : [1, 3].all P.contains = true) (ht : ([.planes] : List Part).all T.contains = true) : Chip.Within P T c₀ (c.startTimeout q delay) := by
  refine Chip.Within.within hw0 hp ht ?_
  clear hw0 hp ht
  unfold Chip.startTimeout
  repeat' (first
    | with_reducible exact Chip.Within.refl
    | dsimp only
    | (with_reducible apply Chip.Within.set; (case hr => first | assumption | (simp only [REF_PLANE_STAT, REF_PLANE_STAT_PHASE_FREE, Reg.fld, List.mem_cons, List.not_mem_nil, or_false, or_true, true_or] <;> omega)))
    | (with_reducible apply Chip.freerun_within; (case hp => decide); (case ht => decide))
    | (with_reducible apply Chip.leaveStart_within; (case hp => decide); (case ht => decide))
    | (with_reducible apply Chip.planeShow_within; (case hp => decide); (case ht => decide))
    | (with_reducible apply Chip.setPlane_within; (case hp => decide); (case ht => decide))
    | assumption
    | omega
    | split
    | (simp only [REF_PLANE_STAT, REF_PLANE_STAT_PHASE_FREE, Reg.fld, List.mem_cons, List.not_mem_nil, or_false, or_true, true_or] <;> omega))

theorem Chip.strayEdges_within {P : List Nat} {T : List Part} {c₀ c : Chip} {k n : Nat} {ms : List RefMeas} (hb_k : k < 5) (hw0 : Chip.Within P T c₀ c)
    (hp : [1, 3].all P.contains = true) (ht : ([.planes, .ref] : List Part).all T.contains = true) : Chip.Within P T c₀ (c.strayEdges k n ms) := by
  refine Chip.Within.within hw0 hp ht ?_
  clear hw0 hp ht
  unfold Chip.strayEdges
  repeat' (first
    | with_reducible exact Chip.Within.refl
    | dsimp only
    | (with_reducible apply Chip.candInactive_within; (case hp => decide); (case ht => decide))
    | (with_reducible apply Chip.setCand_within; (case hp => decide); (case ht => decide))
    | assumption
    | omega
    | split
    | (simp only [Reg.fld, List.mem_cons, List.not_mem_nil, or_false, or_true, true_or] <;> omega))

theorem Chip.refEdge_within {P : List Nat} {T : List Part} {c₀ c : Chip} {k : Nat} {d : Int} {ms : List RefMeas} (hb_k : k < 5) (hw0 : Chip.Within P T c₀ c)
    (hp : [1, 3].all P.contains = true) (ht : ([.planes, .ref] : List Part).all T.contains = true) : Chip.Within P T c₀ (c.refEdge k d ms) := by
  refine Chip.Within.within hw0 hp ht ?_
  clear hw0 hp ht
  unfold Chip.refEdge
  repeat' (first
    | with_reducible exact Chip.Within.refl
    | dsimp only
    | (with_reducible apply Chip.setCand_within; (case hp => decide); (case ht => decide))
    | (with_reducible apply Chip.strayEdges_within; (case hp => decide); (case ht => decide))
    | assumption
    | omega
    | split
    | (simp only [Reg.fld, List.mem_cons, List.not_mem_nil, or_false, or_true, true_or] <;> omega))

theorem Chip.phaseHit_within {P : List Nat} {T : List Part} {c₀ c : Chip} {k : Nat} (hb_k : k < 5) (hw0 : Chip.Within P T c₀ c)
    (hp : [1, 3].all P.contains = true) (ht : ([.planes, .ref] : List Part).all T.contains = true) : Chip.Within P T c₀ (c.phaseHit k) := by
  refine Chip.Within.within hw0 hp ht ?_
  clear hw0 hp ht
  unfold Chip.phaseHit
  repeat' (first
    | with_reducible exact Chip.Within.refl
    | dsimp only
    | (with_reducible apply Chip.Within.set; (case hr => first | assumption | (simp only [REF_PLANE_STAT, REF_PLANE_STAT_PHASE_HIT, REF_STATUS, REF_STATUS_PHASE_HIT, Reg.fld, List.mem_cons, List.not_mem_nil, or_false, or_true, true_or] <;> omega)))
    | (with_reducible apply Chip.planeShow_within; (case hp => decide); (case ht => decide))
    | (with_reducible apply Chip.setCand_within; (case hp => decide); (case ht => decide))
    | (with_reducible apply Chip.setPlane_within; (case hp => decide); (case ht => decide))
    | with_reducible apply Chip.Within.each
    | (intro y a ha; (try simp only [List.mem_range, List.mem_filter, List.mem_map, List.mem_flatMap, List.mem_cons, List.not_mem_nil, or_false, Bool.and_eq_true, decide_eq_true_eq, beq_iff_eq, Chip.planesOf] at ha); (first | (have hb := Nat.lt_of_lt_of_le ha (Nat.le_refl _)) | (have hb := Chip.mem_groupOf (by first | assumption | omega | (with_reducible apply Chip.leadOf_lt; first | assumption | omega)) ha) | (have hb := Chip.mem_destsOf ha) | (have hb := Chip.mem_routed ha) | (obtain ⟨i, hi, hd⟩ := ha; have hb := Chip.mem_destsOf hd) | (obtain ⟨hi, hj⟩ := ha; have hb : a ≤ 1 := by omega) | (obtain ⟨i, hi, rfl⟩ := ha) | (obtain ⟨hi, hj⟩ := ha; first | (have hb := Chip.mem_destsOf hi) | (have hb := Nat.lt_of_lt_of_le hi (Nat.le_refl _)) | skip) | skip))
    | (with_reducible apply Chip.Within.post; (case hm => decide))
    | assumption
    | omega
    | split
    | (simp only [REF_PLANE_STAT, REF_PLANE_STAT_PHASE_HIT, REF_STATUS, REF_STATUS_PHASE_HIT, Reg.fld, List.mem_cons, List.not_mem_nil, or_false, or_true, true_or] <;> omega))

theorem Chip.loLoss_within {P : List Nat} {T : List Part} {c₀ c : Chip} (hw0 : Chip.Within P T c₀ c)
    (hp : [1, 3].all P.contains = true) (ht : ([.mem, .planes, .ref] : List Part).all T.contains = true) : Chip.Within P T c₀ (c.loLoss) := by
  refine Chip.Within.within hw0 hp ht ?_
  clear hw0 hp ht
  unfold Chip.loLoss
  repeat' (first
    | with_reducible exact Chip.Within.refl
    | dsimp only
    | (with_reducible apply Chip.Within.set; (case hr => first | assumption | (simp only [REF_LO, REF_LO_PRESENT, REF_STATUS, REF_STATUS_LO_MISSING, Reg.fld, List.mem_cons, List.not_mem_nil, or_false, or_true, true_or] <;> omega)))
    | (with_reducible apply Chip.Within.clr; (case hr => first | assumption | (simp only [REF_LO, REF_LO_PRESENT, REF_STATUS, REF_STATUS_LO_MISSING, Reg.fld, List.mem_cons, List.not_mem_nil, or_false, or_true, true_or] <;> omega)))
    | (with_reducible apply Chip.freerun_within; (case hp => decide); (case ht => decide))
    | (with_reducible apply Chip.planeShow_within; (case hp => decide); (case ht => decide))
    | (with_reducible apply Chip.slew_within; (case hp => decide); (case ht => decide))
    | (fail_if_no_progress (with_reducible apply Chip.Within.to_ref; (case hk => decide)))
    | with_reducible apply Chip.Within.each
    | (with_reducible apply Chip.Within.post; (case hm => decide))
    | assumption
    | (intro y a ha; (try simp only [List.mem_range, List.mem_filter, List.mem_map, List.mem_flatMap, List.mem_cons, List.not_mem_nil, or_false, Bool.and_eq_true, decide_eq_true_eq, beq_iff_eq, Chip.planesOf] at ha); (first | (have hb := Nat.lt_of_lt_of_le ha (Nat.le_refl _)) | (have hb := Chip.mem_groupOf (by first | assumption | omega | (with_reducible apply Chip.leadOf_lt; first | assumption | omega)) ha) | (have hb := Chip.mem_destsOf ha) | (have hb := Chip.mem_routed ha) | (obtain ⟨i, hi, hd⟩ := ha; have hb := Chip.mem_destsOf hd) | (obtain ⟨hi, hj⟩ := ha; have hb : a ≤ 1 := by omega) | (obtain ⟨i, hi, rfl⟩ := ha) | (obtain ⟨hi, hj⟩ := ha; first | (have hb := Chip.mem_destsOf hi) | (have hb := Chip.mem_routed hi) | (have hb := Nat.lt_of_lt_of_le hi (Nat.le_refl _)) | skip) | skip))
    | omega
    | with_reducible apply Chip.leadOf_lt
    | (with_reducible apply Chip.rd_lt_of; simp only [REF_LO, REF_LO_PRESENT, REF_STATUS, REF_STATUS_LO_MISSING, Reg.fld, List.mem_cons, List.not_mem_nil, or_false, or_true, true_or] <;> decide)
    | split
    | (simp only [REF_LO, REF_LO_PRESENT, REF_STATUS, REF_STATUS_LO_MISSING, Reg.fld, List.mem_cons, List.not_mem_nil, or_false, or_true, true_or] <;> omega))

theorem Chip.loReturn_within {P : List Nat} {T : List Part} {c₀ c : Chip}  (hw0 : Chip.Within P T c₀ c)
    (hp : [3].all P.contains = true) (ht : ([.ref] : List Part).all T.contains = true) : Chip.Within P T c₀ (c.loReturn) := by
  refine Chip.Within.within hw0 hp ht ?_
  clear hw0 hp ht
  unfold Chip.loReturn
  repeat' (first
    | with_reducible exact Chip.Within.refl
    | dsimp only
    | (with_reducible apply Chip.Within.set; (case hr => first | assumption | (simp only [REF_LO, REF_LO_PRESENT, Reg.fld, List.mem_cons, List.not_mem_nil, or_false, or_true, true_or] <;> omega)))
    | (fail_if_no_progress (with_reducible apply Chip.Within.to_ref; (case hk => decide)))
    | assumption
    | omega
    | split
    | (simp only [REF_LO, REF_LO_PRESENT, Reg.fld, List.mem_cons, List.not_mem_nil, or_false, or_true, true_or] <;> omega))

theorem Chip.loCalibrate_within {P : List Nat} {T : List Part} {c₀ c : Chip} {lo : Int} (hw0 : Chip.Within P T c₀ c)
    (hp : [1, 3].all P.contains = true) (ht : ([.ref] : List Part).all T.contains = true) : Chip.Within P T c₀ (c.loCalibrate lo) := by
  refine Chip.Within.within hw0 hp ht ?_
  clear hw0 hp ht
  unfold Chip.loCalibrate
  repeat' (first
    | with_reducible exact Chip.Within.refl
    | dsimp only
    | (with_reducible apply Chip.Within.set; (case hr => first | assumption | (simp only [REF_CAND_CFG, REF_CAND_CFG_KIND, REF_LO, REF_LO_CAL, REF_LO_CAL_LO_CAL, REF_LO_CAL_VALID, REF_LO_PRESENT, Reg.fld, List.mem_cons, List.not_mem_nil, or_false, or_true, true_or] <;> omega)))
    | (with_reducible apply Chip.Within.wrI; (case hr => first | assumption | (simp only [REF_CAND_CFG, REF_CAND_CFG_KIND, REF_LO, REF_LO_CAL, REF_LO_CAL_LO_CAL, REF_LO_CAL_VALID, REF_LO_PRESENT, Reg.fld, List.mem_cons, List.not_mem_nil, or_false, or_true, true_or] <;> omega)))
    | (fail_if_no_progress (with_reducible apply Chip.Within.to_ref; (case hk => decide)))
    | (with_reducible apply Chip.Within.post; (case hm => decide))
    | assumption
    | omega
    | (with_reducible apply Chip.rd_lt_of; simp only [REF_CAND_CFG, REF_CAND_CFG_KIND, REF_LO, REF_LO_CAL, REF_LO_CAL_LO_CAL, REF_LO_CAL_VALID, REF_LO_PRESENT, Reg.fld, List.mem_cons, List.not_mem_nil, or_false, or_true, true_or] <;> decide)
    | split
    | (simp only [REF_CAND_CFG, REF_CAND_CFG_KIND, REF_LO, REF_LO_CAL, REF_LO_CAL_LO_CAL, REF_LO_CAL_VALID, REF_LO_PRESENT, Reg.fld, List.mem_cons, List.not_mem_nil, or_false, or_true, true_or] <;> omega))


theorem Chip.setSap_within {P : List Nat} {T : List Part} {c₀ c : Chip} {p : Nat} {x : SapPort} (hw0 : Chip.Within P T c₀ c)
    (hp : [].all P.contains = true) (ht : ([.sap] : List Part).all T.contains = true) : Chip.Within P T c₀ (c.setSap p x) := by
  refine Chip.Within.within hw0 hp ht ?_
  clear hw0 hp ht
  unfold Chip.setSap
  repeat' (first
    | with_reducible exact Chip.Within.refl
    | dsimp only
    | (fail_if_no_progress (with_reducible apply Chip.Within.to_sap; (case hk => decide)))
    | assumption
    | omega
    | (simp only [Reg.fld, List.mem_cons, List.not_mem_nil, or_false, or_true, true_or] <;> omega))

theorem Chip.sapShow_within {P : List Nat} {T : List Part} {c₀ c : Chip} {p : Nat} (hb_p : p < 16) (hw0 : Chip.Within P T c₀ c)
    (hp : [88].all P.contains = true) (ht : ([] : List Part).all T.contains = true) : Chip.Within P T c₀ (c.sapShow p) := by
  refine Chip.Within.within hw0 hp ht ?_
  clear hw0 hp ht
  unfold Chip.sapShow
  repeat' (first
    | with_reducible exact Chip.Within.refl
    | dsimp only
    | (with_reducible apply Chip.Within.wr; (case hr => first | assumption | (simp only [SAP_PORT_STAT, SAP_PORT_STAT_RX_FILL, SAP_PORT_STAT_STATE, SAP_PORT_STAT_TX_FILL, Reg.fld, List.mem_cons, List.not_mem_nil, or_false, or_true, true_or] <;> omega)))
    | assumption
    | omega
    | split
    | (simp only [SAP_PORT_STAT, SAP_PORT_STAT_RX_FILL, SAP_PORT_STAT_STATE, SAP_PORT_STAT_TX_FILL, Reg.fld, List.mem_cons, List.not_mem_nil, or_false, or_true, true_or] <;> omega))

theorem Chip.sapSlip_within {P : List Nat} {T : List Part} {c₀ c : Chip} {p : Nat} {tx : Bool} {count : Fld} (hx_r : count.off / 65536 ∈ [1, 88]) (hb_p : p < 16) (hw0 : Chip.Within P T c₀ c)
    (hp : [1, 88].all P.contains = true) (ht : ([.sap] : List Part).all T.contains = true) : Chip.Within P T c₀ (c.sapSlip p tx count) := by
  refine Chip.Within.within hw0 hp ht ?_
  clear hw0 hp ht
  unfold Chip.sapSlip
  repeat' (first
    | with_reducible exact Chip.Within.refl
    | dsimp only
    | (with_reducible apply Chip.Within.set; (case hr => first | assumption | (simp only [SAP_PORT_CTL, SAP_PORT_CTL_WEAGOR, SAP_PORT_STAT, SAP_PORT_STAT_SLIP_SEEN, SAP_PORT_STAT_SWAPPED, SAP_PORT_STAT_SWAP_SEEN, SAP_STATUS, SAP_STATUS_SLIP, SAP_STATUS_SWAPPED, Reg.fld, List.mem_cons, List.not_mem_nil, or_false, or_true, true_or] <;> omega)))
    | (with_reducible apply Chip.Within.inc; (case hr => first | assumption | (simp only [SAP_PORT_CTL, SAP_PORT_CTL_WEAGOR, SAP_PORT_STAT, SAP_PORT_STAT_SLIP_SEEN, SAP_PORT_STAT_SWAPPED, SAP_PORT_STAT_SWAP_SEEN, SAP_STATUS, SAP_STATUS_SLIP, SAP_STATUS_SWAPPED, Reg.fld, List.mem_cons, List.not_mem_nil, or_false, or_true, true_or] <;> omega)))
    | (with_reducible apply Chip.setSap_within; (case hp => decide); (case ht => decide))
    | with_reducible apply Chip.Within.when'
    | (with_reducible apply Chip.Within.post; (case hm => decide))
    | assumption
    | intro y
    | omega
    | split
    | (simp only [SAP_PORT_CTL, SAP_PORT_CTL_WEAGOR, SAP_PORT_STAT, SAP_PORT_STAT_SLIP_SEEN, SAP_PORT_STAT_SWAPPED, SAP_PORT_STAT_SWAP_SEEN, SAP_STATUS, SAP_STATUS_SLIP, SAP_STATUS_SWAPPED, Reg.fld, List.mem_cons, List.not_mem_nil, or_false, or_true, true_or] <;> omega))

theorem Chip.sapMeet_within {P : List Nat} {T : List Part} {c₀ c : Chip} {p : Nat} {tx : Bool} (hb_p : p < 16) (hw0 : Chip.Within P T c₀ c)
    (hp : [1].all P.contains = true) (ht : ([.sap] : List Part).all T.contains = true) : Chip.Within P T c₀ (c.sapMeet p tx) := by
  refine Chip.Within.within hw0 hp ht ?_
  clear hw0 hp ht
  unfold Chip.sapMeet
  repeat' (first
    | with_reducible exact Chip.Within.refl
    | dsimp only
    | (with_reducible apply Chip.setSap_within; (case hp => decide); (case ht => decide))
    | with_reducible apply Chip.Within.when'
    | (with_reducible apply Chip.Within.post; (case hm => decide))
    | assumption
    | intro y
    | omega
    | split
    | (simp only [Reg.fld, List.mem_cons, List.not_mem_nil, or_false, or_true, true_or] <;> omega))

theorem Chip.sapDeliver_within {P : List Nat} {T : List Part} {c₀ c : Chip} {p n : Nat} (hb_p : p < 16) (hw0 : Chip.Within P T c₀ c)
    (hp : [1, 88].all P.contains = true) (ht : ([.sap] : List Part).all T.contains = true) : Chip.Within P T c₀ (c.sapDeliver p n) := by
  refine Chip.Within.within hw0 hp ht ?_
  clear hw0 hp ht
  unfold Chip.sapDeliver
  repeat' (first
    | with_reducible exact Chip.Within.refl
    | dsimp only
    | (with_reducible apply Chip.Within.add; (case hr => first | assumption | (simp only [SAP_PORT_RX_DISC, SAP_PORT_RX_DISC_COUNT, SAP_PORT_RX_REP, SAP_PORT_RX_REP_COUNT, Reg.fld, List.mem_cons, List.not_mem_nil, or_false, or_true, true_or] <;> omega)))
    | (with_reducible apply Chip.sapMeet_within; (case hp => decide); (case ht => decide))
    | (with_reducible apply Chip.sapSlip_within; (case hp => decide); (case ht => decide))
    | (with_reducible apply Chip.setSap_within; (case hp => decide); (case ht => decide))
    | assumption
    | omega
    | split
    | (simp only [SAP_PORT_RX_DISC, SAP_PORT_RX_DISC_COUNT, SAP_PORT_RX_REP, SAP_PORT_RX_REP_COUNT, Reg.fld, List.mem_cons, List.not_mem_nil, or_false, or_true, true_or] <;> omega))

theorem Chip.sapWrite_within {P : List Nat} {T : List Part} {c₀ c : Chip} {p n : Nat} {v : Int × Int} (hb_p : p < 16) (hw0 : Chip.Within P T c₀ c)
    (hp : [1, 88].all P.contains = true) (ht : ([.sap] : List Part).all T.contains = true) : Chip.Within P T c₀ (c.sapWrite p n v) := by
  refine Chip.Within.within hw0 hp ht ?_
  clear hw0 hp ht
  unfold Chip.sapWrite
  repeat' (first
    | with_reducible exact Chip.Within.refl
    | dsimp only
    | (with_reducible apply Chip.Within.inc; (case hr => first | assumption | (simp only [SAP_PORT_STAT, SAP_PORT_STAT_SWAPPED, SAP_PORT_TX_DISC, SAP_PORT_TX_DISC_COUNT, Reg.fld, List.mem_cons, List.not_mem_nil, or_false, or_true, true_or] <;> omega)))
    | (with_reducible apply Chip.sapSlip_within; (case hp => decide); (case ht => decide))
    | (with_reducible apply Chip.setSap_within; (case hp => decide); (case ht => decide))
    | assumption
    | omega
    | split
    | (simp only [SAP_PORT_STAT, SAP_PORT_STAT_SWAPPED, SAP_PORT_TX_DISC, SAP_PORT_TX_DISC_COUNT, Reg.fld, List.mem_cons, List.not_mem_nil, or_false, or_true, true_or] <;> omega))

theorem Chip.sapArrive_within {P : List Nat} {T : List Part} {c₀ c : Chip} {p : Nat} {v : Int × Int} (hb_p : p < 16) (hw0 : Chip.Within P T c₀ c)
    (hp : [1, 88].all P.contains = true) (ht : ([.sap] : List Part).all T.contains = true) : Chip.Within P T c₀ (c.sapArrive p v) := by
  refine Chip.Within.within hw0 hp ht ?_
  clear hw0 hp ht
  unfold Chip.sapArrive
  repeat' (first
    | with_reducible exact Chip.Within.refl
    | dsimp only
    | (with_reducible apply Chip.sapSlip_within; (case hp => decide); (case ht => decide))
    | (with_reducible apply Chip.setSap_within; (case hp => decide); (case ht => decide))
    | assumption
    | omega
    | split
    | (simp only [SAP_PORT_RX_DISC, SAP_PORT_RX_DISC_COUNT, SAP_PORT_STAT, SAP_PORT_STAT_SWAPPED, Reg.fld, List.mem_cons, List.not_mem_nil, or_false, or_true, true_or] <;> omega))

theorem Chip.sapLeave_within {P : List Nat} {T : List Part} {c₀ c : Chip} {p : Nat} (hb_p : p < 16) (hw0 : Chip.Within P T c₀ c)
    (hp : [1, 88].all P.contains = true) (ht : ([.sap] : List Part).all T.contains = true) : Chip.Within P T c₀ (c.sapLeave p) := by
  refine Chip.Within.within hw0 hp ht ?_
  clear hw0 hp ht
  unfold Chip.sapLeave
  repeat' (first
    | with_reducible exact Chip.Within.refl
    | dsimp only
    | (with_reducible apply Chip.Within.add; (case hr => first | assumption | (simp only [SAP_PORT_TX_DISC, SAP_PORT_TX_DISC_COUNT, SAP_PORT_TX_REP, SAP_PORT_TX_REP_COUNT, Reg.fld, List.mem_cons, List.not_mem_nil, or_false, or_true, true_or] <;> omega)))
    | (with_reducible apply Chip.sapMeet_within; (case hp => decide); (case ht => decide))
    | (with_reducible apply Chip.sapSlip_within; (case hp => decide); (case ht => decide))
    | (with_reducible apply Chip.setSap_within; (case hp => decide); (case ht => decide))
    | assumption
    | omega
    | split
    | (simp only [SAP_PORT_TX_DISC, SAP_PORT_TX_DISC_COUNT, SAP_PORT_TX_REP, SAP_PORT_TX_REP_COUNT, Reg.fld, List.mem_cons, List.not_mem_nil, or_false, or_true, true_or] <;> omega))

theorem Chip.sapFrame_within {P : List Nat} {T : List Part} {c₀ c : Chip} {p : Nat} {bclk : Nat} {rx : List (Int × Int)} {tx : Nat} (hb_p : p < 16) (hw0 : Chip.Within P T c₀ c)
    (hp : [1, 88].all P.contains = true) (ht : ([.sap] : List Part).all T.contains = true) : Chip.Within P T c₀ (c.sapFrame p bclk rx tx) := by
  refine Chip.Within.within hw0 hp ht ?_
  clear hw0 hp ht
  unfold Chip.sapFrame
  repeat' (first
    | with_reducible exact Chip.Within.refl
    | dsimp only
    | (with_reducible apply Chip.sapArrive_within; (case hp => decide); (case ht => decide))
    | (with_reducible apply Chip.sapLeave_within; (case hp => decide); (case ht => decide))
    | (with_reducible apply Chip.sapShow_within; (case hp => decide); (case ht => decide))
    | (with_reducible apply Chip.setSap_within; (case hp => decide); (case ht => decide))
    | with_reducible apply Chip.Within.each
    | (intro y a ha; (try simp only [List.mem_range, List.mem_filter, List.mem_map, List.mem_flatMap, List.mem_cons, List.not_mem_nil, or_false, Bool.and_eq_true, decide_eq_true_eq, beq_iff_eq, Chip.planesOf] at ha); (first | (have hb := Nat.lt_of_lt_of_le ha (Nat.le_refl _)) | (have hb := Chip.mem_groupOf (by first | assumption | omega | (with_reducible apply Chip.leadOf_lt; first | assumption | omega)) ha) | (have hb := Chip.mem_destsOf ha) | (have hb := Chip.mem_routed ha) | (obtain ⟨i, hi, hd⟩ := ha; have hb := Chip.mem_destsOf hd) | (obtain ⟨hi, hj⟩ := ha; have hb : a ≤ 1 := by omega) | (obtain ⟨i, hi, rfl⟩ := ha) | (obtain ⟨hi, hj⟩ := ha; first | (have hb := Chip.mem_destsOf hi) | (have hb := Nat.lt_of_lt_of_le hi (Nat.le_refl _)) | skip) | skip))
    | assumption
    | omega
    | split
    | (simp only [Reg.fld, List.mem_cons, List.not_mem_nil, or_false, or_true, true_or] <;> omega))

theorem Chip.sapLock_within {P : List Nat} {T : List Part} {c₀ c : Chip} {p : Nat} {rate : Int} (hb_p : p < 16) (hw0 : Chip.Within P T c₀ c)
    (hp : [1, 88].all P.contains = true) (ht : ([.sap] : List Part).all T.contains = true) : Chip.Within P T c₀ (c.sapLock p rate) := by
  refine Chip.Within.within hw0 hp ht ?_
  clear hw0 hp ht
  unfold Chip.sapLock
  repeat' (first
    | with_reducible exact Chip.Within.refl
    | dsimp only
    | (with_reducible apply Chip.sapShow_within; (case hp => decide); (case ht => decide))
    | (with_reducible apply Chip.setSap_within; (case hp => decide); (case ht => decide))
    | (with_reducible apply Chip.Within.post; (case hm => decide))
    | assumption
    | omega
    | (with_reducible apply Chip.rd_lt_of; simp only [SAP_PORT_CTL, SAP_PORT_CTL_RATE, Reg.fld, List.mem_cons, List.not_mem_nil, or_false, or_true, true_or] <;> decide)
    | split
    | (simp only [SAP_PORT_CTL, SAP_PORT_CTL_RATE, Reg.fld, List.mem_cons, List.not_mem_nil, or_false, or_true, true_or] <;> omega))

theorem Chip.sapUnlock_within {P : List Nat} {T : List Part} {c₀ c : Chip} {p cause : Nat} (hb_p : p < 16) (hw0 : Chip.Within P T c₀ c)
    (hp : [1, 88].all P.contains = true) (ht : ([.sap] : List Part).all T.contains = true) : Chip.Within P T c₀ (c.sapUnlock p cause) := by
  refine Chip.Within.within hw0 hp ht ?_
  clear hw0 hp ht
  unfold Chip.sapUnlock
  repeat' (first
    | with_reducible exact Chip.Within.refl
    | dsimp only
    | (with_reducible apply Chip.Within.set; (case hr => first | assumption | (simp only [SAP_PORT_CTL, SAP_PORT_CTL_RATE, SAP_PORT_STAT, SAP_PORT_STAT_FRAMING_SEEN, SAP_PORT_STAT_UNLOCK_SEEN, SAP_STATUS, SAP_STATUS_FRAMING, SAP_STATUS_UNLOCKED, Reg.fld, List.mem_cons, List.not_mem_nil, or_false, or_true, true_or] <;> omega)))
    | (with_reducible apply Chip.sapShow_within; (case hp => decide); (case ht => decide))
    | (with_reducible apply Chip.setSap_within; (case hp => decide); (case ht => decide))
    | with_reducible apply Chip.Within.when'
    | (with_reducible apply Chip.Within.post; (case hm => decide))
    | assumption
    | intro y
    | omega
    | (with_reducible apply Chip.rd_lt_of; simp only [SAP_PORT_CTL, SAP_PORT_CTL_RATE, SAP_PORT_STAT, SAP_PORT_STAT_FRAMING_SEEN, SAP_PORT_STAT_UNLOCK_SEEN, SAP_STATUS, SAP_STATUS_FRAMING, SAP_STATUS_UNLOCKED, Reg.fld, List.mem_cons, List.not_mem_nil, or_false, or_true, true_or] <;> decide)
    | split
    | (simp only [SAP_PORT_CTL, SAP_PORT_CTL_RATE, SAP_PORT_STAT, SAP_PORT_STAT_FRAMING_SEEN, SAP_PORT_STAT_UNLOCK_SEEN, SAP_STATUS, SAP_STATUS_FRAMING, SAP_STATUS_UNLOCKED, Reg.fld, List.mem_cons, List.not_mem_nil, or_false, or_true, true_or] <;> omega))

theorem Chip.sapSlipped_within {P : List Nat} {T : List Part} {c₀ c : Chip} {p kind : Nat} (hb_p : p < 16) (hw0 : Chip.Within P T c₀ c)
    (hp : [1, 88].all P.contains = true) (ht : ([.sap] : List Part).all T.contains = true) : Chip.Within P T c₀ (c.sapSlipped p kind) := by
  refine Chip.Within.within hw0 hp ht ?_
  clear hw0 hp ht
  unfold Chip.sapSlipped
  repeat' (first
    | with_reducible exact Chip.Within.refl
    | dsimp only
    | (with_reducible apply Chip.sapShow_within; (case hp => decide); (case ht => decide))
    | (with_reducible apply Chip.sapSlip_within; (case hp => decide); (case ht => decide))
    | with_reducible apply Chip.Within.when'
    | assumption
    | intro y
    | omega
    | split
    | (simp only [SAP_PORT_RX_DISC, SAP_PORT_RX_DISC_COUNT, SAP_PORT_RX_REP, SAP_PORT_RX_REP_COUNT, SAP_PORT_TX_DISC, SAP_PORT_TX_DISC_COUNT, SAP_PORT_TX_REP, SAP_PORT_TX_REP_COUNT, Reg.fld, List.mem_cons, List.not_mem_nil, or_false, or_true, true_or] <;> omega))

theorem Chip.sapRejoined_within {P : List Nat} {T : List Part} {c₀ c : Chip} {p : Nat} (hb_p : p < 16) (hw0 : Chip.Within P T c₀ c)
    (hp : [1, 88].all P.contains = true) (ht : ([.sap] : List Part).all T.contains = true) : Chip.Within P T c₀ (c.sapRejoined p) := by
  refine Chip.Within.within hw0 hp ht ?_
  clear hw0 hp ht
  unfold Chip.sapRejoined
  repeat' (first
    | with_reducible exact Chip.Within.refl
    | dsimp only
    | (with_reducible apply Chip.sapMeet_within; (case hp => decide); (case ht => decide))
    | (with_reducible apply Chip.sapShow_within; (case hp => decide); (case ht => decide))
    | with_reducible apply Chip.Within.when'
    | assumption
    | intro y
    | omega
    | split
    | (simp only [Reg.fld, List.mem_cons, List.not_mem_nil, or_false, or_true, true_or] <;> omega))


theorem Chip.setHead_within {P : List Nat} {T : List Part} {c₀ c : Chip} {h : Nat} {x : Head} (hw0 : Chip.Within P T c₀ c)
    (hp : [].all P.contains = true) (ht : ([.heads] : List Part).all T.contains = true) : Chip.Within P T c₀ (c.setHead h x) := by
  refine Chip.Within.within hw0 hp ht ?_
  clear hw0 hp ht
  unfold Chip.setHead
  repeat' (first
    | with_reducible exact Chip.Within.refl
    | dsimp only
    | (fail_if_no_progress (with_reducible apply Chip.Within.to_heads; (case hk => decide)))
    | assumption
    | omega
    | (simp only [Reg.fld, List.mem_cons, List.not_mem_nil, or_false, or_true, true_or] <;> omega))

theorem Chip.setGl_within {P : List Nat} {T : List Part} {c₀ c : Chip} {h l : Nat} {y : GLayer} (hw0 : Chip.Within P T c₀ c)
    (hp : [].all P.contains = true) (ht : ([.heads] : List Part).all T.contains = true) : Chip.Within P T c₀ (c.setGl h l y) := by
  refine Chip.Within.within hw0 hp ht ?_
  clear hw0 hp ht
  unfold Chip.setGl
  repeat' (first
    | with_reducible exact Chip.Within.refl
    | dsimp only
    | (with_reducible apply Chip.setHead_within; (case hp => decide); (case ht => decide))
    | assumption
    | omega
    | (simp only [Reg.fld, List.mem_cons, List.not_mem_nil, or_false, or_true, true_or] <;> omega))

theorem Chip.headRuns_within {P : List Nat} {T : List Part} {c₀ c : Chip} {s : Nat} (hb_s : s < 332) (hw0 : Chip.Within P T c₀ c)
    (hp : [96].all P.contains = true) (ht : ([] : List Part).all T.contains = true) : Chip.Within P T c₀ (c.headRuns s) := by
  refine Chip.Within.within hw0 hp ht ?_
  clear hw0 hp ht
  unfold Chip.headRuns
  repeat' (first
    | with_reducible exact Chip.Within.refl
    | dsimp only
    | (with_reducible apply Chip.Within.wrB; (case hr => first | assumption | (simp only [MVC_HEAD_STAT, MVC_HEAD_STAT_RUNNING, Reg.fld, List.mem_cons, List.not_mem_nil, or_false, or_true, true_or] <;> omega)))
    | assumption
    | omega
    | split
    | (simp only [MVC_HEAD_STAT, MVC_HEAD_STAT_RUNNING, Reg.fld, List.mem_cons, List.not_mem_nil, or_false, or_true, true_or] <;> omega))

theorem Chip.slateLayer_within {P : List Nat} {T : List Part} {c₀ c : Chip} {h v : Nat} (hb_h : h < 4) (hb_v : v < 16) (hw0 : Chip.Within P T c₀ c)
    (hp : [1, 96].all P.contains = true) (ht : ([] : List Part).all T.contains = true) : Chip.Within P T c₀ (c.slateLayer h v) := by
  refine Chip.Within.within hw0 hp ht ?_
  clear hw0 hp ht
  unfold Chip.slateLayer
  repeat' (first
    | with_reducible exact Chip.Within.refl
    | dsimp only
    | (with_reducible apply Chip.Within.set; (case hr => first | assumption | (simp only [MVC_HEAD_STAT, MVC_HEAD_STAT_SLATE_SEEN, MVC_STATUS, MVC_STATUS_SLATED, MVC_VL_STAT, MVC_VL_STAT_SHOW, Reg.fld, List.mem_cons, List.not_mem_nil, or_false, or_true, true_or] <;> omega)))
    | (with_reducible apply Chip.Within.wr; (case hr => first | assumption | (simp only [MVC_HEAD_STAT, MVC_HEAD_STAT_SLATE_SEEN, MVC_STATUS, MVC_STATUS_SLATED, MVC_VL_STAT, MVC_VL_STAT_SHOW, Reg.fld, List.mem_cons, List.not_mem_nil, or_false, or_true, true_or] <;> omega)))
    | (with_reducible apply Chip.Within.post; (case hm => decide))
    | assumption
    | omega
    | (simp only [MVC_HEAD_STAT, MVC_HEAD_STAT_SLATE_SEEN, MVC_STATUS, MVC_STATUS_SLATED, MVC_VL_STAT, MVC_VL_STAT_SHOW, Reg.fld, List.mem_cons, List.not_mem_nil, or_false, or_true, true_or] <;> omega))

theorem Chip.layerSlated_within {P : List Nat} {T : List Part} {c₀ c : Chip} {h v : Nat} (hb_h : h < 4) (hb_v : v < 16) (hw0 : Chip.Within P T c₀ c)
    (hp : [1, 96].all P.contains = true) (ht : ([] : List Part).all T.contains = true) : Chip.Within P T c₀ (c.layerSlated h v) := by
  refine Chip.Within.within hw0 hp ht ?_
  clear hw0 hp ht
  unfold Chip.layerSlated
  repeat' (first
    | with_reducible exact Chip.Within.refl
    | dsimp only
    | (with_reducible apply Chip.slateLayer_within; (case hp => decide); (case ht => decide))
    | assumption
    | omega
    | (with_reducible apply Chip.rd_lt_of; simp only [MVC_HEAD_CTL, MVC_HEAD_CTL_ENABLE, MVC_HEAD_CTL_LOSS_TIMEOUT, MVC_HEAD_CTL_PLANE, MVC_VL_CTL, MVC_VL_CTL_ENABLE, MVC_VL_STAT, MVC_VL_STAT_SHOW, Reg.fld, List.mem_cons, List.not_mem_nil, or_false, or_true, true_or] <;> decide)
    | split
    | (simp only [MVC_HEAD_CTL, MVC_HEAD_CTL_ENABLE, MVC_HEAD_CTL_LOSS_TIMEOUT, MVC_HEAD_CTL_PLANE, MVC_VL_CTL, MVC_VL_CTL_ENABLE, MVC_VL_STAT, MVC_VL_STAT_SHOW, Reg.fld, List.mem_cons, List.not_mem_nil, or_false, or_true, true_or] <;> omega))

end Sys2Proof.Machine
end

