-- ==== Sys2Proof/Laws/WithinTwin.lean ====
section
/-! SUPPORT. What each operation over the twin, the bus monitor and the rest may change: it keeps within the listed pages and parts (Chip.Within), so that a frame of a
command is one lemma of the operations it calls. -/

set_option linter.all false
set_option maxRecDepth 4000

namespace Sys2Proof.Machine


theorem Chip.setTwn_within {P : List Nat} {T : List Part} {c₀ c : Chip} {x : Twn} (hw0 : Chip.Within P T c₀ c)
    (hp : [].all P.contains = true) (ht : ([.twn] : List Part).all T.contains = true) : Chip.Within P T c₀ (c.setTwn x) := by
  refine Chip.Within.within hw0 hp ht ?_
  clear hw0 hp ht
  unfold Chip.setTwn
  repeat' (first
    | with_reducible exact Chip.Within.refl
    | dsimp only
    | (fail_if_no_progress (with_reducible apply Chip.Within.to_twn; (case hk => decide)))
    | assumption
    | omega
    | (simp only [Reg.fld, List.mem_cons, List.not_mem_nil, or_false, or_true, true_or] <;> omega))

theorem Chip.twnShow_within {P : List Nat} {T : List Part} {c₀ c : Chip}  (hw0 : Chip.Within P T c₀ c)
    (hp : [0, 112].all P.contains = true) (ht : ([] : List Part).all T.contains = true) : Chip.Within P T c₀ (c.twnShow) := by
  refine Chip.Within.within hw0 hp ht ?_
  clear hw0 hp ht
  unfold Chip.twnShow
  repeat' (first
    | with_reducible exact Chip.Within.refl
    | dsimp only
    | (with_reducible apply Chip.Within.wr; (case hr => first | assumption | (simp only [TOP_STATUS, TOP_STATUS_TWIN_STATE, TWN_CFG, TWN_CFG_ENABLE, TWN_STATE, TWN_STATE_HANDOVER_PENDING, TWN_STATE_LANES_UP, TWN_STATE_READY_OUT, TWN_STATE_TWN_NOT_READY, Reg.fld, List.mem_cons, List.not_mem_nil, or_false, or_true, true_or] <;> omega) | (refine Chip.ln_pages (n := n) (by omega) ?_ (by decide); simp [lnCfg, lnStat, lnEq, lnEye, lnErr, lnTrain, lnState, lnPolInv, lnSignal, lnAccepted, lnPeak, lnGain, Reg.fld]; done) | (refine Chip.ln_pages (n := a) (by omega) ?_ (by decide); simp [lnCfg, lnStat, lnEq, lnEye, lnErr, lnTrain, lnState, lnPolInv, lnSignal, lnAccepted, lnPeak, lnGain, Reg.fld]; done)))
    | (with_reducible apply Chip.Within.wrB; (case hr => first | assumption | (simp only [TOP_STATUS, TOP_STATUS_TWIN_STATE, TWN_CFG, TWN_CFG_ENABLE, TWN_STATE, TWN_STATE_HANDOVER_PENDING, TWN_STATE_LANES_UP, TWN_STATE_READY_OUT, TWN_STATE_TWN_NOT_READY, Reg.fld, List.mem_cons, List.not_mem_nil, or_false, or_true, true_or] <;> omega) | (refine Chip.ln_pages (n := n) (by omega) ?_ (by decide); simp [lnCfg, lnStat, lnEq, lnEye, lnErr, lnTrain, lnState, lnPolInv, lnSignal, lnAccepted, lnPeak, lnGain, Reg.fld]; done) | (refine Chip.ln_pages (n := a) (by omega) ?_ (by decide); simp [lnCfg, lnStat, lnEq, lnEye, lnErr, lnTrain, lnState, lnPolInv, lnSignal, lnAccepted, lnPeak, lnGain, Reg.fld]; done)))
    | assumption
    | omega
    | split
    | (simp only [TOP_STATUS, TOP_STATUS_TWIN_STATE, TWN_CFG, TWN_CFG_ENABLE, TWN_STATE, TWN_STATE_HANDOVER_PENDING, TWN_STATE_LANES_UP, TWN_STATE_READY_OUT, TWN_STATE_TWN_NOT_READY, Reg.fld, List.mem_cons, List.not_mem_nil, or_false, or_true, true_or] <;> omega))

theorem Chip.twnTo_within {P : List Nat} {T : List Part} {c₀ c : Chip} {mode phase : Nat} (hw0 : Chip.Within P T c₀ c)
    (hp : [0, 112].all P.contains = true) (ht : ([] : List Part).all T.contains = true) : Chip.Within P T c₀ (c.twnTo mode phase) := by
  refine Chip.Within.within hw0 hp ht ?_
  clear hw0 hp ht
  unfold Chip.twnTo
  repeat' (first
    | with_reducible exact Chip.Within.refl
    | dsimp only
    | (with_reducible apply Chip.Within.wr; (case hr => first | assumption | (simp only [TWN_STATE, TWN_STATE_MODE, TWN_STATE_PHASE, Reg.fld, List.mem_cons, List.not_mem_nil, or_false, or_true, true_or] <;> omega)))
    | (with_reducible apply Chip.twnShow_within; (case hp => decide); (case ht => decide))
    | assumption
    | omega
    | (simp only [TWN_STATE, TWN_STATE_MODE, TWN_STATE_PHASE, Reg.fld, List.mem_cons, List.not_mem_nil, or_false, or_true, true_or] <;> omega))

theorem Chip.twnLose_within {P : List Nat} {T : List Part} {c₀ c : Chip} {cause : Nat} (hw0 : Chip.Within P T c₀ c)
    (hp : [0, 1, 112].all P.contains = true) (ht : ([] : List Part).all T.contains = true) : Chip.Within P T c₀ (c.twnLose cause) := by
  refine Chip.Within.within hw0 hp ht ?_
  clear hw0 hp ht
  unfold Chip.twnLose
  repeat' (first
    | with_reducible exact Chip.Within.refl
    | dsimp only
    | (with_reducible apply Chip.Within.set; (case hr => first | assumption | (simp only [TWN_STATE, TWN_STATE_LOST_CAUSE, TWN_STATUS, TWN_STATUS_LOST_STEP, Reg.fld, List.mem_cons, List.not_mem_nil, or_false, or_true, true_or] <;> omega)))
    | (with_reducible apply Chip.Within.wr; (case hr => first | assumption | (simp only [TWN_STATE, TWN_STATE_LOST_CAUSE, TWN_STATUS, TWN_STATUS_LOST_STEP, Reg.fld, List.mem_cons, List.not_mem_nil, or_false, or_true, true_or] <;> omega)))
    | (with_reducible apply Chip.twnTo_within; (case hp => decide); (case ht => decide))
    | with_reducible apply Chip.Within.when'
    | (with_reducible apply Chip.Within.post; (case hm => decide))
    | assumption
    | intro y
    | omega
    | split
    | (simp only [TWN_STATE, TWN_STATE_LOST_CAUSE, TWN_STATUS, TWN_STATUS_LOST_STEP, Reg.fld, List.mem_cons, List.not_mem_nil, or_false, or_true, true_or] <;> omega))

theorem Chip.twnCopy_within {P : List Nat} {T : List Part} {c₀ c : Chip} {cause : Nat} (hw0 : Chip.Within P T c₀ c)
    (hp : [0, 16, 112].all P.contains = true) (ht : ([.heads, .lbs, .sent, .twn] : List Part).all T.contains = true) : Chip.Within P T c₀ (c.twnCopy cause) := by
  refine Chip.Within.within hw0 hp ht ?_
  clear hw0 hp ht
  unfold Chip.twnCopy
  repeat' (first
    | with_reducible exact Chip.Within.refl
    | dsimp only
    | (with_reducible apply Chip.Within.wr; (case hr => first | assumption | (simp only [LBS_REC_HIST, LBS_REC_HIST_HISTORY, TWN_COUNTS, TWN_COUNTS_RESYNCS, TWN_MATCH, TWN_STATE, TWN_STATE_LOST_CAUSE, Reg.fld, List.mem_cons, List.not_mem_nil, or_false, or_true, true_or] <;> omega)))
    | (with_reducible apply Chip.Within.add; (case hr => first | assumption | (simp only [LBS_REC_HIST, LBS_REC_HIST_HISTORY, TWN_COUNTS, TWN_COUNTS_RESYNCS, TWN_MATCH, TWN_STATE, TWN_STATE_LOST_CAUSE, Reg.fld, List.mem_cons, List.not_mem_nil, or_false, or_true, true_or] <;> omega)))
    | (with_reducible apply Chip.Within.put; (case hr => first | assumption | (simp only [LBS_REC_HIST, LBS_REC_HIST_HISTORY, TWN_COUNTS, TWN_COUNTS_RESYNCS, TWN_MATCH, TWN_STATE, TWN_STATE_LOST_CAUSE, Reg.fld, List.mem_cons, List.not_mem_nil, or_false, or_true, true_or] <;> omega)))
    | (with_reducible apply Chip.setTwn_within; (case hp => decide); (case ht => decide))
    | (with_reducible apply Chip.tell_within; (case hp => decide); (case ht => decide))
    | (with_reducible apply Chip.twnTo_within; (case hp => decide); (case ht => decide))
    | (fail_if_no_progress (with_reducible apply Chip.Within.to_heads; (case hk => decide)))
    | (fail_if_no_progress (with_reducible apply Chip.Within.to_lbs; (case hk => decide)))
    | with_reducible apply Chip.Within.each
    | (intro y a ha; (try simp only [List.mem_range, List.mem_filter, List.mem_map, List.mem_flatMap, List.mem_cons, List.not_mem_nil, or_false, Bool.and_eq_true, decide_eq_true_eq, beq_iff_eq, Chip.planesOf] at ha); (first | (have hb := Nat.lt_of_lt_of_le ha (Nat.le_refl _)) | (have hb := Chip.mem_groupOf (by first | assumption | omega | (with_reducible apply Chip.leadOf_lt; first | assumption | omega)) ha) | (have hb := Chip.mem_destsOf ha) | (have hb := Chip.mem_routed ha) | (obtain ⟨i, hi, hd⟩ := ha; have hb := Chip.mem_destsOf hd) | (obtain ⟨hi, hj⟩ := ha; have hb : a ≤ 1 := by omega) | (obtain ⟨i, hi, rfl⟩ := ha) | (obtain ⟨hi, hj⟩ := ha; first | (have hb := Chip.mem_destsOf hi) | (have hb := Nat.lt_of_lt_of_le hi (Nat.le_refl _)) | skip) | skip))
    | assumption
    | omega
    | split
    | (simp only [LBS_REC_HIST, LBS_REC_HIST_HISTORY, TWN_COUNTS, TWN_COUNTS_RESYNCS, TWN_MATCH, TWN_STATE, TWN_STATE_LOST_CAUSE, Reg.fld, List.mem_cons, List.not_mem_nil, or_false, or_true, true_or] <;> omega))

theorem Chip.twnBreak_within {P : List Nat} {T : List Part} {c₀ c : Chip} {cause : Nat} (hw0 : Chip.Within P T c₀ c)
    (hp : [0, 1, 16, 112].all P.contains = true) (ht : ([.heads, .lbs, .sent, .twn] : List Part).all T.contains = true) : Chip.Within P T c₀ (c.twnBreak cause) := by
  refine Chip.Within.within hw0 hp ht ?_
  clear hw0 hp ht
  unfold Chip.twnBreak
  repeat' (first
    | with_reducible exact Chip.Within.refl
    | dsimp only
    | (with_reducible apply Chip.twnCopy_within; (case hp => decide); (case ht => decide))
    | (with_reducible apply Chip.twnLose_within; (case hp => decide); (case ht => decide))
    | assumption
    | omega
    | (simp only [Reg.fld, List.mem_cons, List.not_mem_nil, or_false, or_true, true_or] <;> omega))

theorem Chip.twnJudge_within {P : List Nat} {T : List Part} {c₀ c : Chip} {cause : Nat} (hw0 : Chip.Within P T c₀ c)
    (hp : [0, 1, 112].all P.contains = true) (ht : ([] : List Part).all T.contains = true) : Chip.Within P T c₀ (c.twnJudge cause) := by
  refine Chip.Within.within hw0 hp ht ?_
  clear hw0 hp ht
  unfold Chip.twnJudge
  repeat' (first
    | with_reducible exact Chip.Within.refl
    | dsimp only
    | (with_reducible apply Chip.twnLose_within; (case hp => decide); (case ht => decide))
    | (with_reducible apply Chip.twnTo_within; (case hp => decide); (case ht => decide))
    | (with_reducible apply Chip.Within.post; (case hm => decide))
    | assumption
    | omega
    | (with_reducible apply Chip.rd_lt_of; simp only [TWN_MATCH, TWN_MATCH_MATCH_RUN, Reg.fld, List.mem_cons, List.not_mem_nil, or_false, or_true, true_or] <;> decide)
    | split
    | (simp only [TWN_MATCH, TWN_MATCH_MATCH_RUN, Reg.fld, List.mem_cons, List.not_mem_nil, or_false, or_true, true_or] <;> omega))

theorem Chip.twnGap_within {P : List Nat} {T : List Part} {c₀ c : Chip} {k : Nat} (hw0 : Chip.Within P T c₀ c)
    (hp : [0, 1, 16, 112].all P.contains = true) (ht : ([.heads, .lbs, .sent, .twn] : List Part).all T.contains = true) : Chip.Within P T c₀ (c.twnGap k) := by
  refine Chip.Within.within hw0 hp ht ?_
  clear hw0 hp ht
  unfold Chip.twnGap
  repeat' (first
    | with_reducible exact Chip.Within.refl
    | dsimp only
    | (with_reducible apply Chip.Within.set; (case hr => first | assumption | (simp only [Reg.fld, List.mem_cons, List.not_mem_nil, or_false, or_true, true_or] <;> omega)))
    | (with_reducible apply Chip.setTwn_within; (case hp => decide); (case ht => decide))
    | (with_reducible apply Chip.twnBreak_within; (case hp => decide); (case ht => decide))
    | assumption
    | omega
    | split
    | (simp only [Reg.fld, List.mem_cons, List.not_mem_nil, or_false, or_true, true_or] <;> omega))

theorem Chip.helloSend_within {P : List Nat} {T : List Part} {c₀ c : Chip} {peerIn : Bool} (hw0 : Chip.Within P T c₀ c)
    (hp : [112].all P.contains = true) (ht : ([.sent, .twn] : List Part).all T.contains = true) : Chip.Within P T c₀ (c.helloSend peerIn) := by
  refine Chip.Within.within hw0 hp ht ?_
  clear hw0 hp ht
  unfold Chip.helloSend
  repeat' (first
    | with_reducible exact Chip.Within.refl
    | dsimp only
    | (with_reducible apply Chip.Within.wrB; (case hr => first | assumption | (simp only [TWN_CFG, TWN_CFG_ENABLE, TWN_STATE, TWN_STATE_PEER_IN, UPD_SCHEMA, UPD_SCHEMA_RUNNING, Reg.fld, List.mem_cons, List.not_mem_nil, or_false, or_true, true_or] <;> omega)))
    | (with_reducible apply Chip.tell_within; (case hp => decide); (case ht => decide))
    | assumption
    | omega
    | (with_reducible apply Chip.rd_lt_of; simp only [TWN_CFG, TWN_CFG_ENABLE, TWN_STATE, TWN_STATE_PEER_IN, UPD_SCHEMA, UPD_SCHEMA_RUNNING, Reg.fld, List.mem_cons, List.not_mem_nil, or_false, or_true, true_or] <;> decide)
    | split
    | (simp only [TWN_CFG, TWN_CFG_ENABLE, TWN_STATE, TWN_STATE_PEER_IN, UPD_SCHEMA, UPD_SCHEMA_RUNNING, Reg.fld, List.mem_cons, List.not_mem_nil, or_false, or_true, true_or] <;> omega))

theorem Chip.beStandby_within {P : List Nat} {T : List Part} {c₀ c : Chip}  (hw0 : Chip.Within P T c₀ c)
    (hp : [0, 112].all P.contains = true) (ht : ([.twn] : List Part).all T.contains = true) : Chip.Within P T c₀ (c.beStandby) := by
  refine Chip.Within.within hw0 hp ht ?_
  clear hw0 hp ht
  unfold Chip.beStandby
  repeat' (first
    | with_reducible exact Chip.Within.refl
    | dsimp only
    | (with_reducible apply Chip.setTwn_within; (case hp => decide); (case ht => decide))
    | (with_reducible apply Chip.twnTo_within; (case hp => decide); (case ht => decide))
    | assumption
    | omega
    | (simp only [Reg.fld, List.mem_cons, List.not_mem_nil, or_false, or_true, true_or] <;> omega))

theorem Chip.twnPair_within {P : List Nat} {T : List Part} {c₀ c : Chip}  (hw0 : Chip.Within P T c₀ c)
    (hp : [0, 1, 16, 112].all P.contains = true) (ht : ([.heads, .lbs, .sent, .twn] : List Part).all T.contains = true) : Chip.Within P T c₀ (c.twnPair) := by
  refine Chip.Within.within hw0 hp ht ?_
  clear hw0 hp ht
  unfold Chip.twnPair
  repeat' (first
    | with_reducible exact Chip.Within.refl
    | dsimp only
    | (with_reducible apply Chip.setTwn_within; (case hp => decide); (case ht => decide))
    | (with_reducible apply Chip.twnCopy_within; (case hp => decide); (case ht => decide))
    | with_reducible apply Chip.Within.when'
    | (with_reducible apply Chip.Within.post; (case hm => decide))
    | assumption
    | intro y
    | omega
    | (with_reducible apply Chip.rd_lt_of; simp only [TWN_PEER, TWN_PEER_PEER_MODE, TWN_PEER_PEER_UNIT, TWN_PEER_PRESENT, Reg.fld, List.mem_cons, List.not_mem_nil, or_false, or_true, true_or] <;> decide)
    | split
    | (simp only [TWN_PEER, TWN_PEER_PEER_MODE, TWN_PEER_PEER_UNIT, TWN_PEER_PRESENT, Reg.fld, List.mem_cons, List.not_mem_nil, or_false, or_true, true_or] <;> omega))

theorem Chip.helloTimeout_within {P : List Nat} {T : List Part} {c₀ c : Chip}  (hw0 : Chip.Within P T c₀ c)
    (hp : [0, 112].all P.contains = true) (ht : ([.twn] : List Part).all T.contains = true) : Chip.Within P T c₀ (c.helloTimeout) := by
  refine Chip.Within.within hw0 hp ht ?_
  clear hw0 hp ht
  unfold Chip.helloTimeout
  repeat' (first
    | with_reducible exact Chip.Within.refl
    | dsimp only
    | (with_reducible apply Chip.Within.clr; (case hr => first | assumption | (simp only [TWN_PEER, TWN_PEER_PRESENT, Reg.fld, List.mem_cons, List.not_mem_nil, or_false, or_true, true_or] <;> omega)))
    | (with_reducible apply Chip.setTwn_within; (case hp => decide); (case ht => decide))
    | (with_reducible apply Chip.twnShow_within; (case hp => decide); (case ht => decide))
    | assumption
    | omega
    | split
    | (simp only [TWN_PEER, TWN_PEER_PRESENT, Reg.fld, List.mem_cons, List.not_mem_nil, or_false, or_true, true_or] <;> omega))

theorem Chip.modeDecide_within {P : List Nat} {T : List Part} {c₀ c : Chip} {peerIn : Bool} (hw0 : Chip.Within P T c₀ c)
    (hp : [0, 1, 16, 112].all P.contains = true) (ht : ([.heads, .lbs, .sent, .twn] : List Part).all T.contains = true) : Chip.Within P T c₀ (c.modeDecide peerIn) := by
  refine Chip.Within.within hw0 hp ht ?_
  clear hw0 hp ht
  unfold Chip.modeDecide
  repeat' (first
    | with_reducible exact Chip.Within.refl
    | dsimp only
    | (with_reducible apply Chip.Within.wrB; (case hr => first | assumption | (simp only [TWN_CFG, TWN_CFG_ENABLE, TWN_PEER, TWN_PEER_PEER_MODE, TWN_PEER_PRESENT, TWN_STATE, TWN_STATE_PEER_IN, Reg.fld, List.mem_cons, List.not_mem_nil, or_false, or_true, true_or] <;> omega)))
    | (with_reducible apply Chip.beStandby_within; (case hp => decide); (case ht => decide))
    | (with_reducible apply Chip.setTwn_within; (case hp => decide); (case ht => decide))
    | (with_reducible apply Chip.twnPair_within; (case hp => decide); (case ht => decide))
    | (with_reducible apply Chip.twnTo_within; (case hp => decide); (case ht => decide))
    | assumption
    | omega
    | (with_reducible apply Chip.rd_lt_of; simp only [TWN_CFG, TWN_CFG_ENABLE, TWN_PEER, TWN_PEER_PEER_MODE, TWN_PEER_PRESENT, TWN_STATE, TWN_STATE_PEER_IN, Reg.fld, List.mem_cons, List.not_mem_nil, or_false, or_true, true_or] <;> decide)
    | split
    | (simp only [TWN_CFG, TWN_CFG_ENABLE, TWN_PEER, TWN_PEER_PEER_MODE, TWN_PEER_PRESENT, TWN_STATE, TWN_STATE_PEER_IN, Reg.fld, List.mem_cons, List.not_mem_nil, or_false, or_true, true_or] <;> omega))

theorem Chip.unit1Wait_within {P : List Nat} {T : List Part} {c₀ c : Chip} {peerIn : Bool} (hw0 : Chip.Within P T c₀ c)
    (hp : [0, 1, 16, 112].all P.contains = true) (ht : ([.heads, .lbs, .sent, .twn] : List Part).all T.contains = true) : Chip.Within P T c₀ (c.unit1Wait peerIn) := by
  refine Chip.Within.within hw0 hp ht ?_
  clear hw0 hp ht
  unfold Chip.unit1Wait
  repeat' (first
    | with_reducible exact Chip.Within.refl
    | dsimp only
    | (with_reducible apply Chip.Within.wrB; (case hr => first | assumption | (simp only [TWN_PEER, TWN_PEER_PEER_MODE, TWN_PEER_PRESENT, TWN_STATE, TWN_STATE_PEER_IN, Reg.fld, List.mem_cons, List.not_mem_nil, or_false, or_true, true_or] <;> omega)))
    | (with_reducible apply Chip.beStandby_within; (case hp => decide); (case ht => decide))
    | (with_reducible apply Chip.setTwn_within; (case hp => decide); (case ht => decide))
    | (with_reducible apply Chip.twnPair_within; (case hp => decide); (case ht => decide))
    | assumption
    | omega
    | (with_reducible apply Chip.rd_lt_of; simp only [TWN_PEER, TWN_PEER_PEER_MODE, TWN_PEER_PRESENT, TWN_STATE, TWN_STATE_PEER_IN, Reg.fld, List.mem_cons, List.not_mem_nil, or_false, or_true, true_or] <;> decide)
    | split
    | (simp only [TWN_PEER, TWN_PEER_PEER_MODE, TWN_PEER_PRESENT, TWN_STATE, TWN_STATE_PEER_IN, Reg.fld, List.mem_cons, List.not_mem_nil, or_false, or_true, true_or] <;> omega))

theorem Chip.peerConflict_within {P : List Nat} {T : List Part} {c₀ c : Chip}  (hw0 : Chip.Within P T c₀ c)
    (hp : [0, 1, 16, 112].all P.contains = true) (ht : ([.heads, .lbs, .sent, .twn] : List Part).all T.contains = true) : Chip.Within P T c₀ (c.peerConflict) := by
  refine Chip.Within.within hw0 hp ht ?_
  clear hw0 hp ht
  unfold Chip.peerConflict
  repeat' (first
    | with_reducible exact Chip.Within.refl
    | dsimp only
    | (with_reducible apply Chip.Within.set; (case hr => first | assumption | (simp only [TWN_STATE, TWN_STATE_ACTIVE_OUT, TWN_STATE_HANDOVER_PENDING, TWN_STATE_PEER_IN, TWN_STATUS, TWN_STATUS_PEER_MISMATCH, Reg.fld, List.mem_cons, List.not_mem_nil, or_false, or_true, true_or] <;> omega)))
    | (with_reducible apply Chip.Within.clr; (case hr => first | assumption | (simp only [TWN_STATE, TWN_STATE_ACTIVE_OUT, TWN_STATE_HANDOVER_PENDING, TWN_STATE_PEER_IN, TWN_STATUS, TWN_STATUS_PEER_MISMATCH, Reg.fld, List.mem_cons, List.not_mem_nil, or_false, or_true, true_or] <;> omega)))
    | (with_reducible apply Chip.beStandby_within; (case hp => decide); (case ht => decide))
    | (with_reducible apply Chip.twnPair_within; (case hp => decide); (case ht => decide))
    | assumption
    | omega
    | split
    | (simp only [TWN_STATE, TWN_STATE_ACTIVE_OUT, TWN_STATE_HANDOVER_PENDING, TWN_STATE_PEER_IN, TWN_STATUS, TWN_STATUS_PEER_MISMATCH, Reg.fld, List.mem_cons, List.not_mem_nil, or_false, or_true, true_or] <;> omega))

theorem Chip.twnMarker_within {P : List Nat} {T : List Part} {c₀ c : Chip} {n b : Nat} {reform : Bool} (hb_n : n < 50) (hw0 : Chip.Within P T c₀ c)
    (hp : [0, 48, 112].all P.contains = true) (ht : ([.lanes, .twn] : List Part).all T.contains = true) : Chip.Within P T c₀ (c.twnMarker n b reform) := by
  refine Chip.Within.within hw0 hp ht ?_
  clear hw0 hp ht
  unfold Chip.twnMarker
  repeat' (first
    | with_reducible exact Chip.Within.refl
    | dsimp only
    | (with_reducible apply Chip.lnCrcErr_within; (case hp => decide); (case ht => decide))
    | (with_reducible apply Chip.setLane_within; (case hp => decide); (case ht => decide))
    | (with_reducible apply Chip.setTwn_within; (case hp => decide); (case ht => decide))
    | (with_reducible apply Chip.twnShow_within; (case hp => decide); (case ht => decide))
    | with_reducible apply Chip.Within.when'
    | assumption
    | intro y
    | omega
    | with_reducible apply Chip.leadOf_lt
    | (with_reducible apply Chip.rd_lt_of; simp only [Reg.fld, List.mem_cons, List.not_mem_nil, or_false, or_true, true_or] <;> decide)
    | split
    | (simp only [Reg.fld, List.mem_cons, List.not_mem_nil, or_false, or_true, true_or] <;> omega)
    | (simp only [blockType, lnTrained, mkCfgWidth, mkCount, mkLink, mkLlane, mkRole, mkUnit] <;> omega)
    | (simp only [blockType, lnTrained, mkCfgWidth, mkCount, mkLink, mkLlane, mkRole, mkUnit, Reg.fld, List.mem_cons, List.not_mem_nil, or_false, or_true, true_or] <;> omega))

theorem Chip.twnBlock_within {P : List Nat} {T : List Part} {c₀ c : Chip} {n b : Nat} (hb_n : n < 50) (hw0 : Chip.Within P T c₀ c)
    (hp : [48, 112].all P.contains = true) (ht : ([.twn] : List Part).all T.contains = true) : Chip.Within P T c₀ (c.twnBlock n b) := by
  refine Chip.Within.within hw0 hp ht ?_
  clear hw0 hp ht
  unfold Chip.twnBlock
  repeat' (first
    | with_reducible exact Chip.Within.refl
    | dsimp only
    | (with_reducible apply Chip.lnCrcErr_within; (case hp => decide); (case ht => decide))
    | (with_reducible apply Chip.setTwn_within; (case hp => decide); (case ht => decide))
    | assumption
    | omega
    | with_reducible apply Chip.leadOf_lt
    | (with_reducible apply Chip.rd_lt_of; simp only [Reg.fld, List.mem_cons, List.not_mem_nil, or_false, or_true, true_or] <;> decide)
    | split
    | (simp only [Reg.fld, List.mem_cons, List.not_mem_nil, or_false, or_true, true_or] <;> omega)
    | (simp only [lnTrained] <;> omega)
    | (simp only [lnTrained, Reg.fld, List.mem_cons, List.not_mem_nil, or_false, or_true, true_or] <;> omega))

theorem Chip.twnLinkLost_within {P : List Nat} {T : List Part} {c₀ c : Chip}  (hw0 : Chip.Within P T c₀ c)
    (hp : [0, 1, 16, 112].all P.contains = true) (ht : ([.heads, .lbs, .sent, .twn] : List Part).all T.contains = true) : Chip.Within P T c₀ (c.twnLinkLost) := by
  refine Chip.Within.within hw0 hp ht ?_
  clear hw0 hp ht
  unfold Chip.twnLinkLost
  repeat' (first
    | with_reducible exact Chip.Within.refl
    | dsimp only
    | (with_reducible apply Chip.Within.set; (case hr => first | assumption | (simp only [TWN_STATUS, TWN_STATUS_LINK_LOST, Reg.fld, List.mem_cons, List.not_mem_nil, or_false, or_true, true_or] <;> omega)))
    | (with_reducible apply Chip.setTwn_within; (case hp => decide); (case ht => decide))
    | (with_reducible apply Chip.twnBreak_within; (case hp => decide); (case ht => decide))
    | (with_reducible apply Chip.twnShow_within; (case hp => decide); (case ht => decide))
    | (with_reducible apply Chip.Within.post; (case hm => decide))
    | assumption
    | omega
    | split
    | (simp only [TWN_STATUS, TWN_STATUS_LINK_LOST, Reg.fld, List.mem_cons, List.not_mem_nil, or_false, or_true, true_or] <;> omega))

theorem Chip.setRec_within {P : List Nat} {T : List Part} {c₀ c : Chip} {r : TwnRec} (hw0 : Chip.Within P T c₀ c)
    (hp : [].all P.contains = true) (ht : ([.twn] : List Part).all T.contains = true) : Chip.Within P T c₀ (c.setRec r) := by
  refine Chip.Within.within hw0 hp ht ?_
  clear hw0 hp ht
  unfold Chip.setRec
  repeat' (first
    | with_reducible exact Chip.Within.refl
    | dsimp only
    | (with_reducible apply Chip.setTwn_within; (case hp => decide); (case ht => decide))
    | assumption
    | omega
    | (simp only [Reg.fld, List.mem_cons, List.not_mem_nil, or_false, or_true, true_or] <;> omega))

theorem Chip.twnFaulty_within {P : List Nat} {T : List Part} {c₀ c : Chip}  (hw0 : Chip.Within P T c₀ c)
    (hp : [0, 112].all P.contains = true) (ht : ([] : List Part).all T.contains = true) : Chip.Within P T c₀ (c.twnFaulty) := by
  refine Chip.Within.within hw0 hp ht ?_
  clear hw0 hp ht
  unfold Chip.twnFaulty
  repeat' (first
    | with_reducible exact Chip.Within.refl
    | dsimp only
    | (with_reducible apply Chip.twnTo_within; (case hp => decide); (case ht => decide))
    | assumption
    | omega
    | split
    | (simp only [Reg.fld, List.mem_cons, List.not_mem_nil, or_false, or_true, true_or] <;> omega))

theorem Chip.askHandover_within {P : List Nat} {T : List Part} {c₀ c : Chip} {cause after : Nat} {faulty : Bool} (hw0 : Chip.Within P T c₀ c)
    (hp : [0, 112].all P.contains = true) (ht : ([.sent, .twn] : List Part).all T.contains = true) : Chip.Within P T c₀ (c.askHandover cause after faulty) := by
  refine Chip.Within.within hw0 hp ht ?_
  clear hw0 hp ht
  unfold Chip.askHandover
  repeat' (first
    | with_reducible exact Chip.Within.refl
    | dsimp only
    | (with_reducible apply Chip.setTwn_within; (case hp => decide); (case ht => decide))
    | (with_reducible apply Chip.tell_within; (case hp => decide); (case ht => decide))
    | (with_reducible apply Chip.twnShow_within; (case hp => decide); (case ht => decide))
    | assumption
    | omega
    | split
    | (simp only [Reg.fld, List.mem_cons, List.not_mem_nil, or_false, or_true, true_or] <;> omega))

theorem Chip.maskIn_within {P : List Nat} {T : List Part} {c₀ c : Chip} {q e : Nat} {m : List Nat} (hw0 : Chip.Within P T c₀ c)
    (hp : [].all P.contains = true) (ht : ([.twn] : List Part).all T.contains = true) : Chip.Within P T c₀ (c.maskIn q e m) := by
  refine Chip.Within.within hw0 hp ht ?_
  clear hw0 hp ht
  unfold Chip.maskIn
  repeat' (first
    | with_reducible exact Chip.Within.refl
    | dsimp only
    | (with_reducible apply Chip.setRec_within; (case hp => decide); (case ht => decide))
    | assumption
    | omega
    | split
    | (simp only [Reg.fld, List.mem_cons, List.not_mem_nil, or_false, or_true, true_or] <;> omega))

theorem Chip.noMatchResync_within {P : List Nat} {T : List Part} {c₀ c : Chip} {q : Nat} (hb_q : q < 2) (hw0 : Chip.Within P T c₀ c)
    (hp : [0, 1, 16, 112].all P.contains = true) (ht : ([.heads, .lbs, .sent, .twn] : List Part).all T.contains = true) : Chip.Within P T c₀ (c.noMatchResync q) := by
  refine Chip.Within.within hw0 hp ht ?_
  clear hw0 hp ht
  unfold Chip.noMatchResync
  repeat' (first
    | with_reducible exact Chip.Within.refl
    | dsimp only
    | (with_reducible apply Chip.twnBreak_within; (case hp => decide); (case ht => decide))
    | assumption
    | omega
    | split
    | (simp only [Reg.fld, List.mem_cons, List.not_mem_nil, or_false, or_true, true_or] <;> omega))

theorem Chip.selfFault_within {P : List Nat} {T : List Part} {c₀ c : Chip} {b : Nat} (hw0 : Chip.Within P T c₀ c)
    (hp : [0, 1, 112].all P.contains = true) (ht : ([.sent, .twn] : List Part).all T.contains = true) : Chip.Within P T c₀ (c.selfFault b) := by
  refine Chip.Within.within hw0 hp ht ?_
  clear hw0 hp ht
  unfold Chip.selfFault
  repeat' (first
    | with_reducible exact Chip.Within.refl
    | dsimp only
    | (with_reducible apply Chip.Within.set; (case hr => first | assumption | (simp only [TWN_DIAG, TWN_STATUS, TWN_STATUS_SELF_FAULT, Reg.fld, List.mem_cons, List.not_mem_nil, or_false, or_true, true_or] <;> omega)))
    | (with_reducible apply Chip.askHandover_within; (case hp => decide); (case ht => decide))
    | (with_reducible apply Chip.twnShow_within; (case hp => decide); (case ht => decide))
    | (with_reducible apply Chip.Within.post; (case hm => decide))
    | assumption
    | omega
    | split
    | (simp only [TWN_DIAG, TWN_STATUS, TWN_STATUS_SELF_FAULT, Reg.fld, List.mem_cons, List.not_mem_nil, or_false, or_true, true_or] <;> omega))

theorem Chip.handoverIn_within {P : List Nat} {T : List Part} {c₀ c : Chip} {h cause : Nat} (hw0 : Chip.Within P T c₀ c)
    (hp : [0, 112].all P.contains = true) (ht : ([.sent, .twn] : List Part).all T.contains = true) : Chip.Within P T c₀ (c.handoverIn h cause) := by
  refine Chip.Within.within hw0 hp ht ?_
  clear hw0 hp ht
  unfold Chip.handoverIn
  repeat' (first
    | with_reducible exact Chip.Within.refl
    | dsimp only
    | (with_reducible apply Chip.setTwn_within; (case hp => decide); (case ht => decide))
    | (with_reducible apply Chip.tell_within; (case hp => decide); (case ht => decide))
    | (with_reducible apply Chip.twnFaulty_within; (case hp => decide); (case ht => decide))
    | (with_reducible apply Chip.twnShow_within; (case hp => decide); (case ht => decide))
    | assumption
    | omega
    | split
    | (simp only [Reg.fld, List.mem_cons, List.not_mem_nil, or_false, or_true, true_or] <;> omega))

theorem Chip.peerLost_within {P : List Nat} {T : List Part} {c₀ c : Chip}  (hw0 : Chip.Within P T c₀ c)
    (hp : [0, 1, 112].all P.contains = true) (ht : ([.twn] : List Part).all T.contains = true) : Chip.Within P T c₀ (c.peerLost) := by
  refine Chip.Within.within hw0 hp ht ?_
  clear hw0 hp ht
  unfold Chip.peerLost
  repeat' (first
    | with_reducible exact Chip.Within.refl
    | dsimp only
    | (with_reducible apply Chip.Within.set; (case hr => first | assumption | (simp only [TWN_CFG, TWN_CFG_ENABLE, TWN_STATE, TWN_STATE_PEER_IN, TWN_STATE_TWN_NOT_READY, TWN_STATUS, TWN_STATUS_NOT_READY, TWN_STATUS_PEER_LOST, Reg.fld, List.mem_cons, List.not_mem_nil, or_false, or_true, true_or] <;> omega)))
    | (with_reducible apply Chip.Within.clr; (case hr => first | assumption | (simp only [TWN_CFG, TWN_CFG_ENABLE, TWN_STATE, TWN_STATE_PEER_IN, TWN_STATE_TWN_NOT_READY, TWN_STATUS, TWN_STATUS_NOT_READY, TWN_STATUS_PEER_LOST, Reg.fld, List.mem_cons, List.not_mem_nil, or_false, or_true, true_or] <;> omega)))
    | (with_reducible apply Chip.setTwn_within; (case hp => decide); (case ht => decide))
    | (with_reducible apply Chip.twnShow_within; (case hp => decide); (case ht => decide))
    | (with_reducible apply Chip.Within.post; (case hm => decide))
    | assumption
    | omega
    | split
    | (simp only [TWN_CFG, TWN_CFG_ENABLE, TWN_STATE, TWN_STATE_PEER_IN, TWN_STATE_TWN_NOT_READY, TWN_STATUS, TWN_STATUS_NOT_READY, TWN_STATUS_PEER_LOST, Reg.fld, List.mem_cons, List.not_mem_nil, or_false, or_true, true_or] <;> omega))

theorem Chip.resyncIn_within {P : List Nat} {T : List Part} {c₀ c : Chip}  (hw0 : Chip.Within P T c₀ c)
    (hp : [112].all P.contains = true) (ht : ([.twn] : List Part).all T.contains = true) : Chip.Within P T c₀ (c.resyncIn) := by
  refine Chip.Within.within hw0 hp ht ?_
  clear hw0 hp ht
  unfold Chip.resyncIn
  repeat' (first
    | with_reducible exact Chip.Within.refl
    | dsimp only
    | (with_reducible apply Chip.Within.add; (case hr => first | assumption | (simp only [TWN_COUNTS, TWN_COUNTS_RESYNCS, TWN_MATCH, Reg.fld, List.mem_cons, List.not_mem_nil, or_false, or_true, true_or] <;> omega)))
    | (with_reducible apply Chip.Within.put; (case hr => first | assumption | (simp only [TWN_COUNTS, TWN_COUNTS_RESYNCS, TWN_MATCH, Reg.fld, List.mem_cons, List.not_mem_nil, or_false, or_true, true_or] <;> omega)))
    | (with_reducible apply Chip.setTwn_within; (case hp => decide); (case ht => decide))
    | with_reducible apply Chip.Within.each
    | (intro y a ha; (try simp only [List.mem_range, List.mem_filter, List.mem_map, List.mem_flatMap, List.mem_cons, List.not_mem_nil, or_false, Bool.and_eq_true, decide_eq_true_eq, beq_iff_eq, Chip.planesOf] at ha); (first | (have hb := Nat.lt_of_lt_of_le ha (Nat.le_refl _)) | (have hb := Chip.mem_groupOf (by first | assumption | omega | (with_reducible apply Chip.leadOf_lt; first | assumption | omega)) ha) | (have hb := Chip.mem_destsOf ha) | (have hb := Chip.mem_routed ha) | (obtain ⟨i, hi, hd⟩ := ha; have hb := Chip.mem_destsOf hd) | (obtain ⟨hi, hj⟩ := ha; have hb : a ≤ 1 := by omega) | (obtain ⟨i, hi, rfl⟩ := ha) | (obtain ⟨hi, hj⟩ := ha; first | (have hb := Chip.mem_destsOf hi) | (have hb := Nat.lt_of_lt_of_le hi (Nat.le_refl _)) | skip) | skip))
    | assumption
    | omega
    | split
    | (simp only [TWN_COUNTS, TWN_COUNTS_RESYNCS, TWN_MATCH, Reg.fld, List.mem_cons, List.not_mem_nil, or_false, or_true, true_or] <;> omega))

theorem Chip.stateIn_within {P : List Nat} {T : List Part} {c₀ c : Chip} {seg : TwinSegment} (hw0 : Chip.Within P T c₀ c)
    (hp : [0, 80, 112].all P.contains = true) (ht : ([.aud, .fw, .heads, .twn] : List Part).all T.contains = true) : Chip.Within P T c₀ (c.stateIn seg) := by
  refine Chip.Within.within hw0 hp ht ?_
  clear hw0 hp ht
  unfold Chip.stateIn
  repeat' (first
    | with_reducible exact Chip.Within.refl
    | dsimp only
    | (with_reducible apply Chip.Within.wrI; (case hr => first | assumption | (simp only [AUD_BRIDGE_RATIO, AUD_BRIDGE_RATIO_RATIO, Reg.fld, List.mem_cons, List.not_mem_nil, or_false, or_true, true_or] <;> omega)))
    | (with_reducible apply Chip.setGl_within; (case hp => decide); (case ht => decide))
    | (with_reducible apply Chip.setTwn_within; (case hp => decide); (case ht => decide))
    | (with_reducible apply Chip.twnTo_within; (case hp => decide); (case ht => decide))
    | (fail_if_no_progress (with_reducible apply Chip.Within.to_aud; (case hk => decide)))
    | (fail_if_no_progress (with_reducible apply Chip.Within.to_fw; (case hk => decide)))
    | assumption
    | omega
    | split
    | (simp only [AUD_BRIDGE_RATIO, AUD_BRIDGE_RATIO_RATIO, Reg.fld, List.mem_cons, List.not_mem_nil, or_false, or_true, true_or] <;> omega))

theorem Chip.audioDone_within {P : List Nat} {T : List Part} {c₀ c : Chip}  (hw0 : Chip.Within P T c₀ c)
    (hp : [0, 1, 112].all P.contains = true) (ht : ([] : List Part).all T.contains = true) : Chip.Within P T c₀ (c.audioDone) := by
  refine Chip.Within.within hw0 hp ht ?_
  clear hw0 hp ht
  unfold Chip.audioDone
  repeat' (first
    | with_reducible exact Chip.Within.refl
    | dsimp only
    | (with_reducible apply Chip.twnJudge_within; (case hp => decide); (case ht => decide))
    | (with_reducible apply Chip.twnTo_within; (case hp => decide); (case ht => decide))
    | assumption
    | omega
    | split
    | (simp only [Reg.fld, List.mem_cons, List.not_mem_nil, or_false, or_true, true_or] <;> omega))


theorem Chip.pmcOver_within {P : List Nat} {T : List Part} {c₀ c : Chip} {core k : Nat} (hb_core : core < 4) (hw0 : Chip.Within P T c₀ c)
    (hp : [124].all P.contains = true) (ht : ([] : List Part).all T.contains = true) : Chip.Within P T c₀ (c.pmcOver core k) := by
  refine Chip.Within.within hw0 hp ht ?_
  clear hw0 hp ht
  unfold Chip.pmcOver
  repeat' (first
    | with_reducible exact Chip.Within.refl
    | dsimp only
    | (with_reducible apply Chip.Within.set; (case hr => first | assumption | (simp only [PMC_OVF, PMC_OVF_OVF, PMC_STATUS, PMC_STATUS_OVF, Reg.fld, List.mem_cons, List.not_mem_nil, or_false, or_true, true_or] <;> omega)))
    | (with_reducible apply Chip.Within.setBit; (case hr => first | assumption | (simp only [PMC_OVF, PMC_OVF_OVF, PMC_STATUS, PMC_STATUS_OVF, Reg.fld, List.mem_cons, List.not_mem_nil, or_false, or_true, true_or] <;> omega)))
    | assumption
    | omega
    | with_reducible apply Chip.leadOf_lt
    | (with_reducible apply Chip.rd_lt_of; simp only [PMC_OVF, PMC_OVF_OVF, PMC_STATUS, PMC_STATUS_OVF, Reg.fld, List.mem_cons, List.not_mem_nil, or_false, or_true, true_or] <;> decide)
    | split
    | (simp only [PMC_OVF, PMC_OVF_OVF, PMC_STATUS, PMC_STATUS_OVF, Reg.fld, List.mem_cons, List.not_mem_nil, or_false, or_true, true_or] <;> omega))

theorem Chip.pmcSync_within {P : List Nat} {T : List Part} {c₀ c : Chip} (hw0 : Chip.Within P T c₀ c)
    (hp : [124].all P.contains = true) (ht : ([.pmcAt] : List Part).all T.contains = true) : Chip.Within P T c₀ (c.pmcSync) := by
  refine Chip.Within.within hw0 hp ht ?_
  clear hw0 hp ht
  unfold Chip.pmcSync
  repeat' (first
    | with_reducible exact Chip.Within.refl
    | dsimp only
    | (with_reducible apply Chip.Within.put; (case hr => first | assumption | (simp only [PMC_CNT, PMC_CYC_HI, PMC_CYC_LO, PMC_EVSEL, Reg.fld, List.mem_cons, List.not_mem_nil, or_false, or_true, true_or] <;> omega)))
    | (with_reducible apply Chip.pmcOver_within; (case hp => decide); (case ht => decide))
    | (fail_if_no_progress (with_reducible apply Chip.Within.to_pmcAt; (case hk => decide)))
    | with_reducible apply Chip.Within.when'
    | with_reducible apply Chip.Within.each
    | assumption
    | (intro y a ha; (try simp only [List.mem_range, List.mem_filter, List.mem_map, List.mem_flatMap, List.mem_cons, List.not_mem_nil, or_false, Bool.and_eq_true, decide_eq_true_eq, beq_iff_eq, Chip.planesOf] at ha); (first | (have hb := Nat.lt_of_lt_of_le ha (Nat.le_refl _)) | (have hb := Chip.mem_groupOf (by first | assumption | omega | (with_reducible apply Chip.leadOf_lt; first | assumption | omega)) ha) | (have hb := Chip.mem_destsOf ha) | (have hb := Chip.mem_routed ha) | (obtain ⟨i, hi, hd⟩ := ha; have hb := Chip.mem_destsOf hd) | (obtain ⟨hi, hj⟩ := ha; have hb : a ≤ 1 := by omega) | (obtain ⟨i, hi, rfl⟩ := ha) | (obtain ⟨hi, hj⟩ := ha; first | (have hb := Chip.mem_destsOf hi) | (have hb := Chip.mem_routed hi) | (have hb := Nat.lt_of_lt_of_le hi (Nat.le_refl _)) | skip) | skip))
    | intro y
    | omega
    | with_reducible apply Chip.leadOf_lt
    | (with_reducible apply Chip.rd_lt_of; simp only [PMC_CNT, PMC_CYC_HI, PMC_CYC_LO, PMC_EVSEL, Reg.fld, List.mem_cons, List.not_mem_nil, or_false, or_true, true_or] <;> decide)
    | split
    | (simp only [PMC_CNT, PMC_CYC_HI, PMC_CYC_LO, PMC_EVSEL, Reg.fld, List.mem_cons, List.not_mem_nil, or_false, or_true, true_or] <;> omega))

theorem Chip.pmcWrap_within {P : List Nat} {T : List Part} {c₀ c : Chip} {core k : Nat} (hb_core : core < 4) (hb_k : k < 9) (hw0 : Chip.Within P T c₀ c)
    (hp : [124].all P.contains = true) (ht : ([.pmcAt] : List Part).all T.contains = true) : Chip.Within P T c₀ (c.pmcWrap core k) := by
  refine Chip.Within.within hw0 hp ht ?_
  clear hw0 hp ht
  unfold Chip.pmcWrap
  repeat' (first
    | with_reducible exact Chip.Within.refl
    | dsimp only
    | (with_reducible apply Chip.Within.put; (case hr => first | assumption | (simp only [PMC_CNT, PMC_EVSEL, Reg.fld, List.mem_cons, List.not_mem_nil, or_false, or_true, true_or] <;> omega)))
    | (with_reducible apply Chip.pmcOver_within; (case hp => decide); (case ht => decide))
    | (with_reducible apply Chip.pmcSync_within; (case hp => decide); (case ht => decide))
    | with_reducible apply Chip.Within.when'
    | assumption
    | intro y
    | omega
    | with_reducible apply Chip.leadOf_lt
    | (with_reducible apply Chip.rd_lt_of; simp only [PMC_CNT, PMC_EVSEL, Reg.fld, List.mem_cons, List.not_mem_nil, or_false, or_true, true_or] <;> decide)
    | split
    | (simp only [PMC_CNT, PMC_EVSEL, Reg.fld, List.mem_cons, List.not_mem_nil, or_false, or_true, true_or] <;> omega))

theorem Chip.pmcSample_within {P : List Nat} {T : List Part} {c₀ c : Chip} {core addr data lat kind : Nat} {user err : Bool} (hb_core : core < 4) (hw0 : Chip.Within P T c₀ c)
    (hp : [124].all P.contains = true) (ht : ([.pmcAt] : List Part).all T.contains = true) : Chip.Within P T c₀ (c.pmcSample core addr data lat kind user err) := by
  refine Chip.Within.within hw0 hp ht ?_
  clear hw0 hp ht
  unfold Chip.pmcSample
  have hl := c.rd_lt (PMC_SMP_STAT_FILL core)
  simp only [PMC_SMP_STAT_FILL, Reg.fld] at hl
  generalize hfill : c.rd (PMC_SMP_STAT_FILL core) = n
  have hn : n < 512 := hfill ▸ c.rd_lt (PMC_SMP_STAT_FILL core)
  clear hl hfill
  dsimp only
  repeat' (first
    | with_reducible exact Chip.Within.refl
    | dsimp only
    | (with_reducible apply Chip.Within.set; (case hr => first | assumption | (simp only [PMC_CYC_LO, PMC_SMP_BUF, PMC_SMP_CTL, PMC_SMP_CTL_ENABLE, PMC_SMP_CTL_KIND, PMC_SMP_LOST, PMC_SMP_LOST_COUNT, PMC_SMP_STAT, PMC_SMP_STAT_FILL, PMC_STATUS, PMC_STATUS_SMP_FULL, Reg.fld, List.mem_cons, List.not_mem_nil, or_false, or_true, true_or] <;> omega)))
    | (with_reducible apply Chip.Within.wr; (case hr => first | assumption | (simp only [PMC_CYC_LO, PMC_SMP_BUF, PMC_SMP_CTL, PMC_SMP_CTL_ENABLE, PMC_SMP_CTL_KIND, PMC_SMP_LOST, PMC_SMP_LOST_COUNT, PMC_SMP_STAT, PMC_SMP_STAT_FILL, PMC_STATUS, PMC_STATUS_SMP_FULL, Reg.fld, List.mem_cons, List.not_mem_nil, or_false, or_true, true_or] <;> omega)))
    | (with_reducible apply Chip.Within.inc; (case hr => first | assumption | (simp only [PMC_CYC_LO, PMC_SMP_BUF, PMC_SMP_CTL, PMC_SMP_CTL_ENABLE, PMC_SMP_CTL_KIND, PMC_SMP_LOST, PMC_SMP_LOST_COUNT, PMC_SMP_STAT, PMC_SMP_STAT_FILL, PMC_STATUS, PMC_STATUS_SMP_FULL, Reg.fld, List.mem_cons, List.not_mem_nil, or_false, or_true, true_or] <;> omega)))
    | (with_reducible apply Chip.Within.put; (case hr => first | assumption | (simp only [PMC_CYC_LO, PMC_SMP_BUF, PMC_SMP_CTL, PMC_SMP_CTL_ENABLE, PMC_SMP_CTL_KIND, PMC_SMP_LOST, PMC_SMP_LOST_COUNT, PMC_SMP_STAT, PMC_SMP_STAT_FILL, PMC_STATUS, PMC_STATUS_SMP_FULL, Reg.fld, List.mem_cons, List.not_mem_nil, or_false, or_true, true_or] <;> omega)))
    | (with_reducible apply Chip.pmcSync_within; (case hp => decide); (case ht => decide))
    | with_reducible apply Chip.Within.when'
    | assumption
    | intro y
    | omega
    | (with_reducible apply Chip.rd_lt_of; simp only [PMC_CYC_LO, PMC_SMP_BUF, PMC_SMP_CTL, PMC_SMP_CTL_ENABLE, PMC_SMP_CTL_KIND, PMC_SMP_LOST, PMC_SMP_LOST_COUNT, PMC_SMP_STAT, PMC_SMP_STAT_FILL, PMC_STATUS, PMC_STATUS_SMP_FULL, Reg.fld, List.mem_cons, List.not_mem_nil, or_false, or_true, true_or] <;> decide)
    | split
    | (simp only [PMC_CYC_LO, PMC_SMP_BUF, PMC_SMP_CTL, PMC_SMP_CTL_ENABLE, PMC_SMP_CTL_KIND, PMC_SMP_LOST, PMC_SMP_LOST_COUNT, PMC_SMP_STAT, PMC_SMP_STAT_FILL, PMC_STATUS, PMC_STATUS_SMP_FULL, Reg.fld, List.mem_cons, List.not_mem_nil, or_false, or_true, true_or] <;> omega))

theorem Chip.nmeTag_within {P : List Nat} {T : List Part} {c₀ c : Chip} {engine pc lat wait : Nat} {flow : Option Nat} (hb_engine : engine < 16) (hw0 : Chip.Within P T c₀ c)
    (hp : [124].all P.contains = true) (ht : ([] : List Part).all T.contains = true) : Chip.Within P T c₀ (c.nmeTag engine pc lat wait flow) := by
  refine Chip.Within.within hw0 hp ht ?_
  clear hw0 hp ht
  unfold Chip.nmeTag
  generalize hfill : c.rd PMC_NME_STAT_FILL = n
  have hn : n < 128 := hfill ▸ c.rd_lt PMC_NME_STAT_FILL
  clear hfill
  dsimp only
  repeat' (first
    | with_reducible exact Chip.Within.refl
    | dsimp only
    | (with_reducible apply Chip.Within.set; (case hr => first | assumption | (simp only [PMC_NME_CTL, PMC_NME_CTL_ENABLE, PMC_NME_LOST, PMC_NME_LOST_COUNT, PMC_NME_STAT, PMC_NME_STAT_FILL, PMC_NME_TAG, PMC_STATUS, PMC_STATUS_NME_FULL, Reg.fld, List.mem_cons, List.not_mem_nil, or_false, or_true, true_or] <;> omega)))
    | (with_reducible apply Chip.Within.wr; (case hr => first | assumption | (simp only [PMC_NME_CTL, PMC_NME_CTL_ENABLE, PMC_NME_LOST, PMC_NME_LOST_COUNT, PMC_NME_STAT, PMC_NME_STAT_FILL, PMC_NME_TAG, PMC_STATUS, PMC_STATUS_NME_FULL, Reg.fld, List.mem_cons, List.not_mem_nil, or_false, or_true, true_or] <;> omega)))
    | (with_reducible apply Chip.Within.inc; (case hr => first | assumption | (simp only [PMC_NME_CTL, PMC_NME_CTL_ENABLE, PMC_NME_LOST, PMC_NME_LOST_COUNT, PMC_NME_STAT, PMC_NME_STAT_FILL, PMC_NME_TAG, PMC_STATUS, PMC_STATUS_NME_FULL, Reg.fld, List.mem_cons, List.not_mem_nil, or_false, or_true, true_or] <;> omega)))
    | (with_reducible apply Chip.Within.put; (case hr => first | assumption | (simp only [PMC_NME_CTL, PMC_NME_CTL_ENABLE, PMC_NME_LOST, PMC_NME_LOST_COUNT, PMC_NME_STAT, PMC_NME_STAT_FILL, PMC_NME_TAG, PMC_STATUS, PMC_STATUS_NME_FULL, Reg.fld, List.mem_cons, List.not_mem_nil, or_false, or_true, true_or] <;> omega)))
    | with_reducible apply Chip.Within.when'
    | assumption
    | intro y
    | omega
    | (with_reducible apply Chip.rd_lt_of; simp only [PMC_NME_CTL, PMC_NME_CTL_ENABLE, PMC_NME_LOST, PMC_NME_LOST_COUNT, PMC_NME_STAT, PMC_NME_STAT_FILL, PMC_NME_TAG, PMC_STATUS, PMC_STATUS_NME_FULL, Reg.fld, List.mem_cons, List.not_mem_nil, or_false, or_true, true_or] <;> decide)
    | split
    | (simp only [PMC_NME_CTL, PMC_NME_CTL_ENABLE, PMC_NME_LOST, PMC_NME_LOST_COUNT, PMC_NME_STAT, PMC_NME_STAT_FILL, PMC_NME_TAG, PMC_STATUS, PMC_STATUS_NME_FULL, Reg.fld, List.mem_cons, List.not_mem_nil, or_false, or_true, true_or] <;> omega))


theorem Chip.release_within {P : List Nat} {T : List Part} {c₀ c : Chip}  (hw0 : Chip.Within P T c₀ c)
    (hp : [].all P.contains = true) (ht : ([.pwr] : List Part).all T.contains = true) : Chip.Within P T c₀ (c.release) := by
  refine Chip.Within.within hw0 hp ht ?_
  clear hw0 hp ht
  unfold Chip.release
  repeat' (first
    | with_reducible exact Chip.Within.refl
    | dsimp only
    | (fail_if_no_progress (with_reducible apply Chip.Within.to_pwr; (case hk => decide)))
    | assumption
    | omega
    | split
    | (simp only [Reg.fld, List.mem_cons, List.not_mem_nil, or_false, or_true, true_or] <;> omega))

theorem Chip.strapSample_within {P : List Nat} {T : List Part} {c₀ c : Chip} {v : Nat} (hw0 : Chip.Within P T c₀ c)
    (hp : [0].all P.contains = true) (ht : ([.pwr] : List Part).all T.contains = true) : Chip.Within P T c₀ (c.strapSample v) := by
  refine Chip.Within.within hw0 hp ht ?_
  clear hw0 hp ht
  unfold Chip.strapSample
  repeat' (first
    | with_reducible exact Chip.Within.refl
    | dsimp only
    | (with_reducible apply Chip.Within.put; (case hr => first | assumption | (simp only [TOP_STRAP, Reg.fld, List.mem_cons, List.not_mem_nil, or_false, or_true, true_or] <;> omega)))
    | (fail_if_no_progress (with_reducible apply Chip.Within.to_pwr; (case hk => decide)))
    | assumption
    | omega
    | split
    | (simp only [TOP_STRAP, Reg.fld, List.mem_cons, List.not_mem_nil, or_false, or_true, true_or] <;> omega))


theorem Chip.setUpd_within {P : List Nat} {T : List Part} {c₀ c : Chip} {x : Upd} (hw0 : Chip.Within P T c₀ c)
    (hp : [].all P.contains = true) (ht : ([.upd] : List Part).all T.contains = true) : Chip.Within P T c₀ (c.setUpd x) := by
  refine Chip.Within.within hw0 hp ht ?_
  clear hw0 hp ht
  unfold Chip.setUpd
  repeat' (first
    | with_reducible exact Chip.Within.refl
    | dsimp only
    | (fail_if_no_progress (with_reducible apply Chip.Within.to_upd; (case hk => decide)))
    | assumption
    | omega
    | (simp only [Reg.fld, List.mem_cons, List.not_mem_nil, or_false, or_true, true_or] <;> omega))

theorem Chip.codeSwitch_within {P : List Nat} {T : List Part} {c₀ c : Chip} {type : Nat} (hw0 : Chip.Within P T c₀ c)
    (hp : [].all P.contains = true) (ht : ([.upd] : List Part).all T.contains = true) : Chip.Within P T c₀ (c.codeSwitch type) := by
  refine Chip.Within.within hw0 hp ht ?_
  clear hw0 hp ht
  unfold Chip.codeSwitch
  repeat' (first
    | with_reducible exact Chip.Within.refl
    | dsimp only
    | (with_reducible apply Chip.setUpd_within; (case hp => decide); (case ht => decide))
    | assumption
    | omega
    | (simp only [Reg.fld, List.mem_cons, List.not_mem_nil, or_false, or_true, true_or] <;> omega))


theorem Chip.laneMoved_within {P : List Nat} {T : List Part} {c₀ c : Chip} {n : Nat} (hb_n : n < 50) (hw0 : Chip.Within P T c₀ c)
    (hp : [0, 1, 48, 112].all P.contains = true) (ht : ([.links] : List Part).all T.contains = true) : Chip.Within P T c₀ (c.laneMoved n) := by
  refine Chip.Within.within hw0 hp ht ?_
  clear hw0 hp ht
  unfold Chip.laneMoved
  repeat' (first
    | with_reducible exact Chip.Within.refl
    | dsimp only
    | (with_reducible apply Chip.laneTouched_within; (case hp => decide); (case ht => decide))
    | (with_reducible apply Chip.twnShow_within; (case hp => decide); (case ht => decide))
    | assumption
    | omega
    | split
    | (simp only [Reg.fld, List.mem_cons, List.not_mem_nil, or_false, or_true, true_or] <;> omega))

end Sys2Proof.Machine
end

