-- ==== Sys2Proof/Laws/WithinEngine.lean ====
section
/-! SUPPORT. What the audio engine's way to an instant may change: the parts only, since it runs through tables of any index; and the memory a
command leaves, from the state it finds. -/

set_option linter.all false
set_option maxRecDepth 4000

namespace Sys2Proof.Machine

/-- Only the listed parts, and registers, change. -/
def Chip.Only (T : List Part) (c d : Chip) : Prop := ∀ k, k ∉ T → Part.same k c d

section
variable {T : List Part} {c x y : Chip}

theorem Chip.Only.refl : Chip.Only T c c := fun k _ => k.same_refl c
theorem Chip.Only.trans (h : Chip.Only T c x) (h2 : Chip.Only T x y) : Chip.Only T c y := fun k hk => Part.same_trans k (h k hk) (h2 k hk)
theorem Chip.Within.only {P : List Nat} (h : Chip.Within P T c x) : Chip.Only T c x := h.part
theorem Chip.Only.wr {f : Fld} {v : Nat} (h : Chip.Only T c x) : Chip.Only T c (x.wr f v) := h.trans fun k _ => k.same_wr x f v
theorem Chip.Only.set {f : Fld} (h : Chip.Only T c x) : Chip.Only T c (x.set f) := h.wr
theorem Chip.Only.wrB {f : Fld} {b : Bool} (h : Chip.Only T c x) : Chip.Only T c (x.wrB f b) := h.wr
theorem Chip.Only.post {b k i a : Nat} (h : Chip.Only T c x) : Chip.Only T c (x.post b k i a) := h.trans fun j _ => j.same_post x b k i a
theorem Chip.Only.when' {b : Bool} {g : Chip → Chip} (h : Chip.Only T c x) (hg : ∀ y, Chip.Only T y (g y)) : Chip.Only T c (x.when b g) := by
  cases b
  · exact h
  · exact h.trans (hg x)
theorem Chip.Only.each {α : Type} {l : List α} {g : Chip → α → Chip} (h : Chip.Only T c x) (hg : ∀ y a, a ∈ l → Chip.Only T y (g y a)) :
    Chip.Only T c (x.each l g) :=
  Chip.each_invariant (Chip.Only T c) l g (fun d a ha hd => hd.trans (hg d a ha)) x h
theorem Chip.Only.aud {v : Aud} (hk : Part.aud ∈ T) (h : Chip.Only T c x) : Chip.Only T c { x with aud := v } :=
  h.trans fun k hn => by cases k <;> first | exact absurd hk hn | rfl | exact ⟨[], (List.append_nil _).symm, rfl⟩
end

theorem Chip.setLim_only {o : Nat} {x : Lim} {c : Chip} : Chip.Only [.aud] c (c.setLim o x) := Chip.Only.refl.aud (by decide)

theorem Chip.clip_only {c : Chip} {o : Nat} : Chip.Only [.aud] c (c.clip o) := by
  unfold Chip.clip
  exact ((Chip.Only.refl.set.set).trans Chip.setLim_only).when' fun y => Chip.Only.refl.post

theorem Chip.mixStep_only {c : Chip} {o k : Nat} {xs : List (Nat × Int × Int)} : Chip.Only [.aud] c (c.mixStep o k xs) := by
  unfold Chip.mixStep
  refine Chip.Only.when' (Chip.Only.when' (Chip.Only.when' Chip.setLim_only fun y => Chip.Only.refl.wrB) fun y => Chip.Only.refl.set) fun y => ?_
  exact Chip.clip_only

theorem Chip.mixIn_only {c : Chip} {b : AudioBlock} {k i : Nat} : Chip.Only [.aud] c (c.mixIn b k i).1 := by
  unfold Chip.mixIn
  exact Chip.Only.aud (by decide) ((Chip.Only.refl.when' fun y => Chip.Only.refl.wrB).when' fun y => Chip.Only.refl.set.post)

theorem Chip.mixIns_only {b : AudioBlock} {k : Nat} (l : List Nat) (a : Chip × List (Nat × Int × Int)) :
    Chip.Only [.aud] a.1 (l.foldl (fun (a : Chip × List (Nat × Int × Int)) i => let r := a.1.mixIn b k i; (r.1, r.2 :: a.2)) a).1 := by
  induction l generalizing a with
  | nil => exact Chip.Only.refl
  | cons i l ih => exact Chip.Only.trans (x := (a.1.mixIn b k i).1) Chip.mixIn_only (ih ((a.1.mixIn b k i).1, (a.1.mixIn b k i).2 :: a.2))

theorem Chip.mixSample_only {c : Chip} {b : AudioBlock} {k : Nat} : Chip.Only [.aud] c (c.mixSample b k) := by
  unfold Chip.mixSample
  exact Chip.Only.aud (by decide) (Chip.Only.each (Chip.mixIns_only _ (c, [])) fun y a _ => Chip.mixStep_only)

theorem Chip.meter_only {c : Chip} {o : Nat} : Chip.Only [.aud] c (c.meter o) := by
  unfold Chip.meter
  exact (Chip.setLim_only.wr).wr

theorem Chip.remember_only {c : Chip} {b : AudioBlock} {k : Nat} : Chip.Only [.aud] c (c.remember b k) := by
  unfold Chip.remember
  exact Chip.Only.refl.aud (by decide)

theorem Chip.Only.mono {T T' : List Part} {c d : Chip} (h : Chip.Only T' c d) (ht : ∀ k ∈ T', k ∈ T) : Chip.Only T c d :=
  fun k hk => h k fun hm => hk (ht k hm)

theorem Chip.engineSample_only {c : Chip} {b : AudioBlock} {k : Nat} : Chip.Only [.aud, .sap] c (c.engineSample b k) := by
  unfold Chip.engineSample
  have ha : ∀ q ∈ [Part.aud], q ∈ [Part.aud, Part.sap] := by decide
  have hs : ∀ q ∈ [Part.sap], q ∈ [Part.aud, Part.sap] := by decide
  have hb : ∀ {p : Nat}, p ∈ (List.range 16).filter c.sapRuns → p < 16 := fun h => List.mem_range.1 (List.mem_of_mem_filter h)
  refine Chip.Only.each (Chip.Only.trans (Chip.Only.trans (Chip.Only.each Chip.Only.refl fun y p hp => ?_)
    (Chip.Only.mono Chip.mixSample_only ha)) (Chip.Only.mono Chip.remember_only ha)) fun y v hv => ?_
  · exact (Chip.sapDeliver_within (P := [1, 88]) (hb hp) Chip.Within.refl (by decide) (by decide)).only
  · obtain ⟨p, hp, rfl⟩ := List.mem_map.1 hv
    exact (Chip.sapShow_within (P := [1, 88]) (hb hp) (Chip.sapWrite_within (P := [1, 88]) (hb hp) Chip.Within.refl (by decide) (by decide))
      (by decide) (by decide)).only

theorem Chip.engineTo_only {c : Chip} {n : Nat} : Chip.Only [.aud, .sap] c (c.engineTo n) := by
  unfold Chip.engineTo
  split
  · exact Chip.Only.refl
  · dsimp only
    have h : ∀ b : AudioBlock, Chip.Only [.aud, .sap] c (c.each ((List.range (min 48 n)).drop c.aud.done) fun c k => c.engineSample b k) :=
      fun b => Chip.Only.each Chip.Only.refl fun y k _ => Chip.engineSample_only
    split
    · exact Chip.Only.refl
    · split
      · exact Chip.Only.aud (by decide) (h _)
      · exact Chip.Only.each (Chip.Only.aud (by decide) (h _)) fun y o _ => Chip.Only.mono Chip.meter_only (by decide)

theorem Chip.engineRun_only {c : Chip} : Chip.Only [.aud, .sap] c c.engineRun := by
  unfold Chip.engineRun
  split
  · exact Chip.engineTo_only
  · exact Chip.Only.refl

theorem Chip.Only.inc {T : List Part} {c x : Chip} {f : Fld} (h : Chip.Only T c x) : Chip.Only T c (x.inc f) := h.wr
theorem Chip.Only.lbs {T : List Part} {c x : Chip} {v : Lbs} (hk : Part.lbs ∈ T) (h : Chip.Only T c x) : Chip.Only T c { x with lbs := v } :=
  h.trans fun k hn => by cases k <;> first | exact absurd hk hn | rfl | exact ⟨[], (List.append_nil _).symm, rfl⟩
theorem Chip.Only.sdi {T : List Part} {c x : Chip} {v : List (Nat × SdiLane)} (hk : Part.sdi ∈ T) (h : Chip.Only T c x) :
    Chip.Only T c { x with sdi := v } :=
  h.trans fun k hn => by cases k <;> first | exact absurd hk hn | rfl | exact ⟨[], (List.append_nil _).symm, rfl⟩

theorem Chip.setCarafe_only {c : Chip} {r : Nat} {x : Carafe} : Chip.Only [.lbs] c (c.setCarafe r x) := Chip.Only.refl.lbs (by decide)
theorem Chip.setSdiLane_only {c : Chip} {n : Nat} {x : SdiLane} : Chip.Only [.sdi] c (c.setSdiLane n x) := Chip.Only.refl.sdi (by decide)

theorem Chip.wrHist_only {c : Chip} {r h : Nat} : Chip.Only [.lbs] c (c.wrHist r h) := by
  unfold Chip.wrHist
  exact Chip.Only.each (Chip.Only.refl.wr.wrB) fun y p _ => Chip.Only.refl.wrB

theorem Chip.writeSlot_only {c : Chip} {r f : Nat} {b : Bool} : Chip.Only [.lbs] c (c.writeSlot r f b) := by
  unfold Chip.writeSlot
  exact (Chip.setCarafe_only.trans Chip.wrHist_only).when' fun y => Chip.Only.refl.inc.set

/-- The store engine on its way to an instant (R228). -/
theorem Chip.storeRun_only {c : Chip} : Chip.Only [.lbs] c c.storeRun := by
  unfold Chip.storeRun
  refine Chip.Only.each Chip.Only.refl fun y r _ => ?_
  unfold Chip.recMid
  dsimp only
  split
  · exact Chip.Only.refl
  · split
    · exact Chip.setCarafe_only.trans Chip.writeSlot_only
    · exact Chip.Only.refl

theorem Chip.txPlan_only {c : Chip} {n : Nat} : Chip.Only [.sdi] c (c.txPlan n) := by
  unfold Chip.txPlan
  dsimp only
  split
  · exact Chip.setSdiLane_only
  · exact Chip.Only.refl

theorem Chip.txRefresh_only {c : Chip} {n : Nat} : Chip.Only [.sdi] c (c.txRefresh n) := by
  unfold Chip.txRefresh
  dsimp only
  exact Chip.Only.trans (Chip.Only.refl.wr).wr Chip.txPlan_only

/-- Transmitters that reach a line or frame start on the way to an instant (R294, R300). -/
theorem Chip.txDue_only {c : Chip} : Chip.Only [.sdi] c c.txDue := by
  unfold Chip.txDue
  refine Chip.Only.each (Chip.Only.each Chip.Only.refl fun y n _ => ?_) fun y n _ => ?_
  · exact (Chip.setSdiLane_only.wr).wr
  · exact Chip.setSdiLane_only.trans Chip.txRefresh_only

/-- Reaching an instant changes time, what the command before left to send, and the engines that run by the clock: audio with
its ports, the store, and the SDI transmitters. -/
theorem State.chipAt_only (s : State) (t : Nat) : Chip.Only [.now, .clock, .host, .sent, .bus, .aud, .sap, .lbs, .sdi] s.chip (s.chipAt t) := by
  unfold State.chipAt
  dsimp only
  have h0 : Chip.Only [.now, .clock, .host, .sent, .bus, .aud, .sap, .lbs, .sdi] s.chip
      ({ s.chip.advance t with host := { (s.chip.advance t).host with sent := [] }, sent := [], bus := { (s.chip.advance t).bus with resps := [], bursts := [] } }) := by
    intro k hk
    cases k <;> first | (exact absurd (by decide) hk) | rfl | exact ⟨[], (List.append_nil _).symm, rfl⟩
  split
  · exact h0.trans ((Chip.Only.mono Chip.engineRun_only (by decide)).trans
      ((Chip.Only.mono Chip.storeRun_only (by decide)).trans (Chip.Only.mono Chip.txDue_only (by decide))))
  · exact h0.trans (by
      intro k hk
      cases k <;> first | (exact absurd (by decide) hk) | rfl | exact ⟨[], (List.append_nil _).symm, rfl⟩)

/-- The memory a command leaves, from the state it finds: only the event ring may differ. -/
theorem State.commit_ring {P : List Nat} {T : List Part} {s : State} {t : Nat} {d : Chip} (h : Chip.Within P T (s.chipAt t) d) (hi : s.Inv)
    (hm : Part.mem ∉ T) : ∀ a, a < ringBase ∨ ringBase + 4096 ≤ a → (s.commit d).mem.read a = s.mem.read a := by
  have h1 : Part.mem.same s.chip d := Part.same_trans .mem (s.chipAt_only t .mem (by decide)) (h.part .mem hm)
  obtain ⟨ops, ho, hr⟩ := h1
  have hw : Chip.Within (List.range 1) [] ({ s.chip with regs := [] } : Chip) { s.chip with regs := [], out := s.chip.out ++ ops } :=
    ⟨fun _ _ => rfl, fun k _ => by cases k <;> first | rfl | exact ⟨ops, rfl, hr⟩⟩
  intro a ha
  have h2 := State.commit_within (s := s) hw hi.2.1 hi.1 (by decide) a ha
  rw [State.commit_mem] at h2 ⊢
  rw [ho]
  exact h2

/-- The frame of a command from what its function may change; interrupt messages may be among it. -/
theorem State.commit_frame {P : List Nat} {T : List Part} {s : State} {t : Nat} {d : Chip} (h : Chip.Within P (.host :: T) (s.chipAt t) d)
    (hi : s.Inv) (hm : Part.mem ∉ Part.host :: T) : State.Frame P T t s (s.commit d) where
  chip := ⟨h.cell, fun k hk => by
    have hk2 : k ∉ Part.host :: T := fun hk3 => hk (List.mem_cons_of_mem _ hk3)
    have := h.part k hk2
    cases k <;> first | exact this | exact absurd (by simp) hk⟩
  ring := State.commit_ring h hi hm
  queue := rfl

theorem Chip.tellSelect_within {P : List Nat} {T : List Part} {c₀ c d : Chip} (hw0 : Chip.Within P T c₀ c)
    (ht : ([.sent, .twn] : List Part).all T.contains = true) : Chip.Within P T c₀ (c.tellSelect d) := by
  unfold Chip.tellSelect
  exact hw0.each fun y a _ => Chip.Within.refl.when' fun z => Chip.tell_within Chip.Within.refl (by simp) ht

theorem Chip.unmaskedVector_within {P : List Nat} {T : List Part} {c₀ c : Chip} {v : Nat} (hw0 : Chip.Within P T c₀ c)
    (ht : ([.host] : List Part).all T.contains = true) : Chip.Within P T c₀ (c.unmaskedVector v) := by
  unfold Chip.unmaskedVector
  dsimp only
  split
  · exact hw0
  · exact hw0.to_host ht

theorem Chip.msixUnmask_within {P : List Nat} {T : List Part} {c₀ c : Chip} {v : Option Nat} (hw0 : Chip.Within P T c₀ c)
    (ht : ([.host] : List Part).all T.contains = true) : Chip.Within P T c₀ (c.msixUnmask v) := by
  unfold Chip.msixUnmask
  split
  · exact Chip.unmaskedVector_within (hw0.to_host ht) ht
  · exact Chip.Within.each (hw0.to_host ht) fun y a _ => Chip.unmaskedVector_within Chip.Within.refl ht

end Sys2Proof.Machine
end

