-- ==== Sys2Proof/Machine/Compose.lean ====
section
/-! DEFINITION. The picture of a multiviewer head (chapter 18), as a function of the state: which layers a pixel is fetched from, the division of a
quad-link picture, and the pixel composed of background, video layers and graphic layers. -/

namespace Sys2Proof.Machine

/-! ### Quad-link pictures (R523) -/

/-- The lane of a bonded group that carries pixel (x, y) of the 3840 by 2160 picture, by its place in link order, and where on that lane's picture:
square division by quadrants, or two-sample interleave. -/
def quadPixel (interleave : Bool) (x y : Nat) : Nat × Nat × Nat :=
  if interleave then (x / 2 % 2 + 2 * (y % 2), x / 4 * 2 + x % 2, y / 2)
  else (x / 1920 + 2 * (y / 1080), x % 1920, y % 1080)

/-- The division of a group's picture: square where a lane has no ST 352. -/
def Chip.interleaved (c : Chip) (lead : Nat) : Bool :=
  ((c.groupOf lead).all fun i => (c.src i).link != 0) && Config.twoSample (c.get (SDI_RX_PID lead))

/-! ### Video layers (R528, R530, R538) -/

/-- The rectangle of a position and a size word holds a pixel. -/
def inRect (xy wh x y : Nat) : Bool := xyX xy ≤ x && x < xyX xy + xyX wh && xyY xy ≤ y && y < xyY xy + xyY wh

/-- The enabled video layers of a head whose rectangle holds a pixel. -/
def Chip.layersAt (c : Chip) (h x y : Nat) : List Nat :=
  (List.range 16).filter fun v => c.on (MVC_VL_CTL_ENABLE h v) && inRect (c.get (MVC_VL_POS h v)) (c.get (MVC_VL_SIZE h v)) x y

/-- The video layer that a pixel is fetched from: the one of the highest Z; the others are not fetched there, nor is background generated. -/
def Chip.topLayer (c : Chip) (h x y : Nat) : Option Nat :=
  (c.layersAt h x y).foldl (fun b v => match b with
    | some w => if c.rd (MVC_VL_CTL_Z h w) < c.rd (MVC_VL_CTL_Z h v) then some v else some w
    | none => some v) none

/-- A colour register as its three words. -/
def colourWord (w k : Nat) : Int := bits w (10 * k) 10

/-- A component of the video beneath the graphics: a layer's tap frame scaled and clipped, the slate colour in its place, or the background. -/
def Chip.videoWord (c : Chip) (h x y k : Nat) : Int :=
  match c.topLayer h x y with
  | none => colourWord (c.get (MVC_HEAD_BG h)) k
  | some v =>
    let ws := c.vlWords h v
    match ((c.head h).vl v).shown with
    | some n =>
      if c.rd (MVC_VL_STAT_SHOW h v) = 2 then colourWord (c.get (MVC_HEAD_SLATE h)) k
      else min 1019 (max 4 (Config.tileWord (vlSrc ws) n (xyX (ws.getD 2 0)) (xyY (ws.getD 2 0)) (x - xyX (ws.getD 1 0)) (y - xyY (ws.getD 1 0)) k))
    | none => colourWord (c.get (MVC_HEAD_SLATE h)) k

/-! ### Graphic layers (R528, R529, R532) -/

/-- The ARGB word a graphic layer has at a pixel of the head: of its front buffer, transparent outside its rectangle or while it is disabled. -/
def Chip.argbAt (c : Chip) (h l x y : Nat) : Nat :=
  let xy := c.get (MVC_GL_POS h l)
  let wh := c.get (MVC_GL_SIZE h l)
  if c.on (MVC_GL_CTL_ENABLE h l) && inRect xy wh x y then
    let g := (c.head h).gl l
    let buf := if c.on (MVC_GL_CTL_FRONT h l) then g.buf1 else g.buf0
    tget 0 buf ((y - xyY xy) * xyX wh + (x - xyX xy))
  else 0

/-- A graphic layer blended over a component: luma of the pixel; chroma of its co-sited pair by the means of the two converted values and of the two
alphas, rounded down. -/
def Chip.blendLayer (c : Chip) (h x y k l : Nat) (v : Int) : Int :=
  let m := c.rd (MVC_HEAD_CTL_MATRIX h)
  let p := c.argbAt h l x y
  if k = 0 then blend (bits p 24 8) (toYCbCr m p).1 v
  else
    let a := c.argbAt h l (x / 2 * 2) y
    let b := c.argbAt h l (x / 2 * 2 + 1) y
    let g := fun q => if k = 1 then (toYCbCr m q).2.1 else (toYCbCr m q).2.2
    blend ((bits a 24 8 + bits b 24 8) / 2) ((g a + g b) / 2) v

/-- A component of a pixel of a head's frame: background and video layers, then the graphic layers in ascending index. -/
def Chip.headWord (c : Chip) (h x y k : Nat) : Int :=
  (List.range (c.rd (MVC_HEAD_CTL_GFX_COUNT h))).foldl (fun v l => c.blendLayer h x y k l v) (c.videoWord h x y k)

end Sys2Proof.Machine
end

