-- ==== Sys2Proof/Machine/Manifest.lean ====
section
/-! DEFINITION. The Ixinest package (chapter 21): what a manifest's bytes say and whether they are well formed, the digest its signature is made
over, and the flash accesses of the boot ROM. The rows that read a bank carry what its checks found (log entry 48); these functions say what they
find. -/

namespace Sys2Proof.Machine

/-! ### The manifest (R615, R616) -/

/-- A little-endian field of a byte string. -/
def fieldAt (bs : List Nat) (o n : Nat) : Nat := leNat ((bs.drop o).take n)

/-- A component entry of a manifest. -/
structure Entry where
  type : Nat
  offset : Nat
  length : Nat
  version : Nat
  svn : Nat
  counter : Nat
  zero : Bool
  digest : List Nat
  deriving DecidableEq, Repr

/-- Entry `k` of a manifest. -/
def entryAt (bs : List Nat) (k : Nat) : Entry :=
  let o := 1344 + 64 * k
  let f := fun i => fieldAt bs (o + i) 4
  { type := f 0, offset := f 4, length := f 8, version := f 12, svn := f 16, counter := f 20
    zero := fieldAt bs (o + 24) 8 == 0, digest := (List.range 8).map fun i => f (32 + 4 * i) }

/-- An entry by itself is well formed. -/
def Entry.formed (e : Entry) : Bool :=
  1 ≤ e.type && e.type ≤ 6 && e.offset % 64 == 0 && (e.type != 1 || e.length ≤ 1572864) && e.svn ≤ 32 && e.counter + 1 == e.type && e.zero

/-- Two components do not overlap. -/
def Entry.apart (a b : Entry) : Bool := a.offset + a.length ≤ b.offset || b.offset + b.length ≤ a.offset

/-- Every pair of a list is apart. -/
def allApart : List Entry → Bool
  | [] => true
  | e :: es => es.all e.apart && allApart es

/-- The manifest of a package of a length is well formed (R615, R616, R610): the header, each type once, no overlap among the components or with the
manifest, all within the package. -/
def manifestOk (bs : List Nat) (total : Nat) : Bool :=
  let es := (List.range 6).map (entryAt bs)
  4148 ≤ bs.length && total ≤ 2 ^ 26 && fieldAt bs 0 4 == 0x314E5849 && fieldAt bs 4 4 == 4148 && fieldAt bs 8 4 == 1 && fieldAt bs 28 4 == 6
    && es.all Entry.formed && ((List.range 6).all fun k => es.any fun e => e.type == k + 1) && allApart es
    && es.all fun e => 4148 ≤ e.offset && e.offset + e.length ≤ total

/-- The manifest digest: SHA3-256 of bytes 0 to 1,727, over which the signature is made. -/
def manifestDigest (bs : List Nat) : List Nat := sha3 (bs.take 1728)

/-- The component of a type, as the checks find it: `good` where the SHA3-256 of its bytes is the entry's digest (R614, R622). -/
def compAt (bs : List Nat) (type : Nat) : Comp :=
  match ((List.range 6).map (entryAt bs)).find? fun e => e.type == type with
  | some e =>
    let d := sha3 ((bs.drop e.offset).take e.length)
    ⟨e.version, e.svn, d, d == e.digest⟩
  | none => ⟨0, 0, List.replicate 8 0, false⟩

/-- What the checks find of the bytes of a bank (R614, R615): `keyHash` is BOOT_KEY_HASH, and `verifies` says whether an ML-DSA-44 signature of a digest
verifies with a public key. -/
def packageOf (bs : List Nat) (total : Nat) (keyHash : List Nat) (verifies : List Nat → List Nat → List Nat → Bool) : Package :=
  let key := (bs.drop 32).take 1312
  { format := manifestOk bs total, idcode := fieldAt bs 12 4, key := sha3 key == keyHash
    sig := verifies key (manifestDigest bs) ((bs.drop 1728).take 2420), version := fieldAt bs 16 4, schema := fieldAt bs 20 4, dp := fieldAt bs 24 4
    digest := manifestDigest bs, comps := (List.range 6).map fun k => compAt bs (k + 1) }

/-! ### The flash (R619) -/

/-- An access of the boot ROM to the flash. -/
inductive FlashOp where
  /-- The extended address register is written. -/
  | extend (v : Nat)
  /-- A single-line read with a 3-byte address. -/
  | read3 (addr : Nat)
  /-- A quad read with a 4-byte address. -/
  | quad4 (addr : Nat)
  deriving DecidableEq, Repr

/-- The accesses by which the boot ROM reads a flash address: with QSPI_MODE 0, one at or above 16 MiB sets the extended address register before the
read and returns it to 0 afterwards. -/
def Chip.bootReads (c : Chip) (addr : Nat) : List FlashOp :=
  if c.on TOP_STRAP_QSPI_MODE then [.quad4 addr]
  else if addr < 2 ^ 24 then [.read3 addr]
  else [.extend (addr / 2 ^ 24), .read3 (addr % 2 ^ 24), .extend 0]

end Sys2Proof.Machine
end

