-- ==== Sys2Proof/Machine/Messages.lean ====
section
/-! DEFINITION. What the twin lanes send (chapter 19), as functions of the state: the markers of a twin lane, the blocks of the messages, and the CRC of
a destination's words. -/

namespace Sys2Proof.Machine

/-- The payload of a marker on twin lane `i`, the `k`-th sent: LINK is the lane, LLANE 0, CFG_WIDTH code 1, ROLE 0, TWIN_UNIT the strap (R552). -/
def Chip.twinMarkerPayload (c : Chip) (i k : Nat) : Nat :=
  polarity * 2 ^ 544 + k % 65536 * 2 ^ 528 + i * 2 ^ 498 + 1 * 2 ^ 494 + 1 * 2 ^ 492 + 1 * 2 ^ 488 + c.rd TOP_STRAP_TWIN_UNIT * 2 ^ 464

/-- The bytes of a message: a header of 16 bytes with MTYPE, the length of the body, MSEQ and the epochs of the planes, and the body (R553). The words
are those Chip.tell sends: MSEQ, the two epochs, the body. -/
def messageBytes (mtype : Nat) (words : List Nat) : List Nat :=
  leBytes 4 (mtype + 4 * (words.length - 3) * 2 ^ 16) ++ words.flatMap (leBytes 4)

/-- A block of a stream with up to 76 message bytes, the first in payload bits [607:600]; the bytes after a message's end are 0 (R553). -/
def twinBlock (stream : Nat) (first last : Bool) (bytes : List Nat) : Nat :=
  mkBlock 0 (stream * 2 ^ 12 + b2n first * 2 ^ 11 + b2n last * 2 ^ 10)
    ((bytes.take 76).zipIdx.foldl (fun a e => a + e.1 % 256 * 2 ^ (600 - 8 * e.2)) 0)

/-- The blocks of a message, in the order they are sent; `n` bounds how many. -/
def twinBlocks (stream : Nat) : Nat → Bool → List Nat → List Nat
  | 0, _, _ => []
  | n + 1, first, bytes =>
    if bytes.length ≤ 76 then [twinBlock stream first true bytes]
    else twinBlock stream first false bytes :: twinBlocks stream n false (bytes.drop 76)

/-- The blocks of a message of the part. -/
def blocksOf (m : Nat × List Nat) : List Nat :=
  let bytes := messageBytes m.1 m.2
  twinBlocks (streamOf m.1) (bytes.length / 76 + 1) true bytes

/-- The block that takes the next free position: the next one of the lowest-numbered stream that has one (R553); the streams in order, each with its
blocks that wait. -/
def nextBlock : List (List Nat) → Option (Nat × List (List Nat))
  | [] => none
  | (b :: bs) :: ss => some (b, bs :: ss)
  | [] :: ss => (nextBlock ss).map fun r => (r.1, [] :: r.2)

/-- What position `j` of a twin lane carries: markers and status blocks as a Kloar link of width 1, and the messages on the other positions. -/
def Chip.twinSends (c : Chip) (i j : Nat) (next : Option Nat) : Sends :=
  if !(c.on TWN_CFG_ENABLE) ∨ !(c.domOn (domTwnTx i)) then .nothing
  else match sliceOf j with
    | .marker => .block (mkBlock 2 0 (c.twinMarkerPayload i (j / 16384)))
    | .status => .block (mkBlock 1 0 (b2n (c.lnUsable (48 + i)) * 2 ^ 604 + 2 ^ 600))
    | .free _ => match next with
      | some b => .block b
      | none => .block (mkBlock 1 0 (b2n (c.lnUsable (48 + i)) * 2 ^ 604 + 2 ^ 600))

/-- CRC[d] of R560 from the words a destination sent in its window, in the order they cross its interface: each as two bytes, the lower first. -/
def destCrc (words : List Nat) : Nat := (words.foldl (fun r w => crcByte (crcByte r (bits w 0 8)) (bits w 8 2)) 0#64).toNat

end Sys2Proof.Machine
end

