-- ==== Sys2Proof/Machine/Packets.lean ====
section
/-! DEFINITION. What the network ports send (chapters 12 and 13), as functions of the state: the line states of a port, the traffic class of a producer's
frames, and the packets of a sender with their headers, sizes and slots. -/

namespace Sys2Proof.Machine

/-! ### Ports (R371, R378) -/

/-- What the transmit side of a port sends. -/
inductive PortSends where
  | nothing | negotiation | training | remoteFault | idle | frames
  deriving DecidableEq, Repr

/-- A port that is not UP sends no frame; it signals remote fault on a local fault, and idle on a remote one. -/
def Chip.portSends (c : Chip) (p : Nat) : PortSends :=
  let st := c.npState p
  if st ≤ npStandby then .nothing else if st = npAn then .negotiation else if st = npTraining then .training
  else if st = npRemote then .idle else if st = npUp then .frames else .remoteFault

/-- A producer of transmit frames. -/
inductive Producer where
  | sender (s : Nat) | ptp | firmware
  deriving DecidableEq, Repr

/-- The traffic class of a producer's frames on a port. -/
def Chip.classOf (c : Chip) (p : Nat) : Producer → Nat
  | .sender s => c.rd (NET_TXF_CTL_CLASS s)
  | .ptp => c.rd (NET_PORT_CFG_PTP_CLASS p)
  | .firmware => c.rd (NET_PORT_CFG_MGMT_CLASS p)

/-! ### Packets of a sender (R397, R399, R404, R411, R418) -/

/-- The sample bytes of the packets of a line (GPM), of whole pgroups of 5 bytes, the larger first. -/
def gpmSizes (line : Nat) : List Nat :=
  let n := (line + 1199) / 1200
  (List.range n).map fun i => 5 * (line / 5 / n + if i < line / 5 % n then 1 else 0)

/-- The sample bytes of the packets of a field of `total` bytes (BPM). -/
def bpmSizes (total : Nat) : List Nat := (List.range ((total + 1259) / 1260)).map fun i => min 1260 (total - 1260 * i)

/-- The sample bytes of the packets of a field of a format, in the order they leave. -/
def fieldSizes (f : Nat) (bpm : Bool) : List Nat :=
  let lines := if (fmt f).interlaced then (activeSize f).2 / 2 else (activeSize f).2
  let line := (activeSize f).1 * 5 / 2
  if bpm then bpmSizes (lines * line) else (List.range lines).flatMap fun _ => gpmSizes line

/-- The headers of a transmitted packet. -/
structure PacketHead where
  /-- The VLAN identifier and priority, where a tag is sent. -/
  vlan : Option (Nat × Nat)
  dscp : Nat
  ident : Nat
  dontFragment : Bool
  ttl : Nat
  source : Nat
  group : Nat
  sourcePort : Nat
  destPort : Nat
  udpChecksum : Nat
  payloadType : Nat
  ssrc : Nat
  sequence : Nat
  timestamp : Nat
  deriving DecidableEq, Repr

/-- The headers of the next packet of a leg of a sender, with its timestamp. -/
def Chip.packetHead (c : Chip) (s leg stamp : Nat) : PacketHead where
  vlan := if c.on (NET_TXF_HDR_VLAN_EN s) then some (c.rd (NET_TXF_HDR_VLAN_ID s), c.rd (NET_TXF_HDR_PCP s)) else none
  dscp := c.rd (NET_TXF_CTL_DSCP s)
  ident := 0
  dontFragment := true
  ttl := 64
  source := c.get (NET_TXF_LEG_SRC s leg)
  group := c.get (NET_TXF_LEG_DST s leg)
  sourcePort := c.rd (NET_TXF_LEG_PORTS_SPORT s leg)
  destPort := c.rd (NET_TXF_LEG_PORTS_DPORT s leg)
  udpChecksum := 0
  payloadType := c.rd (NET_TXF_HDR_PT s)
  ssrc := c.get (NET_TXF_SSRC s)
  sequence := (if leg = 0 then (c.sender s).seq0 else (c.sender s).seq1) % 2 ^ 16
  timestamp := stamp

/-- The timestamp of the packets of frame `fr` of a NET_OUT; field 2 adds half a frame period (R404). -/
def Chip.stampOf (c : Chip) (s fr : Nat) (field2 : Bool) : Nat :=
  let d := 240 + s
  let f := c.rd (XPT_DST_CTL_FORMAT d)
  (c.rtp90 (c.dstPlane d) f fr + if field2 then (fmt f).period * 90000 / (2 * sec 1) else 0) % 2 ^ 32

/-- The slot of packet `k` of a field of the next output frame of a NET_OUT: 1 line after the EAV of the field's first active line, at equal spacing
(R411). -/
def Chip.slotOf (c : Chip) (s k : Nat) (field2 : Bool) : Nat :=
  let f := c.rd (XPT_DST_CTL_FORMAT (240 + s))
  (c.plane (c.dstPlane (240 + s))).nextB + c.outDelay (240 + s) f
    + Config.firstActive f field2 * (fmt f).period / max 1 (fmt f).lines + k * c.trs s

/-- The channel status bytes of an ST 2110-31 sender but the CRC (R401): professional, PCM, 48 kHz, 24-bit (AES3, log entry 72). -/
def aes3Status : List Nat := [0x81, 0, 0x2C] ++ List.replicate 20 0

/-- The CRC byte of a channel status block, x^8 + x^4 + x^3 + x^2 + 1 from all ones, lowest bit first (AES3). -/
def aes3Crc (bytes : List Nat) : Nat :=
  bytes.foldl (fun r b => (List.range 8).foldl (fun r i => if (r + b / 2 ^ i) % 2 = 1 then r / 2 ^^^ 0xB8 else r / 2) r) 255

end Sys2Proof.Machine
end

