-- ==== Sys2Proof/Machine/Pins.lean ====
section
/-! DEFINITION. The states of the output pins (R67), as functions of the state. -/

namespace Sys2Proof.Machine

/-- An output of the pin list. -/
inductive Signal where
  | sdiTx (n : Nat) | fabTx (n : Nat) | netTx (n : Nat) | twnTx (n : Nat)
  | twnActive | twnReady | irq
  | sapSdo (n : Nat) | audMclk | sapBclk (n : Nat) | sapWs (n : Nat)
  | fscanClk | fscanLd | qspiCs | mcReset (ch : Nat) | mcCk (ch : Nat) | tdo
  deriving DecidableEq, Repr

/-- What a pin does. -/
inductive Pad where
  /-- High-impedance, with a 50 kohm pull-down or pull-up, or none. -/
  | hiZ | pullDown | pullUp
  | low | high
  /-- An input. -/
  | input
  /-- An open drain that is released. -/
  | released
  /-- A transmitter that is off, or that sends. -/
  | off | sends
  /-- A clock that stands still; a clock or data that runs. -/
  | stopped | runs
  deriving DecidableEq, Repr

/-- The pins of an unpowered part: every one is high-impedance. -/
def unpowered (_ : Signal) : Pad := .hiZ

/-- The part is in a PIN reset or POR. -/
def Chip.padReset (c : Chip) : Bool := c.pwr.phase == .held

/-- A bit as a pin level. -/
def level (b : Bool) : Pad := if b then .high else .low

/-- A memory channel is reset, or not clocked: not trained since the last PIN reset or POR, off, or in QUIET (R105). -/
def Chip.padMcOff (c : Chip) (n : Nat) : Bool := c.pwr.phase == .quiet || c.chState n == chAbsent || c.chState n == chDisabled || c.dom (domMem n) == stOff

/-- What a pin of the powered part does. -/
def Chip.pad (c : Chip) : Signal → Pad
  | .sdiTx n => if c.padReset || c.rd (SDI_TX_STAT_STATE n) != 1 then .off else .sends
  | .fabTx n => if c.padReset || !(c.domOn (domFabTx n)) then .off else .sends
  | .netTx n => if c.padReset || !(c.domOn (domNetTx n)) then .off else .sends
  | .twnTx n => if c.padReset || !(c.domOn (domTwnTx n)) then .off else .sends
  | .twnActive => level (!c.padReset && c.on TWN_STATE_ACTIVE_OUT)
  | .twnReady => level (!c.padReset && c.on TWN_STATE_READY_OUT)
  | .irq => if !c.padReset && c.irqLow then .low else .released
  | .sapSdo n => if c.padReset then .pullDown else if c.on (SAP_PORT_CTL_ENABLE n) then .sends else .hiZ
  | .audMclk => if c.padReset then .pullDown else if c.on SAP_CFG_MCLK_EN then .runs else .hiZ
  | .sapBclk n => if !c.padReset && c.on (SAP_PORT_CTL_ENABLE n) && c.on (SAP_PORT_CTL_MASTER n) then .runs else .input
  | .sapWs n => if !c.padReset && c.on (SAP_PORT_CTL_ENABLE n) && c.on (SAP_PORT_CTL_MASTER n) then .runs else .input
  | .fscanClk => if c.padReset || c.pwr.phase == .quiet || c.role == 2 then .low else .runs
  | .fscanLd => if c.padReset || c.pwr.phase == .quiet || c.role == 2 then .high else .runs
  | .qspiCs => if c.padReset then .pullUp else .high
  | .mcReset n => level (!c.padReset && !(c.padMcOff n))
  | .mcCk n => if c.padReset || c.padMcOff n then .stopped else .runs
  | .tdo => .hiZ

end Sys2Proof.Machine
end

