-- ==== Sys2Proof/Machine/Stream.lean ====
section
/-! DEFINITION. What leaves the outputs (chapters 05 and 09), as functions of the state: where the lines of a frame come from, the pictures of the
generators, concealed lines, and the words the part regenerates on every line. -/

namespace Sys2Proof.Machine

/-! ### Instants (R165, R168, R197) -/

/-- The next alignment point of a source on its plane: the frame boundary and 4 lines of its format (R165). -/
def Chip.alignsAt (c : Chip) (s : Nat) : Nat :=
  (c.plane (c.srcPlane s)).nextB + 4 * (fmt (c.detFmt s)).period / max 1 (fmt (c.detFmt s)).lines

/-- The next presentation instant of a source, in leaf role of a FAB_IN 2 lines, in spine role 0.75 line after the alignment point (R166, R197). -/
def Chip.presentsAt (c : Chip) (s : Nat) : Nat :=
  (c.plane (c.srcPlane s)).nextB + c.presentsAfter s * (fmt (c.detFmt s)).period / (1024 * max 1 (fmt (c.detFmt s)).lines)

/-- The next output frame start and switching point of a destination (R166, R168). -/
def Chip.startsAt (c : Chip) (d : Nat) : Nat := (c.plane (c.dstPlane d)).nextB + c.outDelay d (c.dst d).present
def Chip.switchesAt (c : Chip) (d : Nat) (field2 : Bool) : Nat :=
  (c.plane (c.dstPlane d)).nextB + c.switchDelay d (c.dst d).present field2

/-! ### Where a line comes from (R171, R177, R184, R238) -/

/-- The picture of a destination's loss action, whether it runs or not (R183, R185). -/
def Chip.lossPicture (c : Chip) (d : Nat) : Pic :=
  let s := c.leadOf (c.rd (XPT_DST_CTL_SOURCE d))
  match (c.lossPlan d).1 with
  | 0 => match c.holdFrame s with | some n => .frame s n | none => .black
  | 1 => .black
  | _ => .slate (c.rd (XPT_DST_CTL_SLATE_GEN d))

/-- What a line of a destination shows: a line that the aligner marks invalid is replaced by the co-sited line of the loss action's picture (R184). -/
def Chip.linePicture (c : Chip) (d : Nat) (invalid : Bool) : Pic :=
  match c.picture d with
  | .frame s n => if invalid then c.lossPicture d else .frame s n
  | p => p

/-- The ancillary packets of a line follow its picture (R171): those of the source's frame; black and slates carry none, and a replaced or held line
carries no audio (R184). -/
def Chip.lineAnc (c : Chip) (d : Nat) (invalid : Bool) : Option (Nat × Nat) :=
  match c.linePicture d invalid with
  | .frame s n => if invalid || c.on (XPT_DST_STAT_LOSS_ACTIVE d) then none else some (s, n)
  | _ => none

/-- What a line carries in the frame of a format-change take (R177). -/
inductive ChangeLine where
  /-- No line of the new format begins here: blanking words without TRS. -/
  | blanking
  /-- A black line of the new format, with regenerated words and no ancillary data. -/
  | black
  /-- A line of the new source. -/
  | source
  deriving DecidableEq, Repr

/-- Line `k` of the new format in the frame of a format-change take at `since` after the output frame start: a line that begins before the take is not
sent; one before the new format's switching line is black. -/
def changeLine (f since k : Nat) : ChangeLine :=
  if (k - 1) * (fmt f).period / max 1 (fmt f).lines < since then .blanking
  else if k < (switchLines f).1 then .black else .source

/-- The black pixel: Y, Cb, Cr (R177, R181, R228). -/
def blackPixel : Nat × Nat × Nat := (0x040, 0x200, 0x200)

/-- A pixel of a generator's picture (R181): black, the eight bars of equal width, the line's own number as luma, the colour field. -/
def Chip.genPixel (c : Chip) (g line x width : Nat) : Nat × Nat × Nat :=
  let bar := fun p => (Config.barWord p (8 * x / max 1 width) 0, Config.barWord p (8 * x / max 1 width) 1, Config.barWord p (8 * x / max 1 width) 2)
  match c.rd (XPT_GEN_CTL_PATTERN g) with
  | 0 => blackPixel
  | 1 => bar 1
  | 2 => bar 2
  | 3 => (line % 1024, 0x200, 0x200)
  | _ => (c.rd (XPT_GEN_COLOUR_Y g), c.rd (XPT_GEN_COLOUR_CB g), c.rd (XPT_GEN_COLOUR_CR g))

/-- The active words of the lines of a field that a playback channel presents, from what it reads, none where the read is uncorrectable (R238): such a
line repeats the one presented before it in the field, the first is black. -/
def concealed (black : List Nat) : List (Option (List Nat)) → List (List Nat)
  | [] => []
  | some w :: ls => w :: concealed w ls
  | none :: ls => black :: concealed black ls

/-- A concealed line carries no ancillary data. -/
def concealedAnc (anc : List (Option (List Nat))) : List (List Nat) := anc.map fun a => a.getD []

/-! ### Serial audio ports (R501 to R503, R507) -/

/-- The word of W bits that a port transmits of an engine sample: its top W bits, without dither. -/
def Chip.sapSent (c : Chip) (p : Nat) (v : Int) : Nat :=
  let w := c.rd (SAP_PORT_CTL_WORD p)
  ofSigned w (v / (2 ^ (24 - w) : Nat))

/-- The 32 data bits of a slot from its first data bit, a word of W bits and then zeros. -/
def slotBits (w word : Nat) : List Nat := (List.range 32).map fun i => if i < w then bits word (w - 1 - i) 1 else 0

/-- A frame as its 64 BCLK periods from the WS change that begins it, each the levels of WS and SDO: channel 0 with WS low and a delay of one period in
I2S, where the first data bit stands at the second rising edge; with WS high and no delay left-justified. `before` is the last bit of the frame
before. -/
def Chip.sapFrameOut (c : Chip) (p before : Nat) (l r : Int) : List (Nat × Nat) :=
  let w := c.rd (SAP_PORT_CTL_WORD p)
  let lj := c.on (SAP_PORT_CTL_FORMAT p)
  let data := slotBits w (c.sapSent p l) ++ slotBits w (c.sapSent p r)
  let sdo := if lj then data else before :: data.take 63
  sdo.zipIdx.map fun e => (if (e.2 < 32) == lj then 1 else 0, e.1)

/-- BCLK of a port in Hz. -/
def Chip.sapBclk (c : Chip) (p : Nat) : Nat := 64 * sapRate (c.rd (SAP_PORT_CTL_RATE p))

/-- AUD_MCLK_OUT in 0.001 ppm of a Hz: 256 times the rate of the lead port with the offset of the DCO, or 12.288 MHz; none while it is not driven. -/
def Chip.mclkOut (c : Chip) : Option Int :=
  if !(c.on SAP_CFG_MCLK_EN) then none
  else if c.on SAP_CFG_LEAD_ACTIVE then
    some ((256 * sapRate (c.rd (SAP_PORT_CTL_RATE (c.rd SAP_CFG_LEAD_PORT))) : Nat) * (1000000000 + c.rdI SAP_MCLK_FREQ_OFFSET))
  else some (12288000 * 1000000000)

/-! ### The words the part regenerates (R171, R287) -/

/-- The XYZ word of an EAV (h = 1) or SAV with its protection bits, and the sequence, as ST 292-1 and BT.656 lay them out (log entry 69). -/
def xyzWord (f v h : Nat) : Nat :=
  let p := fun a b => (a + b) % 2
  512 + f * 256 + v * 128 + h * 64 + p v h * 32 + p f h * 16 + p f v * 8 + (f + v + h) % 2 * 4
def trs (f v h : Nat) : List Nat := [0x3FF, 0, 0, xyzWord f v h]

/-- A 9-bit value as a 10-bit word whose top bit is the complement of the next. -/
def guarded (v : Nat) : Nat := v % 512 + (if bit v 8 then 0 else 512)

/-- The two line number words of a line. -/
def lineNumber (n : Nat) : List Nat := [guarded (bits n 0 7 * 4), guarded (bits n 7 4 * 4)]

/-- The CRC of a line, x^18 + x^5 + x^4 + 1, each word lowest bit first, and its two words. -/
def crc18 (ws : List Nat) : Nat :=
  ws.foldl (fun r w => (List.range 10).foldl (fun r i => if (r + w / 2 ^ i) % 2 = 1 then r / 2 ^^^ 0x23000 else r / 2) r) 0
def crcWords (ws : List Nat) : List Nat := [guarded (bits (crc18 ws) 0 9), guarded (bits (crc18 ws) 9 9)]

/-- One data stream of an outgoing line above SD: EAV, line number and CRC are the part's own; the active words of the line before enter the CRC. -/
def outLine (n f v : Nat) (before anc active : List Nat) : List Nat :=
  let head := trs f v 1 ++ lineNumber n
  head ++ crcWords (before ++ head) ++ anc ++ trs f v 0 ++ active

/-- An outgoing SD line: EAV and SAV are the part's own. -/
def outLineSd (f v : Nat) (anc active : List Nat) : List Nat := trs f v 1 ++ anc ++ trs f v 0 ++ active

/-- An EDH packet (R286, R287): the CRCs of the active picture and of the full field, whether each is valid, and the error flags. -/
structure Edh where
  active : Nat
  field : Nat
  activeValid : Bool
  fieldValid : Bool
  flags : Nat
  deriving DecidableEq, Repr

/-- The CRC of an EDH packet, x^16 + x^12 + x^5 + 1, each word lowest bit first (RP 165). -/
def crcEdh (ws : List Nat) : Nat :=
  ws.foldl (fun r w => (List.range 10).foldl (fun r i => if (r + w / 2 ^ i) % 2 = 1 then r / 2 ^^^ 0x8408 else r / 2) r) 0

/-- The EDH packet regenerated for a field from its outgoing words: both CRCs valid, every flag 0. -/
def outEdh (active field : List Nat) : Edh := ⟨crcEdh active, crcEdh field, true, true, 0⟩

/-- The check of a received or outgoing EDH packet (R286): a mismatch. -/
def edhError (p : Edh) (active field : List Nat) : Bool := p.active != crcEdh active || p.field != crcEdh field

/-- The ST 352 packet of an output: the format bytes and the link number, 0 on a single link (R290). -/
def Chip.pidOut (c : Chip) (n : Nat) (source : Option (Nat × Nat)) : Option (Nat × Nat) :=
  let own := (Config.payloadId (c.dst n).present (c.dst n).levelB, if c.bondedTx n then n % 4 + 1 else 0)
  match c.rd (SDI_TX_CTL_PID_MODE n) with
  | 0 => source
  | 1 => source <|> some own
  | _ => some own

end Sys2Proof.Machine
end

