-- ==== Sys2Proof/Tests/Slice0.lean ====
section
/-! SUPPORT. Well-formedness refuses what it should; small steps checked against the tables of the spec; and for every statement with hypotheses a concrete state and operands that meet them, clause by clause; the states are those right after
reset with what the clause speaks of set in them. -/

namespace Sys2Proof.Tests
set_option linter.unusedVariables false
set_option Elab.async false
open Sys2Proof Sys2Proof.Machine

/-- The state with its chip changed. -/
def on (s : State) (f : Chip → Chip) : State := { s with chip := f s.chip }

/-- A request with an opcode and payload words stands in the buffer of a channel, and its doorbell has been rung; the firmware runs. -/
def putReq (s : State) (ch op : Nat) (ws : List Nat) (epoch : Nat := 0) : State :=
  let m := ([2 ^ 24 + ch * 2 ^ 16 + 77, op, 4 * ws.length, epoch] ++ ws).flatMap wordBytes
  let c : Chip := { s.chip with
    pwr := { s.chip.pwr with phase := .running }, bus := { s.chip.bus with outs := [], locks := [] }
    fw := { s.chip.fw with order := [(ch, 0)], waits := [], hist := [] } }
  { s with mem := Memory.writeBytes s.mem (reqBuf ch) m, chip := (c.set TOP_STATUS_FW_READY).set (MBX_CH_STAT_BUSY ch) }

/-! Hypotheses as Booleans -/

def invB (s : State) : Bool := s.mem.wf && s.chip.out == [] && s.chip.evts == 0

def rowB (a b : Option RegRow) : Bool :=
  match a, b with
  | some x, some y => [x.base, x.s1, x.c1, x.s2, x.c2, x.s3, x.c3, x.dflt, x.rw, x.w1c, x.w1s, x.cl, x.cf, x.cw, x.ch, x.cp]
      == [y.base, y.s1, y.c1, y.s2, y.c2, y.s3, y.c3, y.dflt, y.rw, y.w1c, y.w1s, y.cl, y.cf, y.cw, y.ch, y.cp] && x.host == y.host
  | none, none => true
  | _, _ => false

theorem row_of {a b : Option RegRow} (h : rowB a b = true) : a = b := by
  cases a <;> cases b <;> simp_all [rowB]
  rename_i x y
  cases x; cases y; simp_all

theorem inv_of {s : State} (h : invB s = true) : s.Inv := by
  simp only [invB, Bool.and_eq_true, beq_iff_eq] at h
  exact ⟨h.1.1, h.1.2, h.2⟩

def asksB (s : State) (t ch : Nat) (r : Req) : Bool :=
  let c := s.chipAt t
  c.nextBell.map Prod.fst == some ch && c.on (MBX_CH_STAT_BUSY ch) && reqVersion s.mem ch == 1 && parseReq s.mem ch == r && r.chan == ch
    && (c.fw.hist.find? fun h => h.chan == ch && h.seq == r.seq) == none && c.formFails r == none

theorem asks_of {s : State} {t ch : Nat} {r : Req} (h : asksB s t ch r = true) : s.asks t ch r := by
  simp only [asksB, Bool.and_eq_true, beq_iff_eq] at h
  obtain ⟨⟨⟨⟨⟨⟨h1, h2⟩, h3⟩, h4⟩, h5⟩, h6⟩, h7⟩ := h
  refine ⟨?_, h2, h3, h4, h5, h6, h7⟩
  cases hb : (s.chipAt t).nextBell with
  | none => rw [hb] at h1; cases h1
  | some p => obtain ⟨a, b⟩ := p; rw [hb] at h1; cases h1; exact ⟨b, rfl⟩

theorem asksFor_of {s : State} {t ch op epoch : Nat} {r : Req}
    (h : (invB s && asksB s t ch r && r.opcode == op && r.flags == 0 && r.epoch == epoch && (s.chipAt t).bus.outs == []) = true) :
    s.asksFor t ch op epoch r := by
  simp only [Bool.and_eq_true, beq_iff_eq] at h
  obtain ⟨⟨⟨⟨⟨h1, h2⟩, h3⟩, h4⟩, h5⟩, h6⟩ := h
  exact ⟨inv_of h1, asks_of h2, h3, h4, h5, h6⟩

def okIs {ε α : Type} [BEq α] (x : Except ε α) (a : α) : Bool := match x with | .ok b => b == a | .error _ => false

theorem ok_of {ε α : Type} [BEq α] [LawfulBEq α] {x : Except ε α} {a : α} (h : okIs x a = true) : x = .ok a := by
  cases x <;> simp_all [okIs]

def verdictIs : Verdict → Verdict → Bool
  | .refuse x f, .refuse y g => x == y && f == g
  | .relay, .relay => true
  | .accept p, .accept q => p == q
  | _, _ => false

theorem verdict_of {a b : Verdict} (h : verdictIs a b = true) : a = b := by
  cases a <;> cases b <;> simp_all [verdictIs]

theorem mayAsk_of {s : State} {t ch op : Nat} {r : Req}
    (h : (invB s && asksB s t ch r && r.opcode == op && !r.checkOnly && !r.targetPeer && (s.chipAt t).twnMode == 0
      && !(s.chipAt t).upd.refused && !(s.chipAt t).mramHeld && (s.chipAt t).bus.outs == []) = true) : s.mayAsk t ch op r := by
  simp only [Bool.and_eq_true, beq_iff_eq, Bool.not_eq_true'] at h
  obtain ⟨⟨⟨⟨⟨⟨⟨⟨h1, h2⟩, h3⟩, h4⟩, h5⟩, h6⟩, h7⟩, h8⟩, h9⟩ := h
  exact ⟨inv_of h1, asks_of h2, h3, h4, h5, h6, h7, h8, h9⟩

def wResetsBegin0 : State × Nat :=
  let s := State.reset
  (s, (2 : Nat))

def wResetsBegin1 : State × Nat :=
  let s := State.reset
  let s := on s (fun c => {c with pwr := {c.pwr with phase := .held}})
  (s, (5 : Nat))

def wResetsBegin2 : State × Nat :=
  let s := State.reset
  (s, (7 : Nat))

def wResetsBegin3 : State × Nat :=
  let s := State.reset
  let s := on s (fun c => {c with pwr := {c.pwr with phase := .held}})
  let s := on s (fun c => {c with pwr := {c.pwr with asked := 8}})
  (s, (1 : Nat))

def wResetsBegin4 : State × Nat × (Fin 8) :=
  let s := State.reset
  (s, (2 : Nat), (2 : Fin 8))

def wResetsBegin5 : State × Nat × (Fin 8) :=
  let s := State.reset
  let s := on s (fun c => {c with pwr := {c.pwr with phase := .held}})
  let s := on s (fun c => {c with pwr := {c.pwr with asked := 8}})
  (s, (6 : Nat), (0 : Fin 8))

def wResetsBegin6 : State × Nat :=
  let s := State.reset
  (s, (3 : Nat))

def wResetsBegin7 : State × Nat :=
  let s := State.reset
  (s, (0 : Nat))

def wPartStarts0 : State × Nat :=
  let s := State.reset
  let s := on s (fun c => {c with pwr := {c.pwr with phase := .held}})
  (s, (6 : Nat))

def wPartStarts1 : State × Nat × (BitVec 8) :=
  let s := State.reset
  let s := on s (fun c => {c with pwr := {c.pwr with phase := .released}})
  (s, (7 : Nat), (0xed#8 : BitVec 8))

def wPartStarts2 : State × Nat × Bool × (Option Package) × (Option Package) :=
  let s := State.reset
  let t : Nat := 3
  let s := on s (fun c => {c with pwr := {c.pwr with phase := .released}})
  let s := on s (fun c => {c with pwr := {c.pwr with asked := t % 16, strapDue := false}})
  (s, (3 : Nat), (true : Bool), (none : Option Package), (none : Option Package))

def wPartStarts3 : State × Nat × Bool × (Option Package) × (Option Package) :=
  let s := State.reset
  let t : Nat := 5
  let s := on s (fun c => {c with pwr := {c.pwr with phase := .released}})
  let s := on s (fun c => {c with pwr := {c.pwr with asked := t % 16, strapDue := false}, upd := {c.upd with recA := some {}, recB := none}})
  (s, (5 : Nat), (true : Bool), (none : Option Package), (none : Option Package))

def wPartStarts4 : State × Nat :=
  let s := State.reset
  let s := on s (fun c => {c with pwr := {c.pwr with phase := .running}})
  let s := on s (fun c => {c with bus := {c.bus with outs := []}})
  (s, (1 : Nat))

def wFirmwareReady0 : State × Nat × Bool :=
  let s := State.reset
  let s := on s (fun c => {c with pwr := {c.pwr with phase := .started}})
  let s := on s (fun c => {c with fw := {c.fw with waits := c.fw.waits.map fun w => {w with plan := {w.plan with after := .none}}}, twn := {c.twn with held := []}})
  (s, (7 : Nat), (true : Bool))

def wConfigurationLoaded0 : State × Nat :=
  let s := State.reset
  let s := on s (fun c => ({c with pwr := {c.pwr with phase := .running}} : Chip).set TOP_STATUS_FW_READY)
  let s := on s (fun c => let c : Chip := {c with fw := {c.fw with cfgLoaded := false}, upd := {c.upd with refused := false}}; c.each (List.range 8) fun c n => c.wr (DMC_CH_STAT_STATE n) 3)
  (s, (2 : Nat))

def wBrownOutCount0 : State × Nat × (Fin 8) :=
  let s := State.reset
  (s, (2 : Nat), (2 : Fin 8))

def wBrownOutCount1 : State × Nat × (Fin 8) :=
  let s := State.reset
  let s := on s (fun c => c.setBit PWR_STATUS_RAIL_BELOW_WARN 3)
  (s, (0 : Nat), (7 : Fin 8))

def wBrownOutHold0 : State × Nat × (Fin 8) :=
  let s := State.reset
  (s, (3 : Nat), (2 : Fin 8))

def wBrownOutHold1 : State × Nat × (Fin 8) :=
  let s := State.reset
  let m : Fin 8 := 3
  let s := on s (fun c => c.setBit PWR_STATUS_RAIL_BELOW_WARN m.val)
  (s, (2 : Nat), (3 : Fin 8))

def wBrownOutHold2 : State × Nat :=
  let s := State.reset
  let s := on s (fun c => let c := (c.set PWR_STATUS_MRAM_HOLD).wr PWR_STATUS_RAIL_BELOW_WARN 0; {c with fw := {c.fw with waits := []}, twn := {c.twn with held := []}, bus := {c.bus with outs := []}, upd := {c.upd with checked := false}})
  (s, (5 : Nat))

def wBrownOutHold4 : State × Nat :=
  let s := State.reset
  let s := on s (fun c => ({c with pwr := {c.pwr with phase := .running}} : Chip).set TOP_STATUS_FW_READY)
  let s := on s (fun c => c.clr PWR_STATUS_MRAM_HOLD)
  (s, (2 : Nat))

def wDomainTransitions0 : State × Nat × (Fin 248) × (Fin 4) :=
  let s := State.reset
  let s := on s (fun c => {c with pwr := {c.pwr with phase := .running}})
  (s, (5 : Nat), (0 : Fin 248), (2 : Fin 4))

def wDomainTransitions1 : State × Nat × (Fin 248) :=
  let s := State.reset
  let t : Nat := 2
  let n : Fin 248 := 1
  let s := on s (fun c => {c with pwr := {c.pwr with phase := .running}})
  let s := on s (fun c => ({c with pwr := {c.pwr with goal := [(n.val, t % 3)]}} : Chip).set (PWR_DOM_CTL_BUSY n.val))
  (s, (2 : Nat), (1 : Fin 248))

def wDomainTransitions2 : State × Nat × (Fin 2) :=
  let s := State.reset
  let p : Fin 2 := 0
  let s := on s (fun c => {c with pwr := {c.pwr with phase := .running}})
  let s := on s (fun c => c.wr (PWR_DOM_CTL_CUR (domMac p.val)) stLow)
  (s, (5 : Nat), (0 : Fin 2))

def wQuietEntryAndWake0 : State × Nat :=
  let s := State.reset
  (s, (1 : Nat))

def wQuietEntryAndWake1 : State × Nat :=
  let s := State.reset
  let s := on s (fun c => {c with pwr := {c.pwr with phase := .running}})
  let s := on s (fun c => (c.wr TOP_STATUS_TWIN_STATE 1))
  let s := on s (fun c => (c.wr TWN_STATE_MODE 1))
  (s, (5 : Nat))

def wQuietEntryAndWake2 : State × Nat :=
  let s := State.reset
  let s := on s (fun c => {c with pwr := {c.pwr with phase := .quiet}})
  (s, (0 : Nat))

def wMonitorLevels0 : State × Nat × (Fin 8) × Word :=
  let s := State.reset
  let s := on s (fun c => ({c with pwr := {c.pwr with phase := .running}} : Chip).set TOP_STATUS_FW_READY)
  (s, (7 : Nat), (3 : Fin 8), (0x3ccbc766#32 : Word))

def wPartMonitors0 : State × Nat × Int :=
  let s := State.reset
  (s, (0 : Nat), (88 : Int))

def wPartMonitors1 : State × Nat :=
  let s := State.reset
  let s := on s (fun c => {c with pwr := {c.pwr with phase := .running}})
  let s := on s (fun c => c.set REF_LO_PRESENT)
  (s, (2 : Nat))

def wPartMonitors2 : State × Nat :=
  let s := State.reset
  let s := on s (fun c => {c with pwr := {c.pwr with phase := .running}})
  (s, (6 : Nat))

def wPartMonitors3 : State × Nat × (BitVec 144) × (Fin 48) :=
  let s := State.reset
  let t : Nat := 2
  let v : BitVec 144 := 0x2bd38acbc596ac9ad38c519cd0f02ea01903#144
  let s := on s (fun c => {c with pwr := {c.pwr with phase := .running}})
  let s := on s (fun c => ({c with pwr := {c.pwr with scans := t % 3, scan := v.toNat ^^^ t, strapDue := false}} : Chip).wr TOP_ROLE_ROLE (t % 2))
  (s, (2 : Nat), (0x2bd38acbc596ac9ad38c519cd0f02ea01903#144 : BitVec 144), (3 : Fin 48))

def wPartMonitors4 : State × Nat × (BitVec 144) :=
  let s := State.reset
  let s := on s (fun c => {c with pwr := {c.pwr with phase := .running}})
  let s := on s (fun c => c.wr TOP_ROLE_ROLE 2)
  (s, (2 : Nat), (0xfa3c2fa1c8bcdcc1af3cb2790fab7def563f#144 : BitVec 144))

def wPartMonitors5 : State × Nat × (List (Fin 384)) :=
  let s := State.reset
  let s := on s (fun c => {c with pwr := {c.pwr with phase := .running}})
  (s, (7 : Nat), ([] : List (Fin 384)))

def wDoorbell0 : State × Nat × (Fin 16) :=
  let s := State.reset
  let s := on s (fun c => {c with pwr := {c.pwr with phase := .running}})
  let s := on s (fun c => {c with host := {c.host with d3hot := false}, bus := {c.bus with outs := [], locks := []}})
  let s := on s (fun c => c.wr (BUS_FW_WRITE 4) 0xFF)
  (s, (7 : Nat), (0 : Fin 16))

def wDoorbell1 : State × Nat × (Fin 16) :=
  let s := State.reset
  let ch : Fin 16 := 0
  let s := on s (fun c => {c with pwr := {c.pwr with phase := .running}})
  let s := on s (fun c => {c with host := {c.host with d3hot := false}, bus := {c.bus with outs := [], locks := []}})
  let s := on s (fun c => c.wr (BUS_FW_WRITE 4) 0xFF)
  let s := on s (fun c => c.set (MBX_CH_STAT_BUSY ch.val))
  (s, (5 : Nat), (0 : Fin 16))

def wDoorbell3 : State × Nat × (Fin 16) × Req :=
  let s := State.reset
  let ch : Fin 16 := 1
  let s := putReq s ch.val 0x0000 [5, 6, 7]
  (s, (1 : Nat), (1 : Fin 16), ({ chan := 1, seq := 77, opcode := 0, flags := 0, len := 12, epoch := 0, payload := [5, 6, 7] } : Req))

def wHostWritesRegister0 : State × Nat × Nat × Word × RegRow :=
  let s := State.reset
  let v : Word := 0xffffffff#32
  let s := on s (fun c => {c with pwr := {c.pwr with phase := .running}})
  let s := on s (fun c => {c with host := {c.host with d3hot := false}, bus := {c.bus with outs := [], locks := []}})
  let s := on s (fun c => c.wr (BUS_FW_WRITE 4) 0xFF)
  let k : Nat := 1
  let k2 : Nat := 0
  let rows := regRows.filter fun r => r.host
  let row := rows.getD ((v.toNat * 7 + k + k2) % rows.length) ⟨0,0,0,0,0,0,0,0,0,0,0,0,0,0,0,0,true⟩
  (s, (5 : Nat), (0 : Nat), (0xffffffff#32 : Word), row)

def wHostWritesRegister1 : State × Nat × Nat × Word × (Option RegRow) :=
  let s := State.reset
  let v : Word := 0x00000000#32
  let s := on s (fun c => {c with pwr := {c.pwr with phase := .running}})
  let s := on s (fun c => {c with host := {c.host with d3hot := false}, bus := {c.bus with outs := [], locks := []}})
  let s := on s (fun c => c.wr (BUS_FW_WRITE 4) 0xFF)
  let k : Nat := 1
  let k2 : Nat := 0
  let rows := regRows.filter fun r => !r.host
  let row0 := rows.getD ((v.toNat * 7 + k + k2) % rows.length) ⟨0,0,0,0,0,0,0,0,0,0,0,0,0,0,0,0,true⟩
  let off := row0.base + row0.s1 * (k % row0.c1) + row0.s2 * (k2 % row0.c2)
  let row := rowOf off
  (s, (1 : Nat), (131080 : Nat), (0x00000000#32 : Word), row)

def wHostWritesRegister2 : State × Nat × Nat × Nat × Word :=
  let s := State.reset
  let s := on s (fun c => {c with pwr := {c.pwr with phase := .running}})
  let s := on s (fun c => {c with host := {c.host with d3hot := false}, bus := {c.bus with outs := [], locks := []}})
  let s := on s (fun c => c.wr (BUS_FW_WRITE 4) 0xFF)
  (s, (1 : Nat), (1 : Nat), (1 : Nat), (0xffffffff#32 : Word))

def wHostWritesRegister3 : State × Nat × Nat × Word :=
  let s := State.reset
  let s := on s (fun c => {c with pwr := {c.pwr with phase := .running}})
  let s := on s (fun c => {c with host := {c.host with d3hot := false}, bus := {c.bus with outs := [], locks := []}})
  let s := on s (fun c => c.wr (BUS_FW_WRITE 4) 0xFF)
  let s := on s (fun c => c.wr (BUS_FW_WRITE 4) 2)
  (s, (2 : Nat), (0 : Nat), (0xffffffff#32 : Word))

def wHostWritesRegister4 : State × Nat × Nat × Nat × Word × Bool :=
  let s := State.reset
  let s := on s (fun c => {c with pwr := {c.pwr with phase := .quiet}})
  let s := on s (fun c => {c with bus := {c.bus with outs := [], locks := []}})
  (s, (6 : Nat), (1 : Nat), (0 : Nat), (0xffffffff#32 : Word), (true : Bool))

def wHostWritesRegister5 : State × Nat × (Fin 16) × (Fin 1024) × Word :=
  let s := State.reset
  let ch : Fin 16 := 2
  let s := on s (fun c => {c with pwr := {c.pwr with phase := .running}})
  let s := on s (fun c => {c with host := {c.host with d3hot := false}, bus := {c.bus with outs := [], locks := []}})
  let s := on s (fun c => c.wr (BUS_FW_WRITE 4) 0xFF)
  let s := on s (fun c => c.clr (MBX_CH_STAT_BUSY ch.val))
  (s, (5 : Nat), (2 : Fin 16), (0 : Fin 1024), (0x00000000#32 : Word))

def wHostWritesRegister6 : State × Nat × (Fin 16) × (Fin 1024) × Word :=
  let s := State.reset
  let ch : Fin 16 := 2
  let s := on s (fun c => {c with pwr := {c.pwr with phase := .running}})
  let s := on s (fun c => {c with host := {c.host with d3hot := false}, bus := {c.bus with outs := [], locks := []}})
  let s := on s (fun c => c.wr (BUS_FW_WRITE 4) 0xFF)
  let s := on s (fun c => c.set (MBX_CH_STAT_BUSY ch.val))
  (s, (2 : Nat), (2 : Fin 16), (3 : Fin 1024), (0xac33bb48#32 : Word))

def wHostWritesRegister7 : State × Nat × Nat × Word × RegRow :=
  let s := State.reset
  let off : Nat := 3
  let row : RegRow := ⟨0,0,0,0,0,0,0,0,0,0,0,0,0,0,0,0,true⟩
  let s := on s (fun c => {c with pwr := {c.pwr with phase := .running}})
  let s := on s (fun c => {c with host := {c.host with d3hot := false}, bus := {c.bus with outs := [], locks := []}})
  let s := on s (fun c => c.wr (BUS_FW_WRITE 4) 0xFF)
  let off := if off % 3 = 0 then PWR_STATUS.off else if off % 3 = 1 then PWR_RAIL_HIST.off else PWR_WAKE_CAUSE.off
  let row := (rowOf off).getD row
  (s, (6 : Nat), (131072 : Nat), (0xc44b614a#32 : Word), row)

def wHostWritesRegister8 : State × Nat × Nat × Word :=
  let s := State.reset
  let s := on s (fun c => {c with pwr := {c.pwr with phase := .running}})
  let s := on s (fun c => {c with host := {c.host with d3hot := false}, bus := {c.bus with outs := [], locks := []}})
  let s := on s (fun c => c.wr (BUS_FW_WRITE 4) 0xFF)
  (s, (6 : Nat), (2 : Nat), (0xb2750a76#32 : Word))

def wEndpointEvents0 : State × Nat × (Fin 32) :=
  let s := State.reset
  let s := on s (fun c => {c with pwr := {c.pwr with phase := .running}})
  let s := on s (fun c => {c with host := {c.host with d3hot := false, fnMasked := false, pba := 2^32-1}, bus := {c.bus with outs := [], locks := []}})
  let s := on s (fun c => ((c.set PWR_STATUS_BOD_WARN).put PWR_INT_EN 0xFFF))
  (s, (7 : Nat), (17 : Fin 32))

def wEndpointEvents1 : State × Nat × (Fin 32) :=
  let s := State.reset
  (s, (3 : Nat), (0 : Fin 32))

def wWaitingRequestsEnd0 : State × Nat × (Fin 16) × Wait :=
  let s := State.reset
  let t : Nat := 6
  let ch : Fin 16 := 0
  let w : Wait := { req := { chan := 0, seq := 0, opcode := 1, flags := 0, len := 4, epoch := 4404011370, payload := [] }, plan := { resp := { status := 1, flags := 0, epoch := 0, payload := [] }, pends := [], nows := [], journal := true, fwd := true, long := none, after := Sys2Proof.Machine.After.quiet }, since := 0, journal := false, ack := none, peer := true, long := none, hand := false, taken := false }
  let s := on s (fun c => ({c with pwr := {c.pwr with phase := .running}} : Chip).set TOP_STATUS_FW_READY)
  let w : Wait := {w with req := {w.req with chan := ch.val, seq := w.req.seq % 65536}, since := t % 77, peer := true}
  let s := on s (fun c => {c with fw := {c.fw with waits := [w], order := c.fw.order.map fun o => (o.1 % 16, o.2)}})
  (s, (1000000006 : Nat), (0 : Fin 16), ({ req := { chan := 0, seq := 0, opcode := 1, flags := 0, len := 4, epoch := 4404011370, payload := [] }, plan := { resp := { status := 1, flags := 0, epoch := 0, payload := [] }, pends := [], nows := [], journal := true, fwd := true, long := none, after := Sys2Proof.Machine.After.quiet }, since := 6, journal := false, ack := none, peer := true, long := none, hand := false, taken := false } : Wait))

def wWaitingRequestsEnd1 : State × Nat × (Fin 16) × Wait :=
  let s := State.reset
  let t : Nat := 5
  let ch : Fin 16 := 2
  let w : Wait := { req := { chan := 15, seq := 1, opcode := 2, flags := 4, len := 1, epoch := 0, payload := [1, 4] }, plan := { resp := { status := 0, flags := 1, epoch := 1, payload := [0] }, pends := [], nows := [], journal := false, fwd := true, long := some (Sys2Proof.Machine.Long.graphic), after := Sys2Proof.Machine.After.pin }, since := 37259, journal := true, ack := none, peer := false, long := none, hand := true, taken := true }
  let s := on s (fun c => ({c with pwr := {c.pwr with phase := .running}} : Chip).set TOP_STATUS_FW_READY)
  let w : Wait := {w with req := {w.req with chan := ch.val, seq := w.req.seq % 65536}, since := t % 77, journal := true}
  let s := on s (fun c => {c with fw := {c.fw with waits := [w], order := c.fw.order.map fun o => (o.1 % 16, o.2)}})
  (s, (1000000005 : Nat), (2 : Fin 16), ({ req := { chan := 2, seq := 1, opcode := 2, flags := 4, len := 1, epoch := 0, payload := [1, 4] }, plan := { resp := { status := 0, flags := 1, epoch := 1, payload := [0] }, pends := [], nows := [], journal := false, fwd := true, long := some (Sys2Proof.Machine.Long.graphic), after := Sys2Proof.Machine.After.pin }, since := 5, journal := true, ack := none, peer := false, long := none, hand := true, taken := true } : Wait))

def wWaitingRequestsEnd2 : State × Nat × (Fin 16) × Wait × (List Nat) :=
  let s := State.reset
  let t : Nat := 7
  let ch : Fin 16 := 1
  let w : Wait := { req := { chan := 2, seq := 1, opcode := 1, flags := 11738755597, len := 1, epoch := 3, payload := [] }, plan := { resp := { status := 0, flags := 2, epoch := 0, payload := [1, 52128] }, pends := [], nows := [], journal := true, fwd := true, long := some (Sys2Proof.Machine.Long.verify), after := Sys2Proof.Machine.After.none }, since := 1, journal := false, ack := some 208, peer := true, long := some (Sys2Proof.Machine.Long.attest), hand := false, taken := false }
  let s := on s (fun c => ({c with pwr := {c.pwr with phase := .running}} : Chip).set TOP_STATUS_FW_READY)
  let w : Wait := {w with req := {w.req with chan := ch.val, seq := w.req.seq % 65536}, since := t % 77, long := some .domains, journal := false, ack := none, peer := false, hand := false, plan := {w.plan with after := .none}}
  let s := on s (fun c => {c with fw := {c.fw with waits := [w], order := c.fw.order.map fun o => (o.1 % 16, o.2)}})
  let ns := w.plan.nows.map Change.idx
  let s := on s (fun c => c.each ns fun c n => (c.clr (PWR_DOM_CTL_BUSY n)).wr (PWR_DOM_CTL_REQ n) (c.rd (PWR_DOM_CTL_CUR n)))
  (s, (1000000007 : Nat), (1 : Fin 16), ({ req := { chan := 1, seq := 1, opcode := 1, flags := 11738755597, len := 1, epoch := 3, payload := [] }, plan := { resp := { status := 0, flags := 2, epoch := 0, payload := [1, 52128] }, pends := [], nows := [], journal := true, fwd := true, long := some (Sys2Proof.Machine.Long.verify), after := Sys2Proof.Machine.After.none }, since := 7, journal := false, ack := none, peer := false, long := some (Sys2Proof.Machine.Long.domains), hand := false, taken := false } : Wait), ([] : List Nat))

def wLongRequestsEnd0 : State × Nat × (Fin 16) × (List Nat) × Wait :=
  let s := State.reset
  let t : Nat := 2
  let ch : Fin 16 := 0
  let bs : List Nat := [0, 15918145593]
  let w : Wait := { req := { chan := 1, seq := 4, opcode := 4491, flags := 1, len := 6, epoch := 9, payload := [66310] }, plan := { resp := { status := 0, flags := 1, epoch := 1, payload := [] }, pends := [], nows := [], journal := true, fwd := true, long := none, after := Sys2Proof.Machine.After.fwr }, since := 1, journal := true, ack := some 4, peer := true, long := some (Sys2Proof.Machine.Long.verify), hand := false, taken := true }
  let s := on s (fun c => ({c with pwr := {c.pwr with phase := .running}} : Chip).set TOP_STATUS_FW_READY)
  let w : Wait := {w with long := some .download, journal := false, ack := none, peer := false, hand := false, plan := {w.plan with after := .none}, req := {w.req with chan := ch.val, payload := [0, t % 3000, 5000, 0,0, bs.length]}}
  let s := on s (fun c => {c with fw := {c.fw with waits := [w], order := c.fw.order.map fun o => (o.1 % 16, o.2)}})
  (s, (2 : Nat), (0 : Fin 16), ([0, 57] : List Nat), ({ req := { chan := 0, seq := 4, opcode := 4491, flags := 1, len := 6, epoch := 9, payload := [0, 2, 5000, 0, 0, 2] }, plan := { resp := { status := 0, flags := 1, epoch := 1, payload := [] }, pends := [], nows := [], journal := true, fwd := true, long := none, after := Sys2Proof.Machine.After.none }, since := 1, journal := false, ack := none, peer := false, long := some (Sys2Proof.Machine.Long.download), hand := false, taken := true } : Wait))

def wLongRequestsEnd1 : State × Nat × (Fin 16) × Wait :=
  let s := State.reset
  let t : Nat := 5
  let ch : Fin 16 := 3
  let w : Wait := { req := { chan := 15772196032, seq := 15859, opcode := 295, flags := 0, len := 0, epoch := 14, payload := [1] }, plan := { resp := { status := 62002, flags := 4, epoch := 336, payload := [4] }, pends := [], nows := [], journal := true, fwd := true, long := none, after := Sys2Proof.Machine.After.quiet }, since := 0, journal := false, ack := some 319, peer := false, long := none, hand := false, taken := true }
  let s := on s (fun c => ({c with pwr := {c.pwr with phase := .running}} : Chip).set TOP_STATUS_FW_READY)
  let w : Wait := {w with long := some .download, journal := false, ack := none, peer := false, hand := false, plan := {w.plan with after := .none}, req := {w.req with chan := ch.val, payload := [0, t % 3000, 5000, 0,0, 7]}}
  let s := on s (fun c => {c with fw := {c.fw with waits := [w], order := c.fw.order.map fun o => (o.1 % 16, o.2)}})
  (s, (5 : Nat), (3 : Fin 16), w)

def wLongRequestsEnd2 : State × Nat × (Fin 16) × Package × Wait :=
  let s := State.reset
  let ch : Fin 16 := 15
  let w : Wait := { req := { chan := 0, seq := 0, opcode := 240, flags := 58873, len := 0, epoch := 1, payload := [1, 12, 0] }, plan := { resp := { status := 1, flags := 1, epoch := 1, payload := [3] }, pends := [], nows := [], journal := true, fwd := false, long := none, after := Sys2Proof.Machine.After.quiet }, since := 1, journal := false, ack := none, peer := true, long := some (Sys2Proof.Machine.Long.verify), hand := false, taken := false }
  let s := on s (fun c => ({c with pwr := {c.pwr with phase := .running}} : Chip).set TOP_STATUS_FW_READY)
  let w : Wait := {w with long := some .verify, journal := false, ack := none, peer := false, hand := false, plan := {w.plan with after := .none}, req := {w.req with chan := ch.val, payload := []}}
  let s := on s (fun c => {c with fw := {c.fw with waits := [w], order := c.fw.order.map fun o => (o.1 % 16, o.2)}})
  let s := on s (fun c => {(c.put UPD_DL_BYTES 77) with upd := {c.upd with total := 77}})
  (s, (7 : Nat), (15 : Fin 16), ({ format := true, idcode := 327420527, key := true, sig := true, version := 5, schema := 6, dp := 7, digest := [1, 2, 3], comps := [{ version := 0, svn := 32, digest := [], good := true }, { version := 1, svn := 32, digest := [], good := true }, { version := 2, svn := 32, digest := [], good := true }, { version := 3, svn := 32, digest := [], good := true }, { version := 4, svn := 32, digest := [], good := true }, { version := 5, svn := 32, digest := [], good := true }] } : Package), ({ req := { chan := 15, seq := 0, opcode := 240, flags := 58873, len := 0, epoch := 1, payload := [] }, plan := { resp := { status := 1, flags := 1, epoch := 1, payload := [3] }, pends := [], nows := [], journal := true, fwd := false, long := none, after := Sys2Proof.Machine.After.none }, since := 1, journal := false, ack := none, peer := false, long := some (Sys2Proof.Machine.Long.verify), hand := false, taken := false } : Wait))

def wLongRequestsEnd3 : State × Nat × (Fin 16) × Package × Wait × (List Nat) :=
  let s := State.reset
  let t : Nat := 0
  let ch : Fin 16 := 3
  let w : Wait := { req := { chan := 10054907747, seq := 0, opcode := 2642, flags := 233, len := 1, epoch := 0, payload := [] }, plan := { resp := { status := 1, flags := 0, epoch := 38917, payload := [2, 0] }, pends := [], nows := [], journal := false, fwd := true, long := none, after := Sys2Proof.Machine.After.fwr }, since := 62915, journal := false, ack := none, peer := false, long := none, hand := false, taken := false }
  let s := on s (fun c => ({c with pwr := {c.pwr with phase := .running}} : Chip).set TOP_STATUS_FW_READY)
  let w : Wait := {w with long := some .verify, journal := false, ack := none, peer := false, hand := false, plan := {w.plan with after := .none}, req := {w.req with chan := ch.val, payload := []}}
  let s := on s (fun c => {c with fw := {c.fw with waits := [w], order := c.fw.order.map fun o => (o.1 % 16, o.2)}})
  let s := on s (fun c => if t % 2 = 0 then {(c.put UPD_DL_BYTES 77) with upd := {c.upd with total := 77}} else c)
  (s, (0 : Nat), (3 : Fin 16), ({ format := true, idcode := 3, key := true, sig := true, version := 0, schema := 0, dp := 1, digest := [16495384047], comps := [] } : Package), ({ req := { chan := 3, seq := 0, opcode := 2642, flags := 233, len := 1, epoch := 0, payload := [] }, plan := { resp := { status := 1, flags := 0, epoch := 38917, payload := [2, 0] }, pends := [], nows := [], journal := false, fwd := true, long := none, after := Sys2Proof.Machine.After.none }, since := 62915, journal := false, ack := none, peer := false, long := some (Sys2Proof.Machine.Long.verify), hand := false, taken := false } : Wait), ([2] : List Nat))

def wLongRequestsEnd4 : State × Nat × (Fin 16) × Wait :=
  let s := State.reset
  let ch : Fin 16 := 3
  let w : Wait := { req := { chan := 0, seq := 2, opcode := 0, flags := 0, len := 41978, epoch := 572419099, payload := [0] }, plan := { resp := { status := 1, flags := 7885012700, epoch := 1, payload := [0, 4, 1] }, pends := [], nows := [], journal := false, fwd := false, long := none, after := Sys2Proof.Machine.After.pin }, since := 0, journal := false, ack := some 1, peer := false, long := none, hand := true, taken := true }
  let s := on s (fun c => ({c with pwr := {c.pwr with phase := .running}} : Chip).set TOP_STATUS_FW_READY)
  let w : Wait := {w with long := some .attest, journal := false, ack := none, peer := false, hand := false, plan := {w.plan with after := .none}, req := {w.req with chan := ch.val, payload := [0,1,2,3,4,5,6,7,8]}}
  let s := on s (fun c => {c with fw := {c.fw with waits := [w], order := c.fw.order.map fun o => (o.1 % 16, o.2)}})
  (s, (7 : Nat), (3 : Fin 16), w)

def wRefusedRequests0 : State × Nat × (Fin 16) × Req × Resp × Bool :=
  let s := State.reset
  let t : Nat := 5
  let ch : Fin 16 := 1
  let x : Resp := { status := 12, flags := 1, epoch := 3, payload := [] }
  let k0 : Nat := 0
  let k1 : Nat := 0
  let z : Chip := { now := s.chip.now, fw := {s.chip.fw with queue := []}, lbs := s.chip.lbs, sap := s.chip.sap }
  let s : State := { s with chip := z }
  let s := putReq s ch.val 0x0480 [2, k0 % 400 + (k1 % 48) * 65536, 40 + k1 % 8 + 2 ^ 31 + 2 ^ 25 * (t % 2)]
  let s := on s (fun c => (((((c).wr (REF_PLANE_CFG_FORMAT 0) 14).wr (REF_PLANE_STAT_STATE 0) 2).wr (REF_PLANE_STAT_STATE 1) 2).setPlane 0 { c.plane 0 with nextB := 60000000, counted := true, left := true }).wr TOP_ROLE_ROLE 0)
  let r := parseReq s.mem ch.val
  let (x, full) := match (s.chipAt t).verdict s.mem r chkTake with | .refuse x f => (x,f) | _ => ({status:=0},false)
  (s, (5 : Nat), (1 : Fin 16), ({ chan := 1, seq := 77, opcode := 1152, flags := 0, len := 12, epoch := 0, payload := [2, 0, 2181038120] } : Req), ({ status := 18, flags := 0, epoch := 0, payload := [] } : Resp), (false : Bool))

def wRefusedRequests1 : State × Nat × (Fin 16) × Req × Plan :=
  let s := State.reset
  let t : Nat := 3000
  let ch : Fin 16 := 3
  let p : Plan := { resp := { status := 1, flags := 0, epoch := 0, payload := [1] }, pends := [], nows := [], journal := true, fwd := false, long := none, after := Sys2Proof.Machine.After.none }
  let k0 : Nat := 0
  let k1 : Nat := 0
  let z : Chip := { now := s.chip.now, fw := {s.chip.fw with queue := []}, lbs := s.chip.lbs, sap := s.chip.sap }
  let s : State := { s with chip := z }
  let s := putReq s ch.val 0x0480 [2, k0 % 40 + (k1 % 48) * 65536, 40 + k1 % 8 + 2 ^ 31]
  let s := on s (fun c => (((((c).wr (REF_PLANE_CFG_FORMAT 0) 14).wr (REF_PLANE_STAT_STATE 0) 2).wr (REF_PLANE_STAT_STATE 1) 2).setPlane 0 { c.plane 0 with nextB := 60000000, counted := true, left := true }).wr TOP_ROLE_ROLE 0)
  let s : State := {s with mem := s.mem.writeBytes (reqBuf ch.val + 4) (wordBytes (0x0480 + 65536)) }
  let r := parseReq s.mem ch.val
  let pp : Plan := match (s.chipAt t).verdict s.mem r chkTake with | .accept p => p | _ => {}
  let p := pp
  (s, (3000 : Nat), (3 : Fin 16), ({ chan := 3, seq := 77, opcode := 1152, flags := 1, len := 12, epoch := 0, payload := [2, 0, 2147483688] } : Req), p)

def wRefusedRequests2 : State × Nat × (Fin 16) × Req × Hist × Nat :=
  let s := State.reset
  let ch : Fin 16 := 15
  let h : Hist := { chan := 1, seq := 0, opcode := 0, len := 0, resp := { status := 1, flags := 0, epoch := 1, payload := [2] }, taken := true, volatile := false }
  let k0 : Nat := 0
  let k1 : Nat := 0
  let z : Chip := { now := s.chip.now, fw := {s.chip.fw with queue := []}, lbs := s.chip.lbs, sap := s.chip.sap }
  let s : State := { s with chip := z }
  let s := putReq s ch.val 0x0480 [2, k0 % 40 + (k1 % 48) * 65536, 40 + k1 % 8 + 2 ^ 31]
  let s := on s (fun c => (((((c).wr (REF_PLANE_CFG_FORMAT 0) 14).wr (REF_PLANE_STAT_STATE 0) 2).wr (REF_PLANE_STAT_STATE 1) 2).setPlane 0 { c.plane 0 with nextB := 60000000, counted := true, left := true }).wr TOP_ROLE_ROLE 0)
  let r := parseReq s.mem ch.val
  let h : Hist := {h with chan := ch.val, seq := 77, opcode := r.opcode, len := r.len, resp := {h.resp with flags := 0}}
  let s := on s (fun c => {c with fw := {c.fw with hist := [h]}})
  (s, (2 : Nat), (15 : Fin 16), ({ chan := 15, seq := 77, opcode := 1152, flags := 0, len := 12, epoch := 0, payload := [2, 0, 2147483688] } : Req), ({ chan := 15, seq := 77, opcode := 1152, len := 12, resp := { status := 1, flags := 0, epoch := 1, payload := [2] }, taken := true, volatile := false } : Hist), (0 : Nat))

def wRefusedRequests3 : State × Nat × (Fin 16) × Nat :=
  let s := State.reset
  let t : Nat := 7
  let ch : Fin 16 := 1
  let k0 : Nat := 0
  let k1 : Nat := 0
  let z : Chip := { now := s.chip.now, fw := {s.chip.fw with queue := []}, lbs := s.chip.lbs, sap := s.chip.sap }
  let s : State := { s with chip := z }
  let s := putReq s ch.val 0x0480 [2, k0 % 40 + (k1 % 48) * 65536, 40 + k1 % 8 + 2 ^ 31]
  let s := on s (fun c => (((((c).wr (REF_PLANE_CFG_FORMAT 0) 14).wr (REF_PLANE_STAT_STATE 0) 2).wr (REF_PLANE_STAT_STATE 1) 2).setPlane 0 { c.plane 0 with nextB := 60000000, counted := true, left := true }).wr TOP_ROLE_ROLE 0)
  let s : State := {s with mem := s.mem.writeBytes (reqBuf ch.val + 0) (wordBytes (2 ^ 25 * (t % 3) + 5)) }
  (s, (7 : Nat), (1 : Fin 16), (0 : Nat))

def wPlainQueries0 : State × Nat × (Fin 16) × Req :=
  let s := State.reset
  let ch : Fin 16 := 5
  let s := putReq s ch.val 0x0000 [5, 6, 7]
  (s, (2 : Nat), (5 : Fin 16), ({ chan := 5, seq := 77, opcode := 0, flags := 0, len := 12, epoch := 0, payload := [5, 6, 7] } : Req))

def wPlainQueries1 : State × Nat × (Fin 16) × Req :=
  let s := State.reset
  let ch : Fin 16 := 1
  let s := putReq s ch.val 0x0001 []
  (s, (7 : Nat), (1 : Fin 16), ({ chan := 1, seq := 77, opcode := 1, flags := 0, len := 0, epoch := 0, payload := [] } : Req))

def wPlainQueries2 : State × Nat × (Fin 16) × Req :=
  let s := State.reset
  let ch : Fin 16 := 3
  let s := putReq s ch.val 0x0002 []
  (s, (2 : Nat), (3 : Fin 16), ({ chan := 3, seq := 77, opcode := 2, flags := 0, len := 0, epoch := 0, payload := [] } : Req))

def wPlainQueries3 : State × Nat × (Fin 16) × Req :=
  let s := State.reset
  let ch : Fin 16 := 3
  let s := putReq s ch.val 0x0100 []
  (s, (3 : Nat), (3 : Fin 16), ({ chan := 3, seq := 77, opcode := 256, flags := 0, len := 0, epoch := 0, payload := [] } : Req))

def wPlainQueries4 : State × Nat × (Fin 16) × Req :=
  let s := State.reset
  let ch : Fin 16 := 1
  let s := putReq s ch.val 0x0200 []
  (s, (1 : Nat), (1 : Fin 16), ({ chan := 1, seq := 77, opcode := 512, flags := 0, len := 0, epoch := 0, payload := [] } : Req))

def wPlainQueries5 : State × Nat × (Fin 16) × Req :=
  let s := State.reset
  let ch : Fin 16 := 1
  let s := putReq s ch.val 0x0300 []
  (s, (7 : Nat), (1 : Fin 16), ({ chan := 1, seq := 77, opcode := 768, flags := 0, len := 0, epoch := 0, payload := [] } : Req))

def wPlainQueries6 : State × Nat × (Fin 16) × Req :=
  let s := State.reset
  let ch : Fin 16 := 0
  let s := putReq s ch.val 0x0700 []
  (s, (0 : Nat), (0 : Fin 16), ({ chan := 0, seq := 77, opcode := 1792, flags := 0, len := 0, epoch := 0, payload := [] } : Req))

def wPlainQueries7 : State × Nat × (Fin 16) × Req :=
  let s := State.reset
  let ch : Fin 16 := 3
  let s := putReq s ch.val 0x1000 []
  (s, (0 : Nat), (3 : Fin 16), ({ chan := 3, seq := 77, opcode := 4096, flags := 0, len := 0, epoch := 0, payload := [] } : Req))

def wPlainQueries8 : State × Nat × (Fin 16) × Req :=
  let s := State.reset
  let ch : Fin 16 := 2
  let s := putReq s ch.val 0x0401 []
  (s, (1 : Nat), (2 : Fin 16), ({ chan := 2, seq := 77, opcode := 1025, flags := 0, len := 0, epoch := 0, payload := [] } : Req))

def wSelectedQueries0 : State × Nat × (Fin 16) × Req :=
  let s := State.reset
  let ch : Fin 16 := 8
  let s := putReq s ch.val 0x1100 []
  (s, (2 : Nat), (8 : Fin 16), ({ chan := 8, seq := 77, opcode := 4352, flags := 0, len := 0, epoch := 0, payload := [] } : Req))

def wSelectedQueries1 : State × Nat × (Fin 16) × Req × (List (List Nat)) :=
  let s := State.reset
  let ch : Fin 16 := 2
  let k0 : Nat := 0
  let k1 : Nat := 8614
  let s := putReq s ch.val 0x0301 [k0 % 4, 1 + k1 % 63]
  (s, (3 : Nat), (2 : Fin 16), ({ chan := 2, seq := 77, opcode := 769, flags := 0, len := 8, epoch := 0, payload := [0, 47] } : Req), ([] : List (List Nat)))

def wSelectedQueries2 : State × Nat × (Fin 16) × Req :=
  let s := State.reset
  let ch : Fin 16 := 2
  let k0 : Nat := 0
  let k1 : Nat := 1
  let s := putReq s ch.val 0x0400 [k0 % 48, 1 + k1 % 3]
  (s, (1 : Nat), (2 : Fin 16), ({ chan := 2, seq := 77, opcode := 1024, flags := 0, len := 8, epoch := 0, payload := [0, 2] } : Req))

def wSelectedQueries3 : State × Nat × (Fin 16) × Req :=
  let s := State.reset
  let ch : Fin 16 := 1
  let k0 : Nat := 0
  let k1 : Nat := 0
  let s := putReq s ch.val 0x0500 [k0 % 48, 1 + k1 % 3]
  (s, (2 : Nat), (1 : Fin 16), ({ chan := 1, seq := 77, opcode := 1280, flags := 0, len := 8, epoch := 0, payload := [0, 1] } : Req))

def wSelectedQueries4 : State × Nat × (Fin 16) × Req :=
  let s := State.reset
  let ch : Fin 16 := 1
  let k0 : Nat := 1
  let k1 : Nat := 0
  let s := putReq s ch.val 0x0600 [1, k0 % 40, 1 + k1 % 3]
  (s, (5 : Nat), (1 : Fin 16), ({ chan := 1, seq := 77, opcode := 1536, flags := 0, len := 12, epoch := 0, payload := [1, 1, 1] } : Req))

def wSelectedQueries5 : State × Nat × (Fin 16) × Req :=
  let s := State.reset
  let ch : Fin 16 := 9
  let k0 : Nat := 0
  let k1 : Nat := 1
  let s := putReq s ch.val 0x0800 [k0 % 40, 1 + k1 % 3]
  (s, (1 : Nat), (9 : Fin 16), ({ chan := 9, seq := 77, opcode := 2048, flags := 0, len := 8, epoch := 0, payload := [0, 2] } : Req))

def wSelectedQueries6 : State × Nat × (Fin 16) × Req :=
  let s := State.reset
  let ch : Fin 16 := 1
  let k0 : Nat := 2
  let k1 : Nat := 1
  let s := putReq s ch.val 0x0900 [1, k0 % 40, 1 + k1 % 3]
  (s, (6 : Nat), (1 : Fin 16), ({ chan := 1, seq := 77, opcode := 2304, flags := 0, len := 12, epoch := 0, payload := [1, 2, 2] } : Req))

def wSelectedQueries7 : State × Nat × (Fin 16) × Req :=
  let s := State.reset
  let ch : Fin 16 := 2
  let k0 : Nat := 1
  let s := putReq s ch.val 0x0A00 [k0 % 2]
  (s, (3 : Nat), (2 : Fin 16), ({ chan := 2, seq := 77, opcode := 2560, flags := 0, len := 4, epoch := 0, payload := [1] } : Req))

def wSelectedQueries8 : State × Nat × (Fin 16) × Req :=
  let s := State.reset
  let ch : Fin 16 := 2
  let k0 : Nat := 8
  let k1 : Nat := 1
  let s := putReq s ch.val 0x0B00 [1, k0 % 40, 1 + k1 % 3]
  (s, (6 : Nat), (2 : Fin 16), ({ chan := 2, seq := 77, opcode := 2816, flags := 0, len := 12, epoch := 0, payload := [1, 8, 2] } : Req))

def wSelectedQueries9 : State × Nat × (Fin 16) × Req :=
  let s := State.reset
  let ch : Fin 16 := 1
  let s := putReq s ch.val 0x0C00 [0]
  (s, (6 : Nat), (1 : Fin 16), ({ chan := 1, seq := 77, opcode := 3072, flags := 0, len := 4, epoch := 0, payload := [0] } : Req))

def wSelectedQueries10 : State × Nat × (Fin 16) × Req :=
  let s := State.reset
  let ch : Fin 16 := 7
  let k0 : Nat := 0
  let k1 : Nat := 1
  let s := putReq s ch.val 0x0D00 [k0 % 10, 1 + k1 % 3]
  (s, (6 : Nat), (7 : Fin 16), ({ chan := 7, seq := 77, opcode := 3328, flags := 0, len := 8, epoch := 0, payload := [0, 2] } : Req))

def wSelectedQueries11 : State × Nat × (Fin 16) × Req :=
  let s := State.reset
  let ch : Fin 16 := 3
  let k0 : Nat := 0
  let k1 : Nat := 4
  let s := putReq s ch.val 0x0E00 [2, k0 % 40, 1 + k1 % 3]
  (s, (7 : Nat), (3 : Fin 16), ({ chan := 3, seq := 77, opcode := 3584, flags := 0, len := 12, epoch := 0, payload := [2, 0, 2] } : Req))

def wSelectedQueries12 : State × Nat × (Fin 16) × Req :=
  let s := State.reset
  let ch : Fin 16 := 3
  let k0 : Nat := 1
  let k1 : Nat := 0
  let s := putReq s ch.val 0x0F00 [1, k0 % 2, 1 + k1 % 3]
  (s, (1 : Nat), (3 : Fin 16), ({ chan := 3, seq := 77, opcode := 3840, flags := 0, len := 12, epoch := 0, payload := [1, 1, 1] } : Req))

def wSelectorQueries0 : State × Nat × (Fin 16) × Req :=
  let s := State.reset
  let ch : Fin 16 := 3
  let k0 : Nat := 1
  let k1 : Nat := 1
  let s := putReq s ch.val 0x0600 [0, k0 % 40, 1 + k1 % 3]
  (s, (0 : Nat), (3 : Fin 16), ({ chan := 3, seq := 77, opcode := 1536, flags := 0, len := 12, epoch := 0, payload := [0, 1, 2] } : Req))

def wSelectorQueries1 : State × Nat × (Fin 16) × Req :=
  let s := State.reset
  let ch : Fin 16 := 1
  let k0 : Nat := 3
  let k1 : Nat := 1
  let s := putReq s ch.val 0x0900 [0, k0 % 40, 1 + k1 % 3]
  (s, (3 : Nat), (1 : Fin 16), ({ chan := 1, seq := 77, opcode := 2304, flags := 0, len := 12, epoch := 0, payload := [0, 3, 2] } : Req))

def wSelectorQueries2 : State × Nat × (Fin 16) × Req :=
  let s := State.reset
  let ch : Fin 16 := 3
  let k0 : Nat := 0
  let k1 : Nat := 1
  let s := putReq s ch.val 0x0900 [2, k0 % 40, 1 + k1 % 3]
  (s, (6 : Nat), (3 : Fin 16), ({ chan := 3, seq := 77, opcode := 2304, flags := 0, len := 12, epoch := 0, payload := [2, 0, 2] } : Req))

def wSelectorQueries3 : State × Nat × (Fin 16) × Req :=
  let s := State.reset
  let ch : Fin 16 := 1
  let s := on s (fun c => c.wr TOP_ROLE_ROLE 1)
  let k0 : Nat := 0
  let k1 : Nat := 1
  let s := putReq s ch.val 0x0900 [3, k0 % 40, 1 + k1 % 3]
  (s, (2 : Nat), (1 : Fin 16), ({ chan := 1, seq := 77, opcode := 2304, flags := 0, len := 12, epoch := 0, payload := [3, 0, 2] } : Req))

def wSelectorQueries4 : State × Nat × (Fin 16) × Req :=
  let s := State.reset
  let ch : Fin 16 := 3
  let k0 : Nat := 4
  let k1 : Nat := 0
  let s := putReq s ch.val 0x0B00 [0, k0 % 40, 1 + k1 % 3]
  (s, (6 : Nat), (3 : Fin 16), ({ chan := 3, seq := 77, opcode := 2816, flags := 0, len := 12, epoch := 0, payload := [0, 4, 1] } : Req))

def wSelectorQueries5 : State × Nat × (Fin 16) × Req :=
  let s := State.reset
  let ch : Fin 16 := 8
  let k0 : Nat := 1
  let s := putReq s ch.val 0x0B00 [2, k0 % 100, 0]
  (s, (5 : Nat), (8 : Fin 16), ({ chan := 8, seq := 77, opcode := 2816, flags := 0, len := 12, epoch := 0, payload := [2, 1, 0] } : Req))

def wSelectorQueries6 : State × Nat × (Fin 16) × Req :=
  let s := State.reset
  let ch : Fin 16 := 2
  let k0 : Nat := 0
  let k1 : Nat := 0
  let s := putReq s ch.val 0x0C00 [1, k0 % 40, 1 + k1 % 3]
  (s, (1 : Nat), (2 : Fin 16), ({ chan := 2, seq := 77, opcode := 3072, flags := 0, len := 12, epoch := 0, payload := [1, 0, 1] } : Req))

def wSelectorQueries7 : State × Nat × (Fin 16) × Req :=
  let s := State.reset
  let ch : Fin 16 := 1
  let k0 : Nat := 0
  let k1 : Nat := 7
  let s := putReq s ch.val 0x0C00 [2, k0 % 3, k1 % 2, 1 + k1 % 3]
  (s, (7 : Nat), (1 : Fin 16), ({ chan := 1, seq := 77, opcode := 3072, flags := 0, len := 16, epoch := 0, payload := [2, 0, 1, 2] } : Req))

def wSelectorQueries8 : State × Nat × (Fin 16) × Req :=
  let s := State.reset
  let ch : Fin 16 := 1
  let k0 : Nat := 0
  let k1 : Nat := 0
  let s := putReq s ch.val 0x0C00 [3, k0 % 40, 1 + k1 % 3]
  (s, (0 : Nat), (1 : Fin 16), ({ chan := 1, seq := 77, opcode := 3072, flags := 0, len := 12, epoch := 0, payload := [3, 0, 1] } : Req))

def wSelectorQueries9 : State × Nat × (Fin 16) × Req :=
  let s := State.reset
  let ch : Fin 16 := 0
  let s := putReq s ch.val 0x0E00 [0]
  (s, (7 : Nat), (0 : Fin 16), ({ chan := 0, seq := 77, opcode := 3584, flags := 0, len := 4, epoch := 0, payload := [0] } : Req))

def wSelectorQueries10 : State × Nat × (Fin 16) × Req :=
  let s := State.reset
  let ch : Fin 16 := 1
  let k0 : Nat := 1
  let s := putReq s ch.val 0x0E00 [1, k0 % 4]
  (s, (7 : Nat), (1 : Fin 16), ({ chan := 1, seq := 77, opcode := 3584, flags := 0, len := 8, epoch := 0, payload := [1, 1] } : Req))

def wSelectorQueries11 : State × Nat × (Fin 16) × Req :=
  let s := State.reset
  let ch : Fin 16 := 1
  let s := putReq s ch.val 0x0F00 [0]
  (s, (2 : Nat), (1 : Fin 16), ({ chan := 1, seq := 77, opcode := 3840, flags := 0, len := 4, epoch := 0, payload := [0] } : Req))

def wSelectorQueries12 : State × Nat × (Fin 16) × Req :=
  let s := State.reset
  let ch : Fin 16 := 3
  let s := putReq s ch.val 0x1101 [1]
  (s, (0 : Nat), (3 : Fin 16), ({ chan := 3, seq := 77, opcode := 4353, flags := 0, len := 4, epoch := 0, payload := [1] } : Req))

def wTopAndPowerRequests0 : State × Nat × (Fin 16) × Req :=
  let s := State.reset
  let ch : Fin 16 := 9
  let k0 : Nat := 4
  let s : State := { s with chip := s.chip.clr PWR_STATUS_MRAM_HOLD }
  let s : State := { s with chip := s.chip.wr TWN_STATE_MODE 0 }
  let s := putReq s ch.val 0x0082 [k0 % 3]
  let s := on s (fun c => {c with upd := {c.upd with refused := false}})
  (s, (6 : Nat), (9 : Fin 16), ({ chan := 9, seq := 77, opcode := 130, flags := 0, len := 4, epoch := 0, payload := [1] } : Req))

def wTopAndPowerRequests1 : State × Nat × (Fin 16) × Req × Hist :=
  let s := State.reset
  let ch : Fin 16 := 0
  let z : Chip := { now := s.chip.now, fw := {s.chip.fw with queue := []}, lbs := s.chip.lbs, sap := s.chip.sap }
  let s : State := { s with chip := z }
  let s := putReq s ch.val 0x0083 [5 * 65536 + 9]
  let s := on s (fun c => {c with fw := {c.fw with hist := [⟨5, 9, 0x480, 8, ⟨1,0,7,[]⟩, false, false⟩], queue := [⟨0, 2^30, ⟨.gen, 0, [1]⟩, 5, 9, true⟩, ⟨0, 7, ⟨.gen, 1, [1]⟩, 5, 8, true⟩]}})
  (s, (0 : Nat), (0 : Fin 16), ({ chan := 0, seq := 77, opcode := 131, flags := 0, len := 4, epoch := 0, payload := [327689] } : Req), ({ chan := 5, seq := 9, opcode := 1152, len := 8, resp := { status := 1, flags := 0, epoch := 7, payload := [] }, taken := false, volatile := false } : Hist))

def wTopAndPowerRequests2 : State × Nat × (Fin 16) × Req :=
  let s := State.reset
  let ch : Fin 16 := 3
  let k0 : Nat := 1
  let z : Chip := { now := s.chip.now, fw := {s.chip.fw with queue := []}, lbs := s.chip.lbs, sap := s.chip.sap }
  let s : State := { s with chip := z }
  let s := putReq s ch.val 0x0084 [2, 0x20000, k0 % 2 + 4, 0x140000, 1]
  (s, (7 : Nat), (3 : Fin 16), ({ chan := 3, seq := 77, opcode := 132, flags := 0, len := 20, epoch := 0, payload := [2, 131072, 5, 1310720, 1] } : Req))

def wTopAndPowerRequests3 : State × Nat × (Fin 16) × Req :=
  let s := State.reset
  let ch : Fin 16 := 5
  let k0 : Nat := 1
  let z : Chip := { now := s.chip.now, fw := {s.chip.fw with queue := []}, lbs := s.chip.lbs, sap := s.chip.sap }
  let s : State := { s with chip := z }
  let s := putReq s ch.val 0x0085 [k0 % 48 * 4]
  (s, (5 : Nat), (5 : Fin 16), ({ chan := 5, seq := 77, opcode := 133, flags := 0, len := 4, epoch := 0, payload := [4] } : Req))

def wTopAndPowerRequests4 : State × Nat × (Fin 16) × Req :=
  let s := State.reset
  let ch : Fin 16 := 3
  let k0 : Nat := 1
  let z : Chip := { now := s.chip.now, fw := {s.chip.fw with queue := []}, lbs := s.chip.lbs, sap := s.chip.sap }
  let s : State := { s with chip := z }
  let s := putReq s ch.val 0x0085 [k0 % 48 * 4 + 256]
  (s, (1 : Nat), (3 : Fin 16), ({ chan := 3, seq := 77, opcode := 133, flags := 0, len := 4, epoch := 0, payload := [260] } : Req))

def wTopAndPowerRequests5 : State × Nat × (Fin 16) × Req :=
  let s := State.reset
  let ch : Fin 16 := 8
  let k0 : Nat := 1
  let z : Chip := { now := s.chip.now, fw := {s.chip.fw with queue := []}, lbs := s.chip.lbs, sap := s.chip.sap }
  let s : State := { s with chip := z }
  let s := putReq s ch.val 0x0085 [k0 % 48 * 4 + 1]
  let s := on s (fun c => c.wr TOP_ROLE_ROLE 1)
  (s, (3 : Nat), (8 : Fin 16), ({ chan := 8, seq := 77, opcode := 133, flags := 0, len := 4, epoch := 0, payload := [5] } : Req))

def wTopAndPowerRequests6 : State × Nat × (Fin 16) × Req :=
  let s := State.reset
  let ch : Fin 16 := 1
  let k0 : Nat := 0
  let z : Chip := { now := s.chip.now, fw := {s.chip.fw with queue := []}, lbs := s.chip.lbs, sap := s.chip.sap }
  let s : State := { s with chip := z }
  let s := putReq s ch.val 0x0085 [k0 % 48 * 4 + 257]
  let s := on s (fun c => c.wr TOP_ROLE_ROLE 1)
  (s, (6 : Nat), (1 : Fin 16), ({ chan := 1, seq := 77, opcode := 133, flags := 0, len := 4, epoch := 0, payload := [257] } : Req))

def wTopAndPowerRequests7 : State × Nat × (Fin 16) × Req :=
  let s := State.reset
  let ch : Fin 16 := 2
  let k0 : Nat := 1
  let z : Chip := { now := s.chip.now, fw := {s.chip.fw with queue := []}, lbs := s.chip.lbs, sap := s.chip.sap }
  let s : State := { s with chip := z }
  let s := putReq s ch.val 0x0085 [k0 % 2 * 4 + 2]
  let s := on s (fun c => (c.wr TOP_ROLE_ROLE 1).set TWN_CFG_ENABLE)
  (s, (6 : Nat), (2 : Fin 16), ({ chan := 2, seq := 77, opcode := 133, flags := 0, len := 4, epoch := 0, payload := [6] } : Req))

def wTopAndPowerRequests8 : State × Nat × (Fin 16) × Req :=
  let s := State.reset
  let ch : Fin 16 := 3
  let k0 : Nat := 1
  let z : Chip := { now := s.chip.now, fw := {s.chip.fw with queue := []}, lbs := s.chip.lbs, sap := s.chip.sap }
  let s : State := { s with chip := z }
  let s := putReq s ch.val 0x0085 [k0 % 2 * 4 + 258]
  let s := on s (fun c => (c.wr TOP_ROLE_ROLE 1).set TWN_CFG_ENABLE)
  (s, (3 : Nat), (3 : Fin 16), ({ chan := 3, seq := 77, opcode := 133, flags := 0, len := 4, epoch := 0, payload := [262] } : Req))

def wTopAndPowerRequests9 : State × Nat × (Fin 16) × Req :=
  let s := State.reset
  let ch : Fin 16 := 0
  let k0 : Nat := 1
  let k1 : Nat := 14
  let z : Chip := { now := s.chip.now, fw := {s.chip.fw with queue := []}, lbs := s.chip.lbs, sap := s.chip.sap }
  let s : State := { s with chip := z }
  let s := putReq s ch.val 0x0085 [k0 % 8 * 4 + 3 + k1 % 2 * 256]
  (s, (7 : Nat), (0 : Fin 16), ({ chan := 0, seq := 77, opcode := 133, flags := 0, len := 4, epoch := 0, payload := [7] } : Req))

def wTopAndPowerRequests10 : State × Nat × (Fin 16) × Req :=
  let s := State.reset
  let ch : Fin 16 := 2
  let k0 : Nat := 7
  let k1 : Nat := 0
  let z : Chip := { now := s.chip.now, fw := {s.chip.fw with queue := []}, lbs := s.chip.lbs, sap := s.chip.sap }
  let s : State := { s with chip := z }
  let s := putReq s ch.val 0x0180 [2, 247 + k0 % 2 * 512, 224 + k1 % 2 * 512]
  (s, (6 : Nat), (2 : Fin 16), ({ chan := 2, seq := 77, opcode := 384, flags := 0, len := 12, epoch := 0, payload := [2, 759, 224] } : Req))

def wTopAndPowerRequests11 : State × Nat × (Fin 16) × Req :=
  let s := State.reset
  let ch : Fin 16 := 1
  let z : Chip := { now := s.chip.now, fw := {s.chip.fw with queue := []}, lbs := s.chip.lbs, sap := s.chip.sap }
  let s : State := { s with chip := z }
  let s := putReq s ch.val 0x0181 [1, 2, 0x2BC0000 + 0x2DA - 0x2BC0000 + 700 * 65536]
  (s, (0 : Nat), (1 : Fin 16), ({ chan := 1, seq := 77, opcode := 385, flags := 0, len := 12, epoch := 0, payload := [1, 2, 45875930] } : Req))

def wRequestsThatReset0 : State × Nat × (Fin 16) × Req :=
  let s := State.reset
  let ch : Fin 16 := 2
  let s : State := { s with chip := s.chip.clr PWR_STATUS_MRAM_HOLD }
  let s := putReq s ch.val 0x0080 []
  let s := on s (fun c => {c with upd := {c.upd with refused := false}})
  (s, (6 : Nat), (2 : Fin 16), ({ chan := 2, seq := 77, opcode := 128, flags := 0, len := 0, epoch := 0, payload := [] } : Req))

def wRequestsThatReset1 : State × Nat × (Fin 16) × Req :=
  let s := State.reset
  let ch : Fin 16 := 3
  let s : State := { s with chip := s.chip.clr PWR_STATUS_MRAM_HOLD }
  let s := putReq s ch.val 0x0081 []
  let s := on s (fun c => ({c with upd := {c.upd with refused := false}} : Chip).wr TWN_STATE_MODE 0)
  (s, (0 : Nat), (3 : Fin 16), ({ chan := 3, seq := 77, opcode := 129, flags := 0, len := 0, epoch := 0, payload := [] } : Req))

def wRequestsThatReset2 : State × Nat × (Fin 16) × Req :=
  let s := State.reset
  let ch : Fin 16 := 4
  let s : State := { s with chip := s.chip.clr PWR_STATUS_MRAM_HOLD }
  let s := putReq s ch.val 0x0182 []
  let s := on s (fun c => ({c with upd := {c.upd with refused := false}} : Chip).wr TWN_STATE_MODE 0)
  (s, (3000 : Nat), (4 : Fin 16), ({ chan := 4, seq := 77, opcode := 386, flags := 0, len := 0, epoch := 0, payload := [] } : Req))

def wRequestsThatReset3 : State × Nat × (Fin 16) × Req :=
  let s := State.reset
  let ch : Fin 16 := 2
  let z : Chip := { now := s.chip.now, fw := {s.chip.fw with queue := []}, lbs := s.chip.lbs, sap := s.chip.sap }
  let s : State := { s with chip := z }
  let s := putReq s ch.val 0x1182 [120]
  let s := on s (fun c => (({c with upd := {recA := none, recB := none}} : Chip).set (UPD_BANK_STAT_VERIFIED 1)))
  (s, (2 : Nat), (2 : Fin 16), ({ chan := 2, seq := 77, opcode := 4482, flags := 0, len := 4, epoch := 0, payload := [120] } : Req))

def wLongRequests0 : State × Nat × (Fin 16) × Req :=
  let s := State.reset
  let ch : Fin 16 := 8
  let z : Chip := { now := s.chip.now, fw := {s.chip.fw with queue := []}, lbs := s.chip.lbs, sap := s.chip.sap }
  let s : State := { s with chip := z }
  let s := putReq s ch.val 0x1101 [0, 1, 2, 3, 4, 5, 6, 7, 8]
  (s, (2 : Nat), (8 : Fin 16), ({ chan := 8, seq := 77, opcode := 4353, flags := 0, len := 36, epoch := 0, payload := [0, 1, 2, 3, 4, 5, 6, 7, 8] } : Req))

def wLongRequests1 : State × Nat × (Fin 16) × Req :=
  let s := State.reset
  let ch : Fin 16 := 3
  let z : Chip := { now := s.chip.now, fw := {s.chip.fw with queue := []}, lbs := s.chip.lbs, sap := s.chip.sap }
  let s : State := { s with chip := z }
  let s := putReq s ch.val 0x1180 [1, 0, 640, 64, 0, 128, 0]
  let s := on s (fun c => (({c with upd := {recA := none, recB := none, pkgs := [none, none]}} : Chip).clr UPD_STATE_BUSY))
  (s, (1 : Nat), (3 : Fin 16), ({ chan := 3, seq := 77, opcode := 4480, flags := 0, len := 28, epoch := 0, payload := [1, 0, 640, 64, 0, 128, 0] } : Req))

def wLongRequests2 : State × Nat × (Fin 16) × Req :=
  let s := State.reset
  let ch : Fin 16 := 1
  let z : Chip := { now := s.chip.now, fw := {s.chip.fw with queue := []}, lbs := s.chip.lbs, sap := s.chip.sap }
  let s : State := { s with chip := z }
  let s := putReq s ch.val 0x1181 []
  let s := on s (fun c => (({c with upd := {recA := none, recB := none}} : Chip).clr UPD_STATE_BUSY))
  (s, (2 : Nat), (1 : Fin 16), ({ chan := 1, seq := 77, opcode := 4481, flags := 0, len := 0, epoch := 0, payload := [] } : Req))

def wLongRequests3 : State × Nat × (Fin 16) × Req :=
  let s := State.reset
  let ch : Fin 16 := 3
  let z : Chip := { now := s.chip.now, fw := {s.chip.fw with queue := []}, lbs := s.chip.lbs, sap := s.chip.sap }
  let s : State := { s with chip := z }
  let s := putReq s ch.val 0x1183 []
  let s := on s (fun c => (({c with upd := {recA := some {trial := true, seq := 4}, recB := none, pkgs := [none, none]}} : Chip).set UPD_STATE_SELF_CHECK_PASSED))
  (s, (5 : Nat), (3 : Fin 16), ({ chan := 3, seq := 77, opcode := 4483, flags := 0, len := 0, epoch := 0, payload := [] } : Req))

def wLongRequests4 : State × Nat × (Fin 16) × Req :=
  let s := State.reset
  let ch : Fin 16 := 0
  let z : Chip := { now := s.chip.now, fw := {s.chip.fw with queue := []}, lbs := s.chip.lbs, sap := s.chip.sap }
  let s : State := { s with chip := z }
  let s := putReq s ch.val 0x1183 []
  let s := on s (fun c => (({c with upd := {recA := none, recB := none, pkgs := [none, none]}} : Chip).set UPD_STATE_SELF_CHECK_PASSED))
  (s, (6 : Nat), (0 : Fin 16), ({ chan := 0, seq := 77, opcode := 4483, flags := 0, len := 0, epoch := 0, payload := [] } : Req))

def wLongRequests5 : State × Nat × (Fin 16) × Req :=
  let s := State.reset
  let ch : Fin 16 := 3
  let k0 : Nat := 1
  let z : Chip := { now := s.chip.now, fw := {s.chip.fw with queue := []}, lbs := s.chip.lbs, sap := s.chip.sap }
  let s : State := { s with chip := z }
  let s := putReq s ch.val 0x0E82 [k0 % 4, 7, 0, 4 + 4 * 65536, 0, 0, 1024, 0]
  let s := on s (fun c => (c.each (List.range 4) fun c h => c.put (MVC_HEAD_CTL h) (1 + 14 * 4 + 4 * 128)).each (List.range 4) fun c h => c.put (MVC_GL_SIZE h 0) (64 + 64 * 65536))
  (s, (7 : Nat), (3 : Fin 16), ({ chan := 3, seq := 77, opcode := 3714, flags := 0, len := 32, epoch := 0, payload := [1, 7, 0, 262148, 0, 0, 1024, 0] } : Req))

def wHandoverRequest0 : State × Nat × (Fin 16) × Req :=
  let s := State.reset
  let ch : Fin 16 := 8
  let s : State := { s with chip := s.chip.clr PWR_STATUS_MRAM_HOLD }
  let s := putReq s ch.val 0x0F80 []
  let s := on s (fun c => (({c with twn := {c.twn with peerStep := true, handover := none}, upd := {c.upd with refused := false}} : Chip).wr TWN_STATE_MODE 1))
  (s, (1 : Nat), (8 : Fin 16), ({ chan := 8, seq := 77, opcode := 3968, flags := 0, len := 0, epoch := 0, payload := [] } : Req))

def wSettingRequests0 : State × Nat × (Fin 16) × Req :=
  let s := State.reset
  let ch : Fin 16 := 1
  let k0 : Nat := 1
  let k1 : Nat := 10
  let z : Chip := { now := s.chip.now, fw := {s.chip.fw with queue := []}, lbs := s.chip.lbs, sap := s.chip.sap }
  let s : State := { s with chip := z }
  let s := putReq s ch.val 0x0280 [k0 % 4, 100 + 300 * 65536, k1 % 5, k1, k0]
  (s, (0 : Nat), (1 : Fin 16), ({ chan := 1, seq := 77, opcode := 640, flags := 0, len := 20, epoch := 0, payload := [1, 19660900, 0, 10, 1] } : Req))

def wSettingRequests1 : State × Nat × (Fin 16) × Req :=
  let s := State.reset
  let ch : Fin 16 := 0
  let k0 : Nat := 1
  let k1 : Nat := 2
  let z : Chip := { now := s.chip.now, fw := {s.chip.fw with queue := []}, lbs := s.chip.lbs, sap := s.chip.sap }
  let s : State := { s with chip := z }
  let s := putReq s ch.val 0x0281 [k0 % 2 + (k1 % 2) * 64 + k0 % 24 * 2 + 5 * 65536, 100 + 100 * 65536]
  (s, (6 : Nat), (0 : Fin 16), ({ chan := 0, seq := 77, opcode := 641, flags := 0, len := 8, epoch := 0, payload := [327683, 6553700] } : Req))

def wSettingRequests2 : State × Nat × (Fin 16) × Req :=
  let s := State.reset
  let ch : Fin 16 := 7
  let k0 : Nat := 0
  let k1 : Nat := 4
  let z : Chip := { now := s.chip.now, fw := {s.chip.fw with queue := []}, lbs := s.chip.lbs, sap := s.chip.sap }
  let s : State := { s with chip := z }
  let s := putReq s ch.val 0x0380 [k0 % 4, k1 % 128 + 14 * 4096 + 3 * 65536, 5000]
  (s, (0 : Nat), (7 : Fin 16), ({ chan := 7, seq := 77, opcode := 896, flags := 0, len := 12, epoch := 0, payload := [0, 253956, 5000] } : Req))

def wSettingRequests3 : State × Nat × (Fin 16) × Req :=
  let s := State.reset
  let ch : Fin 16 := 0
  let k0 : Nat := 0
  let k1 : Nat := 2
  let z : Chip := { now := s.chip.now, fw := {s.chip.fw with queue := []}, lbs := s.chip.lbs, sap := s.chip.sap }
  let s : State := { s with chip := z }
  let s := putReq s ch.val 0x0580 [2, k0 % 48 + k1 % 4 * 512, 240 + k1 % 2 * 1024]
  (s, (7 : Nat), (0 : Fin 16), ({ chan := 0, seq := 77, opcode := 1408, flags := 0, len := 12, epoch := 0, payload := [2, 1024, 240] } : Req))

def wSettingRequests4 : State × Nat × (Fin 16) × Req :=
  let s := State.reset
  let ch : Fin 16 := 2
  let k0 : Nat := 1
  let k1 : Nat := 0
  let z : Chip := { now := s.chip.now, fw := {s.chip.fw with queue := []}, lbs := s.chip.lbs, sap := s.chip.sap }
  let s : State := { s with chip := z }
  let s := putReq s ch.val 0x0780 [k0 % 8 + 256, (1 + 5 * 256 + 9 * 65536) * (k1 % 2)]
  let s := on s (fun c => c.each (List.range 8) fun c n => c.wr (DMC_CH_STAT_STATE n) 5)
  (s, (7 : Nat), (2 : Fin 16), ({ chan := 2, seq := 77, opcode := 1920, flags := 0, len := 8, epoch := 0, payload := [257, 0] } : Req))

def wSettingRequests5 : State × Nat × (Fin 16) × Req :=
  let s := State.reset
  let ch : Fin 16 := 2
  let k0 : Nat := 1
  let k1 : Nat := 0
  let z : Chip := { now := s.chip.now, fw := {s.chip.fw with queue := []}, lbs := s.chip.lbs, sap := s.chip.sap }
  let s : State := { s with chip := z }
  let s := putReq s ch.val 0x0780 [k0 % 8, (1 + 5 * 256 + 9 * 65536) * (k1 % 2)]
  (s, (7 : Nat), (2 : Fin 16), ({ chan := 2, seq := 77, opcode := 1920, flags := 0, len := 8, epoch := 0, payload := [1, 0] } : Req))

def wSettingRequests6 : State × Nat × (Fin 16) × Req :=
  let s := State.reset
  let ch : Fin 16 := 3
  let k0 : Nat := 1
  let k1 : Nat := 0
  let z : Chip := { now := s.chip.now, fw := {s.chip.fw with queue := []}, lbs := s.chip.lbs, sap := s.chip.sap }
  let s : State := { s with chip := z }
  let s := putReq s ch.val 0x0880 [2, k0 % 12 * 4 + 3 * 64 + 512, (k0 + 5) % 12 * 4 + k1 % 6 * 64]
  (s, (0 : Nat), (3 : Fin 16), ({ chan := 3, seq := 77, opcode := 2176, flags := 0, len := 12, epoch := 0, payload := [2, 708, 24] } : Req))

def wSettingRequests7 : State × Nat × (Fin 16) × Req :=
  let s := State.reset
  let ch : Fin 16 := 0
  let k0 : Nat := 0
  let k1 : Nat := 4
  let z : Chip := { now := s.chip.now, fw := {s.chip.fw with queue := []}, lbs := s.chip.lbs, sap := s.chip.sap }
  let s : State := { s with chip := z }
  let s := putReq s ch.val 0x0881 [2, k0 % 12 * 4 + 3 * 2048 + 512, ((k0 + 5) % 12 * 4 + 1) + k1 % 3 * 32768]
  (s, (5 : Nat), (0 : Fin 16), ({ chan := 0, seq := 77, opcode := 2177, flags := 0, len := 12, epoch := 0, payload := [2, 6656, 32789] } : Req))

def wSettingRequests8 : State × Nat × (Fin 16) × Req × (List LinkEntry) :=
  let s := State.reset
  let ch : Fin 16 := 15
  let k0 : Nat := 1
  let z : Chip := { now := s.chip.now, fw := {s.chip.fw with queue := []}, lbs := s.chip.lbs, sap := s.chip.sap }
  let s : State := { s with chip := z }
  let s := putReq s ch.val 0x0980 [77, 1, k0 % 48 + 64, 9 + 5 * 2 ^ 24, k0 % 48 + 2 * 2 ^ 17 + 2 ^ 23]
  let s := on s (fun c => c.wr TOP_ROLE_ROLE 1)
  (s, (7 : Nat), (15 : Fin 16), ({ chan := 15, seq := 77, opcode := 2432, flags := 0, len := 20, epoch := 0, payload := [77, 1, 65, 83886089, 8650753] } : Req), ([(65, 83886089, [8650753])] : List LinkEntry))

def wSettingRequests9 : State × Nat × (Fin 16) × Req :=
  let s := State.reset
  let ch : Fin 16 := 11
  let k0 : Nat := 0
  let k1 : Nat := 0
  let z : Chip := { now := s.chip.now, fw := {s.chip.fw with queue := []}, lbs := s.chip.lbs, sap := s.chip.sap }
  let s : State := { s with chip := z }
  let s := putReq s ch.val 0x0982 [5 + k0 % 3 * 64 + k1 % 8 * 256 + k0 % 8 * 4096]
  let s := on s (fun c => ((c.wr TOP_ROLE_ROLE 1).wr (PWR_DOM_CTL_CUR (domFabRx 5)) 0).wr (PWR_DOM_CTL_CUR (domFabTx 5)) 0)
  (s, (7 : Nat), (11 : Fin 16), ({ chan := 11, seq := 77, opcode := 2434, flags := 0, len := 4, epoch := 0, payload := [5] } : Req))

def wSettingRequests10 : State × Nat × (Fin 16) × Req :=
  let s := State.reset
  let ch : Fin 16 := 1
  let k0 : Nat := 0
  let k1 : Nat := 0
  let z : Chip := { now := s.chip.now, fw := {s.chip.fw with queue := []}, lbs := s.chip.lbs, sap := s.chip.sap }
  let s : State := { s with chip := z }
  let s := putReq s ch.val 0x0A80 [k0 % 2 + 2 + (1 + k1 % 2) * 4 + k1 % 64 * 32 + 1600 * 2048, 6, 7]
  (s, (5 : Nat), (1 : Fin 16), ({ chan := 1, seq := 77, opcode := 2688, flags := 0, len := 12, epoch := 0, payload := [3276806, 6, 7] } : Req))

def wSettingRequests11 : State × Nat × (Fin 16) × Req :=
  let s := State.reset
  let ch : Fin 16 := 3
  let k0 : Nat := 0
  let z : Chip := { now := s.chip.now, fw := {s.chip.fw with queue := []}, lbs := s.chip.lbs, sap := s.chip.sap }
  let s : State := { s with chip := z }
  let s := putReq s ch.val 0x0A81 [k0 % 2 + 2 + 2 * 4, 800, 0, 0, 255 + 50 * 256, 3 + 50 * 256]
  (s, (1 : Nat), (3 : Fin 16), ({ chan := 3, seq := 77, opcode := 2689, flags := 0, len := 24, epoch := 0, payload := [10, 800, 0, 0, 13055, 12803] } : Req))

def wSettingRequests12 : State × Nat × (Fin 16) × Req :=
  let s := State.reset
  let ch : Fin 16 := 1
  let k0 : Nat := 1
  let z : Chip := { now := s.chip.now, fw := {s.chip.fw with queue := []}, lbs := s.chip.lbs, sap := s.chip.sap }
  let s : State := { s with chip := z }
  let s := putReq s ch.val 0x0B80 [k0 % 32 + 3 * 1024 + 14 * 16384, 0, 0xEF000001, 9, 5000, 0, 0, 0]
  let s := on s (fun c => (c.each [192, 193, 194, 195, 196, 197, 198, 199, 200, 201, 202, 203, 204, 205, 206, 207, 220, 221, 222, 223, 240, 241, 246] fun c n => c.wr (PWR_DOM_CTL_CUR n) 0).each (List.range 8) fun c n => (c.wr (DMC_CH_STAT_STATE n) chActive).wr (DMC_CH_DIMM_SIZE_GIB n) 16)
  (s, (6 : Nat), (1 : Fin 16), ({ chan := 1, seq := 77, opcode := 2944, flags := 0, len := 32, epoch := 0, payload := [232449, 0, 4009754625, 9, 5000, 0, 0, 0] } : Req))

def wSettingRequests13 : State × Nat × (Fin 16) × Req :=
  let s := State.reset
  let ch : Fin 16 := 3
  let k0 : Nat := 1
  let z : Chip := { now := s.chip.now, fw := {s.chip.fw with queue := []}, lbs := s.chip.lbs, sap := s.chip.sap }
  let s : State := { s with chip := z }
  let s := putReq s ch.val 0x0B81 [k0 % 112]
  let s := on s (fun c => c.put (NET_RXF_CTL 3) 1)
  (s, (1 : Nat), (3 : Fin 16), ({ chan := 3, seq := 77, opcode := 2945, flags := 0, len := 4, epoch := 0, payload := [1] } : Req))

def wSettingRequests14 : State × Nat × (Fin 16) × Req :=
  let s := State.reset
  let ch : Fin 16 := 2
  let k0 : Nat := 0
  let k1 : Nat := 1
  let z : Chip := { now := s.chip.now, fw := {s.chip.fw with queue := []}, lbs := s.chip.lbs, sap := s.chip.sap }
  let s : State := { s with chip := z }
  let s := putReq s ch.val 0x0D80 [2 + 256, 8, 1, k0 % 16 + k1 % 2 * 32 + 16 * 1024, (k0 + 3) % 16 + 24 * 1024]
  (s, (3 : Nat), (2 : Fin 16), ({ chan := 2, seq := 77, opcode := 3456, flags := 0, len := 20, epoch := 0, payload := [258, 8, 1, 16416, 24579] } : Req))

def wSettingRequests15 : State × Nat × (Fin 16) × Req :=
  let s := State.reset
  let ch : Fin 16 := 6
  let k0 : Nat := 0
  let k1 : Nat := 1
  let z : Chip := { now := s.chip.now, fw := {s.chip.fw with queue := []}, lbs := s.chip.lbs, sap := s.chip.sap }
  let s : State := { s with chip := z }
  let s := putReq s ch.val 0x0D80 [2 + 256, 8, 1, k0 % 16 + k1 % 2 * 32 + 16 * 1024, (k0 + 3) % 16 + 24 * 1024]
  let s := on s (fun c => ((c.wr (PWR_DOM_CTL_CUR domAud) 0).wr (REF_PLANE_CFG_FORMAT 0) 14).setPlane 0 { c.plane 0 with counted := true })
  (s, (3 : Nat), (6 : Fin 16), ({ chan := 6, seq := 77, opcode := 3456, flags := 0, len := 20, epoch := 0, payload := [258, 8, 1, 16416, 24579] } : Req))

def wSettingRequests16 : State × Nat × (Fin 16) × Req :=
  let s := State.reset
  let ch : Fin 16 := 3
  let k0 : Nat := 0
  let z : Chip := { now := s.chip.now, fw := {s.chip.fw with queue := []}, lbs := s.chip.lbs, sap := s.chip.sap }
  let s : State := { s with chip := z }
  let s := putReq s ch.val 0x0E80 [1, k0 % 4 + 4 + 14 * 16]
  let s := on s (fun c => ((c.each [192, 193, 194, 195, 196, 197, 198, 199, 200, 201, 202, 203, 204, 205, 206, 207, 220, 221, 222, 223, 240, 241, 246] fun c n => c.wr (PWR_DOM_CTL_CUR n) 0).wr (REF_PLANE_CFG_FORMAT 0) 14).each (List.range 8) fun c n => (c.wr (DMC_CH_STAT_STATE n) chActive).wr (DMC_CH_DIMM_SIZE_GIB n) 16)
  (s, (7 : Nat), (3 : Fin 16), ({ chan := 3, seq := 77, opcode := 3712, flags := 0, len := 8, epoch := 0, payload := [1, 228] } : Req))

def wSettingRequests17 : State × Nat × (Fin 16) × Req :=
  let s := State.reset
  let ch : Fin 16 := 6
  let k0 : Nat := 6702
  let z : Chip := { now := s.chip.now, fw := {s.chip.fw with queue := []}, lbs := s.chip.lbs, sap := s.chip.sap }
  let s : State := { s with chip := z }
  let s := putReq s ch.val 0x0F81 [k0 % 4, 2 * 2 ^ 17 + 2 ^ 23, 1 + 2 * 2 ^ 17 + 2 ^ 23]
  let s := on s (fun c => {c with twn := {c.twn with paired := false}})
  (s, (7 : Nat), (6 : Fin 16), ({ chan := 6, seq := 77, opcode := 3969, flags := 0, len := 12, epoch := 0, payload := [2, 8650752, 8650753] } : Req))

def wSettingRequests18 : State × Nat × (Fin 16) × Req :=
  let s := State.reset
  let ch : Fin 16 := 0
  let k0 : Nat := 1
  let z : Chip := { now := s.chip.now, fw := {s.chip.fw with queue := []}, lbs := s.chip.lbs, sap := s.chip.sap }
  let s : State := { s with chip := z }
  let s := putReq s ch.val 0x1080 [k0 % 2]
  (s, (5 : Nat), (0 : Fin 16), ({ chan := 0, seq := 77, opcode := 4224, flags := 0, len := 4, epoch := 0, payload := [1] } : Req))

def wEpochRequests0 : State × Nat × (Fin 16) × Req × Nat :=
  let s := State.reset
  let ch : Fin 16 := 1
  let k0 : Nat := 1
  let k1 : Nat := 0
  let z : Chip := { now := s.chip.now, fw := {s.chip.fw with queue := []}, lbs := s.chip.lbs, sap := s.chip.sap }
  let s : State := { s with chip := z }
  let s := putReq s ch.val 0x0480 [2, k0 % 40 + (k1 % 48) * 65536, 40 + k1 % 8 + 2 ^ 31]
  let s := on s (fun c => (((((c).wr (REF_PLANE_CFG_FORMAT 0) 14).wr (REF_PLANE_STAT_STATE 0) 2).wr (REF_PLANE_STAT_STATE 1) 2).setPlane 0 { c.plane 0 with nextB := 60000000, counted := true, left := true }).wr TOP_ROLE_ROLE 0)
  (s, (7 : Nat), (1 : Fin 16), ({ chan := 1, seq := 77, opcode := 1152, flags := 0, len := 12, epoch := 0, payload := [2, 1, 2147483688] } : Req), (1 : Nat))

def wEpochRequests1 : State × Nat × (Fin 16) × Req × Nat × Nat :=
  let s := State.reset
  let ch : Fin 16 := 7
  let k0 : Nat := 0
  let k1 : Nat := 3
  let z : Chip := { now := s.chip.now, fw := {s.chip.fw with queue := []}, lbs := s.chip.lbs, sap := s.chip.sap }
  let s : State := { s with chip := z }
  let s := putReq s ch.val 0x0481 [0, 0, 2, k0 % 40 + (k1 % 48) * 65536, 40 + k1 % 8 + 2 ^ 31]
  let s := on s (fun c => (((((c).wr (REF_PLANE_CFG_FORMAT 0) 14).wr (REF_PLANE_STAT_STATE 0) 2).wr (REF_PLANE_STAT_STATE 1) 2).setPlane 0 { c.plane 0 with nextB := 60000000, counted := true, left := true }).wr TOP_ROLE_ROLE 0)
  (s, (3 : Nat), (7 : Fin 16), ({ chan := 7, seq := 77, opcode := 1153, flags := 0, len := 20, epoch := 0, payload := [0, 0, 2, 196608, 2147483691] } : Req), (1 : Nat), (0 : Nat))

def wEpochRequests2 : State × Nat × (Fin 16) × Req × Nat :=
  let s := State.reset
  let ch : Fin 16 := 0
  let k0 : Nat := 0
  let z : Chip := { now := s.chip.now, fw := {s.chip.fw with queue := []}, lbs := s.chip.lbs, sap := s.chip.sap }
  let s : State := { s with chip := z }
  let s := putReq s ch.val 0x0482 [1, k0 % 40 + 1024]
  let s := on s (fun c => (((((c).wr (REF_PLANE_CFG_FORMAT 0) 14).wr (REF_PLANE_STAT_STATE 0) 2).wr (REF_PLANE_STAT_STATE 1) 2).setPlane 0 { c.plane 0 with nextB := 60000000, counted := true, left := true }).wr TOP_ROLE_ROLE 0)
  (s, (7 : Nat), (0 : Fin 16), ({ chan := 0, seq := 77, opcode := 1154, flags := 0, len := 8, epoch := 0, payload := [1, 1024] } : Req), (1 : Nat))

def wEpochRequests3 : State × Nat × (Fin 16) × Req × Nat :=
  let s := State.reset
  let ch : Fin 16 := 2
  let k0 : Nat := 7
  let k1 : Nat := 1
  let z : Chip := { now := s.chip.now, fw := {s.chip.fw with queue := []}, lbs := s.chip.lbs, sap := s.chip.sap }
  let s : State := { s with chip := z }
  let s := putReq s ch.val 0x0483 [k0 % 8 + 512 + 14 * 65536 + 4 * 2 ^ 24, k1]
  let s := on s (fun c => (((((c).wr (REF_PLANE_CFG_FORMAT 0) 14).wr (REF_PLANE_STAT_STATE 0) 2).wr (REF_PLANE_STAT_STATE 1) 2).setPlane 0 { c.plane 0 with nextB := 60000000, counted := true, left := true }).wr TOP_ROLE_ROLE 0)
  (s, (2 : Nat), (2 : Fin 16), ({ chan := 2, seq := 77, opcode := 1155, flags := 0, len := 8, epoch := 0, payload := [68026887, 1] } : Req), (1 : Nat))

def wEpochRequests4 : State × Nat × (Fin 16) × Req × Nat :=
  let s := State.reset
  let ch : Fin 16 := 1
  let k0 : Nat := 1
  let z : Chip := { now := s.chip.now, fw := {s.chip.fw with queue := []}, lbs := s.chip.lbs, sap := s.chip.sap }
  let s : State := { s with chip := z }
  let s := putReq s ch.val 0x0680 [1, k0 % 48, 0]
  let s := on s (fun c => (((((c).wr (REF_PLANE_CFG_FORMAT 0) 14).wr (REF_PLANE_STAT_STATE 0) 2).wr (REF_PLANE_STAT_STATE 1) 2).setPlane 0 { c.plane 0 with nextB := 60000000, counted := true, left := true }).wr TOP_ROLE_ROLE 0)
  (s, (7 : Nat), (1 : Fin 16), ({ chan := 1, seq := 77, opcode := 1664, flags := 0, len := 12, epoch := 0, payload := [1, 1, 0] } : Req), (1 : Nat))

def wEpochRequests5 : State × Nat × (Fin 16) × Req × Nat :=
  let s := State.reset
  let ch : Fin 16 := 1
  let k0 : Nat := 0
  let z : Chip := { now := s.chip.now, fw := {s.chip.fw with queue := []}, lbs := s.chip.lbs, sap := s.chip.sap }
  let s : State := { s with chip := z }
  let s := putReq s ch.val 0x0681 [1, k0 % 48, 0]
  let s := on s (fun c => (((((c).wr (REF_PLANE_CFG_FORMAT 0) 14).wr (REF_PLANE_STAT_STATE 0) 2).wr (REF_PLANE_STAT_STATE 1) 2).setPlane 0 { c.plane 0 with nextB := 60000000, counted := true, left := true }).wr TOP_ROLE_ROLE 0)
  (s, (2 : Nat), (1 : Fin 16), ({ chan := 1, seq := 77, opcode := 1665, flags := 0, len := 12, epoch := 0, payload := [1, 0, 0] } : Req), (1 : Nat))

def wEpochRequests6 : State × Nat × (Fin 16) × Req × Nat :=
  let s := State.reset
  let ch : Fin 16 := 3
  let k0 : Nat := 9
  let z : Chip := { now := s.chip.now, fw := {s.chip.fw with queue := []}, lbs := s.chip.lbs, sap := s.chip.sap }
  let s : State := { s with chip := z }
  let s := putReq s ch.val 0x0981 [1, k0 % 96 + 256 + 512 + 3 * 1024]
  let s := on s (fun c => (((((c).wr (REF_PLANE_CFG_FORMAT 0) 14).wr (REF_PLANE_STAT_STATE 0) 2).wr (REF_PLANE_STAT_STATE 1) 2).setPlane 0 { c.plane 0 with nextB := 60000000, counted := true, left := true }).wr TOP_ROLE_ROLE 1)
  (s, (2 : Nat), (3 : Fin 16), ({ chan := 3, seq := 77, opcode := 2433, flags := 0, len := 8, epoch := 0, payload := [1, 3849] } : Req), (1 : Nat))

def wEpochRequests7 : State × Nat × (Fin 16) × Req × Nat :=
  let s := State.reset
  let ch : Fin 16 := 5
  let k0 : Nat := 154
  let z : Chip := { now := s.chip.now, fw := {s.chip.fw with queue := []}, lbs := s.chip.lbs, sap := s.chip.sap }
  let s : State := { s with chip := z }
  let s := putReq s ch.val 0x0B82 [1, k0 % 32 + 128, 0, 96, 0, 0xEF000001, 5000, 0, 0, 0, 0]
  let s := on s (fun c => (((((c).wr (REF_PLANE_CFG_FORMAT 0) 14).wr (REF_PLANE_STAT_STATE 0) 2).wr (REF_PLANE_STAT_STATE 1) 2).setPlane 0 { c.plane 0 with nextB := 60000000, counted := true, left := true }).wr TOP_ROLE_ROLE 0)
  (s, (2 : Nat), (5 : Fin 16), ({ chan := 5, seq := 77, opcode := 2946, flags := 0, len := 44, epoch := 0, payload := [1, 154, 0, 96, 0, 4009754625, 5000, 0, 0, 0, 0] } : Req), (1 : Nat))

def wEpochRequests8 : State × Nat × (Fin 16) × Req × Nat × Nat :=
  let s := State.reset
  let ch : Fin 16 := 3
  let k0 : Nat := 0
  let k1 : Nat := 0
  let z : Chip := { now := s.chip.now, fw := {s.chip.fw with queue := []}, lbs := s.chip.lbs, sap := s.chip.sap }
  let s : State := { s with chip := z }
  let s := putReq s ch.val 0x0C80 [0, 0, 1, k0 % 400, k1 % 100 + 2 ^ 14]
  let s := on s (fun c => (((((c.each [192, 193, 194, 195, 196, 197, 198, 199, 200, 201, 202, 203, 204, 205, 206, 207, 220, 221, 222, 223, 240, 241, 246] fun c n => c.wr (PWR_DOM_CTL_CUR n) 0).wr (REF_PLANE_CFG_FORMAT 0) 14).wr (REF_PLANE_STAT_STATE 0) 2).wr (REF_PLANE_STAT_STATE 1) 2).setPlane 0 { c.plane 0 with nextB := 60000000, counted := true, left := true }).wr TOP_ROLE_ROLE 0)
  (s, (0 : Nat), (3 : Fin 16), ({ chan := 3, seq := 77, opcode := 3200, flags := 0, len := 20, epoch := 0, payload := [0, 0, 1, 0, 16384] } : Req), (1 : Nat), (0 : Nat))

def wEpochRequests9 : State × Nat × (Fin 16) × Req × Nat :=
  let s := State.reset
  let ch : Fin 16 := 1
  let k0 : Nat := 0
  let k1 : Nat := 0
  let z : Chip := { now := s.chip.now, fw := {s.chip.fw with queue := []}, lbs := s.chip.lbs, sap := s.chip.sap }
  let s : State := { s with chip := z }
  let s := putReq s ch.val 0x0C81 [1, k0 % 4, k0 % 400 + k1 % 400 * 65536, k1]
  let s := on s (fun c => (((((c.each [192, 193, 194, 195, 196, 197, 198, 199, 200, 201, 202, 203, 204, 205, 206, 207, 220, 221, 222, 223, 240, 241, 246] fun c n => c.wr (PWR_DOM_CTL_CUR n) 0).wr (REF_PLANE_CFG_FORMAT 0) 14).wr (REF_PLANE_STAT_STATE 0) 2).wr (REF_PLANE_STAT_STATE 1) 2).setPlane 0 { c.plane 0 with nextB := 60000000, counted := true, left := true }).wr TOP_ROLE_ROLE 0)
  (s, (2 : Nat), (1 : Fin 16), ({ chan := 1, seq := 77, opcode := 3201, flags := 0, len := 16, epoch := 0, payload := [1, 0, 0, 0] } : Req), (1 : Nat))

def wEpochRequests10 : State × Nat × (Fin 16) × Req × Nat :=
  let s := State.reset
  let ch : Fin 16 := 8
  let k0 : Nat := 1
  let k1 : Nat := 0
  let z : Chip := { now := s.chip.now, fw := {s.chip.fw with queue := []}, lbs := s.chip.lbs, sap := s.chip.sap }
  let s : State := { s with chip := z }
  let s := putReq s ch.val 0x0C82 [1, k0 % 400 + k1 % 5 * 1024]
  let s := on s (fun c => (((((c.each [192, 193, 194, 195, 196, 197, 198, 199, 200, 201, 202, 203, 204, 205, 206, 207, 220, 221, 222, 223, 240, 241, 246] fun c n => c.wr (PWR_DOM_CTL_CUR n) 0).wr (REF_PLANE_CFG_FORMAT 0) 14).wr (REF_PLANE_STAT_STATE 0) 2).wr (REF_PLANE_STAT_STATE 1) 2).setPlane 0 { c.plane 0 with nextB := 60000000, counted := true, left := true }).wr TOP_ROLE_ROLE 0)
  (s, (3 : Nat), (8 : Fin 16), ({ chan := 8, seq := 77, opcode := 3202, flags := 0, len := 8, epoch := 0, payload := [1, 1] } : Req), (1 : Nat))

def wEpochRequests11 : State × Nat × (Fin 16) × Req × Nat :=
  let s := State.reset
  let ch : Fin 16 := 3
  let k0 : Nat := 4
  let z : Chip := { now := s.chip.now, fw := {s.chip.fw with queue := []}, lbs := s.chip.lbs, sap := s.chip.sap }
  let s : State := { s with chip := z }
  let s := putReq s ch.val 0x0E81 [1, k0 % 4 + 2 ^ 30, 0, 0]
  let s := on s (fun c => ((((((c).wr (REF_PLANE_CFG_FORMAT 0) 14).wr (REF_PLANE_STAT_STATE 0) 2).wr (REF_PLANE_STAT_STATE 1) 2).setPlane 0 { c.plane 0 with nextB := 60000000, counted := true, left := true }).wr TOP_ROLE_ROLE 0).each (List.range 4) fun c h => c.put (MVC_HEAD_CTL h) (1 + 14 * 4 + 4 * 128))
  (s, (0 : Nat), (3 : Fin 16), ({ chan := 3, seq := 77, opcode := 3713, flags := 0, len := 16, epoch := 0, payload := [1, 1073741824, 0, 0] } : Req), (1 : Nat))

def wEpochRequests12 : State × Nat × (Fin 16) × Req × Nat :=
  let s := State.reset
  let ch : Fin 16 := 2
  let k0 : Nat := 2
  let k1 : Nat := 1
  let z : Chip := { now := s.chip.now, fw := {s.chip.fw with queue := []}, lbs := s.chip.lbs, sap := s.chip.sap }
  let s : State := { s with chip := z }
  let s := putReq s ch.val 0x0E83 [1, k0 % 4 + k1 % 100 * 65536]
  let s := on s (fun c => ((((((c).wr (REF_PLANE_CFG_FORMAT 0) 14).wr (REF_PLANE_STAT_STATE 0) 2).wr (REF_PLANE_STAT_STATE 1) 2).setPlane 0 { c.plane 0 with nextB := 60000000, counted := true, left := true }).wr TOP_ROLE_ROLE 0).each (List.range 4) fun c h => c.put (MVC_HEAD_CTL h) (1 + 14 * 4 + 4 * 128))
  (s, (6 : Nat), (2 : Fin 16), ({ chan := 2, seq := 77, opcode := 3715, flags := 0, len := 8, epoch := 0, payload := [1, 65538] } : Req), (1 : Nat))

def wFrameBoundaryCounts0 : State × Nat × (Fin 2) :=
  let s := State.reset
  let t : Nat := 2
  let s := on s (fun c => {c with pwr := {c.pwr with phase := .running}})
  let s := on s (fun c => (({c with planes := [c.plane 0, c.plane 1]} : Chip).wr (REF_PLANE_STAT_STATE 0) (2 + t % 3)).wr (REF_PLANE_STAT_STATE 1) 3)
  let s := on s (fun c => {c with twn := {c.twn with image := none, held := []}, planes := [{c.plane 0 with again := none},{c.plane 1 with again := none}], fw := {c.fw with queue := c.fw.queue.filter fun p => p.change.kind.bears}})
  (s, (2 : Nat), (0 : Fin 2))

def wRouteTakes0 : State × Nat × (Fin 384) × Bool × Pend × Nat :=
  let s := State.reset
  let t : Nat := 3
  let d : Fin 384 := 378
  let w : Nat := 0
  let s := on s (fun c => ((c.wr (REF_PLANE_CFG_FORMAT 0) 14).wr (REF_PLANE_CFG_FORMAT 1) 14).wr (XPT_EPOCH_EPOCH 0) 5)
  let d : Fin 384 := if d.val < 320 then d else 7
  let s := on s (fun c => {c with pwr := {c.pwr with phase := .running}})
  let s := on s (fun c => (({c with planes := [c.plane 0, c.plane 1]} : Chip).wr (REF_PLANE_STAT_STATE 0) (2 + t % 3)).wr (REF_PLANE_STAT_STATE 1) 3)
  let s := on s (fun c => c.wr TOP_ROLE_ROLE (if d.val < 48 then t % 2 else if d.val < 240 then 2 else t % 2))
  let q := (s.chip).dstPlane d.val
  let w := w % 2^32
  let e := s.chip.rd (XPT_EPOCH_EPOCH q)
  let p : Pend := { plane := q, epoch := e, change := ⟨.route, d.val, [w % 2^9 * 65536 % 2^25 + w % 2 * 2^31]⟩, chan := w % 4, seq := 5, host := w % 3 != 0 }
  let s := on s (fun c => {c with planes := [{c.plane 0 with counted := true},{c.plane 1 with counted := true}], fw := {c.fw with queue := p :: c.fw.queue.filter fun y => y.change.dest != some d.val && y.change.kind.bears}})
  (s, (3 : Nat), (7 : Fin 384), (false : Bool), ({ plane := 0, epoch := 5, change := { kind := Sys2Proof.Machine.Kind.route, idx := 7, ws := [0] }, chan := 0, seq := 5, host := false } : Pend), (0 : Nat))

def wSourceEvents0 : State × Nat × (Fin 332) × FrameIn :=
  let s := State.reset
  let t : Nat := 5
  let x : Fin 332 := 0
  let f : FrameIn := { lines := 3, words := 1, fields := true, period := 0, pid := 2, link := 1, complete := true, lastBad := true, levelB := true }
  let s := on s (fun c => {c with pwr := {c.pwr with phase := .running}})
  let s := on s (fun c => c.wr TOP_ROLE_ROLE (t % 2))
  let s := on s (fun c => c.clr (SDI_RX_CTL_BOND (x.val / 4 * 4)))
  let kk := 1 + (t + f.pid) % 24
  let s := on s (fun c => if x.val < 48 then c.wr (SDI_RX_STAT_RATE x.val) (rateCode kk false) else c)
  (s, (5 : Nat), (0 : Fin 332), ({ lines := 1125, words := 4400, fields := true, period := 100000002, pid := 2, link := 1, complete := true, lastBad := true, levelB := false } : FrameIn))

def wSourceEvents1 : State × Nat × (Fin 332) × FrameIn :=
  let s := State.reset
  let t : Nat := 7
  let x : Fin 332 := 2
  let s := on s (fun c => {c with pwr := {c.pwr with phase := .running}})
  let s := on s (fun c => c.wr TOP_ROLE_ROLE (t % 2))
  let x : Fin 332 := Fin.ofNat 332 (x.val % 48)
  let s := on s (fun c => ({c with regs := c.regs} : Chip).set (SDI_RX_CTL_BOND (x.val / 4 * 4)))
  let s := on s (fun c => c.each [0,1,2,3] fun c i => if t % 2 = 0 then c.setSrc (x.val / 4 * 4 + i) {c.src (x.val / 4 * 4 + i) with here := true} else c)
  (s, (7 : Nat), (2 : Fin 332), ({ lines := 0, words := 4, fields := true, period := 1, pid := 229, link := 0, complete := true, lastBad := true, levelB := true } : FrameIn))

def wSourceEvents2 : State × Nat × (Fin 332) :=
  let s := State.reset
  let t : Nat := 7
  let x : Fin 332 := 3
  let s := on s (fun c => {c with pwr := {c.pwr with phase := .running}})
  let s := on s (fun c => (c.set (FSY_SRC_STAT_PROMOTED x.val)).setSrc x.val {c.src x.val with calm := 64 + t % 5})
  (s, (7 : Nat), (3 : Fin 332))

def wSourceEvents3 : State × Nat × (Fin 332) :=
  let s := State.reset
  let x : Fin 332 := 3
  let s := on s (fun c => {c with pwr := {c.pwr with phase := .running}})
  let s := on s (fun c => c.set (FSY_SRC_STAT_VALID (c.leadOf x.val)))
  (s, (5 : Nat), (3 : Fin 332))

def wSourceEvents4 : State × Nat × (Fin 332) :=
  let s := State.reset
  let t : Nat := 2
  let x : Fin 332 := 2
  let s := on s (fun c => {c with pwr := {c.pwr with phase := .running}})
  let s := on s (fun c => c.wr TOP_ROLE_ROLE (t % 2))
  let x : Fin 332 := Fin.ofNat 332 (x.val % 240)
  let s : State := { s with chip := (fun c : Chip => (let c := c.clr (SDI_RX_CTL_BOND (x.val / 4 * 4))
    let c := (if x.val < 48 then (c.wr (SDI_RX_CTL_MAX_CLASS x.val) 3).wr (SDI_RX_STAT_STATE x.val) 2 else if x.val < 240 then (c.set (FAB_SLOT_CTL_RX_EN (x.val - 48))).set (FAB_SLOT_STAT_RX_PRESENT (x.val - 48))
      else if x.val < 272 then (c.set (NET_RXF_CTL_JOINED (x.val - 240))).set (NET_ANCHOR_CTL_VALID 0) |>.set (NET_ANCHOR_CTL_VALID 1)
      else if x.val < 320 then c.set (LBS_PB_CTL_ENABLE (x.val - 272)) else if x.val < 324 then c.set (MVC_HEAD_CTL_ENABLE (x.val - 320)) else c.set (XPT_GEN_CTL_ENABLE (x.val - 324)))
    let c := if x.val < 240 then (((c.wr (FSY_SRC_STAT_DET_FORMAT x.val) 5).wr (FSY_SRC_CTL_FORMAT x.val) 5).set (FSY_SRC_STAT_IN_WINDOW x.val)) else c
    c.setSrc x.val {c.src x.val with bad := 0, dram := false, mapped := true, good := 2, skew := false, order := false})) s.chip }
  let s := on s (fun c => c.set (FSY_SRC_STAT_VALID (c.leadOf x.val)))
  (s, (2 : Nat), (2 : Fin 332))

def wSourceEvents5 : State × Nat × (Fin 332) :=
  let s := State.reset
  let t : Nat := 3
  let x : Fin 332 := 2
  let s := on s (fun c => {c with pwr := {c.pwr with phase := .running}})
  let s := on s (fun c => c.wr TOP_ROLE_ROLE (t % 2))
  let s : State := { s with chip := (fun c : Chip => (let c := c.clr (SDI_RX_CTL_BOND (x.val / 4 * 4))
    let c := (if x.val < 48 then (c.wr (SDI_RX_CTL_MAX_CLASS x.val) 3).wr (SDI_RX_STAT_STATE x.val) 2 else if x.val < 240 then (c.set (FAB_SLOT_CTL_RX_EN (x.val - 48))).set (FAB_SLOT_STAT_RX_PRESENT (x.val - 48))
      else if x.val < 272 then (c.set (NET_RXF_CTL_JOINED (x.val - 240))).set (NET_ANCHOR_CTL_VALID 0) |>.set (NET_ANCHOR_CTL_VALID 1)
      else if x.val < 320 then c.set (LBS_PB_CTL_ENABLE (x.val - 272)) else if x.val < 324 then c.set (MVC_HEAD_CTL_ENABLE (x.val - 320)) else c.set (XPT_GEN_CTL_ENABLE (x.val - 324)))
    let c := if x.val < 240 then (((c.wr (FSY_SRC_STAT_DET_FORMAT x.val) 5).wr (FSY_SRC_CTL_FORMAT x.val) 5).set (FSY_SRC_STAT_IN_WINDOW x.val)) else c
    c.setSrc x.val {c.src x.val with bad := 0, dram := false, mapped := true, good := 2, skew := false, order := false})) s.chip }
  let s := on s (fun c => (c.clr (FSY_SRC_STAT_VALID x.val)))
  (s, (3 : Nat), (2 : Fin 332))

def wSourceEvents6 : State × Nat × (Fin 332) × Bool :=
  let s := State.reset
  let t : Nat := 1
  let s := on s (fun c => {c with pwr := {c.pwr with phase := .running}})
  let s := on s (fun c => c.wr TOP_ROLE_ROLE (t % 2))
  (s, (1 : Nat), (0 : Fin 332), (true : Bool))

def wPresentations0 : State × Nat × (Fin 332) × (Fin 2) × Bool × Bool × Nat :=
  let s := State.reset
  let t : Nat := 2
  let x : Fin 332 := 2
  let s := on s (fun c => {c with pwr := {c.pwr with phase := .running}})
  let s := on s (fun c => (({c with planes := [c.plane 0, c.plane 1]} : Chip).wr (REF_PLANE_STAT_STATE 0) (2 + t % 3)).wr (REF_PLANE_STAT_STATE 1) 3)
  let s := on s (fun c => c.wr TOP_ROLE_ROLE (t % 2))
  let s : State := { s with chip := (fun c : Chip => (let c := c.clr (SDI_RX_CTL_BOND (x.val / 4 * 4))
    let c := (if x.val < 48 then (c.wr (SDI_RX_CTL_MAX_CLASS x.val) 3).wr (SDI_RX_STAT_STATE x.val) 2 else if x.val < 240 then (c.set (FAB_SLOT_CTL_RX_EN (x.val - 48))).set (FAB_SLOT_STAT_RX_PRESENT (x.val - 48))
      else if x.val < 272 then (c.set (NET_RXF_CTL_JOINED (x.val - 240))).set (NET_ANCHOR_CTL_VALID 0) |>.set (NET_ANCHOR_CTL_VALID 1)
      else if x.val < 320 then c.set (LBS_PB_CTL_ENABLE (x.val - 272)) else if x.val < 324 then c.set (MVC_HEAD_CTL_ENABLE (x.val - 320)) else c.set (XPT_GEN_CTL_ENABLE (x.val - 324)))
    let c := if x.val < 240 then (((c.wr (FSY_SRC_STAT_DET_FORMAT x.val) 5).wr (FSY_SRC_CTL_FORMAT x.val) 5).set (FSY_SRC_STAT_IN_WINDOW x.val)) else c
    c.setSrc x.val {c.src x.val with bad := 0, dram := false, mapped := true, good := 2, skew := false, order := false})) s.chip }
  let s := on s (fun c => {c.set (FSY_SRC_STAT_VALID x.val) with dmc := []})
  let s := on s (fun c => c.each (List.range 8) fun c n => c.wr (DMC_CH_STAT_STATE n) 3)
  (s, (2 : Nat), (2 : Fin 332), (0 : Fin 2), (true : Bool), (true : Bool), (0 : Nat))

def wPresentations1 : State × Nat × (Fin 332) × (Fin 2) × Bool × Bool × Nat :=
  let s := State.reset
  let t : Nat := 3
  let x : Fin 332 := 1
  let s := on s (fun c => {c with pwr := {c.pwr with phase := .running}})
  let s := on s (fun c => (({c with planes := [c.plane 0, c.plane 1]} : Chip).wr (REF_PLANE_STAT_STATE 0) (2 + t % 3)).wr (REF_PLANE_STAT_STATE 1) 3)
  let s := on s (fun c => c.wr TOP_ROLE_ROLE (t % 2))
  let x : Fin 332 := Fin.ofNat 332 (x.val % 240)
  let s : State := { s with chip := (fun c : Chip => (let c := c.clr (SDI_RX_CTL_BOND (x.val / 4 * 4))
    let c := (if x.val < 48 then (c.wr (SDI_RX_CTL_MAX_CLASS x.val) 3).wr (SDI_RX_STAT_STATE x.val) 2 else if x.val < 240 then (c.set (FAB_SLOT_CTL_RX_EN (x.val - 48))).set (FAB_SLOT_STAT_RX_PRESENT (x.val - 48))
      else if x.val < 272 then (c.set (NET_RXF_CTL_JOINED (x.val - 240))).set (NET_ANCHOR_CTL_VALID 0) |>.set (NET_ANCHOR_CTL_VALID 1)
      else if x.val < 320 then c.set (LBS_PB_CTL_ENABLE (x.val - 272)) else if x.val < 324 then c.set (MVC_HEAD_CTL_ENABLE (x.val - 320)) else c.set (XPT_GEN_CTL_ENABLE (x.val - 324)))
    let c := if x.val < 240 then (((c.wr (FSY_SRC_STAT_DET_FORMAT x.val) 5).wr (FSY_SRC_CTL_FORMAT x.val) 5).set (FSY_SRC_STAT_IN_WINDOW x.val)) else c
    c.setSrc x.val {c.src x.val with bad := 0, dram := false, mapped := true, good := 2, skew := false, order := false})) s.chip }
  let s := on s (fun c => {(c.set (FSY_SRC_STAT_VALID x.val)).clr (FSY_SRC_CTL_ALLOW_FS x.val) with dmc := []})
  let s := on s (fun c => c.setSrc x.val {c.src x.val with shown := 5, next := 6})
  (s, (3 : Nat), (1 : Fin 332), (0 : Fin 2), (true : Bool), (true : Bool), (1 : Nat))

def wPresentations2 : State × Nat × (Fin 332) × (Fin 2) × Bool × Nat :=
  let s := State.reset
  let t : Nat := 1
  let x : Fin 332 := 1
  let s := on s (fun c => {c with pwr := {c.pwr with phase := .running}})
  let s := on s (fun c => (({c with planes := [c.plane 0, c.plane 1]} : Chip).wr (REF_PLANE_STAT_STATE 0) (2 + t % 3)).wr (REF_PLANE_STAT_STATE 1) 3)
  let s := on s (fun c => c.wr TOP_ROLE_ROLE (t % 2))
  let x : Fin 332 := Fin.ofNat 332 (x.val % 240)
  let s : State := { s with chip := (fun c : Chip => (let c := c.clr (SDI_RX_CTL_BOND (x.val / 4 * 4))
    let c := (if x.val < 48 then (c.wr (SDI_RX_CTL_MAX_CLASS x.val) 3).wr (SDI_RX_STAT_STATE x.val) 2 else if x.val < 240 then (c.set (FAB_SLOT_CTL_RX_EN (x.val - 48))).set (FAB_SLOT_STAT_RX_PRESENT (x.val - 48))
      else if x.val < 272 then (c.set (NET_RXF_CTL_JOINED (x.val - 240))).set (NET_ANCHOR_CTL_VALID 0) |>.set (NET_ANCHOR_CTL_VALID 1)
      else if x.val < 320 then c.set (LBS_PB_CTL_ENABLE (x.val - 272)) else if x.val < 324 then c.set (MVC_HEAD_CTL_ENABLE (x.val - 320)) else c.set (XPT_GEN_CTL_ENABLE (x.val - 324)))
    let c := if x.val < 240 then (((c.wr (FSY_SRC_STAT_DET_FORMAT x.val) 5).wr (FSY_SRC_CTL_FORMAT x.val) 5).set (FSY_SRC_STAT_IN_WINDOW x.val)) else c
    c.setSrc x.val {c.src x.val with bad := 0, dram := false, mapped := true, good := 2, skew := false, order := false})) s.chip }
  let s := on s (fun c => {(c.set (FSY_SRC_STAT_VALID x.val)).set (FSY_SRC_CTL_ALLOW_FS x.val) with dmc := []})
  let s := on s (fun c => c.each (List.range 8) fun c n => c.wr (DMC_CH_STAT_STATE n) 3)
  let s := on s (fun c => c.set (FSY_SRC_STAT_PROMOTED x.val))
  (s, (1 : Nat), (1 : Fin 332), (0 : Fin 2), (true : Bool), (9 : Nat))

def wPresentations3 : State × Nat × (Fin 332) × (Fin 2) × Bool × Bool × Nat :=
  let s := State.reset
  let t : Nat := 7
  let x : Fin 332 := 1
  let s := on s (fun c => {c with pwr := {c.pwr with phase := .running}})
  let s := on s (fun c => (({c with planes := [c.plane 0, c.plane 1]} : Chip).wr (REF_PLANE_STAT_STATE 0) (2 + t % 3)).wr (REF_PLANE_STAT_STATE 1) 3)
  let s := on s (fun c => c.wr TOP_ROLE_ROLE (t % 2))
  let s : State := { s with chip := (fun c : Chip => (let c := c.clr (SDI_RX_CTL_BOND (x.val / 4 * 4))
    let c := (if x.val < 48 then (c.wr (SDI_RX_CTL_MAX_CLASS x.val) 3).wr (SDI_RX_STAT_STATE x.val) 2 else if x.val < 240 then (c.set (FAB_SLOT_CTL_RX_EN (x.val - 48))).set (FAB_SLOT_STAT_RX_PRESENT (x.val - 48))
      else if x.val < 272 then (c.set (NET_RXF_CTL_JOINED (x.val - 240))).set (NET_ANCHOR_CTL_VALID 0) |>.set (NET_ANCHOR_CTL_VALID 1)
      else if x.val < 320 then c.set (LBS_PB_CTL_ENABLE (x.val - 272)) else if x.val < 324 then c.set (MVC_HEAD_CTL_ENABLE (x.val - 320)) else c.set (XPT_GEN_CTL_ENABLE (x.val - 324)))
    let c := if x.val < 240 then (((c.wr (FSY_SRC_STAT_DET_FORMAT x.val) 5).wr (FSY_SRC_CTL_FORMAT x.val) 5).set (FSY_SRC_STAT_IN_WINDOW x.val)) else c
    c.setSrc x.val {c.src x.val with bad := 0, dram := false, mapped := true, good := 2, skew := false, order := false})) s.chip }
  let s := on s (fun c => c.set (FSY_SRC_STAT_VALID x.val))
  let s := on s (fun c => c.each (List.range 8) fun c n => c.wr (DMC_CH_STAT_STATE n) 3)
  let p := Fin.ofNat 2 (1 - s.chip.srcPlane x.val)
  let s := on s (fun c => (((c.wr (XPT_DST_CTL_SOURCE 3) x.val).set (XPT_DST_CTL_ROUTED 3)).set (XPT_DST_CTL_CROSS_PLANE 3)).wr (XPT_DST_CTL_PLANE 3) p.val)
  let s := on s (fun c => c.setSrc x.val {c.src x.val with xdecision := none})
  let s := on s (fun c => {c with fw := {c.fw with queue := c.fw.queue.filter fun q => q.change.kind != .playback}})
  (s, (7 : Nat), (1 : Fin 332), (1 : Fin 2), (true : Bool), (true : Bool), (0 : Nat))

def wPresentations4 : State × Nat × (Fin 48) × (Fin 332) × (Fin 2) × Bool × Nat :=
  let s := State.reset
  let t : Nat := 7
  let k : Fin 48 := 1
  let s := on s (fun c => {c with pwr := {c.pwr with phase := .running}})
  let s := on s (fun c => (({c with planes := [c.plane 0, c.plane 1]} : Chip).wr (REF_PLANE_STAT_STATE 0) (2 + t % 3)).wr (REF_PLANE_STAT_STATE 1) 3)
  let s := on s (fun c => c.wr TOP_ROLE_ROLE 0)
  let s := on s (fun c => (c.set (LBS_PB_CTL_ENABLE k.val)))
  let s := on s (fun c => {c with lbs := {c.lbs with stopped := false}, fw := {c.fw with queue := c.fw.queue.filter fun q => q.change.kind != .playback}})
  (s, (7 : Nat), (1 : Fin 48), (273 : Fin 332), (0 : Fin 2), (true : Bool), (0 : Nat))

def wPresentations5 : State × Nat × (Fin 48) × (Fin 332) × (Fin 2) × Bool × Nat × Nat :=
  let s := State.reset
  let t : Nat := 3
  let k : Fin 48 := 3
  let s := on s (fun c => {c with pwr := {c.pwr with phase := .running}})
  let s := on s (fun c => (({c with planes := [c.plane 0, c.plane 1]} : Chip).wr (REF_PLANE_STAT_STATE 0) (2 + t % 3)).wr (REF_PLANE_STAT_STATE 1) 3)
  let s := on s (fun c => c.wr TOP_ROLE_ROLE 0)
  let s := on s (fun c => (c.set (LBS_PB_CTL_ENABLE k.val)))
  let s := on s (fun c => {c with lbs := {c.lbs with stopped := false}, fw := {c.fw with queue := c.fw.queue.filter fun q => q.change.kind != .playback}})
  let s := on s (fun c => let c := c.clr (LBS_PB_CTL_MODE k.val); let r := c.carafeOf k.val; let c := c.wr (LBS_REC_DEPTH_DEPTH r) 100; let c := c.wr (LBS_PB_STAT_CUR_DELAY k.val) (t % 3); c)
  let n := (let d := s.chipAt t; d.frameNow (d.dstPlane (272 + d.carafeOf k.val)) (d.rd (LBS_REC_CTL_FORMAT (d.carafeOf k.val))) - d.rd (LBS_PB_STAT_CUR_DELAY k.val))
  let s := on s (fun c => let r := c.carafeOf k.val; c.setCarafe r {c.carafe r with frame := none, tags := [(n % max 1 (c.depth r), (n % 2^32, .recorded))]})
  (s, (3 : Nat), (3 : Fin 48), (275 : Fin 332), (0 : Fin 2), (true : Bool), (1 : Nat), (0 : Nat))

def wPresentations6 : State × Nat × (Fin 332) × (Fin 2) × Bool × Bool × Nat :=
  let s := State.reset
  let t : Nat := 0
  let p : Fin 2 := 1
  let s := on s (fun c => {c with pwr := {c.pwr with phase := .running}})
  let s := on s (fun c => c.wr (REF_PLANE_STAT_STATE p.val) (t % 2))
  (s, (0 : Nat), (2 : Fin 332), (1 : Fin 2), (true : Bool), (true : Bool), (1 : Nat))

def wStoreEvents0 : State × Nat × (Fin 48) :=
  let s := State.reset
  let k : Fin 48 := 0
  let s := on s (fun c => {c with pwr := {c.pwr with phase := .running}})
  let s := on s (fun c => ((c.set (LBS_PB_CTL_ENABLE k.val)).set (LBS_PB_CTL_MODE k.val)).wr (LBS_PB_STAT_CUR_DELAY k.val) 1048000)
  let s := on s (fun c => {c with lbs := {c.lbs with stopped := false}, fw := {c.fw with queue := c.fw.queue.filter fun q => q.change.kind != .playback}})
  (s, (2 : Nat), (0 : Fin 48))

def wStoreEvents1 : State × Nat × (Fin 48) :=
  let s := State.reset
  let s := on s (fun c => {c with pwr := {c.pwr with phase := .running}})
  (s, (5 : Nat), (1 : Fin 48))

def wStoreEvents2 : State × Nat × (Fin 2) × Nat × (List Nat) :=
  let s := State.reset
  let n : Nat := 5
  let planes : List Nat := []
  let s := on s (fun c => {c with pwr := {c.pwr with phase := .running}})
  let planes := planes.map (· % 2)
  let s := on s (fun c => {c with lbs := {c.lbs with halt := some (n, planes)}})
  (s, (6 : Nat), (0 : Fin 2), (5 : Nat), ([] : List Nat))

def wChannelStates0 : State × Nat × (Fin 8) × (Option Dimm) :=
  let s := State.reset
  let n : Fin 8 := 2
  let s := on s (fun c => ({c with pwr := {c.pwr with phase := .running}} : Chip).set TOP_STATUS_FW_READY)
  let s := on s (fun c => c.wr (DMC_CH_STAT_STATE n.val) chTraining)
  (s, (0 : Nat), (2 : Fin 8), (none : Option Dimm))

def wChannelStates1 : State × Nat × (Fin 8) × (List (BitVec 14)) × (List (BitVec 14)) :=
  let s := State.reset
  let n : Fin 8 := 4
  let s := on s (fun c => ({c with pwr := {c.pwr with phase := .running}} : Chip).set TOP_STATUS_FW_READY)
  let s := on s (fun c => c.wr (DMC_CH_STAT_STATE n.val) chTraining)
  let s := on s (fun c => c.clr (PWR_DOM_CTL_BUSY (domMem n.val)))
  (s, (5 : Nat), (4 : Fin 8), ([] : List (BitVec 14)), ([] : List (BitVec 14)))

def wChannelStates2 : State × Nat × (Fin 8) × (List (BitVec 14)) × (List (BitVec 14)) :=
  let s := State.reset
  let n : Fin 8 := 1
  let s := on s (fun c => ({c with pwr := {c.pwr with phase := .running}} : Chip).set TOP_STATUS_FW_READY)
  let s := on s (fun c => c.wr (DMC_CH_STAT_STATE n.val) chTraining)
  let s := on s (fun c => {((c.set (PWR_DOM_CTL_BUSY (domMem n.val))).wr (PWR_DOM_CTL_REQ (domMem n.val)) stLow) with pwr := {c.pwr with goal := [(domMem n.val, stLow)]}})
  (s, (5 : Nat), (1 : Fin 8), ([] : List (BitVec 14)), ([] : List (BitVec 14)))

def wChannelStates3 : State × Nat × (Fin 8) :=
  let s := State.reset
  let n : Fin 8 := 2
  let s := on s (fun c => ({c with pwr := {c.pwr with phase := .running}} : Chip).set TOP_STATUS_FW_READY)
  let s := on s (fun c => c.wr (DMC_CH_STAT_STATE n.val) chTraining)
  (s, (6 : Nat), (2 : Fin 8))

def wChannelStates4 : State × Nat × (Fin 8) :=
  let s := State.reset
  let n : Fin 8 := 0
  let s := on s (fun c => {c with pwr := {c.pwr with phase := .running}})
  let s := on s (fun c => c.wr (DMC_CH_STAT_STATE n.val) chActive)
  let s := on s (fun c => c.setDmcCh n.val {c.dmcCh n.val with failing := 5})
  (s, (1 : Nat), (0 : Fin 8))

def wMemoryEvents0 : State × Nat × (Fin 8) × (Fin 2) × (Option Bool) :=
  let s := State.reset
  let n : Fin 8 := 1
  let s := on s (fun c => {c with pwr := {c.pwr with phase := .running}})
  let s := on s (fun c => c.wr (DMC_CH_STAT_STATE n.val) chActive)
  (s, (1 : Nat), (1 : Fin 8), (1 : Fin 2), (none : Option Bool))

def wMemoryEvents1 : State × Nat × (Fin 8) × (Fin 2) × (List (BitVec 33)) :=
  let s := State.reset
  let n : Fin 8 := 3
  let s := on s (fun c => ({c with pwr := {c.pwr with phase := .running}} : Chip).set TOP_STATUS_FW_READY)
  let s := on s (fun c => c.each (List.range 8) fun c n => c.wr (DMC_CH_STAT_STATE n) chActive)
  (s, (3 : Nat), (3 : Fin 8), (0 : Fin 2), ([] : List (BitVec 33)))

def wMemoryEvents2 : State × Nat × (BitVec 41) :=
  let s := State.reset
  let pa : BitVec 41 := 0x02310c853d1#41
  let s := on s (fun c => {c with pwr := {c.pwr with phase := .running}})
  let s := on s (fun c => c.wr (DMC_CH_STAT_STATE (paChan pa.toNat)) chActive)
  (s, (3 : Nat), (0x02310c853d1#41 : BitVec 41))

def wMemoryEvents3 : State × Nat × (BitVec 41) × (Fin 10) :=
  let s := State.reset
  let pa : BitVec 41 := 0x0063346c7d7#41
  let s := on s (fun c => {c with pwr := {c.pwr with phase := .running}})
  let s := on s (fun c => c.wr (DMC_CH_STAT_STATE (paChan pa.toNat)) chActive)
  (s, (2 : Nat), (0x0063346c7d7#41 : BitVec 41), (2 : Fin 10))

def wMemoryEvents4 : State × Nat × (Fin 8) × (Option (Option (Fin 10))) :=
  let s := State.reset
  let n : Fin 8 := 2
  let s := on s (fun c => {c with pwr := {c.pwr with phase := .running}})
  let s := on s (fun c => c.wr (DMC_CH_STAT_STATE n.val) chActive)
  (s, (0 : Nat), (2 : Fin 8), (none : Option (Option (Fin 10))))

def wMemoryEvents5 : State × Nat × (Fin 8) × Bool :=
  let s := State.reset
  let n : Fin 8 := 2
  let s := on s (fun c => {c with pwr := {c.pwr with phase := .running}})
  let s := on s (fun c => c.wr (DMC_CH_STAT_STATE n.val) chActive)
  (s, (1 : Nat), (2 : Fin 8), (true : Bool))

def wSdiReceiveStates0 : State × Nat × (Fin 48) :=
  let s := State.reset
  let lane : Fin 48 := 2
  let s := on s (fun c => {c with pwr := {c.pwr with phase := .running}})
  let s := on s (fun c => c.wr (SDI_RX_STAT_STATE lane.val) 1)
  (s, (1 : Nat), (2 : Fin 48))

def wSdiReceiveStates1 : State × Nat × (Fin 48) × (Fin 10) × Bool :=
  let s := State.reset
  let t : Nat := 5
  let lane : Fin 48 := 0
  let rate : Fin 10 := 3
  let s := on s (fun c => {c with pwr := {c.pwr with phase := .running}})
  let s := on s (fun c => c.wr (SDI_RX_STAT_STATE lane.val) 1)
  let s := on s (fun c => (c.setSdiLane lane.val {c.sdiLane lane.val with trial := rateClass rate.val}).when (t % 2 == 0) (·.clr (SDI_RX_CTL_CARRIER_GATE lane.val)))
  (s, (5 : Nat), (0 : Fin 48), (3 : Fin 10), (true : Bool))

def wSdiReceiveStates2 : State × Nat × (Fin 48) :=
  let s := State.reset
  let lane : Fin 48 := 1
  let s := on s (fun c => {c with pwr := {c.pwr with phase := .running}})
  let s := on s (fun c => c.wr (SDI_RX_STAT_STATE lane.val) 2)
  (s, (2 : Nat), (1 : Fin 48))

def wSdiReceiveChecks0 : State × Nat × (BitVec 48) :=
  let s := State.reset
  let s := on s (fun c => ({c with pwr := {c.pwr with phase := .running}} : Chip).set TOP_STATUS_FW_READY)
  (s, (5 : Nat), (0xa4ca0660fc98#48 : BitVec 48))

def wSdiReceiveChecks1 : State × Nat × (Fin 48) × Bool × Bool :=
  let s := State.reset
  let lane : Fin 48 := 3
  let s := on s (fun c => {c with pwr := {c.pwr with phase := .running}})
  let s := on s (fun c => c.wr (SDI_RX_STAT_STATE lane.val) 2)
  (s, (6 : Nat), (3 : Fin 48), (true : Bool), (true : Bool))

def wSdiReceiveChecks2 : State × Nat × (Fin 48) × (Option Word) × (Fin 3) × Word × (BitVec 8) :=
  let s := State.reset
  let lane : Fin 48 := 3
  let s := on s (fun c => {c with pwr := {c.pwr with phase := .running}})
  let s := on s (fun c => c.wr (SDI_RX_STAT_STATE lane.val) 2)
  (s, (2 : Nat), (3 : Fin 48), (none : Option Word), (1 : Fin 3), (0x00000000#32 : Word), (0xc6#8 : BitVec 8))

def wLaneStates0 : State × Nat × (Fin 50) :=
  let s := State.reset
  let t : Nat := 5
  let n : Fin 50 := 0
  let s := on s (fun c => {c with pwr := {c.pwr with phase := .running}})
  let s := on s (fun c => c.wr (lnState n.val) (t % 9))
  (s, (5 : Nat), (0 : Fin 50))

def wLaneStates1 : State × Nat × (Fin 50) :=
  let s := State.reset
  let t : Nat := 6
  let n : Fin 50 := 3
  let s := on s (fun c => {c with pwr := {c.pwr with phase := .running}})
  let s := on s (fun c => c.wr (lnState n.val) (if t % 2 = 0 then 2 else t % 9))
  (s, (6 : Nat), (3 : Fin 50))

def wLaneStates2 : State × Nat × (Fin 50) :=
  let s := State.reset
  let n : Fin 50 := 1
  let s := on s (fun c => {c with pwr := {c.pwr with phase := .running}})
  let s := on s (fun c => c.wr (lnState n.val) (lnTrained))
  (s, (7 : Nat), (1 : Fin 50))

def wLaneStates3 : State × Nat × (Fin 50) :=
  let s := State.reset
  let n : Fin 50 := 1
  let s := on s (fun c => {c with pwr := {c.pwr with phase := .running}})
  let s := on s (fun c => c.wr (lnState n.val) (lnFailed))
  (s, (7 : Nat), (1 : Fin 50))

def wLaneStates4 : State × Nat × (Fin 50) :=
  let s := State.reset
  let t : Nat := 7
  let n : Fin 50 := 2
  let s := on s (fun c => {c with pwr := {c.pwr with phase := .running}})
  let s := on s (fun c => c.wr (lnState n.val) (t % 2))
  let s := on s (fun c => c.setLane n.val {c.lane n.val with before := lnFailed})
  (s, (7 : Nat), (2 : Fin 50))

def wLaneStates5 : State × Nat × (Fin 50) × Bool :=
  let s := State.reset
  let n : Fin 50 := 3
  let s := on s (fun c => {c with pwr := {c.pwr with phase := .running}})
  let s := on s (fun c => c.wr (lnState n.val) (lnDoze))
  let s := on s (fun c => c.setLane n.val {c.lane n.val with before := (c.lane n.val).before % 9})
  (s, (6 : Nat), (3 : Fin 50), (true : Bool))

def wLaneTraining0 : State × Nat × (Fin 50) × Bool × Bool × Bool × Bool × (BitVec 8) :=
  let s := State.reset
  let t : Nat := 3
  let n : Fin 50 := 1
  let s := on s (fun c => {c with pwr := {c.pwr with phase := .running}})
  let s := on s (fun c => c.wr (lnState n.val) (3 + t % 2))
  (s, (3 : Nat), (1 : Fin 50), (true : Bool), (true : Bool), (true : Bool), (true : Bool), (0x15#8 : BitVec 8))

def wLaneTraining1 : State × Nat × (Fin 50) × (List (BitVec 8)) × (List Bool) × Bool :=
  let s := State.reset
  let t : Nat := 7
  let n : Fin 50 := 3
  let s := on s (fun c => {c with pwr := {c.pwr with phase := .running}})
  let s := on s (fun c => c.wr (lnState n.val) (lnSweep))
  let s := on s (fun c => c.when (t % 2 == 0) fun c => c.wr ((lnCfg n.val).fld 11 6) (t % 6))
  (s, (7 : Nat), (3 : Fin 50), ([] : List (BitVec 8)), ([true, false, true] : List Bool), (false : Bool))

def wLaneRetrims0 : State × Nat × (Fin 50) × (BitVec 8) × (BitVec 8) × (BitVec 8) × (BitVec 8) × Bool × Bool :=
  let s := State.reset
  let t : Nat := 1
  let n : Fin 50 := 1
  let s := on s (fun c => ({c with pwr := {c.pwr with phase := .running}} : Chip).set TOP_STATUS_FW_READY)
  let s := on s (fun c => c.wr (lnState n.val) (lnTrained))
  let s := on s (fun c => c.set ((lnCfg n.val).fld 22 1))
  let s := on s (fun c => c.setLane n.val {c.lane n.val with stopped := t % 3 == 0})
  (s, (1 : Nat), (1 : Fin 50), (0x53#8 : BitVec 8), (0x6f#8 : BitVec 8), (0xc5#8 : BitVec 8), (0xa0#8 : BitVec 8), (true : Bool), (true : Bool))

def wLaneRetrims1 : State × Nat × (Fin 50) × Nat :=
  let s := State.reset
  let n : Fin 50 := 1
  let pk : Nat := 0
  let s := on s (fun c => ({c with pwr := {c.pwr with phase := .running}} : Chip).set TOP_STATUS_FW_READY)
  let s := on s (fun c => c.wr (lnState n.val) (lnTrained))
  let pk := pk % 16
  let s := on s (fun c => (c.set ((lnCfg n.val).fld 22 1)).setLane n.val {c.lane n.val with step := some pk})
  (s, (3 : Nat), (1 : Fin 50), (0 : Nat))

def wLaneRetrims2 : State × Nat × (Fin 50) × Nat :=
  let s := State.reset
  let n : Fin 50 := 2
  let at_ : Nat := 1
  let s := on s (fun c => {c with pwr := {c.pwr with phase := .running}})
  let s := on s (fun c => c.setLane n.val {c.lane n.val with stepAt := some at_})
  (s, (0 : Nat), (2 : Fin 50), (1 : Nat))

def wLaneRetrims3 : State × Nat × (Fin 48) × Bool × Nat × Nat :=
  let s := State.reset
  let t : Nat := 0
  let n : Fin 48 := 0
  let s := on s (fun c => {c with pwr := {c.pwr with phase := .running}})
  let s := on s (fun c => c.wr (FAB_LN_TEST_CHK_PATTERN n.val) (1 + t % 7))
  let s := on s (fun c => c.wr (FAB_LN_TEST_CHK_PATTERN n.val) 1)
  (s, (0 : Nat), (0 : Fin 48), (true : Bool), (0 : Nat), (0 : Nat))

def wLaneBlocks0 : State × Nat × (Fin 50) × (BitVec 640) :=
  let s := State.reset
  let n : Fin 50 := 3
  let s := on s (fun c => {c with pwr := {c.pwr with phase := .running}})
  let s := on s (fun c => c.wr (lnState n.val) (lnTrained))
  (s, (2 : Nat), (3 : Fin 50), (0x62b7cfeb5b0063a0ed4679849539e2de5b7eb4cb5c8c8fef9f7d6b32131ffc4bfe9abca44f05c3efa061c5de2f6da54337e62102aa62f7ecdc36be9c230cfd8991906a625ccd1358730a3b1a3d03e535#640 : BitVec 640))

def wLaneBlocks1 : State × Nat × (Fin 50) × (BitVec 640) :=
  let s := State.reset
  let n : Fin 50 := 0
  let s := on s (fun c => {c with pwr := {c.pwr with phase := .running}})
  let s := on s (fun c => c.wr (lnState n.val) (lnTrained))
  (s, (1 : Nat), (0 : Fin 50), (0x788303c4e89871b43eb92f8ff6e73ffb48382f13368483c79de23d2d525662d843b314fc770089cd12d4cd1af3c186457e3f1b01f184a22c71d5c61dffef06c2fa33c7392a6402b8a5817be4830fd51a#640 : BitVec 640))

def wLaneBlocks2 : State × Nat × (Fin 50) × (BitVec 640) :=
  let s := State.reset
  let n : Fin 50 := 0
  let s := on s (fun c => {c with pwr := {c.pwr with phase := .running}})
  let s := on s (fun c => c.wr (lnState n.val) (lnTrained))
  (s, (5 : Nat), (0 : Fin 50), (0x7917aafaa82b747736437fbf3cd4f83eb3f75f0db5256fe96d95c4174f08b9d7e8c57d1f177d5029267137ca08f62669da419deb6203a82fe5f7555780eeb0b2387c86b3d69cdc1cc7be5886200aaf2b#640 : BitVec 640))

def wLaneBlocks3 : State × Nat × (Fin 48) × Nat × (BitVec 640) :=
  let s := State.reset
  let t : Nat := 5
  let n : Fin 48 := 3
  let s := on s (fun c => {c with pwr := {c.pwr with phase := .running}})
  let s := on s (fun c => c.wr (lnState n.val) (lnTrained))
  let l := n.val / 4 * 4
  let s := on s (fun c => let c := (c.wr (FAB_LK_CFG_WIDTH (n.val/4*4+1)) 0).wr (FAB_LK_CFG_WIDTH (n.val/4*4+2)) 0 |>.wr (FAB_LK_CFG_WIDTH (n.val/4*4+3)) 0; c.wr (FAB_LK_CFG_WIDTH l) 3)
  let s := on s (fun c => c.setLink l {c.link l with rx := if t % 4 = 0 then .down else .up, rxUse := 15 - t % 3, rxMask := 0xFFFF - t % 7})
  (s, (5 : Nat), (3 : Fin 48), (0 : Nat), (0x2c2ecd70ed33a2534be7fef896a652b75039020f8598adea2d90715c4c1e566226d3604123d48fc870b737e4998f283b5445eb70f397a3e17d5b3d6bebe96442b28f48c0f2d389d6e3f8e4ad9762d408#640 : BitVec 640))

def wLaneBlocks4 : State × Nat × (Fin 48) × Nat × (BitVec 640) :=
  let s := State.reset
  let n : Fin 48 := 1
  let s := on s (fun c => {c with pwr := {c.pwr with phase := .running}})
  let s := on s (fun c => c.wr (lnState n.val) (lnTrained))
  let l := n.val / 4 * 4
  let s := on s (fun c => let c := (c.wr (FAB_LK_CFG_WIDTH (n.val/4*4+1)) 0).wr (FAB_LK_CFG_WIDTH (n.val/4*4+2)) 0 |>.wr (FAB_LK_CFG_WIDTH (n.val/4*4+3)) 0; c.wr (FAB_LK_CFG_WIDTH l) 3)
  (s, (7 : Nat), (1 : Fin 48), (0 : Nat), (0x7fd9cceee6c28c9c4b71037c60b9e2b8e53abd7685b4ff9509b5b5ac72bb7904ca1f8053568a6b7cfaff8f50c6502d9ab5efec09ce3c2a1d8958fe3a02b0222b12bb42609e1a005df5e1a4178c39f7c0#640 : BitVec 640))

def wLaneBlocks5 : State × Nat × (Fin 48) × Nat × (BitVec 640) :=
  let s := State.reset
  let n : Fin 48 := 0
  let s := on s (fun c => {c with pwr := {c.pwr with phase := .running}})
  let s := on s (fun c => c.wr (lnState n.val) (lnTrained))
  let l := n.val / 4 * 4
  let s := on s (fun c => let c := (c.wr (FAB_LK_CFG_WIDTH (n.val/4*4+1)) 0).wr (FAB_LK_CFG_WIDTH (n.val/4*4+2)) 0 |>.wr (FAB_LK_CFG_WIDTH (n.val/4*4+3)) 0; c.wr (FAB_LK_CFG_WIDTH l) 3)
  (s, (2 : Nat), (0 : Fin 48), (0 : Nat), (0x84d50c3ee3fee42dbc66e4c523536e418e85c94ac76a21aad41b4f5182c46c268e422dfd7bc098630da1657590c77e55c12ef1f7e074d0b360e52ed875fa9df4de73fbcded39128a95c852a54075fdbb#640 : BitVec 640))

def wLaneBlocks6 : State × Nat × (Fin 48) × Nat × (BitVec 640) :=
  let s := State.reset
  let t : Nat := 0
  let n : Fin 48 := 2
  let b : BitVec 640 := 0x0d89b5479bc61bf81b49d549fa5084c69a21707cfeac5595dec8c1dbc661ee5e890ae03eebb8ecee0434d21c0e4e835e78443474260d609e67deb97b07ea488c6b3495e0277e0c36022d11f650c624bc#640
  let s := on s (fun c => {c with pwr := {c.pwr with phase := .running}})
  let s := on s (fun c => c.wr (lnState n.val) (lnTrained))
  let l := n.val / 4 * 4
  let s := on s (fun c => let c := (c.wr (FAB_LK_CFG_WIDTH (n.val/4*4+1)) 0).wr (FAB_LK_CFG_WIDTH (n.val/4*4+2)) 0 |>.wr (FAB_LK_CFG_WIDTH (n.val/4*4+3)) 0; c.wr (FAB_LK_CFG_WIDTH l) 3)
  let b : BitVec 640 := let v := b.toNat / 2^16; let v := v / 2^528 * 2^528 + v % 2^464 + (2 * 2 + s.chip.linkPlane l * 8 + (b.toNat/7 % 16) * 2^4 + (b.toNat / 5 % 2^16) * 2^8 + (b.toNat / 3 % 16) * 2^24 + 3 * 2^30 + (n.val - l) * 2^32 + (s.chip.rd (FAB_LK_CFG_PARTNER_LINK l)) * 2^34 + 5 * 2^40) * 2^464
                                 let v := v % 2^622 + 3 * 2^622
                                 BitVec.ofNat 640 (v * 2^16 + crc16 624 v)
  let s := on s (fun c => ((c.wr TOP_ROLE_ROLE 1).wr (FAB_LK_CFG_PARTNER_ID l) 0).wr (FAB_LK_STAT_STATE l) (t % 4))
  let s := on s (fun c => c.wr (FAB_LK_CFG_PARTNER_LINK l) (mkLink b.toNat))
  (s, (0 : Nat), (2 : Fin 48), (0 : Nat), (0xcd89b5479bc61bf81b49d54900000502c4075884feac5595dec8c1dbc661ee5e890ae03eebb8ecee0434d21c0e4e835e78443474260d609e67deb97b07ea488c6b3495e0277e0c36022d11f650c610d7#640 : BitVec 640))

def wLaneBlocks7 : State × Nat × (Fin 50) × (BitVec 640) :=
  let s := State.reset
  let t : Nat := 3
  let s := on s (fun c => {c with pwr := {c.pwr with phase := .running}})
  let n : Fin 50 := if t % 2 = 0 then 48 else 49
  let s := on s (fun c => c.wr (lnState n.val) (lnTrained))
  (s, (3 : Nat), (49 : Fin 50), (0x820a6cfefe85cdac0edb2be2b76e4b95ec346bdd1c1c70ec63235e4853254c99c6b30074aa8975be7886462c7a494c0802c6e6f300beaad552d76f76378a45e8110965da1f181b5322ef4cde467ff3ba#640 : BitVec 640))

def wLinkEvents0 : State × Nat × (Fin 48) × Nat :=
  let s := State.reset
  let t : Nat := 5
  let l : Fin 48 := 2
  let at_ : Nat := 1
  let s := on s (fun c => {c with pwr := {c.pwr with phase := .running}})
  let s := on s (fun c => c.wr (FAB_LK_CFG_WIDTH l.val) (1 + t % 3))
  let at_ := at_ % 100
  let t := t + 100000000
  let s := on s (fun c => (c.setLink l.val {c.link l.val with first := some at_, tx := .down}).wr (FAB_LK_STAT_STATE l.val) (t % 5))
  let s := on s (fun c => (c.wr (FAB_LK_STAT_PEER_RX_UP l.val) 3).wr (FAB_LK_STAT_STATE l.val) 1)
  (s, (100000005 : Nat), (2 : Fin 48), (1 : Nat))

def wLinkEvents1 : State × Nat × (Fin 48) × Nat :=
  let s := State.reset
  let n : Fin 48 := 2
  let s := on s (fun c => {c with pwr := {c.pwr with phase := .running}})
  let l := n.val / 4 * 4
  let s := on s (fun c => let c := (c.wr (FAB_LK_CFG_WIDTH (n.val/4*4+1)) 0).wr (FAB_LK_CFG_WIDTH (n.val/4*4+2)) 0 |>.wr (FAB_LK_CFG_WIDTH (n.val/4*4+3)) 0; c.wr (FAB_LK_CFG_WIDTH l) 3)
  let s := on s (fun c => let c := (c.setLink l {c.link l with rx := .up, wasUp := true, rxUse := 15}).wr (FAB_LK_STAT_STATE l) 3; let c := c.each (List.range 4) fun c i => (c.wr (lnState (l + i)) 6).setLane (l + i) {c.lane (l + i) with seen := true, bad := false, skewed := false, llane := i}; c.wr (lnState n.val) 2)
  (s, (5 : Nat), (2 : Fin 48), (0 : Nat))

def wLinkEvents2 : State × Nat × (Fin 48) × Nat :=
  let s := State.reset
  let t : Nat := 2
  let n : Fin 48 := 3
  let s := on s (fun c => {c with pwr := {c.pwr with phase := .running}})
  let l := n.val / 4 * 4
  let s := on s (fun c => let c := (c.wr (FAB_LK_CFG_WIDTH (n.val/4*4+1)) 0).wr (FAB_LK_CFG_WIDTH (n.val/4*4+2)) 0 |>.wr (FAB_LK_CFG_WIDTH (n.val/4*4+3)) 0; c.wr (FAB_LK_CFG_WIDTH l) 3)
  let s := on s (fun c => let c := (c.setLink l {c.link l with rx := .up, wasUp := true}).wr (FAB_LK_STAT_STATE l) 3; c.each (List.range 4) fun c i => c.wr (lnState (l + i)) (t % 5))
  (s, (2 : Nat), (3 : Fin 48), (0 : Nat))

def wLinkEvents3 : State × Nat × (Fin 48) × Nat × Nat :=
  let s := State.reset
  let t : Nat := 7
  let l : Fin 48 := 2
  let s := on s (fun c => {c with pwr := {c.pwr with phase := .running}})
  let s := on s (fun c => c.wr (FAB_LK_CFG_WIDTH l.val) (1 + t % 3))
  let t := t + 1000000000
  let s := on s (fun c => (c.setLink l.val {c.link l.val with tx := .up, txUse := t % 2, since := [(0,0),(1,0),(3,0)]}).wr (FAB_LK_STAT_PEER_RX_UP l.val) (15 - t % 3))
  (s, (1000000007 : Nat), (2 : Fin 48), (9 : Nat), (2 : Nat))

def wLinkEvents4 : State × Nat × (Fin 2) × (Fin 192) × Pend × Nat :=
  let s := State.reset
  let t : Nat := 3
  let q : Fin 2 := 1
  let i : Fin 192 := 0
  let w : Nat := 0
  let s := on s (fun c => {c with pwr := {c.pwr with phase := .running}})
  let s := on s (fun c => (({c with planes := [c.plane 0, c.plane 1]} : Chip).wr (REF_PLANE_STAT_STATE 0) (2 + t % 3)).wr (REF_PLANE_STAT_STATE 1) 3)
  let e := s.chip.rd (XPT_EPOCH_EPOCH q.val)
  let p : Pend := { plane := q.val, epoch := e, change := ⟨.fabSlot, i.val, [w % 2^17]⟩, chan := w % 4, seq := 5, host := w % 3 != 0 }
  let s := on s (fun c => {c with planes := [{c.plane 0 with counted := true},{c.plane 1 with counted := true}], fw := {c.fw with queue := c.fw.queue.filter (fun y => y.change.kind != .fabSlot) ++ [p] }})
  (s, (3 : Nat), (1 : Fin 2), (0 : Fin 192), ({ plane := 1, epoch := 0, change := { kind := Sys2Proof.Machine.Kind.fabSlot, idx := 0, ws := [0] }, chan := 0, seq := 5, host := false } : Pend), (0 : Nat))

def wLinkEvents5 : State × Nat × (Fin 96) × Bool × Bool × Bool × Bool :=
  let s := State.reset
  let t : Nat := 5
  let m : Fin 96 := 0
  let s := on s (fun c => {c with pwr := {c.pwr with phase := .running}})
  let s := on s (fun c => c.wr TOP_ROLE_ROLE 1)
  let s : State := { s with chip := (fun c : Chip => let f := fun (c : Chip) i => (c.wr (FAB_LK_CFG_WIDTH (i / 16 * 4)) 3 |>.wr (FAB_LK_CFG_WIDTH (i / 16 * 4 + 1)) 0 |>.wr (FAB_LK_CFG_WIDTH (i / 16 * 4 + 2)) 0 |>.wr (FAB_LK_CFG_WIDTH (i / 16 * 4 + 3)) 0).setLink (i / 16 * 4) {c.link (i / 16 * 4) with rx := .up, rxMask := 0xFFFF - t % 5, faults := t % 11 * 3000}
    f (f c m.val) (m.val + 96)) s.chip }
  (s, (5 : Nat), (0 : Fin 96), (true : Bool), (true : Bool), (true : Bool), (true : Bool))

def wNetLinkStates0 : State × Nat × (Fin 2) :=
  let s := State.reset
  let p : Fin 2 := 0
  let s := on s (fun c => {c with pwr := {c.pwr with phase := .running}})
  let s := on s (fun c => c.wr (NET_PORT_STAT_STATE p.val) (npNoSignal))
  (s, (2 : Nat), (0 : Fin 2))

def wNetLinkStates1 : State × Nat × (Fin 2) × (BitVec 4) :=
  let s := State.reset
  let t : Nat := 5
  let p : Fin 2 := 0
  let s := on s (fun c => {c with pwr := {c.pwr with phase := .running}})
  let s := on s (fun c => c.wr (NET_PORT_STAT_STATE p.val) ([npAn, npTraining, npAligning, npRemote].getD (t % 4) 0))
  (s, (5 : Nat), (0 : Fin 2), (0x1#4 : BitVec 4))

def wNetLinkStates2 : State × Nat × (Fin 2) :=
  let s := State.reset
  let p : Fin 2 := 1
  let s := on s (fun c => {c with pwr := {c.pwr with phase := .running}})
  let s := on s (fun c => c.wr (NET_PORT_STAT_STATE p.val) (npAn))
  (s, (1 : Nat), (1 : Fin 2))

def wNetLinkStates3 : State × Nat × (Fin 2) × (BitVec 4) :=
  let s := State.reset
  let p : Fin 2 := 0
  let s := on s (fun c => {c with pwr := {c.pwr with phase := .running}})
  let s := on s (fun c => c.wr (NET_PORT_STAT_STATE p.val) (npTraining))
  (s, (6 : Nat), (0 : Fin 2), (0x8#4 : BitVec 4))

def wNetLinkStates4 : State × Nat × (Fin 2) :=
  let s := State.reset
  let t : Nat := 5
  let p : Fin 2 := 0
  let s := on s (fun c => {c with pwr := {c.pwr with phase := .running}})
  let s := on s (fun c => c.wr (NET_PORT_STAT_STATE p.val) ([npAn, npTraining, npAligning].getD (t % 3) 0))
  (s, (5 : Nat), (0 : Fin 2))

def wNetLinkStates5 : State × Nat × (Fin 2) × Bool :=
  let s := State.reset
  let t : Nat := 0
  let p : Fin 2 := 0
  let s := on s (fun c => {c with pwr := {c.pwr with phase := .running}})
  let s := on s (fun c => c.wr (NET_PORT_STAT_STATE p.val) (if t % 2 = 0 then npAligning else npRemote))
  (s, (0 : Nat), (0 : Fin 2), (true : Bool))

def wNetLinkStates6 : State × Nat × (Fin 2) × (Fin 3) × (BitVec 4) :=
  let s := State.reset
  let p : Fin 2 := 0
  let s := on s (fun c => {c with pwr := {c.pwr with phase := .running}})
  let s := on s (fun c => c.wr (NET_PORT_STAT_STATE p.val) (npUp))
  (s, (3 : Nat), (0 : Fin 2), (2 : Fin 3), (0x5#4 : BitVec 4))

def wNetGates0 : State × Nat × (Fin 2) :=
  let s := State.reset
  let s := on s (fun c => {c with pwr := {c.pwr with phase := .running}})
  (s, (2 : Nat), (1 : Fin 2))

def wNetGates1 : State × Nat × (Fin 2) :=
  let s := State.reset
  let t : Nat := 7
  let p : Fin 2 := 0
  let s := on s (fun c => {c with pwr := {c.pwr with phase := .running}})
  let s := on s (fun c => ((c.set (NET_GCL_CTL_PENDING p.val)).setNet p.val {c.net p.val with startAt := t % 50}).wr (NET_GCL_CTL_SHADOW_ENTRIES p.val) (t % 257))
  let s := on s (fun c => {c with clock := {c.clock with n := 1000 + t}})
  (s, (7 : Nat), (0 : Fin 2))

def wNetGates2 : State × Nat × (Fin 2) :=
  let s := State.reset
  let s := on s (fun c => ({c with pwr := {c.pwr with phase := .running}} : Chip).set TOP_STATUS_FW_READY)
  (s, (5 : Nat), (0 : Fin 2))

def wNetFrames0 : State × Nat × (Fin 2) × NetFrame × Nat :=
  let s := State.reset
  let p : Fin 2 := 0
  let s := on s (fun c => {c with pwr := {c.pwr with phase := .running}})
  let s := on s (fun c => c.wr (NET_PORT_STAT_STATE p.val) (npUp))
  (s, (2 : Nat), (0 : Fin 2), ({ len := 0, code := false, fcsOk := true, da := 0x2fc7984ea07c#48, etype := 0xb2bd#16, udp := none, corrected := 1, uncorrectable := 1 } : NetFrame), (2 : Nat))

def wNetFrames1 : State × Nat × (Fin 2) × NetFrame × (Fin 3) :=
  let s := State.reset
  let p : Fin 2 := 1
  let s := on s (fun c => {c with pwr := {c.pwr with phase := .running}})
  let s := on s (fun c => c.wr (NET_PORT_STAT_STATE p.val) (npUp))
  let s := on s (fun c => c.wr (NET_PORT_CFG_MAXLEN p.val) 1518)
  (s, (5 : Nat), (1 : Fin 2), ({ len := 65, code := false, fcsOk := true, da := 0xffffffffffff#48, etype := 0xd2f4#16, udp := none, corrected := 0, uncorrectable := 0 } : NetFrame), (2 : Fin 3))

def wNetFrames2 : State × Nat × (Fin 2) × NetFrame × (Fin 3) :=
  let s := State.reset
  let p : Fin 2 := 1
  let s := on s (fun c => {c with pwr := {c.pwr with phase := .running}})
  let s := on s (fun c => c.wr (NET_PORT_STAT_STATE p.val) (npUp))
  let s := on s (fun c => (c.wr (NET_PORT_CFG_MAXLEN p.val) 1518).setNet p.val {c.net p.val with ptpQ := 64, mgmtQ := 256})
  (s, (0 : Nat), (1 : Fin 2), ({ len := 64, code := false, fcsOk := true, da := 0xffffffffffff#48, etype := 0x6cc1#16, udp := none, corrected := 1, uncorrectable := 0 } : NetFrame), (2 : Fin 3))

def wNetFrames3 : State × Nat × (Fin 2) × (Fin 8) × Nat :=
  let s := State.reset
  let t : Nat := 2
  let p : Fin 2 := 1
  let s := on s (fun c => {c with pwr := {c.pwr with phase := .running}})
  let s := on s (fun c => c.wr (NET_PORT_STAT_STATE p.val) (npUp))
  let s := on s (fun c => ((c.wr (NET_PORT_CFG_MAXLEN p.val) 1518).setNet p.val {c.net p.val with gates := 255}).when (t % 2 == 0) fun c => (c.clr (NET_GCL_CTL_ENABLE p.val)).clr (NET_GCL_CTL_PENDING p.val))
  (s, (2 : Nat), (1 : Fin 2), (3 : Fin 8), (1 : Nat))

def wNetFrames4 : State × Nat × (Fin 2) × (Fin 8) × Nat × Bool :=
  let s := State.reset
  let p : Fin 2 := 1
  let s := on s (fun c => {c with pwr := {c.pwr with phase := .running}})
  let s := on s (fun c => c.wr (NET_PORT_STAT_STATE p.val) (npUp))
  let s := on s (fun c => (c.wr (NET_PORT_CFG_MAXLEN p.val) 1518))
  (s, (5 : Nat), (1 : Fin 2), (0 : Fin 8), (2000 : Nat), (true : Bool))

def wNetFrames5 : State × Nat × (Fin 2) × (List (Fin 8 × Nat)) × Bool :=
  let s := State.reset
  let t : Nat := 0
  let p : Fin 2 := 1
  let s := on s (fun c => {c with pwr := {c.pwr with phase := .running}})
  let s := on s (fun c => c.wr (NET_PORT_STAT_STATE p.val) (npUp))
  let s := on s (fun c => ((c.wr (NET_PORT_CFG_MAXLEN p.val) 1518).setNet p.val {c.net p.val with gates := 255 - t % 5}).when (t % 2 == 0) fun c => (c.clr (NET_GCL_CTL_ENABLE p.val)).clr (NET_GCL_CTL_PENDING p.val))
  (s, (0 : Nat), (1 : Fin 2), ([] : List (Fin 8 × Nat)), (true : Bool))

def wNetFrames6 : State × Nat × (Fin 2) × (List (Fin 8 × Nat)) × Bool :=
  let s := State.reset
  let t : Nat := 1
  let p : Fin 2 := 1
  let s := on s (fun c => {c with pwr := {c.pwr with phase := .running}})
  let s := on s (fun c => c.wr (NET_PORT_STAT_STATE p.val) (t % 6))
  (s, (1 : Nat), (1 : Fin 2), ([] : List (Fin 8 × Nat)), (true : Bool))

def wFlowsReceive0 : State × Nat × (Fin 112) × (Fin 2) × MediaPacket :=
  let s := State.reset
  let t : Nat := 0
  let f : Fin 112 := 3
  let s := on s (fun c => {c with pwr := {c.pwr with phase := .running}})
  let f : Fin 112 := Fin.ofNat 112 (if t % 2 = 0 then f.val % 32 else 96 + f.val % 16)
  let s := on s (fun c => (c.set (NET_RXF_CTL_JOINED f.val)).set (NET_RXF_CTL_DUAL f.val))
  (s, (0 : Nat), (3 : Fin 112), (0 : Fin 2), ({ seq := 0, rtp := 0xc4966897#32, field2 := true, line := 7, good := false, anc := [] } : MediaPacket))

def wFlowsReceive1 : State × Nat × (Fin 112) × (Fin 2) × MediaPacket × Nat × Nat × Nat × Nat × Int :=
  let s := State.reset
  let t : Nat := 6
  let f : Fin 112 := 3
  let s := on s (fun c => {c with pwr := {c.pwr with phase := .running}})
  let f : Fin 112 := Fin.ofNat 112 (if t % 2 = 0 then f.val % 32 else 96 + f.val % 16)
  let s := on s (fun c => (c.set (NET_RXF_CTL_JOINED f.val)).set (NET_RXF_CTL_DUAL f.val))
  let s := on s (fun c => (({c with planes := [c.plane 0, c.plane 1]} : Chip).wr (REF_PLANE_STAT_STATE 0) (2 + t % 3)).wr (REF_PLANE_STAT_STATE 1) 3)
  let s := on s (fun c => (c.set (NET_ANCHOR_CTL_VALID 0)).set (NET_ANCHOR_CTL_VALID 1))
  let s := on s (fun c => let v := c.videoOf f.val; ((c.set (NET_RXF_CTL_JOINED v)).wr (NET_RXF_CTL_FORMAT v) 5).wr (NET_RXF_CTL_LAT v) 3)
  let s := on s (fun c => let c := (c.wr (REF_PLANE_CFG_FORMAT 0) 5).wr (REF_PLANE_CFG_FORMAT 1) 5; {c with planes := [{c.plane 0 with high := 0, nextB := t + 1000000, anchorAt := 3},{c.plane 1 with high := 0, nextB := t + 1000000, anchorAt := 3}]})
  let s := on s (fun c => (c.wr (XPT_EPOCH_EPOCH 0) 20).wr (XPT_EPOCH_EPOCH 1) 20)
  let s := on s (fun c => c.setFlow f.val {c.flow f.val with seqs := [], frames := (c.flow f.val).frames})
  (s, (6 : Nat), (3 : Fin 112), (1 : Fin 2), ({ seq := 0, rtp := 0x00005dc6#32, field2 := false, line := 6, good := true, anc := [] } : MediaPacket), (0 : Nat), (5 : Nat), (3 : Nat), (19 : Nat), (6 : Int))

def wFlowsReceive2 : State × Nat × (Fin 112) × (Fin 2) × AudioPacket × Nat × Int :=
  let s := State.reset
  let f : Fin 112 := 3
  let p : AudioPacket := { seq := 0, rtp := 0x0ad9c893#32, good := true, nonPcm := true }
  let s := on s (fun c => {c with pwr := {c.pwr with phase := .running}})
  let f : Fin 112 := Fin.ofNat 112 (32 + f.val % 64)
  let s := on s (fun c => (c.set (NET_RXF_CTL_JOINED f.val)).set (NET_RXF_CTL_DUAL f.val))
  let p := {p with good := true}
  let s := on s (fun c => (c.set (NET_ANCHOR_CTL_VALID 0)).set (NET_ANCHOR_CTL_VALID 1))
  let s := on s (fun c => (c.setFlow f.val {c.flow f.val with seqs := (c.flow f.val).seqs.filter fun e => e.1 != p.seq}).wr (NET_RXF_AUX_ALAT f.val) 96)
  (s, (0 : Nat), (35 : Fin 112), (1 : Fin 2), ({ seq := 0, rtp := 0x00000000#32, good := true, nonPcm := true } : AudioPacket), (0 : Nat), (96 : Int))

def wFlowsReceive3 : State × Nat × (Fin 112) × (Fin 2) × AudioPacket :=
  let s := State.reset
  let f : Fin 112 := 0
  let p : AudioPacket := { seq := 3, rtp := 0x2578e44b#32, good := true, nonPcm := true }
  let s := on s (fun c => {c with pwr := {c.pwr with phase := .running}})
  let f : Fin 112 := Fin.ofNat 112 (32 + f.val % 64)
  let s := on s (fun c => (c.set (NET_RXF_CTL_JOINED f.val)).set (NET_RXF_CTL_DUAL f.val))
  let p := {p with good := true}
  let s := on s (fun c => (c.set (NET_ANCHOR_CTL_VALID 0)).set (NET_ANCHOR_CTL_VALID 1))
  let s := on s (fun c => c.setFlow f.val {c.flow f.val with seqs := (p.seq, 7) :: (c.flow f.val).seqs})
  (s, (3 : Nat), (32 : Fin 112), (1 : Fin 2), ({ seq := 3, rtp := 0x2578e44b#32, good := true, nonPcm := true } : AudioPacket))

def wFlowsReceive4 : State × Nat × (Fin 112) × Nat :=
  let s := State.reset
  let t : Nat := 6
  let f : Fin 112 := 1
  let q : Nat := 7
  let s := on s (fun c => {c with pwr := {c.pwr with phase := .running}})
  let f : Fin 112 := Fin.ofNat 112 (32 + f.val % 64)
  let s := on s (fun c => (c.set (NET_RXF_CTL_JOINED f.val)).set (NET_RXF_CTL_DUAL f.val))
  let s := on s (fun c => c.setFlow f.val {c.flow f.val with upTo := if t % 2 = 0 then none else some (q - 1)})
  (s, (6 : Nat), (33 : Fin 112), (7 : Nat))

def wFlowsReceive5 : State × Nat × (Fin 112) × (Fin 2) :=
  let s := State.reset
  let t : Nat := 6
  let f : Fin 112 := 3
  let leg : Fin 2 := 0
  let s := on s (fun c => {c with pwr := {c.pwr with phase := .running}})
  let s := on s (fun c => (c.set (NET_RXF_CTL_JOINED f.val)).set (NET_RXF_CTL_DUAL f.val))
  let s := on s (fun c => (c.set (legUp f.val leg.val)).when (t % 3 != 0) (·.clr (legUp f.val (1 - leg.val))))
  let t := t + 100000000
  let s := on s (fun c => c.setFlow f.val {c.flow f.val with legAt := (t % 7, t % 5), lost := (false, t % 2 == 0 && leg.val == 0)})
  (s, (100000006 : Nat), (3 : Fin 112), (0 : Fin 2))

def wFlowsReceive6 : State × Nat × (Fin 112) × (Fin 2) :=
  let s := State.reset
  let f : Fin 112 := 2
  let s := on s (fun c => {c with pwr := {c.pwr with phase := .running}})
  let s := on s (fun c => (c.set (NET_RXF_CTL_JOINED f.val)).set (NET_RXF_CTL_DUAL f.val))
  let s := on s (fun c => c.setFlow f.val {c.flow f.val with lost := (true, true)})
  (s, (6 : Nat), (2 : Fin 112), (1 : Fin 2))

def wFlowsSend0 : State × Nat × (Fin 112) × (Fin 2) × Nat :=
  let s := State.reset
  let x : Fin 112 := 2
  let s := on s (fun c => {c with pwr := {c.pwr with phase := .running}})
  let s := on s (fun c => c.wr (NET_TXF_STAT_STATE x.val) 2)
  let s := on s (fun c => c.set (NET_TXF_CTL_DUAL x.val))
  (s, (6 : Nat), (2 : Fin 112), (1 : Fin 2), (0 : Nat))

def wFlowsSend1 : State × Nat × (Fin 112) × (List Nat) :=
  let s := State.reset
  let x : Fin 112 := 1
  let s := on s (fun c => {c with pwr := {c.pwr with phase := .running}})
  let x : Fin 112 := Fin.ofNat 112 (96 + x.val % 16)
  let s := on s (fun c => c.wr (NET_TXF_STAT_STATE x.val) 2)
  (s, (0 : Nat), (97 : Fin 112), ([] : List Nat))

def wFlowsSend2 : State × Nat × (Fin 2) :=
  let s := State.reset
  let t : Nat := 5
  let q : Fin 2 := 1
  let s := on s (fun c => ({c with pwr := {c.pwr with phase := .running}} : Chip).set TOP_STATUS_FW_READY)
  let s := on s (fun c => (({c with planes := [c.plane 0, c.plane 1]} : Chip).wr (REF_PLANE_STAT_STATE 0) (2 + t % 3)).wr (REF_PLANE_STAT_STATE 1) 3)
  let s := on s (fun c => {c with ptp := {c.ptp with firstLock := true}, planes := [{c.plane 0 with counted := true},{c.plane 1 with counted := true}]})
  let s := on s (fun c => ((c.clr (NET_ANCHOR_CTL_VALID q.val)).wr TWN_STATE_MODE (t % 2)).wr (REF_PLANE_STAT_STATE q.val) 2)
  (s, (5 : Nat), (1 : Fin 2))

def wPtpRecords0 : State × Nat × (Fin 2) × (BitVec 16) × (BitVec 8) × (BitVec 64) × (BitVec 16) × (Fin 9) :=
  let s := State.reset
  let t : Nat := 1
  let p : Fin 2 := 0
  let s := on s (fun c => {c with pwr := {c.pwr with phase := .running}})
  let s := on s (fun c => (c.set (PTP_PORT_CFG_ENABLE p.val)).wr PTP_CFG_DOMAIN (t % 4))
  (s, (1 : Nat), (0 : Fin 2), (0x3d18#16 : BitVec 16), (0x01#8 : BitVec 8), (0xe854b0dec05daed1#64 : BitVec 64), (0xe00d#16 : BitVec 16), (3 : Fin 9))

def wPtpRecords1 : State × Nat × (Fin 2) × (BitVec 16) × (BitVec 8) × (BitVec 64) × (BitVec 16) × (Fin 9) :=
  let s := State.reset
  let t : Nat := 2
  let p : Fin 2 := 1
  let s := on s (fun c => {c with pwr := {c.pwr with phase := .running}})
  let s := on s (fun c => (c.set (PTP_PORT_CFG_ENABLE p.val)).wr PTP_CFG_DOMAIN (t % 4))
  let s := on s (fun c => c.setPtpPort p.val {c.ptpPort p.val with rxq := List.replicate 64 [1,2,3,4]})
  (s, (2 : Nat), (1 : Fin 2), (0xcf02#16 : BitVec 16), (0x02#8 : BitVec 8), (0x2c30259de8922f9f#64 : BitVec 64), (0xd5c5#16 : BitVec 16), (0 : Fin 9))

def wPtpRecords2 : State × Nat × (Fin 2) × (BitVec 16) × (Fin 9) :=
  let s := State.reset
  let t : Nat := 7
  let p : Fin 2 := 1
  let s := on s (fun c => {c with pwr := {c.pwr with phase := .running}})
  let s := on s (fun c => (c.clr (PTP_PORT_STAT_TXR_STOPPED p.val)).when (t % 2 == 0) fun c => c.setPtpPort p.val {c.ptpPort p.val with txr := List.replicate 63 [1,2,3,4]})
  (s, (7 : Nat), (1 : Fin 2), (0x15ba#16 : BitVec 16), (3 : Fin 9))

def wPtpRecords3 : State × Nat × (Fin 2) × (BitVec 16) × (Fin 9) :=
  let s := State.reset
  let p : Fin 2 := 0
  let s := on s (fun c => {c with pwr := {c.pwr with phase := .running}})
  let s := on s (fun c => (c.set (PTP_PORT_STAT_TXR_STOPPED p.val)))
  (s, (3 : Nat), (0 : Fin 2), (0xa599#16 : BitVec 16), (6 : Fin 9))

def wPtpRecords4 : State × Nat × (Fin 2) × (List Nat) × (List (List Nat)) :=
  let s := State.reset
  let p : Fin 2 := 0
  let e : List Nat := []
  let rest : List (List Nat) := []
  let s := on s (fun c => ({c with pwr := {c.pwr with phase := .running}} : Chip).set TOP_STATUS_FW_READY)
  let s := on s (fun c => c.setPtpPort p.val {c.ptpPort p.val with rxq := e :: rest})
  (s, (1 : Nat), (0 : Fin 2), ([] : List Nat), ([] : List (List Nat)))

def wPtpRecords5 : State × Nat × (Fin 2) × (List Nat) × (List (List Nat)) :=
  let s := State.reset
  let p : Fin 2 := 1
  let e : List Nat := []
  let rest : List (List Nat) := []
  let s := on s (fun c => ({c with pwr := {c.pwr with phase := .running}} : Chip).set TOP_STATUS_FW_READY)
  let s := on s (fun c => c.setPtpPort p.val {c.ptpPort p.val with txr := e :: rest})
  (s, (6 : Nat), (1 : Fin 2), ([] : List Nat), ([] : List (List Nat)))

def wPtpServo0 : State × Nat × (Fin 2) × Int × Int × Int × Nat :=
  let s := State.reset
  let t : Nat := 5
  let p : Fin 2 := 0
  let s := on s (fun c => ({c with pwr := {c.pwr with phase := .running}} : Chip).set TOP_STATUS_FW_READY)
  let s := on s (fun c => let c := {c with ptp := {c.ptp with relock := false}}; (((c.wr PTP_SERVO_PORT p.val).wr PTP_SERVO_STATE ([2,3,5].getD (t % 3) 2)).set PTP_SERVO_EVER_LOCKED))
  let s := on s (fun c => (c.wr PTP_JUMP_MAX_JUMP_MAX 1000000))
  (s, (5 : Nat), (0 : Fin 2), (8 : Int), (9 : Int), (93 : Int), (0 : Nat))

def wPtpServo1 : State × Nat × (Fin 2) × Int × Int × Int × Nat :=
  let s := State.reset
  let t : Nat := 0
  let p : Fin 2 := 0
  let s := on s (fun c => ({c with pwr := {c.pwr with phase := .running}} : Chip).set TOP_STATUS_FW_READY)
  let s := on s (fun c => let c := {c with ptp := {c.ptp with relock := false}}; (((c.wr PTP_SERVO_PORT p.val).wr PTP_SERVO_STATE ([2,3,5].getD (t % 3) 2)).set PTP_SERVO_EVER_LOCKED))
  let s := on s (fun c => (c.wr PTP_JUMP_MAX_JUMP_MAX (t % 60)))
  let s := on s (fun c => {c with ptp := {c.ptp with refused := c.ptp.refused ++ List.replicate (t % 8) 3}})
  (s, (0 : Nat), (0 : Fin 2), (42 : Int), (67 : Int), (146 : Int), (1 : Nat))

def wPtpServo2 : State × Nat × (Fin 2) × (BitVec 8) × (BitVec 64) × Nat :=
  let s := State.reset
  let t : Nat := 0
  let p : Fin 2 := 1
  let s := on s (fun c => ({c with pwr := {c.pwr with phase := .running}} : Chip).set TOP_STATUS_FW_READY)
  let s := on s (fun c => (c.set (PTP_PORT_CFG_ENABLE p.val)).wr PTP_CFG_DOMAIN (t % 4))
  (s, (0 : Nat), (1 : Fin 2), (0x00#8 : BitVec 8), (0xe024c8114c6a98c3#64 : BitVec 64), (0 : Nat))

def wPtpServo3 : State × Nat × (Fin 2) × Nat :=
  let s := State.reset
  let s := on s (fun c => ({c with pwr := {c.pwr with phase := .running}} : Chip).set TOP_STATUS_FW_READY)
  (s, (0 : Nat), (1 : Fin 2), (2250000000 : Nat))

def wPtpServo4 : State × Nat × Nat × Master :=
  let s := State.reset
  let since : Nat := 1
  let m : Master := { id := 2, rank := 0, heard := [], qualified := true }
  let s := on s (fun c => ({c with pwr := {c.pwr with phase := .running}} : Chip).set TOP_STATUS_FW_READY)
  let m : Master := {m with qualified := true, id := m.id % 2^64}
  let since := since % 100
  let s := on s (fun c => let q := c.rd PTP_CFG_PREF_PORT; {c.setPtpPort q {c.ptpPort q with masters := [m]} with ptp := {(c.setPtpPort q {c.ptpPort q with masters := [m]}).ptp with prefSince := some since}})
  (s, (40000000005 : Nat), (1 : Nat), ({ id := 2, rank := 0, heard := [], qualified := true } : Master))

def wPtpServo5 : State × Nat × (Fin 2) × Int × Int × Int × Nat :=
  let s := State.reset
  let t : Nat := 7
  let p : Fin 2 := 1
  let s := on s (fun c => ({c with pwr := {c.pwr with phase := .running}} : Chip).set TOP_STATUS_FW_READY)
  let s := on s (fun c => ((c.wr PTP_SERVO_PORT p.val).wr PTP_SERVO_STATE ([2,3,5].getD (t % 3) 2)))
  let s := on s (fun c => {(c.clr PTP_SERVO_EVER_LOCKED) with ptp := {c.ptp with first := [1,5,-3,t,4,4,9]}})
  (s, (7 : Nat), (1 : Fin 2), (90 : Int), (50 : Int), (72 : Int), (0 : Nat))

def wPtpServo6 : State × Nat × (Fin 2) × Int × Int × Int × Nat :=
  let s := State.reset
  let t : Nat := 3
  let p : Fin 2 := 1
  let s := on s (fun c => ({c with pwr := {c.pwr with phase := .running}} : Chip).set TOP_STATUS_FW_READY)
  let s := on s (fun c => ((c.wr PTP_SERVO_PORT p.val).wr PTP_SERVO_STATE ([2,3,5].getD (t % 3) 2)))
  let s := on s (fun c => {(c.set PTP_SERVO_EVER_LOCKED) with ptp := {c.ptp with relock := true}})
  (s, (3 : Nat), (1 : Fin 2), (190 : Int), (4 : Int), (3 : Int), (0 : Nat))

def wCandidates0 : State × Nat × (List RefMeas) × Int × (Fin 5) × RefMeas :=
  let s := State.reset
  let t : Nat := 6
  let k : Fin 5 := 1
  let s := on s (fun c => {c with pwr := {c.pwr with phase := .running}})
  let s := on s (fun c => (c.wr (REF_CAND_STAT_STATE k.val) (1 + t % 4)).wr (REF_CAND_STAT_GOOD_WINDOWS k.val) (if t % 3 = 0 then 7 else t % 8))
  (s, (6 : Nat), ([{ offset := 1, present := 0, active := true, phase0 := 1, phase1 := 0 }, { offset := 1, present := 0, active := true, phase0 := 1, phase1 := 0 }, { offset := 1, present := 0, active := true, phase0 := 1, phase1 := 0 }, { offset := 1, present := 0, active := true, phase0 := 1, phase1 := 0 }, { offset := 1, present := 0, active := true, phase0 := 1, phase1 := 0 }] : List RefMeas), (90 : Int), (1 : Fin 5), ({ offset := 1, present := 0, active := true, phase0 := 1, phase1 := 0 } : RefMeas))

def wCandidates1 : State × Nat × (Fin 5) × Bool × (List RefMeas) :=
  let s := State.reset
  let t : Nat := 2
  let k : Fin 5 := 0
  let s := on s (fun c => {c with pwr := {c.pwr with phase := .running}})
  let s := on s (fun c => c.wr (REF_CAND_STAT_STATE k.val) (2 + t % 3))
  (s, (2 : Nat), (0 : Fin 5), (true : Bool), ([] : List RefMeas))

def wCandidates2 : State × Nat × Int :=
  let s := State.reset
  let s := on s (fun c => ({c with pwr := {c.pwr with phase := .running}} : Chip).set TOP_STATUS_FW_READY)
  let s := on s (fun c => ((c.clr REF_LO_CAL_VALID).set REF_LO_PRESENT).wr PTP_SERVO_STATE 3)
  let s := on s (fun c => {c with ptp := {c.ptp with lockedAt := 0}})
  (s, (200000000005 : Nat), (7 : Int))

def wCandidates3 : State × Nat × (Fin 5) × Int × (List RefMeas) :=
  let s := State.reset
  let t : Nat := 6
  let k : Fin 5 := 2
  let s := on s (fun c => {c with pwr := {c.pwr with phase := .running}})
  let s := on s (fun c => (c.wr (REF_CAND_STAT_STATE k.val) (1 + t % 4)).setCand k.val {c.cand k.val with held := []})
  (s, (6 : Nat), (2 : Fin 5), (61 : Int), ([] : List RefMeas))

def wCandidates4 : State × Nat × (Fin 5) × Int × (List RefMeas) :=
  let s := State.reset
  let t : Nat := 1
  let k : Fin 5 := 3
  let d : Int := 7
  let s := on s (fun c => {c with pwr := {c.pwr with phase := .running}})
  let s := on s (fun c => ((c.wr (REF_CAND_STAT_STATE k.val) (1 + t % 4)).wr (REF_PLANE_STAT_SELECTED 0) k.val).wr (REF_PLANE_STAT_STATE 0) (2 + t % 2))
  let d := d * 40 + 5001
  let s := on s (fun c => c.setCand k.val {c.cand k.val with held := [[], [d + 4], [d - 3, d + 5]].getD (t % 3) []})
  (s, (1 : Nat), (3 : Fin 5), (5281 : Int), ([] : List RefMeas))

def wPlaneSelections0 : State × Nat × (Fin 2) × (List RefMeas) × Nat :=
  let s := State.reset
  let t : Nat := 7
  let q : Fin 2 := 1
  let k : Nat := 1
  let s := on s (fun c => {c with pwr := {c.pwr with phase := .running}})
  let s := on s (fun c => let c := c.when (t % 3 != 0) (·.wr TWN_STATE_MODE 1); let c := c.each (List.range 5) fun c k => (c.wr (REF_CAND_STAT_STATE k) 3).wr (REF_CAND_CFG_KIND k) 2; ((c.wr (REF_PLANE_STAT_STATE q.val) (2 + t % 4)).wr (REF_PLANE_STAT_SELECTED q.val) (t % 8)).set (REF_PLANE_CFG_REVERTIVE q.val))
  let s := on s (fun c => c.each (List.range 5) fun c i => c.setCand i {c.cand i with qualAt := some 0})
  let s := on s (fun c => c.each (List.range 5) fun c k => c.put (REF_CAND_RANK k) (17 * (k + 1)))
  (s, (800000000007 : Nat), (1 : Fin 2), ([] : List RefMeas), (0 : Nat))

def wPlaneSelections1 : State × Nat × (Fin 2) :=
  let s := State.reset
  let t : Nat := 0
  let q : Fin 2 := 0
  let s := on s (fun c => {c with pwr := {c.pwr with phase := .running}})
  let s := on s (fun c => (c.wr (REF_PLANE_STAT_STATE q.val) 3).setPlane q.val {c.plane q.val with freq := (c.plane q.val).target})
  let s := on s (fun c => c.setPlane q.val {c.plane q.val with freq := (c.plane q.val).target + (t % 9 : Nat) * freqUnit})
  (s, (0 : Nat), (0 : Fin 2))

def wPlaneSelections2 : State × Nat × (Fin 2) × Nat :=
  let s := State.reset
  let t : Nat := 1
  let q : Fin 2 := 0
  let s := on s (fun c => {c with pwr := {c.pwr with phase := .running}})
  let s := on s (fun c => (c.wr (REF_PLANE_STAT_STATE q.val) 1).setPlane q.val {c.plane q.val with startAt := t % 9})
  (s, (36000000001 : Nat), (0 : Fin 2), (4 : Nat))

def wPlaneSelections3 : State × Nat × (Fin 5) × (Fin 2) × Int × Int × Int :=
  let s := State.reset
  let t : Nat := 1
  let k : Fin 5 := 3
  let q : Fin 2 := 1
  let d1 : Int := 31
  let d2 : Int := -50
  let d3 : Int := 8
  let s := on s (fun c => {c with pwr := {c.pwr with phase := .running}})
  let s := on s (fun c => ((c.setCand k.val {c.cand k.val with held := [d3, d2, d1]}).wr (REF_PLANE_STAT_SELECTED q.val) k.val).wr (REF_PLANE_STAT_STATE q.val) (2 + t % 2))
  (s, (1 : Nat), (3 : Fin 5), (1 : Fin 2), (31 : Int), (-50 : Int), (8 : Int))

def wAudioBlocks0 : State × Nat × AudioBlock :=
  let s := State.reset
  let t : Nat := 3
  let s := on s (fun c => {c with pwr := {c.pwr with phase := .running}})
  let s := on s (fun c => let c := c.wr TOP_ROLE_ROLE (t % 2); (c.wr (PWR_DOM_CTL_CUR domAud) stActive).wr (REF_PLANE_CFG_FORMAT 0) 5 |>.wr (REF_PLANE_CFG_FORMAT 1) 7)
  let s := on s (fun c => {c with aud := {c.aud with done := 48}, planes := [{c.plane 0 with counted := true, nextB := t + 100000},{c.plane 1 with counted := true, nextB := t + 200000}]})
  let s := on s (fun c => c.wr TWN_STATE_MODE (t % 2))
  let s := on s (fun c => {c with aud := {c.aud with sapDue := []}, sap := c.sap.map fun x => (x.1, {x.2 with waits := false})})
  (s, (3 : Nat), ({ ins := [], nonAudio := [0], ratio := -1, move := 0, rates := [] } : AudioBlock))

def wAudioBlocks1 : State × Nat × AudioBlock :=
  let s := State.reset
  let s := on s (fun c => {c with pwr := {c.pwr with phase := .running}})
  let s := on s (fun c => {c with aud := {c.aud with done := 48, sapDue := []}, sap := c.sap.map (fun x => (x.1, {x.2 with waits := false})), fw := {c.fw with waits := []}})
  (s, (1 : Nat), ({ ins := [], nonAudio := [0], ratio := 2, move := 1, rates := [(0, -1)] } : AudioBlock))

def wAudioBlocks2 : State × Nat × AudioBlock :=
  let s := State.reset
  let t : Nat := 1
  let s := on s (fun c => {c with pwr := {c.pwr with phase := .running}})
  let s := on s (fun c => c.when (t % 2 == 0) fun c => {c with aud := {c.aud with done := 48, sapDue := [(.sap, 3, t), (.sapGroup, 0, 7)]}})
  (s, (1 : Nat), ({ ins := [], nonAudio := [], ratio := 0, move := 1, rates := [] } : AudioBlock))

def wSerialAudioPorts0 : State × Nat × (Fin 16) × Nat × (List (Int × Int)) × Nat :=
  let s := State.reset
  let t : Nat := 5
  let p : Fin 16 := 9
  let s := on s (fun c => {c with pwr := {c.pwr with phase := .running}})
  let s := on s (fun c => ((c.wr TOP_ROLE_ROLE (t % 2)).set (SAP_PORT_CTL_ENABLE p.val)).wr (PWR_DOM_CTL_CUR (domSap p.val)) stActive)
  let s := on s (fun c => {c with aud := {c.aud with done := 48, block := none}})
  (s, (5 : Nat), (9 : Fin 16), (1 : Nat), ([] : List (Int × Int)), (0 : Nat))

def wSerialAudioPorts1 : State × Nat × (Fin 16) × Int :=
  let s := State.reset
  let t : Nat := 7
  let p : Fin 16 := 1
  let s := on s (fun c => {c with pwr := {c.pwr with phase := .running}})
  let s := on s (fun c => ((c.wr TOP_ROLE_ROLE (t % 2)).set (SAP_PORT_CTL_ENABLE p.val)).wr (PWR_DOM_CTL_CUR (domSap p.val)) stActive)
  let s := on s (fun c => {c with aud := {c.aud with done := 48, block := none}})
  let s := on s (fun c => c.clr (SAP_PORT_CTL_MASTER p.val))
  let s := on s (fun c => c.setSap p.val {c.sapPort p.val with locked := false, good := 64})
  (s, (7 : Nat), (1 : Fin 16), (17 : Int))

def wSerialAudioPorts2 : State × Nat × (Fin 16) :=
  let s := State.reset
  let t : Nat := 7
  let p : Fin 16 := 0
  let s := on s (fun c => {c with pwr := {c.pwr with phase := .running}})
  let s := on s (fun c => ((c.wr TOP_ROLE_ROLE (t % 2)).set (SAP_PORT_CTL_ENABLE p.val)).wr (PWR_DOM_CTL_CUR (domSap p.val)) stActive)
  let s := on s (fun c => {c with aud := {c.aud with done := 48, block := none}})
  let s := on s (fun c => c.clr (SAP_PORT_CTL_MASTER p.val))
  let s := on s (fun c => c.setSap p.val {c.sapPort p.val with locked := true, bad := 2})
  (s, (7 : Nat), (0 : Fin 16))

def wSerialAudioPorts3 : State × Nat × (Fin 16) :=
  let s := State.reset
  let t : Nat := 0
  let p : Fin 16 := 0
  let s := on s (fun c => {c with pwr := {c.pwr with phase := .running}})
  let s := on s (fun c => ((c.wr TOP_ROLE_ROLE (t % 2)).set (SAP_PORT_CTL_ENABLE p.val)).wr (PWR_DOM_CTL_CUR (domSap p.val)) stActive)
  let s := on s (fun c => {c with aud := {c.aud with done := 48, block := none}})
  let s := on s (fun c => c.setSap p.val {c.sapPort p.val with slipRx := false, rx := List.replicate 64 (3,(4,5))})
  (s, (0 : Nat), (0 : Fin 16))

def wSerialAudioPorts4 : State × Nat × (Fin 16) :=
  let s := State.reset
  let t : Nat := 1
  let p : Fin 16 := 3
  let s := on s (fun c => {c with pwr := {c.pwr with phase := .running}})
  let s := on s (fun c => ((c.wr TOP_ROLE_ROLE (t % 2)).set (SAP_PORT_CTL_ENABLE p.val)).wr (PWR_DOM_CTL_CUR (domSap p.val)) stActive)
  let s := on s (fun c => {c with aud := {c.aud with done := 48, block := none}})
  let s := on s (fun c => c.setSap p.val {c.sapPort p.val with slipRx := true, slipTx := false})
  let c0 := s.chipAt t
  let s := on s (fun c => c.setSap p.val {c.sapPort p.val with rx := [(sub32 (c0.stampNow + 1) (c0.sapLat p.val), (3,4)),(5,(3,4))]})
  (s, (1 : Nat), (3 : Fin 16))

def wSerialAudioPorts5 : State × Nat × (Fin 16) :=
  let s := State.reset
  let t : Nat := 7
  let p : Fin 16 := 1
  let s := on s (fun c => {c with pwr := {c.pwr with phase := .running}})
  let s := on s (fun c => ((c.wr TOP_ROLE_ROLE (t % 2)).set (SAP_PORT_CTL_ENABLE p.val)).wr (PWR_DOM_CTL_CUR (domSap p.val)) stActive)
  let s := on s (fun c => {c with aud := {c.aud with done := 48, block := none}})
  let s := on s (fun c => c.setSap p.val {c.sapPort p.val with slipRx := false, rx := List.replicate 64 (3,(4,5))})
  let s := on s (fun c => (c.setSap p.val {c.sapPort p.val with slipTx := false, txOn := true, tx := []}))
  (s, (7 : Nat), (1 : Fin 16))

def wMultiviewer0 : State × Nat × (Fin 4) × Nat :=
  let s := State.reset
  let h : Fin 4 := 0
  let s := on s (fun c => {c with pwr := {c.pwr with phase := .running}})
  let s := on s (fun c => let c := c.set (MVC_HEAD_CTL_ENABLE h.val); {c with planes := [{c.plane 0 with counted := true},{c.plane 1 with counted := true}]})
  let s := on s (fun c => c.setHead h.val {c.head h.val with decided := none})
  (s, (0 : Nat), (0 : Fin 4), (0 : Nat))

def wMultiviewer1 : State × Nat × (Fin 4) × (Fin 4) × Nat :=
  let s := State.reset
  let h : Fin 4 := 3
  let l : Fin 4 := 0
  let at_ : Nat := 0
  let s := on s (fun c => {c with pwr := {c.pwr with phase := .running}})
  let s := on s (fun c => let c := c.set (MVC_HEAD_CTL_ENABLE h.val); {c with planes := [{c.plane 0 with counted := true},{c.plane 1 with counted := true}]})
  let s := on s (fun c => (c.clr (MVC_GL_FENCE_LOADING h.val l.val)).setGl h.val l.val {(c.head h.val).gl l.val with auto := some at_})
  let s := on s (fun c => {c with planes := [{c.plane 0 with nextB := 200000000000},{c.plane 1 with nextB := 200000000000}]})
  (s, (6 : Nat), (3 : Fin 4), (0 : Fin 4), (0 : Nat))

def wMultiviewer2 : State × Nat × (Fin 4) × (Fin 16) × Nat :=
  let s := State.reset
  let t : Nat := 2
  let h : Fin 4 := 3
  let v : Fin 16 := 3
  let n : Nat := 1
  let s := on s (fun c => {c with pwr := {c.pwr with phase := .running}})
  let s := on s (fun c => let c := c.set (MVC_HEAD_CTL_ENABLE h.val); {c with planes := [{c.plane 0 with counted := true},{c.plane 1 with counted := true}]})
  let s := on s (fun c => ((c.set (MVC_VL_CTL_ENABLE h.val v.val)).wr (MVC_VL_STAT_SHOW h.val v.val) (t % 2)).setVl h.val v.val {(c.head h.val).vl v.val with lost := some n})
  let s := on s (fun c => c.when (t % 2 == 0) fun c => c.wr (MVC_HEAD_CTL_LOSS_TIMEOUT h.val) 1)
  (s, (2 : Nat), (3 : Fin 4), (3 : Fin 16), (1 : Nat))

def wMultiviewer3 : State × Nat × (Fin 4) × (Fin 4) × (List Nat) × Wait × (List Nat) :=
  let s := State.reset
  let h : Fin 4 := 1
  let l : Fin 4 := 1
  let w : Wait := { req := { chan := 1, seq := 0, opcode := 15, flags := 43106, len := 45273, epoch := 0, payload := [115, 2] }, plan := { resp := { status := 1, flags := 0, epoch := 3, payload := [0] }, pends := [], nows := [{ kind := Sys2Proof.Machine.Kind.activate, idx := 11, ws := [] }], journal := true, fwd := false, long := some (Sys2Proof.Machine.Long.attest), after := Sys2Proof.Machine.After.fwr }, since := 1, journal := true, ack := none, peer := true, long := some (Sys2Proof.Machine.Long.domains), hand := false, taken := true }
  let ws : List Nat := [375, 1266263119]
  let s := on s (fun c => ({c with pwr := {c.pwr with phase := .running}} : Chip).set TOP_STATUS_FW_READY)
  let s := on s (fun c => let c := c.set (MVC_HEAD_CTL_ENABLE h.val); {c with planes := [{c.plane 0 with counted := true},{c.plane 1 with counted := true}]})
  let w : Wait := {w with long := some .graphic, journal := false, ack := none, peer := false, hand := false, req := {w.req with chan := w.req.chan % 16, payload := [h.val + 4 * l.val]}, plan := {w.plan with after := .none}}
  let ws := ws.map (· % 20)
  let s := on s (fun c => {(c.setGl h.val l.val {(c.head h.val).gl l.val with load := some ws}) with fw := {c.fw with waits := [w]}})
  (s, (3000 : Nat), (1 : Fin 4), (1 : Fin 4), ([15704169071] : List Nat), w, ([15, 19] : List Nat))

def wTwinModes0 : State × Nat × Bool :=
  let s := State.reset
  let t : Nat := 7
  let s := on s (fun c => {c with pwr := {c.pwr with phase := .running}})
  let s := on s (fun c => c.set TWN_CFG_ENABLE)
  let s := on s (fun c => c.wr TWN_STATE_MODE (0))
  let s := on s (fun c => let c := c.wr TOP_STRAP_TWIN_UNIT (t % 2); {c with twn := {c.twn with decided := false}, fw := {c.fw with cfgLoaded := true}, planes := [{c.plane 0 with left := true}, c.plane 1]})
  let s := on s (fun c => c.when (t % 3 == 0) fun c => c.set TWN_PEER_PRESENT |>.wr TWN_PEER_PEER_MODE (t % 3))
  (s, (7 : Nat), (true : Bool))

def wTwinModes1 : State × Nat × Bool × Nat :=
  let s := State.reset
  let at_ : Nat := 0
  let s := on s (fun c => {c with pwr := {c.pwr with phase := .running}})
  let s := on s (fun c => {c with twn := {c.twn with waitAt := some (at_ % 100)}})
  (s, (6000000001 : Nat), (true : Bool), (0 : Nat))

def wTwinModes2 : State × Nat :=
  let s := State.reset
  let t : Nat := 5
  let s := on s (fun c => {c with pwr := {c.pwr with phase := .running}})
  let s := on s (fun c => ((c.set TWN_STATE_ACTIVE_OUT).clr TWN_STATE_HANDOVER_PENDING).wr TOP_STRAP_TWIN_UNIT (t % 2))
  (s, (5 : Nat))

def wTwinModes3 : State × Nat × Bool :=
  let s := State.reset
  let s := on s (fun c => {c with pwr := {c.pwr with phase := .running}})
  let s := on s (fun c => c.set TWN_CFG_ENABLE)
  (s, (7 : Nat), (true : Bool))

def wTwinModes4 : State × Nat × Nat × (BitVec 2) × (BitVec 1) × (BitVec 2) × (BitVec 3) × (BitVec 8) × Nat :=
  let s := State.reset
  let t : Nat := 7
  let mseq : Nat := 0
  let phase : BitVec 3 := 0x7#3
  let s := on s (fun c => {c with pwr := {c.pwr with phase := .running}})
  let s := on s (fun c => {c with bus := {c.bus with outs := [], locks := []}})
  let s := on s (fun c => let c := c.set TWN_CFG_ENABLE; {c with twn := {c.twn with rx := [(t % 2,[]),(0,[(mseq + 3, 5)]),(mseq,[])]}})
  let s := on s (fun c => c.when (t % 2 == 0) fun c => c.set TWN_PEER_PRESENT)
  (s, (7 : Nat), (1 : Nat), (0x3#2 : BitVec 2), (0x0#1 : BitVec 1), (0x0#2 : BitVec 2), (0x7#3 : BitVec 3), (0x68#8 : BitVec 8), (6 : Nat))

def wTwinModes5 : State × Nat :=
  let s := State.reset
  let t : Nat := 3
  let s := on s (fun c => {c with pwr := {c.pwr with phase := .running}})
  let s := on s (fun c => {c.set TWN_PEER_PRESENT with twn := {c.twn with helloAt := t % 7}})
  (s, (30000003 : Nat))

def wTwinForwards0 : State × Nat × Nat × TwinCommand :=
  let s := State.reset
  let t : Nat := 2
  let mseq : Nat := 1
  let s := on s (fun c => {c with pwr := {c.pwr with phase := .running}})
  let s := on s (fun c => {c with bus := {c.bus with outs := [], locks := []}})
  let s := on s (fun c => let c := c.set TWN_CFG_ENABLE; {c with twn := {c.twn with rx := [(t % 2,[]),(0,[(mseq + 3, 5)]),(mseq,[])]}})
  let s := on s (fun c => c.wr TWN_STATE_MODE (2))
  let s := on s (fun c => c.wr TWN_STATE_PHASE (2 + t % 5))
  let s := on s (fun c => c.clr TOP_STATUS_FW_READY)
  (s, (2 : Nat), (2 : Nat), ({ fwdSeq := 1, chan := 0, seq := 1, cur0 := 1, cur1 := 0, epoch0 := 1, epoch1 := 0, words := [1] } : TwinCommand))

def wTwinForwards1 : State × Nat × Nat × TwinCommand :=
  let s := State.reset
  let t : Nat := 3
  let mseq : Nat := 0
  let s := on s (fun c => ({c with pwr := {c.pwr with phase := .running}} : Chip).set TOP_STATUS_FW_READY)
  let s := on s (fun c => {c with pwr := {c.pwr with phase := .running}})
  let s := on s (fun c => {c with bus := {c.bus with outs := [], locks := []}})
  let s := on s (fun c => let c := c.set TWN_CFG_ENABLE; {c with twn := {c.twn with rx := [(t % 2,[]),(0,[(mseq + 3, 5)]),(mseq,[])]}})
  let s := on s (fun c => c.wr TWN_STATE_MODE (2))
  let s := on s (fun c => c.wr TWN_STATE_PHASE (3 + t % 4))
  let s := on s (fun c => {c.clr PWR_STATUS_MRAM_HOLD with twn := {c.twn with image := none, held := []}})
  (s, (3 : Nat), (1 : Nat), ({ fwdSeq := 1, chan := 0, seq := 0, cur0 := 0, cur1 := 0, epoch0 := 1, epoch1 := 0, words := [5, 65535, 7, 0, 1, 3, 4] } : TwinCommand))

def wTwinForwards2 : State × Nat × Nat × Nat × Wait :=
  let s := State.reset
  let t : Nat := 7
  let mseq : Nat := 1
  let n : Nat := 0
  let w : Wait := { req := { chan := 1, seq := 3, opcode := 77, flags := 30143, len := 1, epoch := 0, payload := [] }, plan := { resp := { status := 16198997592, flags := 0, epoch := 0, payload := [0] }, pends := [], nows := [], journal := true, fwd := true, long := some (Sys2Proof.Machine.Long.verify), after := Sys2Proof.Machine.After.quiet }, since := 0, journal := false, ack := some 5291553009, peer := true, long := some (Sys2Proof.Machine.Long.verify), hand := false, taken := true }
  let s := on s (fun c => ({c with pwr := {c.pwr with phase := .running}} : Chip).set TOP_STATUS_FW_READY)
  let s := on s (fun c => {c with pwr := {c.pwr with phase := .running}})
  let s := on s (fun c => {c with bus := {c.bus with outs := [], locks := []}})
  let s := on s (fun c => let c := c.set TWN_CFG_ENABLE; {c with twn := {c.twn with rx := [(t % 2,[]),(0,[(mseq + 3, 5)]),(mseq,[])]}})
  let w : Wait := {w with long := none, journal := false, ack := some n, peer := false, hand := false, req := {w.req with chan := w.req.chan % 16, seq := w.req.seq % 65536}, plan := {w.plan with after := .none}}
  let s := on s (fun c => {c with fw := {c.fw with waits := [w], order := c.fw.order.filter fun o => o.1 != w.req.chan}})
  (s, (7 : Nat), (2 : Nat), (0 : Nat), ({ req := { chan := 1, seq := 3, opcode := 77, flags := 30143, len := 1, epoch := 0, payload := [] }, plan := { resp := { status := 16198997592, flags := 0, epoch := 0, payload := [0] }, pends := [], nows := [], journal := true, fwd := true, long := some (Sys2Proof.Machine.Long.verify), after := Sys2Proof.Machine.After.none }, since := 0, journal := false, ack := some 0, peer := false, long := none, hand := false, taken := true } : Wait))

def wTwinForwards3 : State × Nat × Nat × Nat × Nat × Bool :=
  let s := State.reset
  let t : Nat := 1
  let mseq : Nat := 1
  let h : Nat := 0
  let cause : Nat := 1
  let ok : Bool := true
  let s := on s (fun c => {c with pwr := {c.pwr with phase := .running}})
  let s := on s (fun c => {c with bus := {c.bus with outs := [], locks := []}})
  let s := on s (fun c => let c := c.set TWN_CFG_ENABLE; {c with twn := {c.twn with rx := [(t % 2,[]),(0,[(mseq + 3, 5)]),(mseq,[])]}})
  let s := on s (fun c => c.wr TWN_STATE_MODE (1))
  let s := on s (fun c => {c with fw := {c.fw with waits := []}, twn := {c.twn with handover := some (h, cause, ok)}})
  (s, (1 : Nat), (2 : Nat), (0 : Nat), (1 : Nat), (true : Bool))

def wTwinForwards4 : State × Nat × Nat × Wait :=
  let s := State.reset
  let n : Nat := 41925
  let w : Wait := { req := { chan := 0, seq := 1, opcode := 1, flags := 10, len := 63, epoch := 126, payload := [2] }, plan := { resp := { status := 0, flags := 251, epoch := 0, payload := [259, 1, 89] }, pends := [], nows := [], journal := false, fwd := false, long := none, after := Sys2Proof.Machine.After.fwr }, since := 0, journal := false, ack := none, peer := true, long := some (Sys2Proof.Machine.Long.download), hand := false, taken := true }
  let s := on s (fun c => ({c with pwr := {c.pwr with phase := .running}} : Chip).set TOP_STATUS_FW_READY)
  let s := on s (fun c => {c with bus := {c.bus with outs := [], locks := []}})
  let w : Wait := {w with long := none, journal := false, ack := some n, peer := false, hand := false, req := {w.req with chan := w.req.chan % 16, seq := w.req.seq % 65536}, plan := {w.plan with after := .none}}
  let s := on s (fun c => {c with fw := {c.fw with waits := [w]}})
  (s, (2 : Nat), (41925 : Nat), ({ req := { chan := 0, seq := 1, opcode := 1, flags := 10, len := 63, epoch := 126, payload := [2] }, plan := { resp := { status := 0, flags := 251, epoch := 0, payload := [259, 1, 89] }, pends := [], nows := [], journal := false, fwd := false, long := none, after := Sys2Proof.Machine.After.none }, since := 0, journal := false, ack := some 41925, peer := false, long := none, hand := false, taken := true } : Wait))

def wTwinForwards5 : State × Nat × Nat × (Fin 332) × Bool × Nat :=
  let s := State.reset
  let t : Nat := 3
  let mseq : Nat := 1
  let s := on s (fun c => {c with pwr := {c.pwr with phase := .running}})
  let s := on s (fun c => {c with bus := {c.bus with outs := [], locks := []}})
  let s := on s (fun c => let c := c.set TWN_CFG_ENABLE; {c with twn := {c.twn with rx := [(t % 2,[]),(0,[(mseq + 3, 5)]),(mseq,[])]}})
  let s := on s (fun c => c.wr TWN_STATE_MODE (2))
  (s, (3 : Nat), (2 : Nat), (0 : Fin 332), (true : Bool), (1 : Nat))

def wTwinForwards6 : State × Nat × Nat × (Fin 2) × (Fin 5) :=
  let s := State.reset
  let t : Nat := 0
  let mseq : Nat := 1
  let q : Fin 2 := 0
  let k : Fin 5 := 1
  let s := on s (fun c => {c with pwr := {c.pwr with phase := .running}})
  let s := on s (fun c => {c with bus := {c.bus with outs := [], locks := []}})
  let s := on s (fun c => let c := c.set TWN_CFG_ENABLE; {c with twn := {c.twn with rx := [(t % 2,[]),(0,[(mseq + 3, 5)]),(mseq,[])]}})
  let s := on s (fun c => c.wr TWN_STATE_MODE (2))
  let s := on s (fun c => (({c with planes := [c.plane 0, c.plane 1]} : Chip).wr (REF_PLANE_STAT_STATE 0) (2 + t % 3)).wr (REF_PLANE_STAT_STATE 1) 3)
  let s := on s (fun c => let c := c.each (List.range 5) fun c k => (c.wr (REF_CAND_STAT_STATE k) 3).wr (REF_CAND_CFG_KIND k) 2 |>.wr (REF_CAND_RANK_RANK_TP0 k) 1 |>.wr (REF_CAND_RANK_RANK_TP1 k) 2; c.wr (REF_PLANE_STAT_SELECTED q.val) ((k.val + 1 + t % 5) % 8))
  (s, (0 : Nat), (2 : Nat), (0 : Fin 2), (1 : Fin 5))

def wTwinForwards7 : State × Nat × Nat × Nat × Int :=
  let s := State.reset
  let t : Nat := 3
  let mseq : Nat := 1
  let s := on s (fun c => {c with pwr := {c.pwr with phase := .running}})
  let s := on s (fun c => {c with bus := {c.bus with outs := [], locks := []}})
  let s := on s (fun c => let c := c.set TWN_CFG_ENABLE; {c with twn := {c.twn with rx := [(t % 2,[]),(0,[(mseq + 3, 5)]),(mseq,[])]}})
  let s := on s (fun c => c.wr TWN_STATE_MODE (2))
  (s, (3 : Nat), (2 : Nat), (1 : Nat), (17 : Int))

def wTwinForwards8 : State × Nat × Nat × (Fin 4) × HeadDec :=
  let s := State.reset
  let t : Nat := 5
  let mseq : Nat := 276
  let s := on s (fun c => {c with pwr := {c.pwr with phase := .running}})
  let s := on s (fun c => {c with bus := {c.bus with outs := [], locks := []}})
  let s := on s (fun c => let c := c.set TWN_CFG_ENABLE; {c with twn := {c.twn with rx := [(t % 2,[]),(0,[(mseq + 3, 5)]),(mseq,[])]}})
  let s := on s (fun c => c.wr TWN_STATE_MODE (2))
  (s, (5 : Nat), (277 : Nat), (3 : Fin 4), ({ frame := 20, taps := [], lates := [47445, 12], flips := [] } : HeadDec))

def wTwinForwards9 : State × Nat × (Fin 3) × Nat × Nat :=
  let s := State.reset
  let t : Nat := 7
  let m : Nat := 1
  let at_ : Nat := 6
  let s := on s (fun c => {c with pwr := {c.pwr with phase := .running}})
  let s := on s (fun c => {c with twn := {c.twn with rx := [(0,[(3,5),(m,at_)]),(0,[(m,at_ % 70)]),(4,[(7,2)])]}})
  let t := t + 30000000
  let s := on s (fun c => c.when (t % 3 != 0) fun c => (c.wr TWN_STATE_MODE 2).wr TWN_STATE_PHASE (t % 8))
  (s, (30000007 : Nat), (0 : Fin 3), (3 : Nat), (5 : Nat))

def wTwinCompares0 : State × Nat × Nat × (Fin 2) × Nat × (List Nat) :=
  let s := State.reset
  let t : Nat := 5
  let mseq : Nat := 1
  let s := on s (fun c => {c with pwr := {c.pwr with phase := .running}})
  let s := on s (fun c => {c with bus := {c.bus with outs := [], locks := []}})
  let s := on s (fun c => let c := c.set TWN_CFG_ENABLE; {c with twn := {c.twn with rx := [(t % 2,[]),(0,[(mseq + 3, 5)]),(mseq,[])]}})
  let s := on s (fun c => c.wr TWN_STATE_MODE (1))
  (s, (5 : Nat), (2 : Nat), (1 : Fin 2), (9 : Nat), ([] : List Nat))

def wTwinCompares1 : State × Nat × (Fin 2) × (List (Nat × Nat)) × Nat × (List Nat) × Nat × (List (Nat × Nat)) :=
  let s := State.reset
  let t : Nat := 6
  let q : Fin 2 := 1
  let m : List Nat := [0]
  let s := on s (fun c => {c with pwr := {c.pwr with phase := .running}})
  let s := on s (fun c => {c.set TWN_CFG_ENABLE with twn := {c.twn with paired := true}})
  let s := on s (fun c => c.wr TWN_STATE_MODE (1 + t % 2))
  let s := on s (fun c => (({c with planes := [c.plane 0, c.plane 1]} : Chip).wr (REF_PLANE_STAT_STATE 0) (2 + t % 3)).wr (REF_PLANE_STAT_STATE 1) 3)
  let s := on s (fun c => {c with planes := [{c.plane 0 with counted := true},{c.plane 1 with counted := true}]})
  let c := s.chipAt t
  let e := sub32 (c.epochNow q.val) 1
  let s := on s (fun c => c.setRec {c.twnRec q.val e with plane := q.val, epoch := e, own := none, outcome := none, mask := some m, peer := none})
  (s, (6 : Nat), (1 : Fin 2), ([] : List (Nat × Nat)), (4294967295 : Nat), ([0] : List Nat), (0 : Nat), ([] : List (Nat × Nat)))

def wTwinCompares2 : State × Nat × Nat × (Fin 2) × Nat × (List Nat) × (List Nat) :=
  let s := State.reset
  let t : Nat := 5
  let mseq : Nat := 0
  let q : Fin 2 := 1
  let e : Nat := 12
  let w : List Nat := []
  let m : List Nat := []
  let s := on s (fun c => {c with pwr := {c.pwr with phase := .running}})
  let s := on s (fun c => {c with bus := {c.bus with outs := [], locks := []}})
  let s := on s (fun c => let c := c.set TWN_CFG_ENABLE; {c with twn := {c.twn with rx := [(t % 2,[]),(0,[(mseq + 3, 5)]),(mseq,[])]}})
  let s := on s (fun c => {c.set TWN_CFG_ENABLE with twn := {c.twn with paired := true}})
  let s := on s (fun c => c.wr TWN_STATE_MODE (1 + t % 2))
  let s := on s (fun c => c.setRec {c.twnRec q.val e with plane := q.val, epoch := e, own := some w, outcome := none, mask := some m})
  (s, (5 : Nat), (1 : Nat), (1 : Fin 2), (12 : Nat), ([] : List Nat), ([] : List Nat))

def wTwinCompares3 : State × Nat × (Fin 2) × Nat × (List Nat) :=
  let s := State.reset
  let t : Nat := 6
  let q : Fin 2 := 0
  let e : Nat := 6
  let w : List Nat := []
  let s := on s (fun c => {c with pwr := {c.pwr with phase := .running}})
  let s := on s (fun c => {c.set TWN_CFG_ENABLE with twn := {c.twn with paired := true}})
  let s := on s (fun c => c.wr TWN_STATE_MODE (1 + t % 2))
  let s := on s (fun c => c.setRec {c.twnRec q.val e with plane := q.val, epoch := e, own := some w, ownAt := t % 9, outcome := none, peer := none})
  (s, (9000006 : Nat), (0 : Fin 2), (6 : Nat), ([] : List Nat))

def wTwinCompares4 : State × Nat × Nat × (Fin 2) × Nat × (List (Nat × Nat)) :=
  let s := State.reset
  let t : Nat := 5
  let mseq : Nat := 1
  let s := on s (fun c => {c with pwr := {c.pwr with phase := .running}})
  let s := on s (fun c => {c with bus := {c.bus with outs := [], locks := []}})
  let s := on s (fun c => let c := c.set TWN_CFG_ENABLE; {c with twn := {c.twn with rx := [(t % 2,[]),(0,[(mseq + 3, 5)]),(mseq,[])]}})
  let s := on s (fun c => {c.set TWN_CFG_ENABLE with twn := {c.twn with paired := true}})
  let s := on s (fun c => c.wr TWN_STATE_MODE (1 + t % 2))
  (s, (5 : Nat), (2 : Nat), (0 : Fin 2), (0 : Nat), ([] : List (Nat × Nat)))

def wTwinCompares5 : State × Nat × Nat × (Fin 2) × Nat × (List Evid) × Nat :=
  let s := State.reset
  let t : Nat := 0
  let mseq : Nat := 1
  let s := on s (fun c => {c with pwr := {c.pwr with phase := .running}})
  let s := on s (fun c => {c with bus := {c.bus with outs := [], locks := []}})
  let s := on s (fun c => let c := c.set TWN_CFG_ENABLE; {c with twn := {c.twn with rx := [(t % 2,[]),(0,[(mseq + 3, 5)]),(mseq,[])]}})
  let s := on s (fun c => {c.set TWN_CFG_ENABLE with twn := {c.twn with paired := true}})
  let s := on s (fun c => c.wr TWN_STATE_MODE (1 + t % 2))
  (s, (0 : Nat), (2 : Nat), (1 : Fin 2), (1 : Nat), ([] : List Evid), (0 : Nat))

def wTwinCompares6 : State × Nat × (Fin 2) :=
  let s := State.reset
  let t : Nat := 7
  let s := on s (fun c => {c with pwr := {c.pwr with phase := .running}})
  let s := on s (fun c => c.wr TWN_STATE_MODE (2))
  let s := on s (fun c => c.wr TWN_STATE_PHASE (t % 7))
  let s := on s (fun c => {c with twn := {c.twn with noMatch := [64,77]}})
  (s, (7 : Nat), (0 : Fin 2))

def wTwinCompares7 : State × Nat × Nat × (Fin 2) × Nat × (List Nat) × (List Nat) :=
  let s := State.reset
  let t : Nat := 2
  let mseq : Nat := 1
  let q : Fin 2 := 1
  let e : Nat := 0
  let w : List Nat := [9]
  let s := on s (fun c => {c with pwr := {c.pwr with phase := .running}})
  let s := on s (fun c => {c with bus := {c.bus with outs := [], locks := []}})
  let s := on s (fun c => let c := c.set TWN_CFG_ENABLE; {c with twn := {c.twn with rx := [(t % 2,[]),(0,[(mseq + 3, 5)]),(mseq,[])]}})
  let s := on s (fun c => {c.set TWN_CFG_ENABLE with twn := {c.twn with paired := true}})
  let s := on s (fun c => c.wr TWN_STATE_MODE (1 + t % 2))
  let own := 5 :: w
  let s := on s (fun c => c.setRec {c.twnRec q.val e with plane := q.val, epoch := e, own := some own, outcome := none})
  (s, (2 : Nat), (2 : Nat), (1 : Fin 2), (0 : Nat), ([9] : List Nat), ([5, 9] : List Nat))

def wTwinHandovers0 : State × Nat × (Fin 5) :=
  let s := State.reset
  let t : Nat := 3
  let b : Fin 5 := 3
  let s := on s (fun c => {c with pwr := {c.pwr with phase := .running}})
  let s := on s (fun c => c.wr TWN_STATE_MODE (t % 3))
  let s := on s (fun c => let c := c.wr (TWN_DIAG.fld b.val 1) 0; {c with twn := {c.twn with peerStep := t % 2 == 0, handover := none}})
  (s, (3 : Nat), (3 : Fin 5))

def wTwinHandovers1 : State × Nat :=
  let s := State.reset
  let t : Nat := 2
  let s := on s (fun c => {c with pwr := {c.pwr with phase := .running}})
  let s := on s (fun c => c.set TWN_CFG_ENABLE)
  let s := on s (fun c => {c.set TWN_STATE_PEER_IN with twn := {c.twn with handover := none}})
  let s := on s (fun c => c.wr TWN_STATE_MODE (t % 3))
  let s := on s (fun c => c.wr TWN_STATE_PHASE (5 + t % 2))
  (s, (2 : Nat))

def wTwinHandovers2 : State × Nat :=
  let s := State.reset
  let t : Nat := 3
  let s := on s (fun c => {c with pwr := {c.pwr with phase := .running}})
  let s := on s (fun c => c.wr TWN_STATE_MODE (2))
  let s := on s (fun c => c.wr TWN_STATE_PHASE (t % 8))
  let s := on s (fun c => {c with twn := {c.twn with paired := true, blockAt := t % 9}})
  (s, (30000003 : Nat))

def wTwinHandovers3 : State × Nat × Nat × Nat × Nat :=
  let s := State.reset
  let t : Nat := 6
  let mseq : Nat := 1
  let s := on s (fun c => {c with pwr := {c.pwr with phase := .running}})
  let s := on s (fun c => {c with bus := {c.bus with outs := [], locks := []}})
  let s := on s (fun c => let c := c.set TWN_CFG_ENABLE; {c with twn := {c.twn with rx := [(t % 2,[]),(0,[(mseq + 3, 5)]),(mseq,[])]}})
  let s := on s (fun c => c.wr TWN_STATE_MODE (2))
  let s := on s (fun c => c.wr TWN_STATE_PHASE (6))
  (s, (6 : Nat), (2 : Nat), (0 : Nat), (0 : Nat))

def wTwinHandovers4 : State × Nat × Nat × Bool :=
  let s := State.reset
  let t : Nat := 6
  let cause : Nat := 2
  let ok : Bool := true
  let s := on s (fun c => {c with pwr := {c.pwr with phase := .running}})
  let s := on s (fun c => c.wr TWN_STATE_MODE (1 + t % 2))
  let c := s.chipAt t
  let s := on s (fun c => {c with fw := {c.fw with waits := []}, twn := {c.twn with handover := some (c.epochNow 0, cause, ok)}})
  (s, (6 : Nat), (2 : Nat), (true : Bool))

def wTwinHandovers5 : State × Nat :=
  let s := State.reset
  let t : Nat := 1
  let s := on s (fun c => {c with pwr := {c.pwr with phase := .running}})
  let s := on s (fun c => c.wr TWN_STATE_MODE (t % 3))
  let s := on s (fun c => {c with fw := {c.fw with waits := []}, twn := {c.twn with handover := none, toActive := true}})
  (s, (1 : Nat))

def wTwinHandovers6 : State × Nat :=
  let s := State.reset
  let t : Nat := 7
  let s := on s (fun c => ((c.wr (REF_PLANE_CFG_FORMAT 0) 14).wr (REF_PLANE_CFG_FORMAT 1) 14).wr (XPT_EPOCH_EPOCH 0) 5)
  let s := on s (fun c => {c with pwr := {c.pwr with phase := .running}})
  let s := on s (fun c => c.wr TWN_STATE_MODE (2))
  let s := on s (fun c => c.wr TWN_STATE_PHASE (6))
  let s := on s (fun c => c.clr TOP_STATUS_FW_READY)
  let s := on s (fun c => (({c with planes := [c.plane 0, c.plane 1]} : Chip).wr (REF_PLANE_STAT_STATE 0) (2 + t % 3)).wr (REF_PLANE_STAT_STATE 1) 3)
  let s := on s (fun c => {c with planes := [{c.plane 0 with counted := true},{c.plane 1 with counted := true}]})
  let s := on s (fun c => {c with twn := {c.twn with held := [({fwdSeq := 3, chan := 1, seq := 2, cur0 := 0, cur1 := 0, epoch0 := c.rd (XPT_EPOCH_EPOCH 0), epoch1 := 0, words := []}, true)]}})
  (s, (7 : Nat))

def wTwinHandovers7 : State × Nat :=
  let s := State.reset
  let s := on s (fun c => ({c with pwr := {c.pwr with phase := .running}} : Chip).set TOP_STATUS_FW_READY)
  let s := on s (fun c => {c with twn := {c.twn with coldDue := true}})
  (s, (6 : Nat))

def wTwinCopies0 : State × Nat × Nat × Nat :=
  let s := State.reset
  let t : Nat := 3
  let mseq : Nat := 0
  let s := on s (fun c => {c with pwr := {c.pwr with phase := .running}})
  let s := on s (fun c => {c with bus := {c.bus with outs := [], locks := []}})
  let s := on s (fun c => let c := c.set TWN_CFG_ENABLE; {c with twn := {c.twn with rx := [(t % 2,[]),(0,[(mseq + 3, 5)]),(mseq,[])]}})
  let s := on s (fun c => c.wr TWN_STATE_MODE (1))
  (s, (3 : Nat), (1 : Nat), (3 : Nat))

def wTwinCopies1 : State × Nat × Nat × ConfigImage :=
  let s := State.reset
  let t : Nat := 1
  let mseq : Nat := 0
  let s := on s (fun c => {c with pwr := {c.pwr with phase := .running}})
  let s := on s (fun c => {c with bus := {c.bus with outs := [], locks := []}})
  let s := on s (fun c => let c := c.set TWN_CFG_ENABLE; {c with twn := {c.twn with rx := [(t % 2,[]),(0,[(mseq + 3, 5)]),(mseq,[])]}})
  let s := on s (fun c => c.wr TWN_STATE_MODE (2))
  let s := on s (fun c => c.wr TWN_STATE_PHASE (2))
  (s, (1 : Nat), (1 : Nat), ({ settings := [], queue := [{ plane := 1, epoch := 34273, change := { kind := Sys2Proof.Machine.Kind.disagree, idx := 4336183172, ws := [12, 1] }, chan := 1, seq := 0, host := false }], hist := [], fwdSeq := 1, planes := [] } : ConfigImage))

def wTwinCopies2 : State × Nat × Nat × (Fin 4) × (Fin 4) × (Fin 2) × (List (Nat × Nat)) :=
  let s := State.reset
  let t : Nat := 3
  let mseq : Nat := 1
  let s := on s (fun c => {c with pwr := {c.pwr with phase := .running}})
  let s := on s (fun c => {c with bus := {c.bus with outs := [], locks := []}})
  let s := on s (fun c => let c := c.set TWN_CFG_ENABLE; {c with twn := {c.twn with rx := [(t % 2,[]),(0,[(mseq + 3, 5)]),(mseq,[])]}})
  let s := on s (fun c => c.wr TWN_STATE_MODE (2))
  let s := on s (fun c => c.wr TWN_STATE_PHASE (2 + t % 5))
  (s, (3 : Nat), (2 : Nat), (1 : Fin 4), (1 : Fin 4), (0 : Fin 2), ([] : List (Nat × Nat)))

def wTwinCopies3 : State × Nat × Nat × AudImage :=
  let s := State.reset
  let t : Nat := 5
  let mseq : Nat := 0
  let s := on s (fun c => {c with pwr := {c.pwr with phase := .running}})
  let s := on s (fun c => {c with bus := {c.bus with outs := [], locks := []}})
  let s := on s (fun c => let c := c.set TWN_CFG_ENABLE; {c with twn := {c.twn with rx := [(t % 2,[]),(0,[(mseq + 3, 5)]),(mseq,[])]}})
  let s := on s (fun c => c.wr TWN_STATE_MODE (2))
  let s := on s (fun c => c.wr TWN_STATE_PHASE (3 + t % 2))
  (s, (5 : Nat), (1 : Nat), ({ coefs := [], filts := [], lims := [], ratio := -3, phase := -4 } : AudImage))

def wTwinCopies4 : State × Nat × Nat × Bool × ConfigImage :=
  let s := State.reset
  let t : Nat := 0
  let at_ : Nat := 0
  let i : ConfigImage := { settings := [], queue := [], hist := [], fwdSeq := 1, planes := [] }
  let s := on s (fun c => ({c with pwr := {c.pwr with phase := .running}} : Chip).set TOP_STATUS_FW_READY)
  let s := on s (fun c => c.wr TWN_STATE_MODE (2))
  let s := on s (fun c => c.wr TWN_STATE_PHASE (2))
  let s := on s (fun c => {c.clr PWR_STATUS_MRAM_HOLD with twn := {c.twn with staged := some (i, at_)}})
  let s := on s (fun c => c.when (t % 2 == 0) fun c => {c with twn := {c.twn with peerSchema := 0}})
  (s, (0 : Nat), (0 : Nat), (true : Bool), ({ settings := [], queue := [], hist := [], fwdSeq := 1, planes := [] } : ConfigImage))

def wTwinCopies5 : State × Nat :=
  let s := State.reset
  let s := on s (fun c => {c with pwr := {c.pwr with phase := .running}})
  let s := on s (fun c => c.wr TWN_STATE_MODE (2))
  let s := on s (fun c => c.wr TWN_STATE_PHASE (4))
  (s, (3 : Nat))

def wBusAccesses0 : State × Nat × BusAcc × Nat :=
  let s := State.reset
  let s := on s (fun c => {c with pwr := {c.pwr with phase := .running}})
  let s := on s (fun c => {c with bus := {c.bus with outs := [], locks := [], broken := []}})
  (s, (1 : Nat), ({ m := 3, id := 0, write := true, user := false, addr := 16777220, beats := 3, size := 2, data := [], poison := true } : BusAcc), (1 : Nat))

def wBusAccesses1 : State × Nat × BusAcc :=
  let s := State.reset
  let t : Nat := 2
  let a : BusAcc := { m := 1, id := 1, write := true, user := true, addr := 0, beats := 1, size := 98, data := [], poison := false }
  let s := on s (fun c => {c with pwr := {c.pwr with phase := .running}})
  let base := [0, 0x1000000, 0x10000000, 0x20000000, 0x30000000, 0x40000000, 0x50000000, 0x20000000000].getD ([2,3,4,6,7].getD (t % 5) 3) 0
  let sz := [1,2,4,8,16].getD (a.size % 5) 4
  let bt := a.beats % 16 + 1
  let a : BusAcc := { a with m := a.m % 10, id := a.id % 16, size := sz, beats := bt, addr := base + a.addr % 2000 * 4 % (4096 - sz * bt + 1) }
  let a := {a with write := false, poison := false}
  let s := on s (fun c => {c with bus := {c.bus with outs := [], locks := [], broken := []}})
  let ad := if busRegion a.addr = some 7 then (if t % 7 = 0 then dramBase + a.addr % 0x40_0000 else if t % 7 = 1 then dramBase + 0x1_0000_0000 + a.addr % 0x1000_0000 else a.addr) else if busRegion a.addr = some 3 then (if t % 7 = 0 then mramBase + 4096 * (t % 2) + a.addr % 64 else a.addr) else a.addr
  let a := {a with addr := ad / 64 * 64 + a.addr % 16}
  let s := on s (fun c => (c.wr (BUS_FW_READ a.m) 255).wr (BUS_FW_WRITE a.m) 255)
  let s := on s (fun c => (c.each (List.range 8) fun c n => c.wr (DMC_CH_STAT_STATE n) chActive).each (List.range 8) fun c n => c.wr (DMC_CH_DIMM_SIZE_GIB n) 16)
  (s, (2 : Nat), ({ m := 1, id := 1, write := false, user := true, addr := 805306368, beats := 2, size := 8, data := [], poison := false } : BusAcc))

def wBusAccesses2 : State × Nat × BusAcc :=
  let s := State.reset
  let t : Nat := 1
  let a : BusAcc := { m := 0, id := 1, write := true, user := false, addr := 0, beats := 0, size := 6, data := [1], poison := true }
  let s := on s (fun c => {c with pwr := {c.pwr with phase := .running}})
  let base := [0, 0x1000000, 0x10000000, 0x20000000, 0x30000000, 0x40000000, 0x50000000, 0x20000000000].getD ([3,4,7].getD (t % 3) 3) 0
  let sz := [1,2,4,8,16].getD (a.size % 5) 4
  let bt := a.beats % 16 + 1
  let a : BusAcc := { a with m := a.m % 10, id := a.id % 16, size := sz, beats := bt, addr := base + a.addr % 2000 * 4 % (4096 - sz * bt + 1) }
  let a := {a with write := true, poison := false, data := (List.range a.len).map fun i => i * 7 % 256}
  let s := on s (fun c => {c with bus := {c.bus with outs := [], locks := [], broken := []}})
  let ad := if busRegion a.addr = some 7 then (if t % 7 = 0 then dramBase + a.addr % 0x40_0000 else if t % 7 = 1 then dramBase + 0x1_0000_0000 + a.addr % 0x1000_0000 else a.addr) else if busRegion a.addr = some 3 then (if t % 7 = 0 then mramBase + 4096 * (t % 2) + a.addr % 64 else a.addr) else a.addr
  let a := {a with addr := ad / 64 * 64 + a.addr % 16}
  let a := {a with data := (List.range a.len).map fun i => i * 7 % 256}
  let s := on s (fun c => (c.wr (BUS_FW_READ a.m) 255).wr (BUS_FW_WRITE a.m) 255)
  let s := on s (fun c => (c.each (List.range 8) fun c n => c.wr (DMC_CH_STAT_STATE n) chActive).each (List.range 8) fun c n => c.wr (DMC_CH_DIMM_SIZE_GIB n) 16)
  let s := on s (fun c => (c.clr PWR_STATUS_MRAM_HOLD).each (List.range 8) fun c k => c.put (BUS_PROT k) 1)
  (s, (1 : Nat), ({ m := 0, id := 1, write := true, user := false, addr := 805306368, beats := 1, size := 2, data := [0, 7], poison := false } : BusAcc))

def wBusAccesses3 : State × Nat × BusAcc :=
  let s := State.reset
  let t : Nat := 2
  let a : BusAcc := { m := 0, id := 0, write := true, user := true, addr := 0, beats := 0, size := 0, data := [], poison := true }
  let s := on s (fun c => {c with pwr := {c.pwr with phase := .running}})
  let base := [0, 0x1000000, 0x10000000, 0x20000000, 0x30000000, 0x40000000, 0x50000000, 0x20000000000].getD (0) 0
  let sz := [1,2,4,8,16].getD (a.size % 5) 4
  let bt := a.beats % 16 + 1
  let a : BusAcc := { a with m := a.m % 10, id := a.id % 16, size := sz, beats := bt, addr := base + a.addr % 2000 * 4 % (4096 - sz * bt + 1) }
  let k : Nat := 1
  let row := regRows.getD (t % regRows.length) ⟨0,0,0,0,0,0,0,0,0,0,0,0,0,0,0,0,true⟩
  let a := {a with write := false, size := 4, beats := 1, addr := row.base + row.s1 * (k % row.c1), user := false}
  let s := on s (fun c => {c with bus := {c.bus with outs := [], locks := [], broken := []}})
  let s := on s (fun c => (c.wr (BUS_FW_READ a.m) 255).wr (BUS_FW_WRITE a.m) 255)
  (s, (2 : Nat), ({ m := 0, id := 0, write := false, user := false, addr := 4, beats := 1, size := 4, data := [], poison := true } : BusAcc))

def wBusAccesses4 : State × Nat × BusAcc :=
  let s := State.reset
  let a : BusAcc := { m := 1, id := 1, write := true, user := false, addr := 0, beats := 0, size := 1, data := [], poison := true }
  let s := on s (fun c => {c with pwr := {c.pwr with phase := .running}})
  let base := [0, 0x1000000, 0x10000000, 0x20000000, 0x30000000, 0x40000000, 0x50000000, 0x20000000000].getD (5) 0
  let sz := [1,2,4,8,16].getD (a.size % 5) 4
  let bt := a.beats % 16 + 1
  let a : BusAcc := { a with m := a.m % 10, id := a.id % 16, size := sz, beats := bt, addr := base + a.addr % 2000 * 4 % (4096 - sz * bt + 1) }
  let s := on s (fun c => {c with bus := {c.bus with outs := [], locks := [], broken := []}})
  let s := on s (fun c => (c.wr (BUS_FW_READ a.m) 255).wr (BUS_FW_WRITE a.m) 255)
  let s := on s (fun c => c.set BUS_APT_CTL_ENABLE)
  (s, (3 : Nat), ({ m := 1, id := 1, write := true, user := false, addr := 1073741824, beats := 1, size := 2, data := [], poison := true } : BusAcc))

def wBusAccesses5 : State × Nat × BusAcc × Nat :=
  let s := State.reset
  let t : Nat := 2
  let a : BusAcc := { m := 0, id := 1, write := true, user := true, addr := 2, beats := 0, size := 0, data := [], poison := true }
  let s := on s (fun c => {c with pwr := {c.pwr with phase := .running}})
  let base := [0, 0x1000000, 0x10000000, 0x20000000, 0x30000000, 0x40000000, 0x50000000, 0x20000000000].getD ([4,7].getD (t % 2) 4) 0
  let sz := [1,2,4,8,16].getD (a.size % 5) 4
  let bt := a.beats % 16 + 1
  let a : BusAcc := { a with m := a.m % 10, id := a.id % 16, size := sz, beats := bt, addr := base + a.addr % 2000 * 4 % (4096 - sz * bt + 1) }
  let a := {a with write := false, poison := false}
  let s := on s (fun c => {c with bus := {c.bus with outs := [], locks := [], broken := []}})
  let ad := if busRegion a.addr = some 7 then (if t % 7 = 0 then dramBase + a.addr % 0x40_0000 else if t % 7 = 1 then dramBase + 0x1_0000_0000 + a.addr % 0x1000_0000 else a.addr) else if busRegion a.addr = some 3 then (if t % 7 = 0 then mramBase + 4096 * (t % 2) + a.addr % 64 else a.addr) else a.addr
  let a := {a with addr := ad / 64 * 64 + a.addr % 16}
  let s := on s (fun c => (c.wr (BUS_FW_READ a.m) 255).wr (BUS_FW_WRITE a.m) 255)
  let s := on s (fun c => (c.each (List.range 8) fun c n => c.wr (DMC_CH_STAT_STATE n) chActive).each (List.range 8) fun c n => c.wr (DMC_CH_DIMM_SIZE_GIB n) 16)
  (s, (2 : Nat), ({ m := 0, id := 1, write := false, user := true, addr := 805306376, beats := 1, size := 1, data := [], poison := false } : BusAcc), (4 : Nat))

def wBusWatchdogs0 : State × Nat × (Fin 10) × (Fin 16) × BusOut :=
  let s := State.reset
  let m : Fin 10 := 0
  let id : Fin 16 := 3
  let o : BusOut := { acc := { m := 3, id := 1, write := false, user := true, addr := 1, beats := 1, size := 3, data := [1], poison := true }, lock := true, at_ := 1, hung := true }
  let s := on s (fun c => {c with pwr := {c.pwr with phase := .running}})
  let m : Fin 10 := Fin.ofNat 10 o.acc.m
  let id : Fin 16 := Fin.ofNat 16 o.acc.id
  let o : BusOut := {o with acc := {o.acc with m := m.val, id := id.val}}
  let s := on s (fun c => {c with bus := {c.bus with outs := [o]}})
  (s, (100000000003 : Nat), (3 : Fin 10), (1 : Fin 16), ({ acc := { m := 3, id := 1, write := false, user := true, addr := 1, beats := 1, size := 3, data := [1], poison := true }, lock := true, at_ := 1, hung := true } : BusOut))

def wBusWatchdogs1 : State × Nat × (Fin 2) × BusLock :=
  let s := State.reset
  let g : Fin 2 := 0
  let l : BusLock := { target := 0, m := 0, id := 8, loc := 1, beats := 4, since := 1 }
  let s := on s (fun c => {c with pwr := {c.pwr with phase := .running}})
  let l : BusLock := {l with target := if g.val = 0 then 4 else 7}
  let s := on s (fun c => {c with bus := {c.bus with outs := [], locks := [l]}})
  (s, (100000000002 : Nat), (0 : Fin 2), ({ target := 4, m := 0, id := 8, loc := 1, beats := 4, since := 1 } : BusLock))

def wBusWatchdogs2 : State × Nat × (Fin 2) × BusOut :=
  let s := State.reset
  let g : Fin 2 := 1
  let o : BusOut := { acc := { m := 0, id := 0, write := true, user := true, addr := 0, beats := 11, size := 1, data := [], poison := true }, lock := true, at_ := 1, hung := false }
  let s := on s (fun c => {c with pwr := {c.pwr with phase := .running}})
  let o : BusOut := {o with acc := {o.acc with m := 5 + g.val}}
  let s := on s (fun c => {c with bus := {c.bus with outs := [o]}})
  (s, (7 : Nat), (1 : Fin 2), ({ acc := { m := 6, id := 0, write := true, user := true, addr := 0, beats := 11, size := 1, data := [], poison := true }, lock := true, at_ := 1, hung := false } : BusOut))

def wBusWatchdogs3 : State × Nat :=
  let s := State.reset
  let s := on s (fun c => {c with pwr := {c.pwr with phase := .running}})
  (s, (0 : Nat))

def wPerformanceMonitor0 : State × Nat × Bool × Bool :=
  let s := State.reset
  let s := on s (fun c => {c with pwr := {c.pwr with phase := .running}})
  (s, (5 : Nat), (true : Bool), (true : Bool))

def wPerformanceMonitor1 : State × Nat × (Fin 4) × (Fin 9) :=
  let s := State.reset
  let t : Nat := 2
  let core : Fin 4 := 1
  let k : Fin 9 := 2
  let s := on s (fun c => {c with pwr := {c.pwr with phase := .running}})
  let s := on s (fun c => (c.clr PMC_CTL_FREEZE).when (k.val < 8) fun c => c.put (PMC_EVSEL core.val k.val) (256 + 1 + t % 12))
  (s, (2 : Nat), (1 : Fin 4), (2 : Fin 9))

def wPerformanceMonitor2 : State × Nat × (Fin 4) × Word × Word × Nat × Nat × (Fin 3) × Bool × Bool :=
  let s := State.reset
  let t : Nat := 5
  let core : Fin 4 := 1
  let kind : Fin 3 := 0
  let n := [0, 5, 255, 254].getD (t % 4) 0
  let s := on s (fun c => {c with pwr := {c.pwr with phase := .running}})
  let s := on s (fun c => ((c.set (PMC_SMP_CTL_ENABLE core.val)).wr (PMC_SMP_CTL_KIND core.val) kind.val).wr (PMC_SMP_STAT_FILL core.val) n)
  (s, (5 : Nat), (1 : Fin 4), (0x00000007#32 : Word), (0x6dd1dbc2#32 : Word), (3 : Nat), (5 : Nat), (0 : Fin 3), (true : Bool), (true : Bool))

def wPerformanceMonitor3 : State × Nat × (Fin 4) × Word × Word × Nat × (Fin 3) × Bool × Bool :=
  let s := State.reset
  let core : Fin 4 := 2
  let kind : Fin 3 := 0
  let s := on s (fun c => {c with pwr := {c.pwr with phase := .running}})
  let s := on s (fun c => ((c.set (PMC_SMP_CTL_ENABLE core.val)).wr (PMC_SMP_CTL_KIND core.val) kind.val).wr (PMC_SMP_STAT_FILL core.val) 256)
  (s, (5 : Nat), (2 : Fin 4), (0x00000001#32 : Word), (0xffffffff#32 : Word), (1 : Nat), (0 : Fin 3), (true : Bool), (true : Bool))

def wPerformanceMonitor4 : State × Nat × (Fin 4) × Word × (Fin 256) × (Fin 4) :=
  let s := State.reset
  let s := on s (fun c => {c with pwr := {c.pwr with phase := .running}})
  (s, (2 : Nat), (0 : Fin 4), (0x00000008#32 : Word), (1 : Fin 256), (3 : Fin 4))

def wPerformanceMonitor5 : State × Nat × (Fin 16) × (BitVec 16) × Nat × Nat × Nat × (Option (Fin 112)) :=
  let s := State.reset
  let t : Nat := 1
  let n := [0, 5, 63, 62].getD (t % 4) 0
  let s := on s (fun c => {c with pwr := {c.pwr with phase := .running}})
  let s := on s (fun c => (c.set (PMC_NME_CTL_ENABLE)).wr (PMC_NME_STAT_FILL) n)
  (s, (1 : Nat), (1 : Fin 16), (0x6ee8#16 : BitVec 16), (1 : Nat), (1 : Nat), (5 : Nat), (none : Option (Fin 112)))

def wPerformanceMonitor6 : State × Nat × (Fin 16) × (BitVec 16) × Nat × Nat × (Option (Fin 112)) :=
  let s := State.reset
  let s := on s (fun c => {c with pwr := {c.pwr with phase := .running}})
  let s := on s (fun c => (c.set (PMC_NME_CTL_ENABLE)).wr (PMC_NME_STAT_FILL) 64)
  (s, (5 : Nat), (0 : Fin 16), (0xa81f#16 : BitVec 16), (0 : Nat), (1 : Nat), (none : Option (Fin 112)))

def wPerformanceMonitor7 : State × Nat × Word × (Fin 64) × (Fin 4) :=
  let s := State.reset
  let s := on s (fun c => {c with pwr := {c.pwr with phase := .running}})
  (s, (2 : Nat), (0xd54d244c#32 : Word), (1 : Fin 64), (2 : Fin 4))

def wTrialAndRollout0 : State × Nat :=
  let s := State.reset
  let t : Nat := 2
  let s := on s (fun c => ({c with pwr := {c.pwr with phase := .running}} : Chip).set TOP_STATUS_FW_READY)
  let s := on s (fun c => {((c.wrB PWR_STATUS_MRAM_HOLD (t % 2 == 0)).clr UPD_STATE_SERDES_ROLLOUT) with bus := {c.bus with outs := []}, upd := {c.upd with recA := some {trial := true, seq := 2, auto := false, health := t % 900}, recB := none, trialBoot := true, checked := false, loaded := [1,2,3,4,5,6], refused := false, toSwitch := []}})
  (s, (2 : Nat))

def wTrialAndRollout1 : State × Nat :=
  let s := State.reset
  let t : Nat := 1
  let s := on s (fun c => ({c with pwr := {c.pwr with phase := .running}} : Chip).set TOP_STATUS_FW_READY)
  let s := on s (fun c => {((c.wrB PWR_STATUS_MRAM_HOLD false).clr UPD_STATE_SERDES_ROLLOUT) with bus := {c.bus with outs := []}, upd := {c.upd with recA := some {trial := true, seq := 2, auto := true, health := t % 900}, recB := none, trialBoot := true, checked := false, loaded := [1,2,3,4,5,6], refused := false, toSwitch := []}})
  (s, (1 : Nat))

def wTrialAndRollout2 : State × Nat :=
  let s := State.reset
  let t : Nat := 1
  let s := on s (fun c => ({c with pwr := {c.pwr with phase := .running}} : Chip).set TOP_STATUS_FW_READY)
  let s := on s (fun c => {((c.wrB PWR_STATUS_MRAM_HOLD false).clr UPD_STATE_SERDES_ROLLOUT) with bus := {c.bus with outs := []}, upd := {c.upd with recA := some {trial := true, seq := 2, auto := true, health := t % 900}, recB := none, trialBoot := true, checked := false, loaded := [1,2,4,5,6], refused := false, toSwitch := []}})
  (s, (1 : Nat))

def wTrialAndRollout3 : State × Nat :=
  let s := State.reset
  let t : Nat := 2
  let s := on s (fun c => ({c with pwr := {c.pwr with phase := .running}} : Chip).set TOP_STATUS_FW_READY)
  let s := on s (fun c => {((c.wrB PWR_STATUS_MRAM_HOLD false).clr UPD_STATE_SERDES_ROLLOUT) with bus := {c.bus with outs := []}, upd := {c.upd with recA := some {trial := true, seq := 2, auto := true, health := t % 900}, recB := none, trialBoot := true, checked := false, loaded := [1,2,4,5,6], refused := false, toSwitch := []}})
  let s := on s (fun c => {c with upd := {c.upd with readyAt := c.now}})
  (s, (400000000002 : Nat))

def wTrialAndRollout4 : State × Nat × Nat :=
  let s := State.reset
  let t : Nat := 2
  let e : Nat := 4
  let s := on s (fun c => ({c with pwr := {c.pwr with phase := .running}} : Chip).set TOP_STATUS_FW_READY)
  let s := on s (fun c => {((c.wrB PWR_STATUS_MRAM_HOLD false).clr UPD_STATE_SERDES_ROLLOUT) with bus := {c.bus with outs := []}, upd := {c.upd with recA := some {trial := true, seq := 2, auto := true, health := t % 900}, recB := none, trialBoot := true, checked := false, loaded := [1,2,4,5,6], refused := false, toSwitch := []}})
  let s := on s (fun c => {c with upd := {c.upd with healthEnd := some e}})
  (s, (400000000002 : Nat), (4 : Nat))

def wTrialAndRollout5 : State × Nat × Nat × Nat × (List (Nat × Nat)) :=
  let s := State.reset
  let kind : Nat := 1
  let n : Nat := 1
  let rest : List (Nat × Nat) := []
  let s := on s (fun c => ({c with pwr := {c.pwr with phase := .running}} : Chip).set TOP_STATUS_FW_READY)
  let kind := kind % 4
  let n := n % [48,48,2,2].getD kind 2
  let s := on s (fun c => {c with upd := {c.upd with restart := none, rollout := (kind,n)::rest}})
  (s, (6 : Nat), (1 : Nat), (1 : Nat), ([] : List (Nat × Nat)))

def wTrialAndRollout6 : State × Nat :=
  let s := State.reset
  let s := on s (fun c => ({c with pwr := {c.pwr with phase := .running}} : Chip).set TOP_STATUS_FW_READY)
  let s := on s (fun c => {(c.set UPD_STATE_SERDES_ROLLOUT) with upd := {c.upd with restart := none, rollout := []}})
  (s, (6 : Nat))

def wTrialAndRollout7 : State × Nat × (Fin 3) :=
  let s := State.reset
  let s := on s (fun c => {c with pwr := {c.pwr with phase := .running}})
  (s, (3 : Nat), (2 : Fin 3))

/-- The hypotheses of ResetsBegin are met, clause by clause: part 1. -/
theorem witness_ResetsBegin_1 :
    (∃ (s : State) (t : Nat) (c : Chip),
      c = s.chipAt t ∧ s.Inv ∧ c.pwr.phase ≠ .held)
    ∧ (∃ (s : State) (t : Nat) (c : Chip),
      c = s.chipAt t ∧ c.pwr.phase = .held)
    ∧ (∃ (s : State) (t : Nat) (c : Chip),
      c = s.chipAt t ∧ s.Inv ∧ c.heldByPor = false)
    ∧ (∃ (s : State) (t : Nat) (c : Chip),
      c = s.chipAt t ∧ c.heldByPor = true) :=
  ⟨⟨wResetsBegin0.1, wResetsBegin0.2, _, rfl, inv_of (by decide +kernel), by decide +kernel⟩,
    ⟨wResetsBegin1.1, wResetsBegin1.2, _, rfl, by decide +kernel⟩,
    ⟨wResetsBegin2.1, wResetsBegin2.2, _, rfl, inv_of (by decide +kernel), by decide +kernel⟩,
    ⟨wResetsBegin3.1, wResetsBegin3.2, _, rfl, by decide +kernel⟩⟩

/-- The hypotheses of ResetsBegin are met, clause by clause: part 2. -/
theorem witness_ResetsBegin_2 :
    (∃ (s : State) (t : Nat) (c : Chip) (m : Fin 8),
      c = s.chipAt t ∧ s.Inv ∧ c.heldByPor = false ∧ m.val ≠ 1)
    ∧ (∃ (s : State) (t : Nat) (c : Chip) (m : Fin 8),
      c = s.chipAt t ∧ c.heldByPor = true ∧ m.val ≠ 1)
    ∧ (∃ (s : State) (t : Nat),
      s.Inv)
    ∧ (∃ (s : State) (t : Nat),
      s.Inv) :=
  ⟨⟨wResetsBegin4.1, wResetsBegin4.2.1, _, wResetsBegin4.2.2, rfl, inv_of (by decide +kernel), by decide +kernel, by decide +kernel⟩,
    ⟨wResetsBegin5.1, wResetsBegin5.2.1, _, wResetsBegin5.2.2, rfl, by decide +kernel, by decide +kernel⟩,
    ⟨wResetsBegin6.1, wResetsBegin6.2, inv_of (by decide +kernel)⟩,
    ⟨wResetsBegin7.1, wResetsBegin7.2, inv_of (by decide +kernel)⟩⟩

/-- The hypotheses of PartStarts are met, clause by clause: part 1. -/
theorem witness_PartStarts_1 :
    (∃ (s : State) (t : Nat) (c : Chip),
      c = s.chipAt t ∧ c.pwr.phase = .held)
    ∧ (∃ (s : State) (t : Nat) (c : Chip) (v : BitVec 8),
      c = s.chipAt t ∧ c.pwr.phase = .released ∧ c.pwr.strapDue = true)
    ∧ (∃ (s : State) (t : Nat) (c : Chip) (idOk : Bool) (b0 : Option Package) (b1 : Option Package),
      c = s.chipAt t ∧ c.pwr.phase = .released ∧ ((c.pwr.asked &&& 12 ≠ 0 → c.pwr.strapDue = false)))
    ∧ (∃ (s : State) (t : Nat) (c : Chip) (d : Chip) (idOk : Bool) (b0 : Option Package) (b1 : Option Package),
      c = s.chipAt t ∧ c.pwr.phase = .released ∧ ((c.pwr.asked &&& 12 ≠ 0 → c.pwr.strapDue = false ∧ (c.rd TOP_STRAP_BOOT_MODE = 0 ∨ c.rd TOP_STRAP_BOOT_MODE = 3))) ∧ c.updRec.trial = false ∧ c.updRec.runBank < 2 ∧ d = { c with upd := { c.upd with pkgs := [b0, b1] } }) :=
  ⟨⟨wPartStarts0.1, wPartStarts0.2, _, rfl, by decide +kernel⟩,
    ⟨wPartStarts1.1, wPartStarts1.2.1, _, wPartStarts1.2.2, rfl, by decide +kernel, by decide +kernel⟩,
    ⟨wPartStarts2.1, wPartStarts2.2.1, _, wPartStarts2.2.2.1, wPartStarts2.2.2.2.1, wPartStarts2.2.2.2.2, rfl, by decide +kernel, by decide +kernel⟩,
    ⟨wPartStarts3.1, wPartStarts3.2.1, _, _, wPartStarts3.2.2.1, wPartStarts3.2.2.2.1, wPartStarts3.2.2.2.2, rfl, by decide +kernel, by decide +kernel, by decide +kernel, by decide +kernel, rfl⟩⟩

/-- The hypotheses of PartStarts are met, clause by clause: part 2. -/
theorem witness_PartStarts_2 :
    (∃ (s : State) (t : Nat) (c : Chip),
      c = s.chipAt t ∧ ((c.pwr.phase = .started ∨ c.pwr.phase = .running)) ∧ c.bus.outs = [])
    ∧ (∃ (s : State) (t : Nat) (conv : Bool) (c : Chip),
      c = s.chipAt t ∧ c.pwr.phase = .started ∧ ((c.fw.waits.all fun w => w.plan.after == .none) = true) ∧ c.twn.held = [])
    ∧ (∃ (s : State) (t : Nat) (c : Chip),
      c = s.chipAt t ∧ c.ready = true ∧ c.fw.cfgLoaded = false ∧ c.upd.refused = false ∧ ((∀ n : Fin 8, c.chState n.val ≠ chTraining))) :=
  ⟨⟨wPartStarts4.1, wPartStarts4.2, _, rfl, by decide +kernel, by decide +kernel⟩,
    ⟨wFirmwareReady0.1, wFirmwareReady0.2.1, wFirmwareReady0.2.2, _, rfl, by decide +kernel, by decide +kernel, by decide +kernel⟩,
    ⟨wConfigurationLoaded0.1, wConfigurationLoaded0.2, _, rfl, by decide +kernel, by decide +kernel, by decide +kernel, by decide +kernel⟩⟩

/-- The hypotheses of BrownOutCount are met, clause by clause. -/
theorem witness_BrownOutCount :
    (∃ (s : State) (t : Nat) (m : Fin 8),
      (s.chipAt t).rd PWR_STATUS_RAIL_BELOW_WARN = 0)
    ∧ (∃ (s : State) (t : Nat) (m : Fin 8),
      (s.chipAt t).rd PWR_STATUS_RAIL_BELOW_WARN ≠ 0) :=
  ⟨⟨wBrownOutCount0.1, wBrownOutCount0.2.1, wBrownOutCount0.2.2, by decide +kernel⟩,
    ⟨wBrownOutCount1.1, wBrownOutCount1.2.1, wBrownOutCount1.2.2, by decide +kernel⟩⟩

/-- The hypotheses of BrownOutHold are met, clause by clause. -/
theorem witness_BrownOutHold :
    (∃ (s : State) (t : Nat) (m : Fin 8) (c : Chip),
      c = s.chipAt t ∧ bit (c.rd PWR_STATUS_RAIL_BELOW_WARN) m.val = false)
    ∧ (∃ (s : State) (t : Nat) (m : Fin 8) (c : Chip),
      c = s.chipAt t ∧ bit (c.rd PWR_STATUS_RAIL_BELOW_WARN) m.val = true)
    ∧ (∃ (s : State) (t : Nat) (c : Chip),
      c = s.chipAt t ∧ c.on PWR_STATUS_MRAM_HOLD = true ∧ c.rd PWR_STATUS_RAIL_BELOW_WARN = 0 ∧ ((c.ready = true → c.fw.waits = [] ∧ c.twn.held = [] ∧ c.bus.outs = [] ∧ c.upd.checked = false)))
    ∧ (∃ (s : State) (t : Nat) (c : Chip),
      c = s.chipAt t ∧ c.ready = true ∧ c.on PWR_STATUS_MRAM_HOLD = false) :=
  ⟨⟨wBrownOutHold0.1, wBrownOutHold0.2.1, wBrownOutHold0.2.2, _, rfl, by decide +kernel⟩,
    ⟨wBrownOutHold1.1, wBrownOutHold1.2.1, wBrownOutHold1.2.2, _, rfl, by decide +kernel⟩,
    ⟨wBrownOutHold2.1, wBrownOutHold2.2, _, rfl, by decide +kernel, by decide +kernel, by decide +kernel⟩,
    ⟨wBrownOutHold4.1, wBrownOutHold4.2, _, rfl, by decide +kernel, by decide +kernel⟩⟩

/-- The hypotheses of DomainTransitions are met, clause by clause. -/
theorem witness_DomainTransitions :
    (∃ (s : State) (t : Nat) (n : Fin 248) (v : Fin 4) (c : Chip),
      c = s.chipAt t ∧ c.live = true)
    ∧ (∃ (s : State) (t : Nat) (n : Fin 248) (c : Chip),
      c = s.chipAt t ∧ c.live = true ∧ c.on (PWR_DOM_CTL_BUSY n.val) = true ∧ c.domGoal n.val < 4 ∧ ((isMem n.val = true → c.chState (n.val - 212) ≠ chTraining)) ∧ c.engineDead n.val = false)
    ∧ (∃ (s : State) (t : Nat) (p : Fin 2) (c : Chip),
      c = s.chipAt t ∧ c.live = true ∧ c.dom (domMac p.val) = stLow) :=
  ⟨⟨wDomainTransitions0.1, wDomainTransitions0.2.1, wDomainTransitions0.2.2.1, wDomainTransitions0.2.2.2, _, rfl, by decide +kernel⟩,
    ⟨wDomainTransitions1.1, wDomainTransitions1.2.1, wDomainTransitions1.2.2, _, rfl, by decide +kernel, by decide +kernel, by decide +kernel, by decide +kernel, by decide +kernel⟩,
    ⟨wDomainTransitions2.1, wDomainTransitions2.2.1, wDomainTransitions2.2.2, _, rfl, by decide +kernel, by decide +kernel⟩⟩

/-- The hypotheses of QuietEntryAndWake are met, clause by clause. -/
theorem witness_QuietEntryAndWake :
    (∃ (s : State) (t : Nat) (c : Chip),
      c = s.chipAt t ∧ c.pwr.phase ≠ .quiet ∧ c.pwr.phase ≠ .held ∧ c.twnMode ≠ 1)
    ∧ (∃ (s : State) (t : Nat) (c : Chip),
      c = s.chipAt t ∧ c.pwr.phase ≠ .quiet ∧ c.pwr.phase ≠ .held ∧ c.twnMode = 1)
    ∧ (∃ (s : State) (t : Nat) (c : Chip),
      c = s.chipAt t ∧ c.pwr.phase = .quiet) :=
  ⟨⟨wQuietEntryAndWake0.1, wQuietEntryAndWake0.2, _, rfl, by decide +kernel, by decide +kernel, by decide +kernel⟩,
    ⟨wQuietEntryAndWake1.1, wQuietEntryAndWake1.2, _, rfl, by decide +kernel, by decide +kernel, by decide +kernel⟩,
    ⟨wQuietEntryAndWake2.1, wQuietEntryAndWake2.2, _, rfl, by decide +kernel⟩⟩

/-- The hypotheses of PartMonitors are met, clause by clause: part 1. -/
theorem witness_PartMonitors_1 :
    (∃ (s : State) (t : Nat) (m : Fin 8) (v : Word) (c : Chip),
      c = s.chipAt t ∧ c.ready = true)
    ∧ (∃ (s : State) (t : Nat) (x : Int) (c : Chip),
      c = s.chipAt t ∧ c.live = true)
    ∧ (∃ (s : State) (t : Nat) (c : Chip),
      c = s.chipAt t ∧ c.live = true ∧ ((c.on REF_LO_PRESENT = true ∨ c.ref.loLost = false)))
    ∧ (∃ (s : State) (t : Nat) (c : Chip),
      c = s.chipAt t ∧ c.live = true ∧ c.on REF_LO_PRESENT = false) :=
  ⟨⟨wMonitorLevels0.1, wMonitorLevels0.2.1, wMonitorLevels0.2.2.1, wMonitorLevels0.2.2.2, _, rfl, by decide +kernel⟩,
    ⟨wPartMonitors0.1, wPartMonitors0.2.1, wPartMonitors0.2.2, _, rfl, by decide +kernel⟩,
    ⟨wPartMonitors1.1, wPartMonitors1.2, _, rfl, by decide +kernel, by decide +kernel⟩,
    ⟨wPartMonitors2.1, wPartMonitors2.2, _, rfl, by decide +kernel, by decide +kernel⟩⟩

/-- The hypotheses of PartMonitors are met, clause by clause: part 2. -/
theorem witness_PartMonitors_2 :
    (∃ (s : State) (t : Nat) (v : BitVec 144) (n : Fin 48) (c : Chip),
      c = s.chipAt t ∧ c.live = true ∧ c.role ≠ 2 ∧ c.pwr.strapDue = false)
    ∧ (∃ (s : State) (t : Nat) (v : BitVec 144) (c : Chip),
      c = s.chipAt t ∧ c.live = true ∧ c.role = 2)
    ∧ (∃ (s : State) (t : Nat) (ds : List (Fin 384)) (c : Chip),
      c = s.chipAt t ∧ c.live = true) :=
  ⟨⟨wPartMonitors3.1, wPartMonitors3.2.1, wPartMonitors3.2.2.1, wPartMonitors3.2.2.2, _, rfl, by decide +kernel, by decide +kernel, by decide +kernel⟩,
    ⟨wPartMonitors4.1, wPartMonitors4.2.1, wPartMonitors4.2.2, _, rfl, by decide +kernel, by decide +kernel⟩,
    ⟨wPartMonitors5.1, wPartMonitors5.2.1, wPartMonitors5.2.2, _, rfl, by decide +kernel⟩⟩

/-- The hypotheses of Doorbell are met, clause by clause. -/
theorem witness_Doorbell :
    (∃ (s : State) (t : Nat) (ch : Fin 16) (c : Chip),
      c = s.chipAt t ∧ c.reachable = true ∧ c.fwAllows 4 0 true = true ∧ c.on (MBX_CH_STAT_BUSY ch.val) = false)
    ∧ (∃ (s : State) (t : Nat) (ch : Fin 16) (c : Chip),
      c = s.chipAt t ∧ c.reachable = true ∧ c.fwAllows 4 0 true = true ∧ c.on (MBX_CH_STAT_BUSY ch.val) = true)
    ∧ (∃ (s : State) (t : Nat) (ch : Fin 16) (r : Req) (c : Chip),
      c = s.chipAt t ∧ s.asksFor t ch.val 0x0000 0 r) :=
  ⟨⟨wDoorbell0.1, wDoorbell0.2.1, wDoorbell0.2.2, _, rfl, by decide +kernel, by decide +kernel, by decide +kernel⟩,
    ⟨wDoorbell1.1, wDoorbell1.2.1, wDoorbell1.2.2, _, rfl, by decide +kernel, by decide +kernel, by decide +kernel⟩,
    ⟨wDoorbell3.1, wDoorbell3.2.1, wDoorbell3.2.2.1, wDoorbell3.2.2.2, _, rfl, asksFor_of (by decide +kernel)⟩⟩

/-- The hypotheses of HostInterface are met, clause by clause: part 1. -/
theorem witness_HostInterface_1 :
    (∃ (s : State) (t : Nat) (off : Nat) (v : Word) (row : RegRow) (c : Chip),
      c = s.chipAt t ∧ c.reachable = true ∧ c.fwAllows 4 0 true = true ∧ off % 4 = 0 ∧ rowOf off = some row ∧ row.host = true ∧ c.storesOnly off = true ∧ c.bus.outs = [])
    ∧ (∃ (s : State) (t : Nat) (off : Nat) (v : Word) (row : Option RegRow) (c : Chip),
      c = s.chipAt t ∧ c.reachable = true ∧ c.fwAllows 4 0 true = true ∧ off % 4 = 0 ∧ rowOf off = row ∧ (row.map RegRow.host).getD false = false ∧ c.bus.outs = [])
    ∧ (∃ (s : State) (t : Nat) (off : Nat) (width : Nat) (v : Word) (c : Chip),
      c = s.chipAt t ∧ c.reachable = true ∧ ((width ≠ 4 ∨ off % 4 ≠ 0)) ∧ c.bus.outs = [])
    ∧ (∃ (s : State) (t : Nat) (off : Nat) (v : Word) (c : Chip),
      c = s.chipAt t ∧ c.reachable = true ∧ c.fwAllows 4 0 true = false ∧ off % 4 = 0 ∧ c.bus.outs = []) :=
  ⟨⟨wHostWritesRegister0.1, wHostWritesRegister0.2.1, wHostWritesRegister0.2.2.1, wHostWritesRegister0.2.2.2.1, wHostWritesRegister0.2.2.2.2, _, rfl, by decide +kernel, by decide +kernel, by decide +kernel, row_of (by decide +kernel), by decide +kernel, by decide +kernel, by decide +kernel⟩,
    ⟨wHostWritesRegister1.1, wHostWritesRegister1.2.1, wHostWritesRegister1.2.2.1, wHostWritesRegister1.2.2.2.1, wHostWritesRegister1.2.2.2.2, _, rfl, by decide +kernel, by decide +kernel, by decide +kernel, row_of (by decide +kernel), by decide +kernel, by decide +kernel⟩,
    ⟨wHostWritesRegister2.1, wHostWritesRegister2.2.1, wHostWritesRegister2.2.2.1, wHostWritesRegister2.2.2.2.1, wHostWritesRegister2.2.2.2.2, _, rfl, by decide +kernel, by decide +kernel, by decide +kernel⟩,
    ⟨wHostWritesRegister3.1, wHostWritesRegister3.2.1, wHostWritesRegister3.2.2.1, wHostWritesRegister3.2.2.2, _, rfl, by decide +kernel, by decide +kernel, by decide +kernel, by decide +kernel⟩⟩

/-- The hypotheses of HostInterface are met, clause by clause: part 2. -/
theorem witness_HostInterface_2 :
    (∃ (s : State) (t : Nat) (off : Nat) (width : Nat) (v : Word) (b2 : Bool) (c : Chip),
      c = s.chipAt t ∧ c.reachable = false ∧ c.bus.outs = [])
    ∧ (∃ (s : State) (t : Nat) (ch : Fin 16) (k : Fin 1024) (v : Word) (c : Chip),
      c = s.chipAt t ∧ s.Inv ∧ c.reachable = true ∧ c.fwAllows 4 1 true = true ∧ c.on (MBX_CH_STAT_BUSY ch.val) = false ∧ c.bus.outs = [])
    ∧ (∃ (s : State) (t : Nat) (ch : Fin 16) (k : Fin 1024) (v : Word) (c : Chip),
      c = s.chipAt t ∧ s.Inv ∧ c.reachable = true ∧ c.fwAllows 4 1 true = true ∧ c.on (MBX_CH_STAT_BUSY ch.val) = true ∧ c.bus.outs = [])
    ∧ (∃ (s : State) (t : Nat) (off : Nat) (v : Word) (row : RegRow) (c : Chip),
      c = s.chipAt t ∧ rowOf off = some row ∧ ((off = PWR_STATUS.off ∨ off = PWR_RAIL_HIST.off ∨ off = PWR_WAKE_CAUSE.off)) ∧ c.bus.outs = []) :=
  ⟨⟨wHostWritesRegister4.1, wHostWritesRegister4.2.1, wHostWritesRegister4.2.2.1, wHostWritesRegister4.2.2.2.1, wHostWritesRegister4.2.2.2.2.1, wHostWritesRegister4.2.2.2.2.2, _, rfl, by decide +kernel, by decide +kernel⟩,
    ⟨wHostWritesRegister5.1, wHostWritesRegister5.2.1, wHostWritesRegister5.2.2.1, wHostWritesRegister5.2.2.2.1, wHostWritesRegister5.2.2.2.2, _, rfl, inv_of (by decide +kernel), by decide +kernel, by decide +kernel, by decide +kernel, by decide +kernel⟩,
    ⟨wHostWritesRegister6.1, wHostWritesRegister6.2.1, wHostWritesRegister6.2.2.1, wHostWritesRegister6.2.2.2.1, wHostWritesRegister6.2.2.2.2, _, rfl, inv_of (by decide +kernel), by decide +kernel, by decide +kernel, by decide +kernel, by decide +kernel⟩,
    ⟨wHostWritesRegister7.1, wHostWritesRegister7.2.1, wHostWritesRegister7.2.2.1, wHostWritesRegister7.2.2.2.1, wHostWritesRegister7.2.2.2.2, _, rfl, row_of (by decide +kernel), by decide +kernel, by decide +kernel⟩⟩

/-- The hypotheses of HostInterface are met, clause by clause: part 3. -/
theorem witness_HostInterface_3 :
    (∃ (s : State) (t : Nat) (off : Nat) (v : Word) (c : Chip),
      c = s.chipAt t ∧ off ≠ PWR_STATUS.off ∧ off ≠ PWR_RAIL_HIST.off ∧ off ≠ PWR_WAKE_CAUSE.off ∧ off ≠ PWR_QUIET_CTL.off ∧ c.bus.outs = [])
    ∧ (∃ (s : State) (t : Nat) (v : Fin 32) (c : Chip),
      c = s.chipAt t ∧ c.host.fnMasked = false ∧ c.host.d3hot = false ∧ bit c.host.pba v.val = true)
    ∧ (∃ (s : State) (t : Nat) (v : Fin 32) (c : Chip),
      c = s.chipAt t ∧ c.host.fnMasked = true ∧ newCauses s.chip c = []) :=
  ⟨⟨wHostWritesRegister8.1, wHostWritesRegister8.2.1, wHostWritesRegister8.2.2.1, wHostWritesRegister8.2.2.2, _, rfl, by decide +kernel, by decide +kernel, by decide +kernel, by decide +kernel, by decide +kernel⟩,
    ⟨wEndpointEvents0.1, wEndpointEvents0.2.1, wEndpointEvents0.2.2, _, rfl, by decide +kernel, by decide +kernel, by decide +kernel⟩,
    ⟨wEndpointEvents1.1, wEndpointEvents1.2.1, wEndpointEvents1.2.2, _, rfl, by decide +kernel, by decide +kernel⟩⟩

/-- The hypotheses of WaitingRequestsEnd are met, clause by clause: part 1. -/
theorem witness_WaitingRequestsEnd_1 :
    (∃ (s : State) (t : Nat) (ch : Fin 16) (w : Wait) (c : Chip),
      c = s.chipAt t ∧ s.Inv ∧ c.ready = true ∧ c.waiting ch.val = some w ∧ w.peer = true ∧ w.since + ms 10 ≤ c.now)
    ∧ (∃ (s : State) (t : Nat) (ch : Fin 16) (w : Wait) (c : Chip),
      c = s.chipAt t ∧ s.Inv ∧ c.ready = true ∧ c.waiting ch.val = some w ∧ w.journal = true ∧ w.since + ms 100 ≤ c.now)
    ∧ (∃ (s : State) (t : Nat) (ch : Fin 16) (w : Wait) (ns : List Nat) (c : Chip),
      c = s.chipAt t ∧ s.Inv ∧ c.ready = true ∧ c.waiting ch.val = some w ∧ w.long = some .domains ∧ w.journal = false ∧ w.ack = none ∧ w.peer = false ∧ w.hand = false ∧ w.plan.after = .none ∧ w.plan.nows.map Change.idx = ns ∧ ns.length ≤ 248 ∧ ((∀ n ∈ ns, c.dom n = c.rd (PWR_DOM_CTL_REQ n) ∧ c.on (PWR_DOM_CTL_BUSY n) = false)))
    ∧ (∃ (s : State) (t : Nat) (ch : Fin 16) (bs : List Nat) (w : Wait) (c : Chip),
      c = s.chipAt t ∧ s.Inv ∧ c.ready = true ∧ c.waiting ch.val = some w ∧ w.long = some .download ∧ w.journal = false ∧ w.ack = none ∧ w.peer = false ∧ w.hand = false ∧ w.plan.after = .none ∧ w.req.w 1 + w.req.w 5 ≤ 2 ^ 26 ∧ bs.length = w.req.w 5) :=
  ⟨⟨wWaitingRequestsEnd0.1, wWaitingRequestsEnd0.2.1, wWaitingRequestsEnd0.2.2.1, wWaitingRequestsEnd0.2.2.2, _, rfl, inv_of (by decide +kernel), by decide +kernel, by decide +kernel, by decide +kernel, by decide +kernel⟩,
    ⟨wWaitingRequestsEnd1.1, wWaitingRequestsEnd1.2.1, wWaitingRequestsEnd1.2.2.1, wWaitingRequestsEnd1.2.2.2, _, rfl, inv_of (by decide +kernel), by decide +kernel, by decide +kernel, by decide +kernel, by decide +kernel⟩,
    ⟨wWaitingRequestsEnd2.1, wWaitingRequestsEnd2.2.1, wWaitingRequestsEnd2.2.2.1, wWaitingRequestsEnd2.2.2.2.1, wWaitingRequestsEnd2.2.2.2.2, _, rfl, inv_of (by decide +kernel), by decide +kernel, by decide +kernel, by decide +kernel, by decide +kernel, by decide +kernel, by decide +kernel, by decide +kernel, by decide +kernel, by decide +kernel, by decide +kernel, by decide +kernel⟩,
    ⟨wLongRequestsEnd0.1, wLongRequestsEnd0.2.1, wLongRequestsEnd0.2.2.1, wLongRequestsEnd0.2.2.2.1, wLongRequestsEnd0.2.2.2.2, _, rfl, inv_of (by decide +kernel), by decide +kernel, by decide +kernel, by decide +kernel, by decide +kernel, by decide +kernel, by decide +kernel, by decide +kernel, by decide +kernel, by decide +kernel, by decide +kernel⟩⟩

/-- The hypotheses of WaitingRequestsEnd are met, clause by clause: part 2. -/
theorem witness_WaitingRequestsEnd_2 :
    (∃ (s : State) (t : Nat) (ch : Fin 16) (w : Wait) (c : Chip),
      c = s.chipAt t ∧ s.Inv ∧ c.ready = true ∧ c.waiting ch.val = some w ∧ w.long = some .download ∧ w.journal = false ∧ w.ack = none ∧ w.peer = false ∧ w.hand = false ∧ w.plan.after = .none)
    ∧ (∃ (s : State) (t : Nat) (ch : Fin 16) (p : Package) (w : Wait) (c : Chip),
      c = s.chipAt t ∧ s.Inv ∧ c.ready = true ∧ c.waiting ch.val = some w ∧ w.long = some .verify ∧ w.journal = false ∧ w.ack = none ∧ w.peer = false ∧ w.hand = false ∧ w.plan.after = .none ∧ c.inactive < 2 ∧ c.verifyFails p = none)
    ∧ (∃ (s : State) (t : Nat) (ch : Fin 16) (p : Package) (w : Wait) (why : List Nat) (c : Chip),
      c = s.chipAt t ∧ s.Inv ∧ c.ready = true ∧ c.waiting ch.val = some w ∧ w.long = some .verify ∧ w.journal = false ∧ w.ack = none ∧ w.peer = false ∧ w.hand = false ∧ w.plan.after = .none ∧ c.verifyFails p = some why)
    ∧ (∃ (s : State) (t : Nat) (ch : Fin 16) (w : Wait) (c : Chip),
      c = s.chipAt t ∧ s.Inv ∧ c.ready = true ∧ c.waiting ch.val = some w ∧ w.long = some .attest ∧ w.journal = false ∧ w.ack = none ∧ w.peer = false ∧ w.hand = false ∧ w.plan.after = .none) :=
  ⟨⟨wLongRequestsEnd1.1, wLongRequestsEnd1.2.1, wLongRequestsEnd1.2.2.1, wLongRequestsEnd1.2.2.2, _, rfl, inv_of (by decide +kernel), by decide +kernel, by decide +kernel, by decide +kernel, by decide +kernel, by decide +kernel, by decide +kernel, by decide +kernel, by decide +kernel⟩,
    ⟨wLongRequestsEnd2.1, wLongRequestsEnd2.2.1, wLongRequestsEnd2.2.2.1, wLongRequestsEnd2.2.2.2.1, wLongRequestsEnd2.2.2.2.2, _, rfl, inv_of (by decide +kernel), by decide +kernel, by decide +kernel, by decide +kernel, by decide +kernel, by decide +kernel, by decide +kernel, by decide +kernel, by decide +kernel, by decide +kernel, by decide +kernel⟩,
    ⟨wLongRequestsEnd3.1, wLongRequestsEnd3.2.1, wLongRequestsEnd3.2.2.1, wLongRequestsEnd3.2.2.2.1, wLongRequestsEnd3.2.2.2.2.1, wLongRequestsEnd3.2.2.2.2.2, _, rfl, inv_of (by decide +kernel), by decide +kernel, by decide +kernel, by decide +kernel, by decide +kernel, by decide +kernel, by decide +kernel, by decide +kernel, by decide +kernel, by decide +kernel⟩,
    ⟨wLongRequestsEnd4.1, wLongRequestsEnd4.2.1, wLongRequestsEnd4.2.2.1, wLongRequestsEnd4.2.2.2, _, rfl, inv_of (by decide +kernel), by decide +kernel, by decide +kernel, by decide +kernel, by decide +kernel, by decide +kernel, by decide +kernel, by decide +kernel, by decide +kernel⟩⟩

/-- The hypotheses of RefusedRequests are met, clause by clause. -/
theorem witness_RefusedRequests :
    (∃ (s : State) (t : Nat) (ch : Fin 16) (r : Req) (x : Resp) (full : Bool) (c : Chip),
      c = s.chipAt t ∧ s.asksFor t ch.val 0x0480 r.epoch r ∧ c.verdict s.mem r chkTake = .refuse x full)
    ∧ (∃ (s : State) (t : Nat) (ch : Fin 16) (r : Req) (p : Plan) (c : Chip),
      c = s.chipAt t ∧ s.Inv ∧ s.asks t ch r ∧ r.opcode = 0x0480 ∧ r.checkOnly = true ∧ c.bus.outs = [] ∧ c.verdict s.mem r chkTake = .accept p)
    ∧ (∃ (s : State) (t : Nat) (ch : Fin 16) (r : Req) (h : Hist) (since : Nat) (c : Chip),
      c = s.chipAt t ∧ s.Inv ∧ c.nextBell = some (ch.val, since) ∧ c.on (MBX_CH_STAT_BUSY ch.val) = true ∧ reqVersion s.mem ch.val = 1 ∧ parseReq s.mem ch.val = r ∧ r.chan = ch.val ∧ (c.fw.hist.find? (fun h => h.chan == ch.val && h.seq == r.seq) = some h) ∧ h.opcode = r.opcode ∧ h.len = r.len ∧ h.resp.flags = 0 ∧ h.resp.payload.length ≤ 1020 ∧ c.bus.outs = [])
    ∧ (∃ (s : State) (t : Nat) (ch : Fin 16) (since : Nat) (c : Chip),
      c = s.chipAt t ∧ s.Inv ∧ c.nextBell = some (ch.val, since) ∧ c.on (MBX_CH_STAT_BUSY ch.val) = true ∧ reqVersion s.mem ch.val ≠ 1 ∧ c.bus.outs = []) :=
  ⟨⟨wRefusedRequests0.1, wRefusedRequests0.2.1, wRefusedRequests0.2.2.1, wRefusedRequests0.2.2.2.1, wRefusedRequests0.2.2.2.2.1, wRefusedRequests0.2.2.2.2.2, _, rfl, asksFor_of (by decide +kernel), verdict_of (by decide +kernel)⟩,
    ⟨wRefusedRequests1.1, wRefusedRequests1.2.1, wRefusedRequests1.2.2.1, wRefusedRequests1.2.2.2.1, wRefusedRequests1.2.2.2.2, _, rfl, inv_of (by decide +kernel), asks_of (by decide +kernel), by decide +kernel, by decide +kernel, by decide +kernel, verdict_of (by decide +kernel)⟩,
    ⟨wRefusedRequests2.1, wRefusedRequests2.2.1, wRefusedRequests2.2.2.1, wRefusedRequests2.2.2.2.1, wRefusedRequests2.2.2.2.2.1, wRefusedRequests2.2.2.2.2.2, _, rfl, inv_of (by decide +kernel), by decide +kernel, by decide +kernel, by decide +kernel, by decide +kernel, by decide +kernel, by decide +kernel, by decide +kernel, by decide +kernel, by decide +kernel, by decide +kernel, by decide +kernel⟩,
    ⟨wRefusedRequests3.1, wRefusedRequests3.2.1, wRefusedRequests3.2.2.1, wRefusedRequests3.2.2.2, _, rfl, inv_of (by decide +kernel), by decide +kernel, by decide +kernel, by decide +kernel, by decide +kernel⟩⟩

/-- The hypotheses of PlainQueries are met, clause by clause: part 1. -/
theorem witness_PlainQueries_1 :
    (∃ (s : State) (t : Nat) (ch : Fin 16) (r : Req) (c : Chip),
      c = s.chipAt t ∧ s.asksFor t ch.val 0x0000 0 r)
    ∧ (∃ (s : State) (t : Nat) (ch : Fin 16) (r : Req) (c : Chip),
      c = s.chipAt t ∧ s.asksFor t ch.val 0x0001 0 r ∧ r.len = 0)
    ∧ (∃ (s : State) (t : Nat) (ch : Fin 16) (r : Req) (c : Chip),
      c = s.chipAt t ∧ s.asksFor t ch.val 0x0002 0 r ∧ r.len = 0)
    ∧ (∃ (s : State) (t : Nat) (ch : Fin 16) (r : Req) (c : Chip),
      c = s.chipAt t ∧ s.asksFor t ch.val 0x0100 0 r ∧ r.len = 0) :=
  ⟨⟨wPlainQueries0.1, wPlainQueries0.2.1, wPlainQueries0.2.2.1, wPlainQueries0.2.2.2, _, rfl, asksFor_of (by decide +kernel)⟩,
    ⟨wPlainQueries1.1, wPlainQueries1.2.1, wPlainQueries1.2.2.1, wPlainQueries1.2.2.2, _, rfl, asksFor_of (by decide +kernel), by decide +kernel⟩,
    ⟨wPlainQueries2.1, wPlainQueries2.2.1, wPlainQueries2.2.2.1, wPlainQueries2.2.2.2, _, rfl, asksFor_of (by decide +kernel), by decide +kernel⟩,
    ⟨wPlainQueries3.1, wPlainQueries3.2.1, wPlainQueries3.2.2.1, wPlainQueries3.2.2.2, _, rfl, asksFor_of (by decide +kernel), by decide +kernel⟩⟩

/-- The hypotheses of PlainQueries are met, clause by clause: part 2. -/
theorem witness_PlainQueries_2 :
    (∃ (s : State) (t : Nat) (ch : Fin 16) (r : Req) (c : Chip),
      c = s.chipAt t ∧ s.asksFor t ch.val 0x0200 0 r ∧ r.len = 0)
    ∧ (∃ (s : State) (t : Nat) (ch : Fin 16) (r : Req) (c : Chip),
      c = s.chipAt t ∧ s.asksFor t ch.val 0x0300 0 r ∧ r.len = 0)
    ∧ (∃ (s : State) (t : Nat) (ch : Fin 16) (r : Req) (c : Chip),
      c = s.chipAt t ∧ s.asksFor t ch.val 0x0700 0 r ∧ r.len = 0)
    ∧ (∃ (s : State) (t : Nat) (ch : Fin 16) (r : Req) (c : Chip),
      c = s.chipAt t ∧ s.asksFor t ch.val 0x1000 0 r ∧ r.len = 0) :=
  ⟨⟨wPlainQueries4.1, wPlainQueries4.2.1, wPlainQueries4.2.2.1, wPlainQueries4.2.2.2, _, rfl, asksFor_of (by decide +kernel), by decide +kernel⟩,
    ⟨wPlainQueries5.1, wPlainQueries5.2.1, wPlainQueries5.2.2.1, wPlainQueries5.2.2.2, _, rfl, asksFor_of (by decide +kernel), by decide +kernel⟩,
    ⟨wPlainQueries6.1, wPlainQueries6.2.1, wPlainQueries6.2.2.1, wPlainQueries6.2.2.2, _, rfl, asksFor_of (by decide +kernel), by decide +kernel⟩,
    ⟨wPlainQueries7.1, wPlainQueries7.2.1, wPlainQueries7.2.2.1, wPlainQueries7.2.2.2, _, rfl, asksFor_of (by decide +kernel), by decide +kernel⟩⟩

/-- The hypotheses of PlainQueries are met, clause by clause: part 3. -/
theorem witness_PlainQueries_3 :
    ∃ (s : State) (t : Nat) (ch : Fin 16) (r : Req) (c : Chip),
      c = s.chipAt t ∧ s.asksFor t ch.val 0x0401 0 r ∧ r.len = 0 :=
  ⟨wPlainQueries8.1, wPlainQueries8.2.1, wPlainQueries8.2.2.1, wPlainQueries8.2.2.2, _, rfl, asksFor_of (by decide +kernel), by decide +kernel⟩

/-- The hypotheses of SelectedQueries are met, clause by clause: part 1. -/
theorem witness_SelectedQueries_1 :
    (∃ (s : State) (t : Nat) (ch : Fin 16) (r : Req) (c : Chip),
      c = s.chipAt t ∧ s.asksFor t ch.val 0x1100 0 r ∧ r.len = 0)
    ∧ (∃ (s : State) (t : Nat) (ch : Fin 16) (r : Req) (es : List (List Nat)) (c : Chip),
      c = s.chipAt t ∧ s.asksFor t ch.val 0x0301 0 r ∧ r.len = 8 ∧ r.w 0 < 4 ∧ 1 ≤ r.w 1 ∧ r.w 1 ≤ 63 ∧ es = ((if bit (r.w 0) 1 then (c.ptpPort (r.w 0 % 2)).txCopy else (c.ptpPort (r.w 0 % 2)).rxCopy).take (r.w 1)))
    ∧ (∃ (s : State) (t : Nat) (ch : Fin 16) (r : Req) (c : Chip),
      c = s.chipAt t ∧ s.asksFor t ch.val 0x0400 0 r ∧ r.len = 8 ∧ 1 ≤ r.w 1 ∧ r.w 1 ≤ 384 ∧ (((List.range (r.w 1)).all fun i => dstOffered c.role (r.w 0 + i)) = true))
    ∧ (∃ (s : State) (t : Nat) (ch : Fin 16) (r : Req) (c : Chip),
      c = s.chipAt t ∧ s.asksFor t ch.val 0x0500 0 r ∧ r.len = 8 ∧ 1 ≤ r.w 1 ∧ r.w 1 ≤ 254 ∧ (((List.range (r.w 1)).all fun i => srcOffered c.role (r.w 0 + i)) = true)) :=
  ⟨⟨wSelectedQueries0.1, wSelectedQueries0.2.1, wSelectedQueries0.2.2.1, wSelectedQueries0.2.2.2, _, rfl, asksFor_of (by decide +kernel), by decide +kernel⟩,
    ⟨wSelectedQueries1.1, wSelectedQueries1.2.1, wSelectedQueries1.2.2.1, wSelectedQueries1.2.2.2.1, wSelectedQueries1.2.2.2.2, _, rfl, asksFor_of (by decide +kernel), by decide +kernel, by decide +kernel, by decide +kernel, by decide +kernel, by decide +kernel⟩,
    ⟨wSelectedQueries2.1, wSelectedQueries2.2.1, wSelectedQueries2.2.2.1, wSelectedQueries2.2.2.2, _, rfl, asksFor_of (by decide +kernel), by decide +kernel, by decide +kernel, by decide +kernel, by decide +kernel⟩,
    ⟨wSelectedQueries3.1, wSelectedQueries3.2.1, wSelectedQueries3.2.2.1, wSelectedQueries3.2.2.2, _, rfl, asksFor_of (by decide +kernel), by decide +kernel, by decide +kernel, by decide +kernel, by decide +kernel⟩⟩

/-- The hypotheses of SelectedQueries are met, clause by clause: part 2. -/
theorem witness_SelectedQueries_2 :
    (∃ (s : State) (t : Nat) (ch : Fin 16) (r : Req) (c : Chip),
      c = s.chipAt t ∧ s.asksFor t ch.val 0x0600 0 r ∧ r.len = 12 ∧ r.w 0 = 1 ∧ 1 ≤ r.w 2 ∧ r.w 1 + r.w 2 ≤ 48)
    ∧ (∃ (s : State) (t : Nat) (ch : Fin 16) (r : Req) (c : Chip),
      c = s.chipAt t ∧ s.asksFor t ch.val 0x0800 0 r ∧ r.len = 8 ∧ 1 ≤ r.w 1 ∧ r.w 0 + r.w 1 ≤ 48)
    ∧ (∃ (s : State) (t : Nat) (ch : Fin 16) (r : Req) (c : Chip),
      c = s.chipAt t ∧ s.asksFor t ch.val 0x0900 0 r ∧ r.len = 12 ∧ r.w 0 = 1 ∧ 1 ≤ r.w 2 ∧ r.w 1 + r.w 2 ≤ 48)
    ∧ (∃ (s : State) (t : Nat) (ch : Fin 16) (r : Req) (c : Chip),
      c = s.chipAt t ∧ s.asksFor t ch.val 0x0A00 0 r ∧ r.len = 4 ∧ r.w 0 < 2) :=
  ⟨⟨wSelectedQueries4.1, wSelectedQueries4.2.1, wSelectedQueries4.2.2.1, wSelectedQueries4.2.2.2, _, rfl, asksFor_of (by decide +kernel), by decide +kernel, by decide +kernel, by decide +kernel, by decide +kernel⟩,
    ⟨wSelectedQueries5.1, wSelectedQueries5.2.1, wSelectedQueries5.2.2.1, wSelectedQueries5.2.2.2, _, rfl, asksFor_of (by decide +kernel), by decide +kernel, by decide +kernel, by decide +kernel⟩,
    ⟨wSelectedQueries6.1, wSelectedQueries6.2.1, wSelectedQueries6.2.2.1, wSelectedQueries6.2.2.2, _, rfl, asksFor_of (by decide +kernel), by decide +kernel, by decide +kernel, by decide +kernel, by decide +kernel⟩,
    ⟨wSelectedQueries7.1, wSelectedQueries7.2.1, wSelectedQueries7.2.2.1, wSelectedQueries7.2.2.2, _, rfl, asksFor_of (by decide +kernel), by decide +kernel, by decide +kernel⟩⟩

/-- The hypotheses of SelectedQueries are met, clause by clause: part 3. -/
theorem witness_SelectedQueries_3 :
    (∃ (s : State) (t : Nat) (ch : Fin 16) (r : Req) (c : Chip),
      c = s.chipAt t ∧ s.asksFor t ch.val 0x0B00 0 r ∧ r.len = 12 ∧ r.w 0 = 1 ∧ 1 ≤ r.w 2 ∧ r.w 1 + r.w 2 ≤ 112)
    ∧ (∃ (s : State) (t : Nat) (ch : Fin 16) (r : Req) (c : Chip),
      c = s.chipAt t ∧ s.asksFor t ch.val 0x0C00 0 r ∧ r.len = 4 ∧ r.w 0 = 0)
    ∧ (∃ (s : State) (t : Nat) (ch : Fin 16) (r : Req) (c : Chip),
      c = s.chipAt t ∧ s.asksFor t ch.val 0x0D00 0 r ∧ r.len = 8 ∧ 1 ≤ r.w 1 ∧ r.w 0 + r.w 1 ≤ 16)
    ∧ (∃ (s : State) (t : Nat) (ch : Fin 16) (r : Req) (c : Chip),
      c = s.chipAt t ∧ s.asksFor t ch.val 0x0E00 0 r ∧ r.len = 12 ∧ r.w 0 = 2 ∧ 1 ≤ r.w 2 ∧ r.w 1 + r.w 2 ≤ 64) :=
  ⟨⟨wSelectedQueries8.1, wSelectedQueries8.2.1, wSelectedQueries8.2.2.1, wSelectedQueries8.2.2.2, _, rfl, asksFor_of (by decide +kernel), by decide +kernel, by decide +kernel, by decide +kernel, by decide +kernel⟩,
    ⟨wSelectedQueries9.1, wSelectedQueries9.2.1, wSelectedQueries9.2.2.1, wSelectedQueries9.2.2.2, _, rfl, asksFor_of (by decide +kernel), by decide +kernel, by decide +kernel⟩,
    ⟨wSelectedQueries10.1, wSelectedQueries10.2.1, wSelectedQueries10.2.2.1, wSelectedQueries10.2.2.2, _, rfl, asksFor_of (by decide +kernel), by decide +kernel, by decide +kernel, by decide +kernel⟩,
    ⟨wSelectedQueries11.1, wSelectedQueries11.2.1, wSelectedQueries11.2.2.1, wSelectedQueries11.2.2.2, _, rfl, asksFor_of (by decide +kernel), by decide +kernel, by decide +kernel, by decide +kernel, by decide +kernel⟩⟩

/-- The hypotheses of SelectedQueries are met, clause by clause: part 4. -/
theorem witness_SelectedQueries_4 :
    ∃ (s : State) (t : Nat) (ch : Fin 16) (r : Req) (c : Chip),
      c = s.chipAt t ∧ s.asksFor t ch.val 0x0F00 0 r ∧ r.len = 12 ∧ r.w 0 = 1 ∧ r.w 1 < 2 ∧ 1 ≤ r.w 2 ∧ r.w 2 ≤ 64 :=
  ⟨wSelectedQueries12.1, wSelectedQueries12.2.1, wSelectedQueries12.2.2.1, wSelectedQueries12.2.2.2, _, rfl, asksFor_of (by decide +kernel), by decide +kernel, by decide +kernel, by decide +kernel, by decide +kernel, by decide +kernel⟩

/-- The hypotheses of SelectorQueries are met, clause by clause: part 1. -/
theorem witness_SelectorQueries_1 :
    (∃ (s : State) (t : Nat) (ch : Fin 16) (r : Req) (c : Chip),
      c = s.chipAt t ∧ s.asksFor t ch.val 0x0600 0 r ∧ r.len = 12 ∧ r.w 0 = 0 ∧ 1 ≤ r.w 2 ∧ r.w 1 + r.w 2 ≤ 48)
    ∧ (∃ (s : State) (t : Nat) (ch : Fin 16) (r : Req) (c : Chip),
      c = s.chipAt t ∧ s.asksFor t ch.val 0x0900 0 r ∧ r.len = 12 ∧ r.w 0 = 0 ∧ 1 ≤ r.w 2 ∧ r.w 1 + r.w 2 ≤ 48)
    ∧ (∃ (s : State) (t : Nat) (ch : Fin 16) (r : Req) (c : Chip),
      c = s.chipAt t ∧ s.asksFor t ch.val 0x0900 0 r ∧ r.len = 12 ∧ r.w 0 = 2 ∧ 1 ≤ r.w 2 ∧ r.w 1 + r.w 2 ≤ 192)
    ∧ (∃ (s : State) (t : Nat) (ch : Fin 16) (r : Req) (c : Chip),
      c = s.chipAt t ∧ s.asksFor t ch.val 0x0900 0 r ∧ r.len = 12 ∧ r.w 0 = 3 ∧ 1 ≤ r.w 2 ∧ r.w 1 + r.w 2 ≤ 96 ∧ c.role = 1) :=
  ⟨⟨wSelectorQueries0.1, wSelectorQueries0.2.1, wSelectorQueries0.2.2.1, wSelectorQueries0.2.2.2, _, rfl, asksFor_of (by decide +kernel), by decide +kernel, by decide +kernel, by decide +kernel, by decide +kernel⟩,
    ⟨wSelectorQueries1.1, wSelectorQueries1.2.1, wSelectorQueries1.2.2.1, wSelectorQueries1.2.2.2, _, rfl, asksFor_of (by decide +kernel), by decide +kernel, by decide +kernel, by decide +kernel, by decide +kernel⟩,
    ⟨wSelectorQueries2.1, wSelectorQueries2.2.1, wSelectorQueries2.2.2.1, wSelectorQueries2.2.2.2, _, rfl, asksFor_of (by decide +kernel), by decide +kernel, by decide +kernel, by decide +kernel, by decide +kernel⟩,
    ⟨wSelectorQueries3.1, wSelectorQueries3.2.1, wSelectorQueries3.2.2.1, wSelectorQueries3.2.2.2, _, rfl, asksFor_of (by decide +kernel), by decide +kernel, by decide +kernel, by decide +kernel, by decide +kernel, by decide +kernel⟩⟩

/-- The hypotheses of SelectorQueries are met, clause by clause: part 2. -/
theorem witness_SelectorQueries_2 :
    (∃ (s : State) (t : Nat) (ch : Fin 16) (r : Req) (c : Chip),
      c = s.chipAt t ∧ s.asksFor t ch.val 0x0B00 0 r ∧ r.len = 12 ∧ r.w 0 = 0 ∧ 1 ≤ r.w 2 ∧ r.w 2 ≤ 64 ∧ r.w 1 + r.w 2 ≤ 112)
    ∧ (∃ (s : State) (t : Nat) (ch : Fin 16) (r : Req) (c : Chip),
      c = s.chipAt t ∧ s.asksFor t ch.val 0x0B00 0 r ∧ r.len = 12 ∧ r.w 0 = 2 ∧ r.w 1 < 112 ∧ r.w 2 = 0)
    ∧ (∃ (s : State) (t : Nat) (ch : Fin 16) (r : Req) (c : Chip),
      c = s.chipAt t ∧ s.asksFor t ch.val 0x0C00 0 r ∧ r.len = 12 ∧ r.w 0 = 1 ∧ 1 ≤ r.w 2 ∧ r.w 2 ≤ 510 ∧ r.w 1 + r.w 2 ≤ 512)
    ∧ (∃ (s : State) (t : Nat) (ch : Fin 16) (r : Req) (c : Chip),
      c = s.chipAt t ∧ s.asksFor t ch.val 0x0C00 0 r ∧ r.len = 16 ∧ r.w 0 = 2 ∧ r.w 1 < 512 ∧ 1 ≤ r.w 3 ∧ r.w 2 + r.w 3 ≤ 512) :=
  ⟨⟨wSelectorQueries4.1, wSelectorQueries4.2.1, wSelectorQueries4.2.2.1, wSelectorQueries4.2.2.2, _, rfl, asksFor_of (by decide +kernel), by decide +kernel, by decide +kernel, by decide +kernel, by decide +kernel, by decide +kernel⟩,
    ⟨wSelectorQueries5.1, wSelectorQueries5.2.1, wSelectorQueries5.2.2.1, wSelectorQueries5.2.2.2, _, rfl, asksFor_of (by decide +kernel), by decide +kernel, by decide +kernel, by decide +kernel, by decide +kernel⟩,
    ⟨wSelectorQueries6.1, wSelectorQueries6.2.1, wSelectorQueries6.2.2.1, wSelectorQueries6.2.2.2, _, rfl, asksFor_of (by decide +kernel), by decide +kernel, by decide +kernel, by decide +kernel, by decide +kernel, by decide +kernel⟩,
    ⟨wSelectorQueries7.1, wSelectorQueries7.2.1, wSelectorQueries7.2.2.1, wSelectorQueries7.2.2.2, _, rfl, asksFor_of (by decide +kernel), by decide +kernel, by decide +kernel, by decide +kernel, by decide +kernel, by decide +kernel⟩⟩

/-- The hypotheses of SelectorQueries are met, clause by clause: part 3. -/
theorem witness_SelectorQueries_3 :
    (∃ (s : State) (t : Nat) (ch : Fin 16) (r : Req) (c : Chip),
      c = s.chipAt t ∧ s.asksFor t ch.val 0x0C00 0 r ∧ r.len = 12 ∧ r.w 0 = 3 ∧ 1 ≤ r.w 2 ∧ r.w 2 ≤ 1000 ∧ r.w 1 + r.w 2 ≤ 8192)
    ∧ (∃ (s : State) (t : Nat) (ch : Fin 16) (r : Req) (c : Chip),
      c = s.chipAt t ∧ s.asksFor t ch.val 0x0E00 0 r ∧ r.len = 4 ∧ r.w 0 = 0)
    ∧ (∃ (s : State) (t : Nat) (ch : Fin 16) (r : Req) (c : Chip),
      c = s.chipAt t ∧ s.asksFor t ch.val 0x0E00 0 r ∧ r.len = 8 ∧ r.w 0 = 1 ∧ r.w 1 < 4)
    ∧ (∃ (s : State) (t : Nat) (ch : Fin 16) (r : Req) (c : Chip),
      c = s.chipAt t ∧ s.asksFor t ch.val 0x0F00 0 r ∧ r.len = 4 ∧ r.w 0 = 0) :=
  ⟨⟨wSelectorQueries8.1, wSelectorQueries8.2.1, wSelectorQueries8.2.2.1, wSelectorQueries8.2.2.2, _, rfl, asksFor_of (by decide +kernel), by decide +kernel, by decide +kernel, by decide +kernel, by decide +kernel, by decide +kernel⟩,
    ⟨wSelectorQueries9.1, wSelectorQueries9.2.1, wSelectorQueries9.2.2.1, wSelectorQueries9.2.2.2, _, rfl, asksFor_of (by decide +kernel), by decide +kernel, by decide +kernel⟩,
    ⟨wSelectorQueries10.1, wSelectorQueries10.2.1, wSelectorQueries10.2.2.1, wSelectorQueries10.2.2.2, _, rfl, asksFor_of (by decide +kernel), by decide +kernel, by decide +kernel, by decide +kernel⟩,
    ⟨wSelectorQueries11.1, wSelectorQueries11.2.1, wSelectorQueries11.2.2.1, wSelectorQueries11.2.2.2, _, rfl, asksFor_of (by decide +kernel), by decide +kernel, by decide +kernel⟩⟩

/-- The hypotheses of SelectorQueries are met, clause by clause: part 4. -/
theorem witness_SelectorQueries_4 :
    ∃ (s : State) (t : Nat) (ch : Fin 16) (r : Req) (c : Chip),
      c = s.chipAt t ∧ s.asksFor t ch.val 0x1101 0 r ∧ r.len = 4 ∧ r.w 0 = 1 :=
  ⟨wSelectorQueries12.1, wSelectorQueries12.2.1, wSelectorQueries12.2.2.1, wSelectorQueries12.2.2.2, _, rfl, asksFor_of (by decide +kernel), by decide +kernel, by decide +kernel⟩

/-- The hypotheses of TopAndPowerRequests are met, clause by clause: part 1. -/
theorem witness_TopAndPowerRequests_1 :
    (∃ (s : State) (t : Nat) (ch : Fin 16) (r : Req) (c : Chip),
      c = s.chipAt t ∧ s.asksFor t ch.val 0x0082 0 r ∧ r.len = 4 ∧ r.w 0 < 3 ∧ ((r.w 0 = 2 → c.on TWN_CFG_PENDING_ENABLE = false)) ∧ c.twnMode = 0 ∧ c.mramHeld = false ∧ c.upd.refused = false)
    ∧ (∃ (s : State) (t : Nat) (ch : Fin 16) (r : Req) (h : Hist) (c : Chip),
      c = s.chipAt t ∧ s.mayAsk t ch.val 0x0083 r ∧ (
      let chn := bits (r.w 0) 16 16;
      let sq := bits (r.w 0) 0 16;
      let mine := c.fw.queue.filter fun p => p.chan == chn && p.seq == sq;
      r.lenIs 1 = true ∧ ((h.resp.status == stPending && !(bit h.resp.flags 2)) : Bool) = true ∧ ((r.epoch == 0) : Bool) = true ∧ ((!h.taken && !(mine.any c.dueSoon)) : Bool) = true ∧ (c.fw.hist.find? (fun h => h.chan == chn && h.seq == sq) = some h) ∧ c.hasRoom [] [⟨.cancel, 0, [chn, sq]⟩] = true))
    ∧ (∃ (s : State) (t : Nat) (ch : Fin 16) (r : Req) (c : Chip),
      c = s.chipAt t ∧ s.mayAsk t ch.val 0x0084 r ∧ (
      let es := stickyEntries r;
      let ok := fun (e : Nat × Nat) => e.1 < 2 ^ 24 && e.1 % 4 == 0 &&
        match rowOf e.1 with
        | none => false
        | some row => e.2 &&& row.w1c == e.2;
      ((r.lenIs (1 + 2 * r.w 0) && r.payload.length != 0) : Bool) = true ∧ ((1 ≤ r.w 0 && r.w 0 ≤ 509 && nodup (es.map Prod.fst) && es.all ok) : Bool) = true))
    ∧ (∃ (s : State) (t : Nat) (ch : Fin 16) (r : Req) (c : Chip),
      c = s.chipAt t ∧ s.mayAsk t ch.val 0x0085 r ∧ (
      let w := r.w 0;
      let kind := bits w 0 2;
      let i := bits w 2 6;
      bits (r.w 0) 0 2 = 0 ∧ bits (r.w 0) 8 1 = 0 ∧ r.lenIs 1 = true ∧ ((w < 512 && i < [48, 48, 2, 8].getD kind 0 && !(c.heldOff (lnrDom kind i (bits w 8 1)))) : Bool) = true)) :=
  ⟨⟨wTopAndPowerRequests0.1, wTopAndPowerRequests0.2.1, wTopAndPowerRequests0.2.2.1, wTopAndPowerRequests0.2.2.2, _, rfl, asksFor_of (by decide +kernel), by decide +kernel, by decide +kernel, by decide +kernel, by decide +kernel, by decide +kernel, by decide +kernel⟩,
    ⟨wTopAndPowerRequests1.1, wTopAndPowerRequests1.2.1, wTopAndPowerRequests1.2.2.1, wTopAndPowerRequests1.2.2.2.1, wTopAndPowerRequests1.2.2.2.2, _, rfl, mayAsk_of (by decide +kernel), by decide +kernel, by decide +kernel, by decide +kernel, by decide +kernel, by decide +kernel, by decide +kernel⟩,
    ⟨wTopAndPowerRequests2.1, wTopAndPowerRequests2.2.1, wTopAndPowerRequests2.2.2.1, wTopAndPowerRequests2.2.2.2, _, rfl, mayAsk_of (by decide +kernel), by decide +kernel, by decide +kernel⟩,
    ⟨wTopAndPowerRequests3.1, wTopAndPowerRequests3.2.1, wTopAndPowerRequests3.2.2.1, wTopAndPowerRequests3.2.2.2, _, rfl, mayAsk_of (by decide +kernel), by decide +kernel, by decide +kernel, by decide +kernel, by decide +kernel⟩⟩

/-- The hypotheses of TopAndPowerRequests are met, clause by clause: part 2. -/
theorem witness_TopAndPowerRequests_2 :
    (∃ (s : State) (t : Nat) (ch : Fin 16) (r : Req) (c : Chip),
      c = s.chipAt t ∧ s.mayAsk t ch.val 0x0085 r ∧ (
      let w := r.w 0;
      let kind := bits w 0 2;
      let i := bits w 2 6;
      bits (r.w 0) 0 2 = 0 ∧ bits (r.w 0) 8 1 = 1 ∧ r.lenIs 1 = true ∧ ((w < 512 && i < [48, 48, 2, 8].getD kind 0 && !(c.heldOff (lnrDom kind i (bits w 8 1)))) : Bool) = true))
    ∧ (∃ (s : State) (t : Nat) (ch : Fin 16) (r : Req) (c : Chip),
      c = s.chipAt t ∧ s.mayAsk t ch.val 0x0085 r ∧ (
      let w := r.w 0;
      let kind := bits w 0 2;
      let i := bits w 2 6;
      bits (r.w 0) 0 2 = 1 ∧ bits (r.w 0) 8 1 = 0 ∧ r.lenIs 1 = true ∧ ((w < 512 && i < [48, 48, 2, 8].getD kind 0 && !(c.heldOff (lnrDom kind i (bits w 8 1)))) : Bool) = true))
    ∧ (∃ (s : State) (t : Nat) (ch : Fin 16) (r : Req) (c : Chip),
      c = s.chipAt t ∧ s.mayAsk t ch.val 0x0085 r ∧ (
      let w := r.w 0;
      let kind := bits w 0 2;
      let i := bits w 2 6;
      bits (r.w 0) 0 2 = 1 ∧ bits (r.w 0) 8 1 = 1 ∧ r.lenIs 1 = true ∧ ((w < 512 && i < [48, 48, 2, 8].getD kind 0 && !(c.heldOff (lnrDom kind i (bits w 8 1)))) : Bool) = true))
    ∧ (∃ (s : State) (t : Nat) (ch : Fin 16) (r : Req) (c : Chip),
      c = s.chipAt t ∧ s.mayAsk t ch.val 0x0085 r ∧ (
      let w := r.w 0;
      let kind := bits w 0 2;
      let i := bits w 2 6;
      bits (r.w 0) 0 2 = 2 ∧ bits (r.w 0) 8 1 = 0 ∧ r.lenIs 1 = true ∧ ((w < 512 && i < [48, 48, 2, 8].getD kind 0 && !(c.heldOff (lnrDom kind i (bits w 8 1)))) : Bool) = true)) :=
  ⟨⟨wTopAndPowerRequests4.1, wTopAndPowerRequests4.2.1, wTopAndPowerRequests4.2.2.1, wTopAndPowerRequests4.2.2.2, _, rfl, mayAsk_of (by decide +kernel), by decide +kernel, by decide +kernel, by decide +kernel, by decide +kernel⟩,
    ⟨wTopAndPowerRequests5.1, wTopAndPowerRequests5.2.1, wTopAndPowerRequests5.2.2.1, wTopAndPowerRequests5.2.2.2, _, rfl, mayAsk_of (by decide +kernel), by decide +kernel, by decide +kernel, by decide +kernel, by decide +kernel⟩,
    ⟨wTopAndPowerRequests6.1, wTopAndPowerRequests6.2.1, wTopAndPowerRequests6.2.2.1, wTopAndPowerRequests6.2.2.2, _, rfl, mayAsk_of (by decide +kernel), by decide +kernel, by decide +kernel, by decide +kernel, by decide +kernel⟩,
    ⟨wTopAndPowerRequests7.1, wTopAndPowerRequests7.2.1, wTopAndPowerRequests7.2.2.1, wTopAndPowerRequests7.2.2.2, _, rfl, mayAsk_of (by decide +kernel), by decide +kernel, by decide +kernel, by decide +kernel, by decide +kernel⟩⟩

/-- The hypotheses of TopAndPowerRequests are met, clause by clause: part 3. -/
theorem witness_TopAndPowerRequests_3 :
    (∃ (s : State) (t : Nat) (ch : Fin 16) (r : Req) (c : Chip),
      c = s.chipAt t ∧ s.mayAsk t ch.val 0x0085 r ∧ (
      let w := r.w 0;
      let kind := bits w 0 2;
      let i := bits w 2 6;
      bits (r.w 0) 0 2 = 2 ∧ bits (r.w 0) 8 1 = 1 ∧ r.lenIs 1 = true ∧ ((w < 512 && i < [48, 48, 2, 8].getD kind 0 && !(c.heldOff (lnrDom kind i (bits w 8 1)))) : Bool) = true))
    ∧ (∃ (s : State) (t : Nat) (ch : Fin 16) (r : Req) (c : Chip),
      c = s.chipAt t ∧ s.mayAsk t ch.val 0x0085 r ∧ (
      let w := r.w 0;
      let kind := bits w 0 2;
      let i := bits w 2 6;
      bits (r.w 0) 0 2 = 3 ∧ r.lenIs 1 = true ∧ ((w < 512 && i < [48, 48, 2, 8].getD kind 0 && !(c.heldOff (lnrDom kind i (bits w 8 1)))) : Bool) = true))
    ∧ (∃ (s : State) (t : Nat) (ch : Fin 16) (r : Req) (c : Chip),
      c = s.chipAt t ∧ s.mayAsk t ch.val 0x0180 r ∧ (
      let ws := r.ws 1 (r.w 0);
      let es := ws.map fun w => (bits w 0 8, bits w 8 2);
      ((r.lenIs (1 + r.w 0) && r.payload.length != 0) : Bool) = true ∧ (((1 ≤ r.w 0 && r.w 0 ≤ 248 && ws.all (· < 1024) && r.epoch == 0
        && (es.all fun e => e.1 < 248 && domValid e.1 e.2 && (e.2 == stOff || !(c.heldOff e.1))) && nodup (es.map Prod.fst)) : Bool) = true) ∧ (((es.all fun e => !(isMem e.1) || (c.chEnabled (e.1 - 212) && c.chState (e.1 - 212) != chTraining)) : Bool) = true) ∧ (((es.all fun e => (c.domDeny c.reserved es e).isNone) : Bool) = true) ∧ (c.hasRoom [] (es.map fun e => ⟨.dom, e.1, [e.2]⟩) = true)))
    ∧ (∃ (s : State) (t : Nat) (ch : Fin 16) (r : Req) (c : Chip),
      c = s.chipAt t ∧ s.mayAsk t ch.val 0x0181 r ∧ (
      let es := (List.range (r.w 0)).map fun i => (r.w (1 + 2 * i), r.w (2 + 2 * i));
      ((r.lenIs (1 + 2 * r.w 0) && r.payload.length != 0) : Bool) = true ∧ (((1 ≤ r.w 0 && r.w 0 ≤ 8 && r.epoch == 0 && nodup (es.map Prod.fst)
        && es.all fun e => e.1 < 8 && e.2 &&& 0xF000F000 == 0 && monOk (c.rd PWR_AVS_TARGET_STEP) e.1 e.2) : Bool) = true))) :=
  ⟨⟨wTopAndPowerRequests8.1, wTopAndPowerRequests8.2.1, wTopAndPowerRequests8.2.2.1, wTopAndPowerRequests8.2.2.2, _, rfl, mayAsk_of (by decide +kernel), by decide +kernel, by decide +kernel, by decide +kernel, by decide +kernel⟩,
    ⟨wTopAndPowerRequests9.1, wTopAndPowerRequests9.2.1, wTopAndPowerRequests9.2.2.1, wTopAndPowerRequests9.2.2.2, _, rfl, mayAsk_of (by decide +kernel), by decide +kernel, by decide +kernel, by decide +kernel⟩,
    ⟨wTopAndPowerRequests10.1, wTopAndPowerRequests10.2.1, wTopAndPowerRequests10.2.2.1, wTopAndPowerRequests10.2.2.2, _, rfl, mayAsk_of (by decide +kernel), by decide +kernel, by decide +kernel, by decide +kernel, by decide +kernel, by decide +kernel⟩,
    ⟨wTopAndPowerRequests11.1, wTopAndPowerRequests11.2.1, wTopAndPowerRequests11.2.2.1, wTopAndPowerRequests11.2.2.2, _, rfl, mayAsk_of (by decide +kernel), by decide +kernel, by decide +kernel⟩⟩

/-- The hypotheses of RequestsThatResetOrLast are met, clause by clause: part 1. -/
theorem witness_RequestsThatResetOrLast_1 :
    (∃ (s : State) (t : Nat) (ch : Fin 16) (r : Req) (c : Chip),
      c = s.chipAt t ∧ s.asksFor t ch.val 0x0080 0 r ∧ r.len = 0 ∧ c.upd.refused = false)
    ∧ (∃ (s : State) (t : Nat) (ch : Fin 16) (r : Req) (c : Chip),
      c = s.chipAt t ∧ s.asksFor t ch.val 0x0081 0 r ∧ r.len = 0 ∧ c.twnMode ≠ 1 ∧ c.upd.refused = false)
    ∧ (∃ (s : State) (t : Nat) (ch : Fin 16) (r : Req) (c : Chip),
      c = s.chipAt t ∧ s.asksFor t ch.val 0x0182 0 r ∧ r.len = 0 ∧ c.twnMode ≠ 1 ∧ c.upd.refused = false)
    ∧ (∃ (s : State) (t : Nat) (ch : Fin 16) (r : Req) (c : Chip),
      c = s.chipAt t ∧ s.mayAsk t ch.val 0x1182 r ∧ (
      let h := bits (r.w 0) 0 12;
      r.lenIs 1 = true ∧ ((r.w 0 < 2 ^ 13 && (h == 0 || (10 ≤ h && h ≤ 3600))) : Bool) = true ∧ c.twnCopying = false ∧ c.updRec.trial = false ∧ c.on (UPD_BANK_STAT_VERIFIED c.inactive) = true)) :=
  ⟨⟨wRequestsThatReset0.1, wRequestsThatReset0.2.1, wRequestsThatReset0.2.2.1, wRequestsThatReset0.2.2.2, _, rfl, asksFor_of (by decide +kernel), by decide +kernel, by decide +kernel⟩,
    ⟨wRequestsThatReset1.1, wRequestsThatReset1.2.1, wRequestsThatReset1.2.2.1, wRequestsThatReset1.2.2.2, _, rfl, asksFor_of (by decide +kernel), by decide +kernel, by decide +kernel, by decide +kernel⟩,
    ⟨wRequestsThatReset2.1, wRequestsThatReset2.2.1, wRequestsThatReset2.2.2.1, wRequestsThatReset2.2.2.2, _, rfl, asksFor_of (by decide +kernel), by decide +kernel, by decide +kernel, by decide +kernel⟩,
    ⟨wRequestsThatReset3.1, wRequestsThatReset3.2.1, wRequestsThatReset3.2.2.1, wRequestsThatReset3.2.2.2, _, rfl, mayAsk_of (by decide +kernel), by decide +kernel, by decide +kernel, by decide +kernel, by decide +kernel, by decide +kernel⟩⟩

/-- The hypotheses of RequestsThatResetOrLast are met, clause by clause: part 2. -/
theorem witness_RequestsThatResetOrLast_2 :
    (∃ (s : State) (t : Nat) (ch : Fin 16) (r : Req) (c : Chip),
      c = s.chipAt t ∧ s.mayAsk t ch.val 0x1101 r ∧ r.w 0 = 0 ∧ r.lenIs 9 = true ∧ ((!(c.on SEC_STATUS_IDENTITY_FAULT)) : Bool) = true)
    ∧ (∃ (s : State) (t : Nat) (ch : Fin 16) (r : Req) (c : Chip),
      c = s.chipAt t ∧ s.mayAsk t ch.val 0x1180 r ∧ (
      let first := bit (r.w 0) 0;
      let have_ := if first then 0 else c.get UPD_DL_BYTES;
      r.lenIs 7 = true ∧ ((r.w 0 < 2 && r.w 1 == have_ && r.w 2 ≤ 2 ^ 26 && (first || r.w 2 == c.upd.total) && r.w 1 + r.w 5 ≤ r.w 2
        && !r.targetPeer && descOk (r.ws 3 4)) : Bool) = true ∧ ((!c.updRec.trial && !(c.on UPD_STATE_BUSY) && !c.twnCopying) : Bool) = true))
    ∧ (∃ (s : State) (t : Nat) (ch : Fin 16) (r : Req) (c : Chip),
      c = s.chipAt t ∧ s.mayAsk t ch.val 0x1181 r ∧ r.lenIs 0 = true ∧ ((!c.updRec.trial && !(c.on UPD_STATE_BUSY)) : Bool) = true)
    ∧ (∃ (s : State) (t : Nat) (ch : Fin 16) (r : Req) (c : Chip),
      c = s.chipAt t ∧ s.mayAsk t ch.val 0x1183 r ∧ c.updRec.trial = true ∧ c.on UPD_STATE_SELF_CHECK_PASSED = true ∧ r.lenIs 0 = true) :=
  ⟨⟨wLongRequests0.1, wLongRequests0.2.1, wLongRequests0.2.2.1, wLongRequests0.2.2.2, _, rfl, mayAsk_of (by decide +kernel), by decide +kernel, by decide +kernel, by decide +kernel⟩,
    ⟨wLongRequests1.1, wLongRequests1.2.1, wLongRequests1.2.2.1, wLongRequests1.2.2.2, _, rfl, mayAsk_of (by decide +kernel), by decide +kernel, by decide +kernel, by decide +kernel⟩,
    ⟨wLongRequests2.1, wLongRequests2.2.1, wLongRequests2.2.2.1, wLongRequests2.2.2.2, _, rfl, mayAsk_of (by decide +kernel), by decide +kernel, by decide +kernel⟩,
    ⟨wLongRequests3.1, wLongRequests3.2.1, wLongRequests3.2.2.1, wLongRequests3.2.2.2, _, rfl, mayAsk_of (by decide +kernel), by decide +kernel, by decide +kernel, by decide +kernel⟩⟩

/-- The hypotheses of RequestsThatResetOrLast are met, clause by clause: part 3. -/
theorem witness_RequestsThatResetOrLast_3 :
    (∃ (s : State) (t : Nat) (ch : Fin 16) (r : Req) (c : Chip),
      c = s.chipAt t ∧ s.mayAsk t ch.val 0x1183 r ∧ c.updRec.trial = false ∧ r.lenIs 0 = true)
    ∧ (∃ (s : State) (t : Nat) (ch : Fin 16) (r : Req) (c : Chip),
      c = s.chipAt t ∧ s.mayAsk t ch.val 0x0E82 r ∧ (
      let h := bits (r.w 0) 0 2;
      let l := bits (r.w 0) 2 2;
      let xy := r.w 2;
      let wh := r.w 3;
      let size := c.get (MVC_GL_SIZE h l);
      let row := (xyX wh * 4 + 63) / 64 * 64;
      r.lenIs 8 = true ∧ ((c.role != 2 && r.epoch == 0 && bits (r.w 0) 5 27 == 0 && r.w 1 < 2 ^ 16 && xy &&& 0xE000E000 == 0 && wh &&& 0xE000E000 == 0
        && l < bits (c.headCtl h) 7 3 && 1 ≤ xyX wh && 1 ≤ xyY wh && xyX xy + xyX wh ≤ xyX size && xyY xy + xyY wh ≤ xyY size
        && descOk (r.ws 4 4) && xyY wh * row ≤ r.w 6 && (!(bit (r.w 0) 4) || c.rd (MVC_GL_CTL_GROUP h l) == 0)) : Bool) = true ∧ ((c.on (MVC_HEAD_CTL_ENABLE h) && !(c.on (MVC_GL_FENCE_LOADING h l))) : Bool) = true))
    ∧ (∃ (s : State) (t : Nat) (ch : Fin 16) (r : Req) (c : Chip),
      c = s.chipAt t ∧ s.asksFor t ch.val 0x0F80 0 r ∧ r.len = 0 ∧ c.twnMode = 1 ∧ c.twn.peerStep = true ∧ c.twn.handover = none ∧ c.upd.refused = false) :=
  ⟨⟨wLongRequests4.1, wLongRequests4.2.1, wLongRequests4.2.2.1, wLongRequests4.2.2.2, _, rfl, mayAsk_of (by decide +kernel), by decide +kernel, by decide +kernel⟩,
    ⟨wLongRequests5.1, wLongRequests5.2.1, wLongRequests5.2.2.1, wLongRequests5.2.2.2, _, rfl, mayAsk_of (by decide +kernel), by decide +kernel, by decide +kernel, by decide +kernel⟩,
    ⟨wHandoverRequest0.1, wHandoverRequest0.2.1, wHandoverRequest0.2.2.1, wHandoverRequest0.2.2.2, _, rfl, asksFor_of (by decide +kernel), by decide +kernel, by decide +kernel, by decide +kernel, by decide +kernel, by decide +kernel⟩⟩

/-- The hypotheses of SettingRequests are met, clause by clause: part 1. -/
theorem witness_SettingRequests_1 :
    (∃ (s : State) (t : Nat) (ch : Fin 16) (r : Req) (c : Chip),
      c = s.chipAt t ∧ s.mayAsk t ch.val 0x0280 r ∧ (
      let w := r.w 0;
      let w1 := r.w 1;
      let w2 := r.w 2;
      let k := bits w 0 3;
      let kind := bits w 3 2;
      let pf := bits w 5 5;
      let rk := fun q => if q = 0 then bits w2 0 3 else bits w2 4 3;
      let onPlane := fun q =>
        let f := c.planeFmt q
        f == 0 || ((rk q == 0 || candEligible kind pf f) && phaseFits (r.w (3 + q)) f);
      let differs := bits w 3 7 != bits (c.get (REF_CAND_CFG k)) 0 7 || r.w 3 != c.get (REF_CAND_PHASE k 0) || r.w 4 != c.get (REF_CAND_PHASE k 1);
      r.lenIs 5 = true ∧ ((r.epoch == 0 && k ≤ 4 && bits w 10 22 == 0 && bits w1 12 4 == 0 && bits w1 29 3 == 0 && bit w2 3 == false && bits w2 7 25 == 0
        && (if k = 4 then kind != 1 && kind != 2 else kind != 3) && (if kind = 1 then fmtOk pf else pf == 0)
        && 1 ≤ bits w1 0 12 && bits w1 0 12 ≤ 2000 && bits w1 0 12 < bits w1 16 13 && bits w1 16 13 ≤ 5000
        && onPlane 0 && onPlane 1) : Bool) = true ∧ ((!(differs && (c.selected 0 == k || c.selected 1 == k))) : Bool) = true))
    ∧ (∃ (s : State) (t : Nat) (ch : Fin 16) (r : Req) (c : Chip),
      c = s.chipAt t ∧ s.mayAsk t ch.val 0x0281 r ∧ (
      let w := r.w 0;
      let w1 := r.w 1;
      let q := bits w 0 1;
      let f := bits w 1 5;
      let cur := (c.plane q).again.getD (c.planeFmt q);
      let new := f != 0 && f != cur;
      let ok := (List.range 5).all fun k =>
        (c.rank k q == 0 || candEligible (c.rd (REF_CAND_CFG_KIND k)) (c.rd (REF_CAND_CFG_PERIOD_FMT k)) f)
          && phaseFits (c.get (REF_CAND_PHASE k q)) f;
      let nows := [⟨.plane, q, [(if f = 0 then cur else f) * 2 + bits w 0 1 + bits w 6 1 * 64 + bits w 16 8 * 2 ^ 16, w1]⟩]
        ++ (if bit w 8 then [⟨.rephase, q, []⟩] else []) ++ if bit w 7 then [⟨.recal, 0, []⟩] else [];
      r.lenIs 2 = true ∧ ((r.epoch == 0 && bits w 9 7 == 0 && bits w1 26 6 == 0 && 1 ≤ bits w 16 8 && 1 ≤ bits w1 0 16 && bits w1 0 16 ≤ 1000
        && 1 ≤ bits w1 16 10 && bits w1 16 10 ≤ 1000 && (f == 0 || fmtOk f)) : Bool) = true ∧ ((!new || ok) : Bool) = true ∧ ((!(new || (bit w 8 && c.planeState q != 0)) || !(c.planeUsed q)) : Bool) = true ∧ c.hasRoom [] nows = true))
    ∧ (∃ (s : State) (t : Nat) (ch : Fin 16) (r : Req) (c : Chip),
      c = s.chipAt t ∧ s.mayAsk t ch.val 0x0380 r ∧ (
      let w := r.w 0;
      let g := r.w 1;
      let within := fun lo hi (i : Int) => lo ≤ i && i ≤ hi;
      r.lenIs 3 = true ∧ ((r.epoch == 0 && bits w 3 29 == 0 && bits g 23 9 == 0 && bits g 0 8 ≤ 127 && within (-3) 1 (toSigned 4 (bits g 8 4))
        && within (-7) (-1) (toSigned 4 (bits g 12 4)) && 2 ≤ bits g 16 4 && bits g 16 4 ≤ 10 && bits g 20 2 ≤ 2
        && 1000 ≤ r.w 2 && r.w 2 ≤ 1000000) : Bool) = true ∧ ((!(bit w 2) || c.mayRelock) : Bool) = true))
    ∧ (∃ (s : State) (t : Nat) (ch : Fin 16) (r : Req) (c : Chip),
      c = s.chipAt t ∧ s.mayAsk t ch.val 0x0580 r ∧ (
      let n := r.w 0;
      let ws := r.ws 1 n;
      let sel := fun w => bits w 0 9;
      let args := fun w =>
        bits w 16 16 == 0 && sel w < 324 && srcOffered c.role (sel w) && c.leadOf (sel w) == sel w
          && (srcKind (sel w) ≤ 1 || bits w 11 5 == 0) && (srcKind (sel w) ≤ 2 || bits w 9 1 == 0) && bits w 11 5 ≤ 0x18;
      let busy := fun w =>
        !((c.groupOf (sel w)).flatMap c.destsOf).isEmpty || (c.groupOf (sel w)).any c.tapped
          || (c.groupOf (sel w)).any c.srcQueued;
      let state := fun w =>
        (bit w 10 || !(c.on (FSY_SRC_CTL_ALLOW_FS (sel w)))
          || !(c.on (FSY_SRC_STAT_PROMOTED (sel w)) || c.carriedCross (sel w)))
        && (srcKind (sel w) > 2 || bits w 9 1 == c.rd (FSY_SRC_CTL_PLANE (sel w)) || !(busy w));
      r.lenIs (n + 1) = true ∧ ((1 ≤ n && n ≤ 332 && r.epoch == 0 && nodup (ws.map sel) && ws.all args) : Bool) = true ∧ ((ws.all state) : Bool) = true ∧ (c.hasRoom [] (ws.map fun w => ⟨.src, sel w, [w]⟩) = true))) :=
  ⟨⟨wSettingRequests0.1, wSettingRequests0.2.1, wSettingRequests0.2.2.1, wSettingRequests0.2.2.2, _, rfl, mayAsk_of (by decide +kernel), by decide +kernel, by decide +kernel, by decide +kernel⟩,
    ⟨wSettingRequests1.1, wSettingRequests1.2.1, wSettingRequests1.2.2.1, wSettingRequests1.2.2.2, _, rfl, mayAsk_of (by decide +kernel), by decide +kernel, by decide +kernel, by decide +kernel, by decide +kernel, by decide +kernel⟩,
    ⟨wSettingRequests2.1, wSettingRequests2.2.1, wSettingRequests2.2.2.1, wSettingRequests2.2.2.2, _, rfl, mayAsk_of (by decide +kernel), by decide +kernel, by decide +kernel, by decide +kernel⟩,
    ⟨wSettingRequests3.1, wSettingRequests3.2.1, wSettingRequests3.2.2.1, wSettingRequests3.2.2.2, _, rfl, mayAsk_of (by decide +kernel), by decide +kernel, by decide +kernel, by decide +kernel, by decide +kernel⟩⟩

/-- The hypotheses of SettingRequests are met, clause by clause: part 2. -/
theorem witness_SettingRequests_2 :
    (∃ (s : State) (t : Nat) (ch : Fin 16) (r : Req) (c : Chip),
      c = s.chipAt t ∧ s.mayAsk t ch.val 0x0780 r ∧ (
      let n := bits (r.w 0) 0 3;
      let en := bit (r.w 0) 8;
      let cfg := r.w 1;
      let st := c.chState n;
      bit (r.w 0) 8 = true ∧ r.lenIs 2 = true ∧ ((r.epoch == 0 && r.w 0 &&& 0xFFFFFEF8 == 0 && (cfg == 0 || (1 ≤ bits cfg 0 8 && 4 ≤ bits cfg 8 8 && bits cfg 8 8 ≤ 64
        && 1 ≤ bits cfg 16 8 && bits cfg 16 8 ≤ 168 && cfg < 2 ^ 24))) : Bool) = true ∧ ((!en || !c.reserved) : Bool) = true ∧ ((!en || !(st == chAbsent || (st == chDisabled && c.rd (DMC_CH_STAT_CAUSE n) == 2))) : Bool) = true ∧ ((en || !c.reserved) : Bool) = true ∧ c.hasRoom [] ([⟨.dmc, n, [b2n en]⟩] ++ (if cfg = 0 then [] else [⟨.dmcCfg, 0, [cfg]⟩])
        ++ (if en then [] else [⟨.dom, domMem n, [stOff]⟩])) = true))
    ∧ (∃ (s : State) (t : Nat) (ch : Fin 16) (r : Req) (c : Chip),
      c = s.chipAt t ∧ s.mayAsk t ch.val 0x0780 r ∧ (
      let n := bits (r.w 0) 0 3;
      let en := bit (r.w 0) 8;
      let cfg := r.w 1;
      let st := c.chState n;
      bit (r.w 0) 8 = false ∧ r.lenIs 2 = true ∧ ((r.epoch == 0 && r.w 0 &&& 0xFFFFFEF8 == 0 && (cfg == 0 || (1 ≤ bits cfg 0 8 && 4 ≤ bits cfg 8 8 && bits cfg 8 8 ≤ 64
        && 1 ≤ bits cfg 16 8 && bits cfg 16 8 ≤ 168 && cfg < 2 ^ 24))) : Bool) = true ∧ ((!en || !c.reserved) : Bool) = true ∧ ((!en || !(st == chAbsent || (st == chDisabled && c.rd (DMC_CH_STAT_CAUSE n) == 2))) : Bool) = true ∧ ((en || !c.reserved) : Bool) = true ∧ c.hasRoom [] ([⟨.dmc, n, [b2n en]⟩] ++ (if cfg = 0 then [] else [⟨.dmcCfg, 0, [cfg]⟩])
        ++ (if en then [] else [⟨.dom, domMem n, [stOff]⟩])) = true))
    ∧ (∃ (s : State) (t : Nat) (ch : Fin 16) (r : Req) (c : Chip),
      c = s.chipAt t ∧ s.mayAsk t ch.val 0x0880 r ∧ (
      let n := r.w 0;
      let ws := r.ws 1 n;
      let ln := fun w => bits w 0 6;
      let args := fun w => ln w < 48 && bits w 11 21 == 0 && bits w 6 3 ≤ 5;
      let bond := fun w => (!(bit w 9) || (ln w % 4 == 0 && bits w 6 3 == 3))
        && (ln w % 4 == 0 || !(leadBonds ws (ln w) (c.bondedRx (ln w))));
      let group := fun w => if bit w 9 || c.on (SDI_RX_CTL_BOND (ln w)) then (List.range 4).map (ln w / 4 * 4 + ·) else [ln w];
      let denied := fun w => (bits w 6 4) != bits (c.get (SDI_RX_CTL (ln w))) 0 4 && (group w).any c.srcUsed;
      r.lenIs (n + 1) = true ∧ ((c.role != 2 && r.epoch == 0 && 1 ≤ n && n ≤ 48 && nodup (ws.map ln) && ws.all args) : Bool) = true ∧ ((ws.all bond) : Bool) = true ∧ (((ws.all fun w => !(denied w)) : Bool) = true) ∧ (c.hasRoom [] (ws.map fun w => ⟨.sdiRx, ln w, [w]⟩) = true)))
    ∧ (∃ (s : State) (t : Nat) (ch : Fin 16) (r : Req) (c : Chip),
      c = s.chipAt t ∧ s.mayAsk t ch.val 0x0881 r ∧ (
      let n := r.w 0;
      let ws := r.ws 1 n;
      let ln := fun w => bits w 0 6;
      let args := fun w => ln w < 48 && bits w 17 15 == 0 && bits w 6 3 == 0 && bits w 11 4 ≤ 8 && bits w 15 2 != 3;
      let bond := fun w => (!(bit w 9) || ln w % 4 == 0) && (ln w % 4 == 0 || !(leadBonds ws (ln w) (c.bondedTx (ln w))));
      let denied := fun w => bits w 9 1 != c.rd (SDI_TX_CTL_BOND (ln w)) && (List.range 4).any fun i => c.dstUsed (ln w / 4 * 4 + i);
      r.lenIs (n + 1) = true ∧ ((c.role != 2 && r.epoch == 0 && 1 ≤ n && n ≤ 48 && nodup (ws.map ln) && ws.all args) : Bool) = true ∧ ((ws.all bond) : Bool) = true ∧ (((ws.all fun w => !(denied w)) : Bool) = true) ∧ (c.hasRoom [] (ws.map fun w => ⟨.sdiTx, ln w, [w]⟩) = true))) :=
  ⟨⟨wSettingRequests4.1, wSettingRequests4.2.1, wSettingRequests4.2.2.1, wSettingRequests4.2.2.2, _, rfl, mayAsk_of (by decide +kernel), by decide +kernel, by decide +kernel, by decide +kernel, by decide +kernel, by decide +kernel, by decide +kernel, by decide +kernel⟩,
    ⟨wSettingRequests5.1, wSettingRequests5.2.1, wSettingRequests5.2.2.1, wSettingRequests5.2.2.2, _, rfl, mayAsk_of (by decide +kernel), by decide +kernel, by decide +kernel, by decide +kernel, by decide +kernel, by decide +kernel, by decide +kernel, by decide +kernel⟩,
    ⟨wSettingRequests6.1, wSettingRequests6.2.1, wSettingRequests6.2.2.1, wSettingRequests6.2.2.2, _, rfl, mayAsk_of (by decide +kernel), by decide +kernel, by decide +kernel, by decide +kernel, by decide +kernel, by decide +kernel⟩,
    ⟨wSettingRequests7.1, wSettingRequests7.2.1, wSettingRequests7.2.2.1, wSettingRequests7.2.2.2, _, rfl, mayAsk_of (by decide +kernel), by decide +kernel, by decide +kernel, by decide +kernel, by decide +kernel, by decide +kernel⟩⟩

/-- The hypotheses of SettingRequests are met, clause by clause: part 3. -/
theorem witness_SettingRequests_3 :
    (∃ (s : State) (t : Nat) (ch : Fin 16) (r : Req) (es : List LinkEntry) (c : Chip),
      c = s.chipAt t ∧ s.mayAsk t ch.val 0x0980 r ∧ (
      let w0 := r.w 0;
      let l := fun (e : LinkEntry) => bits e.1 0 6;
      let w := fun (e : LinkEntry) => widthOf (bits e.1 6 2);
      let after := ((List.range 48).filter fun k => !(es.any fun e => l e == k)).map (fun k => (k, c.linkWidth k))
        ++ es.map fun e => (l e, w e);
      let clash := after.any fun p => after.any fun q =>
        p.1 != q.1 && p.2 != 0 && q.2 != 0 && overlap p.1 p.2 q.1 q.2;
      let args := fun (e : LinkEntry) =>
        bits e.1 8 24 == 0 && bits e.2.1 30 2 == 0 && l e + max 1 (w e) ≤ 48 && l e % max 1 (w e) == 0
          && bits e.2.1 24 6 % max 1 (w e) == 0
          && (e.2.2.zipIdx.all fun p => laneWordOk p.1 (l e + p.2));
      let changed := fun (e : LinkEntry) =>
        c.get (FAB_LK_CFG (l e)) != (if w e = 0 then 0 else bits e.1 6 2 + bits e.2.1 24 6 * 2 ^ 2 + bits e.2.1 0 24 * 2 ^ 8);
      let used := fun (e : LinkEntry) => (List.range (4 * max (w e) (c.linkWidth (l e)))).any fun s => c.slotUsed (4 * l e + s);
      let txDenied := fun (e : LinkEntry) => e.2.2.any fun v =>
        c.laneInUpLink (bits v 0 6) && bits (laneCfgWord v) 0 11 != bits (c.get (lnCfg (bits v 0 6))) 0 11;
      ((c.role != 0 && r.epoch == 0 && r.w 1 ≤ 48 && bits w0 0 24 != 0 && !(bit w0 24 && c.role == 1) && bits w0 25 7 == 0
        && nodup (es.map l) && es.all args && !clash) : Bool) = true ∧ (((w0 == c.get FAB_CFG || (List.range 48).all fun k => !(c.linkIsUp k)) : Bool) = true) ∧ (((es.all fun e => !(changed e && used e)) : Bool) = true) ∧ (((es.all fun e => !(txDenied e)) : Bool) = true) ∧ 2 ≤ r.payload.length ∧ r.w 1 ≤ 48 ∧ parseLinks (r.w 1) (r.payload.drop 2) = some es))
    ∧ (∃ (s : State) (t : Nat) (ch : Fin 16) (r : Req) (c : Chip),
      c = s.chipAt t ∧ s.mayAsk t ch.val 0x0982 r ∧ (
      let w := r.w 0;
      let n := bits w 0 6;
      let mode := bits w 6 2;
      r.lenIs 1 = true ∧ ((c.role != 0 && r.epoch == 0 && n < 48 && bits w 8 4 ≤ 7 && bits w 12 4 ≤ 7 && bits w 17 15 == 0
        && !(mode == 3 && bits w 8 4 != 0)) : Bool) = true ∧ ((!(c.laneInUpLink n) && !(c.laneCarries n) && c.domOn (domFabRx n) && c.domOn (domFabTx n)
        && (mode != 3 || c.lnSt n == lnTrained || c.lnSt n == lnVerify || (c.lnSt n == lnTest && c.on (lnSignal n)))) : Bool) = true))
    ∧ (∃ (s : State) (t : Nat) (ch : Fin 16) (r : Req) (c : Chip),
      c = s.chipAt t ∧ s.mayAsk t ch.val 0x0A80 r ∧ (
      let w := r.w 0;
      let p := bits w 0 1;
      let low := c.dom (domMac p) == stLow;
      let on := fun d => if low then c.rd (PWR_DOM_CTL_REQ d) == stActive else c.domOn d;
      let usable := (low || c.domOn (domMac p)) && (List.range 4).all fun i => on (domNetRx (4 * p + i)) && on (domNetTx (4 * p + i));
      r.lenIs 3 = true ∧ ((r.epoch == 0 && (bits w 2 2 == 1 || bits w 2 2 == 2) && 1518 ≤ bits w 11 14 && bits w 11 14 ≤ 9216
        && bits w 25 7 == 0 && bits (r.w 2) 16 16 == 0 && !(bit (r.w 1) 0)) : Bool) = true ∧ ((!(bits w 2 3 != bits (c.get (NET_PORT_CFG p)) 0 3 || bit w 1) || !(c.flowOn p)) : Bool) = true ∧ ((bit w 1 || usable) : Bool) = true))
    ∧ (∃ (s : State) (t : Nat) (ch : Fin 16) (r : Req) (c : Chip),
      c = s.chipAt t ∧ s.mayAsk t ch.val 0x0A81 r ∧ (
      let w := r.w 0;
      let p := bits w 0 1;
      let en := bit w 1;
      let n := bits w 2 9;
      let cyc := r.w 1;
      let es := r.ws 4 n;
      let sel := c.gclStart p (r.w 2 + r.w 3 * 2 ^ 32) cyc;
      let soon := c.clock.n + 1000000;
      r.lenIs (n + 4) = true ∧ (((r.epoch == 0 && bits w 11 21 == 0
        && (if en then 1 ≤ n && n ≤ 256 && cyc % 8 == 0 && 8 ≤ cyc && cyc ≤ 1000000000 else n == 0 && cyc == 0)
        && es.all (fun e => bits e 8 24 != 0) && (es.map entryNs).sum == cyc && sel ≤ c.clock.n + 2000000000) : Bool) = true) ∧ ((!(c.on (NET_GCL_CTL_PENDING p)) || soon ≤ (c.net p).startAt) : Bool) = true)) :=
  ⟨⟨wSettingRequests8.1, wSettingRequests8.2.1, wSettingRequests8.2.2.1, wSettingRequests8.2.2.2.1, wSettingRequests8.2.2.2.2, _, rfl, mayAsk_of (by decide +kernel), by decide +kernel, by decide +kernel, by decide +kernel, by decide +kernel, by decide +kernel, by decide +kernel, by decide +kernel⟩,
    ⟨wSettingRequests9.1, wSettingRequests9.2.1, wSettingRequests9.2.2.1, wSettingRequests9.2.2.2, _, rfl, mayAsk_of (by decide +kernel), by decide +kernel, by decide +kernel, by decide +kernel⟩,
    ⟨wSettingRequests10.1, wSettingRequests10.2.1, wSettingRequests10.2.2.1, wSettingRequests10.2.2.2, _, rfl, mayAsk_of (by decide +kernel), by decide +kernel, by decide +kernel, by decide +kernel, by decide +kernel⟩,
    ⟨wSettingRequests11.1, wSettingRequests11.2.1, wSettingRequests11.2.2.1, wSettingRequests11.2.2.2, _, rfl, mayAsk_of (by decide +kernel), by decide +kernel, by decide +kernel, by decide +kernel⟩⟩

/-- The hypotheses of SettingRequests are met, clause by clause: part 4. -/
theorem witness_SettingRequests_4 :
    (∃ (s : State) (t : Nat) (ch : Fin 16) (r : Req) (c : Chip),
      c = s.chipAt t ∧ s.mayAsk t ch.val 0x0B80 r ∧ (
      let w := r.w 0;
      let aux := r.w 1;
      let f := bits w 0 7;
      let k := flowKind f;
      let dual := bit w 7;
      let fc := bits w 14 5;
      let lat := bits w 10 4;
      let v := bits aux 9 5;
      let need := if bit w 9 then 51 else 11;
      let covers := match k with
        | 0 => ms need ≤ lat * (fmt fc).period
        | 1 => 48 * need ≤ bits aux 16 12
        | _ => ms need ≤ c.rd (NET_RXF_CTL_LAT v) * (fmt (c.rd (NET_RXF_CTL_FORMAT v))).period;
      let leg := fun i => isGroup (r.w (2 + 3 * i)) && bits (r.w (4 + 3 * i)) 23 9 == 0;
      let ports := if dual then [0, 1] else [bits w 8 1];
      r.lenIs 8 = true ∧ ((c.role != 2 && r.epoch == 0 && f < 112 && bits w 19 13 == 0 && bits aux 14 2 == 0 && bits aux 28 4 == 0
        && (if k = 0 then fmtOk fc && 1 ≤ lat && lat ≤ 8 else fc == 0 && lat == 0)
        && (k != 1 || (auxAudio aux && 96 ≤ bits aux 16 12 && bits aux 16 12 ≤ 2880))
        && (k != 2 || c.on (NET_RXF_CTL_JOINED v))
        && leg 0 && (if dual then leg 1 else (r.ws 5 3).all (· == 0)) && (!dual || covers)) : Bool) = true ∧ ((!(c.on (NET_RXF_CTL_JOINED f)) && ports.all c.netActive) : Bool) = true ∧ (((ports.all (fun p => c.rxRate p + wireRate k fc aux false ≤ wireCap)
        && (k != 1 || (lowestRun c.rxRuns (channelsOf aux)).isSome)) : Bool) = true) ∧ c.hasRoom [] [⟨.join, f, r.ws 0 8⟩] = true))
    ∧ (∃ (s : State) (t : Nat) (ch : Fin 16) (r : Req) (c : Chip),
      c = s.chipAt t ∧ s.mayAsk t ch.val 0x0B81 r ∧ (
      let f := r.w 0;
      let busy := match flowKind f with
        | 0 => c.srcUsed (240 + f)
            || (List.range 112).any fun a => flowKind a == 2 && c.on (NET_RXF_CTL_JOINED a) && c.rd (NET_RXF_AUX_BOUND a) == f
        | 1 => c.on (AUD_RXF_BASE_VALID (f - 32))
            && c.shufNames (6144 + c.rd (AUD_RXF_BASE_BASE (f - 32))) (channelsOf (c.get (NET_RXF_AUX f)))
        | _ => false;
      r.lenIs 1 = true ∧ ((c.role != 2 && r.epoch == 0 && f < 112) : Bool) = true ∧ ((!busy) : Bool) = true ∧ c.hasRoom [] [⟨.leave, f, [f]⟩] = true))
    ∧ (∃ (s : State) (t : Nat) (ch : Fin 16) (r : Req) (c : Chip),
      c = s.chipAt t ∧ s.mayAsk t ch.val 0x0D80 r ∧ (
      let n := bits (r.w 0) 0 5;
      let set_ := bit (r.w 0) 8;
      let es := r.ws 3 n;
      let next := c.sapTake;
      let after := next.each es fun c w => c.put (SAP_PORT_CTL (bits w 0 4)) (sapCtl w);
      let mclk := if set_ then bit (r.w 2) 0 else next.on SAP_CFG_MCLK_EN;
      let lead := (List.range 16).filter fun p => after.on (SAP_PORT_CTL_LEAD p);
      let args := fun w => bits w 19 13 == 0 && bits w 8 2 != 3 && 16 ≤ bits w 10 5 && bits w 10 5 ≤ 24
        && (!(bit w 7) || (!(bit w 6) && bits w 8 2 != 1));
      let lat := fun g => bits (r.w 1) (8 * g) 8;
      let latOk := fun g => lat g == 0 || (4 ≤ lat g && lat g ≤ 64 && (List.range 16).all fun p =>
        !(after.on (SAP_PORT_CTL_ENABLE p)) || after.rd (SAP_PORT_CTL_GROUP p) != g || sapMin (after.get (SAP_PORT_CTL p)) ≤ lat g);
      let busy := fun p => c.shufNames (7168 + 2 * p) 2
        || [0, 1].any fun ch => c.on (AUD_SHUF_SET (7168 + 2 * p + ch))
            || c.waits .shuf (7168 + 2 * p + ch) fun y => bit (y.ws.getD 0 0) 14;
      c.engineOn = false ∧ r.lenIs (3 + n) = true ∧ (((c.role != 2 && r.epoch == 0 && n ≤ 16 && r.w 0 &&& 0xFFFFFEE0 == 0 && bits (r.w 2) 1 31 == 0
        && nodup (es.map fun w => bits w 0 4) && es.all args && lead.length ≤ 1 && (lead.isEmpty || mclk)
        && (!set_ || [0, 1, 2, 3].all latOk)) : Bool) = true) ∧ (((es.all fun w => !(bit w 4) || c.domOn (domSap (bits w 0 4))) : Bool) = true) ∧ (((es.all fun w => bit w 4 || !(busy (bits w 0 4))) : Bool) = true)))
    ∧ (∃ (s : State) (t : Nat) (ch : Fin 16) (r : Req) (c : Chip),
      c = s.chipAt t ∧ s.mayAsk t ch.val 0x0D80 r ∧ (
      let n := bits (r.w 0) 0 5;
      let set_ := bit (r.w 0) 8;
      let es := r.ws 3 n;
      let next := c.sapTake;
      let after := next.each es fun c w => c.put (SAP_PORT_CTL (bits w 0 4)) (sapCtl w);
      let mclk := if set_ then bit (r.w 2) 0 else next.on SAP_CFG_MCLK_EN;
      let lead := (List.range 16).filter fun p => after.on (SAP_PORT_CTL_LEAD p);
      let args := fun w => bits w 19 13 == 0 && bits w 8 2 != 3 && 16 ≤ bits w 10 5 && bits w 10 5 ≤ 24
        && (!(bit w 7) || (!(bit w 6) && bits w 8 2 != 1));
      let lat := fun g => bits (r.w 1) (8 * g) 8;
      let latOk := fun g => lat g == 0 || (4 ≤ lat g && lat g ≤ 64 && (List.range 16).all fun p =>
        !(after.on (SAP_PORT_CTL_ENABLE p)) || after.rd (SAP_PORT_CTL_GROUP p) != g || sapMin (after.get (SAP_PORT_CTL p)) ≤ lat g);
      let busy := fun p => c.shufNames (7168 + 2 * p) 2
        || [0, 1].any fun ch => c.on (AUD_SHUF_SET (7168 + 2 * p + ch))
            || c.waits .shuf (7168 + 2 * p + ch) fun y => bit (y.ws.getD 0 0) 14;
      c.engineOn = true ∧ ((n ≠ 0 ∨ set_ = true)) ∧ r.lenIs (3 + n) = true ∧ (((c.role != 2 && r.epoch == 0 && n ≤ 16 && r.w 0 &&& 0xFFFFFEE0 == 0 && bits (r.w 2) 1 31 == 0
        && nodup (es.map fun w => bits w 0 4) && es.all args && lead.length ≤ 1 && (lead.isEmpty || mclk)
        && (!set_ || [0, 1, 2, 3].all latOk)) : Bool) = true) ∧ (((es.all fun w => !(bit w 4) || c.domOn (domSap (bits w 0 4))) : Bool) = true) ∧ (((es.all fun w => bit w 4 || !(busy (bits w 0 4))) : Bool) = true))) :=
  ⟨⟨wSettingRequests12.1, wSettingRequests12.2.1, wSettingRequests12.2.2.1, wSettingRequests12.2.2.2, _, rfl, mayAsk_of (by decide +kernel), by decide +kernel, by decide +kernel, by decide +kernel, by decide +kernel, by decide +kernel⟩,
    ⟨wSettingRequests13.1, wSettingRequests13.2.1, wSettingRequests13.2.2.1, wSettingRequests13.2.2.2, _, rfl, mayAsk_of (by decide +kernel), by decide +kernel, by decide +kernel, by decide +kernel, by decide +kernel⟩,
    ⟨wSettingRequests14.1, wSettingRequests14.2.1, wSettingRequests14.2.2.1, wSettingRequests14.2.2.2, _, rfl, mayAsk_of (by decide +kernel), by decide +kernel, by decide +kernel, by decide +kernel, by decide +kernel, by decide +kernel⟩,
    ⟨wSettingRequests15.1, wSettingRequests15.2.1, wSettingRequests15.2.2.1, wSettingRequests15.2.2.2, _, rfl, mayAsk_of (by decide +kernel), by decide +kernel, by decide +kernel, by decide +kernel, by decide +kernel, by decide +kernel, by decide +kernel⟩⟩

/-- The hypotheses of SettingRequests are met, clause by clause: part 5. -/
theorem witness_SettingRequests_5 :
    (∃ (s : State) (t : Nat) (ch : Fin 16) (r : Req) (c : Chip),
      c = s.chipAt t ∧ s.mayAsk t ch.val 0x0E80 r ∧ (
      let n := r.w 0;
      let ws := r.ws 1 n;
      let h := fun w => bits w 0 2;
      let ctl := fun w => bits w 2 21;
      let was := fun w => c.headCtl (h w);
      let kept := fun w => !(bit (was w) 0) || (was w &&& 0x7FE) == (ctl w &&& 0x7FE);
      let routed := fun k => !(c.destsOf (320 + k)).isEmpty || c.fw.queue.any fun q =>
        q.change.kind == .route && !(bit (q.change.ws.getD 0 0) 31) && bits (q.change.ws.getD 0 0) 16 9 == 320 + k;
      r.lenIs (n + 1) = true ∧ (((c.role != 2 && r.epoch == 0 && 1 ≤ n && n ≤ 4 && nodup (ws.map h) && ws.all fun w =>
        bits w 23 9 == 0 && bits w 9 3 ≤ 4 && (!(bit w 2) && bits w 4 5 == 0 || c.headFmtOk (bits w 4 5) (bits w 3 1))) : Bool) = true) ∧ ((ws.all kept) : Bool) = true ∧ (((ws.all fun w => !(bit w 2) || c.domOn (domHead (h w))) : Bool) = true) ∧ (((ws.all fun w => bit w 2 || !(routed (h w))) : Bool) = true) ∧ (c.hasRoom [] (ws.map fun w => ⟨.head, h w, [w]⟩) = true)))
    ∧ (∃ (s : State) (t : Nat) (ch : Fin 16) (r : Req) (c : Chip),
      c = s.chipAt t ∧ s.mayAsk t ch.val 0x0F81 r ∧ (
      let ok := fun i => laneWordOk (r.w (1 + i)) i;
      let changed := fun i => bits (laneCfgWord (r.w (1 + i))) 0 11 != bits (c.get (TWN_LN_CFG i)) 0 11;
      r.lenIs 3 = true ∧ ((r.epoch == 0 && r.w 0 < 4 && ok 0 && ok 1) : Bool) = true ∧ ((!c.twn.paired || !(changed 0 || changed 1)) : Bool) = true))
    ∧ (∃ (s : State) (t : Nat) (ch : Fin 16) (r : Req) (c : Chip),
      c = s.chipAt t ∧ s.mayAsk t ch.val 0x1080 r ∧ r.lenIs 1 = true ∧ ((r.w 0 < 2 && r.epoch == 0) : Bool) = true) :=
  ⟨⟨wSettingRequests16.1, wSettingRequests16.2.1, wSettingRequests16.2.2.1, wSettingRequests16.2.2.2, _, rfl, mayAsk_of (by decide +kernel), by decide +kernel, by decide +kernel, by decide +kernel, by decide +kernel, by decide +kernel, by decide +kernel⟩,
    ⟨wSettingRequests17.1, wSettingRequests17.2.1, wSettingRequests17.2.2.1, wSettingRequests17.2.2.2, _, rfl, mayAsk_of (by decide +kernel), by decide +kernel, by decide +kernel, by decide +kernel⟩,
    ⟨wSettingRequests18.1, wSettingRequests18.2.1, wSettingRequests18.2.2.1, wSettingRequests18.2.2.2, _, rfl, mayAsk_of (by decide +kernel), by decide +kernel, by decide +kernel⟩⟩

/-- The hypotheses of EpochRequests are met, clause by clause: part 1. -/
theorem witness_EpochRequests_1 :
    (∃ (s : State) (t : Nat) (ch : Fin 16) (r : Req) (e : Nat) (c : Chip),
      c = s.chipAt t ∧ s.mayAsk t ch.val 0x0480 r ∧ (
      let n := r.w 0;
      let ws := r.ws 1 n;
      let es := routeEntries ws;
      let p := c.dstPlane (bits (r.w 1) 0 9);
      let at_ := c.project p e;
      r.lenIs (n + 1) = true ∧ (((1 ≤ n && n ≤ 384 && nodup (es.map Prod.fst) && es.all (fun e => c.dstPlane e.1 == p)
        && ws.all (routeArgs c at_)) : Bool) = true) ∧ c.assignEpoch p r.epoch = .ok e ∧ ((ws.all (routeState at_)) : Bool) = true ∧ (c.hasRoom (pendsAt r p e (es.map fun x => ⟨.route, x.1, [x.2]⟩)) [] = true)))
    ∧ (∃ (s : State) (t : Nat) (ch : Fin 16) (r : Req) (e0 : Nat) (e1 : Nat) (c : Chip),
      c = s.chipAt t ∧ s.mayAsk t ch.val 0x0481 r ∧ (
      let n := r.w 2;
      let ws := r.ws 3 n;
      let es := routeEntries ws;
      let on := fun p => es.any fun e => c.dstPlane e.1 == p;
      let ats := fun p => c.project p (if p = 0 then e0 else e1);
      let at_ := fun w => ats (c.dstPlane (bits w 0 9));
      r.lenIs (n + 3) = true ∧ (((1 ≤ n && n ≤ 384 && r.epoch == 0 && nodup (es.map Prod.fst) && ws.all (fun w => routeArgs c (at_ w) w)) : Bool) = true) ∧ planeEpochs c (r.w 0) (r.w 1) on = .ok (e0, e1) ∧ (((ws.all fun w => routeState (at_ w) w) : Bool) = true) ∧ (c.hasRoom (es.flatMap fun x => pendsAt r (c.dstPlane x.1) (if c.dstPlane x.1 = 0 then e0 else e1) [⟨.route, x.1, [x.2]⟩]) [] = true)))
    ∧ (∃ (s : State) (t : Nat) (ch : Fin 16) (r : Req) (e : Nat) (c : Chip),
      c = s.chipAt t ∧ s.mayAsk t ch.val 0x0482 r ∧ (
      let n := r.w 0;
      let ws := r.ws 1 n;
      let d := fun w => bits w 0 9;
      let p := c.dstPlane (d (r.w 1));
      let used := fun w =>
        let d := d w
        c.on (XPT_DST_CTL_ROUTED d) || c.waits .route d
          || (272 ≤ d && d < 320 && (c.on (LBS_REC_CTL_ENABLE (d - 272)) || c.waits .record (d - 272) fun y => bit (y.ws.getD 0 0) 6))
          || (240 ≤ d && d < 272 && (c.on (NET_TXF_CTL_ENABLE (d - 240)) || c.waits .sender (d - 240) fun y => bit (y.ws.getD 0 0) 7));
      r.lenIs (n + 1) = true ∧ (((1 ≤ n && n ≤ 384 && nodup (ws.map d) && ws.all (fun w => dstOffered c.role (d w) && c.dstPlane (d w) == p
        && bits w 10 2 != 3 && bits w 17 15 == 0)) : Bool) = true) ∧ c.assignEpoch p r.epoch = .ok e ∧ (((ws.all fun w => bits w 9 1 == p || !(used w)) : Bool) = true) ∧ (c.hasRoom (pendsAt r p e (ws.map fun w => ⟨.dest, d w, [w]⟩)) [] = true)))
    ∧ (∃ (s : State) (t : Nat) (ch : Fin 16) (r : Req) (e : Nat) (c : Chip),
      c = s.chipAt t ∧ s.mayAsk t ch.val 0x0483 r ∧ (
      let w := r.w 0;
      let g := bits w 0 3;
      let pat := bits w 24 3;
      let f := bits w 16 5;
      let p := c.rd (XPT_GEN_CTL_PLANE g);
      r.lenIs (if pat = 4 then 2 else 1) = true ∧ ((pat ≤ 4 && w &&& 0xF8E0FCF8 == 0 && (pat != 4 || r.w 1 < 2 ^ 30)
        && (c.mayRun f (bits w 8 1) || (f == 0 && !(bit w 9)))) : Bool) = true ∧ c.assignEpoch p r.epoch = .ok e ∧ ((c.planeFmt (bits w 8 1) != 0 || !(bit w 9)) : Bool) = true ∧ (((bits w 8 1 == p && bit w 9) || !(c.genUsed g)) : Bool) = true ∧ c.hasRoom (pendsAt r p e [⟨.gen, g, [w, if pat = 4 then r.w 1 else (c.project p e).get (XPT_GEN_COLOUR g)]⟩]) [] = true)) :=
  ⟨⟨wEpochRequests0.1, wEpochRequests0.2.1, wEpochRequests0.2.2.1, wEpochRequests0.2.2.2.1, wEpochRequests0.2.2.2.2, _, rfl, mayAsk_of (by decide +kernel), by decide +kernel, by decide +kernel, ok_of (by decide +kernel), by decide +kernel, by decide +kernel⟩,
    ⟨wEpochRequests1.1, wEpochRequests1.2.1, wEpochRequests1.2.2.1, wEpochRequests1.2.2.2.1, wEpochRequests1.2.2.2.2.1, wEpochRequests1.2.2.2.2.2, _, rfl, mayAsk_of (by decide +kernel), by decide +kernel, by decide +kernel, ok_of (by decide +kernel), by decide +kernel, by decide +kernel⟩,
    ⟨wEpochRequests2.1, wEpochRequests2.2.1, wEpochRequests2.2.2.1, wEpochRequests2.2.2.2.1, wEpochRequests2.2.2.2.2, _, rfl, mayAsk_of (by decide +kernel), by decide +kernel, by decide +kernel, ok_of (by decide +kernel), by decide +kernel, by decide +kernel⟩,
    ⟨wEpochRequests3.1, wEpochRequests3.2.1, wEpochRequests3.2.2.1, wEpochRequests3.2.2.2.1, wEpochRequests3.2.2.2.2, _, rfl, mayAsk_of (by decide +kernel), by decide +kernel, by decide +kernel, ok_of (by decide +kernel), by decide +kernel, by decide +kernel, by decide +kernel⟩⟩

/-- The hypotheses of EpochRequests are met, clause by clause: part 2. -/
theorem witness_EpochRequests_2 :
    (∃ (s : State) (t : Nat) (ch : Fin 16) (r : Req) (e : Nat) (c : Chip),
      c = s.chipAt t ∧ s.mayAsk t ch.val 0x0680 r ∧ (
      let n := r.w 0;
      let es := (List.range n).map fun i => (r.w (1 + 2 * i), r.w (2 + 2 * i));
      let chn := fun (e : Nat × Nat) => bits e.1 0 6;
      let en := fun (e : Nat × Nat) => bit e.1 6;
      let base := fun (e : Nat × Nat) => bits e.2 0 16;
      let size := fun (e : Nat × Nat) => bits e.2 16 16;
      let p := c.dstPlane (272 + chn (es.headD (0, 0)));
      let args := fun (e : Nat × Nat) => chn e < 48 && bits e.1 13 19 == 0 && !(bit e.1 7) && c.dstPlane (272 + chn e) == p
        && (if en e then c.mayRun (bits e.1 8 5) p && size e != 0 && 2 ≤ depthOf (size e) (bits e.1 8 5)
            else bits e.1 8 5 == 0 && e.2 == 0);
      let denied := fun (at_ : Chip) (e : Nat × Nat) =>
        if en e then
          !(c.domOn domStore)
            || (at_.on (LBS_REC_CTL_ENABLE (chn e))
                && !(at_.rd (LBS_REC_CTL_FORMAT (chn e)) == bits e.1 8 5 && at_.get (LBS_REC_REGION (chn e)) == e.2))
        else
          c.on (XPT_DST_CTL_ROUTED (272 + chn e)) || c.waits .route (272 + chn e)
            || (List.range 48).any fun q => at_.on (LBS_PB_CTL_ENABLE q) && at_.carafeOf q == chn e;
      let clash := fun (e : Nat × Nat) => en e
        && ((c.regions.any fun (q, b, s) => q != chn e && overlap b s (base e) (size e))
            || es.any fun f => en f && chn f != chn e && overlap (base f) (size f) (base e) (size e));
      r.lenIs (1 + 2 * n) = true ∧ ((c.role != 2 && 1 ≤ n && n ≤ 48 && nodup (es.map chn) && es.all args) : Bool) = true ∧ c.assignEpoch p r.epoch = .ok e ∧ (((es.all fun f => !(denied (c.project p e) f)) : Bool) = true) ∧ (((es.all fun f => !(clash f)) : Bool) = true) ∧ (((es.all fun f => !(en f) || base f + size f ≤ c.granules) : Bool) = true) ∧ (c.hasRoom (pendsAt r p e (es.map fun f => ⟨.record, chn f, [f.1, f.2]⟩)) [] = true)))
    ∧ (∃ (s : State) (t : Nat) (ch : Fin 16) (r : Req) (e : Nat) (c : Chip),
      c = s.chipAt t ∧ s.mayAsk t ch.val 0x0681 r ∧ (
      let n := r.w 0;
      let es := (List.range n).map fun i => (r.w (1 + 2 * i), r.w (2 + 2 * i));
      let chn := fun (e : Nat × Nat) => bits e.1 0 6;
      let en := fun (e : Nat × Nat) => bit e.1 6;
      let car := fun (e : Nat × Nat) => if en e then bits e.1 16 6 else c.carafeOf (chn e);
      let p := c.dstPlane (272 + car (es.headD (0, 0)));
      let at_ := c.project p e;
      let args := fun (e : Nat × Nat) => chn e < 48 && car e < 48 && bits e.1 8 8 == 0 && bits e.1 22 10 == 0 && e.2 < 2 ^ 24
        && c.dstPlane (272 + car e) == p
        && (if en e then (at_.depth (car e) == 0 || e.2 + 1 ≤ at_.depth (car e))
              && (e.2 != 0 || (at_.on (LBS_PB_CTL_ENABLE (chn e)) && at_.carafeOf (chn e) == car e))
            else e.1 == chn e && e.2 == 0);
      let used := fun q => !(c.destsOf (272 + q)).isEmpty || c.tapped (272 + q)
        || c.fw.queue.any fun y => y.change.kind == .route && !(bit (y.change.ws.getD 0 0) 31)
            && bits (y.change.ws.getD 0 0) 16 9 == 272 + q;
      let state := fun (at_ : Chip) (e : Nat × Nat) => !(en e)
        || (at_.on (LBS_REC_CTL_ENABLE (car e)) && c.domOn domStore
            && (!(at_.on (LBS_PB_CTL_ENABLE (chn e))) || at_.carafeOf (chn e) == car e || !(used (chn e))
                || at_.rd (LBS_REC_CTL_FORMAT (at_.carafeOf (chn e))) == at_.rd (LBS_REC_CTL_FORMAT (car e))));
      r.lenIs (1 + 2 * n) = true ∧ ((c.role != 2 && 1 ≤ n && n ≤ 48 && nodup (es.map chn) && es.all args) : Bool) = true ∧ c.assignEpoch p r.epoch = .ok e ∧ ((es.all (state (c.project p e))) : Bool) = true ∧ (c.hasRoom (pendsAt r p e (es.map fun f =>
        ⟨.playback, chn f, [f.1, if en f && f.2 == 0 then c.delayAt (chn f) p e else f.2, b2n (en f && f.2 == 0)]⟩)) [] = true)))
    ∧ (∃ (s : State) (t : Nat) (ch : Fin 16) (r : Req) (e : Nat) (c : Chip),
      c = s.chipAt t ∧ s.mayAsk t ch.val 0x0981 r ∧ (
      let n := r.w 0;
      let ws := r.ws 1 n;
      let sel := fun w => bits w 0 8;
      let p := c.dstPlane (48 + sel (r.w 1));
      let at_ := c.project p e;
      let args := fun w => sel w < 192 && !(c.role == 1 && 96 ≤ sel w) && bits w 10 3 ≤ 5 && !(bits w 10 3 == 0 && bit w 9) && bits w 17 15 == 0
        && c.dstPlane (48 + sel w) == p && c.srcPlane (48 + sel w) == p;
      let denied := fun (at_ : Chip) w =>
        (bits w 8 1 != at_.rd (FAB_SLOT_CTL_TX_EN (sel w)) && c.dstUsed (48 + sel w))
          || ((bits w 9 1 != at_.rd (FAB_SLOT_CTL_RX_EN (sel w)) || bits w 10 3 != at_.rd (FAB_SLOT_CTL_RATE_CLASS (sel w)))
              && c.srcUsed (48 + sel w));
      r.lenIs (n + 1) = true ∧ ((c.role != 0 && 1 ≤ n && n ≤ 192 && nodup (ws.map sel) && ws.all args) : Bool) = true ∧ c.assignEpoch p r.epoch = .ok e ∧ (((ws.all fun w => !(denied at_ w)) : Bool) = true) ∧ (c.hasRoom (pendsAt r p e (ws.map fun w => ⟨.fabSlot, sel w, [w]⟩)) [] = true)))
    ∧ (∃ (s : State) (t : Nat) (ch : Fin 16) (r : Req) (e : Nat) (c : Chip),
      c = s.chipAt t ∧ s.mayAsk t ch.val 0x0B82 r ∧ (
      let n := r.w 0;
      let es := (List.range n).map fun i => r.ws (1 + 10 * i) 10;
      let sel := fun (e : List Nat) => bits (e.getD 0 0) 0 7;
      let en := fun (e : List Nat) => bit (e.getD 0 0) 7;
      let aux := fun (e : List Nat) => if en e then e.getD 1 0 else c.get (NET_TXF_AUX (sel e));
      let p := match es.head? with | some e => c.senderPlane (sel e) (aux e) | none => 0;
      let at_ := c.project p e;
      let args := fun (e : List Nat) =>
        sel e < 112 && bits (e.getD 0 0) 20 12 == 0 && c.senderPlane (sel e) (aux e) == p
          && (if en e then
                bits (e.getD 1 0) 14 18 == 0 && bits (e.getD 2 0) 7 9 == 0 && (flowKind (sel e) != 1 || auxAudio (e.getD 1 0))
                  && isGroup (e.getD 4 0) && (!(bit (e.getD 0 0) 8) || isGroup (e.getD 7 0))
              else bits (e.getD 0 0) 8 12 == 0 && (e.drop 1).all (· == 0));
      let off := fun (e : List Nat) =>
        en e || flowKind (sel e) != 0
          || (!(at_.on (XPT_DST_CTL_ROUTED (240 + sel e)))
              && !((List.range 112).any fun a => flowKind a == 2 && at_.on (NET_TXF_CTL_ENABLE a) && at_.rd (NET_TXF_AUX_BOUND a) == sel e
                    && !(es.any fun b => sel b == a && !(en b))));
      let later := fun e (b : List Nat) => !(en b) && flowKind (sel b) == 0
        && c.fw.queue.any fun q => q.change.kind == .route && q.change.idx == 240 + sel b && q.plane == p && c.epochAt p e < c.epochAt p q.epoch;
      let after := es.foldl (fun (a : Chip) e => a.applySender (sel e) e) at_;
      r.lenIs (10 * n + 1) = true ∧ ((c.role != 2 && 1 ≤ n && n ≤ 16 && nodup (es.map sel) && es.all args) : Bool) = true ∧ c.assignEpoch p r.epoch = .ok e ∧ (((es.all fun b => off b && !(later e b)) : Bool) = true) ∧ ((([0, 1].all (fun q => after.txRate q ≤ wireCap || after.txRate q ≤ at_.txRate q)
        && es.all (fun b => flowKind (sel b) != 1 || !(en b) || after.on (AUD_TXF_BASE_VALID (sel b - 32)))) : Bool) = true) ∧ (c.hasRoom (pendsAt r p e (es.map fun b => ⟨.sender, sel b, b⟩)) [] = true))) :=
  ⟨⟨wEpochRequests4.1, wEpochRequests4.2.1, wEpochRequests4.2.2.1, wEpochRequests4.2.2.2.1, wEpochRequests4.2.2.2.2, _, rfl, mayAsk_of (by decide +kernel), by decide +kernel, by decide +kernel, ok_of (by decide +kernel), by decide +kernel, by decide +kernel, by decide +kernel, by decide +kernel⟩,
    ⟨wEpochRequests5.1, wEpochRequests5.2.1, wEpochRequests5.2.2.1, wEpochRequests5.2.2.2.1, wEpochRequests5.2.2.2.2, _, rfl, mayAsk_of (by decide +kernel), by decide +kernel, by decide +kernel, ok_of (by decide +kernel), by decide +kernel, by decide +kernel⟩,
    ⟨wEpochRequests6.1, wEpochRequests6.2.1, wEpochRequests6.2.2.1, wEpochRequests6.2.2.2.1, wEpochRequests6.2.2.2.2, _, rfl, mayAsk_of (by decide +kernel), by decide +kernel, by decide +kernel, ok_of (by decide +kernel), by decide +kernel, by decide +kernel⟩,
    ⟨wEpochRequests7.1, wEpochRequests7.2.1, wEpochRequests7.2.2.1, wEpochRequests7.2.2.2.1, wEpochRequests7.2.2.2.2, _, rfl, mayAsk_of (by decide +kernel), by decide +kernel, by decide +kernel, ok_of (by decide +kernel), by decide +kernel, by decide +kernel, by decide +kernel⟩⟩

/-- The hypotheses of EpochRequests are met, clause by clause: part 3. -/
theorem witness_EpochRequests_3 :
    (∃ (s : State) (t : Nat) (ch : Fin 16) (r : Req) (e0 : Nat) (e1 : Nat) (c : Chip),
      c = s.chipAt t ∧ s.mayAsk t ch.val 0x0C80 r ∧ (
      let n := r.w 2;
      let es := wordPairs (r.ws 3 (2 * n)) n;
      let on := fun p => es.any fun e => c.shufPlane e == p;
      let fits := (fun (a : Chip) => let b := (a.withShuf es).bridged; b.1.length ≤ 512 && b.2.length ≤ 512);
      r.lenIs (3 + 2 * n) = true ∧ (((c.role != 2 && r.epoch == 0 && 1 ≤ n && n ≤ 508 && nodup (es.map fun e => bits e.1 0 13 + 2 * (bits e.1 15 1 * 8192))
        && es.all (shufArgs c.role)) : Bool) = true) ∧ planeEpochs c (r.w 0) (r.w 1) on = .ok (e0, e1) ∧ ((c.domOn domAud) : Bool) = true ∧ ((([0, 1].all fun p => !(on p) || fits (c.project p (if p = 0 then e0 else e1))) : Bool) = true)))
    ∧ (∃ (s : State) (t : Nat) (ch : Fin 16) (r : Req) (e : Nat) (c : Chip),
      c = s.chipAt t ∧ s.mayAsk t ch.val 0x0C81 r ∧ (
      let n := r.w 0;
      let es := wordPairs (r.ws 2 (2 * n)) n;
      let key := fun (e : Nat × Nat) => bits e.1 16 9 * 512 + bits e.1 0 9;
      r.lenIs (2 + 2 * n) = true ∧ (((c.role != 2 && 1 ≤ n && n ≤ 509 && r.w 1 ≤ 3 && nodup (es.map key) && es.all fun e =>
        e.1 &&& 0xFE00FE00 == 0 && e.2 < 2 ^ 20 && (toSigned 20 e.2).natAbs ≤ 519338) : Bool) = true) ∧ c.assignEpoch c.enginePlane r.epoch = .ok e ∧ ((c.domOn domAud) : Bool) = true))
    ∧ (∃ (s : State) (t : Nat) (ch : Fin 16) (r : Req) (e : Nat) (c : Chip),
      c = s.chipAt t ∧ s.mayAsk t ch.val 0x0C82 r ∧ (
      let n := r.w 0;
      let ws := r.ws 1 n;
      let cs := ws.map limChange;
      r.lenIs (1 + n) = true ∧ (((c.role != 2 && 1 ≤ n && n ≤ 1019 && ws.all limArgs
        && nodup (cs.map fun y => y.idx + 512 * (match y.kind with | .mixin => 0 | .mixout => 1 | _ => 2))) : Bool) = true) ∧ c.assignEpoch c.enginePlane r.epoch = .ok e ∧ (((!(cs.any fun y => y.kind == .engine) || (c.project c.enginePlane e).engineIdle) : Bool) = true) ∧ ((c.domOn domAud) : Bool) = true))
    ∧ (∃ (s : State) (t : Nat) (ch : Fin 16) (r : Req) (e : Nat) (c : Chip),
      c = s.chipAt t ∧ s.mayAsk t ch.val 0x0E81 r ∧ (
      let n := r.w 0;
      let es := layerEntries r n;
      let p := bits (c.headCtl (layerHead (es.headD []))) 1 1;
      let at_ := c.project p e;
      let after := es.foldl (fun a e => a.withVl e) at_;
      r.lenIs (1 + 3 * n) = true ∧ (((c.role != 2 && 1 ≤ n && n ≤ 84 && nodup (es.map layerTarget) && es.all (fun e => bits (c.headCtl (layerHead e)) 1 1 == p)
        && es.all (layerArgs c) && nodup (after.vlTargets.map vlTile) && es.all fun e => after.layersOk (layerHead e)) : Bool) = true) ∧ c.assignEpoch p r.epoch = .ok e ∧ (((es.all fun e => bit (c.headCtl (layerHead e)) 0) : Bool) = true) ∧ c.hasRoom (pendsAt r p e (es.map layerChange)) [] = true)) :=
  ⟨⟨wEpochRequests8.1, wEpochRequests8.2.1, wEpochRequests8.2.2.1, wEpochRequests8.2.2.2.1, wEpochRequests8.2.2.2.2.1, wEpochRequests8.2.2.2.2.2, _, rfl, mayAsk_of (by decide +kernel), by decide +kernel, by decide +kernel, ok_of (by decide +kernel), by decide +kernel, by decide +kernel⟩,
    ⟨wEpochRequests9.1, wEpochRequests9.2.1, wEpochRequests9.2.2.1, wEpochRequests9.2.2.2.1, wEpochRequests9.2.2.2.2, _, rfl, mayAsk_of (by decide +kernel), by decide +kernel, by decide +kernel, ok_of (by decide +kernel), by decide +kernel⟩,
    ⟨wEpochRequests10.1, wEpochRequests10.2.1, wEpochRequests10.2.2.1, wEpochRequests10.2.2.2.1, wEpochRequests10.2.2.2.2, _, rfl, mayAsk_of (by decide +kernel), by decide +kernel, by decide +kernel, ok_of (by decide +kernel), by decide +kernel, by decide +kernel⟩,
    ⟨wEpochRequests11.1, wEpochRequests11.2.1, wEpochRequests11.2.2.1, wEpochRequests11.2.2.2.1, wEpochRequests11.2.2.2.2, _, rfl, mayAsk_of (by decide +kernel), by decide +kernel, by decide +kernel, ok_of (by decide +kernel), by decide +kernel, by decide +kernel⟩⟩

/-- The hypotheses of EpochRequests are met, clause by clause: part 4. -/
theorem witness_EpochRequests_4 :
    ∃ (s : State) (t : Nat) (ch : Fin 16) (r : Req) (e : Nat) (c : Chip),
      c = s.chipAt t ∧ s.mayAsk t ch.val 0x0E83 r ∧ (
      let n := r.w 0;
      let ws := r.ws 1 n;
      let h := fun w => bits w 0 2;
      let p := bits (c.headCtl (h (r.w 1))) 1 1;
      r.lenIs (n + 1) = true ∧ (((c.role != 2 && 1 ≤ n && n ≤ 32 && ws.all fun w => bits (c.headCtl (h w)) 1 1 == p && bits w 6 10 == 0 &&
        (if bit w 2 then 1 ≤ bits w 3 3 && bits w 3 3 ≤ 4 else bits w 3 3 < bits (c.headCtl (h w)) 7 3)) : Bool) = true) ∧ c.assignEpoch p r.epoch = .ok e ∧ (((ws.all fun w => bit (c.headCtl (h w)) 0) : Bool) = true)) :=
  ⟨wEpochRequests12.1, wEpochRequests12.2.1, wEpochRequests12.2.2.1, wEpochRequests12.2.2.2.1, wEpochRequests12.2.2.2.2, _, rfl, mayAsk_of (by decide +kernel), by decide +kernel, by decide +kernel, ok_of (by decide +kernel), by decide +kernel⟩

/-- The hypotheses of FrameBoundaryAndTakes are met, clause by clause. -/
theorem witness_FrameBoundaryAndTakes :
    (∃ (s : State) (t : Nat) (q : Fin 2) (c : Chip),
      c = s.chipAt t ∧ c.live = true ∧ 2 ≤ c.planeState q.val ∧ c.twn.image = none ∧ c.twn.held = [] ∧ (c.plane q.val).again = none ∧ ((c.fw.queue.all fun p => p.change.kind.bears) = true))
    ∧ (∃ (s : State) (t : Nat) (d : Fin 384) (field2 : Bool) (p : Pend) (w : Nat) (c : Chip),
      c = s.chipAt t ∧ c.live = true ∧ 2 ≤ c.planeState (c.dstPlane d.val) ∧ dstOffered c.role d.val = true ∧ c.takesHere d.val field2 = true ∧ p.change = ⟨.route, d.val, [w]⟩ ∧ ((c.fw.queue.filter fun y => y.plane == c.dstPlane d.val && c.reached (c.dstPlane d.val) y.epoch && y.change.dest == some d.val) = [p])) :=
  ⟨⟨wFrameBoundaryCounts0.1, wFrameBoundaryCounts0.2.1, wFrameBoundaryCounts0.2.2, _, rfl, by decide +kernel, by decide +kernel, by decide +kernel, by decide +kernel, by decide +kernel, by decide +kernel⟩,
    ⟨wRouteTakes0.1, wRouteTakes0.2.1, wRouteTakes0.2.2.1, wRouteTakes0.2.2.2.1, wRouteTakes0.2.2.2.2.1, wRouteTakes0.2.2.2.2.2, _, rfl, by decide +kernel, by decide +kernel, by decide +kernel, by decide +kernel, by decide +kernel, by decide +kernel⟩⟩

/-- The hypotheses of SourceEvents are met, clause by clause: part 1. -/
theorem witness_SourceEvents_1 :
    (∃ (s : State) (t : Nat) (x : Fin 332) (f : FrameIn) (c : Chip),
      c = s.chipAt t ∧ c.live = true ∧ srcOffered c.role x.val = true ∧ srcKind x.val ≤ 1 ∧ c.bondedRx x.val = false ∧ c.measured x.val f ≠ 0)
    ∧ (∃ (s : State) (t : Nat) (x : Fin 332) (f : FrameIn) (c : Chip),
      c = s.chipAt t ∧ c.live = true ∧ srcOffered c.role x.val = true ∧ c.bondedRx x.val = true)
    ∧ (∃ (s : State) (t : Nat) (x : Fin 332) (c : Chip),
      c = s.chipAt t ∧ c.live = true ∧ c.on (FSY_SRC_STAT_PROMOTED x.val) = true ∧ 64 ≤ (c.src x.val).calm)
    ∧ (∃ (s : State) (t : Nat) (x : Fin 332) (c : Chip),
      c = s.chipAt t ∧ c.live = true ∧ c.srcValid (c.leadOf x.val) = true ∧ c.srcCause (c.leadOf x.val) ≠ 0) :=
  ⟨⟨wSourceEvents0.1, wSourceEvents0.2.1, wSourceEvents0.2.2.1, wSourceEvents0.2.2.2, _, rfl, by decide +kernel, by decide +kernel, by decide +kernel, by decide +kernel, by decide +kernel⟩,
    ⟨wSourceEvents1.1, wSourceEvents1.2.1, wSourceEvents1.2.2.1, wSourceEvents1.2.2.2, _, rfl, by decide +kernel, by decide +kernel, by decide +kernel⟩,
    ⟨wSourceEvents2.1, wSourceEvents2.2.1, wSourceEvents2.2.2, _, rfl, by decide +kernel, by decide +kernel, by decide +kernel⟩,
    ⟨wSourceEvents3.1, wSourceEvents3.2.1, wSourceEvents3.2.2, _, rfl, by decide +kernel, by decide +kernel, by decide +kernel⟩⟩

/-- The hypotheses of SourceEvents are met, clause by clause: part 2. -/
theorem witness_SourceEvents_2 :
    (∃ (s : State) (t : Nat) (x : Fin 332) (c : Chip),
      c = s.chipAt t ∧ c.live = true ∧ srcKind x.val ≤ 1 ∧ c.srcValid (c.leadOf x.val) = true ∧ c.srcCause (c.leadOf x.val) = 0)
    ∧ (∃ (s : State) (t : Nat) (x : Fin 332) (c : Chip),
      c = s.chipAt t ∧ c.live = true ∧ srcOffered c.role x.val = true ∧ c.srcValid (c.leadOf x.val) = false ∧ c.srcCause (c.leadOf x.val) = 0 ∧ ((srcKind x.val ≤ 2 → 2 ≤ (c.src (c.leadOf x.val)).good)))
    ∧ (∃ (s : State) (t : Nat) (x : Fin 332) (run : Bool) (c : Chip),
      c = s.chipAt t ∧ c.live = true ∧ srcOffered c.role x.val = true ∧ srcKind x.val ≤ 2) :=
  ⟨⟨wSourceEvents4.1, wSourceEvents4.2.1, wSourceEvents4.2.2, _, rfl, by decide +kernel, by decide +kernel, by decide +kernel, by decide +kernel⟩,
    ⟨wSourceEvents5.1, wSourceEvents5.2.1, wSourceEvents5.2.2, _, rfl, by decide +kernel, by decide +kernel, by decide +kernel, by decide +kernel, by decide +kernel⟩,
    ⟨wSourceEvents6.1, wSourceEvents6.2.1, wSourceEvents6.2.2.1, wSourceEvents6.2.2.2, _, rfl, by decide +kernel, by decide +kernel, by decide +kernel⟩⟩

/-- The hypotheses of PresentationsAndStore are met, clause by clause: part 1. -/
theorem witness_PresentationsAndStore_1 :
    (∃ (s : State) (t : Nat) (x : Fin 332) (p : Fin 2) (clean : Bool) (ue : Bool) (conceal : Nat) (c : Chip),
      c = s.chipAt t ∧ c.live = true ∧ srcOffered c.role x.val = true ∧ 2 ≤ c.planeState p.val ∧ c.srcPlane x.val = p.val ∧ c.leadOf x.val = x.val ∧ srcKind x.val ≠ 2 ∧ srcKind x.val ≠ 3 ∧ c.srcValid x.val = true ∧ c.srcCause x.val = 0 ∧ c.dramFailed = false ∧ ((1 < srcKind x.val ∨ c.on (FSY_SRC_CTL_ALLOW_FS x.val) = true ∨ c.frameLate x.val = false)) ∧ ((ue = false ∨ conceal = 0)))
    ∧ (∃ (s : State) (t : Nat) (x : Fin 332) (p : Fin 2) (clean : Bool) (ue : Bool) (conceal : Nat) (c : Chip),
      c = s.chipAt t ∧ c.live = true ∧ srcOffered c.role x.val = true ∧ 2 ≤ c.planeState p.val ∧ c.srcPlane x.val = p.val ∧ c.leadOf x.val = x.val ∧ srcKind x.val ≤ 1 ∧ c.srcValid x.val = true ∧ c.srcCause x.val = 0 ∧ c.on (FSY_SRC_CTL_ALLOW_FS x.val) = false ∧ c.frameLate x.val = true)
    ∧ (∃ (s : State) (t : Nat) (x : Fin 332) (p : Fin 2) (clean : Bool) (conceal : Nat) (c : Chip),
      c = s.chipAt t ∧ c.live = true ∧ srcOffered c.role x.val = true ∧ 2 ≤ c.planeState p.val ∧ c.srcPlane x.val = p.val ∧ c.leadOf x.val = x.val ∧ srcKind x.val ≤ 1 ∧ c.srcValid x.val = true ∧ c.srcCause x.val = 0 ∧ c.dramFailed = false ∧ c.on (FSY_SRC_CTL_ALLOW_FS x.val) = true ∧ c.syncCarries x.val = true ∧ conceal ≠ 0)
    ∧ (∃ (s : State) (t : Nat) (x : Fin 332) (p : Fin 2) (clean : Bool) (ue : Bool) (conceal : Nat) (c : Chip),
      c = s.chipAt t ∧ c.live = true ∧ srcOffered c.role x.val = true ∧ 2 ≤ c.planeState p.val ∧ c.presentsOn x.val p.val = false ∧ c.leadOf x.val = x.val ∧ c.crossOn x.val p.val = true ∧ c.srcValid x.val = true ∧ c.dramFailed = false ∧ (c.src x.val).xdecision = none ∧ ((ue = false ∨ conceal = 0))) :=
  ⟨⟨wPresentations0.1, wPresentations0.2.1, wPresentations0.2.2.1, wPresentations0.2.2.2.1, wPresentations0.2.2.2.2.1, wPresentations0.2.2.2.2.2.1, wPresentations0.2.2.2.2.2.2, _, rfl, by decide +kernel, by decide +kernel, by decide +kernel, by decide +kernel, by decide +kernel, by decide +kernel, by decide +kernel, by decide +kernel, by decide +kernel, by decide +kernel, by decide +kernel, by decide +kernel⟩,
    ⟨wPresentations1.1, wPresentations1.2.1, wPresentations1.2.2.1, wPresentations1.2.2.2.1, wPresentations1.2.2.2.2.1, wPresentations1.2.2.2.2.2.1, wPresentations1.2.2.2.2.2.2, _, rfl, by decide +kernel, by decide +kernel, by decide +kernel, by decide +kernel, by decide +kernel, by decide +kernel, by decide +kernel, by decide +kernel, by decide +kernel, by decide +kernel⟩,
    ⟨wPresentations2.1, wPresentations2.2.1, wPresentations2.2.2.1, wPresentations2.2.2.2.1, wPresentations2.2.2.2.2.1, wPresentations2.2.2.2.2.2, _, rfl, by decide +kernel, by decide +kernel, by decide +kernel, by decide +kernel, by decide +kernel, by decide +kernel, by decide +kernel, by decide +kernel, by decide +kernel, by decide +kernel, by decide +kernel, by decide +kernel⟩,
    ⟨wPresentations3.1, wPresentations3.2.1, wPresentations3.2.2.1, wPresentations3.2.2.2.1, wPresentations3.2.2.2.2.1, wPresentations3.2.2.2.2.2.1, wPresentations3.2.2.2.2.2.2, _, rfl, by decide +kernel, by decide +kernel, by decide +kernel, by decide +kernel, by decide +kernel, by decide +kernel, by decide +kernel, by decide +kernel, by decide +kernel, by decide +kernel⟩⟩

/-- The hypotheses of PresentationsAndStore are met, clause by clause: part 2. -/
theorem witness_PresentationsAndStore_2 :
    (∃ (s : State) (t : Nat) (k : Fin 48) (x : Fin 332) (p : Fin 2) (clean : Bool) (conceal : Nat) (c : Chip),
      c = s.chipAt t ∧ c.live = true ∧ x.val = 272 + k.val ∧ srcOffered c.role x.val = true ∧ 2 ≤ c.planeState p.val ∧ c.srcPlane x.val = p.val ∧ c.on (LBS_PB_CTL_ENABLE k.val) = true ∧ c.lbs.stopped = false ∧ c.playDue k.val p.val = false)
    ∧ (∃ (s : State) (t : Nat) (k : Fin 48) (x : Fin 332) (p : Fin 2) (clean : Bool) (conceal : Nat) (n : Nat) (c : Chip),
      c = s.chipAt t ∧ c.live = true ∧ x.val = 272 + k.val ∧ srcOffered c.role x.val = true ∧ 2 ≤ c.planeState p.val ∧ c.srcPlane x.val = p.val ∧ c.on (LBS_PB_CTL_ENABLE k.val) = true ∧ c.lbs.stopped = false ∧ c.playDue k.val p.val = false ∧ c.on (LBS_PB_CTL_MODE k.val) = false ∧ n + c.rd (LBS_PB_STAT_CUR_DELAY k.val) = c.frameNow (c.dstPlane (272 + c.carafeOf k.val)) (c.rd (LBS_REC_CTL_FORMAT (c.carafeOf k.val))) ∧ c.tagOf (c.carafeOf k.val) n = some .recorded)
    ∧ (∃ (s : State) (t : Nat) (x : Fin 332) (p : Fin 2) (clean : Bool) (ue : Bool) (conceal : Nat) (c : Chip),
      c = s.chipAt t ∧ c.live = true ∧ c.planeState p.val < 2)
    ∧ (∃ (s : State) (t : Nat) (k : Fin 48) (c : Chip),
      c = s.chipAt t ∧ c.live = true ∧ c.pauseDue k.val = true ∧ c.lbs.stopped = false ∧ c.playDue k.val 0 = false ∧ c.playDue k.val 1 = false) :=
  ⟨⟨wPresentations4.1, wPresentations4.2.1, wPresentations4.2.2.1, wPresentations4.2.2.2.1, wPresentations4.2.2.2.2.1, wPresentations4.2.2.2.2.2.1, wPresentations4.2.2.2.2.2.2, _, rfl, by decide +kernel, by decide +kernel, by decide +kernel, by decide +kernel, by decide +kernel, by decide +kernel, by decide +kernel, by decide +kernel⟩,
    ⟨wPresentations5.1, wPresentations5.2.1, wPresentations5.2.2.1, wPresentations5.2.2.2.1, wPresentations5.2.2.2.2.1, wPresentations5.2.2.2.2.2.1, wPresentations5.2.2.2.2.2.2.1, wPresentations5.2.2.2.2.2.2.2, _, rfl, by decide +kernel, by decide +kernel, by decide +kernel, by decide +kernel, by decide +kernel, by decide +kernel, by decide +kernel, by decide +kernel, by decide +kernel, by decide +kernel, by decide +kernel⟩,
    ⟨wPresentations6.1, wPresentations6.2.1, wPresentations6.2.2.1, wPresentations6.2.2.2.1, wPresentations6.2.2.2.2.1, wPresentations6.2.2.2.2.2.1, wPresentations6.2.2.2.2.2.2, _, rfl, by decide +kernel, by decide +kernel⟩,
    ⟨wStoreEvents0.1, wStoreEvents0.2.1, wStoreEvents0.2.2, _, rfl, by decide +kernel, by decide +kernel, by decide +kernel, by decide +kernel, by decide +kernel⟩⟩

/-- The hypotheses of PresentationsAndStore are met, clause by clause: part 3. -/
theorem witness_PresentationsAndStore_3 :
    (∃ (s : State) (t : Nat) (k : Fin 48) (c : Chip),
      c = s.chipAt t ∧ ((c.pauseDue k.val = false ∨ c.lbs.stopped = true ∨ c.playDue k.val 0 = true ∨ c.playDue k.val 1 = true)))
    ∧ (∃ (s : State) (t : Nat) (p : Fin 2) (n : Nat) (planes : List Nat) (c : Chip),
      c = s.chipAt t ∧ c.live = true ∧ c.lbs.halt = some (n, planes)) :=
  ⟨⟨wStoreEvents1.1, wStoreEvents1.2.1, wStoreEvents1.2.2, _, rfl, by decide +kernel⟩,
    ⟨wStoreEvents2.1, wStoreEvents2.2.1, wStoreEvents2.2.2.1, wStoreEvents2.2.2.2.1, wStoreEvents2.2.2.2.2, _, rfl, by decide +kernel, by decide +kernel⟩⟩

/-- The hypotheses of ChannelStates are met, clause by clause: part 1. -/
theorem witness_ChannelStates_1 :
    (∃ (s : State) (t : Nat) (n : Fin 8) (dimm : Option Dimm) (c : Chip),
      c = s.chipAt t ∧ c.ready = true ∧ c.chState n.val = chTraining)
    ∧ (∃ (s : State) (t : Nat) (n : Fin 8) (rd : List (BitVec 14)) (wr : List (BitVec 14)) (c : Chip),
      c = s.chipAt t ∧ c.ready = true ∧ c.chState n.val = chTraining ∧ c.on (PWR_DOM_CTL_BUSY (domMem n.val)) = false)
    ∧ (∃ (s : State) (t : Nat) (n : Fin 8) (rd : List (BitVec 14)) (wr : List (BitVec 14)) (c : Chip),
      c = s.chipAt t ∧ c.ready = true ∧ c.chState n.val = chTraining ∧ c.on (PWR_DOM_CTL_BUSY (domMem n.val)) = true ∧ c.domGoal (domMem n.val) = stLow ∧ c.rd (PWR_DOM_CTL_REQ (domMem n.val)) = stLow)
    ∧ (∃ (s : State) (t : Nat) (n : Fin 8) (c : Chip),
      c = s.chipAt t ∧ c.ready = true ∧ c.chState n.val = chTraining) :=
  ⟨⟨wChannelStates0.1, wChannelStates0.2.1, wChannelStates0.2.2.1, wChannelStates0.2.2.2, _, rfl, by decide +kernel, by decide +kernel⟩,
    ⟨wChannelStates1.1, wChannelStates1.2.1, wChannelStates1.2.2.1, wChannelStates1.2.2.2.1, wChannelStates1.2.2.2.2, _, rfl, by decide +kernel, by decide +kernel, by decide +kernel⟩,
    ⟨wChannelStates2.1, wChannelStates2.2.1, wChannelStates2.2.2.1, wChannelStates2.2.2.2.1, wChannelStates2.2.2.2.2, _, rfl, by decide +kernel, by decide +kernel, by decide +kernel, by decide +kernel, by decide +kernel⟩,
    ⟨wChannelStates3.1, wChannelStates3.2.1, wChannelStates3.2.2, _, rfl, by decide +kernel, by decide +kernel⟩⟩

/-- The hypotheses of ChannelStates are met, clause by clause: part 2. -/
theorem witness_ChannelStates_2 :
    ∃ (s : State) (t : Nat) (n : Fin 8) (c : Chip),
      c = s.chipAt t ∧ c.live = true ∧ c.chState n.val = chActive ∧ (c.dmcCh n.val).failing ≠ 0 :=
  ⟨wChannelStates4.1, wChannelStates4.2.1, wChannelStates4.2.2, _, rfl, by decide +kernel, by decide +kernel, by decide +kernel⟩

/-- The hypotheses of MemoryEvents are met, clause by clause: part 1. -/
theorem witness_MemoryEvents_1 :
    (∃ (s : State) (t : Nat) (n : Fin 8) (k : Fin 2) (mr4 : Option Bool) (c : Chip),
      c = s.chipAt t ∧ c.live = true ∧ c.chState n.val = chActive)
    ∧ (∃ (s : State) (t : Nat) (n : Fin 8) (k : Fin 2) (ms : List (BitVec 33)) (c : Chip),
      c = s.chipAt t ∧ c.ready = true ∧ c.chState n.val = chActive ∧ c.dramBudget ≠ 0)
    ∧ (∃ (s : State) (t : Nat) (pa : BitVec 41) (c : Chip),
      c = s.chipAt t ∧ c.live = true ∧ c.chState (paChan pa.toNat) = chActive)
    ∧ (∃ (s : State) (t : Nat) (pa : BitVec 41) (dev : Fin 10) (c : Chip),
      c = s.chipAt t ∧ c.live = true ∧ c.chState (paChan pa.toNat) = chActive) :=
  ⟨⟨wMemoryEvents0.1, wMemoryEvents0.2.1, wMemoryEvents0.2.2.1, wMemoryEvents0.2.2.2.1, wMemoryEvents0.2.2.2.2, _, rfl, by decide +kernel, by decide +kernel⟩,
    ⟨wMemoryEvents1.1, wMemoryEvents1.2.1, wMemoryEvents1.2.2.1, wMemoryEvents1.2.2.2.1, wMemoryEvents1.2.2.2.2, _, rfl, by decide +kernel, by decide +kernel, by decide +kernel⟩,
    ⟨wMemoryEvents2.1, wMemoryEvents2.2.1, wMemoryEvents2.2.2, _, rfl, by decide +kernel, by decide +kernel⟩,
    ⟨wMemoryEvents3.1, wMemoryEvents3.2.1, wMemoryEvents3.2.2.1, wMemoryEvents3.2.2.2, _, rfl, by decide +kernel, by decide +kernel⟩⟩

/-- The hypotheses of MemoryEvents are met, clause by clause: part 2. -/
theorem witness_MemoryEvents_2 :
    (∃ (s : State) (t : Nat) (n : Fin 8) (found : Option (Option (Fin 10))) (c : Chip),
      c = s.chipAt t ∧ c.live = true ∧ c.chState n.val = chActive)
    ∧ (∃ (s : State) (t : Nat) (n : Fin 8) (inReplay : Bool) (c : Chip),
      c = s.chipAt t ∧ c.live = true ∧ c.chState n.val = chActive) :=
  ⟨⟨wMemoryEvents4.1, wMemoryEvents4.2.1, wMemoryEvents4.2.2.1, wMemoryEvents4.2.2.2, _, rfl, by decide +kernel, by decide +kernel⟩,
    ⟨wMemoryEvents5.1, wMemoryEvents5.2.1, wMemoryEvents5.2.2.1, wMemoryEvents5.2.2.2, _, rfl, by decide +kernel, by decide +kernel⟩⟩

/-- The hypotheses of SdiReceive are met, clause by clause: part 1. -/
theorem witness_SdiReceive_1 :
    (∃ (s : State) (t : Nat) (lane : Fin 48) (c : Chip),
      c = s.chipAt t ∧ c.live = true ∧ c.rd (SDI_RX_STAT_STATE lane.val) = 1)
    ∧ (∃ (s : State) (t : Nat) (lane : Fin 48) (rate : Fin 10) (levelB : Bool) (c : Chip),
      c = s.chipAt t ∧ c.live = true ∧ c.rd (SDI_RX_STAT_STATE lane.val) = 1 ∧ rateClass rate.val = (c.sdiLane lane.val).trial ∧ ((c.on (SDI_RX_CTL_CARRIER_GATE lane.val) = true → c.on (SDI_RX_STAT_CARRIER lane.val) = true)))
    ∧ (∃ (s : State) (t : Nat) (lane : Fin 48) (c : Chip),
      c = s.chipAt t ∧ c.live = true ∧ c.rd (SDI_RX_STAT_STATE lane.val) = 2)
    ∧ (∃ (s : State) (t : Nat) (low : BitVec 48) (c : Chip),
      c = s.chipAt t ∧ c.ready = true) :=
  ⟨⟨wSdiReceiveStates0.1, wSdiReceiveStates0.2.1, wSdiReceiveStates0.2.2, _, rfl, by decide +kernel, by decide +kernel⟩,
    ⟨wSdiReceiveStates1.1, wSdiReceiveStates1.2.1, wSdiReceiveStates1.2.2.1, wSdiReceiveStates1.2.2.2.1, wSdiReceiveStates1.2.2.2.2, _, rfl, by decide +kernel, by decide +kernel, by decide +kernel, by decide +kernel⟩,
    ⟨wSdiReceiveStates2.1, wSdiReceiveStates2.2.1, wSdiReceiveStates2.2.2, _, rfl, by decide +kernel, by decide +kernel⟩,
    ⟨wSdiReceiveChecks0.1, wSdiReceiveChecks0.2.1, wSdiReceiveChecks0.2.2, _, rfl, by decide +kernel⟩⟩

/-- The hypotheses of SdiReceive are met, clause by clause: part 2. -/
theorem witness_SdiReceive_2 :
    (∃ (s : State) (t : Nat) (lane : Fin 48) (error : Bool) (noEdh : Bool) (c : Chip),
      c = s.chipAt t ∧ c.live = true ∧ c.rd (SDI_RX_STAT_STATE lane.val) = 2 ∧ (error || (noEdh && c.rd (SDI_RX_STAT_RATE lane.val) == 1)) = true)
    ∧ (∃ (s : State) (t : Nat) (lane : Fin 48) (pid : Option Word) (tcKind : Fin 3) (tc : Word) (badGroups : BitVec 8) (c : Chip),
      c = s.chipAt t ∧ c.live = true ∧ c.rd (SDI_RX_STAT_STATE lane.val) = 2) :=
  ⟨⟨wSdiReceiveChecks1.1, wSdiReceiveChecks1.2.1, wSdiReceiveChecks1.2.2.1, wSdiReceiveChecks1.2.2.2.1, wSdiReceiveChecks1.2.2.2.2, _, rfl, by decide +kernel, by decide +kernel, by decide +kernel⟩,
    ⟨wSdiReceiveChecks2.1, wSdiReceiveChecks2.2.1, wSdiReceiveChecks2.2.2.1, wSdiReceiveChecks2.2.2.2.1, wSdiReceiveChecks2.2.2.2.2.1, wSdiReceiveChecks2.2.2.2.2.2.1, wSdiReceiveChecks2.2.2.2.2.2.2, _, rfl, by decide +kernel, by decide +kernel⟩⟩

/-- The hypotheses of LaneStates are met, clause by clause: part 1. -/
theorem witness_LaneStates_1 :
    (∃ (s : State) (t : Nat) (n : Fin 50) (c : Chip),
      c = s.chipAt t ∧ c.live = true)
    ∧ (∃ (s : State) (t : Nat) (n : Fin 50) (c : Chip),
      c = s.chipAt t ∧ c.live = true)
    ∧ (∃ (s : State) (t : Nat) (n : Fin 50) (c : Chip),
      c = s.chipAt t ∧ c.live = true ∧ c.rd (lnState n.val) = lnTrained)
    ∧ (∃ (s : State) (t : Nat) (n : Fin 50) (c : Chip),
      c = s.chipAt t ∧ c.live = true ∧ c.rd (lnState n.val) = lnFailed) :=
  ⟨⟨wLaneStates0.1, wLaneStates0.2.1, wLaneStates0.2.2, _, rfl, by decide +kernel⟩,
    ⟨wLaneStates1.1, wLaneStates1.2.1, wLaneStates1.2.2, _, rfl, by decide +kernel⟩,
    ⟨wLaneStates2.1, wLaneStates2.2.1, wLaneStates2.2.2, _, rfl, by decide +kernel, by decide +kernel⟩,
    ⟨wLaneStates3.1, wLaneStates3.2.1, wLaneStates3.2.2, _, rfl, by decide +kernel, by decide +kernel⟩⟩

/-- The hypotheses of LaneStates are met, clause by clause: part 2. -/
theorem witness_LaneStates_2 :
    (∃ (s : State) (t : Nat) (n : Fin 50) (c : Chip),
      c = s.chipAt t ∧ c.live = true ∧ ((c.rd (lnState n.val) = lnDoze ∨ c.rd (lnState n.val) = lnOff)) ∧ (c.lane n.val).before = lnFailed)
    ∧ (∃ (s : State) (t : Nat) (n : Fin 50) (lostLock : Bool) (c : Chip),
      c = s.chipAt t ∧ c.live = true ∧ c.rd (lnState n.val) = lnDoze) :=
  ⟨⟨wLaneStates4.1, wLaneStates4.2.1, wLaneStates4.2.2, _, rfl, by decide +kernel, by decide +kernel, by decide +kernel⟩,
    ⟨wLaneStates5.1, wLaneStates5.2.1, wLaneStates5.2.2.1, wLaneStates5.2.2.2, _, rfl, by decide +kernel, by decide +kernel⟩⟩

/-- The hypotheses of LaneTraining are met, clause by clause: part 1. -/
theorem witness_LaneTraining_1 :
    (∃ (s : State) (t : Nat) (n : Fin 50) (cdr : Bool) (block : Bool) (crc : Bool) (polInv : Bool) (height : BitVec 8) (c : Chip),
      c = s.chipAt t ∧ c.live = true ∧ ((c.rd (lnState n.val) = lnAcquire ∨ c.rd (lnState n.val) = lnVerify)))
    ∧ (∃ (s : State) (t : Nat) (n : Fin 50) (heights : List (BitVec 8)) (clean : List Bool) (polInv : Bool) (c : Chip),
      c = s.chipAt t ∧ c.live = true ∧ c.rd (lnState n.val) = lnSweep)
    ∧ (∃ (s : State) (t : Nat) (n : Fin 50) (height : BitVec 8) (width : BitVec 8) (below : BitVec 8) (above : BitVec 8) (belowCrc : Bool) (aboveCrc : Bool) (c : Chip),
      c = s.chipAt t ∧ c.ready = true ∧ c.rd (lnState n.val) = lnTrained ∧ c.on ((lnCfg n.val).fld 22 1) = true)
    ∧ (∃ (s : State) (t : Nat) (n : Fin 50) (pk : Nat) (c : Chip),
      c = s.chipAt t ∧ c.live = true ∧ c.rd (lnState n.val) = lnTrained ∧ c.on ((lnCfg n.val).fld 22 1) = true ∧ c.ready = true ∧ (c.lane n.val).step = some pk ∧ pk < 16) :=
  ⟨⟨wLaneTraining0.1, wLaneTraining0.2.1, wLaneTraining0.2.2.1, wLaneTraining0.2.2.2.1, wLaneTraining0.2.2.2.2.1, wLaneTraining0.2.2.2.2.2.1, wLaneTraining0.2.2.2.2.2.2.1, wLaneTraining0.2.2.2.2.2.2.2, _, rfl, by decide +kernel, by decide +kernel⟩,
    ⟨wLaneTraining1.1, wLaneTraining1.2.1, wLaneTraining1.2.2.1, wLaneTraining1.2.2.2.1, wLaneTraining1.2.2.2.2.1, wLaneTraining1.2.2.2.2.2, _, rfl, by decide +kernel, by decide +kernel⟩,
    ⟨wLaneRetrims0.1, wLaneRetrims0.2.1, wLaneRetrims0.2.2.1, wLaneRetrims0.2.2.2.1, wLaneRetrims0.2.2.2.2.1, wLaneRetrims0.2.2.2.2.2.1, wLaneRetrims0.2.2.2.2.2.2.1, wLaneRetrims0.2.2.2.2.2.2.2.1, wLaneRetrims0.2.2.2.2.2.2.2.2, _, rfl, by decide +kernel, by decide +kernel, by decide +kernel⟩,
    ⟨wLaneRetrims1.1, wLaneRetrims1.2.1, wLaneRetrims1.2.2.1, wLaneRetrims1.2.2.2, _, rfl, by decide +kernel, by decide +kernel, by decide +kernel, by decide +kernel, by decide +kernel, by decide +kernel⟩⟩

/-- The hypotheses of LaneTraining are met, clause by clause: part 2. -/
theorem witness_LaneTraining_2 :
    (∃ (s : State) (t : Nat) (n : Fin 50) (at_ : Nat) (c : Chip),
      c = s.chipAt t ∧ c.live = true ∧ (c.lane n.val).stepAt = some at_ ∧ c.now ≤ at_ + postWindow)
    ∧ (∃ (s : State) (t : Nat) (n : Fin 48) (locked : Bool) (errs : Nat) (units : Nat) (c : Chip),
      c = s.chipAt t ∧ c.live = true ∧ c.rd (FAB_LN_TEST_CHK_PATTERN n.val) ≠ 0) :=
  ⟨⟨wLaneRetrims2.1, wLaneRetrims2.2.1, wLaneRetrims2.2.2.1, wLaneRetrims2.2.2.2, _, rfl, by decide +kernel, by decide +kernel, by decide +kernel⟩,
    ⟨wLaneRetrims3.1, wLaneRetrims3.2.1, wLaneRetrims3.2.2.1, wLaneRetrims3.2.2.2.1, wLaneRetrims3.2.2.2.2.1, wLaneRetrims3.2.2.2.2.2, _, rfl, by decide +kernel, by decide +kernel⟩⟩

set_option maxRecDepth 100000 in
/-- The hypotheses of LaneBlocks are met, clause by clause: part 1. -/
theorem witness_LaneBlocks_1 :
    (∃ (s : State) (t : Nat) (n : Fin 50) (b : BitVec 640) (c : Chip),
      c = s.chipAt t ∧ c.live = true ∧ c.rd (lnState n.val) = lnTrained ∧ blockOk b.toNat = false)
    ∧ (∃ (s : State) (t : Nat) (n : Fin 50) (b : BitVec 640) (c : Chip),
      c = s.chipAt t ∧ c.live = true ∧ c.rd (lnState n.val) = lnTrained ∧ blockOk b.toNat = false)
    ∧ (∃ (s : State) (t : Nat) (n : Fin 50) (b : BitVec 640) (c : Chip),
      c = s.chipAt t ∧ c.live = true ∧ c.rd (lnState n.val) = lnTrained ∧ blockOk b.toNat = false ∧ c.lnStepping n.val = false)
    ∧ (∃ (s : State) (t : Nat) (n : Fin 48) (l : Nat) (b : BitVec 640) (c : Chip),
      c = s.chipAt t ∧ c.live = true ∧ c.rd (lnState n.val) = lnTrained ∧ blockOk b.toNat = true ∧ c.linkOf n.val = some l ∧ blockType b.toNat = 0) :=
  ⟨⟨wLaneBlocks0.1, wLaneBlocks0.2.1, wLaneBlocks0.2.2.1, wLaneBlocks0.2.2.2, _, rfl, by decide +kernel, by decide +kernel, by decide +kernel⟩,
    ⟨wLaneBlocks1.1, wLaneBlocks1.2.1, wLaneBlocks1.2.2.1, wLaneBlocks1.2.2.2, _, rfl, by decide +kernel, by decide +kernel, by decide +kernel⟩,
    ⟨wLaneBlocks2.1, wLaneBlocks2.2.1, wLaneBlocks2.2.2.1, wLaneBlocks2.2.2.2, _, rfl, by decide +kernel, by decide +kernel, by decide +kernel, by decide +kernel⟩,
    ⟨wLaneBlocks3.1, wLaneBlocks3.2.1, wLaneBlocks3.2.2.1, wLaneBlocks3.2.2.2.1, wLaneBlocks3.2.2.2.2, _, rfl, by decide +kernel, by decide +kernel, by decide +kernel, by decide +kernel, by decide +kernel⟩⟩

set_option maxRecDepth 100000 in
/-- The hypotheses of LaneBlocks are met, clause by clause: part 2. -/
theorem witness_LaneBlocks_2 :
    (∃ (s : State) (t : Nat) (n : Fin 48) (l : Nat) (b : BitVec 640) (c : Chip),
      c = s.chipAt t ∧ c.live = true ∧ c.rd (lnState n.val) = lnTrained ∧ blockOk b.toNat = true ∧ c.linkOf n.val = some l ∧ blockType b.toNat = 1)
    ∧ (∃ (s : State) (t : Nat) (n : Fin 48) (l : Nat) (b : BitVec 640) (c : Chip),
      c = s.chipAt t ∧ c.live = true ∧ c.rd (lnState n.val) = lnTrained ∧ blockOk b.toNat = true ∧ c.linkOf n.val = some l ∧ blockType b.toNat = 2)
    ∧ (∃ (s : State) (t : Nat) (n : Fin 48) (l : Nat) (b : BitVec 640) (c : Chip),
      c = s.chipAt t ∧ c.live = true ∧ c.rd (lnState n.val) = lnTrained ∧ blockOk b.toNat = true ∧ c.linkOf n.val = some l ∧ blockType b.toNat = 3 ∧ c.markerCause l n.val b.toNat = 0 ∧ c.rd (FAB_LK_STAT_STATE l) ≠ 5)
    ∧ (∃ (s : State) (t : Nat) (n : Fin 50) (b : BitVec 640) (c : Chip),
      c = s.chipAt t ∧ c.live = true ∧ 48 ≤ n.val ∧ c.rd (lnState n.val) = lnTrained ∧ blockOk b.toNat = true ∧ blockType b.toNat = 2) :=
  ⟨⟨wLaneBlocks4.1, wLaneBlocks4.2.1, wLaneBlocks4.2.2.1, wLaneBlocks4.2.2.2.1, wLaneBlocks4.2.2.2.2, _, rfl, by decide +kernel, by decide +kernel, by decide +kernel, by decide +kernel, by decide +kernel⟩,
    ⟨wLaneBlocks5.1, wLaneBlocks5.2.1, wLaneBlocks5.2.2.1, wLaneBlocks5.2.2.2.1, wLaneBlocks5.2.2.2.2, _, rfl, by decide +kernel, by decide +kernel, by decide +kernel, by decide +kernel, by decide +kernel⟩,
    ⟨wLaneBlocks6.1, wLaneBlocks6.2.1, wLaneBlocks6.2.2.1, wLaneBlocks6.2.2.2.1, wLaneBlocks6.2.2.2.2, _, rfl, by decide +kernel, by decide +kernel, by decide +kernel, by decide +kernel, by decide +kernel, by decide +kernel, by decide +kernel⟩,
    ⟨wLaneBlocks7.1, wLaneBlocks7.2.1, wLaneBlocks7.2.2.1, wLaneBlocks7.2.2.2, _, rfl, by decide +kernel, by decide +kernel, by decide +kernel, by decide +kernel, by decide +kernel⟩⟩

/-- The hypotheses of LinkEvents are met, clause by clause: part 1. -/
theorem witness_LinkEvents_1 :
    (∃ (s : State) (t : Nat) (l : Fin 48) (at_ : Nat) (c : Chip),
      c = s.chipAt t ∧ c.live = true ∧ (c.link l.val).first = some at_ ∧ at_ + ms 2 ≤ c.now ∧ c.linkWidth l.val ≠ 0 ∧ (c.link l.val).tx ≠ .up ∧ c.rd (FAB_LK_STAT_PEER_RX_UP l.val) ≠ 0 ∧ c.rd (FAB_LK_STAT_STATE l.val) ≠ 5)
    ∧ (∃ (s : State) (t : Nat) (n : Fin 48) (l : Nat) (c : Chip),
      c = s.chipAt t ∧ c.live = true ∧ c.linkOf n.val = some l ∧ c.rxUp l ≠ 0 ∧ c.lnUsable n.val = false ∧ (c.link l).rx = .up ∧ bit (c.link l).rxUse (c.lane n.val).llane = true ∧ c.rd (FAB_LK_STAT_STATE l) ≠ 5)
    ∧ (∃ (s : State) (t : Nat) (n : Fin 48) (l : Nat) (c : Chip),
      c = s.chipAt t ∧ c.live = true ∧ c.linkOf n.val = some l ∧ c.rxUp l = 0 ∧ c.lnUsable n.val = false ∧ (c.link l).rx = .up ∧ (c.link l).wasUp = true ∧ c.rd (FAB_LK_STAT_STATE l) ≠ 5)
    ∧ (∃ (s : State) (t : Nat) (l : Fin 48) (e : Nat) (n : Nat) (c : Chip),
      c = s.chipAt t ∧ c.live = true ∧ (c.link l.val).tx = .up ∧ e = c.eligible l.val (c.rd (FAB_LK_STAT_PEER_RX_UP l.val)) ∧ n = min (bitCount e) (c.linkWidth l.val) ∧ e ≠ (c.link l.val).txUse ∧ e &&& (c.link l.val).txUse = (c.link l.val).txUse) :=
  ⟨⟨wLinkEvents0.1, wLinkEvents0.2.1, wLinkEvents0.2.2.1, wLinkEvents0.2.2.2, _, rfl, by decide +kernel, by decide +kernel, by decide +kernel, by decide +kernel, by decide +kernel, by decide +kernel, by decide +kernel⟩,
    ⟨wLinkEvents1.1, wLinkEvents1.2.1, wLinkEvents1.2.2.1, wLinkEvents1.2.2.2, _, rfl, by decide +kernel, by decide +kernel, by decide +kernel, by decide +kernel, by decide +kernel, by decide +kernel, by decide +kernel⟩,
    ⟨wLinkEvents2.1, wLinkEvents2.2.1, wLinkEvents2.2.2.1, wLinkEvents2.2.2.2, _, rfl, by decide +kernel, by decide +kernel, by decide +kernel, by decide +kernel, by decide +kernel, by decide +kernel, by decide +kernel⟩,
    ⟨wLinkEvents3.1, wLinkEvents3.2.1, wLinkEvents3.2.2.1, wLinkEvents3.2.2.2.1, wLinkEvents3.2.2.2.2, _, rfl, by decide +kernel, by decide +kernel, by decide +kernel, by decide +kernel, by decide +kernel, by decide +kernel⟩⟩

/-- The hypotheses of LinkEvents are met, clause by clause: part 2. -/
theorem witness_LinkEvents_2 :
    (∃ (s : State) (t : Nat) (q : Fin 2) (i : Fin 192) (p : Pend) (w : Nat) (c : Chip),
      c = s.chipAt t ∧ c.live = true ∧ 2 ≤ c.planeState q.val ∧ p.change = ⟨.fabSlot, i.val, [w]⟩ ∧ ((c.fw.queue.filter fun y => y.plane == q.val && c.reached q.val y.epoch && y.change.kind == .fabSlot) = [p]))
    ∧ (∃ (s : State) (t : Nat) (m : Fin 96) (aWhole : Bool) (bWhole : Bool) (differ : Bool) (run : Bool) (c : Chip),
      c = s.chipAt t ∧ c.live = true ∧ c.role = 1) :=
  ⟨⟨wLinkEvents4.1, wLinkEvents4.2.1, wLinkEvents4.2.2.1, wLinkEvents4.2.2.2.1, wLinkEvents4.2.2.2.2.1, wLinkEvents4.2.2.2.2.2, _, rfl, by decide +kernel, by decide +kernel, by decide +kernel, by decide +kernel⟩,
    ⟨wLinkEvents5.1, wLinkEvents5.2.1, wLinkEvents5.2.2.1, wLinkEvents5.2.2.2.1, wLinkEvents5.2.2.2.2.1, wLinkEvents5.2.2.2.2.2.1, wLinkEvents5.2.2.2.2.2.2, _, rfl, by decide +kernel, by decide +kernel⟩⟩

/-- The hypotheses of NetLinkStates are met, clause by clause: part 1. -/
theorem witness_NetLinkStates_1 :
    (∃ (s : State) (t : Nat) (p : Fin 2) (c : Chip),
      c = s.chipAt t ∧ c.live = true ∧ c.rd (NET_PORT_STAT_STATE p.val) = npNoSignal)
    ∧ (∃ (s : State) (t : Nat) (p : Fin 2) (lock : BitVec 4) (c : Chip),
      c = s.chipAt t ∧ c.live = true ∧ [npAn, npTraining, npAligning, npRemote].contains (c.rd (NET_PORT_STAT_STATE p.val)) = true)
    ∧ (∃ (s : State) (t : Nat) (p : Fin 2) (c : Chip),
      c = s.chipAt t ∧ c.live = true ∧ c.rd (NET_PORT_STAT_STATE p.val) = npAn)
    ∧ (∃ (s : State) (t : Nat) (p : Fin 2) (pol : BitVec 4) (c : Chip),
      c = s.chipAt t ∧ c.live = true ∧ c.rd (NET_PORT_STAT_STATE p.val) = npTraining) :=
  ⟨⟨wNetLinkStates0.1, wNetLinkStates0.2.1, wNetLinkStates0.2.2, _, rfl, by decide +kernel, by decide +kernel⟩,
    ⟨wNetLinkStates1.1, wNetLinkStates1.2.1, wNetLinkStates1.2.2.1, wNetLinkStates1.2.2.2, _, rfl, by decide +kernel, by decide +kernel⟩,
    ⟨wNetLinkStates2.1, wNetLinkStates2.2.1, wNetLinkStates2.2.2, _, rfl, by decide +kernel, by decide +kernel⟩,
    ⟨wNetLinkStates3.1, wNetLinkStates3.2.1, wNetLinkStates3.2.2.1, wNetLinkStates3.2.2.2, _, rfl, by decide +kernel, by decide +kernel⟩⟩

/-- The hypotheses of NetLinkStates are met, clause by clause: part 2. -/
theorem witness_NetLinkStates_2 :
    (∃ (s : State) (t : Nat) (p : Fin 2) (c : Chip),
      c = s.chipAt t ∧ c.live = true ∧ [npAn, npTraining, npAligning].contains (c.rd (NET_PORT_STAT_STATE p.val)) = true)
    ∧ (∃ (s : State) (t : Nat) (p : Fin 2) (remote : Bool) (c : Chip),
      c = s.chipAt t ∧ c.live = true ∧ ((c.rd (NET_PORT_STAT_STATE p.val) = npAligning ∨ c.rd (NET_PORT_STAT_STATE p.val) = npRemote)))
    ∧ (∃ (s : State) (t : Nat) (p : Fin 2) (cause : Fin 3) (lock : BitVec 4) (c : Chip),
      c = s.chipAt t ∧ c.live = true ∧ c.rd (NET_PORT_STAT_STATE p.val) = npUp)
    ∧ (∃ (s : State) (t : Nat) (p : Fin 2) (c : Chip),
      c = s.chipAt t ∧ c.live = true) :=
  ⟨⟨wNetLinkStates4.1, wNetLinkStates4.2.1, wNetLinkStates4.2.2, _, rfl, by decide +kernel, by decide +kernel⟩,
    ⟨wNetLinkStates5.1, wNetLinkStates5.2.1, wNetLinkStates5.2.2.1, wNetLinkStates5.2.2.2, _, rfl, by decide +kernel, by decide +kernel⟩,
    ⟨wNetLinkStates6.1, wNetLinkStates6.2.1, wNetLinkStates6.2.2.1, wNetLinkStates6.2.2.2.1, wNetLinkStates6.2.2.2.2, _, rfl, by decide +kernel, by decide +kernel⟩,
    ⟨wNetGates0.1, wNetGates0.2.1, wNetGates0.2.2, _, rfl, by decide +kernel⟩⟩

/-- The hypotheses of NetLinkStates are met, clause by clause: part 3. -/
theorem witness_NetLinkStates_3 :
    (∃ (s : State) (t : Nat) (p : Fin 2) (c : Chip),
      c = s.chipAt t ∧ c.live = true ∧ c.on (NET_GCL_CTL_PENDING p.val) = true ∧ (c.net p.val).startAt ≤ c.clock.n ∧ c.rd (NET_GCL_CTL_SHADOW_ENTRIES p.val) ≤ 256)
    ∧ (∃ (s : State) (t : Nat) (p : Fin 2) (c : Chip),
      c = s.chipAt t ∧ c.ready = true) :=
  ⟨⟨wNetGates1.1, wNetGates1.2.1, wNetGates1.2.2, _, rfl, by decide +kernel, by decide +kernel, by decide +kernel, by decide +kernel⟩,
    ⟨wNetGates2.1, wNetGates2.2.1, wNetGates2.2.2, _, rfl, by decide +kernel⟩⟩

/-- The hypotheses of NetFrames are met, clause by clause: part 1. -/
theorem witness_NetFrames_1 :
    (∃ (s : State) (t : Nat) (p : Fin 2) (f : NetFrame) (k : Nat) (c : Chip),
      c = s.chipAt t ∧ c.live = true ∧ ((c.rd (NET_PORT_STAT_STATE p.val) = npUp ∨ f.code = true)) ∧ c.rxCheck p.val f = some k)
    ∧ (∃ (s : State) (t : Nat) (p : Fin 2) (f : NetFrame) (q : Fin 3) (c : Chip),
      c = s.chipAt t ∧ c.live = true ∧ c.rd (NET_PORT_STAT_STATE p.val) = npUp ∧ c.rxCheck p.val f = none ∧ c.rxQueue p.val f = (q.val, true))
    ∧ (∃ (s : State) (t : Nat) (p : Fin 2) (f : NetFrame) (q : Fin 3) (c : Chip),
      c = s.chipAt t ∧ c.live = true ∧ c.rd (NET_PORT_STAT_STATE p.val) = npUp ∧ c.rxCheck p.val f = none ∧ c.rxQueue p.val f = (q.val, false))
    ∧ (∃ (s : State) (t : Nat) (p : Fin 2) (cls : Fin 8) (len : Nat) (c : Chip),
      c = s.chipAt t ∧ c.live = true ∧ c.rd (NET_PORT_STAT_STATE p.val) = npUp ∧ len ≤ c.maxLen p.val ∧ c.noFit p.val cls.val len = false ∧ c.mayStart p.val cls.val len = true) :=
  ⟨⟨wNetFrames0.1, wNetFrames0.2.1, wNetFrames0.2.2.1, wNetFrames0.2.2.2.1, wNetFrames0.2.2.2.2, _, rfl, by decide +kernel, by decide +kernel, by decide +kernel⟩,
    ⟨wNetFrames1.1, wNetFrames1.2.1, wNetFrames1.2.2.1, wNetFrames1.2.2.2.1, wNetFrames1.2.2.2.2, _, rfl, by decide +kernel, by decide +kernel, by decide +kernel, by decide +kernel⟩,
    ⟨wNetFrames2.1, wNetFrames2.2.1, wNetFrames2.2.2.1, wNetFrames2.2.2.2.1, wNetFrames2.2.2.2.2, _, rfl, by decide +kernel, by decide +kernel, by decide +kernel, by decide +kernel⟩,
    ⟨wNetFrames3.1, wNetFrames3.2.1, wNetFrames3.2.2.1, wNetFrames3.2.2.2.1, wNetFrames3.2.2.2.2, _, rfl, by decide +kernel, by decide +kernel, by decide +kernel, by decide +kernel, by decide +kernel⟩⟩

/-- The hypotheses of NetFrames are met, clause by clause: part 2. -/
theorem witness_NetFrames_2 :
    (∃ (s : State) (t : Nat) (p : Fin 2) (cls : Fin 8) (len : Nat) (cut : Bool) (c : Chip),
      c = s.chipAt t ∧ c.live = true ∧ c.rd (NET_PORT_STAT_STATE p.val) = npUp ∧ c.maxLen p.val < len)
    ∧ (∃ (s : State) (t : Nat) (p : Fin 2) (heads : List (Fin 8 × Nat)) (cut : Bool) (c : Chip),
      c = s.chipAt t ∧ c.live = true ∧ c.rd (NET_PORT_STAT_STATE p.val) = npUp)
    ∧ (∃ (s : State) (t : Nat) (p : Fin 2) (heads : List (Fin 8 × Nat)) (cut : Bool) (c : Chip),
      c = s.chipAt t ∧ c.live = true ∧ c.rd (NET_PORT_STAT_STATE p.val) ≠ npUp) :=
  ⟨⟨wNetFrames4.1, wNetFrames4.2.1, wNetFrames4.2.2.1, wNetFrames4.2.2.2.1, wNetFrames4.2.2.2.2.1, wNetFrames4.2.2.2.2.2, _, rfl, by decide +kernel, by decide +kernel, by decide +kernel⟩,
    ⟨wNetFrames5.1, wNetFrames5.2.1, wNetFrames5.2.2.1, wNetFrames5.2.2.2.1, wNetFrames5.2.2.2.2, _, rfl, by decide +kernel, by decide +kernel⟩,
    ⟨wNetFrames6.1, wNetFrames6.2.1, wNetFrames6.2.2.1, wNetFrames6.2.2.2.1, wNetFrames6.2.2.2.2, _, rfl, by decide +kernel, by decide +kernel⟩⟩

/-- The hypotheses of Flows are met, clause by clause: part 1. -/
theorem witness_Flows_1 :
    (∃ (s : State) (t : Nat) (f : Fin 112) (leg : Fin 2) (p : MediaPacket) (c : Chip),
      c = s.chipAt t ∧ c.live = true ∧ c.legRuns f.val leg.val = true ∧ flowKind f.val ≠ 1 ∧ p.good = false)
    ∧ (∃ (s : State) (t : Nat) (f : Fin 112) (leg : Fin 2) (p : MediaPacket) (q : Nat) (fc : Nat) (lat : Nat) (fr : Nat) (off : Int) (c : Chip),
      c = s.chipAt t ∧ c.live = true ∧ c.legRuns f.val leg.val = true ∧ flowKind f.val ≠ 1 ∧ p.good = true ∧ q = c.srcPlane (240 + c.videoOf f.val) ∧ fc = c.rd (NET_RXF_CTL_FORMAT (c.videoOf f.val)) ∧ lat = c.rd (NET_RXF_CTL_LAT (c.videoOf f.val)) ∧ c.anchored q = true ∧ c.mapFrame q fc p.rtp.toNat p.field2 = (fr, off) ∧ 4 * off.natAbs * sec 1 ≤ 90000 * (fmt fc).period ∧ (((c.flow f.val).seqs.any fun e => e.1 == p.seq) = false) ∧ (c.now : Int) ≤ c.mediaDeadline q fc lat fr p.line ∧ fr ≤ c.framePresented (240 + c.videoOf f.val) q fc + 1)
    ∧ (∃ (s : State) (t : Nat) (f : Fin 112) (leg : Fin 2) (p : AudioPacket) (now : Nat) (m : Int) (c : Chip),
      c = s.chipAt t ∧ c.live = true ∧ c.legRuns f.val leg.val = true ∧ flowKind f.val = 1 ∧ p.good = true ∧ c.anchored c.enginePlane = true ∧ (((c.flow f.val).seqs.any fun e => e.1 == p.seq) = false) ∧ now = c.sampleNow c.enginePlane ∧ m = toSigned 32 (sub32 ((p.rtp.toNat + c.rd (NET_RXF_AUX_ALAT f.val)) % 2 ^ 32) now) ∧ 48 ≤ m ∧ m ≤ (c.rd (NET_RXF_AUX_ALAT f.val) + 960 : Nat))
    ∧ (∃ (s : State) (t : Nat) (f : Fin 112) (leg : Fin 2) (p : AudioPacket) (c : Chip),
      c = s.chipAt t ∧ c.live = true ∧ c.legRuns f.val leg.val = true ∧ flowKind f.val = 1 ∧ p.good = true ∧ c.anchored c.enginePlane = true ∧ (((c.flow f.val).seqs.any fun e => e.1 == p.seq) = true)) :=
  ⟨⟨wFlowsReceive0.1, wFlowsReceive0.2.1, wFlowsReceive0.2.2.1, wFlowsReceive0.2.2.2.1, wFlowsReceive0.2.2.2.2, _, rfl, by decide +kernel, by decide +kernel, by decide +kernel, by decide +kernel⟩,
    ⟨wFlowsReceive1.1, wFlowsReceive1.2.1, wFlowsReceive1.2.2.1, wFlowsReceive1.2.2.2.1, wFlowsReceive1.2.2.2.2.1, wFlowsReceive1.2.2.2.2.2.1, wFlowsReceive1.2.2.2.2.2.2.1, wFlowsReceive1.2.2.2.2.2.2.2.1, wFlowsReceive1.2.2.2.2.2.2.2.2.1, wFlowsReceive1.2.2.2.2.2.2.2.2.2, _, rfl, by decide +kernel, by decide +kernel, by decide +kernel, by decide +kernel, by decide +kernel, by decide +kernel, by decide +kernel, by decide +kernel, by decide +kernel, by decide +kernel, by decide +kernel, by decide +kernel, by decide +kernel⟩,
    ⟨wFlowsReceive2.1, wFlowsReceive2.2.1, wFlowsReceive2.2.2.1, wFlowsReceive2.2.2.2.1, wFlowsReceive2.2.2.2.2.1, wFlowsReceive2.2.2.2.2.2.1, wFlowsReceive2.2.2.2.2.2.2, _, rfl, by decide +kernel, by decide +kernel, by decide +kernel, by decide +kernel, by decide +kernel, by decide +kernel, by decide +kernel, by decide +kernel, by decide +kernel, by decide +kernel⟩,
    ⟨wFlowsReceive3.1, wFlowsReceive3.2.1, wFlowsReceive3.2.2.1, wFlowsReceive3.2.2.2.1, wFlowsReceive3.2.2.2.2, _, rfl, by decide +kernel, by decide +kernel, by decide +kernel, by decide +kernel, by decide +kernel, by decide +kernel⟩⟩

/-- The hypotheses of Flows are met, clause by clause: part 2. -/
theorem witness_Flows_2 :
    (∃ (s : State) (t : Nat) (f : Fin 112) (q : Nat) (c : Chip),
      c = s.chipAt t ∧ c.live = true ∧ c.on (NET_RXF_CTL_JOINED f.val) = true ∧ flowKind f.val = 1 ∧ (((c.flow f.val).seqs.any fun e => e.1 == q) = false) ∧ (((c.flow f.val).upTo.all fun u => decide (u < q)) = true))
    ∧ (∃ (s : State) (t : Nat) (f : Fin 112) (leg : Fin 2) (c : Chip),
      c = s.chipAt t ∧ c.live = true ∧ c.legRuns f.val leg.val = true ∧ (if leg.val = 0 then (c.flow f.val).lost.1 else (c.flow f.val).lost.2) = false ∧ (if leg.val = 0 then (c.flow f.val).legAt.1 else (c.flow f.val).legAt.2) + ms 10 ≤ c.now)
    ∧ (∃ (s : State) (t : Nat) (f : Fin 112) (leg : Fin 2) (c : Chip),
      c = s.chipAt t ∧ c.live = true ∧ c.legRuns f.val leg.val = true ∧ (if leg.val = 0 then (c.flow f.val).lost.1 else (c.flow f.val).lost.2) = true)
    ∧ (∃ (s : State) (t : Nat) (x : Fin 112) (leg : Fin 2) (slot : Nat) (c : Chip),
      c = s.chipAt t ∧ c.live = true ∧ c.rd (NET_TXF_STAT_STATE x.val) = 2 ∧ ((leg.val = 0 ∨ c.on (NET_TXF_CTL_DUAL x.val) = true)) ∧ slot ≤ c.now) :=
  ⟨⟨wFlowsReceive4.1, wFlowsReceive4.2.1, wFlowsReceive4.2.2.1, wFlowsReceive4.2.2.2, _, rfl, by decide +kernel, by decide +kernel, by decide +kernel, by decide +kernel, by decide +kernel⟩,
    ⟨wFlowsReceive5.1, wFlowsReceive5.2.1, wFlowsReceive5.2.2.1, wFlowsReceive5.2.2.2, _, rfl, by decide +kernel, by decide +kernel, by decide +kernel, by decide +kernel⟩,
    ⟨wFlowsReceive6.1, wFlowsReceive6.2.1, wFlowsReceive6.2.2.1, wFlowsReceive6.2.2.2, _, rfl, by decide +kernel, by decide +kernel, by decide +kernel⟩,
    ⟨wFlowsSend0.1, wFlowsSend0.2.1, wFlowsSend0.2.2.1, wFlowsSend0.2.2.2.1, wFlowsSend0.2.2.2.2, _, rfl, by decide +kernel, by decide +kernel, by decide +kernel, by decide +kernel⟩⟩

/-- The hypotheses of Flows are met, clause by clause: part 3. -/
theorem witness_Flows_3 :
    (∃ (s : State) (t : Nat) (x : Fin 112) (sizes : List Nat) (c : Chip),
      c = s.chipAt t ∧ c.live = true ∧ flowKind x.val = 2 ∧ c.rd (NET_TXF_STAT_STATE x.val) = 2)
    ∧ (∃ (s : State) (t : Nat) (q : Fin 2) (c : Chip),
      c = s.chipAt t ∧ c.ready = true ∧ c.planeLocked q.val = true ∧ c.ptp.firstLock = true ∧ c.anchored q.val = false ∧ (c.plane q.val).counted = true ∧ c.rd TWN_STATE_MODE ≠ 2) :=
  ⟨⟨wFlowsSend1.1, wFlowsSend1.2.1, wFlowsSend1.2.2.1, wFlowsSend1.2.2.2, _, rfl, by decide +kernel, by decide +kernel, by decide +kernel⟩,
    ⟨wFlowsSend2.1, wFlowsSend2.2.1, wFlowsSend2.2.2, _, rfl, by decide +kernel, by decide +kernel, by decide +kernel, by decide +kernel, by decide +kernel, by decide +kernel⟩⟩

/-- The hypotheses of PtpRecords are met, clause by clause: part 1. -/
theorem witness_PtpRecords_1 :
    (∃ (s : State) (t : Nat) (p : Fin 2) (seq : BitVec 16) (domain : BitVec 8) (id : BitVec 64) (num : BitVec 16) (err : Fin 9) (c : Chip),
      c = s.chipAt t ∧ c.live = true ∧ c.on (PTP_PORT_CFG_ENABLE p.val) = true ∧ domain.toNat = c.rd PTP_CFG_DOMAIN ∧ (c.ptpPort p.val).rxq.length < 64)
    ∧ (∃ (s : State) (t : Nat) (p : Fin 2) (seq : BitVec 16) (domain : BitVec 8) (id : BitVec 64) (num : BitVec 16) (err : Fin 9) (c : Chip),
      c = s.chipAt t ∧ c.live = true ∧ c.on (PTP_PORT_CFG_ENABLE p.val) = true ∧ domain.toNat = c.rd PTP_CFG_DOMAIN ∧ 64 ≤ (c.ptpPort p.val).rxq.length)
    ∧ (∃ (s : State) (t : Nat) (p : Fin 2) (seq : BitVec 16) (err : Fin 9) (c : Chip),
      c = s.chipAt t ∧ c.live = true ∧ c.on (PTP_PORT_STAT_TXR_STOPPED p.val) = false ∧ (c.ptpPort p.val).txr.length < 64)
    ∧ (∃ (s : State) (t : Nat) (p : Fin 2) (seq : BitVec 16) (err : Fin 9) (c : Chip),
      c = s.chipAt t ∧ c.live = true ∧ c.on (PTP_PORT_STAT_TXR_STOPPED p.val) = true) :=
  ⟨⟨wPtpRecords0.1, wPtpRecords0.2.1, wPtpRecords0.2.2.1, wPtpRecords0.2.2.2.1, wPtpRecords0.2.2.2.2.1, wPtpRecords0.2.2.2.2.2.1, wPtpRecords0.2.2.2.2.2.2.1, wPtpRecords0.2.2.2.2.2.2.2, _, rfl, by decide +kernel, by decide +kernel, by decide +kernel, by decide +kernel⟩,
    ⟨wPtpRecords1.1, wPtpRecords1.2.1, wPtpRecords1.2.2.1, wPtpRecords1.2.2.2.1, wPtpRecords1.2.2.2.2.1, wPtpRecords1.2.2.2.2.2.1, wPtpRecords1.2.2.2.2.2.2.1, wPtpRecords1.2.2.2.2.2.2.2, _, rfl, by decide +kernel, by decide +kernel, by decide +kernel, by decide +kernel⟩,
    ⟨wPtpRecords2.1, wPtpRecords2.2.1, wPtpRecords2.2.2.1, wPtpRecords2.2.2.2.1, wPtpRecords2.2.2.2.2, _, rfl, by decide +kernel, by decide +kernel, by decide +kernel⟩,
    ⟨wPtpRecords3.1, wPtpRecords3.2.1, wPtpRecords3.2.2.1, wPtpRecords3.2.2.2.1, wPtpRecords3.2.2.2.2, _, rfl, by decide +kernel, by decide +kernel⟩⟩

/-- The hypotheses of PtpRecords are met, clause by clause: part 2. -/
theorem witness_PtpRecords_2 :
    (∃ (s : State) (t : Nat) (p : Fin 2) (e : List Nat) (rest : List (List Nat)) (c : Chip),
      c = s.chipAt t ∧ c.ready = true ∧ (c.ptpPort p.val).rxq = e :: rest)
    ∧ (∃ (s : State) (t : Nat) (p : Fin 2) (e : List Nat) (rest : List (List Nat)) (c : Chip),
      c = s.chipAt t ∧ c.ready = true ∧ (c.ptpPort p.val).txr = e :: rest) :=
  ⟨⟨wPtpRecords4.1, wPtpRecords4.2.1, wPtpRecords4.2.2.1, wPtpRecords4.2.2.2.1, wPtpRecords4.2.2.2.2, _, rfl, by decide +kernel, by decide +kernel⟩,
    ⟨wPtpRecords5.1, wPtpRecords5.2.1, wPtpRecords5.2.2.1, wPtpRecords5.2.2.2.1, wPtpRecords5.2.2.2.2, _, rfl, by decide +kernel, by decide +kernel⟩⟩

/-- The hypotheses of PtpServo are met, clause by clause: part 1. -/
theorem witness_PtpServo_1 :
    (∃ (s : State) (t : Nat) (p : Fin 2) (offset : Int) (filtered : Int) (freq : Int) (mpd : Nat) (c : Chip),
      c = s.chipAt t ∧ c.ready = true ∧ p.val = c.rd PTP_SERVO_PORT ∧ ((c.servo = svAcquiring ∨ c.servo = svLocked ∨ c.servo = svJump)) ∧ c.on PTP_SERVO_EVER_LOCKED = true ∧ c.ptp.relock = false ∧ offset.natAbs ≤ c.rd PTP_JUMP_MAX_JUMP_MAX)
    ∧ (∃ (s : State) (t : Nat) (p : Fin 2) (offset : Int) (filtered : Int) (freq : Int) (mpd : Nat) (c : Chip),
      c = s.chipAt t ∧ c.ready = true ∧ p.val = c.rd PTP_SERVO_PORT ∧ ((c.servo = svAcquiring ∨ c.servo = svLocked ∨ c.servo = svJump)) ∧ c.on PTP_SERVO_EVER_LOCKED = true ∧ c.ptp.relock = false ∧ c.rd PTP_JUMP_MAX_JUMP_MAX < offset.natAbs)
    ∧ (∃ (s : State) (t : Nat) (p : Fin 2) (domain : BitVec 8) (id : BitVec 64) (rank : Nat) (c : Chip),
      c = s.chipAt t ∧ c.ready = true ∧ c.on (PTP_PORT_CFG_ENABLE p.val) = true ∧ domain.toNat = c.rd PTP_CFG_DOMAIN)
    ∧ (∃ (s : State) (t : Nat) (p : Fin 2) (limit : Nat) (c : Chip),
      c = s.chipAt t ∧ c.ready = true ∧ limit = c.rd PTP_CFG_ANNOUNCE_TIMEOUT * logInterval (c.rd PTP_CFG_ANNOUNCE_LOG)) :=
  ⟨⟨wPtpServo0.1, wPtpServo0.2.1, wPtpServo0.2.2.1, wPtpServo0.2.2.2.1, wPtpServo0.2.2.2.2.1, wPtpServo0.2.2.2.2.2.1, wPtpServo0.2.2.2.2.2.2, _, rfl, by decide +kernel, by decide +kernel, by decide +kernel, by decide +kernel, by decide +kernel, by decide +kernel⟩,
    ⟨wPtpServo1.1, wPtpServo1.2.1, wPtpServo1.2.2.1, wPtpServo1.2.2.2.1, wPtpServo1.2.2.2.2.1, wPtpServo1.2.2.2.2.2.1, wPtpServo1.2.2.2.2.2.2, _, rfl, by decide +kernel, by decide +kernel, by decide +kernel, by decide +kernel, by decide +kernel, by decide +kernel⟩,
    ⟨wPtpServo2.1, wPtpServo2.2.1, wPtpServo2.2.2.1, wPtpServo2.2.2.2.1, wPtpServo2.2.2.2.2.1, wPtpServo2.2.2.2.2.2, _, rfl, by decide +kernel, by decide +kernel, by decide +kernel⟩,
    ⟨wPtpServo3.1, wPtpServo3.2.1, wPtpServo3.2.2.1, wPtpServo3.2.2.2, _, rfl, by decide +kernel, by decide +kernel⟩⟩

/-- The hypotheses of PtpServo are met, clause by clause: part 2. -/
theorem witness_PtpServo_2 :
    (∃ (s : State) (t : Nat) (since : Nat) (m : Master) (c : Chip),
      c = s.chipAt t ∧ c.ready = true ∧ c.ptp.prefSince = some since ∧ since + sec 10 ≤ c.now ∧ c.bestMaster (c.rd PTP_CFG_PREF_PORT) = some m ∧ m.id < 2 ^ 64)
    ∧ (∃ (s : State) (t : Nat) (p : Fin 2) (offset : Int) (filtered : Int) (freq : Int) (mpd : Nat) (c : Chip),
      c = s.chipAt t ∧ c.ready = true ∧ p.val = c.rd PTP_SERVO_PORT ∧ ((c.servo = svAcquiring ∨ c.servo = svLocked ∨ c.servo = svJump)) ∧ c.on PTP_SERVO_EVER_LOCKED = false ∧ c.ptp.first.length = 7)
    ∧ (∃ (s : State) (t : Nat) (p : Fin 2) (offset : Int) (filtered : Int) (freq : Int) (mpd : Nat) (c : Chip),
      c = s.chipAt t ∧ c.ready = true ∧ p.val = c.rd PTP_SERVO_PORT ∧ ((c.servo = svAcquiring ∨ c.servo = svLocked ∨ c.servo = svJump)) ∧ c.on PTP_SERVO_EVER_LOCKED = true ∧ c.ptp.relock = true) :=
  ⟨⟨wPtpServo4.1, wPtpServo4.2.1, wPtpServo4.2.2.1, wPtpServo4.2.2.2, _, rfl, by decide +kernel, by decide +kernel, by decide +kernel, by decide +kernel, by decide +kernel⟩,
    ⟨wPtpServo5.1, wPtpServo5.2.1, wPtpServo5.2.2.1, wPtpServo5.2.2.2.1, wPtpServo5.2.2.2.2.1, wPtpServo5.2.2.2.2.2.1, wPtpServo5.2.2.2.2.2.2, _, rfl, by decide +kernel, by decide +kernel, by decide +kernel, by decide +kernel, by decide +kernel⟩,
    ⟨wPtpServo6.1, wPtpServo6.2.1, wPtpServo6.2.2.1, wPtpServo6.2.2.2.1, wPtpServo6.2.2.2.2.1, wPtpServo6.2.2.2.2.2.1, wPtpServo6.2.2.2.2.2.2, _, rfl, by decide +kernel, by decide +kernel, by decide +kernel, by decide +kernel, by decide +kernel⟩⟩

/-- The hypotheses of References are met, clause by clause: part 1. -/
theorem witness_References_1 :
    (∃ (s : State) (t : Nat) (ms : List RefMeas) (lo : Int) (k : Fin 5) (m : RefMeas) (c : Chip),
      c = s.chipAt t ∧ c.live = true ∧ c.rd (REF_CAND_STAT_STATE k.val) ≠ caOff ∧ ms[k.val]? = some m)
    ∧ (∃ (s : State) (t : Nat) (k : Fin 5) (noisy : Bool) (ms : List RefMeas) (c : Chip),
      c = s.chipAt t ∧ c.live = true ∧ caInactive < c.rd (REF_CAND_STAT_STATE k.val))
    ∧ (∃ (s : State) (t : Nat) (lo : Int) (c : Chip),
      c = s.chipAt t ∧ c.ready = true ∧ c.on REF_LO_CAL_VALID = false ∧ c.on REF_LO_PRESENT = true ∧ c.servo = svLocked ∧ c.ptp.lockedAt + sec 60 ≤ c.now)
    ∧ (∃ (s : State) (t : Nat) (k : Fin 5) (d : Int) (ms : List RefMeas) (c : Chip),
      c = s.chipAt t ∧ c.live = true ∧ c.rd (REF_CAND_STAT_STATE k.val) ≠ caOff ∧ d.natAbs ≤ 1000 ∧ (c.cand k.val).held = []) :=
  ⟨⟨wCandidates0.1, wCandidates0.2.1, wCandidates0.2.2.1, wCandidates0.2.2.2.1, wCandidates0.2.2.2.2.1, wCandidates0.2.2.2.2.2, _, rfl, by decide +kernel, by decide +kernel, by decide +kernel⟩,
    ⟨wCandidates1.1, wCandidates1.2.1, wCandidates1.2.2.1, wCandidates1.2.2.2.1, wCandidates1.2.2.2.2, _, rfl, by decide +kernel, by decide +kernel⟩,
    ⟨wCandidates2.1, wCandidates2.2.1, wCandidates2.2.2, _, rfl, by decide +kernel, by decide +kernel, by decide +kernel, by decide +kernel, by decide +kernel⟩,
    ⟨wCandidates3.1, wCandidates3.2.1, wCandidates3.2.2.1, wCandidates3.2.2.2.1, wCandidates3.2.2.2.2, _, rfl, by decide +kernel, by decide +kernel, by decide +kernel, by decide +kernel⟩⟩

/-- The hypotheses of References are met, clause by clause: part 2. -/
theorem witness_References_2 :
    (∃ (s : State) (t : Nat) (k : Fin 5) (d : Int) (ms : List RefMeas) (c : Chip),
      c = s.chipAt t ∧ c.live = true ∧ c.rd (REF_CAND_STAT_STATE k.val) ≠ caOff ∧ 1000 < d.natAbs ∧ (c.cand k.val).held.length < 3 ∧ (c.cand k.val).held.all (near100 d) = true ∧ (c.planesOf k.val).isEmpty = false)
    ∧ (∃ (s : State) (t : Nat) (q : Fin 2) (ms : List RefMeas) (k : Nat) (c : Chip),
      c = s.chipAt t ∧ c.live = true ∧ c.wantsRef q.val = some k ∧ c.followsRef = false)
    ∧ (∃ (s : State) (t : Nat) (q : Fin 2) (c : Chip),
      c = s.chipAt t ∧ c.live = true ∧ c.planeState q.val = 3 ∧ ((c.plane q.val).freq - (c.plane q.val).target).natAbs ≤ 10 * freqUnit.natAbs)
    ∧ (∃ (s : State) (t : Nat) (q : Fin 2) (delay : Nat) (c : Chip),
      c = s.chipAt t ∧ c.live = true ∧ c.planeState q.val = 1 ∧ (c.plane q.val).startAt + sec 12 ≤ c.now) :=
  ⟨⟨wCandidates4.1, wCandidates4.2.1, wCandidates4.2.2.1, wCandidates4.2.2.2.1, wCandidates4.2.2.2.2, _, rfl, by decide +kernel, by decide +kernel, by decide +kernel, by decide +kernel, by decide +kernel, by decide +kernel⟩,
    ⟨wPlaneSelections0.1, wPlaneSelections0.2.1, wPlaneSelections0.2.2.1, wPlaneSelections0.2.2.2.1, wPlaneSelections0.2.2.2.2, _, rfl, by decide +kernel, by decide +kernel, by decide +kernel⟩,
    ⟨wPlaneSelections1.1, wPlaneSelections1.2.1, wPlaneSelections1.2.2, _, rfl, by decide +kernel, by decide +kernel, by decide +kernel⟩,
    ⟨wPlaneSelections2.1, wPlaneSelections2.2.1, wPlaneSelections2.2.2.1, wPlaneSelections2.2.2.2, _, rfl, by decide +kernel, by decide +kernel, by decide +kernel⟩⟩

/-- The hypotheses of References are met, clause by clause: part 3. -/
theorem witness_References_3 :
    ∃ (s : State) (t : Nat) (k : Fin 5) (q : Fin 2) (d1 : Int) (d2 : Int) (d3 : Int) (c : Chip),
      c = s.chipAt t ∧ c.live = true ∧ (c.cand k.val).held = [d3, d2, d1] ∧ c.selected q.val = k.val ∧ ((c.planeState q.val = 2 ∨ c.planeState q.val = 3)) :=
  ⟨wPlaneSelections3.1, wPlaneSelections3.2.1, wPlaneSelections3.2.2.1, wPlaneSelections3.2.2.2.1, wPlaneSelections3.2.2.2.2.1, wPlaneSelections3.2.2.2.2.2.1, wPlaneSelections3.2.2.2.2.2.2, _, rfl, by decide +kernel, by decide +kernel, by decide +kernel, by decide +kernel⟩

/-- The hypotheses of Audio are met, clause by clause: part 1. -/
theorem witness_Audio_1 :
    (∃ (s : State) (t : Nat) (b : AudioBlock) (c : Chip),
      c = s.chipAt t ∧ c.live = true ∧ 48 ≤ c.aud.done ∧ c.engineOn = true ∧ c.aud.sapDue = [] ∧ ((∀ x ∈ c.sap, x.2.waits = false)) ∧ c.rd TWN_STATE_MODE ≠ 2)
    ∧ (∃ (s : State) (t : Nat) (b : AudioBlock) (c : Chip),
      c = s.chipAt t ∧ c.live = true ∧ 48 ≤ c.aud.done ∧ c.engineOn = false ∧ c.aud.sapDue = [] ∧ ((∀ x ∈ c.sap, x.2.waits = false)) ∧ c.fw.waits = [])
    ∧ (∃ (s : State) (t : Nat) (b : AudioBlock) (c : Chip),
      c = s.chipAt t ∧ c.live = true)
    ∧ (∃ (s : State) (t : Nat) (p : Fin 16) (bclk : Nat) (rx : List (Int × Int)) (tx : Nat) (c : Chip),
      c = s.chipAt t ∧ c.live = true ∧ c.sapRuns p.val = true) :=
  ⟨⟨wAudioBlocks0.1, wAudioBlocks0.2.1, wAudioBlocks0.2.2, _, rfl, by decide +kernel, by decide +kernel, by decide +kernel, by decide +kernel, by decide +kernel, by decide +kernel⟩,
    ⟨wAudioBlocks1.1, wAudioBlocks1.2.1, wAudioBlocks1.2.2, _, rfl, by decide +kernel, by decide +kernel, by decide +kernel, by decide +kernel, by decide +kernel, by decide +kernel⟩,
    ⟨wAudioBlocks2.1, wAudioBlocks2.2.1, wAudioBlocks2.2.2, _, rfl, by decide +kernel⟩,
    ⟨wSerialAudioPorts0.1, wSerialAudioPorts0.2.1, wSerialAudioPorts0.2.2.1, wSerialAudioPorts0.2.2.2.1, wSerialAudioPorts0.2.2.2.2.1, wSerialAudioPorts0.2.2.2.2.2, _, rfl, by decide +kernel, by decide +kernel⟩⟩

/-- The hypotheses of Audio are met, clause by clause: part 2. -/
theorem witness_Audio_2 :
    (∃ (s : State) (t : Nat) (p : Fin 16) (rate : Int) (c : Chip),
      c = s.chipAt t ∧ c.live = true ∧ c.sapRuns p.val = true ∧ c.on (SAP_PORT_CTL_MASTER p.val) = false ∧ (c.sapPort p.val).locked = false ∧ 64 ≤ (c.sapPort p.val).good ∧ rate.natAbs ≤ 500000)
    ∧ (∃ (s : State) (t : Nat) (p : Fin 16) (c : Chip),
      c = s.chipAt t ∧ c.live = true ∧ c.sapRuns p.val = true ∧ c.on (SAP_PORT_CTL_MASTER p.val) = false ∧ (c.sapPort p.val).locked = true ∧ 2 ≤ (c.sapPort p.val).bad)
    ∧ (∃ (s : State) (t : Nat) (p : Fin 16) (c : Chip),
      c = s.chipAt t ∧ c.live = true ∧ c.sapRuns p.val = true ∧ (c.sapPort p.val).slipRx = false ∧ 64 ≤ (c.sapPort p.val).rx.length)
    ∧ (∃ (s : State) (t : Nat) (p : Fin 16) (c : Chip),
      c = s.chipAt t ∧ c.live = true ∧ c.sapRuns p.val = true ∧ (c.sapPort p.val).slipRx = true ∧ (c.sapPort p.val).slipTx = false ∧ headIs (sub32 (c.stampNow + 1) (c.sapLat p.val)) (c.sapPort p.val).rx = true) :=
  ⟨⟨wSerialAudioPorts1.1, wSerialAudioPorts1.2.1, wSerialAudioPorts1.2.2.1, wSerialAudioPorts1.2.2.2, _, rfl, by decide +kernel, by decide +kernel, by decide +kernel, by decide +kernel, by decide +kernel, by decide +kernel⟩,
    ⟨wSerialAudioPorts2.1, wSerialAudioPorts2.2.1, wSerialAudioPorts2.2.2, _, rfl, by decide +kernel, by decide +kernel, by decide +kernel, by decide +kernel, by decide +kernel⟩,
    ⟨wSerialAudioPorts3.1, wSerialAudioPorts3.2.1, wSerialAudioPorts3.2.2, _, rfl, by decide +kernel, by decide +kernel, by decide +kernel, by decide +kernel⟩,
    ⟨wSerialAudioPorts4.1, wSerialAudioPorts4.2.1, wSerialAudioPorts4.2.2, _, rfl, by decide +kernel, by decide +kernel, by decide +kernel, by decide +kernel, by decide +kernel⟩⟩

/-- The hypotheses of Audio are met, clause by clause: part 3. -/
theorem witness_Audio_3 :
    ∃ (s : State) (t : Nat) (p : Fin 16) (c : Chip),
      c = s.chipAt t ∧ c.live = true ∧ c.sapRuns p.val = true ∧ (c.sapPort p.val).slipTx = false ∧ (c.sapPort p.val).txOn = true ∧ (c.sapPort p.val).tx = [] :=
  ⟨wSerialAudioPorts5.1, wSerialAudioPorts5.2.1, wSerialAudioPorts5.2.2, _, rfl, by decide +kernel, by decide +kernel, by decide +kernel, by decide +kernel, by decide +kernel⟩

/-- The hypotheses of Multiviewer are met, clause by clause. -/
theorem witness_Multiviewer :
    (∃ (s : State) (t : Nat) (h : Fin 4) (n : Nat) (c : Chip),
      c = s.chipAt t ∧ c.live = true ∧ c.on (MVC_HEAD_CTL_ENABLE h.val) = true ∧ (c.plane (c.rd (MVC_HEAD_CTL_PLANE h.val))).counted = true ∧ n = c.epochNow (c.rd (MVC_HEAD_CTL_PLANE h.val)) ∧ (c.head h.val).decided ≠ some n)
    ∧ (∃ (s : State) (t : Nat) (h : Fin 4) (l : Fin 4) (at_ : Nat) (c : Chip),
      c = s.chipAt t ∧ c.live = true ∧ c.on (MVC_HEAD_CTL_ENABLE h.val) = true ∧ ((c.head h.val).gl l.val).auto = some at_ ∧ c.on (MVC_GL_FENCE_LOADING h.val l.val) = false ∧ at_ + c.planePeriod (c.rd (MVC_HEAD_CTL_PLANE h.val)) ≤ (c.plane (c.rd (MVC_HEAD_CTL_PLANE h.val))).nextB)
    ∧ (∃ (s : State) (t : Nat) (h : Fin 4) (v : Fin 16) (n : Nat) (c : Chip),
      c = s.chipAt t ∧ c.live = true ∧ c.on (MVC_HEAD_CTL_ENABLE h.val) = true ∧ c.on (MVC_VL_CTL_ENABLE h.val v.val) = true ∧ ((c.head h.val).vl v.val).lost = some n ∧ c.rd (MVC_VL_STAT_SHOW h.val v.val) ≠ 2 ∧ c.rd (MVC_HEAD_CTL_LOSS_TIMEOUT h.val) ≤ sub32 (c.epochNow (c.rd (MVC_HEAD_CTL_PLANE h.val))) n)
    ∧ (∃ (s : State) (t : Nat) (h : Fin 4) (l : Fin 4) (px : List Nat) (w : Wait) (ws : List Nat) (c : Chip),
      c = s.chipAt t ∧ c.ready = true ∧ ((c.fw.waits.find? fun w => w.long == some .graphic && bits (w.req.w 0) 0 4 == h.val + 4 * l.val) = some w) ∧ ((c.head h.val).gl l.val).load = some ws ∧ w.plan.after = .none) :=
  ⟨⟨wMultiviewer0.1, wMultiviewer0.2.1, wMultiviewer0.2.2.1, wMultiviewer0.2.2.2, _, rfl, by decide +kernel, by decide +kernel, by decide +kernel, by decide +kernel, by decide +kernel⟩,
    ⟨wMultiviewer1.1, wMultiviewer1.2.1, wMultiviewer1.2.2.1, wMultiviewer1.2.2.2.1, wMultiviewer1.2.2.2.2, _, rfl, by decide +kernel, by decide +kernel, by decide +kernel, by decide +kernel, by decide +kernel⟩,
    ⟨wMultiviewer2.1, wMultiviewer2.2.1, wMultiviewer2.2.2.1, wMultiviewer2.2.2.2.1, wMultiviewer2.2.2.2.2, _, rfl, by decide +kernel, by decide +kernel, by decide +kernel, by decide +kernel, by decide +kernel, by decide +kernel⟩,
    ⟨wMultiviewer3.1, wMultiviewer3.2.1, wMultiviewer3.2.2.1, wMultiviewer3.2.2.2.1, wMultiviewer3.2.2.2.2.1, wMultiviewer3.2.2.2.2.2.1, wMultiviewer3.2.2.2.2.2.2, _, rfl, by decide +kernel, by decide +kernel, by decide +kernel, by decide +kernel⟩⟩

/-- The hypotheses of TwinModes are met, clause by clause: part 1. -/
theorem witness_TwinModes_1 :
    (∃ (s : State) (t : Nat) (peerIn : Bool) (c : Chip),
      c = s.chipAt t ∧ c.live = true ∧ c.on TWN_CFG_ENABLE = true ∧ c.twn.decided = false ∧ c.rd TWN_STATE_MODE = 0 ∧ c.fw.cfgLoaded = true ∧ (c.plane 0).left = true)
    ∧ (∃ (s : State) (t : Nat) (peerIn : Bool) (at_ : Nat) (c : Chip),
      c = s.chipAt t ∧ c.live = true ∧ c.twn.waitAt = some at_ ∧ at_ + sec 2 ≤ c.now)
    ∧ (∃ (s : State) (t : Nat) (c : Chip),
      c = s.chipAt t ∧ c.live = true ∧ c.on TWN_STATE_ACTIVE_OUT = true ∧ c.on TWN_STATE_HANDOVER_PENDING = false)
    ∧ (∃ (s : State) (t : Nat) (peerIn : Bool) (c : Chip),
      c = s.chipAt t ∧ c.live = true ∧ c.on TWN_CFG_ENABLE = true) :=
  ⟨⟨wTwinModes0.1, wTwinModes0.2.1, wTwinModes0.2.2, _, rfl, by decide +kernel, by decide +kernel, by decide +kernel, by decide +kernel, by decide +kernel, by decide +kernel⟩,
    ⟨wTwinModes1.1, wTwinModes1.2.1, wTwinModes1.2.2.1, wTwinModes1.2.2.2, _, rfl, by decide +kernel, by decide +kernel, by decide +kernel⟩,
    ⟨wTwinModes2.1, wTwinModes2.2, _, rfl, by decide +kernel, by decide +kernel, by decide +kernel⟩,
    ⟨wTwinModes3.1, wTwinModes3.2.1, wTwinModes3.2.2, _, rfl, by decide +kernel, by decide +kernel⟩⟩

/-- The hypotheses of TwinModes are met, clause by clause: part 2. -/
theorem witness_TwinModes_2 :
    (∃ (s : State) (t : Nat) (mseq : Nat) (role : BitVec 2) (unit : BitVec 1) (mode : BitVec 2) (phase : BitVec 3) (version : BitVec 8) (schema : Nat) (c : Chip),
      c = s.chipAt t ∧ c.live = true ∧ c.on TWN_CFG_ENABLE = true ∧ ((c.on TWN_PEER_PRESENT = false ∨ c.hears 1 mseq = true)))
    ∧ (∃ (s : State) (t : Nat) (c : Chip),
      c = s.chipAt t ∧ c.live = true ∧ c.on TWN_PEER_PRESENT = true ∧ c.twn.helloAt + ms 10 ≤ c.now) :=
  ⟨⟨wTwinModes4.1, wTwinModes4.2.1, wTwinModes4.2.2.1, wTwinModes4.2.2.2.1, wTwinModes4.2.2.2.2.1, wTwinModes4.2.2.2.2.2.1, wTwinModes4.2.2.2.2.2.2.1, wTwinModes4.2.2.2.2.2.2.2.1, wTwinModes4.2.2.2.2.2.2.2.2, _, rfl, by decide +kernel, by decide +kernel, by decide +kernel⟩,
    ⟨wTwinModes5.1, wTwinModes5.2, _, rfl, by decide +kernel, by decide +kernel, by decide +kernel⟩⟩

/-- The hypotheses of TwinForwards are met, clause by clause: part 1. -/
theorem witness_TwinForwards_1 :
    (∃ (s : State) (t : Nat) (mseq : Nat) (m : TwinCommand) (c : Chip),
      c = s.chipAt t ∧ c.live = true ∧ c.bus.outs = [] ∧ c.hears 1 mseq = true ∧ c.rd TWN_STATE_MODE = 2 ∧ 2 ≤ c.rd TWN_STATE_PHASE ∧ c.ready = false ∧ c.twn.held.length < 256)
    ∧ (∃ (s : State) (t : Nat) (mseq : Nat) (m : TwinCommand) (c : Chip),
      c = s.chipAt t ∧ c.bus.outs = [] ∧ c.hears 1 mseq = true ∧ c.rd TWN_STATE_MODE = 2 ∧ 3 ≤ c.rd TWN_STATE_PHASE ∧ c.ready = true ∧ c.mramHeld = false ∧ c.twn.image = none ∧ c.twn.held = [] ∧ m.fwdSeq = (c.get TWN_FWD_SEQ + 1) % 2 ^ 32 ∧ m.req.opcode = anchorOp ∧ m.req.w 0 < 2)
    ∧ (∃ (s : State) (t : Nat) (mseq : Nat) (n : Nat) (w : Wait) (c : Chip),
      c = s.chipAt t ∧ s.Inv ∧ c.bus.outs = [] ∧ c.hears 1 mseq = true ∧ c.ready = true ∧ c.fw.waits = [w] ∧ w.ack = some n ∧ w.journal = false ∧ w.peer = false ∧ w.long = none ∧ w.hand = false ∧ w.plan.after = .none ∧ w.req.chan < 16 ∧ w.plan.resp.payload.length ≤ 1020 ∧ ((c.fw.order.all fun o => o.1 != w.req.chan) = true))
    ∧ (∃ (s : State) (t : Nat) (mseq : Nat) (h : Nat) (cause : Nat) (ok : Bool) (c : Chip),
      c = s.chipAt t ∧ c.live = true ∧ c.bus.outs = [] ∧ c.hears 1 mseq = true ∧ c.rd TWN_STATE_MODE = 1 ∧ c.twn.handover = some (h, cause, ok) ∧ c.fw.waits = []) :=
  ⟨⟨wTwinForwards0.1, wTwinForwards0.2.1, wTwinForwards0.2.2.1, wTwinForwards0.2.2.2, _, rfl, by decide +kernel, by decide +kernel, by decide +kernel, by decide +kernel, by decide +kernel, by decide +kernel, by decide +kernel⟩,
    ⟨wTwinForwards1.1, wTwinForwards1.2.1, wTwinForwards1.2.2.1, wTwinForwards1.2.2.2, _, rfl, by decide +kernel, by decide +kernel, by decide +kernel, by decide +kernel, by decide +kernel, by decide +kernel, by decide +kernel, by decide +kernel, by decide +kernel, by decide +kernel, by decide +kernel⟩,
    ⟨wTwinForwards2.1, wTwinForwards2.2.1, wTwinForwards2.2.2.1, wTwinForwards2.2.2.2.1, wTwinForwards2.2.2.2.2, _, rfl, inv_of (by decide +kernel), by decide +kernel, by decide +kernel, by decide +kernel, by decide +kernel, by decide +kernel, by decide +kernel, by decide +kernel, by decide +kernel, by decide +kernel, by decide +kernel, by decide +kernel, by decide +kernel, by decide +kernel⟩,
    ⟨wTwinForwards3.1, wTwinForwards3.2.1, wTwinForwards3.2.2.1, wTwinForwards3.2.2.2.1, wTwinForwards3.2.2.2.2.1, wTwinForwards3.2.2.2.2.2, _, rfl, by decide +kernel, by decide +kernel, by decide +kernel, by decide +kernel, by decide +kernel, by decide +kernel⟩⟩

/-- The hypotheses of TwinForwards are met, clause by clause: part 2. -/
theorem witness_TwinForwards_2 :
    (∃ (s : State) (t : Nat) (n : Nat) (w : Wait) (c : Chip),
      c = s.chipAt t ∧ c.bus.outs = [] ∧ c.ready = true ∧ c.fw.waits = [w] ∧ w.ack = some n ∧ w.plan.after = .none)
    ∧ (∃ (s : State) (t : Nat) (mseq : Nat) (x : Fin 332) (prom : Bool) (adv : Nat) (c : Chip),
      c = s.chipAt t ∧ c.live = true ∧ c.bus.outs = [] ∧ c.hears 0 mseq = true ∧ c.rd TWN_STATE_MODE = 2)
    ∧ (∃ (s : State) (t : Nat) (mseq : Nat) (q : Fin 2) (k : Fin 5) (c : Chip),
      c = s.chipAt t ∧ c.live = true ∧ c.bus.outs = [] ∧ c.hears 0 mseq = true ∧ c.rd TWN_STATE_MODE = 2 ∧ 2 ≤ c.planeState q.val ∧ c.selected q.val ≠ k.val ∧ (c.qualified q.val).contains k.val = true)
    ∧ (∃ (s : State) (t : Nat) (mseq : Nat) (b : Nat) (r : Int) (c : Chip),
      c = s.chipAt t ∧ c.live = true ∧ c.bus.outs = [] ∧ c.hears 0 mseq = true ∧ c.rd TWN_STATE_MODE = 2) :=
  ⟨⟨wTwinForwards4.1, wTwinForwards4.2.1, wTwinForwards4.2.2.1, wTwinForwards4.2.2.2, _, rfl, by decide +kernel, by decide +kernel, by decide +kernel, by decide +kernel, by decide +kernel⟩,
    ⟨wTwinForwards5.1, wTwinForwards5.2.1, wTwinForwards5.2.2.1, wTwinForwards5.2.2.2.1, wTwinForwards5.2.2.2.2.1, wTwinForwards5.2.2.2.2.2, _, rfl, by decide +kernel, by decide +kernel, by decide +kernel, by decide +kernel⟩,
    ⟨wTwinForwards6.1, wTwinForwards6.2.1, wTwinForwards6.2.2.1, wTwinForwards6.2.2.2.1, wTwinForwards6.2.2.2.2, _, rfl, by decide +kernel, by decide +kernel, by decide +kernel, by decide +kernel, by decide +kernel, by decide +kernel, by decide +kernel⟩,
    ⟨wTwinForwards7.1, wTwinForwards7.2.1, wTwinForwards7.2.2.1, wTwinForwards7.2.2.2.1, wTwinForwards7.2.2.2.2, _, rfl, by decide +kernel, by decide +kernel, by decide +kernel, by decide +kernel⟩⟩

/-- The hypotheses of TwinForwards are met, clause by clause: part 3. -/
theorem witness_TwinForwards_3 :
    (∃ (s : State) (t : Nat) (mseq : Nat) (h : Fin 4) (d : HeadDec) (c : Chip),
      c = s.chipAt t ∧ c.live = true ∧ c.bus.outs = [] ∧ c.hears 0 mseq = true ∧ c.rd TWN_STATE_MODE = 2)
    ∧ (∃ (s : State) (t : Nat) (k : Fin 3) (m : Nat) (at_ : Nat) (c : Chip),
      c = s.chipAt t ∧ c.live = true ∧ ((((c.twn.rx.getD k.val (0, [])).2.find? fun e => e.2 + ms 1 ≤ c.now) = some (m, at_)))) :=
  ⟨⟨wTwinForwards8.1, wTwinForwards8.2.1, wTwinForwards8.2.2.1, wTwinForwards8.2.2.2.1, wTwinForwards8.2.2.2.2, _, rfl, by decide +kernel, by decide +kernel, by decide +kernel, by decide +kernel⟩,
    ⟨wTwinForwards9.1, wTwinForwards9.2.1, wTwinForwards9.2.2.1, wTwinForwards9.2.2.2.1, wTwinForwards9.2.2.2.2, _, rfl, by decide +kernel, by decide +kernel⟩⟩

/-- The hypotheses of TwinCompares are met, clause by clause: part 1. -/
theorem witness_TwinCompares_1 :
    (∃ (s : State) (t : Nat) (mseq : Nat) (q : Fin 2) (e : Nat) (m : List Nat) (c : Chip),
      c = s.chipAt t ∧ c.live = true ∧ c.bus.outs = [] ∧ c.hears 1 mseq = true ∧ c.rd TWN_STATE_MODE = 1)
    ∧ (∃ (s : State) (t : Nat) (q : Fin 2) (crcs : List (Nat × Nat)) (e : Nat) (m : List Nat) (aud : Nat) (kept : List (Nat × Nat)) (c : Chip),
      c = s.chipAt t ∧ c.live = true ∧ c.twnCompares = true ∧ (c.plane q.val).counted = true ∧ e = sub32 (c.epochNow q.val) 1 ∧ (c.twnRec q.val e).own = none ∧ (c.twnRec q.val e).outcome = none ∧ (c.twnRec q.val e).mask = some m ∧ aud = (if q.val = c.enginePlane then (c.twn.audCrcs.lookup e).getD 0 else 0) ∧ (kept = (crcs.filter fun x => dstOffered c.role x.1 && c.dstPlane x.1 == q.val && !(m.contains x.1)).map (fun x => (x.1, x.2 % 2 ^ 64))))
    ∧ (∃ (s : State) (t : Nat) (mseq : Nat) (q : Fin 2) (e : Nat) (w : List Nat) (m : List Nat) (c : Chip),
      c = s.chipAt t ∧ c.live = true ∧ c.bus.outs = [] ∧ c.hears 1 mseq = true ∧ c.twnCompares = true ∧ (c.twnRec q.val e).own = some w ∧ (c.twnRec q.val e).outcome = none ∧ (c.twnRec q.val e).mask = some m)
    ∧ (∃ (s : State) (t : Nat) (q : Fin 2) (e : Nat) (w : List Nat) (c : Chip),
      c = s.chipAt t ∧ c.live = true ∧ c.twnCompares = true ∧ (c.twnRec q.val e).own = some w ∧ (c.twnRec q.val e).outcome = none ∧ (c.twnRec q.val e).peer = none ∧ (c.twnRec q.val e).ownAt + ms 2 ≤ c.now ∧ (c.twnRec q.val e).plane = q.val ∧ (c.twnRec q.val e).epoch = e) :=
  ⟨⟨wTwinCompares0.1, wTwinCompares0.2.1, wTwinCompares0.2.2.1, wTwinCompares0.2.2.2.1, wTwinCompares0.2.2.2.2.1, wTwinCompares0.2.2.2.2.2, _, rfl, by decide +kernel, by decide +kernel, by decide +kernel, by decide +kernel⟩,
    ⟨wTwinCompares1.1, wTwinCompares1.2.1, wTwinCompares1.2.2.1, wTwinCompares1.2.2.2.1, wTwinCompares1.2.2.2.2.1, wTwinCompares1.2.2.2.2.2.1, wTwinCompares1.2.2.2.2.2.2.1, wTwinCompares1.2.2.2.2.2.2.2, _, rfl, by decide +kernel, by decide +kernel, by decide +kernel, by decide +kernel, by decide +kernel, by decide +kernel, by decide +kernel, by decide +kernel, by decide +kernel⟩,
    ⟨wTwinCompares2.1, wTwinCompares2.2.1, wTwinCompares2.2.2.1, wTwinCompares2.2.2.2.1, wTwinCompares2.2.2.2.2.1, wTwinCompares2.2.2.2.2.2.1, wTwinCompares2.2.2.2.2.2.2, _, rfl, by decide +kernel, by decide +kernel, by decide +kernel, by decide +kernel, by decide +kernel, by decide +kernel, by decide +kernel⟩,
    ⟨wTwinCompares3.1, wTwinCompares3.2.1, wTwinCompares3.2.2.1, wTwinCompares3.2.2.2.1, wTwinCompares3.2.2.2.2, _, rfl, by decide +kernel, by decide +kernel, by decide +kernel, by decide +kernel, by decide +kernel, by decide +kernel, by decide +kernel, by decide +kernel⟩⟩

/-- The hypotheses of TwinCompares are met, clause by clause: part 2. -/
theorem witness_TwinCompares_2 :
    (∃ (s : State) (t : Nat) (mseq : Nat) (q : Fin 2) (e : Nat) (crcs : List (Nat × Nat)) (c : Chip),
      c = s.chipAt t ∧ c.live = true ∧ c.bus.outs = [] ∧ c.hears 1 mseq = true ∧ c.twnCompares = true)
    ∧ (∃ (s : State) (t : Nat) (mseq : Nat) (q : Fin 2) (e : Nat) (recs : List Evid) (diag : Nat) (c : Chip),
      c = s.chipAt t ∧ c.live = true ∧ c.bus.outs = [] ∧ c.hears 1 mseq = true ∧ c.twnCompares = true)
    ∧ (∃ (s : State) (t : Nat) (q : Fin 2) (c : Chip),
      c = s.chipAt t ∧ c.live = true ∧ c.rd TWN_STATE_MODE = 2 ∧ c.rd TWN_STATE_PHASE ≠ 7 ∧ 64 ≤ c.twn.noMatch.getD q.val 0)
    ∧ (∃ (s : State) (t : Nat) (mseq : Nat) (q : Fin 2) (e : Nat) (w : List Nat) (own : List Nat) (c : Chip),
      c = s.chipAt t ∧ c.live = true ∧ c.bus.outs = [] ∧ c.hears 1 mseq = true ∧ c.twnCompares = true ∧ (c.twnRec q.val e).own = some own ∧ own ≠ w ∧ (c.twnRec q.val e).outcome = none) :=
  ⟨⟨wTwinCompares4.1, wTwinCompares4.2.1, wTwinCompares4.2.2.1, wTwinCompares4.2.2.2.1, wTwinCompares4.2.2.2.2.1, wTwinCompares4.2.2.2.2.2, _, rfl, by decide +kernel, by decide +kernel, by decide +kernel, by decide +kernel⟩,
    ⟨wTwinCompares5.1, wTwinCompares5.2.1, wTwinCompares5.2.2.1, wTwinCompares5.2.2.2.1, wTwinCompares5.2.2.2.2.1, wTwinCompares5.2.2.2.2.2.1, wTwinCompares5.2.2.2.2.2.2, _, rfl, by decide +kernel, by decide +kernel, by decide +kernel, by decide +kernel⟩,
    ⟨wTwinCompares6.1, wTwinCompares6.2.1, wTwinCompares6.2.2, _, rfl, by decide +kernel, by decide +kernel, by decide +kernel, by decide +kernel⟩,
    ⟨wTwinCompares7.1, wTwinCompares7.2.1, wTwinCompares7.2.2.1, wTwinCompares7.2.2.2.1, wTwinCompares7.2.2.2.2.1, wTwinCompares7.2.2.2.2.2.1, wTwinCompares7.2.2.2.2.2.2, _, rfl, by decide +kernel, by decide +kernel, by decide +kernel, by decide +kernel, by decide +kernel, by decide +kernel, by decide +kernel⟩⟩

/-- The hypotheses of TwinHandovers are met, clause by clause: part 1. -/
theorem witness_TwinHandovers_1 :
    (∃ (s : State) (t : Nat) (b : Fin 5) (c : Chip),
      c = s.chipAt t ∧ c.live = true ∧ bit (c.get TWN_DIAG) b.val = false)
    ∧ (∃ (s : State) (t : Nat) (c : Chip),
      c = s.chipAt t ∧ c.live = true ∧ c.on TWN_STATE_PEER_IN = true ∧ c.on TWN_CFG_ENABLE = true)
    ∧ (∃ (s : State) (t : Nat) (c : Chip),
      c = s.chipAt t ∧ c.live = true ∧ c.rd TWN_STATE_MODE = 2 ∧ c.twn.paired = true ∧ c.twn.blockAt + ms 10 ≤ c.now)
    ∧ (∃ (s : State) (t : Nat) (mseq : Nat) (h : Nat) (cause : Nat) (c : Chip),
      c = s.chipAt t ∧ c.live = true ∧ c.bus.outs = [] ∧ c.hears 1 mseq = true ∧ c.rd TWN_STATE_MODE = 2) :=
  ⟨⟨wTwinHandovers0.1, wTwinHandovers0.2.1, wTwinHandovers0.2.2, _, rfl, by decide +kernel, by decide +kernel⟩,
    ⟨wTwinHandovers1.1, wTwinHandovers1.2, _, rfl, by decide +kernel, by decide +kernel, by decide +kernel⟩,
    ⟨wTwinHandovers2.1, wTwinHandovers2.2, _, rfl, by decide +kernel, by decide +kernel, by decide +kernel, by decide +kernel⟩,
    ⟨wTwinHandovers3.1, wTwinHandovers3.2.1, wTwinHandovers3.2.2.1, wTwinHandovers3.2.2.2.1, wTwinHandovers3.2.2.2.2, _, rfl, by decide +kernel, by decide +kernel, by decide +kernel, by decide +kernel⟩⟩

/-- The hypotheses of TwinHandovers are met, clause by clause: part 2. -/
theorem witness_TwinHandovers_2 :
    (∃ (s : State) (t : Nat) (cause : Nat) (ok : Bool) (c : Chip),
      c = s.chipAt t ∧ c.live = true ∧ c.fw.waits = [] ∧ c.twn.handover = some (c.epochNow 0, cause, ok))
    ∧ (∃ (s : State) (t : Nat) (c : Chip),
      c = s.chipAt t ∧ c.live = true ∧ c.fw.waits = [] ∧ c.twn.handover = none ∧ c.twn.toActive = true)
    ∧ (∃ (s : State) (t : Nat) (c : Chip),
      c = s.chipAt t ∧ c.live = true ∧ c.rd TWN_STATE_MODE = 2 ∧ c.rd TWN_STATE_PHASE = 6 ∧ c.ready = false ∧ ((c.twn.held.any fun h => (h.1.epoch0 != 0 && c.reached 0 h.1.epoch0) || (h.1.epoch1 != 0 && c.reached 1 h.1.epoch1)) = true))
    ∧ (∃ (s : State) (t : Nat) (c : Chip),
      c = s.chipAt t ∧ c.ready = true ∧ c.twn.coldDue = true) :=
  ⟨⟨wTwinHandovers4.1, wTwinHandovers4.2.1, wTwinHandovers4.2.2.1, wTwinHandovers4.2.2.2, _, rfl, by decide +kernel, by decide +kernel, by decide +kernel⟩,
    ⟨wTwinHandovers5.1, wTwinHandovers5.2, _, rfl, by decide +kernel, by decide +kernel, by decide +kernel, by decide +kernel⟩,
    ⟨wTwinHandovers6.1, wTwinHandovers6.2, _, rfl, by decide +kernel, by decide +kernel, by decide +kernel, by decide +kernel, by decide +kernel⟩,
    ⟨wTwinHandovers7.1, wTwinHandovers7.2, _, rfl, by decide +kernel, by decide +kernel⟩⟩

/-- The hypotheses of TwinCopies are met, clause by clause: part 1. -/
theorem witness_TwinCopies_1 :
    (∃ (s : State) (t : Nat) (mseq : Nat) (cause : Nat) (c : Chip),
      c = s.chipAt t ∧ c.live = true ∧ c.bus.outs = [] ∧ c.hears 1 mseq = true ∧ c.rd TWN_STATE_MODE = 1)
    ∧ (∃ (s : State) (t : Nat) (mseq : Nat) (i : ConfigImage) (c : Chip),
      c = s.chipAt t ∧ c.live = true ∧ c.bus.outs = [] ∧ c.hears 2 mseq = true ∧ c.rd TWN_STATE_MODE = 2 ∧ c.rd TWN_STATE_PHASE = 2)
    ∧ (∃ (s : State) (t : Nat) (mseq : Nat) (h : Fin 4) (l : Fin 4) (b : Fin 2) (px : List (Nat × Nat)) (c : Chip),
      c = s.chipAt t ∧ c.live = true ∧ c.bus.outs = [] ∧ c.hears 2 mseq = true ∧ c.rd TWN_STATE_MODE = 2 ∧ 2 ≤ c.rd TWN_STATE_PHASE ∧ c.rd TWN_STATE_PHASE ≤ 6)
    ∧ (∃ (s : State) (t : Nat) (mseq : Nat) (i : AudImage) (c : Chip),
      c = s.chipAt t ∧ c.live = true ∧ c.bus.outs = [] ∧ c.hears 2 mseq = true ∧ c.rd TWN_STATE_MODE = 2 ∧ ((c.rd TWN_STATE_PHASE = 3 ∨ c.rd TWN_STATE_PHASE = 4))) :=
  ⟨⟨wTwinCopies0.1, wTwinCopies0.2.1, wTwinCopies0.2.2.1, wTwinCopies0.2.2.2, _, rfl, by decide +kernel, by decide +kernel, by decide +kernel, by decide +kernel⟩,
    ⟨wTwinCopies1.1, wTwinCopies1.2.1, wTwinCopies1.2.2.1, wTwinCopies1.2.2.2, _, rfl, by decide +kernel, by decide +kernel, by decide +kernel, by decide +kernel, by decide +kernel⟩,
    ⟨wTwinCopies2.1, wTwinCopies2.2.1, wTwinCopies2.2.2.1, wTwinCopies2.2.2.2.1, wTwinCopies2.2.2.2.2.1, wTwinCopies2.2.2.2.2.2.1, wTwinCopies2.2.2.2.2.2.2, _, rfl, by decide +kernel, by decide +kernel, by decide +kernel, by decide +kernel, by decide +kernel, by decide +kernel⟩,
    ⟨wTwinCopies3.1, wTwinCopies3.2.1, wTwinCopies3.2.2.1, wTwinCopies3.2.2.2, _, rfl, by decide +kernel, by decide +kernel, by decide +kernel, by decide +kernel, by decide +kernel⟩⟩

/-- The hypotheses of TwinCopies are met, clause by clause: part 2. -/
theorem witness_TwinCopies_2 :
    (∃ (s : State) (t : Nat) (at_ : Nat) (conv : Bool) (i : ConfigImage) (c : Chip),
      c = s.chipAt t ∧ c.ready = true ∧ c.mramHeld = false ∧ c.rd TWN_STATE_MODE = 2 ∧ c.rd TWN_STATE_PHASE = 2 ∧ c.twn.staged = some (i, at_) ∧ (((c.imageChanges i).all fun x => x.kind.loadsLater false) = true))
    ∧ (∃ (s : State) (t : Nat) (c : Chip),
      c = s.chipAt t ∧ c.live = true ∧ c.rd TWN_STATE_MODE = 2 ∧ c.rd TWN_STATE_PHASE = 4) :=
  ⟨⟨wTwinCopies4.1, wTwinCopies4.2.1, wTwinCopies4.2.2.1, wTwinCopies4.2.2.2.1, wTwinCopies4.2.2.2.2, _, rfl, by decide +kernel, by decide +kernel, by decide +kernel, by decide +kernel, by decide +kernel, by decide +kernel⟩,
    ⟨wTwinCopies5.1, wTwinCopies5.2, _, rfl, by decide +kernel, by decide +kernel, by decide +kernel⟩⟩

/-- The hypotheses of BusAccesses are met, clause by clause: part 1. -/
theorem witness_BusAccesses_1 :
    (∃ (s : State) (t : Nat) (a : BusAcc) (kind : Nat) (c : Chip),
      c = s.chipAt t ∧ c.live = true ∧ c.bus.outs = [] ∧ c.bus.locks = [] ∧ c.busAccepts a = true ∧ c.aptHangs a = false ∧ c.busKind a false = kind ∧ kind ≠ 0)
    ∧ (∃ (s : State) (t : Nat) (a : BusAcc) (c : Chip),
      c = s.chipAt t ∧ s.Inv ∧ c.live = true ∧ c.bus.outs = [] ∧ c.bus.locks = [] ∧ c.busAccepts a = true ∧ c.busKind a false = 0 ∧ c.aptHangs a = false ∧ busRegion a.addr ∈ [some 2, some 3, some 4, some 6, some 7] ∧ a.write = false)
    ∧ (∃ (s : State) (t : Nat) (a : BusAcc) (c : Chip),
      c = s.chipAt t ∧ s.Inv ∧ c.live = true ∧ c.bus.outs = [] ∧ c.bus.locks = [] ∧ c.bus.broken = [] ∧ c.busAccepts a = true ∧ c.busKind a false = 0 ∧ busRegion a.addr ∈ [some 3, some 4, some 7] ∧ a.write = true ∧ a.data.length = a.len)
    ∧ (∃ (s : State) (t : Nat) (a : BusAcc) (c : Chip),
      c = s.chipAt t ∧ c.live = true ∧ c.bus.outs = [] ∧ c.bus.locks = [] ∧ c.busAccepts a = true ∧ c.busKind a false = 0 ∧ busRegion a.addr = some 0 ∧ a.write = false) :=
  ⟨⟨wBusAccesses0.1, wBusAccesses0.2.1, wBusAccesses0.2.2.1, wBusAccesses0.2.2.2, _, rfl, by decide +kernel, by decide +kernel, by decide +kernel, by decide +kernel, by decide +kernel, by decide +kernel, by decide +kernel⟩,
    ⟨wBusAccesses1.1, wBusAccesses1.2.1, wBusAccesses1.2.2, _, rfl, inv_of (by decide +kernel), by decide +kernel, by decide +kernel, by decide +kernel, by decide +kernel, by decide +kernel, by decide +kernel, by decide +kernel, by decide +kernel⟩,
    ⟨wBusAccesses2.1, wBusAccesses2.2.1, wBusAccesses2.2.2, _, rfl, inv_of (by decide +kernel), by decide +kernel, by decide +kernel, by decide +kernel, by decide +kernel, by decide +kernel, by decide +kernel, by decide +kernel, by decide +kernel, by decide +kernel⟩,
    ⟨wBusAccesses3.1, wBusAccesses3.2.1, wBusAccesses3.2.2, _, rfl, by decide +kernel, by decide +kernel, by decide +kernel, by decide +kernel, by decide +kernel, by decide +kernel, by decide +kernel⟩⟩

/-- The hypotheses of BusAccesses are met, clause by clause: part 2. -/
theorem witness_BusAccesses_2 :
    (∃ (s : State) (t : Nat) (a : BusAcc) (c : Chip),
      c = s.chipAt t ∧ c.live = true ∧ c.busAccepts a = true ∧ c.bus.outs = [] ∧ c.aptHangs a = true)
    ∧ (∃ (s : State) (t : Nat) (a : BusAcc) (r : Nat) (c : Chip),
      c = s.chipAt t ∧ s.Inv ∧ c.live = true ∧ c.bus.outs = [] ∧ c.bus.locks = [] ∧ c.busAccepts a = true ∧ a.write = false ∧ busRegion a.addr = some r ∧ c.busKind a true = 0) :=
  ⟨⟨wBusAccesses4.1, wBusAccesses4.2.1, wBusAccesses4.2.2, _, rfl, by decide +kernel, by decide +kernel, by decide +kernel, by decide +kernel⟩,
    ⟨wBusAccesses5.1, wBusAccesses5.2.1, wBusAccesses5.2.2.1, wBusAccesses5.2.2.2, _, rfl, inv_of (by decide +kernel), by decide +kernel, by decide +kernel, by decide +kernel, by decide +kernel, by decide +kernel, by decide +kernel, by decide +kernel⟩⟩

/-- The hypotheses of BusAndCounters are met, clause by clause: part 1. -/
theorem witness_BusAndCounters_1 :
    (∃ (s : State) (t : Nat) (m : Fin 10) (id : Fin 16) (o : BusOut) (c : Chip),
      c = s.chipAt t ∧ c.live = true ∧ c.bus.outs = [o] ∧ o.acc.m = m.val ∧ o.acc.id = id.val ∧ o.at_ + us 999 ≤ c.now)
    ∧ (∃ (s : State) (t : Nat) (g : Fin 2) (l : BusLock) (c : Chip),
      c = s.chipAt t ∧ c.live = true ∧ c.bus.outs = [] ∧ c.bus.locks = [l] ∧ l.target = (if g.val = 0 then 4 else 7) ∧ l.since + us 2 ≤ c.now)
    ∧ (∃ (s : State) (t : Nat) (g : Fin 2) (o : BusOut) (c : Chip),
      c = s.chipAt t ∧ c.live = true ∧ c.bus.outs = [o] ∧ o.acc.m = 5 + g.val)
    ∧ (∃ (s : State) (t : Nat) (c : Chip),
      c = s.chipAt t ∧ c.live = true) :=
  ⟨⟨wBusWatchdogs0.1, wBusWatchdogs0.2.1, wBusWatchdogs0.2.2.1, wBusWatchdogs0.2.2.2.1, wBusWatchdogs0.2.2.2.2, _, rfl, by decide +kernel, by decide +kernel, by decide +kernel, by decide +kernel, by decide +kernel⟩,
    ⟨wBusWatchdogs1.1, wBusWatchdogs1.2.1, wBusWatchdogs1.2.2.1, wBusWatchdogs1.2.2.2, _, rfl, by decide +kernel, by decide +kernel, by decide +kernel, by decide +kernel, by decide +kernel⟩,
    ⟨wBusWatchdogs2.1, wBusWatchdogs2.2.1, wBusWatchdogs2.2.2.1, wBusWatchdogs2.2.2.2, _, rfl, by decide +kernel, by decide +kernel, by decide +kernel⟩,
    ⟨wBusWatchdogs3.1, wBusWatchdogs3.2, _, rfl, by decide +kernel⟩⟩

/-- The hypotheses of BusAndCounters are met, clause by clause: part 2. -/
theorem witness_BusAndCounters_2 :
    (∃ (s : State) (t : Nat) (user : Bool) (freeze : Bool) (c : Chip),
      c = s.chipAt t ∧ c.live = true)
    ∧ (∃ (s : State) (t : Nat) (core : Fin 4) (k : Fin 9) (c : Chip),
      c = s.chipAt t ∧ c.live = true ∧ c.pmcRuns = true ∧ ((k.val = 8 ∨ selCounts (c.get (PMC_EVSEL core.val k.val)) = true)))
    ∧ (∃ (s : State) (t : Nat) (core : Fin 4) (addr : Word) (data : Word) (lat : Nat) (n : Nat) (kind : Fin 3) (user : Bool) (err : Bool) (c : Chip),
      c = s.chipAt t ∧ c.live = true ∧ c.on (PMC_SMP_CTL_ENABLE core.val) = true ∧ c.rd (PMC_SMP_CTL_KIND core.val) = kind.val ∧ c.rd (PMC_SMP_STAT_FILL core.val) = n ∧ n < 256)
    ∧ (∃ (s : State) (t : Nat) (core : Fin 4) (addr : Word) (data : Word) (lat : Nat) (kind : Fin 3) (user : Bool) (err : Bool) (c : Chip),
      c = s.chipAt t ∧ c.live = true ∧ c.on (PMC_SMP_CTL_ENABLE core.val) = true ∧ c.rd (PMC_SMP_CTL_KIND core.val) = kind.val ∧ 256 ≤ c.rd (PMC_SMP_STAT_FILL core.val)) :=
  ⟨⟨wPerformanceMonitor0.1, wPerformanceMonitor0.2.1, wPerformanceMonitor0.2.2.1, wPerformanceMonitor0.2.2.2, _, rfl, by decide +kernel⟩,
    ⟨wPerformanceMonitor1.1, wPerformanceMonitor1.2.1, wPerformanceMonitor1.2.2.1, wPerformanceMonitor1.2.2.2, _, rfl, by decide +kernel, by decide +kernel, by decide +kernel⟩,
    ⟨wPerformanceMonitor2.1, wPerformanceMonitor2.2.1, wPerformanceMonitor2.2.2.1, wPerformanceMonitor2.2.2.2.1, wPerformanceMonitor2.2.2.2.2.1, wPerformanceMonitor2.2.2.2.2.2.1, wPerformanceMonitor2.2.2.2.2.2.2.1, wPerformanceMonitor2.2.2.2.2.2.2.2.1, wPerformanceMonitor2.2.2.2.2.2.2.2.2.1, wPerformanceMonitor2.2.2.2.2.2.2.2.2.2, _, rfl, by decide +kernel, by decide +kernel, by decide +kernel, by decide +kernel, by decide +kernel⟩,
    ⟨wPerformanceMonitor3.1, wPerformanceMonitor3.2.1, wPerformanceMonitor3.2.2.1, wPerformanceMonitor3.2.2.2.1, wPerformanceMonitor3.2.2.2.2.1, wPerformanceMonitor3.2.2.2.2.2.1, wPerformanceMonitor3.2.2.2.2.2.2.1, wPerformanceMonitor3.2.2.2.2.2.2.2.1, wPerformanceMonitor3.2.2.2.2.2.2.2.2, _, rfl, by decide +kernel, by decide +kernel, by decide +kernel, by decide +kernel⟩⟩

/-- The hypotheses of BusAndCounters are met, clause by clause: part 3. -/
theorem witness_BusAndCounters_3 :
    (∃ (s : State) (t : Nat) (core : Fin 4) (w : Word) (n : Fin 256) (k : Fin 4) (c : Chip),
      c = s.chipAt t ∧ c.live = true)
    ∧ (∃ (s : State) (t : Nat) (engine : Fin 16) (pc : BitVec 16) (lat : Nat) (wait : Nat) (n : Nat) (flow : Option (Fin 112)) (c : Chip),
      c = s.chipAt t ∧ c.live = true ∧ c.on PMC_NME_CTL_ENABLE = true ∧ c.rd PMC_NME_STAT_FILL = n ∧ n < 64)
    ∧ (∃ (s : State) (t : Nat) (engine : Fin 16) (pc : BitVec 16) (lat : Nat) (wait : Nat) (flow : Option (Fin 112)) (c : Chip),
      c = s.chipAt t ∧ c.live = true ∧ c.on PMC_NME_CTL_ENABLE = true ∧ 64 ≤ c.rd PMC_NME_STAT_FILL)
    ∧ (∃ (s : State) (t : Nat) (w : Word) (n : Fin 64) (k : Fin 4) (c : Chip),
      c = s.chipAt t ∧ c.live = true) :=
  ⟨⟨wPerformanceMonitor4.1, wPerformanceMonitor4.2.1, wPerformanceMonitor4.2.2.1, wPerformanceMonitor4.2.2.2.1, wPerformanceMonitor4.2.2.2.2.1, wPerformanceMonitor4.2.2.2.2.2, _, rfl, by decide +kernel⟩,
    ⟨wPerformanceMonitor5.1, wPerformanceMonitor5.2.1, wPerformanceMonitor5.2.2.1, wPerformanceMonitor5.2.2.2.1, wPerformanceMonitor5.2.2.2.2.1, wPerformanceMonitor5.2.2.2.2.2.1, wPerformanceMonitor5.2.2.2.2.2.2.1, wPerformanceMonitor5.2.2.2.2.2.2.2, _, rfl, by decide +kernel, by decide +kernel, by decide +kernel, by decide +kernel⟩,
    ⟨wPerformanceMonitor6.1, wPerformanceMonitor6.2.1, wPerformanceMonitor6.2.2.1, wPerformanceMonitor6.2.2.2.1, wPerformanceMonitor6.2.2.2.2.1, wPerformanceMonitor6.2.2.2.2.2.1, wPerformanceMonitor6.2.2.2.2.2.2, _, rfl, by decide +kernel, by decide +kernel, by decide +kernel⟩,
    ⟨wPerformanceMonitor7.1, wPerformanceMonitor7.2.1, wPerformanceMonitor7.2.2.1, wPerformanceMonitor7.2.2.2.1, wPerformanceMonitor7.2.2.2.2, _, rfl, by decide +kernel⟩⟩

/-- The hypotheses of TrialAndRollout are met, clause by clause: part 1. -/
theorem witness_TrialAndRollout_1 :
    (∃ (s : State) (t : Nat) (c : Chip),
      c = s.chipAt t ∧ c.checks = some true ∧ c.bus.outs = [] ∧ ((c.updRec.auto = false ∨ c.mramHeld = true)))
    ∧ (∃ (s : State) (t : Nat) (c : Chip),
      c = s.chipAt t ∧ c.checks = some true ∧ c.bus.outs = [] ∧ c.updRec.auto = true ∧ c.mramHeld = false ∧ c.updRec.trial = true)
    ∧ (∃ (s : State) (t : Nat) (c : Chip),
      c = s.chipAt t ∧ c.checks = some false ∧ c.bus.outs = [])
    ∧ (∃ (s : State) (t : Nat) (c : Chip),
      c = s.chipAt t ∧ c.ready = true ∧ c.upd.trialBoot = true ∧ c.upd.checked = false ∧ c.upd.readyAt + sec 60 ≤ c.now ∧ c.bus.outs = []) :=
  ⟨⟨wTrialAndRollout0.1, wTrialAndRollout0.2, _, rfl, by decide +kernel, by decide +kernel, by decide +kernel⟩,
    ⟨wTrialAndRollout1.1, wTrialAndRollout1.2, _, rfl, by decide +kernel, by decide +kernel, by decide +kernel, by decide +kernel, by decide +kernel⟩,
    ⟨wTrialAndRollout2.1, wTrialAndRollout2.2, _, rfl, by decide +kernel, by decide +kernel⟩,
    ⟨wTrialAndRollout3.1, wTrialAndRollout3.2, _, rfl, by decide +kernel, by decide +kernel, by decide +kernel, by decide +kernel, by decide +kernel⟩⟩

/-- The hypotheses of TrialAndRollout are met, clause by clause: part 2. -/
theorem witness_TrialAndRollout_2 :
    (∃ (s : State) (t : Nat) (e : Nat) (c : Chip),
      c = s.chipAt t ∧ c.ready = true ∧ c.upd.trialBoot = true ∧ c.upd.healthEnd = some e ∧ e ≤ c.now ∧ (c.fw.waits.any (fun w => w.req.opcode == 0x1183 && w.since < e) = false) ∧ c.bus.outs = [])
    ∧ (∃ (s : State) (t : Nat) (kind : Nat) (n : Nat) (rest : List (Nat × Nat)) (c : Chip),
      c = s.chipAt t ∧ c.ready = true ∧ c.upd.rollout = (kind, n) :: rest ∧ c.restartDone = true)
    ∧ (∃ (s : State) (t : Nat) (c : Chip),
      c = s.chipAt t ∧ c.ready = true ∧ c.on UPD_STATE_SERDES_ROLLOUT = true ∧ c.upd.rollout = [] ∧ c.restartDone = true)
    ∧ (∃ (s : State) (t : Nat) (k : Fin 3) (c : Chip),
      c = s.chipAt t ∧ c.live = true) :=
  ⟨⟨wTrialAndRollout4.1, wTrialAndRollout4.2.1, wTrialAndRollout4.2.2, _, rfl, by decide +kernel, by decide +kernel, by decide +kernel, by decide +kernel, by decide +kernel, by decide +kernel⟩,
    ⟨wTrialAndRollout5.1, wTrialAndRollout5.2.1, wTrialAndRollout5.2.2.1, wTrialAndRollout5.2.2.2.1, wTrialAndRollout5.2.2.2.2, _, rfl, by decide +kernel, by decide +kernel, by decide +kernel⟩,
    ⟨wTrialAndRollout6.1, wTrialAndRollout6.2, _, rfl, by decide +kernel, by decide +kernel, by decide +kernel, by decide +kernel⟩,
    ⟨wTrialAndRollout7.1, wTrialAndRollout7.2.1, wTrialAndRollout7.2.2, _, rfl, by decide +kernel⟩⟩


/-! What holds right after reset, and what the frames and invariants ask -/

/-- The statements about every state with the invariant, with no access of the bus outstanding and responses that fit: the state right after reset
is one, with a command of each list of the frames. -/
theorem witness_frames :
    State.reset.Inv ∧ (State.reset.chipAt 0).bus.outs = [] ∧ (State.reset.chipAt 0).histFits = true
    ∧ Instr.echo ∈ ([.echo, .getInfo] : List (Nat → Fin 16 → Instr)) :=
  ⟨inv_of (by decide +kernel), by decide +kernel, by decide +kernel, by simp⟩

/-- An access of the aperture that hangs, of master 4. -/
def hungOut : BusOut :=
  ⟨{ m := 4, id := 0, write := false, user := false, addr := 0x4000_0000, beats := 1, size := 4, data := [], poison := false }, false, 0, true⟩

/-- The frames of the watchdog of the bus: the state right after reset with one hung access outstanding. -/
theorem witness_frames_hung : ∃ (s : State) (t : Nat) (o : BusOut), s.Inv ∧ (s.chipAt t).bus.outs = [o] ∧ o.hung = true :=
  ⟨on State.reset fun c => { c with bus := { c.bus with outs := [hungOut] } }, 0, hungOut, inv_of (by decide +kernel), by decide +kernel, rfl⟩

/-- The hypotheses of the statement about the line code are met, clause by clause. -/
theorem witness_LineCode :
    (∃ (last : Nat) (gs : List Nat), last < 4 ∧ gs ≠ [] ∧ gs.all (· < 4) = true)
    ∧ ∃ (c d : Chip) (n m : Fin 48), (d.lane m.val).rxLevel = (c.lane n.val).txLevel ∧ (c.lane n.val).txLevel < 4
      ∧ (d.lane m.val).rxFresh = false ∧ d.on (lnPolInv m.val) = false :=
  ⟨⟨3, [0, 3], by decide, by decide, by decide⟩,
    State.reset.chip, State.reset.chip.setLane 5 { State.reset.chip.lane 5 with rxFresh := false }, 2, 5,
    by decide +kernel, by decide +kernel, by decide +kernel, by decide +kernel⟩

/-- The statement about an empty queue: the state right after reset is one. -/
theorem witness_IdleStep : State.reset.pending = [] := rfl

/-! Small steps -/

/-- What a command answers meets a test: it answers a next state that does. -/
def gives (i : Instr) (s : State) (f : State → Bool) : Bool :=
  match exec i s with
  | .next s' => f s'
  | _ => false

/-- The state right after reset with the firmware running. -/
def running : State := on State.reset fun c => { c with pwr := { c.pwr with phase := .running } }

/-- R92: the first power-up leaves COLD in PWR_POR_SOURCE. -/
theorem test_reset_por_source : State.reset.chip.get PWR_POR_SOURCE = 0x200 := by decide +kernel

/-- R130: a doorbell on a channel that is not BUSY. -/
theorem test_ring_sets_busy :
    gives (.ring 0 3) wDoorbell0.1 (fun s => s.chip.on (MBX_CH_STAT_BUSY 3) && s.chip.fw.order.map Prod.fst == [3]) = true := by decide +kernel

/-- R130: a doorbell on a channel that is BUSY. -/
theorem test_ring_while_busy :
    gives (.ring 7 wDoorbell1.2.2) wDoorbell1.1 (fun s => s.chip.on (MBX_CH_STAT_DB_WHILE_BUSY wDoorbell1.2.2.val) && s.chip.fw.order == []) = true := by decide +kernel

/-- The opcode table: ECHO returns its payload unchanged, behind the header of R133. -/
theorem test_echo_returns_payload : gives (.echo 0 2) (putReq State.reset 2 0 [7, 9])
    (fun s => s.mem.wordsAt (respBuf 2) 6 == [2 ^ 24 + 2 * 2 ^ 16 + 77, 0, 8, 0, 7, 9] && !s.chip.on (MBX_CH_STAT_BUSY 2)) = true := by
  decide +kernel

/-- R88: a rail below its warning threshold shows in PWR_STATUS. -/
theorem test_rail_below_warning : gives (.railBelowWarning 0 2) running (fun s => s.chip.on PWR_STATUS_BOD_WARN) = true := by decide +kernel

/-- R11: an access that is not a whole word stores nothing. -/
theorem test_narrow_write_stores_nothing :
    gives (.registerWrite 0 ⟨.bar0, REF_STATUS.off, 2, 0xFFFF⟩) running (fun s => s.chip.regs == running.chip.regs) = true := by
  decide +kernel

/-- R303: the bit pairs 00, 01, 11, 10 are the values 0 to 3, at the levels -3, -1, 1, 3. -/
theorem test_gray_levels : [0, 1, 3, 2].map gray = [0, 1, 2, 3] ∧ [0, 1, 2, 3].map lineLevel = [-3, -1, 1, 3] := by decide

/-- R304: p[j] = (g[j] - p[j-1]) & 3 from 0. -/
theorem test_precoder : precodeAll 0 [1, 2, 3, 0] = [1, 1, 2, 2] := by decide

/-- The table gives no row any bits. -/
theorem test_no_word_decodes : decodeTableWord 32 0 = none := rfl

/-! Well-formedness refuses an ill-formed operand of each kind -/

theorem test_wf_registerWrite :
    ([.registerWrite 0 ⟨.bar0, 0, 3, 0⟩,
      .registerWrite 0 ⟨.bar0, 0, 4, 4294967296⟩,
      .registerWrite 0 ⟨.bar2, 262142, 4, 0⟩,
      .registerWrite 0 ⟨.service, 16777214, 4, 0⟩] : List Instr).all (fun i => !i.wf) = true := by decide

theorem test_wf_graphicLoadDone :
    ([.graphicLoadDone 0 0 0 (some [4294967296])] : List Instr).all (fun i => !i.wf) = true := by decide

theorem test_wf_bootRomRun :
    ([.bootRomRun 0 true (some ⟨true, 0, true, true, 0, 0, 0, [], []⟩) none,
      .bootRomRun 0 true none (some ⟨true, 0, true, true, 0, 0, 0, [], []⟩)] : List Instr).all (fun i => !i.wf) = true := by decide

theorem test_wf_sourceFrameArrival :
    ([.sourceFrameArrival 0 0 ⟨65536, 0, true, 0, 0, 0, true, false, false⟩,
      .sourceFrameArrival 0 0 ⟨0, 65536, true, 0, 0, 0, true, false, false⟩,
      .sourceFrameArrival 0 0 ⟨0, 0, true, 4294967296, 0, 0, true, false, false⟩,
      .sourceFrameArrival 0 0 ⟨0, 0, true, 0, 64, 0, true, false, false⟩,
      .sourceFrameArrival 0 0 ⟨0, 0, true, 0, 0, 16, true, false, false⟩] : List Instr).all (fun i => !i.wf) = true := by decide

theorem test_wf_presentationInstant :
    ([.presentationInstant 0 0 0 true false 4294967296] : List Instr).all (fun i => !i.wf) = true := by decide

theorem test_wf_channelTraining :
    ([.channelTraining 0 0 (some ⟨16, 3, false, true⟩),
      .channelTraining 0 0 (some ⟨0, 1, false, true⟩)] : List Instr).all (fun i => !i.wf) = true := by decide

theorem test_wf_channelReady :
    ([.channelReady 0 0 [] (List.replicate 40 0),
      .channelReady 0 0 (List.replicate 40 0) []] : List Instr).all (fun i => !i.wf) = true := by decide

theorem test_wf_percolatorSweep :
    ([.percolatorSweep 0 0 0 []] : List Instr).all (fun i => !i.wf) = true := by decide

theorem test_wf_sweepDone :
    ([.sweepDone 0 0 [] (List.replicate 64 true) false,
      .sweepDone 0 0 (List.replicate 64 0) [] false] : List Instr).all (fun i => !i.wf) = true := by decide

theorem test_wf_frameReceived :
    ([.frameReceived 0 0 ⟨65536, false, true, 0, 0, none, 0, 0⟩,
      .frameReceived 0 0 ⟨64, false, true, 0, 0, none, 4294967296, 0⟩,
      .frameReceived 0 0 ⟨64, false, true, 0, 0, none, 0, 4294967296⟩] : List Instr).all (fun i => !i.wf) = true := by decide

theorem test_wf_frameTransmit :
    ([.frameTransmit 0 0 [(0, 0)] false,
      .frameTransmit 0 0 [(0, 65536)] false] : List Instr).all (fun i => !i.wf) = true := by decide

theorem test_wf_mediaPacketReceived :
    ([.mediaPacketReceived 0 0 0 ⟨18446744073709551616, 0, false, 0, true, []⟩,
      .mediaPacketReceived 0 0 0 ⟨0, 0, false, 65536, true, []⟩] : List Instr).all (fun i => !i.wf) = true := by decide

theorem test_wf_audioPacketReceived :
    ([.audioPacketReceived 0 0 0 ⟨18446744073709551616, 0, true, false⟩] : List Instr).all (fun i => !i.wf) = true := by decide

theorem test_wf_audioPacketLate :
    ([.audioPacketLate 0 0 18446744073709551616] : List Instr).all (fun i => !i.wf) = true := by decide

theorem test_wf_packetRelease :
    ([.packetRelease 0 0 0 4294967296] : List Instr).all (fun i => !i.wf) = true := by decide

theorem test_wf_ancillaryFieldSend :
    ([.ancillaryFieldSend 0 0 [0],
      .ancillaryFieldSend 0 0 [1025]] : List Instr).all (fun i => !i.wf) = true := by decide

theorem test_wf_servoSample :
    ([.servoSample 0 0 0 0 2147483648 0,
      .servoSample 0 0 0 0 0 4294967296] : List Instr).all (fun i => !i.wf) = true := by decide

theorem test_wf_announceReceived :
    ([.announceReceived 0 0 0 0 4294967296] : List Instr).all (fun i => !i.wf) = true := by decide

theorem test_wf_monitorWindowEnd :
    ([.monitorWindowEnd 0 [] 0,
      .monitorWindowEnd 0 (List.replicate 5 ⟨0, 0, true, 0, 0⟩) 2147483648] : List Instr).all (fun i => !i.wf) = true := by decide

theorem test_wf_candidateInactive :
    ([.candidateInactive 0 0 false []] : List Instr).all (fun i => !i.wf) = true := by decide

theorem test_wf_wtrExpiry :
    ([.wtrExpiry 0 0 []] : List Instr).all (fun i => !i.wf) = true := by decide

theorem test_wf_referenceEdge :
    ([.referenceEdge 0 0 0 []] : List Instr).all (fun i => !i.wf) = true := by decide

theorem test_wf_loCalibrated :
    ([.loCalibrated 0 (-2147483649)] : List Instr).all (fun i => !i.wf) = true := by decide

theorem test_wf_audioBlock :
    ([.audioBlock 0 ⟨[(7714, List.replicate 48 0)], [], 0, 0, []⟩,
      .audioBlock 0 ⟨[(0, [])], [], 0, 0, []⟩,
      .audioBlock 0 ⟨[(0, List.replicate 48 8388608)], [], 0, 0, []⟩,
      .audioBlock 0 ⟨[], [7714], 0, 0, []⟩,
      .audioBlock 0 ⟨[], [], 0, 2147483648, []⟩,
      .audioBlock 0 ⟨[], [], 0, 0, [(16, 0)]⟩,
      .audioBlock 0 ⟨[], [], 0, 0, [(0, 2147483648)]⟩] : List Instr).all (fun i => !i.wf) = true := by decide

theorem test_wf_portLocked :
    ([.portLocked 0 0 2147483648] : List Instr).all (fun i => !i.wf) = true := by decide

theorem test_wf_hello :
    ([.hello 0 4294967296 0 0 0 0 0 0,
      .hello 0 0 0 0 0 0 0 4294967296] : List Instr).all (fun i => !i.wf) = true := by decide

theorem test_wf_command :
    ([.command 0 4294967296 ⟨0, 0, 0, 0, 0, 0, 0, [0, 0, 0, 0]⟩,
      .command 0 0 ⟨4294967296, 0, 0, 0, 0, 0, 0, [0, 0, 0, 0]⟩,
      .command 0 0 ⟨0, 16, 0, 0, 0, 0, 0, [0, 0, 0, 0]⟩,
      .command 0 0 ⟨0, 0, 65536, 0, 0, 0, 0, [0, 0, 0, 0]⟩,
      .command 0 0 ⟨0, 0, 0, 4294967296, 0, 0, 0, [0, 0, 0, 0]⟩,
      .command 0 0 ⟨0, 0, 0, 0, 4294967296, 0, 0, [0, 0, 0, 0]⟩,
      .command 0 0 ⟨0, 0, 0, 0, 0, 4294967296, 0, [0, 0, 0, 0]⟩,
      .command 0 0 ⟨0, 0, 0, 0, 0, 0, 4294967296, [0, 0, 0, 0]⟩,
      .command 0 0 ⟨0, 0, 0, 0, 0, 0, 0, [0, 0, 0]⟩,
      .command 0 0 ⟨0, 0, 0, 0, 0, 0, 0, [0, 0, 0, 4294967296]⟩] : List Instr).all (fun i => !i.wf) = true := by decide

theorem test_wf_ack :
    ([.ack 0 4294967296 none,
      .ack 0 0 (some 4294967296)] : List Instr).all (fun i => !i.wf) = true := by decide

theorem test_wf_ackTimeout :
    ([.ackTimeout 0 4294967296] : List Instr).all (fun i => !i.wf) = true := by decide

theorem test_wf_decision :
    ([.decision 0 4294967296 (.select 0 0),
      .decision 0 0 (.sync 332 false false 0),
      .decision 0 0 (.select 2 0),
      .decision 0 0 (.select 0 5),
      .decision 0 0 (.bridge 4294967296 0),
      .decision 0 0 (.head 4 ⟨0, [], [], []⟩),
      .decision 0 0 (.head 0 ⟨4294967296, [], [], []⟩),
      .decision 0 0 (.head 0 ⟨0, [(16, 0)], [], []⟩),
      .decision 0 0 (.head 0 ⟨0, [(0, 3)], [], []⟩),
      .decision 0 0 (.head 0 ⟨0, [], [16], []⟩),
      .decision 0 0 (.head 0 ⟨0, [], [], [(false, 16)]⟩)] : List Instr).all (fun i => !i.wf) = true := by decide

theorem test_wf_mask :
    ([.mask 0 4294967296 0 0 [],
      .mask 0 0 0 4294967296 [],
      .mask 0 0 0 0 [384]] : List Instr).all (fun i => !i.wf) = true := by decide

theorem test_wf_cremaCompute :
    ([.cremaCompute 0 0 [(384, 0)],
      .cremaCompute 0 0 [(0, 4294967296)]] : List Instr).all (fun i => !i.wf) = true := by decide

theorem test_wf_crema :
    ([.crema 0 4294967296 0 0 [0, 0, 0, 0, 0, 0, 0, 0],
      .crema 0 0 0 4294967296 [0, 0, 0, 0, 0, 0, 0, 0],
      .crema 0 0 0 0 [],
      .crema 0 0 0 0 [0, 0, 0, 0, 0, 0, 0, 4294967296]] : List Instr).all (fun i => !i.wf) = true := by decide

theorem test_wf_cremaMissing :
    ([.cremaMissing 0 0 4294967296] : List Instr).all (fun i => !i.wf) = true := by decide

theorem test_wf_crcList :
    ([.crcList 0 4294967296 0 0 [],
      .crcList 0 0 0 4294967296 [],
      .crcList 0 0 0 0 [(384, 0)]] : List Instr).all (fun i => !i.wf) = true := by decide

theorem test_wf_evidence :
    ([.evidence 0 4294967296 0 0 [] 0,
      .evidence 0 0 0 4294967296 [] 0,
      .evidence 0 0 0 0 [] 4294967296,
      .evidence 0 0 0 0 [⟨332, 0, 0, 0, 0⟩] 0,
      .evidence 0 0 0 0 [⟨0, 4294967296, 0, 0, 0⟩] 0] : List Instr).all (fun i => !i.wf) = true := by decide

theorem test_wf_handover :
    ([.handover 0 4294967296 0 0,
      .handover 0 0 4294967296 0,
      .handover 0 0 0 4294967296] : List Instr).all (fun i => !i.wf) = true := by decide

theorem test_wf_resync :
    ([.resync 0 4294967296 0,
      .resync 0 0 4294967296] : List Instr).all (fun i => !i.wf) = true := by decide

theorem test_wf_state :
    ([.state 0 4294967296 (.graphic 0 0 0 []),
      .state 0 0 (.config ⟨[], [], [], 0, []⟩),
      .state 0 0 (.graphic 4 0 0 []),
      .state 0 0 (.graphic 0 4 0 []),
      .state 0 0 (.graphic 0 0 2 []),
      .state 0 0 (.graphic 0 0 0 [(0, 4294967296)]),
      .state 0 0 (.audio ⟨[], [(512, {})], [], 0, 0⟩),
      .state 0 0 (.audio ⟨[], [], [(512, {})], 0, 0⟩)] : List Instr).all (fun i => !i.wf) = true := by decide

theorem test_wf_busAccess :
    ([.busAccess 0 ⟨10, 0, false, false, 0, 1, 4, [], false⟩,
      .busAccess 0 ⟨0, 16, false, false, 0, 1, 4, [], false⟩,
      .busAccess 0 ⟨0, 0, false, false, 0, 0, 4, [], false⟩,
      .busAccess 0 ⟨0, 0, false, false, 0, 17, 4, [], false⟩,
      .busAccess 0 ⟨0, 0, false, false, 0, 1, 3, [], false⟩,
      .busAccess 0 ⟨0, 0, false, false, 2, 1, 4, [], false⟩,
      .busAccess 0 ⟨0, 0, false, false, 17592186044416, 1, 4, [], false⟩,
      .busAccess 0 ⟨0, 0, true, false, 0, 1, 4, [256, 0, 0, 0], false⟩,
      .busAccess 0 ⟨0, 0, true, false, 0, 1, 4, [0], false⟩] : List Instr).all (fun i => !i.wf) = true := by decide

theorem test_wf_lockedSequence :
    ([.lockedSequence 0 ⟨10, 0, false, false, 0, 1, 4, [], false⟩,
      .lockedSequence 0 ⟨0, 0, true, false, 0, 1, 4, [0, 0, 0, 0], false⟩] : List Instr).all (fun i => !i.wf) = true := by decide

theorem test_wf_pmcSample :
    ([.pmcSample 0 0 0 0 18446744073709551616 0 false false] : List Instr).all (fun i => !i.wf) = true := by decide

theorem test_wf_nmeTag :
    ([.nmeTag 0 0 0 18446744073709551616 0 none,
      .nmeTag 0 0 0 1 2 none] : List Instr).all (fun i => !i.wf) = true := by decide

theorem test_wf_updDownloadDone :
    ([.updDownloadDone 0 0 (some [256])] : List Instr).all (fun i => !i.wf) = true := by decide

theorem test_wf_updVerifyDone :
    ([.updVerifyDone 0 0 ⟨true, 0, true, true, 0, 0, 0, [], []⟩,
      .updVerifyDone 0 0 ⟨true, 0, true, true, 0, 0, 0, [0, 0, 0, 0, 0, 0, 0, 4294967296], []⟩,
      .updVerifyDone 0 0 ⟨true, 4294967296, true, true, 0, 0, 0, [0, 0, 0, 0, 0, 0, 0, 0], []⟩,
      .updVerifyDone 0 0 ⟨true, 0, true, true, 4294967296, 0, 0, [0, 0, 0, 0, 0, 0, 0, 0], []⟩,
      .updVerifyDone 0 0 ⟨true, 0, true, true, 0, 4294967296, 0, [0, 0, 0, 0, 0, 0, 0, 0], []⟩,
      .updVerifyDone 0 0 ⟨true, 0, true, true, 0, 0, 0, [0, 0, 0, 0, 0, 0, 0, 0], [⟨0, 0, [], true⟩]⟩,
      .updVerifyDone 0 0 ⟨true, 0, true, true, 0, 0, 0, [0, 0, 0, 0, 0, 0, 0, 0], [⟨0, 0, [0, 0, 0, 0, 0, 0, 0, 4294967296], true⟩]⟩,
      .updVerifyDone 0 0 ⟨true, 0, true, true, 0, 0, 0, [0, 0, 0, 0, 0, 0, 0, 0], [⟨4294967296, 0, [0, 0, 0, 0, 0, 0, 0, 0], true⟩]⟩,
      .updVerifyDone 0 0 ⟨true, 0, true, true, 0, 0, 0, [0, 0, 0, 0, 0, 0, 0, 0], [⟨0, 4294967296, [0, 0, 0, 0, 0, 0, 0, 0], true⟩]⟩] : List Instr).all (fun i => !i.wf) = true := by decide

theorem test_wf_sapPortFrame :
    ([.sapPortFrame 0 0 0 [(0, 0), (0, 0), (0, 0)] 0,
      .sapPortFrame 0 0 0 [] 3] : List Instr).all (fun i => !i.wf) = true := by decide

/-- Well-formed operands are accepted. -/
theorem test_wf_accepts :
    ([.registerWrite 0 ⟨.bar0, 0, 4, 1⟩, .registerWrite 0 ⟨.bar2, 262140, 4, 0⟩, .ancillaryFieldSend 0 0 [1024], .mask 0 0 0 0 [383],
      .channelTraining 0 0 (some ⟨16, 2, false, true⟩), .decision 0 0 (.select 1 4), .busAccess 0 ⟨9, 15, true, false, 4, 1, 4, [1, 2, 3, 4], false⟩]
      : List Instr).all Instr.wf = true := by decide

end Sys2Proof.Tests
end

section
/-! SUPPORT. The brown-out counter (R88): what the rows of a rail at its warning level make of PWR_BOD_EVENTS. -/

namespace Sys2Proof.Machine

/-! ### A counter that fills its register -/

/-- A stored register is a 32-bit word (R11). -/
theorem Chip.get_lt (c : Chip) (r : Reg) (h : r.dflt < 2 ^ 32) : c.get r < 2 ^ 32 := by
  unfold Chip.get
  split
  · exact BitVec.isLt _
  · exact h

theorem Chip.rd_whole (c : Chip) (r : Reg) (h : r.dflt < 2 ^ 32) : c.rd (r.fld 0 32) = c.get r := by
  have hread : c.rd (r.fld 0 32) = c.get r / 2 ^ 0 % 2 ^ 32 := rfl
  rw [hread, Nat.pow_zero, Nat.div_one, Nat.mod_eq_of_lt (c.get_lt r h)]

theorem Chip.get_inc_whole (c : Chip) (r : Reg) (h : r.dflt < 2 ^ 32) : (c.inc (r.fld 0 32)).get r = min 0xFFFFFFFF (c.get r + 1) := by
  have hsat : satAdd 32 (c.get r) 1 < 2 ^ 32 := by unfold satAdd; omega
  calc (c.inc (r.fld 0 32)).get r
      = (c.wr (r.fld 0 32) (satAdd 32 (c.get r) 1)).rd (r.fld 0 32) := by
        rw [Chip.rd_whole _ r h, Chip.inc_def, Chip.rd_whole c r h]; rfl
    _ = satAdd 32 (c.get r) 1 % 2 ^ 32 := Chip.rd_wr_same _ _ _ (Nat.le_refl 32)
    _ = min 0xFFFFFFFF (c.get r + 1) := by rw [Nat.mod_eq_of_lt hsat]; exact Nat.min_comm _ _

/-! ### Registers that an operation leaves as they were -/

theorem Chip.get_wr_other (c : Chip) (f : Fld) (v : Nat) (r : Reg) (h : f.off ≠ r.off) : (c.wr f v).get r = c.get r :=
  Chip.get_put_other c f.reg r _ h

theorem Chip.get_setBit_other (c : Chip) (f : Fld) (i : Nat) (r : Reg) (h : f.off ≠ r.off) : (c.setBit f i).get r = c.get r := by
  unfold Chip.setBit
  split
  · rfl
  · exact Chip.get_wr_other c f _ r h

/-! ### The count of a dip -/

/-- Of an empty set no rail is below warning. -/
theorem bit_zero (i : Nat) : bit 0 i = false := by
  unfold bit
  rw [Nat.zero_div]
  rfl

/-- PWR_BOD_EVENTS after a rail goes below warning: a dip counts where no rail was below before it (R88). -/
def Chip.dipCount (c : Chip) : Nat :=
  if c.rd PWR_STATUS_RAIL_BELOW_WARN = 0 then min 0xFFFFFFFF (c.get PWR_BOD_EVENTS + 1) else c.get PWR_BOD_EVENTS

/-- A rail that is below warning already is no new dip. -/
theorem Chip.dipCount_of_below (c : Chip) (m : Nat) (h : bit (c.rd PWR_STATUS_RAIL_BELOW_WARN) m = true) :
    c.dipCount = c.get PWR_BOD_EVENTS := by
  refine if_neg fun hempty => ?_
  rw [hempty, bit_zero] at h
  exact Bool.false_ne_true h

/-- The marks that a rail newly below warning sets, before the dip is counted (R87). -/
def Chip.railMarked (c : Chip) (m : Nat) : Chip :=
  (((c.setBit PWR_STATUS_RAIL_BELOW_WARN m).set PWR_STATUS_BOD_WARN).set PWR_STATUS_MRAM_HOLD).setBit PWR_RAIL_HIST_WARN_SEEN m

theorem Chip.get_railMarked_bodEvents (c : Chip) (m : Nat) : (c.railMarked m).get PWR_BOD_EVENTS = c.get PWR_BOD_EVENTS := by
  rw [Chip.railMarked, Chip.get_setBit_other _ _ _ _ (by decide), Chip.set_def, Chip.get_wr_other _ _ _ _ (by decide), Chip.set_def,
    Chip.get_wr_other _ _ _ _ (by decide), Chip.get_setBit_other _ _ _ _ (by decide)]

theorem Chip.railWarn_of_below (c : Chip) (m : Nat) (h : bit (c.rd PWR_STATUS_RAIL_BELOW_WARN) m = true) : c.railWarn m = c := if_pos h

theorem Chip.railWarn_of_above (c : Chip) (m : Nat) (h : bit (c.rd PWR_STATUS_RAIL_BELOW_WARN) m = false) :
    c.railWarn m = (c.railMarked m).when (c.rd PWR_STATUS_RAIL_BELOW_WARN == 0) (·.inc PWR_BOD_EVENTS_COUNT) :=
  if_neg (Bool.eq_false_iff.1 h)

theorem Chip.get_railWarn_bodEvents (c : Chip) (m : Nat) : (c.railWarn m).get PWR_BOD_EVENTS = c.dipCount := by
  cases hm : bit (c.rd PWR_STATUS_RAIL_BELOW_WARN) m with
  | true => rw [c.railWarn_of_below m hm, c.dipCount_of_below m hm]
  | false =>
    rw [c.railWarn_of_above m hm]
    by_cases hempty : c.rd PWR_STATUS_RAIL_BELOW_WARN = 0
    · rw [hempty, beq_self_eq_true, Chip.when_true, PWR_BOD_EVENTS_COUNT, Chip.get_inc_whole _ _ (by decide),
        c.get_railMarked_bodEvents, Chip.dipCount, if_pos hempty]
    · rw [beq_false_of_ne hempty, Chip.when_false, c.get_railMarked_bodEvents, Chip.dipCount, if_neg hempty]

theorem Chip.get_railBelow_bodEvents (c : Chip) (m : Nat) : (c.railBelow m).get PWR_BOD_EVENTS = c.dipCount := by
  unfold Chip.railBelow
  split
  next hbelow => exact (c.dipCount_of_below m hbelow).symm
  next => exact (Chip.get_post _ _ _ _ _ _ (by decide)).trans (c.get_railWarn_bodEvents m)

/-! ### The rows RAIL_BELOW_WARNING and RAIL_ABOVE_WARNING -/

/-- The event and the handover that R91 may ask for leave the count of the dip as it is. -/
theorem exec_railBelowWarning_bodEvents (s : State) (t : Nat) (m : Fin 8) :
    ∃ s', exec (.railBelowWarning t m) s = .next s' ∧ s'.chip.get PWR_BOD_EVENTS = (s.chipAt t).dipCount := by
  refine ⟨_, rfl, ?_⟩
  rw [State.commit_get]
  refine (Chip.get_of_cell (Chip.cell_when _ _ _ _ ?_)).trans (Chip.get_railBelow_bodEvents _ _)
  exact (Chip.askHandover_within (P := [0, 112]) (T := [.sent, .twn]) Chip.Within.refl rfl rfl).cell _ (by decide)

theorem exec_railAboveWarning_bodEvents (s : State) (t : Nat) (m : Fin 8) :
    ∃ s', exec (.railAboveWarning t m) s = .next s' ∧ s'.chip.get PWR_BOD_EVENTS = (s.chipAt t).get PWR_BOD_EVENTS := by
  refine ⟨_, rfl, ?_⟩
  rw [State.commit_get]
  exact Chip.get_of_cell (Chip.cell_when _ _ _ _ (Chip.cell_wr_other _ _ _ _ (by decide)))

/-- Settles O19: from an empty set the dip is counted up to saturation, from a set with a rail in it nothing is counted, and a rail that rises
writes PWR_STATUS alone. -/
theorem brownOutCount : Obligations.BrownOutCount := by
  unfold Obligations.BrownOutCount
  refine ⟨fun s t m hempty => ?_, fun s t m hsome => ?_, exec_railAboveWarning_bodEvents⟩
  · obtain ⟨s', hexec, hcount⟩ := exec_railBelowWarning_bodEvents s t m
    exact ⟨s', hexec, hcount.trans (if_pos hempty)⟩
  · obtain ⟨s', hexec, hcount⟩ := exec_railBelowWarning_bodEvents s t m
    exact ⟨s', hexec, hcount.trans (if_neg hsome)⟩

end Sys2Proof.Machine
end

section
/-! SUPPORT. The doorbell order (R130, R131): where a ring puts its channel, and what leaves the order again when that entry is erased. -/

namespace Sys2Proof.Machine

/-! ### An element put into an ordered list -/

theorem length_insertBy {α : Type} (key : α → Nat) (x : α) (l : List α) : (insertBy key x l).length = l.length + 1 := by
  induction l with
  | nil => rfl
  | cons y ys ih =>
    unfold insertBy
    split
    · rfl
    · exact congrArg (· + 1) ih

theorem erase_insertBy_of_notMem {α : Type} [BEq α] [LawfulBEq α] (key : α → Nat) (x : α) (l : List α) (h : x ∉ l) :
    (insertBy key x l).erase x = l := by
  induction l with
  | nil => exact List.erase_cons_head x []
  | cons y ys ih =>
    obtain ⟨hne, hys⟩ := List.ne_and_not_mem_of_not_mem_cons h
    unfold insertBy
    split
    · exact List.erase_cons_head x (y :: ys)
    · rw [List.erase_cons_tail (by simpa using Ne.symm hne), ih hys]

/-- Of two equal entries erasing takes one only, so the list is back without the element just where it did not hold it before. -/
theorem erase_insertBy_eq_erase_iff {α : Type} [BEq α] [LawfulBEq α] (key : α → Nat) (x : α) (l : List α) :
    (insertBy key x l).erase x = l.erase x ↔ x ∉ l := by
  refine ⟨fun heq hmem => ?_, fun hnot => ?_⟩
  · have hlong : ((insertBy key x l).erase x).length ≥ l.length := by
      have := List.le_length_erase (a := x) (l := insertBy key x l)
      rwa [length_insertBy] at this
    rw [heq, List.length_erase_of_mem hmem] at hlong
    have := List.length_pos_of_mem hmem
    omega
  · rw [erase_insertBy_of_notMem key x l hnot, List.erase_of_not_mem hnot]

/-! ### The row RING -/

/-- The place of a doorbell: by ACLK cycle, then by channel (R131). -/
def bellKey (o : Nat × Nat) : Nat := o.2 / 3 * 16 + o.1

theorem Chip.ringBell_order (c : Chip) (n : Nat) (h : c.on (MBX_CH_STAT_BUSY n) = false) :
    (c.ringBell n).fw.order = insertBy bellKey (n, c.now) c.fw.order := by
  unfold Chip.ringBell
  rw [if_neg (Bool.eq_false_iff.1 h)]
  simp only [Chip.set_def, Chip.clr_def, Chip.wr_now, Chip.wr_fw]
  rfl

theorem exec_ring_of_allowed (s : State) (t : Nat) (ch : Fin 16) (hreach : (s.chipAt t).reachable = true)
    (hallow : (s.chipAt t).fwAllows 4 0 true = true) :
    exec (.ring t ch) s = .next (s.commit ((s.chipAt t).ringBell ch.val)) := by
  have hrow : exec (.ring t ch) s = execRing t ch s := rfl
  rw [hrow, execRing, State.run, hreach, Chip.when_true, Chip.hostGate, if_pos hallow]

/-- A ring leaves the other places of the doorbell order as they were (R130) just where the order did not list the channel with that instant. -/
theorem exec_ring_order_erase_iff (s s' : State) (t : Nat) (ch : Fin 16) (hreach : (s.chipAt t).reachable = true)
    (hallow : (s.chipAt t).fwAllows 4 0 true = true) (hidle : (s.chipAt t).on (MBX_CH_STAT_BUSY ch.val) = false)
    (hexec : exec (.ring t ch) s = .next s') :
    s'.chip.fw.order.erase (ch.val, (s.chipAt t).now) = (s.chipAt t).fw.order.erase (ch.val, (s.chipAt t).now)
      ↔ (ch.val, (s.chipAt t).now) ∉ (s.chipAt t).fw.order := by
  rw [exec_ring_of_allowed s t ch hreach hallow] at hexec
  obtain rfl := Host.Outcome.next.inj hexec
  rw [State.commit_fw, Chip.ringBell_order _ _ hidle]
  exact erase_insertBy_eq_erase_iff bellKey _ _

/-- A running part in which channel 0 is not BUSY and yet stands in the doorbell order, with the instant 7. -/
def State.idleChannelListed : State :=
  { chip := ({ State.reset.chip with pwr := { phase := .running }, fw := { order := [(0, 7)] } } : Chip).wr (BUS_FW_WRITE 4) 0xFF }

/-- Refutes O24: its first clause asks of every state that a RING while BUSY is 0 leave the order's other places as they were, also of a state
whose order lists the channel with that very instant, as `State.idleChannelListed` does. There the order `[(0, 7)]` becomes
`[(0, 7), (0, 7)]`; without `(0, 7)` the first is empty and the second is not. The clause lacks the premise that the order lists no channel that
is not BUSY. -/
theorem not_doorbell : ¬ Obligations.Doorbell := by
  unfold Obligations.Doorbell
  rintro ⟨hring, -⟩
  have hreach : (State.idleChannelListed.chipAt 7).reachable = true := by decide +kernel
  have hallow : (State.idleChannelListed.chipAt 7).fwAllows 4 0 true = true := by decide +kernel
  have hidle : (State.idleChannelListed.chipAt 7).on (MBX_CH_STAT_BUSY 0) = false := by decide +kernel
  have hlisted : (0, (State.idleChannelListed.chipAt 7).now) ∈ (State.idleChannelListed.chipAt 7).fw.order := by decide +kernel
  obtain ⟨s', hexec, -, -, -, herase, -⟩ := hring State.idleChannelListed 7 0 _ rfl hreach hallow hidle
  exact (exec_ring_order_erase_iff _ s' 7 0 hreach hallow hidle hexec).1 herase hlisted

end Sys2Proof.Machine
end

section
/-! SUPPORT. Steps and runs, and the frame of a row from what its function may change. -/

namespace Sys2Proof.Machine

/-! ### Steps and runs -/

/-- Every step, of a command or an idle one, answers a next state and keeps the form between commands. -/
theorem step_keeps_inv (s : State) (h : s.Inv) : ∃ s', step s = .next s' ∧ s'.Inv := by
  cases hq : s.pending with
  | nil => exact ⟨s, by unfold step; rw [hq], h⟩
  | cons i rest =>
    obtain ⟨s', hexec, -, hout, hevts, hwf⟩ := exec_next i { s with pending := rest }
    refine ⟨s', ?_, hwf h.1, hout, hevts⟩
    unfold step
    rw [hq]
    exact hexec

theorem step_next (s : State) : ∃ s', step s = .next s' := by
  cases hq : s.pending with
  | nil => exact ⟨s, by unfold step; rw [hq]⟩
  | cons i rest =>
    obtain ⟨s', hexec, -⟩ := exec_next i { s with pending := rest }
    refine ⟨s', ?_⟩
    unfold step
    rw [hq]
    exact hexec

/-- Settles O5: an idle step answers the state itself, and what a command commits is in canonical form with nothing left undone. -/
theorem stepKeepsInv : Obligations.StepKeepsInv := by
  unfold Obligations.StepKeepsInv
  exact step_keeps_inv

theorem run_succ_of_step (M : Host.Core) (n : Nat) (s s' : M.State) (h : M.step s = .next s') : M.run (n + 1) s = M.run n s' := by
  rw [Host.Core.run, h]

/-- Settles O7, by induction on the length of the run. -/
theorem runsOn : Obligations.RunsOn := by
  unfold Obligations.RunsOn State.runsOn
  intro n
  induction n with
  | zero => exact fun s => ⟨s, rfl⟩
  | succ n ih =>
    intro s
    obtain ⟨s1, h1⟩ := step_next s
    obtain ⟨s2, h2⟩ := ih s1
    exact ⟨s2, (run_succ_of_step Sys2Proof.core n s s1 h1).trans h2⟩

/-! ### The frame of a row from what its function may change -/

section
variable {P : List Nat} {T : List Part} {s : State} {t : Nat} {i : Instr} {f : Chip → Chip}

theorem State.run_keeps (hi : s.Inv) (hm : Part.mem ∉ Part.host :: T) (hexec : exec i s = s.run t f)
    (hf : ∀ c, Chip.Within P (.host :: T) c (f c)) : s.keeps P T t i :=
  ⟨_, hexec, State.commit_frame (hf _) hi hm⟩

theorem State.event_keeps (hi : s.Inv) (hm : Part.mem ∉ Part.host :: T) (hexec : exec i s = s.event t f)
    (hf : ∀ c, Chip.Within P (.host :: T) c (f c)) : s.keeps P T t i :=
  State.run_keeps hi hm hexec fun c => Chip.Within.refl.when' (b := c.live) hf

theorem State.fwStep_keeps (hi : s.Inv) (hm : Part.mem ∉ Part.host :: T) (hexec : exec i s = s.fwStep t f)
    (hf : ∀ c, Chip.Within P (.host :: T) c (f c)) : s.keeps P T t i :=
  State.run_keeps hi hm hexec fun c => Chip.Within.refl.when' (b := c.ready) hf
end

end Sys2Proof.Machine
end

section
/-! SUPPORT. The frame of the network rows. -/

namespace Sys2Proof.Machine

/-- Settles O12: every row of a port or a flow is one operation, whose pages and parts are the listed ones. -/
theorem networkFrame : Obligations.NetworkFrame := by
  unfold Obligations.NetworkFrame
  refine ⟨⟨?_, ?_, ?_, ?_, ?_, ?_, ?_, ?_, ?_, ?_, ?_⟩, ?_, ?_, ?_, ?_, ?_, ?_, ?_, ?_⟩
  · exact fun s t p hi => State.event_keeps hi (by decide) rfl fun c => Chip.netTimeout_within p.isLt .refl (by decide) (by decide)
  · exact fun s t p r hi => State.event_keeps hi (by decide) rfl fun c => Chip.netAligned_within p.isLt .refl (by decide) (by decide)
  · exact fun s t p k l hi => State.event_keeps hi (by decide) rfl fun c => Chip.netLost_within p.isLt .refl (by decide) (by decide)
  · exact fun s t p f hi => State.event_keeps hi (by decide) rfl fun c => Chip.frameReceived_within p.isLt .refl (by decide) (by decide)
  · exact fun s t p f g hi => State.event_keeps hi (by decide) rfl fun c => Chip.frameTransmit_within p.isLt .refl (by decide) (by decide)
  · exact fun s t p hi => State.event_keeps hi (by decide) rfl fun c => Chip.gclBoundary_within p.isLt .refl (by decide) (by decide)
  · exact fun s t p hi => State.event_keeps hi (by decide) rfl fun c => Chip.gclTaken_within p.isLt .refl (by decide) (by decide)
  · exact fun s t p hi => State.event_keeps hi (by decide) rfl fun c => Chip.netSignal_within p.isLt .refl (by decide) (by decide)
  · exact fun s t p l hi => State.event_keeps hi (by decide) rfl fun c => Chip.netSignalLost_within p.isLt .refl (by decide) (by decide)
  · exact fun s t p hi => State.event_keeps hi (by decide) rfl fun c => Chip.netAnDone_within p.isLt .refl (by decide) (by decide)
  · exact fun s t p l hi => State.event_keeps hi (by decide) rfl fun c => Chip.netTrained_within p.isLt .refl (by decide) (by decide)
  · exact fun s t f l p hi => State.event_keeps hi (by decide) rfl fun c => Chip.mediaPacket_within f.isLt l.isLt .refl (by decide) (by decide)
  · exact fun s t f l p hi => State.event_keeps hi (by decide) rfl fun c => Chip.audioPacket_within f.isLt l.isLt .refl (by decide) (by decide)
  · exact fun s t f n hi => State.event_keeps hi (by decide) rfl fun c => Chip.audioLate_within f.isLt .refl (by decide) (by decide)
  · exact fun s t f l hi => State.event_keeps hi (by decide) rfl fun c => Chip.legLost_within f.isLt l.isLt .refl (by decide) (by decide)
  · exact fun s t f l hi => State.event_keeps hi (by decide) rfl fun c => Chip.legRestored_within f.isLt l.isLt .refl (by decide) (by decide)
  · exact fun s t f l n hi => State.event_keeps hi (by decide) rfl fun c => Chip.packetRelease_within f.isLt l.isLt .refl (by decide) (by decide)
  · exact fun s t f l hi => State.event_keeps hi (by decide) rfl fun c => Chip.ancSend_within f.isLt .refl (by decide) (by decide)
  · exact fun s t f hi => State.fwStep_keeps hi (by decide) rfl fun c => Chip.igmpReport_within .refl (by decide) (by decide)

end Sys2Proof.Machine
end

section
/-! SUPPORT. The frames of the lane, the reference and PTP, and the serial audio and twin rows. -/

namespace Sys2Proof.Machine

/-- Settles O10: a row of a lane is one operation on the lane, with what hangs on the lane after it. -/
theorem sdiAndLaneFrame : Obligations.SdiAndLaneFrame := by
  unfold Obligations.SdiAndLaneFrame
  refine ⟨⟨?_, ?_, ?_, ?_, ?_, ?_⟩, ?_, ?_, ?_, ?_, ?_, ?_, ?_, ?_, ?_, ?_, ?_⟩
  · exact fun s t n hi => State.event_keeps hi (by decide) rfl fun c => Chip.huntNext_within .refl (by decide) (by decide)
  · exact fun s t n r b hi => State.event_keeps hi (by decide) rfl fun c => Chip.rxLock_within n.isLt .refl (by decide) (by decide)
  · exact fun s t n hi => State.event_keeps hi (by decide) rfl fun c => Chip.rxLos_within n.isLt .refl (by decide) (by decide)
  · exact fun s t l hi => State.fwStep_keeps hi (by decide) rfl fun c => Chip.cdrMargins_within .refl (by decide) (by decide)
  · exact fun s t n e a hi => State.event_keeps hi (by decide) rfl fun c => Chip.lineCheck_within n.isLt .refl (by decide) (by decide)
  · exact fun s t n p k tc b hi => State.event_keeps hi (by decide) rfl fun c => Chip.ancCapture_within n.isLt .refl (by decide) (by decide)
  · exact fun s t n hi => State.event_keeps hi (by decide) rfl fun c =>
      Chip.laneMoved_within n.isLt (Chip.lnSignalLost_within n.isLt .refl (by decide) (by decide)) (by decide) (by decide)
  · exact fun s t n hi => State.event_keeps hi (by decide) rfl fun c => Chip.lnSignalPresent_within n.isLt .refl (by decide) (by decide)
  · exact fun s t n a b e p h hi => State.event_keeps hi (by decide) rfl fun c =>
      Chip.laneMoved_within n.isLt (Chip.lnVerifyDone_within n.isLt .refl (by decide) (by decide)) (by decide) (by decide)
  · exact fun s t n h l p hi => State.event_keeps hi (by decide) rfl fun c =>
      Chip.laneMoved_within n.isLt (Chip.lnSweepDone_within n.isLt .refl (by decide) (by decide)) (by decide) (by decide)
  · exact fun s t n hi => State.event_keeps hi (by decide) rfl fun c => Chip.lnRetry_within n.isLt .refl (by decide) (by decide)
  · exact fun s t n hi => State.event_keeps hi (by decide) rfl fun c =>
      Chip.laneMoved_within n.isLt (Chip.lnLockLost_within n.isLt .refl (by decide) (by decide)) (by decide) (by decide)
  · exact fun s t n h w a b x y hi => State.fwStep_keeps hi (by decide) rfl fun c => Chip.lnVisit_within n.isLt .refl (by decide) (by decide)
  · exact fun s t n hi => State.event_keeps hi (by decide) rfl fun c => Chip.lnStep_within n.isLt .refl (by decide) (by decide)
  · exact fun s t n hi => State.event_keeps hi (by decide) rfl fun c => Chip.lnPostErr_within n.isLt .refl (by decide) (by decide)
  · exact fun s t n l e u hi => State.event_keeps hi (by decide) rfl fun c => Chip.lnChecker_within n.isLt .refl (by decide) (by decide)
  · exact fun s t n l hi => State.event_keeps hi (by decide) rfl fun c =>
      Chip.laneMoved_within n.isLt (Chip.lnWake_within n.isLt .refl (by decide) (by decide)) (by decide) (by decide)

theorem Chip.heldExpiry_within {P : List Nat} {T : List Part} {c₀ c : Chip} (hw : Chip.Within P T c₀ c) (hp : [0, 1, 112].all P.contains = true) :
    Chip.Within P T c₀ c.heldExpiry := by
  unfold Chip.heldExpiry
  exact Chip.Within.ite (fun _ => Chip.twnLose_within hw hp rfl) fun _ => hw

/-- Settles O14: every row of a serial audio port or of the twin is one operation. -/
theorem audioAndTwinFrame : Obligations.AudioAndTwinFrame := by
  unfold Obligations.AudioAndTwinFrame
  refine ⟨⟨?_, ?_, ?_, ?_, ?_⟩, ?_, ?_, ?_, ?_, ?_, ?_, ?_, ?_, ?_, ?_, ?_, ?_⟩
  · exact fun s t p b r x hi => State.event_keeps hi (by decide) rfl fun c => Chip.sapFrame_within p.isLt .refl (by decide) (by decide)
  · exact fun s t p r hi => State.event_keeps hi (by decide) rfl fun c => Chip.sapLock_within p.isLt .refl (by decide) (by decide)
  · exact fun s t p k hi => State.event_keeps hi (by decide) rfl fun c => Chip.sapUnlock_within p.isLt .refl (by decide) (by decide)
  · exact fun s t p k hi => State.event_keeps hi (by decide) rfl fun c => Chip.sapSlipped_within p.isLt .refl (by decide) (by decide)
  · exact fun s t p hi => State.event_keeps hi (by decide) rfl fun c => Chip.sapRejoined_within p.isLt .refl (by decide) (by decide)
  · exact fun s t b hi => State.event_keeps hi (by decide) rfl fun c => Chip.modeDecide_within .refl (by decide) (by decide)
  · exact fun s t b hi => State.event_keeps hi (by decide) rfl fun c => Chip.unit1Wait_within .refl (by decide) (by decide)
  · exact fun s t hi => State.event_keeps hi (by decide) rfl fun c => Chip.peerConflict_within .refl (by decide) (by decide)
  · exact fun s t b hi => State.event_keeps hi (by decide) rfl fun c => Chip.helloSend_within .refl (by decide) (by decide)
  · exact fun s t hi => State.event_keeps hi (by decide) rfl fun c => Chip.helloTimeout_within .refl (by decide) (by decide)
  · exact fun s t k hi => State.event_keeps hi (by decide) rfl fun c => Chip.twnGap_within .refl (by decide) (by decide)
  · exact fun s t q hi => State.event_keeps hi (by decide) rfl fun c => Chip.noMatchResync_within q.isLt .refl (by decide) (by decide)
  · exact fun s t b hi => State.event_keeps hi (by decide) rfl fun c => Chip.selfFault_within .refl (by decide) (by decide)
  · exact fun s t hi => State.event_keeps hi (by decide) rfl fun c => Chip.peerLost_within .refl (by decide) (by decide)
  · exact fun s t hi => State.event_keeps hi (by decide) rfl fun c => Chip.twnLinkLost_within .refl (by decide) (by decide)
  · exact fun s t hi => State.event_keeps hi (by decide) rfl fun c => Chip.audioDone_within .refl (by decide) (by decide)
  · exact fun s t hi => State.event_keeps hi (by decide) rfl fun c => Chip.heldExpiry_within .refl (by decide)

theorem Chip.ptpCand_within {P : List Nat} {T : List Part} {c₀ c : Chip} (hw : Chip.Within P T c₀ c) (hp : [1, 3].all P.contains = true)
    (ht : ([.free, .planes, .ref] : List Part).all T.contains = true) : Chip.Within P T c₀ c.ptpCand := by
  obtain ⟨hfree, hplanes, href⟩ : Part.free ∈ T ∧ Part.planes ∈ T ∧ Part.ref ∈ T := by simpa using ht
  unfold Chip.ptpCand
  split
  · exact hw
  · exact Chip.reselectAll_within (Chip.goInactive_within (by decide) (hw.to_free (by simpa using hfree)) hp (by simpa using href)) hp
      (by simpa using hplanes)

section
variable {P : List Nat} {T : List Part} {s : State} {t : Nat} {i : Instr} {f : Chip → Chip}

/-- The frame of a step of the reference selector. -/
theorem State.select_keeps (hi : s.Inv) (hm : Part.mem ∉ Part.host :: T) (ht : ([.sent, .twn] : List Part).all (Part.host :: T).contains = true)
    (hexec : exec i s = s.select t f) (hf : ∀ c, Chip.Within P (.host :: T) c (f c)) : s.keeps P T t i :=
  State.event_keeps hi hm hexec fun c => Chip.tellSelect_within (hf c) ht

/-- The frame of a step of the PTP firmware. -/
theorem State.ptpStep_keeps (hi : s.Inv) (hm : Part.mem ∉ Part.host :: T) (hp : [1, 3].all P.contains = true)
    (ht : ([.sent, .twn] : List Part).all (Part.host :: T).contains = true)
    (hr : ([.free, .planes, .ref] : List Part).all (Part.host :: T).contains = true)
    (hexec : exec i s = s.ptpStep t f) (hf : ∀ c, Chip.Within P (.host :: T) c (f c)) : s.keeps P T t i :=
  State.fwStep_keeps hi hm hexec fun c => Chip.tellSelect_within (Chip.ptpCand_within (hf c) hp hr) ht
end

/-- Settles O13: a step of the PTP firmware or of the selector is one operation, after which the selections made are told to the peer (R462). -/
theorem timeFrame : Obligations.TimeFrame := by
  unfold Obligations.TimeFrame
  refine ⟨⟨?_, ?_, ?_, ?_, ?_, ?_, ?_, ?_⟩, ?_, ?_, ?_, ?_, ?_, ?_, ?_, ?_⟩
  · exact fun s t p a b d e x hi => State.event_keeps hi (by decide) rfl fun c => Chip.syncReceived_within p.isLt .refl (by decide) (by decide)
  · exact fun s t p a e hi => State.event_keeps hi (by decide) rfl fun c => Chip.delayReqSent_within p.isLt .refl (by decide) (by decide)
  · exact fun s t p hi => State.fwStep_keeps hi (by decide) rfl fun c => Chip.rxqPop_within p.isLt .refl (by decide) (by decide)
  · exact fun s t p hi => State.fwStep_keeps hi (by decide) rfl fun c => Chip.txrPop_within p.isLt .refl (by decide) (by decide)
  · exact fun s t p o f g m hi => State.ptpStep_keeps hi (by decide) (by decide) (by decide) (by decide) rfl fun c =>
      Chip.servoSample_within p.isLt .refl (by decide) (by decide)
  · exact fun s t p d k r hi => State.ptpStep_keeps hi (by decide) (by decide) (by decide) (by decide) rfl fun c =>
      Chip.announce_within p.isLt .refl (by decide) (by decide)
  · exact fun s t p hi => State.ptpStep_keeps hi (by decide) (by decide) (by decide) (by decide) rfl fun c =>
      Chip.announceTimeout_within p.isLt .refl (by decide) (by decide)
  · exact fun s t hi => State.ptpStep_keeps hi (by decide) (by decide) (by decide) (by decide) rfl fun c =>
      Chip.prefRevert_within .refl (by decide) (by decide)
  · exact fun s t m l hi => State.select_keeps hi (by decide) (by decide) rfl fun c => Chip.windowEnd_within .refl (by decide) (by decide)
  · exact fun s t k n m hi => State.select_keeps hi (by decide) (by decide) rfl fun c => Chip.candInactive_within k.isLt .refl (by decide) (by decide)
  · exact fun s t q m hi => State.select_keeps hi (by decide) (by decide) rfl fun c => Chip.wtrExpiry_within q.isLt .refl (by decide) (by decide)
  · exact fun s t q hi => State.select_keeps hi (by decide) (by decide) rfl fun c => Chip.pullinDone_within q.isLt .refl (by decide) (by decide)
  · exact fun s t q d hi => State.select_keeps hi (by decide) (by decide) rfl fun c => Chip.startTimeout_within q.isLt .refl (by decide) (by decide)
  · exact fun s t k hi => State.event_keeps hi (by decide) rfl fun c => Chip.phaseHit_within k.isLt .refl (by decide) (by decide)
  · exact fun s t k d m hi => State.select_keeps hi (by decide) (by decide) rfl fun c => Chip.refEdge_within k.isLt .refl (by decide) (by decide)
  · exact fun s t l hi => State.fwStep_keeps hi (by decide) rfl fun c => Chip.loCalibrate_within .refl (by decide) (by decide)

end Sys2Proof.Machine
end

section
/-! SUPPORT. The frame of the link rows. -/

namespace Sys2Proof.Machine

section
variable {P : List Nat} {T : List Part} {c₀ c x : Chip} {n b l : Nat}

theorem Chip.lnSeek_within (hn : n < 50) : Chip.Within [48, 112] [.lanes] c (c.lnSeek n b) := by
  unfold Chip.lnSeek
  refine Chip.Within.ite (fun _ => ?_) fun _ => .refl
  exact (Chip.lnPolarity_within hn .refl (by decide) (by decide)).when' fun y =>
    Chip.Within.refl.wr (Chip.ln_pages hn (.inr (.inl rfl)) (by decide))

theorem Chip.lnIn_within {marker : Bool} (hn : n < 50) (hw : Chip.Within P T c₀ c) (hp : [48, 112].all P.contains = true)
    (ht : ([.lanes] : List Part).all T.contains = true) : Chip.Within P T c₀ (c.lnIn n b marker) := by
  refine hw.within hp ht ?_
  unfold Chip.lnIn
  exact Chip.Within.ite (fun _ => Chip.setLane_within .refl (by decide) (by decide)) fun _ =>
    Chip.Within.refl.when' fun y => Chip.lnSeek_within hn

/-- A marker noted at its lane, and the check of the skew that follows an alignment marker (R346, R347). -/
theorem Chip.markerNoted_within {y : FabLane} {align : Bool} (hn : n < 48) (hl : l < 48)
    (hw : Chip.Within [1, 8, 12, 48, 64, 112] [.srcs, .lanes, .links] c x) :
    Chip.Within [1, 8, 12, 48, 64, 112] [.srcs, .lanes, .links] c
      ((x.setLane n y).when align fun c => (c.checkSkew l n).unMiswire l) :=
  (Chip.setLane_within hw (by decide) (by decide)).when' fun z =>
    Chip.unMiswire_within hl (Chip.checkSkew_within hl (by omega) .refl (by decide) (by decide)) (by decide) (by decide)

/-- A marker on a fabric lane changes lanes, links and sources; time passes before it, not in it. -/
theorem Chip.fabMarker_within_links {reform : Bool} (hn : n < 48) :
    Chip.Within [1, 8, 12, 48, 64, 112] [.srcs, .lanes, .links] c (c.fabMarker n b reform) := by
  unfold Chip.fabMarker
  refine Chip.Within.ite (fun _ => .refl) fun _ => Chip.Within.ite (fun _ => ?_) fun _ => Chip.Within.ite (fun _ => .refl) fun _ => ?_
  · exact Chip.Within.refl.when' fun y => Chip.lnCrcErr_within (by omega) .refl (by decide) (by decide)
  · cases hlink : c.linkOf n with
    | none => exact .refl
    | some l =>
      have hl : l < 48 := Nat.lt_of_le_of_lt (Chip.linkOf_le hlink) hn
      have hid : Chip.Within [1, 8, 12, 48, 64, 112] [.srcs, .lanes, .links] c (c.peerIdentity l b) :=
        Chip.peerIdentity_within hl .refl (by decide) (by decide)
      refine Chip.Within.ite (fun _ => ?_) fun _ => ?_
      · exact Chip.miswire_within hl (Chip.setLane_within hid (by decide) (by decide)) (by decide) (by decide)
      · refine Chip.peerReport_within hl (Chip.Within.ite (fun _ => ?_) fun _ => Chip.Within.ite (fun _ => ?_) fun _ => ?_) (by decide) (by decide)
        · exact Chip.markerNoted_within hn hl hid
        · exact Chip.rxDirUp_within hl (Chip.markerNoted_within hn hl hid) (by decide) (by decide)
        · exact Chip.linkShow_within hl (Chip.markerNoted_within hn hl hid) (by decide) (by decide)

/-- A status block on a fabric lane changes links and sources. -/
theorem Chip.fabStatus_within_links (hn : n < 48) : Chip.Within [1, 8, 12, 48, 64, 112] [.srcs, .links] c (c.fabStatus n b) := by
  unfold Chip.fabStatus
  refine Chip.Within.ite (fun _ => .refl) fun _ => Chip.Within.ite (fun _ => ?_) fun _ => Chip.Within.ite (fun _ => .refl) fun _ => ?_
  · exact Chip.lnCrcErr_within (by omega) .refl (by decide) (by decide)
  · cases hlink : c.linkOf n with
    | none => exact .refl
    | some l => exact Chip.peerReport_within (Nat.lt_of_le_of_lt (Chip.linkOf_le hlink) hn) .refl (by decide) (by decide)

end

/-- Settles O11: a block goes to the link of its lane, or on a twin lane to the twin. -/
theorem linkFrame : Obligations.LinkFrame := by
  unfold Obligations.LinkFrame
  refine ⟨?_, ?_, ?_, ?_, ?_, ?_, ?_, ?_⟩
  · exact fun s t n b hi => State.event_keeps hi (by decide) rfl fun c =>
      have hin := Chip.lnIn_within n.isLt .refl (by decide) (by decide)
      Chip.Within.ite (fun hn => Chip.fabData_within hn hin (by decide) (by decide)) fun _ => Chip.twnBlock_within n.isLt hin (by decide) (by decide)
  · exact fun s t n b hi => State.event_keeps hi (by decide) rfl fun c =>
      have hin := Chip.lnIn_within n.isLt .refl (by decide) (by decide)
      Chip.Within.ite (fun hn => hin.within (by decide) (by decide) (Chip.fabMarker_within_links hn)) fun _ =>
        Chip.twnMarker_within n.isLt hin (by decide) (by decide)
  · exact fun s t n b hi => State.event_keeps hi (by decide) rfl fun c =>
      have hin := Chip.lnIn_within n.isLt .refl (by decide) (by decide)
      Chip.Within.ite (fun hn => hin.within (by decide) (by decide) (Chip.fabStatus_within_links hn)) fun _ =>
        Chip.twnBlock_within n.isLt hin (by decide) (by decide)
  · exact fun s t l hi => State.event_keeps hi (by decide) rfl fun c => Chip.formTimeout_within l.isLt .refl (by decide) (by decide)
  · exact fun s t n hi => State.event_keeps hi (by decide) rfl fun c => Chip.laneUnusable_within n.isLt .refl (by decide) (by decide)
  · exact fun s t n b hi => State.event_keeps hi (by decide) rfl fun c =>
      have hin := Chip.lnIn_within n.isLt .refl (by decide) (by decide)
      Chip.Within.ite (fun hn => hin.within (by decide) (by decide) (Chip.fabMarker_within_links hn)) fun _ =>
        Chip.twnMarker_within n.isLt hin (by decide) (by decide)
  · exact fun s t l hi => State.event_keeps hi (by decide) rfl fun c => Chip.linkWiden_within l.isLt .refl (by decide) (by decide)
  · exact fun s t m a b d r hi => State.event_keeps hi (by decide) rfl fun c => Chip.mergeLine_within m.isLt .refl (by decide) (by decide)

end Sys2Proof.Machine
end

section
/-! SUPPORT. The frame of the power rows. -/

namespace Sys2Proof.Machine

section
variable {P : List Nat} {T : List Part} {c₀ c x : Chip} {n b l p : Nat}

theorem dom_page {f : Fld} (ho : f.off = (PWR_DOM_CTL n).off) (hn : n < 248) (hp : 2 ∈ P) : f.off / 65536 ∈ P := by
  have h2 : f.off / 65536 = 2 := by rw [ho, PWR_DOM_CTL]; dsimp only; omega
  rwa [h2]

theorem netPortStat_page (hp : p < 2) (h64 : 64 ∈ P) : (NET_PORT_STAT p).off / 65536 ∈ P := by
  have h : (NET_PORT_STAT p).off / 65536 = 64 := by rw [NET_PORT_STAT]; dsimp only; omega
  rwa [h]

theorem mem_netDoms_lt (hp : p < 2) (h : n ∈ netDoms p) : n < 248 := by
  simp only [netDoms, domNetRx, domNetTx, List.mem_append, List.mem_map, List.mem_range] at h
  omega

theorem domMac_lt (p : Fin 2) : domMac p.val < 248 := by
  have := p.isLt
  unfold domMac
  omega

theorem Chip.netLnr_within (hp : p < 2) : Chip.Within [1, 64] [] c (c.netLnr p) := by
  unfold Chip.netLnr
  refine Chip.Within.ite (fun _ => ?_) fun _ => ?_
  · exact (Chip.Within.refl.set (by decide)).put (netPortStat_page hp (by decide))
  · exact Chip.npTo_within hp ((Chip.netDown_within hp (Chip.Within.refl.set (by decide)) (by decide) (by decide)).put
      (netPortStat_page hp (by decide))) (by decide) (by decide)

/-- A MAC that leaves STANDBY: its lane directions are back, and the port trains again. -/
theorem Chip.netLanesBack_within (hp : p < 2) : Chip.Within [1, 2, 64] [] c (c.netLanesBack p) := by
  unfold Chip.netLanesBack
  refine Chip.Within.within (Chip.Within.each .refl fun y n hn => Chip.Within.refl.wr ?_) (by decide) (by decide) (Chip.netLnr_within hp)
  exact dom_page rfl (mem_netDoms_lt hp hn) (by decide)

theorem Chip.netLanesOff_within (hp : p < 2) : Chip.Within [2] [.pwr] c (c.netLanesOff p) := by
  unfold Chip.netLanesOff
  refine Chip.Within.each .refl fun y n hn => ?_
  have hn2 := mem_netDoms_lt hp hn
  exact ((Chip.Within.refl.wr (dom_page rfl hn2 (by decide))).clr (dom_page rfl hn2 (by decide))).to_pwr (by decide)

theorem Chip.macAfter_within {old new : Nat} (hp : p < 2) : Chip.Within [1, 2, 64] [.pwr] c (c.macAfter p old new) := by
  unfold Chip.macAfter
  refine Chip.netRefresh_within hp ?_ (by decide) (by decide)
  refine (Chip.Within.refl.when' fun y => ?_).when' fun y => ?_
  · exact (Chip.netLanesOff_within hp).mono (by decide) (by decide)
  · exact (Chip.netLanesBack_within hp).mono (by decide) (by decide)

theorem Chip.loLoss_within_planes : Chip.Within [1, 3] [.planes, .ref] c c.loLoss := by
  unfold Chip.loLoss
  refine Chip.Within.ite (fun _ => .refl) fun _ => ?_
  refine Chip.Within.each ?_ fun y q hq => ?_
  · exact (((Chip.Within.refl.to_ref (by decide)).clr (by decide)).set (by decide)).post (by decide)
  · have hq2 : q < 2 := by simp at hq; omega
    exact Chip.Within.ite (fun _ => Chip.planeShow_within hq2 (Chip.freerun_within hq2 (Chip.slew_within .refl (by decide) (by decide))
      (by decide) (by decide)) (by decide) (by decide)) fun _ => .refl

end

/-- Settles O8: each row is its operation; NET_WAKE and QUEUE_FAULT are short chains of operations. -/
theorem powerFrame : Obligations.PowerFrame := by
  unfold Obligations.PowerFrame
  refine ⟨?_, ?_, ?_, ?_, ?_, ?_, ?_, ?_, ?_, ?_, ?_, ?_, ?_, ?_, ?_, ?_⟩
  · exact fun s t v hi => State.run_keeps hi (by decide) rfl fun c => Chip.msixUnmask_within .refl (by decide)
  · exact fun s t v hi => State.run_keeps hi (by decide) rfl fun c => Chip.Within.refl.to_host (by decide)
  · exact fun s t hi => State.run_keeps hi (by decide) rfl fun c => Chip.release_within .refl (by decide) (by decide)
  · exact fun s t v hi => State.run_keeps (f := fun c => c.strapSample v.toNat) hi (by decide) rfl fun c =>
      Chip.strapSample_within .refl (by decide) (by decide)
  · exact fun s t hi => State.fwStep_keeps hi (by decide) rfl fun c => Chip.Within.refl.when' fun y => Chip.Within.refl.to_pwr (by decide)
  · intro s t m hi
    unfold State.keeps exec execRailBelowWarning
    exact ⟨_, rfl, State.commit_frame ((Chip.railBelow_within m.isLt .refl (by decide) (by decide)).when' fun y =>
      Chip.askHandover_within .refl (by decide) (by decide)) hi (by decide)⟩
  · intro s t m hi
    unfold State.keeps exec execRailAboveWarning
    exact ⟨_, rfl, State.commit_frame (Chip.Within.refl.when' fun y => Chip.Within.refl.wr (by decide)) hi (by decide)⟩
  · intro s t hi
    refine State.run_keeps hi (by decide) (by unfold exec execMramWriteDone; rfl) fun c => ?_
    exact (Chip.Within.refl.to_pwr (v := { c.pwr with mramWrite := none }) (by decide)).to_upd (v := { c.upd with last := none }) (by decide)
  · exact fun s t m v hi => State.fwStep_keeps hi (by decide) rfl fun c => Chip.monWrite_within m.isLt .refl (by decide) (by decide)
  · exact fun s t p hi => State.event_keeps hi (by decide) rfl fun c => Chip.Within.refl.when' fun y =>
      ((Chip.domForce_within (domMac_lt p) .refl (by decide) (by decide)).setBit (by decide)).within (by decide) (by decide)
        (Chip.macAfter_within p.isLt)
  · exact fun s t x hi => State.event_keeps hi (by decide) rfl fun c => Chip.therm_within .refl (by decide) (by decide)
  · exact fun s t hi => State.event_keeps hi (by decide) rfl fun c => Chip.Within.refl.within (by decide) (by decide) Chip.loLoss_within_planes
  · exact fun s t hi => State.event_keeps hi (by decide) rfl fun c => Chip.loReturn_within .refl (by decide) (by decide)
  · exact fun s t v hi => State.event_keeps hi (by decide) rfl fun c => Chip.scanFrame_within .refl (by decide) (by decide)
  · intro s t l hi
    refine State.event_keeps hi (by decide) (by unfold exec execQueueFault; rfl) fun c => Chip.selfFault_within ?_ (by decide) (by decide)
    exact ((Chip.Within.refl.set (by decide)).inc (by decide)).each fun y d _ => Chip.setDst_within .refl (by decide) (by decide)
  · exact fun s t hi => State.run_keeps hi (by decide) rfl fun c => .refl

end Sys2Proof.Machine
end

section
/-! SUPPORT. The frame of the memory rows, which CHANNEL_READY breaks. -/

namespace Sys2Proof.Machine

/-- A part whose firmware runs, with memory channel 0 in TRAINING and a byte in its sweep rows that the sweep pattern does not hold. -/
def State.sweptByte : State :=
  { mem := [(dramBase, 1)], chip := ({ State.reset.chip with pwr := { phase := .running } } : Chip).set TOP_STATUS_FW_READY |>.wr (DMC_CH_STAT_STATE 0) chTraining }


/-- Refutes O9: its clause on CHANNEL_READY lets no byte outside the event ring change, but the row leaves the sweep rows of its channel filled
with their pattern (R252, R255), which addressed memory holds as 0: in `State.sweptByte` the first byte of DRAM reads 1 before and 0 after. -/
theorem not_framesAndMemoryFrame : ¬ Obligations.FramesAndMemoryFrame := by
  unfold Obligations.FramesAndMemoryFrame
  rintro ⟨-, -, hready, -⟩
  have hinv : State.sweptByte.Inv := ⟨by decide +kernel, rfl, rfl⟩
  obtain ⟨s', hexec, hframe⟩ := hready State.sweptByte 0 0 [] [] hinv
  have hread : s'.mem.read dramBase = State.sweptByte.mem.read dramBase := hframe.ring dramBase (by decide)
  have hrow : exec (.channelReady 0 0 [] []) State.sweptByte
      = .next (State.sweptByte.commit ((State.sweptByte.chipAt 0).when (State.sweptByte.chipAt 0).ready fun c => c.trainPass 0 [] [])) := rfl
  rw [hrow] at hexec
  obtain rfl := Host.Outcome.next.inj hexec
  revert hread
  decide +kernel

end Sys2Proof.Machine
end

section
/-! SUPPORT. What a field reads after each of the named register operations, in the spelling of the later proofs. -/

namespace Sys2Proof.Machine

/-- A field lies within its register of 32 bits; and shares no bit with another field. Both evaluate for the fields of the map. -/
def Fld.fits (f : Fld) : Bool := (f.lo + f.w).ble 32
def Fld.clearOf (f g : Fld) : Bool := f.fits && g.fits && ((f.lo + f.w).ble g.lo || (g.lo + g.w).ble f.lo)

theorem Fld.fits_iff {f : Fld} : f.fits = true ↔ f.lo + f.w ≤ 32 := Iff.of_eq Nat.ble_eq

theorem Fld.clearOf_iff {f g : Fld} :
    f.clearOf g = true ↔ f.lo + f.w ≤ 32 ∧ g.lo + g.w ≤ 32 ∧ (f.lo + f.w ≤ g.lo ∨ g.lo + g.w ≤ f.lo) := by
  simp only [Fld.clearOf, Bool.and_eq_true, Bool.or_eq_true, Fld.fits_iff, Nat.ble_eq, and_assoc]

section
variable {c : Chip} {f g : Fld} {v i : Nat} {b : Bool}

/-! ### The field itself -/

theorem Chip.rd_wr_fits (c : Chip) (v : Nat) (h : f.fits = true) : (c.wr f v).rd f = v % 2 ^ f.w := Chip.rd_wr_same c f v (Fld.fits_iff.1 h)

theorem Chip.on_wr_same (c : Chip) (v : Nat) (h : f.fits = true) : (c.wr f v).on f = (v % 2 ^ f.w != 0) := by
  rw [Chip.on, Chip.rd_wr_fits c v h]

theorem Chip.on_set_same (c : Chip) (h : f.fits = true) (hw : f.w ≠ 0) : (c.set f).on f = true := by
  rw [Chip.set_def, Chip.on_wr_same c 1 h, Nat.mod_eq_of_lt (Nat.one_lt_two_pow hw)]
  rfl

theorem Chip.on_clr_same (c : Chip) (h : f.fits = true) : (c.clr f).on f = false := by
  rw [Chip.clr_def, Chip.on_wr_same c 0 h, Nat.zero_mod]
  rfl

theorem Chip.on_wrB_same (c : Chip) (b : Bool) (h : f.fits = true) (hw : f.w ≠ 0) : (c.wrB f b).on f = b := by
  cases b
  · exact Chip.on_clr_same c h
  · exact Chip.on_set_same c h hw

theorem Chip.rd_inc_same (c : Chip) (h : f.fits = true) : (c.inc f).rd f = min (2 ^ f.w - 1) (c.rd f + 1) := by
  have hpos := Nat.two_pow_pos f.w
  rw [Chip.inc_def, Chip.rd_wr_fits _ _ h, satAdd, Nat.mod_eq_of_lt (by omega), Nat.min_comm]

/-! ### Another field of the same register -/

theorem Chip.rd_wr_clear (c : Chip) (v : Nat) (hr : f.reg = g.reg) (h : f.clearOf g = true) : (c.wr f v).rd g = c.rd g := by
  obtain ⟨hf, hg, hd⟩ := Fld.clearOf_iff.1 h
  exact Chip.rd_wr_apart c f g v (congrArg Reg.off hr) (congrArg Reg.dflt hr) hf hg hd

theorem Chip.on_wr_clear (c : Chip) (v : Nat) (hr : f.reg = g.reg) (h : f.clearOf g = true) : (c.wr f v).on g = c.on g := by
  rw [Chip.on, Chip.rd_wr_clear c v hr h, Chip.on]

/-! ### A field of another register -/

theorem Chip.on_wr_other (c : Chip) (f g : Fld) (v : Nat) (h : f.off ≠ g.off) : (c.wr f v).on g = c.on g := by
  rw [Chip.on, Chip.rd_wr_other c f g v h, Chip.on]

theorem Chip.on_put_other (c : Chip) (r : Reg) (g : Fld) (v : Nat) (h : r.off ≠ g.off) : (c.put r v).on g = c.on g :=
  Chip.on_of_cell (Chip.cell_put_other c r v g.off h)

theorem Chip.rd_put_other (c : Chip) (r : Reg) (g : Fld) (v : Nat) (h : r.off ≠ g.off) : (c.put r v).rd g = c.rd g :=
  Chip.rd_of_cell (Chip.cell_put_other c r v g.off h)

/-- A field of a register put as a whole. -/
theorem Chip.rd_put_same (c : Chip) (r : Reg) (v lo w : Nat) : (c.put r v).rd (r.fld lo w) = bits (v % 2 ^ 32) lo w := by
  have hreg : (r.fld lo w).reg = r := rfl
  rw [Chip.rd, hreg, Chip.get_put_same]
  rfl

/-! ### A choice -/

theorem Chip.rd_when (c : Chip) (b : Bool) (k : Chip → Chip) : (c.when b k).rd g = if b then (k c).rd g else c.rd g := by cases b <;> rfl
theorem Chip.on_when (c : Chip) (b : Bool) (k : Chip → Chip) : (c.when b k).on g = if b then (k c).on g else c.on g := by cases b <;> rfl
theorem Chip.get_when (c : Chip) (r : Reg) (b : Bool) (k : Chip → Chip) : (c.when b k).get r = if b then (k c).get r else c.get r := by
  cases b <;> rfl

/-! ### One bit of a field -/

theorem bit_add_pow_same {x i : Nat} (h : bit x i = false) : bit (x + 2 ^ i) i = true := by
  unfold bit at h ⊢
  have hne : x / 2 ^ i % 2 ≠ 1 := by simpa using h
  rw [Nat.add_div_right _ (Nat.two_pow_pos i)]
  have : (x / 2 ^ i).succ % 2 = 1 := by omega
  rw [this]
  rfl

theorem bit_eq_testBit (x i : Nat) : bit x i = x.testBit i := by
  unfold bit
  rw [Nat.testBit_eq_decide_div_mod_eq]
  simp [beq_eq_decide]

theorem bit_add_pow_lt {x i w : Nat} (h : bit x i = false) (hx : x < 2 ^ w) (hi : i < w) : x + 2 ^ i < 2 ^ w := by
  have hclear : x / 2 ^ i % 2 = 0 := by
    have hne : x / 2 ^ i % 2 ≠ 1 := by simpa [bit] using h
    omega
  have hlow : x % 2 ^ (i + 1) < 2 ^ i := by
    rw [Nat.mod_pow_succ, hclear, Nat.mul_zero, Nat.add_zero]
    exact Nat.mod_lt _ (Nat.two_pow_pos i)
  have hpow : 2 ^ w = 2 ^ (i + 1) * 2 ^ (w - i - 1) := by
    rw [← Nat.pow_add]
    congr 1
    omega
  have hhigh : x / 2 ^ (i + 1) + 1 ≤ 2 ^ (w - i - 1) := Nat.div_lt_of_lt_mul (hpow ▸ hx)
  calc x + 2 ^ i = 2 ^ (i + 1) * (x / 2 ^ (i + 1)) + x % 2 ^ (i + 1) + 2 ^ i := by rw [Nat.div_add_mod]
    _ < 2 ^ (i + 1) * (x / 2 ^ (i + 1) + 1) := by rw [Nat.mul_add, Nat.mul_one]; have := Nat.pow_succ 2 i; omega
    _ ≤ 2 ^ w := by rw [hpow]; exact Nat.mul_le_mul_left _ hhigh

theorem Chip.bit_rd_setBit_same (c : Chip) (i : Nat) (h : f.fits = true) (hi : i < f.w) : bit ((c.setBit f i).rd f) i = true := by
  unfold Chip.setBit
  split
  next hset => exact hset
  next hclear =>
    have hclear := Bool.eq_false_iff.2 hclear
    rw [Chip.rd_wr_fits _ _ h, Nat.mod_eq_of_lt (bit_add_pow_lt hclear (c.rd_lt f) hi)]
    exact bit_add_pow_same hclear

theorem Chip.rd_setBit_other (c : Chip) (f g : Fld) (i : Nat) (h : f.off ≠ g.off) : (c.setBit f i).rd g = c.rd g := by
  unfold Chip.setBit
  split
  · rfl
  · exact Chip.rd_wr_other _ _ _ _ h

theorem Chip.on_setBit_other (c : Chip) (f g : Fld) (i : Nat) (h : f.off ≠ g.off) : (c.setBit f i).on g = c.on g := by
  rw [Chip.on, Chip.rd_setBit_other c f g i h, Chip.on]

end

end Sys2Proof.Machine
end

section
/-! SUPPORT. Resets: what a PIN reset and a POR keep, and what memory reads after them. -/

namespace Sys2Proof.Machine

/-! ### DRAM reads 0 after a range is cleared -/

theorem Memory.read_of_notListed (m : Memory) (a : Nat) (h : ∀ p ∈ m, p.1 ≠ a) : m.read a = 0 := by
  induction m with
  | nil => rfl
  | cons p m ih =>
    obtain ⟨b, w⟩ := p
    have hb : b ≠ a := h (b, w) (List.mem_cons_self ..)
    unfold Memory.read
    rw [if_neg hb, ih fun q hq => h q (List.mem_cons_of_mem _ hq), ite_self]

theorem Memory.read_clear (m : Memory) (x n a : Nat) (hx : x ≤ a) (hn : a < x + n) : (m.clear x n).read a = 0 := by
  refine Memory.read_of_notListed _ a fun p hp he => ?_
  have := (List.mem_filter.1 hp).2
  simp [he, hx, hn] at this

/-- The last write of a command to memory. -/
theorem State.commit_mem_append (s : State) (c : Chip) (ops : List MemOp) (o : MemOp) (h : c.out = ops ++ [o]) :
    (s.commit c).mem = (ops.foldl Memory.apply s.mem).apply o := by
  rw [State.commit_mem, h, List.foldl_append]
  rfl

/-- The part is in a PIN reset or a POR: its take queue is empty, the journal is the one of before, and DRAM is cleared last of all. -/
structure Chip.ResetFrom (c d : Chip) : Prop where
  held : d.pwr.phase = .held
  journal : d.fw.journal = c.fw.journal
  queue : d.fw.queue = []
  out : ∃ ops, d.out = ops ++ [.clear dramBase (2 ^ 41)]

theorem State.commit_dram_zero {s : State} {c d : Chip} (h : Chip.ResetFrom c d) (a : Nat) (hlo : dramBase ≤ a) (hhi : a < dramBase + 2 ^ 41) :
    (s.commit d).mem.read a = 0 := by
  obtain ⟨ops, hout⟩ := h.out
  rw [State.commit_mem_append s d ops _ hout]
  exact Memory.read_clear _ _ _ a hlo hhi

theorem Chip.ResetFrom.wr {c d : Chip} {f : Fld} {v : Nat} (h : Chip.ResetFrom c d) : Chip.ResetFrom c (d.wr f v) :=
  ⟨by simpa using h.held, by simpa using h.journal, by simpa using h.queue, by simpa using h.out⟩

theorem Chip.ResetFrom.when {c d : Chip} {b : Bool} {k : Chip → Chip} (h : Chip.ResetFrom c d) (hk : Chip.ResetFrom c (k d)) :
    Chip.ResetFrom c (d.when b k) := by
  cases b
  · exact h
  · exact hk

theorem Chip.ResetFrom.setBit {c d : Chip} {f : Fld} {i : Nat} (h : Chip.ResetFrom c d) : Chip.ResetFrom c (d.setBit f i) := by
  unfold Chip.setBit
  split
  · exact h
  · exact h.wr

theorem Chip.ResetFrom.wakeBits {c d : Chip} {q s p : Bool} (h : Chip.ResetFrom c d) : Chip.ResetFrom c (d.wakeBits q s p) := by
  unfold Chip.wakeBits
  exact h.when ((h.wr.when h.wr.wr).when ((h.wr.when h.wr.wr).wr))

theorem Chip.ResetFrom.railWarn {c d : Chip} {m : Nat} (h : Chip.ResetFrom c d) : Chip.ResetFrom c (d.railWarn m) := by
  cases hm : bit (d.rd PWR_STATUS_RAIL_BELOW_WARN) m with
  | true => rwa [d.railWarn_of_below m hm]
  | false =>
    rw [d.railWarn_of_above m hm, Chip.railMarked]
    exact (h.setBit.wr.wr.setBit).when h.setBit.wr.wr.setBit.wr

theorem Chip.pinReset_resetFrom (c : Chip) : Chip.ResetFrom c (c.pinReset .held) :=
  ⟨rfl, by simp [Chip.pinReset, Chip.wiped, Chip.set_def], by simp [Chip.pinReset, Chip.wiped, Chip.set_def],
    c.out ++ [.clear bar2Base 0x4_0000, .clear 0x3000_0000 0x20_0000], by simp [Chip.pinReset, Chip.wiped, Chip.set_def]⟩

theorem Chip.por_resetFrom (c : Chip) (source : Nat) : Chip.ResetFrom c (c.por .held source) :=
  ⟨rfl, by simp [Chip.por, Chip.wiped, Chip.wrB_def], by simp [Chip.por, Chip.wiped, Chip.wrB_def],
    c.out ++ [.clear bar2Base 0x4_0000, .clear 0x3000_0000 0x20_0000], by simp [Chip.por, Chip.wiped, Chip.wrB_def]⟩

/-! ### What a reset and the end of QUIET set -/

theorem Chip.on_pinReset_cause (c : Chip) (ph : Phase) : (c.pinReset ph).on TOP_RESET_CAUSE_PIN = true :=
  Chip.on_set_same (c.wiped rkPin) rfl (by decide)

theorem Chip.get_por_source (c : Chip) (ph : Phase) (source : Nat) (h : source < 2 ^ 32) : (c.por ph source).get PWR_POR_SOURCE = source := by
  have hput : (c.por ph source).get PWR_POR_SOURCE
      = (((c.wiped rkPor).put TOP_RESET_CAUSE (c.inProgress ||| 8)).put PWR_POR_SOURCE source).get PWR_POR_SOURCE :=
    (Chip.get_wr_other _ _ _ _ (by decide)).trans (Chip.get_wr_other _ _ _ _ (by decide))
  rw [hput, Chip.get_put_same, Nat.mod_eq_of_lt h]

theorem Chip.on_por_cause (c : Chip) (ph : Phase) (source : Nat) : (c.por ph source).on TOP_RESET_CAUSE_POR = true := by
  have hput : (c.por ph source).rd TOP_RESET_CAUSE_POR = ((c.wiped rkPor).put TOP_RESET_CAUSE (c.inProgress ||| 8)).rd TOP_RESET_CAUSE_POR :=
    ((Chip.rd_wr_other _ _ _ _ (by decide)).trans (Chip.rd_wr_other _ _ _ _ (by decide))).trans (Chip.rd_put_other _ _ _ _ (by decide))
  have hput2 : ((c.wiped rkPor).put TOP_RESET_CAUSE (c.inProgress ||| 8)).rd TOP_RESET_CAUSE_POR = bits ((c.inProgress ||| 8) % 2 ^ 32) 3 1 :=
    Chip.rd_put_same _ TOP_RESET_CAUSE _ 3 1
  have hbit : (c.inProgress ||| 8).testBit 3 = true := by
    rw [Nat.testBit_or, show Nat.testBit 8 3 = true from rfl, Bool.or_true]
  have hone : bits ((c.inProgress ||| 8) % 2 ^ 32) 3 1 = 1 := by
    rw [Nat.testBit_eq_decide_div_mod_eq] at hbit
    have := of_decide_eq_true hbit
    unfold bits
    omega
  rw [Chip.on, hput, hput2, hone]
  rfl

theorem Chip.get_wakeBits_other (c : Chip) (q s p : Bool) (r : Reg) (h : PWR_WAKE_CAUSE.off ≠ r.off) : (c.wakeBits q s p).get r = c.get r := by
  have hset : ∀ (d : Chip) (f : Fld), f.off = PWR_WAKE_CAUSE.off → (d.set f).get r = d.get r := fun d f hf =>
    Chip.get_wr_other d f 1 r (hf ▸ h)
  have hbits : ∀ (d : Chip) (b : Bool) (f : Fld), f.off = PWR_WAKE_CAUSE.off → (d.when b (·.set f)).get r = d.get r := fun d b f hf => by
    rw [Chip.get_when, hset d f hf, ite_self]
  unfold Chip.wakeBits
  rw [Chip.get_when, hbits _ _ _ rfl, hbits _ _ _ rfl, hset _ _ rfl, ite_self]

/-- FROM_QUIET stays set under the other wake bits. -/
theorem Chip.wakeBits_fromQuiet (c : Chip) (s p : Bool) : (c.wakeBits true s p).on PWR_WAKE_CAUSE_FROM_QUIET = true := by
  have hfrom : (c.set PWR_WAKE_CAUSE_FROM_QUIET).on PWR_WAKE_CAUSE_FROM_QUIET = true := Chip.on_set_same c rfl (by decide)
  have hsvc : ((c.set PWR_WAKE_CAUSE_FROM_QUIET).when s (·.set PWR_WAKE_CAUSE_BY_SVC)).on PWR_WAKE_CAUSE_FROM_QUIET = true := by
    rw [Chip.on_when, Chip.set_def _ PWR_WAKE_CAUSE_BY_SVC, Chip.on_wr_clear _ _ (by rfl) (by rfl), hfrom, ite_self]
  unfold Chip.wakeBits
  rw [Chip.when_true, Chip.on_when, Chip.set_def _ PWR_WAKE_CAUSE_BY_PIN, Chip.on_wr_clear _ _ (by rfl) (by rfl), hsvc, ite_self]

theorem Chip.wakeBits_byPin (c : Chip) (s : Bool) : (c.wakeBits true s true).on PWR_WAKE_CAUSE_BY_PIN = true :=
  Chip.on_set_same _ rfl (by decide)

theorem Chip.wakeBits_bySvc (c : Chip) : (c.wakeBits true true false).on PWR_WAKE_CAUSE_BY_SVC = true :=
  Chip.on_set_same _ rfl (by decide)

/-- A rail that goes below warning writes the status, the history and the count of dips, and no other register. -/
theorem Chip.get_railWarn_other (c : Chip) (m : Nat) (r : Reg) (hs : PWR_STATUS.off ≠ r.off) (hh : PWR_RAIL_HIST.off ≠ r.off)
    (he : PWR_BOD_EVENTS.off ≠ r.off) : (c.railWarn m).get r = c.get r := by
  cases hm : bit (c.rd PWR_STATUS_RAIL_BELOW_WARN) m with
  | true => rw [c.railWarn_of_below m hm]
  | false =>
    have hmarked : (c.railMarked m).get r = c.get r := by
      rw [Chip.railMarked, Chip.get_setBit_other _ _ _ _ hh, Chip.set_def, Chip.get_wr_other _ _ _ _ hs, Chip.set_def,
        Chip.get_wr_other _ _ _ _ hs, Chip.get_setBit_other _ _ _ _ hs]
    rw [c.railWarn_of_above m hm, Chip.get_when, Chip.inc_def, Chip.get_wr_other _ _ _ _ he, hmarked, ite_self]

/-- After it the rail is below warning, noted in the history, and MRAM writes are held. -/
theorem Chip.railMarked_marks (c : Chip) (m : Nat) (hm : m < 8) :
    (c.railMarked m).on PWR_STATUS_BOD_WARN = true ∧ (c.railMarked m).on PWR_STATUS_MRAM_HOLD = true
      ∧ bit ((c.railMarked m).rd PWR_RAIL_HIST_WARN_SEEN) m = true ∧ bit ((c.railMarked m).rd PWR_STATUS_RAIL_BELOW_WARN) m = true := by
  unfold Chip.railMarked
  refine ⟨?_, ?_, Chip.bit_rd_setBit_same _ m rfl hm, ?_⟩
  · rw [Chip.on_setBit_other _ _ _ _ (by decide), Chip.set_def _ PWR_STATUS_MRAM_HOLD, Chip.on_wr_clear _ _ (by rfl) (by rfl)]
    exact Chip.on_set_same _ rfl (by decide)
  · rw [Chip.on_setBit_other _ _ _ _ (by decide)]
    exact Chip.on_set_same _ rfl (by decide)
  · rw [Chip.rd_setBit_other _ _ _ _ (by decide), Chip.set_def _ PWR_STATUS_MRAM_HOLD, Chip.rd_wr_clear _ _ (by rfl) (by rfl), Chip.set_def,
      Chip.rd_wr_clear _ _ (by rfl) (by rfl)]
    exact Chip.bit_rd_setBit_same _ m rfl hm

theorem Chip.railWarn_below (c : Chip) (m : Nat) (hm : m < 8) : bit ((c.railWarn m).rd PWR_STATUS_RAIL_BELOW_WARN) m = true := by
  cases h : bit (c.rd PWR_STATUS_RAIL_BELOW_WARN) m with
  | true => rwa [c.railWarn_of_below m h]
  | false =>
    obtain ⟨-, -, -, hbelow⟩ := c.railMarked_marks m hm
    rw [c.railWarn_of_above m h, Chip.rd_when, Chip.inc_def, Chip.rd_wr_other _ _ _ _ (by decide), ite_self]
    exact hbelow

/-- A record write cut short changes nothing but the update record's copies. -/
theorem Chip.recordCut_shape (c : Chip) : ∃ n u, c.recordCut = { c with free := n, upd := u } := by
  unfold Chip.recordCut
  split
  · split
    · exact ⟨_, _, rfl⟩
    · exact ⟨c.free, c.upd, rfl⟩
  · exact ⟨c.free, c.upd, rfl⟩

theorem Chip.recordCut_pwr (c : Chip) : c.recordCut.pwr = c.pwr := by obtain ⟨_, _, h⟩ := c.recordCut_shape; rw [h]
theorem Chip.recordCut_fw (c : Chip) : c.recordCut.fw = c.fw := by obtain ⟨_, _, h⟩ := c.recordCut_shape; rw [h]
theorem Chip.recordCut_regs (c : Chip) : c.recordCut.regs = c.regs := by obtain ⟨_, _, h⟩ := c.recordCut_shape; rw [h]

theorem Chip.recordCut_heldByPor (c : Chip) : c.recordCut.heldByPor = c.heldByPor := by unfold Chip.heldByPor; rw [c.recordCut_pwr]

theorem Chip.railReset_of_por (c : Chip) (m : Nat) (hm : m ≠ 1) (h : c.heldByPor = true) : c.railReset m = c.recordCut.railWarn m := by
  have h2 := c.recordCut_heldByPor.trans h
  unfold Chip.railReset
  simp only [if_neg hm, h2, if_true]

theorem Chip.railReset_of_not_por (c : Chip) (m : Nat) (hm : m ≠ 1) (h : c.heldByPor = false) :
    c.railReset m = ((c.recordCut.por .held (2 ^ m)).railWarn m).wakeBits (c.pwr.phase == .quiet) false false := by
  have h2 := c.recordCut_heldByPor.trans h
  unfold Chip.railReset
  simp only [if_neg hm, h2, Bool.false_eq_true, if_false, c.recordCut_pwr]

/-- Settles O17: a PIN reset and a POR write the causes after the classes are lost and clear DRAM last; what a rail or the end of QUIET records comes
after them in other registers. -/
theorem resetsBegin : Obligations.ResetsBegin := by
  unfold Obligations.ResetsBegin
  refine ⟨⟨?_, ?_, ?_, ?_, ?_, ?_, ?_, ?_⟩, ?_⟩
  · rintro s t c rfl - hphase
    have hrow : (s.chipAt t).resetNLow = ((s.chipAt t).pinReset .held).wakeBits ((s.chipAt t).pwr.phase == .quiet) false true := if_neg hphase
    have hreset := ((s.chipAt t).pinReset_resetFrom).wakeBits (q := (s.chipAt t).pwr.phase == .quiet) (s := false) (p := true)
    rw [← hrow] at hreset
    refine ⟨_, rfl, hreset.held, ?_, hreset.journal, hreset.queue, State.commit_dram_zero hreset, fun hquiet => ?_⟩
    · rw [State.commit_on, hrow, Chip.on, Chip.rd, Chip.get_wakeBits_other _ _ _ _ _ (by decide)]
      exact (s.chipAt t).on_pinReset_cause .held
    · rw [State.commit_on, State.commit_on, hrow, hquiet]
      exact ⟨Chip.wakeBits_fromQuiet _ _ _, Chip.wakeBits_byPin _ _⟩
  · rintro s t c rfl hphase
    refine ⟨_, rfl, ?_⟩
    have hrow : (s.chipAt t).resetNLow = { (s.chipAt t).set TOP_RESET_CAUSE_PIN with
        pwr := { ((s.chipAt t).set TOP_RESET_CAUSE_PIN).pwr with asked := ((s.chipAt t).set TOP_RESET_CAUSE_PIN).pwr.asked ||| 4 } } := if_pos hphase
    rw [hrow]
    exact ⟨(congrArg Pwr.phase (Chip.wr_pwr _ _ _)).trans hphase, Chip.on_set_same (s.chipAt t) rfl (by decide),
      fun r hr => Chip.get_wr_other (s.chipAt t) _ _ r (Ne.symm hr)⟩
  · rintro s t c rfl - hpor
    have hrow : (s.chipAt t).porstLow = ((s.chipAt t).por .held 0x100).wakeBits ((s.chipAt t).pwr.phase == .quiet) false true :=
      if_neg (Bool.eq_false_iff.1 hpor)
    have hreset := ((s.chipAt t).por_resetFrom 0x100).wakeBits (q := (s.chipAt t).pwr.phase == .quiet) (s := false) (p := true)
    rw [← hrow] at hreset
    refine ⟨_, rfl, hreset.held, ?_, ?_, hreset.journal, hreset.queue, State.commit_dram_zero hreset, fun hquiet => ?_⟩
    · rw [State.commit_on, hrow, Chip.on, Chip.rd, Chip.get_wakeBits_other _ _ _ _ _ (by decide)]
      exact (s.chipAt t).on_por_cause .held 0x100
    · rw [State.commit_get, hrow, Chip.get_wakeBits_other _ _ _ _ _ (by decide), Chip.get_por_source _ _ _ (by decide)]
    · rw [State.commit_on, State.commit_on, hrow, hquiet]
      exact ⟨Chip.wakeBits_fromQuiet _ _ _, Chip.wakeBits_byPin _ _⟩
  · rintro s t c rfl hpor
    have hrow : (s.chipAt t).porstLow = s.chipAt t := if_pos hpor
    refine ⟨_, rfl, ?_⟩
    rw [hrow]
    exact ⟨rfl, rfl, rfl⟩
  · rintro s t c m rfl - hpor hm
    have hrow := (s.chipAt t).railReset_of_not_por m.val hm hpor
    have hreset := (((s.chipAt t).recordCut.por_resetFrom (2 ^ m.val)).railWarn (m := m.val)).wakeBits
      (q := (s.chipAt t).pwr.phase == .quiet) (s := false) (p := false)
    rw [← hrow] at hreset
    have hsource : 2 ^ m.val < 2 ^ 32 := Nat.pow_lt_pow_right (by decide) (by omega)
    have hexec : exec (.railBelowReset t m) s = .next (s.commit ((s.chipAt t).railReset m.val)) := rfl
    refine ⟨_, hexec, hreset.held, ?_, ?_, ?_, hreset.journal.trans (congrArg Fw.journal (Chip.recordCut_fw _)), hreset.queue,
      State.commit_dram_zero hreset, fun hquiet => ?_⟩
    · rw [State.commit_on, hrow, Chip.on, Chip.rd, Chip.get_wakeBits_other _ _ _ _ _ (by decide),
        Chip.get_railWarn_other _ _ _ (by decide) (by decide) (by decide)]
      exact (s.chipAt t).recordCut.on_por_cause .held _
    · rw [State.commit_get, hrow, Chip.get_wakeBits_other _ _ _ _ _ (by decide),
        Chip.get_railWarn_other _ _ _ (by decide) (by decide) (by decide), Chip.get_por_source _ _ _ hsource]
    · rw [State.commit_rd, hrow, Chip.rd, Chip.get_wakeBits_other _ _ _ _ _ (by decide)]
      exact Chip.railWarn_below _ m.val m.isLt
    · rw [State.commit_on, hrow, hquiet]
      exact Chip.wakeBits_fromQuiet _ _ _
  · rintro s t c m rfl hpor hm
    have hrow := (s.chipAt t).railReset_of_por m.val hm hpor
    have hheld : (s.chipAt t).pwr.phase = .held := by
      have := hpor
      simp only [Chip.heldByPor, Bool.and_eq_true, beq_iff_eq] at this
      exact this.1
    have hexec : exec (.railBelowReset t m) s = .next (s.commit ((s.chipAt t).railReset m.val)) := rfl
    refine ⟨_, hexec, ?_⟩
    rw [hrow]
    refine ⟨?_, ?_, Chip.railWarn_below _ m.val m.isLt⟩
    · have hpwr := (Chip.railWarn_within (m := m.val) (P := [2]) (T := []) (c := (s.chipAt t).recordCut) .refl rfl rfl).part .pwr (by decide)
      exact (congrArg Pwr.phase (hpwr.trans (Chip.recordCut_pwr _))).trans hheld
    · rw [State.commit_get, Chip.get_railWarn_other _ _ _ (by decide) (by decide) (by decide)]
      exact Chip.get_of_cell (Chip.cell_of_regs (Chip.recordCut_regs _) _)
  · rintro s t -
    have hreset := (s.chipAt t).recordCut.por_resetFrom 0x200
    exact ⟨_, rfl, hreset.held, (s.chipAt t).recordCut.on_por_cause .held _,
      Chip.get_por_source (s.chipAt t).recordCut .held 0x200 (by decide), State.commit_dram_zero hreset⟩
  · rintro s t -
    generalize hc : ({ (s.chipAt t).recordCut with pwr := { (s.chipAt t).recordCut.pwr with phase := .running } } : Chip) = c
    have hreset : Chip.ResetFrom c (((c.por .held 0x200).wr PWR_STATUS_RAIL_BELOW_WARN 0).clr PWR_STATUS_MRAM_HOLD) := (c.por_resetFrom 0x200).wr.wr
    have hother : ∀ r : Reg, PWR_STATUS.off ≠ r.off →
        (((c.por .held 0x200).wr PWR_STATUS_RAIL_BELOW_WARN 0).clr PWR_STATUS_MRAM_HOLD).get r = (c.por .held 0x200).get r := fun r hr =>
      (Chip.get_wr_other _ _ _ r hr).trans (Chip.get_wr_other _ _ _ r hr)
    have hrow : exec (.firstPowerUp t) s
        = .next (s.commit (((c.por .held 0x200).wr PWR_STATUS_RAIL_BELOW_WARN 0).clr PWR_STATUS_MRAM_HOLD)) := by rw [← hc]; rfl
    refine ⟨_, hrow, hreset.held, ?_, ?_, State.commit_dram_zero hreset⟩
    · rw [State.commit_on, Chip.on, Chip.rd, hother _ (by decide)]
      exact c.on_por_cause .held _
    · rw [State.commit_get, hother _ (by decide)]
      exact Chip.get_por_source _ _ _ (by decide)
  · exact fun s t => ⟨_, rfl, rfl, rfl, rfl⟩

end Sys2Proof.Machine
end

section
/-! SUPPORT. Tables of working state: what an index holds after one was set. -/

namespace Sys2Proof.Machine

section
variable {α : Type} (dflt x : α) (m : List (Nat × α)) (i k : Nat)

theorem tget_tdel : tget dflt (tdel m i) k = if k = i then dflt else tget dflt m k := by
  induction m with
  | nil => simp [tdel, tget]
  | cons e m ih =>
    obtain ⟨j, v⟩ := e
    by_cases hj : j = i <;> by_cases hk : j = k <;> simp_all [tdel, tget]

theorem tget_tins : tget dflt (tins m i x) k = if k = i then x else tget dflt m k := by
  induction m with
  | nil => simp [tins, tget, eq_comm]
  | cons e m ih =>
    obtain ⟨j, v⟩ := e
    unfold tins
    split
    next hj =>
      subst hj
      by_cases hk : j = k
      · simp [tget, hk]
      · simp [tget, hk, Ne.symm hk]
    next hj =>
      split
      · by_cases hk : i = k
        · simp [tget, hk]
        · simp [tget, hk, Ne.symm hk]
      · by_cases hk : j = k
        · subst hk; simp [tget, hj]
        · simp [tget, hk, ih]

theorem tget_tput [DecidableEq α] : tget dflt (tput dflt m i x) k = if k = i then x else tget dflt m k := by
  unfold tput
  split
  next hx => rw [tget_tdel, hx]
  next => exact tget_tins dflt x m i k

end

section
variable (c : Chip) (i k : Nat)

@[simp] theorem Chip.src_setSrc (x : Src) : (c.setSrc i x).src k = if k = i then x else c.src k := tget_tput ..
@[simp] theorem Chip.dst_setDst (x : Dst) : (c.setDst i x).dst k = if k = i then x else c.dst k := tget_tput ..
@[simp] theorem Chip.dmcCh_setDmcCh (x : DmcCh) : (c.setDmcCh i x).dmcCh k = if k = i then x else c.dmcCh k := tget_tput ..
@[simp] theorem Chip.carafe_setCarafe (x : Carafe) : (c.setCarafe i x).carafe k = if k = i then x else c.carafe k := tget_tput ..
@[simp] theorem Chip.play_setPlay (x : Play) : (c.setPlay i x).play k = if k = i then x else c.play k := tget_tput ..
@[simp] theorem Chip.sdiLane_setSdiLane (x : SdiLane) : (c.setSdiLane i x).sdiLane k = if k = i then x else c.sdiLane k := tget_tput ..
@[simp] theorem Chip.lane_setLane (x : FabLane) : (c.setLane i x).lane k = if k = i then x else c.lane k := tget_tput ..
@[simp] theorem Chip.link_setLink (x : Link) : (c.setLink i x).link k = if k = i then x else c.link k := tget_tput ..
@[simp] theorem Chip.flow_setFlow (x : Flow) : (c.setFlow i x).flow k = if k = i then x else c.flow k := tget_tput ..
@[simp] theorem Chip.sender_setSender (x : Sender) : (c.setSender i x).sender k = if k = i then x else c.sender k := tget_tput ..
@[simp] theorem Chip.coef_setCoef (x : Coef) : (c.setCoef i x).coef k = if k = i then x else c.coef k := tget_tput ..
@[simp] theorem Chip.filt_setFilt (x : Filt) : (c.setFilt i x).filt k = if k = i then x else c.filt k := tget_tput ..
@[simp] theorem Chip.lim_setLim (x : Lim) : (c.setLim i x).lim k = if k = i then x else c.lim k := tget_tput ..
@[simp] theorem Chip.sapPort_setSap (x : SapPort) : (c.setSap i x).sapPort k = if k = i then x else c.sapPort k := tget_tput ..
@[simp] theorem Chip.head_setHead (x : Head) : (c.setHead i x).head k = if k = i then x else c.head k := tget_tput ..
@[simp] theorem Head.vl_setVl (x : Head) (y : VLayer) : (x.setVl i y).vl k = if k = i then y else x.vl k := tget_tput ..
@[simp] theorem Head.gl_setGl (x : Head) (y : GLayer) : (x.setGl i y).gl k = if k = i then y else x.gl k := tget_tput ..

end

end Sys2Proof.Machine
end

section
/-! SUPPORT. The block's form, the state after the first power-up, and the frame of the queue. -/

namespace Sys2Proof.Machine

/-- Settles O1: a step runs the front command on the state with the rest of the queue. -/
theorem stepRunsFront : Obligations.StepRunsFront := by
  unfold Obligations.StepRunsFront
  exact fun _ _ => rfl

/-- Settles O2: a step looks at the front of the queue alone. -/
theorem idleStep : Obligations.IdleStep := by
  unfold Obligations.IdleStep
  intro s hempty
  rw [step, hempty]

/-- Settles O3: of the registers only PWR_POR_SOURCE is listed. -/
theorem resetState : Obligations.ResetState := by
  unfold Obligations.ResetState
  refine ⟨rfl, rfl, rfl, fun r hr => ?_⟩
  have hfind : State.reset.chip.regs.find r.off = none := if_neg (Ne.symm hr)
  rw [Chip.get, hfind]

/-- Settles O4: nothing is listed in memory and nothing is outstanding. -/
theorem resetInv : Obligations.ResetInv := ⟨rfl, rfl, rfl⟩

/-- Settles O6: every command is one run of the common frame, which keeps the queue. -/
theorem execKeepsQueue : Obligations.ExecKeepsQueue := by
  unfold Obligations.ExecKeepsQueue
  intro i s
  obtain ⟨t, f, hexec⟩ := exec_run i s
  exact ⟨_, hexec, rfl⟩

end Sys2Proof.Machine
end

section
/-! SUPPORT. The hold of MRAM writes in a brown-out, and QUIET (chapter 03). -/

namespace Sys2Proof.Machine

/-- A rail newly below warning sets its marks, whether or not its dip counts. -/
theorem Chip.railWarn_marks (c : Chip) (m : Nat) (hm : m < 8) (h : bit (c.rd PWR_STATUS_RAIL_BELOW_WARN) m = false) :
    (c.railWarn m).on PWR_STATUS_BOD_WARN = true ∧ (c.railWarn m).on PWR_STATUS_MRAM_HOLD = true
      ∧ bit ((c.railWarn m).rd PWR_RAIL_HIST_WARN_SEEN) m = true ∧ bit ((c.railWarn m).rd PWR_STATUS_RAIL_BELOW_WARN) m = true := by
  have hother (g : Fld) (hg : PWR_BOD_EVENTS_COUNT.off ≠ g.off) : (c.railWarn m).rd g = (c.railMarked m).rd g := by
    rw [c.railWarn_of_above m h, Chip.rd_when, Chip.inc_def, Chip.rd_wr_other _ _ _ _ hg, ite_self]
  rw [Chip.on, Chip.on, hother _ (by decide), hother _ (by decide), hother _ (by decide), hother _ (by decide)]
  exact c.railMarked_marks m hm

/-- What follows the marks of a rail — the event and a handover asked for — stays off the power page. -/
theorem Chip.railBelow_then (c d : Chip) (m : Nat) (b : Bool) (hd : d = c.railBelow m)
    (h : bit (c.rd PWR_STATUS_RAIL_BELOW_WARN) m = false) :
    Chip.Within [0, 1, 112] [.mem, .sent, .twn] (c.railWarn m) (d.when b (·.askHandover 3 (us 100) false)) := by
  have hpost : d = (c.railWarn m).post 0x01 0x0001 m ((c.railWarn m).rd PWR_BOD_EVENTS_COUNT) := by
    rw [hd]
    exact if_neg (Bool.eq_false_iff.1 h)
  rw [hpost]
  cases b with
  | false => exact Chip.Within.post .refl (by decide)
  | true => exact Chip.askHandover_within (Chip.Within.post .refl (by decide)) rfl rfl

/-- Taking a set bit's value away clears that bit. -/
theorem bit_sub_pow_same {x i : Nat} (h : bit x i = true) : bit (x - 2 ^ i) i = false := by
  unfold bit at h ⊢
  have hone : x / 2 ^ i % 2 = 1 := by simpa using h
  have hdiv : (x - 2 ^ i) / 2 ^ i = x / 2 ^ i - 1 := by
    have := Nat.sub_mul_div x (2 ^ i) 1
    rwa [Nat.mul_one] at this
  rw [hdiv, show (x / 2 ^ i - 1) % 2 = 0 by omega]
  rfl

/-- With nothing outstanding the bus only shows its port registers. -/
theorem Chip.busRun_idle (c : Chip) (mem : Memory) (h : c.bus.outs = []) : c.busRun mem = c.busShow := by
  rw [Chip.busRun, h]
  rfl

/-- With nothing waiting on it the end of the hold clears the hold alone, beside the port registers. -/
theorem Chip.holdRelease_of_idle (c : Chip) (mem : Memory) (hwaits : c.fw.waits = []) (hheld : c.twn.held = []) (houts : c.bus.outs = [])
    (hchecked : c.upd.checked = false) :
    (((c.heldProceed).when (c.heldProceed.ready && c.heldProceed.upd.checked && c.heldProceed.updRec.trial && c.heldProceed.updRec.auto)
      (·.confirm)).commandsDue mem).busRun mem = c.busShow := by
  have hproceed : c.heldProceed = c := by
    rw [Chip.heldProceed, hwaits]
    rfl
  rw [hproceed, hchecked, Bool.and_false, Bool.false_and, Bool.false_and, Chip.when_false, Chip.commandsDue, hheld]
  exact c.busRun_idle mem houts

/-- The port registers stand on the bus page. -/
theorem Chip.on_busShow (c : Chip) (f : Fld) (h : ∀ m < 10, (BUS_MST_STAT m).off ≠ f.off) : c.busShow.on f = c.on f := by
  refine Chip.each_keeps (fun c => c.on f) _ _ (fun c m hm => ?_) c
  have hne := h m (List.mem_range.1 hm)
  exact ((Chip.on_wr_other _ _ _ _ hne).trans (Chip.on_wr_other _ _ _ _ hne)).trans (Chip.on_wr_other _ _ _ _ hne)

/-- Settles O20: the marks of a rail stand before the event and the handover, which change other registers; the hold ends by itself. -/
theorem brownOutHold : Obligations.BrownOutHold := by
  unfold Obligations.BrownOutHold
  refine ⟨?_, ?_, ?_, ?_, ?_⟩
  · rintro s t m c rfl habove
    obtain ⟨hwarn, hhold, hseen, hbelow⟩ := (s.chipAt t).railWarn_marks m.val m.isLt habove
    have hafter := (s.chipAt t).railBelow_then _ m.val
      (!(bit ((s.chipAt t).rd PWR_STATUS_RAIL_BELOW_WARN) m.val) && ((s.chipAt t).railBelow m.val).live
        && ((s.chipAt t).railBelow m.val).on TWN_CFG_TWN_BOD_POLICY) rfl habove
    refine ⟨_, rfl, ?_, ?_, ?_, ?_, ?_⟩
    · exact (Chip.on_of_cell (hafter.cell _ (by decide))).trans hwarn
    · exact (Chip.on_of_cell (hafter.cell _ (by decide))).trans hhold
    · exact (congrArg (bit · m.val) (Chip.rd_of_cell (hafter.cell _ (by decide)))).trans hseen
    · exact (congrArg (bit · m.val) (Chip.rd_of_cell (hafter.cell _ (by decide)))).trans hbelow
    · exact (hafter.part .pwr (by decide)).trans ((Chip.railWarn_within (m := m.val) (P := [2]) (T := []) .refl rfl rfl).part .pwr (by decide))
  · rintro s t m c rfl hbelow
    have hrow : exec (.railAboveWarning t m) s = .next (s.commit ((s.chipAt t).wr PWR_STATUS_RAIL_BELOW_WARN
        ((s.chipAt t).rd PWR_STATUS_RAIL_BELOW_WARN - 2 ^ m.val))) :=
      congrArg (fun c => Host.Outcome.next (s.commit c)) (if_pos hbelow)
    have hlt : (s.chipAt t).rd PWR_STATUS_RAIL_BELOW_WARN - 2 ^ m.val < 2 ^ PWR_STATUS_RAIL_BELOW_WARN.w :=
      Nat.lt_of_le_of_lt (Nat.sub_le _ _) ((s.chipAt t).rd_lt _)
    refine ⟨_, hrow, ?_, ?_⟩
    · rw [State.commit_rd, Chip.rd_wr_fits _ _ rfl, Nat.mod_eq_of_lt hlt]
      exact bit_sub_pow_same hbelow
    · rw [State.commit_rd, Chip.rd_wr_clear _ _ (by rfl) (by rfl)]
  · rintro s t c rfl hhold hnone hidle
    have hgate : ((s.chipAt t).mramHeld && (s.chipAt t).rd PWR_STATUS_RAIL_BELOW_WARN == 0) = true := by
      rw [Chip.mramHeld, hhold, hnone]
      rfl
    have hcleared : ((s.chipAt t).clr PWR_STATUS_MRAM_HOLD).on PWR_STATUS_MRAM_HOLD = false := Chip.on_clr_same _ rfl
    refine ⟨_, rfl, ?_⟩
    rw [State.commit_on]
    dsimp only
    rw [hgate, Chip.when_true]
    cases hrun : (s.chipAt t).ready with
    | false => exact hcleared
    | true =>
      obtain ⟨hwaits, hheld, houts, hchecked⟩ := hidle hrun
      rw [Chip.when_true, Chip.holdRelease_of_idle _ _ (by rwa [Chip.clr_def, Chip.wr_fw]) (by rwa [Chip.clr_def, Chip.wr_twn])
        (by rwa [Chip.clr_def, Chip.wr_bus]) (by rwa [Chip.clr_def, Chip.wr_upd]), Chip.on_busShow _ _ (by decide)]
      exact hcleared
  · exact fun s t => ⟨_, rfl, rfl⟩
  · rintro s t c rfl hready hhold
    have hrow := State.fwStep_ready s t (fun c => c.when (!c.mramHeld) fun c => { c with pwr := { c.pwr with mramWrite := some c.now } }) hready
    refine ⟨_, hrow, ?_⟩
    rw [Chip.mramHeld, hhold, Bool.not_false, Chip.when_true]
    exact ⟨rfl, rfl⟩

/-- Settles O22: the three branches of the write of PWR_QUIET_CTL. -/
theorem quietEntryAndWake : Obligations.QuietEntryAndWake := by
  unfold Obligations.QuietEntryAndWake
  refine ⟨?_, ?_, ?_⟩
  · rintro s t c rfl hquiet hheld hmode
    have hrow : (s.chipAt t).svcQuiet 1 = (s.chipAt t).quiet := by
      rw [Chip.svcQuiet, if_neg hquiet, if_neg (by simp [bit, hheld]), if_neg hmode]
    refine ⟨_, congrArg (fun c => Host.Outcome.next (s.commit c)) hrow, rfl, ?_⟩
    rw [State.commit_fw, Chip.quiet, Chip.put_fw]
    rfl
  · rintro s t c rfl hquiet hheld hmode
    have hrow : (s.chipAt t).svcQuiet 1 = (s.chipAt t).set PWR_STATUS_QUIET_REFUSED := by
      rw [Chip.svcQuiet, if_neg hquiet, if_neg (by simp [bit, hheld]), if_pos hmode]
    refine ⟨_, congrArg (fun c => Host.Outcome.next (s.commit c)) hrow, ?_, Chip.on_set_same _ rfl (by decide)⟩
    rw [State.commit_pwr, Chip.set_def, Chip.wr_pwr]
  · rintro s t c rfl hquiet
    have hrow : (s.chipAt t).svcQuiet 2 = ((s.chipAt t).pinReset .released).wakeBits true true false := by
      rw [Chip.svcQuiet, if_pos hquiet, if_pos (by decide)]
    refine ⟨_, congrArg (fun c => Host.Outcome.next (s.commit c)) hrow, ?_, ?_, Chip.wakeBits_fromQuiet _ _ _, Chip.wakeBits_bySvc _⟩
    · rw [State.commit_pwr]
      simp [Chip.wakeBits, Chip.set_def, Chip.pinReset]
    · rw [State.commit_on, Chip.on, Chip.rd, Chip.get_wakeBits_other _ _ _ _ _ (by decide)]
      exact (s.chipAt t).on_pinReset_cause .released

end Sys2Proof.Machine
end

section
/-! SUPPORT. What a field that an operation does not touch reads after it. -/

namespace Sys2Proof.Machine

/-- Two fields share no bit: they lie in different registers, or apart in one. -/
def Fld.apart (f g : Fld) : Bool :=
  decide (f.off ≠ g.off ∨ (f.dflt = g.dflt ∧ f.lo + f.w ≤ 32 ∧ g.lo + g.w ≤ 32 ∧ (f.lo + f.w ≤ g.lo ∨ g.lo + g.w ≤ f.lo)))

theorem Fld.apart_of_off {f g : Fld} (h : f.off ≠ g.off) : f.apart g = true := decide_eq_true (.inl h)
theorem Fld.apart_of_clear {f g : Fld} (hd : f.dflt = g.dflt) (h : f.clearOf g = true) : f.apart g = true :=
  decide_eq_true (.inr ⟨hd, Fld.clearOf_iff.1 h⟩)

section
variable {f g : Fld} (c : Chip)

@[simp] theorem Chip.rd_wr_keeps (v : Nat) (h : f.apart g = true) : (c.wr f v).rd g = c.rd g := by
  by_cases ho : f.off = g.off
  · obtain ⟨hd, hf, hg, hlo⟩ := (of_decide_eq_true h).resolve_left (not_not_intro ho)
    exact Chip.rd_wr_apart c f g v ho hd hf hg hlo
  · exact Chip.rd_wr_other c f g v ho

@[simp] theorem Chip.rd_set_keeps (h : f.apart g = true) : (c.set f).rd g = c.rd g := c.rd_wr_keeps 1 h
@[simp] theorem Chip.rd_clr_keeps (h : f.apart g = true) : (c.clr f).rd g = c.rd g := c.rd_wr_keeps 0 h
@[simp] theorem Chip.rd_wrB_keeps (b : Bool) (h : f.apart g = true) : (c.wrB f b).rd g = c.rd g := c.rd_wr_keeps _ h
@[simp] theorem Chip.rd_wrI_keeps (i : Int) (h : f.apart g = true) : (c.wrI f i).rd g = c.rd g := c.rd_wr_keeps _ h
@[simp] theorem Chip.rd_add_keeps (k : Nat) (h : f.apart g = true) : (c.add f k).rd g = c.rd g := c.rd_wr_keeps _ h
@[simp] theorem Chip.rd_inc_keeps (h : f.apart g = true) : (c.inc f).rd g = c.rd g := c.rd_wr_keeps _ h
@[simp] theorem Chip.rd_setBit_keeps (i : Nat) (h : f.apart g = true) : (c.setBit f i).rd g = c.rd g := by
  unfold Chip.setBit
  split
  · rfl
  · exact c.rd_wr_keeps _ h
@[simp] theorem Chip.rd_clrBit_keeps (i : Nat) (h : f.apart g = true) : (c.clrBit f i).rd g = c.rd g := by
  unfold Chip.clrBit
  split
  · exact c.rd_wr_keeps _ h
  · rfl

@[simp] theorem Chip.on_wr_keeps (v : Nat) (h : f.apart g = true) : (c.wr f v).on g = c.on g := congrArg (· != 0) (c.rd_wr_keeps v h)
@[simp] theorem Chip.on_set_keeps (h : f.apart g = true) : (c.set f).on g = c.on g := congrArg (· != 0) (c.rd_set_keeps h)
@[simp] theorem Chip.on_clr_keeps (h : f.apart g = true) : (c.clr f).on g = c.on g := congrArg (· != 0) (c.rd_clr_keeps h)
@[simp] theorem Chip.on_wrB_keeps (b : Bool) (h : f.apart g = true) : (c.wrB f b).on g = c.on g := congrArg (· != 0) (c.rd_wrB_keeps b h)
@[simp] theorem Chip.on_wrI_keeps (i : Int) (h : f.apart g = true) : (c.wrI f i).on g = c.on g := congrArg (· != 0) (c.rd_wrI_keeps i h)
@[simp] theorem Chip.on_add_keeps (k : Nat) (h : f.apart g = true) : (c.add f k).on g = c.on g := congrArg (· != 0) (c.rd_add_keeps k h)
@[simp] theorem Chip.on_inc_keeps (h : f.apart g = true) : (c.inc f).on g = c.on g := congrArg (· != 0) (c.rd_inc_keeps h)
@[simp] theorem Chip.on_setBit_keeps (i : Nat) (h : f.apart g = true) : (c.setBit f i).on g = c.on g := congrArg (· != 0) (c.rd_setBit_keeps i h)
@[simp] theorem Chip.on_clrBit_keeps (i : Nat) (h : f.apart g = true) : (c.clrBit f i).on g = c.on g := congrArg (· != 0) (c.rd_clrBit_keeps i h)

end

section
variable {f : Fld} {r : Reg} (c : Chip)

theorem Chip.rd_wr_val (v : Nat) (h : f.lo + f.w ≤ 32) (hv : v < 2 ^ f.w) : (c.wr f v).rd f = v := by
  rw [Chip.rd_wr_same _ _ _ h, Nat.mod_eq_of_lt hv]

@[simp] theorem Chip.get_set_other (h : f.off ≠ r.off) : (c.set f).get r = c.get r := c.get_wr_other f 1 r h
@[simp] theorem Chip.get_clr_other (h : f.off ≠ r.off) : (c.clr f).get r = c.get r := c.get_wr_other f 0 r h
@[simp] theorem Chip.get_wrB_other (b : Bool) (h : f.off ≠ r.off) : (c.wrB f b).get r = c.get r := c.get_wr_other f _ r h
@[simp] theorem Chip.get_wrI_other (i : Int) (h : f.off ≠ r.off) : (c.wrI f i).get r = c.get r := c.get_wr_other f _ r h
@[simp] theorem Chip.get_add_other (k : Nat) (h : f.off ≠ r.off) : (c.add f k).get r = c.get r := c.get_wr_other f _ r h
@[simp] theorem Chip.get_inc_other (h : f.off ≠ r.off) : (c.inc f).get r = c.get r := c.get_wr_other f _ r h

end

end Sys2Proof.Machine
end

section
/-! SUPPORT. Monitors of the part (chapters 02, 03 and 09). -/

namespace Sys2Proof.Machine

/-- A destination is read off the table of destinations. -/
theorem Chip.dst_of_dsts {c d : Chip} (h : d.dsts = c.dsts) (k : Nat) : d.dst k = c.dst k := by
  rw [Chip.dst, Chip.dst, h]

/-! ### Signed fields -/

theorem toSigned_ofSigned {w : Nat} (hw : 0 < w) {i : Int} (hlo : -(2 ^ (w - 1) : Nat) ≤ i) (hhi : i < (2 ^ (w - 1) : Nat)) :
    toSigned w (ofSigned w i) = i := by
  have hpow : (2 : Nat) ^ w = 2 * 2 ^ (w - 1) := by
    rw [← Nat.pow_succ']
    congr 1
    omega
  unfold toSigned ofSigned
  rw [hpow]
  generalize (2 : Nat) ^ (w - 1) = n at *
  have hmod : i % ((2 * n : Nat) : Int) = if 0 ≤ i then i else i + (2 * n : Nat) := by
    split
    · exact Int.emod_eq_of_lt (by omega) (by push_cast; omega)
    · rw [← Int.add_emod_right]
      exact Int.emod_eq_of_lt (by push_cast; omega) (by push_cast; omega)
  have hlt : (i % ((2 * n : Nat) : Int)).toNat < 2 * n := by
    rw [hmod]
    split <;> (push_cast; omega)
  rw [Nat.mod_eq_of_lt hlt, hmod]
  split <;> split <;> omega

theorem clampI_bounds {lo hi x : Int} (h : lo ≤ hi) : lo ≤ clampI lo hi x ∧ clampI lo hi x ≤ hi := by
  unfold clampI
  omega

/-- A signed field reads back the value written, saturated to the field's range. -/
theorem Chip.rdI_wrI_same (c : Chip) (f : Fld) (i : Int) (h : f.fits = true) (hw : 0 < f.w) :
    (c.wrI f i).rdI f = clampI (-(2 ^ (f.w - 1) : Nat)) ((2 ^ (f.w - 1) : Nat) - 1) i := by
  have hone : 0 < 2 ^ (f.w - 1) := Nat.two_pow_pos _
  obtain ⟨hlo, hhi⟩ := clampI_bounds (lo := -(2 ^ (f.w - 1) : Nat)) (hi := (2 ^ (f.w - 1) : Nat) - 1) (x := i) (by omega)
  rw [Chip.rdI, Chip.wrI_def, Chip.rd_wr_fits _ _ h]
  have hmod (v : Nat) : toSigned f.w (v % 2 ^ f.w) = toSigned f.w v := by
    unfold toSigned
    rw [Nat.mod_mod]
  rw [hmod, toSigned_ofSigned hw hlo (by omega)]

/-! ### The rows -/

/-- A write within the limits of R93 is stored, with its other bits 0. -/
theorem Chip.monWrite_ok (c : Chip) (m v : Nat) (h : monOk (c.rd PWR_AVS_TARGET_STEP) m v = true) :
    (c.monWrite m v).get (PWR_MON_CFG m) = v &&& 0x0FFF0FFF := by
  have hlt : v &&& 0x0FFF0FFF < 2 ^ 32 := Nat.lt_of_le_of_lt Nat.and_le_right (by decide)
  rw [Chip.monWrite, if_pos h, Chip.get_put_same, Nat.mod_eq_of_lt hlt]

theorem Chip.monWrite_bad (c : Chip) (m v : Nat) (h : monOk (c.rd PWR_AVS_TARGET_STEP) m v = false) :
    c.monWrite m v = c.set PWR_STATUS_MON_CFG_REJECT := if_neg (Bool.eq_false_iff.1 h)

theorem bits_and_mask (v lo w m : Nat) (hm : ∀ i < w, m.testBit (lo + i) = true) : bits (v &&& m) lo w = bits v lo w := by
  unfold bits
  refine Nat.eq_of_testBit_eq fun i => ?_
  rw [Nat.testBit_mod_two_pow, Nat.testBit_mod_two_pow, Nat.testBit_div_two_pow, Nat.testBit_div_two_pow, Nat.testBit_and]
  by_cases hi : i < w
  · rw [Nat.add_comm i lo, hm i hi, Bool.and_true]
  · rw [decide_eq_false hi, Bool.false_and, Bool.false_and]

theorem thermStep_at {first armed : Bool} {temp level : Int} (h : level ≤ temp) : thermStep first armed temp level = (first || armed, false) := if_pos h
theorem thermStep_below {first armed : Bool} {temp level : Int} (h : temp < level) :
    thermStep first armed temp level = (false, (armed && !first) || decide (temp < level - 2)) := if_neg (by omega)

/-- The temperature read and both flags after a reading. -/
theorem Chip.therm_regs (c : Chip) (x : Int) :
    (c.therm x).rdI PWR_TEMP_TEMP = max (-(2 ^ (PWR_TEMP_TEMP.w - 1))) (min (2 ^ (PWR_TEMP_TEMP.w - 1) - 1) x)
      ∧ (c.therm x).on PWR_STATUS_THERM_WARN
        = ((thermStep (!c.pwr.tempRead) c.pwr.warnArmed x (c.rd PWR_THERM_WARN_LEVEL_LEVEL)).1 || c.on PWR_STATUS_THERM_WARN)
      ∧ (c.therm x).on PWR_STATUS_THERM_CRIT
        = ((thermStep (!c.pwr.tempRead) c.pwr.critArmed x (c.rd PWR_THERM_CRIT_LEVEL_LEVEL)).1 || c.on PWR_STATUS_THERM_CRIT) := by
  have htemp := c.rdI_wrI_same PWR_TEMP_TEMP x rfl (by decide)
  have hother (d : Chip) (f : Fld) (v : Nat) (hf : f.off ≠ PWR_TEMP.off) : (d.wr f v).rdI PWR_TEMP_TEMP = d.rdI PWR_TEMP_TEMP :=
    congrArg (toSigned 9) (Chip.rd_wr_other d f PWR_TEMP_TEMP v hf)
  generalize hw : (thermStep (!c.pwr.tempRead) c.pwr.warnArmed x (c.rd PWR_THERM_WARN_LEVEL_LEVEL)).1 = w
  generalize hk : (thermStep (!c.pwr.tempRead) c.pwr.critArmed x (c.rd PWR_THERM_CRIT_LEVEL_LEVEL)).1 = k
  have hregs (f : Fld) : (c.therm x).rd f = (((c.wrI PWR_TEMP_TEMP x).when w (·.set PWR_STATUS_THERM_WARN)).when k (·.set PWR_STATUS_THERM_CRIT)).rd f := by
    rw [← hw, ← hk]
    rfl
  refine ⟨?_, ?_, ?_⟩
  · rw [Chip.rdI, hregs]
    cases w <;> cases k
    · exact htemp
    · exact (hother _ _ _ (by decide)).trans htemp
    · exact (hother _ _ _ (by decide)).trans htemp
    · exact (hother _ _ _ (by decide)).trans ((hother _ _ _ (by decide)).trans htemp)
  · rw [Chip.on, hregs, ← Chip.on, Chip.on_when, Chip.on_set_keeps _ (by decide), ite_self, Chip.on_when, Chip.on_set_same _ rfl (by decide),
      Chip.on_wrI_keeps _ _ (by decide)]
    cases w <;> rfl
  · rw [Chip.on, hregs, ← Chip.on, Chip.on_when, Chip.on_set_same _ rfl (by decide), Chip.on_when, Chip.on_set_keeps _ (by decide), ite_self,
      Chip.on_wrI_keeps _ _ (by decide)]
    cases k <;> rfl

theorem Chip.rd_slew (c : Chip) (q : Nat) (f : Fld) : (c.slew q).rd f = c.rd f := by
  unfold Chip.slew
  dsimp only
  split <;> rfl

/-- A plane that enters FREERUN is in it, and the other plane's state, LO_IN and its flag stay. -/
theorem Chip.freerun_shown (c : Chip) (q p : Nat) (hp : p ≠ q) :
    let d := ((c.slew q).freerun q).planeShow q
    d.planeState q = 5 ∧ d.planeState p = c.planeState p ∧ d.on REF_LO_PRESENT = c.on REF_LO_PRESENT
      ∧ d.on REF_STATUS_LO_MISSING = c.on REF_STATUS_LO_MISSING := by
  unfold Chip.planeShow Chip.freerun Chip.planeTo Chip.planeState
  simp (disch := grind [Fld.apart, Reg.fld, REF_PLANE_FREQ_FREQ, REF_PLANE_FREQ, REF_PLANE_STAT_STATE, REF_PLANE_STAT, REF_PLANE_STAT_SELECTED,
    REF_PLANE_BUILDOUT_BUILDOUT, REF_PLANE_BUILDOUT, REF_STATUS_FREERUN, REF_STATUS, REF_PLANE_STAT_FREERUN_SEEN, REF_LO_PRESENT, REF_LO,
    REF_STATUS_LO_MISSING]) [Chip.on, Chip.rd_post, Chip.rd_wr_val, Chip.rd_slew]

/-- The move to FREERUN of a plane that LO_IN held in HOLDOVER. -/
def Chip.holdoverEnds (c : Chip) (q : Nat) : Chip := if c.planeState q = 4 then ((c.slew q).freerun q).planeShow q else c

theorem Chip.holdoverEnds_shown (c : Chip) (q p : Nat) (hp : p ≠ q) :
    (c.planeState q = 4 → (c.holdoverEnds q).planeState q = 5) ∧ (c.holdoverEnds q).planeState p = c.planeState p
      ∧ (c.holdoverEnds q).on REF_LO_PRESENT = c.on REF_LO_PRESENT ∧ (c.holdoverEnds q).on REF_STATUS_LO_MISSING = c.on REF_STATUS_LO_MISSING := by
  obtain ⟨hself, hother, hpresent, hmissing⟩ := c.freerun_shown q p hp
  unfold Chip.holdoverEnds
  split
  · exact ⟨fun _ => hself, hother, hpresent, hmissing⟩
  next hstate => exact ⟨fun h => absurd h hstate, rfl, rfl, rfl⟩

/-- LO_IN lost: its flags, then each plane in HOLDOVER. -/
theorem Chip.loLoss_shown (c : Chip) (h : c.on REF_LO_PRESENT = true ∨ c.ref.loLost = false) :
    c.loLoss.on REF_LO_PRESENT = false ∧ c.loLoss.on REF_STATUS_LO_MISSING = true
      ∧ (c.planeState 0 = 4 → c.loLoss.planeState 0 = 5) ∧ (c.planeState 1 = 4 → c.loLoss.planeState 1 = 5) := by
  generalize hd : (({ c with ref := { c.ref with loLost := true } } : Chip).clr REF_LO_PRESENT |>.set REF_STATUS_LO_MISSING).post 0x02 0x0007 0 0 = d
  have hrow : c.loLoss = (d.holdoverEnds 0).holdoverEnds 1 := by
    unfold Chip.loLoss
    rw [if_neg (by grind)]
    dsimp only
    rw [hd]
    rfl
  have hpresent : d.on REF_LO_PRESENT = false := by
    rw [← hd, Chip.on_post _ _ _ _ _ _ (by decide), Chip.on_set_keeps _ (by decide)]
    exact Chip.on_clr_same _ rfl
  have hmissing : d.on REF_STATUS_LO_MISSING = true := by
    rw [← hd, Chip.on_post _ _ _ _ _ _ (by decide)]
    exact Chip.on_set_same _ rfl (by decide)
  have hplane (q : Nat) : d.planeState q = c.planeState q := by
    unfold Chip.planeState
    rw [← hd]
    simp (disch := grind [Fld.apart, Reg.fld, REF_PLANE_STAT_STATE, REF_PLANE_STAT, REF_LO_PRESENT, REF_LO, REF_STATUS_LO_MISSING, REF_STATUS])
      [Chip.rd_post]
    rfl
  obtain ⟨h0, h01, hp0, hm0⟩ := d.holdoverEnds_shown 0 1 (by decide)
  obtain ⟨h1, h10, hp1, hm1⟩ := (d.holdoverEnds 0).holdoverEnds_shown 1 0 (by decide)
  rw [hrow]
  refine ⟨by rw [hp1, hp0, hpresent], by rw [hm1, hm0, hmissing], fun hs => ?_, fun hs => ?_⟩
  · rw [h10]
    exact h0 ((hplane 0).trans hs)
  · exact h1 (h01.trans ((hplane 1).trans hs))

/-! ### The fault scan -/

/-- The code of an output, once two frames agree on it. -/
theorem Chip.fault_faultCode (c : Chip) (n m code : Nat) (hcode : code < 4) :
    (c.faultCode n code).rd (SDI_TX_STAT_FAULT m) = if m = n then code else c.rd (SDI_TX_STAT_FAULT m) := by
  have hwr : (c.wr (SDI_TX_STAT_FAULT n) code).rd (SDI_TX_STAT_FAULT m) = if m = n then code else c.rd (SDI_TX_STAT_FAULT m) := by
    split
    next h => rw [h]; exact Chip.rd_wr_val _ _ (Fld.fits_iff.1 rfl) hcode
    next h => exact Chip.rd_wr_keeps _ _ (by grind [Fld.apart, Reg.fld, SDI_TX_STAT_FAULT, SDI_TX_STAT])
  unfold Chip.faultCode
  split
  · grind
  · rw [← hwr]
    dsimp only
    split <;> simp (disch := grind [Fld.apart, Reg.fld, SDI_TX_STAT_FAULT, SDI_TX_STAT, SDI_TX_STAT_OPEN_SEEN, SDI_TX_STAT_SHORT_SEEN,
      SDI_TX_STAT_NO_REPORT_SEEN, SDI_STATUS_TX_FAULT, SDI_STATUS_NO_REPORT, SDI_STATUS]) [Chip.rd_post]

/-- A carrier bit leaves the fault of every output. -/
theorem Chip.fault_carrierBit (c : Chip) (n m : Nat) (present : Bool) (hn : n < 48) (hm : m < 48) :
    (c.carrierBit n present).rd (SDI_TX_STAT_FAULT m) = c.rd (SDI_TX_STAT_FAULT m) := by
  have hpage : (SDI_TX_STAT_FAULT m).off / 65536 ∉ [1, 8, 12, 64] := by
    have : (SDI_TX_STAT_FAULT m).off = 0x202100 + 4 * m := rfl
    have : (SDI_TX_STAT_FAULT m).off / 65536 = 32 := by omega
    rw [this]
    decide
  have hjudge (d : Chip) : (d.judgeSrc n).rd (SDI_TX_STAT_FAULT m) = d.rd (SDI_TX_STAT_FAULT m) :=
    Chip.rd_of_cell ((Chip.judgeSrc_within (P := [1, 8, 12, 64]) (T := [.srcs]) (by omega) .refl (by decide) (by decide)).cell _ hpage)
  have hlos (d : Chip) : (d.rxLos n).rd (SDI_TX_STAT_FAULT m) = d.rd (SDI_TX_STAT_FAULT m) := by
    unfold Chip.rxLos Chip.rxHunt
    split
    · rfl
    · simp (disch := grind [Fld.apart, Reg.fld, SDI_TX_STAT_FAULT, SDI_TX_STAT, SDI_RX_STAT_STATE, SDI_RX_STAT_RATE, SDI_RX_STAT_LEVEL_B, SDI_RX_STAT,
        SDI_RX_LOCKS_LOS, SDI_RX_LOCKS, SDI_RX_STAT_LOS_SEEN, SDI_STATUS_LOS, SDI_STATUS, FSY_SRC_STAT_DET_FORMAT, FSY_SRC_STAT])
        [hjudge, Chip.rd_post]
  have hbit : (c.wrB (SDI_RX_STAT_CARRIER n) present).rd (SDI_TX_STAT_FAULT m) = c.rd (SDI_TX_STAT_FAULT m) :=
    Chip.rd_wrB_keeps _ _ (by grind [Fld.apart, Reg.fld, SDI_TX_STAT_FAULT, SDI_TX_STAT, SDI_RX_STAT_CARRIER, SDI_RX_STAT])
  unfold Chip.carrierBit
  dsimp only
  split
  · rw [hlos, hbit]
  · exact hbit

/-- The outputs of a scan whose codes two frames agree on take them, one after the other. -/
theorem Chip.fault_each_faultCode (c : Chip) (l : List Nat) (v m : Nat) :
    (c.each l fun c n => c.faultCode n (bits v (2 * n) 2)).rd (SDI_TX_STAT_FAULT m)
      = if m ∈ l then bits v (2 * m) 2 else c.rd (SDI_TX_STAT_FAULT m) := by
  have hcode (n : Nat) : bits v (2 * n) 2 < 4 := Nat.mod_lt _ (by decide)
  induction l generalizing c with
  | nil => rfl
  | cons n l ih =>
    rw [Chip.each_cons, ih, Chip.fault_faultCode _ _ _ _ (hcode n)]
    by_cases hl : m ∈ l <;> by_cases hn : m = n <;> simp [hl, hn]

/-- A scan frame after another: an output whose code both agree on has it, another keeps its own. -/
theorem Chip.fault_scanFrame (c : Chip) (v m : Nat) (hm : m < 48) (hrole : c.role ≠ 2) (hdue : c.pwr.strapDue = false) (hscans : c.pwr.scans ≠ 0) :
    (c.scanFrame v).rd (SDI_TX_STAT_FAULT m)
      = if bits c.pwr.scan (2 * m) 2 = bits v (2 * m) 2 then bits v (2 * m) 2 else c.rd (SDI_TX_STAT_FAULT m) := by
  unfold Chip.scanFrame
  rw [if_neg (by simp [hrole, hdue])]
  dsimp only
  rw [if_neg hscans]
  refine (Chip.each_keeps (fun c => c.rd (SDI_TX_STAT_FAULT m)) _ _ (fun d n hn => ?_) _).trans ?_
  · exact d.fault_carrierBit n m _ (List.mem_range.1 (List.mem_filter.1 hn).1) hm
  · rw [Chip.fault_each_faultCode]
    simp [hm]
    rfl

/-- The flag and the finding of a queue fault. -/
def Chip.queueFaulted (c : Chip) (ds : List (Fin 384)) : Chip :=
  (((c.set TOP_STATUS_QUEUE_FAULT).inc TOP_QUEUE_FAULT_COUNT_COUNT).each ds fun c d => c.setDst d.val { c.dst d.val with repeats := true }).selfFault 2

/-! ### Registers that a message to the peer, the live twin fields and a handover asked for leave -/

@[simp] theorem Chip.rd_tell (c : Chip) (k : Nat) (body : List Nat) (f : Fld) : (c.tell k body).rd f = c.rd f := by
  unfold Chip.tell
  split <;> rfl

@[simp] theorem Chip.on_tell (c : Chip) (k : Nat) (body : List Nat) (f : Fld) : (c.tell k body).on f = c.on f := congrArg (· != 0) (c.rd_tell k body f)

@[simp] theorem Chip.get_tell (c : Chip) (k : Nat) (body : List Nat) (r : Reg) : (c.tell k body).get r = c.get r := by
  unfold Chip.tell
  split <;> rfl

/-- The field is none of the live ones of TWN_STATE and TOP_STATUS. -/
def Fld.notTwnLive (f : Fld) : Bool :=
  TWN_STATE_READY_OUT.apart f && TWN_STATE_LANES_UP.apart f && TWN_STATE_HANDOVER_PENDING.apart f && TOP_STATUS_TWIN_STATE.apart f

theorem Chip.rd_twnShow (c : Chip) (f : Fld) (h : f.notTwnLive = true) : c.twnShow.rd f = c.rd f := by
  simp only [Fld.notTwnLive, Bool.and_eq_true] at h
  obtain ⟨⟨⟨hready, hup⟩, hpending⟩, hstate⟩ := h
  unfold Chip.twnShow
  dsimp only
  rw [Chip.rd_wr_keeps _ _ hstate, Chip.rd_wrB_keeps _ _ hpending, Chip.rd_wr_keeps _ _ hup, Chip.rd_wrB_keeps _ _ hready]

theorem Chip.on_twnShow (c : Chip) (f : Fld) (h : f.notTwnLive = true) : c.twnShow.on f = c.on f := congrArg (· != 0) (c.rd_twnShow f h)

theorem Chip.get_twnShow (c : Chip) (r : Reg) (ht : TWN_STATE.off ≠ r.off) (hs : TOP_STATUS.off ≠ r.off) : c.twnShow.get r = c.get r := by
  unfold Chip.twnShow
  dsimp only
  rw [Chip.get_wr_other _ _ _ _ hs, Chip.get_wrB_other _ _ ht, Chip.get_wr_other _ _ _ _ ht, Chip.get_wrB_other _ _ ht]

theorem Chip.rd_askHandover (c : Chip) (cause after : Nat) (faulty : Bool) (f : Fld) (h : f.notTwnLive = true) :
    (c.askHandover cause after faulty).rd f = c.rd f := by
  unfold Chip.askHandover
  split
  · rfl
  · dsimp only
    rw [Chip.rd_twnShow _ _ h, Chip.rd_tell]
    rfl

theorem Chip.get_askHandover (c : Chip) (cause after : Nat) (faulty : Bool) (r : Reg) (ht : TWN_STATE.off ≠ r.off) (hs : TOP_STATUS.off ≠ r.off) :
    (c.askHandover cause after faulty).get r = c.get r := by
  unfold Chip.askHandover
  split
  · rfl
  · dsimp only
    rw [Chip.get_twnShow _ _ ht hs, Chip.get_tell]
    rfl

/-- A finding of self-diagnosis stands in TWN_DIAG. -/
theorem Chip.diag_selfFault (c : Chip) (b : Nat) (hb : b < 32) : bit ((c.selfFault b).get TWN_DIAG) b = true := by
  unfold Chip.selfFault
  split
  · assumption
  · have hbit : ((c.set (TWN_DIAG.fld b 1)).rd (TWN_DIAG.fld b 1)) = 1 := Chip.rd_wr_val _ _ hb Nat.one_lt_two
    dsimp only
    rw [Chip.get_twnShow _ _ (by decide) (by decide), Chip.get_askHandover _ _ _ _ _ (by decide) (by decide),
      Chip.get_post _ _ _ _ _ _ (by decide), Chip.get_set_other _ (by decide)]
    exact beq_iff_eq.2 hbit

/-- It leaves the fields of the top page but TWIN_STATE. -/
theorem Chip.rd_selfFault (c : Chip) (b : Nat) (f : Fld) (hf : f.off / 65536 = 0) (ht : f.notTwnLive = true) : (c.selfFault b).rd f = c.rd f := by
  have hdiag : TWN_DIAG.off ≠ f.off := fun h => by rw [← h] at hf; exact absurd hf (by decide)
  have hstatus : TWN_STATUS.off ≠ f.off := fun h => by rw [← h] at hf; exact absurd hf (by decide)
  unfold Chip.selfFault
  split
  · rfl
  · dsimp only
    rw [Chip.rd_twnShow _ _ ht, Chip.rd_askHandover _ _ _ _ _ ht, Chip.rd_post _ _ _ _ _ _ (by omega),
      Chip.rd_set_keeps _ (Fld.apart_of_off hstatus), Chip.rd_set_keeps _ (Fld.apart_of_off hdiag)]

theorem Chip.queueFaulted_shown (c : Chip) (ds : List (Fin 384)) :
    (c.queueFaulted ds).on TOP_STATUS_QUEUE_FAULT = true
      ∧ (c.queueFaulted ds).rd TOP_QUEUE_FAULT_COUNT_COUNT = min (2 ^ TOP_QUEUE_FAULT_COUNT_COUNT.w - 1) (c.rd TOP_QUEUE_FAULT_COUNT_COUNT + 1)
      ∧ (∀ d ∈ ds, ((c.queueFaulted ds).dst d.val).repeats = true) := by
  have hregs (e : Chip) (f : Fld) : (e.each ds fun c d => c.setDst d.val { c.dst d.val with repeats := true }).rd f = e.rd f :=
    by
    refine Chip.each_keeps (fun c => c.rd f) _ _ (fun _ _ _ => ?_) e
    rfl
  have hdst (e : Chip) (k : Nat) : (e.selfFault 2).dst k = e.dst k :=
    Chip.dst_of_dsts ((Chip.selfFault_within (c := e) (b := 2) (P := [0, 1, 112]) (T := [.mem, .sent, .twn]) .refl rfl rfl).part .dsts (by decide)) k
  unfold Chip.queueFaulted
  refine ⟨?_, ?_, fun d hd => ?_⟩
  · rw [Chip.on, Chip.rd_selfFault _ _ _ rfl (by decide), hregs, ← Chip.on, Chip.on_inc_keeps _ (by decide)]
    exact Chip.on_set_same _ rfl (by decide)
  · rw [Chip.rd_selfFault _ _ _ rfl (by decide), hregs, Chip.rd_inc_same _ rfl, Chip.rd_set_keeps _ (by decide)]
  · rw [hdst]
    refine Chip.each_establishes (fun c => (c.dst d.val).repeats = true) ds _ d hd (fun c => ?_) (fun c e _ h => ?_) _
    · simp
    · rw [Chip.dst_setDst]
      split
      · rfl
      · exact h

/-- Settles O23: each monitor writes its own fields; of LO_IN and the scan the planes and outputs one after the other. -/
theorem partMonitors : Obligations.PartMonitors := by
  unfold Obligations.PartMonitors
  refine ⟨?_, ⟨?_, ?_, ?_, ?_, ?_, ?_⟩⟩
  · rintro s t m v c rfl hready
    refine ⟨_, State.fwStep_ready s t _ hready, ?_, ?_⟩
    · intro hw5 hr5 hfloor hgap hcore hother
      have hok : monOk ((s.chipAt t).rd PWR_AVS_TARGET_STEP) m.val v.toNat = true := by
        by_cases hm : m.val = 0 <;> simp_all [monOk]
      rw [State.commit_get, Chip.monWrite_ok _ _ _ hok]
      exact ⟨bits_and_mask _ _ _ _ (by decide), bits_and_mask _ _ _ _ (by decide)⟩
    · intro hbad
      have hno : monOk ((s.chipAt t).rd PWR_AVS_TARGET_STEP) m.val v.toNat = false := by
        unfold monOk
        by_cases hm : m.val = 0 <;> simp [hm] at hbad ⊢ <;> omega
      rw [State.commit_on, State.commit_get, Chip.monWrite_bad _ _ _ hno]
      exact ⟨Chip.on_set_same _ rfl (by decide), Chip.get_set_other _ (by have : (PWR_MON_CFG m.val).off = 0x20040 + 4 * m.val := rfl
                                                                          have : PWR_STATUS_MON_CFG_REJECT.off = 0x20000 := rfl
                                                                          omega)⟩
  · rintro s t x c rfl hlive
    obtain ⟨htemp, hwarn, hcrit⟩ := (s.chipAt t).therm_regs x
    refine ⟨_, State.event_live s t _ hlive, htemp, ?_⟩
    have hwarnArmed : ((s.chipAt t).therm x).pwr.warnArmed = (thermStep (!(s.chipAt t).pwr.tempRead) (s.chipAt t).pwr.warnArmed x
        ((s.chipAt t).rd PWR_THERM_WARN_LEVEL_LEVEL)).2 := rfl
    have hcritArmed : ((s.chipAt t).therm x).pwr.critArmed = (thermStep (!(s.chipAt t).pwr.tempRead) (s.chipAt t).pwr.critArmed x
        ((s.chipAt t).rd PWR_THERM_CRIT_LEVEL_LEVEL)).2 := rfl
    have hread : ((s.chipAt t).therm x).pwr.tempRead = true := rfl
    simp only [State.commit_on, State.commit_pwr, hwarn, hcrit, hwarnArmed, hcritArmed, hread, thermStep]
    grind
  · rintro s t c rfl hlive hlo
    exact ⟨_, State.event_live s t _ hlive, (s.chipAt t).loLoss_shown hlo⟩
  · rintro s t c rfl hlive hlo
    have hrow : (s.chipAt t).loReturn
        = { (s.chipAt t).set REF_LO_PRESENT with ref := { (s.chipAt t).ref with loAt := (s.chipAt t).now, loLost := false } } :=
      if_neg (Bool.eq_false_iff.1 hlo)
    refine ⟨_, State.event_live s t _ hlive, ?_⟩
    rw [hrow]
    exact ⟨Chip.on_set_same (s.chipAt t) rfl (by decide), rfl⟩
  · rintro s t v n c rfl hlive hrole hdue
    refine ⟨_, State.event_live s t _ hlive, fun hscans hagree => ?_, fun hscans hdiffer => ?_, fun hfirst => ?_⟩
    · rw [State.commit_rd, Chip.fault_scanFrame _ _ _ n.isLt hrole hdue hscans, if_pos hagree]
    · rw [State.commit_rd, Chip.fault_scanFrame _ _ _ n.isLt hrole hdue hscans, if_neg hdiffer]
    · unfold Chip.scanFrame
      rw [if_neg (by simp [hrole, hdue])]
      dsimp only
      rw [if_pos hfirst]
      rfl
  · rintro s t v c rfl hlive hrole
    refine ⟨_, State.event_live s t _ hlive, ?_⟩
    unfold Chip.scanFrame
    rw [if_pos (.inl hrole)]
    rfl
  · rintro s t ds c rfl hlive
    obtain ⟨hflag, hcount, hrepeats⟩ := (s.chipAt t).queueFaulted_shown ds
    exact ⟨_, State.event_live s t _ hlive, hflag, hcount, hrepeats, Chip.diag_selfFault _ 2 (by decide)⟩

end Sys2Proof.Machine
end

section
/-! SUPPORT. From the release of a reset to the loaded configuration (chapters 03, 04 and 21). -/

namespace Sys2Proof.Machine

/-! ### What a retention reset leaves of one register -/

/-- Of the entries of an offset a reset leaves what the offset's rule makes of one of them. -/
theorem RegMap.find_reset (kind o : Nat) (m : RegMap) (w : Word)
    (h : RegMap.find (m.filterMap fun r => relist r.1 (regAfter kind r.1 r.2.toNat)) o = some w) :
    ∃ v : Word, w = BitVec.ofNat 32 (regAfter kind o v.toNat) := by
  induction m with
  | nil => cases h
  | cons e m ih =>
    obtain ⟨a, v⟩ := e
    rw [List.filterMap_cons] at h
    by_cases hdef : (regAfter kind a v.toNat == dfltOf a) = true
    · simp only [relist, hdef, if_true] at h
      exact ih h
    · simp only [relist, if_neg hdef, RegMap.find] at h
      split at h
      next ha =>
        subst ha
        exact ⟨v, (Option.some.inj h).symm⟩
      next => exact ih h

/-- An entry that a reset leaves off its default stands after it. -/
theorem RegMap.find_reset_of_find (kind o : Nat) (m : RegMap) (v : Word) (h : m.find o = some v)
    (hkeep : regAfter kind o v.toNat ≠ dfltOf o) :
    RegMap.find (m.filterMap fun r => relist r.1 (regAfter kind r.1 r.2.toNat)) o = some (BitVec.ofNat 32 (regAfter kind o v.toNat)) := by
  induction m with
  | nil => cases h
  | cons e m ih =>
    obtain ⟨a, x⟩ := e
    rw [List.filterMap_cons]
    by_cases ha : a = o
    · subst ha
      have hx : x = v := by simpa [RegMap.find] using h
      subst hx
      simp [relist, hkeep, RegMap.find]
    · have hm : RegMap.find m o = some v := by simpa [RegMap.find, ha] using h
      by_cases hdef : (regAfter kind a x.toNat == dfltOf a) = true
      · simp only [relist, hdef, if_true]
        exact ih hm
      · simp only [relist, if_neg hdef, RegMap.find, if_neg ha]
        exact ih hm

/-- The DEFAULTS_RESTORED bits share nothing with a field apart from them all. -/
theorem Chip.rd_regsReset (c : Chip) (kind : Nat) (f : Fld) (h : ∀ b ∈ blockRows, b.2.2.apart f = true) :
    (c.regsReset kind).rd f
      = ({ c with regs := c.regs.filterMap fun r => relist r.1 (regAfter kind r.1 r.2.toNat) } : Chip).rd f := by
  refine Chip.each_keeps (fun c => c.rd f) _ _ (fun d b hb => ?_) _
  exact d.rd_set_keeps (h b (List.mem_filter.1 hb).1)

/-- FW_READY is of class F: every reset of the classes returns it to 0. -/
theorem regAfter_fwReady (kind v : Nat) : bits (BitVec.ofNat 32 (regAfter kind 8 v)).toNat 0 1 = 0 := by
  obtain ⟨lost, hlost, hrule⟩ : ∃ lost, lost % 2 = 1 ∧ regAfter kind 8 v = (v - (v &&& lost)) ||| (0x20 &&& lost) := by
    refine ⟨RegRow.lost ⟨0x8, 4, 1, 4, 1, 4, 1, 0x20, 0x0, 0x66, 0x0, 0x0, 0x21, 0x0, 0x5e, 0x0, true⟩ kind, ?_, rfl⟩
    unfold RegRow.lost
    dsimp only
    split <;> split <;> simp only [ite_self] <;> decide
  have hand : (v &&& lost) % 2 = v % 2 := by
    have := Nat.and_mod_two_pow (a := v) (b := lost) (n := 1)
    rw [show 2 ^ 1 = 2 from rfl, hlost] at this
    rw [this]
    rcases Nat.mod_two_eq_zero_or_one v with h | h <;> rw [h] <;> rfl
  have hle : v &&& lost ≤ v := Nat.and_le_left
  have heven : regAfter kind 8 v % 2 = 0 := by
    have := Nat.or_mod_two_pow (a := v - (v &&& lost)) (b := 0x20 &&& lost) (n := 1)
    rw [hrule, show 2 = 2 ^ 1 from rfl, this, show (v - (v &&& lost)) % 2 ^ 1 = 0 by omega, Nat.and_mod_two_pow]
    simp
  rw [BitVec.toNat_ofNat]
  unfold bits
  omega

theorem Chip.ready_regsReset (c : Chip) (kind : Nat) : (c.regsReset kind).ready = false := by
  have hzero : ({ c with regs := c.regs.filterMap fun r => relist r.1 (regAfter kind r.1 r.2.toNat) } : Chip).rd TOP_STATUS_FW_READY = 0 := by
    unfold Chip.rd Chip.get
    split
    next v hv =>
      obtain ⟨u, rfl⟩ := RegMap.find_reset kind _ _ _ hv
      exact regAfter_fwReady kind u.toNat
    next => rfl
  rw [Chip.ready, Chip.on, Chip.rd_regsReset _ _ _ (by decide), hzero]
  rfl

/-- The reset causes are of class P: a watchdog reset keeps them. -/
theorem regAfter_resetCause (v : Nat) : regAfter rkWdt 0xc v = v := by
  have hrule : regAfter rkWdt 0xc v = (v - (v &&& 0)) ||| (0x8 &&& 0) := rfl
  rw [hrule, Nat.and_zero, Nat.and_zero, Nat.or_zero, Nat.sub_zero]

/-- A watchdog reset keeps a cause that is set. -/
theorem Chip.on_regsReset_wdt (c : Chip) (h : c.on TOP_RESET_CAUSE_WDT = true) : (c.regsReset rkWdt).on TOP_RESET_CAUSE_WDT = true := by
  cases hv : c.regs.find 0xc with
  | none =>
    have hdflt : c.get TOP_RESET_CAUSE = 8 := by simp [Chip.get, TOP_RESET_CAUSE, hv]
    have hbit : bits (c.get TOP_RESET_CAUSE) 1 1 ≠ 0 := bne_iff_ne.1 h
    rw [hdflt] at hbit
    exact absurd rfl hbit
  | some v =>
    have hget : c.get TOP_RESET_CAUSE = v.toNat := by simp [Chip.get, TOP_RESET_CAUSE, hv]
    have hbit : bits v.toNat 1 1 ≠ 0 := by
      rw [← hget]
      exact bne_iff_ne.1 h
    have hkept := RegMap.find_reset_of_find rkWdt 0xc c.regs v hv (by
      rw [regAfter_resetCause]
      intro he
      rw [he] at hbit
      exact absurd rfl hbit)
    rw [regAfter_resetCause, BitVec.ofNat_toNat, BitVec.setWidth_eq] at hkept
    rw [Chip.on, Chip.rd_regsReset _ _ _ (by decide), Chip.rd, Chip.get]
    simp only [show TOP_RESET_CAUSE_WDT.reg.off = 0xc from rfl, hkept]
    exact bne_iff_ne.2 hbit

/-! ### The rows -/

theorem Chip.rd_pmcSync (c : Chip) (f : Fld) (h : f.off / 65536 ≠ 124) : c.pmcSync.rd f = c.rd f :=
  Chip.rd_of_cell ((Chip.pmcSync_within (P := [124]) (T := [.mem, .pmcAt]) .refl (by decide) (by decide)).cell _ (by simpa using h))

/-- The port registers follow the bus, and nothing but registers. -/
theorem Chip.busShow_only (c : Chip) : Chip.Only [] c c.busShow := Chip.Only.refl.each fun _ _ _ => ((Chip.Only.refl.wr).wrB).wrB

theorem Chip.masterReset_only (c : Chip) (m : Nat) : Chip.Only [.bus] c (c.masterReset m) := by
  unfold Chip.masterReset
  refine (Chip.Only.trans (Chip.Only.when' ?_ fun y => (Chip.Only.refl.wr.set).post) fun k _ => Chip.busShow_only _ k (by simp))
  intro k hk
  cases k
  case bus => simp at hk
  case mem => exact ⟨[], (List.append_nil _).symm, rfl⟩
  all_goals rfl

/-- A reset of a master leaves no more outstanding than there was. -/
theorem Chip.masterReset_outs (c : Chip) (m : Nat) (h : c.bus.outs = []) : (c.masterReset m).bus.outs = [] := by
  unfold Chip.masterReset
  rw [show ∀ d : Chip, d.busShow.bus = d.bus from fun d => d.busShow_only .bus (by simp)]
  simp [h]

/-- A watchdog reset on a part with no access of the bus outstanding. -/
theorem Chip.fwReset_watchdog (c : Chip) (mem : Memory) (h : c.bus.outs = []) :
    let d := (c.fwReset true).busRun mem
    d.pwr.phase = .released ∧ d.on TOP_RESET_CAUSE_WDT = true ∧ d.ready = false ∧ d.fw.order = [] ∧ d.fw.journal = c.fw.journal := by
  generalize he : (c.pmcSync.each (List.range 10) Chip.masterReset).set TOP_RESET_CAUSE_WDT = e
  have hkeep : Chip.Only [.pmcAt, .bus] c e := by
    rw [← he]
    exact (Chip.Only.each (fun k hk => (Chip.pmcSync_within (P := [124]) (T := [.pmcAt]) .refl rfl rfl).only k (by grind))
      fun y m _ k hk => y.masterReset_only m k (by grind)).set
  have houts : e.bus.outs = [] := by
    rw [← he, Chip.set_def, Chip.wr_bus]
    refine Chip.each_invariant (fun c => c.bus.outs = []) _ _ (fun d m _ hd => d.masterReset_outs m hd) _ ?_
    rwa [show c.pmcSync.bus = c.bus from (Chip.pmcSync_within (P := [124]) (T := [.pmcAt]) .refl rfl rfl).part .bus (by decide)]
  generalize hf : ({ e with pwr := { e.pwr with asked := e.pwr.asked ||| 2 } } : Chip).regsReset rkWdt = f
  have hreset : Chip.Only [.pwr] e f := by
    rw [← hf]
    refine Chip.Only.each (fun k hk => ?_) fun y b _ => Chip.Only.refl.set
    cases k
    case pwr => simp at hk
    case mem => exact ⟨[], (List.append_nil _).symm, rfl⟩
    all_goals rfl
  have hrow : (c.fwReset true).busRun mem = f.coresLost.busShow := by
    have hfw : c.fwReset true = f.coresLost := by rw [← hf, ← he]; rfl
    rw [hfw]
    exact Chip.busRun_idle _ _ ((congrArg Bus.outs (hreset .bus (by decide))).trans houts)
  have hshow (g : Fld) (hg : ∀ m < 10, (BUS_MST_STAT m).off ≠ g.off) : f.coresLost.busShow.on g = f.on g := Chip.on_busShow _ g hg
  dsimp only
  rw [hrow]
  refine ⟨?_, ?_, ?_, ?_, ?_⟩
  · rw [show f.coresLost.busShow.pwr = f.coresLost.pwr from f.coresLost.busShow_only .pwr (by simp)]
    rfl
  · rw [hshow _ (by decide), ← hf]
    refine Chip.on_regsReset_wdt _ ?_
    rw [← he]
    exact Chip.on_set_same (c.pmcSync.each (List.range 10) Chip.masterReset) rfl (by decide)
  · rw [Chip.ready, hshow _ (by decide), ← hf]
    exact Chip.ready_regsReset _ _
  · rw [show f.coresLost.busShow.fw = f.coresLost.fw from f.coresLost.busShow_only .fw (by simp)]
    rfl
  · rw [show f.coresLost.busShow.fw = f.coresLost.fw from f.coresLost.busShow_only .fw (by simp)]
    have hjournal : f.fw.journal = c.fw.journal := congrArg Fw.journal ((hreset .fw (by decide)).trans (hkeep .fw (by decide)))
    exact hjournal

/-! ### The boot ROM -/

/-- The field is none that the boot ROM writes once the firewall is locked. -/
def Fld.bootClear (f : Fld) : Bool :=
  f.off != UPD_STATE.off && f.off != UPD_HEALTH.off && f.off != 0x800020 && f.off != 0x800024 && f.off != 0x800030 && f.off != 0x800034
    && SEC_STATUS_FELL_BACK.apart f && SEC_STATUS_NO_IMAGE.apart f && SEC_BOOT_DEBUG_HOLD.apart f && f.off / 65536 != 124

section
variable {f : Fld} (c : Chip)

theorem Chip.rd_updShow (h : f.bootClear = true) : c.updShow.rd f = c.rd f := by
  simp only [Fld.bootClear, Bool.and_eq_true, bne_iff_ne] at h
  have hstate : UPD_STATE.off ≠ f.off := by tauto
  have hhealth : UPD_HEALTH.off ≠ f.off := by tauto
  unfold Chip.updShow
  dsimp only
  rw [Chip.rd_wr_keeps _ _ (Fld.apart_of_off hhealth), Chip.rd_wr_keeps _ _ (Fld.apart_of_off hstate),
    Chip.rd_wr_keeps _ _ (Fld.apart_of_off hstate), Chip.rd_wr_keeps _ _ (Fld.apart_of_off hstate),
    Chip.rd_wrB_keeps _ _ (Fld.apart_of_off hstate), Chip.rd_wr_keeps _ _ (Fld.apart_of_off hstate)]

theorem Chip.rd_bankShow (b : Nat) (hb : b < 2) (h : f.bootClear = true) : (c.bankShow b).rd f = c.rd f := by
  simp only [Fld.bootClear, Bool.and_eq_true, bne_iff_ne] at h
  have hver : (UPD_BANK_VER b).off ≠ f.off := by
    have : (UPD_BANK_VER b).off = 0x800020 + 16 * b := rfl
    omega
  have hstat : (UPD_BANK_STAT b).off ≠ f.off := by
    have : (UPD_BANK_STAT b).off = 0x800024 + 16 * b := rfl
    omega
  unfold Chip.bankShow
  rw [Chip.rd_wrB_keeps _ _ (Fld.apart_of_off hstat), Chip.rd_put_other _ _ _ _ hver]

theorem Chip.rd_recWrite (r : UpdRec) (h : f.bootClear = true) : (c.recWrite r).rd f = c.rd f := (Chip.rd_updShow _ h).trans rfl

theorem Chip.rd_restoreArea (kept : Option (List JEntry)) : (c.restoreArea kept).rd f = c.rd f := by cases kept <;> rfl

theorem Chip.rd_bankChoice (h : f.bootClear = true) : c.bankChoice.1.rd f = c.rd f := by
  have hback (d : Chip) (kept : Option (List JEntry)) (hd : d.rd f = c.rd f) : ((d.fallBack).restoreArea kept).rd f = c.rd f :=
    ((d.fallBack).rd_restoreArea kept).trans ((Chip.rd_recWrite d _ h).trans hd)
  unfold Chip.bankChoice
  dsimp only
  split
  · have htrial (u : Upd) : ((c.recWrite { c.updRec with trialCount := 0 }).setUpd u).rd f = c.rd f := by
      rw [Chip.setUpd_rd, Chip.rd_recWrite _ _ h]
    split
    · exact htrial _
    · exact hback _ _ (htrial _)
  · split
    · exact hback c _ rfl
    · split
      · rw [Chip.setUpd_rd, Chip.rd_recWrite _ _ h]
      · rfl

theorem Chip.rd_toPhase (ph : Phase) (h : f.bootClear = true) : (c.toPhase ph).rd f = c.rd f := by
  simp only [Fld.bootClear, Bool.and_eq_true, bne_iff_ne] at h
  exact c.rd_pmcSync f h.2

end

/-- The firewall is locked before anything else; it stands on the bus page. -/
theorem Chip.locked_bootFirewall (c : Chip) : c.bootFirewall.on BUS_FW_LOCK_LOCKED = true := by
  unfold Chip.bootFirewall
  split
  · assumption
  · exact Chip.on_set_same _ rfl (by decide)

theorem Chip.bootFirewall_only (c : Chip) : Chip.Only [] c c.bootFirewall := by
  unfold Chip.bootFirewall
  split
  · exact Chip.Only.refl
  · exact Chip.Only.set (Chip.Only.each (Chip.Only.each Chip.Only.refl fun y m _ k _ => k.same_put y _ _) fun y m _ k _ => k.same_put y _ _)

theorem Chip.rd_bootFirewall (c : Chip) (f : Fld) (h : f.off / 65536 ≠ 120) : c.bootFirewall.rd f = c.rd f := by
  unfold Chip.bootFirewall
  split
  · rfl
  · have hput (r : Reg) (hr : r.off / 65536 = 120) (d : Chip) (v : Nat) : (d.put r v).rd f = d.rd f :=
      Chip.rd_put_other _ _ _ _ fun he => h (he ▸ hr)
    rw [Chip.rd_set_keeps _ (Fld.apart_of_off fun he => h (by rw [← he]; rfl))]
    refine (Chip.each_keeps (fun c => c.rd f) _ _ (fun d k hk => ?_) _).trans (Chip.each_keeps (fun c => c.rd f) _ _ (fun d m hm => ?_) _)
    · exact hput _ (by have : (BUS_PROT k).off = 0x780280 + 4 * k := rfl
                       have := List.mem_range.1 hk
                       omega) _ _
    · exact hput _ (by have : (BUS_FW m).off = 0x780200 + 4 * m := rfl
                       have := List.mem_range.1 hm
                       omega) _ _

/-- The boot mode that plays a part: the strapped one after a PIN reset or POR, but a reserved one, or a halt on a part without debug, boots (R612). -/
def Chip.bootMode (c : Chip) (cold : Bool) : Nat :=
  if !cold ∨ c.rd TOP_STRAP_BOOT_MODE = 3 ∨ (c.rd TOP_STRAP_BOOT_MODE = 2 ∧ c.on SEC_BOOT_DEBUG_DISABLE) then 0
  else c.rd TOP_STRAP_BOOT_MODE

/-- A PIN reset or a POR began. -/
def Chip.coldBoot (c : Chip) : Bool := c.pwr.asked &&& 12 != 0

/-- The firewall is locked and the identity checked. -/
def Chip.bootGuarded (c : Chip) (idOk : Bool) : Chip := c.bootFirewall.when (c.coldBoot && !idOk) (·.set SEC_STATUS_IDENTITY_FAULT)

/-- Then the mode is shown. -/
def Chip.bootBegun (c : Chip) (idOk : Bool) : Chip :=
  let mode := (c.bootGuarded idOk).bootMode c.coldBoot
  (c.bootGuarded idOk).when c.coldBoot (·.wr SEC_BOOT_BOOT_MODE mode)

theorem Chip.bootBegun_only (c : Chip) (idOk : Bool) : Chip.Only [] c (c.bootBegun idOk) :=
  Chip.Only.when' (Chip.Only.when' c.bootFirewall_only fun _ => Chip.Only.refl.set) fun _ => Chip.Only.refl.wr

theorem Chip.locked_bootBegun (c : Chip) (idOk : Bool) : (c.bootBegun idOk).on BUS_FW_LOCK_LOCKED = true := by
  unfold Chip.bootBegun Chip.bootGuarded
  rw [Chip.on_when, Chip.on_wr_keeps _ _ (by decide), ite_self, Chip.on_when, Chip.on_set_keeps _ (by decide), ite_self]
  exact c.locked_bootFirewall

theorem Chip.identity_bootBegun (c : Chip) (h : c.pwr.asked &&& 12 ≠ 0) : (c.bootBegun false).on SEC_STATUS_IDENTITY_FAULT = true := by
  unfold Chip.bootBegun Chip.bootGuarded Chip.coldBoot
  rw [bne_iff_ne.2 h]
  exact (Chip.on_wr_keeps _ _ (by decide)).trans (Chip.on_set_same _ rfl (by decide))

/-- What the boot ROM found of the banks is shown. -/
def Chip.banksShown (c : Chip) (p0 p1 : Option Package) : Chip :=
  ((c.setUpd { c.upd with pkgs := [p0, p1], trialBoot := false, fell := false }).bankShow 0).bankShow 1

/-- The chip whose bank is checked last. -/
def Chip.bootChecked (c : Chip) : Chip := c.updShow.when c.updRec.fellBack (·.set SEC_STATUS_FELL_BACK)

/-- The start of the chosen bank's firmware, or recovery without an image. -/
def Chip.bootWith (c : Chip) (b : Nat) : Chip :=
  if c.bootChecked.bootOk b then (c.bootChecked.setUpd { c.bootChecked.upd with bank := b }).toPhase .started
  else (c.bootChecked.set SEC_STATUS_NO_IMAGE).toPhase .recovery

/-- What follows in a mode. -/
def Chip.bootIn (c : Chip) (mode : Nat) (p0 p1 : Option Package) : Chip :=
  if mode = 1 then c.updShow.toPhase .recovery
  else if mode = 2 then (c.set SEC_BOOT_DEBUG_HOLD).toPhase .halted
  else (c.banksShown p0 p1).bankChoice.1.bootWith (c.banksShown p0 p1).bankChoice.2

theorem Chip.rd_bootGuarded (c : Chip) (idOk : Bool) (f : Fld) (hf : f.off / 65536 ≠ 120) (hs : SEC_STATUS_IDENTITY_FAULT.apart f = true) :
    (c.bootGuarded idOk).rd f = c.rd f := by
  unfold Chip.bootGuarded
  rw [Chip.rd_when, Chip.rd_set_keeps _ hs, ite_self, Chip.rd_bootFirewall _ _ hf]

theorem Chip.bootMode_bootGuarded (c : Chip) (idOk : Bool) : (c.bootGuarded idOk).bootMode c.coldBoot = c.bootMode c.coldBoot := by
  have hdebug : (c.bootGuarded idOk).on SEC_BOOT_DEBUG_DISABLE = c.on SEC_BOOT_DEBUG_DISABLE :=
    congrArg (· != 0) (c.rd_bootGuarded idOk SEC_BOOT_DEBUG_DISABLE (by decide) (by decide))
  unfold Chip.bootMode
  rw [c.rd_bootGuarded idOk TOP_STRAP_BOOT_MODE (by decide) (by decide), hdebug]

theorem Chip.bootRom_eq (c : Chip) (idOk : Bool) (p0 p1 : Option Package) (hphase : c.pwr.phase = .released)
    (hdue : c.pwr.asked &&& 12 ≠ 0 → c.pwr.strapDue = false) :
    c.bootRom idOk p0 p1 = (c.bootBegun idOk).bootIn (c.bootMode c.coldBoot) p0 p1 := by
  have hgo : ¬ (c.pwr.phase ≠ .released ∨ (c.coldBoot = true ∧ c.pwr.strapDue = true)) := by
    rintro (h | ⟨hcold, h⟩)
    · exact h hphase
    · rw [hdue (bne_iff_ne.1 hcold)] at h
      exact absurd h (by decide)
  unfold Chip.bootRom
  extract_lets cold locked guarded strap mode begun upd shown
  refine (if_neg hgo).trans ?_
  have hmode : mode = c.bootMode c.coldBoot := c.bootMode_bootGuarded idOk
  have hbegun : begun = c.bootBegun idOk := rfl
  have hshown : shown = (c.bootBegun idOk).banksShown p0 p1 := rfl
  rw [hshown, hbegun, hmode, Chip.bootIn]
  rcases ((c.bootBegun idOk).banksShown p0 p1).bankChoice with ⟨d, b⟩
  rfl

/-! ### What the boot ROM leaves -/

section
variable {f : Fld} (c : Chip)

theorem Chip.rd_bootWith (b : Nat) (h : f.bootClear = true) : (c.bootWith b).rd f = c.rd f := by
  have hapart := h
  simp only [Fld.bootClear, Bool.and_eq_true] at hapart
  obtain ⟨⟨⟨⟨-, hfell⟩, hnone⟩, -⟩, -⟩ := hapart
  have hd : c.bootChecked.rd f = c.rd f := by
    unfold Chip.bootChecked
    rw [Chip.rd_when, Chip.rd_set_keeps _ hfell, ite_self, Chip.rd_updShow _ h]
  unfold Chip.bootWith
  split
  · rw [Chip.rd_toPhase _ _ h, Chip.setUpd_rd, hd]
  · rw [Chip.rd_toPhase _ _ h, Chip.rd_set_keeps _ hnone, hd]

theorem Chip.rd_banksShown (p0 p1 : Option Package) (h : f.bootClear = true) : (c.banksShown p0 p1).rd f = c.rd f := by
  unfold Chip.banksShown
  rw [Chip.rd_bankShow _ 1 (by decide) h, Chip.rd_bankShow _ 0 (by decide) h, Chip.setUpd_rd]

theorem Chip.rd_bootIn (mode : Nat) (p0 p1 : Option Package) (h : f.bootClear = true) : (c.bootIn mode p0 p1).rd f = c.rd f := by
  have hapart := h
  simp only [Fld.bootClear, Bool.and_eq_true] at hapart
  obtain ⟨⟨-, hhold⟩, -⟩ := hapart
  unfold Chip.bootIn
  split
  · rw [Chip.rd_toPhase _ _ h, Chip.rd_updShow _ h]
  · split
    · rw [Chip.rd_toPhase _ _ h, Chip.rd_set_keeps _ hhold]
    · rw [Chip.rd_bootWith _ _ h, Chip.rd_bankChoice _ h, Chip.rd_banksShown _ _ _ h]

end

theorem Chip.toPhase_phase (c : Chip) (ph : Phase) : (c.toPhase ph).pwr.phase = ph := rfl

theorem Chip.bootWith_phase (c : Chip) (b : Nat) : (c.bootWith b).pwr.phase = .started ∨ (c.bootWith b).pwr.phase = .recovery := by
  unfold Chip.bootWith
  split
  · exact .inl rfl
  · exact .inr rfl

theorem Chip.bootIn_phase (c : Chip) (mode : Nat) (p0 p1 : Option Package) :
    (c.bootIn mode p0 p1).pwr.phase = .started ∨ (c.bootIn mode p0 p1).pwr.phase = .recovery ∨ (c.bootIn mode p0 p1).pwr.phase = .halted := by
  unfold Chip.bootIn
  split
  · exact .inr (.inl rfl)
  · split
    · exact .inr (.inr rfl)
    · exact (Chip.bootWith_phase _ _).imp_right .inl

/-- The boot check looks at the banks and the counter of the control firmware alone. -/
theorem Chip.bootOk_congr {c d : Chip} (hp : d.upd.pkgs = c.upd.pkgs) (hr : d.rd (SEC_OTP_CTR_VALUE 0) = c.rd (SEC_OTP_CTR_VALUE 0)) (b : Nat) :
    d.bootOk b = c.bootOk b := by
  unfold Chip.bootOk Chip.pkg Chip.svnOk
  rw [hp, hr]

theorem Chip.updShow_only (c : Chip) : Chip.Only [] c c.updShow := ((((((Chip.Only.refl.wr).wrB).wr).wr).wr).wr)

theorem Chip.bankShow_only (c : Chip) (b : Nat) : Chip.Only [] c (c.bankShow b) := (Chip.Only.trans (fun k _ => k.same_put c _ _) Chip.Only.refl.wrB)

theorem Chip.toPhase_upd (c : Chip) (ph : Phase) : (c.toPhase ph).upd = c.upd :=
  (Chip.pmcSync_within (P := [124]) (T := [.pmcAt]) .refl rfl rfl).part .upd (by decide)

theorem Chip.bootChecked_upd (c : Chip) : c.bootChecked.upd = c.upd := by
  have honly : Chip.Only [] c c.bootChecked := Chip.Only.when' c.updShow_only fun _ => Chip.Only.refl.set
  exact honly .upd (by simp)

theorem Chip.bootOk_bootChecked (c : Chip) (b : Nat) : c.bootChecked.bootOk b = c.bootOk b := by
  refine Chip.bootOk_congr (congrArg Upd.pkgs c.bootChecked_upd) ?_ b
  unfold Chip.bootChecked
  rw [Chip.rd_when, Chip.rd_set_keeps _ (by decide), ite_self, Chip.rd_updShow _ (by decide)]

/-- A bank that passes starts; one that does not leaves the part in recovery. -/
theorem Chip.bootWith_of_ok (c : Chip) (b : Nat) (h : c.bootOk b = true) :
    (c.bootWith b).pwr.phase = .started ∧ (c.bootWith b).upd = { c.upd with bank := b } := by
  have hrow : c.bootWith b = (c.bootChecked.setUpd { c.bootChecked.upd with bank := b }).toPhase .started :=
    if_pos ((c.bootOk_bootChecked b).trans h)
  rw [hrow]
  refine ⟨rfl, ?_⟩
  rw [Chip.toPhase_upd, c.bootChecked_upd]
  rfl

theorem Chip.bootWith_of_bad (c : Chip) (b : Nat) (h : c.bootOk b = false) :
    (c.bootWith b).pwr.phase = .recovery ∧ (c.bootWith b).on SEC_STATUS_NO_IMAGE = true := by
  have hrow : c.bootWith b = (c.bootChecked.set SEC_STATUS_NO_IMAGE).toPhase .recovery :=
    if_neg (Bool.eq_false_iff.1 ((c.bootOk_bootChecked b).trans h))
  rw [hrow]
  refine ⟨rfl, ?_⟩
  rw [Chip.on, Chip.toPhase]
  exact bne_iff_ne.2 (((c.bootChecked.set SEC_STATUS_NO_IMAGE).rd_pmcSync SEC_STATUS_NO_IMAGE (by decide)).symm ▸
    bne_iff_ne.1 (Chip.on_set_same c.bootChecked rfl (by decide)))

/-- The three choices without a trial (R620). -/
theorem Chip.bankChoice_confirmed (c : Chip) (htrial : c.updRec.trial = false) :
    c.bankChoice = if !(c.bootOk c.updRec.runBank) ∧ c.bootOk (1 - c.updRec.runBank) then
        let d := c.recWrite { c.updRec with runBank := 1 - c.updRec.runBank, fellBack := true }
        (d.setUpd { d.upd with fell := true }, 1 - c.updRec.runBank)
      else (c, c.updRec.runBank) := by
  unfold Chip.bankChoice
  extract_lets r back d1 d2 d3
  rw [if_neg (by simp [r, htrial]), if_neg (by simp [r, htrial])]

/-- A record written is the newest. -/
theorem Upd.newest_write (u : Upd) (r : UpdRec) (now : Nat) : (u.write r now).newest.runBank = r.runBank := by
  have hboth (v : Upd) (x : UpdRec) (ha : v.recA = some x) (hb : v.recB = some x) : v.newest = x := by
    rw [Upd.newest, ha, hb]
    exact ite_self x
  rw [hboth (u.write r now) _ rfl rfl]

theorem Chip.recWrite_upd (c : Chip) (r : UpdRec) : (c.recWrite r).upd = c.upd.write r c.now := Chip.updShow_only _ .upd (by simp)

/-- The other bank, once the record names it. -/
theorem Chip.bootWith_fellBack (e : Chip) (r : UpdRec) (h : e.bootOk r.runBank = true) :
    let d := e.recWrite r
    let x := (d.setUpd { d.upd with fell := true }).bootWith r.runBank
    x.pwr.phase = .started ∧ x.upd.bank = r.runBank ∧ x.updRec.runBank = r.runBank := by
  have hupd : (e.recWrite r).upd = e.upd.write r e.now := e.recWrite_upd r
  have hrd : (e.recWrite r).rd (SEC_OTP_CTR_VALUE 0) = e.rd (SEC_OTP_CTR_VALUE 0) := e.rd_recWrite r (by decide)
  have hnewest : (e.recWrite r).upd.newest.runBank = r.runBank := by
    rw [hupd]
    exact Upd.newest_write _ _ _
  have hpkgs : (e.recWrite r).upd.pkgs = e.upd.pkgs := by
    rw [hupd]
    rfl
  generalize e.recWrite r = d at hrd hnewest hpkgs ⊢
  dsimp only
  have hpassed : (d.setUpd { d.upd with fell := true }).bootOk r.runBank = true := (Chip.bootOk_congr (c := e) hpkgs hrd _).trans h
  obtain ⟨hphase, hboot⟩ := Chip.bootWith_of_ok _ _ hpassed
  refine ⟨hphase, congrArg Upd.bank hboot, ?_⟩
  rw [Chip.updRec, hboot]
  exact hnewest

/-- The boot ROM on a record without a trial, where the strapped mode plays no part. -/
theorem Chip.bootIn_confirmed (c d : Chip) (p0 p1 : Option Package) (mode : Nat) (h1 : mode ≠ 1) (h2 : mode ≠ 2)
    (htrial : c.updRec.trial = false) (hrun : c.updRec.runBank < 2) (hpkgs : d.upd.pkgs = [p0, p1])
    (hctr : d.rd (SEC_OTP_CTR_VALUE 0) = c.rd (SEC_OTP_CTR_VALUE 0)) :
    let x := c.bootIn mode p0 p1
    (d.bootOk c.updRec.runBank = true → x.pwr.phase = .started ∧ x.upd.bank = c.updRec.runBank ∧ x.updRec = c.updRec)
      ∧ (d.bootOk c.updRec.runBank = false → d.bootOk (1 - c.updRec.runBank) = true →
          x.pwr.phase = .started ∧ x.upd.bank = 1 - c.updRec.runBank ∧ x.updRec.runBank = 1 - c.updRec.runBank)
      ∧ (d.bootOk c.updRec.runBank = false → d.bootOk (1 - c.updRec.runBank) = false →
          x.pwr.phase = .recovery ∧ x.on SEC_STATUS_NO_IMAGE = true) := by
  generalize he : c.banksShown p0 p1 = e
  have heupd : e.upd = { c.upd with pkgs := [p0, p1], trialBoot := false, fell := false } := by
    rw [← he]
    exact (Chip.bankShow_only _ 1 .upd (by simp)).trans (Chip.bankShow_only _ 0 .upd (by simp))
  have hrec : e.updRec = c.updRec := by
    unfold Chip.updRec
    rw [heupd]
    rfl
  have hok (b : Nat) : e.bootOk b = d.bootOk b := by
    refine Chip.bootOk_congr ?_ ?_ b
    · rw [heupd, hpkgs]
    · rw [← he, Chip.rd_banksShown _ _ _ (by decide), hctr]
  have hrow : c.bootIn mode p0 p1 = e.bankChoice.1.bootWith e.bankChoice.2 := by
    rw [Chip.bootIn, if_neg h1, if_neg h2, he]
  have hchoice := e.bankChoice_confirmed (hrec ▸ htrial)
  rw [hrec] at hchoice
  extract_lets x
  have hx : x = e.bankChoice.1.bootWith e.bankChoice.2 := hrow
  clear_value x
  subst hx
  refine ⟨fun hgood => ?_, fun hbad hother => ?_, fun hbad hother => ?_⟩
  · have hpick : e.bankChoice = (e, c.updRec.runBank) := by
      rw [hchoice, if_neg (by simp [hok, hgood])]
    rw [hpick]
    obtain ⟨hphase, hupd⟩ := e.bootWith_of_ok c.updRec.runBank ((hok _).trans hgood)
    refine ⟨hphase, congrArg Upd.bank hupd, ?_⟩
    rw [Chip.updRec, hupd]
    exact hrec
  · rw [if_pos (by simp [hok, hbad, hother])] at hchoice
    rw [hchoice]
    exact e.bootWith_fellBack { c.updRec with runBank := 1 - c.updRec.runBank, fellBack := true } ((hok _).trans hother)
  · have hpick : e.bankChoice = (e, c.updRec.runBank) := by
      rw [hchoice, if_neg (by simp [hok, hother])]
    rw [hpick]
    exact e.bootWith_of_bad c.updRec.runBank ((hok _).trans hbad)

end Sys2Proof.Machine
end

section
/-! SUPPORT. FW_READY, and the rows of the start together. -/

namespace Sys2Proof.Machine

/-! ### The firmware is ready -/

/-- The part runs, no waiting request ends in a reset, and no command of the peer is held. -/
structure Chip.RunsFree (c : Chip) : Prop where
  ready : c.ready = true
  phase : c.pwr.phase = .running
  waits : ∀ w ∈ c.fw.waits, w.plan.after = .none
  held : c.twn.held = []

section
variable {c d : Chip}

/-- A change that keeps FW_READY, and of the working state at most fields that `RunsFree` does not read. -/
theorem Chip.RunsFree.of_only (h : c.RunsFree) (hready : d.ready = c.ready) (hpwr : d.pwr = c.pwr) (hwaits : ∀ w ∈ d.fw.waits, w.plan.after = .none)
    (htwn : d.twn = c.twn) : d.RunsFree :=
  ⟨hready.trans h.ready, hpwr ▸ h.phase, hwaits, htwn ▸ h.held⟩

theorem Chip.RunsFree.within {P : List Nat} {T : List Part} (h : c.RunsFree) (hw : Chip.Within P T c d) (hP : 0 ∉ P) (hpwr : Part.pwr ∉ T)
    (hfw : Part.fw ∉ T) (htwn : Part.twn ∉ T) : d.RunsFree := by
  have hfwEq : d.fw = c.fw := hw.part .fw hfw
  exact h.of_only (Chip.on_of_cell (hw.cell _ hP)) (hw.part .pwr hpwr) (hfwEq ▸ h.waits) (hw.part .twn htwn)

theorem Chip.ready_wr_mbx (c : Chip) (f : Fld) (v : Nat) (h : 0x10000 ≤ f.off) : (c.wr f v).ready = c.ready :=
  Chip.on_wr_other _ _ _ _ (by have : TOP_STATUS_FW_READY.off = 8 := rfl
                               omega)

theorem Chip.RunsFree.waitOn (h : c.RunsFree) (w : Wait) (hw : w.plan.after = .none) : (c.waitOn w).RunsFree := by
  refine h.of_only rfl rfl (fun v hv => ?_) rfl
  rcases List.mem_append.1 hv with hold | hnew
  · exact h.waits v (List.mem_filter.1 hold).1
  · rw [List.mem_singleton.1 hnew]
    exact hw

theorem Chip.RunsFree.respond (h : c.RunsFree) (r : Req) (x : Resp) (taken : Bool) : (c.respond r x taken).RunsFree := by
  have hoff : 0x10000 ≤ (MBX_CH_STAT r.chan).off := by
    have : (MBX_CH_STAT r.chan).off = 0x10104 + 8 * r.chan := rfl
    omega
  have hready : (c.respond r x taken).ready = c.ready :=
    ((Chip.ready_wr_mbx _ _ _ hoff).trans (Chip.ready_wr_mbx _ _ _ hoff)).trans (Chip.ready_wr_mbx _ _ _ hoff)
  refine h.of_only hready ?_ (fun v hv => ?_) ?_
  · simp [Chip.respond, Chip.record, Chip.reply, Chip.set_def, Chip.clr_def]
  · have hmem : v ∈ c.fw.waits := by
      simp [Chip.respond, Chip.record, Chip.reply, Chip.set_def, Chip.clr_def] at hv
      exact hv.1
    exact h.waits v hmem
  · simp [Chip.respond, Chip.record, Chip.reply, Chip.set_def, Chip.clr_def]

theorem Chip.RunsFree.settle (h : c.RunsFree) (c0 : Chip) (w : Wait) (hw : w.plan.after = .none) : (c.settle c0 w).RunsFree := by
  unfold Chip.settle
  split
  · exact h.waitOn w hw
  · rw [hw]
    exact h.respond _ _ _

/-- A waiting request of a channel is one of the waiting requests. -/
theorem Chip.mem_of_waiting {ch : Nat} {w : Wait} (h : c.waiting ch = some w) : w ∈ c.fw.waits := List.mem_of_find?_eq_some h

theorem Chip.RunsFree.domainsDone (h : c.RunsFree) (ch : Nat) : (c.domainsDone ch).RunsFree := by
  unfold Chip.domainsDone
  split
  next w hw =>
    dsimp only
    split
    · unfold Chip.longEnd
      rw [hw]
      dsimp only
      split
      · exact h.settle _ _ (h.waits w (Chip.mem_of_waiting hw))
      · exact h
    · exact h
  next => exact h

theorem Chip.RunsFree.boundaryDone (h : c.RunsFree) : c.boundaryDone.RunsFree := by
  refine Chip.each_invariant Chip.RunsFree _ _ (fun d w hw hd => hd.settle _ _ ?_) _ h
  exact h.waits w (List.mem_filter.1 hw).1

theorem Chip.RunsFree.handDone (h : c.RunsFree) : c.handDone.RunsFree := by
  refine Chip.each_invariant Chip.RunsFree _ _ (fun d w hw hd => hd.settle _ _ ?_) _ h
  exact h.waits w (List.mem_filter.1 hw).1

theorem Chip.RunsFree.completeStood (h : c.RunsFree) : c.completeStood.RunsFree := by
  refine Chip.RunsFree.boundaryDone (Chip.each_invariant Chip.RunsFree _ _ (fun d ch _ hd => hd.domainsDone ch) _ ?_)
  refine Chip.each_invariant Chip.RunsFree _ _ (fun d w hw hd => hd.settle _ _ ?_) _ h
  exact h.waits w (List.mem_filter.1 hw).1

end

theorem Chip.raiseCounters_within (c : Chip) (p : Package) : Chip.Within [128] [] c (c.raiseCounters p) := by
  refine Chip.Within.each .refl fun y k hk => Chip.Within.refl.wr ?_
  have : (SEC_OTP_CTR_VALUE k).off = 0x800100 + 4 * k := rfl
  have := List.mem_range.1 hk
  simp only [List.mem_singleton]
  omega

theorem Chip.loadComponents_within (c : Chip) (p : Package) : Chip.Within [1, 128] [.upd] c (c.loadComponents p) := by
  unfold Chip.loadComponents
  extract_lets ok bad old codes changed roll src d e
  refine Chip.Within.each (Chip.Within.when' (Chip.setUpd_within .refl rfl rfl) fun y => Chip.Within.refl.set (by decide))
    fun y k _ => (Chip.Within.refl.set (by decide)).post (by decide)

theorem Chip.meetSchema_within (c : Chip) (p : Package) (conv : Bool) : Chip.Within [1, 128] [.upd] c (c.meetSchema p conv) := by
  unfold Chip.meetSchema
  extract_lets r s d
  have hd : Chip.Within [1, 128] [.upd] c d := (Chip.Within.refl.wr (by decide)).wr (by decide)
  have hupd (x : Upd) : Chip.Within [1, 128] [.upd] c (d.setUpd x) := Chip.setUpd_within hd rfl rfl
  split
  · exact ((hupd _).set (by decide)).post (by decide)
  · split
    · exact hupd _
    · exact (hupd _).wr (by decide)

theorem Chip.RunsFree.updReady {c : Chip} (h : c.RunsFree) (conv : Bool) : (c.updReady conv).RunsFree := by
  unfold Chip.updReady
  split
  · exact h.within (P := []) (T := [.upd]) (Chip.setUpd_within .refl rfl rfl) (by decide) (by decide) (by decide) (by decide)
  next p _ =>
    extract_lets u d d1 u1 d2 d3 d4
    have hput : Chip.Within [0] [.upd] c d :=
      Chip.Within.put (r := TOP_FW_VERSION) (v := p.version) (Chip.setUpd_within .refl rfl rfl) (by decide)
    have hfw : d.fw = c.fw := hput.part .fw (by decide)
    have hd : d.RunsFree := h.of_only (Chip.on_put_other _ _ _ _ (by decide)) (hput.part .pwr (by decide)) (hfw ▸ h.waits)
      (hput.part .twn (by decide))
    have hrest : Chip.Within [1, 128] [.upd] d (d4.meetSchema p conv) := by
      refine Chip.Within.trans ?_ (d4.meetSchema_within p conv)
      refine Chip.Within.when' (Chip.Within.trans ?_ (d2.loadComponents_within p)) fun y => (y.raiseCounters_within p).mono (by simp) (by simp)
      exact Chip.setUpd_within (Chip.Within.when' (Chip.Within.when' .refl fun y => Chip.Within.refl.post (by decide)) fun y =>
        Chip.Within.refl.post (by decide)) rfl rfl
    exact hd.within hrest (by decide) (by decide) (by decide) (by decide)

theorem Chip.RunsFree.trainAll {c : Chip} (h : c.RunsFree) : c.trainAll.RunsFree := by
  unfold Chip.trainAll
  split
  · exact h
  · have htrain : Chip.Within [20] [.dmc] c (c.each (List.range 8) fun c n =>
        let off := match settingIn c.fw.journal (.dmc, n) with | some x => x.w 0 == 0 | none => false
        if off then c.chEnter n chDisabled 4 else if c.chState n = chAbsent ∨ c.chState n = chTraining then c.trainStart n else c) := by
      refine Chip.Within.each .refl fun y n hn => ?_
      have hlt := List.mem_range.1 hn
      refine Chip.Within.ite (fun _ => Chip.chEnter_within hlt .refl (by decide) (by decide)) fun _ => ?_
      exact Chip.Within.ite (fun _ => Chip.chEnter_within hlt .refl (by decide) (by decide)) fun _ => .refl
    exact h.within htrain (by decide) (by decide) (by decide) (by decide)

/-- What FW_READY does before the commands held for the part are due. -/
theorem Chip.fwReady_free (c : Chip) (conv : Bool) (hphase : c.pwr.phase = .started)
    (hafter : ∀ w ∈ c.fw.waits, w.plan.after = .none) (hheld : c.twn.held = []) : (c.fwReady conv).RunsFree := by
  unfold Chip.fwReady
  rw [if_neg (not_not_intro hphase)]
  extract_lets d0 src d1 d2 d3 d4 d5
  have hsync : Chip.Within [124] [.pmcAt] c d0 := Chip.pmcSync_within .refl rfl rfl
  have hfw : d2.fw = c.fw := by
    simp only [d2, Chip.post_fw, Chip.set_def, Chip.wr_fw]
    exact hsync.part .fw (by decide)
  have hd : d2.RunsFree := by
    refine ⟨?_, ?_, hfw ▸ hafter, ?_⟩
    · exact (Chip.on_post _ _ _ _ _ _ (by decide)).trans (Chip.on_set_same d1 rfl (by decide))
    · simp only [d2, Chip.post_pwr, Chip.set_def, Chip.wr_pwr]
      rfl
    · simp only [d2, Chip.post_twn, Chip.set_def, Chip.wr_twn]
      exact (congrArg Twn.held (hsync.part .twn (by decide))).trans hheld
  have hall : d5.RunsFree := ((hd.completeStood).updReady conv).trainAll
  clear_value d5
  exact hall.of_only rfl rfl hall.waits rfl

/-- Settles O18: each row is its operation; of the boot ROM the banks are as found, and the lock stands through what follows it. -/
theorem partStarts : Obligations.PartStarts := by
  unfold Obligations.PartStarts
  refine ⟨⟨?_, ?_, ?_, ?_, ?_⟩, ?_, ?_⟩
  · rintro s t c rfl hphase
    have hrow : (s.chipAt t).release = { s.chipAt t with pwr := { (s.chipAt t).pwr with phase := .released, strapDue := true } } := if_pos hphase
    refine ⟨_, rfl, ?_⟩
    rw [hrow]
    exact ⟨rfl, rfl, rfl⟩
  · rintro s t c v rfl hphase hdue
    have hrow : (s.chipAt t).strapSample v.toNat = { (s.chipAt t).put TOP_STRAP (strapWord v.toNat) with
        pwr := { ((s.chipAt t).put TOP_STRAP (strapWord v.toNat)).pwr with strapDue := false } } := if_pos ⟨hphase, hdue⟩
    have hword : strapWord v.toNat = v.toNat + (if v.toNat % 4 = 3 ∨ bit v.toNat 7 then 256 else 0) := by
      rw [strapWord, Nat.mod_eq_of_lt v.isLt]
    have hlt : strapWord v.toNat < 2 ^ 32 := by
      have := v.isLt
      rw [hword]
      split <;> omega
    refine ⟨s.commit ((s.chipAt t).strapSample v.toNat), rfl, ?_⟩
    rw [hrow]
    refine ⟨?_, rfl⟩
    rw [← hword]
    exact ((s.chipAt t).get_put_same TOP_STRAP _).trans (Nat.mod_eq_of_lt hlt)
  · rintro s t c idOk b0 b1 rfl hphase hdue
    have hrow := (s.chipAt t).bootRom_eq idOk b0 b1 hphase hdue
    have hrd (f : Fld) (hf : f.bootClear = true) : ((s.chipAt t).bootRom idOk b0 b1).on f = ((s.chipAt t).bootBegun idOk).on f := by
      rw [hrow, Chip.on, Chip.rd_bootIn _ _ _ _ hf, Chip.on]
    refine ⟨s.commit ((s.chipAt t).bootRom idOk b0 b1), rfl, ?_, ?_, fun hcold hid => ?_, fun hcold hmode => ?_, fun hcold hmode hdebug => ?_⟩
    · rw [State.commit_on, hrd _ (by decide)]
      exact (s.chipAt t).locked_bootBegun idOk
    · rw [hrow]
      exact Chip.bootIn_phase _ _ _ _
    · rw [State.commit_on, hrd _ (by decide), hid]
      exact (s.chipAt t).identity_bootBegun hcold
    · have hone : (s.chipAt t).bootMode (s.chipAt t).coldBoot = 1 := by
        simp [Chip.bootMode, Chip.coldBoot, hcold, hmode]
      rw [hrow, hone]
      rfl
    · have htwo : (s.chipAt t).bootMode (s.chipAt t).coldBoot = 2 := by
        simp [Chip.bootMode, Chip.coldBoot, hcold, hmode, hdebug]
      rw [hrow, htwo]
      refine ⟨rfl, ?_⟩
      have hhold := Chip.on_set_same ((s.chipAt t).bootBegun idOk) (f := SEC_BOOT_DEBUG_HOLD) rfl (by decide)
      exact (congrArg (· != 0) (Chip.rd_pmcSync _ SEC_BOOT_DEBUG_HOLD (by decide))).trans hhold
  · rintro s t c d idOk b0 b1 rfl hphase hdue htrial hrun rfl
    have hrow := (s.chipAt t).bootRom_eq idOk b0 b1 hphase fun h => (hdue h).1
    have hmode : (s.chipAt t).bootMode (s.chipAt t).coldBoot = 0 := by
      by_cases hcold : (s.chipAt t).pwr.asked &&& 12 = 0
      · simp [Chip.bootMode, Chip.coldBoot, hcold]
      · obtain hzero | hthree := (hdue hcold).2
        · simp [Chip.bootMode, hzero]
        · simp [Chip.bootMode, hthree]
    have hupd : ((s.chipAt t).bootBegun idOk).upd = (s.chipAt t).upd := (s.chipAt t).bootBegun_only idOk .upd (by simp)
    have hrec : ((s.chipAt t).bootBegun idOk).updRec = (s.chipAt t).updRec := congrArg Upd.newest hupd
    have hctr : ((s.chipAt t).bootBegun idOk).rd (SEC_OTP_CTR_VALUE 0) = (s.chipAt t).rd (SEC_OTP_CTR_VALUE 0) := by
      rw [Chip.bootBegun, Chip.rd_when, Chip.rd_wr_keeps _ _ (by decide), ite_self, Chip.rd_bootGuarded _ _ _ (by decide) (by decide)]
    have hexec : exec (.bootRomRun t idOk b0 b1) s = .next (s.commit (((s.chipAt t).bootBegun idOk).bootIn 0 b0 b1)) := by
      rw [← hmode, ← hrow]
      rfl
    have hboot := ((s.chipAt t).bootBegun idOk).bootIn_confirmed { s.chipAt t with upd := { (s.chipAt t).upd with pkgs := [b0, b1] } } b0 b1 0
      (by decide) (by decide) (hrec ▸ htrial) (hrec ▸ hrun) rfl hctr.symm
    rw [hrec] at hboot
    generalize ((s.chipAt t).bootBegun idOk).bootIn 0 b0 b1 = x at hexec hboot
    exact ⟨_, hexec, hboot⟩
  · rintro s t c rfl hphase houts
    have hgate : ((s.chipAt t).pwr.phase == .started || (s.chipAt t).pwr.phase == .running) = true := by simpa using hphase
    have hrow : exec (.watchdogExpiry t) s = .next (s.commit (((s.chipAt t).fwReset true).busRun s.mem)) :=
      congrArg (fun c => Host.Outcome.next (s.commit c)) (if_pos hgate)
    have hreset := (s.chipAt t).fwReset_watchdog s.mem houts
    generalize ((s.chipAt t).fwReset true).busRun s.mem = d at hrow hreset
    exact ⟨_, hrow, hreset⟩
  · rintro s t conv c rfl hphase hafter hheld
    have hfree := (s.chipAt t).fwReady_free conv hphase (by simpa using hafter) hheld
    have hdue : ((s.chipAt t).fwReady conv).commandsDue s.mem = (s.chipAt t).fwReady conv := by
      rw [Chip.commandsDue, hfree.held]
      rfl
    have hrow : exec (.fwReady t conv) s = .next (s.commit (((s.chipAt t).fwReady conv).when
        (((s.chipAt t).fwReady conv).ready && ((s.chipAt t).fwReady conv).twn.handover.isNone) (·.handDone))) := by
      rw [← hdue]
      rfl
    have hend : (((s.chipAt t).fwReady conv).when (((s.chipAt t).fwReady conv).ready && ((s.chipAt t).fwReady conv).twn.handover.isNone)
        (·.handDone)).RunsFree := by
      unfold Chip.when
      split
      · exact hfree.handDone
      · exact hfree
    generalize ((s.chipAt t).fwReady conv).when _ _ = d at hrow hend
    exact ⟨_, hrow, hend.ready, hend.phase⟩
  · rintro s t c rfl hready hload hrefused htrain
    have hmay : (s.chipAt t).mayLoad = true := by
      simp only [Chip.mayLoad, hready, hload, hrefused, Bool.not_false, Bool.and_true, Bool.true_and, List.all_eq_true, List.mem_range, bne_iff_ne]
      exact fun n hn => htrain ⟨n, hn⟩
    have hrow := State.fwStep_ready s t Chip.configLoad hready
    have hload : (s.chipAt t).configLoad.fw.cfgLoaded = true ∧ (s.chipAt t).configLoad.fw.loaded = true := by
      unfold Chip.configLoad
      rw [hmay]
      exact ⟨rfl, rfl⟩
    generalize (s.chipAt t).configLoad = d at hrow hload
    exact ⟨_, hrow, hload⟩

end Sys2Proof.Machine
end

section
/-! SUPPORT. How a request is answered (R130, R131, R133, R136): the words of the response in memory, the channel's status, the history, and
the step of a request row from what the checks decide. -/

namespace Sys2Proof.Machine

/-! ### Words written to memory -/

theorem flatMap_wordBytes_length (ws : List Nat) : (ws.flatMap wordBytes).length = 4 * ws.length := by
  induction ws with
  | nil => rfl
  | cons w ws ih => rw [List.flatMap_cons, List.length_append, ih]; simp [wordBytes]; omega

/-- The four bytes of a word written read back as the word. -/
theorem wordBytes_value (w : Nat) :
    (BitVec.ofNat 8 w).toNat + (BitVec.ofNat 8 (w / 2 ^ 8)).toNat * 2 ^ 8 + (BitVec.ofNat 8 (w / 2 ^ 16)).toNat * 2 ^ 16
      + (BitVec.ofNat 8 (w / 2 ^ 24)).toNat * 2 ^ 24 = w % 2 ^ 32 := by
  simp only [BitVec.toNat_ofNat]
  omega

theorem flatMap_wordBytes_drop (ws : List Nat) (i : Nat) : (ws.flatMap wordBytes).drop (4 * i) = (ws.drop i).flatMap wordBytes := by
  induction ws generalizing i with
  | nil => simp
  | cons w ws ih =>
    cases i with
    | zero => rfl
    | succ i =>
      rw [List.flatMap_cons, Nat.mul_succ, Nat.add_comm, ← List.drop_drop, List.drop_succ_cons]
      exact ih i

theorem flatMap_wordBytes_get (ws : List Nat) (i j : Nat) (hi : i < ws.length) (hj : j < 4)
    (h : 4 * i + j < (ws.flatMap wordBytes).length) : (ws.flatMap wordBytes)[4 * i + j] = (wordBytes ws[i])[j]'hj := by
  have hdrop : (ws.flatMap wordBytes).drop (4 * i) = wordBytes ws[i] ++ (ws.drop (i + 1)).flatMap wordBytes := by
    rw [flatMap_wordBytes_drop, List.drop_eq_getElem_cons hi, List.flatMap_cons]
  have hlt : j < ((ws.flatMap wordBytes).drop (4 * i)).length := by rw [List.length_drop]; omega
  rw [← List.getElem_drop (h := hlt)]
  simp only [hdrop]
  exact List.getElem_append_left hj

theorem Memory.word_writeBytes_words (m : Memory) (x : Nat) (ws : List Nat) (h : m.wf = true) (i : Nat) (hi : i < ws.length) :
    (m.writeBytes x (ws.flatMap wordBytes)).word (x + 4 * i) = ws[i] % 2 ^ 32 := by
  have hread : ∀ (j : Nat) (hj : j < 4), (m.writeBytes x (ws.flatMap wordBytes)).read (x + 4 * i + j) = (wordBytes ws[i])[j]'hj := fun j hj => by
    have hlt : 4 * i + j < (ws.flatMap wordBytes).length := by rw [flatMap_wordBytes_length]; omega
    rw [Nat.add_assoc, Memory.read_writeBytes_same m x (4 * i + j) _ h hlt, flatMap_wordBytes_get ws i j hi hj]
  rw [Memory.word, ← Nat.add_zero (x + 4 * i), hread 0 (by decide), hread 1 (by decide), hread 2 (by decide), hread 3 (by decide)]
  exact wordBytes_value ws[i]

/-- Words written read back, each modulo 2^32. -/
theorem Memory.wordsAt_apply_words (m : Memory) (x n : Nat) (ws : List Nat) (h : m.wf = true) (hn : n = ws.length) :
    (m.apply (.words x ws)).wordsAt x n = ws.map (· % 2 ^ 32) := by
  subst hn
  apply List.ext_getElem
  · simp [Memory.wordsAt]
  · intro i hi _
    have hi : i < ws.length := by simpa [Memory.wordsAt] using hi
    simp only [Memory.wordsAt, List.getElem_map, List.getElem_range]
    exact Memory.word_writeBytes_words m x ws h i hi

/-- Words written leave every other address as it was. -/
theorem Memory.read_apply_words_other (m : Memory) (x a : Nat) (ws : List Nat) (h : m.wf = true) (ha : a < x ∨ x + 4 * ws.length ≤ a) :
    (m.apply (.words x ws)).read a = m.read a :=
  Memory.read_writeBytes_other m x a _ h (by rwa [flatMap_wordBytes_length])

theorem State.commit_wordsAt (s : State) (d : Chip) (x : Nat) (ws : List Nat) (hwf : s.mem.wf = true)
    (hout : ∃ ops, d.out = ops ++ [.words x ws]) (n : Nat) (hn : n = ws.length) :
    (s.commit d).mem.wordsAt x n = ws.map (· % 2 ^ 32) := by
  obtain ⟨ops, hout⟩ := hout
  rw [State.commit_mem, hout, List.foldl_append]
  exact Memory.wordsAt_apply_words _ x n ws (Memory.applyAll_wf _ ops hwf) hn

/-! ### What a response leaves -/

/-- The status register of a channel. -/
theorem MBX_CH_STAT_off (n : Nat) : (MBX_CH_STAT n).off = 0x10104 + 8 * n := rfl

section
variable (c : Chip) (ch w0 : Nat) (x : Resp)

/-- The channel's order entry and its waiting request are gone once it is answered. -/
def Fw.served (f : Fw) (ch : Nat) : Fw :=
  { f with order := f.order.filter fun o => o.1 != ch, waits := f.waits.filter fun w => w.req.chan != ch }

/-- The words of a response (R133). -/
def Resp.words (x : Resp) (w0 : Nat) : List Nat := [w0, x.status + x.flags * 2 ^ 16, 4 * x.payload.length, x.epoch] ++ x.payload

theorem Resp.words_length : (x.words w0).length = 4 + x.payload.length := by
  rw [Resp.words, List.length_append]
  rfl

theorem Chip.reply_out : (c.reply ch w0 x).out = c.out ++ [.words (respBuf ch) (x.words w0)] := by
  simp [Chip.reply, Chip.set_def, Chip.clr_def, Resp.words]

@[simp] theorem Chip.reply_fw : (c.reply ch w0 x).fw = c.fw.served ch := by simp [Chip.reply, Chip.set_def, Chip.clr_def, Fw.served]
@[simp] theorem Chip.reply_pwr : (c.reply ch w0 x).pwr = c.pwr := by simp [Chip.reply, Chip.set_def, Chip.clr_def]
@[simp] theorem Chip.reply_twn : (c.reply ch w0 x).twn = c.twn := by simp [Chip.reply, Chip.set_def, Chip.clr_def]
@[simp] theorem Chip.reply_bus : (c.reply ch w0 x).bus = c.bus := by simp [Chip.reply, Chip.set_def, Chip.clr_def]
@[simp] theorem Chip.reply_upd : (c.reply ch w0 x).upd = c.upd := by simp [Chip.reply, Chip.set_def, Chip.clr_def]
@[simp] theorem Chip.reply_now : (c.reply ch w0 x).now = c.now := by simp [Chip.reply, Chip.set_def, Chip.clr_def]

/-- The status register of a channel that is answered. -/
def Chip.replyStat (c : Chip) (ch w0 : Nat) : Chip :=
  ((c.clr (MBX_CH_STAT_BUSY ch)).set (MBX_CH_STAT_RESP_READY ch)).wr (MBX_CH_STAT_LAST_SEQ ch) (bits w0 0 16)

theorem Chip.reply_regs : (c.reply ch w0 x).regs = ((c.emit (.words (respBuf ch) (x.words w0))).replyStat ch w0).regs := rfl

theorem Chip.on_replyStat_busy : (c.replyStat ch w0).on (MBX_CH_STAT_BUSY ch) = false := by
  unfold Chip.replyStat
  rw [Chip.on_wr_keeps _ _ (by exact Fld.apart_of_clear rfl rfl), Chip.on_set_keeps _ (by exact Fld.apart_of_clear rfl rfl)]
  exact Chip.on_clr_same _ rfl

theorem Chip.on_replyStat_ready : (c.replyStat ch w0).on (MBX_CH_STAT_RESP_READY ch) = true := by
  unfold Chip.replyStat
  rw [Chip.on_wr_keeps _ _ (by exact Fld.apart_of_clear rfl rfl)]
  exact Chip.on_set_same _ rfl Nat.one_ne_zero

theorem Chip.cell_replyStat_other {o : Nat} (h : (MBX_CH_STAT ch).off ≠ o) : (c.replyStat ch w0).cell o = c.cell o := by
  unfold Chip.replyStat
  rw [Chip.cell_wr_other _ (MBX_CH_STAT_LAST_SEQ ch) _ o h, Chip.set_def, Chip.cell_wr_other _ (MBX_CH_STAT_RESP_READY ch) _ o h, Chip.clr_def,
    Chip.cell_wr_other _ (MBX_CH_STAT_BUSY ch) _ o h]

theorem Chip.on_reply_busy : (c.reply ch w0 x).on (MBX_CH_STAT_BUSY ch) = false :=
  (Chip.on_of_cell (Chip.cell_of_regs (c.reply_regs ch w0 x) _)).trans (Chip.on_replyStat_busy ..)

theorem Chip.on_reply_ready : (c.reply ch w0 x).on (MBX_CH_STAT_RESP_READY ch) = true :=
  (Chip.on_of_cell (Chip.cell_of_regs (c.reply_regs ch w0 x) _)).trans (Chip.on_replyStat_ready ..)

theorem Chip.cell_reply_other {o : Nat} (h : (MBX_CH_STAT ch).off ≠ o) : (c.reply ch w0 x).cell o = c.cell o :=
  (Chip.cell_of_regs (c.reply_regs ch w0 x) _).trans (Chip.cell_replyStat_other _ _ _ h)

theorem Chip.rd_reply_other {f : Fld} (h : (MBX_CH_STAT ch).off ≠ f.off) : (c.reply ch w0 x).rd f = c.rd f :=
  Chip.rd_of_cell (c.cell_reply_other ch w0 x h)

theorem Chip.on_reply_other {f : Fld} (h : (MBX_CH_STAT ch).off ≠ f.off) : (c.reply ch w0 x).on f = c.on f :=
  Chip.on_of_cell (c.cell_reply_other ch w0 x h)

theorem Chip.get_reply_other {r : Reg} (h : (MBX_CH_STAT ch).off ≠ r.off) : (c.reply ch w0 x).get r = c.get r :=
  Chip.get_of_cell (c.cell_reply_other ch w0 x h)

end

/-! ### A request that is answered -/

/-- The chip has answered request `r` with response `x`, as its last write to memory. -/
structure Chip.Answered (d : Chip) (r : Req) (x : Resp) : Prop where
  out : ∃ ops, d.out = ops ++ [.words (respBuf r.chan) (x.words r.head)]
  busy : d.on (MBX_CH_STAT_BUSY r.chan) = false
  ready : d.on (MBX_CH_STAT_RESP_READY r.chan) = true
  hist : (d.fw.hist.head?.map fun h => (h.chan, h.seq, h.opcode, h.len, h.resp)) = some (r.chan, r.seq, r.opcode, r.len, x)
  waits : d.fw.waits.all (fun w => w.req.chan != r.chan) = true
  order : d.fw.order.all (fun o => o.1 != r.chan) = true

theorem Chip.respond_out (c : Chip) (r : Req) (x : Resp) (taken : Bool) :
    (c.respond r x taken).out = c.out ++ [.words (respBuf r.chan) (x.words r.head)] := c.reply_out ..

theorem Chip.respond_answered (c : Chip) (r : Req) (x : Resp) (taken : Bool) : (c.respond r x taken).Answered r x where
  out := ⟨c.out, c.respond_out ..⟩
  busy := c.on_reply_busy ..
  ready := c.on_reply_ready ..
  hist := rfl
  waits := by simp [Chip.respond, Chip.record, Fw.served]
  order := by simp [Chip.respond, Chip.record, Fw.served]

section
variable {c d e : Chip} {r : Req} {x : Resp}

/-- What changes neither the mailbox, nor the firmware's lists, nor writes memory, leaves a request answered. -/
theorem Chip.Answered.of_same (h : d.Answered r x) (hout : e.out = d.out) (hcell : e.cell (MBX_CH_STAT r.chan).off = d.cell (MBX_CH_STAT r.chan).off)
    (hhist : e.fw.hist = d.fw.hist) (hwaits : e.fw.waits = d.fw.waits) (horder : e.fw.order = d.fw.order) : e.Answered r x where
  out := hout ▸ h.out
  busy := (Chip.on_of_cell hcell).trans h.busy
  ready := (Chip.on_of_cell hcell).trans h.ready
  hist := hhist ▸ h.hist
  waits := hwaits ▸ h.waits
  order := horder ▸ h.order

theorem State.answered_commit {s : State} (h : d.Answered r x) (hwf : s.mem.wf = true) : (s.commit d).answered r x :=
  ⟨State.commit_wordsAt s d _ _ hwf h.out _ (x.words_length r.head).symm, h.busy, h.ready, h.hist, h.waits, h.order⟩
end

/-! ### What follows the service of a request -/

@[simp] theorem Chip.tell_regs (c : Chip) (k : Nat) (b : List Nat) : (c.tell k b).regs = c.regs := by unfold Chip.tell; split <;> rfl
@[simp] theorem Chip.tell_out (c : Chip) (k : Nat) (b : List Nat) : (c.tell k b).out = c.out := by unfold Chip.tell; split <;> rfl
@[simp] theorem Chip.tell_fw (c : Chip) (k : Nat) (b : List Nat) : (c.tell k b).fw = c.fw := by unfold Chip.tell; split <;> rfl
@[simp] theorem Chip.tell_bus (c : Chip) (k : Nat) (b : List Nat) : (c.tell k b).bus = c.bus := by unfold Chip.tell; split <;> rfl

/-- A view of the chip that a message to the peer keeps, the forwarded selections keep. -/
theorem Chip.tellSelect_keeps {β : Type} (view : Chip → β) (h : ∀ (c : Chip) (k : Nat) (b : List Nat), view (c.tell k b) = view c) (c d : Chip) :
    view (c.tellSelect d) = view c := by
  refine Chip.each_keeps view _ _ (fun c q _ => ?_) c
  unfold Chip.when
  split
  · exact h ..
  · rfl

@[simp] theorem Chip.tellSelect_regs (c d : Chip) : (c.tellSelect d).regs = c.regs := Chip.tellSelect_keeps Chip.regs (by simp) c d
@[simp] theorem Chip.tellSelect_out (c d : Chip) : (c.tellSelect d).out = c.out := Chip.tellSelect_keeps Chip.out (by simp) c d
@[simp] theorem Chip.tellSelect_fw (c d : Chip) : (c.tellSelect d).fw = c.fw := Chip.tellSelect_keeps Chip.fw (by simp) c d
@[simp] theorem Chip.tellSelect_bus (c d : Chip) : (c.tellSelect d).bus = c.bus := Chip.tellSelect_keeps Chip.bus (by simp) c d

theorem BUS_MST_STAT_off (n : Nat) : (BUS_MST_STAT n).off = 0x780100 + 4 * n := rfl

theorem Chip.cell_busShow (c : Chip) (o : Nat) (h : o < 0x780000) : c.busShow.cell o = c.cell o := by
  refine Chip.each_keeps (fun c => c.cell o) _ _ (fun c m _ => ?_) c
  have hne : (BUS_MST_STAT m).off ≠ o := by rw [BUS_MST_STAT_off]; omega
  exact ((Chip.cell_wr_other _ _ _ _ hne).trans (Chip.cell_wr_other _ _ _ _ hne)).trans (Chip.cell_wr_other _ _ _ _ hne)

@[simp] theorem Chip.busShow_out (c : Chip) : c.busShow.out = c.out :=
  Chip.each_keeps Chip.out _ _ (fun c m _ => by simp [Chip.wrB]) c

@[simp] theorem Chip.busShow_fw (c : Chip) : c.busShow.fw = c.fw := c.busShow_only .fw (by decide)

end Sys2Proof.Machine
end

section
/-! SUPPORT. A request row from what its checks decide (R131, R135): queries, which no budget, journal or peer holds up. -/

namespace Sys2Proof.Machine

/-- The chip with the history of a channel trimmed for one more entry (R136). -/
def Chip.trimmed (c : Chip) (ch : Nat) : Chip := { c with fw := { c.fw with hist := keepHist ch 63 c.fw.hist } }

/-- The service of the request that is next on a channel and passes steps 1 to 6 of R135. -/
theorem State.serve_asks {s : State} {t ch op : Nat} {r : Req} (h : s.asks t ch r) (hop : r.opcode = op) (chk : Ctx → Req → Check) :
    ∃ since, (s.chipAt t).nextBell = some (ch, since)
      ∧ (s.chipAt t).serve s.mem ch op chk = ((s.chipAt t).trimmed ch).judge (s.chipAt t) s.mem r chk since := by
  obtain ⟨⟨since, hbell⟩, hbusy, hversion, hparse, hchan, hhist, hform⟩ := h
  refine ⟨since, hbell, ?_⟩
  have hturn : ¬(ch ≠ ch ∨ (!(s.chipAt t).on (MBX_CH_STAT_BUSY ch)) = true) := by rw [hbusy]; simp
  unfold Chip.serve
  rw [hbell, hparse]
  refine (if_neg hturn).trans ((if_neg (not_not.2 hversion)).trans ((if_neg (not_not.2 hchan)).trans ?_))
  rw [hhist, hform]
  exact if_neg (not_not.2 hop)

/-- A request row whose service answers the request. -/
theorem State.request_answered {s : State} {t : Nat} {ch : Fin 16} {op : Nat} {chk : Ctx → Req → Check} {r : Req} {x : Resp} {d : Chip}
    (hwf : s.mem.wf = true) (hserve : (s.chipAt t).serve s.mem ch op chk = d) (houts : d.bus.outs = []) (h : d.Answered r x) (hch : r.chan < 16) :
    s.request t ch op chk = .next (s.commit (d.tellSelect (s.chipAt t)).busShow)
      ∧ (s.commit (d.tellSelect (s.chipAt t)).busShow).answered r x := by
  have hbus : (d.tellSelect (s.chipAt t)).bus.outs = [] := by rw [Chip.tellSelect_bus]; exact houts
  refine ⟨?_, State.answered_commit (h.of_same ?_ ?_ ?_ ?_ ?_) hwf⟩
  · rw [State.request, State.run, hserve, Chip.busRun_idle _ _ hbus]
  · rw [Chip.busShow_out, Chip.tellSelect_out]
  · rw [Chip.cell_busShow _ _ (by rw [MBX_CH_STAT_off]; omega), Chip.cell_of_regs (Chip.tellSelect_regs _ _)]
  · rw [Chip.busShow_fw, Chip.tellSelect_fw]
  · rw [Chip.busShow_fw, Chip.tellSelect_fw]
  · rw [Chip.busShow_fw, Chip.tellSelect_fw]

/-- A query changes nothing but what the firmware holds: its plan has no change. -/
theorem Chip.admits_okPlan (c : Chip) (x : Resp) (j f : Bool) (l : Option Long) (a : After) :
    c.admits { resp := x, journal := j, fwd := f, long := l, after := a } = true := rfl

/-- A query whose checks pass is answered. -/
theorem Chip.judge_query {c c0 : Chip} {m : Memory} {r : Req} {chk : Ctx → Req → Check} {since : Nat} {ws : List Nat}
    (hkind : opKind r.opcode = .query) (hlow : r.opcode % 256 < 128) (hflags : r.flags = 0) (hepoch : r.epoch = 0)
    (hchk : chk (c.ctx m) r = okPlan ws) :
    c.judge c0 m r chk since = (c.renumber r.chan r.seq).respond r ⟨0, 0, 0, ws⟩ false := by
  have hpeer : r.targetPeer = false := by rw [Req.targetPeer, hflags]; rfl
  have hcheck : r.checkOnly = false := by rw [Req.checkOnly, hflags]; rfl
  have hop : r.opcode ≠ 0x0F80 := fun h => by rw [h] at hlow; exact absurd hlow (by decide)
  have hverdict : c.verdict m r chk = .accept { resp := ⟨0, 0, 0, ws⟩, journal := false, fwd := false } := by
    simp [Chip.verdict, Chip.checked, hchk, okPlan, hkind, hpeer, hepoch, stOK, stUpdateRefused, Chip.admits_okPlan, Nat.not_le.2 hlow]
  simp [Chip.judge, hverdict, hcheck, Chip.proceed, Plan.writes, Chip.execute, Chip.journalPlan, Chip.longStart, Chip.forwardPlan, Chip.settle, hop,
    Chip.follow]

/-- A query row whose checks pass on a request that is next answers it. -/
theorem State.query_answered {s : State} {t op : Nat} {ch : Fin 16} {r : Req} {c : Chip} {chk : Ctx → Req → Check} {ws : List Nat}
    (hc : c = s.chipAt t) (h : s.asksFor t ch op 0 r) (hkind : opKind op = .query) (hlow : op % 256 < 128)
    (hchk : chk ((c.trimmed ch).ctx s.mem) r = okPlan ws) :
    ∃ s', s.request t ch op chk = .next s' ∧ s'.answered r ⟨0, 0, 0, ws⟩ := by
  subst hc
  obtain ⟨⟨hwf, -⟩, hasks, hop, hflags, hepoch, houts⟩ := h
  obtain ⟨since, -, hserve⟩ := State.serve_asks hasks hop chk
  rw [Chip.judge_query (hop ▸ hkind) (hop ▸ hlow) hflags hepoch hchk] at hserve
  have hch : r.chan < 16 := by obtain ⟨-, -, -, -, hchan, -⟩ := hasks; rw [hchan]; exact ch.isLt
  obtain ⟨hrow, hanswered⟩ := State.request_answered hwf hserve ((congrArg Bus.outs (Chip.reply_bus ..)).trans houts) (Chip.respond_answered ..) hch
  exact ⟨_, hrow, hanswered⟩

end Sys2Proof.Machine
end

section
/-! SUPPORT. The queries (R113, R141): each answers what its registers read. -/

namespace Sys2Proof.Machine

theorem require_pos {α : Type} {b : Bool} {st : Nat} {k : Except Nat α} (h : b = true) : require b st k = k := if_pos h

theorem Req.lenIs_of {r : Req} {n : Nat} (h : r.len = 4 * n) : r.lenIs n = true := beq_iff_eq.2 h

theorem List.all_range_of {n : Nat} {p : Nat → Bool} (h : ∀ i < n, p i = true) : (List.range n).all p = true :=
  List.all_eq_true.2 fun i hi => h i (List.mem_range.1 hi)

/-- What a register reads after a write depends on the registers only. -/
theorem Chip.get_wr_of_regs {c d : Chip} (h : d.regs = c.regs) (f : Fld) (v : Nat) (r : Reg) : (d.wr f v).get r = (c.wr f v).get r := by
  have hget : ∀ r, d.get r = c.get r := fun r => Chip.get_of_cell (Chip.cell_of_regs h _)
  have hregs : (d.wr f v).regs = (c.wr f v).regs := by
    unfold Chip.wr Chip.put
    simp only [h, hget]
    split <;> simp [h]
  exact Chip.get_of_cell (Chip.cell_of_regs hregs _)

/-- The health counter stands in a register of its own. -/
theorem Chip.updStatus_reads (c : Chip) (v : Nat) :
    [SEC_STATUS, UPD_STATE, UPD_HEALTH, UPD_DL_BYTES, UPD_SCHEMA, SEC_BOOT, UPD_BANK_VER 0, UPD_BANK_VER 1, UPD_BANK_STAT 0,
      UPD_BANK_STAT 1].map (c.wr UPD_HEALTH_REMAIN_S v).get ++ (List.range 6).map (fun k => (c.wr UPD_HEALTH_REMAIN_S v).get (SEC_OTP_CTR k))
    = [SEC_STATUS, UPD_STATE].map c.get ++ [(c.wr UPD_HEALTH_REMAIN_S v).get UPD_HEALTH]
      ++ [UPD_DL_BYTES, UPD_SCHEMA, SEC_BOOT, UPD_BANK_VER 0, UPD_BANK_VER 1, UPD_BANK_STAT 0, UPD_BANK_STAT 1].map c.get
      ++ (List.range 6).map fun k => c.get (SEC_OTP_CTR k) := by
  have hregs : ∀ r ∈ [SEC_STATUS, UPD_STATE, UPD_DL_BYTES, UPD_SCHEMA, SEC_BOOT, UPD_BANK_VER 0, UPD_BANK_VER 1, UPD_BANK_STAT 0, UPD_BANK_STAT 1]
      ++ (List.range 6).map SEC_OTP_CTR, (c.wr UPD_HEALTH_REMAIN_S v).get r = c.get r := fun r hr =>
    Chip.get_wr_other _ _ _ _ ((by decide : ∀ r ∈ [SEC_STATUS, UPD_STATE, UPD_DL_BYTES, UPD_SCHEMA, SEC_BOOT, UPD_BANK_VER 0, UPD_BANK_VER 1,
      UPD_BANK_STAT 0, UPD_BANK_STAT 1] ++ (List.range 6).map SEC_OTP_CTR, UPD_HEALTH_REMAIN_S.off ≠ r.off) r hr)
  simp [List.range_succ] at hregs ⊢
  simp [hregs]

/-! ### The checks of the queries, on a request that names what exists -/

section
variable {x : Ctx} {r : Req}

theorem chkUpdStatus_ok (hlen : r.len = 0) :
    chkUpdStatus x r = okPlan ([SEC_STATUS, UPD_STATE].map x.c.get ++ [(x.c.wr UPD_HEALTH_REMAIN_S x.c.healthLeft).get UPD_HEALTH]
      ++ [UPD_DL_BYTES, UPD_SCHEMA, SEC_BOOT, UPD_BANK_VER 0, UPD_BANK_VER 1, UPD_BANK_STAT 0, UPD_BANK_STAT 1].map x.c.get
      ++ (List.range 6).map fun k => x.c.get (SEC_OTP_CTR k)) :=
  (require_pos (Req.lenIs_of hlen)).trans (congrArg okPlan (Chip.updStatus_reads _ _))

theorem chkPtpRecords_ok (hlen : r.len = 8) (hport : r.w 0 < 4) (hmin : 1 ≤ r.w 1) (hmax : r.w 1 ≤ 63) {es : List (List Nat)}
    (hes : es = ((if bit (r.w 0) 1 then (x.c.ptpPort (r.w 0 % 2)).txCopy else (x.c.ptpPort (r.w 0 % 2)).rxCopy).take (r.w 1))) :
    chkPtpRecords x r = okPlan (es.length :: es.reverse.flatten) := by
  have hbits : bits (r.w 0) 0 1 = r.w 0 % 2 := by simp [bits]
  unfold chkPtpRecords
  rw [require_pos (Req.lenIs_of hlen), require_pos (by simp [hport, hmin, hmax]), hes, hbits]

theorem chkGetRoutes_ok (hlen : r.len = 8) (hmin : 1 ≤ r.w 1) (hmax : r.w 1 ≤ 384)
    (hoffered : ((List.range (r.w 1)).all fun i => dstOffered x.c.role (r.w 0 + i)) = true) :
    chkGetRoutes x r = okPlan ([r.w 1 + (if 211 < (x.c.pendingRoutes (r.w 0) (r.w 1)).length then 2 ^ 31 else 0)]
      ++ ((List.range (r.w 1)).map fun i => x.c.get (XPT_DST_CTL (r.w 0 + i)))
      ++ [min 211 (x.c.pendingRoutes (r.w 0) (r.w 1)).length] ++ ((x.c.pendingRoutes (r.w 0) (r.w 1)).take 211).flatten) := by
  unfold chkGetRoutes
  rw [require_pos (Req.lenIs_of hlen), require_pos (by rw [decide_eq_true hmin, decide_eq_true hmax]; exact hoffered)]

theorem chkFsyStatus_ok (hlen : r.len = 8) (hmin : 1 ≤ r.w 1) (hmax : r.w 1 ≤ 254)
    (hoffered : ((List.range (r.w 1)).all fun i => srcOffered x.c.role (r.w 0 + i)) = true) :
    chkFsyStatus x r = okPlan ((List.range (r.w 1)).flatMap fun i => [x.c.get (FSY_SRC_STAT (r.w 0 + i)), x.c.get (FSY_SRC_OFFSET (r.w 0 + i)),
      x.c.get (FSY_SRC_DELAY (r.w 0 + i)), x.c.get (FSY_SRC_CNT (r.w 0 + i))]) := by
  unfold chkFsyStatus
  rw [require_pos (Req.lenIs_of hlen), require_pos (by rw [decide_eq_true hmin, decide_eq_true hmax]; exact hoffered)]

/-- What LBS_GET_STATUS tells of channel `i`: of a record channel, or of a playback channel. -/
theorem chkLbsStatus_ok {space : Nat} (hlen : r.len = 12) (hsel : r.w 0 ≤ 1) (hmin : 1 ≤ r.w 2) (hmax : r.w 1 + r.w 2 ≤ 48) :
    chkLbsStatus x space r = okPlan (((List.range (r.w 2)).flatMap fun i =>
      if r.w 0 = 0 then [x.c.get (LBS_REC_CTL (r.w 1 + i)), x.c.get (LBS_REC_REGION (r.w 1 + i)), x.c.get (LBS_REC_DEPTH (r.w 1 + i)),
        x.c.get (LBS_REC_HIST (r.w 1 + i)), x.c.get (LBS_REC_GAPS (r.w 1 + i))]
      else [x.c.get (LBS_PB_CTL (r.w 1 + i)), x.c.get (LBS_PB_STAT (r.w 1 + i)), x.c.get (LBS_PB_CNT (r.w 1 + i))]) ++ [space]) := by
  unfold chkLbsStatus
  have hn : r.w 2 ≤ 48 := by omega
  rw [require_pos (Req.lenIs_of hlen), require_pos (by simp [hsel, hmin, hmax, hn])]

theorem chkSdiStatus_ok (hlen : r.len = 8) (hmin : 1 ≤ r.w 1) (hmax : r.w 0 + r.w 1 ≤ 48) :
    chkSdiStatus x r = okPlan ([x.c.get SDI_STATUS] ++ (List.range (r.w 1)).flatMap fun i =>
      [x.c.get (SDI_RX_STAT (r.w 0 + i)), x.c.get (SDI_RX_CRC (r.w 0 + i)), x.c.get (SDI_RX_LOCKS (r.w 0 + i)), x.c.get (SDI_RX_PID (r.w 0 + i)),
        x.c.get (SDI_RX_TC (r.w 0 + i)), x.c.get (SDI_TX_STAT (r.w 0 + i))]) := by
  unfold chkSdiStatus
  have hn : r.w 1 ≤ 48 := by omega
  rw [require_pos (Req.lenIs_of hlen), require_pos (by simp [hmin, hmax, hn])]

theorem chkFabStatus_lanes (hlen : r.len = 12) (hsel : r.w 0 = 0) (hmin : 1 ≤ r.w 2) (hmax : r.w 1 + r.w 2 ≤ 48) :
    chkFabStatus x r = okPlan ([x.c.get FAB_LN_SUMMARY] ++ (List.range (r.w 2)).flatMap fun i =>
      [x.c.get (FAB_LN_CFG (r.w 1 + i)), x.c.get (FAB_LN_STAT (r.w 1 + i)), x.c.get (FAB_LN_EQ (r.w 1 + i)), x.c.get (FAB_LN_EYE (r.w 1 + i)),
        x.c.get (FAB_LN_ERR (r.w 1 + i)), x.c.get (FAB_LN_TRAIN (r.w 1 + i)), x.c.get (FAB_LN_TEST (r.w 1 + i))]) := by
  unfold chkFabStatus
  rw [hsel, require_pos (Req.lenIs_of hlen), require_pos (by simp [hmin, hmax])]
  simp [List.flatMap_map]

theorem chkFabStatus_links (hlen : r.len = 12) (hsel : r.w 0 = 1) (hmin : 1 ≤ r.w 2) (hmax : r.w 1 + r.w 2 ≤ 48) :
    chkFabStatus x r = okPlan ([x.c.get FAB_STATUS, x.c.get FAB_CFG] ++ (List.range (r.w 2)).flatMap fun i =>
      [FAB_LK_CFG (r.w 1 + i), FAB_LK_STAT (r.w 1 + i), FAB_LK_PEER (r.w 1 + i), FAB_LK_CNT (r.w 1 + i)].map fun y =>
        if x.c.linkWidth (r.w 1 + i) = 0 then 0 else x.c.get y) := by
  unfold chkFabStatus
  rw [hsel, require_pos (Req.lenIs_of hlen), require_pos (by simp [hmin, hmax])]
  simp [List.flatMap_map, Chip.linkReg]

theorem chkFabStatus_slots (hlen : r.len = 12) (hsel : r.w 0 = 2) (hmin : 1 ≤ r.w 2) (hmax : r.w 1 + r.w 2 ≤ 192) :
    chkFabStatus x r = okPlan ((List.range (r.w 2)).flatMap fun i => [x.c.get (FAB_SLOT_CTL (r.w 1 + i)), x.c.get (FAB_SLOT_STAT (r.w 1 + i))]) := by
  unfold chkFabStatus
  rw [hsel, require_pos (Req.lenIs_of hlen), require_pos (by simp [hmin, hmax])]
  simp [List.flatMap_map]

theorem chkFabStatus_merges (hlen : r.len = 12) (hsel : r.w 0 = 3) (hmin : 1 ≤ r.w 2) (hmax : r.w 1 + r.w 2 ≤ 96) (hrole : x.c.role = 1) :
    chkFabStatus x r = okPlan ((List.range (r.w 2)).flatMap fun i => [x.c.get (FAB_MRG_CNT (r.w 1 + i)), x.c.get (FAB_MRG_DIFF (r.w 1 + i))]) := by
  unfold chkFabStatus
  rw [hsel, require_pos (Req.lenIs_of hlen), require_pos (by simp [hmin, hmax, hrole])]
  simp [List.flatMap_map]

theorem chkNetStats_ok (hlen : r.len = 4) (hport : r.w 0 < 2) :
    chkNetStats x r = okPlan ([x.c.get NET_STATUS, x.c.status (NET_PORT_STATUS (r.w 0)), x.c.get (NET_PORT_STAT (r.w 0)), x.c.get (NET_GCL_CTL (r.w 0)),
      x.c.get (NET_GCL_START (r.w 0))] ++ (List.range 19).map fun k => x.c.get (NET_CNT (r.w 0) k)) := by
  unfold chkNetStats
  rw [require_pos (Req.lenIs_of hlen), require_pos (decide_eq_true hport)]

theorem chkFlowStatus_flows (hlen : r.len = 12) (hsel : r.w 0 = 0) (hmin : 1 ≤ r.w 2) (hn : r.w 2 ≤ 64) (hmax : r.w 1 + r.w 2 ≤ 112) :
    chkFlowStatus x r = okPlan ((List.range (r.w 2)).flatMap fun i =>
      [x.c.get (NET_RXF_CTL (r.w 1 + i)), x.c.get (NET_RXF_STAT (r.w 1 + i)), x.c.get (NET_RXF_OFFSET (r.w 1 + i))]
        ++ (List.range 7).map fun k => x.c.get (NET_RXF_CNT (r.w 1 + i) k)) := by
  unfold chkFlowStatus
  rw [hsel, require_pos (Req.lenIs_of hlen)]
  exact require_pos (by simp [hmin, hn, hmax])

theorem chkFlowStatus_senders (hlen : r.len = 12) (hsel : r.w 0 = 1) (hmin : 1 ≤ r.w 2) (hmax : r.w 1 + r.w 2 ≤ 112) :
    chkFlowStatus x r = okPlan ((List.range (r.w 2)).flatMap fun i =>
      [x.c.get (NET_TXF_CTL (r.w 1 + i)), x.c.get (NET_TXF_STAT (r.w 1 + i))] ++ (List.range 4).map fun k => x.c.get (NET_TXF_CNT (r.w 1 + i) k)) := by
  unfold chkFlowStatus
  have hn : r.w 2 ≤ 112 := by omega
  rw [hsel, require_pos (Req.lenIs_of hlen)]
  exact require_pos (by simp [hmin, hn, hmax])

theorem chkFlowStatus_anchors (hlen : r.len = 12) (hsel : r.w 0 = 2) (hmax : r.w 1 < 112) (hn : r.w 2 = 0) :
    chkFlowStatus x r = okPlan ([0, 1].flatMap fun q =>
      [x.c.get (NET_ANCHOR_EPOCH q), x.c.get (NET_ANCHOR_RTP90 q), x.c.get (NET_ANCHOR_RTP48 q), x.c.get (NET_ANCHOR_CTL q)]) := by
  unfold chkFlowStatus
  rw [hsel, require_pos (Req.lenIs_of hlen)]
  exact require_pos (by simp [hn, hmax])

theorem chkAudStatus_engine (hlen : r.len = 4) (hsel : r.w 0 = 0) :
    chkAudStatus x r = okPlan [x.c.get AUD_STATUS, x.c.get AUD_CFG, x.c.get AUD_STATE_CRC_LO, x.c.get AUD_STATE_CRC_HI, x.c.get AUD_BRIDGE_RATIO,
      x.c.get AUD_BRIDGE_USE] := by
  unfold chkAudStatus
  rw [hsel]
  exact require_pos (Req.lenIs_of hlen)

theorem chkAudStatus_mixes (hlen : r.len = 12) (hsel : r.w 0 = 1) (hmin : 1 ≤ r.w 2) (hn : r.w 2 ≤ 510) (hmax : r.w 1 + r.w 2 ≤ 512) :
    chkAudStatus x r = okPlan ((List.range (r.w 2)).flatMap fun i => [x.c.get (AUD_MIXOUT_CTL (r.w 1 + i)), x.c.get (AUD_MIXOUT_STAT (r.w 1 + i))]) := by
  unfold chkAudStatus
  rw [hsel]
  exact (require_pos (Req.lenIs_of hlen)).trans (require_pos (by simp [hmin, hn, hmax]))

theorem chkAudStatus_gains (hlen : r.len = 16) (hsel : r.w 0 = 2) (hmix : r.w 1 < 512) (hmin : 1 ≤ r.w 3) (hmax : r.w 2 + r.w 3 ≤ 512) :
    chkAudStatus x r = okPlan ((List.range (r.w 3)).map fun i => argI (x.c.coef (r.w 1 * 512 + r.w 2 + i)).current) := by
  unfold chkAudStatus
  have hn : r.w 3 ≤ 512 := by omega
  rw [hsel]
  exact (require_pos (Req.lenIs_of hlen)).trans (require_pos (by simp [hmin, hn, hmax, hmix]))

theorem chkAudStatus_shuffle (hlen : r.len = 12) (hsel : r.w 0 = 3) (hmin : 1 ≤ r.w 2) (hn : r.w 2 ≤ 1000) (hmax : r.w 1 + r.w 2 ≤ 8192) :
    chkAudStatus x r = okPlan ((List.range (r.w 2)).map fun i => x.c.get (AUD_SHUF (r.w 1 + i))) := by
  unfold chkAudStatus
  rw [hsel]
  exact (require_pos (Req.lenIs_of hlen)).trans (require_pos (by simp [hmin, hn, hmax]))

theorem chkSapStatus_ok (hlen : r.len = 8) (hmin : 1 ≤ r.w 1) (hmax : r.w 0 + r.w 1 ≤ 16) :
    chkSapStatus x r = okPlan ([x.c.get SAP_STATUS, x.c.get SAP_CFG, x.c.get SAP_GROUP_LAT, x.c.get SAP_MCLK_FREQ] ++ (List.range (r.w 1)).flatMap fun i =>
      [x.c.get (SAP_PORT_CTL (r.w 0 + i)), x.c.get (SAP_PORT_STAT (r.w 0 + i)), x.c.get (SAP_PORT_RATIO (r.w 0 + i)), x.c.get (SAP_PORT_RX_REP (r.w 0 + i)),
        x.c.get (SAP_PORT_RX_DISC (r.w 0 + i)), x.c.get (SAP_PORT_TX_REP (r.w 0 + i)), x.c.get (SAP_PORT_TX_DISC (r.w 0 + i))]) := by
  unfold chkSapStatus
  have hn : r.w 1 ≤ 16 := by omega
  rw [require_pos (Req.lenIs_of hlen), require_pos (by simp [hmin, hn, hmax])]

theorem chkMvcStatus_all (hlen : r.len = 4) (hsel : r.w 0 = 0) :
    chkMvcStatus x r = okPlan ([x.c.get MVC_STATUS, min 64 x.c.tileUse.1 + min 64 x.c.tileUse.2 * 2 ^ 16] ++ (List.range 4).flatMap fun h =>
      [x.c.get (MVC_HEAD_CTL h), x.c.get (MVC_HEAD_STAT h), x.c.get (MVC_HEAD_BG h), x.c.get (MVC_HEAD_SLATE h), x.c.get (MVC_HEAD_LATE h)]) := by
  unfold chkMvcStatus
  rw [hsel]
  exact require_pos (Req.lenIs_of hlen)

theorem chkMvcStatus_head (hlen : r.len = 8) (hsel : r.w 0 = 1) (hhead : r.w 1 < 4) :
    chkMvcStatus x r = okPlan (((List.range 16).flatMap fun v =>
      [x.c.get (MVC_VL_CTL (r.w 1) v), x.c.get (MVC_VL_POS (r.w 1) v), x.c.get (MVC_VL_SIZE (r.w 1) v), x.c.get (MVC_VL_STAT (r.w 1) v)])
      ++ (List.range 4).flatMap fun l =>
      [x.c.get (MVC_GL_CTL (r.w 1) l), x.c.get (MVC_GL_POS (r.w 1) l), x.c.get (MVC_GL_SIZE (r.w 1) l), x.c.get (MVC_GL_FENCE (r.w 1) l)]) := by
  unfold chkMvcStatus
  rw [hsel]
  exact (require_pos (Req.lenIs_of hlen)).trans (require_pos (decide_eq_true hhead))

theorem chkMvcStatus_taps (hlen : r.len = 12) (hsel : r.w 0 = 2) (hmin : 1 ≤ r.w 2) (hmax : r.w 1 + r.w 2 ≤ 64) :
    chkMvcStatus x r = okPlan ((List.range (r.w 2)).map fun i => x.c.get (MVC_TAP (r.w 1 + i))) := by
  unfold chkMvcStatus
  have hn : r.w 2 ≤ 64 := by omega
  rw [hsel]
  exact (require_pos (Req.lenIs_of hlen)).trans (require_pos (by simp [hmin, hn, hmax]))

theorem chkTwnStatus_all (hlen : r.len = 4) (hsel : r.w 0 = 0) :
    chkTwnStatus x r = okPlan ([TWN_STATUS, TWN_INT_EN, TWN_CFG, TWN_STATE, TWN_PEER, TWN_DIAG, TWN_FWD_SEQ, TWN_COUNTS, TWN_MATCH 0, TWN_MATCH 1,
        TWN_CMP_EPOCH 0, TWN_CMP_EPOCH 1, TWN_CONFIG_SEQ 0, TWN_CONFIG_SEQ 1].map x.c.get
      ++ ([0, 1].flatMap fun q => (List.range 8).map fun w => x.c.get (TWN_CREMA q w)) ++ ((List.range 5).map fun k => x.c.get (TWN_DIV_CNT k))
      ++ [x.c.get TWN_DIV_EPOCH, x.c.get TWN_DIV_INFO]) := by
  unfold chkTwnStatus
  rw [hsel]
  exact require_pos (Req.lenIs_of hlen)

theorem chkTwnStatus_history (hlen : r.len = 12) (hsel : r.w 0 = 1) (hplane : r.w 1 < 2) (hmin : 1 ≤ r.w 2) (hmax : r.w 2 ≤ 64) :
    chkTwnStatus x r = okPlan (((x.c.twn.history.filter fun e => e.1 == r.w 1).take (r.w 2)).flatMap fun e =>
      [e.2.1, e.2.2.1, e.2.2.2.getD 0 0, e.2.2.2.getD 1 0]) := by
  unfold chkTwnStatus
  rw [hsel]
  exact (require_pos (Req.lenIs_of hlen)).trans (require_pos (by simp [hplane, hmin, hmax]))

theorem chkAttest_certificate (hlen : r.len = 4) (hsel : r.w 0 = 1) :
    chkAttest x r = okPlan (min Config.certLength 4000
      :: (List.range ((min Config.certLength 4000 + 3) / 4)).map fun i => Config.certWord i % 2 ^ 32) := by
  have hhead : r.payload.head? = some 1 := by
    rw [Req.w] at hsel
    cases hp : r.payload with
    | nil => rw [hp] at hsel; exact absurd hsel (by decide)
    | cons w ws => rw [hp] at hsel; exact congrArg some hsel
  unfold chkAttest
  rw [hhead]
  exact require_pos (Req.lenIs_of hlen)

end

/-- Settles O29: the checks of each query pass, and its plan is to answer what it reads. -/
theorem selectedQueries : Obligations.SelectedQueries := by
  unfold Obligations.SelectedQueries
  refine ⟨?_, ?_, ?_, ?_, ?_, ?_, ?_, ?_, ?_, ?_, ?_, ?_, ?_⟩
  · rintro s t ch r c hc h hlen
    refine State.query_answered hc h rfl (by decide) ((chkUpdStatus_ok hlen).trans ?_)
    have hhealth : ((c.trimmed ch).wr UPD_HEALTH_REMAIN_S c.healthLeft).get UPD_HEALTH = (c.wr UPD_HEALTH_REMAIN_S c.healthLeft).get UPD_HEALTH :=
      Chip.get_wr_of_regs (show (c.trimmed ch).regs = c.regs from rfl) _ _ _
    exact congrArg (fun v => okPlan ([SEC_STATUS, UPD_STATE].map c.get ++ [v]
      ++ [UPD_DL_BYTES, UPD_SCHEMA, SEC_BOOT, UPD_BANK_VER 0, UPD_BANK_VER 1, UPD_BANK_STAT 0, UPD_BANK_STAT 1].map c.get
      ++ (List.range 6).map fun k => c.get (SEC_OTP_CTR k))) hhealth
  · rintro s t ch r es c hc h hlen hport hmin hmax hes
    exact State.query_answered hc h rfl (by decide) (chkPtpRecords_ok hlen hport hmin hmax hes)
  · rintro s t ch r c hc h hlen hmin hmax hoffered
    exact State.query_answered hc h rfl (by decide) (chkGetRoutes_ok hlen hmin hmax hoffered)
  · rintro s t ch r c hc h hlen hmin hmax hoffered
    exact State.query_answered hc h rfl (by decide) (chkFsyStatus_ok hlen hmin hmax hoffered)
  · rintro s t ch r c hc h hlen hsel hmin hmax
    refine State.query_answered hc h rfl (by decide) ((chkLbsStatus_ok hlen (by omega) hmin hmax).trans ?_)
    simp only [if_neg (show ¬r.w 0 = 0 by omega)]
    rfl
  · rintro s t ch r c hc h hlen hmin hmax
    exact State.query_answered hc h rfl (by decide) (chkSdiStatus_ok hlen hmin hmax)
  · rintro s t ch r c hc h hlen hsel hmin hmax
    exact State.query_answered hc h rfl (by decide) (chkFabStatus_links hlen hsel hmin hmax)
  · rintro s t ch r c hc h hlen hport
    exact State.query_answered hc h rfl (by decide) (chkNetStats_ok hlen hport)
  · rintro s t ch r c hc h hlen hsel hmin hmax
    exact State.query_answered hc h rfl (by decide) (chkFlowStatus_senders hlen hsel hmin hmax)
  · rintro s t ch r c hc h hlen hsel
    exact State.query_answered hc h rfl (by decide) (chkAudStatus_engine hlen hsel)
  · rintro s t ch r c hc h hlen hmin hmax
    exact State.query_answered hc h rfl (by decide) (chkSapStatus_ok hlen hmin hmax)
  · rintro s t ch r c hc h hlen hsel hmin hmax
    exact State.query_answered hc h rfl (by decide) (chkMvcStatus_taps hlen hsel hmin hmax)
  · rintro s t ch r c hc h hlen hsel hplane hmin hmax
    exact State.query_answered hc h rfl (by decide) (chkTwnStatus_history hlen hsel hplane hmin hmax)

/-- Settles O30: the same of the other selectors; the certificate is the one that the part is built with. -/
theorem selectorQueries : Obligations.SelectorQueries := by
  unfold Obligations.SelectorQueries
  refine ⟨?_, ?_, ?_, ?_, ?_, ?_, ?_, ?_, ?_, ?_, ?_, ?_, ?_⟩
  · rintro s t ch r c hc h hlen hsel hmin hmax
    refine State.query_answered hc h rfl (by decide) ((chkLbsStatus_ok hlen (by omega) hmin hmax).trans ?_)
    simp only [if_pos hsel]
    rfl
  · rintro s t ch r c hc h hlen hsel hmin hmax
    exact State.query_answered hc h rfl (by decide) (chkFabStatus_lanes hlen hsel hmin hmax)
  · rintro s t ch r c hc h hlen hsel hmin hmax
    exact State.query_answered hc h rfl (by decide) (chkFabStatus_slots hlen hsel hmin hmax)
  · rintro s t ch r c hc h hlen hsel hmin hmax hrole
    exact State.query_answered hc h rfl (by decide) (chkFabStatus_merges hlen hsel hmin hmax hrole)
  · rintro s t ch r c hc h hlen hsel hmin hn hmax
    exact State.query_answered hc h rfl (by decide) (chkFlowStatus_flows hlen hsel hmin hn hmax)
  · rintro s t ch r c hc h hlen hsel hmax hn
    exact State.query_answered hc h rfl (by decide) (chkFlowStatus_anchors hlen hsel hmax hn)
  · rintro s t ch r c hc h hlen hsel hmin hn hmax
    exact State.query_answered hc h rfl (by decide) (chkAudStatus_mixes hlen hsel hmin hn hmax)
  · rintro s t ch r c hc h hlen hsel hmix hmin hmax
    exact State.query_answered hc h rfl (by decide) (chkAudStatus_gains hlen hsel hmix hmin hmax)
  · rintro s t ch r c hc h hlen hsel hmin hn hmax
    exact State.query_answered hc h rfl (by decide) (chkAudStatus_shuffle hlen hsel hmin hn hmax)
  · rintro s t ch r c hc h hlen hsel
    exact State.query_answered hc h rfl (by decide) (chkMvcStatus_all hlen hsel)
  · rintro s t ch r c hc h hlen hsel hhead
    exact State.query_answered hc h rfl (by decide) (chkMvcStatus_head hlen hsel hhead)
  · rintro s t ch r c hc h hlen hsel
    exact State.query_answered hc h rfl (by decide) (chkTwnStatus_all hlen hsel)
  · rintro s t ch r c hc h hlen hsel
    exact State.query_answered hc h rfl (by decide) (chkAttest_certificate hlen hsel)

end Sys2Proof.Machine
end

section
/-! SUPPORT. The ends of requests that wait (R90, R114, R143, R621, R622, R631). -/

namespace Sys2Proof.Machine

section
variable {c : Chip} {ch : Nat} {w : Wait} {l : Long}

theorem Chip.serves_of_ready (h : c.ready = true) (ch : Nat) : c.serves ch = true := by rw [Chip.serves, h]; rfl

theorem Chip.waiting_chan (h : c.waiting ch = some w) : w.req.chan = ch := by
  simpa using List.find?_some h

theorem Chip.relayTimeout_of (hw : c.waiting ch = some w) (hready : c.ready = true) (hpeer : w.peer = true) (hsince : w.since + ms 10 ≤ c.now) :
    c.relayTimeout ch = c.respond w.req ⟨stNoResource, 0, 0, []⟩ false := by
  rw [Chip.relayTimeout, hw]
  exact if_pos (by simp [hpeer, hsince, Chip.serves_of_ready hready])

theorem Chip.journalTimeout_of (hw : c.waiting ch = some w) (hready : c.ready = true) (hjournal : w.journal = true) (hsince : w.since + ms 100 ≤ c.now) :
    c.journalTimeout ch = c.respond w.req ⟨stNoResource, 0, 0, []⟩ false := by
  rw [Chip.journalTimeout, hw]
  exact if_pos (by simp [hjournal, hsince, Chip.serves_of_ready hready])

/-- A long request whose operation ends, with nothing more to wait for or do, is answered. -/
theorem Chip.longEnd_of {f : Chip → Wait → Chip × Resp} (hw : c.waiting ch = some w) (hready : c.ready = true) (hlong : w.long = some l)
    (hjournal : w.journal = false) (hack : w.ack = none) (hpeer : w.peer = false) (hhand : w.hand = false) (hafter : w.plan.after = .none) :
    c.longEnd ch l f = (f c w).1.respond w.req (f c w).2 w.taken := by
  rw [Chip.longEnd, hw]
  refine (if_pos (by simp [hlong, Chip.serves_of_ready hready])).trans ?_
  refine (if_neg (by simp [hjournal, hack, hpeer, hhand])).trans ?_
  simp [hafter, Chip.follow]

theorem Chip.domainsDone_of (hw : c.waiting ch = some w) (hready : c.ready = true) (hlong : w.long = some .domains)
    (hjournal : w.journal = false) (hack : w.ack = none) (hpeer : w.peer = false) (hhand : w.hand = false) (hafter : w.plan.after = .none)
    (hdone : ∀ n ∈ w.plan.nows.map Change.idx, c.dom n = c.rd (PWR_DOM_CTL_REQ n) ∧ c.on (PWR_DOM_CTL_BUSY n) = false) :
    c.domainsDone ch = c.respond w.req ⟨stOK, 0, 0, (w.plan.nows.map Change.idx).map fun n => c.get (PWR_DOM_CTL n)⟩ w.taken := by
  have hall : ((w.plan.nows.map Change.idx).all fun n => c.dom n == c.rd (PWR_DOM_CTL_REQ n) && !(c.on (PWR_DOM_CTL_BUSY n))) = true :=
    List.all_eq_true.2 fun n hn => by simp [hdone n hn]
  rw [Chip.domainsDone, hw]
  exact (if_pos hall).trans (Chip.longEnd_of hw hready hlong hjournal hack hpeer hhand hafter)

/-- A row that ends in an answer. -/
theorem State.run_answered {s : State} {t : Nat} {c : Chip} (f : Chip → Chip) {d : Chip} {r : Req} {x : Resp} {taken : Bool} (hc : c = s.chipAt t)
    (hi : s.Inv) (h : f c = d.respond r x taken) :
    s.run t f = .next (s.commit (d.respond r x taken)) ∧ (s.commit (d.respond r x taken)).answered r x :=
  ⟨by rw [State.run, ← hc, h], State.answered_commit (Chip.respond_answered ..) hi.1⟩

end

/-! ### The ends of a download and of a verification -/

/-- What a register reads after a response, outside the mailbox block. -/
theorem Chip.rd_respond (c : Chip) (r : Req) (x : Resp) (taken : Bool) {f : Fld} (h : (MBX_CH_STAT r.chan).off ≠ f.off) :
    (c.respond r x taken).rd f = c.rd f := Chip.rd_reply_other c r.chan r.head x h

theorem Chip.on_respond (c : Chip) (r : Req) (x : Resp) (taken : Bool) {f : Fld} (h : (MBX_CH_STAT r.chan).off ≠ f.off) :
    (c.respond r x taken).on f = c.on f := Chip.on_reply_other c r.chan r.head x h

@[simp] theorem Chip.respond_upd (c : Chip) (r : Req) (x : Resp) (taken : Bool) : (c.respond r x taken).upd = c.upd := Chip.reply_upd ..

theorem Chip.get_respond (c : Chip) (r : Req) (x : Resp) (taken : Bool) {g : Reg} (h : (MBX_CH_STAT r.chan).off ≠ g.off) :
    (c.respond r x taken).get g = c.get g := Chip.get_reply_other c r.chan r.head x h

/-- The mailbox block ends below the registers of updates. -/
theorem MBX_CH_STAT_ne_of_upd {ch : Nat} (h : ch < 16) {o : Nat} (ho : 0x800000 ≤ o) : (MBX_CH_STAT ch).off ≠ o := by
  rw [MBX_CH_STAT_off]
  omega

/-- What is kept of a download that has ended: its bytes in flash, below them the response. -/
theorem State.read_download (s : State) (d : Chip) (ops : List MemOp) (a i : Nat) (bs : List Nat) (r : Req) (x : Resp) (taken : Bool)
    (hout : d.out = ops ++ [.bytes a bs]) (hwf : s.mem.wf = true) (hi : i < bs.length) (hch : r.chan < 16) (hx : x.payload = [])
    (ha : flashBase ≤ a) : (s.commit (d.respond r x taken)).mem.read (a + i) = BitVec.ofNat 8 (bs.getD i 0) := by
  have hlen : (x.words r.head).length = 4 := by rw [Resp.words_length, hx]; rfl
  have hbuf : respBuf r.chan + 4 * 4 ≤ a + i := by
    have hflash : flashBase = 0x50000000 := rfl
    have hresp : respBuf r.chan = 0x1001000 + 0x2000 * r.chan := rfl
    omega
  have hmem := Memory.applyAll_wf s.mem (ops ++ [MemOp.bytes a bs]) hwf
  rw [State.commit_mem, Chip.respond_out, hout, List.foldl_append, List.foldl_cons, List.foldl_nil,
    Memory.read_apply_words_other _ _ _ _ hmem (.inr (by rw [hlen]; exact hbuf)), List.foldl_append, List.foldl_cons, List.foldl_nil, Memory.apply,
    Memory.read_writeBytes_same _ a i _ (Memory.applyAll_wf s.mem ops hwf) (by rw [List.length_map]; exact hi), List.getElem_map,
    List.getD_eq_getElem _ _ hi]

theorem Chip.inactive_lt (c : Chip) : c.inactive < 2 := by unfold Chip.inactive; omega

/-- The chip that has looked at the package of a bank: its verification is over, and the bank shows what is in it. -/
def Chip.examined (c : Chip) (p : Package) : Chip :=
  ((c.clr UPD_STATE_BUSY).setUpd { (c.clr UPD_STATE_BUSY).upd with pkgs := putAt 2 none (c.clr UPD_STATE_BUSY).upd.pkgs c.inactive (some p) }).bankShow
    c.inactive

section
variable (c : Chip) (p : Package)

theorem Chip.bankShow_upd (b : Nat) : (c.bankShow b).upd = c.upd := by simp [Chip.bankShow, Chip.wrB]

theorem Chip.examined_upd : (c.examined p).upd = { c.upd with pkgs := putAt 2 none c.upd.pkgs c.inactive (some p) } := by
  rw [Chip.examined, Chip.bankShow_upd]
  simp [Chip.clr_def]

theorem Chip.examined_pkg : (c.examined p).pkg c.inactive = some p := by
  rw [Chip.pkg, Chip.examined_upd, getD_putAt, if_pos c.inactive_lt, if_pos rfl]

theorem Chip.cell_examined {o : Nat} (hstate : UPD_STATE.off ≠ o) (hver : (UPD_BANK_VER c.inactive).off ≠ o) (hstat : (UPD_BANK_STAT c.inactive).off ≠ o) :
    (c.examined p).cell o = c.cell o := by
  unfold Chip.examined Chip.bankShow
  rw [Chip.wrB, Chip.cell_wr_other _ _ _ _ hstat, Chip.cell_put_other _ _ _ _ hver, Chip.cell_of_regs (Chip.setUpd_regs _ _), Chip.clr_def,
    Chip.cell_wr_other _ _ _ _ hstate]

/-- The registers of the banks are those of two banks. -/
theorem Chip.inactive_regs : ((UPD_BANK_VER c.inactive).off = 0x800020 ∧ (UPD_BANK_STAT c.inactive).off = 0x800024)
    ∨ ((UPD_BANK_VER c.inactive).off = 0x800030 ∧ (UPD_BANK_STAT c.inactive).off = 0x800034) := by
  have hver : (UPD_BANK_VER c.inactive).off = 0x800020 + 16 * c.inactive := rfl
  have hstat : (UPD_BANK_STAT c.inactive).off = 0x800024 + 16 * c.inactive := rfl
  have := c.inactive_lt
  omega

theorem Chip.on_examined_busy : (c.examined p).on UPD_STATE_BUSY = false := by
  unfold Chip.examined Chip.bankShow
  have hoff : UPD_STATE_BUSY.off = 0x800008 := rfl
  have := c.inactive_regs
  rw [Chip.on_wrB_keeps _ _ (Fld.apart_of_off (by change (UPD_BANK_STAT _).off ≠ _; omega)), Chip.on_put_other _ _ _ _ (by omega)]
  exact (Chip.on_of_cell (Chip.cell_of_regs (Chip.setUpd_regs _ _) _)).trans (Chip.on_clr_same _ rfl)

theorem Chip.on_examined_verified : (c.examined p).on (UPD_BANK_STAT_VERIFIED c.inactive) = c.on (UPD_BANK_STAT_VERIFIED c.inactive) := by
  unfold Chip.examined Chip.bankShow
  have hoff : (UPD_BANK_STAT_VERIFIED c.inactive).off = (UPD_BANK_STAT c.inactive).off := rfl
  have hstate : UPD_STATE_BUSY.off = 0x800008 := rfl
  have := c.inactive_regs
  rw [Chip.on_wrB_keeps _ _ (by exact Fld.apart_of_clear rfl rfl), Chip.on_put_other _ _ _ _ (by omega),
    Chip.on_of_cell (Chip.cell_of_regs (Chip.setUpd_regs _ _) _), Chip.on_clr_keeps _ (Fld.apart_of_off (by omega))]

/-- What a verification finds does not depend on what the banks show. -/
theorem Chip.verifyFails_congr {c d : Chip} (hbytes : d.get UPD_DL_BYTES = c.get UPD_DL_BYTES) (htotal : d.upd.total = c.upd.total)
    (hctr : ∀ k, d.rd (SEC_OTP_CTR_VALUE k) = c.rd (SEC_OTP_CTR_VALUE k)) (p : Package) : d.verifyFails p = c.verifyFails p := by
  have hsvn : d.svnOk p = c.svnOk p := funext fun k => by rw [Chip.svnOk, hctr]; rfl
  unfold Chip.verifyFails
  rw [hbytes, htotal, hsvn]

theorem Chip.verifyFails_examined : (c.examined p).verifyFails p = c.verifyFails p := by
  have hregs := c.inactive_regs
  have hstate : UPD_STATE.off = 0x800008 := rfl
  refine Chip.verifyFails_congr (Chip.get_of_cell (c.cell_examined p ?_ ?_ ?_)) (by rw [Chip.examined_upd])
    (fun k => Chip.rd_of_cell (c.cell_examined p ?_ ?_ ?_)) p
  case refine_1 | refine_2 | refine_3 =>
    have hoff : UPD_DL_BYTES.off = 0x800010 := rfl
    omega
  case refine_4 | refine_5 | refine_6 =>
    have hoff : (SEC_OTP_CTR_VALUE k).off = 0x800100 + 4 * k := rfl
    omega

theorem Chip.verifyEnd_eq : c.verifyEnd p = match c.verifyFails p with
    | some why => (c.examined p, ⟨stUpdateRefused, 0, 0, why⟩)
    | none => ((c.examined p).set (UPD_BANK_STAT_VERIFIED c.inactive), ⟨stOK, 0, 0, []⟩) := by
  rw [← Chip.verifyFails_examined]
  rfl

end

/-- Settles O26: each row ends the request that waits, and the response is the last that it writes. -/
theorem waitingRequestsEnd : Obligations.WaitingRequestsEnd := by
  unfold Obligations.WaitingRequestsEnd
  refine ⟨⟨?_, ?_, ?_⟩, ?_, ?_, ?_, ?_, ?_⟩
  · rintro s t ch w c hc hi hready hw hpeer hsince
    obtain ⟨hrow, h⟩ := State.run_answered (fun c => c.relayTimeout ch.val) hc hi (Chip.relayTimeout_of hw hready hpeer hsince)
    exact ⟨_, hrow, h⟩
  · rintro s t ch w c hc hi hready hw hjournal hsince
    obtain ⟨hrow, h⟩ := State.run_answered (fun c => c.journalTimeout ch.val) hc hi (Chip.journalTimeout_of hw hready hjournal hsince)
    exact ⟨_, hrow, h⟩
  · rintro s t ch w ns c hc hi hready hw hlong hjournal hack hpeer hhand hafter rfl - hdone
    obtain ⟨hrow, h⟩ := State.run_answered (fun c => c.domainsDone ch.val) hc hi (Chip.domainsDone_of hw hready hlong hjournal hack hpeer hhand hafter hdone)
    exact ⟨_, hrow, h⟩
  · rintro s t ch bs w c hc hi hready hw hlong hjournal hack hpeer hhand hafter hmax hbs
    have hend := Chip.longEnd_of (f := fun c w => c.downloadEnd w.req (some bs)) hw hready hlong hjournal hack hpeer hhand hafter
    obtain ⟨hrow, h⟩ := State.run_answered (fun c => c.longEnd ch.val .download fun c w => c.downloadEnd w.req (some bs)) hc hi hend
    have hch : w.req.chan < 16 := by rw [Chip.waiting_chan hw]; exact ch.isLt
    refine ⟨_, hrow, h, ?_, ?_, ?_⟩
    · rw [State.commit_on, Chip.on_respond _ _ _ _ (MBX_CH_STAT_ne_of_upd hch (by decide))]
      exact (Chip.on_put_other _ _ _ _ (by decide)).trans (Chip.on_clr_same _ rfl)
    · rw [State.commit_get, Chip.get_respond _ _ _ _ (MBX_CH_STAT_ne_of_upd hch (by decide))]
      exact (Chip.get_put_same _ _ _).trans (Nat.mod_eq_of_lt (by omega))
    · refine List.all_eq_true.2 fun i hmem => beq_iff_eq.2 ?_
      have hflash : flashBase ≤ flashBase + c.inactive * 2 ^ 26 + w.req.w 1 := by omega
      have htake : bs.take (w.req.w 5) = bs := List.take_of_length_le (by omega)
      refine State.read_download s _ c.out _ i bs w.req _ w.taken ?_ hi.1 (List.mem_range.1 hmem) hch rfl hflash
      simp [Chip.downloadEnd, Chip.clr_def, htake, Chip.inactive, Chip.updRec]
  · rintro s t ch w c hc hi hready hw hlong hjournal hack hpeer hhand hafter
    have hend := Chip.longEnd_of (f := fun c w => c.downloadEnd w.req none) hw hready hlong hjournal hack hpeer hhand hafter
    obtain ⟨hrow, h⟩ := State.run_answered (fun c => c.longEnd ch.val .download fun c w => c.downloadEnd w.req none) hc hi hend
    have hch : w.req.chan < 16 := by rw [Chip.waiting_chan hw]; exact ch.isLt
    refine ⟨_, hrow, h, ?_, ?_⟩
    · rw [State.commit_on, Chip.on_respond _ _ _ _ (MBX_CH_STAT_ne_of_upd hch (by decide))]
      exact Chip.on_clr_same _ rfl
    · rw [State.commit_upd, Chip.respond_upd]
      rfl
  · rintro s t ch p w c hc hi hready hw hlong hjournal hack hpeer hhand hafter - hok
    have hend := Chip.longEnd_of (f := fun c _ => c.verifyEnd p) hw hready hlong hjournal hack hpeer hhand hafter
    rw [Chip.verifyEnd_eq, hok] at hend
    obtain ⟨hrow, h⟩ := State.run_answered (fun c => c.longEnd ch.val .verify fun c _ => c.verifyEnd p) hc hi hend
    have hch : w.req.chan < 16 := by rw [Chip.waiting_chan hw]; exact ch.isLt
    have hstat : (UPD_BANK_STAT_VERIFIED c.inactive).off = (UPD_BANK_STAT c.inactive).off := rfl
    have hregs := c.inactive_regs
    refine ⟨_, hrow, h, ?_, ?_, ?_⟩
    · rw [State.commit_on, Chip.on_respond _ _ _ _ (MBX_CH_STAT_ne_of_upd hch (by decide)), Chip.on_set_keeps _ (Fld.apart_of_off ?_)]
      · exact Chip.on_examined_busy c p
      · have hbusy : UPD_STATE_BUSY.off = 0x800008 := rfl
        omega
    · rw [State.commit_on, Chip.on_respond _ _ _ _ (MBX_CH_STAT_ne_of_upd hch (by omega))]
      exact Chip.on_set_same _ rfl Nat.one_ne_zero
    · rw [Chip.pkg, State.commit_upd, Chip.respond_upd, Chip.set_def, Chip.wr_upd]
      exact Chip.examined_pkg c p
  · rintro s t ch p w why c hc hi hready hw hlong hjournal hack hpeer hhand hafter hbad
    have hend := Chip.longEnd_of (f := fun c _ => c.verifyEnd p) hw hready hlong hjournal hack hpeer hhand hafter
    rw [Chip.verifyEnd_eq, hbad] at hend
    obtain ⟨hrow, h⟩ := State.run_answered (fun c => c.longEnd ch.val .verify fun c _ => c.verifyEnd p) hc hi hend
    have hch : w.req.chan < 16 := by rw [Chip.waiting_chan hw]; exact ch.isLt
    have hstat : (UPD_BANK_STAT_VERIFIED c.inactive).off = (UPD_BANK_STAT c.inactive).off := rfl
    have hregs := c.inactive_regs
    refine ⟨_, hrow, h, ?_, ?_⟩
    · rw [State.commit_on, Chip.on_respond _ _ _ _ (MBX_CH_STAT_ne_of_upd hch (by decide))]
      exact Chip.on_examined_busy c p
    · rw [State.commit_on, Chip.on_respond _ _ _ _ (MBX_CH_STAT_ne_of_upd hch (by omega))]
      exact Chip.on_examined_verified c p
  · rintro s t ch w c hc hi hready hw hlong hjournal hack hpeer hhand hafter
    have hend := Chip.longEnd_of (f := fun c w => (c, ⟨stOK, 0, 0, c.report (w.req.ws 1 8)⟩)) hw hready hlong hjournal hack hpeer hhand hafter
    obtain ⟨hrow, h⟩ := State.run_answered (fun c => c.longEnd ch.val .attest fun c w => (c, ⟨stOK, 0, 0, c.report (w.req.ws 1 8)⟩)) hc hi hend
    exact ⟨_, hrow, h⟩

end Sys2Proof.Machine
end

section
/-! SUPPORT. Reading a register that a bounded change leaves, and the states of a memory channel (chapter 08). -/

namespace Sys2Proof.Machine

/-! ### What a change within pages leaves -/

section
variable {P : List Nat} {T : List Part} {c d : Chip}

theorem Chip.Within.rd (h : Chip.Within P T c d) {f : Fld} (hf : f.off / 65536 ∉ P) : d.rd f = c.rd f := Chip.rd_of_cell (h.cell _ hf)
theorem Chip.Within.on (h : Chip.Within P T c d) {f : Fld} (hf : f.off / 65536 ∉ P) : d.on f = c.on f := Chip.on_of_cell (h.cell _ hf)
theorem Chip.Within.get (h : Chip.Within P T c d) {r : Reg} (hr : r.off / 65536 ∉ P) : d.get r = c.get r := Chip.get_of_cell (h.cell _ hr)
end

/-- What a change keeps, it keeps under a condition. -/
theorem Chip.when_keeps {β : Type} (view : Chip → β) (c : Chip) (b : Bool) {k : Chip → Chip} (h : view (k c) = view c) : view (c.when b k) = view c := by
  cases b
  · rfl
  · exact h

theorem Chip.rd_wr_lt {c : Chip} {f : Fld} {v : Nat} (h : f.fits = true) (hv : v < 2 ^ f.w) : (c.wr f v).rd f = v :=
  (c.rd_wr_fits v h).trans (Nat.mod_eq_of_lt hv)

/-- The registers of a memory channel stand on page 20. -/
theorem dmc_page {n o : Nat} (hn : n < 8) (hlo : 0x141000 + 4096 * n ≤ o) (hhi : o < 0x142000 + 4096 * n) : o / 65536 = 20 := by omega

/-! ### The summary of the channels -/

section
variable (c : Chip) (n st cause v : Nat) {f : Fld}

/-- The field is none of DMC_LAYOUT and not DRAM_DOWN. -/
def Fld.notDmcSummary (f : Fld) : Bool := f.off != DMC_LAYOUT.off && DMC_STATUS_DRAM_DOWN.apart f

theorem Chip.rd_dmcRefresh (h : f.notDmcSummary = true) : c.dmcRefresh.rd f = c.rd f := by
  simp only [Fld.notDmcSummary, Bool.and_eq_true, bne_iff_ne] at h
  obtain ⟨hlayout, hdown⟩ := h
  have hoff : ∀ g : Fld, g.off = DMC_LAYOUT.off → g.apart f = true := fun g hg => Fld.apart_of_off (hg ▸ hlayout.symm)
  unfold Chip.dmcRefresh
  dsimp only
  rw [Chip.rd_wrB_keeps _ _ hdown, Chip.rd_wr_keeps _ _ (hoff _ rfl), Chip.rd_wr_keeps _ _ (hoff _ rfl), Chip.rd_wr_keeps _ _ (hoff _ rfl)]
  rfl

theorem Chip.on_dmcRefresh (h : f.notDmcSummary = true) : c.dmcRefresh.on f = c.on f := congrArg (· != 0) (c.rd_dmcRefresh h)

/-- A field of the registers of a channel is none of the summary. -/
theorem notDmcSummary_of_chan (h : 0x141000 ≤ f.off) : f.notDmcSummary = true := by
  have hl : DMC_LAYOUT.off = 0x140008 := rfl
  have hs : DMC_STATUS_DRAM_DOWN.off = 0x140000 := rfl
  simp only [Fld.notDmcSummary, Bool.and_eq_true, bne_iff_ne]
  exact ⟨by omega, Fld.apart_of_off (by omega)⟩

theorem DMC_CH_STAT_off : (DMC_CH_STAT n).off = 0x141000 + 4096 * n := rfl

theorem Chip.chState_chEnter_same (hst : st < 8) : (c.chEnter n st cause).chState n = st := by
  unfold Chip.chEnter Chip.chState
  have hoff : (DMC_CH_STAT_STATE n).off = 0x141000 + 4096 * n := rfl
  rw [Chip.rd_dmcRefresh _ (notDmcSummary_of_chan (by omega)), Chip.rd_wr_keeps _ _ (by exact Fld.apart_of_clear rfl rfl)]
  exact Chip.rd_wr_lt rfl hst

theorem Chip.rd_chEnter_cause : (c.chEnter n st cause).rd (DMC_CH_STAT_CAUSE n) = cause % 2 ^ (DMC_CH_STAT_CAUSE n).w := by
  unfold Chip.chEnter
  have hoff : (DMC_CH_STAT_CAUSE n).off = 0x141000 + 4096 * n := rfl
  rw [Chip.rd_dmcRefresh _ (notDmcSummary_of_chan (by omega))]
  exact Chip.rd_wr_fits _ _ rfl

theorem Chip.rd_chEnter_other (hf : (DMC_CH_STAT n).off ≠ f.off) (h : f.notDmcSummary = true) : (c.chEnter n st cause).rd f = c.rd f := by
  unfold Chip.chEnter
  rw [Chip.rd_dmcRefresh _ h, Chip.rd_wr_other _ _ _ _ hf, Chip.rd_wr_other _ _ _ _ hf]

theorem Chip.cell_dmcRefresh {o : Nat} (h : 0x141000 ≤ o) : c.dmcRefresh.cell o = c.cell o := by
  have hl : DMC_LAYOUT.off = 0x140008 := rfl
  have hs : DMC_STATUS.off = 0x140000 := rfl
  unfold Chip.dmcRefresh
  dsimp only
  rw [Chip.wrB, Chip.cell_wr_other _ DMC_STATUS_DRAM_DOWN _ _ (by change DMC_STATUS.off ≠ _; omega),
    Chip.cell_wr_other _ DMC_LAYOUT_S_GIB _ _ (by change DMC_LAYOUT.off ≠ _; omega),
    Chip.cell_wr_other _ DMC_LAYOUT_USABLE _ _ (by change DMC_LAYOUT.off ≠ _; omega),
    Chip.cell_wr_other _ DMC_LAYOUT_ENABLED _ _ (by change DMC_LAYOUT.off ≠ _; omega)]
  rfl

theorem Chip.get_chEnter_other {r : Reg} (hr : (DMC_CH_STAT n).off ≠ r.off) (h : 0x141000 ≤ r.off) : (c.chEnter n st cause).get r = c.get r := by
  unfold Chip.chEnter
  rw [Chip.get_of_cell (Chip.cell_dmcRefresh _ h), Chip.get_wr_other _ _ _ _ hr, Chip.get_wr_other _ _ _ _ hr]

theorem Chip.chState_chEnter_other {m : Nat} (hm : m ≠ n) : (c.chEnter n st cause).chState m = c.chState m := by
  have hoff : (DMC_CH_STAT_STATE m).off = 0x141000 + 4096 * m := rfl
  exact c.rd_chEnter_other n st cause (by rw [DMC_CH_STAT_off]; omega) (notDmcSummary_of_chan (by omega))

/-! ### A power domain forced -/

theorem Chip.dom_domForce (hv : v < 4) : (c.domForce n v).dom n = v := by
  have hbusy : (PWR_DOM_CTL_BUSY n).apart (PWR_DOM_CTL_CUR n) = true := Fld.apart_of_clear rfl rfl
  refine (Chip.rd_clr_keeps _ hbusy).trans ?_
  exact Chip.rd_wr_lt rfl hv

theorem Chip.chState_domForce {m k : Nat} (hm : m < 8) (hk : k < 8) : (c.domForce (domMem k) v).chState m = c.chState m := by
  have hoff : (DMC_CH_STAT_STATE m).off = 0x141000 + 4096 * m := rfl
  have hdom : domMem k < 248 := by unfold domMem; omega
  exact (Chip.domForce_within hdom .refl (by decide) (by decide) : Chip.Within [2] [.pwr] c _).rd
    (by rw [dmc_page hm (by omega) (by omega)]; decide)

theorem Chip.on_domForce_busy : (c.domForce n v).on (PWR_DOM_CTL_BUSY n) = false := Chip.on_clr_same _ rfl

/-- The end of a transition to the state that is still asked for. -/
theorem Chip.domEnd_settles (hbusy : c.on (PWR_DOM_CTL_BUSY n) = true) (hgoal : c.domGoal n = v) (hreq : c.rd (PWR_DOM_CTL_REQ n) = v) (hv : v < 4) :
    (c.domEnd n).dom n = v ∧ (c.domEnd n).on (PWR_DOM_CTL_BUSY n) = false := by
  have hreq' : ((c.wr (PWR_DOM_CTL_CUR n) v).clr (PWR_DOM_CTL_BUSY n)).rd (PWR_DOM_CTL_REQ n) = v := by
    rw [Chip.rd_clr_keeps _ (by exact Fld.apart_of_clear rfl rfl), Chip.rd_wr_keeps _ _ (by exact Fld.apart_of_clear rfl rfl), hreq]
  have hcur : ((c.wr (PWR_DOM_CTL_CUR n) v).clr (PWR_DOM_CTL_BUSY n)).rd (PWR_DOM_CTL_CUR n) = v := by
    rw [Chip.rd_clr_keeps _ (by exact Fld.apart_of_clear rfl rfl)]
    exact Chip.rd_wr_lt rfl hv
  have heq : c.domEnd n = { (c.wr (PWR_DOM_CTL_CUR n) v).clr (PWR_DOM_CTL_BUSY n) with
      pwr := { ((c.wr (PWR_DOM_CTL_CUR n) v).clr (PWR_DOM_CTL_BUSY n)).pwr with
        goal := tput 4 ((c.wr (PWR_DOM_CTL_CUR n) v).clr (PWR_DOM_CTL_BUSY n)).pwr.goal n 4 } } := by
    unfold Chip.domEnd
    rw [hgoal]
    exact if_pos (beq_iff_eq.2 hreq')
  rw [heq]
  exact ⟨hcur, Chip.on_clr_same _ rfl⟩

/-! ### Training -/

/-- The states of the channels but one, and its domain, after a change of its own registers. -/
theorem Chip.rd_dom_of_page20 {c d : Chip} {T : List Part} (h : Chip.Within [20] T c d) (n : Nat) (hn : n < 248) (f : Fld)
    (hf : f.off = 0x20400 + 4 * n) : d.rd f = c.rd f :=
  h.rd (by rw [show f.off / 65536 = 2 by omega]; decide)

theorem bits_lt (v lo w : Nat) : bits v lo w < 2 ^ w := Nat.mod_lt _ (Nat.two_pow_pos w)

theorem heldDelay_lt : heldDelay v < 2 ^ 32 := by
  have hf := bits_lt v 0 8
  have hk := bits_lt v 8 6
  unfold heldDelay
  dsimp only
  split
  · split <;> omega
  · split
    · split <;> omega
    · omega

/-- The delays that training has found are written. -/
def Chip.delaysFound (c : Chip) (n : Nat) (rd wr : List Nat) : Chip :=
  c.each (List.range 40) fun c i => (c.put (DMC_RD_DLY n i) (heldDelay (rd.getD i 0))).put (DMC_WR_DLY n i) (heldDelay (wr.getD i 0))

theorem Chip.get_delaysFound {i : Nat} (hi : i < 40) (rd wr : List Nat) :
    (c.delaysFound n rd wr).get (DMC_RD_DLY n i) = heldDelay (rd.getD i 0) ∧ (c.delaysFound n rd wr).get (DMC_WR_DLY n i) = heldDelay (wr.getD i 0) := by
  have hrd : ∀ j, (DMC_RD_DLY n j).off = 0x141100 + 4096 * n + 4 * j := fun _ => rfl
  have hwr : ∀ j, (DMC_WR_DLY n j).off = 0x141200 + 4096 * n + 4 * j := fun _ => rfl
  have hput : ∀ (c : Chip) (r : Reg) (v : Nat), (c.put r (heldDelay v)).get r = heldDelay v := fun c r v =>
    (c.get_put_same r _).trans (Nat.mod_eq_of_lt (heldDelay_lt v))
  refine Chip.each_establishes (fun c => c.get (DMC_RD_DLY n i) = heldDelay (rd.getD i 0) ∧ c.get (DMC_WR_DLY n i) = heldDelay (wr.getD i 0))
    _ _ i (List.mem_range.2 hi) (fun c => ⟨?_, hput _ _ _⟩) (fun c j hj hc => ?_) c
  · rw [Chip.get_put_other _ _ _ _ (by rw [hrd, hwr]; omega)]
    exact hput _ _ _
  · have hj := List.mem_range.1 hj
    by_cases hij : j = i
    · subst hij
      refine ⟨?_, hput _ _ _⟩
      rw [Chip.get_put_other _ _ _ _ (by rw [hrd, hwr]; omega)]
      exact hput _ _ _
    · constructor
      · rw [Chip.get_put_other _ _ _ _ (by rw [hrd, hwr]; omega), Chip.get_put_other _ _ _ _ (by rw [hrd, hrd]; omega)]
        exact hc.1
      · rw [Chip.get_put_other _ _ _ _ (by rw [hwr, hwr]; omega), Chip.get_put_other _ _ _ _ (by rw [hrd, hwr]; omega)]
        exact hc.2

/-- A channel whose training has passed, before its domain follows. -/
def Chip.trained (c : Chip) (n : Nat) (rd wr : List Nat) : Chip :=
  let c := (((c.delaysFound n rd wr).put (DMC_DEV_DEGRADED n 0) 0).put (DMC_DEV_DEGRADED n 1) 0).emit (.sweepRows n)
  (c.setDmcCh n { scrub := (c.dmcCh n).scrub }).chEnter n chActive 0

/-- The domain of a channel follows the end of its training. -/
def Chip.domFollows (c : Chip) (n : Nat) : Chip :=
  if c.on (PWR_DOM_CTL_BUSY (domMem n)) then c.domEnd (domMem n) else c.when (c.dom (domMem n) != stActive) (·.domForce (domMem n) stActive)

theorem Chip.trainPass_eq (rd wr : List Nat) (h : c.chState n = chTraining) :
    c.trainPass n rd wr = (((c.trained n rd wr).domFollows n).when (((c.trained n rd wr).domFollows n).dom (domMem n) == stLow)
      (·.chEnter n chSelf 0)).post 0x07 0x0004 n 0 := if_neg (not_not.2 h)

theorem Chip.chState_trained (rd wr : List Nat) : (c.trained n rd wr).chState n = chActive := Chip.chState_chEnter_same _ _ _ _ (by decide)

theorem Chip.trained_within (hn : n < 8) (rd wr : List Nat) : Chip.Within [20] [.mem, .dmc] c (c.trained n rd wr) := by
  have hpage : ∀ o, 0x141000 + 4096 * n ≤ o → o < 0x142000 + 4096 * n → o / 65536 ∈ [20] := fun o hlo hhi => by
    rw [dmc_page hn hlo hhi]; decide
  have hdelays : Chip.Within [20] [.mem, .dmc] c (c.delaysFound n rd wr) := .each .refl fun y i hi => by
    have hi := List.mem_range.1 hi
    have hrd : (DMC_RD_DLY n i).off = 0x141100 + 4096 * n + 4 * i := rfl
    have hwr : (DMC_WR_DLY n i).off = 0x141200 + 4096 * n + 4 * i := rfl
    exact (Chip.Within.refl.put (hpage _ (by omega) (by omega))).put (hpage _ (by omega) (by omega))
  have hdeg : ∀ k, (DMC_DEV_DEGRADED n k).off = 0x141028 + 4096 * n + 4 * k := fun _ => rfl
  refine Chip.chEnter_within hn (Chip.setDmcCh_within (Chip.Within.emit ((hdelays.put ?_).put ?_) (by decide)) (by decide) (by decide)) (by decide) (by decide)
  · rw [hdeg]; exact hpage _ (by omega) (by omega)
  · rw [hdeg]; exact hpage _ (by omega) (by omega)

theorem Chip.get_trained_delay {i : Nat} (hn : n < 8) (hi : i < 40) (rd wr : List Nat) :
    (c.trained n rd wr).get (DMC_RD_DLY n i) = heldDelay (rd.getD i 0) ∧ (c.trained n rd wr).get (DMC_WR_DLY n i) = heldDelay (wr.getD i 0) := by
  have hdeg : ∀ k, (DMC_DEV_DEGRADED n k).off = 0x141028 + 4096 * n + 4 * k := fun _ => rfl
  have hkeep : ∀ r : Reg, 0x141100 + 4096 * n ≤ r.off → (c.trained n rd wr).get r = (c.delaysFound n rd wr).get r := fun r hr => by
    unfold Chip.trained
    rw [Chip.get_chEnter_other _ _ _ _ (by rw [DMC_CH_STAT_off]; omega) (by omega), Chip.get_of_cell (Chip.cell_of_regs (Chip.setDmcCh_regs _ _ _) _),
      Chip.emit_get, Chip.get_put_other _ _ _ _ (by rw [hdeg]; omega), Chip.get_put_other _ _ _ _ (by rw [hdeg]; omega)]
  have hrd : (DMC_RD_DLY n i).off = 0x141100 + 4096 * n + 4 * i := rfl
  have hwr : (DMC_WR_DLY n i).off = 0x141200 + 4096 * n + 4 * i := rfl
  rw [hkeep _ (by omega), hkeep _ (by omega)]
  exact c.get_delaysFound n hi rd wr

theorem Chip.domFollows_within (hn : n < 8) : Chip.Within [2] [.pwr] c (c.domFollows n) := by
  have hdom : domMem n < 248 := by unfold domMem; omega
  unfold Chip.domFollows
  exact .ite (fun _ => Chip.domEnd_within hdom .refl (by decide) (by decide)) fun _ =>
    Chip.Within.refl.when' fun _ => Chip.domForce_within hdom .refl (by decide) (by decide)

end

end Sys2Proof.Machine
end

section
/-! SUPPORT. The rows of a memory channel's states (R239, R247 to R256, R270). -/

namespace Sys2Proof.Machine

section
variable (c : Chip) (n : Nat) {f : Fld}

theorem domMem_lt (hn : n < 8) : domMem n < 248 := by unfold domMem; omega

/-- What the row of a training that has passed leaves of the channel's page and of its domain. -/
theorem Chip.rd_post_of_page {b k i a : Nat} (h : f.off / 65536 ≠ 1) : (c.post b k i a).rd f = c.rd f := Chip.rd_post c b k i a f h

theorem chState_page (hn : n < 8) : (DMC_CH_STAT_STATE n).off / 65536 = 20 := by
  have hoff : (DMC_CH_STAT_STATE n).off = 0x141000 + 4096 * n := rfl
  omega

theorem dom_page_two {m : Nat} (hm : m < 248) : (PWR_DOM_CTL m).off / 65536 = 2 := by
  have hoff : (PWR_DOM_CTL m).off = 0x20400 + 4 * m := rfl
  omega

/-- The channel as its training leaves it, before the event: nothing was under way in its domain. -/
theorem Chip.trainPass_idle (hn : n < 8) (rd wr : List Nat) (h : c.chState n = chTraining) (hbusy : c.on (PWR_DOM_CTL_BUSY (domMem n)) = false) :
    (c.trainPass n rd wr).chState n = chActive ∧ (c.trainPass n rd wr).dom (domMem n) = stActive
      ∧ ∀ i < 40, (c.trainPass n rd wr).get (DMC_RD_DLY n i) = heldDelay (rd.getD i 0)
          ∧ (c.trainPass n rd wr).get (DMC_WR_DLY n i) = heldDelay (wr.getD i 0) := by
  have hpage := dom_page_two (domMem_lt n hn)
  have htrained := c.trained_within n hn rd wr
  have hbusy' : (c.trained n rd wr).on (PWR_DOM_CTL_BUSY (domMem n)) = false := (htrained.on (by
    change (PWR_DOM_CTL (domMem n)).off / 65536 ∉ _
    rw [hpage]; decide)).trans hbusy
  have hfollows := (c.trained n rd wr).domFollows_within n hn
  have hdom : ((c.trained n rd wr).domFollows n).dom (domMem n) = stActive := by
    unfold Chip.domFollows
    rw [hbusy', if_neg Bool.false_ne_true]
    cases hd : (c.trained n rd wr).dom (domMem n) != stActive
    · simpa using hd
    · exact Chip.dom_domForce _ _ _ (by decide)
  have heq : c.trainPass n rd wr = ((c.trained n rd wr).domFollows n).post 0x07 0x0004 n 0 := by
    rw [c.trainPass_eq n rd wr h, hdom]
    rfl
  rw [heq]
  refine ⟨?_, ?_, fun i hi => ?_⟩
  · rw [Chip.chState, Chip.rd_post _ _ _ _ _ _ (by rw [chState_page n hn]; decide), hfollows.rd (by rw [chState_page n hn]; decide)]
    exact c.chState_trained n rd wr
  · refine (Chip.rd_post _ _ _ _ _ _ ?_).trans hdom
    change (PWR_DOM_CTL (domMem n)).off / 65536 ≠ 1
    rw [hpage]; decide
  · have hrd : (DMC_RD_DLY n i).off / 65536 = 20 := dmc_page hn (by rw [show (DMC_RD_DLY n i).off = 0x141100 + 4096 * n + 4 * i from rfl]; omega)
      (by rw [show (DMC_RD_DLY n i).off = 0x141100 + 4096 * n + 4 * i from rfl]; omega)
    have hwr : (DMC_WR_DLY n i).off / 65536 = 20 := dmc_page hn (by rw [show (DMC_WR_DLY n i).off = 0x141200 + 4096 * n + 4 * i from rfl]; omega)
      (by rw [show (DMC_WR_DLY n i).off = 0x141200 + 4096 * n + 4 * i from rfl]; omega)
    rw [Chip.get_post _ _ _ _ _ _ (by omega), Chip.get_post _ _ _ _ _ _ (by omega), hfollows.get (by rw [hrd]; decide), hfollows.get (by rw [hwr]; decide)]
    exact c.get_trained_delay n hn hi rd wr

/-- The channel as its training leaves it where a transition to SELF-REFRESH was under way. -/
theorem Chip.trainPass_low (hn : n < 8) (rd wr : List Nat) (h : c.chState n = chTraining) (hbusy : c.on (PWR_DOM_CTL_BUSY (domMem n)) = true)
    (hgoal : c.domGoal (domMem n) = stLow) (hreq : c.rd (PWR_DOM_CTL_REQ (domMem n)) = stLow) :
    (c.trainPass n rd wr).chState n = chSelf ∧ (c.trainPass n rd wr).dom (domMem n) = stLow
      ∧ (c.trainPass n rd wr).on (PWR_DOM_CTL_BUSY (domMem n)) = false := by
  have hpage : ∀ f : Fld, f.off = (PWR_DOM_CTL (domMem n)).off → f.off / 65536 = 2 := fun f hf => by rw [hf, dom_page_two (domMem_lt n hn)]
  have htrained := c.trained_within n hn rd wr
  have hrd : ∀ f : Fld, f.off = (PWR_DOM_CTL (domMem n)).off → (c.trained n rd wr).rd f = c.rd f := fun f hf =>
    htrained.rd (by rw [hpage f hf]; decide)
  have hbusy' : (c.trained n rd wr).on (PWR_DOM_CTL_BUSY (domMem n)) = true := (congrArg (· != 0) (hrd _ rfl)).trans hbusy
  have hgoal' : (c.trained n rd wr).domGoal (domMem n) = stLow := by
    rw [← hgoal, Chip.domGoal, Chip.domGoal, hbusy', hbusy, if_pos rfl, if_pos rfl, htrained.part .pwr (by decide)]
  have hends := (c.trained n rd wr).domEnd_settles (domMem n) stLow hbusy' hgoal' ((hrd _ rfl).trans hreq) (by decide)
  have hfollow : (c.trained n rd wr).domFollows n = (c.trained n rd wr).domEnd (domMem n) := by
    unfold Chip.domFollows
    rw [hbusy']
    rfl
  have heq : c.trainPass n rd wr = (((c.trained n rd wr).domEnd (domMem n)).chEnter n chSelf 0).post 0x07 0x0004 n 0 := by
    rw [c.trainPass_eq n rd wr h, hfollow, hends.1]
    rfl
  have henter : Chip.Within [20] [.dmc] ((c.trained n rd wr).domEnd (domMem n)) (((c.trained n rd wr).domEnd (domMem n)).chEnter n chSelf 0) :=
    Chip.chEnter_within hn .refl (by decide) (by decide)
  rw [heq]
  refine ⟨?_, ?_, ?_⟩
  · rw [Chip.chState, Chip.rd_post _ _ _ _ _ _ (by rw [chState_page n hn]; decide)]
    exact Chip.chState_chEnter_same _ _ _ _ (by decide)
  · rw [Chip.dom, Chip.rd_post _ _ _ _ _ _ (by rw [hpage _ rfl]; decide), henter.rd (by rw [hpage _ rfl]; decide)]
    exact hends.1
  · rw [Chip.on_post _ _ _ _ _ _ (by rw [hpage _ rfl]; decide), henter.on (by rw [hpage _ rfl]; decide)]
    exact hends.2

/-- A channel that leaves the enabled set: it enters the state, and its domain is forced OFF. -/
theorem Chip.chEnter_off (hn : n < 8) {st cause : Nat} (hst : st < 8) :
    ((c.chEnter n st cause).domForce (domMem n) stOff).chState n = st
      ∧ ((c.chEnter n st cause).domForce (domMem n) stOff).dom (domMem n) = stOff
      ∧ ((c.chEnter n st cause).domForce (domMem n) stOff).rd (DMC_CH_STAT_CAUSE n) = cause % 2 ^ (DMC_CH_STAT_CAUSE n).w := by
  refine ⟨(Chip.chState_domForce _ _ hn hn).trans (c.chState_chEnter_same n st cause hst), Chip.dom_domForce _ _ _ (by decide), ?_⟩
  exact ((Chip.domForce_within (domMem_lt n hn) .refl (by decide) (by decide) : Chip.Within [2] [.pwr] _ _).rd
    (by rw [show (DMC_CH_STAT_CAUSE n).off / 65536 = 20 from chState_page n hn]; decide)).trans (c.rd_chEnter_cause n st cause)

/-- The size of a DIMM as its SPD gives it. -/
def Chip.dimmRead (c : Chip) (n : Nat) (d : Dimm) : Chip :=
  ((c.wr (DMC_CH_DIMM_SIZE_GIB n) d.gib).wr (DMC_CH_DIMM_RANKS n) d.ranks).wrB (DMC_CH_DIMM_DENSITY n) d.dense

theorem Chip.spdRead_some (d : Dimm) (h : c.chState n = chTraining) :
    c.spdRead n (some d) = if d.supported && d.fits then (c.dimmRead n d).dmcRefresh
      else ((c.dimmRead n d).chEnter n chDisabled 2).domForce (domMem n) stOff :=
  (if_neg fun hd => absurd (h.symm.trans hd.1) (by decide)).trans (if_neg (not_not.2 h))

theorem Chip.spdRead_none (h : c.chState n = chTraining) :
    c.spdRead n none = ((c.put (DMC_CH_DIMM n) 0).chEnter n chAbsent 1).domForce (domMem n) stOff :=
  (if_neg fun hd => absurd (h.symm.trans hd.1) (by decide)).trans (if_neg (not_not.2 h))

theorem Chip.chState_dimmRead (d : Dimm) : (c.dimmRead n d).chState n = c.chState n := by
  have hoff : (DMC_CH_DIMM n).off ≠ (DMC_CH_STAT n).off := by
    have h1 : (DMC_CH_DIMM n).off = 0x141004 + 4096 * n := rfl
    rw [DMC_CH_STAT_off]
    omega
  exact ((Chip.rd_wr_other _ _ _ _ hoff).trans (Chip.rd_wr_other _ _ _ _ hoff)).trans (Chip.rd_wr_other _ _ _ _ hoff)

theorem Chip.size_dimmRead (d : Dimm) : (c.dimmRead n d).rd (DMC_CH_DIMM_SIZE_GIB n) = d.gib % 2 ^ (DMC_CH_DIMM_SIZE_GIB n).w := by
  unfold Chip.dimmRead
  rw [Chip.rd_wrB_keeps _ _ (by exact Fld.apart_of_clear rfl rfl), Chip.rd_wr_keeps _ _ (by exact Fld.apart_of_clear rfl rfl)]
  exact Chip.rd_wr_fits _ _ rfl

/-- The budget depends on the states of the channels only, and one that is not ACTIVE among enabled ones does not raise it. -/
theorem Chip.dramBudget_fail {c d : Chip} (hn : n < 8) (hactive : c.chState n = chActive) (hfailed : d.chState n = chFailed)
    (hothers : ∀ m < 8, m ≠ n → d.chState m = c.chState m) : d.dramBudget ≤ c.dramBudget := by
  have hlen : ∀ p : Nat → Bool, ((List.range 8).filter p).length ≤ 8 := fun p => (List.length_filter_le p _).trans (by simp)
  have hzero : d.dramBudget = 0 := by
    have hless : ((List.range 8).filter fun m => d.chState m == chActive).length < d.enabledChans.length := by
      have hfilter : ((List.range 8).filter fun m => d.chState m == chActive) = d.enabledChans.filter fun m => d.chState m == chActive := by
        unfold Chip.enabledChans
        rw [List.filter_filter]
        refine List.filter_congr fun m _ => ?_
        by_cases hm : d.chState m = chActive
        · have : d.chEnabled m = true := by rw [Chip.chEnabled, hm]; rfl
          simp [hm, this]
        · simp [hm]
      rw [hfilter]
      have hmem : n ∈ d.enabledChans := List.mem_filter.2 ⟨List.mem_range.2 hn, by rw [Chip.chEnabled, hfailed]; rfl⟩
      exact List.length_filter_lt_length_iff_exists.2 ⟨n, hmem, by rw [hfailed]; decide⟩
    have := hlen d.chEnabled
    unfold Chip.dramBudget
    dsimp only
    unfold Chip.enabledChans at *
    rw [if_neg (by omega), if_neg (by omega)]
  rw [hzero]
  exact Nat.zero_le _

/-! ### A channel that fails -/

/-- The channel has failed, before the store and the destinations follow. -/
def Chip.failedChan (c : Chip) (n : Nat) : Chip :=
  ((c.setDmcCh n { c.dmcCh n with failing := 0, nudges := [] }).chEnter n chFailed (c.dmcCh n).failing).set DMC_STATUS_CH_FAILED

/-- The store halts for a channel, on some planes; the carafes of some record channels are EMPTY at once. -/
def Chip.storeHalts (c : Chip) (n : Nat) (planes idle : List Nat) : Chip :=
  { c with lbs := { c.lbs with halt := some (n, planes), carafes := c.lbs.carafes.filter fun e => !(idle.contains e.1) } }

theorem Chip.chFail_within_failed (hfailing : (c.dmcCh n).failing ≠ 0) (hworks : c.chWorks n = true) :
    ∃ planes idle, Chip.Within [1, 8, 16] [] ((c.failedChan n).storeHalts n planes idle) (c.chFail n) := by
  have hgo : ¬((c.dmcCh n).failing = 0 ∨ (!c.chWorks n) = true) := by simp [hfailing, hworks]
  refine ⟨(List.range 2).filter fun p => (List.range 48).any fun r => c.on (LBS_REC_CTL_ENABLE r) && c.dstPlane (272 + r) == p,
    (List.range 48).filter fun r => !((c.failedChan n).on (LBS_REC_CTL_ENABLE r)), ?_⟩
  unfold Chip.chFail
  rw [if_neg hgo]
  refine Chip.Within.post (.each (.each .refl fun y r hr => ?_) fun y d hd => ?_) (by decide)
  · have hr : r < 48 := List.mem_range.1 (List.mem_filter.1 hr).1
    have hoff : (LBS_REC_HIST r).off = 0x101300 + 4 * r := rfl
    exact Chip.Within.refl.put (by rw [show (LBS_REC_HIST r).off / 65536 = 16 by omega]; decide)
  · exact Chip.showLoss_within (Chip.mem_routed (List.mem_filter.1 hd).1) .refl (by decide) (by decide)

/-- What a row that fails a channel leaves, from the channel as it has failed. -/
theorem Chip.channelFailed_shows (hn : n < 8) (hactive : c.chState n = chActive) (hfailing : (c.dmcCh n).failing ≠ 0) (b : Bool) :
    ((c.chFail n).when b (·.selfFault 3)).chState n = chFailed
      ∧ ((c.chFail n).when b (·.selfFault 3)).rd (DMC_CH_STAT_CAUSE n) = (c.dmcCh n).failing % 2 ^ (DMC_CH_STAT_CAUSE n).w
      ∧ ((c.chFail n).when b (·.selfFault 3)).on DMC_STATUS_CH_FAILED = true
      ∧ ((c.chFail n).when b (·.selfFault 3)).lbs.halt.map Prod.fst = some n
      ∧ ((c.chFail n).when b (·.selfFault 3)).dramBudget ≤ c.dramBudget := by
  have hworks : c.chWorks n = true := by rw [Chip.chWorks, hactive]; rfl
  obtain ⟨planes, idle, hwithin⟩ := c.chFail_within_failed n hfailing hworks
  have hw : Chip.Within [0, 1, 8, 16, 112] [.sent, .twn] ((c.failedChan n).storeHalts n planes idle) ((c.chFail n).when b (·.selfFault 3)) :=
    (Chip.Within.within .refl (by decide) (by decide) hwithin).when' fun _ => Chip.selfFault_within .refl (by decide) (by decide)
  have hfld : ∀ f : Fld, f.off / 65536 = 20 → ((c.chFail n).when b (·.selfFault 3)).rd f = (c.failedChan n).rd f := fun f hf =>
    (hw.rd (by rw [hf]; decide)).trans rfl
  have hoff : ∀ m, (DMC_CH_STAT m).off = 0x141000 + 4096 * m := fun _ => rfl
  have hset : ∀ f : Fld, 0x141000 ≤ f.off → (c.failedChan n).rd f
      = ((c.setDmcCh n { c.dmcCh n with failing := 0, nudges := [] }).chEnter n chFailed (c.dmcCh n).failing).rd f := fun f hf =>
    Chip.rd_set_keeps _ (Fld.apart_of_off (by have : DMC_STATUS_CH_FAILED.off = 0x140000 := rfl
                                              omega))
  have hst : ((c.chFail n).when b (·.selfFault 3)).chState n = chFailed := by
    rw [Chip.chState, hfld _ (chState_page n hn), hset _ (by change _ ≤ (DMC_CH_STAT n).off; rw [hoff]; omega)]
    exact Chip.chState_chEnter_same _ _ _ _ (by decide)
  refine ⟨hst, ?_, ?_, ?_, ?_⟩
  · rw [hfld (DMC_CH_STAT_CAUSE n) (chState_page n hn), hset _ (by change _ ≤ (DMC_CH_STAT n).off; rw [hoff]; omega)]
    exact Chip.rd_chEnter_cause _ _ _ _
  · exact (congrArg (· != 0) (hfld DMC_STATUS_CH_FAILED (by decide))).trans (Chip.on_set_same _ rfl Nat.one_ne_zero)
  · have hlbs : ((c.chFail n).when b (·.selfFault 3)).lbs = ((c.failedChan n).storeHalts n planes idle).lbs := hw.part .lbs (by decide)
    rw [hlbs]
    rfl
  · refine Chip.dramBudget_fail n hn hactive hst fun m hm hne => ?_
    rw [Chip.chState, hfld _ (chState_page m hm), hset _ (by change _ ≤ (DMC_CH_STAT m).off; rw [hoff]; omega)]
    exact (Chip.chState_chEnter_other _ _ _ _ hne).trans (Chip.rd_of_cell (Chip.cell_of_regs (Chip.setDmcCh_regs _ _ _) _))

end

/-- Settles O38: each row's last writes are of other registers than those that show the state it leaves. -/
theorem channelStates : Obligations.ChannelStates := by
  unfold Obligations.ChannelStates
  refine ⟨?_, ?_, ?_, ?_, ?_⟩
  · rintro s t n dimm c rfl hready hst
    refine ⟨_, State.fwStep_ready s t _ hready, ?_, ?_, ?_⟩
    · rintro rfl
      have heq := Chip.spdRead_none _ n.val hst
      obtain ⟨h1, h2, -⟩ := ((s.chipAt t).put (DMC_CH_DIMM n.val) 0).chEnter_off n.val n.isLt (st := chAbsent) (cause := 1) (by decide)
      exact ⟨(congrArg (Chip.chState · n.val) heq).trans h1, (congrArg (Chip.dom · (domMem n.val)) heq).trans h2⟩
    · intro hany
      obtain ⟨d, rfl, hbad⟩ := Option.any_eq_true _ _ |>.1 hany
      have heq := (Chip.spdRead_some (s.chipAt t) n.val d hst).trans (if_neg (by rw [Bool.not_eq_true'] at hbad; rw [hbad]; exact Bool.false_ne_true))
      obtain ⟨h1, h2, -⟩ := ((s.chipAt t).dimmRead n.val d).chEnter_off n.val n.isLt (st := chDisabled) (cause := 2) (by decide)
      exact ⟨(congrArg (Chip.chState · n.val) heq).trans h1, (congrArg (Chip.dom · (domMem n.val)) heq).trans h2⟩
    · intro hany
      obtain ⟨d, rfl, hgood⟩ := Option.any_eq_true _ _ |>.1 hany
      have heq := (Chip.spdRead_some (s.chipAt t) n.val d hst).trans (if_pos hgood)
      have hstat : (DMC_CH_STAT_STATE n.val).off = 0x141000 + 4096 * n.val := rfl
      have hdimm : (DMC_CH_DIMM_SIZE_GIB n.val).off = 0x141004 + 4096 * n.val := rfl
      refine ⟨(congrArg (Chip.chState · n.val) heq).trans ((Chip.rd_dmcRefresh _ (notDmcSummary_of_chan (by omega))).trans
        ((Chip.chState_dimmRead _ _ d).trans hst)), congrArg some ?_⟩
      exact (congrArg (Chip.rd · (DMC_CH_DIMM_SIZE_GIB n.val)) heq).trans ((Chip.rd_dmcRefresh _ (notDmcSummary_of_chan (by omega))).trans
        (Chip.size_dimmRead _ _ d))
  · rintro s t n rd wr c rfl hready hst hbusy
    obtain ⟨h1, h2, h3⟩ := (s.chipAt t).trainPass_idle n.val n.isLt (rd.map BitVec.toNat) (wr.map BitVec.toNat) hst hbusy
    have hget : ∀ (l : List (BitVec 14)) (i : Nat), (l.map BitVec.toNat).getD i 0 = (l.getD i 0).toNat := fun l i => by
      rw [List.getD_eq_getElem?_getD, List.getD_eq_getElem?_getD, List.getElem?_map]
      cases l[i]? <;> rfl
    refine ⟨_, State.fwStep_ready s t _ hready, h1, h2, fun i => ?_⟩
    obtain ⟨hrd, hwr⟩ := h3 i.val i.isLt
    rw [hget] at hrd hwr
    exact ⟨hrd, hwr⟩
  · rintro s t n rd wr c rfl hready hst hbusy hgoal hreq
    obtain ⟨h1, h2, h3⟩ := (s.chipAt t).trainPass_low n.val n.isLt (rd.map BitVec.toNat) (wr.map BitVec.toNat) hst hbusy hgoal hreq
    exact ⟨_, State.fwStep_ready s t _ hready, h1, h2, h3⟩
  · rintro s t n c rfl hready hst
    have heq : (s.chipAt t).trainFail n.val
        = ((((s.chipAt t).chEnter n.val chDisabled 3).domForce (domMem n.val) stOff).set DMC_STATUS_TRAIN_FAILED).post 0x07 0x0005 n.val 3 :=
      if_neg (not_not.2 hst)
    obtain ⟨h1, h2, h3⟩ := (s.chipAt t).chEnter_off n.val n.isLt (st := chDisabled) (cause := 3) (by decide)
    have hkeep : ∀ f : Fld, DMC_STATUS_TRAIN_FAILED.off ≠ f.off → f.off / 65536 ≠ 1 → ((s.chipAt t).trainFail n.val).rd f
        = (((s.chipAt t).chEnter n.val chDisabled 3).domForce (domMem n.val) stOff).rd f := fun f hf hp => by
      rw [heq, Chip.rd_post _ _ _ _ _ _ hp, Chip.rd_set_keeps _ (Fld.apart_of_off hf)]
    have hstatus : DMC_STATUS_TRAIN_FAILED.off = 0x140000 := rfl
    have hstat : (DMC_CH_STAT_STATE n.val).off = 0x141000 + 4096 * n.val := rfl
    have hcause : (DMC_CH_STAT_CAUSE n.val).off = 0x141000 + 4096 * n.val := rfl
    have hdom : (PWR_DOM_CTL_CUR (domMem n.val)).off = 0x20400 + 4 * (212 + n.val) := rfl
    refine ⟨_, State.fwStep_ready s t _ hready, ?_, ?_, ?_, ?_⟩
    · exact (hkeep _ (by omega) (by omega)).trans h1
    · exact (hkeep _ (by omega) (by omega)).trans h3
    · rw [State.commit_on, heq, Chip.on_post _ _ _ _ _ _ (by decide)]
      exact Chip.on_set_same _ rfl Nat.one_ne_zero
    · exact (hkeep _ (by omega) (by omega)).trans h2
  · rintro s t n c rfl hlive hst hfailing
    exact ⟨_, State.event_live s t _ hlive, (s.chipAt t).channelFailed_shows n.val n.isLt hst hfailing _⟩

end Sys2Proof.Machine
end

section
/-! SUPPORT. Errors, refresh and scrubbing of a memory channel (R260 to R268). -/

namespace Sys2Proof.Machine

section
variable (c : Chip) (n : Nat)

theorem paChan_burst (pa : Nat) : paChan (pa / 64 * 64) = paChan pa := by unfold paChan bits; omega

@[simp] theorem Chip.chFailing_regs (cause : Nat) : (c.chFailing n cause).regs = c.regs := by
  unfold Chip.chFailing
  split <;> rfl

theorem Chip.chFailing_cell (cause o : Nat) : (c.chFailing n cause).cell o = c.cell o := Chip.cell_of_regs (c.chFailing_regs n cause) o

/-- The capture of an error is in three registers of the channel. -/
theorem Chip.cell_errCapture (pa rank sub : Nat) (dev : Option Nat) (scrub : Bool) {o : Nat}
    (h : o < 0x141010 + 4096 * n ∨ 0x14101c + 4096 * n ≤ o) : (c.errCapture n pa rank sub dev scrub).cell o = c.cell o := by
  have hlo : (DMC_ERR_ADDR_LO n).off = 0x141010 + 4096 * n := rfl
  have hhi : (DMC_ERR_ADDR_HI n).off = 0x141014 + 4096 * n := rfl
  have hinfo : (DMC_ERR_INFO n).off = 0x141018 + 4096 * n := rfl
  unfold Chip.errCapture
  dsimp only
  split
  · rw [Chip.cell_put_other _ _ _ _ (by omega), Chip.cell_put_other _ _ _ _ (by omega), Chip.cell_put_other _ _ _ _ (by omega)]
  · exact Chip.cell_wr_other _ _ _ _ (by change (DMC_ERR_INFO n).off ≠ o; omega)

/-- A device that becomes degraded shows in its register and in DMC_STATUS. -/
theorem Chip.cell_degrade (i : Nat) {o : Nat} (h : ∀ k < 2, (DMC_DEV_DEGRADED n k).off ≠ o) (hi : i < 40) (hs : DMC_STATUS.off ≠ o) (hp : o / 65536 ≠ 1) :
    (c.degrade n i).cell o = c.cell o := by
  unfold Chip.degrade
  dsimp only
  split
  · rfl
  · have hbase : ((((c.setBit (DMC_DEV_DEGRADED_DEGRADED n (i / 20)) (i % 20)).set DMC_STATUS_DEV_DEGRADED).post 0x07 0x0003 n i)).cell o = c.cell o := by
      rw [Chip.cell_post _ _ _ _ _ _ hp, Chip.set_def, Chip.cell_wr_other _ _ _ _ hs]
      unfold Chip.setBit
      split
      · rfl
      · exact Chip.cell_wr_other _ _ _ _ (h (i / 20) (by omega))
    unfold Chip.when
    split
    · rw [Chip.chFailing_cell, hbase]
    · exact hbase

theorem Chip.on_degrade_ce (i : Nat) (h : c.on DMC_STATUS_CE = true) : (c.degrade n i).on DMC_STATUS_CE = true := by
  unfold Chip.degrade
  dsimp only
  split
  · exact h
  · have hdegraded : (DMC_DEV_DEGRADED_DEGRADED n (i / 20)).off = 0x141028 + 4096 * n + 4 * (i / 20) := rfl
    have hstatus : DMC_STATUS_CE.off = 0x140000 := rfl
    have hbase : ((((c.setBit (DMC_DEV_DEGRADED_DEGRADED n (i / 20)) (i % 20)).set DMC_STATUS_DEV_DEGRADED).post 0x07 0x0003 n i)).on DMC_STATUS_CE = true := by
      rw [Chip.on_post _ _ _ _ _ _ (by decide), Chip.on_set_keeps _ (by decide), Chip.on_setBit_keeps _ _ (Fld.apart_of_off (by omega)), h]
    unfold Chip.when
    split
    · exact (Chip.on_of_cell (Chip.chFailing_cell _ _ _ _)).trans hbase
    · exact hbase

theorem Chip.rd_errCapture (pa rank sub : Nat) (dev : Option Nat) (scrub : Bool) {f : Fld}
    (h : f.off < 0x141010 + 4096 * n ∨ 0x14101c + 4096 * n ≤ f.off) : (c.errCapture n pa rank sub dev scrub).rd f = c.rd f :=
  Chip.rd_of_cell (c.cell_errCapture n pa rank sub dev scrub h)

/-- What follows the capture of an error that the code cannot correct, of a burst of a channel. -/
def Chip.uncorrected (c : Chip) (n pa : Nat) : Chip :=
  let c := ((c.inc (DMC_UE_COUNT_COUNT n)).set DMC_STATUS_UE).post 0x07 0x0002 n (c.get (DMC_ERR_INFO n))
  let x := c.dmcCh n
  let ues := (pa, c.now) :: x.ues.filter fun e => e.1 != pa && c.now < e.2 + sec 1
  let c := c.setDmcCh n { x with ues := ues }
  c.when (c.rd DMC_CFG_UE_LIMIT < ues.length) (·.chFailing n 6)

/-- What follows the capture of an error corrected in a device. -/
def Chip.ceCorrected (c : Chip) (n i : Nat) : Chip :=
  let c := ((c.inc (DMC_CE_COUNT_COUNT n)).inc (DMC_DEV_CE_COUNT n i)).set DMC_STATUS_CE
  let x := c.dmcCh n
  let corr := (i, c.now) :: x.corr.filter fun e => c.now < e.2 + sec 3600
  let c := c.setDmcCh n { x with corr := corr }
  c.when (1024 < (corr.filter fun e => e.1 == i).length) (·.degrade n i)

/-- The registers of the counters of a channel; its device registers lie beyond. -/
theorem DMC_CE_COUNT_off : (DMC_CE_COUNT_COUNT n).off = 0x141008 + 4096 * n := rfl
theorem DMC_UE_COUNT_off : (DMC_UE_COUNT_COUNT n).off = 0x14100c + 4096 * n := rfl
theorem DMC_DEV_CE_off (i : Nat) : (DMC_DEV_CE_COUNT n i).off = 0x141300 + 4096 * n + 4 * i := rfl
theorem DMC_DEV_DEGRADED_off (k : Nat) : (DMC_DEV_DEGRADED n k).off = 0x141028 + 4096 * n + 4 * k := rfl
theorem DMC_STATUS_off : DMC_STATUS.off = 0x140000 := rfl

theorem Chip.cell_uncorrected (pa : Nat) {o : Nat} (hue : 0x14100c + 4096 * n ≠ o) (hs : 0x140000 ≠ o) (hp : o / 65536 ≠ 1) :
    (c.uncorrected n pa).cell o = c.cell o := by
  unfold Chip.uncorrected
  extract_lets c2 x ues c3
  have hc2 : c2.cell o = c.cell o := by
    rw [Chip.cell_post _ _ _ _ _ _ hp, Chip.set_def, Chip.cell_wr_other _ _ _ _ hs, Chip.inc_def, Chip.cell_wr_other _ _ _ _ hue]
  unfold Chip.when
  split
  · exact (Chip.chFailing_cell _ _ _ _).trans hc2
  · exact hc2

/-- An error that the code cannot correct is counted and flagged. -/
theorem Chip.uncorrected_shows (pa : Nat) (hn : n < 8) :
    (c.uncorrected n pa).rd (DMC_UE_COUNT_COUNT n) = min (2 ^ 32 - 1) (c.rd (DMC_UE_COUNT_COUNT n) + 1)
      ∧ (c.uncorrected n pa).on DMC_STATUS_UE = true := by
  unfold Chip.uncorrected
  extract_lets c2 x ues c3
  have hcell : ∀ o, (c3.when (c3.rd DMC_CFG_UE_LIMIT < ues.length) (·.chFailing n 6)).cell o = c2.cell o := fun o => by
    unfold Chip.when
    split
    · exact Chip.chFailing_cell _ _ _ _
    · rfl
  have hue := DMC_UE_COUNT_off n
  have hs : DMC_STATUS_UE.off = 0x140000 := rfl
  constructor
  · rw [Chip.rd_of_cell (hcell _), Chip.rd_post _ _ _ _ _ _ (by omega), Chip.rd_set_keeps _ (Fld.apart_of_off (by omega)), Chip.rd_inc_same _ rfl]
    rfl
  · rw [Chip.on_of_cell (hcell _), Chip.on_post _ _ _ _ _ _ (by decide)]
    exact Chip.on_set_same _ rfl Nat.one_ne_zero

theorem Chip.cell_ceCorrected {i o : Nat} (hn : n < 8) (hi : i < 40) (hce : 0x141008 + 4096 * n ≠ o) (hdev : o < 0x141028 + 4096 * n ∨ 0x142000 + 4096 * n ≤ o)
    (hs : 0x140000 ≠ o) (hp : o / 65536 ≠ 1) : (c.ceCorrected n i).cell o = c.cell o := by
  have hdce := DMC_DEV_CE_off n i
  have hst : DMC_STATUS_CE.off = 0x140000 := rfl
  unfold Chip.ceCorrected
  extract_lets c2 x corr c3
  have hc2 : c2.cell o = c.cell o := by
    refine (Chip.cell_wr_other _ DMC_STATUS_CE _ _ hs).trans ?_
    rw [Chip.inc_def, Chip.cell_wr_other _ _ _ _ (by omega), Chip.inc_def, Chip.cell_wr_other _ _ _ _ hce]
  unfold Chip.when
  split
  · exact (Chip.cell_degrade _ _ _ (fun k hk => by rw [DMC_DEV_DEGRADED_off]; omega) hi hs hp).trans hc2
  · exact hc2

/-- A corrected error is counted and flagged. -/
theorem Chip.ceCorrected_shows {i : Nat} (hn : n < 8) (hi : i < 40) :
    (c.ceCorrected n i).rd (DMC_CE_COUNT_COUNT n) = min (2 ^ 32 - 1) (c.rd (DMC_CE_COUNT_COUNT n) + 1) ∧ (c.ceCorrected n i).on DMC_STATUS_CE = true := by
  have hce := DMC_CE_COUNT_off n
  have hdce := DMC_DEV_CE_off n i
  have hst : DMC_STATUS_CE.off = 0x140000 := rfl
  unfold Chip.ceCorrected
  extract_lets c2 x corr c3
  constructor
  · have hc2 : c2.rd (DMC_CE_COUNT_COUNT n) = min (2 ^ 32 - 1) (c.rd (DMC_CE_COUNT_COUNT n) + 1) := by
      rw [Chip.rd_set_keeps _ (Fld.apart_of_off (by omega)), Chip.rd_inc_keeps _ (Fld.apart_of_off (by omega)), Chip.rd_inc_same _ rfl]
      rfl
    unfold Chip.when
    split
    · exact (Chip.rd_of_cell (Chip.cell_degrade _ _ _ (fun k hk => by rw [DMC_DEV_DEGRADED_off]; omega) hi (by rw [DMC_STATUS_off]; omega) (by omega))).trans hc2
    · exact hc2
  · have hset : c2.on DMC_STATUS_CE = true := Chip.on_set_same _ rfl Nat.one_ne_zero
    unfold Chip.when
    split
    · exact Chip.on_degrade_ce _ _ _ hset
    · exact hset

/-! ### An error of a burst -/

theorem Chip.eccError_none (pa : Nat) (scrub : Bool) : ∃ rank sub, c.eccError pa none scrub
    = (c.errCapture (paChan (pa / 64 * 64)) (pa / 64 * 64) rank sub none scrub).uncorrected (paChan (pa / 64 * 64)) (pa / 64 * 64) := ⟨_, _, rfl⟩

theorem Chip.eccError_some (pa d : Nat) (scrub : Bool) (hd : d < 10) : ∃ rank sub i, i < 40 ∧ c.eccError pa (some d) scrub
    = (c.errCapture (paChan (pa / 64 * 64)) (pa / 64 * 64) rank sub (some d) scrub).ceCorrected (paChan (pa / 64 * 64)) i := by
  have hrank : c.caRank (paChan (pa / 64 * 64)) (paLocal (pa / 64 * 64)) < 2 := Chip.caRank_lt
  have hsub : caSub (paLocal (pa / 64 * 64)) < 2 := bits_lt _ 9 1
  exact ⟨_, _, 20 * c.caRank (paChan (pa / 64 * 64)) (paLocal (pa / 64 * 64)) + 10 * caSub (paLocal (pa / 64 * 64)) + d, by omega, rfl⟩

theorem Chip.eccError_ue (pa : Nat) (scrub : Bool) :
    (c.eccError pa none scrub).rd (DMC_UE_COUNT_COUNT (paChan pa)) = min (2 ^ 32 - 1) (c.rd (DMC_UE_COUNT_COUNT (paChan pa)) + 1)
      ∧ (c.eccError pa none scrub).on DMC_STATUS_UE = true := by
  obtain ⟨rank, sub, heq⟩ := c.eccError_none pa scrub
  rw [heq, paChan_burst]
  obtain ⟨hcount, hflag⟩ := (c.errCapture (paChan pa) (pa / 64 * 64) rank sub none scrub).uncorrected_shows (paChan pa) (pa / 64 * 64) Chip.paChan_lt
  rw [Chip.rd_errCapture _ _ _ _ _ _ _ (by rw [DMC_UE_COUNT_off]; omega)] at hcount
  exact ⟨hcount, hflag⟩

/-- A corrected error is no uncorrectable one. -/
theorem Chip.eccError_ce (pa d : Nat) (scrub : Bool) (hd : d < 10) :
    (c.eccError pa (some d) scrub).rd (DMC_CE_COUNT_COUNT (paChan pa)) = min (2 ^ 32 - 1) (c.rd (DMC_CE_COUNT_COUNT (paChan pa)) + 1)
      ∧ (c.eccError pa (some d) scrub).on DMC_STATUS_CE = true
      ∧ (c.eccError pa (some d) scrub).rd (DMC_UE_COUNT_COUNT (paChan pa)) = c.rd (DMC_UE_COUNT_COUNT (paChan pa)) := by
  obtain ⟨rank, sub, i, hi, heq⟩ := c.eccError_some pa d scrub hd
  have hn : paChan pa < 8 := Chip.paChan_lt
  have hue := DMC_UE_COUNT_off (paChan pa)
  rw [heq, paChan_burst]
  obtain ⟨hcount, hflag⟩ := (c.errCapture (paChan pa) (pa / 64 * 64) rank sub (some d) scrub).ceCorrected_shows (paChan pa) hn hi
  rw [Chip.rd_errCapture _ _ _ _ _ _ _ (by rw [DMC_CE_COUNT_off]; omega)] at hcount
  refine ⟨hcount, hflag, ?_⟩
  rw [Chip.rd_of_cell (Chip.cell_ceCorrected _ _ hn hi (by omega) (by omega) (by omega) (by omega)), Chip.rd_errCapture _ _ _ _ _ _ _ (by omega)]

/-- The state and the size of every channel stand an error. -/
theorem Chip.cell_eccError (pa : Nat) (dev : Option Nat) (scrub : Bool) {m o : Nat} (hm : m < 8)
    (ho : o = 0x141000 + 4096 * m ∨ o = 0x141004 + 4096 * m) (hdev : ∀ d, dev = some d → d < 10) : (c.eccError pa dev scrub).cell o = c.cell o := by
  have hn : paChan (pa / 64 * 64) < 8 := Chip.paChan_lt
  cases dev with
  | none =>
    obtain ⟨rank, sub, heq⟩ := c.eccError_none pa scrub
    rw [heq, Chip.cell_uncorrected _ _ _ (by omega) (by omega) (by omega), Chip.cell_errCapture _ _ _ _ _ _ _ (by omega)]
  | some d =>
    obtain ⟨rank, sub, i, hi, heq⟩ := c.eccError_some pa d scrub (hdev d rfl)
    rw [heq, Chip.cell_ceCorrected _ _ hn hi (by omega) (by omega) (by omega) (by omega), Chip.cell_errCapture _ _ _ _ _ _ _ (by omega)]

/-! ### Sweeps -/

theorem Chip.cell_eyeNarrow (i : Nat) {o : Nat} (hs : 0x140000 ≠ o) (hp : o / 65536 ≠ 1) : (c.eyeNarrow n i).cell o = c.cell o :=
  (Chip.cell_post _ _ _ _ _ _ hp).trans (Chip.cell_wr_other _ DMC_STATUS_EYE_NARROW _ _ hs)

/-- What a sweep of a device leaves that has passed somewhere: how far it is off, and its width. -/
def Chip.swept (c : Chip) (n i : Nat) (off : Int) (width : Nat) : Chip :=
  let c := (c.wrI (DMC_RD_DLY_TRIAL_OFFSET n i) off).wr (DMC_RD_DLY_EYE_WIDTH n i) width
  let x := c.dmcCh n
  let others := x.nudges.filter fun e => e.1 != i
  let c := c.setDmcCh n { x with nudges := if off = 0 then others else (i, decide (0 < off)) :: others }
  c.when (width < c.rd DMC_CFG_EYE_MIN) (·.eyeNarrow n i)

theorem Chip.sweepDev_of_fail {i m : Nat} (hm : m % 2 ^ 33 = 0) :
    c.sweepDev n i m = (c.setDmcCh n { c.dmcCh n with nudges := (c.dmcCh n).nudges.filter fun e => e.1 != i }).degrade n i := by
  unfold Chip.sweepDev
  split
  · rfl
  · contradiction

theorem Chip.sweepDev_of_pass {i m : Nat} (hm : m % 2 ^ 33 ≠ 0) :
    ∃ off, c.sweepDev n i m = c.swept n i off (match passRange m with | some (lo, hi) => hi - lo + 1 | none => 0) := by
  unfold Chip.sweepDev
  split
  · contradiction
  · cases passRange m with
    | none => exact ⟨0, rfl⟩
    | some e => exact ⟨(((e.1 + e.2) / 2 : Nat) : Int) - 16, rfl⟩

theorem DMC_RD_DLY_off (i : Nat) : (DMC_RD_DLY n i).off = 0x141100 + 4096 * n + 4 * i := rfl

theorem Chip.cell_swept (i : Nat) (off : Int) (width : Nat) {o : Nat} (hdly : (DMC_RD_DLY n i).off ≠ o) (hs : 0x140000 ≠ o) (hp : o / 65536 ≠ 1) :
    (c.swept n i off width).cell o = c.cell o := by
  unfold Chip.swept
  extract_lets c2 x others c3
  have hc2 : c2.cell o = c.cell o := (Chip.cell_wr_other _ (DMC_RD_DLY_EYE_WIDTH n i) _ _ hdly).trans (Chip.cell_wr_other _ _ _ _ hdly)
  have hc3 : c3.cell o = c2.cell o := Chip.cell_of_regs (Chip.setDmcCh_regs _ _ _) o
  exact (Chip.when_keeps (fun c => c.cell o) c3 _ (Chip.cell_eyeNarrow _ _ _ hs hp)).trans (hc3.trans hc2)

theorem Chip.rd_swept_width (i : Nat) (off : Int) (width : Nat) (hn : n < 8) (hi : i < 40) (hw : width < 2 ^ 8) :
    (c.swept n i off width).rd (DMC_RD_DLY_EYE_WIDTH n i) = width := by
  unfold Chip.swept
  extract_lets c2 x others c3
  have hc2 : c2.rd (DMC_RD_DLY_EYE_WIDTH n i) = width := Chip.rd_wr_lt rfl hw
  have hc3 : c3.rd (DMC_RD_DLY_EYE_WIDTH n i) = c2.rd (DMC_RD_DLY_EYE_WIDTH n i) := Chip.rd_of_cell (Chip.cell_of_regs (Chip.setDmcCh_regs _ _ _) _)
  have hoff : (DMC_RD_DLY_EYE_WIDTH n i).off = 0x141100 + 4096 * n + 4 * i := rfl
  exact (Chip.when_keeps (fun c => c.rd (DMC_RD_DLY_EYE_WIDTH n i)) c3 _ (Chip.rd_of_cell (Chip.cell_eyeNarrow _ _ _ (by omega) (by omega)))).trans
    (hc3.trans hc2)

/-- The sweep of a device leaves the delays of the others. -/
theorem Chip.cell_sweepDev {i j : Nat} (m : Nat) (hn : n < 8) (hi : i < 40) (hj : j < 40) (hij : i ≠ j) :
    (c.sweepDev n i m).cell (DMC_RD_DLY n j).off = c.cell (DMC_RD_DLY n j).off := by
  have hjo := DMC_RD_DLY_off n j
  by_cases hm : m % 2 ^ 33 = 0
  · rw [c.sweepDev_of_fail n hm, Chip.cell_degrade _ _ _ (fun k hk => by rw [DMC_DEV_DEGRADED_off]; omega) hi (by rw [DMC_STATUS_off]; omega) (by omega)]
    rfl
  · obtain ⟨off, heq⟩ := c.sweepDev_of_pass n (i := i) hm
    rw [heq]
    exact Chip.cell_swept _ _ _ _ _ (by rw [DMC_RD_DLY_off]; omega) (by omega) (by omega)

theorem passRange_width {m : Nat} {e : Nat × Nat} (h : passRange m = some e) : e.2 - e.1 + 1 < 2 ^ 8 := by
  unfold passRange at h
  split at h
  · exact absurd h (by simp)
  · have hup := (List.takeWhile_sublist (l := List.range 17) (fun i => bit m (16 + i))).length_le
    rw [← Option.some.inj h]
    simp only [List.length_range] at hup ⊢
    omega

/-- After the sweep of a rank the width of every device that passed somewhere is that of its range. -/
theorem Chip.sweep_width {k : Nat} (ms : List Nat) (hn : n < 8) (hk : k < 2) (hst : c.chState n = chActive) (hruns : c.percRuns = true) {d : Nat}
    (hd : d < 20) (hm : ms.getD d 0 % 2 ^ 33 ≠ 0) {e : Nat × Nat} (he : passRange (ms.getD d 0) = some e) :
    (c.sweep n k ms).rd (DMC_RD_DLY_EYE_WIDTH n (20 * k + d)) = e.2 - e.1 + 1 := by
  have heq : c.sweep n k ms = c.each (List.range 20) fun c d => c.sweepDev n (20 * k + d) (ms.getD d 0) :=
    if_neg (by rw [hst, hruns]; decide)
  rw [heq]
  have hself : ∀ c : Chip, (c.sweepDev n (20 * k + d) (ms.getD d 0)).rd (DMC_RD_DLY_EYE_WIDTH n (20 * k + d)) = e.2 - e.1 + 1 := fun c => by
    obtain ⟨off, hswept⟩ := c.sweepDev_of_pass n (i := 20 * k + d) hm
    rw [he] at hswept
    rw [hswept]
    exact Chip.rd_swept_width _ _ _ _ _ hn (by omega) (passRange_width he)
  refine Chip.each_establishes (fun c => c.rd (DMC_RD_DLY_EYE_WIDTH n (20 * k + d)) = e.2 - e.1 + 1) _ _ d (List.mem_range.2 hd) hself
    (fun c j hj hc => ?_) c
  have hj := List.mem_range.1 hj
  by_cases hjd : j = d
  · rw [hjd]
    exact hself c
  · exact (Chip.rd_of_cell (Chip.cell_sweepDev _ _ _ hn (by omega) (by omega) (by omega))).trans hc

/-! ### Refresh boundaries -/

theorem Chip.nudge_dmc (i : Nat) (up : Bool) : (c.nudge n i up).dmc = c.dmc := by
  unfold Chip.nudge Chip.eyeNarrow
  dsimp only
  split <;> split <;> simp [Chip.set_def]

theorem Chip.cell_nudge (i : Nat) (up : Bool) (hn : n < 8) : (c.nudge n i up).cell (DMC_CH_STAT n).off = c.cell (DMC_CH_STAT n).off := by
  have hoff := DMC_CH_STAT_off n
  have hdly := DMC_RD_DLY_off n i
  have hwr : ∀ v, (c.wr (DMC_RD_DLY_FINE n i) v).cell (DMC_CH_STAT n).off = c.cell (DMC_CH_STAT n).off := fun v =>
    Chip.cell_wr_other _ _ _ _ (by change (DMC_RD_DLY n i).off ≠ _; omega)
  have hnarrow := c.cell_eyeNarrow n i (o := (DMC_CH_STAT n).off) (by omega) (by omega)
  unfold Chip.nudge
  dsimp only
  split
  case isTrue =>
    split
    · exact hwr _
    · exact hnarrow
  case isFalse =>
    split
    · exact hwr _
    · exact hnarrow

theorem Chip.dmcCh_of_dmc {c d : Chip} (h : d.dmc = c.dmc) (k : Nat) : d.dmcCh k = c.dmcCh k := by unfold Chip.dmcCh; rw [h]

/-- A channel that may fail keeps what its boundaries count and the steps that are due. -/
theorem Chip.dmcCh_chFailing (cause : Nat) : ((c.chFailing n cause).dmcCh n).silent = (c.dmcCh n).silent
    ∧ ((c.chFailing n cause).dmcCh n).nudges = (c.dmcCh n).nudges := by
  unfold Chip.chFailing
  split
  · rw [Chip.dmcCh_setDmcCh, if_pos rfl]
    exact ⟨rfl, rfl⟩
  · exact ⟨rfl, rfl⟩

/-- The reports of heat of the ranks after a boundary. -/
def DmcCh.hotAfter (x : DmcCh) (k : Nat) (mr4 : Option Bool) : List Nat :=
  match mr4 with
  | some true => k :: x.hot.filter (· != k)
  | some false => x.hot.filter (· != k)
  | none => x.hot

/-- The channel as a boundary of a rank finds it, before its due steps are taken. -/
def Chip.boundaryMet (c : Chip) (n k : Nat) (mr4 : Option Bool) : Chip :=
  (c.setDmcCh n { c.dmcCh n with
    hot := (c.dmcCh n).hotAfter k mr4, silent := if mr4.isNone then (c.dmcCh n).silent + 1 else 0,
    nudges := (c.dmcCh n).nudges.filter fun e => e.1 / 20 != k }).wrB (DMC_CH_STAT_TEMP_2X n) (!((c.dmcCh n).hotAfter k mr4).isEmpty)

theorem Chip.refresh_eq {k : Nat} (mr4 : Option Bool) (h : c.chState n = chActive) :
    c.refresh n k mr4 = (if (c.boundaryMet n k mr4).percRuns
      then (c.boundaryMet n k mr4).each ((c.dmcCh n).nudges.filter fun e => e.1 / 20 == k) fun c e => c.nudge n e.1 e.2
      else c.boundaryMet n k mr4).when (4 ≤ if mr4.isNone then (c.dmcCh n).silent + 1 else 0) (·.chFailing n 8) := if_neg (not_not.2 h)

theorem Chip.dmcCh_boundaryMet (k : Nat) (mr4 : Option Bool) :
    ((c.boundaryMet n k mr4).dmcCh n).silent = (if mr4.isNone then (c.dmcCh n).silent + 1 else 0)
      ∧ ((c.boundaryMet n k mr4).dmcCh n).nudges = (c.dmcCh n).nudges.filter fun e => e.1 / 20 != k := by
  unfold Chip.boundaryMet
  have hdmc : ∀ (d : Chip) (b : Bool), (d.wrB (DMC_CH_STAT_TEMP_2X n) b).dmcCh n = d.dmcCh n := fun d b => Chip.dmcCh_of_dmc (Chip.wr_dmc _ _ _) n
  rw [hdmc, Chip.dmcCh_setDmcCh, if_pos rfl]
  exact ⟨rfl, rfl⟩

/-- The steps that are taken at a boundary, and a failure for it, leave what the boundary has counted and the shown rate. -/
theorem Chip.refresh_keeps {k : Nat} (mr4 : Option Bool) (hn : n < 8) (h : c.chState n = chActive) :
    ((c.refresh n k mr4).dmcCh n).silent = ((c.boundaryMet n k mr4).dmcCh n).silent
      ∧ ((c.refresh n k mr4).dmcCh n).nudges = ((c.boundaryMet n k mr4).dmcCh n).nudges
      ∧ (c.refresh n k mr4).on (DMC_CH_STAT_TEMP_2X n) = (c.boundaryMet n k mr4).on (DMC_CH_STAT_TEMP_2X n) := by
  rw [c.refresh_eq n mr4 h]
  generalize (c.boundaryMet n k mr4) = b
  generalize hl : ((c.dmcCh n).nudges.filter fun e => e.1 / 20 == k) = l
  have hstep : ∀ d : Chip, d = (if b.percRuns then b.each l fun c e => c.nudge n e.1 e.2 else b) →
      d.dmc = b.dmc ∧ d.cell (DMC_CH_STAT n).off = b.cell (DMC_CH_STAT n).off := by
    rintro d rfl
    split
    · exact ⟨Chip.each_keeps Chip.dmc _ _ (fun c e _ => c.nudge_dmc n e.1 e.2) b,
        Chip.each_keeps (fun c => c.cell (DMC_CH_STAT n).off) _ _ (fun c e _ => c.cell_nudge n e.1 e.2 hn) b⟩
    · exact ⟨rfl, rfl⟩
  generalize (if b.percRuns then b.each l fun c e => c.nudge n e.1 e.2 else b) = d at hstep ⊢
  obtain ⟨hdmc, hcell⟩ := hstep d rfl
  obtain ⟨hs, hnu⟩ := d.dmcCh_chFailing n 8
  rw [← Chip.dmcCh_of_dmc hdmc n]
  exact ⟨Chip.when_keeps (fun c => (c.dmcCh n).silent) d _ hs, Chip.when_keeps (fun c => (c.dmcCh n).nudges) d _ hnu,
    (Chip.when_keeps (fun c => c.on (DMC_CH_STAT_TEMP_2X n)) d _ (Chip.on_of_cell (Chip.chFailing_cell _ _ _ _))).trans (Chip.on_of_cell hcell)⟩

/-! ### The patrol scrub -/

/-- The smallest DIMM depends on the states and the sizes of the channels. -/
theorem Chip.sGib_congr {c d : Chip} (hst : ∀ m < 8, d.chState m = c.chState m) (hsize : ∀ m < 8, d.rd (DMC_CH_DIMM_SIZE_GIB m) = c.rd (DMC_CH_DIMM_SIZE_GIB m)) :
    d.sGib = c.sGib := by
  have hen : d.enabledChans = c.enabledChans := List.filter_congr fun m hm => by rw [Chip.chEnabled, Chip.chEnabled, hst m (List.mem_range.1 hm)]
  have hmap : (c.enabledChans.map fun n => d.rd (DMC_CH_DIMM_SIZE_GIB n)) = c.enabledChans.map fun n => c.rd (DMC_CH_DIMM_SIZE_GIB n) :=
    List.map_congr_left fun m hm => hsize m (List.mem_range.1 (List.mem_filter.1 hm).1)
  unfold Chip.sGib
  rw [hen, hmap]

theorem Chip.scrub_advances {found : Option (Option Nat)} (hfound : ∀ d, found = some (some d) → d < 10) (h : c.chState n = chActive) :
    ((c.scrubRead n found).dmcCh n).scrub = ((c.dmcCh n).scrub + 64) % max 64 (c.sGib * 2 ^ 30) := by
  unfold Chip.scrubRead
  rw [if_neg (not_not.2 h)]
  extract_lets x c1
  rw [Chip.dmcCh_setDmcCh, if_pos rfl]
  have hs : c1.sGib = c.sGib := by
    cases found with
    | none => rfl
    | some dev =>
      have hcell := fun m hm o ho => c.cell_eccError (caToPa n x.scrub) dev true (m := m) (o := o) hm ho fun d hd => hfound d (congrArg some hd)
      exact Chip.sGib_congr (fun m hm => Chip.rd_of_cell (hcell m hm _ (.inl rfl))) fun m hm => Chip.rd_of_cell (hcell m hm _ (.inr rfl))
  exact congrArg (fun g => (x.scrub + 64) % max 64 (g * 2 ^ 30)) hs

/-! ### Parity errors -/

/-- The channel as an alert leaves it, before it may fail. -/
def Chip.alerted (c : Chip) (n k : Nat) : Chip :=
  ((c.inc (DMC_ALERT_COUNT_COUNT n)).set DMC_STATUS_ALERT).setDmcCh n { c.dmcCh n with replays := k }

theorem Chip.parityAlert_eq (inReplay : Bool) (h : c.chState n = chActive) :
    c.parityAlert n inReplay = (c.alerted n (if inReplay then (c.dmcCh n).replays + 1 else 1)).when
      (3 < if inReplay then (c.dmcCh n).replays + 1 else 1) (·.chFailing n 5) :=
  if_neg (by rw [Chip.chWorks, h]; exact Bool.false_ne_true)

theorem Chip.alerted_shows (k : Nat) (hn : n < 8) : (c.alerted n k).on DMC_STATUS_ALERT = true
    ∧ (c.alerted n k).rd (DMC_ALERT_COUNT_COUNT n) = min (2 ^ 32 - 1) (c.rd (DMC_ALERT_COUNT_COUNT n) + 1)
    ∧ (c.alerted n k).chState n = c.chState n := by
  have hcount : (DMC_ALERT_COUNT_COUNT n).off = 0x14101c + 4096 * n := rfl
  have hstate : (DMC_CH_STAT_STATE n).off = 0x141000 + 4096 * n := rfl
  have hs : DMC_STATUS_ALERT.off = 0x140000 := rfl
  refine ⟨Chip.on_set_same (c.inc _) rfl Nat.one_ne_zero, ?_, ?_⟩
  · refine (Chip.rd_set_keeps (c.inc _) (Fld.apart_of_off (by omega))).trans ((Chip.rd_inc_same _ rfl).trans rfl)
  · exact (Chip.rd_set_keeps (c.inc _) (Fld.apart_of_off (by omega))).trans (Chip.rd_inc_keeps _ (Fld.apart_of_off (by omega)))

theorem Chip.chFailing_fails {c : Chip} {n : Nat} (cause : Nat) (hcause : cause ≠ 0) (h : c.chState n = chActive) :
    ((c.chFailing n cause).dmcCh n).failing ≠ 0 := by
  unfold Chip.chFailing
  by_cases h0 : (c.dmcCh n).failing = 0
  · rw [if_pos (by rw [Chip.chWorks, h, h0]; rfl), Chip.dmcCh_setDmcCh, if_pos rfl]
    exact hcause
  · rw [if_neg (by simp [h0])]
    exact h0

end

/-- What a parity alert leaves: it is flagged and counted, and the fourth replay fails the channel. -/
theorem Chip.parityAlert_shows (c : Chip) (n : Nat) (hn : n < 8) (h : c.chState n = chActive) (inReplay : Bool) :
    (c.parityAlert n inReplay).on DMC_STATUS_ALERT = true
      ∧ (c.parityAlert n inReplay).rd (DMC_ALERT_COUNT_COUNT n) = min (2 ^ 32 - 1) (c.rd (DMC_ALERT_COUNT_COUNT n) + 1)
      ∧ (inReplay = true → 3 ≤ (c.dmcCh n).replays → ((c.parityAlert n inReplay).dmcCh n).failing ≠ 0) := by
  obtain ⟨hflag, hcount, hstate⟩ := c.alerted_shows n (if inReplay then (c.dmcCh n).replays + 1 else 1) hn
  have hcell : ∀ o, (c.parityAlert n inReplay).cell o = (c.alerted n (if inReplay then (c.dmcCh n).replays + 1 else 1)).cell o := fun o => by
    rw [c.parityAlert_eq n inReplay h]
    exact Chip.when_keeps (fun c => c.cell o) _ _ (Chip.chFailing_cell _ _ _ _)
  refine ⟨(Chip.on_of_cell (hcell _)).trans hflag, (Chip.rd_of_cell (hcell _)).trans hcount, ?_⟩
  rintro rfl hreplays
  rw [c.parityAlert_eq n true h, if_pos rfl, decide_eq_true (show 3 < (c.dmcCh n).replays + 1 by omega), Chip.when_true]
  exact Chip.chFailing_fails 5 (by decide) (hstate.trans h)

theorem Chip.on_diagUe (c : Chip) : c.diagUe.on TWN_DIAG_DRAM_UE = true := by
  have hregs : c.diagUe.regs = (c.set TWN_DIAG_DRAM_UE).regs := by
    unfold Chip.diagUe
    dsimp only
  rw [Chip.on_of_cell (Chip.cell_of_regs hregs _)]
  exact Chip.on_set_same _ rfl Nat.one_ne_zero

theorem Chip.readEcc_ue (c : Chip) (pa : Nat) (h : c.chState (paChan pa) = chActive) :
    (c.readEcc pa none).on DMC_STATUS_UE = true ∧ (c.readEcc pa none).on TWN_DIAG_DRAM_UE = true
      ∧ (c.readEcc pa none).rd (DMC_UE_COUNT_COUNT (paChan pa)) = min (2 ^ 32 - 1) (c.rd (DMC_UE_COUNT_COUNT (paChan pa)) + 1) := by
  have heq : c.readEcc pa none = (c.eccError pa none false).diagUe := if_pos h
  obtain ⟨hcount, hflag⟩ := c.eccError_ue pa false
  have hue := DMC_UE_COUNT_off (paChan pa)
  have hlt : paChan pa < 8 := Chip.paChan_lt
  have hpage : (DMC_UE_COUNT_COUNT (paChan pa)).off / 65536 = 20 := by omega
  have hwithin : Chip.Within [112] [.twn] (c.eccError pa none false) (c.eccError pa none false).diagUe :=
    Chip.diagUe_within .refl (by decide) (by decide)
  rw [heq]
  exact ⟨(hwithin.on (by decide)).trans hflag, Chip.on_diagUe _, (hwithin.rd (by rw [hpage]; decide)).trans hcount⟩

theorem Chip.readEcc_ce (c : Chip) (pa d : Nat) (hd : d < 10) (h : c.chState (paChan pa) = chActive) :
    (c.readEcc pa (some d)).on DMC_STATUS_CE = true
      ∧ (c.readEcc pa (some d)).rd (DMC_CE_COUNT_COUNT (paChan pa)) = min (2 ^ 32 - 1) (c.rd (DMC_CE_COUNT_COUNT (paChan pa)) + 1)
      ∧ (c.readEcc pa (some d)).rd (DMC_UE_COUNT_COUNT (paChan pa)) = c.rd (DMC_UE_COUNT_COUNT (paChan pa)) := by
  have heq : c.readEcc pa (some d) = c.eccError pa (some d) false := if_pos h
  obtain ⟨hcount, hflag, hue⟩ := c.eccError_ce pa d false hd
  rw [heq]
  exact ⟨hflag, hcount, hue⟩

/-- Settles O39: what a row counts is written once, and what may follow it (a failed channel, a degraded device) is in other registers. -/
theorem memoryEvents : Obligations.MemoryEvents := by
  unfold Obligations.MemoryEvents
  refine ⟨?_, ?_, ?_, ?_, ?_, ?_⟩
  · rintro s t n k mr4 c rfl hlive hst
    obtain ⟨hsilent, hnudges, hhot⟩ := (s.chipAt t).refresh_keeps n.val (k := k.val) mr4 n.isLt hst
    obtain ⟨hsilent', hnudges'⟩ := (s.chipAt t).dmcCh_boundaryMet n.val k.val mr4
    refine ⟨_, State.event_live s t _ hlive, hsilent.trans hsilent', ?_, ?_⟩
    · rintro rfl
      exact hhot.trans (Chip.on_wrB_same _ _ rfl Nat.one_ne_zero)
    · exact (congrArg (List.all · fun e => e.1 / 20 != k.val) (hnudges.trans hnudges')).trans
        (List.all_eq_true.2 fun e he => (List.mem_filter.1 he).2)
  · rintro s t n k ms c rfl hready hst hbudget
    refine ⟨_, State.fwStep_ready s t _ hready, fun d => ?_⟩
    have hget : (ms.map BitVec.toNat).getD d.val 0 = (ms.getD d.val 0).toNat := by
      rw [List.getD_eq_getElem?_getD, List.getD_eq_getElem?_getD, List.getElem?_map]
      cases ms[d.val]? <;> rfl
    cases hrange : passRange (ms.getD d.val 0).toNat with
    | none => simp
    | some e =>
      by_cases hzero : (ms.getD d.val 0).toNat = 0
      · rw [hzero]
        rfl
      · have hruns : (s.chipAt t).percRuns = true := by
          rw [Chip.percRuns, hready]
          simpa using hbudget
        have hm : (ms.map BitVec.toNat).getD d.val 0 % 2 ^ 33 ≠ 0 := by
          rw [hget, Nat.mod_eq_of_lt (ms.getD d.val 0).isLt]
          exact hzero
        have hwidth := (s.chipAt t).sweep_width n.val (ms.map BitVec.toNat) n.isLt k.isLt hst hruns d.isLt hm (by rw [hget]; exact hrange)
        simp only [Option.all_some, Bool.or_eq_true, beq_iff_eq]
        exact .inr hwidth
  · rintro s t pa c rfl hlive hst
    exact ⟨_, State.event_live s t _ hlive, (s.chipAt t).readEcc_ue pa.toNat hst⟩
  · rintro s t pa dev c rfl hlive hst
    exact ⟨_, State.event_live s t _ hlive, (s.chipAt t).readEcc_ce pa.toNat dev.val dev.isLt hst⟩
  · rintro s t n found c rfl hlive hst
    refine ⟨_, State.event_live s t _ hlive, (s.chipAt t).scrub_advances n.val (fun d hd => ?_) hst⟩
    cases found with
    | none => exact absurd hd (by simp)
    | some dev =>
      cases dev with
      | none => exact absurd hd (by simp)
      | some x =>
        have hx : x.val = d := by simpa using hd
        exact hx ▸ x.isLt
  · rintro s t n inReplay c rfl hlive hst
    exact ⟨_, State.event_live s t _ hlive, (s.chipAt t).parityAlert_shows n.val n.isLt hst inReplay⟩

end Sys2Proof.Machine
end

section
/-! SUPPORT. The SDI receivers: trials, lock and loss, line checks and ancillary data (R281 to R289). -/

namespace Sys2Proof.Machine

section
variable (c : Chip) (n : Nat)

/-- The registers of an SDI lane stand on page 32. -/
theorem sdi_page {o : Nat} (hn : n < 48) (hlo : 0x200000 ≤ o) (hhi : o < 0x210000) : o / 65536 = 32 := by omega

/-- The judgement of a source changes neither the registers of the SDI ports nor their lanes. -/
theorem Chip.judgeSrc_rd_sdi (hn : n < 48) {f : Fld} (hf : f.off / 65536 = 32) : (c.judgeSrc n).rd f = c.rd f :=
  (Chip.judgeSrc_within (by omega) .refl (by decide) (by decide) : Chip.Within [1, 8, 12, 64] [.srcs] c _).rd (by rw [hf]; decide)

theorem Chip.huntNext_bonded (hst : c.rxState n = 1) (hb : c.bondedRx n = true) : ((c.huntNext n).sdiLane n).trial = 3 := by
  unfold Chip.huntNext
  rw [if_neg (not_not_intro hst)]
  simp [hb]

theorem Chip.huntNext_alone (hst : c.rxState n = 1) (hb : c.bondedRx n = false) :
    ((c.huntNext n).sdiLane n).trial = if (c.sdiLane n).trial ≤ 1 then c.rd (SDI_RX_CTL_MAX_CLASS n) else (c.sdiLane n).trial - 1 := by
  unfold Chip.huntNext
  rw [if_neg (not_not_intro hst)]
  simp [hb]

theorem Chip.huntNext_regs : (c.huntNext n).regs = c.regs := by
  unfold Chip.huntNext
  split <;> rfl

/-- What a lane that locks shows, before its source is judged. -/
def Chip.rxLocked (c : Chip) (n rate : Nat) (levelB : Bool) : Chip :=
  (((((c.wr (SDI_RX_STAT_STATE n) 2).wr (SDI_RX_STAT_RATE n) rate).wrB (SDI_RX_STAT_LEVEL_B n) (levelB && rateClass rate == 3)).inc
    (SDI_RX_LOCKS_LOCKS n)).set SDI_STATUS_LOCK).post 0x08 0x0001 n rate

theorem Chip.rxLock_eq (rate : Nat) (levelB : Bool) (hst : c.rxState n = 1) (hclass : rateClass rate = (c.sdiLane n).trial)
    (hcarrier : c.on (SDI_RX_CTL_CARRIER_GATE n) = true → c.on (SDI_RX_STAT_CARRIER n) = true) :
    c.rxLock n rate levelB = (c.rxLocked n rate levelB).judgeSrc n := by
  unfold Chip.rxLock
  rw [if_neg]
  · rfl
  · rintro (h | h | ⟨hgate, hno⟩)
    · exact h hst
    · exact h hclass
    · rw [hcarrier hgate] at hno
      contradiction

theorem Chip.rxLocked_shows (rate : Nat) (levelB : Bool) (hrate : rate < 16) :
    (c.rxLocked n rate levelB).rd (SDI_RX_STAT_STATE n) = 2 ∧ (c.rxLocked n rate levelB).rd (SDI_RX_STAT_RATE n) = rate
      ∧ (c.rxLocked n rate levelB).on (SDI_RX_STAT_LEVEL_B n) = (levelB && rateClass rate == 3)
      ∧ (c.rxLocked n rate levelB).rd (SDI_RX_LOCKS_LOCKS n) = min (2 ^ (SDI_RX_LOCKS_LOCKS n).w - 1) (c.rd (SDI_RX_LOCKS_LOCKS n) + 1)
      ∧ (c.rxLocked n rate levelB).on SDI_STATUS_LOCK = true := by
  unfold Chip.rxLocked
  refine ⟨?_, ?_, ?_, ?_, ?_⟩
  all_goals
    simp (disch := grind [Fld.apart, Fld.fits_iff, Reg.fld, SDI_RX_STAT, SDI_RX_STAT_STATE, SDI_RX_STAT_RATE, SDI_RX_STAT_LEVEL_B, SDI_RX_LOCKS,
      SDI_RX_LOCKS_LOCKS, SDI_STATUS, SDI_STATUS_LOCK]) [Chip.rd_post, Chip.on_post, Chip.rd_wr_lt, Chip.on_wrB_same, Chip.on_set_same, Chip.rd_inc_same]

/-- What a lane that loses its signal counts and flags. -/
def Chip.rxLost (c : Chip) (n : Nat) : Chip :=
  let c := ((c.inc (SDI_RX_LOCKS_LOS n)).set (SDI_RX_STAT_LOS_SEEN n)).set SDI_STATUS_LOS
  c.post 0x08 0x0002 n (c.rd (SDI_RX_LOCKS_LOS n))

theorem Chip.rxLos_eq (hst : c.rxState n = 2) : c.rxLos n = (c.rxLost n).rxHunt n := if_neg (not_not_intro hst)

theorem Chip.rxLost_shows (hn : n < 48) :
    (c.rxLost n).on (SDI_RX_STAT_LOS_SEEN n) = true ∧ (c.rxLost n).on SDI_STATUS_LOS = true
      ∧ (c.rxLost n).rd (SDI_RX_LOCKS_LOS n) = min (2 ^ (SDI_RX_LOCKS_LOS n).w - 1) (c.rd (SDI_RX_LOCKS_LOS n) + 1)
      ∧ (c.rxLost n).rd (SDI_RX_CTL_MAX_CLASS n) = c.rd (SDI_RX_CTL_MAX_CLASS n) ∧ (c.rxLost n).domOn (domSdiRx n) = c.domOn (domSdiRx n) := by
  unfold Chip.rxLost Chip.domOn Chip.dom domSdiRx
  dsimp only
  refine ⟨?_, ?_, ?_, ?_, ?_⟩
  all_goals
    simp (disch := grind [Fld.apart, Fld.fits_iff, Reg.fld, SDI_RX_STAT, SDI_RX_STAT_LOS_SEEN, SDI_RX_LOCKS, SDI_RX_LOCKS_LOS, SDI_STATUS, SDI_STATUS_LOS,
      SDI_RX_CTL, SDI_RX_CTL_MAX_CLASS, PWR_DOM_CTL, PWR_DOM_CTL_CUR]) [Chip.rd_post, Chip.on_post, Chip.on_set_same, Chip.rd_inc_same]

/-- What hunting writes to the registers of the lane. -/
def Chip.rxHunting (c : Chip) (n : Nat) (on : Bool) : Chip :=
  ((c.wr (SDI_RX_STAT_STATE n) (b2n on)).wr (SDI_RX_STAT_RATE n) 0).clr (SDI_RX_STAT_LEVEL_B n)

theorem Chip.rd_rxHunt (hn : n < 48) {f : Fld} (hf : f.off / 65536 = 32) :
    (c.rxHunt n).rd f = (c.rxHunting n (c.rd (SDI_RX_CTL_MAX_CLASS n) != 0 && c.domOn (domSdiRx n))).rd f := by
  have hdet : (FSY_SRC_STAT_DET_FORMAT n).off = 0xc2000 + 4 * n := rfl
  unfold Chip.rxHunt
  dsimp only
  rw [Chip.judgeSrc_rd_sdi _ _ hn hf, Chip.rd_of_cell (Chip.cell_of_regs (Chip.setSrc_regs ..) _), Chip.rd_wr_other _ _ _ _ (by omega),
    Chip.rd_of_cell (Chip.cell_of_regs (Chip.setSdiLane_regs ..) _), Chip.rxHunting]

theorem Chip.rxHunting_shows (on : Bool) :
    (c.rxHunting n on).rd (SDI_RX_STAT_STATE n) = b2n on ∧ (c.rxHunting n on).rd (SDI_RX_STAT_RATE n) = 0
      ∧ (c.rxHunting n on).rd (SDI_RX_STAT_LOS_SEEN n) = c.rd (SDI_RX_STAT_LOS_SEEN n)
      ∧ (c.rxHunting n on).rd SDI_STATUS_LOS = c.rd SDI_STATUS_LOS ∧ (c.rxHunting n on).rd (SDI_RX_LOCKS_LOS n) = c.rd (SDI_RX_LOCKS_LOS n) := by
  have hon : b2n on < 2 := by cases on <;> decide
  unfold Chip.rxHunting
  refine ⟨?_, ?_, ?_, ?_, ?_⟩
  all_goals
    simp (disch := grind [Fld.apart, Fld.fits_iff, Reg.fld, SDI_RX_STAT, SDI_RX_STAT_STATE, SDI_RX_STAT_RATE, SDI_RX_STAT_LEVEL_B,
      SDI_RX_STAT_LOS_SEEN, SDI_RX_LOCKS, SDI_RX_LOCKS_LOS, SDI_STATUS, SDI_STATUS_LOS]) [Chip.rd_wr_lt]

/-! ### The checks of a LOCKED lane -/

theorem Chip.cdrMargins_eq (low : Nat) (h : c.ready = true) :
    c.cdrMargins low = c.each ((List.range 48).filter fun n => bit low n && c.rxState n == 2) fun c n =>
      (c.set (SDI_RX_STAT_CDR_MARGIN_LOW n)).set SDI_STATUS_CDR_MARGIN_LOW := by
  unfold Chip.cdrMargins
  rw [h]
  rfl

/-- A lane's margin flag is set where the lane is in the list, and else stays. -/
theorem Chip.on_marginLow (l : List Nat) (k : Nat) :
    (c.each l fun c n => (c.set (SDI_RX_STAT_CDR_MARGIN_LOW n)).set SDI_STATUS_CDR_MARGIN_LOW).on (SDI_RX_STAT_CDR_MARGIN_LOW k)
      = (c.on (SDI_RX_STAT_CDR_MARGIN_LOW k) || l.contains k) := by
  induction l generalizing c with
  | nil => simp
  | cons m l ih =>
    rw [Chip.each_cons, ih]
    by_cases hm : k = m
    · subst hm
      simp (disch := grind [Fld.apart, Fld.fits_iff, Reg.fld, SDI_RX_STAT, SDI_RX_STAT_CDR_MARGIN_LOW, SDI_STATUS, SDI_STATUS_CDR_MARGIN_LOW])
        [Chip.on_set_same]
    · simp (disch := grind [Fld.apart, Fld.fits_iff, Reg.fld, SDI_RX_STAT, SDI_RX_STAT_CDR_MARGIN_LOW, SDI_STATUS, SDI_STATUS_CDR_MARGIN_LOW]) [hm]

/-- What a line in error counts and flags. -/
def Chip.lineBad (c : Chip) (n : Nat) (edh : Bool) : Chip :=
  let c := ((c.inc (SDI_RX_CRC_COUNT n)).set (SDI_RX_STAT_CRC_SEEN n)).set SDI_STATUS_CRC
  let c := c.setSrc n { c.src n with errs := (c.src n).errs + 1 }
  c.when edh (·.set (SDI_RX_STAT_EDH_ABSENT n))

theorem Chip.lineCheck_eq (error noEdh : Bool) (hst : c.rxState n = 2)
    (h : (error || (noEdh && c.rd (SDI_RX_STAT_RATE n) == 1)) = true) :
    c.lineCheck n error noEdh = c.lineBad n (noEdh && c.rd (SDI_RX_STAT_RATE n) == 1) := by
  unfold Chip.lineCheck
  dsimp only
  rw [if_neg]
  · rfl
  · rintro (hne | hno)
    · exact hne hst
    · rw [h] at hno
      contradiction

theorem Chip.lineBad_shows (edh : Bool) :
    (c.lineBad n edh).on (SDI_RX_STAT_CRC_SEEN n) = true ∧ (c.lineBad n edh).on SDI_STATUS_CRC = true
      ∧ (c.lineBad n edh).rd (SDI_RX_CRC_COUNT n) = min (2 ^ (SDI_RX_CRC_COUNT n).w - 1) (c.rd (SDI_RX_CRC_COUNT n) + 1)
      ∧ (c.lineBad n edh).on (SDI_RX_STAT_EDH_ABSENT n) = (c.on (SDI_RX_STAT_EDH_ABSENT n) || edh) := by
  unfold Chip.lineBad
  dsimp only
  refine ⟨?_, ?_, ?_, ?_⟩
  all_goals
    cases edh
    all_goals
      simp -implicitDefEqProofs (disch := grind [Fld.apart, Fld.fits_iff, Reg.fld, SDI_RX_STAT, SDI_RX_STAT_CRC_SEEN, SDI_RX_STAT_EDH_ABSENT, SDI_RX_CRC, SDI_RX_CRC_COUNT,
        SDI_STATUS, SDI_STATUS_CRC]) [Chip.rd_when, Chip.on_when, Chip.on_set_same, Chip.rd_inc_same]

/-! ### Ancillary data -/

/-- The payload ID found on a lane, or none, and its time code. -/
def Chip.ancFound (c : Chip) (n : Nat) (pid : Option Nat) (kind tc : Nat) : Chip :=
  let c := match pid with
    | some v => (c.put (SDI_RX_PID n) v).set (SDI_RX_STAT_PID_VALID n)
    | none => c.clr (SDI_RX_STAT_PID_VALID n)
  (c.wr (SDI_RX_STAT_TC_KIND n) kind).when (kind != 0) (·.put (SDI_RX_TC n) tc)

/-- The groups with audio that is not de-embedded, of which `fresh` are new. -/
def Chip.ancGroups (c : Chip) (n bad fresh : Nat) : Chip :=
  (c.setSdiLane n { c.sdiLane n with unsup := bad }).when (fresh != 0) fun c =>
    ((c.set (SDI_RX_STAT_AUD_UNSUPPORTED n)).set SDI_STATUS_AUD_UNSUPPORTED).post 0x08 0x0004 n bad

theorem Chip.ancCapture_eq (pid : Option Nat) (kind tc groups : Nat) (hst : c.rxState n = 2) :
    c.ancCapture n pid kind tc groups
      = (c.ancFound n pid kind tc).ancGroups n (groups &&& (c.ancFound n pid kind tc).audGroups n)
          ((groups &&& (c.ancFound n pid kind tc).audGroups n) &&& (0xFF ^^^ ((c.ancFound n pid kind tc).sdiLane n).unsup)) :=
  if_neg (not_not_intro hst)

theorem Chip.ancFound_shows (pid : Option Nat) (kind tc : Nat) (hkind : kind < 4) :
    (c.ancFound n pid kind tc).on (SDI_RX_STAT_PID_VALID n) = pid.isSome
      ∧ (c.ancFound n pid kind tc).get (SDI_RX_PID n) = (match pid with | some v => v % 2 ^ 32 | none => c.get (SDI_RX_PID n))
      ∧ (c.ancFound n pid kind tc).rd (SDI_RX_STAT_TC_KIND n) = kind
      ∧ (c.ancFound n pid kind tc).get (SDI_RX_TC n) = (if kind = 0 then c.get (SDI_RX_TC n) else tc % 2 ^ 32)
      ∧ (c.ancFound n pid kind tc).rd (SDI_RX_STAT_RATE n) = c.rd (SDI_RX_STAT_RATE n) := by
  unfold Chip.ancFound
  dsimp only
  refine ⟨?_, ?_, ?_, ?_, ?_⟩
  all_goals
    cases pid
    all_goals
      by_cases hk : kind = 0
      all_goals
        simp (disch := grind [Fld.apart, Fld.fits_iff, Reg.fld, SDI_RX_STAT, SDI_RX_STAT_PID_VALID, SDI_RX_STAT_TC_KIND, SDI_RX_STAT_RATE,
          SDI_RX_PID, SDI_RX_TC]) [hk, Chip.rd_when, Chip.on_when, Chip.get_when, Chip.on_set_same, Chip.on_clr_same, Chip.rd_wr_lt,
          Chip.rd_put_other, Chip.on_put_other, Chip.get_put_other, Chip.get_put_same, Chip.get_wr_other]

/-- The ancillary data of a lane stand in three of its registers. -/
theorem Chip.cell_ancFound (pid : Option Nat) (kind tc : Nat) {o : Nat} (ho : o < 0x201100) : (c.ancFound n pid kind tc).cell o = c.cell o := by
  have hstat : (SDI_RX_STAT n).off = 0x201100 + 4 * n := rfl
  have hpid : (SDI_RX_PID n).off = 0x201400 + 4 * n := rfl
  have htc : (SDI_RX_TC n).off = 0x201500 + 4 * n := rfl
  unfold Chip.ancFound
  refine (Chip.when_keeps (·.cell o) _ _ (Chip.cell_put_other _ _ _ _ (by omega))).trans ?_
  refine (Chip.cell_wr_other _ _ _ _ (by change (SDI_RX_STAT n).off ≠ o; omega)).trans ?_
  cases pid with
  | none => exact Chip.cell_wr_other _ _ _ _ (by change (SDI_RX_STAT n).off ≠ o; omega)
  | some v =>
    exact (Chip.cell_wr_other _ _ _ _ (by change (SDI_RX_STAT n).off ≠ o; omega)).trans (Chip.cell_put_other _ _ _ _ (by omega))

theorem Chip.ancGroups_regs_other (bad fresh : Nat) {f : Fld} (hs : SDI_STATUS.off ≠ f.off) (ha : (SDI_RX_STAT_AUD_UNSUPPORTED n).apart f = true)
    (hp : f.off / 65536 ≠ 1) : (c.ancGroups n bad fresh).rd f = c.rd f := by
  refine (Chip.when_keeps (·.rd f) _ _ ?_).trans (Chip.setSdiLane_rd ..)
  exact (Chip.rd_post _ _ _ _ _ _ hp).trans ((Chip.rd_set_keeps _ (Fld.apart_of_off hs)).trans (Chip.rd_set_keeps _ ha))

theorem Chip.ancGroups_get_other (bad fresh : Nat) {r : Reg} (hs : SDI_STATUS.off ≠ r.off) (ha : (SDI_RX_STAT n).off ≠ r.off)
    (hp : r.off / 65536 ≠ 1) : (c.ancGroups n bad fresh).get r = c.get r := by
  refine (Chip.when_keeps (·.get r) _ _ ?_).trans (Chip.setSdiLane_get ..)
  exact (Chip.get_post _ _ _ _ _ _ hp).trans ((Chip.get_set_other _ hs).trans (Chip.get_set_other _ ha))

theorem Chip.ancGroups_unsup (bad fresh : Nat) : ((c.ancGroups n bad fresh).sdiLane n).unsup = bad := by
  have hkeep (b : Bool) (c : Chip) : ((c.when b fun c =>
      ((c.set (SDI_RX_STAT_AUD_UNSUPPORTED n)).set SDI_STATUS_AUD_UNSUPPORTED).post 0x08 0x0004 n bad).sdiLane n) = c.sdiLane n := by
    refine Chip.when_keeps (·.sdiLane n) _ _ ?_
    simp [Chip.sdiLane, Chip.set_def]
  rw [Chip.ancGroups, hkeep, Chip.sdiLane_setSdiLane, if_pos rfl]

/-- The groups de-embedded from a lane follow its rate code and its bond. -/
theorem Chip.audGroups_ancFound (pid : Option Nat) (kind tc : Nat) (hkind : kind < 4) : (c.ancFound n pid kind tc).audGroups n = c.audGroups n := by
  have hrate := (c.ancFound_shows n pid kind tc hkind).2.2.2.2
  have hbond : n < 48 → (c.ancFound n pid kind tc).on (SDI_RX_CTL_BOND (n / 4 * 4)) = c.on (SDI_RX_CTL_BOND (n / 4 * 4)) := by
    intro hn
    refine Chip.on_of_cell ?_
    have hctl : (SDI_RX_CTL_BOND (n / 4 * 4)).off = 0x201000 + 4 * (n / 4 * 4) := rfl
    exact c.cell_ancFound n pid kind tc (by omega)
  unfold Chip.audGroups Chip.bondedRx
  by_cases hn : n < 48
  · rw [hrate, hbond hn]
  · rw [hrate, decide_eq_false hn, Bool.false_and, Bool.false_and]

end

/-- Settles O40: each row writes its fields once, and what follows it (the judgement of the lane's source) is off the SDI page. -/
theorem sdiReceive : Obligations.SdiReceive := by
  unfold Obligations.SdiReceive
  refine ⟨⟨?_, ?_, ?_⟩, ?_, ?_, ?_⟩
  · rintro s t lane c rfl hlive hst
    exact ⟨_, State.event_live s t _ hlive, (Chip.rd_of_cell (Chip.cell_of_regs (Chip.huntNext_regs _ _) _)).trans hst,
      (s.chipAt t).huntNext_bonded lane.val hst, (s.chipAt t).huntNext_alone lane.val hst⟩
  · rintro s t lane rate levelB c rfl hlive hst hclass hcarrier
    have heq := (s.chipAt t).rxLock_eq lane.val rate.val levelB hst hclass hcarrier
    have hkeep {f : Fld} (hf : f.off / 65536 = 32) := ((s.chipAt t).rxLocked lane.val rate.val levelB).judgeSrc_rd_sdi lane.val lane.isLt hf
    have hstat : (SDI_RX_STAT_STATE lane.val).off = 0x201100 + 4 * lane.val := rfl
    have hlocksOff : (SDI_RX_LOCKS_LOCKS lane.val).off = 0x201300 + 4 * lane.val := rfl
    obtain ⟨hstate, hrate, hlevel, hlocks, hflag⟩ := (s.chipAt t).rxLocked_shows lane.val rate.val levelB (by omega)
    refine ⟨_, State.event_live s t _ hlive, ?_⟩
    change ((s.chipAt t).rxLock lane.val rate.val levelB).rd _ = _ ∧ ((s.chipAt t).rxLock lane.val rate.val levelB).rd _ = _
      ∧ ((s.chipAt t).rxLock lane.val rate.val levelB).on _ = _ ∧ ((s.chipAt t).rxLock lane.val rate.val levelB).rd _ = _
      ∧ ((s.chipAt t).rxLock lane.val rate.val levelB).on _ = _
    rw [heq]
    exact ⟨(hkeep (by omega)).trans hstate, (hkeep (by change (SDI_RX_STAT_STATE lane.val).off / _ = _; omega)).trans hrate,
      (congrArg (· != 0) (hkeep (by change (SDI_RX_STAT_STATE lane.val).off / _ = _; omega))).trans hlevel,
      (hkeep (by omega)).trans hlocks, (congrArg (· != 0) (hkeep rfl)).trans hflag⟩
  · rintro s t lane c rfl hlive hst
    have heq := (s.chipAt t).rxLos_eq lane.val hst
    have hkeep {f : Fld} (hf : f.off / 65536 = 32) := ((s.chipAt t).rxLost lane.val).rd_rxHunt lane.val lane.isLt hf
    have hstat : (SDI_RX_STAT_STATE lane.val).off = 0x201100 + 4 * lane.val := rfl
    have hlosOff : (SDI_RX_LOCKS_LOS lane.val).off = 0x201300 + 4 * lane.val := rfl
    obtain ⟨hseen, hflag, hcount, hclass, hdom⟩ := (s.chipAt t).rxLost_shows lane.val lane.isLt
    rw [hclass, hdom] at hkeep
    obtain ⟨hstate, hrate, hseen', hflag', hcount'⟩ := ((s.chipAt t).rxLost lane.val).rxHunting_shows lane.val
      ((s.chipAt t).rd (SDI_RX_CTL_MAX_CLASS lane.val) != 0 && (s.chipAt t).domOn (domSdiRx lane.val))
    refine ⟨_, State.event_live s t _ hlive, ?_⟩
    change ((s.chipAt t).rxLos lane.val).rd _ = _ ∧ ((s.chipAt t).rxLos lane.val).rd _ = _ ∧ ((s.chipAt t).rxLos lane.val).on _ = _
      ∧ ((s.chipAt t).rxLos lane.val).on _ = _ ∧ ((s.chipAt t).rxLos lane.val).rd _ = _
    rw [heq]
    refine ⟨(hkeep (by omega)).trans (hstate.trans ?_), (hkeep (by change (SDI_RX_STAT_STATE lane.val).off / _ = _; omega)).trans hrate,
      (congrArg (· != 0) ((hkeep (by change (SDI_RX_STAT_STATE lane.val).off / _ = _; omega)).trans hseen')).trans hseen,
      (congrArg (· != 0) ((hkeep rfl).trans hflag')).trans hflag, ((hkeep (by omega)).trans hcount').trans hcount⟩
    simp [b2n]
  · rintro s t low c rfl hready
    refine ⟨_, State.fwStep_ready s t _ hready, fun n => ?_⟩
    change ((s.chipAt t).cdrMargins low.toNat).on _ = _
    rw [Chip.cdrMargins_eq _ _ hready, Chip.on_marginLow]
    have hn := n.isLt
    congr 1
    rw [Bool.eq_iff_iff]
    simp [Chip.rxState]
  · rintro s t lane error noEdh c rfl hlive hst h
    refine ⟨_, State.event_live s t _ hlive, ?_⟩
    have heq := (s.chipAt t).lineCheck_eq lane.val error noEdh hst h
    have hshow := (s.chipAt t).lineBad_shows lane.val (noEdh && (s.chipAt t).rd (SDI_RX_STAT_RATE lane.val) == 1)
    rw [← heq] at hshow
    exact hshow
  · rintro s t lane pid tcKind tc badGroups c rfl hlive hst
    have hkind : tcKind.val < 4 := by omega
    have heq := (s.chipAt t).ancCapture_eq lane.val (pid.map BitVec.toNat) tcKind.val tc.toNat badGroups.toNat hst
    have hgroups := (s.chipAt t).audGroups_ancFound lane.val (pid.map BitVec.toNat) tcKind.val tc.toNat hkind
    obtain ⟨hvalid, hpid, hkindRd, htc, -⟩ := (s.chipAt t).ancFound_shows lane.val (pid.map BitVec.toNat) tcKind.val tc.toNat hkind
    have hstat : (SDI_RX_STAT lane.val).off = 0x201100 + 4 * lane.val := rfl
    have hpidOff : (SDI_RX_PID lane.val).off = 0x201400 + 4 * lane.val := rfl
    have htcOff : (SDI_RX_TC lane.val).off = 0x201500 + 4 * lane.val := rfl
    have hstatus : SDI_STATUS.off = 0x200000 := rfl
    have hlane := lane.isLt
    refine ⟨_, State.event_live s t _ hlive, ?_⟩
    change ((s.chipAt t).ancCapture lane.val _ _ _ _).on _ = _ ∧ ((s.chipAt t).ancCapture lane.val _ _ _ _).get _ = _
      ∧ ((s.chipAt t).ancCapture lane.val _ _ _ _).rd _ = _ ∧ ((s.chipAt t).ancCapture lane.val _ _ _ _).get _ = _
      ∧ (((s.chipAt t).ancCapture lane.val _ _ _ _).sdiLane lane.val).unsup = _
    rw [heq, hgroups]
    refine ⟨?_, ?_, ?_, ?_, Chip.ancGroups_unsup ..⟩
    · refine (congrArg (· != 0) (Chip.ancGroups_regs_other _ _ _ _ ?_ ?_ ?_)).trans (hvalid.trans (by cases pid <;> rfl))
      · change _ ≠ (SDI_RX_STAT lane.val).off; omega
      · exact Fld.apart_of_clear rfl rfl
      · change (SDI_RX_STAT lane.val).off / _ ≠ _; omega
    · refine (Chip.ancGroups_get_other _ _ _ _ (by omega) (by omega) (by omega)).trans (hpid.trans ?_)
      cases pid with
      | none => rfl
      | some v => exact Nat.mod_eq_of_lt v.isLt
    · refine (Chip.ancGroups_regs_other _ _ _ _ ?_ ?_ ?_).trans hkindRd
      · change _ ≠ (SDI_RX_STAT lane.val).off; omega
      · exact Fld.apart_of_clear rfl rfl
      · change (SDI_RX_STAT lane.val).off / _ ≠ _; omega
    · refine (Chip.ancGroups_get_other _ _ _ _ (by omega) (by omega) (by omega)).trans (htc.trans ?_)
      rw [Nat.mod_eq_of_lt tc.isLt]

end Sys2Proof.Machine
end

section
/-! SUPPORT. The registers of a fabric or twin lane, and what the operations of chapter 10 write of them. -/

namespace Sys2Proof.Machine

/-! ### Where the registers of a lane stand -/

/-- The offset of the first register of a lane. -/
def lnBase (n : Nat) : Nat := if n < 48 then 0x301000 + 4 * n else 0x701000 + 4 * (n - 48)

/-- The offset is among the registers of the lanes. -/
def OnLanes (o : Nat) : Prop := (0x301000 ≤ o ∧ o < 0x301600) ∨ (0x701000 ≤ o ∧ o < 0x701600)

section
variable (n : Nat)

theorem lnCfg_eq : lnCfg n = ⟨lnBase n, 0x545228⟩ := by unfold lnCfg lnBase; split <;> rfl
theorem lnStat_eq : lnStat n = ⟨lnBase n + 0x100, 0⟩ := by
  unfold lnStat lnBase
  split <;> simp only [FAB_LN_STAT, TWN_LN_STAT, Reg.mk.injEq, and_true] <;> omega
theorem lnEq_eq : lnEq n = ⟨lnBase n + 0x200, 0⟩ := by
  unfold lnEq lnBase
  split <;> simp only [FAB_LN_EQ, TWN_LN_EQ, Reg.mk.injEq, and_true] <;> omega
theorem lnEye_eq : lnEye n = ⟨lnBase n + 0x300, 0⟩ := by
  unfold lnEye lnBase
  split <;> simp only [FAB_LN_EYE, TWN_LN_EYE, Reg.mk.injEq, and_true] <;> omega
theorem lnErr_eq : lnErr n = ⟨lnBase n + 0x400, 0⟩ := by
  unfold lnErr lnBase
  split <;> simp only [FAB_LN_ERR, TWN_LN_ERR, Reg.mk.injEq, and_true] <;> omega
theorem lnTrain_eq : lnTrain n = ⟨lnBase n + 0x500, 0⟩ := by
  unfold lnTrain lnBase
  split <;> simp only [FAB_LN_TRAIN, TWN_LN_TRAIN, Reg.mk.injEq, and_true] <;> omega

theorem onLanes_lnBase {n k : Nat} (hn : n < 50) (hk : k ≤ 0x500) : OnLanes (lnBase n + k) := by
  unfold lnBase OnLanes
  split <;> omega
end

section
variable (c : Chip) (n : Nat) {f : Fld}

/-! ### What stands beside the registers of the lanes -/

@[simp] theorem Chip.rd_lnSummary (i : Nat) (h : OnLanes f.off) : (c.lnSummary n i).rd f = c.rd f := by
  have hsum : (FAB_LN_SUMMARY.fld i 1).off = 0x300008 := rfl
  have htwn : TWN_STATUS_LANE_FAILED.off = 0x700000 := rfl
  unfold OnLanes at h
  unfold Chip.lnSummary
  split
  · exact Chip.rd_set_keeps _ (Fld.apart_of_off (by omega))
  · split
    · exact Chip.rd_set_keeps _ (Fld.apart_of_off (by omega))
    · rfl

@[simp] theorem Chip.on_lnSummary (i : Nat) (h : OnLanes f.off) : (c.lnSummary n i).on f = c.on f := congrArg (· != 0) (c.rd_lnSummary n i h)

@[simp] theorem Chip.lane_lnSummary (i k : Nat) : (c.lnSummary n i).lane k = c.lane k := by
  unfold Chip.lnSummary
  split
  · simp [Chip.lane, Chip.set_def]
  · split <;> simp [Chip.lane, Chip.set_def]

@[simp] theorem Chip.rd_lnPost (code arg : Nat) (h : OnLanes f.off) : (c.lnPost n code arg).rd f = c.rd f := by
  unfold OnLanes at h
  unfold Chip.lnPost
  split
  · exact Chip.rd_post _ _ _ _ _ _ (by omega)
  · rfl

@[simp] theorem Chip.on_lnPost (code arg : Nat) (h : OnLanes f.off) : (c.lnPost n code arg).on f = c.on f := congrArg (· != 0) (c.rd_lnPost n code arg h)

@[simp] theorem Chip.lane_lnPost (code arg k : Nat) : (c.lnPost n code arg).lane k = c.lane k := by
  unfold Chip.lnPost
  split <;> simp [Chip.lane]

@[simp] theorem Chip.rd_lnForget : (c.lnForget n).rd f = c.rd f := Chip.rd_of_cell (Chip.cell_of_regs (Chip.setLane_regs ..) _)
@[simp] theorem Chip.on_lnForget : (c.lnForget n).on f = c.on f := congrArg (· != 0) (c.rd_lnForget n)

theorem Chip.lane_lnForget (k : Nat) :
    (c.lnForget n).lane k = if k = n then { c.lane n with seen := false, bad := false, skewed := false, set_ := none } else c.lane k :=
  Chip.lane_setLane ..

/-! ### The link of a lane follows -/

theorem Chip.rd_linkShow {l : Nat} (hl : l < 48) (h : OnLanes f.off) : (c.linkShow l).rd f = c.rd f := by
  unfold OnLanes at h
  unfold Chip.linkShow
  split
  · exact Chip.rd_wr_other _ _ _ _ (by change 0x302100 + 4 * l ≠ _; omega)
  · dsimp only
    rw [Chip.rd_when, Chip.rd_post _ _ _ _ _ _ (by omega), Chip.setLink_rd, ite_self]
    simp (disch := grind [Fld.apart, Reg.fld, FAB_LK_STAT, FAB_LK_STAT_RX_UP, FAB_LK_STAT_REMAPPED, FAB_LK_STAT_RX_WIDTH, FAB_LK_STAT_TX_WIDTH,
      FAB_LK_STAT_STATE]) only [Chip.rd_wr_keeps, Chip.rd_wrB_keeps]

theorem Chip.rd_laneMoved (hn : n < 50) (h : OnLanes f.off) : (c.laneMoved n).rd f = c.rd f := by
  unfold Chip.laneMoved
  split
  next hlt =>
    unfold Chip.laneTouched
    rw [if_neg (by omega)]
    split
    · rfl
    · next l hlink =>
      exact c.rd_linkShow (Nat.lt_of_le_of_lt (Chip.linkOf_le hlink) hlt) h
  next =>
    unfold OnLanes at h
    have hstate : TWN_STATE.off = 0x70000c := rfl
    have htop : TOP_STATUS.off < 0x10000 := by decide
    have hlive (g : Fld) (hg : g.off = TWN_STATE.off ∨ g.off = TOP_STATUS.off) : g.apart f = true := Fld.apart_of_off (by omega)
    refine c.rd_twnShow f ?_
    rw [Fld.notTwnLive, hlive TWN_STATE_READY_OUT (.inl rfl), hlive TWN_STATE_LANES_UP (.inl rfl), hlive TWN_STATE_HANDOVER_PENDING (.inl rfl),
      hlive TOP_STATUS_TWIN_STATE (.inr rfl)]
    rfl

theorem Chip.on_laneMoved (hn : n < 50) (h : OnLanes f.off) : (c.laneMoved n).on f = c.on f := congrArg (· != 0) (c.rd_laneMoved n hn h)

theorem Chip.lane_laneMoved (hn : n < 50) (k : Nat) : (c.laneMoved n).lane k = c.lane k := by
  have hlanes : (c.laneMoved n).lanes = c.lanes := by
    unfold Chip.laneMoved
    split
    next h => exact (Chip.laneTouched_within h .refl (by decide) (by decide) : Chip.Within [1, 48] [.links] c _).part .lanes (by decide)
    next => exact (Chip.twnShow_within .refl (by decide) (by decide) : Chip.Within [0, 112] [] c _).part .lanes (by decide)
  rw [Chip.lane, Chip.lane, hlanes]

/-! ### An LNR, and training -/

theorem Chip.rd_lnLnr (hn : n < 50) (hf : f.off = (lnTrain n).off ∨ (f.off = (lnStat n).off ∧ (lnPolInv n).apart f = true)) : (c.lnLnr n).rd f = c.rd f := by
  have hbase : ∀ k, k ≤ 0x500 → OnLanes (lnBase n + k) := fun k hk => onLanes_lnBase hn hk
  have h := hbase 0x100
  have h' := hbase 0x500
  unfold OnLanes at h h'
  rw [lnTrain_eq, lnStat_eq] at hf
  unfold Chip.lnLnr
  dsimp only
  rw [Chip.rd_lnForget, Chip.setLane_rd]
  split
  all_goals
    simp (disch := grind [Fld.apart, Fld.fits_iff, Reg.fld, lnStat_eq, lnEq_eq, lnEye_eq, lnErr_eq, lnPolInv, FAB_STATUS, FAB_STATUS_DEFAULTS_RESTORED,
      TWN_STATUS, TWN_STATUS_DEFAULTS_RESTORED, FAB_LN_TEST, FAB_LN_TEST_CHK_SYNC]) only [Chip.rd_set_keeps, Chip.rd_when, Chip.rd_clr_keeps,
      Chip.rd_put_other, Chip.rd_wr_keeps, ite_self]

theorem Chip.lnLnr_shows (hn : n < 50) : (c.lnLnr n).on (lnPolInv n) = false ∧ (c.lnLnr n).rd ((lnErr n).fld 0 32) = 0 := by
  have hstat : OnLanes (lnBase n + 0x100) := onLanes_lnBase hn (by omega)
  have herr : OnLanes (lnBase n + 0x400) := onLanes_lnBase hn (by omega)
  have hzero : bits (0 % 2 ^ 32) 0 32 = 0 := rfl
  unfold OnLanes at hstat herr
  unfold Chip.lnLnr
  dsimp only
  rw [Chip.on_lnForget, Chip.setLane_on, Chip.rd_lnForget, Chip.setLane_rd]
  by_cases hlt : n < 48
  all_goals
    constructor
    all_goals
      simp (disch := grind [Fld.apart, Fld.fits_iff, Reg.fld, lnStat_eq, lnEq_eq, lnEye_eq, lnErr_eq, lnPolInv, FAB_STATUS,
        FAB_STATUS_DEFAULTS_RESTORED, TWN_STATUS, TWN_STATUS_DEFAULTS_RESTORED, FAB_LN_TEST, FAB_LN_TEST_CHK_SYNC]) only [Chip.rd_set_keeps,
        Chip.on_set_keeps, Chip.rd_when, Chip.on_when, Chip.rd_clr_keeps, Chip.on_clr_keeps, Chip.rd_put_other, Chip.on_put_other, Chip.rd_put_same,
        Chip.rd_wr_keeps, Chip.on_wr_keeps, Chip.on_clr_same, hlt, if_true, if_false, decide_true, decide_false, Bool.false_eq_true, hzero]

/-- A field that an LNR and the start of training leave: of the status of the lane but its polarity and state, or of its counts but the trainings. -/
def lnUntrained (n : Nat) (f : Fld) : Prop :=
  (f.off = (lnTrain n).off ∧ ((lnTrain n).fld 0 16).apart f = true)
    ∨ (f.off = (lnStat n).off ∧ (lnPolInv n).apart f = true ∧ (lnState n).apart f = true)

theorem Chip.rd_lnTrainStart (hn : n < 50) (lnr : Bool) (hf : lnUntrained n f) : (c.lnTrainStart n lnr).rd f = c.rd f := by
  have hlnr : (c.when lnr (·.lnLnr n)).rd f = c.rd f :=
    Chip.when_keeps (·.rd f) _ _ (c.rd_lnLnr n hn (hf.imp And.left fun h => ⟨h.1, h.2.1⟩))
  have hboth : ((lnTrain n).fld 0 16).apart f = true ∧ (lnState n).apart f = true := by
    obtain ⟨ho, ha⟩ | ⟨ho, -, ha⟩ := hf
    · exact ⟨ha, Fld.apart_of_off (by rw [ho, lnTrain_eq, lnState, lnStat_eq]; change lnBase n + _ ≠ lnBase n + _; omega)⟩
    · exact ⟨Fld.apart_of_off (by rw [ho, lnTrain_eq, lnStat_eq]; change lnBase n + _ ≠ lnBase n + _; omega), ha⟩
  unfold Chip.lnTrainStart
  dsimp only
  rw [Chip.rd_wr_keeps _ _ hboth.2, Chip.rd_lnForget, Chip.setLane_rd, Chip.rd_inc_keeps _ hboth.1, hlnr]

theorem Chip.on_lnTrainStart (hn : n < 50) (lnr : Bool) (hf : lnUntrained n f) : (c.lnTrainStart n lnr).on f = c.on f :=
  congrArg (· != 0) (c.rd_lnTrainStart n hn lnr hf)

theorem Chip.lnTrainStart_shows (hn : n < 50) (lnr : Bool) :
    (c.lnTrainStart n lnr).rd (lnState n) = (if c.on (lnAccepted n) then lnAcquire else lnSweep)
      ∧ (c.lnTrainStart n lnr).rd ((lnTrain n).fld 0 16) = min (2 ^ 16 - 1) (c.rd ((lnTrain n).fld 0 16) + 1) := by
  have hacc : (c.when lnr (·.lnLnr n)).rd (lnAccepted n) = c.rd (lnAccepted n) :=
    Chip.when_keeps (·.rd (lnAccepted n)) _ _ (c.rd_lnLnr n hn (.inr ⟨rfl, Fld.apart_of_clear rfl rfl⟩))
  have hcount : (c.when lnr (·.lnLnr n)).rd ((lnTrain n).fld 0 16) = c.rd ((lnTrain n).fld 0 16) :=
    Chip.when_keeps (·.rd ((lnTrain n).fld 0 16)) _ _ (c.rd_lnLnr n hn (.inl rfl))
  have hapart : ((lnTrain n).fld 0 16).apart (lnAccepted n) = true :=
    Fld.apart_of_off (by rw [lnTrain_eq, lnAccepted, lnStat_eq]; change lnBase n + _ ≠ lnBase n + _; omega)
  have hapart' : (lnState n).apart ((lnTrain n).fld 0 16) = true :=
    Fld.apart_of_off (by rw [lnTrain_eq, lnState, lnStat_eq]; change lnBase n + _ ≠ lnBase n + _; omega)
  unfold Chip.lnTrainStart
  dsimp only
  constructor
  · rw [Chip.rd_wr_lt rfl (by change _ < 16; split <;> decide), Chip.on_lnForget, Chip.setLane_on, Chip.on_inc_keeps _ hapart, Chip.on, hacc, Chip.on]
  · rw [Chip.rd_wr_keeps _ _ hapart', Chip.rd_lnForget, Chip.setLane_rd, Chip.rd_inc_same _ rfl, hcount]
    rfl

theorem Chip.lnTrainStart_lnr (hn : n < 50) :
    (c.lnTrainStart n true).on (lnPolInv n) = false ∧ (c.lnTrainStart n true).rd ((lnErr n).fld 0 32) = 0 := by
  obtain ⟨hpol, herr⟩ := c.lnLnr_shows n hn
  unfold Chip.lnTrainStart
  dsimp only
  constructor
  all_goals
    simp (disch := grind [Fld.apart, Fld.fits_iff, Reg.fld, lnStat_eq, lnErr_eq, lnTrain_eq, lnPolInv, lnState]) only [Chip.rd_wr_keeps,
      Chip.on_wr_keeps, Chip.rd_lnForget, Chip.on_lnForget, Chip.setLane_rd, Chip.setLane_on, Chip.rd_inc_keeps, Chip.on_inc_keeps, Chip.when, if_true,
      hpol, herr]

/-! ### Events of a lane -/

theorem Chip.lnSignalLost_shows (hn : n < 50) :
    (c.lnSignalLost n).rd (lnState n) = (if 3 ≤ c.rd (lnState n) ∧ c.rd (lnState n) ≤ 6 then lnNoSignal else c.rd (lnState n))
      ∧ (c.lnSignalLost n).on (lnSignal n) = false ∧ (c.lnSignalLost n).lnUsable n = false := by
  have hst : (c.clr (lnSignal n)).rd (lnState n) = c.rd (lnState n) := Chip.rd_clr_keeps _ (Fld.apart_of_clear rfl rfl)
  unfold Chip.lnSignalLost Chip.lnUsable Chip.lnSt
  dsimp only
  rw [hst]
  split
  next h =>
    refine ⟨Chip.rd_wr_lt rfl (by change 2 < 16; decide), ?_, ?_⟩
    · rw [Chip.on_wr_keeps _ _ (by exact Fld.apart_of_clear rfl rfl), Chip.on_lnForget, Chip.setLane_on]
      exact Chip.on_clr_same _ rfl
    · rw [Chip.rd_wr_lt rfl (by change 2 < 16; decide)]
      rfl
  next h =>
    refine ⟨hst, Chip.on_clr_same _ rfl, ?_⟩
    rw [hst]
    have hne : c.rd (lnState n) ≠ lnTrained := by unfold lnTrained; omega
    simp [hne]

theorem Chip.lnSignalPresent_shows (hn : n < 50) :
    (c.lnSignalPresent n).on (lnSignal n) = (c.rd (lnState n) != lnOff)
      ∧ (c.lnSignalPresent n).rd (lnState n)
          = (if c.rd (lnState n) = lnNoSignal then (if c.on (lnAccepted n) then lnAcquire else lnSweep) else c.rd (lnState n))
      ∧ (c.lnSignalPresent n).rd ((lnTrain n).fld 0 16)
          = (if c.rd (lnState n) = lnNoSignal then min (2 ^ 16 - 1) (c.rd ((lnTrain n).fld 0 16) + 1) else c.rd ((lnTrain n).fld 0 16)) := by
  have hst : (c.wrB (lnSignal n) (c.lnSt n != lnOff)).rd (lnState n) = c.rd (lnState n) := Chip.rd_wrB_keeps _ _ (Fld.apart_of_clear rfl rfl)
  have hacc : (c.wrB (lnSignal n) (c.lnSt n != lnOff)).on (lnAccepted n) = c.on (lnAccepted n) := Chip.on_wrB_keeps _ _ (Fld.apart_of_clear rfl rfl)
  have hsig : (c.wrB (lnSignal n) (c.lnSt n != lnOff)).on (lnSignal n) = (c.lnSt n != lnOff) := Chip.on_wrB_same _ _ rfl Nat.one_ne_zero
  have hcount : (c.wrB (lnSignal n) (c.lnSt n != lnOff)).rd ((lnTrain n).fld 0 16) = c.rd ((lnTrain n).fld 0 16) :=
    Chip.rd_wrB_keeps _ _ (Fld.apart_of_off (by rw [lnTrain_eq, lnSignal, lnStat_eq]; change lnBase n + _ ≠ lnBase n + _; omega))
  unfold Chip.lnSignalPresent
  dsimp only
  rw [Chip.lnSt, hst]
  split
  · obtain ⟨hstate, htrain⟩ := (c.wrB (lnSignal n) (c.lnSt n != lnOff)).lnTrainStart_shows n hn false
    refine ⟨?_, hstate.trans (by rw [hacc]), htrain.trans (by rw [hcount])⟩
    exact (Chip.on_lnTrainStart (f := lnSignal n) _ n hn false (.inr ⟨rfl, Fld.apart_of_clear rfl rfl, Fld.apart_of_clear rfl rfl⟩)).trans hsig
  · exact ⟨hsig, hst, hcount⟩

/-- What a TRAINED lane that loses lock flags, before it trains. -/
def Chip.lnUnlocked (c : Chip) (n : Nat) : Chip := ((c.set ((lnStat n).fld 16 1)).lnSummary n 0).lnPost n 0x0004 0

theorem Chip.lnUnlocked_shows (hn : n < 50) :
    (c.lnUnlocked n).on (lnAccepted n) = c.on (lnAccepted n) ∧ (c.lnUnlocked n).on ((lnStat n).fld 16 1) = true
      ∧ (c.lnUnlocked n).rd ((lnTrain n).fld 0 16) = c.rd ((lnTrain n).fld 0 16) := by
  have hstat : OnLanes (lnStat n).off := by rw [lnStat_eq]; exact onLanes_lnBase hn (by omega)
  have htrain : OnLanes (lnTrain n).off := by rw [lnTrain_eq]; exact onLanes_lnBase hn (by omega)
  unfold Chip.lnUnlocked
  refine ⟨?_, ?_, ?_⟩
  · rw [Chip.on_lnPost _ _ _ _ (by exact hstat), Chip.on_lnSummary _ _ _ (by exact hstat), Chip.on_set_keeps _ (by exact Fld.apart_of_clear rfl rfl)]
  · rw [Chip.on_lnPost _ _ _ _ (by exact hstat), Chip.on_lnSummary _ _ _ (by exact hstat)]
    exact Chip.on_set_same _ rfl Nat.one_ne_zero
  · rw [Chip.rd_lnPost _ _ _ _ (by exact htrain), Chip.rd_lnSummary _ _ _ (by exact htrain)]
    exact Chip.rd_set_keeps _ (Fld.apart_of_off (by rw [lnTrain_eq, lnStat_eq]; change lnBase n + _ ≠ lnBase n + _; omega))

theorem Chip.lnLockLost_shows (hn : n < 50) (hst : c.lnSt n = lnTrained) :
    (c.lnLockLost n).rd (lnState n) = (if c.on (lnAccepted n) then lnAcquire else lnSweep)
      ∧ (c.lnLockLost n).on ((lnStat n).fld 16 1) = true ∧ (c.lnLockLost n).on (lnPolInv n) = false ∧ (c.lnLockLost n).rd ((lnErr n).fld 0 32) = 0
      ∧ (c.lnLockLost n).rd ((lnTrain n).fld 0 16) = min (2 ^ 16 - 1) (c.rd ((lnTrain n).fld 0 16) + 1) := by
  have heq : c.lnLockLost n = (c.lnUnlocked n).lnTrainStart n true := if_neg (not_not_intro hst)
  obtain ⟨hacc, hflag, hcount⟩ := c.lnUnlocked_shows n hn
  obtain ⟨hstate, htrain⟩ := (c.lnUnlocked n).lnTrainStart_shows n hn true
  obtain ⟨hpol, herr⟩ := (c.lnUnlocked n).lnTrainStart_lnr n hn
  rw [heq]
  refine ⟨hstate.trans (by rw [hacc]), ?_, hpol, herr, htrain.trans (by rw [hcount])⟩
  exact (Chip.on_lnTrainStart (f := (lnStat n).fld 16 1) _ n hn true (.inr ⟨rfl, Fld.apart_of_clear rfl rfl, Fld.apart_of_clear rfl rfl⟩)).trans hflag

/-- A training that is a retry is counted as both. -/
theorem Chip.retrain_shows (hn : n < 50) :
    ((c.inc ((lnTrain n).fld 16 8)).lnTrainStart n true).rd (lnState n) = (if c.on (lnAccepted n) then lnAcquire else lnSweep)
      ∧ ((c.inc ((lnTrain n).fld 16 8)).lnTrainStart n true).rd ((lnTrain n).fld 16 8) = min (2 ^ 8 - 1) (c.rd ((lnTrain n).fld 16 8) + 1) := by
  have hacc : (c.inc ((lnTrain n).fld 16 8)).on (lnAccepted n) = c.on (lnAccepted n) :=
    Chip.on_inc_keeps _ (Fld.apart_of_off (by rw [lnTrain_eq, lnAccepted, lnStat_eq]; change lnBase n + _ ≠ lnBase n + _; omega))
  refine ⟨((Chip.lnTrainStart_shows _ n hn true).1).trans (by rw [hacc]), ?_⟩
  rw [Chip.rd_lnTrainStart (f := (lnTrain n).fld 16 8) _ n hn true (.inl ⟨rfl, Fld.apart_of_clear rfl rfl⟩)]
  exact Chip.rd_inc_same _ rfl

theorem Chip.lnWake_shows (hn : n < 50) (lostLock : Bool) (hst : c.lnSt n = lnDoze) :
    (c.lnWake n lostLock).rd (lnState n)
      = (if (c.lane n).retryDue = false ∧ ((c.lane n).before = lnNoSignal ∨ (c.lane n).before = lnFailed ∨ (c.lane n).before = lnTest
            ∨ ((c.lane n).before = lnTrained ∧ lostLock = false))
        then (c.lane n).before else if c.on (lnAccepted n) then lnAcquire else lnSweep) := by
  unfold Chip.lnWake
  dsimp only
  rw [if_neg (not_not_intro hst)]
  cases hretry : (c.lane n).retryDue
  · rw [if_neg (by decide)]
    by_cases hback : (c.lane n).before = lnNoSignal ∨ (c.lane n).before = lnFailed ∨ (c.lane n).before = lnTest
      ∨ ((c.lane n).before = lnTrained ∧ lostLock = false)
    · have hlt : (c.lane n).before < 16 := by unfold lnNoSignal lnFailed lnTest lnTrained at hback; omega
      rw [if_pos (by simpa using hback), if_pos ⟨rfl, hback⟩]
      exact Chip.rd_wr_lt rfl hlt
    · rw [if_neg (by simpa using hback), if_neg (fun h => hback h.2)]
      exact (c.lnTrainStart_shows n hn true).1
  · rw [if_pos rfl, if_neg (fun h => Bool.noConfusion h.1)]
    exact (c.retrain_shows n hn).1

end

/-- Settles O41: each row ends in the start of training, in a state written once, or in a retry that is deferred; the link of the lane, or the twin,
follows beside the registers of the lane. -/
theorem laneStates : Obligations.LaneStates := by
  have hstat (n : Fin 50) : OnLanes (lnStat n.val).off := by rw [lnStat_eq]; exact onLanes_lnBase n.isLt (by omega)
  have herr (n : Fin 50) : OnLanes (lnErr n.val).off := by rw [lnErr_eq]; exact onLanes_lnBase n.isLt (by omega)
  have htrain (n : Fin 50) : OnLanes (lnTrain n.val).off := by rw [lnTrain_eq]; exact onLanes_lnBase n.isLt (by omega)
  unfold Obligations.LaneStates
  refine ⟨?_, ?_, ?_, ?_, ?_, ?_⟩
  · rintro s t n c rfl hlive
    obtain ⟨hstate, hsig, husable⟩ := (s.chipAt t).lnSignalLost_shows n.val n.isLt
    refine ⟨_, State.event_live s t _ hlive, (Chip.rd_laneMoved _ _ n.isLt (hstat n)).trans hstate, (Chip.on_laneMoved _ _ n.isLt (hstat n)).trans hsig, ?_⟩
    refine Eq.trans ?_ husable
    change Chip.lnUsable (Chip.laneMoved _ _) _ = _
    simp only [Chip.lnUsable, Chip.lnSt, Chip.lane_laneMoved _ _ n.isLt, Chip.rd_laneMoved (f := lnState n.val) _ _ n.isLt (hstat n)]
  · rintro s t n c rfl hlive
    exact ⟨_, State.event_live s t _ hlive, (s.chipAt t).lnSignalPresent_shows n.val n.isLt⟩
  · rintro s t n c rfl hlive hst
    obtain ⟨hstate, hflag, hpol, herrs, hcount⟩ := (s.chipAt t).lnLockLost_shows n.val n.isLt hst
    exact ⟨_, State.event_live s t _ hlive, (Chip.rd_laneMoved _ _ n.isLt (hstat n)).trans hstate, (Chip.on_laneMoved _ _ n.isLt (hstat n)).trans hflag,
      (Chip.on_laneMoved _ _ n.isLt (hstat n)).trans hpol, (Chip.rd_laneMoved _ _ n.isLt (herr n)).trans herrs,
      (Chip.rd_laneMoved _ _ n.isLt (htrain n)).trans hcount⟩
  · rintro s t n c rfl hlive hst
    have heq : (s.chipAt t).lnRetry n.val = ((s.chipAt t).inc ((lnTrain n.val).fld 16 8)).lnTrainStart n.val true := if_pos hst
    have hshow := (s.chipAt t).retrain_shows n.val n.isLt
    rw [← heq] at hshow
    exact ⟨_, State.event_live s t _ hlive, hshow⟩
  · rintro s t n c rfl hlive hst hbefore
    have heq : (s.chipAt t).lnRetry n.val = (s.chipAt t).setLane n.val { (s.chipAt t).lane n.val with retryDue := true } := by
      unfold Chip.lnRetry
      rw [if_neg (by unfold lnDoze lnOff at hst; unfold Chip.lnSt lnFailed; omega), if_pos ⟨hst, hbefore⟩]
    have hdue : (((s.chipAt t).lnRetry n.val).lane n.val).retryDue = true := by rw [heq, Chip.lane_setLane, if_pos rfl]
    have hstate : ((s.chipAt t).lnRetry n.val).rd (lnState n.val) = (s.chipAt t).rd (lnState n.val) := by rw [heq, Chip.setLane_rd]
    exact ⟨_, State.event_live s t _ hlive, hdue, hstate⟩
  · rintro s t n lostLock c rfl hlive hst
    exact ⟨_, State.event_live s t _ hlive, (Chip.rd_laneMoved _ _ n.isLt (hstat n)).trans ((s.chipAt t).lnWake_shows n.val n.isLt lostLock hst)⟩

end Sys2Proof.Machine
end

section
/-! SUPPORT. Training of a lane, its Percolator and its pattern checker (R305 to R329). -/

namespace Sys2Proof.Machine

theorem Chip.when_pos (c : Chip) {b : Bool} (k : Chip → Chip) (h : b = true) : c.when b k = k c := by
  subst h
  rfl

theorem Chip.rd_add_same (c : Chip) {f : Fld} (k : Nat) (h : f.fits = true) : (c.add f k).rd f = min (2 ^ f.w - 1) (c.rd f + k) := by
  have hpos := Nat.two_pow_pos f.w
  rw [Chip.add_def, Chip.rd_wr_fits _ _ h, satAdd, Nat.mod_eq_of_lt (by omega), Nat.min_comm]

section
variable (c : Chip) (n : Nat) {f : Fld}

theorem onLanes_lnStat {n : Nat} (hn : n < 50) : OnLanes (lnStat n).off := by rw [lnStat_eq]; exact onLanes_lnBase hn (by omega)
theorem onLanes_lnEq {n : Nat} (hn : n < 50) : OnLanes (lnEq n).off := by rw [lnEq_eq]; exact onLanes_lnBase hn (by omega)
theorem onLanes_lnEye {n : Nat} (hn : n < 50) : OnLanes (lnEye n).off := by rw [lnEye_eq]; exact onLanes_lnBase hn (by omega)
theorem onLanes_lnTrain {n : Nat} (hn : n < 50) : OnLanes (lnTrain n).off := by rw [lnTrain_eq]; exact onLanes_lnBase hn (by omega)
theorem onLanes_lnCfg {n : Nat} (hn : n < 50) : OnLanes (lnCfg n).off := by rw [lnCfg_eq]; exact onLanes_lnBase (k := 0) hn (by omega)

/-! ### Polarity, and the ends of training -/

/-- The polarity found is written where it was not known; beside it only its flag. -/
theorem Chip.lnPolarity_shows (hn : n < 50) (inv : Bool) :
    (c.lnPolarity n inv).on (lnPolInv n) = if (c.lane n).polKnown then c.on (lnPolInv n) else inv := by
  unfold Chip.lnPolarity
  split
  · rfl
  · dsimp only
    rw [Chip.on_when, Chip.on_lnSummary _ _ _ (by exact onLanes_lnStat hn), Chip.on_set_keeps _ (by exact Fld.apart_of_clear rfl rfl), ite_self]
    exact Chip.on_wrB_same _ _ rfl Nat.one_ne_zero

theorem Chip.rd_lnPolarity (inv : Bool) (hon : OnLanes f.off) (hp : (lnPolInv n).apart f = true)
    (hs : ((lnStat n).fld 21 1).apart f = true) : (c.lnPolarity n inv).rd f = c.rd f := by
  unfold Chip.lnPolarity
  split
  · rfl
  · dsimp only
    rw [Chip.rd_when, Chip.rd_lnSummary _ _ _ hon, Chip.rd_set_keeps _ hs, ite_self, Chip.rd_wrB_keeps _ _ hp, Chip.setLane_rd]

theorem Chip.lnTrainedNow_shows (hn : n < 50) (height : Nat) (hh : height < 256) :
    (c.lnTrainedNow n height).rd (lnState n) = lnTrained ∧ (c.lnTrainedNow n height).rd ((lnEye n).fld 0 8) = height
      ∧ (c.lnTrainedNow n height).rd ((lnTrain n).fld 16 8) = 0 := by
  have hlt : lnTrained < 16 := by decide
  unfold Chip.lnTrainedNow
  rw [Chip.rd_lnPost _ _ _ _ (by exact onLanes_lnStat hn), Chip.rd_lnPost _ _ _ _ (by exact onLanes_lnEye hn),
    Chip.rd_lnPost _ _ _ _ (by exact onLanes_lnTrain hn)]
  refine ⟨?_, ?_, ?_⟩
  all_goals
    simp (disch := grind [Fld.apart, Fld.fits_iff, Reg.fld, lnStat_eq, lnEye_eq, lnTrain_eq, lnState]) only [Chip.rd_wr_keeps, Chip.rd_wr_lt]

theorem Chip.rd_lnTrainedNow (height : Nat) (hon : OnLanes f.off)
    (hf : (lnState n).apart f = true ∧ ((lnTrain n).fld 16 8).apart f = true ∧ ((lnEye n).fld 0 8).apart f = true) :
    (c.lnTrainedNow n height).rd f = c.rd f := by
  obtain ⟨hstate, htrain, heye⟩ := hf
  unfold Chip.lnTrainedNow
  rw [Chip.rd_lnPost _ _ _ _ hon, Chip.rd_wr_keeps _ _ heye, Chip.rd_wr_keeps _ _ htrain, Chip.rd_wr_keeps _ _ hstate]

/-- A field of the status of a lane other than its state is left by the end of its training. -/
theorem Chip.rd_lnTrainedNow_stat (hn : n < 50) (height : Nat) (ho : f.off = (lnStat n).off) (hf : (lnState n).apart f = true) :
    (c.lnTrainedNow n height).rd f = c.rd f := by
  refine c.rd_lnTrainedNow n height (ho ▸ onLanes_lnStat hn) ⟨hf, Fld.apart_of_off ?_, Fld.apart_of_off ?_⟩
  · rw [ho, lnTrain_eq, lnStat_eq]
    change lnBase n + _ ≠ lnBase n + _
    omega
  · rw [ho, lnEye_eq, lnStat_eq]
    change lnBase n + _ ≠ lnBase n + _
    omega

/-! ### Verification -/

/-- What the clock and the blocks found show. -/
def Chip.lnFound (c : Chip) (n : Nat) (found polInv : Bool) : Chip := c.when found fun c => (c.set (lnSignal n)).lnPolarity n polInv

theorem Chip.lnFound_shows (hn : n < 50) (polInv : Bool) :
    (c.lnFound n true polInv).on (lnSignal n) = true
      ∧ (c.lnFound n true polInv).on (lnPolInv n) = if (c.lane n).polKnown then c.on (lnPolInv n) else polInv := by
  have hlane : (c.set (lnSignal n)).lane n = c.lane n := by simp [Chip.lane, Chip.set_def]
  rw [Chip.lnFound, Chip.when_pos _ _ rfl]
  refine ⟨?_, ?_⟩
  · rw [Chip.on, Chip.rd_lnPolarity _ _ _ (by exact onLanes_lnStat hn) (by exact Fld.apart_of_clear rfl rfl) (by exact Fld.apart_of_clear rfl rfl)]
    exact Chip.on_set_same _ rfl Nat.one_ne_zero
  · rw [Chip.lnPolarity_shows _ _ hn, hlane, Chip.on_set_keeps _ (by exact Fld.apart_of_clear rfl rfl)]

theorem Chip.margin_lnFound (hn : n < 50) (found polInv : Bool) : (c.lnFound n found polInv).rd ((lnCfg n).fld 11 6) = c.rd ((lnCfg n).fld 11 6) := by
  have hoff (i w : Nat) : ((lnStat n).fld i w).apart ((lnCfg n).fld 11 6) = true :=
    Fld.apart_of_off (by rw [lnCfg_eq, lnStat_eq]; change lnBase n + _ ≠ lnBase n; omega)
  refine Chip.when_keeps (·.rd _) _ _ ?_
  rw [Chip.rd_lnPolarity _ _ _ (by exact onLanes_lnCfg hn) (hoff 4 1) (hoff 21 1)]
  exact Chip.rd_set_keeps _ (hoff 5 1)

/-- A verification that fails flags the lane, which sweeps. -/
def Chip.lnUnverified (c : Chip) (n : Nat) : Chip := ((c.set ((lnStat n).fld 18 1)).lnSummary n 2).wr (lnState n) lnSweep

theorem Chip.lnUnverified_shows (hn : n < 50) :
    (c.lnUnverified n).rd (lnState n) = lnSweep ∧ (c.lnUnverified n).on ((lnStat n).fld 18 1) = true := by
  refine ⟨Chip.rd_wr_lt rfl (by change 5 < 16; decide), ?_⟩
  rw [Chip.lnUnverified, Chip.on_wr_keeps _ _ (by exact Fld.apart_of_clear rfl rfl), Chip.on_lnSummary _ _ _ (by exact onLanes_lnStat hn)]
  exact Chip.on_set_same _ rfl Nat.one_ne_zero

theorem Chip.rd_lnUnverified (hn : n < 50) (ho : f.off = (lnStat n).off) (hstate : (lnState n).apart f = true)
    (hflag : ((lnStat n).fld 18 1).apart f = true) : (c.lnUnverified n).rd f = c.rd f := by
  rw [Chip.lnUnverified, Chip.rd_wr_keeps _ _ hstate, Chip.rd_lnSummary _ _ _ (ho ▸ onLanes_lnStat hn), Chip.rd_set_keeps _ hflag]

theorem Chip.lnVerifyDone_pass (hn : n < 50) {cdr block crc : Bool} (polInv : Bool) {height : Nat} (hst : c.lnSt n = lnAcquire ∨ c.lnSt n = lnVerify)
    (hpass : (cdr && block && crc) = true) (hh : 2 * c.rd ((lnCfg n).fld 11 6) ≤ height) :
    c.lnVerifyDone n cdr block crc polInv height = (c.lnFound n (cdr && block) polInv).lnTrainedNow n height := by
  unfold Chip.lnVerifyDone
  rw [if_neg (by rintro ⟨ha, hv⟩; exact hst.elim ha hv)]
  refine if_pos ?_
  change (cdr && block && crc && decide (2 * (c.lnFound n (cdr && block) polInv).rd ((lnCfg n).fld 11 6) ≤ height)) = true
  rw [c.margin_lnFound n hn, hpass, decide_eq_true hh]
  rfl

theorem Chip.lnVerifyDone_fail (hn : n < 50) {cdr block crc : Bool} (polInv : Bool) {height : Nat} (hst : c.lnSt n = lnAcquire ∨ c.lnSt n = lnVerify)
    (hfail : (cdr && block && crc) = false ∨ height < 2 * c.rd ((lnCfg n).fld 11 6)) :
    c.lnVerifyDone n cdr block crc polInv height = (c.lnFound n (cdr && block) polInv).lnUnverified n := by
  unfold Chip.lnVerifyDone
  rw [if_neg (by rintro ⟨ha, hv⟩; exact hst.elim ha hv)]
  refine if_neg (Bool.eq_false_iff.1 ?_)
  change (cdr && block && crc && decide (2 * (c.lnFound n (cdr && block) polInv).rd ((lnCfg n).fld 11 6) ≤ height)) = false
  rw [c.margin_lnFound n hn]
  obtain hno | hlow := hfail
  · rw [hno, Bool.false_and]
  · rw [decide_eq_false (by omega), Bool.and_false]

/-- What is found of the signal and the polarity stands, whether the verification passes or not. -/
theorem Chip.lnVerifyDone_found (hn : n < 50) (crc polInv : Bool) (height : Nat) (hst : c.lnSt n = lnAcquire ∨ c.lnSt n = lnVerify)
    (ho : f.off = (lnStat n).off) (hstate : (lnState n).apart f = true) (hflag : ((lnStat n).fld 18 1).apart f = true) :
    (c.lnVerifyDone n true true crc polInv height).rd f = (c.lnFound n true polInv).rd f := by
  by_cases hh : crc = true ∧ 2 * c.rd ((lnCfg n).fld 11 6) ≤ height
  · rw [c.lnVerifyDone_pass n hn polInv hst (by rw [hh.1]; rfl) hh.2, Chip.rd_lnTrainedNow_stat _ _ hn _ ho hstate]
    rfl
  · rw [c.lnVerifyDone_fail n hn polInv hst (by cases crc <;> simp at hh ⊢; omega), Chip.rd_lnUnverified _ _ hn ho hstate hflag]
    rfl

/-! ### The sweep -/

/-- The setting accepted at the end of a sweep. -/
def Chip.lnSettled (c : Chip) (n i : Nat) (polInv : Bool) : Chip :=
  ((((c.wr (lnPeak n) (i % 16)).wr (lnGain n) (i / 16)).set (lnAccepted n)).set (lnSignal n)).lnPolarity n polInv

theorem Chip.lnSettled_shows (hn : n < 50) {i : Nat} (hi : i < 64) (polInv : Bool) :
    (c.lnSettled n i polInv).rd (lnPeak n) = i % 16 ∧ (c.lnSettled n i polInv).rd (lnGain n) = i / 16
      ∧ (c.lnSettled n i polInv).on (lnAccepted n) = true
      ∧ (c.lnSettled n i polInv).on (lnPolInv n) = if (c.lane n).polKnown then c.on (lnPolInv n) else polInv := by
  have hpeak : i % 16 < 2 ^ 4 := Nat.mod_lt _ (by decide)
  have hgain : i / 16 < 2 ^ 2 := by omega
  have hlane : ((((c.wr (lnPeak n) (i % 16)).wr (lnGain n) (i / 16)).set (lnAccepted n)).set (lnSignal n)).lane n = c.lane n := by
    simp [Chip.lane, Chip.set_def]
  have hoff (f : Fld) (hf : f.off = (lnEq n).off) (j w : Nat) : ((lnStat n).fld j w).apart f = true :=
    Fld.apart_of_off (by rw [hf, lnEq_eq, lnStat_eq]; change lnBase n + _ ≠ lnBase n + _; omega)
  unfold Chip.lnSettled
  rw [Chip.lnPolarity_shows _ _ hn, hlane, Chip.on, Chip.rd_lnPolarity _ _ _ (by exact onLanes_lnEq hn) (hoff _ rfl 4 1) (hoff _ rfl 21 1),
    Chip.rd_lnPolarity _ _ _ (by exact onLanes_lnEq hn) (hoff _ rfl 4 1) (hoff _ rfl 21 1),
    Chip.rd_lnPolarity _ _ _ (by exact onLanes_lnStat hn) (by exact Fld.apart_of_clear rfl rfl) (by exact Fld.apart_of_clear rfl rfl), ← Chip.on]
  refine ⟨?_, ?_, ?_, ?_⟩
  all_goals
    simp (disch := grind [Fld.apart, Fld.fits_iff, Reg.fld, lnStat_eq, lnEq_eq, lnPeak, lnGain, lnAccepted, lnSignal, lnPolInv]) only [Chip.rd_wr_keeps,
      Chip.rd_set_keeps, Chip.on_set_keeps, Chip.on_wr_keeps, Chip.on_set_same, Chip.rd_wr_lt]

theorem Chip.lnSweepDone_some (heights : List Nat) (clean : List Bool) (polInv : Bool) {i : Nat} (hst : c.lnSt n = lnSweep)
    (hi : ((candidates heights (2 * c.rd ((lnCfg n).fld 11 6))).find? fun i => clean.getD i false) = some i) :
    c.lnSweepDone n heights clean polInv = (c.lnSettled n i polInv).lnTrainedNow n (heights.getD i 0) := by
  unfold Chip.lnSweepDone
  rw [if_neg (not_not_intro hst), hi]
  rfl

theorem Chip.lnSweepDone_none (heights : List Nat) (clean : List Bool) (polInv : Bool) (hst : c.lnSt n = lnSweep)
    (hi : ((candidates heights (2 * c.rd ((lnCfg n).fld 11 6))).find? fun i => clean.getD i false) = none) :
    c.lnSweepDone n heights clean polInv = c.lnFail n := by
  unfold Chip.lnSweepDone
  rw [if_neg (not_not_intro hst), hi]

theorem Chip.lnFail_shows (hn : n < 50) :
    (c.lnFail n).rd (lnState n) = lnFailed ∧ (c.lnFail n).on ((lnStat n).fld 17 1) = true
      ∧ (c.lnFail n).rd ((lnTrain n).fld 24 8) = min (2 ^ 8 - 1) (c.rd ((lnTrain n).fld 24 8) + 1) := by
  have hlt : lnFailed < 16 := by decide
  unfold Chip.lnFail
  dsimp only
  rw [Chip.rd_lnPost _ _ _ _ (by exact onLanes_lnStat hn), Chip.on_lnPost _ _ _ _ (by exact onLanes_lnStat hn),
    Chip.rd_lnPost _ _ _ _ (by exact onLanes_lnTrain hn), Chip.rd_lnSummary _ _ _ (by exact onLanes_lnStat hn),
    Chip.on_lnSummary _ _ _ (by exact onLanes_lnStat hn), Chip.rd_lnSummary _ _ _ (by exact onLanes_lnTrain hn)]
  refine ⟨?_, ?_, ?_⟩
  all_goals
    simp (disch := grind [Fld.apart, Fld.fits_iff, Reg.fld, lnStat_eq, lnTrain_eq, lnState]) only [Chip.rd_wr_keeps, Chip.rd_set_keeps, Chip.rd_inc_keeps,
      Chip.on_inc_keeps, Chip.on_set_same, Chip.rd_inc_same, Chip.rd_wr_lt]
  rfl

/-! ### The Percolator -/

/-- The eye of a visit and of the neighbours visited. -/
def Chip.lnEyes (c : Chip) (n pk height width below above : Nat) : Chip :=
  let c := (c.wr ((lnEye n).fld 0 8) height).wr ((lnEye n).fld 8 8) width
  let c := c.when (0 < pk) fun c => (c.wr ((lnEq n).fld 8 4) (pk - 1)).wr ((lnEye n).fld 16 8) below
  c.when (pk < 15) fun c => (c.wr ((lnEq n).fld 8 4) (pk + 1)).wr ((lnEye n).fld 16 8) above

/-- The step that a visit finds: to the higher of the neighbours that qualify. -/
def visitStep (pk height below above : Nat) (belowErr aboveErr : Bool) : Option Nat :=
  let lo := 0 < pk && height + 4 ≤ below && !belowErr
  let hi := pk < 15 && height + 4 ≤ above && !aboveErr
  if lo && (!hi || above ≤ below) then some (pk - 1) else if hi then some (pk + 1) else none

/-- What a visit leaves due, and the flag of a low eye. -/
def Chip.lnVisited (c : Chip) (n height : Nat) (step : Option Nat) : Chip :=
  let c := c.when (!(c.lane n).stopped) fun c => c.setLane n { c.lane n with step := step }
  c.when (height < 2 * c.rd ((lnCfg n).fld 11 6)) fun c => ((c.set ((lnStat n).fld 19 1)).lnSummary n 3).lnPost n 0x0005 height

theorem Chip.lnVisit_eq (height width below above : Nat) (belowErr aboveErr : Bool) (hst : c.lnSt n = lnTrained)
    (hen : c.on ((lnCfg n).fld 22 1) = true) (hready : c.ready = true) :
    c.lnVisit n height width below above belowErr aboveErr
      = (c.lnEyes n (c.rd (lnPeak n)) height width below above).lnVisited n height
          (visitStep (c.rd (lnPeak n)) height below above belowErr aboveErr) := by
  unfold Chip.lnVisit
  rw [if_neg]
  · rfl
  · rintro (h | h | h)
    · exact h hst
    · rw [hen] at h
      contradiction
    · rw [hready] at h
      contradiction

theorem Chip.lnEyes_shows (pk : Nat) {height width : Nat} (below above : Nat) (hh : height < 256) (hw : width < 256) :
    (c.lnEyes n pk height width below above).rd ((lnEye n).fld 0 8) = height
      ∧ (c.lnEyes n pk height width below above).rd ((lnEye n).fld 8 8) = width
      ∧ (c.lnEyes n pk height width below above).rd (lnPeak n) = c.rd (lnPeak n)
      ∧ (c.lnEyes n pk height width below above).rd ((lnCfg n).fld 11 6) = c.rd ((lnCfg n).fld 11 6)
      ∧ (c.lnEyes n pk height width below above).lane n = c.lane n := by
  have hlanes : (c.lnEyes n pk height width below above).lanes = c.lanes := by
    refine (Chip.when_keeps (·.lanes) _ _ ?_).trans ((Chip.when_keeps (·.lanes) _ _ ?_).trans ?_)
    all_goals simp
  have happ : ∀ f ∈ [(lnEye n).fld 0 8, (lnEye n).fld 8 8, lnPeak n, (lnCfg n).fld 11 6],
      ((lnEq n).fld 8 4).apart f = true ∧ ((lnEye n).fld 16 8).apart f = true := by
    grind [Fld.apart, Reg.fld, lnEye_eq, lnEq_eq, lnCfg_eq, lnPeak]
  have hkeep (f : Fld) (hf : f ∈ [(lnEye n).fld 0 8, (lnEye n).fld 8 8, lnPeak n, (lnCfg n).fld 11 6]) :
      (c.lnEyes n pk height width below above).rd f = ((c.wr ((lnEye n).fld 0 8) height).wr ((lnEye n).fld 8 8) width).rd f :=
    (Chip.when_keeps (·.rd f) _ _ (by rw [Chip.rd_wr_keeps _ _ (happ f hf).2, Chip.rd_wr_keeps _ _ (happ f hf).1])).trans
      (Chip.when_keeps (·.rd f) _ _ (by rw [Chip.rd_wr_keeps _ _ (happ f hf).2, Chip.rd_wr_keeps _ _ (happ f hf).1]))
  rw [hkeep _ (by simp), hkeep _ (by simp), hkeep _ (by simp), hkeep _ (by simp)]
  refine ⟨?_, ?_, ?_, ?_, by rw [Chip.lane, hlanes, Chip.lane]⟩
  all_goals
    simp (disch := grind [Fld.apart, Fld.fits_iff, Reg.fld, lnEye_eq, lnEq_eq, lnCfg_eq, lnPeak]) only [Chip.rd_wr_keeps, Chip.rd_wr_lt]

theorem Chip.lane_flagged (b : Bool) (k i code arg : Nat) (d : Chip) :
    ((d.when b fun c => ((c.set ((lnStat n).fld k 1)).lnSummary n i).lnPost n code arg).lane n) = d.lane n := by
  refine Chip.when_keeps (·.lane n) _ _ ?_
  rw [Chip.lane_lnPost, Chip.lane_lnSummary]
  simp [Chip.lane, Chip.set_def]

theorem Chip.lane_lnVisited (height : Nat) (step : Option Nat) :
    (c.lnVisited n height step).lane n = if (c.lane n).stopped then c.lane n else { c.lane n with step := step } := by
  refine (Chip.lane_flagged ..).trans ?_
  cases h : (c.lane n).stopped
  · exact (Chip.lane_setLane ..).trans (if_pos rfl)
  · rfl

theorem Chip.rd_visitStep (d : Chip) (b : Bool) (step : Option Nat) (f : Fld) :
    (d.when b fun c => c.setLane n { c.lane n with step := step }).rd f = d.rd f := Chip.when_keeps (·.rd f) _ _ (Chip.setLane_rd ..)

theorem Chip.rd_lnVisited (height : Nat) (step : Option Nat) (hon : OnLanes f.off) (hf : ((lnStat n).fld 19 1).apart f = true) :
    (c.lnVisited n height step).rd f = c.rd f := by
  refine (Chip.when_keeps (·.rd f) _ _ ?_).trans (Chip.rd_visitStep ..)
  rw [Chip.rd_lnPost _ _ _ _ hon, Chip.rd_lnSummary _ _ _ hon, Chip.rd_set_keeps _ hf]

theorem Chip.lnVisited_flag (hn : n < 50) {height : Nat} (step : Option Nat) (h : height < 2 * c.rd ((lnCfg n).fld 11 6)) :
    (c.lnVisited n height step).on ((lnStat n).fld 19 1) = true := by
  unfold Chip.lnVisited
  dsimp only
  rw [Chip.rd_visitStep, Chip.when_pos _ _ (decide_eq_true h), Chip.on_lnPost _ _ _ _ (by exact onLanes_lnStat hn), Chip.on_lnSummary _ _ _ (by exact onLanes_lnStat hn)]
  exact Chip.on_set_same _ rfl Nat.one_ne_zero

theorem visitStep_some {pk height below above k : Nat} {belowErr aboveErr : Bool} (h : visitStep pk height below above belowErr aboveErr = some k) :
    (k + 1 = pk ∧ height + 4 ≤ below ∧ belowErr = false) ∨ (k = pk + 1 ∧ height + 4 ≤ above ∧ aboveErr = false) := by
  unfold visitStep at h
  dsimp only at h
  split at h
  next hlo =>
    simp only [Bool.and_eq_true, decide_eq_true_eq, Bool.not_eq_true'] at hlo
    have hk : pk - 1 = k := Option.some.inj h
    exact .inl ⟨by omega, hlo.1.1.2, hlo.1.2⟩
  next =>
    split at h
    next hhi =>
      simp only [Bool.and_eq_true, decide_eq_true_eq, Bool.not_eq_true'] at hhi
      exact .inr ⟨(Option.some.inj h).symm, hhi.1.2, hhi.2⟩
    next => exact absurd h (by simp)

theorem isSome_choice (lo hi b : Bool) (x y : Nat) :
    (if (lo && (!hi || b)) = true then some x else if hi = true then some y else none).isSome = (lo || hi) := by
  cases lo <;> cases hi <;> cases b <;> rfl

theorem visitStep_isSome {pk height below above : Nat} {belowErr aboveErr : Bool}
    (h : (0 < pk ∧ height + 4 ≤ below ∧ belowErr = false) ∨ (pk < 15 ∧ height + 4 ≤ above ∧ aboveErr = false)) :
    (visitStep pk height below above belowErr aboveErr).isSome = true := by
  refine (isSome_choice ..).trans ?_
  obtain ⟨hpk, hbelow, rfl⟩ | ⟨hpk, habove, rfl⟩ := h
  · simp [hpk, hbelow]
  · simp [hpk, habove]

theorem Chip.lnStep_eq {pk : Nat} (hstep : (c.lane n).step = some pk) (hst : c.lnSt n = lnTrained) (hen : c.on ((lnCfg n).fld 22 1) = true)
    (hready : c.ready = true) :
    c.lnStep n = (((c.setLane n { c.lane n with step := none }).wr (lnPeak n) pk).inc ((lnEq n).fld 16 8)).setLane n
      { (c.setLane n { c.lane n with step := none }).lane n with stepAt := some (c.setLane n { c.lane n with step := none }).now } := by
  unfold Chip.lnStep
  rw [hstep]
  refine if_neg ?_
  rw [Chip.lnSt, Chip.setLane_rd, Chip.setLane_on]
  rintro (h | h | h)
  · exact h hst
  · rw [hen] at h
    contradiction
  · change (!c.ready) = true at h
    rw [hready] at h
    contradiction

theorem Chip.lnStep_shows {pk : Nat} (hstep : (c.lane n).step = some pk) (hst : c.lnSt n = lnTrained) (hen : c.on ((lnCfg n).fld 22 1) = true)
    (hready : c.ready = true) (hpk : pk < 16) :
    (c.lnStep n).rd (lnPeak n) = pk ∧ (c.lnStep n).rd ((lnEq n).fld 16 8) = min (2 ^ 8 - 1) (c.rd ((lnEq n).fld 16 8) + 1)
      ∧ ((c.lnStep n).lane n).step = none ∧ ((c.lnStep n).lane n).stepAt = some c.now := by
  rw [c.lnStep_eq n hstep hst hen hready, Chip.setLane_rd, Chip.setLane_rd, Chip.lane_setLane, if_pos rfl, Chip.lane_setLane, if_pos rfl]
  refine ⟨?_, ?_, rfl, rfl⟩
  · rw [Chip.rd_inc_keeps _ (by exact Fld.apart_of_clear rfl rfl)]
    exact Chip.rd_wr_lt rfl hpk
  · rw [Chip.rd_inc_same _ rfl, Chip.rd_wr_keeps _ _ (by exact Fld.apart_of_clear rfl rfl), Chip.setLane_rd]
    rfl

theorem Chip.lnPostErr_shows (hn : n < 50) {at_ : Nat} (hat : (c.lane n).stepAt = some at_) (hnow : c.now ≤ at_ + postWindow) :
    ((c.lnPostErr n).lane n).stopped = true ∧ (c.lnPostErr n).on ((lnStat n).fld 20 1) = true ∧ ((c.lnPostErr n).lane n).step = none := by
  have hlane (code arg i : Nat) (d : Chip) : (((d.set ((lnStat n).fld 20 1)).lnSummary n i).lnPost n code arg).lane n = d.lane n := by
    rw [Chip.lane_lnPost, Chip.lane_lnSummary]
    simp [Chip.lane, Chip.set_def]
  unfold Chip.lnPostErr
  rw [hat]
  dsimp only
  rw [if_neg (by omega), hlane, Chip.lane_setLane, if_pos rfl]
  refine ⟨rfl, ?_, rfl⟩
  rw [Chip.on_lnPost _ _ _ _ (by exact onLanes_lnStat hn), Chip.on_lnSummary _ _ _ (by exact onLanes_lnStat hn)]
  exact Chip.on_set_same _ rfl Nat.one_ne_zero

/-! ### The pattern checker -/

theorem Chip.lnChecker_shows (locked : Bool) (errs units : Nat) (h : c.rd (FAB_LN_TEST_CHK_PATTERN n) ≠ 0) :
    (c.lnChecker n locked errs units).on (FAB_LN_TEST_CHK_SYNC n) = locked
      ∧ (c.lnChecker n locked errs units).rd (FAB_LN_BERR_COUNT n)
        = (if c.on (FAB_LN_TEST_CHK_SYNC n) then min (2 ^ (FAB_LN_BERR_COUNT n).w - 1) (c.rd (FAB_LN_BERR_COUNT n) + errs)
          else c.rd (FAB_LN_BERR_COUNT n)) := by
  unfold Chip.lnChecker
  rw [if_neg h]
  refine ⟨Chip.on_wrB_same _ _ rfl Nat.one_ne_zero, ?_⟩
  dsimp only
  simp (disch := grind [Fld.apart, Fld.fits_iff, Reg.fld, FAB_LN_TEST, FAB_LN_TEST_CHK_SYNC, FAB_LN_BERR, FAB_LN_BERR_COUNT, FAB_LN_BCOUNT,
    FAB_LN_BCOUNT_COUNT]) only [Chip.rd_wrB_keeps, Chip.rd_when, Chip.rd_add_keeps, Chip.rd_add_same]

end

/-- Settles O42: the end of a training writes its state after what was found; a visit writes its eye and leaves the step that
`visitStep` finds; what follows a row (the link, or the twin) is beside the registers of the lane. -/
theorem laneTraining : Obligations.LaneTraining := by
  unfold Obligations.LaneTraining
  refine ⟨⟨?_, ?_⟩, ?_, ?_, ?_, ?_⟩
  · rintro s t n cdr block crc polInv height c rfl hlive hst
    have hstat := onLanes_lnStat n.isLt
    refine ⟨_, State.event_live s t _ hlive, ?_, ?_, ?_⟩
    · rintro rfl rfl
      obtain ⟨hsig, hpol⟩ := (s.chipAt t).lnFound_shows n.val n.isLt polInv
      have hkeep (f : Fld) (ho : f.off = (lnStat n.val).off) (hstate : (lnState n.val).apart f = true) (hflag : ((lnStat n.val).fld 18 1).apart f = true) :=
        (s.chipAt t).lnVerifyDone_found n.val n.isLt crc polInv height.toNat hst ho hstate hflag
      refine ⟨(Chip.on_laneMoved _ _ n.isLt hstat).trans (Eq.trans ?_ hsig), (Chip.on_laneMoved _ _ n.isLt hstat).trans (Eq.trans ?_ hpol)⟩
      · exact congrArg (· != 0) (hkeep _ rfl (Fld.apart_of_clear rfl rfl) (Fld.apart_of_clear rfl rfl))
      · exact congrArg (· != 0) (hkeep _ rfl (Fld.apart_of_clear rfl rfl) (Fld.apart_of_clear rfl rfl))
    · intro hpass hh
      have heq := (s.chipAt t).lnVerifyDone_pass n.val n.isLt polInv hst hpass hh
      obtain ⟨hstate, heye, hretry⟩ := ((s.chipAt t).lnFound n.val (cdr && block) polInv).lnTrainedNow_shows n.val n.isLt height.toNat height.isLt
      rw [← heq] at hstate heye hretry
      exact ⟨(Chip.rd_laneMoved _ _ n.isLt hstat).trans hstate, (Chip.rd_laneMoved _ _ n.isLt (onLanes_lnEye n.isLt)).trans heye,
        (Chip.rd_laneMoved _ _ n.isLt (onLanes_lnTrain n.isLt)).trans hretry⟩
    · intro hfail
      have heq := (s.chipAt t).lnVerifyDone_fail n.val n.isLt polInv hst hfail
      obtain ⟨hstate, hflag⟩ := ((s.chipAt t).lnFound n.val (cdr && block) polInv).lnUnverified_shows n.val n.isLt
      rw [← heq] at hstate hflag
      exact ⟨(Chip.rd_laneMoved _ _ n.isLt hstat).trans hstate, (Chip.on_laneMoved _ _ n.isLt hstat).trans hflag⟩
  · rintro s t n heights clean polInv c rfl hlive hst
    have hstat := onLanes_lnStat n.isLt
    refine ⟨_, State.event_live s t _ hlive, ?_, ?_⟩
    · intro i hi
      have heq := (s.chipAt t).lnSweepDone_some n.val (heights.map BitVec.toNat) clean polInv hst hi
      have hh : (heights.map BitVec.toNat).getD i.val 0 < 256 := by
        rw [List.getD_eq_getElem?_getD, List.getElem?_map]
        cases heights[i.val]? with
        | none => exact (by decide : 0 < 256)
        | some v => exact v.isLt
      obtain ⟨hpeak, hgain, hacc, hpol⟩ := (s.chipAt t).lnSettled_shows n.val n.isLt i.isLt polInv
      have hstate := (((s.chipAt t).lnSettled n.val i.val polInv).lnTrainedNow_shows n.val n.isLt _ hh).1
      have hkeep (f : Fld) (ho : f.off = (lnStat n.val).off) (hf : (lnState n.val).apart f = true) :=
        ((s.chipAt t).lnSettled n.val i.val polInv).rd_lnTrainedNow_stat n.val n.isLt ((heights.map BitVec.toNat).getD i.val 0) ho hf
      have hkeepEq (f : Fld) (ho : f.off = (lnEq n.val).off) :=
        ((s.chipAt t).lnSettled n.val i.val polInv).rd_lnTrainedNow n.val ((heights.map BitVec.toNat).getD i.val 0) (ho ▸ onLanes_lnEq n.isLt : OnLanes f.off)
          (by grind [Fld.apart, Reg.fld, lnState, lnStat_eq, lnTrain_eq, lnEye_eq, lnEq_eq])
      rw [← heq] at hstate hkeep hkeepEq
      exact ⟨(Chip.rd_laneMoved _ _ n.isLt hstat).trans hstate, (Chip.rd_laneMoved _ _ n.isLt (onLanes_lnEq n.isLt)).trans ((hkeepEq _ rfl).trans hpeak),
        (Chip.rd_laneMoved _ _ n.isLt (onLanes_lnEq n.isLt)).trans ((hkeepEq _ rfl).trans hgain),
        (Chip.on_laneMoved _ _ n.isLt hstat).trans ((congrArg (· != 0) (hkeep (lnAccepted n.val) rfl (Fld.apart_of_clear rfl rfl))).trans hacc),
        (Chip.on_laneMoved _ _ n.isLt hstat).trans ((congrArg (· != 0) (hkeep (lnPolInv n.val) rfl (Fld.apart_of_clear rfl rfl))).trans hpol)⟩
    · intro hnone
      have heq := (s.chipAt t).lnSweepDone_none n.val (heights.map BitVec.toNat) clean polInv hst hnone
      obtain ⟨hstate, hflag, hcount⟩ := (s.chipAt t).lnFail_shows n.val n.isLt
      rw [← heq] at hstate hflag hcount
      exact ⟨(Chip.rd_laneMoved _ _ n.isLt hstat).trans hstate, (Chip.on_laneMoved _ _ n.isLt hstat).trans hflag,
        (Chip.rd_laneMoved _ _ n.isLt (onLanes_lnTrain n.isLt)).trans hcount⟩
  · rintro s t n height width below above belowCrc aboveCrc c rfl hready hst hen
    have heq := (s.chipAt t).lnVisit_eq n.val height.toNat width.toNat below.toNat above.toNat belowCrc aboveCrc hst hen hready
    obtain ⟨hheight, hwidth, hpeak, hmargin, hlane⟩ := (s.chipAt t).lnEyes_shows n.val ((s.chipAt t).rd (lnPeak n.val)) below.toNat above.toNat
      height.isLt width.isLt
    have hvisited := Chip.lane_lnVisited ((s.chipAt t).lnEyes n.val ((s.chipAt t).rd (lnPeak n.val)) height.toNat width.toNat below.toNat above.toNat)
      n.val height.toNat (visitStep ((s.chipAt t).rd (lnPeak n.val)) height.toNat below.toNat above.toNat belowCrc aboveCrc)
    have hkeep (f : Fld) (ho : f.off = (lnEye n.val).off ∨ f.off = (lnEq n.val).off) := Chip.rd_lnVisited (f := f)
      ((s.chipAt t).lnEyes n.val ((s.chipAt t).rd (lnPeak n.val)) height.toNat width.toNat below.toNat above.toNat)
      n.val height.toNat (visitStep ((s.chipAt t).rd (lnPeak n.val)) height.toNat below.toNat above.toNat belowCrc aboveCrc)
      (ho.elim (fun h => h ▸ onLanes_lnEye n.isLt) fun h => h ▸ onLanes_lnEq n.isLt)
      (by grind [Fld.apart, Reg.fld, lnStat_eq, lnEye_eq, lnEq_eq])
    have hflag := fun h => Chip.lnVisited_flag
      ((s.chipAt t).lnEyes n.val ((s.chipAt t).rd (lnPeak n.val)) height.toNat width.toNat below.toNat above.toNat)
      n.val n.isLt (height := height.toNat) (visitStep ((s.chipAt t).rd (lnPeak n.val)) height.toNat below.toNat above.toNat belowCrc aboveCrc) h
    rw [← heq] at hvisited hkeep hflag
    rw [hlane] at hvisited
    rw [hmargin] at hflag
    refine ⟨_, State.fwStep_ready s t _ hready, (hkeep _ (.inl rfl)).trans hheight, (hkeep _ (.inl rfl)).trans hwidth,
      (hkeep _ (.inr rfl)).trans hpeak, ?_, ?_, hflag⟩
    · intro pk hpk hrun
      change (((s.chipAt t).lnVisit _ _ _ _ _ _ _).lane n.val).step = _ at hpk
      rw [hvisited, hrun] at hpk
      exact visitStep_some hpk
    · intro hrun hqual
      change (((s.chipAt t).lnVisit _ _ _ _ _ _ _).lane n.val).step.isSome = true
      rw [hvisited, hrun]
      exact visitStep_isSome hqual
  · rintro s t n pk c rfl hlive hst hen hready hstep hpk
    exact ⟨_, State.event_live s t _ hlive, (s.chipAt t).lnStep_shows n.val hstep hst hen hready hpk⟩
  · rintro s t n at_ c rfl hlive hat hnow
    exact ⟨_, State.event_live s t _ hlive, (s.chipAt t).lnPostErr_shows n.val n.isLt hat hnow⟩
  · rintro s t n locked errs units c rfl hlive hpattern
    exact ⟨_, State.event_live s t _ hlive, (s.chipAt t).lnChecker_shows n.val locked errs units hpattern⟩

end Sys2Proof.Machine
end

section
/-! SUPPORT. The counters and the link states of a network port (R369 to R371, R386). -/

namespace Sys2Proof.Machine

section
variable (c : Chip) (p k n : Nat) {f : Fld} {r : Reg}

/-! ### A counter of a port -/

theorem Chip.cell_netCount {o : Nat} (hc : (NET_CNT p k).off ≠ o) (hh : (NET_CNT_HALF p).off ≠ o) (hp : o / 65536 ≠ 1) :
    (c.netCount p k n).cell o = c.cell o := by
  unfold Chip.netCount
  refine (Chip.when_keeps (·.cell o) _ _ ?_).trans (Chip.cell_put_other _ _ _ _ hc)
  refine (Chip.cell_post _ _ _ _ _ _ hp).trans ?_
  unfold Chip.setBit
  split
  · rfl
  · exact Chip.cell_wr_other _ _ _ _ hh

@[simp] theorem Chip.get_netCount_other (hc : (NET_CNT p k).off ≠ r.off) (hh : (NET_CNT_HALF p).off ≠ r.off) (hp : r.off / 65536 ≠ 1) :
    (c.netCount p k n).get r = c.get r := Chip.get_of_cell (c.cell_netCount p k n hc hh hp)
@[simp] theorem Chip.rd_netCount_other (hc : (NET_CNT p k).off ≠ f.off) (hh : (NET_CNT_HALF p).off ≠ f.off) (hp : f.off / 65536 ≠ 1) :
    (c.netCount p k n).rd f = c.rd f := Chip.rd_of_cell (c.cell_netCount p k n hc hh hp)
@[simp] theorem Chip.on_netCount_other (hc : (NET_CNT p k).off ≠ f.off) (hh : (NET_CNT_HALF p).off ≠ f.off) (hp : f.off / 65536 ≠ 1) :
    (c.netCount p k n).on f = c.on f := Chip.on_of_cell (c.cell_netCount p k n hc hh hp)

theorem NET_CNT_off : (NET_CNT p k).off = 0x401100 + 4096 * p + 4 * k := rfl
theorem NET_CNT_HALF_off : (NET_CNT_HALF p).off = 0x401020 + 4096 * p := rfl

theorem Chip.get_netCount_same (hk : k < 64) : (c.netCount p k n).get (NET_CNT p k) = (c.get (NET_CNT p k) + n) % 2 ^ 32 := by
  have hoff := NET_CNT_off p k
  have hhalf := NET_CNT_HALF_off p
  unfold Chip.netCount
  refine (Chip.when_keeps (·.get (NET_CNT p k)) _ _ ?_).trans ?_
  · refine (Chip.get_post _ _ _ _ _ _ (by omega)).trans ?_
    unfold Chip.setBit
    split
    · rfl
    · exact Chip.get_wr_other _ _ _ _ (by change (NET_CNT_HALF p).off ≠ _; omega)
  · rw [Chip.get_put_same, Nat.mod_mod]

/-- A counter advanced by nothing. -/
theorem Chip.get_netCnt_mod : (c.get (NET_CNT p k) + 0) % 2 ^ 32 = c.get (NET_CNT p k) := Nat.mod_eq_of_lt (c.get_lt _ (Nat.two_pow_pos 32))

@[simp] theorem Chip.nets_netCount : (c.netCount p k n).nets = c.nets := by
  unfold Chip.netCount
  refine (Chip.when_keeps (·.nets) _ _ ?_).trans (Chip.put_nets ..)
  unfold Chip.setBit
  split <;> simp

@[simp] theorem Chip.net_netCount (q : Nat) : (c.netCount p k n).net q = c.net q := by rw [Chip.net, Chip.net, Chip.nets_netCount]

end

/-! ### The link states -/

section
variable (c : Chip) (p : Nat)

theorem npStart_lt : c.npStart p < 8 := by
  unfold Chip.npStart
  split <;> decide

theorem Chip.rd_npTo {st : Nat} (h : st < 8) : (c.npTo p st).rd (NET_PORT_STAT_STATE p) = st := Chip.rd_wr_lt rfl h

theorem Chip.netSignalLost_shows {lock : Nat} (hlock : lock < 16)
    (h : [npAn, npTraining, npAligning, npRemote].contains (c.rd (NET_PORT_STAT_STATE p)) = true) :
    (c.netSignalLost p lock).rd (NET_PORT_STAT_STATE p) = npNoSignal ∧ (c.netSignalLost p lock).rd (NET_PORT_STAT_LANE_LOCK p) = lock
      ∧ (c.netSignalLost p lock).on (NET_PORT_STAT_REMOTE_FAULT p) = false := by
  have hst : c.npState p = npAn ∨ c.npState p = npTraining ∨ c.npState p = npAligning ∨ c.npState p = npRemote := by
    unfold Chip.npState
    simpa using h
  have hlt : npNoSignal < 8 := by decide
  have heq : c.netSignalLost p lock
      = ((c.wr (NET_PORT_STAT_LANE_LOCK p) lock).clr (NET_PORT_STAT_REMOTE_FAULT p)).npTo p npNoSignal := if_pos hst
  rw [heq]
  unfold Chip.npTo
  refine ⟨?_, ?_, ?_⟩
  all_goals
    simp (disch := grind [Fld.apart, Fld.fits_iff, Reg.fld, NET_PORT_STAT, NET_PORT_STAT_STATE, NET_PORT_STAT_LANE_LOCK, NET_PORT_STAT_REMOTE_FAULT])
      only [Chip.rd_wr_keeps, Chip.on_wr_keeps, Chip.rd_clr_keeps, Chip.rd_wr_lt, Chip.on_clr_same]

theorem Chip.netTrained_shows {pol : Nat} (hpol : pol < 16) (h : c.npState p = npTraining) :
    (c.netTrained p pol).rd (NET_PORT_STAT_STATE p) = npAligning ∧ (c.netTrained p pol).rd (NET_PORT_STAT_RX_POL p) = pol
      ∧ (c.netTrained p pol).rd (NET_PORT_STAT_LANE_LOCK p) = 15 := by
  have hlt : npAligning < 8 := by decide
  have heq : c.netTrained p pol = ((c.wr (NET_PORT_STAT_RX_POL p) pol).wr (NET_PORT_STAT_LANE_LOCK p) 15).npTo p npAligning := if_pos h
  rw [heq]
  unfold Chip.npTo
  refine ⟨?_, ?_, ?_⟩
  all_goals
    simp (disch := grind [Fld.apart, Fld.fits_iff, Reg.fld, NET_PORT_STAT, NET_PORT_STAT_STATE, NET_PORT_STAT_LANE_LOCK, NET_PORT_STAT_RX_POL])
      only [Chip.rd_wr_keeps, Chip.rd_wr_lt]

theorem Chip.netTimeout_shows (h : [npAn, npTraining, npAligning].contains (c.rd (NET_PORT_STAT_STATE p)) = true) :
    (c.netTimeout p).rd (NET_PORT_STAT_STATE p) = c.npStart p := by
  have hst : c.npState p = npAn ∨ c.npState p = npTraining ∨ c.npState p = npAligning := by
    unfold Chip.npState
    simpa using h
  have heq : c.netTimeout p = c.npTo p (c.npStart p) := if_pos hst
  rw [heq, c.rd_npTo p (npStart_lt c p)]

theorem Chip.netAligned_shows (remote : Bool) (h : c.npState p = npAligning ∨ c.npState p = npRemote) :
    (c.netAligned p remote).rd (NET_PORT_STAT_STATE p) = (if remote then npRemote else npUp)
      ∧ (c.netAligned p remote).on (NET_PORT_STAT_REMOTE_FAULT p) = remote
      ∧ (remote = false → (c.netAligned p remote).on (NET_PORT_STATUS_LINK_UP_SEEN p) = true) := by
  have hremote : npRemote < 8 := by decide
  have hup : npUp < 8 := by decide
  have heq : c.netAligned p remote = if remote then (c.set (NET_PORT_STAT_REMOTE_FAULT p)).npTo p npRemote
    else (((c.clr (NET_PORT_STAT_REMOTE_FAULT p)).npTo p npUp).set (NET_PORT_STATUS_LINK_UP_SEEN p)).post 0x0A 0x0001 p 0 := if_pos h
  rw [heq]
  unfold Chip.npTo
  cases remote
  · rw [if_neg Bool.false_ne_true, if_neg Bool.false_ne_true]
    refine ⟨?_, ?_, fun _ => ?_⟩
    all_goals
      simp (disch := grind [Fld.apart, Fld.fits_iff, Reg.fld, NET_PORT_STAT, NET_PORT_STAT_STATE, NET_PORT_STAT_REMOTE_FAULT, NET_PORT_STATUS,
        NET_PORT_STATUS_LINK_UP_SEEN]) only [Chip.rd_post, Chip.on_post, Chip.rd_set_keeps, Chip.on_set_keeps, Chip.rd_wr_lt, Chip.on_wr_keeps,
        Chip.on_clr_same, Chip.on_set_same]
  · rw [if_pos rfl, if_pos rfl]
    refine ⟨Chip.rd_wr_lt rfl hremote, ?_, fun h => Bool.noConfusion h⟩
    rw [Chip.on_wr_keeps _ _ (by exact Fld.apart_of_clear rfl rfl)]
    exact Chip.on_set_same _ rfl Nat.one_ne_zero

/-- What a port that leaves UP flags and counts. -/
def Chip.netFell (c : Chip) (p cause : Nat) : Chip := ((c.set (NET_PORT_STATUS_LINK_DOWN_SEEN p)).netCount p 18 1).post 0x0A 0x0002 p cause

theorem Chip.netFell_shows (cause : Nat) :
    (c.netFell p cause).on (NET_PORT_STATUS_LINK_DOWN_SEEN p) = true
      ∧ (c.netFell p cause).get (NET_CNT p 18) = (c.get (NET_CNT p 18) + 1) % 2 ^ 32 := by
  have hflag : NET_PORT_STATUS_LINK_DOWN_SEEN p = (NET_PORT_STATUS p).fld 0 1 := rfl
  have hoff : (NET_PORT_STATUS_LINK_DOWN_SEEN p).off = 0x401000 + 4096 * p := rfl
  have hcnt := NET_CNT_off p 18
  have hhalf := NET_CNT_HALF_off p
  unfold Chip.netFell
  constructor
  · rw [Chip.on_post _ _ _ _ _ _ (by omega), Chip.on_netCount_other _ _ _ _ (by omega) (by omega) (by omega)]
    exact Chip.on_set_same _ rfl Nat.one_ne_zero
  · rw [Chip.get_post _ _ _ _ _ _ (by omega), Chip.get_netCount_same _ _ _ _ (by omega), Chip.get_set_other _ (by omega)]

/-- The state and lock of a port that has left UP. -/
def Chip.netLanding (c : Chip) (p cause lock : Nat) : Chip :=
  let c := c.wr (NET_PORT_STAT_LANE_LOCK p) lock
  if cause = 1 then c.npTo p npNoSignal
  else if cause = 2 then c.npTo p npAligning
  else (c.set (NET_PORT_STAT_REMOTE_FAULT p)).npTo p npRemote

theorem Chip.netLost_eq (cause lock : Nat) (h : c.npState p = npUp) : c.netLost p cause lock = (c.netFell p cause).netLanding p cause lock := by
  have hdown : c.netDown p cause = c.netFell p cause := if_pos h
  unfold Chip.netLost
  rw [if_pos h, hdown]
  rfl

theorem Chip.netLanding_shows (cause : Fin 3) {lock : Nat} (hlock : lock < 16) :
    (c.netLanding p (cause.val + 1) lock).rd (NET_PORT_STAT_STATE p) = [npNoSignal, npAligning, npRemote].getD cause.val 0
      ∧ (c.netLanding p (cause.val + 1) lock).rd (NET_PORT_STAT_LANE_LOCK p) = lock := by
  have hno : npNoSignal < 8 := by decide
  have hal : npAligning < 8 := by decide
  have hre : npRemote < 8 := by decide
  unfold Chip.netLanding Chip.npTo
  match cause with
  | 0 | 1 | 2 =>
    constructor
    all_goals
      simp (disch := grind [Fld.apart, Fld.fits_iff, Reg.fld, NET_PORT_STAT, NET_PORT_STAT_STATE, NET_PORT_STAT_LANE_LOCK, NET_PORT_STAT_REMOTE_FAULT])
        [Chip.rd_wr_lt]

/-- What is not in the status register of the port is as it fell. -/
theorem Chip.cell_netLanding (cause lock : Nat) {o : Nat} (ho : (NET_PORT_STAT p).off ≠ o) : (c.netLanding p cause lock).cell o = c.cell o := by
  unfold Chip.netLanding Chip.npTo
  dsimp only
  have hset := Chip.cell_wr_other (c.wr (NET_PORT_STAT_LANE_LOCK p) lock) (NET_PORT_STAT_REMOTE_FAULT p) 1 o ho
  have hlock := Chip.cell_wr_other c (NET_PORT_STAT_LANE_LOCK p) lock o ho
  split
  · exact (Chip.cell_wr_other _ (NET_PORT_STAT_STATE p) _ _ ho).trans hlock
  · split
    · exact (Chip.cell_wr_other _ (NET_PORT_STAT_STATE p) _ _ ho).trans hlock
    · exact (Chip.cell_wr_other _ (NET_PORT_STAT_STATE p) _ _ ho).trans (hset.trans hlock)

/-! ### Gate lists -/

theorem Chip.gates_gclBoundary (hp : p < 2) : ((c.gclBoundary p).net p).gates = c.gclGates p := by
  have hset : ((c.setNet p { c.net p with gates := c.gclGates p }).net p).gates = c.gclGates p := by
    rw [Chip.net_setNet _ _ _ _ hp, if_pos rfl]
  unfold Chip.gclBoundary
  dsimp only
  split
  · rw [Chip.net, Chip.wr_nets]
    exact hset
  · exact hset

theorem Chip.cycleAt_gclBoundary (hp : p < 2) : ((c.gclBoundary p).net p).cycleAt = (c.net p).cycleAt := by
  have hset : ((c.setNet p { c.net p with gates := c.gclGates p }).net p).cycleAt = (c.net p).cycleAt := by
    rw [Chip.net_setNet _ _ _ _ hp, if_pos rfl]
  unfold Chip.gclBoundary
  dsimp only
  split
  · rw [Chip.net, Chip.wr_nets]
    exact hset
  · exact hset

theorem Chip.cell_gclBoundary {o : Nat} (ho : (NET_GCL_BASE p).off ≠ o) : (c.gclBoundary p).cell o = c.cell o := by
  have hset : (c.setNet p { c.net p with gates := c.gclGates p }).cell o = c.cell o := Chip.cell_of_regs (Chip.setNet_regs ..) o
  unfold Chip.gclBoundary
  dsimp only
  split
  · exact (Chip.cell_wr_other _ (NET_GCL_BASE_SYSTIME p) _ _ ho).trans hset
  · exact hset

/-- The registers of the running list as the pending one takes. -/
def Chip.gclLoaded (c : Chip) (p : Nat) (l : List Nat) : Chip :=
  let c := ((c.wrB (NET_GCL_CTL_ENABLE p) (c.on (NET_GCL_CTL_SHADOW_ENABLE p))).wr (NET_GCL_CTL_ENTRIES p) l.length).clr (NET_GCL_CTL_PENDING p)
  (c.put (NET_GCL_CYCLE p) (c.get (NET_GCL_SHADOW_CYCLE p))).each (List.range l.length) fun c e => c.put (NET_GCL p e) (l.getD e 0)

theorem Chip.gclTaken_eq (hpend : c.on (NET_GCL_CTL_PENDING p) = true) (hdue : (c.net p).startAt ≤ c.clock.n) :
    c.gclTaken p = (((((c.gclLoaded p (c.gclShadow p)).setNet p
        { (c.gclLoaded p (c.gclShadow p)).net p with cycleAt := (c.net p).startAt }).gclBoundary p).set (NET_PORT_STATUS_GCL_TAKEN p)).post
          0x0A 0x0005 p (c.net p).startAt) :=
  if_pos (by rw [hpend, decide_eq_true hdue]; rfl)

theorem Chip.gclLoaded_ctl (l : List Nat) (hl : l.length ≤ 256) :
    (c.gclLoaded p l).on (NET_GCL_CTL_PENDING p) = false
      ∧ (c.gclLoaded p l).on (NET_GCL_CTL_ENABLE p) = c.on (NET_GCL_CTL_SHADOW_ENABLE p)
      ∧ (c.gclLoaded p l).rd (NET_GCL_CTL_ENTRIES p) = l.length := by
  have hctl : (NET_GCL_CTL p).off = 0x401040 + 4096 * p := rfl
  have hcycle : (NET_GCL_CYCLE p).off = 0x401044 + 4096 * p := rfl
  have hkeep (o : Nat) (ho : o = (NET_GCL_CTL p).off) : (c.gclLoaded p l).cell o
      = (((c.wrB (NET_GCL_CTL_ENABLE p) (c.on (NET_GCL_CTL_SHADOW_ENABLE p))).wr (NET_GCL_CTL_ENTRIES p) l.length).clr (NET_GCL_CTL_PENDING p)).cell o := by
    refine (Chip.each_keeps (·.cell o) _ _ (fun d e _ => Chip.cell_put_other _ _ _ _ ?_) _).trans (Chip.cell_put_other _ _ _ _ (by omega))
    have hgcl : (NET_GCL p e).off = 0x401400 + 4096 * p + 4 * e := rfl
    omega
  rw [Chip.on_of_cell (hkeep _ rfl), Chip.on_of_cell (hkeep _ rfl), Chip.rd_of_cell (hkeep _ rfl)]
  have hlen : l.length < 2 ^ 9 := by omega
  refine ⟨?_, ?_, ?_⟩
  all_goals
    simp (disch := grind [Fld.apart, Fld.fits_iff, Reg.fld, NET_GCL_CTL, NET_GCL_CTL_ENABLE, NET_GCL_CTL_PENDING, NET_GCL_CTL_ENTRIES]) only
      [Chip.on_clr_same, Chip.on_clr_keeps, Chip.on_wr_keeps, Chip.on_wrB_same, Chip.rd_clr_keeps, Chip.rd_wr_lt]

theorem Chip.gclLoaded_list (l : List Nat) {e : Nat} (he : e < l.length) : (c.gclLoaded p l).get (NET_GCL p e) = l.getD e 0 % 2 ^ 32 := by
  refine Chip.each_establishes (fun d => d.get (NET_GCL p e) = l.getD e 0 % 2 ^ 32) _ _ e (List.mem_range.2 he) (fun d => Chip.get_put_same ..)
    (fun d i _ h => ?_) _
  by_cases hi : i = e
  · rw [hi]
    exact Chip.get_put_same ..
  · rw [Chip.get_put_other _ _ _ _ (by change 0x401400 + 4096 * p + 4 * i ≠ 0x401400 + 4096 * p + 4 * e; omega), h]

theorem Chip.gclLoaded_cycle (l : List Nat) : (c.gclLoaded p l).get (NET_GCL_CYCLE p) = c.get (NET_GCL_SHADOW_CYCLE p) := by
  have hcycle : (NET_GCL_CYCLE p).off = 0x401044 + 4096 * p := rfl
  refine (Chip.each_keeps (·.get (NET_GCL_CYCLE p)) _ _ (fun d e _ => Chip.get_put_other _ _ _ _ ?_) _).trans ?_
  · have hgcl : (NET_GCL p e).off = 0x401400 + 4096 * p + 4 * e := rfl
    omega
  · have hctl : (NET_GCL_CTL p).off = 0x401040 + 4096 * p := rfl
    have hshadow : (NET_GCL_SHADOW_CYCLE p).off = 0x401050 + 4096 * p := rfl
    have hother (f : Fld) (hf : f.off = (NET_GCL_CTL p).off) : f.off ≠ (NET_GCL_SHADOW_CYCLE p).off := by omega
    rw [Chip.get_put_same, Chip.get_clr_other _ (hother (NET_GCL_CTL_PENDING p) rfl), Chip.get_wr_other _ _ _ _ (hother (NET_GCL_CTL_ENTRIES p) rfl),
      Chip.get_wrB_other _ _ (hother (NET_GCL_CTL_ENABLE p) rfl)]
    exact Nat.mod_eq_of_lt (c.get_lt _ (Nat.two_pow_pos 32))

/-- What the list's taking leaves of the loaded registers: all but the base of the cycle, the status of the port and the event page. -/
theorem Chip.cell_gclTaken (hpend : c.on (NET_GCL_CTL_PENDING p) = true) (hdue : (c.net p).startAt ≤ c.clock.n) {o : Nat}
    (hb : (NET_GCL_BASE p).off ≠ o) (hs : (NET_PORT_STATUS p).off ≠ o) (hp : o / 65536 ≠ 1) :
    (c.gclTaken p).cell o = (c.gclLoaded p (c.gclShadow p)).cell o := by
  rw [c.gclTaken_eq p hpend hdue]
  refine (Chip.cell_post _ _ _ _ _ _ hp).trans ((Chip.cell_wr_other _ (NET_PORT_STATUS_GCL_TAKEN p) _ _ hs).trans ?_)
  exact (Chip.cell_gclBoundary _ p hb).trans (Chip.cell_of_regs (Chip.setNet_regs ..) o)

theorem Chip.length_gclShadow : (c.gclShadow p).length = c.rd (NET_GCL_CTL_SHADOW_ENTRIES p) := by
  rw [Chip.gclShadow, List.length_map, List.length_range]

theorem Chip.gclTaken_shows (hp : p < 2) (hpend : c.on (NET_GCL_CTL_PENDING p) = true) (hdue : (c.net p).startAt ≤ c.clock.n)
    (hlen : c.rd (NET_GCL_CTL_SHADOW_ENTRIES p) ≤ 256) :
    (c.gclTaken p).on (NET_GCL_CTL_PENDING p) = false ∧ (c.gclTaken p).on (NET_GCL_CTL_ENABLE p) = c.on (NET_GCL_CTL_SHADOW_ENABLE p)
      ∧ (c.gclTaken p).gcl p = c.gclShadow p ∧ (c.gclTaken p).get (NET_GCL_CYCLE p) = c.get (NET_GCL_SHADOW_CYCLE p)
      ∧ ((c.gclTaken p).net p).cycleAt = (c.net p).startAt ∧ (c.gclTaken p).on (NET_PORT_STATUS_GCL_TAKEN p) = true := by
  have hctl : (NET_GCL_CTL p).off = 0x401040 + 4096 * p := rfl
  have hcycle : (NET_GCL_CYCLE p).off = 0x401044 + 4096 * p := rfl
  have hbase : (NET_GCL_BASE p).off = 0x401048 + 4096 * p := rfl
  have hstatus : (NET_PORT_STATUS p).off = 0x401000 + 4096 * p := rfl
  have hlist (e : Nat) : (NET_GCL p e).off = 0x401400 + 4096 * p + 4 * e := rfl
  have hkeep {o : Nat} (hb : (NET_GCL_BASE p).off ≠ o) (hs : (NET_PORT_STATUS p).off ≠ o) (hpage : o / 65536 ≠ 1) := c.cell_gclTaken p hpend hdue hb hs hpage
  obtain ⟨hoff, hen, hentries⟩ := c.gclLoaded_ctl p (c.gclShadow p) (by rw [c.length_gclShadow]; exact hlen)
  have hctlKeep : (c.gclTaken p).cell (NET_GCL_CTL p).off = _ := hkeep (by omega) (by omega) (by omega)
  refine ⟨(Chip.on_of_cell hctlKeep).trans hoff, (Chip.on_of_cell hctlKeep).trans hen, ?_,
    (Chip.get_of_cell (hkeep (by omega) (by omega) (by omega))).trans (c.gclLoaded_cycle p _), ?_, ?_⟩
  · rw [Chip.gcl, (Chip.rd_of_cell hctlKeep : (c.gclTaken p).rd (NET_GCL_CTL_ENTRIES p) = _), hentries, c.length_gclShadow, Chip.gclShadow]
    refine List.map_congr_left fun e he => ?_
    have helt : e < (c.gclShadow p).length := by rw [c.length_gclShadow]; exact List.mem_range.1 he
    rw [Chip.get_of_cell (hkeep (by have := hlist e; omega) (by have := hlist e; omega) (by have := hlist e; omega)), c.gclLoaded_list p _ helt]
    have hentry : (c.gclShadow p).getD e 0 = c.get (NET_GCL_SHADOW p e) := by
      rw [List.getD_eq_getElem?_getD, Chip.gclShadow, List.getElem?_map, List.getElem?_range (List.mem_range.1 he)]
      rfl
    rw [hentry, Nat.mod_eq_of_lt (c.get_lt _ (Nat.two_pow_pos 32))]
  · have hnets : (c.gclTaken p).nets = (((c.gclLoaded p (c.gclShadow p)).setNet p
        { (c.gclLoaded p (c.gclShadow p)).net p with cycleAt := (c.net p).startAt }).gclBoundary p).nets := by
      rw [c.gclTaken_eq p hpend hdue, Chip.post_nets, Chip.set_def, Chip.wr_nets]
    rw [Chip.net, hnets]
    refine (Chip.cycleAt_gclBoundary _ p hp).trans ?_
    rw [Chip.net_setNet _ _ _ _ hp, if_pos rfl]
  · rw [c.gclTaken_eq p hpend hdue, Chip.on_post _ _ _ _ _ _ (by change (NET_PORT_STATUS p).off / _ ≠ 1; omega)]
    exact Chip.on_set_same _ rfl Nat.one_ne_zero

end

/-- Settles O45: a transition writes the state once and its fields beside it; a list that takes is loaded entry by entry. -/
theorem netLinkStates : Obligations.NetLinkStates := by
  unfold Obligations.NetLinkStates
  refine ⟨⟨?_, ?_, ?_, ?_, ?_, ?_, ?_⟩, ?_, ?_, ?_⟩
  · rintro s t p c rfl hlive hst
    have heq : (s.chipAt t).netSignal p.val = (s.chipAt t).npTo p.val ((s.chipAt t).npStart p.val) := if_pos hst
    have hshow := (s.chipAt t).rd_npTo p.val (npStart_lt (s.chipAt t) p.val)
    rw [← heq] at hshow
    exact ⟨_, State.event_live s t _ hlive, hshow⟩
  · rintro s t p lock c rfl hlive hst
    exact ⟨_, State.event_live s t _ hlive, (s.chipAt t).netSignalLost_shows p.val lock.isLt hst⟩
  · rintro s t p c rfl hlive hst
    have heq : (s.chipAt t).netAnDone p.val = (s.chipAt t).npTo p.val npTraining := if_pos hst
    have hshow := (s.chipAt t).rd_npTo p.val (by decide : npTraining < 8)
    rw [← heq] at hshow
    exact ⟨_, State.event_live s t _ hlive, hshow⟩
  · rintro s t p pol c rfl hlive hst
    exact ⟨_, State.event_live s t _ hlive, (s.chipAt t).netTrained_shows p.val pol.isLt hst⟩
  · rintro s t p c rfl hlive hst
    exact ⟨_, State.event_live s t _ hlive, (s.chipAt t).netTimeout_shows p.val hst⟩
  · rintro s t p remote c rfl hlive hst
    exact ⟨_, State.event_live s t _ hlive, (s.chipAt t).netAligned_shows p.val remote hst⟩
  · rintro s t p cause lock c rfl hlive hst
    have heq := (s.chipAt t).netLost_eq p.val (cause.val + 1) lock.toNat hst
    obtain ⟨hflag, hcount⟩ := (s.chipAt t).netFell_shows p.val (cause.val + 1)
    obtain ⟨hstate, hlock⟩ := ((s.chipAt t).netFell p.val (cause.val + 1)).netLanding_shows p.val cause lock.isLt
    have hkeep {o : Nat} (ho : (NET_PORT_STAT p.val).off ≠ o) := ((s.chipAt t).netFell p.val (cause.val + 1)).cell_netLanding p.val (cause.val + 1) lock.toNat ho
    have hstat : (NET_PORT_STAT p.val).off = 0x40100c + 4096 * p.val := rfl
    have hstatus : (NET_PORT_STATUS_LINK_DOWN_SEEN p.val).off = 0x401000 + 4096 * p.val := rfl
    have hcnt := NET_CNT_off p.val 18
    rw [← heq] at hstate hlock hkeep
    exact ⟨_, State.event_live s t _ hlive, hstate, (Chip.on_of_cell (hkeep (by omega))).trans hflag, hlock,
      (Chip.get_of_cell (hkeep (by omega))).trans hcount⟩
  · rintro s t p c rfl hlive
    exact ⟨_, State.event_live s t _ hlive, (s.chipAt t).gates_gclBoundary p.val p.isLt⟩
  · rintro s t p c rfl hlive hpend hdue hlen
    exact ⟨_, State.event_live s t _ hlive, (s.chipAt t).gclTaken_shows p.val p.isLt hpend hdue hlen⟩
  · rintro s t p c rfl hready
    have heq : ((s.chipAt t).igmpReport p.val).net p.val = { (s.chipAt t).net p.val with
        igmp := (s.chipAt t).joined.flatMap fun f => (((s.chipAt t).legsOf f).filter fun l => l.2 == p.val).map fun l =>
          ((s.chipAt t).legAddr f l.1, (s.chipAt t).legSrc f l.1) } := by
      unfold Chip.igmpReport
      rw [hready, if_neg (by decide), Chip.net_setNet _ _ _ _ p.isLt, if_pos rfl]
    exact ⟨_, State.fwStep_ready s t _ hready, congrArg NetPort.igmp heq⟩

end Sys2Proof.Machine
end

section
/-! SUPPORT. Frames that a network port receives and sends (R371 to R382, R386). -/

namespace Sys2Proof.Machine

/-! ### What a counter leaves of the checks of a frame -/

/-- Two chips that agree on the settings of a port and on the receive flows, and on the port's state. -/
structure Chip.NetAlike (p : Nat) (c d : Chip) : Prop where
  cell : ∀ o, o = (NET_PORT_CFG p).off ∨ o = (NET_MAC_LO p).off ∨ o = (NET_MAC_HI p).off ∨ 0x404000 ≤ o → d.cell o = c.cell o
  net : d.net p = c.net p
  now : d.now = c.now

section
variable {c d : Chip} {p : Nat}

theorem Chip.NetAlike.flows (h : Chip.NetAlike p c d) {o : Nat} (ho : 0x404000 ≤ o) : d.cell o = c.cell o := h.cell o (.inr (.inr (.inr ho)))

theorem Chip.NetAlike.joined (h : Chip.NetAlike p c d) : d.joined = c.joined := by
  unfold Chip.joined
  refine List.filter_congr fun x _ => Chip.on_of_cell (h.flows ?_)
  change 0x404000 ≤ 0x404000 + 128 * x
  omega

theorem Chip.NetAlike.legsOf (h : Chip.NetAlike p c d) (x : Nat) : d.legsOf x = c.legsOf x := by
  have hctl : 0x404000 ≤ (NET_RXF_CTL x).off := by
    change 0x404000 ≤ 0x404000 + 128 * x
    omega
  have hdual : d.on (NET_RXF_CTL_DUAL x) = c.on (NET_RXF_CTL_DUAL x) := Chip.on_of_cell (h.flows hctl)
  have hport : d.rd (NET_RXF_CTL_PORT x) = c.rd (NET_RXF_CTL_PORT x) := Chip.rd_of_cell (h.flows hctl)
  rw [Chip.legsOf, hdual, hport, Chip.legsOf]

theorem Chip.NetAlike.legAddr (h : Chip.NetAlike p c d) (x l : Nat) : d.legAddr x l = c.legAddr x l :=
  Chip.get_of_cell (h.flows (by change 0x404000 ≤ 0x404008 + 128 * x + 12 * l; omega))
theorem Chip.NetAlike.legSrc (h : Chip.NetAlike p c d) (x l : Nat) : d.legSrc x l = c.legSrc x l :=
  Chip.get_of_cell (h.flows (by change 0x404000 ≤ 0x40400c + 128 * x + 12 * l; omega))
theorem Chip.NetAlike.legUdp (h : Chip.NetAlike p c d) (x l : Nat) : d.legUdp x l = c.legUdp x l :=
  Chip.rd_of_cell (h.flows (by change 0x404000 ≤ 0x404010 + 128 * x + 12 * l; omega))

theorem Chip.NetAlike.maxLen (h : Chip.NetAlike p c d) : d.maxLen p = c.maxLen p := Chip.rd_of_cell (h.cell _ (.inl rfl))

theorem Chip.NetAlike.netMac (h : Chip.NetAlike p c d) : d.netMac p = c.netMac p := by
  have hlo : d.get (NET_MAC_LO p) = c.get (NET_MAC_LO p) := Chip.get_of_cell (h.cell _ (.inr (.inl rfl)))
  have hhi : d.get (NET_MAC_HI p) = c.get (NET_MAC_HI p) := Chip.get_of_cell (h.cell _ (.inr (.inr (.inl rfl))))
  rw [Chip.netMac, hlo, hhi, Chip.netMac]

theorem Chip.NetAlike.accepts (h : Chip.NetAlike p c d) (da : Nat) : d.accepts p da = c.accepts p da := by
  simp only [Chip.accepts, h.netMac, h.joined, h.legsOf, h.legAddr]

theorem Chip.NetAlike.rxCheck (h : Chip.NetAlike p c d) (f : NetFrame) : d.rxCheck p f = c.rxCheck p f := by
  simp only [Chip.rxCheck, h.maxLen, h.accepts]

theorem Chip.NetAlike.isMedia (h : Chip.NetAlike p c d) (f : NetFrame) : d.isMedia p f = c.isMedia p f := by
  simp only [Chip.isMedia, h.joined, h.legsOf, h.legAddr, h.legUdp, h.legSrc]

theorem Chip.NetAlike.rxQueue (h : Chip.NetAlike p c d) (f : NetFrame) : d.rxQueue p f = c.rxQueue p f := by
  rw [Chip.rxQueue, Chip.mediaLevel, h.isMedia, h.maxLen, h.net, h.now, Chip.rxQueue, Chip.mediaLevel]

theorem Chip.NetAlike.refl : Chip.NetAlike p c c := ⟨fun _ _ => rfl, rfl, rfl⟩

theorem Chip.NetAlike.netCount (h : Chip.NetAlike p c d) (hp : p < 2) (k n : Nat) (hk : k < 64) : Chip.NetAlike p c (d.netCount p k n) := by
  have hcfg : (NET_PORT_CFG p).off = 0x401008 + 4096 * p := rfl
  have hlo : (NET_MAC_LO p).off = 0x401010 + 4096 * p := rfl
  have hhi : (NET_MAC_HI p).off = 0x401014 + 4096 * p := rfl
  have hcnt := NET_CNT_off p k
  have hhalf := NET_CNT_HALF_off p
  refine ⟨fun o ho => (Chip.cell_netCount _ _ _ _ (by omega) (by omega) (by omega)).trans (h.cell o ho), (Chip.net_netCount ..).trans h.net, ?_⟩
  refine Eq.trans ?_ h.now
  unfold Chip.netCount
  refine (Chip.when_keeps (·.now) _ _ ?_).trans (Chip.put_now ..)
  unfold Chip.setBit
  split <;> simp

end

/-! ### A frame received -/

section
variable (c : Chip) (p : Nat)

/-- The codewords of a frame counted. -/
def Chip.rxCodewords (c : Chip) (p : Nat) (f : NetFrame) : Chip := (c.netCount p 16 f.corrected).netCount p 17 f.uncorrectable

theorem Chip.rxCodewords_alike (hp : p < 2) (f : NetFrame) : Chip.NetAlike p c (c.rxCodewords p f) :=
  (Chip.NetAlike.refl.netCount hp 16 _ (by omega)).netCount hp 17 _ (by omega)

theorem Chip.get_netCount_cnt {k j : Nat} (n : Nat) (hj : k ≠ j) : (c.netCount p k n).get (NET_CNT p j) = c.get (NET_CNT p j) := by
  have hk := NET_CNT_off p k
  have hcnt := NET_CNT_off p j
  have hhalf := NET_CNT_HALF_off p
  exact Chip.get_netCount_other _ _ _ _ (by omega) (by omega) (by omega)

/-- What follows the codewords of a frame: the counter of the check it fails, or its queue. -/
def Chip.rxOutcome (c : Chip) (p : Nat) (f : NetFrame) : Chip :=
  match c.rxCheck p f with
  | some k => c.netCount p k 1
  | none =>
    let (q, room) := c.rxQueue p f
    if room then ((c.enqueue p q f.len).netCount p 0 1).rxOctets p f.len
    else
      let flag := (NET_PORT_STATUS p).fld (2 + q) 1
      let was := c.on flag
      ((c.netCount p (8 + q) 1).set flag).when (!was) (·.post 0x0A 0x0003 p q)

theorem Chip.frameReceived_eq (f : NetFrame) (h : c.npState p = npUp ∨ f.code = true) :
    c.frameReceived p f = (c.rxCodewords p f).rxOutcome p f := by
  unfold Chip.frameReceived
  rw [if_neg]
  · rfl
  · rintro ⟨hdown, hcode⟩
    rcases h with h | h
    · exact hdown h
    · rw [h] at hcode
      contradiction

theorem Chip.rxOutcome_failed (f : NetFrame) {k : Nat} (h : c.rxCheck p f = some k) : c.rxOutcome p f = c.netCount p k 1 := by
  rw [Chip.rxOutcome, h]

/-- A delivered frame: in its queue, and counted. -/
def Chip.rxDelivered (c : Chip) (p q : Nat) (f : NetFrame) : Chip := ((c.enqueue p q f.len).netCount p 0 1).rxOctets p f.len

theorem Chip.rxOutcome_delivered (f : NetFrame) {q : Nat} (h : c.rxCheck p f = none) (hq : c.rxQueue p f = (q, true)) :
    c.rxOutcome p f = c.rxDelivered p q f := by
  rw [Chip.rxOutcome, h]
  dsimp only
  rw [hq]
  rfl

/-- A frame dropped at a full queue. -/
def Chip.rxDropped (c : Chip) (p q : Nat) : Chip :=
  ((c.netCount p (8 + q) 1).set ((NET_PORT_STATUS p).fld (2 + q) 1)).when (!(c.on ((NET_PORT_STATUS p).fld (2 + q) 1))) (·.post 0x0A 0x0003 p q)

theorem Chip.rxOutcome_dropped (f : NetFrame) {q : Nat} (h : c.rxCheck p f = none) (hq : c.rxQueue p f = (q, false)) :
    c.rxOutcome p f = c.rxDropped p q := by
  rw [Chip.rxOutcome, h]
  dsimp only
  rw [hq]
  rfl

/-- The counters of the checks lie between those of the delivered frames and of the queues. -/
theorem Chip.rxCheck_range {f : NetFrame} {k : Nat} (h : c.rxCheck p f = some k) : 2 ≤ k ∧ k ≤ 7 := by
  unfold Chip.rxCheck at h
  repeat' split at h
  all_goals cases h
  all_goals omega

theorem Chip.get_rxCodewords (f : NetFrame) {j : Nat} (hj : j < 16) : (c.rxCodewords p f).get (NET_CNT p j) = c.get (NET_CNT p j) := by
  rw [Chip.rxCodewords, Chip.get_netCount_cnt _ _ _ (by omega), Chip.get_netCount_cnt _ _ _ (by omega)]

theorem Chip.rxCodewords_counts (f : NetFrame) :
    (c.rxCodewords p f).get (NET_CNT p 16) = (c.get (NET_CNT p 16) + f.corrected) % 2 ^ 32
      ∧ (c.rxCodewords p f).get (NET_CNT p 17) = (c.get (NET_CNT p 17) + f.uncorrectable) % 2 ^ 32 := by
  constructor
  · rw [Chip.rxCodewords, Chip.get_netCount_cnt _ _ _ (by omega), Chip.get_netCount_same _ _ _ _ (by omega)]
  · rw [Chip.rxCodewords, Chip.get_netCount_same _ _ _ _ (by omega), Chip.get_netCount_cnt _ _ _ (by omega)]

theorem Chip.enqueue_regs (q len : Nat) : (c.enqueue p q len).regs = c.regs := by
  unfold Chip.enqueue
  dsimp only
  split
  · rfl
  · split <;> rfl

theorem Chip.rxRem_enqueue (hp : p < 2) (q len : Nat) : ((c.enqueue p q len).net p).rxRem = (c.net p).rxRem := by
  unfold Chip.enqueue
  dsimp only
  split
  · rw [Chip.net_setNet _ _ _ _ hp, if_pos rfl]
  · split <;> rw [Chip.net_setNet _ _ _ _ hp, if_pos rfl]

theorem Chip.rxOctets_eq (n : Nat) :
    c.rxOctets p n = (c.setNet p { c.net p with rxRem := ((c.net p).rxRem + n) % 128 }).netCount p 1 (((c.net p).rxRem + n) / 128) := rfl

theorem Chip.rxDelivered_counts (hp : p < 2) (q : Nat) (f : NetFrame) :
    (c.rxDelivered p q f).get (NET_CNT p 0) = (c.get (NET_CNT p 0) + 1) % 2 ^ 32
      ∧ (c.rxDelivered p q f).get (NET_CNT p 1) = (c.get (NET_CNT p 1) + ((c.net p).rxRem + f.len) / 128) % 2 ^ 32
      ∧ ∀ j, 1 < j → (c.rxDelivered p q f).get (NET_CNT p j) = c.get (NET_CNT p j) := by
  have henq (r : Reg) : (c.enqueue p q f.len).get r = c.get r := Chip.get_of_cell (Chip.cell_of_regs (c.enqueue_regs p q f.len) _)
  have hrem : (((c.enqueue p q f.len).netCount p 0 1).net p).rxRem = (c.net p).rxRem :=
    (congrArg NetPort.rxRem (Chip.net_netCount ..)).trans (c.rxRem_enqueue p hp q f.len)
  unfold Chip.rxDelivered
  rw [Chip.rxOctets_eq, hrem]
  refine ⟨?_, ?_, fun j hj => ?_⟩
  · rw [Chip.get_netCount_cnt _ _ _ (by omega), Chip.setNet_get, Chip.get_netCount_same _ _ _ _ (by omega), henq]
  · rw [Chip.get_netCount_same _ _ _ _ (by omega), Chip.setNet_get, Chip.get_netCount_cnt _ _ _ (by omega), henq]
  · rw [Chip.get_netCount_cnt _ _ _ (by omega), Chip.setNet_get, Chip.get_netCount_cnt _ _ _ (by omega), henq]

theorem Chip.rxDropped_shows (q : Fin 3) :
    (c.rxDropped p q.val).get (NET_CNT p 0) = c.get (NET_CNT p 0)
      ∧ (c.rxDropped p q.val).get (NET_CNT p (8 + q.val)) = (c.get (NET_CNT p (8 + q.val)) + 1) % 2 ^ 32
      ∧ (c.rxDropped p q.val).on ((NET_PORT_STATUS p).fld (2 + q.val) 1) = true := by
  have hflag : ((NET_PORT_STATUS p).fld (2 + q.val) 1).off = 0x401000 + 4096 * p := rfl
  have hcnt (j : Nat) := NET_CNT_off p j
  have hget (j : Nat) : (c.rxDropped p q.val).get (NET_CNT p j) = (c.netCount p (8 + q.val) 1).get (NET_CNT p j) := by
    have hj := hcnt j
    rw [Chip.rxDropped, Chip.get_when, Chip.get_post _ _ _ _ _ _ (by omega), ite_self, Chip.get_set_other _ (by omega)]
  refine ⟨(hget 0).trans (Chip.get_netCount_cnt _ _ _ (by omega)), (hget _).trans (Chip.get_netCount_same _ _ _ _ (by omega)), ?_⟩
  rw [Chip.rxDropped, Chip.on_when, Chip.on_post _ _ _ _ _ _ (by omega), ite_self]
  exact Chip.on_set_same _ (by have := q.isLt; exact Fld.fits_iff.2 (by change 2 + q.val + 1 ≤ 32; omega)) Nat.one_ne_zero

/-! ### Frames sent -/

theorem Chip.discLink_counts (n : Nat) :
    (c.discLink p n).get (NET_CNT p 13) = (c.get (NET_CNT p 13) + n) % 2 ^ 32
      ∧ (∀ j, j ≠ 13 → (c.discLink p n).get (NET_CNT p j) = c.get (NET_CNT p j))
      ∧ (c.discLink p n).on (NET_PORT_STATUS_TX_DISC_LINK p) = (c.on (NET_PORT_STATUS_TX_DISC_LINK p) || decide (n ≠ 0)) := by
  have hflag : (NET_PORT_STATUS_TX_DISC_LINK p).off = 0x401000 + 4096 * p := rfl
  have hcnt (j : Nat) := NET_CNT_off p j
  have hhalf := NET_CNT_HALF_off p
  have hget (j : Nat) : (c.discLink p n).get (NET_CNT p j) = (c.netCount p 13 n).get (NET_CNT p j) :=
    Chip.when_keeps (·.get (NET_CNT p j)) _ _ (Chip.get_set_other _ (by have := hcnt j; omega))
  refine ⟨(hget 13).trans (Chip.get_netCount_same _ _ _ _ (by omega)), fun j hj => (hget j).trans (Chip.get_netCount_cnt _ _ _ (by omega)), ?_⟩
  rw [Chip.discLink, Chip.on_when, Chip.on_set_same _ rfl Nat.one_ne_zero,
    Chip.on_netCount_other _ _ _ _ (by have := hcnt 13; omega) (by omega) (by omega)]
  by_cases hn : n = 0 <;> simp [hn]

theorem Chip.txOctets_eq (n : Nat) :
    c.txOctets p n = (c.setNet p { c.net p with txRem := ((c.net p).txRem + n) % 128 }).netCount p 12 (((c.net p).txRem + n) / 128) := rfl

/-- Head frames that fit no interval of their class are discarded. -/
def Chip.txNoFit (c : Chip) (p : Nat) (bad : List (Nat × Nat)) : Chip :=
  c.each bad fun c h => ((c.netCount p 14 1).set (NET_PORT_STATUS_TX_NOFIT p)).when (!(c.on (NET_PORT_STATUS_TX_NOFIT p))) (·.post 0x0A 0x0004 p h.1)

theorem Chip.txNoFit_step (h : Nat × Nat) (j : Nat) :
    (((c.netCount p 14 1).set (NET_PORT_STATUS_TX_NOFIT p)).when (!(c.on (NET_PORT_STATUS_TX_NOFIT p))) (·.post 0x0A 0x0004 p h.1)).get (NET_CNT p j)
      = (c.netCount p 14 1).get (NET_CNT p j) := by
  have hcnt := NET_CNT_off p j
  have hflag : (NET_PORT_STATUS_TX_NOFIT p).off = 0x401000 + 4096 * p := rfl
  rw [Chip.get_when, Chip.get_post _ _ _ _ _ _ (by omega), ite_self, Chip.get_set_other _ (by omega)]

theorem Chip.txNoFit_count (bad : List (Nat × Nat)) : (c.txNoFit p bad).get (NET_CNT p 14) = (c.get (NET_CNT p 14) + bad.length) % 2 ^ 32 := by
  induction bad generalizing c with
  | nil => exact (Chip.get_netCnt_mod c p 14).symm
  | cons h bad ih =>
    rw [Chip.txNoFit, Chip.each_cons]
    refine (ih _).trans ?_
    rw [Chip.txNoFit_step, Chip.get_netCount_same _ _ _ _ (by omega), List.length_cons]
    omega

theorem Chip.txNoFit_other (bad : List (Nat × Nat)) {j : Nat} (hj : j ≠ 14) : (c.txNoFit p bad).get (NET_CNT p j) = c.get (NET_CNT p j) :=
  Chip.each_keeps (·.get (NET_CNT p j)) _ _ (fun d h _ => (d.txNoFit_step p h j).trans (Chip.get_netCount_cnt _ _ _ (by omega))) c

theorem Chip.net_txNoFit (bad : List (Nat × Nat)) : (c.txNoFit p bad).net p = c.net p := by
  refine Chip.each_keeps (·.net p) _ _ (fun d h _ => ?_) c
  refine (Chip.when_keeps (·.net p) _ _ ?_).trans ?_
  · rw [Chip.net, Chip.post_nets, Chip.net]
  · rw [Chip.net, Chip.set_def, Chip.wr_nets]
    exact Chip.net_netCount ..

/-- The frame that leaves, or is cut short. -/
def Chip.txSend (c : Chip) (p : Nat) (go : List (Nat × Nat)) (cut : Bool) : Chip :=
  match (sortBy (fun h => 7 - h.1) go).head? with
  | none => c
  | some h => if cut then c.discLink p 1 else (c.netCount p 11 1).txOctets p (max 64 h.2)

theorem length_sortBy {α : Type} (key : α → Nat) (l : List α) : (sortBy key l).length = l.length := by
  have hfold (acc : List α) : (l.foldl (fun acc x => insertBy key x acc) acc).length = acc.length + l.length := by
    induction l generalizing acc with
    | nil => rfl
    | cons x l ih =>
      rw [List.foldl_cons, ih, length_insertBy, List.length_cons]
      omega
  exact (hfold []).trans (Nat.zero_add _)

theorem isEmpty_of_head?_sortBy {α : Type} {key : α → Nat} {l : List α} : l.isEmpty = (sortBy key l).head?.isNone := by
  have hlen := length_sortBy key l
  cases l with
  | nil => rfl
  | cons x l =>
    cases hs : sortBy key (x :: l) with
    | nil =>
      rw [hs] at hlen
      exact absurd hlen (by simp)
    | cons y ys => rfl

theorem Chip.txSend_counts (go : List (Nat × Nat)) (cut : Bool) :
    (c.txSend p go cut).get (NET_CNT p 11) = (c.get (NET_CNT p 11) + (if go.isEmpty || cut then 0 else 1)) % 2 ^ 32
      ∧ (c.txSend p go cut).get (NET_CNT p 13) = (c.get (NET_CNT p 13) + (if go.isEmpty || !cut then 0 else 1)) % 2 ^ 32
      ∧ (c.txSend p go cut).get (NET_CNT p 12) = (c.get (NET_CNT p 12) + (match (sortBy (fun h => 7 - h.1) go).head? with
          | some h => if cut then 0 else ((c.net p).txRem + max 64 h.2) / 128 | none => 0)) % 2 ^ 32
      ∧ ∀ j, 13 < j → (c.txSend p go cut).get (NET_CNT p j) = c.get (NET_CNT p j) := by
  rw [isEmpty_of_head?_sortBy (key := fun h => 7 - h.1), Chip.txSend]
  cases (sortBy (fun h => 7 - h.1) go).head? with
  | none =>
    exact ⟨(Chip.get_netCnt_mod c p 11).symm, (Chip.get_netCnt_mod c p 13).symm, (Chip.get_netCnt_mod c p 12).symm, fun j _ => rfl⟩
  | some h =>
    cases cut
    · have hnet : (((c.netCount p 11 1).net p).txRem) = (c.net p).txRem := congrArg NetPort.txRem (Chip.net_netCount ..)
      dsimp only
      rw [if_neg Bool.false_ne_true, Chip.txOctets_eq, hnet]
      refine ⟨?_, ?_, ?_, fun j hj => ?_⟩
      · rw [Chip.get_netCount_cnt _ _ _ (by omega), Chip.setNet_get, Chip.get_netCount_same _ _ _ _ (by omega)]
        rfl
      · rw [Chip.get_netCount_cnt _ _ _ (by omega), Chip.setNet_get, Chip.get_netCount_cnt _ _ _ (by omega)]
        exact (Chip.get_netCnt_mod c p 13).symm
      · rw [Chip.get_netCount_same _ _ _ _ (by omega), Chip.setNet_get, Chip.get_netCount_cnt _ _ _ (by omega)]
        rfl
      · rw [Chip.get_netCount_cnt _ _ _ (by omega), Chip.setNet_get, Chip.get_netCount_cnt _ _ _ (by omega)]
    · obtain ⟨hdisc, hother, -⟩ := c.discLink_counts p 1
      dsimp only
      rw [if_pos rfl]
      exact ⟨(hother 11 (by omega)).trans (Chip.get_netCnt_mod c p 11).symm, hdisc, (hother 12 (by omega)).trans (Chip.get_netCnt_mod c p 12).symm,
        fun j hj => hother j (by omega)⟩

/-- The head frames within the length limit, and of these the ones that may start. -/
def Chip.txOk (c : Chip) (p : Nat) (heads : List (Nat × Nat)) : List (Nat × Nat) := heads.filter fun h => decide (h.2 ≤ c.maxLen p)
def Chip.txGo (c : Chip) (p : Nat) (heads : List (Nat × Nat)) : List (Nat × Nat) :=
  (c.txOk p heads).filter fun h => !(c.noFit p h.1 h.2) && c.mayStart p h.1 h.2

theorem Chip.frameTransmit_eq (heads : List (Nat × Nat)) (cut : Bool) (h : c.npState p = npUp) :
    c.frameTransmit p heads cut
      = (((c.netCount p 15 (heads.filter fun h => decide (c.maxLen p < h.2)).length).txNoFit p ((c.txOk p heads).filter fun h => c.noFit p h.1 h.2)).txSend
          p (c.txGo p heads) cut) := if_neg (not_not_intro h)

theorem Chip.length_tooLong (heads : List (Nat × Nat)) :
    (heads.filter fun h => decide (c.maxLen p < h.2)).length = heads.length - (c.txOk p heads).length := by
  have hsplit := List.length_eq_countP_add_countP (fun h : Nat × Nat => decide (h.2 ≤ c.maxLen p)) (l := heads)
  have hlong : heads.countP (fun h => decide (c.maxLen p < h.2)) = heads.countP fun h => !decide (h.2 ≤ c.maxLen p) := by
    refine List.countP_congr fun h _ => ?_
    simp
  rw [← List.countP_eq_length_filter, hlong, Chip.txOk, ← List.countP_eq_length_filter]
  simp only [decide_eq_true_eq] at hsplit
  simp only [decide_not] at *
  omega

theorem Chip.frameTransmit_counts (heads : List (Nat × Nat)) (cut : Bool) (h : c.npState p = npUp) :
    (c.frameTransmit p heads cut).get (NET_CNT p 15) = (c.get (NET_CNT p 15) + (heads.length - (c.txOk p heads).length)) % 2 ^ 32
      ∧ (c.frameTransmit p heads cut).get (NET_CNT p 14)
        = (c.get (NET_CNT p 14) + ((c.txOk p heads).filter fun h => c.noFit p h.1 h.2).length) % 2 ^ 32
      ∧ (c.frameTransmit p heads cut).get (NET_CNT p 11) = (c.get (NET_CNT p 11) + (if (c.txGo p heads).isEmpty || cut then 0 else 1)) % 2 ^ 32
      ∧ (c.frameTransmit p heads cut).get (NET_CNT p 13) = (c.get (NET_CNT p 13) + (if (c.txGo p heads).isEmpty || !cut then 0 else 1)) % 2 ^ 32
      ∧ (c.frameTransmit p heads cut).get (NET_CNT p 12) = (c.get (NET_CNT p 12) + (match (sortBy (fun h => 7 - h.1) (c.txGo p heads)).head? with
          | some h => if cut then 0 else ((c.net p).txRem + max 64 h.2) / 128 | none => 0)) % 2 ^ 32 := by
  obtain ⟨h11, h13, h12, hlater⟩ := ((c.netCount p 15 (heads.filter fun h => decide (c.maxLen p < h.2)).length).txNoFit p
    ((c.txOk p heads).filter fun h => c.noFit p h.1 h.2)).txSend_counts p (c.txGo p heads) cut
  rw [Chip.net_txNoFit, Chip.net_netCount, Chip.txNoFit_other _ _ _ (by omega), Chip.get_netCount_cnt _ _ _ (by omega)] at h12
  rw [Chip.txNoFit_other _ _ _ (by omega), Chip.get_netCount_cnt _ _ _ (by omega)] at h11 h13
  rw [c.frameTransmit_eq p heads cut h]
  refine ⟨(hlater 15 (by omega)).trans ?_, (hlater 14 (by omega)).trans ?_, h11, h13, h12⟩
  · rw [Chip.txNoFit_other _ _ _ (by omega), Chip.get_netCount_same _ _ _ _ (by omega), c.length_tooLong]
  · rw [Chip.txNoFit_count, Chip.get_netCount_cnt _ _ _ (by omega)]

end

/-- Settles O46: each counter of a frame is advanced once, and no counter of the port is another's. -/
theorem netFrames : Obligations.NetFrames := by
  unfold Obligations.NetFrames
  refine ⟨?_, ?_, ?_, ?_, ?_, ?_, ?_⟩
  · rintro s t p f k c rfl hlive hst hcheck
    have heq : (s.chipAt t).frameReceived p.val f = ((s.chipAt t).rxCodewords p.val f).netCount p.val k 1 :=
      ((s.chipAt t).frameReceived_eq p.val f hst).trans
        (Chip.rxOutcome_failed _ _ _ ((((s.chipAt t).rxCodewords_alike p.val p.isLt f).rxCheck f).trans hcheck))
    obtain ⟨hlow, hhigh⟩ := (s.chipAt t).rxCheck_range p.val hcheck
    obtain ⟨h16, h17⟩ := (s.chipAt t).rxCodewords_counts p.val f
    refine ⟨_, State.event_live s t _ hlive, ?_⟩
    change ((s.chipAt t).frameReceived p.val f).get _ = _ ∧ ((s.chipAt t).frameReceived p.val f).get _ = _
      ∧ ((s.chipAt t).frameReceived p.val f).get _ = _ ∧ ((s.chipAt t).frameReceived p.val f).get _ = _
    rw [heq, Chip.get_netCount_same _ _ _ _ (by omega), Chip.get_netCount_cnt _ _ _ (by omega), Chip.get_netCount_cnt _ _ _ (by omega),
      Chip.get_netCount_cnt _ _ _ (by omega), Chip.get_rxCodewords _ _ _ (by omega), Chip.get_rxCodewords _ _ _ (by omega)]
    exact ⟨rfl, rfl, h16, h17⟩
  · rintro s t p f q c rfl hlive hst hcheck hqueue
    have hq := q.isLt
    have halike := (s.chipAt t).rxCodewords_alike p.val p.isLt f
    have heq : (s.chipAt t).frameReceived p.val f = ((s.chipAt t).rxCodewords p.val f).rxDelivered p.val q.val f :=
      ((s.chipAt t).frameReceived_eq p.val f (.inl hst)).trans
        (Chip.rxOutcome_delivered _ _ _ ((halike.rxCheck f).trans hcheck) ((halike.rxQueue f).trans hqueue))
    obtain ⟨h0, h1, hlater⟩ := ((s.chipAt t).rxCodewords p.val f).rxDelivered_counts p.val p.isLt q.val f
    rw [← heq] at h0 h1 hlater
    refine ⟨_, State.event_live s t _ hlive, h0.trans ?_, h1.trans ?_, (hlater _ (by omega)).trans ?_⟩
    · rw [Chip.get_rxCodewords _ _ _ (by omega)]
    · rw [Chip.get_rxCodewords _ _ _ (by omega), halike.net]
    · rw [Chip.get_rxCodewords _ _ _ (by omega)]
  · rintro s t p f q c rfl hlive hst hcheck hqueue
    have hq := q.isLt
    have halike := (s.chipAt t).rxCodewords_alike p.val p.isLt f
    have heq : (s.chipAt t).frameReceived p.val f = ((s.chipAt t).rxCodewords p.val f).rxDropped p.val q.val :=
      ((s.chipAt t).frameReceived_eq p.val f (.inl hst)).trans
        (Chip.rxOutcome_dropped _ _ _ ((halike.rxCheck f).trans hcheck) ((halike.rxQueue f).trans hqueue))
    obtain ⟨h0, hcount, hflag⟩ := ((s.chipAt t).rxCodewords p.val f).rxDropped_shows p.val q
    rw [← heq] at h0 hcount hflag
    refine ⟨_, State.event_live s t _ hlive, h0.trans ?_, hcount.trans ?_, hflag⟩
    · rw [Chip.get_rxCodewords _ _ _ (by omega)]
    · rw [Chip.get_rxCodewords _ _ _ (by omega)]
  · rintro s t p cls len c rfl hlive hst hlen hfit hstart
    obtain ⟨-, -, h11, -, h12⟩ := (s.chipAt t).frameTransmit_counts p.val [(cls.val, len)] false hst
    have hgo : (s.chipAt t).txGo p.val [(cls.val, len)] = [(cls.val, len)] := by
      simp [Chip.txGo, Chip.txOk, hlen, hfit, hstart]
    rw [hgo] at h11 h12
    exact ⟨_, State.event_live s t _ hlive, h11, h12⟩
  · rintro s t p cls len cut c rfl hlive hst hlen
    obtain ⟨h15, -, h11, -, -⟩ := (s.chipAt t).frameTransmit_counts p.val [(cls.val, len)] cut hst
    have hok : (s.chipAt t).txOk p.val [(cls.val, len)] = [] := by
      simp [Chip.txOk, hlen]
    rw [Chip.txGo, hok] at h11
    rw [hok] at h15
    exact ⟨_, State.event_live s t _ hlive, h15, h11.trans (Chip.get_netCnt_mod _ _ _)⟩
  · rintro s t p heads cut c rfl hlive hst
    obtain ⟨h15, h14, h11, h13, h12⟩ := (s.chipAt t).frameTransmit_counts p.val (heads.map fun (h : Fin 8 × Nat) => (h.1.val, h.2)) cut hst
    rw [List.length_map] at h15
    exact ⟨_, State.event_live s t _ hlive, h15, h14, h11, h13, h12⟩
  · rintro s t p heads cut c rfl hlive hst
    have heq : (s.chipAt t).frameTransmit p.val (heads.map fun (h : Fin 8 × Nat) => (h.1.val, h.2)) cut = (s.chipAt t).discLink p.val heads.length :=
      (if_pos hst).trans (by rw [List.length_map])
    obtain ⟨hcount, -, hflag⟩ := (s.chipAt t).discLink_counts p.val heads.length
    rw [← heq] at hcount hflag
    exact ⟨_, State.event_live s t _ hlive, hcount, hflag⟩

end Sys2Proof.Machine
end

section
/-! SUPPORT. The measurement records of the PTP ports (R430, R437 to R439). -/

namespace Sys2Proof.Machine

section
variable (c : Chip) (p : Nat) {f : Fld} {r : Reg}

/-! ### What the head and fill registers show -/

/-- The registers of the heads of the records. -/
def Chip.recHeads (c : Chip) (p : Nat) : Chip :=
  c.each (List.range 4) fun d w =>
    (d.put (PTP_RXQ_HEAD p w) (((c.ptpPort p).rxq.headD []).getD w 0)).put (PTP_TXR_HEAD p w) (((c.ptpPort p).txr.headD []).getD w 0)

theorem Chip.recShow_eq :
    c.recShow p = ((c.recHeads p).wr (PTP_PORT_STAT_RXQ_FILL p) (c.ptpPort p).rxq.length).wr (PTP_PORT_STAT_TXR_FILL p) (c.ptpPort p).txr.length := rfl

theorem Chip.cell_recHeads {o : Nat} (h : o < 0x40110 + 64 * p ∨ 0x40130 + 64 * p ≤ o) : (c.recHeads p).cell o = c.cell o := by
  refine Chip.each_keeps (·.cell o) _ _ (fun d w hw => ?_) c
  have hlt : w < 4 := List.mem_range.1 hw
  have hrx : (PTP_RXQ_HEAD p w).off = 0x40110 + 64 * p + 4 * w := rfl
  have htx : (PTP_TXR_HEAD p w).off = 0x40120 + 64 * p + 4 * w := rfl
  exact (Chip.cell_put_other _ _ _ _ (by omega)).trans (Chip.cell_put_other _ _ _ _ (by omega))

theorem Chip.ptp_recShow : (c.recShow p).ptp = c.ptp := by
  rw [Chip.recShow_eq, Chip.wr_ptp, Chip.wr_ptp]
  exact Chip.each_keeps (·.ptp) _ _ (fun d w _ => by simp) c

theorem Chip.ptpPort_recShow (q : Nat) : (c.recShow p).ptpPort q = c.ptpPort q := by rw [Chip.ptpPort, c.ptp_recShow p, Chip.ptpPort]

theorem Chip.recShow_fill (h : (c.ptpPort p).rxq.length < 128) : (c.recShow p).rd (PTP_PORT_STAT_RXQ_FILL p) = (c.ptpPort p).rxq.length := by
  rw [Chip.recShow_eq, Chip.rd_wr_keeps _ _ (by exact Fld.apart_of_clear rfl rfl)]
  exact Chip.rd_wr_lt rfl h

theorem Chip.on_recShow_stopped : (c.recShow p).on (PTP_PORT_STAT_TXR_STOPPED p) = c.on (PTP_PORT_STAT_TXR_STOPPED p) := by
  have hoff : (PTP_PORT_STAT_TXR_STOPPED p).off = 0x40104 + 64 * p := rfl
  rw [Chip.recShow_eq, Chip.on_wr_keeps _ _ (by exact Fld.apart_of_clear rfl rfl), Chip.on_wr_keeps _ _ (by exact Fld.apart_of_clear rfl rfl)]
  exact Chip.on_of_cell (c.cell_recHeads p (by omega))

theorem Chip.recShow_head : (c.recShow p).get (PTP_RXQ_HEAD p 0) = ((c.ptpPort p).rxq.headD []).getD 0 0 % 2 ^ 32 := by
  have hoff : (PTP_RXQ_HEAD p 0).off = 0x40110 + 64 * p := rfl
  have hstat : (PTP_PORT_STAT p).off = 0x40104 + 64 * p := rfl
  have hfill (f : Fld) (hf : f.off = (PTP_PORT_STAT p).off) : f.off ≠ (PTP_RXQ_HEAD p 0).off := by omega
  have htx (w : Nat) : (PTP_TXR_HEAD p w).off = 0x40120 + 64 * p + 4 * w := rfl
  rw [Chip.recShow_eq, Chip.get_wr_other _ _ _ _ (hfill _ rfl), Chip.get_wr_other _ _ _ _ (hfill _ rfl)]
  refine Chip.each_establishes (fun d => d.get (PTP_RXQ_HEAD p 0) = ((c.ptpPort p).rxq.headD []).getD 0 0 % 2 ^ 32) _ _ 0 (by decide) (fun d => ?_)
    (fun d w _ h => ?_) c
  · rw [Chip.get_put_other _ _ _ _ (by have := htx 0; omega), Chip.get_put_same]
  · rw [Chip.get_put_other _ _ _ _ (by have := htx w; omega)]
    by_cases hw : w = 0
    · rw [hw, Chip.get_put_same]
    · rw [Chip.get_put_other _ _ _ _ (by change 0x40110 + 64 * p + 4 * w ≠ 0x40110 + 64 * p + 4 * 0; omega), h]

/-! ### An overflow -/

theorem Chip.recOvf_shows (kind : Nat) (port all : Fld) (hport : port.fits = true ∧ port.w ≠ 0 ∧ port.off / 65536 ≠ 1)
    (hall : all.fits = true ∧ all.w ≠ 0 ∧ all.off / 65536 ≠ 1) (hapart : all.apart port = true) :
    (c.recOvf p kind port all).on port = true ∧ (c.recOvf p kind port all).on all = true := by
  unfold Chip.recOvf
  constructor
  · rw [Chip.on_when, Chip.on_post _ _ _ _ _ _ hport.2.2, ite_self, Chip.on_set_keeps _ hapart]
    exact Chip.on_set_same _ hport.1 hport.2.1
  · rw [Chip.on_when, Chip.on_post _ _ _ _ _ _ hall.2.2, ite_self]
    exact Chip.on_set_same _ hall.1 hall.2.1

theorem Chip.rd_recOvf (kind : Nat) (port all : Fld) (hport : port.apart f = true) (hall : all.apart f = true) (hf : f.off / 65536 ≠ 1) :
    (c.recOvf p kind port all).rd f = c.rd f := by
  unfold Chip.recOvf
  rw [Chip.rd_when, Chip.rd_post _ _ _ _ _ _ hf, ite_self, Chip.rd_set_keeps _ hall, Chip.rd_set_keeps _ hport]

theorem Chip.ptp_recOvf (kind : Nat) (port all : Fld) : (c.recOvf p kind port all).ptp = c.ptp := by
  unfold Chip.recOvf
  refine (Chip.when_keeps (·.ptp) _ _ (Chip.post_ptp ..)).trans ?_
  rw [Chip.set_def, Chip.set_def, Chip.wr_ptp, Chip.wr_ptp]

theorem Chip.ptp_inc (f : Fld) : (c.inc f).ptp = c.ptp := by rw [Chip.inc_def, Chip.wr_ptp]

theorem Chip.ptpPort_of_ptp {c d : Chip} (h : d.ptp = c.ptp) (p : Nat) : d.ptpPort p = c.ptpPort p := by rw [Chip.ptpPort, h, Chip.ptpPort]

/-! ### The rows -/

section
variable (hp : p < 2)
include hp

theorem Chip.syncReceived_room (seq domain id num err : Nat) (hen : c.on (PTP_PORT_CFG_ENABLE p) = true) (hdom : domain = c.rd PTP_CFG_DOMAIN)
    (hroom : (c.ptpPort p).rxq.length < 64) :
    ((c.syncReceived p seq domain id num err).ptpPort p).rxq = (c.ptpPort p).rxq ++ [recEntry (c.stamp err) seq domain 0 id num]
      ∧ (c.syncReceived p seq domain id num err).rd (PTP_PORT_STAT_RXQ_FILL p) = (c.ptpPort p).rxq.length + 1 := by
  have hport := c.ptpPort_setPtpPort p p { c.ptpPort p with rxq := (c.ptpPort p).rxq ++ [recEntry (c.stamp err) seq domain 0 id num] } hp
  rw [if_pos rfl] at hport
  have hlen := congrArg (fun x => x.rxq.length) hport
  dsimp only at hlen
  rw [List.length_append, List.length_singleton] at hlen
  unfold Chip.syncReceived
  dsimp only
  rw [if_neg (by rw [hen, hdom]; simp), if_pos hroom]
  refine ⟨(congrArg PtpPort.rxq ((Chip.ptpPort_recShow ..).trans hport)), ?_⟩
  rw [Chip.recShow_fill _ _ (by omega), hlen]

omit hp in
theorem Chip.syncReceived_full (seq domain id num err : Nat) (hen : c.on (PTP_PORT_CFG_ENABLE p) = true) (hdom : domain = c.rd PTP_CFG_DOMAIN)
    (hfull : 64 ≤ (c.ptpPort p).rxq.length) :
    c.syncReceived p seq domain id num err = (c.inc (PTP_RXQ_LOST_COUNT p)).recOvf p 0 (PTP_PORT_STAT_RXQ_OVF p) PTP_STATUS_RXQ_OVF := by
  unfold Chip.syncReceived
  dsimp only
  rw [if_neg (by rw [hen, hdom]; simp), if_neg (by omega)]

theorem Chip.delayReqSent_room (seq err : Nat) (hrec : c.on (PTP_PORT_STAT_TXR_STOPPED p) = false) (hroom : (c.ptpPort p).txr.length < 64) :
    ((c.delayReqSent p seq err).ptpPort p).txr = (c.ptpPort p).txr ++ [recEntry (c.stamp err) seq (c.rd PTP_CFG_DOMAIN) 1 0 0]
      ∧ ((c.delayReqSent p seq err).ptpPort p).origin = c.stamp err
      ∧ (c.delayReqSent p seq err).on (PTP_PORT_STAT_TXR_STOPPED p) = decide ((c.ptpPort p).txr.length = 63) := by
  have hport := c.ptpPort_setPtpPort p p { c.ptpPort p with
    origin := c.stamp err, txr := (c.ptpPort p).txr ++ [recEntry (c.stamp err) seq (c.rd PTP_CFG_DOMAIN) 1 0 0] } hp
  rw [if_pos rfl] at hport
  unfold Chip.delayReqSent
  dsimp only
  rw [if_neg (by rw [hrec]; decide)]
  have hkeep (b : Bool) (d : Chip) : (d.when b (·.set (PTP_PORT_STAT_TXR_STOPPED p))).ptpPort p = d.ptpPort p :=
    Chip.ptpPort_of_ptp (Chip.when_keeps (·.ptp) _ _ (by rw [Chip.set_def, Chip.wr_ptp])) p
  rw [hkeep, Chip.ptpPort_recShow, hport]
  refine ⟨rfl, rfl, ?_⟩
  rw [Chip.on_when, Chip.on_set_same _ rfl Nat.one_ne_zero, Chip.on_recShow_stopped, Chip.setPtpPort_on, hrec, List.length_append, List.length_singleton]
  by_cases h63 : (c.ptpPort p).txr.length = 63
  · simp [h63]
  · rw [if_neg (by rw [decide_eq_true_eq]; omega), decide_eq_false h63]

theorem Chip.delayReqSent_stopped (seq err : Nat) (hrec : c.on (PTP_PORT_STAT_TXR_STOPPED p) = true) :
    ((c.delayReqSent p seq err).ptpPort p).txr = (c.ptpPort p).txr
      ∧ (c.delayReqSent p seq err).rd (PTP_TXR_LOST_COUNT p) = min (2 ^ (PTP_TXR_LOST_COUNT p).w - 1) (c.rd (PTP_TXR_LOST_COUNT p) + 1)
      ∧ (c.delayReqSent p seq err).on (PTP_PORT_STAT_TXR_OVF p) = true ∧ (c.delayReqSent p seq err).on PTP_STATUS_TXR_OVF = true := by
  have hport := c.ptpPort_setPtpPort p p { c.ptpPort p with origin := c.stamp err } hp
  rw [if_pos rfl] at hport
  have hstat : (PTP_PORT_STAT_TXR_OVF p).off = 0x40104 + 64 * p := rfl
  have hlost : (PTP_TXR_LOST_COUNT p).off = 0x4010c + 64 * p := rfl
  have hall : PTP_STATUS_TXR_OVF.off = 0x40000 := rfl
  have heq : c.delayReqSent p seq err = ((c.setPtpPort p { c.ptpPort p with origin := c.stamp err }).inc (PTP_TXR_LOST_COUNT p)).recOvf p 1
      (PTP_PORT_STAT_TXR_OVF p) PTP_STATUS_TXR_OVF := if_pos hrec
  obtain ⟨hone, htwo⟩ := ((c.setPtpPort p { c.ptpPort p with origin := c.stamp err }).inc (PTP_TXR_LOST_COUNT p)).recOvf_shows p 1
    (PTP_PORT_STAT_TXR_OVF p) PTP_STATUS_TXR_OVF ⟨rfl, Nat.one_ne_zero, by omega⟩ ⟨rfl, Nat.one_ne_zero, by omega⟩ (Fld.apart_of_off (by omega))
  rw [heq]
  refine ⟨?_, ?_, hone, htwo⟩
  · rw [Chip.ptpPort_of_ptp (Chip.ptp_recOvf ..), Chip.ptpPort_of_ptp (Chip.ptp_inc ..), hport]
  · rw [Chip.rd_recOvf _ _ _ _ _ (Fld.apart_of_off (by omega)) (Fld.apart_of_off (by omega)) (by omega), Chip.rd_inc_same _ rfl, Chip.setPtpPort_rd]

theorem Chip.rxqPop_shows {e : List Nat} {rest : List (List Nat)} (h : (c.ptpPort p).rxq = e :: rest) :
    ((c.rxqPop p).ptpPort p).rxq = rest ∧ ((c.rxqPop p).ptpPort p).rxCopy.head? = some e
      ∧ (c.rxqPop p).get (PTP_RXQ_HEAD p 0) = (rest.headD []).getD 0 0 % 2 ^ 32 := by
  have hport := c.ptpPort_setPtpPort p p { c.ptpPort p with rxq := rest, rxCopy := (e :: (c.ptpPort p).rxCopy).take 256 } hp
  rw [if_pos rfl] at hport
  unfold Chip.rxqPop
  dsimp only
  rw [h]
  dsimp only
  rw [Chip.ptpPort_recShow, Chip.recShow_head, hport]
  exact ⟨rfl, rfl, rfl⟩

theorem Chip.txrPop_shows {e : List Nat} {rest : List (List Nat)} (h : (c.ptpPort p).txr = e :: rest) :
    ((c.txrPop p).ptpPort p).txr = rest ∧ ((c.txrPop p).ptpPort p).txCopy.head? = some e
      ∧ (c.txrPop p).on (PTP_PORT_STAT_TXR_STOPPED p) = (c.on (PTP_PORT_STAT_TXR_STOPPED p) && !rest.isEmpty) := by
  have hport := c.ptpPort_setPtpPort p p { c.ptpPort p with txr := rest, txCopy := (e :: (c.ptpPort p).txCopy).take 256 } hp
  rw [if_pos rfl] at hport
  have hkeep (b : Bool) (d : Chip) : (d.when b (·.clr (PTP_PORT_STAT_TXR_STOPPED p))).ptpPort p = d.ptpPort p :=
    Chip.ptpPort_of_ptp (Chip.when_keeps (·.ptp) _ _ (by rw [Chip.clr_def, Chip.wr_ptp])) p
  unfold Chip.txrPop
  dsimp only
  rw [h]
  dsimp only
  rw [hkeep, Chip.ptpPort_recShow, hport]
  refine ⟨rfl, rfl, ?_⟩
  rw [Chip.on_when, Chip.on_clr_same _ rfl, Chip.on_recShow_stopped, Chip.setPtpPort_on]
  cases rest.isEmpty <;> simp

end
end

/-- Settles O48: a record gains its entry at the end and loses it at the head, and what it cannot take is counted. -/
theorem ptpRecords : Obligations.PtpRecords := by
  unfold Obligations.PtpRecords
  refine ⟨?_, ?_, ?_, ?_, ?_, ?_⟩
  · rintro s t p seq domain id num err c rfl hlive hen hdom hroom
    exact ⟨_, State.event_live s t _ hlive, (s.chipAt t).syncReceived_room p.val p.isLt seq.toNat domain.toNat id.toNat num.toNat err.val hen hdom hroom⟩
  · rintro s t p seq domain id num err c rfl hlive hen hdom hfull
    have heq := (s.chipAt t).syncReceived_full p.val seq.toNat domain.toNat id.toNat num.toNat err.val hen hdom hfull
    have hstat : (PTP_PORT_STAT_RXQ_OVF p.val).off = 0x40104 + 64 * p.val := rfl
    have hlost : (PTP_RXQ_LOST_COUNT p.val).off = 0x40108 + 64 * p.val := rfl
    have hall : PTP_STATUS_RXQ_OVF.off = 0x40000 := rfl
    obtain ⟨hone, htwo⟩ := ((s.chipAt t).inc (PTP_RXQ_LOST_COUNT p.val)).recOvf_shows p.val 0 (PTP_PORT_STAT_RXQ_OVF p.val) PTP_STATUS_RXQ_OVF
      ⟨rfl, Nat.one_ne_zero, by omega⟩ ⟨rfl, Nat.one_ne_zero, by omega⟩ (Fld.apart_of_off (by omega))
    have hptp := ((s.chipAt t).inc (PTP_RXQ_LOST_COUNT p.val)).ptp_recOvf p.val 0 (PTP_PORT_STAT_RXQ_OVF p.val) PTP_STATUS_RXQ_OVF
    rw [Chip.ptp_inc] at hptp
    have hcount := ((s.chipAt t).inc (PTP_RXQ_LOST_COUNT p.val)).rd_recOvf (f := PTP_RXQ_LOST_COUNT p.val) p.val 0 (PTP_PORT_STAT_RXQ_OVF p.val)
      PTP_STATUS_RXQ_OVF (Fld.apart_of_off (by omega)) (Fld.apart_of_off (by omega)) (by omega)
    rw [← heq] at hone htwo hptp hcount
    exact ⟨_, State.event_live s t _ hlive, congrArg PtpPort.rxq (Chip.ptpPort_of_ptp hptp p.val), hcount.trans (Chip.rd_inc_same _ rfl), hone, htwo⟩
  · rintro s t p seq err c rfl hlive hrec hroom
    exact ⟨_, State.event_live s t _ hlive, (s.chipAt t).delayReqSent_room p.val p.isLt seq.toNat err.val hrec hroom⟩
  · rintro s t p seq err c rfl hlive hrec
    exact ⟨_, State.event_live s t _ hlive, (s.chipAt t).delayReqSent_stopped p.val p.isLt seq.toNat err.val hrec⟩
  · rintro s t p e rest c rfl hready h
    exact ⟨_, State.fwStep_ready s t _ hready, (s.chipAt t).rxqPop_shows p.val p.isLt h⟩
  · rintro s t p e rest c rfl hready h
    exact ⟨_, State.fwStep_ready s t _ hready, (s.chipAt t).txrPop_shows p.val p.isLt h⟩

end Sys2Proof.Machine
end

section
/-! SUPPORT. The PTP servo and its masters (R432 to R436). -/

namespace Sys2Proof.Machine

theorem Chip.rdI_of_rd {c d : Chip} {f : Fld} (h : d.rd f = c.rd f) : d.rdI f = c.rdI f := by rw [Chip.rdI, h, Chip.rdI]

/-- What a row of the PTP firmware does after its own change: PTP time may be lost as a reference, and selections are told to the peer. -/
theorem Chip.ptpTail_within (c d : Chip) : Chip.Within [1, 3] [.free, .planes, .ref, .sent, .twn] d (d.ptpCand.tellSelect c) :=
  Chip.tellSelect_within (Chip.ptpCand_within .refl (by decide) (by decide)) (by decide)

section
variable (c : Chip) {f : Fld}

/-! ### A sample within the limit -/

/-- What an accepted sample writes before the lock is judged. -/
def Chip.sampled (c : Chip) (filtered freq : Int) (mpd : Nat) : Chip :=
  ((c.wrI PTP_OFFSET_OFFSET filtered).wr PTP_MPD_MPD (min mpd (2 ^ 32 - 1))).steer freq

/-- The run of samples within 1 us, after one more. -/
def runAfter (filtered : Int) (n : Nat) : Nat := if filtered.natAbs ≤ 1000 then min 16 (n + 1) else 0

/-- JUMP_HELD ends with an accepted sample. -/
def svAfter (st : Nat) : Nat := if st = svJump then svAcquiring else st

/-- The servo after an accepted sample, before it may lock or lose its lock. -/
def Chip.counted (c : Chip) (filtered : Int) : Chip :=
  { c.setServo (svAfter c.servo) with ptp := { c.ptp with refused := [], inRange := runAfter filtered c.ptp.inRange } }

/-- The lock judged from the state and the run. -/
def Chip.lockJudged (d : Chip) (st run : Nat) (filtered : Int) : Chip :=
  if st = svAcquiring ∧ run = 16 then d.servoLocked
  else if st = svLocked ∧ !(decide (filtered.natAbs ≤ 1000)) then d.setServo svAcquiring
  else d

theorem Chip.goodSample_eq (filtered freq : Int) (mpd : Nat) :
    c.goodSample filtered freq mpd = ((c.sampled filtered freq mpd).counted filtered).lockJudged (svAfter (c.sampled filtered freq mpd).servo)
      (runAfter filtered (c.sampled filtered freq mpd).ptp.inRange) filtered := rfl

theorem Chip.rd_steer (x : Int) (hf : PTP_FREQ_FREQ.apart f = true) : (c.steer x).rd f = c.rd f :=
  (Chip.rd_of_cell (Chip.cell_of_regs rfl _)).trans (Chip.rd_wrI_keeps _ _ hf)

theorem Chip.rdI_steer (x : Int) : (c.steer x).rdI PTP_FREQ_FREQ = clampI (-freqLimit) freqLimit x := by
  have hregs : (c.steer x).rdI PTP_FREQ_FREQ = (c.wrI PTP_FREQ_FREQ (clampI (-freqLimit) freqLimit x)).rdI PTP_FREQ_FREQ :=
    Chip.rdI_of_rd (Chip.rd_of_cell (Chip.cell_of_regs rfl _))
  obtain ⟨hlo, hhi⟩ := clampI_bounds (lo := -freqLimit) (hi := freqLimit) (x := x) (by decide)
  have hlimit : freqLimit = 250000000 := rfl
  have hw : PTP_FREQ_FREQ.w = 32 := rfl
  rw [hregs, Chip.rdI_wrI_same _ _ _ rfl (by decide), hw]
  unfold clampI at *
  norm_num
  omega

theorem Chip.sampled_shows (filtered freq : Int) (mpd : Nat) :
    (c.sampled filtered freq mpd).rdI PTP_OFFSET_OFFSET = max (-(2 ^ 31)) (min (2 ^ 31 - 1) filtered)
      ∧ (c.sampled filtered freq mpd).rdI PTP_FREQ_FREQ = max (-freqLimit) (min freqLimit freq)
      ∧ (c.sampled filtered freq mpd).servo = c.servo ∧ (c.sampled filtered freq mpd).ptp.inRange = c.ptp.inRange := by
  unfold Chip.sampled
  refine ⟨?_, Chip.rdI_steer .., ?_, ?_⟩
  · rw [Chip.rdI_of_rd (Chip.rd_steer _ _ (by decide)), Chip.rdI_of_rd (Chip.rd_wr_keeps _ _ (by decide)), Chip.rdI_wrI_same _ _ _ rfl (by decide)]
    rfl
  · rw [Chip.servo, Chip.rd_steer _ _ (by decide), Chip.rd_wr_keeps _ _ (by decide), Chip.rd_wrI_keeps _ _ (by decide), Chip.servo]
  · rw [Chip.steer]
    dsimp only
    rw [Chip.wrI_def, Chip.wr_ptp, Chip.wr_ptp, Chip.wrI_def, Chip.wr_ptp]

theorem Chip.servoLocked_shows : c.servoLocked.servo = svLocked ∧ c.servoLocked.ptp.inRange = c.ptp.inRange
    ∧ ∀ f : Fld, f.off / 65536 = 4 → PTP_SERVO_STATE.apart f = true → c.servoLocked.rd f = c.rd f := by
  have hkeep (f : Fld) (hf : f.off / 65536 = 4) : c.servoLocked.rd f = (c.setServo svLocked).rd f := by
    unfold Chip.servoLocked
    dsimp only
    have hpost : ((c.setServo svLocked).post 0x03 0x0001 (c.rd PTP_SERVO_PORT) 0).rd f = (c.setServo svLocked).rd f :=
      Chip.rd_post _ _ _ _ _ _ (by omega)
    split
    · exact (Chip.rd_of_cell (Chip.cell_of_regs rfl _)).trans hpost
    · refine ((Chip.gclReload_within .refl (by decide) (by decide) : Chip.Within [64] [.nets] _ _).rd (by rw [hf]; decide)).trans ?_
      exact (Chip.rd_of_cell (Chip.cell_of_regs rfl _)).trans hpost
  refine ⟨(hkeep _ rfl).trans (Chip.rd_wr_lt rfl (by decide)), ?_, fun f hf ha => (hkeep f hf).trans (Chip.rd_wr_keeps _ _ ha)⟩
  have hptp : ((c.setServo svLocked).post 0x03 0x0001 (c.rd PTP_SERVO_PORT) 0).ptp = c.ptp := (Chip.post_ptp ..).trans (Chip.wr_ptp ..)
  have hrun := congrArg Ptp.inRange hptp
  unfold Chip.servoLocked
  dsimp only
  split
  · exact hrun
  · refine (congrArg Ptp.inRange ((Chip.gclReload_within .refl (by decide) (by decide) : Chip.Within [64] [.nets] _ _).part .ptp (by decide))).trans ?_
    exact hrun

/-- The servo acquires, is LOCKED, or holds in JUMP_HELD: it has a master. -/
def Chip.steering (c : Chip) : Prop := c.servo = svAcquiring ∨ c.servo = svLocked ∨ c.servo = svJump

theorem svAfter_cases (h : c.steering) : svAfter c.servo = svAcquiring ∨ (svAfter c.servo = svLocked ∧ c.servo = svLocked) := by
  unfold Chip.steering svAfter svAcquiring svLocked svJump at *
  split <;> omega

theorem Chip.counted_shows (filtered : Int) (h : c.steering) :
    (c.counted filtered).servo = svAfter c.servo ∧ (c.counted filtered).ptp.inRange = runAfter filtered c.ptp.inRange
      ∧ ∀ f : Fld, PTP_SERVO_STATE.apart f = true → (c.counted filtered).rd f = c.rd f := by
  have hregs (f : Fld) : (c.counted filtered).rd f = (c.setServo (svAfter c.servo)).rd f := Chip.rd_of_cell (Chip.cell_of_regs rfl _)
  refine ⟨(hregs _).trans (Chip.rd_wr_lt rfl ?_), rfl, fun f hf => (hregs f).trans (Chip.rd_wr_keeps _ _ hf)⟩
  rcases svAfter_cases c h with hst | ⟨hst, -⟩
  · rw [hst]
    decide
  · rw [hst]
    decide

theorem Chip.lockJudged_keeps (d : Chip) (st run : Nat) (filtered : Int) :
    (d.lockJudged st run filtered).ptp.inRange = d.ptp.inRange
      ∧ ∀ f : Fld, f.off / 65536 = 4 → PTP_SERVO_STATE.apart f = true → (d.lockJudged st run filtered).rd f = d.rd f := by
  unfold Chip.lockJudged
  split
  · obtain ⟨-, hrun, hother⟩ := d.servoLocked_shows
    exact ⟨hrun, hother⟩
  · split
    · exact ⟨congrArg Ptp.inRange (Chip.wr_ptp ..), fun f _ ha => Chip.rd_wr_keeps _ _ ha⟩
    · exact ⟨rfl, fun f _ _ => rfl⟩

/-- The servo after the lock is judged: LOCKED by a run of 16 or as it was, within 1 us; else acquiring. -/
theorem Chip.servo_lockJudged (filtered : Int) (h : c.steering) :
    ((c.counted filtered).lockJudged (svAfter c.servo) (runAfter filtered c.ptp.inRange) filtered).servo
      = (if filtered.natAbs ≤ 1000 then (if c.servo = svLocked ∨ 15 ≤ c.ptp.inRange then svLocked else svAcquiring) else svAcquiring) := by
  obtain ⟨hservo, -, -⟩ := c.counted_shows filtered h
  have hlocked : ¬ svLocked = svAcquiring := by decide
  have hacq : ¬ svAcquiring = svLocked := by decide
  unfold Chip.lockJudged runAfter
  by_cases hnear : filtered.natAbs ≤ 1000
  · simp only [hnear, if_true, decide_true, Bool.not_true, Bool.false_eq_true, and_false, if_false]
    rcases svAfter_cases c h with hst | ⟨hst, hsv⟩
    · simp only [hst, true_and]
      split
      · rw [(c.counted filtered).servoLocked_shows.1, if_pos (.inr (by omega))]
      · have hne : ¬ c.servo = svLocked := by
          intro hsv
          rw [hsv] at hst
          exact absurd hst (by decide)
        rw [hservo, hst, if_neg (by rintro (hl | hr); exacts [hne hl, by omega])]
    · simp only [hst, hlocked, false_and, if_false]
      rw [hservo, hst, if_pos (.inl hsv)]
  · simp only [hnear, if_false, decide_false, Bool.not_false, and_true]
    rcases svAfter_cases c h with hst | ⟨hst, -⟩
    · simp only [hst, hacq, if_false, true_and, (by decide : ¬ (0 : Nat) = 16)]
      rw [hservo, hst]
    · simp only [hst, hlocked, false_and, if_false, if_true]
      exact Chip.rd_wr_lt rfl (by decide)

theorem Chip.goodSample_shows (filtered freq : Int) (mpd : Nat) (h : c.steering) :
    (c.goodSample filtered freq mpd).rdI PTP_OFFSET_OFFSET = max (-(2 ^ 31)) (min (2 ^ 31 - 1) filtered)
      ∧ (c.goodSample filtered freq mpd).rdI PTP_FREQ_FREQ = max (-freqLimit) (min freqLimit freq)
      ∧ (c.goodSample filtered freq mpd).ptp.inRange = (if filtered.natAbs ≤ 1000 then min 16 (c.ptp.inRange + 1) else 0)
      ∧ (c.goodSample filtered freq mpd).servo
        = (if filtered.natAbs ≤ 1000 then (if c.servo = svLocked ∨ 15 ≤ c.ptp.inRange then svLocked else svAcquiring) else svAcquiring) := by
  obtain ⟨hoff, hfreq, hservo, hrun⟩ := c.sampled_shows filtered freq mpd
  have hst : (c.sampled filtered freq mpd).steering := by
    rw [Chip.steering, hservo]
    exact h
  obtain ⟨-, hrun', hother⟩ := (c.sampled filtered freq mpd).counted_shows filtered hst
  obtain ⟨hrun'', hother'⟩ := ((c.sampled filtered freq mpd).counted filtered).lockJudged_keeps (svAfter (c.sampled filtered freq mpd).servo)
    (runAfter filtered (c.sampled filtered freq mpd).ptp.inRange) filtered
  have hjudged := (c.sampled filtered freq mpd).servo_lockJudged filtered hst
  rw [← Chip.goodSample_eq] at hrun'' hother' hjudged
  rw [hservo, hrun] at hjudged
  rw [hrun] at hrun'
  have hkeep (f : Fld) (hf : f.off / 65536 = 4) (ha : PTP_SERVO_STATE.apart f = true) := (hother' f hf ha).trans (hother f ha)
  exact ⟨(Chip.rdI_of_rd (hkeep _ rfl (by decide))).trans hoff, (Chip.rdI_of_rd (hkeep _ rfl (by decide))).trans hfreq, hrun''.trans hrun', hjudged⟩

/-! ### A sample beyond the limit -/

/-- A refused sample, counted. -/
def Chip.refusedMore (c : Chip) (offset : Int) : Chip :=
  { c.inc PTP_JUMPS_COUNT with ptp := { c.ptp with refused := (offset :: c.ptp.refused).take 8, inRange := 0 } }

/-- The servo holds in JUMP_HELD. -/
def Chip.jumpHeld (c : Chip) (r : List Int) : Chip :=
  (((c.holdFreq).setServo svJump).set PTP_STATUS_JUMP_REFUSED).post 0x03 0x0005 (c.rd PTP_SERVO_PORT) (argI (clampI (-2147483648) 2147483647 (median r)))

theorem Chip.refuseSample_eq (offset : Int) :
    c.refuseSample offset = if ((offset :: c.ptp.refused).take 8).length = 8 ∧ (c.refusedMore offset).servo ≠ svJump
      then (c.refusedMore offset).jumpHeld ((offset :: c.ptp.refused).take 8) else c.refusedMore offset := rfl

theorem Chip.rd_refusedMore (offset : Int) (f : Fld) : (c.refusedMore offset).rd f = (c.inc PTP_JUMPS_COUNT).rd f := Chip.rd_of_cell (Chip.cell_of_regs rfl _)

theorem Chip.cell_jumpHeld (r : List Int) {o : Nat} (hf : o ≠ PTP_FREQ.off) (hs : o ≠ PTP_SERVO.off) (ht : o ≠ PTP_STATUS.off) (hp : o / 65536 ≠ 1) :
    (c.jumpHeld r).cell o = c.cell o := by
  unfold Chip.jumpHeld
  refine (Chip.cell_post _ _ _ _ _ _ hp).trans ((Chip.cell_wr_other _ PTP_STATUS_JUMP_REFUSED _ _ (Ne.symm ht)).trans
    ((Chip.cell_wr_other _ PTP_SERVO_STATE _ _ (Ne.symm hs)).trans ?_))
  exact (Chip.cell_of_regs rfl _).trans (Chip.cell_wr_other _ PTP_FREQ_FREQ _ _ (Ne.symm hf))

theorem Chip.jumpHeld_shows (r : List Int) : (c.jumpHeld r).servo = svJump ∧ (c.jumpHeld r).clock = c.clock := by
  constructor
  · unfold Chip.jumpHeld Chip.servo
    rw [Chip.rd_post _ _ _ _ _ _ (by decide), Chip.rd_set_keeps _ (by decide)]
    exact Chip.rd_wr_lt rfl (by decide)
  · unfold Chip.jumpHeld
    rw [Chip.post_clock, Chip.set_def, Chip.wr_clock, Chip.setServo, Chip.wr_clock]
    exact (Chip.holdFreq_within .refl (by decide) (by decide) : Chip.Within [4] [.ptp] c _).part .clock (by decide)

theorem Chip.refuseSample_shows (offset : Int) :
    (c.refuseSample offset).rd PTP_JUMPS_COUNT = min (2 ^ PTP_JUMPS_COUNT.w - 1) (c.rd PTP_JUMPS_COUNT + 1)
      ∧ (c.refuseSample offset).get PTP_OFFSET = c.get PTP_OFFSET ∧ (c.refuseSample offset).clock = c.clock
      ∧ (7 ≤ c.ptp.refused.length → (c.refuseSample offset).servo = svJump) := by
  have hcount : (c.refusedMore offset).rd PTP_JUMPS_COUNT = min (2 ^ PTP_JUMPS_COUNT.w - 1) (c.rd PTP_JUMPS_COUNT + 1) :=
    (c.rd_refusedMore offset _).trans (Chip.rd_inc_same _ rfl)
  have hoffset : (c.refusedMore offset).get PTP_OFFSET = c.get PTP_OFFSET :=
    (Chip.get_of_cell (Chip.cell_of_regs rfl _)).trans (Chip.get_inc_other (f := PTP_JUMPS_COUNT) _ (by decide))
  have hclock : (c.refusedMore offset).clock = c.clock := Chip.wr_clock ..
  rw [Chip.refuseSample_eq]
  split
  · obtain ⟨hservo, hkeep⟩ := (c.refusedMore offset).jumpHeld_shows ((offset :: c.ptp.refused).take 8)
    exact ⟨(Chip.rd_of_cell (Chip.cell_jumpHeld _ _ (by decide) (by decide) (by decide) (by decide))).trans hcount,
      (Chip.get_of_cell (Chip.cell_jumpHeld _ _ (by decide) (by decide) (by decide) (by decide))).trans hoffset, hkeep.trans hclock, fun _ => hservo⟩
  next hnot =>
    refine ⟨hcount, hoffset, hclock, fun h => ?_⟩
    by_contra hne
    refine hnot ⟨?_, hne⟩
    rw [List.length_take, List.length_cons]
    omega

/-! ### Steps of the clock -/

theorem Chip.stepClock_shows (d : Int) :
    (c.stepClock d).clock.n = ofSigned 64 (c.clock.n + d) ∧ (c.stepClock d).on PTP_STATUS_STEPPED = true ∧ (c.stepClock d).ptp = c.ptp := by
  unfold Chip.stepClock
  dsimp only
  refine ⟨?_, ?_, ?_⟩
  · rw [Chip.post_clock, Chip.set_def, Chip.wr_clock]
  · rw [Chip.on_post _ _ _ _ _ _ (by decide)]
    exact Chip.on_set_same _ rfl Nat.one_ne_zero
  · rw [Chip.post_ptp, Chip.set_def, Chip.wr_ptp]

theorem Chip.rd_stepClock (d : Int) (hf : PTP_STATUS_STEPPED.apart f = true) (hp : f.off / 65536 ≠ 1) : (c.stepClock d).rd f = c.rd f := by
  unfold Chip.stepClock
  dsimp only
  rw [Chip.rd_post _ _ _ _ _ _ hp, Chip.rd_set_keeps _ hf]
  exact Chip.rd_of_cell (Chip.cell_of_regs rfl _)

/-! ### The row of a sample -/

section
variable {p : Nat} {offset filtered freq : Int} {mpd : Nat}

/-- The mean path delay that a sample writes. -/
def Chip.mpdNow (c : Chip) (p mpd : Nat) : Nat := if c.on (PTP_PORT_STAT_TXR_STOPPED p) then c.rd PTP_MPD_MPD else mpd

theorem Chip.servoSample_runs (hready : c.ready = true) (hport : p = c.rd PTP_SERVO_PORT) (hst : c.steering) :
    c.servoSample p offset filtered freq mpd
      = if !(c.on PTP_SERVO_EVER_LOCKED) then
          if (offset :: c.ptp.first).length < 8 then { c with ptp := { c.ptp with first := offset :: c.ptp.first } }
          else ({ c with ptp := { c.ptp with first := [], inRange := 0 } }.set PTP_SERVO_EVER_LOCKED).stepClock (-(median (offset :: c.ptp.first)))
        else if c.ptp.relock then
          ({ c with ptp := { c.ptp with relock := false, refused := [], inRange := 0 } }.setServo svAcquiring).stepClock (-offset)
        else if c.rd PTP_JUMP_MAX_JUMP_MAX < offset.natAbs then c.refuseSample offset
        else c.goodSample filtered freq (c.mpdNow p mpd) := by
  refine if_neg ?_
  have hsv : (c.servo == svAcquiring || c.servo == svLocked || c.servo == svJump) = true := by
    unfold Chip.steering at hst
    simp only [Bool.or_eq_true, beq_iff_eq]
    exact or_assoc.2 hst
  rw [hready, hport, hsv]
  simp

end

/-! ### Masters -/

theorem Chip.ports_holdFreq : c.holdFreq.ptp.ports = c.ptp.ports := by
  unfold Chip.holdFreq Chip.steer
  dsimp only
  rw [Chip.wrI_def, Chip.wr_ptp]

/-- The registers that name the master followed. -/
def Chip.masterNamed (c : Chip) (p : Nat) (m : Master) : Chip :=
  ((c.wr PTP_SERVO_PORT p).put PTP_GM_ID_LO (m.id % 2 ^ 32)).put PTP_GM_ID_HI (bits m.id 32 32)

/-- A servo without a master acquires. -/
def Chip.servoAcquires (c : Chip) : Chip := c.when (c.servo == svListening || c.servo == svHoldover) (·.setServo svAcquiring)

/-- The samples of another master are forgotten. -/
def Chip.samplesForgotten (c : Chip) (changed : Bool) : Chip :=
  if changed then { c with ptp := { c.ptp with refused := [], first := [], inRange := 0, prefSince := none } } else c

/-- A master of another identity is reported. -/
def Chip.masterReported (c : Chip) (newId : Bool) (p : Nat) (m : Master) : Chip :=
  c.when newId fun c => (c.set PTP_STATUS_MASTER_CHANGED).post 0x03 0x0004 p (bits m.id 32 32)

theorem Chip.useMaster_stages (p : Nat) (m : Master) : c.useMaster p m
    = (((c.masterNamed p m).servoAcquires).samplesForgotten (c.gmId != m.id || c.rd PTP_SERVO_PORT != p)).masterReported (c.gmId != m.id) p m := rfl

theorem Chip.ports_samplesForgotten (b : Bool) : (c.samplesForgotten b).ptp.ports = c.ptp.ports := by
  cases b <;> rfl

theorem Chip.cell_samplesForgotten (b : Bool) (o : Nat) : (c.samplesForgotten b).cell o = c.cell o := by
  cases b <;> rfl

theorem Chip.ports_masterReported (b : Bool) (p : Nat) (m : Master) : (c.masterReported b p m).ptp.ports = c.ptp.ports := by
  cases b
  · rfl
  · rw [Chip.masterReported, Chip.when_true, Chip.post_ptp, Chip.set_def, Chip.wr_ptp]

theorem Chip.cell_masterReported (b : Bool) (p : Nat) (m : Master) {o : Nat} (ho : o ≠ PTP_STATUS.off) (hpage : o / 65536 ≠ 1) :
    (c.masterReported b p m).cell o = c.cell o := by
  cases b
  · rfl
  · rw [Chip.masterReported, Chip.when_true, Chip.cell_post _ _ _ _ _ _ hpage, Chip.set_def,
      Chip.cell_wr_other _ PTP_STATUS_MASTER_CHANGED _ _ (Ne.symm ho)]

theorem Chip.ptp_servoAcquires : c.servoAcquires.ptp = c.ptp := by
  unfold Chip.servoAcquires
  exact Chip.when_keeps (·.ptp) _ _ (Chip.wr_ptp ..)

theorem Chip.cell_servoAcquires {o : Nat} (ho : o ≠ PTP_SERVO.off) : c.servoAcquires.cell o = c.cell o := by
  unfold Chip.servoAcquires
  exact Chip.when_keeps (·.cell o) _ _ (Chip.cell_wr_other _ PTP_SERVO_STATE _ _ (Ne.symm ho))

theorem Chip.port_servoAcquires : c.servoAcquires.rd PTP_SERVO_PORT = c.rd PTP_SERVO_PORT := by
  unfold Chip.servoAcquires
  exact Chip.when_keeps (·.rd PTP_SERVO_PORT) _ _ (Chip.rd_wr_keeps _ _ (by decide))

theorem Chip.ports_useMaster (p : Nat) (m : Master) : (c.useMaster p m).ptp.ports = c.ptp.ports := by
  rw [Chip.useMaster_stages, Chip.ports_masterReported, Chip.ports_samplesForgotten, Chip.ptp_servoAcquires, Chip.masterNamed, Chip.put_ptp,
    Chip.put_ptp, Chip.wr_ptp]

/-- The states of the ports, by whether each has a master. -/
def Chip.portStates (c : Chip) : Chip :=
  c.each [0, 1] fun c p => c.wr (PTP_PORT_STAT_PSTATE p) (if c.on (PTP_PORT_CFG_ENABLE p) then (if (c.bestMaster p).isSome then 2 else 1) else 0)

/-- The measurements of a servo that loses its master are dropped. -/
def Chip.ptpForgotten (c : Chip) : Chip :=
  { c with ptp := { c.ptp with refused := [], first := [], inRange := 0, prefSince := none, relock := false } }

/-- The servo without a master. -/
def Chip.masterLost (c : Chip) : Chip :=
  if c.on PTP_SERVO_EVER_LOCKED then ((c.holdFreq.setServo svHoldover).set PTP_STATUS_HOLDOVER_SEEN).post 0x03 0x0003 0 0
  else c.setServo svListening

/-- Since when the preferred port's master has been as good. -/
def Chip.prefKept (c : Chip) (good : Bool) : Chip :=
  if good then { c with ptp := { c.ptp with prefSince := some (c.ptp.prefSince.getD c.now) } } else { c with ptp := { c.ptp with prefSince := none } }

/-- The choice between the masters of the two ports. -/
def Chip.masterChosen (c : Chip) (pref : Nat) : Chip :=
  match c.bestMaster pref, c.bestMaster (1 - pref) with
  | none, none => if !c.hasMaster then c else c.ptpForgotten.masterLost
  | some a, none => c.useMaster pref a
  | none, some b => c.useMaster (1 - pref) b
  | some a, some b =>
    if c.hasMaster && c.rd PTP_SERVO_PORT == 1 - pref then (c.useMaster (1 - pref) b).prefKept (decide (a.id = b.id ∨ a.rank ≤ b.rank))
    else if a.id = b.id ∨ a.rank ≤ b.rank then c.useMaster pref a
    else c.useMaster (1 - pref) b

theorem Chip.selectMaster_stages : c.selectMaster
    = if c.portStates.servo = svDisabled then c.portStates else c.portStates.masterChosen (c.rd PTP_CFG_PREF_PORT) := by
  unfold Chip.selectMaster Chip.masterChosen Chip.prefKept
  simp only [decide_eq_true_eq]
  rfl

theorem Chip.ptp_portStates : c.portStates.ptp = c.ptp :=
  Chip.each_keeps (·.ptp) _ _ (fun d p _ => Chip.wr_ptp ..) c

theorem Chip.ports_masterLost : c.masterLost.ptp.ports = c.ptp.ports := by
  unfold Chip.masterLost
  split
  · rw [Chip.post_ptp, Chip.set_def, Chip.wr_ptp, Chip.setServo, Chip.wr_ptp, Chip.ports_holdFreq]
  · rw [Chip.setServo, Chip.wr_ptp]

theorem Chip.ports_prefKept (b : Bool) : (c.prefKept b).ptp.ports = c.ptp.ports := by
  cases b <;> rfl

theorem Chip.ports_masterChosen (pref : Nat) : (c.masterChosen pref).ptp.ports = c.ptp.ports := by
  unfold Chip.masterChosen
  split
  · split
    · rfl
    · exact Chip.ports_masterLost _
  · exact Chip.ports_useMaster ..
  · exact Chip.ports_useMaster ..
  · split
    · rw [Chip.ports_prefKept, Chip.ports_useMaster]
    · split
      · exact Chip.ports_useMaster ..
      · exact Chip.ports_useMaster ..

theorem Chip.ports_selectMaster : c.selectMaster.ptp.ports = c.ptp.ports := by
  rw [Chip.selectMaster_stages, ← Chip.ptp_portStates c]
  split
  · rfl
  · exact Chip.ports_masterChosen ..

theorem Chip.ptpPort_of_ports {c d : Chip} (h : d.ptp.ports = c.ptp.ports) (p : Nat) : d.ptpPort p = c.ptpPort p := by rw [Chip.ptpPort, h, Chip.ptpPort]

/-- When a master was heard last, an Announce message of it included. -/
def heardNow (ms : List Master) (id now : Nat) : List Nat :=
  match ms.find? fun m => m.id == id with
  | some m => (now :: m.heard).take 2
  | none => [now]

theorem head?_heardNow (ms : List Master) (id now : Nat) : (heardNow ms id now).head? = some now := by
  unfold heardNow
  split <;> rfl

theorem Chip.announce_shows {p domain id rank : Nat} (hp : p < 2) (hready : c.ready = true) (hen : c.on (PTP_PORT_CFG_ENABLE p) = true)
    (hdom : domain = c.rd PTP_CFG_DOMAIN) :
    ∃ q : Bool, ((c.announce p domain id rank).ptpPort p).masters
      = ⟨id, rank, heardNow (c.ptpPort p).masters id c.now, q⟩ :: (c.ptpPort p).masters.filter fun m => m.id != id := by
  unfold Chip.announce
  rw [if_neg (by rw [hready, hen, hdom]; simp)]
  extract_lets x heard was span m
  refine ⟨was || span, ?_⟩
  rw [Chip.ptpPort_of_ports (Chip.ports_selectMaster _), Chip.ptpPort_setPtpPort _ _ _ _ hp, if_pos rfl]
  rfl

theorem Chip.announceTimeout_shows {p : Nat} (hp : p < 2) (hready : c.ready = true) :
    ((c.announceTimeout p).ptpPort p).masters = (c.ptpPort p).masters.filter fun m => decide
      (c.now < m.heard.headD 0 + c.rd PTP_CFG_ANNOUNCE_TIMEOUT * logInterval (c.rd PTP_CFG_ANNOUNCE_LOG)) := by
  unfold Chip.announceTimeout
  rw [hready]
  dsimp only
  rw [if_neg (by decide), Chip.ptpPort_of_ports (Chip.ports_selectMaster _), Chip.ptpPort_setPtpPort _ _ _ _ hp, if_pos rfl]

theorem Chip.useMaster_shows {p : Nat} (hp : p < 2) {m : Master} (hm : m.id < 2 ^ 64) :
    (c.useMaster p m).rd PTP_SERVO_PORT = p ∧ (c.useMaster p m).gmId = m.id := by
  have hcell (o : Nat) (ho : o ≠ PTP_STATUS.off) (hpage : o / 65536 ≠ 1) :
      (c.useMaster p m).cell o = ((c.masterNamed p m).servoAcquires).cell o := by
    rw [Chip.useMaster_stages, Chip.cell_masterReported _ _ _ _ ho hpage, Chip.cell_samplesForgotten]
  have hid (o : Nat) (ho : o ≠ PTP_STATUS.off) (hpage : o / 65536 ≠ 1) (hserv : o ≠ PTP_SERVO.off) :
      (c.useMaster p m).cell o = (c.masterNamed p m).cell o := (hcell o ho hpage).trans (Chip.cell_servoAcquires _ hserv)
  have hport : (c.masterNamed p m).rd PTP_SERVO_PORT = p := by
    unfold Chip.masterNamed
    rw [Chip.rd_put_other _ _ _ _ (by decide), Chip.rd_put_other _ _ _ _ (by decide)]
    exact Chip.rd_wr_lt rfl hp
  have hlo : (c.masterNamed p m).get PTP_GM_ID_LO = m.id % 2 ^ 32 := by
    unfold Chip.masterNamed
    rw [Chip.get_put_other _ _ _ _ (by decide), Chip.get_put_same, Nat.mod_mod]
  have hhi : (c.masterNamed p m).get PTP_GM_ID_HI = m.id / 2 ^ 32 := by
    unfold Chip.masterNamed
    rw [Chip.get_put_same, bits, Nat.mod_mod, Nat.mod_eq_of_lt (by omega)]
  constructor
  · exact (Chip.rd_of_cell (hcell _ (by decide) (by decide))).trans ((Chip.port_servoAcquires _).trans hport)
  · rw [Chip.gmId, Chip.get_of_cell (hid PTP_GM_ID_LO.off (by decide) (by decide) (by decide)),
      Chip.get_of_cell (hid PTP_GM_ID_HI.off (by decide) (by decide) (by decide)), hlo, hhi]
    omega

theorem Chip.prefRevert_due {since : Nat} {m : Master} (hready : c.ready = true) (hsince : c.ptp.prefSince = some since)
    (hdue : since + sec 10 ≤ c.now) (hbest : c.bestMaster (c.rd PTP_CFG_PREF_PORT) = some m) :
    c.prefRevert = c.useMaster (c.rd PTP_CFG_PREF_PORT) m := by
  unfold Chip.prefRevert
  dsimp only
  rw [hsince, hbest]
  exact if_pos (by rw [hready, decide_eq_true hdue]; rfl)

theorem Chip.gmId_of_get {c d : Chip} (hlo : d.get PTP_GM_ID_LO = c.get PTP_GM_ID_LO) (hhi : d.get PTP_GM_ID_HI = c.get PTP_GM_ID_HI) :
    d.gmId = c.gmId := by
  rw [Chip.gmId, hlo, hhi, Chip.gmId]

end

/-- Settles O49: a sample is accepted, refused, or steps the clock; what the row does after it is off the PTP page. -/
theorem ptpServo : Obligations.PtpServo := by
  unfold Obligations.PtpServo
  refine ⟨?_, ?_, ?_, ?_, ?_, ?_, ?_⟩
  · rintro s t p offset filtered freq mpd c rfl hready hport hst hever hrelock hjump
    have hrun := (s.chipAt t).servoSample_runs (offset := offset) (filtered := filtered) (freq := freq) (mpd := mpd) hready hport hst
    have heq : (s.chipAt t).servoSample p.val offset filtered freq mpd = (s.chipAt t).goodSample filtered freq ((s.chipAt t).mpdNow p.val mpd) := by
      rw [hrun, hever, if_neg (by decide), hrelock, if_neg (by decide), if_neg (by omega)]
    have htail := fun d => Chip.ptpTail_within d ((s.chipAt t).servoSample p.val offset filtered freq mpd)
    obtain ⟨hoff, hfreq, hin, hservo⟩ := (s.chipAt t).goodSample_shows filtered freq ((s.chipAt t).mpdNow p.val mpd) hst
    rw [← heq] at hoff hfreq hin hservo
    exact ⟨_, State.fwStep_ready s t _ hready, (Chip.rdI_of_rd ((htail _).rd (by decide))).trans hoff, (Chip.rdI_of_rd ((htail _).rd (by decide))).trans hfreq,
      (congrArg Ptp.inRange ((htail _).part .ptp (by decide))).trans hin, ((htail _).rd (by decide)).trans hservo⟩
  · rintro s t p offset filtered freq mpd c rfl hready hport hst hever hrelock hjump
    have hrun := (s.chipAt t).servoSample_runs (offset := offset) (filtered := filtered) (freq := freq) (mpd := mpd) hready hport hst
    have heq : (s.chipAt t).servoSample p.val offset filtered freq mpd = (s.chipAt t).refuseSample offset := by
      rw [hrun, hever, if_neg (by decide), hrelock, if_neg (by decide), if_pos hjump]
    have htail := fun d => Chip.ptpTail_within d ((s.chipAt t).servoSample p.val offset filtered freq mpd)
    obtain ⟨hcount, hoff, hclock, hheld⟩ := (s.chipAt t).refuseSample_shows offset
    rw [← heq] at hcount hoff hclock hheld
    exact ⟨_, State.fwStep_ready s t _ hready, ((htail _).rd (by decide)).trans hcount, ((htail _).get (by decide)).trans hoff,
      congrArg Clock.n (((htail _).part .clock (by decide)).trans hclock), fun h => ((htail _).rd (by decide)).trans (hheld h)⟩
  · rintro s t p domain id rank c rfl hready hen hdom
    have htail := fun d => Chip.ptpTail_within d ((s.chipAt t).announce p.val domain.toNat id.toNat rank)
    obtain ⟨q, hmasters⟩ := (s.chipAt t).announce_shows (id := id.toNat) (rank := rank) p.isLt hready hen hdom
    have hport := (congrArg PtpPort.masters (Chip.ptpPort_of_ptp ((htail (s.chipAt t)).part .ptp (by decide)) p.val)).trans hmasters
    exact ⟨_, State.fwStep_ready s t _ hready, congrArg (fun ms => ms.head?.map fun m => (m.id, m.rank)) hport,
      (congrArg (fun ms => ms.head?.bind fun m => m.heard.head?) hport).trans (head?_heardNow ..), congrArg List.tail hport⟩
  · rintro s t p limit c rfl hready rfl
    have htail := fun d => Chip.ptpTail_within d ((s.chipAt t).announceTimeout p.val)
    exact ⟨_, State.fwStep_ready s t _ hready, (congrArg PtpPort.masters (Chip.ptpPort_of_ptp ((htail (s.chipAt t)).part .ptp (by decide)) p.val)).trans
      ((s.chipAt t).announceTimeout_shows p.isLt hready)⟩
  · rintro s t since m c rfl hready hsince hdue hbest hm
    have heq := (s.chipAt t).prefRevert_due hready hsince hdue hbest
    have htail := fun d => Chip.ptpTail_within d (s.chipAt t).prefRevert
    obtain ⟨hport, hid⟩ := (s.chipAt t).useMaster_shows (p := (s.chipAt t).rd PTP_CFG_PREF_PORT) ((s.chipAt t).rd_lt PTP_CFG_PREF_PORT) hm
    rw [← heq] at hport hid
    refine ⟨_, State.fwStep_ready s t _ hready, ((htail (s.chipAt t)).rd (by decide)).trans hport, Eq.trans ?_ hid⟩
    exact Chip.gmId_of_get ((htail (s.chipAt t)).get (by decide)) ((htail (s.chipAt t)).get (by decide))
  · rintro s t p offset filtered freq mpd c rfl hready hport hst hever hfirst
    have hrun := (s.chipAt t).servoSample_runs (offset := offset) (filtered := filtered) (freq := freq) (mpd := mpd) hready hport hst
    rw [hever, if_pos (by decide), if_neg (by rw [List.length_cons]; omega)] at hrun
    have htail := fun d => Chip.ptpTail_within d ((s.chipAt t).servoSample p.val offset filtered freq mpd)
    obtain ⟨hclock, hstep, -⟩ := ({ s.chipAt t with ptp := { (s.chipAt t).ptp with first := [], inRange := 0 } }.set PTP_SERVO_EVER_LOCKED).stepClock_shows
      (-(median (offset :: (s.chipAt t).ptp.first)))
    have hlocked := Chip.rd_stepClock (f := PTP_SERVO_EVER_LOCKED)
      ({ s.chipAt t with ptp := { (s.chipAt t).ptp with first := [], inRange := 0 } }.set PTP_SERVO_EVER_LOCKED)
      (-(median (offset :: (s.chipAt t).ptp.first))) (by decide) (by decide)
    rw [← hrun] at hclock hstep hlocked
    rw [Chip.set_def, Chip.wr_clock] at hclock
    exact ⟨_, State.fwStep_ready s t _ hready, (congrArg (· != 0) (((htail _).rd (by decide)).trans hlocked)).trans (Chip.on_set_same _ rfl Nat.one_ne_zero),
      (congrArg Clock.n ((htail _).part .clock (by decide))).trans hclock, ((htail _).on (by decide)).trans hstep⟩
  · rintro s t p offset filtered freq mpd c rfl hready hport hst hever hrelock
    have hrun := (s.chipAt t).servoSample_runs (offset := offset) (filtered := filtered) (freq := freq) (mpd := mpd) hready hport hst
    rw [hever, if_neg (by decide), hrelock, if_pos rfl] at hrun
    have htail := fun d => Chip.ptpTail_within d ((s.chipAt t).servoSample p.val offset filtered freq mpd)
    obtain ⟨hclock, -, hptp⟩ := ({ s.chipAt t with ptp := { (s.chipAt t).ptp with relock := false, refused := [], inRange := 0 } }.setServo
      svAcquiring).stepClock_shows (-offset)
    have hservo := Chip.rd_stepClock (f := PTP_SERVO_STATE)
      ({ s.chipAt t with ptp := { (s.chipAt t).ptp with relock := false, refused := [], inRange := 0 } }.setServo svAcquiring)
      (-offset) (by decide) (by decide)
    rw [← hrun] at hclock hptp hservo
    rw [Chip.setServo, Chip.wr_clock] at hclock
    rw [Chip.setServo, Chip.wr_ptp] at hptp
    exact ⟨_, State.fwStep_ready s t _ hready, congrArg Ptp.relock (((htail _).part .ptp (by decide)).trans hptp),
      (((htail _).rd (by decide)).trans hservo).trans (Chip.rd_wr_lt rfl (by decide)), (congrArg Clock.n ((htail _).part .clock (by decide))).trans hclock⟩

end Sys2Proof.Machine
end

section
/-! SUPPORT. References: what a window, an inactive candidate, an edge and a selection leave in the registers of candidates and planes. -/

namespace Sys2Proof.Machine

/-! ### What the planes leave of the candidates' registers -/

/-- The registers of the reference candidates. -/
def OnCands (o : Nat) : Prop := 0x30100 ≤ o ∧ o < 0x30200

section
variable (c : Chip) {o : Nat}

theorem Chip.cell_slew (q : Nat) : (c.slew q).cell o = c.cell o := by
  unfold Chip.slew
  dsimp only
  split <;> rfl

section
variable (h : OnCands o)
include h

theorem Chip.cell_planeShow (q : Nat) : (c.planeShow q).cell o = c.cell o := by
  obtain ⟨hlo, hhi⟩ := h
  unfold Chip.planeShow
  simp (disch := grind [Reg.fld, REF_PLANE_FREQ_FREQ, REF_PLANE_FREQ, REF_PLANE_BUILDOUT_BUILDOUT, REF_PLANE_BUILDOUT]) only
    [Chip.wrI_def, Chip.cell_wr_other]

theorem Chip.cell_modelShow (q : Nat) : (c.modelShow q).cell o = c.cell o := by
  obtain ⟨hlo, hhi⟩ := h
  unfold Chip.modelShow
  dsimp only
  split <;> simp (disch := grind [Reg.fld, REF_PLANE_STAT_MODEL_VALID, REF_PLANE_STAT, REF_PLANE_MODEL_MODEL, REF_PLANE_MODEL]) only
    [Chip.wrI_def, Chip.wrB_def, Chip.cell_wr_other]

theorem Chip.cell_freerun (q : Nat) : (c.freerun q).cell o = c.cell o := by
  obtain ⟨hlo, hhi⟩ := h
  unfold Chip.freerun Chip.planeTo
  simp (disch := grind [Reg.fld, REF_PLANE_STAT_SELECTED, REF_PLANE_STAT_STATE, REF_PLANE_STAT, REF_STATUS_FREERUN, REF_STATUS,
    REF_PLANE_STAT_FREERUN_SEEN]) only [Chip.set_def, Chip.cell_wr_other, Chip.cell_post]

theorem Chip.cell_switchTo (q k : Nat) (phase : Int) : (c.switchTo q k phase).cell o = c.cell o := by
  have h' := h
  obtain ⟨hlo, hhi⟩ := h'
  unfold Chip.switchTo Chip.planeTo
  simp (disch := grind [Reg.fld, REF_PLANE_STAT_SELECTED, REF_PLANE_STAT_STATE, REF_PLANE_STAT, REF_STATUS_SWITCH, REF_STATUS,
    REF_PLANE_STAT_SWITCH_SEEN, REF_PLANE_SWITCHES_COUNT, REF_PLANE_SWITCHES]) only
    [Chip.set_def, Chip.inc_def, Chip.cell_wr_other, Chip.cell_post, Chip.cell_planeShow _ h, Chip.setPlane_cell, Chip.cell_slew]

theorem Chip.cell_loseRef (q : Nat) : (c.loseRef q).cell o = c.cell o := by
  have h' := h
  obtain ⟨hlo, hhi⟩ := h'
  unfold Chip.loseRef Chip.planeTo
  dsimp only
  split
  · simp (disch := grind [Reg.fld, REF_PLANE_STAT_SELECTED, REF_PLANE_STAT_STATE, REF_PLANE_STAT, REF_STATUS_HOLDOVER, REF_STATUS,
      REF_PLANE_STAT_HOLDOVER_SEEN, REF_PLANE_SWITCHES_COUNT, REF_PLANE_SWITCHES]) only
      [Chip.set_def, Chip.inc_def, Chip.cell_wr_other, Chip.cell_post, Chip.cell_planeShow _ h, Chip.cell_modelShow _ h, Chip.setPlane_cell, Chip.cell_slew]
  · rw [Chip.cell_planeShow _ h, Chip.cell_freerun _ h, Chip.cell_modelShow _ h, Chip.setPlane_cell, Chip.cell_slew]

theorem Chip.cell_startSelect (q : Nat) (ph : Nat → Nat → Int) : (c.startSelect q ph).cell o = c.cell o := by
  have h' := h
  obtain ⟨hlo, hhi⟩ := h'
  unfold Chip.startSelect Chip.planeLock Chip.planeTo Chip.leaveStart
  split
  · rfl
  · simp (disch := grind [Reg.fld, REF_PLANE_STAT_SELECTED, REF_PLANE_STAT_STATE, REF_PLANE_STAT, REF_PLANE_STAT_PHASE_FREE]) only
      [Chip.wrB_def, Chip.cell_wr_other, Chip.cell_post, Chip.cell_planeShow _ h, Chip.setPlane_cell]

theorem Chip.cell_reselect (q : Nat) (ph : Nat → Nat → Int) : (c.reselect q ph).cell o = c.cell o := by
  unfold Chip.reselect
  dsimp only
  split
  · split
    · rfl
    · rw [Chip.cell_switchTo _ h, Chip.setPlane_cell]
  · split
    · rw [Chip.cell_loseRef _ h, Chip.setPlane_cell]
    · rfl

theorem Chip.cell_judgePairs (q : Nat) : (c.judgePairs q).cell o = c.cell o := by
  obtain ⟨hlo, hhi⟩ := h
  unfold Chip.judgePairs
  dsimp only
  rw [Chip.setPlane_cell]
  refine Chip.each_keeps (·.cell o) _ _ (fun c p _ => ?_) c
  simp (disch := grind [Reg.fld, REF_STATUS_DISAGREE, REF_STATUS]) only [Chip.set_def, Chip.cell_wr_other, Chip.cell_post]

theorem Chip.cell_reselectAll (ph : Nat → Nat → Int) : (c.reselectAll ph).cell o = c.cell o :=
  Chip.each_keeps (·.cell o) _ _ (fun c q _ => by rw [Chip.cell_judgePairs _ h, Chip.cell_reselect _ h]) c

theorem Chip.cell_planeWindow (q : Nat) (ms : List RefMeas) : (c.planeWindow q ms).cell o = c.cell o := by
  unfold Chip.planeWindow
  extract_lets c1 k x f c2 takes c3
  have h2 : c2.cell o = c1.cell o := by
    simp only [c2]
    split <;> rfl
  have h3 : c3.cell o = c2.cell o := by
    refine Chip.when_keeps (·.cell o) c2 takes ?_
    rw [Chip.cell_modelShow _ h, Chip.setPlane_cell]
  rw [Chip.cell_planeShow _ h, h3, h2]
  exact Chip.cell_slew c q

theorem Chip.cell_loTrack (lo : Int) : (c.loTrack lo).cell o = c.cell o := by
  obtain ⟨hlo, hhi⟩ := h
  have hwr : ∀ (d : Chip) (v : Int), (d.wrI REF_LO_CAL_LO_CAL v).cell o = d.cell o := fun d v => by
    rw [Chip.wrI_def, Chip.cell_wr_other]
    grind [Reg.fld, REF_LO_CAL_LO_CAL, REF_LO_CAL]
  unfold Chip.loTrack
  split
  · dsimp only
    split
    · rw [hwr]; rfl
    · split
      · rw [hwr]; rfl
      · rfl
  · rfl

end
end

/-! ### One item of a list -/

/-- What holds up to an item, and what the item makes hold after it, where the other items keep both. -/
theorem Chip.each_once {α : Type} (before after : Chip → Prop) {l : List α} {g : Chip → α → Chip} {a : α} (hl : l.Nodup) (ha : a ∈ l)
    (hbefore : ∀ c b, b ∈ l → b ≠ a → before c → before (g c b)) (hat : ∀ c, before c → after (g c a))
    (hafter : ∀ c b, b ∈ l → b ≠ a → after c → after (g c b)) (c : Chip) (hc : before c) : after (c.each l g) := by
  induction l generalizing c with
  | nil => simp at ha
  | cons b l ih =>
    obtain ⟨hb, hl⟩ := List.nodup_cons.1 hl
    rw [Chip.each_cons]
    rcases List.mem_cons.1 ha with rfl | ha
    · exact Chip.each_invariant after l g (fun d x hx => hafter d x (List.mem_cons_of_mem _ hx) (fun he => hb (he ▸ hx))) _ (hat c hc)
    · exact ih hl ha (fun d x hx => hbefore d x (List.mem_cons_of_mem _ hx)) (fun d x hx => hafter d x (List.mem_cons_of_mem _ hx)) _
        (hbefore c b List.mem_cons_self (fun he => hb (he ▸ ha)) hc)

/-! ### The window of a candidate -/

section
variable (c : Chip) (k : Nat)

/-- A candidate's window before it is judged: its offset, its edges, and whether it lies in the accept limit. -/
def Chip.candMeasured (c : Chip) (k : Nat) (off : Int) (active inAcc : Bool) : Chip :=
  let d := c.wrI (REF_CAND_OFFSET_OFFSET k) off
  (d.setCand k { d.cand k with stray := 0, activeAt := if active then some ((d.cand k).activeAt.getD (d.now - sec 1)) else (d.cand k).activeAt }).when active
    (·.wrB (REF_CAND_STAT_IN_ACCEPT k) inAcc)

/-- A candidate found active measures. -/
def Chip.candFound (c : Chip) (k : Nat) (active : Bool) : Chip :=
  if active then (c.caTo k caMeasuring).wr (REF_CAND_STAT_GOOD_WINDOWS k) 0 else c

/-- A qualified candidate beyond its reject limit is disqualified. -/
def Chip.candRejected (c : Chip) (k : Nat) (off : Int) : Chip :=
  if 10 * c.rd (REF_CAND_RANK_REJECT k) < off.natAbs then
    (((c.caTo k caDisqualified).wr (REF_CAND_STAT_CAUSE k) 3).wr (REF_CAND_STAT_GOOD_WINDOWS k) 0).leftQual k 3
  else c

/-- A candidate that qualifies, before its instant is kept. -/
def Chip.candQualifies (c : Chip) (k : Nat) : Chip := ((c.caTo k caQualified).wr (REF_CAND_STAT_GOOD_WINDOWS k) 0).set (REF_CAND_STAT_QUAL_SEEN k)

/-- Since when a candidate is QUALIFIED. -/
def Chip.candDated (c : Chip) (k : Nat) (at_ : Option Nat) : Chip := c.setCand k { c.cand k with qualAt := at_ }

/-- One more good window of a candidate, the eighth of which qualifies it. -/
def Chip.candGood (c : Chip) (k : Nat) (off : Int) : Chip :=
  if c.rd (REF_CAND_STAT_GOOD_WINDOWS k) + 1 < 8 then c.wr (REF_CAND_STAT_GOOD_WINDOWS k) (c.rd (REF_CAND_STAT_GOOD_WINDOWS k) + 1)
  else ((c.candQualifies k).candDated k (some (c.candQualifies k).now)).post 0x02 0x0003 k (argI off)

theorem Chip.leftQual_stages (cause : Nat) : c.leftQual k cause
    = (((c.candDated k none).set REF_STATUS_DISQUALIFIED).set (REF_CAND_STAT_DISQ_SEEN k)).post 0x02 0x0004 k cause := rfl

theorem Chip.candDated_rd (a : Option Nat) (f : Fld) : (c.candDated k a).rd f = c.rd f := Chip.setCand_rd ..
theorem Chip.candDated_cell (a : Option Nat) (o : Nat) : (c.candDated k a).cell o = c.cell o := Chip.setCand_cell ..
theorem Chip.candDated_loAt (a : Option Nat) : (c.candDated k a).ref.loAt = c.ref.loAt := by
  rw [Chip.candDated, Chip.setCand_ref]

/-- Whether a candidate's window is active. -/
def Chip.candActive (c : Chip) (k : Nat) (m : RefMeas) : Bool := m.active && (k != 4 || c.servo == svLocked)

/-- Whether a candidate's window is in its accept limit. -/
def Chip.candAccepted (c : Chip) (k : Nat) (off : Int) : Bool := decide (off.natAbs ≤ 10 * c.rd (REF_CAND_CFG_ACCEPT k))

theorem Chip.servo_wrI_candOffset (hk : k < 5) (off : Int) : (c.wrI (REF_CAND_OFFSET_OFFSET k) off).servo = c.servo :=
  Chip.rd_wr_keeps _ _ (Fld.apart_of_off (by
    have hoff : (REF_CAND_OFFSET_OFFSET k).off = 0x30160 + 4 * k := rfl
    have hsv : PTP_SERVO_STATE.off = PTP_SERVO.off := rfl
    have hps : PTP_SERVO.off / 65536 = 4 := rfl
    omega))

theorem Chip.candWindow_eq (hk : k < 5) (m : RefMeas) (hst : c.caState k ≠ caOff) :
    c.candWindow k m
      = let off := c.corrected m.offset
        let d := c.candMeasured k off (c.candActive k m) (c.candAccepted k off)
        if c.caState k = caInactive then d.candFound k (c.candActive k m)
        else if c.caState k = caQualified then d.candRejected k off
        else if !(c.candActive k m) || !(c.candAccepted k off) then d.wr (REF_CAND_STAT_GOOD_WINDOWS k) 0
        else d.candGood k off := by
  have hacc (off : Int) (x : Cand) : ((c.wrI (REF_CAND_OFFSET_OFFSET k) off).setCand k x).rd (REF_CAND_CFG_ACCEPT k) = c.rd (REF_CAND_CFG_ACCEPT k) := by
    rw [Chip.setCand_rd]
    refine Chip.rd_wrI_keeps _ _ (Fld.apart_of_off ?_)
    have hoff : (REF_CAND_OFFSET_OFFSET k).off = 0x30160 + 4 * k := rfl
    have hcfg : (REF_CAND_CFG_ACCEPT k).off = 0x30100 + 4 * k := rfl
    omega
  unfold Chip.candWindow
  dsimp only
  rw [if_neg hst, Chip.servo_wrI_candOffset c k hk, hacc]
  rfl

theorem Chip.rd_candMeasured {f : Fld} (off : Int) (a b : Bool) (ho : (REF_CAND_OFFSET_OFFSET k).apart f = true)
    (ha : (REF_CAND_STAT_IN_ACCEPT k).apart f = true) : (c.candMeasured k off a b).rd f = c.rd f := by
  unfold Chip.candMeasured
  dsimp only
  rw [Chip.rd_when, Chip.wrB_def, Chip.rd_wr_keeps _ _ ha, ite_self, Chip.setCand_rd, Chip.rd_wrI_keeps _ _ ho]

theorem Chip.rdI_candMeasured (off : Int) (a b : Bool) :
    (c.candMeasured k off a b).rdI (REF_CAND_OFFSET_OFFSET k) = (c.wrI (REF_CAND_OFFSET_OFFSET k) off).rdI (REF_CAND_OFFSET_OFFSET k) := by
  have hstat : (REF_CAND_STAT_IN_ACCEPT k).off = 0x30140 + 4 * k := rfl
  have hoff : (REF_CAND_OFFSET_OFFSET k).off = 0x30160 + 4 * k := rfl
  refine Chip.rdI_of_rd ?_
  unfold Chip.candMeasured
  dsimp only
  rw [Chip.rd_when, Chip.wrB_def, Chip.rd_wr_keeps _ _ (Fld.apart_of_off (by omega)), ite_self, Chip.setCand_rd]

/-- Registers that no judgement of a candidate's window writes. -/
def CandUnjudged (k o : Nat) : Prop := o ≠ 0x30140 + 4 * k ∧ o ≠ REF_STATUS.off ∧ o / 65536 ≠ 1

section
variable {o : Nat} (h : CandUnjudged k o)
include h

theorem Chip.cell_candFound (a : Bool) : (c.candFound k a).cell o = c.cell o := by
  obtain ⟨hstat, hsum, hpage⟩ := h
  unfold Chip.candFound Chip.caTo
  split
  · simp (disch := grind [Reg.fld, REF_CAND_STAT_STATE, REF_CAND_STAT, REF_CAND_STAT_GOOD_WINDOWS]) only [Chip.cell_wr_other]
  · rfl

theorem Chip.cell_leftQual (cause : Nat) : (c.leftQual k cause).cell o = c.cell o := by
  obtain ⟨hstat, hsum, hpage⟩ := h
  rw [Chip.leftQual_stages]
  simp (disch := grind [Reg.fld, REF_CAND_STAT_DISQ_SEEN, REF_CAND_STAT, REF_STATUS_DISQUALIFIED, REF_STATUS]) only
    [Chip.set_def, Chip.cell_wr_other, Chip.cell_post, Chip.candDated_cell]

theorem Chip.cell_candRejected (off : Int) : (c.candRejected k off).cell o = c.cell o := by
  have h' := h
  obtain ⟨hstat, hsum, hpage⟩ := h'
  unfold Chip.candRejected Chip.caTo
  split
  · simp (disch := grind [Reg.fld, REF_CAND_STAT_STATE, REF_CAND_STAT, REF_CAND_STAT_GOOD_WINDOWS, REF_CAND_STAT_CAUSE]) only
      [Chip.cell_leftQual _ _ h, Chip.cell_wr_other]
  · rfl

theorem Chip.cell_candGood (off : Int) : (c.candGood k off).cell o = c.cell o := by
  obtain ⟨hstat, hsum, hpage⟩ := h
  unfold Chip.candGood
  split
  · simp (disch := grind [Reg.fld, REF_CAND_STAT, REF_CAND_STAT_GOOD_WINDOWS]) only [Chip.cell_wr_other]
  · unfold Chip.candQualifies Chip.caTo
    simp (disch := grind [Reg.fld, REF_CAND_STAT_STATE, REF_CAND_STAT, REF_CAND_STAT_GOOD_WINDOWS, REF_CAND_STAT_QUAL_SEEN]) only
      [Chip.set_def, Chip.cell_wr_other, Chip.cell_post, Chip.candDated_cell]

theorem Chip.cell_candMeasured (ho : o ≠ 0x30160 + 4 * k) (off : Int) (a b : Bool) : (c.candMeasured k off a b).cell o = c.cell o := by
  obtain ⟨hstat, hsum, hpage⟩ := h
  unfold Chip.candMeasured
  dsimp only
  refine (Chip.when_keeps (·.cell o) _ _ ?_).trans ((Chip.setCand_cell ..).trans ?_)
  · rw [Chip.wrB_def, Chip.cell_wr_other]
    exact Ne.symm hstat
  · rw [Chip.wrI_def, Chip.cell_wr_other]
    exact Ne.symm ho

theorem Chip.cell_candWindow (hk : k < 5) (ho : o ≠ 0x30160 + 4 * k) (m : RefMeas) : (c.candWindow k m).cell o = c.cell o := by
  by_cases hst : c.caState k = caOff
  · unfold Chip.candWindow
    dsimp only
    rw [if_pos hst]
  · rw [Chip.candWindow_eq c k hk m hst]
    have hm := c.cell_candMeasured k h ho (c.corrected m.offset) (c.candActive k m) (c.candAccepted k (c.corrected m.offset))
    dsimp only
    split
    · exact (Chip.cell_candFound _ _ h _).trans hm
    · split
      · exact (Chip.cell_candRejected _ _ h _).trans hm
      · split
        · exact (Chip.cell_wr_other _ (REF_CAND_STAT_GOOD_WINDOWS k) _ _ (Ne.symm h.1)).trans hm
        · exact (Chip.cell_candGood _ _ h _).trans hm

end

theorem candUnjudged_offset (hk : k < 5) : CandUnjudged k (REF_CAND_OFFSET_OFFSET k).off := by
  have hoff : (REF_CAND_OFFSET_OFFSET k).off = 0x30160 + 4 * k := rfl
  have hsum : REF_STATUS.off = 0x30000 := rfl
  exact ⟨by omega, by omega, by omega⟩

theorem Chip.candWindow_offset (hk : k < 5) (m : RefMeas) (hst : c.caState k ≠ caOff) :
    (c.candWindow k m).rdI (REF_CAND_OFFSET_OFFSET k) = (c.wrI (REF_CAND_OFFSET_OFFSET k) (c.corrected m.offset)).rdI (REF_CAND_OFFSET_OFFSET k) := by
  have hm := c.rdI_candMeasured k (c.corrected m.offset) (c.candActive k m) (c.candAccepted k (c.corrected m.offset))
  have ho := candUnjudged_offset k hk
  rw [Chip.candWindow_eq c k hk m hst]
  dsimp only
  split
  · exact (Chip.rdI_of_rd (Chip.rd_of_cell (Chip.cell_candFound _ _ ho _))).trans hm
  · split
    · exact (Chip.rdI_of_rd (Chip.rd_of_cell (Chip.cell_candRejected _ _ ho _))).trans hm
    · split
      · refine (Chip.rdI_of_rd (Chip.rd_of_cell (Chip.cell_wr_other _ (REF_CAND_STAT_GOOD_WINDOWS k) _ _ (Ne.symm ho.1)))).trans hm
      · exact (Chip.rdI_of_rd (Chip.rd_of_cell (Chip.cell_candGood _ _ ho _))).trans hm

theorem Chip.caState_candFound (a : Bool) (hst : c.caState k = caInactive) : (c.candFound k a).caState k = if a then caMeasuring else caInactive := by
  unfold Chip.candFound Chip.caTo
  cases a
  · exact hst
  · unfold Chip.caState
    simp (disch := grind [Fld.apart, Fld.fits_iff, Reg.fld, REF_CAND_STAT_STATE, REF_CAND_STAT, REF_CAND_STAT_GOOD_WINDOWS, caMeasuring]) only
      [Chip.rd_wr_keeps, Chip.rd_wr_lt, if_true]

theorem Chip.caState_candRejected (off : Int) (hst : c.caState k = caQualified) :
    (c.candRejected k off).caState k = if 10 * c.rd (REF_CAND_RANK_REJECT k) < off.natAbs then caDisqualified else caQualified := by
  unfold Chip.candRejected
  split
  · rw [Chip.leftQual_stages]
    unfold Chip.caState Chip.caTo
    simp (disch := grind [Fld.apart, Fld.fits_iff, Reg.fld, REF_CAND_STAT_STATE, REF_CAND_STAT, REF_CAND_STAT_GOOD_WINDOWS, REF_CAND_STAT_CAUSE,
      REF_CAND_STAT_DISQ_SEEN, REF_STATUS_DISQUALIFIED, REF_STATUS, caDisqualified]) only
      [Chip.rd_post, Chip.set_def, Chip.rd_wr_keeps, Chip.candDated_rd, Chip.rd_wr_lt]
  · exact hst

theorem Chip.candGood_shows (off : Int) :
    (c.rd (REF_CAND_STAT_GOOD_WINDOWS k) = 7 → (c.candGood k off).caState k = caQualified)
      ∧ (c.rd (REF_CAND_STAT_GOOD_WINDOWS k) < 7 → (c.candGood k off).rd (REF_CAND_STAT_GOOD_WINDOWS k) = c.rd (REF_CAND_STAT_GOOD_WINDOWS k) + 1) := by
  unfold Chip.candGood
  constructor
  · intro hn
    rw [if_neg (by omega)]
    unfold Chip.candQualifies Chip.caTo Chip.caState
    simp (disch := grind [Fld.apart, Fld.fits_iff, Reg.fld, REF_CAND_STAT_STATE, REF_CAND_STAT, REF_CAND_STAT_GOOD_WINDOWS, REF_CAND_STAT_QUAL_SEEN,
      caQualified]) only [Chip.rd_post, Chip.set_def, Chip.rd_wr_keeps, Chip.candDated_rd, Chip.rd_wr_lt]
  · intro hn
    rw [if_pos (by omega)]
    exact Chip.rd_wr_lt rfl (by have hw : (REF_CAND_STAT_GOOD_WINDOWS k).w = 3 := rfl; rw [hw]; omega)

/-- What a candidate's window reads of a chip: its registers, and what corrects and activates it. -/
structure Chip.WindowAlike (k : Nat) (c d : Chip) : Prop where
  cell : ∀ o, o = 0x30100 + 4 * k ∨ o = 0x30120 + 4 * k ∨ o = 0x30140 + 4 * k ∨ o = 0x30160 + 4 * k ∨ o = REF_LO.off ∨ o = REF_LO_CAL.off
    ∨ o = PTP_SERVO.off → d.cell o = c.cell o
  loAt : d.ref.loAt = c.ref.loAt
  now : d.now = c.now

theorem Chip.loAt_candMeasured (off : Int) (a b : Bool) : (c.candMeasured k off a b).ref.loAt = c.ref.loAt := by
  unfold Chip.candMeasured
  dsimp only
  refine (Chip.when_keeps (·.ref.loAt) _ _ ?_).trans ?_
  · rw [Chip.wrB_def, Chip.wr_ref]
  · rw [Chip.setCand_ref, Chip.wrI_def, Chip.wr_ref]

theorem Chip.loAt_candJudged (off : Int) (a : Bool) : (c.candFound k a).ref.loAt = c.ref.loAt ∧ (c.candRejected k off).ref.loAt = c.ref.loAt
    ∧ (c.candGood k off).ref.loAt = c.ref.loAt := by
  refine ⟨?_, ?_, ?_⟩
  · unfold Chip.candFound
    split
    · rw [Chip.wr_ref, Chip.caTo, Chip.wr_ref]
    · rfl
  · unfold Chip.candRejected
    split
    · rw [Chip.leftQual_stages, Chip.post_ref, Chip.set_def, Chip.wr_ref, Chip.set_def, Chip.wr_ref, Chip.candDated_loAt, Chip.wr_ref, Chip.wr_ref,
        Chip.caTo, Chip.wr_ref]
    · rfl
  · unfold Chip.candGood
    split
    · rw [Chip.wr_ref]
    · rw [Chip.post_ref, Chip.candDated_loAt, Chip.candQualifies, Chip.set_def, Chip.wr_ref, Chip.wr_ref, Chip.caTo, Chip.wr_ref]

theorem Chip.loAt_candWindow (hk : k < 5) (m : RefMeas) : (c.candWindow k m).ref.loAt = c.ref.loAt := by
  by_cases hst : c.caState k = caOff
  · unfold Chip.candWindow
    dsimp only
    rw [if_pos hst]
  · rw [Chip.candWindow_eq c k hk m hst]
    have hm := c.loAt_candMeasured k (c.corrected m.offset) (c.candActive k m) (c.candAccepted k (c.corrected m.offset))
    obtain ⟨hfound, hrejected, hgood⟩ := (c.candMeasured k (c.corrected m.offset) (c.candActive k m)
      (c.candAccepted k (c.corrected m.offset))).loAt_candJudged k (c.corrected m.offset) (c.candActive k m)
    dsimp only
    split
    · exact hfound.trans hm
    · split
      · exact hrejected.trans hm
      · split
        · rw [Chip.wr_ref, hm]
        · exact hgood.trans hm

theorem Chip.windowAlike_candWindow {d : Chip} {j : Nat} (hk : k < 5) (hj : j < 5) (hne : j ≠ k) (m : RefMeas) (h : Chip.WindowAlike k c d) :
    Chip.WindowAlike k c (d.candWindow j m) where
  cell o ho := by
    have hstat : REF_STATUS.off = 0x30000 := rfl
    have hlo : REF_LO.off = 0x3000c := rfl
    have hcal : REF_LO_CAL.off = 0x30010 := rfl
    have hsv : PTP_SERVO.off / 65536 = 4 := rfl
    exact (d.cell_candWindow j ⟨by omega, by omega, by omega⟩ hj (by omega) m).trans (h.cell o ho)
  loAt := (d.loAt_candWindow j hj m).trans h.loAt
  now := ((Chip.candWindow_within hj .refl (by decide) (by decide) : Chip.Within [1, 3] [.ref] d _).part .now (by decide)).trans h.now

theorem Chip.WindowAlike.rd {d : Chip} (h : Chip.WindowAlike k c d) {f : Fld} (hf : f.off = 0x30100 + 4 * k ∨ f.off = 0x30120 + 4 * k
    ∨ f.off = 0x30140 + 4 * k ∨ f.off = 0x30160 + 4 * k ∨ f.off = REF_LO.off ∨ f.off = REF_LO_CAL.off ∨ f.off = PTP_SERVO.off) : d.rd f = c.rd f :=
  Chip.rd_of_cell (h.cell _ hf)

theorem Chip.WindowAlike.corrected {d : Chip} (h : Chip.WindowAlike k c d) (off : Int) : d.corrected off = c.corrected off := by
  have hpresent : d.on REF_LO_PRESENT = c.on REF_LO_PRESENT := congrArg (· != 0) (h.rd c k (f := REF_LO_PRESENT) (by simp [REF_LO_PRESENT, Reg.fld, REF_LO]))
  have hcal : d.rdI REF_LO_CAL_LO_CAL = c.rdI REF_LO_CAL_LO_CAL :=
    Chip.rdI_of_rd (h.rd c k (f := REF_LO_CAL_LO_CAL) (by simp [REF_LO_CAL_LO_CAL, Reg.fld, REF_LO_CAL]))
  rw [Chip.corrected, Chip.loWhole, hpresent, hcal, h.loAt, h.now, Chip.corrected, Chip.loWhole]

/-- A signed value as a field holds it, saturated to the field's range. -/
def storedI (f : Fld) (i : Int) : Int := clampI (-(2 ^ (f.w - 1) : Nat)) ((2 ^ (f.w - 1) : Nat) - 1) i

/-- What the end of a candidate's window shows, from the chip before it (R450). -/
structure Chip.WindowShown (k : Nat) (m : RefMeas) (c d : Chip) : Prop where
  offset : d.rdI (REF_CAND_OFFSET_OFFSET k) = storedI (REF_CAND_OFFSET_OFFSET k) (c.corrected m.offset)
  found : c.caState k = caInactive → d.caState k = if c.candActive k m then caMeasuring else caInactive
  judged : c.caState k = caQualified → d.caState k
    = if 10 * c.rd (REF_CAND_RANK_REJECT k) < (c.corrected m.offset).natAbs then caDisqualified else caQualified
  qualifies : c.caState k = caMeasuring ∨ c.caState k = caDisqualified → c.candActive k m = true → c.candAccepted k (c.corrected m.offset) = true →
    c.rd (REF_CAND_STAT_GOOD_WINDOWS k) = 7 → d.caState k = caQualified
  counts : c.caState k = caMeasuring ∨ c.caState k = caDisqualified → c.candActive k m = true → c.candAccepted k (c.corrected m.offset) = true →
    c.rd (REF_CAND_STAT_GOOD_WINDOWS k) < 7 → d.rd (REF_CAND_STAT_GOOD_WINDOWS k) = c.rd (REF_CAND_STAT_GOOD_WINDOWS k) + 1

theorem Chip.candWindow_shows (hk : k < 5) (m : RefMeas) (hst : c.caState k ≠ caOff) : Chip.WindowShown k m c (c.candWindow k m) := by
  have hstat : (REF_CAND_STAT_STATE k).off = 0x30140 + 4 * k := rfl
  have hoff : (REF_CAND_OFFSET_OFFSET k).off = 0x30160 + 4 * k := rfl
  have hrank : (REF_CAND_RANK_REJECT k).off = 0x30120 + 4 * k := rfl
  have hgood : (REF_CAND_STAT_GOOD_WINDOWS k).off = 0x30140 + 4 * k := rfl
  have hacc : (REF_CAND_STAT_IN_ACCEPT k).off = 0x30140 + 4 * k := rfl
  have hstate (off : Int) (a b : Bool) : (c.candMeasured k off a b).caState k = c.caState k :=
    c.rd_candMeasured k off a b (Fld.apart_of_off (by omega)) (Fld.apart_of_clear rfl rfl)
  have hreject (off : Int) (a b : Bool) : (c.candMeasured k off a b).rd (REF_CAND_RANK_REJECT k) = c.rd (REF_CAND_RANK_REJECT k) :=
    c.rd_candMeasured k off a b (Fld.apart_of_off (by omega)) (Fld.apart_of_off (by omega))
  have hwindows (off : Int) (a b : Bool) : (c.candMeasured k off a b).rd (REF_CAND_STAT_GOOD_WINDOWS k) = c.rd (REF_CAND_STAT_GOOD_WINDOWS k) :=
    c.rd_candMeasured k off a b (Fld.apart_of_off (by omega)) (Fld.apart_of_clear rfl rfl)
  have heq := c.candWindow_eq k hk m hst
  have hmeasures (h : c.caState k = caMeasuring ∨ c.caState k = caDisqualified) (ha : c.candActive k m = true)
      (hb : c.candAccepted k (c.corrected m.offset) = true) :
      c.candWindow k m = (c.candMeasured k (c.corrected m.offset) true true).candGood k (c.corrected m.offset) := by
    rw [heq]
    dsimp only
    rw [if_neg (by rcases h with h | h <;> rw [h] <;> decide), if_neg (by rcases h with h | h <;> rw [h] <;> decide), ha, hb,
      if_neg (by decide)]
  refine ⟨(c.candWindow_offset k hk m hst).trans (Chip.rdI_wrI_same _ _ _ rfl (by decide : 0 < 32)), fun h => ?_, fun h => ?_,
    fun h ha hb hn => ?_, fun h ha hb hn => ?_⟩
  · rw [heq]
    dsimp only
    rw [if_pos h, Chip.caState_candFound _ _ _ ((hstate ..).trans h)]
  · rw [heq]
    dsimp only
    rw [if_neg (by rw [h]; decide), if_pos h, Chip.caState_candRejected _ _ _ ((hstate ..).trans h), hreject]
  · rw [hmeasures h ha hb]
    exact (Chip.candGood_shows _ k _).1 ((hwindows ..).trans hn)
  · rw [hmeasures h ha hb]
    exact ((Chip.candGood_shows _ k _).2 ((hwindows ..).trans_lt hn)).trans (congrArg (· + 1) (hwindows ..))

theorem Chip.WindowShown.of_cells {m : RefMeas} {d e : Chip} (h : Chip.WindowShown k m c d) (hstat : e.cell (0x30140 + 4 * k) = d.cell (0x30140 + 4 * k))
    (hoff : e.cell (0x30160 + 4 * k) = d.cell (0x30160 + 4 * k)) : Chip.WindowShown k m c e := by
  have hstate : e.caState k = d.caState k := Chip.rd_of_cell hstat
  have hwindows : e.rd (REF_CAND_STAT_GOOD_WINDOWS k) = d.rd (REF_CAND_STAT_GOOD_WINDOWS k) := Chip.rd_of_cell hstat
  have hoffset : e.rdI (REF_CAND_OFFSET_OFFSET k) = d.rdI (REF_CAND_OFFSET_OFFSET k) := Chip.rdI_of_rd (Chip.rd_of_cell hoff)
  obtain ⟨h1, h2, h3, h4, h5⟩ := h
  rw [← hstate] at h2 h3 h4
  rw [← hwindows] at h5
  rw [← hoffset] at h1
  exact ⟨h1, h2, h3, h4, h5⟩

theorem Chip.WindowShown.of_alike {m : RefMeas} {d e : Chip} (halike : Chip.WindowAlike k c d) (h : Chip.WindowShown k m d e) :
    Chip.WindowShown k m c e := by
  have hstate : d.caState k = c.caState k := halike.rd c k (.inr (.inr (.inl rfl)))
  have hreject : d.rd (REF_CAND_RANK_REJECT k) = c.rd (REF_CAND_RANK_REJECT k) := halike.rd c k (.inr (.inl rfl))
  have hwindows : d.rd (REF_CAND_STAT_GOOD_WINDOWS k) = c.rd (REF_CAND_STAT_GOOD_WINDOWS k) := halike.rd c k (.inr (.inr (.inl rfl)))
  have hactive : d.candActive k m = c.candActive k m := by
    have hservo : d.servo = c.servo := halike.rd c k (f := PTP_SERVO_STATE) (by simp [PTP_SERVO_STATE, Reg.fld, PTP_SERVO])
    rw [Chip.candActive, hservo, Chip.candActive]
  have haccepted (off : Int) : d.candAccepted k off = c.candAccepted k off := by
    have haccept : d.rd (REF_CAND_CFG_ACCEPT k) = c.rd (REF_CAND_CFG_ACCEPT k) := halike.rd c k (.inl rfl)
    rw [Chip.candAccepted, haccept, Chip.candAccepted]
  have hcorrected := halike.corrected c k m.offset
  obtain ⟨h1, h2, h3, h4, h5⟩ := h
  rw [hcorrected] at h1 h3 h4 h5
  rw [hstate] at h2 h3 h4 h5
  rw [hreject] at h3
  rw [hactive] at h2 h4 h5
  rw [haccepted] at h4 h5
  rw [hwindows] at h4 h5
  exact ⟨h1, h2, h3, h4, h5⟩

/-- The windows of the candidates end. -/
def Chip.candWindows (c : Chip) (ms : List RefMeas) : Chip :=
  c.each (List.range 5) fun c k => match ms[k]? with | some m => c.candWindow k m | none => c

/-- The windows of the planes end. -/
def Chip.planeWindows (c : Chip) (ms : List RefMeas) : Chip :=
  c.each [0, 1] fun c q =>
    if c.planeState q = 0 then c
    else
      let c := c.planeWindow q ms
      let c := if c.planeState q = 1 then c.startSelect q (measPhase ms) else c.reselect q (measPhase ms)
      c.judgePairs q

theorem Chip.windowEnd_stages (ms : List RefMeas) (lo : Int) : c.windowEnd ms lo = ((c.candWindows ms).planeWindows ms).loTrack lo := rfl

theorem Chip.cell_planeWindows {o : Nat} (h : OnCands o) (ms : List RefMeas) : (c.planeWindows ms).cell o = c.cell o := by
  refine Chip.each_keeps (·.cell o) _ _ (fun c q _ => ?_) c
  dsimp only
  split
  · rfl
  · rw [Chip.cell_judgePairs _ h]
    split
    · rw [Chip.cell_startSelect _ h, Chip.cell_planeWindow _ h]
    · rw [Chip.cell_reselect _ h, Chip.cell_planeWindow _ h]

theorem Chip.candWindows_shows (hk : k < 5) {ms : List RefMeas} {m : RefMeas} (hm : ms[k]? = some m) (hst : c.caState k ≠ caOff) :
    Chip.WindowShown k m c (c.candWindows ms) := by
  have hsum : REF_STATUS.off = 0x30000 := rfl
  refine Chip.each_once (Chip.WindowAlike k c) (Chip.WindowShown k m c) List.nodup_range (List.mem_range.2 hk) (fun d j hj hne h => ?_) (fun d h => ?_)
    (fun d j hj hne h => ?_) c ⟨fun _ _ => rfl, rfl, rfl⟩
  · split
    · exact Chip.windowAlike_candWindow c k hk (List.mem_range.1 hj) hne _ h
    · exact h
  · rw [hm]
    refine Chip.WindowShown.of_alike c k h (d.candWindow_shows k hk m ?_)
    rw [show d.caState k = c.caState k from h.rd c k (.inr (.inr (.inl rfl)))]
    exact hst
  · have hj5 := List.mem_range.1 hj
    split
    · exact h.of_cells c k (d.cell_candWindow j ⟨by omega, by omega, by omega⟩ hj5 (by omega) _)
        (d.cell_candWindow j ⟨by omega, by omega, by omega⟩ hj5 (by omega) _)
    · exact h

theorem Chip.windowEnd_shows (hk : k < 5) {ms : List RefMeas} {m : RefMeas} (hm : ms[k]? = some m) (hst : c.caState k ≠ caOff) (lo : Int) :
    Chip.WindowShown k m c (c.windowEnd ms lo) := by
  rw [Chip.windowEnd_stages]
  refine (c.candWindows_shows k hk hm hst).of_cells c k ?_ ?_
  · rw [Chip.cell_loTrack _ ⟨by omega, by omega⟩, Chip.cell_planeWindows _ ⟨by omega, by omega⟩]
  · rw [Chip.cell_loTrack _ ⟨by omega, by omega⟩, Chip.cell_planeWindows _ ⟨by omega, by omega⟩]

end

end Sys2Proof.Machine
end

section
/-! SUPPORT. References: candidates that become inactive, edges, and the selection of a plane. -/

namespace Sys2Proof.Machine

section
variable (c : Chip) (k : Nat)

/-! ### A candidate becomes inactive -/

/-- The registers of a candidate that becomes INACTIVE. -/
def Chip.candStopped (c : Chip) (k cause : Nat) : Chip := ((c.caTo k caInactive).wr (REF_CAND_STAT_CAUSE k) cause).wr (REF_CAND_STAT_GOOD_WINDOWS k) 0

/-- The edges of a candidate that becomes INACTIVE are forgotten. -/
def Chip.edgesForgotten (c : Chip) (k : Nat) : Chip := c.setCand k { c.cand k with activeAt := none, held := [], absent := 0 }

theorem Chip.goInactive_stages (cause : Nat) : c.goInactive k cause
    = if c.caState k = caOff ∨ c.caState k = caInactive then c
      else (((c.candStopped k cause).edgesForgotten k).when (cause == 2) (·.set (REF_CAND_STAT_NOISY_SEEN k))).when (c.caState k == caQualified)
        (·.leftQual k cause) := rfl

theorem Chip.edgesForgotten_rd (f : Fld) : (c.edgesForgotten k).rd f = c.rd f := Chip.setCand_rd ..

theorem Chip.rd_leftQual (cause : Nat) {f : Fld} (hk : k < 5) (h : f.off = 0x30140 + 4 * k) (ha : (REF_CAND_STAT_DISQ_SEEN k).apart f = true) :
    (c.leftQual k cause).rd f = c.rd f := by
  have hsum : REF_STATUS_DISQUALIFIED.off = 0x30000 := rfl
  rw [Chip.leftQual_stages, Chip.rd_post _ _ _ _ _ _ (by omega), Chip.set_def, Chip.rd_wr_keeps _ _ ha, Chip.set_def,
    Chip.rd_wr_keeps _ _ (Fld.apart_of_off (by omega)), Chip.candDated_rd]

theorem Chip.goInactive_shows (hk : k < 5) (cause : Nat) (hc : cause < 4) (hst : caInactive < c.caState k) :
    (c.goInactive k cause).caState k = caInactive ∧ (c.goInactive k cause).rd (REF_CAND_STAT_CAUSE k) = cause
      ∧ (c.caState k = caQualified → (c.goInactive k cause).on (REF_CAND_STAT_DISQ_SEEN k) = true) := by
  have hone : caInactive = 1 := rfl
  have hzero : caOff = 0 := rfl
  rw [Chip.goInactive_stages, if_neg (by omega)]
  refine ⟨?_, ?_, fun hq => ?_⟩
  · unfold Chip.caState Chip.candStopped Chip.caTo
    simp (disch := grind [Fld.apart, Fld.fits_iff, Reg.fld, REF_CAND_STAT_STATE, REF_CAND_STAT, REF_CAND_STAT_GOOD_WINDOWS, REF_CAND_STAT_CAUSE,
      REF_CAND_STAT_DISQ_SEEN, REF_CAND_STAT_NOISY_SEEN]) only
      [Chip.rd_when, Chip.rd_leftQual, Chip.set_def, Chip.rd_wr_keeps, Chip.edgesForgotten_rd, Chip.rd_wr_lt, ite_self]
  · unfold Chip.candStopped
    simp (disch := grind [Fld.apart, Fld.fits_iff, Reg.fld, REF_CAND_STAT_STATE, REF_CAND_STAT, REF_CAND_STAT_GOOD_WINDOWS, REF_CAND_STAT_CAUSE,
      REF_CAND_STAT_DISQ_SEEN, REF_CAND_STAT_NOISY_SEEN]) only
      [Chip.rd_when, Chip.rd_leftQual, Chip.set_def, Chip.rd_wr_keeps, Chip.edgesForgotten_rd, Chip.rd_wr_lt, ite_self]
  · have hoff : (REF_CAND_STAT_DISQ_SEEN k).off = 0x30140 + 4 * k := rfl
    rw [hq, Chip.when_pos _ _ (beq_self_eq_true _), Chip.leftQual_stages, Chip.on_post _ _ _ _ _ _ (by omega)]
    exact Chip.on_set_same _ rfl (by decide : 1 ≠ 0)

theorem Chip.candInactive_shows (hk : k < 5) (noisy : Bool) (ms : List RefMeas) (hst : caInactive < c.caState k) :
    (c.candInactive k noisy ms).caState k = caInactive ∧ (c.candInactive k noisy ms).rd (REF_CAND_STAT_CAUSE k) = (if noisy then 2 else 1)
      ∧ (c.caState k = caQualified → (c.candInactive k noisy ms).on (REF_CAND_STAT_DISQ_SEEN k) = true) := by
  have hcell : (c.candInactive k noisy ms).cell (0x30140 + 4 * k) = (c.goInactive k (if noisy then 2 else 1)).cell (0x30140 + 4 * k) :=
    Chip.cell_reselectAll _ ⟨by omega, by omega⟩ _
  have hrd (f : Fld) (hf : f.off = 0x30140 + 4 * k) : (c.candInactive k noisy ms).rd f = (c.goInactive k (if noisy then 2 else 1)).rd f :=
    Chip.rd_of_cell (hf ▸ hcell)
  obtain ⟨hstate, hcause, hseen⟩ := c.goInactive_shows k hk (if noisy then 2 else 1) (by cases noisy <;> decide) hst
  exact ⟨(hrd _ rfl).trans hstate, (hrd _ rfl).trans hcause, fun h => (congrArg (· != 0) (hrd _ rfl)).trans (hseen h)⟩

/-! ### Edges and phase hits -/

theorem Chip.cand_of_ref {d : Chip} (h : d.ref = c.ref) : d.cand k = c.cand k := by rw [Chip.cand, h, Chip.cand]

theorem Chip.refEdge_inPlace (hk : k < 5) (d : Int) (ms : List RefMeas) (hst : c.caState k ≠ caOff) (hd : d.natAbs ≤ 1000) (hheld : (c.cand k).held = []) :
    ((c.refEdge k d ms).cand k).absent = 0 ∧ (c.refEdge k d ms).regs = c.regs := by
  have heq : c.refEdge k d ms = c.setCand k { c.cand k with absent := 0 } := by
    unfold Chip.refEdge
    dsimp only
    have hin : ((c.cand k).held.isEmpty || decide (1000 < d.natAbs) && (c.cand k).held.all (near100 d)) = true := by
      rw [hheld]
      rfl
    rw [if_neg hst, if_pos hin, if_pos (by simpa using hd)]
  rw [heq]
  exact ⟨by rw [Chip.cand_setCand _ _ _ _ hk, if_pos rfl], rfl⟩

theorem Chip.refEdge_held (hk : k < 5) (d : Int) (ms : List RefMeas) (hst : c.caState k ≠ caOff) (hd : 1000 < d.natAbs)
    (hroom : (c.cand k).held.length < 3) (hagrees : (c.cand k).held.all (near100 d) = true) (hplanes : (c.planesOf k).isEmpty = false) :
    ((c.refEdge k d ms).cand k).held = d :: (c.cand k).held ∧ (c.refEdge k d ms).regs = c.regs := by
  have heq : c.refEdge k d ms = c.setCand k { c.cand k with held := d :: (c.cand k).held } := by
    unfold Chip.refEdge
    dsimp only
    have hin : ((c.cand k).held.isEmpty || decide (1000 < d.natAbs) && (c.cand k).held.all (near100 d)) = true := by
      rw [hagrees, decide_eq_true hd, Bool.and_true, Bool.or_true]
    rw [if_neg hst, if_pos hin, if_neg (by simpa using hd), if_neg (by rw [hplanes]; decide), if_pos hroom]
  rw [heq]
  exact ⟨by rw [Chip.cand_setCand _ _ _ _ hk, if_pos rfl], rfl⟩

/-- The flags of a phase step absorbed by a plane. -/
def Chip.hitFlagged (c : Chip) (q : Nat) (d : Int) : Chip :=
  ((c.set REF_STATUS_PHASE_HIT).set (REF_PLANE_STAT_PHASE_HIT q)).post 0x02 0x0005 q (argI d)

/-- A phase step is absorbed into the build-out of a plane. -/
def Chip.phaseAbsorbed (c : Chip) (q : Nat) (d : Int) : Chip :=
  ((c.setPlane q { c.plane q with buildout := (c.plane q).buildout + d * phaseUnit }).planeShow q).hitFlagged q d

theorem Chip.planes_planeShow (q : Nat) : (c.planeShow q).planes = c.planes := by
  unfold Chip.planeShow
  rw [Chip.wrI_def, Chip.wr_planes, Chip.wrI_def, Chip.wr_planes]

theorem Chip.plane_of_planes {d : Chip} (h : d.planes = c.planes) (q : Nat) : d.plane q = c.plane q := by rw [Chip.plane, h, Chip.plane]

theorem Chip.planes_hitFlagged (q : Nat) (d : Int) : (c.hitFlagged q d).planes = c.planes := by
  rw [Chip.hitFlagged, Chip.post_planes, Chip.set_def, Chip.wr_planes, Chip.set_def, Chip.wr_planes]

theorem Chip.plane_phaseAbsorbed {p : Nat} (hp : p < 2) (q : Nat) (d : Int) : (c.phaseAbsorbed q d).plane p
    = if p = q then { c.plane q with buildout := (c.plane q).buildout + d * phaseUnit } else c.plane p := by
  unfold Chip.phaseAbsorbed
  generalize d * phaseUnit = z
  rw [Chip.plane_of_planes _ (Chip.planes_hitFlagged ..) p, Chip.plane_of_planes _ (Chip.planes_planeShow ..) p, Chip.plane_setPlane _ _ _ _ hp]

theorem Chip.ref_phaseAbsorbed (q : Nat) (d : Int) : (c.phaseAbsorbed q d).ref = c.ref := by
  unfold Chip.phaseAbsorbed Chip.planeShow Chip.hitFlagged
  rw [Chip.post_ref, Chip.set_def, Chip.wr_ref, Chip.set_def, Chip.wr_ref, Chip.wrI_def, Chip.wr_ref, Chip.wrI_def, Chip.wr_ref, Chip.setPlane_ref]

theorem Chip.ref_each_phaseAbsorbed (l : List Nat) (d : Int) : (c.each l fun c q => c.phaseAbsorbed q d).ref = c.ref := by
  induction l generalizing c with
  | nil => rfl
  | cons q l ih => rw [Chip.each_cons, ih, Chip.ref_phaseAbsorbed]

theorem Chip.hitFlagged_shows {q : Nat} (hq : q < 2) (d : Int) :
    (c.hitFlagged q d).on (REF_PLANE_STAT_PHASE_HIT q) = true ∧ (c.hitFlagged q d).on REF_STATUS_PHASE_HIT = true := by
  have hplane : (REF_PLANE_STAT_PHASE_HIT q).off = 0x30204 + 32 * q := rfl
  have hsum : REF_STATUS_PHASE_HIT.off = 0x30000 := rfl
  unfold Chip.hitFlagged
  constructor
  · rw [Chip.on_post _ _ _ _ _ _ (by omega)]
    exact Chip.on_set_same _ rfl (by decide : 1 ≠ 0)
  · rw [Chip.on_post _ _ _ _ _ _ (by decide), Chip.on_set_keeps _ (Fld.apart_of_off (by omega))]
    exact Chip.on_set_same _ rfl (by decide)

theorem Chip.on_hitFlagged {p q : Nat} (d : Int) (h : p = q ∨ c.on (REF_PLANE_STAT_PHASE_HIT p) = true) (hp : p < 2) (hq : q < 2) :
    (c.hitFlagged q d).on (REF_PLANE_STAT_PHASE_HIT p) = true := by
  rcases h with rfl | h
  · exact (c.hitFlagged_shows hp d).1
  · by_cases hpq : p = q
    · rw [hpq]
      exact (c.hitFlagged_shows hq d).1
    have hplane : (REF_PLANE_STAT_PHASE_HIT q).off = 0x30204 + 32 * q := rfl
    have hother : (REF_PLANE_STAT_PHASE_HIT p).off = 0x30204 + 32 * p := rfl
    have hsum : REF_STATUS_PHASE_HIT.off = 0x30000 := rfl
    unfold Chip.hitFlagged
    rw [Chip.on_post _ _ _ _ _ _ (by omega), Chip.on_set_keeps _ (Fld.apart_of_off (by omega)), Chip.on_set_keeps _ (Fld.apart_of_off (by omega))]
    exact h

theorem Chip.on_planeShow (q : Nat) {f : Fld} (h : f.off ≠ 0x30208 + 32 * q ∧ f.off ≠ 0x30210 + 32 * q) : (c.planeShow q).on f = c.on f := by
  have hfreq : (REF_PLANE_FREQ_FREQ q).off = 0x30208 + 32 * q := rfl
  have hbuild : (REF_PLANE_BUILDOUT_BUILDOUT q).off = 0x30210 + 32 * q := rfl
  unfold Chip.planeShow
  rw [Chip.on_wrI_keeps _ _ (Fld.apart_of_off (by omega)), Chip.on_wrI_keeps _ _ (Fld.apart_of_off (by omega))]

/-- What a phase step leaves of a plane that follows the candidate. -/
def Chip.HitShown (q : Nat) (d : Int) (x : Plane) (e : Chip) : Prop :=
  (e.plane q).buildout = x.buildout + d * phaseUnit ∧ e.on (REF_PLANE_STAT_PHASE_HIT q) = true ∧ e.on REF_STATUS_PHASE_HIT = true

theorem Chip.phaseHit_each {p : Nat} (hp : p < 2) (d : Int) {l : List Nat} (hl : l.Nodup) (hmem : p ∈ l) (hlt : ∀ q ∈ l, q < 2) :
    Chip.HitShown p d (c.plane p) (c.each l fun c q => c.phaseAbsorbed q d) := by
  refine Chip.each_once (fun e => e.plane p = c.plane p) (Chip.HitShown p d (c.plane p)) hl hmem (fun e q _ hne he => ?_) (fun e he => ?_)
    (fun e q hq hne he => ?_) c rfl
  · rw [Chip.plane_phaseAbsorbed _ hp, if_neg (Ne.symm hne)]
    exact he
  · refine ⟨?_, Chip.hitFlagged_shows _ hp d⟩
    rw [Chip.plane_phaseAbsorbed _ hp, if_pos rfl, he]
  · obtain ⟨hbuild, hflag, -⟩ := he
    refine ⟨?_, Chip.on_hitFlagged _ d (.inr ?_) hp (hlt q hq), (Chip.hitFlagged_shows _ (hlt q hq) d).2⟩
    · rw [Chip.plane_phaseAbsorbed _ hp, if_neg (Ne.symm hne), hbuild]
    · rw [Chip.on_planeShow _ _ (by rw [show (REF_PLANE_STAT_PHASE_HIT p).off = 0x30204 + 32 * p from rfl]; omega), Chip.setPlane_on]
      exact hflag

/-- The edges held of a candidate are used up. -/
def Chip.edgesUsed (c : Chip) (k : Nat) : Chip := c.setCand k { c.cand k with held := [], absent := 0 }

theorem Chip.edgesUsed_plane (q : Nat) : (c.edgesUsed k).plane q = c.plane q := Chip.plane_of_planes _ (Chip.setCand_planes ..) q

theorem Chip.phaseHit_three {d1 d2 d3 : Int} (hheld : (c.cand k).held = [d3, d2, d1]) :
    c.phaseHit k = (c.edgesUsed k).each (c.planesOf k) fun c q => c.phaseAbsorbed q d3 := by
  unfold Chip.phaseHit
  dsimp only
  rw [hheld]
  rfl

theorem Chip.mem_planesOf {p : Nat} (hp : p < 2) (hsel : c.selected p = k) (hst : c.planeState p = 2 ∨ c.planeState p = 3) : p ∈ c.planesOf k := by
  refine List.mem_filter.2 ⟨by rcases (by omega : p = 0 ∨ p = 1) with rfl | rfl <;> decide, ?_⟩
  rw [hsel, beq_self_eq_true, Bool.true_and, Bool.or_eq_true, beq_iff_eq, beq_iff_eq]
  exact hst

theorem Chip.lt_of_mem_planesOf {q : Nat} (hq : q ∈ c.planesOf k) : q < 2 := by
  have hin := (List.mem_filter.1 hq).1
  rcases (by simpa using hin : q = 0 ∨ q = 1) with rfl | rfl <;> decide

theorem Chip.phaseHit_shows (hk : k < 5) {d1 d2 d3 : Int} (hheld : (c.cand k).held = [d3, d2, d1]) {p : Nat} (hp : p < 2) (hsel : c.selected p = k)
    (hst : c.planeState p = 2 ∨ c.planeState p = 3) :
    Chip.HitShown p d3 (c.plane p) (c.phaseHit k) ∧ ((c.phaseHit k).cand k).held = [] := by
  have hshow := Chip.phaseHit_each (c.edgesUsed k) hp d3 (l := c.planesOf k) (List.Nodup.filter _ (by decide)) (c.mem_planesOf k hp hsel hst)
    fun q hq => c.lt_of_mem_planesOf k hq
  have href : (c.phaseHit k).ref = (c.edgesUsed k).ref := by
    rw [c.phaseHit_three k hheld, Chip.ref_each_phaseAbsorbed]
  rw [← c.phaseHit_three k hheld, Chip.edgesUsed_plane] at hshow
  refine ⟨hshow, ?_⟩
  rw [Chip.cand_of_ref _ _ href, Chip.edgesUsed, Chip.cand_setCand _ _ _ _ hk, if_pos rfl]

end

/-! ### The selection of a plane -/

theorem mem_of_foldl_choice {α : Type} {step : Option α → α → Option α} (hstep : ∀ b x y, step b x = some y → y = x ∨ b = some y) {l : List α} {b : Option α}
    {y : α} (h : l.foldl step b = some y) : y ∈ l ∨ b = some y := by
  induction l generalizing b with
  | nil => exact .inr h
  | cons x l ih =>
    rcases ih h with hmem | hx
    · exact .inl (List.mem_cons_of_mem _ hmem)
    · rcases hstep b x y hx with rfl | hb
      · exact .inl List.mem_cons_self
      · exact .inr hb

section
variable (c : Chip) {q : Nat}

theorem Chip.mem_of_bestCand {l : List Nat} {k : Nat} (h : c.bestCand q l = some k) : k ∈ l := by
  unfold Chip.bestCand at h
  dsimp only at h
  split at h
  · next hsel =>
    cases h
    exact (List.mem_filter.1 (List.contains_iff_mem.1 hsel)).1
  · refine (List.mem_filter.1 ((mem_of_foldl_choice ?_ h).resolve_right (by simp))).1
    intro b x y hy
    cases b with
    | none => exact .inl (Option.some.inj hy).symm
    | some b =>
      rcases ite_eq_iff.1 hy with ⟨-, hx⟩ | ⟨-, hb⟩
      · exact .inl (Option.some.inj hx).symm
      · exact .inr hb

theorem Chip.wantsRef_lt {k : Nat} (h : c.wantsRef q = some k) : k < 5 := by
  have hlt (l : List Nat) (hl : ∀ j ∈ l, j ∈ c.qualified q) (hk : c.bestCand q l = some k) : k < 5 :=
    List.mem_range.1 (List.mem_filter.1 (hl k (c.mem_of_bestCand hk))).1
  unfold Chip.wantsRef at h
  dsimp only at h
  split at h
  · exact absurd h (by simp)
  · split at h
    · exact hlt _ (fun _ hj => hj) h
    · split at h
      · exact hlt _ (fun _ hj => (List.mem_filter.1 hj).1) h
      · exact absurd h (by simp)

theorem Chip.rd_judgePairs {f : Fld} (h : REF_STATUS_DISAGREE.apart f = true) (hpage : f.off / 65536 ≠ 1) : (c.judgePairs q).rd f = c.rd f := by
  unfold Chip.judgePairs
  dsimp only
  rw [Chip.setPlane_rd]
  refine Chip.each_keeps (·.rd f) _ _ (fun c p _ => ?_) c
  rw [Chip.rd_post _ _ _ _ _ _ hpage, Chip.set_def, Chip.rd_wr_keeps _ _ h]

/-- A plane that heads for another candidate. -/
def Chip.retargeted (c : Chip) (q k : Nat) (phase : Int) : Chip :=
  (c.slew q).setPlane q { (c.slew q).plane q with target := (c.slew q).caOffset k * freqUnit, buildout := ((c.slew q).plane q).buildout + phase * phaseUnit }

/-- The registers of a plane's switch. -/
def Chip.switchShown (c : Chip) (q k : Nat) : Chip :=
  ((((((c.wr (REF_PLANE_STAT_SELECTED q) k).planeTo q 3).planeShow q).set REF_STATUS_SWITCH).set (REF_PLANE_STAT_SWITCH_SEEN q)).inc
    (REF_PLANE_SWITCHES_COUNT q)).post 0x02 0x0001 q k

theorem Chip.switchTo_stages (k : Nat) (phase : Int) : c.switchTo q k phase = (c.retargeted q k phase).switchShown q k := rfl

theorem Chip.retargeted_rd (k : Nat) (phase : Int) (f : Fld) : (c.retargeted q k phase).rd f = c.rd f := by
  rw [Chip.retargeted, Chip.setPlane_rd, Chip.rd_slew]

theorem Chip.rd_planeShow {f : Fld} (h : f.off ≠ 0x30208 + 32 * q ∧ f.off ≠ 0x30210 + 32 * q) : (c.planeShow q).rd f = c.rd f := by
  have hfreq : (REF_PLANE_FREQ_FREQ q).off = 0x30208 + 32 * q := rfl
  have hbuild : (REF_PLANE_BUILDOUT_BUILDOUT q).off = 0x30210 + 32 * q := rfl
  unfold Chip.planeShow
  rw [Chip.rd_wrI_keeps _ _ (Fld.apart_of_off (by omega)), Chip.rd_wrI_keeps _ _ (Fld.apart_of_off (by omega))]

theorem Chip.switchShown_shows (hq : q < 2) {k : Nat} (hk : k < 8) :
    (c.switchShown q k).rd (REF_PLANE_STAT_SELECTED q) = k ∧ (c.switchShown q k).planeState q = 3
      ∧ (c.switchShown q k).on (REF_PLANE_STAT_SWITCH_SEEN q) = true ∧ (c.switchShown q k).on REF_STATUS_SWITCH = true
      ∧ (c.switchShown q k).rd (REF_PLANE_SWITCHES_COUNT q) = min (2 ^ (REF_PLANE_SWITCHES_COUNT q).w - 1) (c.rd (REF_PLANE_SWITCHES_COUNT q) + 1) := by
  unfold Chip.switchShown Chip.planeTo Chip.planeState
  refine ⟨?_, ?_, ?_, ?_, ?_⟩
  · simp (disch := grind [Fld.apart, Fld.fits_iff, Reg.fld, REF_PLANE_STAT_SELECTED, REF_PLANE_STAT_STATE, REF_PLANE_STAT, REF_STATUS_SWITCH, REF_STATUS,
      REF_PLANE_STAT_SWITCH_SEEN, REF_PLANE_SWITCHES_COUNT, REF_PLANE_SWITCHES]) only
      [Chip.rd_post, Chip.set_def, Chip.rd_inc_keeps, Chip.rd_wr_keeps, Chip.rd_planeShow, Chip.rd_wr_lt]
  · simp (disch := grind [Fld.apart, Fld.fits_iff, Reg.fld, REF_PLANE_STAT_SELECTED, REF_PLANE_STAT_STATE, REF_PLANE_STAT, REF_STATUS_SWITCH, REF_STATUS,
      REF_PLANE_STAT_SWITCH_SEEN, REF_PLANE_SWITCHES_COUNT, REF_PLANE_SWITCHES]) only
      [Chip.rd_post, Chip.set_def, Chip.rd_inc_keeps, Chip.rd_wr_keeps, Chip.rd_planeShow, Chip.rd_wr_lt]
  · simp (disch := grind [Fld.apart, Fld.fits_iff, Reg.fld, REF_PLANE_STAT, REF_PLANE_STAT_SWITCH_SEEN, REF_PLANE_SWITCHES_COUNT, REF_PLANE_SWITCHES]) only
      [Chip.on_post, Chip.on_inc_keeps, Chip.on_set_same]
  · simp (disch := grind [Fld.apart, Fld.fits_iff, Reg.fld, REF_PLANE_STAT, REF_STATUS_SWITCH, REF_STATUS, REF_PLANE_STAT_SWITCH_SEEN,
      REF_PLANE_SWITCHES_COUNT, REF_PLANE_SWITCHES]) only [Chip.on_post, Chip.on_inc_keeps, Chip.on_set_keeps, Chip.on_set_same]
  · simp (disch := grind [Fld.apart, Fld.fits_iff, Reg.fld, REF_PLANE_STAT_SELECTED, REF_PLANE_STAT_STATE, REF_PLANE_STAT, REF_STATUS_SWITCH, REF_STATUS,
      REF_PLANE_STAT_SWITCH_SEEN, REF_PLANE_SWITCHES_COUNT, REF_PLANE_SWITCHES]) only
      [Chip.rd_post, Chip.rd_inc_same, Chip.set_def, Chip.rd_wr_keeps, Chip.rd_planeShow]

theorem Chip.wtrExpiry_shows (hq : q < 2) {k : Nat} (hwants : c.wantsRef q = some k) (hfollows : c.followsRef = false) (ms : List RefMeas) :
    (c.wtrExpiry q ms).rd (REF_PLANE_STAT_SELECTED q) = k ∧ (c.wtrExpiry q ms).planeState q = 3
      ∧ (c.wtrExpiry q ms).on (REF_PLANE_STAT_SWITCH_SEEN q) = true ∧ (c.wtrExpiry q ms).on REF_STATUS_SWITCH = true
      ∧ (c.wtrExpiry q ms).rd (REF_PLANE_SWITCHES_COUNT q) = min (2 ^ (REF_PLANE_SWITCHES_COUNT q).w - 1) (c.rd (REF_PLANE_SWITCHES_COUNT q) + 1) := by
  have hk := c.wantsRef_lt hwants
  have heq : c.reselect q (measPhase ms) = ((c.setPlane q { c.plane q with awaits := none }).retargeted q k (measPhase ms k q)).switchShown q k := by
    unfold Chip.reselect
    rw [hwants, ← Chip.switchTo_stages]
    exact if_neg (by rw [hfollows]; simp)
  have hstat (f : Fld) (hf : f.off = 0x30204 + 32 * q ∨ f.off = 0x30214 + 32 * q) : (c.wtrExpiry q ms).rd f = (c.reselect q (measPhase ms)).rd f := by
    have hsum : REF_STATUS_DISAGREE.off = 0x30000 := rfl
    exact Chip.rd_judgePairs _ (Fld.apart_of_off (by omega)) (by omega)
  have hswitch : (c.wtrExpiry q ms).rd REF_STATUS_SWITCH = (c.reselect q (measPhase ms)).rd REF_STATUS_SWITCH :=
    Chip.rd_judgePairs _ (by decide) (by decide)
  obtain ⟨hsel, hstate, hseen, hflag, hcount⟩ := ((c.setPlane q { c.plane q with awaits := none }).retargeted q k (measPhase ms k q)).switchShown_shows hq
    (k := k) (by omega)
  rw [← heq] at hsel hstate hseen hflag hcount
  rw [Chip.retargeted_rd, Chip.setPlane_rd] at hcount
  exact ⟨(hstat _ (.inl rfl)).trans hsel, (hstat _ (.inl rfl)).trans hstate, (congrArg (· != 0) (hstat _ (.inl rfl))).trans hseen,
    (congrArg (· != 0) hswitch).trans hflag, (hstat _ (.inr rfl)).trans hcount⟩

/-! ### A plane locks, or starts without a candidate -/

/-- A frequency that moves towards its target comes no further from it. -/
theorem natAbs_slewed_le (x target m : Int) (hm : 0 ≤ m) :
    ((if (target - x).natAbs ≤ m.natAbs then target else if 0 < target - x then x + m else x - m) - target).natAbs ≤ (x - target).natAbs := by
  split
  · omega
  · split <;> omega

theorem Chip.slew_nearer (hq : q < 2) (hst : c.planeState q = 3) :
    (((c.slew q).plane q).freq - ((c.slew q).plane q).target).natAbs ≤ ((c.plane q).freq - (c.plane q).target).natAbs := by
  unfold Chip.slew
  dsimp only
  rw [if_neg (by rw [hst]; decide), Chip.plane_setPlane _ _ _ _ hq, if_pos rfl]
  refine natAbs_slewed_le _ _ _ (Int.mul_nonneg ?_ ?_)
  · exact Int.natCast_nonneg _
  · exact Int.natCast_nonneg _

theorem Chip.planeLock_stages : c.planeLock q = ((c.setPlane q { c.plane q with lockAt := c.now }).planeTo q 2).post 0x02 0x0009 q
    ((c.setPlane q { c.plane q with lockAt := c.now }).selected q) := rfl

theorem Chip.planeLock_shows (hq : q < 2) : (c.planeLock q).planeState q = 2 ∧ ((c.planeLock q).plane q).lockAt = c.now := by
  have hoff : (REF_PLANE_STAT_STATE q).off = 0x30204 + 32 * q := rfl
  rw [Chip.planeLock_stages, Chip.planeState, Chip.rd_post _ _ _ _ _ _ (by omega), Chip.plane_of_planes _ (Chip.post_planes ..), Chip.planeTo,
    Chip.plane_of_planes _ (Chip.wr_planes ..), Chip.plane_setPlane _ _ _ _ hq, if_pos rfl]
  exact ⟨Chip.rd_wr_lt rfl (by decide : 2 < 2 ^ 3), rfl⟩

theorem Chip.slew_now : (c.slew q).now = c.now := by
  unfold Chip.slew
  dsimp only
  split <;> rfl

theorem Chip.pullinDone_shows (hq : q < 2) (hst : c.planeState q = 3)
    (hnear : ((c.plane q).freq - (c.plane q).target).natAbs ≤ 10 * freqUnit.natAbs) :
    (c.pullinDone q).planeState q = 2 ∧ ((c.pullinDone q).plane q).lockAt = c.now := by
  have hoff : (REF_PLANE_STAT_STATE q).off = 0x30204 + 32 * q := rfl
  have heq : c.pullinDone q = ((c.slew q).planeLock q).planeShow q :=
    if_pos ⟨(Chip.rd_slew ..).trans hst, (c.slew_nearer hq hst).trans hnear⟩
  obtain ⟨hstate, hlock⟩ := (c.slew q).planeLock_shows hq
  rw [heq, Chip.planeState, Chip.rd_planeShow _ (by omega), Chip.plane_of_planes _ (Chip.planes_planeShow ..)]
  exact ⟨hstate, hlock.trans c.slew_now⟩

/-- A plane runs free from nominal frequency. -/
def Chip.nominal (c : Chip) (q : Nat) : Chip := c.setPlane q { c.plane q with freq := 0 }

theorem Chip.startTimeout_due (delay : Nat) (hst : c.planeState q = 1) (hdue : (c.plane q).startAt + sec 12 ≤ c.now) :
    c.startTimeout q delay = ((((c.leaveStart q delay).set (REF_PLANE_STAT_PHASE_FREE q)).nominal q).freerun q).planeShow q := if_pos ⟨hst, hdue⟩

theorem Chip.freerun_stages : c.freerun q = ((((c.wr (REF_PLANE_STAT_SELECTED q) 7).planeTo q 5).set REF_STATUS_FREERUN).set
    (REF_PLANE_STAT_FREERUN_SEEN q)).post 0x02 0x0001 q 0xFE := rfl

theorem Chip.freerun_shows (hq : q < 2) : (c.freerun q).planeState q = 5 ∧ (c.freerun q).rd (REF_PLANE_STAT_SELECTED q) = 7
    ∧ (c.freerun q).on REF_STATUS_FREERUN = true ∧ (c.freerun q).planes = c.planes := by
  rw [Chip.freerun_stages]
  unfold Chip.planeTo Chip.planeState
  refine ⟨?_, ?_, ?_, ?_⟩
  · simp (disch := grind [Fld.apart, Fld.fits_iff, Reg.fld, REF_PLANE_STAT_SELECTED, REF_PLANE_STAT_STATE, REF_PLANE_STAT, REF_STATUS_FREERUN, REF_STATUS,
      REF_PLANE_STAT_FREERUN_SEEN]) only [Chip.rd_post, Chip.set_def, Chip.rd_wr_keeps, Chip.rd_wr_lt]
  · simp (disch := grind [Fld.apart, Fld.fits_iff, Reg.fld, REF_PLANE_STAT_SELECTED, REF_PLANE_STAT_STATE, REF_PLANE_STAT, REF_STATUS_FREERUN, REF_STATUS,
      REF_PLANE_STAT_FREERUN_SEEN]) only [Chip.rd_post, Chip.set_def, Chip.rd_wr_keeps, Chip.rd_wr_lt]
  · simp (disch := grind [Fld.apart, Fld.fits_iff, Reg.fld, REF_PLANE_STAT, REF_STATUS_FREERUN, REF_STATUS, REF_PLANE_STAT_FREERUN_SEEN]) only
      [Chip.on_post, Chip.on_set_keeps, Chip.on_set_same]
  · rw [Chip.post_planes, Chip.set_def, Chip.wr_planes, Chip.set_def, Chip.wr_planes, Chip.wr_planes, Chip.wr_planes]

theorem Chip.rdI_planeShow_freq (hfreq : (c.plane q).freq = 0) : (c.planeShow q).rdI (REF_PLANE_FREQ_FREQ q) = 0 := by
  have hf : (REF_PLANE_FREQ_FREQ q).off = 0x30208 + 32 * q := rfl
  have hbuild : (REF_PLANE_BUILDOUT_BUILDOUT q).off = 0x30210 + 32 * q := rfl
  unfold Chip.planeShow
  rw [Chip.rdI_of_rd (Chip.rd_wrI_keeps _ _ (Fld.apart_of_off (by omega))), Chip.rdI_wrI_same _ _ _ rfl (by decide : 0 < 32), hfreq]
  rfl

theorem Chip.startTimeout_shows (hq : q < 2) (delay : Nat) (hst : c.planeState q = 1) (hdue : (c.plane q).startAt + sec 12 ≤ c.now) :
    (c.startTimeout q delay).planeState q = 5 ∧ (c.startTimeout q delay).rd (REF_PLANE_STAT_SELECTED q) = 7
      ∧ (c.startTimeout q delay).rdI (REF_PLANE_FREQ_FREQ q) = 0 ∧ ((c.startTimeout q delay).plane q).nextB = c.now + ns delay
      ∧ (c.startTimeout q delay).on REF_STATUS_FREERUN = true := by
  have hstat : (REF_PLANE_STAT_STATE q).off = 0x30204 + 32 * q := rfl
  have hsel : (REF_PLANE_STAT_SELECTED q).off = 0x30204 + 32 * q := rfl
  have hsum : REF_STATUS_FREERUN.off = 0x30000 := rfl
  have hplane : ((((c.leaveStart q delay).set (REF_PLANE_STAT_PHASE_FREE q)).nominal q).plane q).freq = 0
      ∧ ((((c.leaveStart q delay).set (REF_PLANE_STAT_PHASE_FREE q)).nominal q).plane q).nextB = c.now + ns delay := by
    rw [Chip.nominal, Chip.plane_setPlane _ _ _ _ hq, if_pos rfl, Chip.set_def, Chip.plane_of_planes _ (Chip.wr_planes ..), Chip.leaveStart,
      Chip.plane_setPlane _ _ _ _ hq, if_pos rfl]
    exact ⟨rfl, rfl⟩
  obtain ⟨h1, h2, h3, h4⟩ := (((c.leaveStart q delay).set (REF_PLANE_STAT_PHASE_FREE q)).nominal q).freerun_shows hq
  rw [Chip.startTimeout_due c delay hst hdue, Chip.planeState, Chip.rd_planeShow _ (by omega), Chip.rd_planeShow _ (by omega),
    Chip.on_planeShow _ _ (by omega), Chip.plane_of_planes _ (Chip.planes_planeShow ..), Chip.plane_of_planes _ h4]
  refine ⟨h1, h2, Chip.rdI_planeShow_freq _ ?_, hplane.2, h3⟩
  rw [Chip.plane_of_planes _ h4, hplane.1]

/-! ### LO_IN is calibrated -/

/-- LO_CAL is learned. -/
def Chip.loLearned (c : Chip) (v : Int) : Chip :=
  { (c.wrI REF_LO_CAL_LO_CAL v).set REF_LO_CAL_VALID with ref := { ((c.wrI REF_LO_CAL_LO_CAL v).set REF_LO_CAL_VALID).ref with
      calAt := ((c.wrI REF_LO_CAL_LO_CAL v).set REF_LO_CAL_VALID).now } }

theorem Chip.loCalibrate_ptp (lo : Int) (hvalid : c.on REF_LO_CAL_VALID = false) (hpresent : c.on REF_LO_PRESENT = true) (hservo : c.servo = svLocked)
    (hdue : c.ptp.lockedAt + sec 60 ≤ c.now) : c.loCalibrate lo = (c.loLearned lo).post 0x02 0x0008 0 (argI lo) := by
  unfold Chip.loCalibrate
  dsimp only
  rw [if_neg (by rw [hvalid, hpresent]; decide), if_pos ⟨hservo, hdue⟩]
  rfl

theorem Chip.loCalibrate_shows (lo : Int) (hvalid : c.on REF_LO_CAL_VALID = false) (hpresent : c.on REF_LO_PRESENT = true) (hservo : c.servo = svLocked)
    (hdue : c.ptp.lockedAt + sec 60 ≤ c.now) :
    (c.loCalibrate lo).on REF_LO_CAL_VALID = true
      ∧ (c.loCalibrate lo).rdI REF_LO_CAL_LO_CAL = storedI REF_LO_CAL_LO_CAL lo := by
  have hregs (f : Fld) : (c.loLearned lo).rd f = ((c.wrI REF_LO_CAL_LO_CAL lo).set REF_LO_CAL_VALID).rd f := Chip.rd_of_cell (Chip.cell_of_regs rfl _)
  rw [Chip.loCalibrate_ptp c lo hvalid hpresent hservo hdue, Chip.on_post _ _ _ _ _ _ (by decide), Chip.rdI_of_rd (Chip.rd_post _ _ _ _ _ _ (by decide)),
    Chip.rdI_of_rd (hregs _), Chip.set_def, Chip.rdI_of_rd (Chip.rd_wr_keeps _ _ (by decide))]
  exact ⟨(congrArg (· != 0) (hregs _)).trans (Chip.on_set_same _ rfl (by decide)), Chip.rdI_wrI_same _ _ _ rfl (by decide)⟩

end

/-! ### The rows -/

theorem Chip.ref_tellSelect (c d : Chip) : (c.tellSelect d).ref = c.ref :=
  Chip.tellSelect_keeps Chip.ref (fun c k b => by unfold Chip.tell; split <;> rfl) c d

theorem Chip.planes_tellSelect (c d : Chip) : (c.tellSelect d).planes = c.planes :=
  Chip.tellSelect_keeps Chip.planes (fun c k b => by unfold Chip.tell; split <;> rfl) c d

theorem State.select_live (s : State) (t : Nat) (f : Chip → Chip) (h : (s.chipAt t).live = true) :
    s.select t f = .next (s.commit ((f (s.chipAt t)).tellSelect (s.chipAt t))) := State.event_live s t _ h

/-- Settles O50: candidates and planes have registers of their own, so what a row shows of one of them nothing after it in the row changes. -/
theorem references : Obligations.References := by
  have hrd (c d : Chip) (f : Fld) : (c.tellSelect d).rd f = c.rd f := Chip.rd_of_cell (Chip.cell_of_regs (Chip.tellSelect_regs ..) _)
  have hon (c d : Chip) (f : Fld) : (c.tellSelect d).on f = c.on f := congrArg (· != 0) (hrd ..)
  unfold Obligations.References
  refine ⟨⟨?_, ?_, ?_, ?_, ?_⟩, ?_, ?_, ?_, ?_⟩
  · rintro s t ms lo k m c rfl hlive hst hm
    obtain ⟨h1, h2, h3, h4, h5⟩ := (s.chipAt t).windowEnd_shows k.val k.isLt hm hst lo
    refine ⟨_, State.select_live s t _ hlive, (Chip.rdI_of_rd (hrd ..)).trans h1, fun h => (hrd ..).trans (h2 h), fun h => (hrd ..).trans (h3 h),
      fun h ha hb => ⟨fun hn => (hrd ..).trans (h4 h ha (decide_eq_true hb) hn), fun hn => (hrd ..).trans (h5 h ha (decide_eq_true hb) hn)⟩⟩
  · rintro s t k noisy ms c rfl hlive hst
    obtain ⟨h1, h2, h3⟩ := (s.chipAt t).candInactive_shows k.val k.isLt noisy ms hst
    exact ⟨_, State.select_live s t _ hlive, (hrd ..).trans h1, (hrd ..).trans h2, fun h => (hon ..).trans (h3 h)⟩
  · rintro s t lo c rfl hready hvalid hpresent hservo hdue
    obtain ⟨h1, h2⟩ := (s.chipAt t).loCalibrate_shows lo hvalid hpresent hservo hdue
    exact ⟨_, State.fwStep_ready s t _ hready, h1, h2⟩
  · rintro s t k d ms c rfl hlive hst hd hheld
    obtain ⟨h1, h2⟩ := (s.chipAt t).refEdge_inPlace k.val k.isLt d ms hst hd hheld
    exact ⟨_, State.select_live s t _ hlive, (congrArg Cand.absent (Chip.cand_of_ref _ _ (Chip.ref_tellSelect ..))).trans h1,
      (Chip.tellSelect_regs ..).trans h2⟩
  · rintro s t k d ms c rfl hlive hst hd hroom hagrees hplanes
    obtain ⟨h1, h2⟩ := (s.chipAt t).refEdge_held k.val k.isLt d ms hst hd hroom hagrees hplanes
    exact ⟨_, State.select_live s t _ hlive, (congrArg Cand.held (Chip.cand_of_ref _ _ (Chip.ref_tellSelect ..))).trans h1,
      (Chip.tellSelect_regs ..).trans h2⟩
  · rintro s t q ms k c rfl hlive hwants hfollows
    obtain ⟨h1, h2, h3, h4, h5⟩ := (s.chipAt t).wtrExpiry_shows q.isLt hwants hfollows ms
    exact ⟨_, State.select_live s t _ hlive, (hrd ..).trans h1, (hrd ..).trans h2, (hon ..).trans h3, (hon ..).trans h4, (hrd ..).trans h5⟩
  · rintro s t q c rfl hlive hst hnear
    obtain ⟨h1, h2⟩ := (s.chipAt t).pullinDone_shows q.isLt hst hnear
    exact ⟨_, State.select_live s t _ hlive, (hrd ..).trans h1,
      (congrArg Plane.lockAt (Chip.plane_of_planes _ (Chip.planes_tellSelect ..) _)).trans h2⟩
  · rintro s t q delay c rfl hlive hst hdue
    obtain ⟨h1, h2, h3, h4, h5⟩ := (s.chipAt t).startTimeout_shows q.isLt delay hst hdue
    exact ⟨_, State.select_live s t _ hlive, (hrd ..).trans h1, (hrd ..).trans h2, (Chip.rdI_of_rd (hrd ..)).trans h3,
      (congrArg Plane.nextB (Chip.plane_of_planes _ (Chip.planes_tellSelect ..) _)).trans h4, (hon ..).trans h5⟩
  · rintro s t k q d1 d2 d3 c rfl hlive hheld hsel hst
    obtain ⟨⟨h1, h2, h3⟩, h4⟩ := (s.chipAt t).phaseHit_shows k.val k.isLt hheld q.isLt hsel hst
    exact ⟨_, State.event_live s t _ hlive, h1, h2, h3, h4⟩

end Sys2Proof.Machine
end

section
/-! SUPPORT. The twins: modes and phases, the pair, the start of a state copy, and messages in their turn. -/

namespace Sys2Proof.Machine

/-! ### Modes and phases -/

/-- The field is neither a live one of the twin's state nor its mode or phase. -/
def Fld.notTwnMode (f : Fld) : Bool := f.notTwnLive && TWN_STATE_MODE.apart f && TWN_STATE_PHASE.apart f

section
variable (c : Chip) {f : Fld}

theorem Chip.twnTo_stages (m p : Nat) : c.twnTo m p = ((c.wr TWN_STATE_MODE m).wr TWN_STATE_PHASE p).twnShow := rfl

theorem Chip.rd_twnTo (m p : Nat) (h : f.notTwnMode = true) : (c.twnTo m p).rd f = c.rd f := by
  simp only [Fld.notTwnMode, Bool.and_eq_true] at h
  rw [Chip.twnTo_stages, Chip.rd_twnShow _ _ h.1.1, Chip.rd_wr_keeps _ _ h.2, Chip.rd_wr_keeps _ _ h.1.2]

theorem Chip.on_twnTo (m p : Nat) (h : f.notTwnMode = true) : (c.twnTo m p).on f = c.on f := congrArg (· != 0) (c.rd_twnTo m p h)

theorem Chip.mode_twnTo {m : Nat} (hm : m < 4) (p : Nat) : (c.twnTo m p).twnMode = m := by
  rw [Chip.twnTo_stages, Chip.twnMode, Chip.rd_twnShow _ _ (by decide), Chip.rd_wr_keeps _ _ (by decide)]
  exact Chip.rd_wr_lt rfl hm

theorem Chip.phase_twnTo (m : Nat) {p : Nat} (hp : p < 8) : (c.twnTo m p).twnPhase = p := by
  rw [Chip.twnTo_stages, Chip.twnPhase, Chip.rd_twnShow _ _ (by decide)]
  exact Chip.rd_wr_lt rfl hp

theorem Chip.twn_twnShow : c.twnShow.twn = c.twn :=
  (Chip.twnShow_within .refl (by decide) (by decide) : Chip.Within [0, 112] [] c _).part .twn (by decide)

theorem Chip.twn_twnTo (m p : Nat) : (c.twnTo m p).twn = c.twn :=
  (Chip.twnTo_within .refl (by decide) (by decide) : Chip.Within [0, 112] [] c _).part .twn (by decide)

/-! ### The start of a state copy -/

/-- The working state of the twin that a state copy and a message leave: the decision of its mode and when its peer was heard. -/
def Twn.standing (x : Twn) : Bool × Option Nat × Bool × Nat := (x.decided, x.waitAt, x.toActive, x.helloAt)

theorem Chip.standing_tell (k : Nat) (b : List Nat) : (c.tell k b).twn.standing = c.twn.standing := by
  unfold Chip.tell
  split <;> rfl

/-- The field is none that the start of a state copy writes. -/
def Fld.notCopied (f : Fld) : Bool :=
  f.notTwnMode && TWN_STATE_LOST_CAUSE.apart f && TWN_COUNTS_RESYNCS.apart f && f.off != (TWN_MATCH 0).off && f.off != (TWN_MATCH 1).off
    && f.off / 65536 != 16

/-- The registers of the twin as a state copy begins. -/
def Chip.copyShown (c : Chip) (cause : Nat) : Chip :=
  (((c.twnTo 2 2).wr TWN_STATE_LOST_CAUSE cause).add TWN_COUNTS_RESYNCS 1).each [0, 1] fun c q => c.put (TWN_MATCH q) 0

/-- The carafes are emptied. -/
def Chip.storeForgotten (c : Chip) : Chip :=
  ({ c with lbs := { c.lbs with carafes := c.lbs.carafes.map fun (e : Nat × Carafe) => (e.1, e.2.forget) } } : Chip).each (List.range 48)
    fun c r => c.wr (LBS_REC_HIST_HISTORY r) 0

/-- The graphic buffers become transparent. -/
def Chip.graphicsForgotten (c : Chip) : Chip := { c with heads := c.heads.map fun (e : Nat × Head) => (e.1, e.2.forget) }

/-- The working state of a copy that begins, of which the peer is told. -/
def Chip.copyBegun (c : Chip) (cause : Nat) : Chip :=
  (c.setTwn { c.twn with copyAt := c.now, staged := none, image := none, noMatch := [0, 0], diverged := [], recs := [] }).tell 11 [cause]

theorem Chip.twnCopy_stages (cause : Nat) :
    c.twnCopy cause = if c.twnMode ≠ 2 ∨ c.twnPhase = 7 then c else (c.copyShown cause).storeForgotten.graphicsForgotten.copyBegun cause := rfl

theorem Chip.cell_storeForgotten {o : Nat} (h : o / 65536 ≠ 16) : c.storeForgotten.cell o = c.cell o := by
  unfold Chip.storeForgotten
  refine (Chip.each_keeps (·.cell o) _ _ (fun c r hr => ?_) _).trans (Chip.cell_of_regs rfl _)
  have hlt := List.mem_range.1 hr
  have hreg : (LBS_REC_HIST_HISTORY r).off = 0x101300 + 4 * r := rfl
  exact Chip.cell_wr_other _ (LBS_REC_HIST_HISTORY r) _ _ (by omega)

theorem Chip.rd_storeForgotten (h : f.off / 65536 ≠ 16) : c.storeForgotten.rd f = c.rd f := Chip.rd_of_cell (c.cell_storeForgotten h)

theorem Chip.rd_copyShown (cause : Nat) (h : f.notCopied = true) : (c.copyShown cause).rd f = c.rd f := by
  simp only [Fld.notCopied, Bool.and_eq_true, bne_iff_ne, ne_eq] at h
  obtain ⟨⟨⟨⟨⟨hmode, hcause⟩, hresyncs⟩, hzero⟩, hone⟩, -⟩ := h
  unfold Chip.copyShown
  rw [Chip.each_cons, Chip.each_cons, Chip.each_nil, Chip.rd_put_other _ _ _ _ (Ne.symm hone), Chip.rd_put_other _ _ _ _ (Ne.symm hzero), Chip.add_def,
    Chip.rd_wr_keeps _ _ hresyncs, Chip.rd_wr_keeps _ _ hcause, Chip.rd_twnTo _ _ _ hmode]

theorem Chip.cell_graphicsForgotten (o : Nat) : c.graphicsForgotten.cell o = c.cell o := Chip.cell_of_regs rfl o

theorem Chip.cell_copyBegun (cause o : Nat) : (c.copyBegun cause).cell o = c.cell o :=
  (Chip.cell_of_regs (Chip.tell_regs ..) o).trans (Chip.setTwn_cell ..)

theorem Chip.rd_graphicsForgotten : c.graphicsForgotten.rd f = c.rd f := rfl

theorem Chip.rd_copyBegun (cause : Nat) : (c.copyBegun cause).rd f = c.rd f := by rw [Chip.copyBegun, Chip.rd_tell, Chip.setTwn_rd]

theorem Chip.rd_twnCopy (cause : Nat) (h : f.notCopied = true) : (c.twnCopy cause).rd f = c.rd f := by
  have hpage : f.off / 65536 ≠ 16 := by
    simp only [Fld.notCopied, Bool.and_eq_true, bne_iff_ne, ne_eq] at h
    exact h.2
  rw [Chip.twnCopy_stages]
  split
  · rfl
  · rw [Chip.rd_copyBegun, Chip.rd_graphicsForgotten, Chip.rd_storeForgotten _ hpage, Chip.rd_copyShown _ _ h]

theorem Chip.rd_copyShown_state (cause : Nat) (h : f.off = TWN_STATE.off) :
    (c.copyShown cause).rd f = ((c.twnTo 2 2).wr TWN_STATE_LOST_CAUSE cause).rd f := by
  have hstate : TWN_STATE.off = 0x70000c := rfl
  have hcounts : TWN_COUNTS_RESYNCS.off = 0x70001c := rfl
  have hzero : (TWN_MATCH 0).off = 0x700020 := rfl
  have hone : (TWN_MATCH 1).off = 0x700024 := rfl
  rw [Chip.copyShown, Chip.each_cons, Chip.each_cons, Chip.each_nil, Chip.rd_put_other _ _ _ _ (by omega), Chip.rd_put_other _ _ _ _ (by omega),
    Chip.add_def, Chip.rd_wr_keeps _ _ (Fld.apart_of_off (by omega))]

/-- The registers that a state copy shows as it begins (R574). -/
theorem Chip.twnCopy_shows {cause : Nat} (hcause : cause < 16) (hmode : c.twnMode = 2) (hphase : c.twnPhase ≠ 7) :
    (c.twnCopy cause).twnMode = 2 ∧ (c.twnCopy cause).twnPhase = 2 ∧ (c.twnCopy cause).rd TWN_STATE_LOST_CAUSE = cause
      ∧ (c.twnCopy cause).rd TWN_COUNTS_RESYNCS = min (2 ^ TWN_COUNTS_RESYNCS.w - 1) (c.rd TWN_COUNTS_RESYNCS + 1)
      ∧ ∀ q < 2, (c.twnCopy cause).get (TWN_MATCH q) = 0 := by
  have hstages : c.twnCopy cause = (c.copyShown cause).storeForgotten.graphicsForgotten.copyBegun cause := by
    rw [Chip.twnCopy_stages, if_neg (by rintro (h | h); exacts [h hmode, hphase h])]
  have hcell (o : Nat) (hp : o / 65536 ≠ 16) : (c.twnCopy cause).cell o = (c.copyShown cause).cell o := by
    rw [hstages, Chip.cell_copyBegun, Chip.cell_graphicsForgotten, Chip.cell_storeForgotten _ hp]
  refine ⟨?_, ?_, ?_, ?_, fun q hq => ?_⟩
  · refine (Chip.rd_of_cell (hcell _ (by decide))).trans ?_
    rw [Chip.rd_copyShown_state _ _ (by decide), Chip.rd_wr_keeps _ _ (by decide)]
    exact Chip.mode_twnTo _ (by decide) _
  · refine (Chip.rd_of_cell (hcell _ (by decide))).trans ?_
    rw [Chip.rd_copyShown_state _ _ (by decide), Chip.rd_wr_keeps _ _ (by decide)]
    exact Chip.phase_twnTo _ _ (by decide)
  · refine (Chip.rd_of_cell (hcell _ (by decide))).trans ?_
    rw [Chip.rd_copyShown_state _ _ (by decide)]
    exact Chip.rd_wr_lt rfl hcause
  · refine (Chip.rd_of_cell (hcell _ (by decide))).trans ?_
    rw [Chip.copyShown, Chip.each_cons, Chip.each_cons, Chip.each_nil, Chip.rd_put_other _ _ _ _ (by decide), Chip.rd_put_other _ _ _ _ (by decide)]
    refine (Chip.rd_inc_same _ rfl).trans ?_
    rw [Chip.rd_wr_keeps _ _ (by decide), Chip.rd_twnTo _ _ _ (by decide)]
  · have hget : (c.copyShown cause).get (TWN_MATCH q) = 0 := by
      rw [Chip.copyShown, Chip.each_cons, Chip.each_cons, Chip.each_nil]
      rcases (by omega : q = 0 ∨ q = 1) with rfl | rfl
      · rw [Chip.get_put_other _ _ _ _ (by decide), Chip.get_put_same, Nat.zero_mod]
      · rw [Chip.get_put_same, Nat.zero_mod]
    exact (Chip.get_of_cell (hcell _ (by rcases (by omega : q = 0 ∨ q = 1) with rfl | rfl <;> decide))).trans hget

theorem Chip.mode_twnCopy (cause : Nat) (hmode : c.twnMode = 2) : (c.twnCopy cause).twnMode = 2 := by
  by_cases hphase : c.twnPhase = 7
  · rw [Chip.twnCopy_stages, if_pos (.inr hphase), hmode]
  · have hstages : c.twnCopy cause = (c.copyShown cause).storeForgotten.graphicsForgotten.copyBegun cause := by
      rw [Chip.twnCopy_stages, if_neg (by rintro (h | h); exacts [h hmode, hphase h])]
    rw [hstages, Chip.twnMode, Chip.rd_copyBegun, Chip.rd_graphicsForgotten, Chip.rd_storeForgotten _ (by decide),
      Chip.rd_copyShown_state _ _ (by decide), Chip.rd_wr_keeps _ _ (by decide)]
    exact Chip.mode_twnTo _ (by decide) _

theorem Chip.twn_storeForgotten : c.storeForgotten.twn = c.twn := by
  unfold Chip.storeForgotten
  exact (Chip.each_keeps (·.twn) _ _ (fun c r _ => Chip.wr_twn ..) _).trans rfl

theorem Chip.standing_copyBegun (cause : Nat) : (c.graphicsForgotten.copyBegun cause).twn.standing = c.twn.standing := by
  rw [Chip.copyBegun, Chip.standing_tell, Chip.setTwn_twn]
  rfl

theorem Chip.standing_twnCopy (cause : Nat) : (c.twnCopy cause).twn.standing = c.twn.standing := by
  rw [Chip.twnCopy_stages]
  split
  · rfl
  · have hshown : (c.copyShown cause).twn = c.twn := by
      rw [Chip.copyShown, Chip.each_cons, Chip.each_cons, Chip.each_nil, Chip.put_twn, Chip.put_twn, Chip.add_def, Chip.wr_twn, Chip.wr_twn, Chip.twn_twnTo]
    rw [Chip.standing_copyBegun, Chip.twn_storeForgotten, hshown]

/-! ### The pair is formed -/

/-- The pair is reported formed. -/
def Chip.pairFormed (c : Chip) : Chip := (c.setTwn { c.twn with paired := true }).post 0x0F 0x0003 0 ((c.setTwn { c.twn with paired := true }).rd TWN_PEER_PEER_UNIT)

/-- A standby of a pair begins its first state copy. -/
def Chip.pairCopies (c : Chip) : Chip := c.when (c.twnMode == 2 && c.twnPhase ≤ 1) (·.twnCopy 8)

theorem Chip.twnPair_stages : c.twnPair
    = if c.peerWrong || !(c.on TWN_PEER_PRESENT) || c.rd TWN_PEER_PEER_UNIT == c.twnUnit then c
      else if (c.twnMode = 1 ∧ c.rd TWN_PEER_PEER_MODE = 2) ∨ (c.twnMode = 2 ∧ c.rd TWN_PEER_PEER_MODE = 1) then
        (c.when (!c.twn.paired) Chip.pairFormed).pairCopies
      else c := rfl

theorem Chip.rd_pairFormed (h : f.off / 65536 ≠ 1) : c.pairFormed.rd f = c.rd f := by
  rw [Chip.pairFormed, Chip.rd_post _ _ _ _ _ _ h, Chip.setTwn_rd]

theorem Chip.standing_pairFormed : c.pairFormed.twn.standing = c.twn.standing := by
  rw [Chip.pairFormed, Chip.post_twn, Chip.setTwn_twn]
  rfl

theorem Chip.pairCopies_keeps {β : Type} (view : Chip → β) (hcopy : c.twnMode = 2 → view (c.twnCopy 8) = view c) : view c.pairCopies = view c := by
  unfold Chip.pairCopies
  by_cases hcond : (c.twnMode == 2 && decide (c.twnPhase ≤ 1)) = true
  · rw [Chip.when_pos _ _ hcond]
    exact hcopy (eq_of_beq (Bool.and_eq_true_iff.1 hcond).1)
  · rw [Bool.eq_false_of_not_eq_true hcond, Chip.when_false]

/-- What forming the pair keeps: a view that the report and the start of a state copy keep. -/
theorem Chip.twnPair_keeps {β : Type} (view : Chip → β) (hpair : view c.pairFormed = view c)
    (hcopy : ∀ d : Chip, d.twnMode = 2 → view (d.twnCopy 8) = view d) : view c.twnPair = view c := by
  rw [Chip.twnPair_stages]
  split
  · rfl
  · split
    · rw [Chip.pairCopies_keeps _ view (hcopy _), Chip.when_keeps view _ _ hpair]
    · rfl

theorem Chip.rd_twnPair (h : f.notCopied = true) (hpage : f.off / 65536 ≠ 1) : c.twnPair.rd f = c.rd f :=
  c.twnPair_keeps (·.rd f) (c.rd_pairFormed hpage) fun d _ => d.rd_twnCopy 8 h

theorem Chip.on_twnPair (h : f.notCopied = true) (hpage : f.off / 65536 ≠ 1) : c.twnPair.on f = c.on f := congrArg (· != 0) (c.rd_twnPair h hpage)

theorem Chip.mode_twnPair : c.twnPair.twnMode = c.twnMode :=
  c.twnPair_keeps (·.twnMode) (c.rd_pairFormed (by decide)) fun d hd => (d.mode_twnCopy 8 hd).trans hd.symm

theorem Chip.standing_twnPair : c.twnPair.twn.standing = c.twn.standing :=
  c.twnPair_keeps (·.twn.standing) c.standing_pairFormed fun d _ => d.standing_twnCopy 8

/-! ### A part becomes standby -/

/-- The decision for standby. -/
def Chip.standbyDecided (c : Chip) : Chip := c.setTwn { c.twn with decided := true, waitAt := none, toActive := false }

theorem Chip.beStandby_stages : c.beStandby = c.standbyDecided.twnTo 2 1 := rfl

theorem Chip.rd_beStandby (h : f.notTwnMode = true) : c.beStandby.rd f = c.rd f := by
  rw [Chip.beStandby_stages, Chip.rd_twnTo _ _ _ h, Chip.standbyDecided, Chip.setTwn_rd]

theorem Chip.mode_beStandby : c.beStandby.twnMode = 2 := Chip.mode_twnTo _ (by decide) _

theorem Chip.standing_beStandby : c.beStandby.twn.standing = (true, none, false, c.twn.helloAt) := by
  rw [Chip.beStandby_stages, Chip.twn_twnTo]
  rfl

/-- A part that becomes standby and forms its pair. -/
theorem Chip.becomesStandby :
    c.beStandby.twnPair.twnMode = 2 ∧ c.beStandby.twnPair.twn.standing = (true, none, false, c.twn.helloAt) :=
  ⟨(Chip.mode_twnPair _).trans c.mode_beStandby, (Chip.standing_twnPair _).trans c.standing_beStandby⟩

theorem Chip.on_becomesStandby (h : f.notCopied = true) (hpage : f.off / 65536 ≠ 1) : c.beStandby.twnPair.on f = c.on f := by
  have hmode : f.notTwnMode = true := by
    simp only [Fld.notCopied, Bool.and_eq_true] at h
    exact h.1.1.1.1.1
  rw [Chip.on_twnPair _ h hpage]
  exact congrArg (· != 0) (c.rd_beStandby hmode)

end

end Sys2Proof.Machine
end

section
/-! SUPPORT. Messages of the twin's peer in their turn, and how a part becomes active or standby. -/

namespace Sys2Proof.Machine

/-! ### Messages in their turn -/

section
variable (c : Chip) {k m : Nat}

/-- The numbers of the streams have moved on. -/
def Chip.turned (c : Chip) (rx : List (Nat × List (Nat × Nat))) : Chip := c.setTwn { c.twn with rx := rx }

theorem Chip.rd_turned (rx : List (Nat × List (Nat × Nat))) (f : Fld) : (c.turned rx).rd f = c.rd f := Chip.setTwn_rd ..

theorem Chip.on_turned (rx : List (Nat × List (Nat × Nat))) (f : Fld) : (c.turned rx).on f = c.on f := Chip.setTwn_on ..

/-- A message in its turn is acted on, with only the stream's numbers changed before. -/
theorem Chip.twnTake_heard (f : Chip → Chip) (h : c.hears k m = true) :
    ∃ rx, c.twnTake k m f = f (c.turned rx) := by
  simp only [Chip.hears, Bool.and_eq_true, decide_eq_true_eq, Bool.not_eq_true'] at h
  obtain ⟨⟨hen, hle⟩, hnew⟩ := h
  have hturn : ¬ (m < (c.twn.rx.getD k (0, [])).1 ∨ ((c.twn.rx.getD k (0, [])).2.any fun e => e.1 == m) = true) := by
    rw [hnew]
    simp only [Bool.false_eq_true, or_false]
    omega
  unfold Chip.twnTake
  rw [if_neg (by rw [hen]; decide)]
  dsimp only
  rw [if_neg hturn]
  exact ⟨_, rfl⟩

/-- A message in its turn, with no access of the bus outstanding. -/
theorem State.message_heard (s : State) (t : Nat) (f : Chip → Chip) (hlive : (s.chipAt t).live = true) (hh : (s.chipAt t).hears k m = true)
    (hbus : ∀ rx, (f ((s.chipAt t).turned rx)).bus.outs = []) :
    ∃ rx, s.message t k m f = .next (s.commit (f ((s.chipAt t).turned rx)).busShow) := by
  obtain ⟨rx, hrx⟩ := (s.chipAt t).twnTake_heard f hh
  refine ⟨rx, (State.event_live s t _ hlive).trans ?_⟩
  rw [hrx, Chip.busRun_idle _ _ (hbus rx)]

theorem Chip.rd_busShow {f : Fld} (h : f.off < 0x780000) : c.busShow.rd f = c.rd f := Chip.rd_of_cell (c.cell_busShow _ h)

end

/-! ### The decision of the mode -/

section
variable (c : Chip) (peerIn : Bool)

/-- An active peer is seen, by the pin or by its HELLO. -/
def Chip.activeSeen (c : Chip) (peerIn : Bool) : Bool := peerIn || (c.on TWN_PEER_PRESENT && c.rd TWN_PEER_PEER_MODE == 1)

/-- The pin is read. -/
def Chip.pinRead (c : Chip) (peerIn : Bool) : Chip := c.wrB TWN_STATE_PEER_IN peerIn

theorem Chip.rd_pinRead {f : Fld} (h : TWN_STATE_PEER_IN.apart f = true) : (c.pinRead peerIn).rd f = c.rd f := Chip.rd_wr_keeps _ _ h

theorem Chip.on_pinRead : (c.pinRead peerIn).on TWN_STATE_PEER_IN = peerIn := Chip.on_wrB_same _ _ rfl (by decide)

theorem Chip.twn_pinRead : (c.pinRead peerIn).twn = c.twn := Chip.wr_twn ..

theorem Chip.activeSeen_pinRead : (c.pinRead peerIn).activeSeen peerIn = c.activeSeen peerIn := by
  rw [Chip.activeSeen, Chip.on, c.rd_pinRead peerIn (by decide), c.rd_pinRead peerIn (by decide)]
  rfl

/-- Unit 0 is to be active at the next handover instant. -/
def Chip.decidedActive (c : Chip) : Chip := (c.setTwn { c.twn with decided := true, toActive := true }).twnTo 0 1

/-- Unit 1 waits. -/
def Chip.decidedWait (c : Chip) : Chip := (c.setTwn { c.twn with decided := true, waitAt := some c.now }).twnTo 0 1

theorem Chip.modeDecide_stages (hen : c.on TWN_CFG_ENABLE = true) (hdec : c.twn.decided = false) (hmode : c.rd TWN_STATE_MODE = 0)
    (hcfg : c.fw.cfgLoaded = true) (hleft : (c.plane 0).left = true) :
    c.modeDecide peerIn = if c.activeSeen peerIn then (c.pinRead peerIn).beStandby.twnPair
      else if c.twnUnit = 0 then (c.pinRead peerIn).decidedActive else (c.pinRead peerIn).decidedWait := by
  have hunit : (c.pinRead peerIn).twnUnit = c.twnUnit := c.rd_pinRead peerIn (by decide)
  rw [← Chip.activeSeen_pinRead, ← hunit]
  exact if_neg (by rw [hen, hdec, Chip.twnMode, hmode, hcfg, hleft]; decide)

theorem Chip.decidedActive_shows : c.decidedActive.twnMode = 0 ∧ c.decidedActive.twnPhase = 1 ∧ c.decidedActive.twn.decided = true
    ∧ c.decidedActive.twn.toActive = true := by
  refine ⟨Chip.mode_twnTo _ (by decide) _, Chip.phase_twnTo _ _ (by decide), ?_, ?_⟩
  · rw [Chip.decidedActive, Chip.twn_twnTo]
    rfl
  · rw [Chip.decidedActive, Chip.twn_twnTo]
    rfl

theorem Chip.decidedWait_shows : c.decidedWait.twnMode = 0 ∧ c.decidedWait.twnPhase = 1 ∧ c.decidedWait.twn.decided = true
    ∧ c.decidedWait.twn.waitAt = some c.now := by
  refine ⟨Chip.mode_twnTo _ (by decide) _, Chip.phase_twnTo _ _ (by decide), ?_, ?_⟩
  · rw [Chip.decidedWait, Chip.twn_twnTo]
    rfl
  · rw [Chip.decidedWait, Chip.twn_twnTo]
    rfl

theorem Chip.modeDecide_shows (hen : c.on TWN_CFG_ENABLE = true) (hdec : c.twn.decided = false) (hmode : c.rd TWN_STATE_MODE = 0)
    (hcfg : c.fw.cfgLoaded = true) (hleft : (c.plane 0).left = true) :
    (c.modeDecide peerIn).twn.decided = true ∧ (c.modeDecide peerIn).on TWN_STATE_PEER_IN = peerIn
      ∧ (c.activeSeen peerIn = true → (c.modeDecide peerIn).twnMode = 2)
      ∧ (c.activeSeen peerIn = false → (c.modeDecide peerIn).twnMode = 0 ∧ (c.modeDecide peerIn).twnPhase = 1
          ∧ (c.twnUnit = 0 → (c.modeDecide peerIn).twn.toActive = true) ∧ (c.twnUnit ≠ 0 → (c.modeDecide peerIn).twn.waitAt = some c.now)) := by
  have heq := c.modeDecide_stages peerIn hen hdec hmode hcfg hleft
  cases hseen : c.activeSeen peerIn
  · rw [hseen, if_neg (by decide)] at heq
    by_cases hunit : c.twnUnit = 0
    · rw [if_pos hunit] at heq
      obtain ⟨h1, h2, h3, h4⟩ := (c.pinRead peerIn).decidedActive_shows
      rw [heq]
      exact ⟨h3, (Chip.on_twnTo _ _ _ (by decide)).trans (c.on_pinRead peerIn), fun h => absurd h (by decide), fun _ => ⟨h1, h2, fun _ => h4,
        fun h => absurd hunit h⟩⟩
    · rw [if_neg hunit] at heq
      obtain ⟨h1, h2, h3, h4⟩ := (c.pinRead peerIn).decidedWait_shows
      rw [heq]
      exact ⟨h3, (Chip.on_twnTo _ _ _ (by decide)).trans (c.on_pinRead peerIn), fun h => absurd h (by decide), fun _ => ⟨h1, h2,
        fun h => absurd h hunit, fun _ => h4.trans (congrArg some (Chip.wr_now ..))⟩⟩
  · rw [hseen, if_pos rfl] at heq
    obtain ⟨h1, h2⟩ := (c.pinRead peerIn).becomesStandby
    rw [heq]
    exact ⟨congrArg (·.1) h2, ((c.pinRead peerIn).on_becomesStandby (by decide) (by decide)).trans (c.on_pinRead peerIn), fun _ => h1,
      fun h => absurd h (by decide)⟩

/-- Unit 1 is to be active at the next handover instant. -/
def Chip.waitEnds (c : Chip) : Chip := c.setTwn { c.twn with waitAt := none, toActive := true }

theorem Chip.unit1Wait_due {at_ : Nat} (hat : c.twn.waitAt = some at_) (hdue : at_ + sec 2 ≤ c.now) :
    c.unit1Wait peerIn = if c.activeSeen peerIn then (c.pinRead peerIn).beStandby.twnPair else (c.pinRead peerIn).waitEnds := by
  unfold Chip.unit1Wait
  rw [hat, ← Chip.activeSeen_pinRead]
  exact if_pos hdue

theorem Chip.unit1Wait_shows {at_ : Nat} (hat : c.twn.waitAt = some at_) (hdue : at_ + sec 2 ≤ c.now) :
    (c.unit1Wait peerIn).twn.waitAt = none ∧ (c.unit1Wait peerIn).on TWN_STATE_PEER_IN = peerIn
      ∧ (c.activeSeen peerIn = true → (c.unit1Wait peerIn).twnMode = 2)
      ∧ (c.activeSeen peerIn = false → (c.unit1Wait peerIn).twn.toActive = true) := by
  rw [c.unit1Wait_due peerIn hat hdue]
  cases c.activeSeen peerIn
  · exact ⟨rfl, c.on_pinRead peerIn, fun h => absurd h (by decide), fun _ => rfl⟩
  · obtain ⟨h1, h2⟩ := (c.pinRead peerIn).becomesStandby
    exact ⟨congrArg (·.2.1) h2, ((c.pinRead peerIn).on_becomesStandby (by decide) (by decide)).trans (c.on_pinRead peerIn), fun _ => h1,
      fun h => absurd h (by decide)⟩

/-! ### Conflict -/

/-- The registers of two parts that drive the pin. -/
def Chip.conflictShown (c : Chip) : Chip := (c.set TWN_STATE_PEER_IN).set TWN_STATUS_PEER_MISMATCH

theorem Chip.peerConflict_stages (hout : c.on TWN_STATE_ACTIVE_OUT = true) (hpending : c.on TWN_STATE_HANDOVER_PENDING = false) :
    c.peerConflict = if c.twnUnit = 1 then (c.conflictShown.clr TWN_STATE_ACTIVE_OUT).beStandby.twnPair else c.conflictShown := by
  have hunit : c.conflictShown.twnUnit = c.twnUnit := (Chip.rd_set_keeps _ (by decide)).trans (Chip.rd_set_keeps _ (by decide))
  rw [← hunit]
  exact if_neg (by rw [hout, hpending]; decide)

theorem Chip.conflictShown_shows : c.conflictShown.on TWN_STATE_PEER_IN = true ∧ c.conflictShown.on TWN_STATUS_PEER_MISMATCH = true := by
  constructor
  · exact (Chip.on_set_keeps _ (by decide)).trans (Chip.on_set_same _ rfl (by decide))
  · exact Chip.on_set_same _ rfl (by decide)

theorem Chip.peerConflict_shows (hout : c.on TWN_STATE_ACTIVE_OUT = true) (hpending : c.on TWN_STATE_HANDOVER_PENDING = false) :
    c.peerConflict.on TWN_STATE_PEER_IN = true ∧ c.peerConflict.on TWN_STATUS_PEER_MISMATCH = true
      ∧ (c.twnUnit = 1 → c.peerConflict.on TWN_STATE_ACTIVE_OUT = false ∧ c.peerConflict.twnMode = 2)
      ∧ (c.twnUnit ≠ 1 → c.peerConflict.on TWN_STATE_ACTIVE_OUT = true ∧ c.peerConflict.twnMode = c.twnMode) := by
  obtain ⟨hin, hwrong⟩ := c.conflictShown_shows
  rw [c.peerConflict_stages hout hpending]
  by_cases hunit : c.twnUnit = 1
  · rw [if_pos hunit]
    have hstand := fun (f : Fld) (h : f.notCopied = true) (hp : f.off / 65536 ≠ 1) =>
      (c.conflictShown.clr TWN_STATE_ACTIVE_OUT).on_becomesStandby h hp
    refine ⟨(hstand _ (by decide) (by decide)).trans ((Chip.on_clr_keeps _ (by decide)).trans hin),
      (hstand _ (by decide) (by decide)).trans ((Chip.on_clr_keeps _ (by decide)).trans hwrong),
      fun _ => ⟨(hstand _ (by decide) (by decide)).trans (Chip.on_clr_same _ rfl), (Chip.becomesStandby _).1⟩, fun h => absurd hunit h⟩
  · rw [if_neg hunit]
    have hkeep (f : Fld) (h1 : TWN_STATE_PEER_IN.apart f = true) (h2 : TWN_STATUS_PEER_MISMATCH.apart f = true) : c.conflictShown.rd f = c.rd f :=
      (Chip.rd_set_keeps _ h2).trans (Chip.rd_set_keeps _ h1)
    exact ⟨hin, hwrong, fun h => absurd h hunit, fun _ => ⟨(congrArg (· != 0) (hkeep _ (by decide) (by decide))).trans hout,
      hkeep _ (by decide) (by decide)⟩⟩

/-! ### HELLO -/

theorem State.chipAt_sent (s : State) (t : Nat) : (s.chipAt t).sent = [] := by
  unfold State.chipAt
  dsimp only
  split
  · exact (Chip.Only.trans (Chip.Only.mono Chip.engineRun_only (by decide)) (Chip.Only.trans (Chip.Only.mono Chip.storeRun_only (by decide))
      (Chip.Only.mono Chip.txDue_only (by decide))) : Chip.Only [.aud, .sap, .lbs, .sdi] _ _) .sent (by decide)
  · rfl

theorem Chip.helloSend_stages (hen : c.on TWN_CFG_ENABLE = true) : c.helloSend peerIn = (c.pinRead peerIn).tell 1
    [(c.pinRead peerIn).role, (c.pinRead peerIn).twnUnit, (c.pinRead peerIn).helloMode, (c.pinRead peerIn).twnPhase, 1,
      (c.pinRead peerIn).rd UPD_SCHEMA_RUNNING] := if_neg (by rw [hen]; decide)

theorem Chip.sent_tell (mt : Nat) (body : List Nat) : (c.tell mt body).sent = c.sent ++ (if c.rd TWN_STATE_LANES_UP = 0 then []
    else [(mt, [c.twn.tx.getD (streamOf mt) 0, c.epochNow 0, c.epochNow 1] ++ body)]) := by
  unfold Chip.tell
  split
  · exact (List.append_nil _).symm
  · rfl

theorem Chip.helloSend_shows (hen : c.on TWN_CFG_ENABLE = true) : (c.helloSend peerIn).on TWN_STATE_PEER_IN = peerIn
    ∧ (c.helloSend peerIn).sent = c.sent ++ (if c.rd TWN_STATE_LANES_UP = 0 then []
        else [(1, [c.twn.tx.getD 1 0, c.epochNow 0, c.epochNow 1, c.role, c.twnUnit, c.helloMode, c.rd TWN_STATE_PHASE, 1, c.rd UPD_SCHEMA_RUNNING])]) := by
  have hrd (f : Fld) (h : TWN_STATE_PEER_IN.apart f = true) := c.rd_pinRead peerIn h
  have hepoch (q : Nat) (hq : q < 2) : (c.pinRead peerIn).epochNow q = c.epochNow q := by
    rw [Chip.epochNow, Chip.plane_of_planes c (d := c.pinRead peerIn) (Chip.wr_planes ..), hrd _ (Fld.apart_of_off (by
      have hoff : (XPT_EPOCH_EPOCH q).off / 65536 ≠ 112 := by rcases (by omega : q = 0 ∨ q = 1) with rfl | rfl <;> decide
      exact fun he => hoff (by rw [← he]; rfl))), Chip.epochNow]
  have hmode : (c.pinRead peerIn).helloMode = c.helloMode := by
    rw [Chip.helloMode, Chip.on, hrd _ (by decide), Chip.twnMode, hrd _ (by decide)]
    rfl
  rw [c.helloSend_stages peerIn hen, Chip.on_tell, Chip.sent_tell, Chip.twn_pinRead, hepoch 0 (by decide), hepoch 1 (by decide), hmode,
    show (c.pinRead peerIn).role = c.role from hrd _ (by decide), show (c.pinRead peerIn).twnUnit = c.twnUnit from hrd _ (by decide),
    show (c.pinRead peerIn).twnPhase = c.rd TWN_STATE_PHASE from hrd _ (by decide), hrd _ (by decide), hrd _ (by decide)]
  exact ⟨c.on_pinRead peerIn, congrArg (· ++ _) (Chip.wr_sent ..)⟩

/-- The streams start anew with the HELLO of a peer not present. -/
def Chip.peerFresh (c : Chip) (m : Nat) : Chip :=
  c.when (!(c.on TWN_PEER_PRESENT)) fun c => c.setTwn { c.twn with tx := [0, 0, 0], rx := [(0, []), (m, []), (0, [])], paired := false }

/-- What a HELLO says of the peer. -/
def Chip.peerNamed (c : Chip) (role unit mode phase version schema : Nat) : Chip :=
  let c := c.put TWN_PEER (1 + unit * 2 + role * 4 + mode * 16 + version * 256)
  c.setTwn { c.twn with helloAt := c.now, peerSchema := schema, peerStep := mode == 2 && phase == 6 }

/-- A peer of another role or protocol is flagged. -/
def Chip.peerJudged (c : Chip) : Chip := c.when c.peerWrong (·.set TWN_STATUS_PEER_MISMATCH)

/-- A part that waits becomes standby of an active peer. -/
def Chip.waitDecided (c : Chip) (mode : Nat) : Chip := c.when (c.twn.waitAt.isSome && mode == 1) (·.beStandby)

/-- What a HELLO in its turn does. -/
def Chip.helloTaken (c : Chip) (role unit mode phase version schema : Nat) : Chip :=
  (((c.peerNamed role unit mode phase version schema).peerJudged).waitDecided mode).twnPair.twnShow

theorem Chip.hello_stages (m role unit mode phase version schema : Nat) (hen : c.on TWN_CFG_ENABLE = true) :
    c.hello m role unit mode phase version schema
      = (c.peerFresh m).twnTake 1 m (·.helloTaken role unit mode phase version schema) := if_neg (by rw [hen]; decide)

theorem Chip.hears_peerFresh {m : Nat} (hen : c.on TWN_CFG_ENABLE = true) (h : c.on TWN_PEER_PRESENT = false ∨ c.hears 1 m = true) :
    (c.peerFresh m).hears 1 m = true := by
  unfold Chip.peerFresh
  cases hp : c.on TWN_PEER_PRESENT
  · rw [Bool.not_false, Chip.when_true, Chip.hears, Chip.setTwn_on, hen]
    simp
  · rw [Bool.not_true, Chip.when_false]
    exact h.resolve_left (by rw [hp]; decide)

theorem Chip.rd_peerFresh (m : Nat) (f : Fld) : (c.peerFresh m).rd f = c.rd f := Chip.when_keeps (·.rd f) _ _ (Chip.setTwn_rd ..)

theorem Chip.now_peerFresh (m : Nat) : (c.peerFresh m).now = c.now := Chip.when_keeps (·.now) _ _ (Chip.setTwn_now ..)

section
variable {role unit mode version : Nat} (phase schema : Nat)

theorem Chip.peerNamed_shows (hr : role < 4) (hu : unit < 2) (hm : mode < 4) (hv : version < 256) :
    (c.peerNamed role unit mode phase version schema).on TWN_PEER_PRESENT = true
      ∧ (c.peerNamed role unit mode phase version schema).rd TWN_PEER_PEER_ROLE = role
      ∧ (c.peerNamed role unit mode phase version schema).rd TWN_PEER_PEER_UNIT = unit
      ∧ (c.peerNamed role unit mode phase version schema).rd TWN_PEER_PEER_MODE = mode
      ∧ (c.peerNamed role unit mode phase version schema).rd TWN_PEER_PEER_TWP = version := by
  have hbits (lo w : Nat) : (c.peerNamed role unit mode phase version schema).rd (TWN_PEER.fld lo w)
      = bits ((1 + unit * 2 + role * 4 + mode * 16 + version * 256) % 2 ^ 32) lo w := Chip.rd_put_same c TWN_PEER _ lo w
  refine ⟨congrArg (· != 0) ((hbits 0 1).trans (?_ : _ = 1)), (hbits 2 2).trans ?_, (hbits 1 1).trans ?_, (hbits 4 2).trans ?_, (hbits 8 8).trans ?_⟩
  all_goals
    simp only [bits]
    omega

theorem Chip.rd_peerNamed {f : Fld} (h : TWN_PEER.off ≠ f.off) : (c.peerNamed role unit mode phase version schema).rd f = c.rd f :=
  (Chip.setTwn_rd ..).trans (Chip.rd_put_other _ _ _ _ h)

theorem Chip.rd_peerJudged {f : Fld} (h : TWN_STATUS_PEER_MISMATCH.apart f = true) : c.peerJudged.rd f = c.rd f :=
  Chip.when_keeps (·.rd f) _ _ (Chip.rd_set_keeps _ h)

theorem Chip.twn_peerJudged : c.peerJudged.twn = c.twn := Chip.when_keeps (·.twn) _ _ (Chip.wr_twn ..)

theorem Chip.rd_waitDecided {f : Fld} (h : f.notTwnMode = true) (mode : Nat) : (c.waitDecided mode).rd f = c.rd f :=
  Chip.when_keeps (·.rd f) _ _ (c.rd_beStandby h)

theorem Chip.helloAt_waitDecided (mode : Nat) : (c.waitDecided mode).twn.helloAt = c.twn.helloAt :=
  Chip.when_keeps (·.twn.helloAt) _ _ (congrArg (·.2.2.2) c.standing_beStandby)

theorem Chip.rd_helloTaken {f : Fld} (h : f.notCopied = true) (hpage : f.off / 65536 ≠ 1) (hjudge : TWN_STATUS_PEER_MISMATCH.apart f = true) :
    (c.helloTaken role unit mode phase version schema).rd f = (c.peerNamed role unit mode phase version schema).rd f := by
  have hmode : f.notTwnMode = true := by
    simp only [Fld.notCopied, Bool.and_eq_true] at h
    exact h.1.1.1.1.1
  have hlive : f.notTwnLive = true := by
    simp only [Fld.notTwnMode, Bool.and_eq_true] at hmode
    exact hmode.1.1
  rw [Chip.helloTaken, Chip.rd_twnShow _ _ hlive, Chip.rd_twnPair _ h hpage, Chip.rd_waitDecided _ hmode, Chip.rd_peerJudged _ hjudge]

theorem Chip.helloTaken_shows (hr : role < 4) (hu : unit < 2) (hm : mode < 4) (hv : version < 256) :
    (c.helloTaken role unit mode phase version schema).on TWN_PEER_PRESENT = true
      ∧ (c.helloTaken role unit mode phase version schema).rd TWN_PEER_PEER_ROLE = role
      ∧ (c.helloTaken role unit mode phase version schema).rd TWN_PEER_PEER_UNIT = unit
      ∧ (c.helloTaken role unit mode phase version schema).rd TWN_PEER_PEER_MODE = mode
      ∧ (c.helloTaken role unit mode phase version schema).rd TWN_PEER_PEER_TWP = version
      ∧ (c.helloTaken role unit mode phase version schema).twn.helloAt = c.now := by
  obtain ⟨h1, h2, h3, h4, h5⟩ := c.peerNamed_shows phase schema hr hu hm hv
  have hrd (f : Fld) (h : f.notCopied = true) (hp : f.off / 65536 ≠ 1) (hj : TWN_STATUS_PEER_MISMATCH.apart f = true) :=
    c.rd_helloTaken (role := role) (unit := unit) (mode := mode) (version := version) phase schema h hp hj
  refine ⟨(congrArg (· != 0) (hrd _ (by decide) (by decide) (by decide))).trans h1, (hrd _ (by decide) (by decide) (by decide)).trans h2,
    (hrd _ (by decide) (by decide) (by decide)).trans h3, (hrd _ (by decide) (by decide) (by decide)).trans h4,
    (hrd _ (by decide) (by decide) (by decide)).trans h5, ?_⟩
  rw [Chip.helloTaken, Chip.twn_twnShow]
  refine (congrArg (·.2.2.2) (Chip.standing_twnPair _)).trans ?_
  refine (Chip.helloAt_waitDecided _ _).trans ?_
  rw [Chip.twn_peerJudged]
  exact Chip.put_now ..

theorem Chip.helloTaken_wrong (hr : role < 4) (hu : unit < 2) (hm : mode < 4) (hv : version < 256) (hwrong : role ≠ c.role ∨ version ≠ 1) :
    (c.helloTaken role unit mode phase version schema).on TWN_STATUS_PEER_MISMATCH = true := by
  obtain ⟨h1, h2, -, -, h5⟩ := c.peerNamed_shows phase schema hr hu hm hv
  have hpeer : (c.peerNamed role unit mode phase version schema).peerWrong = true := by
    rw [Chip.peerWrong, h1, h2, h5, show (c.peerNamed role unit mode phase version schema).role = c.role from c.rd_peerNamed phase schema (by decide)]
    simpa using hwrong
  have hjudged : (c.peerNamed role unit mode phase version schema).peerJudged.on TWN_STATUS_PEER_MISMATCH = true := by
    rw [Chip.peerJudged, Chip.when_pos _ _ hpeer]
    exact Chip.on_set_same _ rfl (by decide)
  rw [Chip.helloTaken, Chip.on_twnShow _ _ (by decide), Chip.on_twnPair _ (by decide) (by decide)]
  exact (congrArg (· != 0) (Chip.rd_waitDecided _ (by decide) _)).trans hjudged

end

theorem Chip.helloTimeout_shows (hp : c.on TWN_PEER_PRESENT = true) (hdue : c.twn.helloAt + ms 10 ≤ c.now) :
    c.helloTimeout.on TWN_PEER_PRESENT = false ∧ c.helloTimeout.twn.paired = false := by
  have heq : c.helloTimeout = ((c.clr TWN_PEER_PRESENT).setTwn { c.twn with peerStep := false, paired := false }).twnShow := if_pos ⟨hp, hdue⟩
  rw [heq, Chip.on_twnShow _ _ (by decide), Chip.setTwn_on, Chip.twn_twnShow]
  exact ⟨Chip.on_clr_same _ rfl, rfl⟩

end

/-- Settles O53: the fields that a decision, a conflict or a HELLO writes are none that forming the pair and the start of a copy write. -/
theorem twinModes : Obligations.TwinModes := by
  unfold Obligations.TwinModes
  refine ⟨?_, ?_, ?_, ?_, ?_, ?_⟩
  · rintro s t peerIn c rfl hlive hen hdec hmode hcfg hleft
    obtain ⟨h1, h2, h3, h4⟩ := (s.chipAt t).modeDecide_shows peerIn hen hdec hmode hcfg hleft
    exact ⟨_, State.event_live s t _ hlive, h1, h2, h3, h4⟩
  · rintro s t peerIn at_ c rfl hlive hat hdue
    obtain ⟨h1, h2, h3, h4⟩ := (s.chipAt t).unit1Wait_shows peerIn hat hdue
    exact ⟨_, State.event_live s t _ hlive, h1, h2, h3, h4⟩
  · rintro s t c rfl hlive hout hpending
    obtain ⟨h1, h2, h3, h4⟩ := (s.chipAt t).peerConflict_shows hout hpending
    exact ⟨_, State.event_live s t _ hlive, h1, h2, h3, h4⟩
  · rintro s t peerIn c rfl hlive hen
    obtain ⟨h1, h2⟩ := (s.chipAt t).helloSend_shows peerIn hen
    refine ⟨_, State.event_live s t _ hlive, h1, h2.trans ?_⟩
    rw [State.chipAt_sent, List.nil_append]
  · rintro s t mseq role unit mode phase version schema c rfl hlive hen hturn
    obtain ⟨rx, hrx⟩ := ((s.chipAt t).peerFresh mseq).twnTake_heard
      (fun c => c.helloTaken role.toNat unit.toNat mode.toNat phase.toNat version.toNat schema) ((s.chipAt t).hears_peerFresh hen hturn)
    obtain ⟨h1, h2, h3, h4, h5, h6⟩ := (((s.chipAt t).peerFresh mseq).turned rx).helloTaken_shows phase.toNat schema role.isLt unit.isLt mode.isLt version.isLt
    have hwrong := (((s.chipAt t).peerFresh mseq).turned rx).helloTaken_wrong phase.toNat schema role.isLt unit.isLt mode.isLt version.isLt
    have hrole : (((s.chipAt t).peerFresh mseq).turned rx).role = (s.chipAt t).role := (Chip.rd_turned ..).trans (Chip.rd_peerFresh ..)
    rw [hrole] at hwrong
    rw [← hrx, ← Chip.hello_stages _ _ _ _ _ _ _ _ hen] at h1 h2 h3 h4 h5 h6 hwrong
    exact ⟨_, State.event_live s t _ hlive, h1, h2, h3, h4, h5, h6.trans ((s.chipAt t).now_peerFresh mseq), hwrong⟩
  · rintro s t c rfl hlive hp hdue
    obtain ⟨h1, h2⟩ := (s.chipAt t).helloTimeout_shows hp hdue
    exact ⟨_, State.event_live s t _ hlive, h1, h2⟩

end Sys2Proof.Machine
end

section
/-! SUPPORT. Rows of the running firmware on a part held in reset: the premises of some clauses ask that FW_READY is 1, which they can meet there too,
and a part held in reset does nothing at an event. -/

namespace Sys2Proof.Machine

theorem State.event_held (s : State) (t : Nat) (f : Chip → Chip) (h : (s.chipAt t).live = false) : s.event t f = .next (s.commit (s.chipAt t)) := by
  simp [State.event, State.run, Chip.when, h]

/-- A part held in reset whose FW_READY reads 1. -/
def Chip.heldReady : Chip := ({ pwr := { phase := .held } } : Chip).set TOP_STATUS_FW_READY

/-- Such a part with a cold takeover due. -/
def State.heldCold : State := { chip := { Chip.heldReady with twn := { coldDue := true } } }

/-- Refutes O56: its last clause has no premise that the part is not held in reset. In `State.heldCold` FW_READY is 1 and a cold takeover is due, and
COLD_TAKEOVER changes nothing, for the part is held. -/
theorem not_twinHandovers : ¬ Obligations.TwinHandovers := by
  unfold Obligations.TwinHandovers
  rintro ⟨-, -, -, -, -, -, -, hcold⟩
  obtain ⟨s', hexec, hdue, -⟩ := hcold State.heldCold 0 _ rfl (by decide +kernel) (by decide +kernel)
  have hrow : exec (.coldTakeover 0) State.heldCold = .next (State.heldCold.commit (State.heldCold.chipAt 0)) :=
    State.event_held _ _ _ (by decide +kernel)
  rw [hrow] at hexec
  obtain rfl := Host.Outcome.next.inj hexec
  revert hdue
  decide +kernel

/-- An image without settings. -/
def ConfigImage.empty : ConfigImage := ⟨[], [], [], 0, []⟩

/-- A standby held in reset, in SYNC_CONFIG with an image staged. -/
def State.heldStaged : State :=
  { chip := (({ Chip.heldReady with twn := { staged := some (ConfigImage.empty, 0) } } : Chip).wr TWN_STATE_MODE 2).wr TWN_STATE_PHASE 2 }

/-- Refutes O57: its clause on SYNC_CONFIG_DONE has no premise that the part is not held in reset. In `State.heldStaged` its premises hold, and the image
is still staged after the row, for the part is held. -/
theorem not_twinCopies : ¬ Obligations.TwinCopies := by
  unfold Obligations.TwinCopies
  rintro ⟨-, -, -, -, hdone, -⟩
  obtain ⟨s', hexec, hstaged, -⟩ := hdone State.heldStaged 0 0 true ConfigImage.empty _ rfl (by decide +kernel) (by decide +kernel) (by decide +kernel)
    (by decide +kernel) (by decide +kernel) (by decide +kernel)
  have hrow : exec (.syncConfigDone 0 true) State.heldStaged = .next (State.heldStaged.commit (State.heldStaged.chipAt 0)) :=
    State.event_held _ _ _ (by decide +kernel)
  rw [hrow] at hexec
  obtain rfl := Host.Outcome.next.inj hexec
  revert hstaged
  decide +kernel

/-- A request that waits for the peer's acknowledgement of command 0. -/
def Wait.forAck : Wait := { req := ⟨0, 0, 0, 0, 0, 0, []⟩, plan := {}, since := 0, ack := some 0 }

/-- A part held in reset that holds its peer in step and awaits an acknowledgement. -/
def State.heldAck : State := { chip := { Chip.heldReady with fw := { waits := [Wait.forAck] }, twn := { peerStep := true } } }

/-- Refutes O54: its clause on ACK_TIMEOUT has no premise that the part is not held in reset. In `State.heldAck` its premises hold, and the peer is still
in step after the row, for the part is held. -/
theorem not_twinForwards : ¬ Obligations.TwinForwards := by
  unfold Obligations.TwinForwards
  rintro ⟨-, -, -, -, htimeout, -⟩
  obtain ⟨s', hexec, hstep, -⟩ := htimeout State.heldAck 0 0 Wait.forAck _ rfl (by decide +kernel) (by decide +kernel) (by decide +kernel) rfl rfl
  have hrow : exec (.ackTimeout 0 0) State.heldAck = .next (State.heldAck.commit (State.heldAck.chipAt 0)) :=
    State.event_held _ _ _ (by decide +kernel)
  rw [hrow] at hexec
  obtain rfl := Host.Outcome.next.inj hexec
  revert hstep
  decide +kernel

/-- A part held in reset whose plane 0 counts and is LOCKED and whose servo has locked once. -/
def State.heldUnanchored : State :=
  { chip := ({ Chip.heldReady with planes := [{ counted := true }, {}], ptp := { firstLock := true } } : Chip).wr (REF_PLANE_STAT_STATE 0) 2 }

/-- Refutes O47: its clause on ANCHOR_SET has no premise that the part is not held in reset. In `State.heldUnanchored` its premises hold, and the plane
has no anchor after the row, for the part is held. -/
theorem not_flows : ¬ Obligations.Flows := by
  unfold Obligations.Flows
  rintro ⟨-, -, -, hanchor⟩
  obtain ⟨s', hexec, hvalid, -⟩ := hanchor State.heldUnanchored 0 0 _ rfl (by decide +kernel) (by decide +kernel) (by decide +kernel) (by decide +kernel)
    (by decide +kernel) (by decide +kernel)
  have hrow : exec (.anchorSet 0 0) State.heldUnanchored = .next (State.heldUnanchored.commit (State.heldUnanchored.chipAt 0)) :=
    State.event_held _ _ _ (by decide +kernel)
  rw [hrow] at hexec
  obtain rfl := Host.Outcome.next.inj hexec
  revert hvalid
  decide +kernel

end Sys2Proof.Machine
end

section
/-! SUPPORT. Compared epochs: their records, their outcome, and the messages about them. -/

namespace Sys2Proof.Machine

/-! ### Leaving step -/

/-- The field is none that leaving step writes. -/
def Fld.notLost (f : Fld) : Bool := f.notTwnMode && TWN_STATE_LOST_CAUSE.apart f && TWN_STATUS_LOST_STEP.apart f && f.off / 65536 != 1

section
variable (c : Chip) {f : Fld}

/-- A standby in step leaves it. -/
def Chip.stepLost (c : Chip) (cause : Nat) : Chip := ((c.twnTo 2 5).set TWN_STATUS_LOST_STEP).post 0x0F 0x0005 0 cause

theorem Chip.twnLose_stages (cause : Nat) : c.twnLose cause
    = if c.twnMode ≠ 2 ∨ c.twnPhase = 7 then c else (c.wr TWN_STATE_LOST_CAUSE cause).when (c.twnPhase == 6) (·.stepLost cause) := rfl

theorem Fld.notLost_iff : f.notLost = true ↔ f.notTwnMode = true ∧ TWN_STATE_LOST_CAUSE.apart f = true ∧ TWN_STATUS_LOST_STEP.apart f = true
    ∧ f.off / 65536 ≠ 1 := by
  simp only [Fld.notLost, Bool.and_eq_true, bne_iff_ne, ne_eq, and_assoc]

theorem Chip.rd_stepLost (cause : Nat) (h : f.notTwnMode = true) (hs : TWN_STATUS_LOST_STEP.apart f = true) (hp : f.off / 65536 ≠ 1) :
    (c.stepLost cause).rd f = c.rd f := by
  rw [Chip.stepLost, Chip.rd_post _ _ _ _ _ _ hp, Chip.rd_set_keeps _ hs, Chip.rd_twnTo _ _ _ h]

theorem Chip.rd_twnLose (cause : Nat) (h : f.notLost = true) : (c.twnLose cause).rd f = c.rd f := by
  obtain ⟨hmode, hcause, hstep, hpage⟩ := Fld.notLost_iff.1 h
  rw [Chip.twnLose_stages]
  split
  · rfl
  · rw [Chip.rd_when, Chip.rd_stepLost _ _ hmode hstep hpage, ite_self, Chip.rd_wr_keeps _ _ hcause]

theorem Chip.twn_twnLose (cause : Nat) : (c.twnLose cause).twn = c.twn :=
  (Chip.twnLose_within .refl (by decide) (by decide) : Chip.Within [0, 1, 112] [] c _).part .twn (by decide)

theorem Chip.when_cases (b : Bool) (k : Chip → Chip) : c.when b k = c ∨ c.when b k = k c := by
  cases b
  · exact .inl rfl
  · exact .inr rfl

theorem Chip.stepLost_state (cause : Nat) : (c.stepLost cause).twnMode = 2 ∧ (c.stepLost cause).twnPhase = 5 := by
  have hrd (f : Fld) (hs : TWN_STATUS_LOST_STEP.apart f = true) (hp : f.off / 65536 ≠ 1) : (c.stepLost cause).rd f = (c.twnTo 2 5).rd f := by
    rw [Chip.stepLost, Chip.rd_post _ _ _ _ _ _ hp, Chip.rd_set_keeps _ hs]
  exact ⟨(hrd _ (by decide) (by decide)).trans (c.mode_twnTo (by decide) 5), (hrd _ (by decide) (by decide)).trans (c.phase_twnTo 2 (by decide))⟩

theorem Chip.twnLose_state (cause : Nat) (hmode : c.twnMode = 2) (hphase : c.twnPhase ≠ 7) :
    (c.twnLose cause).twnMode = 2 ∧ (c.twnLose cause).twnPhase ≠ 7 := by
  rw [Chip.twnLose_stages, if_neg (by rintro (h | h); exacts [h hmode, hphase h])]
  have hcause (f : Fld) (h : TWN_STATE_LOST_CAUSE.apart f = true) : (c.wr TWN_STATE_LOST_CAUSE cause).rd f = c.rd f := Chip.rd_wr_keeps _ _ h
  rcases (c.wr TWN_STATE_LOST_CAUSE cause).when_cases (c.twnPhase == 6) (·.stepLost cause) with h | h
  · rw [h, Chip.twnMode, Chip.twnPhase, hcause _ (by decide), hcause _ (by decide)]
    exact ⟨hmode, hphase⟩
  · obtain ⟨h1, h2⟩ := (c.wr TWN_STATE_LOST_CAUSE cause).stepLost_state cause
    rw [h, h1, h2]
    decide

/-- The registers after a loss of step that a state copy follows. -/
theorem Chip.twnBreak_shows {cause : Nat} (hcause : cause < 16) (hmode : c.twnMode = 2) (hphase : c.twnPhase ≠ 7) :
    (c.twnBreak cause).twnPhase = 2 ∧ (c.twnBreak cause).rd TWN_STATE_LOST_CAUSE = cause
      ∧ (c.twnBreak cause).rd TWN_COUNTS_RESYNCS = min (2 ^ TWN_COUNTS_RESYNCS.w - 1) (c.rd TWN_COUNTS_RESYNCS + 1)
      ∧ ∀ q < 2, (c.twnBreak cause).get (TWN_MATCH q) = 0 := by
  obtain ⟨-, h1, h2, h3, h4⟩ := (c.twnLose cause).twnCopy_shows hcause (c.twnLose_state cause hmode hphase).1 (c.twnLose_state cause hmode hphase).2
  rw [c.rd_twnLose cause (by decide)] at h3
  exact ⟨h1, h2, h3, h4⟩

theorem Chip.rd_twnJudge (cause : Nat) (h : f.notLost = true) : (c.twnJudge cause).rd f = c.rd f := by
  obtain ⟨hmode, -, -, hpage⟩ := Fld.notLost_iff.1 h
  unfold Chip.twnJudge
  split
  · rfl
  · dsimp only
    split
    · rw [Chip.rd_post _ _ _ _ _ _ hpage, Chip.rd_twnTo _ _ _ hmode]
    · split
      · exact c.rd_twnLose cause h
      · rfl

theorem Chip.twn_twnJudge (cause : Nat) : (c.twnJudge cause).twn = c.twn :=
  (Chip.twnJudge_within .refl (by decide) (by decide) : Chip.Within [0, 1, 112] [] c _).part .twn (by decide)

/-! ### Records -/

theorem Chip.twnRec_key (q e : Nat) : (c.twnRec q e).plane = q ∧ (c.twnRec q e).epoch = e := by
  unfold Chip.twnRec
  cases h : c.twn.recs.find? fun r => r.plane == q && r.epoch == e with
  | none => exact ⟨rfl, rfl⟩
  | some r => simpa using List.find?_some h

theorem Chip.twnRec_of_recs {d : Chip} (h : d.twn.recs = c.twn.recs) (q e : Nat) : d.twnRec q e = c.twnRec q e := by rw [Chip.twnRec, h, Chip.twnRec]

theorem Chip.twnRec_setRec {q e : Nat} {r : TwnRec} (hq : r.plane = q) (he : r.epoch = e) : (c.setRec r).twnRec q e = r := by
  subst hq he
  unfold Chip.twnRec Chip.setRec
  rw [Chip.setTwn_twn]
  dsimp only
  rw [List.take_succ_cons, List.find?_cons_of_pos (by simp)]
  rfl

theorem Chip.rd_setRec (r : TwnRec) : (c.setRec r).rd f = c.rd f := Chip.setTwn_rd ..

theorem Chip.recs_tell (k : Nat) (b : List Nat) : (c.tell k b).twn.recs = c.twn.recs := by
  unfold Chip.tell
  split <;> rfl

/-! ### The outcome of an epoch -/

/-- The registers of an outcome. -/
def Chip.outcomeShown (c : Chip) (r : TwnRec) (o : Nat) (keep : Bool) : Chip :=
  (c.put (TWN_CMP_EPOCH r.plane) r.epoch).wr (TWN_MATCH_MATCH_RUN r.plane) (matchRun (c.rd (TWN_MATCH_MATCH_RUN r.plane)) o keep)

/-- The lists of an outcome. -/
def Chip.outcomeListed (c : Chip) (r : TwnRec) (o : Nat) : Chip :=
  let h := (r.plane, r.epoch, o, (r.own.getD []).take 2) :: c.twn.history
  c.setTwn { c.twn with
    history := (h.filter fun e => e.1 == 0).take 64 ++ (h.filter fun e => e.1 == 1).take 64
    noMatch := putAt 2 0 c.twn.noMatch r.plane (if o = 0 ∨ o = 7 then 0 else c.twn.noMatch.getD r.plane 0 + 1) }

theorem Chip.twnOutcome_stages (r : TwnRec) (o : Nat) (keep : Bool) (cause : Nat) :
    c.twnOutcome r o keep cause = (((c.setRec { r with outcome := some o }).outcomeShown r o keep).outcomeListed r o).twnJudge cause := rfl

theorem Chip.recs_outcomeShown (r : TwnRec) (o : Nat) (keep : Bool) : (c.outcomeShown r o keep).twn = c.twn := (Chip.wr_twn ..).trans (Chip.put_twn ..)

theorem Chip.rd_outcomeListed (r : TwnRec) (o : Nat) : (c.outcomeListed r o).rd f = c.rd f := Chip.setTwn_rd ..

theorem Chip.recs_outcomeListed (r : TwnRec) (o : Nat) : (c.outcomeListed r o).twn.recs = c.twn.recs := rfl

theorem Chip.twnRec_twnOutcome {r : TwnRec} {q e : Nat} (hq : r.plane = q) (he : r.epoch = e) (o : Nat) (keep : Bool) (cause : Nat) :
    (c.twnOutcome r o keep cause).twnRec q e = { r with outcome := some o } := by
  have hrecs : (c.twnOutcome r o keep cause).twn.recs = (c.setRec { r with outcome := some o }).twn.recs := by
    rw [Chip.twnOutcome_stages, Chip.twn_twnJudge, Chip.recs_outcomeListed, Chip.recs_outcomeShown]
  rw [Chip.twnRec_of_recs _ hrecs, Chip.twnRec_setRec _ (r := { r with outcome := some o }) hq he]

theorem matchRun_lt {run : Nat} (h : run < 256) (o : Nat) (keep : Bool) : matchRun run o keep < 256 := by
  unfold matchRun
  split
  · omega
  · split <;> omega
  · split <;> omega
  · exact h

theorem Chip.run_lt (q : Nat) : c.rd (TWN_MATCH_MATCH_RUN q) < 256 := c.rd_lt (TWN_MATCH_MATCH_RUN q)

theorem Chip.run_twnOutcome {q : Nat} (hq : q < 2) {r : TwnRec} (hr : r.plane = q) (o : Nat) (keep : Bool) (cause : Nat) :
    (c.twnOutcome r o keep cause).rd (TWN_MATCH_MATCH_RUN q) = matchRun (c.rd (TWN_MATCH_MATCH_RUN q)) o keep := by
  have hlost : (TWN_MATCH_MATCH_RUN q).notLost = true := by rcases (by omega : q = 0 ∨ q = 1) with rfl | rfl <;> decide
  rw [Chip.twnOutcome_stages, Chip.rd_twnJudge _ _ hlost, Chip.rd_outcomeListed, Chip.outcomeShown, hr, Chip.rd_setRec]
  exact Chip.rd_wr_lt rfl (matchRun_lt (c.run_lt q) o keep)

/-! ### The comparison of an epoch -/

theorem Chip.compare_match {q e : Nat} {a : List Nat} (hout : (c.twnRec q e).outcome = none) (hown : (c.twnRec q e).own = some a)
    (hpeer : (c.twnRec q e).peer = some a) :
    c.compare q e = c.twnOutcome (c.twnRec q e) (if ((c.twnRec q e).mask.getD []).isEmpty then 0 else 7) false 4 := by
  unfold Chip.compare
  dsimp only
  rw [hout, hown, hpeer]
  exact if_pos rfl

theorem Chip.compare_differs {q e : Nat} {a b : List Nat} (hne : a ≠ b) (hout : (c.twnRec q e).outcome = none) (hown : (c.twnRec q e).own = some a)
    (hpeer : (c.twnRec q e).peer = some b) :
    c.compare q e = c.tell 7 ([q, e] ++ (c.twnRec q e).crcs.flatMap fun x => [x.1, x.2 % 2 ^ 32, x.2 / 2 ^ 32]) := by
  unfold Chip.compare
  dsimp only
  rw [hout, hown, hpeer]
  exact if_neg hne

/-- A comparison adds at most an outcome to the record. -/
theorem Chip.twnRec_compare (q e : Nat) : ∃ o, (c.compare q e).twnRec q e = { c.twnRec q e with outcome := o } := by
  obtain ⟨hq, he⟩ := c.twnRec_key q e
  unfold Chip.compare
  dsimp only
  split
  · split
    · exact ⟨_, Chip.twnRec_twnOutcome _ hq he _ _ _⟩
    · exact ⟨_, Chip.twnRec_of_recs _ (c.recs_tell ..) q e⟩
  · exact ⟨_, rfl⟩

theorem Chip.twnRec_compare_crema {q e : Nat} {w : List Nat} (hpeer : (c.twnRec q e).peer = some w) :
    ((c.compare q e).twnRec q e).peer = some w := by
  obtain ⟨o, ho⟩ := c.twnRec_compare q e
  rw [ho, hpeer]

/-! ### Messages about an epoch -/

/-- The word of the peer is kept. -/
def Chip.peerWord (c : Chip) (q e : Nat) (w : List Nat) : Chip := c.setRec { c.twnRec q e with peer := some w }

theorem Chip.twnRec_peerWord (q e : Nat) (w : List Nat) : (c.peerWord q e w).twnRec q e = { c.twnRec q e with peer := some w } :=
  Chip.twnRec_setRec c (r := { c.twnRec q e with peer := some w }) (c.twnRec_key q e).1 (c.twnRec_key q e).2

theorem Chip.crema_stages (q e : Nat) (w : List Nat) (h : c.twnCompares = true) : c.crema q e w = (c.peerWord q e w).compare q e :=
  if_neg (by rw [h]; decide)

theorem Chip.crema_match {q e : Nat} (hq : q < 2) {w m : List Nat} (h : c.twnCompares = true) (hown : (c.twnRec q e).own = some w)
    (hout : (c.twnRec q e).outcome = none) (hmask : (c.twnRec q e).mask = some m) :
    ((c.crema q e w).twnRec q e).outcome = some (if m.isEmpty then 0 else 7)
      ∧ (c.crema q e w).rd (TWN_MATCH_MATCH_RUN q)
        = if m.isEmpty then min 255 (c.rd (TWN_MATCH_MATCH_RUN q) + 1) else c.rd (TWN_MATCH_MATCH_RUN q) := by
  have hrec := c.twnRec_peerWord q e w
  obtain ⟨hplane, hepoch⟩ := (c.peerWord q e w).twnRec_key q e
  rw [c.crema_stages q e w h, Chip.compare_match _ (a := w) (by rw [hrec]; exact hout) (by rw [hrec]; exact hown) (by rw [hrec]),
    Chip.twnRec_twnOutcome _ hplane hepoch, Chip.run_twnOutcome _ hq hplane, hrec]
  dsimp only
  rw [hmask, Option.getD_some, Chip.peerWord, Chip.rd_setRec]
  cases m.isEmpty
  · exact ⟨rfl, rfl⟩
  · exact ⟨rfl, rfl⟩

theorem Chip.crema_differs {q e : Nat} {w own : List Nat} (h : c.twnCompares = true) (hown : (c.twnRec q e).own = some own) (hne : own ≠ w)
    (hout : (c.twnRec q e).outcome = none) :
    ((c.crema q e w).twnRec q e).outcome = none ∧ ((c.crema q e w).twnRec q e).peer = some w
      ∧ (c.crema q e w).rd (TWN_MATCH_MATCH_RUN q) = c.rd (TWN_MATCH_MATCH_RUN q) := by
  have hrec := c.twnRec_peerWord q e w
  rw [c.crema_stages q e w h, Chip.compare_differs _ hne (by rw [hrec]; exact hout) (by rw [hrec]; exact hown) (by rw [hrec]),
    Chip.twnRec_of_recs _ (Chip.recs_tell ..), hrec, Chip.rd_tell, Chip.peerWord, Chip.rd_setRec]
  exact ⟨hout, rfl, rfl⟩

theorem Chip.cremaMissing_shows {q e : Nat} (hq : q < 2) {w : List Nat} (h : c.twnCompares = true) (hown : (c.twnRec q e).own = some w)
    (hout : (c.twnRec q e).outcome = none) (hpeer : (c.twnRec q e).peer = none) (hdue : (c.twnRec q e).ownAt + ms 2 ≤ c.now) :
    ((c.cremaMissing q e).twnRec q e).outcome = some 6
      ∧ (c.cremaMissing q e).rd (TWN_MATCH_MATCH_RUN q)
        = if (if c.rd TWN_STATE_MODE = 2 then !(c.on TWN_STATE_PEER_IN) else !(c.on TWN_PEER_PRESENT)) then c.rd (TWN_MATCH_MATCH_RUN q) else 0 := by
  obtain ⟨hplane, hepoch⟩ := c.twnRec_key q e
  have heq : c.cremaMissing q e = c.twnOutcome (c.twnRec q e) 6
      (if c.twnMode = 2 then !(c.on TWN_STATE_PEER_IN) else !(c.on TWN_PEER_PRESENT)) 5 :=
    if_pos (by rw [h, hown, hout, hpeer, decide_eq_true hdue]; rfl)
  rw [heq, Chip.twnRec_twnOutcome _ hplane hepoch, Chip.run_twnOutcome _ hq hplane]
  exact ⟨rfl, rfl⟩

/-! ### The word of an epoch -/

/-- The CRCs of an epoch that its word is computed over. -/
def Chip.crcsKept (c : Chip) (q : Nat) (m : List Nat) (crcs : List (Nat × Nat)) : List (Nat × Nat) :=
  (crcs.filter fun x => dstOffered c.role x.1 && c.dstPlane x.1 == q && !(m.contains x.1)).map fun x => (x.1, x.2 % 2 ^ 64)

/-- The word of an epoch. -/
def Chip.wordOf (c : Chip) (q e : Nat) (m : List Nat) (kept : List (Nat × Nat)) : List Nat :=
  sha3 (cremaBytes q e (c.configSeq q e) (if q = c.enginePlane then (c.twn.audCrcs.lookup e).getD 0 else 0) m kept)

/-- The word is shown, kept and told. -/
def Chip.wordKept (c : Chip) (q e : Nat) (r : TwnRec) (w m : List Nat) (kept : List (Nat × Nat)) : Chip :=
  ((c.showCrema q w).setRec { r with own := some w, ownAt := c.now, mask := some m, crcs := kept }).tell 6 ([q, e] ++ w)

theorem Chip.cremaCompute_stages {q e : Nat} {m : List Nat} (crcs : List (Nat × Nat)) (h : c.twnCompares = true) (hcount : (c.plane q).counted = true)
    (he : e = sub32 (c.epochNow q) 1) (hown : (c.twnRec q e).own = none) (hout : (c.twnRec q e).outcome = none) (hmask : (c.twnRec q e).mask = some m) :
    c.cremaCompute q crcs = ((c.put (TWN_CONFIG_SEQ q) (c.configSeq q e)).wordKept q e (c.twnRec q e) (c.wordOf q e m (c.crcsKept q m crcs)) m
      (c.crcsKept q m crcs)).compare q e := by
  rw [Chip.cremaCompute, ← he, if_neg (by rw [h, hcount, hown, hout]; decide)]
  extract_lets mask kept cfg aud c1
  have hused : mask = some m := by
    simp only [mask]
    rw [hmask, Option.getD_some, ite_self]
  clear_value mask
  subst hused
  rfl

theorem Chip.cremaCompute_shows {q e : Nat} {m : List Nat} (crcs : List (Nat × Nat)) (h : c.twnCompares = true) (hcount : (c.plane q).counted = true)
    (he : e = sub32 (c.epochNow q) 1) (hown : (c.twnRec q e).own = none) (hout : (c.twnRec q e).outcome = none) (hmask : (c.twnRec q e).mask = some m) :
    ((c.cremaCompute q crcs).twnRec q e).own = some (c.wordOf q e m (c.crcsKept q m crcs))
      ∧ ((c.cremaCompute q crcs).twnRec q e).crcs = c.crcsKept q m crcs := by
  obtain ⟨hplane, hepoch⟩ := c.twnRec_key q e
  rw [c.cremaCompute_stages crcs h hcount he hown hout hmask]
  generalize c.wordOf q e m (c.crcsKept q m crcs) = w
  obtain ⟨o, ho⟩ := ((c.put (TWN_CONFIG_SEQ q) (c.configSeq q e)).wordKept q e (c.twnRec q e) w m (c.crcsKept q m crcs)).twnRec_compare q e
  rw [ho, Chip.wordKept, Chip.twnRec_of_recs _ (Chip.recs_tell ..), Chip.twnRec_setRec _ (by exact hplane) (by exact hepoch)]
  exact ⟨rfl, rfl⟩

/-! ### Lists and evidence -/

theorem Chip.recs_askHandover (cause after : Nat) (faulty : Bool) : (c.askHandover cause after faulty).twn.recs = c.twn.recs := by
  unfold Chip.askHandover
  split
  · rfl
  · rw [Chip.twn_twnShow, Chip.recs_tell]
    rfl

theorem Chip.recs_twnFaulty : c.twnFaulty.twn.recs = c.twn.recs := by
  unfold Chip.twnFaulty
  split
  · rw [Chip.twn_twnTo]
  · rfl

/-- The handover asked for is taken back. -/
def Chip.handoverDropped (c : Chip) : Chip := ((c.setTwn { c.twn with handover := none, faulty := false }).tell 9 [0, 0]).twnShow

theorem Chip.recs_handoverDropped : c.handoverDropped.twn.recs = c.twn.recs := by
  rw [Chip.handoverDropped, Chip.twn_twnShow, Chip.recs_tell]
  rfl

/-- What a fault found by either part leads to (R569). -/
def Chip.faultActed (c : Chip) (mine theirs : Bool) : Chip :=
  let c := c.when (mine && c.twnMode == 1) (·.askHandover 2 (us 100) true)
  let c := c.when (mine && c.twnMode == 2) (·.twnFaulty)
  c.when (theirs && !mine && c.twnMode == 1 && c.twn.handover.isSome) (·.handoverDropped)

theorem Chip.recs_faultActed (mine theirs : Bool) : (c.faultActed mine theirs).twn.recs = c.twn.recs := by
  unfold Chip.faultActed
  extract_lets c1 c2
  have h1 : c1.twn.recs = c.twn.recs := Chip.when_keeps (·.twn.recs) c _ (c.recs_askHandover ..)
  have h2 : c2.twn.recs = c1.twn.recs := Chip.when_keeps (·.twn.recs) c1 _ c1.recs_twnFaulty
  exact (Chip.when_keeps (·.twn.recs) c2 _ c2.recs_handoverDropped).trans (h2.trans h1)

/-- A mismatch that is classified adds at most an outcome to its record. -/
theorem Chip.twnRec_classify {q e : Nat} {r : TwnRec} (hq : r.plane = q) (he : r.epoch = e) (hrec : c.twnRec q e = r) :
    ∃ o, (c.classify r).twnRec q e = { r with outcome := o } := by
  unfold Chip.classify
  split
  · extract_lets q' e' ds cls info c1 c2 c3 c4 mine theirs onActive c5
    split
    · exact ⟨_, Chip.twnRec_twnOutcome _ hq he _ _ _⟩
    · refine ⟨_, (Chip.twnRec_of_recs c5 ?_ q e).trans (Chip.twnRec_twnOutcome _ hq he _ _ _)⟩
      exact Chip.recs_faultActed c5 mine theirs
  · exact ⟨_, hrec⟩

/-! ### What the messages about an epoch leave -/

section
variable {c} {c₀ : Chip} {q e : Nat} {r : TwnRec}

theorem Chip.twnOutcome_within {o cause : Nat} {keep : Bool} (hr : r.plane < 2) (hw : Chip.Within [0, 1, 112] [.sent, .twn] c₀ c) :
    Chip.Within [0, 1, 112] [.sent, .twn] c₀ (c.twnOutcome r o keep cause) := by
  rw [Chip.twnOutcome_stages]
  refine Chip.twnJudge_within (Chip.setTwn_within ?_ (by decide) (by decide)) (by decide) (by decide)
  refine ((Chip.setRec_within hw (by decide) (by decide)).put ?_).wr ?_
  · rcases (by omega : r.plane = 0 ∨ r.plane = 1) with h | h <;> rw [h] <;> decide
  · rcases (by omega : r.plane = 0 ∨ r.plane = 1) with h | h <;> rw [h] <;> decide

theorem Chip.compare_within (hq : q < 2) (hw : Chip.Within [0, 1, 112] [.sent, .twn] c₀ c) :
    Chip.Within [0, 1, 112] [.sent, .twn] c₀ (c.compare q e) := by
  have hplane : (c.twnRec q e).plane < 2 := by rw [(c.twnRec_key q e).1]; exact hq
  unfold Chip.compare
  dsimp only
  split
  · exact Chip.Within.ite (fun _ => Chip.twnOutcome_within hplane hw) fun _ => Chip.tell_within hw (by decide) (by decide)
  · exact hw

theorem Chip.crema_within {w : List Nat} (hq : q < 2) : Chip.Within [0, 1, 112] [.sent, .twn] c (c.crema q e w) := by
  unfold Chip.crema
  exact Chip.Within.ite (fun _ => .refl) fun _ => Chip.compare_within hq (Chip.setRec_within .refl (by decide) (by decide))

theorem Chip.faultActed_within {mine theirs : Bool} (hw : Chip.Within [0, 1, 112] [.sent, .twn] c₀ c) :
    Chip.Within [0, 1, 112] [.sent, .twn] c₀ (c.faultActed mine theirs) := by
  unfold Chip.faultActed
  refine ((hw.when' fun x => ?_).when' fun x => ?_).when' fun x => ?_
  · exact Chip.askHandover_within .refl (by decide) (by decide)
  · exact Chip.twnFaulty_within .refl (by decide) (by decide)
  · exact Chip.twnShow_within (Chip.tell_within (Chip.setTwn_within .refl (by decide) (by decide)) (by decide) (by decide)) (by decide) (by decide)

/-- The class of a destination that diverges is one of five (R566). -/
theorem Chip.divClass_le {d : Nat} {peer : List Evid} {miss : Bool} : c.divClass q e d peer miss ≤ 5 := by
  unfold Chip.divClass
  dsimp only
  repeat' split
  all_goals omega

theorem Chip.classes_le (peer : List Evid) (miss : Bool) (ds : List Nat) :
    (if ds.isEmpty then c.divClass q e 511 peer miss else (ds.map fun d => c.divClass q e d peer miss).foldl max 1) ≤ 5 := by
  have hfold (l : List Nat) (a : Nat) (ha : a ≤ 5) (hl : ∀ x ∈ l, x ≤ 5) : l.foldl max a ≤ 5 := by
    induction l generalizing a with
    | nil => exact ha
    | cons x xs ih => exact ih _ (Nat.max_le.2 ⟨ha, hl x (by simp)⟩) fun y hy => hl y (by simp [hy])
  split
  · exact c.divClass_le
  · refine hfold _ _ (by decide) fun x hx => ?_
    obtain ⟨d, -, rfl⟩ := List.mem_map.1 hx
    exact c.divClass_le

theorem Chip.classify_within (hr : r.plane < 2) (hw : Chip.Within [0, 1, 112] [.sent, .twn] c₀ c) :
    Chip.Within [0, 1, 112] [.sent, .twn] c₀ (c.classify r) := by
  unfold Chip.classify
  split
  · extract_lets q' e' ds cls info c1 c2 c3 c4 mine theirs onActive c5
    have hcls : cls ≤ 5 := c.classes_le ..
    have h1 : Chip.Within [0, 1, 112] [.sent, .twn] c₀ c1 := ((hw.put (by decide)).put (by decide)).set (by decide)
    have hcount : (TWN_DIV_CNT_COUNT (cls - 1)).off / 65536 ∈ [0, 1, 112] := by
      generalize hk : cls - 1 = k
      have hk5 : k < 5 := by omega
      clear_value cls
      interval_cases k <;> decide
    have h3 : Chip.Within [0, 1, 112] [.sent, .twn] c₀ c3 := Chip.setTwn_within ((h1.inc hcount).post (by decide)) (by decide) (by decide)
    split
    · exact Chip.twnOutcome_within hr h3
    · exact Chip.faultActed_within (Chip.twnOutcome_within hr (h3.set (by decide)))
  · exact hw

theorem Chip.crcListIn_within {crcs : List (Nat × Nat)} (hq : q < 2) : Chip.Within [0, 1, 112] [.sent, .twn] c (c.crcListIn q e crcs) := by
  have hplane : (c.twnRec q e).plane < 2 := by rw [(c.twnRec_key q e).1]; exact hq
  unfold Chip.crcListIn
  exact Chip.Within.ite (fun _ => .refl) fun _ => Chip.classify_within hplane
    (Chip.tell_within (Chip.setRec_within .refl (by decide) (by decide)) (by decide) (by decide))

theorem Chip.evidenceIn_within {ev : List Evid} {diag : Nat} (hq : q < 2) : Chip.Within [0, 1, 112] [.sent, .twn] c (c.evidenceIn q e ev diag) := by
  have hplane : (c.twnRec q e).plane < 2 := by rw [(c.twnRec_key q e).1]; exact hq
  unfold Chip.evidenceIn
  exact Chip.Within.ite (fun _ => .refl) fun _ => Chip.classify_within hplane (Chip.setRec_within .refl (by decide) (by decide))

end

/-! ### What the messages about an epoch keep of it -/

theorem Chip.maskIn_keeps_mask {q e : Nat} (m : List Nat) (hmode : c.rd TWN_STATE_MODE = 1) : ((c.maskIn q e m).twnRec q e).mask = some m := by
  obtain ⟨hq, he⟩ := c.twnRec_key q e
  rw [show c.maskIn q e m = c.setRec { c.twnRec q e with mask := some m } from if_pos hmode, Chip.twnRec_setRec _ (by exact hq) (by exact he)]

theorem Chip.crcListIn_keeps_crcs {q e : Nat} (crcs : List (Nat × Nat)) (h : c.twnCompares = true) :
    ((c.crcListIn q e crcs).twnRec q e).peerCrcs = some crcs := by
  obtain ⟨hq, he⟩ := c.twnRec_key q e
  have hrec (body : List Nat) : ((c.setRec { c.twnRec q e with peerCrcs := some crcs }).tell 8 body).twnRec q e = { c.twnRec q e with peerCrcs := some crcs } :=
    (Chip.twnRec_of_recs _ (Chip.recs_tell ..) q e).trans (Chip.twnRec_setRec c (by exact hq) (by exact he))
  obtain ⟨o, ho⟩ := Chip.twnRec_classify _ (by exact hq) (by exact he) (hrec _)
  rw [Chip.crcListIn, if_neg (by rw [h]; decide)]
  exact congrArg TwnRec.peerCrcs ho

theorem Chip.evidenceIn_keeps_evidence {q e : Nat} (ev : List Evid) (diag : Nat) (h : c.twnCompares = true) :
    ((c.evidenceIn q e ev diag).twnRec q e).peerEv = some (ev, diag) := by
  obtain ⟨hq, he⟩ := c.twnRec_key q e
  obtain ⟨o, ho⟩ := Chip.twnRec_classify (c.setRec { c.twnRec q e with peerEv := some (ev, diag) }) (by exact hq) (by exact he)
    (Chip.twnRec_setRec c (by exact hq) (by exact he))
  rw [Chip.evidenceIn, if_neg (by rw [h]; decide)]
  exact congrArg TwnRec.peerEv ho

theorem Chip.noMatchResync_shows {q : Nat} (hq : q < 2) (hmode : c.rd TWN_STATE_MODE = 2) (hphase : c.rd TWN_STATE_PHASE ≠ 7)
    (hmany : 64 ≤ c.twn.noMatch.getD q 0) :
    (c.noMatchResync q).rd TWN_STATE_PHASE = 2 ∧ (c.noMatchResync q).rd TWN_STATE_LOST_CAUSE = 8
      ∧ (c.noMatchResync q).rd TWN_COUNTS_RESYNCS = min (2 ^ TWN_COUNTS_RESYNCS.w - 1) (c.rd TWN_COUNTS_RESYNCS + 1)
      ∧ (c.noMatchResync q).rd (TWN_MATCH_MATCH_RUN q) = 0 := by
  obtain ⟨h1, h2, h3, h4⟩ := c.twnBreak_shows (cause := 8) (by decide) hmode hphase
  rw [show c.noMatchResync q = c.twnBreak 8 from if_pos ⟨hmode, hphase, hmany⟩]
  refine ⟨h1, h2, h3, ?_⟩
  exact (congrArg (bits · 0 8) (h4 q hq)).trans rfl

end

theorem Chip.twnCompares_turned (c : Chip) (rx : List (Nat × List (Nat × Nat))) : (c.turned rx).twnCompares = c.twnCompares := by
  unfold Chip.twnCompares Chip.twnMode
  rw [Chip.on_turned, Chip.rd_turned]
  rfl

theorem State.twnRec_commit (s : State) (c : Chip) (q e : Nat) : (s.commit c).chip.twnRec q e = c.twnRec q e := rfl

/-- A message about an epoch, heard: its record and MATCH_RUN are those that the message leaves. -/
theorem State.message_epoch {s : State} {t m : Nat} {f : Chip → Chip} (hlive : (s.chipAt t).live = true) (hbus : (s.chipAt t).bus.outs = [])
    (hh : (s.chipAt t).hears 1 m = true) (hf : ∀ c, Chip.Within [0, 1, 112] [.sent, .twn] c (f c)) :
    ∃ rx s', s.message t 1 m f = .next s' ∧ (∀ q e, s'.chip.twnRec q e = (f ((s.chipAt t).turned rx)).twnRec q e)
      ∧ ∀ q < 2, s'.chip.rd (TWN_MATCH_MATCH_RUN q) = (f ((s.chipAt t).turned rx)).rd (TWN_MATCH_MATCH_RUN q) := by
  obtain ⟨rx, hrx⟩ := State.message_heard s t f hlive hh fun rx => (congrArg Bus.outs ((hf _).part .bus (by decide))).trans hbus
  refine ⟨rx, _, hrx, fun q e => ?_, fun q hq => ?_⟩
  · have htwn : (f ((s.chipAt t).turned rx)).busShow.twn = (f ((s.chipAt t).turned rx)).twn := Chip.busShow_only _ .twn (by simp)
    exact (State.twnRec_commit ..).trans (Chip.twnRec_of_recs _ (congrArg Twn.recs htwn) q e)
  · refine (State.commit_rd ..).trans (Chip.rd_busShow _ ?_)
    rcases (by omega : q = 0 ∨ q = 1) with rfl | rfl <;> decide

/-- Settles O55: of a compared epoch each row changes the record of that epoch alone, and adds to it what its message or the comparison gives. -/
theorem twinCompares : Obligations.TwinCompares := by
  unfold Obligations.TwinCompares
  refine ⟨?_, ?_, ?_, ?_, ?_, ?_, ?_, ?_⟩
  · rintro s t mseq q e m c rfl hlive hbus hh hmode
    obtain ⟨rx, s', hs, hrec, -⟩ := State.message_epoch (f := (·.maskIn q.val e m)) hlive hbus hh fun c => Chip.maskIn_within .refl (by decide) (by decide)
    exact ⟨s', hs, (congrArg TwnRec.mask (hrec q.val e)).trans (Chip.maskIn_keeps_mask _ m ((Chip.rd_turned ..).trans hmode))⟩
  · rintro s t q crcs e m aud kept c rfl hlive hcmp hcount he hown hout hmask rfl rfl
    obtain ⟨h1, h2⟩ := (s.chipAt t).cremaCompute_shows crcs hcmp hcount he hown hout hmask
    exact ⟨_, State.event_live s t _ hlive, h1, h2⟩
  · rintro s t mseq q e w m c rfl hlive hbus hh hcmp hown hout hmask
    obtain ⟨rx, s', hs, hrec, hrun⟩ := State.message_epoch (f := (·.crema q.val e w)) hlive hbus hh fun c => Chip.crema_within q.isLt
    obtain ⟨h1, h2⟩ := ((s.chipAt t).turned rx).crema_match q.isLt ((Chip.twnCompares_turned _ rx).trans hcmp) hown hout hmask
    exact ⟨s', hs, (congrArg TwnRec.outcome (hrec q.val e)).trans h1, (hrun q.val q.isLt).trans h2⟩
  · rintro s t q e w c rfl hlive hcmp hown hout hpeer hdue - -
    obtain ⟨h1, h2⟩ := (s.chipAt t).cremaMissing_shows q.isLt hcmp hown hout hpeer hdue
    exact ⟨_, State.event_live s t _ hlive, h1, h2⟩
  · rintro s t mseq q e crcs c rfl hlive hbus hh hcmp
    obtain ⟨rx, s', hs, hrec, -⟩ := State.message_epoch (f := (·.crcListIn q.val e crcs)) hlive hbus hh fun c => Chip.crcListIn_within q.isLt
    exact ⟨s', hs, (congrArg TwnRec.peerCrcs (hrec q.val e)).trans (Chip.crcListIn_keeps_crcs _ crcs ((Chip.twnCompares_turned _ rx).trans hcmp))⟩
  · rintro s t mseq q e recs diag c rfl hlive hbus hh hcmp
    obtain ⟨rx, s', hs, hrec, -⟩ := State.message_epoch (f := (·.evidenceIn q.val e recs diag)) hlive hbus hh fun c => Chip.evidenceIn_within q.isLt
    exact ⟨s', hs, (congrArg TwnRec.peerEv (hrec q.val e)).trans (Chip.evidenceIn_keeps_evidence _ recs diag ((Chip.twnCompares_turned _ rx).trans hcmp))⟩
  · rintro s t q c rfl hlive hmode hphase hmany
    obtain ⟨h1, h2, h3, h4⟩ := (s.chipAt t).noMatchResync_shows q.isLt hmode hphase hmany
    exact ⟨_, State.event_live s t _ hlive, h1, h2, h3, h4⟩
  · rintro s t mseq q e w own c rfl hlive hbus hh hcmp hown hne hout
    obtain ⟨rx, s', hs, hrec, hrun⟩ := State.message_epoch (f := (·.crema q.val e w)) hlive hbus hh fun c => Chip.crema_within q.isLt
    obtain ⟨h1, h2, h3⟩ := ((s.chipAt t).turned rx).crema_differs ((Chip.twnCompares_turned _ rx).trans hcmp) hown hne hout
    exact ⟨s', hs, (congrArg TwnRec.outcome (hrec q.val e)).trans h1, (congrArg TwnRec.peer (hrec q.val e)).trans h2, (hrun q.val q.isLt).trans h3⟩

end Sys2Proof.Machine
end

section
/-! SUPPORT. The watchdogs and master resets of the bus matrix. -/

namespace Sys2Proof.Machine

section
variable (c : Chip) {f : Fld}

theorem Chip.rd_busShow_other (h : ∀ m < 10, (BUS_MST_STAT m).off ≠ f.off) : c.busShow.rd f = c.rd f := by
  refine Chip.each_keeps (fun c => c.rd f) _ _ (fun c m hm => ?_) c
  have hne := h m (List.mem_range.1 hm)
  exact ((Chip.rd_wr_other _ _ _ _ hne).trans (Chip.rd_wr_other _ _ _ _ hne)).trans (Chip.rd_wr_other _ _ _ _ hne)

theorem Chip.bus_busShow : c.busShow.bus = c.bus := c.busShow_only .bus (by simp)

/-! ### An error response -/

/-- The error is counted and flagged. -/
def Chip.errCounted (c : Chip) (a : BusAcc) (kind : Nat) : Chip :=
  ((c.inc (BUS_MST_ERR_COUNT a.m)).set BUS_STATUS_ERR).when (kind == 1) (·.set BUS_STATUS_FIREWALL)

/-- The words of a captured error. -/
def Chip.errWords (c : Chip) (a : BusAcc) (kind : Nat) : Chip :=
  ((c.put BUS_ERR_ADDR_LO (a.addr % 2 ^ 32)).put BUS_ERR_ADDR_HI (a.addr / 2 ^ 32 % 2 ^ 12)).put BUS_ERR_INFO
    (a.m + kind * 2 ^ 4 + b2n a.write * 2 ^ 7 + a.id * 2 ^ 8 + b2n a.user * 2 ^ 12 + 2 ^ 13)

/-- The error is captured unless a capture is held. -/
def Chip.errCaptured (c : Chip) (a : BusAcc) (kind : Nat) : Chip :=
  c.when (!(kind == 3 && a.poison && busRegion a.addr == some 7 && (c.chansAbsent a).isEmpty) && !(c.on BUS_ERR_INFO_VALID)) (·.errWords a kind)

/-- The error response is given. -/
def Chip.errAnswered (c : Chip) (a : BusAcc) (kind : Nat) : Chip := { c with bus := { c.bus with resps := c.bus.resps ++ [(a.m, a.id, kind, [])] } }

theorem Chip.busError_stages (a : BusAcc) (kind : Nat) : c.busError a kind = ((c.errCounted a kind).errCaptured a kind).errAnswered a kind := rfl

theorem Chip.rd_errCaptured (a : BusAcc) (kind : Nat) (hlo : BUS_ERR_ADDR_LO.off ≠ f.off) (hhi : BUS_ERR_ADDR_HI.off ≠ f.off)
    (hinfo : BUS_ERR_INFO.off ≠ f.off) : (c.errCaptured a kind).rd f = c.rd f := by
  refine Chip.when_keeps (·.rd f) _ _ ?_
  rw [Chip.errWords, Chip.rd_put_other _ _ _ _ hinfo, Chip.rd_put_other _ _ _ _ hhi, Chip.rd_put_other _ _ _ _ hlo]

theorem Chip.bus_errCaptured (a : BusAcc) (kind : Nat) : (c.errCaptured a kind).bus = c.bus := by
  refine Chip.when_keeps (·.bus) _ _ ?_
  rw [Chip.errWords, Chip.put_bus, Chip.put_bus, Chip.put_bus]

theorem Chip.bus_errCounted (a : BusAcc) (kind : Nat) : (c.errCounted a kind).bus = c.bus := by
  have hset (c : Chip) : (c.set BUS_STATUS_FIREWALL).bus = c.bus := Chip.wr_bus ..
  rw [Chip.errCounted, Chip.when_keeps (·.bus) _ _ (hset _), Chip.set_def, Chip.wr_bus, Chip.inc_def, Chip.wr_bus]

theorem Chip.rd_errCounted (a : BusAcc) (kind : Nat) (h : BUS_STATUS.off ≠ f.off) :
    (c.errCounted a kind).rd f = (c.inc (BUS_MST_ERR_COUNT a.m)).rd f := by
  have herr (c : Chip) : (c.set BUS_STATUS_ERR).rd f = c.rd f := Chip.rd_wr_other _ _ _ _ h
  have hwall (c : Chip) : (c.set BUS_STATUS_FIREWALL).rd f = c.rd f := Chip.rd_wr_other _ _ _ _ h
  rw [Chip.errCounted, Chip.rd_when, hwall, ite_self, herr]

theorem Chip.errCounted_flags (a : BusAcc) (kind : Nat) : (c.errCounted a kind).on BUS_STATUS_ERR = true := by
  have hset (c : Chip) : (c.set BUS_STATUS_FIREWALL).on BUS_STATUS_ERR = c.on BUS_STATUS_ERR := Chip.on_set_keeps _ (by decide)
  rw [Chip.errCounted, Chip.on_when, hset, ite_self]
  exact Chip.on_set_same _ rfl (by decide)

theorem Chip.bus_busError (a : BusAcc) (kind : Nat) : (c.busError a kind).bus = { c.bus with resps := c.bus.resps ++ [(a.m, a.id, kind, [])] } := by
  rw [Chip.busError_stages, Chip.errAnswered, Chip.bus_errCaptured, Chip.bus_errCounted]

theorem Chip.rd_busError (a : BusAcc) (kind : Nat) (hlo : BUS_ERR_ADDR_LO.off ≠ f.off) (hhi : BUS_ERR_ADDR_HI.off ≠ f.off)
    (hinfo : BUS_ERR_INFO.off ≠ f.off) : (c.busError a kind).rd f = (c.errCounted a kind).rd f := by
  rw [Chip.busError_stages]
  exact (c.errCounted a kind).rd_errCaptured a kind hlo hhi hinfo

theorem Chip.busError_counts {a : BusAcc} (hm : a.m < 10) (kind : Nat) :
    (c.busError a kind).rd (BUS_MST_ERR_COUNT a.m) = min (2 ^ (BUS_MST_ERR_COUNT a.m).w - 1) (c.rd (BUS_MST_ERR_COUNT a.m) + 1)
      ∧ (c.busError a kind).on BUS_STATUS_ERR = true ∧ ((kind == 1) = true → (c.busError a kind).on BUS_STATUS_FIREWALL = true) := by
  have hoff : (BUS_MST_ERR_COUNT a.m).off = 0x780140 + 4 * a.m := rfl
  have hcounted : (c.errCounted a kind).rd (BUS_MST_ERR_COUNT a.m) = min (2 ^ (BUS_MST_ERR_COUNT a.m).w - 1) (c.rd (BUS_MST_ERR_COUNT a.m) + 1) := by
    have hne : BUS_STATUS.off ≠ (BUS_MST_ERR_COUNT a.m).off := by
      rw [hoff]
      simp only [BUS_STATUS]
      omega
    rw [c.rd_errCounted a kind hne, Chip.rd_inc_same _ rfl]
  have hflag : (c.errCounted a kind).on BUS_STATUS_ERR = true := c.errCounted_flags a kind
  refine ⟨(c.rd_busError a kind ?_ ?_ ?_).trans hcounted, (congrArg (· != 0) (c.rd_busError a kind (by decide) (by decide) (by decide))).trans hflag,
    fun h1 => (congrArg (· != 0) (c.rd_busError a kind (by decide) (by decide) (by decide))).trans ?_⟩
  · rw [hoff]
    simp only [BUS_ERR_ADDR_LO]
    omega
  · rw [hoff]
    simp only [BUS_ERR_ADDR_HI]
    omega
  · rw [hoff]
    simp only [BUS_ERR_INFO]
    omega
  · unfold Chip.errCounted
    rw [Chip.when_pos _ _ h1]
    exact Chip.on_set_same _ rfl (by decide)

/-! ### The watchdog answers -/

/-- The watchdog answers a transaction. -/
def Chip.watchdogAnswers (c : Chip) (o : BusOut) : Chip :=
  ((((c.setBus { c.bus with outs := c.bus.outs.erase o }).busError o.acc 5).inc BUS_WDOG_COUNT_COUNT).set BUS_STATUS_WDOG_TIMEOUT).post 0x10 0x0001
    o.acc.m (o.acc.addr % 2 ^ 32)

theorem Chip.busTimeout_stages {m id : Nat} {o : BusOut} (houts : c.bus.outs = [o]) (hm : o.acc.m = m) (hid : o.acc.id = id)
    (hdue : o.at_ + us 999 ≤ c.now) : c.busTimeout m id = (c.watchdogAnswers o).masterReset m := by
  have hfind : (c.bus.outs.find? fun o => o.acc.m == m && o.acc.id == id && o.at_ + us 999 ≤ c.now) = some o := by
    rw [houts, List.find?_cons_of_pos]
    simp [hm, hid, hdue]
  unfold Chip.busTimeout
  rw [hfind]
  dsimp only
  rw [Chip.watchdogAnswers, hm]

/-- A port with nothing outstanding is reset: nothing is aborted. -/
theorem Chip.masterReset_idle {m : Nat} (h : c.bus.outs = []) :
    ((c.masterReset m).bus.outs = [] ∧ (c.masterReset m).bus.resps = c.bus.resps)
      ∧ ∀ f : Fld, (∀ m < 10, (BUS_MST_STAT m).off ≠ f.off) → (c.masterReset m).rd f = c.rd f := by
  have heq : c.masterReset m = (c.setBus { c.bus with
      outs := c.bus.outs.filter fun o => o.acc.m != m
      locks := c.bus.locks.filter fun l => l.m != m
      broken := c.bus.broken.filter fun b => b.1 != m }).busShow := by
    unfold Chip.masterReset
    rw [h]
    rfl
  rw [heq, Chip.bus_busShow]
  refine ⟨⟨?_, rfl⟩, fun f hf => Chip.rd_busShow_other _ hf⟩
  change (c.bus.outs.filter _) = []
  rw [h]
  rfl

theorem Chip.busTimeout_shows {m id : Nat} {o : BusOut} (hm10 : m < 10) (houts : c.bus.outs = [o]) (hresps : c.bus.resps = []) (hm : o.acc.m = m)
    (hid : o.acc.id = id) (hdue : o.at_ + us 999 ≤ c.now) :
    (c.busTimeout m id).bus.outs = [] ∧ (c.busTimeout m id).bus.resps = [(m, id, 5, [])]
      ∧ (c.busTimeout m id).on BUS_STATUS_WDOG_TIMEOUT = true ∧ (c.busTimeout m id).on BUS_STATUS_ERR = true
      ∧ (c.busTimeout m id).rd BUS_WDOG_COUNT_COUNT = min (2 ^ BUS_WDOG_COUNT_COUNT.w - 1) (c.rd BUS_WDOG_COUNT_COUNT + 1)
      ∧ (c.busTimeout m id).rd (BUS_MST_ERR_COUNT m) = min (2 ^ (BUS_MST_ERR_COUNT m).w - 1) (c.rd (BUS_MST_ERR_COUNT m) + 1) := by
  have hstat (off : Nat) (h : off < 0x780100 ∨ 0x780128 ≤ off) : ∀ k < 10, (BUS_MST_STAT k).off ≠ off := fun k hk he => by
    rw [show (BUS_MST_STAT k).off = 0x780100 + 4 * k from rfl] at he
    omega
  have hbus : (c.watchdogAnswers o).bus = { c.bus with outs := c.bus.outs.erase o, resps := c.bus.resps ++ [(m, id, 5, [])] } := by
    rw [Chip.watchdogAnswers, Chip.post_bus, Chip.set_def, Chip.wr_bus, Chip.inc_def, Chip.wr_bus, Chip.bus_busError, hm, hid]
    rfl
  have hresp : (c.watchdogAnswers o).bus.resps = [(m, id, 5, [])] := by
    rw [hbus]
    change c.bus.resps ++ _ = _
    rw [hresps, List.nil_append]
  have houts' : (c.watchdogAnswers o).bus.outs = [] := by
    rw [hbus]
    change c.bus.outs.erase o = []
    rw [houts, List.erase_cons_head]
  obtain ⟨⟨h1, h2⟩, hrd⟩ := (c.watchdogAnswers o).masterReset_idle (m := m) houts'
  obtain ⟨h3, h4, -⟩ := (c.setBus { c.bus with outs := c.bus.outs.erase o }).busError_counts (a := o.acc) (by omega) 5
  rw [hm] at h3
  have hpost (f : Fld) (h : f.off / 65536 ≠ 1) : (c.watchdogAnswers o).rd f
      = ((((c.setBus { c.bus with outs := c.bus.outs.erase o }).busError o.acc 5).inc BUS_WDOG_COUNT_COUNT).set BUS_STATUS_WDOG_TIMEOUT).rd f :=
    Chip.rd_post _ _ _ _ _ _ h
  have hmst : (BUS_MST_ERR_COUNT m).off = 0x780140 + 4 * m := rfl
  rw [c.busTimeout_stages houts hm hid hdue]
  refine ⟨h1, h2.trans hresp, ?_, ?_, ?_, ?_⟩
  · refine (congrArg (· != 0) ((hrd _ (hstat _ (by decide))).trans (hpost _ (by decide)))).trans ?_
    exact Chip.on_set_same _ rfl (by decide)
  · refine (congrArg (· != 0) ((hrd _ (hstat _ (by decide))).trans (hpost _ (by decide)))).trans ?_
    exact ((Chip.on_set_keeps _ (by decide)).trans (Chip.on_inc_keeps _ (by decide))).trans h4
  · refine ((hrd _ (hstat _ (by decide))).trans (hpost _ (by decide))).trans ?_
    have hne : (BUS_MST_ERR_COUNT o.acc.m).off ≠ BUS_WDOG_COUNT_COUNT.off := by
      rw [hm, hmst]
      simp only [BUS_WDOG_COUNT_COUNT, BUS_WDOG_COUNT, Reg.fld]
      omega
    rw [Chip.rd_set_keeps _ (by decide), Chip.rd_inc_same _ rfl, Chip.rd_busError _ _ _ (by decide) (by decide) (by decide),
      Chip.rd_errCounted _ _ _ (by decide), Chip.inc_def, Chip.rd_wr_other _ _ _ _ hne]
    rfl
  · refine ((hrd _ (hstat _ (by omega))).trans (hpost _ (by omega))).trans ?_
    refine ((Chip.rd_wr_other _ _ _ _ ?_).trans (Chip.rd_wr_other _ _ _ _ ?_)).trans h3
    all_goals
      rw [hmst]
      simp only [BUS_STATUS_WDOG_TIMEOUT, BUS_STATUS, BUS_WDOG_COUNT_COUNT, BUS_WDOG_COUNT, Reg.fld]
      omega

/-! ### A broken lock, and a master that aborts -/

theorem Chip.lockBreak_shows {l : BusLock} {target : Nat} (hlocks : c.bus.locks = [l]) (ht : l.target = target) :
    (c.lockBreak target).bus.locks = [] ∧ (c.lockBreak target).bus.broken = c.bus.broken ++ [(l.m, l.id, l.loc)]
      ∧ (c.lockBreak target).bus.outs = c.bus.outs
      ∧ (c.lockBreak target).on BUS_STATUS_LOCK_BREAK = true
      ∧ (c.lockBreak target).rd BUS_LOCK_BREAKS_COUNT = min (2 ^ BUS_LOCK_BREAKS_COUNT.w - 1) (c.rd BUS_LOCK_BREAKS_COUNT + 1) := by
  have heq : c.lockBreak target = (((c.setBus { c.bus with
      locks := c.bus.locks.filter fun x => x.target != target
      broken := c.bus.broken ++ [(l.m, l.id, l.loc)] }).inc BUS_LOCK_BREAKS_COUNT).set BUS_STATUS_LOCK_BREAK).post 0x10 0x0002 l.m (l.loc * 16 % 2 ^ 32) := by
    unfold Chip.lockBreak
    rw [show (c.bus.locks.find? fun l => l.target == target) = some l by rw [hlocks, List.find?_cons_of_pos]; simp [ht]]
  rw [heq, Chip.post_bus, Chip.set_def, Chip.wr_bus, Chip.inc_def, Chip.wr_bus, Chip.on_post _ _ _ _ _ _ (by decide), Chip.rd_post _ _ _ _ _ _ (by decide),
    ← Chip.inc_def, ← Chip.set_def, Chip.rd_set_keeps _ (by decide), Chip.rd_inc_same _ rfl]
  refine ⟨?_, rfl, rfl, Chip.on_set_same _ rfl (by decide), rfl⟩
  change (c.bus.locks.filter fun x => x.target != target) = []
  rw [hlocks, List.filter_cons_of_neg (by simp [ht]), List.filter_nil]

/-- The abort of what a port has outstanding is counted and flagged. -/
def Chip.abortCounted (c : Chip) (m n : Nat) : Chip := ((c.inc (BUS_MASTER_ABORT_COUNT m)).set BUS_STATUS_MASTER_ABORT).post 0x10 0x0003 m n

theorem Chip.masterReset_shows {o : BusOut} {m : Nat} (hm : m < 10) (houts : c.bus.outs = [o]) (ho : o.acc.m = m) :
    (c.masterReset m).bus.outs = [] ∧ (c.masterReset m).bus.resps = c.bus.resps ∧ (c.masterReset m).on BUS_STATUS_MASTER_ABORT = true
      ∧ (c.masterReset m).rd (BUS_MASTER_ABORT_COUNT m) = min (2 ^ (BUS_MASTER_ABORT_COUNT m).w - 1) (c.rd (BUS_MASTER_ABORT_COUNT m) + 1) := by
  have hoff : (BUS_MASTER_ABORT_COUNT m).off = 0x780180 + 4 * m := rfl
  have heq : c.masterReset m = ((c.setBus { c.bus with
      outs := c.bus.outs.filter fun o => o.acc.m != m
      locks := c.bus.locks.filter fun l => l.m != m
      broken := c.bus.broken.filter fun b => b.1 != m }).abortCounted m 1).busShow := by
    unfold Chip.masterReset
    rw [show (c.bus.outs.filter fun o => o.acc.m == m).length = 1 by rw [houts, List.filter_cons_of_pos (by simp [ho])]; rfl]
    rfl
  rw [heq, Chip.bus_busShow, Chip.on_busShow _ _ (by decide), Chip.rd_busShow_other _ fun k hk he => by
      rw [hoff, show (BUS_MST_STAT k).off = 0x780100 + 4 * k from rfl] at he
      omega,
    Chip.abortCounted, Chip.post_bus, Chip.set_def, Chip.wr_bus, Chip.inc_def, Chip.wr_bus, Chip.on_post _ _ _ _ _ _ (by decide),
    Chip.rd_post _ _ _ _ _ _ (by omega), ← Chip.inc_def, ← Chip.set_def]
  refine ⟨?_, rfl, Chip.on_set_same _ rfl (by decide), (Chip.rd_wr_other _ _ _ _ ?_).trans (Chip.rd_inc_same _ rfl)⟩
  · change (c.bus.outs.filter _) = []
    rw [houts, List.filter_cons_of_neg (by simp [ho]), List.filter_nil]
  · rw [hoff]
    simp only [BUS_STATUS_MASTER_ABORT, BUS_STATUS, Reg.fld]
    omega

theorem State.chipAt_resps (s : State) (t : Nat) : (s.chipAt t).bus.resps = [] := by
  unfold State.chipAt
  dsimp only
  split
  · exact congrArg Bus.resps ((Chip.Only.trans (Chip.Only.mono Chip.engineRun_only (by decide)) (Chip.Only.trans (Chip.Only.mono Chip.storeRun_only (by decide))
      (Chip.Only.mono Chip.txDue_only (by decide))) : Chip.Only [.aud, .sap, .lbs, .sdi] _ _) .bus (by decide))
  · rfl

end

end Sys2Proof.Machine
end

section
/-! SUPPORT. The performance counters: the registers that bringing them up to now may write, samples, tags and clears. -/

namespace Sys2Proof.Machine

/-! ### Registers that the counters write of themselves -/

/-- The offset is none of a counter, an overflow register or the status of the counters. -/
def pmcStill (o : Nat) : Prop :=
  o ≠ 0x7C0000 ∧ ∀ k < 4, o ≠ 0x7C1000 + 256 * k ∧ o ≠ 0x7C1004 + 256 * k ∧ o ≠ 0x7C1008 + 256 * k ∧ ∀ i < 8, o ≠ 0x7C1030 + 256 * k + 4 * i

theorem pmcStill_of_below {o : Nat} (h0 : 0x7C0000 < o) (h : o < 0x7C1000) : pmcStill o :=
  ⟨by omega, fun k _ => ⟨by omega, by omega, by omega, fun i _ => by omega⟩⟩

theorem pmcStill_evsel {core k : Nat} (hcore : core < 4) (hk : k < 8) : pmcStill (PMC_EVSEL core k).off := by
  change pmcStill (0x7C1010 + 256 * core + 4 * k)
  exact ⟨by omega, fun j _ => ⟨by omega, by omega, by omega, fun i _ => by omega⟩⟩

section
variable (c : Chip) {o : Nat}

theorem Chip.cell_pmcOver {core k : Nat} (h1 : 0x7C0000 ≠ o) (h2 : 0x7C1008 + 256 * core ≠ o) : (c.pmcOver core k).cell o = c.cell o := by
  have hbit : (c.setBit (PMC_OVF_OVF core) k).cell o = c.cell o := by
    unfold Chip.setBit
    split
    · rfl
    · exact Chip.cell_wr_other _ _ _ _ h2
  rw [Chip.pmcOver, Chip.set_def, Chip.cell_wr_other _ _ _ _ h1, hbit]

/-- The events of a counter are counted. -/
def Chip.eventsCounted (c : Chip) (k i : Nat) : Chip :=
  let n := c.get (PMC_CNT k i) + Config.events k (c.get (PMC_EVSEL k i)) c.pmcAt c.now
  (c.put (PMC_CNT k i) n).when (2 ^ 32 ≤ n) (·.pmcOver k i)

/-- The cycles of a core are counted. -/
def Chip.cyclesCounted (c : Chip) (k : Nat) : Chip :=
  let n := c.get (PMC_CYC_HI k) * 2 ^ 32 + c.get (PMC_CYC_LO k) + (c.now / 3 - c.pmcAt / 3)
  ((c.put (PMC_CYC_LO k) n).put (PMC_CYC_HI k) (n / 2 ^ 32)).when (2 ^ 64 ≤ n) (·.pmcOver k 8)

/-- The counters of a core are brought up to now. -/
def Chip.coreCounted (c : Chip) (k : Nat) : Chip :=
  (c.cyclesCounted k).each (List.range 8) fun c i => c.when (selCounts (c.get (PMC_EVSEL k i))) (·.eventsCounted k i)

theorem Chip.pmcSync_stages : c.pmcSync = { c.when c.pmcRuns fun c => c.each (List.range 4) Chip.coreCounted with pmcAt := c.now } := rfl

theorem Chip.cell_eventsCounted {k i : Nat} (h1 : 0x7C0000 ≠ o) (h2 : 0x7C1008 + 256 * k ≠ o) (h3 : 0x7C1030 + 256 * k + 4 * i ≠ o) :
    (c.eventsCounted k i).cell o = c.cell o := by
  unfold Chip.eventsCounted
  exact (Chip.cell_when _ _ _ _ (Chip.cell_pmcOver _ h1 h2)).trans (Chip.cell_put_other _ _ _ _ h3)

theorem Chip.cell_cyclesCounted {k : Nat} (h1 : 0x7C0000 ≠ o) (h2 : 0x7C1008 + 256 * k ≠ o) (hlo : 0x7C1000 + 256 * k ≠ o)
    (hhi : 0x7C1004 + 256 * k ≠ o) : (c.cyclesCounted k).cell o = c.cell o := by
  unfold Chip.cyclesCounted
  exact (Chip.cell_when _ _ _ _ (Chip.cell_pmcOver _ h1 h2)).trans ((Chip.cell_put_other _ _ _ _ hhi).trans (Chip.cell_put_other _ _ _ _ hlo))

theorem Chip.cell_coreCounted {k : Nat} (hk : k < 4) (h : pmcStill o) : (c.coreCounted k).cell o = c.cell o := by
  obtain ⟨h1, hall⟩ := h
  obtain ⟨hlo, hhi, h2, hcnt⟩ := hall k hk
  unfold Chip.coreCounted
  refine (Chip.each_keeps (·.cell o) _ _ (fun c i hi => ?_) _).trans (c.cell_cyclesCounted h1.symm h2.symm hlo.symm hhi.symm)
  exact Chip.cell_when _ _ _ _ (c.cell_eventsCounted h1.symm h2.symm (hcnt i (List.mem_range.1 hi)).symm)

theorem Chip.cell_pmcSync (h : pmcStill o) : c.pmcSync.cell o = c.cell o := by
  rw [Chip.pmcSync_stages]
  exact Chip.cell_when c c.pmcRuns (fun c => c.each (List.range 4) Chip.coreCounted) o
    (Chip.each_keeps (·.cell o) _ _ (fun c k hk => c.cell_coreCounted (List.mem_range.1 hk) h) c)

theorem Chip.pwr_pmcSync : c.pmcSync.pwr = c.pwr := (Chip.pmcSync_within .refl (by decide) (by decide) : Chip.Within [124] [.pmcAt] c _).part .pwr (by decide)

theorem Chip.pmcRuns_pmcSync : c.pmcSync.pmcRuns = c.pmcRuns := by
  have hfreeze : c.pmcSync.on PMC_CTL_FREEZE = c.on PMC_CTL_FREEZE :=
    congrArg (· != 0) (Chip.rd_of_cell (c.cell_pmcSync (pmcStill_of_below (by decide) (by decide))))
  rw [Chip.pmcRuns, hfreeze, c.pwr_pmcSync, Chip.pmcRuns]

/-! ### Freeze and wrap -/

theorem Chip.on_pmcCtl (d : Chip) :
    (c.pmcWrite PMC_CTL.off (d.get PMC_CTL)).on PMC_CTL_FREEZE = d.on PMC_CTL_FREEZE
      ∧ (c.pmcWrite PMC_CTL.off (d.get PMC_CTL)).on PMC_CTL_USER_EN = d.on PMC_CTL_USER_EN := by
  have heq : c.pmcWrite PMC_CTL.off (d.get PMC_CTL) = c.pmcSync.put PMC_CTL (d.get PMC_CTL &&& 3) := rfl
  have hlow (lo : Nat) (hlo : lo < 2) : bits ((d.get PMC_CTL &&& 3) % 2 ^ 32) lo 1 = bits (d.get PMC_CTL) lo 1 := by
    rw [show d.get PMC_CTL &&& 3 = d.get PMC_CTL % 2 ^ 2 from Nat.and_two_pow_sub_one_eq_mod _ 2]
    unfold bits
    interval_cases lo <;> omega
  rw [heq]
  exact ⟨congrArg (· != 0) ((Chip.rd_put_same c.pmcSync PMC_CTL _ 1 1).trans (hlow 1 (by decide))),
    congrArg (· != 0) ((Chip.rd_put_same c.pmcSync PMC_CTL _ 0 1).trans (hlow 0 (by decide)))⟩

theorem Chip.freeze_shows (user freeze : Bool) :
    (c.pmcWrite PMC_CTL.off (((c.wrB PMC_CTL_FREEZE freeze).wrB PMC_CTL_USER_EN user).get PMC_CTL)).on PMC_CTL_FREEZE = freeze
      ∧ (c.pmcWrite PMC_CTL.off (((c.wrB PMC_CTL_FREEZE freeze).wrB PMC_CTL_USER_EN user).get PMC_CTL)).on PMC_CTL_USER_EN = user := by
  obtain ⟨h1, h2⟩ := c.on_pmcCtl ((c.wrB PMC_CTL_FREEZE freeze).wrB PMC_CTL_USER_EN user)
  refine ⟨h1.trans ?_, h2.trans (Chip.on_wrB_same _ _ rfl (by decide))⟩
  rw [Chip.on_wrB_keeps _ _ (by decide)]
  exact Chip.on_wrB_same _ _ rfl (by decide)

theorem Chip.bit_setBit_same {f : Fld} {i : Nat} (hf : f.fits = true) (hi : i < f.w) : bit ((c.setBit f i).rd f) i = true := by
  unfold Chip.setBit
  split
  next h => exact h
  next h =>
    have hclear : bit (c.rd f) i = false := Bool.eq_false_of_not_eq_true h
    rw [Chip.rd_wr_lt hf (bit_add_pow_lt hclear (c.rd_lt f) hi)]
    exact bit_add_pow_same hclear

theorem Chip.pmcOver_shows {core k : Nat} (hk : k < 9) :
    bit ((c.pmcOver core k).rd (PMC_OVF_OVF core)) k = true ∧ (c.pmcOver core k).on PMC_STATUS_OVF = true := by
  refine ⟨?_, Chip.on_set_same _ rfl (by decide)⟩
  have hne : PMC_STATUS_OVF.off ≠ (PMC_OVF_OVF core).off := by
    simp only [PMC_STATUS_OVF, PMC_STATUS, PMC_OVF_OVF, PMC_OVF, Reg.fld]
    omega
  rw [Chip.pmcOver, Chip.set_def, Chip.rd_wr_other _ _ _ _ hne]
  exact Chip.bit_setBit_same _ rfl hk

theorem Chip.get_pmcOver_cnt {core k i : Nat} (hi : i < 8) : (c.pmcOver core k).get (PMC_CNT core i) = c.get (PMC_CNT core i) := by
  refine Chip.get_of_cell (Chip.cell_pmcOver _ ?_ ?_)
  all_goals
    simp only [PMC_CNT]
    omega

theorem Chip.pmcWrap_shows {core k : Nat} (hcore : core < 4) (hk : k < 9) (hruns : c.pmcRuns = true)
    (hsel : k = 8 ∨ selCounts (c.get (PMC_EVSEL core k)) = true) :
    bit ((c.pmcWrap core k).rd (PMC_OVF_OVF core)) k = true ∧ (c.pmcWrap core k).on PMC_STATUS_OVF = true
      ∧ (k < 8 → (c.pmcWrap core k).get (PMC_CNT core k) = 0) := by
  have hsync : k < 8 → c.pmcSync.get (PMC_EVSEL core k) = c.get (PMC_EVSEL core k) := fun hk8 => Chip.get_of_cell (c.cell_pmcSync (pmcStill_evsel hcore hk8))
  have heq : c.pmcWrap core k = (c.pmcSync.when (k < 8) (·.put (PMC_CNT core k) 0)).pmcOver core k := by
    refine if_neg ?_
    rintro (h | ⟨hk8, h⟩)
    · rw [c.pmcRuns_pmcSync, hruns] at h
      exact absurd h (by decide)
    · rw [hsync hk8, hsel.resolve_left (by omega)] at h
      exact absurd h (by decide)
  obtain ⟨h1, h2⟩ := (c.pmcSync.when (k < 8) (·.put (PMC_CNT core k) 0)).pmcOver_shows (core := core) hk
  rw [heq]
  refine ⟨h1, h2, fun hk8 => ?_⟩
  rw [Chip.get_pmcOver_cnt _ hk8, Chip.when_pos _ _ (by simpa using hk8), Chip.get_put_same, Nat.zero_mod]

/-! ### Samples and tags -/

/-- A sample record and the fill after it. -/
def Chip.sampleRecorded (c : Chip) (core n addr data at_ word : Nat) : Chip :=
  (((((c.put (PMC_SMP_BUF core n 0) addr).put (PMC_SMP_BUF core n 1) data).put (PMC_SMP_BUF core n 2) word).put (PMC_SMP_BUF core n 3) at_).wr
    (PMC_SMP_STAT_FILL core) (n + 1)).when (n + 1 == 256) (·.set PMC_STATUS_SMP_FULL)

theorem Chip.get_flagged {f : Fld} {r : Reg} (b : Bool) (h : f.off ≠ r.off) : (c.when b (·.set f)).get r = c.get r := by
  rw [Chip.get_when, Chip.get_set_other _ h, ite_self]

theorem Chip.rd_flagged {f g : Fld} (b : Bool) (h : f.off ≠ g.off) : (c.when b (·.set f)).rd g = c.rd g := by
  rw [Chip.rd_when, Chip.set_def, Chip.rd_wr_other _ _ _ _ h, ite_self]

theorem Chip.sampleRecorded_shows {core n : Nat} (hcore : core < 4) (hn : n < 256) (addr data at_ word : Nat) :
    (c.sampleRecorded core n addr data at_ word).rd (PMC_SMP_STAT_FILL core) = n + 1
      ∧ (c.sampleRecorded core n addr data at_ word).get (PMC_SMP_BUF core n 0) = addr % 2 ^ 32
      ∧ (c.sampleRecorded core n addr data at_ word).get (PMC_SMP_BUF core n 1) = data % 2 ^ 32
      ∧ (c.sampleRecorded core n addr data at_ word).get (PMC_SMP_BUF core n 2) = word % 2 ^ 32
      ∧ (n = 255 → (c.sampleRecorded core n addr data at_ word).on PMC_STATUS_SMP_FULL = true) := by
  have hbuf (j : Nat) (hj : j < 4) : (PMC_SMP_BUF core n j).off = 0x7C8000 + 4096 * core + 16 * n + 4 * j := rfl
  have hstat : (PMC_SMP_STAT_FILL core).off = 0x7C1054 + 256 * core := rfl
  have hfull : PMC_STATUS_SMP_FULL.off = 0x7C0000 := rfl
  have h0 := hbuf 0 (by decide)
  have h1 := hbuf 1 (by decide)
  have h2 := hbuf 2 (by decide)
  have h3 := hbuf 3 (by decide)
  unfold Chip.sampleRecorded
  refine ⟨?_, ?_, ?_, ?_, fun hlast => ?_⟩
  · rw [Chip.rd_flagged _ _ (by omega)]
    exact Chip.rd_wr_lt rfl (show n + 1 < 512 by omega)
  · rw [Chip.get_flagged _ _ (by omega), Chip.get_wr_other _ _ _ _ (by omega), Chip.get_put_other _ _ _ _ (by omega),
      Chip.get_put_other _ _ _ _ (by omega), Chip.get_put_other _ _ _ _ (by omega), Chip.get_put_same]
  · rw [Chip.get_flagged _ _ (by omega), Chip.get_wr_other _ _ _ _ (by omega), Chip.get_put_other _ _ _ _ (by omega),
      Chip.get_put_other _ _ _ _ (by omega), Chip.get_put_same]
  · rw [Chip.get_flagged _ _ (by omega), Chip.get_wr_other _ _ _ _ (by omega), Chip.get_put_other _ _ _ _ (by omega), Chip.get_put_same]
  · rw [Chip.when_pos _ _ (by simp [hlast])]
    exact Chip.on_set_same _ rfl (by decide)

theorem Chip.pmcSample_records {core n addr data lat kind : Nat} {user err : Bool} (hen : c.on (PMC_SMP_CTL_ENABLE core) = true)
    (hkind : c.rd (PMC_SMP_CTL_KIND core) = kind) (hfill : c.rd (PMC_SMP_STAT_FILL core) = n) (hn : n < 256) :
    ∃ at_, c.pmcSample core addr data lat kind user err = c.sampleRecorded core n addr (if kind = 0 then 0 else data) at_
      (min lat 0xFFFF + kind * 2 ^ 16 + b2n user * 2 ^ 18 + b2n err * 2 ^ 19) := by
  unfold Chip.pmcSample
  rw [hen, hkind, hfill, if_neg (by simp), if_neg (by omega)]
  exact ⟨_, rfl⟩

theorem Chip.pmcSample_lost {core addr data lat kind : Nat} {user err : Bool} (hen : c.on (PMC_SMP_CTL_ENABLE core) = true)
    (hkind : c.rd (PMC_SMP_CTL_KIND core) = kind) (hfill : 256 ≤ c.rd (PMC_SMP_STAT_FILL core)) :
    c.pmcSample core addr data lat kind user err = c.inc (PMC_SMP_LOST_COUNT core) := by
  unfold Chip.pmcSample
  rw [hen, hkind, if_neg (by simp), if_pos hfill]

/-- A tag record and the fill after it. -/
def Chip.tagRecorded (c : Chip) (n w0 w1 w2 w3 : Nat) : Chip :=
  (((((c.put (PMC_NME_TAG n 0) w0).put (PMC_NME_TAG n 1) w1).put (PMC_NME_TAG n 2) w2).put (PMC_NME_TAG n 3) w3).wr PMC_NME_STAT_FILL (n + 1)).when
    (n + 1 == 64) (·.set PMC_STATUS_NME_FULL)

theorem Chip.tagRecorded_shows {n : Nat} (hn : n < 64) (w0 w1 w2 w3 : Nat) :
    (c.tagRecorded n w0 w1 w2 w3).rd PMC_NME_STAT_FILL = n + 1
      ∧ (c.tagRecorded n w0 w1 w2 w3).get (PMC_NME_TAG n 0) = w0 % 2 ^ 32 ∧ (c.tagRecorded n w0 w1 w2 w3).get (PMC_NME_TAG n 1) = w1 % 2 ^ 32
      ∧ (c.tagRecorded n w0 w1 w2 w3).get (PMC_NME_TAG n 2) = w2 % 2 ^ 32 ∧ (c.tagRecorded n w0 w1 w2 w3).get (PMC_NME_TAG n 3) = w3 % 2 ^ 32
      ∧ (n = 63 → (c.tagRecorded n w0 w1 w2 w3).on PMC_STATUS_NME_FULL = true) := by
  have htag (j : Nat) : (PMC_NME_TAG n j).off = 0x7C2100 + 16 * n + 4 * j := rfl
  have hstat : PMC_NME_STAT_FILL.off = 0x7C2004 := rfl
  have hfull : PMC_STATUS_NME_FULL.off = 0x7C0000 := rfl
  have h0 := htag 0
  have h1 := htag 1
  have h2 := htag 2
  have h3 := htag 3
  unfold Chip.tagRecorded
  refine ⟨?_, ?_, ?_, ?_, ?_, fun hlast => ?_⟩
  · rw [Chip.rd_flagged _ _ (by omega)]
    exact Chip.rd_wr_lt rfl (show n + 1 < 128 by omega)
  · rw [Chip.get_flagged _ _ (by omega), Chip.get_wr_other _ _ _ _ (by omega), Chip.get_put_other _ _ _ _ (by omega),
      Chip.get_put_other _ _ _ _ (by omega), Chip.get_put_other _ _ _ _ (by omega), Chip.get_put_same]
  · rw [Chip.get_flagged _ _ (by omega), Chip.get_wr_other _ _ _ _ (by omega), Chip.get_put_other _ _ _ _ (by omega),
      Chip.get_put_other _ _ _ _ (by omega), Chip.get_put_same]
  · rw [Chip.get_flagged _ _ (by omega), Chip.get_wr_other _ _ _ _ (by omega), Chip.get_put_other _ _ _ _ (by omega), Chip.get_put_same]
  · rw [Chip.get_flagged _ _ (by omega), Chip.get_wr_other _ _ _ _ (by omega), Chip.get_put_same]
  · rw [Chip.when_pos _ _ (by simp [hlast])]
    exact Chip.on_set_same _ rfl (by decide)

theorem Chip.nmeTag_records {engine pc lat wait n : Nat} {flow : Option Nat} (hen : c.on PMC_NME_CTL_ENABLE = true)
    (hfill : c.rd PMC_NME_STAT_FILL = n) (hn : n < 64) :
    c.nmeTag engine pc lat wait flow = c.tagRecorded n (engine + pc * 2 ^ 16) (min lat 0xFFFF + min wait 0xFFFF * 2 ^ 16) (flow.getD 0x7F) c.systime := by
  unfold Chip.nmeTag
  rw [hen, hfill, if_neg (by simp), if_neg (by omega)]
  simp only [Chip.systime, Chip.put_clock]
  rfl

theorem Chip.nmeTag_lost {engine pc lat wait : Nat} {flow : Option Nat} (hen : c.on PMC_NME_CTL_ENABLE = true)
    (hfill : 64 ≤ c.rd PMC_NME_STAT_FILL) : c.nmeTag engine pc lat wait flow = c.inc PMC_NME_LOST_COUNT := by
  unfold Chip.nmeTag
  rw [hen, if_neg (by simp), if_pos hfill]

/-! ### Clears -/

theorem RegMap.find_filter (m : RegMap) (p : Nat → Bool) (o : Nat) :
    RegMap.find (m.filter fun r => p r.1) o = if p o then m.find o else none := by
  induction m with
  | nil => simp [RegMap.find]
  | cons r m ih =>
    obtain ⟨a, v⟩ := r
    by_cases ha : a = o
    · subst ha
      cases hp : p a
      · rw [List.filter_cons_of_neg (by simpa using hp), ih, hp]
        rfl
      · rw [List.filter_cons_of_pos (by simpa using hp)]
        simp [RegMap.find]
    · cases hp : p a
      · rw [List.filter_cons_of_neg (by simpa using hp), ih]
        simp [RegMap.find, ha]
      · rw [List.filter_cons_of_pos (by simpa using hp)]
        simp [RegMap.find, ha, ih]

theorem Chip.cell_zero (base n : Nat) : (c.zero base n).cell o = if base ≤ o ∧ o < base + n then none else c.cell o := by
  refine (RegMap.find_filter c.regs (fun a => !(base ≤ a && a < base + n)) o).trans ?_
  by_cases h : base ≤ o ∧ o < base + n
  · rw [if_pos h, if_neg (by simp [h])]
  · rw [if_neg h, if_pos (by simp; omega)]
    rfl

theorem Chip.get_zero_in {r : Reg} {base n : Nat} (h : base ≤ r.off ∧ r.off < base + n) : (c.zero base n).get r = r.dflt := by
  have hcell : (c.zero base n).regs.find r.off = none := (c.cell_zero base n).trans (if_pos h)
  rw [Chip.get, hcell]

theorem Chip.get_zero_out {r : Reg} {base n : Nat} (h : ¬ (base ≤ r.off ∧ r.off < base + n)) : (c.zero base n).get r = c.get r :=
  Chip.get_of_cell ((c.cell_zero base n).trans (if_neg h))

/-- A write of a sampler's control with CLEAR set (R602). -/
theorem Chip.pmcWrite_smpClear {core : Nat} (hcore : core < 4) (w : Nat) :
    c.pmcWrite (PMC_SMP_CTL core).off (w ||| 8) = (c.pmcSync.put (PMC_SMP_CTL core) (w &&& 0xFFFF0007)).smpClear core := by
  have hoff : (PMC_SMP_CTL core).off = 0x7C1050 + 256 * core := rfl
  have hstatus : PMC_STATUS.off = 0x7C0000 := rfl
  have henable : PMC_INT_EN.off = 0x7C0004 := rfl
  have hctl : PMC_CTL.off = 0x7C0008 := rfl
  have htags : PMC_NME_CTL.off = 0x7C2000 := rfl
  have hcore' : ((PMC_SMP_CTL core).off - 0x7C1000) / 256 = core := by omega
  have hlane : ((PMC_SMP_CTL core).off - 0x7C1000) % 256 = 0x50 := by omega
  have hmask : (w ||| 8) &&& 0xFFFF0007 = w &&& 0xFFFF0007 := by
    rw [Nat.and_or_distrib_right]
    exact Nat.or_zero _
  have hclear : bit (w ||| 8) 3 = true := by
    rw [bit_eq_testBit, Nat.testBit_or, show (8 : Nat).testBit 3 = true by decide, Bool.or_true]
  unfold Chip.pmcWrite
  dsimp only
  rw [if_neg (by omega), if_neg (by omega), if_neg (by omega), if_neg (by omega), if_neg (by omega), hcore', hlane, if_neg (by decide),
    if_neg (by decide), if_neg (by decide), if_neg (by decide), if_neg (by decide), if_pos rfl, hmask, hclear, Chip.when_true]

theorem Chip.smpClear_shows {core n k : Nat} (hcore : core < 4) (hn : n < 256) (hk : k < 4) :
    (c.smpClear core).get (PMC_SMP_STAT core) = 0 ∧ (c.smpClear core).get (PMC_SMP_LOST core) = 0 ∧ (c.smpClear core).get (PMC_SMP_BUF core n k) = 0
      ∧ (c.smpClear core).get (PMC_SMP_CTL core) = c.get (PMC_SMP_CTL core) := by
  have hctl : (PMC_SMP_CTL core).off = 0x7C1050 + 256 * core := rfl
  have hstat : (PMC_SMP_STAT core).off = 0x7C1054 + 256 * core := rfl
  have hlost : (PMC_SMP_LOST core).off = 0x7C1058 + 256 * core := rfl
  have hbuf : (PMC_SMP_BUF core n k).off = 0x7C8000 + 4096 * core + 16 * n + 4 * k := rfl
  unfold Chip.smpClear
  refine ⟨?_, ?_, ?_, ?_⟩
  · rw [Chip.get_put_other _ _ _ _ (by omega), Chip.get_put_same, Nat.zero_mod]
  · rw [Chip.get_put_same, Nat.zero_mod]
  · rw [Chip.get_put_other _ _ _ _ (by omega), Chip.get_put_other _ _ _ _ (by omega), Chip.get_zero_in _ (by omega)]
    rfl
  · rw [Chip.get_put_other _ _ _ _ (by omega), Chip.get_put_other _ _ _ _ (by omega), Chip.get_zero_out _ (by omega)]

/-- The control of the tagger as written (R603). -/
def Chip.nmeCtl (c : Chip) (v : Nat) : Chip :=
  (c.wr PMC_NME_CTL_ENABLE (bits v 0 1)).wr PMC_NME_CTL_MEAN_LOG2 (if 8 ≤ bits v 2 6 ∧ bits v 2 6 ≤ 24 then bits v 2 6 else c.rd PMC_NME_CTL_MEAN_LOG2)

theorem Chip.pmcWrite_nmeClear (w : Nat) : c.pmcWrite PMC_NME_CTL.off (w ||| 2) = (c.pmcSync.nmeCtl (w ||| 2)).nmeClear := by
  have hclear : bit (w ||| 2) 1 = true := by
    rw [bit_eq_testBit, Nat.testBit_or, show (2 : Nat).testBit 1 = true by decide, Bool.or_true]
  have heq : c.pmcWrite PMC_NME_CTL.off (w ||| 2) = (c.pmcSync.nmeCtl (w ||| 2)).when (bit (w ||| 2) 1) (·.nmeClear) := by
    unfold Chip.pmcWrite
    dsimp only
    rw [if_neg (by decide), if_neg (by decide), if_neg (by decide), if_pos rfl]
    rfl
  rw [heq, hclear, Chip.when_true]

theorem bits_or_two (w : Nat) : bits (w ||| 2) 2 6 = bits w 2 6 := by
  have hdiv : (w ||| 2) / 2 ^ 2 = w / 2 ^ 2 := by
    rw [← Nat.shiftRight_eq_div_pow, ← Nat.shiftRight_eq_div_pow, Nat.shiftRight_or_distrib]
    exact Nat.or_zero _
  unfold bits
  rw [hdiv]

theorem Chip.nmeClear_shows {n k : Nat} (hn : n < 64) (hk : k < 4) (w : Nat) :
    (c.nmeCtl (w ||| 2)).nmeClear.get PMC_NME_STAT = 0 ∧ (c.nmeCtl (w ||| 2)).nmeClear.get PMC_NME_LOST = 0
      ∧ (c.nmeCtl (w ||| 2)).nmeClear.get (PMC_NME_TAG n k) = 0
      ∧ (8 ≤ bits w 2 6 → bits w 2 6 ≤ 24 → (c.nmeCtl (w ||| 2)).nmeClear.rd PMC_NME_CTL_MEAN_LOG2 = bits w 2 6) := by
  have htag : (PMC_NME_TAG n k).off = 0x7C2100 + 16 * n + 4 * k := rfl
  have hstat : PMC_NME_STAT.off = 0x7C2004 := rfl
  have hlost : PMC_NME_LOST.off = 0x7C2008 := rfl
  unfold Chip.nmeClear
  refine ⟨?_, ?_, ?_, fun hlo hhi => ?_⟩
  · rw [Chip.get_put_other _ _ _ _ (by omega), Chip.get_put_same, Nat.zero_mod]
  · rw [Chip.get_put_same, Nat.zero_mod]
  · rw [Chip.get_put_other _ _ _ _ (by omega), Chip.get_put_other _ _ _ _ (by omega), Chip.get_zero_in _ (by omega)]
    rfl
  · rw [Chip.rd_put_other _ _ _ _ (by decide), Chip.rd_put_other _ _ _ _ (by decide)]
    refine (Chip.rd_of_cell ((Chip.cell_zero _ _ _).trans (if_neg (by decide)))).trans ?_
    rw [Chip.nmeCtl, bits_or_two, if_pos ⟨hlo, hhi⟩]
    exact Chip.rd_wr_lt rfl (show bits w 2 6 < 64 by omega)

end

/-- What stands after a row that leaves nothing outstanding and shows the ports. -/
theorem State.commit_busShow (s : State) (d : Chip) : (s.commit d.busShow).chip.bus = d.bus
    ∧ (∀ f : Fld, (∀ m < 10, (BUS_MST_STAT m).off ≠ f.off) → (s.commit d.busShow).chip.rd f = d.rd f)
    ∧ ∀ f : Fld, (∀ m < 10, (BUS_MST_STAT m).off ≠ f.off) → (s.commit d.busShow).chip.on f = d.on f :=
  ⟨(State.commit_bus ..).trans d.bus_busShow, fun _ hf => (State.commit_rd ..).trans (d.rd_busShow_other hf),
    fun f hf => (State.commit_on ..).trans (d.on_busShow f hf)⟩

/-- Settles O59: one response of the watchdog, one broken lock, one abort; and the counters write of themselves only counts and overflows. -/
theorem busAndCounters : Obligations.BusAndCounters := by
  unfold Obligations.BusAndCounters
  refine ⟨⟨?_, ?_, ?_, ?_⟩, ?_, ?_, ?_, ?_, ?_, ?_, ?_, ?_⟩
  · rintro s t m id o c rfl hlive houts hm hid hdue
    obtain ⟨h1, h2, h3, h4, h5, h6⟩ := (s.chipAt t).busTimeout_shows m.isLt houts (s.chipAt_resps t) hm hid hdue
    have hrow : Sys2Proof.Machine.exec (.busTimeout t m id) s = .next (s.commit (((s.chipAt t).busTimeout m.val id.val).busRun s.mem)) :=
      State.event_live s t _ hlive
    have hmst : (BUS_MST_ERR_COUNT m.val).off = 0x780140 + 4 * m.val := rfl
    rw [Chip.busRun_idle _ _ h1] at hrow
    obtain ⟨hbus, hrd, hon⟩ := s.commit_busShow ((s.chipAt t).busTimeout m.val id.val)
    refine ⟨_, hrow, ?_, ?_, ?_, ?_, ?_, ?_⟩
    · exact (congrArg Bus.outs hbus).trans h1
    · exact (congrArg Bus.resps hbus).trans h2
    · exact (hon _ (by decide)).trans h3
    · exact (hon _ (by decide)).trans h4
    · exact (hrd _ (by decide)).trans h5
    · refine (hrd _ fun k hk he => ?_).trans h6
      rw [hmst, show (BUS_MST_STAT k).off = 0x780100 + 4 * k from rfl] at he
      omega
  · rintro s t g l c rfl hlive houts hlocks htarget hdue
    obtain ⟨h1, h2, h3, h4, h5⟩ := (s.chipAt t).lockBreak_shows hlocks htarget
    have hrow : Sys2Proof.Machine.exec (.busLockBreak t g) s
        = .next (s.commit (((s.chipAt t).when ((s.chipAt t).bus.locks.any fun l => l.target == (if g.val = 0 then 4 else 7) && l.since + us 2 ≤ (s.chipAt t).now)
          (·.lockBreak (if g.val = 0 then 4 else 7))).busRun s.mem)) := State.event_live s t _ hlive
    rw [Chip.when_pos _ _ (by simp [hlocks, htarget, hdue]), Chip.busRun_idle _ _ (h3.trans houts)] at hrow
    obtain ⟨hbus, hrd, hon⟩ := s.commit_busShow ((s.chipAt t).lockBreak (if g.val = 0 then 4 else 7))
    refine ⟨_, hrow, ?_, ?_, ?_, ?_⟩
    · exact (congrArg Bus.locks hbus).trans h1
    · exact (congrArg Bus.broken hbus).trans h2
    · exact (hon _ (by decide)).trans h4
    · exact (hrd _ (by decide)).trans h5
  · rintro s t g o c rfl hlive houts hm
    have hport : 5 + g.val < 10 := by omega
    obtain ⟨h1, h2, h3, h4⟩ := (s.chipAt t).masterReset_shows hport houts hm
    have hrow : Sys2Proof.Machine.exec (.busMasterAbort t g) s = .next (s.commit (((s.chipAt t).masterReset (5 + g.val)).busRun s.mem)) :=
      State.event_live s t _ hlive
    have hcount : (BUS_MASTER_ABORT_COUNT (5 + g.val)).off = 0x780180 + 4 * (5 + g.val) := rfl
    rw [Chip.busRun_idle _ _ h1] at hrow
    obtain ⟨hbus, hrd, hon⟩ := s.commit_busShow ((s.chipAt t).masterReset (5 + g.val))
    refine ⟨_, hrow, ?_, ?_, ?_, ?_⟩
    · exact (congrArg Bus.outs hbus).trans h1
    · exact (congrArg Bus.resps hbus).trans (h2.trans (s.chipAt_resps t))
    · exact (hon _ (by decide)).trans h3
    · refine (hrd _ fun k hk he => ?_).trans h4
      rw [hcount, show (BUS_MST_STAT k).off = 0x780100 + 4 * k from rfl] at he
      omega
  · rintro s t c rfl hlive
    exact ⟨_, State.event_live s t _ hlive, Chip.on_set_same _ rfl (by decide), fun r hr => Chip.get_set_other _ hr.symm⟩
  · rintro s t user freeze c rfl hlive
    obtain ⟨h1, h2⟩ := (s.chipAt t).freeze_shows user freeze
    refine ⟨_, State.event_live s t _ hlive, h1, h2, fun hfreeze => ?_⟩
    refine Bool.and_eq_false_iff.2 (.inl ?_)
    exact (congrArg (!·) h1).trans (by rw [hfreeze]; rfl)
  · rintro s t core k c rfl hlive hruns hsel
    obtain ⟨h1, h2, h3⟩ := (s.chipAt t).pmcWrap_shows core.isLt k.isLt hruns hsel
    exact ⟨_, State.event_live s t _ hlive, h1, h2, h3⟩
  · rintro s t core addr data lat n kind user err c rfl hlive hen hkind hfill hn
    obtain ⟨at_, hrec⟩ := (s.chipAt t).pmcSample_records (addr := addr.toNat) (data := data.toNat) (lat := lat) (user := user) (err := err)
      hen hkind hfill hn
    obtain ⟨h1, h2, h3, h4, h5⟩ := (s.chipAt t).sampleRecorded_shows core.isLt hn addr.toNat (if kind.val = 0 then 0 else data.toNat) at_
      (min lat 0xFFFF + kind.val * 2 ^ 16 + b2n user * 2 ^ 18 + b2n err * 2 ^ 19)
    have hkind' := kind.isLt
    have huser : b2n user ≤ 1 := by cases user <;> decide
    have herr : b2n err ≤ 1 := by cases err <;> decide
    rw [← hrec] at h1 h2 h3 h4 h5
    rw [Nat.mod_eq_of_lt addr.isLt] at h2
    rw [Nat.mod_eq_of_lt (by split; exacts [by decide, data.isLt])] at h3
    rw [Nat.mod_eq_of_lt (by omega)] at h4
    exact ⟨_, State.event_live s t _ hlive, h1, h2, h3, h4, h5⟩
  · rintro s t core addr data lat kind user err c rfl hlive hen hkind hfill
    have hlost := (s.chipAt t).pmcSample_lost (addr := addr.toNat) (data := data.toNat) (lat := lat) (user := user) (err := err) hen hkind hfill
    have hne : (PMC_SMP_LOST_COUNT core.val).off ≠ (PMC_SMP_STAT_FILL core.val).off := by
      simp only [PMC_SMP_LOST_COUNT, PMC_SMP_LOST, PMC_SMP_STAT_FILL, PMC_SMP_STAT, Reg.fld]
      omega
    refine ⟨_, State.event_live s t _ hlive, ?_, ?_⟩
    · exact (congrArg (Chip.rd · _) hlost).trans (Chip.rd_inc_same _ rfl)
    · exact (congrArg (Chip.rd · _) hlost).trans (Chip.rd_wr_other _ _ _ _ hne)
  · rintro s t core w n k c rfl hlive
    obtain ⟨h1, h2, h3, h4⟩ := ((s.chipAt t).pmcSync.put (PMC_SMP_CTL core.val) (w.toNat &&& 0xFFFF0007)).smpClear_shows core.isLt n.isLt k.isLt
    rw [Chip.get_put_same, Nat.mod_eq_of_lt (Nat.lt_of_le_of_lt Nat.and_le_left w.isLt)] at h4
    rw [← Chip.pmcWrite_smpClear _ core.isLt] at h1 h2 h3 h4
    exact ⟨_, State.event_live s t _ hlive, h1, h2, h3, h4⟩
  · rintro s t engine pc lat wait n flow c rfl hlive hen hfill hn
    have hrec := (s.chipAt t).nmeTag_records (engine := engine.val) (pc := pc.toNat) (lat := lat) (wait := wait) (flow := flow.map Fin.val) hen hfill hn
    obtain ⟨h1, h2, h3, h4, h5, h6⟩ := (s.chipAt t).tagRecorded_shows hn (engine.val + pc.toNat * 2 ^ 16)
      (min lat 0xFFFF + min wait 0xFFFF * 2 ^ 16) ((flow.map Fin.val).getD 0x7F) (s.chipAt t).systime
    have hengine := engine.isLt
    have hpc := pc.isLt
    have hflow : (flow.map Fin.val).getD 0x7F < 128 := by
      cases flow with
      | none => decide
      | some f => exact Nat.lt_trans f.isLt (by decide)
    rw [← hrec] at h1 h2 h3 h4 h5 h6
    rw [Nat.mod_eq_of_lt (by omega)] at h2 h3 h4
    rw [Nat.mod_eq_of_lt (show (s.chipAt t).systime < 2 ^ 32 from Nat.mod_lt _ (by decide))] at h5
    exact ⟨_, State.event_live s t _ hlive, h1, h2, h3, h4, h5, h6⟩
  · rintro s t engine pc lat wait flow c rfl hlive hen hfill
    have hlost := (s.chipAt t).nmeTag_lost (engine := engine.val) (pc := pc.toNat) (lat := lat) (wait := wait) (flow := flow.map Fin.val) hen hfill
    refine ⟨_, State.event_live s t _ hlive, ?_, ?_⟩
    · exact (congrArg (Chip.rd · _) hlost).trans (Chip.rd_inc_same _ rfl)
    · exact (congrArg (Chip.rd · _) hlost).trans (Chip.rd_inc_keeps _ (by decide))
  · rintro s t w n k c rfl hlive
    obtain ⟨h1, h2, h3, h4⟩ := (s.chipAt t).pmcSync.nmeClear_shows n.isLt k.isLt w.toNat
    rw [← Chip.pmcWrite_nmeClear] at h1 h2 h3 h4
    exact ⟨_, State.event_live s t _ hlive, h1, h2, h3, h4⟩

end Sys2Proof.Machine
end

section
/-! SUPPORT. The trial of an update: a firmware reset out of the self-checks, and the confirmation. -/

namespace Sys2Proof.Machine

/-! ### Bits that a firmware reset keeps -/

/-- The field is one whose set bits a firmware reset keeps: no bit of its register is lost, and its default is 0. -/
structure Fld.KeptByFwr (f : Fld) : Prop where
  still : ∀ v, regAfter rkFwr f.off v = v
  clear : bits (dfltOf f.off) f.lo f.w = 0
  dflt : bits f.dflt f.lo f.w = 0
  apart : ∀ b ∈ blockRows, b.2.2.apart f = true

section
variable {f : Fld}

theorem Fld.keptByFwr_resetCause : TOP_RESET_CAUSE_FWR.KeptByFwr where
  still v := by
    have hrule : regAfter rkFwr 0xc v = (v - (v &&& 0)) ||| (0x8 &&& 0) := rfl
    refine hrule.trans ?_
    rw [Nat.and_zero, Nat.and_zero, Nat.or_zero, Nat.sub_zero]
  clear := by decide
  dflt := by decide
  apart := by decide

theorem Fld.keptByFwr_secStatus (h : f.off = SEC_STATUS.off) (hc : bits 0x80 f.lo f.w = 0) (hd : f.dflt = 0x80)
    (ha : ∀ b ∈ blockRows, b.2.2.apart f = true) : f.KeptByFwr where
  still v := by
    have hrule : regAfter rkFwr SEC_STATUS.off v = (v - (v &&& 0)) ||| (0x80 &&& 0) := rfl
    rw [h]
    refine hrule.trans ?_
    rw [Nat.and_zero, Nat.and_zero, Nat.or_zero, Nat.sub_zero]
  clear := by rw [h, show dfltOf SEC_STATUS.off = 0x80 by decide, hc]
  dflt := by rw [hd, hc]
  apart := ha

theorem Chip.on_regsReset_fwr (c : Chip) (hf : f.KeptByFwr) (h : c.on f = true) : (c.regsReset rkFwr).on f = true := by
  have hset : bits (c.get f.reg) f.lo f.w ≠ 0 := bne_iff_ne.1 h
  rw [Chip.on, Chip.rd_regsReset _ _ _ hf.apart]
  cases hv : c.regs.find f.off with
  | none =>
    have hget : c.get f.reg = f.dflt := by
      rw [Chip.get, show f.reg.off = f.off from rfl, hv]
      rfl
    exact absurd hf.dflt (hget ▸ hset)
  | some v =>
    have hget : c.get f.reg = v.toNat := by rw [Chip.get, show f.reg.off = f.off from rfl, hv]
    rw [hget] at hset
    have hkept := RegMap.find_reset_of_find rkFwr f.off c.regs v hv (by
      rw [hf.still]
      rintro he
      exact hset (he ▸ hf.clear))
    rw [hf.still, BitVec.ofNat_toNat, BitVec.setWidth_eq] at hkept
    rw [Chip.rd, Chip.get, show f.reg.off = f.off from rfl, hkept]
    exact bne_iff_ne.2 hset

variable (c : Chip)

theorem Chip.on_masterReset {m : Nat} (hp : f.off / 65536 ≠ 120) (h1 : f.off / 65536 ≠ 1) (hm : m < 10) : (c.masterReset m).on f = c.on f := by
  unfold Chip.masterReset
  rw [Chip.on_busShow _ _ fun k hk he => hp (by rw [← he, show (BUS_MST_STAT k).off = 0x780100 + 4 * k from rfl]; omega), Chip.on_when,
    Chip.on_post _ _ _ _ _ _ h1]
  have hcount : (BUS_MASTER_ABORT_COUNT m).off ≠ f.off := fun he => hp (by
    rw [← he, show (BUS_MASTER_ABORT_COUNT m).off = 0x780180 + 4 * m from rfl]
    omega)
  have hflag : BUS_STATUS_MASTER_ABORT.off ≠ f.off := fun he => hp (by rw [← he]; decide)
  rw [Chip.set_def, Chip.on_wr_other _ _ _ _ hflag, Chip.inc_def, Chip.on_wr_other _ _ _ _ hcount, ite_self]
  rfl

/-- The chip as a firmware reset finds it once the counters stand and the ports of the control cores are reset. -/
def Chip.portsReset (c : Chip) : Chip := (c.pmcSync.each (List.range 4) Chip.masterReset).set TOP_RESET_CAUSE_FWR

/-- The registers after a firmware reset. -/
def Chip.fwrRegs (c : Chip) : Chip := ({ c with pwr := { c.pwr with asked := c.pwr.asked ||| 1 } } : Chip).regsReset rkFwr

theorem Chip.fwReset_stages : c.fwReset false = c.portsReset.fwrRegs.coresLost := rfl

theorem Chip.on_portsReset (hpmc : f.off / 65536 ≠ 124) (hbus : f.off / 65536 ≠ 120) (h1 : f.off / 65536 ≠ 1)
    (hcause : TOP_RESET_CAUSE_FWR.apart f = true) : c.portsReset.on f = c.on f := by
  rw [Chip.portsReset, Chip.on_set_keeps _ hcause]
  refine (Chip.each_keeps (·.on f) _ _ (fun d m hm => d.on_masterReset hbus h1 (by have := List.mem_range.1 hm; omega)) _).trans ?_
  exact congrArg (· != 0) (c.rd_pmcSync f hpmc)

theorem Chip.outs_portsReset (h : c.bus.outs = []) : c.portsReset.bus.outs = [] := by
  rw [Chip.portsReset, Chip.set_def, Chip.wr_bus]
  refine Chip.each_invariant (fun c => c.bus.outs = []) _ _ (fun d m _ hd => d.masterReset_outs m hd) _ ?_
  rwa [show c.pmcSync.bus = c.bus from (Chip.pmcSync_within (P := [124]) (T := [.pmcAt]) .refl rfl rfl).part .bus (by decide)]

theorem Chip.bus_fwrRegs : c.fwrRegs.bus = c.bus := by
  have hreset : Chip.Only [.pwr] c c.fwrRegs := by
    unfold Chip.fwrRegs
    refine Chip.Only.each (fun k hk => ?_) fun y b _ => Chip.Only.refl.set
    cases k
    case pwr => simp at hk
    case mem => exact ⟨[], (List.append_nil _).symm, rfl⟩
    all_goals rfl
  exact hreset .bus (by decide)

theorem Chip.ready_fwrRegs : c.fwrRegs.ready = false := Chip.ready_regsReset _ _

theorem Chip.on_fwrRegs (hf : f.KeptByFwr) (h : c.on f = true) : c.fwrRegs.on f = true := Chip.on_regsReset_fwr _ hf h

theorem Chip.bus_coresLost : c.coresLost.bus = c.bus := rfl

theorem Chip.on_coresLost (g : Fld) : c.coresLost.on g = c.on g := rfl

/-- A firmware reset on a part with no access of the bus outstanding: its cause stands, the firmware is not running, and a kept bit stands. -/
theorem Chip.fwReset_shows (mem : Memory) (houts : c.bus.outs = []) (hf : f.KeptByFwr) (h : c.on f = true) (hpage : f.off / 65536 = 128) :
    ((c.fwReset false).busRun mem).on TOP_RESET_CAUSE_FWR = true ∧ ((c.fwReset false).busRun mem).ready = false
      ∧ ((c.fwReset false).busRun mem).on f = true := by
  have hbus : (c.fwReset false).bus.outs = [] := by
    rw [Chip.fwReset_stages]
    rw [Chip.bus_coresLost, Chip.bus_fwrRegs]
    exact c.outs_portsReset houts
  have hshow (g : Fld) (hg : ∀ m < 10, (BUS_MST_STAT m).off ≠ g.off) : (c.fwReset false).busShow.on g = c.portsReset.fwrRegs.on g := by
    rw [Chip.on_busShow _ g hg, Chip.fwReset_stages, Chip.on_coresLost]
  rw [Chip.busRun_idle _ _ hbus]
  refine ⟨(hshow _ (by decide)).trans ?_, (hshow TOP_STATUS_FW_READY (by decide)).trans (Chip.ready_fwrRegs _), (hshow f ?_).trans ?_⟩
  · exact Chip.on_fwrRegs _ Fld.keptByFwr_resetCause (Chip.on_set_same _ rfl (by decide))
  · intro m hm he
    rw [show (BUS_MST_STAT m).off = 0x780100 + 4 * m from rfl] at he
    omega
  · refine Chip.on_fwrRegs _ hf ((c.on_portsReset (by omega) (by omega) (by omega) (Fld.apart_of_off ?_)).trans h)
    intro he
    rw [← he] at hpage
    exact absurd hpage (by decide)

/-! ### The self-checks -/

theorem Chip.selfCheck_of_fail (h : c.checks = some false) : c.selfCheck = c.checksFail := by rw [Chip.selfCheck, h]

theorem Chip.checksFail_shows (mem : Memory) (houts : c.bus.outs = []) :
    (c.checksFail.busRun mem).on TOP_RESET_CAUSE_FWR = true ∧ (c.checksFail.busRun mem).ready = false
      ∧ (c.checksFail.busRun mem).on SEC_STATUS_SELF_CHECK_FAIL = true := by
  refine Chip.fwReset_shows _ mem ?_ (Fld.keptByFwr_secStatus rfl (by decide) rfl (by decide)) ?_ (by decide)
  · rw [Chip.post_bus, Chip.set_def, Chip.wr_bus, houts]
  · rw [Chip.on_post _ _ _ _ _ _ (by decide)]
    exact Chip.on_set_same _ rfl (by decide)

/-- The self-checks have passed. -/
def Chip.checksPass (c : Chip) : Chip :=
  let d := (c.set UPD_STATE_SELF_CHECK_PASSED).post 0x11 0x0004 c.upd.bank 1
  d.setUpd { d.upd with checked := true, healthEnd := some (d.now + sec d.updRec.health) }

theorem Chip.selfCheck_of_pass (h : c.checks = some true) :
    c.selfCheck = c.checksPass.when (c.checksPass.updRec.auto && !c.checksPass.mramHeld) (·.confirm) := by
  rw [Chip.selfCheck, h]
  rfl

theorem Chip.checksPass_upd : c.checksPass.upd = { c.upd with checked := true, healthEnd := some (c.now + sec c.updRec.health) } := by
  unfold Chip.checksPass
  dsimp only [Chip.setUpd]
  rw [Chip.updRec, Chip.post_upd, Chip.set_def, Chip.wr_upd, Chip.post_now, Chip.wr_now]
  rfl

theorem Chip.checksPass_updRec : c.checksPass.updRec = c.updRec := by
  rw [Chip.updRec, c.checksPass_upd]
  rfl

theorem Chip.checksPass_on : c.checksPass.on UPD_STATE_SELF_CHECK_PASSED = true := by
  have hset : c.checksPass.on UPD_STATE_SELF_CHECK_PASSED = ((c.set UPD_STATE_SELF_CHECK_PASSED).post 0x11 0x0004 c.upd.bank 1).on UPD_STATE_SELF_CHECK_PASSED := rfl
  rw [hset, Chip.on_post _ _ _ _ _ _ (by decide)]
  exact Chip.on_set_same _ rfl (by decide)

theorem Chip.checksPass_held : c.checksPass.mramHeld = c.mramHeld := by
  have hset : c.checksPass.mramHeld = ((c.set UPD_STATE_SELF_CHECK_PASSED).post 0x11 0x0004 c.upd.bank 1).mramHeld := rfl
  rw [hset, Chip.mramHeld, Chip.on_post _ _ _ _ _ _ (by decide), Chip.on_set_keeps _ (by decide), Chip.mramHeld]

theorem Chip.checksPass_bus : c.checksPass.bus = c.bus := by
  have hset : c.checksPass.bus = ((c.set UPD_STATE_SELF_CHECK_PASSED).post 0x11 0x0004 c.upd.bank 1).bus := rfl
  rw [hset, Chip.post_bus, Chip.set_def, Chip.wr_bus]

/-! ### The confirmation -/

theorem Upd.newest_write_eq (u : Upd) (r : UpdRec) (now : Nat) : ∃ n, (u.write r now).newest = { r with seq := n } := by
  unfold Upd.newest Upd.write
  dsimp only
  rw [if_neg (Nat.lt_irrefl _)]
  exact ⟨_, rfl⟩

/-- The marks of a trial are cleared. -/
def Chip.trialCleared (c : Chip) : Chip := c.setUpd { c.upd with kept := none, trialBoot := false, healthEnd := none }

/-- The record of a trial that ends in its bank. -/
def Chip.endedRec (c : Chip) : UpdRec := { c.updRec with trial := false, area := 1 - c.updRec.area, fellBack := false }

/-- What a confirmed package brings with it. -/
def Chip.packageKept (c : Chip) (area : Nat) : Chip :=
  match c.pkg c.upd.bank with
  | none => c
  | some p => ((c.raiseCounters p).wr UPD_SCHEMA_JOURNAL (c.upd.schemas.getD (1 - area) 0)).post 0x11 0x0003 c.upd.bank p.version

theorem Chip.confirm_stages (h : c.updRec.trial = true) : c.confirm = (c.recWrite c.endedRec).trialCleared.packageKept c.updRec.area := by
  unfold Chip.confirm
  extract_lets r d src e
  have hd : d = c.recWrite c.endedRec := rfl
  clear_value d
  have he : e = d.trialCleared := rfl
  clear_value e
  rw [if_neg (by rw [h]; decide), ← hd, ← he]
  rfl

theorem Chip.packageKept_only (area : Nat) : Chip.Only [] c (c.packageKept area) := by
  unfold Chip.packageKept
  split
  · exact .refl
  · exact ((Chip.Only.refl.each fun _ _ _ => Chip.Only.refl.wr).wr).post

theorem Chip.updRec_trialCleared : c.trialCleared.updRec = c.updRec := rfl

theorem Chip.updRec_recWrite (r : UpdRec) : ∃ n, (c.recWrite r).updRec = { r with seq := n } := by
  rw [Chip.updRec, Chip.recWrite_upd]
  exact Upd.newest_write_eq c.upd r c.now

theorem Chip.bus_trialCleared : c.trialCleared.bus = c.bus := rfl

theorem Chip.bus_recWrite (r : UpdRec) : (c.recWrite r).bus = c.bus := Chip.updShow_only _ .bus (by simp)

theorem Chip.on_trialCleared (f : Fld) : c.trialCleared.on f = c.on f := rfl

theorem Chip.on_recWrite (r : UpdRec) : (c.recWrite r).on UPD_STATE_SELF_CHECK_PASSED = c.on UPD_STATE_SELF_CHECK_PASSED := by
  unfold Chip.recWrite Chip.updShow
  dsimp only
  rw [Chip.on_wr_keeps _ _ (by decide), Chip.on_wr_keeps _ _ (by decide), Chip.on_wr_keeps _ _ (by decide), Chip.on_wr_keeps _ _ (by decide),
    Chip.on_wrB_keeps _ _ (by decide), Chip.on_wr_keeps _ _ (by decide)]
  rfl

theorem Chip.on_packageKept (area : Nat) : (c.packageKept area).on UPD_STATE_SELF_CHECK_PASSED = c.on UPD_STATE_SELF_CHECK_PASSED := by
  unfold Chip.packageKept
  split
  · rfl
  · rw [Chip.on_post _ _ _ _ _ _ (by decide), Chip.on_wr_keeps _ _ (by decide)]
    refine Chip.each_keeps (·.on UPD_STATE_SELF_CHECK_PASSED) _ _ (fun d k hk => Chip.on_wr_other _ _ _ _ fun he => ?_) _
    have hk6 := List.mem_range.1 hk
    clear hk
    interval_cases k <;> exact absurd he (by decide)

theorem Chip.confirm_shows (h : c.updRec.trial = true) :
    c.confirm.updRec.trial = false ∧ c.confirm.updRec.area = 1 - c.updRec.area ∧ c.confirm.upd.healthEnd = none
      ∧ c.confirm.on UPD_STATE_SELF_CHECK_PASSED = c.on UPD_STATE_SELF_CHECK_PASSED ∧ c.confirm.bus = c.bus := by
  obtain ⟨n, hn⟩ := c.updRec_recWrite c.endedRec
  have hrec := ((c.recWrite c.endedRec).updRec_trialCleared).trans hn
  have hkept (d : Chip) : (d.packageKept c.updRec.area).upd = d.upd ∧ (d.packageKept c.updRec.area).bus = d.bus :=
    ⟨d.packageKept_only _ .upd (by simp), d.packageKept_only _ .bus (by simp)⟩
  obtain ⟨hupd, hbus⟩ := hkept (c.recWrite c.endedRec).trialCleared
  rw [c.confirm_stages h, hupd, hbus, Chip.on_packageKept, Chip.on_trialCleared, Chip.on_recWrite, Chip.bus_trialCleared, Chip.bus_recWrite,
    show ((c.recWrite c.endedRec).trialCleared.packageKept c.updRec.area).updRec = { c.endedRec with seq := n } from (congrArg Upd.newest hupd).trans hrec]
  exact ⟨rfl, rfl, rfl, rfl, rfl⟩

/-! ### Restarts of lanes -/

theorem Chip.upd_lnLnr (n : Nat) : (c.lnLnr n).upd = c.upd := by
  simp [Chip.lnLnr, Chip.lnForget, Chip.clr_def, Chip.set_def]

theorem Chip.upd_lnTrainStart (n : Nat) (lnr : Bool) : (c.lnTrainStart n lnr).upd = c.upd := by
  simp [Chip.lnTrainStart, Chip.lnForget, Chip.inc_def, Chip.upd_lnLnr]

theorem Chip.upd_linkShow (l : Nat) : (c.linkShow l).upd = c.upd := by
  unfold Chip.linkShow
  dsimp only
  split <;> simp [Chip.wrB_def]

theorem Chip.upd_laneTouched (n : Nat) : (c.laneTouched n).upd = c.upd := by
  unfold Chip.laneTouched
  split
  · rfl
  · split
    · rfl
    · exact c.upd_linkShow _

/-- The retry of a failed lane is counted. -/
def Chip.retryCounted (c : Chip) (n : Nat) : Chip := c.when (c.lnSt n == lnFailed) (·.inc ((lnTrain n).fld 16 8))

theorem Chip.lnReset_stages (n : Nat) : c.lnReset n
    = if c.lnSt n ≤ lnDoze then (c.lnLnr n).laneTouched n else ((c.retryCounted n).lnTrainStart n true).laneTouched n := rfl

theorem Chip.upd_retryCounted (n : Nat) : (c.retryCounted n).upd = c.upd := by
  rcases c.when_cases (c.lnSt n == lnFailed) (·.inc ((lnTrain n).fld 16 8)) with h | h
  · exact congrArg Chip.upd h
  · exact (congrArg Chip.upd h).trans (Chip.wr_upd ..)

theorem Chip.upd_lnReset (n : Nat) : (c.lnReset n).upd = c.upd := by
  rw [Chip.lnReset_stages]
  split
  · rw [Chip.upd_laneTouched, Chip.upd_lnLnr]
  · rw [Chip.upd_laneTouched, Chip.upd_lnTrainStart, Chip.upd_retryCounted]

theorem Chip.upd_netCount (p k n : Nat) : (c.netCount p k n).upd = c.upd := by
  unfold Chip.netCount Chip.setBit
  dsimp only
  rw [Chip.when_keeps (·.upd) _ _ ?_, Chip.put_upd]
  split <;> simp

theorem Chip.upd_netDown (p cause : Nat) : (c.netDown p cause).upd = c.upd := by
  unfold Chip.netDown
  split
  · rw [Chip.post_upd, Chip.upd_netCount, Chip.set_def, Chip.wr_upd]
  · rfl

theorem Chip.upd_netLnr (p : Nat) : (c.netLnr p).upd = c.upd := by
  unfold Chip.netLnr Chip.npTo
  dsimp only
  split
  · rw [Chip.put_upd, Chip.set_def, Chip.wr_upd]
  · rw [Chip.wr_upd, Chip.put_upd, Chip.upd_netDown, Chip.set_def, Chip.wr_upd]

theorem Chip.upd_twnShow : c.twnShow.upd = c.upd :=
  (Chip.twnShow_within .refl (by decide) (by decide) : Chip.Within [0, 112] [] c _).part .upd (by decide)

theorem Chip.txPause_shows (n : Nat) : (c.txPause n).rd (SDI_TX_STAT_STATE n) = 0 ∧ (c.txPause n).rd (SDI_TX_STAT_RATE n) = 0
    ∧ (c.txPause n).upd = c.upd := by
  unfold Chip.txPause
  dsimp only
  rw [Chip.setSdiLane_rd, Chip.setSdiLane_rd, Chip.rd_wr_keeps _ _ (by simp [Fld.apart, SDI_TX_STAT_RATE, SDI_TX_STAT_STATE, Reg.fld])]
  refine ⟨Chip.rd_wr_lt rfl (Nat.two_pow_pos _), Chip.rd_wr_lt rfl (Nat.two_pow_pos _), ?_⟩
  rw [Chip.setSdiLane_upd, Chip.wr_upd, Chip.wr_upd]

/-- A lane of the roll-out, of any kind, restarts. -/
def Chip.kindRestart (c : Chip) (kind n : Nat) : Chip :=
  match kind with
  | 0 => c.txPause n
  | 1 => c.lnReset n
  | 2 => (c.lnReset (48 + n)).twnShow
  | _ => c.netLnr n

theorem Chip.upd_kindRestart (kind n : Nat) : (c.kindRestart kind n).upd = c.upd := by
  unfold Chip.kindRestart
  split
  · exact (c.txPause_shows n).2.2
  · exact c.upd_lnReset n
  · rw [Chip.upd_twnShow, Chip.upd_lnReset]
  · exact c.upd_netLnr n

theorem Chip.laneRestart_stages {kind n : Nat} {rest : List (Nat × Nat)} (hready : c.ready = true) (hroll : c.upd.rollout = (kind, n) :: rest)
    (hdone : c.restartDone = true) :
    c.laneRestart = (c.setUpd { c.upd with rollout := rest, restart := some (kind, n, c.now), done := c.upd.done + 1 }).kindRestart kind n := by
  unfold Chip.laneRestart
  rw [hroll]
  dsimp only
  rw [if_neg (by simp [hready, hdone])]
  rfl

/-- The last lane is done. -/
def Chip.rolloutEnded (c : Chip) : Chip :=
  let d := (c.setUpd { c.upd with restart := none }).clr UPD_STATE_SERDES_ROLLOUT
  d.post 0x11 0x0006 d.upd.bank d.upd.done

theorem Chip.rolloutEnded_shows : c.rolloutEnded.on UPD_STATE_SERDES_ROLLOUT = false ∧ c.rolloutEnded.upd.restart = none := by
  unfold Chip.rolloutEnded
  dsimp only
  rw [Chip.on_post _ _ _ _ _ _ (by decide), Chip.post_upd, Chip.clr_def, Chip.wr_upd, ← Chip.clr_def]
  exact ⟨Chip.on_clr_same _ rfl, rfl⟩

theorem Chip.upd_busShow : c.busShow.upd = c.upd := c.busShow_only .upd (by simp)

end

theorem State.commit_fwr (s : State) {d : Chip} {f : Fld} (h : d.on TOP_RESET_CAUSE_FWR = true ∧ d.ready = false ∧ d.on f = true) :
    (s.commit d).chip.on TOP_RESET_CAUSE_FWR = true ∧ (s.commit d).chip.ready = false ∧ (s.commit d).chip.on f = true :=
  ⟨(State.commit_on ..).trans h.1, (State.commit_on ..).trans h.2.1, (State.commit_on ..).trans h.2.2⟩

/-- Settles O60: a firmware reset keeps the bits of SEC_STATUS, and of the update's working state a restart writes the roll-out alone. -/
theorem trialAndRollout : Obligations.TrialAndRollout := by
  unfold Obligations.TrialAndRollout
  refine ⟨?_, ?_, ?_, ?_, ?_, ?_, ?_, ?_⟩
  · rintro s t c rfl hchecks houts hauto
    have hrow : Sys2Proof.Machine.exec (.updSelfCheck t) s = .next (s.commit ((s.chipAt t).selfCheck.busRun s.mem)) := rfl
    have hself : (s.chipAt t).selfCheck = (s.chipAt t).checksPass := by
      rw [Chip.selfCheck_of_pass _ hchecks, Chip.checksPass_updRec, Chip.checksPass_held]
      rcases hauto with h | h <;> rw [h]
      · rfl
      · rw [Bool.not_true, Bool.and_false, Chip.when_false]
    have hupd := (s.chipAt t).checksPass_upd
    rw [hself, Chip.busRun_idle _ _ ((congrArg Bus.outs (Chip.checksPass_bus _)).trans houts)] at hrow
    refine ⟨_, hrow, ?_, ?_, ?_, ?_⟩
    · rw [State.commit_on, Chip.on_busShow _ _ (by decide)]
      exact Chip.checksPass_on _
    · rw [State.commit_upd, Chip.upd_busShow, hupd]
    · rw [State.commit_upd, Chip.upd_busShow, hupd]
    · rw [Chip.updRec, State.commit_upd, Chip.upd_busShow]
      exact Chip.checksPass_updRec _
  · rintro s t c rfl hchecks houts hauto hheld htrial
    have hrow : Sys2Proof.Machine.exec (.updSelfCheck t) s = .next (s.commit ((s.chipAt t).selfCheck.busRun s.mem)) := rfl
    have hself : (s.chipAt t).selfCheck = (s.chipAt t).checksPass.confirm := by
      rw [Chip.selfCheck_of_pass _ hchecks, Chip.checksPass_updRec, Chip.checksPass_held, hauto, hheld]
      rfl
    obtain ⟨h1, h2, h3, h4, h5⟩ := (s.chipAt t).checksPass.confirm_shows ((congrArg UpdRec.trial (Chip.checksPass_updRec _)).trans htrial)
    rw [Chip.checksPass_updRec] at h2
    rw [hself, Chip.busRun_idle _ _ ((congrArg Bus.outs (h5.trans (Chip.checksPass_bus _))).trans houts)] at hrow
    refine ⟨_, hrow, ?_, ?_, ?_, ?_⟩
    · rw [State.commit_on, Chip.on_busShow _ _ (by decide), h4]
      exact Chip.checksPass_on _
    · rw [Chip.updRec, State.commit_upd, Chip.upd_busShow]
      exact h1
    · rw [State.commit_upd, Chip.upd_busShow]
      exact h3
    · rw [Chip.updRec, State.commit_upd, Chip.upd_busShow]
      exact h2
  · rintro s t c rfl hchecks houts
    have hrow : Sys2Proof.Machine.exec (.updSelfCheck t) s = .next (s.commit ((s.chipAt t).selfCheck.busRun s.mem)) := rfl
    rw [Chip.selfCheck_of_fail _ hchecks] at hrow
    exact ⟨_, hrow, s.commit_fwr ((s.chipAt t).checksFail_shows s.mem houts)⟩
  · rintro s t c rfl hready htrial hchecked hdue houts
    have hrow : Sys2Proof.Machine.exec (.selfCheckTimeout t) s = .next (s.commit ((s.chipAt t).selfTimeout.busRun s.mem)) := rfl
    rw [show (s.chipAt t).selfTimeout = (s.chipAt t).checksFail from if_pos ⟨hready, htrial, by rw [hchecked]; rfl, hdue⟩] at hrow
    exact ⟨_, hrow, s.commit_fwr ((s.chipAt t).checksFail_shows s.mem houts)⟩
  · rintro s t e c rfl hready htrial hend hdue hwaits houts
    have hrow : Sys2Proof.Machine.exec (.healthExpired t) s = .next (s.commit ((s.chipAt t).healthExpire.busRun s.mem)) := rfl
    have hreset : (s.chipAt t).healthExpire = ((s.chipAt t).set SEC_STATUS_HEALTH_EXPIRED).fwReset false := by
      unfold Chip.healthExpire
      rw [hend]
      exact if_pos ⟨hready, htrial, hdue, by rw [hwaits]; rfl⟩
    rw [hreset] at hrow
    refine ⟨_, hrow, s.commit_fwr (Chip.fwReset_shows _ s.mem ?_ (Fld.keptByFwr_secStatus rfl (by decide) rfl (by decide))
      (Chip.on_set_same _ rfl (by decide)) (by decide))⟩
    rw [Chip.set_def, Chip.wr_bus, houts]
  · rintro s t kind n rest c rfl hready hroll hdone
    have hrow := (State.fwStep_ready s t Chip.laneRestart hready)
    rw [Chip.laneRestart_stages _ hready hroll hdone] at hrow
    generalize hd : (s.chipAt t).setUpd { (s.chipAt t).upd with
      rollout := rest, restart := some (kind, n, (s.chipAt t).now), done := (s.chipAt t).upd.done + 1 } = d at hrow
    have hupd : (s.commit (d.kindRestart kind n)).chip.upd = d.upd := d.upd_kindRestart kind n
    refine ⟨_, hrow, ?_, ?_, ?_, ?_⟩
    · rw [hupd, ← hd]
      rfl
    · rw [hupd, ← hd]
      rfl
    · rw [hupd, ← hd]
      rfl
    · rintro rfl
      obtain ⟨h1, h2, -⟩ := d.txPause_shows n
      exact ⟨(State.commit_rd ..).trans h1, (State.commit_rd ..).trans h2⟩
  · rintro s t c rfl hready hroll hempty hdone
    have hrow := (State.fwStep_ready s t Chip.serdesDone hready)
    have hended : (s.chipAt t).serdesDone = (s.chipAt t).rolloutEnded := if_neg (by simp [hroll, hempty, hdone, hready])
    rw [hended] at hrow
    exact ⟨_, hrow, (s.chipAt t).rolloutEnded_shows⟩
  · rintro s t k c rfl hlive
    exact ⟨_, State.event_live s t _ hlive, rfl, rfl⟩

end Sys2Proof.Machine
end

section
/-! SUPPORT. A counterexample on the multiviewer: a held request whose channel number is none of the 16. -/

namespace Sys2Proof.Machine

/-- A request to load graphic layer 1 of head 0, whose channel number places MBX_CH_STAT on the layer's MVC_GL_FENCE. -/
def Wait.strayLoad : Wait := { req := ⟨0xBE226, 1, 0, 0, 4, 0, [4]⟩, plan := {}, since := 0, long := some .graphic }

/-- A running part that holds such a request, with the load of its layer under way. -/
def State.strayLoad : State :=
  { chip := ({ fw := { waits := [Wait.strayLoad] }, heads := [(0, { gls := [(1, { load := some [] })] })] } : Chip).set TOP_STATUS_FW_READY }

/-- Refutes O52: its clause on GRAPHIC_LOAD_DONE has no premise that the request held is one of a channel that exists. In `State.strayLoad` its channel
number places MBX_CH_STAT on MVC_GL_FENCE of the layer, so that the answer sets LOADING again. -/
theorem not_multiviewer : ¬ Obligations.Multiviewer := by
  unfold Obligations.Multiviewer
  rintro ⟨-, -, -, hdone⟩
  obtain ⟨s', hexec, hloading, -⟩ := hdone State.strayLoad 0 0 1 [] Wait.strayLoad [] _ rfl (by decide +kernel) (by decide +kernel) (by decide +kernel) rfl
  have hrow : exec (.graphicLoadDone 0 0 1 (some [])) State.strayLoad
      = .next (State.strayLoad.commit ((State.strayLoad.chipAt 0).graphicDone 0 1 (some []))) :=
    State.fwStep_ready _ _ _ (by decide +kernel)
  rw [hrow] at hexec
  obtain rfl := Host.Outcome.next.inj hexec
  revert hloading
  decide +kernel

end Sys2Proof.Machine
end

section
/-! SUPPORT. A counterexample on the frame of further events: a lane of the roll-out that the part has not. -/

namespace Sys2Proof.Machine

/-- A running part whose roll-out names an SDI transmitter 65536, where no register stands, with a word listed at that offset. -/
def State.strayRollout : State :=
  { chip := ({ upd := { rollout := [(0, 65536)] }, regs := [((SDI_TX_STAT 65536).off, 1)] } : Chip).set TOP_STATUS_FW_READY }

/-- Refutes O16: its clause on SERDES_LANE_RESTART has no premise that the lanes of the roll-out exist. In `State.strayRollout` the row writes off the
pages listed. -/
theorem not_otherEventsFrame : ¬ Obligations.OtherEventsFrame := by
  unfold Obligations.OtherEventsFrame
  rintro ⟨-, hall⟩
  have hrestart : State.strayRollout.keeps [0, 1, 32, 48, 64, 112, 128] [.sdi, .lanes, .links, .upd] 0 (.serdesLaneRestart 0) := by
    obtain ⟨-, -, -, -, -, -, -, -, -, -, -, -, -, -, -, -, -, -, -, -, -, -, -, -, -, -, h, -⟩ := hall
    exact h State.strayRollout 0 ⟨rfl, by decide +kernel, by decide +kernel⟩
  obtain ⟨s', hexec, hframe⟩ := hrestart
  have hcell := hframe.chip.cell (SDI_TX_STAT 65536).off (by decide)
  have hrow : exec (.serdesLaneRestart 0) State.strayRollout = .next (State.strayRollout.commit (State.strayRollout.chipAt 0).laneRestart) :=
    State.fwStep_ready _ _ _ (by decide +kernel)
  rw [hrow] at hexec
  obtain rfl := Host.Outcome.next.inj hexec
  revert hcell
  decide +kernel

end Sys2Proof.Machine
end

section
/-! SUPPORT. A counterexample on the audio blocks: a held request that waits for the block and resets the part after its answer. -/

namespace Sys2Proof.Machine

/-- A request that waits for a boundary or block and is followed by a PIN reset. -/
def Wait.resetAfter : Wait := { req := ⟨0, 1, 0, 0, 0, 0, []⟩, plan := { after := .pin }, since := 0, long := some .boundary }

/-- A part whose audio engine works, and that holds such a request. -/
def State.resetAfter : State :=
  { chip := (({ fw := { waits := [Wait.resetAfter] }, planes := [{ counted := true }, {}] } : Chip).wr (REF_PLANE_CFG_FORMAT 0) 1).wr
      (PWR_DOM_CTL_CUR domAud) stActive }

/-- An audio block without inputs. -/
def AudioBlock.silent : AudioBlock := ⟨[], [], 0, 0, []⟩

/-- Refutes O51: its clause on a block of the running engine has no premise on the requests held. In `State.resetAfter` the request that waits for the
block is answered and followed by a PIN reset, after which no block runs. -/
theorem not_audio : ¬ Obligations.Audio := by
  unfold Obligations.Audio
  rintro ⟨⟨hblock, -⟩, -⟩
  obtain ⟨s', hexec, hruns, -⟩ := hblock State.resetAfter 0 AudioBlock.silent _ rfl (by decide +kernel) (by decide +kernel) (by decide +kernel)
    (by decide +kernel) (by decide +kernel) (by decide +kernel)
  have hrow : exec (.audioBlock 0 AudioBlock.silent) State.resetAfter
      = .next (State.resetAfter.commit (((State.resetAfter.chipAt 0).sapTake.audioBlock AudioBlock.silent).boundaryDone)) :=
    State.event_live _ _ _ (by decide +kernel)
  rw [hrow] at hexec
  obtain rfl := Host.Outcome.next.inj hexec
  revert hruns
  decide +kernel

end Sys2Proof.Machine
end

section
/-! SUPPORT. A part that is asked a request, for counterexamples on requests, and the refutations of statements whose requests bear an epoch, set
something, or last. -/

namespace Sys2Proof.Machine

/-- The part of a chip with its firmware running, whose channel 0 has rung for the request of the words given. -/
def State.asking (c : Chip) (ws : List Nat) : State :=
  { chip := (({ c with fw := { c.fw with order := [(0, 0)] } } : Chip).set TOP_STATUS_FW_READY).set (MBX_CH_STAT_BUSY 0)
    mem := Memory.apply [] (.words (reqBuf 0) ws) }

/-- What makes request `r` of channel 0 the one asked at instant 0, computed. -/
def State.asksNow (s : State) (r : Req) : Bool :=
  let c := s.chipAt 0
  s.mem.wf && s.chip.out.isEmpty && s.chip.evts == 0 && c.nextBell == some (0, 0) && c.on (MBX_CH_STAT_BUSY 0) && reqVersion s.mem 0 == 1
    && decide (parseReq s.mem 0 = r) && r.chan == 0 && (c.fw.hist.find? fun h => h.chan == 0 && h.seq == r.seq).isNone && (c.formFails r).isNone
    && c.bus.outs.isEmpty

theorem State.asks_of_asksNow {s : State} {r : Req} (h : s.asksNow r = true) : s.Inv ∧ s.asks 0 0 r ∧ (s.chipAt 0).bus.outs = [] := by
  simp only [State.asksNow, Bool.and_eq_true, List.isEmpty_iff, beq_iff_eq, decide_eq_true_eq, Option.isNone_iff_eq_none] at h
  obtain ⟨⟨⟨⟨⟨⟨⟨⟨⟨⟨hwf, hout⟩, hevts⟩, hbell⟩, hbusy⟩, hversion⟩, hparse⟩, hchan⟩, hhist⟩, hform⟩, houts⟩ := h
  exact ⟨⟨hwf, hout, hevts⟩, ⟨⟨0, hbell⟩, hbusy, hversion, hparse, hchan, hhist, hform⟩, houts⟩

/-- What lets a request be asked of a part alone, which holds no writes of MRAM, computed. -/
def State.mayAskNow (s : State) (r : Req) : Bool :=
  let c := s.chipAt 0
  s.asksNow r && !r.checkOnly && !r.targetPeer && c.twnMode == 0 && !c.upd.refused && !c.mramHeld

theorem State.mayAsk_of_mayAskNow {s : State} {r : Req} (h : s.mayAskNow r = true) : s.mayAsk 0 0 r.opcode r := by
  simp only [State.mayAskNow, Bool.and_eq_true, beq_iff_eq, Bool.not_eq_true'] at h
  obtain ⟨⟨⟨⟨⟨hnow, hcheck⟩, hpeer⟩, hmode⟩, hrefused⟩, hheld⟩ := h
  obtain ⟨hinv, hasks, houts⟩ := State.asks_of_asksNow hnow
  exact ⟨hinv, hasks, rfl, hcheck, hpeer, hmode, hrefused, hheld, houts⟩

/-! ### O34 -/

/-- MVC_FLIP of graphic layer 0 of head 0, twice, with two labels. -/
def Req.flips : Req := ⟨0, 0, 0x0E83, 0, 12, 0, [2, 0x10000, 0x20000]⟩

/-- A part whose plane 0 is locked, with head 0 enabled and one graphic layer on it. -/
def State.flips : State :=
  .asking ((({} : Chip).put (MVC_HEAD_CTL 0) (1 + 2 ^ 7)).wr (REF_PLANE_STAT_STATE 0) 4) [2 ^ 24, 0x0E83, 12, 0, 2, 0x10000, 0x20000]

/-- Refutes O34: MVC_FLIP does not forbid that two of its entries name one layer. In `State.flips` the second takes the place of the first in the take
queue, where the statement asks for both. -/
theorem not_epochRequests : ¬ Obligations.EpochRequests := by
  unfold Obligations.EpochRequests
  rintro ⟨-, -, -, -, -, -, -, -, -, -, -, -, hflip⟩
  obtain ⟨s', hexec, -, hqueue⟩ := hflip State.flips 0 0 Req.flips 3000000 _ rfl (State.mayAsk_of_mayAskNow (by decide +kernel)) (by decide +kernel)
    (by decide +kernel) (by decide +kernel) (by decide +kernel)
  obtain rfl := Host.Outcome.next.inj hexec
  revert hqueue
  decide +kernel

end Sys2Proof.Machine
end

section
/-! SUPPORT. Counterexamples on the statements of further requests, of the frame boundary and of the endpoint. -/

namespace Sys2Proof.Machine

/-! ### O31 and O32: word 3 of a request whose opcode bears no epoch -/

/-- LANE_RESET of the receive direction of SDI lane 0, with a word 3 that is not 0. -/
def Req.laneReset : Req := ⟨0, 0, 0x0085, 0, 4, 1, [0]⟩

/-- A part that is asked it. -/
def State.laneReset : State := .asking {} [2 ^ 24, 0x0085, 4, 1, 0]

/-- Refutes O31: its clauses on LANE_RESET have no premise on word 3. In `State.laneReset` the word is 1, and the request is refused with BAD_ARG. -/
theorem not_topAndPowerRequests : ¬ Obligations.TopAndPowerRequests := by
  unfold Obligations.TopAndPowerRequests
  rintro ⟨-, -, -, hreset, -⟩
  obtain ⟨s', hexec, hanswer, -⟩ := hreset State.laneReset 0 0 Req.laneReset _ rfl (State.mayAsk_of_mayAskNow (by decide +kernel)) (by decide +kernel)
    (by decide +kernel) (by decide +kernel) (by decide +kernel)
  obtain rfl := Host.Outcome.next.inj hexec
  obtain ⟨-, -, -, hhist, -⟩ := hanswer
  revert hhist
  decide +kernel

/-- SEC_ATTEST of a report, with a word 3 that is not 0. -/
def Req.attest : Req := ⟨0, 0, 0x1101, 0, 36, 1, [0, 0, 0, 0, 0, 0, 0, 0, 0]⟩

/-- A part that is asked it. -/
def State.attest : State := .asking {} [2 ^ 24, 0x1101, 36, 1]

/-- Refutes O32: its clause on SEC_ATTEST has no premise on word 3. In `State.attest` the word is 1, and the request is refused at once. -/
theorem not_requestsThatResetOrLast : ¬ Obligations.RequestsThatResetOrLast := by
  unfold Obligations.RequestsThatResetOrLast
  rintro ⟨-, ⟨hattest, -⟩, -⟩
  obtain ⟨s', hexec, hwaits, -⟩ := hattest State.attest 0 0 Req.attest _ rfl (State.mayAsk_of_mayAskNow (by decide +kernel)) (by decide +kernel)
    (by decide +kernel) (by decide +kernel)
  obtain rfl := Host.Outcome.next.inj hexec
  revert hwaits
  decide +kernel

/-! ### O33: two settings of one bonded group -/

/-- SDI_SET_RX of lane 1 in class 2, and then of lane 0 without bonding. -/
def Req.unbond : Req := ⟨0, 0, 0x0880, 0, 12, 0, [2, 1 + 2 * 64, 3 * 64]⟩

/-- A part whose lanes 0 to 3 are bonded, that is asked it. -/
def State.unbond : State := .asking (({} : Chip).put (SDI_RX_CTL 0) (3 + 8)) [2 ^ 24, 0x0880, 12, 0, 2, 1 + 2 * 64, 3 * 64]

/-- Refutes O33: SDI_SET_RX sets its lanes in the order of its entries. In `State.unbond` lane 1 is still bonded when its entry is carried out, so that
its class stays, and the entry of lane 0 ends the bond after it. -/
theorem not_settingRequests : ¬ Obligations.SettingRequests := by
  unfold Obligations.SettingRequests
  rintro ⟨-, -, -, -, -, -, hrx, -⟩
  obtain ⟨s', hexec, -, hset⟩ := hrx State.unbond 0 0 Req.unbond _ rfl (State.mayAsk_of_mayAskNow (by decide +kernel)) (by decide +kernel)
    (by decide +kernel) (by decide +kernel) (by decide +kernel) (by decide +kernel)
  obtain rfl := Host.Outcome.next.inj hexec
  revert hset
  decide +kernel

/-! ### O15: the first block of a download -/

/-- UPD_DOWNLOAD of the first block of a package of 64 KiB. -/
def Req.firstBlock : Req := ⟨0, 0, 0x1180, 0, 28, 0, [1, 0, 0x10000, 0, 0, 0, 0]⟩

/-- The first byte of the inactive bank of flash. -/
def flashByte : Nat := flashBase + 2 ^ 26

/-- A part with a byte in the inactive bank of flash, that is asked it. -/
def State.firstBlock : State :=
  { State.asking {} [] with mem := Memory.apply [(flashByte, 1)] (.words (reqBuf 0) [2 ^ 24, 0x1180, 28, 0, 1, 0, 0x10000, 0, 0, 0, 0]) }

/-- Refutes O15: a request may change memory outside the response buffer of its channel and the event ring. In `State.firstBlock` the first block of a
download discards what the inactive bank of flash held (R621). -/
theorem not_requestsFrame : ¬ Obligations.RequestsFrame := by
  unfold Obligations.RequestsFrame
  rintro ⟨-, -, hset⟩
  have hdownload : State.firstBlock.asked [1, 112, 120, 128] [.fw, .pwr, .sent, .twn, .upd] 0 0 (.updDownload 0 0) :=
    hset State.firstBlock 0 0 (.updDownload, [128], [.upd]) ⟨by decide +kernel, rfl, rfl⟩ (by decide +kernel) (by decide +kernel) (by simp)
  obtain ⟨s', hexec, hframe⟩ := hdownload
  have hbyte := hframe.bytes flashByte (by decide +kernel) (by decide +kernel)
  obtain rfl := Host.Outcome.next.inj hexec
  revert hbyte
  decide +kernel

/-! ### O35: what follows a request that waits for the boundary -/

/-- A part whose plane 0 is locked, and that holds a request that waits for a boundary and resets the part after its answer. -/
def State.resetAtBoundary : State :=
  { chip := (({ fw := { waits := [Wait.resetAfter] } } : Chip).wr (REF_PLANE_STAT_STATE 0) 4).set TOP_STATUS_FW_READY }

/-- Refutes O35: its clause on FRAME_BOUNDARY has no premise on the requests held. In `State.resetAtBoundary` the request that waits for the boundary is
answered and followed by a PIN reset, after which the plane does not count. -/
theorem not_frameBoundaryAndTakes : ¬ Obligations.FrameBoundaryAndTakes := by
  unfold Obligations.FrameBoundaryAndTakes
  rintro ⟨hboundary, -⟩
  obtain ⟨s', hexec, -, -, hcounted, -⟩ := hboundary State.resetAtBoundary 0 0 _ rfl (by decide +kernel) (by decide +kernel) (by decide +kernel)
    (by decide +kernel) (by decide +kernel) (by decide +kernel)
  have hrow : exec (.frameBoundary 0 0) State.resetAtBoundary
      = .next (State.resetAtBoundary.commit ((State.resetAtBoundary.chipAt 0).frameBoundary State.resetAtBoundary.mem 0)) :=
    State.event_live _ _ _ (by decide +kernel)
  rw [hrow] at hexec
  obtain rfl := Host.Outcome.next.inj hexec
  revert hcounted
  decide +kernel

/-! ### O25: an access that waits while the endpoint is reset -/

/-- A write of the doorbell of channel 0 by master 0. -/
def BusAcc.bell : BusAcc :=
  { m := 0, id := 0, write := true, user := false, addr := 0x10100, beats := 1, size := 4, data := [1, 0, 0, 0], poison := false }

/-- A part whose firewall allows it the registers, on which that access is outstanding. -/
def State.bellWaits : State := { chip := ({ bus := { outs := [⟨BusAcc.bell, false, 0, false⟩] } } : Chip).wr (BUS_FW_WRITE 0) 1 }

/-- Refutes O25: its clause on ENDPOINT_RESET asks that the doorbell order stays, with no premise on the accesses outstanding. In `State.bellWaits` the
access that the row lets go on rings a doorbell. -/
theorem not_hostInterface : ¬ Obligations.HostInterface := by
  unfold Obligations.HostInterface
  rintro ⟨-, -, -, -, hreset, -⟩
  obtain ⟨s', hexec, -, -, -, -, -, horder, -⟩ := hreset State.bellWaits 0 _ rfl
  obtain rfl := Host.Outcome.next.inj hexec
  revert horder
  decide +kernel

end Sys2Proof.Machine
end

section
/-! SUPPORT. Accesses of the bus matrix. -/

namespace Sys2Proof.Machine

section
variable (c : Chip)

/-! ### One access with nothing outstanding -/

/-- The accesses outstanding are one. -/
def Chip.busHolds (c : Chip) (o : BusOut) : Chip := c.setBus { c.bus with outs := [o] }

theorem Chip.phase_of_live (h : c.live = true) : c.pwr.phase ≠ .held ∧ c.pwr.phase ≠ .quiet := by
  simpa [Chip.live] using h

/-- An access that need not wait is served at once. -/
theorem Chip.busIssue_serves {mem : Memory} {a : BusAcc} {lock : Bool} (hlive : c.live = true) (houts : c.bus.outs = []) (hlocks : c.bus.locks = [])
    (hacc : c.busAccepts a = true) (hhang : (c.aptHangs a && !lock) = false) (hlock : ¬(lock = true ∧ a.write = true)) :
    c.busIssue mem a lock = (c.busServe mem ⟨a, lock, c.now, false⟩).busShow := by
  obtain ⟨hheld, hquiet⟩ := c.phase_of_live hlive
  have hself : (c.busHolds ⟨a, lock, c.now, false⟩).setBus { (c.busHolds ⟨a, lock, c.now, false⟩).bus with outs := [] } = c := by
    change c.setBus { c.bus with outs := [] } = c
    rw [← houts]
    rfl
  have hnext : nextOut (c.busHolds ⟨a, lock, c.now, false⟩).bus.locks [] (c.busHolds ⟨a, lock, c.now, false⟩).bus.outs = some ⟨a, lock, c.now, false⟩ := by
    change nextOut c.bus.locks [] [⟨a, lock, c.now, false⟩] = _
    rw [hlocks]
    simp [nextOut]
  have herase : (c.busHolds ⟨a, lock, c.now, false⟩).bus.outs.erase ⟨a, lock, c.now, false⟩ = [] := List.erase_cons_head ..
  have hstart : c.busIssue mem a lock = ((c.busHolds ⟨a, lock, c.now, false⟩).busPump mem 1).busShow := by
    unfold Chip.busIssue
    rw [if_neg (by simp [hacc, hheld, hquiet]; simpa using hlock), hhang, houts]
    rfl
  rw [hstart, Chip.busPump, hnext]
  dsimp only
  rw [herase, hself]
  rfl

/-- An access that hangs waits. -/
theorem Chip.busIssue_waits {mem : Memory} {a : BusAcc} (hlive : c.live = true) (houts : c.bus.outs = []) (hacc : c.busAccepts a = true)
    (hhang : c.aptHangs a = true) :
    c.busIssue mem a false = ((c.busHolds ⟨a, false, c.now, true⟩).set BUS_STATUS_APT_HANG).busShow := by
  obtain ⟨hheld, hquiet⟩ := c.phase_of_live hlive
  have hbus : ((c.busHolds ⟨a, false, c.now, true⟩).set BUS_STATUS_APT_HANG).bus = (c.busHolds ⟨a, false, c.now, true⟩).bus := Chip.wr_bus ..
  have hstart : c.busIssue mem a false = ((c.busHolds ⟨a, false, c.now, true⟩).set BUS_STATUS_APT_HANG).busRun mem := by
    unfold Chip.busIssue
    rw [if_neg (by simp [hacc, hheld, hquiet]), hhang, houts]
    simp only [Bool.not_false, Bool.and_true, Chip.when_true, List.nil_append]
    rfl
  have hnext : nextOut ((c.busHolds ⟨a, false, c.now, true⟩).set BUS_STATUS_APT_HANG).bus.locks []
      ((c.busHolds ⟨a, false, c.now, true⟩).set BUS_STATUS_APT_HANG).bus.outs = none := by
    rw [hbus]
    simp [nextOut, Chip.busHolds, Chip.setBus]
  have hlen : ((c.busHolds ⟨a, false, c.now, true⟩).set BUS_STATUS_APT_HANG).bus.outs.length = 1 := by rw [hbus]; rfl
  rw [hstart, Chip.busRun, hlen, Chip.busPump]
  rw [hnext]

/-! ### The response -/

/-- The response of an access is given, with the locks as they then stand. -/
def Chip.busGives (c : Chip) (locks : List BusLock) (resp : Nat × Nat × Nat × List Nat) : Chip :=
  c.setBus { c.bus with locks := locks, resps := c.bus.resps ++ [resp] }

theorem Chip.busServe_error {mem : Memory} {a : BusAcc} {lock : Bool} {at_ : Nat} (h : c.busKind a lock ≠ 0) :
    c.busServe mem ⟨a, lock, at_, false⟩ = (c.when (c.busKind a lock == 3) (·.dramRefuse a)).busError a (c.busKind a lock) := by
  unfold Chip.busServe
  exact if_pos h

/-- A served access with no lock about, and what it does to the part. -/
theorem Chip.busServe_answers {mem : Memory} {a : BusAcc} {at_ : Nat} {d : Chip} {bytes : List Nat} (hkind : c.busKind a false = 0)
    (hbroken : (a.write && c.bus.broken.contains (a.m, a.id, a.addr / 16)) = false) (hlocks : c.bus.locks = []) (hdo : c.busDo mem a = (d, bytes))
    (hd : d.bus.locks = []) : c.busServe mem ⟨a, false, at_, false⟩ = d.busGives [] (a.m, a.id, 0, bytes) := by
  unfold Chip.busServe
  dsimp only
  rw [if_neg (not_not.2 hkind), hbroken, if_neg Bool.false_ne_true, hdo, hlocks]
  dsimp only
  rw [hd]
  simp only [List.any_nil, Bool.and_false, Bool.false_eq_true, if_false, List.map_nil]
  rfl

/-- A served locked read opens the lock of its target. -/
theorem Chip.busServe_locks {mem : Memory} {a : BusAcc} {d : Chip} {bytes : List Nat} {r : Nat} (hkind : c.busKind a true = 0) (hread : a.write = false)
    (hregion : busRegion a.addr = some r) (hbeats : a.beats < 64) (hdo : c.busDo mem a = (d, bytes)) (hd : d.bus.locks = []) (hnow : d.now = c.now) :
    c.busServe mem ⟨a, true, c.now, false⟩ = d.busGives [⟨r, a.m, a.id, a.addr / 16, a.beats, c.now⟩] (a.m, a.id, 0, bytes) := by
  unfold Chip.busServe
  dsimp only
  rw [if_neg (not_not.2 hkind), hread, Bool.false_and, if_neg Bool.false_ne_true, hdo, hregion]
  dsimp only
  rw [hd, hnow]
  simp only [if_true, List.nil_append, List.map_cons, List.map_nil, Option.getD_some, and_self, Nat.zero_add, List.any_cons, List.any_nil, Bool.or_false,
    beq_self_eq_true, Bool.true_and]
  rw [decide_eq_false (by omega)]
  rfl

/-! ### What reads and writes do -/

/-- The bursts of an access are queued where it is one of DRAM. -/
def Chip.busQueues (c : Chip) (a : BusAcc) (r : Nat) : Chip := if r = 7 then c.setBus { c.bus with bursts := c.burstsOf a } else c

/-- Nothing but the bursts queued changes. -/
theorem Chip.busQueues_eq (a : BusAcc) (r : Nat) : ∃ b, c.busQueues a r = c.setBus { c.bus with bursts := b } := by
  by_cases h : r = 7
  · exact ⟨_, if_pos h⟩
  · exact ⟨c.bus.bursts, if_neg h⟩

/-- The targets that hold bytes. -/
def byteRegion (r : Nat) : Prop := r = 2 ∨ r = 3 ∨ r = 4 ∨ r = 6 ∨ r = 7

/-- The bytes that an access reads. -/
def Chip.busBytes (c : Chip) (mem : Memory) (a : BusAcc) : List Nat := (List.range a.len).map fun i => c.busByte (c.memNow mem) (a.addr + i)

theorem Chip.busDo_read {mem : Memory} {a : BusAcc} {r : Nat} (hregion : busRegion a.addr = some r) (hr : byteRegion r) (hread : a.write = false) :
    c.busDo mem a = ({ c.busQueues a r with free := (c.busQueues a r).free + 1 }, c.busBytes mem a) := by
  have hdo : c.busDo mem a = ({ c.busQueues a r with free := (c.busQueues a r).free + 1 }, (c.busQueues a r).busBytes mem a) := by
    unfold Chip.busDo
    rw [hregion, hread]
    rcases hr with rfl | rfl | rfl | rfl | rfl <;> rfl
  obtain ⟨b, hb⟩ := c.busQueues_eq a r
  rw [hdo, hb]
  rfl

/-- The bytes that a write leaves in addressed memory. -/
def Chip.busStores (c : Chip) (a : BusAcc) : List Nat :=
  (a.data.take a.len).mapIdx fun i v => v % 256 ^^^ sweepByte (a.addr + i) ^^^ c.slotByte (a.addr + i)

theorem Chip.busDo_write {mem : Memory} {a : BusAcc} {r : Nat} (hregion : busRegion a.addr = some r) (hr : r = 3 ∨ r = 4 ∨ r = 7) (hwrite : a.write = true)
    (hrec : r = 3 → recHit a.addr a.len = none) : c.busDo mem a = ((c.busQueues a r).emit (.bytes a.addr (c.busStores a)), []) := by
  have hdo : c.busDo mem a = ((c.busQueues a r).emit (.bytes a.addr ((c.busQueues a r).busStores a)), []) := by
    unfold Chip.busDo
    rw [hregion, hwrite]
    rcases hr with rfl | rfl | rfl
    · dsimp only
      rw [hrec rfl]
      rfl
    · rfl
    · rfl
  obtain ⟨b, hb⟩ := c.busQueues_eq a r
  rw [hdo, hb]
  rfl

theorem Chip.busDo_recWrite {mem : Memory} {a : BusAcc} {k : Nat} (hregion : busRegion a.addr = some 3) (hwrite : a.write = true)
    (hrec : recHit a.addr a.len = some k) :
    c.busDo mem a = ((c.emit (.bytes a.addr ((a.data.take a.len).map (· % 256)))).recStore (c.memNow mem) a, []) := by
  unfold Chip.busDo
  rw [hregion, hwrite]
  dsimp only
  rw [hrec]
  rfl

theorem Chip.bus_recStore (mem : Memory) (a : BusAcc) : (c.recStore mem a).bus = c.bus := by
  unfold Chip.recStore
  split
  · rfl
  · exact (Chip.updShow_only _ .bus (by simp)).trans rfl

theorem Chip.busDo_register {mem : Memory} {a : BusAcc} (hregion : busRegion a.addr = some 0) (hread : a.write = false) :
    c.busDo mem a = (c, (wordBytes (c.readReg a.addr)).map BitVec.toNat) := by
  unfold Chip.busDo
  rw [hregion]
  dsimp only
  unfold Chip.wordAccess
  rw [hread]
  rfl

end

end Sys2Proof.Machine
end

section
/-! SUPPORT. The ports, the memory and the errors that accesses of the bus matrix show. -/

namespace Sys2Proof.Machine

section
variable (c : Chip)

/-! ### The port registers -/

/-- BUS_MST_STAT of one port follows it. -/
def Chip.portShows (c : Chip) (m : Nat) : Chip :=
  let os := c.bus.outs.filter fun o => o.acc.m == m
  ((c.wr (BUS_MST_STAT_OUTSTANDING m) os.length).wrB (BUS_MST_STAT_LOCKED m) (c.bus.locks.any fun l => l.m == m)).wrB
    (BUS_MST_STAT_WAITING m) (os.any fun o => !o.hung)

theorem Chip.bus_portShows (m : Nat) : (c.portShows m).bus = c.bus :=
  (Chip.wr_bus ..).trans ((Chip.wr_bus ..).trans (Chip.wr_bus ..))

theorem Chip.rd_portShows_other {m : Nat} {f : Fld} (h : (BUS_MST_STAT m).off ≠ f.off) : (c.portShows m).rd f = c.rd f :=
  ((Chip.rd_wr_other _ _ _ _ h).trans (Chip.rd_wr_other _ _ _ _ h)).trans (Chip.rd_wr_other _ _ _ _ h)

theorem Chip.rd_portShows_same (m : Nat) (h : (c.bus.outs.filter fun o => o.acc.m == m).length < 2 ^ 5) :
    (c.portShows m).rd (BUS_MST_STAT_OUTSTANDING m) = (c.bus.outs.filter fun o => o.acc.m == m).length
      ∧ (c.portShows m).on (BUS_MST_STAT_LOCKED m) = c.bus.locks.any fun l => l.m == m := by
  have hout (f : Fld) (hf : f = BUS_MST_STAT_LOCKED m ∨ f = BUS_MST_STAT_WAITING m) : f.apart (BUS_MST_STAT_OUTSTANDING m) := by
    rcases hf with rfl | rfl <;> simp [Fld.apart, BUS_MST_STAT_OUTSTANDING, BUS_MST_STAT_LOCKED, BUS_MST_STAT_WAITING, Reg.fld]
  unfold Chip.portShows
  dsimp only
  constructor
  · rw [Chip.rd_wrB_keeps _ _ (hout _ (.inr rfl)), Chip.rd_wrB_keeps _ _ (hout _ (.inl rfl))]
    exact Chip.rd_wr_lt rfl h
  · rw [Chip.on_wrB_keeps _ _ (by simp [Fld.apart, BUS_MST_STAT_LOCKED, BUS_MST_STAT_WAITING, Reg.fld]), Chip.on_wrB_same _ _ rfl (by simp [BUS_MST_STAT_LOCKED, Reg.fld])]

theorem Chip.busShow_port {m : Nat} (hm : m < 10) (h : (c.bus.outs.filter fun o => o.acc.m == m).length < 2 ^ 5) :
    c.busShow.rd (BUS_MST_STAT_OUTSTANDING m) = (c.bus.outs.filter fun o => o.acc.m == m).length
      ∧ c.busShow.on (BUS_MST_STAT_LOCKED m) = c.bus.locks.any fun l => l.m == m := by
  have hne (k : Nat) (hk : k ≠ m) (f : Fld) (hf : f.off = (BUS_MST_STAT m).off) : (BUS_MST_STAT k).off ≠ f.off := by
    rw [hf]
    intro he
    simp only [BUS_MST_STAT] at he
    omega
  refine (Chip.each_once (fun d => d.bus = c.bus) (fun d => d.bus = c.bus
      ∧ d.rd (BUS_MST_STAT_OUTSTANDING m) = (c.bus.outs.filter fun o => o.acc.m == m).length
      ∧ d.on (BUS_MST_STAT_LOCKED m) = c.bus.locks.any fun l => l.m == m) (g := Chip.portShows) List.nodup_range (List.mem_range.2 hm)
    (fun d k _ _ hd => (d.bus_portShows k).trans hd) (fun d hd => ?_) (fun d k _ hk hd => ?_) c rfl).2
  · refine ⟨(d.bus_portShows m).trans hd, ?_⟩
    rw [← hd]
    exact d.rd_portShows_same m (hd.symm ▸ h)
  · obtain ⟨h1, h2, h3⟩ := hd
    exact ⟨(d.bus_portShows k).trans h1, (d.rd_portShows_other (hne k hk _ rfl)).trans h2,
      (congrArg (· != 0) (d.rd_portShows_other (f := BUS_MST_STAT_LOCKED m) (hne k hk _ rfl))).trans h3⟩

/-! ### Where the bytes stand -/

/-- An address outside MRAM and DRAM. -/
def plainAddr (x : Nat) : Prop := x < mramBase ∨ 0x3000_0000 ≤ x ∧ x < dramBase

theorem recHit_of_plain {x : Nat} (n : Nat) (h : plainAddr x) : recHit x n = none := by
  unfold recHit
  refine if_neg fun hhit => ?_
  obtain ⟨hbase, hpage, -⟩ := hhit
  rcases h with h | ⟨h, -⟩
  · omega
  · simp only [mramBase] at hpage
    omega

theorem plainAddr_lt {x : Nat} (h : plainAddr x) : x < dramBase := by
  rcases h with h | h
  · exact Nat.lt_trans h (by decide)
  · exact h.2

theorem sweepByte_below {x : Nat} (h : x < dramBase) : sweepByte x = 0 := if_neg fun hx => absurd hx.1 (Nat.not_le.2 h)

theorem Chip.slotByte_below {x : Nat} (h : x < dramBase) : c.slotByte x = 0 := by
  unfold Chip.slotByte
  have hnone : (c.lbs.carafes.findSome? fun e =>
      let base := dramBase + granulePa (c.rd (LBS_REC_REGION_BASE e.1))
      let size := slotBytes (c.rd (LBS_REC_CTL_FORMAT e.1))
      if x < base ∨ size = 0 then none
      else (e.2.slots.lookup ((x - base) / size)).map fun ps => (ps.flatMap Pic.code, (x - base) % size)) = none := by
    rw [List.findSome?_eq_none_iff]
    intro e _
    exact if_pos (.inl (by omega))
  rw [hnone]

theorem Chip.busByte_plain (mem : Memory) {x : Nat} (h : plainAddr x) : c.busByte mem x = (mem.read x).toNat := by
  have hlt := plainAddr_lt h
  unfold Chip.busByte
  rw [if_neg (by simp only [dramBase] at hlt ⊢; omega), recHit_of_plain 1 h, sweepByte_below hlt, c.slotByte_below hlt]
  simp

/-- The targets whose bytes are those of addressed memory. -/
def plainRegion (r : Nat) : Prop := r = 2 ∨ r = 4 ∨ r = 6

theorem plainRegion_range {x r : Nat} (hregion : busRegion x = some r) (hr : plainRegion r) :
    ∃ lo hi, lo ≤ x ∧ x < hi ∧ hi % 4096 = 0 ∧ (hi ≤ mramBase ∨ 0x3000_0000 ≤ lo ∧ hi ≤ dramBase) := by
  unfold busRegion at hregion
  simp only [mramBase, dramBase]
  rcases hr with rfl | rfl | rfl
  · refine ⟨0x1000_0000, 0x1008_0000, ?_⟩
    grind
  · refine ⟨0x3000_0000, 0x3020_0000, ?_⟩
    grind
  · refine ⟨0x5000_0000, 0x5800_0000, ?_⟩
    grind

theorem plainAddr_of_region {a : BusAcc} {r i : Nat} (hregion : busRegion a.addr = some r) (hr : plainRegion r)
    (hblock : a.addr % 4096 + a.len ≤ 4096) (hi : i < a.len) : plainAddr (a.addr + i) := by
  obtain ⟨lo, hi', h⟩ := plainRegion_range hregion hr
  simp only [plainAddr, mramBase, dramBase] at h ⊢
  omega

theorem Chip.block_of_busAccepts {a : BusAcc} (h : c.busAccepts a = true) : a.m < 10 ∧ a.beats ≤ 16 ∧ 1 ≤ a.len ∧ a.addr % 4096 + a.len ≤ 4096 := by
  simp only [Chip.busAccepts, Bool.and_eq_true, decide_eq_true_eq, List.contains_eq_mem, List.mem_cons, List.not_mem_nil, or_false] at h
  obtain ⟨⟨⟨⟨⟨⟨hm, -⟩, hone⟩, hbeats⟩, hsize⟩, hblock⟩, -⟩ := h
  refine ⟨hm, hbeats, Nat.mul_pos hone ?_, hblock⟩
  omega

theorem Chip.busBytes_plain {mem : Memory} {a : BusAcc} {r : Nat} (hregion : busRegion a.addr = some r) (hr : plainRegion r)
    (hblock : a.addr % 4096 + a.len ≤ 4096) :
    c.busBytes mem a = (List.range a.len).map fun i => ((c.memNow mem).read (a.addr + i)).toNat :=
  List.map_congr_left fun _ hi => c.busByte_plain _ (plainAddr_of_region hregion hr hblock (List.mem_range.1 hi))

/-! ### What a write leaves -/

theorem Chip.memNow_emit (mem : Memory) (op : MemOp) : (c.emit op).memNow mem = (c.memNow mem).apply op :=
  List.foldl_append.trans rfl

theorem Chip.memNow_wf {mem : Memory} (h : mem.wf = true) : (c.memNow mem).wf = true := Memory.applyAll_wf _ _ h

theorem Chip.length_busStores {a : BusAcc} (h : a.data.length = a.len) : (c.busStores a).length = a.len := by
  simp [Chip.busStores, h]

theorem Chip.read_busStores {mem : Memory} {a : BusAcc} (hwf : mem.wf = true) (hlen : a.data.length = a.len) {i : Nat} (hi : i < a.len) :
    (mem.apply (.bytes a.addr (c.busStores a))).read (a.addr + i)
      = BitVec.ofNat 8 (a.data.getD i 0 % 256 ^^^ sweepByte (a.addr + i) ^^^ c.slotByte (a.addr + i)) := by
  have hi' : i < ((c.busStores a).map (BitVec.ofNat 8)).length := by rw [List.length_map, c.length_busStores hlen]; exact hi
  rw [Memory.apply, Memory.read_writeBytes_same mem a.addr i _ hwf hi']
  simp [Chip.busStores, List.getD_eq_getElem?_getD, List.getElem?_eq_getElem (hlen.symm ▸ hi)]

theorem Chip.read_busStores_other {mem : Memory} {a : BusAcc} (hwf : mem.wf = true) (hlen : a.data.length = a.len) {x : Nat}
    (hx : x < a.addr ∨ a.addr + a.len ≤ x) : (mem.apply (.bytes a.addr (c.busStores a))).read x = mem.read x := by
  refine Memory.read_writeBytes_other _ _ _ _ hwf ?_
  rw [List.length_map, c.length_busStores hlen]
  exact hx

theorem BitVec.ofNat_mod_256 (v : Nat) : BitVec.ofNat 8 (v % 256 ^^^ 0 ^^^ 0) = BitVec.ofNat 8 v := by
  apply BitVec.eq_of_toNat_eq
  simp

/-! ### The refusal of a DRAM access -/

theorem paChan_lt (pa : Nat) : paChan pa < 8 := bits_lt ..

theorem BusAcc.chans_lt (a : BusAcc) : ∀ n ∈ a.chans, n < 8 := by
  intro n hn
  unfold BusAcc.chans at hn
  dsimp only at hn
  split at hn
  · rw [List.mem_singleton.1 hn]
    exact paChan_lt _
  · rcases List.mem_pair.1 hn with rfl | rfl <;> exact paChan_lt _

theorem Chip.dramRefuse_within (a : BusAcc) : Chip.Within [1, 20, 112] [.dmc, .twn] c (c.dramRefuse a) := by
  unfold Chip.dramRefuse
  split
  · exact .refl
  · split
    · cases a.poison && !a.write
      · exact .refl
      · exact Chip.readEcc_within (fun d hd => absurd hd nofun) .refl (by decide) (by decide)
    · refine Chip.Within.set (Chip.Within.each .refl fun d n hn => ?_) (by decide)
      have hlt := a.chans_lt n (List.mem_of_mem_filter hn)
      refine Chip.Within.inc .refl ?_
      have hpage : (DMC_NOACC_COUNT_COUNT n).off / 65536 = 20 := by
        simp only [DMC_NOACC_COUNT_COUNT, DMC_NOACC_COUNT, Reg.fld]
        omega
      rw [hpage]
      decide

end

end Sys2Proof.Machine
end

section
/-! The statement on accesses of the bus matrix. -/

namespace Sys2Proof.Machine

section
variable (c : Chip)

/-- What a part shows that has given the one response of a command: nothing waits, and memory is as the writes leave it. -/
theorem State.commit_busGives (s : State) {d : Chip} {locks : List BusLock} {resp : Nat × Nat × Nat × List Nat} (houts : d.bus.outs = [])
    (hresps : d.bus.resps = []) :
    (s.commit (d.busGives locks resp).busShow).chip.bus.resps = [resp] ∧ (s.commit (d.busGives locks resp).busShow).chip.bus.outs = []
      ∧ (s.commit (d.busGives locks resp).busShow).chip.bus.locks = locks ∧ (s.commit (d.busGives locks resp).busShow).mem = d.memNow s.mem := by
  obtain ⟨hbus, -, -⟩ := s.commit_busShow (d.busGives locks resp)
  rw [hbus, State.commit_mem, Chip.busShow_out]
  refine ⟨?_, houts, rfl, rfl⟩
  change d.bus.resps ++ [resp] = [resp]
  rw [hresps]
  rfl

theorem Chip.bus_busQueues (a : BusAcc) (r : Nat) : (c.busQueues a r).bus.outs = c.bus.outs ∧ (c.busQueues a r).bus.locks = c.bus.locks
    ∧ (c.busQueues a r).bus.resps = c.bus.resps ∧ (c.busQueues a r).out = c.out := by
  obtain ⟨b, hb⟩ := c.busQueues_eq a r
  rw [hb]
  exact ⟨rfl, rfl, rfl, rfl⟩

/-- The part after a read: its bursts are queued. -/
def Chip.busReads (c : Chip) (a : BusAcc) (r : Nat) : Chip := { c.busQueues a r with free := (c.busQueues a r).free + 1 }

theorem Chip.bus_busReads (a : BusAcc) (r : Nat) : (c.busReads a r).bus.outs = c.bus.outs ∧ (c.busReads a r).bus.locks = c.bus.locks
    ∧ (c.busReads a r).bus.resps = c.bus.resps ∧ (c.busReads a r).out = c.out := c.bus_busQueues a r

theorem Chip.now_busReads (a : BusAcc) (r : Nat) : (c.busReads a r).now = c.now := by
  obtain ⟨b, hb⟩ := c.busQueues_eq a r
  unfold Chip.busReads
  rw [hb]
  rfl

theorem Chip.busDo_reads {mem : Memory} {a : BusAcc} {r : Nat} (hregion : busRegion a.addr = some r) (hr : byteRegion r) (hread : a.write = false) :
    c.busDo mem a = (c.busReads a r, c.busBytes mem a) := c.busDo_read hregion hr hread

theorem Chip.memNow_congr {c d : Chip} (mem : Memory) (h : d.out = c.out) : d.memNow mem = c.memNow mem := congrArg (List.foldl _ _) h

/-- The errors that an access earns are counted at its port. -/
theorem Chip.busServe_error_shows {mem : Memory} {a : BusAcc} {at_ : Nat} (hm : a.m < 10) (hkind : c.busKind a false ≠ 0) :
    (c.busServe mem ⟨a, false, at_, false⟩).bus = { c.bus with resps := c.bus.resps ++ [(a.m, a.id, c.busKind a false, [])] }
      ∧ (c.busServe mem ⟨a, false, at_, false⟩).rd (BUS_MST_ERR_COUNT a.m)
        = min (2 ^ (BUS_MST_ERR_COUNT a.m).w - 1) (c.rd (BUS_MST_ERR_COUNT a.m) + 1)
      ∧ (c.busServe mem ⟨a, false, at_, false⟩).on BUS_STATUS_ERR = true
      ∧ (c.busKind a false = 1 → (c.busServe mem ⟨a, false, at_, false⟩).on BUS_STATUS_FIREWALL = true) := by
  have hmst : (BUS_MST_ERR_COUNT a.m).off = 0x780140 + 4 * a.m := rfl
  have hwithin : Chip.Within [1, 20, 112] [.dmc, .twn] c (c.when (c.busKind a false == 3) (·.dramRefuse a)) := by
    rcases Bool.eq_false_or_eq_true (c.busKind a false == 3) with h | h
    · rw [h, Chip.when_true]
      exact c.dramRefuse_within a
    · rw [h, Chip.when_false]
      exact .refl
  have hbus : (c.when (c.busKind a false == 3) (·.dramRefuse a)).bus = c.bus := hwithin.part .bus (by decide)
  have hrd : (c.when (c.busKind a false == 3) (·.dramRefuse a)).rd (BUS_MST_ERR_COUNT a.m) = c.rd (BUS_MST_ERR_COUNT a.m) := by
    refine Chip.rd_of_cell (hwithin.cell _ ?_)
    rw [hmst]
    simp only [List.mem_cons, List.not_mem_nil, or_false]
    omega
  obtain ⟨hcount, herr, hwall⟩ := (c.when (c.busKind a false == 3) (·.dramRefuse a)).busError_counts hm (c.busKind a false)
  rw [c.busServe_error hkind, Chip.bus_busError, hbus]
  exact ⟨rfl, hcount.trans (by rw [hrd]), herr, fun h => hwall (by rw [h]; rfl)⟩

end

theorem State.busAccess_row (s : State) {t : Nat} {a : BusAcc} {d : Chip} (h : (s.chipAt t).busIssue s.mem a false = d) :
    Sys2Proof.Machine.exec (.busAccess t a) s = .next (s.commit d) := h ▸ rfl

theorem State.lockedSequence_row (s : State) {t : Nat} {a : BusAcc} {d : Chip} (h : (s.chipAt t).busIssue s.mem a true = d) :
    Sys2Proof.Machine.exec (.lockedSequence t a) s = .next (s.commit d) := h ▸ rfl

/-- The targets of reads, as the statement lists them. -/
theorem byteRegion_of_mem {x : Option Nat} (h : x ∈ [some 2, some 3, some 4, some 6, some 7]) : ∃ r, x = some r ∧ byteRegion r := by
  simp only [List.mem_cons, List.not_mem_nil, or_false] at h
  rcases h with h | h | h | h | h <;> exact ⟨_, h, by simp [byteRegion]⟩

/-- The targets of writes, as the statement lists them. -/
theorem writeRegion_of_mem {x : Option Nat} (h : x ∈ [some 3, some 4, some 7]) : ∃ r, x = some r ∧ (r = 3 ∨ r = 4 ∨ r = 7) := by
  simp only [List.mem_cons, List.not_mem_nil, or_false] at h
  rcases h with h | h | h <;> exact ⟨_, h, by simp⟩

theorem plainRegion_of_mem {r : Nat} (h : some r ∈ [some 2, some 4, some 6]) : plainRegion r := by
  simpa [plainRegion] using h

/-- A locked access of a target that takes no locks is an error. -/
theorem Chip.lockRegion_of_busKind (c : Chip) {a : BusAcc} {r : Nat} (hregion : busRegion a.addr = some r) (h : c.busKind a true = 0) : r = 4 ∨ r = 7 := by
  by_contra hr
  have hlock : true = true ∧ r ≠ 4 ∧ r ≠ 7 := ⟨rfl, not_or.1 hr⟩
  unfold Chip.busKind at h
  rw [hregion] at h
  dsimp only at h
  split_ifs at h with h1 h2 <;> simp_all

/-- An access that hangs is of the aperture. -/
theorem Chip.aptHangs_of_region (c : Chip) {a : BusAcc} {r : Nat} (hregion : busRegion a.addr = some r) (hr : r ≠ 5) : c.aptHangs a = false := by
  unfold Chip.aptHangs
  rw [hregion]
  simp [hr]

/-- Settles O58: with nothing outstanding and no lock about, an access is served at once (`Chip.busIssue_serves`), and its target either answers with an
error, or reads, or writes. -/
theorem busAccesses : Obligations.BusAccesses := by
  unfold Obligations.BusAccesses
  refine ⟨?_, ?_, ?_, ?_, ?_, ?_⟩
  · rintro s t a kind c rfl hlive houts hlocks hacc hhang rfl hkind
    obtain ⟨hm, -⟩ := (s.chipAt t).block_of_busAccepts hacc
    obtain ⟨hbus, hcount, herr, hwall⟩ := (s.chipAt t).busServe_error_shows (mem := s.mem) (at_ := (s.chipAt t).now) hm hkind
    refine ⟨_, s.busAccess_row ((s.chipAt t).busIssue_serves hlive houts hlocks hacc (by rw [hhang]; rfl) (by simp)), ?_⟩
    obtain ⟨hb, hrd, hon⟩ := s.commit_busShow ((s.chipAt t).busServe s.mem ⟨a, false, (s.chipAt t).now, false⟩)
    rw [hb, hbus]
    refine ⟨?_, houts, (hon _ (by decide)).trans herr, fun h => (hon _ (by decide)).trans (hwall h), (hrd _ fun k hk he => ?_).trans hcount⟩
    · change (s.chipAt t).bus.resps ++ _ = _
      rw [s.chipAt_resps]
      rfl
    · rw [show (BUS_MST_STAT k).off = 0x780100 + 4 * k from rfl, show (BUS_MST_ERR_COUNT a.m).off = 0x780140 + 4 * a.m from rfl] at he
      omega
  · rintro s t a c rfl - hlive houts hlocks hacc hkind hhang hmem hread
    obtain ⟨r, hregion, hr⟩ := byteRegion_of_mem hmem
    obtain ⟨-, -, -, hblock⟩ := (s.chipAt t).block_of_busAccepts hacc
    obtain ⟨h1, h2, h3, h4⟩ := (s.chipAt t).bus_busReads a r
    have hserve := (s.chipAt t).busServe_answers (mem := s.mem) (at_ := (s.chipAt t).now) hkind (by rw [hread]; rfl) hlocks
      ((s.chipAt t).busDo_reads hregion hr hread) (h2.trans hlocks)
    refine ⟨_, s.busAccess_row (((s.chipAt t).busIssue_serves hlive houts hlocks hacc (by rw [hhang]; rfl) (by simp)).trans
      (congrArg Chip.busShow hserve)), ?_⟩
    obtain ⟨g1, g2, -, g4⟩ := s.commit_busGives (d := (s.chipAt t).busReads a r) (locks := [])
      (resp := (a.m, a.id, 0, (s.chipAt t).busBytes s.mem a)) (h1.trans houts) (h3.trans (s.chipAt_resps t))
    rw [g4, Chip.memNow_congr s.mem h4]
    refine ⟨g1, g2, fun _ => rfl, fun hplain => ?_⟩
    rw [g1, (s.chipAt t).busBytes_plain hregion (plainRegion_of_mem (hregion ▸ hplain)) hblock]
  · rintro s t a c rfl hinv hlive houts hlocks hbroken hacc hkind hmem hwrite hlen
    obtain ⟨r, hregion, hr⟩ := writeRegion_of_mem hmem
    obtain ⟨-, -, hone, hblock⟩ := (s.chipAt t).block_of_busAccepts hacc
    obtain ⟨h1, h2, h3, h4⟩ := (s.chipAt t).bus_busQueues a r
    have hwf := (s.chipAt t).memNow_wf hinv.1
    have hnone : (a.write && (s.chipAt t).bus.broken.contains (a.m, a.id, a.addr / 16)) = false := by rw [hbroken]; simp
    have hissue := (s.chipAt t).busIssue_serves (mem := s.mem) hlive houts hlocks hacc
      (by rw [(s.chipAt t).aptHangs_of_region hregion (by omega)]; rfl) (lock := false) (by simp)
    by_cases hrec : r = 3 → recHit a.addr a.len = none
    · have hserve := (s.chipAt t).busServe_answers (mem := s.mem) (at_ := (s.chipAt t).now) hkind hnone hlocks
        ((s.chipAt t).busDo_write hregion hr hwrite hrec) (h2.trans hlocks)
      refine ⟨_, s.busAccess_row (hissue.trans (congrArg Chip.busShow hserve)), ?_⟩
      obtain ⟨g1, g2, -, g4⟩ := s.commit_busGives (d := ((s.chipAt t).busQueues a r).emit (.bytes a.addr ((s.chipAt t).busStores a))) (locks := [])
        (resp := (a.m, a.id, 0, [])) (h1.trans houts) (h3.trans (s.chipAt_resps t))
      rw [g4, Chip.memNow_emit, Chip.memNow_congr s.mem h4]
      refine ⟨g1, g2, fun _ => List.all_eq_true.2 fun i hi => beq_iff_eq.2 ((s.chipAt t).read_busStores hwf hlen (List.mem_range.1 hi)),
        fun h4 => List.all_eq_true.2 fun i hi => beq_iff_eq.2 ?_, fun _ x hx => (s.chipAt t).read_busStores_other hwf hlen hx⟩
      have hplain := plainAddr_lt (plainAddr_of_region h4 (.inr (.inl rfl)) hblock (List.mem_range.1 hi))
      rw [(s.chipAt t).read_busStores hwf hlen (List.mem_range.1 hi), sweepByte_below hplain, (s.chipAt t).slotByte_below hplain, BitVec.ofNat_mod_256]
    · obtain ⟨rfl, hhit⟩ := Classical.not_imp.1 hrec
      obtain ⟨k, hk⟩ := Option.ne_none_iff_exists'.1 hhit
      have hbus : (((s.chipAt t).emit (.bytes a.addr ((a.data.take a.len).map (· % 256)))).recStore ((s.chipAt t).memNow s.mem) a).bus = (s.chipAt t).bus :=
        Chip.bus_recStore ..
      have hserve := (s.chipAt t).busServe_answers (mem := s.mem) (at_ := (s.chipAt t).now) hkind hnone hlocks
        ((s.chipAt t).busDo_recWrite hregion hwrite hk) ((congrArg Bus.locks hbus).trans hlocks)
      refine ⟨_, s.busAccess_row (hissue.trans (congrArg Chip.busShow hserve)), ?_⟩
      obtain ⟨g1, g2, -, -⟩ := s.commit_busGives (locks := []) (resp := (a.m, a.id, 0, [])) ((congrArg Bus.outs hbus).trans houts)
        ((congrArg Bus.resps hbus).trans (s.chipAt_resps t))
      exact ⟨g1, g2, fun h => absurd h hhit, fun h => absurd (hregion.symm.trans h) (by decide), fun h => absurd h hhit⟩
  · rintro s t a c rfl hlive houts hlocks hacc hkind hregion hread
    have hserve := (s.chipAt t).busServe_answers (mem := s.mem) (at_ := (s.chipAt t).now) hkind (by rw [hread]; rfl) hlocks
      ((s.chipAt t).busDo_register hregion hread) hlocks
    refine ⟨_, s.busAccess_row (((s.chipAt t).busIssue_serves hlive houts hlocks hacc
      (by rw [(s.chipAt t).aptHangs_of_region hregion (by decide)]; rfl) (by simp)).trans (congrArg Chip.busShow hserve)), ?_⟩
    obtain ⟨g1, g2, -, -⟩ := s.commit_busGives (locks := []) (resp := (a.m, a.id, 0, (wordBytes ((s.chipAt t).readReg a.addr)).map BitVec.toNat)) houts
      (s.chipAt_resps t)
    exact ⟨g1, g2⟩
  · rintro s t a c rfl hlive hacc houts hhang
    obtain ⟨hm, -⟩ := (s.chipAt t).block_of_busAccepts hacc
    have hbus : (((s.chipAt t).busHolds ⟨a, false, (s.chipAt t).now, true⟩).set BUS_STATUS_APT_HANG).bus
        = ((s.chipAt t).busHolds ⟨a, false, (s.chipAt t).now, true⟩).bus := Chip.wr_bus ..
    refine ⟨_, s.busAccess_row ((s.chipAt t).busIssue_waits hlive houts hacc hhang), ?_⟩
    obtain ⟨hb, -, hon⟩ := s.commit_busShow (((s.chipAt t).busHolds ⟨a, false, (s.chipAt t).now, true⟩).set BUS_STATUS_APT_HANG)
    have hport : ((((s.chipAt t).busHolds ⟨a, false, (s.chipAt t).now, true⟩).set BUS_STATUS_APT_HANG).bus.outs.filter fun o => o.acc.m == a.m)
        = [⟨a, false, (s.chipAt t).now, true⟩] := by
      rw [hbus]
      exact List.filter_cons_of_pos (by simp)
    obtain ⟨hout, -⟩ := Chip.busShow_port _ hm (by rw [hport]; simp)
    rw [hb, hbus, State.commit_rd, hout, hport]
    exact ⟨s.chipAt_resps t, rfl, (hon _ (by decide)).trans (Chip.on_set_same _ rfl (by decide)), rfl⟩
  · rintro s t a r c rfl - hlive houts hlocks hacc hread hregion hkind
    obtain ⟨hm, hbeats, -⟩ := (s.chipAt t).block_of_busAccepts hacc
    have hr := (s.chipAt t).lockRegion_of_busKind hregion hkind
    obtain ⟨h1, h2, h3, h4⟩ := (s.chipAt t).bus_busReads a r
    have hserve := (s.chipAt t).busServe_locks (mem := s.mem) hkind hread hregion (by omega)
      ((s.chipAt t).busDo_reads hregion (by unfold byteRegion; omega) hread) (h2.trans hlocks) ((s.chipAt t).now_busReads a r)
    refine ⟨_, s.lockedSequence_row (((s.chipAt t).busIssue_serves hlive houts hlocks hacc (by simp) (by simp [hread])).trans
      (congrArg Chip.busShow hserve)), ?_⟩
    obtain ⟨g1, g2, g3, -⟩ := s.commit_busGives (d := (s.chipAt t).busReads a r)
      (locks := [⟨r, a.m, a.id, a.addr / 16, a.beats, (s.chipAt t).now⟩])
      (resp := (a.m, a.id, 0, (s.chipAt t).busBytes s.mem a)) (h1.trans houts) (h3.trans (s.chipAt_resps t))
    refine ⟨g3, ?_, g1, g2⟩
    refine (State.commit_on ..).trans ((Chip.busShow_port _ hm ?_).2.trans ?_)
    · change (((s.chipAt t).busReads a r).bus.outs.filter _).length < _
      rw [h1, houts]
      simp
    · simp [Chip.busGives, Chip.setBus]

end Sys2Proof.Machine
end

section
/-! SUPPORT. The loss of a source stage by stage: what it shows, what it leaves, and what a cause depends on. -/

namespace Sys2Proof.Machine

/-! ### The lead of a source -/

theorem Chip.bondedRx_lead {c : Chip} {s : Nat} (h : c.bondedRx s = true) : c.bondedRx (s / 4 * 4) = true := by
  simp only [Chip.bondedRx, Bool.and_eq_true, decide_eq_true_eq] at h ⊢
  exact ⟨by omega, by rw [show s / 4 * 4 / 4 * 4 = s / 4 * 4 by omega]; exact h.2⟩

theorem Chip.leadOf_leadOf (c : Chip) (s : Nat) : c.leadOf (c.leadOf s) = c.leadOf s := by
  rcases Bool.eq_false_or_eq_true (c.bondedRx s) with h | h
  · have hl : c.leadOf s = s / 4 * 4 := by rw [Chip.leadOf, if_pos h]
    rw [hl, Chip.leadOf, if_pos (c.bondedRx_lead h)]
    omega
  · have hl : c.leadOf s = s := by rw [Chip.leadOf, if_neg (by simp [h])]
    rw [hl, hl]

theorem Chip.srcKind_leadOf (c : Chip) (s : Nat) : srcKind (c.leadOf s) = srcKind s := by
  unfold Chip.leadOf Chip.bondedRx srcKind
  grind

theorem Chip.lead_mem_groupOf {c : Chip} {s : Nat} (h : c.leadOf s = s) : s ∈ c.groupOf s := by
  rcases Bool.eq_false_or_eq_true (c.bondedRx s) with hb | hb
  · rw [Chip.leadOf, if_pos hb] at h
    rw [Chip.groupOf, if_pos hb]
    exact List.mem_map.2 ⟨0, by simp, by omega⟩
  · rw [Chip.groupOf, if_neg (by simp [hb])]
    simp

/-! ### The stages of a loss -/

/-- Every source of a lost aligner is invalid and shows its cause. -/
def Chip.lossCauses (c : Chip) (s : Nat) : Chip :=
  c.each (c.groupOf s) fun c i => (c.clr (FSY_SRC_STAT_VALID i)).wr (FSY_SRC_STAT_CAUSE i) (c.srcCause i)

/-- What an aligner keeps of a source it has lost. -/
def Src.lost (x : Src) (now : Nat) (cut : Bool) : Src :=
  { x.cutShort with
    good := 0, whole := 0, calm := 0, shown := 0, lostAt := now, decision := none, soiled := true, cut := cut, xframes := [], xshown := 0 }

/-- The flags of a lost source, and the lines counted of a frame cut short. -/
def Chip.lossFlags (c : Chip) (s cause gone : Nat) : Chip :=
  ((((c.clr (FSY_SRC_STAT_PROMOTED s)).set (FSY_SRC_STAT_INVALID_SEEN s)).set FSY_STATUS_INVALID).when (gone != 0)
    fun c => (c.add (FSY_SRC_BADLINES_COUNT s) gone).set (FSY_SRC_STAT_BADLINE_SEEN s)).flagCause s cause

/-- What a loss does outside the aligners: the event, the flow, and the destinations. -/
def Chip.lossOut (c : Chip) (s cause : Nat) (cut : Bool) : Chip :=
  let c := (c.post 0x05 0x0003 s cause).when (srcKind s == 2) fun c => c.flowLost (s - 240) cause
  let c := c.each ((c.groupOf s).flatMap c.destsOf) fun c d => c.set (XPT_DST_STAT_SOURCE_LOST d)
  c.when (!cut) (·.lossStarts s)

/-- The frame that a promoted source presents is cut short, unless its lines are in error (R214). -/
def Chip.lossCut (c : Chip) (s : Nat) : Bool := c.on (FSY_SRC_STAT_PROMOTED s) && c.srcCause s != 6

def Chip.lossGone (c : Chip) (s : Nat) : Nat := if c.lossCut s then c.unwritten s else 0

theorem Chip.loseSrc_stages (c : Chip) (s : Nat) (h : c.leadOf s = s) :
    c.loseSrc s = (((c.lossCauses s).setSrc s (((c.lossCauses s).src s).lost (c.lossCauses s).now (c.lossCut s))).lossFlags s (c.srcCause s)
      (c.lossGone s)).lossOut s (c.srcCause s) (c.lossCut s) := by
  unfold Chip.loseSrc
  rw [h]
  rfl

theorem Chip.loseSrc_lead (c : Chip) (s : Nat) : c.loseSrc s = c.loseSrc (c.leadOf s) := by
  unfold Chip.loseSrc
  rw [c.leadOf_leadOf]

theorem Chip.lossOut_within {P : List Nat} {T : List Part} {c₀ c : Chip} {s cause : Nat} {cut : Bool} (hs : s < 332) (hw0 : Chip.Within P T c₀ c)
    (hp : [1, 8, 64].all P.contains = true) (ht : ([] : List Part).all T.contains = true) : Chip.Within P T c₀ (c.lossOut s cause cut) := by
  refine hw0.within hp ht ?_
  have hpost : Chip.Within [1, 8, 64] [] c (c.post 0x05 0x0003 s cause) := .post .refl (by decide)
  have hflow : Chip.Within [1, 8, 64] [] c ((c.post 0x05 0x0003 s cause).when (srcKind s == 2) fun c => c.flowLost (s - 240) cause) := by
    rcases Bool.eq_false_or_eq_true (srcKind s == 2) with hk | hk <;> rw [hk]
    · exact Chip.flowLost_within (by simp only [srcKind, beq_iff_eq] at hk; grind) hpost (by decide) (by decide)
    · exact hpost
  unfold Chip.lossOut
  refine Chip.Within.when' (.each hflow fun c d hd => .set .refl ?_) fun c => Chip.lossStarts_within hs .refl (by decide) (by decide)
  obtain ⟨i, -, hd⟩ := List.mem_flatMap.1 hd
  have := Chip.mem_destsOf hd
  simp only [XPT_DST_STAT_SOURCE_LOST, XPT_DST_STAT, Reg.fld, List.mem_cons, List.not_mem_nil, or_false]
  omega

/-! ### What a loss leaves in the registers -/

/-- A field of the aligners that no loss writes: none of its status bits, counts and flags. -/
def Fld.outlastsLoss (f : Fld) : Prop :=
  f.off / 65536 = 12 ∧ FSY_STATUS.off ≠ f.off ∧ ∀ i < 332, (FSY_SRC_BADLINES i).off ≠ f.off
    ∧ (FSY_SRC_STAT_VALID i).apart f = true ∧ (FSY_SRC_STAT_PROMOTED i).apart f = true ∧ (FSY_SRC_STAT_CAUSE i).apart f = true
    ∧ (FSY_SRC_STAT_INVALID_SEEN i).apart f = true ∧ (FSY_SRC_STAT_MISMATCH_SEEN i).apart f = true ∧ (FSY_SRC_STAT_BADLINE_SEEN i).apart f = true

section
variable {c : Chip} {f : Fld} {s : Nat}

theorem Chip.rd_lossOut (hs : s < 332) (hf : f.off / 65536 ∉ [1, 8, 64]) (cause : Nat) (cut : Bool) : (c.lossOut s cause cut).rd f = c.rd f :=
  (Chip.lossOut_within hs .refl (by decide) (by decide) : Chip.Within [1, 8, 64] [] c _).rd hf

theorem Chip.rd_flagCause (h4 : (FSY_SRC_STAT_MISMATCH_SEEN s).apart f = true) (hst : FSY_STATUS.off ≠ f.off) (cause : Nat) :
    (c.flagCause s cause).rd f = c.rd f := by
  unfold Chip.flagCause
  simp (disch := grind [Fld.apart, FSY_STATUS_FORMAT_MISMATCH, FSY_STATUS_OUT_OF_WINDOW, FSY_STATUS_QUAD_FAULT, Reg.fld]) only
    [Chip.rd_when, Chip.rd_set_keeps, ite_self]

theorem Chip.rd_lossCauses (hs : s < 332) (hv : ∀ i < 332, (FSY_SRC_STAT_VALID i).apart f = true ∧ (FSY_SRC_STAT_CAUSE i).apart f = true) :
    (c.lossCauses s).rd f = c.rd f :=
  Chip.each_keeps (·.rd f) _ _ (fun d i hi => by
    obtain ⟨h, h'⟩ := hv i (Chip.mem_groupOf hs hi)
    exact (Chip.rd_wr_keeps _ _ h').trans (Chip.rd_clr_keeps _ h)) c

theorem Chip.rd_lossFlags (hs : s < 332) (hf : f.outlastsLoss) (cause gone : Nat) : (c.lossFlags s cause gone).rd f = c.rd f := by
  obtain ⟨-, hst, h⟩ := hf
  obtain ⟨hbl, hv, hp, hc, hi, hm, hb⟩ := h s hs
  have hcount : (FSY_SRC_BADLINES_COUNT s).apart f = true := Fld.apart_of_off hbl
  have hinv : FSY_STATUS_INVALID.apart f = true := Fld.apart_of_off hst
  unfold Chip.lossFlags
  rw [Chip.rd_flagCause hm hst]
  simp only [Chip.rd_when, Chip.rd_set_keeps, Chip.rd_clr_keeps, Chip.rd_add_keeps, hb, hcount, hinv, hi, hp, ite_self]

theorem Chip.rd_loseSrc (hs : s < 332) (hf : f.outlastsLoss) : (c.loseSrc s).rd f = c.rd f := by
  rw [c.loseSrc_lead]
  have hl := @Chip.leadOf_lt c s hs
  rw [c.loseSrc_stages _ (c.leadOf_leadOf s), Chip.rd_lossOut hl (by rw [hf.1]; decide), Chip.rd_lossFlags hl hf, Chip.setSrc_rd,
    Chip.rd_lossCauses hl fun i hi => ⟨(hf.2.2 i hi).2.1, (hf.2.2 i hi).2.2.2.1⟩]

end

end Sys2Proof.Machine
end

section
/-! SUPPORT. What the cause of a source is read from. -/

namespace Sys2Proof.Machine

/-- A field outside what the judgement of sources writes: off the aligners but for their settings, off the event ring and the
twin, and none of the status of the destinations. -/
def Fld.ofCause (f : Fld) : Prop :=
  f.off / 65536 ≠ 1 ∧ f.off / 65536 ≠ 112 ∧ (f.off / 65536 = 12 → ∃ i < 332, (FSY_SRC_CTL i).off = f.off) ∧ XPT_STATUS.off ≠ f.off ∧ ∀ d < 384, (XPT_DST_STAT d).off ≠ f.off

/-- Two chips between which only the detected formats, the places in the window, and the lines in error of sources differ, of all that a cause is
read from. -/
structure Chip.CauseBase (c d : Chip) : Prop where
  rd : ∀ f : Fld, f.ofCause → d.rd f = c.rd f
  skew : ∀ i, (d.src i).skew = (c.src i).skew
  order : ∀ i, (d.src i).order = (c.src i).order
  mapped : ∀ i, (d.src i).mapped = (c.src i).mapped

namespace Chip.CauseBase
variable {c d e : Chip}

theorem refl (c : Chip) : c.CauseBase c := ⟨fun _ _ => rfl, fun _ => rfl, fun _ => rfl, fun _ => rfl⟩

theorem trans (h : c.CauseBase d) (g : d.CauseBase e) : c.CauseBase e :=
  ⟨fun f hf => (g.rd f hf).trans (h.rd f hf), fun i => (g.skew i).trans (h.skew i), fun i => (g.order i).trans (h.order i),
    fun i => (g.mapped i).trans (h.mapped i)⟩

theorem on (h : c.CauseBase d) (f : Fld) (hf : f.ofCause) : d.on f = c.on f := congrArg (· != 0) (h.rd f hf)

end Chip.CauseBase

/-- The causes of an aligner before its format is looked at: unused, without carrier, or its slot lost. -/
def Chip.signalCause (c : Chip) (s : Nat) : Nat :=
  if srcKind s = 0 ∧ c.rd (SDI_RX_CTL_MAX_CLASS s) = 0 then 1
  else if srcKind s = 1 ∧ !(c.on (FAB_SLOT_CTL_RX_EN (s - 48))) then 1
  else if srcKind s = 0 ∧ c.rd (SDI_RX_STAT_STATE s) ≠ 2 then 2
  else if srcKind s = 1 ∧ c.slotLost (s - 48) then 7
  else 0

/-- The format of an aligner does not match. -/
def Chip.formatOff (c : Chip) (s : Nat) : Bool :=
  !(c.fmtMatches s (c.rd (FSY_SRC_STAT_DET_FORMAT s)))
    || (c.bondedRx s && c.rd (SDI_RX_STAT_LEVEL_B s) != c.rd (SDI_RX_STAT_LEVEL_B (s / 4 * 4)))

/-- The lines of a source are in error (R213, R638). -/
def Chip.linesBad (c : Chip) (s : Nat) : Bool := decide (8 ≤ (c.src s).bad) || ((c.src s).dram && c.dramFailed)

theorem Chip.ownCause_aligner (c : Chip) (s : Nat) (hk : srcKind s ≤ 1) : c.ownCause s =
    if c.signalCause s ≠ 0 then c.signalCause s else if c.rd (FSY_SRC_STAT_DET_FORMAT s) = 0 then 3
    else if c.formatOff s = true then 4
    else if c.leadOf s = s ∧ !(c.on (FSY_SRC_STAT_IN_WINDOW s)) ∧ !(c.on (FSY_SRC_CTL_ALLOW_FS s)) then 5
    else if c.linesBad s = true then 6 else 0 := by
  have hcases : srcKind s = 0 ∨ srcKind s = 1 := by omega
  have hoff : c.formatOff s = true ↔ (!(c.fmtMatches s (c.rd (FSY_SRC_STAT_DET_FORMAT s))) = true)
      ∨ (c.bondedRx s = true ∧ c.rd (SDI_RX_STAT_LEVEL_B s) ≠ c.rd (SDI_RX_STAT_LEVEL_B (s / 4 * 4))) := by
    simp [Chip.formatOff]
  have hbad : c.linesBad s = true ↔ 8 ≤ (c.src s).bad ∨ ((c.src s).dram = true ∧ c.dramFailed = true) := by simp [Chip.linesBad]
  simp only [hoff, hbad]
  unfold Chip.ownCause Chip.signalCause
  rcases hcases with h | h <;> simp only [h] <;> grind

theorem List.any_eq_of_mem {α : Type} {l : List α} {p q : α → Bool} (h : ∀ a ∈ l, p a = q a) : l.any p = l.any q := by
  rw [Bool.eq_iff_iff, List.any_eq_true, List.any_eq_true]
  exact exists_congr fun a => and_congr_right fun ha => by rw [h a ha]

theorem Fld.ofCause_of_page {f : Fld} (h1 : f.off / 65536 ≠ 1) (h112 : f.off / 65536 ≠ 112) (h8 : f.off / 65536 ≠ 8)
    (h12 : f.off / 65536 ≠ 12) : f.ofCause := by
  refine ⟨h1, h112, fun h => absurd h h12, fun h => h8 ?_, fun d hd h => h8 ?_⟩ <;> rw [← h]
  · rfl
  · simp only [XPT_DST_STAT]
    omega

section
variable {c d : Chip} {s : Nat}

theorem Chip.CauseBase.role (h : c.CauseBase d) : d.role = c.role := h.rd _ (Fld.ofCause_of_page (by decide) (by decide) (by decide) (by decide))

theorem Chip.CauseBase.bondedRx (h : c.CauseBase d) (s : Nat) : d.bondedRx s = c.bondedRx s := by
  unfold Chip.bondedRx
  by_cases hs : s < 48
  · have hpage : (SDI_RX_CTL_BOND (s / 4 * 4)).off / 65536 = 32 := by simp only [SDI_RX_CTL_BOND, SDI_RX_CTL, Reg.fld]; omega
    rw [h.on _ (Fld.ofCause_of_page (by omega) (by omega) (by omega) (by omega))]
  · simp [hs]

theorem Chip.CauseBase.leadOf (h : c.CauseBase d) (s : Nat) : d.leadOf s = c.leadOf s := by
  unfold Chip.leadOf
  rw [h.bondedRx]

theorem Chip.CauseBase.groupOf (h : c.CauseBase d) (s : Nat) : d.groupOf s = c.groupOf s := by
  unfold Chip.groupOf
  rw [h.bondedRx]

theorem Chip.CauseBase.dramFailed (h : c.CauseBase d) : d.dramFailed = c.dramFailed := by
  unfold Chip.dramFailed
  refine List.any_eq_of_mem fun n hn => ?_
  have hn := List.mem_range.1 hn
  have hpage : (DMC_CH_STAT_STATE n).off / 65536 = 20 := by simp only [DMC_CH_STAT_STATE, DMC_CH_STAT, Reg.fld]; omega
  rw [h.rd _ (Fld.ofCause_of_page (by omega) (by omega) (by omega) (by omega))]

theorem Fld.ofCause_src {i lo w : Nat} (hi : i < 332) : ((FSY_SRC_CTL i).fld lo w).ofCause := by
  refine ⟨?_, ?_, fun _ => ⟨i, hi, rfl⟩, ?_, fun d hd => ?_⟩ <;> simp only [Reg.fld, FSY_SRC_CTL, XPT_STATUS, XPT_DST_STAT] <;> omega

theorem Fld.ofCause_dst {i lo w : Nat} (hi : i < 384) : ((XPT_DST_CTL i).fld lo w).ofCause := by
  refine ⟨?_, ?_, fun h => absurd h ?_, ?_, fun d hd => ?_⟩ <;> simp only [Reg.fld, XPT_DST_CTL, XPT_STATUS, XPT_DST_STAT] <;> omega

theorem Fld.ofCause_gen {i lo w : Nat} (hi : i < 8) : ((XPT_GEN_CTL i).fld lo w).ofCause := by
  refine ⟨?_, ?_, fun h => absurd h ?_, ?_, fun d hd => ?_⟩ <;> simp only [Reg.fld, XPT_GEN_CTL, XPT_STATUS, XPT_DST_STAT] <;> omega

theorem Chip.CauseBase.carafeOf (h : c.CauseBase d) (hs : s < 48) : d.carafeOf s = c.carafeOf s := by
  have hpage : (LBS_PB_CTL_CARAFE s).off / 65536 = 16 := by simp only [LBS_PB_CTL_CARAFE, LBS_PB_CTL, Reg.fld]; omega
  exact h.rd _ (Fld.ofCause_of_page (by omega) (by omega) (by omega) (by omega))

theorem srcKind_cases (s : Nat) : srcKind s = 0 ∧ s < 48 ∨ srcKind s = 1 ∧ 48 ≤ s ∧ s < 240 ∨ srcKind s = 2 ∧ 240 ≤ s ∧ s < 272
    ∨ srcKind s = 3 ∧ 272 ≤ s ∧ s < 320 ∨ srcKind s = 4 ∧ 320 ≤ s ∧ s < 324 ∨ srcKind s = 5 ∧ 324 ≤ s := by
  unfold srcKind
  grind

/-- The sources with a cable: SDI inputs and fabric slots. -/
theorem srcKind_cable {s : Nat} (h : srcKind s ≤ 1) : srcKind s = 0 ∧ s < 48 ∨ srcKind s = 1 ∧ 48 ≤ s ∧ s < 240 := by
  have hcases := srcKind_cases s
  omega

theorem Chip.CauseBase.head (h : c.CauseBase d) {n lo w : Nat} (hn : n < 4) : d.rd ((MVC_HEAD_CTL n).fld lo w) = c.rd ((MVC_HEAD_CTL n).fld lo w) := by
  have hpage : ((MVC_HEAD_CTL n).fld lo w).off / 65536 = 96 := by simp only [MVC_HEAD_CTL, Reg.fld]; omega
  exact h.rd _ (Fld.ofCause_of_page (by omega) (by omega) (by omega) (by omega))

theorem Chip.CauseBase.srcPlane (h : c.CauseBase d) (hs : s < 332) : d.srcPlane s = c.srcPlane s := by
  unfold Chip.srcPlane
  rcases srcKind_cases s with ⟨hk, hr⟩ | ⟨hk, hr⟩ | ⟨hk, hr⟩ | ⟨hk, hr⟩ | ⟨hk, hr⟩ | ⟨hk, hr⟩ <;> simp only [hk]
  case inr.inr.inr.inl =>
    have hcarafe := Chip.rd_lt_of (c := c) (f := LBS_PB_CTL_CARAFE (s - 272)) (k := 64) (Nat.le_refl _)
    rw [h.carafeOf (by omega)]
    exact h.rd _ (Fld.ofCause_dst (by unfold Chip.carafeOf; omega))
  case inr.inr.inr.inr.inl => exact h.head (by omega)
  case inr.inr.inr.inr.inr => exact h.rd _ (Fld.ofCause_gen (by omega))
  all_goals exact h.rd _ (Fld.ofCause_src hs)

theorem Chip.srcPlane_lt (c : Chip) (s : Nat) : c.srcPlane s < 2 := by
  unfold Chip.srcPlane
  split <;> exact Chip.rd_lt_of (by rfl)

theorem Chip.CauseBase.cfgClass (h : c.CauseBase d) (hk : srcKind s ≤ 1) : d.cfgClass s = c.cfgClass s := by
  unfold Chip.cfgClass
  rcases srcKind_cable hk with ⟨hk', hr⟩ | ⟨hk', hr⟩
  all_goals simp only [hk']
  · have hpage : (SDI_RX_CTL_MAX_CLASS s).off / 65536 = 32 := by simp only [SDI_RX_CTL_MAX_CLASS, SDI_RX_CTL, Reg.fld]; omega
    exact h.rd _ (Fld.ofCause_of_page (by omega) (by omega) (by omega) (by omega))
  · have hpage : (FAB_SLOT_CTL_RATE_CLASS (s - 48)).off / 65536 = 48 := by simp only [FAB_SLOT_CTL_RATE_CLASS, FAB_SLOT_CTL, Reg.fld]; omega
    exact h.rd _ (Fld.ofCause_of_page (by omega) (by omega) (by omega) (by omega))

theorem Chip.CauseBase.fmtMatches (h : c.CauseBase d) (hk : srcKind s ≤ 1) (f : Nat) : d.fmtMatches s f = c.fmtMatches s f := by
  have hs : s < 332 := by rcases srcKind_cases s with h | h | h | h | h | h <;> omega
  have hplane := h.srcPlane hs
  have hcfg : d.rd (FSY_SRC_CTL_FORMAT s) = c.rd (FSY_SRC_CTL_FORMAT s) := h.rd _ (Fld.ofCause_src hs)
  have hp := c.srcPlane_lt s
  have hpage : (REF_PLANE_CFG_FORMAT (c.srcPlane s)).off / 65536 = 3 := by simp only [REF_PLANE_CFG_FORMAT, REF_PLANE_CFG, Reg.fld]; omega
  have hfmt : d.planeFmt (c.srcPlane s) = c.planeFmt (c.srcPlane s) := h.rd _ (Fld.ofCause_of_page (by omega) (by omega) (by omega) (by omega))
  simp only [Chip.fmtMatches, h.bondedRx, h.cfgClass hk, hcfg, hplane, hfmt]

theorem Chip.CauseBase.slotLost (h : c.CauseBase d) {m : Nat} (hm : m < 192) : d.slotLost m = c.slotLost m := by
  have hslot : ∀ n < 288, d.on (FAB_SLOT_STAT_RX_PRESENT n) = c.on (FAB_SLOT_STAT_RX_PRESENT n) := fun n hn => by
    have hpage : (FAB_SLOT_STAT_RX_PRESENT n).off / 65536 = 48 := by simp only [FAB_SLOT_STAT_RX_PRESENT, FAB_SLOT_STAT, Reg.fld]; omega
    exact h.on _ (Fld.ofCause_of_page (by omega) (by omega) (by omega) (by omega))
  simp only [Chip.slotLost, h.role, hslot m (by omega), hslot (m + 96) (by omega)]

theorem Chip.CauseBase.signalCause (h : c.CauseBase d) (hk : srcKind s ≤ 1) : d.signalCause s = c.signalCause s := by
  unfold Chip.signalCause
  rcases srcKind_cable hk with ⟨hk', hr⟩ | ⟨hk', hr⟩
  all_goals simp only [hk']
  · have hmax : (SDI_RX_CTL_MAX_CLASS s).off / 65536 = 32 := by simp only [SDI_RX_CTL_MAX_CLASS, SDI_RX_CTL, Reg.fld]; omega
    have hstat : (SDI_RX_STAT_STATE s).off / 65536 = 32 := by simp only [SDI_RX_STAT_STATE, SDI_RX_STAT, Reg.fld]; omega
    simp [h.rd _ (Fld.ofCause_of_page (by omega) (by omega) (by omega) (by omega) : (SDI_RX_CTL_MAX_CLASS s).ofCause),
      h.rd _ (Fld.ofCause_of_page (by omega) (by omega) (by omega) (by omega) : (SDI_RX_STAT_STATE s).ofCause)]
  · have hen : (FAB_SLOT_CTL_RX_EN (s - 48)).off / 65536 = 48 := by simp only [FAB_SLOT_CTL_RX_EN, FAB_SLOT_CTL, Reg.fld]; omega
    simp [h.on _ (Fld.ofCause_of_page (by omega) (by omega) (by omega) (by omega) : (FAB_SLOT_CTL_RX_EN (s - 48)).ofCause), h.slotLost (show s - 48 < 192 by omega)]

theorem Chip.CauseBase.formatOff (h : c.CauseBase d) (hk : srcKind s ≤ 1) (hdet : d.rd (FSY_SRC_STAT_DET_FORMAT s) = c.rd (FSY_SRC_STAT_DET_FORMAT s)) :
    d.formatOff s = c.formatOff s := by
  unfold Chip.formatOff
  rw [hdet, h.fmtMatches hk, h.bondedRx]
  by_cases hs : s < 48
  · have hpage : ∀ i < 48, (SDI_RX_STAT_LEVEL_B i).off / 65536 = 32 := fun i hi => by
      simp only [SDI_RX_STAT_LEVEL_B, SDI_RX_STAT, Reg.fld]; omega
    have hlevel : ∀ i < 48, d.rd (SDI_RX_STAT_LEVEL_B i) = c.rd (SDI_RX_STAT_LEVEL_B i) := fun i hi =>
      h.rd _ (Fld.ofCause_of_page (by rw [hpage i hi]; decide) (by rw [hpage i hi]; decide) (by rw [hpage i hi]; decide) (by rw [hpage i hi]; decide))
    rw [hlevel s hs, hlevel (s / 4 * 4) (by omega)]
  · simp [Chip.bondedRx, hs]

/-- A cause that neither a format, a place in the window nor lines in error changed stands. -/
theorem Chip.CauseBase.ownCause (h : c.CauseBase d) (hs : s < 332)
    (hdet : srcKind s ≤ 1 → d.rd (FSY_SRC_STAT_DET_FORMAT s) = c.rd (FSY_SRC_STAT_DET_FORMAT s))
    (hwin : srcKind s ≤ 1 → d.on (FSY_SRC_STAT_IN_WINDOW s) = c.on (FSY_SRC_STAT_IN_WINDOW s))
    (hbad : srcKind s ≤ 2 → (d.src s).bad = (c.src s).bad) (hdram : (d.src s).dram = (c.src s).dram) : d.ownCause s = c.ownCause s := by
  by_cases hk : srcKind s ≤ 1
  · have hlines : d.linesBad s = c.linesBad s := by rw [Chip.linesBad, Chip.linesBad, hbad (by omega), hdram, h.dramFailed]
    have hfs : d.on (FSY_SRC_CTL_ALLOW_FS s) = c.on (FSY_SRC_CTL_ALLOW_FS s) := h.on _ (Fld.ofCause_src hs)
    rw [d.ownCause_aligner s hk, c.ownCause_aligner s hk, h.signalCause hk, hdet hk, h.formatOff hk (hdet hk), h.leadOf, hwin hk, hfs, hlines]
  · have hplane := h.srcPlane hs
    unfold Chip.ownCause
    rcases srcKind_cases s with ⟨hk', hr⟩ | ⟨hk', hr⟩ | ⟨hk', hr⟩ | ⟨hk', hr⟩ | ⟨hk', hr⟩ | ⟨hk', hr⟩ <;> simp only [hk']
    case inr.inr.inl =>
      have hjoined : (NET_RXF_CTL_JOINED (s - 240)).off / 65536 = 64 := by simp only [NET_RXF_CTL_JOINED, NET_RXF_CTL, Reg.fld]; omega
      have hp : c.srcPlane s < 2 := c.srcPlane_lt s
      have hanchor : (NET_ANCHOR_CTL_VALID (c.srcPlane s)).off / 65536 = 64 := by simp only [NET_ANCHOR_CTL_VALID, NET_ANCHOR_CTL, Reg.fld]; omega
      rw [hplane, h.on _ (Fld.ofCause_of_page (by omega) (by omega) (by omega) (by omega) : (NET_RXF_CTL_JOINED (s - 240)).ofCause),
        h.on _ (Fld.ofCause_of_page (by omega) (by omega) (by omega) (by omega) : (NET_ANCHOR_CTL_VALID (c.srcPlane s)).ofCause), h.mapped, hbad (by omega)]
    case inr.inr.inr.inl =>
      have hpage : (LBS_PB_CTL_ENABLE (s - 272)).off / 65536 = 16 := by simp only [LBS_PB_CTL_ENABLE, LBS_PB_CTL, Reg.fld]; omega
      rw [h.on _ (Fld.ofCause_of_page (by omega) (by omega) (by omega) (by omega))]
    case inr.inr.inr.inr.inl =>
      have hen : d.on (MVC_HEAD_CTL_ENABLE (s - 320)) = c.on (MVC_HEAD_CTL_ENABLE (s - 320)) := congrArg (· != 0) (h.head (by omega))
      rw [hen]
    case inr.inr.inr.inr.inr =>
      have hen : d.on (XPT_GEN_CTL_ENABLE (s - 324)) = c.on (XPT_GEN_CTL_ENABLE (s - 324)) := h.on _ (Fld.ofCause_gen (by omega))
      rw [hen]
    all_goals omega

theorem Chip.CauseBase.srcCause (h : c.CauseBase d) (s : Nat) (hown : ∀ i ∈ c.groupOf s, d.ownCause i = c.ownCause i) :
    d.srcCause s = c.srcCause s := by
  rcases Bool.eq_false_or_eq_true (c.bondedRx s) with hb | hb
  · have hmem : ∀ i < 4, s / 4 * 4 + i ∈ c.groupOf s := fun i hi => by
      rw [Chip.groupOf, if_pos hb]
      exact List.mem_map.2 ⟨i, by simpa using hi, rfl⟩
    have hany : ((List.range 4).any fun i => d.ownCause (s / 4 * 4 + i) != 0) = (List.range 4).any fun i => c.ownCause (s / 4 * 4 + i) != 0 :=
      List.any_eq_of_mem fun i hi => by rw [hown _ (hmem i (List.mem_range.1 hi))]
    have hlead := hown _ (hmem 0 (by decide))
    have hself := hown _ (hmem (s % 4) (by omega))
    rw [show s / 4 * 4 + s % 4 = s by omega] at hself
    unfold Chip.srcCause
    simp only [h.bondedRx, hb, h.skew, h.order, hany, hself, Nat.add_zero] at hlead ⊢
    rw [hlead]
  · have hself : d.ownCause s = c.ownCause s := hown s (by rw [Chip.groupOf, if_neg (by simp [hb])]; simp)
    simp only [Chip.srcCause, h.bondedRx, hb, hself]
    rfl

end
end Sys2Proof.Machine
end

section
/-! SUPPORT. The judgement of a source: what a loss shows, and what it leaves of a source. -/

namespace Sys2Proof.Machine

theorem Chip.src_of_srcs {c d : Chip} (h : d.srcs = c.srcs) (i : Nat) : d.src i = c.src i := by
  unfold Chip.src
  rw [h]

/-! ### Changes that leave every cause -/

/-- Two chips that give every source the same cause. -/
structure Chip.CauseAlike (c d : Chip) : Prop where
  base : c.CauseBase d
  det : ∀ i < 332, d.rd (FSY_SRC_STAT_DET_FORMAT i) = c.rd (FSY_SRC_STAT_DET_FORMAT i)
  win : ∀ i < 332, d.on (FSY_SRC_STAT_IN_WINDOW i) = c.on (FSY_SRC_STAT_IN_WINDOW i)
  bad : ∀ i, (d.src i).bad = (c.src i).bad
  dram : ∀ i, (d.src i).dram = (c.src i).dram

/-- A field that no cause is read from. -/
def Fld.offCause (f : Fld) : Prop :=
  (∀ g : Fld, g.ofCause → f.off ≠ g.off)
    ∧ ∀ i < 332, f.apart (FSY_SRC_STAT_DET_FORMAT i) = true ∧ f.apart (FSY_SRC_STAT_IN_WINDOW i) = true

/-- A register of the aligners beyond their settings is none a cause is read from, but for its format and window bits. -/
theorem Fld.offCause_of_off {f : Fld} (hp : f.off / 65536 = 12) (hr : f.off < 0xC1000 ∨ 0xC1530 ≤ f.off)
    (h : ∀ i < 332, f.apart (FSY_SRC_STAT_DET_FORMAT i) = true ∧ f.apart (FSY_SRC_STAT_IN_WINDOW i) = true) : f.offCause := by
  refine ⟨fun g hg he => ?_, h⟩
  obtain ⟨i, hi, ho⟩ := hg.2.2.1 (he ▸ hp)
  simp only [FSY_SRC_CTL] at ho
  omega

theorem Fld.offCause_dst {d lo w : Nat} (hd : d < 384) : ((XPT_DST_STAT d).fld lo w).offCause :=
  ⟨fun g hg he => hg.2.2.2.2 d hd he, fun i hi => ⟨Fld.apart_of_off (by simp only [Reg.fld, XPT_DST_STAT, FSY_SRC_STAT_DET_FORMAT, FSY_SRC_STAT]; omega),
    Fld.apart_of_off (by simp only [Reg.fld, XPT_DST_STAT, FSY_SRC_STAT_IN_WINDOW, FSY_SRC_STAT]; omega)⟩⟩

theorem Fld.offCause_xpt {lo w : Nat} : (XPT_STATUS.fld lo w).offCause :=
  ⟨fun g hg he => hg.2.2.2.1 he, fun i hi => ⟨Fld.apart_of_off (by simp only [Reg.fld, XPT_STATUS, FSY_SRC_STAT_DET_FORMAT, FSY_SRC_STAT]; omega),
    Fld.apart_of_off (by simp only [Reg.fld, XPT_STATUS, FSY_SRC_STAT_IN_WINDOW, FSY_SRC_STAT]; omega)⟩⟩

/-- What a cause is read from of one source. -/
def Src.causeOf (x : Src) : Nat × Bool × Bool × Bool × Bool := (x.bad, x.dram, x.skew, x.order, x.mapped)

namespace Chip.CauseAlike
variable {c d e : Chip}

theorem refl (c : Chip) : c.CauseAlike c := ⟨.refl c, fun _ _ => rfl, fun _ _ => rfl, fun _ => rfl, fun _ => rfl⟩

theorem trans (h : c.CauseAlike d) (g : d.CauseAlike e) : c.CauseAlike e :=
  ⟨h.base.trans g.base, fun i hi => (g.det i hi).trans (h.det i hi), fun i hi => (g.win i hi).trans (h.win i hi),
    fun i => (g.bad i).trans (h.bad i), fun i => (g.dram i).trans (h.dram i)⟩

theorem wr (h : c.CauseAlike d) {f : Fld} (hf : f.offCause) (v : Nat) : c.CauseAlike (d.wr f v) :=
  h.trans ⟨⟨fun g hg => Chip.rd_wr_keeps _ _ (Fld.apart_of_off (hf.1 g hg)), fun i => by rw [Chip.src_of_srcs (Chip.wr_srcs ..)],
      fun i => by rw [Chip.src_of_srcs (Chip.wr_srcs ..)], fun i => by rw [Chip.src_of_srcs (Chip.wr_srcs ..)]⟩,
    fun i hi => Chip.rd_wr_keeps _ _ (hf.2 i hi).1, fun i hi => Chip.on_wr_keeps _ _ (hf.2 i hi).2,
    fun i => by rw [Chip.src_of_srcs (Chip.wr_srcs ..)], fun i => by rw [Chip.src_of_srcs (Chip.wr_srcs ..)]⟩

theorem when (h : c.CauseAlike d) {b : Bool} {g : Chip → Chip} (hg : ∀ e, c.CauseAlike e → c.CauseAlike (g e)) : c.CauseAlike (d.when b g) := by
  rcases Bool.eq_false_or_eq_true b with hb | hb <;> rw [hb]
  · exact hg d h
  · exact h

theorem each (h : c.CauseAlike d) {α : Type} {l : List α} {g : Chip → α → Chip} (hg : ∀ e a, a ∈ l → c.CauseAlike e → c.CauseAlike (g e a)) :
    c.CauseAlike (d.each l g) := Chip.each_invariant (c.CauseAlike ·) l g hg d h

theorem post (h : c.CauseAlike d) (b k i a : Nat) : c.CauseAlike (d.post b k i a) :=
  h.trans ⟨⟨fun g hg => Chip.rd_post _ _ _ _ _ _ hg.1, fun i => by rw [Chip.src_of_srcs (Chip.post_srcs ..)],
      fun i => by rw [Chip.src_of_srcs (Chip.post_srcs ..)], fun i => by rw [Chip.src_of_srcs (Chip.post_srcs ..)]⟩,
    fun i hi => Chip.rd_post _ _ _ _ _ _ (by simp only [Reg.fld, FSY_SRC_STAT_DET_FORMAT, FSY_SRC_STAT]; omega),
    fun i hi => congrArg (· != 0) (Chip.rd_post _ _ _ _ _ _ (by simp only [Reg.fld, FSY_SRC_STAT_IN_WINDOW, FSY_SRC_STAT]; omega)),
    fun i => by rw [Chip.src_of_srcs (Chip.post_srcs ..)], fun i => by rw [Chip.src_of_srcs (Chip.post_srcs ..)]⟩

theorem setSrc (h : c.CauseAlike d) {s : Nat} {x : Src} (hx : x.causeOf = (d.src s).causeOf) : c.CauseAlike (d.setSrc s x) := by
  have hsame : ∀ i, ((d.setSrc s x).src i).causeOf = (d.src i).causeOf := fun i => by
    rw [Chip.src_setSrc]
    split
    · next hi => rw [hi, hx]
    · rfl
  simp only [Src.causeOf, Prod.mk.injEq] at hsame
  exact h.trans ⟨⟨fun g _ => rfl, fun i => (hsame i).2.2.1, fun i => (hsame i).2.2.2.1, fun i => (hsame i).2.2.2.2⟩,
    fun i _ => rfl, fun i _ => rfl, fun i => (hsame i).1, fun i => (hsame i).2.1⟩

theorem ownCause (h : c.CauseAlike d) {s : Nat} (hs : s < 332) : d.ownCause s = c.ownCause s :=
  h.base.ownCause hs (fun _ => h.det s hs) (fun _ => h.win s hs) (fun _ => h.bad s) (h.dram s)

theorem srcCause (h : c.CauseAlike d) {s : Nat} (hs : s < 332) : d.srcCause s = c.srcCause s :=
  h.base.srcCause s fun _ hi => h.ownCause (Chip.mem_groupOf hs hi)

end Chip.CauseAlike

theorem Fld.offCause_stat {i lo w : Nat} (hi : i < 332) (h3 : lo + w ≤ 2 ∨ 8 ≤ lo ∧ lo + w ≤ 32) : ((FSY_SRC_STAT i).fld lo w).offCause := by
  refine Fld.offCause_of_off ?_ ?_ fun j hj => ⟨?_, ?_⟩
  · simp only [Reg.fld, FSY_SRC_STAT]; omega
  · simp only [Reg.fld, FSY_SRC_STAT]; omega
  all_goals
    simp only [Fld.apart, FSY_SRC_STAT_DET_FORMAT, FSY_SRC_STAT_IN_WINDOW, FSY_SRC_STAT, Reg.fld, decide_eq_true_eq, true_and]
    omega

theorem Chip.srcCause_lt (c : Chip) (s : Nat) : c.srcCause s < 16 := by
  have hown : ∀ i, c.ownCause i < 16 := fun i => by
    unfold Chip.ownCause
    grind
  have := hown s
  have := hown (s / 4 * 4)
  unfold Chip.srcCause
  grind

section
variable {c : Chip} {s : Nat}

theorem Chip.groupOf_nodup (c : Chip) (s : Nat) : (c.groupOf s).Nodup := by
  unfold Chip.groupOf
  split
  · exact (List.nodup_range).map fun a b h => by simpa using h
  · simp

/-- A lost source is invalid and shows its cause. -/
theorem Chip.lossCauses_shows (hs : s < 332) (hl : c.leadOf s = s) :
    (c.lossCauses s).on (FSY_SRC_STAT_VALID s) = false ∧ (c.lossCauses s).rd (FSY_SRC_STAT_CAUSE s) = c.srcCause s := by
  have halike : ∀ d i, i < 332 → c.CauseAlike d → c.CauseAlike ((d.clr (FSY_SRC_STAT_VALID i)).wr (FSY_SRC_STAT_CAUSE i) (d.srcCause i)) :=
    fun d i hi h => (h.wr (Fld.offCause_stat hi (.inl (by decide))) 0).wr (Fld.offCause_stat hi (.inr (by decide))) _
  refine Chip.each_once (c.CauseAlike ·) (fun d => d.on (FSY_SRC_STAT_VALID s) = false ∧ d.rd (FSY_SRC_STAT_CAUSE s) = c.srcCause s)
    (c.groupOf_nodup s) (Chip.lead_mem_groupOf hl) (fun d i hi _ h => halike d i (Chip.mem_groupOf hs hi) h) ?_ ?_ c (.refl c)
  · intro d h
    refine ⟨?_, ?_⟩
    · rw [Chip.on_wr_keeps _ _ (by simp [Fld.apart, FSY_SRC_STAT_CAUSE, FSY_SRC_STAT_VALID, Reg.fld])]
      exact Chip.on_clr_same _ rfl
    · rw [Chip.rd_wr_lt rfl (d.srcCause_lt s), h.srcCause hs]
  · intro d i hi hne ⟨hv, hc⟩
    have hoff : (FSY_SRC_STAT i).off ≠ (FSY_SRC_STAT s).off := by simp only [FSY_SRC_STAT]; omega
    refine ⟨?_, ?_⟩
    · rw [Chip.on_wr_keeps _ _ (Fld.apart_of_off hoff), Chip.on_clr_keeps _ (Fld.apart_of_off hoff), hv]
    · rw [Chip.rd_wr_keeps _ _ (Fld.apart_of_off hoff), Chip.rd_clr_keeps _ (Fld.apart_of_off hoff), hc]

/-- A bit of the status of a source that the flags of a loss leave. -/
theorem Chip.rd_lossFlags_stat {lo w : Nat} (h : lo + w ≤ 1 ∨ 2 ≤ lo ∧ lo + w ≤ 16 ∨ 25 ≤ lo ∧ lo + w ≤ 32) (cause gone : Nat) :
    (c.lossFlags s cause gone).rd ((FSY_SRC_STAT s).fld lo w) = c.rd ((FSY_SRC_STAT s).fld lo w) := by
  unfold Chip.lossFlags
  rw [Chip.rd_flagCause]
  · simp (disch := grind [Fld.apart, FSY_SRC_STAT, FSY_SRC_STAT_PROMOTED, FSY_SRC_STAT_INVALID_SEEN, FSY_STATUS_INVALID, FSY_STATUS,
      FSY_SRC_BADLINES_COUNT, FSY_SRC_BADLINES, FSY_SRC_STAT_BADLINE_SEEN, Reg.fld]) only
      [Chip.rd_when, Chip.rd_set_keeps, Chip.rd_clr_keeps, Chip.rd_add_keeps, ite_self]
  · grind [Fld.apart, FSY_SRC_STAT, FSY_SRC_STAT_MISMATCH_SEEN, Reg.fld]
  · simp only [Reg.fld, FSY_STATUS, FSY_SRC_STAT]; omega

theorem Chip.lossFlags_shows (cause gone : Nat) :
    (c.lossFlags s cause gone).on (FSY_SRC_STAT_INVALID_SEEN s) = true ∧ (c.lossFlags s cause gone).on FSY_STATUS_INVALID = true
      ∧ (gone = 0 → (c.lossFlags s cause gone).rd (FSY_SRC_BADLINES_COUNT s) = c.rd (FSY_SRC_BADLINES_COUNT s))
      ∧ (c.on (FSY_SRC_STAT_BADLINE_SEEN s) = true → (c.lossFlags s cause gone).on (FSY_SRC_STAT_BADLINE_SEEN s) = true) := by
  unfold Chip.lossFlags Chip.flagCause
  refine ⟨?_, ?_, fun hgone => ?_, fun hseen => ?_⟩
  · simp (disch := grind [Fld.apart, FSY_SRC_STAT, FSY_SRC_STAT_PROMOTED, FSY_SRC_STAT_INVALID_SEEN, FSY_STATUS_INVALID, FSY_STATUS,
      FSY_SRC_BADLINES_COUNT, FSY_SRC_BADLINES, FSY_SRC_STAT_BADLINE_SEEN, FSY_SRC_STAT_MISMATCH_SEEN, FSY_STATUS_FORMAT_MISMATCH,
      FSY_STATUS_OUT_OF_WINDOW, FSY_STATUS_QUAD_FAULT, Reg.fld, Fld.fits_iff]) only
      [Chip.on_when, Chip.on_set_same, Chip.on_set_keeps, Chip.on_add_keeps, ite_self]
  · simp (disch := grind [Fld.apart, FSY_SRC_STAT, FSY_SRC_STAT_PROMOTED, FSY_SRC_STAT_INVALID_SEEN, FSY_STATUS_INVALID, FSY_STATUS,
      FSY_SRC_BADLINES_COUNT, FSY_SRC_BADLINES, FSY_SRC_STAT_BADLINE_SEEN, FSY_SRC_STAT_MISMATCH_SEEN, FSY_STATUS_FORMAT_MISMATCH,
      FSY_STATUS_OUT_OF_WINDOW, FSY_STATUS_QUAD_FAULT, Reg.fld, Fld.fits_iff]) only
      [Chip.on_when, Chip.on_set_same, Chip.on_set_keeps, Chip.on_add_keeps, ite_self]
  · rw [hgone, show ((0 : Nat) != 0) = false from rfl, Chip.when_false]
    simp (disch := grind [Fld.apart, FSY_SRC_STAT, FSY_SRC_STAT_PROMOTED, FSY_SRC_STAT_INVALID_SEEN, FSY_STATUS_INVALID, FSY_STATUS,
      FSY_SRC_BADLINES_COUNT, FSY_SRC_BADLINES, FSY_SRC_STAT_MISMATCH_SEEN, FSY_STATUS_FORMAT_MISMATCH,
      FSY_STATUS_OUT_OF_WINDOW, FSY_STATUS_QUAD_FAULT, Reg.fld]) only
      [Chip.rd_when, Chip.rd_set_keeps, Chip.rd_clr_keeps, ite_self]
  · simp (disch := grind [Fld.apart, FSY_SRC_STAT, FSY_SRC_STAT_PROMOTED, FSY_SRC_STAT_INVALID_SEEN, FSY_STATUS_INVALID, FSY_STATUS,
      FSY_SRC_STAT_BADLINE_SEEN, FSY_SRC_STAT_MISMATCH_SEEN, FSY_STATUS_FORMAT_MISMATCH,
      FSY_STATUS_OUT_OF_WINDOW, FSY_STATUS_QUAD_FAULT, Reg.fld, Fld.fits_iff]) only
      [Chip.on_when, Chip.on_set_same, Chip.on_set_keeps, Chip.on_clr_keeps, ite_self, hseen]

/-- What a loss shows on the lead of the source: it is invalid, with its cause and the flags; its lines are counted as before unless a frame is cut
short. -/
theorem Chip.loseSrc_shows (hs : s < 332) (hl : c.leadOf s = s) :
    (c.loseSrc s).srcValid s = false ∧ (c.loseSrc s).rd (FSY_SRC_STAT_CAUSE s) = c.srcCause s
      ∧ (c.loseSrc s).on (FSY_SRC_STAT_INVALID_SEEN s) = true ∧ (c.loseSrc s).on FSY_STATUS_INVALID = true
      ∧ (c.lossCut s = false → (c.loseSrc s).rd (FSY_SRC_BADLINES_COUNT s) = c.rd (FSY_SRC_BADLINES_COUNT s))
      ∧ (c.on (FSY_SRC_STAT_BADLINE_SEEN s) = true → (c.loseSrc s).on (FSY_SRC_STAT_BADLINE_SEEN s) = true) := by
  obtain ⟨hv, hc⟩ := Chip.lossCauses_shows hs hl
  rw [c.loseSrc_stages s hl]
  have hout : ∀ (f : Fld) (d : Chip), f.off / 65536 = 12 → (d.lossOut s (c.srcCause s) (c.lossCut s)).rd f = d.rd f :=
    fun f d hf => Chip.rd_lossOut hs (by rw [hf]; decide) _ _
  have hstat : ∀ lo w, ((FSY_SRC_STAT s).fld lo w).off / 65536 = 12 := fun lo w => by simp only [Reg.fld, FSY_SRC_STAT]; omega
  have hbl : (FSY_SRC_BADLINES_COUNT s).off / 65536 = 12 := by simp only [Reg.fld, FSY_SRC_BADLINES_COUNT, FSY_SRC_BADLINES]; omega
  have hkeep : ∀ f : Fld, (∀ i < 332, (FSY_SRC_STAT_VALID i).apart f = true ∧ (FSY_SRC_STAT_CAUSE i).apart f = true) →
      ((c.lossCauses s).setSrc s (((c.lossCauses s).src s).lost (c.lossCauses s).now (c.lossCut s))).rd f = c.rd f := fun f hf => by
    rw [Chip.setSrc_rd, Chip.rd_lossCauses hs hf]
  obtain ⟨hseen, hinv, hcount, hline⟩ := Chip.lossFlags_shows (s := s)
    (c := (c.lossCauses s).setSrc s (((c.lossCauses s).src s).lost (c.lossCauses s).now (c.lossCut s))) (c.srcCause s) (c.lossGone s)
  refine ⟨?_, ?_, ?_, ?_, fun hcut => ?_, fun hb => ?_⟩
  · exact (congrArg (· != 0) ((hout _ _ (hstat ..)).trans ((Chip.rd_lossFlags_stat (by decide) _ _).trans (Chip.setSrc_rd ..)))).trans hv
  · exact ((hout _ _ (hstat ..)).trans ((Chip.rd_lossFlags_stat (by decide) _ _).trans (Chip.setSrc_rd ..))).trans hc
  · exact (congrArg (· != 0) (hout _ _ (hstat ..))).trans hseen
  · exact (congrArg (· != 0) (hout _ _ (by decide))).trans hinv
  · refine (hout _ _ hbl).trans ((hcount (by rw [Chip.lossGone, hcut]; rfl)).trans (hkeep _ fun i hi => ⟨?_, ?_⟩)) <;>
      exact Fld.apart_of_off (by simp only [Reg.fld, FSY_SRC_BADLINES_COUNT, FSY_SRC_BADLINES, FSY_SRC_STAT_VALID, FSY_SRC_STAT_CAUSE, FSY_SRC_STAT]; omega)
  · refine (congrArg (· != 0) (hout _ _ (hstat ..))).trans (hline ?_)
    refine (congrArg (· != 0) (hkeep _ fun i hi => ?_)).trans hb
    constructor <;> grind [Fld.apart, FSY_SRC_STAT, FSY_SRC_STAT_VALID, FSY_SRC_STAT_CAUSE, FSY_SRC_STAT_BADLINE_SEEN, Reg.fld]

/-! ### What a loss leaves of a source -/

/-- Of a source, what a loss leaves: its frames counted and begun, the lines in error in a row, and the lane it came from. -/
def Src.arrival (x : Src) : Nat × Option Nat × Bool × Nat × Nat × Option (Nat × Nat) := (x.next, x.arrAt, x.here, x.bad, x.link, x.last)

theorem Chip.src_lossCauses (hs : s < 332) (i : Nat) : (c.lossCauses s).src i = c.src i :=
  Chip.each_keeps (·.src i) _ _ (fun d j _ => Chip.src_of_srcs ((Chip.wr_srcs ..).trans (Chip.wr_srcs ..)) i) c

theorem Chip.srcs_lossFlags (hs : s < 332) (cause gone : Nat) : (c.lossFlags s cause gone).srcs = c.srcs := by
  have hstat : ∀ lo w, ((FSY_SRC_STAT s).fld lo w).off / 65536 ∈ [12] := fun lo w => by
    simp only [Reg.fld, FSY_SRC_STAT, List.mem_singleton]; omega
  have hbl : (FSY_SRC_BADLINES_COUNT s).off / 65536 ∈ [12] := by
    simp only [Reg.fld, FSY_SRC_BADLINES_COUNT, FSY_SRC_BADLINES, List.mem_singleton]; omega
  exact (Chip.flagCause_within hs (.when' (.set (.set (.clr .refl (hstat ..)) (hstat ..)) (by decide)) fun d => .set (.add .refl hbl) (hstat ..))
    (by decide) (by decide) : Chip.Within [12] [] c (c.lossFlags s cause gone)).part .srcs (by decide)

theorem Src.arrival_lost (x : Src) (now : Nat) (cut : Bool) : (x.lost now cut).arrival = x.arrival := rfl

theorem Chip.src_lossOut (hs : s < 332) (cause : Nat) (cut : Bool) (i : Nat) : (c.lossOut s cause cut).src i = c.src i :=
  Chip.src_of_srcs ((Chip.lossOut_within hs .refl (by decide) (by decide) : Chip.Within [1, 8, 64] [] c _).part .srcs (by decide)) i

theorem Chip.src_loseSrc (hs : s < 332) (i : Nat) : ((c.loseSrc s).src i).arrival = (c.src i).arrival := by
  rw [c.loseSrc_lead]
  have hl := @Chip.leadOf_lt c s hs
  rw [c.loseSrc_stages _ (c.leadOf_leadOf s), Chip.src_lossOut hl, Chip.src_of_srcs (Chip.srcs_lossFlags hl ..), Chip.src_setSrc]
  split
  · next hi => rw [Src.arrival_lost, hi, Chip.src_lossCauses hl]
  · rw [Chip.src_lossCauses hl]

/-! ### The judgement -/

theorem Chip.showDet_aligner (hk : srcKind s ≤ 1) : c.showDet s = c := if_pos hk

/-- A source without an aligner shows its format, of which no cause is read. -/
theorem Chip.showDet_causes (hs : s < 332) : (∀ i < 332, (c.showDet s).srcCause i = c.srcCause i) ∧ (c.showDet s).leadOf s = c.leadOf s := by
  by_cases hk : srcKind s ≤ 1
  · rw [Chip.showDet_aligner hk]
    exact ⟨fun _ _ => rfl, rfl⟩
  · have hshow : c.showDet s = c.wr (FSY_SRC_STAT_DET_FORMAT s) (if c.ownCause s = 1 ∨ 9 ≤ c.ownCause s then 0 else c.cfgFmt s) := if_neg hk
    have hbase : c.CauseBase (c.showDet s) := by
      rw [hshow]
      refine ⟨fun g hg => Chip.rd_wr_keeps _ _ (Fld.apart_of_off fun he => ?_), fun i => by rw [Chip.src_of_srcs (Chip.wr_srcs ..)],
        fun i => by rw [Chip.src_of_srcs (Chip.wr_srcs ..)], fun i => by rw [Chip.src_of_srcs (Chip.wr_srcs ..)]⟩
      obtain ⟨j, hj, ho⟩ := hg.2.2.1 (by rw [← he]; simp only [FSY_SRC_STAT_DET_FORMAT, FSY_SRC_STAT, Reg.fld]; omega)
      rw [← he] at ho
      simp only [FSY_SRC_STAT_DET_FORMAT, FSY_SRC_STAT, Reg.fld, FSY_SRC_CTL] at ho
      omega
    refine ⟨fun i hi => hbase.srcCause i fun j hj => hbase.ownCause (Chip.mem_groupOf hi hj) (fun hkj => ?_) (fun _ => ?_) (fun _ => ?_) ?_, hbase.leadOf s⟩
    · rw [hshow]
      exact Chip.rd_wr_keeps _ _ (Fld.apart_of_off (by
        simp only [FSY_SRC_STAT_DET_FORMAT, FSY_SRC_STAT, Reg.fld]
        have : j ≠ s := fun he => hk (he ▸ hkj)
        omega))
    · rw [hshow]
      exact Chip.on_wr_keeps _ _ (by grind [Fld.apart, FSY_SRC_STAT, FSY_SRC_STAT_DET_FORMAT, FSY_SRC_STAT_IN_WINDOW, Reg.fld])
    · rw [hshow, Chip.src_of_srcs (Chip.wr_srcs ..)]
    · rw [hshow, Chip.src_of_srcs (Chip.wr_srcs ..)]

/-- The judgement of a source that shows what its flow or block says: a loss, the causes of an invalid source, or nothing. -/
def Chip.judged (c : Chip) (s : Nat) : Chip :=
  if c.srcValid s && c.srcCause s != 0 then c.loseSrc s
  else if !(c.srcValid s) && c.srcCause s != 0 then
    (c.when (c.rd (FSY_SRC_STAT_CAUSE s) != c.srcCause s) (·.flagCause s (c.srcCause s))).each (c.groupOf s)
      fun c i => c.wr (FSY_SRC_STAT_CAUSE i) (c.srcCause i)
  else c

theorem Chip.judgeSrc_stages (c : Chip) (s : Nat) : c.judgeSrc s = (c.showDet (c.leadOf s)).judged (c.leadOf s) := rfl

theorem Chip.judged_lost (hv : c.srcValid s = true) (hc : c.srcCause s ≠ 0) : c.judged s = c.loseSrc s := if_pos (by simp [hv, hc])

theorem Chip.judged_sound (hc : c.srcCause s = 0) : c.judged s = c := by simp [Chip.judged, hc]

/-- An invalid source shows its present causes and their flags. -/
def Chip.causesShown (c : Chip) (s : Nat) : Chip :=
  (c.when (c.rd (FSY_SRC_STAT_CAUSE s) != c.srcCause s) (·.flagCause s (c.srcCause s))).each (c.groupOf s)
    fun c i => c.wr (FSY_SRC_STAT_CAUSE i) (c.srcCause i)

theorem Chip.judged_invalid (hv : c.srcValid s = false) (hc : c.srcCause s ≠ 0) : c.judged s = c.causesShown s := by
  simp only [Chip.judged, hv, Bool.false_and, Bool.false_eq_true, if_false]
  exact if_pos (by simp [hc])

theorem Chip.srcs_causesShown (hs : s < 332) : (c.causesShown s).srcs = c.srcs := by
  have hstat : ∀ i < 332, (FSY_SRC_STAT_CAUSE i).off / 65536 ∈ [12] := fun i hi => by
    simp only [Reg.fld, FSY_SRC_STAT_CAUSE, FSY_SRC_STAT, List.mem_singleton]; omega
  exact (.each (.when' .refl fun d => Chip.flagCause_within hs .refl (by decide) (by decide)) fun d i hi => .wr .refl (hstat i (Chip.mem_groupOf hs hi)) :
    Chip.Within [12] [] c (c.causesShown s)).part .srcs (by decide)

theorem Chip.rd_causesShown {f : Fld} (hs : s < 332) (hst : FSY_STATUS.off ≠ f.off) (hm : (FSY_SRC_STAT_MISMATCH_SEEN s).apart f = true)
    (hc : ∀ i < 332, (FSY_SRC_STAT_CAUSE i).apart f = true) : (c.causesShown s).rd f = c.rd f := by
  refine (Chip.each_keeps (·.rd f) _ _ (fun d i hi => Chip.rd_wr_keeps _ _ (hc i (Chip.mem_groupOf hs hi))) _).trans ?_
  rw [Chip.rd_when, Chip.rd_flagCause hm hst, ite_self]

/-- Whatever a loss and the showing of causes both keep, the judgement keeps. -/
theorem Chip.judged_keeps {β : Type} (view : Chip → β) (hlost : view (c.loseSrc s) = view c) (hshown : view (c.causesShown s) = view c) :
    view (c.judged s) = view c := by
  by_cases hc : c.srcCause s = 0
  · rw [Chip.judged_sound hc]
  · rcases Bool.eq_false_or_eq_true (c.srcValid s) with hv | hv
    · rw [Chip.judged_lost hv hc, hlost]
    · rw [Chip.judged_invalid hv hc, hshown]

theorem Chip.srcs_showDet : (c.showDet s).srcs = c.srcs := by
  unfold Chip.showDet
  split
  · rfl
  · exact Chip.wr_srcs ..

theorem Chip.rd_showDet {f : Fld} (h : srcKind s ≤ 1 ∨ (FSY_SRC_STAT_DET_FORMAT s).apart f = true) : (c.showDet s).rd f = c.rd f := by
  rcases h with h | h
  · rw [Chip.showDet_aligner h]
  · unfold Chip.showDet
    split
    · rfl
    · exact Chip.rd_wr_keeps _ _ h

/-- The judgement of a source leaves the arrivals of every source. -/
theorem Chip.src_judgeSrc (hs : s < 332) (i : Nat) : ((c.judgeSrc s).src i).arrival = (c.src i).arrival := by
  have hl := @Chip.leadOf_lt c s hs
  rw [c.judgeSrc_stages, Chip.judged_keeps (fun d => (d.src i).arrival) (Chip.src_loseSrc hl i)
    (congrArg Src.arrival (Chip.src_of_srcs (Chip.srcs_causesShown hl) i)), Chip.src_of_srcs Chip.srcs_showDet]

theorem Chip.rd_judgeSrc {f : Fld} (hs : s < 332) (hf : f.outlastsLoss)
    (hd : srcKind s ≤ 1 ∨ (FSY_SRC_STAT_DET_FORMAT (c.leadOf s)).apart f = true) : (c.judgeSrc s).rd f = c.rd f := by
  have hl := @Chip.leadOf_lt c s hs
  rw [c.judgeSrc_stages, Chip.judged_keeps (·.rd f) (Chip.rd_loseSrc hl hf)
    (Chip.rd_causesShown hl hf.2.1 (hf.2.2 _ hl).2.2.2.2.2.1 fun i hi => (hf.2.2 i hi).2.2.2.1)]
  exact Chip.rd_showDet (by rwa [Chip.srcKind_leadOf])

/-- A valid source with a cause is lost. -/
theorem Chip.judgeSrc_lost (hs : s < 332) (hl : c.leadOf s = s) (hv : c.srcValid s = true) (hc : c.srcCause s ≠ 0) :
    (c.judgeSrc s).srcValid s = false ∧ (c.judgeSrc s).rd (FSY_SRC_STAT_CAUSE s) = c.srcCause s
      ∧ (c.judgeSrc s).on (FSY_SRC_STAT_INVALID_SEEN s) = true ∧ (c.judgeSrc s).on FSY_STATUS_INVALID = true := by
  obtain ⟨hcause, hlead⟩ := Chip.showDet_causes (c := c) hs
  have hvalid : (c.showDet s).srcValid s = true := by
    refine (congrArg (· != 0) (Chip.rd_showDet (.inr ?_))).trans hv
    simp [Fld.apart, FSY_SRC_STAT_DET_FORMAT, FSY_SRC_STAT_VALID, Reg.fld]
  obtain ⟨h1, h2, h3, h4, -⟩ := Chip.loseSrc_shows hs (hlead.trans hl)
  rw [c.judgeSrc_stages, hl, Chip.judged_lost hvalid (by rwa [hcause s hs])]
  exact ⟨h1, h2.trans (hcause s hs), h3, h4⟩

theorem Chip.judgeSrc_sound (hs : s < 332) (hl : c.leadOf s = s) (hc : c.srcCause s = 0) : c.judgeSrc s = c.showDet s := by
  rw [c.judgeSrc_stages, hl, Chip.judged_sound ((Chip.showDet_causes hs).1 s hs |>.trans hc)]

/-- The lines counted in error stay counted, and as many unless a frame is cut short. -/
theorem Chip.judgeSrc_lines (hs : s < 332) (hl : c.leadOf s = s) :
    (c.on (FSY_SRC_STAT_BADLINE_SEEN s) = true → (c.judgeSrc s).on (FSY_SRC_STAT_BADLINE_SEEN s) = true)
      ∧ (c.lossCut s = false ∨ c.srcCause s = 0 → (c.judgeSrc s).rd (FSY_SRC_BADLINES_COUNT s) = c.rd (FSY_SRC_BADLINES_COUNT s)) := by
  obtain ⟨hcause, hlead⟩ := Chip.showDet_causes (c := c) hs
  have hdet : ∀ f : Fld, (FSY_SRC_STAT_DET_FORMAT s).apart f = true → (c.showDet s).rd f = c.rd f := fun f hf => Chip.rd_showDet (.inr hf)
  have hseen : (c.showDet s).on (FSY_SRC_STAT_BADLINE_SEEN s) = c.on (FSY_SRC_STAT_BADLINE_SEEN s) := congrArg (· != 0) (hdet _ (by
    simp [Fld.apart, FSY_SRC_STAT_DET_FORMAT, FSY_SRC_STAT_BADLINE_SEEN, Reg.fld]))
  have hcount : (c.showDet s).rd (FSY_SRC_BADLINES_COUNT s) = c.rd (FSY_SRC_BADLINES_COUNT s) := hdet _ (Fld.apart_of_off (by
    simp only [FSY_SRC_STAT_DET_FORMAT, FSY_SRC_STAT, FSY_SRC_BADLINES_COUNT, FSY_SRC_BADLINES, Reg.fld]; omega))
  have hcut : (c.showDet s).lossCut s = c.lossCut s := by
    have hprom : (c.showDet s).on (FSY_SRC_STAT_PROMOTED s) = c.on (FSY_SRC_STAT_PROMOTED s) := congrArg (· != 0) (hdet _ (by
      simp [Fld.apart, FSY_SRC_STAT_DET_FORMAT, FSY_SRC_STAT_PROMOTED, Reg.fld]))
    rw [Chip.lossCut, Chip.lossCut, hcause s hs, hprom]
  have hoff : (FSY_STATUS).off ≠ (FSY_SRC_BADLINES_COUNT s).off ∧ FSY_STATUS.off ≠ (FSY_SRC_STAT_BADLINE_SEEN s).off := by
    constructor <;> simp only [FSY_STATUS, FSY_SRC_BADLINES_COUNT, FSY_SRC_BADLINES, FSY_SRC_STAT_BADLINE_SEEN, FSY_SRC_STAT, Reg.fld] <;> omega
  obtain ⟨-, -, -, -, hkeep, hstay⟩ := Chip.loseSrc_shows hs (hlead.trans hl)
  rw [c.judgeSrc_stages, hl]
  by_cases hc : (c.showDet s).srcCause s = 0
  · rw [Chip.judged_sound hc]
    exact ⟨fun h => hseen.trans h, fun _ => hcount⟩
  · rcases Bool.eq_false_or_eq_true ((c.showDet s).srcValid s) with hv | hv
    · rw [Chip.judged_lost hv hc]
      refine ⟨fun h => hstay (hseen.trans h), fun h => (hkeep ?_).trans hcount⟩
      rcases h with h | h
      · exact hcut.trans h
      · exact absurd ((hcause s hs).trans h) hc
    · rw [Chip.judged_invalid hv hc]
      refine ⟨fun h => (congrArg (· != 0) (Chip.rd_causesShown hs hoff.2 ?_ fun i hi => ?_)).trans (hseen.trans h), fun _ =>
        (Chip.rd_causesShown hs hoff.1 (Fld.apart_of_off ?_) fun i hi => Fld.apart_of_off ?_).trans hcount⟩
      · simp [Fld.apart, FSY_SRC_STAT_MISMATCH_SEEN, FSY_SRC_STAT_BADLINE_SEEN, Reg.fld]
      · grind [Fld.apart, FSY_SRC_STAT, FSY_SRC_STAT_CAUSE, FSY_SRC_STAT_BADLINE_SEEN, Reg.fld]
      · simp only [FSY_SRC_STAT_MISMATCH_SEEN, FSY_SRC_STAT, FSY_SRC_BADLINES_COUNT, FSY_SRC_BADLINES, Reg.fld]; omega
      · simp only [FSY_SRC_STAT_CAUSE, FSY_SRC_STAT, FSY_SRC_BADLINES_COUNT, FSY_SRC_BADLINES, Reg.fld]; omega

end
end Sys2Proof.Machine
end

section
/-! SUPPORT. The rows of the source aligners: a frame that arrives, and the causes that a row brings. -/

namespace Sys2Proof.Machine

section
variable {c d : Chip} {s : Nat}

/-! ### A cause that one change brings -/

theorem Chip.ownCause_of_sound (h0 : c.srcCause s = 0) : c.ownCause s = 0 := by
  unfold Chip.srcCause at h0
  grind

/-- The lead of an aligner without a cause has the one that it finds itself, once the others of its group have none. -/
theorem Chip.CauseBase.srcCause_lead (h : c.CauseBase d) (hl : c.leadOf s = s) (h0 : c.srcCause s = 0)
    (hother : ∀ i ∈ c.groupOf s, i ≠ s → d.ownCause i = c.ownCause i) : d.srcCause s = d.ownCause s := by
  rcases Bool.eq_false_or_eq_true (c.bondedRx s) with hb | hb
  · have hlead : s / 4 * 4 = s := by rwa [Chip.leadOf, if_pos hb] at hl
    have hsound : (c.src s).skew = false ∧ (c.src s).order = false ∧ ∀ i < 4, c.ownCause (s + i) = 0 := by
      unfold Chip.srcCause at h0
      simp only [hb, hlead] at h0
      have hown := fun hany => (List.any_eq_false (l := List.range 4) (p := fun i => c.ownCause (s + i) != 0)).1 hany
      simp only [List.mem_range, bne_iff_ne, ne_eq, not_not] at hown
      grind
    obtain ⟨hskew, horder, hown⟩ := hsound
    have hnone : d.ownCause s = 0 → ((List.range 4).any fun i => d.ownCause (s + i) != 0) = false := fun hs => by
      refine List.any_eq_false.2 fun i hi => ?_
      have hi := List.mem_range.1 hi
      by_cases hz : i = 0
      · simp [hz, hs]
      · rw [hother (s + i) ?_ (by omega), hown i hi]
        · simp
        · rw [Chip.groupOf, if_pos hb]
          exact List.mem_map.2 ⟨i, by simpa using hi, by omega⟩
    unfold Chip.srcCause
    simp only [h.bondedRx, hb, hlead, h.skew, h.order, hskew, horder]
    grind
  · simp [Chip.srcCause, h.bondedRx, hb]

/-- An aligner without a cause, as `Chip.ownCause_aligner` lists them. -/
theorem Chip.aligner_sound (hk : srcKind s ≤ 1) (h0 : c.ownCause s = 0) : c.signalCause s = 0 ∧ c.rd (FSY_SRC_STAT_DET_FORMAT s) ≠ 0
    ∧ c.formatOff s = false ∧ (c.leadOf s = s → c.on (FSY_SRC_STAT_IN_WINDOW s) = true ∨ c.on (FSY_SRC_CTL_ALLOW_FS s) = true)
    ∧ c.linesBad s = false := by
  rw [c.ownCause_aligner s hk] at h0
  grind

/-- A sound aligner whose lines change has no cause but its lines. -/
theorem Chip.CauseBase.ownCause_lines (h : c.CauseBase d) (hk : srcKind s ≤ 1) (h0 : c.ownCause s = 0)
    (hdet : d.rd (FSY_SRC_STAT_DET_FORMAT s) = c.rd (FSY_SRC_STAT_DET_FORMAT s))
    (hwin : d.on (FSY_SRC_STAT_IN_WINDOW s) = c.on (FSY_SRC_STAT_IN_WINDOW s)) : d.ownCause s = if d.linesBad s = true then 6 else 0 := by
  have hs : s < 332 := by rcases srcKind_cases s with h | h | h | h | h | h <;> omega
  have hfs : d.on (FSY_SRC_CTL_ALLOW_FS s) = c.on (FSY_SRC_CTL_ALLOW_FS s) := h.on _ (Fld.ofCause_src hs)
  obtain ⟨hsig, hd, hoff, hw, -⟩ := Chip.aligner_sound hk h0
  rw [d.ownCause_aligner s hk, h.signalCause hk, hsig, hdet, h.formatOff hk hdet, hoff, h.leadOf, hwin, hfs]
  grind

/-- A sound source of at most a flow has no cause but its lines once they change. -/
theorem Chip.CauseBase.ownCause_lines_or (h : c.CauseBase d) (hk : srcKind s ≤ 2) (h0 : c.ownCause s = 0)
    (hdet : d.rd (FSY_SRC_STAT_DET_FORMAT s) = c.rd (FSY_SRC_STAT_DET_FORMAT s))
    (hwin : d.on (FSY_SRC_STAT_IN_WINDOW s) = c.on (FSY_SRC_STAT_IN_WINDOW s)) : d.ownCause s = 0 ∨ d.ownCause s = 6 := by
  by_cases hk1 : srcKind s ≤ 1
  · rw [h.ownCause_lines hk1 h0 hdet hwin]
    grind
  · have hk2 : srcKind s = 2 := by omega
    have hs : 240 ≤ s ∧ s < 272 := by rcases srcKind_cases s with h | h | h | h | h | h <;> omega
    have hjoined : (NET_RXF_CTL_JOINED (s - 240)).off / 65536 = 64 := by simp only [NET_RXF_CTL_JOINED, NET_RXF_CTL, Reg.fld]; omega
    have hp := c.srcPlane_lt s
    have hanchor : (NET_ANCHOR_CTL_VALID (c.srcPlane s)).off / 65536 = 64 := by simp only [NET_ANCHOR_CTL_VALID, NET_ANCHOR_CTL, Reg.fld]; omega
    unfold Chip.ownCause at h0 ⊢
    simp only [hk2] at h0 ⊢
    rw [h.srcPlane (by omega), h.on _ (Fld.ofCause_of_page (by omega) (by omega) (by omega) (by omega) : (NET_RXF_CTL_JOINED (s - 240)).ofCause),
        h.on _ (Fld.ofCause_of_page (by omega) (by omega) (by omega) (by omega) : (NET_ANCHOR_CTL_VALID (c.srcPlane s)).ofCause), h.mapped]
    grind

end
end Sys2Proof.Machine
end

section
/-! SUPPORT. The events of source alignment, row by row. -/

namespace Sys2Proof.Machine

section
variable {c d : Chip} {s : Nat}

/-! ### The rows on a live part -/

theorem State.sourceFrameArrival_row {s : State} {t : Nat} {x : Fin 332} {f : FrameIn} (hlive : (s.chipAt t).live = true)
    (hoff : srcOffered (s.chipAt t).role x.val = true) :
    exec (.sourceFrameArrival t x f) s = .next (s.commit (((s.chipAt t).frameArrives x.val f).ratioCheck x.val)) := by
  refine (State.event_live s t _ hlive).trans ?_
  rw [hoff]
  rfl

theorem State.srcInvalid_row {s : State} {t : Nat} {x : Fin 332} (hlive : (s.chipAt t).live = true) :
    exec (.srcInvalid t x) s = .next (s.commit (((s.chipAt t).sourceInvalid x.val).headRuns x.val)) := State.event_live s t _ hlive

theorem State.srcValid_row {s : State} {t : Nat} {x : Fin 332} (hlive : (s.chipAt t).live = true)
    (hoff : srcOffered (s.chipAt t).role x.val = true) :
    exec (.srcValid t x) s = .next (s.commit (((s.chipAt t).gainSrc x.val).headRuns x.val)) := by
  refine (State.event_live s t _ hlive).trans ?_
  rw [hoff]
  rfl

theorem State.invalidLine_row {s : State} {t : Nat} {x : Fin 332} {run : Bool} (hlive : (s.chipAt t).live = true)
    (hoff : srcOffered (s.chipAt t).role x.val = true) (hk : srcKind x.val ≤ 2) :
    exec (.invalidLine t x run) s = .next (s.commit ((s.chipAt t).badLine x.val run)) := by
  refine (State.event_live s t _ hlive).trans ?_
  rw [hoff, decide_eq_true hk]
  rfl

/-! ### A source that becomes invalid -/

theorem Chip.rd_headRuns (hs : s < 332) {f : Fld} (hf : f.off / 65536 ≠ 96) : (c.headRuns s).rd f = c.rd f :=
  (Chip.headRuns_within hs .refl (by decide) (by decide) : Chip.Within [96] [] c _).rd (by simpa using hf)

theorem Fld.stat_page {i lo w : Nat} (hi : i < 332) : ((FSY_SRC_STAT i).fld lo w).off / 65536 = 12 := by
  simp only [Reg.fld, FSY_SRC_STAT]
  omega

/-- The aligner of a source detects anew. -/
def Chip.detectAnew (c : Chip) (s : Nat) : Chip := (c.setSrc s { c.src s with same := 0, struct := 0 }).wr (FSY_SRC_STAT_DET_FORMAT s) 0

theorem Chip.sourceInvalid_stages (c : Chip) (s : Nat) : c.sourceInvalid s =
    if (c.judgeSrc (c.leadOf s)).srcValid (c.leadOf s) && srcKind (c.leadOf s) ≤ 1 then
      ((c.judgeSrc (c.leadOf s)).detectAnew (c.leadOf s)).judgeSrc (c.leadOf s)
    else c.judgeSrc (c.leadOf s) := rfl

/-- A loss leaves the detected format and the place in the window. -/
theorem Fld.outlastsLoss_stat {i lo w : Nat} (hi : i < 332) (h : 2 ≤ lo ∧ lo + w ≤ 8) : ((FSY_SRC_STAT i).fld lo w).outlastsLoss := by
  refine ⟨Fld.stat_page hi, ?_, fun j hj => ⟨?_, ?_⟩⟩
  · simp only [FSY_STATUS, FSY_SRC_STAT, Reg.fld]; omega
  · simp only [FSY_SRC_BADLINES, FSY_SRC_STAT, Reg.fld]; omega
  · simp only [Fld.apart, FSY_SRC_STAT_VALID, FSY_SRC_STAT_PROMOTED, FSY_SRC_STAT_CAUSE, FSY_SRC_STAT_INVALID_SEEN, FSY_SRC_STAT_MISMATCH_SEEN,
      FSY_SRC_STAT_BADLINE_SEEN, FSY_SRC_STAT, Reg.fld, decide_eq_true_eq, true_and]
    omega

theorem Chip.sourceInvalid_cause (hs : s < 332) (hv : c.srcValid (c.leadOf s) = true) (hc : c.srcCause (c.leadOf s) ≠ 0) :
    (c.sourceInvalid s).srcValid (c.leadOf s) = false ∧ (c.sourceInvalid s).rd (FSY_SRC_STAT_CAUSE (c.leadOf s)) = c.srcCause (c.leadOf s)
      ∧ (c.sourceInvalid s).on (FSY_SRC_STAT_INVALID_SEEN (c.leadOf s)) = true ∧ (c.sourceInvalid s).on FSY_STATUS_INVALID = true := by
  have h := Chip.judgeSrc_lost (Chip.leadOf_lt hs) (c.leadOf_leadOf s) hv hc
  have hinv : c.sourceInvalid s = c.judgeSrc (c.leadOf s) := by
    rw [Chip.sourceInvalid_stages]
    exact if_neg (by simp [h.1])
  rw [hinv]
  exact h

theorem Chip.detectAnew_base (hs : s < 332) : c.CauseBase (c.detectAnew s) ∧ ∀ i < 332, i ≠ s → (c.detectAnew s).ownCause i = c.ownCause i := by
  have hsame : ∀ i, ((c.detectAnew s).src i).causeOf = (c.src i).causeOf := fun i => by
    rw [Chip.detectAnew, Chip.src_of_srcs (Chip.wr_srcs ..), Chip.src_setSrc]
    split
    · next hi => rw [hi]; rfl
    · rfl
  simp only [Src.causeOf, Prod.mk.injEq] at hsame
  have hrd : ∀ g : Fld, (FSY_SRC_STAT_DET_FORMAT s).apart g = true → (c.detectAnew s).rd g = c.rd g := fun g hg => Chip.rd_wr_keeps _ _ hg
  have hbase : c.CauseBase (c.detectAnew s) := by
    refine ⟨fun g hg => hrd g (Fld.apart_of_off fun he => ?_), fun i => (hsame i).2.2.1, fun i => (hsame i).2.2.2.1, fun i => (hsame i).2.2.2.2⟩
    obtain ⟨j, hj, ho⟩ := hg.2.2.1 (by rw [← he]; exact Fld.stat_page hs)
    rw [← he] at ho
    simp only [FSY_SRC_STAT_DET_FORMAT, FSY_SRC_STAT, Reg.fld, FSY_SRC_CTL] at ho
    omega
  refine ⟨hbase, fun i hi hne => hbase.ownCause hi (fun _ => hrd _ ?_) (fun _ => congrArg (· != 0) (hrd _ ?_)) (fun _ => (hsame i).1) (hsame i).2.1⟩ <;>
    exact Fld.apart_of_off (by simp only [FSY_SRC_STAT_DET_FORMAT, FSY_SRC_STAT_IN_WINDOW, FSY_SRC_STAT, Reg.fld]; omega)

theorem Chip.sourceInvalid_format (hs : s < 332) (hk : srcKind s ≤ 1) (hv : c.srcValid (c.leadOf s) = true) (hc : c.srcCause (c.leadOf s) = 0) :
    (c.sourceInvalid s).srcValid (c.leadOf s) = false ∧ (c.sourceInvalid s).rd (FSY_SRC_STAT_CAUSE (c.leadOf s)) = 3
      ∧ (c.sourceInvalid s).rd (FSY_SRC_STAT_DET_FORMAT (c.leadOf s)) = 0 := by
  have hlead := c.leadOf_leadOf s
  have hkl : srcKind (c.leadOf s) ≤ 1 := by rwa [Chip.srcKind_leadOf]
  have hl := @Chip.leadOf_lt c s hs
  have hinv : c.sourceInvalid s = (c.detectAnew (c.leadOf s)).judgeSrc (c.leadOf s) := by
    rw [Chip.sourceInvalid_stages, Chip.judgeSrc_sound hl hlead hc, Chip.showDet_aligner hkl]
    exact if_pos (by simp [hv, hkl])
  generalize c.leadOf s = k at hlead hkl hl hv hc hinv ⊢
  obtain ⟨hbase, hother⟩ := Chip.detectAnew_base (c := c) hl
  have hlead' : (c.detectAnew k).leadOf k = k := (hbase.leadOf k).trans hlead
  have hdet : (c.detectAnew k).rd (FSY_SRC_STAT_DET_FORMAT k) = 0 := Chip.rd_wr_lt rfl (by simp [FSY_SRC_STAT_DET_FORMAT, Reg.fld])
  have hcause : (c.detectAnew k).srcCause k = 3 := by
    rw [hbase.srcCause_lead hlead hc fun i hi hne => hother i (Chip.mem_groupOf hl hi) hne, Chip.ownCause_aligner _ _ hkl, hbase.signalCause hkl,
      (Chip.aligner_sound hkl (Chip.ownCause_of_sound hc)).1, hdet]
    rfl
  have hvalid : (c.detectAnew k).srcValid k = true :=
    (Chip.on_wr_keeps _ _ (by simp [Fld.apart, FSY_SRC_STAT_DET_FORMAT, FSY_SRC_STAT_VALID, Reg.fld])).trans hv
  obtain ⟨h1, h2, -⟩ := Chip.judgeSrc_lost hl hlead' hvalid (by rw [hcause]; decide)
  rw [hinv]
  exact ⟨h1, h2.trans hcause, (Chip.rd_judgeSrc hl (Fld.outlastsLoss_stat hl (by decide)) (.inl hkl)).trans hdet⟩

/-! ### A source that becomes valid -/

/-- The sources of an aligner are valid. -/
def Chip.groupValid (c : Chip) (s : Nat) : Chip := c.each (c.groupOf s) fun c i => (c.set (FSY_SRC_STAT_VALID i)).wr (FSY_SRC_STAT_CAUSE i) 0

theorem Chip.groupValid_shows (hs : s < 332) (hl : c.leadOf s = s) :
    (c.groupValid s).on (FSY_SRC_STAT_VALID s) = true ∧ (c.groupValid s).rd (FSY_SRC_STAT_CAUSE s) = 0 := by
  refine Chip.each_once (fun _ => True) (fun d => d.on (FSY_SRC_STAT_VALID s) = true ∧ d.rd (FSY_SRC_STAT_CAUSE s) = 0)
    (c.groupOf_nodup s) (Chip.lead_mem_groupOf hl) (fun _ _ _ _ _ => trivial) ?_ ?_ c trivial
  · intro d _
    refine ⟨?_, Chip.rd_wr_lt rfl (by simp [FSY_SRC_STAT_CAUSE, Reg.fld])⟩
    rw [Chip.on_wr_keeps _ _ (by simp [Fld.apart, FSY_SRC_STAT_CAUSE, FSY_SRC_STAT_VALID, Reg.fld])]
    exact Chip.on_set_same _ rfl (by simp [FSY_SRC_STAT_VALID, Reg.fld])
  · intro d i hi hne ⟨hv, hc⟩
    have hoff : (FSY_SRC_STAT i).off ≠ (FSY_SRC_STAT s).off := by simp only [FSY_SRC_STAT]; omega
    refine ⟨?_, ?_⟩
    · rw [Chip.on_wr_keeps _ _ (Fld.apart_of_off hoff), Chip.on_set_keeps _ (Fld.apart_of_off hoff), hv]
    · rw [Chip.rd_wr_keeps _ _ (Fld.apart_of_off hoff), Chip.rd_set_keeps _ (Fld.apart_of_off hoff), hc]

/-- What a source that becomes valid does but for its validity: its frames are counted anew, and its format, its event and its flow follow. -/
def Chip.gainOut (c : Chip) (s : Nat) : Chip :=
  let c := c.setSrc s { c.src s with whole := 0, good := 0, lostAt := c.now, dram := false, cut := false }
  let c := c.when (srcKind s > 1) fun c => (c.set (FSY_SRC_STAT_IN_WINDOW s)).showDet s
  let c := c.post 0x05 0x0004 s (c.detFmt s)
  c.when (srcKind s == 2) fun c => c.flowReceiving (s - 240)

theorem Chip.gainSrc_stages (hv : c.srcValid (c.leadOf s) = false) (hc : c.srcCause (c.leadOf s) = 0)
    (hg : srcKind s ≤ 2 → 2 ≤ (c.src (c.leadOf s)).good) : c.gainSrc s = (c.groupValid (c.leadOf s)).gainOut (c.leadOf s) := by
  have hk := c.srcKind_leadOf s
  unfold Chip.gainSrc
  refine if_neg ?_
  simp only [hv, hc, Bool.false_or, Bool.or_eq_true, Bool.and_eq_true, decide_eq_true_eq, bne_self_eq_false, Bool.false_eq_true, false_or, hk]
  intro ⟨h1, h2⟩
  have := hg h1
  omega

theorem Chip.rd_gainOut (hs : s < 332) {lo w : Nat} (h : lo + w ≤ 2 ∨ 8 ≤ lo ∧ lo + w ≤ 32) :
    (c.gainOut s).rd ((FSY_SRC_STAT s).fld lo w) = c.rd ((FSY_SRC_STAT s).fld lo w) := by
  have hpage := Fld.stat_page (lo := lo) (w := w) hs
  have hflow : ∀ d : Chip, (d.flowReceiving (s - 240)).rd ((FSY_SRC_STAT s).fld lo w) = d.rd ((FSY_SRC_STAT s).fld lo w) := fun d => by
    unfold Chip.flowReceiving
    rw [Chip.rd_post _ _ _ _ _ _ (by omega)]
    exact Chip.rd_wr_keeps _ _ (Fld.apart_of_off (by simp only [NET_RXF_STAT_STATE, NET_RXF_STAT, FSY_SRC_STAT, Reg.fld]; omega))
  have hshow : ∀ d : Chip, ((d.set (FSY_SRC_STAT_IN_WINDOW s)).showDet s).rd ((FSY_SRC_STAT s).fld lo w) = d.rd ((FSY_SRC_STAT s).fld lo w) := fun d => by
    rw [Chip.rd_showDet (.inr (by grind [Fld.apart, FSY_SRC_STAT, FSY_SRC_STAT_DET_FORMAT, Reg.fld]))]
    exact Chip.rd_set_keeps _ (by grind [Fld.apart, FSY_SRC_STAT, FSY_SRC_STAT_IN_WINDOW, Reg.fld])
  unfold Chip.gainOut
  simp only [Chip.rd_when, hflow, hshow, Chip.rd_post _ _ _ _ _ _ (show ((FSY_SRC_STAT s).fld lo w).off / 65536 ≠ 1 by omega), ite_self, Chip.setSrc_rd]

theorem Chip.gainSrc_shows (hs : s < 332) (hv : c.srcValid (c.leadOf s) = false) (hc : c.srcCause (c.leadOf s) = 0)
    (hg : srcKind s ≤ 2 → 2 ≤ (c.src (c.leadOf s)).good) :
    (c.gainSrc s).srcValid (c.leadOf s) = true ∧ (c.gainSrc s).rd (FSY_SRC_STAT_CAUSE (c.leadOf s)) = 0 := by
  have hl := @Chip.leadOf_lt c s hs
  rw [Chip.gainSrc_stages hv hc hg]
  obtain ⟨h1, h2⟩ := Chip.groupValid_shows hl (c.leadOf_leadOf s)
  exact ⟨(congrArg (· != 0) (Chip.rd_gainOut hl (.inl (by decide)))).trans h1, (Chip.rd_gainOut hl (.inr (by decide))).trans h2⟩

end
end Sys2Proof.Machine
end

section
/-! SUPPORT. A line in error, and a frame that arrives at an aligner. -/

namespace Sys2Proof.Machine

section
variable {c d : Chip} {s : Nat}

/-! ### A line in error -/

def Src.badLine (x : Src) (run : Bool) : Src :=
  { x with bad := if run then min 8 (x.bad + 1) else 1, broke := x.broke || (!run && 8 ≤ x.bad), soiled := true, dirty := true, bads := x.bads + 1 }

/-- The line is counted and continues or starts a run. -/
def Chip.lineCounted (c : Chip) (s : Nat) (run : Bool) : Chip :=
  ((c.inc (FSY_SRC_BADLINES_COUNT s)).set (FSY_SRC_STAT_BADLINE_SEEN s)).setSrc s ((c.src s).badLine run)

theorem Chip.badLine_stages (c : Chip) (s : Nat) (run : Bool) : c.badLine s run = (c.lineCounted (c.leadOf s) run).judgeSrc (c.leadOf s) := rfl

theorem Fld.offCause_lines {i lo w : Nat} (hi : i < 332) : ((FSY_SRC_BADLINES i).fld lo w).offCause := by
  refine Fld.offCause_of_off ?_ ?_ fun j hj => ⟨Fld.apart_of_off ?_, Fld.apart_of_off ?_⟩ <;>
    simp only [FSY_SRC_BADLINES, FSY_SRC_STAT_DET_FORMAT, FSY_SRC_STAT_IN_WINDOW, FSY_SRC_STAT, Reg.fld] <;> omega

/-- Only the lines of one source differ between two chips, of all that a cause is read from. -/
structure Chip.LinesOf (c d : Chip) (s : Nat) : Prop where
  base : c.CauseBase d
  det : ∀ i < 332, d.rd (FSY_SRC_STAT_DET_FORMAT i) = c.rd (FSY_SRC_STAT_DET_FORMAT i)
  win : ∀ i < 332, d.on (FSY_SRC_STAT_IN_WINDOW i) = c.on (FSY_SRC_STAT_IN_WINDOW i)
  other : ∀ i, i ≠ s → (d.src i).bad = (c.src i).bad ∧ (d.src i).dram = (c.src i).dram

theorem Chip.LinesOf.srcCause (h : c.LinesOf d s) (hs : s < 332) (hl : c.leadOf s = s) (h0 : c.srcCause s = 0) : d.srcCause s = d.ownCause s :=
  h.base.srcCause_lead hl h0 fun i hi hne => by
    have hi := Chip.mem_groupOf hs hi
    exact h.base.ownCause hi (fun _ => h.det i hi) (fun _ => h.win i hi) (fun _ => (h.other i hne).1) (h.other i hne).2

/-- A change of the lines of one source after a change that leaves every cause. -/
theorem Chip.CauseAlike.lines (h : c.CauseAlike d) {x : Src} (hx : x.skew = (d.src s).skew ∧ x.order = (d.src s).order ∧ x.mapped = (d.src s).mapped) :
    c.LinesOf (d.setSrc s x) s := by
  have hsrc : ∀ i, (d.setSrc s x).src i = if i = s then x else d.src i := fun i => by rw [Chip.src_setSrc]
  refine ⟨h.base.trans ⟨fun f _ => rfl, fun i => ?_, fun i => ?_, fun i => ?_⟩, h.det, h.win, fun i hne => ?_⟩
  · rw [hsrc]; split
    · next hi => rw [hi, hx.1]
    · rfl
  · rw [hsrc]; split
    · next hi => rw [hi, hx.2.1]
    · rfl
  · rw [hsrc]; split
    · next hi => rw [hi, hx.2.2]
    · rfl
  · rw [hsrc, if_neg hne]
    exact ⟨h.bad i, h.dram i⟩

theorem Chip.lineCounted_lines (hs : s < 332) (run : Bool) : c.LinesOf (c.lineCounted s run) s := by
  have halike : c.CauseAlike ((c.inc (FSY_SRC_BADLINES_COUNT s)).set (FSY_SRC_STAT_BADLINE_SEEN s)) :=
    ((Chip.CauseAlike.refl c).wr (Fld.offCause_lines hs) _).wr (Fld.offCause_stat hs (.inr (by decide))) _
  have hsrc : ((c.inc (FSY_SRC_BADLINES_COUNT s)).set (FSY_SRC_STAT_BADLINE_SEEN s)).src s = c.src s :=
    Chip.src_of_srcs ((Chip.wr_srcs ..).trans (Chip.wr_srcs ..)) s
  exact halike.lines (by rw [hsrc]; exact ⟨rfl, rfl, rfl⟩)

theorem Chip.lineCounted_shows (hs : s < 332) (run : Bool) : (c.lineCounted s run).on (FSY_SRC_STAT_BADLINE_SEEN s) = true
    ∧ (c.lineCounted s run).rd (FSY_SRC_BADLINES_COUNT s) = min (2 ^ (FSY_SRC_BADLINES_COUNT s).w - 1) (c.rd (FSY_SRC_BADLINES_COUNT s) + 1)
    ∧ (c.lineCounted s run).on (FSY_SRC_STAT_PROMOTED s) = c.on (FSY_SRC_STAT_PROMOTED s)
    ∧ ((c.lineCounted s run).src s).bad = if run then min 8 ((c.src s).bad + 1) else 1 := by
  have hoff : ∀ lo w, (FSY_SRC_BADLINES_COUNT s).off ≠ ((FSY_SRC_STAT s).fld lo w).off := fun lo w => by
    simp only [FSY_SRC_BADLINES_COUNT, FSY_SRC_BADLINES, FSY_SRC_STAT, Reg.fld]; omega
  unfold Chip.lineCounted
  rw [Chip.setSrc_on, Chip.setSrc_rd, Chip.setSrc_on]
  refine ⟨Chip.on_set_same _ rfl (by simp [FSY_SRC_STAT_BADLINE_SEEN, Reg.fld]), ?_, ?_, ?_⟩
  · rw [Chip.rd_set_keeps (f := FSY_SRC_STAT_BADLINE_SEEN s) _ (Fld.apart_of_off (hoff _ _).symm), Chip.rd_inc_same _ rfl]
  · rw [Chip.on_set_keeps _ (by simp [Fld.apart, FSY_SRC_STAT_PROMOTED, FSY_SRC_STAT_BADLINE_SEEN, Reg.fld]),
      Chip.on_inc_keeps (g := FSY_SRC_STAT_PROMOTED s) _ (Fld.apart_of_off (hoff _ _))]
  · rw [Chip.src_setSrc, if_pos rfl]
    rfl

theorem Chip.badLine_shows (hs : s < 332) (hk : srcKind s ≤ 2) (run : Bool) :
    (c.badLine s run).on (FSY_SRC_STAT_BADLINE_SEEN (c.leadOf s)) = true
      ∧ ((c.badLine s run).src (c.leadOf s)).bad = (if run then min 8 ((c.src (c.leadOf s)).bad + 1) else 1)
      ∧ (c.srcCause (c.leadOf s) = 0 ∨ c.on (FSY_SRC_STAT_PROMOTED (c.leadOf s)) = false →
          (c.badLine s run).rd (FSY_SRC_BADLINES_COUNT (c.leadOf s))
            = min (2 ^ (FSY_SRC_BADLINES_COUNT (c.leadOf s)).w - 1) (c.rd (FSY_SRC_BADLINES_COUNT (c.leadOf s)) + 1)) := by
  have hlead := c.leadOf_leadOf s
  have hl := @Chip.leadOf_lt c s hs
  have hkl : srcKind (c.leadOf s) ≤ 2 := by rwa [Chip.srcKind_leadOf]
  rw [Chip.badLine_stages]
  generalize c.leadOf s = k at hlead hl hkl ⊢
  obtain ⟨hseen, hcount, hprom, hbad⟩ := Chip.lineCounted_shows (c := c) hl run
  have hlines := Chip.lineCounted_lines (c := c) hl run
  have hlead' := (hlines.base.leadOf k).trans hlead
  have harrival := Chip.src_judgeSrc (c := c.lineCounted k run) hl k
  simp only [Src.arrival, Prod.mk.injEq] at harrival
  obtain ⟨-, -, -, hbad', -⟩ := harrival
  refine ⟨(Chip.judgeSrc_lines hl hlead').1 hseen, hbad'.trans hbad, fun h => ((Chip.judgeSrc_lines hl hlead').2 ?_).trans hcount⟩
  rcases h with h | h
  · rcases hlines.base.ownCause_lines_or hkl (Chip.ownCause_of_sound h) (hlines.det k hl) (hlines.win k hl) with h6 | h6
    · exact .inr ((hlines.srcCause hl hlead h).trans h6)
    · refine .inl ?_
      rw [Chip.lossCut, (hlines.srcCause hl hlead h).trans h6]
      exact Bool.and_false _
  · refine .inl ?_
    rw [Chip.lossCut, hprom, h]
    rfl

/-! ### A frame that arrives -/

theorem Chip.demote_shows (hp : c.on (FSY_SRC_STAT_PROMOTED s) = true) (hc : 64 ≤ (c.src s).calm) (hs : s < 332) :
    (c.demote s).on (FSY_SRC_STAT_PROMOTED s) = false ∧ ((c.demote s).src s).calm = 0 := by
  unfold Chip.demote
  rw [if_pos (by simp [hp, hc])]
  refine ⟨?_, ?_⟩
  · refine (congrArg (· != 0) (Chip.rd_post _ _ _ _ _ _ (by rw [show (FSY_SRC_STAT_PROMOTED s).off / 65536 = 12 from Fld.stat_page hs]; decide))).trans ?_
    exact Chip.on_clr_same _ rfl
  · rw [Chip.src_of_srcs (Chip.post_srcs ..), Chip.src_setSrc, if_pos rfl]

/-- Where a source is placed hangs on its plane alone. -/
theorem Chip.offsetNow_congr (hplane : d.srcPlane s = c.srcPlane s) (hpl : d.planes = c.planes) (hnow : d.now = c.now)
    (hrd : ∀ f : Fld, f.off / 65536 = 0 ∨ f.off / 65536 = 3 ∨ f.off / 65536 = 8 → d.rd f = c.rd f) (f : Nat) : d.offsetNow s f = c.offsetNow s f := by
  have hp := c.srcPlane_lt s
  have hfmt : d.planeFmt (c.srcPlane s) = c.planeFmt (c.srcPlane s) := hrd _ (by simp only [REF_PLANE_CFG_FORMAT, REF_PLANE_CFG, Reg.fld]; omega)
  have hepoch : d.rd (XPT_EPOCH_EPOCH (c.srcPlane s)) = c.rd (XPT_EPOCH_EPOCH (c.srcPlane s)) :=
    hrd _ (by simp only [XPT_EPOCH_EPOCH, XPT_EPOCH, Reg.fld]; omega)
  have hrole : d.role = c.role := hrd _ (.inl rfl)
  simp only [Chip.offsetNow, Chip.planePeriod, Chip.epochNow, Chip.presentsAfter, Chip.plane, hplane, hpl, hnow, hfmt, hepoch, hrole]
  rfl

/-- The frame's structure is what the aligner detects from: its format, and the level of the port. -/
def Chip.laneStart (c : Chip) (s : Nat) (f : FrameIn) : Chip :=
  c.when (s < 48 && c.rd (SDI_RX_STAT_STATE s) == 2 && rateClass (c.rd (SDI_RX_STAT_RATE s)) == 3) fun c => c.wrB (SDI_RX_STAT_LEVEL_B s) f.levelB

theorem Chip.frameArrives_stages (f : FrameIn) (hk : srcKind s ≤ 1) : c.frameArrives s f =
    if ((((c.laneStart s f).laneFrame s f).groupOf (((c.laneStart s f).laneFrame s f).leadOf s)).all
        fun i => (((c.laneStart s f).laneFrame s f).src i).here) = true
      then ((c.laneStart s f).laneFrame s f).groupFrame (((c.laneStart s f).laneFrame s f).leadOf s) f.lastBad
      else ((c.laneStart s f).laneFrame s f).judgeSrc s := by
  have hneg : ¬ (srcKind s > 1) := by omega
  exact if_neg hneg

/-- A lane's frame has arrived: what the lane finds of itself. -/
def Src.found (x : Src) (ended : Bool) (off : Int) (f : FrameIn) : Src :=
  { x with here := true, ended := ended, off := off, link := f.link, levelB := f.levelB }

/-- What the detection of a format leaves of a source. -/
def Src.counted (x : Src) : Nat × Bool × Nat := (x.next, x.here, x.link)

def Src.restruct (x : Src) (k n : Nat) : Src := { x with struct := k, same := n }

/-- The detection of a format: the structure found, the format it gives, and the flags of a payload ID that disagrees. -/
theorem Chip.detect_stages (c : Chip) (s : Nat) (f : FrameIn) : ∃ k n v b, c.detect s f =
    if f.complete then ((c.setSrc s ((c.src s).restruct k n)).wr (FSY_SRC_STAT_DET_FORMAT s) v).when b
      (fun c => (c.set (FSY_SRC_STAT_PID_DISAGREE (c.leadOf s))).set FSY_STATUS_PID_DISAGREE)
    else c.setSrc s ((c.src s).restruct (c.src s).struct 0) := by
  unfold Chip.detect
  cases f.complete
  · exact ⟨0, 0, 0, false, rfl⟩
  · exact ⟨_, _, _, _, rfl⟩

theorem Chip.setSrc_counted {x : Src} (hx : x.counted = (c.src s).counted) (i : Nat) : ((c.setSrc s x).src i).counted = (c.src i).counted := by
  rw [Chip.src_setSrc]
  split
  · next hi => rw [hi, hx]
  · rfl

theorem Chip.srcs_detectFlags (hs : s < 332) (b : Bool) (v : Nat) :
    ((c.wr (FSY_SRC_STAT_DET_FORMAT s) v).when b fun c => (c.set (FSY_SRC_STAT_PID_DISAGREE (c.leadOf s))).set FSY_STATUS_PID_DISAGREE).srcs
      = c.srcs := by
  have hstat : ∀ i < 332, ∀ lo w, ((FSY_SRC_STAT i).fld lo w).off / 65536 ∈ [12] := fun i hi lo w => by
    rw [Fld.stat_page hi]; decide
  exact (.when' (.wr .refl (hstat s hs _ _)) fun d => .set (.set .refl (hstat _ (Chip.leadOf_lt hs) _ _)) (by decide) :
    Chip.Within [12] [] c _).part .srcs (by decide)

theorem Chip.detect_src (hs : s < 332) (f : FrameIn) (i : Nat) : ((c.detect s f).src i).counted = (c.src i).counted := by
  obtain ⟨k, n, v, b, h⟩ := c.detect_stages s f
  have hre : ∀ k n, ((c.setSrc s ((c.src s).restruct k n)).src i).counted = (c.src i).counted := fun k n =>
    Chip.setSrc_counted (x := (c.src s).restruct k n) rfl i
  rw [h]
  split
  · exact (congrArg Src.counted (Chip.src_of_srcs (Chip.srcs_detectFlags hs b v) i)).trans (hre k n)
  · exact hre _ _

/-- Frames of sources arrive in the aligners' registers alone, and only the lane's own source changes. -/
theorem Chip.laneFrame_stages (c : Chip) (s : Nat) (f : FrameIn) : ∃ e, c.laneFrame s f =
    ((c.detect s f).setSrc s (((c.detect s f).src s).found e ((c.detect s f).offsetNow s (if c.measured s f != 0 then c.measured s f
      else (c.detect s f).detFmt s)) f)).measure s ((c.detect s f).offsetNow s (if c.measured s f != 0 then c.measured s f
      else (c.detect s f).detFmt s)) := by
  refine ⟨f.complete && c.measured s f != 0 && (c.detect s f).fmtMatches s (c.measured s f), ?_⟩
  have hoff : ∀ (d : Chip) (x : Src), (d.setSrc s x).measure s ((d.setSrc s x).src s).off = (d.setSrc s x).measure s x.off := fun d x => by
    rw [Chip.src_setSrc, if_pos rfl]
  exact hoff _ _

theorem Chip.srcs_measure (o : Int) : (c.measure s o).srcs = c.srcs := by
  unfold Chip.measure
  rw [Chip.wrB_def, Chip.wrI_def, Chip.wr_srcs, Chip.wr_srcs]

theorem Chip.laneFrame_src (hs : s < 332) (f : FrameIn) (i : Nat) : ((c.laneFrame s f).src i).next = (c.src i).next
    ∧ ((c.laneFrame s f).src i).here = (i == s || (c.src i).here) ∧ (i = s → ((c.laneFrame s f).src i).link = f.link) := by
  obtain ⟨e, h⟩ := c.laneFrame_stages s f
  have hd := c.detect_src hs f i
  simp only [Src.counted, Prod.mk.injEq] at hd
  obtain ⟨hn, hh, hlink⟩ := hd
  rw [h, Chip.src_of_srcs (Chip.srcs_measure _), Chip.src_setSrc]
  by_cases hi : i = s
  · subst hi
    rw [if_pos rfl]
    exact ⟨hn, by simp [Src.found], fun _ => rfl⟩
  · rw [if_neg hi]
    exact ⟨hn, by rw [hh]; simp [hi], fun h => absurd h hi⟩

end
end Sys2Proof.Machine
end

section
/-! SUPPORT. A whole frame of an aligner, and the events of source alignment. -/

namespace Sys2Proof.Machine

section
variable {c d : Chip} {s : Nat}

/-! ### A whole frame -/

/-- The sources of an aligner wait for the frame that comes next. -/
def Chip.groupWaits (c : Chip) (g : List Nat) : Chip := c.each g fun c i => c.setSrc i { c.src i with here := false }

/-- What follows a frame whose offset is `hi`: the judgement, and the frames in a row that lie calm. -/
def Chip.groupJudged (c : Chip) (s : Nat) (hi : Int) : Chip :=
  let early := c.srcValid s && c.srcCause s == 5 && hi < winLo s
  let c := c.when (!early) (·.judgeSrc s)
  let calm := calmLo s ≤ hi && hi ≤ calmHi s
  c.when (c.srcValid s && c.on (FSY_SRC_STAT_PROMOTED s)) fun c =>
    c.setSrc s { c.src s with calm := if calm then (c.src s).calm + 1 else 0 }

/-- The offset of the latest lane of an aligner (R215). -/
def Chip.latest (c : Chip) (s : Nat) : Int := ((c.groupOf s).map fun i => (c.src i).off).foldl max (c.src s).off

theorem Chip.groupFrame_stages (c : Chip) (s : Nat) (lastBad : Bool) : ∃ x : Src, x.next = (c.src s).next + 1 ∧ x.arrAt = some c.now
    ∧ c.groupFrame s lastBad = ((((c.setSrc s x).groupWaits (c.groupOf s)).measure s (c.latest s)).groupJudged s (c.latest s)) := by
  refine ⟨_, ?_, ?_, rfl⟩ <;> rfl

/-- What the wait for the next frame leaves of a source. -/
def Src.begun (x : Src) : Nat × Option Nat := (x.next, x.arrAt)

theorem Chip.groupWaits_begun (g : List Nat) (i : Nat) : ((c.groupWaits g).src i).begun = (c.src i).begun := by
  refine Chip.each_keeps (fun d => (d.src i).begun) _ _ (fun d j _ => ?_) c
  rw [Chip.src_setSrc]
  split
  · next hi => rw [hi]; rfl
  · rfl

theorem Chip.groupWaits_here (g : List Nat) {i : Nat} (hi : i ∈ g) : ((c.groupWaits g).src i).here = false := by
  refine Chip.each_establishes (fun d => (d.src i).here = false) g _ i hi (fun d => ?_) (fun d j _ h => ?_) c
  · rw [Chip.src_setSrc, if_pos rfl]
  · rw [Chip.src_setSrc]
    split
    · rfl
    · exact h

/-- What the judgement after a frame leaves: the arrivals, and whatever a loss leaves of an aligner's registers. -/
theorem Chip.groupJudged_keeps (hs : s < 332) (hi : Int) :
    (∀ i, ((c.groupJudged s hi).src i).arrival = (c.src i).arrival)
      ∧ ∀ f : Fld, f.outlastsLoss → srcKind s ≤ 1 → (c.groupJudged s hi).rd f = c.rd f := by
  have hcalm : ∀ (b : Bool) (d : Chip) (n : Nat), (∀ i, ((d.when b fun d => d.setSrc s { d.src s with calm := n }).src i).arrival = (d.src i).arrival)
      ∧ ∀ f, (d.when b fun d => d.setSrc s { d.src s with calm := n }).rd f = d.rd f := fun b d n => by
    rcases Bool.eq_false_or_eq_true b with h | h <;> rw [h]
    · refine ⟨fun i => ?_, fun f => Chip.setSrc_rd ..⟩
      rw [Chip.when_true, Chip.src_setSrc]
      split
      · next hi => rw [hi]; rfl
      · rfl
    · exact ⟨fun _ => rfl, fun _ => rfl⟩
  have hjudge : ∀ b : Bool, (∀ i, ((c.when b (·.judgeSrc s)).src i).arrival = (c.src i).arrival)
      ∧ ∀ f : Fld, f.outlastsLoss → srcKind s ≤ 1 → (c.when b (·.judgeSrc s)).rd f = c.rd f := fun b => by
    rcases Bool.eq_false_or_eq_true b with h | h <;> rw [h]
    · exact ⟨fun i => Chip.src_judgeSrc hs i, fun f hf hk => Chip.rd_judgeSrc hs hf (.inl hk)⟩
    · exact ⟨fun _ => rfl, fun _ _ _ => rfl⟩
  exact ⟨fun i => ((hcalm _ _ _).1 i).trans ((hjudge _).1 i), fun f hf hk => ((hcalm _ _ _).2 f).trans ((hjudge _).2 f hf hk)⟩

theorem Chip.groupFrame_src (hs : s < 332) (lastBad : Bool) :
    ((c.groupFrame s lastBad).src s).next = (c.src s).next + 1 ∧ ((c.groupFrame s lastBad).src s).arrAt = some c.now
      ∧ ∀ i ∈ c.groupOf s, ((c.groupFrame s lastBad).src i).here = false := by
  obtain ⟨x, hnext, harr, h⟩ := c.groupFrame_stages s lastBad
  have harrival := fun i => (Chip.groupJudged_keeps (c := ((c.setSrc s x).groupWaits (c.groupOf s)).measure s (c.latest s)) hs (c.latest s)).1 i
  rw [← h] at harrival
  simp only [Chip.src_of_srcs (Chip.srcs_measure _), Src.arrival, Prod.mk.injEq] at harrival
  have hbegun := Chip.groupWaits_begun (c := c.setSrc s x) (c.groupOf s) s
  rw [Chip.src_setSrc, if_pos rfl] at hbegun
  simp only [Src.begun, Prod.mk.injEq] at hbegun
  obtain ⟨hn, ha, -⟩ := harrival s
  exact ⟨hn.trans (hbegun.1.trans hnext), ha.trans (hbegun.2.trans harr), fun i hi => (harrival i).2.2.1.trans (Chip.groupWaits_here _ hi)⟩

theorem Chip.measure_shows (hs : s < 332) (o : Int) : (c.measure s o).rdI (FSY_SRC_OFFSET_OFFSET s) = max (-(2 ^ 19)) (min (2 ^ 19 - 1) o)
    ∧ (c.measure s o).on (FSY_SRC_STAT_IN_WINDOW s) = (decide (winLo s ≤ o) && decide (o ≤ winHi s)) := by
  have hoff : (FSY_SRC_STAT_IN_WINDOW s).off ≠ (FSY_SRC_OFFSET_OFFSET s).off := by
    simp only [FSY_SRC_STAT_IN_WINDOW, FSY_SRC_STAT, FSY_SRC_OFFSET_OFFSET, FSY_SRC_OFFSET, Reg.fld]; omega
  unfold Chip.measure
  refine ⟨?_, ?_⟩
  · rw [Chip.rdI_of_rd (Chip.rd_wrB_keeps _ _ (Fld.apart_of_off hoff)), Chip.rdI_wrI_same _ _ _ rfl (by simp [FSY_SRC_OFFSET_OFFSET, Reg.fld])]
    rfl
  · rw [Chip.on_wrB_same _ _ rfl (by simp [FSY_SRC_STAT_IN_WINDOW, Reg.fld])]

theorem Fld.outlastsLoss_offset {i lo w : Nat} (hi : i < 332) : ((FSY_SRC_OFFSET i).fld lo w).outlastsLoss := by
  refine ⟨?_, ?_, fun j hj => ⟨?_, Fld.apart_of_off ?_, Fld.apart_of_off ?_, Fld.apart_of_off ?_, Fld.apart_of_off ?_, Fld.apart_of_off ?_, Fld.apart_of_off ?_⟩⟩ <;>
    simp only [FSY_STATUS, FSY_SRC_BADLINES, FSY_SRC_OFFSET, FSY_SRC_STAT_VALID, FSY_SRC_STAT_PROMOTED, FSY_SRC_STAT_CAUSE,
      FSY_SRC_STAT_INVALID_SEEN, FSY_SRC_STAT_MISMATCH_SEEN, FSY_SRC_STAT_BADLINE_SEEN, FSY_SRC_STAT, Reg.fld] <;> omega

theorem Chip.groupFrame_shows (hs : s < 332) (hk : srcKind s ≤ 1) (lastBad : Bool) :
    (c.groupFrame s lastBad).rdI (FSY_SRC_OFFSET_OFFSET s) = max (-(2 ^ 19)) (min (2 ^ 19 - 1) (c.latest s))
    ∧ (c.groupFrame s lastBad).on (FSY_SRC_STAT_IN_WINDOW s) = (decide (winLo s ≤ c.latest s) && decide (c.latest s ≤ winHi s)) := by
  obtain ⟨x, -, -, h⟩ := c.groupFrame_stages s lastBad
  obtain ⟨ho, hw⟩ := Chip.measure_shows (c := (c.setSrc s x).groupWaits (c.groupOf s)) hs (c.latest s)
  have hrd := fun f hf => (Chip.groupJudged_keeps (c := ((c.setSrc s x).groupWaits (c.groupOf s)).measure s (c.latest s)) hs (c.latest s)).2 f hf hk
  rw [h]
  exact ⟨(Chip.rdI_of_rd (hrd _ (Fld.outlastsLoss_offset hs))).trans ho, (congrArg (· != 0) (hrd _ (Fld.outlastsLoss_stat hs (by decide)))).trans hw⟩

/-! ### The lane whose frame it is -/

theorem Chip.rd_laneStart (f : FrameIn) {g : Fld} (hg : s < 48 → (SDI_RX_STAT_LEVEL_B s).apart g = true) : (c.laneStart s f).rd g = c.rd g := by
  unfold Chip.laneStart
  by_cases hs : s < 48
  · rw [Chip.rd_when, Chip.rd_wrB_keeps _ _ (hg hs), ite_self]
  · simp [hs]

theorem Chip.bondedRx_of_rd (h : ∀ k < 48, d.rd (SDI_RX_CTL_BOND k) = c.rd (SDI_RX_CTL_BOND k)) (i : Nat) : d.bondedRx i = c.bondedRx i := by
  unfold Chip.bondedRx
  by_cases hi : i < 48
  · rw [Chip.on, Chip.on, h (i / 4 * 4) (by omega)]
  · simp [hi]

theorem Chip.srcs_laneStart (f : FrameIn) : (c.laneStart s f).srcs = c.srcs := by
  unfold Chip.laneStart
  rw [Chip.when_srcs, Chip.wrB_def, Chip.wr_srcs, ite_self]

theorem Chip.laneStart_within (hs : s < 48) (f : FrameIn) : Chip.Within [32] [] c (c.laneStart s f) := by
  refine .when' .refl fun d => .wrB .refl ?_
  simp only [SDI_RX_STAT_LEVEL_B, SDI_RX_STAT, Reg.fld, List.mem_singleton]
  omega

/-- The lane whose frame arrives: the level of its port, and what it finds. -/
def Chip.laneArrives (c : Chip) (s : Nat) (f : FrameIn) : Chip := (c.laneStart s f).laneFrame s f

theorem Chip.laneStart_off (hs : ¬ s < 48) (f : FrameIn) : c.laneStart s f = c := by
  unfold Chip.laneStart
  simp [hs]

theorem Chip.laneStart_any (s : Nat) (f : FrameIn) : Chip.Within [12, 32] [.srcs] c (c.laneStart s f) := by
  by_cases h : s < 48
  · exact (Chip.laneStart_within h f).mono (by simp) (by simp)
  · rw [Chip.laneStart_off h]
    exact .refl

theorem Chip.laneArrives_within (hs : s < 332) (f : FrameIn) : Chip.Within [12, 32] [.srcs] c (c.laneArrives s f) :=
  Chip.laneFrame_within hs (Chip.laneStart_any s f) (by decide) (by decide)

theorem Chip.srcPlane_aligner (hk : srcKind s ≤ 1) : c.srcPlane s = c.rd (FSY_SRC_CTL_PLANE s) := by
  unfold Chip.srcPlane
  rcases (by omega : srcKind s = 0 ∨ srcKind s = 1) with h | h <;> rw [h] <;> rfl

/-- A detection leaves the settings of the aligners. -/
theorem Chip.rd_detect_ctl (hs : s < 332) (f : FrameIn) {i lo w : Nat} (hi : i < 332) :
    (c.detect s f).rd ((FSY_SRC_CTL i).fld lo w) = c.rd ((FSY_SRC_CTL i).fld lo w) := by
  have hoff : ∀ j < 332, (FSY_SRC_STAT_PID_DISAGREE j).apart ((FSY_SRC_CTL i).fld lo w) = true
      ∧ (FSY_SRC_STAT_DET_FORMAT j).apart ((FSY_SRC_CTL i).fld lo w) = true := fun j hj => by
    constructor <;> exact Fld.apart_of_off (by simp only [FSY_SRC_STAT_PID_DISAGREE, FSY_SRC_STAT_DET_FORMAT, FSY_SRC_STAT, FSY_SRC_CTL, Reg.fld]; omega)
  have hst : FSY_STATUS_PID_DISAGREE.apart ((FSY_SRC_CTL i).fld lo w) = true :=
    Fld.apart_of_off (by simp only [FSY_STATUS_PID_DISAGREE, FSY_STATUS, FSY_SRC_CTL, Reg.fld]; omega)
  obtain ⟨k, n, v, b, h⟩ := c.detect_stages s f
  rw [h]
  split
  · rw [Chip.rd_when, Chip.rd_set_keeps _ hst, Chip.rd_set_keeps _ (hoff _ (Chip.leadOf_lt hs)).1, ite_self, Chip.rd_wr_keeps _ _ (hoff s hs).2,
      Chip.setSrc_rd]
  · exact Chip.setSrc_rd ..

theorem Chip.bondedRx_laneArrives (hs : s < 332) (f : FrameIn) (i : Nat) : (c.laneArrives s f).bondedRx i = c.bondedRx i := by
  refine Chip.bondedRx_of_rd (fun k hk => ?_) i
  have hpage : (SDI_RX_CTL_BOND k).off / 65536 ∉ [12] := by
    simp only [SDI_RX_CTL_BOND, SDI_RX_CTL, Reg.fld, List.mem_singleton]; omega
  refine ((Chip.laneFrame_within hs .refl (by decide) (by decide) : Chip.Within [12] [.srcs] (c.laneStart s f) _).rd hpage).trans
    (Chip.rd_laneStart f fun h => Fld.apart_of_off ?_)
  simp only [SDI_RX_CTL_BOND, SDI_RX_CTL, SDI_RX_STAT_LEVEL_B, SDI_RX_STAT, Reg.fld]; omega

theorem Chip.leadOf_of_bondedRx (h : ∀ i, d.bondedRx i = c.bondedRx i) (i : Nat) : d.leadOf i = c.leadOf i ∧ d.groupOf i = c.groupOf i := by
  simp only [Chip.leadOf, Chip.groupOf, h, and_self]

theorem Chip.laneArrives_src (hs : s < 332) (f : FrameIn) (i : Nat) : ((c.laneArrives s f).src i).next = (c.src i).next
    ∧ ((c.laneArrives s f).src i).here = (i == s || (c.src i).here) ∧ (i = s → ((c.laneArrives s f).src i).link = f.link) := by
  have h := Chip.laneFrame_src (c := c.laneStart s f) hs f i
  rwa [Chip.src_of_srcs (Chip.srcs_laneStart f)] at h

theorem Chip.frameArrives_lane (hk : srcKind s ≤ 1) (hs : s < 332) (f : FrameIn) : c.frameArrives s f =
    if ((c.groupOf (c.leadOf s)).all fun i => i == s || (c.src i).here) = true then (c.laneArrives s f).groupFrame (c.leadOf s) f.lastBad
    else (c.laneArrives s f).judgeSrc s := by
  have hlead := Chip.leadOf_of_bondedRx (Chip.bondedRx_laneArrives (c := c) hs f)
  have hhere : ∀ i, ((c.laneArrives s f).src i).here = (i == s || (c.src i).here) := fun i => (Chip.laneArrives_src hs f i).2.1
  rw [Chip.frameArrives_stages f hk]
  change (if (((c.laneArrives s f).groupOf ((c.laneArrives s f).leadOf s)).all fun i => ((c.laneArrives s f).src i).here) = true
    then (c.laneArrives s f).groupFrame ((c.laneArrives s f).leadOf s) f.lastBad else (c.laneArrives s f).judgeSrc s) = _
  simp only [(hlead _).1, (hlead _).2, hhere]

theorem Chip.measured_laneStart (f g : FrameIn) : (c.laneStart s f).measured s g = c.measured s g := by
  have hrate : srcKind s = 0 → (c.laneStart s f).rd (SDI_RX_STAT_RATE s) = c.rd (SDI_RX_STAT_RATE s) := fun _ =>
    Chip.rd_laneStart f fun _ => by simp [Fld.apart, SDI_RX_STAT_LEVEL_B, SDI_RX_STAT_RATE, Reg.fld]
  have hbond : (c.laneStart s f).bondedRx s = c.bondedRx s := Chip.bondedRx_of_rd (fun k hk => Chip.rd_laneStart f fun _ => Fld.apart_of_off (by
    simp only [SDI_RX_CTL_BOND, SDI_RX_CTL, SDI_RX_STAT_LEVEL_B, SDI_RX_STAT, Reg.fld]; omega)) s
  unfold Chip.measured
  by_cases hk : srcKind s = 0
  · rw [hrate hk, hbond]
  · simp [hk, hbond]

/-- The offset of a lane alone is that of the frame it has. -/
theorem Chip.latest_laneArrives (hs : s < 332) (hk : srcKind s ≤ 1) (hb : c.bondedRx s = false) (f : FrameIn) (hm : c.measured s f ≠ 0) :
    (c.laneArrives s f).latest s = c.offsetNow s (c.measured s f) := by
  have hgroup : (c.laneArrives s f).groupOf s = [s] := by
    rw [Chip.groupOf, Chip.bondedRx_laneArrives hs f, hb]
    rfl
  have hoff : ((c.laneArrives s f).src s).off = c.offsetNow s (c.measured s f) := by
    have hwithin : Chip.Within [12, 32] [.srcs] c ((c.laneStart s f).detect s f) :=
      Chip.detect_within hs (Chip.laneStart_any s f) (by decide) (by decide)
    obtain ⟨e, h⟩ := (c.laneStart s f).laneFrame_stages s f
    rw [Chip.laneArrives, h, Chip.src_of_srcs (Chip.srcs_measure _), Chip.src_setSrc, if_pos rfl, Chip.measured_laneStart, bne_iff_ne.2 hm]
    refine Chip.offsetNow_congr ?_ ?_ ?_ (fun g hg => ?_) _
    · rw [Chip.srcPlane_aligner hk, Chip.srcPlane_aligner hk]
      refine (Chip.rd_detect_ctl hs f hs).trans (Chip.rd_laneStart f fun h => Fld.apart_of_off (by
        simp only [FSY_SRC_CTL_PLANE, FSY_SRC_CTL, SDI_RX_STAT_LEVEL_B, SDI_RX_STAT, Reg.fld]; omega))
    · exact hwithin.part .planes (by decide)
    · exact hwithin.part .now (by decide)
    · refine hwithin.rd ?_
      simp only [List.mem_cons, List.not_mem_nil, or_false]
      omega
  rw [Chip.latest, hgroup]
  simp [hoff]

/-! ### The layers that show a source -/

theorem Chip.ratioCheck_within (s : Nat) : Chip.Within [1, 96] [] c (c.ratioCheck s) := by
  refine .each .refl fun d e he => ?_
  obtain ⟨hmem, -⟩ := List.mem_filter.1 he
  obtain ⟨n, hn, hev⟩ := List.mem_flatMap.1 hmem
  obtain ⟨v, hv, rfl⟩ := List.mem_map.1 hev
  have hn := List.mem_range.1 hn
  have hv := List.mem_range.1 hv
  have hlayer : (MVC_VL_STAT n v).off / 65536 ∈ [1, 96] := by
    simp only [MVC_VL_STAT, List.mem_cons, List.not_mem_nil, or_false]; omega
  have hhead : (MVC_HEAD_STAT n).off / 65536 ∈ [1, 96] := by
    simp only [MVC_HEAD_STAT, List.mem_cons, List.not_mem_nil, or_false]; omega
  exact .wrB (.when' .refl fun e => .post (.wr (.set (.set .refl hhead) (by decide)) hlayer) (by decide)) hlayer

end

/-! ### The obligation -/

/-- Settles O36: each row is the judgement of its source after one change, and the judgement keeps what has arrived; a cause that a row brings is
read off the list of causes of an aligner. -/
theorem sourceEvents : Obligations.SourceEvents := by
  unfold Obligations.SourceEvents
  refine ⟨?_, ?_, ?_, ?_, ?_, ?_, ?_⟩
  · rintro s t x f c rfl hlive hoff hk hb hm
    have hl : (s.chipAt t).leadOf x.val = x.val := if_neg (by simp [hb])
    have hwithin := Chip.ratioCheck_within (c := (s.chipAt t).frameArrives x.val f) x.val
    have hall : (((s.chipAt t).groupOf x.val).all fun i => i == x.val || ((s.chipAt t).src i).here) = true := by
      simp [Chip.groupOf, hb]
    have hframe := Chip.frameArrives_lane hk x.isLt f (c := s.chipAt t)
    rw [hl, if_pos hall] at hframe
    have hlatest := Chip.latest_laneArrives x.isLt hk hb f hm
    obtain ⟨ho, hw⟩ := Chip.groupFrame_shows (c := (s.chipAt t).laneArrives x.val f) x.isLt hk f.lastBad
    obtain ⟨hn, ha, -⟩ := Chip.groupFrame_src (c := (s.chipAt t).laneArrives x.val f) x.isLt f.lastBad
    have hnow : ((s.chipAt t).laneArrives x.val f).now = (s.chipAt t).now := (Chip.laneArrives_within x.isLt f).part .now (by decide)
    rw [← hframe, hlatest] at ho hw
    rw [← hframe] at hn ha
    have hsrc := Chip.src_of_srcs (hwithin.part .srcs (by decide)) x.val
    refine ⟨_, State.sourceFrameArrival_row hlive hoff, ?_, ?_, ?_, ?_⟩
    · refine (Chip.rdI_of_rd (hwithin.rd ?_)).trans ho
      simp only [FSY_SRC_OFFSET_OFFSET, FSY_SRC_OFFSET, Reg.fld, List.mem_cons, List.not_mem_nil, or_false]; omega
    · refine (hwithin.on ?_).trans hw
      rw [show (FSY_SRC_STAT_IN_WINDOW x.val).off / 65536 = 12 from Fld.stat_page x.isLt]; decide
    · exact (congrArg Src.next hsrc).trans (hn.trans (congrArg (· + 1) (Chip.laneArrives_src x.isLt f x.val).1))
    · exact (congrArg Src.arrAt hsrc).trans (ha.trans (congrArg some hnow))
  · rintro s t x f c rfl hlive hoff hb
    have hx : x.val < 48 := by simp only [Chip.bondedRx, Bool.and_eq_true, decide_eq_true_eq] at hb; exact hb.1
    have hk : srcKind x.val ≤ 1 := by simp [srcKind, hx]
    have hl := @Chip.leadOf_lt (s.chipAt t) x.val x.isLt
    have hsrc := Chip.src_of_srcs ((Chip.ratioCheck_within (c := (s.chipAt t).frameArrives x.val f) x.val).part .srcs (by decide))
    have hcommit : ∀ i, ((s.commit (((s.chipAt t).frameArrives x.val f).ratioCheck x.val)).chip.src i) = ((s.chipAt t).frameArrives x.val f).src i :=
      fun i => (Chip.src_of_srcs (State.commit_srcs ..) i).trans (hsrc i)
    have hnow : ((s.chipAt t).laneArrives x.val f).now = (s.chipAt t).now := (Chip.laneArrives_within x.isLt f).part .now (by decide)
    have hlane := fun i => Chip.laneArrives_src (c := s.chipAt t) x.isLt f i
    have hgroup := (Chip.leadOf_of_bondedRx (Chip.bondedRx_laneArrives (c := s.chipAt t) x.isLt f) ((s.chipAt t).leadOf x.val)).2
    refine ⟨_, State.sourceFrameArrival_row hlive hoff, ?_⟩
    simp only [hcommit]
    rw [Chip.frameArrives_lane hk x.isLt f]
    split
    · obtain ⟨hn, ha, hh⟩ := Chip.groupFrame_src (c := (s.chipAt t).laneArrives x.val f) hl f.lastBad
      refine ⟨hn.trans (congrArg (· + 1) (hlane _).1), ha.trans (congrArg some hnow), List.all_eq_true.2 fun i hi => ?_⟩
      rw [hh i (hgroup.symm ▸ hi)]
      rfl
    · have harrival := fun i => Chip.src_judgeSrc (c := (s.chipAt t).laneArrives x.val f) x.isLt i
      simp only [Src.arrival, Prod.mk.injEq] at harrival
      obtain ⟨-, -, hhere, -, hlink, -⟩ := harrival x.val
      refine ⟨hhere.trans ?_, hlink.trans ((hlane _).2.2 rfl), (harrival _).1.trans (hlane _).1⟩
      rw [(hlane _).2.1]
      simp
  · rintro s t x c rfl hlive hp hc
    obtain ⟨h1, h2⟩ := Chip.demote_shows hp hc x.isLt
    exact ⟨_, State.event_live s t _ hlive, h1, h2⟩
  · rintro s t x c rfl hlive hv hc
    have hl := @Chip.leadOf_lt (s.chipAt t) x.val x.isLt
    have hhead : ∀ f : Fld, f.off / 65536 = 12 → (((s.chipAt t).sourceInvalid x.val).headRuns x.val).rd f = ((s.chipAt t).sourceInvalid x.val).rd f :=
      fun f hf => Chip.rd_headRuns x.isLt (by rw [hf]; decide)
    obtain ⟨h1, h2, h3, h4⟩ := Chip.sourceInvalid_cause x.isLt hv hc
    exact ⟨_, State.srcInvalid_row hlive, (congrArg (· != 0) (hhead _ (Fld.stat_page hl))).trans h1, (hhead _ (Fld.stat_page hl)).trans h2,
      (congrArg (· != 0) (hhead _ (Fld.stat_page hl))).trans h3, (congrArg (· != 0) (hhead _ (by decide))).trans h4⟩
  · rintro s t x c rfl hlive hk hv hc
    have hl := @Chip.leadOf_lt (s.chipAt t) x.val x.isLt
    have hhead : ∀ f : Fld, f.off / 65536 = 12 → (((s.chipAt t).sourceInvalid x.val).headRuns x.val).rd f = ((s.chipAt t).sourceInvalid x.val).rd f :=
      fun f hf => Chip.rd_headRuns x.isLt (by rw [hf]; decide)
    obtain ⟨h1, h2, h3⟩ := Chip.sourceInvalid_format x.isLt hk hv hc
    exact ⟨_, State.srcInvalid_row hlive, (congrArg (· != 0) (hhead _ (Fld.stat_page hl))).trans h1, (hhead _ (Fld.stat_page hl)).trans h2,
      (hhead _ (Fld.stat_page hl)).trans h3⟩
  · rintro s t x c rfl hlive hoff hv hc hg
    have hl := @Chip.leadOf_lt (s.chipAt t) x.val x.isLt
    obtain ⟨h1, h2⟩ := Chip.gainSrc_shows x.isLt hv hc hg
    have hhead : ∀ f : Fld, f.off / 65536 = 12 → (((s.chipAt t).gainSrc x.val).headRuns x.val).rd f = ((s.chipAt t).gainSrc x.val).rd f :=
      fun f hf => Chip.rd_headRuns x.isLt (by rw [hf]; decide)
    exact ⟨_, State.srcValid_row hlive hoff, (congrArg (· != 0) (hhead _ (Fld.stat_page hl))).trans h1, (hhead _ (Fld.stat_page hl)).trans h2⟩
  · rintro s t x run c rfl hlive hoff hk
    obtain ⟨h1, h2, h3⟩ := Chip.badLine_shows (c := s.chipAt t) x.isLt hk run
    exact ⟨_, State.invalidLine_row hlive hoff hk, h1, h2, h3⟩

end Sys2Proof.Machine
end

section
/-! SUPPORT. The presentation of a source stage by stage. -/

namespace Sys2Proof.Machine

/-! ### The stages -/

/-- A source lost while promoted starts its loss actions at this instant (R214). -/
def Chip.cutEnds (c : Chip) (s : Nat) : Chip := c.when ((c.src s).cut) fun c => (c.setSrc s { c.src s with cut := false }).lossStarts s

/-- A frame that has not come is judged before the presentation (R206). -/
def Chip.lateJudged (c : Chip) (s : Nat) : Chip := c.when (srcKind s ≤ 1) fun c => (c.lateFrame s).judgeSrc s

/-- A lost source whose HOLD reads its ring with errors. -/
def Chip.lostPresents (c : Chip) (s lines : Nat) : Chip :=
  c.when (lines != 0 && ((c.groupOf s).flatMap c.destsOf).any fun d =>
    c.on (XPT_DST_STAT_LOSS_ACTIVE d) && c.rd (XPT_DST_STAT_ACTION_TAKEN d) == 0) (·.conceal s)

/-- The synchroniser takes the source, or gives it back (R204). -/
def Chip.promotes (c : Chip) (s : Nat) (prom was : Bool) : Chip :=
  let c := c.when (srcKind s ≤ 1) (·.wrB (FSY_SRC_STAT_PROMOTED s) prom)
  let c := c.when (prom != was) fun c => c.setSrc s { c.src s with calm := 0 }
  c.when (prom && !was) fun c => (c.set (FSY_SRC_STAT_PROMOTE_SEEN s)).set FSY_STATUS_PROMOTED

/-- The frame of the ring that a synchroniser presents (R202). -/
def Chip.presentRing (c : Chip) (s : Nat) (pick : Option (Nat × Nat × Nat)) (miss : Bool) : Chip :=
  let x := c.src s
  let c := match pick with
    | none => c
    | some (n, at_, adv) =>
      ((c.countSlip (FSY_SRC_CNT_REPEATS s) (FSY_SRC_CNT_DROPS s) s adv).wr (FSY_SRC_DELAY_DELAY_NS s) ((c.now - at_) / 3)).setSrc s
        { x with shown := n }
  c.when miss (·.followMiss s)

/-- The frame that an elastic source presents (R199). -/
def Chip.presentElastic (c : Chip) (s : Nat) : Chip :=
  let x := c.src s
  (c.wr (FSY_SRC_DELAY_DELAY_NS s) (c.elasticNs s (c.rdI (FSY_SRC_OFFSET_OFFSET s)))).setSrc s { x with shown := x.next - 1 }

/-- The frame chosen is presented. -/
def Chip.presentChosen (c : Chip) (s : Nat) (clean prom : Bool) : Chip :=
  let x := c.src s
  let pick := chooseFrame x.frames x.shown (c.linePeriod s) c.now (x.decision.map Prod.snd)
  if prom then c.presentRing s pick.1 pick.2 else if srcKind s ≤ 1 then c.presentElastic s else c.ringOwn s clean

/-- A valid source presents its frame. -/
def Chip.presentValid (c : Chip) (s : Nat) (clean run : Bool) (lines : Nat) (prom was : Bool) : Chip :=
  if prom && c.dramFailed then
    (((c.syncCarry s prom was).setSrc s { c.src s with dram := true }).ringErrors s 8 true).judgeSrc s
  else
    ((((c.presentChosen s clean prom).syncCarry s prom was).presented s false).when prom fun c => c.ringErrors s lines run).when
      (prom && lines != 0 && run) (·.judgeSrc s)

theorem Chip.presentOwn_stages (c : Chip) (s : Nat) (clean run : Bool) (lines : Nat) (hl : c.leadOf s = s) : c.presentOwn s clean run lines =
    if !(((c.cutEnds s).lateJudged s).srcValid s) then ((c.cutEnds s).lateJudged s).lostPresents s lines
    else (((c.cutEnds s).lateJudged s).promotes s (((c.cutEnds s).lateJudged s).syncCarries s)
        (((c.cutEnds s).lateJudged s).on (FSY_SRC_STAT_PROMOTED s))).presentValid s clean run lines
      (((c.cutEnds s).lateJudged s).syncCarries s) (((c.cutEnds s).lateJudged s).on (FSY_SRC_STAT_PROMOTED s)) := by
  unfold Chip.presentOwn
  rw [if_neg (by simp [hl])]
  rfl

/-! ### What every stage leaves -/

/-- The history of a source: the frame it presented last, its whole frames since its loss, and whether it shows errors. -/
def Src.history (x : Src) : Option (Nat × Nat) × Nat × Nat := (x.last, x.whole, x.lostAt)

/-- What a source shows of itself: whether it is valid and promoted, and its lines in error. -/
def Fld.showsSrc (f : Fld) (s : Nat) : Prop := f = FSY_SRC_STAT_VALID s ∨ f = FSY_SRC_STAT_PROMOTED s ∨ f = FSY_SRC_BADLINES_COUNT s

/-- A stage of a presentation: it brings no cause, and leaves what the source shows and its history. -/
structure Chip.Presenting (c d : Chip) (s : Nat) : Prop where
  alike : c.CauseAlike d
  shows : ∀ f : Fld, f.showsSrc s → d.rd f = c.rd f
  history : (d.src s).history = (c.src s).history
  now : d.now = c.now

/-- A field that a stage may write. -/
def Fld.offShow (f : Fld) (s : Nat) : Prop := f.offCause ∧ ∀ g : Fld, g.showsSrc s → f.apart g = true

namespace Chip.Presenting
variable {c d e : Chip} {s : Nat}

theorem refl (c : Chip) (s : Nat) : c.Presenting c s := ⟨.refl c, fun _ _ => rfl, rfl, rfl⟩

theorem trans (h : c.Presenting d s) (g : d.Presenting e s) : c.Presenting e s :=
  ⟨h.alike.trans g.alike, fun f hf => (g.shows f hf).trans (h.shows f hf), g.history.trans h.history, g.now.trans h.now⟩

theorem wr (h : c.Presenting d s) {f : Fld} (hf : f.offShow s) (v : Nat) : c.Presenting (d.wr f v) s :=
  h.trans ⟨(Chip.CauseAlike.refl d).wr hf.1 v, fun g hg => Chip.rd_wr_keeps _ _ (hf.2 g hg),
    by rw [Chip.src_of_srcs (Chip.wr_srcs ..)], Chip.wr_now ..⟩

theorem post (h : c.Presenting d s) (hs : s < 332) (b k i a : Nat) : c.Presenting (d.post b k i a) s :=
  h.trans ⟨(Chip.CauseAlike.refl d).post b k i a, fun g hg => Chip.rd_post _ _ _ _ _ _ (by
      rcases hg with rfl | rfl | rfl <;>
        simp only [FSY_SRC_STAT_VALID, FSY_SRC_STAT_PROMOTED, FSY_SRC_STAT, FSY_SRC_BADLINES_COUNT, FSY_SRC_BADLINES, Reg.fld] <;> omega),
    by rw [Chip.src_of_srcs (Chip.post_srcs ..)], Chip.post_now ..⟩

theorem when (h : c.Presenting d s) {b : Bool} {g : Chip → Chip} (hg : ∀ e, c.Presenting e s → c.Presenting (g e) s) : c.Presenting (d.when b g) s := by
  rcases Bool.eq_false_or_eq_true b with hb | hb <;> rw [hb]
  · exact hg d h
  · exact h

theorem each (h : c.Presenting d s) {α : Type} {l : List α} {g : Chip → α → Chip} (hg : ∀ e a, a ∈ l → c.Presenting e s → c.Presenting (g e a) s) :
    c.Presenting (d.each l g) s := Chip.each_invariant (c.Presenting · s) l g hg d h

theorem setSrc (h : c.Presenting d s) {x : Src} (hx : x.causeOf = (d.src s).causeOf) (hh : x.history = (d.src s).history) :
    c.Presenting (d.setSrc s x) s :=
  h.trans ⟨(Chip.CauseAlike.refl d).setSrc hx, fun _ _ => Chip.setSrc_rd .., by rw [Chip.src_setSrc, if_pos rfl, hh], rfl⟩

/-- A change of what is kept of the twin. -/
theorem of_same (h : c.Presenting d s) (hr : e.regs = d.regs) (hsrc : e.srcs = d.srcs) (hn : e.now = d.now) : c.Presenting e s := by
  have hrd : ∀ f, e.rd f = d.rd f := fun f => Chip.rd_of_cell (Chip.cell_of_regs hr _)
  have hs := Chip.src_of_srcs hsrc
  exact h.trans ⟨⟨⟨fun f _ => hrd f, fun i => by rw [hs], fun i => by rw [hs], fun i => by rw [hs]⟩, fun i _ => hrd _,
    fun i _ => congrArg (· != 0) (hrd _), fun i => by rw [hs], fun i => by rw [hs]⟩, fun f _ => hrd f, by rw [hs], hn⟩

end Chip.Presenting

theorem Fld.offShow_of_off {f : Fld} {s : Nat} (hf : f.offCause) (h1 : f.off ≠ 0xC2000 + 4 * s) (h2 : f.off ≠ 0xC6000 + 4 * s) : f.offShow s := by
  refine ⟨hf, fun g hg => Fld.apart_of_off ?_⟩
  rcases hg with rfl | rfl | rfl <;> assumption

theorem Fld.offShow_dst {d lo w s : Nat} (hd : d < 384) : ((XPT_DST_STAT d).fld lo w).offShow s :=
  Fld.offShow_of_off (Fld.offCause_dst hd) (by simp only [XPT_DST_STAT, Reg.fld]; omega) (by simp only [XPT_DST_STAT, Reg.fld]; omega)

theorem Fld.offShow_xpt {lo w s : Nat} : (XPT_STATUS.fld lo w).offShow s :=
  Fld.offShow_of_off Fld.offCause_xpt (by simp only [XPT_STATUS, Reg.fld]; omega) (by simp only [XPT_STATUS, Reg.fld]; omega)

/-- The sticky bits of a source that its presentation sets. -/
theorem Fld.offShow_seen {i lo w s : Nat} (hi : i < 332) (h : 16 ≤ lo ∧ lo + w ≤ 32) : ((FSY_SRC_STAT i).fld lo w).offShow s := by
  have hlo : lo + w ≤ 2 ∨ 8 ≤ lo ∧ lo + w ≤ 32 := .inr ⟨by omega, h.2⟩
  refine ⟨Fld.offCause_stat hi hlo, fun g hg => ?_⟩
  rcases hg with rfl | rfl | rfl
  · simp only [Fld.apart, FSY_SRC_STAT_VALID, FSY_SRC_STAT, Reg.fld, decide_eq_true_eq, true_and]
    omega
  · simp only [Fld.apart, FSY_SRC_STAT_PROMOTED, FSY_SRC_STAT, Reg.fld, decide_eq_true_eq, true_and]
    omega
  · exact Fld.apart_of_off (by simp only [FSY_SRC_STAT, FSY_SRC_BADLINES_COUNT, FSY_SRC_BADLINES, Reg.fld]; omega)

theorem Fld.offShow_status {lo w s : Nat} : (FSY_STATUS.fld lo w).offShow s := by
  refine Fld.offShow_of_off (Fld.offCause_of_off (by simp [FSY_STATUS, Reg.fld]) (by simp only [FSY_STATUS, Reg.fld]; omega) fun j hj =>
    ⟨Fld.apart_of_off ?_, Fld.apart_of_off ?_⟩) ?_ ?_ <;>
    simp only [FSY_STATUS, FSY_SRC_STAT_DET_FORMAT, FSY_SRC_STAT_IN_WINDOW, FSY_SRC_STAT, Reg.fld] <;> omega

/-- The delay and the counts of a source. -/
theorem Fld.offShow_count {i lo w s : Nat} (hi : i < 332) (hs : s < 332) :
    ((FSY_SRC_DELAY i).fld lo w).offShow s ∧ ((FSY_SRC_CNT i).fld lo w).offShow s := by
  constructor <;>
  · refine Fld.offShow_of_off (Fld.offCause_of_off ?_ ?_ fun j hj => ⟨Fld.apart_of_off ?_, Fld.apart_of_off ?_⟩) ?_ ?_ <;>
      simp only [FSY_SRC_DELAY, FSY_SRC_CNT, FSY_SRC_STAT_DET_FORMAT, FSY_SRC_STAT_IN_WINDOW, FSY_SRC_STAT, Reg.fld] <;> omega

section
variable {c d : Chip} {s : Nat}

theorem Chip.Presenting.startLoss (h : c.Presenting d s) (hs : s < 332) {n : Nat} (hn : n < 384) : c.Presenting (d.startLoss n) s := by
  have hdst : ∀ lo w, ((XPT_DST_STAT n).fld lo w).offShow s := fun lo w => Fld.offShow_dst hn
  unfold Chip.startLoss Chip.showLoss
  refine .post ?_ hs _ _ _ _
  refine .when (.when (.when (.when (.wr (.wr (.wr (.wr h (hdst _ _) _) (hdst _ _) _) Fld.offShow_xpt _) (hdst _ _) _) fun e he => ?_)
    fun e he => ?_) fun e he => ?_) fun e he => ?_
  · exact he.wr (hdst _ _) _
  · exact he.wr Fld.offShow_xpt _
  · exact he.wr (hdst _ _) _
  · exact he.wr Fld.offShow_xpt _

theorem Chip.Presenting.lossStarts (h : c.Presenting d s) (hs : s < 332) : c.Presenting (d.lossStarts s) s := by
  refine .each h fun e n hn he => .when he fun e he => he.startLoss hs ?_
  obtain ⟨i, -, hn⟩ := List.mem_flatMap.1 hn
  exact Chip.mem_destsOf hn

/-! ### The stages, one by one -/

/-- A source without what a loss cut short of it. -/
def Src.uncut (x : Src) : Src := { x with cut := false }

/-- What the end of a cut leaves: everything of a presentation, and all of its sources but that they are cut. -/
theorem Chip.cutEnds_keeps (hs : s < 332) : c.Presenting (c.cutEnds s) s ∧ ∀ i, ((c.cutEnds s).src i).uncut = (c.src i).uncut := by
  have hset : c.Presenting (c.setSrc s (c.src s).uncut) s := (Chip.Presenting.refl c s).setSrc rfl rfl
  have hsrc : ∀ i, ((c.setSrc s (c.src s).uncut).src i).uncut = (c.src i).uncut := fun i => by
    rw [Chip.src_setSrc]
    split
    · next hi => rw [hi]; rfl
    · rfl
  unfold Chip.cutEnds
  rcases Bool.eq_false_or_eq_true (c.src s).cut with h | h <;> rw [h]
  · refine ⟨hset.lossStarts hs, fun i => ?_⟩
    exact (congrArg Src.uncut (Chip.src_of_srcs ((Chip.lossStarts_within hs .refl (by decide) (by decide) :
      Chip.Within [1, 8] [] (c.setSrc s (c.src s).uncut) _).part .srcs (by decide)) i)).trans (hsrc i)
  · exact ⟨.refl c s, fun _ => rfl⟩

theorem Chip.Presenting.role (h : c.Presenting d s) : d.role = c.role := h.alike.base.role

theorem Chip.Presenting.allowFs (h : c.Presenting d s) (hs : s < 332) : d.on (FSY_SRC_CTL_ALLOW_FS s) = c.on (FSY_SRC_CTL_ALLOW_FS s) :=
  h.alike.base.on _ (Fld.ofCause_src hs)

theorem Chip.Presenting.valid (h : c.Presenting d s) : d.srcValid s = c.srcValid s := congrArg (· != 0) (h.shows _ (.inl rfl))

theorem Chip.Presenting.promoted (h : c.Presenting d s) : d.on (FSY_SRC_STAT_PROMOTED s) = c.on (FSY_SRC_STAT_PROMOTED s) :=
  congrArg (· != 0) (h.shows _ (.inr (.inl rfl)))

theorem Chip.frameLate_of_uncut (h : (d.src s).uncut = (c.src s).uncut) : d.frameLate s = c.frameLate s := by
  have hshown : (d.src s).shown = (c.src s).shown := (congrArg Src.shown h :)
  have hnext : (d.src s).next = (c.src s).next := (congrArg Src.next h :)
  rw [Chip.frameLate, Chip.frameLate, hshown, hnext]

theorem Chip.Presenting.syncCarries (h : c.Presenting d s) (hs : s < 332) (hu : (d.src s).uncut = (c.src s).uncut) : d.syncCarries s = c.syncCarries s := by
  have hdec : (d.src s).decision = (c.src s).decision := (congrArg Src.decision hu :)
  rw [Chip.syncCarries, Chip.syncCarries, hdec, h.promoted, h.allowFs hs, h.alike.win s hs, Chip.frameLate_of_uncut hu]

/-- A sound source that is not late is judged to stay. -/
theorem Chip.lateJudged_sound (hs : s < 332) (hl : c.leadOf s = s) (hc : c.srcCause s = 0)
    (hlate : 1 < srcKind s ∨ c.on (FSY_SRC_CTL_ALLOW_FS s) = true ∨ c.frameLate s = false) : c.lateJudged s = c := by
  unfold Chip.lateJudged
  by_cases hk : srcKind s ≤ 1
  · have hnot : (srcKind s ≤ 1 && c.srcValid s && !(c.on (FSY_SRC_CTL_ALLOW_FS s)) && c.frameLate s) = false := by
      rcases hlate with h | h | h
      · omega
      · simp [h]
      · simp [h]
    have hstay : c.lateFrame s = c := by
      unfold Chip.lateFrame
      rw [hnot, Chip.when_false]
    rw [decide_eq_true hk, Chip.when_true, hstay, Chip.judgeSrc_sound hs hl hc, Chip.showDet_aligner hk]
  · simp [hk]

/-- A late frame of a sound source without frame synchronisation makes it invalid (R206). -/
theorem Chip.lateJudged_late (hs : s < 332) (hl : c.leadOf s = s) (hk : srcKind s ≤ 1) (hv : c.srcValid s = true) (hc : c.srcCause s = 0)
    (hfs : c.on (FSY_SRC_CTL_ALLOW_FS s) = false) (hlate : c.frameLate s = true) :
    (c.lateJudged s).srcValid s = false ∧ (c.lateJudged s).rd (FSY_SRC_STAT_CAUSE s) = 5 := by
  have hout : c.lateFrame s = c.clr (FSY_SRC_STAT_IN_WINDOW s) := by
    unfold Chip.lateFrame
    rw [decide_eq_true hk, hv, hfs, hlate]
    rfl
  have hrd : ∀ g : Fld, (FSY_SRC_STAT_IN_WINDOW s).apart g = true → (c.lateFrame s).rd g = c.rd g := fun g hg => by
    rw [hout]
    exact Chip.rd_clr_keeps _ hg
  have hsrc : ∀ i, (c.lateFrame s).src i = c.src i := fun i => by
    rw [hout]
    exact Chip.src_of_srcs (Chip.wr_srcs ..) i
  have hbase : c.CauseBase (c.lateFrame s) := by
    refine ⟨fun g hg => hrd g (Fld.apart_of_off fun he => ?_), fun i => by rw [hsrc], fun i => by rw [hsrc], fun i => by rw [hsrc]⟩
    obtain ⟨j, hj, ho⟩ := hg.2.2.1 (by rw [← he]; exact Fld.stat_page hs)
    rw [← he] at ho
    simp only [FSY_SRC_STAT_IN_WINDOW, FSY_SRC_STAT, Reg.fld, FSY_SRC_CTL] at ho
    omega
  have hdet : ∀ i, (c.lateFrame s).rd (FSY_SRC_STAT_DET_FORMAT i) = c.rd (FSY_SRC_STAT_DET_FORMAT i) := fun i => hrd _ (by
    simp only [Fld.apart, FSY_SRC_STAT_IN_WINDOW, FSY_SRC_STAT_DET_FORMAT, FSY_SRC_STAT, Reg.fld, decide_eq_true_eq, true_and]
    omega)
  have hwin : (c.lateFrame s).on (FSY_SRC_STAT_IN_WINDOW s) = false := by
    rw [hout]
    exact Chip.on_clr_same _ rfl
  have hfs' : (c.lateFrame s).on (FSY_SRC_CTL_ALLOW_FS s) = false := (hbase.on _ (Fld.ofCause_src hs)).trans hfs
  have hlead : (c.lateFrame s).leadOf s = s := (hbase.leadOf s).trans hl
  have hcause : (c.lateFrame s).srcCause s = 5 := by
    obtain ⟨hsig, hdet0, hoff, -⟩ := Chip.aligner_sound hk (Chip.ownCause_of_sound hc)
    rw [hbase.srcCause_lead hl hc fun i hi hne => ?_, Chip.ownCause_aligner _ _ hk, hbase.signalCause hk, hsig, hdet, hbase.formatOff hk (hdet s),
      hoff, hlead, hwin, hfs']
    · simp [hdet0]
    · have hi := Chip.mem_groupOf hs hi
      refine hbase.ownCause hi (fun _ => hdet i) (fun _ => congrArg (· != 0) (hrd _ (Fld.apart_of_off ?_))) (fun _ => by rw [hsrc]) (by rw [hsrc])
      simp only [FSY_SRC_STAT_IN_WINDOW, FSY_SRC_STAT, Reg.fld]
      omega
  have hvalid : (c.lateFrame s).srcValid s = true :=
    (congrArg (· != 0) (hrd _ (by simp [Fld.apart, FSY_SRC_STAT_IN_WINDOW, FSY_SRC_STAT_VALID, Reg.fld]))).trans hv
  obtain ⟨h1, h2, -⟩ := Chip.judgeSrc_lost hs hlead hvalid (by rw [hcause]; decide)
  rw [Chip.lateJudged, decide_eq_true hk]
  exact ⟨h1, h2.trans hcause⟩

end
end Sys2Proof.Machine
end

section
/-! SUPPORT. What a source presents, and the lines of its ring in error. -/

namespace Sys2Proof.Machine

section
variable {c d : Chip} {s : Nat}

/-! ### Until the frame is chosen -/

def Src.becalmed (x : Src) : Src := { x with calm := 0 }
def Src.showing (x : Src) (n : Nat) : Src := { x with shown := n }

/-- What the taking by the synchroniser leaves, and what it shows. -/
theorem Chip.promotes_keeps (hs : s < 332) (prom was : Bool) : c.CauseAlike (c.promotes s prom was)
    ∧ (∀ f : Fld, f = FSY_SRC_STAT_VALID s ∨ f = FSY_SRC_BADLINES_COUNT s → (c.promotes s prom was).rd f = c.rd f)
    ∧ ((c.promotes s prom was).src s).history = (c.src s).history ∧ (c.promotes s prom was).now = c.now
    ∧ (srcKind s ≤ 1 → (c.promotes s prom was).on (FSY_SRC_STAT_PROMOTED s) = prom) := by
  have hrest : ∀ d : Chip, d.Presenting ((d.when (prom != was) fun c => c.setSrc s { c.src s with calm := 0 }).when (prom && !was)
      fun c => (c.set (FSY_SRC_STAT_PROMOTE_SEEN s)).set FSY_STATUS_PROMOTED) s := fun d =>
    .when (.when (.refl d s) fun e he => he.setSrc (x := (e.src s).becalmed) rfl rfl) fun e he =>
      (he.wr (Fld.offShow_seen hs (by decide)) _).wr Fld.offShow_status _
  have hvalid : (FSY_SRC_STAT_PROMOTED s).apart (FSY_SRC_STAT_VALID s) = true := by
    simp [Fld.apart, FSY_SRC_STAT_PROMOTED, FSY_SRC_STAT_VALID, Reg.fld]
  have hcount : (FSY_SRC_STAT_PROMOTED s).apart (FSY_SRC_BADLINES_COUNT s) = true := Fld.apart_of_off (by
    simp only [FSY_SRC_STAT_PROMOTED, FSY_SRC_STAT, FSY_SRC_BADLINES_COUNT, FSY_SRC_BADLINES, Reg.fld]; omega)
  have h := hrest (c.when (srcKind s ≤ 1) (·.wrB (FSY_SRC_STAT_PROMOTED s) prom))
  change (c.when (srcKind s ≤ 1) (·.wrB (FSY_SRC_STAT_PROMOTED s) prom)).Presenting (c.promotes s prom was) s at h
  have halike : c.CauseAlike (c.when (srcKind s ≤ 1) (·.wrB (FSY_SRC_STAT_PROMOTED s) prom)) :=
    .when (.refl c) fun e he => he.wr (Fld.offCause_stat hs (.inl (by decide))) _
  refine ⟨halike.trans h.alike, fun f hf => (h.shows f (hf.imp id .inr)).trans ?_, h.history.trans ?_, h.now.trans ?_, fun hk => h.promoted.trans ?_⟩
  · rw [Chip.rd_when]
    rcases hf with rfl | rfl
    · rw [Chip.rd_wrB_keeps _ _ hvalid, ite_self]
    · rw [Chip.rd_wrB_keeps _ _ hcount, ite_self]
  · have hsrcs : (c.when (srcKind s ≤ 1) (·.wrB (FSY_SRC_STAT_PROMOTED s) prom)).srcs = c.srcs := by
      rw [Chip.when_srcs, Chip.wrB_def, Chip.wr_srcs, ite_self]
    exact congrArg Src.history (Chip.src_of_srcs hsrcs s)
  · rcases Bool.eq_false_or_eq_true (decide (srcKind s ≤ 1)) with hk | hk <;> rw [hk]
    · exact Chip.wr_now ..
    · rfl
  · rw [decide_eq_true hk]
    exact Chip.on_wrB_same _ _ rfl (by simp [FSY_SRC_STAT_PROMOTED, Reg.fld])

theorem Chip.Presenting.countSlip (h : c.Presenting d s) (hs : s < 332) (adv : Nat) :
    c.Presenting (d.countSlip (FSY_SRC_CNT_REPEATS s) (FSY_SRC_CNT_DROPS s) s adv) s := by
  have hcnt : ∀ lo w, ((FSY_SRC_CNT s).fld lo w).offShow s := fun lo w => (Fld.offShow_count hs hs).2
  unfold Chip.countSlip
  exact .when (.when h fun e he => ((he.wr (hcnt _ _) _).wr (Fld.offShow_seen hs (by decide)) _).wr Fld.offShow_status _) fun e he =>
    ((he.wr (hcnt _ _) _).wr (Fld.offShow_seen hs (by decide)) _).wr Fld.offShow_status _

theorem Chip.Presenting.noteMiss (h : c.Presenting d s) (q : Nat) : c.Presenting (d.noteMiss q) s := h.of_same rfl rfl rfl

theorem Chip.Presenting.followMiss (h : c.Presenting d s) (hs : s < 332) : c.Presenting (d.followMiss s) s := by
  unfold Chip.followMiss
  exact .post (.noteMiss (.wr (.wr h (Fld.offShow_seen hs (by decide)) _) Fld.offShow_status _) _) hs _ _ _ _

theorem Chip.srcs_countSlip (hs : s < 332) {rep drp : Fld} (hr : rep.off / 65536 = 12) (hd : drp.off / 65536 = 12) (adv : Nat) :
    (c.countSlip rep drp s adv).srcs = c.srcs := by
  have hstat : ∀ lo w, ((FSY_SRC_STAT s).fld lo w).off / 65536 ∈ [12] := fun lo w => by rw [Fld.stat_page hs]; decide
  exact (.when' (.when' .refl fun e => .set (.set (.inc .refl (by rw [hr]; decide)) (hstat _ _)) (by decide)) fun e =>
    .set (.set (.add .refl (by rw [hd]; decide)) (hstat _ _)) (by decide) : Chip.Within [12] [] c (c.countSlip rep drp s adv)).part .srcs (by decide)

theorem Chip.Presenting.show (h : c.Presenting d s) {x : Src} (hx : d.src s = x) (n : Nat) : c.Presenting (d.setSrc s (x.showing n)) s := by
  subst hx
  exact h.setSrc rfl rfl

theorem Chip.presentRing_keeps (hs : s < 332) (pick : Option (Nat × Nat × Nat)) (miss : Bool) : c.Presenting (c.presentRing s pick miss) s := by
  refine .when ?_ fun e he => he.followMiss hs
  rcases pick with - | ⟨n, at_, adv⟩
  · exact .refl c s
  · have hcount := ((Chip.Presenting.refl c s).countSlip hs adv).wr (f := FSY_SRC_DELAY_DELAY_NS s) (Fld.offShow_count hs hs).1 ((c.now - at_) / 3)
    have hrep : (FSY_SRC_CNT_REPEATS s).off / 65536 = 12 := by simp only [FSY_SRC_CNT_REPEATS, FSY_SRC_CNT, Reg.fld]; omega
    have hdrp : (FSY_SRC_CNT_DROPS s).off / 65536 = 12 := by simp only [FSY_SRC_CNT_DROPS, FSY_SRC_CNT, Reg.fld]; omega
    have hsrc := Chip.src_of_srcs ((Chip.wr_srcs (c.countSlip (FSY_SRC_CNT_REPEATS s) (FSY_SRC_CNT_DROPS s) s adv) (FSY_SRC_DELAY_DELAY_NS s)
      ((c.now - at_) / 3)).trans (Chip.srcs_countSlip hs hrep hdrp adv)) s
    exact hcount.show hsrc n

theorem Chip.presentElastic_keeps (hs : s < 332) : c.Presenting (c.presentElastic s) s := by
  have hsrc := Chip.src_of_srcs (Chip.wr_srcs c (FSY_SRC_DELAY_DELAY_NS s) (c.elasticNs s (c.rdI (FSY_SRC_OFFSET_OFFSET s)))) s
  exact ((Chip.Presenting.refl c s).wr (f := FSY_SRC_DELAY_DELAY_NS s) (Fld.offShow_count hs hs).1 _).show hsrc _

theorem Chip.presentChosen_keeps (hs : s < 332) (clean prom : Bool) : c.Presenting (c.presentChosen s clean prom) s := by
  unfold Chip.presentChosen
  split
  · exact Chip.presentRing_keeps hs _ _
  · split
    · exact Chip.presentElastic_keeps hs
    · exact (Chip.Presenting.refl c s).setSrc rfl rfl

theorem Chip.Presenting.syncCarry (h : c.Presenting d s) (hs : s < 332) (prom was : Bool) : c.Presenting (d.syncCarry s prom was) s := by
  unfold Chip.syncCarry
  exact .when (.when h fun e he => he.post hs _ _ _ _) fun e he => he.post hs _ _ _ _

/-! ### The frame is presented -/

/-- The frame presented follows the last one; it is whole where the source was valid before this instant. -/
theorem Chip.presented_src (soiled : Bool) : ((c.presented s soiled).src s).last = some (((c.src s).last.map Prod.fst).getD 0 + 1, c.now)
    ∧ ((c.presented s soiled).src s).soiled = soiled
    ∧ ((c.presented s soiled).src s).whole = (if (c.src s).lostAt < c.now then (c.src s).whole + 1 else (c.src s).whole) := by
  unfold Chip.presented
  rw [Chip.src_setSrc, if_pos rfl]
  exact ⟨rfl, rfl, rfl⟩

theorem Chip.presented_keeps (soiled : Bool) : c.CauseAlike (c.presented s soiled) ∧ ∀ f, (c.presented s soiled).rd f = c.rd f :=
  ⟨(Chip.CauseAlike.refl c).setSrc rfl, fun f => Chip.setSrc_rd ..⟩

/-! ### Lines in error -/

/-- The lines of a ring read in error are counted. -/
def Chip.linesCounted (c : Chip) (s lines : Nat) : Chip :=
  ((c.add (FSY_SRC_BADLINES_COUNT s) lines).set (FSY_SRC_STAT_BADLINE_SEEN s)).conceal s

def Src.ringErrors (x : Src) (lines : Nat) (run : Bool) : Src :=
  { x with soiled := true, bads := x.bads + lines, bad := if run then 8 else x.bad }

theorem Src.ringErrors_group (x : Src) (lines : Nat) (run : Bool) :
    (x.ringErrors lines run).skew = x.skew ∧ (x.ringErrors lines run).order = x.order ∧ (x.ringErrors lines run).mapped = x.mapped := ⟨rfl, rfl, rfl⟩

theorem Chip.ringErrors_stages (c : Chip) (s lines : Nat) (run : Bool) : c.ringErrors s lines run =
    if lines = 0 then c else (c.linesCounted s lines).setSrc s (((c.linesCounted s lines).src s).ringErrors lines run) := rfl

/-- What is kept of the twin changes. -/
def Chip.withTwn (c : Chip) (x : Twn) : Chip := { c with twn := x }

theorem Chip.withTwn_within (x : Twn) : Chip.Within [] [.twn] c (c.withTwn x) :=
  Chip.Within.part_only rfl fun k hk => by
    cases k
    case mem => exact ⟨[], (List.append_nil _).symm, rfl⟩
    case twn => exact absurd (by decide) hk
    all_goals rfl

theorem Chip.CauseAlike.withTwn (h : c.CauseAlike d) (x : Twn) : c.CauseAlike (d.withTwn x) :=
  h.trans ⟨⟨fun _ _ => rfl, fun _ => rfl, fun _ => rfl, fun _ => rfl⟩, fun _ _ => rfl, fun _ _ => rfl, fun _ => rfl, fun _ => rfl⟩

theorem Chip.diagConceal_eq (c : Chip) : ∃ x, c.diagConceal = (c.set TWN_DIAG_CONCEAL).withTwn x := ⟨_, rfl⟩

theorem Chip.diagConceal_within : Chip.Within [112] [.twn] c c.diagConceal := by
  obtain ⟨x, h⟩ := c.diagConceal_eq
  rw [h]
  exact (Chip.Within.set .refl (by decide)).trans ((Chip.withTwn_within x).mono (by simp) (by simp))

/-- What the concealing of lines leaves. -/
theorem Chip.rd_conceal {f : Fld} (h112 : f.off / 65536 ≠ 112) (hs : (FSY_SRC_STAT_ECC_CONCEAL s).apart f = true) (hst : FSY_STATUS.off ≠ f.off) :
    (c.conceal s).rd f = c.rd f := by
  have hflag : FSY_STATUS_ECC_CONCEAL.apart f = true := Fld.apart_of_off hst
  unfold Chip.conceal
  rw [Chip.diagConceal_within.rd (by simpa using h112), Chip.rd_set_keeps _ hflag, Chip.rd_set_keeps _ hs]

theorem Chip.conceal_within (hs : s < 332) : Chip.Within [12, 112] [.twn] c (c.conceal s) := by
  have hstat : (FSY_SRC_STAT_ECC_CONCEAL s).off / 65536 ∈ [12, 112] := by
    rw [show (FSY_SRC_STAT_ECC_CONCEAL s).off / 65536 = 12 from Fld.stat_page hs]; decide
  unfold Chip.conceal
  exact (Chip.Within.set (.set .refl hstat) (by decide)).trans (Chip.diagConceal_within.mono (by simp) (by simp))

theorem Chip.linesCounted_within (hs : s < 332) (lines : Nat) : Chip.Within [12, 112] [.twn] c (c.linesCounted s lines) := by
  have hstat : (FSY_SRC_STAT_BADLINE_SEEN s).off / 65536 ∈ [12, 112] := by
    rw [show (FSY_SRC_STAT_BADLINE_SEEN s).off / 65536 = 12 from Fld.stat_page hs]; decide
  have hcount : (FSY_SRC_BADLINES_COUNT s).off / 65536 ∈ [12, 112] := by
    simp only [FSY_SRC_BADLINES_COUNT, FSY_SRC_BADLINES, Reg.fld, List.mem_cons, List.not_mem_nil, or_false]; omega
  exact (Chip.Within.set (.add .refl hcount) hstat).trans (Chip.conceal_within hs)

theorem Chip.src_linesCounted (hs : s < 332) (lines i : Nat) : (c.linesCounted s lines).src i = c.src i :=
  Chip.src_of_srcs ((Chip.linesCounted_within hs lines).part .srcs (by decide)) i

theorem Chip.CauseAlike.linesCounted (h : c.CauseAlike d) (hs : s < 332) (lines : Nat) : c.CauseAlike (d.linesCounted s lines) := by
  have hdiag : TWN_DIAG_CONCEAL.offCause := ⟨fun g hg he => hg.2.1 (by rw [← he]; rfl), fun i hi => by
    constructor <;> exact Fld.apart_of_off (by
      simp only [TWN_DIAG_CONCEAL, TWN_DIAG, FSY_SRC_STAT_DET_FORMAT, FSY_SRC_STAT_IN_WINDOW, FSY_SRC_STAT, Reg.fld]; omega)⟩
  have hstat : ∀ lo w, 8 ≤ lo ∧ lo + w ≤ 32 → ((FSY_SRC_STAT s).fld lo w).offCause := fun lo w hw => Fld.offCause_stat hs (.inr hw)
  obtain ⟨x, hx⟩ := (((d.add (FSY_SRC_BADLINES_COUNT s) lines).set (FSY_SRC_STAT_BADLINE_SEEN s)).set (FSY_SRC_STAT_ECC_CONCEAL s)).set
    FSY_STATUS_ECC_CONCEAL |>.diagConceal_eq
  unfold Chip.linesCounted Chip.conceal
  rw [hx]
  exact .withTwn (.wr (.wr (.wr (.wr (.wr h (Fld.offCause_lines hs) _) (hstat _ _ (by decide)) _) (hstat _ _ (by decide)) _)
    (Fld.offShow_status (s := s)).1 _) hdiag _) x

/-- What the count of lines in error shows, and leaves of the source's status. -/
theorem Chip.linesCounted_shows (hs : s < 332) (lines : Nat) :
    (c.linesCounted s lines).rd (FSY_SRC_BADLINES_COUNT s) = min (2 ^ (FSY_SRC_BADLINES_COUNT s).w - 1) (c.rd (FSY_SRC_BADLINES_COUNT s) + lines)
    ∧ (c.linesCounted s lines).srcValid s = c.srcValid s
    ∧ (c.linesCounted s lines).on (FSY_SRC_STAT_PROMOTED s) = c.on (FSY_SRC_STAT_PROMOTED s) := by
  have hstat : ∀ lo w, ((FSY_SRC_STAT s).fld lo w).off / 65536 ≠ 112 := fun lo w => by rw [Fld.stat_page hs]; decide
  have hcount : (FSY_SRC_BADLINES_COUNT s).off / 65536 ≠ 112 := by simp only [FSY_SRC_BADLINES_COUNT, FSY_SRC_BADLINES, Reg.fld]; omega
  have hoff : ∀ lo w, ((FSY_SRC_STAT s).fld lo w).off ≠ (FSY_SRC_BADLINES_COUNT s).off := fun lo w => by
    simp only [FSY_SRC_BADLINES_COUNT, FSY_SRC_BADLINES, FSY_SRC_STAT, Reg.fld]; omega
  have hst : FSY_STATUS.off ≠ (FSY_SRC_BADLINES_COUNT s).off ∧ ∀ lo w, FSY_STATUS.off ≠ ((FSY_SRC_STAT s).fld lo w).off := by
    constructor
    · simp only [FSY_STATUS, FSY_SRC_BADLINES_COUNT, FSY_SRC_BADLINES, Reg.fld]; omega
    · intro lo w
      simp only [FSY_STATUS, FSY_SRC_STAT, Reg.fld]; omega
  have hkeep : ∀ lo w, (FSY_SRC_STAT_ECC_CONCEAL s).apart ((FSY_SRC_STAT s).fld lo w) = true →
      (FSY_SRC_STAT_BADLINE_SEEN s).apart ((FSY_SRC_STAT s).fld lo w) = true →
      (c.linesCounted s lines).rd ((FSY_SRC_STAT s).fld lo w) = c.rd ((FSY_SRC_STAT s).fld lo w) := fun lo w he hb => by
    rw [Chip.linesCounted, Chip.rd_conceal (hstat _ _) he (hst.2 _ _), Chip.rd_set_keeps _ hb]
    exact Chip.rd_add_keeps _ _ (Fld.apart_of_off (hoff lo w).symm)
  refine ⟨?_, congrArg (· != 0) (hkeep 0 1 ?_ ?_), congrArg (· != 0) (hkeep 1 1 ?_ ?_)⟩
  · rw [Chip.linesCounted, Chip.rd_conceal hcount (Fld.apart_of_off (hoff _ _)) hst.1,
      Chip.rd_set_keeps (f := FSY_SRC_STAT_BADLINE_SEEN s) _ (Fld.apart_of_off (hoff _ _))]
    exact Chip.rd_add_same _ _ rfl
  all_goals simp [Fld.apart, FSY_SRC_STAT_ECC_CONCEAL, FSY_SRC_STAT_BADLINE_SEEN, Reg.fld]

/-! ### A valid source presents -/

/-- The frame is presented whole but for its lines in error. -/
theorem Chip.presentValid_shows (hs : s < 332) (hf : c.dramFailed = false) {run : Bool} {lines : Nat} (hrun : run = false ∨ lines = 0)
    (clean prom was : Bool) :
    ((c.presentValid s clean run lines prom was).src s).last = some (((c.src s).last.map Prod.fst).getD 0 + 1, c.now)
    ∧ ((c.presentValid s clean run lines prom was).src s).soiled = (prom && lines != 0)
    ∧ ((c.presentValid s clean run lines prom was).src s).whole = (if (c.src s).lostAt < c.now then (c.src s).whole + 1 else (c.src s).whole)
    ∧ (c.presentValid s clean run lines prom was).on (FSY_SRC_STAT_PROMOTED s) = c.on (FSY_SRC_STAT_PROMOTED s) := by
  have hstage := (Chip.presentChosen_keeps (c := c) hs clean prom).syncCarry hs prom was
  have hno : (prom && lines != 0 && run) = false := by rcases hrun with h | h <;> simp [h]
  have hcond : (prom && c.dramFailed) = false := by simp [hf]
  unfold Chip.presentValid
  rw [hcond, if_neg (by decide), hno, Chip.when_false]
  generalize (c.presentChosen s clean prom).syncCarry s prom was = e at hstage ⊢
  obtain ⟨hlast, hsoiled, hwhole⟩ := e.presented_src (s := s) false
  have hhist := hstage.history
  simp only [Src.history, Prod.mk.injEq] at hhist
  obtain ⟨h1, h2, h3⟩ := hhist
  have hprom : (e.presented s false).on (FSY_SRC_STAT_PROMOTED s) = c.on (FSY_SRC_STAT_PROMOTED s) :=
    (congrArg (· != 0) ((Chip.presented_keeps false).2 _)).trans hstage.promoted
  rw [h1, hstage.now] at hlast
  rw [h2, h3, hstage.now] at hwhole
  by_cases hp : prom = true ∧ lines ≠ 0
  · rw [hp.1, Chip.when_true, Chip.ringErrors_stages, if_neg hp.2, Chip.src_setSrc, if_pos rfl, Chip.src_linesCounted hs]
    refine ⟨hlast, ?_, hwhole, (Chip.setSrc_on ..).trans ((Chip.linesCounted_shows hs lines).2.2.trans hprom)⟩
    simp [Src.ringErrors, hp.2]
  · have hskip : ((e.presented s false).when prom fun c => c.ringErrors s lines run) = e.presented s false := by
      rcases Bool.eq_false_or_eq_true prom with h | h <;> rw [h]
      · rw [Chip.when_true, Chip.ringErrors_stages, if_pos (by simpa [h] using hp)]
      · rfl
    rw [hskip]
    refine ⟨hlast, hsoiled.trans ?_, hwhole, hprom⟩
    cases prom <;> simp_all

/-- Eight lines of its ring in error make a synchronised source invalid (R208). -/
theorem Chip.presentValid_lost (hs : s < 332) (hk : srcKind s ≤ 1) (hl : c.leadOf s = s) (hv : c.srcValid s = true) (hc : c.srcCause s = 0)
    (hf : c.dramFailed = false) {lines : Nat} (hlines : lines ≠ 0) (clean was : Bool) :
    (c.presentValid s clean true lines true was).srcValid s = false ∧ (c.presentValid s clean true lines true was).rd (FSY_SRC_STAT_CAUSE s) = 6
    ∧ (c.presentValid s clean true lines true was).rd (FSY_SRC_BADLINES_COUNT s)
      = min (2 ^ (FSY_SRC_BADLINES_COUNT s).w - 1) (c.rd (FSY_SRC_BADLINES_COUNT s) + lines) := by
  have hstage := (Chip.presentChosen_keeps (c := c) hs clean true).syncCarry hs true was
  have hcond : (true && c.dramFailed) = false := by simp [hf]
  unfold Chip.presentValid
  rw [hcond, if_neg (by decide), bne_iff_ne.2 hlines, Bool.true_and, Bool.true_and, Chip.when_true, Chip.when_true]
  generalize (c.presentChosen s clean true).syncCarry s true was = e at hstage ⊢
  obtain ⟨hpre, hprd⟩ := e.presented_keeps (s := s) false
  generalize e.presented s false = p at hpre hprd ⊢
  rw [Chip.ringErrors_stages, if_neg hlines]
  have halike := (hstage.alike.trans hpre).linesCounted hs lines
  obtain ⟨hcount, hvalid, hprom⟩ := Chip.linesCounted_shows (c := p) hs lines
  have hof := halike.lines (s := s) (x := ((p.linesCounted s lines).src s).ringErrors lines true) (Src.ringErrors_group ..)
  generalize hd : (p.linesCounted s lines).setSrc s (((p.linesCounted s lines).src s).ringErrors lines true) = d at hof ⊢
  have hlead : d.leadOf s = s := (hof.base.leadOf s).trans hl
  have hbad : d.linesBad s = true := by
    rw [← hd, Chip.linesBad, Chip.src_setSrc, if_pos rfl]
    rfl
  have hcause : d.srcCause s = 6 := by
    rw [hof.srcCause hs hl hc, hof.base.ownCause_lines hk (Chip.ownCause_of_sound hc) (hof.det s hs) (hof.win s hs), hbad]
    rfl
  have hdv : d.srcValid s = true := by
    rw [← hd]
    exact (Chip.setSrc_on ..).trans (hvalid.trans ((congrArg (· != 0) (hprd _)).trans (hstage.valid.trans hv)))
  have hdc : d.rd (FSY_SRC_BADLINES_COUNT s) = min (2 ^ (FSY_SRC_BADLINES_COUNT s).w - 1) (c.rd (FSY_SRC_BADLINES_COUNT s) + lines) := by
    rw [← hd, Chip.setSrc_rd, hcount, hprd, hstage.shows _ (.inr (.inr rfl))]
  obtain ⟨h1, h2, -⟩ := Chip.judgeSrc_lost hs hlead hdv (by rw [hcause]; decide)
  refine ⟨h1, h2.trans hcause, ((Chip.judgeSrc_lines hs hlead).2 (.inl ?_)).trans hdc⟩
  rw [Chip.lossCut, hcause]
  exact Bool.and_false _

end
end Sys2Proof.Machine
end

section
/-! SUPPORT. The row of a presentation on the own plane and on the other. -/

namespace Sys2Proof.Machine

section
variable {c d : Chip} {s p : Nat}

theorem State.presentation_row {s : State} {t : Nat} {x : Fin 332} {p : Fin 2} {clean ue : Bool} {conceal : Nat} (hlive : (s.chipAt t).live = true)
    (hoff : srcOffered (s.chipAt t).role x.val = true) :
    exec (.presentationInstant t x p clean ue conceal) s = .next (s.commit ((s.chipAt t).present x.val p.val clean ue conceal)) := by
  refine (State.event_live s t _ hlive).trans ?_
  rw [hoff]
  rfl

/-! ### What follows a presentation -/

theorem Chip.tellSync_within (c c0 : Chip) (s : Nat) (cross : Bool) : Chip.Within [] [.sent, .twn] c (c.tellSync c0 s cross) := by
  unfold Chip.tellSync
  split
  · exact .refl
  · dsimp only
    split
    · exact (Chip.tell_within .refl (by decide) (by decide) : Chip.Within [] [.sent, .twn] c _)
    · exact .refl

/-- The head of a presented source shows that it runs, and the selections are forwarded. -/
def Chip.presentEnds (c c0 : Chip) (s : Nat) : Chip := (c.headRuns s).tellSync c0 s false

theorem Chip.presentEnds_within (hs : s < 332) (c0 : Chip) : Chip.Within [96] [.sent, .twn] c (c.presentEnds c0 s) :=
  (Chip.headRuns_within hs .refl (by decide) (by decide) : Chip.Within [96] [.sent, .twn] c _).trans
    ((Chip.tellSync_within _ _ _ _).mono (by simp) (fun _ h => h))

theorem Chip.src_presentEnds (hs : s < 332) (c0 : Chip) (i : Nat) : (c.presentEnds c0 s).src i = c.src i :=
  Chip.src_of_srcs ((Chip.presentEnds_within hs c0).part .srcs (by decide)) i

theorem Chip.rd_presentEnds (hs : s < 332) (c0 : Chip) {f : Fld} (hf : f.off / 65536 ≠ 96) : (c.presentEnds c0 s).rd f = c.rd f :=
  (Chip.presentEnds_within hs c0).rd (by simpa using hf)

/-- A source as it stands before it presents: its flow or its playback channel has brought a frame. -/
def Chip.presentFeeds (c : Chip) (s p : Nat) (clean ue : Bool) (conceal : Nat) : Chip :=
  (c.when (srcKind s == 2) (·.flowPresent (s - 240) clean)).when (srcKind s == 3) (·.playPresent (s - 272) p conceal ue)

theorem Chip.present_stages (c : Chip) (s p : Nat) (clean ue : Bool) (conceal : Nat) : c.present s p clean ue conceal =
    if c.planeState p < 2 then c
    else if c.presentsOn s p then
      ((c.presentFeeds s p clean ue conceal).presentOwn s clean ue conceal).presentEnds (c.presentFeeds s p clean ue conceal) s
    else (c.presentCross s p ue conceal).tellSync c s true := rfl

theorem Chip.present_own (hst : 2 ≤ c.planeState p) (hp : c.srcPlane s = p) (h2 : srcKind s ≠ 2) (h3 : srcKind s ≠ 3) (clean ue : Bool) (conceal : Nat) :
    c.present s p clean ue conceal = (c.presentOwn s clean ue conceal).presentEnds c s := by
  have hon : c.presentsOn s p = true := by simp [Chip.presentsOn, hp]
  have hfeeds : c.presentFeeds s p clean ue conceal = c := by
    unfold Chip.presentFeeds
    rw [beq_eq_false_iff_ne.2 h2, Chip.when_false, beq_eq_false_iff_ne.2 h3, Chip.when_false]
  rw [Chip.present_stages, if_neg (by omega), if_pos hon, hfeeds]

/-! ### The own plane -/

/-- A sound source that is not late presents its frame. -/
theorem Chip.presentOwn_sound (hs : s < 332) (hl : c.leadOf s = s) (hv : c.srcValid s = true) (hc : c.srcCause s = 0)
    (hlate : 1 < srcKind s ∨ c.on (FSY_SRC_CTL_ALLOW_FS s) = true ∨ c.frameLate s = false) (clean run : Bool) (lines : Nat) :
    c.presentOwn s clean run lines = ((c.cutEnds s).promotes s (c.syncCarries s) (c.on (FSY_SRC_STAT_PROMOTED s))).presentValid s clean run lines
      (c.syncCarries s) (c.on (FSY_SRC_STAT_PROMOTED s)) := by
  obtain ⟨hkeep, hsrc⟩ := Chip.cutEnds_keeps (c := c) hs
  have hlead := (hkeep.alike.base.leadOf s).trans hl
  have hcause := (hkeep.alike.srcCause hs).trans hc
  have hlate' : 1 < srcKind s ∨ (c.cutEnds s).on (FSY_SRC_CTL_ALLOW_FS s) = true ∨ (c.cutEnds s).frameLate s = false := by
    rw [hkeep.allowFs hs, Chip.frameLate_of_uncut (hsrc s)]
    exact hlate
  rw [Chip.presentOwn_stages _ _ _ _ _ hl, Chip.lateJudged_sound hs hlead hcause hlate', hkeep.valid, hv, hkeep.syncCarries hs (hsrc s), hkeep.promoted,
    Bool.not_true, if_neg Bool.false_ne_true]

/-- The chip on which the frame of a sound source is chosen: as before, but that the source is promoted or not. -/
theorem Chip.chosenOn_keeps (hs : s < 332) (hl : c.leadOf s = s) (hv : c.srcValid s = true) (hc : c.srcCause s = 0) (prom was : Bool) :
    ((c.cutEnds s).promotes s prom was).leadOf s = s ∧ ((c.cutEnds s).promotes s prom was).srcValid s = true
    ∧ ((c.cutEnds s).promotes s prom was).srcCause s = 0 ∧ ((c.cutEnds s).promotes s prom was).dramFailed = c.dramFailed
    ∧ (((c.cutEnds s).promotes s prom was).src s).history = (c.src s).history ∧ ((c.cutEnds s).promotes s prom was).now = c.now
    ∧ ((c.cutEnds s).promotes s prom was).rd (FSY_SRC_BADLINES_COUNT s) = c.rd (FSY_SRC_BADLINES_COUNT s)
    ∧ (srcKind s ≤ 1 → ((c.cutEnds s).promotes s prom was).on (FSY_SRC_STAT_PROMOTED s) = prom) := by
  obtain ⟨hkeep, -⟩ := Chip.cutEnds_keeps (c := c) hs
  obtain ⟨halike, hrd, hhist, hnow, hprom⟩ := Chip.promotes_keeps (c := c.cutEnds s) hs prom was
  have hall := hkeep.alike.trans halike
  exact ⟨(hall.base.leadOf s).trans hl, (congrArg (· != 0) (hrd _ (.inl rfl))).trans (hkeep.valid.trans hv), (hall.srcCause hs).trans hc,
    hall.base.dramFailed, hhist.trans hkeep.history, hnow.trans hkeep.now, (hrd _ (.inr rfl)).trans (hkeep.shows _ (.inr (.inr rfl))), hprom⟩

/-- A frame that is late makes a source without frame synchronisation invalid. -/
theorem Chip.presentOwn_late (hs : s < 332) (hk : srcKind s ≤ 1) (hl : c.leadOf s = s) (hv : c.srcValid s = true) (hc : c.srcCause s = 0)
    (hfs : c.on (FSY_SRC_CTL_ALLOW_FS s) = false) (hlate : c.frameLate s = true) (clean run : Bool) (lines : Nat) :
    (c.presentOwn s clean run lines).srcValid s = false ∧ (c.presentOwn s clean run lines).rd (FSY_SRC_STAT_CAUSE s) = 5 := by
  obtain ⟨hkeep, hsrc⟩ := Chip.cutEnds_keeps (c := c) hs
  obtain ⟨h1, h2⟩ := Chip.lateJudged_late hs ((hkeep.alike.base.leadOf s).trans hl) hk (hkeep.valid.trans hv) ((hkeep.alike.srcCause hs).trans hc)
    ((hkeep.allowFs hs).trans hfs) ((Chip.frameLate_of_uncut (hsrc s)).trans hlate)
  have hstat : ∀ lo w, ((FSY_SRC_STAT s).fld lo w).off / 65536 ≠ 112 ∧ FSY_STATUS.off ≠ ((FSY_SRC_STAT s).fld lo w).off := fun lo w =>
    ⟨by rw [Fld.stat_page hs]; decide, by simp only [FSY_STATUS, FSY_SRC_STAT, Reg.fld]; omega⟩
  have hstay : ∀ (d : Chip) lo w, (FSY_SRC_STAT_ECC_CONCEAL s).apart ((FSY_SRC_STAT s).fld lo w) = true →
      (d.lostPresents s lines).rd ((FSY_SRC_STAT s).fld lo w) = d.rd ((FSY_SRC_STAT s).fld lo w) := fun d lo w h => by
    rw [Chip.lostPresents, Chip.rd_when, Chip.rd_conceal (hstat lo w).1 h (hstat lo w).2, ite_self]
  rw [Chip.presentOwn_stages _ _ _ _ _ hl, h1]
  refine ⟨(congrArg (· != 0) (hstay _ 0 1 ?_)).trans h1, (hstay _ 8 4 ?_).trans h2⟩ <;> simp [Fld.apart, FSY_SRC_STAT_ECC_CONCEAL, Reg.fld]

/-! ### The other plane -/

def Src.xshowing (x : Src) (n : Nat) : Src := { x with xshown := n }

theorem Src.xshown_xshowing (x : Src) (n : Nat) : (x.xshowing n).xshown = n := rfl
theorem Src.xshown_ringErrors (x : Src) (lines : Nat) (run : Bool) : (x.ringErrors lines run).xshown = x.xshown := rfl

/-- The frame of the cross-plane ring that a synchroniser presents. -/
def Chip.crossRing (c : Chip) (s : Nat) (run : Bool) (lines : Nat) (pick : Option (Nat × Nat × Nat)) : Chip :=
  match pick with
  | none => c
  | some (n, _, adv) =>
    let c := c.countSlip (FSY_XPL_CNT_REPEATS s) (FSY_XPL_CNT_DROPS s) s adv
    ((c.setSrc s ((c.src s).xshowing n)).ringErrors s lines run).when (lines != 0 && run) (·.judgeSrc s)

/-- A cross-plane decision is used up. -/
def Src.undecided (x : Src) : Src := { x with xdecision := none }

theorem Chip.presentCross_stages (hl : c.leadOf s = s) (hx : c.crossOn s p = true) (hv : c.srcValid s = true) (hf : c.dramFailed = false) (run : Bool)
    (lines : Nat) : c.presentCross s p run lines =
      ((c.setSrc s (c.src s).undecided).crossRing s run lines
        (chooseFrame (c.src s).xframes (c.src s).xshown (c.linePeriod s) c.now (c.src s).xdecision).1).when
        (chooseFrame (c.src s).xframes (c.src s).xshown (c.linePeriod s) c.now (c.src s).xdecision).2 (·.followMiss s) := by
  unfold Chip.presentCross
  rw [if_neg (by simp [hl, hx, hv]), if_neg (by simp [hf])]
  rfl

theorem Chip.crossRing_some (c : Chip) (s : Nat) (run : Bool) (lines n at_ adv : Nat) : c.crossRing s run lines (some (n, at_, adv)) =
    (((c.countSlip (FSY_XPL_CNT_REPEATS s) (FSY_XPL_CNT_DROPS s) s adv).setSrc s
      (((c.countSlip (FSY_XPL_CNT_REPEATS s) (FSY_XPL_CNT_DROPS s) s adv).src s).xshowing n)).ringErrors s lines run).when (lines != 0 && run)
      (·.judgeSrc s) := rfl

theorem Chip.ringErrors_xshown (hs : s < 332) (lines : Nat) (run : Bool) : ((c.ringErrors s lines run).src s).xshown = (c.src s).xshown := by
  rw [Chip.ringErrors_stages]
  split
  · rfl
  · rw [Chip.src_setSrc, if_pos rfl, Src.xshown_ringErrors, Chip.src_linesCounted hs]

theorem Chip.crossRing_xshown (hs : s < 332) {run : Bool} {lines : Nat} (hrun : run = false ∨ lines = 0) (pick : Option (Nat × Nat × Nat)) :
    ((c.crossRing s run lines pick).src s).xshown = (pick.map Prod.fst).getD (c.src s).xshown := by
  have hno : (lines != 0 && run) = false := by rcases hrun with h | h <;> simp [h]
  rcases pick with - | ⟨n, at_, adv⟩
  · rfl
  · rw [Chip.crossRing_some, hno, Chip.when_false, Chip.ringErrors_xshown hs, Chip.src_setSrc, if_pos rfl, Src.xshown_xshowing, Option.map_some,
      Option.getD_some]

/-- A cross-plane synchroniser that follows no decision shows the newest frame of its ring that is ready. -/
theorem Chip.presentCross_shows (hs : s < 332) (hl : c.leadOf s = s) (hx : c.crossOn s p = true) (hv : c.srcValid s = true) (hf : c.dramFailed = false)
    (hd : (c.src s).xdecision = none) {run : Bool} {lines : Nat} (hrun : run = false ∨ lines = 0) :
    ((c.presentCross s p run lines).src s).xshown
      = ((newestReady (c.src s).xframes (c.linePeriod s) c.now).map RingFrame.n).getD (c.src s).xshown := by
  rw [Chip.presentCross_stages hl hx hv hf, hd]
  simp only [chooseFrame, selectFrame, Chip.when_false]
  rw [Chip.crossRing_xshown hs hrun, Chip.src_setSrc, if_pos rfl]
  cases newestReady (c.src s).xframes (c.linePeriod s) c.now <;> rfl

end
end Sys2Proof.Machine
end

section
/-! SUPPORT. Playback channels of the lookback store: what they present, a pause that expires, and the halt of the store. -/

namespace Sys2Proof.Machine

section
variable {c d : Chip} {s p q k : Nat}

/-! ### No change that takes -/

theorem Chip.take_idle (h : (c.fw.queue.any fun e => e.plane == q && c.reached q e.epoch && e.change.kind == .playback && e.change.idx == p) = false) :
    (c.take q fun x => x.kind == .playback && x.idx == p) = c := by
  have hnone : ∀ e ∈ c.fw.queue, (e.plane == q && c.reached q e.epoch && (e.change.kind == .playback && e.change.idx == p)) = false := fun e he => by
    have := List.any_eq_false.1 h e he
    rwa [← Bool.and_assoc, Bool.eq_false_iff]
  have hdue : (c.fw.queue.filter fun e => e.plane == q && c.reached q e.epoch && (e.change.kind == .playback && e.change.idx == p)) = [] :=
    List.filter_eq_nil_iff.2 fun e he => by rw [hnone e he]; decide
  have hhost : (c.fw.queue.filter fun e => e.plane == q && c.reached q e.epoch && (e.change.kind == .playback && e.change.idx == p) && e.host) = [] :=
    List.filter_eq_nil_iff.2 fun e he => by rw [hnone e he]; exact Bool.false_ne_true
  have htake : (c.takeDue q fun x => x.kind == .playback && x.idx == p) = c := by
    unfold Chip.takeDue
    rw [hdue]
    have hall : (c.fw.queue.filter fun e => !(([] : List Pend).contains e)) = c.fw.queue := List.filter_eq_self.2 fun _ _ => rfl
    change ({ c with fw := { c.fw with queue := c.fw.queue.filter fun e => !(([] : List Pend).contains e) } } : Chip) = c
    rw [hall]
  unfold Chip.take
  rw [hhost, htake]
  rfl

/-! ### A pause -/

theorem Chip.rd_shortShow {f : Fld} (h : (LBS_PB_STAT_SHORT p).apart f = true) : (c.shortShow p).rd f = c.rd f := Chip.rd_wrB_keeps _ _ h

/-- A pause that expires: its channel is in DELAY mode at the greatest delay, with its flags. -/
theorem Chip.pauseExpire_shows (hp : p < 48) : (c.pauseExpire p).on (LBS_PB_CTL_MODE p) = false
    ∧ (c.pauseExpire p).on (LBS_PB_STAT_PAUSE_EXPIRED p) = true ∧ (c.pauseExpire p).on LBS_STATUS_PAUSE_EXPIRED = true
    ∧ (c.pauseExpire p).rd (LBS_PB_STAT_CUR_DELAY p) = (c.depth (c.carafeOf p) - 1) % 2 ^ (LBS_PB_STAT_CUR_DELAY p).w := by
  unfold Chip.pauseExpire Chip.shortShow
  refine ⟨?_, ?_, ?_, ?_⟩
  all_goals
    simp (disch := grind [Fld.apart, LBS_PB_CTL_MODE, LBS_PB_CTL, LBS_PB_STAT_CUR_DELAY, LBS_PB_STAT, LBS_PB_STAT_PAUSE_EXPIRED, LBS_PB_STAT_SHORT,
      LBS_STATUS_PAUSE_EXPIRED, LBS_STATUS, Reg.fld, Fld.fits_iff]) only
      [Chip.on_wrB_keeps, Chip.rd_wrB_keeps, Chip.on_post, Chip.rd_post, Chip.on_set_keeps, Chip.rd_set_keeps, Chip.on_set_same, Chip.on_wr_keeps,
        Chip.on_clr_same, Chip.rd_wr_fits]

/-- What the growth of a pause leaves: everything of a playback channel but its mode, its delay and the flags of the expiry. -/
theorem Chip.pauseGrow_keeps (hp : p < 48) (jump : Bool) : (c.pauseGrow p jump).on (LBS_PB_CTL_ENABLE p) = c.on (LBS_PB_CTL_ENABLE p)
    ∧ (c.pauseGrow p jump).rd (LBS_PB_CNT_GAP_FRAMES p) = c.rd (LBS_PB_CNT_GAP_FRAMES p) := by
  have hexpire : (c.pauseExpire p).on (LBS_PB_CTL_ENABLE p) = c.on (LBS_PB_CTL_ENABLE p)
      ∧ (c.pauseExpire p).rd (LBS_PB_CNT_GAP_FRAMES p) = c.rd (LBS_PB_CNT_GAP_FRAMES p) := by
    unfold Chip.pauseExpire Chip.shortShow
    constructor
    all_goals
      simp (disch := grind [Fld.apart, LBS_PB_CTL_MODE, LBS_PB_CTL_ENABLE, LBS_PB_CTL, LBS_PB_STAT_CUR_DELAY, LBS_PB_STAT, LBS_PB_STAT_PAUSE_EXPIRED,
        LBS_PB_STAT_SHORT, LBS_STATUS_PAUSE_EXPIRED, LBS_STATUS, LBS_PB_CNT_GAP_FRAMES, LBS_PB_CNT, Reg.fld]) only
        [Chip.on_wrB_keeps, Chip.rd_wrB_keeps, Chip.on_post, Chip.rd_post, Chip.on_set_keeps, Chip.rd_set_keeps, Chip.on_wr_keeps, Chip.rd_wr_keeps,
          Chip.on_clr_keeps, Chip.rd_clr_keeps]
  unfold Chip.pauseGrow
  split
  · exact ⟨rfl, rfl⟩
  · split
    · split
      · exact ⟨rfl, rfl⟩
      · exact hexpire
    · unfold Chip.shortShow
      constructor
      all_goals
        simp (disch := grind [Fld.apart, LBS_PB_CTL_ENABLE, LBS_PB_CTL, LBS_PB_STAT_CUR_DELAY, LBS_PB_STAT, LBS_PB_STAT_SHORT,
          LBS_PB_CNT_GAP_FRAMES, LBS_PB_CNT, Reg.fld]) only [Chip.on_wrB_keeps, Chip.rd_wrB_keeps, Chip.on_wr_keeps, Chip.rd_wr_keeps]

theorem Chip.pauseGrow_within (hp : p < 48) (jump : Bool) : Chip.Within [1, 16] [] c (c.pauseGrow p jump) := by
  have hdelay : (LBS_PB_STAT_CUR_DELAY p).off / 65536 ∈ [1, 16] := by
    simp only [LBS_PB_STAT_CUR_DELAY, LBS_PB_STAT, Reg.fld, List.mem_cons, List.not_mem_nil, or_false]; omega
  unfold Chip.pauseGrow
  split
  · exact .refl
  · split
    · split
      · exact .refl
      · exact Chip.pauseExpire_within hp .refl (by decide) (by decide)
    · exact Chip.shortShow_within hp (.wr .refl hdelay) (by decide) (by decide)

/-- A pause grows into no change that takes. -/
theorem Chip.playDue_pauseGrow (hp : p < 48) (hq : q < 2) (jump : Bool) : (c.pauseGrow p jump).playDue p q = c.playDue p q := by
  have hw := Chip.pauseGrow_within (c := c) hp jump
  have hfw : (c.pauseGrow p jump).fw = c.fw := hw.part .fw (by decide)
  have hplanes : (c.pauseGrow p jump).planes = c.planes := hw.part .planes (by decide)
  have hepoch : (c.pauseGrow p jump).rd (XPT_EPOCH_EPOCH q) = c.rd (XPT_EPOCH_EPOCH q) := hw.rd (by
    simp only [XPT_EPOCH_EPOCH, XPT_EPOCH, Reg.fld, List.mem_cons, List.not_mem_nil, or_false]; omega)
  simp only [Chip.playDue, Chip.reached, Chip.plane, hfw, hplanes, hepoch]

/-! ### The frame that a channel shows -/

/-- The channel shows the frames chosen. -/
def Chip.playShown (c : Chip) (p : Nat) (shown : List (Option (Nat × Nat))) : Chip :=
  c.setPlay p { shown := shown, frame := c.frameNow (c.dstPlane (272 + c.carafeOf p)) (c.rd (LBS_REC_CTL_FORMAT (c.carafeOf p))) }

/-- What the channel shows was recorded while the twins differed. -/
def Chip.playInherits (c : Chip) (p r : Nat) (shown : List (Option (Nat × Nat))) : Chip :=
  c.when (shown.any fun x => match x with | some y => c.twn.diverged.contains y | none => false) fun c => { c with twn := { c.twn with
    inherited := ((p, c.epochNow (c.dstPlane (272 + r))) :: c.twn.inherited).take 64 } }

def Chip.playConceals (c : Chip) (p conceal : Nat) : Chip :=
  (((c.add (LBS_PB_CNT_CONCEAL_LINES p) conceal).set (LBS_PB_STAT_CONCEAL_SEEN p)).set LBS_STATUS_ECC_CONCEAL).diagConceal

def Chip.playGap (c : Chip) (p : Nat) : Chip := ((c.inc (LBS_PB_CNT_GAP_FRAMES p)).set (LBS_PB_STAT_GAP_SEEN p)).set LBS_STATUS_GAP_PLAYED

theorem Chip.playShow_stages (hen : c.on (LBS_PB_CTL_ENABLE p) = true) (old : List (Option (Nat × Nat))) (conceal : Nat) (tagErr : Bool) :
    c.playShow p old conceal tagErr = ((((c.playShown p (old ++ [c.playAt p tagErr])).playInherits p (c.carafeOf p) (old ++ [c.playAt p tagErr])).when
      (conceal != 0 && (old ++ [c.playAt p tagErr]).any Option.isSome) (·.playConceals p conceal)).when
      ((old ++ [c.playAt p tagErr]).any Option.isNone) (·.playGap p)) := by
  unfold Chip.playShow
  rw [if_neg (by simp [hen])]
  rfl

theorem Chip.playInherits_keeps (r : Nat) (shown : List (Option (Nat × Nat))) :
    (∀ f, (c.playInherits p r shown).rd f = c.rd f) ∧ (c.playInherits p r shown).lbs = c.lbs := by
  have hw : Chip.Within [] [.twn] c (c.playInherits p r shown) := .when' .refl fun d => Chip.withTwn_within _
  exact ⟨fun f => hw.rd (by simp), hw.part .lbs (by decide)⟩

theorem Chip.play_of_lbs (h : d.lbs = c.lbs) (k : Nat) : d.play k = c.play k := by
  unfold Chip.play
  rw [h]

theorem Chip.playConceals_within (hp : p < 48) (conceal : Nat) : Chip.Within [16, 112] [.twn] c (c.playConceals p conceal) := by
  have hcnt : (LBS_PB_CNT_CONCEAL_LINES p).off / 65536 ∈ [16, 112] := by
    simp only [LBS_PB_CNT_CONCEAL_LINES, LBS_PB_CNT, Reg.fld, List.mem_cons, List.not_mem_nil, or_false]; omega
  have hstat : (LBS_PB_STAT_CONCEAL_SEEN p).off / 65536 ∈ [16, 112] := by
    simp only [LBS_PB_STAT_CONCEAL_SEEN, LBS_PB_STAT, Reg.fld, List.mem_cons, List.not_mem_nil, or_false]; omega
  exact (Chip.Within.set (.set (.add .refl hcnt) hstat) (by decide)).trans (Chip.diagConceal_within.mono (by simp) (by simp))

theorem Chip.playConceals_counts (hp : p < 48) (conceal : Nat) :
    (c.playConceals p conceal).rd (LBS_PB_CNT_CONCEAL_LINES p)
      = min (2 ^ (LBS_PB_CNT_CONCEAL_LINES p).w - 1) (c.rd (LBS_PB_CNT_CONCEAL_LINES p) + conceal)
    ∧ (c.playConceals p conceal).rd (LBS_PB_CNT_GAP_FRAMES p) = c.rd (LBS_PB_CNT_GAP_FRAMES p) := by
  have hpage : (LBS_PB_CNT_CONCEAL_LINES p).off / 65536 ∉ [112] ∧ (LBS_PB_CNT_GAP_FRAMES p).off / 65536 ∉ [112] := by
    simp only [LBS_PB_CNT_CONCEAL_LINES, LBS_PB_CNT_GAP_FRAMES, LBS_PB_CNT, Reg.fld, List.mem_singleton]
    omega
  unfold Chip.playConceals
  refine ⟨(Chip.diagConceal_within.rd hpage.1).trans ?_, (Chip.diagConceal_within.rd hpage.2).trans ?_⟩
  all_goals
    simp (disch := grind [Fld.apart, LBS_PB_STAT, LBS_PB_STAT_CONCEAL_SEEN, LBS_STATUS_ECC_CONCEAL, LBS_STATUS, LBS_PB_CNT_GAP_FRAMES,
      LBS_PB_CNT_CONCEAL_LINES, LBS_PB_CNT, Reg.fld, Fld.fits_iff]) only [Chip.rd_set_keeps, Chip.rd_add_same, Chip.rd_add_keeps]

/-- A channel whose frame cannot be read shows a gap frame, and counts it. -/
theorem Chip.playShow_gap (hp : p < 48) (hen : c.on (LBS_PB_CTL_ENABLE p) = true) (conceal : Nat) :
    (c.playShow p [] conceal true).on (LBS_PB_STAT_GAP_SEEN p) = true ∧ ((c.playShow p [] conceal true).play p).shown = [none]
    ∧ (c.playShow p [] conceal true).rd (LBS_PB_CNT_GAP_FRAMES p)
      = min (2 ^ (LBS_PB_CNT_GAP_FRAMES p).w - 1) (c.rd (LBS_PB_CNT_GAP_FRAMES p) + 1) := by
  have hnone : c.playAt p true = none := by simp [Chip.playAt]
  rw [Chip.playShow_stages hen, hnone, List.nil_append]
  have hsome : (conceal != 0 && ([none] : List (Option (Nat × Nat))).any Option.isSome) = false := by simp
  rw [hsome, Chip.when_false, show (([none] : List (Option (Nat × Nat))).any Option.isNone) = true from rfl, Chip.when_true]
  obtain ⟨hrd, hlbs⟩ := Chip.playInherits_keeps (c := c.playShown p [none]) (p := p) (c.carafeOf p) [none]
  generalize (c.playShown p [none]).playInherits p (c.carafeOf p) [none] = e at hrd hlbs ⊢
  have hgaps : e.rd (LBS_PB_CNT_GAP_FRAMES p) = c.rd (LBS_PB_CNT_GAP_FRAMES p) := hrd _
  have hshown : (e.play p).shown = [none] := by
    rw [Chip.play_of_lbs hlbs, Chip.playShown, Chip.play_setPlay, if_pos rfl]
  rw [← hgaps]
  unfold Chip.playGap
  refine ⟨?_, ?_, ?_⟩
  · simp (disch := grind [Fld.apart, LBS_PB_STAT, LBS_PB_STAT_GAP_SEEN, LBS_STATUS_GAP_PLAYED, LBS_STATUS, Reg.fld, Fld.fits_iff]) only
      [Chip.on_set_keeps, Chip.on_set_same]
  · exact (congrArg Play.shown (Chip.play_of_lbs ((Chip.wr_lbs ..).trans ((Chip.wr_lbs ..).trans (Chip.wr_lbs ..))) p)).trans hshown
  · simp (disch := grind [Fld.apart, LBS_PB_STAT, LBS_PB_STAT_GAP_SEEN, LBS_STATUS_GAP_PLAYED, LBS_STATUS, LBS_PB_CNT_GAP_FRAMES, LBS_PB_CNT, Reg.fld,
      Fld.fits_iff]) only [Chip.rd_set_keeps, Chip.rd_inc_same]

/-- A channel that shows a recorded frame counts no gap, and the lines concealed. -/
theorem Chip.playShow_recorded (hp : p < 48) (hen : c.on (LBS_PB_CTL_ENABLE p) = true) {y : Nat × Nat} (hy : c.playAt p false = some y) (conceal : Nat) :
    ((c.playShow p [] conceal false).play p).shown = [some y]
    ∧ (c.playShow p [] conceal false).rd (LBS_PB_CNT_GAP_FRAMES p) = c.rd (LBS_PB_CNT_GAP_FRAMES p)
    ∧ (c.playShow p [] conceal false).rd (LBS_PB_CNT_CONCEAL_LINES p)
      = min (2 ^ (LBS_PB_CNT_CONCEAL_LINES p).w - 1) (c.rd (LBS_PB_CNT_CONCEAL_LINES p) + conceal) := by
  rw [Chip.playShow_stages hen, hy, List.nil_append]
  rw [show (([some y] : List (Option (Nat × Nat))).any Option.isNone) = false from rfl, Chip.when_false,
    show (([some y] : List (Option (Nat × Nat))).any Option.isSome) = true from rfl, Bool.and_true]
  obtain ⟨hrd, hlbs⟩ := Chip.playInherits_keeps (c := c.playShown p [some y]) (p := p) (c.carafeOf p) [some y]
  generalize (c.playShown p [some y]).playInherits p (c.carafeOf p) [some y] = e at hrd hlbs ⊢
  have hshown : (e.play p).shown = [some y] := by
    rw [Chip.play_of_lbs hlbs, Chip.playShown, Chip.play_setPlay, if_pos rfl]
  have hcnt : ∀ lo w, e.rd ((LBS_PB_CNT p).fld lo w) = c.rd ((LBS_PB_CNT p).fld lo w) := fun lo w => hrd _
  by_cases hz : conceal = 0
  · have hlt := c.rd_lt (LBS_PB_CNT_CONCEAL_LINES p)
    rw [hz, show ((0 : Nat) != 0) = false from rfl, Chip.when_false]
    refine ⟨hshown, hcnt _ _, (hcnt _ _).trans ?_⟩
    change c.rd (LBS_PB_CNT_CONCEAL_LINES p) = _
    omega
  · rw [bne_iff_ne.2 hz, Chip.when_true]
    obtain ⟨hlines, hgaps⟩ := Chip.playConceals_counts (c := e) hp conceal
    refine ⟨(congrArg Play.shown (Chip.play_of_lbs ((Chip.playConceals_within hp conceal).part .lbs (by decide)) p)).trans hshown,
      hgaps.trans (hcnt _ _), hlines.trans ?_⟩
    rw [show e.rd (LBS_PB_CNT_CONCEAL_LINES p) = c.rd (LBS_PB_CNT_CONCEAL_LINES p) from hcnt _ _]

/-! ### A playback channel presents -/

theorem Chip.playPresent_plain (hp : p < 48) (hq : q < 2) (hrun : c.lbs.stopped = false) (hd : c.playDue p q = false) (conceal : Nat) (tagErr : Bool) :
    c.playPresent p q conceal tagErr = (c.pauseGrow p false).playShow p [] conceal tagErr := by
  unfold Chip.playPresent
  rw [if_neg (by simp [hrun]), hd]
  have hold : (if (false && (c.pauseGrow p false).on (LBS_PB_CTL_ENABLE p)) = true then [(c.pauseGrow p false).playAt p tagErr] else []) = [] := rfl
  have htake := Chip.take_idle ((Chip.playDue_pauseGrow (c := c) hp hq false).trans hd)
  change ((c.pauseGrow p false).take q fun x => x.kind == .playback && x.idx == p).playShow p _ conceal tagErr = _
  rw [htake, hold]

end
end Sys2Proof.Machine
end

section
/-! SUPPORT. What a presentation may change, the halt of the store, and the obligation on presentations. -/

namespace Sys2Proof.Machine

section
variable {c d : Chip} {s p q k : Nat}

/-! ### What a presentation may change -/

theorem Chip.presented_within (b : Bool) : Chip.Within [1, 8, 12, 64, 112] [.srcs, .twn] c (c.presented s b) :=
  Chip.setSrc_within .refl (by decide) (by decide)

theorem Chip.syncCarry_within (prom was : Bool) : Chip.Within [1, 8, 12, 64, 112] [.srcs, .twn] c (c.syncCarry s prom was) :=
  .when' (.when' .refl fun d => .post .refl (by decide)) fun d => .post .refl (by decide)

theorem Chip.ringErrors_within (hs : s < 332) (lines : Nat) (run : Bool) :
    Chip.Within [1, 8, 12, 64, 112] [.srcs, .twn] c (c.ringErrors s lines run) := by
  rw [Chip.ringErrors_stages]
  split
  · exact .refl
  · exact Chip.setSrc_within ((Chip.linesCounted_within hs lines).mono (by simp) (by simp)) (by decide) (by decide)

theorem Chip.followMiss_within (hs : s < 332) : Chip.Within [1, 8, 12, 64, 112] [.srcs, .twn] c (c.followMiss s) := by
  have hstat : (FSY_SRC_STAT_FOLLOW_MISS s).off / 65536 ∈ [1, 8, 12, 64, 112] := by
    rw [show (FSY_SRC_STAT_FOLLOW_MISS s).off / 65536 = 12 from Fld.stat_page hs]; decide
  have hset : Chip.Within [1, 8, 12, 64, 112] [.srcs, .twn] c ((c.set (FSY_SRC_STAT_FOLLOW_MISS s)).set FSY_STATUS_FOLLOW_MISS) :=
    .set (.set .refl hstat) (by decide)
  unfold Chip.followMiss
  exact .post (hset.trans ((Chip.withTwn_within _).mono (by simp) (by simp))) (by decide)

theorem Chip.countSlip_within (hs : s < 332) {rep drp : Fld} (hr : rep.off / 65536 = 12) (hd : drp.off / 65536 = 12) (adv : Nat) :
    Chip.Within [12] [] c (c.countSlip rep drp s adv) := by
  have hstat : ∀ lo w, ((FSY_SRC_STAT s).fld lo w).off / 65536 ∈ [12] := fun lo w => by rw [Fld.stat_page hs]; decide
  exact .when' (.when' .refl fun e => .set (.set (.inc .refl (by rw [hr]; decide)) (hstat _ _)) (by decide)) fun e =>
    .set (.set (.add .refl (by rw [hd]; decide)) (hstat _ _)) (by decide)

theorem Chip.presentChosen_within (hs : s < 332) (clean prom : Bool) :
    Chip.Within [1, 8, 12, 64, 112] [.srcs, .twn] c (c.presentChosen s clean prom) := by
  have hrep : (FSY_SRC_CNT_REPEATS s).off / 65536 = 12 := by simp only [FSY_SRC_CNT_REPEATS, FSY_SRC_CNT, Reg.fld]; omega
  have hdrp : (FSY_SRC_CNT_DROPS s).off / 65536 = 12 := by simp only [FSY_SRC_CNT_DROPS, FSY_SRC_CNT, Reg.fld]; omega
  have hdelay : (FSY_SRC_DELAY_DELAY_NS s).off / 65536 ∈ [1, 8, 12, 64, 112] := by
    simp only [FSY_SRC_DELAY_DELAY_NS, FSY_SRC_DELAY, Reg.fld, List.mem_cons, List.not_mem_nil, or_false]; omega
  unfold Chip.presentChosen
  split
  · refine .when' ?_ fun d => Chip.followMiss_within hs
    split
    · exact .refl
    · exact Chip.setSrc_within (.wr ((Chip.countSlip_within hs hrep hdrp _).mono (by simp) (by simp)) hdelay) (by decide) (by decide)
  · split
    · exact Chip.setSrc_within (.wr .refl hdelay) (by decide) (by decide)
    · exact Chip.setSrc_within .refl (by decide) (by decide)

theorem Chip.presentValid_within (hs : s < 332) (clean run : Bool) (lines : Nat) (prom was : Bool) :
    Chip.Within [1, 8, 12, 64, 112] [.srcs, .twn] c (c.presentValid s clean run lines prom was) := by
  have hjudge : ∀ d : Chip, Chip.Within [1, 8, 12, 64, 112] [.srcs, .twn] d (d.judgeSrc s) := fun d =>
    Chip.judgeSrc_within hs .refl (by decide) (by decide)
  have hcarry : ∀ d : Chip, Chip.Within [1, 8, 12, 64, 112] [.srcs, .twn] d (d.syncCarry s prom was) := fun d => Chip.syncCarry_within prom was
  unfold Chip.presentValid
  split
  · exact ((Chip.setSrc_within (hcarry c) (by decide) (by decide)).trans (Chip.ringErrors_within hs 8 true)).trans (hjudge _)
  · exact .when' (.when' (((Chip.presentChosen_within hs clean prom).trans (hcarry _)).trans (Chip.presented_within false)) fun d =>
      Chip.ringErrors_within hs lines run) hjudge

theorem Chip.promotes_within (hs : s < 332) (prom was : Bool) : Chip.Within [1, 8, 12, 64, 112] [.srcs, .twn] c (c.promotes s prom was) := by
  have hstat : ∀ lo w, ((FSY_SRC_STAT s).fld lo w).off / 65536 ∈ [1, 8, 12, 64, 112] := fun lo w => by rw [Fld.stat_page hs]; decide
  exact .when' (.when' (.when' .refl fun d => .wrB .refl (hstat _ _)) fun d => Chip.setSrc_within .refl (by decide) (by decide)) fun d =>
    .set (.set .refl (hstat _ _)) (by decide)

/-- A source presents on its own plane within the crosspoint, the aligners, the network and what is kept of the twin. -/
theorem Chip.presentOwn_within (hs : s < 332) (clean run : Bool) (lines : Nat) :
    Chip.Within [1, 8, 12, 64, 112] [.srcs, .twn] c (c.presentOwn s clean run lines) := by
  have hstat : ∀ lo w, ((FSY_SRC_STAT s).fld lo w).off / 65536 ∈ [1, 8, 12, 64, 112] := fun lo w => by rw [Fld.stat_page hs]; decide
  have hcut : Chip.Within [1, 8, 12, 64, 112] [.srcs, .twn] c (c.cutEnds s) := .when' .refl fun d =>
    Chip.lossStarts_within hs (Chip.setSrc_within .refl (by decide) (by decide)) (by decide) (by decide)
  have hlate : Chip.Within [1, 8, 12, 64, 112] [.srcs, .twn] c ((c.cutEnds s).lateJudged s) := .when' hcut fun d =>
    Chip.judgeSrc_within hs (.when' .refl fun e => .clr .refl (hstat _ _)) (by decide) (by decide)
  by_cases hl : c.leadOf s = s
  · rw [Chip.presentOwn_stages _ _ _ _ _ hl]
    split
    · exact .when' hlate fun d => (Chip.conceal_within hs).mono (by simp) (by simp)
    · exact (hlate.trans (Chip.promotes_within hs _ _)).trans (Chip.presentValid_within hs _ _ _ _ _)
  · have hnone : c.presentOwn s clean run lines = c := by
      unfold Chip.presentOwn
      exact if_pos hl
    rw [hnone]
    exact .refl

/-- A playback channel presents what its store shows. -/
theorem Chip.present_play (hk : srcKind s = 3) (hst : 2 ≤ c.planeState p) (hp : c.srcPlane s = p) (clean ue : Bool) (conceal : Nat) :
    c.present s p clean ue conceal = ((c.playPresent (s - 272) p conceal ue).presentOwn s clean ue conceal).presentEnds
      (c.playPresent (s - 272) p conceal ue) s := by
  have hon : c.presentsOn s p = true := by simp [Chip.presentsOn, hp]
  have hfeeds : c.presentFeeds s p clean ue conceal = c.playPresent (s - 272) p conceal ue := by
    unfold Chip.presentFeeds
    rw [hk]
    rfl
  rw [Chip.present_stages, if_neg (by omega), if_pos hon, hfeeds]

/-- What follows the frame of a playback channel leaves its store. -/
theorem Chip.presentRest_keeps (hs : s < 332) (clean ue : Bool) (conceal : Nat) :
    (∀ f : Fld, f.off / 65536 = 16 → ((c.presentOwn s clean ue conceal).presentEnds c s).rd f = c.rd f)
    ∧ ∀ k, ((c.presentOwn s clean ue conceal).presentEnds c s).play k = c.play k := by
  have hown := Chip.presentOwn_within (c := c) hs clean ue conceal
  have hends := Chip.presentEnds_within (c := c.presentOwn s clean ue conceal) hs c
  exact ⟨fun f hf => (hends.rd (by rw [hf]; decide)).trans (hown.rd (by rw [hf]; decide)), fun k =>
    (Chip.play_of_lbs (hends.part .lbs (by decide)) k).trans (Chip.play_of_lbs (hown.part .lbs (by decide)) k)⟩

end
end Sys2Proof.Machine
end

section
/-! SUPPORT. The halt of the store, and the obligation on presentations. -/

namespace Sys2Proof.Machine

section
variable {c d : Chip} {s p q k r : Nat}

/-! ### The halt of the store -/

/-- A record channel halts: it is not enabled any more and has no history. -/
def Chip.haltRec (c : Chip) (r : Nat) : Chip := ((c.clr (LBS_REC_CTL_ENABLE r)).setCarafe r {}).wrHist r 0

/-- A playback channel that read it halts. -/
def Chip.haltPlay (c : Chip) (q : Nat) : Chip :=
  ((((c.clr (LBS_PB_CTL_ENABLE q)).wr (LBS_PB_STAT_CUR_DELAY q) 0).shortShow q).setPlay q {}).judgeSrc (272 + q)

/-- What the halt writes of the channel's registers. -/
def Chip.haltPlayRegs (c : Chip) (q : Nat) : Chip := ((c.clr (LBS_PB_CTL_ENABLE q)).wr (LBS_PB_STAT_CUR_DELAY q) 0).shortShow q

theorem Chip.haltPlay_stages (c : Chip) (q : Nat) : c.haltPlay q = ((c.haltPlayRegs q).setPlay q {}).judgeSrc (272 + q) := rfl

def Chip.haltRecs (c : Chip) (p : Nat) : List Nat := (List.range 48).filter fun r => c.dstPlane (272 + r) == p
def Chip.haltPlays (c : Chip) (p : Nat) : List Nat :=
  (List.range 48).filter fun q => c.on (LBS_PB_CTL_ENABLE q) && c.dstPlane (272 + c.carafeOf q) == p

/-- The channels of a plane halt. -/
def Chip.planeHalts (c : Chip) (p : Nat) : Chip := (c.each (c.haltRecs p) Chip.haltRec).each (c.haltPlays p) Chip.haltPlay

def Chip.haltIs (c : Chip) (x : Option (Nat × List Nat)) : Chip := { c with lbs := { c.lbs with halt := x } }

theorem Chip.storeHalt_stages {n : Nat} {planes : List Nat} (h : c.lbs.halt = some (n, planes)) : c.storeHalt p =
    if (planes.filter (· != p)).isEmpty then (((c.planeHalts p).haltIs none).set LBS_STATUS_HALTED).post 0x06 0x0003 0 n
    else (c.planeHalts p).haltIs (some (n, planes.filter (· != p))) := by
  unfold Chip.storeHalt
  rw [h]
  rfl

theorem Chip.rd_wrHist {f : Fld} (h : Nat) (hf : f.off ≠ (LBS_REC_HIST r).off) (hs : ∀ k < 48, f.off ≠ (LBS_PB_STAT k).off) :
    (c.wrHist r h).rd f = c.rd f := by
  unfold Chip.wrHist
  refine (Chip.each_keeps (·.rd f) _ _ (fun d k hk => ?_) _).trans ?_
  · have hk := List.mem_range.1 (List.mem_filter.1 hk).1
    exact Chip.rd_shortShow (Fld.apart_of_off (hs k hk).symm)
  · rw [Chip.rd_wrB_keeps _ _ (Fld.apart_of_off (Ne.symm hf)), Chip.rd_wr_keeps _ _ (Fld.apart_of_off (Ne.symm hf))]

theorem Chip.wrHist_shows (hr : r < 48) : (c.wrHist r 0).rd (LBS_REC_HIST_HISTORY r) = 0 := by
  unfold Chip.wrHist
  refine (Chip.each_keeps (·.rd (LBS_REC_HIST_HISTORY r)) _ _ (fun d k hk => ?_) _).trans ?_
  · have hk := List.mem_range.1 (List.mem_filter.1 hk).1
    exact Chip.rd_shortShow (Fld.apart_of_off (by simp only [LBS_PB_STAT_SHORT, LBS_PB_STAT, LBS_REC_HIST_HISTORY, LBS_REC_HIST, Reg.fld]; omega))
  · rw [Chip.rd_wrB_keeps _ _ (by simp [Fld.apart, LBS_REC_HIST_HISTORY, LBS_REC_HIST_FULL, Reg.fld])]
    exact Chip.rd_wr_lt rfl (by simp [LBS_REC_HIST_HISTORY, Reg.fld])

/-- A record channel that halts leaves the other channels' settings. -/
theorem Chip.haltRec_keeps (hr : r < 48) {f : Fld} (hc : (LBS_REC_CTL_ENABLE r).apart f = true) (hf : f.off ≠ (LBS_REC_HIST r).off)
    (hs : ∀ k < 48, f.off ≠ (LBS_PB_STAT k).off) : (c.haltRec r).rd f = c.rd f := by
  rw [Chip.haltRec, Chip.rd_wrHist 0 hf hs]
  exact Chip.rd_clr_keeps _ hc

theorem Chip.haltRec_shows (hr : r < 48) : (c.haltRec r).on (LBS_REC_CTL_ENABLE r) = false ∧ (c.haltRec r).rd (LBS_REC_HIST_HISTORY r) = 0 := by
  refine ⟨?_, Chip.wrHist_shows hr⟩
  refine (congrArg (· != 0) (Chip.rd_wrHist 0 ?_ fun k hk => ?_)).trans (Chip.on_clr_same _ rfl) <;>
    simp only [LBS_REC_CTL_ENABLE, LBS_REC_CTL, LBS_REC_HIST, LBS_PB_STAT, Reg.fld] <;> omega

theorem Chip.rd_setPlay (c : Chip) (k : Nat) (x : Play) (f : Fld) : (c.setPlay k x).rd f = c.rd f := rfl

theorem Chip.rd_haltPlay (hq : q < 48) {f : Fld} (hp : f.off / 65536 = 16) : (c.haltPlay q).rd f = (c.haltPlayRegs q).rd f := by
  rw [Chip.haltPlay_stages, (Chip.judgeSrc_within (show 272 + q < 332 by omega) .refl (by decide) (by decide) :
    Chip.Within [1, 8, 12, 64] [.srcs] ((c.haltPlayRegs q).setPlay q {}) _).rd (by rw [hp]; decide), Chip.rd_setPlay]

/-- A playback channel that halts writes, of the store's registers, its own. -/
theorem Chip.haltPlay_keeps (hq : q < 48) {f : Fld} (hp : f.off / 65536 = 16) (hc : (LBS_PB_CTL_ENABLE q).apart f = true)
    (hs : f.off ≠ (LBS_PB_STAT q).off) : (c.haltPlay q).rd f = c.rd f := by
  have hshort : (LBS_PB_STAT_SHORT q).apart f = true := Fld.apart_of_off (Ne.symm hs)
  have hdelay : (LBS_PB_STAT_CUR_DELAY q).apart f = true := Fld.apart_of_off (Ne.symm hs)
  rw [Chip.rd_haltPlay hq hp, Chip.haltPlayRegs, Chip.rd_shortShow hshort, Chip.rd_wr_keeps _ _ hdelay, Chip.rd_clr_keeps _ hc]

theorem Chip.haltPlay_shows (hq : q < 48) : (c.haltPlay q).on (LBS_PB_CTL_ENABLE q) = false := by
  have hpage : (LBS_PB_CTL_ENABLE q).off / 65536 = 16 := by simp only [LBS_PB_CTL_ENABLE, LBS_PB_CTL, Reg.fld]; omega
  have hshort : (LBS_PB_STAT_SHORT q).apart (LBS_PB_CTL_ENABLE q) = true := Fld.apart_of_off (by
    simp only [LBS_PB_CTL_ENABLE, LBS_PB_CTL, LBS_PB_STAT_SHORT, LBS_PB_STAT, Reg.fld]; omega)
  have hdelay : (LBS_PB_STAT_CUR_DELAY q).apart (LBS_PB_CTL_ENABLE q) = true := Fld.apart_of_off (by
    simp only [LBS_PB_CTL_ENABLE, LBS_PB_CTL, LBS_PB_STAT_CUR_DELAY, LBS_PB_STAT, Reg.fld]; omega)
  rw [Chip.on, Chip.rd_haltPlay hq hpage, Chip.haltPlayRegs, Chip.rd_shortShow hshort, Chip.rd_wr_keeps _ _ hdelay]
  exact Chip.on_clr_same _ rfl

theorem Chip.planeHalts_recs (hr : r < 48) (hp : c.dstPlane (272 + r) = p) :
    (c.planeHalts p).on (LBS_REC_CTL_ENABLE r) = false ∧ (c.planeHalts p).rd (LBS_REC_HIST_HISTORY r) = 0 := by
  have hmem : r ∈ c.haltRecs p := List.mem_filter.2 ⟨List.mem_range.2 hr, by simp [hp]⟩
  have hrecs : (c.each (c.haltRecs p) Chip.haltRec).on (LBS_REC_CTL_ENABLE r) = false
      ∧ (c.each (c.haltRecs p) Chip.haltRec).rd (LBS_REC_HIST_HISTORY r) = 0 := by
    refine Chip.each_establishes (fun d => d.on (LBS_REC_CTL_ENABLE r) = false ∧ d.rd (LBS_REC_HIST_HISTORY r) = 0) _ _ r hmem
      (fun d => Chip.haltRec_shows hr) (fun d b hb h => ?_) c
    by_cases hne : b = r
    · rw [hne]
      exact Chip.haltRec_shows hr
    · have hb := List.mem_range.1 (List.mem_filter.1 hb).1
      refine ⟨(congrArg (· != 0) (Chip.haltRec_keeps hb (Fld.apart_of_off ?_) ?_ fun k hk => ?_)).trans h.1,
        (Chip.haltRec_keeps hb (Fld.apart_of_off ?_) ?_ fun k hk => ?_).trans h.2⟩ <;>
        simp only [LBS_REC_CTL_ENABLE, LBS_REC_CTL, LBS_REC_HIST_HISTORY, LBS_REC_HIST, LBS_PB_STAT, Reg.fld] <;> omega
  have hplay : ∀ f : Fld, f.off / 65536 = 16 → f.off < 0x102000 → (c.planeHalts p).rd f = (c.each (c.haltRecs p) Chip.haltRec).rd f :=
    fun f h16 hlt => Chip.each_keeps (·.rd f) _ _ (fun d b hb => by
      have hb := List.mem_range.1 (List.mem_filter.1 hb).1
      refine Chip.haltPlay_keeps hb h16 (Fld.apart_of_off ?_) ?_ <;> simp only [LBS_PB_CTL_ENABLE, LBS_PB_CTL, LBS_PB_STAT, Reg.fld] <;> omega) _
  refine ⟨(congrArg (· != 0) (hplay _ ?_ ?_)).trans hrecs.1, (hplay _ ?_ ?_).trans hrecs.2⟩ <;>
    simp only [LBS_REC_CTL_ENABLE, LBS_REC_CTL, LBS_REC_HIST_HISTORY, LBS_REC_HIST, Reg.fld] <;> omega

theorem Chip.planeHalts_plays (hq : q < 48) (hp : c.dstPlane (272 + c.carafeOf q) = p) : (c.planeHalts p).on (LBS_PB_CTL_ENABLE q) = false := by
  have hkeep : ∀ (d : Chip) (b : Nat), b < 48 → d.on (LBS_PB_CTL_ENABLE q) = false → (d.haltPlay b).on (LBS_PB_CTL_ENABLE q) = false := fun d b hb h => by
    by_cases hne : b = q
    · rw [hne]
      exact Chip.haltPlay_shows hq
    · refine (congrArg (· != 0) (Chip.haltPlay_keeps hb ?_ (Fld.apart_of_off ?_) ?_)).trans h <;>
        simp only [LBS_PB_CTL_ENABLE, LBS_PB_CTL, LBS_PB_STAT, Reg.fld] <;> omega
  unfold Chip.planeHalts
  by_cases hen : c.on (LBS_PB_CTL_ENABLE q) = true
  · have hmem : q ∈ c.haltPlays p := List.mem_filter.2 ⟨List.mem_range.2 hq, by simp [hen, hp]⟩
    exact Chip.each_establishes (fun d => d.on (LBS_PB_CTL_ENABLE q) = false) _ _ q hmem (fun d => Chip.haltPlay_shows hq)
      (fun d b hb h => hkeep d b (List.mem_range.1 (List.mem_filter.1 hb).1) h) _
  · have hoff : c.on (LBS_PB_CTL_ENABLE q) = false := by simpa using hen
    refine Chip.each_invariant (fun d => d.on (LBS_PB_CTL_ENABLE q) = false) _ _
      (fun d b hb h => hkeep d b (List.mem_range.1 (List.mem_filter.1 hb).1) h) _ ?_
    refine (Chip.each_keeps (·.on (LBS_PB_CTL_ENABLE q)) _ _ (fun d b hb => ?_) c).trans hoff
    have hb := List.mem_range.1 (List.mem_filter.1 hb).1
    refine congrArg (· != 0) (Chip.haltRec_keeps hb (Fld.apart_of_off ?_) ?_ fun k hk => ?_) <;>
      simp only [LBS_REC_CTL_ENABLE, LBS_REC_CTL, LBS_REC_HIST, LBS_PB_CTL_ENABLE, LBS_PB_CTL, LBS_PB_STAT, Reg.fld] <;> omega

theorem Chip.storeHalt_keeps {n : Nat} {planes : List Nat} (h : c.lbs.halt = some (n, planes)) {f : Fld} (hp : f.off / 65536 = 16)
    (hs : f.off ≠ LBS_STATUS.off) : (c.storeHalt p).rd f = (c.planeHalts p).rd f := by
  rw [Chip.storeHalt_stages h]
  split
  · rw [Chip.rd_post _ _ _ _ _ _ (by rw [hp]; decide), Chip.rd_set_keeps _ (Fld.apart_of_off (Ne.symm hs))]
    rfl
  · rfl

/-- The halt ends with the last plane concerned. -/
theorem Chip.storeHalt_ends {n : Nat} {planes : List Nat} (h : c.lbs.halt = some (n, planes)) :
    (planes.all (· == p) = true → (c.storeHalt p).lbs.halt = none ∧ (c.storeHalt p).on LBS_STATUS_HALTED = true)
    ∧ (planes.all (· == p) = false → (c.storeHalt p).lbs.halt = some (n, planes.filter (· != p))) := by
  have hempty : (planes.filter (· != p)).isEmpty = planes.all (· == p) := by
    rw [Bool.eq_iff_iff, List.isEmpty_iff, List.filter_eq_nil_iff, List.all_eq_true]
    simp
  rw [Chip.storeHalt_stages h, hempty]
  refine ⟨fun hall => ?_, fun hall => ?_⟩ <;> rw [hall]
  · refine ⟨?_, ?_⟩
    · exact congrArg Lbs.halt ((Chip.post_lbs ..).trans (Chip.wr_lbs ..))
    · exact (congrArg (· != 0) (Chip.rd_post _ _ _ _ _ _ (by decide))).trans (Chip.on_set_same _ rfl (by decide))
  · rfl

/-! ### The rows of a presentation -/

theorem Chip.present_sound (hs : s < 332) (hst : 2 ≤ c.planeState p) (hp : c.srcPlane s = p) (hl : c.leadOf s = s) (h2 : srcKind s ≠ 2) (h3 : srcKind s ≠ 3)
    (hv : c.srcValid s = true) (hc : c.srcCause s = 0) (hf : c.dramFailed = false)
    (hlate : 1 < srcKind s ∨ c.on (FSY_SRC_CTL_ALLOW_FS s) = true ∨ c.frameLate s = false) {ue : Bool} {conceal : Nat} (hue : ue = false ∨ conceal = 0)
    (clean : Bool) :
    ((c.present s p clean ue conceal).src s).last = some (((c.src s).last.map Prod.fst).getD 0 + 1, c.now)
    ∧ ((c.present s p clean ue conceal).src s).soiled = (c.syncCarries s && conceal != 0)
    ∧ (srcKind s ≤ 1 → (c.present s p clean ue conceal).on (FSY_SRC_STAT_PROMOTED s) = c.syncCarries s)
    ∧ ((c.present s p clean ue conceal).src s).whole = (if (c.src s).lostAt < c.now then (c.src s).whole + 1 else (c.src s).whole) := by
  obtain ⟨hlead, -, -, hdram, hhist, hnow, -, hprom⟩ := Chip.chosenOn_keeps hs hl hv hc (c.syncCarries s) (c.on (FSY_SRC_STAT_PROMOTED s))
  obtain ⟨h4, h5, h6, h7⟩ := Chip.presentValid_shows hs (hdram.trans hf) hue clean (c.syncCarries s) (c.on (FSY_SRC_STAT_PROMOTED s))
  rw [← Chip.presentOwn_sound hs hl hv hc hlate] at h4 h5 h6 h7
  simp only [Src.history, Prod.mk.injEq] at hhist
  obtain ⟨hl4, hl6, hlost⟩ := hhist
  rw [hl4, hnow] at h4
  rw [hl6, hlost, hnow] at h6
  have hpage : (FSY_SRC_STAT_PROMOTED s).off / 65536 ≠ 96 := by rw [show (FSY_SRC_STAT_PROMOTED s).off / 65536 = 12 from Fld.stat_page hs]; decide
  rw [Chip.present_own hst hp h2 h3, Chip.src_presentEnds hs, Chip.on, Chip.rd_presentEnds hs _ hpage]
  exact ⟨h4, h5, fun hk => h7.trans (hprom hk), h6⟩

theorem Chip.present_late (hs : s < 332) (hst : 2 ≤ c.planeState p) (hp : c.srcPlane s = p) (hl : c.leadOf s = s) (hk : srcKind s ≤ 1)
    (hv : c.srcValid s = true) (hc : c.srcCause s = 0) (hfs : c.on (FSY_SRC_CTL_ALLOW_FS s) = false) (hlate : c.frameLate s = true)
    (clean ue : Bool) (conceal : Nat) :
    (c.present s p clean ue conceal).srcValid s = false ∧ (c.present s p clean ue conceal).rd (FSY_SRC_STAT_CAUSE s) = 5 := by
  obtain ⟨h1, h2⟩ := Chip.presentOwn_late hs hk hl hv hc hfs hlate clean ue conceal
  have hpage : ∀ lo w, ((FSY_SRC_STAT s).fld lo w).off / 65536 ≠ 96 := fun lo w => by rw [Fld.stat_page hs]; decide
  rw [Chip.present_own hst hp (by omega) (by omega)]
  exact ⟨(congrArg (· != 0) (Chip.rd_presentEnds hs _ (hpage 0 1))).trans h1, (Chip.rd_presentEnds hs _ (hpage 8 4)).trans h2⟩

theorem Chip.present_lost (hs : s < 332) (hst : 2 ≤ c.planeState p) (hp : c.srcPlane s = p) (hl : c.leadOf s = s) (hk : srcKind s ≤ 1)
    (hv : c.srcValid s = true) (hc : c.srcCause s = 0) (hf : c.dramFailed = false) (hfs : c.on (FSY_SRC_CTL_ALLOW_FS s) = true)
    (hcarry : c.syncCarries s = true) {conceal : Nat} (hlines : conceal ≠ 0) (clean : Bool) :
    (c.present s p clean true conceal).srcValid s = false ∧ (c.present s p clean true conceal).rd (FSY_SRC_STAT_CAUSE s) = 6
    ∧ (c.present s p clean true conceal).rd (FSY_SRC_BADLINES_COUNT s)
      = min (2 ^ (FSY_SRC_BADLINES_COUNT s).w - 1) (c.rd (FSY_SRC_BADLINES_COUNT s) + conceal) := by
  obtain ⟨hlead, hval, hcause, hdram, -, -, hcount, -⟩ := Chip.chosenOn_keeps hs hl hv hc true (c.on (FSY_SRC_STAT_PROMOTED s))
  obtain ⟨h1, h2, h3⟩ := Chip.presentValid_lost hs hk hlead hval hcause (hdram.trans hf) hlines clean (c.on (FSY_SRC_STAT_PROMOTED s))
  have hown := Chip.presentOwn_sound hs hl hv hc (.inr (.inl hfs)) clean true conceal
  rw [hcarry] at hown
  rw [← hown] at h1 h2 h3
  rw [hcount] at h3
  have hpage : ∀ lo w, ((FSY_SRC_STAT s).fld lo w).off / 65536 ≠ 96 := fun lo w => by rw [Fld.stat_page hs]; decide
  have hcnt : (FSY_SRC_BADLINES_COUNT s).off / 65536 ≠ 96 := by simp only [FSY_SRC_BADLINES_COUNT, FSY_SRC_BADLINES, Reg.fld]; omega
  rw [Chip.present_own hst hp (by omega) (by omega)]
  exact ⟨(congrArg (· != 0) (Chip.rd_presentEnds hs _ (hpage 0 1))).trans h1, (Chip.rd_presentEnds hs _ (hpage 8 4)).trans h2,
    (Chip.rd_presentEnds hs _ hcnt).trans h3⟩

theorem Chip.present_cross (hs : s < 332) (hst : 2 ≤ c.planeState p) (hon : c.presentsOn s p = false) (hl : c.leadOf s = s) (hx : c.crossOn s p = true)
    (hv : c.srcValid s = true) (hf : c.dramFailed = false) (hd : (c.src s).xdecision = none) {ue : Bool} {conceal : Nat} (hue : ue = false ∨ conceal = 0)
    (clean : Bool) : ((c.present s p clean ue conceal).src s).xshown
      = ((newestReady (c.src s).xframes (c.linePeriod s) c.now).map RingFrame.n).getD (c.src s).xshown := by
  have hsrc := Chip.src_of_srcs ((Chip.tellSync_within (c.presentCross s p ue conceal) c s true).part .srcs (by decide)) s
  rw [Chip.present_stages, if_neg (by omega), if_neg (by simp [hon]), hsrc]
  exact Chip.presentCross_shows hs hl hx hv hf hd hue

/-- The source of a playback channel presents what the channel shows. -/
theorem Chip.present_play_shows (hk : k < 48) (hq : p < 2) (hst : 2 ≤ c.planeState p) (hp : c.srcPlane (272 + k) = p) (hrun : c.lbs.stopped = false)
    (hd : c.playDue k p = false) (clean ue : Bool) (conceal : Nat) :
    (∀ f : Fld, f.off / 65536 = 16 → (c.present (272 + k) p clean ue conceal).rd f = ((c.pauseGrow k false).playShow k [] conceal ue).rd f)
    ∧ (c.present (272 + k) p clean ue conceal).play k = ((c.pauseGrow k false).playShow k [] conceal ue).play k := by
  have hkind : srcKind (272 + k) = 3 := by rcases srcKind_cases (272 + k) with h | h | h | h | h | h <;> omega
  have hrest := Chip.presentRest_keeps (c := (c.pauseGrow k false).playShow k [] conceal ue) (show 272 + k < 332 by omega) clean ue conceal
  rw [Chip.present_play hkind hst hp, Nat.add_sub_cancel_left, Chip.playPresent_plain hk hq hrun hd]
  exact ⟨hrest.1, hrest.2 k⟩

theorem Chip.storeHalt_recs {n : Nat} {planes : List Nat} (h : c.lbs.halt = some (n, planes)) (hr : r < 48) (hp : c.dstPlane (272 + r) = p) :
    (c.storeHalt p).on (LBS_REC_CTL_ENABLE r) = false ∧ (c.storeHalt p).rd (LBS_REC_HIST_HISTORY r) = 0 := by
  obtain ⟨h1, h2⟩ := Chip.planeHalts_recs hr hp
  refine ⟨(congrArg (· != 0) (Chip.storeHalt_keeps h ?_ ?_)).trans h1, (Chip.storeHalt_keeps h ?_ ?_).trans h2⟩ <;>
    simp only [LBS_REC_CTL_ENABLE, LBS_REC_CTL, LBS_REC_HIST_HISTORY, LBS_REC_HIST, LBS_STATUS, Reg.fld] <;> omega

theorem Chip.storeHalt_plays {n : Nat} {planes : List Nat} (h : c.lbs.halt = some (n, planes)) (hq : q < 48) (hp : c.dstPlane (272 + c.carafeOf q) = p) :
    (c.storeHalt p).on (LBS_PB_CTL_ENABLE q) = false := by
  refine (congrArg (· != 0) (Chip.storeHalt_keeps h ?_ ?_)).trans (Chip.planeHalts_plays hq hp) <;>
    simp only [LBS_PB_CTL_ENABLE, LBS_PB_CTL, LBS_STATUS, Reg.fld] <;> omega

end

/-! ### What the frame of a command leaves -/

section
variable (s : State) (c : Chip)

theorem State.commit_regs : (s.commit c).chip.regs = c.regs := rfl
theorem State.commit_src (i : Nat) : (s.commit c).chip.src i = c.src i := Chip.src_of_srcs (State.commit_srcs ..) i
theorem State.commit_play (k : Nat) : (s.commit c).chip.play k = c.play k := Chip.play_of_lbs (State.commit_lbs ..) k
theorem State.commit_srcValid (i : Nat) : (s.commit c).chip.srcValid i = c.srcValid i := State.commit_on ..

end

/-! ### The obligation -/

/-- Settles O37: a presentation brings no cause of its own, so that a sound source shows its frame; what makes it invalid is read off the list of its
causes after the one change, and the store's rows write the channels of their plane. -/
theorem presentationsAndStore : Obligations.PresentationsAndStore := by
  unfold Obligations.PresentationsAndStore
  refine ⟨⟨?_, ?_, ?_, ?_, ?_, ?_, ?_⟩, ?_, ?_, ?_⟩
  · rintro s t x p clean ue conceal c rfl hlive hoff hst hp hl h2 h3 hv hc hf hlate hue
    refine ⟨_, State.presentation_row hlive hoff, ?_⟩
    rw [State.commit_src, State.commit_on]
    exact Chip.present_sound x.isLt hst hp hl h2 h3 hv hc hf hlate hue clean
  · rintro s t x p clean ue conceal c rfl hlive hoff hst hp hl hk hv hc hfs hlate
    refine ⟨_, State.presentation_row hlive hoff, ?_⟩
    rw [State.commit_srcValid, State.commit_rd]
    exact Chip.present_late x.isLt hst hp hl hk hv hc hfs hlate clean ue conceal
  · rintro s t x p clean conceal c rfl hlive hoff hst hp hl hk hv hc hf hfs hcarry hlines
    refine ⟨_, State.presentation_row hlive hoff, ?_⟩
    rw [State.commit_srcValid, State.commit_rd, State.commit_rd]
    exact Chip.present_lost x.isLt hst hp hl hk hv hc hf hfs hcarry hlines clean
  · rintro s t x p clean ue conceal c rfl hlive hoff hst hon hl hx hv hf hd hue
    refine ⟨_, State.presentation_row hlive hoff, ?_⟩
    rw [State.commit_src]
    exact Chip.present_cross x.isLt hst hon hl hx hv hf hd hue clean
  · rintro s t k x p clean conceal c rfl hlive hx hoff hst hp hen hrun hdue
    obtain ⟨hen', hgaps⟩ := Chip.pauseGrow_keeps (c := s.chipAt t) k.isLt false
    obtain ⟨h1, h2, h3⟩ := Chip.playShow_gap k.isLt (hen'.trans hen) conceal
    obtain ⟨hrd, hplay⟩ := Chip.present_play_shows k.isLt p.isLt hst (hx ▸ hp) hrun hdue clean true conceal
    rw [← hx] at hrd hplay
    rw [hgaps] at h3
    have hk := k.isLt
    refine ⟨_, State.presentation_row hlive hoff, ?_⟩
    rw [State.commit_on, State.commit_play, State.commit_rd]
    refine ⟨(congrArg (· != 0) (hrd _ ?_)).trans h1, (congrArg Play.shown hplay).trans h2, (hrd _ ?_).trans h3⟩ <;>
      simp only [LBS_PB_STAT_GAP_SEEN, LBS_PB_STAT, LBS_PB_CNT_GAP_FRAMES, LBS_PB_CNT, Reg.fld] <;> omega
  · rintro s t k x p clean conceal n c rfl hlive hx hoff hst hp hen hrun hdue hmode hn htag
    have hgrow : (s.chipAt t).pauseGrow k.val false = s.chipAt t := by simp [Chip.pauseGrow, hmode]
    have hat : (s.chipAt t).playAt k.val false = some ((s.chipAt t).carafeOf k.val, n) := by
      simp only [Chip.playAt, ← hn, Nat.add_sub_cancel, htag]
      simp
    obtain ⟨h1, h2, h3⟩ := Chip.playShow_recorded k.isLt hen hat conceal
    obtain ⟨hrd, hplay⟩ := Chip.present_play_shows k.isLt p.isLt hst (hx ▸ hp) hrun hdue clean false conceal
    rw [← hx, hgrow] at hrd hplay
    have hk := k.isLt
    refine ⟨_, State.presentation_row hlive hoff, ?_⟩
    rw [State.commit_play, State.commit_rd, State.commit_rd]
    refine ⟨(congrArg Play.shown hplay).trans h1, (hrd _ ?_).trans h2, (hrd _ ?_).trans h3⟩ <;>
      simp only [LBS_PB_CNT_CONCEAL_LINES, LBS_PB_CNT_GAP_FRAMES, LBS_PB_CNT, Reg.fld] <;> omega
  · rintro s t x p clean ue conceal c rfl hlive hst
    have hnone : ((s.chipAt t).when (srcOffered (s.chipAt t).role x.val) (·.present x.val p.val clean ue conceal)) = s.chipAt t := by
      rcases Bool.eq_false_or_eq_true (srcOffered (s.chipAt t).role x.val) with h | h <;> rw [h]
      · exact (Chip.present_stages ..).trans (if_pos hst)
      · rfl
    refine ⟨_, State.event_live s t _ hlive, ?_⟩
    rw [State.commit_regs, State.commit_srcs, hnone]
    exact ⟨rfl, rfl⟩
  · rintro s t k c rfl hlive hdue hrun h0 h1
    have hrow : (s.chipAt t).pauseRow k.val = (s.chipAt t).pauseExpire k.val := by
      have hcond : (!(s.chipAt t).lbs.stopped && (s.chipAt t).pauseDue k.val && !((s.chipAt t).playDue k.val 0) && !((s.chipAt t).playDue k.val 1))
          = true := by simp [hrun, hdue, h0, h1]
      rw [Chip.pauseRow, hcond, Chip.when_true]
    obtain ⟨h2, h3, h4, h5⟩ := Chip.pauseExpire_shows (c := s.chipAt t) k.isLt
    rw [← hrow] at h2 h3 h4 h5
    refine ⟨_, State.event_live s t _ hlive, ?_⟩
    rw [State.commit_on, State.commit_on, State.commit_on, State.commit_rd]
    exact ⟨h2, h3, h4, h5⟩
  · rintro s t k c rfl hno
    have hrow : (s.chipAt t).pauseRow k.val = s.chipAt t := by
      unfold Chip.pauseRow
      rcases hno with h | h | h | h <;> simp [h]
    rcases Bool.eq_false_or_eq_true (s.chipAt t).live with hlive | hlive
    · exact ⟨_, State.event_live s t _ hlive, (State.commit_regs ..).trans (congrArg Chip.regs hrow)⟩
    · exact ⟨_, State.event_held s t _ hlive, State.commit_regs ..⟩
  · rintro s t p n planes c rfl hlive hhalt
    obtain ⟨h1, h2⟩ := Chip.storeHalt_ends (p := p.val) hhalt
    refine ⟨_, State.event_live s t _ hlive, ?_⟩
    rw [State.commit_lbs, State.commit_on]
    refine ⟨List.all_eq_true.2 fun r hr => ?_, List.all_eq_true.2 fun q hq => ?_, h1, h2⟩
    · by_cases hp : (s.chipAt t).dstPlane (272 + r) = p.val
      · obtain ⟨h3, h4⟩ := Chip.storeHalt_recs hhalt (List.mem_range.1 hr) hp
        rw [State.commit_on, State.commit_rd, h3, h4]
        simp
      · simp [hp]
    · by_cases hp : (s.chipAt t).dstPlane (272 + (s.chipAt t).carafeOf q) = p.val
      · rw [State.commit_on, Chip.storeHalt_plays hhalt (List.mem_range.1 hq) hp]
        simp
      · simp [hp]

end Sys2Proof.Machine
end

section
/-! SUPPORT. The operations of a link (R348 to R355): what they write of its registers, and where they leave its directions. -/

namespace Sys2Proof.Machine

/-! ### The lowest lanes of a set -/

theorem lowest_subset {m k : Nat} (hm : m < 16) (hk : k ≤ 4) : lowest m k &&& m = lowest m k := by
  have hall : ∀ m < 16, ∀ k ≤ 4, lowest m k &&& m = lowest m k := by decide
  exact hall m hm k hk

theorem lowest_pos {m k : Nat} (hm : m < 16) (h0 : m ≠ 0) (hk : k ≤ 4) (hk0 : k ≠ 0) : lowest m k ≠ 0 := by
  have hall : ∀ m < 16, m ≠ 0 → ∀ k ≤ 4, k ≠ 0 → lowest m k ≠ 0 := by decide
  exact hall m hm h0 k hk hk0

theorem bitCount_pos {m : Nat} (hm : m < 16) (h0 : m ≠ 0) : bitCount m ≠ 0 := by
  have hall : ∀ m < 16, m ≠ 0 → bitCount m ≠ 0 := by decide
  exact hall m hm h0

section
variable {c d : Chip} {l : Nat} {f : Fld}

/-! ### The registers of a link follow its directions -/

/-- The field stands apart from the live fields of the link registers FAB_LK_STAT and is not on the page of the event ring. -/
def Fld.notLinkLive (f : Fld) : Prop := f.off / 65536 ≠ 1 ∧ ∀ l < 48, (FAB_LK_STAT_STATE l).apart f = true ∧ (FAB_LK_STAT_RX_WIDTH l).apart f = true
  ∧ (FAB_LK_STAT_TX_WIDTH l).apart f = true ∧ (FAB_LK_STAT_RX_UP l).apart f = true ∧ (FAB_LK_STAT_REMAPPED l).apart f = true

theorem Fld.notLinkLive_of_off (hp : f.off / 65536 ≠ 1) (h : f.off < 0x302100 ∨ 0x3021c0 ≤ f.off) : f.notLinkLive := by
  refine ⟨hp, fun l hl => ?_⟩
  have hapart : ∀ lo w, ((FAB_LK_STAT l).fld lo w).apart f = true := fun lo w =>
    Fld.apart_of_off (by simp only [FAB_LK_STAT, Reg.fld]; omega)
  exact ⟨hapart 0 3, hapart 3 2, hapart 5 2, hapart 7 4, hapart 15 1⟩

/-- What FAB_LK_STAT shows of a link at work: its lanes and widths, before its state. -/
def Chip.linkWidths (c : Chip) (l : Nat) : Chip :=
  (((c.wr (FAB_LK_STAT_RX_UP l) (c.rxUp l)).wrB (FAB_LK_STAT_REMAPPED l) ((c.linkLanes l).any fun n => c.lnUsable n && (c.lane n).llane != n - l)).wr
    (FAB_LK_STAT_RX_WIDTH l) (if (c.link l).rx = .up then widthCode (bitCount (c.link l).rxUse) else 0)).wr
    (FAB_LK_STAT_TX_WIDTH l) (if (c.link l).tx = .up then widthCode (bitCount (c.link l).txUse) else 0)

/-- The state that FAB_LK_STAT shows of a link at work. -/
def Chip.linkState (c : Chip) (l old : Nat) : Nat :=
  if old = 5 then 5 else if (c.link l).rx = .reforming then 4 else if (c.link l).rx == .up && (c.link l).tx == .up then 3
    else if (c.link l).tx = .up ∨ (c.link l).rx = .up ∨ c.rxUp l ≠ 0 then 2 else 1

theorem Chip.linkShow_stages (h : c.linkWidth l ≠ 0) : c.linkShow l =
    ((c.linkWidths l).wr (FAB_LK_STAT_STATE l) (c.linkState l ((c.linkWidths l).rd (FAB_LK_STAT_STATE l)))).when
      ((c.link l).rx == .up && (c.link l).tx == .up && !(c.link l).wasUp) fun d =>
        (d.setLink l { c.link l with wasUp := true }).post 0x09 0x0007 l (bitCount (c.link l).rxUse) := if_neg h

theorem Chip.links_linkWidths : (c.linkWidths l).links = c.links := by
  simp only [Chip.linkWidths, Chip.wrB, Chip.wr_links]

theorem Chip.rd_linkWidths (hl : l < 48) (hf : f.notLinkLive) : (c.linkWidths l).rd f = c.rd f := by
  obtain ⟨-, hall⟩ := hf
  obtain ⟨-, hrw, htw, hru, hre⟩ := hall l hl
  rw [Chip.linkWidths, Chip.rd_wr_keeps _ _ htw, Chip.rd_wr_keeps _ _ hrw, Chip.rd_wrB_keeps _ _ hre, Chip.rd_wr_keeps _ _ hru]

theorem Chip.rd_linkWidths_state : (c.linkWidths l).rd (FAB_LK_STAT_STATE l) = c.rd (FAB_LK_STAT_STATE l) := by
  simp (disch := grind [Fld.apart, Reg.fld, FAB_LK_STAT, FAB_LK_STAT_RX_UP, FAB_LK_STAT_REMAPPED, FAB_LK_STAT_RX_WIDTH, FAB_LK_STAT_TX_WIDTH,
    FAB_LK_STAT_STATE]) only [Chip.linkWidths, Chip.rd_wr_keeps, Chip.rd_wrB_keeps]

theorem Chip.rd_linkShow_other (hl : l < 48) (hf : f.notLinkLive) : (c.linkShow l).rd f = c.rd f := by
  have hst := (hf.2 l hl).1
  by_cases h : c.linkWidth l = 0
  · rw [Chip.linkShow, if_pos h, Chip.rd_wr_keeps _ _ hst]
  · rw [Chip.linkShow_stages h, Chip.rd_when, Chip.rd_post _ _ _ _ _ _ hf.1, Chip.setLink_rd, ite_self, Chip.rd_wr_keeps _ _ hst,
      Chip.rd_linkWidths hl hf]

theorem Chip.link_of_links (h : d.links = c.links) (k : Nat) : d.link k = c.link k := congrArg (tget ({} : Link) · k) h

theorem Chip.link_linkShow (c : Chip) (l : Nat) : ∃ b, (c.linkShow l).link l = { c.link l with wasUp := b } := by
  by_cases h : c.linkWidth l = 0
  · rw [Chip.linkShow, if_pos h]
    exact ⟨(c.link l).wasUp, Chip.link_of_links (Chip.wr_links ..) l⟩
  · rw [Chip.linkShow_stages h]
    rcases Chip.when_cases _ _ _ with h | h <;> rw [h]
    · exact ⟨(c.link l).wasUp, Chip.link_of_links ((Chip.wr_links ..).trans Chip.links_linkWidths) l⟩
    · exact ⟨true, (Chip.link_of_links (Chip.post_links ..) l).trans ((Chip.link_setLink ..).trans (if_pos rfl))⟩

theorem Chip.link_linkShow_dirs (c : Chip) (l : Nat) : ((c.linkShow l).link l).rx = (c.link l).rx ∧ ((c.linkShow l).link l).tx = (c.link l).tx
    ∧ ((c.linkShow l).link l).txUse = (c.link l).txUse := by
  obtain ⟨b, hb⟩ := c.link_linkShow l
  rw [hb]
  exact ⟨rfl, rfl, rfl⟩

theorem Chip.linkState_lt (c : Chip) (l old : Nat) : c.linkState l old < 2 ^ 3 := by
  unfold Chip.linkState
  split_ifs <;> decide

theorem Chip.rd_linkShow_state (hl : l < 48) (h : c.linkWidth l ≠ 0) :
    (c.linkShow l).rd (FAB_LK_STAT_STATE l) = c.linkState l (c.rd (FAB_LK_STAT_STATE l)) := by
  have hpage : (FAB_LK_STAT_STATE l).off / 65536 ≠ 1 := by
    simp only [FAB_LK_STAT_STATE, FAB_LK_STAT, Reg.fld]
    omega
  rw [Chip.linkShow_stages h, Chip.rd_when, Chip.rd_post _ _ _ _ _ _ hpage, Chip.setLink_rd, ite_self, Chip.rd_linkWidths_state]
  exact Chip.rd_wr_val _ _ (by decide : (0 : Nat) + 3 ≤ 32) (Chip.linkState_lt ..)

/-! ### The slots of a link -/

/-- The presence that a slot of a link shows. -/
def Chip.slotShown (c : Chip) (i : Nat) (was now : Bool) : Chip := (c.wrB (FAB_SLOT_STAT_RX_PRESENT i) now).when was (·.set (FAB_SLOT_STAT_RX_LOST_SEEN i))

/-- The source of a slot follows the presence of the slot. -/
def Chip.slotJudged (c : Chip) (i : Nat) (was : Bool) : Chip :=
  (c.when (was && c.role == 1 && c.slotLost (c.fabIdx i)) (·.set FAB_STATUS_BOTH_LOST)).judgeSrc (48 + c.fabIdx i)

/-- The field stands apart from what the slots of links and the sources on them show. -/
def Fld.notSlotLive (f : Fld) : Prop := f.off / 65536 ∉ [1, 8, 12, 64] ∧ (f.off < 0x303400 ∨ 0x303800 ≤ f.off)
  ∧ FAB_STATUS_BOTH_LOST.apart f = true

theorem Chip.rd_slotShown (hf : f.notSlotLive) {i : Nat} (hi : i < 208) (was now : Bool) : (c.slotShown i was now).rd f = c.rd f := by
  obtain ⟨-, hoff, -⟩ := hf
  have hslot (lo w : Nat) : ((FAB_SLOT_STAT i).fld lo w).apart f = true := Fld.apart_of_off (by simp only [FAB_SLOT_STAT, Reg.fld]; omega)
  have hlost : (FAB_SLOT_STAT_RX_LOST_SEEN i).apart f = true := hslot 17 1
  have hpresent : (FAB_SLOT_STAT_RX_PRESENT i).apart f = true := hslot 1 1
  rw [Chip.slotShown, Chip.rd_when, Chip.rd_set_keeps _ hlost, ite_self, Chip.rd_wrB_keeps _ _ hpresent]

theorem Chip.rd_slotJudged (hf : f.notSlotLive) {i : Nat} (hi : i < 208) (was : Bool) : (c.slotJudged i was).rd f = c.rd f := by
  obtain ⟨hp, -, hboth⟩ := hf
  have hle : c.fabIdx i ≤ i := Chip.fabIdx_le
  rw [Chip.slotJudged, (Chip.judgeSrc_within (by omega) .refl (by decide) (by decide) : Chip.Within [1, 8, 12, 64] [.srcs] _ _).rd hp,
    Chip.rd_when, Chip.rd_set_keeps _ hboth, ite_self]

theorem Chip.rd_linkSlots (hl : l < 48) (hf : f.notSlotLive) : (c.linkSlots l).rd f = c.rd f := by
  have hw := c.linkWidth_le l
  unfold Chip.linkSlots
  refine Chip.each_keeps (·.rd f) _ _ (fun d s hs => ?_) c
  have hs := List.mem_range.1 hs
  dsimp only
  split
  · rfl
  · exact (Chip.rd_slotJudged hf (by omega) _).trans (Chip.rd_slotShown hf (by omega) _ _)

theorem Chip.linkSlots_part (hl : l < 48) : (c.linkSlots l).links = c.links ∧ (c.linkSlots l).lanes = c.lanes :=
  have h := (Chip.linkSlots_within hl .refl (by decide) (by decide) : Chip.Within [1, 8, 12, 48, 64] [.srcs] c _)
  ⟨h.part .links (by decide), h.part .lanes (by decide)⟩

theorem Chip.links_linkCarried (hl : l < 48) : (c.linkCarried l).links = c.links :=
  (Chip.linkCarried_within hl .refl (by decide) (by decide) : Chip.Within [48] [] c _).part .links (by decide)

theorem Chip.rd_linkCarried (hl : l < 48) (h : f.off < 0x303400 ∨ 0x303800 ≤ f.off) : (c.linkCarried l).rd f = c.rd f := by
  have hw := c.linkWidth_le l
  unfold Chip.linkCarried
  refine Chip.each_keeps (·.rd f) _ _ (fun d s hs => ?_) c
  have hs := List.mem_range.1 hs
  exact Chip.rd_wrB_keeps _ _ (Fld.apart_of_off (by simp only [FAB_SLOT_STAT_CARRIED, FAB_SLOT_STAT, Reg.fld]; omega))

/-! ### The lanes of a link -/

theorem Chip.rxUp_congr (hw : d.linkWidth l = c.linkWidth l) (hlanes : d.lanes = c.lanes)
    (hst : ∀ n < l + 4, d.rd (lnState n) = c.rd (lnState n)) : d.rxUp l = c.rxUp l := by
  have hlane (n : Nat) : d.lane n = c.lane n := congrArg (tget ({} : FabLane) · n) hlanes
  have hle := c.linkWidth_le l
  have hmem : d.linkLanes l = c.linkLanes l := by rw [Chip.linkLanes, hw, Chip.linkLanes]
  have huse : (c.linkLanes l).filter d.lnUsable = (c.linkLanes l).filter c.lnUsable := List.filter_congr fun n hn => by
    obtain ⟨i, hi, rfl⟩ := List.mem_map.1 hn
    have hi := List.mem_range.1 hi
    unfold Chip.lnUsable Chip.lnSt
    rw [hlane, hst _ (by omega)]
  simp only [Chip.rxUp, hmem, huse, hlane]

theorem lnState_off {n : Nat} (hn : n < 52) : (0x301100 ≤ (lnState n).off ∧ (lnState n).off < 0x301200)
    ∨ (0x701100 ≤ (lnState n).off ∧ (lnState n).off < 0x701200) := by
  have hoff : (lnState n).off = lnBase n + 0x100 := by rw [lnState, lnStat_eq]; rfl
  rw [hoff]
  unfold lnBase
  split <;> omega

theorem Fld.notSlotLive_of_off (h : 0x301000 ≤ f.off ∧ f.off < 0x303400 ∨ 0x700000 ≤ f.off ∧ f.off < 0x710000) : f.notSlotLive := by
  refine ⟨?_, by omega, Fld.apart_of_off (by simp only [FAB_STATUS_BOTH_LOST, FAB_STATUS, Reg.fld]; omega)⟩
  simp only [List.mem_cons, List.not_mem_nil, or_false]
  omega

theorem FAB_LK_STAT_notSlotLive {lo w : Nat} (hl : l < 48) : ((FAB_LK_STAT l).fld lo w).notSlotLive :=
  Fld.notSlotLive_of_off (by simp only [FAB_LK_STAT, Reg.fld]; omega)

theorem Chip.linkWidth_linkSlots (hl : l < 48) : (c.linkSlots l).linkWidth l = c.linkWidth l :=
  congrArg widthOf (Chip.rd_linkSlots hl (Fld.notSlotLive_of_off (by simp only [FAB_LK_CFG_WIDTH, FAB_LK_CFG, Reg.fld]; omega)))

theorem Chip.rxUp_linkSlots (hl : l < 48) : (c.linkSlots l).rxUp l = c.rxUp l :=
  Chip.rxUp_congr (Chip.linkWidth_linkSlots hl) (Chip.linkSlots_part hl).2 fun n hn => Chip.rd_linkSlots hl (Fld.notSlotLive_of_off (by
    have := lnState_off (show n < 52 by omega)
    omega))

theorem Chip.rxUp_setLink (x : Link) : (c.setLink l x).rxUp l = c.rxUp l :=
  Chip.rxUp_congr (congrArg widthOf (Chip.setLink_rd ..)) (Chip.setLink_lanes ..) fun n _ => Chip.setLink_rd ..

end
end Sys2Proof.Machine
end

section
/-! SUPPORT. The events of links (R348 to R358). -/

namespace Sys2Proof.Machine

section
variable {c d : Chip} {l : Nat} {f : Fld}

/-! ### A link goes down (R353) -/

/-- The flags and the counter of a link that goes down. -/
def Chip.downShown (c : Chip) (l cause : Nat) : Chip :=
  c.when (c.link l).wasUp fun c => (((c.set (FAB_LK_STAT_DOWN_SEEN l)).inc (FAB_LK_CNT_DOWNS l)).set FAB_STATUS_LINK_DOWN).post 0x09 0x0008 l cause

/-- What a link that is down keeps. -/
def Link.fallen (x : Link) : Link := { since := x.since, first := x.first, lastBlock := x.lastBlock, bornAt := x.bornAt }

theorem Chip.linkDown_stages (c : Chip) (l cause : Nat) : c.linkDown l cause =
    ((((c.downShown l cause).setLink l (c.link l).fallen).linkSlots l).linkCarried l).linkShow l := rfl

theorem Chip.rd_linkDown_after (hl : l < 48) (cause : Nat) (hf : f.notSlotLive) (hs : f.notLinkLive) (hoff : f.off < 0x303400 ∨ 0x303800 ≤ f.off) :
    (c.linkDown l cause).rd f = (c.downShown l cause).rd f := by
  rw [Chip.linkDown_stages, Chip.rd_linkShow_other hl hs, Chip.rd_linkCarried hl hoff, Chip.rd_linkSlots hl hf, Chip.setLink_rd]

theorem Chip.linkDown_link (hl : l < 48) (cause : Nat) : ((c.linkDown l cause).link l).rx = .down ∧ ((c.linkDown l cause).link l).tx = .down := by
  rw [Chip.linkDown_stages]
  obtain ⟨hrx, htx, -⟩ := ((((c.downShown l cause).setLink l (c.link l).fallen).linkSlots l).linkCarried l).link_linkShow_dirs l
  have hlink : ((((c.downShown l cause).setLink l (c.link l).fallen).linkSlots l).linkCarried l).link l = (c.link l).fallen :=
    (Chip.link_of_links ((Chip.links_linkCarried hl).trans (Chip.linkSlots_part hl).1) l).trans ((Chip.link_setLink ..).trans (if_pos rfl))
  rw [hrx, htx, hlink]
  exact ⟨rfl, rfl⟩

theorem Chip.downShown_shows (hl : l < 48) (cause : Nat) (hup : (c.link l).wasUp = true) :
    (c.downShown l cause).on (FAB_LK_STAT_DOWN_SEEN l) = true ∧ (c.downShown l cause).on FAB_STATUS_LINK_DOWN = true
      ∧ (c.downShown l cause).rd (FAB_LK_CNT_DOWNS l) = min (2 ^ (FAB_LK_CNT_DOWNS l).w - 1) (c.rd (FAB_LK_CNT_DOWNS l) + 1) := by
  have hfits : (FAB_LK_CNT_DOWNS l).fits = true ∧ (FAB_LK_STAT_DOWN_SEEN l).fits = true ∧ FAB_STATUS_LINK_DOWN.fits = true := by
    simp [Fld.fits_iff, FAB_LK_CNT_DOWNS, FAB_LK_STAT_DOWN_SEEN, FAB_STATUS_LINK_DOWN, Reg.fld]
  obtain ⟨hcnt, hseen, hdown⟩ := hfits
  rw [Chip.downShown, hup, Chip.when_true]
  refine ⟨?_, ?_, ?_⟩
  · simp (disch := grind [Fld.apart, Reg.fld, FAB_LK_STAT_DOWN_SEEN, FAB_LK_STAT, FAB_LK_CNT_DOWNS, FAB_LK_CNT, FAB_STATUS_LINK_DOWN, FAB_STATUS]) only
      [Chip.on_post, Chip.on_set_keeps, Chip.on_inc_keeps]
    exact Chip.on_set_same _ hseen one_ne_zero
  · rw [Chip.on_post _ _ _ _ _ _ (by decide)]
    exact Chip.on_set_same _ hdown one_ne_zero
  · simp (disch := grind [Fld.apart, Reg.fld, FAB_LK_STAT_DOWN_SEEN, FAB_LK_STAT, FAB_LK_CNT_DOWNS, FAB_LK_CNT, FAB_STATUS_LINK_DOWN, FAB_STATUS]) only
      [Chip.rd_post, Chip.rd_set_keeps, Chip.rd_inc_same _ hcnt]

theorem FAB_LK_STAT_flag_notLinkLive {lo w : Nat} (hl : l < 48) (h : 16 ≤ lo) (hw : lo + w ≤ 32) : ((FAB_LK_STAT l).fld lo w).notLinkLive := by
  refine ⟨?_, fun k hk => ?_⟩
  · simp only [FAB_LK_STAT, Reg.fld]
    omega
  · have hapart : ∀ lo' w', lo' + w' ≤ 16 → ((FAB_LK_STAT k).fld lo' w').apart ((FAB_LK_STAT l).fld lo w) = true := fun lo' w' h' =>
      Fld.apart_of_clear rfl (by simp only [Fld.clearOf_iff, Reg.fld]; omega)
    exact ⟨hapart 0 3 (by omega), hapart 3 2 (by omega), hapart 5 2 (by omega), hapart 7 4 (by omega), hapart 15 1 (by omega)⟩

theorem Chip.linkDown_shows (hl : l < 48) (cause : Nat) (hup : (c.link l).wasUp = true) :
    (c.linkDown l cause).on (FAB_LK_STAT_DOWN_SEEN l) = true ∧ (c.linkDown l cause).on FAB_STATUS_LINK_DOWN = true
      ∧ (c.linkDown l cause).rd (FAB_LK_CNT_DOWNS l) = min (2 ^ (FAB_LK_CNT_DOWNS l).w - 1) (c.rd (FAB_LK_CNT_DOWNS l) + 1) := by
  have hstat : (FAB_LK_STAT_DOWN_SEEN l).off = 0x302100 + 4 * l := rfl
  have hcnt : (FAB_LK_CNT_DOWNS l).off = 0x302300 + 4 * l := rfl
  obtain ⟨hseen, hdown, hdowns⟩ := Chip.downShown_shows (c := c) hl cause hup
  refine ⟨?_, ?_, ?_⟩
  · exact (congrArg (· != 0) (Chip.rd_linkDown_after hl cause (FAB_LK_STAT_notSlotLive hl)
      (FAB_LK_STAT_flag_notLinkLive hl (by decide) (by decide)) (.inl (hstat.trans_lt (by omega))))).trans hseen
  · exact (congrArg (· != 0) (Chip.rd_linkDown_after hl cause ⟨by decide, .inl (by decide), by decide⟩
      (Fld.notLinkLive_of_off (by decide) (.inl (by decide))) (.inl (by decide)))).trans hdown
  · exact (Chip.rd_linkDown_after hl cause (Fld.notSlotLive_of_off (by omega)) (Fld.notLinkLive_of_off (by omega) (by omega))
      (.inl (by omega))).trans hdowns

/-! ### The transmitter chooses (R348, R349) -/

/-- The width a transmitter takes of a number of lanes. -/
def widthTaken (n : Nat) : Nat := if 4 ≤ n then 4 else if 2 ≤ n then 2 else n

theorem Chip.link_txChoose (hl : l < 48) (e : Nat) : ((c.txChoose l e).link l).tx = .up
    ∧ ((c.txChoose l e).link l).txUse = lowest e (widthTaken (min (bitCount e) (c.linkWidth l))) := by
  unfold Chip.txChoose
  dsimp only
  generalize hset : Chip.setLink c l _ = x
  have hx : (x.link l).tx = .up ∧ (x.link l).txUse = lowest e (widthTaken (min (bitCount e) (c.linkWidth l))) := by
    rw [← hset, Chip.link_setLink, if_pos rfl]
    exact ⟨rfl, rfl⟩
  generalize hdrops : Chip.each x _ _ = y
  have hy : y.links = x.links := by
    rw [← hdrops]
    refine Chip.each_keeps (·.links) _ _ (fun d s _ => ?_) x
    rw [Chip.post_links, Chip.set_def, Chip.wr_links, Chip.set_def, Chip.wr_links]
  obtain ⟨-, htx, huse⟩ := (y.linkCarried l).link_linkShow_dirs l
  have hlink : (y.linkCarried l).link l = x.link l := Chip.link_of_links ((Chip.links_linkCarried hl).trans hy) l
  rw [htx, huse, hlink]
  exact hx

theorem Chip.rd_txChoose (hl : l < 48) (e : Nat) (hf : f.notLinkLive) (h : 0x302000 ≤ f.off ∧ f.off < 0x303400) :
    (c.txChoose l e).rd f = c.rd f := by
  have hle := c.linkWidth_le l
  unfold Chip.txChoose
  dsimp only
  rw [Chip.rd_linkShow_other hl hf, Chip.rd_linkCarried hl (.inl h.2)]
  refine (Chip.each_keeps (·.rd f) _ _ (fun d s hs => ?_) _).trans (Chip.setLink_rd ..)
  have hs := List.mem_range.1 (List.mem_filter.1 (List.mem_filter.1 hs).1).1
  rw [Chip.rd_post _ _ _ _ _ _ hf.1, Chip.rd_set_keeps _ (Fld.apart_of_off (by simp only [FAB_STATUS_SLOT_DROPPED, FAB_STATUS, Reg.fld]; omega)),
    Chip.rd_set_keeps _ (Fld.apart_of_off (by simp only [FAB_SLOT_STAT_DROPPED_SEEN, FAB_SLOT_STAT, Reg.fld]; omega))]

theorem Chip.formTimeout_due {at_ : Nat} (h : (c.link l).first = some at_) (hw : c.linkWidth l ≠ 0) (htx : (c.link l).tx ≠ .up)
    (hat : at_ + ms 2 ≤ c.now) (hup : c.rd (FAB_LK_STAT_PEER_RX_UP l) ≠ 0) (hst : c.rd (FAB_LK_STAT_STATE l) ≠ 5) :
    c.formTimeout l = c.txChoose l (c.rd (FAB_LK_STAT_PEER_RX_UP l)) := by
  unfold Chip.formTimeout
  rw [h]
  exact if_pos ⟨hw, htx, hat, hup, hst⟩

theorem Chip.linkWiden_due (htx : (c.link l).tx = .up) (hne : c.eligible l (c.rd (FAB_LK_STAT_PEER_RX_UP l)) ≠ (c.link l).txUse)
    (hsub : c.eligible l (c.rd (FAB_LK_STAT_PEER_RX_UP l)) &&& (c.link l).txUse = (c.link l).txUse) :
    c.linkWiden l = c.txChoose l (c.eligible l (c.rd (FAB_LK_STAT_PEER_RX_UP l))) := if_pos ⟨htx, hne, hsub⟩

/-! ### A lane is not usable any more (R350, R353) -/

/-- The receive direction of a link reforms. -/
def Chip.reforms (c : Chip) (l : Nat) : Chip := (c.setLink l { c.link l with rx := .reforming }).linkSlots l

/-- The receive direction reforms where a lane in use is lost. -/
def Chip.reformsOn (c : Chip) (n l : Nat) : Chip := if (c.link l).rx = .up ∧ bit (c.link l).rxUse (c.lane n).llane then c.reforms l else c

theorem Chip.laneUnusable_stages {n : Nat} (hl : c.linkOf n = some l) (hu : c.lnUsable n = false) : c.laneUnusable n =
    if (c.reformsOn n l).rxUp l = 0 ∧ (c.link l).rx ≠ .down then (c.reformsOn n l).linkDown l 1 else (c.reformsOn n l).linkShow l := by
  unfold Chip.laneUnusable
  rw [hl]
  exact if_neg (by rw [hu]; exact Bool.false_ne_true)

theorem Chip.reforms_shows (hl : l < 48) : (c.reforms l).link l = { c.link l with rx := .reforming } ∧ (c.reforms l).rxUp l = c.rxUp l
    ∧ (c.reforms l).linkWidth l = c.linkWidth l :=
  ⟨(Chip.link_of_links (Chip.linkSlots_part hl).1 l).trans ((Chip.link_setLink ..).trans (if_pos rfl)),
    (Chip.rxUp_linkSlots hl).trans (Chip.rxUp_setLink _),
    (Chip.linkWidth_linkSlots hl).trans (congrArg widthOf (Chip.setLink_rd ..))⟩

theorem Chip.rd_reforms (hl : l < 48) (hf : f.notSlotLive) : (c.reforms l).rd f = c.rd f := (Chip.rd_linkSlots hl hf).trans (Chip.setLink_rd ..)

theorem Chip.reformsOn_shows (hl : l < 48) (n : Nat) : ((c.reformsOn n l).link l).wasUp = (c.link l).wasUp ∧ (c.reformsOn n l).rxUp l = c.rxUp l
    ∧ ∀ f : Fld, f.notSlotLive → (c.reformsOn n l).rd f = c.rd f := by
  unfold Chip.reformsOn
  split
  · obtain ⟨hlink, hup, -⟩ := Chip.reforms_shows (c := c) hl
    exact ⟨by rw [hlink], hup, fun f hf => Chip.rd_reforms hl hf⟩
  · exact ⟨rfl, rfl, fun _ _ => rfl⟩

theorem Chip.linkOf_width {n : Nat} (h : c.linkOf n = some l) : l ≤ n ∧ c.linkWidth l ≠ 0 := by
  have hfound := List.find?_some h
  rw [Bool.and_eq_true, decide_eq_true_eq, decide_eq_true_eq] at hfound
  omega

end

end Sys2Proof.Machine
end

section
/-! SUPPORT. Slot settings and merged lines, and the obligation on links. -/

namespace Sys2Proof.Machine

section
variable {c d : Chip} {f : Fld}

/-! ### A slot setting takes (R354, R355) -/

/-- The fields of a slot setting hold a word's. -/
def Chip.slotSet (c : Chip) (i w : Nat) : Chip :=
  (((c.wr (FAB_SLOT_CTL_TX_EN i) (bits w 8 1)).wr (FAB_SLOT_CTL_RX_EN i) (bits w 9 1)).wr (FAB_SLOT_CTL_RATE_CLASS i) (bits w 10 3)).wr
    (FAB_SLOT_CTL_PRIO i) (bits w 13 4)

theorem Chip.applySlot_stages (c : Chip) (s w : Nat) : c.applySlot s w =
    ((((c.slotSet s w).when (c.role == 1) fun c => c.slotSet (s + 96) w).followClass (48 + s)).judgeSrc (48 + s)) := rfl

/-- What a slot setting reads as. -/
def Chip.slotWord (c : Chip) (i : Nat) : Bool × Bool × Nat × Nat :=
  (c.on (FAB_SLOT_CTL_TX_EN i), c.on (FAB_SLOT_CTL_RX_EN i), c.rd (FAB_SLOT_CTL_RATE_CLASS i), c.rd (FAB_SLOT_CTL_PRIO i))

theorem Chip.slotWord_of_rd {i : Nat} (h : ∀ lo w, d.rd ((FAB_SLOT_CTL i).fld lo w) = c.rd ((FAB_SLOT_CTL i).fld lo w)) :
    d.slotWord i = c.slotWord i := by
  have ht : d.on (FAB_SLOT_CTL_TX_EN i) = c.on (FAB_SLOT_CTL_TX_EN i) := congrArg (· != 0) (h 0 1)
  have hr : d.on (FAB_SLOT_CTL_RX_EN i) = c.on (FAB_SLOT_CTL_RX_EN i) := congrArg (· != 0) (h 1 1)
  have hc : d.rd (FAB_SLOT_CTL_RATE_CLASS i) = c.rd (FAB_SLOT_CTL_RATE_CLASS i) := h 2 3
  have hp : d.rd (FAB_SLOT_CTL_PRIO i) = c.rd (FAB_SLOT_CTL_PRIO i) := h 5 4
  rw [Chip.slotWord, ht, hr, hc, hp, Chip.slotWord]

theorem bits_one_ne_zero (w i : Nat) : (bits w i 1 != 0) = bit w i := by
  have hmod : w / 2 ^ i % 2 = 0 ∨ w / 2 ^ i % 2 = 1 := by omega
  unfold bits bit
  rcases hmod with h | h <;> simp [h]

theorem Chip.slotWord_slotSet (c : Chip) (i w : Nat) : (c.slotSet i w).slotWord i = (bit w 8, bit w 9, bits w 10 3, bits w 13 4) := by
  have hfits : (FAB_SLOT_CTL_TX_EN i).fits = true ∧ (FAB_SLOT_CTL_RX_EN i).fits = true ∧ (FAB_SLOT_CTL_RATE_CLASS i).fits = true
      ∧ (FAB_SLOT_CTL_PRIO i).fits = true := by
    simp [Fld.fits_iff, FAB_SLOT_CTL_TX_EN, FAB_SLOT_CTL_RX_EN, FAB_SLOT_CTL_RATE_CLASS, FAB_SLOT_CTL_PRIO, Reg.fld]
  obtain ⟨ht, hr, hc, hp⟩ := hfits
  have hlt : bits w 8 1 < 2 ^ 1 ∧ bits w 9 1 < 2 ^ 1 ∧ bits w 10 3 < 2 ^ 3 ∧ bits w 13 4 < 2 ^ 4 :=
    ⟨Nat.mod_lt _ (by decide), Nat.mod_lt _ (by decide), Nat.mod_lt _ (by decide), Nat.mod_lt _ (by decide)⟩
  obtain ⟨hlt8, hlt9, hlt10, hlt13⟩ := hlt
  have htx : (c.slotSet i w).rd (FAB_SLOT_CTL_TX_EN i) = bits w 8 1 := by
    simp (disch := grind [Fld.apart, Fld.fits_iff, Reg.fld, FAB_SLOT_CTL_TX_EN, FAB_SLOT_CTL_RX_EN, FAB_SLOT_CTL_RATE_CLASS, FAB_SLOT_CTL_PRIO]) only
      [Chip.slotSet, Chip.rd_wr_keeps]
    exact Chip.rd_wr_lt ht hlt8
  have hrx : (c.slotSet i w).rd (FAB_SLOT_CTL_RX_EN i) = bits w 9 1 := by
    simp (disch := grind [Fld.apart, Fld.fits_iff, Reg.fld, FAB_SLOT_CTL_TX_EN, FAB_SLOT_CTL_RX_EN, FAB_SLOT_CTL_RATE_CLASS, FAB_SLOT_CTL_PRIO]) only
      [Chip.slotSet, Chip.rd_wr_keeps]
    exact Chip.rd_wr_lt hr hlt9
  have hclass : (c.slotSet i w).rd (FAB_SLOT_CTL_RATE_CLASS i) = bits w 10 3 := by
    simp (disch := grind [Fld.apart, Fld.fits_iff, Reg.fld, FAB_SLOT_CTL_TX_EN, FAB_SLOT_CTL_RX_EN, FAB_SLOT_CTL_RATE_CLASS, FAB_SLOT_CTL_PRIO]) only
      [Chip.slotSet, Chip.rd_wr_keeps]
    exact Chip.rd_wr_lt hc hlt10
  have hprio : (c.slotSet i w).rd (FAB_SLOT_CTL_PRIO i) = bits w 13 4 := Chip.rd_wr_lt hp hlt13
  rw [Chip.slotWord, Chip.on, htx, Chip.on, hrx, hclass, hprio, bits_one_ne_zero, bits_one_ne_zero]

theorem Chip.followClass_within {s : Nat} (hs : s < 332) : Chip.Within [12] [] c (c.followClass s) := by
  unfold Chip.followClass
  refine Chip.showDet_within hs (Chip.Within.wr .refl ?_) (by decide) (by decide)
  simp only [FSY_SRC_CTL_RATE_CLASS, FSY_SRC_CTL, Reg.fld, List.mem_singleton]
  omega

theorem Chip.slotWord_applySlot {s : Nat} (hs : s < 192) (w : Nat) : (c.applySlot s w).slotWord s = (bit w 8, bit w 9, bits w 10 3, bits w 13 4) := by
  have hpage (lo w : Nat) : ((FAB_SLOT_CTL s).fld lo w).off / 65536 = 48 := by
    simp only [FAB_SLOT_CTL, Reg.fld]
    omega
  have hother (lo w' : Nat) (e : Chip) : (e.slotSet (s + 96) w).rd ((FAB_SLOT_CTL s).fld lo w') = e.rd ((FAB_SLOT_CTL s).fld lo w') := by
    have hoff (lo'' w'' : Nat) : ((FAB_SLOT_CTL (s + 96)).fld lo'' w'').apart ((FAB_SLOT_CTL s).fld lo w') = true :=
      Fld.apart_of_off (by simp only [FAB_SLOT_CTL, Reg.fld]; omega)
    exact (Chip.rd_wr_keeps _ _ (hoff 5 4)).trans ((Chip.rd_wr_keeps _ _ (hoff 2 3)).trans ((Chip.rd_wr_keeps _ _ (hoff 1 1)).trans
      (Chip.rd_wr_keeps _ _ (hoff 0 1))))
  rw [Chip.applySlot_stages, ← c.slotWord_slotSet s w]
  refine Chip.slotWord_of_rd fun lo w' => ?_
  have hjudge := fun e : Chip => (Chip.judgeSrc_within (by omega) (.refl) (by decide) (by decide) :
    Chip.Within [1, 8, 12, 64] [.srcs] e (e.judgeSrc (48 + s))).rd (f := (FAB_SLOT_CTL s).fld lo w') (by rw [hpage]; decide)
  have hfollow := fun e : Chip => (Chip.followClass_within (by omega) :
    Chip.Within [12] [] e (e.followClass (48 + s))).rd (f := (FAB_SLOT_CTL s).fld lo w') (by rw [hpage]; decide)
  rw [hjudge, hfollow, Chip.rd_when, hother, ite_self]

theorem Chip.fw_applySlot {s : Nat} (hs : s < 192) (w : Nat) : (c.applySlot s w).fw = c.fw := by
  have hset (e : Chip) (i : Nat) : (e.slotSet i w).fw = e.fw := by simp only [Chip.slotSet, Chip.wr_fw]
  have hjudge := fun e : Chip => (Chip.judgeSrc_within (by omega) (.refl) (by decide) (by decide) :
    Chip.Within [1, 8, 12, 64] [.srcs] e (e.judgeSrc (48 + s))).part .fw (by decide)
  have hfollow := fun e : Chip => (Chip.followClass_within (by omega) :
    Chip.Within [12] [] e (e.followClass (48 + s))).part .fw (by decide)
  rw [Chip.applySlot_stages]
  refine (hjudge _).trans ((hfollow _).trans ?_)
  rw [Chip.when_fw, hset, hset, ite_self]

/-! ### The slot settings of a plane take -/

theorem Chip.noteTake_shows (c : Chip) (p : Pend) : (c.noteTake p).fw.queue = c.fw.queue ∧ (c.noteTake p).regs = c.regs := by
  unfold Chip.noteTake
  dsimp only
  split <;> exact ⟨rfl, rfl⟩

/-- The changes that are due leave the queue. -/
def Chip.unqueue (c : Chip) (ps : List Pend) : Chip := { c with fw := { c.fw with queue := c.fw.queue.filter fun p => !(ps.contains p) } }

theorem Chip.unqueue_queue (c : Chip) (ps : List Pend) : (c.unqueue ps).fw.queue = c.fw.queue.filter fun p => !(ps.contains p) := rfl

theorem Chip.takeDue_one {q : Nat} {which : Change → Bool} {p : Pend}
    (h : (c.fw.queue.filter fun y => y.plane == q && c.reached q y.epoch && which y.change) = [p]) :
    c.takeDue q which = ((c.unqueue [p]).applyChange p.change).noteTake p := by
  unfold Chip.takeDue
  rw [h]
  rfl

theorem Chip.take_one {q : Nat} {which : Change → Bool} {p : Pend}
    (h : (c.fw.queue.filter fun y => y.plane == q && c.reached q y.epoch && which y.change) = [p]) (hd : p.change.dest = none) :
    c.take q which = ((c.unqueue [p]).applyChange p.change).noteTake p := by
  have hdue : ∀ y ∈ (c.fw.queue.filter fun y => y.plane == q && c.reached q y.epoch && which y.change && y.host), y = p := fun y hy => by
    obtain ⟨hmem, hy⟩ := List.mem_filter.1 hy
    have : y ∈ (c.fw.queue.filter fun y => y.plane == q && c.reached q y.epoch && which y.change) :=
      List.mem_filter.2 ⟨hmem, (Bool.and_eq_true _ _ ▸ hy).1⟩
    rwa [h, List.mem_singleton] at this
  have hany : ((c.fw.queue.filter fun y => y.plane == q && c.reached q y.epoch && which y.change && y.host).any
      fun y => y.change.loads && y.change.dest.isSome) = false := List.any_eq_false.2 fun y hy => by
    rw [hdue y hy, hd]
    simp
  unfold Chip.take
  dsimp only
  rw [Chip.takeDue_one h, hany]
  split <;> rfl

theorem Chip.slotsTaken_within : Chip.Within [1, 48] [.links] c c.slotsTaken := by
  unfold Chip.slotsTaken
  refine Chip.Within.each .refl fun d k hk => ?_
  have hk := List.mem_range.1 (List.mem_filter.1 hk).1
  dsimp only
  split
  · exact .refl
  · exact Chip.txChoose_within hk .refl (by decide) (by decide)

theorem Chip.slotWord_slotsTaken {i : Nat} (hi : i < 192) : c.slotsTaken.slotWord i = c.slotWord i := by
  refine Chip.slotWord_of_rd fun lo w => ?_
  unfold Chip.slotsTaken
  refine Chip.each_keeps (·.rd ((FAB_SLOT_CTL i).fld lo w)) _ _ (fun d k hk => ?_) c
  have hk := List.mem_range.1 (List.mem_filter.1 hk).1
  have hoff : ((FAB_SLOT_CTL i).fld lo w).off = 0x303000 + 4 * i := rfl
  dsimp only
  split
  · rfl
  · exact Chip.rd_txChoose hk _ (Fld.notLinkLive_of_off (by omega) (.inr (by omega))) (by omega)

/-! ### The merge releases a line (R357) -/

/-- What a line of a merge counts, the copies good or not. -/
def Chip.mergeCounts (c : Chip) (m : Nat) (aOk bOk differ run : Bool) : Chip :=
  if !aOk && !bOk then c.badLine (48 + m) run
  else if aOk && bOk then
    if !differ then c
    else
      let c := (c.inc (FAB_MRG_DIFF_COUNT m)).set FAB_STATUS_PLANE_DIFFER
      let f := (c.src (48 + m)).next
      if tget 0 c.diffAt m = f then c
      else { c with diffAt := tput 0 c.diffAt m f }.post 0x09 0x000B m (c.rd (FAB_MRG_DIFF_COUNT m))
  else if bOk then c.inc (FAB_MRG_CNT_A_MISS m)
  else c.inc (FAB_MRG_CNT_B_MISS m)

theorem Chip.mergeLine_leaf (h : c.role = 1) (m : Nat) (aWhole bWhole differ run : Bool) : c.mergeLine m aWhole bWhole differ run =
    ((c.copyNext m).copyNext (m + 96)).mergeCounts m (aWhole && c.copyWhole m) (bWhole && c.copyWhole (m + 96)) differ run :=
  if_neg (by rw [h]; decide)

end
end Sys2Proof.Machine
end

section
/-! SUPPORT. The obligation on links. -/

namespace Sys2Proof.Machine

section
variable {c : Chip}

theorem Chip.copyNext_both (c : Chip) (m : Nat) : Chip.Within [] [.links] c ((c.copyNext m).copyNext (m + 96)) :=
  Chip.copyNext_within (Chip.copyNext_within .refl (by decide) (by decide)) (by decide) (by decide)

/-- The copies of a line differ: counted and flagged. -/
def Chip.copiesDiffer (c : Chip) (m : Nat) : Chip := (c.inc (FAB_MRG_DIFF_COUNT m)).set FAB_STATUS_PLANE_DIFFER

/-- The frame in which the copies of a slot last differed. -/
def Chip.differIn (c : Chip) (m f : Nat) : Chip := { c with diffAt := tput 0 c.diffAt m f }

theorem Chip.differIn_regs (m f : Nat) : (c.differIn m f).regs = c.regs := rfl

/-- A frame in which the copies differ is reported once. -/
def Chip.differReported (c : Chip) (m : Nat) : Chip :=
  if tget 0 c.diffAt m = (c.src (48 + m)).next then c
  else (c.differIn m (c.src (48 + m)).next).post 0x09 0x000B m (c.rd (FAB_MRG_DIFF_COUNT m))

theorem Chip.mergeCounts_differ (m : Nat) (run : Bool) : c.mergeCounts m true true true run = (c.copiesDiffer m).differReported m := rfl
theorem Chip.mergeCounts_same (m : Nat) (run : Bool) : c.mergeCounts m true true false run = c := rfl
theorem Chip.mergeCounts_missA (m : Nat) (differ run : Bool) : c.mergeCounts m false true differ run = c.inc (FAB_MRG_CNT_A_MISS m) := rfl
theorem Chip.mergeCounts_missB (m : Nat) (differ run : Bool) : c.mergeCounts m true false differ run = c.inc (FAB_MRG_CNT_B_MISS m) := rfl
theorem Chip.mergeCounts_bad (m : Nat) (differ run : Bool) : c.mergeCounts m false false differ run = c.badLine (48 + m) run := if_pos rfl

theorem Chip.rd_differReported {m : Nat} {f : Fld} (hf : f.off / 65536 ≠ 1) : (c.differReported m).rd f = c.rd f := by
  unfold Chip.differReported
  split
  · rfl
  · rw [Chip.rd_post _ _ _ _ _ _ hf]
    exact Chip.rd_of_cell (Chip.cell_of_regs (Chip.differIn_regs ..) _)

/-- The three counters of a merge. -/
def Chip.mergeWord (c : Chip) (m : Nat) : Nat × Nat × Nat :=
  (c.rd (FAB_MRG_CNT_A_MISS m), c.rd (FAB_MRG_CNT_B_MISS m), c.rd (FAB_MRG_DIFF_COUNT m))

/-- One more in a counter of the width `w`, which saturates. -/
def oneMore (w n : Nat) : Nat := min (2 ^ w - 1) (n + 1)

theorem Chip.mergeWord_counts {m : Nat} (hm : m < 96) (aOk bOk differ run : Bool) : (c.mergeCounts m aOk bOk differ run).mergeWord m =
    (if aOk = false ∧ bOk = true then oneMore 16 (c.rd (FAB_MRG_CNT_A_MISS m)) else c.rd (FAB_MRG_CNT_A_MISS m),
      if aOk = true ∧ bOk = false then oneMore 16 (c.rd (FAB_MRG_CNT_B_MISS m)) else c.rd (FAB_MRG_CNT_B_MISS m),
      if aOk = true ∧ bOk = true ∧ differ = true then oneMore 32 (c.rd (FAB_MRG_DIFF_COUNT m)) else c.rd (FAB_MRG_DIFF_COUNT m)) := by
  have hoff : (FAB_MRG_DIFF_COUNT m).off = 0x303a00 + 4 * m ∧ (FAB_MRG_CNT_A_MISS m).off = 0x303800 + 4 * m
      ∧ (FAB_MRG_CNT_B_MISS m).off = 0x303800 + 4 * m ∧ FAB_STATUS_PLANE_DIFFER.off = 0x300000 := ⟨rfl, rfl, rfl, rfl⟩
  obtain ⟨hod, hoa, hob, hos⟩ := hoff
  have hfits : (FAB_MRG_CNT_A_MISS m).fits = true ∧ (FAB_MRG_CNT_B_MISS m).fits = true ∧ (FAB_MRG_DIFF_COUNT m).fits = true := by
    simp [Fld.fits_iff, FAB_MRG_CNT_A_MISS, FAB_MRG_CNT_B_MISS, FAB_MRG_DIFF_COUNT, Reg.fld]
  obtain ⟨hfa, hfb, hfd⟩ := hfits
  have hab : (FAB_MRG_CNT_A_MISS m).apart (FAB_MRG_CNT_B_MISS m) = true ∧ (FAB_MRG_CNT_B_MISS m).apart (FAB_MRG_CNT_A_MISS m) = true := by
    constructor <;> exact Fld.apart_of_clear rfl (by simp [Fld.clearOf_iff, FAB_MRG_CNT_A_MISS, FAB_MRG_CNT_B_MISS, Reg.fld])
  have hother {f g : Fld} (h : f.off ≠ g.off) := Chip.rd_inc_keeps c (Fld.apart_of_off h)
  have hwa : (FAB_MRG_CNT_A_MISS m).w = 16 := rfl
  have hwb : (FAB_MRG_CNT_B_MISS m).w = 16 := rfl
  have hwd : (FAB_MRG_DIFF_COUNT m).w = 32 := rfl
  unfold Chip.mergeWord
  rcases Bool.eq_false_or_eq_true aOk with rfl | rfl <;> rcases Bool.eq_false_or_eq_true bOk with rfl | rfl
  · rcases Bool.eq_false_or_eq_true differ with rfl | rfl
    · rw [Chip.mergeCounts_differ, Chip.rd_differReported (by omega), Chip.rd_differReported (by omega), Chip.rd_differReported (by omega),
        Chip.copiesDiffer, Chip.rd_set_keeps _ (Fld.apart_of_off (by omega)), Chip.rd_set_keeps _ (Fld.apart_of_off (by omega)),
        Chip.rd_set_keeps _ (Fld.apart_of_off (by omega)), hother (by omega), hother (by omega), Chip.rd_inc_same _ hfd, hwd]
      simp [oneMore]
    · rw [Chip.mergeCounts_same]
      simp [oneMore]
  · rw [Chip.mergeCounts_missB, Chip.rd_inc_keeps _ hab.2, Chip.rd_inc_same _ hfb, hwb, hother (by omega)]
    simp [oneMore]
  · rw [Chip.mergeCounts_missA, Chip.rd_inc_same _ hfa, hwa, Chip.rd_inc_keeps _ hab.1, hother (by omega)]
    simp [oneMore]
  · have hw : Chip.Within [1, 8, 12, 64] [.srcs] c (c.badLine (48 + m) run) := Chip.badLine_within (by omega) .refl (by decide) (by decide)
    have hpage (f : Fld) (hf : f.off / 65536 = 48) : (c.badLine (48 + m) run).rd f = c.rd f := hw.rd (by rw [hf]; decide)
    rw [Chip.mergeCounts_bad, hpage _ (by omega), hpage _ (by omega), hpage _ (by omega)]
    simp [oneMore]

theorem Chip.badLine_seen {m : Nat} (hm : m < 96) (run : Bool) : (c.badLine (48 + m) run).on (FSY_SRC_STAT_BADLINE_SEEN (48 + m)) = true := by
  have hkind : srcKind (48 + m) ≤ 2 := by
    unfold srcKind
    rw [if_neg (by omega), if_pos (by omega)]
    decide
  have hlead : c.leadOf (48 + m) = 48 + m := by
    unfold Chip.leadOf Chip.bondedRx
    rw [decide_eq_false (by omega : ¬ 48 + m < 48)]
    rfl
  have hshows := (Chip.badLine_shows (c := c) (s := 48 + m) (by omega) hkind run).1
  rwa [hlead] at hshows

end

theorem Chip.laneUnusable_reforms {c : Chip} {n l : Nat} (hn : n < 48) (hl : c.linkOf n = some l) (hup : c.rxUp l ≠ 0) (hu : c.lnUsable n = false)
    (hrx : (c.link l).rx = .up) (huse : bit (c.link l).rxUse (c.lane n).llane = true) (hst : c.rd (FAB_LK_STAT_STATE l) ≠ 5) :
    ((c.laneUnusable n).link l).rx = .reforming ∧ (c.laneUnusable n).rd (FAB_LK_STAT_STATE l) = 4
      ∧ ((c.laneUnusable n).link l).tx = (c.link l).tx := by
  obtain ⟨hle, hw⟩ := Chip.linkOf_width hl
  have hl48 : l < 48 := by omega
  obtain ⟨hlink, hrxup, hwidth⟩ := Chip.reforms_shows (c := c) hl48
  have hon : c.reformsOn n l = c.reforms l := if_pos ⟨hrx, huse⟩
  rw [Chip.laneUnusable_stages hl hu, hon, hrxup, if_neg (fun h => hup h.1)]
  obtain ⟨hdir, htx, -⟩ := (c.reforms l).link_linkShow_dirs l
  rw [hdir, htx, hlink, Chip.rd_linkShow_state hl48 (by rw [hwidth]; exact hw), Chip.rd_reforms (f := FAB_LK_STAT_STATE l) hl48 (FAB_LK_STAT_notSlotLive hl48)]
  refine ⟨rfl, ?_, rfl⟩
  rw [Chip.linkState, if_neg hst, hlink]
  rfl

theorem Chip.laneUnusable_down {c : Chip} {n l : Nat} (hn : n < 48) (hl : c.linkOf n = some l) (hup : c.rxUp l = 0) (hu : c.lnUsable n = false)
    (hrx : (c.link l).rx = .up) : c.laneUnusable n = (c.reformsOn n l).linkDown l 1 := by
  obtain ⟨hle, -⟩ := Chip.linkOf_width hl
  obtain ⟨-, hrxup, -⟩ := Chip.reformsOn_shows (c := c) (show l < 48 by omega) n
  rw [Chip.laneUnusable_stages hl hu, hrxup, if_pos ⟨hup, by rw [hrx]; decide⟩]

theorem Chip.slotCopy_shows {c : Chip} {q : Nat} {i w : Nat} {p : Pend} (hi : i < 192) (hp : p.change = ⟨.fabSlot, i, [w]⟩)
    (hdue : (c.fw.queue.filter fun y => y.plane == q && c.reached q y.epoch && y.change.kind == .fabSlot) = [p]) :
    ((c.take q fun x => x.kind == .fabSlot).slotsTaken.fw.queue.contains p) = false
      ∧ (c.take q fun x => x.kind == .fabSlot).slotsTaken.slotWord i = (bit w 8, bit w 9, bits w 10 3, bits w 13 4) := by
  have happly : (c.unqueue [p]).applyChange p.change = (c.unqueue [p]).applySlot i w := by rw [hp]; rfl
  rw [Chip.take_one (which := fun x => x.kind == .fabSlot) hdue (by rw [hp]; rfl), happly]
  obtain ⟨hqueue, hregs⟩ := ((c.unqueue [p]).applySlot i w).noteTake_shows p
  constructor
  · have hfw := (Chip.slotsTaken_within (c := ((c.unqueue [p]).applySlot i w).noteTake p)).part .fw (by decide)
    have hmem : p ∉ (c.unqueue [p]).fw.queue := fun h => by
      rw [Chip.unqueue_queue, List.mem_filter] at h
      simp at h
    refine (congrArg (fun x : Fw => x.queue.contains p) hfw).trans ?_
    rw [hqueue, Chip.fw_applySlot hi]
    simpa using hmem
  · rw [Chip.slotWord_slotsTaken hi, ← Chip.slotWord_applySlot (c := c.unqueue [p]) hi w]
    exact Chip.slotWord_of_rd fun lo w' => Chip.rd_of_cell (Chip.cell_of_regs hregs _)

/-- Settles O44: each row of a link is one operation of the link, whose writes of the registers of links and slots stand apart. -/
theorem linkEvents : Obligations.LinkEvents := by
  unfold Obligations.LinkEvents
  refine ⟨?_, ?_, ?_, ?_, ?_, ?_⟩
  · rintro s t l at_ _ rfl hlive hfirst hat hw htx hup hst
    refine ⟨_, State.event_live s t _ hlive, ?_⟩
    rw [Chip.link_of_links (State.commit_links ..), Chip.formTimeout_due hfirst hw htx hat hup hst]
    obtain ⟨hup', huse⟩ := Chip.link_txChoose (c := s.chipAt t) l.isLt ((s.chipAt t).rd (FAB_LK_STAT_PEER_RX_UP l.val))
    have hlt : (s.chipAt t).rd (FAB_LK_STAT_PEER_RX_UP l.val) < 16 := Chip.rd_lt (s.chipAt t) (FAB_LK_STAT_PEER_RX_UP l.val)
    have hcount := bitCount_pos hlt hup
    have hwidth := (s.chipAt t).linkWidth_le l.val
    generalize hn : min (bitCount ((s.chipAt t).rd (FAB_LK_STAT_PEER_RX_UP l.val))) ((s.chipAt t).linkWidth l.val) = n at huse
    have htaken : widthTaken n ≤ 4 ∧ widthTaken n ≠ 0 := by
      unfold widthTaken
      split_ifs <;> omega
    obtain ⟨htaken4, htaken0⟩ := htaken
    rw [huse]
    exact ⟨hup', lowest_subset hlt htaken4, lowest_pos hlt hup htaken4 htaken0⟩
  · rintro s t n l _ rfl hlive hlink hup hu hrx huse hst
    refine ⟨_, State.event_live s t _ hlive, ?_⟩
    rw [Chip.link_of_links (State.commit_links ..), State.commit_rd]
    exact Chip.laneUnusable_reforms n.isLt hlink hup hu hrx huse hst
  · rintro s t n l _ rfl hlive hlink hup hu hrx hwas _
    obtain ⟨hle, -⟩ := Chip.linkOf_width hlink
    have hl48 : l < 48 := by have := n.isLt; omega
    refine ⟨_, State.event_live s t _ hlive, ?_⟩
    rw [Chip.link_of_links (State.commit_links ..), State.commit_on, State.commit_on, State.commit_rd,
      Chip.laneUnusable_down n.isLt hlink hup hu hrx]
    obtain ⟨hwas', -, hrd⟩ := Chip.reformsOn_shows (c := s.chipAt t) hl48 n.val
    obtain ⟨hdrx, hdtx⟩ := Chip.linkDown_link (c := (s.chipAt t).reformsOn n.val l) hl48 1
    obtain ⟨hseen, hflag, hcount⟩ := Chip.linkDown_shows (c := (s.chipAt t).reformsOn n.val l) hl48 1 (hwas'.trans hwas)
    rw [hrd _ (Fld.notSlotLive_of_off (by simp only [FAB_LK_CNT_DOWNS, FAB_LK_CNT, Reg.fld]; omega))] at hcount
    exact ⟨hdrx, hdtx, hseen, hflag, hcount⟩
  · rintro s t l _ _ _ rfl hlive htx rfl rfl hne hsub
    refine ⟨_, State.event_live s t _ hlive, ?_⟩
    rw [Chip.link_of_links (State.commit_links ..), Chip.linkWiden_due htx hne hsub]
    exact Chip.link_txChoose l.isLt _
  · rintro s t q i p w _ rfl hlive hplane hp hdue
    obtain ⟨hqueue, hword⟩ := Chip.slotCopy_shows i.isLt hp hdue
    simp only [Chip.slotWord, Prod.mk.injEq] at hword
    refine ⟨_, State.event_live s t _ hlive, ?_⟩
    rw [decide_eq_true hplane, Chip.when_true]
    exact ⟨hqueue, hword⟩
  · rintro s t m aWhole bWhole differ run _ rfl hlive hrole
    refine ⟨_, State.event_live s t _ hlive, ?_⟩
    rw [Chip.mergeLine_leaf hrole]
    have hnext := (s.chipAt t).copyNext_both m.val
    have hword := Chip.mergeWord_counts (c := ((s.chipAt t).copyNext m.val).copyNext (m.val + 96)) m.isLt
      (aWhole && (s.chipAt t).copyWhole m.val) (bWhole && (s.chipAt t).copyWhole (m.val + 96)) differ run
    rw [hnext.rd List.not_mem_nil, hnext.rd List.not_mem_nil, hnext.rd List.not_mem_nil, Chip.mergeWord, Prod.mk.injEq, Prod.mk.injEq] at hword
    obtain ⟨ha, hb, hd⟩ := hword
    rw [State.commit_rd, State.commit_rd, State.commit_rd, State.commit_on]
    refine ⟨ha, hb, hd, fun haf hbf => ?_⟩
    rw [haf, hbf, Chip.mergeCounts_bad]
    exact Chip.badLine_seen m.isLt run

end Sys2Proof.Machine
end

section
/-! SUPPORT. The line code of a lane (R303 to R305), and blocks on a TRAINED lane (R337, R344). -/

namespace Sys2Proof.Machine

/-! ### The line code -/

theorem precode_lt (last g : Nat) : precode last g < 4 := Nat.mod_lt _ (by decide)

theorem decodeSym_precode {last g : Nat} (hl : last < 4) (hg : g < 4) : decodeSym last (precode last g) = g := by
  unfold decodeSym precode
  omega

theorem decodeAll_precodeAll (gs : List Nat) : ∀ last < 4, gs.all (· < 4) = true → decodeAll last (precodeAll last gs) = gs := by
  induction gs with
  | nil => exact fun _ _ _ => rfl
  | cons g gs ih =>
    intro last hl hall
    simp only [List.all_cons, Bool.and_eq_true, decide_eq_true_eq] at hall
    obtain ⟨hg, hgs⟩ := hall
    rw [precodeAll, decodeAll, decodeSym_precode hl hg, ih _ (precode_lt last g) hgs]

theorem decodeSym_reversed {last p : Nat} (hl : last < 4) (hp : p < 4) : decodeSym (3 - last) (3 - p) = reversed (decodeSym last p) := by
  unfold decodeSym reversed
  omega

theorem decodeAll_reversed (ps : List Nat) : ∀ last < 4, ps.all (· < 4) = true →
    decodeAll (3 - last) (ps.map (3 - ·)) = (decodeAll last ps).map reversed := by
  induction ps with
  | nil => exact fun _ _ _ => rfl
  | cons p ps ih =>
    intro last hl hall
    simp only [List.all_cons, Bool.and_eq_true, decide_eq_true_eq] at hall
    obtain ⟨hp, hps⟩ := hall
    rw [List.map_cons, decodeAll, decodeAll, List.map_cons, decodeSym_reversed hl hp, ih p hp hps]

theorem gray_lt (k : Nat) (hk : k < 4) : gray k < 4 := by
  have hall : ∀ k < 4, gray k < 4 := by decide
  exact hall k hk

theorem symbols_lt (b : Nat) : (symbols b).all (· < 4) = true := by
  simp only [symbols, List.all_map, List.all_eq_true, Function.comp_apply, decide_eq_true_eq]
  exact fun i _ => gray_lt _ (Nat.mod_lt _ (by decide))

/-! ### A block on a TRAINED lane -/

section
variable {c : Chip} {n b : Nat}

theorem Chip.lnIn_trained (h : c.rd (lnState n) = lnTrained) (marker : Bool) : c.lnIn n b marker = c.lnHeard n b := if_pos h

/-- A lane whose decoder has gone on past a block. -/
def FabLane.heard (x : FabLane) (b : Nat) : FabLane := { x with rxLevel := levelAfter x.rxLevel b, rxFresh := false }

/-- A lane with another level of its decoder. -/
def FabLane.atLevel (x : FabLane) (v : Nat) : FabLane := { x with rxLevel := v, rxFresh := false }

/-- What the checks of markers and links read of a lane. -/
def FabLane.marked (x : FabLane) : Bool × Bool × Bool × Nat × Nat × Option Nat × Nat × Option (Nat × Nat × Bool) :=
  (x.seen, x.bad, x.skewed, x.llane, x.count, x.stepAt, x.at_, x.set_)

theorem FabLane.marked_atLevel (x : FabLane) (v : Nat) : (x.atLevel v).marked = x.marked := rfl
theorem FabLane.marked_heard (x : FabLane) (b : Nat) : (x.heard b).marked = x.marked := x.marked_atLevel (levelAfter x.rxLevel b)

theorem Chip.lnHeard_regs : (c.lnHeard n b).regs = c.regs := Chip.setLane_regs ..
theorem Chip.lnHeard_links : (c.lnHeard n b).links = c.links := Chip.setLane_links ..
theorem Chip.lnHeard_twn : (c.lnHeard n b).twn = c.twn := Chip.setLane_twn ..
theorem Chip.lnHeard_now : (c.lnHeard n b).now = c.now := Chip.setLane_now ..
theorem Chip.rd_lnHeard (f : Fld) : (c.lnHeard n b).rd f = c.rd f := Chip.setLane_rd ..
theorem Chip.lane_lnHeard_same : (c.lnHeard n b).lane n = (c.lane n).heard b := (Chip.lane_setLane ..).trans (if_pos rfl)

theorem Chip.marked_lnHeard (k : Nat) : ((c.lnHeard n b).lane k).marked = (c.lane k).marked := by
  by_cases hk : k = n
  · rw [hk, Chip.lane_lnHeard_same, FabLane.marked_heard]
  · exact congrArg FabLane.marked ((Chip.lane_setLane ..).trans (if_neg hk))

theorem Chip.lnSt_lnHeard (h : c.rd (lnState n) = lnTrained) : ¬ (c.lnHeard n b).lnSt n ≠ lnTrained :=
  fun hne => hne ((Chip.rd_lnHeard _).trans h)

theorem Chip.llane_lnHeard (k : Nat) : ((c.lnHeard n b).lane k).llane = (c.lane k).llane :=
  congrArg (fun y => y.2.2.2.1) (Chip.marked_lnHeard k)

theorem Chip.link_lnHeard (k : Nat) : (c.lnHeard n b).link k = c.link k := Chip.link_of_links Chip.lnHeard_links k

theorem Chip.linkWidth_lnHeard (l : Nat) : (c.lnHeard n b).linkWidth l = c.linkWidth l := congrArg widthOf (Chip.rd_lnHeard _)

theorem Chip.linkOf_lnHeard (k : Nat) : (c.lnHeard n b).linkOf k = c.linkOf k := by
  simp only [Chip.linkOf, Chip.linkWidth_lnHeard]

theorem Chip.lnStepping_lnHeard : (c.lnHeard n b).lnStepping n = c.lnStepping n := by
  have hstep : ((c.lnHeard n b).lane n).stepAt = (c.lane n).stepAt := congrArg (fun y => y.2.2.2.2.2.1) (Chip.marked_lnHeard n)
  rw [Chip.lnStepping, hstep, Chip.lnHeard_now, Chip.lnStepping]

theorem Chip.lnCrcErr_shows : (c.lnCrcErr n).rd ((lnErr n).fld 0 32) = min (2 ^ 32 - 1) (c.rd ((lnErr n).fld 0 32) + 1)
    ∧ (c.lnCrcErr n).links = c.links ∧ (c.lnCrcErr n).lane n = c.lane n :=
  ⟨Chip.rd_inc_same c (Fld.fits_iff.2 (by simp [Reg.fld])), Chip.wr_links .., congrArg (tget ({} : FabLane) · n) (Chip.wr_lanes ..)⟩

theorem Chip.crcErr_heard : ((c.lnHeard n b).lnCrcErr n).rd ((lnErr n).fld 0 32) = min (2 ^ 32 - 1) (c.rd ((lnErr n).fld 0 32) + 1)
    ∧ ((c.lnHeard n b).lnCrcErr n).links = c.links ∧ ((c.lnHeard n b).lnCrcErr n).lane n = (c.lane n).heard b := by
  obtain ⟨hcount, hlinks, hlane⟩ := Chip.lnCrcErr_shows (c := c.lnHeard n b) (n := n)
  rw [Chip.rd_lnHeard] at hcount
  exact ⟨hcount, hlinks.trans Chip.lnHeard_links, hlane.trans Chip.lane_lnHeard_same⟩

/-! ### Rows of blocks -/

section
variable (ht : c.rd (lnState n) = lnTrained)
include ht

theorem Chip.fabData_bad (hb : blockOk b = false) : (c.lnHeard n b).fabData n b = (c.lnHeard n b).lnCrcErr n := by
  unfold Chip.fabData
  rw [if_neg (Chip.lnSt_lnHeard ht), if_pos (by rw [hb]; rfl)]

theorem Chip.fabStatus_bad (hb : blockOk b = false) : (c.lnHeard n b).fabStatus n b = (c.lnHeard n b).lnCrcErr n := by
  unfold Chip.fabStatus
  rw [if_neg (Chip.lnSt_lnHeard ht), if_pos (by rw [hb]; rfl)]

theorem Chip.twnBlock_bad (hb : blockOk b = false) : (c.lnHeard n b).twnBlock n b = (c.lnHeard n b).lnCrcErr n := by
  unfold Chip.twnBlock
  rw [if_neg (Chip.lnSt_lnHeard ht), if_pos (by rw [hb]; rfl)]

theorem Chip.fabMarker_bad (hb : blockOk b = false) (hs : c.lnStepping n = false) :
    (c.lnHeard n b).fabMarker n b false = (c.lnHeard n b).lnCrcErr n := by
  unfold Chip.fabMarker
  rw [if_neg (Chip.lnSt_lnHeard ht), if_pos (by rw [hb]; rfl), Chip.lnStepping_lnHeard, hs]
  rfl

theorem Chip.twnMarker_bad (hb : blockOk b = false) (hs : c.lnStepping n = false) :
    (c.lnHeard n b).twnMarker n b false = (c.lnHeard n b).lnCrcErr n := by
  unfold Chip.twnMarker
  rw [if_neg (Chip.lnSt_lnHeard ht), if_pos (by rw [hb]; rfl), Chip.lnStepping_lnHeard, hs]
  rfl

/-- A link to whose slot a data block is delivered. -/
def Link.delivered (x : Link) (b : Nat) : Link :=
  let was := tget 16 x.sseq (bits b 634 4)
  { x with
    sseq := tput 16 x.sseq (bits b 634 4) (bits b 624 4)
    faults := if was = 16 ∨ bits b 624 4 = (was + 1) % 16 then x.faults else x.faults ||| 2 ^ bits b 634 4 }

theorem Chip.fabData_good {l : Nat} (hb : blockOk b = true) (hl : c.linkOf n = some l) (h0 : blockType b = 0) :
    (c.lnHeard n b).fabData n b =
      if (c.link l).rx = .up ∧ bit (c.link l).rxUse (c.lane n).llane = true ∧ bit (c.link l).rxMask (bits b 634 4) = true
      then (c.lnHeard n b).setLink l ((c.link l).delivered b) else c.lnHeard n b := by
  unfold Chip.fabData
  rw [if_neg (Chip.lnSt_lnHeard ht), if_neg (by rw [hb]; exact Bool.false_ne_true), Chip.linkOf_lnHeard, hl]
  dsimp only
  rw [Chip.link_lnHeard, Chip.llane_lnHeard, h0]
  simp only [true_and]
  rfl

theorem Chip.fabStatus_good {l : Nat} (hb : blockOk b = true) (hl : c.linkOf n = some l) (h1 : blockType b = 1) :
    (c.lnHeard n b).fabStatus n b = (c.lnHeard n b).peerReport l (payloadBits b 604 4) := by
  unfold Chip.fabStatus
  rw [if_neg (Chip.lnSt_lnHeard ht), if_neg (by rw [hb]; exact Bool.false_ne_true), if_neg (not_not_intro h1), Chip.linkOf_lnHeard, hl]

end
end
end Sys2Proof.Machine
end

section
/-! SUPPORT. Markers on a fabric lane (R345 to R351), and what the partner reports of its lanes (R342). -/

namespace Sys2Proof.Machine

section
variable {c d : Chip} {l n b : Nat} {f : Fld}

/-! ### The fields that the states and flags of links leave -/

/-- The field is one of the registers of a link, apart from the live fields and the flags of FAB_LK_STAT. -/
structure Fld.linkSteady (f : Fld) : Prop where
  off : 0x302000 ≤ f.off ∧ f.off < 0x302300
  live : f.notLinkLive
  flag : ∀ l < 48, ∀ lo w, 16 ≤ lo → lo + w ≤ 20 → ((FAB_LK_STAT l).fld lo w).apart f = true

namespace Fld.linkSteady
variable (hf : f.linkSteady)
include hf

theorem slot : f.notSlotLive := Fld.notSlotLive_of_off (by have := hf.off; omega)

theorem page : f.off / 65536 ≠ 1 := hf.live.1

theorem cnt (lo w : Nat) (l : Nat) : ((FAB_LK_CNT l).fld lo w).apart f = true :=
  Fld.apart_of_off (by have := hf.off; simp only [FAB_LK_CNT, Reg.fld]; omega)

theorem status (lo w : Nat) : (FAB_STATUS.fld lo w).apart f = true :=
  Fld.apart_of_off (by have := hf.off; simp only [FAB_STATUS, Reg.fld]; omega)

end Fld.linkSteady

theorem FAB_LK_PEER_steady {lo w : Nat} (hl : l < 48) : ((FAB_LK_PEER l).fld lo w).linkSteady := by
  have hoff : ((FAB_LK_PEER l).fld lo w).off = 0x302200 + 4 * l := rfl
  refine ⟨by omega, Fld.notLinkLive_of_off (by omega) (by omega), fun k hk lo' w' _ _ => Fld.apart_of_off ?_⟩
  simp only [FAB_LK_STAT, FAB_LK_PEER, Reg.fld]
  omega

theorem FAB_LK_CFG_steady {lo w : Nat} (hl : l < 48) : ((FAB_LK_CFG l).fld lo w).linkSteady := by
  have hoff : ((FAB_LK_CFG l).fld lo w).off = 0x302000 + 4 * l := rfl
  refine ⟨by omega, Fld.notLinkLive_of_off (by omega) (by omega), fun k hk lo' w' _ _ => Fld.apart_of_off ?_⟩
  simp only [FAB_LK_STAT, FAB_LK_CFG, Reg.fld]
  omega

/-- The lanes that the partner reports stand between the live fields and the flags. -/
theorem FAB_LK_STAT_PEER_RX_UP_steady (hl : l < 48) : (FAB_LK_STAT_PEER_RX_UP l).linkSteady := by
  have hoff : (FAB_LK_STAT_PEER_RX_UP l).off = 0x302100 + 4 * l := rfl
  have hapart (k lo w : Nat) (h : lo + w ≤ 11 ∨ 15 ≤ lo ∧ lo + w ≤ 32) : ((FAB_LK_STAT k).fld lo w).apart (FAB_LK_STAT_PEER_RX_UP l) = true :=
    Fld.apart_of_clear rfl (by simp only [Fld.clearOf_iff, Reg.fld, FAB_LK_STAT_PEER_RX_UP]; omega)
  refine ⟨by omega, ⟨by omega, fun k _ => ?_⟩, fun k _ lo w _ _ => hapart k lo w (by omega)⟩
  exact ⟨hapart k 0 3 (by omega), hapart k 3 2 (by omega), hapart k 5 2 (by omega), hapart k 7 4 (by omega), hapart k 15 1 (by omega)⟩

section
variable (hl : l < 48) (hf : f.linkSteady)
include hl hf

theorem Chip.rd_downShown_steady (cause : Nat) : (c.downShown l cause).rd f = c.rd f := by
  have hseen : (FAB_LK_STAT_DOWN_SEEN l).apart f = true := hf.flag l hl 19 1 (by decide) (by decide)
  have hcnt : (FAB_LK_CNT_DOWNS l).apart f = true := hf.cnt 16 16 l
  have hdown : FAB_STATUS_LINK_DOWN.apart f = true := hf.status 0 1
  rw [Chip.downShown, Chip.rd_when, Chip.rd_post _ _ _ _ _ _ hf.page, Chip.rd_set_keeps _ hdown, Chip.rd_inc_keeps _ hcnt,
    Chip.rd_set_keeps _ hseen, ite_self]

theorem Chip.rd_linkDown_steady (cause : Nat) : (c.linkDown l cause).rd f = c.rd f := by
  have hoff := hf.off
  exact (Chip.rd_linkDown_after hl cause hf.slot hf.live (.inl (by omega))).trans (Chip.rd_downShown_steady hl hf cause)

theorem Chip.rd_txChoose_steady (e : Nat) : (c.txChoose l e).rd f = c.rd f := by
  have hoff := hf.off
  exact Chip.rd_txChoose hl e hf.live (by omega)

theorem Chip.rd_rxDirUp_steady (use mask : Nat) : (c.rxDirUp l use mask).rd f = c.rd f := by
  have hseen : (FAB_LK_STAT_REFORM_SEEN l).apart f = true := hf.flag l hl 18 1 (by decide) (by decide)
  have hcnt : (FAB_LK_CNT_REFORMS l).apart f = true := hf.cnt 0 16 l
  have hreformed : FAB_STATUS_LINK_REFORMED.apart f = true := hf.status 1 1
  unfold Chip.rxDirUp
  dsimp only
  rw [Chip.rd_linkShow_other hl hf.live, Chip.rd_linkSlots hl hf.slot, Chip.rd_when, Chip.rd_post _ _ _ _ _ _ hf.page,
    Chip.rd_set_keeps _ hreformed, Chip.rd_inc_keeps _ hcnt, Chip.rd_set_keeps _ hseen, ite_self, Chip.setLink_rd]

theorem Chip.rd_unMiswire_steady : (c.unMiswire l).rd f = c.rd f := by
  unfold Chip.unMiswire
  split
  · exact (Chip.rd_linkShow_other hl hf.live).trans (Chip.rd_wr_keeps _ _ (hf.live.2 l hl).1)
  · rfl

theorem Chip.rd_checkSkew_steady (n : Nat) : (c.checkSkew l n).rd f = c.rd f := by
  have hseen : (FAB_LK_STAT_SKEW_SEEN l).apart f = true := hf.flag l hl 17 1 (by decide) (by decide)
  have hskew : FAB_STATUS_SKEW.apart f = true := hf.status 3 1
  unfold Chip.checkSkew
  dsimp only
  rw [Chip.rd_when, Chip.rd_post _ _ _ _ _ _ hf.page, Chip.rd_set_keeps _ hskew, Chip.rd_set_keeps _ hseen, ite_self, Chip.setLane_rd]

end

/-! ### What the partner reports (R348, R350) -/

/-- The lanes that the partner reports, noted. -/
def Chip.peerNoted (c : Chip) (l up : Nat) : Chip :=
  let since := (List.range (c.linkWidth l)).filterMap fun i => if bit up i then some (i, ((c.link l).since.lookup i).getD c.now) else none
  let first := if up = 0 then none else some ((c.link l).first.getD c.now)
  (c.setLink l { c.link l with since := since, first := first }).wr (FAB_LK_STAT_PEER_RX_UP l) up

/-- The transmitter follows the lanes that the partner reports. -/
def Chip.peerFollowed (c : Chip) (l up w : Nat) (x : Link) : Chip :=
  if c.rd (FAB_LK_STAT_STATE l) = 5 then c
  else if x.tx ≠ .up then (if up = 2 ^ w - 1 then c.txChoose l up else c.linkShow l)
  else if x.txUse &&& up = x.txUse then c
  else if c.eligible l up = 0 then c.linkDown l 1 else c.txChoose l (c.eligible l up)

theorem Chip.peerReport_stages (c : Chip) (l up : Nat) : c.peerReport l up =
    (c.peerNoted l (up % 2 ^ c.linkWidth l)).peerFollowed l (up % 2 ^ c.linkWidth l) (c.linkWidth l) (c.link l) := rfl

theorem Chip.rd_peerFollowed (hl : l < 48) (hf : f.linkSteady) (up w : Nat) (x : Link) : (c.peerFollowed l up w x).rd f = c.rd f := by
  unfold Chip.peerFollowed
  split_ifs
  · rfl
  · exact Chip.rd_txChoose_steady hl hf _
  · exact Chip.rd_linkShow_other hl hf.live
  · rfl
  · exact Chip.rd_linkDown_steady hl hf 1
  · exact Chip.rd_txChoose_steady hl hf _

theorem Chip.rd_peerReport (hl : l < 48) (hf : f.linkSteady) (up : Nat) :
    (c.peerReport l up).rd f = (c.peerNoted l (up % 2 ^ c.linkWidth l)).rd f := by
  rw [Chip.peerReport_stages, Chip.rd_peerFollowed hl hf]

theorem Chip.rd_peerReport_up (hl : l < 48) (up : Nat) :
    (c.peerReport l up).rd (FAB_LK_STAT_PEER_RX_UP l) = up % 2 ^ c.linkWidth l := by
  have hw := c.linkWidth_le l
  have hpow : 2 ^ c.linkWidth l ≤ 2 ^ 4 := Nat.pow_le_pow_right (by decide) hw
  have hlt : up % 2 ^ c.linkWidth l < 2 ^ 4 := Nat.lt_of_lt_of_le (Nat.mod_lt _ (Nat.two_pow_pos _)) hpow
  rw [Chip.rd_peerReport hl (FAB_LK_STAT_PEER_RX_UP_steady hl), Chip.peerNoted]
  exact Chip.rd_wr_lt (by simp [Fld.fits_iff, FAB_LK_STAT_PEER_RX_UP, Reg.fld]) hlt

theorem Chip.rd_peerReport_peer (hl : l < 48) {lo w : Nat} (up : Nat) :
    (c.peerReport l up).rd ((FAB_LK_PEER l).fld lo w) = c.rd ((FAB_LK_PEER l).fld lo w) := by
  have hne : (FAB_LK_STAT_PEER_RX_UP l).apart ((FAB_LK_PEER l).fld lo w) = true :=
    Fld.apart_of_off (by simp only [FAB_LK_STAT_PEER_RX_UP, FAB_LK_STAT, FAB_LK_PEER, Reg.fld]; omega)
  rw [Chip.rd_peerReport hl (FAB_LK_PEER_steady hl), Chip.peerNoted, Chip.rd_wr_keeps _ _ hne, Chip.setLink_rd]

theorem Chip.lanes_peerReport (hl : l < 48) (up : Nat) : (c.peerReport l up).lanes = c.lanes :=
  (Chip.peerReport_within hl .refl (by decide) (by decide) : Chip.Within [1, 8, 12, 48, 64] [.links, .srcs] c _).part .lanes (by decide)

/-! ### A marker (R345 to R347) -/

/-- The lane of a marker that fails the identity checks. -/
def Chip.laneBad (c : Chip) (n : Nat) : Chip := c.setLane n { c.lane n with bad := true, seen := false }

/-- A lane that has heard a marker that passes. -/
def FabLane.heardMarker (x : FabLane) (b now : Nat) (reform : Bool) : FabLane :=
  { x with seen := x.seen || !reform, bad := false, llane := mkLlane b, count := mkCount b, at_ := if reform then x.at_ else now
           set_ := some (mkInUse b, mkSlots b, reform) }

/-- The lane of a marker that passes, and for an alignment marker the skew of the lane and the state of the link. -/
def Chip.laneMarked (c : Chip) (l n b : Nat) (reform : Bool) : Chip :=
  (c.setLane n ((c.lane n).heardMarker b c.now reform)).when (!reform) fun c => (c.checkSkew l n).unMiswire l

/-- The receive direction follows a marker that passes. -/
def Chip.rxFollowed (c : Chip) (l b : Nat) (reform : Bool) : Chip :=
  if c.rd (FAB_LK_STAT_STATE l) = 5 then c
  else if c.setReady l (mkInUse b) (mkSlots b) reform && (reform || (c.link l).rx != .up) then c.rxDirUp l (mkInUse b) (mkSlots b)
  else c.linkShow l

/-- A marker that fails holds its link in MISWIRE; one that passes counts. -/
def Chip.markerJudged (c : Chip) (l n b : Nat) (reform : Bool) : Chip :=
  if c.markerCause l n b ≠ 0 then (c.laneBad n).miswire l (c.markerCause l n b)
  else ((c.laneMarked l n b reform).rxFollowed l b reform).peerReport l (mkRxUp b)

theorem Chip.fabMarker_good {reform : Bool} (ht : c.rd (lnState n) = lnTrained) (hb : blockOk b = true) (hl : c.linkOf n = some l)
    (h : blockType b = if reform then 3 else 2) : c.fabMarker n b reform = (c.peerIdentity l b).markerJudged l n b reform := by
  unfold Chip.fabMarker
  rw [if_neg (show ¬ c.lnSt n ≠ lnTrained from not_not_intro ht), if_neg (by rw [hb]; exact Bool.false_ne_true), if_neg (not_not_intro h), hl]
  rfl

end
end Sys2Proof.Machine
end

section
/-! SUPPORT. What a marker leaves of its lane and link, and the obligation on blocks. -/

namespace Sys2Proof.Machine

section
variable {c d : Chip} {l n b : Nat} {f : Fld}

theorem Chip.lane_of_lanes (h : d.lanes = c.lanes) (k : Nat) : d.lane k = c.lane k := congrArg (tget ({} : FabLane) · k) h

/-! ### The identity checks read what a block leaves (R346) -/

/-- Two chips that agree on what the identity checks of a marker read. -/
structure Chip.MarkerBase (c d : Chip) : Prop where
  rd : ∀ f : Fld, 0x300004 ≤ f.off ∧ f.off < 0x302200 ∨ f.off < 0x10000 ∨ 0x700000 ≤ f.off ∧ f.off < 0x710000 → d.rd f = c.rd f
  lane : ∀ k, (d.lane k).seen = (c.lane k).seen ∧ (d.lane k).llane = (c.lane k).llane

theorem Chip.MarkerBase.markerCause (h : c.MarkerBase d) (hl : l < 48) : d.markerCause l n b = c.markerCause l n b := by
  have hcfg (lo w : Nat) : d.rd ((FAB_LK_CFG l).fld lo w) = c.rd ((FAB_LK_CFG l).fld lo w) :=
    h.rd _ (.inl (by simp only [FAB_LK_CFG, Reg.fld]; omega))
  have hrole : d.role = c.role := h.rd _ (.inr (.inl (by decide)))
  have hwidthCode : d.rd (FAB_LK_CFG_WIDTH l) = c.rd (FAB_LK_CFG_WIDTH l) := hcfg 0 2
  have hpartner : d.rd (FAB_LK_CFG_PARTNER_ID l) = c.rd (FAB_LK_CFG_PARTNER_ID l) := hcfg 8 24
  have hplink : d.rd (FAB_LK_CFG_PARTNER_LINK l) = c.rd (FAB_LK_CFG_PARTNER_LINK l) := hcfg 2 6
  have hwidth : d.linkWidth l = c.linkWidth l := congrArg widthOf hwidthCode
  have hspine : d.rd FAB_CFG_SPINE_PLANE = c.rd FAB_CFG_SPINE_PLANE := h.rd _ (.inl (by decide))
  have hplane : d.linkPlane l = c.linkPlane l := by rw [Chip.linkPlane, hrole, hspine, Chip.linkPlane]
  have hlanes : d.linkLanes l = c.linkLanes l := by rw [Chip.linkLanes, hwidth, Chip.linkLanes]
  have hclash : (c.linkLanes l).any (fun k => k != n && d.lnSt k == lnTrained && (d.lane k).seen && (d.lane k).llane == mkLlane b)
      = (c.linkLanes l).any fun k => k != n && c.lnSt k == lnTrained && (c.lane k).seen && (c.lane k).llane == mkLlane b :=
    List.any_eq_of_mem fun k hk => by
      obtain ⟨i, hi, rfl⟩ := List.mem_map.1 hk
      have hi := List.mem_range.1 hi
      have hle := c.linkWidth_le l
      have hst : d.lnSt (l + i) = c.lnSt (l + i) := h.rd _ (by
        have := lnState_off (show l + i < 52 by omega)
        omega)
      rw [hst, (h.lane _).1, (h.lane _).2]
  rw [Chip.markerCause, hrole, hpartner, hplink, hwidthCode, hplane, hwidth, hlanes, hclash, Chip.markerCause]

theorem Chip.peerIdentity_shows (hl : l < 48) : (c.peerIdentity l b).rd (FAB_LK_PEER_PEER_ID l) = mkDevice b
    ∧ (c.peerIdentity l b).rd (FAB_LK_PEER_PEER_LINK l) = mkLink b := by
  have hfits : (FAB_LK_PEER_PEER_ID l).fits = true ∧ (FAB_LK_PEER_PEER_LINK l).fits = true := by
    simp [Fld.fits_iff, FAB_LK_PEER_PEER_ID, FAB_LK_PEER_PEER_LINK, Reg.fld]
  obtain ⟨hid, hlk⟩ := hfits
  unfold Chip.peerIdentity
  constructor
  · simp (disch := grind [Fld.apart, Fld.fits_iff, Reg.fld, FAB_LK_PEER_PEER_ID, FAB_LK_PEER_PEER_LINK, FAB_LK_PEER_PEER_PLANE,
      FAB_LK_PEER_PEER_TWIN_UNIT]) only [Chip.rd_wr_keeps]
    exact Chip.rd_wr_lt hid (Nat.mod_lt _ (by decide))
  · simp (disch := grind [Fld.apart, Fld.fits_iff, Reg.fld, FAB_LK_PEER_PEER_ID, FAB_LK_PEER_PEER_LINK, FAB_LK_PEER_PEER_PLANE,
      FAB_LK_PEER_PEER_TWIN_UNIT]) only [Chip.rd_wr_keeps]
    exact Chip.rd_wr_lt hlk (Nat.mod_lt _ (by decide))

theorem Chip.rd_peerIdentity (h : f.off ≠ (FAB_LK_PEER l).off) : (c.peerIdentity l b).rd f = c.rd f := by
  have hapart (lo w : Nat) : ((FAB_LK_PEER l).fld lo w).apart f = true := Fld.apart_of_off (Ne.symm h)
  exact (Chip.rd_wr_keeps _ _ (hapart 31 1)).trans ((Chip.rd_wr_keeps _ _ (hapart 30 1)).trans ((Chip.rd_wr_keeps _ _ (hapart 24 6)).trans
    (Chip.rd_wr_keeps _ _ (hapart 0 24))))

theorem Chip.lane_peerIdentity (hl : l < 48) (k : Nat) : (c.peerIdentity l b).lane k = c.lane k :=
  congrArg (tget ({} : FabLane) · k)
    ((Chip.peerIdentity_within hl .refl (by decide) (by decide) : Chip.Within [48] [] c _).part .lanes (by decide))

theorem Chip.markerBase_heard (hl : l < 48) : c.MarkerBase ((c.lnHeard n b).peerIdentity l b) := by
  refine ⟨fun f hf => ?_, fun k => ?_⟩
  · refine (Chip.rd_peerIdentity ?_).trans (Chip.rd_lnHeard f)
    simp only [FAB_LK_PEER]
    omega
  · rw [Chip.lane_peerIdentity hl]
    have hmarked := Chip.marked_lnHeard (c := c) (n := n) (b := b) k
    exact ⟨congrArg (·.1) hmarked, congrArg (fun y => y.2.2.2.1) hmarked⟩

/-! ### A marker that fails -/

theorem Chip.miswire_shows (hl : l < 48) {cause : Nat} (hc : cause < 8) : (c.miswire l cause).rd (FAB_LK_STAT_STATE l) = 5
    ∧ (c.miswire l cause).rd (FAB_LK_STAT_MISWIRE_CAUSE l) = cause := by
  have hpage : (FAB_LK_STAT_STATE l).off / 65536 ≠ 1 ∧ (FAB_LK_STAT_MISWIRE_CAUSE l).off / 65536 ≠ 1 := by
    simp only [FAB_LK_STAT_STATE, FAB_LK_STAT_MISWIRE_CAUSE, FAB_LK_STAT, Reg.fld]
    omega
  obtain ⟨hps, hpc⟩ := hpage
  have hfits : (FAB_LK_STAT_STATE l).fits = true ∧ (FAB_LK_STAT_MISWIRE_CAUSE l).fits = true := by
    simp [Fld.fits_iff, FAB_LK_STAT_STATE, FAB_LK_STAT_MISWIRE_CAUSE, Reg.fld]
  obtain ⟨hfs, hfc⟩ := hfits
  have hstate : (FAB_LK_STAT_MISWIRE_CAUSE l).apart (FAB_LK_STAT_STATE l) = true :=
    Fld.apart_of_clear rfl (by simp [Fld.clearOf_iff, FAB_LK_STAT_STATE, FAB_LK_STAT_MISWIRE_CAUSE, Reg.fld])
  have hseen : (FAB_LK_STAT_MISWIRE_SEEN l).apart (FAB_LK_STAT_STATE l) = true
      ∧ (FAB_LK_STAT_MISWIRE_SEEN l).apart (FAB_LK_STAT_MISWIRE_CAUSE l) = true := by
    constructor <;> exact Fld.apart_of_clear rfl
      (by simp [Fld.clearOf_iff, FAB_LK_STAT_STATE, FAB_LK_STAT_MISWIRE_CAUSE, FAB_LK_STAT_MISWIRE_SEEN, Reg.fld])
  have hstatus : FAB_STATUS_MISWIRE.apart (FAB_LK_STAT_STATE l) = true ∧ FAB_STATUS_MISWIRE.apart (FAB_LK_STAT_MISWIRE_CAUSE l) = true := by
    constructor <;> exact Fld.apart_of_off
      (by simp only [FAB_STATUS_MISWIRE, FAB_STATUS, FAB_LK_STAT_STATE, FAB_LK_STAT_MISWIRE_CAUSE, FAB_LK_STAT, Reg.fld]; omega)
  unfold Chip.miswire
  dsimp only
  generalize c.linkDown l 2 = e
  have he : ((e.wr (FAB_LK_STAT_STATE l) 5).wr (FAB_LK_STAT_MISWIRE_CAUSE l) cause).rd (FAB_LK_STAT_STATE l) = 5
      ∧ ((e.wr (FAB_LK_STAT_STATE l) 5).wr (FAB_LK_STAT_MISWIRE_CAUSE l) cause).rd (FAB_LK_STAT_MISWIRE_CAUSE l) = cause :=
    ⟨(Chip.rd_wr_keeps _ _ hstate).trans (Chip.rd_wr_lt hfs (by decide : 5 < 2 ^ 3)), Chip.rd_wr_lt hfc hc⟩
  generalize (e.wr (FAB_LK_STAT_STATE l) 5).wr (FAB_LK_STAT_MISWIRE_CAUSE l) cause = g at he ⊢
  split
  · exact he
  · rw [Chip.rd_post _ _ _ _ _ _ hps, Chip.rd_post _ _ _ _ _ _ hpc, Chip.rd_set_keeps _ hstatus.1, Chip.rd_set_keeps _ hstatus.2,
      Chip.rd_set_keeps _ hseen.1, Chip.rd_set_keeps _ hseen.2]
    exact he

theorem Chip.rd_miswire_peer (hl : l < 48) (cause lo w : Nat) : (c.miswire l cause).rd ((FAB_LK_PEER l).fld lo w) = c.rd ((FAB_LK_PEER l).fld lo w) := by
  have hpage : ((FAB_LK_PEER l).fld lo w).off / 65536 ≠ 1 := (FAB_LK_PEER_steady hl).page
  have hstat (lo' w' : Nat) : ((FAB_LK_STAT l).fld lo' w').apart ((FAB_LK_PEER l).fld lo w) = true :=
    Fld.apart_of_off (by simp only [FAB_LK_STAT, FAB_LK_PEER, Reg.fld]; omega)
  have hstate : (FAB_LK_STAT_STATE l).apart ((FAB_LK_PEER l).fld lo w) = true := hstat 0 3
  have hcause : (FAB_LK_STAT_MISWIRE_CAUSE l).apart ((FAB_LK_PEER l).fld lo w) = true := hstat 20 3
  have hseen : (FAB_LK_STAT_MISWIRE_SEEN l).apart ((FAB_LK_PEER l).fld lo w) = true := hstat 16 1
  have hstatus : FAB_STATUS_MISWIRE.apart ((FAB_LK_PEER l).fld lo w) = true := (FAB_LK_PEER_steady hl).status 2 1
  unfold Chip.miswire
  dsimp only
  split
  · rw [Chip.rd_wr_keeps _ _ hcause, Chip.rd_wr_keeps _ _ hstate, Chip.rd_linkDown_steady hl (FAB_LK_PEER_steady hl)]
  · rw [Chip.rd_post _ _ _ _ _ _ hpage, Chip.rd_set_keeps _ hstatus, Chip.rd_set_keeps _ hseen, Chip.rd_wr_keeps _ _ hcause,
      Chip.rd_wr_keeps _ _ hstate, Chip.rd_linkDown_steady hl (FAB_LK_PEER_steady hl)]

theorem Chip.markerCause_lt (c : Chip) (l n b : Nat) : c.markerCause l n b < 8 := by
  unfold Chip.markerCause
  dsimp only
  split_ifs <;> decide

/-! ### A marker that passes -/

/-- What later steps of a marker leave of a lane: the skew of the lane may have been judged. -/
def FabLane.unskewed (x : FabLane) : Bool × Nat × Option (Nat × Nat × Bool) := (x.seen, x.count, x.set_)

theorem FabLane.unskewed_judged (x : FabLane) (late : Bool) : FabLane.unskewed { x with skewed := late } = x.unskewed := rfl

theorem Chip.lane_checkSkew : ∃ late, (c.checkSkew l n).lane n = { c.lane n with skewed := late } := by
  unfold Chip.checkSkew
  dsimp only
  refine ⟨_, (congrArg (tget ({} : FabLane) · n) (Chip.when_keeps (·.lanes) _ _ ?_)).trans ((Chip.lane_setLane ..).trans (if_pos rfl))⟩
  rw [Chip.post_lanes, Chip.set_def, Chip.wr_lanes, Chip.set_def, Chip.wr_lanes]

theorem Chip.laneMarked_lane (hl : l < 48) (reform : Bool) :
    ((c.laneMarked l n b reform).lane n).unskewed = ((c.lane n).heardMarker b c.now reform).unskewed := by
  have hset : (c.setLane n ((c.lane n).heardMarker b c.now reform)).lane n = (c.lane n).heardMarker b c.now reform :=
    (Chip.lane_setLane ..).trans (if_pos rfl)
  rw [← hset, Chip.laneMarked]
  generalize c.setLane n ((c.lane n).heardMarker b c.now reform) = e
  rcases Chip.when_cases e (!reform) (fun c => (c.checkSkew l n).unMiswire l) with h | h <;> rw [h]
  obtain ⟨late, hlate⟩ := Chip.lane_checkSkew (c := e) (l := l) (n := n)
  have hun := (Chip.unMiswire_within hl .refl (by decide) (by decide) : Chip.Within [1, 48] [.links] (e.checkSkew l n) _).part .lanes (by decide)
  rw [Chip.lane_of_lanes hun n]
  exact (congrArg FabLane.unskewed hlate).trans (FabLane.unskewed_judged ..)

theorem Chip.lanes_rxFollowed (hl : l < 48) (reform : Bool) : (c.rxFollowed l b reform).lanes = c.lanes := by
  unfold Chip.rxFollowed
  split_ifs
  · rfl
  · exact (Chip.rxDirUp_within hl .refl (by decide) (by decide) : Chip.Within [1, 8, 12, 48, 64] [.links, .srcs] c _).part .lanes (by decide)
  · exact (Chip.linkShow_within hl .refl (by decide) (by decide) : Chip.Within [1, 48] [.links] c _).part .lanes (by decide)

theorem Chip.rd_rxFollowed (hl : l < 48) (hf : f.linkSteady) (reform : Bool) : (c.rxFollowed l b reform).rd f = c.rd f := by
  unfold Chip.rxFollowed
  split_ifs
  · rfl
  · exact Chip.rd_rxDirUp_steady hl hf _ _
  · exact Chip.rd_linkShow_other hl hf.live

theorem Chip.rd_laneMarked (hl : l < 48) (hf : f.linkSteady) (reform : Bool) : (c.laneMarked l n b reform).rd f = c.rd f := by
  rw [Chip.laneMarked, Chip.rd_when, Chip.rd_unMiswire_steady hl hf, Chip.rd_checkSkew_steady hl hf, ite_self, Chip.setLane_rd]

theorem Chip.markerJudged_bad (reform : Bool) (h : c.markerCause l n b ≠ 0) :
    c.markerJudged l n b reform = (c.laneBad n).miswire l (c.markerCause l n b) := if_pos h

theorem Chip.markerJudged_passed (reform : Bool) (h : c.markerCause l n b = 0) :
    c.markerJudged l n b reform = ((c.laneMarked l n b reform).rxFollowed l b reform).peerReport l (mkRxUp b) := if_neg (not_not_intro h)

theorem Chip.rd_markerJudged_peer (hl : l < 48) (reform : Bool) (lo w : Nat) :
    (c.markerJudged l n b reform).rd ((FAB_LK_PEER l).fld lo w) = c.rd ((FAB_LK_PEER l).fld lo w) := by
  by_cases h : c.markerCause l n b = 0
  · rw [Chip.markerJudged_passed _ h, Chip.rd_peerReport_peer hl, Chip.rd_rxFollowed hl (FAB_LK_PEER_steady hl),
      Chip.rd_laneMarked hl (FAB_LK_PEER_steady hl)]
  · rw [Chip.markerJudged_bad _ h, Chip.rd_miswire_peer hl, Chip.laneBad, Chip.setLane_rd]

theorem Chip.markerJudged_lane (hl : l < 48) (reform : Bool) (h : c.markerCause l n b = 0) :
    ((c.markerJudged l n b reform).lane n).unskewed = ((c.lane n).heardMarker b c.now reform).unskewed := by
  rw [Chip.markerJudged_passed _ h, Chip.lane_of_lanes ((Chip.lanes_peerReport hl _).trans (Chip.lanes_rxFollowed hl _)) n]
  exact Chip.laneMarked_lane hl reform

theorem Chip.markerJudged_up (hl : l < 48) (reform : Bool) (h : c.markerCause l n b = 0) :
    (c.markerJudged l n b reform).rd (FAB_LK_STAT_PEER_RX_UP l) = mkRxUp b % 2 ^ c.linkWidth l := by
  have hcfg : ((c.laneMarked l n b reform).rxFollowed l b reform).rd (FAB_LK_CFG_WIDTH l) = c.rd (FAB_LK_CFG_WIDTH l) :=
    (Chip.rd_rxFollowed hl (FAB_LK_CFG_steady hl) reform).trans (Chip.rd_laneMarked hl (FAB_LK_CFG_steady hl) reform)
  have hwidth : ((c.laneMarked l n b reform).rxFollowed l b reform).linkWidth l = c.linkWidth l := congrArg widthOf hcfg
  rw [Chip.markerJudged_passed _ h, Chip.rd_peerReport_up hl, hwidth]

theorem Chip.markerJudged_miswire (hl : l < 48) (reform : Bool) (h : c.markerCause l n b ≠ 0) :
    (c.markerJudged l n b reform).rd (FAB_LK_STAT_STATE l) = 5
      ∧ (c.markerJudged l n b reform).rd (FAB_LK_STAT_MISWIRE_CAUSE l) = c.markerCause l n b := by
  rw [Chip.markerJudged_bad _ h]
  exact Chip.miswire_shows hl (c.markerCause_lt l n b)

/-- What a marker that reaches a TRAINED lane leaves: the partner's identity, and its lane and link as the checks find it. -/
theorem Chip.fabMarker_heard {reform : Bool} (hn : n < 48) (ht : c.rd (lnState n) = lnTrained) (hb : blockOk b = true) (hlink : c.linkOf n = some l)
    (htype : blockType b = if reform then 3 else 2) :
    ((c.lnHeard n b).fabMarker n b reform).rd (FAB_LK_PEER_PEER_ID l) = mkDevice b
      ∧ ((c.lnHeard n b).fabMarker n b reform).rd (FAB_LK_PEER_PEER_LINK l) = mkLink b
      ∧ (c.markerCause l n b = 0 → (((c.lnHeard n b).fabMarker n b reform).lane n).unskewed
            = (((c.lnHeard n b).lane n).heardMarker b c.now reform).unskewed
          ∧ ((c.lnHeard n b).fabMarker n b reform).rd (FAB_LK_STAT_PEER_RX_UP l) = mkRxUp b % 2 ^ c.linkWidth l)
      ∧ (c.markerCause l n b ≠ 0 → ((c.lnHeard n b).fabMarker n b reform).rd (FAB_LK_STAT_STATE l) = 5
          ∧ ((c.lnHeard n b).fabMarker n b reform).rd (FAB_LK_STAT_MISWIRE_CAUSE l) = c.markerCause l n b) := by
  have hl : l < 48 := Nat.lt_of_le_of_lt (Chip.linkOf_le hlink) hn
  have hcause := (Chip.markerBase_heard (c := c) (n := n) (b := b) hl).markerCause (n := n) (b := b) hl
  obtain ⟨hid, hlk⟩ := Chip.peerIdentity_shows (c := c.lnHeard n b) (b := b) hl
  have hwidth : ((c.lnHeard n b).peerIdentity l b).linkWidth l = c.linkWidth l :=
    congrArg widthOf ((Chip.markerBase_heard (c := c) (n := n) (b := b) hl).rd _
      (.inl (by simp only [FAB_LK_CFG_WIDTH, FAB_LK_CFG, Reg.fld]; omega)))
  have hnow : ((c.lnHeard n b).peerIdentity l b).now = c.now := by
    simp only [Chip.peerIdentity, Chip.wr_now]
    exact Chip.lnHeard_now
  rw [Chip.fabMarker_good ((Chip.rd_lnHeard _).trans ht) hb ((Chip.linkOf_lnHeard n).trans hlink) htype]
  refine ⟨(Chip.rd_markerJudged_peer hl reform 0 24).trans hid, (Chip.rd_markerJudged_peer hl reform 24 6).trans hlk, fun h => ⟨?_, ?_⟩, fun h => ?_⟩
  · rw [Chip.markerJudged_lane hl reform (hcause.trans h), Chip.lane_peerIdentity hl, hnow]
  · rw [Chip.markerJudged_up hl reform (hcause.trans h), hwidth]
  · have hshows := Chip.markerJudged_miswire (c := (c.lnHeard n b).peerIdentity l b) hl reform (hcause ▸ h)
    rwa [hcause] at hshows

/-! ### A marker on a twin lane (R552, R553) -/

/-- A marker of a twin lane that is not one of the other unit's same lane. -/
def Chip.twinMarkerBad (c : Chip) (n b : Nat) : Bool :=
  mkRole b != 0 || mkUnit b == c.twnUnit || mkLink b != n - 48 || mkLlane b != 0 || mkCfgWidth b != 1

/-- A twin lane that has heard a marker. -/
def FabLane.heardTwin (x : FabLane) (b now : Nat) (bad : Bool) : FabLane := { x with seen := x.seen || !bad, bad := bad, count := mkCount b, at_ := now }

/-- The instant of the last correct block of the twin link. -/
def Twn.blockHeard (x : Twn) (now : Nat) : Twn := { x with blockAt := now }

theorem Chip.twnMarker_good (ht : c.rd (lnState n) = lnTrained) (hb : blockOk b = true) (h : blockType b = 2) : c.twnMarker n b false =
    ((c.setLane n ((c.lane n).heardTwin b c.now (c.twinMarkerBad n b))).setTwn (c.twn.blockHeard c.now)).twnShow := by
  unfold Chip.twnMarker
  rw [if_neg (show ¬ c.lnSt n ≠ lnTrained from not_not_intro ht), if_neg (by rw [hb]; exact Bool.false_ne_true),
    if_neg (show ¬ blockType b ≠ if false then 3 else 2 from not_not_intro h)]
  rfl

theorem Chip.twnMarker_shows (ht : c.rd (lnState n) = lnTrained) (hb : blockOk b = true) (h : blockType b = 2) :
    (c.twnMarker n b false).twn.blockAt = c.now ∧ ((c.twnMarker n b false).lane n).bad = c.twinMarkerBad n b := by
  rw [Chip.twnMarker_good ht hb h]
  have hw (e : Chip) : Chip.Within [0, 112] [] e e.twnShow := Chip.twnShow_within .refl (by decide) (by decide)
  constructor
  · exact (congrArg Twn.blockAt ((hw _).part .twn (by decide))).trans (congrArg Twn.blockAt (Chip.setTwn_twn ..))
  · rw [Chip.lane_of_lanes ((hw _).part .lanes (by decide)), Chip.lane_of_lanes (Chip.setTwn_lanes ..), Chip.lane_setLane, if_pos rfl]
    rfl

end

/-- Settles O43: a TRAINED lane hears the block first, which leaves all that the checks of blocks and markers read; the line code decodes what it
precodes symbol by symbol. -/
theorem laneBlocks : Obligations.LaneBlocks := by
  unfold Obligations.LaneBlocks
  refine ⟨⟨?_, ?_, ?_, ?_, ?_, ?_, ?_, ?_⟩, ?_, ?_, ?_⟩
  · rintro s t n b _ rfl hlive ht hb
    refine ⟨_, State.event_live s t _ hlive, ?_⟩
    dsimp only
    rw [Chip.lnIn_trained ht, Chip.fabData_bad ht hb, Chip.twnBlock_bad ht hb, ite_self]
    exact Chip.crcErr_heard
  · rintro s t n b _ rfl hlive ht hb
    refine ⟨_, State.event_live s t _ hlive, ?_⟩
    dsimp only
    rw [Chip.lnIn_trained ht, Chip.fabStatus_bad ht hb, Chip.twnBlock_bad ht hb, ite_self]
    exact Chip.crcErr_heard
  · rintro s t n b _ rfl hlive ht hb hs
    refine ⟨_, State.event_live s t _ hlive, ?_⟩
    dsimp only
    rw [Chip.lnIn_trained ht, Chip.fabMarker_bad ht hb hs, Chip.twnMarker_bad ht hb hs, ite_self]
    exact Chip.crcErr_heard
  · rintro s t n l b _ rfl hlive ht hb hlink h0
    refine ⟨_, State.event_live s t _ hlive, ?_⟩
    simp only [Fin.val_castLE, n.isLt, if_true]
    rw [Chip.lnIn_trained ht, Chip.fabData_good ht hb hlink h0]
    have hregs : ((s.chipAt t).lnHeard n.val b.toNat).regs = (s.chipAt t).regs := Chip.lnHeard_regs
    have hlinks : ((s.chipAt t).lnHeard n.val b.toNat).links = (s.chipAt t).links := Chip.lnHeard_links
    split
    · refine ⟨(Chip.setLink_regs _ l (((s.chipAt t).link l).delivered b.toNat)).trans hregs, ?_⟩
      rw [Chip.link_of_links (State.commit_links ..), Chip.link_setLink, if_pos rfl]
      exact (tget_tput ..).trans (if_pos rfl)
    · exact ⟨hregs, hlinks⟩
  · rintro s t n l b _ rfl hlive ht hb hlink h1
    refine ⟨_, State.event_live s t _ hlive, ?_⟩
    simp only [Fin.val_castLE, n.isLt, if_true]
    rw [Chip.lnIn_trained ht, Chip.fabStatus_good ht hb hlink h1, State.commit_rd,
      Chip.rd_peerReport_up (Nat.lt_of_le_of_lt (Chip.linkOf_le hlink) n.isLt), Chip.linkWidth_lnHeard]
  · rintro s t n l b _ rfl hlive ht hb hlink h2
    refine ⟨_, State.event_live s t _ hlive, ?_⟩
    simp only [Fin.val_castLE, n.isLt, if_true]
    rw [Chip.lnIn_trained ht]
    obtain ⟨hid, hlk, hpass, hfail⟩ := Chip.fabMarker_heard (reform := false) n.isLt ht hb hlink h2
    refine ⟨hid, hlk, fun h => ?_, hfail⟩
    have hlane := (hpass h).1
    simp only [FabLane.unskewed, FabLane.heardMarker, Prod.mk.injEq] at hlane
    obtain ⟨hseen, hcount, -⟩ := hlane
    exact ⟨hseen.trans (Bool.or_true _), hcount⟩
  · rintro s t n l b _ rfl hlive ht hb hlink h3 hcause _
    refine ⟨_, State.event_live s t _ hlive, ?_⟩
    simp only [Fin.val_castLE, n.isLt, if_true]
    rw [Chip.lnIn_trained ht]
    obtain ⟨hid, -, hpass, -⟩ := Chip.fabMarker_heard (reform := true) n.isLt ht hb hlink h3
    obtain ⟨hlane, hup⟩ := hpass hcause
    simp only [FabLane.unskewed, FabLane.heardMarker, Prod.mk.injEq] at hlane
    obtain ⟨-, -, hset⟩ := hlane
    exact ⟨hset, hid, hup⟩
  · rintro s t n b _ rfl hlive hn ht hb h2
    refine ⟨_, State.event_live s t _ hlive, ?_⟩
    simp only [if_neg (Nat.not_lt.2 hn)]
    rw [Chip.lnIn_trained ht]
    obtain ⟨hat, hbad⟩ := Chip.twnMarker_shows (c := (s.chipAt t).lnHeard n.val b.toNat) ((Chip.rd_lnHeard _).trans ht) hb h2
    have hunit : ((s.chipAt t).lnHeard n.val b.toNat).twnUnit = (s.chipAt t).twnUnit := Chip.rd_lnHeard _
    refine ⟨hat.trans Chip.lnHeard_now, hbad.trans ?_⟩
    rw [Chip.twinMarkerBad, hunit]
  · exact fun last gs hl hgs => decodeAll_precodeAll gs last hl hgs
  · exact fun last ps hl hps => decodeAll_reversed ps last hl hps
  · rintro c d n m b hlevel hlt hfresh hinv
    rw [Chip.received, hinv, hfresh, hlevel]
    exact decodeAll_precodeAll _ _ hlt (symbols_lt b)

end Sys2Proof.Machine
end

section
/-! SUPPORT. The duplicate histories play no part in what a change does (R136): registers, sources, power, the crosspoint and the store. -/

namespace Sys2Proof.Machine

/-- The part with its duplicate histories empty. -/
def Chip.blank (c : Chip) : Chip := { c with fw := { c.fw with hist := [] } }

theorem Chip.blank_trimmed (c : Chip) (ch : Nat) : (c.trimmed ch).blank = c.blank := rfl

section
variable (c : Chip)

/-! ### How the empty histories pass through

The equations that hold by computation are written `(rfl)`: `simp` then rewrites by them, and no check of a long chain of steps is left to the
kernel. -/

@[simp] theorem Chip.ite_blank (p : Prop) [Decidable p] (x y : Chip) : (if p then x.blank else y.blank) = (if p then x else y).blank :=
  (apply_ite Chip.blank p x y).symm

@[simp] theorem Chip.when_blank (b : Bool) (g : Chip → Chip) (hg : ∀ x : Chip, g x.blank = (g x).blank) : c.blank.when b g = (c.when b g).blank := by
  cases b
  case false => rfl
  case true => exact hg c

@[simp] theorem Chip.each_blank {α : Type} (l : List α) (g : Chip → α → Chip) (hg : ∀ (x : Chip) a, g x.blank a = (g x a).blank) :
    c.blank.each l g = (c.each l g).blank := by
  induction l generalizing c with
  | nil => rfl
  | cons a l ih => rw [Chip.each_cons, hg, ih, Chip.each_cons]

@[simp] theorem Chip.now_blank : c.blank.now = c.now := (rfl)
@[simp] theorem Chip.free_blank : c.blank.free = c.free := (rfl)
@[simp] theorem Chip.out_blank : c.blank.out = c.out := (rfl)
@[simp] theorem Chip.evts_blank : c.blank.evts = c.evts := (rfl)
@[simp] theorem Chip.risen_blank : c.blank.risen = c.risen := (rfl)
@[simp] theorem Chip.clock_blank : c.blank.clock = c.clock := (rfl)
@[simp] theorem Chip.regs_blank : c.blank.regs = c.regs := (rfl)
@[simp] theorem Chip.host_blank : c.blank.host = c.host := (rfl)
@[simp] theorem Chip.planes_blank : c.blank.planes = c.planes := (rfl)
@[simp] theorem Chip.srcs_blank : c.blank.srcs = c.srcs := (rfl)
@[simp] theorem Chip.dsts_blank : c.blank.dsts = c.dsts := (rfl)
@[simp] theorem Chip.sent_blank : c.blank.sent = c.sent := (rfl)
@[simp] theorem Chip.pwr_blank : c.blank.pwr = c.pwr := (rfl)
@[simp] theorem Chip.dmc_blank : c.blank.dmc = c.dmc := (rfl)
@[simp] theorem Chip.lbs_blank : c.blank.lbs = c.lbs := (rfl)
@[simp] theorem Chip.sdi_blank : c.blank.sdi = c.sdi := (rfl)
@[simp] theorem Chip.lanes_blank : c.blank.lanes = c.lanes := (rfl)
@[simp] theorem Chip.links_blank : c.blank.links = c.links := (rfl)
@[simp] theorem Chip.diffAt_blank : c.blank.diffAt = c.diffAt := (rfl)
@[simp] theorem Chip.nets_blank : c.blank.nets = c.nets := (rfl)
@[simp] theorem Chip.flows_blank : c.blank.flows = c.flows := (rfl)
@[simp] theorem Chip.senders_blank : c.blank.senders = c.senders := (rfl)
@[simp] theorem Chip.ptp_blank : c.blank.ptp = c.ptp := (rfl)
@[simp] theorem Chip.ref_blank : c.blank.ref = c.ref := (rfl)
@[simp] theorem Chip.aud_blank : c.blank.aud = c.aud := (rfl)
@[simp] theorem Chip.sap_blank : c.blank.sap = c.sap := (rfl)
@[simp] theorem Chip.heads_blank : c.blank.heads = c.heads := (rfl)
@[simp] theorem Chip.twn_blank : c.blank.twn = c.twn := (rfl)
@[simp] theorem Chip.bus_blank : c.blank.bus = c.bus := (rfl)
@[simp] theorem Chip.pmcAt_blank : c.blank.pmcAt = c.pmcAt := (rfl)
@[simp] theorem Chip.upd_blank : c.blank.upd = c.upd := (rfl)
@[simp] theorem Chip.fw_waits_blank : c.blank.fw.waits = c.fw.waits := (rfl)
@[simp] theorem Chip.fw_queue_blank : c.blank.fw.queue = c.fw.queue := (rfl)
@[simp] theorem Chip.fw_journal_blank : c.blank.fw.journal = c.fw.journal := (rfl)
@[simp] theorem Chip.fw_running_blank : c.blank.fw.running = c.fw.running := (rfl)

/-- A part written over empty histories leaves them empty. -/
@[simp] theorem Chip.mk_blank {now' free' out' evts' risen' clock' regs' host' planes' srcs' dsts' sent' pwr' dmc' lbs' sdi' lanes' links'
    diffAt' nets' flows' senders' ptp' ref' aud' sap' heads' twn' bus' pmcAt' upd'} :
    Chip.mk now' free' out' evts' risen' clock' regs' host' c.blank.fw planes' srcs' dsts' sent' pwr' dmc' lbs' sdi' lanes' links' diffAt'
      nets' flows' senders' ptp' ref' aud' sap' heads' twn' bus' pmcAt' upd'
      = (Chip.mk now' free' out' evts' risen' clock' regs' host' c.fw planes' srcs' dsts' sent' pwr' dmc' lbs' sdi' lanes' links' diffAt'
        nets' flows' senders' ptp' ref' aud' sap' heads' twn' bus' pmcAt' upd').blank := (rfl)
end

section
variable (c : Chip)

/-! ### Registers and parts -/

@[simp] theorem Chip.get_blank (r : Reg) : c.blank.get r = c.get r := by simp [Chip.get]
@[simp] theorem Chip.put_blank (r : Reg) (v : Nat) : c.blank.put r v = (c.put r v).blank := by simp [Chip.put]
@[simp] theorem Chip.rd_blank (f : Fld) : c.blank.rd f = c.rd f := by simp [Chip.rd]
@[simp] theorem Chip.on_blank (f : Fld) : c.blank.on f = c.on f := by simp [Chip.on]
@[simp] theorem Chip.wr_blank (f : Fld) (v : Nat) : c.blank.wr f v = (c.wr f v).blank := by simp [Chip.wr]
@[simp] theorem Chip.set_blank (f : Fld) : c.blank.set f = (c.set f).blank := by simp [Chip.set]
@[simp] theorem Chip.clr_blank (f : Fld) : c.blank.clr f = (c.clr f).blank := by simp [Chip.clr]
@[simp] theorem Chip.wrB_blank (f : Fld) (b : Bool) : c.blank.wrB f b = (c.wrB f b).blank := by simp [Chip.wrB]
@[simp] theorem Chip.add_blank (f : Fld) (k : Nat) : c.blank.add f k = (c.add f k).blank := by simp [Chip.add]
@[simp] theorem Chip.inc_blank (f : Fld) : c.blank.inc f = (c.inc f).blank := by simp [Chip.inc]
@[simp] theorem Chip.rdI_blank (f : Fld) : c.blank.rdI f = c.rdI f := by simp [Chip.rdI]
@[simp] theorem Chip.wrI_blank (f : Fld) (i : Int) : c.blank.wrI f i = (c.wrI f i).blank := by simp [Chip.wrI]
@[simp] theorem Chip.setBit_blank (f : Fld) (i : Nat) : c.blank.setBit f i = (c.setBit f i).blank := by simp [Chip.setBit]
@[simp] theorem Chip.listed_blank (base n : Nat) : c.blank.listed base n = c.listed base n := by simp [Chip.listed]
@[simp] theorem Chip.src_blank (s : Nat) : c.blank.src s = c.src s := by simp [Chip.src]
@[simp] theorem Chip.setSrc_blank (s : Nat) (x : Src) : c.blank.setSrc s x = (c.setSrc s x).blank := by simp [Chip.setSrc]
@[simp] theorem Chip.dst_blank (d : Nat) : c.blank.dst d = c.dst d := by simp [Chip.dst]
@[simp] theorem Chip.setDst_blank (d : Nat) (x : Dst) : c.blank.setDst d x = (c.setDst d x).blank := by simp [Chip.setDst]
@[simp] theorem Chip.plane_blank (p : Nat) : c.blank.plane p = c.plane p := by simp [Chip.plane]
@[simp] theorem Chip.setPlane_blank (p : Nat) (x : Plane) : c.blank.setPlane p x = (c.setPlane p x).blank := by simp [Chip.setPlane]
@[simp] theorem Chip.emit_blank (o : MemOp) : c.blank.emit o = (c.emit o).blank := by simp [Chip.emit]
@[simp] theorem Chip.systime_blank : c.blank.systime = c.systime := by simp [Chip.systime]
@[simp] theorem Chip.ready_blank : c.blank.ready = c.ready := by simp [Chip.ready]
@[simp] theorem Chip.post_blank (block code inst arg : Nat) : c.blank.post block code inst arg = (c.post block code inst arg).blank :=
  by simp [Chip.post]
@[simp] theorem Chip.fresh_blank (off : Nat) : c.blank.fresh off = c.fresh off := (rfl)

/-! ### Planes, epochs and sources (chapters 05 and 06) -/

@[simp] theorem Chip.planeFmt_blank (p : Nat) : c.blank.planeFmt p = c.planeFmt p := by simp [Chip.planeFmt]
@[simp] theorem Chip.mayRun_blank (f p : Nat) : c.blank.mayRun f p = c.mayRun f p := by simp [Chip.mayRun]
@[simp] theorem Chip.planePeriod_blank (p : Nat) : c.blank.planePeriod p = c.planePeriod p := by simp [Chip.planePeriod]
@[simp] theorem Chip.planeState_blank (p : Nat) : c.blank.planeState p = c.planeState p := by simp [Chip.planeState]
@[simp] theorem Chip.role_blank : c.blank.role = c.role := by simp [Chip.role]
@[simp] theorem Chip.epochNow_blank (p : Nat) : c.blank.epochNow p = c.epochNow p := by simp [Chip.epochNow]
@[simp] theorem Chip.epochAt_blank (p e : Nat) : c.blank.epochAt p e = c.epochAt p e := by simp [Chip.epochAt]
@[simp] theorem Chip.assignEpoch_blank (p want : Nat) : c.blank.assignEpoch p want = c.assignEpoch p want := by simp [Chip.assignEpoch]
@[simp] theorem Chip.carafeOf_blank (p : Nat) : c.blank.carafeOf p = c.carafeOf p := by simp [Chip.carafeOf]
@[simp] theorem Chip.srcPlane_blank (s : Nat) : c.blank.srcPlane s = c.srcPlane s := by simp [Chip.srcPlane]
@[simp] theorem Chip.cfgFmt_blank (s : Nat) : c.blank.cfgFmt s = c.cfgFmt s := by simp [Chip.cfgFmt]
@[simp] theorem Chip.cfgClass_blank (s : Nat) : c.blank.cfgClass s = c.cfgClass s := by simp [Chip.cfgClass]
@[simp] theorem Chip.bondedRx_blank (s : Nat) : c.blank.bondedRx s = c.bondedRx s := by simp [Chip.bondedRx]
@[simp] theorem Chip.bondedTx_blank (d : Nat) : c.blank.bondedTx d = c.bondedTx d := by simp [Chip.bondedTx]
@[simp] theorem Chip.leadOf_blank (s : Nat) : c.blank.leadOf s = c.leadOf s := by simp [Chip.leadOf]
@[simp] theorem Chip.detFmt_blank (s : Nat) : c.blank.detFmt s = c.detFmt s := by simp [Chip.detFmt]
@[simp] theorem Chip.linePeriod_blank (s : Nat) : c.blank.linePeriod s = c.linePeriod s := by simp [Chip.linePeriod]
@[simp] theorem Chip.fmtMatches_blank (s f : Nat) : c.blank.fmtMatches s f = c.fmtMatches s f := by simp [Chip.fmtMatches]
@[simp] theorem Chip.srcValid_blank (s : Nat) : c.blank.srcValid s = c.srcValid s := by simp [Chip.srcValid]
@[simp] theorem Chip.dramFailed_blank : c.blank.dramFailed = c.dramFailed := by simp [Chip.dramFailed]
@[simp] theorem Chip.slotLost_blank (m : Nat) : c.blank.slotLost m = c.slotLost m := by simp [Chip.slotLost]
@[simp] theorem Chip.ownCause_blank (s : Nat) : c.blank.ownCause s = c.ownCause s := by simp [Chip.ownCause]
@[simp] theorem Chip.srcCause_blank (s : Nat) : c.blank.srcCause s = c.srcCause s := by simp [Chip.srcCause]
@[simp] theorem Chip.destsOf_blank : c.blank.destsOf = c.destsOf := by
  funext s
  simp [Chip.destsOf]
@[simp] theorem Chip.routed_blank : c.blank.routed = c.routed := by simp [Chip.routed]
@[simp] theorem Chip.holdFrame_blank (s0 : Nat) : c.blank.holdFrame s0 = c.holdFrame s0 := by simp [Chip.holdFrame]
@[simp] theorem Chip.lossPlan_blank (d : Nat) : c.blank.lossPlan d = c.lossPlan d := by simp [Chip.lossPlan]
@[simp] theorem Chip.clearLoss_blank (d : Nat) : c.blank.clearLoss d = (c.clearLoss d).blank := by simp [Chip.clearLoss]
@[simp] theorem Chip.showLoss_blank (d : Nat) : c.blank.showLoss d = (c.showLoss d).blank := by simp [Chip.showLoss]
@[simp] theorem Chip.startLoss_blank (d : Nat) : c.blank.startLoss d = (c.startLoss d).blank := by simp [Chip.startLoss]
@[simp] theorem Chip.endLoss_blank (d : Nat) : c.blank.endLoss d = (c.endLoss d).blank := by simp [Chip.endLoss]
@[simp] theorem Chip.flagCause_blank (s cause : Nat) : c.blank.flagCause s cause = (c.flagCause s cause).blank := by simp [Chip.flagCause]
@[simp] theorem Chip.groupOf_blank (s : Nat) : c.blank.groupOf s = c.groupOf s := by simp [Chip.groupOf]
@[simp] theorem Chip.flowReceiving_blank (f : Nat) : c.blank.flowReceiving f = (c.flowReceiving f).blank := by simp [Chip.flowReceiving]
@[simp] theorem Chip.flowLost_blank (f cause : Nat) : c.blank.flowLost f cause = (c.flowLost f cause).blank := by simp [Chip.flowLost]
@[simp] theorem Chip.showDet_blank (s : Nat) : c.blank.showDet s = (c.showDet s).blank := by simp [Chip.showDet]
@[simp] theorem Chip.unwritten_blank (s : Nat) : c.blank.unwritten s = c.unwritten s := by simp [Chip.unwritten]
@[simp] theorem Chip.lossStarts_blank (s : Nat) : c.blank.lossStarts s = (c.lossStarts s).blank := by simp [Chip.lossStarts]
@[simp] theorem Chip.loseSrc_blank (s0 : Nat) : c.blank.loseSrc s0 = (c.loseSrc s0).blank := by simp [Chip.loseSrc]
@[simp] theorem Chip.judgeSrc_blank (s0 : Nat) : c.blank.judgeSrc s0 = (c.judgeSrc s0).blank := by simp [Chip.judgeSrc]
@[simp] theorem Chip.gainSrc_blank (s0 : Nat) : c.blank.gainSrc s0 = (c.gainSrc s0).blank := by simp [Chip.gainSrc]
@[simp] theorem Chip.crossOn_blank (s p : Nat) : c.blank.crossOn s p = c.crossOn s p := by simp [Chip.crossOn]

/-! ### Power domains (chapter 03) -/

@[simp] theorem Chip.dom_blank (n : Nat) : c.blank.dom n = c.dom n := by simp [Chip.dom]
@[simp] theorem Chip.domOn_blank (n : Nat) : c.blank.domOn n = c.domOn n := by simp [Chip.domOn]
@[simp] theorem Chip.domGoal_blank (n : Nat) : c.blank.domGoal n = c.domGoal n := by simp [Chip.domGoal]
@[simp] theorem Chip.domStart_blank (n v : Nat) : c.blank.domStart n v = (c.domStart n v).blank := by simp [Chip.domStart]
@[simp] theorem Chip.domReq_blank (n v : Nat) : c.blank.domReq n v = (c.domReq n v).blank := by simp [Chip.domReq]
@[simp] theorem Chip.domForce_blank (n v : Nat) : c.blank.domForce n v = (c.domForce n v).blank := by simp [Chip.domForce]
@[simp] theorem Chip.monWrite_blank (m v : Nat) : c.blank.monWrite m v = (c.monWrite m v).blank := by simp [Chip.monWrite]

/-! ### The crosspoint (chapter 05) -/

@[simp] theorem Chip.srcFormat_blank (s : Nat) : c.blank.srcFormat s = c.srcFormat s := by simp [Chip.srcFormat]
@[simp] theorem Chip.srcLevelB_blank (s : Nat) : c.blank.srcLevelB s = c.srcLevelB s := by simp [Chip.srcLevelB]
@[simp] theorem Chip.followFmt_blank (d : Nat) : c.blank.followFmt d = (c.followFmt d).blank := by simp [Chip.followFmt]
@[simp] theorem Chip.outDelay_blank (d f : Nat) : c.blank.outDelay d f = c.outDelay d f := by simp [Chip.outDelay]
@[simp] theorem Chip.dstPlane_blank (d : Nat) : c.blank.dstPlane d = c.dstPlane d := by simp [Chip.dstPlane]
@[simp] theorem Chip.routeFields_blank (d s : Nat) (quad : Bool) : c.blank.routeFields d s quad = (c.routeFields d s quad).blank :=
  by simp [Chip.routeFields]
@[simp] theorem Chip.dstLost_blank (d : Nat) : c.blank.dstLost d = c.dstLost d := by simp [Chip.dstLost]
@[simp] theorem Chip.crossEnd_blank (s0 : Nat) : c.blank.crossEnd s0 = (c.crossEnd s0).blank := by simp [Chip.crossEnd]
@[simp] theorem Chip.syncRec_blank (d : Nat) : c.blank.syncRec d = (c.syncRec d).blank := by simp [Chip.syncRec]
@[simp] theorem Chip.routeTakes_blank (d w : Nat) : c.blank.routeTakes d w = (c.routeTakes d w).blank := by simp [Chip.routeTakes]
@[simp] theorem Chip.applyRoute_blank (d w : Nat) : c.blank.applyRoute d w = (c.applyRoute d w).blank := by simp [Chip.applyRoute]
@[simp] theorem Chip.applyDest_blank (d w : Nat) : c.blank.applyDest d w = (c.applyDest d w).blank := by simp [Chip.applyDest]
@[simp] theorem Chip.followClass_blank (s : Nat) : c.blank.followClass s = (c.followClass s).blank := by simp [Chip.followClass]
@[simp] theorem Chip.applyGen_blank (g w colour : Nat) : c.blank.applyGen g w colour = (c.applyGen g w colour).blank := by simp [Chip.applyGen]
@[simp] theorem Chip.applySrc_blank (s w : Nat) : c.blank.applySrc s w = (c.applySrc s w).blank := by
  have hshow (x : Chip) (d : Nat) : x.blank.when (x.on (XPT_DST_STAT_LOSS_ACTIVE d)) (fun c => (c.clearLoss d).showLoss d)
      = (x.when (x.on (XPT_DST_STAT_LOSS_ACTIVE d)) fun c => (c.clearLoss d).showLoss d).blank := by simp
  simp [Chip.applySrc, hshow]

/-! ### Memory channels and the store (chapters 07 and 08) -/

@[simp] theorem Chip.chState_blank (n : Nat) : c.blank.chState n = c.chState n := by simp [Chip.chState]
@[simp] theorem Chip.chEnabled_blank : c.blank.chEnabled = c.chEnabled := by
  funext n
  simp [Chip.chEnabled]
@[simp] theorem Chip.enabledChans_blank : c.blank.enabledChans = c.enabledChans := by simp [Chip.enabledChans]
@[simp] theorem Chip.dramBudget_blank : c.blank.dramBudget = c.dramBudget := by simp [Chip.dramBudget]
@[simp] theorem Chip.sGib_blank : c.blank.sGib = c.sGib := by simp [Chip.sGib]
@[simp] theorem Chip.dmcRefresh_blank : c.blank.dmcRefresh = c.dmcRefresh.blank := by simp [Chip.dmcRefresh]
@[simp] theorem Chip.chEnter_blank (n st cause : Nat) : c.blank.chEnter n st cause = (c.chEnter n st cause).blank := by simp [Chip.chEnter]
@[simp] theorem Chip.trainStart_blank (n : Nat) : c.blank.trainStart n = (c.trainStart n).blank := by simp [Chip.trainStart]
@[simp] theorem Chip.dramLost_blank (n : Nat) : c.blank.dramLost n = (c.dramLost n).blank := by simp [Chip.dramLost]
@[simp] theorem Chip.applyDmc_blank (n on : Nat) : c.blank.applyDmc n on = (c.applyDmc n on).blank := by simp [Chip.applyDmc]
@[simp] theorem Chip.carafe_blank (r : Nat) : c.blank.carafe r = c.carafe r := by simp [Chip.carafe]
@[simp] theorem Chip.setCarafe_blank (r : Nat) (x : Carafe) : c.blank.setCarafe r x = (c.setCarafe r x).blank := by simp [Chip.setCarafe]
@[simp] theorem Chip.setPlay_blank (p : Nat) (x : Play) : c.blank.setPlay p x = (c.setPlay p x).blank := by simp [Chip.setPlay]
@[simp] theorem Chip.depth_blank (r : Nat) : c.blank.depth r = c.depth r := by simp [Chip.depth]
@[simp] theorem Chip.epoch64_blank (p : Nat) : c.blank.epoch64 p = c.epoch64 p := by simp [Chip.epoch64]
@[simp] theorem Chip.frameNow_blank (p f : Nat) : c.blank.frameNow p f = c.frameNow p f := by simp [Chip.frameNow]
@[simp] theorem Chip.tagOf_blank (r f : Nat) : c.blank.tagOf r f = c.tagOf r f := by simp [Chip.tagOf]
@[simp] theorem Chip.history_blank (r f : Nat) : c.blank.history r f = c.history r f := by simp [Chip.history]
@[simp] theorem Chip.shortShow_blank (p : Nat) : c.blank.shortShow p = (c.shortShow p).blank := by simp [Chip.shortShow]
@[simp] theorem Chip.wrHist_blank (r h : Nat) : c.blank.wrHist r h = (c.wrHist r h).blank := by simp [Chip.wrHist]
@[simp] theorem Chip.applyRecord_blank (r w v : Nat) : c.blank.applyRecord r w v = (c.applyRecord r w v).blank := by simp [Chip.applyRecord]
@[simp] theorem Chip.applyPlayback_blank (p w v keep : Nat) : c.blank.applyPlayback p w v keep = (c.applyPlayback p w v keep).blank :=
  by simp [Chip.applyPlayback]

end
end Sys2Proof.Machine
end

section
/-! SUPPORT. The duplicate histories play no part in what a change does: lanes, links, ports and flows. -/

namespace Sys2Proof.Machine

section
variable (c : Chip)

/-! ### SDI lanes (chapter 09) -/

@[simp] theorem Chip.sdiLane_blank (n : Nat) : c.blank.sdiLane n = c.sdiLane n := by simp [Chip.sdiLane]
@[simp] theorem Chip.setSdiLane_blank (n : Nat) (x : SdiLane) : c.blank.setSdiLane n x = (c.setSdiLane n x).blank := by simp [Chip.setSdiLane]
@[simp] theorem Chip.rxState_blank (n : Nat) : c.blank.rxState n = c.rxState n := by simp [Chip.rxState]
@[simp] theorem Chip.rxHunt_blank (n : Nat) : c.blank.rxHunt n = (c.rxHunt n).blank := by simp [Chip.rxHunt]
@[simp] theorem Chip.rxLos_blank (n : Nat) : c.blank.rxLos n = (c.rxLos n).blank := by simp [Chip.rxLos]
@[simp] theorem Chip.txWant_blank (n : Nat) : c.blank.txWant n = c.txWant n := by simp [Chip.txWant]
@[simp] theorem Chip.laneRate_blank (n : Nat) : c.blank.laneRate n = c.laneRate n := by simp [Chip.laneRate]
@[simp] theorem Chip.unmutes_blank (n : Nat) : c.blank.unmutes n = c.unmutes n := by simp [Chip.unmutes]
@[simp] theorem Chip.nextFrame_blank (n : Nat) : c.blank.nextFrame n = c.nextFrame n := by simp [Chip.nextFrame]
@[simp] theorem Chip.txPlan_blank (n : Nat) : c.blank.txPlan n = (c.txPlan n).blank := by simp [Chip.txPlan]
@[simp] theorem Chip.txRefresh_blank (n : Nat) : c.blank.txRefresh n = (c.txRefresh n).blank := by simp [Chip.txRefresh]
@[simp] theorem Chip.txLnr_blank (n : Nat) : c.blank.txLnr n = (c.txLnr n).blank := by simp [Chip.txLnr]
@[simp] theorem Chip.nextEav_blank (n : Nat) : c.blank.nextEav n = c.nextEav n := by simp [Chip.nextEav]
@[simp] theorem Chip.txEav_blank (n : Nat) : c.blank.txEav n = (c.txEav n).blank := by simp [Chip.txEav]
@[simp] theorem Chip.applySdiRx_blank (n w : Nat) : c.blank.applySdiRx n w = (c.applySdiRx n w).blank := by simp [Chip.applySdiRx]
@[simp] theorem Chip.applySdiTx_blank (n w : Nat) : c.blank.applySdiTx n w = (c.applySdiTx n w).blank := by simp [Chip.applySdiTx]

/-! ### Fabric lanes and links (chapters 10 and 11) -/

@[simp] theorem Chip.lane_blank (n : Nat) : c.blank.lane n = c.lane n := by simp [Chip.lane]
@[simp] theorem Chip.setLane_blank (n : Nat) (x : FabLane) : c.blank.setLane n x = (c.setLane n x).blank := by simp [Chip.setLane]
@[simp] theorem Chip.lnSt_blank (n : Nat) : c.blank.lnSt n = c.lnSt n := by simp [Chip.lnSt]
@[simp] theorem Chip.lnForget_blank (n : Nat) : c.blank.lnForget n = (c.lnForget n).blank := by simp [Chip.lnForget]
@[simp] theorem Chip.lnLnr_blank (n : Nat) : c.blank.lnLnr n = (c.lnLnr n).blank := by simp [Chip.lnLnr]
@[simp] theorem Chip.lnTxLnr_blank (n : Nat) : c.blank.lnTxLnr n = (c.lnTxLnr n).blank := by simp [Chip.lnTxLnr]
@[simp] theorem Chip.lnTrainStart_blank (n : Nat) (lnr : Bool) : c.blank.lnTrainStart n lnr = (c.lnTrainStart n lnr).blank :=
  by simp [Chip.lnTrainStart]
@[simp] theorem Chip.applyLoop_blank (n w : Nat) : c.blank.applyLoop n w = (c.applyLoop n w).blank := by simp [Chip.applyLoop]
@[simp] theorem Chip.applyLane_blank (n w : Nat) : c.blank.applyLane n w = (c.applyLane n w).blank := by simp [Chip.applyLane]
@[simp] theorem Chip.link_blank (l : Nat) : c.blank.link l = c.link l := by simp [Chip.link]
@[simp] theorem Chip.setLink_blank (l : Nat) (x : Link) : c.blank.setLink l x = (c.setLink l x).blank := by simp [Chip.setLink]
@[simp] theorem Chip.linkWidth_blank (l : Nat) : c.blank.linkWidth l = c.linkWidth l := by simp [Chip.linkWidth]
@[simp] theorem Chip.linkOf_blank (n : Nat) : c.blank.linkOf n = c.linkOf n := by simp [Chip.linkOf]
@[simp] theorem Chip.linkLanes_blank (l : Nat) : c.blank.linkLanes l = c.linkLanes l := by simp [Chip.linkLanes]
@[simp] theorem Chip.lnUsable_blank : c.blank.lnUsable = c.lnUsable := by
  funext n
  simp [Chip.lnUsable]
@[simp] theorem Chip.rxUp_blank (l : Nat) : c.blank.rxUp l = c.rxUp l := by simp [Chip.rxUp]
@[simp] theorem Chip.fabIdx_blank (s : Nat) : c.blank.fabIdx s = c.fabIdx s := by simp [Chip.fabIdx]
@[simp] theorem Chip.linkSlots_blank (l : Nat) : c.blank.linkSlots l = (c.linkSlots l).blank := by simp [Chip.linkSlots]
@[simp] theorem Chip.linkShow_blank (l : Nat) : c.blank.linkShow l = (c.linkShow l).blank := by simp [Chip.linkShow]
@[simp] theorem Chip.linkCarried_blank (l : Nat) : c.blank.linkCarried l = (c.linkCarried l).blank := by simp [Chip.linkCarried]
@[simp] theorem Chip.linkDown_blank (l cause : Nat) : c.blank.linkDown l cause = (c.linkDown l cause).blank := by simp [Chip.linkDown]
@[simp] theorem Chip.laneTouched_blank (n : Nat) : c.blank.laneTouched n = (c.laneTouched n).blank := by
  cases h : c.linkOf n <;> simp [Chip.laneTouched, h]
@[simp] theorem Chip.applySlot_blank (s w : Nat) : c.blank.applySlot s w = (c.applySlot s w).blank := by simp [Chip.applySlot]
@[simp] theorem Chip.applyFabCfg_blank (w : Nat) : c.blank.applyFabCfg w = (c.applyFabCfg w).blank := by simp [Chip.applyFabCfg]
@[simp] theorem Chip.applyLink_blank (l a b : Nat) : c.blank.applyLink l a b = (c.applyLink l a b).blank := by simp [Chip.applyLink]

/-! ### Network ports and flows (chapters 12 and 13) -/

@[simp] theorem Chip.net_blank (p : Nat) : c.blank.net p = c.net p := by simp [Chip.net]
@[simp] theorem Chip.setNet_blank (p : Nat) (x : NetPort) : c.blank.setNet p x = (c.setNet p x).blank := by simp [Chip.setNet]
@[simp] theorem Chip.netCount_blank (p k n : Nat) : c.blank.netCount p k n = (c.netCount p k n).blank := by simp [Chip.netCount]
@[simp] theorem Chip.npState_blank (p : Nat) : c.blank.npState p = c.npState p := by simp [Chip.npState]
@[simp] theorem Chip.npTo_blank (p st : Nat) : c.blank.npTo p st = (c.npTo p st).blank := by simp [Chip.npTo]
@[simp] theorem Chip.npStart_blank (p : Nat) : c.blank.npStart p = c.npStart p := by simp [Chip.npStart]
@[simp] theorem Chip.netDown_blank (p cause : Nat) : c.blank.netDown p cause = (c.netDown p cause).blank := by simp [Chip.netDown]
@[simp] theorem Chip.netActive_blank (p : Nat) : c.blank.netActive p = c.netActive p := by simp [Chip.netActive]
@[simp] theorem Chip.netRefresh_blank (p : Nat) : c.blank.netRefresh p = (c.netRefresh p).blank := by simp [Chip.netRefresh]
@[simp] theorem Chip.netLnr_blank (p : Nat) : c.blank.netLnr p = (c.netLnr p).blank := by simp [Chip.netLnr]
@[simp] theorem Chip.applyGcl_blank (p : Nat) (ws : List Nat) : c.blank.applyGcl p ws = (c.applyGcl p ws).blank := by simp [Chip.applyGcl]
@[simp] theorem Chip.netLanesOff_blank (p : Nat) : c.blank.netLanesOff p = (c.netLanesOff p).blank := by simp [Chip.netLanesOff]
@[simp] theorem Chip.applyNetPort_blank (p : Nat) (ws : List Nat) : c.blank.applyNetPort p ws = (c.applyNetPort p ws).blank :=
  by simp [Chip.applyNetPort]
@[simp] theorem Chip.setFlow_blank (f : Nat) (x : Flow) : c.blank.setFlow f x = (c.setFlow f x).blank := by simp [Chip.setFlow]
@[simp] theorem Chip.setSender_blank (s : Nat) (x : Sender) : c.blank.setSender s x = (c.setSender s x).blank := by simp [Chip.setSender]
@[simp] theorem Chip.enginePlane_blank : c.blank.enginePlane = c.enginePlane := by simp [Chip.enginePlane]
@[simp] theorem Chip.anchored_blank (q : Nat) : c.blank.anchored q = c.anchored q := by simp [Chip.anchored]
@[simp] theorem Chip.applyAnchor_blank (q : Nat) (ws : List Nat) : c.blank.applyAnchor q ws = (c.applyAnchor q ws).blank := by simp [Chip.applyAnchor]
@[simp] theorem Chip.dropAnchor_blank (q : Nat) : c.blank.dropAnchor q = (c.dropAnchor q).blank := by simp [Chip.dropAnchor]
@[simp] theorem Chip.rxRuns_blank : c.blank.rxRuns = c.rxRuns := by simp [Chip.rxRuns]
@[simp] theorem Chip.txRuns_blank : c.blank.txRuns = c.txRuns := by simp [Chip.txRuns]
/-- The fields of a flow that joins. -/
def Chip.joinFields (c : Chip) (f : Nat) (ws : List Nat) : Chip :=
  let w := ws.getD 0 0
  let lat := if flowKind f = 2 then c.rd (NET_RXF_CTL_LAT (bits (ws.getD 1 0) 9 5)) else bits w 10 4
  let c := c.put (NET_RXF_CTL f) (1 + bits w 7 1 * 2 + bits w 8 1 * 4 + bits w 9 1 * 8 + lat * 16 + bits w 14 5 * 256)
  (c.put (NET_RXF_AUX f) (ws.getD 1 0)).each [0, 1] fun c leg =>
    ((c.put (NET_RXF_LEG_ADDR f leg) (ws.getD (2 + 3 * leg) 0)).put (NET_RXF_LEG_SRC f leg) (ws.getD (3 + 3 * leg) 0)).put
      (NET_RXF_LEG_PORT f leg) (ws.getD (4 + 3 * leg) 0)

/-- A flow that joins has heard nothing yet. -/
def Chip.joinFresh (c : Chip) (f : Nat) : Chip :=
  let c := ((c.wr (NET_RXF_STAT_STATE f) 1).clr (legUp f 0)).clr (legUp f 1)
  c.setFlow f { legAt := (c.now, c.now), marginAt := c.now, joinedAt := c.now }

/-- An audio flow that joins takes its run of engine inputs. -/
def Chip.joinRun (c : Chip) (f : Nat) (run : Option Nat) : Chip :=
  c.when (flowKind f == 1) fun c => match run with
    | some b => c.put (AUD_RXF_BASE (f - 32)) (b + 2 ^ 15)
    | none => c

/-- The source of a video flow that joins is judged anew. -/
def Chip.joinSource (c : Chip) (f : Nat) : Chip :=
  c.when (flowKind f == 0) fun c => (c.setSrc (240 + f) { c.src (240 + f) with mapped := false, good := 0, bad := 0 }).followClass (240 + f)
    |>.judgeSrc (240 + f)

theorem Chip.applyJoin_stages (f : Nat) (ws : List Nat) : c.applyJoin f ws =
    (((c.joinFields f ws).joinFresh f).joinRun f (lowestRun c.rxRuns (channelsOf (ws.getD 1 0)))).joinSource f := rfl

@[simp] theorem Chip.joinFields_blank (f : Nat) (ws : List Nat) : c.blank.joinFields f ws = (c.joinFields f ws).blank := by
  simp [Chip.joinFields]
@[simp] theorem Chip.joinFresh_blank (f : Nat) : c.blank.joinFresh f = (c.joinFresh f).blank := by simp [Chip.joinFresh]
@[simp] theorem Chip.joinRun_blank (f : Nat) (run : Option Nat) : c.blank.joinRun f run = (c.joinRun f run).blank := by
  cases run <;> simp [Chip.joinRun]
@[simp] theorem Chip.joinSource_blank (f : Nat) : c.blank.joinSource f = (c.joinSource f).blank := by simp [Chip.joinSource]
@[simp] theorem Chip.applyJoin_blank (f : Nat) (ws : List Nat) : c.blank.applyJoin f ws = (c.applyJoin f ws).blank := by
  simp only [Chip.applyJoin_stages, Chip.joinFields_blank, Chip.joinFresh_blank, Chip.rxRuns_blank, Chip.joinRun_blank, Chip.joinSource_blank]
@[simp] theorem Chip.applyLeave_blank (f : Nat) : c.blank.applyLeave f = (c.applyLeave f).blank := by simp [Chip.applyLeave]
@[simp] theorem Chip.senderPlane_blank (s aux : Nat) : c.blank.senderPlane s aux = c.senderPlane s aux := by simp [Chip.senderPlane]
@[simp] theorem Chip.netOutSends_blank (s : Nat) : c.blank.netOutSends s = c.netOutSends s := by simp [Chip.netOutSends]
@[simp] theorem Chip.senderReady_blank (s : Nat) : c.blank.senderReady s = c.senderReady s := by simp [Chip.senderReady]
@[simp] theorem Chip.senderJudge_blank (s : Nat) : c.blank.senderJudge s = (c.senderJudge s).blank := by simp [Chip.senderJudge]
/-- The fields of a sender's setting. -/
def Chip.senderFields (c : Chip) (s : Nat) (ws : List Nat) : Chip :=
  let c := c.put (NET_TXF_CTL s) (bits (ws.getD 0 0) 7 13)
  let c := ((c.put (NET_TXF_AUX s) (ws.getD 1 0)).put (NET_TXF_HDR s) (ws.getD 2 0)).put (NET_TXF_SSRC s) (ws.getD 3 0)
  c.each [0, 1] fun c leg =>
    ((c.put (NET_TXF_LEG_DST s leg) (ws.getD (4 + 3 * leg) 0)).put (NET_TXF_LEG_SRC s leg) (ws.getD (5 + 3 * leg) 0)).put
      (NET_TXF_LEG_PORTS s leg) (ws.getD (6 + 3 * leg) 0)

/-- A sender that is enabled takes its run of engine outputs and is judged. -/
def Chip.senderOn (c : Chip) (s : Nat) (was : Bool) (run : Option Nat) : Chip :=
  let c := c.when (!was) fun c => (c.setSender s {}).wr (NET_TXF_STAT_STATE s) 1
  let c := c.when (flowKind s == 1 && !was) fun c => match run with
    | some b => c.put (AUD_TXF_BASE (s - 32)) (b + 2 ^ 15)
    | none => c
  c.when (flowKind s == 1) (·.senderJudge s)

/-- A sender that is not enabled. -/
def Chip.senderOff (c : Chip) (s : Nat) : Chip :=
  ((c.wr (NET_TXF_STAT_STATE s) 0).setSender s {}).when (flowKind s == 1) (·.put (AUD_TXF_BASE (s - 32)) 0)

theorem Chip.applySender_stages (s : Nat) (ws : List Nat) : c.applySender s ws =
    if bit (ws.getD 0 0) 7 then (c.senderFields s ws).senderOn s (c.on (NET_TXF_CTL_ENABLE s)) (lowestRun c.txRuns (channelsOf (ws.getD 1 0)))
    else (c.senderFields s ws).senderOff s := rfl

@[simp] theorem Chip.senderFields_blank (s : Nat) (ws : List Nat) : c.blank.senderFields s ws = (c.senderFields s ws).blank := by
  simp [Chip.senderFields]
@[simp] theorem Chip.senderOn_blank (s : Nat) (was : Bool) (run : Option Nat) : c.blank.senderOn s was run = (c.senderOn s was run).blank := by
  cases run <;> simp [Chip.senderOn]
@[simp] theorem Chip.senderOff_blank (s : Nat) : c.blank.senderOff s = (c.senderOff s).blank := by simp [Chip.senderOff]
@[simp] theorem Chip.applySender_blank (s : Nat) (ws : List Nat) : c.blank.applySender s ws = (c.applySender s ws).blank := by
  simp only [Chip.applySender_stages, Chip.senderFields_blank, Chip.on_blank, Chip.txRuns_blank, Chip.senderOn_blank, Chip.senderOff_blank,
    Chip.ite_blank]

/-! ### PTP (chapter 14) -/

@[simp] theorem Chip.ptpPort_blank (p : Nat) : c.blank.ptpPort p = c.ptpPort p := by simp [Chip.ptpPort]
@[simp] theorem Chip.setPtpPort_blank (p : Nat) (x : PtpPort) : c.blank.setPtpPort p x = (c.setPtpPort p x).blank := by simp [Chip.setPtpPort]
@[simp] theorem Chip.servo_blank : c.blank.servo = c.servo := by simp [Chip.servo]
@[simp] theorem Chip.setServo_blank (st : Nat) : c.blank.setServo st = (c.setServo st).blank := by simp [Chip.setServo]
@[simp] theorem Chip.steer_blank (f : Int) : c.blank.steer f = (c.steer f).blank := by simp [Chip.steer]
@[simp] theorem Chip.holdFreq_blank : c.blank.holdFreq = c.holdFreq.blank := by simp [Chip.holdFreq]
@[simp] theorem Chip.bestMaster_blank (p : Nat) : c.blank.bestMaster p = c.bestMaster p := by simp [Chip.bestMaster]
@[simp] theorem Chip.gmId_blank : c.blank.gmId = c.gmId := by simp [Chip.gmId]
@[simp] theorem Chip.useMaster_blank (p : Nat) (m : Master) : c.blank.useMaster p m = (c.useMaster p m).blank := by simp [Chip.useMaster]
@[simp] theorem Chip.hasMaster_blank : c.blank.hasMaster = c.hasMaster := by simp [Chip.hasMaster]
@[simp] theorem Chip.portStates_blank : c.blank.portStates = c.portStates.blank := by simp [Chip.portStates]
@[simp] theorem Chip.ptpForgotten_blank : c.blank.ptpForgotten = c.ptpForgotten.blank := (rfl)
@[simp] theorem Chip.masterLost_blank : c.blank.masterLost = c.masterLost.blank := by simp [Chip.masterLost]
@[simp] theorem Chip.prefKept_blank (good : Bool) : c.blank.prefKept good = (c.prefKept good).blank := by
  cases good
  case false => rfl
  case true => rfl
@[simp] theorem Chip.masterChosen_blank (pref : Nat) : c.blank.masterChosen pref = (c.masterChosen pref).blank := by
  cases ha : c.bestMaster pref <;> cases hb : c.bestMaster (1 - pref) <;> simp [Chip.masterChosen, ha, hb]
@[simp] theorem Chip.selectMaster_blank : c.blank.selectMaster = c.selectMaster.blank := by simp [Chip.selectMaster_stages]
@[simp] theorem Chip.servoEnable_blank : c.blank.servoEnable = c.servoEnable.blank := by simp [Chip.servoEnable]
@[simp] theorem Chip.applyPtpPort_blank (p w : Nat) : c.blank.applyPtpPort p w = (c.applyPtpPort p w).blank := by simp [Chip.applyPtpPort]
@[simp] theorem Chip.applyPtpCfg_blank (w jump : Nat) : c.blank.applyPtpCfg w jump = (c.applyPtpCfg w jump).blank := by simp [Chip.applyPtpCfg]
@[simp] theorem Chip.mayRelock_blank : c.blank.mayRelock = c.mayRelock := by simp [Chip.mayRelock]
@[simp] theorem Chip.applyRelock_blank : c.blank.applyRelock = c.applyRelock.blank := by simp [Chip.applyRelock]

end
end Sys2Proof.Machine
end

section
/-! SUPPORT. The duplicate histories play no part in what a change does: references, audio, the multiviewer, the twin, resets and changes. -/

namespace Sys2Proof.Machine

section
variable (c : Chip)

/-! ### References (chapter 15) -/

@[simp] theorem Chip.cand_blank (k : Nat) : c.blank.cand k = c.cand k := by simp [Chip.cand]
@[simp] theorem Chip.setCand_blank (k : Nat) (x : Cand) : c.blank.setCand k x = (c.setCand k x).blank := by simp [Chip.setCand]
@[simp] theorem Chip.caState_blank (k : Nat) : c.blank.caState k = c.caState k := by simp [Chip.caState]
@[simp] theorem Chip.caTo_blank (k st : Nat) : c.blank.caTo k st = (c.caTo k st).blank := by simp [Chip.caTo]
@[simp] theorem Chip.rank_blank (k q : Nat) : c.blank.rank k q = c.rank k q := by simp [Chip.rank]
@[simp] theorem Chip.caOffset_blank (k : Nat) : c.blank.caOffset k = c.caOffset k := by simp [Chip.caOffset]
@[simp] theorem Chip.qualified_blank (q : Nat) : c.blank.qualified q = c.qualified q := by simp [Chip.qualified]
@[simp] theorem Chip.selected_blank (q : Nat) : c.blank.selected q = c.selected q := by simp [Chip.selected]
@[simp] theorem Chip.bestCand_blank (q : Nat) (l : List Nat) : c.blank.bestCand q l = c.bestCand q l := by simp [Chip.bestCand]
@[simp] theorem Chip.slew_blank (q : Nat) : c.blank.slew q = (c.slew q).blank := by simp [Chip.slew]
@[simp] theorem Chip.planeShow_blank (q : Nat) : c.blank.planeShow q = (c.planeShow q).blank := by simp [Chip.planeShow]
@[simp] theorem Chip.modelShow_blank (q : Nat) : c.blank.modelShow q = (c.modelShow q).blank := by simp [Chip.modelShow]
@[simp] theorem Chip.planeTo_blank (q st : Nat) : c.blank.planeTo q st = (c.planeTo q st).blank := by simp [Chip.planeTo]
@[simp] theorem Chip.switchTo_blank (q k : Nat) (phase : Int) : c.blank.switchTo q k phase = (c.switchTo q k phase).blank := by simp [Chip.switchTo]
@[simp] theorem Chip.freerun_blank (q : Nat) : c.blank.freerun q = (c.freerun q).blank := by simp [Chip.freerun]
@[simp] theorem Chip.loseRef_blank (q : Nat) : c.blank.loseRef q = (c.loseRef q).blank := by simp [Chip.loseRef]
@[simp] theorem Chip.planeStart_blank (q f : Nat) : c.blank.planeStart q f = (c.planeStart q f).blank := by simp [Chip.planeStart]
@[simp] theorem Chip.followsRef_blank : c.blank.followsRef = c.followsRef := by simp [Chip.followsRef]
@[simp] theorem Chip.wantsRef_blank (q : Nat) : c.blank.wantsRef q = c.wantsRef q := by simp [Chip.wantsRef]
@[simp] theorem Chip.reselect_blank (q : Nat) (ph : Nat → Nat → Int) : c.blank.reselect q ph = (c.reselect q ph).blank := by
  cases h : c.wantsRef q <;> simp [Chip.reselect, h]
@[simp] theorem Chip.disagreements_blank (q : Nat) : c.blank.disagreements q = c.disagreements q := by simp [Chip.disagreements]
@[simp] theorem Chip.judgePairs_blank (q : Nat) : c.blank.judgePairs q = (c.judgePairs q).blank := by simp [Chip.judgePairs]
@[simp] theorem Chip.leftQual_blank (k cause : Nat) : c.blank.leftQual k cause = (c.leftQual k cause).blank := by simp [Chip.leftQual]
@[simp] theorem Chip.goInactive_blank (k cause : Nat) : c.blank.goInactive k cause = (c.goInactive k cause).blank := by simp [Chip.goInactive]
@[simp] theorem Chip.reselectAll_blank (ph : Nat → Nat → Int) : c.blank.reselectAll ph = (c.reselectAll ph).blank := by simp [Chip.reselectAll]
@[simp] theorem Chip.ptpCand_blank : c.blank.ptpCand = c.ptpCand.blank := by simp [Chip.ptpCand]
@[simp] theorem Chip.applyCand_blank (k : Nat) (ws : List Nat) : c.blank.applyCand k ws = (c.applyCand k ws).blank := by simp [Chip.applyCand]
@[simp] theorem Chip.applyPlane_blank (q w w1 : Nat) : c.blank.applyPlane q w w1 = (c.applyPlane q w w1).blank := by simp [Chip.applyPlane]
@[simp] theorem Chip.applyRephase_blank (q : Nat) : c.blank.applyRephase q = (c.applyRephase q).blank := by simp [Chip.applyRephase]
@[simp] theorem Chip.applyRecal_blank : c.blank.applyRecal = c.applyRecal.blank := by simp [Chip.applyRecal]

/-! ### Audio (chapters 16 and 17) -/

@[simp] theorem Chip.coef_blank (k : Nat) : c.blank.coef k = c.coef k := by simp [Chip.coef]
@[simp] theorem Chip.setCoef_blank (k : Nat) (x : Coef) : c.blank.setCoef k x = (c.setCoef k x).blank := by simp [Chip.setCoef]
@[simp] theorem Chip.filt_blank (i : Nat) : c.blank.filt i = c.filt i := by simp [Chip.filt]
@[simp] theorem Chip.setFilt_blank (i : Nat) (x : Filt) : c.blank.setFilt i x = (c.setFilt i x).blank := by simp [Chip.setFilt]
@[simp] theorem Chip.lim_blank (o : Nat) : c.blank.lim o = c.lim o := by simp [Chip.lim]
@[simp] theorem Chip.setLim_blank (o : Nat) (x : Lim) : c.blank.setLim o x = (c.setLim o x).blank := by simp [Chip.setLim]
@[simp] theorem Chip.outUsed_blank : c.blank.outUsed = c.outUsed := by
  funext o
  simp [Chip.outUsed]
@[simp] theorem Chip.outTakes_blank (j : Nat) : c.blank.outTakes j = c.outTakes j := by simp [Chip.outTakes]
@[simp] theorem Chip.outs_blank : c.blank.outs = c.outs := by simp [Chip.outs]
@[simp] theorem Chip.bridged_blank : c.blank.bridged = c.bridged := by simp [Chip.bridged]
@[simp] theorem Chip.bridgeShow_blank : c.blank.bridgeShow = c.bridgeShow.blank := by simp [Chip.bridgeShow]
@[simp] theorem Chip.tell_blank (mtype : Nat) (body : List Nat) : c.blank.tell mtype body = (c.tell mtype body).blank := by simp [Chip.tell]
@[simp] theorem Chip.applyShuf_blank (j w : Nat) : c.blank.applyShuf j w = (c.applyShuf j w).blank := by simp [Chip.applyShuf]
@[simp] theorem Chip.applyEmbed_blank (d w : Nat) : c.blank.applyEmbed d w = (c.applyEmbed d w).blank := by simp [Chip.applyEmbed]
@[simp] theorem Chip.applyGain_blank (k g ramp : Nat) : c.blank.applyGain k g ramp = (c.applyGain k g ramp).blank := by simp [Chip.applyGain]
@[simp] theorem Chip.applyMixin_blank (i h : Nat) : c.blank.applyMixin i h = (c.applyMixin i h).blank := by simp [Chip.applyMixin]
@[simp] theorem Chip.applyMixout_blank (o w : Nat) : c.blank.applyMixout o w = (c.applyMixout o w).blank := by simp [Chip.applyMixout]
@[simp] theorem Chip.sapPort_blank (p : Nat) : c.blank.sapPort p = c.sapPort p := by simp [Chip.sapPort]
@[simp] theorem Chip.setSap_blank (p : Nat) (x : SapPort) : c.blank.setSap p x = (c.setSap p x).blank := by simp [Chip.setSap]
@[simp] theorem Chip.sapRuns_blank (p : Nat) : c.blank.sapRuns p = c.sapRuns p := by simp [Chip.sapRuns]
@[simp] theorem Chip.sapLocks_blank (p : Nat) : c.blank.sapLocks p = c.sapLocks p := by simp [Chip.sapLocks]
@[simp] theorem Chip.sapClocked_blank (p : Nat) : c.blank.sapClocked p = c.sapClocked p := by simp [Chip.sapClocked]
@[simp] theorem Chip.sapShow_blank (p : Nat) : c.blank.sapShow p = (c.sapShow p).blank := by simp [Chip.sapShow]
@[simp] theorem Chip.sapRestart_blank (p : Nat) : c.blank.sapRestart p = (c.sapRestart p).blank := by simp [Chip.sapRestart]
@[simp] theorem Chip.leadShow_blank : c.blank.leadShow = c.leadShow.blank := by
  have hfind : ((List.range 16).find? fun p => c.blank.on (SAP_PORT_CTL_ENABLE p) && c.blank.on (SAP_PORT_CTL_LEAD p))
      = (List.range 16).find? fun p => c.on (SAP_PORT_CTL_ENABLE p) && c.on (SAP_PORT_CTL_LEAD p) := by simp only [Chip.on_blank]
  rw [Chip.leadShow, Chip.leadShow, hfind]
  cases (List.range 16).find? fun p => c.on (SAP_PORT_CTL_ENABLE p) && c.on (SAP_PORT_CTL_LEAD p) <;> simp
@[simp] theorem Chip.engineOn_blank : c.blank.engineOn = c.engineOn := by simp [Chip.engineOn]
@[simp] theorem Chip.applySap_blank (p w : Nat) : c.blank.applySap p w = (c.applySap p w).blank := by simp [Chip.applySap]
@[simp] theorem Chip.applySapGroup_blank (w : Nat) : c.blank.applySapGroup w = (c.applySapGroup w).blank := by simp [Chip.applySapGroup]
@[simp] theorem Chip.applySapMclk_blank (w : Nat) : c.blank.applySapMclk w = (c.applySapMclk w).blank := by simp [Chip.applySapMclk]
@[simp] theorem Chip.sapApply_blank (k : Kind) (i w : Nat) : c.blank.sapApply k i w = (c.sapApply k i w).blank := by
  unfold Chip.sapApply
  split <;> simp
@[simp] theorem Chip.sapSet_blank (k : Kind) (i w : Nat) : c.blank.sapSet k i w = (c.sapSet k i w).blank := by simp [Chip.sapSet]
@[simp] theorem Chip.applyEngine_blank (q : Nat) : c.blank.applyEngine q = (c.applyEngine q).blank := by simp [Chip.applyEngine]

/-! ### The multiviewer (chapter 18) -/

@[simp] theorem Chip.head_blank (h : Nat) : c.blank.head h = c.head h := by simp [Chip.head]
@[simp] theorem Chip.setHead_blank (h : Nat) (x : Head) : c.blank.setHead h x = (c.setHead h x).blank := by simp [Chip.setHead]
@[simp] theorem Chip.setVl_blank (h v : Nat) (y : VLayer) : c.blank.setVl h v y = (c.setVl h v y).blank := by simp [Chip.setVl]
@[simp] theorem Chip.tapUnits_blank (s : Nat) : c.blank.tapUnits s = c.tapUnits s := by simp [Chip.tapUnits]
@[simp] theorem Chip.vlWords_blank (h v : Nat) : c.blank.vlWords h v = c.vlWords h v := by simp [Chip.vlWords]
@[simp] theorem Chip.vlTarget_blank (h v : Nat) : c.blank.vlTarget h v = c.vlTarget h v := by simp [Chip.vlTarget]
@[simp] theorem Chip.tapSet_blank (h v : Nat) (ws : List Nat) : c.blank.tapSet h v ws = (c.tapSet h v ws).blank := by simp [Chip.tapSet]
@[simp] theorem Chip.tapFree_blank (h v t : Nat) : c.blank.tapFree h v t = (c.tapFree h v t).blank := by simp [Chip.tapFree]
@[simp] theorem Chip.takeVl_blank (h v : Nat) (ws : List Nat) : c.blank.takeVl h v ws = (c.takeVl h v ws).blank := by simp [Chip.takeVl]
@[simp] theorem Chip.takeLater_blank (h : Nat) (x : Change) : c.blank.takeLater h x = (c.takeLater h x).blank := by simp [Chip.takeLater]
@[simp] theorem Chip.flipShow_blank (h : Nat) : c.blank.flipShow h = (c.flipShow h).blank := by simp [Chip.flipShow]
@[simp] theorem Chip.takeFlip_blank (h : Nat) (group : Bool) (idx fence : Nat) : c.blank.takeFlip h group idx fence = (c.takeFlip h group idx fence).blank :=
  by simp [Chip.takeFlip]
@[simp] theorem Chip.applyHead_blank (h w : Nat) : c.blank.applyHead h w = (c.applyHead h w).blank := by simp [Chip.applyHead]
@[simp] theorem Chip.headBoundary_blank (h : Nat) : c.blank.headBoundary h = (c.headBoundary h).blank := by
  cases h : (c.head h).due <;> simp [Chip.headBoundary, h]

/-! ### The twin (chapter 19) -/

@[simp] theorem Chip.setTwn_blank (x : Twn) : c.blank.setTwn x = (c.setTwn x).blank := by simp [Chip.setTwn]
@[simp] theorem Chip.twnMode_blank : c.blank.twnMode = c.twnMode := by simp [Chip.twnMode]
@[simp] theorem Chip.twnPhase_blank : c.blank.twnPhase = c.twnPhase := by simp [Chip.twnPhase]
@[simp] theorem Chip.twnFatal_blank : c.blank.twnFatal = c.twnFatal := by simp [Chip.twnFatal]
@[simp] theorem Chip.peerWrong_blank : c.blank.peerWrong = c.peerWrong := by simp [Chip.peerWrong]
@[simp] theorem Chip.twnShow_blank : c.blank.twnShow = c.twnShow.blank := by simp [Chip.twnShow]
@[simp] theorem Chip.applyTwnCfg_blank (w : Nat) : c.blank.applyTwnCfg w = (c.applyTwnCfg w).blank := by simp [Chip.applyTwnCfg]
@[simp] theorem Chip.applyHandover_blank (h : Nat) : c.blank.applyHandover h = (c.applyHandover h).blank := by simp [Chip.applyHandover]

/-! ### The bus and the counters (chapter 20) -/

@[simp] theorem Chip.setBus_blank (x : Bus) : c.blank.setBus x = (c.setBus x).blank := by simp [Chip.setBus]
@[simp] theorem Chip.busShow_blank : c.blank.busShow = c.busShow.blank := by simp [Chip.busShow]
@[simp] theorem Chip.masterReset_blank (m : Nat) : c.blank.masterReset m = (c.masterReset m).blank := by simp [Chip.masterReset]
@[simp] theorem Chip.pmcRuns_blank : c.blank.pmcRuns = c.pmcRuns := by simp [Chip.pmcRuns]
@[simp] theorem Chip.pmcOver_blank (core k : Nat) : c.blank.pmcOver core k = (c.pmcOver core k).blank := by simp [Chip.pmcOver]
@[simp] theorem Chip.eventsCounted_blank (k i : Nat) : c.blank.eventsCounted k i = (c.eventsCounted k i).blank := by
  simp [Chip.eventsCounted]
@[simp] theorem Chip.cyclesCounted_blank (k : Nat) : c.blank.cyclesCounted k = (c.cyclesCounted k).blank := by simp [Chip.cyclesCounted]
@[simp] theorem Chip.coreCounted_blank (k : Nat) : c.blank.coreCounted k = (c.coreCounted k).blank := by simp [Chip.coreCounted]

/-- The counters stand at an instant. -/
def Chip.pmcNow (c : Chip) (t : Nat) : Chip := { c with pmcAt := t }

theorem Chip.pmcSync_now : c.pmcSync = (c.when c.pmcRuns fun c => c.each (List.range 4) Chip.coreCounted).pmcNow c.now := rfl

@[simp] theorem Chip.pmcNow_blank (t : Nat) : c.blank.pmcNow t = (c.pmcNow t).blank := (rfl)
@[simp] theorem Chip.pmcSync_blank : c.blank.pmcSync = c.pmcSync.blank := by simp [Chip.pmcSync_now]
@[simp] theorem Chip.applyAperture_blank (w : Nat) : c.blank.applyAperture w = (c.applyAperture w).blank := by simp [Chip.applyAperture]

/-! ### Resets (chapter 03) -/

@[simp] theorem Chip.regsReset_blank (kind : Nat) : c.blank.regsReset kind = (c.regsReset kind).blank := by simp [Chip.regsReset]
@[simp] theorem Chip.coresLost_blank : c.blank.coresLost = c.coresLost.blank := by
  simp [Chip.coresLost]
  rfl
@[simp] theorem Chip.fwReset_blank (wdt : Bool) : c.blank.fwReset wdt = (c.fwReset wdt).blank := by simp [Chip.fwReset]
@[simp] theorem Chip.wiped_blank (kind : Nat) : c.blank.wiped kind = (c.wiped kind).blank := by
  simp [Chip.wiped]
  rfl
@[simp] theorem Chip.inProgress_blank : c.blank.inProgress = c.inProgress := by simp [Chip.inProgress]
@[simp] theorem Chip.pinReset_blank (phase : Phase) : c.blank.pinReset phase = (c.pinReset phase).blank := by simp [Chip.pinReset]
@[simp] theorem Chip.quiet_blank : c.blank.quiet = c.quiet.blank := by simp [Chip.quiet]
@[simp] theorem Chip.rxLnr_blank (n : Nat) : c.blank.rxLnr n = (c.rxLnr n).blank := by simp [Chip.rxLnr]
@[simp] theorem Chip.lnReset_blank (n : Nat) : c.blank.lnReset n = (c.lnReset n).blank := by simp [Chip.lnReset]
@[simp] theorem Chip.laneReset_blank (kind idx dir : Nat) : c.blank.laneReset kind idx dir = (c.laneReset kind idx dir).blank := by
  unfold Chip.laneReset
  split <;> simp
@[simp] theorem Chip.domWrite_blank (n v : Nat) : c.blank.domWrite n v = (c.domWrite n v).blank := by simp [Chip.domWrite]

/-! ### Updates (chapter 21) -/

@[simp] theorem Chip.setUpd_blank (x : Upd) : c.blank.setUpd x = (c.setUpd x).blank := by simp [Chip.setUpd]
@[simp] theorem Chip.updRec_blank : c.blank.updRec = c.updRec := by simp [Chip.updRec]
@[simp] theorem Chip.updShow_blank : c.blank.updShow = c.updShow.blank := by simp [Chip.updShow]
@[simp] theorem Chip.recWrite_blank (r : UpdRec) : c.blank.recWrite r = (c.recWrite r).blank := by simp [Chip.recWrite]
@[simp] theorem Chip.pkg_blank (b : Nat) : c.blank.pkg b = c.pkg b := by simp [Chip.pkg]
@[simp] theorem Chip.raiseCounters_blank (p : Package) : c.blank.raiseCounters p = (c.raiseCounters p).blank := by simp [Chip.raiseCounters]
@[simp] theorem Chip.trialCleared_blank : c.blank.trialCleared = c.trialCleared.blank := by simp [Chip.trialCleared]
@[simp] theorem Chip.endedRec_blank : c.blank.endedRec = c.endedRec := by simp [Chip.endedRec]
@[simp] theorem Chip.packageKept_blank (area : Nat) : c.blank.packageKept area = (c.packageKept area).blank := by
  cases h : c.pkg c.upd.bank <;> simp [Chip.packageKept, h]
@[simp] theorem Chip.confirm_blank : c.blank.confirm = c.confirm.blank := by
  by_cases h : c.updRec.trial = true
  case pos => simp [Chip.confirm_stages, h]
  case neg => simp [Chip.confirm, h]
@[simp] theorem Chip.activate_blank (w : Nat) : c.blank.activate w = (c.activate w).blank := by simp [Chip.activate]

/-! ### Changes, and the loads at an epoch (R36 to R38) -/

@[simp] theorem Chip.clearBits_blank (off mask : Nat) : c.blank.clearBits off mask = (c.clearBits off mask).blank := by
  unfold Chip.clearBits
  split <;> simp
@[simp] theorem Chip.applyRole_blank (v : Nat) : c.blank.applyRole v = (c.applyRole v).blank := by simp [Chip.applyRole]
@[simp] theorem Chip.applyCancel_blank (chan seq : Nat) : c.blank.applyCancel chan seq = (c.applyCancel chan seq).blank := (rfl)
@[simp] theorem Chip.applyChange_blank (x : Change) : c.blank.applyChange x = (c.applyChange x).blank := by
  unfold Chip.applyChange
  split <;> simp
@[simp] theorem Chip.epochKey_blank (q : Nat) : c.blank.epochKey q = c.epochKey q := by
  funext e
  simp [Chip.epochKey]
@[simp] theorem Chip.queueChange_blank (p : Pend) : c.blank.queueChange p = (c.queueChange p).blank := (rfl)
@[simp] theorem Chip.queueFill_blank : c.blank.queueFill = c.queueFill := by simp [Chip.queueFill]
@[simp] theorem Chip.dueBy_blank (q e : Nat) : c.blank.dueBy q e = c.dueBy q e := by simp [Chip.dueBy]
@[simp] theorem Chip.epochsOf_blank (q : Nat) : c.blank.epochsOf q = c.epochsOf q := by simp [Chip.epochsOf]
@[simp] theorem Chip.headsDue_blank (q : Nat) : c.blank.headsDue q = c.headsDue q := by simp [Chip.headsDue]
@[simp] theorem Chip.project_blank (q e : Nat) : c.blank.project q e = (c.project q e).blank := by simp [Chip.project]
@[simp] theorem Chip.xptLoads_blank : c.blank.xptLoads = c.xptLoads := by simp [Chip.xptLoads]
@[simp] theorem Chip.crosses_blank : c.blank.crosses = c.crosses := by simp [Chip.crosses]
@[simp] theorem Chip.dramLoads_blank : c.blank.dramLoads = c.dramLoads := by simp [Chip.dramLoads]
@[simp] theorem Chip.tileLoads_blank : c.blank.tileLoads = c.tileLoads := by simp [Chip.tileLoads]
@[simp] theorem Chip.load_blank : c.blank.load = c.load := by simp [Chip.load]
@[simp] theorem Chip.xptCap_blank : c.blank.xptCap = c.xptCap := by simp [Chip.xptCap]
@[simp] theorem Chip.takeEpochs_blank (q : Nat) : c.blank.takeEpochs q = c.takeEpochs q := by simp [Chip.takeEpochs]
@[simp] theorem Chip.unfreed_blank (q : Nat) : c.blank.unfreed q = c.unfreed q := by simp [Chip.unfreed]
@[simp] theorem Chip.peerReach_blank : c.blank.peerReach = c.peerReach := by simp [Chip.peerReach]

end
end Sys2Proof.Machine
end

section
/-! SUPPORT. The duplicate histories play no part in what the checks of a request decide (R135, R136): the loads at every epoch, admission, and the
checks of a routing request. -/

namespace Sys2Proof.Machine

section
variable (c : Chip)

/-! ### Loads and admission -/

theorem Chip.beside_blank (q : Nat) : c.blank.beside q = (c.beside q).map Chip.blank := by
  simp [Chip.beside, Function.comp_def]

@[simp] theorem Chip.flatMap_xptLoads_blank (l : List Chip) : (l.map Chip.blank).flatMap Chip.xptLoads = l.flatMap Chip.xptLoads := by
  simp [List.flatMap_map]
@[simp] theorem Chip.flatMap_dramLoads_blank (l : List Chip) : (l.map Chip.blank).flatMap Chip.dramLoads = l.flatMap Chip.dramLoads := by
  simp [List.flatMap_map]
@[simp] theorem Chip.flatMap_tileLoads_blank (l : List Chip) : (l.map Chip.blank).flatMap Chip.tileLoads = l.flatMap Chip.tileLoads := by
  simp [List.flatMap_map]

@[simp] theorem Chip.loadAt_blank (q : Nat) : c.blank.loadAt q = c.loadAt q := by
  funext e
  cases e <;> simp [Chip.loadAt, Chip.beside_blank]

theorem Chip.pendingPeak_blank : c.blank.pendingPeak = c.pendingPeak := by simp [Chip.pendingPeak]

@[simp] theorem Chip.planned_blank (p : Plan) : c.blank.planned p = (c.planned p).blank := by simp [Chip.planned]

@[simp] theorem Chip.admits_blank (p : Plan) : c.blank.admits p = c.admits p := by
  simp only [Chip.admits, Chip.planned_blank, Chip.takeEpochs_blank, Chip.loadAt_blank, Chip.epochKey_blank, Chip.xptCap_blank, Chip.dramBudget_blank]

/-! ### The checks of a routing request -/

@[simp] theorem routeArgs_blank (d : Chip) : routeArgs c.blank d.blank = routeArgs c d := by
  funext w
  simp [routeArgs]

@[simp] theorem routeState_blank : routeState c.blank = routeState c := by
  funext w
  simp [routeState]

@[simp] theorem Ctx.atEpoch_blank (m : Memory) (p want : Nat) : (c.blank.ctx m).atEpoch p want = ((c.ctx m).atEpoch p want).blank := by
  simp only [Ctx.atEpoch, Chip.ctx, Chip.assignEpoch_blank, Chip.project_blank]
  cases c.assignEpoch p want <;> rfl

theorem Ctx.c_ctx (m : Memory) : (c.ctx m).c = c := rfl

@[simp] theorem withEpoch_blank {α : Type} (p want : Nat) (k : Nat → Except Nat α) : withEpoch c.blank p want k = withEpoch c p want k := by
  simp [withEpoch]

theorem chkTake_blank (m : Memory) (r : Req) : chkTake (c.blank.ctx m) r = chkTake (c.ctx m) r := by
  simp [chkTake, Ctx.c_ctx]

/-! ### What the checks decide -/

theorem Chip.verdict_blank (m : Memory) (r : Req) {chk : Ctx → Req → Check} (hchk : chk (c.blank.ctx m) r = chk (c.ctx m) r) :
    c.blank.verdict m r chk = c.verdict m r chk := by
  have hchecked : c.blank.checked m r chk = c.checked m r chk := by rw [Chip.checked, Chip.checked, hchk]
  simp [Chip.verdict, hchecked]

/-- A routing request is judged alike before and after the history of its channel is trimmed. -/
theorem Chip.verdict_trimmed (ch : Nat) (m : Memory) (r : Req) : (c.trimmed ch).verdict m r chkTake = c.verdict m r chkTake :=
  calc (c.trimmed ch).verdict m r chkTake = (c.trimmed ch).blank.verdict m r chkTake := ((c.trimmed ch).verdict_blank m r (chkTake_blank _ m r)).symm
    _ = c.blank.verdict m r chkTake := by rw [Chip.blank_trimmed]
    _ = c.verdict m r chkTake := c.verdict_blank m r (chkTake_blank c m r)

theorem Chip.pendingPeak_trimmed (ch : Nat) : (c.trimmed ch).pendingPeak = c.pendingPeak := by
  rw [← Chip.pendingPeak_blank, Chip.blank_trimmed, Chip.pendingPeak_blank]

end
end Sys2Proof.Machine
end

section
/-! PROOFS. The queries without operands (R113, R145), and the answers of XPT_TAKE to a request that is refused, only checked or repeated (R135,
R136). -/

namespace Sys2Proof.Machine

/-! ### Queries without operands -/

/-- What XPT_GET_BUDGET tells does not depend on the duplicate histories. -/
theorem chkGetBudget_ok {c : Chip} {ch : Nat} {m : Memory} {r : Req} (hlen : r.len = 0) : chkGetBudget ((c.trimmed ch).ctx m) r =
    okPlan [loadOf c.xptLoads, c.xptCap, c.pendingPeak.1, loadOf c.dramLoads, c.dramBudget, c.pendingPeak.2, loadOf c.tileLoads, 64] := by
  have hload : (c.trimmed ch).load = c.load := by rw [← Chip.load_blank, Chip.blank_trimmed, Chip.load_blank]
  have hcap : (c.trimmed ch).xptCap = c.xptCap := by rw [← Chip.xptCap_blank, Chip.blank_trimmed, Chip.xptCap_blank]
  have hdram : (c.trimmed ch).dramBudget = c.dramBudget := by rw [← Chip.dramBudget_blank, Chip.blank_trimmed, Chip.dramBudget_blank]
  unfold chkGetBudget
  rw [require_pos (Req.lenIs_of hlen), Ctx.c_ctx, hload, hcap, hdram, Chip.pendingPeak_trimmed]
  rfl

/-- Settles O28: each query answers what its registers read; the peaks of the budget are computed at the pending epochs, on which the histories have no
bearing. -/
theorem plainQueries : Obligations.PlainQueries := by
  unfold Obligations.PlainQueries
  refine ⟨?_, ?_, ?_, ?_, ?_, ?_, ?_, ?_, ?_⟩
  · intro s t ch r c hc h
    exact State.query_answered hc h rfl (by decide) rfl
  · intro s t ch r c hc h hlen
    exact State.query_answered hc h rfl (by decide) (require_pos (Req.lenIs_of hlen))
  · intro s t ch r c hc h hlen
    exact State.query_answered hc h rfl (by decide) (require_pos (Req.lenIs_of hlen))
  · intro s t ch r c hc h hlen
    exact State.query_answered hc h rfl (by decide) (require_pos (Req.lenIs_of hlen))
  · intro s t ch r c hc h hlen
    exact State.query_answered hc h rfl (by decide) (require_pos (Req.lenIs_of hlen))
  · intro s t ch r c hc h hlen
    exact State.query_answered hc h rfl (by decide) (require_pos (Req.lenIs_of hlen))
  · intro s t ch r c hc h hlen
    exact State.query_answered hc h rfl (by decide) (require_pos (Req.lenIs_of hlen))
  · intro s t ch r c hc h hlen
    have hepoch : r.epoch = 0 := by
      obtain ⟨-, -, -, -, hepoch, -⟩ := h
      exact hepoch
    exact State.query_answered hc h rfl (by decide) ((require_pos (Req.lenIs_of hlen)).trans (require_pos (beq_iff_eq.2 hepoch)))
  · intro s t ch r c hc h hlen
    exact State.query_answered hc h rfl (by decide) (chkGetBudget_ok hlen)

/-! ### XPT_TAKE refused or only checked -/

theorem Chip.record_fw (c : Chip) (r : Req) (x : Resp) (taken : Bool) :
    (c.record r x taken).fw.journal = c.fw.journal ∧ (c.record r x taken).fw.running = c.fw.running ∧ (c.record r x taken).fw.queue = c.fw.queue :=
  ⟨rfl, rfl, rfl⟩

theorem Chip.record_bus (c : Chip) (r : Req) (x : Resp) (taken : Bool) : (c.record r x taken).bus = c.bus := rfl

theorem Chip.respond_bus (c : Chip) (r : Req) (x : Resp) (taken : Bool) : (c.respond r x taken).bus = c.bus := by
  rw [Chip.respond, Chip.record_bus, Chip.reply_bus]

/-- A response leaves the settings and the changes that the firmware keeps. -/
theorem Chip.respond_keeps {c d : Chip} {ch : Nat} (r : Req) (x : Resp) (hfw : d.fw = (c.trimmed ch).fw) :
    (d.respond r x false).fw.journal = c.fw.journal ∧ (d.respond r x false).fw.running = c.fw.running
      ∧ (d.respond r x false).fw.queue = c.fw.queue := by
  obtain ⟨hjournal, hrunning, hqueue⟩ := (d.reply r.chan r.head x).record_fw r x false
  rw [Chip.reply_fw, hfw] at hjournal hrunning hqueue
  exact ⟨hjournal, hrunning, hqueue⟩

/-- A row whose service responds to its request leaves what the firmware holds but for the answer. -/
theorem State.request_responds {s : State} {t op : Nat} {ch : Fin 16} {chk : Ctx → Req → Check} {r : Req} {x : Resp} {d : Chip}
    (hi : s.Inv) (hasks : s.asks t ch r) (houts : d.bus.outs = []) (hfw : d.fw = ((s.chipAt t).trimmed ch).fw)
    (hserve : (s.chipAt t).serve s.mem ch op chk = d.respond r x false) :
    ∃ s', s.request t ch op chk = .next s' ∧ s'.answered r x ∧ s'.chip.fw.journal = (s.chipAt t).fw.journal
      ∧ s'.chip.fw.running = (s.chipAt t).fw.running ∧ s'.chip.fw.queue = (s.chipAt t).fw.queue := by
  have hch : r.chan < 16 := by
    obtain ⟨-, -, -, -, hchan, -⟩ := hasks
    rw [hchan]
    exact ch.isLt
  obtain ⟨hrow, hanswered⟩ := State.request_answered hi.1 hserve (by rw [Chip.respond_bus, houts]) (Chip.respond_answered ..) hch
  refine ⟨_, hrow, hanswered, ?_⟩
  rw [State.commit_fw, Chip.busShow_fw, Chip.tellSelect_fw]
  exact Chip.respond_keeps r x hfw

theorem State.take_refused {s : State} {t : Nat} {ch : Fin 16} {r : Req} {x : Resp} {full : Bool} (h : s.asksFor t ch 0x0480 r.epoch r)
    (hverdict : (s.chipAt t).verdict s.mem r chkTake = .refuse x full) :
    ∃ s', Sys2Proof.Machine.exec (.xptTake t ch) s = .next s' ∧ s'.answered r x ∧ s'.chip.fw.journal = (s.chipAt t).fw.journal
      ∧ s'.chip.fw.running = (s.chipAt t).fw.running ∧ s'.chip.fw.queue = (s.chipAt t).fw.queue := by
  obtain ⟨hi, hasks, hop, -, -, houts⟩ := h
  obtain ⟨since, -, hserve⟩ := State.serve_asks hasks hop chkTake
  rw [Chip.judge, Chip.verdict_trimmed, hverdict] at hserve
  refine State.request_responds hi hasks ?_ ?_ hserve
  · rcases Chip.when_cases ((s.chipAt t).trimmed ch) (full && !r.checkOnly) (·.set XPT_STATUS_QUEUE_FULL) with hw | hw
    · rw [hw]; exact houts
    · rw [hw, Chip.set_def, Chip.wr_bus]; exact houts
  · rcases Chip.when_cases ((s.chipAt t).trimmed ch) (full && !r.checkOnly) (·.set XPT_STATUS_QUEUE_FULL) with hw | hw
    · rw [hw]
    · rw [hw, Chip.set_def, Chip.wr_fw]

theorem Chip.judge_checked {c c0 : Chip} {m : Memory} {r : Req} {chk : Ctx → Req → Check} {since : Nat} {p : Plan}
    (hverdict : c.verdict m r chk = .accept p) (hcheck : r.checkOnly = true) : c.judge c0 m r chk since = c.respond r p.checkedResp false := by
  rw [Chip.judge, hverdict]
  exact if_pos hcheck

theorem State.take_checked {s : State} {t : Nat} {ch : Fin 16} {r : Req} {p : Plan} (hi : s.Inv) (hasks : s.asks t ch r) (hop : r.opcode = 0x0480)
    (hcheck : r.checkOnly = true) (houts : (s.chipAt t).bus.outs = []) (hverdict : (s.chipAt t).verdict s.mem r chkTake = .accept p) :
    ∃ s', Sys2Proof.Machine.exec (.xptTake t ch) s = .next s' ∧ s'.answered r p.checkedResp ∧ s'.chip.fw.journal = (s.chipAt t).fw.journal
      ∧ s'.chip.fw.running = (s.chipAt t).fw.running ∧ s'.chip.fw.queue = (s.chipAt t).fw.queue := by
  obtain ⟨since, -, hserve⟩ := State.serve_asks hasks hop chkTake
  rw [Chip.judge_checked ((Chip.verdict_trimmed ..).trans hverdict) hcheck] at hserve
  exact State.request_responds (d := (s.chipAt t).trimmed ch) hi hasks houts rfl hserve

/-! ### XPT_TAKE repeated, or of another version -/

/-- A chip that ends a row with the reply of a channel, and the words it leaves. -/
theorem State.commit_replied {s : State} {d e : Chip} {ch : Nat} {ws : List Nat} {n : Nat} {fw : Fw} {ops : List MemOp} (hwf : s.mem.wf = true) (hn : n = ws.length)
    (hout : e.out = ops ++ [MemOp.words (respBuf ch) ws]) (hcell : e.cell (MBX_CH_STAT ch).off = d.cell (MBX_CH_STAT ch).off)
    (hbusy : d.on (MBX_CH_STAT_BUSY ch) = false) (hready : d.on (MBX_CH_STAT_RESP_READY ch) = true) (hfw : e.fw = fw) :
    (s.commit e).mem.wordsAt (respBuf ch) n = ws.map (· % 2 ^ 32) ∧ (s.commit e).chip.on (MBX_CH_STAT_BUSY ch) = false
      ∧ (s.commit e).chip.on (MBX_CH_STAT_RESP_READY ch) = true ∧ (s.commit e).chip.fw = fw :=
  ⟨State.commit_wordsAt s e _ _ hwf ⟨ops, hout⟩ n hn, (Chip.on_of_cell (c' := e) hcell).trans hbusy, (Chip.on_of_cell (c' := e) hcell).trans hready, hfw⟩

/-- A row whose service replies to its channel, and records nothing. -/
theorem State.request_replies {s : State} {t op w0 : Nat} {ch : Fin 16} {chk : Ctx → Req → Check} {x : Resp} (hi : s.Inv)
    (houts : (s.chipAt t).bus.outs = []) (hserve : (s.chipAt t).serve s.mem ch op chk = (s.chipAt t).reply ch w0 x) :
    ∃ s', s.request t ch op chk = .next s' ∧ s'.mem.wordsAt (respBuf ch) (4 + x.payload.length) = (x.words w0).map (· % 2 ^ 32)
      ∧ s'.chip.on (MBX_CH_STAT_BUSY ch) = false ∧ s'.chip.on (MBX_CH_STAT_RESP_READY ch) = true
      ∧ s'.chip.fw = (s.chipAt t).fw.served ch := by
  have hbusy := (s.chipAt t).on_reply_busy ch w0 x
  have hready := (s.chipAt t).on_reply_ready ch w0 x
  have hfw := (s.chipAt t).reply_fw ch w0 x
  have hout := (s.chipAt t).reply_out ch w0 x
  have hbus : ((s.chipAt t).reply ch w0 x).bus.outs = [] := by rw [Chip.reply_bus, houts]
  generalize (s.chipAt t).reply ch w0 x = d at hserve hbusy hready hfw hout hbus
  have hbus' : (d.tellSelect (s.chipAt t)).bus.outs = [] := by rw [Chip.tellSelect_bus, hbus]
  refine ⟨s.commit (d.tellSelect (s.chipAt t)).busShow, ?_, State.commit_replied (d := d) hi.1 (x.words_length w0).symm (ops := (s.chipAt t).out) ?_ ?_ hbusy hready ?_⟩
  · rw [State.request, State.run, hserve, Chip.busRun_idle _ _ hbus']
  · rw [Chip.busShow_out, Chip.tellSelect_out, hout]
  · rw [Chip.cell_busShow _ _ (by rw [MBX_CH_STAT_off]; omega), Chip.cell_of_regs (Chip.tellSelect_regs _ _)]
  · rw [Chip.busShow_fw, Chip.tellSelect_fw, hfw]

theorem Memory.word_lt (m : Memory) (a : Nat) : m.word a < 2 ^ 32 := by
  have hbyte (i : Nat) : (m.read i).toNat < 2 ^ 8 := (m.read i).isLt
  have h0 := hbyte a
  have h1 := hbyte (a + 1)
  have h2 := hbyte (a + 2)
  have h3 := hbyte (a + 3)
  unfold Memory.word
  omega

/-- Word 0 of a request buffer of version 1 is the head of its request. -/
theorem Memory.word_reqBuf {m : Memory} {ch : Nat} (hversion : reqVersion m ch = 1) : m.word (reqBuf ch) = (parseReq m ch).head := by
  have hlt := m.word_lt (reqBuf ch)
  simp only [reqVersion, Req.head, parseReq, bits] at hversion ⊢
  omega

/-- The service of a request that the history of its channel has answered (R136). -/
theorem Chip.serve_repeated {c : Chip} {m : Memory} {ch op since : Nat} {chk : Ctx → Req → Check} {r : Req} {h : Hist}
    (hbell : c.nextBell = some (ch, since)) (hbusy : c.on (MBX_CH_STAT_BUSY ch) = true) (hversion : reqVersion m ch = 1) (hparse : parseReq m ch = r)
    (hchan : r.chan = ch) (hhist : c.fw.hist.find? (fun h => h.chan == ch && h.seq == r.seq) = some h) (hop : h.opcode = r.opcode) (hlen : h.len = r.len) :
    c.serve m ch op chk = c.reply ch r.head { h.resp with flags := h.resp.flags ||| 1 } := by
  have hturn : ¬(ch ≠ ch ∨ (!c.on (MBX_CH_STAT_BUSY ch)) = true) := by rw [hbusy]; simp
  unfold Chip.serve
  rw [hbell, Memory.word_reqBuf hversion, hparse]
  refine (if_neg hturn).trans ((if_neg (not_not.2 hversion)).trans ((if_neg (not_not.2 hchan)).trans ?_))
  rw [hhist]
  simp [hop, hlen]

/-- The service of a request of another version (R135 step 1). -/
theorem Chip.serve_otherVersion {c : Chip} {m : Memory} {ch op since : Nat} {chk : Ctx → Req → Check} (hbell : c.nextBell = some (ch, since))
    (hbusy : c.on (MBX_CH_STAT_BUSY ch) = true) (hversion : reqVersion m ch ≠ 1) :
    c.serve m ch op chk = c.reply ch (m.word (reqBuf ch)) ⟨stBadOpcode, 0, 0, []⟩ := by
  have hturn : ¬(ch ≠ ch ∨ (!c.on (MBX_CH_STAT_BUSY ch)) = true) := by rw [hbusy]; simp
  unfold Chip.serve
  rw [hbell]
  exact (if_neg hturn).trans (if_pos hversion)

/-- Settles O27: the checks decide alike before and after the history makes room for the request, and none of these answers reaches what the firmware
keeps of settings and changes. -/
theorem refusedRequests : Obligations.RefusedRequests := by
  unfold Obligations.RefusedRequests
  refine ⟨?_, ?_, ?_, ?_⟩
  · rintro s t ch r x full c rfl h hverdict
    exact State.take_refused h hverdict
  · rintro s t ch r p c rfl hi hasks hop hcheck houts hverdict
    exact State.take_checked hi hasks hop hcheck houts hverdict
  · rintro s t ch r h since c rfl hi hbell hbusy hversion hparse hchan hhist hop hlen hflags - houts
    obtain ⟨s', hrow, hwords, hbusy', hready, hfw⟩ := State.request_replies (op := 0x0480) hi houts
      (Chip.serve_repeated (chk := chkTake) hbell hbusy hversion hparse hchan hhist hop hlen)
    refine ⟨s', hrow, ?_, hbusy', hready, ?_⟩
    · simpa [Resp.words, hflags] using hwords
    · rw [hfw]
      exact ⟨rfl, rfl, rfl, rfl⟩
  · rintro s t ch since c rfl hi hbell hbusy hversion houts
    obtain ⟨s', hrow, hwords, hbusy', hready, hfw⟩ := State.request_replies (op := 0x0480) hi houts
      (Chip.serve_otherVersion (chk := chkTake) hbell hbusy hversion)
    refine ⟨s', hrow, ?_, hbusy', hready, by rw [hfw]; rfl⟩
    simpa [Resp.words, stBadOpcode, Nat.mod_eq_of_lt (show s.mem.word (reqBuf ch) < 4294967296 from s.mem.word_lt _)] using hwords

end Sys2Proof.Machine
end
